-- ==== Sys2Proof/Word.lean ====
section
/-! DEFINITION. The word types of the register map: a register is 32 bits wide (R40), a ring or
window base 64 bits, a memory unit one byte.  Everything computed from them lives in `Machine/`. -/

namespace Sys2Proof

/-- A register value (R40). -/
abbrev Word := BitVec 32

/-- One byte of the NVM array or of the persistent window. -/
abbrev Byte := BitVec 8

end Sys2Proof
end

