-- ==== Sys2Proof/Syntax.lean ====
section
/-! DEFINITION. The commands of the block: one constructor per row of `spec/opcode_table.json`, in the
table's order, with the operands the spec's text gives the row.  An operand that is not under the
controller's control (what the host, a bridge, the twin, a sensor or a die answered) is an operand of
the command that reports it. -/

namespace Sys2Proof

/-- The traffic classes of Table SCO-6. -/
inductive Cls where
  | trump | high | normal | bulk
deriving DecidableEq, Repr

/-- The fields of a command header that every bridge command shares (Table LNK-3), with the bridge port
it arrived on (0 = port A, 1 = port B), the SEQ of its MSG flit and whether some reserved bit outside its fields is
nonzero (R260). -/
structure BCmd where
  side   : Nat
  seq    : Nat
  arm    : Bool
  lead   : Bool
  slc    : Bool
  tag    : Nat
  trick  : Nat
  die    : Nat
  planes : Nat
  block  : Nat
  page   : Nat
  junk   : Bool
deriving DecidableEq, Repr

/-- The fields of a response header (Table LNK-4). -/
structure BRsp where
  status : Nat
  tag    : Nat
  onfi   : Nat
  orphan : Bool
deriving DecidableEq, Repr

/-- The header of a received Gulon message (Table TWN-1) and its 16-byte tag; the command that carries it gives the type and, in clear, the
payload. -/
structure GMsg where
  mnum  : Nat
  ack   : Nat
  keyep : Nat
  side  : Nat
  inv   : Nat
  tag   : Nat
deriving DecidableEq, Repr

/-- What HELLO and HELLO_ACK carry (Table TWN-2): among it the 40 bytes of the wrapped session key and, at first pairing, those of the wrapped
shelf key. -/
structure Hello where
  serial   : Nat
  ver      : Nat
  fwMajor  : Nat
  seed     : Nat
  bandsFmt : Nat
  segs     : Nat
  fence    : Nat
  stop     : Nat
  dumpSeq  : Nat
  wkey     : Nat
  wshelf   : Option Nat
deriving DecidableEq, Repr

/-- One block of a MIRROR or SYNC message: its 4,096 stored bytes, its seal and cipher record as numbers, and its poison mark. -/
structure MBlk where
  data    : Nat
  sl      : Nat
  crec    : Nat
  poison  : Bool
deriving DecidableEq, Repr

/-- One granule version as MIRROR and SYNC carry it. -/
structure MVer where
  slice   : Nat
  granule : Nat
  gver    : Nat
  pwin    : Bool
  blks    : List MBlk
deriving DecidableEq, Repr

/-- A delta record's content (Table MAP-3), as JOURNAL and SYNC carry it. -/
structure MDelta where
  slice   : Nat
  granule : Nat
  entry   : Nat
deriving DecidableEq, Repr

/-- A persistent context copy (R175) as JOURNAL, SYNC and MOVE carry it: the context, the 128 bytes of its wrapped record if it holds one,
KEYGEN, both marks, and whether its zeroise is journaled. -/
structure MCtx where
  ctx     : Nat
  wrapped : Option Nat
  keygen  : Nat
  mark0   : Nat
  mark1   : Nat
  zeroed  : Bool
deriving DecidableEq, Repr

/-- One slice as MOVE, JOURNAL and SYNC carry it: its state (the code of Table VSL-1; 0 is UNBOUND), settings and generation. -/
structure MSlice where
  slice : Nat
  st    : Nat
  pasid : Nat
  blks  : Nat
  share : Nat
  tshare : Nat
  trumpEn : Bool
  qpMax : Nat
  pin   : Nat
  hdrm  : Nat
  sgen  : Nat
  hdrmUsed : Nat
deriving DecidableEq, Repr

/-- One queue context as MOVE carries it: its number, enables, coalescing, vector, ring addresses, heads, tails and generation. -/
structure MQueue where
  qid      : Nat
  en       : Bool
  ien      : Bool
  coalN    : Nat
  coalUs   : Nat
  vector   : Nat
  sqb      : Nat
  cqb      : Nat
  sqHead   : Nat
  sqTail   : Nat
  cqPosted : Nat
  cqHead   : Nat
  qgen     : Nat
deriving DecidableEq, Repr

/-- A bitmap record (Table SHF-4): KIND, SEQ, the band, and its regions that are dirty after it, with its stamp. -/
structure MBitmap where
  kind    : Nat
  seq     : Nat
  band    : Nat
  regions : Nat
  tick    : Nat
  epoch   : Nat
deriving DecidableEq, Repr

/-- The journal records of one message (Table TWN-2): delta records, MARK values (context, side, mark), slices, band states
(band, code of Table MAP-4), replacement sets (band, position, port, die, block), bitmap records,
persistent context copies, domain states (domain, state; R433) and health states (active conditions as bits, level, LEVEL_TICK,
LEVEL_EPOCH; R567). -/
structure JBatch where
  deltas  : List MDelta
  marks   : List (Nat × Nat × Nat)
  slices  : List MSlice
  bands   : List (Nat × Nat)
  sets    : List (Nat × Nat × Nat × Nat × Nat)
  bitmaps : List MBitmap
  ctxs    : List MCtx
  doms    : List (Nat × Nat)
  health  : List (Nat × Nat × Nat × Nat)
deriving DecidableEq, Repr

/-- The outcomes of the tests that bring-up runs (Table BRG-2, Table BRG-3), of what the image checks of R458 find that the array's bytes do not
say (the pages that read uncorrectable, and, by slot, whether the signature verifies under the Lenmond image key),
of HBM training (R353), of the search for the map root (R498) and of the bridge probes of R499. -/
structure BringUp where
  clearFail    : Nat
  pinFaults    : List (Nat × Nat)
  hostLanes    : Nat
  gulonLanes   : List Nat
  flashPorts   : List Nat
  hbmStacks    : List Nat
  hbmRepaired  : List Nat
  hardDecoders : List (Nat × Nat)
  whisks       : List Nat
  cryLanes     : List Nat
  ladles       : List Nat
  dealerPorts  : List Nat
  badArray     : Option Nat
  badMapCheck  : Option Nat
  imageUnc     : List Nat
  imageSig     : Nat
  journalFound : Bool
  anchors      : Nat
  retFail      : List Nat
  portsHeld    : Nat
  dies         : Nat
deriving DecidableEq, Repr

/-- The measurements of the qualification tests of Table ECC-5, in the table's units (nanoseconds for
times, bit errors for counts); `fresh` holds the sixty QLC offsets and then one per zone for SLC. -/
structure DieQual where
  planes     : Nat
  blocks     : Nat
  qlcPages   : Nat
  slcReadNs  : Nat
  qlcReadNs  : Nat
  suspendNs  : Nat
  slcProgNs  : Nat
  qlcProgNs  : Nat
  eraseNs    : Nat
  code       : Nat
  pol        : Nat
  disturb    : Nat
  freshQlc   : Nat
  freshSlc   : Nat
  fresh      : List Int
  ratedQlc   : Nat
  ratedSlc   : Nat
deriving DecidableEq, Repr

/-- The jobs of Table STK-2. -/
inductive Job where
  | move (cls : Cls)
  | merge (slice granule : Nat)
  | stripe (band stripe : Nat)
  | dparIn (port die block page : Nat)
  | dparOut (port die block page : Nat)
  | solve (id : Nat)
  | scrubWb (line : Nat)
deriving DecidableEq, Repr

/-- The kinds of SRAM array of R367 and Table STK-4, with what the array holds where it matters: a data array the page that owns it and the
unit that it carries (queue, tag, block of the command), if it carries one of a host command. -/
inductive ArrKind where
  | data (page : Nat) (unit : Option (Nat × Nat × Nat))
  | keyCtx (ctx : Nat)
  | held (page : Nat)
  | queueCtx (qid : Nat)
  | plan (port : Nat)
  | fwCore (core : Nat)
deriving DecidableEq, Repr

/-- What an HBM line of the stockpot buffers or of the delta log holds (Table STK-3): the spec places no item there. -/
inductive PotItem where
  | nothing
  | unit (qid tag block : Nat)
  | exportUnit (block : Nat)
  | stripeParity
  | accumulator (port die block acc : Nat)
  | deltaLog
deriving DecidableEq, Repr

/-- What a TAP instruction does (R493, R495): the spec names the instructions and gives no codes, so the code loaded is an operand
of its own. -/
inductive TapIns where
  | bypass | idcode | extest | extestPulse | extestTrain | sample | preload | scan
deriving DecidableEq, Repr

/-- One injected replay record (R486): its TYPE and SRC (Table SCP-5), TICK and RNUM, its body as numbers (an order of its
own per type, which `Machine/Replay.lean` gives), whether its segment's GCM tag verifies, and whether it is the last record of
its segment. -/
structure RpRecord where
  kind  : Nat
  src   : Nat
  tick  : Nat
  rnum  : Nat
  words : List Nat
  tagOk : Bool
  last  : Bool
deriving DecidableEq, Repr

/-- The spaces of Table REG-1 that hold registers, and the configuration space of a head (R59, R62). -/
inductive HostSpace where
  | bar0 | bar2 | bar4 | config
deriving DecidableEq, Repr

/-- One access of the host to a register space (R33, R40): the head it arrives on, whether it reads, its offset and size in bytes, and
the value that a write carries. -/
structure HostAccess where
  head  : Nat
  space : HostSpace
  rd    : Bool
  off   : Nat
  size  : Nat
  value : Nat
deriving DecidableEq, Repr

/-- The commands of the CH5120, one per row of the opcode table. -/
inductive Instr where
  -- Register pages and address map
  | registerWrite (a : HostAccess)
  | errClear (page : Nat)
  | ctlEn (page : Nat) (v : Word)
  | softRst (page : Nat) (v : Word)
  | softRstDone (page : Nat)
  | freeze (page : Nat) (v : Word)
  | isolate (page : Nat) (v : Word)
  | lockWrite (page : Nat) (v : Word)
  | lockTimeout (page : Nat)
  | intPendClear (page : Nat) (v : Word)
  | intEnWrite (page : Nat) (v : Word)
  | intVecWrite (page : Nat) (v : Word)
  | selectorWrite (off : Nat) (v : Word)
  | snapshotPublish (page : Nat)
  | warmReset (v : Word) (res : BringUp)
  | coldReset (v : Word) (res : BringUp)
  | resetNRecognised (res : BringUp)
  -- Host ports
  | headDown (head : Nat)
  | headUp (head rate width : Nat)
  | headWaitExpire (slice : Nat)
  | hostAccessFail (qid tag : Nat)
  | hifDmaTmoExpire (qid tag : Nat)
  | poisonedCompletion (qid tag block : Nat)
  | pwinLoad (head off len : Nat)
  | pwinStore (head off : Nat) (bytes : List Byte)
  | pwinWriteback (granule : Nat)
  | pwinResize (v : Word)
  | segEnable (n : Nat) (v : Word)
  | segDisable (n : Nat) (v : Word)
  | segDrained (n : Nat)
  | ideKmKeyProgram (head stream key : Nat) (spdm : Bool)
  | ideExhaust (head stream : Nat)
  | ideIntegrityFail (head stream : Nat)
  | ptmDialogue (offset residual : Int) (delay : Nat)
  | mctpMessage (kind : Nat)
  | alertConfiguration (set : Option Nat)
  | clearEventRecords (n : Nat)
  | setShutdownState (v : Nat)
  | mailboxUnsupported (opcode : Nat)
  | sliceHeadWrite (w : Nat) (v : Word)
  -- Command queues
  | sqTailDbWrite (slice qp : Nat) (v : Word)
  | cqHeadDbWrite (slice qp : Nat) (v : Word)
  | sqeFetch (qid entry : Nat)
  | ringFault (qid : Nat) (completion : Bool)
  | hazardRelease (qid tag : Nat)
  | read (qid tag : Nat) (lists : List (List Nat))
  | write (qid tag : Nat) (lists : List (List Nat)) (data : List Nat)
  | flush (qid tag : Nat)
  | discard (qid tag : Nat)
  | verify (qid tag : Nat)
  | writeZeroes (qid tag : Nat)
  | sealRead (qid tag : Nat) (lists : List (List Nat))
  | createQp (qid tag : Nat)
  | deleteQp (qid tag : Nat)
  | mapPin (qid tag : Nat)
  | mapUnpin (qid tag : Nat)
  | mapSpace (qid tag : Nat)
  | healthGet (qid tag : Nat)
  | coalesceTimeout (qid : Nat)
  | cqStallTimeout (qid : Nat)
  | qReset (slice qp : Nat) (v : Word)
  | cqeQRst (v : Word)
  | queueResetDrained (qid : Nat)
  | cqeQCtlWrite (off : Nat) (v : Word)
  -- Slices
  | sliceBind (v : Word)
  | sliceUnbind (v : Word)
  | sliceReset (v : Word)
  | sliceResetDone (slice : Nat)
  | sliceFreeze (v : Word)
  | sliceFrozenReached (slice : Nat)
  | sliceThaw (v : Word)
  | sliceSave (v : Word) (nvmOk : Bool)
  | sliceRestore (v : Word) (blob : Nat) (nvmOk : Bool)
  | sliceClear (v : Word)
  | sliceClearDone (slice : Nat)
  | shareWrite (v : Word)
  | blksHiWrite (v : Word)
  | blksLoWrite (v : Word)
  | blksShrinkApply (slice : Nat)
  | unitDispatch (qid tag : Nat)
  | exportStart (v : Word)
  | exportStop (v : Word)
  | exportRecord (hostOk : Bool)
  | exportConsWrite (v : Word)
  -- Cipher engine
  | importWrapped (v : Word)
  | importPlain (v : Word)
  | exportWrapped (v : Word)
  | saveState (v : Word)
  | restoreState (v : Word)
  | zeroise (v : Word)
  | zeroiseSlice (v : Word)
  | zeroiseDone (ctx : Nat)
  | cryOpInvalid (v : Word)
  | kekSet (v : Word)
  | laneFail (lane : Nat) (knownAnswer : Bool)
  -- Translation, space and garbage collection
  | mapPageLoad (slice page : Nat) (cls : Cls)
  | mapPageWriteback (slice page : Nat)
  | mapCommit (slice granule gver mismatches : Nat)
  | destage (slice granule gver : Nat)
  | noSpaceTimeout (qid tag : Nat)
  | relocCommit (slice granule fromLoc band stripe pos half : Nat)
  | bandErase (band : Nat)
  -- The Dealer and the trick clock
  | planCut (port : Nat) (residueBad : Bool)
  | agePromote (port tag : Nat)
  | susHoldExpire (port die : Nat)
  -- Flash ports and the flash lane protocol
  | trickMark (port side trick dly : Nat)
  | armConfirmCut (port : Nat)
  | markMiss (port : Nat)
  | flitReceive (port : Nat) (flit : List Byte)
  | ack (port seq : Nat)
  | nak (port seq : Nat)
  | replayTimeout (port : Nat)
  | recoveryTimeout (port : Nat)
  | dieRead (port : Nat) (c : BCmd) (cwMask oslot : Nat) (soft : Bool)
  | dieProgram (port : Nat) (c : BCmd) (buf : Nat)
  | dieErase (port : Nat) (c : BCmd)
  | dieSuspend (port : Nat) (c : BCmd)
  | dieResume (port : Nat) (c : BCmd)
  | dieStatus (port : Nat) (c : BCmd) (info : Bool) (onfi : Nat) (temp : Int)
  | setOffsets (port : Nat) (c : BCmd) (oslot : Nat) (ofs : List Int)
  | ownTake (port : Nat) (c : BCmd) (fence : Nat) (force : Bool)
  | ownRelease (port : Nat) (c : BCmd)
  | bridgePower (port : Nat) (c : BCmd) (state : Nat)
  | laneTest (port : Nat) (c : BCmd) (mode dur stamp errors : Nat)
  | pdata (port : Nat) (c : BCmd) (buf content : Nat)
  | rdata (port : Nat) (r : BRsp) (cwMask : Nat) (soft : Bool) (content : Nat)
  | done (port : Nat) (r : BRsp) (opc time100ns suspends : Nat)
  | status (port die : Nat) (r : BRsp) (dieState suspends lastTag lastStatus : Nat) (temp : Int)
      (info : Option (Nat × Nat × Nat × Nat × Nat))
  | own (port : Nat) (r : BRsp) (holder fence : Nat)
  | power (port : Nat) (r : BRsp) (state : Nat)
  | test (port : Nat) (r : BRsp) (stamp errors rtt : Nat)
  | armCut (port status trick cut : Nat) (fired : Bool) (count : Nat)
  | refuse (port : Nat) (r : BRsp) (opc : Nat)
  | dieResponseTimeout (port tag : Nat)
  | portInitTimeout (port : Nat)
  | recommission (port : Nat) (v : Word)
  | retrain (port : Nat) (v : Word)
  | laneTestGo (port : Nat) (v : Word)
  -- Read integrity
  | hardDecodeDone (port tag cw : Nat) (ok syndromeOk sealOk placementOk gcmOk : Bool) (e n01 n10 decoder : Nat)
  | whiskDecodeDone (port tag cw : Nat) (ok syndromeOk sealOk placementOk gcmOk : Bool) (whisk : Nat)
  | earlyVerifyTimeout (port die block page : Nat)
  | sieveVisit (band pos : Nat)
  | sieveWake (group : Nat)
  | eccRlSelWrite (v : Word)
  | dieQualify (port die : Nat) (q : DieQual)
  -- Shuffle layout
  | stripeWaitExpire (band : Nat)
  | reconstructSolve (band stripe column : Nat) (failed : List Nat) (checks : List Bool)
  | rebuildStripe
  | copyback (band pos die block : Nat) (verifyOk : Bool)
  | regionResync (band region : Nat)
  -- Stockpot and memory
  | hbmStackFault (stack cause : Nat)
  | creditGrant (cls : Nat)
  | ladleJob (ladle : Nat) (job : Job) (residueOk : Bool)
  | sramEccError (array word : Nat) (kind : ArrKind) (ue : Bool)
  | hbmCorrected (off : Nat) (newer : Bool)
  | hbmUncorrectable (off : Nat) (item : PotItem)
  | hbmRowRepair (off : Nat) (spareLeft : Bool)
  | hbmScrubRead (result : Nat) (newer : Bool) (item : PotItem)
  | sramScrubRead (array word result : Nat) (kind : ArrKind) (lapDone : Bool)
  -- Twin pairing
  | gulonLaneFail (lane cause : Nat)
  | hello (m : GMsg) (h : Hello)
  | helloAck (m : GMsg) (h : Hello)
  | rekey (m : GMsg) (wkey : Nat)
  | rekeyAck (m : GMsg)
  | mirror (m : GMsg) (vers : List MVer) (b : JBatch)
  | journal (m : GMsg) (b : JBatch)
  | free (m : GMsg) (slots : List (Nat × Nat × Nat))
  | wstore (m : GMsg) (stores : List (Nat × List Byte))
  | grant (m : GMsg) (pages used : Nat)
  | remoteOp (m : GMsg) (port opc die block page slice sgen qgen : Nat) (cls : Cls)
  | remoteDone (m : GMsg) (id status : Nat) (data : List Nat)
  | partial_ (m : GMsg) (request : Bool) (band stripe column : Nat) (sums : List Nat)
  | timeReq (m : GMsg) (t1 t2 : Nat)
  | timeRsp (m : GMsg) (t1 t2 t3 t4 : Int)
  | heartbeat (m : GMsg) (used peerState : Nat)
  | leave (m : GMsg)
  | sync (m : GMsg) (vers : List MVer) (b : JBatch) (fence : Nat) (windowBytes : List (Nat × List Byte)) (last : Bool)
  | move (m : GMsg) (slice : MSlice) (queues : List MQueue) (ctxs : List MCtx)
  | dumped (m : GMsg)
  | takeDelayExpire (heldByOther : Bool)
  | twinLeave (v : Word)
  | twnSlMove (v : Word)
  | pairkeySet (v : Word)
  -- Power
  | sleepRequest (v : Word)
  | deepRequest (v : Word)
  | offRequest (v : Word)
  | entryCancel (v : Word)
  | wake (sources : Nat) (levelAtIsolate : Bool) (res : BringUp)
  | domainDemandWake (g : Nat) (waiters : List (Nat × Nat))
  | domainOn (g : Nat)
  | domainTRetExpire (g : Nat)
  | domainTOffExpire (g : Nat)
  | domainStepDone (g : Nat)
  | domainWakeOp (v : Word)
  | parkRet (v : Word)
  | parkOff (v : Word)
  | pwrDomPolWrite (v : Word)
  | dumpDone (us : Nat)
  | dumpExit (res : BringUp)
  | vidFrame (code : Nat)
  -- Embedded firmware flash
  | unlockCycle (port off value : Nat)
  | nvmSeqTimeout (port : Nat)
  | programPage (port addr : Nat) (data : List Nat)
  | sectorErase (port sector : Nat)
  | suspend (port : Nat)
  | resume (port : Nat)
  | idStatus (port : Nat)
  | readStat (port : Nat)
  | nvmReset (port : Nat)
  | verifyMode (port mode : Nat)
  | nvmProgramDone (pass : Bool) (pulses : Nat)
  | nvmEraseDone (pass : Bool) (pulses : Nat)
  | apertureRead (off corr : Nat)
  | tryBoot (v : Word)
  | confirm (v : Word)
  -- Scorepad and replay
  | windowClose (bank : Nat)
  | bankPublish (bank : Nat)
  | sbCfgWrite (bank : Nat) (v : Word)
  | scpIncClr (v : Word)
  | captureStart (v : Word)
  | capkeySet (v : Word)
  | captureExportStart (v : Word)
  | captureExportSegment (hostOk : Bool)
  | scpXpConsWrite (v : Word)
  | replayStart (v : Word)
  | replayInject (r : RpRecord)
  | go (v : Word)
  | scpRpProdWrite (v : Word)
  -- Bring-up
  | pgAoRise (side bench dies64 : Bool) (res : BringUp)
  | tapInstruction (ins : TapIns) (ir : Nat)
  | tapTestLogicReset (res : BringUp)
  | openBandScan
  | format (bandsFormed : Nat) (bmPorts : Nat × Nat × Nat)
  | laneActive (port : Nat) (rtts : List Nat)
  | firmwareCoreFail (core : Nat) (again : Bool)
  | msixTableWrite (head off : Nat) (v : Word)
  | i3cDynamicAddress (addr : Nat)
  -- The rows without operands, of every family: they stand last because the compiler numbers constructors in order and can build
  -- one that has operands only with a number below 245
  | glbTimeRead
  | perstAN
  | perstBN
  | gpfPhase1
  | gpfPhase2
  | ptmTimeout
  | identifyMemoryDevice
  | getHealthInfo
  | getPoisonList
  | getEventRecords
  | gcVictimSelect
  | slcFold
  | trickBoundary
  | trickGroupBoundary
  | timeExchangeTimeout
  | eccDayAdvance
  | bitmapClearFlush
  | cacheAdmit
  | scrStarved
  | invLimit
  | freeSend
  | heartbeatSend
  | twinLossDecision
  | twinTakeover
  | pairWaitExpire
  | quiesceDone
  | flushDone
  | entryCommit
  | idleEntry
  | pgMainRise
  | powerGoodTimeout
  | pgMainRetry
  | pwrFailRecognised
  | vidAlert
  | pgMainFall
  | thermtrip
  | aoCounterEdge
  | nvmAutoResume
  | nvmFetchSuspend
  | nvmFetchResume
  | incidentJournal
  | captureSegmentWrite
  | captureCheckpoint
  | replayPause
  | release
  | ready
  | gulonLinkUp
  | gulonLinkDown
  | pgAoFall
deriving DecidableEq, Repr

end Sys2Proof
end

