-- ==== Sys2Proof/Decode.lean ====
section
/-! DEFINITION. The command a word spells.  `spec/opcode_table.json` gives no row of this block any bits: a command reaches the
device as an access to a register, a message on a link, a pin or a timer, never as a word of a program. -/

namespace Sys2Proof

/-- No row of the table has bits, so no word spells a command. -/
def decodeTableWord (_nbits _w : Nat) : Option Instr := none

end Sys2Proof
end

