-- ==== Sys2Proof/Machine/State.lean ====
section
/-! DEFINITION. The state of the CH5120 as plain data: the queue of waiting commands, the bytes of the
embedded flash array and of the persistent window, and the rest of the device.  Registers with a fixed address
and no per-instance bank are held in `Dev.regs` under their BAR0 offset (names and reset values in
`Machine/RegTable.lean`); what a selector register or a page number multiplies is held in one record per
instance.  Every sparse table is a list of (key, value) pairs with rising keys and no entry equal to the
table's default. -/

namespace Sys2Proof.Machine

/-- Why a command ends the machine. -/
inductive Fault where
  /-- Raised by every command to the controller after VSTBY or VAO left tolerance with the main rails up (R542: what the
  device does until the next power-up is undefined).  Safe: the machine stops where the spec promises nothing. -/
  | undefinedSupply
deriving DecidableEq, Repr

/-- Why a command has no meaning. -/
inductive Refusal where
  /-- The meaning of this row is not written.  Safe: nothing can be proved of it. -/
  | notModelled (mnemonic : String)
deriving DecidableEq, Repr

/-- A sparse table: (key, value) pairs with rising keys. -/
abbrev SMap (α : Type) := List (Nat × α)

/-- Bytes at addresses, in the same canonical form. -/
abbrev Memory := List Host.Cell

/-! ### What leaves the chip -/

/-- A completion entry before its ring position and time are known (Table CQE-6). -/
structure CE where
  tag    : Nat
  typ    : Nat
  status : Nat
  info   : Nat
  bitmap : Nat
deriving DecidableEq, Repr

/-- What the block does to the world outside, in the order it does it.  `bridge` is a message handed to a lane's transmitter, with the
fields of Table LNK-3 (FLAGS, TAG, TRICK, DIE, PLANES, BLOCK, PAGE, ARGS), whose flits follow as the lane takes them; `flit` is the 32 bytes of one flit
(Table LNK-1); `response` is a message of a bridge on one of its ports (Table LNK-4), its fields of its own last. -/
inductive Out where
  | msix (head vector : Nat)
  | unsupportedRequest (head : Nat)
  | configRetry (head : Nat)
  | completion (qid pasid head addr index phase ts status info sqhd tagw timeb : Nat)
  | hostRead (pasid head addr : Nat)
  | hostData (pasid head addr content : Nat)
  | hostReport (pasid head addr : Nat) (words : List Nat)
  | blob (head addr : Nat) (words : List Nat)
  | exportRecord (head slot addr : Nat) (words : List Nat)
  | captureSegment (head slot addr segnum : Nat) (units : List Nat)
  | readData (value : Nat)
  | poison
  | cxlDone
  | mailbox (code : Nat) (words : List Nat)
  | mctp (kind : Nat) (words : List Nat)
  | pldm (health : Nat)
  | bridge (port opc : Nat) (words : List Nat)
  | flit (port flit : Nat)
  | response (port side opc status tag onfi rflags : Nat) (rargs : List Nat)
  | gulon (header payload tag : Nat)
  | ballLevel (name : String) (level : Bool)
  | vid (code : Nat)
  | nvmData (bytes : List Byte)
  | stopReport (step : Nat)
deriving DecidableEq, Repr

/-! ### Register pages (Table REG-4) -/

/-- The header of one register page, and the publication state of its SEQ. -/
structure Page where
  en       : Bool
  softRst  : Bool
  freeze   : Bool
  isolate  : Bool
  err      : Bool
  seq      : Word
  intEn    : Word
  intPend  : Word
  vecSet   : Option Nat
  errCode  : Nat
  overflow : Nat
  info0    : Word
  info1    : Word
  errTick  : Nat
  unlocked : Bool
  lastWr   : Nat
  chkCnt   : Word
  pubTick  : Option Nat
deriving DecidableEq, Repr

/-- A page header at reset: EN = 1, everything else 0 (`vecSet = none` is the block's index). -/
def Page.reset : Page :=
  { en := true, softRst := false, freeze := false, isolate := false, err := false, seq := 0, intEn := 0, intPend := 0, vecSet := none, errCode := 0, overflow := 0, info0 := 0, info1 := 0,
    errTick := 0, unlocked := false, lastWr := 0, chkCnt := 0, pubTick := none }

/-! ### Stored blocks -/

/-- The seal of Table SHF-1. -/
structure Seal where
  guard   : Nat
  reftag  : Nat
  apptag  : Nat
  version : Nat
  flags   : Nat
deriving DecidableEq, Repr

/-- The cipher record of Table CRY-6. -/
structure CRec where
  keyidx : Nat
  gcm    : Bool
  side   : Nat
  keygen : Nat
  invoc  : Nat
  tag    : Nat
deriving DecidableEq, Repr

/-- A stored block: its 4,096 bytes as stored (ciphertext, or zeros of a filled block), its seal, its cipher record and its poison
mark. -/
structure Blk where
  data   : Nat
  sl     : Seal
  crec   : CRec
  poison : Bool
deriving DecidableEq, Repr

/-- Where a granule lies on flash (Table MAP-1), with the band and stripe that own the place. -/
structure Loc where
  slc    : Bool
  port   : Nat
  die    : Nat
  block  : Nat
  page   : Nat
  half   : Nat
  band   : Nat
  stripe : Nat
  pos    : Nat
deriving DecidableEq, Repr

/-- A map entry (Table MAP-1): `loc = none` is UNMAPPED. -/
structure MapEnt where
  gver : Nat
  loc  : Option Loc
deriving DecidableEq, Repr

/-- A granule as flash holds it, with the tick of its placement records (Table ECC-2). -/
structure Gran where
  slice   : Nat
  granule : Nat
  gver    : Nat
  pad     : Bool
  blks    : List Blk
  stamp   : Nat := 0
deriving DecidableEq, Repr

/-- One 64 KiB page across the four planes of a die: its two halves, whether it is a parity chunk, whether it
was programmed in SLC mode, whether its verify passed, and the sixteen columns of a parity chunk (R322). -/
structure FPage where
  half0    : Option Gran
  half1    : Option Gran
  parity   : Bool
  slc      : Bool
  verified : Bool
  par      : List Nat := []
deriving DecidableEq, Repr

/-- The states of Table ARC-5 a cached version passes through. -/
inductive Stage where
  | received | mirrored | single | programmed
deriving DecidableEq, Repr

/-- One version of a granule in the protected write cache: its blocks (by index in the granule), those that its command wrote, the GVER of the
change not yet posted that an untouched block was merged from (R18, R16), who owns it and how far it is. -/
structure Ver where
  slice   : Nat
  granule : Nat
  gver    : Nat
  cls     : Nat
  qid     : Nat
  tag     : Nat
  pwin    : Bool
  posted  : Bool
  postNo  : Nat
  stage   : Stage
  mnum    : Nat
  blks    : SMap Blk
  wrote   : List Nat
  src     : SMap Nat
  loc     : Option Loc
  /-- The first block and the number of blocks of its command (R128). -/
  span    : Nat × Nat := (0, 0)
deriving DecidableEq, Repr

/-- A change of a map entry that does not stand yet (R25, R200): the new GVER and place, for a relocation the place it is copied from; it waits
for the posting of a DISCARD (queue × 32 + tag), or for the ACK of the message that carries its record. -/
structure MapChg where
  slice   : Nat
  granule : Nat
  gver    : Nat
  loc     : Option Loc
  src     : Option Loc
  owner   : Option Nat
  mnum    : Option Nat
deriving DecidableEq, Repr

/-- A granule under relocation (R217): where its entry named it when it was read, its content, and the place of its copy, once it has one, with
whether the copy has been programmed and verified. -/
structure Reloc where
  slice   : Nat
  granule : Nat
  src     : Loc
  gran    : Gran
  dst     : Option Loc
  ok      : Bool
deriving DecidableEq, Repr

/-! ### Command queues -/

/-- An outstanding command (Table CQE-3), what it holds and how far it is: among it the head that each dispatched unit started on (R97),
the tick since which its host accesses may run (R67), whether an earlier command held it (R127), whether its map lookups have been made (R197), and the slice and queue generations that its
units carry (R150). -/
structure Cmd where
  tag      : Nat
  op       : Nat
  cls      : Nat
  fua      : Bool
  sco      : Bool
  nblk     : Nat
  apptag   : Nat
  lba      : Nat
  keyidx   : Nat
  list     : Bool
  dp       : List Nat
  raw      : Nat
  keygen   : Nat
  fetched  : Nat
  dbTick   : Nat
  units    : Nat
  slots    : Nat
  waitTick : Nat
  waiting  : Bool
  done     : Bool
  mnum     : Nat
  charge   : Nat
  chargeRed : Nat
  wakeUs   : Nat
  single   : Bool
  rebuilt  : Bool
  heads    : List Nat
  ioTick   : Nat
  placed   : Bool
  wasHeld  : Bool
  looked   : Bool
  sgen     : Nat
  qgen     : Nat
  bad      : List Nat
  /-- The dispatched units that have finished their last stage (R143). -/
  fin      : Nat := 0
  /-- The posting of the last command that held this one (R127). -/
  relTick  : Option Nat := none
  /-- The blocks of a write as CRY and SHF have made them of the host's data (Table ARC-4 steps 2 to 4), held in stockpot. -/
  host     : Option (List Blk) := none
  /-- A merge of the write has started: its granules are locked (R215). -/
  merging  : Bool := false
  /-- The write has passed the space test: VALID counts its granules (R211). -/
  passed   : Bool := false
deriving DecidableEq, Repr

/-- One queue pair: its context registers, counters, outstanding commands and completions not yet written; the squashed tags, their stale
units as (slice generation, queue generation, number), and the tail at the cut of a FREEZE (R154). -/
structure Queue where
  en        : Bool
  ien       : Bool
  coalN     : Nat
  coalUs    : Nat
  vector    : Nat
  sqb       : Nat
  cqb       : Nat
  sqHead    : Nat
  sqTail    : Nat
  cqPosted  : Nat
  cqHead    : Nat
  tailWr    : Word
  headWr    : Word
  resetting : Bool
  dbErr     : Bool
  fault     : Bool
  cqFault   : Bool
  qgen      : Nat
  cmds      : List Cmd
  held      : List CE
  unann     : Nat
  unannTick : Nat
  stallTick : Option Nat
  squash    : List Nat
  stale     : List (Nat × Nat × Nat)
  discarded : Nat
  dbTicks   : List (Nat × Nat)
  cutTail   : Nat
deriving DecidableEq, Repr

/-- Queue `qid` at reset: vector 32 + slice (Table CQE-8), everything else 0. -/
def Queue.reset (qid : Nat) : Queue :=
  { en := false, ien := false, coalN := 0, coalUs := 0, vector := 32 + qid / 16, sqb := 0, cqb := 0,
    sqHead := 0, sqTail := 0, cqPosted := 0, cqHead := 0, tailWr := 0, headWr := 0, resetting := false,
    dbErr := false, fault := false, cqFault := false, qgen := 0, cmds := [], held := [], unann := 0, unannTick := 0,
    stallTick := none, squash := [], stale := [], discarded := 0, dbTicks := [], cutTail := 0 }

/-! ### Slices -/

/-- The states of Table VSL-1, in its order. -/
inductive SliceSt where
  | unbound | active | freezing | frozen | resetting | clearing
deriving DecidableEq, Repr

/-- One slice: its settings, generation, operation and block count as written, pending and in effect. -/
structure Slice where
  st        : SliceSt
  trumpEn   : Bool
  qpMax     : Nat
  pasid     : Nat
  blks      : Nat
  blksStage : Option Nat
  blksPend  : Option Nat
  share     : Nat
  tshare    : Nat
  shareAct  : Nat
  tshareAct : Nat
  pendShare : Bool
  pin       : Nat
  hdrm      : Nat
  opBusy    : Bool
  opErr     : Bool
  op        : Nat
  policy    : Nat
  cutWaits  : Bool
  sgen      : Nat
  inflight  : Nat
  blob      : Nat
  saveseq   : Nat
  pinned    : List Nat
  hdrmUsed  : Nat
  ended     : SMap (List Nat)
  /-- The last write that gave the slice another head byte (R98). -/
  headTick  : Nat := 0
deriving DecidableEq, Repr

/-- A slice at reset (Table VSL-7). -/
def Slice.reset : Slice :=
  { st := .unbound, trumpEn := false, qpMax := 16, pasid := 0, blks := 0, blksStage := none, blksPend := none,
    share := 1, tshare := 0, shareAct := 1, tshareAct := 0, pendShare := false, pin := 0, hdrm := 0,
    opBusy := false, opErr := false, op := 0, policy := 0, cutWaits := false, sgen := 0, inflight := 0,
    blob := 0, saveseq := 0, pinned := [], hdrmUsed := 0, ended := [] }

/-- What one export has read and counted (R165), and whether the lookups of its next record have been made. -/
structure Export where
  seqNo   : Nat
  cursor  : Nat
  behind  : List Nat
  looked  : Bool
  /-- The record in progress: its granules (first, number) and their blocks as they were when its first read was dealt (R165). -/
  cur     : Option (Nat × Nat × List Blk) := none
  /-- The tick and the epoch at which its first read was dealt (Table VSL-6), and its units in INFLIGHT (R166). -/
  tick    : Nat := 0
  epoch   : Nat := 0
  units   : Nat := 0
  /-- The blocks of the record, by index, whose units in stockpot have been lost (Table STK-3). -/
  bad     : List Nat := []
  /-- EN = 0 has been written: the export ends with the record in progress (R168). -/
  stops   : Bool := false
deriving DecidableEq, Repr

/-! ### Cipher engine -/

/-- The states of Table CRY-3. -/
inductive CtxSt where
  | empty | valid | zeroising
deriving DecidableEq, Repr

/-- One key context: the record of Table CRY-4 and its reservation marks (R182); `mode` is 0 none, 1 XTS, 2
GCM. -/
structure Ctx where
  st       : CtxSt
  mode     : Nat
  exportable : Bool
  keygen   : Nat
  label    : Nat
  key      : Nat
  fixed    : Nat
  invoc0   : Nat
  invoc1   : Nat
  mark0    : Nat
  mark1    : Nat
  low      : Bool
deriving DecidableEq, Repr

/-- The persistent copy of a context (R175, R189): the wrapped record, KEYGEN, both marks as journaled, whether a zeroise of the
context is journaled, and the marks of the key generations that it has left behind (R182: generation, MARK0, MARK1). -/
structure CtxCopy where
  wrapped : Option Nat
  keygen  : Nat
  mark0   : Nat
  mark1   : Nat
  zeroed  : Bool
  past    : List (Nat × Nat × Nat) := []
deriving DecidableEq, Repr

/-- No copy. -/
def CtxCopy.reset : CtxCopy := { wrapped := none, keygen := 0, mark0 := 0, mark1 := 0, zeroed := false }

/-- An EMPTY context. -/
def Ctx.reset : Ctx :=
  { st := .empty, mode := 0, exportable := false, keygen := 0, label := 0, key := 0, fixed := 0,
    invoc0 := 0, invoc1 := 0, mark0 := 0, mark1 := 0, low := false }

/-- What a change of a context that waits for the twin is (R175): an import, a RESTORE_STATE, or a record of a slice's blob. -/
inductive CtxChgKind where
  | imported | restored | blob
deriving DecidableEq, Repr

/-- A change of a context whose journal record the twin has not acknowledged (R25, R175): the context, what it becomes, and the
message whose ACK it waits for. -/
structure CtxChg where
  ctx  : Nat
  new  : Ctx
  kind : CtxChgKind
  mnum : Nat
deriving DecidableEq, Repr

/-! ### Bands -/

/-- The states of Table MAP-4. -/
inductive BandSt where
  | free | openSlc | openQlc | openMeta | closed | victim | erasing | withdrawn
deriving DecidableEq, Repr

/-- One die block set of a band: its place, whether it is a replacement (R341), whether it is an erasure (R331),
the replacement's progress stripe, and the
block ((port × 64 + die) × 4,096 + block) whose pages the map names the stored content by (R341). -/
structure BSet where
  port   : Nat
  die    : Nat
  block  : Nat
  repl   : Bool
  erased : Bool
  prog   : Nat
  old    : Nat
  /-- Stripes of a replacement whose programs have been queued; those below `prog` have passed verify (R340). -/
  built  : Nat := 0
  /-- No replacement was found, and no rebuild set has been freed since (R338). -/
  starved : Bool := false
deriving DecidableEq, Repr

/-- One band: its state and kind, its 19 sets, the next stripe to program, the stripes verified, and what the
collector, the sieve and the rebuild keep about it. -/
structure Band where
  st        : BandSt
  slc       : Bool
  isMeta    : Bool
  sets      : List BSet
  next      : Nat
  verified  : Nat
  erases    : Nat
  refresh   : Bool
  closeDay  : Nat
  closeNo   : Nat
  victimV   : Nat
  reads     : Nat
  erasedSets : List Nat
  queued    : Nat
  progress  : Nat
  copyback  : Bool
  /-- The band is being folded (R209). -/
  fold      : Bool := false
deriving DecidableEq, Repr

/-- One bitmap log (R346, R347): the SEQ before the first record it still needs, how many records it took before that one, and the records of
64 bytes (Table SHF-4) from its last complete checkpoint on; record `n` of the log lies in SLC page n / 256. -/
structure BmLog where
  base : Nat
  past : Nat
  recs : List Nat
deriving DecidableEq, Repr

/-- An empty log. -/
def BmLog.reset : BmLog := { base := 0, past := 0, recs := [] }

/-- A band nothing has used: FREE, with the sets the layout gives it. -/
def Band.reset : Band :=
  { st := .free, slc := false, isMeta := false, sets := [], next := 0, verified := 0, erases := 0,
    refresh := false, closeDay := 0, closeNo := 0, victimV := 0, reads := 0, erasedSets := [], queued := 0, progress := 0,
    copyback := false }

/-! ### Host link -/

/-- One IDE stream of a head: its key, the session it was programmed in, whether its counter is exhausted and
whether an integrity failure put it into the insecure state (R90, R91). -/
structure Ide where
  key      : Nat
  live     : Bool
  stopped  : Bool
  insecure : Bool
deriving DecidableEq, Repr

/-- No key programmed. -/
def Ide.reset : Ide := { key := 0, live := false, stopped := false, insecure := false }

/-- A window granule that has been stored to since its last write-back: the tick of its first store, and
whether a write-back runs, and the tick of the first store after its copy (R79, R80). -/
structure PwGran where
  first   : Nat
  copying : Bool
  again   : Option Nat
deriving DecidableEq, Repr

/-- One CXL event record (R87, R517). -/
structure EventRec where
  code : Nat
  tick : Nat
deriving DecidableEq, Repr

/-! ### The incident sheet -/

/-- One entry of the incident sheet (Table SCP-2); `none` stands for the all-ones of a field that names
nothing. -/
structure Incident where
  block   : Nat
  code    : Nat
  coarse  : Bool
  epoch   : Nat
  tick    : Nat
  info0   : Nat
  info1   : Nat
  slice   : Option Nat
  lba     : Option Nat
  caprec  : Option Nat
  loc     : Option Nat
  page    : Option Nat
  journaled : Bool
deriving DecidableEq, Repr

/-! ### Scorepad banks -/

/-- One window of a histogram bank (R462): its start, counters, extremes with their stamps, and bins. -/
structure BankWin where
  start    : Nat
  count    : Nat
  sum      : Nat
  min      : Nat
  minTick  : Nat
  minEpoch : Nat
  minCoarse : Bool
  max      : Nat
  maxTick  : Nat
  maxEpoch : Nat
  maxCoarse : Bool
  bins     : SMap Nat
  sat      : Bool
deriving DecidableEq, Repr

/-- An empty window starting at a tick. -/
def BankWin.empty (t : Nat) : BankWin :=
  { start := t, count := 0, sum := 0, min := 0, minTick := 0, minEpoch := 0, minCoarse := false, max := 0,
    maxTick := 0, maxEpoch := 0, maxCoarse := false, bins := [], sat := false }

/-- A bank: live and published windows, its sequence word, whether its first window has started, the window's
closing tick and the windows closed. -/
structure Bank where
  cur      : BankWin
  last     : BankWin
  pubCur   : BankWin
  pubLast  : BankWin
  seq      : Word
  running  : Bool
  groups   : Nat
  closed   : Nat
  lastDue  : Option Nat
deriving DecidableEq, Repr

/-- A bank at reset. -/
def Bank.reset : Bank :=
  { cur := BankWin.empty 0, last := BankWin.empty 0, pubCur := BankWin.empty 0, pubLast := BankWin.empty 0,
    seq := 0, running := false, groups := 0, closed := 0, lastDue := none }

/-! ### Gulon link -/

/-- A message not yet covered by an ACK (R386): its number, type, tick, LAST flag and payload fields, and whether it has been on the link under
the present session keys. -/
structure GSent where
  mnum : Nat
  kind : Nat
  tick : Nat
  last : Bool
  words : List (Nat × Nat)
  sent : Bool
deriving DecidableEq, Repr

/-! ### Read integrity -/

/-- One tracker entry (Table ECC-3): 60 offsets in mV, zone × 15 + threshold. -/
structure Trk where
  ofs   : List Int
  eprev : Nat
  drift : Nat
  vday  : Nat
  upd   : Nat
deriving DecidableEq, Repr

/-- The entry of a set nothing has erased or visited. -/
def Trk.reset : Trk := { ofs := List.replicate 60 0, eprev := 255, drift := 0, vday := 0, upd := 0 }

/-! ### Channel-group domains -/

/-- One data-plane domain: its policy (R432), the wake or the step down under way, whether the lost twin left it
parked (R434), the tick of its last dealt operation or change of state, and its counters.  Its state itself is in
PWR_DOM_STS. -/
structure Dom where
  floor   : Nat
  tRet    : Nat
  tOff    : Nat
  waking  : Bool
  demand  : Nat
  leaving : Bool
  again   : Bool
  parked  : Bool
  last    : Nat
  wakes   : Nat
  wakeMax : Nat
  waiters : List (Nat × Nat × Nat)
  park    : Nat
  /-- The sieve has woken the domain and has sets to visit there (R314). -/
  sieve   : Bool := false
deriving DecidableEq, Repr

/-- A domain at reset: T_RET 10 ms, T_OFF 600 s, FLOOR OFF (PWR_DOM_POL resets to 0x0258_00A2). -/
def Dom.reset : Dom :=
  { floor := 2, tRet := 10, tOff := 600, waking := false, demand := 0, leaving := false, again := false,
    parked := false, last := 0, wakes := 0, wakeMax := 0, waiters := [], park := 0 }

/-! ### Flash ports and bridges -/

/-- Why a die operation was queued. -/
inductive OpSrc where
  | host | reloc | rebuild | resync | verify | early | final | sieve | erase
deriving DecidableEq, Repr

/-- Where an operation stands: dealable, armed for a trick, or launched. -/
inductive OpStage where
  | waiting | armed | running
deriving DecidableEq, Repr

/-- One codeword's hard decode as HARD_DECODE_DONE reported it, and the ladder step (1 L1, 2 L2, 3 L3) whose soft decode
it waits for, 0 when it waits for none. -/
structure CwGot where
  cw  : Nat
  ok  : Bool
  step : Nat
  e   : Nat
  n01 : Nat
  n10 : Nat
  /-- The hard decoder corrected it, whatever its checks said (R301). -/
  hd  : Bool := false
  /-- Die parity has served it (R309). -/
  dp  : Bool := false
deriving DecidableEq, Repr

/-- A die operation of the controller: its tag and opcode (Table LNK-5), what it is for, its address, the plan it
is in, what has been learnt of it, and, for an operation that crosses the Gulon link (R394), the MNUM of the REMOTE_OP that
this unit sent for it or that the twin sent. -/
structure POp where
  tag    : Nat
  opc    : Nat
  src    : OpSrc
  cls    : Nat
  slice  : Nat
  band   : Nat
  stripe : Nat
  pos    : Nat
  die    : Nat
  block  : Nat
  page   : Nat
  slc    : Bool
  stage  : OpStage
  enq    : Nat
  trick  : Nat
  seq    : Nat
  misses : Nat
  buf    : Nat
  sus    : Nat
  start  : Nat
  data   : Bool
  got    : List CwGot
  sent   : Option Nat
  forTwin : Option Nat
  /-- The read has been counted as one that met its die's eighth suspend (R245). -/
  hit    : Bool := false
  /-- Promotions that the operation has had (R243). -/
  promo  : Nat := 0
  /-- For a soft re-read: the read whose codeword failed, by tag, the codeword and the ladder step (Table ECC-4). -/
  re     : Option (Nat × Nat × Nat) := none
  /-- What a read serves: a command by its fetch number, 2^64 + the number of an export record, 2^65 + the key of a set that the sieve visits,
  2^66 + band × 4,096 + stripe of a rebuild, or 2^67 + the number of a chunk under relocation. -/
  owner  : Option Nat := none
  /-- The codewords (columns) that a read transfers. -/
  cols   : List Nat := List.range 16
  /-- What a host read resolved to: the granule's key and the GVER of its entry (R292). -/
  res    : Option (Nat × Nat) := none
  /-- A soft re-read: the hard data and two soft planes (Table DLR-4). -/
  soft   : Bool := false
  /-- The lane has been re-initialised since the operation was armed, and its die has been asked what became of it (R259). -/
  asked  : Bool := false
  /-- The tick at which a read's data came. -/
  came   : Nat := 0
deriving DecidableEq, Repr

/-- The controller's side of one flash port: link sequence state (R256 to R259), operations, TRUMP buckets (R241),
recoveries (R286), open suspensions (R244) and the load of the running trick group. -/
structure Port where
  rxNext   : Nat
  rxNak    : Bool
  txNext   : Nat
  recovs   : List Nat
  initTick : Nat
  ops      : List POp
  nextTag  : Nat
  carryTx  : Nat
  carryRx  : Nat
  buckets  : SMap Nat
  susOpen  : SMap Nat
  timeouts : SMap Nat
  dealt    : Nat
  trump    : Nat
  load     : Nat
  trumpLd  : Nat
  delay    : Nat
  skew     : Nat
  skewBad  : Bool
  rtts     : List Nat
  /-- The offset slots of the dies, least recently used first: die, slot, the sixty offsets it holds (R303). -/
  slots    : List (Nat × Nat × List Int)
  testTag  : Nat
  /-- The replay buffer (R258): the flits sent and not acknowledged, oldest first, each with its transmissions, and the tick of the last progress. -/
  txBuf    : List (Nat × Nat) := []
  txTick   : Nat := 0
  /-- The flits of each stream that wait to be sent (R256): TYPE, LAST and STRM, and the payload above them. -/
  tx0      : List Nat := []
  tx1      : List Nat := []
  /-- The payloads received of the message under way on each stream. -/
  rx0      : List Nat := []
  rx1      : List Nat := []
  /-- The DIE_STATUS queries that have no answer, by tag: the die. -/
  asks     : SMap Nat := []
  /-- The lane is out of service for a test of mode 1 or 2 up to this tick (R283). -/
  testEnd  : Nat := 0
  /-- The last trick whose plan for the next one is cut (R236). -/
  cutFor   : Option Nat := none
  /-- DIE_SUSPEND and DIE_RESUME arms not confirmed yet (R237): opcode, die, trick, SEQ, and when the suspension was opened. -/
  susArms  : List (Nat × Nat × Nat × Nat × Nat) := []
  /-- Dies whose open suspension has lasted SUS_HOLD tricks: their DIE_RESUME goes with the next plan (R244). -/
  susDue   : List Nat := []
  /-- Misses in a row of a DIE_SUSPEND or DIE_RESUME, by opcode × 64 + die (R237). -/
  susMiss  : SMap Nat := []
  /-- RX lane ticks dealt in the running trick group; `dealt` counts TX (R248). -/
  dealtRx  : Nat := 0
  /-- Lane ticks by which relocation and rebuild have been dealt beyond their shares (R219, R240). -/
  relocOver : Nat := 0
  rebuildOver : Nat := 0
  /-- Lane ticks dealt to each class, and to each slice of a class, since operations of step 4 began to wait (R240). -/
  clsDealt : List Nat := [0, 0, 0, 0]
  slDealt  : SMap Nat := []
deriving DecidableEq, Repr

/-- A port nothing has used. -/
def Port.reset : Port :=
  { rxNext := 0, rxNak := false, txNext := 0, recovs := [],
    initTick := 0, ops := [], nextTag := 0, carryTx := 0, carryRx := 0, buckets := [], susOpen := [],
    timeouts := [], dealt := 0, trump := 0, load := 0, trumpLd := 0, delay := 0, skew := 0, skewBad := false,
    rtts := [], slots := [], testTag := 0 }

/-- The state of a die as its bridge records it (Table LNK-6, STATUS). -/
inductive DieSt where
  | idle | reading | programming | erasing | suspended | failed | absent
deriving DecidableEq, Repr

/-- One die behind a bridge: its state, the operation it runs or holds suspended, the read it runs meanwhile, and its
last completed one. -/
structure BDie where
  st      : DieSt
  tag     : Nat
  opc     : Nat
  block   : Nat
  page    : Nat
  planes  : Nat
  buf     : Nat
  sus     : Nat
  orphan  : Bool
  rdTag  : Option Nat
  lastTag : Nat
  lastSt  : Nat
  /-- The ONFI status byte and the temperature that the bridge last read from the die (Tables LNK-4 and LNK-6). -/
  onfi    : Nat := 0
  temp    : Int := 0
  /-- The offsets that the last read used, of its zone in the slot it named (R264); none of the die's defaults. -/
  rdOfs   : List Int := []
deriving DecidableEq, Repr

/-- A die that has done nothing since its bridge powered up. -/
def BDie.reset : BDie :=
  { st := .idle, tag := 0, opc := 0, block := 0, page := 0, planes := 0, buf := 0, sus := 0, orphan := false, rdTag := none,
    lastTag := 0, lastSt := 0 }

/-- An arm a bridge holds (R265): the sender's port, the SEQ of its flit, the trick it names, and the command. -/
structure BArm where
  side   : Nat
  seq    : Nat
  trick  : Nat
  lead   : Bool
  opc    : Nat
  tag    : Nat
  die    : Nat
  planes : Nat
  block  : Nat
  page   : Nat
  slc    : Bool
  arg    : Nat
  cut    : Bool
deriving DecidableEq, Repr

/-- One dual-ported bridge (R272 to R281): token, fence, power state, the trick in progress, the arms, CUT and the
trick it was fixed for, the buffers that hold complete PDATA, the dies, the next-page records (die × 2^14 + plane × 2^12 + block; an
unlisted block is UNKNOWN, else the page plus 1), and the offset slots. -/
structure Bridge where
  holder : Nat
  fence  : Nat
  power  : Nat
  trick  : Nat
  arms   : List BArm
  cutSeq : Nat
  cutFor : Option Nat
  bufs   : SMap Nat
  dies   : SMap BDie
  next   : SMap Nat
  slots  : SMap (List Int)
  /-- The SEQ of the last message that the holder's port has brought. -/
  heard  : Nat := 4095
deriving DecidableEq, Repr

/-- A bridge after its own power-up. -/
def Bridge.reset : Bridge :=
  { holder := 0, fence := 0, power := 0, trick := 0, arms := [], cutSeq := 4095, cutFor := none, bufs := [], dies := [], next := [],
    slots := [] }

/-- The stripe an open band is filling: the halves placed so far, the class of its granules, when the last one came, and whether the band
receives relocations (R207). -/
structure Fill where
  band   : Nat
  stripe : Nat
  placed : Nat
  cls    : Nat
  last   : Nat
  reloc  : Bool := false
deriving DecidableEq, Repr

/-- A map page on its way to flash (R195, R201): how many of its delta records it holds, the chunks of its two copies, and those whose stripe
is not PROGRAMMED yet. -/
structure MetaBack where
  page  : Nat
  recs  : Nat
  chunks : List Nat
  left  : List Nat
deriving DecidableEq, Repr

/-! ### The NVM configuration record and the power-loss dump -/

/-- What the controller keeps in the NVM configuration record: EPOCH, the dump markers (R439) with the reset they
abandoned, the last HIF_PORT_CFG written (R60), the security version of the running image (R459), and whether the
record holds a format (R498). -/
structure NvmRec where
  epoch     : Nat
  dumpStart : Option (Nat × Nat)
  dumpDone  : Option (Nat × Nat)
  abandoned : Bool
  bifCfg       : Nat
  svn       : Nat
  formatted : Bool
  clean     : Bool
deriving DecidableEq, Repr

/-- The record before format. -/
def NvmRec.reset : NvmRec :=
  { epoch := 0, dumpStart := none, dumpDone := none, abandoned := false, bifCfg := 0, svn := 0, formatted := false, clean := false }

/-! ### The embedded flash -/

/-- One command port (R444): where its sequence stands (0 array read, 1 and 2 after the unlock cycles, 3 PROGRAM_PAGE data, 4 to 6
the second half of SECTOR_ERASE, 7 VERIFY_MODE), the data written so far with its first address, ID_STATUS and READ_STAT modes,
the verify method, the sticky bits of the status byte (Table NVM-5), and the last cycle. -/
structure NPort where
  phase   : Nat
  first   : Nat
  words   : List Nat
  idMode  : Bool
  statOne : Bool
  pulse   : Bool
  flags   : Nat
  tick    : Nat
  off     : Nat
  value   : Nat
  rst     : Bool
deriving DecidableEq, Repr

/-- A port in array read, native verify. -/
def NPort.reset : NPort :=
  { phase := 0, first := 0, words := [], idMode := false, statOne := false, pulse := false, flags := 0, tick := 0, off := 0, value := 0,
    rst := false }

/-- A program or erase of the array: its port, whether it is an erase, its page or sector, whether the suspend was automatic,
and the tick at which it was last suspended, fetched for, or resumed. -/
structure NOp where
  port  : Nat
  erase : Bool
  at_   : Nat
  auto  : Bool
  tick  : Nat
deriving DecidableEq, Repr

/-- A sector's metadata (R450): the lowest programmable page, DIRTY_ERASE, and its erases. -/
structure NSector where
  next   : Nat
  dirty  : Bool
  erases : Nat
deriving DecidableEq, Repr

/-- An erased sector. -/
def NSector.reset : NSector := { next := 0, dirty := false, erases := 0 }

/-! ### Stockpot -/

/-- A unit that waits for stockpot credit (R357): class, pages, the tick it began to wait, and what it is. -/
structure CrUnit where
  cls   : Nat
  pages : Nat
  tick  : Nat
  unit  : Nat
deriving DecidableEq, Repr

/-- One entry of the HBM error log (R371). -/
structure HbmErr where
  off      : Nat
  ue       : Bool
  repaired : Bool
  retired  : Bool
  tick     : Nat
  epoch    : Nat
deriving DecidableEq, Repr

/-! ### Capture and replay -/

/-- A capture record (Tables SCP-4 and SCP-5): its type, source, flags, tick, number and epoch, what it holds in the table's order, and its
body as `n` bytes. -/
structure CapRec where
  kind  : Nat
  src   : Nat
  flags : Nat
  tick  : Nat
  rnum  : Nat
  epoch : Nat
  words : List Nat
  n     : Nat
  body  : Nat
deriving DecidableEq, Repr

/-- A segment of the ring (R478): its SEGNUM, the band that holds it and its 256 units of 4,096 bytes. -/
structure CapSeg where
  num   : Nat
  band  : Nat
  units : List Nat
deriving DecidableEq, Repr

/-- What capture keeps beside its registers (chapter 16): the key; the records staged and their bytes; the next RNUM; the segments still to
write after the trigger, and the RNUM at which it fell; the checkpoint number and the trick groups since it; the source of the GAP record
that the next capture begins with (0 none, 2 power-up, 3 DEEP wake); the records lost while staging is full; the bands of the ring and
the segments it holds. -/
structure Cap where
  key    : Option Nat
  staged : Nat
  recs   : List CapRec
  rnum   : Nat
  post   : Option Nat
  trigAt : Option Nat
  ckptNo : Nat
  groups : Nat
  gap    : Nat
  spill  : Bool
  lost   : Nat
  bands  : List Nat
  segs   : List CapSeg
deriving DecidableEq, Repr

/-- No capture since power-up. -/
def Cap.reset : Cap :=
  { key := none, staged := 0, recs := [], rnum := 0, post := none, trigAt := none, ckptNo := 0, groups := 0, gap := 0, spill := false,
    lost := 0, bands := [], segs := [] }

/-- What replay keeps beside its registers: whether its first complete checkpoint is loaded or being read, how many outputs had left the chip at the last
completion compared, and the blocks of HDATA records whose write has not come to its data yet (queue, tag, block offset, content). -/
structure Replay where
  ckpt   : Bool
  loaded : Bool
  seen   : Nat
  hdata  : List (Nat × Nat × Nat × Nat) := []
deriving DecidableEq, Repr

/-- No replay. -/
def Replay.reset : Replay := { ckpt := false, loaded := false, seen := 0 }

/-! ### The device -/

/-- Registers and page headers (chapter 2), what leaves the chip, the clock, and the scorepad with capture and replay
(chapter 16). -/
structure DevHub where
  /-- Registers by BAR0 offset; an unlisted one holds its reset value. -/
  regs       : SMap Word
  /-- The published copies that software reads of the registers SEQ covers (R54). -/
  published  : SMap Word
  /-- Page headers by page number (BAR0 offset / 0x1000). -/
  pages      : SMap Page
  /-- What publications of the FCH common registers have added to the SEQ of every port page (R36, R289). -/
  comSeq     : Word
  /-- The tick of the last of these publications (R54). -/
  comTick    : Option Nat
  /-- What has left the chip, newest last. -/
  out        : List Out
  /-- The trick clock's count. -/
  tick       : Nat
  /-- How many free values have been drawn (the model's own field). -/
  draws      : Nat
  /-- VAO fell with the main rails up, and has not risen since (R542). -/
  supplyLost : Bool
  /-- A WARM or COLD reset or a bring-up runs (R59). -/
  resetRun   : Bool
  /-- GLB_TIME_HI as latched (R57). -/
  latHi      : Word
  /-- The head of the host access in progress; none where the command names no head. -/
  accHead    : Option Nat
  /-- GLB_TIME_EPOCH as latched (R57). -/
  latEpoch   : Word
  /-- The incident sheet, oldest first. -/
  incidents  : List Incident
  /-- Incidents that wait while the sheet's page holds its work (R558), oldest first. -/
  incWait    : List Incident
  /-- The histogram banks. -/
  banks      : SMap Bank
  /-- Samples that wait while a bank's page holds its work (R558): bank, value, tick, epoch, COARSE. -/
  sbWait     : List (Nat × Nat × Nat × Nat × Bool)
  /-- What capture keeps beside its registers. -/
  cap        : Cap
  /-- What replay keeps beside its registers. -/
  rp         : Replay
deriving DecidableEq, Repr

/-- The host ports (chapter 3), the queues (4), the slices (5) and the cipher engine (6). -/
structure DevHost where
  /-- The MSI-X table by dword index (BAR4). -/
  msixTbl    : SMap Word
  /-- The pending-bit array: vectors that wait while masked. -/
  pba        : List Nat
  /-- Configuration space of each head (R62, R64, R70): head × 16 + register. -/
  cfg        : SMap Word
  /-- The tick at which each head that is down went down. -/
  headDown   : SMap Nat
  /-- BIF_A and BIF_B in force (R60). -/
  bifNow     : Nat
  /-- IDE streams, by head × 256 + stream. -/
  ide        : SMap Ide
  /-- The keys that each IDE stream has had since power-up (R90: no invocation value is used twice), by head × 256 + stream. -/
  ideUsed    : SMap (List Nat)
  /-- PTM residuals above 8 ns in a row (R92). -/
  ptmBad     : Nat
  /-- The tick of the last completed PTM dialogue (R93). -/
  ptmLast    : Nat
  /-- PTM residuals of at most 8 ns in a row (R92). -/
  ptmGood    : Nat
  /-- The shutdown state that the host set through the mailbox. -/
  shutState  : Nat
  /-- The alert configuration that the host set through the mailbox. -/
  alertSet   : Option Nat
  /-- The CXL event log. -/
  events     : List EventRec
  /-- Window granules stored to since their last write-back, by granule of the window (R79). -/
  pwDirty    : SMap PwGran
  /-- Poisoned 64-byte lines of the window (R83, R89). -/
  pwPoison   : List Nat
  /-- Stacks whose window lines all hold the poison code (R354), but for the lines of `pwCured`. -/
  pwDead     : List Nat
  /-- The window lines on those stacks that a store has covered since (R89). -/
  pwCured    : List Nat
  /-- Bytes of completed window stores that await mirroring (R85). -/
  pwUnmir    : Nat
  /-- Global Persistent Flush: the MNUM below which Phase 1 fixed the stores (R86). -/
  gpfMark    : Nat
  /-- Phase 2 of a Global Persistent Flush runs (R86). -/
  gpfRun     : Bool
  /-- Queue pairs, by slice × 16 + pair. -/
  queues     : SMap Queue
  /-- The number of entries fetched so far, which orders commands (R125). -/
  fetchNo    : Nat
  slices     : SMap Slice
  /-- The export under way. -/
  exp        : Export
  /-- Key contexts, by slice × 4 + index. -/
  ctxs       : SMap Ctx
  /-- The persistent copies of the key contexts, by the same number. -/
  ctxStore   : SMap CtxCopy
  /-- The key-encryption key. -/
  kek        : Option Nat
  /-- CRY_XBUF shows its content (after EXPORT_WRAPPED or SAVE_STATE, R190). -/
  xbufShown  : Bool
  /-- The contexts that the running ZEROISE or ZEROISE_SLICE erases. -/
  zeroing    : List Nat
deriving DecidableEq, Repr

/-- Translation, placement and the write cache (chapter 7), and redundancy (chapter 11). -/
structure DevMedia where
  /-- The map by slice × 2^37 + granule. -/
  map        : SMap MapEnt
  /-- Changes of entries that do not stand yet, oldest first. -/
  ctxPend    : List CtxChg
  /-- The dirty regions that a stop has left to be resynchronised (R349), each with the stripes of it that are done. -/
  resync     : SMap Nat
  /-- The ports whose bridges this unit releases as they drain, those whose token it asks for (the value: an OWN_TAKE is out), and a planned leave in
  progress (R407, R409). -/
  giving     : List Nat
  wants      : SMap Bool
  leaving    : Bool
  mapPend    : List MapChg
  /-- Map pages that the map cache holds, by slice × 2^25 + page, in the order of the eviction sweep (R197). -/
  resident   : List Nat
  /-- The resident pages whose reference bit is set. -/
  refBits    : List Nat
  /-- Map pages whose load a lookup waits for, with the class of the command (R197). -/
  mapWant    : SMap Nat
  /-- Dirty map pages, oldest first. -/
  dirty      : List Nat
  /-- Granules whose map entry was lost with both copies of its page (R196). -/
  lost       : List Nat
  /-- Records in the delta log (R200). -/
  dlog       : Nat
  /-- Commits have stalled since the log filled (R201). -/
  dlogStalled : Bool
  /-- The ring of delta records, oldest first: slice, granule, entry, and whether the record is reclaimable (R200, R201). -/
  dlogRing   : List (Nat × Nat × Nat × Bool)
  /-- The chunks that hold the two copies of each map page, by chunk number (R195, R207). -/
  metaAt     : SMap (List Nat)
  /-- Map pages that are being written back (R201), oldest first. -/
  metaBack   : List MetaBack
  /-- The bands, by number (R202). -/
  bands      : SMap Band
  /-- How many bands have been closed: the next one's place in the order of age (R209, R221). -/
  closeSeq   : Nat
  /-- Granules under relocation. -/
  relocs     : List Reloc
  /-- The versions in the protected write cache, oldest first. -/
  cache      : List Ver
  /-- NAND content by physical page: ((port × 64 + die) × 4,096 + block) × 4,096 + page. -/
  flash      : SMap FPage
  /-- The erasure log (R331): ((band × 4,096 + stripe) × 32 + position) × 16 + column. -/
  elog       : List Nat
  /-- The collector's credit (R220). -/
  gcCredit   : Int
  /-- Spare blocks taken per die. -/
  spareUsed  : SMap Nat
  /-- Rebuild sets in use, by port × 2^18 + die × 2^12 + block. -/
  rbUsed     : List Nat
  /-- Stripes being filled, one per open band (R329). -/
  fills      : List Fill
  /-- The content of stripe buffers whose chunk has not reported DONE, by flash key. -/
  stripeBuf  : SMap FPage
  /-- Chunks of stripes not yet PROGRAMMED, by (band × 4,096 + stripe) × 32 + position: 0 until the program reports DONE,
  then 4 × (the tick of DONE plus 1) + the program's class. -/
  progd      : SMap Nat
  /-- The chunks of those stripes that have passed verify. -/
  chunksOk   : List Nat
  /-- Dirty regions, band × 64 + region (R345). -/
  bmDirty    : List Nat
  /-- The regions whose clear is not written yet, and since when. -/
  bmClear    : List (Nat × Nat)
  /-- Regions whose SET record went to the twin, with the number of its message (R346). -/
  bmWait     : SMap Nat
  /-- The three bitmap logs (R346, R347). -/
  bmLogs     : SMap BmLog
  /-- The rebuild queue: bands, the next one first. -/
  rbQueue    : List Nat
  /-- Cache slots that the last stop lost (R503). -/
  lostSlots  : Nat
  /-- The open-band scan of R503 is still due. -/
  scanPend   : Bool
  /-- The bands that the journal showed OPEN at that stop (R503). -/
  scanBands  : List Nat
deriving DecidableEq, Repr

/-- The Dealer (chapter 8), flash ports (9) and read integrity (10). -/
structure DevFlash where
  ports      : SMap Port
  bridges    : SMap Bridge
  /-- DLR_CLS_W in force (R250). -/
  clsNow     : Word
  /-- DLR_AGE in force (R250). -/
  ageNow     : Word
  /-- DLR_SUS_CTL in force (R250). -/
  susNow     : Word
  /-- SHF_RB_CTL in force (R250, R349). -/
  rbNow      : Word
  /-- The tick of the last trick-group boundary whose work is done. -/
  tgTick     : Nat
  /-- The time base: the figure of Table DLR-2 since the last lock (R227). -/
  timeFig    : Nat
  /-- GLB_TIME_UNC before the last lock (R563). -/
  timePre    : Nat
  /-- The step of the time that waits for a trick-group boundary. -/
  stepPend   : Option Int
  /-- The tick and figure at which a leader lost its source. -/
  lossAt     : Option (Nat × Nat)
  /-- Twin exchanges (R229): good residuals in a row. -/
  exGood     : Nat
  /-- Bad residuals in a row. -/
  exBad      : Nat
  /-- The tick of the last completed exchange. -/
  exLast     : Nat
  /-- The trick in progress has had its slewing period (R227). -/
  slewDone   : Bool
  /-- The leader's COARSE, as a follower takes it (R230). -/
  leadCoarse : Bool
  /-- Tracker entries by (port × 64 + die) × 4,096 + block. -/
  trk        : SMap Trk
  /-- Fresh offsets of each qualified die (R302, R311), by port × 64 + die: sixty for QLC, then one per zone for SLC. -/
  fresh      : SMap (List Int)
  /-- Hard decoders out of service, by group × 9 + decoder (R295). -/
  hdOut      : List Nat
  /-- Whisks out of service (R295). -/
  wkOut      : List Nat
  /-- Pages that a set's die-parity accumulators cover (R308), by the set's tracker key. -/
  dpar       : SMap (List Nat)
  /-- The die-parity accumulators of those sets (R308), by the set's key × 8 + page modulo 8: the pages whose chunks an accumulator holds, and the XOR of
  them, codeword by codeword. -/
  dacc       : SMap (List Nat × List Nat)
  /-- Groups whose domain was OFF or RET in the lap before this one (R296). -/
  coldPrev   : List Nat
  /-- Groups whose domain has been OFF or RET in this lap. -/
  coldNow    : List Nat
  /-- The sets visited in this lap (R315). -/
  svSeen     : List Nat
  /-- The first tick of this lap. -/
  svStart    : Nat
  /-- This ECC_DAY has seen progress. -/
  svMoved    : Bool
  /-- ECC_DAY of each band marked for refresh (ECC_RFSH_30D). -/
  rfshDays   : List Nat
  /-- The tick at which the running ECC_DAY began (R316). -/
  dayTick    : Nat
deriving DecidableEq, Repr

/-- The stockpot and the on-chip memories (chapter 12), and health (chapter 18). -/
structure DevPool where
  /-- Credit (R356): limits in force per class (FLOOR, CEIL in MiB). -/
  crLim      : List (Nat × Nat)
  /-- Waiting units, oldest first (R357).  A unit is a command (queue × 32 + tag), a stripe (2^19 + band × 4,096 + stripe) or a
  set's accumulators (2^43 + set). -/
  crWait     : List CrUnit
  /-- Pages held by unit × 16 + class. -/
  crHold     : SMap Nat
  /-- HBM lines that hold the poison code. -/
  hbmPoison  : List Nat
  /-- Stacks of which every line holds the poison code (R354). -/
  hbmDead    : List Nat
  /-- Lines of the delta log hold the poison code (Table STK-3). -/
  dlogBad    : Bool
  /-- The HBM error log, newest first. -/
  hbmLog     : List HbmErr
  /-- The ticks of recent uncorrectable lines, with their stack. -/
  hbmRecent  : List (Nat × Nat)
  /-- Retired HBM pages. -/
  hbmRetired : List Nat
  /-- Retired HBM pages that found no substitute. -/
  hbmBare    : List Nat
  /-- Lines of the running HBM scrub lap. -/
  scrLine    : Nat
  /-- The first tick of the HBM lap. -/
  scrStart   : Nat
  /-- The first tick of the SRAM lap. -/
  sramStart  : Nat
  /-- The tick at which SLEEP was last entered (R376). -/
  sleepAt    : Nat
  /-- Words remapped, per SRAM array. -/
  remapped   : SMap (List Nat)
  /-- Corrections per SRAM array. -/
  arrCe      : SMap Nat
  /-- SRAM words with a correction written back (array × 2^32 + word). -/
  ceWords    : List Nat
  /-- Firmware cores out of service (Table STK-4). -/
  coresOut   : List Nat
  /-- Firmware cores restarted once. -/
  coresHit   : List Nat
  /-- How many times the level has entered RED (R514). -/
  redNo      : Nat
  /-- Kinds of spare exhausted. -/
  exhausted  : List Nat
  /-- Active conditions: 0 AMBER kitty, 1 AMBER endurance, 2 RED kitty, 3 BLACK. -/
  conds      : List Nat
  /-- The tick of the last change of level. -/
  levelTick  : Nat
  /-- The epoch of the last change of level. -/
  levelEpoch : Nat
  /-- PE_MEAN per day, newest first. -/
  peDays     : List Nat
  /-- Days since format. -/
  fmtDays    : Nat
  /-- Spare bytes at format. -/
  spareFmt   : Nat
  /-- The ports that were not in service at format, whose shares are not in the denominator (R27). -/
  fmtOut     : List Nat
  /-- Rebuild bytes at format. -/
  rebuildFmt : Nat
  /-- ENDUR_DAYS as the last advance of ECC_DAY left it (R511). -/
  endur      : Nat
deriving DecidableEq, Repr

/-- The Gulon link and the twin (chapter 13). -/
structure DevTwin where
  /-- Next MNUM sent. -/
  gTx        : Nat
  /-- Next MNUM expected. -/
  gRx        : Nat
  /-- The messages no ACK covers yet, oldest first. -/
  gPend      : List GSent
  /-- Pairing: the state before KEYING (2 or 3 when a tag failure returned the link there). -/
  gPrev      : Nat
  /-- This unit serves the joiner. -/
  serves     : Bool
  /-- The MNUM of its last SYNC message. -/
  syncEnd    : Option Nat
  /-- A REKEY is sent and not acknowledged. -/
  rekeyOut   : Bool
  /-- The session key of the transmit direction (R385). -/
  sesTx      : Nat
  /-- The one that REKEY has announced (R388). -/
  sesTxNew   : Option Nat
  /-- The session key of the receive direction. -/
  sesRx      : Nat
  /-- The one that the twin's REKEY has announced. -/
  sesRxNew   : Option Nat
  /-- The shelf key that SIDE 0 has drawn, or this unit has received, at a first pairing under way (R390). -/
  shelfNew   : Option Nat
  /-- What `gRx` was when the last message left: everything below it has been reported by ACK (R386). -/
  gSaid      : Nat
  /-- The shelf key (R390). -/
  shelf      : Option Nat
  /-- The pairing key. -/
  pairKey    : Option Nat
  /-- The tick of the last authenticated message. -/
  gLastRx    : Nat
  /-- The tick of the last message sent. -/
  gLastTx    : Nat
  /-- The twin's used slots as last reported. -/
  twinUsed   : Nat
  /-- The twin's state as last reported. -/
  twinState  : Nat
  /-- The twin's PTM lock as its messages report it. -/
  twinPtm    : Bool
  /-- The tick of the loss decision. -/
  decided    : Option Nat
  /-- EPOCH at the loss decision. -/
  decidedEp  : Nat
  /-- The forced takes have been sent. -/
  taking     : Bool
  /-- The ports whose take is not answered. -/
  takes      : List Nat
  /-- This unit's copy of the twin's slices. -/
  twinSlices : SMap MSlice
  /-- This unit's copy of the twin's cache versions. -/
  twinVers   : List Ver
  /-- This unit's copy of the twin's key contexts. -/
  twinCtxs   : SMap CtxCopy
  /-- This unit's copy of the twin's dirty regions. -/
  twinRegions : List Nat
  /-- The window granules dirty at the twin. -/
  pwTwin     : SMap PwGran
  /-- The slots that the next FREE names. -/
  freeQ      : List Nat
  /-- TWN_HB_CTL in force (R412). -/
  hbCtl      : Word
  /-- The tick at which bring-up step 9 began to wait for PAIRED. -/
  pairStart  : Nat
deriving DecidableEq, Repr

/-- Power (chapter 14), the embedded flash (15) and bring-up (17). -/
structure DevPower where
  /-- Channel-group domains. -/
  doms       : SMap Dom
  nvm        : NvmRec
  /-- The running dump: its recognition tick. -/
  dumpAt     : Nat
  /-- What started the dump: 0 PWR_FAIL_N, 1 a rail or VID alert, 2 THERMTRIP_N, 3 a stack or controller fault, 4 a COLD reset,
  5 RESET_N. -/
  dumpSrc    : Nat
  /-- The dump left work undone: the controller stays unreleased until a COLD reset (R354), or EN_MAIN stays low until
  PG_AO rises (R533). -/
  stayDown   : Bool
  /-- The host's port of the embedded flash (chapter 15). -/
  nHost      : NPort
  /-- The firmware's port. -/
  nFirm      : NPort
  /-- The running program or erase. -/
  nRun       : Option NOp
  /-- The suspended one. -/
  nSus       : Option NOp
  /-- Sector metadata. -/
  nSec       : SMap NSector
  /-- Aperture reads that stall behind a program or an erase (R8, R11), oldest first: NVM address and the wrong bits of its page. -/
  apWait     : List (Nat × Nat)
  /-- The entry in progress (chapter 14): 0 none, 2 SLEEP, 3 DEEP, 4 OFF, 5 the entry phases of a WARM reset (R566). -/
  entryTgt   : Nat
  /-- What the bring-up steps still to run will find. -/
  bring      : Option BringUp
  /-- The output EN_MAIN. -/
  enMain     : Bool
  /-- PG_MAIN: the main rails are up. -/
  pgMain     : Bool
  /-- The always-on island runs: PG_AO is high and the device is not OFF. -/
  aoUp       : Bool
  /-- The power-good attempts of this bring-up. -/
  pgTry      : Nat
  /-- The tick of t0. -/
  t0         : Nat
  /-- Since the last dump began, a bring-up has restored what the stop left. -/
  restored   : Bool
  /-- Since the last dump began, a bring-up has counted an incomplete dump. -/
  counted    : Bool
  /-- A RESET_N recognised during a dump waits for the bring-up that follows it (R547). -/
  resetDefer : Bool
  /-- The time save of R231 and R564: T_S, always-on counter, EPOCH, uncertainty. -/
  timeSave   : Option (Nat × Nat × Nat × Nat)
  /-- A time save is due at the next 32.768 kHz edge. -/
  saveDue    : Bool
  /-- WAKE_N was low during a dump (R547). -/
  wakeHeld   : Bool
  /-- The dump is done and the main rails are off (R440). -/
  down       : Bool
  /-- The failed sideband pins of step 3: boundary-register cell and fault bits (TST_PIN_RES). -/
  pins       : List (Nat × Nat)
deriving DecidableEq, Repr

/-- Everything but the queue and the two byte memories. -/
structure Dev extends DevHub, DevHost, DevMedia, DevFlash, DevPool, DevTwin, DevPower
deriving DecidableEq, Repr

/-- The whole machine: the commands waiting, first in first out; the bytes of the embedded flash array; the bytes
of the persistent window; and the device. -/
structure State where
  pending : List Instr
  array   : Memory
  window  : Memory
  dev     : Dev
deriving DecidableEq, Repr

/-- The device with no supply: the state before the first PG_AO_RISE, from which bring-up runs (R490).  The registers hold the
reset values of the spec's tables; 1,024 substitute HBM pages are left (R374), the credit limits are those of Table STK-1,
ENDUR_DAYS has no rate yet (R511), TWN_HB_CTL is in force at its reset value. -/
def Dev.reset : Dev :=
  { regs := [(0x60010C, 0x04000000)], published := [], pages := [], comSeq := 0, comTick := none, out := [], tick := 0, draws := 0, supplyLost := false,
    resetRun := false, latHi := 0, accHead := none, latEpoch := 0, msixTbl := [], pba := [], cfg := [], headDown := [], bifNow := 0, ide := [], ideUsed := [], ptmBad := 0,
    ptmLast := 0, shutState := 0, alertSet := none, events := [], pwDirty := [], pwPoison := [], pwDead := [], pwCured := [], pwUnmir := 0, queues := [],
    fetchNo := 0, slices := [], exp := { seqNo := 0, cursor := 0, behind := [], looked := false }, ctxs := [], ctxStore := [], kek := none, xbufShown := false,
    zeroing := [], map := [], ctxPend := [], resync := [], giving := [], wants := [], leaving := false, mapPend := [], resident := [], refBits := [], mapWant := [], closeSeq := 0, relocs := [], dirty := [], lost := [], dlog := 0, bands := [], cache := [], flash := [],
    elog := [], gcCredit := 0, incidents := [], incWait := [], banks := [], sbWait := [], redNo := 0, gTx := 0, gRx := 0, gPend := [], trk := [], fresh := [],
    hdOut := [], wkOut := [], dpar := [], dacc := [], coldPrev := [], coldNow := [], svSeen := [], svStart := 0, svMoved := false,
    rfshDays := [], dayTick := 0, spareUsed := [], rbUsed := [], doms := [], ports := [], bridges := [], fills := [],
    stripeBuf := [], progd := [], chunksOk := [], bmDirty := [], bmClear := [], bmWait := [], bmLogs := [], rbQueue := [], timeFig := 0, timePre := 0,
    stepPend := none, lossAt := none, exGood := 0, exBad := 0, exLast := 0, slewDone := false, leadCoarse := false, ptmGood := 0, twinPtm := false,
    nvm := NvmRec.reset, dumpAt := 0, dumpSrc := 0, stayDown := false, dlogStalled := false, dlogRing := [], exhausted := [], conds := [],
    levelTick := 0, levelEpoch := 0, peDays := [], fmtDays := 0, spareFmt := 0, fmtOut := [], rebuildFmt := 0, metaAt := [], metaBack := [],
    crLim := [(1024, 4096), (1024, 16384), (1024, 16384), (512, 8192), (2048, 8192), (2048, 8192), (4096, 12288), (1024, 4096),
      (1024, 4096), (1024, 1024)],
    crWait := [], crHold := [], hbmPoison := [], hbmDead := [], dlogBad := false, hbmLog := [], hbmRecent := [], hbmRetired := [], hbmBare := [], scrLine := 0,
    scrStart := 0, sramStart := 0, sleepAt := 0, remapped := [], arrCe := [], ceWords := [], coresOut := [], coresHit := [],
    endur := 0xFFFFFFFF, gpfMark := 0, gpfRun := false, gPrev := 0, serves := false, syncEnd := none, rekeyOut := false, sesTx := 0, sesTxNew := none, sesRx := 0, sesRxNew := none, shelfNew := none, gSaid := 0,
    shelf := none, pairKey := none, gLastRx := 0, gLastTx := 0, twinUsed := 0, twinState := 0, decided := none, decidedEp := 0, taking := false, takes := [],
    twinSlices := [], twinVers := [], twinCtxs := [], twinRegions := [], pwTwin := [], freeQ := [], hbCtl := 0x00C80400,
    clsNow := 0x00010408, ageNow := 0x100, susNow := 0x4004, rbNow := 0x0380401A, tgTick := 0, pairStart := 0, nHost := NPort.reset, nFirm := NPort.reset, nRun := none, nSus := none, nSec := [], apWait := [], entryTgt := 0,
    bring := none, enMain := false, pgMain := false, aoUp := false, pgTry := 0, t0 := 0, scanPend := false, scanBands := [], lostSlots := 0, restored := false, counted := false, resetDefer := false,
    timeSave := none, saveDue := false, wakeHeld := false, down := false, pins := [], cap := Cap.reset, rp := Replay.reset }

/-- The machine before power: no command waits, every byte of the flash array reads erased, no byte of the window has been
stored. -/
def State.reset : State := { pending := [], array := [], window := [], dev := Dev.reset }

end Sys2Proof.Machine
end

