-- ==== Sys2Proof/Machine/RegTable.lean ====
section
/-! DEFINITION. The register tables of the spec (Tables REG-6 to TST-1) as data: one row per register or
register array, with its BAR0 offset, its reset value and one mask per access type of Table REG-3; and one
name per register.  A field the tables call `RO` has no mask bit; `act` marks the fields whose write starts an
action.  `kept` marks a register whose value survives a SOFT_RST (reset column "Retained", "At format",
"From NVM", "From qualification" or empty: its value is not a reset value of the page, R47).  `snap` marks a
register that SEQ covers (R54: wider than 32 bits, or named in a snapshot group). -/

namespace Sys2Proof.Machine

/-- One row of a register table. -/
structure RegDef where
  name    : String
  off     : Nat
  count   : Nat
  stride  : Nat
  reset   : Nat
  rw      : Nat
  rwl     : Nat
  w1c     : Nat
  act     : Nat
  rsv     : Nat
  lockAct : Bool
  snap    : Bool
  kept    : Bool
deriving DecidableEq, Repr

/-- Registers of the GLB window, part 0. -/
def regsGLB0 : List RegDef := [
  ⟨"GLB_DEV_ID", 0x100, 1, 0x4, 0x43485120, 0x0, 0x0, 0x0, 0x0, 0x0, false, false, false⟩,
  ⟨"GLB_STEP", 0x104, 1, 0x4, 0x4101, 0x0, 0x0, 0x0, 0x0, 0x0, false, false, false⟩,
  ⟨"GLB_SERIAL_LO", 0x108, 1, 0x4, 0x0, 0x0, 0x0, 0x0, 0x0, 0x0, false, false, true⟩,
  ⟨"GLB_SERIAL_HI", 0x10C, 1, 0x4, 0x0, 0x0, 0x0, 0x0, 0x0, 0x0, false, false, true⟩,
  ⟨"GLB_STRAP", 0x110, 1, 0x4, 0x0, 0x0, 0x0, 0x0, 0x0, 0xFFFFFFF8, false, false, true⟩,
  ⟨"GLB_DEV_STS", 0x120, 1, 0x4, 0x0, 0x0, 0x0, 0x0, 0x0, 0xFFFF8000, false, false, false⟩,
  ⟨"GLB_INT_SUM", 0x124, 1, 0x4, 0x0, 0x0, 0x0, 0x0, 0x0, 0xFFFF0000, false, false, false⟩,
  ⟨"GLB_TIME_LO", 0x140, 1, 0x4, 0x0, 0x0, 0x0, 0x0, 0x0, 0x0, false, false, true⟩,
  ⟨"GLB_TIME_HI", 0x144, 1, 0x4, 0x0, 0x0, 0x0, 0x0, 0x0, 0x0, false, false, true⟩,
  ⟨"GLB_TIME_EPOCH", 0x148, 1, 0x4, 0x0, 0x0, 0x0, 0x0, 0x0, 0xFFF80000, false, false, true⟩,
  ⟨"GLB_TIME_UNC", 0x14C, 1, 0x4, 0x0, 0x0, 0x0, 0x0, 0x0, 0x0, false, false, false⟩,
  ⟨"GLB_RST_CTL", 0x180, 1, 0x4, 0x0, 0x0, 0x0, 0x0, 0xFFFF000F, 0xFFF0, true, false, false⟩,
  ⟨"GLB_RST_STS", 0x184, 1, 0x4, 0x0, 0x0, 0x0, 0x0, 0x0, 0x0, false, false, false⟩]

/-- Registers of the GLB window. -/
def regsGLB : List RegDef := regsGLB0

/-- Registers of the HIF window, part 0. -/
def regsHIF0 : List RegDef := [
  ⟨"HIF_PORT_CFG", 0x100100, 1, 0x4, 0x0, 0x0, 0x3, 0x0, 0x0, 0xFFFFFFFC, false, false, true⟩,
  ⟨"HIF_HEAD_CTL", 0x100104, 1, 0x4, 0xF, 0x0, 0xF, 0x0, 0x0, 0xFFFFFFF0, false, false, false⟩,
  ⟨"HIF_LINK_STS", 0x100110, 4, 0x4, 0x0, 0x0, 0x0, 0x0, 0x0, 0xFC00, false, false, false⟩,
  ⟨"HIF_DMA_TMO", 0x100120, 1, 0x4, 0x32, 0xFFFF, 0x0, 0x0, 0x0, 0xFFFF0000, false, false, false⟩,
  ⟨"HIF_HEAD_WAIT", 0x100124, 1, 0x4, 0x7D0, 0xFFFF, 0x0, 0x0, 0x0, 0xFFFF0000, false, false, false⟩,
  ⟨"HIF_PTM_CTL", 0x100140, 1, 0x4, 0xA00, 0xFF07, 0x0, 0x0, 0x0, 0xFFFF00F8, false, false, false⟩,
  ⟨"HIF_PTM_STS", 0x100144, 1, 0x4, 0x0, 0x0, 0x0, 0x0, 0x0, 0x0, false, true, false⟩,
  ⟨"HIF_PTM_OFS", 0x100148, 1, 0x4, 0x0, 0x0, 0x0, 0x0, 0x0, 0x0, false, true, false⟩,
  ⟨"HIF_PTM_PDELAY", 0x10014C, 1, 0x4, 0x0, 0x0, 0x0, 0x0, 0x0, 0x0, false, true, false⟩,
  ⟨"HIF_GPF_STS", 0x100160, 1, 0x4, 0x0, 0x0, 0x0, 0x0, 0x0, 0xFFF8, false, false, false⟩,
  ⟨"HIF_DIRTY_SHUT", 0x100168, 1, 0x4, 0x0, 0x0, 0x0, 0x0, 0x0, 0x0, false, false, true⟩,
  ⟨"HIF_I3C_CTL", 0x100180, 1, 0x4, 0xBA, 0x0, 0xFF, 0x0, 0x0, 0xFFFFFF00, false, false, false⟩,
  ⟨"HIF_I3C_STS", 0x100184, 1, 0x4, 0x0, 0x0, 0x0, 0x0, 0x0, 0xFF00, false, false, false⟩,
  ⟨"HIF_PWIN_CTL", 0x101100, 1, 0x4, 0x0, 0x0, 0x3F, 0x0, 0x0, 0xFFFFFFC0, false, false, false⟩,
  ⟨"HIF_PWIN_STS", 0x101104, 1, 0x4, 0x0, 0x0, 0x0, 0x0, 0x0, 0xFFFFFFFC, false, false, false⟩]

/-- Registers of the HIF window, part 1. -/
def regsHIF1 : List RegDef := [
  ⟨"HIF_PWIN_DIRTY", 0x101108, 1, 0x4, 0x0, 0x0, 0x0, 0x0, 0x0, 0xFFF80000, false, false, false⟩,
  ⟨"SEG_CTL", 0x101200, 32, 0x10, 0x0, 0x0, 0xFFFFFFF7, 0x0, 0x0, 0x8, false, false, false⟩,
  ⟨"SEG_LBA_LO", 0x101204, 32, 0x10, 0x0, 0x0, 0xFFFF0000, 0x0, 0x0, 0xFFFF, false, true, false⟩,
  ⟨"SEG_LBA_HI", 0x101208, 32, 0x10, 0x0, 0x0, 0xFFFF, 0x0, 0x0, 0xFFFF0000, false, true, false⟩,
  ⟨"SEG_STS", 0x10120C, 32, 0x10, 0x0, 0x0, 0x0, 0x0, 0x0, 0xFFFE, false, false, false⟩,
  ⟨"HIF_SLICE_HEAD", 0x102100, 256, 0x4, 0x0, 0x1F1F1F1F, 0x0, 0x0, 0x0, 0xE0E0E0E0, false, false, false⟩]

/-- Registers of the HIF window. -/
def regsHIF : List RegDef := regsHIF0 ++ regsHIF1

/-- Registers of the CQE window, part 0. -/
def regsCQE0 : List RegDef := [
  ⟨"CQE_QSEL", 0x200100, 1, 0x4, 0x0, 0x3FFF, 0x0, 0x0, 0x0, 0xFFFFC000, false, false, false⟩,
  ⟨"CQE_Q_CTL", 0x200104, 1, 0x4, 0x200000, 0x0, 0x7FFFFFF, 0x0, 0x0, 0xF8000000, false, false, false⟩,
  ⟨"CQE_Q_SQB_LO", 0x200108, 1, 0x4, 0x0, 0x0, 0xFFFFF000, 0x0, 0x0, 0xFFF, false, true, false⟩,
  ⟨"CQE_Q_SQB_HI", 0x20010C, 1, 0x4, 0x0, 0x0, 0xFFFFFFFF, 0x0, 0x0, 0x0, false, true, false⟩,
  ⟨"CQE_Q_CQB_LO", 0x200110, 1, 0x4, 0x0, 0x0, 0xFFFFF000, 0x0, 0x0, 0xFFF, false, true, false⟩,
  ⟨"CQE_Q_CQB_HI", 0x200114, 1, 0x4, 0x0, 0x0, 0xFFFFFFFF, 0x0, 0x0, 0x0, false, true, false⟩,
  ⟨"CQE_Q_PTR", 0x200118, 1, 0x4, 0x0, 0x0, 0x0, 0x0, 0x0, 0x0, false, true, false⟩,
  ⟨"CQE_Q_CPTR", 0x20011C, 1, 0x4, 0x0, 0x0, 0x0, 0x0, 0x0, 0x0, false, true, false⟩,
  ⟨"CQE_Q_OUT", 0x200120, 1, 0x4, 0x0, 0x0, 0x0, 0x0, 0x0, 0x0, false, true, false⟩,
  ⟨"CQE_Q_STS", 0x200124, 1, 0x4, 0x0, 0x0, 0x0, 0x0, 0x0, 0xFFFFF0E0, false, true, false⟩,
  ⟨"CQE_Q_RST", 0x200128, 1, 0x4, 0x0, 0x0, 0x0, 0x0, 0xFFFFFFFF, 0x0, false, false, false⟩,
  ⟨"CQE_HAZ_WAITS", 0x200140, 1, 0x4, 0x0, 0xFFFFFFFF, 0x0, 0x0, 0x0, 0x0, false, false, false⟩,
  ⟨"CQE_TAGBUSY", 0x200144, 1, 0x4, 0x0, 0xFFFFFFFF, 0x0, 0x0, 0x0, 0x0, false, false, false⟩]

/-- Registers of the CQE window. -/
def regsCQE : List RegDef := regsCQE0

/-- Registers of the VSL window, part 0. -/
def regsVSL0 : List RegDef := [
  ⟨"VSL_SSEL", 0x300100, 1, 0x4, 0x0, 0x3FF, 0x0, 0x0, 0x0, 0xFFFFFC00, false, false, false⟩,
  ⟨"VSL_SL_CTL", 0x300104, 1, 0x4, 0x40, 0x0, 0x7F, 0x0, 0x0, 0xFFFFFF80, false, false, false⟩,
  ⟨"VSL_SL_PASID", 0x300108, 1, 0x4, 0x0, 0x0, 0xFFFFF, 0x0, 0x0, 0xFFF00000, false, false, false⟩,
  ⟨"VSL_SL_BLKS_LO", 0x30010C, 1, 0x4, 0x0, 0x0, 0xFFFFFFFF, 0x0, 0x0, 0x0, false, true, false⟩,
  ⟨"VSL_SL_BLKS_HI", 0x300110, 1, 0x4, 0x0, 0x0, 0x1FF, 0x0, 0x0, 0xFFFFFE00, false, true, false⟩,
  ⟨"VSL_SL_SHARE", 0x300114, 1, 0x4, 0x1, 0x7F07FF, 0x0, 0x0, 0x0, 0xFF80F800, false, false, false⟩,
  ⟨"VSL_SL_SHARE_ACT", 0x300118, 1, 0x4, 0x1, 0x0, 0x0, 0x0, 0x0, 0x0, false, true, false⟩,
  ⟨"VSL_SL_PIN", 0x30011C, 1, 0x4, 0x0, 0x0, 0x1FFFFF, 0x0, 0x0, 0xFFE00000, false, false, false⟩,
  ⟨"VSL_SL_HDRM", 0x300120, 1, 0x4, 0x0, 0x0, 0xFFFFFF, 0x0, 0x0, 0xFF000000, false, false, false⟩,
  ⟨"VSL_SL_OP", 0x300124, 1, 0x4, 0x0, 0x0, 0x0, 0x0, 0xFFFF001F, 0xFFE0, false, false, false⟩,
  ⟨"VSL_SL_STS", 0x300128, 1, 0x4, 0x0, 0x0, 0x0, 0x0, 0x0, 0xFFFFFC00, false, true, false⟩,
  ⟨"VSL_SL_INFLIGHT", 0x30012C, 1, 0x4, 0x0, 0x0, 0x0, 0x0, 0x0, 0xFFF00000, false, true, false⟩,
  ⟨"VSL_SL_HIGHLBA_LO", 0x300130, 1, 0x4, 0x0, 0x0, 0x0, 0x0, 0x0, 0x0, false, true, false⟩,
  ⟨"VSL_SL_HIGHLBA_HI", 0x300134, 1, 0x4, 0x0, 0x0, 0x0, 0x0, 0x0, 0xFFFFFE00, false, true, false⟩,
  ⟨"VSL_SL_BLOB_LO", 0x300138, 1, 0x4, 0x0, 0xFFFFF800, 0x0, 0x0, 0x0, 0x7FF, false, true, false⟩]

/-- Registers of the VSL window, part 1. -/
def regsVSL1 : List RegDef := [
  ⟨"VSL_SL_BLOB_HI", 0x30013C, 1, 0x4, 0x0, 0xFFFFFFFF, 0x0, 0x0, 0x0, 0x0, false, true, false⟩,
  ⟨"VSL_SL_SAVESEQ_LO", 0x300140, 1, 0x4, 0x0, 0x0, 0x0, 0x0, 0x0, 0x0, false, true, true⟩,
  ⟨"VSL_SL_SAVESEQ_HI", 0x300144, 1, 0x4, 0x0, 0x0, 0x0, 0x0, 0x0, 0x0, false, true, true⟩,
  ⟨"VSL_SHARE_SUM", 0x300180, 1, 0x4, 0x0, 0x0, 0x0, 0x0, 0x0, 0x0, false, false, false⟩,
  ⟨"VSL_PIN_SUM", 0x300184, 1, 0x4, 0x0, 0x0, 0x0, 0x0, 0x0, 0x0, false, false, false⟩,
  ⟨"VSL_BOUND", 0x300188, 1, 0x4, 0x0, 0x0, 0x0, 0x0, 0x0, 0x0, false, false, false⟩,
  ⟨"VSL_EXP_CTL", 0x301100, 1, 0x4, 0x0, 0x0, 0x3FFF, 0x0, 0x0, 0xFFFFC000, false, false, false⟩,
  ⟨"VSL_EXP_RING_LO", 0x301104, 1, 0x4, 0x0, 0x0, 0xFFF00000, 0x0, 0x0, 0xFFFFF, false, true, false⟩,
  ⟨"VSL_EXP_RING_HI", 0x301108, 1, 0x4, 0x0, 0x0, 0xFFFFFFFF, 0x0, 0x0, 0x0, false, true, false⟩,
  ⟨"VSL_EXP_SLOTS", 0x30110C, 1, 0x4, 0x0, 0x0, 0xFFFF, 0x0, 0x0, 0xFFFF0000, false, false, false⟩,
  ⟨"VSL_EXP_PROD", 0x301110, 1, 0x4, 0x0, 0x0, 0x0, 0x0, 0x0, 0x0, false, true, false⟩,
  ⟨"VSL_EXP_CONS", 0x301114, 1, 0x4, 0x0, 0xFFFFFFFF, 0x0, 0x0, 0x0, 0x0, false, false, false⟩,
  ⟨"VSL_EXP_CUR_LO", 0x301118, 1, 0x4, 0x0, 0x0, 0x0, 0x0, 0x0, 0x0, false, true, false⟩,
  ⟨"VSL_EXP_CUR_HI", 0x30111C, 1, 0x4, 0x0, 0x0, 0x0, 0x0, 0x0, 0xFFFFFE00, false, true, false⟩,
  ⟨"VSL_EXP_START_LO", 0x301120, 1, 0x4, 0x0, 0x0, 0xFFFFFFFF, 0x0, 0x0, 0x0, false, true, false⟩]

/-- Registers of the VSL window, part 2. -/
def regsVSL2 : List RegDef := [
  ⟨"VSL_EXP_START_HI", 0x301124, 1, 0x4, 0x0, 0x0, 0x1FF, 0x0, 0x0, 0xFFFFFE00, false, true, false⟩,
  ⟨"VSL_EXP_END_LO", 0x301128, 1, 0x4, 0x0, 0x0, 0xFFFFFFFF, 0x0, 0x0, 0x0, false, true, false⟩,
  ⟨"VSL_EXP_END_HI", 0x30112C, 1, 0x4, 0x0, 0x0, 0x1FF, 0x0, 0x0, 0xFFFFFE00, false, true, false⟩,
  ⟨"VSL_EXP_BEHIND", 0x301130, 1, 0x4, 0x0, 0x0, 0x0, 0x0, 0x0, 0x0, false, false, false⟩,
  ⟨"VSL_EXP_POISON", 0x301134, 1, 0x4, 0x0, 0x0, 0x0, 0x0, 0x0, 0x0, false, false, false⟩,
  ⟨"VSL_EXP_STS", 0x301138, 1, 0x4, 0x0, 0x0, 0x0, 0x0, 0x0, 0xFFFFFFF0, false, true, false⟩,
  ⟨"VSL_EXP_RATE", 0x30113C, 1, 0x4, 0x0, 0xFF, 0x0, 0x0, 0x0, 0xFFFFFF00, false, false, false⟩]

/-- Registers of the VSL window. -/
def regsVSL : List RegDef := regsVSL0 ++ regsVSL1 ++ regsVSL2

/-- Registers of the CRY window, part 0. -/
def regsCRY0 : List RegDef := [
  ⟨"CRY_CSEL", 0x400100, 1, 0x4, 0x0, 0xFFF, 0x0, 0x0, 0x0, 0xFFFFF000, false, false, false⟩,
  ⟨"CRY_CTX_STS", 0x400104, 1, 0x4, 0x0, 0x0, 0x0, 0x0, 0x0, 0xFF80, false, true, false⟩,
  ⟨"CRY_CTX_INVOC", 0x400108, 1, 0x4, 0x0, 0x0, 0x0, 0x0, 0x0, 0x0, false, true, false⟩,
  ⟨"CRY_CTX_MARK", 0x40010C, 1, 0x4, 0x0, 0x0, 0x0, 0x0, 0x0, 0x0, false, true, false⟩,
  ⟨"CRY_CTX_FIXED_LO", 0x400110, 1, 0x4, 0x0, 0x0, 0x0, 0x0, 0x0, 0x0, false, true, false⟩,
  ⟨"CRY_CTX_FIXED_HI", 0x400114, 1, 0x4, 0x0, 0x0, 0x0, 0x0, 0x0, 0x0, false, true, false⟩,
  ⟨"CRY_CTX_LABEL_LO", 0x400118, 1, 0x4, 0x0, 0x0, 0x0, 0x0, 0x0, 0x0, false, true, false⟩,
  ⟨"CRY_CTX_LABEL_HI", 0x40011C, 1, 0x4, 0x0, 0x0, 0x0, 0x0, 0x0, 0x0, false, true, false⟩,
  ⟨"CRY_OP", 0x400140, 1, 0x4, 0x0, 0x0, 0x0, 0x0, 0xFFFF000F, 0xFFF0, true, false, false⟩,
  ⟨"CRY_OP_STS", 0x400144, 1, 0x4, 0x0, 0x0, 0x0, 0x0, 0x0, 0xFFFFFF00, false, false, false⟩,
  ⟨"CRY_KEK", 0x400180, 8, 0x4, 0x0, 0x0, 0x0, 0x0, 0xFFFFFFFF, 0x0, false, false, false⟩,
  ⟨"CRY_KEK_STS", 0x4001A0, 1, 0x4, 0x0, 0x0, 0x0, 0x0, 0x0, 0xFFFE, false, false, false⟩,
  ⟨"CRY_POLICY", 0x4001C0, 1, 0x4, 0x1C04, 0x0, 0x1F07, 0x0, 0x0, 0xFFFFE0F8, false, false, false⟩,
  ⟨"CRY_LANE_STS", 0x4001C4, 1, 0x4, 0xFFFF, 0x0, 0x0, 0x0, 0x0, 0x0, false, false, false⟩,
  ⟨"CRY_UNITS_ENC", 0x4001C8, 1, 0x4, 0x0, 0xFFFFFFFF, 0x0, 0x0, 0x0, 0x0, false, false, false⟩]

/-- Registers of the CRY window, part 1. -/
def regsCRY1 : List RegDef := [
  ⟨"CRY_UNITS_DEC", 0x4001CC, 1, 0x4, 0x0, 0xFFFFFFFF, 0x0, 0x0, 0x0, 0x0, false, false, false⟩,
  ⟨"CRY_GCM_FAIL", 0x4001D0, 1, 0x4, 0x0, 0xFFFFFFFF, 0x0, 0x0, 0x0, 0x0, false, false, false⟩,
  ⟨"CRY_XBUF", 0x400200, 32, 0x4, 0x0, 0xFFFFFFFF, 0x0, 0x0, 0x0, 0x0, false, false, false⟩]

/-- Registers of the CRY window. -/
def regsCRY : List RegDef := regsCRY0 ++ regsCRY1

/-- Registers of the MAP window, part 0. -/
def regsMAP0 : List RegDef := [
  ⟨"MAP_BANDS", 0x500100, 1, 0x4, 0x0, 0x0, 0x0, 0x0, 0x0, 0xFF800000, false, true, true⟩,
  ⟨"MAP_BANDS_FMT", 0x500104, 1, 0x4, 0x0, 0x0, 0x0, 0x0, 0x0, 0xFF800000, false, true, true⟩,
  ⟨"MAP_CLOG_LO", 0x500108, 1, 0x4, 0x0, 0x0, 0x0, 0x0, 0x0, 0x0, false, true, true⟩,
  ⟨"MAP_CLOG_HI", 0x50010C, 1, 0x4, 0x0, 0x0, 0x0, 0x0, 0x0, 0xFFFFFFC0, false, true, true⟩,
  ⟨"MAP_LIMIT_LO", 0x500110, 1, 0x4, 0x0, 0x0, 0x0, 0x0, 0x0, 0x0, false, true, true⟩,
  ⟨"MAP_LIMIT_HI", 0x500114, 1, 0x4, 0x0, 0x0, 0x0, 0x0, 0x0, 0xFFFFFFC0, false, true, true⟩,
  ⟨"MAP_VALID_LO", 0x500118, 1, 0x4, 0x0, 0x0, 0x0, 0x0, 0x0, 0x0, false, true, true⟩,
  ⟨"MAP_VALID_HI", 0x50011C, 1, 0x4, 0x0, 0x0, 0x0, 0x0, 0x0, 0xFFFFFFC0, false, true, true⟩,
  ⟨"MAP_FQ", 0x500120, 1, 0x4, 0x0, 0x0, 0x0, 0x0, 0x0, 0xFF800000, false, true, true⟩,
  ⟨"MAP_META", 0x500124, 1, 0x4, 0x0, 0x0, 0x0, 0x0, 0x0, 0xFF800000, false, true, true⟩,
  ⟨"MAP_QLC_USED", 0x500128, 1, 0x4, 0x0, 0x0, 0x0, 0x0, 0x0, 0xFF800000, false, true, true⟩,
  ⟨"MAP_SLC_USED", 0x50012C, 1, 0x4, 0x0, 0x0, 0x0, 0x0, 0x0, 0xFF800000, false, true, true⟩,
  ⟨"MAP_SSEL", 0x500140, 1, 0x4, 0x0, 0x3FF, 0x0, 0x0, 0x0, 0xFFFFFC00, false, false, false⟩,
  ⟨"MAP_SL_MAPPED_LO", 0x500144, 1, 0x4, 0x0, 0x0, 0x0, 0x0, 0x0, 0x0, false, true, true⟩,
  ⟨"MAP_SL_MAPPED_HI", 0x500148, 1, 0x4, 0x0, 0x0, 0x0, 0x0, 0x0, 0xFFFFFFC0, false, true, true⟩]

/-- Registers of the MAP window, part 1. -/
def regsMAP1 : List RegDef := [
  ⟨"MAP_SL_PINNED", 0x50014C, 1, 0x4, 0x0, 0x0, 0x0, 0x0, 0x0, 0xFFE00000, false, true, false⟩,
  ⟨"MAP_CACHE_DIRTY", 0x500160, 1, 0x4, 0x0, 0x0, 0x0, 0x0, 0x0, 0xFFE00000, false, false, false⟩,
  ⟨"MAP_CACHE_HIT", 0x500164, 1, 0x4, 0x0, 0xFFFFFFFF, 0x0, 0x0, 0x0, 0x0, false, false, false⟩,
  ⟨"MAP_CACHE_MISS", 0x500168, 1, 0x4, 0x0, 0xFFFFFFFF, 0x0, 0x0, 0x0, 0x0, false, false, false⟩,
  ⟨"MAP_DLOG_USED", 0x500170, 1, 0x4, 0x0, 0x0, 0x0, 0x0, 0x0, 0xFFC00000, false, false, false⟩,
  ⟨"MAP_DLOG_CTL", 0x500174, 1, 0x4, 0x6000400, 0x0, 0xFFF0FFF, 0x0, 0x0, 0xF000F000, false, false, false⟩,
  ⟨"MAP_NOSPACE", 0x500180, 1, 0x4, 0x0, 0xFFFFFFFF, 0x0, 0x0, 0x0, 0x0, false, false, false⟩,
  ⟨"MAP_GC_CTL", 0x501100, 1, 0x4, 0x800D01, 0x0, 0xFFFF01, 0x0, 0x0, 0xFF0000FE, false, false, false⟩,
  ⟨"MAP_WM_BG", 0x501104, 1, 0x4, 0x0, 0x0, 0x0, 0x0, 0x0, 0xFF800000, false, true, true⟩,
  ⟨"MAP_WM_FG", 0x501108, 1, 0x4, 0x0, 0x0, 0x0, 0x0, 0x0, 0xFF800000, false, true, true⟩,
  ⟨"MAP_WM_HARD", 0x50110C, 1, 0x4, 0x0, 0x0, 0x0, 0x0, 0x0, 0xFF800000, false, true, true⟩,
  ⟨"MAP_SLC_MAX", 0x501110, 1, 0x4, 0x10000, 0x0, 0x7FFFFF, 0x0, 0x0, 0xFF800000, false, false, false⟩,
  ⟨"MAP_SLC_TGT", 0x501114, 1, 0x4, 0x0, 0x0, 0x0, 0x0, 0x0, 0xFF800000, false, false, true⟩,
  ⟨"MAP_GC_STS", 0x501118, 1, 0x4, 0x0, 0x0, 0x0, 0x0, 0x0, 0xFFFF00FC, false, true, false⟩,
  ⟨"MAP_GC_CREDIT", 0x50111C, 1, 0x4, 0x0, 0x0, 0x0, 0x0, 0x0, 0x0, false, true, false⟩]

/-- Registers of the MAP window, part 2. -/
def regsMAP2 : List RegDef := [
  ⟨"MAP_GC_BANDS", 0x501120, 1, 0x4, 0x0, 0xFFFFFFFF, 0x0, 0x0, 0x0, 0x0, false, false, false⟩,
  ⟨"MAP_RELOC_LO", 0x501124, 1, 0x4, 0x0, 0xFFFFFFFF, 0x0, 0x0, 0x0, 0x0, false, true, false⟩,
  ⟨"MAP_RELOC_HI", 0x501128, 1, 0x4, 0x0, 0xFFFFFFFF, 0x0, 0x0, 0x0, 0x0, false, true, false⟩,
  ⟨"MAP_REFRESH", 0x50112C, 1, 0x4, 0x0, 0xFFFFFFFF, 0x0, 0x0, 0x0, 0x0, false, false, false⟩,
  ⟨"MAP_FOLDS", 0x501130, 1, 0x4, 0x0, 0xFFFFFFFF, 0x0, 0x0, 0x0, 0x0, false, false, false⟩,
  ⟨"MAP_RETIRED", 0x501134, 1, 0x4, 0x0, 0x0, 0x0, 0x0, 0x0, 0x0, false, false, false⟩,
  ⟨"MAP_PE_MAX", 0x501138, 1, 0x4, 0x0, 0x0, 0x0, 0x0, 0x0, 0xFFFF0000, false, false, false⟩,
  ⟨"MAP_PE_MIN", 0x50113C, 1, 0x4, 0x0, 0x0, 0x0, 0x0, 0x0, 0xFFFF0000, false, false, false⟩,
  ⟨"MAP_WL_SPREAD", 0x501140, 1, 0x4, 0x190, 0x0, 0xFFFF, 0x0, 0x0, 0xFFFF0000, false, false, false⟩]

/-- Registers of the MAP window. -/
def regsMAP : List RegDef := regsMAP0 ++ regsMAP1 ++ regsMAP2

/-- Registers of the STK window, part 0. -/
def regsSTK0 : List RegDef := [
  ⟨"STK_HBM_STS", 0x600100, 1, 0x4, 0x0, 0x0, 0x0, 0x0, 0x0, 0xFFFF0000, false, false, false⟩,
  ⟨"STK_HBM_TEMP", 0x600104, 1, 0x4, 0x0, 0x0, 0x0, 0x0, 0x0, 0x0, false, false, false⟩,
  ⟨"STK_REPAIRS", 0x600108, 1, 0x4, 0x0, 0x0, 0x0, 0x0, 0x0, 0x0, false, false, true⟩,
  ⟨"STK_RETIRED", 0x60010C, 1, 0x4, 0x0, 0x0, 0x0, 0x0, 0x0, 0xF800C000, false, false, true⟩,
  ⟨"STK_SCR_CTL", 0x600140, 1, 0x4, 0xA80403, 0x0, 0xFFFFFF03, 0x0, 0x0, 0xFC, false, false, false⟩,
  ⟨"STK_SCR_HBM_LAP", 0x600144, 1, 0x4, 0x0, 0x0, 0x0, 0x0, 0x0, 0x0, false, true, false⟩,
  ⟨"STK_SCR_HBM_POS", 0x600148, 1, 0x4, 0x0, 0x0, 0x0, 0x0, 0x0, 0xFFC00000, false, true, false⟩,
  ⟨"STK_SCR_SRAM_LAP", 0x60014C, 1, 0x4, 0x0, 0x0, 0x0, 0x0, 0x0, 0x0, false, true, false⟩,
  ⟨"STK_SCR_LAPS", 0x600150, 1, 0x4, 0x0, 0xFFFFFFFF, 0x0, 0x0, 0x0, 0x0, false, true, false⟩,
  ⟨"STK_POOL", 0x601100, 1, 0x4, 0x8000, 0x0, 0x0, 0x0, 0x0, 0xFFFF0000, false, true, false⟩,
  ⟨"STK_SHARED", 0x601104, 1, 0x4, 0x4600, 0x0, 0x0, 0x0, 0x0, 0x0, false, true, false⟩,
  ⟨"STK_CR_LIM", 0x601140, 1, 0x4, 0x10000400, 0x0, 0xFFFFFFFF, 0x0, 0x0, 0x0, false, true, false⟩,
  ⟨"STK_CR_LIM", 0x601148, 1, 0x4, 0x40000400, 0x0, 0xFFFFFFFF, 0x0, 0x0, 0x0, false, true, false⟩,
  ⟨"STK_CR_LIM", 0x601150, 1, 0x4, 0x40000400, 0x0, 0xFFFFFFFF, 0x0, 0x0, 0x0, false, true, false⟩,
  ⟨"STK_CR_LIM", 0x601158, 1, 0x4, 0x20000200, 0x0, 0xFFFFFFFF, 0x0, 0x0, 0x0, false, true, false⟩]

/-- Registers of the STK window, part 1. -/
def regsSTK1 : List RegDef := [
  ⟨"STK_CR_LIM", 0x601160, 1, 0x4, 0x20000800, 0x0, 0xFFFFFFFF, 0x0, 0x0, 0x0, false, true, false⟩,
  ⟨"STK_CR_LIM", 0x601168, 1, 0x4, 0x20000800, 0x0, 0xFFFFFFFF, 0x0, 0x0, 0x0, false, true, false⟩,
  ⟨"STK_CR_LIM", 0x601170, 1, 0x4, 0x30001000, 0x0, 0xFFFFFFFF, 0x0, 0x0, 0x0, false, true, false⟩,
  ⟨"STK_CR_LIM", 0x601178, 1, 0x4, 0x10000400, 0x0, 0xFFFFFFFF, 0x0, 0x0, 0x0, false, true, false⟩,
  ⟨"STK_CR_LIM", 0x601180, 1, 0x4, 0x10000400, 0x0, 0xFFFFFFFF, 0x0, 0x0, 0x0, false, true, false⟩,
  ⟨"STK_CR_LIM", 0x601188, 1, 0x4, 0x4000400, 0x0, 0x0, 0x0, 0x0, 0x0, false, true, false⟩,
  ⟨"STK_CR_USED", 0x601144, 10, 0x8, 0x0, 0x0, 0x0, 0x0, 0x0, 0xFF000000, false, true, false⟩,
  ⟨"STK_CR_WAITS", 0x6011A0, 1, 0x4, 0x0, 0xFFFFFFFF, 0x0, 0x0, 0x0, 0x0, false, false, false⟩,
  ⟨"STK_PWC_SLOTS", 0x602100, 1, 0x4, 0x1E0000, 0x0, 0x0, 0x0, 0x0, 0xFFE00000, false, true, false⟩,
  ⟨"STK_PWC_USED", 0x602104, 1, 0x4, 0x0, 0x0, 0x0, 0x0, 0x0, 0xFFE00000, false, true, false⟩,
  ⟨"STK_PWC_THR", 0x602108, 1, 0x4, 0x1B0000, 0x0, 0x0, 0x0, 0x0, 0xFFE00000, false, true, false⟩,
  ⟨"STK_PWC_RES", 0x60210C, 1, 0x4, 0xF000, 0x0, 0x0, 0x0, 0x0, 0xFFE00000, false, true, false⟩,
  ⟨"STK_PWC_CREDIT", 0x602110, 1, 0x4, 0x0, 0x0, 0x0, 0x0, 0x0, 0xFFE00000, false, true, false⟩,
  ⟨"STK_PWC_STS", 0x602114, 1, 0x4, 0x0, 0x0, 0x0, 0x0, 0x0, 0xFFFFFFF8, false, true, false⟩,
  ⟨"STK_PWC_THROT", 0x602118, 1, 0x4, 0x0, 0xFFFFFFFF, 0x0, 0x0, 0x0, 0x0, false, false, false⟩]

/-- Registers of the STK window, part 2. -/
def regsSTK2 : List RegDef := [
  ⟨"STK_PWC_TFULL", 0x60211C, 1, 0x4, 0x0, 0xFFFFFFFF, 0x0, 0x0, 0x0, 0x0, false, false, false⟩,
  ⟨"STK_PWC_VERS", 0x602120, 1, 0x4, 0x0, 0xFFFFFFFF, 0x0, 0x0, 0x0, 0x0, false, false, false⟩,
  ⟨"STK_LADLE_STS", 0x602140, 1, 0x4, 0x80, 0x0, 0x0, 0x0, 0x0, 0xFFFF0000, false, false, false⟩,
  ⟨"STK_LADLE_OUT", 0x602144, 4, 0x4, 0x0, 0x0, 0x0, 0x0, 0x0, 0x0, false, false, false⟩]

/-- Registers of the STK window. -/
def regsSTK : List RegDef := regsSTK0 ++ regsSTK1 ++ regsSTK2

/-- Registers of the DLR window, part 0. -/
def regsDLR0 : List RegDef := [
  ⟨"DLR_TIME_CTL", 0x700100, 1, 0x4, 0x3207, 0x0, 0xFF07, 0x0, 0x0, 0xFFFF00F8, false, false, false⟩,
  ⟨"DLR_TIME_STS", 0x700104, 1, 0x4, 0x0, 0x0, 0x0, 0x0, 0x0, 0xFFC0, false, true, true⟩,
  ⟨"DLR_TIME_OFS", 0x700108, 1, 0x4, 0x0, 0x0, 0x0, 0x0, 0x0, 0x0, false, true, false⟩,
  ⟨"DLR_SLEW_LEFT", 0x70010C, 1, 0x4, 0x0, 0x0, 0x0, 0x0, 0x0, 0x0, false, true, false⟩,
  ⟨"DLR_STEP_LO", 0x700110, 1, 0x4, 0x0, 0x0, 0x0, 0x0, 0x0, 0x0, false, true, false⟩,
  ⟨"DLR_STEP_HI", 0x700114, 1, 0x4, 0x0, 0x0, 0x0, 0x0, 0x0, 0x0, false, true, false⟩,
  ⟨"DLR_TWIN_OFS", 0x700118, 1, 0x4, 0x0, 0x0, 0x0, 0x0, 0x0, 0x0, false, true, false⟩,
  ⟨"DLR_SLEEP_T_LO", 0x700120, 1, 0x4, 0x0, 0x0, 0x0, 0x0, 0x0, 0x0, false, true, true⟩,
  ⟨"DLR_SLEEP_T_HI", 0x700124, 1, 0x4, 0x0, 0x0, 0x0, 0x0, 0x0, 0x0, false, true, true⟩,
  ⟨"DLR_SLEEP_AO_LO", 0x700128, 1, 0x4, 0x0, 0x0, 0x0, 0x0, 0x0, 0x0, false, true, true⟩,
  ⟨"DLR_SLEEP_AO_HI", 0x70012C, 1, 0x4, 0x0, 0x0, 0x0, 0x0, 0x0, 0xFFFF0000, false, true, true⟩,
  ⟨"DLR_STEPS", 0x700130, 1, 0x4, 0x0, 0xFFFFFFFF, 0x0, 0x0, 0x0, 0x0, false, false, false⟩,
  ⟨"DLR_LOCK_LOSS", 0x700134, 1, 0x4, 0x0, 0xFFFFFFFF, 0x0, 0x0, 0x0, 0x0, false, false, false⟩,
  ⟨"DLR_CLS_W", 0x701100, 1, 0x4, 0x10408, 0x0, 0xFFFFFF, 0x0, 0x0, 0xFF000000, false, false, false⟩,
  ⟨"DLR_AGE", 0x701104, 1, 0x4, 0x100, 0x0, 0xFFF, 0x0, 0x0, 0xFFFFF000, false, false, false⟩]

/-- Registers of the DLR window, part 1. -/
def regsDLR1 : List RegDef := [
  ⟨"DLR_SUS_CTL", 0x701108, 1, 0x4, 0x4004, 0x0, 0xFF0F, 0x0, 0x0, 0xFFFF00F0, false, false, false⟩,
  ⟨"DLR_TSUM", 0x701110, 1, 0x4, 0x0, 0x0, 0x0, 0x0, 0x0, 0xFFFC0000, false, true, false⟩,
  ⟨"DLR_LOAD", 0x701114, 1, 0x4, 0x0, 0x0, 0x0, 0x0, 0x0, 0xFFFF8080, false, true, false⟩,
  ⟨"DLR_SKEW", 0x701118, 1, 0x4, 0x0, 0x0, 0x0, 0x0, 0x0, 0x0, false, true, false⟩,
  ⟨"DLR_SUS_CNT", 0x701120, 1, 0x4, 0x0, 0xFFFFFFFF, 0x0, 0x0, 0x0, 0x0, false, false, false⟩,
  ⟨"DLR_CAP_HITS", 0x701124, 1, 0x4, 0x0, 0xFFFFFFFF, 0x0, 0x0, 0x0, 0x0, false, false, false⟩,
  ⟨"DLR_AGE_PROMO", 0x701128, 1, 0x4, 0x0, 0xFFFFFFFF, 0x0, 0x0, 0x0, 0x0, false, false, false⟩,
  ⟨"DLR_ARM_MISS", 0x70112C, 1, 0x4, 0x0, 0xFFFFFFFF, 0x0, 0x0, 0x0, 0x0, false, false, false⟩,
  ⟨"DLR_PSEL", 0x701140, 1, 0x4, 0x0, 0x1FF, 0x0, 0x0, 0x0, 0xFFFFFE00, false, false, false⟩,
  ⟨"DLR_P_LOAD", 0x701144, 1, 0x4, 0x0, 0x0, 0x0, 0x0, 0x0, 0xF800F800, false, true, false⟩,
  ⟨"DLR_P_DELAY", 0x701148, 1, 0x4, 0x0, 0x0, 0x0, 0x0, 0x0, 0xFFFE0000, false, true, false⟩]

/-- Registers of the DLR window. -/
def regsDLR : List RegDef := regsDLR0 ++ regsDLR1

/-- Registers of the FCH window, part 0. -/
def regsFCH0 : List RegDef := [
  ⟨"FCH_P_STS", 0x800100, 1, 0x4, 0x0, 0x0, 0x0, 0x0, 0x0, 0xFC00, false, true, false⟩,
  ⟨"FCH_P_DIES_LO", 0x800104, 1, 0x4, 0x0, 0x0, 0x0, 0x0, 0x0, 0x0, false, true, false⟩,
  ⟨"FCH_P_DIES_HI", 0x800108, 1, 0x4, 0x0, 0x0, 0x0, 0x0, 0x0, 0x0, false, true, false⟩,
  ⟨"FCH_P_DFAIL_LO", 0x80010C, 1, 0x4, 0x0, 0x0, 0x0, 0x0, 0x0, 0x0, false, true, false⟩,
  ⟨"FCH_P_DFAIL_HI", 0x800110, 1, 0x4, 0x0, 0x0, 0x0, 0x0, 0x0, 0x0, false, true, false⟩,
  ⟨"FCH_P_BRIDGE", 0x800114, 1, 0x4, 0x0, 0x0, 0x0, 0x0, 0x0, 0x0, false, false, false⟩,
  ⟨"FCH_P_GEOM", 0x800118, 1, 0x4, 0x0, 0x0, 0x0, 0x0, 0x0, 0xF000, false, false, false⟩,
  ⟨"FCH_P_RTT", 0x80011C, 1, 0x4, 0x0, 0x0, 0x0, 0x0, 0x0, 0xFFF00000, false, false, false⟩,
  ⟨"FCH_P_RTT_SPREAD", 0x800120, 1, 0x4, 0x0, 0x0, 0x0, 0x0, 0x0, 0xFFFF0000, false, false, false⟩,
  ⟨"FCH_P_CRCERR", 0x800130, 1, 0x4, 0x0, 0xFFFFFFFF, 0x0, 0x0, 0x0, 0x0, false, false, false⟩,
  ⟨"FCH_P_REPLAY", 0x800134, 1, 0x4, 0x0, 0xFFFFFFFF, 0x0, 0x0, 0x0, 0x0, false, false, false⟩,
  ⟨"FCH_P_RECOV", 0x800138, 1, 0x4, 0x0, 0xFFFFFFFF, 0x0, 0x0, 0x0, 0x0, false, false, false⟩,
  ⟨"FCH_P_MARKMISS", 0x80013C, 1, 0x4, 0x0, 0xFFFFFFFF, 0x0, 0x0, 0x0, 0x0, false, false, false⟩,
  ⟨"FCH_P_REFUSE", 0x800140, 1, 0x4, 0x0, 0xFFFFFFFF, 0x0, 0x0, 0x0, 0x0, false, false, false⟩,
  ⟨"FCH_P_OUT", 0x800150, 1, 0x4, 0x0, 0x0, 0x0, 0x0, 0x0, 0xF000, false, true, false⟩]

/-- Registers of the FCH window, part 1. -/
def regsFCH1 : List RegDef := [
  ⟨"FCH_P_TEST_CTL", 0x800160, 1, 0x4, 0x0, 0x0, 0xFF03, 0x0, 0x10000, 0xFFFE00FC, true, false, false⟩,
  ⟨"FCH_P_TEST_STS", 0x800164, 1, 0x4, 0x0, 0x0, 0x0, 0x0, 0x0, 0xFFFFFFF8, false, false, false⟩,
  ⟨"FCH_P_TEST_ERR", 0x800168, 1, 0x4, 0x0, 0x0, 0x0, 0x0, 0x0, 0x0, false, false, false⟩,
  ⟨"FCH_P_TEST_BITS", 0x80016C, 1, 0x4, 0x0, 0x0, 0x0, 0x0, 0x0, 0x0, false, false, false⟩,
  ⟨"FCH_P_SVC", 0x800170, 1, 0x4, 0x0, 0x0, 0x0, 0x0, 0x3, 0xFFFFFFFC, false, false, false⟩,
  ⟨"FCH_C_CTL", 0x800800, 1, 0x4, 0x10308, 0x0, 0x1FFFF, 0x0, 0x0, 0xFFFE0000, false, false, false⟩,
  ⟨"FCH_DIE_TMO", 0x800804, 1, 0x4, 0x14, 0x0, 0xFFFF, 0x0, 0x0, 0xFFFF0000, false, false, false⟩,
  ⟨"FCH_REFCLK_LO", 0x800808, 1, 0x4, 0xFFFFFFFF, 0x0, 0xFFFFFFFF, 0x0, 0x0, 0x0, false, true, false⟩,
  ⟨"FCH_REFCLK_HI", 0x80080C, 1, 0x4, 0xFFFFFFFF, 0x0, 0xFFFFFFFF, 0x0, 0x0, 0x0, false, true, false⟩,
  ⟨"FCH_C_UP", 0x800810, 1, 0x4, 0x0, 0x0, 0x0, 0x0, 0x0, 0xFFFFFC00, false, true, false⟩,
  ⟨"FCH_C_FAILED", 0x800814, 1, 0x4, 0x0, 0x0, 0x0, 0x0, 0x0, 0xFFFFFC00, false, true, false⟩,
  ⟨"FCH_C_HANDED", 0x800818, 1, 0x4, 0x0, 0x0, 0x0, 0x0, 0x0, 0xFFFFFC00, false, true, false⟩,
  ⟨"FCH_C_DIES", 0x80081C, 1, 0x4, 0x0, 0x0, 0x0, 0x0, 0x0, 0xFFFF0000, false, true, false⟩,
  ⟨"FCH_C_FAILMAP", 0x800840, 16, 0x4, 0x0, 0x0, 0x0, 0x0, 0x0, 0x0, false, true, false⟩]

/-- Registers of the FCH window. -/
def regsFCH : List RegDef := regsFCH0 ++ regsFCH1

/-- Registers of the ECC window, part 0. -/
def regsECC0 : List RegDef := [
  ⟨"ECC_DEC_STS", 0xA00100, 1, 0x4, 0x8C00200, 0x0, 0x0, 0x0, 0x0, 0xF0000000, false, true, false⟩,
  ⟨"ECC_RW_CTL", 0xA00104, 1, 0x4, 0x818203C, 0x0, 0xFFFFFFFF, 0x0, 0x0, 0x0, false, false, false⟩,
  ⟨"ECC_VFY_CTL", 0xA00108, 1, 0x4, 0x10032, 0x0, 0x1FFFF, 0x0, 0x0, 0xFFFE0000, false, false, false⟩,
  ⟨"ECC_LAD_CTL", 0xA0010C, 1, 0x4, 0x118, 0x0, 0x1FF, 0x0, 0x0, 0xFFFFFE00, false, false, false⟩,
  ⟨"ECC_DPAR_SETS", 0xA00110, 1, 0x4, 0x0, 0x0, 0x0, 0x0, 0x0, 0xFFFF0000, false, true, false⟩,
  ⟨"ECC_CW_HARD_LO", 0xA00120, 1, 0x4, 0x0, 0xFFFFFFFF, 0x0, 0x0, 0x0, 0x0, false, true, false⟩,
  ⟨"ECC_CW_HARD_HI", 0xA00124, 1, 0x4, 0x0, 0xFFFFFFFF, 0x0, 0x0, 0x0, 0x0, false, true, false⟩,
  ⟨"ECC_CW_L1", 0xA00128, 1, 0x4, 0x0, 0xFFFFFFFF, 0x0, 0x0, 0x0, 0x0, false, false, false⟩,
  ⟨"ECC_CW_L2", 0xA0012C, 1, 0x4, 0x0, 0xFFFFFFFF, 0x0, 0x0, 0x0, 0x0, false, false, false⟩,
  ⟨"ECC_CW_L3", 0xA00130, 1, 0x4, 0x0, 0xFFFFFFFF, 0x0, 0x0, 0x0, 0x0, false, false, false⟩,
  ⟨"ECC_CW_DPAR", 0xA00134, 1, 0x4, 0x0, 0xFFFFFFFF, 0x0, 0x0, 0x0, 0x0, false, false, false⟩,
  ⟨"ECC_CW_SHF", 0xA00138, 1, 0x4, 0x0, 0xFFFFFFFF, 0x0, 0x0, 0x0, 0x0, false, false, false⟩,
  ⟨"ECC_OVER_RWT", 0xA0013C, 1, 0x4, 0x0, 0xFFFFFFFF, 0x0, 0x0, 0x0, 0x0, false, false, false⟩,
  ⟨"ECC_VFY_FAIL", 0xA00140, 1, 0x4, 0x0, 0xFFFFFFFF, 0x0, 0x0, 0x0, 0x0, false, false, false⟩,
  ⟨"ECC_VFY_EARLY", 0xA00144, 1, 0x4, 0x0, 0xFFFFFFFF, 0x0, 0x0, 0x0, 0x0, false, false, false⟩]

/-- Registers of the ECC window, part 1. -/
def regsECC1 : List RegDef := [
  ⟨"ECC_MISPLACE", 0xA00148, 1, 0x4, 0x0, 0xFFFFFFFF, 0x0, 0x0, 0x0, 0x0, false, false, false⟩,
  ⟨"ECC_RL_CTL", 0xA01100, 1, 0x4, 0x40241, 0x0, 0xFFFFF1, 0x0, 0x0, 0xFF00000E, false, false, false⟩,
  ⟨"ECC_RL_CODE", 0xA01104, 1, 0x4, 0x0, 0x0, 0x0, 0x0, 0x0, 0xC0000000, false, false, true⟩,
  ⟨"ECC_RL_POL", 0xA01108, 1, 0x4, 0x0, 0x0, 0x0, 0x0, 0x0, 0xFFFFFFF0, false, false, true⟩,
  ⟨"ECC_RL_SEL", 0xA0110C, 1, 0x4, 0x0, 0x7FFFFFF, 0x0, 0x0, 0x0, 0xF8000000, false, false, false⟩,
  ⟨"ECC_RL_UPD", 0xA01110, 1, 0x4, 0x0, 0xFFFFFFFF, 0x0, 0x0, 0x0, 0x0, false, false, false⟩,
  ⟨"ECC_RL_SAT", 0xA01114, 1, 0x4, 0x0, 0xFFFFFFFF, 0x0, 0x0, 0x0, 0x0, false, false, false⟩,
  ⟨"ECC_RL_LOADS", 0xA01118, 1, 0x4, 0x0, 0xFFFFFFFF, 0x0, 0x0, 0x0, 0x0, false, false, false⟩,
  ⟨"ECC_RL_ENT", 0xA01200, 32, 0x4, 0x0, 0x0, 0x0, 0x0, 0x0, 0x0, false, true, false⟩,
  ⟨"ECC_SV_CTL", 0xA02100, 1, 0x4, 0x5A0701, 0x0, 0xFFFFF01, 0x0, 0x0, 0xF00000FE, false, false, false⟩,
  ⟨"ECC_SV_STS", 0xA02104, 1, 0x4, 0x0, 0x0, 0x0, 0x0, 0x0, 0xFFFFFFF8, false, true, false⟩,
  ⟨"ECC_SV_POS", 0xA02108, 1, 0x4, 0x0, 0x0, 0x0, 0x0, 0x0, 0xF8000000, false, true, false⟩,
  ⟨"ECC_SV_LAP", 0xA0210C, 1, 0x4, 0x0, 0x0, 0x0, 0x0, 0x0, 0xFFF00000, false, true, false⟩,
  ⟨"ECC_SV_LAPS", 0xA02110, 1, 0x4, 0x0, 0xFFFFFFFF, 0x0, 0x0, 0x0, 0x0, false, false, false⟩,
  ⟨"ECC_SV_WAKES", 0xA02114, 1, 0x4, 0x0, 0xFFFFFFFF, 0x0, 0x0, 0x0, 0x0, false, false, false⟩]

/-- Registers of the ECC window, part 2. -/
def regsECC2 : List RegDef := [
  ⟨"ECC_SV_REPAIR", 0xA02118, 1, 0x4, 0x0, 0xFFFFFFFF, 0x0, 0x0, 0x0, 0x0, false, false, false⟩,
  ⟨"ECC_DAY", 0xA02120, 1, 0x4, 0x0, 0x0, 0xFFFF, 0x0, 0x0, 0xFFFF0000, false, false, true⟩,
  ⟨"ECC_PE_RATED", 0xA02130, 1, 0x4, 0x0, 0x0, 0x0, 0x0, 0x0, 0x0, false, false, true⟩,
  ⟨"ECC_PE_MEAN", 0xA02134, 1, 0x4, 0x0, 0x0, 0x0, 0x0, 0x0, 0xFFFF0000, false, true, false⟩,
  ⟨"ECC_RFSH_30D", 0xA02138, 1, 0x4, 0x0, 0x0, 0x0, 0x0, 0x0, 0xFFF00000, false, true, false⟩,
  ⟨"ECC_QUAL_FAIL", 0xA0213C, 1, 0x4, 0x0, 0x0, 0x0, 0x0, 0x0, 0xFFFF0000, false, false, false⟩,
  ⟨"ECC_ARR_STS", 0xA03100, 1, 0x4, 0x1400, 0x0, 0x0, 0x0, 0x0, 0xE000E000, false, true, false⟩,
  ⟨"ECC_ARR_CE", 0xA03104, 1, 0x4, 0x0, 0xFFFFFFFF, 0x0, 0x0, 0x0, 0x0, false, false, false⟩,
  ⟨"ECC_ARR_UE", 0xA03108, 1, 0x4, 0x0, 0xFFFFFFFF, 0x0, 0x0, 0x0, 0x0, false, false, false⟩,
  ⟨"ECC_ARR_REMAP", 0xA0310C, 1, 0x4, 0x0, 0x0, 0x0, 0x0, 0x0, 0xFFFF0000, false, false, true⟩,
  ⟨"ECC_ARR_SEL", 0xA03110, 1, 0x4, 0x0, 0x1FFF, 0x0, 0x0, 0x0, 0xFFFFE000, false, false, false⟩,
  ⟨"ECC_ARR_INFO", 0xA03114, 1, 0x4, 0x0, 0x0, 0x0, 0x0, 0x0, 0xE0, false, true, false⟩,
  ⟨"ECC_HBM_CE", 0xA03120, 1, 0x4, 0x0, 0xFFFFFFFF, 0x0, 0x0, 0x0, 0x0, false, false, false⟩,
  ⟨"ECC_HBM_UE", 0xA03124, 1, 0x4, 0x0, 0xFFFFFFFF, 0x0, 0x0, 0x0, 0x0, false, false, false⟩,
  ⟨"ECC_HBM_POISON", 0xA03128, 1, 0x4, 0x0, 0x0, 0x0, 0x0, 0x0, 0xFF000000, false, false, false⟩]

/-- Registers of the ECC window, part 3. -/
def regsECC3 : List RegDef := [
  ⟨"ECC_WB_DROP", 0xA0312C, 1, 0x4, 0x0, 0xFFFFFFFF, 0x0, 0x0, 0x0, 0x0, false, false, false⟩,
  ⟨"ECC_HBM_ELOG_SEL", 0xA03130, 1, 0x4, 0x0, 0x3FF, 0x0, 0x0, 0x0, 0xFFFFFC00, false, false, false⟩,
  ⟨"ECC_HBM_ELOG0", 0xA03134, 1, 0x4, 0x0, 0x0, 0x0, 0x0, 0x0, 0x0, false, true, false⟩,
  ⟨"ECC_HBM_ELOG1", 0xA03138, 1, 0x4, 0x0, 0x0, 0x0, 0x0, 0x0, 0xFFFFF800, false, true, false⟩,
  ⟨"ECC_HBM_ELOG2", 0xA0313C, 1, 0x4, 0x0, 0x0, 0x0, 0x0, 0x0, 0x0, false, true, false⟩,
  ⟨"ECC_HBM_ELOG3", 0xA03140, 1, 0x4, 0x0, 0x0, 0x0, 0x0, 0x0, 0x0, false, true, false⟩,
  ⟨"ECC_HBM_ELOG_CNT", 0xA03144, 1, 0x4, 0x0, 0x0, 0x0, 0x0, 0x0, 0xFFFFF800, false, true, true⟩]

/-- Registers of the ECC window. -/
def regsECC : List RegDef := regsECC0 ++ regsECC1 ++ regsECC2 ++ regsECC3

/-- Registers of the SHF window, part 0. -/
def regsSHF0 : List RegDef := [
  ⟨"SHF_SEED", 0xB00100, 1, 0x4, 0x0, 0x0, 0x0, 0x0, 0x0, 0x0, false, false, true⟩,
  ⟨"SHF_STRIPE_CTL", 0xB00104, 1, 0x4, 0x7D0, 0x0, 0xFFFF, 0x0, 0x0, 0xFFFF0000, false, false, false⟩,
  ⟨"SHF_SEAL_VER", 0xB00108, 1, 0x4, 0x1, 0x0, 0x0, 0x0, 0x0, 0xFFFFFF00, false, false, false⟩,
  ⟨"SHF_BSEL", 0xB0010C, 1, 0x4, 0x0, 0x7FFFFF, 0x0, 0x0, 0x0, 0xFF800000, false, false, false⟩,
  ⟨"SHF_B_STS", 0xB00110, 1, 0x4, 0x0, 0x0, 0x0, 0x0, 0x0, 0xF000FFF0, false, true, false⟩,
  ⟨"SHF_DEG_CTL", 0xB00114, 1, 0x4, 0x4, 0x0, 0xF, 0x0, 0x0, 0xFFFFFFF0, false, false, false⟩,
  ⟨"SHF_DEG_READS", 0xB00120, 1, 0x4, 0x0, 0xFFFFFFFF, 0x0, 0x0, 0x0, 0x0, false, false, false⟩,
  ⟨"SHF_DEG_SUBST", 0xB00124, 1, 0x4, 0x0, 0xFFFFFFFF, 0x0, 0x0, 0x0, 0x0, false, false, false⟩,
  ⟨"SHF_POISON", 0xB00128, 1, 0x4, 0x0, 0xFFFFFFFF, 0x0, 0x0, 0x0, 0x0, false, false, false⟩,
  ⟨"SHF_UNRECOV", 0xB0012C, 1, 0x4, 0x0, 0xFFFFFFFF, 0x0, 0x0, 0x0, 0x0, false, false, false⟩,
  ⟨"SHF_SEAL_ERR", 0xB00130, 1, 0x4, 0x0, 0xFFFFFFFF, 0x0, 0x0, 0x0, 0x0, false, false, false⟩,
  ⟨"SHF_PAD", 0xB00134, 1, 0x4, 0x0, 0xFFFFFFFF, 0x0, 0x0, 0x0, 0x0, false, false, false⟩,
  ⟨"SHF_ELOG", 0xB00138, 1, 0x4, 0x0, 0x0, 0x0, 0x0, 0x0, 0xFFF00000, false, false, false⟩,
  ⟨"SHF_B_SET", 0xB00200, 19, 0x4, 0x0, 0x0, 0x0, 0x0, 0x0, 0xE0000000, false, true, false⟩,
  ⟨"SHF_RB_CTL", 0xB01100, 1, 0x4, 0x380401A, 0x0, 0x3FFFFFF, 0x0, 0x0, 0xFC000000, false, false, false⟩]

/-- Registers of the SHF window, part 1. -/
def regsSHF1 : List RegDef := [
  ⟨"SHF_RB_STS", 0xB01104, 1, 0x4, 0x0, 0x0, 0x0, 0x0, 0x0, 0xFFFFFFE0, false, true, false⟩,
  ⟨"SHF_RB_Q1", 0xB01108, 1, 0x4, 0x0, 0x0, 0x0, 0x0, 0x0, 0xFF800000, false, true, false⟩,
  ⟨"SHF_RB_Q2", 0xB0110C, 1, 0x4, 0x0, 0x0, 0x0, 0x0, 0x0, 0x0, false, true, false⟩,
  ⟨"SHF_RB_Q3", 0xB01110, 1, 0x4, 0x0, 0x0, 0x0, 0x0, 0x0, 0x0, false, true, false⟩,
  ⟨"SHF_RB_CUR", 0xB01114, 1, 0x4, 0x0, 0x0, 0x0, 0x0, 0x0, 0xFF800000, false, true, false⟩,
  ⟨"SHF_RB_CHUNKS_LO", 0xB01118, 1, 0x4, 0x0, 0xFFFFFFFF, 0x0, 0x0, 0x0, 0x0, false, true, false⟩,
  ⟨"SHF_RB_CHUNKS_HI", 0xB0111C, 1, 0x4, 0x0, 0xFFFFFFFF, 0x0, 0x0, 0x0, 0x0, false, true, false⟩,
  ⟨"SHF_RB_SPACE", 0xB01120, 1, 0x4, 0x0, 0x0, 0x0, 0x0, 0x0, 0xFF800000, false, true, true⟩,
  ⟨"SHF_RB_SPACE_FMT", 0xB01124, 1, 0x4, 0x0, 0x0, 0x0, 0x0, 0x0, 0xFF800000, false, false, true⟩,
  ⟨"SHF_BM_PORT", 0xB01140, 3, 0x4, 0x0, 0x0, 0x0, 0x0, 0x0, 0xFFFF7E00, false, false, true⟩,
  ⟨"SHF_BM_SEQ_LO", 0xB01150, 1, 0x4, 0x0, 0x0, 0x0, 0x0, 0x0, 0x0, false, true, true⟩,
  ⟨"SHF_BM_SEQ_HI", 0xB01154, 1, 0x4, 0x0, 0x0, 0x0, 0x0, 0x0, 0x0, false, true, true⟩,
  ⟨"SHF_BM_DIRTY", 0xB01158, 1, 0x4, 0x0, 0x0, 0x0, 0x0, 0x0, 0xF8000000, false, true, false⟩,
  ⟨"SHF_BM_COPIES", 0xB0115C, 1, 0x4, 0x0, 0x0, 0x0, 0x0, 0x0, 0xFFFFFFE0, false, true, false⟩,
  ⟨"SHF_RESYNC", 0xB01160, 1, 0x4, 0x0, 0x0, 0x0, 0x0, 0x0, 0x0, false, false, false⟩]

/-- Registers of the SHF window. -/
def regsSHF : List RegDef := regsSHF0 ++ regsSHF1

/-- Registers of the TWN window, part 0. -/
def regsTWN0 : List RegDef := [
  ⟨"TWN_LINK_CTL", 0xC00100, 1, 0x4, 0x4001, 0x0, 0xFF01, 0x0, 0x0, 0xFFFF00FE, false, false, false⟩,
  ⟨"TWN_LINK_STS", 0xC00104, 1, 0x4, 0x0, 0x0, 0x0, 0x0, 0x0, 0xFFFFFF00, false, true, false⟩,
  ⟨"TWN_LANE_MAP", 0xC00108, 1, 0x4, 0x0, 0x0, 0x0, 0x0, 0x0, 0xFFFC0000, false, true, false⟩,
  ⟨"TWN_LANE_FAIL", 0xC0010C, 1, 0x4, 0x0, 0x0, 0x0, 0x0, 0x0, 0xFFFC0000, false, true, true⟩,
  ⟨"TWN_KEY_STS", 0xC00110, 1, 0x4, 0x0, 0x0, 0x0, 0x0, 0x0, 0x0, false, false, false⟩,
  ⟨"TWN_TX_INV", 0xC00114, 1, 0x4, 0x0, 0x0, 0x0, 0x0, 0x0, 0x0, false, false, false⟩,
  ⟨"TWN_REKEYS", 0xC00118, 1, 0x4, 0x0, 0xFFFFFFFF, 0x0, 0x0, 0x0, 0x0, false, false, false⟩,
  ⟨"TWN_AUTH_FAIL", 0xC0011C, 1, 0x4, 0x0, 0xFFFFFFFF, 0x0, 0x0, 0x0, 0x0, false, false, false⟩,
  ⟨"TWN_RETRAINS", 0xC00120, 1, 0x4, 0x0, 0xFFFFFFFF, 0x0, 0x0, 0x0, 0x0, false, false, false⟩,
  ⟨"TWN_PAIRKEY", 0xC00180, 8, 0x4, 0x0, 0x0, 0x0, 0x0, 0xFFFFFFFF, 0x0, false, false, false⟩,
  ⟨"TWN_PAIRKEY_STS", 0xC001A0, 1, 0x4, 0x0, 0x0, 0x0, 0x0, 0x0, 0xFFFC, false, false, false⟩,
  ⟨"TWN_CTL", 0xC01100, 1, 0x4, 0xA0001, 0x0, 0xFFFF0001, 0x0, 0x2, 0xFFFC, true, false, false⟩,
  ⟨"TWN_STS", 0xC01104, 1, 0x4, 0x0, 0x0, 0x0, 0x0, 0x0, 0xFF80, false, true, false⟩,
  ⟨"TWN_HB_CTL", 0xC01108, 1, 0x4, 0xC80400, 0x0, 0xFFFFFFFF, 0x0, 0x0, 0x0, false, false, false⟩,
  ⟨"TWN_PEER_SERIAL_LO", 0xC0110C, 1, 0x4, 0x0, 0x0, 0x0, 0x0, 0x0, 0x0, false, true, false⟩]

/-- Registers of the TWN window, part 1. -/
def regsTWN1 : List RegDef := [
  ⟨"TWN_PEER_SERIAL_HI", 0xC01110, 1, 0x4, 0x0, 0x0, 0x0, 0x0, 0x0, 0x0, false, true, false⟩,
  ⟨"TWN_PEER_VER", 0xC01114, 1, 0x4, 0x0, 0x0, 0x0, 0x0, 0x0, 0x0, false, false, false⟩,
  ⟨"TWN_MIR_PEND", 0xC01118, 1, 0x4, 0x0, 0x0, 0x0, 0x0, 0x0, 0xFFFF0000, false, true, false⟩,
  ⟨"TWN_PAGES", 0xC0111C, 1, 0x4, 0x0, 0x0, 0x0, 0x0, 0x0, 0xFFFC0000, false, true, false⟩,
  ⟨"TWN_LOST_TICK_LO", 0xC01120, 1, 0x4, 0x0, 0x0, 0x0, 0x0, 0x0, 0x0, false, true, false⟩,
  ⟨"TWN_LOST_TICK_HI", 0xC01124, 1, 0x4, 0x0, 0x0, 0x0, 0x0, 0x0, 0x0, false, true, false⟩,
  ⟨"TWN_LOST_EPOCH", 0xC01128, 1, 0x4, 0x0, 0x0, 0x0, 0x0, 0x0, 0xFFFF0000, false, true, false⟩,
  ⟨"TWN_FAILOVERS", 0xC0112C, 1, 0x4, 0x0, 0xFFFFFFFF, 0x0, 0x0, 0x0, 0x0, false, false, false⟩,
  ⟨"TWN_MISMATCH", 0xC01130, 1, 0x4, 0x0, 0x0, 0x0, 0x0, 0x0, 0xFFFFFFF0, false, false, false⟩,
  ⟨"TWN_SL_MOVE", 0xC01140, 1, 0x4, 0x0, 0x0, 0x0, 0x0, 0xFFFF03FF, 0xFC00, false, false, false⟩,
  ⟨"TWN_MOVED", 0xC01200, 32, 0x4, 0x0, 0x0, 0x0, 0x0, 0x0, 0x0, false, false, false⟩]

/-- Registers of the TWN window. -/
def regsTWN : List RegDef := regsTWN0 ++ regsTWN1

/-- Registers of the PWR window, part 0. -/
def regsPWR0 : List RegDef := [
  ⟨"PWR_MODE_CTL", 0xD00100, 1, 0x4, 0x1008, 0x0, 0xFF0F, 0x0, 0xFFFF0000, 0xF0, true, false, false⟩,
  ⟨"PWR_MODE_STS", 0xD00104, 1, 0x4, 0x0, 0x0, 0x0, 0x0, 0x0, 0xFFFF0E08, false, false, false⟩,
  ⟨"PWR_WAKE_EN", 0xD00108, 1, 0x4, 0xFF, 0xFF, 0x0, 0x0, 0x0, 0xFFFFFF00, false, false, false⟩,
  ⟨"PWR_WAKE_STAT", 0xD0010C, 1, 0x4, 0x0, 0x0, 0x0, 0xFFFFFF, 0x0, 0xFF000000, false, false, false⟩,
  ⟨"PWR_LAST_WAKE", 0xD00110, 1, 0x4, 0x0, 0x0, 0x0, 0x0, 0x0, 0xFFFFFF80, false, true, true⟩,
  ⟨"PWR_LAST_WAKE_TICK_LO", 0xD00114, 1, 0x4, 0x0, 0x0, 0x0, 0x0, 0x0, 0x0, false, true, true⟩,
  ⟨"PWR_LAST_WAKE_TICK_HI", 0xD00118, 1, 0x4, 0x0, 0x0, 0x0, 0x0, 0x0, 0x0, false, true, true⟩,
  ⟨"PWR_LAST_WAKE_EPOCH", 0xD0011C, 1, 0x4, 0x0, 0x0, 0x0, 0x0, 0x0, 0xFFFE0000, false, true, true⟩,
  ⟨"PWR_ALARM_LO", 0xD00120, 1, 0x4, 0x0, 0xFFFFFFFF, 0x0, 0x0, 0x0, 0x0, false, true, false⟩,
  ⟨"PWR_ALARM_HI", 0xD00124, 1, 0x4, 0x0, 0xFFFF, 0x0, 0x0, 0x0, 0xFFFF0000, false, true, false⟩,
  ⟨"PWR_AO_LO", 0xD00128, 1, 0x4, 0x0, 0x0, 0x0, 0x0, 0x0, 0x0, false, true, true⟩,
  ⟨"PWR_AO_HI", 0xD0012C, 1, 0x4, 0x0, 0x0, 0x0, 0x0, 0x0, 0xFFFF0000, false, true, true⟩,
  ⟨"PWR_THERM", 0xD00130, 1, 0x4, 0x64, 0x0, 0xFF, 0x0, 0x0, 0xFFFFFF00, false, false, false⟩,
  ⟨"PWR_WAKES", 0xD00134, 1, 0x4, 0x0, 0xFFFFFFFF, 0x0, 0x0, 0x0, 0x0, false, false, false⟩,
  ⟨"PWR_DSEL", 0xD01100, 1, 0x4, 0x0, 0x3F, 0x0, 0x0, 0x0, 0xFFFFFFC0, false, false, false⟩]

/-- Registers of the PWR window, part 1. -/
def regsPWR1 : List RegDef := [
  ⟨"PWR_DOM_POL", 0xD01104, 1, 0x4, 0x25800A2, 0x0, 0xFFFFFFF3, 0x0, 0x0, 0xC, false, false, false⟩,
  ⟨"PWR_DOM_OP", 0xD01108, 1, 0x4, 0x0, 0x0, 0x0, 0x0, 0xFFFF0003, 0xFFFC, false, false, false⟩,
  ⟨"PWR_DOM_INFO", 0xD0110C, 1, 0x4, 0x0, 0x0, 0x0, 0x0, 0x0, 0xFFFFE080, false, true, false⟩,
  ⟨"PWR_DOM_WAKES", 0xD01110, 1, 0x4, 0x0, 0xFFFFFFFF, 0x0, 0x0, 0x0, 0x0, false, false, false⟩,
  ⟨"PWR_DOM_WAKE_MAX", 0xD01114, 1, 0x4, 0x0, 0xFFF, 0x0, 0x0, 0x0, 0xFFFFF000, false, false, false⟩,
  ⟨"PWR_DOM_STS", 0xD01120, 4, 0x4, 0x0, 0x0, 0x0, 0x0, 0x0, 0x0, false, true, false⟩,
  ⟨"PWR_DUMPSET_LO", 0xD01130, 1, 0x4, 0x0, 0x0, 0x0, 0x0, 0x0, 0x0, false, true, true⟩,
  ⟨"PWR_DUMPSET_HI", 0xD01134, 1, 0x4, 0x0, 0x0, 0x0, 0x0, 0x0, 0x0, false, true, true⟩,
  ⟨"PWR_FAIL_CTL", 0xD02100, 1, 0x4, 0x32, 0x0, 0xFF, 0x0, 0x0, 0xFFFFFF00, false, false, false⟩,
  ⟨"PWR_FAIL_STS", 0xD02104, 1, 0x4, 0x0, 0x0, 0x0, 0x0, 0x0, 0xFFFFFFE0, false, true, false⟩,
  ⟨"PWR_DUMP_SEQ", 0xD02108, 1, 0x4, 0x0, 0x0, 0x0, 0x0, 0x0, 0x0, false, true, true⟩,
  ⟨"PWR_DUMP_MIB", 0xD0210C, 1, 0x4, 0x0, 0x0, 0x0, 0x0, 0x0, 0xFFFF0000, false, true, true⟩,
  ⟨"PWR_DUMP_US", 0xD02110, 1, 0x4, 0x0, 0x0, 0x0, 0x0, 0x0, 0xFFFF0000, false, true, true⟩,
  ⟨"PWR_TRIVET_STS", 0xD02120, 1, 0x4, 0x0, 0x0, 0x0, 0x0, 0x0, 0xFFFF0000, false, false, false⟩,
  ⟨"PWR_TRIVET_FAILS", 0xD02124, 1, 0x4, 0x0, 0xFFFFFFFF, 0x0, 0x0, 0x0, 0x0, false, false, false⟩]

/-- Registers of the PWR window, part 2. -/
def regsPWR2 : List RegDef := [
  ⟨"PWR_SEQ", 0xD02140, 1, 0x4, 0x0, 0x0, 0x0, 0x0, 0x0, 0xFF000000, false, false, false⟩,
  ⟨"PWR_SEQ", 0xD02144, 1, 0x4, 0x1, 0x0, 0x0, 0x0, 0x0, 0xFF000000, false, false, false⟩,
  ⟨"PWR_SEQ", 0xD02148, 1, 0x4, 0x2710, 0x0, 0x0, 0x0, 0x0, 0xFF000000, false, false, false⟩,
  ⟨"PWR_SEQ", 0xD0214C, 1, 0x4, 0x7D0, 0x0, 0x0, 0x0, 0x0, 0xFF000000, false, false, false⟩,
  ⟨"PWR_SEQ", 0xD02150, 1, 0x4, 0xC8, 0x0, 0x0, 0x0, 0x0, 0xFF000000, false, false, false⟩,
  ⟨"PWR_SEQ", 0xD02154, 1, 0x4, 0x1, 0x0, 0x0, 0x0, 0x0, 0xFF000000, false, false, false⟩,
  ⟨"PWR_SEQ", 0xD02158, 1, 0x4, 0x1F, 0x0, 0x0, 0x0, 0x0, 0xFF000000, false, false, false⟩,
  ⟨"PWR_SEQ", 0xD0215C, 1, 0x4, 0x7D0, 0x0, 0x0, 0x0, 0x0, 0xFF000000, false, false, false⟩,
  ⟨"PWR_SEQ", 0xD02160, 1, 0x4, 0x249F0, 0x0, 0x0, 0x0, 0x0, 0xFF000000, false, false, false⟩,
  ⟨"PWR_SEQ", 0xD02164, 1, 0x4, 0x3D090, 0x0, 0x0, 0x0, 0x0, 0xFF000000, false, false, false⟩,
  ⟨"PWR_SEQ", 0xD02168, 1, 0x4, 0x1B7740, 0x0, 0x0, 0x0, 0x0, 0xFF000000, false, false, false⟩,
  ⟨"PWR_BIAS_NOW", 0xD02180, 1, 0x4, 0x0, 0x0, 0x0, 0x0, 0x0, 0xF8000000, false, false, true⟩]

/-- Registers of the PWR window. -/
def regsPWR : List RegDef := regsPWR0 ++ regsPWR1 ++ regsPWR2

/-- Registers of the NVM window, part 0. -/
def regsNVM0 : List RegDef := [
  ⟨"NVM_WIN", 0xEFF100, 1, 0x4, 0x0, 0x3F, 0x0, 0x0, 0x0, 0xFFFFFFC0, false, false, false⟩,
  ⟨"NVM_STS", 0xEFF104, 1, 0x4, 0x1, 0x0, 0x0, 0x0, 0x0, 0xFE00FF80, false, true, false⟩,
  ⟨"NVM_HOST_STAT", 0xEFF108, 1, 0x4, 0x1, 0x0, 0x0, 0x0, 0x0, 0xFFFFFF00, false, true, false⟩,
  ⟨"NVM_RD_STS", 0xEFF10C, 1, 0x4, 0x0, 0x0, 0x0, 0x0, 0x0, 0xFE000080, false, false, false⟩,
  ⟨"NVM_BCH_CTL", 0xEFF110, 1, 0x4, 0x14, 0x0, 0xFF, 0x0, 0x0, 0xFFFFFF00, false, false, false⟩,
  ⟨"NVM_CORR_CNT", 0xEFF114, 1, 0x4, 0x0, 0xFFFFFFFF, 0x0, 0x0, 0x0, 0x0, false, false, false⟩,
  ⟨"NVM_THR_CNT", 0xEFF118, 1, 0x4, 0x0, 0xFFFFFFFF, 0x0, 0x0, 0x0, 0x0, false, false, false⟩,
  ⟨"NVM_UNC_CNT", 0xEFF11C, 1, 0x4, 0x0, 0xFFFFFFFF, 0x0, 0x0, 0x0, 0x0, false, false, false⟩,
  ⟨"NVM_SEC_SEL", 0xEFF120, 1, 0x4, 0x0, 0x1FF, 0x0, 0x0, 0x0, 0xFFFFFE00, false, false, false⟩,
  ⟨"NVM_SEC_STS", 0xEFF124, 1, 0x4, 0x0, 0x0, 0x0, 0x0, 0x0, 0xE000, false, true, true⟩,
  ⟨"NVM_PULSES", 0xEFF130, 1, 0x4, 0x0, 0x0, 0x0, 0x0, 0x0, 0xFFFFFF00, false, false, false⟩,
  ⟨"NVM_BOOT_STS", 0xEFF140, 1, 0x4, 0x0, 0x0, 0x0, 0x0, 0x0, 0xFFFFF8E0, false, true, true⟩,
  ⟨"NVM_BOOT_CTL", 0xEFF144, 1, 0x4, 0x0, 0x0, 0x0, 0x0, 0xFFFF0003, 0xFFFC, true, true, false⟩,
  ⟨"NVM_IMG_VER", 0xEFF148, 1, 0x4, 0x0, 0x0, 0x0, 0x0, 0x0, 0x0, false, true, true⟩,
  ⟨"NVM_SVN_MIN", 0xEFF14C, 1, 0x4, 0x0, 0x0, 0x0, 0x0, 0x0, 0x0, false, true, true⟩]

/-- Registers of the NVM window. -/
def regsNVM : List RegDef := regsNVM0

/-- Registers of the SCP window, part 0. -/
def regsSCP0 : List RegDef := [
  ⟨"SCP_INC_STS", 0xF00100, 1, 0x4, 0x0, 0x0, 0x0, 0x0, 0x0, 0xC000, false, true, true⟩,
  ⟨"SCP_INC_CLR", 0xF00104, 1, 0x4, 0x0, 0x0, 0x0, 0x0, 0xFFFFFFFF, 0x0, false, false, false⟩,
  ⟨"SCP_INC_SEL", 0xF00108, 1, 0x4, 0x0, 0xFFF, 0x0, 0x0, 0x0, 0xFFFFF000, false, false, false⟩,
  ⟨"SCP_INC_ENT", 0xF00200, 16, 0x4, 0x0, 0x0, 0x0, 0x0, 0x0, 0x0, false, true, false⟩,
  ⟨"SCP_CAP_CTL", 0xF57100, 1, 0x4, 0x1002, 0x0, 0xFFFFFF1F, 0x0, 0x0, 0xE0, false, false, false⟩,
  ⟨"SCP_CAP_TRIG", 0xF57104, 1, 0x4, 0x0, 0x0, 0x1FFFFFF, 0x0, 0x0, 0xFE000000, false, false, false⟩,
  ⟨"SCP_CAP_CKPT", 0xF57108, 1, 0x4, 0x1DCE, 0x0, 0xFFFF, 0x0, 0x0, 0xFFFF0000, false, false, false⟩,
  ⟨"SCP_CAP_STS", 0xF5710C, 1, 0x4, 0x0, 0x0, 0x0, 0x0, 0x0, 0xFFFFFFC0, false, true, false⟩,
  ⟨"SCP_CAP_SEG_LO", 0xF57110, 1, 0x4, 0x0, 0x0, 0x0, 0x0, 0x0, 0x0, false, true, true⟩,
  ⟨"SCP_CAP_SEG_HI", 0xF57114, 1, 0x4, 0x0, 0x0, 0x0, 0x0, 0x0, 0x0, false, true, true⟩,
  ⟨"SCP_CAP_OLDEST_LO", 0xF57118, 1, 0x4, 0x0, 0x0, 0x0, 0x0, 0x0, 0x0, false, true, false⟩,
  ⟨"SCP_CAP_OLDEST_HI", 0xF5711C, 1, 0x4, 0x0, 0x0, 0x0, 0x0, 0x0, 0x0, false, true, false⟩,
  ⟨"SCP_CAP_REC_LO", 0xF57120, 1, 0x4, 0x0, 0x0, 0x0, 0x0, 0x0, 0x0, false, true, false⟩,
  ⟨"SCP_CAP_REC_HI", 0xF57124, 1, 0x4, 0x0, 0x0, 0x0, 0x0, 0x0, 0x0, false, true, false⟩,
  ⟨"SCP_CAP_STAGE", 0xF57128, 1, 0x4, 0x0, 0x0, 0x0, 0x0, 0x0, 0xFF800000, false, true, false⟩]

/-- Registers of the SCP window, part 1. -/
def regsSCP1 : List RegDef := [
  ⟨"SCP_CAPKEY", 0xF57140, 8, 0x4, 0x0, 0x0, 0x0, 0x0, 0xFFFFFFFF, 0x0, false, false, false⟩,
  ⟨"SCP_CAPKEY_STS", 0xF57160, 1, 0x4, 0x0, 0x0, 0x0, 0x0, 0x0, 0xFFFE, false, false, false⟩,
  ⟨"SCP_XP_CTL", 0xF57180, 1, 0x4, 0x0, 0x0, 0x7, 0x0, 0x0, 0xFFFFFFF8, false, false, false⟩,
  ⟨"SCP_XP_RING_LO", 0xF57184, 1, 0x4, 0x0, 0x0, 0xFFF00000, 0x0, 0x0, 0xFFFFF, false, true, false⟩,
  ⟨"SCP_XP_RING_HI", 0xF57188, 1, 0x4, 0x0, 0x0, 0xFFFFFFFF, 0x0, 0x0, 0x0, false, true, false⟩,
  ⟨"SCP_XP_SLOTS", 0xF5718C, 1, 0x4, 0x0, 0x0, 0xFFFF, 0x0, 0x0, 0xFFFF0000, false, false, false⟩,
  ⟨"SCP_XP_FIRST_LO", 0xF57190, 1, 0x4, 0x0, 0x0, 0xFFFFFFFF, 0x0, 0x0, 0x0, false, true, false⟩,
  ⟨"SCP_XP_FIRST_HI", 0xF57194, 1, 0x4, 0x0, 0x0, 0xFFFFFFFF, 0x0, 0x0, 0x0, false, true, false⟩,
  ⟨"SCP_XP_NSEG", 0xF57198, 1, 0x4, 0x0, 0x0, 0x1FFFF, 0x0, 0x0, 0xFFFE0000, false, false, false⟩,
  ⟨"SCP_XP_PROD", 0xF5719C, 1, 0x4, 0x0, 0x0, 0x0, 0x0, 0x0, 0x0, false, true, false⟩,
  ⟨"SCP_XP_CONS", 0xF571A0, 1, 0x4, 0x0, 0xFFFFFFFF, 0x0, 0x0, 0x0, 0x0, false, true, false⟩,
  ⟨"SCP_XP_STS", 0xF571A4, 1, 0x4, 0x0, 0x0, 0x0, 0x0, 0x0, 0xFFFFFFF0, false, true, false⟩,
  ⟨"SCP_RP_CTL", 0xF571C0, 1, 0x4, 0x0, 0x0, 0x1, 0x0, 0x2, 0xFFFFFFFC, true, false, false⟩,
  ⟨"SCP_RP_RING_LO", 0xF571C4, 1, 0x4, 0x0, 0x0, 0xFFF00000, 0x0, 0x0, 0xFFFFF, false, true, false⟩,
  ⟨"SCP_RP_RING_HI", 0xF571C8, 1, 0x4, 0x0, 0x0, 0xFFFFFFFF, 0x0, 0x0, 0x0, false, true, false⟩]

/-- Registers of the SCP window, part 2. -/
def regsSCP2 : List RegDef := [
  ⟨"SCP_RP_SLOTS", 0xF571CC, 1, 0x4, 0x0, 0x0, 0xFFFF, 0x0, 0x0, 0xFFFF0000, false, false, false⟩,
  ⟨"SCP_RP_PROD", 0xF571D0, 1, 0x4, 0x0, 0xFFFFFFFF, 0x0, 0x0, 0x0, 0x0, false, false, false⟩,
  ⟨"SCP_RP_CONS", 0xF571D4, 1, 0x4, 0x0, 0x0, 0x0, 0x0, 0x0, 0x0, false, true, false⟩,
  ⟨"SCP_RP_STOP_LO", 0xF571D8, 1, 0x4, 0x0, 0xFFFFFFFF, 0x0, 0x0, 0x0, 0x0, false, true, false⟩,
  ⟨"SCP_RP_STOP_HI", 0xF571DC, 1, 0x4, 0x0, 0xFFFFFFFF, 0x0, 0x0, 0x0, 0x0, false, true, false⟩,
  ⟨"SCP_RP_STS", 0xF571E0, 1, 0x4, 0x0, 0x0, 0x0, 0x0, 0x0, 0xFFFFFFF0, false, true, false⟩,
  ⟨"SCP_RP_DIV_LO", 0xF571E4, 1, 0x4, 0x0, 0x0, 0x0, 0x0, 0x0, 0x0, false, true, false⟩,
  ⟨"SCP_RP_DIV_HI", 0xF571E8, 1, 0x4, 0x0, 0x0, 0x0, 0x0, 0x0, 0x0, false, true, false⟩]

/-- Registers of the SCP window. -/
def regsSCP : List RegDef := regsSCP0 ++ regsSCP1 ++ regsSCP2

/-- Registers of the TST window, part 0. -/
def regsTST0 : List RegDef := [
  ⟨"TST_BRG_STS", 0x1000100, 1, 0x4, 0x0, 0x0, 0x0, 0x0, 0x0, 0xFFFFFC80, false, true, false⟩,
  ⟨"TST_BRG_CAUSE", 0x1000104, 1, 0x4, 0x0, 0x0, 0x0, 0x0, 0x0, 0xFFFFFFC0, false, true, true⟩,
  ⟨"TST_STAGE_MS", 0x1000110, 10, 0x4, 0x0, 0x0, 0x0, 0x0, 0x0, 0xFF000000, false, true, false⟩,
  ⟨"TST_REL_MS", 0x1000140, 1, 0x4, 0x0, 0x0, 0x0, 0x0, 0x0, 0xFF000000, false, true, false⟩,
  ⟨"TST_SEC_STS", 0x1000150, 1, 0x4, 0x0, 0x0, 0x0, 0x0, 0x0, 0xFFFFFFE0, false, false, false⟩,
  ⟨"TST_BIST_STS", 0x1000160, 1, 0x4, 0x0, 0x0, 0x0, 0x0, 0x0, 0xF8000000, false, true, false⟩,
  ⟨"TST_HOSTLANE", 0x1000164, 1, 0x4, 0x0, 0x0, 0x0, 0x0, 0x0, 0x0, false, true, false⟩,
  ⟨"TST_PIN_SEL", 0x1000168, 1, 0x4, 0x0, 0xFFF, 0x0, 0x0, 0x0, 0xFFFFF000, false, false, false⟩,
  ⟨"TST_PIN_RES", 0x100016C, 1, 0x4, 0x0, 0x0, 0x0, 0x0, 0x0, 0x0, false, true, false⟩,
  ⟨"TST_FPORT_FAIL", 0x1000180, 16, 0x4, 0x0, 0x0, 0x0, 0x0, 0x0, 0x0, false, true, false⟩,
  ⟨"TST_CHK_STS", 0x10001C0, 1, 0x4, 0x0, 0x0, 0x0, 0x0, 0x0, 0x0, false, true, false⟩,
  ⟨"TST_CHK_ARR", 0x10001C4, 1, 0x4, 0x0, 0x0, 0x0, 0x0, 0x0, 0xFFFFE000, false, true, false⟩,
  ⟨"TST_TAP_STS", 0x10001D0, 1, 0x4, 0x0, 0x0, 0x0, 0x0, 0x0, 0xFFFFFE00, false, false, false⟩,
  ⟨"TST_LOST_SLOTS", 0x10001E0, 1, 0x4, 0x0, 0x0, 0x0, 0x0, 0x0, 0xFFE00000, false, false, false⟩]

/-- Registers of the TST window. -/
def regsTST : List RegDef := regsTST0

/-- The bank view of Table SCP-7, offsets from the bank's base. -/
def regsSB : List RegDef := [
  ⟨"SB_SEQ", 0x0, 1, 4, 0, 0, 0, 0, 0, 0, false, false, false⟩,
  ⟨"SB_CFG", 0x4, 1, 4, 0, 0, 0x1FFF03, 0, 0, 0xFFE000FC, false, false, false⟩,
  ⟨"SB_FILT", 0x8, 1, 4, 0, 0, 0x1FFFFF, 0, 0, 0xFFE00000, false, false, false⟩,
  ⟨"SB_WIN", 0xC, 1, 4, 0x1DCE, 0, 0xFFFF, 0, 0, 0xFFFF0000, false, false, false⟩,
  ⟨"SB_STS", 0x10, 1, 4, 0, 0, 0, 0, 0, 0xFFFC, false, false, false⟩,
  ⟨"SB_CUR_START", 0x18, 2, 4, 0, 0, 0, 0, 0, 0, false, false, false⟩,
  ⟨"SB_CUR", 0x20, 14, 4, 0, 0, 0, 0, 0, 0, false, false, false⟩,
  ⟨"SB_LAST", 0x58, 16, 4, 0, 0, 0, 0, 0, 0, false, false, false⟩,
  ⟨"SB_CUR_BIN", 0x100, 128, 4, 0, 0, 0, 0, 0, 0, false, false, false⟩,
  ⟨"SB_LAST_BIN", 0x300, 128, 4, 0, 0, 0, 0, 0, 0, false, false, false⟩]

/-- The registers of BAR0 window `w` of Table REG-2 (the FCH window's second mebibyte has index 9 and
its rows are those of port page 0). -/
def windowRegs (w : Nat) : List RegDef :=
  match w with

  | 0 => regsGLB
  | 1 => regsHIF
  | 2 => regsCQE
  | 3 => regsVSL
  | 4 => regsCRY
  | 5 => regsMAP
  | 6 => regsSTK
  | 7 => regsDLR
  | 8 => regsFCH
  | 10 => regsECC
  | 11 => regsSHF
  | 12 => regsTWN
  | 13 => regsPWR
  | 14 => regsNVM
  | 15 => regsSCP
  | 16 => regsTST
  | 9 => regsFCH
  | _ => []

end Sys2Proof.Machine

namespace Sys2Proof.Machine.Reg

/-- Table REG-6. -/
abbrev GLB_DEV_ID : Nat := 0x100
/-- Table REG-6. -/
abbrev GLB_STEP : Nat := 0x104
/-- Table REG-6. -/
abbrev GLB_SERIAL_LO : Nat := 0x108
/-- Table REG-6. -/
abbrev GLB_SERIAL_HI : Nat := 0x10C
/-- Table REG-6. -/
abbrev GLB_STRAP : Nat := 0x110
/-- Table REG-6. -/
abbrev GLB_DEV_STS : Nat := 0x120
/-- Table REG-6. -/
abbrev GLB_INT_SUM : Nat := 0x124
/-- Table REG-6. -/
abbrev GLB_TIME_LO : Nat := 0x140
/-- Table REG-6. -/
abbrev GLB_TIME_HI : Nat := 0x144
/-- Table REG-6. -/
abbrev GLB_TIME_EPOCH : Nat := 0x148
/-- Table REG-6. -/
abbrev GLB_TIME_UNC : Nat := 0x14C
/-- Table REG-6. -/
abbrev GLB_RST_CTL : Nat := 0x180
/-- Table REG-6. -/
abbrev GLB_RST_STS : Nat := 0x184
/-- Table HIF-5. -/
abbrev HIF_PORT_CFG : Nat := 0x100100
/-- Table HIF-5. -/
abbrev HIF_HEAD_CTL : Nat := 0x100104
/-- Table HIF-5. -/
abbrev HIF_LINK_STS (n : Nat) : Nat := 0x100110 + 0x4 * n
/-- Table HIF-5. -/
abbrev HIF_DMA_TMO : Nat := 0x100120
/-- Table HIF-5. -/
abbrev HIF_HEAD_WAIT : Nat := 0x100124
/-- Table HIF-5. -/
abbrev HIF_PTM_CTL : Nat := 0x100140
/-- Table HIF-5. -/
abbrev HIF_PTM_STS : Nat := 0x100144
/-- Table HIF-5. -/
abbrev HIF_PTM_OFS : Nat := 0x100148
/-- Table HIF-5. -/
abbrev HIF_PTM_PDELAY : Nat := 0x10014C
/-- Table HIF-5. -/
abbrev HIF_GPF_STS : Nat := 0x100160
/-- Table HIF-5. -/
abbrev HIF_DIRTY_SHUT : Nat := 0x100168
/-- Table HIF-5. -/
abbrev HIF_I3C_CTL : Nat := 0x100180
/-- Table HIF-5. -/
abbrev HIF_I3C_STS : Nat := 0x100184
/-- Table HIF-6. -/
abbrev HIF_PWIN_CTL : Nat := 0x101100
/-- Table HIF-6. -/
abbrev HIF_PWIN_STS : Nat := 0x101104
/-- Table HIF-6. -/
abbrev HIF_PWIN_DIRTY : Nat := 0x101108
/-- Table HIF-6. -/
abbrev SEG_CTL (n : Nat) : Nat := 0x101200 + 0x10 * n
/-- Table HIF-6. -/
abbrev SEG_LBA_LO (n : Nat) : Nat := 0x101204 + 0x10 * n
/-- Table HIF-6. -/
abbrev SEG_LBA_HI (n : Nat) : Nat := 0x101208 + 0x10 * n
/-- Table HIF-6. -/
abbrev SEG_STS (n : Nat) : Nat := 0x10120C + 0x10 * n
/-- Table HIF-7. -/
abbrev HIF_SLICE_HEAD (n : Nat) : Nat := 0x102100 + 0x4 * n
/-- Table CQE-8. -/
abbrev CQE_QSEL : Nat := 0x200100
/-- Table CQE-8. -/
abbrev CQE_Q_CTL : Nat := 0x200104
/-- Table CQE-8. -/
abbrev CQE_Q_SQB_LO : Nat := 0x200108
/-- Table CQE-8. -/
abbrev CQE_Q_SQB_HI : Nat := 0x20010C
/-- Table CQE-8. -/
abbrev CQE_Q_CQB_LO : Nat := 0x200110
/-- Table CQE-8. -/
abbrev CQE_Q_CQB_HI : Nat := 0x200114
/-- Table CQE-8. -/
abbrev CQE_Q_PTR : Nat := 0x200118
/-- Table CQE-8. -/
abbrev CQE_Q_CPTR : Nat := 0x20011C
/-- Table CQE-8. -/
abbrev CQE_Q_OUT : Nat := 0x200120
/-- Table CQE-8. -/
abbrev CQE_Q_STS : Nat := 0x200124
/-- Table CQE-8. -/
abbrev CQE_Q_RST : Nat := 0x200128
/-- Table CQE-8. -/
abbrev CQE_HAZ_WAITS : Nat := 0x200140
/-- Table CQE-8. -/
abbrev CQE_TAGBUSY : Nat := 0x200144
/-- Table VSL-7. -/
abbrev VSL_SSEL : Nat := 0x300100
/-- Table VSL-7. -/
abbrev VSL_SL_CTL : Nat := 0x300104
/-- Table VSL-7. -/
abbrev VSL_SL_PASID : Nat := 0x300108
/-- Table VSL-7. -/
abbrev VSL_SL_BLKS_LO : Nat := 0x30010C
/-- Table VSL-7. -/
abbrev VSL_SL_BLKS_HI : Nat := 0x300110
/-- Table VSL-7. -/
abbrev VSL_SL_SHARE : Nat := 0x300114
/-- Table VSL-7. -/
abbrev VSL_SL_SHARE_ACT : Nat := 0x300118
/-- Table VSL-7. -/
abbrev VSL_SL_PIN : Nat := 0x30011C
/-- Table VSL-7. -/
abbrev VSL_SL_HDRM : Nat := 0x300120
/-- Table VSL-7. -/
abbrev VSL_SL_OP : Nat := 0x300124
/-- Table VSL-7. -/
abbrev VSL_SL_STS : Nat := 0x300128
/-- Table VSL-7. -/
abbrev VSL_SL_INFLIGHT : Nat := 0x30012C
/-- Table VSL-7. -/
abbrev VSL_SL_HIGHLBA_LO : Nat := 0x300130
/-- Table VSL-7. -/
abbrev VSL_SL_HIGHLBA_HI : Nat := 0x300134
/-- Table VSL-7. -/
abbrev VSL_SL_BLOB_LO : Nat := 0x300138
/-- Table VSL-7. -/
abbrev VSL_SL_BLOB_HI : Nat := 0x30013C
/-- Table VSL-7. -/
abbrev VSL_SL_SAVESEQ_LO : Nat := 0x300140
/-- Table VSL-7. -/
abbrev VSL_SL_SAVESEQ_HI : Nat := 0x300144
/-- Table VSL-7. -/
abbrev VSL_SHARE_SUM : Nat := 0x300180
/-- Table VSL-7. -/
abbrev VSL_PIN_SUM : Nat := 0x300184
/-- Table VSL-7. -/
abbrev VSL_BOUND : Nat := 0x300188
/-- Table VSL-8. -/
abbrev VSL_EXP_CTL : Nat := 0x301100
/-- Table VSL-8. -/
abbrev VSL_EXP_RING_LO : Nat := 0x301104
/-- Table VSL-8. -/
abbrev VSL_EXP_RING_HI : Nat := 0x301108
/-- Table VSL-8. -/
abbrev VSL_EXP_SLOTS : Nat := 0x30110C
/-- Table VSL-8. -/
abbrev VSL_EXP_PROD : Nat := 0x301110
/-- Table VSL-8. -/
abbrev VSL_EXP_CONS : Nat := 0x301114
/-- Table VSL-8. -/
abbrev VSL_EXP_CUR_LO : Nat := 0x301118
/-- Table VSL-8. -/
abbrev VSL_EXP_CUR_HI : Nat := 0x30111C
/-- Table VSL-8. -/
abbrev VSL_EXP_START_LO : Nat := 0x301120
/-- Table VSL-8. -/
abbrev VSL_EXP_START_HI : Nat := 0x301124
/-- Table VSL-8. -/
abbrev VSL_EXP_END_LO : Nat := 0x301128
/-- Table VSL-8. -/
abbrev VSL_EXP_END_HI : Nat := 0x30112C
/-- Table VSL-8. -/
abbrev VSL_EXP_BEHIND : Nat := 0x301130
/-- Table VSL-8. -/
abbrev VSL_EXP_POISON : Nat := 0x301134
/-- Table VSL-8. -/
abbrev VSL_EXP_STS : Nat := 0x301138
/-- Table VSL-8. -/
abbrev VSL_EXP_RATE : Nat := 0x30113C
/-- Table CRY-10. -/
abbrev CRY_CSEL : Nat := 0x400100
/-- Table CRY-10. -/
abbrev CRY_CTX_STS : Nat := 0x400104
/-- Table CRY-10. -/
abbrev CRY_CTX_INVOC : Nat := 0x400108
/-- Table CRY-10. -/
abbrev CRY_CTX_MARK : Nat := 0x40010C
/-- Table CRY-10. -/
abbrev CRY_CTX_FIXED_LO : Nat := 0x400110
/-- Table CRY-10. -/
abbrev CRY_CTX_FIXED_HI : Nat := 0x400114
/-- Table CRY-10. -/
abbrev CRY_CTX_LABEL_LO : Nat := 0x400118
/-- Table CRY-10. -/
abbrev CRY_CTX_LABEL_HI : Nat := 0x40011C
/-- Table CRY-10. -/
abbrev CRY_OP : Nat := 0x400140
/-- Table CRY-10. -/
abbrev CRY_OP_STS : Nat := 0x400144
/-- Table CRY-10. -/
abbrev CRY_KEK (n : Nat) : Nat := 0x400180 + 0x4 * n
/-- Table CRY-10. -/
abbrev CRY_KEK_STS : Nat := 0x4001A0
/-- Table CRY-10. -/
abbrev CRY_POLICY : Nat := 0x4001C0
/-- Table CRY-10. -/
abbrev CRY_LANE_STS : Nat := 0x4001C4
/-- Table CRY-10. -/
abbrev CRY_UNITS_ENC : Nat := 0x4001C8
/-- Table CRY-10. -/
abbrev CRY_UNITS_DEC : Nat := 0x4001CC
/-- Table CRY-10. -/
abbrev CRY_GCM_FAIL : Nat := 0x4001D0
/-- Table CRY-10. -/
abbrev CRY_XBUF (n : Nat) : Nat := 0x400200 + 0x4 * n
/-- Table MAP-7. -/
abbrev MAP_BANDS : Nat := 0x500100
/-- Table MAP-7. -/
abbrev MAP_BANDS_FMT : Nat := 0x500104
/-- Table MAP-7. -/
abbrev MAP_CLOG_LO : Nat := 0x500108
/-- Table MAP-7. -/
abbrev MAP_CLOG_HI : Nat := 0x50010C
/-- Table MAP-7. -/
abbrev MAP_LIMIT_LO : Nat := 0x500110
/-- Table MAP-7. -/
abbrev MAP_LIMIT_HI : Nat := 0x500114
/-- Table MAP-7. -/
abbrev MAP_VALID_LO : Nat := 0x500118
/-- Table MAP-7. -/
abbrev MAP_VALID_HI : Nat := 0x50011C
/-- Table MAP-7. -/
abbrev MAP_FQ : Nat := 0x500120
/-- Table MAP-7. -/
abbrev MAP_META : Nat := 0x500124
/-- Table MAP-7. -/
abbrev MAP_QLC_USED : Nat := 0x500128
/-- Table MAP-7. -/
abbrev MAP_SLC_USED : Nat := 0x50012C
/-- Table MAP-7. -/
abbrev MAP_SSEL : Nat := 0x500140
/-- Table MAP-7. -/
abbrev MAP_SL_MAPPED_LO : Nat := 0x500144
/-- Table MAP-7. -/
abbrev MAP_SL_MAPPED_HI : Nat := 0x500148
/-- Table MAP-7. -/
abbrev MAP_SL_PINNED : Nat := 0x50014C
/-- Table MAP-7. -/
abbrev MAP_CACHE_DIRTY : Nat := 0x500160
/-- Table MAP-7. -/
abbrev MAP_CACHE_HIT : Nat := 0x500164
/-- Table MAP-7. -/
abbrev MAP_CACHE_MISS : Nat := 0x500168
/-- Table MAP-7. -/
abbrev MAP_DLOG_USED : Nat := 0x500170
/-- Table MAP-7. -/
abbrev MAP_DLOG_CTL : Nat := 0x500174
/-- Table MAP-7. -/
abbrev MAP_NOSPACE : Nat := 0x500180
/-- Table MAP-8. -/
abbrev MAP_GC_CTL : Nat := 0x501100
/-- Table MAP-8. -/
abbrev MAP_WM_BG : Nat := 0x501104
/-- Table MAP-8. -/
abbrev MAP_WM_FG : Nat := 0x501108
/-- Table MAP-8. -/
abbrev MAP_WM_HARD : Nat := 0x50110C
/-- Table MAP-8. -/
abbrev MAP_SLC_MAX : Nat := 0x501110
/-- Table MAP-8. -/
abbrev MAP_SLC_TGT : Nat := 0x501114
/-- Table MAP-8. -/
abbrev MAP_GC_STS : Nat := 0x501118
/-- Table MAP-8. -/
abbrev MAP_GC_CREDIT : Nat := 0x50111C
/-- Table MAP-8. -/
abbrev MAP_GC_BANDS : Nat := 0x501120
/-- Table MAP-8. -/
abbrev MAP_RELOC_LO : Nat := 0x501124
/-- Table MAP-8. -/
abbrev MAP_RELOC_HI : Nat := 0x501128
/-- Table MAP-8. -/
abbrev MAP_REFRESH : Nat := 0x50112C
/-- Table MAP-8. -/
abbrev MAP_FOLDS : Nat := 0x501130
/-- Table MAP-8. -/
abbrev MAP_RETIRED : Nat := 0x501134
/-- Table MAP-8. -/
abbrev MAP_PE_MAX : Nat := 0x501138
/-- Table MAP-8. -/
abbrev MAP_PE_MIN : Nat := 0x50113C
/-- Table MAP-8. -/
abbrev MAP_WL_SPREAD : Nat := 0x501140
/-- Table DLR-7. -/
abbrev DLR_TIME_CTL : Nat := 0x700100
/-- Table DLR-7. -/
abbrev DLR_TIME_STS : Nat := 0x700104
/-- Table DLR-7. -/
abbrev DLR_TIME_OFS : Nat := 0x700108
/-- Table DLR-7. -/
abbrev DLR_SLEW_LEFT : Nat := 0x70010C
/-- Table DLR-7. -/
abbrev DLR_STEP_LO : Nat := 0x700110
/-- Table DLR-7. -/
abbrev DLR_STEP_HI : Nat := 0x700114
/-- Table DLR-7. -/
abbrev DLR_TWIN_OFS : Nat := 0x700118
/-- Table DLR-7. -/
abbrev DLR_SLEEP_T_LO : Nat := 0x700120
/-- Table DLR-7. -/
abbrev DLR_SLEEP_T_HI : Nat := 0x700124
/-- Table DLR-7. -/
abbrev DLR_SLEEP_AO_LO : Nat := 0x700128
/-- Table DLR-7. -/
abbrev DLR_SLEEP_AO_HI : Nat := 0x70012C
/-- Table DLR-7. -/
abbrev DLR_STEPS : Nat := 0x700130
/-- Table DLR-7. -/
abbrev DLR_LOCK_LOSS : Nat := 0x700134
/-- Table DLR-8. -/
abbrev DLR_CLS_W : Nat := 0x701100
/-- Table DLR-8. -/
abbrev DLR_AGE : Nat := 0x701104
/-- Table DLR-8. -/
abbrev DLR_SUS_CTL : Nat := 0x701108
/-- Table DLR-8. -/
abbrev DLR_TSUM : Nat := 0x701110
/-- Table DLR-8. -/
abbrev DLR_LOAD : Nat := 0x701114
/-- Table DLR-8. -/
abbrev DLR_SKEW : Nat := 0x701118
/-- Table DLR-8. -/
abbrev DLR_SUS_CNT : Nat := 0x701120
/-- Table DLR-8. -/
abbrev DLR_CAP_HITS : Nat := 0x701124
/-- Table DLR-8. -/
abbrev DLR_AGE_PROMO : Nat := 0x701128
/-- Table DLR-8. -/
abbrev DLR_ARM_MISS : Nat := 0x70112C
/-- Table DLR-8. -/
abbrev DLR_PSEL : Nat := 0x701140
/-- Table DLR-8. -/
abbrev DLR_P_LOAD : Nat := 0x701144
/-- Table DLR-8. -/
abbrev DLR_P_DELAY : Nat := 0x701148
/-- Port page `p`, offset 0x100 (Table FCH-2). -/
abbrev FCH_P_STS (p : Nat) : Nat := 0x800100 + 0x1000 * p
/-- Port page `p`, offset 0x104 (Table FCH-2). -/
abbrev FCH_P_DIES_LO (p : Nat) : Nat := 0x800104 + 0x1000 * p
/-- Port page `p`, offset 0x108 (Table FCH-2). -/
abbrev FCH_P_DIES_HI (p : Nat) : Nat := 0x800108 + 0x1000 * p
/-- Port page `p`, offset 0x10C (Table FCH-2). -/
abbrev FCH_P_DFAIL_LO (p : Nat) : Nat := 0x80010C + 0x1000 * p
/-- Port page `p`, offset 0x110 (Table FCH-2). -/
abbrev FCH_P_DFAIL_HI (p : Nat) : Nat := 0x800110 + 0x1000 * p
/-- Port page `p`, offset 0x114 (Table FCH-2). -/
abbrev FCH_P_BRIDGE (p : Nat) : Nat := 0x800114 + 0x1000 * p
/-- Port page `p`, offset 0x118 (Table FCH-2). -/
abbrev FCH_P_GEOM (p : Nat) : Nat := 0x800118 + 0x1000 * p
/-- Port page `p`, offset 0x11C (Table FCH-2). -/
abbrev FCH_P_RTT (p : Nat) : Nat := 0x80011C + 0x1000 * p
/-- Port page `p`, offset 0x120 (Table FCH-2). -/
abbrev FCH_P_RTT_SPREAD (p : Nat) : Nat := 0x800120 + 0x1000 * p
/-- Port page `p`, offset 0x130 (Table FCH-2). -/
abbrev FCH_P_CRCERR (p : Nat) : Nat := 0x800130 + 0x1000 * p
/-- Port page `p`, offset 0x134 (Table FCH-2). -/
abbrev FCH_P_REPLAY (p : Nat) : Nat := 0x800134 + 0x1000 * p
/-- Port page `p`, offset 0x138 (Table FCH-2). -/
abbrev FCH_P_RECOV (p : Nat) : Nat := 0x800138 + 0x1000 * p
/-- Port page `p`, offset 0x13C (Table FCH-2). -/
abbrev FCH_P_MARKMISS (p : Nat) : Nat := 0x80013C + 0x1000 * p
/-- Port page `p`, offset 0x140 (Table FCH-2). -/
abbrev FCH_P_REFUSE (p : Nat) : Nat := 0x800140 + 0x1000 * p
/-- Port page `p`, offset 0x150 (Table FCH-2). -/
abbrev FCH_P_OUT (p : Nat) : Nat := 0x800150 + 0x1000 * p
/-- Port page `p`, offset 0x160 (Table FCH-2). -/
abbrev FCH_P_TEST_CTL (p : Nat) : Nat := 0x800160 + 0x1000 * p
/-- Port page `p`, offset 0x164 (Table FCH-2). -/
abbrev FCH_P_TEST_STS (p : Nat) : Nat := 0x800164 + 0x1000 * p
/-- Port page `p`, offset 0x168 (Table FCH-2). -/
abbrev FCH_P_TEST_ERR (p : Nat) : Nat := 0x800168 + 0x1000 * p
/-- Port page `p`, offset 0x16C (Table FCH-2). -/
abbrev FCH_P_TEST_BITS (p : Nat) : Nat := 0x80016C + 0x1000 * p
/-- Port page `p`, offset 0x170 (Table FCH-2). -/
abbrev FCH_P_SVC (p : Nat) : Nat := 0x800170 + 0x1000 * p
/-- Table FCH-3. -/
abbrev FCH_C_CTL : Nat := 0x800800
/-- Table FCH-3. -/
abbrev FCH_DIE_TMO : Nat := 0x800804
/-- Table FCH-3. -/
abbrev FCH_REFCLK_LO : Nat := 0x800808
/-- Table FCH-3. -/
abbrev FCH_REFCLK_HI : Nat := 0x80080C
/-- Table FCH-3. -/
abbrev FCH_C_UP : Nat := 0x800810
/-- Table FCH-3. -/
abbrev FCH_C_FAILED : Nat := 0x800814
/-- Table FCH-3. -/
abbrev FCH_C_HANDED : Nat := 0x800818
/-- Table FCH-3. -/
abbrev FCH_C_DIES : Nat := 0x80081C
/-- Table FCH-3. -/
abbrev FCH_C_FAILMAP (n : Nat) : Nat := 0x800840 + 0x4 * n
/-- Table ECC-7. -/
abbrev ECC_DEC_STS : Nat := 0xA00100
/-- Table ECC-7. -/
abbrev ECC_RW_CTL : Nat := 0xA00104
/-- Table ECC-7. -/
abbrev ECC_VFY_CTL : Nat := 0xA00108
/-- Table ECC-7. -/
abbrev ECC_LAD_CTL : Nat := 0xA0010C
/-- Table ECC-7. -/
abbrev ECC_DPAR_SETS : Nat := 0xA00110
/-- Table ECC-7. -/
abbrev ECC_CW_HARD_LO : Nat := 0xA00120
/-- Table ECC-7. -/
abbrev ECC_CW_HARD_HI : Nat := 0xA00124
/-- Table ECC-7. -/
abbrev ECC_CW_L1 : Nat := 0xA00128
/-- Table ECC-7. -/
abbrev ECC_CW_L2 : Nat := 0xA0012C
/-- Table ECC-7. -/
abbrev ECC_CW_L3 : Nat := 0xA00130
/-- Table ECC-7. -/
abbrev ECC_CW_DPAR : Nat := 0xA00134
/-- Table ECC-7. -/
abbrev ECC_CW_SHF : Nat := 0xA00138
/-- Table ECC-7. -/
abbrev ECC_OVER_RWT : Nat := 0xA0013C
/-- Table ECC-7. -/
abbrev ECC_VFY_FAIL : Nat := 0xA00140
/-- Table ECC-7. -/
abbrev ECC_VFY_EARLY : Nat := 0xA00144
/-- Table ECC-7. -/
abbrev ECC_MISPLACE : Nat := 0xA00148
/-- Table ECC-8. -/
abbrev ECC_RL_CTL : Nat := 0xA01100
/-- Table ECC-8. -/
abbrev ECC_RL_CODE : Nat := 0xA01104
/-- Table ECC-8. -/
abbrev ECC_RL_POL : Nat := 0xA01108
/-- Table ECC-8. -/
abbrev ECC_RL_SEL : Nat := 0xA0110C
/-- Table ECC-8. -/
abbrev ECC_RL_UPD : Nat := 0xA01110
/-- Table ECC-8. -/
abbrev ECC_RL_SAT : Nat := 0xA01114
/-- Table ECC-8. -/
abbrev ECC_RL_LOADS : Nat := 0xA01118
/-- Table ECC-8. -/
abbrev ECC_RL_ENT (n : Nat) : Nat := 0xA01200 + 0x4 * n
/-- Table ECC-9. -/
abbrev ECC_SV_CTL : Nat := 0xA02100
/-- Table ECC-9. -/
abbrev ECC_SV_STS : Nat := 0xA02104
/-- Table ECC-9. -/
abbrev ECC_SV_POS : Nat := 0xA02108
/-- Table ECC-9. -/
abbrev ECC_SV_LAP : Nat := 0xA0210C
/-- Table ECC-9. -/
abbrev ECC_SV_LAPS : Nat := 0xA02110
/-- Table ECC-9. -/
abbrev ECC_SV_WAKES : Nat := 0xA02114
/-- Table ECC-9. -/
abbrev ECC_SV_REPAIR : Nat := 0xA02118
/-- Table ECC-9. -/
abbrev ECC_DAY : Nat := 0xA02120
/-- Table ECC-9. -/
abbrev ECC_PE_RATED : Nat := 0xA02130
/-- Table ECC-9. -/
abbrev ECC_PE_MEAN : Nat := 0xA02134
/-- Table ECC-9. -/
abbrev ECC_RFSH_30D : Nat := 0xA02138
/-- Table ECC-9. -/
abbrev ECC_QUAL_FAIL : Nat := 0xA0213C
/-- Table SHF-5. -/
abbrev SHF_SEED : Nat := 0xB00100
/-- Table SHF-5. -/
abbrev SHF_STRIPE_CTL : Nat := 0xB00104
/-- Table SHF-5. -/
abbrev SHF_SEAL_VER : Nat := 0xB00108
/-- Table SHF-5. -/
abbrev SHF_BSEL : Nat := 0xB0010C
/-- Table SHF-5. -/
abbrev SHF_B_STS : Nat := 0xB00110
/-- Table SHF-5. -/
abbrev SHF_DEG_CTL : Nat := 0xB00114
/-- Table SHF-5. -/
abbrev SHF_DEG_READS : Nat := 0xB00120
/-- Table SHF-5. -/
abbrev SHF_DEG_SUBST : Nat := 0xB00124
/-- Table SHF-5. -/
abbrev SHF_POISON : Nat := 0xB00128
/-- Table SHF-5. -/
abbrev SHF_UNRECOV : Nat := 0xB0012C
/-- Table SHF-5. -/
abbrev SHF_SEAL_ERR : Nat := 0xB00130
/-- Table SHF-5. -/
abbrev SHF_PAD : Nat := 0xB00134
/-- Table SHF-5. -/
abbrev SHF_ELOG : Nat := 0xB00138
/-- Table SHF-5. -/
abbrev SHF_B_SET (n : Nat) : Nat := 0xB00200 + 0x4 * n
/-- Table SHF-6. -/
abbrev SHF_RB_CTL : Nat := 0xB01100
/-- Table SHF-6. -/
abbrev SHF_RB_STS : Nat := 0xB01104
/-- Table SHF-6. -/
abbrev SHF_RB_Q1 : Nat := 0xB01108
/-- Table SHF-6. -/
abbrev SHF_RB_Q2 : Nat := 0xB0110C
/-- Table SHF-6. -/
abbrev SHF_RB_Q3 : Nat := 0xB01110
/-- Table SHF-6. -/
abbrev SHF_RB_CUR : Nat := 0xB01114
/-- Table SHF-6. -/
abbrev SHF_RB_CHUNKS_LO : Nat := 0xB01118
/-- Table SHF-6. -/
abbrev SHF_RB_CHUNKS_HI : Nat := 0xB0111C
/-- Table SHF-6. -/
abbrev SHF_RB_SPACE : Nat := 0xB01120
/-- Table SHF-6. -/
abbrev SHF_RB_SPACE_FMT : Nat := 0xB01124
/-- Table SHF-6. -/
abbrev SHF_BM_PORT (n : Nat) : Nat := 0xB01140 + 0x4 * n
/-- Table SHF-6. -/
abbrev SHF_BM_SEQ_LO : Nat := 0xB01150
/-- Table SHF-6. -/
abbrev SHF_BM_SEQ_HI : Nat := 0xB01154
/-- Table SHF-6. -/
abbrev SHF_BM_DIRTY : Nat := 0xB01158
/-- Table SHF-6. -/
abbrev SHF_BM_COPIES : Nat := 0xB0115C
/-- Table SHF-6. -/
abbrev SHF_RESYNC : Nat := 0xB01160
/-- Table STK-7. -/
abbrev STK_HBM_STS : Nat := 0x600100
/-- Table STK-7. -/
abbrev STK_HBM_TEMP : Nat := 0x600104
/-- Table STK-7. -/
abbrev STK_REPAIRS : Nat := 0x600108
/-- Table STK-7. -/
abbrev STK_RETIRED : Nat := 0x60010C
/-- Table STK-7. -/
abbrev STK_SCR_CTL : Nat := 0x600140
/-- Table STK-7. -/
abbrev STK_SCR_HBM_LAP : Nat := 0x600144
/-- Table STK-7. -/
abbrev STK_SCR_HBM_POS : Nat := 0x600148
/-- Table STK-7. -/
abbrev STK_SCR_SRAM_LAP : Nat := 0x60014C
/-- Table STK-7. -/
abbrev STK_SCR_LAPS : Nat := 0x600150
/-- Table STK-8. -/
abbrev STK_POOL : Nat := 0x601100
/-- Table STK-8. -/
abbrev STK_SHARED : Nat := 0x601104
/-- Table STK-8. -/
abbrev STK_CR_LIM (n : Nat) : Nat := 0x601140 + 0x8 * n
/-- Table STK-8. -/
abbrev STK_CR_USED (n : Nat) : Nat := 0x601144 + 0x8 * n
/-- Table STK-8. -/
abbrev STK_CR_WAITS : Nat := 0x6011A0
/-- Table STK-9. -/
abbrev STK_PWC_SLOTS : Nat := 0x602100
/-- Table STK-9. -/
abbrev STK_PWC_USED : Nat := 0x602104
/-- Table STK-9. -/
abbrev STK_PWC_THR : Nat := 0x602108
/-- Table STK-9. -/
abbrev STK_PWC_RES : Nat := 0x60210C
/-- Table STK-9. -/
abbrev STK_PWC_CREDIT : Nat := 0x602110
/-- Table STK-9. -/
abbrev STK_PWC_STS : Nat := 0x602114
/-- Table STK-9. -/
abbrev STK_PWC_THROT : Nat := 0x602118
/-- Table STK-9. -/
abbrev STK_PWC_TFULL : Nat := 0x60211C
/-- Table STK-9. -/
abbrev STK_PWC_VERS : Nat := 0x602120
/-- Table STK-9. -/
abbrev STK_LADLE_STS : Nat := 0x602140
/-- Table STK-9. -/
abbrev STK_LADLE_OUT (n : Nat) : Nat := 0x602144 + 0x4 * n
/-- Table ECC-11. -/
abbrev ECC_ARR_STS : Nat := 0xA03100
/-- Table ECC-11. -/
abbrev ECC_ARR_CE : Nat := 0xA03104
/-- Table ECC-11. -/
abbrev ECC_ARR_UE : Nat := 0xA03108
/-- Table ECC-11. -/
abbrev ECC_ARR_REMAP : Nat := 0xA0310C
/-- Table ECC-11. -/
abbrev ECC_ARR_SEL : Nat := 0xA03110
/-- Table ECC-11. -/
abbrev ECC_ARR_INFO : Nat := 0xA03114
/-- Table ECC-11. -/
abbrev ECC_HBM_CE : Nat := 0xA03120
/-- Table ECC-11. -/
abbrev ECC_HBM_UE : Nat := 0xA03124
/-- Table ECC-11. -/
abbrev ECC_HBM_POISON : Nat := 0xA03128
/-- Table ECC-11. -/
abbrev ECC_WB_DROP : Nat := 0xA0312C
/-- Table ECC-11. -/
abbrev ECC_HBM_ELOG_SEL : Nat := 0xA03130
/-- Table ECC-11. -/
abbrev ECC_HBM_ELOG0 : Nat := 0xA03134
/-- Table ECC-11. -/
abbrev ECC_HBM_ELOG1 : Nat := 0xA03138
/-- Table ECC-11. -/
abbrev ECC_HBM_ELOG2 : Nat := 0xA0313C
/-- Table ECC-11. -/
abbrev ECC_HBM_ELOG3 : Nat := 0xA03140
/-- Table ECC-11. -/
abbrev ECC_HBM_ELOG_CNT : Nat := 0xA03144
/-- Table TWN-4. -/
abbrev TWN_LINK_CTL : Nat := 0xC00100
/-- Table TWN-4. -/
abbrev TWN_LINK_STS : Nat := 0xC00104
/-- Table TWN-4. -/
abbrev TWN_LANE_MAP : Nat := 0xC00108
/-- Table TWN-4. -/
abbrev TWN_LANE_FAIL : Nat := 0xC0010C
/-- Table TWN-4. -/
abbrev TWN_KEY_STS : Nat := 0xC00110
/-- Table TWN-4. -/
abbrev TWN_TX_INV : Nat := 0xC00114
/-- Table TWN-4. -/
abbrev TWN_REKEYS : Nat := 0xC00118
/-- Table TWN-4. -/
abbrev TWN_AUTH_FAIL : Nat := 0xC0011C
/-- Table TWN-4. -/
abbrev TWN_RETRAINS : Nat := 0xC00120
/-- Table TWN-4. -/
abbrev TWN_PAIRKEY (n : Nat) : Nat := 0xC00180 + 0x4 * n
/-- Table TWN-4. -/
abbrev TWN_PAIRKEY_STS : Nat := 0xC001A0
/-- Table TWN-5. -/
abbrev TWN_CTL : Nat := 0xC01100
/-- Table TWN-5. -/
abbrev TWN_STS : Nat := 0xC01104
/-- Table TWN-5. -/
abbrev TWN_HB_CTL : Nat := 0xC01108
/-- Table TWN-5. -/
abbrev TWN_PEER_SERIAL_LO : Nat := 0xC0110C
/-- Table TWN-5. -/
abbrev TWN_PEER_SERIAL_HI : Nat := 0xC01110
/-- Table TWN-5. -/
abbrev TWN_PEER_VER : Nat := 0xC01114
/-- Table TWN-5. -/
abbrev TWN_MIR_PEND : Nat := 0xC01118
/-- Table TWN-5. -/
abbrev TWN_PAGES : Nat := 0xC0111C
/-- Table TWN-5. -/
abbrev TWN_LOST_TICK_LO : Nat := 0xC01120
/-- Table TWN-5. -/
abbrev TWN_LOST_TICK_HI : Nat := 0xC01124
/-- Table TWN-5. -/
abbrev TWN_LOST_EPOCH : Nat := 0xC01128
/-- Table TWN-5. -/
abbrev TWN_FAILOVERS : Nat := 0xC0112C
/-- Table TWN-5. -/
abbrev TWN_MISMATCH : Nat := 0xC01130
/-- Table TWN-5. -/
abbrev TWN_SL_MOVE : Nat := 0xC01140
/-- Table TWN-5. -/
abbrev TWN_MOVED (n : Nat) : Nat := 0xC01200 + 0x4 * n
/-- Table PWR-12. -/
abbrev PWR_MODE_CTL : Nat := 0xD00100
/-- Table PWR-12. -/
abbrev PWR_MODE_STS : Nat := 0xD00104
/-- Table PWR-12. -/
abbrev PWR_WAKE_EN : Nat := 0xD00108
/-- Table PWR-12. -/
abbrev PWR_WAKE_STAT : Nat := 0xD0010C
/-- Table PWR-12. -/
abbrev PWR_LAST_WAKE : Nat := 0xD00110
/-- Table PWR-12. -/
abbrev PWR_LAST_WAKE_TICK_LO : Nat := 0xD00114
/-- Table PWR-12. -/
abbrev PWR_LAST_WAKE_TICK_HI : Nat := 0xD00118
/-- Table PWR-12. -/
abbrev PWR_LAST_WAKE_EPOCH : Nat := 0xD0011C
/-- Table PWR-12. -/
abbrev PWR_ALARM_LO : Nat := 0xD00120
/-- Table PWR-12. -/
abbrev PWR_ALARM_HI : Nat := 0xD00124
/-- Table PWR-12. -/
abbrev PWR_AO_LO : Nat := 0xD00128
/-- Table PWR-12. -/
abbrev PWR_AO_HI : Nat := 0xD0012C
/-- Table PWR-12. -/
abbrev PWR_THERM : Nat := 0xD00130
/-- Table PWR-12. -/
abbrev PWR_WAKES : Nat := 0xD00134
/-- Table PWR-13. -/
abbrev PWR_DSEL : Nat := 0xD01100
/-- Table PWR-13. -/
abbrev PWR_DOM_POL : Nat := 0xD01104
/-- Table PWR-13. -/
abbrev PWR_DOM_OP : Nat := 0xD01108
/-- Table PWR-13. -/
abbrev PWR_DOM_INFO : Nat := 0xD0110C
/-- Table PWR-13. -/
abbrev PWR_DOM_WAKES : Nat := 0xD01110
/-- Table PWR-13. -/
abbrev PWR_DOM_WAKE_MAX : Nat := 0xD01114
/-- Table PWR-13. -/
abbrev PWR_DOM_STS (n : Nat) : Nat := 0xD01120 + 0x4 * n
/-- Table PWR-13. -/
abbrev PWR_DUMPSET_LO : Nat := 0xD01130
/-- Table PWR-13. -/
abbrev PWR_DUMPSET_HI : Nat := 0xD01134
/-- Table PWR-14. -/
abbrev PWR_FAIL_CTL : Nat := 0xD02100
/-- Table PWR-14. -/
abbrev PWR_FAIL_STS : Nat := 0xD02104
/-- Table PWR-14. -/
abbrev PWR_DUMP_SEQ : Nat := 0xD02108
/-- Table PWR-14. -/
abbrev PWR_DUMP_MIB : Nat := 0xD0210C
/-- Table PWR-14. -/
abbrev PWR_DUMP_US : Nat := 0xD02110
/-- Table PWR-14. -/
abbrev PWR_TRIVET_STS : Nat := 0xD02120
/-- Table PWR-14. -/
abbrev PWR_TRIVET_FAILS : Nat := 0xD02124
/-- Table PWR-14. -/
abbrev PWR_SEQ (n : Nat) : Nat := 0xD02140 + 0x4 * n
/-- Table PWR-14. -/
abbrev PWR_BIAS_NOW : Nat := 0xD02180
/-- Table NVM-9. -/
abbrev NVM_WIN : Nat := 0xEFF100
/-- Table NVM-9. -/
abbrev NVM_STS : Nat := 0xEFF104
/-- Table NVM-9. -/
abbrev NVM_HOST_STAT : Nat := 0xEFF108
/-- Table NVM-9. -/
abbrev NVM_RD_STS : Nat := 0xEFF10C
/-- Table NVM-9. -/
abbrev NVM_BCH_CTL : Nat := 0xEFF110
/-- Table NVM-9. -/
abbrev NVM_CORR_CNT : Nat := 0xEFF114
/-- Table NVM-9. -/
abbrev NVM_THR_CNT : Nat := 0xEFF118
/-- Table NVM-9. -/
abbrev NVM_UNC_CNT : Nat := 0xEFF11C
/-- Table NVM-9. -/
abbrev NVM_SEC_SEL : Nat := 0xEFF120
/-- Table NVM-9. -/
abbrev NVM_SEC_STS : Nat := 0xEFF124
/-- Table NVM-9. -/
abbrev NVM_PULSES : Nat := 0xEFF130
/-- Table NVM-9. -/
abbrev NVM_BOOT_STS : Nat := 0xEFF140
/-- Table NVM-9. -/
abbrev NVM_BOOT_CTL : Nat := 0xEFF144
/-- Table NVM-9. -/
abbrev NVM_IMG_VER : Nat := 0xEFF148
/-- Table NVM-9. -/
abbrev NVM_SVN_MIN : Nat := 0xEFF14C
/-- Table SCP-6. -/
abbrev SCP_INC_STS : Nat := 0xF00100
/-- Table SCP-6. -/
abbrev SCP_INC_CLR : Nat := 0xF00104
/-- Table SCP-6. -/
abbrev SCP_INC_SEL : Nat := 0xF00108
/-- Table SCP-6. -/
abbrev SCP_INC_ENT (n : Nat) : Nat := 0xF00200 + 0x4 * n
/-- Table SCP-8. -/
abbrev SCP_CAP_CTL : Nat := 0xF57100
/-- Table SCP-8. -/
abbrev SCP_CAP_TRIG : Nat := 0xF57104
/-- Table SCP-8. -/
abbrev SCP_CAP_CKPT : Nat := 0xF57108
/-- Table SCP-8. -/
abbrev SCP_CAP_STS : Nat := 0xF5710C
/-- Table SCP-8. -/
abbrev SCP_CAP_SEG_LO : Nat := 0xF57110
/-- Table SCP-8. -/
abbrev SCP_CAP_SEG_HI : Nat := 0xF57114
/-- Table SCP-8. -/
abbrev SCP_CAP_OLDEST_LO : Nat := 0xF57118
/-- Table SCP-8. -/
abbrev SCP_CAP_OLDEST_HI : Nat := 0xF5711C
/-- Table SCP-8. -/
abbrev SCP_CAP_REC_LO : Nat := 0xF57120
/-- Table SCP-8. -/
abbrev SCP_CAP_REC_HI : Nat := 0xF57124
/-- Table SCP-8. -/
abbrev SCP_CAP_STAGE : Nat := 0xF57128
/-- Table SCP-8. -/
abbrev SCP_CAPKEY (n : Nat) : Nat := 0xF57140 + 0x4 * n
/-- Table SCP-8. -/
abbrev SCP_CAPKEY_STS : Nat := 0xF57160
/-- Table SCP-8. -/
abbrev SCP_XP_CTL : Nat := 0xF57180
/-- Table SCP-8. -/
abbrev SCP_XP_RING_LO : Nat := 0xF57184
/-- Table SCP-8. -/
abbrev SCP_XP_RING_HI : Nat := 0xF57188
/-- Table SCP-8. -/
abbrev SCP_XP_SLOTS : Nat := 0xF5718C
/-- Table SCP-8. -/
abbrev SCP_XP_FIRST_LO : Nat := 0xF57190
/-- Table SCP-8. -/
abbrev SCP_XP_FIRST_HI : Nat := 0xF57194
/-- Table SCP-8. -/
abbrev SCP_XP_NSEG : Nat := 0xF57198
/-- Table SCP-8. -/
abbrev SCP_XP_PROD : Nat := 0xF5719C
/-- Table SCP-8. -/
abbrev SCP_XP_CONS : Nat := 0xF571A0
/-- Table SCP-8. -/
abbrev SCP_XP_STS : Nat := 0xF571A4
/-- Table SCP-8. -/
abbrev SCP_RP_CTL : Nat := 0xF571C0
/-- Table SCP-8. -/
abbrev SCP_RP_RING_LO : Nat := 0xF571C4
/-- Table SCP-8. -/
abbrev SCP_RP_RING_HI : Nat := 0xF571C8
/-- Table SCP-8. -/
abbrev SCP_RP_SLOTS : Nat := 0xF571CC
/-- Table SCP-8. -/
abbrev SCP_RP_PROD : Nat := 0xF571D0
/-- Table SCP-8. -/
abbrev SCP_RP_CONS : Nat := 0xF571D4
/-- Table SCP-8. -/
abbrev SCP_RP_STOP_LO : Nat := 0xF571D8
/-- Table SCP-8. -/
abbrev SCP_RP_STOP_HI : Nat := 0xF571DC
/-- Table SCP-8. -/
abbrev SCP_RP_STS : Nat := 0xF571E0
/-- Table SCP-8. -/
abbrev SCP_RP_DIV_LO : Nat := 0xF571E4
/-- Table SCP-8. -/
abbrev SCP_RP_DIV_HI : Nat := 0xF571E8
/-- Table TST-1. -/
abbrev TST_BRG_STS : Nat := 0x1000100
/-- Table TST-1. -/
abbrev TST_BRG_CAUSE : Nat := 0x1000104
/-- Table TST-1. -/
abbrev TST_STAGE_MS (n : Nat) : Nat := 0x1000110 + 0x4 * n
/-- Table TST-1. -/
abbrev TST_REL_MS : Nat := 0x1000140
/-- Table TST-1. -/
abbrev TST_SEC_STS : Nat := 0x1000150
/-- Table TST-1. -/
abbrev TST_BIST_STS : Nat := 0x1000160
/-- Table TST-1. -/
abbrev TST_HOSTLANE : Nat := 0x1000164
/-- Table TST-1. -/
abbrev TST_PIN_SEL : Nat := 0x1000168
/-- Table TST-1. -/
abbrev TST_PIN_RES : Nat := 0x100016C
/-- Table TST-1. -/
abbrev TST_FPORT_FAIL (n : Nat) : Nat := 0x1000180 + 0x4 * n
/-- Table TST-1. -/
abbrev TST_CHK_STS : Nat := 0x10001C0
/-- Table TST-1. -/
abbrev TST_CHK_ARR : Nat := 0x10001C4
/-- Table TST-1. -/
abbrev TST_TAP_STS : Nat := 0x10001D0
/-- Table TST-1. -/
abbrev TST_LOST_SLOTS : Nat := 0x10001E0
/-- The base of bank `b`'s view (R463, Table SCP-7). -/
abbrev bankBase (b : Nat) : Nat := 0xF00100 + 0x1000 * (1 + b / 3) + 0x500 * (b % 3)
/-- Table SCP-7. -/
abbrev SB_CFG (b : Nat) : Nat := bankBase b + 4
/-- Table SCP-7. -/
abbrev SB_FILT (b : Nat) : Nat := bankBase b + 8
/-- Table SCP-7. -/
abbrev SB_WIN (b : Nat) : Nat := bankBase b + 0xC

end Sys2Proof.Machine.Reg
end

