-- ==== Sys2Proof/Machine/Bits.lean ====
section
/-! DEFINITION. Bit fields, saturating counts, two's complement, little-endian words, the CRCs and the
GF(2^8) arithmetic that the spec's tables use. -/

namespace Sys2Proof.Machine

/-- Bits [hi:lo] of a register value. -/
def bits (w : Word) (hi lo : Nat) : Nat := w.toNat >>> lo % 2 ^ (hi + 1 - lo)

/-- One bit of a register value. -/
def bitAt (w : Word) (n : Nat) : Bool := w.getLsbD n

/-- The mask of bits [hi:lo]. -/
def maskOf (hi lo : Nat) : Word := BitVec.ofNat 32 ((2 ^ (hi + 1 - lo) - 1) <<< lo)

/-- The value with bits [hi:lo] replaced by the low bits of `v`. -/
def putBits (w : Word) (hi lo : Nat) (v : Nat) : Word :=
  (w &&& ~~~ maskOf hi lo) ||| (BitVec.ofNat 32 ((v % 2 ^ (hi + 1 - lo)) <<< lo))

/-- A value with one bit set or cleared. -/
def putBit (w : Word) (n : Nat) (b : Bool) : Word := putBits w n n b.toNat

/-- The 32-bit word of a number. -/
def w32 (n : Nat) : Word := BitVec.ofNat 32 n

/-- Two's complement of a signed value in 32 bits. -/
def wInt (i : Int) : Word := BitVec.ofInt 32 i

/-- `n` saturated at the largest value of `k` bits. -/
def satN (k n : Nat) : Nat := min n (2 ^ k - 1)

/-- Bytes [lo .. lo + n - 1] of a little-endian number. -/
def leBytes (x lo n : Nat) : Nat := x / 256 ^ lo % 256 ^ n

/-- A number's `n` bytes, lowest first. -/
def toBytes (x : Nat) : Nat → List Nat
  | 0 => []
  | n + 1 => x % 256 :: toBytes (x / 256) n

/-- A number's `n` 32-bit words, lowest first. -/
def toWords (x : Nat) : Nat → List Nat
  | 0 => []
  | n + 1 => x % 2 ^ 32 :: toWords (x / 2 ^ 32) n

/-- The number a list of bytes spells, lowest first. -/
def ofBytes : List Nat → Nat
  | [] => 0
  | b :: bs => b + 256 * ofBytes bs

/-- The list with the element at an index replaced. -/
def setAt {α : Type} : List α → Nat → α → List α
  | [], _, _ => []
  | _ :: xs, 0, y => y :: xs
  | x :: xs, n + 1, y => x :: setAt xs n y

/-- Insert a number into a rising list without repeats. -/
def insertSorted : List Nat → Nat → List Nat
  | [], n => [n]
  | k :: ks, n => if n = k then k :: ks else if n < k then n :: k :: ks else k :: insertSorted ks n

/-- The sum of a list of numbers. -/
def sumL (l : List Nat) : Nat := l.foldl (· + ·) 0

/-- One bit of a most-significant-bit-first CRC over `k` bits. -/
def crcBit (k poly crc : Nat) (b : Bool) : Nat :=
  let top := crc.testBit (k - 1)
  let sh := (crc * 2) % 2 ^ k
  if (top != b) then sh ^^^ poly else sh

/-- One byte of a CRC, bit 7 first. -/
def crcByte (k poly crc b : Nat) : Nat :=
  [7, 6, 5, 4, 3, 2, 1, 0].foldl (fun c i => crcBit k poly c (b.testBit i)) crc

/-- A CRC over bytes, from a start value. -/
def crcBytes (k poly start : Nat) (bs : List Nat) : Nat := bs.foldl (crcByte k poly) start

/-- The CRC-64 of R326: all ones at the start, the result inverted. -/
def crc64 (bs : List Nat) : Nat :=
  (crcBytes 64 0x42F0E1EBA9EA3693 (2 ^ 64 - 1) bs) ^^^ (2 ^ 64 - 1)

/-- The CRC-64 of a zero byte appended `n` times, bit by bit. -/
def crc64Zeros : Nat → Nat → Nat
  | c, 0 => c
  | c, n + 1 => crc64Zeros (crcByte 64 0x42F0E1EBA9EA3693 c 0) n

/-- The guard of 4,096 zero bytes, written out (`guardOf_zero` derives it from the CRC). -/
def zeroGuard : Nat := 96362587474788

/-- The guard of a block (Table SHF-1): bits [47:0] of the CRC-64 of its 4,096 bytes, lowest byte first. -/
def guardOf (data : Nat) : Nat :=
  if data = 0 then zeroGuard
  else crc64 (toBytes data 4096) % 2 ^ 48

/-- The CRC-16 of a delta record (Table MAP-3), which names no polynomial or start value: 0x8BB7, that of R255, from zero (PRESUMED,
log 217). -/
def crc16 (bs : List Nat) : Nat := crcBytes 16 0x8BB7 0 bs

/-- Multiplication by 2 in GF(2^8) modulo 0x11D (R322). -/
def gfDouble (a : Nat) : Nat := if a < 128 then 2 * a else (2 * a) ^^^ 0x11D

/-- Multiplication in GF(2^8) modulo 0x11D, over the low `n` bits of the second factor. -/
def gfMulN : Nat → Nat → Nat → Nat
  | 0, _, _ => 0
  | n + 1, a, b => (if b % 2 = 1 then a else 0) ^^^ gfMulN n (gfDouble a) (b / 2)

/-- Multiplication in GF(2^8) modulo 0x11D. -/
def gfMul (a b : Nat) : Nat := gfMulN 8 a b

/-- g raised to `i`, with g = 2. -/
def gpow : Nat → Nat
  | 0 => 1
  | i + 1 => gfDouble (gpow i)

/-- P, Q and R of one byte offset of one column (R322), the data bytes in role order from `i`. -/
def parityFrom : Nat → List Nat → Nat × Nat × Nat
  | _, [] => (0, 0, 0)
  | i, d :: ds =>
    let r := parityFrom (i + 1) ds
    (d ^^^ r.1, gfMul (gpow i) d ^^^ r.2.1, gfMul (gpow (2 * i)) d ^^^ r.2.2)

/-- P, Q and R of sixteen data bytes (R322). -/
def parity (ds : List Nat) : Nat × Nat × Nat := parityFrom 0 ds

/-- ⌈a / b⌉. -/
def ceilDiv (a b : Nat) : Nat := (a + b - 1) / b

/-- The fields of a message or a record: each a size in bytes and a value, in order, lowest byte first. -/
abbrev Fields := List (Nat × Nat)

/-- Their bytes. -/
def payLen (fs : Fields) : Nat := sumL (fs.map Prod.fst)

/-- The fields as one number. -/
def payVal : Fields → Nat
  | [] => 0
  | (n, v) :: fs => v % 2 ^ (8 * n) + 2 ^ (8 * n) * payVal fs

end Sys2Proof.Machine
end

