-- ==== Sys2Proof/Machine/Aes.lean ====
section
/-! DEFINITION. AES-256 and the modes that the spec names: one block forward and inverse (FIPS 197), the XTS data unit of 4,096 bytes
(R179: IEEE 1619), GCM (R157, R180, R385: NIST SP 800-38D) and RFC 3394 wrapping (R174).  A byte string is the number whose byte 0 is
its lowest byte, as in the other tables of the spec; only inside GHASH and the wrap are blocks read from their highest byte. -/

namespace Sys2Proof.Machine

/-! ### AES-256 -/

/-- The S-box, 32 bytes a row, lowest byte first. -/
def aesSbox : List Nat :=
  [0xC072A49CAFA2D4ADF04759FA7DC982CA76ABD7FE2B670130C56F6BF27B777C63,
   0x75B227EBE28012079A059618C323C7041531D871F1E5A534CCF73F362693FDB7,
   0xCF584C4A39BECB6A5BB1FC20ED00D153842FE329B3D63B52A05A6E1B1A2C8309,
   0xD2F3FF1021DAB6BCF5389D928F40A351A89F3C507F02F94585334D43FBAAEFD0,
   0xDB0B5EDE14B8EE4688902A22DC4F816073195D643D7EA7C41744975FEC130CCD,
   0x08AE7A65EAF4566CA94ED58D6D37C8E779E4959162ACD3C25C2406490A3A32E0,
   0x9E1DC186B95735610EF6034866B53E708A8BBD4B1F74DDE8C6B4A61C2E2578BA,
   0x16BB54B00F2D99416842E6BF0D89A18CDF2855CEE9871E9B948ED9691198F8E1]

/-- The inverse S-box. -/
def aesInvSbox : List Nat :=
  [0xCBE9DEC444438E3487FF2F9B8239E37CFBD7F3819EA340BF38A53630D56A0952,
   0x25D18B6D49A25B76B224D92866A12E084EC3FA420B954CEE3D23C2A632947B54,
   0x849D8DA75746155EDAB9EDFD5048706C92B6655DCC5CA4D41698688664F6F872,
   0x6B8A130103BDAFC1020F3FCA8F1E2CD00645B3B80558E4F70AD3BC8C00ABD890,
   0x6EDF751CE837F9E28535ADE72274AC9673E6B4F0CECFF297EADC674F4111913A,
   0xF45ACD78FEC0DB9A2079D2C64B3E56FC1BBE18AA0E62B76F89C5291D711AF147,
   0xEF9CC9939F7AE52D0D4AB519A97F51605FEC8027591012B131C7078833A8DD1F,
   0x7D0C2155631469E126D677BA7E042B17619953833CBBEBC8B0F52AAE4D3BE0A0]

/-- The table as one number of 256 bytes. -/
def boxNum : List Nat → Nat
  | [] => 0
  | r :: rs => r + 2 ^ 256 * boxNum rs

/-- The byte of a box. -/
def boxAt (box b : Nat) : Nat := box >>> (8 * b) % 256

/-- The four bytes of a word through a box. -/
def subWord (box w : Nat) : Nat :=
  boxAt box (w % 256) + 2 ^ 8 * boxAt box (w >>> 8 % 256) + 2 ^ 16 * boxAt box (w >>> 16 % 256) + 2 ^ 24 * boxAt box (w >>> 24 % 256)

/-- Multiplication of every byte of a block by x modulo 0x11B. -/
def xtime (s : Nat) : Nat :=
  ((s &&& 0x7F7F7F7F7F7F7F7F7F7F7F7F7F7F7F7F) <<< 1) ^^^ ((s >>> 7 &&& 0x01010101010101010101010101010101) * 0x1B)

/-- Every column turned by one row. -/
def rotRows (s : Nat) : Nat :=
  (s >>> 8 &&& 0x00FFFFFF00FFFFFF00FFFFFF00FFFFFF) ||| ((s &&& 0x000000FF000000FF000000FF000000FF) <<< 24)

/-- MixColumns. -/
def mixColumns (s : Nat) : Nat :=
  let a := xtime s
  let r := rotRows s
  let r2 := rotRows r
  a ^^^ rotRows a ^^^ r ^^^ r2 ^^^ rotRows r2

/-- InvMixColumns: MixColumns after multiplication by 4x² + 5. -/
def invMixColumns (s : Nat) : Nat :=
  let q := xtime (xtime (s ^^^ rotRows (rotRows s)))
  mixColumns (s ^^^ q)

/-- The bytes of a block through a box, byte `i` of the result taken from byte `m × i mod 16` of the block: m = 5 is ShiftRows, 13 its
inverse. -/
def subShift (box m s : Nat) : Nat :=
  (List.range 16).foldl (fun a i => a + boxAt box (s >>> (8 * (m * i % 16)) % 256) <<< (8 * i)) 0

/-- The next eight words of the key schedule from the last eight. -/
def keyNext (box rcon : Nat) (ws : List Nat) : List Nat :=
  let last := ws.getD 7 0
  let t := subWord box (last >>> 8 + last % 256 * 2 ^ 24) ^^^ rcon
  let w0 := ws.getD 0 0 ^^^ t
  let w1 := ws.getD 1 0 ^^^ w0
  let w2 := ws.getD 2 0 ^^^ w1
  let w3 := ws.getD 3 0 ^^^ w2
  let w4 := ws.getD 4 0 ^^^ subWord box w3
  let w5 := ws.getD 5 0 ^^^ w4
  let w6 := ws.getD 6 0 ^^^ w5
  [w0, w1, w2, w3, w4, w5, w6, ws.getD 7 0 ^^^ w6]

/-- The key schedule from a group of eight words on: the round keys, two of them per group. -/
def keyGroups (box : Nat) : Nat → Nat → List Nat → List Nat
  | 0, _, _ => []
  | n + 1, rcon, ws =>
    let k (i : Nat) : Nat := ws.getD i 0 + 2 ^ 32 * ws.getD (i + 1) 0 + 2 ^ 64 * ws.getD (i + 2) 0 + 2 ^ 96 * ws.getD (i + 3) 0
    k 0 :: k 4 :: keyGroups box n (2 * rcon) (keyNext box rcon ws)

/-- The fifteen round keys of a 32-byte key. -/
def roundKeys (key : Nat) : List Nat := (keyGroups (boxNum aesSbox) 8 1 (toWords key 8)).take 15

/-- The rounds of the cipher after the first key addition. -/
def aesRounds (box : Nat) : List Nat → Nat → Nat
  | [], s => s
  | [k], s => subShift box 5 s ^^^ k
  | k :: ks, s => aesRounds box ks (mixColumns (subShift box 5 s) ^^^ k)

/-- The rounds of the inverse cipher after the first key addition. -/
def aesInvRounds (box : Nat) : List Nat → Nat → Nat
  | [], s => s
  | [k], s => subShift box 13 s ^^^ k
  | k :: ks, s => aesInvRounds box ks (invMixColumns (subShift box 13 s ^^^ k))

/-- One block under round keys. -/
def aesWith (ks : List Nat) (s : Nat) : Nat :=
  match ks with
  | [] => s
  | k :: ks => aesRounds (boxNum aesSbox) ks (s % 2 ^ 128 ^^^ k)

/-- The inverse of one block, under the round keys last first. -/
def aesInvWith (ks : List Nat) (s : Nat) : Nat :=
  match ks with
  | [] => s
  | k :: ks => aesInvRounds (boxNum aesInvSbox) ks (s % 2 ^ 128 ^^^ k)

/-- AES-256 of one 16-byte block under a 32-byte key, and its inverse. -/
def aes256 (key s : Nat) : Nat := aesWith (roundKeys key) s
def aes256Inv (key s : Nat) : Nat := aesInvWith (roundKeys key).reverse s

/-! ### XTS -/

/-- A tweak times α. -/
def xtsNext (t : Nat) : Nat := (2 * t % 2 ^ 128) ^^^ (t / 2 ^ 127 % 2 * 0x87)

/-- The blocks of a data unit, each under its tweak. -/
def xtsBlocks (f : Nat → Nat) : Nat → Nat → Nat → Nat
  | 0, _, _ => 0
  | n + 1, t, x => (f (x % 2 ^ 128 ^^^ t) ^^^ t) % 2 ^ 128 + 2 ^ 128 * xtsBlocks f n (xtsNext t) (x / 2 ^ 128)

/-- One logical block under XTS (R179): `key` is K1 and, above it, K2; the tweak is encrypted under K2. -/
def xtsEnc (key tweak x : Nat) : Nat :=
  xtsBlocks (aesWith (roundKeys (key % 2 ^ 256))) 256 (aes256 (key / 2 ^ 256) tweak) x
def xtsDec (key tweak x : Nat) : Nat :=
  xtsBlocks (aesInvWith (roundKeys (key % 2 ^ 256)).reverse) 256 (aes256 (key / 2 ^ 256) tweak) x

/-! ### GCM -/

/-- The bytes of a 16-byte block in the other order. -/
def swap16 (x : Nat) : Nat := ofBytes (toBytes x 16).reverse

/-- Multiplication in GHASH's field, over the bits of the first factor from its highest. -/
def ghashMul : Nat → Nat → Nat → Nat
  | 0, _, _ => 0
  | n + 1, x, v => (x >>> n % 2) * v ^^^ ghashMul n x (v >>> 1 ^^^ v % 2 * (0xE1 <<< 120))

/-- GHASH over `n` 16-byte blocks of a byte string. -/
def ghash (h : Nat) : Nat → Nat → Nat → Nat
  | 0, y, _ => y
  | n + 1, y, x => ghash h n (ghashMul 128 (y ^^^ swap16 (x % 2 ^ 128)) h) (x / 2 ^ 128)

/-- The key stream of `n` blocks from a counter block on. -/
def gcmStream (ks : List Nat) (iv : Nat) : Nat → Nat → Nat
  | 0, _ => 0
  | n + 1, ctr => aesWith ks (swap16 (iv * 2 ^ 32 + ctr % 2 ^ 32)) + 2 ^ 128 * gcmStream ks iv n (ctr + 1)

/-- GCM encryption, and decryption, of `len` bytes: `iv` is the 96-bit IV as an integer. -/
def gcmText (key iv len x : Nat) : Nat :=
  (x ^^^ gcmStream (roundKeys key) iv ((len + 15) / 16) 2) % 2 ^ (8 * len)

/-- The 16-byte GCM tag of `alen` bytes of additional data and `len` bytes of ciphertext. -/
def gcmTag (key iv alen aad len ct : Nat) : Nat :=
  let ks := roundKeys key
  let h := swap16 (aesWith ks 0)
  let y := ghash h ((len + 15) / 16) (ghash h ((alen + 15) / 16) 0 aad) ct
  let s := ghashMul 128 (y ^^^ (alen * 8 * 2 ^ 64 + len * 8)) h
  (swap16 s ^^^ aesWith ks (swap16 (iv * 2 ^ 32 + 1))) % 2 ^ 128

/-! ### RFC 3394 -/

/-- The n 64-bit big-endian words of a byte string given as a little-endian number. -/
def beWords (x : Nat) : Nat → List Nat
  | 0 => []
  | n + 1 => (ofBytes (toBytes x 8).reverse) :: beWords (x / 2 ^ 64) n

/-- The little-endian number of a list of 64-bit big-endian words. -/
def ofBeWords : List Nat → Nat
  | [] => 0
  | w :: ws => ofBytes (toBytes w 8).reverse + 2 ^ 64 * ofBeWords ws

/-- One pass of RFC 3394 wrapping over the words: the running value, the words done, the step number. -/
def wrapPass (ks : List Nat) : Nat → Nat → List Nat → Nat × List Nat
  | a, _, [] => (a, [])
  | a, t, r :: rs =>
    let b := swap16 (aesWith ks (swap16 (a * 2 ^ 64 + r)))
    let p := wrapPass ks (b / 2 ^ 64 % 2 ^ 64 ^^^ t) (t + 1) rs
    (p.1, b % 2 ^ 64 :: p.2)

/-- The default initial value of RFC 3394. -/
def wrapIv : Nat := 0xA6A6A6A6A6A6A6A6

/-- Six passes of wrapping. -/
def wrapPasses (ks : List Nat) (n : Nat) : Nat → Nat → List Nat → Nat × List Nat
  | 0, a, rs => (a, rs)
  | k + 1, a, rs => let p := wrapPass ks a ((5 - k) * n + 1) rs; wrapPasses ks n k p.1 p.2

/-- RFC 3394 wrapping of `n` 64-bit words' bytes: 8 bytes longer. -/
def rfcWrap (key n x : Nat) : Nat :=
  let p := wrapPasses (roundKeys key) n 6 wrapIv (beWords x n)
  ofBeWords (p.1 :: p.2)

/-- One pass of unwrapping over the words from the last: the running value and the words done. -/
def unwrapPass (ks : List Nat) : Nat → Nat → List Nat → Nat × List Nat
  | a, _, [] => (a, [])
  | a, t, r :: rs =>
    let b := swap16 (aesInvWith ks (swap16 ((a ^^^ t) * 2 ^ 64 + r)))
    let p := unwrapPass ks (b / 2 ^ 64 % 2 ^ 64) (t - 1) rs
    (p.1, b % 2 ^ 64 :: p.2)

/-- Six passes of unwrapping; the words are kept last first. -/
def unwrapPasses (ks : List Nat) (n : Nat) : Nat → Nat → List Nat → Nat × List Nat
  | 0, a, rs => (a, rs)
  | k + 1, a, rs => let p := unwrapPass ks a ((k + 1) * n) rs; unwrapPasses ks n k p.1 p.2

/-- RFC 3394 unwrapping of `n + 1` words' bytes: the content, if the initial value comes out. -/
def rfcUnwrap (key n x : Nat) : Option Nat :=
  match beWords x (n + 1) with
  | [] => none
  | a :: rs =>
    let p := unwrapPasses (roundKeys key).reverse n 6 a rs.reverse
    if p.1 = wrapIv then some (ofBeWords p.2.reverse) else none

end Sys2Proof.Machine
end

