-- ==== Sys2Proof/Config.lean ====
section
/-! DEFINITION. The free values: what the spec leaves to the implementation, the world outside or chance.
Every constant here is opaque: nothing can be proved of its value. -/

namespace Sys2Proof.Config

/-- The n-th value that nothing in the spec fixes: a random draw or an undefined value.  `Machine.draw` reads
it at the counter `Dev.draws`. -/
opaque free : Nat → Nat

/-- The unit's serial, its device-secret-derived blob key, and the key that wraps the persistent copies while no shelf key is set up. -/
opaque serial : Nat
opaque blobKey : Nat
opaque shelfKey : Nat

/-- What an SRAM array is: [0] a data array, [8:1] its island (R367 numbers the arrays and gives no more). -/
opaque arrayKind : Nat → Nat

/-- The boot loader that sectors 0 to 15 of the embedded flash hold as shipped (Table SCO-2, R443), byte by byte; the spec gives no
content. -/
opaque bootByte : Nat → Byte

/-- The 448 bytes of LDPC parity of the 4,160 bytes of a codeword (R290). -/
opaque ldpcParity : Nat → Nat

/-- What the bridge of a port reports of itself in STATUS with INFO (Table LNK-6): model, firmware, and its turnaround TA in units of 125 ps. -/
opaque bridgeModel : Nat → Nat
opaque bridgeFirmware : Nat → Nat
opaque bridgeTa : Nat → Nat

/-- The sensor readings PLDM reports (sensor number). -/
opaque sensor : Nat → Nat

end Sys2Proof.Config
end

