-- ==== Sys2Proof/Machine/SMap.lean ====
section
/-! DEFINITION. Sparse tables and byte memories: lookup, update and the canonical form (keys strictly rising,
no entry equal to what an unlisted key reads as). -/

namespace Sys2Proof.Machine

/-- The entry at a key, if listed. -/
def SMap.find {α : Type} : SMap α → Nat → Option α
  | [], _ => none
  | (k, v) :: m, n => if n = k then some v else SMap.find m n

/-- The entry at a key, or what an unlisted key reads as. -/
def SMap.get {α : Type} (dflt : Nat → α) (m : SMap α) (n : Nat) : α := (m.find n).getD (dflt n)

/-- Remove a key. -/
def SMap.erase {α : Type} : SMap α → Nat → SMap α
  | [], _ => []
  | (k, v) :: m, n => if n = k then SMap.erase m n else (k, v) :: SMap.erase m n

/-- List a value at a key, keeping keys rising. -/
def SMap.insert {α : Type} : SMap α → Nat → α → SMap α
  | [], n, x => [(n, x)]
  | (k, v) :: m, n, x =>
    if n = k then (n, x) :: m else if n < k then (n, x) :: (k, v) :: m else (k, v) :: SMap.insert m n x

/-- Store a value: the default is not listed. -/
def SMap.set {α : Type} [DecidableEq α] (dflt : Nat → α) (m : SMap α) (n : Nat) (x : α) : SMap α :=
  if x = dflt n then m.erase n else m.insert n x

/-- All keys are above `b` and strictly rising. -/
def SMap.sortedAbove {α : Type} : Option Nat → SMap α → Bool
  | _, [] => true
  | none, (k, _) :: m => SMap.sortedAbove (some k) m
  | some b, (k, _) :: m => decide (b < k) && SMap.sortedAbove (some k) m

/-- The canonical form of a byte memory whose unlisted addresses read as `d` says. -/
def Memory.wf (d : Nat → Byte) (m : Memory) : Bool :=
  SMap.sortedAbove none m && m.all (fun c => decide (c.2 ≠ d c.1))

/-- The byte at an address. -/
def Memory.read (d : Nat → Byte) (m : Memory) (a : Nat) : Byte := SMap.get d m a

/-- Store one byte, keeping the canonical form. -/
def Memory.write (d : Nat → Byte) (m : Memory) (a : Nat) (b : Byte) : Memory := SMap.set d m a b

/-- Store bytes at consecutive addresses. -/
def Memory.writeList (d : Nat → Byte) (m : Memory) (a : Nat) : List Byte → Memory
  | [] => m
  | b :: bs => Memory.writeList d (Memory.write d m a b) (a + 1) bs

/-- Read consecutive bytes. -/
def Memory.readList (d : Nat → Byte) (m : Memory) (a : Nat) : Nat → List Byte
  | 0 => []
  | n + 1 => Memory.read d m a :: Memory.readList d m (a + 1) n

/-- A byte of an erased sector (R447). -/
def erasedByte : Byte := 0xFF

/-- What an unlisted byte of the flash array reads as: in sectors 0 to 15 the boot loader as shipped, elsewhere an erased byte (R443, R447,
Table SCO-2; DEDUCED, log 2). -/
def arrayDflt (a : Nat) : Byte := if a < 0x100000 then Config.bootByte a else erasedByte

/-- What an unlisted byte of the persistent window reads as (never stored since format, R77). -/
def windowDflt (_ : Nat) : Byte := 0

end Sys2Proof.Machine
end

