-- ==== Sys2Proof/Machine/Ops.lean ====
section
/-! DEFINITION. The named operations every command uses: registers, page headers, errors and interrupts
(chapter 02), time stamps, free values, incidents (R471), scorepad samples (R462) and the frames `act`,
`actArray` and `actWindow` through which a command changes the state. -/

namespace Sys2Proof.Machine

/-! ### Registers -/

/-- The row of the register tables that holds a BAR0 offset.  The common registers of the FCH window and the
port registers are found through port page 0 (R36), a scorepad bank through the bank view (Table SCP-7). -/
def regDef? (off : Nat) : Option RegDef :=
  let hit (o : Nat) (r : RegDef) : Bool :=
    decide (r.off ≤ o) && decide (o < r.off + r.count * r.stride) && decide ((o - r.off) % r.stride = 0)
  if 0xF01000 ≤ off ∧ off < 0xF57000 then
    if off % 0x1000 < 0x100 ∨ 256 ≤ 3 * (off / 0x1000 - 0xF01) + (off % 0x1000 - 0x100) / 0x500 then none
    else regsSB.find? (hit ((off % 0x1000 - 0x100) % 0x500))
  else if 0x800000 ≤ off ∧ off < 0xA00000 then regsFCH.find? (hit (0x800000 + off % 0x1000))
  else (windowRegs (off / 0x100000)).find? (hit off)

/-- The reset value of the register at an offset. -/
def regReset (off : Nat) : Word :=
  match regDef? off with
  | some r => w32 r.reset
  | none => 0

/-- The offset a register is stored under: the FCH common registers are one set (R36). -/
def canonOff (off : Nat) : Nat :=
  if 0x800000 ≤ off ∧ off < 0xA00000 ∧ 0x800 ≤ off % 0x1000 then 0x800000 + off % 0x1000 else off

/-- A register's stored value. -/
def Dev.reg (d : Dev) (off : Nat) : Word := SMap.get regReset d.regs off

/-- Store a register's value. -/
def Dev.setReg (d : Dev) (off : Nat) (v : Word) : Dev := { d with regs := SMap.set regReset d.regs off v }

/-- A field of a register. -/
def Dev.fld (d : Dev) (off hi lo : Nat) : Nat := bits (d.reg off) hi lo

/-- A one-bit field. -/
def Dev.flag (d : Dev) (off n : Nat) : Bool := bitAt (d.reg off) n

/-- Set a field. -/
def Dev.setFld (d : Dev) (off hi lo v : Nat) : Dev := d.setReg off (putBits (d.reg off) hi lo v)

/-- Set a one-bit field. -/
def Dev.setFlag (d : Dev) (off n : Nat) (b : Bool) : Dev := d.setReg off (putBit (d.reg off) n b)

/-- Add to a field, saturating at its largest value. -/
def Dev.incFld (d : Dev) (off hi lo n : Nat) : Dev :=
  d.setFld off hi lo (satN (hi + 1 - lo) (d.fld off hi lo + n))

/-- Add to a 32-bit saturating count. -/
def Dev.inc (d : Dev) (off n : Nat) : Dev := d.incFld off 31 0 n

/-- Add to a count held in a LO and a HI register. -/
def Dev.inc64 (d : Dev) (lo hi n : Nat) : Dev :=
  let v := (d.fld lo 31 0 + 2 ^ 32 * d.fld hi 31 0 + n) % 2 ^ 64
  (d.setReg lo (w32 v)).setReg hi (w32 (v / 2 ^ 32))

/-- A value held in a LO and a HI register. -/
def Dev.get64 (d : Dev) (lo hi : Nat) : Nat := d.fld lo 31 0 + 2 ^ 32 * d.fld hi 31 0

/-- Set a value held in a LO and a HI register. -/
def Dev.set64 (d : Dev) (lo hi v : Nat) : Dev := (d.setReg lo (w32 v)).setReg hi (w32 (v / 2 ^ 32))

/-! ### Device-wide views -/

/-- GLB_STRAP.SIDE. -/
def Dev.side (d : Dev) : Nat := d.fld Reg.GLB_STRAP 0 0

/-- GLB_DEV_STS.RELEASED. -/
def Dev.released (d : Dev) : Bool := d.flag Reg.GLB_DEV_STS 0

/-- PWR_MODE_STS.MODE: 0 RUN, 1 IDLE, 2 SLEEP, 3 DEEP, 4 OFF. -/
def Dev.mode (d : Dev) : Nat := d.fld Reg.PWR_MODE_STS 2 0

/-- The time epoch. -/
def Dev.epoch (d : Dev) : Nat := d.fld Reg.DLR_TIME_STS 31 16

/-- The COARSE mark of the time base. -/
def Dev.coarse (d : Dev) : Bool := d.flag Reg.DLR_TIME_STS 3

/-- The health level (0 GREEN to 3 BLACK). -/
def Dev.health (d : Dev) : Nat := d.fld Reg.GLB_DEV_STS 9 8

/-- TWN_STS.STATE: 0 DOWN, 1 KEYING, 2 SYNCING, 3 PAIRED, 4 LOST, 5 FENCED, 6 MISMATCH, 7 LEFT (Table TWN-3). -/
def Dev.twin (d : Dev) : Nat := d.fld Reg.TWN_STS 3 0

/-- The state of data-plane domain `g`: 0 ON, 1 RET, 2 OFF. -/
def Dev.domSt (d : Dev) (g : Nat) : Nat := d.fld (Reg.PWR_DOM_STS (g / 16)) (2 * (g % 16) + 1) (2 * (g % 16))

/-- An entry is past QUIESCE: the sieve and the scrubbers have stopped (R417). -/
def Dev.flushing (d : Dev) : Bool := decide (2 ≤ d.fld Reg.PWR_MODE_STS 6 4)

/-- A power-loss dump runs. -/
def Dev.dumping (d : Dev) : Bool := d.flag Reg.PWR_FAIL_STS 1

/-- Emit one output. -/
def Dev.emit (d : Dev) (o : Out) : Dev := { d with out := d.out ++ [o] }

/-- The next free value. -/
def Dev.freeVal (d : Dev) : Nat := Config.free d.draws

/-- Take the next free value. -/
def Dev.drawn (d : Dev) : Dev := { d with draws := d.draws + 1 }

/-! ### Pages -/

/-- A page's header. -/
def Dev.page (d : Dev) (pg : Nat) : Page := SMap.get (fun _ => Page.reset) d.pages pg

/-- Replace a page's header. -/
def Dev.setPage (d : Dev) (pg : Nat) (p : Page) : Dev :=
  { d with pages := SMap.set (fun _ => Page.reset) d.pages pg p }

/-- The pages of Table REG-2, with the page counts the chapters give. -/
def pageExists (pg : Nat) : Bool :=
  pg == 0 || (0x100 ≤ pg && pg ≤ 0x102) || pg == 0x200 || (0x300 ≤ pg && pg ≤ 0x301) || pg == 0x400 ||
  (0x500 ≤ pg && pg ≤ 0x501) || (0x600 ≤ pg && pg ≤ 0x602) || (0x700 ≤ pg && pg ≤ 0x701) ||
  (0x800 ≤ pg && pg ≤ 0x9FF) || (0xA00 ≤ pg && pg ≤ 0xA03) || (0xB00 ≤ pg && pg ≤ 0xB01) ||
  (0xC00 ≤ pg && pg ≤ 0xC01) || (0xD00 ≤ pg && pg ≤ 0xD02) || pg == 0xEFF || (0xF00 ≤ pg && pg ≤ 0xF57) ||
  pg == 0x1000

/-- The block index of a page (Table REG-2). -/
def pageBlock (pg : Nat) : Nat := if pg / 0x100 ≤ 8 then pg / 0x100 else pg / 0x100 - 1

/-- CAP0.INT_BITS of a block. -/
def intBits (blk : Nat) : Nat := [0, 8, 3, 4, 5, 5, 8, 5, 5, 8, 6, 5, 6, 4, 6, 4].getD blk 0

/-- CAP0.PAGES of a block. -/
def blockPages (blk : Nat) : Nat := [1, 3, 1, 2, 1, 2, 3, 2, 512, 4, 2, 2, 3, 1, 88, 1].getD blk 0

/-- The channel group of an FCH port page, if the page is one. -/
def pagePort (pg : Nat) : Option Nat := if 0x800 ≤ pg ∧ pg ≤ 0x9FF then some (pg - 0x800) else none

/-- A page's island has power: a port page's data-plane domain is ON (R49). -/
def Dev.powered (d : Dev) (pg : Nat) : Bool :=
  match pagePort pg with
  | some p => d.domSt (p / 8) == 0
  | none => true

/-- STS.READY: the device is released, the island has power and no SOFT_RST runs (R46, R49). -/
def Dev.pageReady (d : Dev) (pg : Nat) : Bool := d.released && d.powered pg && !(d.page pg).softRst

/-- The page is unlocked: unlocked by a write and no 2^20 ticks without a write since (R50). -/
def Dev.unlocked (d : Dev) (pg : Nat) : Bool :=
  (d.page pg).unlocked && decide (d.tick < (d.page pg).lastWr + 2 ^ 20)

/-- INT_VEC.VECTOR: the block index until written. -/
def Dev.pageVec (d : Dev) (pg : Nat) : Nat := ((d.page pg).vecSet).getD (pageBlock pg)

/-- The page's line: the OR of INT_PEND & INT_EN. -/
def Page.line (p : Page) : Bool := p.intPend &&& p.intEn != 0

/-- Record an error in a page's header (R45); of a value wider than ERR_INFO0 or ERR_INFO1 the low 32 bits (DESIGN CHOICE, log 252). -/
def Dev.recordErr (d : Dev) (pg code i0 i1 : Nat) : Dev :=
  let p := d.page pg
  if p.err then d.setPage pg { p with overflow := satN 16 (p.overflow + 1) }
  else d.setPage pg
    { p with err := true, errCode := code, info0 := w32 i0, info1 := w32 i1, errTick := d.tick }

/-! ### Interrupts -/

/-- A head is up. -/
def Dev.headUp (d : Dev) (h : Nat) : Bool := h < 4 && d.flag (Reg.HIF_LINK_STS h) 0

/-- The lowest-numbered head that is up and has MGR = 1 (R66). -/
def Dev.mgrHead (d : Dev) : Option Nat :=
  [0, 1, 2, 3].find? (fun h => d.headUp h && d.flag Reg.HIF_HEAD_CTL h)

/-- An MSI-X vector is masked: bit 0 of its vector control, which resets to 1 (PCIe). -/
def msixReset (i : Nat) : Word := if i % 4 = 3 then 1 else 0

/-- The registers of a head's configuration space that the spec or its MSI-X rules give an effect or a value (R62, R64, R71), by the
model's own numbers (log 27): 0 MSI-X message control ([15] Enable, [14] Function Mask, [10:0] table size less 1), 1 Memory_Active_Timeout in
seconds, 2 Global Persistent Flush Phase 2 Duration in ms, 3 its Phase 2 Power in watts, 4 to 8 the HDM decoder (base low and high, size low and high,
control). -/
def cfgReset (k : Nat) : Word :=
  match k % 16 with
  | 0 => 0x7FF
  | 1 => 4
  | 2 => 1
  | 3 => 185
  | _ => 0

/-- A register of a head's configuration space. -/
def Dev.cfgReg (d : Dev) (head i : Nat) : Word := SMap.get cfgReset d.cfg (16 * head + i)

/-- MSI-X is enabled on a head and its function mask is clear: its unmasked vectors may be sent (R52, PCIe). -/
def Dev.msixOn (d : Dev) (head : Nat) : Bool := bitAt (d.cfgReg head 0) 15 && !bitAt (d.cfgReg head 0) 14

/-- The vector may be sent on a head: MSI-X is on there and the vector's own mask is clear. -/
def Dev.vecOpen (d : Dev) (head vec : Nat) : Bool := d.msixOn head && !bitAt (SMap.get msixReset d.msixTbl (4 * vec + 3)) 0

/-- Send the MSI-X message of a vector on a head; a vector that may not be sent there, or one with no head to send on, sets its
pending bit (R52, R53). -/
def Dev.msix (d : Dev) (head : Option Nat) (vec : Nat) : Dev :=
  match head with
  | some h => if d.vecOpen h vec then d.emit (.msix h vec) else { d with pba := insertSorted d.pba vec }
  | none => { d with pba := insertSorted d.pba vec }

/-- Send a pending vector if it may go out now. -/
def Dev.pbaSend (d : Dev) (head : Option Nat) (vec : Nat) : Dev :=
  match head with
  | some h => if d.pba.contains vec && d.vecOpen h vec then { d with pba := d.pba.filter (· != vec) }.emit (.msix h vec) else d
  | none => d

/-- The cause of a pending vector still stands: a line asserted on a page that uses the vector, or a completion queue of the vector with
entries that the host has not consumed. -/
def Dev.vecCause (d : Dev) (v : Nat) : Bool :=
  if v < 32 then d.pages.any (fun kv => kv.2.line && d.pageVec kv.1 == v)
  else d.queues.any (fun kv => kv.2.vector == v && kv.2.cqPosted != kv.2.cqHead)

/-- A pending bit whose cause has been cleared or disabled is cleared without a message (R52: the PCIe MSI-X rules). -/
def Dev.pbaSettle (d : Dev) : Dev := { d with pba := d.pba.filter d.vecCause }

/-- Send a page's block-interrupt message (R66: on the manager's head). -/
def Dev.pageMsix (d : Dev) (pg : Nat) : Dev := d.msix d.mgrHead (d.pageVec pg)

/-- An event source fires (R51): its INT_PEND bit latches, and the message goes out when the line rises. -/
def Dev.raise0 (d : Dev) (pg bit : Nat) : Dev :=
  let p := d.page pg
  let p' := { p with intPend := putBit p.intPend bit true }
  let d' := d.setPage pg p'
  if !p.line && p'.line then d'.pageMsix pg else d'

/-- PWR_BIAS_NOW for a mode and a VCORE target (Table PWR-7): forward bias reads positive, reverse negative. -/
def biasWord (mode code : Nat) : Word :=
  let bias : Nat := if mode = 2 then 226 else if mode = 1 then 241 else if code < 144 then 10 else 0
  let low := decide (mode ≤ 1) && decide (code < 148)
  w32 (code % 256 + 2 ^ 8 * bias + 2 ^ 16 * bias + 2 ^ 24 * low.toNat + 2 ^ 25 * (mode == 2).toNat)

/-- The 16-bit frame of a VCORE target (R531): command 5, the code, and odd parity over bits [14:1]. -/
def vidWord (code : Nat) : Nat :=
  let w := 0x5000 + 16 * (code % 256)
  let ones := ((List.range 14).filter (fun i => w.testBit (i + 1))).length
  w + (if ones % 2 = 0 then 1 else 0)

/-- Publish a VCORE target and the settings in force. -/
def Dev.setBias (d : Dev) (code : Nat) : Dev := d.setReg Reg.PWR_BIAS_NOW (biasWord d.mode code)

/-- Change the global mode (R413): both MODE fields, the bias settings, MODE_CHG. -/
def Dev.setMode (d : Dev) (m : Nat) : Dev :=
  let d := (d.setFld Reg.PWR_MODE_STS 2 0 m).setFld Reg.GLB_DEV_STS 12 10 (if m ≤ 2 then m else 0)
  (d.setBias (d.fld Reg.PWR_BIAS_NOW 7 0)).raise0 0xD00 0

/-- What needs a firmware core returns the controller from IDLE to RUN (R414). -/
def Dev.toRun (d : Dev) : Dev := if d.mode = 1 then d.setMode 0 else d

/-- An event source fires, and the firmware cores handle it. -/
def Dev.raise (d : Dev) (pg bit : Nat) : Dev := (d.raise0 pg bit).toRun

/-- BAR0 and BAR4 decode on a head (R63, R485): it is up, its MGR bit is set, and replay leaves only head 0. -/
def Dev.mgrOn (d : Dev) (head : Nat) : Bool :=
  d.headUp head && d.flag Reg.HIF_HEAD_CTL head && (!d.flag Reg.SCP_RP_STS 0 || head == 0)

/-! ### Work of a block held by its page (R558) -/

/-- Some page in the range stops work that its block has accepted: FREEZE = 1, ISOLATE = 1 or a SOFT_RST running; never while the
dump runs (R46, R558). -/
def Dev.pagesStop (d : Dev) (lo hi : Nat) : Bool :=
  !d.dumping && d.pages.any (fun kv => lo ≤ kv.1 && kv.1 ≤ hi && (kv.2.freeze || kv.2.isolate || kv.2.softRst))

/-- Some page in the range keeps new work from its block: EN = 0, or what stops accepted work; never while the dump runs. -/
def Dev.pagesHold (d : Dev) (lo hi : Nat) : Bool :=
  d.pagesStop lo hi || (!d.dumping && d.pages.any (fun kv => lo ≤ kv.1 && kv.1 ≤ hi && !kv.2.en))

/-! New work of each block is held. -/

def Dev.hifHeld (d : Dev) : Bool := d.pagesHold 0x100 0x102
def Dev.cqeHeld (d : Dev) : Bool := d.pagesHold 0x200 0x200
def Dev.vslHeld (d : Dev) : Bool := d.pagesHold 0x300 0x301
def Dev.cryHeld (d : Dev) : Bool := d.pagesHold 0x400 0x400
def Dev.mapHeld (d : Dev) : Bool := d.pagesHold 0x500 0x501
def Dev.stkHeld (d : Dev) : Bool := d.pagesHold 0x600 0x602
def Dev.dlrHeld (d : Dev) : Bool := d.pagesHold 0x700 0x701
def Dev.eccHeld (d : Dev) : Bool := d.pagesHold 0xA00 0xA03
def Dev.shfHeld (d : Dev) : Bool := d.pagesHold 0xB00 0xB01
def Dev.twnHeld (d : Dev) : Bool := d.pagesHold 0xC00 0xC01
def Dev.pwrHeld (d : Dev) : Bool := d.pagesHold 0xD00 0xD02
def Dev.nvmHeld (d : Dev) : Bool := d.pagesHold 0xEFF 0xEFF
def Dev.scpHeld (d : Dev) : Bool := d.pagesHold 0xF57 0xF57

/-! Work that a block has accepted is stopped. -/

def Dev.hifStop (d : Dev) : Bool := d.pagesStop 0x100 0x102
def Dev.cqeStop (d : Dev) : Bool := d.pagesStop 0x200 0x200
def Dev.vslStop (d : Dev) : Bool := d.pagesStop 0x300 0x301
def Dev.cryStop (d : Dev) : Bool := d.pagesStop 0x400 0x400
def Dev.mapStop (d : Dev) : Bool := d.pagesStop 0x500 0x501
def Dev.stkStop (d : Dev) : Bool := d.pagesStop 0x600 0x602
def Dev.dlrStop (d : Dev) : Bool := d.pagesStop 0x700 0x701
def Dev.eccStop (d : Dev) : Bool := d.pagesStop 0xA00 0xA03
def Dev.shfStop (d : Dev) : Bool := d.pagesStop 0xB00 0xB01
def Dev.twnStop (d : Dev) : Bool := d.pagesStop 0xC00 0xC01
def Dev.pwrStop (d : Dev) : Bool := d.pagesStop 0xD00 0xD02
def Dev.nvmStop (d : Dev) : Bool := d.pagesStop 0xEFF 0xEFF
def Dev.scpStop (d : Dev) : Bool := d.pagesStop 0xF57 0xF57
def Dev.tstStop (d : Dev) : Bool := d.pagesStop 0x1000 0x1000

/-- A block that a unit of a fetched command passes through holds it; the command queue itself has accepted the command (R558). -/
def Dev.dataHeld (d : Dev) : Bool :=
  d.hifHeld || d.cqeStop || d.vslHeld || d.cryHeld || d.mapHeld || d.stkHeld || d.dlrHeld || d.eccHeld || d.shfHeld

/-- Capture stops: STOPPED is set and CAP_STOP raised (R482, R483). -/
def Dev.capStop (d : Dev) : Dev :=
  if d.flag Reg.SCP_CAP_STS 0 then
    { ((d.setFlag Reg.SCP_CAP_STS 0 false).setFlag Reg.SCP_CAP_STS 2 true).raise 0xF57 2 with
      cap := { d.cap with post := none } }
  else d

/-- Power loss, DEEP or OFF entry or a reset stops capture; the next one begins with a GAP record of this source (R483). -/
def Dev.capPower (d : Dev) (src : Nat) : Dev :=
  if d.flag Reg.SCP_CAP_STS 0 then { d.capStop with cap := { d.capStop.cap with gap := src } } else d

/-- The capture trigger (R482): TRIGGERED is set, and POST more segments are written. -/
def Dev.capTrigger (d : Dev) : Dev :=
  let n := d.fld Reg.SCP_CAP_CTL 31 16
  let d : Dev := { (d.setFlag Reg.SCP_CAP_STS 1 true).raise 0xF57 1 with cap := { d.cap with post := some n, trigAt := some d.cap.rnum } }
  if n = 0 then d.capStop else d

/-- Count a residue or ECC event in a page's CHK_CNT, which saturates (R43). -/
def Dev.chkCount (d : Dev) (pg : Nat) : Dev :=
  d.setPage pg { d.page pg with chkCnt := w32 (satN 32 ((d.page pg).chkCnt.toNat + 1)) }

/-! ### Incidents (R471) -/

/-- Log an incident: the next entry of the sheet, or LOST when it holds 4,096 (INFO_FULL raised on the first
drop); a capture trigger that matches sets TRIGGERED (R482). -/
def Dev.logIncident (d : Dev) (e : Incident) : Dev :=
  let trig := d.flag Reg.SCP_CAP_STS 0 && d.flag Reg.SCP_CAP_CTL 4 && !d.flag Reg.SCP_CAP_STS 1 &&
    (d.flag Reg.SCP_CAP_TRIG 24 ||
      (d.fld Reg.SCP_CAP_TRIG 15 0 == e.code && d.fld Reg.SCP_CAP_TRIG 23 16 == e.block))
  let d := if trig then d.capTrigger else d
  if d.incidents.length < 4096 then
    let n := d.incidents.length + 1
    let d := { d with incidents := d.incidents ++ [e] }
    (d.setFld Reg.SCP_INC_STS 12 0 n).setFlag Reg.SCP_INC_STS 13 (n == 4096)
  else
    let first := d.fld Reg.SCP_INC_STS 31 16 == 0
    let d := d.incFld Reg.SCP_INC_STS 31 16 1
    if first then d.raise 0xF00 0 else d

/-- An incident happens; while the sheet's page holds its work it waits there (R558). -/
def Dev.incident (d : Dev) (blk code i0 i1 : Nat) (slice lba loc page : Option Nat) : Dev :=
  let e : Incident :=
    { block := blk, code := code, coarse := d.coarse, epoch := d.epoch, tick := d.tick, info0 := i0, info1 := i1,
      slice := slice, lba := lba, caprec := if d.flag Reg.SCP_CAP_STS 0 then some d.cap.rnum else none,
      loc := loc, page := page, journaled := false }
  if d.pagesHold 0xF00 0xF00 then { d with incWait := d.incWait ++ [e] } else d.logIncident e

/-- The incidents that waited are logged once nothing holds the sheet's page. -/
def Dev.incRelease (d : Dev) : Dev :=
  if d.pagesHold 0xF00 0xF00 then d else d.incWait.foldl Dev.logIncident { d with incWait := [] }

/-- An error that is also an incident: the same code and detail in the header and on the sheet. -/
def Dev.errIncident (d : Dev) (pg code i0 i1 : Nat) (slice lba loc page : Option Nat) : Dev :=
  (d.recordErr pg code i0 i1).incident (pageBlock pg) code i0 i1 slice lba loc page

/-! ### Capture records (R474 to R476, R479) -/

/-- The bytes of a record: its header and its body, up to a multiple of 8. -/
def CapRec.len (r : CapRec) : Nat := (24 + r.n + 7) / 8 * 8

/-- The bytes of the capture staging: 4 GiB (R475), less the retired pages of its region that no substitute takes (Table STK-5; log 230). -/
def Dev.capRoom (d : Dev) : Nat :=
  2 ^ 32 - 65536 * d.hbmRetired.countP (fun q => (decide (0x220000 ≤ q) && decide (q < 0x230000)) || (decide (0x238000 ≤ q) && decide (q < 0x23FC00)))

/-- A record goes into the staging area with the next RNUM; a full staging area loses records until it falls below half. -/
def Cap.add (room : Nat) (c : Cap) (r : CapRec) : Cap :=
  if c.spill then { c with lost := c.lost + 1 }
  else if room < c.staged + r.len then { c with spill := true, lost := 1 }
  else { c with staged := c.staged + r.len, rnum := (c.rnum + 1) % 2 ^ 64, recs := c.recs ++ [r] }

/-- Capture takes a record: what it holds, and its body as `n` bytes. -/
def Dev.capAdd (d : Dev) (kind src flags : Nat) (words : List Nat) (n body : Nat) : Dev :=
  let r : CapRec := { kind := kind, src := src, flags := d.coarse.toNat + flags, tick := d.tick, rnum := d.cap.rnum, epoch := d.epoch,
                      words := words, n := n, body := body }
  if d.flag Reg.SCP_CAP_STS 0 then { d with cap := d.cap.add d.capRoom r } else d

/-- A record whose body Table SCP-5 lays out. -/
def Dev.capRec (d : Dev) (kind src : Nat) (fs : Fields) : Dev := d.capAdd kind src 0 (fs.map Prod.snd) (payLen fs) (payVal fs)

/-- A record that no key material enters (R476): REDACTED is set. -/
def Dev.capRedacted (d : Dev) (kind src : Nat) (fs : Fields) : Dev := d.capAdd kind src 2 (fs.map Prod.snd) (payLen fs) (payVal fs)

/-- A record that ends in data: in full from a DATA level on, its CRC-64 with DIGEST below it (R480). -/
def Dev.capData (d : Dev) (kind src level : Nat) (fs : Fields) (len data : Nat) : Dev :=
  if level ≤ d.fld Reg.SCP_CAP_CTL 3 2 then d.capRec kind src (fs ++ [(len, data)])
  else
    let fs := fs ++ [(8, crc64 (toBytes data len))]
    d.capAdd kind src 4 (fs.map Prod.snd) (payLen fs) (payVal fs)

/-- A record whose body Table SCP-5 names without a layout: its bytes are a free value, their number too (log 176). -/
def Dev.capRecFree (d : Dev) (kind src : Nat) (words : List Nat) : Dev :=
  if d.flag Reg.SCP_CAP_STS 0 then
    (d.capAdd kind src 0 words (8 * (d.freeVal % 8189)) d.drawn.freeVal).drawn.drawn
  else d

/-- The head of the access in progress: the one it came on, else the lowest on which BAR0 decodes (DESIGN CHOICE, log 233). -/
def Dev.accessHead (d : Dev) : Nat := d.accHead.getD (([0, 1, 2, 3].find? d.mgrOn).getD 0)

/-- Registers that hold key material (R476): CRY_KEK, CRY_XBUF, TWN_PAIRKEY and SCP_CAPKEY. -/
def isSecret (off : Nat) : Bool :=
  (0x400180 ≤ off && off < 0x4001A0) || (0x400200 ≤ off && off < 0x400280) || (0xC00180 ≤ off && off < 0xC001A0) ||
  (0xF57140 ≤ off && off < 0xF57160)

/-- The record of a register write: SRC names the BAR, 0, 1 or 2 for BAR0, BAR2 or BAR4 (DESIGN CHOICE, log 233), and the head. -/
def Dev.capWrite (d : Dev) (bar off : Nat) (v : Word) : Dev :=
  let src := bar + 4 * d.accessHead
  if bar = 0 ∧ isSecret off then d.capRedacted 0x10 src [(4, off), (4, 0)] else d.capRec 0x10 src [(4, off), (4, v.toNat)]

/-- Replay runs: the host ports are fenced (R485). -/
def Dev.rpFence (d : Dev) : Bool := d.flag Reg.SCP_RP_STS 0

/-! ### Scorepad samples (R462 to R468) -/

/-- The bin of a sample (R463). -/
def binOf (v shift : Nat) : Nat :=
  let u := v / 2 ^ shift
  if u < 4 then u
  else
    let e := Nat.log2 u
    if e > 16 then 63 else 4 * (e - 1) + u / 2 ^ (e - 2) - 4

/-- Add a sample to a window (R464, R468). -/
def BankWin.add (w : BankWin) (v shift tick epoch : Nat) (coarse : Bool) : BankWin :=
  let b := binOf v shift
  let old := SMap.get (fun _ => 0) w.bins b
  let w := { w with
    bins := SMap.set (fun _ => 0) w.bins b (satN 48 (old + 1)), count := satN 48 (w.count + 1),
    sum := satN 64 (w.sum + v),
    sat := w.sat || decide (2 ^ 48 ≤ old + 1) || decide (2 ^ 48 ≤ w.count + 1) || decide (2 ^ 64 ≤ w.sum + v) }
  let first := w.count == 1
  let w := if first || v < w.min then { w with min := v, minTick := tick, minEpoch := epoch, minCoarse := coarse } else w
  if first || w.max < v then { w with max := v, maxTick := tick, maxEpoch := epoch, maxCoarse := coarse } else w

/-- A bank. -/
def Dev.bank (d : Dev) (b : Nat) : Bank := SMap.get (fun _ => Bank.reset) d.banks b

/-- Replace a bank. -/
def Dev.setBank (d : Dev) (b : Nat) (x : Bank) : Dev :=
  { d with banks := SMap.set (fun _ => Bank.reset) d.banks b x }

/-- A bank takes samples of a source with these selectors: EN, SOURCE and each enabled filter match. -/
def Dev.bankTakes (d : Dev) (b src : Nat) (slice cls group : Option Nat) : Bool :=
  d.flag (Reg.SB_CFG b) 0 && d.fld (Reg.SB_CFG b) 15 8 == src &&
  (!d.flag (Reg.SB_FILT b) 10 || slice == some (d.fld (Reg.SB_FILT b) 9 0)) &&
  (!d.flag (Reg.SB_FILT b) 13 || cls == some (d.fld (Reg.SB_FILT b) 12 11)) &&
  (!d.flag (Reg.SB_FILT b) 20 || group == some (d.fld (Reg.SB_FILT b) 19 14)) &&
  (!d.flag (Reg.SB_CFG b) 1 || (d.bank b).running)

/-- The bank whose SB_CFG lies at an offset. -/
def bankOfCfg (off : Nat) : Option Nat :=
  if 0xF01000 ≤ off ∧ off < 0xF57000 ∧ 0x100 ≤ off % 0x1000 ∧ (off % 0x1000 - 0x100) % 0x500 = 4 then
    some (3 * (off / 0x1000 - 0xF01) + (off % 0x1000 - 0x100) / 0x500)
  else none

/-- A windowed bank's closing tick has come and its window has not been closed yet. -/
def Bank.closing (k : Bank) (win : Nat) : Bool := k.running && decide (win ≤ k.groups)

/-- Close a bank's window at its closing tick (R465): LAST takes it, and a new one starts in CUR. -/
def Bank.closeAt (k : Bank) (t : Nat) : Bank :=
  { k with last := k.cur, cur := BankWin.empty t, groups := 0, closed := satN 16 (k.closed + 1), lastDue := some (t + 4096) }

/-- The closing tick of the window that is due to close: a window's edges are trick-group boundaries, and the boundary leaves the
tick here. -/
def Bank.closingTick (k : Bank) (now : Nat) : Nat := match k.lastDue with | some t => t - 4096 | none => now

/-- Add one sample to a bank; one stamped at or after a closing tick belongs to the next window (R465, R466). -/
def Dev.bankAdd (d : Dev) (x : Nat × Nat × Nat × Nat × Bool) : Dev :=
  let k := d.bank x.1
  let k := if d.flag (Reg.SB_CFG x.1) 1 && k.closing (d.fld (Reg.SB_WIN x.1) 15 0) then k.closeAt (k.closingTick x.2.2.1) else k
  d.setBank x.1 { k with cur := k.cur.add x.2.1 (d.fld (Reg.SB_CFG x.1) 20 16) x.2.2.1 x.2.2.2.1 x.2.2.2.2 }

/-- The page of a bank. -/
def bankPage (b : Nat) : Nat := 0xF01 + b / 3

/-- Deliver one sample, stamped now, to every bank that takes it; it waits for a bank whose page holds its work (R558). -/
def Dev.score (d : Dev) (src v : Nat) (slice cls group : Option Nat) : Dev :=
  (d.regs.filterMap (fun kv => bankOfCfg kv.1)).foldl (fun d b =>
    let x := (b, v, d.tick, d.epoch, d.coarse)
    if !d.bankTakes b src slice cls group then d
    else if d.pagesHold (bankPage b) (bankPage b) then { d with sbWait := d.sbWait ++ [x] }
    else d.bankAdd x) d

/-- The samples that waited for the banks of a page are added once nothing holds it. -/
def Dev.bankRelease (d : Dev) (pg : Nat) : Dev :=
  if d.pagesHold pg pg then d
  else (d.sbWait.filter (fun x => bankPage x.1 == pg)).foldl Dev.bankAdd { d with sbWait := d.sbWait.filter (fun x => bankPage x.1 != pg) }

/-! ### The frames -/

/-- What acts on the board beside the controller (a bridge, a supply), which no supply of the controller stops. -/
def actBoard (s : State) (f : Dev → Dev) : Host.Outcome State Fault Refusal := .next { s with dev := f s.dev }

/-- A command to the controller that changes neither byte memory: after VAO was lost with the main rails up what the controller
does is undefined (R542). -/
def actAny (s : State) (f : Dev → Dev) : Host.Outcome State Fault Refusal :=
  if s.dev.supplyLost then .fault .undefinedSupply else .next { s with dev := f s.dev }

/-- A command to the always-on island: nothing happens without VAO. -/
def actAo (s : State) (f : Dev → Dev) : Host.Outcome State Fault Refusal :=
  actAny s (fun d => if d.aoUp then f d else d)

/-- A command to the rest of the controller: nothing happens while the main rails are off. -/
def act (s : State) (f : Dev → Dev) : Host.Outcome State Fault Refusal :=
  actAny s (fun d => if d.pgMain then f d else d)

/-- Store runs of bytes into the flash array at or above the boot loader's sectors (R443). -/
def storeArray (m : Memory) (sts : List (Nat × List Byte)) : Memory :=
  sts.foldl (fun m st => if st.1 < 0x100000 then m else Memory.writeList arrayDflt m st.1 st.2) m

/-- Store runs of bytes into the persistent window. -/
def storeWindow (m : Memory) (sts : List (Nat × List Byte)) : Memory :=
  sts.foldl (fun m st => Memory.writeList windowDflt m st.1 st.2) m

/-- A command to the always-on island that may also store bytes into the flash array. -/
def actArray (s : State) (f : Memory → Dev → Dev) (g : Memory → Dev → List (Nat × List Byte)) :
    Host.Outcome State Fault Refusal :=
  if s.dev.supplyLost then .fault .undefinedSupply
  else if s.dev.aoUp then
    .next { s with dev := f s.array s.dev, array := storeArray s.array (g s.array s.dev) }
  else .next s

/-- A command that may also store bytes into the persistent window; nothing happens while the main rails are off. -/
def actWindow (s : State) (f : Memory → Dev → Dev) (g : Memory → Dev → List (Nat × List Byte)) :
    Host.Outcome State Fault Refusal :=
  if s.dev.supplyLost then .fault .undefinedSupply
  else if s.dev.pgMain then
    .next { s with dev := f s.window s.dev, window := storeWindow s.window (g s.window s.dev) }
  else .next s

/-- A command to the always-on island that may also store bytes into the persistent window. -/
def actAoWindow (s : State) (f : Dev → Dev) (g : Dev → List (Nat × List Byte)) : Host.Outcome State Fault Refusal :=
  if s.dev.supplyLost then .fault .undefinedSupply
  else if s.dev.aoUp then .next { s with dev := f s.dev, window := storeWindow s.window (g s.dev) }
  else .next s

end Sys2Proof.Machine
end

