-- ==== Sys2Proof/Machine/Wire.lean ====
section
/-! DEFINITION. What the Gulon link carries (chapter 13): message headers, the fields of each payload, session keys and tags, sending and
sending again, and the journal records that go to the twin (R25). -/

namespace Sys2Proof.Machine

/-! ### Payload fields -/

/-! Table TWN-2 names what each message carries and gives no layout: the fields stand in the table's order (DESIGN CHOICE, log 215). -/

/-- Signed 64-bit values. -/
def f64 (i : Int) : Nat × Nat := (8, (i % 2 ^ 64).toNat)

/-- The bits of a delta record (Table MAP-3): the entry, the granule with its slice, the CRC. -/
def deltaBits (slice granule entry : Nat) : Nat :=
  let body := entry % 2 ^ 64 + 2 ^ 64 * (granule % 2 ^ 37 + slice % 1024 * 2 ^ 37)
  body + 2 ^ 112 * crc16 (toBytes body 14)

/-- A list of records behind its length. -/
def listFs {α : Type} (f : α → Fields) (l : List α) : Fields := (4, l.length) :: l.flatMap f

end Sys2Proof.Machine

namespace Sys2Proof

open Sys2Proof.Machine

/-- The fields of each record that a message carries. -/
def MDelta.fs (x : MDelta) : Fields := [(16, deltaBits x.slice x.granule x.entry)]

/-- A bitmap record (Table SHF-4). -/
def MBitmap.bits (x : MBitmap) : Nat :=
  let body := 0x4C445242 + 2 ^ 32 * (x.kind % 256) + 2 ^ 64 * (x.seq % 2 ^ 64) + 2 ^ 128 * (x.band % 2 ^ 23) + 2 ^ 192 * (x.regions % 2 ^ 64) +
    2 ^ 256 * (x.tick % 2 ^ 64) + 2 ^ 320 * (x.epoch % 2 ^ 16)
  body + 2 ^ 448 * crc64 (toBytes body 56)

def MSlice.fs (x : MSlice) : Fields :=
  [(2, x.slice), (1, x.st), (4, x.pasid), (8, x.blks), (2, x.share), (1, x.tshare), (1, x.trumpEn.toNat), (1, x.qpMax), (4, x.pin), (4, x.hdrm),
   (1, x.sgen), (8, x.hdrmUsed)]

def MCtx.fs (x : MCtx) : Fields :=
  [(2, x.ctx), (1, x.zeroed.toNat), (2, x.keygen), (8, x.mark0), (8, x.mark1)] ++
  (match x.wrapped with | some w => [(1, 1), (128, w)] | none => [(1, 0)])

def MQueue.fs (x : MQueue) : Fields :=
  [(2, x.qid), (1, x.en.toNat), (1, x.ien.toNat), (1, x.coalN), (1, x.coalUs), (2, x.vector), (8, x.sqb), (8, x.cqb), (2, x.sqHead), (2, x.sqTail),
   (2, x.cqPosted), (2, x.cqHead), (1, x.qgen)]

/-- One block: its 4,096 bytes as stored, seal, cipher record and poison mark. -/
def MBlk.fs (x : MBlk) : Fields := [(4096, x.data), (16, x.sl), (24, x.crec), (1, x.poison.toNat)]

def MVer.fs (x : MVer) : Fields :=
  [(2, x.slice), (5, x.granule), (3, x.gver), (1, x.pwin.toNat), (1, x.blks.length)] ++ x.blks.flatMap MBlk.fs

def JBatch.fs (b : JBatch) : Fields :=
  listFs MDelta.fs b.deltas ++ listFs (fun x => [(2, x.1), (1, x.2.1), (8, x.2.2)]) b.marks ++ listFs MSlice.fs b.slices ++
  listFs (fun x => [(4, x.1), (1, x.2)]) b.bands ++
  listFs (fun x => [(4, x.1), (1, x.2.1), (2, x.2.2.1), (1, x.2.2.2.1), (2, x.2.2.2.2)]) b.sets ++
  listFs (fun x => [(64, x.bits)]) b.bitmaps ++ listFs MCtx.fs b.ctxs ++ listFs (fun x => [(1, x.1), (1, x.2)]) b.doms ++
  listFs (fun x => [(1, x.1), (1, x.2.1), (8, x.2.2.1), (2, x.2.2.2)]) b.health

def Hello.fs (h : Hello) : Fields :=
  [(8, h.serial), (4, h.ver), (1, h.fwMajor), (4, h.seed), (4, h.bandsFmt), (1, h.segs), (2, h.fence), (1, h.stop), (8, h.dumpSeq), (40, h.wkey)] ++
  (match h.wshelf with | some w => [(40, w)] | none => [])

/-- No record. -/
def JBatch.none : JBatch := { deltas := [], marks := [], slices := [], bands := [], sets := [], bitmaps := [], ctxs := [], doms := [], health := [] }

end Sys2Proof

namespace Sys2Proof.Machine

/-- MIRROR: the versions placed, and the journal records of the write. -/
def mirrorFs (vers : List MVer) (b : JBatch) : Fields := listFs MVer.fs vers ++ b.fs

/-- Stores to the window: offset, length, bytes. -/
def storeFs (l : List (Nat × List Byte)) : Fields :=
  l.flatMap (fun x => [(8, x.1), (4, x.2.length), (x.2.length, ofBytes (x.2.map BitVec.toNat))])

/-- SYNC (R409): versions, journal records, FENCE, window bytes. -/
def syncFs (vers : List MVer) (b : JBatch) (fence : Nat) (windowBytes : List (Nat × List Byte)) : Fields :=
  mirrorFs vers b ++ [(2, fence)] ++ (4, windowBytes.length) :: storeFs windowBytes

/-- MOVE (R411): a slice with its queue and key contexts. -/
def moveFs (slice : MSlice) (queues : List MQueue) (ctxs : List MCtx) : Fields := slice.fs ++ listFs MQueue.fs queues ++ listFs MCtx.fs ctxs

/-- FREE (R397): slice, granule and GVER of each copy. -/
def freeFs (slots : List (Nat × Nat × Nat)) : Fields := listFs (fun x => [(2, x.1), (5, x.2.1), (3, x.2.2)]) slots

/-- PARTIAL (R394): a request, or the sum for each erased codeword of the column. -/
def partialFs (request : Bool) (band stripe column : Nat) (sums : List Nat) : Fields :=
  [(1, request.toNat), (4, band), (2, stripe), (1, column)] ++ listFs (fun x => [(4160, x)]) sums

/-- REMOTE_OP: the bridge's port, opcode, die, block, page, slice, the slice and queue generations, class (R394). -/
def remoteOpFs (port opc die block page slice sgen qgen cls : Nat) : Fields :=
  [(2, port), (1, opc), (1, die), (2, block), (2, page), (2, slice), (1, sgen), (1, qgen), (1, cls)]

/-- REMOTE_DONE: the MNUM of the REMOTE_OP, a status, and the hard-decoded codewords of a read. -/
def remoteDoneFs (id status : Nat) (data : List Nat) : Fields := (8, id) :: (1, status) :: data.map (fun x => (1, x))

/-! ### Headers, IVs and tags (R384, R385) -/

/-- The 32-byte header (Table TWN-1). -/
def gHeader (kind : Nat) (last : Bool) (len mnum ack keyep side inv : Nat) : Nat :=
  kind + 2 ^ 8 * last.toNat + 2 ^ 32 * len + 2 ^ 64 * (mnum % 2 ^ 64) + 2 ^ 128 * (ack % 2 ^ 64) + 2 ^ 192 * (keyep % 2 ^ 16) +
  2 ^ 208 * (side % 2) + 2 ^ 224 * (inv % 2 ^ 32)

/-- The IV of a message as a 96-bit integer (R385). -/
def gIv (keyep side inv : Nat) : Nat := keyep % 2 ^ 16 * 2 ^ 80 + side % 2 * 2 ^ 72 + inv

/-- The tag of a message: the header is the additional data, the payload the text. -/
def gTag (key : Nat) (kind : Nat) (last : Bool) (mnum ack keyep side inv : Nat) (fs : Fields) : Nat :=
  let len := payLen fs
  let iv := gIv keyep side inv
  gcmTag key iv 32 (gHeader kind last len mnum ack keyep side inv) len (gcmText key iv len (payVal fs))

/-! ### Sending (R386) -/

/-- The twin is present: PAIRED, or PAIRED with the link back in KEYING after a tag failure (R387). -/
def Dev.paired (d : Dev) : Bool := d.twin == 3 || (d.twin == 1 && d.gPrev == 3)

/-- This unit's changes go to the twin: PAIRED, or SYNCING while this unit serves a joiner that has been sent SYNC (R409). -/
def Dev.mirrors (d : Dev) : Bool := d.paired || (d.serves && d.syncEnd.isSome && (d.twin == 2 || (d.twin == 1 && d.gPrev == 2)))

/-- ACK of the next message: the highest MNUM applied, all ones before the first. -/
def Dev.gAck (d : Dev) : Nat := (d.gRx + 2 ^ 64 - 1) % 2 ^ 64

/-- KEYEP of the transmit direction. -/
def Dev.txEpoch (d : Dev) : Nat := d.fld Reg.TWN_KEY_STS 15 0

/-- Put a message on the link: it takes the next INV under the session key (R385).  HELLO and HELLO_ACK, which carry the session key, go out in
clear with a tag that the spec gives no key for: a free value (log 216).  INV 2^31 is never sent (R388). -/
def Dev.putGulon (d : Dev) (kind mnum : Nat) (last : Bool) (fs : Fields) : Dev :=
  let inv := d.fld Reg.TWN_TX_INV 31 0
  if 2 ^ 31 ≤ inv then d
  else
    let len := payLen fs
    let hd := gHeader kind last len mnum d.gAck d.txEpoch d.side inv
    let d := if kind ≤ 2 then (d.emit (.gulon hd (payVal fs) (d.freeVal % 2 ^ 128))).drawn
      else d.emit (.gulon hd (gcmText d.sesTx (gIv d.txEpoch d.side inv) len (payVal fs)) (gTag d.sesTx kind last mnum d.gAck d.txEpoch d.side inv fs))
    { d.setReg Reg.TWN_TX_INV (w32 (inv + 1)) with gLastTx := d.tick, gSaid := d.gRx }

/-- The link may carry messages now: it is not in KEYING, and the next INV stays below 2^31 (R388). -/
def Dev.mayPut (d : Dev) : Bool := d.twin != 1 && decide (d.fld Reg.TWN_TX_INV 31 0 < 2 ^ 31)

/-- Send a message: it takes the next MNUM and is kept until an ACK covers it.  In KEYING, and when INV would reach 2^31
(R388), it waits; without a twin nothing is sent. -/
def Dev.sendPart (d : Dev) (kind : Nat) (last : Bool) (fs : Fields) : Dev :=
  if d.twin == 2 || d.paired || (d.twin == 1 && d.gPrev == 2) then
    let go := d.mayPut
    let d := if go then d.putGulon kind d.gTx last fs else d
    let d := { d with gPend := d.gPend ++ [(⟨d.gTx, kind, d.tick, last, fs, go⟩ : GSent)], gTx := d.gTx + 1 }
    d.setFld Reg.TWN_MIR_PEND 15 0 (satN 16 d.gPend.length)
  else d

/-- A message that is a batch of its own. -/
def Dev.sendGulon (d : Dev) (kind : Nat) (fs : Fields) : Dev := d.sendPart kind true fs

/-- Put messages that wait on the link again with their MNUM and a new INV (R387): all of them, or those that have not been sent. -/
def Dev.resend (d : Dev) (all : Bool) : Dev :=
  let d := d.gPend.foldl (fun (d : Dev) m => if all || !m.sent then d.putGulon m.kind m.mnum m.last m.words else d) d
  { d with gPend := d.gPend.map (fun (m : GSent) => { m with sent := true }) }

/-- Mirror journal records to the twin (R25). -/
def Dev.journal (d : Dev) (b : JBatch) : Dev := if d.mirrors then d.sendGulon 0x12 b.fs else d

/-- Mirror a band's change of state. -/
def Dev.journalBand (d : Dev) (b code : Nat) : Dev := d.journal { JBatch.none with bands := [(b, code)] }

end Sys2Proof.Machine
end

