-- ==== Sys2Proof/Machine/Layout.lean ====
section
/-! DEFINITION. The granule map, the map cache, space accounting, the stripe layout, flash content, blocks and seals
(chapters 07 and 11): the operations that commands share. -/

namespace Sys2Proof.Machine

/-! ### Opcodes and ranges -/

/-- The opcodes of Tables CQE-4, CQE-2, MAP-2 and R518. -/
def opRead : Nat := 0x01
def opWrite : Nat := 0x02
def opFlush : Nat := 0x03
def opDiscard : Nat := 0x04
def opVerify : Nat := 0x05
def opWriteZeroes : Nat := 0x06
def opSealRead : Nat := 0x07
def opCreateQp : Nat := 0x80
def opDeleteQp : Nat := 0x81
def opMapPin : Nat := 0x90
def opMapUnpin : Nat := 0x91
def opMapSpace : Nat := 0x92
def opHealthGet : Nat := 0xA0

/-- The granules a block range touches. -/
def granulesOf (lba nblk : Nat) : List Nat :=
  if nblk = 0 then [] else (List.range ((lba + nblk - 1) / 8 - lba / 8 + 1)).map (fun i => lba / 8 + i)

/-- The granules a write-type command places in the cache: all it touches, but for those a DISCARD covers whole,
which become UNMAPPED (R213, R363). -/
def Cmd.placedGranules (c : Cmd) : List Nat :=
  (granulesOf c.lba c.nblk).filter (fun (g : Nat) =>
    !(c.op == opDiscard && decide (c.lba ≤ 8 * g) && decide (8 * g + 8 ≤ c.lba + c.nblk)))

/-! ### Granules and the map -/

/-- Granules of a QLC band (G of chapter 07). -/
def bandGranules : Nat := 98304

/-- The map key of a granule. -/
def granKey (slice granule : Nat) : Nat := slice * 2 ^ 37 + granule

/-- The key of the map page that holds a granule's entry (R195). -/
def pageKey (slice granule : Nat) : Nat := slice * 2 ^ 25 + granule / 8192

/-- A granule never mapped. -/
def MapEnt.reset : MapEnt := { gver := 0, loc := none }

/-- A granule's map entry. -/
def Dev.ent (d : Dev) (slice granule : Nat) : MapEnt :=
  SMap.get (fun _ => MapEnt.reset) d.map (granKey slice granule)

/-- The map entry's 64 bits (Table MAP-1). -/
def entWord (e : MapEnt) : Nat :=
  match e.loc with
  | none => e.gver * 4
  | some l => (if l.slc then 2 else 1) + e.gver * 2 ^ 2 + l.half * 2 ^ 22 + l.page * 2 ^ 23 + l.block * 2 ^ 35 +
      l.die * 2 ^ 47 + l.port * 2 ^ 53

/-- The delta record of a map change (Table MAP-3). -/
def deltaRecord (slice granule : Nat) (e : MapEnt) : Nat := deltaBits slice granule (entWord e)

/-- Mirror the delta record of a map change (R25). -/
def Dev.journalDelta (d : Dev) (slice granule : Nat) (e : MapEnt) : Dev :=
  d.journal { JBatch.none with deltas := [{ slice := slice, granule := granule, entry := entWord e }] }

/-- Records that the delta log has to take: those it holds and those of changes that wait for the twin's ACK (R25, R200). -/
def Dev.dlogLoad (d : Dev) : Nat := d.dlog + (d.mapPend.filter (fun x => x.mnum.isSome)).length

/-- The delta log is full: it holds 134,217,728 records (R200, R201). -/
def Dev.dlogFull (d : Dev) : Bool := decide (134217728 ≤ d.dlogLoad)

/-- No map change commits while the log is full (R201): DLOG_STALL and error 0x0104, once. -/
def Dev.dlogStall (d : Dev) : Dev :=
  if d.dlogStalled then d
  else { d.recordErr 0x500 0x0104 d.dlog 0 with dlogStalled := true }.raise 0x500 3

/-- GVER `a` is newer than GVER `b` (R194). -/
def gverNewer (a b : Nat) : Bool :=
  let n := (a + 2 ^ 20 - b % 2 ^ 20) % 2 ^ 20
  decide (1 ≤ n) && decide (n < 2 ^ 19)

/-- VALID (Table MAP-5). -/
def Dev.valid (d : Dev) : Nat := d.get64 Reg.MAP_VALID_LO Reg.MAP_VALID_HI
def Dev.setValid (d : Dev) (n : Nat) : Dev := d.set64 Reg.MAP_VALID_LO Reg.MAP_VALID_HI n

/-- The granules of the writes that have passed the space test and are not placed yet (R211). -/
def Dev.passedGranules (d : Dev) : List Nat :=
  d.queues.flatMap (fun kv => (kv.2.cmds.filter (fun c => c.passed && !c.placed && !c.done && c.op != opDiscard)).flatMap
    (fun c => c.placedGranules.map (granKey (kv.1 / 16))))

/-- Recount VALID: the granules that are mapped or admitted to the cache, of all slices (Table MAP-5, R211). -/
def Dev.revalid (d : Dev) : Dev :=
  let mapped := (d.map.filter (fun kv => kv.2.loc.isSome)).map Prod.fst
  let cached := d.passedGranules.foldl insertSorted (d.cache.foldl (fun a v => insertSorted a (granKey v.slice v.granule)) [])
  d.setValid (mapped.length + (cached.filter (fun k => !mapped.contains k)).length)

/-! ### The map cache (R195 to R198) -/

/-- A map page exists: it has been written back, or the map cache holds it. -/
def Dev.mapExists (d : Dev) (pk : Nat) : Bool := (d.metaAt.find pk).isSome || d.resident.contains pk

/-- The slots that the directory takes: one 8-byte entry for each existing page (R195). -/
def Dev.dirSlots (d : Dev) : Nat :=
  ceilDiv (8 * (d.metaAt.length + (d.resident.filter (fun k => (d.metaAt.find k).isNone)).length)) 65536

/-- Map-cache slots for map pages (R197): less the directory's (R195) and those of retired HBM pages (Table STK-5). -/
def Dev.mapSlots (d : Dev) : Nat := 1441792 - d.dirSlots - (d.hbmRetired.filter (fun q => decide (q < 1441792))).length

/-- A map page is being written back. -/
def Dev.inBack (d : Dev) (pk : Nat) : Bool := d.metaBack.any (fun m => m.page == pk)

/-- The map pages whose changes are not in flash yet: the dirty ones and those being written back. -/
def Dev.dirtyAll (d : Dev) : List Nat := (d.metaBack.map MetaBack.page).filter (fun pk => !d.dirty.contains pk) ++ d.dirty

/-- A map page is pinned. -/
def Dev.pinned (d : Dev) (pk : Nat) : Bool :=
  (SMap.get (fun _ => Slice.reset) d.slices (pk / 2 ^ 25)).pinned.contains (pk % 2 ^ 25)

/-- A page that the sweep may take: it is not pinned, and neither its write-back nor a change of its entries is under way. -/
def Dev.mayEvict (d : Dev) (pk : Nat) : Bool := !d.pinned pk && !d.inBack pk && !d.mapPend.any (fun x => pageKey x.slice x.granule == pk)

/-- The victim of the second-chance sweep (R197): the first page that may go whose reference bit is clear, else the first that may go. -/
def Dev.sweepVictim (d : Dev) : Option Nat :=
  match d.resident.find? (fun k => d.mayEvict k && !d.refBits.contains k) with
  | some k => some k
  | none => d.resident.find? d.mayEvict

/-- Every slot of the map cache is taken. -/
def Dev.mapFull (d : Dev) : Bool := decide (d.mapSlots ≤ d.resident.length)

/-- A page may come into the map cache now: a slot is free, or the victim's is, once it is clean (R197: a dirty page is written back before
its slot is reused). -/
def Dev.mapRoom (d : Dev) : Bool := !d.mapFull || (match d.sweepVictim with | some v => !d.dirty.contains v | none => false)

/-- The sweep passes the pages before the victim, and all of them where every one was referenced: their reference bits are cleared, and those
before it come last. -/
def Dev.evict (d : Dev) (v : Nat) : Dev :=
  let before := d.resident.takeWhile (· != v)
  let after := (d.resident.dropWhile (· != v)).drop 1
  { d with resident := after ++ before, refBits := d.refBits.filter (fun k => k != v && !(before.contains k || (d.refBits.contains v && d.mayEvict k))) }

/-- More pages are resident than there are slots: the victim goes, once it is clean (R197, Table STK-5). -/
def Dev.trimCache (d : Dev) : Dev :=
  if d.mapSlots < d.resident.length then
    match d.sweepVictim with
    | some v => if d.dirty.contains v then d else d.evict v
    | none => d
  else d

/-- Bring a map page into the map cache, in the place of the victim when the cache is full; without room nothing changes (R197). -/
def Dev.makeResident (d : Dev) (pk : Nat) : Dev :=
  if d.resident.contains pk || !d.mapRoom then d
  else
    let d := match d.mapFull, d.sweepVictim with
      | true, some v => d.evict v
      | _, _ => d
    { d with resident := d.resident ++ [pk], mapWant := d.mapWant.erase pk }

/-- Entries of the page can be read and changed: it is resident, or does not exist yet and has room to come. -/
def Dev.pageHere (d : Dev) (pk : Nat) : Bool := d.resident.contains pk || (!d.mapExists pk && d.mapRoom)

/-- A lookup waits for a page's load at a class; concurrent misses share one load (R197). -/
def Dev.wantPage (d : Dev) (pk cls : Nat) : Dev :=
  { d with mapWant := SMap.insert d.mapWant pk (match d.mapWant.find pk with | some c => min c cls | none => cls) }

/-! ### Changes of the map (R25, R200, R201) -/

/-- Put a delta record into the log, change the entry and mark the map page dirty (R200). -/
def Dev.putEnt (d : Dev) (slice granule : Nat) (e : MapEnt) : Dev :=
  let pk := pageKey slice granule
  let d := { d with dlog := d.dlog + 1, map := SMap.set (fun _ => MapEnt.reset) d.map (granKey slice granule) e,
                    dlogRing := d.dlogRing ++ [(slice, granule, entWord e, false)], lost := d.lost.filter (· != granKey slice granule) }
  let d := d.setFld Reg.MAP_DLOG_USED 21 0 (d.dlog * 16 / 1024)
  let d := d.makeResident pk
  let d := if d.dirty.contains pk then d else { d with dirty := d.dirty ++ [pk] }
  (d.setFld Reg.MAP_CACHE_DIRTY 20 0 d.dirty.length).revalid

/-- The log has room for `n` more records (R201). -/
def Dev.dlogRoom (d : Dev) (n : Nat) : Bool := decide (d.dlogLoad + n ≤ 134217728)

/-- The slice's mapped granules, as map entries. -/
def Dev.mappedOf (d : Dev) (slice : Nat) : List (Nat × MapEnt) :=
  d.map.filter (fun kv => kv.1 / 2 ^ 37 == slice && kv.2.loc.isSome)

/-- LIMIT (R210). -/
def Dev.limit (d : Dev) : Nat := d.get64 Reg.MAP_LIMIT_LO Reg.MAP_LIMIT_HI

/-- Bands in service, the free figure and the watermarks (Table MAP-5, R218). -/
def Dev.nS (d : Dev) : Nat := d.fld Reg.MAP_BANDS 22 0
def Dev.fQ (d : Dev) : Nat := d.fld Reg.MAP_FQ 22 0
def Dev.wBg (d : Dev) : Nat := ceilDiv d.nS 16
def Dev.wFg (d : Dev) : Nat := ceilDiv d.nS 32
def Dev.wHard (d : Dev) : Nat := ceilDiv d.nS 64

/-- The collection mode that F_Q selects (Table MAP-6). -/
def Dev.gcModeOf (d : Dev) : Nat :=
  if d.wBg ≤ d.fQ then 0 else if d.wFg ≤ d.fQ then 1 else if d.wHard < d.fQ then 2 else 3

/-- The collection share in 1/256 of trick capacity (Table MAP-6, R219). -/
def Dev.gcShareOf (d : Dev) : Nat :=
  let lo := d.fld Reg.MAP_GC_CTL 15 8
  let hi := d.fld Reg.MAP_GC_CTL 23 16
  match d.gcModeOf with
  | 0 => 0
  | 1 => if d.flag Reg.MAP_GC_CTL 0 then lo else 0
  | 2 => lo + (hi - lo) * (d.wFg - d.fQ) / (d.wFg - d.wHard)
  | _ => hi

/-- A band. -/
def Dev.band (d : Dev) (b : Nat) : Band := SMap.get (fun _ => Band.reset) d.bands b
def Dev.setBand (d : Dev) (b : Nat) (x : Band) : Dev :=
  { d with bands := SMap.set (fun _ => Band.reset) d.bands b x }

/-- A band in a state other than FREE or withdrawn uses its space. -/
def Band.used (b : Band) : Bool := b.st != .free && b.st != .withdrawn

/-- Recompute the space quantities of Table MAP-5, the limit (R210), the watermarks (R218), the mode and the
share; a change of mode raises GC_MODE, entry to FOREGROUND zeroes the credit (R220). -/
def Dev.respace (d : Dev) : Dev :=
  let bs := d.bands.map Prod.snd
  let withdrawn := (bs.filter (fun b => b.st == .withdrawn)).length
  let nS := d.fld Reg.MAP_BANDS_FMT 22 0 - withdrawn
  let nMeta := (bs.filter (fun b => b.used && b.isMeta)).length
  let nQ := (bs.filter (fun b => b.used && !b.isMeta && !b.slc)).length
  let nSlc := (bs.filter (fun b => b.used && !b.isMeta && b.slc)).length
  let d := d.setFld Reg.MAP_BANDS 22 0 nS
  let d := d.setFld Reg.MAP_META 22 0 nMeta
  let d := d.setFld Reg.MAP_QLC_USED 22 0 nQ
  let d := d.setFld Reg.MAP_SLC_USED 22 0 nSlc
  let d := d.setFld Reg.MAP_FQ 22 0 (nS - nQ - nMeta)
  let d := d.setFld Reg.MAP_WM_BG 22 0 d.wBg
  let d := d.setFld Reg.MAP_WM_FG 22 0 d.wFg
  let d := d.setFld Reg.MAP_WM_HARD 22 0 d.wHard
  let cLog := d.get64 Reg.MAP_CLOG_LO Reg.MAP_CLOG_HI
  let d := d.set64 Reg.MAP_LIMIT_LO Reg.MAP_LIMIT_HI (min cLog ((nS - nMeta - d.wFg) * bandGranules))
  let old := d.fld Reg.MAP_GC_STS 1 0
  let new := d.gcModeOf
  let d := if new == 2 && old != 2 then { d with gcCredit := 0 } else d
  let d := d.setReg Reg.MAP_GC_CREDIT (wInt d.gcCredit)
  let d := (d.setFld Reg.MAP_GC_STS 1 0 new).setFld Reg.MAP_GC_STS 15 8 d.gcShareOf
  if new == old then d else d.raise 0x500 0

/-- The SLC buffer target N_SLC (R208). -/
def Dev.nSlcOf (d : Dev) : Nat := min (d.fld Reg.MAP_SLC_MAX 22 0) ((d.fQ - d.wBg) / 8)

/-! ### The shuffle layout (R323, R324) -/

/-- Port of position `j` of band `b`. -/
def layoutPort (seed b j : Nat) : Nat :=
  let h := (b * 0x9E3779B1 + seed) % 2 ^ 32
  let a := 2 * (h % 32) + 1
  let c := h / 32 % 64
  let s := h / 2048 % 8
  8 * ((c + a * j) % 64) + (s + 3 * j) % 8

/-- How many of the bands below `b` have a set on a port: the number of the port's sets already assigned. -/
def setsBefore (seed port : Nat) : Nat → Nat
  | 0 => 0
  | b + 1 => setsBefore seed port b +
      (if (List.range 19).any (fun j => layoutPort seed b j == port) then 1 else 0)

/-- The number of dies per port. -/
def Dev.diesPerPort (d : Dev) : Nat := if d.flag Reg.GLB_STRAP 2 then 64 else 32

/-- The 19 sets of a band as format assigns them: the die with the most unassigned sets, the lowest on a tie,
and its lowest unassigned block. -/
def Dev.formedSets (d : Dev) (b : Nat) : List BSet :=
  let seed := d.fld Reg.SHF_SEED 31 0
  (List.range 19).map (fun j =>
    let p := layoutPort seed b j
    let n := setsBefore seed p b
    { port := p, die := n % d.diesPerPort, block := n / d.diesPerPort, repl := false, erased := false, prog := 0,
      old := (p * 64 + n % d.diesPerPort) * 4096 + n / d.diesPerPort })

/-- The band's current sets. -/
def Dev.setsOf (d : Dev) (b : Nat) : List BSet :=
  let x := d.band b
  if x.sets.isEmpty then d.formedSets b else x.sets

/-- The role of position `j` in stripe `k` (R321): 0 to 15 data, 16 P, 17 Q, 18 R. -/
def roleOf (j k : Nat) : Nat := (j + k) % 19

/-- The position that holds data role `r` in stripe `k`. -/
def posOfRole (r k : Nat) : Nat := (r + 19 - k % 19) % 19

/-- Stripes of a band. -/
def Band.stripes (b : Band) : Nat := if b.slc then 768 else 3072

/-! ### Flash content -/

/-- The key of a page across the four planes. -/
def flashKey (port die block page : Nat) : Nat := ((port * 64 + die) * 4096 + block) * 4096 + page

/-- A page nothing has programmed. -/
def FPage.reset : FPage := { half0 := none, half1 := none, parity := false, slc := false, verified := false, par := [] }

def Dev.fpage (d : Dev) (k : Nat) : FPage := SMap.get (fun _ => FPage.reset) d.flash k
def Dev.setFPage (d : Dev) (k : Nat) (f : FPage) : Dev :=
  { d with flash := SMap.set (fun _ => FPage.reset) d.flash k f }

/-- The page key of a location. -/
def Loc.key (l : Loc) : Nat := flashKey l.port l.die l.block l.page

/-- The granule stored at a location. -/
def Dev.granAt (d : Dev) (l : Loc) : Option Gran :=
  if l.half = 0 then (d.fpage l.key).half0 else (d.fpage l.key).half1

/-- The stored granule that a map entry names: same slice and granule. -/
def Dev.stored (d : Dev) (slice granule : Nat) : Option Gran :=
  match (d.ent slice granule).loc with
  | none => none
  | some l =>
    match d.granAt l with
    | some g => if g.slice == slice && g.granule == granule then some g else none
    | none => none

/-! ### Blocks and seals -/

/-- The reference tag of a block (Table SHF-1). -/
def refTag (slice lba : Nat) : Nat := lba % 2 ^ 38 + slice % 1024 * 2 ^ 38

/-- The seal of plaintext written by a command. -/
def mkSeal (slice lba apptag flags data : Nat) : Seal :=
  { guard := guardOf data, reftag := refTag slice lba, apptag := apptag, version := 1, flags := flags }

/-- No cipher record. -/
def CRec.zero : CRec := { keyidx := 0, gcm := false, side := 0, keygen := 0, invoc := 0, tag := 0 }

/-- A filled block (R213, R327): zeros, application tag 0xFFFF, FILLED, not encrypted. -/
def filledBlk (slice lba : Nat) : Blk :=
  { data := 0, sl := mkSeal slice lba 0xFFFF 1 0, crec := CRec.zero, poison := false }

/-- FILLED. -/
def Blk.filled (b : Blk) : Bool := b.sl.flags.testBit 0

/-- A poisoned block: zero data, zero seal, zero cipher record (R336). -/
def poisonBlk : Blk :=
  { data := 0, sl := { guard := 0, reftag := 0, apptag := 0, version := 0, flags := 0 }, crec := CRec.zero, poison := true }

/-- The seal as a number (Table SHF-1). -/
def Seal.word (s : Seal) : Nat :=
  s.guard + 2 ^ 48 * s.reftag + 2 ^ 96 * s.apptag + 2 ^ 112 * s.version + 2 ^ 120 * s.flags

/-- The seal that a number spells. -/
def Seal.ofWord (w : Nat) : Seal :=
  { guard := leBytes w 0 6, reftag := leBytes w 6 6, apptag := leBytes w 12 2, version := leBytes w 14 1, flags := leBytes w 15 1 }

/-- A cipher record as its 24 bytes (Table CRY-6), and back. -/
def CRec.word (x : CRec) : Nat :=
  x.keyidx % 4 + 4 * x.gcm.toNat + 2 ^ 8 * (x.side % 2) + 2 ^ 16 * (x.keygen % 2 ^ 16) + 2 ^ 32 * (x.invoc % 2 ^ 32) + 2 ^ 64 * (x.tag % 2 ^ 128)
def CRec.ofWord (w : Nat) : CRec :=
  { keyidx := w % 4, gcm := w.testBit 2, side := leBytes w 1 1 % 2, keygen := leBytes w 2 2, invoc := leBytes w 4 4, tag := leBytes w 8 16 }

end Sys2Proof.Machine
end

