-- ==== Sys2Proof/Machine/Parity.lean ====
section
/-! DEFINITION. The parity code (R322): arithmetic in GF(2^8) on whole codewords, the bytes of a stored codeword (Tables ECC-1 and
ECC-2), the three parity chunks of a stripe, and the terms by which a codeword is solved from sixteen others. -/

namespace Sys2Proof.Machine

/-! ### GF(2^8) modulo 0x11D, on packed bytes -/

/-- Bytes of a codeword that the parity covers. -/
def cwLen : Nat := 4160

/-- A byte 1 in each of the covered bytes. -/
def cwOnes : Nat := (256 ^ cwLen - 1) / 255

/-- Every byte of a codeword multiplied by g = 0x02. -/
def cwDouble (x : Nat) : Nat := ((x &&& (cwOnes * 0x7F)) * 2) ^^^ (((x >>> 7) &&& cwOnes) * 0x1D)

/-- Every byte of a codeword multiplied by the byte `c`. -/
def cwScale (c x : Nat) : Nat :=
  ((List.range 8).foldl (fun (a : Nat × Nat) i => (if c.testBit i then a.1 ^^^ a.2 else a.1, cwDouble a.2)) (0, x)).1

/-- The product of two bytes. -/
def byteMul (a b : Nat) : Nat := cwScale a (b % 256)

/-- g raised to a power. -/
def bytePow : Nat → Nat
  | 0 => 1
  | n + 1 => byteMul 2 (bytePow n)

/-- The inverse of a nonzero byte: its 254th power. -/
def byteInv (a : Nat) : Nat := (List.range 253).foldl (fun x _ => byteMul x a) a

/-- P, Q and R of sixteen data codewords. -/
def parityOf (ds : List Nat) : Nat × Nat × Nat :=
  ds.foldr (fun x a => (x ^^^ a.1, x ^^^ cwDouble a.2.1, x ^^^ cwDouble (cwDouble a.2.2))) (0, 0, 0)

/-! ### Stored codewords -/

/-- The placement record (Table ECC-2) of block `k` of a granule stored in a band; a pad granule has META = 1 (R329), and so has a half of a map
page, whose granule is the page's number. -/
def placement (g : Gran) (k band : Nat) (poison : Bool) : Nat :=
  g.granule % 2 ^ 37 + 2 ^ 37 * (g.slice % 1024) + 2 ^ 47 * g.pad.toNat + 2 ^ 48 * (k % 8 + 8 * poison.toNat) + 2 ^ 64 * (g.gver % 2 ^ 20) +
  2 ^ 96 * (band % 2 ^ 23) + 2 ^ 128 * (g.stamp % 2 ^ 64)

/-- Bytes 0 to 4,159 of the codeword that holds block `k` of a granule (Table ECC-1): zeros but for the placement record of a pad. -/
def cwOf (g : Gran) (k band : Nat) : Nat :=
  match g.blks[k]? with
  | some b => b.data % 2 ^ 32768 + 2 ^ 32768 * (b.sl.word % 2 ^ 128 + 2 ^ 128 * (b.crec.word % 2 ^ 192 + 2 ^ 192 * placement g k band b.poison))
  | none => 2 ^ 33088 * placement g k band false

/-- A codeword of a stored page: column 8 × half + block of a data chunk (R291), or a parity value. -/
def FPage.cw (f : FPage) (col band : Nat) : Nat :=
  if f.parity then f.par.getD col 0
  else match (if col < 8 then f.half0 else f.half1) with
    | some g => cwOf g (col % 8) band
    | none => 0

/-- The 73,728 bytes of a chunk in plane order (R263, R290): sixteen codewords of 4,608 bytes, each with its LDPC parity, whose code the spec describes and
does not give (DESIGN CHOICE, log 242). -/
def FPage.bytes (f : FPage) (band : Nat) : Nat :=
  (List.range 16).foldr (fun c acc => f.cw c band % 2 ^ 33280 + 2 ^ 33280 * (Config.ldpcParity (f.cw c band) % 2 ^ 3584) + 2 ^ 36864 * acc) 0

/-- A codeword's placement record. -/
def cwPlacement (x : Nat) : Nat := x >>> 33088

/-- The block that a codeword holds. -/
def Blk.ofCw (x : Nat) : Blk :=
  { data := x % 2 ^ 32768, sl := Seal.ofWord ((x >>> 32768) % 2 ^ 128), crec := CRec.ofWord ((x >>> 32896) % 2 ^ 192), poison := (cwPlacement x).testBit 51 }

/-- The granule that eight codewords hold, as their placement records name it; a pad's codewords hold no block, and codewords of zeros no granule. -/
def Gran.ofCws (cws : List Nat) : Option Gran :=
  let p := cwPlacement (cws.headD 0)
  if cws.all (· == 0) then none
  else some
    { slice := p / 2 ^ 37 % 1024, granule := p % 2 ^ 37, gver := p / 2 ^ 64 % 2 ^ 20, pad := p.testBit 47,
      blks := if cws.all (fun x => x % 2 ^ 33088 == 0 && (cwPlacement x).testBit 47) then [] else cws.map Blk.ofCw, stamp := p / 2 ^ 128 }

/-- The page that sixteen codewords of a data chunk, or of a parity chunk, make. -/
def FPage.ofCws (parity slc : Bool) (cws : List Nat) : FPage :=
  if parity then { FPage.reset with parity := true, slc := slc, par := cws }
  else { FPage.reset with half0 := Gran.ofCws (cws.take 8), half1 := Gran.ofCws (cws.drop 8), slc := slc }

/-- The parity chunks of a stripe, of its sixteen data chunks in role order. -/
def parityChunks (ds : List FPage) (band : Nat) (slc : Bool) : List FPage :=
  let cols := (List.range 16).map (fun c => parityOf (ds.map (fun f => f.cw c band)))
  [cols.map (fun x => x.1), cols.map (fun x => x.2.1), cols.map (fun x => x.2.2)].map (fun p =>
    { FPage.reset with parity := true, slc := slc, par := p })

/-! ### Solving a codeword (R322, R332) -/

/-- The coefficient of data role `i` in the codeword of role `r`. -/
def coefOf (r i : Nat) : Nat :=
  if r < 16 then (if r = i then 1 else 0) else if r = 16 then 1 else if r = 17 then bytePow i else bytePow (2 * i)

/-- Solve a square linear system over GF(2^8) by elimination: rows of coefficients, each with its right side last. -/
def byteSolve : Nat → List (List Nat) → List Nat
  | 0, _ => []
  | n + 1, rows =>
    match rows.find? (fun r => r.headD 0 != 0) with
    | none => []
    | some p =>
      let inv := byteInv (p.headD 0)
      let p := p.map (byteMul inv)
      let rest := (rows.filter (fun r => r.map (byteMul (byteInv (r.headD 0))) != p || r.headD 0 == 0)).map (fun r =>
        (r.zip p).map (fun xy => xy.1 ^^^ byteMul (r.headD 0) xy.2))
      let xs := byteSolve n (rest.map (fun r => r.drop 1))
      let tail := ((p.drop 1).zip xs).foldl (fun a cx => a ^^^ byteMul cx.1 cx.2) (p.getLastD 0)
      tail :: xs

/-- The term that each of sixteen source roles contributes to the codeword of role `t`: its coefficient. -/
def solveTerms (sources : List Nat) (t : Nat) : List (Nat × Nat) :=
  let lost := (List.range 16).filter (fun i => !sources.contains i)
  let pars := sources.filter (16 ≤ ·)
  let a := pars.zip (byteSolve lost.length (lost.map (fun e => pars.map (fun p => coefOf p e) ++ [coefOf t e])))
  sources.map (fun r =>
    (r, if 16 ≤ r then ((a.find? (fun x => x.1 == r)).map Prod.snd).getD 0
        else a.foldl (fun c x => c ^^^ byteMul x.2 (coefOf x.1 r)) (coefOf t r)))

end Sys2Proof.Machine
end

