-- ==== Sys2Proof/Machine/Erasure.lean ====
section
/-! DEFINITION. Erasures (R285, R288, R331) and what is solved in their place (R322, R332, R335): which members serve, which codewords are
lost, and the content of a codeword as flash gives it or as sixteen others give it. -/

namespace Sys2Proof.Machine

/-! ### Failed members (R285, R286, R288, R331) -/

/-- A port page has CTL.EN = 0 (R288); the dump goes on as if it were 1 (R558). -/
def Dev.portOut (d : Dev) (p : Nat) : Bool := !(d.page (0x800 + p)).en && !d.dumping

/-- A port is FAILED (and not handed to the twin), or out of service. -/
def Dev.portGone (d : Dev) (p : Nat) : Bool :=
  (d.flag (Reg.FCH_P_STS p) 7 && !d.flag (Reg.FCH_P_STS p) 8) || d.portOut p

/-- A die is FAILED, or its port is gone. -/
def Dev.dieGone (d : Dev) (p die : Nat) : Bool :=
  d.portGone p ||
  (if die < 32 then d.flag (Reg.FCH_P_DFAIL_LO p) die else d.flag (Reg.FCH_P_DFAIL_HI p) (die - 32))

/-- The set at a position of a band. -/
def Dev.setAtPos (d : Dev) (band pos : Nat) : BSet :=
  (d.setsOf band).getD pos { port := 0, die := 0, block := 0, repl := false, erased := false, prog := 0, old := 0 }

/-- A chunk is an erasure: its set's member is gone, or its replacement does not hold the stripe yet. -/
def Dev.chunkErased (d : Dev) (band stripe pos : Nat) : Bool :=
  let s := d.setAtPos band pos
  d.dieGone s.port s.die || s.erased || (s.repl && decide (s.prog ≤ stripe))

/-- The erasure-log key of a codeword. -/
def elogKey (band stripe pos col : Nat) : Nat := ((band * 4096 + stripe) * 32 + pos) * 16 + col

/-- A codeword is an erasure (R331). -/
def Dev.cwErased (d : Dev) (band stripe pos col : Nat) : Bool :=
  d.chunkErased band stripe pos || d.elog.contains (elogKey band stripe pos col)

/-- The erased positions of a column. -/
def Dev.erasures (d : Dev) (band stripe col : Nat) : List Nat :=
  (List.range 19).filter (fun j => d.cwErased band stripe j col)

/-- The erasure count of a stripe: the largest of its columns. -/
def Dev.stripeErasures (d : Dev) (band stripe : Nat) : Nat :=
  (List.range 16).foldl (fun m c => max m (d.erasures band stripe c).length) 0

/-- The erasure count of a band's worst programmed stripe. -/
def Dev.bandErasures (d : Dev) (band : Nat) : Nat :=
  (List.range (d.band band).next).foldl (fun m k => max m (d.stripeErasures band k)) 0

/-- The page a stripe's chunk is named by: the block the band's set at the position was written to, page = stripe; a
replacement keeps it (R341). -/
def Dev.chunkKey (d : Dev) (band stripe pos : Nat) : Nat :=
  (d.setAtPos band pos).old * 4096 + stripe

/-- The block of a data codeword is poisoned already (R335, R336). -/
def Dev.cwPoisoned (d : Dev) (band stripe pos col : Nat) : Bool :=
  let f := d.fpage (d.chunkKey band stripe pos)
  (if col < 8 then f.half0 else f.half1).any (fun g => (g.blks[col % 8]?).any (·.poison))

/-! ### Solving (R332 to R336) -/

/-- The positions of a column that no longer hold what parity was computed over: erased, or rewritten as poisoned (R335, R336). -/
def Dev.unknowns (d : Dev) (band stripe col : Nat) : List Nat :=
  (List.range 19).filter (fun j => d.cwErased band stripe j col || d.cwPoisoned band stripe j col)

/-- The codewords of a column from which another may be solved, by position in ascending role order (R332). -/
def Dev.known (d : Dev) (band stripe pos col : Nat) : List Nat :=
  ((List.range 19).map (fun r => posOfRole r stripe)).filter (fun j =>
    j != pos && !d.cwErased band stripe j col && !d.cwPoisoned band stripe j col)

/-- The sixteen survivors that a codeword is solved from (R332). -/
def Dev.survivors (d : Dev) (band stripe pos col : Nat) : List Nat := (d.known band stripe pos col).take 16

/-- A codeword is to be reconstructed, and can be. -/
def Dev.rebuildable (d : Dev) (band stripe pos col : Nat) : Bool :=
  d.cwErased band stripe pos col && !d.cwPoisoned band stripe pos col && decide ((d.unknowns band stripe col).length ≤ 3)

/-- A codeword as flash holds it. -/
def Dev.cwHeld (d : Dev) (band stripe pos col : Nat) : Nat := (d.fpage (d.chunkKey band stripe pos)).cw col band

/-- A codeword solved from its sixteen survivors (R322, R332). -/
def Dev.solvedCw (d : Dev) (band stripe pos col : Nat) : Nat :=
  (solveTerms ((d.survivors band stripe pos col).map (fun j => roleOf j stripe)) (roleOf pos stripe)).foldl
    (fun x rc => x ^^^ cwScale rc.2 (d.cwHeld band stripe (posOfRole rc.1 stripe) col)) 0

/-- A codeword as a read gets it: solved where it is an erasure, else as flash holds it. -/
def Dev.cwNow (d : Dev) (band stripe pos col : Nat) : Nat :=
  if d.rebuildable band stripe pos col then d.solvedCw band stripe pos col else d.cwHeld band stripe pos col

/-- A granule as a read gets it. -/
def Dev.granNow (d : Dev) (l : Loc) : Option Gran :=
  let cols := (List.range 8).map (fun k => 8 * l.half + k)
  if cols.any (d.rebuildable l.band l.stripe l.pos) then Gran.ofCws (cols.map (d.cwNow l.band l.stripe l.pos)) else d.granAt l

/-- A block of a stored granule as a read gets it. -/
def Dev.blkAt (d : Dev) (l : Loc) (k : Nat) : Option Blk :=
  if d.rebuildable l.band l.stripe l.pos (8 * l.half + k) then some (Blk.ofCw (d.solvedCw l.band l.stripe l.pos (8 * l.half + k)))
  else (d.granAt l).bind (fun g => g.blks[k]?)

end Sys2Proof.Machine
end

