-- ==== Sys2Proof/Machine/Space.lean ====
section
/-! DEFINITION. The protected write cache (chapter 12): cached versions, what a read or a merge takes a block from, slots, and changes of
the map that stand. -/

namespace Sys2Proof.Machine

/-! ### Versions and content -/

/-- The cached versions of a granule, oldest first. -/
def Dev.versOf (d : Dev) (slice granule : Nat) : List Ver :=
  d.cache.filter (fun v => v.slice == slice && v.granule == granule && !v.pwin)

/-- A change of a granule with this GVER has been placed and has not posted. -/
def Dev.unposted (d : Dev) (slice granule gver : Nat) : Bool :=
  (d.versOf slice granule).any (fun v => v.gver == gver && !v.posted) ||
  d.mapPend.any (fun x => x.slice == slice && x.granule == granule && x.gver == gver && x.owner.isSome)

/-- A block of a version shows: the version has posted, and so has what the block was merged from (R16). -/
def Dev.shows (d : Dev) (v : Ver) (k : Nat) : Bool :=
  v.posted && (v.blks.find k).isSome && (match v.src.find k with | some gv => !d.unposted v.slice v.granule gv | none => true)

/-- The newest visible cached version that holds a block (R16): versions not yet posted are skipped. -/
def Dev.cachedBlk (d : Dev) (slice lba : Nat) : Option Blk :=
  ((d.versOf slice (lba / 8)).reverse.find? (fun v => d.shows v (lba % 8))).bind
    (fun v => v.blks.find (lba % 8))

/-- A block's flash copy, solved where its codeword is an erasure (R332): filled where the granule is UNMAPPED (R193). -/
def Dev.flashBlk (d : Dev) (slice lba : Nat) : Blk :=
  match d.stored slice (lba / 8), (d.ent slice (lba / 8)).loc with
  | some _, some l => (d.blkAt l (lba % 8)).getD (filledBlk slice lba)
  | _, _ => filledBlk slice lba

/-- The granule's map entry was lost with both copies of its page (R196). -/
def Dev.pageLost (d : Dev) (s g : Nat) : Bool := d.lost.contains (granKey s g)

/-- The newest DISCARD of a granule that has been placed, has not posted, and is newer than every version of it; of the changes whose GVER
`p` names. -/
def Dev.discarding (d : Dev) (s g : Nat) (p : Nat → Bool) : Option Nat :=
  ((d.mapPend.filter (fun x => x.slice == s && x.granule == g && x.owner.isSome && p x.gver &&
    ((d.versOf s g).filter (fun v => p v.gver)).all (fun v => gverNewer x.gver v.gver))).getLast?).map MapChg.gver

/-- An untouched block as a merge takes it (Table ARC-4): from what was placed last for the granule among the changes whose GVER `p` names, else
from flash; with it the GVER of the change not yet posted that it comes from. -/
def Dev.mergeFrom (d : Dev) (s g k : Nat) (p : Nat → Bool) : Blk × Option Nat :=
  let lba := 8 * g + k
  match d.discarding s g p, ((d.versOf s g).filter (fun v => p v.gver)).getLast? with
  | some gv, _ => (filledBlk s lba, some gv)
  | none, some w => ((w.blks.find k).getD (d.flashBlk s lba), match w.src.find k with | some gv => some gv | none => if w.posted then none else some w.gver)
  | none, none => (if (d.stored s g).isSome && d.pageLost s g then poisonBlk else d.flashBlk s lba, none)

/-- The newest visible content of a block. -/
def Dev.blkNow (d : Dev) (slice lba : Nat) : Blk := (d.cachedBlk slice lba).getD (d.flashBlk slice lba)

/-- The next GVER of a granule: one above its entry's, its cached versions' and its pending changes'. -/
def Dev.nextGver (d : Dev) (slice granule : Nat) : Nat :=
  let g0 := (d.ent slice granule).gver
  let gs := (d.cache.filter (fun v => v.slice == slice && v.granule == granule)).map Ver.gver ++
    (d.mapPend.filter (fun x => x.slice == slice && x.granule == granule && x.src.isNone)).map MapChg.gver
  let g := gs.foldl (fun a v => if gverNewer v a then v else a) g0
  (g + 1) % 2 ^ 20

/-- Cache figures (R363). -/
def Dev.slots (d : Dev) : Nat := d.fld Reg.STK_PWC_SLOTS 20 0
def Dev.usedSlots (d : Dev) : Nat := d.fld Reg.STK_PWC_USED 20 0
def Dev.thr (d : Dev) : Nat := d.fld Reg.STK_PWC_THR 20 0
def Dev.pwcRes (d : Dev) : Nat := d.fld Reg.STK_PWC_RES 20 0
def Dev.pwcCredit (d : Dev) : Nat := d.fld Reg.STK_PWC_CREDIT 20 0

/-- Take `n` slots: rising to THR or above zeroes the credit and raises THROTTLE (R363, R364). -/
def Dev.takeSlots (d : Dev) (n : Nat) : Dev :=
  let u := d.usedSlots
  let rise := u < d.thr && d.thr ≤ u + n
  let d := d.setFld Reg.STK_PWC_USED 20 0 (u + n)
  let d := if rise then d.setFld Reg.STK_PWC_CREDIT 20 0 0 else d
  let d := d.setFlag Reg.STK_PWC_STS 0 (decide (d.thr ≤ d.usedSlots))
  if rise then d.raise 0x602 4 else d

/-- Free `n` slots: each one freed while USED stays at or above THR adds a credit, up to RES (R363). -/
def Dev.freeSlots (d : Dev) (n : Nat) : Dev :=
  let u := d.usedSlots
  let k := min n (u - d.thr)
  let d := d.setFld Reg.STK_PWC_USED 20 0 (u - n)
  let d := d.setFld Reg.STK_PWC_CREDIT 20 0 (min (d.pwcCredit + k) d.pwcRes)
  let t := decide (d.thr ≤ d.usedSlots)
  d.setFlag Reg.STK_PWC_STS 0 t

/-- Admission of a write that needs `n` slots (R363; while PAIRED also within the pages held, R396): whether it is admitted, and the state with its slots and
credit taken. -/
def Dev.admitSlots (d : Dev) (cls n : Nat) : Option Dev :=
  let u := d.usedSlots
  if d.paired && 15 * d.fld Reg.TWN_PAGES 17 0 < u - d.twinUsed + n then none
  else if cls = 0 then (if u + n ≤ d.slots then some (d.takeSlots n) else none)
  else if d.slots - d.pwcRes < u + n then none
  else if u + n ≤ d.thr then some (d.takeSlots n)
  else if n ≤ d.pwcCredit then some ((d.takeSlots n).setFld Reg.STK_PWC_CREDIT 20 0 (d.pwcCredit - n))
  else none

/-- Recompute the cache's figures for a window of `segs` segments (R362, R363). -/
def Dev.resizeCache (d : Dev) (segs : Nat) : Dev :=
  let slots := (32 - segs) * 4096 * 15
  let d := d.setFld Reg.STK_PWC_SLOTS 20 0 slots
  let d := d.setFld Reg.STK_PWC_THR 20 0 (slots * 9 / 10)
  let d := d.setFld Reg.STK_PWC_RES 20 0 (ceilDiv slots 32)
  d.setFlag Reg.STK_PWC_STS 1 (slots == 0)

/-- Remove the versions a predicate names and free their slots, 8 each; the next FREE names them (R397). -/
def Dev.dropVers (d : Dev) (p : Ver → Bool) : Dev :=
  let gone := d.cache.filter p
  if gone.isEmpty then d
  else
    let d := { d with cache := d.cache.filter (fun v => !p v) }
    let d := d.freeSlots (8 * (gone.filter (fun v => !v.pwin)).length)
    let d := d.revalid
    if d.paired then { d with freeQ := d.freeQ ++ gone.map (fun v => granKey v.slice v.granule * 2 ^ 20 + v.gver) } else d

/-- A version as MIRROR and SYNC carry it. -/
def Ver.mver (v : Ver) : MVer :=
  { slice := v.slice, granule := v.granule, gver := v.gver, pwin := v.pwin,
    blks := v.blks.map (fun kb => { data := kb.2.data, sl := kb.2.sl.word, crec := kb.2.crec.word, poison := kb.2.poison }) }

/-- A version without what it merged from the change `gv` of its granule, which has not happened. -/
def Dev.unmerged (d : Dev) (w : Ver) (gv : Nat) : Ver :=
  let under (k : Nat) : Blk × Option Nat := d.mergeFrom w.slice w.granule k (fun x => x != gv && gverNewer w.gver x)
  { w with blks := w.blks.map (fun kb => if w.src.find kb.1 = some gv then (kb.1, (under kb.1).1) else kb)
           src := w.src.filterMap (fun kg => if kg.2 = gv then (under kg.1).2.map (fun x => (kg.1, x)) else some kg) }

/-- A change of a granule has not happened (R119, R132): the later versions that merged blocks of it take what lies under it instead, and go to
the twin again. -/
def Dev.unmerge (d : Dev) (s g gv : Nat) : Dev :=
  let hit (w : Ver) : Bool := w.slice == s && w.granule == g && !w.pwin && w.src.any (fun kg => kg.2 == gv)
  if !d.cache.any hit then d
  else
    let d : Dev := { d with cache := d.cache.map (fun (w : Ver) => if hit w then { d.unmerged w gv with mnum := if d.paired then d.gTx else w.mnum } else w) }
    if d.mirrors then
      d.sendGulon 0x10 (mirrorFs ((d.cache.filter (fun w => w.slice == s && w.granule == g && !w.pwin && gverNewer w.gver gv)).map Ver.mver) JBatch.none)
    else d

/-- A change of an entry stands (R20, R217): a relocation only while the entry still names its source; another only if its GVER is newer than
the entry's.  The version of that GVER, and the older posted ones, whose blocks its content holds, leave the cache. -/
def Dev.applyEnt (d : Dev) (x : MapChg) : Dev :=
  let here (v : Ver) : Bool := v.slice == x.slice && v.granule == x.granule
  match x.src with
  | some l =>
    if (d.ent x.slice x.granule).loc = some l then
      (d.putEnt x.slice x.granule { gver := (d.ent x.slice x.granule).gver, loc := x.loc }).inc64 Reg.MAP_RELOC_LO Reg.MAP_RELOC_HI 1
    else d
  | none =>
    if gverNewer x.gver (d.ent x.slice x.granule).gver then
      (d.putEnt x.slice x.granule { gver := x.gver, loc := x.loc }).dropVers
        (fun v => here v && (v.gver == x.gver || (v.posted && gverNewer x.gver v.gver)))
    else d.dropVers (fun v => here v && v.gver == x.gver)

/-- The entry that a change writes. -/
def Dev.chgEnt (d : Dev) (x : MapChg) : MapEnt :=
  { gver := if x.src.isSome then (d.ent x.slice x.granule).gver else x.gver, loc := x.loc }

/-- A change begins (R25, R200): its record goes to the twin, and while PAIRED it waits for the ACK. -/
def Dev.mapChange (d : Dev) (x : MapChg) : Dev :=
  let d := d.journalDelta x.slice x.granule (d.chgEnt x)
  if d.paired then { d with mapPend := d.mapPend ++ [{ x with mnum := some (d.gTx - 1) }] } else d.applyEnt x

/-- The changes that wait for the posting of a command stand (R213). -/
def Dev.applyOwned (d : Dev) (o : Nat) : Dev :=
  let mine := d.mapPend.filter (fun x => x.owner == some o)
  mine.foldl (fun d x => d.applyEnt x) { d with mapPend := d.mapPend.filter (fun x => x.owner != some o) }

/-- VSL_SL_HIGHLBA: one more than the highest block mapped (R148, R214); a granule whose posted version waits in the cache counts as
mapped unless that version holds filled blocks only. -/
def Dev.highLba (d : Dev) (slice : Nat) : Nat :=
  let cached := d.cache.filter (fun v => v.slice == slice && v.posted && !v.pwin && v.blks.any (fun kb => !kb.2.filled))
  cached.foldl (fun m v => max m (8 * v.granule + 8)) ((d.mappedOf slice).foldl (fun m kv => max m (8 * (kv.1 % 2 ^ 37) + 8)) 0)

end Sys2Proof.Machine
end

