-- ==== Sys2Proof/Machine/Operands.lean ====
section
/-! DEFINITION. The submission entry (Tables CQE-3 and CQE-4): its fields, the fields each opcode uses, and the
first field that is invalid. -/

namespace Sys2Proof.Machine

/-- WRITE, WRITE_ZEROES and DISCARD are write-type. -/
def writeType (op : Nat) : Bool := op == opWrite || op == opDiscard || op == opWriteZeroes

/-- READ, VERIFY and SEAL_READ are read-type. -/
def readType (op : Nat) : Bool := op == opRead || op == opVerify || op == opSealRead

/-- The I/O opcodes. -/
def ioOp (op : Nat) : Bool := 1 ≤ op && op ≤ 7

/-- The admin opcodes that a chapter defines. -/
def adminOp (op : Nat) : Bool :=
  op == opCreateQp || op == opDeleteQp || op == opMapPin || op == opMapUnpin || op == opMapSpace || op == opHealthGet

/-- A command parsed from its 64 bytes. -/
def parseSqe (entry fetchNo dbTick : Nat) : Cmd :=
  { tag := leBytes entry 2 2 % 32, op := leBytes entry 0 1, cls := leBytes entry 1 1 % 4,
    fua := (leBytes entry 1 1).testBit 2, sco := (leBytes entry 1 1).testBit 3, nblk := leBytes entry 4 2,
    apptag := leBytes entry 6 2, lba := leBytes entry 8 6, keyidx := leBytes entry 14 1 % 4,
    list := (leBytes entry 14 1).testBit 2, dp := [0, 1, 2, 3, 4, 5].map (fun k => leBytes entry (16 + 8 * k) 8),
    raw := entry, keygen := 0, fetched := fetchNo, dbTick := dbTick, units := 0, slots := 0, waitTick := 0,
    waiting := false, done := false, mnum := 0, charge := 0, chargeRed := 0, wakeUs := 0, single := false,
    rebuilt := false, heads := [], ioTick := 0, placed := false, wasHeld := false, looked := false, sgen := 0, qgen := 0, bad := [] }

/-- The bits of byte `b` of an entry that an opcode uses (Tables CQE-3, CQE-4, CQE-2, MAP-2 and R518); every
other bit is RSVD (R107).  CLASS is a field of every entry. -/
def usedBits (op b : Nat) : Nat :=
  let nblk := op == opRead || op == opWrite || op == opFlush || op == opDiscard || op == opVerify ||
    op == opWriteZeroes || op == opSealRead
  let apptag := op == opRead || op == opWrite || op == opVerify || op == opWriteZeroes
  let lba := nblk || op == opMapPin || op == opMapUnpin
  let ptrs := op == opRead || op == opWrite || op == opSealRead
  if b = 0 ∨ b = 2 ∨ b = 3 then 0xFF
  else if b = 1 then
    3 + (if op == opWrite || op == opWriteZeroes then 4 else 0) + (if op == opRead || op == opVerify then 8 else 0)
  else if b = 4 then (if nblk then 0xFF else if op == opCreateQp || op == opDeleteQp then 0x0F else 0)
  else if b = 5 then (if nblk then 0xFF else 0)
  else if b = 6 ∨ b = 7 then (if apptag then 0xFF else 0)
  else if 8 ≤ b ∧ b ≤ 13 then (if lba then 0xFF else 0)
  else if b = 14 then (if apptag then 3 else 0) + (if ptrs then 4 else 0)
  else if 16 ≤ b ∧ b ≤ 63 then
    if ptrs then 0xFF
    else if op == opCreateQp then (if b < 32 then 0xFF else if b = 32 then 0x3F else if b = 33 then 0xFF else 0)
    else if op == opMapPin || op == opMapUnpin then (if b < 20 then 0xFF else 0)
    else if op == opMapSpace || op == opHealthGet then (if b < 24 then 0xFF else 0)
    else 0
  else 0

/-- The pages an entry's data pointers must name: one per block, or one per 256 seals (R108, R109). -/
def pagesNeeded (c : Cmd) : Nat := if c.op == opSealRead then ceilDiv c.nblk 256 else c.nblk

/-- The byte offset of an invalid data pointer (R108): misaligned, one that LIST = 1 wants 0, or more pages than
six with LIST = 0, which the NBLK field names. -/
def pointerOff (c : Cmd) : Option Nat :=
  let mis (k : Nat) : Bool := (c.dp.getD k 0) % 4096 != 0
  if c.op == opMapSpace || c.op == opHealthGet then (if mis 0 then some 16 else none)
  else if c.op == opRead || c.op == opWrite || c.op == opSealRead then
    if c.list then
      if mis 0 then some 16
      else ([1, 2, 3, 4, 5].find? (fun k => c.dp.getD k 0 != 0)).map (fun k => 16 + 8 * k)
    else if 6 < pagesNeeded c then some 4
    else ((List.range (pagesNeeded c)).find? mis).map (fun k => 16 + 8 * k)
  else none

/-- The byte offset of the field that holds a byte: a field of Table CQE-3, or of CREATE_QP's own layout (Table CQE-2). -/
def fieldOfByte (op b : Nat) : Nat :=
  if b < 2 then b else if b < 8 then b / 2 * 2 else if b < 14 then 8 else if b < 16 then b
  else if op = opCreateQp ∧ b = 33 then 33 else b / 8 * 8

/-- The offset of the field that order 4 of Table CQE-5 refuses.  Where several fields fail, the spec does not say which one INFO names: the
one with the lowest offset (DESIGN CHOICE, log 208). -/
def fieldOff (c : Cmd) (trumpEn : Bool) : Option Nat :=
  let rsvd := ((List.range 64).find? (fun b => leBytes c.raw b 1 &&& (0xFF ^^^ usedBits c.op b) != 0)).map (fieldOfByte c.op)
  let nblk := if ioOp c.op && c.op != opFlush && c.nblk == 0 then some 4 else none
  let flush := if c.op == opFlush && c.nblk == 0 && c.lba != 0 then some 8 else none
  let apptag := if (c.op == opWrite || c.op == opWriteZeroes) && c.apptag == 0xFFFF then some 6 else none
  let trump := if c.cls == 0 && !trumpEn then some 1 else none
  [rsvd, nblk, flush, apptag, trump, pointerOff c].foldl (fun a b =>
    match a, b with
    | none, x => x
    | x, none => x
    | some x, some y => some (min x y)) none

/-- The pages that a command's pointers name, in block order (R108): DP0 to DPk, or with LIST = 1 the pointers of the list pages, of
which entry 511 of each names the next one while more pages remain than it can name. -/
def listPages : Nat → List (List Nat) → List Nat
  | _, [] => []
  | n, l :: ls => if n ≤ 512 then (List.range n).map (fun i => l.getD i 0)
      else (List.range 511).map (fun i => l.getD i 0) ++ listPages (n - 511) ls
def Cmd.pages (c : Cmd) (lists : List (List Nat)) : List Nat :=
  let n := pagesNeeded c
  if c.list then listPages n lists else (List.range n).map (fun i => c.dp.getD i 0)

/-- The addresses of the list pages that a command's pointers take. -/
def listAddrs : Nat → Nat → List (List Nat) → List Nat
  | a, n, [] => if 0 < n then [a] else []
  | a, n, l :: ls => if n ≤ 512 then [a] else a :: listAddrs (l.getD 511 0) (n - 511) ls
def Cmd.listPagesAt (c : Cmd) (lists : List (List Nat)) : List Nat := if c.list then listAddrs (c.dp.getD 0 0) (pagesNeeded c) lists else []

/-- A pointer that a list page holds is misaligned.  The check at fetch cannot see it and the spec names no status: INVALID_FIELD with
the offset of DP0 (DESIGN CHOICE, log 209). -/
def Cmd.listBad (c : Cmd) (lists : List (List Nat)) : Bool :=
  c.list && ((c.pages lists).any (fun p => p % 4096 != 0) || (c.listPagesAt lists).any (fun p => p % 4096 != 0))

/-- Two commands' block ranges overlap in at least one block. -/
def overlaps (l1 n1 l2 n2 : Nat) : Bool := decide (l1 < l2 + n2) && decide (l2 < l1 + n1)

/-- Two commands of one queue conflict (R125); FLUSH takes no part (R129), admin commands have no range. -/
def conflicts (a b : Cmd) : Bool :=
  (writeType a.op || writeType b.op) && (writeType a.op || readType a.op) && (writeType b.op || readType b.op) &&
  overlaps a.lba a.nblk b.lba b.nblk

/-- The blocks (LBAs) of a command. -/
def lbasOf (lba nblk : Nat) : List Nat := (List.range nblk).map (fun i => lba + i)

end Sys2Proof.Machine
end

