-- ==== Sys2Proof/Machine/Flags.lean ====
section
/-! DEFINITION. Status and flag computations: completion statuses and INFO (R116 to R118), the completion
entry, the status words of queues, and the STS word of a page. -/

namespace Sys2Proof.Machine

/-- Completion status codes (Table CQE-7). -/
def stSuccess : Nat := 0x0000
def stRebuilt : Nat := 0x0001
def stSingle : Nat := 0x0002
def stInvalidOpcode : Nat := 0x0101
def stInvalidField : Nat := 0x0102
def stLbaRange : Nat := 0x0103
def stLengthLimit : Nat := 0x0104
def stTagBusy : Nat := 0x0105
def stPoisoned : Nat := 0x0201
def stSealMismatch : Nat := 0x0202
def stUnrecoverable : Nat := 0x0203
def stNoSpace : Nat := 0x0301
def stWriteLimited : Nat := 0x0302
def stReadOnly : Nat := 0x0303
def stKeyExhausted : Nat := 0x0401
def stKeyInvalid : Nat := 0x0402
def stSquashed : Nat := 0x0501
def stSliceReset : Nat := 0x0502
def stSliceFrozen : Nat := 0x0503
def stFailover : Nat := 0x0601
def stWaking : Nat := 0x0602

/-- A success is SUCCESS, SUCCESS_REBUILT, SUCCESS_SINGLE_COPY or DOMAIN_WAKING (R118). -/
def isSuccess (st : Nat) : Bool := st == stSuccess || st == stRebuilt || st == stSingle || st == stWaking

/-- The one status of a successful command (R117). -/
def successStatus (wakeUs : Nat) (rebuilt single : Bool) : Nat :=
  if 0 < wakeUs then stWaking else if rebuilt then stRebuilt else if single then stSingle else stSuccess

/-- INFO of a successful command (R116). -/
def successInfo (wakeUs : Nat) (rebuilt single : Bool) : Nat :=
  satN 12 wakeUs + 2 ^ 12 * single.toNat + 2 ^ 13 * rebuilt.toNat

/-- PHASE of completion entry `n` (R103). -/
def phaseOf (n : Nat) : Nat := (n / 64 + 1) % 2

/-- TAGW (Table CQE-6). -/
def tagWord (tag typ n : Nat) : Nat := tag % 32 + 2 ^ 5 * (typ % 2) + 2 ^ 15 * phaseOf n

/-- TIMEB of a command entry (Table CQE-6). -/
def timebOf (epoch : Nat) (coarse : Bool) : Nat := epoch % 2 ^ 16 + 2 ^ 16 * coarse.toNat

/-- Entries posted that the host has not consumed. -/
def Queue.unconsumed (q : Queue) : Nat := (q.cqPosted + 65536 - q.cqHead) % 65536

/-- The entries a queue's ring must still keep room for: fetched and not posted, held, squashed and not yet posted, and posted and not
consumed (R102). -/
def Queue.load (q : Queue) : Nat :=
  (q.cmds.filter (fun c => !c.done)).length + q.held.length + q.squash.length + q.unconsumed

/-- The ring has a free slot for every entry that a reset posts, the reset-done entry last, and for those of the commands that drain under the
new generation (R102, R151: none is ever overwritten). -/
def Queue.resetRoom (q : Queue) : Bool := decide (q.load + 1 ≤ 64)

/-- The completion ring has no slot for another fetch (R102): CQ_STALL. -/
def Queue.stalled (q : Queue) : Bool := decide (63 ≤ q.load)

/-- Unfetched entries in the ring. -/
def Queue.unfetched (q : Queue) : Nat := (q.sqTail + 65536 - q.sqHead) % 65536

/-- The outstanding-tag bitmap (R121): a squashed tag is outstanding until its entry is posted. -/
def Queue.outBits (q : Queue) : Nat :=
  q.squash.foldl (fun a t => a ||| 2 ^ (t % 32)) (q.cmds.foldl (fun a c => a ||| 2 ^ (c.tag % 32)) 0)

/-- Q_STS of a queue (Table CQE-1); ACTIVE shows the queue's EN (DESIGN CHOICE, log 255). -/
def Queue.sts (q : Queue) : Nat :=
  q.en.toNat + 2 * q.resetting.toNat + 4 * q.dbErr.toNat + 8 * q.stalled.toNat + 16 * q.fault.toNat

/-- VSL_SL_STS.STATE (Table VSL-1). -/
def SliceSt.code : SliceSt → Nat
  | .unbound => 0 | .active => 1 | .freezing => 2 | .frozen => 3 | .resetting => 4 | .clearing => 5

/-- CRY_CTX_STS.STATE (Table CRY-3). -/
def CtxSt.code : CtxSt → Nat
  | .empty => 0 | .valid => 1 | .zeroising => 2

end Sys2Proof.Machine
end

