-- ==== Sys2Proof/Machine/Queues.lean ====
section
/-! DEFINITION. The operations on queues, slices and completions that commands share (chapters 04 and 05):
heads, posting and holding a completion, what posting does, ending a command, resets. -/

namespace Sys2Proof.Machine

/-! ### Slices and queues -/

def Dev.slice (d : Dev) (s : Nat) : Slice := SMap.get (fun _ => Slice.reset) d.slices s
def Dev.setSlice (d : Dev) (s : Nat) (x : Slice) : Dev :=
  { d with slices := SMap.set (fun _ => Slice.reset) d.slices s x }

/-- A slice is bound: neither UNBOUND nor CLEARING. -/
def Slice.bound (x : Slice) : Bool := x.st != .unbound && x.st != .clearing

def Dev.queue (d : Dev) (qid : Nat) : Queue := SMap.get Queue.reset d.queues qid

def Dev.ctx (d : Dev) (c : Nat) : Ctx := SMap.get (fun _ => Ctx.reset) d.ctxs c
def Dev.setCtx (d : Dev) (c : Nat) (x : Ctx) : Dev :=
  { d with ctxs := SMap.set (fun _ => Ctx.reset) d.ctxs c x }

/-- Replace a queue; the tick since which its ring is held full follows the new counters (CQ_STALL). -/
def Dev.setQueue (d : Dev) (qid : Nat) (q : Queue) : Dev :=
  let q := { q with stallTick := if q.en && q.stalled then some (q.stallTick.getD d.tick) else none }
  { d with queues := SMap.set Queue.reset d.queues qid q }

/-- The outstanding command that holds a tag. -/
def Queue.cmd? (q : Queue) (tag : Nat) : Option Cmd := q.cmds.find? (fun c => c.tag == tag)

/-- Replace the command that holds a tag. -/
def Queue.setCmd (q : Queue) (c : Cmd) : Queue :=
  { q with cmds := q.cmds.map (fun x => if x.tag == c.tag then c else x) }

/-- Replace a command in its queue. -/
def Dev.setCmd (d : Dev) (qid : Nat) (c : Cmd) : Dev := d.setQueue qid ((d.queue qid).setCmd c)

/-- The head exists in the configuration in force (Table HIF-1). -/
def Dev.headExists (d : Dev) (h : Nat) : Bool :=
  h == 0 || h == 2 || (h == 1 && d.bifNow.testBit 0) || (h == 3 && d.bifNow.testBit 1)

/-- A slice's byte adjusted to the configuration in force (R98): a HOME that does not exist becomes the lowest head of its port, an ALT
that does not exist loses ALT_EN. -/
def Dev.headFit (d : Dev) (b : Nat) : Nat :=
  let home := b % 4
  let alt := b / 4 % 4
  (if d.headExists home then home else home / 2 * 2) + 4 * alt + 16 * (b.testBit 4 && d.headExists alt).toNat

/-- The slice's byte of HIF_SLICE_HEAD. -/
def Dev.headByte (d : Dev) (s : Nat) : Nat :=
  d.fld (Reg.HIF_SLICE_HEAD (s / 4)) (8 * (s % 4) + 7) (8 * (s % 4))

/-- The head a slice's data and completions move on: HOME, or ALT when HOME is down and ALT_EN is set (R66,
Table HIF-3). -/
def Dev.sliceHead (d : Dev) (s : Nat) : Option Nat :=
  let b := d.headByte s
  if d.headUp (b % 4) then some (b % 4)
  else if b.testBit 4 && d.headUp (b / 4 % 4) then some (b / 4 % 4) else none

/-- The head a pending vector's message goes out on (R66): the manager's for a block interrupt, the slice's for a completion queue that
has entries to announce. -/
def Dev.vectorHead (d : Dev) (v : Nat) : Option Nat :=
  if v < 32 then d.mgrHead
  else (d.queues.find? (fun (kv : Nat × Queue) => kv.2.vector == v && kv.2.cqPosted != kv.2.cqHead)).bind (fun kv => d.sliceHead (kv.1 / 16))

/-- Send every pending message that may go out now: a mask was cleared, MSI-X enabled, or a head came up (R52, R69). -/
def Dev.pbaFlush (d : Dev) : Dev := d.pba.foldl (fun (d : Dev) v => d.pbaSend (d.vectorHead v) v) d

/-! ### Posting -/

/-- A command has no earlier-fetched conflicting command of its queue still outstanding (R125). -/
def Queue.free (q : Queue) (c : Cmd) : Bool :=
  !q.cmds.any (fun p => decide (p.fetched < c.fetched) && conflicts p c)

/-- Granules of a slice have been written that the running export has read already (R165): each is counted once. -/
def Dev.countBehind (d : Dev) (s : Nat) (gs : List Nat) : Dev :=
  let lo := d.get64 Reg.VSL_EXP_START_LO Reg.VSL_EXP_START_HI
  let hit := gs.filter (fun (g : Nat) => decide (lo ≤ 8 * g) && decide (8 * g < d.exp.cursor) &&
    d.flag Reg.VSL_EXP_STS 0 && d.fld Reg.VSL_EXP_CTL 13 4 == s && !d.exp.behind.contains g)
  if hit.isEmpty then d else { d with exp := { d.exp with behind := d.exp.behind ++ hit } }.inc Reg.VSL_EXP_BEHIND hit.length

/-- What a write-type command's posting does (R124): its versions become visible all together, and a DISCARD's
whole granules become UNMAPPED (R213). -/
def Dev.onPost (d : Dev) (qid : Nat) (c : Cmd) : Dev :=
  let s := qid / 16
  let d := { d with cache := d.cache.map (fun (v : Ver) =>
    if v.qid == qid && v.tag == c.tag && !v.posted && !v.pwin then { v with posted := true, postNo := d.fetchNo } else v) }
  let d := d.countBehind s (granulesOf c.lba c.nblk)
  d.applyOwned (qid * 32 + c.tag)

/-- A slice as JOURNAL, SYNC and MOVE carry it. -/
def Dev.mslice (d : Dev) (s : Nat) : MSlice :=
  let x := d.slice s
  { slice := s, st := x.st.code, pasid := x.pasid, blks := x.blks, share := x.share, tshare := x.tshare, trumpEn := x.trumpEn, qpMax := x.qpMax,
    pin := x.pin, hdrm := x.hdrm, sgen := x.sgen, hdrmUsed := x.hdrmUsed }

/-- Journal a slice's binding and settings (R393, R401). -/
def Dev.keepSlice (d : Dev) (s : Nat) : Dev := d.journal { JBatch.none with slices := [d.mslice s] }

/-- Change the settings or the generation of a slice; those of a bound one are journaled (R401). -/
def Dev.setKept (d : Dev) (s : Nat) (x : Slice) : Dev :=
  let d := d.setSlice s x
  if x.bound then d.keepSlice s else d

/-- What the end of a write-type command without success undoes (R119): its versions are discarded, what others merged from them with them, the slots
it reserved and did not fill are freed, and its headroom charge is returned (R514), which is journaled (R567). -/
def Dev.onFail (d : Dev) (qid : Nat) (c : Cmd) : Dev :=
  let mine (v : Ver) : Bool := v.qid == qid && v.tag == c.tag && !v.posted && !v.pwin
  let placed := 8 * (d.cache.filter mine).length
  let gone := (d.cache.filter mine).map (fun v => (v.slice, v.granule, v.gver)) ++
    (d.mapPend.filter (fun x => x.owner == some (qid * 32 + c.tag))).map (fun x => (x.slice, x.granule, x.gver))
  let d := { d with mapPend := d.mapPend.filter (fun x => x.owner != some (qid * 32 + c.tag)) }.dropVers mine
  let d := gone.foldl (fun (d : Dev) x => d.unmerge x.1 x.2.1 x.2.2) d
  let d := (if c.passed && !c.placed then d.revalid else d).freeSlots (c.slots - placed)
  if c.charge != 0 && c.chargeRed == d.redNo && d.health == 2 then
    let x := d.slice (qid / 16)
    d.setKept (qid / 16) { x with hdrmUsed := x.hdrmUsed - c.charge }
  else d

/-- Announce a queue's posted entries with its MSI-X message (R136). -/
def Dev.announce (d : Dev) (qid : Nat) : Dev :=
  let q := d.queue qid
  let d := d.setQueue qid { q with unann := 0 }
  if q.ien then d.msix (d.sliceHead (qid / 16)) q.vector else d

/-- The scorepad samples of a completion (Table SCP-1, sources 1 to 4). -/
def Dev.scorePost (d : Dev) (qid : Nat) (c : Cmd) : Dev :=
  let s := some (qid / 16)
  let lat := d.tick - c.dbTick
  let src := if c.op == opRead then 1 else if writeType c.op then 2 else 3
  let d := if ioOp c.op then d.score src lat s (some c.cls) none else d
  if 0 < c.wakeUs then d.score 4 c.wakeUs s (some c.cls) (some 0) else d

/-- The sixteen bytes of a posted entry (Table CQE-6). -/
def entryOf (ts status info sqhd tagw timeb : Nat) : Nat :=
  ts % 2 ^ 32 + 2 ^ 32 * (status % 2 ^ 16) + 2 ^ 48 * (info % 2 ^ 16) + 2 ^ 64 * (sqhd % 2 ^ 16) + 2 ^ 80 * (tagw % 2 ^ 16) +
  2 ^ 96 * (timeb % 2 ^ 32)

/-- A queue's commands after one has posted: those that nothing holds any more have been released now (R127). -/
def Queue.released (q : Queue) (t : Nat) : List Cmd :=
  q.cmds.map (fun c => if c.wasHeld && c.relTick.isNone && q.free c then { c with relTick := some t } else c)

/-- Write one completion entry into the ring (R103, R115) and do what posting does.  `typ` 0 is a command's
own entry, 1 a reset-done entry, 2 the entry of a fetched command that failed a check. -/
def Dev.writeCe (d : Dev) (qid head : Nat) (ce : CE) : Dev :=
  let q := d.queue qid
  let n := q.cqPosted
  let timeb := if ce.typ = 1 then ce.bitmap else timebOf d.epoch d.coarse
  let tagw := tagWord ce.tag (if ce.typ = 1 then 1 else 0) n
  let d := (d.capRec 0x17 qid [(16, entryOf d.tick ce.status ce.info q.sqHead tagw timeb)]).emit
    (.completion qid (d.slice (qid / 16)).pasid head (q.cqb + 16 * (n % 64)) (n % 64) (phaseOf n) (d.tick % 2 ^ 32)
      ce.status (ce.info % 2 ^ 16) q.sqHead tagw timeb)
  let cmd := if ce.typ = 0 then q.cmd? ce.tag else none
  let q := { q with
    cqPosted := (n + 1) % 65536
    cmds := if ce.typ = 0 then ({ q with cmds := q.cmds.filter (fun c => c.tag != ce.tag) }).released d.tick else q.cmds
    unannTick := if q.unann = 0 then d.tick else q.unannTick
    unann := q.unann + 1 }
  let d := d.setQueue qid q
  let d := match cmd with
    | some c =>
      let d := d.scorePost qid c
      let x := d.slice (qid / 16)
      let d := d.setSlice (qid / 16) { x with inflight := x.inflight - (c.units - c.fin) }
      if writeType c.op then (if isSuccess ce.status then d.onPost qid c else d.onFail qid c) else d
    | none => d
  let now := ce.typ = 1 ∨ q.coalN = 0 ∨ q.coalUs = 0 ∨ q.coalN ≤ q.unann
  if q.ien ∧ now then d.announce qid else d

/-- Post a completion, or hold it until a head for the slice is up and the ring can be written (Table HIF-3,
R105). -/
def Dev.post (d : Dev) (qid : Nat) (ce : CE) : Dev :=
  let q := d.queue qid
  match d.sliceHead (qid / 16), q.cqFault || !q.held.isEmpty with
  | some h, false => d.writeCe qid h ce
  | _, _ =>
    let q := { q with
      held := q.held ++ [ce]
      cmds := if ce.typ = 0 then q.cmds.map (fun c => if c.tag == ce.tag then { c with done := true } else c) else q.cmds }
    d.setQueue qid q

/-- End a command with a status and INFO. -/
def Dev.complete (d : Dev) (qid tag status info : Nat) : Dev := d.post qid ⟨tag, 0, status, info, 0⟩

/-- End a command with success, under R116 and R117. -/
def Dev.succeed (d : Dev) (qid : Nat) (c : Cmd) (wakeUs : Nat) (rebuilt single : Bool) : Dev :=
  let c := { c with wakeUs := wakeUs, rebuilt := rebuilt, single := single }
  let d := d.setCmd qid c
  d.complete qid c.tag (successStatus wakeUs rebuilt single) (successInfo wakeUs rebuilt single)

/-- Write the held completions of a queue, oldest first, while its ring can be written. -/
def Dev.releaseHeldN : Nat → Dev → Nat → Dev
  | 0, d, _ => d
  | n + 1, d, qid =>
    match (d.queue qid).held, d.sliceHead (qid / 16) with
    | ce :: rest, some h =>
      let q := d.queue qid
      Dev.releaseHeldN n ((d.setQueue qid { q with held := rest }).writeCe qid h ce) qid
    | _, _ => d

def Dev.releaseHeld (d : Dev) (qid : Nat) : Dev := Dev.releaseHeldN (d.queue qid).held.length d qid

/-- Write the held completions of every queue whose slice has a head, after a head came up. -/
def Dev.releaseAllHeld (d : Dev) : Dev :=
  (d.queues.map Prod.fst).foldl (fun d qid => if (d.queue qid).cqFault then d else d.releaseHeld qid) d

/-- A queue pair's outstanding commands that no completion has begun to post for. -/
def Queue.live (q : Queue) : List Cmd := q.cmds.filter (fun c => !c.done)

/-- The tags of some commands in ascending order. -/
def tagsOf (cs : List Cmd) : List Nat := cs.foldl (fun a c => insertSorted a c.tag) []

/-- The slice fetches (Table VSL-1), or in FREEZING its fetch read was issued before the cut (R154), a head of the slice is up (R99), and the
device is in a mode in which it fetches at all. -/
def Dev.mayFetch (d : Dev) (qid : Nat) : Bool :=
  let q := d.queue qid
  let x := d.slice (qid / 16)
  (x.st == .active || (x.st == .freezing && decide (0 < (q.cutTail + 65536 - q.sqHead) % 65536) && decide ((q.cutTail + 65536 - q.sqHead) % 65536 ≤ 32))) &&
  (d.sliceHead (qid / 16)).isSome && q.en && !q.resetting && !q.fault && 0 < q.unfetched && !q.stalled &&
  d.released && !d.resetRun && !d.dumping && !d.cqeHeld && decide (d.mode ≤ 1) && d.fld Reg.PWR_MODE_STS 6 4 == 0 &&
  d.twin != 5 && d.flag Reg.TST_BRG_STS 5

/-- The tick of the doorbell write that covered entry `n` of a queue. -/
def Queue.doorbellOf (q : Queue) (n now : Nat) : Nat :=
  match q.dbTicks.find? (fun x => (x.1 + 65536 - n - 1) % 65536 < 32) with
  | some x => x.2
  | none => now

/-- Squash commands of a queue: their versions and slots go, their units are stale (R150) and stay in INFLIGHT until they have drained, and
their tags wait for their entries (R130 step 3, R151). -/
def Dev.squash (d : Dev) (qid : Nat) (p : Cmd → Bool) : Dev :=
  let q := d.queue qid
  let dead := q.live.filter p
  let d := d.setQueue qid { q with
    cmds := q.cmds.filter (fun c => c.done || !p c), squash := (tagsOf dead).foldl insertSorted q.squash
    stale := q.stale ++ (dead.filter (fun c => c.fin < c.units)).map (fun c => (c.sgen, c.qgen, c.units - c.fin)) }
  dead.foldl (fun d c => if writeType c.op then d.onFail qid c else d) d

/-- The stale units of a queue have finished their last stage and are discarded (R130, R150): they leave INFLIGHT. -/
def Dev.drainStale (d : Dev) (qid : Nat) : Dev :=
  let q := d.queue qid
  if q.stale.isEmpty then d
  else
    let x := d.slice (qid / 16)
    let d := d.setSlice (qid / 16) { x with inflight := x.inflight - sumL (q.stale.map (fun u => u.2.2)) }
    d.setQueue qid { q with stale := [] }

/-- A command has a dispatched unit, or has placed its blocks. -/
def Cmd.started (c : Cmd) : Bool := decide (0 < c.units) || c.placed

/-- Discard a queue's unfetched entries: SQ_HEAD moves to the last accepted tail (R130 step 4). -/
def Dev.discardUnfetched (d : Dev) (qid : Nat) : Dev :=
  let q := d.queue qid
  d.setQueue qid { q with discarded := q.discarded + q.unfetched, sqHead := q.sqTail, dbTicks := [] }

/-- Post the squashed tags in ascending order with one status, then the reset-done entry (R130 steps 5 and 6,
R131), and resume.  On a ring whose access failed they are written like the others, with no retry that may fail again (DESIGN CHOICE, log 254). -/
def Dev.resetDone (d : Dev) (qid status : Nat) : Dev :=
  let q := d.queue qid
  let tags := q.squash
  let n := q.discarded
  let bitmap := tags.foldl (fun a t => a ||| 2 ^ t) 0
  let d := d.setQueue qid { q with squash := [], discarded := 0, fault := false, cqFault := false }
  let d := d.releaseHeld qid
  let d := tags.foldl (fun d t => d.post qid ⟨t, 2, status, 0, 0⟩) d
  let d := d.post qid ⟨0, 1, stSuccess, n, bitmap⟩
  let q := d.queue qid
  d.setQueue qid { q with resetting := false, dbErr := false }

/-- The queues of a slice. -/
def queuesOf (s : Nat) : List Nat := (List.range 16).map (fun p => 16 * s + p)

/-- The cut of a slice reset (R150, R151): the generation moves on, commands with a dispatched unit end (a write that has been placed has
had its units dispatched), those without end only under POLICY = 1, and unfetched entries are discarded. -/
def Dev.sliceCut (d : Dev) (s : Nat) : Dev :=
  let x := d.slice s
  let d := d.setKept s { x with sgen := (x.sgen + 1) % 16, cutWaits := false }
  (queuesOf s).foldl (fun d q =>
    (d.squash q (fun c => c.started || x.policy == 1)).discardUnfetched q) d

/-- A queue reset of the slice runs. -/
def Dev.queueResetRuns (d : Dev) (s : Nat) : Bool := (queuesOf s).any (fun q => (d.queue q).resetting)

/-- Start a queue reset (R130): dropped while one runs (R133), unless the slice is ACTIVE (R149, R155, Table
VSL-1), or on a disabled queue, which has nothing to reset.  A manager's CQE_Q_RST is dropped there as Q_RESET is (DESIGN CHOICE, log 253). -/
def Dev.queueReset (d : Dev) (qid : Nat) : Dev :=
  let q := d.queue qid
  if !q.en || q.resetting || (d.slice (qid / 16)).st != .active then d
  else
    let d := d.setQueue qid { q with resetting := true, qgen := (q.qgen + 1) % 16 }
    let d := d.squash qid (fun _ => true)
    d.discardUnfetched qid

/-- Move a slice to a state; each change of state is journaled (R561). -/
def Dev.sliceTo (d : Dev) (s : Nat) (st : SliceSt) : Dev :=
  if (d.slice s).st = st then d else (d.setSlice s { d.slice s with st := st }).keepSlice s

/-- Outstanding commands of a slice in all its queues. -/
def Dev.sliceCmds (d : Dev) (s : Nat) : List Cmd := (queuesOf s).flatMap (fun q => (d.queue q).cmds)

/-- The share test of R143. -/
def Dev.shareOpen (d : Dev) (s : Nat) : Bool := decide ((d.slice s).inflight < (d.slice s).shareAct * 256)

/-- A command may go on under the share (R143): it has units in flight, all of them have been dispatched, or the next one may be. -/
def Dev.shareFor (d : Dev) (s : Nat) (c : Cmd) : Bool := decide (c.nblk ≤ c.units) || decide (c.fin < c.units) || d.shareOpen s

/-- Dispatch up to `n` of a command's next units, each while the share test holds (R143, R147): they go on the slice's head of the moment (R97) and
carry the generations of the moment (R150); the command as it then is, and the state. -/
def Dev.admitUnits (d : Dev) (qid : Nat) (c : Cmd) (n : Nat) : Cmd × Dev :=
  let x := d.slice (qid / 16)
  let k := min (min n (c.nblk - c.units)) (x.shareAct * 256 - x.inflight)
  if k = 0 then (c, d)
  else
    let c' : Cmd := { c with
      units := c.units + k, sgen := x.sgen, qgen := (d.queue qid).qgen, ioTick := if c.units = 0 then d.tick else c.ioTick
      heads := c.heads ++ List.replicate k ((d.sliceHead (qid / 16)).getD (d.headByte (qid / 16) % 4)) }
    (c', (d.setSlice (qid / 16) { x with inflight := x.inflight + k }).setCmd qid c')

/-- The host memory accesses of some commands are measured from now (R67). -/
def Dev.ioFrom (d : Dev) (p : Nat → Cmd → Bool) : Dev :=
  { d with queues := d.queues.map (fun (kv : Nat × Queue) => (kv.1, { kv.2 with cmds := kv.2.cmds.map (fun c => if p kv.1 c then { c with ioTick := d.tick } else c) })) }

/-- Some slices have a head to move on from now. -/
def Dev.movesFrom (d : Dev) (f : Nat → Bool) : Dev := d.ioFrom (fun q _ => f (q / 16))

/-- The dispatched units of a command have finished their last stage. -/
def Dev.retireUnits (d : Dev) (qid : Nat) (c : Cmd) : Cmd × Dev :=
  let x := d.slice (qid / 16)
  let c' : Cmd := { c with fin := c.units }
  (c', (d.setSlice (qid / 16) { x with inflight := x.inflight - (c.units - c.fin) }).setCmd qid c')

/-- The rest of a command's units pass in this step: each is dispatched when an earlier one has finished, and as many as the share admits are
still in flight at its end. -/
def Dev.passUnits (d : Dev) (qid : Nat) (c : Cmd) : Cmd × Dev :=
  let r := d.admitUnits qid c c.nblk
  let c' : Cmd := { r.1 with
    fin := r.1.fin + (r.1.nblk - r.1.units), units := r.1.nblk
    heads := r.1.heads ++ List.replicate (r.1.nblk - r.1.units) ((d.sliceHead (qid / 16)).getD (d.headByte (qid / 16) % 4)) }
  (c', r.2.setCmd qid c')

/-- No earlier-fetched command of the queue that may start has still to start: commands start in fetch order (R147). -/
def Queue.inOrder (q : Queue) (c : Cmd) : Bool :=
  !q.cmds.any (fun p => decide (p.fetched < c.fetched) && (readType p.op || writeType p.op) && !p.done && !p.waiting && !p.started && q.free p)

/-- The slice's commands stand still: its reset has been cut and its reset-done entries are not posted (R151: a drained command completes
after them). -/
def Dev.cutRuns (d : Dev) (s : Nat) : Bool := (d.slice s).st == .resetting && !(d.slice s).cutWaits

/-- The commands of the table's I/O rows run on a command that is outstanding under the tag with that opcode,
not ended, not held by R125, of a slice whose units may move. -/
def Dev.ready (d : Dev) (qid tag op : Nat) : Option Cmd :=
  let q := d.queue qid
  match q.cmd? tag with
  | none => none
  | some c =>
    if c.op == op && !c.done && q.free c && !d.cutRuns (qid / 16) && !d.dumping && d.twin != 5 then some c else none

end Sys2Proof.Machine
end

