-- ==== Sys2Proof/Machine/DomOps.lean ====
section
/-! DEFINITION. Channel-group domains (chapter 14): their records, the wake of a domain that is not ON, and the
dump set. -/

namespace Sys2Proof.Machine

def Dev.dom (d : Dev) (g : Nat) : Dom := SMap.get (fun _ => Dom.reset) d.doms g
def Dev.setDom (d : Dev) (g : Nat) (x : Dom) : Dev := { d with doms := SMap.set (fun _ => Dom.reset) d.doms g x }

/-- A flash port. -/
def Dev.port (d : Dev) (p : Nat) : Port := SMap.get (fun _ => Port.reset) d.ports p

/-- Replace a flash port. -/
def Dev.setPort (d : Dev) (p : Nat) (x : Port) : Dev := { d with ports := SMap.set (fun _ => Port.reset) d.ports p x }

/-- Set a domain's state in PWR_DOM_STS and in its ports' FCH_P_STS.PWR (0 ON, 1 RET, 2 OFF); dies that
go OFF lose their offset slots (R303), and the lap of the sieve that runs has seen the domain not ON (R296). -/
def Dev.setDomSt (d : Dev) (g st : Nat) : Dev :=
  let d := d.setFld (Reg.PWR_DOM_STS (g / 16)) (2 * (g % 16) + 1) (2 * (g % 16)) st
  let d : Dev := if st = 0 then d else { d with coldNow := insertSorted d.coldNow g }
  (List.range 8).foldl (fun d i =>
    let d := if st = 2 then d.setPort (8 * g + i) { d.port (8 * g + i) with slots := [] } else d
    d.setFld (Reg.FCH_P_STS (8 * g + i)) 6 5 st) d

/-- The eight ports of a group. -/
def portsOf (g : Nat) : List Nat := (List.range 8).map (fun i => 8 * g + i)

/-- FCH_P_STS.LSTATE (Table FCH-1). -/
def Dev.lstate (d : Dev) (p : Nat) : Nat := d.fld (Reg.FCH_P_STS p) 2 0

/-- Recount the common registers of Table FCH-3. -/
def Dev.fchCounts (d : Dev) : Dev :=
  let n (f : Nat → Bool) : Nat := ((List.range 512).filter f).length
  let d := d.setFld Reg.FCH_C_UP 9 0 (n (fun p => d.lstate p == 5))
  let d := d.setFld Reg.FCH_C_FAILED 9 0 (n (fun p => d.flag (Reg.FCH_P_STS p) 7))
  d.setFld Reg.FCH_C_HANDED 9 0 (n (fun p => d.flag (Reg.FCH_P_STS p) 8))

/-- Move a lane to a state; a change raises LANE_CHG. -/
def Dev.setLstate (d : Dev) (p st : Nat) : Dev :=
  if d.lstate p = st then d else (((d.setFld (Reg.FCH_P_STS p) 2 0 st).fchCounts).raise (0x800 + p) 0).capRecFree 0x22 p [0, st]

/-- A lane that is trained from DETECT starts at SEQ 0, with its replay buffer and its queues empty (R259, R281). -/
def Port.linkReset (x : Port) (tick : Nat) : Port :=
  { x with rxNext := 0, rxNak := false, txNext := 0, txBuf := [], txTick := tick, tx0 := [], tx1 := [], rx0 := [], rx1 := [], asks := [],
           initTick := tick, rtts := [], testTag := 0, testEnd := 0 }

/-- The lanes of a waking group leave electrical idle and train from DETECT, or leave standby by training ordered sets, which keeps their SEQ: those
are shown in RECOVERY, and count as none (R281; DESIGN CHOICE, log 241). -/
def Dev.wakeLanes (d : Dev) (g : Nat) : Dev :=
  (portsOf g).foldl (fun (d : Dev) p =>
    if d.lstate p = 0 then (d.setPort p ((d.port p).linkReset d.tick)).setLstate p 1
    else if d.lstate p = 5 then (d.setPort p { d.port p with initTick := d.tick }).setLstate p 6
    else d) d

/-- The group is in this unit's dump set (R435). -/
def Dev.dumpGroup (d : Dev) (g : Nat) : Bool :=
  if g < 32 then d.flag Reg.PWR_DUMPSET_LO g else d.flag Reg.PWR_DUMPSET_HI (g - 32)

/-- Demand a domain (R429, R431): one that is not ON starts to wake; one stepping down finishes the step first and
then wakes; one that is ON is held for T_RET from now. -/
def Dev.wakeDomain (d : Dev) (g : Nat) : Dev :=
  let x := { d.dom g with park := 0 }
  if x.leaving then d.setDom g { x with again := true, demand := if x.again then x.demand else d.tick }
  else if d.domSt g = 0 then d.setDom g { x with last := d.tick }
  else if x.waking then d
  else (d.setDom g { x with waking := true, demand := d.tick }).wakeLanes g

/-- The controller is dirty (R435): a cache slot in use, a dirty window granule, or a delta record not reclaimed. -/
def Dev.isDirty (d : Dev) : Bool := 0 < d.usedSlots || !d.pwDirty.isEmpty || 0 < d.dlog

/-- Wake the dump-set domains that are OFF while the controller is dirty (R435). -/
def Dev.dumpSetWake (d : Dev) : Dev :=
  if d.isDirty then
    ((List.range 64).filter (fun g => d.dumpGroup g && d.domSt g == 2)).foldl (fun d g => d.wakeDomain g) d
  else d

/-- Every dump-set domain is ON or RET. -/
def Dev.dumpSetUp (d : Dev) : Bool := (List.range 64).all (fun g => !d.dumpGroup g || d.domSt g != 2)

/-- A group whose state the twin's policy sets (R433). -/
def Dev.followed (d : Dev) (g : Nat) : Bool := d.paired && g % 2 != d.side

/-- A domain reached ON: each waiting command's WAKE_US is the longest time one of its operations waited (R429), in µs rounded
up, saturating at 4,095. -/
def Dev.domReached (d : Dev) (g : Nat) : Dev :=
  let x := d.dom g
  let us (t : Nat) : Nat := max 1 (satN 12 (ceilDiv (d.tick - t) 1000))
  let d := x.waiters.foldl (fun (d : Dev) w => match (d.queue w.1).cmd? w.2.1 with
    | some c => d.setCmd w.1 { c with wakeUs := max c.wakeUs (us w.2.2) }
    | none => d) d
  let longest := if x.waking then satN 12 (ceilDiv (d.tick - x.demand) 1000) else 0
  d.setDom g { x with waking := false, parked := false, last := d.tick, waiters := [], wakes := satN 32 (x.wakes + 1),
                      wakeMax := max x.wakeMax longest }

/-- The owner journals a domain's state (R433). -/
def Dev.journalDom (d : Dev) (g st : Nat) : Dev := d.journal { JBatch.none with doms := [(g, st)] }

/-! ### What keeps a domain up (R431) -/

/-- A band has a die block set in a group. -/
def Dev.bandIn (d : Dev) (b g : Nat) : Bool := (d.setsOf b).any (fun s => s.port / 8 == g)

/-- An export has a granule of the group still to read. -/
def Dev.exportIn (d : Dev) (g : Nat) : Bool :=
  d.flag Reg.VSL_EXP_STS 0 &&
  (d.mappedOf (d.fld Reg.VSL_EXP_CTL 13 4)).any (fun (kv : Nat × MapEnt) => decide (d.exp.cursor < 8 * (kv.1 % 2 ^ 37) + 8) &&
    (match kv.2.loc with | some l => l.port / 8 == g | none => false))

/-- Nothing of R431 is outstanding or queued for the domain, and the sieve does not hold it (R314). -/
def Dev.canLeave (d : Dev) (g : Nat) : Bool :=
  (portsOf g).all (fun p => (d.port p).ops.isEmpty) &&
  !d.rbQueue.any (fun b => d.bandIn b g) &&
  !d.bands.any (fun (kv : Nat × Band) => kv.2.st == .victim && d.bandIn kv.1 g) && !d.exportIn g && !(d.dom g).sieve

/-- No die-parity accumulator of a set in the domain remains. -/
def Dev.noDpar (d : Dev) (g : Nat) : Bool :=
  !d.dpar.any (fun (kv : Nat × List Nat) => decide (kv.1 / 2 ^ 18 / 8 = g) && !kv.2.isEmpty)

/-- An open band has a die block set in the group. -/
def Dev.openIn (d : Dev) (g : Nat) : Bool :=
  d.bands.any (fun (kv : Nat × Band) =>
    (kv.2.st == .openSlc || kv.2.st == .openQlc || kv.2.st == .openMeta) && d.bandIn kv.1 g)

end Sys2Proof.Machine
end

