-- ==== Sys2Proof/Machine/EccOps.lean ====
section
/-! DEFINITION. Reading flash (chapters 10 and 11): the tracker, the rewrite threshold, erasures, the outcome of
one codeword's ladder, and the poisoning of a column with more than three erasures. -/

namespace Sys2Proof.Machine

/-! ### The erasure log (R331) -/

/-- Put a codeword into the erasure log (R331). -/
def Dev.logErasure (d : Dev) (band stripe pos col : Nat) : Dev :=
  let k := elogKey band stripe pos col
  if d.elog.contains k then d
  else
    let d := { d with elog := d.elog ++ [k] }
    d.setFld Reg.SHF_ELOG 19 0 (satN 20 d.elog.length)

/-- Take codewords out of the erasure log. -/
def Dev.unlogErasures (d : Dev) (p : Nat → Bool) : Dev :=
  let d := { d with elog := d.elog.filter (fun k => !p k) }
  d.setFld Reg.SHF_ELOG 19 0 (satN 20 d.elog.length)

/-- Replace one block of a granule. -/
def Gran.putBlk (g : Gran) (k : Nat) (b : Blk) : Gran := { g with blks := setAt g.blks k b }

/-- Poison the block that a data codeword of a page holds (R291: column 8 × half + block). -/
def Dev.poisonCw (d : Dev) (key col : Nat) : Dev :=
  let f := d.fpage key
  if f.parity then d
  else
    let bad (g : Gran) : Bool := (g.blks[col % 8]?).any (fun b => b.poison)
    if col < 8 then
      match f.half0 with
      | some g => if bad g then d else
        (d.setFPage key { f with half0 := some (g.putBlk (col % 8) poisonBlk) }).inc Reg.SHF_POISON 1
      | none => d
    else
      match f.half1 with
      | some g => if bad g then d else
        (d.setFPage key { f with half1 := some (g.putBlk (col % 8) poisonBlk) }).inc Reg.SHF_POISON 1
      | none => d

/-- A column has reached a fourth erasure (R335): its erased data codewords are poisoned, an incident is logged,
UNRECOV is raised and error 0x0102 recorded. -/
def Dev.poisonColumn (d : Dev) (band stripe col : Nat) : Dev :=
  let d := ((d.erasures band stripe col).filter (fun j => roleOf j stripe < 16)).foldl
    (fun d j => d.poisonCw (d.chunkKey band stripe j) col) d
  (d.errIncident 0xB00 0x0102 band (stripe * 16 + col) none none none none).raise 0xB00 2

/-- The programmed stripes' columns of a band that have more than three erasures. -/
def Dev.overColumns (d : Dev) (band : Nat) : List (Nat × Nat) :=
  (List.range (d.band band).next).flatMap (fun k =>
    ((List.range 16).filter (fun c => decide (3 < (d.erasures band k c).length))).map (fun c => (k, c)))

/-- Poison the columns that a failure has brought above three erasures (R335, R342). -/
def Dev.poisonNew (d : Dev) (before : List (Nat × Nat)) (band : Nat) : Dev :=
  ((d.overColumns band).filter (fun kc => !before.contains kc)).foldl (fun d kc => d.poisonColumn band kc.1 kc.2) d

/-! ### The tracker (R296 to R302) -/

/-- The key of a die block set. -/
def setKey (port die block : Nat) : Nat := (port * 64 + die) * 4096 + block

def Dev.trkOf (d : Dev) (k : Nat) : Trk := SMap.get (fun _ => Trk.reset) d.trk k
def Dev.setTrk (d : Dev) (k : Nat) (t : Trk) : Dev := { d with trk := SMap.set (fun _ => Trk.reset) d.trk k t }

/-- ECC_DAY. -/
def Dev.eccDay (d : Dev) : Nat := d.fld Reg.ECC_DAY 15 0

/-- revisit(b) of R296. -/
def Dev.revisit (d : Dev) (k : Nat) : Nat :=
  let g := k / 2 ^ 21
  if d.coldPrev.contains g || d.coldNow.contains g then d.fld Reg.ECC_SV_CTL 27 16
  else max 1 (ceilDiv (d.fld Reg.ECC_SV_LAP 19 0) 24)

/-- The rewrite threshold (R296). -/
def Dev.rwt (d : Dev) (k : Nat) : Nat :=
  max (d.fld Reg.ECC_RW_CTL 15 8)
    (184 * d.fld Reg.ECC_RW_CTL 7 0 / 100 - ceilDiv ((d.trkOf k).drift * d.revisit k) 30)

/-- Zone of a page (R299). -/
def zoneOf (slc : Bool) (page : Nat) : Nat := min 3 (if slc then page / 192 else page / 768)

/-- The thresholds a read of a page uses (R300). -/
def Dev.thresholds (d : Dev) (slc : Bool) (page : Nat) : List Nat :=
  if slc then [0] else (List.range 15).filter (fun i => d.fld Reg.ECC_RL_CODE (2 * i + 1) (2 * i) == page % 4)

/-- Polarity of a page's reads (R300). -/
def Dev.polarity (d : Dev) (slc : Bool) (page : Nat) : Int :=
  if slc || d.flag Reg.ECC_RL_POL (page % 4) then 1 else -1

/-- Move one offset and count a clamp (R299, R301). -/
def Dev.moveOfs (d : Dev) (k i : Nat) (delta : Int) : Dev :=
  let t := d.trkOf k
  let v := t.ofs.getD i 0 + delta
  let c := max (-2047) (min 2047 v)
  let d := d.setTrk k { t with ofs := setAt t.ofs i c }
  if c = v then d else (d.inc Reg.ECC_RL_SAT 1).raise 0xA01 0

/-- One tracker update (R301). -/
def Dev.trackerUpdate (d : Dev) (k page : Nat) (slc : Bool) (n01 n10 : Nat) : Dev :=
  let diff : Int := (n10 : Int) - (n01 : Int)
  if !d.flag Reg.ECC_RL_CTL 0 || decide (n01 + n10 < d.fld Reg.ECC_RL_CTL 23 16) ||
      decide (diff.natAbs ≤ d.fld Reg.ECC_RL_CTL 15 8) then d
  else
    let s : Int := d.polarity slc page * diff.sign
    let gain := d.fld Reg.ECC_RL_CTL 7 4
    let z := zoneOf slc page
    let d := (d.thresholds slc page).foldl
      (fun d i => d.moveOfs k (15 * z + i) (-(s * ((1 + i * gain / 16 : Nat) : Int)))) d
    let t := d.trkOf k
    (d.setTrk k { t with upd := min (t.upd + 1) 65535 }).inc Reg.ECC_RL_UPD 1

/-- The fresh offsets of a set's die for a mode (R302, R311); a block in SLC mode uses threshold 0 of each zone only (R299). -/
def Dev.freshOfs (d : Dev) (k : Nat) (slc : Bool) : List Int :=
  let f := SMap.get (fun _ => []) d.fresh (k / 4096)
  (List.range 60).map (fun i => if slc then (if i % 15 = 0 then f.getD (60 + i / 15) 0 else 0) else f.getD i 0)

/-- Reset an entry, as when its set is erased (R302), with the fresh offsets of a mode. -/
def Dev.trackerReset (d : Dev) (k : Nat) (slc : Bool) : Dev :=
  d.setTrk k { d.trkOf k with ofs := d.freshOfs k slc, eprev := 255, vday := d.eccDay, upd := 0 }

/-- The entry of a set that has been erased.  The mode of the set's next open shows when its band opens: until then OFS holds the QLC
offsets (DEDUCED, log 226). -/
def Dev.trackerErase (d : Dev) (k : Nat) : Dev := d.trackerReset k false

/-- A set takes the fresh offsets of the mode in which it is opened (R302). -/
def Dev.trackerMode (d : Dev) (slc : Bool) (k : Nat) : Dev := d.setTrk k { d.trkOf k with ofs := d.freshOfs k slc }

/-- A band's sets take the fresh offsets of the mode in which it opens. -/
def Dev.trackerOpen (d : Dev) (b : Nat) (slc : Bool) : Dev :=
  ((d.setsOf b).map (fun s => setKey s.port s.die s.block)).foldl (fun (d : Dev) k => d.trackerMode slc k) d

/-- The set belongs to a band whose blocks are in SLC mode. -/
def Dev.inSlc (d : Dev) (k : Nat) : Bool :=
  d.bands.any (fun kv => kv.2.slc && kv.2.st != .free && kv.2.st != .withdrawn && kv.2.st != .erasing && (d.setsOf kv.1).any (fun s => setKey s.port s.die s.block == k))

/-- MAP marks a band for refresh on a report (R297): a band already marked, VICTIM or ERASING is left as it is. -/
def Dev.markRefresh (d : Dev) (b : Nat) : Dev :=
  let x := d.band b
  if x.refresh || x.st == .victim || x.st == .erasing || x.st == .free || x.st == .withdrawn then d
  else
    let d := { d.setBand b { x with refresh := true } with rfshDays := d.rfshDays ++ [d.eccDay] }
    d.setFld Reg.ECC_RFSH_30D 19 0 (d.rfshDays.filter (fun x => decide (d.eccDay < x + 30))).length

/-- A report under R297, counted in ECC_OVER_RWT. -/
def Dev.reportBand (d : Dev) (b : Nat) : Dev := (d.inc Reg.ECC_OVER_RWT 1).markRefresh b

/-! ### The ladder (R304, R305) -/

/-- How one codeword of a read came out. -/
inductive CwOut where
  | ok | rebuilt | lost
deriving DecidableEq, Repr

/-- A codeword is handed to SHF: error 0x0104, TO_SHF, the erasure log (R305, R331); one that die parity covered and
did not recover records 0x0106 and raises DPAR_FAIL first (R309). -/
def Dev.toShf (d : Dev) (port die block page band stripe pos col : Nat) : Dev :=
  let d := d.inc Reg.ECC_CW_SHF 1
  let covered := (SMap.get (fun _ => []) d.dpar (setKey port die block)).contains page
  let d := if covered then
      (d.recordErr 0xA00 0x0106 (port * 64 + die) (block * 4096 + page)).raise 0xA00 3
    else d
  let d := (d.recordErr 0xA00 0x0104 (port * 64 + die) (block * 4096 + page)).raise 0xA00 2
  d.logErasure band stripe pos col

/-- Reconstruct an erased codeword for a read (R332 to R336): rebuilt, or, where its column has no sixteen codewords to solve it from, poisoned with the
others of the column. -/
def Dev.reconstruct (d : Dev) (band stripe col : Nat) : CwOut × Dev :=
  if 3 < (d.unknowns band stripe col).length then (.lost, d.poisonColumn band stripe col)
  else (.rebuilt, d.inc Reg.SHF_DEG_READS 1)

/-- The HBM offset of an entry of the read-level table (R296, Table ARC-2). -/
def Dev.trkOff (d : Dev) (k : Nat) : Nat :=
  0x2000000000 + 128 * (k / 262144 * 131072 + k / 4096 % 64 * (131072 / d.diesPerPort) + k % 4096)

/-- The entries of a page that failed and found no substitute are reset at every use (Table STK-5). -/
def Dev.trackerUse (d : Dev) (k : Nat) : Dev := if d.hbmBare.contains (d.trkOff k / 65536) then d.trackerReset k (d.inSlc k) else d

end Sys2Proof.Machine
end

