-- ==== Sys2Proof/Machine/View.lean ====
section
/-! DEFINITION. What a read of BAR0 returns (R36, R37, R43, R49, R557): the page headers, the registers behind selectors (R559), the
scorepad banks (Table SCP-7), and the published copies of the registers that SEQ covers (R54). -/

namespace Sys2Proof.Machine

/-! ### Registers that a selector register or the state of the device gives -/

/-- The lower or upper half of a value, by whether the offset is the second of its pair. -/
def half32 (hi : Bool) (v : Nat) : Word := w32 (if hi then v / 2 ^ 32 else v)

/-- CQE page: the context of the queue that CQE_QSEL names (Table CQE-8). -/
def Dev.liveCqe (d : Dev) (rel : Nat) : Word :=
  let q := d.queue (d.fld Reg.CQE_QSEL 13 0)
  match rel with
  | 0x104 => w32 (q.en.toNat + 2 * q.ien.toNat + 4 * q.coalN + 2 ^ 8 * q.coalUs + 2 ^ 16 * q.vector)
  | 0x108 => half32 false q.sqb
  | 0x10C => half32 true q.sqb
  | 0x110 => half32 false q.cqb
  | 0x114 => half32 true q.cqb
  | 0x118 => w32 (q.sqHead + 2 ^ 16 * q.sqTail)
  | 0x11C => w32 (q.cqPosted + 2 ^ 16 * q.cqHead)
  | 0x120 => w32 q.outBits
  | 0x124 => w32 (q.sts + 2 ^ 8 * (q.qgen % 16))
  | _ => d.reg (0x200000 + rel)

/-- VSL page 0: the slice that VSL_SSEL names (Table VSL-7). -/
def Dev.liveVsl (d : Dev) (rel : Nat) : Word :=
  let s := d.fld Reg.VSL_SSEL 9 0
  let x := d.slice s
  match rel with
  | 0x104 => w32 (x.bound.toNat + 2 * x.trumpEn.toNat + 4 * x.qpMax)
  | 0x108 => w32 x.pasid
  | 0x10C => half32 false x.blks
  | 0x110 => half32 true x.blks
  | 0x114 => w32 (x.share + 2 ^ 16 * x.tshare)
  | 0x118 => w32 (x.shareAct + 2 ^ 16 * x.tshareAct)
  | 0x11C => w32 x.pin
  | 0x120 => w32 x.hdrm
  | 0x124 => 0
  | 0x128 => w32 (x.st.code + 8 * x.pendShare.toNat + 16 * (x.sgen % 16) + 2 ^ 8 * x.opBusy.toNat + 2 ^ 9 * x.opErr.toNat)
  | 0x12C => w32 x.inflight
  | 0x130 => half32 false (d.highLba s)
  | 0x134 => half32 true (d.highLba s)
  | 0x138 => half32 false x.blob
  | 0x13C => half32 true x.blob
  | 0x140 => half32 false x.saveseq
  | 0x144 => half32 true x.saveseq
  | _ => d.reg (0x300000 + rel)

/-- FIXED as a GCM context uses it (R181): KEYGEN in [63:48], SIDE in [0]. -/
def Ctx.fixedUsed (x : Ctx) (side : Nat) : Nat := if x.mode = 2 then x.fixed / 2 % 2 ^ 47 * 2 + side + x.keygen * 2 ^ 48 else 0

/-- CRY page: the context that CRY_CSEL names (Table CRY-10); the key registers read as 0, and the record buffer as 0 except after
EXPORT_WRAPPED or SAVE_STATE (R190). -/
def Dev.liveCry (d : Dev) (rel : Nat) : Word :=
  let x := d.ctx (d.fld Reg.CRY_CSEL 11 0)
  let inv := if d.side = 0 then x.invoc0 else x.invoc1
  let mark := if d.side = 0 then x.mark0 else x.mark1
  let exh := x.mode == 2 && inv == 2 ^ 32
  if 0x200 ≤ rel ∧ rel < 0x280 then (if d.xbufShown then d.reg (0x400000 + rel) else 0)
  else if 0x180 ≤ rel ∧ rel < 0x1A0 then 0
  else
    match rel with
    | 0x104 => w32 (x.st.code + 4 * x.mode + 16 * x.exportable.toNat + 32 * x.low.toNat + 64 * exh.toNat + 2 ^ 16 * x.keygen)
    | 0x108 => if exh then 0 else w32 inv
    | 0x10C => if mark = 2 ^ 32 then 0xFFFFFFFF else w32 mark
    | 0x110 => half32 false (x.fixedUsed d.side)
    | 0x114 => half32 true (x.fixedUsed d.side)
    | 0x118 => half32 false x.label
    | 0x11C => half32 true x.label
    | _ => d.reg (0x400000 + rel)

/-- The word of PWR_DOM_INFO (Table PWR-13) for a group. -/
def Dev.domInfo (d : Dev) (g : Nat) : Word :=
  let x := d.dom g
  let st := d.domSt g
  w32 (st + 4 * x.waking.toNat + 8 * x.leaving.toNat + 16 * (d.dumpGroup g).toNat + 32 * (d.followed g).toNat + 64 * x.parked.toNat +
    2 ^ 8 * (!d.canLeave g).toNat + 2 ^ 9 * (d.openIn g).toNat + 2 ^ 10 * (!d.noDpar g).toNat +
    2 ^ 11 * (d.isDirty && d.dumpGroup g).toNat + 2 ^ 12 * (decide (x.floor ≤ st) && decide (st < 2)).toNat)

/-- PWR page 1: the domain that PWR_DSEL names. -/
def Dev.livePwr1 (d : Dev) (rel : Nat) : Word :=
  let g := d.fld Reg.PWR_DSEL 5 0
  let x := d.dom g
  match rel with
  | 0x104 => w32 (x.floor + 16 * x.tRet + 2 ^ 16 * x.tOff)
  | 0x108 => 0
  | 0x10C => d.domInfo g
  | 0x110 => w32 x.wakes
  | 0x114 => w32 x.wakeMax
  | _ => d.reg (0xD01000 + rel)

/-- SHF page 0: the band that SHF_BSEL names (Table SHF-5). -/
def Dev.liveShf (d : Dev) (rel : Nat) : Word :=
  let b := d.fld Reg.SHF_BSEL 22 0
  let x := d.band b
  if rel = 0x110 then
    let worst := d.bandErasures b
    w32 (min 3 worst + 4 * (decide (3 < worst)).toNat + 8 * (d.rbQueue.contains b).toNat + 2 ^ 16 * (x.progress % 4096))
  else if 0x200 ≤ rel ∧ rel < 0x24C then
    match (d.setsOf b)[(rel - 0x200) / 4]? with
    | some s => w32 (s.port + 2 ^ 9 * s.die + 2 ^ 15 * (s.block % 4096) + 2 ^ 27 * s.repl.toNat +
        2 ^ 28 * (d.dieGone s.port s.die || s.erased).toNat)
    | none => 0
  else d.reg (0xB00000 + rel)

/-- ECC page 3: the array that ECC_ARR_SEL names.  The spec does not say which arrays hold data, nor in which island each lies: free
values. -/
def Dev.liveArr (d : Dev) (rel : Nat) : Word :=
  if rel = 0x114 then
    let a := d.fld Reg.ECC_ARR_SEL 12 0
    if 5120 ≤ a then 0
    else w32 ((SMap.get (fun _ => []) d.remapped a).length + 16 * (Config.free (2 ^ 121 + a) % 2) +
      2 ^ 8 * (Config.free (2 ^ 122 + a) % 256) + 2 ^ 16 * SMap.get (fun _ => 0) d.arrCe a)
  else d.reg (0xA03000 + rel)

/-- GLB_INT_SUM: the blocks with a line asserted. -/
def Dev.intSum (d : Dev) : Nat :=
  (List.range 16).foldl (fun a b => a + 2 ^ b * (d.pages.any (fun kv => kv.2.line && pageBlock kv.1 == b)).toNat) 0

/-- A register read as two's complement. -/
def Dev.regInt (d : Dev) (off : Nat) : Int := (d.reg off).toInt

/-- DLR_SLEW_LEFT. -/
def Dev.slewLeft (d : Dev) : Int := d.regInt Reg.DLR_SLEW_LEFT

/-- LOCKED of DLR_TIME_STS. -/
def Dev.timeLocked (d : Dev) : Bool := d.flag Reg.DLR_TIME_STS 0

/-- GLB_TIME_UNC at the tick (Table DLR-2, R563). -/
def Dev.uncNow (d : Dev) : Nat :=
  let m := d.slewLeft.natAbs + d.timeFig
  satN 32 (
    if d.coarse then (if d.timeLocked then max d.timePre m else d.fld Reg.GLB_TIME_UNC 31 0)
    else match d.lossAt with
      | some (t, u) => u + (d.tick - t) / 100000
      | none => m)

/-- GLB page (Table REG-6); GLB_TIME_HI and GLB_TIME_EPOCH are the latched copies (R57). -/
def Dev.liveGlb (d : Dev) (off : Nat) : Word :=
  match off with
  | 0x124 => w32 d.intSum
  | 0x140 => w32 d.tick
  | 0x14C => w32 d.uncNow
  | 0x144 => d.latHi
  | 0x148 => d.latEpoch
  | _ => d.reg off

/-! ### Scorepad banks -/

/-- The bank view of an offset: the bank and the offset from its base (Table SCP-7). -/
def bankAt (off : Nat) : Option (Nat × Nat) :=
  let rel := off % 0x1000
  if 0xF01000 ≤ off ∧ off < 0xF57000 ∧ 0x100 ≤ rel then
    let b := 3 * (off / 0x1000 - 0xF01) + (rel - 0x100) / 0x500
    if (rel - 0x100) / 0x500 < 3 ∧ b < 256 then some (b, (rel - 0x100) % 0x500) else none
  else none

/-- The eight-byte statistics of a window from 0x018 on, COUNT to MAX_TICK, with the epochs and marks of its extremes. -/
def BankWin.word (w : BankWin) (k : Nat) : Word :=
  let v := [w.start, w.count, w.sum, w.min, w.minTick, w.max, w.maxTick].getD (k / 8) 0
  if k < 56 then half32 (k % 8 == 4) v
  else if k = 56 then w32 (w.minEpoch + 2 ^ 16 * w.maxEpoch)
  else w32 (w.minCoarse.toNat + 2 * w.maxCoarse.toNat)

/-- A bin of a window. -/
def BankWin.bin (w : BankWin) (k : Nat) : Word := half32 (k % 8 == 4) (SMap.get (fun _ => 0) w.bins (k / 8))

/-- A bank's registers: what the last publication showed (R469). -/
def Dev.bankReg (d : Dev) (b r off : Nat) : Word :=
  let k := d.bank b
  if r = 0 then k.seq
  else if r < 0x10 then d.reg off
  else if r = 0x10 then w32 (k.pubCur.sat.toNat + 2 * k.pubLast.sat.toNat + 2 ^ 16 * k.closed)
  else if r < 0x18 then 0
  else if r < 0x58 then k.pubCur.word (r - 0x18)
  else if r < 0x98 then k.pubLast.word (r - 0x58)
  else if r < 0x100 then 0
  else if r < 0x300 then k.pubCur.bin (r - 0x100)
  else if r < 0x500 then k.pubLast.bin (r - 0x300)
  else 0

/-! ### The current value of any register from 0x100 -/

/-- What a register holds now, before R54 decides when software sees it. -/
def Dev.liveReg (d : Dev) (off : Nat) : Word :=
  let rel := off % 0x1000
  match bankAt off with
  | some br => d.bankReg br.1 br.2 off
  | none =>
    match off / 0x1000 with
    | 0 => d.liveGlb off
    | 0x200 => d.liveCqe rel
    | 0x300 => d.liveVsl rel
    | 0x400 => d.liveCry rel
    | 0x500 =>
      let s := d.fld Reg.MAP_SSEL 9 0
      if rel = 0x144 then half32 false (d.mappedOf s).length
      else if rel = 0x148 then half32 true (d.mappedOf s).length
      else if rel = 0x14C then w32 (d.slice s).pinned.length
      else d.reg off
    | 0x701 =>
      let x := d.port (d.fld Reg.DLR_PSEL 8 0)
      if rel = 0x144 then w32 (x.load + 2 ^ 16 * x.trumpLd)
      else if rel = 0x148 then w32 (x.delay + 2 ^ 16 * x.skewBad.toNat)
      else d.reg off
    | 0xA03 => d.liveArr rel
    | 0xB00 => d.liveShf rel
    | 0xC00 => if 0x180 ≤ rel ∧ rel < 0x1A0 then 0 else d.reg off
    | 0xD01 => d.livePwr1 rel
    | 0xF57 =>
      if 0x140 ≤ rel ∧ rel < 0x160 then 0
      else if rel = 0x120 then half32 false d.cap.rnum
      else if rel = 0x124 then half32 true d.cap.rnum
      else if rel = 0x128 then w32 (d.cap.staged / 1024)
      else d.reg off
    | _ =>
      match pagePort (off / 0x1000) with
      | some p => if rel = 0x100 then putBit (d.reg off) 9 (!(d.page (0x800 + p)).en) else d.reg (canonOff off)
      | none => d.reg off

/-! ### The header (Table REG-4) -/

/-- The three ASCII characters of a page's code, as ID[31:8] (Table REG-2). -/
def codeOf (blk : Nat) : Nat :=
  [0x474C42, 0x484946, 0x435145, 0x56534C, 0x435259, 0x4D4150, 0x53544B, 0x444C52, 0x464348, 0x454343, 0x534846, 0x54574E, 0x505752,
    0x4E564D, 0x534350, 0x545354].getD blk 0

/-- A page's instance number (R35). -/
def pageInst (pg : Nat) : Nat :=
  match pagePort pg with
  | some p => p
  | none => if pg = 0xEFF then 0 else pg % 0x100

/-- Work that a page's block has accepted and not completed (R46, R288). -/
def Dev.pageBusy (d : Dev) (pg : Nat) : Bool :=
  match pagePort pg with
  | some p => !(d.port p).ops.isEmpty
  | none =>
    match pageBlock pg with
    | 1 => d.pwDirty.any (fun kv => kv.2.copying) || (pg == 0x101 && (List.range 32).any (fun n => d.flag (Reg.SEG_STS n) 0))
    | 2 => d.queues.any (fun kv => !kv.2.cmds.isEmpty || kv.2.resetting)
    | 3 => if pg = 0x300 then d.slices.any (fun kv => kv.2.opBusy) else d.flag Reg.VSL_EXP_STS 0
    | 4 => d.flag Reg.CRY_OP_STS 0
    | 5 => !d.dirtyAll.isEmpty || d.cache.any (fun v => v.stage == .programmed)
    | 6 => !d.crWait.isEmpty || !d.crHold.isEmpty
    | 7 => d.ports.any (fun kv => !kv.2.ops.isEmpty)
    | 9 => d.ports.any (fun kv => kv.2.ops.any (fun o => !o.got.isEmpty))
    | 10 => !d.rbQueue.isEmpty || !d.fills.isEmpty
    | 11 => !d.gPend.isEmpty
    | 12 => decide (d.fld Reg.PWR_MODE_STS 6 4 ≠ 0) || d.dumping || d.doms.any (fun kv => kv.2.waking || kv.2.leaving)
    | 13 => d.nRun.isSome || d.nSus.isSome
    | 14 => pg == 0xF57 && (d.flag Reg.SCP_CAP_STS 0 || d.flag Reg.SCP_XP_STS 0 || d.flag Reg.SCP_RP_STS 0)
    | _ => false

/-- STS of a powered page. -/
def Dev.pageSts (d : Dev) (pg : Nat) : Word :=
  let p := d.page pg
  w32 ((d.pageReady pg).toNat + 2 * (d.pageBusy pg).toNat + 4 * p.freeze.toNat + 8 * p.isolate.toNat + 16 * p.err.toNat)

/-- The running HBM scrub lap has taken longer than STARVE_H hours (R377). -/
def Dev.scrStarved (d : Dev) : Bool :=
  d.flag Reg.STK_SCR_CTL 0 && decide (d.scrStart + d.fld Reg.STK_SCR_CTL 31 16 * 3600000000000 < d.tick)

/-- The event sources of a page that have a condition, each with its bit and the condition's level now (R43; Tables HIF-8 to TST-2): those whose
event names a state that some register or list shows.  The others are changes of a moment and have no level (DEDUCED, log 46). -/
def Dev.levels (d : Dev) (pg : Nat) : List (Nat × Bool) :=
  match pg with
  | 0x100 =>
    [(2, d.ide.any (fun kv => kv.2.insecure)), (3, d.ide.any (fun kv => kv.2.stopped)), (4, d.flag Reg.HIF_GPF_STS 1)]
  | 0x101 => [(6, !d.pwPoison.isEmpty || !d.pwDead.isEmpty)]
  | 0x200 =>
    [(0, d.queues.any (fun kv => kv.2.dbErr)), (1, d.queues.any (fun kv => kv.2.fault)),
     (2, d.queues.any (fun kv => kv.2.stallTick.any (fun t => decide (t + 1000000 < d.tick))))]
  | 0x301 => [(1, d.flag Reg.VSL_EXP_STS 2), (2, d.flag Reg.VSL_EXP_STS 1), (3, d.flag Reg.VSL_EXP_STS 3)]
  | 0x400 =>
    [(1, d.ctxs.any (fun kv => kv.2.low)),
     (2, d.ctxs.any (fun kv => kv.2.mode == 2 && (if d.side = 0 then kv.2.invoc0 else kv.2.invoc1) == 2 ^ 32)),
     (3, d.fld Reg.CRY_LANE_STS 15 0 != 0xFFFF)]
  | 0x500 => [(1, decide (0 < d.limit) && decide (d.limit ≤ d.valid)), (3, d.dlogFull), (4, !d.lost.isEmpty)]
  | 0x600 => [(0, d.fld Reg.STK_HBM_STS 7 4 != 0), (7, d.scrStarved)]
  | 0x602 =>
    [(3, d.fld Reg.STK_LADLE_STS 7 0 != 128), (4, d.flag Reg.STK_PWC_STS 0),
     (5, d.queues.any (fun kv => kv.2.cmds.any (fun c => c.waiting && c.cls == 0)))]
  | 0x701 => [(2, d.flag Reg.DLR_TSUM 17), (4, d.ports.any (fun kv => kv.2.skewBad))]
  | 0xA00 => [(1, !d.hdOut.isEmpty || !d.wkOut.isEmpty)]
  | 0xA02 => [(1, d.flag Reg.ECC_SV_STS 1)]
  | 0xA03 => [(2, !d.hbmPoison.isEmpty || !d.hbmDead.isEmpty)]
  | 0xB00 => [(0, !d.rbQueue.isEmpty), (4, d.nvm.formatted && d.fld Reg.SHF_BM_COPIES 4 2 != 7)]
  | 0xC01 => [(0, d.twin == 3), (1, d.twin == 4), (2, d.twin == 5), (3, d.twin == 6)]
  | 0xD02 => [(4, d.flag Reg.PWR_FAIL_STS 4)]
  | 0xEFF => [(3, d.flag Reg.NVM_BOOT_STS 4)]
  | 0xF00 => [(0, d.flag Reg.SCP_INC_STS 13)]
  | 0xF57 =>
    [(1, d.flag Reg.SCP_CAP_STS 1), (2, d.flag Reg.SCP_CAP_STS 2), (3, d.flag Reg.SCP_XP_STS 1), (4, d.flag Reg.SCP_RP_STS 1),
     (5, d.flag Reg.SCP_RP_STS 2)]
  | 0x1000 =>
    [(0, d.flag Reg.TST_BRG_STS 5), (1, d.fld Reg.TST_BRG_STS 9 8 != 0), (2, d.flag Reg.TST_TAP_STS 8),
     (3, d.fld Reg.TST_LOST_SLOTS 20 0 != 0)]
  | _ =>
    match pagePort pg with
    | some p => [(1, d.flag (Reg.FCH_P_STS p) 7), (2, d.reg (Reg.FCH_P_DFAIL_LO p) != 0 || d.reg (Reg.FCH_P_DFAIL_HI p) != 0)]
    | none => []

/-- INT_RAW of a page. -/
def Dev.rawNow (d : Dev) (pg : Nat) : Word := w32 (sumL ((d.levels pg).map (fun x => x.2.toNat * 2 ^ x.1)))

/-- A header register of a page; a page whose island is unpowered shows only its identity (R49). -/
def Dev.headerReg (d : Dev) (pg rel : Nat) : Word :=
  let p := d.page pg
  let blk := pageBlock pg
  let up := d.powered pg
  match rel with
  | 0x000 => w32 (codeOf blk * 2 ^ 8 + pageInst pg % 256)
  | 0x004 => 0x01004100
  | 0x008 => w32 (blockPages blk + 2 ^ 12 * intBits blk)
  | 0x00C => w32 (pageInst pg / 256 * 2 ^ 24)
  | 0x014 => if up then d.pageSts pg else 0x8
  | _ =>
    if !up then 0
    else
      match rel with
      | 0x010 => w32 (p.en.toNat + 2 * p.softRst.toNat + 4 * p.freeze.toNat + 8 * p.isolate.toNat)
      | 0x018 => if (pagePort pg).isSome then p.seq + d.comSeq else p.seq
      | 0x020 => d.rawNow pg
      | 0x024 => p.intEn
      | 0x028 => p.intPend
      | 0x02C => w32 (d.pageVec pg)
      | 0x030 => w32 (p.errCode + 2 ^ 16 * p.overflow)
      | 0x034 => p.info0
      | 0x038 => p.info1
      | 0x03C => half32 false p.errTick
      | 0x040 => half32 true p.errTick
      | 0x044 => w32 (d.unlocked pg).toNat
      | 0x048 => p.chkCnt
      | _ => 0

/-! ### Publication (R54, R559) -/

/-- SEQ covers the register at an offset. -/
def covered (off : Nat) : Bool := (regDef? off).any (·.snap)

/-- The offset lies in the FCH common registers (R36). -/
def isCommon (off : Nat) : Bool := 0x800000 ≤ off && off < 0xA00000 && 0x800 ≤ off % 0x1000

/-- What software reads of a register from 0x100 on a page that is ready: the published copy of a covered register.  A common register of
the FCH window has one copy, whichever port page it is read through (R36). -/
def Dev.readReg (d : Dev) (off : Nat) : Word :=
  if covered off then SMap.get regReset d.published (canonOff off) else d.liveReg off

/-- BAR0 decodes: released, no reset running, and a mode in which BAR0 is reachable (R56, R59). -/
def Dev.barUp (d : Dev) : Bool := d.released && !d.resetRun && decide (d.mode ≤ 2)

/-- What a 32-bit read of BAR0 at an aligned offset returns while BAR0 decodes (R36, R37, R47, R49). -/
def Dev.bar0Read (d : Dev) (off : Nat) : Word :=
  let pg := off / 0x1000
  let rel := off % 0x1000
  if !pageExists pg then 0
  else if rel < 0x100 then d.headerReg pg rel
  else if isCommon off then (if (regDef? off).isSome then d.readReg off else 0)
  else if !d.powered pg || (d.page pg).softRst then 0
  else if (regDef? off).isSome || (bankAt off).isSome then d.readReg off
  else 0

/-- Advance a page's SEQ by the odd and the even step of one publication. -/
def Dev.seqStep (d : Dev) (pg : Nat) : Dev := d.setPage pg { d.page pg with seq := (d.page pg).seq + 2 }

/-- Publish what a covered register holds now. -/
def Dev.publishReg (d : Dev) (off : Nat) : Dev :=
  { d with published := SMap.set regReset d.published (canonOff off) (d.liveReg off) }

/-- Publish registers. -/
def Dev.publishAll (d : Dev) (offs : List Nat) : Dev := offs.foldl (fun (d : Dev) o => d.publishReg o) d

/-- Publish one covered register at once (R559): a common register of the FCH window shows in every port page, so the SEQ of all of them
advances. -/
def Dev.publishAt (d : Dev) (off : Nat) : Dev :=
  if isCommon off then { d.publishReg off with comSeq := d.comSeq + 2 } else (d.publishReg off).seqStep (off / 0x1000)

/-- The covered group that a selector register presents (R559). -/
def selectorGroup (off : Nat) : List Nat :=
  let run (base n : Nat) : List Nat := (List.range n).map (fun i => base + 4 * i)
  match off with
  | 0x200100 => run 0x200108 8
  | 0x300100 => [0x30010C, 0x300110, 0x300118] ++ run 0x300128 8
  | 0x400100 => run 0x400104 7
  | 0x500140 => run 0x500144 3
  | 0x701140 => run 0x701144 2
  | 0xA0110C => run 0xA01200 32
  | 0xA03110 => [0xA03100, 0xA03114]
  | 0xA03130 => run 0xA03134 5
  | 0xB0010C => 0xB00110 :: run 0xB00200 19
  | 0xD01100 => 0xD0110C :: run 0xD01120 4
  | 0xEFF120 => [0xEFF124]
  | 0xF00108 => run 0xF00200 16
  | 0x1000168 => [0x100016C]
  | _ => []

/-- The effect of a write recorded no error on its page. -/
def Dev.noNewErr (d before : Dev) (pg : Nat) : Bool :=
  (d.page pg).err == (before.page pg).err && (d.page pg).overflow == (before.page pg).overflow

/-- A manager write has been applied: a covered register is published at once, also where the value it took is the one it had, and a
selector's group is presented anew (R559).  Neither waits for the spacing of R54 nor restarts it.  A write that was refused with an
error and changed nothing publishes nothing. -/
def Dev.publishWrite (d before : Dev) (off : Nat) : Dev :=
  match selectorGroup off with
  | [] =>
    if covered off && (d.liveReg off != before.liveReg off || d.noNewErr before (off / 0x1000)) then
      d.publishAt off
    else d
  | os => (d.publishAll os).seqStep (off / 0x1000)

/-- The offsets of the covered registers of a page, in the table's order; of a port page, those of the port. -/
def coveredOffs (pg : Nat) : List Nat :=
  let base := if 0x800 ≤ pg ∧ pg < 0xA00 then 0x800 else pg
  let at_ (o : Nat) : Nat := pg * 0x1000 + o % 0x1000
  (windowRegs (pg / 0x100)).flatMap (fun r =>
    if !r.snap then [] else
      ((List.range r.count).map (fun i => r.off + i * r.stride)).filterMap
        (fun o => if o / 0x1000 = base ∧ !isCommon o then some (at_ o) else none))

/-- The covered registers among the FCH common ones (R289). -/
def commonOffs : List Nat :=
  regsFCH.flatMap (fun r =>
    if !r.snap then [] else ((List.range r.count).map (fun i => r.off + i * r.stride)).filter isCommon)

/-- The covered registers of a list whose published copy is out of date. -/
def Dev.staleIn (d : Dev) (offs : List Nat) : List Nat := offs.filter (fun o => d.readReg o != d.liveReg o)

/-- The covered registers of a page whose published copy is out of date. -/
def Dev.stale (d : Dev) (pg : Nat) : List Nat := d.staleIn (coveredOffs pg)

/-- Four tricks have passed since a publication at the tick. -/
def Dev.spaced (d : Dev) (last : Option Nat) : Bool :=
  match last with
  | some t => decide (t + 8192 ≤ d.tick)
  | none => true

/-- The spacing of R54 allows a publication on a page; what shows in every port page counts for each of them. -/
def Dev.pubDue (d : Dev) (pg : Nat) : Bool := d.spaced (d.page pg).pubTick && ((pagePort pg).isNone || d.spaced d.comTick)

/-- It allows one of the FCH common registers: it is a publication on all 512 port pages. -/
def Dev.comDue (d : Dev) : Bool :=
  d.spaced d.comTick && d.pages.all (fun kv => (pagePort kv.1).isNone || d.spaced kv.2.pubTick)

/-- Publish the accumulated changes of a page (R54): SEQ advances to odd and to even, and the spacing of four tricks begins.  Nothing of
the page's own changes while it is in reset or without power; the FCH common registers, which show in every port page whatever its state
(R36, R47), are published through any port page on which the spacing of all of them allows it. -/
def Dev.publishPage (d : Dev) (pg : Nat) : Dev :=
  let own := if d.powered pg && !(d.page pg).softRst then d.stale pg else []
  let com := if (pagePort pg).isSome && d.comDue then d.staleIn commonOffs else []
  if !d.pubDue pg then d
  else if !com.isEmpty then { d.publishAll (own ++ com) with comSeq := d.comSeq + 2, comTick := some d.tick }
  else if own.isEmpty then d
  else
    let d := (d.publishAll own).seqStep pg
    d.setPage pg { d.page pg with pubTick := some d.tick }

end Sys2Proof.Machine
end

