-- ==== Sys2Proof/Machine/RegWrite.lean ====
section
/-! DEFINITION. How a write reaches a register page (R37 to R50, R59) and acts on a register field by field
(R42), SOFT_RST of a page (R47), and the publication of covered registers (R54, R559). -/

namespace Sys2Proof.Machine

/-- The record buffer of the cipher engine is cleared (R190). -/
def Dev.xbufClear (d : Dev) : Dev :=
  { d with regs := d.regs.filter (fun kv => !(decide (0x400200 ≤ kv.1) && decide (kv.1 < 0x400280))), xbufShown := false }

/-- A page locks (R50); when the CRY page does, CRY_XBUF is cleared (R190). -/
def Dev.lockPage (d : Dev) (pg : Nat) : Dev :=
  let d := d.setPage pg { d.page pg with unlocked := false }
  if pg = 0x400 then d.xbufClear else d

/-- A write reaches a page: one that comes after 2^20 ticks without a write finds it locked, and the time starts anew (R50). -/
def Dev.touchPage (d : Dev) (pg : Nat) : Dev :=
  let d := if (d.page pg).unlocked && !d.unlocked pg then d.lockPage pg else d
  d.setPage pg { d.page pg with lastWr := d.tick }

/-- A write to an offset of a page: dropped before release; error 0x0007 outside every page and 0x0008 on an
unpowered page, both in the GLB header; otherwise the page's lock time is renewed and, unless the page's
registers are in reset, `body` acts, told whether the page was unlocked when the write arrived. -/
def pageAccess (d : Dev) (off : Nat) (body : Bool → Dev → Dev) : Dev :=
  let pg := off / 0x1000
  if !d.barUp then d
  else
    if !pageExists pg then d.recordErr 0 0x0007 off 0
    else if !d.powered pg && !isCommon off then d.recordErr 0 0x0008 off 0
    else
      let ok := d.unlocked pg
      let d := d.touchPage pg
      if (d.page pg).softRst && 0x100 ≤ off % 0x1000 && !isCommon off then d else body ok d

/-- Such a write, with its capture record (R474). -/
def pageWrite (d : Dev) (off : Nat) (v : Word) (body : Bool → Dev → Dev) : Dev :=
  pageAccess (if d.barUp then d.capWrite 0 off v else d) off body

/-- The value a write leaves in a register's plain fields: RW fields take it, RWL fields take it while the page is
unlocked, W1C bits clear, everything else keeps (Table REG-3). -/
def mergeWrite (r : RegDef) (old v : Word) (ok : Bool) : Word :=
  let set := if ok then r.rw ||| r.rwl else r.rw
  ((old &&& ~~~(w32 set)) ||| (v &&& w32 set)) &&& ~~~(v &&& w32 r.w1c)

/-- A write to a register acts field by field: error 0x0002 where a locked field is written, 0x0001 where an RSVD
bit is written 1; `eff` applies the merged value unless the lock leaves nothing to apply. -/
def regWrite (d : Dev) (off : Nat) (v : Word) (eff : Word → Dev → Dev) : Dev :=
  pageWrite d off v (fun ok d =>
    match regDef? off with
    | none => d
    | some r =>
      let pg := off / 0x1000
      let rel := off % 0x1000
      let locked := !ok && (r.rwl != 0 || r.lockAct)
      let d := if locked then d.recordErr pg 0x0002 rel 0 else d
      let d := if v &&& w32 r.rsv != 0 then d.recordErr pg 0x0001 rel 0 else d
      if locked && r.rw == 0 && r.w1c == 0 then d
      else (eff (mergeWrite r (d.reg (canonOff off)) v ok) d).publishWrite d off)

/-- The plain effect: store the merged value. -/
def storeReg (off : Nat) (new : Word) (d : Dev) : Dev := d.setReg (canonOff off) new

/-! ### SOFT_RST of a page (R47) -/

/-- Read-only registers in which the page's own logic keeps the outcome of an operation; the other read-only registers report the
state of the device, and go on reporting it. -/
def softRo : List Nat :=
  [Reg.HIF_PTM_OFS, Reg.HIF_PTM_PDELAY, Reg.VSL_EXP_PROD, Reg.VSL_EXP_CUR_LO, Reg.VSL_EXP_CUR_HI, Reg.VSL_EXP_BEHIND,
   Reg.VSL_EXP_POISON, Reg.VSL_EXP_STS, Reg.CRY_OP_STS, Reg.CRY_KEK_STS, Reg.ECC_HBM_ELOG0, Reg.ECC_HBM_ELOG1, Reg.ECC_HBM_ELOG2,
   Reg.ECC_HBM_ELOG3, Reg.NVM_RD_STS, Reg.NVM_PULSES, Reg.SCP_XP_PROD, Reg.SCP_XP_STS, Reg.SCP_RP_CONS, Reg.SCP_RP_STS,
   Reg.SCP_RP_DIV_LO, Reg.SCP_RP_DIV_HI, Reg.HIF_GPF_STS, Reg.STK_REPAIRS, Reg.TWN_PEER_VER, Reg.TWN_MISMATCH, Reg.TWN_MOVED 0,
   Reg.TWN_PAIRKEY_STS, Reg.SCP_CAPKEY_STS, Reg.TWN_LOST_TICK_LO, Reg.TWN_LOST_TICK_HI, Reg.TWN_LOST_EPOCH, Reg.STK_SCR_HBM_LAP,
   Reg.STK_SCR_SRAM_LAP, Reg.DLR_TIME_OFS, Reg.DLR_TWIN_OFS, Reg.DLR_LOAD, Reg.DLR_SKEW, Reg.ECC_SV_LAP, Reg.HIF_I3C_STS]

/-- A register of the page that a SOFT_RST returns to its reset value. -/
def resetBySoft (pg off : Nat) : Bool :=
  off / 0x1000 == pg && 0x100 ≤ off % 0x1000 && !isCommon off &&
  (match regDef? off with
    | some r => !r.kept && (r.rw != 0 || r.rwl != 0 || r.w1c != 0 || r.act != 0 || softRo.contains r.off || ((pagePort pg).isSome && (r.off % 0x1000 == Reg.FCH_P_RTT 0 % 0x1000 || r.off % 0x1000 == Reg.FCH_P_RTT_SPREAD 0 % 0x1000)) ||
        (off / 0x1000 == 0xA01 && 0x200 ≤ off % 0x1000) || (off / 0x1000 == 0xF00 && 0x200 ≤ off % 0x1000) ||
        ((pagePort pg).isSome && 0x164 ≤ off % 0x1000 && off % 0x1000 < 0x170))
    | none => false)

/-- Return the page's registers to reset, clear INT_PEND and INT_EN, lock the page; the error registers and
CHK_CNT keep. -/
def Dev.softClear (d : Dev) (pg : Nat) : Dev :=
  let d := { d with regs := d.regs.filter (fun kv => !resetBySoft pg kv.1) }
  let d := d.setPage pg { d.page pg with softRst := true, intPend := 0, intEn := 0 }
  let d := (d.lockPage pg).pbaSettle
  if (d.stale pg).isEmpty then d else (d.publishAll (d.stale pg)).seqStep pg

end Sys2Proof.Machine
end

