-- ==== Sys2Proof/Machine/KeyOps.lean ====
section
/-! DEFINITION. Key records (chapter 06): the context record of Table CRY-4, the clear state record of Table CRY-9, the persistent copies
(R175), reservation marks (R182), zeroising (R189), and the encryption of blocks (R179, R180). -/

namespace Sys2Proof.Machine

/-- A 32-bit field that stands for 2^32 when all ones (R182). -/
def markField (n : Nat) : Nat := if 2 ^ 32 ≤ n then 0xFFFFFFFF else n
def ofMarkField (n : Nat) : Nat := if n = 0xFFFFFFFF then 2 ^ 32 else n

/-- The next multiple of 65,536 at or above a value (R188). -/
def markUp (n : Nat) : Nat := ceilDiv n 65536 * 65536

/-- The context record (Table CRY-4) with INVOC fields set to the marks, as it is saved and exported. -/
def ctxRecord (c : Nat) (x : Ctx) : Nat :=
  x.mode + 2 ^ 8 * x.exportable.toNat + 2 ^ 16 * (c / 4) + 2 ^ 32 * (c % 4) + 2 ^ 40 * 1 + 2 ^ 48 * x.keygen +
  2 ^ 64 * x.label + 2 ^ 128 * x.key + 2 ^ 640 * x.fixed + 2 ^ 704 * markField x.mark0 + 2 ^ 736 * markField x.mark1

/-- The context a record describes, VALID, its marks rounded up from INVOC (R188). -/
def ctxOfRecord (r keygen : Nat) : Ctx :=
  let i0 := ofMarkField (leBytes r 0x58 4)
  let i1 := ofMarkField (leBytes r 0x5C 4)
  { st := .valid, mode := leBytes r 0 1, exportable := (leBytes r 1 1).testBit 0, keygen := keygen,
    label := leBytes r 8 8, key := leBytes r 0x10 64, fixed := leBytes r 0x50 8, invoc0 := i0, invoc1 := i1,
    mark0 := markUp i0, mark1 := markUp i1, low := false }

/-- The clear state record (Table CRY-9). -/
def clearRecord (c : Nat) (x : Ctx) : Nat :=
  (if x.st = .empty then 0 else x.mode) + 2 ^ 8 * x.st.code + 2 ^ 16 * (c / 4) + 2 ^ 32 * (c % 4) +
  2 ^ 48 * x.keygen + 2 ^ 64 * x.label + 2 ^ 128 * markField x.mark0 + 2 ^ 160 * markField x.mark1

/-- The first field of an import record that fails R188, by byte offset (R562 check 6), for context `c`; non-zero unused key bytes
of a GCM record fail at 0x30, where they begin (DESIGN CHOICE, log 256). -/
def recordFault (c r : Nat) : Option Nat :=
  let f (o n : Nat) := leBytes r o n
  let xts := f 0 1 == 1
  let tests : List (Nat × Bool) := [
    (0x00, f 0 1 == 1 || f 0 1 == 2), (0x01, f 1 1 < 2), (0x02, f 2 2 == c / 4), (0x04, f 4 1 == c % 4),
    (0x05, f 5 1 == 1), (0x30, if xts then f 0x10 32 != f 0x30 32 else f 0x30 32 == 0),
    (0x50, !xts || f 0x50 8 == 0), (0x58, !xts || f 0x58 4 == 0), (0x5C, !xts || f 0x5C 4 == 0),
    (0x60, f 0x60 24 == 0)]
  (tests.find? (fun t => !t.2)).map Prod.fst

/-- The invocation value and the mark of this side. -/
def Ctx.invocOf (x : Ctx) (side : Nat) : Nat := if side = 0 then x.invoc0 else x.invoc1
def Ctx.markOf (x : Ctx) (side : Nat) : Nat := if side = 0 then x.mark0 else x.mark1

/-- Set this side's counter and mark. -/
def Ctx.setInvoc (x : Ctx) (side i m : Nat) : Ctx :=
  if side = 0 then { x with invoc0 := i, mark0 := m } else { x with invoc1 := i, mark1 := m }

/-- Few values remain to a GCM context on this side (R186). -/
def Dev.fewLeft (d : Dev) (x : Ctx) : Bool :=
  x.mode == 2 && decide (2 ^ 32 - x.invocOf d.side < 2 ^ d.fld Reg.CRY_POLICY 12 8)

/-- Store a context whose counters have moved on from `x` (R186): LOW while few values remain, KEY_LOW when it is set, KEY_EXH when this
side's counter reaches 2^32. -/
def Dev.moveCtx (d : Dev) (c : Nat) (x y : Ctx) : Dev :=
  let few := d.fewLeft y
  let d := d.setCtx c { y with low := few }
  let d := if few && !x.low then d.raise 0x400 1 else d
  if y.mode = 2 ∧ y.invocOf d.side = 2 ^ 32 ∧ x.invocOf d.side < 2 ^ 32 then d.raise 0x400 2 else d

/-- A new LOW_SHIFT is applied to the GCM contexts that hold a key (R186, R191). -/
def Dev.relevel (d : Dev) : Dev :=
  (d.ctxs.filter (fun kv => kv.2.st == .valid && kv.2.mode == 2)).foldl (fun (d : Dev) kv => d.moveCtx kv.1 (d.ctx kv.1) (d.ctx kv.1)) d

/-! ### Persistent copies (R175) -/

/-- The key that wraps the persistent copies: the shelf key; before first pairing no unit holds one (R390), and what wraps them then the
spec does not say: a key of the implementation's (DESIGN CHOICE, log 211). -/
def Dev.shelfKey (d : Dev) : Nat := d.shelf.getD Config.shelfKey

def Dev.ctxCopy (d : Dev) (c : Nat) : CtxCopy := SMap.get (fun _ => CtxCopy.reset) d.ctxStore c

/-- The highest marks that a copy has seen committed for a key generation (R182). -/
def CtxCopy.marksAt (x : CtxCopy) (g : Nat) : Nat × Nat :=
  (x.past ++ [(x.keygen, x.mark0, x.mark1)]).foldl (fun a p => if p.1 = g then (max a.1 p.2.1, max a.2 p.2.2) else a) (0, 0)

/-- A copy takes the place of another: the marks of a generation that it leaves behind are remembered, for a blob may bring it back (R182, R159). -/
def CtxCopy.after (x old : CtxCopy) : CtxCopy :=
  let m := old.marksAt old.keygen
  { x with past := (if x.keygen = old.keygen ∧ m.1 ≤ x.mark0 ∧ m.2 ≤ x.mark1 ∨ m = (0, 0) then [] else [(old.keygen, m)]) ++
                   old.past.filter (fun p => p.1 != old.keygen) }

/-- The copy is now `x`; what the one before it remembers is kept. -/
def Dev.setCopy (d : Dev) (c : Nat) (x : CtxCopy) : Dev :=
  { d with ctxStore := SMap.set (fun _ => CtxCopy.reset) d.ctxStore c (x.after (d.ctxCopy c)) }

/-- A copy as the journal carries it, and back. -/
def CtxCopy.mctx (x : CtxCopy) (c : Nat) : MCtx :=
  { ctx := c, wrapped := x.wrapped, keygen := x.keygen, mark0 := x.mark0, mark1 := x.mark1, zeroed := x.zeroed }
def copyOfRec (x : MCtx) : CtxCopy :=
  { wrapped := x.wrapped, keygen := x.keygen % 65536, mark0 := x.mark0, mark1 := x.mark1, zeroed := x.zeroed }

/-- Update the copy in the metadata region and the one on the twin (R175, R182, R189). -/
def Dev.keepCopy (d : Dev) (c : Nat) (x : CtxCopy) : Dev :=
  (d.journal { JBatch.none with ctxs := [x.mctx c] }).setCopy c x

/-- The copy of a context: wrapped while VALID. -/
def Dev.copyOf (d : Dev) (c : Nat) (x : Ctx) : CtxCopy :=
  { wrapped := if x.st = .valid then some (rfcWrap d.shelfKey 15 (ctxRecord c x)) else none,
    keygen := x.keygen, mark0 := x.mark0, mark1 := x.mark1, zeroed := false }

/-- Update both copies with the context it becomes. -/
def Dev.keepCtx (d : Dev) (c : Nat) (x : Ctx) : Dev := d.keepCopy c (d.copyOf c x)

/-- Commit new marks to the copies. -/
def Dev.keepMarks (d : Dev) (c m0 m1 : Nat) : Dev :=
  (d.journal { JBatch.none with marks := [(c, 0, m0), (c, 1, m1)] }).setCopy c { d.ctxCopy c with mark0 := m0, mark1 := m1 }

/-- The context that a copy gives back (R175, R182): none where a zeroise is journaled or there is no copy; INVOC resumes at the marks. -/
def CtxCopy.load (x : CtxCopy) (key : Nat) : Ctx :=
  match (if x.zeroed then none else x.wrapped.bind (fun w => rfcUnwrap key 15 w)) with
  | some r => { ctxOfRecord r x.keygen with invoc0 := x.mark0, invoc1 := x.mark1, mark0 := x.mark0, mark1 := x.mark1 }
  | none => { Ctx.reset with keygen := x.keygen }

/-- The copies after a bring-up has erased those whose zeroise was journaled (R189). -/
def CtxCopy.swept (x : CtxCopy) : CtxCopy := if x.zeroed then { CtxCopy.reset with keygen := x.keygen } else x

/-- A context comes back from its persistent copy (R175, R182): its counters resume at the marks, and its level follows (R186). -/
def Dev.loadCtx (d : Dev) (c : Nat) (x : CtxCopy) : Dev :=
  (d.setCopy c x.swept).moveCtx c Ctx.reset (x.load d.shelfKey)

/-- Reserve `n` invocation values of this side for a command (R181): the mark moves and is journaled before a
value at or above it is used (R182); LOW and EXHAUSTED follow (R186). -/
def Dev.reserveInvoc (d : Dev) (c n : Nat) : Dev :=
  let x := d.ctx c
  let side := d.side
  let i := x.invocOf side + n
  let m := max (x.markOf side) (min (2 ^ 32) ((((i - 1) / 65536) + 1) * 65536))
  let y := x.setInvoc side i m
  let d := if m = x.markOf side then d else d.keepMarks c y.mark0 y.mark1
  d.moveCtx c x y

/-! ### Changes of contexts (R175) -/

/-- An operation of CRY_OP is over (R187): OP_BUSY falls, OP_DONE. -/
def Dev.cryDone (d : Dev) : Dev := (d.setFlag Reg.CRY_OP_STS 0 false).raise 0x400 0

/-- A slice operation has reached its end state: OP_BUSY falls and OP_DONE is raised (R138). -/
def Dev.opDone (d : Dev) (s : Nat) : Dev := (d.setSlice s { d.slice s with opBusy := false }).raise 0x300 0

/-- A change of a context no longer waits: its operation ends, a blob's with the last of its records. -/
def Dev.ctxOver (d : Dev) (x : CtxChg) : Dev :=
  if x.kind != .blob then d.cryDone
  else if d.ctxPend.any (fun y => y.ctx / 4 == x.ctx / 4 && y.kind == .blob) then d else d.opDone (x.ctx / 4)

/-- A change of a context takes effect; the operation that made it ends with its last one.  A RESTORE_STATE moves no counter back (R182). -/
def Dev.ctxLands (d : Dev) (x : CtxChg) : Dev :=
  let c := x.ctx
  let cur := d.ctx c
  (match x.kind with
  | .imported => d.moveCtx c Ctx.reset x.new
  | .restored => d.moveCtx c cur { cur with
      mark0 := max cur.mark0 x.new.mark0, mark1 := max cur.mark1 x.new.mark1,
      invoc0 := max cur.invoc0 x.new.invoc0, invoc1 := max cur.invoc1 x.new.invoc1 }
  | .blob => d.moveCtx c { cur with low := cur.low && cur.keygen == x.new.keygen } x.new).ctxOver x

/-- A change of a context whose record has gone to the copies: while PAIRED it waits for the ACK of the message that carried it (R175, R25). -/
def Dev.ctxWait (d : Dev) (x : CtxChg) : Dev :=
  if d.paired then { d with ctxPend := d.ctxPend ++ [x] } else d.ctxLands x

/-- The changes of contexts that have waited for the twin, and wait no longer. -/
def Dev.ctxReady (d : Dev) (p : CtxChg → Bool) : Dev :=
  let rest := d.ctxPend.filter (fun x => !p x)
  let d := (d.ctxPend.filter p).foldl (fun (d : Dev) x => ({ d with ctxPend := d.ctxPend.filter (fun y => y != x) } : Dev).ctxLands x) d
  { d with ctxPend := rest }

/-- A context's change that waits is given up: a zeroise of the context overtakes it; its operation ends. -/
def Dev.ctxDrop (d : Dev) (c : Nat) : Dev :=
  (d.ctxPend.filter (fun x => x.ctx == c)).foldl (fun (d : Dev) x => d.ctxOver x) { d with ctxPend := d.ctxPend.filter (fun x => x.ctx != c) }

/-- Start zeroising a context (R189 steps 1 to 3): it is ZEROISING at once, the zeroise is journaled, and the
key store no longer holds it.  Mode, label and counters stay readable until the end: the spec does not say (DESIGN CHOICE, log 208). -/
def Dev.startZeroise (d : Dev) (c : Nat) : Dev :=
  let x := d.ctx c
  let d := (d.ctxDrop c).keepCopy c { d.ctxCopy c with zeroed := true }
  d.setCtx c { x with st := .zeroising, key := 0, fixed := 0 }

/-- A context's zeroise has erased the persistent copies on both twins (R189 step 4): EMPTY, its KEYGEN kept (R178). -/
def Dev.endZeroise (d : Dev) (c : Nat) : Dev :=
  let g := (d.ctx c).keygen
  (d.keepCopy c { CtxCopy.reset with keygen := g }).setCtx c { Ctx.reset with keygen := g }

/-! ### Encryption of blocks (R176, R179, R180) -/

/-- The IV of a block under a GCM context (R180): FIXED with KEYGEN in [63:48] and the writing side in [0], then INVOC. -/
def gcmIv (x : Ctx) (side keygen invoc : Nat) : Nat := (x.fixed / 2 % 2 ^ 47 * 2 + side + keygen * 2 ^ 48) * 2 ^ 32 + invoc

/-- The additional data of a block (R180): slice, LBA, application tag, key index. -/
def gcmAad (s lba apptag keyidx : Nat) : Nat := s + 2 ^ 16 * lba + 2 ^ 64 * apptag + 2 ^ 80 * keyidx

/-- The tweak of a block (R179). -/
def xtsTweak (s lba : Nat) : Nat := s * 2 ^ 48 + lba

/-- Encrypt one block for a slice under a key index: the ciphertext and the cipher record (Table CRY-6); in bench replay units pass unchanged (R486). -/
def Dev.encBlk (d : Dev) (s lba keyidx apptag data invoc : Nat) : Nat × CRec :=
  let x := d.ctx (4 * s + keyidx)
  if d.rpFence then (data, { keyidx := keyidx, gcm := x.mode == 2, side := d.side, keygen := x.keygen, invoc := invoc, tag := 0 })
  else if x.mode = 2 then
    let iv := gcmIv x d.side x.keygen invoc
    let ct := gcmText x.key iv 4096 data
    (ct, { keyidx := keyidx, gcm := true, side := d.side, keygen := x.keygen, invoc := invoc,
           tag := gcmTag x.key iv 16 (gcmAad s lba apptag keyidx) 4096 ct })
  else (xtsEnc x.key (xtsTweak s lba) data, { keyidx := keyidx, gcm := false, side := 0, keygen := x.keygen, invoc := 0, tag := 0 })

/-- The plaintext of a stored block: as stored where it is poisoned or filled (R171), else decrypted under the context its cipher
record names (R177); in bench replay as it is (R486). -/
def Dev.plainOf (d : Dev) (s lba : Nat) (b : Blk) : Nat :=
  if b.poison || b.filled || d.rpFence then b.data
  else
    let x := d.ctx (4 * s + b.crec.keyidx)
    if b.crec.gcm then gcmText x.key (gcmIv x b.crec.side b.crec.keygen b.crec.invoc) 4096 b.data
    else xtsDec x.key (xtsTweak s lba) b.data

/-- A block's GCM tag fails to verify (R184). -/
def Dev.tagBad (d : Dev) (s lba : Nat) (b : Blk) : Bool :=
  b.crec.gcm && !b.filled && !d.rpFence &&
  (let x := d.ctx (4 * s + b.crec.keyidx)
   b.crec.tag != gcmTag x.key (gcmIv x b.crec.side b.crec.keygen b.crec.invoc) 16 (gcmAad s lba b.sl.apptag b.crec.keyidx) 4096 b.data)

/-- A 32-byte key assembled from eight key registers as they were written (R190): `KEK`, `TWN_PAIRKEY` and
`SCP_CAPKEY` share the byte order. -/
def Dev.keyRegs (d : Dev) (base : Nat) : Nat :=
  (List.range 8).foldl (fun a k => a + 2 ^ (32 * k) * (d.reg (base + 4 * k)).toNat) 0

/-- The first 16 bits of AES-256 under a key of a zero block: byte 0 and byte 1 of the result, byte 0 in the upper half as a key check
value is written (DEDUCED, log 6). -/
def kcvOf (key : Nat) : Nat := let b := aes256 key 0; b % 256 * 256 + b / 256 % 256

end Sys2Proof.Machine
end

