-- ==== Sys2Proof/Machine/Vsl.lean ====
section
/-! DEFINITION. The slice family (chapter 05): binding, operations, shares and block counts, dispatch of units,
save and restore, and the control of exports. -/

namespace Sys2Proof.Machine

/-- The slice VSL_SSEL selects. -/
def Dev.ssel (d : Dev) : Nat := d.fld Reg.VSL_SSEL 9 0

/-- An export of the slice runs. -/
def Dev.exporting (d : Dev) (s : Nat) : Bool := d.flag Reg.VSL_EXP_STS 0 && d.fld Reg.VSL_EXP_CTL 13 4 == s

/-- DLR_TSUM (R242): the sum of active TSHARE over bound slices with TRUMP_EN = 1; OVER above 512 raises TSUM_OVER when it
rises. -/
def Dev.trumpSum (d : Dev) : Dev :=
  let n := sumL ((d.slices.filter (fun (kv : Nat × Slice) => kv.2.bound && kv.2.trumpEn)).map (fun (kv : Nat × Slice) => kv.2.tshareAct))
  let was := d.flag Reg.DLR_TSUM 17
  let d := d.setReg Reg.DLR_TSUM (w32 (n + 2 ^ 17 * (decide (512 < n)).toNat))
  if 512 < n ∧ !was then d.raise 0x701 2 else d

/-- Recompute VSL_SHARE_SUM, VSL_PIN_SUM, VSL_BOUND and DLR_TSUM. -/
def Dev.sliceSums (d : Dev) : Dev :=
  let bound := d.slices.filter (fun kv => kv.2.bound)
  let d := d.setFld Reg.VSL_SHARE_SUM 20 0 (sumL (bound.map (fun kv => kv.2.shareAct)))
  let d := d.setFld Reg.VSL_PIN_SUM 20 0 (sumL (d.slices.map (fun kv => kv.2.pin)))
  (d.setFld Reg.VSL_BOUND 10 0 bound.length).trumpSum

/-- A write to VSL_SL_CTL (R139, R140, R167). -/
def slCtlWrite (v : Word) (d : Dev) : Dev :=
  regWrite d Reg.VSL_SL_CTL v (fun _ d =>
    let s := d.ssel
    let x := d.slice s
    let qpMax := bits v 6 2
    let changes := bitAt v 1 != x.trumpEn || qpMax != x.qpMax
    if qpMax < 1 ∨ 16 < qpMax ∨ (changes ∧ x.st ≠ .unbound ∧ x.st ≠ .frozen) then d.recordErr 0x300 0x0103 s 0x104
    else
      let y := { x with trumpEn := bitAt v 1, qpMax := qpMax }
      if bitAt v 0 && !x.bound then
        let clash := d.slices.any (fun kv => kv.1 != s && kv.2.bound && kv.2.pasid == x.pasid)
        if x.st = .unbound ∧ 1 ≤ x.blks ∧ x.blks ≤ 2 ^ 40 ∧ 1 ≤ x.share ∧ x.share ≤ 1024 ∧ !clash ∧ (d.twinSlices.find s).isNone then
          ((d.setSlice s y).sliceTo s .active).sliceSums
        else d.recordErr 0x300 0x0101 s x.pasid
      else if !bitAt v 0 && x.bound then
        let segs := (List.range 32).any (fun n => d.flag (Reg.SEG_STS n) 0 && d.fld (Reg.SEG_CTL n) 13 4 == s)
        let qs := (queuesOf s).any (fun q => (d.queue q).en)
        if (x.st = .active ∨ x.st = .frozen) ∧ !segs ∧ !qs ∧ !d.exporting s then
          ((d.setSlice s y).sliceTo s .unbound).sliceSums
        else d.recordErr 0x300 0x0101 s x.pasid
      else (d.setKept s y).sliceSums)

/-- SLICE_BIND: a VSL_SL_CTL write with BIND = 1. -/
def doSliceBind (v : Word) (d : Dev) : Dev := if bitAt v 0 then slCtlWrite v d else d
def execSliceBind (v : Word) (s : State) : Host.Outcome State Fault Refusal := act s (doSliceBind v)

/-- SLICE_UNBIND: a VSL_SL_CTL write with BIND = 0. -/
def doSliceUnbind (v : Word) (d : Dev) : Dev := if bitAt v 0 then d else slCtlWrite v d
def execSliceUnbind (v : Word) (s : State) : Host.Outcome State Fault Refusal := act s (doSliceUnbind v)

/-- A write to VSL_SL_OP for one operation (R138): accepted with the key, in a listed state, while OP_BUSY = 0;
every other write sets OP_ERR and records 0x0100.  A write whose OP names another operation is not this row's. -/
def slOp (v : Word) (op : Nat) (states : List SliceSt) (ok : Dev → Nat → Bool) (body : Nat → Dev → Dev) (d : Dev) : Dev :=
  if bits v 3 0 ≠ op ∧ 1 ≤ bits v 3 0 ∧ bits v 3 0 ≤ 6 ∧ bits v 31 16 = 0x5653 then d
  else regWrite d Reg.VSL_SL_OP v (fun _ d =>
    let s := d.ssel
    let x := d.slice s
    if bits v 31 16 = 0x5653 ∧ bits v 3 0 = op ∧ states.contains x.st ∧ !x.opBusy ∧ ok d s then
      body s (d.setSlice s { x with opErr := false, op := op, policy := bits v 4 4 })
    else (d.setSlice s { x with opErr := true }).recordErr 0x300 0x0100 s v.toNat)

/-- SLICE_RESET (R149 to R151): RESETTING; the cut is now, or when the slice's last running queue reset is done. -/
def doSliceReset (v : Word) (d : Dev) : Dev :=
  slOp v 1 [.active, .frozen] (fun _ _ => true) (fun s d =>
    let waits := d.queueResetRuns s
    let d := (d.setSlice s { d.slice s with opBusy := true, cutWaits := waits }).sliceTo s .resetting
    if waits then d else d.sliceCut s) d
def execSliceReset (v : Word) (s : State) : Host.Outcome State Fault Refusal := act s (doSliceReset v)

/-- SLICE_RESET_DONE (R152): no stale unit remains; every enabled queue posts its SLICE_RESET entries and its
reset-done entry as soon as every ring has room (R102), and the slice is ACTIVE again. -/
def doSliceResetDone (slice : Nat) (d : Dev) : Dev :=
  let s := slice % 1024
  let x := d.slice s
  let qs := (queuesOf s).filter (fun q => (d.queue q).en)
  if x.st ≠ .resetting ∨ x.cutWaits ∨ (d.sliceHead s).isNone ∨ qs.any (fun q => !(d.queue q).resetRoom) then d
  else
    let d := qs.foldl (fun (d : Dev) q => (d.drainStale q).resetDone q stSliceReset) d
    (d.sliceTo s .active).opDone s
def execSliceResetDone (slice : Nat) (s : State) : Host.Outcome State Fault Refusal := act s (doSliceResetDone slice)

/-- SLICE_FREEZE (R154): fetching stops, and each queue's tail at the cut is kept; with POLICY = 1, commands with no dispatched unit end with
SLICE_FROZEN. -/
def doSliceFreeze (v : Word) (d : Dev) : Dev :=
  slOp v 2 [.active] (fun _ _ => true) (fun s d =>
    let d := (d.setSlice s { d.slice s with opBusy := true }).sliceTo s .freezing
    let d := (queuesOf s).foldl (fun (d : Dev) q => if (d.queue q).en then d.setQueue q { d.queue q with cutTail := (d.queue q).sqTail } else d) d
    if (d.slice s).policy = 1 then
      (queuesOf s).foldl (fun d q =>
        ((d.queue q).live.filter (fun c => !c.started)).foldl
          (fun d c => d.complete q c.tag stSliceFrozen 0) d) d
    else d) d
def execSliceFreeze (v : Word) (s : State) : Host.Outcome State Fault Refusal := act s (doSliceFreeze v)

/-- SLICE_FROZEN_REACHED (R154): no outstanding tag, and every completion entry is in its ring. -/
def doSliceFrozenReached (slice : Nat) (d : Dev) : Dev :=
  let s := slice % 1024
  if (d.slice s).st = .freezing ∧ (d.sliceCmds s).isEmpty ∧
      (queuesOf s).all (fun q => (d.queue q).held.isEmpty && !(d.queue q).resetting) then
    (d.sliceTo s .frozen).opDone s
  else d
def execSliceFrozenReached (slice : Nat) (s : State) : Host.Outcome State Fault Refusal :=
  act s (doSliceFrozenReached slice)

/-- SLICE_THAW: FROZEN to ACTIVE; the slice no longer awaits THAW after a failover. -/
def doSliceThaw (v : Word) (d : Dev) : Dev :=
  slOp v 3 [.frozen] (fun _ _ => true) (fun s d =>
    let d := d.setFlag (Reg.TWN_MOVED (s / 32)) (s % 32) false
    (d.sliceTo s .active).opDone s) d
def execSliceThaw (v : Word) (s : State) : Host.Outcome State Fault Refusal := act s (doSliceThaw v)

/-- The slice and queue records of the state blob (Table VSL-5), with the four wrapped key records (R174): bytes 0x040 to 0x7EF.  Of
"VSL_SL_CTL [6:1]" the spec does not say whether the bits keep their places: TRUMP_EN is bit 0 and QP_MAX starts at bit 1 (DESIGN CHOICE,
log 212). -/
def Dev.blobPlain (d : Dev) (s : Nat) : Nat :=
  let x := d.slice s
  let sl := x.pasid + 2 ^ 32 * x.blks + 2 ^ 96 * (x.shareAct + 2 ^ 16 * x.tshareAct) +
    2 ^ 128 * (x.trumpEn.toNat + 2 * x.qpMax) + 2 ^ 160 * x.pin + 2 ^ 192 * x.hdrm + 2 ^ 224 * d.headByte s
  let qs := (List.range 16).foldl (fun a p =>
    let q := d.queue (16 * s + p)
    let ctl := q.en.toNat + 2 * q.ien.toNat + 4 * q.coalN + 2 ^ 8 * q.coalUs + 2 ^ 16 * q.vector
    a + 2 ^ (512 * p) * (ctl + 2 ^ 32 * q.sqb + 2 ^ 96 * q.cqb + 2 ^ 160 * q.sqHead + 2 ^ 176 * q.sqTail +
      2 ^ 192 * q.cqPosted + 2 ^ 208 * q.cqHead + 2 ^ 224 * q.qgen)) 0
  let ks := (List.range 4).foldl (fun a k =>
    let c := 4 * s + k
    let r := if (d.ctx c).st = .valid then rfcWrap Config.blobKey 15 (ctxRecord c (d.ctx c)) else 0
    a + 2 ^ (1024 * k) * r) 0
  sl + 2 ^ 512 * qs + 2 ^ (512 + 8192) * ks

/-- The clear header of the state blob, bytes 0x000 to 0x03F (Table VSL-4). -/
def Dev.blobHead (d : Dev) (s : Nat) : Nat :=
  let x := d.slice s
  0x4C534C42 + 2 ^ 32 * 1 + 2 ^ 48 * s + 2 ^ 64 * x.saveseq + 2 ^ 128 * (Config.serial % 2 ^ 64) +
  2 ^ 192 * d.tick + 2 ^ 256 * d.epoch + 2 ^ 272 * x.sgen

/-- The IV of a blob as a 96-bit integer (R157). -/
def blobIv (s seq : Nat) : Nat := s * 2 ^ 80 + seq

/-- The 2,048 bytes of the state blob (Table VSL-4). -/
def Dev.blobOf (d : Dev) (s : Nat) : Nat :=
  let hd := d.blobHead s
  let iv := blobIv s (d.slice s).saveseq
  let ct := gcmText Config.blobKey iv 1968 (d.blobPlain s)
  hd + 2 ^ 512 * ct + 2 ^ (8 * 0x7F0) * gcmTag Config.blobKey iv 64 hd 1968 ct

/-- Write the blob of a slice whose SAVE is under way (R156). -/
def Dev.saveGo (d : Dev) (s : Nat) : Dev :=
  match d.mgrHead with
  | some h => (d.emit (.blob h (d.slice s).blob (toWords (d.blobOf s) 512))).opDone s
  | none => d

/-- Write the blobs that wait for a manager's head. -/
def Dev.savesGo (d : Dev) : Dev :=
  (d.slices.filter (fun (kv : Nat × Slice) => kv.2.opBusy && kv.2.op == 4)).foldl (fun (d : Dev) kv => d.saveGo kv.1) d

/-- SLICE_SAVE (R156, R157): SAVESEQ is incremented and recorded, then the blob goes to VSL_SL_BLOB on the manager's head, as soon as one is
up.  Where the NVM record cannot be written the increment does not stand; the spec does not say (DESIGN CHOICE, log 212). -/
def doSliceSave (v : Word) (nvmOk : Bool) (d : Dev) : Dev :=
  slOp v 4 [.frozen] (fun _ _ => true) (fun s d =>
    if nvmOk then
      (d.setSlice s { d.slice s with opBusy := true, saveseq := ((d.slice s).saveseq + 1) % 2 ^ 64 }).saveGo s
    else ((d.setSlice s { d.slice s with opErr := true }).recordErr 0x300 0x0102 s 7).opDone s) d
def execSliceSave (v : Word) (nvmOk : Bool) (s : State) : Host.Outcome State Fault Refusal := act s (doSliceSave v nvmOk)

/-- The plaintext of a blob, bytes 0x040 to 0x7EF. -/
def blobText (s blob : Nat) : Nat := gcmText Config.blobKey (blobIv s (leBytes blob 8 8)) 1968 (leBytes blob 0x40 1968)

/-- The wrapped key records of a blob's plaintext. -/
def blobKeys (plain : Nat) : List Nat := [0, 1, 2, 3].map (fun k => leBytes plain (0x440 + 0x80 * k) 128)

/-- The first test of R158 that a blob fails; `nvmOk` is the outcome of the write of the NVM record. -/
def Dev.blobFault (d : Dev) (s blob : Nat) (nvmOk : Bool) : Option Nat :=
  let tagOk := leBytes blob 0x7F0 16 == gcmTag Config.blobKey (blobIv s (leBytes blob 8 8)) 64 (leBytes blob 0 64) 1968 (leBytes blob 0x40 1968)
  let unwrapOk := (blobKeys (blobText s blob)).all (fun w => w == 0 || (rfcUnwrap Config.blobKey 15 w).isSome)
  if leBytes blob 0 4 ≠ 0x4C534C42 ∨ leBytes blob 4 2 ≠ 1 then some 1
  else if leBytes blob 6 2 ≠ s then some 2
  else if leBytes blob 0x10 8 ≠ Config.serial % 2 ^ 64 then some 3
  else if leBytes blob 8 8 ≠ (d.slice s).saveseq then some 4
  else if !tagOk then some 5 else if !unwrapOk then some 6 else if !nvmOk then some 7 else none

/-- The context that a blob's key record restores (R159, R182): INVOC resumes at MARK, and neither side's mark falls below the one that this
unit has ever committed for the same key generation, as its copy remembers (DEDUCED, log 250). -/
def restoredCtx (copy : CtxCopy) (w : Nat) : Ctx :=
  match (if w = 0 then none else rfcUnwrap Config.blobKey 15 w) with
  | some r =>
    let x := ctxOfRecord r (leBytes r 6 2)
    let m := if x.mode = 2 then copy.marksAt x.keygen else (0, 0)
    let m0 := max x.mark0 m.1
    let m1 := max x.mark1 m.2
    { x with invoc0 := m0, mark0 := m0, invoc1 := m1, mark1 := m1 }
  | none => { Ctx.reset with keygen := copy.keygen }

/-- Apply an accepted blob (R159): settings, queue contexts, generations and key contexts.  A head of the slice's byte that does not exist is
adjusted, as at a COLD reset, with error 0x0105 (R98; DEDUCED, log 213).  A context whose zeroise is journaled is not loaded: it ends
EMPTY (R189; DEDUCED, log 251); the others change once the twin has their copies (R175). -/
def Dev.applyBlob (d : Dev) (s blob : Nat) : Dev :=
  let plain := blobText s blob
  let f (o n : Nat) := leBytes plain o n
  let x := d.slice s
  let d := d.setSlice s { x with
    pasid := f 0 4 % 2 ^ 20, blks := f 4 8 % 2 ^ 41, blksStage := none, blksPend := none,
    share := f 0xC 4 % 2 ^ 11, tshare := f 0xC 4 / 2 ^ 16 % 2 ^ 7, shareAct := f 0xC 4 % 2 ^ 11,
    tshareAct := f 0xC 4 / 2 ^ 16 % 2 ^ 7, pendShare := false, trumpEn := (f 0x10 4).testBit 0,
    qpMax := f 0x10 4 / 2 % 2 ^ 5, pin := f 0x14 4 % 2 ^ 21, hdrm := f 0x18 4 % 2 ^ 24,
    sgen := leBytes blob 0x22 1 % 16, saveseq := (x.saveseq + 1) % 2 ^ 64 }
  let d := d.sliceTo s .frozen
  let hb := f 0x1C 1 % 32
  let d := if d.headFit hb = hb then d else d.recordErr 0x102 0x0105 s hb
  let d := d.setFld (Reg.HIF_SLICE_HEAD (s / 4)) (8 * (s % 4) + 7) (8 * (s % 4)) (d.headFit hb)
  let d := (List.range 16).foldl (fun d p =>
    let b := 0x40 + 0x40 * p
    let ctl := f b 4
    d.setQueue (16 * s + p) { Queue.reset (16 * s + p) with
      en := ctl.testBit 0, ien := ctl.testBit 1, coalN := ctl / 4 % 64, coalUs := ctl / 2 ^ 8 % 256,
      vector := ctl / 2 ^ 16 % 2 ^ 11, sqb := f (b + 4) 8, cqb := f (b + 12) 8, sqHead := f (b + 20) 2,
      sqTail := f (b + 22) 2, cqPosted := f (b + 24) 2, cqHead := f (b + 26) 2, qgen := f (b + 28) 1 % 16 }) d
  let ks := [0, 1, 2, 3].filter (fun k => (d.ctx (4 * s + k)).st != .zeroising)
  let d := (d.setSlice s { d.slice s with opBusy := true }).sliceSums
  if ks.isEmpty then d.opDone s
  else
    let d := ks.foldl (fun (d : Dev) k =>
      let c := 4 * s + k
      let d := d.ctxDrop c
      let y := restoredCtx (d.ctxCopy c) ((blobKeys plain).getD k 0)
      { d.keepCtx c y with ctxPend := d.ctxPend ++ [{ ctx := c, new := y, kind := .blob, mnum := d.gTx }] }) d
    if d.paired then d else d.ctxReady (fun x => x.kind == .blob && x.ctx / 4 == s)

/-- SLICE_RESTORE (R158, R159): `blob` is what the host memory at VSL_SL_BLOB holds. -/
def doSliceRestore (v : Word) (blob : Nat) (nvmOk : Bool) (d : Dev) : Dev :=
  slOp v 5 [.unbound, .frozen] (fun _ _ => true) (fun s d =>
    match d.blobFault s blob nvmOk with
    | some n => ((d.setSlice s { d.slice s with opErr := true }).recordErr 0x300 0x0102 s n).opDone s
    | none => d.applyBlob s blob) d
def execSliceRestore (v : Word) (blob : Nat) (nvmOk : Bool) (s : State) : Host.Outcome State Fault Refusal := act s (doSliceRestore v blob nvmOk)

/-- SLICE_CLEAR (R141): the four contexts are zeroised first; refused while an export of the slice runs (R160). -/
def doSliceClear (v : Word) (d : Dev) : Dev :=
  slOp v 6 [.unbound] (fun d s => !d.exporting s) (fun s d =>
    let d := [0, 1, 2, 3].foldl (fun d k => if (d.ctx (4 * s + k)).st = .valid || d.ctxPend.any (fun x => x.ctx == 4 * s + k) then
      d.startZeroise (4 * s + k) else d) d
    (d.setSlice s { d.slice s with opBusy := true }).sliceTo s .clearing) d
def execSliceClear (v : Word) (s : State) : Host.Outcome State Fault Refusal := act s (doSliceClear v)

/-- MAP releases the granules of a clearing slice (R141), each by a change that goes the way of every other (R25); one with a change under way waits for it. -/
def Dev.releaseAll (d : Dev) (s : Nat) : Dev :=
  ((d.mappedOf s).filter (fun kv => !d.mapPend.any (fun y => y.slice == s && y.granule == kv.1 % 2 ^ 37))).foldl (fun (d : Dev) kv =>
    d.mapChange { slice := s, granule := kv.1 % 2 ^ 37, gver := d.nextGver s (kv.1 % 2 ^ 37), loc := none, src := none, owner := none, mnum := none })
    (d.dropVers (fun v => v.slice == s))

/-- SLICE_CLEAR_DONE (R141, R178): MAP discards the slice's blocks; once its last granule is released, and no change of the slice waits for the twin, the
slice is UNBOUND and KEYGEN returns to 0. -/
def doSliceClearDone (slice : Nat) (d : Dev) : Dev :=
  let s := slice % 1024
  if (d.slice s).st ≠ .clearing ∨ [0, 1, 2, 3].any (fun k => (d.ctx (4 * s + k)).st == .zeroising) ∨ d.mapStop then d
  else if !d.dlogRoom (d.mappedOf s).length then d.dlogStall
  else
    let d := d.releaseAll s
    if !(d.mappedOf s).isEmpty || d.mapPend.any (fun y => y.slice == s) then d
    else
      let d := [0, 1, 2, 3].foldl (fun (d : Dev) k => (d.setCtx (4 * s + k) Ctx.reset).keepCopy (4 * s + k) CtxCopy.reset) d
      (d.sliceTo s .unbound).opDone s
def execSliceClearDone (slice : Nat) (s : State) : Host.Outcome State Fault Refusal := act s (doSliceClearDone slice)

/-- SHARE_WRITE (R145, R146, R167): the pending values. -/
def doShareWrite (v : Word) (d : Dev) : Dev :=
  regWrite d Reg.VSL_SL_SHARE v (fun _ d =>
    let s := d.ssel
    let n := bits v 10 0
    if n < 1 ∨ 1024 < n ∨ 102 < bits v 22 16 then d.recordErr 0x300 0x0103 s 0x114
    else d.setKept s { d.slice s with share := n, tshare := bits v 22 16, pendShare := true })
def execShareWrite (v : Word) (s : State) : Host.Outcome State Fault Refusal := act s (doShareWrite v)

/-- BLKS_HI_WRITE (R148): stages bits [40:32]. -/
def doBlksHiWrite (v : Word) (d : Dev) : Dev :=
  regWrite d Reg.VSL_SL_BLKS_HI v (fun _ d =>
    d.setSlice d.ssel { d.slice d.ssel with blksStage := some (bits v 8 0) })
def execBlksHiWrite (v : Word) (s : State) : Host.Outcome State Fault Refusal := act s (doBlksHiWrite v)

/-- BLKS_LO_WRITE (R148): the count is judged as one value; growth applies at once, a smaller count waits for its
boundary, a refused one discards the staged bits. -/
def doBlksLoWrite (v : Word) (d : Dev) : Dev :=
  regWrite d Reg.VSL_SL_BLKS_LO v (fun _ d =>
    let s := d.ssel
    let x := d.slice s
    let n := v.toNat + 2 ^ 32 * x.blksStage.getD (x.blks / 2 ^ 32)
    let y := { x with blksStage := none }
    if (n < x.blks ∧ n < d.highLba s) ∨ (x.bound ∧ (n < 1 ∨ 2 ^ 40 < n)) then
      (d.setSlice s y).recordErr 0x300 0x0103 s 0x10C
    else if x.blks ≤ n then d.setKept s { y with blks := n, blksPend := none }
    else d.setSlice s { y with blksPend := some n })
def execBlksLoWrite (v : Word) (s : State) : Host.Outcome State Fault Refusal := act s (doBlksLoWrite v)

/-- BLKS_SHRINK_APPLY (R148): at a trick-group boundary with no outstanding write-type command that reaches the
new count. -/
def doBlksShrinkApply (slice : Nat) (d : Dev) : Dev :=
  let s := slice % 1024
  match (d.slice s).blksPend with
  | some n =>
    if d.tick % 131072 = 0 ∧ (d.sliceCmds s).all (fun c => !writeType c.op || decide (c.lba + c.nblk ≤ n)) then
      d.setKept s { d.slice s with blks := n, blksPend := none }
    else d
  | none => d
def execBlksShrinkApply (slice : Nat) (s : State) : Host.Outcome State Fault Refusal := act s (doBlksShrinkApply slice)

/-- UNIT_DISPATCH (R143, R147, R150): one unit of a command is admitted while INFLIGHT < SHARE_ACT × 256, commands in fetch order; it goes on
the slice's head of the moment (R97) and carries the generations of the moment.  FLUSH and admin commands have no units. -/
def doUnitDispatch (qid tag : Nat) (d : Dev) : Dev :=
  let qid := qid % 16384
  let s := qid / 16
  match (d.queue qid).cmd? (tag % 32) with
  | none => d
  | some c =>
    if (writeType c.op || readType c.op) && !c.done && !c.waiting && (d.queue qid).free c && decide (c.units < c.nblk) &&
        (c.started || (d.queue qid).inOrder c) && !d.cutRuns s && d.shareOpen s && !d.vslHeld && !d.mapHeld && !d.hifHeld then
      (d.admitUnits qid c 1).2
    else d
def execUnitDispatch (qid tag : Nat) (s : State) : Host.Outcome State Fault Refusal := act s (doUnitDispatch qid tag)

/-- A write to VSL_EXP_CTL: start (R160) or stop (R168), which lets the record in progress end.  Table VSL-9 does not say which page's header shows which row: what concerns slices is
shown on page 0 and what concerns the export on page 1 (DESIGN CHOICE, log 212). -/
def expCtlWrite (v : Word) (d : Dev) : Dev :=
  regWrite d Reg.VSL_EXP_CTL v (fun new d =>
    let s := bits v 13 4
    let start := d.get64 Reg.VSL_EXP_START_LO Reg.VSL_EXP_START_HI
    let stop := d.get64 Reg.VSL_EXP_END_LO Reg.VSL_EXP_END_HI
    let x := d.slice s
    if d.flag Reg.VSL_EXP_STS 0 then
      if !bitAt v 0 then
        let d := d.setFlag Reg.VSL_EXP_CTL 0 false
        if d.exp.cur.isSome then { d with exp := { d.exp with stops := true } } else d.setFlag Reg.VSL_EXP_STS 0 false
      else d.recordErr 0x301 0x0103 s 0x100
    else if !bitAt v 0 then d.setReg Reg.VSL_EXP_CTL new
    else if x.bound ∧ d.fld Reg.VSL_EXP_RING_LO 19 0 = 0 ∧ start % 8 = 0 ∧ stop % 8 = 0 ∧ start < stop ∧ stop ≤ x.blks ∧ 2 ≤ d.fld Reg.VSL_EXP_SLOTS 15 0 then
      let d := d.setReg Reg.VSL_EXP_CTL new
      let d := d.setReg Reg.VSL_EXP_STS 1
      let d := ((d.setReg Reg.VSL_EXP_PROD 0).setReg Reg.VSL_EXP_CONS 0).set64 Reg.VSL_EXP_CUR_LO Reg.VSL_EXP_CUR_HI start
      let d := (d.setReg Reg.VSL_EXP_BEHIND 0).setReg Reg.VSL_EXP_POISON 0
      { d with exp := { seqNo := 0, cursor := start, behind := [], looked := false } }
    else d.recordErr 0x301 0x0104 s 0)

/-- EXPORT_START: a VSL_EXP_CTL write with EN = 1. -/
def doExportStart (v : Word) (d : Dev) : Dev := if bitAt v 0 then expCtlWrite v d else d
def execExportStart (v : Word) (s : State) : Host.Outcome State Fault Refusal := act s (doExportStart v)

/-- EXPORT_STOP: a VSL_EXP_CTL write with EN = 0 (R168). -/
def doExportStop (v : Word) (d : Dev) : Dev := if bitAt v 0 then d else expCtlWrite v d
def execExportStop (v : Word) (s : State) : Host.Outcome State Fault Refusal := act s (doExportStop v)

/-- EXPORT_CONS_WRITE (R164): the export resumes when the ring has room again. -/
def doExportConsWrite (v : Word) (d : Dev) : Dev :=
  regWrite d Reg.VSL_EXP_CONS v (fun new d =>
    let d := d.setReg Reg.VSL_EXP_CONS new
    let room := (d.fld Reg.VSL_EXP_PROD 31 0 + 2 ^ 32 - new.toNat) % 2 ^ 32 != d.fld Reg.VSL_EXP_SLOTS 15 0
    if room then d.setFlag Reg.VSL_EXP_STS 2 false else d)
def execExportConsWrite (v : Word) (s : State) : Host.Outcome State Fault Refusal := act s (doExportConsWrite v)

end Sys2Proof.Machine
end

