-- ==== Sys2Proof/Machine/Cry.lean ====
section
/-! DEFINITION. The cipher family (chapter 06): context operations through CRY_OP and CRY_XBUF, the KEK, and
lane failures. -/

namespace Sys2Proof.Machine

/-- The record buffer as one number, lowest byte first. -/
def Dev.xbuf (d : Dev) : Nat :=
  (List.range 32).foldl (fun a w => a + 2 ^ (32 * w) * (d.reg (Reg.CRY_XBUF w)).toNat) 0

/-- Fill the record buffer. -/
def Dev.setXbuf (d : Dev) (x : Nat) (shown : Bool) : Dev :=
  { (List.range 32).foldl (fun d w => d.setReg (Reg.CRY_XBUF w) (w32 (x / 2 ^ (32 * w)))) d with xbufShown := shown }

/-- An accepted operation fails (R187): ERR, FAIL and the error code; OP_DONE follows the fall of OP_BUSY. -/
def Dev.cryFail (d : Dev) (code i0 i1 : Nat) : Dev :=
  let d := d.setFlag Reg.CRY_OP_STS 1 true
  let d := d.setFld Reg.CRY_OP_STS 7 4 (code % 16)
  (d.recordErr 0x400 code i0 i1).raise 0x400 0

/-- A write to CRY_OP for one operation (R187): ignored unless the page is unlocked, KEY is 0x4352 and OP_BUSY = 0;
an accepted one clears ERR and FAIL and the record buffer, whose content `body` gets.  A write whose OP names
another operation is not this row's. -/
def cryOp (v : Word) (op : Nat) (body : Nat → Nat → Dev → Dev) (d : Dev) : Dev :=
  if bits v 3 0 ≠ op then d
  else regWrite d Reg.CRY_OP v (fun _ d =>
    if bits v 31 16 = 0x4352 ∧ !d.flag Reg.CRY_OP_STS 0 then
      let x := d.xbuf
      let d := d.setFld Reg.CRY_OP_STS 7 0 0
      body (d.fld Reg.CRY_CSEL 11 0) x (d.setXbuf 0 false)
    else d)

/-- The import checks after the state, KEK and policy checks (R562 checks 4, 6 and 7), and the import itself
(R178, R188): KEYGEN moves on, the marks are rounded up, the persistent copies on both twins are updated first (R175). -/
def Dev.importRecord (d : Dev) (c r op : Nat) : Dev :=
  match recordFault c r with
  | some o => d.cryFail 0x0102 c o
  | none =>
    if leBytes r 0 1 = 2 ∧ !d.flag Reg.CRY_POLICY 2 then d.cryFail 0x0103 c op
    else
      let g := (d.ctx c).keygen + 1
      let y := ctxOfRecord r g
      ((d.setFlag Reg.CRY_OP_STS 0 true).keepCtx c y).ctxWait { ctx := c, new := y, kind := .imported, mnum := d.gTx }

/-- IMPORT_WRAPPED (Table CRY-8, R562). -/
def doImportWrapped (v : Word) (d : Dev) : Dev :=
  cryOp v 1 (fun c x d =>
    if (d.ctx c).st ≠ .empty then d.cryFail 0x0100 c 1
    else
      match d.kek with
      | none => d.cryFail 0x0104 c 1
      | some k =>
        if (d.ctx c).keygen = 0xFFFF then d.cryFail 0x0107 c 0
        else
          match rfcUnwrap k 15 x with
          | none => d.cryFail 0x0101 c 1
          | some r => d.importRecord c r 1) d
def execImportWrapped (v : Word) (s : State) : Host.Outcome State Fault Refusal := act s (doImportWrapped v)

/-- IMPORT_PLAIN (Table CRY-8, R562). -/
def doImportPlain (v : Word) (d : Dev) : Dev :=
  cryOp v 2 (fun c x d =>
    if (d.ctx c).st ≠ .empty then d.cryFail 0x0100 c 2
    else if !d.flag Reg.CRY_POLICY 0 then d.cryFail 0x0103 c 2
    else if (d.ctx c).keygen = 0xFFFF then d.cryFail 0x0107 c 0
    else d.importRecord c (x % 2 ^ 960) 2) d
def execImportPlain (v : Word) (s : State) : Host.Outcome State Fault Refusal := act s (doImportPlain v)

/-- EXPORT_WRAPPED (Table CRY-8, R562). -/
def doExportWrapped (v : Word) (d : Dev) : Dev :=
  cryOp v 3 (fun c _ d =>
    let x := d.ctx c
    if x.st ≠ .valid ∨ !x.exportable then d.cryFail 0x0100 c 3
    else
      match d.kek with
      | none => d.cryFail 0x0104 c 3
      | some k =>
        if !d.flag Reg.CRY_POLICY 1 then d.cryFail 0x0103 c 3
        else (d.setXbuf (rfcWrap k 15 (ctxRecord c x)) true).raise 0x400 0) d
def execExportWrapped (v : Word) (s : State) : Host.Outcome State Fault Refusal := act s (doExportWrapped v)

/-- SAVE_STATE (Table CRY-8): the clear state record, in any state. -/
def doSaveState (v : Word) (d : Dev) : Dev :=
  cryOp v 4 (fun c _ d => (d.setXbuf (clearRecord c (d.ctx c)) true).raise 0x400 0) d
def execSaveState (v : Word) (s : State) : Host.Outcome State Fault Refusal := act s (doSaveState v)

/-- RESTORE_STATE (Table CRY-8, R182): each side's MARK rises to the record's, and INVOC to a MARK above it.  A record's MARK that is no
multiple of 65,536 is taken as it is: the spec neither rounds nor refuses it (DESIGN CHOICE, log 208). -/
def doRestoreState (v : Word) (d : Dev) : Dev :=
  cryOp v 5 (fun c r d =>
    let x := d.ctx c
    if x.st ≠ .valid then d.cryFail 0x0100 c 5
    else if leBytes r 2 2 ≠ c / 4 then d.cryFail 0x0102 c 2
    else if leBytes r 4 1 ≠ c % 4 then d.cryFail 0x0102 c 4
    else if leBytes r 6 2 ≠ x.keygen then d.cryFail 0x0102 c 6
    else if leBytes r 8 8 ≠ x.label then d.cryFail 0x0102 c 8
    else
      let m0 := ofMarkField (leBytes r 0x10 4)
      let m1 := ofMarkField (leBytes r 0x14 4)
      let y := { x with mark0 := max x.mark0 m0, mark1 := max x.mark1 m1, invoc0 := max x.invoc0 m0, invoc1 := max x.invoc1 m1 }
      ((d.setFlag Reg.CRY_OP_STS 0 true).keepMarks c y.mark0 y.mark1).ctxWait { ctx := c, new := y, kind := .restored, mnum := d.gTx }) d
def execRestoreState (v : Word) (s : State) : Host.Outcome State Fault Refusal := act s (doRestoreState v)

/-- ZEROISE (R189): OP_BUSY until the persistent copies are erased. -/
def doZeroise (v : Word) (d : Dev) : Dev :=
  cryOp v 6 (fun c _ d =>
    if (d.ctx c).st ≠ .valid then d.cryFail 0x0100 c 6
    else { (d.startZeroise c).setFlag Reg.CRY_OP_STS 0 true with zeroing := [c] }) d
def execZeroise (v : Word) (s : State) : Host.Outcome State Fault Refusal := act s (doZeroise v)

/-- ZEROISE_SLICE (Table CRY-8): R189 for each VALID context of the selected context's slice. -/
def doZeroiseSlice (v : Word) (d : Dev) : Dev :=
  cryOp v 7 (fun c _ d =>
    let cs := ([0, 1, 2, 3].map (fun k => c / 4 * 4 + k)).filter (fun k => (d.ctx k).st == .valid)
    let d := cs.foldl (fun d k => d.startZeroise k) d
    if cs.isEmpty then d.raise 0x400 0
    else { d.setFlag Reg.CRY_OP_STS 0 true with zeroing := cs }) d
def execZeroiseSlice (v : Word) (s : State) : Host.Outcome State Fault Refusal := act s (doZeroiseSlice v)

/-- ZEROISE_DONE (R189 step 4): the copies on both twins are erased; the context is EMPTY, and OP_BUSY falls with
the last one of the operation. -/
def doZeroiseDone (ctx : Nat) (d : Dev) : Dev :=
  let c := ctx % 4096
  if (d.ctx c).st ≠ .zeroising then d
  else
    let mine := d.zeroing.contains c
    let d := { d.endZeroise c with zeroing := d.zeroing.filter (fun k => k != c) }
    if mine && d.zeroing.isEmpty then (d.setFlag Reg.CRY_OP_STS 0 false).raise 0x400 0 else d
def execZeroiseDone (ctx : Nat) (s : State) : Host.Outcome State Fault Refusal := act s (doZeroiseDone ctx)

/-- CRY_OP_INVALID (R187): an accepted write with OP 0 or 8 to 15 fails at once with 0x0100; OP_BUSY does not rise. -/
def doCryOpInvalid (v : Word) (d : Dev) : Dev :=
  if 1 ≤ bits v 3 0 ∧ bits v 3 0 ≤ 7 then d
  else cryOp v (bits v 3 0) (fun c _ d =>
    ((d.setFlag Reg.CRY_OP_STS 1 true).setFld Reg.CRY_OP_STS 7 4 0).recordErr 0x400 0x0100 c (bits v 3 0)) d
def execCryOpInvalid (v : Word) (s : State) : Host.Outcome State Fault Refusal := act s (doCryOpInvalid v)

/-- A write to one KEK register clears any earlier KEK (R190). -/
def Dev.kekWrite (d : Dev) (k : Nat) (v : Word) : Dev :=
  { (d.setReg (Reg.CRY_KEK k) v).setReg Reg.CRY_KEK_STS 0 with kek := none }

/-- KEK_SET (R190): the write of CRY_KEK7 sets the KEK from the eight registers. -/
def doKekSet (v : Word) (d : Dev) : Dev :=
  regWrite d (Reg.CRY_KEK 7) v (fun _ d =>
    let d := d.kekWrite 7 v
    let k := d.keyRegs (Reg.CRY_KEK 0)
    let d := (List.range 8).foldl (fun d i => d.setReg (Reg.CRY_KEK i) 0) d
    { (d.setFlag Reg.CRY_KEK_STS 0 true).setFld Reg.CRY_KEK_STS 31 16 (kcvOf k) with kek := some k })
def execKekSet (v : Word) (s : State) : Host.Outcome State Fault Refusal := act s (doKekSet v)

/-- LANE_FAIL (R170): the lane leaves service; its unit is repeated on another lane. -/
def doLaneFail (lane : Nat) (knownAnswer : Bool) (d : Dev) : Dev :=
  let l := lane % 16
  if !d.flag Reg.CRY_LANE_STS l then d
  else
    let d := (d.setFlag Reg.CRY_LANE_STS l false).setFlag Reg.CRY_LANE_STS (16 + l) false
    (d.recordErr 0x400 0x0105 l knownAnswer.toNat).raise 0x400 3
def execLaneFail (lane : Nat) (knownAnswer : Bool) (s : State) : Host.Outcome State Fault Refusal :=
  act s (doLaneFail lane knownAnswer)

end Sys2Proof.Machine
end

