-- ==== Sys2Proof/Machine/Cqe.lean ====
section
/-! DEFINITION. The command-queue family (chapter 04): doorbells, fetching and its checks, ring faults, held
commands, queue-pair admin commands, announcements and queue resets. -/

namespace Sys2Proof.Machine

/-- A doorbell value is refused (R101). -/
def Dev.dbError (d : Dev) (qid : Nat) (v : Word) : Dev :=
  let d := d.setQueue qid { d.queue qid with dbErr := true }
  (d.recordErr 0x200 0x0100 qid v.toNat).raise 0x200 0

/-- SQ_TAIL_DB (R100, R101, Table VSL-1): dropped for an UNBOUND, CLEARING or RESETTING slice, during a queue
reset and on a disabled queue, which has no ring; refused past 32 unfetched entries. -/
def doSqTailDbWrite (slice qp : Nat) (v : Word) (d : Dev) : Dev :=
  let qid := 16 * (slice % 1024) + qp % 16
  let st := (d.slice (slice % 1024)).st
  if d.rpFence then d.emit (.unsupportedRequest ((d.sliceHead (slice % 1024)).getD 0))
  else if !d.released || d.resetRun || 2 < d.mode then d
  else
    let d := (d.capRec 0x12 qid [(1, 0), (2, bits v 15 0)]).toRun
    let d := d.setQueue qid { d.queue qid with tailWr := w32 (bits v 15 0) }
    let q := d.queue qid
    let n := bits v 15 0
    if st == .unbound || st == .clearing || st == .resetting || q.resetting || !q.en then d
    else if 32 < (n + 65536 - q.sqHead) % 65536 then d.dbError qid v
    else d.setQueue qid { q with sqTail := n, dbTicks := (q.dbTicks ++ [(n, d.tick)]).drop (q.dbTicks.length - 31) }

def execSqTailDbWrite (slice qp : Nat) (v : Word) (s : State) : Host.Outcome State Fault Refusal :=
  act s (doSqTailDbWrite slice qp v)

/-- A ring access of a queue fails (R105): error 0x0101 and RING_FAULT; fetching stops. -/
def Dev.ringFault (d : Dev) (qid : Nat) (completion : Bool) : Dev :=
  let q := d.queue qid
  let d := d.setQueue qid { q with fault := true, cqFault := q.cqFault || completion }
  (d.recordErr 0x200 0x0101 qid completion.toNat).raise 0x200 1

/-- Retry the completions that could not be written (R105).  Whether the host takes them now is the host's: a free value; a retry that fails
is a ring access that fails. -/
def Dev.retryHeld (d : Dev) (qid : Nat) : Dev :=
  let q := d.queue qid
  if !q.cqFault then d.releaseHeld qid
  else if q.held.isEmpty || (d.sliceHead (qid / 16)).isNone then d
  else if d.freeVal % 2 = 1 then (d.drawn.setQueue qid { q with cqFault := false }).releaseHeld qid
  else d.drawn.ringFault qid true

/-- CQ_HEAD_DB (R100, R101, R133): accepted throughout resets; refused past the entries posted; a queue whose
completions could not be written retries them (R105). -/
def doCqHeadDbWrite (slice qp : Nat) (v : Word) (d : Dev) : Dev :=
  let qid := 16 * (slice % 1024) + qp % 16
  let st := (d.slice (slice % 1024)).st
  if d.rpFence then d.emit (.unsupportedRequest ((d.sliceHead (slice % 1024)).getD 0))
  else if !d.released || d.resetRun || 2 < d.mode then d
  else
    let d := (d.capRec 0x12 qid [(1, 1), (2, bits v 15 0)]).toRun
    let d := d.setQueue qid { d.queue qid with headWr := w32 (bits v 15 0) }
    let q := d.queue qid
    let n := bits v 15 0
    if st == .unbound || st == .clearing || !q.en then d
    else if (q.cqPosted + 65536 - q.cqHead) % 65536 < (n + 65536 - q.cqHead) % 65536 then d.dbError qid v
    else ((d.setQueue qid { q with cqHead := n }).retryHeld qid).pbaSettle

def execCqHeadDbWrite (slice qp : Nat) (v : Word) (s : State) : Host.Outcome State Fault Refusal :=
  act s (doCqHeadDbWrite slice qp v)

/-- The charge of a write at RED: 8 blocks for every granule its range touches (R514). -/
def redCharge (c : Cmd) : Nat := 8 * (granulesOf c.lba c.nblk).length

/-- Orders 1 to 9 of Table CQE-5: the status and INFO of the first check that fails. -/
def Dev.fetchCheck (d : Dev) (qid : Nat) (c : Cmd) : Option (Nat × Nat) :=
  let s := qid / 16
  let x := d.slice s
  let q := d.queue qid
  let key := d.ctx (4 * s + c.keyidx)
  if leBytes c.raw 2 2 / 32 ≠ 0 then some (stInvalidField, 2)
  else if (q.cmd? c.tag).isSome then some (stTagBusy, 0)
  else if !(if qid % 16 = 0 then adminOp c.op else ioOp c.op) then some (stInvalidOpcode, 0)
  else
    match fieldOff c x.trumpEn with
    | some o => some (stInvalidField, o)
    | none =>
      if ioOp c.op ∧ 4096 < c.nblk then some (stLengthLimit, 0)
      else if ioOp c.op ∧ x.blks < c.lba + c.nblk then some (stLbaRange, 0)
      else if x.st ≠ .active then some (stSliceFrozen, 0)
      else if (c.op = opRead ∨ c.op = opWrite ∨ c.op = opVerify ∨ c.op = opWriteZeroes) ∧ key.st ≠ .valid then
        some (stKeyInvalid, c.keyidx)
      else if writeType c.op ∧ d.health = 3 then some (stReadOnly, 0)
      else if (c.op = opWrite ∨ c.op = opWriteZeroes) ∧ d.health = 2 ∧ x.hdrm * 2 ^ 18 < x.hdrmUsed + redCharge c then
        some (stWriteLimited, 0)
      else none

/-- A write of these classes is already waiting for admission (R364: the new one queues behind it). -/
def Dev.admissionQueue (d : Dev) (trump : Bool) : Bool :=
  d.queues.any (fun kv => kv.2.cmds.any (fun c => c.waiting && (c.cls == 0) == trump))

/-- Reserve a write's cache slots at fetch (R363); a write that does not get them waits (R364), and in DIRECT mode
none are needed (R365). -/
def Dev.reserveSlots (d : Dev) (qid : Nat) (c : Cmd) : Dev :=
  let n := 8 * (c.placedGranules).length
  if !writeType c.op || d.slots = 0 then d
  else
    match if d.admissionQueue (c.cls == 0) then none else d.admitSlots c.cls n with
    | some d' => d'.setCmd qid { c with slots := n }
    | none =>
      let d := d.setCmd qid { c with waiting := true, waitTick := d.tick }
      if c.cls = 0 ∧ d.slots < d.usedSlots + n then (d.inc Reg.STK_PWC_TFULL 1).raise 0x602 5
      else if c.cls = 0 then d
      else d.inc Reg.STK_PWC_THROT 1

/-- SQE_FETCH (R113, R114, R121, R122): fetch the entry at SQ_HEAD, complete it with the first check it fails, or
make it outstanding.  In FREEZING only an entry whose fetch read was already issued arrives (R154); it meets
order 7. -/
def doSqeFetch (qid entry : Nat) (d : Dev) : Dev :=
  let qid := qid % 16384
  if !d.mayFetch qid then d
  else
    let q := d.queue qid
    let d := d.emit (.hostRead (d.slice (qid / 16)).pasid ((d.sliceHead (qid / 16)).getD 0) (q.sqb + 64 * (q.sqHead % 32)))
    let c := parseSqe entry d.fetchNo (q.doorbellOf q.sqHead d.tick)
    let chk := d.fetchCheck qid c
    let d := d.capRec 0x13 qid [(2, q.sqHead % 32), (64, entry)]
    let d := { d with fetchNo := d.fetchNo + 1 }
    let d := d.setQueue qid { q with sqHead := (q.sqHead + 1) % 65536 }
    match chk with
    | some (status, info) =>
      let d := if status = stTagBusy then d.inc Reg.CQE_TAGBUSY 1 else d
      d.post qid ⟨c.tag, 2, status, info, 0⟩
    | none =>
      let x := d.slice (qid / 16)
      let charge := if (c.op = opWrite ∨ c.op = opWriteZeroes) ∧ d.health = 2 then redCharge c else 0
      let c := { c with keygen := (d.ctx (4 * (qid / 16) + c.keyidx)).keygen, charge := charge, chargeRed := d.redNo,
                         ioTick := d.tick, wasHeld := !(d.queue qid).free c }
      let d := if charge = 0 then d else d.setKept (qid / 16) { x with hdrmUsed := x.hdrmUsed + charge }
      let q := d.queue qid
      let d := if q.free c then d else d.inc Reg.CQE_HAZ_WAITS 1
      let d := d.setQueue qid { q with cmds := q.cmds ++ [c] }
      d.reserveSlots qid c

def execSqeFetch (qid entry : Nat) (s : State) : Host.Outcome State Fault Refusal := act s (doSqeFetch qid entry)

/-- RING_FAULT (R105): fetching stops, completions that cannot be written are held. -/
def doRingFault (qid : Nat) (completion : Bool) (d : Dev) : Dev :=
  if (d.queue (qid % 16384)).en then d.ringFault (qid % 16384) completion else d

def execRingFault (qid : Nat) (completion : Bool) (s : State) : Host.Outcome State Fault Refusal :=
  act s (doRingFault qid completion)

/-- HAZARD_RELEASE (R125, R127): the last command that held this one has posted, from which its bound is measured; it starts: its first units
are dispatched, if its turn has come and the share admits them (R143, R147). -/
def doHazardRelease (qid tag : Nat) (d : Dev) : Dev :=
  let qid := qid % 16384
  let q := d.queue qid
  match q.cmd? (tag % 32) with
  | some c =>
    if c.wasHeld && !c.done && !c.started && !c.waiting && q.free c && q.inOrder c && (readType c.op || writeType c.op) && !d.cutRuns (qid / 16) && !d.dataHeld then
      (d.admitUnits qid c c.nblk).2
    else d
  | none => d

def execHazardRelease (qid tag : Nat) (s : State) : Host.Outcome State Fault Refusal := act s (doHazardRelease qid tag)

/-- CREATE_QP (Table CQE-2, R142).  With COAL_N above 32 and another fault at once the spec does not say which INFO stands: COAL_N is tested
first (DESIGN CHOICE, log 208). -/
def doCreateQp (qid tag : Nat) (d : Dev) : Dev :=
  let qid := qid % 16384
  match d.ready qid (tag % 32) opCreateQp with
  | none => d
  | some c =>
    let s := qid / 16
    let qp := leBytes c.raw 4 1 % 16
    let sq := leBytes c.raw 16 8
    let cq := leBytes c.raw 24 8
    let n := leBytes c.raw 32 1 % 64
    let t := 16 * s + qp
    if 32 < n then d.complete qid c.tag stInvalidField 32
    else if qp = 0 ∨ (d.slice s).qpMax ≤ qp ∨ (d.queue t).en ∨ sq % 4096 ≠ 0 ∨ cq % 4096 ≠ 0 then
      d.complete qid c.tag stInvalidField 0
    else
      let d := d.setQueue t { Queue.reset t with
        en := true, ien := (d.queue t).ien, vector := (d.queue t).vector, qgen := (d.queue t).qgen,
        coalN := n, coalUs := leBytes c.raw 33 1, sqb := sq, cqb := cq }
      d.complete qid c.tag stSuccess 0

def execCreateQp (qid tag : Nat) (s : State) : Host.Outcome State Fault Refusal := act s (doCreateQp qid tag)

/-- DELETE_QP (Table CQE-2).  Of a pair that is disabled already it ends with SUCCESS: the spec names no error for it (DESIGN CHOICE,
log 208). -/
def doDeleteQp (qid tag : Nat) (d : Dev) : Dev :=
  let qid := qid % 16384
  match d.ready qid (tag % 32) opDeleteQp with
  | none => d
  | some c =>
    let qp := leBytes c.raw 4 1 % 16
    let t := 16 * (qid / 16) + qp
    let q := d.queue t
    if qp = 0 ∨ !q.cmds.isEmpty ∨ !q.squash.isEmpty ∨ q.resetting then d.complete qid c.tag stInvalidField 0
    else (d.setQueue t { q with en := false }).complete qid c.tag stSuccess 0

def execDeleteQp (qid tag : Nat) (s : State) : Host.Outcome State Fault Refusal := act s (doDeleteQp qid tag)

/-- COALESCE_TIMEOUT (R136): COAL_US microseconds have passed since the oldest unannounced entry was posted. -/
def doCoalesceTimeout (qid : Nat) (d : Dev) : Dev :=
  let qid := qid % 16384
  let q := d.queue qid
  if q.ien && 0 < q.unann && decide (q.unannTick + q.coalUs * 1000 ≤ d.tick) then d.announce qid else d

def execCoalesceTimeout (qid : Nat) (s : State) : Host.Outcome State Fault Refusal := act s (doCoalesceTimeout qid)

/-- CQ_STALL_TIMEOUT (Table CQE-9): a ring held full for more than 1 ms raises CQ_STALL. -/
def doCqStallTimeout (qid : Nat) (d : Dev) : Dev :=
  match (d.queue (qid % 16384)).stallTick with
  | some t => if t + 1000000 < d.tick then d.raise 0x200 2 else d
  | none => d

def execCqStallTimeout (qid : Nat) (s : State) : Host.Outcome State Fault Refusal := act s (doCqStallTimeout qid)

/-- Q_RESET of a doorbell sub-page (R104, R130): only 0x5153_0001 starts a reset. -/
def doQReset (slice qp : Nat) (v : Word) (d : Dev) : Dev :=
  if v = 0x51530001#32 ∧ d.released ∧ !d.resetRun then d.queueReset (16 * (slice % 1024) + qp % 16) else d

def execQReset (slice qp : Nat) (v : Word) (s : State) : Host.Outcome State Fault Refusal := act s (doQReset slice qp v)

/-- CQE_Q_RST: the same reset, of the queue CQE_QSEL selects. -/
def doCqeQRst (v : Word) (d : Dev) : Dev :=
  regWrite d Reg.CQE_Q_RST v (fun _ d =>
    if v = 0x51530001#32 then d.queueReset (d.fld Reg.CQE_QSEL 13 0) else d)

def execCqeQRst (v : Word) (s : State) : Host.Outcome State Fault Refusal := act s (doCqeQRst v)

/-- QUEUE_RESET_DRAINED (R130 steps 5 and 6, R131): no old-generation unit remains; the SQUASHED entries and the
reset-done entry go out as soon as the ring has room for them (R102), and fetching resumes.  A slice reset that waited for its last queue reset starts (R149). -/
def doQueueResetDrained (qid : Nat) (d : Dev) : Dev :=
  let qid := qid % 16384
  let s := qid / 16
  if !(d.queue qid).resetting || d.cutRuns s || (d.sliceHead s).isNone || !(d.queue qid).resetRoom then d
  else
    let d := (d.drainStale qid).resetDone qid stSquashed
    if (d.slice s).cutWaits && !d.queueResetRuns s then d.sliceCut s else d

def execQueueResetDrained (qid : Nat) (s : State) : Host.Outcome State Fault Refusal := act s (doQueueResetDrained qid)

/-- A context register of the selected queue as it reads. -/
def Queue.ctlWord (q : Queue) : Nat :=
  q.en.toNat + 2 * q.ien.toNat + 4 * q.coalN + 2 ^ 8 * q.coalUs + 2 ^ 16 * q.vector

/-- CQE_Q_CTL and the ring bases of the selected queue (R135): refused while the queue has EN = 1 and a tag is
outstanding or RESETTING = 1 and the write changes SQB, CQB or EN, and for VECTOR or COAL_N out of range.
Setting EN = 1 zeroes the counters. -/
def doCqeQCtlWrite (off : Nat) (v : Word) (d : Dev) : Dev :=
  let off := Reg.CQE_Q_CTL + off % 0x1000 - 0x104
  if off < Reg.CQE_Q_CTL ∨ Reg.CQE_Q_CQB_HI < off ∨ off % 4 ≠ 0 then d
  else regWrite d off v (fun _ d =>
    let qid := d.fld Reg.CQE_QSEL 13 0
    let q := d.queue qid
    let busy := q.en && (!q.cmds.isEmpty || !q.squash.isEmpty || q.resetting)
    let refuse (d : Dev) : Dev := d.recordErr 0x200 0x0102 qid v.toNat
    let put (q' : Queue) : Dev :=
      if busy && (q'.en != q.en || q'.sqb != q.sqb || q'.cqb != q.cqb) then refuse d
      else d.setQueue qid q'
    if off = Reg.CQE_Q_CTL then
      let en := bitAt v 0
      let coalN := bits v 7 2
      let vec := bits v 26 16
      if 32 < coalN ∨ vec < 32 then refuse d
      else
        let q' := { q with en := en, ien := bitAt v 1, coalN := coalN, coalUs := bits v 15 8, vector := vec }
        put (if en && !q.en then
          { q' with sqHead := 0, sqTail := 0, cqPosted := 0, cqHead := 0, unann := 0, dbTicks := [], held := [] } else q')
    else if off = Reg.CQE_Q_SQB_LO then put { q with sqb := q.sqb / 2 ^ 32 * 2 ^ 32 + v.toNat / 4096 * 4096 }
    else if off = Reg.CQE_Q_SQB_HI then put { q with sqb := q.sqb % 2 ^ 32 + v.toNat * 2 ^ 32 }
    else if off = Reg.CQE_Q_CQB_LO then put { q with cqb := q.cqb / 2 ^ 32 * 2 ^ 32 + v.toNat / 4096 * 4096 }
    else put { q with cqb := q.cqb % 2 ^ 32 + v.toNat * 2 ^ 32 })

def execCqeQCtlWrite (off : Nat) (v : Word) (s : State) : Host.Outcome State Fault Refusal := act s (doCqeQCtlWrite off v)

end Sys2Proof.Machine
end

