-- ==== Sys2Proof/Machine/Credit.lean ====
section
/-! DEFINITION. Stockpot credit (R355 to R359): pages held per class, the test `may_take`, taking in one step and
waiting without holding any. -/

namespace Sys2Proof.Machine

/-- Pages of the pool in service (R356, Table STK-5). -/
def Dev.poolPages (d : Dev) : Nat := 8388608 - 16 * (d.hbmRetired.filter (fun q => decide (0x160000 ≤ q) && decide (q < 0x1E0000))).length

/-- Pages a class holds. -/
def Dev.crUsed (d : Dev) (c : Nat) : Nat := sumL ((d.crHold.filter (fun kv => kv.1 % 16 == c)).map Prod.snd)

/-- FLOOR and CEIL of a class in pages. -/
def Dev.crFloor (d : Dev) (c : Nat) : Nat := 256 * (d.crLim.getD c (0, 0)).1
def Dev.crCeil (d : Dev) (c : Nat) : Nat := 256 * (d.crLim.getD c (0, 0)).2

/-- SHARED, and the shared pages in use. -/
def Dev.crShared (d : Dev) : Nat := d.poolPages - sumL ((List.range 10).map d.crFloor)
def Dev.crSharedUsed (d : Dev) : Nat := sumL ((List.range 10).map (fun c => d.crUsed c - d.crFloor c))

/-- `may_take` (R356); while the power-loss dump runs only class 9 takes credit (R359). -/
def Dev.mayTake (d : Dev) (c n : Nat) : Bool :=
  let overNow := d.crUsed c - d.crFloor c
  let overNew := d.crUsed c + n - d.crFloor c
  (!d.dumping || c == 9) && decide (d.crUsed c + n ≤ d.crCeil c) && decide (d.crSharedUsed - overNow + overNew ≤ d.crShared)

/-- Publish the figures of Table STK-8. -/
def Dev.crCounts (d : Dev) : Dev :=
  let d := (List.range 10).foldl (fun d c => d.setFld (Reg.STK_CR_USED c) 23 0 (d.crUsed c)) d
  let d := d.setFld Reg.STK_POOL 15 0 (d.poolPages / 256)
  (d.setFld Reg.STK_SHARED 15 0 (d.crShared / 256)).setFld Reg.STK_SHARED 31 16 (ceilDiv d.crSharedUsed 256)

/-- A unit is gone: a command that is no longer outstanding. -/
def Dev.unitGone (d : Dev) (u : Nat) : Bool := u < 2 ^ 19 && ((d.queue (u / 32)).cmd? (u % 32)).isNone

/-- Give back what the units that a predicate names hold. -/
def Dev.freeCredit (d : Dev) (p : Nat → Bool) : Dev :=
  if d.crHold.any (fun kv => p (kv.1 / 16)) then
    { d with crHold := d.crHold.filter (fun kv => !p (kv.1 / 16)) }.crCounts
  else d

/-- A unit takes `n` pages of a class in one step (R357), or waits behind the units of its class. -/
def Dev.takeCredit (d : Dev) (c n u : Nat) : Bool × Dev :=
  let d := d.freeCredit d.unitGone
  if (d.crHold.find (u * 16 + c)).isSome then (true, d)
  else if !d.crWait.any (fun w => w.cls == c && w.unit != u && !d.unitGone w.unit) && d.mayTake c n then
    (true, { d with crHold := SMap.insert d.crHold (u * 16 + c) n, crWait := d.crWait.filter (fun w => w.unit != u) }.crCounts)
  else if d.crWait.any (fun w => w.unit == u) then (false, d)
  else (false, { d with crWait := d.crWait ++ [(⟨c, n, d.tick, u⟩ : CrUnit)] }.inc Reg.STK_CR_WAITS 1)

/-- CREDIT_GRANT (R357): the oldest waiting unit of a class takes all its credit once `may_take` allows; its wait is a
scorepad sample. -/
def doCreditGrant (cls : Nat) (d : Dev) : Dev :=
  let d : Dev := { d with crWait := d.crWait.filter (fun w => !d.unitGone w.unit) }
  match d.crWait.find? (fun w => w.cls == cls % 10) with
  | some w =>
    if d.mayTake w.cls w.pages && !d.stkStop then
      let d : Dev := { d with crHold := SMap.insert d.crHold (w.unit * 16 + w.cls) w.pages, crWait := d.crWait.filter (fun y => y != w) }
      (d.crCounts.ioFrom (fun q c => q * 32 + c.tag == w.unit)).score 10 (d.tick - w.tick) none (some w.cls) none
    else d
  | none => d
def execCreditGrant (cls : Nat) (s : State) : Host.Outcome State Fault Refusal := act s (doCreditGrant cls)

end Sys2Proof.Machine
end

