-- ==== Sys2Proof/Machine/Lane.lean ====
section
/-! DEFINITION. A flash port's link and its list of operations (chapters 08 and 09): link sequence state, commands to the bridge, die
operations and the dirty-region bits that a program sets. -/

namespace Sys2Proof.Machine

def Dev.bridge (d : Dev) (p : Nat) : Bridge := SMap.get (fun _ => Bridge.reset) d.bridges p
def Dev.setBridge (d : Dev) (p : Nat) (x : Bridge) : Dev :=
  { d with bridges := SMap.set (fun _ => Bridge.reset) d.bridges p x }

/-- The die runs or holds suspended an operation, or runs a read. -/
def BDie.busy (x : BDie) : Bool :=
  x.st == .reading || x.st == .programming || x.st == .erasing || x.st == .suspended || x.rdTag.isSome

/-! ### The link (R254 to R258) -/

/-- The 32 bytes of a flit (Table LNK-1): the header, 28 bytes of payload, and the CRC of the thirty bytes (R255). -/
def flitOf (hdr payload : Nat) : Nat :=
  let body := hdr % 2 ^ 16 + 2 ^ 16 * (payload % 2 ^ 224)
  body + 2 ^ 240 * crcBytes 16 0x8BB7 0xFFFF (toBytes body 30)

/-- A CTRL flit (Table LNK-2): its code and what follows it. -/
def ctrlFlit (code arg : Nat) : Nat := flitOf 1 (code % 256 + 2 ^ 8 * arg)

/-- The flits of a message of a stream, SEQ apart (R256): the first is MSG, the others are DATA, and the last carries LAST. -/
def msgFlits (strm : Nat) (payloads : List Nat) : List Nat :=
  ((List.range payloads.length).zip payloads).map (fun ip =>
    (if ip.1 = 0 then 2 else 3) + (if ip.1 + 1 = payloads.length then 4 else 0) + 8 * strm + 16 * (ip.2 % 2 ^ 224))

/-- A waiting flit gets its SEQ. -/
def seqFlit (x seq : Nat) : Nat := flitOf (x % 16 + 16 * (seq % 4096)) (x / 16)

/-- The lane carries flits: in DELAY or ACTIVE, and no test of mode 1 or 2 runs (R282, R283). -/
def Dev.laneUp (d : Dev) (p : Nat) : Bool := (d.lstate p == 4 || d.lstate p == 5) && decide ((d.port p).testEnd ≤ d.tick)

/-- SEQ of the next flit that stream 0 is given: its waiting flits go ahead of stream 1 (DESIGN CHOICE, log 240). -/
def Port.seq0 (x : Port) : Nat := (x.txNext + x.tx0.length) % 4096

/-- Send waiting flits while fewer than 256 are unacknowledged (R258): those of stream 0, then those of stream 1. -/
def Dev.pump (d : Dev) (p : Nat) : Dev :=
  let x := d.port p
  let room := 256 - x.txBuf.length
  let a := x.tx0.take room
  let b := x.tx1.take (room - a.length)
  let go := a ++ b
  if !d.laneUp p || go.isEmpty then d
  else
    let fs := ((List.range go.length).zip go).map (fun iv => seqFlit iv.2 (x.txNext + iv.1))
    let d := d.setPort p { x with
      tx0 := x.tx0.drop a.length, tx1 := x.tx1.drop b.length, txNext := (x.txNext + go.length) % 4096
      txBuf := x.txBuf ++ fs.map (fun f => (f, 1)), txTick := if x.txBuf.isEmpty then d.tick else x.txTick }
    fs.foldl (fun (d : Dev) f => d.emit (.flit p f)) d

/-- A command of the controller (Table LNK-3); fields that it does not use are zero. -/
structure LaneCmd where
  opc    : Nat
  flags  : Nat := 0
  tag    : Nat := 0
  trick  : Nat := 0
  die    : Nat := 0
  planes : Nat := 0
  block  : Nat := 0
  page   : Nat := 0
  args   : Nat := 0
deriving DecidableEq, Repr

/-- The fields of a command after its opcode. -/
def LaneCmd.words (c : LaneCmd) : List Nat := [c.flags, c.tag, c.trick, c.die, c.planes, c.block, c.page, c.args]

/-- The 28 bytes of its MSG flit. -/
def LaneCmd.payload (c : LaneCmd) : Nat :=
  payVal [(1, c.opc), (1, c.flags), (2, c.tag), (2, c.trick), (1, c.die), (1, c.planes), (2, c.block), (2, c.page), (16, c.args)]

/-- Send a command to a bridge, with the payloads of its DATA flits: PDATA on stream 1, any other command on stream 0. -/
def Dev.sendData (d : Dev) (p : Nat) (c : LaneCmd) (data : List Nat) : Dev :=
  let d := d.emit (.bridge p c.opc c.words)
  let x := d.port p
  let fs := msgFlits (if c.opc = 0x0C then 1 else 0) (c.payload :: data)
  (d.setPort p (if c.opc = 0x0C then { x with tx1 := x.tx1 ++ fs } else { x with tx0 := x.tx0 ++ fs })).pump p

/-- Send a command of one flit. -/
def Dev.sendCmd (d : Dev) (p : Nat) (c : LaneCmd) : Dev := d.sendData p c []

/-! ### Operations -/

/-- A tag no operation of the port has (R261), from the next one on; while the operations have all 4,096 a number beyond them, with which an operation is
queued but not armed. -/
def Port.freeTag (x : Port) : Nat :=
  match ((List.range 4096).map (fun i => (x.nextTag + i) % 4096)).find? (fun t => !x.ops.any (fun o => o.tag == t)) with
  | some t => t
  | none => x.ops.foldl (fun m o => max m (o.tag + 1)) 4096

/-- Operations that were queued without a tag get one as tags become free. -/
def Port.retag (x : Port) : Port :=
  (x.ops.filter (fun o => decide (4096 ≤ o.tag))).foldl (fun (x : Port) o =>
    let t := x.freeTag
    if t < 4096 then { x with ops := x.ops.map (fun y => if y.tag == o.tag then { y with tag := t } else y), nextTag := (t + 1) % 4096 } else x) x

/-- Send a command that is no operation, under a tag of its own. -/
def Dev.sendFresh (d : Dev) (p : Nat) (c : LaneCmd) (data : List Nat) : Dev :=
  let x := d.port p
  let t := x.freeTag % 4096
  (d.setPort p { x with nextTag := (t + 1) % 4096 }).sendData p { c with tag := t } data

/-- Ask a die for its STATUS with INFO (R259, R282); the answer names the query's tag, not the die. -/
def Dev.askDie (d : Dev) (p die : Nat) : Dev :=
  let x := d.port p
  let t := x.freeTag % 4096
  (d.setPort p { x with asks := SMap.insert x.asks t die }).sendFresh p { opc := 0x06, die := die, args := 1 } []

/-- A new operation on a band's chunk. -/
def mkOp (opc : Nat) (src : OpSrc) (cls slice band stripe pos die block page : Nat) (slc : Bool) : POp :=
  { tag := 0, opc := opc, src := src, cls := cls, slice := slice, band := band, stripe := stripe, pos := pos, die := die,
    block := block, page := page, slc := slc, stage := .waiting, enq := 0, trick := 0, seq := 0, misses := 0, buf := 32,
    sus := 0, start := 0, data := false, got := [], sent := none, forTwin := none }

/-- The operation with a tag. -/
def Port.op? (x : Port) (tag : Nat) : Option POp := x.ops.find? (fun o => o.tag == tag)

/-- Replace an operation. -/
def Port.setOp (x : Port) (o : POp) : Port := { x with ops := x.ops.map (fun y => if y.tag == o.tag then o else y) }

/-- Remove an operation. -/
def Dev.dropOp (d : Dev) (p tag : Nat) : Dev :=
  let x := d.port p
  d.setPort p { x with ops := x.ops.filter (fun o => o.tag != tag) }

/-- Recompute FCH_P_OUT. -/
def Dev.outCounts (d : Dev) (p : Nat) : Dev :=
  let x := d.port p
  let run := (x.ops.filter (fun o => o.stage == .running)).length
  let arm := (x.ops.filter (fun o => o.stage == .armed)).length
  let buf := (x.ops.filter (fun o => o.opc == 0x02 && decide (o.buf < 32))).length
  d.setReg (Reg.FCH_P_OUT p) (w32 (min 4095 run + 2 ^ 16 * min 255 arm + 2 ^ 24 * min 255 buf))

/-! ### Chunks and stripes -/

/-- The key of a chunk. -/
def chunkId (band stripe pos : Nat) : Nat := (band * 4096 + stripe) * 32 + pos

/-- The region of a stripe (R345). -/
def regionId (band stripe : Nat) : Nat := band * 64 + stripe / 64

/-- Recompute SHF_BM_DIRTY. -/
def Dev.bmCount (d : Dev) : Dev := d.setFld Reg.SHF_BM_DIRTY 26 0 d.bmDirty.length

/-- A bitmap record as 64 bytes (Table SHF-4), its CRC over bytes 0x00 to 0x37. -/
def bmBytes (r : MBitmap) : Nat :=
  let body := 0x4C445242 + 2 ^ 32 * (r.kind % 2 ^ 8) + 2 ^ 64 * (r.seq % 2 ^ 64) + 2 ^ 128 * (r.band % 2 ^ 23) + 2 ^ 192 * (r.regions % 2 ^ 64) +
    2 ^ 256 * (r.tick % 2 ^ 64) + 2 ^ 320 * (r.epoch % 2 ^ 16)
  body + 2 ^ 448 * crc64 (toBytes body 56)

/-- The record's magic and CRC are right. -/
def bmValid (w : Nat) : Bool := w % 2 ^ 32 == 0x4C445242 && crc64 (toBytes (w % 2 ^ 448) 56) == w / 2 ^ 448

/-- SEQ, KIND, band and REGIONS of a record. -/
def bmSeqOf (w : Nat) : Nat := w / 2 ^ 64 % 2 ^ 64
def bmKindOf (w : Nat) : Nat := w / 2 ^ 32 % 2 ^ 8
def bmBandOf (w : Nat) : Nat := w / 2 ^ 128 % 2 ^ 23
def bmRegionsOf (w : Nat) : Nat := w / 2 ^ 192 % 2 ^ 64

/-- A copy is consistent when its records have valid CRCs and consecutive SEQ (R347). -/
def BmLog.consistent (l : BmLog) : Bool :=
  ((List.range l.recs.length).zip l.recs).all (fun x => bmValid x.2 && bmSeqOf x.2 == (l.base + 1 + x.1) % 2 ^ 64)

/-- The sequence of a copy: the SEQ of its last record. -/
def BmLog.seq (l : BmLog) : Nat := l.base + l.recs.length

/-- The dirty regions that a copy holds: each record replaces its band's. -/
def BmLog.dirty (l : BmLog) : List Nat :=
  l.recs.foldl (fun (acc : List Nat) w =>
    let b := bmBandOf w
    acc.filter (fun k => k / 64 != b) ++ ((List.range 64).filter (fun i => (bmRegionsOf w).testBit i)).map (fun i => b * 64 + i)) []

/-- The records of a page of the log (R347: 256 to a page). -/
def BmLog.page (l : BmLog) (n : Nat) : List Nat :=
  (((List.range l.recs.length).zip l.recs).filter (fun x => (l.past + x.1) / 256 == n)).map Prod.snd

/-- A bitmap log. -/
def Dev.bmLog (d : Dev) (n : Nat) : BmLog := SMap.get (fun _ => BmLog.reset) d.bmLogs n
def Dev.setBmLog (d : Dev) (n : Nat) (l : BmLog) : Dev := { d with bmLogs := SMap.set (fun _ => BmLog.reset) d.bmLogs n l }

/-- The flash logs in service. -/
def Dev.bmLogsOn (d : Dev) : List Nat := [0, 1, 2].filter (fun n => d.flag (Reg.SHF_BM_PORT n) 15)

/-- SHF_BM_SEQ. -/
def Dev.bmSeq (d : Dev) : Nat := d.get64 Reg.SHF_BM_SEQ_LO Reg.SHF_BM_SEQ_HI

/-- The dirty regions of a band, bit by bit. -/
def Dev.bmRegions (d : Dev) (band : Nat) : Nat := ((d.bmDirty.filter (fun k => k / 64 == band)).map (fun k => 2 ^ (k % 64))).foldl (· + ·) 0

/-- One bitmap record reaches every copy in service (R346): the sequence advances, the twin's copy is mirrored, each flash log takes it. -/
def Dev.bmWrite (d : Dev) (kind band : Nat) : Dev :=
  let d := d.inc64 Reg.SHF_BM_SEQ_LO Reg.SHF_BM_SEQ_HI 1
  let r : MBitmap := { kind := kind, seq := d.bmSeq, band := band, regions := d.bmRegions band, tick := d.tick, epoch := d.epoch }
  let d := d.journal { JBatch.none with bitmaps := [r] }
  d.bmLogsOn.foldl (fun (d : Dev) n => d.setBmLog n { d.bmLog n with recs := (d.bmLog n).recs ++ [bmBytes r] }) d

/-- The bands with a dirty region. -/
def Dev.bmBands (d : Dev) : List Nat := d.bmDirty.foldl (fun a k => insertSorted a (k / 64)) []

/-- A checkpoint (R347): a CHECKPOINT record for every band with a dirty region, in every copy, since all share one sequence (DEDUCED,
log 109); a flash log needs nothing older from then on. -/
def Dev.bmCheckpoint (d : Dev) : Dev :=
  let bs := d.bmBands
  let d := bs.foldl (fun (d : Dev) b => d.bmWrite 3 b) d
  if bs.isEmpty then d
  else d.bmLogsOn.foldl (fun (d : Dev) n =>
    let l := d.bmLog n
    let old := l.recs.length - bs.length
    d.setBmLog n { base := l.base + old, past := l.past + old, recs := l.recs.drop old }) d

/-- Records between two checkpoints of a flash log (R347). -/
def bmEvery : Nat := 1048576

/-- A bitmap record, and a checkpoint where a log is due one. -/
def Dev.bmRecord (d : Dev) (kind band : Nat) : Dev :=
  let d := d.bmWrite kind band
  if d.bmLogsOn.any (fun n => decide (bmEvery ≤ (d.bmLog n).recs.length)) then d.bmCheckpoint else d

/-- Set a region's bit before its first program (BITMAP_SET, R346). -/
def Dev.bmSet (d : Dev) (band stripe : Nat) : Dev :=
  let r := regionId band stripe
  if d.bmDirty.contains r then { d with bmClear := d.bmClear.filter (fun x => x.1 != r) }
  else
    let d := ({ d with bmDirty := d.bmDirty ++ [r] }.bmRecord 1 band).bmCount
    if d.paired then { d with bmWait := SMap.insert d.bmWait r (d.gTx - 1) } else d

/-- A region's SET record is in every copy in service: the twin's once an ACK covers the message that carried it. -/
def Dev.bmReady (d : Dev) (band stripe : Nat) : Bool :=
  let r := regionId band stripe
  d.bmDirty.contains r && (match d.bmWait.find r with
    | some m => !d.gPend.any (fun g => g.mnum == m)
    | none => true)

/-- A region's bit may be cleared: the clear waits for the next batch (R346); one that a stop has left dirty is resynchronised first (R349). -/
def Dev.bmMayClear (d : Dev) (band region : Nat) : Dev :=
  let r := band * 64 + region
  if d.bmDirty.contains r && (d.resync.find r).isNone && !d.bmClear.any (fun x => x.1 == r) then { d with bmClear := d.bmClear ++ [(r, d.tick)] } else d

/-- The twin's bridge groups have the parity of the other SIDE (R392). -/
def Dev.homeSide (d : Dev) (p : Nat) : Bool := p / 8 % 2 == d.side

/-- The band is stewarded by this unit (R393): while PAIRED, the owner of its position-0 port. -/
def Dev.stewards (d : Dev) (b : Nat) : Bool := !d.paired || d.homeSide (d.setAtPos b 0).port

/-- A bridge is the twin's to deal for while PAIRED (R394): the twin holds its token, or it is free and of the twin's SIDE. -/
def Dev.far (d : Dev) (p : Nat) : Bool :=
  d.paired && (d.fld (Reg.FCH_P_STS p) 4 3 == 2 || (d.fld (Reg.FCH_P_STS p) 4 3 == 0 && !d.homeSide p))

/-- Send an operation of a port to the twin as REMOTE_OP (R394) with its class, slice and generations (a die operation belongs to no queue, and
carries queue generation 0: log 215); a program's region is marked first, in a message that the twin takes before it. -/
def Dev.remote (d : Dev) (p : Nat) (o : POp) : Dev :=
  let d := if o.opc = 0x02 then d.bmSet o.band o.stripe else d
  let d := d.setPort p ((d.port p).setOp { o with stage := .running, sent := some d.gTx })
  d.sendGulon 0x20 (remoteOpFs p o.opc o.die o.block o.page o.slice (d.slice o.slice).sgen 0 o.cls)

/-- Queue an operation; on a bridge that the twin deals for it goes there. -/
def Dev.addOp (d : Dev) (p : Nat) (o : POp) : Dev :=
  let x := d.port p
  let t := x.freeTag
  let o := { o with tag := t, enq := d.tick }
  let d := d.setPort p { x with ops := x.ops ++ [o], nextTag := (t + 1) % 4096 }
  if d.far p then d.remote p o else d

/-- The operations that serve an owner are over. -/
def Dev.dropOwned (d : Dev) (w : Nat) : Dev :=
  (d.ports.filter (fun kv => kv.2.ops.any (fun o => o.owner == some w))).foldl (fun d kv =>
    (d.setPort kv.1 { kv.2 with ops := kv.2.ops.filter (fun o => o.owner != some w) }).outCounts kv.1) d

/-- Reads that serve an owner are out. -/
def Dev.readsOut (d : Dev) (w : Nat) : Bool := d.ports.any (fun kv => kv.2.ops.any (fun o => o.owner == some w))

/-- The command or export record that a read serves is still there. -/
def Dev.ownerLives (d : Dev) (w : Nat) : Bool :=
  if 2 ^ 68 ≤ w then true
  else if 2 ^ 67 ≤ w then (d.band ((w - 2 ^ 67) / 32 / 4096)).st == .victim
  else if 2 ^ 66 ≤ w then d.rbQueue.contains ((w - 2 ^ 66) / 4096)
  else if 2 ^ 65 ≤ w then true
  else if 2 ^ 64 ≤ w then d.flag Reg.VSL_EXP_STS 0 && d.exp.seqNo + 2 ^ 64 == w else d.queues.any (fun kv => kv.2.live.any (fun c => c.fetched == w))

end Sys2Proof.Machine
end

