-- ==== Sys2Proof/Machine/Data.lean ====
section
/-! DEFINITION. The data commands (chapters 01, 04, 06, 07 and 11): READ, VERIFY, SEAL_READ, WRITE, WRITE_ZEROES,
DISCARD and FLUSH, from the outstanding command to its completion. -/

namespace Sys2Proof.Machine

/-! ### Reading blocks -/

/-- A block's content comes from flash: no visible cached version, mapped, its map page readable (R16, R196). -/
def Dev.fromFlash (d : Dev) (s lba : Nat) : Bool :=
  (d.cachedBlk s lba).isNone && (d.stored s (lba / 8)).isSome && !d.pageLost s (lba / 8)

/-! #### The reads of an owner -/

/-- The reads that an owner has out on a chunk, but for soft re-reads. -/
def Dev.ownerOps (d : Dev) (w band stripe pos : Nat) : List POp :=
  (d.port (d.setAtPos band pos).port).ops.filter (fun o => o.owner == some w && o.re.isNone && o.band == band && o.stripe == stripe && o.pos == pos)

/-- A codeword of a read has ended its decodes. -/
def POp.settled (o : POp) (c : Nat) : Bool := o.got.any (fun g => g.cw == c && g.step == 0)

/-- All codewords of a read have ended their decodes. -/
def POp.over (o : POp) : Bool := o.cols.all o.settled

/-- A codeword that an owner reads has ended its decodes. -/
def Dev.cwSettled (d : Dev) (w band stripe pos col : Nat) : Bool := (d.ownerOps w band stripe pos).any (fun o => o.settled col)

/-- A codeword that an owner reads has failed and still climbs the ladder. -/
def Dev.cwClimbs (d : Dev) (w band stripe pos col : Nat) : Bool :=
  (d.ownerOps w band stripe pos).any (fun o => o.got.any (fun g => g.cw == col && g.step != 0))

/-- A codeword of a TRUMP read has failed L1: its rebuild runs beside L2, L3 and DP (R305). -/
def Dev.cwLate (d : Dev) (w band stripe pos col : Nat) : Bool :=
  (d.ownerOps w band stripe pos).any (fun o => o.cls == 0 && o.res.isSome && o.got.any (fun g => g.cw == col && decide (2 ≤ g.step)))

/-- The sixteen sources of an owner's reconstruction (R332, R333): survivors in role order, one that has failed L0 only where no other is left. -/
def Dev.sources (d : Dev) (w band stripe pos col : Nat) : List Nat :=
  let all := d.known band stripe pos col
  (all.filter (fun j => !d.cwClimbs w band stripe j col) ++ all.filter (fun j => d.cwClimbs w band stripe j col)).take 16

/-- The codewords, as position and column, that an owner needs for one: itself, or the sources of its reconstruction, or both (R305). -/
def Dev.needs (d : Dev) (w band stripe pos col : Nat) : List (Nat × Nat) :=
  let src := (d.sources w band stripe pos col).map (fun j => (j, col))
  if d.cwErased band stripe pos col then (if d.rebuildable band stripe pos col then src else [])
  else (pos, col) :: (if d.cwLate w band stripe pos col then src else [])

/-- A reconstruction has all its sources. -/
def Dev.sourced (d : Dev) (w band stripe pos col : Nat) : Bool :=
  let src := d.sources w band stripe pos col
  src.length == 16 && src.all (fun j => d.cwSettled w band stripe j col)

/-- An owner has what a codeword is served from. -/
def Dev.cwReady (d : Dev) (w band stripe pos col : Nat) : Bool :=
  if d.cwErased band stripe pos col then !d.rebuildable band stripe pos col || d.sourced w band stripe pos col
  else d.cwSettled w band stripe pos col || (d.cwLate w band stripe pos col && d.sourced w band stripe pos col)

/-- Queue an owner's reads of some codewords of a stripe that it has not out yet, one DIE_READ per chunk, of class TRUMP one per
codeword, to be placed in a trick by the Dealer (Table ARC-3 steps 5, 6, 8 and 9); a read at `at_` resolved to the granule and GVER `res`. -/
def Dev.dealReads (d : Dev) (w cls s band stripe at_ : Nat) (slc : Bool) (res : Nat × Nat) (src : OpSrc) (want : List (Nat × Nat)) : Dev :=
  ((want.map Prod.fst).foldl insertSorted []).foldl (fun (d : Dev) j =>
    let have_ := (d.ownerOps w band stripe j).flatMap POp.cols
    let cols := (((want.filter (fun x => x.1 == j)).map Prod.snd).filter (fun c => !have_.contains c)).foldl insertSorted []
    let st := d.setAtPos band j
    (if cls = 0 then cols.map (fun c => [c]) else if cols.isEmpty then [] else [cols]).foldl (fun (d : Dev) cs =>
      d.addOp st.port { mkOp 0x01 src cls s band stripe j st.die st.block stripe slc with
        owner := some w, cols := cs, res := if j = at_ then some res else none }) d) d

/-- Serve a codeword from what its owner has read (R334, R335). -/
def Dev.serveCw (d : Dev) (w band stripe pos col : Nat) : CwOut × Dev :=
  if d.cwErased band stripe pos col then
    if d.cwPoisoned band stripe pos col then (.ok, d) else d.reconstruct band stripe col
  else if d.cwSettled w band stripe pos col then (.ok, d)
  else (.rebuilt, d.inc Reg.SHF_DEG_READS 1)

/-! #### Blocks -/

/-- The channel groups a block's flash read uses. -/
def Dev.blockGroups (d : Dev) (s lba : Nat) : List Nat :=
  match (d.ent s (lba / 8)).loc with
  | none => []
  | some l => (if d.cwErased l.band l.stripe l.pos (8 * l.half + lba % 8) then d.survivors l.band l.stripe l.pos (8 * l.half + lba % 8) else [l.pos]).map (fun j => (d.setAtPos l.band j).port / 8)

/-- Every group that the flash reads of some blocks use is ON (R434: a group that is not is woken first). -/
def Dev.groupsOn (d : Dev) (s : Nat) (lbas : List Nat) : Bool :=
  lbas.all (fun lba => !d.fromFlash s lba || (d.blockGroups s lba).all (fun g => d.domSt g == 0))

/-- A granule's entry can be looked up: its map page is resident, or does not exist, as the directory says (R195). -/
def Dev.entHere (d : Dev) (s g : Nat) : Bool := let pk := pageKey s g; d.resident.contains pk || !d.mapExists pk

/-- Look up the entries of some granules at a class (R197): each hit sets its page's reference bit, each miss asks for the page's load; the
answer says whether all were found.  `first` is false where a command that has waited looks again. -/
def Dev.lookup (d : Dev) (s cls : Nat) (first : Bool) (gs : List Nat) : Bool × Dev :=
  (gs.all (d.entHere s), gs.foldl (fun (d : Dev) g =>
    let pk := pageKey s g
    let d := if first then (d.capRec 0x20 s [(8, g), (8, entWord (d.ent s g)), (1, (d.entHere s g).toNat)]).inc (if d.entHere s g then Reg.MAP_CACHE_HIT else Reg.MAP_CACHE_MISS) 1 else d
    if d.resident.contains pk then { d with refBits := insertSorted d.refBits pk }
    else if d.entHere s g then d else d.wantPage pk cls) d)

/-- The lookups of a command: without an answer to all of them it waits. -/
def Dev.lookups (d : Dev) (qid : Nat) (c : Cmd) (go : Dev → Dev) : Dev :=
  let t := d.lookup (qid / 16) c.cls (!c.looked) (granulesOf c.lba c.nblk)
  if t.1 then go t.2 else t.2.setCmd qid { c with looked := true }

/-- The blocks that `want` names of some granules, by the place that each granule's entry names. -/
def Dev.flashWant (d : Dev) (s : Nat) (want : Nat → List Nat) (gs : List Nat) : List (Nat × Loc × List Nat) :=
  gs.filterMap (fun g => match want g, (d.ent s g).loc with
    | k :: ks, some l => some (g, l, k :: ks)
    | _, _ => none)

/-- What the owner `w` reads from flash: the reads and re-reads that it needs now are queued in its class; the answer says whether it has what
every block is served from. -/
def Dev.flashReads (d : Dev) (w cls s : Nat) (want : Nat → List Nat) (gs : List Nat) : Bool × Dev :=
  let items := d.flashWant s want gs
  (items.all (fun x => x.2.2.all (fun k => d.cwReady w x.2.1.band x.2.1.stripe x.2.1.pos (8 * x.2.1.half + k))),
   items.foldl (fun (d : Dev) x =>
     let l := x.2.1
     let cols := x.2.2.map (fun k => 8 * l.half + k)
     let todo := cols.filter (fun c => !d.cwReady w l.band l.stripe l.pos c)
     d.dealReads w cls s l.band l.stripe l.pos l.slc (granKey s x.1, (d.ent s x.1).gver) .host (todo.flatMap (d.needs w l.band l.stripe l.pos))) d)

/-- Take the blocks that an owner has read: the outcome of each block by LBA; its reads are over. -/
def Dev.takeFlash (d : Dev) (w s : Nat) (want : Nat → List Nat) (gs : List Nat) : List (Nat × CwOut) × Dev :=
  let r := (d.flashWant s want gs).foldl (fun (acc : List (Nat × CwOut) × Dev) x =>
    x.2.2.foldl (fun (acc : List (Nat × CwOut) × Dev) k =>
      let o := acc.2.serveCw w x.2.1.band x.2.1.stripe x.2.1.pos (8 * x.2.1.half + k)
      (acc.1 ++ [(8 * x.1 + k, o.1)], o.2)) acc) ([], d)
  (r.1, r.2.dropOwned w)

/-- The blocks of a granule that lie in a range and come from flash. -/
def Dev.wantFlash (d : Dev) (s lba nblk g : Nat) : List Nat :=
  (List.range 8).filter (fun k => decide (lba ≤ 8 * g + k) && decide (8 * g + k < lba + nblk) && d.fromFlash s (8 * g + k))

/-- The newest visible content of a block, poison where its map page is lost (R196). -/
def Dev.servedBlk (d : Dev) (s lba : Nat) : Blk :=
  match d.cachedBlk s lba with
  | some b => b
  | none => if (d.stored s (lba / 8)).isSome && d.pageLost s (lba / 8) then poisonBlk else d.flashBlk s lba

/-- The key context that a block's cipher record names is VALID under the recorded KEYGEN, or the block is filled
(R171, R177). -/
def Dev.keyOk (d : Dev) (s : Nat) (b : Blk) : Bool :=
  b.filled || ((d.ctx (4 * s + b.crec.keyidx)).st == .valid && (d.ctx (4 * s + b.crec.keyidx)).keygen == b.crec.keygen)

/-- The guard or the reference tag of a block does not fit its plaintext and place. -/
def Dev.sealOff (d : Dev) (s lba : Nat) (b : Blk) : Bool := b.sl.guard != guardOf (d.plainOf s lba b) || b.sl.reftag != refTag s lba

/-- The host-out seal check (R110). -/
def Dev.sealBad (d : Dev) (c : Cmd) (s lba : Nat) (b : Blk) : Bool :=
  d.sealOff s lba b || (!c.sco && b.sl.apptag != 0xFFFF && b.sl.apptag != c.apptag)

/-- CRY decrypts a block: it is neither poisoned (R171) nor filled, and its context is there (R177). -/
def Dev.decrypts (d : Dev) (s : Nat) (b : Blk) : Bool := !b.poison && !b.filled && d.keyOk s b

/-- Decrypt one block for a reader: counted; a GCM tag that still fails after all retries is a failed verification too, and is recorded (R184). -/
def Dev.decrypt (d : Dev) (s lba : Nat) : Dev :=
  let b := d.servedBlk s lba
  if !d.decrypts s b then d
  else
    let d := d.inc Reg.CRY_UNITS_DEC 1
    if d.tagBad s lba b then
      ((d.inc Reg.CRY_GCM_FAIL 1).recordErr 0x400 0x0106 (4 * s + b.crec.keyidx) (lba % 2 ^ 32)).raise 0x400 4
    else d

/-- Why a block of a READ or VERIFY fails: the status and INFO, for offset `i` (R116, R120, R177). -/
def Dev.blockFail (d : Dev) (c : Cmd) (s i : Nat) (outs : List (Nat × CwOut)) : Option (Nat × Nat) :=
  let lba := c.lba + i
  let b := d.servedBlk s lba
  if outs.any (fun o => o.1 == lba && o.2 == .lost) then some (stUnrecoverable, i)
  else if b.poison || c.bad.contains i then some (stPoisoned, i)
  else if !d.keyOk s b then some (stKeyInvalid, b.crec.keyidx)
  else if d.tagBad s lba b || d.sealBad c s lba b then some (stSealMismatch, i)
  else none

/-- The command moves host pages of its blocks (Table HIF-3). -/
def Cmd.movesPages (c : Cmd) : Bool := c.op == opRead || c.op == opWrite || c.op == opSealRead

/-- A command has a head to move on: one for its slice, or that of each of its units in flight (R97); one that moves no pages needs none. -/
def Dev.headOk (d : Dev) (qid : Nat) (c : Cmd) : Bool :=
  !c.movesPages || (d.sliceHead (qid / 16)).isSome || (decide (c.nblk ≤ c.units) && c.heads.all d.headUp)

/-- A command of a read or write row may run: it has a head, no block on its path is held, its units are admitted
or admissible (R143), its turn to start come (R147). -/
def Dev.mayRun (d : Dev) (qid : Nat) (c : Cmd) : Bool :=
  d.headOk qid c && !d.dataHeld && !d.resetRun && decide (d.mode ≤ 1) &&
  (c.started || (d.queue qid).inOrder c) && d.shareFor (qid / 16) c

/-- The head that a unit of a command moves on (R97): the one its dispatch took, while that head is up, or the slice's now. -/
def Dev.unitHead (d : Dev) (qid : Nat) (c : Cmd) (i : Nat) : Nat :=
  match c.heads[i]? with
  | some h => if d.headUp h then h else (d.sliceHead (qid / 16)).getD 0
  | none => (d.sliceHead (qid / 16)).getD 0

/-- Read host pages under the slice's PASID (R65, R99): page `n` of `addrs` is for unit `f n`, and moves on its head (R97). -/
def Dev.hostReads (d : Dev) (qid : Nat) (c : Cmd) (f : Nat → Nat) (addrs : List Nat) : Dev :=
  ((List.range addrs.length).zip addrs).foldl (fun (d : Dev) na => d.emit (.hostRead (d.slice (qid / 16)).pasid (d.unitHead qid c (f na.1)) na.2)) d

/-- Read the list pages of a command: each names 511 pages and the next one. -/
def Dev.listReads (d : Dev) (qid : Nat) (c : Cmd) (lists : List (List Nat)) : Dev := d.hostReads qid c (fun n => 511 * n) (c.listPagesAt lists)

/-- The flash reads of a command (Table ARC-3 steps 5 to 9): those of its dispatched units are queued; when they are there the units finish, and the
next ones are dispatched (R143).  `want` names blocks that belong to no unit where `all` holds. -/
def Dev.fetchFlash (d : Dev) (qid : Nat) (c : Cmd) (all : Bool) (want : Nat → List Nat) (go : Dev → Dev) : Dev :=
  let s := qid / 16
  let gs := granulesOf c.lba c.nblk
  let mine (c : Cmd) (g : Nat) : List Nat := (want g).filter (fun k => all || decide (8 * g + k < c.lba + c.units))
  if (d.flashReads c.fetched c.cls s want gs).1 then go d
  else
    let r := d.flashReads c.fetched c.cls s (mine c) gs
    if !r.1 then r.2
    else
      let t := d.retireUnits qid c
      let u := t.2.admitUnits qid t.1 t.1.nblk
      (u.2.flashReads u.1.fetched u.1.cls s (mine u.1) gs).2

/-- The capture record of a decoded block that a READ returns, at DATA 2 (R480). -/
def Dev.rdataRec (d : Dev) (s lba : Nat) : Dev :=
  match (d.ent s (lba / 8)).loc with
  | some l => if d.fld Reg.SCP_CAP_CTL 3 2 = 2 && d.fromFlash s lba then
      d.capRec 0x24 (d.setAtPos l.band l.pos).port [(4096, d.plainOf s lba (d.servedBlk s lba))] else d
  | none => d

/-- Run a read-type command: its units are dispatched, lookups, flash reads, then, after what `pre` takes from the host, `fin` with the outcomes. -/
def Dev.runRead (d : Dev) (qid : Nat) (c : Cmd) (pre : Dev → Dev) (fin : Cmd → List (Nat × CwOut) → Dev → Dev) : Dev :=
  let s := qid / 16
  let u := d.admitUnits qid c c.nblk
  let c := u.1
  u.2.lookups qid c fun d =>
  let c := { c with looked := true }
  d.fetchFlash qid c false (d.wantFlash s c.lba c.nblk) fun d =>
  let p := (pre d).passUnits qid c
  let o := p.2.takeFlash c.fetched s (p.2.wantFlash s c.lba c.nblk) (granulesOf c.lba c.nblk)
  fin p.1 o.1 o.2

/-- READ and VERIFY end: `out` for each block that did not fail; the status of the first block that failed. -/
def Dev.endRead (d : Dev) (qid : Nat) (c : Cmd) (outs : List (Nat × CwOut)) (out : Nat → Blk → Dev → Dev) : Dev :=
  let s := qid / 16
  let fails := (List.range c.nblk).map (fun i => (i, d.blockFail c s i outs))
  let d := ((List.range c.nblk).filter (fun i => !c.bad.contains i && !outs.any (fun x => x.1 == c.lba + i && x.2 == .lost))).foldl
    (fun d i => d.decrypt s (c.lba + i)) d
  let d := fails.foldl (fun d f => match f.2 with
    | some _ => d
    | none => out f.1 (d.servedBlk s (c.lba + f.1)) (if c.op = opRead then d.rdataRec s (c.lba + f.1) else d)) d
  match (fails.filterMap Prod.snd).head? with
  | some (st, info) =>
    let d := if st = stUnrecoverable then d.inc Reg.SHF_UNRECOV 1 else d
    d.complete qid c.tag st info
  | none => d.succeed qid c c.wakeUs (outs.any (fun x => x.2 == .rebuilt)) false

/-- The block write is one that no cache slot takes: its data stays in stockpot until PROGRAMMED (R14, R365). -/
def Dev.direct (d : Dev) (c : Cmd) : Bool := d.slots == 0 && (c.op == opWrite || c.op == opWriteZeroes)

/-- The class and the pages of credit that a command's stage takes (Table STK-1): one page per block of its own class; a write without a cache
takes DESTAGE credit for the whole granules it places (R14, R365). -/
def Dev.creditFor (d : Dev) (c : Cmd) : Nat × Nat := if d.direct c then (6, 8 * c.placedGranules.length) else (c.cls, c.nblk)

/-- The command keeps its credit: its flash reads are out, stockpot holds its data, or it is a write that waits for PROGRAMMED under DESTAGE credit. -/
def Dev.keepsCredit (d : Dev) (qid : Nat) (c : Cmd) : Bool :=
  d.readsOut c.fetched || ((d.queue qid).cmd? c.tag).any (fun x => !x.done && (x.host.isSome || (d.direct c && x.placed)))

/-- A command's stage runs under its stockpot credit (R355, R357): taken in one step and given back at its end, or when it no longer keeps
it; without it the command waits. -/
def Dev.withCredit (d : Dev) (qid : Nat) (c : Cmd) (run : Dev → Dev) : Dev :=
  let u := qid * 32 + c.tag
  let t := d.takeCredit (d.creditFor c).1 (d.creditFor c).2 u
  if t.1 then (let d := run t.2; if d.keepsCredit qid c then d else d.freeCredit (fun x => x == u)) else t.2

/-- READ (Table ARC-3, R15, R16, R108, R120, R177): `lists` are the list pages as host memory holds them. -/
def doRead (qid tag : Nat) (lists : List (List Nat)) (d : Dev) : Dev :=
  let qid := qid % 16384
  let s := qid / 16
  match d.ready qid (tag % 32) opRead with
  | none => d
  | some c =>
    if !d.mayRun qid c || !d.groupsOn s (lbasOf c.lba c.nblk) then d
    else if c.listBad lists then (d.listReads qid c lists).complete qid c.tag stInvalidField 16
    else
      d.withCredit qid c (fun d => d.runRead qid c (fun d => d.listReads qid c lists) (fun c o d => d.endRead qid c o (fun i b d =>
        d.emit (.hostData (d.slice s).pasid (d.unitHead qid c i) ((c.pages lists).getD i 0) (d.plainOf s (c.lba + i) b)))))
def execRead (qid tag : Nat) (lists : List (List Nat)) (s : State) : Host.Outcome State Fault Refusal :=
  act s (doRead qid tag lists)

/-- VERIFY (R120): the checks of READ without the transfer. -/
def doVerify (qid tag : Nat) (d : Dev) : Dev :=
  let qid := qid % 16384
  let s := qid / 16
  match d.ready qid (tag % 32) opVerify with
  | none => d
  | some c =>
    if !d.mayRun qid c || !d.groupsOn s (lbasOf c.lba c.nblk) then d
    else d.withCredit qid c (fun d => d.runRead qid c id (fun c o d => d.endRead qid c o (fun _ _ d => d)))
def execVerify (qid tag : Nat) (s : State) : Host.Outcome State Fault Refusal := act s (doVerify qid tag)

/-- The seals of blocks packed in order, 16 bytes each. -/
def packSeals : List Nat → Nat
  | [] => 0
  | x :: xs => x + 2 ^ 128 * packSeals xs

/-- SEAL_READ (R109): the seals, packed, zero where none can be recovered; it writes no block data. -/
def doSealRead (qid tag : Nat) (lists : List (List Nat)) (d : Dev) : Dev :=
  let qid := qid % 16384
  let s := qid / 16
  match d.ready qid (tag % 32) opSealRead with
  | none => d
  | some c =>
    if !d.mayRun qid c || !d.groupsOn s (lbasOf c.lba c.nblk) then d
    else if c.listBad lists then (d.listReads qid c lists).complete qid c.tag stInvalidField 16
    else
      d.withCredit qid c (fun d => d.runRead qid c (fun d => d.listReads qid c lists) (fun c o d =>
        let seals := (List.range c.nblk).map (fun i =>
          let lba := c.lba + i
          if o.any (fun x => x.1 == lba && x.2 == .lost) then 0 else (d.servedBlk s lba).sl.word)
        let d := (List.range (ceilDiv c.nblk 256)).foldl (fun d j =>
          d.emit (.hostData (d.slice s).pasid (d.unitHead qid c (256 * j)) ((c.pages lists).getD j 0)
            (packSeals ((seals.drop (256 * j)).take 256)))) d
        d.succeed qid c c.wakeUs (o.any (fun x => x.2 == .rebuilt)) false))
def execSealRead (qid tag : Nat) (lists : List (List Nat)) (s : State) : Host.Outcome State Fault Refusal :=
  act s (doSealRead qid tag lists)

/-! ### Writing blocks -/

/-- A range touches the backing range of a segment that has EN = 1 (R81). -/
def Dev.inSegment (d : Dev) (s lba nblk : Nat) : Bool :=
  (List.range 32).any (fun n =>
    d.flag (Reg.SEG_CTL n) 0 && d.fld (Reg.SEG_CTL n) 13 4 == s &&
    (let b := d.get64 (Reg.SEG_LBA_LO n) (Reg.SEG_LBA_HI n)
     decide (lba < b + 65536) && decide (b < lba + nblk)))

/-- NEW of R211: the granules of a write whose entry is UNMAPPED and which have no cached version; a DISCARD's is 0 (R212). -/
def Dev.newGranules (d : Dev) (s : Nat) (c : Cmd) : Nat :=
  if c.op = opDiscard then 0
  else (c.placedGranules.filter (fun g =>
    (d.ent s g).loc.isNone && !d.cache.any (fun v => v.slice == s && v.granule == g))).length

/-- The checks at CRY dispatch (Table CRY-7). -/
def Dev.cryCheck (d : Dev) (s : Nat) (c : Cmd) : Option (Nat × Nat) :=
  let x := d.ctx (4 * s + c.keyidx)
  if x.st != .valid || x.keygen != c.keygen then some (stKeyInvalid, c.keyidx)
  else if x.mode = 2 ∧ 256 < c.nblk then some (stLengthLimit, 0)
  else if x.mode = 2 ∧ 2 ^ 32 < x.invocOf d.side + c.nblk then some (stKeyExhausted, c.keyidx)
  else none

/-- The block that a WRITE or WRITE_ZEROES stores at offset `i`: its data encrypted, with its seal. -/
def Dev.newBlk (d : Dev) (s : Nat) (c : Cmd) (i data invoc : Nat) : Blk :=
  let e := d.encBlk s (c.lba + i) c.keyidx c.apptag data (invoc + i)
  { data := e.1, sl := mkSeal s (c.lba + i) c.apptag 0 data, crec := e.2, poison := false }

/-- Versions of a granule not yet committed (R194). -/
def Dev.uncommitted (d : Dev) (s g : Nat) : Nat := (d.cache.filter (fun v => v.slice == s && v.granule == g)).length

/-- The journal records that travel with a version (Table ARC-4 step 6): the MARKs that cover the invocation values of its GCM blocks
(R182; DEDUCED, log 249). -/
def Dev.verBatch (d : Dev) (v : Ver) : JBatch :=
  let cs := ((v.blks.filter (fun b => v.wrote.contains b.1 && b.2.crec.gcm)).map (fun b => 4 * v.slice + b.2.crec.keyidx)).eraseDups
  { JBatch.none with marks := cs.map (fun c => (c, d.side, (d.ctx c).markOf d.side)) }

/-- Put a new version into the cache, and mirror it (R395): while PAIRED it is RECEIVED until the twin's ACK covers its message. -/
def Dev.putVer (d : Dev) (v : Ver) : Dev :=
  let v := { v with stage := if d.paired then .received else .single, mnum := if d.paired then d.gTx else 0 }
  let d : Dev := { d with cache := d.cache ++ [v] }
  if d.mirrors then d.sendGulon 0x10 (mirrorFs [v.mver] (d.verBatch v)) else d

/-- An untouched block as a merge takes it; `outs` says what flash could not give. -/
def Dev.mergeBase (d : Dev) (s g k : Nat) (outs : List (Nat × CwOut)) : Blk × Option Nat :=
  let r := d.mergeFrom s g k (fun _ => true)
  if outs.any (fun o => o.1 == 8 * g + k && o.2 == .lost) then (poisonBlk, r.2) else r

/-- Place one version per granule (Table ARC-4 steps 4 to 6): each holds the granule's eight blocks, those the command wrote and the
untouched ones merged in, and takes the granule's next GVER.  A DISCARD writes filled blocks (R213). -/
def Dev.placeVers (d : Dev) (qid : Nat) (c : Cmd) (outs : List (Nat × CwOut)) : Dev :=
  let s := qid / 16
  (c.placedGranules.foldl (fun d g =>
    let mine := (List.range 8).filter (fun k => decide (c.lba ≤ 8 * g + k) && decide (8 * g + k < c.lba + c.nblk))
    let bs := (List.range 8).map (fun k =>
      if mine.contains k then (k, ((c.host.getD [])[8 * g + k - c.lba]?).getD (filledBlk s (8 * g + k)), (none : Option Nat))
      else (k, d.mergeBase s g k outs))
    d.putVer { slice := s, granule := g, gver := d.nextGver s g, cls := c.cls, qid := qid, tag := c.tag, pwin := false,
               posted := false, postNo := 0, stage := .single, mnum := 0, blks := bs.map (fun x => (x.1, x.2.1)), wrote := mine,
               src := bs.filterMap (fun x => x.2.2.map (fun gv => (x.1, gv))), loc := none, span := (c.lba, c.nblk) }) d).revalid

/-- The changes that a DISCARD makes of the granules it covers whole (R213): placed with the granule's next GVER, they stand when it posts;
their records go to the twin at once (R25). -/
def Dev.placeUnmaps (d : Dev) (qid : Nat) (c : Cmd) : Dev :=
  let s := qid / 16
  let gs := ((granulesOf c.lba c.nblk).filter (fun g => c.op == opDiscard && !c.placedGranules.contains g &&
    ((d.ent s g).loc.isSome || !(d.versOf s g).isEmpty)))
  let xs : List MapChg := gs.map (fun g => { slice := s, granule := g, gver := d.nextGver s g, loc := none, src := none,
                                             owner := some (qid * 32 + c.tag), mnum := none })
  if xs.isEmpty then d
  else { d.journal { JBatch.none with deltas := xs.map (fun x =>
    { slice := s, granule := x.granule, entry := entWord { gver := x.gver, loc := none } }) } with mapPend := d.mapPend ++ xs }

/-- The command waits for PROGRAMMED before it posts: FUA (R112), or no block cache (R365). -/
def Dev.waitsProgram (d : Dev) (c : Cmd) : Bool := (c.fua || d.slots == 0) && c.op != opDiscard

/-- The versions a command has placed and not posted. -/
def Dev.versOfCmd (d : Dev) (qid tag : Nat) : List Ver :=
  d.cache.filter (fun v => v.qid == qid && v.tag == tag && !v.posted && !v.pwin)

/-- The delta log has room for the records of a placed DISCARD (R201). -/
def Dev.discardRoom (d : Dev) (qid : Nat) (c : Cmd) : Bool :=
  d.dlogRoom (d.mapPend.filter (fun x => x.owner == some (qid * 32 + c.tag))).length

/-- A placed command may post (R22, R23, R112): it has one copy only or its messages are covered by an ACK, and where it waits
for PROGRAMMED, every version is; a DISCARD also needs room in the delta log. -/
def Dev.mayPost (d : Dev) (qid : Nat) (c : Cmd) : Bool :=
  c.placed && !c.done && !(c.op == opDiscard && !d.discardRoom qid c) && (c.single || !d.gPend.any (fun m => m.mnum == c.mnum)) &&
  (!d.waitsProgram c || (d.versOfCmd qid c.tag).all (fun v => v.stage == .programmed))

/-- Post a placed command if it may post. -/
def Dev.tryPost (d : Dev) (qid tag : Nat) : Dev :=
  match (d.queue qid).cmd? tag with
  | some c =>
    if d.mayPost qid c then (d.succeed qid c c.wakeUs false c.single).freeCredit (fun u => u == qid * 32 + tag)
    else if c.op = opDiscard ∧ c.placed ∧ !d.discardRoom qid c then d.dlogStall
    else d
  | none => d

/-- Post every placed command that may post. -/
def Dev.postPlaced (d : Dev) : Dev :=
  (d.queues.flatMap (fun kv => (kv.2.cmds.filter (fun c => c.placed && !c.done)).map (fun c => (kv.1, c.tag)))).foldl
    (fun d qt => d.tryPost qt.1 qt.2) d

/-- The granules of a write whose merge reads untouched blocks from flash. -/
def Dev.mergeWant (d : Dev) (s : Nat) (c : Cmd) (g : Nat) : List Nat :=
  if c.placedGranules.contains g then
    (List.range 8).filter (fun k => !(decide (c.lba ≤ 8 * g + k) && decide (8 * g + k < c.lba + c.nblk)) &&
      (d.versOf s g).isEmpty && (d.discarding s g (fun _ => true)).isNone && d.fromFlash s (8 * g + k))
  else []

/-- The granules that a write merges: those it covers in part. -/
def Cmd.mergedGranules (c : Cmd) : List Nat :=
  c.placedGranules.filter (fun (g : Nat) => !(decide (c.lba ≤ 8 * g) && decide (8 * g + 8 ≤ c.lba + c.nblk)))

/-- Another merge holds the lock of a granule that this one merges (R215). -/
def Dev.mergeLocked (d : Dev) (s : Nat) (c : Cmd) : Bool :=
  (queuesOf s).any (fun q => (d.queue q).cmds.any (fun p => p.merging && !p.placed && !p.done && p.fetched != c.fetched &&
    p.mergedGranules.any (fun g => c.mergedGranules.contains g)))

/-- The space tests of a write (R211, R212, R194): `none` where it passes, else what becomes of it. -/
def Dev.spaceTest (d : Dev) (qid : Nat) (c : Cmd) : Option Dev :=
  let s := qid / 16
  let new := d.newGranules s c
  if c.passed then none
  else if 0 < new ∧ d.limit < d.valid + new then
    some (((d.inc Reg.MAP_NOSPACE 1).raise 0x500 1).complete qid c.tag stNoSpace 0)
  else if 0 < new ∧ d.fQ ≤ d.wHard then
    some (if c.waitTick = 0 then d.setCmd qid { c with waitTick := d.tick } else d)
  else if c.placedGranules.any (fun g => decide (64 ≤ d.uncommitted s g)) then
    some (if c.waitTick = 0 then (d.setCmd qid { c with waitTick := d.tick }).inc Reg.STK_PWC_VERS 1 else d)
  else none

/-- The host's data of a write goes through CRY and SHF (Table ARC-4 steps 3 and 4): each block encrypted, a GCM one under the next invocation value,
and sealed. -/
def Dev.sealHost (d : Dev) (qid : Nat) (c : Cmd) (data : List Nat) : Cmd × Dev :=
  let s := qid / 16
  let k := 4 * s + c.keyidx
  let invoc := (d.ctx k).invocOf d.side
  let blks := if c.op = opDiscard then [] else (List.range c.nblk).map (fun i => d.newBlk s c i (data.getD i 0) invoc)
  let d := if c.op != opDiscard && (d.ctx k).mode == 2 then d.reserveInvoc k c.nblk else d
  let d := if c.op = opDiscard then d else d.inc Reg.CRY_UNITS_ENC c.nblk
  let c' : Cmd := { c with host := some blks }
  (c', d.setCmd qid c')

/-- The cache boundary (Table SHF-2): the first block of a write's data whose REFTAG, VERSION or FLAGS do not fit the command. -/
def cacheFault (s : Nat) (c : Cmd) : Option Nat :=
  let bs := c.host.getD []
  (List.range bs.length).find? (fun i => (bs[i]?).any (fun b => b.sl.reftag != refTag s (c.lba + i) || b.sl.version != 1 || b.sl.flags != 0))

/-- The merge of a write whose data is there, its placement, mirroring and posting (Table ARC-4 steps 4 to 7, R215). -/
def Dev.mergePlace (d : Dev) (qid : Nat) (c : Cmd) : Dev :=
  let s := qid / 16
  match cacheFault s c with
  | some i => (((d.inc Reg.SHF_SEAL_ERR 1).recordErr 0xB00 0x0101 s (c.lba + i)).raise 0xB00 3).complete qid c.tag stSealMismatch i
  | none =>
  if d.mergeLocked s c then d
  else
    let c := { c with merging := !c.mergedGranules.isEmpty }
    (d.setCmd qid c).fetchFlash qid c true (d.mergeWant s c) fun d =>
    let p := d.passUnits qid c
    let c := p.1
    let t := p.2.takeFlash c.fetched s (p.2.mergeWant s c) (granulesOf c.lba c.nblk)
    let d := (t.2.placeUnmaps qid c).placeVers qid c t.1
    let d := d.setCmd qid { c with placed := true, host := none, mnum := d.gTx - 1, single := !d.paired }
    d.dumpSetWake.tryPost qid c.tag

/-- Run a write-type command (Table ARC-4 steps 2 to 7): the segment rule (R81), its units dispatched, lookups, space (R211, R212), the host's data,
which `pre` reads, the CRY checks (R185), and then the merge. -/
def Dev.runWrite (d : Dev) (qid : Nat) (c : Cmd) (data : List Nat) (pre : Dev → Dev) : Dev :=
  let s := qid / 16
  if c.host.isSome then d.mergePlace qid c
  else if d.inSegment s c.lba c.nblk then d.complete qid c.tag stInvalidField 0
  else
    let u := d.admitUnits qid c c.nblk
    let c := u.1
    u.2.lookups qid c fun d =>
    let c := { c with looked := true }
    match d.spaceTest qid c with
    | some d => d
    | none =>
      let c := { c with passed := true }
      let d := pre ((d.setCmd qid c).revalid)
      match (if c.op = opDiscard then none else d.cryCheck s c) with
      | some (st, info) => d.complete qid c.tag st info
      | none =>
        let h := d.sealHost qid c data
        h.2.mergePlace qid h.1

/-- A write-type command is admitted to the cache (R363): it does not wait, it holds its slots, and while a
dump-set domain is OFF the slots in use and the delta log stay within 8 GiB (R435). -/
def Dev.admitted (d : Dev) (c : Cmd) : Bool :=
  !c.waiting && !c.placed &&
  (d.dumpSetUp || decide (4096 * d.usedSlots + 16 * d.dlog ≤ 2 ^ 33)) && (d.slots == 0 || c.slots == 8 * c.placedGranules.length)

/-- The capture records of a write's blocks of host data (HDATA): a CRC-64 each at DATA 0. -/
def Dev.hdataRecs (d : Dev) (qid : Nat) (c : Cmd) (data : List Nat) : Dev :=
  if c.op == opWrite && d.flag Reg.SCP_CAP_STS 0 then
    (List.range c.nblk).foldl (fun (d : Dev) i => d.capData 0x14 qid 1 [(1, c.tag), (2, i)] 4096 (data.getD i 0)) d
  else d

/-- A write row of one opcode on an outstanding command. -/
def Dev.writeRow (d : Dev) (qid tag op : Nat) (lists : List (List Nat)) (data : List Nat) : Dev :=
  match d.ready qid tag op with
  | none => d
  | some c =>
    let s := qid / 16
    if !d.mayRun qid c || !d.admitted c ||
        !d.groupsOn s ((granulesOf c.lba c.nblk).flatMap (fun g => (d.mergeWant s c g).map (fun k => 8 * g + k))) then d
    else if op = opWrite ∧ c.host.isNone ∧ c.listBad lists then (d.listReads qid c lists).complete qid c.tag stInvalidField 16
    else if !c.bad.isEmpty then d.complete qid c.tag stPoisoned (c.bad.foldl min c.nblk)
    else d.withCredit qid c (fun d => d.runWrite qid c data (fun d =>
      (if op = opWrite then (d.listReads qid c lists).hostReads qid c id (c.pages lists) else d).hdataRecs qid c data))

/-- WRITE (R18, R22, R23, R108): `lists` are the list pages and `data` the content of each block's page as host memory holds them. -/
def doWrite (qid tag : Nat) (lists : List (List Nat)) (data : List Nat) (d : Dev) : Dev :=
  d.writeRow (qid % 16384) (tag % 32) opWrite lists (data.map (fun x => x % 2 ^ 32768))
def execWrite (qid tag : Nat) (lists : List (List Nat)) (data : List Nat) (s : State) : Host.Outcome State Fault Refusal :=
  act s (doWrite qid tag lists data)

/-- WRITE_ZEROES (R111): blocks of zeros, encrypted and sealed with APPTAG. -/
def doWriteZeroes (qid tag : Nat) (d : Dev) : Dev := d.writeRow (qid % 16384) (tag % 32) opWriteZeroes [] []
def execWriteZeroes (qid tag : Nat) (s : State) : Host.Outcome State Fault Refusal := act s (doWriteZeroes qid tag)

/-- DISCARD (R213): whole granules UNMAPPED at posting, covered blocks of the others filled. -/
def doDiscard (qid tag : Nat) (d : Dev) : Dev := d.writeRow (qid % 16384) (tag % 32) opDiscard [] []
def execDiscard (qid tag : Nat) (s : State) : Host.Outcome State Fault Refusal := act s (doDiscard qid tag)

/-- A version is one of a command that touches `n` blocks from `lba` (R128). -/
def Ver.touches (v : Ver) (lba n : Nat) : Bool :=
  overlaps v.span.1 v.span.2 lba n || v.wrote.any (fun k => decide (lba ≤ 8 * v.granule + k) && decide (8 * v.granule + k < lba + n))

/-- FLUSH (R128, R129): completes when no version of a command that posted before the FLUSH was fetched and touches its range is
still in the cache. -/
def doFlush (qid tag : Nat) (d : Dev) : Dev :=
  let qid := qid % 16384
  let s := qid / 16
  match d.ready qid (tag % 32) opFlush with
  | none => d
  | some c =>
    let waits := d.cache.any (fun v => v.slice == s && v.posted && !v.pwin && decide (v.postNo ≤ c.fetched) &&
      (c.nblk == 0 || v.touches c.lba c.nblk))
    if waits || d.cqeStop then d else d.succeed qid c 0 false false
def execFlush (qid tag : Nat) (s : State) : Host.Outcome State Fault Refusal := act s (doFlush qid tag)

end Sys2Proof.Machine
end

