-- ==== Sys2Proof/Machine/Nvm.lean ====
section
/-! DEFINITION. The embedded firmware flash (chapter 15): command sequences, programs and erases, suspension, reads and boot
control.  Port 0 is the host port, port 1 the firmware port. -/

namespace Sys2Proof.Machine

/-! ### Ports, sectors and status -/

def Dev.nPort (d : Dev) (p : Nat) : NPort := if p = 0 then d.nHost else d.nFirm
def Dev.setNPort (d : Dev) (p : Nat) (x : NPort) : Dev := if p = 0 then { d with nHost := x } else { d with nFirm := x }
def Dev.sector (d : Dev) (k : Nat) : NSector := SMap.get (fun _ => NSector.reset) d.nSec k
def Dev.setSector (d : Dev) (k : Nat) (x : NSector) : Dev := { d with nSec := SMap.set (fun _ => NSector.reset) d.nSec k x }

/-- The sector of an operation. -/
def NOp.sector (o : NOp) : Nat := if o.erase then o.at_ else o.at_ / 256

/-- NVM_BOOT_STS.ACTIVE. -/
def Dev.activeSlot (d : Dev) : Nat := d.fld Reg.NVM_BOOT_STS 0 0

/-- The slot of a sector: 0 A, 1 B, 2 neither (Table NVM-1). -/
def slotOf (k : Nat) : Nat := if 32 ≤ k ∧ k < 272 then 0 else if 272 ≤ k ∧ k < 512 then 1 else 2

/-- A port may program and erase a sector (Table NVM-1, R448). -/
def Dev.nMayWrite (d : Dev) (p k : Nat) : Bool :=
  if p = 0 then slotOf k < 2 && slotOf k != d.activeSlot else 16 ≤ k && k < 32

/-- The port has an operation running or suspended. -/
def Dev.nBusy (d : Dev) (p : Nat) : Bool := d.nRun.any (fun o => o.port == p) || d.nSus.any (fun o => o.port == p)

/-- The port's status byte (Table NVM-5). -/
def Dev.nStatus (d : Dev) (p : Nat) : Nat :=
  (!d.nBusy p).toNat + 2 * (d.nSus.any (fun o => o.port == p)).toNat + (d.nPort p).flags % 64 * 4

/-- Publish NVM_STS, NVM_HOST_STAT and the selected sector's NVM_SEC_STS. -/
def Dev.nvmSts (d : Dev) : Dev :=
  let run (f : NOp → Bool) : Nat := (d.nRun.any f).toNat
  let k := match d.nRun, d.nSus with
    | some o, _ => o.sector
    | none, some o => o.sector
    | none, none => 0
  let v := (d.nRun.isNone && d.nSus.isNone).toNat + 2 * run (fun o => !o.erase) + 4 * run (·.erase) + 8 * d.nSus.isSome.toNat +
    16 * (d.nRun.isSome && d.nSus.isSome).toNat + 32 * run (fun o => o.port == 1) + 64 * d.nHost.pulse.toNat + 2 ^ 16 * k
  let s := d.fld Reg.NVM_SEC_SEL 8 0
  let x := d.sector s
  let sec := min 256 x.next + 2 ^ 9 * x.dirty.toNat + 2 ^ 10 * (!d.nMayWrite 0 s).toNat + 2 ^ 11 * (decide (16 ≤ s) && decide (s < 32)).toNat +
    2 ^ 12 * (slotOf s == d.activeSlot).toNat + 2 ^ 16 * min 65535 x.erases
  ((d.setReg Reg.NVM_STS (w32 v)).setReg Reg.NVM_HOST_STAT (w32 (d.nStatus 0))).setReg Reg.NVM_SEC_STS (w32 sec)

/-- Set a bit of the port's status byte: 2 PROG_FAIL, 3 ERASE_FAIL, 4 DIRTY, 5 SEQ_ERR, 6 BUSY_REF, 7 PROTECT. -/
def Dev.nFlag (d : Dev) (p bit : Nat) (b : Bool) : Dev :=
  let x := d.nPort p
  let on := x.flags.testBit (bit - 2)
  let d := d.setNPort p { x with flags := if b && !on then x.flags + 2 ^ (bit - 2) else if !b && on then x.flags - 2 ^ (bit - 2) else x.flags }
  d.nvmSts

/-- An error of the NVM page. -/
def Dev.nErr (d : Dev) (code i0 i1 : Nat) : Dev := d.recordErr 0xEFF code i0 i1

/-- Abort the port's sequence (R447): SEQ_ERR, error 0x0100, array read. -/
def Dev.nAbort (d : Dev) (p off value : Nat) : Dev :=
  let d := d.setNPort p { d.nPort p with phase := 0, words := [], idMode := false, statOne := false }
  (d.nFlag p 5 true).nErr 0x0100 off value

/-! ### Programs and erases (R448, R450, R451) -/

/-- The array admits a program in a sector (Table NVM-6): idle, or an erase of another sector is suspended. -/
def Dev.nAdmits (d : Dev) (k : Nat) : Bool :=
  d.nRun.isNone && (match d.nSus with | none => true | some o => o.erase && o.sector != k)

/-- A program of a page starts: nothing refuses it. -/
def Dev.progOk (d : Dev) (p page : Nat) : Bool :=
  let k := page / 256
  d.nMayWrite p k && d.nAdmits k && !(d.sector k).dirty && decide ((d.sector k).next ≤ page % 256) && decide (page < 131072)

/-- PROGRAM_PAGE's 64th data write. -/
def Dev.nProgram (d : Dev) (p page : Nat) : Dev :=
  let k := page / 256
  let x := d.sector k
  if !d.nMayWrite p k then (d.nFlag p 7 true).nErr 0x0102 k p
  else if !d.nAdmits k then (d.nFlag p 6 true).nErr 0x0106 k p
  else if !d.progOk p page then
    let d := (d.nFlag p 4 true).nErr 0x0101 page x.next
    if p = 0 then d.raise 0xEFF 1 else d
  else
    let d := d.setSector k { x with next := page % 256 + 1 }
    { d with nRun := some { port := p, erase := false, at_ := page, auto := false, tick := d.tick } }.nvmSts

/-- SECTOR_ERASE's last write. -/
def Dev.nErase (d : Dev) (p k : Nat) : Dev :=
  if !d.nMayWrite p k then (d.nFlag p 7 true).nErr 0x0102 k p
  else if d.nRun.isSome || d.nSus.isSome then (d.nFlag p 6 true).nErr 0x0106 k p
  else { d with nRun := some { port := p, erase := true, at_ := k, auto := false, tick := d.tick } }.nvmSts

/-- An erase ends as an abandoned one: its sector is DIRTY_ERASE (R451). -/
def Dev.nAbandon (d : Dev) (o : NOp) : Dev :=
  if o.erase then d.setSector o.at_ { d.sector o.at_ with dirty := true } else d

/-- At recognition of PWR_FAIL_N (R454): erases end as abandoned ones, a running program goes on, sequences are discarded. -/
def Dev.nvmPowerFail (d : Dev) : Dev :=
  let d := (d.nRun.toList ++ d.nSus.toList).foldl (fun (d : Dev) o => d.nAbandon o) d
  { d with nRun := d.nRun.filter (fun o => !o.erase), nSus := d.nSus.filter (fun o => !o.erase),
           nHost := { d.nHost with phase := 0, words := [] }, nFirm := { d.nFirm with phase := 0, words := [] }, apWait := [] }.nvmSts

/-- A refused SUSPEND or RESUME (R452). -/
def Dev.nRefuse (d : Dev) (p : Nat) : Dev :=
  let k := match d.nRun, d.nSus with
    | some o, _ => o.sector
    | none, some o => o.sector
    | none, none => 0
  (d.nFlag p 5 true).nErr 0x0107 k p

/-- SUSPEND: the port's running erase, or program not nested under a suspended erase; the other port's is refused (DESIGN CHOICE, log 259). -/
def Dev.nSuspend (d : Dev) (p : Nat) : Dev :=
  match d.nRun, d.nSus with
  | some o, none => if o.port = p then { d with nRun := none, nSus := some { o with auto := false, tick := d.tick } }.nvmSts else d.nRefuse p
  | _, _ => d.nRefuse p

/-- RESUME: what this port suspended. -/
def Dev.nResume (d : Dev) (p : Nat) : Dev :=
  match d.nRun, d.nSus with
  | none, some o => if o.port = p ∧ !o.auto then { d with nSus := none, nRun := some { o with tick := d.tick } }.nvmSts else d.nRefuse p
  | _, _ => d.nRefuse p

/-- RESET (R449): the sequence and the status byte are cleared; an erase of the port's own is abandoned; a program of the port's own
that runs finishes first. -/
def Dev.nReset (d : Dev) (p : Nat) : Dev :=
  let mine (o : NOp) : Bool := o.port == p && o.erase
  if d.nRun.any (fun o => o.port == p && !o.erase) then d.setNPort p { d.nPort p with phase := 0, words := [], rst := true }
  else
  let d := ((d.nRun.toList ++ d.nSus.toList).filter mine).foldl (fun (d : Dev) o => d.nAbandon o) d
  let d : Dev := { d with nRun := d.nRun.filter (fun o => !mine o), nSus := d.nSus.filter (fun o => !mine o) }
  (d.setNPort p { d.nPort p with phase := 0, words := [], idMode := false, statOne := false, flags := 0, rst := false }).nvmSts

/-- VERIFY_MODE (R455, R456). -/
def Dev.nVerify (d : Dev) (p mode : Nat) : Dev :=
  (d.setNPort p { d.nPort p with phase := 0, pulse := mode == 1 }).nvmSts

/-! ### Array reads (R446, R452, R455) -/

/-- A read of four bytes of the array at an NVM address, of whose page `x.2` bits are wrong: a suspended erase's sector and a suspended
program's page read as 0xFF; a page of more than 8 wrong bits reads as free bytes. -/
def Dev.arrayRead (d : Dev) (m : Memory) (x : Nat × Nat) : Dev :=
  let page := x.1 / 256
  match d.nSus.filter (fun o => (o.erase && o.sector == page / 256) || (!o.erase && o.at_ == page)) with
  | some o => (d.emit (.nvmData (List.replicate 4 0xFF))).setReg Reg.NVM_RD_STS (w32 (64 * o.erase.toNat + 2 ^ 8 * page))
  | none =>
    let unc := decide (8 < x.2)
    let thr := !unc && decide (d.fld Reg.NVM_BCH_CTL 3 0 ≤ x.2)
    let d := if unc then d.drawn.emit (.nvmData ((toBytes (d.freeVal % 2 ^ 32) 4).map (fun b => BitVec.ofNat 8 b)))
      else d.emit (.nvmData (Memory.readList arrayDflt m x.1 4))
    let d := d.setReg Reg.NVM_RD_STS (w32 ((if unc then 0 else x.2) + 16 * thr.toNat + 32 * unc.toNat + 2 ^ 8 * page))
    let d := if 0 < x.2 ∧ !unc then d.inc Reg.NVM_CORR_CNT 1 else d
    let d := if thr then (d.inc Reg.NVM_THR_CNT 1).raise 0xEFF 2 else d
    if unc then (d.inc Reg.NVM_UNC_CNT 1).nErr 0x0103 page 0 else d

/-- The reads that stalled are answered once the array neither programs nor erases (R8, R11). -/
def Dev.apServe (d : Dev) (m : Memory) : Dev :=
  if d.nRun.isSome || !d.barUp || d.nvmHeld then d else d.apWait.foldl (fun (d : Dev) x => d.arrayRead m x) { d with apWait := [] }

/-- A command of the embedded flash, with the bytes that it stores; stalled reads follow it. -/
def actFlash (s : State) (f : Dev → Dev) (g : Dev → List (Nat × List Byte)) : Host.Outcome State Fault Refusal :=
  actArray s (fun m d => (f d).apServe (storeArray m (g d))) (fun _ d => g d)

/-! ### Command cycles (R445, R447) -/

/-- A write on a port reaches its sequence, or waits while the block takes no new work (R558): on the host port while the NVM page is unlocked, else it is dropped with SEQ_ERR.
`ws` are the cycles themselves, offset and value, for the capture records (R474). -/
def nCycle (p : Nat) (ws : List (Nat × Nat)) (body : Dev → Dev) (d : Dev) : Dev :=
  if d.nvmHeld then d
  else if p = 0 then
    pageAccess (if d.barUp then ws.foldl (fun (d : Dev) w => d.capWrite 0 (0xE00000 + w.1) (w32 w.2)) d else d) 0xEFF000
      (fun ok d => if ok then body d else d.nFlag 0 5 true)
  else if d.released || d.fld Reg.GLB_DEV_STS 7 4 != 0 then body d else d

/-- The NVM address of an aperture offset through a port: the window on the host port, the address itself on the firmware
port (R444, R445). -/
def Dev.nAddr (d : Dev) (p off : Nat) : Nat := if p = 0 then d.fld Reg.NVM_WIN 5 0 * 0x80000 + off % 0x80000 else off % 0x2000000

/-- The bytes of 32-bit words, lowest first. -/
def wordBytes (ws : List Nat) : List Byte := ws.flatMap (fun w => (toBytes w 4).map (fun b => BitVec.ofNat 8 b))

/-- One cycle of a port's sequence in time (Tables NVM-2, NVM-3). -/
def Dev.nCycleIn (d : Dev) (p off value : Nat) : Dev :=
  let x := d.nPort p
  let at1 := off == 0x0A5A4 && value == 0x5A
  let at2 := off == 0x05A58 && value == 0xA5
  let go (n : Nat) : Dev := d.setNPort p { x with phase := n, tick := d.tick, off := off, value := value }
  let end_ : Dev := d.setNPort p { x with phase := 0, words := [], tick := d.tick, off := off, value := value }
  let bad : Dev := end_.nAbort p off value
  if x.phase != 3 && off == 0x0A5A4 && value == 0xF0 then end_.nReset p
  else
    match x.phase with
    | 0 => if at1 then go 1 else bad
    | 1 => if at2 then go 2 else bad
    | 2 =>
      if off ≠ 0x0A5A4 then bad
      else
        match value with
        | 0x30 => d.setNPort p { x with phase := 3, words := [], tick := d.tick, off := off, value := value }
        | 0x80 => go 4
        | 0xB0 => end_.nSuspend p
        | 0xD0 => end_.nResume p
        | 0x90 => end_.setNPort p { end_.nPort p with idMode := true }
        | 0x70 => end_.setNPort p { end_.nPort p with statOne := true }
        | 0x60 => go 7
        | _ => bad
    | 3 =>
      let a := d.nAddr p off
      let first := if x.words.isEmpty then a else x.first
      if a ≠ first + 4 * x.words.length || first % 256 ≠ 0 then (if off = 0x0A5A4 ∧ value = 0xF0 then end_.nReset p else bad)
      else if x.words.length = 63 then end_.nProgram p (first / 256)
      else d.setNPort p { x with words := x.words ++ [value], first := first, tick := d.tick, off := off, value := value }
    | 4 => if at1 then go 5 else bad
    | 5 => if at2 then go 6 else bad
    | 6 => if value = 0x11 then end_.nErase p (d.nAddr p off / 65536) else bad
    | _ => if off = 0x05A58 ∧ value < 2 then end_.nVerify p value else bad

/-- A cycle more than 100 µs after the last one finds its sequence aborted, and is the first of a new one (R447). -/
def Dev.nStep (d : Dev) (p off value : Nat) : Dev :=
  let x := d.nPort p
  if x.phase ≠ 0 ∧ x.tick + 100000 < d.tick then (d.nAbort p x.off x.value).nCycleIn p off value else d.nCycleIn p off value

/-- The 64th data write of a program that a cycle completes, if it is one that starts. -/
def Dev.nStepStore (d : Dev) (p off value : Nat) : List (Nat × List Byte) :=
  let x := d.nPort p
  let ok := !d.nvmHeld && (if p = 0 then d.barUp && d.unlocked 0xEFF && !(d.page 0xEFF).softRst else true)
  if ok && x.phase == 3 && x.words.length == 63 && d.nAddr p off == x.first + 252 && x.first % 256 == 0 &&
      decide (d.tick ≤ x.tick + 100000) && d.progOk p (x.first / 256) then
    [(x.first, wordBytes (x.words ++ [value]))]
  else []

/-- UNLOCK_CYCLE: one aligned 32-bit write of a sequence. -/
def doUnlockCycle (port off value : Nat) (d : Dev) : Dev :=
  nCycle (port % 2) [(off / 4 * 4, value)] (fun d => d.nStep (port % 2) (off / 4 * 4) (value % 2 ^ 32)) d
def execUnlockCycle (port off value : Nat) (s : State) : Host.Outcome State Fault Refusal :=
  actFlash s (doUnlockCycle port off value) (fun d => d.nStepStore (port % 2) (off / 4 * 4) (value % 2 ^ 32))

/-- NVM_SEQ_TIMEOUT (R447): more than 100 µs between cycles. -/
def doNvmSeqTimeout (port : Nat) (d : Dev) : Dev :=
  let p := port % 2
  let x := d.nPort p
  if x.phase ≠ 0 ∧ x.tick + 100000 < d.tick then d.nAbort p x.off x.value else d
def execNvmSeqTimeout (port : Nat) (s : State) : Host.Outcome State Fault Refusal := actAo s (doNvmSeqTimeout port)

/-! ### Commands after the unlock cycles

A command row is the command cycle with its further cycles, all in time and order.  On a port that the two unlock cycles have not
prepared it aborts the sequence (R447). -/

/-- Run a command on a port that stands after its unlock cycles. -/
def Dev.nCommand (d : Dev) (p byte : Nat) (body : Dev → Dev) : Dev :=
  if (d.nPort p).phase = 2 then body (d.setNPort p { d.nPort p with phase := 0, words := [] }) else d.nAbort p 0x0A5A4 byte

/-- The port stands after its unlock cycles and takes a command now. -/
def Dev.nReady (d : Dev) (p : Nat) : Bool :=
  (d.nPort p).phase == 2 && !d.nvmHeld && (if p = 0 then d.barUp && d.unlocked 0xEFF && !(d.page 0xEFF).softRst
    else d.released || d.fld Reg.GLB_DEV_STS 7 4 != 0)

/-- The cycles of a page program and of a sector erase (Table NVM-3). -/
def programCycles (addr : Nat) (data : List Nat) : List (Nat × Nat) :=
  (0x0A5A4, 0x30) :: ((List.range data.length).zip data).map (fun x => (addr % 0x80000 / 256 * 256 + 4 * x.1, x.2))
def eraseCycles (sector : Nat) : List (Nat × Nat) :=
  [(0x0A5A4, 0x80), (0x0A5A4, 0x5A), (0x05A58, 0xA5), (sector % 8 * 65536, 0x11)]

/-- PROGRAM_PAGE (R450): the page of an NVM address, with its 64 data words. -/
def doProgramPage (port addr : Nat) (data : List Nat) (d : Dev) : Dev :=
  let p := port % 2
  nCycle p (programCycles addr data) (fun d => d.nCommand p 0x30 (fun d =>
    if data.length = 64 then d.nProgram p (addr % 0x2000000 / 256) else d.nAbort p 0x0A5A4 0x30)) d
def execProgramPage (port addr : Nat) (data : List Nat) (s : State) : Host.Outcome State Fault Refusal :=
  actFlash s (doProgramPage port addr data)
    (fun d => if data.length = 64 && d.nReady (port % 2) && d.progOk (port % 2) (addr % 0x2000000 / 256) then
      [(addr % 0x2000000 / 256 * 256, wordBytes (data.map (fun w => w % 2 ^ 32)))] else [])

/-- SECTOR_ERASE (R448, R451). -/
def doSectorErase (port sector : Nat) (d : Dev) : Dev :=
  nCycle (port % 2) (eraseCycles sector) (fun d => d.nCommand (port % 2) 0x80 (fun d => d.nErase (port % 2) (sector % 512))) d
def execSectorErase (port sector : Nat) (s : State) : Host.Outcome State Fault Refusal := actAo s (doSectorErase port sector)

/-- SUSPEND (R452). -/
def doSuspend (port : Nat) (d : Dev) : Dev :=
  nCycle (port % 2) [(0x0A5A4, 0xB0)] (fun d => d.nCommand (port % 2) 0xB0 (fun d => d.nSuspend (port % 2))) d
def execSuspend (port : Nat) (s : State) : Host.Outcome State Fault Refusal := actFlash s (doSuspend port) (fun _ => [])

/-- RESUME (R452). -/
def doResume (port : Nat) (d : Dev) : Dev :=
  nCycle (port % 2) [(0x0A5A4, 0xD0)] (fun d => d.nCommand (port % 2) 0xD0 (fun d => d.nResume (port % 2))) d
def execResume (port : Nat) (s : State) : Host.Outcome State Fault Refusal := actAo s (doResume port)

/-- ID_STATUS. -/
def doIdStatus (port : Nat) (d : Dev) : Dev :=
  let p := port % 2
  nCycle p [(0x0A5A4, 0x90)] (fun d => d.nCommand p 0x90 (fun d => d.setNPort p { d.nPort p with idMode := true })) d
def execIdStatus (port : Nat) (s : State) : Host.Outcome State Fault Refusal := actAo s (doIdStatus port)

/-- READ_STAT. -/
def doReadStat (port : Nat) (d : Dev) : Dev :=
  let p := port % 2
  nCycle p [(0x0A5A4, 0x70)] (fun d => d.nCommand p 0x70 (fun d => d.setNPort p { d.nPort p with statOne := true })) d
def execReadStat (port : Nat) (s : State) : Host.Outcome State Fault Refusal := actAo s (doReadStat port)

/-- RESET (R449): a single write, without unlock cycles. -/
def doNvmReset (port : Nat) (d : Dev) : Dev := nCycle (port % 2) [(0x0A5A4, 0xF0)] (fun d => d.nReset (port % 2)) d
def execNvmReset (port : Nat) (s : State) : Host.Outcome State Fault Refusal := actFlash s (doNvmReset port) (fun _ => [])

/-- VERIFY_MODE: any mode byte but 0 and 1 is a wrong value. -/
def doVerifyMode (port mode : Nat) (d : Dev) : Dev :=
  let p := port % 2
  nCycle p [(0x0A5A4, 0x60), (0x05A58, mode)] (fun d => d.nCommand p 0x60 (fun d => if mode < 2 then d.nVerify p mode else d.nAbort p 0x05A58 mode)) d
def execVerifyMode (port mode : Nat) (s : State) : Host.Outcome State Fault Refusal := actAo s (doVerifyMode port mode)

/-! ### Ends and automatic suspension (R451, R453, R456) -/

/-- The end of an operation on the host port raises DONE, and FAIL if it failed. -/
def Dev.nEnded (d : Dev) (p : Nat) (pass : Bool) : Dev :=
  if p = 0 then (let d := d.raise 0xEFF 0; if pass then d else d.raise 0xEFF 1) else d

/-- NVM_PROGRAM_DONE. -/
def doNvmProgramDone (pass : Bool) (pulses : Nat) (d : Dev) : Dev :=
  match d.nRun with
  | some o =>
    if o.erase || d.nvmStop then d
    else
      let pulse := (d.nPort o.port).pulse
      let n := if !pulse then 0 else if pass then max 1 (min 12 pulses) else 12
      let d := { d with nRun := none }
      let d := if pulse then d.setFld Reg.NVM_PULSES 3 0 n else d
      let d := d.nFlag o.port 2 (!pass)
      let d := if pass then d else d.nErr 0x0104 o.at_ n
      let d := d.nEnded o.port pass
      if (d.nPort o.port).rst then d.nReset o.port else d
  | none => d
def execNvmProgramDone (pass : Bool) (pulses : Nat) (s : State) : Host.Outcome State Fault Refusal := actFlash s (doNvmProgramDone pass pulses) (fun _ => [])

/-- NVM_ERASE_DONE. -/
def doNvmEraseDone (pass : Bool) (pulses : Nat) (d : Dev) : Dev :=
  match d.nRun with
  | some o =>
    if !o.erase || d.nvmStop then d
    else
      let pulse := (d.nPort o.port).pulse
      let n := if !pulse then 0 else if pass then max 1 (min 12 pulses) else 12
      let x := d.sector o.at_
      let d := { d with nRun := none }
      let d := if pulse then d.setFld Reg.NVM_PULSES 7 4 n else d
      let d := d.setSector o.at_ (if pass then { next := 0, dirty := false, erases := x.erases + 1 } else { x with dirty := true })
      let d := d.nFlag o.port 3 (!pass)
      let d := if pass then d else d.nErr 0x0105 o.at_ n
      d.nEnded o.port pass
  | none => d
def execNvmEraseDone (pass : Bool) (pulses : Nat) (s : State) : Host.Outcome State Fault Refusal :=
  actFlash s (doNvmEraseDone pass pulses) (fun d =>
    match d.nRun with
    | some o => if o.erase && pass && !d.nvmStop then [(o.at_ * 65536, List.replicate 65536 erasedByte)] else []
    | none => [])

/-- NVM_AUTO_RESUME (R453): an erase suspended for 100 ms. -/
def doNvmAutoResume (d : Dev) : Dev :=
  match d.nRun, d.nSus with
  | none, some o =>
    if o.erase ∧ !d.nvmStop ∧ o.tick + 100000000 ≤ d.tick then { d with nSus := none, nRun := some { o with auto := true, tick := d.tick } }.nvmSts else d
  | _, _ => d
def execNvmAutoResume (s : State) : Host.Outcome State Fault Refusal := actAo s doNvmAutoResume

/-- NVM_FETCH_SUSPEND (R453): a management-core fetch during a host-port erase; after an automatic resume the erase first runs
1 ms. -/
def doNvmFetchSuspend (d : Dev) : Dev :=
  match d.nRun, d.nSus with
  | some o, none =>
    if o.erase ∧ o.port = 0 ∧ (!o.auto ∨ o.tick + 1000000 ≤ d.tick) then
      { d with nRun := none, nSus := some { o with auto := true, tick := d.tick } }.nvmSts
    else d
  | none, some o => if o.auto then { d with nSus := some { o with tick := d.tick } } else d
  | _, _ => d
def execNvmFetchSuspend (s : State) : Host.Outcome State Fault Refusal := actFlash s doNvmFetchSuspend (fun _ => [])

/-- NVM_FETCH_RESUME (R453): 50 µs without a further fetch. -/
def doNvmFetchResume (d : Dev) : Dev :=
  match d.nRun, d.nSus with
  | none, some o =>
    if o.auto ∧ !d.nvmStop ∧ o.tick + 50000 ≤ d.tick then { d with nSus := none, nRun := some { o with tick := d.tick } }.nvmSts else d
  | _, _ => d
def execNvmFetchResume (s : State) : Host.Outcome State Fault Refusal := actAo s doNvmFetchResume

/-! ### Reads (R446, R455) -/

/-- The identity word at an aperture offset (Table NVM-4). -/
def Dev.idWord (d : Dev) (off : Nat) : Nat :=
  if off = 0 then 0x4C4D else if off = 4 then 0x01000200 else if off = 8 then d.nHost.pulse.toNat + 8 * 2 ^ 8 else if off = 0xC then 1 else 0

/-- APERTURE_READ: `corr` is the number of wrong bits of the page.  While the array programs or erases, the read stalls (R8, R11). -/
def doApertureRead (off corr : Nat) (m : Memory) (d : Dev) : Dev :=
  let off := off % 0x80000 / 4 * 4
  let bytes (l : List Nat) : Out := .nvmData (l.map (fun b => BitVec.ofNat 8 b))
  if !d.barUp || d.nvmHeld then d
  else if d.nHost.statOne then
    (d.emit (bytes (List.replicate 4 (d.nStatus 0)))).setNPort 0 { d.nHost with statOne := false }
  else if d.nHost.idMode then d.emit (bytes (toBytes (d.idWord off) 4))
  else if d.nRun.isSome then { d with apWait := d.apWait ++ [(d.nAddr 0 off, corr)] }
  else d.arrayRead m (d.nAddr 0 off, corr)
def execApertureRead (off corr : Nat) (s : State) : Host.Outcome State Fault Refusal :=
  actArray s (doApertureRead off corr) (fun _ _ => [])

/-! ### Firmware images (R457, R458) -/

/-- The NVM address of a slot (Table NVM-1). -/
def slotBase (s : Nat) : Nat := if s = 0 then 0x200000 else 0x1100000

/-- Bytes of the array as numbers. -/
def arrayBytes (m : Memory) (a n : Nat) : List Nat := (Memory.readList arrayDflt m a n).map BitVec.toNat

/-- A little-endian field of a slot's image header (Table NVM-8). -/
def imgField (m : Memory) (s off n : Nat) : Nat := ofBytes (arrayBytes m (slotBase s + off) n)

/-- Some page of the header or the payload of a slot's image reads uncorrectable. -/
def imgUnc (m : Memory) (s : Nat) (unc : List Nat) : Bool :=
  unc.any (fun p => decide (slotBase s / 256 ≤ p) && decide (p * 256 < slotBase s + 0x1000 + imgField m s 0x00C 4))

/-- `check` of R458: the first failing test of a slot's image, 0 if none; `unc` are the pages of the array that read uncorrectable, `sig` says
by slot whether the signature verifies. -/
def imageCheck (m : Memory) (s svnMin : Nat) (unc : List Nat) (sig : Nat) : Nat :=
  if imgField m s 0x000 4 ≠ 0x4C465749 ∨ imgField m s 0x004 2 ≠ 1 then 1
  else if 15724544 < imgField m s 0x00C 4 then 2
  else if imgUnc m s unc then 6
  else if sha384 (arrayBytes m (slotBase s + 0x1000) (imgField m s 0x00C 4)) ≠ arrayBytes m (slotBase s + 0x040) 48 then 3
  else if !sig.testBit s then 4
  else if imgField m s 0x010 4 < svnMin then 5
  else 0

/-! ### Boot control (R459, R461) -/

/-- The inactive slot holds a DIRTY_ERASE sector. -/
def Dev.slotDirty (d : Dev) : Bool := d.nSec.any (fun kv => kv.2.dirty && slotOf kv.1 < 2 && slotOf kv.1 != d.activeSlot)

/-- A write of NVM_BOOT_CTL with KEY 0x4E56. -/
def bootCtl (v : Word) (body : Dev → Dev) (d : Dev) : Dev :=
  regWrite d Reg.NVM_BOOT_CTL v (fun _ d => if bits v 31 16 = 0x4E56 then body d else d)

/-- TRY (R459, R461). -/
def tryBody (v : Word) (d : Dev) : Dev :=
  if !bitAt v 0 then d
  else if d.slotDirty || d.nBusy 0 then d.nErr 0x0108 0x144 v.toNat
  else d.setFlag Reg.NVM_BOOT_STS 3 true

/-- CONFIRM (R459): ignored while TRIAL = 0; it ends the trial, and TRIAL reads 0 (DESIGN CHOICE, log 260). -/
def confirmBody (v : Word) (d : Dev) : Dev :=
  if bitAt v 1 && d.flag Reg.NVM_BOOT_STS 2 then
    let d := (d.setFlag Reg.NVM_BOOT_STS 0 (d.flag Reg.NVM_BOOT_STS 1)).setFlag Reg.NVM_BOOT_STS 2 false
    (d.setReg Reg.NVM_SVN_MIN (w32 (max d.nvm.svn (d.fld Reg.NVM_SVN_MIN 31 0)))).nvmSts
  else d

/-- TRY_BOOT. -/
def doTryBoot (v : Word) (d : Dev) : Dev := bootCtl v (fun d => confirmBody v (tryBody v d)) d
def execTryBoot (v : Word) (s : State) : Host.Outcome State Fault Refusal := actAo s (doTryBoot v)

/-- CONFIRM. -/
def doConfirm (v : Word) (d : Dev) : Dev := bootCtl v (fun d => confirmBody v (tryBody v d)) d
def execConfirm (v : Word) (s : State) : Host.Outcome State Fault Refusal := actAo s (doConfirm v)

end Sys2Proof.Machine
end

