-- ==== Sys2Proof/Machine/PortOps.lean ====
section
/-! DEFINITION. What commands share on flash ports and bands (chapters 07, 09 and 11):
closing and retiring, and the failure of a die or a port. -/

namespace Sys2Proof.Machine

/-! ### Closing and retiring -/

/-- Stripes of a band that have a chunk dealt and are not PROGRAMMED. -/
def Dev.inFlight (d : Dev) (band : Nat) : List Nat :=
  (d.progd.filter (fun kv => kv.1 / 32 / 4096 == band)).map (fun kv => kv.1 / 32 % 4096)

/-- Deal the final verify of the covered pages of a set that a predicate names (R308), once each. -/
def Dev.dealFinals (d : Dev) (b pos : Nat) (s : BSet) (slc : Bool) (due : Nat → Bool) : Dev :=
  ((SMap.get (fun _ => []) d.dpar (setKey s.port s.die s.block)).filter due).foldl (fun d pg =>
    if (d.port s.port).ops.any (fun o => o.src == .final && o.die == s.die && o.block == s.block && o.page == pg) then d
    else d.addOp s.port (mkOp 0x01 .final 2 0 b pg pos s.die s.block pg slc)) d

/-- A band is CLOSED: its day, and its place in the order of age (R209, R221). -/
def Dev.bandClosed (d : Dev) (b : Nat) (x : Band) : Dev :=
  ({ d with closeSeq := d.closeSeq + 1 }.setBand b { x with st := .closed, closeDay := d.eccDay, closeNo := d.closeSeq }).journalBand b 4

/-- The data chunks of a stripe in role order, as the stripe buffer or flash holds them. -/
def Dev.stripeData (d : Dev) (b k : Nat) : List FPage :=
  (List.range 16).map (fun r =>
    let s := d.setAtPos b (posOfRole r k)
    let key := flashKey s.port s.die s.block k
    (SMap.find d.stripeBuf key).getD (d.fpage key))

/-- A write-back of a map page is over: its credit goes back (Table STK-1). -/
def metaUnit (pk : Nat) : Nat := 2 ^ 50 + pk

/-- The copies of map pages in stripes of a band that will not be PROGRAMMED are abandoned: their pages are dirty again (R204, R222). -/
def Dev.metaAbandon (d : Dev) (b : Nat) : Dev :=
  let gone := (d.metaBack.filter (fun m => m.left.any (fun c => c / 32 / 4096 == b))).map MetaBack.page
  if gone.isEmpty then d
  else
    let d : Dev := { d with
      metaBack := d.metaBack.filter (fun m => !gone.contains m.page)
      dirty := gone.filter (fun pk => !d.dirty.contains pk) ++ d.dirty }
    (d.setFld Reg.MAP_CACHE_DIRTY 20 0 d.dirty.length).freeCredit (fun u => gone.any (fun pk => u == metaUnit pk))

/-- Close an open band at its last verified stripe (R204): its unverified stripes are abandoned, and the versions and relocated granules
placed in them will be written again (R222 step 2). -/
def Dev.closeBand (d : Dev) (b : Nat) : Dev :=
  let x := d.band b
  if x.st == .openSlc || x.st == .openQlc || x.st == .openMeta then
    let d := d.metaAbandon b
    let d : Dev := { d with
      fills := d.fills.filter (fun f => f.band != b)
      progd := d.progd.filter (fun (kv : Nat × Nat) => kv.1 / 32 / 4096 != b)
      chunksOk := d.chunksOk.filter (fun k => k / 32 / 4096 != b)
      cache := d.cache.map (fun (v : Ver) => match v.loc with
        | some l => if l.band == b && v.stage != Stage.programmed then { v with loc := none } else v
        | none => v)
      relocs := d.relocs.map (fun (r : Reloc) => if !r.ok && r.dst.any (fun l => l.band == b) then { r with dst := none } else r)
      ports := d.ports.map (fun (kv : Nat × Port) => (kv.1, { kv.2 with ops := kv.2.ops.filter (fun o =>
        !(o.band == b && o.opc == 0x02 && o.stage == OpStage.waiting)) })) }
    let d := (d.bmDirty.filter (fun k => k / 64 == b)).foldl (fun (d : Dev) k => d.bmMayClear b (k % 64)) d
    let d := ((List.range 19).zip (d.setsOf b)).foldl (fun (d : Dev) js => d.dealFinals b js.1 js.2 x.slc (fun _ => true)) d
    let d := d.freeCredit (fun u => 2 ^ 19 ≤ u && u < 2 ^ 43 && (u - 2 ^ 19) / 4096 == b)
    d.bandClosed b { x with next := x.verified }
  else d

/-- Blocks per plane of a port's dies, as its bridge reports them (R262; before it has, the most that the addresses allow: DESIGN CHOICE,
log 139), and the spare and rebuild shares of each die (Table ARC-6): 3 % and 4 % of its blocks, the highest-numbered ones. -/
def Dev.dieBlocks (d : Dev) (p : Nat) : Nat :=
  match d.fld (Reg.FCH_P_GEOM p) 11 0 with
  | 0 => 131072 / d.diesPerPort
  | n => n
def Dev.spareBlocks (d : Dev) (p : Nat) : Nat := d.dieBlocks p * 3 / 100
def Dev.rebuildBlocks (d : Dev) (p : Nat) : Nat := d.dieBlocks p * 4 / 100

/-- Recompute KITTY_PCT's inputs: the spare and rebuild bytes left, and the rebuild sets free. -/
def Dev.kitty (d : Dev) : Dev :=
  let fmt := d.fld Reg.SHF_RB_SPACE_FMT 22 0
  let free := fmt - d.rbUsed.length
  let d := d.setFld Reg.SHF_RB_SPACE 22 0 free
  let d := d.setFlag Reg.SHF_RB_STS 3 (decide (8 * free < fmt))
  d

/-- A kind of spare is exhausted (R509). -/
def Dev.exhaust (d : Dev) (kind : Nat) : Dev :=
  if d.exhausted.contains kind then d
  else { d with exhausted := insertSorted d.exhausted kind }.incident 0 0x0101 kind 0 none none none none

/-- Journal the set at a position of a band: band and replacement-table changes go to the twin (Table TWN-2). -/
def Dev.journalSet (d : Dev) (b pos : Nat) : Dev :=
  let s := d.setAtPos b pos
  d.journal { JBatch.none with sets := [(b, pos, s.port, s.die, s.block)] }

/-- Put a spare block of the same die in a set's place (R206); `false` when the die has none left. -/
def Dev.takeSpare (d : Dev) (b pos : Nat) : Bool × Dev :=
  let s := d.setAtPos b pos
  let dk := s.port * 64 + s.die
  let used := SMap.get (fun _ => 0) d.spareUsed dk
  if used < d.spareBlocks s.port then
    let blk := d.dieBlocks s.port - 1 - used
    let d : Dev := { d with spareUsed := SMap.set (fun _ => 0) d.spareUsed dk (used + 1) }
    let x := d.band b
    let d := d.setBand b { x with sets := setAt (d.setsOf b) pos { s with block := blk, repl := false, erased := false, prog := 0, built := 0, old := setKey s.port s.die blk } }
    let full := (d.spareUsed.filter (fun kv => decide (d.spareBlocks (kv.1 / 64) ≤ kv.2))).length
    let d := d.journalSet b pos
    (true, if d.spareBlocks s.port ≠ 0 ∧ full = d.fld Reg.FCH_C_DIES 15 0 then d.exhaust 0 else d)
  else (false, d)

/-- Retire a band's set and put a spare block in its place (R206): RETIRE and error 0x0102; without one the band is
withdrawn and the answer is `false`. -/
def Dev.retireSet (d : Dev) (b pos : Nat) : Bool × Dev :=
  let s := d.setAtPos b pos
  let d := ((d.inc Reg.MAP_RETIRED 1).recordErr 0x500 0x0102 b (s.port * 64 + s.die)).raise 0x500 2
  let d := d.unlogErasures (fun k => k / 16 / 32 / 4096 == b && k / 16 % 32 == pos)
  d.takeSpare b pos

/-- Recompute the erase counts that MAP and ECC publish. -/
def Dev.peCounts (d : Dev) : Dev :=
  let n := d.fld Reg.MAP_BANDS_FMT 22 0
  let es := d.bands.map (fun kv => kv.2.erases)
  let lo := if es.length < n then 0 else es.foldl min (2 ^ 16 - 1)
  let d := (d.setFld Reg.MAP_PE_MAX 15 0 (satN 16 (es.foldl max 0))).setFld Reg.MAP_PE_MIN 15 0 (satN 16 lo)
  if n = 0 then d else d.setFld Reg.ECC_PE_MEAN 15 0 (satN 16 (sumL es / n))

/-- A rebuild set has been erased: it is free again (R21, R28, R343), and positions without a replacement are tried again (R338). -/
def Dev.rebuildSetFree (d : Dev) (k : Nat) : Dev :=
  ({ d with rbUsed := d.rbUsed.filter (· != k)
            bands := d.bands.map (fun (kv : Nat × Band) =>
              if kv.2.sets.any (·.starved) then (kv.1, { kv.2 with sets := kv.2.sets.map (fun (s : BSet) => { s with starved := false }) }) else kv) }).kitty

/-- A rebuild set that a band does not use any more is erased, and then free (R21); the erase operation carries stripe 1. -/
def Dev.releaseSet (d : Dev) (b pos : Nat) (s : BSet) : Dev :=
  if d.dieGone s.port s.die then d else d.addOp s.port (mkOp 0x03 .erase 3 0 b 1 pos s.die s.block 0 false)

/-- The set that a replaced position of a band had. -/
def BSet.formed (s : BSet) : BSet :=
  { port := s.old / 2 ^ 18, die := s.old / 4096 % 64, block := s.old % 4096, repl := false, erased := false, prog := 0, old := s.old }

/-- The replaced positions of a band go back to their own sets, and the erases of the replacements are queued (R21, R343). -/
def Dev.unreplace (d : Dev) (b : Nat) : Dev :=
  (((List.range 19).zip (d.setsOf b)).filter (fun js => js.2.repl)).foldl (fun (d : Dev) js =>
    let x := d.band b
    ((d.setBand b { x with sets := setAt (d.setsOf b) js.1 js.2.formed }).releaseSet b js.1 js.2).journalSet b js.1) d

/-- A band's last set has been erased (R202, R205, R220): FREE, or withdrawn while a set's member is gone; its erasure-log entries go (R331).  A
band that was withdrawn, and whose sets have been erased again, was not collected. -/
def Dev.bandFreed (d : Dev) (b : Nat) : Dev :=
  let x := d.band b
  let back := x.queued != 0
  let sets := (d.setsOf b).map (fun (s : BSet) => { s with old := setKey s.port s.die s.block })
  let d := d.unlogErasures (fun k => k / 16 / 32 / 4096 == b)
  let d := if d.gcModeOf = 2 && !back then { d with gcCredit := d.gcCredit + ((bandGranules - x.victimV : Nat) : Int) } else d
  let d := d.setBand b { Band.reset with sets := sets, erases := x.erases + (!back).toNat }
  let dead := (d.setsOf b).find? (fun s => d.dieGone s.port s.die)
  let y := d.band b
  let d := match dead with
    | none => d
    | some s => d.setBand b { y with st := .withdrawn, queued := s.port + 1 }
  ((if back then d else d.inc Reg.MAP_GC_BANDS 1).journalBand b 0).peCounts.kitty.respace

/-- An ERASING band goes on (R205): when every set is erased, or its member is gone, the band is freed. -/
def Dev.eraseProgress (d : Dev) (b : Nat) : Dev :=
  let x := d.band b
  if x.st == .erasing && (List.range 19).all (fun j => x.erasedSets.contains j ||
      (let s := d.setAtPos b j; d.dieGone s.port s.die)) then d.bandFreed b
  else d

/-- Queue a band for rebuild (R337, R339). -/
def Dev.queueRebuild (d : Dev) (b : Nat) : Dev :=
  if d.rbQueue.contains b then d
  else
    let first := d.rbQueue.isEmpty
    let d : Dev := { d with rbQueue := insertSorted d.rbQueue b }
    if first then (d.setFlag Reg.SHF_RB_STS 0 true).raise 0xB00 0 else d

/-- Recompute the rebuild queue's registers from each queued band's worst stripe (R339). -/
def Dev.rbCounts (d : Dev) : Dev :=
  let ps := d.rbQueue.map (fun b => min 3 (max 1 (d.bandErasures b)))
  let n (k : Nat) : Nat := (ps.filter (· == k)).length
  let d := d.setFld Reg.SHF_RB_Q1 22 0 (n 1)
  let d := d.setFld Reg.SHF_RB_Q2 22 0 (n 2)
  let d := d.setFld Reg.SHF_RB_Q3 22 0 (n 3)
  (d.setFld Reg.SHF_RB_STS 2 1 (ps.foldl max 0)).setFlag Reg.SHF_RB_STS 0 (!ps.isEmpty)

/-- Sets become erased under the first case of R331: act on each band that has one (R337), and poison the columns
that this brings above three erasures.  `before` is the state in which the members still served. -/
def Dev.membersGone (d before : Dev) (gone : BSet → Bool) (port : Nat) : Dev :=
  let n := d.fld Reg.MAP_BANDS_FMT 22 0
  let hit := (List.range n).filter (fun b => (d.setsOf b).any gone)
  let d := hit.foldl (fun d b =>
    let x := d.band b
    match x.st with
    | .free => d.setBand b { x with st := .withdrawn, queued := port + 1 }
    | .openSlc | .openQlc | .openMeta => (d.closeBand b).queueRebuild b
    | .closed => d.queueRebuild b
    | _ => d) d
  let d := (hit.filter (fun b => (d.band b).st != .withdrawn)).foldl (fun d b => d.poisonNew (before.overColumns b) b) d
  d.respace.rbCounts

/-- A bitmap log lived on a port that is gone (R348): BM_COPY, error 0x0103, and the log is opened again on the next
ACTIVE port above it whose group differs from the lost port's and the other logs' groups, with a checkpoint from the HBM copy; the
checkpoint is verified within the step (DEDUCED, log 109). -/
def Dev.bmLogLost (d : Dev) (p : Nat) : Dev :=
  match [0, 1, 2].find? (fun n => d.flag (Reg.SHF_BM_PORT n) 15 && d.fld (Reg.SHF_BM_PORT n) 8 0 == p) with
  | none => d
  | some n =>
    let d := (d.recordErr 0xB00 0x0103 (n + 2) p).raise 0xB00 4
    let d := (d.setFlag (Reg.SHF_BM_PORT n) 15 false).setFlag Reg.SHF_BM_COPIES (2 + n) false
    let others := ([0, 1, 2].filter (· != n)).map (fun m => d.fld (Reg.SHF_BM_PORT m) 8 0 / 8)
    let ok (q : Nat) : Bool := d.lstate q == 5 && !d.portGone q && q / 8 != p / 8 && !others.contains (q / 8)
    match ((List.range 511).map (fun i => (p + 1 + i) % 512)).find? ok with
    | none => d
    | some q =>
      let d := d.setFld (Reg.SHF_BM_PORT n) 8 0 q
      let d := (d.setFlag (Reg.SHF_BM_PORT n) 15 true).setFlag Reg.SHF_BM_COPIES (2 + n) true
      (d.setBmLog n { BmLog.reset with base := d.bmSeq }).bmCheckpoint

/-! ### Program failures (R222) -/

/-- A program failure at a band's set: the set is retired, the band closed and marked for refresh, RETIRE raised and
error 0x0101 recorded. -/
def Dev.programFail (d : Dev) (b pos : Nat) : Dev :=
  let s := d.setAtPos b pos
  let d := d.closeBand b
  let s' := d.setAtPos b pos
  let d := d.setBand b { d.band b with sets := setAt (d.setsOf b) pos { s' with erased := true } }
  let d := (d.inc Reg.MAP_RETIRED 1).raise 0x500 2
  let d := d.recordErr 0x500 0x0101 b (s.port * 64 + s.die)
  d.markRefresh b

/-! ### Dies and ports (R285 to R287) -/

/-- Count ECC_DPAR_SETS. -/
def Dev.dparCount (d : Dev) : Dev := d.setFld Reg.ECC_DPAR_SETS 15 0 (satN 16 d.dpar.length)

/-- A set that is erased, or that a rebuild set has replaced, holds no accumulators any more. -/
def Dev.dparDrop (d : Dev) (k : Nat) : Dev :=
  if (d.dpar.find k).isNone then d
  else ({ d with dpar := d.dpar.erase k, dacc := d.dacc.filter (fun kv => kv.1 / 8 != k) }.dparCount).freeCredit (fun u => u == 2 ^ 43 + k)

/-- The band and the position that a set has, where it belongs to one. -/
def Dev.ownerOfSet (d : Dev) (k : Nat) : Option (Nat × Nat) :=
  d.bands.findSome? (fun kv => ((d.setsOf kv.1).findIdx? (fun s => setKey s.port s.die s.block == k)).map (fun j => (kv.1, j)))

/-- An accumulator of a set: the pages it holds and their XOR. -/
def Dev.accOf (d : Dev) (k page : Nat) : List Nat × List Nat := SMap.get (fun _ => ([], [])) d.dacc (k * 8 + page % 8)

/-- XOR of sixteen codewords with those of a page. -/
def xorPage (xs : List Nat) (f : FPage) (band : Nat) : List Nat := (List.range 16).map (fun c => xs.getD c 0 ^^^ f.cw c band)

/-- A ladle XORs the chunk at a page into its accumulator, or out again (R308). -/
def Dev.accMove (d : Dev) (k page : Nat) (into : Bool) : Dev :=
  let a := d.accOf k page
  if a.1.contains page == into then d
  else
    let band := ((d.ownerOfSet k).map Prod.fst).getD 0
    let ps := if into then insertSorted a.1 page else a.1.filter (· != page)
    { d with dacc := SMap.set (fun _ => ([], [])) d.dacc (k * 8 + page % 8) (ps, xorPage a.2 (d.fpage (k * 4096 + page)) band) }

/-- The programmed pages of a set that have not passed verify. -/
def Dev.unverified (d : Dev) (k : Nat) : List Nat :=
  match d.ownerOfSet k with
  | some (b, pos) => (List.range (d.band b).stripes).filter (fun q =>
      SMap.get (fun _ => 0) d.progd (chunkId b q pos) != 0 && !d.chunksOk.contains (chunkId b q pos))
  | none => []

/-- Die parity covers a page of a set, or no longer does (R308): with the first covered chunk the set gets its accumulators, which take every chunk that has
not passed verify; a chunk that is covered no longer leaves its accumulator, and with the last the accumulators are freed. -/
def Dev.dparSet (d : Dev) (k page : Nat) (on : Bool) : Dev :=
  if on then
    let first := (d.dpar.find k).isNone
    let d := { d with dpar := SMap.set (fun _ => []) d.dpar k (insertSorted ((SMap.get (fun _ => []) d.dpar k).filter (· != page)) page) }.dparCount
    (page :: if first then d.unverified k else []).foldl (fun (d : Dev) q => d.accMove k q true) d
  else
    let d := d.accMove k page false
    let ps := (SMap.get (fun _ => []) d.dpar k).filter (· != page)
    let d := { d with dpar := SMap.set (fun _ => []) d.dpar k ps }.dparCount
    if ps.isEmpty then { d with dacc := d.dacc.filter (fun kv => kv.1 / 8 != k) }.freeCredit (fun u => u == 2 ^ 43 + k) else d

/-- An accumulator of a set is discarded (Table STK-3): the chunks it covers are final-verified at once, covered no more. -/
def Dev.accLost (d : Dev) (k a : Nat) : Dev :=
  let mine (q : Nat) : Bool := q % 8 == a
  let d := match d.ownerOfSet k with
    | some (b, pos) => d.dealFinals b pos (d.setAtPos b pos) (d.band b).slc mine
    | none => d
  let d : Dev := { d with dacc := d.dacc.filter (fun kv => kv.1 != k * 8 + a) }
  ((SMap.get (fun _ => []) d.dpar k).filter mine).foldl (fun (d : Dev) q => d.dparSet k q false) d

/-- The codewords of a chunk as its accumulator and the other chunks in it give them (R309). -/
def Dev.accChunk (d : Dev) (k page band : Nat) : List Nat :=
  let a := d.accOf k page
  (a.1.filter (· != page)).foldl (fun xs q => xorPage xs (d.fpage (k * 4096 + q)) band) a.2

/-- Every seal of a rebuilt data chunk fits its block, as far as the block's key context is there; a parity chunk has none (R309). -/
def Dev.accSeals (d : Dev) (o : POp) (k : Nat) : Bool :=
  roleOf o.pos o.stripe ≥ 16 || (d.accChunk k o.page o.band).all (fun x =>
    let b := Blk.ofCw x
    let p := cwPlacement x
    let s := p / 2 ^ 37 % 1024
    p.testBit 47 || b.poison || !d.keyOk s b || !d.sealOff s (8 * (p % 2 ^ 37) + p / 2 ^ 48 % 8) b)

/-- A verify read fails: counted, VFY_FAIL, error 0x0103. -/
def Dev.verifyFail (d : Dev) (p : Nat) (o : POp) : Dev :=
  ((d.inc Reg.ECC_VFY_FAIL 1).recordErr 0xA00 0x0103 (p * 64 + o.die) (o.block * 4096 + o.page)).raise 0xA00 0

/-- Another chunk of the same accumulator is unreadable: one of its codewords is in the erasure log (R309). -/
def Dev.accBad (d : Dev) (o : POp) (k : Nat) : Bool :=
  (d.accOf k o.page).1.any (fun q => q != o.page && (List.range 16).any (fun c => d.elog.contains (elogKey o.band q o.pos c)))

/-- Die parity serves a chunk of a set (R309): it is covered, no other chunk of its accumulator is unreadable, and the rebuilt seals fit. -/
def Dev.accServes (d : Dev) (o : POp) (k : Nat) : Bool :=
  (SMap.get (fun _ => []) d.dpar k).contains o.page && !d.accBad o k && d.accSeals o k

/-- A verify read has failed (R222, R306, R308 to R310): of a final verify, the codewords that failed or exceed the limit as `worse` says are served from
die parity where an accumulator covers the chunk, and else go to SHF; of any other the program has failed, once for a set. -/
def Dev.verifyBad (d : Dev) (p : Nat) (o : POp) (worse : CwGot → Bool) : Dev :=
  let k := setKey p o.die o.block
  let d := d.verifyFail p o
  if o.src = .final then
    let bad := o.cols.filter (fun c => !o.got.any (fun x => x.cw == c && x.ok && !worse x))
    if !d.accServes o k then
      (bad.foldl (fun d c => d.toShf p o.die o.block o.page o.band o.stripe o.pos c) d).markRefresh o.band
    else (d.inc Reg.ECC_CW_DPAR 1).markRefresh o.band
  else if (d.setAtPos o.band o.pos).erased then d
  else (d.dparSet k o.page false).programFail o.band o.pos

/-- The owner of the reads of a stripe under rebuild, and the holder of the stripe's credit. -/
def rebuildOwner (b k : Nat) : Nat := 2 ^ 66 + (b * 4096 + k)
def rebuildUnit (b k : Nat) : Nat := 2 ^ 19 + (b * 4096 + k)

/-- The replacement sets of a band that serve, by position. -/
def Dev.replSets (d : Dev) (b : Nat) : List (Nat × BSet) :=
  ((List.range 19).zip (d.setsOf b)).filter (fun js => js.2.repl && !js.2.erased && !d.dieGone js.2.port js.2.die)

/-- The rebuild of a band stands where the last of its replacement sets does: what it held for the stripes before goes back (Table STK-1). -/
def Dev.rebuildSettle (d : Dev) (b : Nat) : Dev :=
  let x := d.band b
  let k := (d.replSets b).foldl (fun m js => min m js.2.prog) x.next
  (d.setBand b { x with progress := k }).freeCredit (fun u => rebuildUnit b 0 ≤ u && u < rebuildUnit b k)

/-- A program has failed (R222): the band's set is retired. -/
def Dev.programBad (d : Dev) (o : POp) : Dev :=
  let d := d.programFail o.band o.pos
  if o.src = .rebuild then d.rebuildSettle o.band else d

/-- End an operation as a die or port failure, or the refusal of its address, does: a program counts as a program failure, a verify read as a failed
verify, an erase as a failed erase whose set has gone; the codewords of another read have failed to decode, and of a set that still serves they go
to SHF. -/
def Dev.abortOp (d : Dev) (p : Nat) (o : POp) : Dev :=
  let d := d.dropOp p o.tag
  if o.forTwin.isSome then d.sendGulon 0x21 (remoteDoneFs (o.forTwin.getD 0) 1 [])
  else if o.opc = 0x02 ∧ o.src = .rebuild ∧ d.dieGone p o.die then d.rebuildSettle o.band
  else if o.opc = 0x02 then d.programBad o
  else if o.opc = 0x03 then (if o.stripe = 1 then d else d.eraseProgress o.band)
  else if o.opc = 0x01 ∧ (o.src = .verify ∨ o.src = .early ∨ o.src = .final) then d.verifyBad p o (fun _ => false)
  else if o.opc = 0x01 ∧ !d.dieGone p o.die ∧ (d.setAtPos o.band o.pos).port = p then
    (o.cols.filter (fun c => !o.settled c)).foldl (fun d c => d.toShf p o.die o.block o.page o.band o.stripe o.pos c) d
  else d

/-- Operations of a port end as a die or port failure ends them. -/
def Dev.abortAll (d : Dev) (p : Nat) (mine : POp → Bool) : Dev := ((d.port p).ops.filter mine).foldl (fun d o => d.abortOp p o) d

/-- Mark a die FAILED (R285): DFAIL, DIE_FAIL, error 0x0102, its operations end, those that the end of its bands deals to it too,
and its chunks become erasures. -/
def Dev.dieFail (d : Dev) (p die cause : Nat) : Dev :=
  if d.dieGone p die && !d.portGone p then d
  else
    let before := d
    let r := if die < 32 then Reg.FCH_P_DFAIL_LO p else Reg.FCH_P_DFAIL_HI p
    let d := d.setFlag r (die % 32) true
    let d := (d.recordErr (0x800 + p) 0x0102 die cause).raise (0x800 + p) 2
    let d := d.abortAll p (fun o => o.die == die)
    ((d.membersGone before (fun s => s.port == p && s.die == die) p).abortAll p (fun o => o.die == die)).outCounts p

/-- A bridge whose lane to this side has failed frees this side's token: arms and buffers are discarded, and what runs is reported to the next owner (as
R277 has it for a forced take). -/
def Dev.freeToken (d : Dev) (p : Nat) : Dev :=
  let b := d.bridge p
  if b.holder = d.side + 1 then
    d.setBridge p { b with holder := 0, arms := [], bufs := [], dies := b.dies.map (fun (kv : Nat × BDie) => (kv.1, { kv.2 with orphan := kv.2.busy })) }
  else d

/-- Mark a port FAILED (R286, R287): error 0x0101 with the cause, PORT_FAIL, every operation ends; a port failed for
cause 1 or 2 whose twin reports the same bridge ACTIVE is handed over, its operations from then on the twin's to deal, and is no member
failure: the bridge loses this side's token with its arms and buffers, so that the twin's take with FORCE = 0 finds it free.  No message of
Table TWN-2 carries that report: it is a free value (DESIGN CHOICE, log 224). -/
def Dev.portFail (d : Dev) (p cause info1 : Nat) : Dev :=
  let before := d
  let d := d.setLstate p 7
  let d := d.setFlag (Reg.FCH_P_STS p) 7 true
  let d := d.setFlag (Reg.FCH_C_FAILMAP (p / 32)) (p % 32) true
  let d := (d.recordErr (0x800 + p) 0x0101 cause info1).raise (0x800 + p) 1
  let may := (cause == 1 || cause == 2) && d.flag Reg.FCH_C_CTL 16 && d.paired
  let hand := may && d.freeVal % 2 == 1
  let d := if may then d.drawn else d
  let d := if hand then ((d.setFlag (Reg.FCH_P_STS p) 8 true).setFld (Reg.FCH_P_STS p) 4 3 2).freeToken p else d
  let d := (d.abortAll p (fun _ => true)).fchCounts
  if hand then d else (((d.bmLogLost p).membersGone before (fun s => s.port == p) p).abortAll p (fun _ => true)).outCounts p

/-- The dies present on a port. -/
def Dev.diesOf (d : Dev) (p : Nat) : List Nat :=
  (List.range 64).filter (fun i =>
    if i < 32 then d.flag (Reg.FCH_P_DIES_LO p) i else d.flag (Reg.FCH_P_DIES_HI p) (i - 32))

/-- Fail a die, and its port when every present die is FAILED (R286 cause 4). -/
def Dev.dieFailed (d : Dev) (p die cause : Nat) : Dev :=
  let d := d.dieFail p die cause
  if !d.portGone p && !(d.diesOf p).isEmpty && (d.diesOf p).all (fun i => d.dieGone p i) then d.portFail p 4 (d.lstate p) else d

/-- Enter RECOVERY (R258): counted; more than RETRAIN_LIM in a second fail the port (cause 2). -/
def Dev.enterRecovery (d : Dev) (p : Nat) : Dev :=
  let d := (d.inc (Reg.FCH_P_RECOV p) 1).setLstate p 6
  let x := d.port p
  let rs := (x.recovs.filter (fun t => decide (d.tick < t + 1000000000))) ++ [d.tick]
  let d := d.setPort p { x with recovs := rs, initTick := d.tick }
  if d.fld Reg.FCH_C_CTL 7 0 < rs.length then d.portFail p 2 6 else d

/-- Re-initialise a lane from DETECT (R259, R281): SEQ 0 and empty buffers on both sides, of the bridge only what is this side's; reads with no response
are dealt again, a waiting program's data is sent again, and what became of an armed or running program or erase the dies are asked in DELAY. -/
def Dev.reinit (d : Dev) (p : Nat) : Dev :=
  let d := d.setLstate p 1
  let x := (d.port p).linkReset d.tick
  let array (o : POp) : Bool := (o.opc == 0x02 || o.opc == 0x03) && o.sent.isNone && (o.stage == .armed || o.stage == .running)
  let d := d.setPort p { x with
    carryTx := 0, carryRx := 0, susArms := [], susMiss := [], susDue := []
    ops := x.ops.map (fun (o : POp) =>
      if array o then { o with stage := .running, asked := true, start := d.tick }
      else if o.sent.isNone && (o.stage != .running || (o.opc == 0x01 && !o.data)) then { o with stage := .waiting, buf := 32 } else o) }
  let b := d.bridge p
  let d := if b.holder = 2 - d.side then d
    else d.setBridge p { b with arms := [], bufs := [], cutSeq := 4095, cutFor := none, heard := 4095 }
  d.outCounts p

/-- The dies that a lane asks for their STATUS: those present, or every die of the port while none is known. -/
def Dev.askedDies (d : Dev) (p : Nat) : List Nat := if (d.diesOf p).isEmpty then List.range d.diesPerPort else d.diesOf p

/-- What the controller sends in DELAY (Table FCH-1, R284): DIE_STATUS with INFO to every die, and sixteen delay tests, whose STAMP is their number
(DESIGN CHOICE, log 239). -/
def Dev.delayWork (d : Dev) (p : Nat) (dies : List Nat) : Dev :=
  let d := dies.foldl (fun (d : Dev) i =>
    let x := d.port p
    (d.setPort p { x with carryTx := x.carryTx + 16, carryRx := x.carryRx + 16, dealt := x.dealt + 16, dealtRx := x.dealtRx + 16 }).askDie p i) d
  (List.range 16).foldl (fun (d : Dev) i => d.sendFresh p { opc := 0x0B, args := 2 ^ 32 * i } []) d

end Sys2Proof.Machine
end

