-- ==== Sys2Proof/Machine/Window.lean ====
section
/-! DEFINITION. The persistent window's bookkeeping (chapter 03): which segment an access reaches, dirty granules, poisoned
lines and the commit of a write-back.  A window granule is 32 KiB of the window, a line 64 bytes. -/

namespace Sys2Proof.Machine

/-- SEGS. -/
def Dev.segs (d : Dev) : Nat := d.fld Reg.HIF_PWIN_CTL 5 0

/-- The first backing block of segment `n`. -/
def Dev.segLba (d : Dev) (n : Nat) : Nat := d.get64 (Reg.SEG_LBA_LO n) (Reg.SEG_LBA_HI n) % 2 ^ 48

/-- SEG_STS.ACTIVE. -/
def Dev.segActive (d : Dev) (n : Nat) : Bool := d.flag (Reg.SEG_STS n) 0

/-- An access of `len` bytes through a head passes R74 for its one segment; a load is also served while the segment
drains (R83). -/
def Dev.inWindow (d : Dev) (head off len : Nat) (load : Bool) : Bool :=
  let n := off / 2 ^ 28
  0 < len && decide ((off + len - 1) / 2 ^ 28 = n) && decide (n < d.segs) && decide (n < 32) &&
  (d.flag (Reg.SEG_CTL n) 0 || (load && d.segActive n)) && d.fld (Reg.SEG_CTL n) 2 1 == head

/-- The indexes that `len` bytes from `off` touch in units of `u` bytes. -/
def unitsOf (off len u : Nat) : List Nat := (List.range ((off + len - 1) / u + 1 - off / u)).map (fun i => off / u + i)

/-- Publish HIF_PWIN_DIRTY. -/
def Dev.pwCount (d : Dev) : Dev := d.setFld Reg.HIF_PWIN_DIRTY 18 0 d.pwDirty.length

/-- The stack of an HBM offset (R13: 512-byte units across 128 pseudo-channels). -/
def stackOf (off : Nat) : Nat := off / 512 % 128 / 32

/-- A window line holds the poison code (R89, R354).  The window begins at a multiple of 256 MiB of HBM, so a line lies on the stack of its window
offset. -/
def Dev.pwBad (d : Dev) (l : Nat) : Bool := d.pwPoison.contains l || (d.pwDead.contains (stackOf (64 * l)) && !d.pwCured.contains l)

/-- The poisoned lines of the window. -/
def Dev.pwBadLines (d : Dev) : List Nat :=
  if d.pwDead.isEmpty then d.pwPoison else (List.range (d.segs * 2 ^ 22)).filter d.pwBad

/-- Publish SEG_STS.POISONED of every segment; a segment has 2^20 lines on each stack. -/
def Dev.pwPoisonCount (d : Dev) : Dev :=
  (List.range 32).foldl (fun d n =>
    d.setFld (Reg.SEG_STS n) 31 16 (satN 16 ((d.pwPoison.filter (fun l => l / 2 ^ 22 == n)).length +
      (if n < d.segs then 2 ^ 20 * d.pwDead.length - (d.pwCured.filter (fun l => l / 2 ^ 22 == n)).length else 0)))) d

/-- Lines of the window become poisoned (R89): counted, PWIN_POISON. -/
def Dev.pwPoisoned (d : Dev) (lines : List Nat) : Dev :=
  let new := (lines.filter (fun l => !d.pwBad l)).foldl insertSorted d.pwPoison
  if new.length = d.pwPoison.length then d else { d with pwPoison := new }.pwPoisonCount.raise 0x101 6

/-- Every window line of a stack becomes poisoned (R354). -/
def Dev.pwStackPoisoned (d : Dev) (k : Nat) : Dev :=
  let on (l : Nat) : Bool := stackOf (64 * l) == k
  let d : Dev := { d with pwPoison := d.pwPoison.filter (fun l => !on l), pwDead := insertSorted d.pwDead k, pwCured := d.pwCured.filter (fun l => !on l) }
  if d.segs = 0 then d else d.pwPoisonCount.raise 0x101 6

/-- A store has covered window lines whole: their poison is gone (R89). -/
def Dev.pwCure (d : Dev) (lines : List Nat) : Dev :=
  { d with pwPoison := d.pwPoison.filter (fun l => !lines.contains l)
           pwCured := (lines.filter (fun l => d.pwDead.contains (stackOf (64 * l)))).foldl insertSorted d.pwCured }

/-- A store touches a window granule: it is dirty, and dirty again if a write-back copies it (R79, R80). -/
def pwStored (t : Nat) (m : SMap PwGran) (g : Nat) : SMap PwGran :=
  SMap.insert m g (match m.find g with
    | none => { first := t, copying := false, again := none }
    | some x => if x.copying && x.again.isNone then { x with again := some t } else x)

/-- A write-back of a granule begins: its copy has been made. -/
def pwCopied (m : SMap PwGran) (g : Nat) : SMap PwGran :=
  match m.find g with
  | some x => SMap.insert m g { x with copying := true, again := none }
  | none => m

/-- A write-back of a granule has committed: the granule is clean, or dirty from the first store after the copy (R80). -/
def pwCleaned (m : SMap PwGran) (g : Nat) : SMap PwGran :=
  match m.find g with
  | some x => (match x.again with
    | some t => SMap.insert m g { first := t, copying := false, again := none }
    | none => SMap.erase m g)
  | none => m

/-- Mark the granules that a store touches dirty (R79, R80). -/
def Dev.pwMark (d : Dev) (off len : Nat) : Dev :=
  { d with pwDirty := (unitsOf off len 32768).foldl (pwStored d.tick) d.pwDirty }.pwCount

/-- The window granule that a slice's granule backs. -/
def Dev.pwGranule (d : Dev) (s g : Nat) : Option Nat :=
  ((List.range 32).find? (fun n => d.segActive n && d.fld (Reg.SEG_CTL n) 13 4 == s &&
    decide (d.segLba n ≤ 8 * g) && decide (8 * g < d.segLba n + 65536))).map (fun n => n * 8192 + (8 * g - d.segLba n) / 8)

/-- The same change of the map waits already. -/
def Dev.changing (d : Dev) (x : MapChg) : Bool :=
  d.mapPend.any (fun y => y.slice == x.slice && y.granule == x.granule && y.gver == x.gver && y.src == x.src && y.owner.isNone)

/-- A write-back has committed (R80); behind the cursor of an export it is counted (R165). -/
def Dev.pwCommitted (d : Dev) (s g : Nat) : Dev :=
  match d.pwGranule s g with
  | none => d
  | some w => if (d.pwDirty.find w).isSome then { d.countBehind s [g] with pwDirty := pwCleaned d.pwDirty w }.pwCount else d

/-- A change that waited for the twin stands (R25, R200). -/
def Dev.applyChg (d : Dev) (x : MapChg) : Dev :=
  let d := if d.cache.any (fun v => v.pwin && v.slice == x.slice && v.granule == x.granule && v.gver == x.gver) then d.pwCommitted x.slice x.granule else d
  d.applyEnt x

/-- A version commits (R19): its change begins, and a window granule's write-back is over when it stands. -/
def Dev.commitVer (d : Dev) (v : Ver) (x : MapChg) : Dev :=
  (if v.pwin && !d.paired then d.pwCommitted v.slice v.granule else d).mapChange x

end Sys2Proof.Machine
end

