-- ==== Sys2Proof/Machine/FailOps.lean ====
section
/-! DEFINITION. What a failure of the unit does: ending every command, fencing, the start of the power-loss dump
(R437, R439), and a stack or controller fault (R354). -/

namespace Sys2Proof.Machine

/-- Complete every outstanding command with a status. -/
def Dev.completeAll (d : Dev) (status : Nat) : Dev :=
  (d.queues.map Prod.fst).foldl (fun d q =>
    (d.queue q).live.foldl (fun d c => d.complete q c.tag status 0) d) d

/-- Stop fetching on every queue: READY of TST_BRG_STS falls. -/
def Dev.stopFetch (d : Dev) : Dev := d.setFlag Reg.TST_BRG_STS 5 false

/-- Discard every cached version and slot, and what was under way for them. -/
def Dev.dropCache (d : Dev) : Dev :=
  let d := { d with cache := [], mapPend := [], relocs := [], pwDirty := [], pwUnmir := 0 }.pwCount
  ((d.setFld Reg.STK_PWC_USED 20 0 0).setFlag Reg.STK_PWC_STS 0 false).revalid

/-- Set TWN_STS.SINGLE and the bits that follow it (R405); TWIN_UP is PAIRED. -/
def Dev.setSingle (d : Dev) (b : Bool) : Dev :=
  let d := (d.setFlag Reg.TWN_STS 4 b).setFlag Reg.GLB_DEV_STS 14 b
  let d := (d.setFlag Reg.GLB_DEV_STS 13 (d.twin == 3)).setFlag Reg.SHF_BM_COPIES 1 d.paired
  (d.setFlag Reg.STK_PWC_STS 2 b).setFlag Reg.HIF_PWIN_STS 1 (d.twin != 3)

/-- Set TWN_STS.STATE, and SINGLE as Table TWN-3 gives; entering PAIRED, FENCED or MISMATCH raises its event (Table
TWN-6). -/
def Dev.setTwin (d : Dev) (st : Nat) : Dev :=
  let d' := d.setFld Reg.TWN_STS 3 0 st
  let d' := d'.setSingle (if st = 3 then false else if st = 1 then d.flag Reg.TWN_STS 4
    else if st = 0 then d.flag Reg.TWN_STS 4 || d.released else true)
  if d.twin = st then d
  else if st = 3 then d'.raise 0xC01 0
  else if st = 5 then d'.raise 0xC01 2
  else if st = 6 then d'.raise 0xC01 3
  else d'

/-- Enter FENCED (R400), unless LOST. -/
def Dev.fenced (d : Dev) : Dev :=
  if d.twin == 4 || d.twin == 5 then d
  else
    let d := (d.setTwin 5).stopFetch
    (d.completeAll stFailover).dropCache

/-- Every incident on the sheet is journaled. -/
def Dev.journalIncidents (d : Dev) : Dev :=
  { d with incidents := d.incidents.map (fun (e : Incident) => { e with journaled := true }) }

/-- A device reset is in progress (R59, R560): the entry of a WARM reset, the dump of a COLD one, or the bring-up that any of the three
started. -/
def Dev.devReset (d : Dev) : Bool :=
  d.entryTgt == 5 || (d.dumping && decide (4 ≤ d.dumpSrc)) ||
  (d.resetRun && !d.released && decide (1 ≤ d.fld Reg.TST_BRG_CAUSE 2 0) && decide (d.fld Reg.TST_BRG_CAUSE 2 0 ≤ 3))

/-- Start the power-loss dump (R437, R439): the half alternates, DUMP_START goes to the NVM record, a mode entry is abandoned
(R440), HBM and the domains of the dump set wake, the time is saved at the next 32.768 kHz edge (R231).  A reset in progress is
abandoned (R59, R560) unless it started the dump itself: `src` 4 is a COLD reset of GLB_RST_CTL, 5 of the reset ball. -/
def Dev.startDump (d : Dev) (src : Nat) : Dev :=
  if d.dumping || 3 ≤ d.mode then d
  else
    let own := decide (4 ≤ src)
    let ends := d.devReset && !own
    let half := if d.flag Reg.PWR_FAIL_STS 2 then 0 else 1
    let d := (d.setFlag Reg.PWR_FAIL_STS 1 true).setFlag Reg.PWR_FAIL_STS 2 (half == 1)
    let d := (d.setFlag Reg.PWR_FAIL_STS 3 false).inc Reg.PWR_DUMP_SEQ 1
    let seq := d.fld Reg.PWR_DUMP_SEQ 31 0
    let d : Dev := { d with
      dumpAt := d.tick, dumpSrc := src, entryTgt := 0, saveDue := true, restored := false, counted := false
      nvm := { d.nvm with dumpStart := some (seq, half), dumpDone := none, abandoned := ends, clean := false }
      resetRun := own, bring := if own then d.bring else none }
    let d := ((d.setFld Reg.PWR_MODE_STS 6 4 0).nvmPowerFail).incRelease.journalIncidents
    (List.range 64).foldl (fun d g => if d.dumpGroup g && d.domSt g != 0 then d.setDomSt g 0 else d) d

/-- Every bridge this unit owns goes to its twin as it drains (R354). -/
def Dev.handBridges (d : Dev) : Dev :=
  { d with giving := (List.range 512).filter (fun p => d.fld (Reg.FCH_P_STS p) 4 3 == 1) }

/-- A stack fault or a controller fault (R354): `idx` is the stack, or 0xFF for a controller fault. -/
def Dev.ctrlFault (d : Dev) (idx cause : Nat) : Dev :=
  let d := (d.errIncident 0x600 0x0101 idx cause none none none none).raise 0x600 0
  let d := d.stopFetch
  if d.paired then
    d.handBridges.completeAll stFailover
  else { d.startDump 3 with stayDown := true }

end Sys2Proof.Machine
end

