-- ==== Sys2Proof/Machine/Health.lean ====
section
/-! DEFINITION. Health (chapter 18): the kitty (R27), the free figure and the endurance projection (R511), the conditions of
Table GRD-4, what a change of level does (R514, R517, R567), and the report of Table GRD-5. -/

namespace Sys2Proof.Machine

/-! ### Quantities -/

/-- Bytes of a die block set. -/
def setBytes : Nat := 3072 * 65536

/-- The ports whose own shares have left the kitty (R27): those counted at format that are gone. -/
def Dev.gonePorts (d : Dev) : List Nat := (List.range 512).filter (fun p => d.portGone p && !d.fmtOut.contains p)

/-- What was taken from a port counts as used: its shares are in the kitty (R27). -/
def Dev.inKitty (d : Dev) (p : Nat) : Bool := !d.portGone p && !d.fmtOut.contains p

/-- What a failed port takes out of the kitty: its own shares, `n` blocks of each of its dies (R27). -/
def Dev.goneBytes (d : Dev) (n : Nat → Nat) : Nat := sumL (d.gonePorts.map (fun p => (d.diesOf p).length * n p * setBytes))

/-- Spare-block bytes remaining. -/
def Dev.spareLeft (d : Dev) : Nat :=
  let used := sumL ((d.spareUsed.filter (fun kv => d.inKitty (kv.1 / 64))).map Prod.snd)
  d.spareFmt - d.goneBytes d.spareBlocks - used * setBytes

/-- Rebuild-space bytes remaining. -/
def Dev.rebuildLeft (d : Dev) : Nat :=
  let used := (d.rbUsed.filter (fun k => d.inKitty (k / 2 ^ 18))).length
  d.rebuildFmt - d.goneBytes d.rebuildBlocks - used * setBytes

/-- The denominator of R27. -/
def Dev.kittyFmt (d : Dev) : Nat := d.spareFmt + d.rebuildFmt

/-- KITTY_PCT is below `n` percent (R27). -/
def Dev.kittyBelow (d : Dev) (n : Nat) : Bool := decide (100 * (d.spareLeft + d.rebuildLeft) < n * d.kittyFmt)

/-- F_E (R511). -/
def Dev.freeEnd (d : Dev) : Int :=
  (d.nS : Int) - (d.fld Reg.MAP_META 22 0 : Int) - (ceilDiv d.valid bandGranules : Int)

/-- ENDUR_DAYS (R511): the rate over up to 90 days, exact. -/
def Dev.endurDays (d : Dev) : Nat :=
  let span := min 90 d.fmtDays
  let pe := d.fld Reg.ECC_PE_MEAN 15 0
  let rated := d.fld Reg.ECC_PE_RATED 15 0
  let pe90 := d.peDays.getD span 0
  if rated ≤ pe then 0
  else if span = 0 ∨ pe ≤ pe90 then 0xFFFFFFFF
  else min 0xFFFFFFFF ((rated - pe) * span / (pe - pe90))

/-! ### Conditions and level (R510, Table GRD-4) -/

/-- A condition with its entry and leave tests. -/
def hysteresis (active enters leaves : Bool) : Bool := if active then !leaves else enters

/-- The active conditions after one evaluation: bits 0 AMBER kitty, 1 AMBER endurance, 2 RED kitty, 3 BLACK. -/
def Dev.condsNow (d : Dev) : List Nat :=
  let fe := d.freeEnd
  let w : Int := d.wHard
  let test (i : Nat) (e l : Bool) : Bool := hysteresis (d.conds.contains i) e l
  let c0 := test 0 (d.kittyBelow 35) (!d.kittyBelow 40)
  let c1 := test 1 (decide (d.endur < 730)) (decide (913 ≤ d.endur))
  let c2 := test 2 (d.kittyBelow 10) (!d.kittyBelow 12)
  let c3 := test 3 (decide (fe ≤ w)) (decide (2 * w < fe))
  (if c0 then [0] else []) ++ (if c1 then [1] else []) ++ (if c2 then [2] else []) ++ (if c3 then [3] else [])

/-- The level of some active conditions: the most severe one. -/
def levelOf (conds : List Nat) : Nat :=
  if conds.contains 3 then 3 else if conds.contains 2 then 2 else if conds.contains 0 || conds.contains 1 then 1 else 0

/-- Add a CXL event record: 0 a single-copy flush (R87), 1 a change of level (R517). -/
def Dev.event (d : Dev) (code : Nat) : Dev := { d with events := d.events ++ [(⟨code, d.tick⟩ : EventRec)] }

/-- The level changes (R514, R517, R567). -/
def Dev.levelChange (d : Dev) (new : Nat) : Dev :=
  let old := d.health
  if old = new then d
  else
    let d := (d.setFld Reg.GLB_DEV_STS 9 8 new).incident 0 0x0100 old new none none none none
    let d := ((d.event 1).emit (.pldm new))
    let d : Dev := { d with levelTick := d.tick, levelEpoch := d.epoch }
    let d : Dev := if new = 2 then { d with redNo := d.redNo + 1 } else d
    if old = 2 then
      let d : Dev := { d with twinSlices := d.twinSlices.map (fun (kv : Nat × MSlice) => (kv.1, { kv.2 with hdrmUsed := 0 })) }
      (d.slices.map Prod.fst).foldl (fun (d : Dev) s => d.setSlice s { d.slice s with hdrmUsed := 0 }) d
    else d

/-- Journal the health state (R567). -/
def Dev.journalHealth (d : Dev) : Dev :=
  d.journal { JBatch.none with health := [(d.conds.foldl (fun a i => a + 2 ^ i) 0, d.health, d.levelTick, d.levelEpoch)] }

/-- Evaluate the conditions (R510), on a formatted shelf. -/
def Dev.healthEval (d : Dev) : Dev :=
  if d.fld Reg.MAP_BANDS_FMT 22 0 = 0 then d
  else
    let new := d.condsNow
    let d' := (if new = d.conds then d else { d with conds := new }).levelChange (levelOf new)
    if new = d.conds then d' else d'.journalHealth

/-! ### The report -/

/-- Groups with a spare hard decoder. -/
def Dev.groupSpares (d : Dev) : Nat := ((List.range 64).filter (fun g => !d.hdOut.any (fun i => i / 9 == g))).length

/-- CRY lanes in service. -/
def Dev.cryLanes (d : Dev) : Nat := ((List.range 16).filter (fun l => d.flag Reg.CRY_LANE_STS l)).length

/-- Table GRD-5 as 64 words (before a format has set the denominator of R27, KITTY reads 100 %: DESIGN CHOICE, log 208); `slice` is the requester's, none on the sideband. -/
def Dev.healthReport (d : Dev) (slice : Option Nat) : List Nat :=
  let kitty := if d.kittyFmt = 0 then 10000 else 10000 * (d.spareLeft + d.rebuildLeft) / d.kittyFmt
  let bit8 (l : List Nat) : Nat := l.foldl (fun a i => a + 2 ^ i) 0
  let arr := (d.remapped.filter (fun kv => decide (8 ≤ kv.2.length))).length
  let x := slice.map d.slice
  let body := 0x4C484C54 + 2 ^ 32 * d.health + 2 ^ 40 * bit8 d.conds + 2 ^ 48 * kitty +
    2 ^ 64 * d.spareLeft + 2 ^ 128 * d.rebuildLeft + 2 ^ 192 * d.kittyFmt + 2 ^ 256 * d.endur +
    2 ^ 288 * (wInt d.freeEnd).toNat + 2 ^ 320 * d.wHard + 2 ^ 352 * d.groupSpares + 2 ^ 360 * (8 - d.wkOut.length) +
    2 ^ 368 * (4 - d.coresOut.length) + 2 ^ 376 * d.fld Reg.TWN_LINK_STS 7 6 + 2 ^ 384 * d.fld Reg.STK_LADLE_STS 7 0 +
    2 ^ 392 * d.cryLanes + 2 ^ 400 * arr + 2 ^ 416 * d.fld Reg.STK_RETIRED 26 16 + 2 ^ 432 * bit8 d.exhausted +
    2 ^ 448 * d.levelTick + 2 ^ 512 * d.levelEpoch +
    2 ^ 576 * (x.map (fun (y : Slice) => y.hdrmUsed)).getD 0 + 2 ^ 640 * (x.map (fun (y : Slice) => y.hdrm * 2 ^ 18)).getD 0
  toWords body 64

/-- HEALTH_GET (R518): the report goes to DP0, one snapshot. -/
def doHealthGet (qid tag : Nat) (d : Dev) : Dev :=
  let qid := qid % 16384
  let s := qid / 16
  match d.ready qid (tag % 32) opHealthGet with
  | none => d
  | some c =>
    match d.sliceHead s with
    | none => d
    | some h =>
      (d.emit (.hostReport (d.slice s).pasid h (c.dp.getD 0 0) (d.healthReport (some s)))).complete qid c.tag stSuccess 0
def execHealthGet (qid tag : Nat) (s : State) : Host.Outcome State Fault Refusal := act s (doHealthGet qid tag)

end Sys2Proof.Machine
end

