-- ==== Sys2Proof/Machine/TimeOps.lean ====
section
/-! DEFINITION. The time base (chapter 08): locks, slews, steps, the coarse flag and the uncertainty, and the
choice of role and source. -/

namespace Sys2Proof.Machine

/-- Set the correction still to be slewed, and SLEWING. -/
def Dev.setSlew (d : Dev) (v : Int) : Dev := (d.setReg Reg.DLR_SLEW_LEFT (wInt v)).setFlag Reg.DLR_TIME_STS 5 (v != 0)

/-- Set COARSE in DLR_TIME_STS. -/
def Dev.setCoarse (d : Dev) (b : Bool) : Dev := d.setFlag Reg.DLR_TIME_STS 3 b

/-- The register takes the figure of the tick. -/
def Dev.timeUnc (d : Dev) : Dev := d.setReg Reg.GLB_TIME_UNC (w32 d.uncNow)

/-- The count runs after the leader of the pair: SRC is 2 (Table DLR-1). -/
def Dev.follows (d : Dev) : Bool := d.fld Reg.DLR_TIME_STS 2 1 == 2

/-- COARSE follows the lock (R230, R563): it clears when a lock holds and the correction left is within 1,024 ticks, on a follower only
while its leader's is clear; a leader that is COARSE makes its locked follower COARSE. -/
def Dev.coarseCheck (d : Dev) : Dev :=
  if d.timeLocked && d.follows && d.leadCoarse then d.setCoarse true
  else if d.coarse && d.timeLocked && d.stepPend.isNone && decide (d.slewLeft.natAbs ≤ 1024) then d.setCoarse false else d

/-- The capture record of a change of the time line: EPOCH, COARSE, and the step in ticks, 0 for a lock change (Table SCP-5). -/
def Dev.timeRec (d : Dev) (step : Nat) : Dev := d.capRec 0x04 0 [(2, d.epoch), (1, d.coarse.toNat), (8, step)]

/-- Raise TIME_CHG when LOCKED, SRC, LEADER or COARSE changed. -/
def Dev.timeChange (d0 d : Dev) : Dev :=
  if d0.fld Reg.DLR_TIME_STS 4 0 == d.fld Reg.DLR_TIME_STS 4 0 then d else (d.timeRec 0).raise 0x700 0

/-- The nearest multiple of 2,048 to an offset, halfway toward zero (R227). -/
def stepOf (ofs : Int) : Int :=
  let n := (ofs.natAbs + 1023) / 2048
  if 0 ≤ ofs then (2048 * n : Nat) else -((2048 * n : Nat) : Int)

/-- Take a correction from a lock's source (R227): a COARSE count with STEP_EN = 1 steps at the next trick-group
boundary, everything else is slewed. -/
def Dev.correct (d : Dev) (ofs : Int) : Dev :=
  let d := (d.setReg Reg.DLR_TIME_OFS (wInt ofs)).setSlew ofs
  let st := stepOf ofs
  { d with stepPend := if d.coarse && d.flag Reg.DLR_TIME_CTL 2 && st != 0 then some st else none }

/-- Declare a lock with a figure of Table DLR-2. -/
def Dev.timeLock (d : Dev) (fig : Nat) : Dev :=
  let d := if d.timeLocked then d else { d with timePre := d.fld Reg.GLB_TIME_UNC 31 0 }
  let d := { d.setFlag Reg.DLR_TIME_STS 0 true with timeFig := fig, lossAt := none }
  d.coarseCheck.timeUnc

/-- Lose the lock: a leader holds over from its figure at the loss (Table DLR-2). -/
def Dev.timeUnlock (d : Dev) : Dev :=
  if d.timeLocked then
    { d.setFlag Reg.DLR_TIME_STS 0 false with lossAt := some (d.tick, d.uncNow), stepPend := none }
  else d

/-- HIF_PTM_STS.LOCKED with PTM_EN = 1: an own PTM lock counts (R228). -/
def Dev.ptmLocked (d : Dev) : Bool := d.flag Reg.HIF_PTM_STS 0 && d.flag Reg.DLR_TIME_CTL 0

/-- The Gulon link is up and TWIN_EN = 1 (Table DLR-1). -/
def Dev.timeLink (d : Dev) : Bool := d.flag Reg.TWN_LINK_STS 0 && d.flag Reg.DLR_TIME_CTL 1

/-- The role and source of Table DLR-1. -/
def Dev.timeRole (d : Dev) : Dev :=
  let own := d.ptmLocked
  let lead := if !d.timeLink then true else if own == d.twinPtm then d.side == 0 else own
  let src := if lead then (if own then 1 else 0) else 2
  let was := d.flag Reg.DLR_TIME_STS 4
  let d' := (d.setFlag Reg.DLR_TIME_STS 4 lead).setFld Reg.DLR_TIME_STS 2 1 src
  let d' := if lead then d'.setReg Reg.DLR_TWIN_OFS 0 else d'
  let d' := if lead != was then { d' with exGood := 0, exBad := 0, exLast := d.tick } else d'
  let d' := if (lead && !own) || (!lead && was) then d'.timeUnlock
    else if lead && !was && d'.timeLocked then { d' with timeFig := 8 }.timeUnc else d'
  Dev.timeChange d d'

/-- A correction is there to slew, and the trick in progress has not had its one period for it (R227). -/
def Dev.slews (d : Dev) : Bool := d.slewLeft != 0 && d.stepPend.isNone && !d.slewDone

/-- One tick of correction is slewed (R227), at most once per trick. -/
def Dev.slewTick (d : Dev) : Dev :=
  let d' : Dev := if d.slews then { d.setSlew (d.slewLeft - d.slewLeft.sign) with slewDone := true } else d
  Dev.timeChange d d'.coarseCheck.timeUnc

/-- One period of the clock within a trick (R225, R227): the count advances by one, or, once per trick while a correction is slewed, by 2
or by 0; the period that slews is the earliest that can (DESIGN CHOICE, log 220). -/
def Dev.period (d : Dev) : Dev :=
  let n := if 0 < d.slewLeft then 2 else 0
  if d.slews && decide (d.tick % 2048 + n < 2048) then { d.slewTick with tick := d.tick + n } else { d with tick := d.tick + 1 }

/-- The count moves on to the end of the trick in progress, which has its slewing period if it had none (R227). -/
def Dev.endTrick (d : Dev) (t : Nat) : Dev :=
  let d := if d.tick % 2048 ≤ 2045 then d.slewTick else d
  { d with tick := t, slewDone := false }

/-- A step that waits is applied (R227): the count moves by a multiple of 2,048 ticks, and with it the mark from which missed exchanges count (R229). -/
def Dev.stepTick (d : Dev) : Dev :=
  match d.stepPend with
  | none => d
  | some st =>
    if d.coarse && d.flag Reg.DLR_TIME_CTL 2 then
      let t := ((d.tick : Int) + st).toNat
      let v := if 0 ≤ st then st.toNat else 2 ^ 64 - (-st).toNat
      let d' := { d with tick := t, stepPend := none, exLast := ((d.exLast : Int) + st).toNat }
      let d' := (d'.set64 Reg.DLR_STEP_LO Reg.DLR_STEP_HI v).inc Reg.DLR_STEPS 1
      let d' := (d'.setSlew (d.slewLeft - st)).coarseCheck.timeUnc
      ((Dev.timeChange d d').timeRec v).raise 0x700 1
    else { d with stepPend := none }

end Sys2Proof.Machine
end

