-- ==== Sys2Proof/Machine/Hif.lean ====
section
/-! DEFINITION. The host link (chapter 03): heads, host memory accesses, the persistent window, Global Persistent Flush, IDE,
precision time measurement, the sideband, the memory device mailbox and the slice heads. -/

namespace Sys2Proof.Machine

/-! ### Heads (R60 to R71, Table HIF-3) -/

/-- A head goes down (Table HIF-3). -/
def Dev.takeHeadDown (d : Dev) (h : Nat) : Dev :=
  if d.headUp h then
    let d := ((d.setFlag (Reg.HIF_LINK_STS h) 0 false).setFlag (Reg.HIF_LINK_STS h) 8 false).setFlag (Reg.HIF_LINK_STS h) 9 false
    ({ d with headDown := SMap.insert d.headDown h d.tick }.raise 0x100 0).capRecFree 0x16 h [0]
  else d

/-- HEAD_DOWN (R69). -/
def doHeadDown (head : Nat) (d : Dev) : Dev := d.takeHeadDown (head % 4)
def execHeadDown (head : Nat) (s : State) : Host.Outcome State Fault Refusal := act s (doHeadDown head)

/-- HEAD_UP (R61, R71): a head of the configuration in force reaches L0 at its full width; completions held for its slices
are written, and pending messages it may carry go out. -/
def doHeadUp (head rate width : Nat) (d : Dev) : Dev :=
  let h := head % 4
  let full := if d.bifNow.testBit (h / 2) then 8 else 16
  let bad := (List.range 32).any (fun l => d.flag Reg.TST_HOSTLANE l && l / 16 == h / 2 && (full == 16 || l % 16 / 8 == h % 2))
  if !d.headExists h || d.headUp h || width ≠ full || 2 < rate || bad || !d.pgMain then d
  else
    let d := ((d.setFlag (Reg.HIF_LINK_STS h) 0 true).setFld (Reg.HIF_LINK_STS h) 2 1 rate).setFld (Reg.HIF_LINK_STS h) 7 3 width
    let d := if (d.headDown.find h).isSome then d.incFld (Reg.HIF_LINK_STS h) 31 16 1 else d
    let d := { d with headDown := SMap.erase d.headDown h }
    (((d.raise 0x100 0).movesFrom (fun s => d.sliceHead s == some h)).capRecFree 0x16 h [1, rate, width]).releaseAllHeld.pbaFlush.savesGo
def execHeadUp (head rate width : Nat) (s : State) : Host.Outcome State Fault Refusal := act s (doHeadUp head rate width)

/-- A command still needs host data movement. -/
def Cmd.movesData (c : Cmd) : Bool :=
  c.op == opRead || c.op == opSealRead || c.op == opMapSpace || c.op == opHealthGet || (c.op == opWrite && !c.placed && c.host.isNone)

/-- The tick from which a slice has had no usable head: the fall of the heads that its byte names, or the write that named them while they were
down (R98). -/
def Dev.headless (d : Dev) (s : Nat) : Nat :=
  let b := d.headByte s
  let t (h : Nat) : Nat := SMap.get (fun _ => 0) d.headDown h
  max (d.slice s).headTick (if b.testBit 4 then max (t (b % 4)) (t (b / 4 % 4)) else t (b % 4))

/-- HEAD_WAIT_EXPIRE (R69): a slice's commands that have needed data movement for HIF_HEAD_WAIT ms with no usable head
complete with FAILOVER_RESUBMIT. -/
def doHeadWaitExpire (slice : Nat) (d : Dev) : Dev :=
  let s := slice % 1024
  let wait := d.fld Reg.HIF_HEAD_WAIT 15 0 * 1000000
  if (d.sliceHead s).isSome then d
  else
    (queuesOf s).foldl (fun (d : Dev) q =>
      ((d.queue q).live.filter (fun c => c.movesData && decide (max (d.headless s) c.dbTick + wait ≤ d.tick))).foldl
        (fun (d : Dev) c => d.complete q c.tag stFailover 0) d) d
def execHeadWaitExpire (slice : Nat) (s : State) : Host.Outcome State Fault Refusal := act s (doHeadWaitExpire slice)

/-- A PERST# of a port (R70): its heads' configuration spaces return to reset, their IDE keys with them, and the heads are
down. -/
def Dev.perst (d : Dev) (port : Nat) : Dev :=
  let d := ((d.capRecFree 0x16 (2 * port) [2]).takeHeadDown (2 * port)).takeHeadDown (2 * port + 1)
  { d with ide := d.ide.filter (fun (kv : Nat × Ide) => kv.1 / 512 != port), cfg := d.cfg.filter (fun (kv : Nat × Word) => kv.1 / 32 != port) }

/-- PERST_A_N (R70). -/
def doPerstAN (d : Dev) : Dev := d.perst 0
def execPerstAN (s : State) : Host.Outcome State Fault Refusal := act s doPerstAN

/-- PERST_B_N (R70). -/
def doPerstBN (d : Dev) : Dev := d.perst 1
def execPerstBN (s : State) : Host.Outcome State Fault Refusal := act s doPerstBN

/-! ### Host memory accesses (R67, R68) -/

/-- A command's host memory accesses have begun (R67): nothing holds it, it has a head and its credit, and what precedes them is done: a data command has a dispatched
unit and its map lookups, a read its flash data, a write its space (Tables ARC-3 and ARC-4). -/
def Dev.accessing (d : Dev) (qid : Nat) (c : Cmd) : Bool :=
  let s := qid / 16
  let gs := granulesOf c.lba c.nblk
  c.movesData && !c.done && !c.waiting && (d.queue qid).free c && d.headOk qid c && !d.crWait.any (fun u => u.unit == qid * 32 + c.tag) &&
  (if readType c.op then decide (0 < c.units) && gs.all (d.entHere s) && (d.flashReads c.fetched c.cls s (d.wantFlash s c.lba c.nblk) gs).1
   else if writeType c.op then decide (0 < c.units) && gs.all (d.entHere s) && (d.spaceTest qid c).isNone
   else (d.sliceHead s).isSome)

/-- The outstanding command whose host data movement is under way. -/
def Dev.moving (d : Dev) (qid tag : Nat) : Option Cmd := ((d.queue qid).cmd? tag).filter (d.accessing qid)

/-- A host memory access fails (R67): INVALID_FIELD, error 0x0100, DMA_ERR. -/
def Dev.dmaFail (d : Dev) (qid tag : Nat) : Dev :=
  match d.moving qid tag with
  | none => d
  | some c =>
    let s := qid / 16
    let h := (d.sliceHead s).getD (d.headByte s % 4)
    let d := d.capRecFree 0x16 h [6, qid, c.tag]
    ((d.recordErr 0x100 0x0100 s h).raise 0x100 5).complete qid c.tag stInvalidField 0

/-- HOST_ACCESS_FAIL: Unsupported Request or Completer Abort. -/
def doHostAccessFail (qid tag : Nat) (d : Dev) : Dev := d.dmaFail (qid % 16384) (tag % 32)
def execHostAccessFail (qid tag : Nat) (s : State) : Host.Outcome State Fault Refusal := act s (doHostAccessFail qid tag)

/-- HIF_DMA_TMO_EXPIRE: no completion within HIF_DMA_TMO milliseconds. -/
def doHifDmaTmoExpire (qid tag : Nat) (d : Dev) : Dev :=
  match d.moving (qid % 16384) (tag % 32) with
  | some c => if c.ioTick + d.fld Reg.HIF_DMA_TMO 15 0 * 1000000 ≤ d.tick then d.dmaFail (qid % 16384) (tag % 32) else d
  | none => d
def execHifDmaTmoExpire (qid tag : Nat) (s : State) : Host.Outcome State Fault Refusal := act s (doHifDmaTmoExpire qid tag)

/-- POISONED_COMPLETION (R68, R116): the host's data of a block of the write is poisoned; the write ends with DATA_POISONED, and INFO names
the block. -/
def doPoisonedCompletion (qid tag block : Nat) (d : Dev) : Dev :=
  let qid := qid % 16384
  match d.moving qid (tag % 32) with
  | none => d
  | some c => if c.op = opWrite then d.complete qid c.tag stPoisoned (block % max 1 c.nblk) else d
def execPoisonedCompletion (qid tag block : Nat) (s : State) : Host.Outcome State Fault Refusal := act s (doPoisonedCompletion qid tag block)

/-! ### The persistent window (R72 to R89) -/

/-- An access reaches the window at all: CXL.mem decodes and the head is up. -/
def Dev.memUp (d : Dev) (head : Nat) : Bool := d.barUp && d.headUp head && !d.dumping && !d.rpFence

/-- PWIN_LOAD (R75, R77, R83, R89).  Of an offset of 4 GiB or more ERR_INFO0 keeps the low 32 bits (DESIGN CHOICE, log 252). -/
def doPwinLoad (head off len : Nat) (m : Memory) (d : Dev) : Dev :=
  if d.rpFence then d.emit (.unsupportedRequest head)
  else if !d.memUp head || d.hifHeld then d
  else if !d.inWindow head off len true then (d.recordErr 0x101 0x0102 off head).emit .poison
  else if (unitsOf off len 64).any d.pwBad then d.emit .poison
  else d.emit (.readData (ofBytes ((Memory.readList windowDflt m off len).map BitVec.toNat)))
def execPwinLoad (head off len : Nat) (s : State) : Host.Outcome State Fault Refusal :=
  actWindow s (doPwinLoad head off len) (fun _ _ => [])

/-- This unit joins: until PAIRED what it caches stands in no other cache (R409). -/
def Dev.joins (d : Dev) : Bool := (d.twin == 2 || (d.twin == 1 && d.gPrev == 2)) && !d.serves

/-- A store completes now: its segment takes stores, while the twin is present no more than 4 MiB await mirroring (R83, R85), and a joiner takes
none before PAIRED (R86; DEDUCED, log 235). -/
def Dev.storeOk (d : Dev) (head off len : Nat) : Bool :=
  d.memUp head && !d.hifHeld && !d.joins && d.inWindow head off len false && (!d.paired || decide (d.pwUnmir + len ≤ 0x400000))

/-- PWIN_STORE (R75, R80, R84, R85, R89); ERR_INFO0 as for PWIN_LOAD (DESIGN CHOICE, log 252). -/
def doPwinStore (head off : Nat) (bytes : List Byte) (d : Dev) : Dev :=
  let len := bytes.length
  if d.rpFence then d.emit (.unsupportedRequest head)
  else if !d.memUp head || d.hifHeld || len = 0 then d
  else if !d.inWindow head off len false then d.recordErr 0x101 0x0102 off head
  else if !d.storeOk head off len then d
  else
    let full := (unitsOf off len 64).filter (fun l => decide (off ≤ 64 * l) && decide (64 * l + 64 ≤ off + len))
    let hit := full.any d.pwBad
    let base := 0x80000000 - d.segs * 2 ^ 22
    let d := d.pwCure full
    let d := if hit then { d with hbmPoison := d.hbmPoison.filter (fun x => decide (x < base) || !full.contains (x - base)) }.pwPoisonCount
      else d
    let d := if hit then d.setFld Reg.ECC_HBM_POISON 23 0 (satN 24 d.hbmPoison.length) else d
    let d := d.pwMark off len
    let d := if d.paired then { d with pwUnmir := d.pwUnmir + len } else d
    let d := if d.mirrors then d.sendGulon 0x14 (storeFs [(off, bytes)]) else d
    let d := d.capData 0x15 head 1 [(8, off), (2, len)] len (ofBytes (bytes.map BitVec.toNat))
    (d.emit .cxlDone).dumpSetWake
def execPwinStore (head off : Nat) (bytes : List Byte) (s : State) : Host.Outcome State Fault Refusal :=
  actWindow s (fun _ d => doPwinStore head off bytes d)
    (fun _ d => if d.storeOk head off bytes.length then [(off, bytes)] else [])

/-- The eight blocks of a window granule as a write-back places them: ciphertext, or poison where a line of the block is
poisoned (R89). -/
def Dev.pwBlocks (d : Dev) (m : Memory) (g s lba keyidx apptag invoc : Nat) : SMap Blk :=
  (List.range 8).map (fun k =>
    let off := g * 32768 + 4096 * k
    let data := ofBytes ((Memory.readList windowDflt m off 4096).map BitVec.toNat)
    (k, if (unitsOf off 4096 64).any d.pwBad then poisonBlk
        else
          let e := d.encBlk s (lba + k) keyidx apptag data (invoc + k)
          { data := e.1, sl := mkSeal s (lba + k) apptag 2 data, crec := e.2, poison := false }))

/-- PWIN_WRITEBACK (R79, R80, R82, R516): a dirty granule's copy is placed as a version that no block read sees until it
commits (R81). -/
def doPwinWriteback (granule : Nat) (m : Memory) (d : Dev) : Dev :=
  let n := granule / 8192
  match d.pwDirty.find granule with
  | none => d
  | some x =>
    if x.copying || d.health = 3 || d.hifStop || d.cryHeld || d.mapHeld || d.dumping || !d.segActive n || 32 ≤ n || !d.released || !d.mayTake 3 8 then d
    else
      let s := d.fld (Reg.SEG_CTL n) 13 4
      let keyidx := d.fld (Reg.SEG_CTL n) 15 14
      let apptag := d.fld (Reg.SEG_CTL n) 31 16
      let lba := d.segLba n + 8 * (granule % 8192)
      let k := 4 * s + keyidx
      let key := d.ctx k
      let gcm := key.mode == 2
      let invoc := key.invocOf d.side
      if key.st ≠ .valid ∨ (gcm ∧ 2 ^ 32 < invoc + 8) then
        { d with pwDirty := SMap.insert d.pwDirty granule { x with first := d.tick } }.raise 0x101 7
      else
        let d := if gcm then d.reserveInvoc k 8 else d
        let d := d.inc Reg.CRY_UNITS_ENC ((d.pwBlocks m granule s lba keyidx apptag invoc).filter (fun kb => !kb.2.poison)).length
        let g := lba / 8
        let v : Ver := { slice := s, granule := g, gver := d.nextGver s g, cls := 3, qid := 16 * s, tag := 0, pwin := true,
                         posted := false, postNo := 0, stage := .single, mnum := 0, blks := d.pwBlocks m granule s lba keyidx apptag invoc,
                         wrote := List.range 8, src := [], loc := none }
        ({ d with pwDirty := pwCopied d.pwDirty granule }.putVer v).revalid
def execPwinWriteback (granule : Nat) (s : State) : Host.Outcome State Fault Refusal :=
  actWindow s (doPwinWriteback granule) (fun _ _ => [])

/-- PWIN_RESIZE (R73): refused with error 0x0103 while a segment is active. -/
def doPwinResize (v : Word) (d : Dev) : Dev :=
  regWrite d Reg.HIF_PWIN_CTL v (fun new d =>
    let n := bits new 5 0
    if n = d.segs then d
    else if 32 < n || (List.range 32).any d.segActive then d.recordErr 0x101 0x0103 0x100 v.toNat
    else ((storeReg Reg.HIF_PWIN_CTL new d).resizeCache n).setFlag Reg.HIF_PWIN_STS 0 (decide (0 < n)))
def execPwinResize (v : Word) (s : State) : Host.Outcome State Fault Refusal := act s (doPwinResize v)

/-- A segment still has dirty granules. -/
def Dev.segDirty (d : Dev) (n : Nat) : Bool := d.pwDirty.any (fun kv => kv.1 / 8192 == n)

/-- A write of SEG_CTL (R78, R83): SLICE, HEAD, KEYIDX and APPTAG change only while ACTIVE = 0; EN = 1 needs a backing range
that starts at a multiple of 65,536 within the slice's quota and an APPTAG other than 0xFFFF. -/
def Dev.segWrite (d : Dev) (n : Nat) (v : Word) : Dev :=
  regWrite d (Reg.SEG_CTL n) v (fun new d =>
    let old := d.reg (Reg.SEG_CTL n)
    let refuse (d : Dev) : Dev := d.recordErr 0x101 0x0103 (0x200 + 0x10 * n) v.toNat
    let moved := bits new 31 1 ≠ bits old 31 1
    let lba := d.segLba n
    if d.segActive n && moved then
      if bitAt new 0 then refuse d else (refuse d).setFlag (Reg.SEG_CTL n) 0 false
    else if bitAt new 0 && !bitAt old 0 then
      if lba % 65536 ≠ 0 || (d.slice (bits new 13 4)).blks < lba + 65536 || bits new 31 16 = 0xFFFF then refuse d
      else (storeReg (Reg.SEG_CTL n) new d).setFlag (Reg.SEG_STS n) 0 true
    else storeReg (Reg.SEG_CTL n) new d)

/-- ACTIVE falls once a segment with EN = 0 has no dirty granule (R83). -/
def Dev.segRest (d : Dev) (n : Nat) : Dev :=
  if d.segActive n && !d.flag (Reg.SEG_CTL n) 0 && !d.segDirty n then d.setFlag (Reg.SEG_STS n) 0 false else d

/-- SEG_ENABLE (R78). -/
def doSegEnable (n : Nat) (v : Word) (d : Dev) : Dev := (d.segWrite (n % 32) (v ||| 1)).segRest (n % 32)
def execSegEnable (n : Nat) (v : Word) (s : State) : Host.Outcome State Fault Refusal := act s (doSegEnable n v)

/-- SEG_DISABLE (R83): stores are out of segment from now on; the dirty granules are written back. -/
def doSegDisable (n : Nat) (v : Word) (d : Dev) : Dev := (d.segWrite (n % 32) (v &&& ~~~1)).segRest (n % 32)
def execSegDisable (n : Nat) (v : Word) (s : State) : Host.Outcome State Fault Refusal := act s (doSegDisable n v)

/-- SEG_DRAINED (R83). -/
def doSegDrained (n : Nat) (d : Dev) : Dev := d.segRest (n % 32)
def execSegDrained (n : Nat) (s : State) : Host.Outcome State Fault Refusal := act s (doSegDrained n)

/-! ### Global Persistent Flush (R86, R87, R397) -/

/-- Phase 2 completes: with the twin absent on the local copy, which is recorded. -/
def Dev.gpfDone (d : Dev) : Dev :=
  let single := !d.paired
  let d := (d.setFlag Reg.HIF_GPF_STS 1 true).setFlag Reg.HIF_GPF_STS 2 single
  let d := (d.incFld Reg.HIF_GPF_STS 31 16 1).raise 0x100 4
  let d : Dev := { d with gpfRun := false }
  if single then d.event 0 else d

/-- A message of the link carries a store that the flush must commit: a WSTORE sent before Phase 1, of a segment whose head is up (Table
HIF-3: the flush does not reach the others). -/
def Dev.gpfNeeds (d : Dev) (m : GSent) : Bool :=
  m.kind == 0x14 && decide (m.mnum < d.gpfMark) && d.headUp (d.fld (Reg.SEG_CTL ((m.words.getD 0 (0, 0)).2 / 2 ^ 28)) 2 1)

/-- Complete a running Phase 2 once ACK covers every message that carries stores made before Phase 1, or the twin is absent. -/
def Dev.gpfTry (d : Dev) : Dev :=
  if d.gpfRun && (!d.paired || !d.gPend.any d.gpfNeeds) then d.gpfDone else d

/-- A head is up: a Global Persistent Flush has a link to arrive on. -/
def Dev.anyHead (d : Dev) : Bool := [0, 1, 2, 3].any d.headUp

/-- The head that a Global Persistent Flush is recorded under: the lowest one that is up (DESIGN CHOICE, log 233). -/
def Dev.gpfHead (d : Dev) : Nat := ([0, 1, 2, 3].find? d.headUp).getD 0

/-- GPF_PHASE1: fixes the stores that Phase 2 must commit. -/
def doGpfPhase1 (d : Dev) : Dev :=
  if !d.barUp || !d.anyHead then d
  else
    let d := (((d.capRecFree 0x16 d.gpfHead [5, 1]).setFlag Reg.HIF_GPF_STS 0 true).setFlag Reg.HIF_GPF_STS 1 false).setFlag Reg.HIF_GPF_STS 2 false
    { d with gpfMark := d.gTx, gpfRun := false }
def execGpfPhase1 (s : State) : Host.Outcome State Fault Refusal := act s doGpfPhase1

/-- GPF_PHASE2. -/
def doGpfPhase2 (d : Dev) : Dev :=
  if !d.barUp || d.hifHeld || !d.anyHead then d
  else { d.capRecFree 0x16 d.gpfHead [5, 2] with gpfMark := if d.flag Reg.HIF_GPF_STS 0 then d.gpfMark else d.gTx, gpfRun := true }.gpfTry
def execGpfPhase2 (s : State) : Host.Outcome State Fault Refusal := act s doGpfPhase2

/-! ### IDE (R90, R91) -/

/-- One stream of a head: stream 0 is CXL.io, 1 is CXL.cachemem. -/
def Dev.ideOf (d : Dev) (k : Nat) : Ide := SMap.get (fun _ => Ide.reset) d.ide k
def Dev.setIde (d : Dev) (k : Nat) (x : Ide) : Dev := { d with ide := SMap.set (fun _ => Ide.reset) d.ide k x }

/-- IDE_KM_KEY_PROGRAM: a fresh key, inside an SPDM session only; a key that the stream has had before is not taken again, which would
repeat its invocation values (R90). -/
def doIdeKmKeyProgram (head stream key : Nat) (spdm : Bool) (d : Dev) : Dev :=
  let h := head % 4
  let k := 256 * h + stream % 256
  let used := SMap.get (fun _ => []) d.ideUsed k
  if !spdm || !d.headUp h || used.contains key then d
  else
    let d := d.capRecFree 0x16 h [7, stream % 256]
    let d : Dev := { d.setIde k { key := key, live := true, stopped := false, insecure := false } with ideUsed := SMap.insert d.ideUsed k (key :: used) }
    if stream % 256 < 2 then d.setFlag (Reg.HIF_LINK_STS h) (8 + stream % 256) true else d
def execIdeKmKeyProgram (head stream key : Nat) (spdm : Bool) (s : State) : Host.Outcome State Fault Refusal :=
  act s (doIdeKmKeyProgram head stream key spdm)

/-- IDE_EXHAUST: the stream stops. -/
def doIdeExhaust (head stream : Nat) (d : Dev) : Dev :=
  let h := head % 4
  let k := 256 * h + stream % 256
  let x := d.ideOf k
  if x.live then
    let d := d.capRecFree 0x16 h [4, stream % 256]
    let d := d.setIde k { x with live := false, stopped := true }
    let d := if stream % 256 < 2 then d.setFlag (Reg.HIF_LINK_STS h) (8 + stream % 256) false else d
    d.raise 0x100 3
  else d
def execIdeExhaust (head stream : Nat) (s : State) : Host.Outcome State Fault Refusal := act s (doIdeExhaust head stream)

/-- IDE_INTEGRITY_FAIL: the stream is insecure, the head goes down, error 0x0101. -/
def doIdeIntegrityFail (head stream : Nat) (d : Dev) : Dev :=
  let h := head % 4
  let k := 256 * h + stream % 256
  let x := d.ideOf k
  if x.live then
    let d := (d.capRecFree 0x16 h [3, stream % 256]).setIde k { x with live := false, insecure := true }
    ((d.recordErr 0x100 0x0101 h (stream % 256)).raise 0x100 2).takeHeadDown h
  else d
def execIdeIntegrityFail (head stream : Nat) (s : State) : Host.Outcome State Fault Refusal := act s (doIdeIntegrityFail head stream)

/-! ### Precision time measurement (R92, R93) -/

/-- Change the PTM lock. -/
def Dev.ptmLock (d : Dev) (b : Bool) : Dev :=
  if d.flag Reg.HIF_PTM_STS 0 = b then d
  else
    let d := (d.setFlag Reg.HIF_PTM_STS 0 b).raise 0x100 1
    if b then d else d.incFld Reg.HIF_PTM_STS 31 16 1

/-- PTM_DIALOGUE: `offset` is the trick clock's offset from host time, `residual` what is left of it after correction, both in
ns; its four stamps, which the capture record holds, are free values (DESIGN CHOICE, log 233).  A leader that is locked takes the correction (R227, R228); with PTM_EN = 0 the lock is measured and nothing more. -/
def doPtmDialogue (offset residual : Int) (delay : Nat) (d : Dev) : Dev :=
  if !d.flag Reg.HIF_PTM_CTL 0 || !d.headUp (d.fld Reg.HIF_PTM_CTL 2 1) || d.hifHeld then d
  else
    let d := (d.capAdd 0x29 0 0 [] 32 d.freeVal).drawn
    let good := decide (residual.natAbs ≤ 8)
    let g := if good then satN 4 (d.fld Reg.HIF_PTM_STS 7 4 + 1) else 0
    let d : Dev := { d with ptmBad := if good then 0 else d.ptmBad + 1, ptmLast := d.tick, ptmGood := g }
    let d := ((d.setFld Reg.HIF_PTM_STS 7 4 g).setReg Reg.HIF_PTM_OFS (wInt residual)).setReg Reg.HIF_PTM_PDELAY (w32 delay)
    let d := d.score 14 (1000 * residual.natAbs) none none none
    let d := if 8 ≤ g then d.ptmLock true else if 3 ≤ d.ptmBad then d.ptmLock false else d
    if d.ptmLocked && d.flag Reg.DLR_TIME_STS 4 then Dev.timeChange d ((d.correct offset).timeLock 8)
    else if d.flag Reg.HIF_PTM_STS 0 && !d.flag Reg.DLR_TIME_CTL 0 then d.setReg Reg.DLR_TIME_OFS (wInt offset)
    else d
def execPtmDialogue (offset residual : Int) (delay : Nat) (s : State) : Host.Outcome State Fault Refusal :=
  act s (doPtmDialogue offset residual delay)

/-- PTM_TIMEOUT: a lock with no completed dialogue for 1 s. -/
def doPtmTimeout (d : Dev) : Dev :=
  if d.flag Reg.HIF_PTM_STS 0 && decide (d.ptmLast + 1000000000 ≤ d.tick) then
    let d : Dev := { (d.ptmLock false).setFld Reg.HIF_PTM_STS 7 4 0 with ptmGood := 0 }
    d.recordErr 0x100 0x0104 (d.fld Reg.HIF_PTM_CTL 2 1) 0
  else d
def execPtmTimeout (s : State) : Host.Outcome State Fault Refusal := act s doPtmTimeout

/-! ### Sideband and mailbox -/

/-- MCTP_MESSAGE (R94, R95): served by type in RUN, IDLE and SLEEP (0 MCTP control, 1 PLDM, 5 SPDM, 0x7F Vendor Defined –
IANA); every other type is dropped and counted.  The sensors' upper critical and fatal thresholds are 105 °C and 115 °C (R554). -/
def doMctpMessage (kind : Nat) (d : Dev) : Dev :=
  if 2 < d.mode || !d.flag Reg.HIF_I3C_CTL 7 then d
  else if kind = 0 ∨ kind = 5 then d.emit (.mctp kind [])
  else if kind = 1 then d.emit (.mctp kind [d.health, Config.sensor 0, Config.sensor 1, Config.sensor 2, 105, 115])
  else if kind = 0x7F then d.emit (.mctp kind (d.healthReport none))
  else d.incFld Reg.HIF_I3C_STS 31 16 1
def execMctpMessage (kind : Nat) (s : State) : Host.Outcome State Fault Refusal := actAo s (doMctpMessage kind)

/-- A mailbox command runs while BAR2 decodes; its return code and payload go to the host. -/
def Dev.mailbox (d : Dev) (code : Nat) (words : List Nat) (f : Dev → Dev) : Dev :=
  if d.barUp && !d.hifHeld then (f d).emit (.mailbox code words) else d

/-- IDENTIFY_MEMORY_DEVICE: the capacity in 256 MiB units, all of it persistent. -/
def doIdentifyMemoryDevice (d : Dev) : Dev := d.mailbox 0 [d.segs, 0, d.segs] id
def execIdentifyMemoryDevice (s : State) : Host.Outcome State Fault Refusal := act s doIdentifyMemoryDevice

/-- GET_HEALTH_INFO (R88): the level, the temperature, the alert setting and the Dirty Shutdown Count. -/
def doGetHealthInfo (d : Dev) : Dev :=
  d.mailbox 0 [d.health, Config.sensor 0, d.shutState, d.fld Reg.HIF_DIRTY_SHUT 31 0] id
def execGetHealthInfo (s : State) : Host.Outcome State Fault Refusal := act s doGetHealthInfo

/-- ALERT_CONFIGURATION: reads, or sets and reads, the alert configuration. -/
def doAlertConfiguration (set : Option Nat) (d : Dev) : Dev :=
  let x := if set.isSome then set else d.alertSet
  d.mailbox 0 [x.getD 0] (fun d => { d with alertSet := x })
def execAlertConfiguration (set : Option Nat) (s : State) : Host.Outcome State Fault Refusal := act s (doAlertConfiguration set)

/-- GET_POISON_LIST (R89): the window offsets of the poisoned lines. -/
def doGetPoisonList (d : Dev) : Dev := d.mailbox 0 (d.pwBadLines.map (fun l => 64 * l)) id
def execGetPoisonList (s : State) : Host.Outcome State Fault Refusal := act s doGetPoisonList

/-- GET_EVENT_RECORDS (R87, R517): code and tick of each record. -/
def doGetEventRecords (d : Dev) : Dev := d.mailbox 0 (d.events.flatMap (fun e => [e.code, e.tick])) id
def execGetEventRecords (s : State) : Host.Outcome State Fault Refusal := act s doGetEventRecords

/-- CLEAR_EVENT_RECORDS: the `n` oldest records go. -/
def doClearEventRecords (n : Nat) (d : Dev) : Dev := d.mailbox 0 [] (fun d => { d with events := d.events.drop n })
def execClearEventRecords (n : Nat) (s : State) : Host.Outcome State Fault Refusal := act s (doClearEventRecords n)

/-- SET_SHUTDOWN_STATE. -/
def doSetShutdownState (v : Nat) (d : Dev) : Dev := d.mailbox 0 [] (fun d => { d with shutState := v })
def execSetShutdownState (v : Nat) (s : State) : Host.Outcome State Fault Refusal := act s (doSetShutdownState v)

/-- MAILBOX_UNSUPPORTED (R64): any opcode that Table HIF-2 does not name returns Unsupported (CXL return code 0x15). -/
def doMailboxUnsupported (opcode : Nat) (d : Dev) : Dev :=
  if [0x0100, 0x0101, 0x4000, 0x4200, 0x4201, 0x4202, 0x4204, 0x4300].contains opcode then d else d.mailbox 0x15 [opcode] id
def execMailboxUnsupported (opcode : Nat) (s : State) : Host.Outcome State Fault Refusal := act s (doMailboxUnsupported opcode)

/-! ### Slice heads (R97, R98) -/

/-- A slice's byte names heads that exist. -/
def Dev.headByteOk (d : Dev) (b : Nat) : Bool := d.headExists (b % 4) && d.headExists (b / 4 % 4)

/-- SLICE_HEAD_WRITE (R98): refused whole, with error 0x0105 for the first byte that names a head that does not exist. -/
def doSliceHeadWrite (w : Nat) (v : Word) (d : Dev) : Dev :=
  let w := w % 256
  regWrite d (Reg.HIF_SLICE_HEAD w) v (fun new d =>
    match (List.range 4).find? (fun i => !d.headByteOk (bits new (8 * i + 7) (8 * i))) with
    | some i => d.recordErr 0x102 0x0105 (4 * w + i) (bits v (8 * i + 7) (8 * i))
    | none =>
      let ss := (List.range 4).filter (fun i => bits new (8 * i + 7) (8 * i) != d.headByte (4 * w + i))
      let d := ss.foldl (fun (d : Dev) i => d.setSlice (4 * w + i) { d.slice (4 * w + i) with headTick := d.tick }) d
      ((storeReg (Reg.HIF_SLICE_HEAD w) new d).movesFrom (fun s => s / 4 == w)).releaseAllHeld)
def execSliceHeadWrite (w : Nat) (v : Word) (s : State) : Host.Outcome State Fault Refusal := act s (doSliceHeadWrite w v)

end Sys2Proof.Machine
end

