-- ==== Sys2Proof/Machine/Bridge.lean ====
section
/-! DEFINITION. The bridge behind a flash port (chapter 09): the checks of R260 to R262 and R272 to R281, the arms, and
what fires at a trick mark. -/

namespace Sys2Proof.Machine

/-! ### Status codes (Table LNK-7) -/

def bsNotErased : Nat := 0x02
def bsNotOwner : Nat := 0x03
def bsBusy : Nat := 0x04
def bsBadAddr : Nat := 0x05
def bsSusLimit : Nat := 0x06
def bsIdle : Nat := 0x07
def bsBufEmpty : Nat := 0x09
def bsLate : Nat := 0x0A
def bsBadArg : Nat := 0x0B

/-! ### Dies -/

def Bridge.die (b : Bridge) (i : Nat) : BDie := SMap.get (fun _ => BDie.reset) b.dies i
def Bridge.setDie (b : Bridge) (i : Nat) (x : BDie) : Bridge := { b with dies := SMap.set (fun _ => BDie.reset) b.dies i x }

/-- An operation, an arm or an unprogrammed buffer is outstanding (R278, R281). -/
def Bridge.outstanding (b : Bridge) : Bool := !b.arms.isEmpty || !b.bufs.isEmpty || b.dies.any (fun kv => kv.2.busy)

/-- STATUS byte 6 (Table LNK-6). -/
def DieSt.code : DieSt → Nat
  | .idle => 0 | .reading => 1 | .programming => 2 | .erasing => 3 | .suspended => 4 | .failed => 5 | .absent => 6

/-- The key of a block's next-page record in one plane. -/
def nextKey (die plane block : Nat) : Nat := die * 2 ^ 14 + plane * 2 ^ 12 + block

/-- The planes of a mask. -/
def planesOf (mask : Nat) : List Nat := (List.range 4).filter (fun i => mask.testBit i)

/-! ### Responses and checks -/

/-- A response of the bridge on the port a command came from (Table LNK-4); ONFI is the byte last read from the command's die. -/
def Dev.respond (d : Dev) (p : Nat) (c : BCmd) (opc status : Nat) (rargs : List Nat) : Dev :=
  let die := opc == 0x82 || opc == 0x86 || opc == 0x8F
  d.emit (.response p (c.side % 2) opc status (c.tag % 4096) (if die then ((d.bridge p).die (c.die % 64)).onfi else 0) 0 rargs)

/-- REFUSE. -/
def Dev.refuseCmd (d : Dev) (p : Nat) (c : BCmd) (opc status : Nat) : Dev := d.respond p c 0x8F status [opc]

/-- Blocks per plane that the bridge reports; its 12-bit field shows 4,096 as 0. -/
def Dev.bridgeBlocks (d : Dev) (p : Nat) : Nat :=
  if d.fld (Reg.FCH_P_GEOM p) 11 0 = 0 then 4096 else d.fld (Reg.FCH_P_GEOM p) 11 0

/-- The address limits of R262. -/
def Dev.addrBad (d : Dev) (p : Nat) (c : BCmd) (die block page : Bool) : Bool :=
  (die && ((d.bridge p).die (c.die % 64)).st == .absent) ||
  (block && (decide (d.bridgeBlocks p ≤ c.block % 4096) || c.planes % 16 == 0)) ||
  (page && decide ((if c.slc then 768 else 3072) ≤ c.page % 4096))

/-- A header field that the command does not use is nonzero (R260): arms alone use LEAD and TRICK; reads, programs and erases use SLC, PLANES and BLOCK,
the first two PAGE; DIE is the die commands'. -/
def cmdUnused (c : BCmd) (opc : Nat) : Bool :=
  c.junk ||
  (5 < opc && (c.lead || c.trick % 65536 != 0)) ||
  (3 < opc && (c.slc || c.planes % 16 != 0 || c.block % 4096 != 0)) ||
  (2 < opc && c.page % 4096 != 0) ||
  (7 < opc && c.die % 64 != 0)

/-- The bridge receives a command: ON any, in RET those of its token and of its power (R280, R434), in OFF none (Table LNK-9). -/
def Bridge.hears (b : Bridge) (opc : Nat) : Bool :=
  b.power == 0 || (b.power == 1 && (opc == 0x08 || opc == 0x09 || opc == 0x0A))

/-- Carry out a command that reaches the bridge, or refuse it: the token (R275), the arming and field rules (R260, R261),
then the address (R262). -/
def Dev.bridgeCmd (d : Dev) (port : Nat) (c : BCmd) (opc : Nat) (armed owner badArg die block page : Bool) (go : Nat → Dev → Dev) : Dev :=
  let p := port % 512
  let b := d.bridge p
  if !b.hears opc then d
  else
    let mine := b.holder == c.side % 2 + 1
    let d := if mine then d.setBridge p { b with heard := c.seq % 4096 } else d
    if owner && !mine then d.refuseCmd p c opc bsNotOwner
    else if c.arm != armed || cmdUnused c opc || badArg then d.refuseCmd p c opc bsBadArg
    else if d.addrBad p c die block page then d.refuseCmd p c opc bsBadAddr
    else go p d

/-- An armed command (R265): for the next trick it is held; for the next trick after its cut, or for the trick in progress,
it is late and discarded without a response; any other trick is refused with LATE. -/
def Dev.armCmd (d : Dev) (port : Nat) (c : BCmd) (opc arg : Nat) (badArg block page : Bool) : Dev :=
  d.bridgeCmd port c opc true true badArg true block page (fun p d =>
    let b := d.bridge p
    let next := (b.trick + 1) % 65536
    if c.trick % 65536 = next then
      if b.cutFor = some next then d
      else
        let a : BArm := { side := c.side % 2, seq := c.seq % 4096, trick := next, lead := c.lead, opc := opc, tag := c.tag % 4096,
                          die := c.die % 64, planes := c.planes % 16, block := c.block % 4096, page := c.page % 4096,
                          slc := c.slc, arg := arg, cut := false }
        d.setBridge p { b with arms := b.arms ++ [a] }
    else if c.trick % 65536 = b.trick then d
    else d.refuseCmd p c opc bsLate)

/-! ### The commands -/

/-- DIE_READ (R263, R264, R274). -/
def doDieRead (port : Nat) (c : BCmd) (cwMask oslot : Nat) (soft : Bool) (d : Dev) : Dev :=
  d.armCmd port c 0x01 (cwMask % 16 + 16 * soft.toNat + 32 * (oslot % 8)) false true true
def execDieRead (port : Nat) (c : BCmd) (cwMask oslot : Nat) (soft : Bool) (s : State) : Host.Outcome State Fault Refusal :=
  actBoard s (doDieRead port c cwMask oslot soft)

/-- DIE_PROGRAM (R272, R273). -/
def doDieProgram (port : Nat) (c : BCmd) (buf : Nat) (d : Dev) : Dev := d.armCmd port c 0x02 (buf % 32) false true true
def execDieProgram (port : Nat) (c : BCmd) (buf : Nat) (s : State) : Host.Outcome State Fault Refusal := actBoard s (doDieProgram port c buf)

/-- DIE_ERASE (R272). -/
def doDieErase (port : Nat) (c : BCmd) (d : Dev) : Dev := d.armCmd port c 0x03 0 false true false
def execDieErase (port : Nat) (c : BCmd) (s : State) : Host.Outcome State Fault Refusal := actBoard s (doDieErase port c)

/-- DIE_SUSPEND (R274). -/
def doDieSuspend (port : Nat) (c : BCmd) (d : Dev) : Dev :=
  d.armCmd port c 0x04 0 false false false
def execDieSuspend (port : Nat) (c : BCmd) (s : State) : Host.Outcome State Fault Refusal := actBoard s (doDieSuspend port c)

/-- DIE_RESUME (R274). -/
def doDieResume (port : Nat) (c : BCmd) (d : Dev) : Dev :=
  d.armCmd port c 0x05 0 false false false
def execDieResume (port : Nat) (c : BCmd) (s : State) : Host.Outcome State Fault Refusal := actBoard s (doDieResume port c)

/-- DIE_STATUS (R278, Table LNK-6): for the holder the bridge reads the die, whose status byte and temperature are the operands; the other port is
answered from the bridge's record.  An absent die reports ABSENT. -/
def doDieStatus (port : Nat) (c : BCmd) (info : Bool) (onfi : Nat) (temp : Int) (d : Dev) : Dev :=
  d.bridgeCmd port c 0x06 false false false false false false (fun p d =>
    let b := d.bridge p
    let i := c.die % 64
    let x := b.die i
    let x := if b.holder = c.side % 2 + 1 ∧ x.st ≠ .absent then { x with onfi := onfi % 256, temp := temp } else x
    let dies := ((List.range 64).filter (fun j => (b.die j).st != .absent)).length
    (d.setBridge p (b.setDie i x)).respond p c 0x86 0 ([x.st.code, x.sus, x.lastTag, x.lastSt, (x.temp % 256).toNat] ++
      if info then [Config.bridgeModel p % 65536, Config.bridgeFirmware p % 65536, d.bridgeBlocks p, dies, Config.bridgeTa p % 65536] else []))
def execDieStatus (port : Nat) (c : BCmd) (info : Bool) (onfi : Nat) (temp : Int) (s : State) : Host.Outcome State Fault Refusal :=
  actBoard s (doDieStatus port c info onfi temp)

/-- SET_OFFSETS (R264): slot 0 to 6 of the die takes sixty offsets. -/
def doSetOffsets (port : Nat) (c : BCmd) (oslot : Nat) (ofs : List Int) (d : Dev) : Dev :=
  d.bridgeCmd port c 0x07 false true (oslot % 8 == 7) true false false (fun p d =>
    let b := d.bridge p
    let v := (List.range 60).map (fun i => (BitVec.ofInt 12 (ofs.getD i 0)).toInt)
    (d.setBridge p { b with slots := SMap.insert b.slots (c.die % 64 * 8 + oslot % 8) v }).respond p c 0x82 0 [0x07, 0, 0])
def execSetOffsets (port : Nat) (c : BCmd) (oslot : Nat) (ofs : List Int) (s : State) : Host.Outcome State Fault Refusal :=
  actBoard s (doSetOffsets port c oslot ofs)

/-- FENCE `a` is newer than `b`: R194 with the half-range 2^15 (R276). -/
def fenceNewer (a b : Nat) : Bool :=
  let n := (a + 2 ^ 16 - b % 2 ^ 16) % 2 ^ 16
  decide (1 ≤ n) && decide (n < 2 ^ 15)

/-- This controller finds that the twin has taken a bridge (R277, R400): error 0x0104, OWN_CHG, and FENCED unless LOST. -/
def Dev.ownLost (d : Dev) (p fence : Nat) : Dev :=
  if d.fld (Reg.FCH_P_STS p) 4 3 = 1 then
    let old := d.fld (Reg.FCH_P_STS p) 31 16
    let d := ((d.setFld (Reg.FCH_P_STS p) 4 3 2).setFld (Reg.FCH_P_STS p) 31 16 fence)
    ((d.recordErr (0x800 + p) 0x0104 old fence).raise (0x800 + p) 3).fenced
  else d

/-- OWN_TAKE (R276, R277). -/
def doOwnTake (port : Nat) (c : BCmd) (fence : Nat) (force : Bool) (d : Dev) : Dev :=
  d.bridgeCmd port c 0x08 false false false false false false (fun p d =>
    let b := d.bridge p
    let f := fence % 65536
    let me := c.side % 2 + 1
    if if force then fenceNewer f b.fence else b.holder == 0 then
      let b' := if force then
          { b with arms := [], bufs := [],
                   dies := b.dies.map (fun (kv : Nat × BDie) => (kv.1, { kv.2 with orphan := kv.2.busy })) }
        else b
      let d := d.setBridge p { b' with holder := me, fence := f }
      let d := d.respond p c 0x88 0 [me, f]
      if b.holder = d.side + 1 ∧ me ≠ d.side + 1 then d.ownLost p f else d
    else d.respond p c 0x88 bsNotOwner [b.holder, b.fence])
def execOwnTake (port : Nat) (c : BCmd) (fence : Nat) (force : Bool) (s : State) : Host.Outcome State Fault Refusal :=
  actBoard s (doOwnTake port c fence force)

/-- OWN_RELEASE (R278). -/
def doOwnRelease (port : Nat) (c : BCmd) (d : Dev) : Dev :=
  d.bridgeCmd port c 0x09 false true false false false false (fun p d =>
    let b := d.bridge p
    if b.outstanding then d.refuseCmd p c 0x09 bsBusy
    else (d.setBridge p { b with holder := 0 }).respond p c 0x88 0 [0, b.fence])
def execOwnRelease (port : Nat) (c : BCmd) (s : State) : Host.Outcome State Fault Refusal := actBoard s (doOwnRelease port c)

/-- BRIDGE_POWER (R280, R281): OFF loses the offset slots. -/
def doBridgePower (port : Nat) (c : BCmd) (state : Nat) (d : Dev) : Dev :=
  d.bridgeCmd port c 0x0A false true (decide (2 < state)) false false false (fun p d =>
    let b := d.bridge p
    if b.outstanding then d.refuseCmd p c 0x0A bsBusy
    else (d.setBridge p { b with power := state, slots := if state = 2 then [] else b.slots }).respond p c 0x8A 0 [state])
def execBridgePower (port : Nat) (c : BCmd) (state : Nat) (s : State) : Host.Outcome State Fault Refusal :=
  actBoard s (doBridgePower port c state)

/-- LANE_TEST (R283): the STAMP comes back; modes 1 and 2 report the bit errors met. -/
def doLaneTest (port : Nat) (c : BCmd) (mode dur stamp errors : Nat) (d : Dev) : Dev :=
  d.bridgeCmd port c 0x0B false false (decide (2 < mode) || decide (255 < dur)) false false false (fun p d =>
    d.respond p c 0x8B 0 [stamp % 2 ^ 64, if mode = 0 then 0 else errors % 2 ^ 64])
def execLaneTest (port : Nat) (c : BCmd) (mode dur stamp errors : Nat) (s : State) : Host.Outcome State Fault Refusal :=
  actBoard s (doLaneTest port c mode dur stamp errors)

/-- PDATA (R273): a buffer that holds data not yet programmed is refused with BUSY. -/
def doPdata (port : Nat) (c : BCmd) (buf content : Nat) (d : Dev) : Dev :=
  d.bridgeCmd port c 0x0C false true (decide (31 < buf)) false false false (fun p d =>
    let b := d.bridge p
    if (b.bufs.find buf).isSome then d.refuseCmd p c 0x0C bsBusy
    else d.setBridge p { b with bufs := SMap.insert b.bufs buf content })
def execPdata (port : Nat) (c : BCmd) (buf content : Nat) (s : State) : Host.Outcome State Fault Refusal :=
  actBoard s (doPdata port c buf content)

/-! ### The trick mark (R265 to R269) -/

/-- ARM_CONFIRM_CUT (R265): the arms held for the next trick are confirmed, and CUT is the highest SEQ of them; with none it is the SEQ of the last message
that the holder's port brought, which any later arm follows (DESIGN CHOICE, log 243). -/
def doArmConfirmCut (port : Nat) (d : Dev) : Dev :=
  let p := port % 512
  let b := d.bridge p
  let next := (b.trick + 1) % 65536
  if b.power ≠ 0 ∨ b.cutFor = some next then d
  else
    let mine := b.arms.filter (fun a => a.trick == next)
    let cut := mine.foldl (fun m a => if (a.seq + 4096 - m) % 4096 < 2048 then a.seq else m) ((mine.head?.map (·.seq)).getD b.heard)
    d.setBridge p { b with arms := b.arms.map (fun a => if a.trick == next then { a with cut := true } else a),
                           cutSeq := cut, cutFor := some next }
def execArmConfirmCut (port : Nat) (s : State) : Host.Outcome State Fault Refusal := actBoard s (doArmConfirmCut port)

/-- The command an arm stands for, for its responses. -/
def BArm.cmd (a : BArm) : BCmd :=
  { side := a.side, seq := a.seq, arm := true, lead := a.lead, slc := a.slc, tag := a.tag, trick := a.trick, die := a.die,
    planes := a.planes, block := a.block, page := a.page, junk := false }

/-- Launch one operation (R272 to R274), or refuse it before anything reaches the die; a read uses the offsets of its zone in the slot that it names
(R264).  A suspend of a die that reads or is suspended, and a resume of one that reads, get BUSY (DESIGN CHOICE, log 257). -/
def Dev.fireArm (d : Dev) (p : Nat) (a : BArm) : Dev :=
  let b := d.bridge p
  let x := b.die a.die
  let refuse (st : Nat) : Dev := d.refuseCmd p a.cmd a.opc st
  let keys := (planesOf a.planes).map (fun pl => nextKey a.die pl a.block)
  match a.opc with
  | 0x01 =>
    let zone := min 3 (if a.slc then a.page / 192 else a.page / 768)
    if x.rdTag.isSome ∨ (x.st ≠ .idle ∧ x.st ≠ .suspended) then refuse bsBusy
    else d.setBridge p (b.setDie a.die { x with
      rdTag := some a.tag, st := if x.st = .idle then .reading else x.st
      rdOfs := ((SMap.get (fun _ => []) b.slots (a.die * 8 + a.arg / 32)).drop (15 * zone)).take 15 })
  | 0x02 =>
    if x.busy ∨ x.st = .failed then refuse bsBusy
    else if (b.bufs.find a.arg).isNone then refuse bsBufEmpty
    else if !keys.all (fun k => b.next.find k == some (a.page + 1)) then refuse bsNotErased
    else
      let b := { b with next := keys.foldl (fun m k => SMap.insert m k (a.page + 2)) b.next }
      d.setBridge p (b.setDie a.die { x with st := .programming, tag := a.tag, opc := 2, block := a.block, page := a.page,
                                             planes := a.planes, buf := a.arg, sus := 0, orphan := false })
  | 0x03 =>
    if x.busy ∨ x.st = .failed then refuse bsBusy
    else d.setBridge p (b.setDie a.die { x with st := .erasing, tag := a.tag, opc := 3, block := a.block, page := 0,
                                                planes := a.planes, buf := 32, sus := 0, orphan := false })
  | 0x04 =>
    if x.st = .programming ∨ x.st = .erasing then
      if 8 ≤ x.sus then refuse bsSusLimit
      else d.setBridge p (b.setDie a.die { x with st := .suspended, sus := x.sus + 1 })
    else if x.st = .reading ∨ x.st = .suspended then refuse bsBusy
    else d.respond p a.cmd 0x82 bsIdle [0x04, 0, 0]
  | _ =>
    if x.st = .suspended then
      if x.rdTag.isSome then refuse bsBusy
      else d.setBridge p (b.setDie a.die { x with st := if x.opc = 2 then .programming else .erasing })
    else d.respond p a.cmd 0x82 bsIdle [0x05, 0, 0]

/-- The order in which the arms of a trick are issued (R268): LEAD first and in SEQ order within; a read of a die that a DIE_SUSPEND of the trick suspends
comes when that is done. -/
def firingOrder (arms : List BArm) : List BArm :=
  let l := arms.filter (·.lead) ++ arms.filter (fun a => !a.lead)
  let held (a : BArm) : Bool := a.opc == 0x01 && arms.any (fun s => s.opc == 0x04 && s.die == a.die)
  l.filter (fun a => !held a) ++ l.filter held

/-- TRICK_MARK (R268, R275): from the holder's port, the confirmed arms of the marked trick fire; ARM_CUT reports them. -/
def doTrickMark (port side trick dly : Nat) (d : Dev) : Dev :=
  let p := port % 512
  let b := d.bridge p
  let t := trick % 65536
  let _ := dly
  if b.power ≠ 0 ∨ b.holder ≠ side % 2 + 1 then d
  else
    let mine := b.arms.filter (fun a => a.trick == t && a.cut)
    let d := d.setBridge p { b with trick := t, arms := b.arms.filter (fun a => a.trick == (t + 1) % 65536), cutFor := none }
    let d := (firingOrder mine).foldl (fun d a => d.fireArm p a) d
    d.emit (.response p (side % 2) 0x8C 0 0 0 0 [t, b.cutSeq, 1, mine.length])
def execTrickMark (port side trick dly : Nat) (s : State) : Host.Outcome State Fault Refusal := actBoard s (doTrickMark port side trick dly)

/-- MARK_MISS (R269): nothing fires, the trick's arms are discarded, and ARM_CUT says FIRED = 0. -/
def doMarkMiss (port : Nat) (d : Dev) : Dev :=
  let p := port % 512
  let b := d.bridge p
  if b.power ≠ 0 then d
  else
    let t := (b.trick + 1) % 65536
    (d.setBridge p { b with trick := t, arms := b.arms.filter (fun a => a.trick == (t + 1) % 65536), cutFor := none }).emit
      (.response p (b.holder - 1) 0x8C 0 0 0 0 [t, b.cutSeq, 0, 0])
def execMarkMiss (port : Nat) (s : State) : Host.Outcome State Fault Refusal := actBoard s (doMarkMiss port)

end Sys2Proof.Machine
end

