-- ==== Sys2Proof/Machine/Single.lean ====
section
/-! DEFINITION. Going on without the twin (R23, R402, R405), and handing bridges over to it or taking them from it as they drain
(R407, R409). -/

namespace Sys2Proof.Machine

/-- FENCE of the shelf. -/
def Dev.fence (d : Dev) : Nat := d.fld Reg.TWN_STS 31 16

/-- The link goes down: the pairing state waits for the loss decision (R398). -/
def Dev.linkDown (d : Dev) : Dev :=
  if d.flag Reg.TWN_LINK_STS 0 then
    let d := (d.setFlag Reg.TWN_LINK_STS 0 false).setFld Reg.TWN_LINK_STS 5 1 0
    let d := (d.setFld Reg.TWN_LANE_MAP 17 0 0).raise 0xC00 0
    if d.twin == 2 || (d.twin == 1 && d.gPrev != 3) then { d with syncEnd := none }.setTwin 0 else d
  else d

/-! ### Without the twin (R23, R402, R405) -/

/-- The used cache slots of this unit alone (R396). -/
def Dev.ownUsed (d : Dev) : Nat := d.usedSlots - d.twinUsed

/-- A port's operations without a twin: its own that went as REMOTE_OP wait again, the twin's are gone. -/
def Port.alone (x : Port) : Port :=
  { x with ops := (x.ops.filter (fun o => o.forTwin.isNone)).map (fun (o : POp) =>
      if o.sent.isSome then { o with sent := none, stage := .waiting } else o) }

/-- The changes of the map that waited for the twin, and wait no longer, stand (R25, R200). -/
def Dev.applyReady (d : Dev) (p : MapChg → Bool) : Dev :=
  let go (x : MapChg) : Bool := x.owner.isNone && p x
  (d.mapPend.filter go).foldl (fun (d : Dev) x => d.applyChg x) { d with mapPend := d.mapPend.filter (fun x => !go x) }

/-- What waited for the twin goes on with one copy (R23, R405). -/
def Dev.singleNow (d : Dev) : Dev :=
  let late (c : Cmd) : Bool := d.gPend.any (fun m => m.mnum == c.mnum)
  let d : Dev := { d with
    queues := d.queues.map (fun (kv : Nat × Queue) => (kv.1, { kv.2 with cmds := kv.2.cmds.map (fun (c : Cmd) =>
      if c.placed && late c then { c with single := true } else c) }))
    cache := d.cache.map (fun (v : Ver) => if v.stage == .received then { v with stage := .single } else v)
    ports := d.ports.map (fun (kv : Nat × Port) => (kv.1, kv.2.alone))
    gPend := [], pwUnmir := 0, freeQ := [], gPrev := 0, giving := [] }
  let d := (d.setFld Reg.TWN_MIR_PEND 15 0 0).setFld Reg.TWN_PAGES 17 0 ((32 - d.segs) * 4096)
  (((d.applyReady (fun _ => true)).ctxReady (fun _ => true)).pwCount.bmCount.revalid).postPlaced.gpfTry

/-- The twin's slots, window granules and dirty regions become this unit's, and those regions are resynchronised (R349, R402). -/
def Dev.takeTwins (d : Dev) : Dev :=
  let own := d.ownUsed
  let mirrored := 8 * (d.twinVers.filter (fun v => !v.pwin)).length
  let d : Dev := { d with
    cache := d.cache ++ d.twinVers.map (fun v => { v with postNo := d.fetchNo })
    pwDirty := d.pwTwin.foldl (fun (m : SMap PwGran) kv => if (m.find kv.1).isSome then m else SMap.insert m kv.1 kv.2) d.pwDirty
    bmDirty := d.twinRegions.foldl insertSorted d.bmDirty
    resync := d.twinRegions.foldl (fun m r => SMap.insert m r 0) d.resync
    pwTwin := [], twinVers := [], twinRegions := [], twinUsed := 0 }
  d.setFld Reg.STK_PWC_USED 20 0 (own + mirrored)

/-- The copies held for a twin that goes on without this unit are of no further use (R407, R566). -/
def Dev.dropTwins (d : Dev) : Dev :=
  let own := d.ownUsed
  { d with pwTwin := [], twinVers := [], twinRegions := [], twinUsed := 0 }.setFld Reg.STK_PWC_USED 20 0 own

/-! ### Bridges that change hands (R278, R407, R409) -/

/-- Ask the bridges of some ports for their token with FORCE = 0. -/
def Dev.askTokens (d : Dev) (ports : List Nat) : Dev :=
  ports.foldl (fun (d : Dev) p => { d.sendFresh p { opc := 0x08, args := d.fence } [] with wants := SMap.insert d.wants p true }) d

/-- A port has nothing of this side outstanding at its bridge: no operation sent, no buffer filled (R278). -/
def Dev.drained (d : Dev) (p : Nat) : Bool := (d.port p).ops.all (fun o => o.stage == .waiting && o.buf == 32)

/-- The token of a port goes to the twin (R278): OWN_RELEASE over a lane that carries it; what still waits here goes as REMOTE_OP. -/
def Dev.giveToken (d : Dev) (p : Nat) : Dev :=
  let d : Dev := { d with giving := d.giving.filter (· != p) }
  let d := (if d.lstate p == 5 then d.sendFresh p { opc := 0x09 } [] else d).setFld (Reg.FCH_P_STS p) 4 3 2
  if d.leaving then d else ((d.port p).ops.filter (fun o => o.stage == .waiting && o.forTwin.isNone)).foldl (fun d o => d.remote p o) d

/-- A leaving unit's last bridge is released (R407 steps 4 and 5): its lanes are electrically idle, it is REMOVABLE, DOWN and single, and
PAIR_EN is clear. -/
def Dev.leaveEnd (d : Dev) : Dev :=
  if !d.leaving || !d.giving.isEmpty then d
  else
    let d := ((List.range 512).filter (fun p => d.lstate p != 7)).foldl (fun (d : Dev) p => (d.setPort p { d.port p with ops := [] }).setLstate p 0) d
    let d := ({ d with leaving := false, wants := [] }.setTwin 0).setSingle true
    let d := (d.setFlag Reg.TWN_STS 6 true).setFlag Reg.TWN_CTL 0 false
    d.dropTwins.singleNow.linkDown

/-- The release of a port goes on: it is given as soon as it has drained. -/
def Dev.giveStep (d : Dev) (p : Nat) : Dev :=
  if d.giving.contains p && d.drained p then (d.giveToken p).leaveEnd else d

/-- Every bridge of some ports that this unit owns is released as its operations drain (R407, R409). -/
def Dev.handOver (d : Dev) (ports : List Nat) : Dev :=
  let ps := ports.filter (fun p => d.fld (Reg.FCH_P_STS p) 4 3 == 1)
  ps.foldl (fun (d : Dev) p => d.giveStep p) { d with giving := ps.foldl insertSorted d.giving }

/-- What a port does for its token before its plan is cut: a drained one is released, a refused take is sent again (DESIGN CHOICE, log 261). -/
def Dev.tokenStep (d : Dev) (p : Nat) : Dev :=
  let d := d.giveStep p
  if d.wants.find p == some false then d.askTokens [p] else d

end Sys2Proof.Machine
end

