-- ==== Sys2Proof/Machine/Dlr.lean ====
section
/-! DEFINITION. The Dealer (chapter 08): trick boundaries, TRUMP buckets, the plan cut of one port, promotions and
suspensions. -/

namespace Sys2Proof.Machine

/-! ### Trick boundaries and buckets -/

/-- The TRUMP-entitled slices with their active TSHARE (R241). -/
def Dev.trumpSlices (d : Dev) : List (Nat × Nat) :=
  (d.slices.filter (fun kv => kv.2.bound && kv.2.trumpEn && 0 < kv.2.tshareAct)).map (fun kv => (kv.1, kv.2.tshareAct))

/-- Refill every port's buckets (R241), scaled while DLR_TSUM.OVER = 1 (R242). -/
def Dev.refillBuckets (d : Dev) : Dev :=
  let ts := d.trumpSlices
  if ts.isEmpty then d
  else
    let sum := d.fld Reg.DLR_TSUM 16 0
    let scaled := d.flag Reg.DLR_TSUM 17
    (List.range 512).foldl (fun d p =>
      let x := d.port p
      let bs := ts.foldl (fun m st =>
        let add := if scaled then 2 * st.2 * 512 / sum else 2 * st.2
        SMap.set (fun _ => 0) m st.1 (min (128 * st.2) (SMap.get (fun _ => 0) m st.1 + add))) x.buckets
      d.setPort p { x with buckets := bs }) d

/-- DLY of the mark of boundary `b` on a lane of delay `delay` whose flit slots end at `phase` ps modulo 8,250 (R267): from the end of the last slot at
or before B − D − 24 ns to B − D, in units of 125 ps. -/
def markDly (b delay phase : Nat) : Nat :=
  let t : Int := (1000 * b : Int) - delay - 24000
  (24000 + ((t - phase) % 8250).toNat + 62) / 125

/-- TRICK_BOUNDARY (R227, R236, R241): the count reaches the next multiple of 2,048, the trick that ends having slewed one tick of
correction, buckets refill, and a TRICK_MARK goes out on every ACTIVE lane whose token this controller holds (R267): its DLY, 24 ns to 32.25 ns in units
of 125 ps, hangs on where the flit slots of the lane fall, which is a free value (log 225). -/
def doTrickBoundary (d : Dev) : Dev :=
  if 3 ≤ d.mode then d
  else
    let d := d.endTrick ((d.tick / 2048 + 1) * 2048)
    if d.dlrStop then d
    else
      let d := d.refillBuckets
      ((List.range 512).filter (fun p => d.lstate p == 5 && d.fld (Reg.FCH_P_STS p) 4 3 == 1)).foldl
        (fun d p => (d.emit (.flit p (ctrlFlit 0x10 (d.tick / 2048 % 65536 + 2 ^ 16 * markDly d.tick (d.port p).delay (d.freeVal % 8250))))).drawn) d
def execTrickBoundary (s : State) : Host.Outcome State Fault Refusal := act s doTrickBoundary

/-- One period of a device to which no command comes: the trick clock counts up to the last tick of the trick; the boundary itself is a
command. -/
def Dev.idleTick (d : Dev) : Dev :=
  if d.pgMain && !d.supplyLost && decide (d.mode < 3) && (d.tick + 1) % 2048 != 0 then d.period else d

/-! ### Costs -/

/-- The planes of an operation, and the codewords of a page that a read takes of each of them: chunk column 4 × plane + codeword (R291). -/
def POp.planes (o : POp) : List Nat := if o.opc = 0x01 then (List.range 4).filter (fun i => o.cols.any (fun c => c / 4 == i)) else List.range 4
def POp.cwsOf (o : POp) : List Nat := (List.range 4).filter (fun i => o.cols.any (fun c => c % 4 == i))

/-- A mask of bit numbers. -/
def bitMask (l : List Nat) : Nat := sumL (l.map (2 ^ ·))

/-- Lane cost of an operation (Table DLR-4): TX and RX ticks; a read transfers the codewords of its mask in each of its planes (R263).  A program's data
and its arm are dealt apart. -/
def POp.cost (o : POp) : Nat × Nat :=
  if o.opc = 0x01 then (16, (if o.soft then 4191 else 1397) * (o.planes.length * o.cwsOf.length))
  else if o.opc = 0x02 ∧ o.buf = 32 then (22342, 16)
  else (16, 16)

/-- The bucket cost: the larger direction (R241). -/
def POp.bucketCost (o : POp) : Nat := max o.cost.1 o.cost.2

/-- A plan in the making: ticks left in each direction, the operations dealt in order, the dies taken, what each
class and each slice of a class has been dealt. -/
structure Plan where
  tx     : Nat
  rx     : Nat
  tags   : List Nat
  dies   : List Nat
  cls    : List Nat
  slices : SMap Nat
deriving DecidableEq, Repr

/-- The operation a die runs or holds suspended. -/
def Port.running (x : Port) (die : Nat) : Option POp :=
  x.ops.find? (fun o => o.die == die && (o.opc == 0x02 || o.opc == 0x03) && o.stage == .running)

/-- A die's operation is under an open suspension. -/
def Port.suspended (x : Port) (die : Nat) : Bool := (x.susOpen.find die).isSome

/-- May the operation be dealt to its die now (R203, R239, R244): a bridge being released gets nothing new (R407), a program has no page of its set before it, the die is free of other dealt work, or it is a read for a
die whose program or erase is suspended or may be. -/
def Dev.dieReady (d : Dev) (p : Nat) (x : Port) (pl : Plan) (o : POp) : Bool :=
  !d.dieGone p o.die && !pl.dies.contains o.die && (!d.giving.contains p || decide (o.buf < 32)) &&
  !(o.opc == 0x02 && x.ops.any (fun y => y.opc == 0x02 && y.die == o.die && y.block == o.block && decide (y.page < o.page))) &&
  !x.ops.any (fun y => y.die == o.die && y.opc == 0x01 && y.stage != .waiting) &&
  (o.opc == 0x02 && o.buf == 32 ||
   match x.running o.die with
   | none => !x.ops.any (fun y => y.die == o.die && y.stage == .armed)
   | some r => o.opc == 0x01 && (x.suspended o.die ||
       (o.cls == 0 && decide (r.sus < 8)) || (o.cls == 1 && decide (r.sus < bits d.susNow 3 0))))

/-- The ladder step that a read serves, 0 for a first read. -/
def POp.reStep (o : POp) : Nat := match o.re with | some r => r.2.2 | none => 0

/-- The offsets that a read of a set uses: the tracker's, at step L2 less SHIFT × (1 + i) / 15 mV per threshold, rounded down. -/
def Dev.readOfs (d : Dev) (o : POp) (k : Nat) : List Int :=
  if o.reStep = 2 then ((List.range 60).zip (d.trkOf k).ofs).map (fun iv =>
    (iv.2 * 15 - ((d.fld Reg.ECC_LAD_CTL 7 0 * (1 + iv.1 % 15) : Nat) : Int)) / 15)
  else (d.trkOf k).ofs

/-- An offset stays within −2,047 to +2,047 mV (R299). -/
def clampOfs (v : Int) : Int := max (-2047) (min 2047 v)

/-- The die has the offsets of the read in one of its slots (R303). -/
def Dev.offsetsIn (d : Dev) (x : Port) (p : Nat) (o : POp) : Bool :=
  o.reStep == 3 || x.slots.any (fun s => s.1 == o.die && s.2.2 == (d.readOfs o (setKey p o.die o.block)).map clampOfs)

/-- The lane ticks that dealing an operation takes: its own, and those of the DIE_SUSPEND and the SET_OFFSETS that go ahead of a read. -/
def Dev.laneCost (d : Dev) (p : Nat) (x : Port) (o : POp) : Nat × Nat :=
  let sus := if o.opc = 0x01 ∧ (x.running o.die).isSome ∧ !x.suspended o.die then (16, 16) else (0, 0)
  let ofs := if o.opc = 0x01 ∧ !d.offsetsIn x p o then (48, 16) else (0, 0)
  (o.cost.1 + sus.1 + ofs.1, o.cost.2 + sus.2 + ofs.2)

/-- Deal one operation, which takes `c` lane ticks, into the plan. -/
def Plan.deal (pl : Plan) (c : Nat × Nat) (o : POp) : Plan :=
  { pl with
    tx := pl.tx - c.1, rx := pl.rx - c.2, tags := pl.tags ++ [o.tag], dies := pl.dies ++ [o.die],
    cls := setAt pl.cls o.cls (pl.cls.getD o.cls 0 + o.bucketCost),
    slices := SMap.set (fun _ => 0) pl.slices (o.cls * 1024 + o.slice)
      (SMap.get (fun _ => 0) pl.slices (o.cls * 1024 + o.slice) + o.bucketCost) }

/-- Capacity is left in both directions (R239): what an operation takes beyond it goes into the tricks that follow. -/
def Plan.room (pl : Plan) : Bool := 0 < pl.tx && 0 < pl.rx

/-- Step 1 of R240: TRUMP operations in arrival order, each within its slice's bucket. -/
def Dev.dealTrump (d : Dev) (p : Nat) (ops : List POp) (pl : Plan) (x : Port) : Plan × Port :=
  ops.foldl (fun (acc : Plan × Port) o =>
    let bk := SMap.get (fun _ => 0) acc.2.buckets o.slice
    if o.bucketCost ≤ bk && acc.1.room && d.dieReady p acc.2 acc.1 o then
      (acc.1.deal (d.laneCost p acc.2 o) o, { acc.2 with buckets := SMap.set (fun _ => 0) acc.2.buckets o.slice (bk - o.bucketCost) })
    else acc) (pl, x)

/-- Steps 2 and 3: operations of one kind while their part of the capacity stays within `part` ticks; the ticks they took. -/
def Dev.dealShare (d : Dev) (p part : Nat) (ops : List POp) (pl : Plan) (x : Port) : Plan × Nat :=
  ops.foldl (fun (acc : Plan × Nat) o =>
    if acc.2 < part && acc.1.room && d.dieReady p x acc.1 o then (acc.1.deal (d.laneCost p x o) o, acc.2 + o.bucketCost) else acc) (pl, 0)

/-- The weight of a class (DLR_CLS_W in force). -/
def Dev.clsWeight (d : Dev) (c : Nat) : Nat := bits d.clsNow (8 * (c - 1) + 7) (8 * (c - 1))

/-- What a class is entitled to of one trick by its weight. -/
def Dev.clsPart (d : Dev) (c : Nat) : Nat :=
  let sum := d.clsWeight 1 + d.clsWeight 2 + d.clsWeight 3
  if sum = 0 then 0 else 2048 * d.clsWeight c / sum

/-- The collector's share is taken from the capacity of BULK first, then NORMAL, then HIGH (R219): each class is charged up to its part of
the trick by weight, HIGH with the rest (DESIGN CHOICE, log 221). -/
def Dev.chargeShare (d : Dev) (used : Nat) (before after : Plan) : Plan :=
  let b := min used (d.clsPart 3)
  let n := min (used - b) (d.clsPart 2)
  let c := before.cls
  { after with cls := [c.getD 0 0, c.getD 1 0 + (used - b - n), c.getD 2 0 + n, c.getD 3 0 + b], slices := before.slices }

/-- `a` should be dealt before `b`, which arrived first (R240 step 4): the class dealt least for its weight, then the slice dealt
least for its share; of one class and slice the older stays first. -/
def Dev.dealsFirst (d : Dev) (pl : Plan) (a b : POp) : Bool :=
  let share (o : POp) : Nat := max 1 (d.slice o.slice).shareAct
  let wa := pl.cls.getD a.cls 0 * d.clsWeight b.cls
  let wb := pl.cls.getD b.cls 0 * d.clsWeight a.cls
  let sa := SMap.get (fun _ => 0) pl.slices (a.cls * 1024 + a.slice) * share b
  let sb := SMap.get (fun _ => 0) pl.slices (b.cls * 1024 + b.slice) * share a
  if a.cls ≠ b.cls then decide (wa < wb) || (wa == wb && decide (a.cls < b.cls))
  else if a.slice ≠ b.slice then decide (sa < sb)
  else false

/-- Step 4: HIGH, NORMAL and BULK by weight, until nothing more can be dealt. -/
def Dev.dealClasses (d : Dev) (p : Nat) (x : Port) : Nat → List POp → Plan → Plan
  | 0, _, pl => pl
  | n + 1, ops, pl =>
    let can := ops.filter (fun o => !pl.tags.contains o.tag && pl.room && d.dieReady p x pl o)
    match can with
    | [] => pl
    | o :: os =>
      let best := os.foldl (fun b y => if d.dealsFirst pl y b then y else b) o
      Dev.dealClasses d p x n ops (pl.deal (d.laneCost p x best) best)

/-! ### Sending the plan -/

/-- A port's lane carries a command of `tx` and `rx` ticks (Table DLR-4): they count in the load and against the capacity. -/
def Dev.charge (d : Dev) (p tx rx : Nat) : Dev :=
  let x := d.port p
  d.setPort p { x with carryTx := x.carryTx + tx, carryRx := x.carryRx + rx, dealt := x.dealt + tx, dealtRx := x.dealtRx + rx }

/-- DIE_SUSPEND (0x04) or DIE_RESUME (0x05) goes out armed for the next trick (R244), its confirmation outstanding (R237). -/
def Dev.sendSus (d : Dev) (p opc flags die opened : Nat) : Dev :=
  let trick := (d.tick / 2048 + 1) % 65536
  let x := d.port p
  let d := d.setPort p { x with susArms := x.susArms ++ [(opc, die, trick, x.seq0, opened)] }
  (d.charge p 16 16).sendFresh p { opc := opc, flags := flags, trick := trick, die := die } []

/-- The open suspension of a die ends: DIE_RESUME is dealt (R244). -/
def Dev.resumeDie (d : Dev) (p die : Nat) : Dev :=
  let x := d.port p
  let t := SMap.get (fun _ => 0) x.susOpen die
  (d.setPort p { x with susOpen := x.susOpen.erase die, susDue := x.susDue.filter (· != die) }).sendSus p 0x05 1 die t

/-- The payload of the DATA flit of a zone (R264): its fifteen offsets as signed 12-bit values. -/
def zoneFlit (ofs : List Int) (z : Nat) : Nat :=
  ((List.range 15).map (fun i => 2 ^ (12 * i) * ((ofs.getD (15 * z + i) 0) % 4096).toNat)).foldl (· + ·) 0

/-- The offsets that a read of the block uses are in a slot of the die, or its least recently used slot is loaded with them by SET_OFFSETS
(R303): the slot, and the state after that.  Step L2 of the ladder shifts the offsets, step L3 takes the die's defaults (Table ECC-4). -/
def Dev.offsetSlot (d : Dev) (p : Nat) (o : POp) : Nat × Dev :=
  if o.reStep = 3 then (7, d)
  else
  let x := d.port p
  let raw := d.readOfs o (setKey p o.die o.block)
  let ofs := raw.map clampOfs
  match x.slots.find? (fun s => s.1 == o.die && s.2.2 == ofs) with
  | some s => (s.2.1, d.setPort p { x with slots := x.slots.filter (fun t => t != s) ++ [s] })
  | none =>
    let mine := x.slots.filter (fun s => s.1 == o.die)
    let slot := if mine.length < 7 then mine.length else (mine.head?.map (fun s => s.2.1)).getD 0
    let clamps := raw.countP (fun v => clampOfs v != v)
    let d := if clamps = 0 then d else (d.inc Reg.ECC_RL_SAT clamps).raise 0xA01 0
    let d := (d.charge p 48 16).sendFresh p { opc := 0x07, die := o.die, args := slot } ((List.range 4).map (zoneFlit ofs))
    let x := d.port p
    let d := d.setPort p { x with slots := x.slots.filter (fun s => !(s.1 == o.die && s.2.1 == slot)) ++ [(o.die, slot, ofs)] }
    (slot, d.inc Reg.ECC_RL_LOADS 1)

/-- A program buffer no operation of the port uses. -/
def Port.freeBuf (x : Port) : Nat := ((List.range 32).find? (fun b => !x.ops.any (fun o => o.buf == b))).getD 32

/-- Replace one operation of the port. -/
def Dev.setPortOp (d : Dev) (p : Nat) (o : POp) : Dev := d.setPort p ((d.port p).setOp o)

/-- The 73,728 bytes of a chunk that is programmed, in plane order (R263), as the payloads of 2,634 DATA flits. -/
def Dev.chunkFlits (d : Dev) (p : Nat) (o : POp) : List Nat :=
  let f := match SMap.find d.stripeBuf (flashKey p o.die o.block o.page) with
    | some f => f
    | none => d.fpage (d.chunkKey o.band o.stripe o.pos)
  let bytes := f.bytes o.band
  (List.range 2634).map (fun i => bytes >>> (224 * i) % 2 ^ 224)

/-- Send what the plan deals of one operation: a program's data, or an arm for the next trick (R236, R244, R346). -/
def Dev.sendOp (d : Dev) (p : Nat) (lead : Bool) (tag : Nat) : Dev :=
  match (d.port p).op? tag with
  | none => d
  | some o =>
    let trick := (d.tick / 2048 + 1) % 65536
    let x := d.port p
    if o.opc = 0x02 ∧ o.buf = 32 then
      let b := x.freeBuf
      if b = 32 then d
      else
        let d := if o.forTwin.isSome then d else d.bmSet o.band o.stripe
        if o.forTwin.isNone && !d.bmReady o.band o.stripe then d
        else
        ((d.charge p o.cost.1 o.cost.2).sendData p { opc := 0x0C, tag := o.tag, args := b } (d.chunkFlits p o)).setPortOp p { o with buf := b }
    else
      let d := match o.opc == 0x01, x.running o.die, x.suspended o.die with
        | true, some r, false =>
          let d := d.setPort p { x.setOp { r with sus := r.sus + 1 } with susOpen := SMap.set (fun _ => 0) x.susOpen o.die (d.tick + 1) }
          (d.inc Reg.DLR_SUS_CNT 1).sendSus p 0x04 3 o.die (d.tick + 1)
        | _, _, _ => d
      let os := if o.opc = 0x01 then d.offsetSlot p o else (0, d)
      let d := os.2
      let seq := (d.port p).seq0
      let d := d.sendCmd p { opc := o.opc, flags := 1 + 2 * lead.toNat + 4 * o.slc.toNat, tag := o.tag, trick := trick, die := o.die, planes := bitMask o.planes,
                             block := o.block, page := if o.opc = 0x03 then 0 else o.page
                             args := if o.opc = 0x01 then bitMask o.cwsOf + 16 * o.soft.toNat + 2 ^ 8 * os.1 else if o.opc = 0x02 then o.buf else 0 }
      let d := d.charge p o.cost.1 o.cost.2
      let x := d.port p
      d.setPort p { x.setOp { o with stage := .armed, trick := trick, seq := seq } with
        trump := x.trump + (if o.cls = 0 then o.bucketCost else 0) }

/-- The dies whose suspension ends with the next plan (R244): no read of the die is queued or runs there, or SUS_HOLD tricks are over. -/
def Port.resumes (x : Port) : List Nat :=
  (x.susOpen.map Prod.fst).filter (fun die => x.susDue.contains die || !x.ops.any (fun o => o.die == die && o.opc == 0x01 && !o.data))

/-- The port takes plans, outside a power-loss dump (R437): ACTIVE, in service, its page neither frozen nor isolated (R46), its token held, its domain ON. -/
def Dev.portDeals (d : Dev) (p : Nat) : Bool :=
  d.lstate p == 5 && !d.dumping && !d.portGone p && !d.pagesStop (0x800 + p) (0x800 + p) && !d.flag (Reg.FCH_P_STS p) 8 && d.fld (Reg.FCH_P_STS p) 4 3 == 1 && d.domSt (p / 8) == 0

/-- The tricks since the last plan. -/
def Port.tricksOver (x : Port) (trick : Nat) : Nat := match x.cutFor with | some t => trick - t | none => 1

/-- The capacity of the tricks since the last plan has carried what was dealt (R239): what is left over goes ahead of anything dealt now. -/
def Port.carried (x : Port) (trick : Nat) : Port :=
  let n := 2048 * x.tricksOver trick
  { x with carryTx := x.carryTx - n, carryRx := x.carryRx - n }

/-- What was dealt beyond the shares of relocation and rebuild, less the shares of the tricks that had no plan. -/
def Port.sharesOver (x : Port) (reloc rebuild trick : Nat) : Port :=
  let n := 8 * (x.tricksOver trick - 1)
  { x with relocOver := x.relocOver - reloc * n, rebuildOver := x.rebuildOver - rebuild * n }

/-- The TRUMP reads that meet a die whose operation has used its eighth suspend, once each (R245). -/
def Port.capped (x : Port) (o : POp) : Bool :=
  o.stage == .waiting && o.opc == 0x01 && o.cls == 0 && !o.hit &&
  (match x.running o.die with | some r => decide (8 ≤ r.sus) && !x.suspended o.die | none => false)

/-- An operation belongs to step 2: relocation and erases. -/
def POp.relocates (o : POp) : Bool := o.src == .reloc || o.src == .erase

/-- Step 4 without an operation to deal starts anew: what each class and slice has been dealt counts while operations of step 4 wait (R240; DEDUCED,
log 222). -/
def Port.forget (x : Port) (pl : Plan) (ops : List POp) : Port :=
  if ops.all (fun o => pl.tags.contains o.tag) then { x with clsDealt := [0, 0, 0, 0], slDealt := [] }
  else { x with clsDealt := pl.cls, slDealt := pl.slices }

/-- The share of a port's trick capacity that rebuild has now (R340): that of the worst priority. -/
def Dev.rebuildShare (d : Dev) : Nat :=
  match d.fld Reg.SHF_RB_STS 2 1 with
  | 0 => 0
  | w => bits d.rbNow (8 * (w - 1) + 7) (8 * (w - 1))

/-- The plan of a port for the next trick, closed at tick `cut` and sent (R236, R240): TRUMP, relocation and rebuild within their shares, less what they
were dealt beyond them before, the classes by weight, and the sieve in what is left (R312); the domain counts T_RET from it (R431).  The arms of TRUMP go first. -/
def Dev.cutPlan (d : Dev) (p cut : Nat) : Dev :=
  let share := d.gcShareOf
  let x := (((d.port p).sharesOver share d.rebuildShare (cut / 2048)).carried (cut / 2048)).retag
  let ends := x.resumes
  let pl : Plan := { tx := 2048 - x.carryTx - 16 * ends.length, rx := 2048 - x.carryRx - 16 * ends.length, tags := [], dies := [], cls := x.clsDealt, slices := x.slDealt }
  let ops := x.ops.filter (fun o => o.stage == .waiting && decide (o.tag < 4096) && decide (o.enq < cut) && !(o.opc == 0x02 && decide (o.buf < 32) && 0 < x.carryTx))
  let hits := (ops.filter x.capped).length
  let d := if hits = 0 then d else (d.inc Reg.DLR_CAP_HITS hits).raise 0x701 3
  let x := { x with cutFor := some (cut / 2048), ops := x.ops.map (fun o => if x.capped o && decide (o.enq < cut) then { o with hit := true } else o) }
  let t := d.dealTrump p (ops.filter (fun o => o.cls == 0)) pl x
  let g := d.dealShare p (share * 8 - x.relocOver) (ops.filter POp.relocates) t.1 x
  let pl := d.chargeShare g.2 { t.1 with cls := pl.cls, slices := pl.slices } g.1
  let r := d.dealShare p (d.rebuildShare * 8 - x.rebuildOver) (ops.filter (fun o => o.src == .rebuild)) pl x
  let rest := ops.filter (fun o => o.cls != 0 && o.src != .rebuild && o.src != .sieve && !(0 < share && o.relocates))
  let c := d.dealClasses p x rest.length rest { r.1 with cls := pl.cls, slices := pl.slices }
  let idle := ops.filter (fun o => o.src == .sieve)
  let all := d.dealClasses p x idle.length idle c
  let x := ({ x with
    buckets := t.2.buckets
    relocOver := x.relocOver + g.2 - share * 8, rebuildOver := x.rebuildOver + r.2 - d.rebuildShare * 8 }).forget c rest
  let d := if all.tags.isEmpty then d else d.setDom (p / 8) { d.dom (p / 8) with last := d.tick }
  let first (tag : Nat) : Bool := ops.any (fun o => o.cls == 0 && o.tag == tag)
  let d := (all.tags.filter first).foldl (fun d t => d.sendOp p true t) (d.setPort p x)
  let d := ends.foldl (fun (d : Dev) die => d.resumeDie p die) d
  ((all.tags.filter (fun t => !first t)).foldl (fun d t => d.sendOp p false t) d).outCounts p

/-- The plan of a port for the next trick may still be cut (R236): once per trick, and up to tick 1,983, by which the arms have gone. -/
def Dev.cutDue (d : Dev) (p : Nat) : Bool := (d.port p).cutFor != some (d.tick / 2048) && decide (d.tick % 2048 ≤ 1983)

/-- PLAN_CUT of one port (R236, R239 to R241, R244, R245): at tick 1,536 of the trick, to which the count moves on if it is not there
yet, the plan for the next trick is closed in class order and sent; an operation that became dealable at that tick or after waits for the
next plan.  A residue failure discards the plan and replans for the next trick (R238, R378). -/
def doPlanCut (port : Nat) (residueBad : Bool) (d : Dev) : Dev :=
  let p := port % 512
  let d := d.tokenStep p
  if !d.portDeals p || d.dlrStop || !d.cutDue p then d
  else
    let cut := d.tick / 2048 * 2048 + 1536
    let d : Dev := { d with tick := max d.tick cut }
    if residueBad then
      ((d.setPort p { (d.port p).carried (cut / 2048) with cutFor := some (cut / 2048) }).recordErr 0x701 0x0004 (145 + p) 0).chkCount 0x701
    else d.cutPlan p cut
def execPlanCut (port : Nat) (residueBad : Bool) (s : State) : Host.Outcome State Fault Refusal :=
  act s (doPlanCut port residueBad)

/-- AGE_PROMOTE (R243): a dealable operation moves up one class, at most to HIGH, each time it has waited AGE tricks since it became dealable. -/
def doAgePromote (port tag : Nat) (d : Dev) : Dev :=
  let p := port % 512
  match (d.port p).op? (tag % 4096) with
  | some o =>
    if o.stage = .waiting ∧ 2 ≤ o.cls ∧ (o.promo + 1) * (bits d.ageNow 11 0 * 2048) ≤ d.tick - o.enq then
      (d.setPort p ((d.port p).setOp { o with cls := o.cls - 1, promo := o.promo + 1 })).inc Reg.DLR_AGE_PROMO 1
    else d
  | none => d
def execAgePromote (port tag : Nat) (s : State) : Host.Outcome State Fault Refusal := act s (doAgePromote port tag)

/-- SUS_HOLD_EXPIRE (R244): a suspension open for SUS_HOLD tricks ends: DIE_RESUME is dealt with the next plan. -/
def doSusHoldExpire (port die : Nat) (d : Dev) : Dev :=
  let p := port % 512
  let die := die % 64
  let x := d.port p
  match x.susOpen.find die with
  | some t =>
    if t - 1 + bits d.susNow 15 8 * 2048 ≤ d.tick then d.setPort p { x with susDue := insertSorted x.susDue die } else d
  | none => d
def execSusHoldExpire (port die : Nat) (s : State) : Host.Outcome State Fault Refusal := act s (doSusHoldExpire port die)

/-- Twin lock is lost (R229): counted, and the leader's figure is held. -/
def Dev.loseTwinLock (d : Dev) : Dev :=
  if d.timeLocked && d.follows then
    Dev.timeChange d ((d.timeUnlock).inc Reg.DLR_LOCK_LOSS 1)
  else d

/-- TIME_EXCHANGE_TIMEOUT (R229): eight trick groups without a completed exchange on a follower: error 0x0102, and
twin lock is lost. -/
def doTimeExchangeTimeout (d : Dev) : Dev :=
  if d.timeLink && !d.flag Reg.DLR_TIME_STS 4 && decide (d.exLast + 8 * 131072 ≤ d.tick) then
    let n := (d.tick - d.exLast) / 131072
    let d := { d with exGood := 0, exLast := d.tick }
    (d.recordErr 0x700 0x0102 n 0).loseTwinLock
  else d
def execTimeExchangeTimeout (s : State) : Host.Outcome State Fault Refusal := act s doTimeExchangeTimeout

end Sys2Proof.Machine
end

