-- ==== Sys2Proof/Machine/Map.lean ====
section
/-! DEFINITION. Translation and space (chapter 07), stripe filling (R329) and cache admission (R363): the admin
commands of MAP, map pages, destage, commit, collection and erase. -/

namespace Sys2Proof.Machine

/-! ### Pinning (R199) -/

/-- The pages `n` from `p0` on that a MAP_PIN or MAP_UNPIN names, or the status and INFO that refuse it (Table MAP-2).  Against VSL_SL_PIN counts
what would be newly pinned. -/
def Dev.pinRange (d : Dev) (s : Nat) (c : Cmd) (pin : Bool) : (Nat × Nat) ⊕ (Nat × Nat) :=
  let n := leBytes c.raw 16 4
  let x := d.slice s
  let p0 := c.lba / 65536
  let new := n - (x.pinned.filter (fun p => decide (p0 ≤ p) && decide (p < p0 + n))).length
  if c.lba % 65536 ≠ 0 then .inl (stInvalidField, 8)
  else if n = 0 ∨ (pin ∧ x.pin < x.pinned.length + new) then .inl (stInvalidField, 16)
  else if x.blks < c.lba + 65536 * n then .inl (stLbaRange, 0)
  else .inr (p0, n)

/-- Bring the pages of a MAP_PIN into the map cache (R197, R199): a resident one is referenced, one that does not exist comes as it is, the load of
any other is asked for at the command's class; the answer says whether all are there. -/
def Dev.pinLoad (d : Dev) (s cls : Nat) (ps : List Nat) : Bool × Dev :=
  let d := ps.foldl (fun (d : Dev) p =>
    let pk := s * 2 ^ 25 + p
    let d := if d.mapExists pk then d else d.makeResident pk
    if d.resident.contains pk then { d with refBits := insertSorted d.refBits pk }
    else if d.mapExists pk then d.wantPage pk cls else d) d
  (ps.all (fun p => d.resident.contains (s * 2 ^ 25 + p)), d)

/-- MAP_PIN: loads the pages, then pins them and completes. -/
def doMapPin (qid tag : Nat) (d : Dev) : Dev :=
  let qid := qid % 16384
  let s := qid / 16
  match d.ready qid (tag % 32) opMapPin with
  | none => d
  | some c =>
    if d.mapHeld then d
    else
      match d.pinRange s c true with
      | .inl (st, info) => d.complete qid c.tag st info
      | .inr (p0, n) =>
        let ps := (List.range n).map (fun i => p0 + i)
        let t := d.pinLoad s c.cls ps
        if !t.1 then t.2
        else
          let x := t.2.slice s
          (t.2.setSlice s { x with pinned := ps.foldl insertSorted x.pinned }).complete qid c.tag stSuccess 0
def execMapPin (qid tag : Nat) (s : State) : Host.Outcome State Fault Refusal := act s (doMapPin qid tag)

/-- MAP_UNPIN: pages not pinned are skipped. -/
def doMapUnpin (qid tag : Nat) (d : Dev) : Dev :=
  let qid := qid % 16384
  let s := qid / 16
  match d.ready qid (tag % 32) opMapUnpin with
  | none => d
  | some c =>
    if d.mapHeld then d
    else
    match d.pinRange s c false with
    | .inl (st, info) => d.complete qid c.tag st info
    | .inr (p0, n) =>
      let x := d.slice s
      (d.setSlice s { x with pinned := x.pinned.filter (fun p => !(decide (p0 ≤ p) && decide (p < p0 + n))) }).complete qid c.tag stSuccess 0
def execMapUnpin (qid tag : Nat) (s : State) : Host.Outcome State Fault Refusal := act s (doMapUnpin qid tag)

/-- The collection mode as MAP_SPACE reports it. -/
def Dev.stsMode (d : Dev) : Nat := d.gcModeOf

/-- MAP_SPACE: the 64-byte report, one snapshot. -/
def doMapSpace (qid tag : Nat) (d : Dev) : Dev :=
  let qid := qid % 16384
  let s := qid / 16
  match d.ready qid (tag % 32) opMapSpace with
  | none => d
  | some c =>
    match d.sliceHead s with
    | none => d
    | some h =>
      let f := [d.get64 Reg.MAP_CLOG_LO Reg.MAP_CLOG_HI, d.limit, d.valid, (d.mappedOf s).length,
        (d.slice s).pinned.length, d.fQ, d.stsMode, 0]
      (d.emit (.hostReport (d.slice s).pasid h (c.dp.getD 0 0) f)).complete qid c.tag stSuccess 0
def execMapSpace (qid tag : Nat) (s : State) : Host.Outcome State Fault Refusal := act s (doMapSpace qid tag)

/-! ### Map pages (R196, R197, R201) -/

/-- A class of Table SCO-6 as its number. -/
def clsNum : Cls → Nat
  | .trump => 0 | .high => 1 | .normal => 2 | .bulk => 3

/-- The mapped granules whose entries a map page holds. -/
def Dev.mappedIn (d : Dev) (pk : Nat) : List Nat := (d.map.filter (fun kv => pageKey (kv.1 / 2 ^ 37) (kv.1 % 2 ^ 37) == pk && kv.2.loc.isSome)).map Prod.fst

/-- The owner of the reads of a map page's load. -/
def mapOwner (pk : Nat) : Nat := 2 ^ 69 + pk

/-- A copy of a map page, by its chunk, cannot be read (R196): a codeword of it is lost or poisoned. -/
def Dev.copyLost (d : Dev) (c : Nat) : Bool :=
  let b := c / 32 / 4096
  let k := c / 32 % 4096
  let j := c % 32
  (List.range 16).any (fun col => d.cwPoisoned b k j col || (d.cwErased b k j col && !d.rebuildable b k j col))

/-- A map page has come, or none of its copies can be read: it takes its slot, what its load held is free, and the lookups go on. -/
def Dev.mapLoaded (d : Dev) (pk : Nat) : Dev :=
  (((d.dropOwned (mapOwner pk)).freeCredit (fun u => u == metaUnit pk)).makeResident pk).ioFrom (fun q c => q / 16 == pk / 2 ^ 25 && c.looked && !c.passed)

/-- Neither copy of a map page can be read (R196): the entries of its mapped granules are lost, MAP_LOST and error 0x0103; the page comes back from the
delta log and the band summaries. -/
def Dev.mapLost (d : Dev) (pk : Nat) (copies : List Nat) : Dev :=
  let d := copies.foldl (fun (d : Dev) c => (List.range 16).foldl (fun (d : Dev) col => (d.serveCw (mapOwner pk) (c / 32 / 4096) (c / 32 % 4096) (c % 32) col).2) d) d
  let d : Dev := { d with lost := (d.mappedIn pk).foldl insertSorted d.lost }
  ((d.errIncident 0x500 0x0103 (pk / 2 ^ 25) (pk % 2 ^ 25) (some (pk / 2 ^ 25)) none none none).raise 0x500 4).mapLoaded pk

/-- The load of a map page goes on (R196, R197): its first copy that can be read is read at the class of the miss, sleeping domains waking for it; with
all its codewords there the page has come. -/
def Dev.mapLoadStep (d : Dev) (pk : Nat) : Dev :=
  match d.mapWant.find pk with
  | none => d
  | some cls =>
    if d.mapStop || !d.mapRoom then d
    else
      let copies := SMap.get (fun _ => []) d.metaAt pk
      match copies.find? (fun c => !d.copyLost c) with
      | none => d.mapLost pk copies
      | some c =>
        let t := d.takeCredit 8 16 (metaUnit pk)
        let d := t.2
        if !t.1 then d
        else
          let w := mapOwner pk
          let b := c / 32 / 4096
          let k := c / 32 % 4096
          let j := c % 32
          let todo := (List.range 16).filter (fun col => !d.cwReady w b k j col)
          if todo.isEmpty then ((List.range 16).foldl (fun (d : Dev) col => (d.serveCw w b k j col).2) d).mapLoaded pk
          else
            let want := todo.flatMap (d.needs w b k j)
            let off := (want.map (fun x => (d.setAtPos b x.1).port / 8)).filter (fun g => d.domSt g != 0)
            let d := (off.foldl insertSorted []).foldl (fun (d : Dev) g => d.wakeDomain g) d
            d.dealReads w cls 0 b k j (d.band b).slc (granKey (pk / 2 ^ 25) (pk % 2 ^ 25), 0) .host want

/-- MAP_PAGE_LOAD (R196, R197): the load that lookups wait for, at the class of the first of them; it needs a slot of the cache. -/
def doMapPageLoad (slice page : Nat) (cls : Cls) (d : Dev) : Dev :=
  let pk := slice % 1024 * 2 ^ 25 + page % 2 ^ 25
  if d.mapWant.find pk != some (clsNum cls) then d else d.mapLoadStep pk
def execMapPageLoad (slice page : Nat) (cls : Cls) (s : State) : Host.Outcome State Fault Refusal := act s (doMapPageLoad slice page cls)

/-- A FREE band this unit stewards, all of whose sets serve and whose domains are ON. -/
def Dev.mayOpen (d : Dev) (b : Nat) : Bool :=
  (d.band b).st == .free && d.stewards b && (d.setsOf b).all (fun s => !d.dieGone s.port s.die && d.domSt (s.port / 8) == 0)

/-- The lowest-numbered band that may be opened. -/
def Dev.freeBand (d : Dev) : Option Nat := (List.range (d.fld Reg.MAP_BANDS_FMT 22 0)).find? d.mayOpen

/-- Two bands have no channel group in common (R195). -/
def Dev.groupsApart (d : Dev) (a b : Nat) : Bool :=
  (d.setsOf a).all (fun s => !(d.setsOf b).any (fun t => t.port / 8 == s.port / 8))

/-- The metadata band that takes the next copy of a map page (R195, R207): an OPEN_META one with room, else a FREE one; its channel
groups are disjoint from those of the band that holds the first copy. -/
def Dev.metaBand (d : Dev) (first : Option Nat) : Option Nat :=
  let apart (b : Nat) : Bool := match first with
    | none => true
    | some a => d.groupsApart a b
  match (d.fills.map Fill.band).find? (fun b => (d.band b).st == .openMeta && d.stewards b && apart b) with
  | some b => some b
  | none => (List.range (d.fld Reg.MAP_BANDS_FMT 22 0)).find? (fun b => d.mayOpen b && apart b)

/-- The page that is written back next: the one in the way of the eviction sweep (R197), else the oldest dirty one (R201). -/
def Dev.nextBack (d : Dev) : Option Nat :=
  match (if d.mapFull then d.sweepVictim else none) with
  | some v => if d.dirty.contains v then some v else d.dirty.head?
  | none => d.dirty.head?

/-! ### Commit (R19, R20, R25, R200, R201, R378) -/

/-- Residue mismatches of one MAP operation (R378): each of the first three is recorded and repeated, a fourth is a
controller fault.  The checker's number, 129 to 144, is not given for the operation. -/
def Dev.mapResidue (d : Dev) (n : Nat) : Dev :=
  (List.range (min n 4)).foldl (fun d _ =>
    let d := (d.recordErr 0x500 0x0004 (129 + d.freeVal % 16) 0).drawn
    d.chkCount 0x500) d

/-- MAP_COMMIT: the version's map update commits if its GVER is newer than the entry's, and the cache entry is freed,
with the older posted versions that its merged granule holds. -/
def doMapCommit (slice granule gver mismatches : Nat) (d : Dev) : Dev :=
  let s := slice % 1024
  let g := granule % 2 ^ 37
  let isV (v : Ver) : Bool := v.slice == s && v.granule == g && v.gver == gver % 2 ^ 20
  match d.cache.find? isV with
  | none => d
  | some v =>
    match v.loc with
    | none => d
    | some l =>
      let x : MapChg := { slice := s, granule := g, gver := v.gver, loc := some l, src := none, owner := none, mnum := none }
      if v.stage ≠ .programmed ∨ !(v.posted || v.pwin) ∨ d.mapStop ∨ d.dumping ∨ d.changing x then d
      else if !d.pageHere (pageKey s g) then d.wantPage (pageKey s g) v.cls
      else
        let d := d.mapResidue mismatches
        if 4 ≤ mismatches then d.ctrlFault 0xFF 4
        else if d.dlogFull then d.dlogStall
        else d.commitVer v x
def execMapCommit (slice granule gver mismatches : Nat) (s : State) : Host.Outcome State Fault Refusal :=
  act s (doMapCommit slice granule gver mismatches)

/-! ### Destage (R207, R212, R220, R329, R330) -/

/-- The stored blocks of a version: a version holds all eight (Table ARC-4 step 4). -/
def Dev.mergedBlks (d : Dev) (v : Ver) : List Blk :=
  (List.range 8).map (fun k => (v.blks.find k).getD (d.flashBlk v.slice (8 * v.granule + k)))

/-- Open a band (Table MAP-4) and its stripe 0. -/
def Dev.openBand (d : Dev) (b : Nat) (slc reloc : Bool) : Dev :=
  let x := d.band b
  let d := d.setBand b { x with st := if slc then .openSlc else .openQlc, slc := slc, sets := d.setsOf b, next := 0, verified := 0, erasedSets := [] }
  let d := { d with fills := d.fills ++ [(⟨b, 0, 0, 3, d.tick, reloc⟩ : Fill)] }
  ((d.trackerOpen b slc).journalBand b (if slc then 1 else 2)).respace

/-- Queue the program of a chunk whose content is in the stripe buffer, at the class of what it holds, at most HIGH (DESIGN CHOICE, log 238): its placement
records take the present tick (Table ECC-2). -/
def Dev.queueProgram (d : Dev) (f : Fill) (pos slice : Nat) : Dev :=
  let s := d.setAtPos f.band pos
  let key := flashKey s.port s.die s.block f.stripe
  let pg := SMap.get (fun _ => FPage.reset) d.stripeBuf key
  let stamp (g : Gran) : Gran := { g with stamp := d.tick }
  let d : Dev := { d with
    progd := SMap.insert d.progd (chunkId f.band f.stripe pos) 0
    stripeBuf := SMap.set (fun _ => FPage.reset) d.stripeBuf key { pg with half0 := pg.half0.map stamp, half1 := pg.half1.map stamp } }
  d.addOp s.port (mkOp 0x02 (if f.reloc then .reloc else .host) (max 1 f.cls) slice f.band f.stripe pos s.die s.block f.stripe (d.band f.band).slc)

/-- The ladles have accumulated the sixteenth data chunk (R31, R322, R330): P, Q and R are in the stripe buffer, and their programs are queued. -/
def Dev.queueParity (d : Dev) (f : Fill) (slice : Nat) : Dev :=
  let pars := parityChunks (d.stripeData f.band f.stripe) f.band (d.band f.band).slc
  ((List.range 3).zip pars).foldl (fun (d : Dev) ip =>
    let pos := posOfRole (16 + ip.1) f.stripe
    let t := d.setAtPos f.band pos
    { d with stripeBuf := SMap.set (fun _ => FPage.reset) d.stripeBuf (flashKey t.port t.die t.block f.stripe) ip.2 }.queueProgram f pos slice) d

/-- A granule is a pad (R329): a half of a map page, which has META = 1 too, holds blocks. -/
def Gran.isPad (g : Gran) : Bool := g.pad && g.blks.isEmpty

/-- Put one granule, or a pad, into the next half of the stripe a band fills; the chunk's program is queued when both
halves are in, and the parity programs when the sixteenth data chunk is (R330).  The band's next stripe opens then. -/
def Dev.fillHalf (d : Dev) (f : Fill) (g : Gran) (cls : Nat) : Dev :=
  let b := f.band
  let k := f.stripe
  let pos := posOfRole (f.placed / 2) k
  let s := d.setAtPos b pos
  let key := flashKey s.port s.die s.block k
  let x := d.band b
  let pg := SMap.get (fun _ => FPage.reset) d.stripeBuf key
  let pg := if f.placed % 2 = 0 then { pg with half0 := some g, slc := x.slc } else { pg with half1 := some g, slc := x.slc }
  let d := { d with stripeBuf := SMap.set (fun _ => FPage.reset) d.stripeBuf key pg }
  let f' := { f with placed := f.placed + 1, cls := min f.cls cls, last := d.tick }
  let d := if f.placed % 2 = 1 then
      let padChunk := pg.half0.any (·.isPad) && pg.half1.any (·.isPad)
      let d := if padChunk then d.inc Reg.SHF_PAD 1 else d
      d.queueProgram f' pos g.slice
    else d
  let d := d.setBand b { d.band b with next := k + 1 }
  if f'.placed = 32 then
    let d := d.queueParity f' g.slice
    let rest := d.fills.filter (fun y => y.band != b)
    { d with fills := if k + 1 < x.stripes then rest ++ [(⟨b, k + 1, 0, 3, d.tick, f.reloc⟩ : Fill)] else rest }
  else { d with fills := d.fills.map (fun y => if y.band = b then f' else y) }

/-- A pad granule (R329). -/
def padGran : Gran := { slice := 0, granule := 0x1FFFFFFFFF, gver := 0, pad := true, blks := [] }

/-- Close a stripe early with pads (R329). -/
def Dev.padStripe : Nat → Dev → Nat → Nat → Dev
  | 0, d, _, _ => d
  | n + 1, d, b, k =>
    match d.fills.find? (fun f => f.band == b) with
    | some f => if f.stripe = k ∧ 0 < f.placed then Dev.padStripe n (d.fillHalf f padGran f.cls) b k else d
    | none => d

/-- A FLUSH waits on a granule of the stripe, or a FUA write's granule lies in it (R329). -/
def Dev.stripeHurries (d : Dev) (b k : Nat) : Bool :=
  let mine := d.cache.filter (fun v => v.loc.any (fun l => l.band == b && l.stripe == k))
  mine.any (fun v =>
    (!v.posted && ((d.queue v.qid).cmd? v.tag).any (fun c => d.waitsProgram c)) ||
    (v.posted && d.queues.any (fun kv => kv.1 / 16 == v.slice && kv.2.cmds.any (fun c =>
      c.op == opFlush && !c.done && (c.nblk == 0 || decide (c.lba < 8 * v.granule + 8) && decide (8 * v.granule < c.lba + c.nblk))))))

/-- Host destage is paced (Table MAP-6, R220): stopped in HARD, by credit in FOREGROUND. -/
def Dev.mayDestage (d : Dev) : Bool :=
  match d.gcModeOf with
  | 3 => false
  | 2 => decide (0 < d.gcCredit)
  | _ => true

/-- A host granule destaged in FOREGROUND costs one granule of credit (R220). -/
def Dev.spendCredit (d : Dev) : Dev :=
  if d.gcModeOf = 2 then { d with gcCredit := d.gcCredit - 1 }.setReg Reg.MAP_GC_CREDIT (wInt (d.gcCredit - 1)) else d

/-- The stripe boundary (Table SHF-2): a block of the version whose seal does not name it, or has another VERSION or unknown FLAGS, is taken from the
twin's mirror copy, or stored poisoned without one. -/
def Dev.stripeSeals (d : Dev) (v : Ver) (blks : List Blk) : List Blk × Dev :=
  ((List.range blks.length).zip blks).foldl (fun (acc : List Blk × Dev) kb =>
    let lba := 8 * v.granule + kb.1
    let b := kb.2
    if (v.blks.find kb.1).isNone || b.poison || (b.sl.reftag == refTag v.slice lba && b.sl.version == 1 && decide (b.sl.flags < 4)) then (acc.1 ++ [b], acc.2)
    else
      let d := ((acc.2.inc Reg.SHF_SEAL_ERR 1).errIncident 0xB00 0x0101 v.slice (lba % 2 ^ 32) (some v.slice) (some lba) none none).raise 0xB00 3
      (acc.1 ++ [if d.paired then { b with sl := { b.sl with reftag := refTag v.slice lba, version := 1, flags := b.sl.flags % 4 } } else poisonBlk], d)) ([], d)

/-- The stripe that takes the next granule of its kind (R203, R207): of an open band, or of one opened now. -/
def Dev.fillFor (d : Dev) (slc reloc : Bool) : Option Fill :=
  d.fills.find? (fun f => (d.band f.band).slc == slc && !(d.band f.band).isMeta && f.reloc == reloc && d.stewards f.band)

/-- Make sure that a stripe can take the next granule of its kind: a band opens where none is open, and the stripe's chunks take their credit of
class `cr` in one step (R357). -/
def Dev.fillReady (d : Dev) (slc reloc : Bool) (cr : Nat) : Option Fill × Dev :=
  let d := match d.fillFor slc reloc, d.freeBand with
    | none, some b => d.openBand b slc reloc
    | _, _ => d
  match d.fillFor slc reloc with
  | none => (none, d)
  | some f =>
    let t := d.takeCredit cr 304 (2 ^ 19 + f.band * 4096 + f.stripe)
    (if t.1 then some f else none, t.2)

/-- The place of the next granule of a stripe. -/
def Dev.fillLoc (d : Dev) (f : Fill) : Loc :=
  let pos := posOfRole (f.placed / 2) f.stripe
  let t := d.setAtPos f.band pos
  { slc := (d.band f.band).slc, port := t.port, die := t.die, block := t.block, page := f.stripe, half := f.placed % 2,
    band := f.band, stripe := f.stripe, pos := pos }

/-- Write one cached version into the next place for host data (R203, R207, R220, R329). -/
def Dev.destageVer (d : Dev) (v : Ver) : Dev :=
  let slc := v.cls < 3 && !v.pwin && decide (d.fld Reg.MAP_SLC_USED 22 0 < d.fld Reg.MAP_SLC_TGT 22 0)
  match d.fillReady slc false 6 with
  | (none, d) => d
  | (some f, d) =>
    let l := d.fillLoc f
    let d := { d with cache := d.cache.map (fun (w : Ver) => if w == v then { w with loc := some l } else w) }.spendCredit
    let sealed := d.stripeSeals v (d.mergedBlks v)
    let d := sealed.2.fillHalf f { slice := v.slice, granule := v.granule, gver := v.gver, pad := false, blks := sealed.1 } v.cls
    if d.stripeHurries f.band f.stripe then Dev.padStripe 32 d f.band f.stripe else d

/-- DESTAGE of one cached version: one whose eight blocks are filled unmaps its granule (R214), any other is written. -/
def doDestage (slice granule gver : Nat) (d : Dev) : Dev :=
  let s := slice % 1024
  let g := granule % 2 ^ 37
  match d.cache.find? (fun v => v.slice == s && v.granule == g && v.gver == gver % 2 ^ 20) with
  | none => d
  | some v =>
    let older := d.cache.any (fun w => w.slice == s && w.granule == g && !w.posted && !w.pwin && gverNewer v.gver w.gver)
    let hurries := ((d.queue v.qid).cmd? v.tag).any (fun c => c.placed && d.waitsProgram c)
    let x : MapChg := { slice := s, granule := g, gver := v.gver, loc := none, src := none, owner := none, mnum := none }
    if v.loc.isSome || older || !(v.posted || v.pwin || hurries) || v.stage == .received || !d.mayDestage ||
        d.mapPend.any (fun y => y.slice == s && y.granule == g && y.owner.isSome && gverNewer v.gver y.gver) ||
        d.mapStop || d.shfStop || d.stkStop || d.dumping || d.changing x then d
    else if (d.mergedBlks v).all (·.filled) && v.posted then
      if !d.pageHere (pageKey s g) then d.wantPage (pageKey s g) v.cls
      else if d.dlogFull then d.dlogStall else d.mapChange x
    else d.destageVer v
def execDestage (slice granule gver : Nat) (s : State) : Host.Outcome State Fault Refusal := act s (doDestage slice granule gver)

/-- STRIPE_WAIT_EXPIRE (R329): no granule for STRIPE_WAIT µs; pads close the stripe. -/
def doStripeWaitExpire (band : Nat) (d : Dev) : Dev :=
  match d.fills.find? (fun f => f.band == band) with
  | some f =>
    if 0 < f.placed ∧ f.last + d.fld Reg.SHF_STRIPE_CTL 15 0 * 1000 ≤ d.tick ∧ !d.shfStop then
      Dev.padStripe 32 d band f.stripe
    else d
  | none => d
def execStripeWaitExpire (band : Nat) (s : State) : Host.Outcome State Fault Refusal := act s (doStripeWaitExpire band)

/-! ### Write-back of map pages (R195, R197, R201, R207) -/

/-- The blocks of one half of a map page: 512 entries of 8 bytes each (R195); no seal or cipher record is given for them: zeros (log 237). -/
def Dev.metaBlks (d : Dev) (pk h : Nat) : List Blk :=
  (List.range 8).map (fun k =>
    let n := pk % 2 ^ 25 * 16 + 8 * h + k
    let es := d.map.filter (fun kv => kv.1 / 2 ^ 37 == pk / 2 ^ 25 && kv.1 % 2 ^ 37 / 512 == n)
    { poisonBlk with data := sumL (es.map (fun kv => entWord kv.2 * 2 ^ (64 * (kv.1 % 512)))), poison := false })

/-- One half of the chunk that holds a map page: META = 1 and the page's number in its placement records (Table ECC-2). -/
def Dev.metaHalf (d : Dev) (pk h : Nat) : Gran :=
  { slice := pk / 2 ^ 25, granule := pk % 2 ^ 25, gver := 0, pad := true, blks := d.metaBlks pk h, stamp := d.tick }

/-- Open a metadata band (Table MAP-4) and its stripe 0. -/
def Dev.openMeta (d : Dev) (b : Nat) : Dev :=
  let d := d.setBand b { d.band b with st := .openMeta, isMeta := true, slc := true, sets := d.setsOf b, next := 0, verified := 0, erasedSets := [] }
  let d := { d with fills := d.fills ++ [(⟨b, 0, 0, 3, d.tick, false⟩ : Fill)] }
  ((d.trackerOpen b true).journalBand b 3).respace

/-- Put one copy of a map page into the next chunk of a metadata band, at a class (R195, R207): the chunk, and the state after that. -/
def Dev.metaPut (d : Dev) (b pk cls : Nat) : Nat × Dev :=
  let d := if (d.band b).st = .free then d.openMeta b else d
  let fill (d : Dev) : Option Fill := d.fills.find? (fun f => f.band == b)
  match fill d with
  | none => (0, d)
  | some f =>
    let d := d.fillHalf f (d.metaHalf pk 0) cls
    (chunkId b f.stripe (posOfRole (f.placed / 2) f.stripe), match fill d with
      | some f => d.fillHalf f (d.metaHalf pk 1) cls
      | none => d)

/-- MAP writes dirty pages back: the log has reached DLOG_LO or lines of it are poisoned (Table STK-3), the cache is full, an entry to DEEP or OFF flushes, or a metadata band is being
emptied (R197, R201, R222, R417). -/
def Dev.writesBack (d : Dev) : Bool :=
  decide (d.fld Reg.MAP_DLOG_CTL 11 0 * 65536 ≤ d.dlog) || d.dlogBad || d.mapFull || d.fld Reg.PWR_MODE_STS 6 4 == 2 ||
  d.bands.any (fun kv => kv.2.isMeta && kv.2.st == .victim)

/-- The class of a write-back (R201, Table STK-3): BULK, and from DLOG_HI on, or with lines of the log poisoned, HIGH. -/
def Dev.backCls (d : Dev) : Nat := if d.dlogBad || decide (d.fld Reg.MAP_DLOG_CTL 27 16 * 65536 ≤ d.dlog) then 1 else 3

/-- The bands that take the two copies of a map page: their channel groups are disjoint (R195). -/
def Dev.metaBands (d : Dev) : Option (Nat × Nat) :=
  match d.metaBand none with
  | none => none
  | some a => (d.metaBand (some a)).map (fun b => (a, b))

/-- MAP_PAGE_WRITEBACK (R195, R201, R207): the page next in turn is put into two metadata bands of disjoint groups; it is clean from now, and
its records so far become reclaimable once the stripes of both copies are PROGRAMMED. -/
def doMapPageWriteback (slice page : Nat) (d : Dev) : Dev :=
  let pk := slice % 1024 * 2 ^ 25 + page % 2 ^ 25
  if d.nextBack != some pk || d.mapStop || d.shfStop || !d.writesBack then d
  else
    match d.metaBands with
    | none => d
    | some (a, b) =>
      let t := d.takeCredit 8 16 (metaUnit pk)
      if !t.1 then t.2
      else
        let x := t.2.metaPut a pk d.backCls
        let y := x.2.metaPut b pk d.backCls
        let d := y.2
        let n := (d.dlogRing.filter (fun r => pageKey r.1 r.2.1 == pk && !r.2.2.2)).length
        let d : Dev := { d with
          dirty := d.dirty.filter (fun k => k != pk)
          metaBack := d.metaBack ++ [({ page := pk, recs := n, chunks := [x.1, y.1], left := [x.1, y.1] } : MetaBack)] }
        d.setFld Reg.MAP_CACHE_DIRTY 20 0 d.dirty.length
def execMapPageWriteback (slice page : Nat) (s : State) : Host.Outcome State Fault Refusal :=
  act s (doMapPageWriteback slice page)

/-- Mark the first `n` records of a page that are not reclaimable yet. -/
def markRecs (pk : Nat) : Nat → List (Nat × Nat × Nat × Bool) → List (Nat × Nat × Nat × Bool)
  | _, [] => []
  | 0, rs => rs
  | n + 1, r :: rs =>
    if pageKey r.1 r.2.1 == pk && !r.2.2.2 then (r.1, r.2.1, r.2.2.1, true) :: markRecs pk n rs else r :: markRecs pk (n + 1) rs

/-- The records of a page's changes that its write-back holds are reclaimable, and the ring gives up those that stand first (R201). -/
def Dev.reclaim (d : Dev) (pk n : Nat) : Dev :=
  let ring := markRecs pk n d.dlogRing
  let kept := ring.dropWhile (fun r => r.2.2.2)
  let d : Dev := { d with dlogRing := kept, dlog := d.dlog - (ring.length - kept.length) }
  let d := d.setFld Reg.MAP_DLOG_USED 21 0 (d.dlog * 16 / 1024)
  { d with dlogStalled := d.dlogStalled && d.dlogFull, dlogBad := d.dlogBad && !d.dirtyAll.isEmpty }

/-- A metadata band that receives no copies and holds none in use waits for its erase, out of N_META. -/
def Dev.metaSpent (d : Dev) : Dev :=
  let used := d.metaAt.flatMap Prod.snd ++ d.metaBack.flatMap MetaBack.chunks
  let spent := (d.bands.filter (fun kv => kv.2.isMeta && (kv.2.st == .closed || kv.2.st == .victim) && !used.any (fun c => c / 32 / 4096 == kv.1))).map Prod.fst
  spent.foldl (fun d b =>
    let was := (d.band b).st
    let d := d.setBand b { d.band b with st := .victim, isMeta := false }
    if was == .closed then d.journalBand b 5 else d) d

/-- A stripe of a metadata band is PROGRAMMED: a page whose copies' stripes all are has its records reclaimed, and its older copies are not in
use any more (R195, R201). -/
def Dev.metaDone (d : Dev) (b k : Nat) : Dev :=
  let bs := d.metaBack.map (fun m => { m with left := m.left.filter (fun c => c / 32 != b * 4096 + k) })
  let done := bs.filter (fun m => m.left.isEmpty)
  let d : Dev := { d with metaBack := bs.filter (fun m => !m.left.isEmpty) }
  if done.isEmpty then d
  else
    let d := done.foldl (fun (d : Dev) m =>
      ({ d.reclaim m.page m.recs with metaAt := SMap.insert d.metaAt m.page m.chunks }).freeCredit (fun u => u == metaUnit m.page)) d
    d.metaSpent.respace.trimCache

/-! ### Admission (R212, R363, R364) -/

/-- The write-acknowledge figure of Table LDY-1 in ns for a class at the load of the time (R248), 12 µs for TRUMP. -/
def Dev.ackFigure (d : Dev) (cls : Nat) : Nat :=
  let load := d.fld Reg.DLR_LOAD 6 0
  let pick (t : List (Nat × Nat)) : Nat := ((t.find? (fun r => decide (load ≤ r.1))).map Prod.snd).getD ((t.getLast?).map Prod.snd |>.getD 0)
  match cls with
  | 0 => 12000
  | 1 => pick [(1, 14000), (10, 14000), (25, 15000), (50, 16000), (75, 18000), (90, 22000), (95, 26000), (99, 34000)]
  | 2 => pick [(1, 18000), (10, 18000), (25, 20000), (50, 22000), (75, 26000), (90, 34000), (95, 44000), (99, 60000)]
  | _ => 0

/-- NO_SPACE_TIMEOUT (R212): a write with new granules that has met F_Q at or below W_HARD past its deadline; for one that R125 held, it is
measured from the posting that released it (R127). -/
def doNoSpaceTimeout (qid tag : Nat) (d : Dev) : Dev :=
  let qid := qid % 16384
  match (d.queue qid).cmd? (tag % 32) with
  | some c =>
    if writeType c.op ∧ !c.done ∧ !c.placed ∧ (d.queue qid).free c ∧ 0 < d.newGranules (qid / 16) c ∧ d.fQ ≤ d.wHard ∧
        (if c.wasHeld then c.relTick.getD d.tick else c.dbTick) + d.ackFigure c.cls + 1000000 ≤ d.tick then
      ((d.inc Reg.MAP_NOSPACE 1).raise 0x500 1).complete qid c.tag stNoSpace 0
    else d
  | none => d
def execNoSpaceTimeout (qid tag : Nat) (s : State) : Host.Outcome State Fault Refusal := act s (doNoSpaceTimeout qid tag)

/-- The write CACHE_ADMIT considers (R364): a TRUMP write first; of the others one that has waited more than 64 trick
groups, then HIGH, NORMAL, BULK; the oldest of its kind. -/
def Dev.nextWaiting (d : Dev) : Option (Nat × Cmd) :=
  let all := d.queues.flatMap (fun kv => (kv.2.cmds.filter (fun c => c.waiting && !c.done)).map (fun c => (kv.1, c)))
  let rank (c : Cmd) : Nat := if c.cls = 0 then 0 else if c.waitTick + 64 * 131072 < d.tick then 1 else 1 + c.cls
  match all with
  | [] => none
  | x :: xs => some (xs.foldl (fun b y =>
      if rank y.2 < rank b.2 || (rank y.2 == rank b.2 && decide (y.2.fetched < b.2.fetched)) then y else b) x)

/-- CACHE_ADMIT (R363, R364). -/
def doCacheAdmit (d : Dev) : Dev :=
  match d.nextWaiting with
  | none => d
  | some (qid, c) =>
    if d.stkHeld || d.dumping || !(d.dumpSetUp || decide (4096 * (d.usedSlots + 8 * c.placedGranules.length) + 16 * d.dlog ≤ 2 ^ 33)) then d
    else
      match d.admitSlots c.cls (8 * c.placedGranules.length) with
      | some d' => d'.setCmd qid { c with waiting := false, slots := 8 * c.placedGranules.length }
      | none => d
def execCacheAdmit (s : State) : Host.Outcome State Fault Refusal := act s doCacheAdmit

/-! ### Relocation and collection (R205, R209, R217, R220, R221) -/

/-- The valid granules of a band, as map entries; a lost entry names nothing (R196). -/
def Dev.validIn (d : Dev) (b : Nat) : List (Nat × MapEnt) :=
  d.map.filter (fun kv => kv.2.loc.any (fun l => l.band == b) && !d.lost.contains kv.1)

/-- The class of collection reads and programs (Table MAP-6). -/
def Dev.gcCls (d : Dev) : Nat := if 2 ≤ d.gcModeOf then 1 else 3

/-- The class of the reads and programs that relocate a band: a fold's is BULK (R209). -/
def Dev.relocCls (d : Dev) (b : Nat) : Nat := if (d.band b).fold then 3 else d.gcCls

/-- Write relocated granules that have no place yet into the open band for relocations (R207). -/
def Dev.placeRelocs (d : Dev) : Dev :=
  (d.relocs.filter (fun r => r.dst.isNone)).foldl (fun (d : Dev) r =>
    match d.fillReady false true 4 with
    | (none, d) => d
    | (some f, d) =>
      let l := d.fillLoc f
      { d with relocs := d.relocs.map (fun y => if y == r then { r with dst := some l } else y) }.fillHalf f r.gran (d.relocCls r.src.band)) d

/-- The owner of the reads of a chunk under relocation. -/
def relocOwner (b k pos : Nat) : Nat := 2 ^ 67 + chunkId b k pos

/-- The chunks of a VICTIM band that hold a granule which is neither read nor being read, as stripe × 32 + position. -/
def Dev.relocTodo (d : Dev) (b : Nat) : List Nat :=
  ((d.validIn b).filterMap (fun kv => kv.2.loc)).foldl (fun acc l =>
    if d.relocs.any (fun r => r.src == l) || d.readsOut (relocOwner b l.stripe l.pos) then acc else insertSorted acc (l.stripe * 32 + l.pos)) []

/-- A chunk of a VICTIM band has been read through the decode path, its erased codewords by degraded read: its valid granules are held, unchanged and with their poison marks, until
their copies commit, and are written to QLC. -/
def Dev.relocRead (d : Dev) (b k pos : Nat) : Dev :=
  let w := relocOwner b k pos
  let d := ((List.range 16).foldl (fun (d : Dev) c => (d.serveCw w b k pos c).2) d).dropOwned w
  let here := (d.validIn b).filter (fun kv => kv.2.loc.any (fun l => l.stripe == k && l.pos == pos))
  (here.foldl (fun (d : Dev) kv =>
    match kv.2.loc, kv.2.loc.bind d.granNow with
    | some l, some g =>
      if d.relocs.any (fun r => r.src == l) then d
      else { d with relocs := d.relocs ++ [({ slice := kv.1 / 2 ^ 37, granule := kv.1 % 2 ^ 37, src := l, gran := g, dst := none, ok := false } : Reloc)] }
    | _, _ => d) d).placeRelocs

/-- Chunks of one band under relocation at a time (DESIGN CHOICE, log 218). -/
def relocDepth : Nat := 16

/-- The relocation of a chunk goes on: what it still needs is read (a codeword whose set has gone by degraded read, R337, R343), or, with all there, its
granules are taken. -/
def Dev.relocStep (d : Dev) (b k pos : Nat) : Dev :=
  let w := relocOwner b k pos
  let todo := (List.range 16).filter (fun c => !d.cwReady w b k pos c)
  if todo.isEmpty then d.relocRead b k pos
  else d.dealReads w (d.relocCls b) 0 b k pos (d.band b).slc (0, 0) .reloc (todo.flatMap (d.needs w b k pos))

/-- Queue the reads of the next chunks of a VICTIM band. -/
def Dev.dealReloc (d : Dev) (b : Nat) : Dev :=
  if (d.band b).st ≠ .victim then d
  else
    let busy := (d.relocs.filter (fun r => r.src.band == b)).length +
      sumL (d.ports.map (fun kv => kv.2.ops.countP (fun o => o.opc == 0x01 && o.owner == some (relocOwner b o.stripe o.pos) && o.band == b)))
    ((d.relocTodo b).take (relocDepth - busy)).foldl (fun (d : Dev) kp => d.relocStep b (kp / 32) (kp % 32)) d

/-- The relocation of a chunk goes on after one of its reads, and with it that of its band. -/
def Dev.relocGo (d : Dev) (b k pos : Nat) : Dev := (d.relocStep b k pos).dealReloc b

/-- Make a CLOSED band VICTIM; a rebuild of it stops (R343), and the relocation of its granules begins.  The map pages of a metadata band are
written again elsewhere. -/
def Dev.makeVictim (d : Dev) (b : Nat) : Dev :=
  let x := d.band b
  let d := d.setBand b { x with st := .victim, victimV := (d.validIn b).length }
  let d := (({ d with rbQueue := d.rbQueue.filter (· != b) }).rbCounts.freeCredit (fun u => rebuildUnit b 0 ≤ u && u < rebuildUnit b 4096)).journalBand b 5
  let pages := (d.metaAt.filter (fun kv => kv.2.any (fun c => c / 32 / 4096 == b))).map Prod.fst
  let d := pages.foldl (fun (d : Dev) pk =>
    let d := if d.resident.contains pk then d else d.wantPage pk 3
    if d.dirty.contains pk || d.inBack pk then d else { d with dirty := d.dirty ++ [pk] }) d
  (d.setFld Reg.MAP_CACHE_DIRTY 20 0 d.dirty.length).dealReloc b

/-- The score of R221. -/
def Dev.victimScore (d : Dev) (b : Nat) : Nat :=
  let v := (d.validIn b).length
  if 2 ≤ d.gcModeOf then bandGranules - v
  else (bandGranules - v) * (1 + min (d.eccDay - (d.band b).closeDay) 64) * 2 ^ 40 / (bandGranules + v)

/-- The victim of R221: the oldest band marked for refresh, else the CLOSED QLC band with the highest score, the
lowest number on a tie, never a full one. -/
def Dev.chooseVictim (d : Dev) : Option Nat :=
  let closed := (d.bands.filter (fun kv => kv.2.st == .closed && d.stewards kv.1)).map Prod.fst
  let best (xs : List Nat) (f : Nat → Nat → Bool) : Option Nat := match xs with
    | [] => none
    | y :: ys => some (ys.foldl (fun m z => if f z m then z else m) y)
  match best (closed.filter (fun b => (d.band b).refresh)) (fun z m => decide ((d.band z).closeNo < (d.band m).closeNo)) with
  | some b => some b
  | none =>
    best (closed.filter (fun b => !(d.band b).slc && !(d.band b).isMeta && decide ((d.validIn b).length < bandGranules)))
      (fun z m => decide (d.victimScore m < d.victimScore z))

/-- Collection runs (Table MAP-6, R224): in BACKGROUND with BG_EN = 1, in FOREGROUND and in HARD. -/
def Dev.collects (d : Dev) : Bool :=
  match d.gcModeOf with
  | 0 => false
  | 1 => d.flag Reg.MAP_GC_CTL 0
  | _ => true

/-- The band wear levelling relocates: the coldest CLOSED band, while the erase counts of bands lie further apart than
MAP_WL_SPREAD and no other band is being relocated. -/
def Dev.wearVictim (d : Dev) : Option Nat :=
  let closed := (d.bands.filter (fun kv => kv.2.st == .closed && !kv.2.isMeta && d.stewards kv.1)).map Prod.fst
  if d.fld Reg.MAP_PE_MIN 15 0 + d.fld Reg.MAP_WL_SPREAD 15 0 < d.fld Reg.MAP_PE_MAX 15 0 ∧
      !d.bands.any (fun kv => kv.2.st == .victim) then
    match closed with
    | [] => none
    | b :: bs => some (bs.foldl (fun m z => if (d.band z).closeNo < (d.band m).closeNo then z else m) b)
  else none

/-- GC_VICTIM_SELECT (R218, R221, R224): refresh in every mode, else collection where it runs, else wear levelling.  Relocation of the VICTIM bands
there are goes on. -/
def doGcVictimSelect (d : Dev) : Dev :=
  let d := if d.mapStop then d else ((d.bands.filter (fun kv => kv.2.st == .victim)).map Prod.fst).foldl (fun (d : Dev) b => d.dealReloc b) d.placeRelocs
  let pick := match d.chooseVictim with
    | some b => if (d.band b).refresh || d.collects then some b else d.wearVictim
    | none => d.wearVictim
  match pick with
  | none => d
  | some b =>
    if d.mapHeld then d
    else
      let d := if (d.band b).refresh then d.inc Reg.MAP_REFRESH 1 else d
      (d.makeVictim b).respace
def execGcVictimSelect (s : State) : Host.Outcome State Fault Refusal := act s doGcVictimSelect

/-- SLC_FOLD (R209): SLC bands in use above three quarters of N_SLC; the oldest CLOSED SLC band is relocated. -/
def doSlcFold (d : Dev) : Dev :=
  let closed := (d.bands.filter (fun kv => kv.2.st == .closed && kv.2.slc && !kv.2.isMeta && d.stewards kv.1)).map Prod.fst
  if d.mapHeld || decide (4 * d.fld Reg.MAP_SLC_USED 22 0 ≤ 3 * d.fld Reg.MAP_SLC_TGT 22 0) then d
  else
    match closed with
    | [] => d
    | b :: bs =>
      let old := bs.foldl (fun m z => if (d.band z).closeNo < (d.band m).closeNo then z else m) b
      (((d.setBand old { d.band old with fold := true }).makeVictim old).inc Reg.MAP_FOLDS 1).respace
def execSlcFold (s : State) : Host.Outcome State Fault Refusal := act s doSlcFold

/-- RELOC_COMMIT (R217): the copy at half `half` of position `pos` in stripe `stripe` of QLC band `band`, programmed and verified, becomes the
granule's place if its entry still names the source (`fromLoc` is the source's flash key × 2 + half) in a band under relocation; else the
copy is invalid space.  The ciphertext, seal, cipher record and poison mark have moved unchanged. -/
def doRelocCommit (slice granule fromLoc band stripe pos half : Nat) (d : Dev) : Dev :=
  let s := slice % 1024
  let g := granule % 2 ^ 37
  match d.relocs.find? (fun r => r.slice == s && r.granule == g && r.src.key * 2 + r.src.half == fromLoc && r.ok &&
      r.dst.any (fun l => l.band == band && l.stripe == stripe && l.pos == pos && l.half == half % 2)) with
  | none => d
  | some r =>
    if d.mapStop || d.dumping then d
    else if !d.pageHere (pageKey s g) then d.wantPage (pageKey s g) 3
    else if d.dlogFull then d.dlogStall
    else
      let d : Dev := { d with relocs := d.relocs.filter (· != r) }
      let d := if (d.ent s g).loc = some r.src then
          d.mapChange { slice := s, granule := g, gver := (d.ent s g).gver, loc := r.dst, src := some r.src, owner := none, mnum := none }
        else d
      d.placeRelocs.dealReloc r.src.band
def execRelocCommit (slice granule fromLoc band stripe pos half : Nat) (s : State) : Host.Outcome State Fault Refusal :=
  act s (doRelocCommit slice granule fromLoc band stripe pos half)

/-- Outstanding reads that resolved to a band (R205). -/
def Dev.readsOf (d : Dev) (b : Nat) : Nat :=
  (d.ports.map (fun kv => (kv.2.ops.filter (fun o => o.opc == 0x01 && o.band == b)).length)).foldl (· + ·) 0

/-- Something of the band is still needed (R205, R222): a valid granule, a read that resolved to it, a version placed in it, a granule under
relocation from it, a change of the map that names it, or a copy of a map page. -/
def Dev.bandNeeded (d : Dev) (b : Nat) : Bool :=
  !(d.validIn b).isEmpty || d.readsOf b != 0 || d.cache.any (fun v => v.loc.any (fun l => l.band == b)) ||
  d.relocs.any (fun r => r.src.band == b) || d.mapPend.any (fun x => x.loc.any (fun l => l.band == b)) ||
  (d.metaAt.flatMap Prod.snd ++ d.metaBack.flatMap MetaBack.chunks).any (fun c => c / 32 / 4096 == b)

/-- Put spares in the place of the band's failed sets (R206); `false` when a die has none left. -/
def Dev.spareSets (d : Dev) (b : Nat) : Bool × Dev :=
  ((List.range 19).filter (fun j => (d.setAtPos b j).erased)).foldl
    (fun (acc : Bool × Dev) j => let t := acc.2.takeSpare b j; (acc.1 && t.1, t.2)) (true, d)

/-- BAND_ERASE (R205, R206): a VICTIM band of which nothing is needed; the erase of its sets is queued, failed sets having found their spares,
without which the band is withdrawn. -/
def doBandErase (band : Nat) (d : Dev) : Dev :=
  let x := d.band band
  if x.st ≠ .victim ∨ d.bandNeeded band ∨ d.mapHeld then d
  else
    let t := (d.unreplace band).spareSets band
    let d := t.2
    if !t.1 then ((d.setBand band { d.band band with st := .withdrawn }).journalBand band 7).respace
    else
      let d := d.setBand band { d.band band with st := .erasing, erasedSets := [], sets := d.setsOf band }
      let d := { d with cap := { d.cap with segs := d.cap.segs.filter (fun g => g.band != band) } }.journalBand band 6
      ((List.range 19).zip (d.setsOf band)).foldl (fun d js =>
        d.addOp js.2.port (mkOp 0x03 .erase d.gcCls 0 band 0 js.1 js.2.die js.2.block 0 x.slc)) d
def execBandErase (band : Nat) (s : State) : Host.Outcome State Fault Refusal := act s (doBandErase band)

end Sys2Proof.Machine
end

