-- ==== Sys2Proof/Machine/Fch.lean ====
section
/-! DEFINITION. The controller's side of the flash ports (chapter 09): link-level replay, the bridge's responses, lane
states, port service and lane tests. -/

namespace Sys2Proof.Machine

/-! ### Replay (R257 to R259) -/

/-- SEQ of the first unacknowledged flit. -/
def Port.base (x : Port) : Nat := (x.txNext + 4096 - x.txBuf.length) % 4096

/-- `n` flits leave the replay buffer: progress, when there are any (R258). -/
def Port.acked (x : Port) (n tick : Nat) : Port := if n = 0 then x else { x with txBuf := x.txBuf.drop n, txTick := tick }

/-- ACK of every SEQ up to `seq` (Table LNK-2): waiting flits take the room. -/
def Dev.ackUpTo (d : Dev) (p seq : Nat) : Dev :=
  let x := d.port p
  let n := (seq % 4096 + 4096 - x.base + 1) % 4096
  if n ≤ x.txBuf.length then (d.setPort p (x.acked n d.tick)).pump p else d

/-- Replay from the first unacknowledged flit; the fourth transmission without acknowledgement enters RECOVERY (R258). -/
def Dev.replay (d : Dev) (p : Nat) : Dev :=
  let x := d.port p
  if x.txBuf.isEmpty then d
  else
    let d := (d.capRecFree 0x22 p [3, x.txBuf.length]).inc (Reg.FCH_P_REPLAY p) x.txBuf.length
    let buf := x.txBuf.map (fun fc => (fc.1, fc.2 + 1))
    let d := buf.foldl (fun (d : Dev) fc => d.emit (.flit p fc.1)) (d.setPort p { x with txBuf := buf, txTick := d.tick })
    if buf.any (fun fc => decide (4 ≤ fc.2)) then d.enterRecovery p else d

/-- ACK. -/
def doAck (port seq : Nat) (d : Dev) : Dev := if d.laneUp (port % 512) then d.ackUpTo (port % 512) seq else d
def execAck (port seq : Nat) (s : State) : Host.Outcome State Fault Refusal := act s (doAck port seq)

/-- NAK: what lies before the expected SEQ is acknowledged, the rest is replayed. -/
def doNak (port seq : Nat) (d : Dev) : Dev :=
  let p := port % 512
  if d.laneUp p then
    let x := d.port p
    let n := (seq % 4096 + 4096 - x.base) % 4096
    (((d.capRecFree 0x22 p [2, seq % 4096]).setPort p (if n ≤ x.txBuf.length then x.acked n d.tick else x)).replay p).pump p
  else d
def execNak (port seq : Nat) (s : State) : Host.Outcome State Fault Refusal := act s (doNak port seq)

/-- REPLAY_TIMEOUT (R258): 256 ns without acknowledgement progress. -/
def doReplayTimeout (port : Nat) (d : Dev) : Dev :=
  let p := port % 512
  if d.laneUp p && decide ((d.port p).txTick + 256 ≤ d.tick) then d.replay p else d
def execReplayTimeout (port : Nat) (s : State) : Host.Outcome State Fault Refusal := act s (doReplayTimeout port)

/-- RECOVERY_TIMEOUT (R259): 50 µs in RECOVERY. -/
def doRecoveryTimeout (port : Nat) (d : Dev) : Dev :=
  let p := port % 512
  if d.lstate p = 6 ∧ (d.port p).initTick + 50000 ≤ d.tick then d.reinit p else d
def execRecoveryTimeout (port : Nat) (s : State) : Host.Outcome State Fault Refusal := act s (doRecoveryTimeout port)

/-! ### What a response says about the die and the port (R285, R286) -/

/-- DIE_TIMEOUT twice in a row fails the die; FATAL fails the port. -/
def Dev.rspStatus (d : Dev) (p die status : Nat) : Dev :=
  if status = 0x0F then d.portFail p 3 (d.lstate p)
  else
    let x := d.port p
    if status = 0x08 then
      let n := SMap.get (fun _ => 0) x.timeouts die + 1
      let d := d.setPort p { x with timeouts := SMap.set (fun _ => 0) x.timeouts die n }
      if 2 ≤ n then d.dieFailed p die 1 else d
    else d.setPort p { x with timeouts := x.timeouts.erase die }

/-- The die whose operation or read holds a tag at the bridge. -/
def Bridge.dieOf (b : Bridge) (tag : Nat) (read : Bool) : Option (Nat × BDie) :=
  b.dies.find? (fun kv => if read then kv.2.rdTag == some tag
    else kv.2.tag == tag && (kv.2.st == .programming || kv.2.st == .erasing || kv.2.st == .suspended))

/-! ### Programs, verify and PROGRAMMED (R222, R306 to R308) -/

/-- A stripe's chunks have all passed verify: PROGRAMMED (Table ARC-5); the last stripe of a full band closes it. -/
def Dev.stripeDone (d : Dev) (b k : Nat) : Dev :=
  if (List.range 19).all (fun j => d.chunksOk.contains (chunkId b k j)) then
    let d : Dev := { d with
      progd := d.progd.filter (fun kv => kv.1 / 32 != b * 4096 + k)
      chunksOk := d.chunksOk.filter (fun c => c / 32 != b * 4096 + k)
      cache := d.cache.map (fun (v : Ver) =>
        if v.loc.any (fun (l : Loc) => l.band == b && l.stripe == k) then { v with stage := .programmed } else v)
      relocs := d.relocs.map (fun (r : Reloc) => if r.dst.any (fun l => l.band == b && l.stripe == k) then { r with ok := true } else r) }
    let d := d.freeCredit (fun u => u == 2 ^ 19 + b * 4096 + k)
    let x := d.band b
    let d := d.setBand b { x with verified := max x.verified (k + 1) }
    let d := if (d.inFlight b).any (fun i => i / 64 == k / 64) then d else d.bmMayClear b (k / 64)
    let y := d.band b
    let d := if y.next = y.stripes ∧ (d.inFlight b).isEmpty ∧ !d.fills.any (fun f => f.band == b) ∧ (y.st = .openSlc ∨ y.st = .openQlc ∨ y.st = .openMeta) then d.closeBand b else d
    (d.metaDone b k).postPlaced
  else d

/-- The class of a chunk's program (R307). -/
def Dev.progCls (d : Dev) (c : Nat) : Nat := SMap.get (fun _ => 0) d.progd c % 4

/-- Deal the verify reads that a DONE at page `p` of a set makes due (R307, R308), at the class of the program verified: page p − 8, or with the last page of
the block it and the eight before it, seven of which no page of the block follows by eight (DESIGN CHOICE, log 248). -/
def Dev.verifyDue (d : Dev) (p : Nat) (o : POp) : Dev :=
  let n := (d.band o.band).stripes
  let pages := if o.page + 1 = n then (List.range 9).map (fun i => n - 9 + i) else if 8 ≤ o.page then [o.page - 8] else []
  let d := pages.foldl (fun d q =>
    let c := chunkId o.band q o.pos
    if (SMap.get (fun _ => 0) d.progd c) ≠ 0 ∧ !d.chunksOk.contains c ∧
        !(d.port p).ops.any (fun v => (v.src == .verify || v.src == .early) && v.die == o.die && v.block == o.block && v.page == q) then
      d.addOp p (mkOp 0x01 .verify (d.progCls c) o.slice o.band q o.pos o.die o.block q o.slc)
    else d) d
  d.dealFinals o.band o.pos (d.setAtPos o.band o.pos) o.slc (fun q => pages.contains q)

/-- A rebuild's program reported DONE with OK (R340, R341): the chunk is named as before, it counts, and the verify reads that it makes due are dealt:
page p − 8, or with the last page the last nine. -/
def Dev.rebuildOk (d : Dev) (p : Nat) (o : POp) : Dev :=
  let d := (d.setFPage (d.chunkKey o.band o.stripe o.pos) (d.fpage (flashKey p o.die o.block o.page)))
  let d := d.inc64 Reg.SHF_RB_CHUNKS_LO Reg.SHF_RB_CHUNKS_HI 1
  let n := (d.band o.band).next
  let pages := if o.page + 1 = n then (List.range (min 9 n)).map (fun i => n - min 9 n + i) else if 8 ≤ o.page then [o.page - 8] else []
  pages.foldl (fun (d : Dev) q => d.addOp p (mkOp 0x01 .verify 3 0 o.band q o.pos o.die o.block q o.slc)) d

/-- A program reported DONE with OK: the page holds the chunk, the stripe buffer is free. -/
def Dev.programOk (d : Dev) (p : Nat) (o : POp) : Dev :=
  let key := flashKey p o.die o.block o.page
  let d := match SMap.find d.stripeBuf key with
    | some pg => { d.setFPage key pg with stripeBuf := d.stripeBuf.erase key }
    | none => d
  let c := chunkId o.band o.stripe o.pos
  if o.src = .rebuild then d.rebuildOk p o
  else if (d.progd.find c).isSome then
    let d : Dev := { d with progd := SMap.insert d.progd c (4 * (d.tick + 1) + o.cls % 4) }
    (if (d.dpar.find (setKey p o.die o.block)).isSome then d.accMove (setKey p o.die o.block) o.page true else d).verifyDue p o
  else d

/-- An erase reported DONE with OK: the set's pages are erased and its tracker entry is reset (R302). -/
def Dev.eraseOk (d : Dev) (p : Nat) (o : POp) : Dev :=
  let k := setKey p o.die o.block
  let back := o.stripe == 1
  let d := ({ d with flash := d.flash.filter (fun (kv : Nat × FPage) => kv.1 / 4096 != k) }.dparDrop k).trackerErase k
  let x := d.band o.band
  if back then d.rebuildSetFree (p * 2 ^ 18 + o.die * 2 ^ 12 + o.block)
  else (d.setBand o.band { x with erasedSets := insertSorted x.erasedSets o.pos }).eraseProgress o.band

/-- A failed erase (R206): the set is retired, and the band goes on with the erase of the spare, or is withdrawn; a rebuild set is not used
again. -/
def Dev.eraseBad (d : Dev) (o : POp) : Dev :=
  if o.stripe = 1 then d else
  let r := d.retireSet o.band o.pos
  let d := r.2
  let x := d.band o.band
  let s := d.setAtPos o.band o.pos
  if r.1 then d.addOp s.port { o with die := s.die, block := s.block, stage := .waiting, misses := 0, sent := none }
  else (d.setBand o.band { x with st := .withdrawn }).respace

/-! ### Responses -/

/-- The capture record of a response (Table SCP-5): its 28 bytes as Table LNK-4 lays them out, with the fields of its own from byte 6 on. -/
def Dev.bridgeRec (d : Dev) (p opc : Nat) (r : BRsp) (rargs : Fields) : Dev :=
  let fs := [(1, opc), (1, r.status), (2, r.tag % 4096), (1, r.onfi), (1, r.orphan.toNat)] ++ rargs
  d.capRec 0x21 p (fs ++ [(28 - payLen fs, 0)])

/-- A response that no operation awaits tells of a bridge that cannot continue (R286), and of nothing else. -/
def Dev.fatal (d : Dev) (p status : Nat) : Dev := if status = 0x0F then d.portFail p 3 (d.lstate p) else d

/-- The report of a die's operation comes to this controller: not when the other port holds the token (R277). -/
def Dev.hearsOf (d : Dev) (p tag : Nat) (read : Bool) : Bool :=
  ((d.bridge p).dieOf tag read).isNone || (d.bridge p).holder != 2 - d.side

/-- A report is of an operation that the previous owner started (R277). -/
def Dev.isOrphan (d : Dev) (p : Nat) (r : BRsp) (read : Bool) : Bool :=
  r.orphan || ((d.bridge p).dieOf (r.tag % 4096) read).any (fun kv => kv.2.orphan)

/-- RDATA (Table LNK-6): the read's codewords go to the hard decoders; a failed read is handled as R285 says.  What the codewords hold is the page's
content (R290); what their decoding finds is HARD_DECODE_DONE's. -/
def doRdata (port : Nat) (r : BRsp) (cwMask : Nat) (soft : Bool) (content : Nat) (d : Dev) : Dev :=
  let p := port % 512
  let tag := r.tag % 4096
  let _ := content
  let mine := d.hearsOf p tag true
  let orphan := d.isOrphan p r true
  let b := d.bridge p
  let d : Dev := match b.dieOf tag true with
    | some (i, x) => d.setBridge p (b.setDie i { x with rdTag := none, st := if x.st = .reading then .idle else x.st, orphan := false, onfi := r.onfi % 256 })
    | none => d
  if !mine then d
  else
  let d := d.bridgeRec p 0x81 r [(1, cwMask), (1, soft.toNat)]
  if orphan then d.fatal p r.status
  else
    match (d.port p).op? tag with
    | some o =>
      if o.opc ≠ 0x01 ∨ o.stage ≠ .running ∨ o.data then d.fatal p r.status
      else
        let d := if o.owner.all d.ownerLives then d.setPortOp p { o with data := true, came := d.tick } else d.dropOp p tag
        (d.rspStatus p o.die r.status).outCounts p
    | none => d.fatal p r.status
def execRdata (port : Nat) (r : BRsp) (cwMask : Nat) (soft : Bool) (content : Nat) (s : State) :
    Host.Outcome State Fault Refusal := act s (doRdata port r cwMask soft content)

/-- The bridge's side of a DONE: the die is idle, its last operation is recorded, an OK program empties its buffer
(R273), an OK erase resets the next-page records (R272). -/
def Dev.bridgeDone (d : Dev) (p tag opc status onfi : Nat) : Dev :=
  let b := d.bridge p
  if opc = 0x02 ∨ opc = 0x03 then
    match b.dieOf tag false with
    | some (i, x) =>
      let b := { b with
        bufs := if opc = 0x02 ∧ status = 0 then b.bufs.erase x.buf else b.bufs
        next := if opc = 0x03 ∧ status = 0 then (planesOf x.planes).foldl (fun m pl => SMap.insert m (nextKey i pl x.block) 1) b.next
                else b.next }
      d.setBridge p (b.setDie i { x with st := .idle, orphan := false, lastTag := tag, lastSt := status, onfi := onfi % 256 })
    | none => d
  else d

/-- DONE (R206, R222, R285, R307): a program, erase, suspend, resume or SET_OFFSETS has ended. -/
def doDone (port : Nat) (r : BRsp) (opc time100ns suspends : Nat) (d : Dev) : Dev :=
  let p := port % 512
  let tag := r.tag % 4096
  let mine := d.hearsOf p tag false
  let orphan := d.isOrphan p r false
  let d := d.bridgeDone p tag opc r.status r.onfi
  if !mine then d
  else
  let d := d.bridgeRec p 0x82 r [(1, opc), (1, 0), (2, time100ns), (1, suspends)]
  if orphan then d.fatal p r.status
  else
    match (d.port p).op? tag with
    | some o =>
      if o.opc ≠ opc ∨ o.stage ≠ .running ∨ o.opc = 0x01 then d.fatal p r.status
      else
        let g := some (p / 8)
        let d := (d.score 8 time100ns none none g).score 9 suspends none none g
        let x := d.port p
        let d := d.setPort p { x with susOpen := x.susOpen.erase o.die }
        let d := d.dropOp p tag
        let d := if o.forTwin.isSome then d.sendGulon 0x21 (remoteDoneFs (o.forTwin.getD 0) r.status [])
          else match o.opc == 0x02, r.status == 0 with
          | true, true => d.programOk p o
          | true, false => d.programBad o
          | false, true => d.eraseOk p o
          | false, false => d.eraseBad o
        (d.rspStatus p o.die r.status).outCounts p
    | none => d.fatal p r.status
def execDone (port : Nat) (r : BRsp) (opc time100ns suspends : Nat) (s : State) : Host.Outcome State Fault Refusal :=
  act s (doDone port r opc time100ns suspends)

/-- Count FCH_C_DIES. -/
def Dev.diesCount (d : Dev) : Dev :=
  d.setFld Reg.FCH_C_DIES 15 0 (sumL ((List.range 512).map (fun p => (d.diesOf p).length)))

/-- Publish a port's delay (R284): half of what the turnaround leaves of the median round trip. -/
def Dev.delayPublish (d : Dev) (p : Nat) : Dev :=
  let dly := (d.fld (Reg.FCH_P_RTT p) 19 0 - d.fld (Reg.FCH_P_GEOM p) 31 16) / 2
  let d := d.setPort p { d.port p with delay := dly }
  if d.fld Reg.DLR_PSEL 8 0 = p then
    (d.setFld Reg.DLR_P_DELAY 15 0 (satN 16 dly)).setFlag Reg.DLR_P_DELAY 16 (d.port p).skewBad
  else d

/-- What a die says of the operations that were armed or running when the lane was re-initialised (R259): complete with the reported result; on an idle
die never started, and dealt again with their data; on a busy one still running. -/
def Dev.askedOps (d : Dev) (p die dieState lastTag lastStatus : Nat) (r : BRsp) : Dev :=
  let d := ((d.port p).ops.filter (fun o => o.die == die && o.asked)).foldl (fun (d : Dev) o =>
    if dieState = 0 ∧ o.tag = lastTag % 4096 then
      doDone p { status := lastStatus, tag := lastTag, onfi := r.onfi, orphan := false } o.opc 0 o.sus d
    else if dieState = 0 then d.setPortOp p { o with stage := .waiting, buf := 32, asked := false }
    else d.setPortOp p { o with asked := false }) d
  d.outCounts p

/-- STATUS (Table LNK-6): a FAILED die (R285), a present or absent one, the bridge's model, geometry and TA with INFO, and
after a re-initialisation what became of the die's operations (R259). -/
def doStatus (port die : Nat) (r : BRsp) (dieState suspends lastTag lastStatus : Nat) (temp : Int)
    (info : Option (Nat × Nat × Nat × Nat × Nat)) (d : Dev) : Dev :=
  let p := port % 512
  let i := die % 64
  let more := match info with
    | some (model, fw, blocks, dies, ta) => [(2, model), (2, fw), (2, blocks), (1, dies), (1, 0), (2, ta)]
    | none => []
  let d := (d.bridgeRec p 0x86 r ([(1, dieState), (1, suspends), (2, lastTag), (1, lastStatus), (1, (temp % 256).toNat)] ++ more)).score 16 temp.toNat none none (some (p / 8))
  let d := d.setPort p { d.port p with asks := (d.port p).asks.erase (r.tag % 4096) }
  let here := dieState != 6
  let d := d.setFlag (if i < 32 then Reg.FCH_P_DIES_LO p else Reg.FCH_P_DIES_HI p) (i % 32) here
  let b := d.bridge p
  let d := if dieState = 6 then d.setBridge p (b.setDie i { b.die i with st := .absent })
    else if (b.die i).st = .absent then d.setBridge p (b.setDie i BDie.reset) else d
  let d := d.diesCount
  let d := match info with
    | some (model, fw, blocks, _, ta) =>
      let d := (d.setFld (Reg.FCH_P_BRIDGE p) 15 0 model).setFld (Reg.FCH_P_BRIDGE p) 31 16 fw
      ((d.setFld (Reg.FCH_P_GEOM p) 11 0 blocks).setFld (Reg.FCH_P_GEOM p) 31 16 (ta * 125)).delayPublish p
    | none => d
  let d := if dieState = 5 ∨ dieState = 6 then d else d.askedOps p i dieState lastTag lastStatus r
  if r.status = 0x0F then d.portFail p 3 (d.lstate p)
  else if dieState = 5 then d.dieFailed p i 2 else d
def execStatus (port die : Nat) (r : BRsp) (dieState suspends lastTag lastStatus : Nat) (temp : Int)
    (info : Option (Nat × Nat × Nat × Nat × Nat)) (s : State) : Host.Outcome State Fault Refusal :=
  act s (doStatus port die r dieState suspends lastTag lastStatus temp info)

/-- OWN (R276, R277, R400): the token and FENCE as the bridge reports them; a bridge this unit held that the twin now holds
was taken by force. -/
def doOwn (port : Nat) (r : BRsp) (holder fence : Nat) (d : Dev) : Dev :=
  let p := port % 512
  let f := fence % 65536
  let own := if holder = 0 then 0 else if holder = d.side + 1 then 1 else 2
  let d := d.bridgeRec p 0x88 r [(1, holder), (1, 0), (2, f)]
  let d := if own = 2 then d.ownLost p f else d
  let was := d.fld (Reg.FCH_P_STS p) 4 3
  let d : Dev := if r.status = 0 then { d with takes := d.takes.filter (· != p), wants := SMap.erase d.wants p }
    else if (d.wants.find p).isSome then { d with wants := SMap.insert d.wants p false } else d
  let d := (d.setFld (Reg.FCH_P_STS p) 4 3 own).setFld (Reg.FCH_P_STS p) 31 16 f
  let d := if was = own then d else d.raise (0x800 + p) 3
  if r.status = 0x0F then d.portFail p 3 (d.lstate p) else d
def execOwn (port : Nat) (r : BRsp) (holder fence : Nat) (s : State) : Host.Outcome State Fault Refusal :=
  act s (doOwn port r holder fence)

/-- POWER (R280): the bridge's power state now in force; a lane that leaves ON is out of ACTIVE. -/
def doPower (port : Nat) (r : BRsp) (state : Nat) (d : Dev) : Dev :=
  let p := port % 512
  let d := d.bridgeRec p 0x8A r [(1, state)]
  if r.status = 0 ∧ state = 2 then d.setLstate p 0
  else if r.status = 0x0F then d.portFail p 3 (d.lstate p) else d
def execPower (port : Nat) (r : BRsp) (state : Nat) (s : State) : Host.Outcome State Fault Refusal := act s (doPower port r state)

/-- The median of a list of numbers (its middle element, the upper one of an even count). -/
def medianOf (l : List Nat) : Nat :=
  let sorted := l.foldl (fun acc x => (acc.filter (fun y => decide (y ≤ x))) ++ x :: acc.filter (fun y => decide (x < y))) []
  sorted.getD (sorted.length / 2) 0

/-- Publish a port's delay measurement (R238, R284): the median, the spread, the delay and SKEW_BAD. -/
def Dev.delayMeasured (d : Dev) (p rtt spread : Nat) : Dev :=
  let bad := decide (500 < spread)
  let d := (d.setFld (Reg.FCH_P_RTT p) 19 0 (satN 20 rtt)).setFld (Reg.FCH_P_RTT_SPREAD p) 15 0 (satN 16 spread)
  let d := (d.setPort p { d.port p with skewBad := bad }).delayPublish p
  let n := (d.ports.filter (fun kv => kv.2.skewBad)).length
  let d := (d.setFld Reg.DLR_SKEW 31 16 n).setFld Reg.DLR_SKEW 15 0 (satN 16 (max (d.fld Reg.DLR_SKEW 15 0) (spread / 2)))
  if bad then (d.recordErr 0x701 0x0101 p (spread / 2)).raise 0x701 4 else d

/-- Sixteen round trips are measured (R284). -/
def Dev.roundTrips (d : Dev) (p : Nat) (rs : List Nat) : Dev :=
  let hi := rs.foldl max 0
  d.delayMeasured p (medianOf rs) (hi - rs.foldl min hi)

/-- TEST (R283, R284): a DELAY test that GO started adds one round trip, and the sixteenth completes the measurement; any other test ends
with its bit errors, and the lane is in service again.  FCH_P_TEST_BITS counts one direction at 32 GT/s for DUR ms, rounded down (DESIGN CHOICE, log 244). -/
def doTest (port : Nat) (r : BRsp) (stamp errors rtt : Nat) (d : Dev) : Dev :=
  let p := port % 512
  let d := d.bridgeRec p 0x8B r [(2, 0), (8, stamp), (8, errors)]
  let x := d.port p
  if r.status = 0x0F then d.portFail p 3 (d.lstate p)
  else if x.testTag = 0 then d
  else if d.fld (Reg.FCH_P_TEST_CTL p) 1 0 ≠ 0 then
    let d := d.setPort p { x with testTag := 0, testEnd := 0 }
    let d := (d.setReg (Reg.FCH_P_TEST_ERR p) (w32 (satN 32 errors))).setReg (Reg.FCH_P_TEST_STS p) (w32 (1 + 2 * (decide (errors = 0)).toNat))
    let bits := d.fld (Reg.FCH_P_TEST_CTL p) 15 8 * 32000000 / 2 ^ 30
    (d.setReg (Reg.FCH_P_TEST_BITS p) (w32 bits)).raise (0x800 + p) 4
  else
    let rs := x.rtts ++ [rtt]
    if rs.length < 16 then d.setPort p { x with rtts := rs }
    else ((((d.setPort p { x with rtts := [], testTag := 0 }).roundTrips p rs)).setReg (Reg.FCH_P_TEST_STS p) 3).raise (0x800 + p) 4
def execTest (port : Nat) (r : BRsp) (stamp errors rtt : Nat) (s : State) : Host.Outcome State Fault Refusal :=
  act s (doTest port r stamp errors rtt)

/-- A DIE_SUSPEND or DIE_RESUME that was not confirmed (R237): it is counted and undone, and goes out again with the next plan; a second miss in a row
records error 0x0103. -/
def Dev.susMissed (d : Dev) (p : Nat) (a : Nat × Nat × Nat × Nat × Nat) : Dev :=
  let d := d.inc Reg.DLR_ARM_MISS 1
  let die := a.2.1
  let k := a.1 * 64 + die
  let n := SMap.get (fun _ => 0) (d.port p).susMiss k + 1
  let d := d.setPort p { d.port p with susMiss := SMap.set (fun _ => 0) (d.port p).susMiss k n }
  let d := if n = 2 then d.recordErr 0x701 0x0103 p die else d
  let x := d.port p
  if a.1 = 0x05 then d.setPort p { x with susOpen := SMap.set (fun _ => 0) x.susOpen die a.2.2.2.2, susDue := insertSorted x.susDue die }
  else d.setPort p { (match x.running die with
    | some r => x.setOp { r with sus := r.sus - 1 }
    | none => x) with susOpen := x.susOpen.erase die }

/-- ARM_CUT (R237, R266): arms after CUT, or all if nothing fired, are unconfirmed: counted, and dealt again under a new
tag; a second miss records error 0x0103.  FATAL fails the port (R286). -/
def doArmCut (port status trick cut : Nat) (fired : Bool) (count : Nat) (d : Dev) : Dev :=
  let p := port % 512
  let d := d.bridgeRec p 0x8C { status := status, tag := 0, onfi := 0, orphan := false } [(2, trick), (2, cut), (1, fired.toNat), (1, count)]
  let d := if fired then d else d.inc (Reg.FCH_P_MARKMISS p) 1
  let confirmed (seq : Nat) : Bool :=
    let late := (seq + 4096 - cut % 4096) % 4096
    fired && (late == 0 || decide (2048 ≤ late))
  let x := d.port p
  let here := x.susArms.filter (fun a => a.2.2.1 == trick % 65536)
  let heard := (here.filter (fun a => confirmed a.2.2.2.1)).map (fun a => a.1 * 64 + a.2.1)
  let d := d.setPort p { x with susArms := x.susArms.filter (fun a => a.2.2.1 != trick % 65536), susMiss := x.susMiss.filter (fun kv => !heard.contains kv.1) }
  let d := (here.filter (fun a => !confirmed a.2.2.2.1)).foldl (fun d a => d.susMissed p a) d
  let mine := (d.port p).ops.filter (fun o => o.stage == .armed && o.trick == trick % 65536)
  let d := mine.foldl (fun d o =>
    if confirmed o.seq then d.setPortOp p { o with stage := .running, start := d.tick }
    else
      let x := d.port p
      let t := x.freeTag
      let d := d.setPort p { x with ops := x.ops.map (fun (y : POp) => if y.tag == o.tag then
          { o with tag := t, stage := .waiting, misses := o.misses + 1 } else y), nextTag := (t + 1) % 4096 }
      let d := d.inc Reg.DLR_ARM_MISS 1
      if o.misses + 1 = 2 then d.recordErr 0x701 0x0103 p o.die else d) d
  (d.outCounts p).fatal p status
def execArmCut (port status trick cut : Nat) (fired : Bool) (count : Nat) (s : State) : Host.Outcome State Fault Refusal :=
  act s (doArmCut port status trick cut fired count)

/-- REFUSE (R260, R272, R277): counted and recorded; NOT_ERASED is a program failure with an incident; NOT_OWNER on a
bridge this unit held means that the twin took it; FATAL fails the port; BUSY, BUF_EMPTY, LATE and SUS_LIMIT put the
operation back. -/
def doRefuse (port : Nat) (r : BRsp) (opc : Nat) (d : Dev) : Dev :=
  let p := port % 512
  let tag := r.tag % 4096
  let d := (d.bridgeRec p 0x8F r [(1, opc)]).inc (Reg.FCH_P_REFUSE p) 1
  let d := d.recordErr (0x800 + p) 0x0103 tag r.status
  if r.status = 0x0F then d.portFail p 3 (d.lstate p)
  else if r.status = bsNotOwner then d.ownLost p (d.fld (Reg.FCH_P_STS p) 31 16)
  else if opc = 0x09 then { d.setFld (Reg.FCH_P_STS p) 4 3 1 with giving := insertSorted d.giving p }
  else
    match (d.port p).op? tag with
    | some o =>
      if opc = 0x0C ∧ o.opc = 0x02 ∧ o.stage = .waiting then (d.setPortOp p { o with buf := 32 }).outCounts p
      else if o.opc ≠ opc then d
      else if r.status = bsNotErased then
        let d := d.incident 8 0x0103 tag r.status (some o.slice) none (some (setKey p o.die o.block)) (some o.page)
        ((d.dropOp p tag).programBad o).outCounts p
      else if r.status = bsBadAddr ∨ r.status = bsBadArg then (d.abortOp p o).outCounts p
      else (d.setPortOp p { o with stage := .waiting, buf := if r.status = bsBufEmpty then 32 else o.buf }).outCounts p
    | none => d
def execRefuse (port : Nat) (r : BRsp) (opc : Nat) (s : State) : Host.Outcome State Fault Refusal := act s (doRefuse port r opc)

/-- DIE_RESPONSE_TIMEOUT (R285): an operation launched FCH_DIE_TMO ms ago has no response. -/
def doDieResponseTimeout (port tag : Nat) (d : Dev) : Dev :=
  let p := port % 512
  match (d.port p).op? (tag % 4096) with
  | some o =>
    if o.stage = .running ∧ !o.data ∧ o.sent.isNone ∧ o.start + d.fld Reg.FCH_DIE_TMO 15 0 * 1000000 ≤ d.tick then d.dieFailed p o.die 0 else d
  | none => d
def execDieResponseTimeout (port tag : Nat) (s : State) : Host.Outcome State Fault Refusal := act s (doDieResponseTimeout port tag)

/-! ### Lanes and service (R282, R286, R288) -/

/-- PORT_INIT_TIMEOUT (R286): a re-initialisation has not reached ACTIVE within INIT_MS. -/
def doPortInitTimeout (port : Nat) (d : Dev) : Dev :=
  let p := port % 512
  if 1 ≤ d.lstate p ∧ d.lstate p ≤ 4 ∧ !d.portGone p ∧ (d.port p).initTick + d.fld Reg.FCH_C_CTL 15 8 * 1000000 ≤ d.tick then
    (if (d.dom (p / 8)).waking then d.recordErr 0xD01 0x0105 (p / 8) p else d).portFail p 1 (d.lstate p)
  else d
def execPortInitTimeout (port : Nat) (s : State) : Host.Outcome State Fault Refusal := act s (doPortInitTimeout port)

/-- A lane that has left OFF or RET reaches a bridge that powers up (R281); one that the other port holds goes on as it was (R279). -/
def Dev.bridgeWakes (d : Dev) (p : Nat) : Dev :=
  let b := d.bridge p
  if b.power = 0 ∨ b.holder = 2 - d.side then d
  else if b.power = 2 then d.setBridge p { b with power := 0, cutSeq := 4095, cutFor := none, heard := 4095 }
  else d.setBridge p { b with power := 0 }

/-- LANE_ACTIVE (R282, R284): a lane in DETECT goes through SYNC, TRAIN and DELAY to ACTIVE, one in RECOVERY back to it, where it replays; the sixteen delay
tests of either have measured the operand's round trips. -/
def doLaneActive (port : Nat) (rtts : List Nat) (d : Dev) : Dev :=
  let p := port % 512
  let l := d.lstate p
  let rs := rtts.map (· % 2 ^ 20)
  if 1 ≤ l ∧ l ≤ 4 then
    let d := [2, 3, 4].foldl (fun (d : Dev) st => if d.lstate p < st then d.setLstate p st else d) (d.bridgeWakes p)
    ((d.delayWork p (d.askedDies p)).roundTrips p rs).setLstate p 5
  else if l = 6 then
    let d := (d.bridgeWakes p).setLstate p 5
    let x := d.port p
    let d := (d.setPort p { x with txBuf := x.txBuf.map (fun fc => (fc.1, 0)) }).replay p
    ((d.pump p).delayWork p []).roundTrips p rs
  else d
def execLaneActive (port : Nat) (rtts : List Nat) (s : State) : Host.Outcome State Fault Refusal := act s (doLaneActive port rtts)

/-- A port has a new package (R28, R288): nothing of the old one is there.  What bands stored on it stays an erasure; bands withdrawn for it come
back once its sets of them have been erased (R21); spare and rebuild sets taken from it are its again. -/
def Dev.newPackage (d : Dev) (p : Nat) : Dev :=
  let d : Dev := { d with
    fresh := d.fresh.filter (fun (kv : Nat × List Int) => kv.1 / 64 != p)
    flash := d.flash.filter (fun (kv : Nat × FPage) => kv.1 / 4096 / 2 ^ 18 != p || d.bands.any (fun b => b.2.sets.any (fun s => s.old == kv.1 / 4096)))
    rbUsed := d.rbUsed.filter (fun k => k / 2 ^ 18 != p)
    spareUsed := d.spareUsed.filter (fun (kv : Nat × Nat) => kv.1 / 64 != p) }
  let here (x : Band) : Bool := x.sets.any (fun s => s.port == p)
  let d : Dev := { d with bands := d.bands.map (fun (kv : Nat × Band) =>
    if here kv.2 && kv.2.st != .free && kv.2.st != .withdrawn && kv.2.st != .erasing then
      (kv.1, { kv.2 with sets := kv.2.sets.map (fun (s : BSet) => if s.port == p then { s with erased := true } else s) }) else kv) }
  let back := (d.bands.filter (fun kv => kv.2.st == .withdrawn && kv.2.queued == p + 1)).map Prod.fst
  back.foldl (fun (d : Dev) b =>
    let js := (List.range 19).zip (d.setsOf b)
    let d := d.setBand b { d.band b with st := .erasing, sets := d.setsOf b, erasedSets := (js.filter (fun js => js.2.port != p)).map Prod.fst }
    ((js.filter (fun js => js.2.port == p)).foldl (fun (d : Dev) js => d.addOp p (mkOp 0x03 .erase 3 0 b 0 js.1 js.2.die js.2.block 0 false)) d).journalBand b 6) d

/-- RECOMMISSION (R28, R288): on a port out of service, the lane is re-initialised and its failure marks are cleared; a
withdrawn FREE band comes back.  With EN = 1 it is refused with error 0x0100. -/
def doRecommission (port : Nat) (v : Word) (d : Dev) : Dev :=
  let p := port % 512
  let off := Reg.FCH_P_SVC p
  regWrite d off v (fun _ d =>
    if !bitAt v 0 then d
    else if (d.page (0x800 + p)).en then d.recordErr (0x800 + p) 0x0100 0x170 v.toNat
    else
      let d := (d.setFlag (Reg.FCH_P_STS p) 7 false).setFlag (Reg.FCH_P_STS p) 8 false
      let d := ((d.setReg (Reg.FCH_P_DFAIL_LO p) 0).setReg (Reg.FCH_P_DFAIL_HI p) 0).setFlag (Reg.FCH_C_FAILMAP (p / 32)) (p % 32) false
      let d := d.setPort p { d.port p with ops := [], susOpen := [], susArms := [], susMiss := [], susDue := [], slots := [], timeouts := [], recovs := [] }
      let d := d.newPackage p
      (d.reinit p).respace.fchCounts)
def execRecommission (port : Nat) (v : Word) (s : State) : Host.Outcome State Fault Refusal := act s (doRecommission port v)

/-- RETRAIN (R282): an ACTIVE lane enters RECOVERY. -/
def doRetrain (port : Nat) (v : Word) (d : Dev) : Dev :=
  let p := port % 512
  regWrite d (Reg.FCH_P_SVC p) v (fun _ d => if bitAt v 1 && d.lstate p == 5 then d.enterRecovery p else d)
def execRetrain (port : Nat) (v : Word) (s : State) : Host.Outcome State Fault Refusal := act s (doRetrain port v)

/-- LANE_TEST_GO (R283, R289): the register takes the written mode and duration, DUR 0 and MODE 3 being out of range
(error 0x0100); GO starts the test, which in modes 1 and 2 takes the lane out of service for DUR ms, refused with error 0x0105 for modes 1 and 2 with EN = 1. -/
def doLaneTestGo (port : Nat) (v : Word) (d : Dev) : Dev :=
  let p := port % 512
  let off := Reg.FCH_P_TEST_CTL p
  regWrite d off v (fun new d =>
    let mode := bits new 1 0
    if mode = 3 ∨ bits new 15 8 = 0 then d.recordErr (0x800 + p) 0x0100 0x160 v.toNat
    else
      let d := d.setReg off (putBit new 16 false)
      if !bitAt v 16 then d
      else if mode ≠ 0 ∧ (d.page (0x800 + p)).en then
        ((d.recordErr (0x800 + p) 0x0105 mode 0).setReg (Reg.FCH_P_TEST_STS p) 4)
      else
        let d := (d.setReg (Reg.FCH_P_TEST_STS p) 0).setPort p { d.port p with testTag := 1, rtts := [] }
        let d := (List.range (if mode = 0 then 16 else 1)).foldl (fun (d : Dev) i =>
          d.sendFresh p { opc := 0x0B, args := mode + 2 ^ 8 * bits new 15 8 + 2 ^ 32 * i } []) d
        if mode = 0 then d else d.setPort p { d.port p with testEnd := d.tick + 1000000 * bits new 15 8 })
def execLaneTestGo (port : Nat) (v : Word) (s : State) : Host.Outcome State Fault Refusal := act s (doLaneTestGo port v)

/-! ### Flits and messages (R254 to R257) -/

/-- A message has come whole (Table LNK-6): its header's payload, then those of its DATA flits.  A STATUS answers the die that its tag was sent to; a TEST's
round trip is measured in ps beside the trick clock's ticks: a free value (log 239). -/
def Dev.message (d : Dev) (p : Nat) (ps : List Nat) : Dev :=
  let h := ps.headD 0
  let at_ (i n : Nat) : Nat := h / 256 ^ i % 256 ^ n
  let r : BRsp := { status := at_ 1 1, tag := at_ 2 2 % 4096, onfi := at_ 4 1, orphan := h.testBit 40 }
  match at_ 0 1 with
  | 0x81 => doRdata p r (at_ 6 1) (h.testBit 56) ((ps.drop 1).foldr (fun x acc => x + 2 ^ 224 * acc) 0) d
  | 0x82 => doDone p r (at_ 6 1) (at_ 8 2) (at_ 10 1) d
  | 0x86 =>
    match (d.port p).asks.find r.tag with
    | some die => doStatus p die r (at_ 6 1) (at_ 7 1) (at_ 8 2) (at_ 10 1) (BitVec.ofNat 8 (at_ 11 1)).toInt
        (if at_ 12 2 = 0 ∧ at_ 16 2 = 0 then none else some (at_ 12 2, at_ 14 2, at_ 16 2, at_ 18 1, at_ 20 2)) d
    | none => d.fatal p r.status
  | 0x88 => doOwn p r (at_ 6 1) (at_ 8 2) d
  | 0x8A => doPower p r (at_ 6 1) d
  | 0x8B => (doTest p r (at_ 8 8) (at_ 16 8) (d.freeVal % 2 ^ 20) d).drawn
  | 0x8C => doArmCut p r.status (at_ 6 2) (at_ 8 2) (h.testBit 80) (at_ 11 1) d
  | 0x8F => doRefuse p r (at_ 6 1) d
  | _ => d.fatal p r.status

/-- A sequenced flit is accepted: MSG begins a message of its stream, DATA goes on with it, LAST ends it (Table LNK-1). -/
def Dev.takeFlit (d : Dev) (p hdr payload : Nat) : Dev :=
  let x := d.port p
  let one := hdr.testBit 3
  let had := if one then x.rx1 else x.rx0
  let now := if hdr % 4 = 2 then [payload] else if had.isEmpty then [] else had ++ [payload]
  let keep := if hdr.testBit 2 then [] else now
  let d := d.setPort p (if one then { x with rx1 := keep } else { x with rx0 := keep })
  if hdr.testBit 2 && !now.isEmpty then d.message p now else d

/-- FLIT_RECEIVE (R254 to R257): the CRC, then the SEQ of a sequenced flit; an accepted flit is acknowledged at once, a
failure or a gap is NAKed, and a message that is complete is acted on. -/
def doFlitReceive (port : Nat) (flit : List Byte) (d : Dev) : Dev :=
  let p := port % 512
  let bs := (List.range 32).map (fun i => ((flit[i]?).getD 0).toNat)
  let x := d.port p
  if !d.laneUp p then d
  else if crcBytes 16 0x8BB7 0xFFFF (bs.take 30) ≠ ofBytes (bs.drop 30) then
    let d := ((d.capRecFree 0x22 p [1]).inc (Reg.FCH_P_CRCERR p) 1).setPort p { x with rxNak := true }
    d.emit (.flit p (ctrlFlit 2 x.rxNext))
  else
    let hdr := ofBytes (bs.take 2)
    let seq := hdr / 16
    match hdr % 4 with
    | 0 => d
    | 1 =>
      let arg := ofBytes ((bs.drop 3).take 2) % 4096
      if bs.getD 2 0 = 1 then doAck p arg d else if bs.getD 2 0 = 2 then doNak p arg d else d
    | _ =>
      if seq = x.rxNext then
        ((d.setPort p { x with rxNext := (x.rxNext + 1) % 4096, rxNak := false }).emit (.flit p (ctrlFlit 1 seq))).takeFlit p hdr (ofBytes ((bs.drop 2).take 28))
      else if (x.rxNext + 4095 - seq) % 4096 < 2048 then d
      else if x.rxNak then d
      else (d.setPort p { x with rxNak := true }).emit (.flit p (ctrlFlit 2 x.rxNext))
def execFlitReceive (port : Nat) (flit : List Byte) (s : State) : Host.Outcome State Fault Refusal :=
  act s (doFlitReceive port flit)

end Sys2Proof.Machine
end

