-- ==== Sys2Proof/Machine/Rebuild.lean ====
section
/-! DEFINITION. Rebuild (R338 to R343): the choice of replacement sets, the band in turn, and one stripe of it: its survivors are read, its
erased chunks solved and programmed. -/

namespace Sys2Proof.Machine

/-- The rebuild set that a port gives: the die with the most free ones, the lowest on a tie, its lowest free block. -/
def Dev.rebuildSet (d : Dev) (p : Nat) : Option (Nat × Nat) :=
  let base := d.dieBlocks p - d.spareBlocks p - d.rebuildBlocks p
  let used (i : Nat) : Nat := (d.rbUsed.filter (fun k => k / 2 ^ 12 == p * 64 + i)).length
  let dies := (List.range d.diesPerPort).filter (fun i => !d.dieGone p i && decide (used i < d.rebuildBlocks p))
  match dies with
  | [] => none
  | i :: is =>
    let die := is.foldl (fun m j => if used j < used m then j else m) i
    ((List.range (d.rebuildBlocks p)).find? (fun n => !d.rbUsed.contains (p * 2 ^ 18 + die * 2 ^ 12 + base + n))).map (fun n => (die, base + n))

/-- The replacement for the set at a position of a band (R338). -/
def Dev.replacement (d : Dev) (b pos : Nat) : Option (Nat × Nat × Nat) :=
  let groups := (((List.range 19).zip (d.setsOf b)).filter (fun js => js.1 != pos)).map (fun js => js.2.port / 8)
  let seed := d.fld Reg.SHF_SEED 31 0
  ((List.range 45).map (fun i => layoutPort seed b (19 + i))).findSome? (fun p =>
    if !groups.contains (p / 8) && d.lstate p == 5 && !d.portGone p then (d.rebuildSet p).map (fun s => (p, s.1, s.2)) else none)

/-- Give every erased set of a band its replacement (R338, R342): without one, RB_SPACE and error 0x0104, and the position
stays degraded until a rebuild set is freed. -/
def Dev.replaceSets (d : Dev) (b : Nat) : Dev :=
  (List.range 19).foldl (fun d pos =>
    let s := d.setAtPos b pos
    if (!d.dieGone s.port s.die && !s.erased) || s.starved then d
    else
      match d.replacement b pos with
      | none =>
        let d := d.setBand b { d.band b with sets := setAt (d.setsOf b) pos { s with starved := true } }
        (d.recordErr 0xB00 0x0104 b pos).raise 0xB00 5
      | some (p, die, blk) =>
        let d : Dev := { d with rbUsed := insertSorted d.rbUsed (p * 2 ^ 18 + die * 2 ^ 12 + blk) }.dparDrop (setKey s.port s.die s.block)
        let x := d.band b
        let s' : BSet := { s with port := p, die := die, block := blk, repl := true, erased := false, prog := 0, built := 0, starved := false }
        let d := (d.setBand b { x with progress := 0, sets := setAt (d.setsOf b) pos s' }).trackerMode x.slc (setKey p die blk)
        let d := (d.unlogErasures (fun k => k / 16 / 32 / 4096 == b && k / 16 % 32 == pos)).journalSet b pos
        let d := d.kitty
        if d.fld Reg.SHF_RB_SPACE 22 0 = 0 then d.exhaust 1 else d) d

/-- The queued band of the highest priority, the lowest number first (R339). -/
def Dev.rebuildNext (d : Dev) : Option Nat :=
  match d.rbQueue.filter d.stewards with
  | [] => none
  | b :: bs => some (bs.foldl (fun m y => if min 3 (d.bandErasures m) < min 3 (d.bandErasures y) then y else m) b)

/-- A band is rebuilt (R340): it leaves the queue, and what stays in its erasure log is refreshed. -/
def Dev.rebuildDone (d : Dev) (b : Nat) : Dev :=
  let d := ({ d with rbQueue := d.rbQueue.filter (· != b) }).rbCounts.freeCredit (fun u => rebuildUnit b 0 ≤ u && u < rebuildUnit b 4096)
  let d := if d.elog.any (fun k => k / 16 / 32 / 4096 == b) then d.markRefresh b else d
  if d.rbQueue.isEmpty then d.raise 0xB00 1 else d

/-- The next stripe of a band to rebuild: the lowest that a replacement set has not been given (R339). -/
def Dev.rebuildAt (d : Dev) (b : Nat) : Option Nat :=
  let n := (d.band b).next
  let k := (d.replSets b).foldl (fun m js => min m js.2.built) n
  if k < n then some k else none

/-- Reads of a rebuild are out for a stripe other than a band's next. -/
def Dev.rebuildElse (d : Dev) (b : Nat) : Bool :=
  d.ports.any (fun kv => kv.2.ops.any (fun o => o.src == .rebuild && o.opc == 0x01 && o.owner.isSome &&
    o.owner != (d.rebuildAt b).map (rebuildOwner b)))

/-- A die can take a program: none is queued or runs there, and no erase does (R340). -/
def Dev.dieTakes (d : Dev) (p die : Nat) : Bool := !(d.port p).ops.any (fun o => o.die == die && (o.opc == 0x02 || o.opc == 0x03))

/-- A chunk of a stripe as a rebuild writes it (R336, R340): each codeword solved, or poisoned as it is; a parity codeword that cannot be solved
holds zeros. -/
def Dev.rebuiltPage (d : Dev) (b k pos : Nat) : FPage :=
  let parity := decide (16 ≤ roleOf pos k)
  FPage.ofCws parity (d.band b).slc ((List.range 16).map (fun c =>
    if parity && !d.rebuildable b k pos c then 0 else d.cwNow b k pos c))

/-- The erased columns of a stripe that cannot be solved: their data codewords are poisoned (R335), and what a rebuild cannot solve of their
parity stays in the erasure log (DEDUCED, log 236). -/
def Dev.loseColumns (d : Dev) (b k : Nat) (todo : List Nat) : Dev :=
  (List.range 16).foldl (fun (d : Dev) c =>
    let lost := todo.filter (fun j => !d.rebuildable b k j c && !d.cwPoisoned b k j c)
    if lost.isEmpty then d
    else
      let d := if lost.any (fun j => decide (roleOf j k < 16)) then d.poisonColumn b k c else d
      (lost.filter (fun j => decide (16 ≤ roleOf j k))).foldl (fun (d : Dev) j => d.logErasure b k j c) d) d

/-- A stripe has all its sources: its chunks are solved, and their programs queued (R31, R340). -/
def Dev.rebuildSolve (d : Dev) (b k : Nat) (todo : List Nat) : Dev :=
  let pages := todo.map (fun j => (j, d.rebuiltPage b k j))
  let d := todo.foldl (fun (d : Dev) j =>
    let x := d.band b
    d.setBand b { x with sets := setAt (d.setsOf b) j { d.setAtPos b j with built := k + 1 } }) d
  (pages.foldl (fun (d : Dev) jp =>
    let s := d.setAtPos b jp.1
    { d with stripeBuf := SMap.set (fun _ => FPage.reset) d.stripeBuf (flashKey s.port s.die s.block k) jp.2 }.addOp s.port
      (mkOp 0x02 .rebuild 3 0 b k jp.1 s.die s.block k (d.band b).slc)) d).dropOwned (rebuildOwner b k)

/-- A stripe of a rebuild goes on (R340): with its credit, and target dies that can take the programs, what it still needs of its survivors is read at
BULK, sleeping domains waking for it; with all there, its erased chunks are solved and programmed. -/
def Dev.rebuildStep (d : Dev) (b k : Nat) : Dev :=
  let w := rebuildOwner b k
  let todo := ((d.replSets b).filter (fun js => js.2.built == k)).map Prod.fst
  if todo.isEmpty ∨ !todo.all (fun j => let s := d.setAtPos b j; d.dieTakes s.port s.die) then d
  else
    let t := d.takeCredit 5 (16 * (16 + todo.length)) (rebuildUnit b k)
    let d := t.2
    if !t.1 then d
    else
      let need := todo.flatMap (fun j => (List.range 16).filterMap (fun c => if d.cwReady w b k j c then none else some (j, c)))
      if need.isEmpty then (d.loseColumns b k todo).rebuildSolve b k todo
      else
        let want := need.flatMap (fun jc => d.needs w b k jc.1 jc.2)
        let off := (want.map (fun x => (d.setAtPos b x.1).port / 8)).filter (fun g => d.domSt g != 0)
        let d := (off.foldl insertSorted []).foldl (fun (d : Dev) g => d.wakeDomain g) d
        d.dealReads w 3 0 b k 19 (d.band b).slc (0, 0) .rebuild want

/-- A rebuild's verify has passed: the progress stripe of its set moves over every page that has (R340, R341). -/
def Dev.rebuildVerified (d : Dev) (b pos : Nat) : Dev :=
  let s := d.setAtPos b pos
  let x := d.band b
  let ok (k : Nat) : Bool := decide (k < s.built) && (d.fpage (flashKey s.port s.die s.block k)).verified
  let prog := (List.range x.next).foldl (fun m k => if k == m && ok k then m + 1 else m) s.prog
  let d := (d.setBand b { x with sets := setAt (d.setsOf b) pos { s with prog := prog } }).rebuildSettle b
  if d.rbQueue.contains b && (d.setsOf b).all (fun s => !d.dieGone s.port s.die && !s.erased && (!s.repl || s.prog == x.next)) then d.rebuildDone b else d

/-! ### Resynchronisation (R349) -/

/-- The owner of the reads of a stripe under resynchronisation. -/
def resyncOwner (b k : Nat) : Nat := 2 ^ 68 + (b * 4096 + k)

/-- A stripe has a programmed chunk. -/
def Dev.stripeProgrammed (d : Dev) (b k : Nat) : Bool := (List.range 19).any (fun j => d.fpage (d.chunkKey b k j) != FPage.reset)

/-- P, Q and R of a column agree with its data (R322). -/
def Dev.columnAgrees (d : Dev) (b k c : Nat) : Bool :=
  let cw (r : Nat) : Nat := d.cwHeld b k (posOfRole r k) c
  parityOf ((List.range 16).map cw) == (cw 16, cw 17, cw 18)

/-- The positions of a stripe that the resynchronisation has found to fail the flash-out checks. -/
def Dev.resyncBad (d : Dev) (b k : Nat) : List Nat :=
  (List.range 19).filter (fun j => (d.ownerOps (resyncOwner b k) b k j).any (fun o => o.got.any (fun g => !g.ok)))

/-- A stripe is consistent: no chunk of it fails, and P, Q and R agree in every column that has no erasure. -/
def Dev.stripeConsistent (d : Dev) (b k : Nat) : Bool :=
  (d.resyncBad b k).isEmpty && (List.range 16).all (fun c => !(d.unknowns b k c).isEmpty || d.columnAgrees b k c)

/-- A stripe holds a committed granule. -/
def Dev.holdsCommitted (d : Dev) (b k : Nat) : Bool := d.map.any (fun kv => kv.2.loc.any (fun l => l.band == b && l.stripe == k))

/-- An inconsistent stripe is counted and recorded; where it holds committed granules its failing chunks become erasures and its band is refreshed. -/
def Dev.resyncJudge (d : Dev) (b k : Nat) : Dev :=
  if d.stripeConsistent b k then d
  else
    let bad := d.resyncBad b k
    let d := (d.incFld Reg.SHF_RESYNC 31 16 1).recordErr 0xB00 0x0105 b k
    if d.holdsCommitted b k then
      let before := d.overColumns b
      let d := bad.foldl (fun d j => (List.range 16).foldl (fun d col => d.logErasure b k j col) d) d
      (d.poisonNew before b).markRefresh b
    else d

/-- The next stripe of a region to resynchronise, if one is left. -/
def Dev.resyncAt (d : Dev) (b r n : Nat) : Option Nat :=
  ((List.range 64).map (fun i => 64 * r + i)).find? (fun k => decide (n ≤ k % 64) && decide (k < (d.band b).stripes) && d.stripeProgrammed b k)

/-- The resynchronisation of a region goes on: the next stripe's codewords are read at HIGH, sleeping domains waking for them; with all there it is judged;
with no stripe left the region is done and its bit may be cleared. -/
def Dev.resyncStep (d : Dev) (b r : Nat) : Dev :=
  match d.resync.find (b * 64 + r) with
  | none => d
  | some n =>
    match d.resyncAt b r n with
    | none => ({ d with resync := SMap.erase d.resync (b * 64 + r) }.incFld Reg.SHF_RESYNC 15 0 1).bmMayClear b r
    | some k =>
      let w := resyncOwner b k
      let want := (List.range 19).flatMap (fun j => (List.range 16).filterMap (fun c =>
        if d.cwErased b k j c || d.cwSettled w b k j c then none else some (j, c)))
      if want.isEmpty then
        let d := (d.resyncJudge b k).dropOwned w
        { d with resync := SMap.insert d.resync (b * 64 + r) (k % 64 + 1) }
      else
        let off := (want.map (fun x => (d.setAtPos b x.1).port / 8)).filter (fun g => d.domSt g != 0)
        let d := (off.foldl insertSorted []).foldl (fun (d : Dev) g => d.wakeDomain g) d
        d.dealReads w 1 0 b k 19 (d.band b).slc (0, 0) .resync want

end Sys2Proof.Machine
end

