-- ==== Sys2Proof/Machine/Integrity.lean ====
section
/-! DEFINITION. Read integrity and the shuffle layout (chapters 10 and 11): decoder results, verify, die parity, the sieve,
die qualification, reconstruction, rebuild, copyback and the dirty-region bitmap. -/

namespace Sys2Proof.Machine

/-! ### Decoders out of service (R295, R509) -/

/-- Take a hard decoder out of service and bring its group's spare in. -/
def Dev.decoderOut (d : Dev) (g dec : Nat) : Dev :=
  let k := g % 64 * 9 + dec % 9
  if d.hdOut.contains k then d
  else
    let d : Dev := { d with hdOut := insertSorted d.hdOut k }
    let lost (g : Nat) : Nat := (d.hdOut.filter (fun i => i / 9 == g)).length
    let grp7 := ((List.range 64).filter (fun g => decide (2 ≤ lost g))).length
    let d := d.setFld Reg.ECC_DEC_STS 9 0 (512 - sumL ((List.range 64).map (fun g => lost g - 1)))
    let d := d.setFld Reg.ECC_DEC_STS 16 10 grp7
    let d := (d.recordErr 0xA00 0x0101 (g % 64) (dec % 9)).raise 0xA00 1
    if grp7 = 0 then d else d.exhaust 2

/-- Take a whisk out of service and bring a spare in; `cause` is 0 syndrome, 1 known pattern. -/
def Dev.whiskOut (d : Dev) (w cause : Nat) : Dev :=
  if d.wkOut.contains (w % 104) then d
  else
    let d : Dev := { d with wkOut := insertSorted d.wkOut (w % 104) }
    let n := d.wkOut.length
    let d := (d.setFld Reg.ECC_DEC_STS 27 24 (8 - n)).setFld Reg.ECC_DEC_STS 23 17 (96 - (n - 8))
    let d := (d.recordErr 0xA00 0x0102 (w % 104) cause).raise 0xA00 1
    if n ≤ 8 then d else d.exhaust 3

/-! ### Verify reads (R306 to R309) -/

/-- A verify read has all its decodes: the chunk passes, or the failure is handled (R222, R309); after a power cut no accumulator covers
the chunk any more (R310). -/
def Dev.verifyEnd (d : Dev) (p : Nat) (o : POp) : Dev :=
  let k := setKey p o.die o.block
  let lim := if o.slc then d.fld Reg.ECC_RW_CTL 31 24 else d.fld Reg.ECC_RW_CTL 23 16
  let pass := o.got.all (fun c => c.ok && decide (c.e ≤ lim))
  let key := flashKey p o.die o.block o.page
  if pass then
    let d := d.setFPage key { d.fpage key with verified := true }
    let d := if o.src = .verify ∧ !(SMap.get (fun _ => []) d.dpar k).contains o.page then d.accMove k o.page false else d
    if o.src = .final then d.dparSet k o.page false
    else if (d.setAtPos o.band o.pos).repl then d.rebuildVerified o.band o.pos
    else if (SMap.find d.progd (chunkId o.band o.stripe o.pos)).isSome then
      ({ d with chunksOk := insertSorted d.chunksOk (chunkId o.band o.stripe o.pos) }).stripeDone o.band o.stripe
    else d
  else d.verifyBad p o (fun c => decide (lim < c.e))

/-- The command that a read serves has all its flash data: from now its host accesses run (R67). -/
def Dev.ownerTimed (d : Dev) (w : Nat) : Dev :=
  if d.ports.any (fun kv => kv.2.ops.any (fun o => o.owner == some w && !o.over)) then d
  else d.ioFrom (fun _ c => c.fetched == w)

/-- A read with all its hard decodes, and none left on the ladder, is over; one that serves an owner stays until the owner takes it. -/
def Dev.readEnd (d : Dev) (p : Nat) (o : POp) : Dev :=
  if !o.over then d
  else
    match o.owner with
    | some w =>
      let n := w - 2 ^ 67
      let m := w - 2 ^ 66
      if 2 ^ 69 ≤ w then d.mapLoadStep (w - 2 ^ 69)
      else if 2 ^ 68 ≤ w then d.resyncStep ((w - 2 ^ 68) / 4096) ((w - 2 ^ 68) % 4096 / 64)
      else if 2 ^ 67 ≤ w then d.relocGo (n / 32 / 4096) (n / 32 % 4096) (n % 32)
      else if 2 ^ 66 ≤ w then d.rebuildStep (m / 4096) (m % 4096)
      else d.ownerTimed w
    | none =>
      let d := (d.dropOp p o.tag).outCounts p
      if o.forTwin.isSome then d.sendGulon 0x21 (remoteDoneFs (o.forTwin.getD 0) 0 (o.got.map (fun c => if c.ok then c.e + 1 else 0)))
      else if o.src = .verify ∨ o.src = .early ∨ o.src = .final then d.verifyEnd p o else d

/-- The tracker update and the report of one DIE_READ (R297, R301), once its last hard decode is in: the update takes every codeword that a hard
decoder corrected. -/
def Dev.readTracked (d : Dev) (p : Nat) (o : POp) : Dev :=
  let k := setKey p o.die o.block
  let d := d.trackerUse k
  let hard := o.got.filter (·.hd)
  let thr := d.rwt k
  let d := d.trackerUpdate k o.page o.slc (sumL (hard.map (·.n01))) (sumL (hard.map (·.n10)))
  if o.forTwin.isNone && o.src != .sieve && (hard.any (fun c => decide (thr < c.e)) || o.got.any (fun c => !c.ok)) then d.reportBand o.band else d

/-- The soft re-read of a failed codeword at a step of the ladder (Table ECC-4). -/
def Dev.softRead (d : Dev) (p : Nat) (o : POp) (cw step : Nat) : Dev :=
  d.addOp p { mkOp 0x01 o.src o.cls o.slice o.band o.stripe o.pos o.die o.block o.page o.slc with
    soft := true, cols := [cw], owner := o.owner, re := some (o.tag, cw, step) }

/-- The granule whose block a data codeword of a read holds. -/
def Dev.granOfCw (d : Dev) (o : POp) (c : Nat) : Option Gran :=
  let f := d.fpage (d.chunkKey o.band o.stripe o.pos)
  if c < 8 then f.half0 else f.half1

/-- The placement record of a codeword agrees with what the read resolved to (R292). -/
def Dev.placedRight (d : Dev) (o : POp) (c : Nat) : Bool :=
  match (if o.src = .host then o.res else none) with
  | none => true
  | some (gk, gv) => (d.granOfCw o c).any (fun g => granKey g.slice g.granule == gk && g.gver == gv)

/-- The GCM tag of the block that a codeword holds verifies, while its key context is there (R184). -/
def Dev.tagRight (d : Dev) (o : POp) (c : Nat) : Bool :=
  match o.res, d.granOfCw o c with
  | some _, some g => (match g.blks[c % 8]? with
    | some b => !d.keyOk g.slice b || b.poison || !d.tagBad g.slice (8 * g.granule + c % 8) b
    | none => true)
  | _, _ => true

/-- HARD_DECODE_DONE (R292, R293, R295, R301, R304, R306): the result of one codeword of a read of a port.  A success
with a nonzero syndrome is discarded, and the codeword is decoded again.  A failed codeword of a verify read fails the
verify; of another read it goes to L1, whose soft re-read is queued, and a failed source of a reconstruction has its place taken by another survivor
(R333).  The tag of a GCM block is no condition of a verify (R306). -/
def doHardDecodeDone (port tag cw : Nat) (ok syndromeOk sealOk placementOk gcmOk : Bool) (e n01 n10 decoder : Nat) (d : Dev) : Dev :=
  let p := port % 512
  let g := p / 8
  let c := cw % 16
  if ok && !syndromeOk then (d.decoderOut g decoder).chkCount 0xA00
  else
    match (d.port p).op? (tag % 4096) with
    | none => d
    | some o =>
      if o.opc ≠ 0x01 ∨ !o.data ∨ o.re.isSome ∨ !o.cols.contains c ∨ o.got.any (fun x => x.cw == c) then d
      else
        let placed := placementOk && d.placedRight o c
        let gcm := gcmOk && d.tagRight o c
        let d := (d.capRecFree 0x23 p [o.die, o.block, o.page, c, 0, e, n01, n10, ok.toNat]).inc64
          Reg.ECC_CW_HARD_LO Reg.ECC_CW_HARD_HI 1
        let d := if ok then d.score 5 e none none (some g) else d
        let d := if ok && !placed then d.inc Reg.ECC_MISPLACE 1 else d
        let vfy := o.src == .verify || o.src == .early || o.src == .final
        let d := if ok && !gcm && !vfy then d.inc Reg.CRY_GCM_FAIL 1 else d
        let good := ok && sealOk && placed && (vfy || gcm)
        let ladder := !good && !vfy && o.forTwin.isNone
        let d := if ladder then d.inc Reg.ECC_CW_L1 1 else d
        let d := if ladder && o.owner.isSome && o.res.isNone && o.src != .sieve && o.src != .resync && decide (16 < 19 - (d.erasures o.band o.stripe c).length) then
          d.inc Reg.SHF_DEG_SUBST 1 else d
        let o := { o with got := o.got ++ [{ cw := c, ok := good, step := if ladder then 1 else 0, e := e, n01 := n01, n10 := n10, hd := ok }] }
        let d := d.setPortOp p o
        let d := if ladder then d.softRead p o c 1 else d
        let d := if o.got.length = o.cols.length then d.readTracked p o else d
        d.readEnd p o
def execHardDecodeDone (port tag cw : Nat) (ok syndromeOk sealOk placementOk gcmOk : Bool) (e n01 n10 decoder : Nat) (s : State) :
    Host.Outcome State Fault Refusal :=
  act s (doHardDecodeDone port tag cw ok syndromeOk sealOk placementOk gcmOk e n01 n10 decoder)

/-- The step after a failed soft decode (Table ECC-4): L2, L3 if enabled, then none. -/
def Dev.nextStep (d : Dev) (step : Nat) : Nat :=
  if step = 1 then 2 else if step = 2 ∧ d.flag Reg.ECC_LAD_CTL 8 then 3 else 0

/-- A whisk has taken the soft data of a re-read from the queue (R294): fewer codewords stand before it than whisks are in service.  TRUMP codewords go
first, then others as they came. -/
def Dev.whiskTakes (d : Dev) (p : Nat) (y : POp) : Bool :=
  let ahead (q : Nat) (z : POp) : Bool :=
    z.re.isSome && z.data && !(q == p && z.tag == y.tag) && (if (z.cls == 0) == (y.cls == 0) then decide (z.came < y.came) else z.cls == 0)
  decide (sumL (d.ports.map (fun kv => kv.2.ops.countP (ahead kv.1))) < d.fld Reg.ECC_DEC_STS 23 17)

/-- WHISK_DECODE_DONE (R294, R295, R304, R305): the soft decode of a re-read whose data has come ends a codeword's climb, or moves it up; past the last soft
step it is served from die parity if covered, and else goes to SHF. -/
def doWhiskDecodeDone (port tag cw : Nat) (ok syndromeOk sealOk placementOk gcmOk : Bool) (whisk : Nat) (d : Dev) : Dev :=
  let p := port % 512
  let g := some (p / 8)
  if ok && !syndromeOk then (d.whiskOut whisk 0).chkCount 0xA00
  else
    match (d.port p).op? (tag % 4096) with
    | none => d
    | some o =>
      match o.got.find? (fun c => c.cw == cw % 16 && c.step != 0) with
      | none => d
      | some c =>
        match (d.port p).ops.find? (fun y => y.re == some (o.tag, c.cw, c.step) && y.data) with
        | none => d
        | some y =>
        if !d.whiskTakes p y then d
        else
        let d := d.capRecFree 0x23 p [o.die, o.block, o.page, c.cw, c.step, c.e, c.n01, c.n10, ok.toNat]
        let placed := placementOk && d.placedRight o c.cw
        let gcm := gcmOk && d.tagRight o c.cw
        let d := if ok && !placed then d.inc Reg.ECC_MISPLACE 1 else d
        let d := if ok && !gcm then d.inc Reg.CRY_GCM_FAIL 1 else d
        let d := d.dropOp p y.tag
        let put (x : CwGot) : POp := { o with got := o.got.map (fun y => if y.cw == x.cw then x else y) }
        if ok && sealOk && placed && gcm then
          let o := put { c with step := 0 }
          ((d.score 6 c.step none none g).setPortOp p o).readEnd p o
        else
          let n := d.nextStep c.step
          let o := put { c with step := n }
          let d := d.setPortOp p o
          if n = 2 then (d.inc Reg.ECC_CW_L2 1).softRead p o c.cw 2
          else if n = 3 then (d.inc Reg.ECC_CW_L3 1).softRead p o c.cw 3
          else
            let k := setKey p o.die o.block
            let d := if d.accServes o k then
                let d := if o.got.any (·.dp) then d else d.inc Reg.ECC_CW_DPAR 1
                ((d.score 6 4 none none g).markRefresh o.band).setPortOp p (put { c with step := 0, dp := true })
              else (d.score 6 5 none none g).toShf p o.die o.block o.page o.band o.stripe o.pos c.cw
            d.readEnd p o
def execWhiskDecodeDone (port tag cw : Nat) (ok syndromeOk sealOk placementOk gcmOk : Bool) (whisk : Nat) (s : State) :
    Host.Outcome State Fault Refusal :=
  act s (doWhiskDecodeDone port tag cw ok syndromeOk sealOk placementOk gcmOk whisk)

/-- EARLY_VERIFY_TIMEOUT (R307, R308): VFY_WAIT ms after page `page` of a set reported DONE, its verify read is dealt at
once and die parity covers the chunk. -/
def doEarlyVerifyTimeout (port die block page : Nat) (d : Dev) : Dev :=
  let p := port % 512
  let at_ (s : BSet) : Bool := s.port == p && s.die == die && s.block == block
  match d.bands.find? (fun kv => kv.2.sets.any at_) with
  | none => d
  | some (b, x) =>
    let pos := (x.sets.findIdx? at_).getD 0
    let c := chunkId b page pos
    let t := SMap.get (fun _ => 0) d.progd c / 4
    if t = 0 ∨ !d.flag Reg.ECC_VFY_CTL 16 ∨ d.tick + 1 < t + d.fld Reg.ECC_VFY_CTL 15 0 * 1000000 ∨ d.chunksOk.contains c ∨
        (d.port p).ops.any (fun v => (v.src == .verify || v.src == .early) && v.die == die && v.block == block && v.page == page) then d
    else
      let u := 2 ^ 43 + setKey p die block
      if (d.crHold.find (u * 16 + 7)).isNone && !d.mayTake 7 128 then d
      else
      let d := (d.takeCredit 7 128 u).2
      let d := d.addOp p (mkOp 0x01 .early (d.progCls c) 0 b page pos die block page x.slc)
      (d.inc Reg.ECC_VFY_EARLY 1).dparSet (setKey p die block) page true
def execEarlyVerifyTimeout (port die block page : Nat) (s : State) : Host.Outcome State Fault Refusal :=
  act s (doEarlyVerifyTimeout port die block page)

/-! ### The sieve (R312 to R316) -/

/-- The pages a visit reads (R312): in each zone the first and the last wordline. -/
def sievePages (slc : Bool) : List Nat :=
  let z := if slc then 192 else 768
  (List.range 4).flatMap (fun i => [z * i, z * i + 1, z * i + 2, z * i + 3, z * i + z - 4, z * i + z - 3, z * i + z - 2, z * i + z - 1])

/-- The sets of CLOSED bands that serve, by tracker key, with their group. -/
def Dev.sieveSets (d : Dev) : List (Nat × Nat) :=
  (d.bands.filter (fun kv => kv.2.st == .closed && d.stewards kv.1)).flatMap (fun kv =>
    ((d.setsOf kv.1).filter (fun s => !d.dieGone s.port s.die && !s.erased)).map (fun s => (setKey s.port s.die s.block, s.port / 8)))

/-- A set of a group that is not ON must be visited once it is MAXAGE days old (R314). -/
def Dev.sieveOld (d : Dev) (k age : Nat) : Bool := decide (age ≤ d.eccDay - (d.trkOf k).vday)

/-- A lap is over (R315): every set of an ON group, and none of a skipped group, is left. -/
def Dev.sieveLap (d : Dev) : Dev :=
  let maxAge := d.fld Reg.ECC_SV_CTL 27 16
  let left := d.sieveSets.filter (fun kg => !d.svSeen.contains kg.1 &&
    (d.domSt kg.2 == 0 || (maxAge != 0 && d.sieveOld kg.1 maxAge)))
  if left.isEmpty then
    let d := d.setFld Reg.ECC_SV_LAP 19 0 (satN 20 ((d.tick - d.svStart) / 3600000000000))
    let cold := (List.range 64).filter (fun g => d.domSt g != 0)
    let d : Dev := { d with svSeen := [], svStart := d.tick, coldPrev := d.coldNow, coldNow := cold }
    ((d.inc Reg.ECC_SV_LAPS 1).setFld Reg.ECC_SV_POS 26 0 0).raise 0xA02 0
  else d

/-- The owner of the reads of a sieve visit. -/
def sieveOwner (k : Nat) : Nat := 2 ^ 65 + k

/-- The reads of a visit to the set at a position of a band are queued (R312): codeword 0 of the four planes of each page, those that are no
erasure. -/
def Dev.sieveReads (d : Dev) (b pos : Nat) : Dev :=
  let x := d.band b
  let s := d.setAtPos b pos
  ((sievePages x.slc).filter (fun q => decide (q < x.next))).foldl (fun (d : Dev) q =>
    let cols := [0, 4, 8, 12].filter (fun c => !d.cwErased b q pos c)
    if cols.isEmpty then d
    else d.addOp s.port { mkOp 0x01 .sieve 3 0 b q pos s.die s.block q x.slc with owner := some (sieveOwner (setKey s.port s.die s.block)), cols := cols }) d

/-- A visit has all its decodes (R313): the report, the repairs, the drift fields, the sieve's progress, and the release of a domain that it woke
(R314).  The tracker has taken each read's update. -/
def Dev.sieveEnd (d : Dev) (b pos : Nat) (ops : List POp) : Dev :=
  let s := d.setAtPos b pos
  let k := setKey s.port s.die s.block
  let g := s.port / 8
  let got := ops.flatMap POp.got
  let e := (got.filter (·.hd)).foldl (fun m c => max m c.e) 0
  let d := if decide (d.rwt k < e) || got.any (fun c => !c.ok) then d.reportBand b else d
  let d := d.inc Reg.ECC_SV_REPAIR (sumL (ops.map (fun o => o.got.countP (fun c => !c.ok && d.cwErased b o.stripe pos c.cw))))
  let t := d.trkOf k
  let sample := if t.eprev ≤ e then ceilDiv (30 * (e - t.eprev)) (max 1 (d.eccDay - t.vday)) else 0
  let drift := if t.eprev = 0xFF then t.drift else min 255 (ceilDiv (3 * t.drift + sample) 4)
  let d := (d.setTrk k { t with drift := drift, eprev := min e 254, vday := d.eccDay }).score 7 drift none none (some g)
  let d : Dev := { d with svSeen := insertSorted d.svSeen k, svMoved := true }
  let d := (d.setFld Reg.ECC_SV_POS 26 0 d.svSeen.length).setFlag Reg.ECC_SV_STS 0 true
  let old := d.sieveSets.filter (fun kg => d.domSt kg.2 == 0 && d.sieveOld kg.1 (d.fld Reg.ECC_SV_CTL 27 16 / 2))
  let d := if old.any (fun kg => kg.2 == g) then d else d.setDom g { d.dom g with sieve := false }
  let d := if old.isEmpty then d.setFlag Reg.ECC_SV_STS 2 false else d
  (d.dropOwned (sieveOwner k)).sieveLap

/-- The lap keeps to TGT_DAYS (R312): of its visits, no larger part has begun than of its days is over (DEDUCED, log 234). -/
def Dev.sievePace (d : Dev) : Bool :=
  decide (d.svSeen.length * (d.fld Reg.ECC_SV_CTL 15 8 * 86400000000000) ≤ d.sieveSets.length * (d.tick - d.svStart))

/-- SIEVE_VISIT (R312, R313): the set at position `pos` of CLOSED band `band`, on an ON domain: its reads are queued for capacity that no other
operation takes, and once they have their decodes the visit ends. -/
def doSieveVisit (band pos : Nat) (d : Dev) : Dev :=
  let b := band % 2 ^ 23
  let x := d.band b
  let s := d.setAtPos b (pos % 19)
  let k := setKey s.port s.die s.block
  if x.st ≠ .closed ∨ !d.stewards b ∨ d.domSt (s.port / 8) ≠ 0 ∨ !d.flag Reg.ECC_SV_CTL 0 ∨ d.dieGone s.port s.die ∨ s.erased ∨ d.eccHeld ∨ d.flushing then d
  else
    let ops := (d.port s.port).ops.filter (fun o => o.owner == some (sieveOwner k) && o.re.isNone)
    if ops.isEmpty then
      if d.svSeen.contains k || !(d.sievePace || (d.dom (s.port / 8)).sieve) then d
      else
        let d := d.sieveReads b (pos % 19)
        if d.readsOut (sieveOwner k) then d else d.sieveEnd b (pos % 19) []
    else if ops.all POp.over then d.sieveEnd b (pos % 19) ops else d
def execSieveVisit (band pos : Nat) (s : State) : Host.Outcome State Fault Refusal := act s (doSieveVisit band pos)

/-- SIEVE_WAKE (R314): a group that is not ON holds a set MAXAGE days old; the domain is demanded, once, and held until its old sets have been
visited. -/
def doSieveWake (group : Nat) (d : Dev) : Dev :=
  let g := group % 64
  let maxAge := d.fld Reg.ECC_SV_CTL 27 16
  if d.flag Reg.ECC_SV_CTL 0 && !d.eccHeld && !d.flushing && maxAge != 0 && d.domSt g != 0 && !(d.dom g).sieve &&
      d.sieveSets.any (fun kg => kg.2 == g && d.sieveOld kg.1 maxAge) then
    let d := d.wakeDomain g
    ((d.setDom g { d.dom g with sieve := true }).inc Reg.ECC_SV_WAKES 1).setFlag Reg.ECC_SV_STS 2 true
  else d
def execSieveWake (group : Nat) (s : State) : Host.Outcome State Fault Refusal := act s (doSieveWake group)

/-- The ticks of one ECC_DAY (R316). -/
def dayTicks : Nat := 86400000000000

/-- One ECC_DAY advances (R297, R315, R316, R511). -/
def Dev.dayStep (d : Dev) : Dev :=
  let starved := !d.svMoved
  let d := d.setFld Reg.ECC_DAY 15 0 (d.eccDay + 1)
  let d : Dev := { d with svMoved := false, fmtDays := d.fmtDays + 1, peDays := (d.fld Reg.ECC_PE_MEAN 15 0 :: d.peDays).take 91 }
  let d : Dev := { d with endur := d.endurDays }
  let d := d.setFlag Reg.ECC_SV_STS 1 starved
  let d := if starved then d.raise 0xA02 1 else d
  d.setFld Reg.ECC_RFSH_30D 19 0 (d.rfshDays.filter (fun x => decide (d.eccDay < x + 30))).length

/-- ECC_DAY_ADVANCE (R316): 86,400 s of trick-clock time have passed. -/
def doEccDayAdvance (d : Dev) : Dev :=
  if d.dayTick + dayTicks ≤ d.tick then { d with dayTick := d.dayTick + dayTicks }.dayStep else d
def execEccDayAdvance (s : State) : Host.Outcome State Fault Refusal := act s doEccDayAdvance

/-! ### Tracker view and qualification -/

/-- A tracker entry's 128 bytes (Table ECC-3). -/
def Trk.bytes (t : Trk) : Nat :=
  let ofs := t.ofs.foldr (fun v acc => (v % 4096).toNat + 4096 * acc) 0
  ofs + 2 ^ 720 * (t.eprev + 2 ^ 8 * t.drift + 2 ^ 16 * t.vday + 2 ^ 32 * t.upd)

/-- ECC_RL_SEL_WRITE (R298): the selected entry is copied to ECC_RL_ENT. -/
def doEccRlSelWrite (v : Word) (d : Dev) : Dev :=
  regWrite d Reg.ECC_RL_SEL v (fun new d =>
    let d := storeReg Reg.ECC_RL_SEL new d
    let k := setKey (bits new 8 0) (bits new 14 9) (bits new 26 15)
    let x := (d.trkOf k).bytes
    ((List.range 32).zip (toWords x 32)).foldl (fun d iw => d.setReg (Reg.ECC_RL_ENT iw.1) (w32 iw.2)) d)
def execEccRlSelWrite (v : Word) (s : State) : Host.Outcome State Fault Refusal := act s (doEccRlSelWrite v)

/-- The first test of Table ECC-5 that a die fails. -/
def Dev.qualFails (d : Dev) (die : Nat) (q : DieQual) : Option Nat :=
  let first := d.fresh.isEmpty
  let tests : List (Nat × Bool) := [
    (1, q.planes == 4 && decide (q.blocks ≤ 131072 / d.diesPerPort) && q.qlcPages == 3072 && decide (die < d.diesPerPort)),
    (2, decide (q.slcReadNs ≤ 8000) && decide (q.qlcReadNs ≤ 65000)),
    (3, decide (q.suspendNs ≤ 5000)),
    (4, decide (q.slcProgNs ≤ 400000) && decide (q.qlcProgNs ≤ 3000000) && decide (q.eraseNs ≤ 15000000)),
    (5, first || (w32 q.code &&& 0x3FFFFFFF == d.reg Reg.ECC_RL_CODE && w32 q.pol &&& 0xF == d.reg Reg.ECC_RL_POL)),
    (6, decide (q.disturb ≤ 4)),
    (7, decide (q.freshQlc ≤ d.fld Reg.ECC_RW_CTL 23 16) && decide (q.freshSlc ≤ d.fld Reg.ECC_RW_CTL 31 24)),
    (8, q.ratedQlc != 0 && q.ratedSlc != 0)]
  (tests.find? (fun t => !t.2)).map Prod.fst

/-- DIE_QUALIFY (R311, R530): the first time a die is present; a failure is handled as a FAILED die. -/
def doDieQualify (port die : Nat) (q : DieQual) (d : Dev) : Dev :=
  let p := port % 512
  let i := die % 64
  if (SMap.find d.fresh (p * 64 + i)).isSome || d.dieGone p i || !(d.diesOf p).contains i then d
  else
    match d.qualFails i q with
    | some t =>
      let d := d.incFld Reg.ECC_QUAL_FAIL 15 0 1
      ((d.recordErr 0xA02 0x0105 (p * 64 + i) t).raise 0xA02 2).dieFailed p i 2
    | none =>
      let d := if d.fresh.isEmpty then
          (d.setReg Reg.ECC_RL_CODE (w32 q.code &&& 0x3FFFFFFF)).setReg Reg.ECC_RL_POL (w32 q.pol &&& 0xF)
        else d
      let d := (d.setFld Reg.ECC_PE_RATED 15 0 (satN 16 q.ratedQlc)).setFld Reg.ECC_PE_RATED 31 16 (satN 16 q.ratedSlc)
      let raw := (List.range 64).map (fun j => q.fresh.getD j 0)
      let ofs := raw.map clampOfs
      let clamps := raw.countP (fun v => clampOfs v != v)
      let d := if clamps = 0 then d else (d.inc Reg.ECC_RL_SAT clamps).raise 0xA01 0
      { d with fresh := SMap.insert d.fresh (p * 64 + i) ofs }
def execDieQualify (port die : Nat) (q : DieQual) (s : State) : Host.Outcome State Fault Refusal := act s (doDieQualify port die q)

/-! ### Reconstruction and rebuild (R332 to R344) -/

/-- RECONSTRUCT_SOLVE (R333 to R335): the sources that failed become erasures, each counted where a survivor takes its
place; the column's erased data codewords are solved, or, past three erasures or when no solution passes its checks, poisoned.  `checks` are the outcomes of
the attempts in turn: one, and with survivors left to put in a source's place up to SHF_DEG_TRIES. -/
def doReconstructSolve (band stripe column : Nat) (failed : List Nat) (checks : List Bool) (d : Dev) : Dev :=
  let b := band % 2 ^ 23
  let c := column % 16
  if (d.erasures b stripe c).isEmpty ∨ (d.band b).next ≤ stripe ∨ d.shfStop then d
  else
    let d := failed.foldl (fun d j =>
      if j < 19 ∧ !d.cwErased b stripe j c then
        let d := d.logErasure b stripe j c
        if (d.erasures b stripe c).length ≤ 3 then d.inc Reg.SHF_DEG_SUBST 1 else d
      else d) d
    let es := d.erasures b stripe c
    let tries := if es.length < 3 then d.fld Reg.SHF_DEG_CTL 3 0 else 1
    if 3 < es.length ∨ !(checks.take tries).any id then d.poisonColumn b stripe c
    else
      let d := d.inc Reg.SHF_DEG_READS (es.filter (fun j => roleOf j stripe < 16)).length
      (d.score 15 d.freeVal none none none).drawn
def execReconstructSolve (band stripe column : Nat) (failed : List Nat) (checks : List Bool) (s : State) :
    Host.Outcome State Fault Refusal := act s (doReconstructSolve band stripe column failed checks)

/-- REBUILD_STRIPE (R338 to R343): the next stripe of the band in turn begins or goes on, once one in progress elsewhere is programmed. -/
def doRebuildStripe (d : Dev) : Dev :=
  match d.rebuildNext with
  | none => d
  | some b =>
    if !bitAt d.rbNow 24 ∨ d.shfStop ∨ (d.band b).st ≠ .closed ∨ d.rebuildElse b then d
    else
      let d := (d.setFld Reg.SHF_RB_CUR 22 0 b).replaceSets b
      match d.rebuildAt b with
      | none => if (d.setsOf b).any (fun s => d.dieGone s.port s.die || s.erased || (s.repl && s.prog != (d.band b).next)) then d else d.rebuildDone b
      | some k => d.rebuildStep b k
def execRebuildStripe (s : State) : Host.Outcome State Fault Refusal := act s doRebuildStripe

/-- A die block set belongs to no band, and holds nothing programmed (R21). -/
def Dev.setFree (d : Dev) (p die block : Nat) : Bool :=
  !d.flash.any (fun (kv : Nat × FPage) => kv.1 / 4096 == setKey p die block) &&
  (List.range (d.fld Reg.MAP_BANDS_FMT 22 0)).all (fun b => !(d.setsOf b).any (fun s => s.port == p && s.die == die && s.block == block))

/-- COPYBACK (R344): a rebuilt replacement set goes back to a fresh set on the original port, one that is erased and not assigned (R21); the
rebuild set is erased, and then free again. -/
def doCopyback (band pos die block : Nat) (verifyOk : Bool) (d : Dev) : Dev :=
  let b := band % 2 ^ 23
  let j := pos % 19
  let s := d.setAtPos b j
  let x := d.band b
  let o := s.formed
  let i := die % 64
  if !bitAt d.rbNow 25 ∨ x.st ≠ .closed ∨ !s.repl ∨ s.prog < x.next ∨ d.dieGone o.port i ∨ !verifyOk ∨ d.shfStop ∨
      (SMap.find d.fresh (o.port * 64 + i)).isNone ∨ d.dieBlocks o.port ≤ block ∨ !d.setFree o.port i block then d
  else
    let d := (List.range x.next).foldl (fun d k =>
      d.setFPage (flashKey o.port i block k) (d.fpage (d.chunkKey b k j))) d
    let s' : BSet := { s with port := o.port, die := i, block := block, repl := false, erased := false, prog := 0, built := 0 }
    let d := (d.setBand b { x with sets := setAt (d.setsOf b) j s' }).trackerMode x.slc (setKey o.port i block)
    let d := d.journalSet b j
    let d := d.releaseSet b j s
    let more := d.bands.any (fun kv => kv.2.sets.any (·.repl))
    (d.setFlag Reg.SHF_RB_STS 4 more).kitty
def execCopyback (band pos die block : Nat) (verifyOk : Bool) (s : State) : Host.Outcome State Fault Refusal :=
  act s (doCopyback band pos die block verifyOk)

/-! ### The dirty-region bitmap (R345 to R349) -/

/-- BITMAP_CLEAR_FLUSH (R346): the clears that wait are written, one record per band. -/
def doBitmapClearFlush (d : Dev) : Dev :=
  if d.bmClear.isEmpty ∨ d.shfStop then d
  else
    let gone := d.bmClear.map Prod.fst
    let bands := gone.foldl (fun acc r => insertSorted acc (r / 64)) []
    let d : Dev := { d with bmDirty := d.bmDirty.filter (fun r => !gone.contains r), bmClear := [], bmWait := d.bmWait.filter (fun kv => !gone.contains kv.1) }
    (bands.foldl (fun d b => d.bmRecord 2 b) d).bmCount
def execBitmapClearFlush (s : State) : Host.Outcome State Fault Refusal := act s doBitmapClearFlush

/-- REGION_RESYNC (R349): after release, the next programmed stripe of a dirty region that a stop has left is read at HIGH and checked; the last one done,
the region's bit may be cleared. -/
def doRegionResync (band region : Nat) (d : Dev) : Dev :=
  let b := band % 2 ^ 23
  let r := region % 64
  if d.released && !d.shfStop then d.resyncStep b r else d
def execRegionResync (band region : Nat) (s : State) : Host.Outcome State Fault Refusal := act s (doRegionResync band region)

end Sys2Proof.Machine
end

