-- ==== Sys2Proof/Machine/Stk.lean ====
section
/-! DEFINITION. Stockpot, HBM and internal data protection (chapter 12): stack faults, ladle jobs, SRAM and HBM errors,
row repair and the scrubbers. -/

namespace Sys2Proof.Machine

/-! ### Where HBM lines lie (R352, Table ARC-2) -/

/-- The row of an offset: row number × 128 + pseudo-channel; it holds a unit of HBM pages 2r and 2r + 1. -/
def rowOf (off : Nat) : Nat := off / 512 / 256 * 128 + off / 512 % 128

/-- The region of an HBM page (Table ARC-2): 0 map cache, 1 stockpot, 2 write cache, 3 read-level table, 4 staging. -/
def regionOf (pg : Nat) : Nat :=
  if pg < 0x160000 then 0 else if pg < 0x1E0000 then 1 else if pg < 0x200000 then 2 else if pg < 0x220000 then 3 else 4

/-- The persistent window's first HBM offset: the top SEGS × 256 MiB of the write cache. -/
def Dev.winBase (d : Dev) : Nat := 0x2000000000 - d.fld Reg.HIF_PWIN_CTL 5 0 * 2 ^ 28

/-! ### Poison (R366, R370, R375, Table STK-3) -/

/-- The versions that occupy the slots, eight each, in placement order. -/
def Dev.slotVers (d : Dev) : List Ver := d.cache.filter (fun v => !v.pwin)

/-- A cache slot is lost: a write not yet posted ends with DATA_POISONED and changes nothing (R366); a posted one is
repaired from the twin's mirror while PAIRED, and is poison otherwise. -/
def Dev.slotLost (d : Dev) (slot : Nat) : Dev :=
  match d.slotVers[slot / 8]? with
  | none => d
  | some v =>
    if !v.posted then
      let i := match (d.queue v.qid).cmd? v.tag with
        | some c => 8 * v.granule + slot % 8 - c.lba
        | none => 0
      d.complete v.qid v.tag stPoisoned i
    else if d.paired then d
    else
      { d with cache := d.cache.map (fun (w : Ver) => if w == v then
          { w with blks := w.blks.map (fun kb => if kb.1 == slot % 8 then (kb.1, poisonBlk) else kb) } else w) }

/-- A map page is lost from the map cache: it is loaded again from SLC, the delta records of a dirty one applied again (Table STK-3). -/
def Dev.mapPageLost (d : Dev) (pk : Nat) : Dev :=
  { d with resident := d.resident.filter (· != pk), refBits := d.refBits.filter (· != pk) }

/-- A read-level entry is lost: reset as R302, with DRIFT := 0 (Table STK-3). -/
def Dev.trackerLost (d : Dev) (k : Nat) : Dev :=
  let d := d.trackerReset k (d.inSlc k)
  d.setTrk k { d.trkOf k with drift := 0 }

/-- A data array marks the unit it carries as poisoned (R367): a write whose data is not placed yet ends with DATA_POISONED, any other
command serves the block as poison. -/
def Dev.unitPoisoned (d : Dev) (u : Nat × Nat × Nat) : Dev :=
  match (d.queue (u.1 % 16384)).cmd? (u.2.1 % 32) with
  | some c => if c.done || c.placed || c.nblk ≤ u.2.2 then d else d.setCmd (u.1 % 16384) { c with bad := insertSorted c.bad u.2.2 }
  | none => d

/-- What a lost line of the stockpot buffers takes with it (Table STK-3): a unit completes DATA_POISONED, a block of an export is exported with POISON, stripe
parity is computed again from its chunks, an accumulator is discarded and its chunks are final-verified at once. -/
def Dev.potLost (d : Dev) (item : PotItem) : Dev :=
  match item with
  | .unit q t i => d.unitPoisoned (q, t, i)
  | .exportUnit i => if d.exp.cur.isSome then { d with exp := { d.exp with bad := insertSorted d.exp.bad i } } else d
  | .accumulator p die blk a => d.accLost (setKey (p % 512) (die % 64) blk) (a % 8)
  | .nothing | .stripeParity | .deltaLog => d

/-- What an uncorrectable line of HBM takes with it (Table STK-3): which item lies on which line is log 113's, or `item`'s in the stockpot buffers and the
delta log, whose items the spec places nowhere. -/
def Dev.lineLost (d : Dev) (off : Nat) (item : PotItem) : Dev :=
  match regionOf (off / 65536) with
  | 1 => d.potLost item
  | 4 => if item = .deltaLog ∧ !d.paired then { d with dlogBad := d.dlogBad || decide (0 < d.dlog) } else d
  | 0 => match d.resident[off / 65536]? with
    | some pk => d.mapPageLost pk
    | none => d
  | 2 =>
    if d.winBase ≤ off then d.pwPoisoned [(off - d.winBase) / 64]
    else
      let u := (off - 0x1E00000000) / 65536
      let i := off / 4096 % 16
      if i = 15 then (if off % 4096 / 64 < 15 then d.slotLost (u * 15 + off % 4096 / 64) else d) else d.slotLost (u * 15 + i)
  | 3 =>
    let n := (off - 0x2000000000) / 128
    let per := 131072 / d.diesPerPort
    d.trackerLost ((n / 131072 * 64 + n % 131072 / per) * 4096 + n % per)
  | _ => d

/-- Enter an error in the HBM error log (R371). -/
def Dev.hbmLogAdd (d : Dev) (off : Nat) (ue : Bool) : Dev :=
  let e : HbmErr := { off := off, ue := ue, repaired := false, retired := false, tick := d.tick, epoch := d.epoch }
  let d := { d with hbmLog := (e :: d.hbmLog).take 1024 }
  d.setFld Reg.ECC_HBM_ELOG_CNT 10 0 d.hbmLog.length

/-- Every line of a stack holds the poison code (R354).  A 64 KiB page has units on every stack (R352), so every resident map page is lost, and
with the delta log in use some of its lines; of the write cache the slots whose data or descriptor lie on the stack, of the dirty window
its lines there, of the read-level table its entries there. -/
def Dev.poisonStack (d : Dev) (k : Nat) : Dev :=
  let n := 8 * d.slotVers.length
  let d := ((List.range n).filter (fun i => decide (i % 15 / 4 = k) || k == 3)).foldl (fun d i => d.slotLost i) d
  let d := d.pwStackPoisoned k
  let d := d.resident.foldl (fun (d : Dev) pk => d.mapPageLost pk) d
  let d := ((d.trk.map Prod.fst).filter (fun e => stackOf (d.trkOff e) == k)).foldl (fun (d : Dev) e => d.trackerLost e) d
  { d with hbmDead := insertSorted d.hbmDead k, dlogBad := d.dlogBad || decide (0 < d.dlog) }.setFld Reg.ECC_HBM_POISON 23 0 0xFFFFFF

/-- HBM_STACK_FAULT (R13, R354): for a stack fault without a twin, the poison code covers the stack before the dump. -/
def doHbmStackFault (stack cause : Nat) (d : Dev) : Dev :=
  let k := stack % 4
  let d := d.setFlag Reg.STK_HBM_STS (4 + k) true
  (if d.paired then d else d.poisonStack k).ctrlFault k (if 1 ≤ cause ∧ cause ≤ 3 then cause else 1)
def execHbmStackFault (stack cause : Nat) (s : State) : Host.Outcome State Fault Refusal := act s (doHbmStackFault stack cause)

/-! ### Ladles (R360, R361) -/

/-- LADLE_JOB: a job whose address residue fails is discarded and repeated elsewhere, and the ladle leaves service;
DPAR_IN and DPAR_OUT keep the accumulators, the other jobs move what their rows account for. -/
def doLadleJob (ladle : Nat) (job : Job) (residueOk : Bool) (d : Dev) : Dev :=
  let n := ladle % 128
  let r := Reg.STK_LADLE_OUT (n / 32)
  if d.flag r (n % 32) || d.stkHeld then d
  else
    let d := if residueOk then d
      else
        let d := (d.setFlag r (n % 32) true).setFld Reg.STK_LADLE_STS 7 0 (d.fld Reg.STK_LADLE_STS 7 0 - 1)
        (((d.recordErr 0x602 0x0004 (n + 1) 0).recordErr 0x602 0x0103 n (n + 1)).raise 0x602 3).chkCount 0x602
    match job with
    | .dparIn port die block page =>
      let k := setKey (port % 512) (die % 64) block
      let f := d.fpage (k * 4096 + page)
      let u := 2 ^ 43 + k
      if f == FPage.reset || f.verified || ((d.crHold.find (u * 16 + 7)).isNone && !d.mayTake 7 128) then d
      else ((d.takeCredit 7 128 u).2).dparSet k page true
    | .dparOut port die block page =>
      let k := setKey (port % 512) (die % 64) block
      let due := d.fpage (k * 4096 + page + 8) != FPage.reset
      if (d.fpage (k * 4096 + page)).verified && due &&
          !(d.port (port % 512)).ops.any (fun o => o.src == .final && o.die == die % 64 && o.block == block && o.page == page) then
        d.dparSet k page false
      else d
    | _ => d
def execLadleJob (ladle : Nat) (job : Job) (residueOk : Bool) (s : State) : Host.Outcome State Fault Refusal :=
  act s (doLadleJob ladle job residueOk)

/-! ### Firmware cores (R26, Table STK-4) -/

/-- A core fails: it restarts from its image; failing again, it leaves service and a spare comes in. -/
def Dev.coreFail (d : Dev) (core : Nat) (again : Bool) : Dev :=
  let c := core % 68
  if d.coresOut.contains c then d
  else if again || d.coresHit.contains c then
    let d := { d with coresOut := insertSorted d.coresOut c }
    if d.coresOut.length ≤ 4 then d else d.exhaust 4
  else { d with coresHit := insertSorted d.coresHit c }

/-! ### SRAM (R367, R372) -/

/-- The page that owns an array of a kind. -/
def arrPage : ArrKind → Nat
  | .data pg _ => pg
  | .keyCtx _ => 0x400
  | .held pg => pg
  | .queueCtx _ => 0x200
  | .plan _ => 0x701
  | .fwCore _ => 0

/-- Remap a word of an array (R372): the eighth exhausts it. -/
def Dev.remapWord (d : Dev) (a w : Nat) : Dev :=
  let ws := SMap.get (fun _ => []) d.remapped a
  if ws.contains w || decide (8 ≤ ws.length) then d
  else
    let d := ({ d with remapped := SMap.set (fun _ => []) d.remapped a (insertSorted ws w) }).incFld Reg.ECC_ARR_REMAP 15 0 1
    if ws.length = 7 then
      (((d.incFld Reg.ECC_ARR_STS 28 16 1).recordErr 0xA03 0x0112 a 0).raise 0xA03 1).exhaust 6
    else d

/-- A key context whose word is lost comes back from its persistent copy (Table STK-4). -/
def Dev.ctxReload (d : Dev) (c : Nat) : Dev :=
  if (d.ctx c).st = .valid then d.loadCtx c (d.ctxCopy c) else d

/-- A Dealer plan is lost (Table STK-4, R238): that of the port for the next trick is discarded, and its operations wait for the one after. -/
def Dev.planLost (d : Dev) (p : Nat) : Dev :=
  if d.cutDue p then d.setPort p { (d.port p).carried (d.tick / 2048) with cutFor := some (d.tick / 2048) } else d

/-- One SRAM error: a correctable one is corrected and written back, and remapped when it recurs; an uncorrectable one is
recorded on both pages, remapped, and handled by the kind of array (Table STK-4). -/
def Dev.sramError (d : Dev) (array word : Nat) (kind : ArrKind) (ue : Bool) : Dev :=
  let a := array % 5120
  let pg := if pageExists (arrPage kind) then arrPage kind else 0xA03
  let d := d.chkCount pg
  if !ue then
    let d := (d.inc Reg.ECC_ARR_CE 1)
    let d : Dev := { d with arrCe := SMap.set (fun _ => 0) d.arrCe a (satN 16 (SMap.get (fun _ => 0) d.arrCe a + 1)) }
    let k := a * 2 ^ 32 + word % 2 ^ 32
    if d.ceWords.contains k then d.remapWord a word else { d with ceWords := d.ceWords ++ [k] }
  else
    let isData := match kind with | .data _ _ => true | _ => false
    let d := (d.inc Reg.ECC_ARR_UE 1).recordErr pg 0x0005 a 0
    let d := (d.recordErr 0xA03 (if isData then 0x0110 else 0x0111) a word).raise 0xA03 0
    let d := d.remapWord a word
    match kind with
    | .data _ (some u) => d.unitPoisoned u
    | .keyCtx c => d.ctxReload (c % 4096)
    | .queueCtx q => doRingFault q false d
    | .fwCore c => d.coreFail c false
    | .plan p => d.planLost (p % 512)
    | _ => d

/-- SRAM_ECC_ERROR (R367, R372). -/
def doSramEccError (array word : Nat) (kind : ArrKind) (ue : Bool) (d : Dev) : Dev :=
  (d.capRec 0x30 1 [(8, array * 65536 + word), (1, ue.toNat)]).sramError array word kind ue
def execSramEccError (array word : Nat) (kind : ArrKind) (ue : Bool) (s : State) : Host.Outcome State Fault Refusal :=
  act s (doSramEccError array word kind ue)

/-! ### HBM (R368 to R374) -/

/-- HBM ends at 144 GiB. -/
def hbmBytes : Nat := 154618822656

/-- A corrected read (R368, R371). -/
def Dev.hbmCe (d : Dev) (off : Nat) : Dev := ((d.capRec 0x30 0 [(8, off), (1, 0)]).inc Reg.ECC_HBM_CE 1).hbmLogAdd off false

/-- The write-back of a corrected line: dropped and counted where a newer write to the line is queued or overtakes it (R369). -/
def Dev.wbDrop (d : Dev) (newer : Bool) : Dev := if newer then d.inc Reg.ECC_WB_DROP 1 else d

/-- HBM_CORRECTED (R368, R369): the corrected line is written back at once, unless a `newer` write is there. -/
def doHbmCorrected (off : Nat) (newer : Bool) (d : Dev) : Dev := (d.hbmCe (off % hbmBytes)).wbDrop newer
def execHbmCorrected (off : Nat) (newer : Bool) (s : State) : Host.Outcome State Fault Refusal := act s (doHbmCorrected off newer)

/-- An uncorrectable line (R370): the poison code, the log, and past 64 lines of a stack in a second a stack fault
(R354). -/
def Dev.hbmUe (d : Dev) (off : Nat) (item : PotItem) : Dev :=
  let k := stackOf off
  let d := (((d.capRec 0x30 0 [(8, off), (1, 1)]).inc Reg.ECC_HBM_UE 1).recordErr 0xA03 0x0113 (off % 2 ^ 32) (off / 2 ^ 32)).raise 0xA03 2
  let d : Dev := { d with hbmPoison := insertSorted d.hbmPoison (off / 64),
                          hbmRecent := d.hbmRecent.filter (fun x => decide (d.tick < x.2 + 1000000000)) ++ [(k, d.tick)] }
  let d := (d.setFld Reg.ECC_HBM_POISON 23 0 (satN 24 d.hbmPoison.length)).hbmLogAdd off true
  let d := d.lineLost off item
  if 64 < (d.hbmRecent.filter (fun x => x.1 == k)).length then doHbmStackFault k 3 d else d

/-- HBM_UNCORRECTABLE. -/
def doHbmUncorrectable (off : Nat) (item : PotItem) (d : Dev) : Dev := d.hbmUe (off % hbmBytes) item
def execHbmUncorrectable (off : Nat) (item : PotItem) (s : State) : Host.Outcome State Fault Refusal := act s (doHbmUncorrectable off item)

/-- A row wants repair (R373): an uncorrectable error, or a second correctable one within 24 h. -/
def Dev.rowWants (d : Dev) (row : Nat) : Bool :=
  let es := d.hbmLog.filter (fun e => rowOf e.off == row && !e.repaired && !e.retired)
  es.any (·.ue) || ((es.zip (es.drop 1)).any (fun e => e.1.epoch == e.2.epoch && decide (e.1.tick < e.2.tick + dayTicks)))

/-- Retire one HBM page (Table STK-5).  Of the last region the 2 GiB from 0x23_0000_0000 hold the delta log and the top 64 MiB the substitutes; for any other
page of it capture staging shrinks (the places DESIGN CHOICE, log 230). -/
def Dev.retirePage (d : Dev) (pg : Nat) : Dev :=
  if d.hbmRetired.contains pg then d
  else
    let d : Dev := { d with hbmRetired := insertSorted d.hbmRetired pg }
    let d := d.incFld Reg.STK_RETIRED 13 0 1
    let r := regionOf pg
    if r = 0 then d.trimCache
    else if r = 1 then d.crCounts
    else if r = 4 ∧ !(0x230000 ≤ pg && pg < 0x238000) then
      if pg < 0x23FC00 then d else d.setFld Reg.STK_RETIRED 26 16 (d.fld Reg.STK_RETIRED 26 16 - 1)
    else if 0 < d.fld Reg.STK_RETIRED 26 16 then
      let d := d.setFld Reg.STK_RETIRED 26 16 (d.fld Reg.STK_RETIRED 26 16 - 1)
      if d.fld Reg.STK_RETIRED 26 16 = 0 then d.exhaust 7 else d
    else
      let d : Dev := { d.recordErr 0x600 0x0105 r pg with hbmBare := insertSorted d.hbmBare pg }
      if r = 2 ∧ pg * 65536 < d.winBase then d.setFld Reg.STK_PWC_SLOTS 20 0 (d.slots - 15) else d

/-- HBM_ROW_REPAIR (R373, R374): post-package repair, or, without a spare row in the bank, retirement of the row's two
pages. -/
def doHbmRowRepair (off : Nat) (spareLeft : Bool) (d : Dev) : Dev :=
  let o := off % hbmBytes
  let row := rowOf o
  if !d.rowWants row ∨ d.dumping then d
  else if spareLeft then
    let d : Dev := { d with hbmLog := d.hbmLog.map (fun (e : HbmErr) => if rowOf e.off == row then { e with repaired := true } else e) }
    (d.incFld Reg.STK_REPAIRS 15 0 1).raise 0x600 1
  else if 4096 ≤ d.fld Reg.STK_REPAIRS 31 16 then d
  else
    let d : Dev := { d with hbmLog := d.hbmLog.map (fun (e : HbmErr) => if rowOf e.off == row then { e with retired := true } else e) }
    let d := ((d.incFld Reg.STK_REPAIRS 31 16 1).recordErr 0x600 0x0104 (o % 2 ^ 32) (o / 2 ^ 32)).raise 0x600 2
    let pg := o / 131072 * 2
    (d.retirePage pg).retirePage (pg + 1)
def execHbmRowRepair (off : Nat) (spareLeft : Bool) (s : State) : Host.Outcome State Fault Refusal := act s (doHbmRowRepair off spareLeft)

/-! ### Scrubbers (R376, R377) -/

/-- HBM_SCRUB_READ: the next line of the lap; `result` 0 clean, 1 corrected (and written back, unless a `newer` write is there), 2
uncorrectable. -/
def doHbmScrubRead (result : Nat) (newer : Bool) (item : PotItem) (d : Dev) : Dev :=
  if !d.flag Reg.STK_SCR_CTL 0 ∨ 1 < d.mode ∨ d.flushing ∨ d.pagesHold 0x600 0x600 then d
  else
    let off := d.scrLine * 64
    let d := if result = 1 then (d.hbmCe off).wbDrop newer else if result = 2 then d.hbmUe off item else d
    let n := d.scrLine + 1
    if n * 64 = hbmBytes then
      let d := d.setReg Reg.STK_SCR_HBM_LAP (w32 (satN 32 ((d.tick - d.scrStart) / 1000000000)))
      let d := { d with scrLine := 0, scrStart := d.tick }
      ((d.incFld Reg.STK_SCR_LAPS 15 0 1).setReg Reg.STK_SCR_HBM_POS 0).raise 0x600 6
    else { d with scrLine := n }.setFld Reg.STK_SCR_HBM_POS 21 0 (n / 1024)
def execHbmScrubRead (result : Nat) (newer : Bool) (item : PotItem) (s : State) : Host.Outcome State Fault Refusal :=
  act s (doHbmScrubRead result newer item)

/-- SRAM_SCRUB_READ: one word; `lapDone` says that it was the lap's last. -/
def doSramScrubRead (array word result : Nat) (kind : ArrKind) (lapDone : Bool) (d : Dev) : Dev :=
  if !d.flag Reg.STK_SCR_CTL 1 ∨ 1 < d.mode ∨ d.flushing ∨ d.pagesHold 0x600 0x600 then d
  else
    let d := if result = 1 then d.sramError array word kind false else if result = 2 then d.sramError array word kind true else d
    if lapDone then
      let d := d.setReg Reg.STK_SCR_SRAM_LAP (w32 (satN 32 ((d.tick - d.sramStart) / 1000000)))
      (({ d with sramStart := d.tick }).incFld Reg.STK_SCR_LAPS 31 16 1).raise 0x600 6
    else d
def execSramScrubRead (array word result : Nat) (kind : ArrKind) (lapDone : Bool) (s : State) : Host.Outcome State Fault Refusal :=
  act s (doSramScrubRead array word result kind lapDone)

/-- SCR_STARVED: the HBM lap has run for more than STARVE_H hours. -/
def doScrStarved (d : Dev) : Dev :=
  if d.scrStarved then d.raise 0x600 7 else d
def execScrStarved (s : State) : Host.Outcome State Fault Refusal := act s doScrStarved

end Sys2Proof.Machine
end

