-- ==== Sys2Proof/Machine/Twn.lean ====
section
/-! DEFINITION. The twin link (chapter 13): lanes, keys and pairing, message order and ACK, what each message applies, loss of the
twin and takeover, leaving, moving a slice. -/

namespace Sys2Proof.Machine

/-! ### Lanes (R381, R382) -/

/-- The physical lanes in service. -/
def Dev.lanesOn (d : Dev) : List Nat := (List.range 18).filter (fun l => d.flag Reg.TWN_LANE_MAP l)

/-- GULON_LANE_FAIL: a spare takes the lane's place, or the link narrows to x8, or goes down. -/
def doGulonLaneFail (lane cause : Nat) (d : Dev) : Dev :=
  let l := lane % 18
  if !d.flag Reg.TWN_LANE_MAP l then d
  else
    let d := (d.setFlag Reg.TWN_LANE_FAIL l true).setFlag Reg.TWN_LANE_MAP l false
    let d := (d.recordErr 0xC00 0x0100 l (cause % 2)).raise 0xC00 1
    let free := (List.range 18).filter (fun i => !d.flag Reg.TWN_LANE_MAP i && !d.flag Reg.TWN_LANE_FAIL i)
    let left := d.fld Reg.TWN_LINK_STS 7 6
    match free, left with
    | i :: _, n + 1 =>
      let d := ((d.setFlag Reg.TWN_LANE_MAP i true).setFld Reg.TWN_LINK_STS 7 6 n).inc Reg.TWN_RETRAINS 1
      if n = 0 then d.exhaust 5 else d
    | _, _ =>
      if 8 < d.fld Reg.TWN_LINK_STS 5 1 ∧ 8 ≤ d.lanesOn.length then
        let keep := d.lanesOn.take 8
        let d := d.setFld Reg.TWN_LANE_MAP 17 0 (keep.foldl (fun a i => a + 2 ^ i) 0)
        ((d.setFld Reg.TWN_LINK_STS 5 1 8).inc Reg.TWN_RETRAINS 1).raise 0xC00 0
      else d.linkDown
def execGulonLaneFail (lane cause : Nat) (s : State) : Host.Outcome State Fault Refusal := act s (doGulonLaneFail lane cause)

/-! ### Keying (R385 to R388, R390, R391, R410) -/

/-- The stop class of the last bring-up: 0 CLEAN, 1 DUMPED, 2 INCOMPLETE, 3 CUT. -/
def Dev.stopClass (d : Dev) : Nat := d.fld Reg.TST_BRG_CAUSE 5 3

/-- The key under which this unit wraps its session key: the shelf key, or at first pairing the pairing key (R388, R390; log 216). -/
def Dev.linkKey (d : Dev) : Option Nat := if d.shelf.isSome then d.shelf else d.pairKey

/-- The shelf key that HELLO carries at first pairing (R390): the one held, or the one that SIDE 0 has drawn, wrapped under the pairing key. -/
def Dev.shelfOut (d : Dev) : Option Nat :=
  match d.pairKey, (if d.shelf.isSome then d.shelf else if d.side == 0 then d.shelfNew else none) with
  | some p, some k => some (rfcWrap p 4 k)
  | _, _ => none

/-- What HELLO and HELLO_ACK say of this unit, its session key wrapped under `k`. -/
def Dev.myHello (d : Dev) (k : Nat) : Hello :=
  { serial := Config.serial, ver := 0x01004100, fwMajor := d.fld Reg.NVM_IMG_VER 31 24, seed := d.fld Reg.SHF_SEED 31 0,
    bandsFmt := d.fld Reg.MAP_BANDS_FMT 22 0, segs := d.segs, fence := d.fence, stop := d.stopClass, dumpSeq := d.fld Reg.PWR_DUMP_SEQ 31 0,
    wkey := rfcWrap k 4 d.sesTx, wshelf := d.shelfOut }

/-- Put HELLO (1) or HELLO_ACK (2) on the link; without a key to prove there is none to send (R391 check 2). -/
def Dev.sendHello (d : Dev) (kind : Nat) : Dev :=
  match d.linkKey with
  | some k => d.putGulon kind d.gTx true (d.myHello k).fs
  | none => d

/-- A random draw of this block (R474, R476): a capture records that it happened. -/
def Dev.random (d : Dev) : Dev := (d.capRec 0x2A 11 []).drawn

/-- A fresh session key for the transmit direction, and its next epoch (R385, R387); SIDE 0 draws the shelf key if none is held (R390). -/
def Dev.freshKeys (d : Dev) : Dev :=
  let d := { d.random with sesTx := d.freeVal % 2 ^ 256, sesTxNew := none, rekeyOut := false }
  let d := if d.side = 0 ∧ d.shelf.isNone ∧ d.shelfNew.isNone ∧ d.pairKey.isSome then { d.random with shelfNew := some (d.freeVal % 2 ^ 256) } else d
  (d.setFld Reg.TWN_KEY_STS 15 0 (d.txEpoch + 1)).setReg Reg.TWN_TX_INV 0

/-- Enter KEYING: HELLO goes out with a fresh session key. -/
def Dev.enterKeying (d : Dev) : Dev :=
  let prev := if d.twin = 2 ∨ d.twin = 3 then d.twin else if d.twin = 1 then d.gPrev else 0
  (({ d with gPrev := prev }.setTwin 1).freshKeys).sendHello 0x01

/-- A tag failure (R387). -/
def Dev.authFail (d : Dev) (kind : Nat) (m : GMsg) : Dev :=
  ((d.inc Reg.TWN_AUTH_FAIL 1).recordErr 0xC00 0x0101 kind (m.mnum % 2 ^ 32)).enterKeying

/-- The shelf key that a HELLO hands to a unit that holds none (R390). -/
def Dev.shelfIn (d : Dev) (h : Hello) : Option Nat :=
  match d.shelf, d.pairKey, h.wshelf with
  | none, some p, some w => rfcUnwrap p 4 w
  | _, _, _ => none

/-- The twin's session key, unwrapped: under the shelf key held, received or drawn, or at first pairing under the pairing key (R391 check 2). -/
def Dev.sessionIn (d : Dev) (h : Hello) : Option Nat :=
  ([d.shelf, d.shelfIn h, d.shelfNew, d.pairKey].filterMap id).findSome? (fun k => rfcUnwrap k 4 h.wkey)

/-- The first check of R391 that fails. -/
def Dev.helloCheck (d : Dev) (m : GMsg) (h : Hello) : Option Nat :=
  let tests : List (Nat × Bool) := [
    (1, m.side % 2 != d.side), (2, (d.sessionIn h).isSome),
    (3, h.ver / 2 ^ 24 == 1 && h.fwMajor == d.fld Reg.NVM_IMG_VER 31 24),
    (4, d.fld Reg.MAP_BANDS_FMT 22 0 == 0 || (h.seed == d.fld Reg.SHF_SEED 31 0 && h.bandsFmt == d.fld Reg.MAP_BANDS_FMT 22 0)),
    (5, h.segs == d.segs)]
  (tests.find? (fun t => !t.2)).map Prod.fst

/-- The rank of a stop class in R410: DUMPED, then INCOMPLETE, then CUT and CLEAN. -/
def stopRank (c : Nat) : Nat := if c = 1 then 2 else if c = 2 then 1 else 0

/-- This unit serves, and the other joins (R410). -/
def Dev.servesOver (d : Dev) (h : Hello) : Bool :=
  if fenceNewer d.fence h.fence then true else if fenceNewer h.fence d.fence then false
  else if stopRank d.stopClass ≠ stopRank h.stop then decide (stopRank h.stop < stopRank d.stopClass)
  else d.side == 0

/-- The window granules that hold stored bytes or are dirty. -/
def Dev.windowGranules (d : Dev) (m : Memory) : List Nat :=
  (d.pwDirty.map Prod.fst).foldl insertSorted
    (m.foldl (fun (acc : List Nat) c => let g := c.1 / 32768; if acc.head? == some g then acc else g :: acc) []).reverse

/-- A list in pieces of at most `n`. -/
def piecesOf {α : Type} (n : Nat) : Nat → List α → List (List α)
  | 0, _ => []
  | k + 1, l => if l.isEmpty then [] else l.take n :: piecesOf n k (l.drop n)

/-- The code of a band's state in the journal: its place in Table MAP-4; and back. -/
def BandSt.code : BandSt → Nat
  | .free => 0 | .openSlc => 1 | .openQlc => 2 | .openMeta => 3 | .closed => 4 | .victim => 5 | .erasing => 6 | .withdrawn => 7
def bandStOf (n : Nat) : BandSt :=
  match n with
  | 0 => .free | 1 => .openSlc | 2 => .openQlc | 3 => .openMeta | 4 => .closed | 5 => .victim | 6 => .erasing | _ => .withdrawn

/-- The replaced sets of the bands: band, position, port, die, block. -/
def Dev.setsChanged (d : Dev) : List (Nat × Nat × Nat × Nat × Nat) :=
  (d.bands.filter (fun kv => !kv.2.sets.isEmpty)).flatMap (fun kv =>
    ((List.range 19).zip ((d.setsOf kv.1).zip (d.formedSets kv.1))).filterMap (fun x =>
      if x.2.1.port == x.2.2.port && x.2.1.die == x.2.2.die && x.2.1.block == x.2.2.block then none
      else some (kv.1, x.1, x.2.1.port, x.2.1.die, x.2.1.block)))

/-- The journal records of SYNC (R409), in batches that fit a message each: the delta log since each dirty page's last write-back, the dirty-region
bitmap, context copies with their marks, the binding table, band and replacement tables. -/
def Dev.syncBatches (d : Dev) : List JBatch :=
  let n := d.dlogRing.length + d.bmDirty.length + d.ctxStore.length + d.slices.length + d.bands.length + d.setsChanged.length
  let regions (b : Nat) : Nat := sumL ((d.bmDirty.filter (fun k => k / 64 == b)).map (fun k => 2 ^ (k % 64)))
  let bms := ((d.bmDirty.foldl (fun a k => insertSorted a (k / 64)) []).map (fun b =>
    ({ kind := 3, seq := d.get64 Reg.SHF_BM_SEQ_LO Reg.SHF_BM_SEQ_HI, band := b, regions := regions b, tick := d.tick, epoch := d.epoch } : MBitmap)))
  (piecesOf 1000 n d.setsChanged).map (fun l => { JBatch.none with sets := l }) ++
  (piecesOf 1000 n (d.bands.map (fun kv => (kv.1, kv.2.st.code)))).map (fun l => { JBatch.none with bands := l }) ++
  (piecesOf 1000 n ((d.dlogRing.filter (fun r => !r.2.2.2)).map (fun r => ({ slice := r.1, granule := r.2.1, entry := r.2.2.1 } : MDelta)))).map
    (fun l => { JBatch.none with deltas := l }) ++
  (piecesOf 500 n bms).map (fun l => { JBatch.none with bitmaps := l }) ++
  (piecesOf 200 n (d.ctxStore.map (fun kv => kv.2.mctx kv.1))).map (fun l => { JBatch.none with ctxs := l }) ++
  (piecesOf 1000 n ((d.slices.filter (fun kv => kv.2.bound)).map (fun kv => d.mslice kv.1))).map (fun l => { JBatch.none with slices := l })

/-- SYNC of the serving unit (R409): every used slot, the window, the journal's tables, in messages of at most 36,864 bytes; the last one has
LAST. -/
def Dev.sendSync (d : Dev) (m : Memory) : Dev :=
  let part (v : List MVer) (b : JBatch) (w : List (Nat × List Byte)) : Fields := syncFs v b d.fence w
  let parts := d.syncBatches.map (fun b => part [] b []) ++
    ((d.windowGranules m).map (fun g => part [] JBatch.none [(g * 32768, Memory.readList windowDflt m (g * 32768) 32768)])) ++
    d.cache.map (fun v => part [v.mver] JBatch.none [])
  let d := parts.foldl (fun (d : Dev) fs => d.sendPart 0x50 false fs) d
  { d with syncEnd := some d.gTx }.sendPart 0x50 true (part [] JBatch.none [])

/-- A joiner discards its own cache and tables (R409). -/
def Dev.joinerClear (d : Dev) : Dev :=
  let d : Dev := { d.dropCache with bmDirty := [], resync := [], bmClear := [], bmWait := [], dlog := 0, dlogRing := [], dlogBad := false, dirty := [], metaBack := [], twinSlices := [], twinVers := [], twinCtxs := [],
                                    twinRegions := [], pwTwin := [], twinUsed := 0 }
  let d := d.bmLogsOn.foldl (fun (d : Dev) n => d.setBmLog n { BmLog.reset with base := d.bmSeq }) d
  (d.bmCount.setFld Reg.MAP_DLOG_USED 21 0 0).setFld Reg.MAP_CACHE_DIRTY 20 0 0

/-- A unit that held no shelf key keeps one from now on (R390); the persistent copies are wrapped anew under it. -/
def Dev.adoptShelf (d : Dev) (k : Nat) : Dev :=
  let anew (x : CtxCopy) : CtxCopy := { x with wrapped := (x.wrapped.bind (rfcUnwrap d.shelfKey 15)).map (rfcWrap k 15) }
  { d with shelf := some k, shelfNew := none, ctxStore := d.ctxStore.map (fun (kv : Nat × CtxCopy) => (kv.1, anew kv.2)) }.setFlag Reg.TWN_PAIRKEY_STS 1 true

/-- Session keys are exchanged and the checks have passed: SYNCING, or back to where a tag failure has left.  A joining pair counts on from the
MNUM that HELLO names (log 216). -/
def Dev.keyed (d : Dev) (mem : Memory) (m : GMsg) (h : Hello) : Dev :=
  let ses := (d.sessionIn h).getD 0
  let d := match d.shelf, (if (d.shelfIn h).isSome then d.shelfIn h else d.shelfNew) with
    | none, some k => d.adoptShelf k
    | _, _ => d
  let d := { d with sesRx := ses, sesRxNew := none }.setFld Reg.TWN_KEY_STS 31 16 m.keyep
  let d := d.set64 Reg.TWN_PEER_SERIAL_LO Reg.TWN_PEER_SERIAL_HI (h.serial % 2 ^ 64)
  let d := (d.setReg Reg.TWN_PEER_VER (w32 h.ver)).setFlag Reg.TWN_STS 5 (m.side % 2 == 1)
  let d : Dev := { d.setReg Reg.TWN_MISMATCH 0 with gLastRx := d.tick }
  if d.gPrev = 3 then (d.setTwin 3).resend true
  else if d.gPrev = 2 then (d.setTwin 2).resend true
  else
    let serve := d.servesOver h
    let d := { d with serves := serve, decided := none, taking := false, takes := [], gRx := m.mnum }.setTwin 2
    if serve then d.sendSync mem else d.joinerClear

/-- HELLO or HELLO_ACK is checked (R391). -/
def Dev.helloIn (d : Dev) (mem : Memory) (m : GMsg) (h : Hello) (reply : Bool) : Dev :=
  match d.helloCheck m h with
  | some n =>
    let was := d.paired
    let d := ((d.setTwin 6).setReg Reg.TWN_MISMATCH (w32 n)).recordErr 0xC01 0x0102 0 n
    if was then d.singleNow else d
  | none => (if reply then d.sendHello 0x02 else d).keyed mem m h

/-- The link can key: trained, with pairing enabled. -/
def Dev.canKey (d : Dev) : Bool := d.flag Reg.TWN_LINK_STS 0 && d.flag Reg.TWN_CTL 0 && !d.twnHeld && !d.dumping

/-- A unit that is not pairing or paired may begin to (Table TWN-3): DOWN, LOST, FENCED, MISMATCH or LEFT. -/
def Dev.mayPair (d : Dev) : Bool := d.twin == 0 || 4 ≤ d.twin

/-- The capture record of a received message (R476, R480): its header and payload, the key fields of HELLO and REKEY redacted, and at DATA 0 the
payloads of MIRROR and WSTORE as their CRC-64. -/
def Dev.capTwin (d : Dev) (kind : Nat) (m : GMsg) (last : Bool) (fs : Fields) : Dev :=
  let len := payLen fs
  let hd := (32, gHeader kind last len m.mnum m.ack m.keyep m.side m.inv)
  if kind = 0x10 ∨ kind = 0x14 then d.capData 0x28 0 1 [hd] len (payVal fs)
  else if kind ≤ 0x03 then d.capRedacted 0x28 0 (hd :: fs.map (fun f => if f.1 = 40 then (40, 0) else f))
  else d.capRec 0x28 0 [hd, (len, payVal fs)]

/-- HELLO: a twin that has gone back to KEYING takes this unit with it (R387), and one that comes back finds it (R409, R566). -/
def doHello (m : GMsg) (h : Hello) (mem : Memory) (d : Dev) : Dev :=
  if !d.canKey then d
  else
  let d := d.capTwin 0x01 m true h.fs
  if d.twin = 1 then d.helloIn mem m h true
  else if d.twin = 2 ∨ d.twin = 3 ∨ d.released then d.enterKeying.helloIn mem m h true
  else d
def execHello (m : GMsg) (h : Hello) (s : State) : Host.Outcome State Fault Refusal := actWindow s (doHello m h) (fun _ _ => [])

/-- HELLO_ACK. -/
def doHelloAck (m : GMsg) (h : Hello) (mem : Memory) (d : Dev) : Dev :=
  if d.canKey && d.twin == 1 then (d.capTwin 0x02 m true h.fs).helloIn mem m h false else d
def execHelloAck (m : GMsg) (h : Hello) (s : State) : Host.Outcome State Fault Refusal := actWindow s (doHelloAck m h) (fun _ _ => [])

/-- The fields of REKEY: the new key wrapped under the shelf key, and its epoch (R388). -/
def rekeyFs (wkey epoch : Nat) : Fields := [(40, wkey), (2, epoch % 65536)]

/-- INV_LIMIT (R388): REKEY at INV 2^31 − 2^24 with a fresh key; without REKEY_ACK by INV 2^31 the link returns to KEYING. -/
def doInvLimit (d : Dev) : Dev :=
  let inv := d.fld Reg.TWN_TX_INV 31 0
  if !(d.twin == 2 || d.twin == 3) || inv < 2 ^ 31 - 2 ^ 24 then d
  else if d.rekeyOut then
    if 2 ^ 31 ≤ inv then (d.recordErr 0xC00 0x0106 (d.fld Reg.TWN_KEY_STS 15 0) 0).enterKeying else d
  else
    let k := d.freeVal % 2 ^ 256
    { d.random with rekeyOut := true, sesTxNew := some k }.sendGulon 0x03 (rekeyFs (rfcWrap d.shelfKey 4 k) (d.txEpoch + 1))
def execInvLimit (s : State) : Host.Outcome State Fault Refusal := act s doInvLimit

/-- PAIRKEY_SET (R190, R390): the write of TWN_PAIRKEY7 sets the pairing key from the eight registers; a link that waits for it in KEYING sends
HELLO. -/
def doPairkeySet (v : Word) (d : Dev) : Dev :=
  regWrite d (Reg.TWN_PAIRKEY 7) v (fun _ d =>
    let d := d.setReg (Reg.TWN_PAIRKEY 7) v
    let k := d.keyRegs (Reg.TWN_PAIRKEY 0)
    let d := (List.range 8).foldl (fun (d : Dev) i => d.setReg (Reg.TWN_PAIRKEY i) 0) d
    let waits := d.twin = 1 ∧ d.linkKey.isNone
    let d : Dev := { (d.setFlag Reg.TWN_PAIRKEY_STS 0 true).setFld Reg.TWN_PAIRKEY_STS 31 16 (kcvOf k) with pairKey := some k }
    if waits then d.enterKeying else d)
def execPairkeySet (v : Word) (s : State) : Host.Outcome State Fault Refusal := act s (doPairkeySet v)

/-! ### PAIRED (R392, R396, R409) -/

/-- PAIRED is reached: the pairing key is cleared, the pages split, and FENCE moves on.  The server
releases the joiner's bridges; the joiner takes its own with FORCE = 0. -/
def Dev.nowPaired (d : Dev) (fence : Nat) : Dev :=
  let f := (fence + 1) % 65536
  let d := (d.setTwin 3).setFld Reg.TWN_STS 31 16 f
  let d := ((d.setReg Reg.TWN_PAIRKEY_STS 0).setFlag Reg.TWN_PAIRKEY_STS 1 true).setFld Reg.TWN_PAGES 17 0 ((32 - d.segs) * 2048)
  let d : Dev := { d with pairKey := none, syncEnd := none, gPrev := 0, gLastRx := d.tick }
  let d := if d.fld Reg.GLB_DEV_STS 7 4 = 10 then d.setFlag Reg.TST_BRG_STS 5 true else d
  if d.serves then d.handOver ((List.range 512).filter (fun p => !d.homeSide p))
  else d.askTokens ((List.range 512).filter d.homeSide)

/-! ### Receiving in order (R386) -/

/-- ACK covers messages: their MIRROR latency is a sample, window bytes no longer await mirroring, their versions are
MIRRORED and post, and the map changes whose records they carried stand (R25). -/
def Dev.acked (d : Dev) (ack : Nat) : Dev :=
  if ack = 2 ^ 64 - 1 || !d.gPend.any (fun m => decide (m.mnum ≤ ack)) then d
  else
    let cov := d.gPend.filter (fun m => decide (m.mnum ≤ ack))
    let d := cov.foldl (fun (d : Dev) m => if m.kind = 0x10 then d.score 13 (d.tick - m.tick) none none none else d) d
    let bytes := sumL (cov.map (fun m => if m.kind = 0x14 then (m.words.getD 1 (0, 0)).2 else 0))
    let d : Dev := { d with
      gPend := d.gPend.filter (fun m => decide (ack < m.mnum))
      pwUnmir := d.pwUnmir - bytes
      cache := d.cache.map (fun (v : Ver) => if v.stage == .received && decide (v.mnum ≤ ack) then { v with stage := .mirrored } else v) }
    let d := d.setFld Reg.TWN_MIR_PEND 15 0 (satN 16 d.gPend.length)
    let d := (d.applyReady (fun x => x.mnum.any (fun n => decide (n ≤ ack)))).ctxReady (fun x => decide (x.mnum ≤ ack))
    let d := match d.syncEnd with
      | some n => if n ≤ ack ∧ d.twin = 2 then d.nowPaired d.fence else d
      | none => d
    d.postPlaced.gpfTry

/-- KEYEP of the receive direction. -/
def Dev.rxEpoch (d : Dev) : Nat := d.fld Reg.TWN_KEY_STS 31 16

/-- The session key of a received epoch: the present one, or the one that REKEY has announced (R388). -/
def Dev.rxKey (d : Dev) (keyep : Nat) : Option Nat :=
  if keyep = d.rxEpoch then some d.sesRx else if keyep = (d.rxEpoch + 1) % 65536 then d.sesRxNew else none

/-- A message's tag holds under the session key of its epoch (R385). -/
def Dev.tagGood (d : Dev) (kind : Nat) (m : GMsg) (last : Bool) (fs : Fields) : Bool :=
  match d.rxKey m.keyep with
  | some k => m.tag == gTag k kind last m.mnum m.ack m.keyep m.side m.inv fs
  | none => false

/-- Messages are received: the link is keyed, no loss is decided, and no dump runs (R437). -/
def Dev.listens (d : Dev) : Bool := !d.twnStop && !d.dumping && (d.twin == 2 || d.twin == 3) && d.decided.isNone

/-- A message would be applied now: it is received, its tag holds and it is the next in order. -/
def Dev.recvOk (d : Dev) (kind : Nat) (m : GMsg) (last : Bool) (fs : Fields) : Bool := d.listens && d.tagGood kind m last fs && m.mnum == d.gRx

/-- The first message of a new epoch ends the old one (R388). -/
def Dev.rxEpochTo (d : Dev) (keyep : Nat) : Dev :=
  match d.sesRxNew with
  | some k => if keyep = d.rxEpoch then d else ({ d with sesRx := k, sesRxNew := none }.setFld Reg.TWN_KEY_STS 31 16 keyep).inc Reg.TWN_REKEYS 1
  | none => d

/-- Receive a message of a type: a failed tag returns the link to KEYING; one already applied is discarded; the next one is
applied, and the next message sent carries its MNUM as ACK. -/
def Dev.recv (d : Dev) (kind : Nat) (m : GMsg) (last : Bool) (fs : Fields) (f : Dev → Dev) : Dev :=
  if !d.listens then d
  else if !d.tagGood kind m last fs then d.authFail kind m
  else
    let d := (({ d.capTwin kind m last fs with gLastRx := d.tick }.rxEpochTo m.keyep).acked m.ack)
    if m.mnum = d.gRx then f { d with gRx := d.gRx + 1 } else d

/-- REKEY (R388): the sender's next key is unwrapped, and used from its first message on. -/
def doRekey (m : GMsg) (wkey : Nat) (d : Dev) : Dev :=
  d.recv 0x03 m true (rekeyFs wkey (m.keyep + 1)) (fun d =>
    match rfcUnwrap d.shelfKey 4 wkey with
    | some k => { d with sesRxNew := some k }.sendGulon 0x04 [(2, (m.keyep + 1) % 65536)]
    | none => d)
def execRekey (m : GMsg) (wkey : Nat) (s : State) : Host.Outcome State Fault Refusal := act s (doRekey m wkey)

/-- REKEY_ACK (R388): the new key is used from the next message on, and what waited for it goes out. -/
def doRekeyAck (m : GMsg) (d : Dev) : Dev :=
  d.recv 0x04 m true [(2, (d.txEpoch + 1) % 65536)] (fun d =>
    match d.sesTxNew with
    | some k =>
      let d := { d with rekeyOut := false, sesTx := k, sesTxNew := none }.setFld Reg.TWN_KEY_STS 15 0 (d.txEpoch + 1)
      ((d.setReg Reg.TWN_TX_INV 0).resend false).inc Reg.TWN_REKEYS 1
    | none => d)
def execRekeyAck (m : GMsg) (s : State) : Host.Outcome State Fault Refusal := act s (doRekeyAck m)

/-! ### What the twin's records change here -/

/-- A block of the twin's version. -/
def foreignBlk (b : MBlk) : Blk :=
  if b.poison then poisonBlk
  else { data := b.data % 2 ^ 32768, sl := Seal.ofWord b.sl, crec := CRec.ofWord b.crec, poison := false }

/-- A version of the twin, as this unit's copy holds it. -/
def foreignVer (v : MVer) : Ver :=
  let s := v.slice % 1024
  { slice := s, granule := v.granule % 2 ^ 37, gver := v.gver % 2 ^ 20, cls := 2, qid := 16 * s, tag := 0, pwin := v.pwin, posted := true, postNo := 0,
    stage := .single, mnum := 0, loc := none, wrote := List.range 8, src := [],
    blks := ((List.range 8).zip (v.blks.take 8)).map (fun kb => (kb.1, foreignBlk kb.2)) }

/-- Keep copies of the twin's versions; one of the window is the copy of a write-back (R80). -/
def Dev.mirrorVers (d : Dev) (vs : List MVer) : Dev :=
  let ws := (vs.filter (fun v => v.pwin)).filterMap (fun v => d.pwGranule (v.slice % 1024) (v.granule % 2 ^ 37))
  { d with twinVers := d.twinVers ++ vs.map foreignVer, pwTwin := ws.foldl pwCopied d.pwTwin }

/-- The location a map entry's bits name (Table MAP-1), found through the band whose set has that block's name. -/
def Dev.locOf (d : Dev) (e : Nat) : Option Loc :=
  if e % 4 = 0 then none
  else
    let port := e / 2 ^ 53 % 512
    let die := e / 2 ^ 47 % 64
    let block := e / 2 ^ 35 % 4096
    let page := e / 2 ^ 23 % 4096
    let k := setKey port die block
    let band := ((List.range (d.fld Reg.MAP_BANDS_FMT 22 0)).find? (fun b => (d.setsOf b).any (fun s => s.old == k))).getD 0
    let pos := ((d.setsOf band).findIdx? (fun s => s.old == k)).getD 0
    some { slc := e % 4 == 2, port := port, die := die, block := block, page := page, half := e / 2 ^ 22 % 2, band := band,
           stripe := page, pos := pos }

/-- A map change of the twin: what it programmed at the new place is the copy held here, or for a relocation what stood at the old one. -/
def Dev.foreignDelta (d : Dev) (x : MDelta) : Dev :=
  let s := x.slice % 1024
  let g := x.granule % 2 ^ 37
  let e : MapEnt := { gver := x.entry / 4 % 2 ^ 20, loc := d.locOf x.entry }
  let gran : Option Gran := match d.twinVers.find? (fun v => v.slice == s && v.granule == g && v.gver == e.gver) with
    | some v => some { slice := s, granule := g, gver := e.gver, pad := false, stamp := d.tick,
                       blks := (List.range 8).map (fun k => (v.blks.find k).getD (d.flashBlk s (8 * g + k))) }
    | none => d.stored s g
  let d := match e.loc, gran with
    | some l, some gr =>
      let pg := d.fpage l.key
      d.setFPage l.key (if l.half = 0 then { pg with half0 := some gr, slc := l.slc, verified := true }
        else { pg with half1 := some gr, slc := l.slc, verified := true })
    | _, _ => d
  d.putEnt s g e

/-- A group that the twin owns changes state (R433): the port islands and lanes here follow; the operations that waited for it
go on. -/
def Dev.followDomain (d : Dev) (g st : Nat) : Dev :=
  let was := d.domSt g
  if !d.followed g ∨ 2 < st ∨ was = st then d
  else
    let ports := ((List.range 8).map (fun i => 8 * g + i)).filter (fun p => d.lstate p != 7)
    let d := d.setDomSt g st
    let d := if st = 2 then ports.foldl (fun (d : Dev) p => d.setLstate p 0) d
      else if was = 2 then ports.foldl (fun (d : Dev) p => d.reinit p) d
      else if st = 0 then d.wakeLanes g else d
    let d := if st = 0 then d.domReached g else d.setDom g { d.dom g with last := d.tick }
    d.raise 0xD01 3

/-- A band of the twin changes its state; one that it has erased holds nothing any more. -/
def Dev.foreignBand (d : Dev) (b code : Nat) : Dev :=
  let sets := d.setsOf b
  let d := if code = 0 then { d with flash := d.flash.filter (fun (kv : Nat × FPage) => !sets.any (fun s => s.old == kv.1 / 4096)) } else d
  d.setBand b { d.band b with st := bandStOf code, sets := sets }

/-- The twin has put another block in a set's place: a spare of the same die, or a replacement (R206, R341). -/
def Dev.foreignSet (d : Dev) (b pos port die block : Nat) : Dev :=
  let cur := d.setAtPos b pos
  let spare := cur.port == port && cur.die == die
  let formed := (d.formedSets b).getD pos cur
  let set : BSet := { cur with port := port, die := die, block := block, repl := port != formed.port, erased := false, prog := 0,
                               old := if spare then setKey port die block else cur.old }
  d.setBand b { d.band b with sets := setAt (d.setsOf b) pos set }

/-- A MARK of the twin's contexts: marks only rise (R182). -/
def CtxCopy.markTo (x : CtxCopy) (side mark : Nat) : CtxCopy :=
  if side = 0 then { x with mark0 := max x.mark0 mark } else { x with mark1 := max x.mark1 mark }

/-- Apply a batch of journal records; its health states tell what this unit computes itself (R512) (R25, R200, R346, R182, R175, R393, R433). -/
def Dev.applyBatch (d : Dev) (b : JBatch) : Dev :=
  let d := b.sets.foldl (fun (d : Dev) x => d.foreignSet x.1 x.2.1 (x.2.2.1 % 512) (x.2.2.2.1 % 64) (x.2.2.2.2 % 4096)) d
  let d := b.bands.foldl (fun (d : Dev) x => d.foreignBand x.1 x.2) d
  let d := b.deltas.foldl (fun (d : Dev) x => d.foreignDelta x) d
  let d := b.doms.foldl (fun (d : Dev) x => d.followDomain (x.1 % 64) x.2) d
  let ctxs := b.ctxs.foldl (fun (m : SMap CtxCopy) x => SMap.insert m (x.ctx % 4096) ((copyOfRec x).after (SMap.get (fun _ => CtxCopy.reset) m (x.ctx % 4096)))) d.twinCtxs
  { d with
    twinSlices := b.slices.foldl (fun (m : SMap MSlice) (x : MSlice) =>
      if x.st = 0 then SMap.erase m (x.slice % 1024) else SMap.insert m (x.slice % 1024) x) d.twinSlices
    twinCtxs := b.marks.foldl (fun (m : SMap CtxCopy) (x : Nat × Nat × Nat) =>
      SMap.insert m (x.1 % 4096) ((SMap.get (fun _ => CtxCopy.reset) m (x.1 % 4096)).markTo (x.2.1 % 2) x.2.2)) ctxs
    twinRegions := b.bitmaps.foldl (fun (l : List Nat) (x : MBitmap) =>
      ((List.range 64).filter (fun r => x.regions.testBit r)).foldl (fun l r => insertSorted l (x.band * 64 + r))
        (l.filter (fun k => k / 64 != x.band))) d.twinRegions }.respace

/-- MIRROR (R395). -/
def doMirror (m : GMsg) (vers : List MVer) (b : JBatch) (d : Dev) : Dev :=
  d.recv 0x10 m true (mirrorFs vers b) (fun d => (d.mirrorVers vers).applyBatch b)
def execMirror (m : GMsg) (vers : List MVer) (b : JBatch) (s : State) : Host.Outcome State Fault Refusal := act s (doMirror m vers b)

/-- JOURNAL. -/
def doJournal (m : GMsg) (b : JBatch) (d : Dev) : Dev := d.recv 0x12 m true b.fs (fun d => d.applyBatch b)
def execJournal (m : GMsg) (b : JBatch) (s : State) : Host.Outcome State Fault Refusal := act s (doJournal m b)

/-- FREE (R19, R397): the copies of committed granules go; the write-back of a window granule is over. -/
def doFree (m : GMsg) (slots : List (Nat × Nat × Nat)) (d : Dev) : Dev :=
  d.recv 0x13 m true (freeFs slots) (fun d =>
    let hit (v : Ver) : Bool := slots.any (fun x => x.1 == v.slice && x.2.1 == v.granule && x.2.2 == v.gver)
    let wins := (d.twinVers.filter (fun v => hit v && v.pwin)).filterMap (fun v => d.pwGranule v.slice v.granule)
    { d with twinVers := d.twinVers.filter (fun v => !hit v), pwTwin := wins.foldl pwCleaned d.pwTwin })
def execFree (m : GMsg) (slots : List (Nat × Nat × Nat)) (s : State) : Host.Outcome State Fault Refusal := act s (doFree m slots)

/-- FREE_SEND (R397): as many slots as a message holds. -/
def doFreeSend (d : Dev) : Dev :=
  if d.freeQ.isEmpty || d.twnStop then d
  else if d.paired then
    { d with freeQ := d.freeQ.drop 3000 }.sendGulon 0x13 (freeFs ((d.freeQ.take 3000).map (fun k =>
      (k / 2 ^ 20 / 2 ^ 37, k / 2 ^ 20 % 2 ^ 37, k % 2 ^ 20))))
  else { d with freeQ := [] }
def execFreeSend (s : State) : Host.Outcome State Fault Refusal := act s doFreeSend

/-- The twin's stores mark the window granules that they touch dirty there (R79, R80). -/
def Dev.twinStored (d : Dev) (stores : List (Nat × List Byte)) : Dev :=
  { d with pwTwin := (stores.flatMap (fun x => unitsOf x.1 x.2.length 32768)).foldl (pwStored d.tick) d.pwTwin }

/-- WSTORE (R84, R397): the twin's window stores. -/
def doWstore (m : GMsg) (stores : List (Nat × List Byte)) (d : Dev) : Dev :=
  d.recv 0x14 m true (storeFs stores) (fun d => d.twinStored stores)
def execWstore (m : GMsg) (stores : List (Nat × List Byte)) (s : State) : Host.Outcome State Fault Refusal :=
  actWindow s (fun _ d => doWstore m stores d) (fun _ d => if d.recvOk 0x14 m true (storeFs stores) then stores else [])

/-! ### Cache pages (R396) -/

/-- Take the twin's used slots as it reports them into USED (R396). -/
def Dev.twinReports (d : Dev) (used : Nat) : Dev :=
  let old := d.twinUsed
  let d := if old ≤ used then d.takeSlots (used - old) else d.freeSlots (old - used)
  { d with twinUsed := used }

/-- The fields of GRANT and HEARTBEAT: pages handed over or the state, and the used slots. -/
def usedFs (x used : Nat) : Fields := [(4, x), (4, used)]

/-- Hand 256 free pages to a twin that holds fewer than 512 free ones while this unit holds more than 1,024. -/
def Dev.grantPages (d : Dev) : Dev :=
  let total := (32 - d.segs) * 4096
  let mine := d.fld Reg.TWN_PAGES 17 0
  let free := mine - ceilDiv d.ownUsed 15
  let twinFree := (total - mine) - ceilDiv d.twinUsed 15
  if d.twin = 3 ∧ twinFree < 512 ∧ 1024 < free then
    (d.setFld Reg.TWN_PAGES 17 0 (mine - 256)).sendGulon 0x15 (usedFs 256 d.ownUsed)
  else d

/-- Pages that the twin hands over, and its used slots. -/
def Dev.grantIn (d : Dev) (pages used : Nat) : Dev :=
  (d.setFld Reg.TWN_PAGES 17 0 (min ((32 - d.segs) * 4096) (d.fld Reg.TWN_PAGES 17 0 + pages))).twinReports used

/-- The twin's state and used slots: bits [3:0] of the state are the sender's pairing state, bit 4 its PTM lock (R228). -/
def Dev.heartbeatIn (d : Dev) (used peerState : Nat) : Dev :=
  ({ d with twinState := peerState % 16, twinPtm := peerState.testBit 4 }.twinReports used).grantPages

/-- GRANT. -/
def doGrant (m : GMsg) (pages used : Nat) (d : Dev) : Dev :=
  d.recv 0x15 m true (usedFs pages used) (fun d =>
    d.grantIn pages used)
def execGrant (m : GMsg) (pages used : Nat) (s : State) : Host.Outcome State Fault Refusal := act s (doGrant m pages used)

/-- HEARTBEAT. -/
def doHeartbeat (m : GMsg) (used peerState : Nat) (d : Dev) : Dev :=
  d.recv 0x40 m true (usedFs peerState used) (fun d => d.heartbeatIn used peerState)
def execHeartbeat (m : GMsg) (used peerState : Nat) (s : State) : Host.Outcome State Fault Refusal :=
  act s (doHeartbeat m used peerState)

/-- HEARTBEAT_SEND: 8 tricks have passed with nothing sent (R398), or a message applied since the last one sent awaits its ACK (R386). -/
def doHeartbeatSend (d : Dev) : Dev :=
  if d.twnStop || !(d.twin == 2 || d.twin == 3) || (decide (d.tick < d.gLastTx + 8 * 2048) && d.gRx == d.gSaid) then d
  else d.sendGulon 0x40 (usedFs (d.twin + 16 * d.ptmLocked.toNat + 32 * d.dumping.toNat) d.ownUsed)
def execHeartbeatSend (s : State) : Host.Outcome State Fault Refusal := act s doHeartbeatSend

/-! ### Remote operations (R394) -/

/-- REMOTE_OP: the operation is queued on a bridge this unit owns, and its outcome is returned. -/
def doRemoteOp (m : GMsg) (port opc die block page slice sgen qgen : Nat) (cls : Cls) (d : Dev) : Dev :=
  let p := port % 512
  d.recv 0x20 m true (remoteOpFs port opc die block page slice sgen qgen (clsNum cls)) (fun d =>
    if d.fld (Reg.FCH_P_STS p) 4 3 = 1 ∧ 1 ≤ opc ∧ opc ≤ 3 then
      d.addOp p { mkOp opc .host (clsNum cls) (slice % 1024) 0 0 0 (die % 64) (block % 4096) (page % 4096) false with forTwin := some m.mnum }
    else d.sendGulon 0x21 (remoteDoneFs m.mnum 1 []))
def execRemoteOp (m : GMsg) (port opc die block page slice sgen qgen : Nat) (cls : Cls) (s : State) : Host.Outcome State Fault Refusal :=
  act s (doRemoteOp m port opc die block page slice sgen qgen cls)

/-- The hard decodes of some codewords that REMOTE_DONE carries: 0 not decoded, else the count of corrected bits plus 1. -/
def remoteGot (cols : List Nat) (status : Nat) (data : List Nat) : List CwGot :=
  cols.map (fun c =>
    let x := if status = 0 then data.getD c 0 else 0
    { cw := c, ok := decide (0 < x), step := 0, e := x - 1, n01 := 0, n10 := 0, hd := decide (0 < x) })

/-- REMOTE_DONE: the operation that this unit sent under `id` has ended.  The ladder of a codeword that failed its hard decode there is not
climbed here: it goes to SHF (DEDUCED, log 227). -/
def doRemoteDone (m : GMsg) (id status : Nat) (data : List Nat) (d : Dev) : Dev :=
  d.recv 0x21 m true (remoteDoneFs id status data) (fun d =>
    match d.ports.findSome? (fun kv => (kv.2.ops.find? (fun o => o.sent == some id)).map (fun o => (kv.1, o))) with
    | none => d
    | some (p, o) =>
      if o.owner.any (fun w => !d.ownerLives w) then d.dropOp p o.tag
      else if o.opc = 0x01 then
        let o := { o with data := true, got := remoteGot o.cols status data }
        let d := (d.setPortOp p o).readTracked p o
        let d := if o.src = .reloc || o.owner.isSome then (o.got.filter (fun c => !c.ok)).foldl
          (fun d c => d.toShf p o.die o.block o.page o.band o.stripe o.pos c.cw) d else d
        d.readEnd p o
      else
        let d := d.dropOp p o.tag
        match o.opc == 0x02, status == 0 with
        | true, true => d.programOk p o
        | true, false => d.programBad o
        | false, true => d.eraseOk p o
        | false, false => d.eraseBad o)
def execRemoteDone (m : GMsg) (id status : Nat) (data : List Nat) (s : State) : Host.Outcome State Fault Refusal :=
  act s (doRemoteDone m id status data)

/-- The part of an erased codeword that this unit's sources contribute (R322, R394): the sum of their terms. -/
def Dev.partialSum (d : Dev) (band stripe col pos : Nat) : Nat :=
  let src := if d.cwErased band stripe pos col then d.survivors band stripe pos col else [pos]
  ((src.zip (solveTerms (src.map (fun j => roleOf j stripe)) (roleOf pos stripe))).filter (fun x =>
    d.fld (Reg.FCH_P_STS (d.setAtPos band x.1).port) 4 3 == 1)).foldl
      (fun a x => a ^^^ cwScale x.2.2 (d.cwHeld band stripe x.1 col)) 0

/-- PARTIAL: a request is answered with one sum for each erased codeword of the column; a reply is an input of the reconstruction that asked
for it. -/
def doPartial (m : GMsg) (request : Bool) (band stripe column : Nat) (sums : List Nat) (d : Dev) : Dev :=
  d.recv 0x22 m true (partialFs request band stripe column sums) (fun d =>
    if request then
      let lost := (List.range 19).filter (fun j => d.cwErased band stripe j column)
      d.sendGulon 0x22 (partialFs false band stripe column (lost.map (d.partialSum band stripe column)))
    else d)
def execPartial (m : GMsg) (request : Bool) (band stripe column : Nat) (sums : List Nat) (s : State) : Host.Outcome State Fault Refusal :=
  act s (doPartial m request band stripe column sums)

/-! ### Time exchanges (R229, R389) -/

/-- TIME_REQ: the leader answers with its arrival and departure stamps, in ps; it departs at the tick of the command (DESIGN CHOICE, log 258). -/
def doTimeReq (m : GMsg) (t1 t2 : Nat) (d : Dev) : Dev :=
  d.recv 0x30 m true [f64 t1] (fun d => if d.flag Reg.DLR_TIME_STS 4 then d.sendGulon 0x31 [f64 t1, f64 t2, f64 (1000 * d.tick)] else d)
def execTimeReq (m : GMsg) (t1 t2 : Nat) (s : State) : Host.Outcome State Fault Refusal := act s (doTimeReq m t1 t2)

/-- A completed exchange: the follower's offset, lock and correction.  The leader's uncertainty, to which the follower's figure
adds 1 (Table DLR-2), is not in the message: it is a free value. -/
def Dev.twinExchange (d : Dev) (t1 t2 t3 t4 : Int) : Dev :=
  if d.flag Reg.DLR_TIME_STS 4 || !d.flag Reg.DLR_TIME_CTL 1 then d
  else
    let d := d.capRec 0x29 1 [f64 t1, f64 t2, f64 t3, f64 t4]
    let ofs := ((t2 - t1) - (t4 - t3)) / 2
    let good := decide (ofs.natAbs ≤ 1000)
    let d : Dev := { d with exGood := if good then d.exGood + 1 else 0, exBad := if good then 0 else d.exBad + 1, exLast := d.tick }
    let d := d.setReg Reg.DLR_TWIN_OFS (wInt ofs)
    let d := d.score 14 ofs.natAbs none none none
    let d := d.correct (ofs.tdiv 1000)
    if 8 ≤ d.exGood then
      let fig := d.freeVal + 1
      let d' := d.drawn
      Dev.timeChange d (({ d' with leadCoarse := d'.freeVal % 2 == 1 }.drawn).timeLock fig)
    else if 3 ≤ d.exBad then d.loseTwinLock
    else d.timeUnc

/-- TIME_RSP (R229). -/
def doTimeRsp (m : GMsg) (t1 t2 t3 t4 : Int) (d : Dev) : Dev := d.recv 0x31 m true [f64 t1, f64 t2, f64 t3] (fun d => d.twinExchange t1 t2 t3 t4)
def execTimeRsp (m : GMsg) (t1 t2 t3 t4 : Int) (s : State) : Host.Outcome State Fault Refusal := act s (doTimeRsp m t1 t2 t3 t4)

/-! ### Slices (R401, R411) -/

/-- A slice comes to this unit in FROZEN, with its settings, generations and key contexts; its queue pairs are disabled.  One that was CLEARING goes
on clearing here, its contexts EMPTY (R561). -/
def Dev.adoptSlice (d : Dev) (x : MSlice) : Dev :=
  let s := x.slice % 1024
  let d := d.setSlice s { Slice.reset with
    st := if x.st = SliceSt.clearing.code then .clearing else .frozen, opBusy := x.st == SliceSt.clearing.code, pasid := x.pasid % 2 ^ 20, blks := x.blks, share := x.share, tshare := x.tshare, shareAct := x.share,
    tshareAct := x.tshare, trumpEn := x.trumpEn, qpMax := x.qpMax, pin := x.pin, hdrm := x.hdrm, sgen := x.sgen % 16,
    hdrmUsed := if d.health = 2 then x.hdrmUsed else 0,
    saveseq := (d.slice s).saveseq }
  let d := ((List.range 4).map (fun i => 4 * s + i)).foldl (fun (d : Dev) c => match d.twinCtxs.find c with
    | some k => (fun (d : Dev) => if x.st = SliceSt.clearing.code then d else d.loadCtx c k) { d with twinCtxs := SMap.erase d.twinCtxs c }
    | none => d) d
  { d with queues := d.queues.filter (fun (kv : Nat × Queue) => kv.1 / 16 != s), twinSlices := SMap.erase d.twinSlices s }.sliceSums

/-- A queue context that MOVE carries, as this unit holds it. -/
def mqueueOf (x : MQueue) : Queue :=
  { Queue.reset (x.qid % 16384) with
    en := x.en, ien := x.ien, coalN := x.coalN % 64, coalUs := x.coalUs % 256, vector := x.vector % 2 ^ 11, sqb := x.sqb % 2 ^ 64,
    cqb := x.cqb % 2 ^ 64, sqHead := x.sqHead % 2 ^ 16, sqTail := x.sqTail % 2 ^ 16, cqPosted := x.cqPosted % 2 ^ 16,
    cqHead := x.cqHead % 2 ^ 16, qgen := x.qgen % 16 }

/-- MOVE (R411): the slice comes FROZEN with its settings, its queue contexts and its key contexts. -/
def doMove (m : GMsg) (slice : MSlice) (queues : List MQueue) (ctxs : List MCtx) (d : Dev) : Dev :=
  d.recv 0x51 m true (moveFs slice queues ctxs) (fun d =>
    let d : Dev := { d with twinCtxs := ctxs.foldl (fun (t : SMap CtxCopy) x =>
      SMap.insert t (x.ctx % 4096) ((copyOfRec x).after (SMap.get (fun _ => CtxCopy.reset) t (x.ctx % 4096)))) d.twinCtxs }
    (queues.filter (fun x => x.qid % 16384 / 16 == slice.slice % 1024)).foldl
      (fun (d : Dev) x => d.setQueue (x.qid % 16384) (mqueueOf x)) (d.adoptSlice slice))
def execMove (m : GMsg) (slice : MSlice) (queues : List MQueue) (ctxs : List MCtx) (s : State) : Host.Outcome State Fault Refusal :=
  act s (doMove m slice queues ctxs)

/-- A queue context as MOVE carries it. -/
def Dev.mqueue (d : Dev) (q : Nat) : MQueue :=
  let x := d.queue q
  { qid := q, en := x.en, ien := x.ien, coalN := x.coalN, coalUs := x.coalUs, vector := x.vector, sqb := x.sqb, cqb := x.cqb, sqHead := x.sqHead,
    sqTail := x.sqTail, cqPosted := x.cqPosted, cqHead := x.cqHead, qgen := x.qgen }

/-- A slice leaves this unit (R409, R411): UNBOUND, with its queue contexts and its key contexts gone; one whose zeroise runs ends it here (R189). -/
def Dev.slip (d : Dev) (s : Nat) : Dev :=
  let d : Dev := { d with
    ctxs := d.ctxs.filter (fun (kv : Nat × Ctx) => kv.1 / 4 != s || kv.2.st == .zeroising)
    ctxStore := d.ctxStore.filter (fun (kv : Nat × CtxCopy) => kv.1 / 4 != s)
    queues := d.queues.filter (fun (kv : Nat × Queue) => kv.1 / 16 != s) }
  (d.setSlice s { d.slice s with st := .unbound, pinned := [] }).sliceSums

/-- TWN_SL_MOVE (R411): accepted for a FROZEN slice while PAIRED. -/
def doTwnSlMove (v : Word) (d : Dev) : Dev :=
  regWrite d Reg.TWN_SL_MOVE v (fun _ d =>
    let s := bits v 9 0
    if bits v 31 16 = 0x544E ∧ d.twin = 3 ∧ (d.slice s).st = .frozen then
      let copies := d.ctxStore.filter (fun kv => kv.1 / 4 == s)
      let d := d.sendGulon 0x51 (moveFs (d.mslice s) ((queuesOf s).map d.mqueue) (copies.map (fun kv => kv.2.mctx kv.1)))
      let d : Dev := { d with
        twinSlices := SMap.insert d.twinSlices s (d.mslice s)
        twinCtxs := copies.foldl (fun (m : SMap CtxCopy) kv => SMap.insert m kv.1 kv.2) d.twinCtxs }
      (d.slip s).raise 0xC01 4
    else d.recordErr 0xC01 0x0103 0x140 v.toNat)
def execTwnSlMove (v : Word) (s : State) : Host.Outcome State Fault Refusal := act s (doTwnSlMove v)

/-! ### SYNC (R409) -/

/-- SYNC: the joiner, which dropped its own cache and tables when it was keyed, takes the server's; a slice that the server's binding table gives to
the server is not bound here; the last message makes the units PAIRED. -/
def doSync (m : GMsg) (vers : List MVer) (b : JBatch) (fence : Nat) (windowBytes : List (Nat × List Byte)) (last : Bool) (d : Dev) : Dev :=
  d.recv 0x50 m last (syncFs vers b fence windowBytes) (fun d =>
    if d.twin ≠ 2 ∨ d.serves then d
    else
      let d := (d.mirrorVers vers).applyBatch b
      let d := b.slices.foldl (fun (d : Dev) x => if x.st ≠ 0 ∧ (d.slice (x.slice % 1024)).bound then d.slip (x.slice % 1024) else d) d
      let d := d.twinStored windowBytes
      if last then d.nowPaired fence else d)
def execSync (m : GMsg) (vers : List MVer) (b : JBatch) (fence : Nat) (windowBytes : List (Nat × List Byte)) (last : Bool) (s : State) :
    Host.Outcome State Fault Refusal :=
  actWindow s (fun _ d => doSync m vers b fence windowBytes last d)
    (fun _ d => if d.recvOk 0x50 m last (syncFs vers b fence windowBytes) && d.twin == 2 && !d.serves then windowBytes else [])

/-! ### Loss and takeover (R398 to R402, R441) -/

/-- Send the forced takes: OWN_TAKE with FORCE = 1 and FENCE + 1 to every bridge the twin owned; a bridge whose domain is ON
and whose lane is not ACTIVE is a member failure (R399). -/
def Dev.forceTakes (d : Dev) : Dev :=
  let theirs := (List.range 512).filter (fun p => d.fld (Reg.FCH_P_STS p) 4 3 == 2 || (!d.homeSide p && d.fld (Reg.FCH_P_STS p) 4 3 != 1))
  let live := theirs.filter (fun p => d.lstate p == 5)
  let dead := theirs.filter (fun p => d.lstate p != 5 && d.domSt (p / 8) == 0 && !(d.diesOf p).isEmpty)
  let d := live.foldl (fun (d : Dev) p => d.sendFresh p { opc := 0x08, args := (d.fence + 1) % 65536 + 2 ^ 16 } []) d
  let d := dead.foldl (fun (d : Dev) p => (d.setFlag (Reg.FCH_P_STS p) 8 false).portFail p 1 0) d
  let off := (List.range 64).filter (fun g => d.domSt g == 2 && g % 2 != d.side)
  let d := off.foldl (fun (d : Dev) g => d.setDom g { d.dom g with parked := true }) d
  { d with taking := true, takes := live }

/-- The loss is decided now. -/
def Dev.decideLoss (d : Dev) (atOnce : Bool) : Dev :=
  let d : Dev := { d with decided := some d.tick, decidedEp := d.epoch }
  if atOnce then d.forceTakes else d

/-- TWIN_LOSS_DECISION (R398, R399): MISS tricks without an authenticated message. -/
def doTwinLossDecision (d : Dev) : Dev :=
  if !d.paired || d.leaving || d.decided.isSome || d.twnStop || d.dumping || d.tick < d.gLastRx + bits d.hbCtl 15 0 * 2048 then d
  else d.decideLoss (d.side == 0)
def execTwinLossDecision (s : State) : Host.Outcome State Fault Refusal := act s doTwinLossDecision

/-- DUMPED (R441): the loss is decided at once, and the bridges are taken as R399 sets out. -/
def doDumped (m : GMsg) (d : Dev) : Dev := d.recv 0x42 m true [] (fun d => d.decideLoss (d.side == 0))
def execDumped (m : GMsg) (s : State) : Host.Outcome State Fault Refusal := act s (doDumped m)

/-- TAKE_DELAY_EXPIRE (R399): SIDE 1 probes its own bridges; another holder fences it, else it takes the twin's. -/
def doTakeDelayExpire (heldByOther : Bool) (d : Dev) : Dev :=
  match d.decided with
  | none => d
  | some t =>
    if d.side ≠ 1 ∨ d.taking ∨ d.tick < t + bits d.hbCtl 31 16 * 10000 ∨ d.twin = 5 then d
    else
      let d := ((List.range 512).filter (fun p => d.fld (Reg.FCH_P_STS p) 4 3 == 1)).foldl
        (fun (d : Dev) p => d.sendFresh p { opc := 0x08, args := d.fence } []) d
      if heldByOther then { d with decided := none }.fenced else d.forceTakes
def execTakeDelayExpire (heldByOther : Bool) (s : State) : Host.Outcome State Fault Refusal := act s (doTakeDelayExpire heldByOther)

/-- The twin is gone: what waited for it goes on with one copy, and its copies are this unit's. -/
def Dev.aloneNow (d : Dev) : Dev := d.takeTwins.singleNow

/-- The copies of contexts that the lost twin kept for slices it did not serve: they are this unit's, and one whose zeroise is journaled
is erased (R175, R189).  A context that this unit holds itself stays. -/
def Dev.ownCtxs (d : Dev) : Dev :=
  { d.twinCtxs.foldl (fun (d : Dev) kv => if (d.ctx kv.1).st = .empty ∧ (d.ctx kv.1).keygen ≤ kv.2.keygen then d.loadCtx kv.1 kv.2 else d) d with
    twinCtxs := [] }

/-- TWIN_TAKEOVER (R399, R401, R402): every take is answered. -/
def doTwinTakeover (d : Dev) : Dev :=
  match d.decided with
  | none => d
  | some t =>
    if !d.taking || !d.takes.isEmpty || d.twin == 5 then d
    else
      let d := (d.setTwin 4).setFld Reg.TWN_STS 31 16 (d.fence + 1)
      let d := d.aloneNow
      let lost := d.twinSlices.map Prod.snd
      let d := lost.foldl (fun (d : Dev) x =>
        (d.adoptSlice x).setFlag (Reg.TWN_MOVED (x.slice % 1024 / 32)) (x.slice % 32) true) d
      let d := d.ownCtxs
      let d := (d.set64 Reg.TWN_LOST_TICK_LO Reg.TWN_LOST_TICK_HI t).setFld Reg.TWN_LOST_EPOCH 15 0 d.decidedEp
      let d := (d.inc Reg.TWN_FAILOVERS 1).raise 0xC01 1
      { d with decided := none, taking := false }
def execTwinTakeover (s : State) : Host.Outcome State Fault Refusal := act s doTwinTakeover

/-! ### Leaving and waiting (R405, R407) -/

/-- LEAVE: this unit takes each released bridge with FORCE = 0 and FENCE + 1 and enters LEFT. -/
def doLeave (m : GMsg) (d : Dev) : Dev :=
  d.recv 0x41 m true [] (fun d =>
    let d := (d.setTwin 7).setFld Reg.TWN_STS 31 16 ((d.fence + 1) % 65536)
    (d.askTokens ((List.range 512).filter (fun p => d.fld (Reg.FCH_P_STS p) 4 3 != 1))).aloneNow)
def execLeave (m : GMsg) (s : State) : Host.Outcome State Fault Refusal := act s (doLeave m)

/-- TWIN_LEAVE: a write of TWN_CTL with LEAVE = 1 (R407): LEAVE goes out, and the bridges are released as they drain. -/
def doTwinLeave (v : Word) (d : Dev) : Dev :=
  regWrite d Reg.TWN_CTL v (fun new d =>
    if !(1 ≤ bits new 31 16 && bits new 31 16 ≤ 600) then d.recordErr 0xC01 0x0105 0x100 v.toNat
    else
      let rose := bitAt new 0 && !d.flag Reg.TWN_CTL 0
      if bitAt v 1 && (d.slices.any (fun kv => kv.2.bound) || d.twin != 3 || d.leaving) then d.recordErr 0xC01 0x0103 0x100 v.toNat
      else if !bitAt v 1 then
        let d := storeReg Reg.TWN_CTL new d
        if rose && d.released && d.canKey && d.mayPair then d.enterKeying else d
      else
        let d := storeReg Reg.TWN_CTL new d
        ({ d.sendGulon 0x41 [] with leaving := true }.handOver (List.range 512)).leaveEnd)
def execTwinLeave (v : Word) (s : State) : Host.Outcome State Fault Refusal := act s (doTwinLeave v)

/-- Ask the bridges this unit's list names for their token, as far as their lanes are ACTIVE (R405, R499). -/
def Dev.takeFree (d : Dev) (ports : List Nat) : Dev :=
  (ports.filter (fun p => d.lstate p == 5)).foldl (fun (d : Dev) p => d.sendFresh p { opc := 0x08, args := d.fence } []) d

/-- PAIR_WAIT_EXPIRE (R405): at bring-up step 9 the unit goes on single-copy, unless the twin holds bridges; it takes every
bridge that is free. -/
def doPairWaitExpire (d : Dev) : Dev :=
  if d.fld Reg.GLB_DEV_STS 7 4 ≠ 9 ∨ d.paired ∨
      (d.flag Reg.TWN_CTL 0 ∧ d.tick < d.pairStart + d.fld Reg.TWN_CTL 31 16 * 1000000000) then d
  else
    let held := ((List.range 512).filter (fun p => d.fld (Reg.FCH_P_STS p) 4 3 == 2)).length
    if 0 < held then d.recordErr 0xC01 0x0104 held 0
    else (d.setSingle true).takeFree ((List.range 512).filter (fun p => d.fld (Reg.FCH_P_STS p) 4 3 == 0))
def execPairWaitExpire (s : State) : Host.Outcome State Fault Refusal := act s doPairWaitExpire

end Sys2Proof.Machine
end

