-- ==== Sys2Proof/Machine/Bring.lean ====
section
/-! DEFINITION. Bring-up (chapter 17): what a COLD reset, a power-up and a WARM reset leave, the time across them, the steps
of Table BRG-1, and where they stop. -/

namespace Sys2Proof.Machine

/-! ### Time across a stop (R231 to R234, R564) -/

/-- The always-on 32.768 kHz counter. -/
def Dev.ao (d : Dev) : Nat := d.get64 Reg.PWR_AO_LO Reg.PWR_AO_HI

/-- The time as R231 saves it. -/
def Dev.timeNow (d : Dev) : Nat × Nat × Nat × Nat := (d.tick, d.ao, d.epoch, d.uncNow)

/-- Save the time to trivet bank 1. -/
def Dev.saveTime (d : Dev) : Dev := { d with timeSave := some d.timeNow, saveDue := false }

/-- Start the count at a value: a new EPOCH, written to the NVM configuration record as well (R234, R564), COARSE = 1, no lock, nothing
left to correct (R227, R233), this unit leading while the Gulon link is down (Table DLR-1). -/
def Dev.startTime (d : Dev) (t e u : Nat) : Dev :=
  let d : Dev := { d with
    tick := t, stepPend := none, lossAt := none, timeFig := 0, timePre := u, exGood := 0, exBad := 0, exLast := t, slewDone := false
    leadCoarse := false, scrStart := t, sramStart := t, svStart := t, nvm := { d.nvm with epoch := e % 65536 } }
  let d := (d.setReg Reg.DLR_TIME_STS (w32 (24 + 2 ^ 16 * (e % 65536)))).setReg Reg.DLR_SLEW_LEFT 0
  (d.setReg Reg.GLB_TIME_UNC (w32 u)).timeRec 0

/-- The count starts at 0 (R234), and with it the running ECC_DAY. -/
def Dev.timeFresh (d : Dev) : Dev := { d with dayTick := 0 }.startTime 0 (d.nvm.epoch + 1) 0xFFFFFFFF

/-- The time as the 32.768 kHz edge that comes next saves it. -/
def Dev.timeAtEdge (d : Dev) : Nat × Nat × Nat × Nat := (d.tick, (d.ao + 1) % 2 ^ 48, d.epoch, d.uncNow)

/-- The count is reloaded from the last save at the first 32.768 kHz edge that comes (R232, R233; log 223): `ppm` is XTAL_PPM. -/
def Dev.timeReload (d : Dev) (ppm : Nat) : Dev :=
  let s := if d.saveDue then d.timeAtEdge else d.timeSave.getD d.timeAtEdge
  let ao := (d.ao + 1 + 2 ^ 48 - s.2.1) % 2 ^ 48
  let elapsed := ao * 1000000000 / 32768
  let u := satN 32 (s.2.2.2 + 31000 + ceilDiv (elapsed * ppm) 1000000)
  let d := (d.set64 Reg.DLR_SLEEP_T_LO Reg.DLR_SLEEP_T_HI s.1).set64 Reg.DLR_SLEEP_AO_LO Reg.DLR_SLEEP_AO_HI ao
  { d with timeSave := none, saveDue := false }.startTime (s.1 + elapsed) (s.2.2.1 + 1) u

/-! ### What a COLD reset and a power-up leave (Table REG-7, R501, R561) -/

/-- The class of the stop before bring-up (R497): 0 CLEAN, 1 DUMPED, 2 INCOMPLETE, 3 CUT. -/
def NvmRec.stopOf (n : NvmRec) : Nat :=
  match n.clean, n.dumpStart, n.dumpDone with
  | true, _, _ => 0
  | _, none, _ => 3
  | _, some a, some b => if a = b then 1 else 2
  | _, some _, none => 2

/-- Registers that hold their value: those whose reset column says so, the always-on island's while VAO is present, and those
whose content the journal, the NVM record or the bridges bring back. -/
def keptCold (vao : Bool) (off : Nat) : Bool :=
  let w := off / 0x100000
  (match regDef? off with | some r => r.kept | none => false) ||
  (!vao && (w == 0xD || w == 0x10 || w == 0xE || off == Reg.GLB_RST_STS)) ||
  off == Reg.HIF_PWIN_CTL || (0x101110 ≤ off && off < 0x102000) || w == 0x1 && 0x102100 ≤ off ||
  off == Reg.SHF_SEED || off == Reg.MAP_BANDS_FMT || off == Reg.MAP_CLOG_LO || off == Reg.MAP_CLOG_HI || off == Reg.MAP_RETIRED ||
  off == Reg.ECC_QUAL_FAIL || off == Reg.TWN_LANE_FAIL ||
  (0x800000 ≤ off && off < 0xA00000 && 0x104 ≤ off % 0x1000 && off % 0x1000 < 0x11C) || (0x800840 ≤ off && off < 0x800880)

/-- The registers after the reset: failure marks of a port, FENCE and the health level are journaled; the NVM record holds the shelf key
(R390). -/
def Dev.coldRegs (d : Dev) (vao : Bool) : SMap Word :=
  d.regs.filterMap (fun (kv : Nat × Word) =>
    if keptCold vao kv.1 then some kv
    else
      let m : Word := if 0x800000 ≤ kv.1 ∧ kv.1 < 0xA00000 ∧ kv.1 % 0x1000 = 0x100 then 0x180
        else if kv.1 = Reg.TWN_STS then 0xFFFF0000 else if kv.1 = Reg.TWN_PAIRKEY_STS then 2 else if kv.1 = Reg.GLB_DEV_STS then 0x300 else 0
      if kv.2 &&& m = 0 then none else some (kv.1, kv.2 &&& m))

/-- One version of the stopped cache as the stop leaves it (R24): an acknowledged one as it is; of any other each written block holds its new
content or the old, which one being a free value. -/
def Dev.verAfter (d : Dev) (v : Ver) (n : Nat) : Dev :=
  let news := v.wrote.filter (fun k => n.testBit k)
  if v.posted then { d with cache := d.cache ++ [v] }
  else if news.isEmpty then d
  else
    let blks := (List.range 8).map (fun k => (k, ((if news.contains k then v.blks.find k else none).getD (d.blkNow v.slice (8 * v.granule + k)))))
    { d with cache := d.cache ++ [{ v with blks := blks, wrote := news, src := [], posted := true, stage := .single, loc := none }] }

/-- A granule of an unacknowledged DISCARD: its change stands or not (R24). -/
def Dev.unmapAfter (d : Dev) (x : MapChg) (n : Nat) : Dev := if x.owner.isSome && n.testBit 0 then d.applyEnt x else d

/-- A slice after the stop (R561, R567). -/
def Slice.afterStop (x : Slice) : Slice :=
  { x with st := if x.st = .freezing then .frozen else if x.st = .resetting then .active else x.st,
           opBusy := x.st == .clearing, opErr := false, cutWaits := false, inflight := 0, pinned := [], ended := [],
           blksStage := none, blksPend := none, shareAct := x.share, tshareAct := x.tshare, pendShare := false }

/-- HIF_I3C_CTL at reset: STATIC_ADDR is 0x3A plus SIDE (R94). -/
def Dev.setI3c (d : Dev) : Dev := d.setReg Reg.HIF_I3C_CTL (w32 (0xBA + d.side))

/-- The device after everything but the always-on island (and, with VAO lost, that too) is reset: what the journal, the NVM
record, the bridges and the dump bring back, everything else at its reset value. -/
def Dev.coldState (d : Dev) (vao : Bool) : Dev :=
  let kept : Dev := { Dev.reset with
    regs := d.coldRegs vao, published := d.published.filter (fun (kv : Nat × Word) => keptCold vao (canonOff kv.1))
    pages := (d.pages.filter (fun (kv : Nat × Page) => !vao && (0xD00 ≤ kv.1 && kv.1 ≤ 0xD02 || kv.1 == 0xEFF || kv.1 == 0x1000))).map
      (fun (kv : Nat × Page) => (kv.1, { kv.2 with unlocked := false }))
    out := d.out, tick := d.tick, draws := d.draws, bifNow := d.nvm.bifCfg, shutState := d.shutState, ideUsed := d.ideUsed, events := d.events
    pwDirty := d.pwDirty.map (fun (kv : Nat × PwGran) => (kv.1, { kv.2 with copying := false, again := none }))
    pwPoison := d.pwPoison, pwDead := d.pwDead, pwCured := d.pwCured, fetchNo := d.fetchNo
    slices := d.slices.map (fun (kv : Nat × Slice) => (kv.1, kv.2.afterStop))
    map := d.map, resident := d.dirtyAll, dirty := d.dirtyAll, lost := d.lost, dlog := d.dlog, dlogRing := d.dlogRing, dlogBad := d.dlogBad, closeSeq := d.closeSeq
    metaAt := d.metaAt
    bands := d.bands, flash := d.flash, elog := d.elog, incidents := d.incidents, redNo := d.redNo, trk := d.trk, fresh := d.fresh
    coldNow := d.coldNow, coldPrev := d.coldPrev, svMoved := d.svMoved
    rfshDays := d.rfshDays, dayTick := d.dayTick, spareUsed := d.spareUsed, rbUsed := d.rbUsed
    doms := (d.doms.map (fun (kv : Nat × Dom) => (kv.1,
      { Dom.reset with floor := kv.2.floor, tRet := kv.2.tRet, tOff := kv.2.tOff, wakes := kv.2.wakes, wakeMax := kv.2.wakeMax }))).filter
      (fun (kv : Nat × Dom) => !vao && kv.2 != Dom.reset)
    bridges := d.bridges, bmDirty := d.bmDirty, bmLogs := d.bmLogs, rbQueue := d.rbQueue, nvm := d.nvm, dumpAt := d.dumpAt, dumpSrc := d.dumpSrc
    stayDown := d.stayDown && !vao, exhausted := d.exhausted, conds := d.conds, levelTick := d.levelTick, levelEpoch := d.levelEpoch
    peDays := d.peDays, fmtDays := d.fmtDays, spareFmt := d.spareFmt, fmtOut := d.fmtOut, rebuildFmt := d.rebuildFmt, hbmLog := d.hbmLog
    hbmRetired := d.hbmRetired, hbmBare := d.hbmBare, remapped := d.remapped, endur := d.endur, nSec := d.nSec
    enMain := d.enMain, pgMain := d.pgMain, aoUp := d.aoUp, bring := d.bring, timeSave := d.timeSave, saveDue := d.saveDue
    wakeHeld := d.wakeHeld, dpar := d.dpar, dacc := d.dacc
    twinSlices := d.twinSlices, twinCtxs := d.twinCtxs, shelf := d.shelf, gTx := d.gTx, gRx := d.gRx
    nHost := if vao then NPort.reset else d.nHost, nFirm := if vao then NPort.reset else d.nFirm
    nRun := if vao then none else d.nRun, nSus := if vao then none else d.nSus
    cap := { Cap.reset with gap := if d.flag Reg.SCP_CAP_STS 0 then 2 else d.cap.gap, bands := d.cap.bands, segs := d.cap.segs } }
  kept.setI3c

/-- This unit's copy of what the twin owned is among what it restores (R402). -/
def Dev.mergeTwin (d : Dev) : Dev :=
  { d with
    cache := d.cache ++ d.twinVers
    pwDirty := d.pwTwin.foldl (fun (m : SMap PwGran) kv => if (m.find kv.1).isSome then m else SMap.insert m kv.1 kv.2) d.pwDirty
    bmDirty := d.twinRegions.foldl insertSorted d.bmDirty }

/-- The dirty regions as a bring-up finds them (R349): of the consistent copies that it can reach, the HBM one after a dump and the flash logs
whose port serves, the one with the lowest sequence. -/
def Dev.bmFound (d : Dev) (cls : Nat) : List Nat :=
  let logs := (d.bmLogsOn.filter (fun n => !d.portGone (d.fld (Reg.SHF_BM_PORT n) 8 0) && (d.bmLog n).consistent)).map
    (fun n => ((d.bmLog n).seq, (d.bmLog n).dirty))
  match (if cls ≤ 1 then [(d.bmSeq, d.bmDirty)] else []) ++ logs with
  | [] => d.bmDirty
  | c :: cs => (cs.foldl (fun m x => if x.1 < m.1 then x else m) c).2

/-- A version after the stop: destaged again from the start. -/
def Ver.restart (v : Ver) : Ver := { v with loc := none, stage := if v.stage = .mirrored then .mirrored else .single }

/-- What survives of the cache and the window in each class of stop (R24, R438, R497, R503): everything that was dirty at a CLEAN or
DUMPED stop, the oldest part at an INCOMPLETE one, how much being a free value, and nothing at a CUT.  The copy of a write-back that has not committed goes: its granule is dirty still, and
is written back anew (R80). -/
def Dev.restoreCache (old d : Dev) (cls : Nat) : Dev :=
  let d := old.cache.foldl (fun (d : Dev) v => if v.pwin then d.drawn else (d.verAfter v d.freeVal).drawn) { d with cache := [] }
  let d := old.mapPend.foldl (fun (d : Dev) x => (d.unmapAfter x d.freeVal).drawn) d
  let all := d.cache
  let cut := decide (2 ≤ cls) && !old.restored
  let keepV := if cut then (if cls = 2 then d.freeVal % (all.length + 1) else 0) else all.length
  let keepW := if cut then (if cls = 2 then d.drawn.freeVal % (d.pwDirty.length + 1) else 0) else d.pwDirty.length
  let vers := all.take keepV
  let own (l : List Ver) : Nat := (l.filter (fun v => !v.pwin)).length
  let d : Dev := { d.drawn.drawn with
    cache := vers.map Ver.restart, pwDirty := d.pwDirty.take keepW
    lostSlots := old.lostSlots + (if cls = 2 then 8 * (own all - own vers) else 0), restored := true, counted := old.counted }
  (d.setFld Reg.STK_PWC_USED 20 0 (8 * own vers)).pwCount

/-- The window granules that a stop of this class loses: their bytes are free values. -/
def Dev.lostGranules (d : Dev) (cls : Nat) : List Nat :=
  let m := d.mergeTwin
  if cls < 2 ∨ d.restored then []
  else
    let keep := if cls = 2 then Config.free (d.draws + m.cache.length + m.mapPend.length + 1) % (m.pwDirty.length + 1) else 0
    (m.pwDirty.drop keep).map Prod.fst

/-- The bytes that a stop leaves in a lost window granule. -/
def lostBytes (seed g : Nat) : Nat × List Byte :=
  (g * 32768, (List.range 32768).map (fun i => BitVec.ofNat 8 (Config.free (2 ^ 80 * (seed + 1) + g * 32768 + i))))

/-- Adjust slice heads to the configuration in force (R98): error 0x0105 for the first byte adjusted. -/
def Dev.adjustHeads (d : Dev) : Dev :=
  let d := match (List.range 1024).find? (fun s => d.headFit (d.headByte s) != d.headByte s) with
    | some s => d.recordErr 0x102 0x0105 s (d.headByte s)
    | none => d
  (List.range 1024).foldl (fun (d : Dev) s =>
    if d.headFit (d.headByte s) = d.headByte s then d
    else d.setFld (Reg.HIF_SLICE_HEAD (s / 4)) (8 * (s % 4) + 7) (8 * (s % 4)) (d.headFit (d.headByte s))) d

/-- The open bands end at their last verified stripe, and the erases under way go on (R204, R205, R222), those of rebuild sets not in use too. -/
def Dev.restoreBands (d : Dev) : Dev :=
  let d := (d.bands.map Prod.fst).foldl (fun (d : Dev) b => d.closeBand b) d
  let d : Dev := { d with dpar := [], dacc := [] }
  let d := (d.rbUsed.filter (fun k => !d.bands.any (fun kv => kv.2.sets.any (fun s => s.repl && s.port * 2 ^ 18 + s.die * 2 ^ 12 + s.block == k)))).foldl
    (fun (d : Dev) k => d.releaseSet 0 0 { port := k / 2 ^ 18, die := k / 2 ^ 12 % 64, block := k % 2 ^ 12, repl := false, erased := false, prog := 0, old := 0 }) d
  ((d.bands.filter (fun (kv : Nat × Band) => kv.2.st == .erasing)).map Prod.fst).foldl (fun (d : Dev) b =>
    let x := d.band b
    (((List.range 19).zip (d.setsOf b)).filter (fun js => !x.erasedSets.contains js.1 && !d.dieGone js.2.port js.2.die)).foldl
      (fun (d : Dev) js => d.addOp js.2.port (mkOp 0x03 .erase 3 0 b 0 js.1 js.2.die js.2.block 0 x.slc)) d) d

/-- Recompute the registers that count what the state holds. -/
def Dev.recount (d : Dev) : Dev :=
  let d := (d.setFld Reg.MAP_DLOG_USED 21 0 (d.dlog * 16 / 1024)).setFld Reg.MAP_CACHE_DIRTY 20 0 d.dirty.length
  let d := (d.resizeCache d.segs).revalid
  let d := (d.respace.kitty.rbCounts.peCounts).fchCounts.diesCount
  let d := (d.sliceSums.bmCount).crCounts
  let d := (d.setFld Reg.SCP_INC_STS 12 0 d.incidents.length).setFlag Reg.SCP_INC_STS 13 (d.incidents.length == 4096)
  d.setFlag Reg.STK_PWC_STS 0 (decide (0 < d.usedSlots) && decide (d.thr ≤ d.usedSlots))

/-- The bands that the journal shows OPEN. -/
def Dev.openBands (d : Dev) : List Nat :=
  (d.bands.filter (fun kv => kv.2.st == .openSlc || kv.2.st == .openQlc || kv.2.st == .openMeta)).map Prod.fst

/-- Everything but the always-on island is reset, and the shelf's state is found again (R490, R497, R501); with VAO lost the
always-on island is reset too, and the count starts anew, as it does when the CRC of the time save fails (R564).  `cls` is the class of
the stop. -/
def Dev.coldInit (d : Dev) (vao crcBad : Bool) (cls : Nat) : Dev :=
  let ppm := d.fld Reg.DLR_TIME_CTL 15 8
  let d := { d with bmDirty := d.bmFound cls }.mergeTwin
  let old := if cls = 3 then { d with incidents := d.incidents.filter (fun e => e.journaled) } else d
  let d := { old.coldState vao with resync := d.bmDirty.foldl (fun m r => SMap.insert m r 0) [], scanBands := if 2 ≤ cls then d.openBands else [] }
  let d := old.restoreCache d cls
  let d := old.ctxStore.foldl (fun (d : Dev) kv => d.loadCtx kv.1 kv.2) d
  let d := d.restoreBands.recount.adjustHeads
  if vao || crcBad then { d with timeSave := none, saveDue := false }.timeFresh else d.timeReload ppm

/-! ### The steps of Table BRG-1 -/

/-- GLB_DEV_STS.STAGE. -/
def Dev.stage (d : Dev) : Nat := d.fld Reg.GLB_DEV_STS 7 4

/-- A step begins. -/
def Dev.setStage (d : Dev) (n : Nat) : Dev := (d.setFld Reg.GLB_DEV_STS 7 4 n).setFld Reg.TST_BRG_STS 3 0 n

/-- Milliseconds since t0. -/
def Dev.msNow (d : Dev) : Nat := satN 24 ((d.tick - d.t0) / 1000000)

/-- A step ends (TST_STAGE_MS). -/
def Dev.stageEnd (d : Dev) (n : Nat) : Dev := d.setFld (Reg.TST_STAGE_MS (n - 1)) 23 0 d.msNow

/-- Bring-up stops (R491): STOPPED, error 0x0103, the step as the health report. -/
def Dev.stopBring (d : Dev) (step code : Nat) : Dev :=
  ((d.setFlag Reg.TST_BRG_STS 6 true).recordErr 0x1000 0x0103 step code).emit (.stopReport step)

/-- Bring-up has stopped. -/
def Dev.stopped (d : Dev) : Bool := d.flag Reg.TST_BRG_STS 6

/-- A bring-up begins (R505): the TST registers of the last one are cleared; RELEASED and READY fall; BAR0 does not decode. -/
def Dev.beginBring (d : Dev) (start cls : Nat) : Dev :=
  let d : Dev := { d with regs := d.regs.filter (fun (kv : Nat × Word) => kv.1 / 0x1000 != 0x1000 || kv.1 == Reg.TST_TAP_STS), pins := [], t0 := d.tick, resetRun := true }
  let d := (d.setFlag Reg.GLB_DEV_STS 0 false).setReg Reg.TST_BRG_CAUSE (w32 (start + 8 * cls))
  d

/-- An interconnect fault of step 3. -/
def Dev.bistErr (d : Dev) (row unit : Nat) : Dev := d.recordErr 0x1000 0x0101 row unit

/-- A checker failure of step 5. -/
def Dev.chkErr (d : Dev) (row unit : Nat) : Dev := d.recordErr 0x1000 0x0102 row unit

/-- Step 2 (R492): the secrets are cleared; the item that does not read back zero, 1 to 4, stops bring-up. -/
def Dev.step2 (d : Dev) (r : BringUp) : Dev :=
  let d := d.setStage 2
  let d : Dev := { d with kek := none, pairKey := none, xbufShown := false, cap := { d.cap with key := none } }
  if 1 ≤ r.clearFail ∧ r.clearFail ≤ 4 then
    let done := (List.range 4).filter (fun i => i + 1 != r.clearFail)
    let d := d.setReg Reg.TST_SEC_STS (w32 (done.foldl (fun a i => a + 2 ^ (i + 1)) 0))
    (d.recordErr 0x1000 0x0100 r.clearFail 0).stopBring 2 0x0100
  else (d.setReg Reg.TST_SEC_STS 0x1F).stageEnd 2

/-- Step 3 (Table BRG-2): every domain ON, each port trained and tested; what fails leaves service. -/
def Dev.step3 (d : Dev) (r : BringUp) : Dev :=
  let d := d.setStage 3
  let d := (List.range 64).foldl (fun (d : Dev) g => d.setDomSt g 0) d
  let d := r.pinFaults.foldl (fun (d : Dev) p => d.bistErr 1 (p.1 % 4096)) d
  let d : Dev := { d with pins := r.pinFaults.map (fun p => (p.1 % 4096, p.2 % 16)) }
  let d := d.setFld Reg.TST_PIN_RES 31 16 d.pins.length
  let d := d.setReg Reg.TST_HOSTLANE (w32 r.hostLanes)
  let lanes := (List.range 32).filter (fun l => r.hostLanes.testBit l)
  let d := lanes.foldl (fun (d : Dev) l => d.bistErr 2 l) d
  let idle := (List.range 4).filter (fun h => d.headExists h && lanes.any (fun l => l / 16 == h / 2 &&
    (!d.bifNow.testBit (h / 2) || l % 16 / 8 == h % 2)))
  let gul := (List.range 18).filter (fun l => r.gulonLanes.contains l)
  let d := gul.foldl (fun (d : Dev) l => (d.setFlag Reg.TWN_LANE_FAIL l true).bistErr 5 l) d
  let ports := (List.range 512).filter (fun p => r.flashPorts.contains p)
  let d := ports.foldl (fun (d : Dev) p => ((d.setFlag (Reg.TST_FPORT_FAIL (p / 32)) (p % 32) true).bistErr 4 p)) d
  let d := (ports.filter (fun p => !d.flag (Reg.FCH_P_STS p) 7)).foldl (fun (d : Dev) p => d.portFail p 1 0) d
  let bads := (List.range 4).filter (fun k => r.hbmStacks.contains k)
  let d := bads.foldl (fun (d : Dev) k => d.bistErr 3 k) d
  let mask (l : List Nat) : Nat := l.foldl (fun a i => a + 2 ^ i) 0
  let d := d.setReg Reg.TST_BIST_STS (w32 (ports.length + 2 ^ 10 * gul.length + 2 ^ 15 * mask ((List.range 4).filter (fun k => r.hbmRepaired.getD k 0 != 0)) + 2 ^ 19 * mask bads + 2 ^ 23 * mask idle))
  let good := (List.range 512).filter (fun p => !d.flag (Reg.FCH_P_STS p) 7)
  let d := good.foldl (fun (d : Dev) p => (d.setPort p ((d.port p).linkReset d.tick)).setLstate p 4) d
  let d := ((List.range 512).filter (fun p => d.flag (Reg.FCH_P_STS p) 7)).foldl (fun (d : Dev) p => d.setLstate p 7) d
  (d.stageEnd 3).setStage 4 |>.stageEnd 4

/-- Step 5 (Table BRG-3): a unit whose checker fails leaves service; an array or a MAP checker stops bring-up. -/
def Dev.step5 (d : Dev) (r : BringUp) : Dev :=
  let d := d.setStage 5
  let hd := r.hardDecoders.filter (fun x => x.1 < 64 && x.2 < 9)
  let d := hd.foldl (fun (d : Dev) x => (d.decoderOut x.1 x.2).chkErr 1 (x.1 * 9 + x.2)) d
  let wk := (List.range 104).filter (fun w => r.whisks.contains w)
  let d := wk.foldl (fun (d : Dev) w => (d.whiskOut w 1).chkErr 1 (576 + w)) d
  let cl := (List.range 16).filter (fun l => r.cryLanes.contains l)
  let d := cl.foldl (fun (d : Dev) l => (doLaneFail l true d).chkErr 2 l) d
  let ld := (List.range 128).filter (fun n => r.ladles.contains n)
  let d := ld.foldl (fun (d : Dev) n =>
    ((((d.setFlag (Reg.STK_LADLE_OUT (n / 32)) (n % 32) true).setFld Reg.STK_LADLE_STS 7 0 (d.fld Reg.STK_LADLE_STS 7 0 - 1)).recordErr
      0x602 0x0103 n (n + 1)).raise 0x602 3).chkErr 6 n) d
  let dl := (List.range 512).filter (fun p => r.dealerPorts.contains p)
  let d := dl.foldl (fun (d : Dev) p => (d.setPage (0x800 + p) { d.page (0x800 + p) with en := false }).chkErr 8 p) d
  let d := d.setReg Reg.TST_CHK_STS (w32 (hd.length + 2 ^ 10 * wk.length + 2 ^ 17 * cl.length + 2 ^ 22 * min 255 ld.length +
    2 ^ 30 * r.badMapCheck.isSome.toNat + 2 ^ 31 * r.badArray.isSome.toNat))
  match r.badArray, r.badMapCheck with
  | some a, _ => ((d.setFld Reg.TST_CHK_ARR 12 0 a).chkErr 3 (a % 5120)).stopBring 5 0x0102
  | none, some m => (d.chkErr 7 m).stopBring 5 0x0102
  | none, none => d.stageEnd 5

/-- An image runs from a slot; `trial` marks a trial boot. -/
def Dev.runImage (d : Dev) (m : Memory) (slot : Nat) (trial : Bool) : Dev :=
  let d := (d.setFlag Reg.NVM_BOOT_STS 1 (slot == 1)).setFlag Reg.NVM_BOOT_STS 2 trial
  { d.setReg Reg.NVM_IMG_VER (w32 (imgField m slot 0x008 4)) with nvm := { d.nvm with svn := imgField m slot 0x010 4 } }.nvmSts

/-- The boot loader checks a slot's image (R458): a failing test is reported in CHECK, the first one of a bring-up, and an uncorrectable page is
counted and recorded as one read from the firmware port (R455). -/
def Dev.bootCheck (d : Dev) (m : Memory) (r : BringUp) (s : Nat) : Nat × Dev :=
  let n := imageCheck m s (d.fld Reg.NVM_SVN_MIN 31 0) r.imageUnc r.imageSig
  let d := if d.fld Reg.NVM_BOOT_STS 10 8 = 0 then d.setFld Reg.NVM_BOOT_STS 10 8 n else d
  (n, if n = 6 then (d.inc Reg.NVM_UNC_CNT 1).nErr 0x0103 ((r.imageUnc.find? (fun p => imgUnc m s [p])).getD 0) 1 else d)

/-- A fallback at boot raises BOOT. -/
def Dev.bootFallback (d : Dev) : Dev := (d.setFlag Reg.NVM_BOOT_STS 4 true).raise 0xEFF 3

/-- `boot` of R458 without a trial: the active slot's image, else the other's. -/
def Dev.bootActive (d : Dev) (m : Memory) (r : BringUp) : Dev :=
  let a := d.activeSlot
  let x := d.bootCheck m r a
  if x.1 = 0 then (x.2.runImage m a false).stageEnd 6
  else
    let y := x.2.bootCheck m r (1 - a)
    if y.1 = 0 then (((y.2.setFlag Reg.NVM_BOOT_STS 0 (1 - a == 1)).bootFallback).runImage m (1 - a) false).stageEnd 6
    else (y.2.nErr 0x0109 (if a = 0 then x.1 else y.1) (if a = 0 then y.1 else x.1)).stopBring 6 0x0109

/-- Step 6 (R458): a pending try is taken first. -/
def Dev.step6 (d : Dev) (m : Memory) (r : BringUp) : Dev :=
  let d := d.setStage 6
  let d := (d.setFld Reg.NVM_BOOT_STS 10 8 0).setFlag Reg.NVM_BOOT_STS 4 false
  if d.flag Reg.NVM_BOOT_STS 3 then
    let x := (d.setFlag Reg.NVM_BOOT_STS 3 false).bootCheck m r (1 - d.activeSlot)
    if x.1 = 0 then (x.2.runImage m (1 - d.activeSlot) true).stageEnd 6 else x.2.bootFallback.bootActive m r
  else d.bootActive m r

/-- Step 7 (R353): a stack that fails training stops bring-up. -/
def Dev.step7 (d : Dev) (r : BringUp) : Dev :=
  let d := d.setStage 7
  let bad := (List.range 4).filter (fun k => r.hbmStacks.contains k)
  let mask := bad.foldl (fun a i => a + 2 ^ i) 0
  let rep := satN 8 (sumL (r.hbmRepaired.take 4))
  let d := d.setReg Reg.STK_HBM_STS (w32 ((15 - mask) + 16 * mask + 2 ^ 8 * rep))
  match bad with
  | [] => d.stageEnd 7
  | k :: ks => ((k :: ks).foldl (fun (d : Dev) i => d.recordErr 0x600 0x0100 i (r.hbmRepaired.getD i 0)) d).stopBring 7 0x0100

/-- Step 8 begins (R439, R497, R498): without a journal it stops; an incomplete dump is counted and reported.  The rest of the step
ends at RELEASE. -/
def Dev.step8 (d : Dev) (r : BringUp) : Dev :=
  let d := d.setStage 8
  if !r.journalFound then (d.recordErr 0x1000 0x0106 r.anchors 0).stopBring 8 0x0106
  else
    let cls := d.fld Reg.TST_BRG_CAUSE 5 3
    let d : Dev := { d with scanPend := decide (2 ≤ cls) }
    if cls ≠ 2 ∨ d.fld Reg.TST_BRG_CAUSE 2 0 = 3 then d
    else
      let d := (if d.counted then d else { d.inc Reg.HIF_DIRTY_SHUT 1 with counted := true }).setFlag Reg.PWR_FAIL_STS 4 true
      (d.recordErr 0xD02 0x0104 (d.fld Reg.PWR_DUMP_SEQ 31 0) (d.fld Reg.PWR_DUMP_MIB 15 0)).raise 0xD02 4

/-- Run a step unless bring-up has stopped. -/
def Dev.unlessStopped (d : Dev) (f : Dev → Dev) : Dev := if d.stopped then d else f d

/-- Steps 6 to 8. -/
def Dev.bringFrom6 (d : Dev) (m : Memory) (r : BringUp) : Dev :=
  (((d.step6 m r).unlessStopped (fun d => d.step7 r)).unlessStopped (fun d => d.step8 r))

/-- Steps 2 to 8, after the main rails are up. -/
def Dev.bringFrom2 (d : Dev) (m : Memory) (r : BringUp) : Dev :=
  (((d.step2 r).unlessStopped (fun d => d.step3 r)).unlessStopped (fun d => d.step5 r)).unlessStopped (fun d => d.bringFrom6 m r)

/-- Every head goes down (Table HIF-3). -/
def Dev.headsDown (d : Dev) : Dev := [0, 1, 2, 3].foldl (fun (d : Dev) h => d.takeHeadDown h) d

/-- EN_MAIN driven high or low (R426, R440). -/
def Dev.setEnMain (d : Dev) (b : Bool) : Dev :=
  let d := if d.enMain = b then d else d.emit (.ballLevel "EN_MAIN" b)
  if b then { d with enMain := true } else { d.headsDown with enMain := false, pgMain := false }

/-- The VCORE target takes a value that the monitors choose, from 0.70 to 0.80 V in 5 mV steps (R427): a free value; its VID frame
is sent (R531). -/
def Dev.newVcore (d : Dev) : Dev :=
  let code := 140 + d.freeVal % 21
  (d.drawn.setBias code).emit (.vid (vidWord code))

/-- A COLD bring-up begins (R490): `start` is the START code; with the main rails off, EN_MAIN rises and step 2 waits for
PG_MAIN; `m` is the flash array. -/
def Dev.coldBring (d : Dev) (m : Memory) (start : Nat) (vao : Bool) (r : BringUp) : Dev :=
  let cls := d.nvm.stopOf
  let d := d.headsDown.coldInit vao (r.retFail.contains 1) cls
  let d : Dev := if d.nvm.abandoned then { d.setFlag Reg.GLB_RST_STS 5 true with nvm := { d.nvm with abandoned := false } } else d
  let d := (((d.setFld Reg.PWR_MODE_STS 2 0 0).setFld Reg.PWR_MODE_STS 6 4 0).setFld Reg.GLB_DEV_STS 12 10 0).beginBring start cls
  let d := ((d.setFlag Reg.PWR_FAIL_STS 1 false).setFlag Reg.PWR_FAIL_STS 4 false).setStage 2
  let d : Dev := { d with nvm := { d.nvm with clean := false }, entryTgt := 0, down := false, resetDefer := false }
  if d.pgMain then { d with bring := some r }.newVcore.bringFrom2 m r
  else { d with bring := some r, pgTry := 1 }.setEnMain true

end Sys2Proof.Machine
end

