-- ==== Sys2Proof/Machine/Capture.lean ====
section
/-! DEFINITION. The segments of a capture: what they hold and how they go to the ring (R475 to R483). -/

namespace Sys2Proof.Machine

/-- Bands of the ring (R477), and the segments it holds. -/
def Dev.ringNeeds (d : Dev) : Nat := ceilDiv (1024 * d.fld Reg.SCP_CAP_CTL 15 8) 768
def Dev.ringRoom (d : Dev) : Nat := 1024 * d.fld Reg.SCP_CAP_CTL 15 8

/-- The records that a segment takes: those at the front that fit its record space whole (R479). -/
def capFit : Nat → List CapRec → List CapRec
  | _, [] => []
  | room, r :: rs => if r.len ≤ room then r :: capFit (room - r.len) rs else []

/-- Their bytes. -/
def capUsed (rs : List CapRec) : Nat := sumL (rs.map CapRec.len)

/-- A record as its bytes (Table SCP-4). -/
def CapRec.bytes (r : CapRec) : Nat :=
  r.len + 2 ^ 16 * r.kind + 2 ^ 24 * r.flags + 2 ^ 32 * (r.src % 2 ^ 32) + 2 ^ 64 * (r.tick % 2 ^ 64) + 2 ^ 128 * (r.rnum % 2 ^ 64) +
  2 ^ 192 * (r.body % 2 ^ (8 * r.n))

/-- The bytes of PAD records that fill a space of `n` bytes, each of at most 65,528; they carry the tick, its COARSE and the RNUM of the record that
comes next, and a rest too short for a header is zeros (DESIGN CHOICE, log 233). -/
def padBytes (coarse tick rnum : Nat) : Nat → Nat → Nat
  | 0, _ => 0
  | k + 1, n =>
    let l := min n 65528
    if n < 24 then 0 else l + 2 ^ 24 * coarse + 2 ^ 64 * (tick % 2 ^ 64) + 2 ^ 128 * rnum + 2 ^ (8 * l) * padBytes coarse tick rnum k (n - l)

/-- The records of a segment as its bytes 64 to 1,044,479. -/
def recBytes (pad : Nat → Nat) : List CapRec → Nat → Nat
  | [], room => pad room
  | r :: rs, room => r.bytes + 2 ^ (8 * r.len) * recBytes pad rs (room - r.len)

/-- The segment header (Table SCP-3). -/
def Dev.segHeader (d : Dev) (num : Nat) (rs : List CapRec) : Nat :=
  let starts (k : Nat) : Bool := rs.any (fun r => r.kind == k)
  let first : Nat × Nat × Nat := match rs with | r :: _ => (r.rnum, r.tick, r.epoch) | [] => (d.cap.rnum, d.tick, d.epoch)
  let trig := d.cap.trigAt.any (fun n => rs.any (fun r => r.rnum == n))
  let ckpt := if starts 1 then 64 + capUsed (rs.takeWhile (fun r => r.kind != 1)) else 0
  0x4C435053 + 2 ^ 32 + 2 ^ 48 * d.fld Reg.SCP_CAP_CTL 3 2 + 2 ^ 56 * ((starts 1).toNat + 2 * trig.toNat + 4 * (starts 5).toNat) +
  2 ^ 64 * (num % 2 ^ 64) + 2 ^ 128 * (Config.serial % 2 ^ 64) + 2 ^ 192 * (first.1 % 2 ^ 64) + 2 ^ 256 * (first.2.1 % 2 ^ 64) +
  2 ^ 320 * (first.2.2 % 2 ^ 16) + 2 ^ 336 * (rs.length % 2 ^ 16) + 2 ^ 352 * capUsed rs + 2 ^ 384 * ckpt

/-- The 256 units of a segment (R478): 255 GCM invocations under the capture key, the header plain and the additional data of unit 0, and
the tags. -/
def segUnits (key num hd text : Nat) : List Nat :=
  let iv (u : Nat) : Nat := num % 2 ^ 64 * 2 ^ 32 + u
  let ct (u : Nat) : Nat :=
    if u = 0 then gcmText key (iv 0) 4032 (leBytes text 0 4032) else gcmText key (iv u) 4096 (leBytes text (4096 * u - 64) 4096)
  let tag (u : Nat) : Nat := if u = 0 then gcmTag key (iv 0) 64 hd 4032 (ct 0) else gcmTag key (iv u) 0 0 4096 (ct u)
  (List.range 255).map (fun u => if u = 0 then hd + 2 ^ 512 * ct 0 else ct u) ++ [payVal ((List.range 255).map (fun u => (16, tag u)))]

/-- One segment goes from the staging to the ring (R475, R478, R479). -/
def Dev.capSegment (d : Dev) : Dev :=
  let num := d.get64 Reg.SCP_CAP_SEG_LO Reg.SCP_CAP_SEG_HI
  let rs := capFit 1044416 d.cap.recs
  let next : Nat × Nat × Nat := match d.cap.recs.drop rs.length with | r :: _ => (r.flags % 2, r.tick, r.rnum) | [] => (d.coarse.toNat, d.tick, d.cap.rnum)
  let text := recBytes (padBytes next.1 next.2.1 next.2.2 17) rs 1044416
  let seg : CapSeg := { num := num, band := d.cap.bands.getD (num % d.ringRoom / 768) 0,
                        units := segUnits (d.cap.key.getD 0) num (d.segHeader num rs) text }
  let d := d.inc64 Reg.SCP_CAP_SEG_LO Reg.SCP_CAP_SEG_HI 1
  { d with cap := { d.cap with recs := d.cap.recs.drop rs.length, staged := d.cap.staged - capUsed rs, segs := d.cap.segs ++ [seg] } }

/-- The ring gives up its oldest segments past the room it has (R482). -/
def Dev.ringTrim (d : Dev) : Dev :=
  let seg := d.get64 Reg.SCP_CAP_SEG_LO Reg.SCP_CAP_SEG_HI
  let old := max (d.get64 Reg.SCP_CAP_OLDEST_LO Reg.SCP_CAP_OLDEST_HI) (seg - d.ringRoom)
  { d.set64 Reg.SCP_CAP_OLDEST_LO Reg.SCP_CAP_OLDEST_HI old with cap := { d.cap with segs := d.cap.segs.filter (fun g => old ≤ g.num) } }

/-- The staging goes to the ring (R483): every started segment is written, in order; a ring that does not wrap takes what it has room for. -/
def Dev.capFlushN : Nat → Dev → Dev
  | 0, d => d
  | n + 1, d =>
    let held := d.get64 Reg.SCP_CAP_SEG_LO Reg.SCP_CAP_SEG_HI - d.get64 Reg.SCP_CAP_OLDEST_LO Reg.SCP_CAP_OLDEST_HI
    if d.cap.recs.isEmpty || (!d.flag Reg.SCP_CAP_CTL 1 && decide (d.ringRoom ≤ held)) then d else Dev.capFlushN n d.capSegment.ringTrim

/-- The flush of an entry. -/
def Dev.capFlush (d : Dev) : Dev := if d.flag Reg.SCP_CAP_STS 0 then Dev.capFlushN d.cap.recs.length d else d

end Sys2Proof.Machine
end

