-- ==== Sys2Proof/Machine/Pwr.lean ====
section
/-! DEFINITION. Power (chapter 14): global modes and entries, wakes, power-good, the channel-group domains and the power-loss
dump. -/

namespace Sys2Proof.Machine

/-- PWR_MODE_STS.PHASE: 0 none, 1 QUIESCE, 2 FLUSH, 3 SAVE. -/
def Dev.phase (d : Dev) : Nat := d.fld Reg.PWR_MODE_STS 6 4
def Dev.setPhase (d : Dev) (n : Nat) : Dev := d.setFld Reg.PWR_MODE_STS 6 4 n

/-! ### Mode requests (R415 to R418) -/

/-- The lowest-numbered condition of Table PWR-2 that holds for a target, 0 for none. -/
def Dev.modeReason (d : Dev) (t : Nat) : Nat :=
  if t = 1 ∨ 4 < t then 1
  else if d.phase = 3 then 2
  else if d.flag Reg.SHF_RB_STS 0 then 3
  else if 2 ≤ d.fld Reg.MAP_GC_STS 1 0 then 4
  else if d.flag Reg.VSL_EXP_STS 0 || d.flag Reg.SCP_XP_STS 0 then 5
  else if 3 ≤ t && (d.paired || (1 ≤ d.twin && d.twin ≤ 3)) then 6
  else if 3 ≤ t && (List.range 32).any (fun n => d.segActive n) then 7
  else 0

/-- Refuse a request (R415). -/
def Dev.modeRefuse (d : Dev) (t reason : Nat) : Dev :=
  ((d.setFlag Reg.PWR_MODE_STS 7 true).setFld Reg.PWR_MODE_STS 15 12 reason).recordErr 0xD00 0x0100 t reason

/-- Store an accepted TARGET. -/
def Dev.setTarget (d : Dev) (t : Nat) : Dev := { d.setFld Reg.PWR_MODE_CTL 2 0 t with entryTgt := t }

/-- A TARGET written with the key; the phases of a WARM reset are no entry of R415 to cancel or replace (DESIGN CHOICE, log 262). -/
def Dev.modeTarget (d : Dev) (t : Nat) : Dev :=
  let entering := d.phase = 1 ∨ d.phase = 2
  if 1 < d.mode ∨ d.entryTgt = 5 then d
  else if d.phase = 0 ∧ t = 0 then d.setTarget 0
  else if entering ∧ t = 0 then ((d.setTarget 0).setPhase 0).toRun
  else if entering ∧ t = d.entryTgt then d
  else
    let r := d.modeReason t
    if r ≠ 0 then d.modeRefuse t r
    else if entering then
      let d := if d.phase = 2 ∧ t = 2 then d.setPhase 3 else d
      d.setTarget t
    else (((d.setTarget t).setPhase 1).setFlag Reg.PWR_MODE_STS 8 false).toRun

/-- A write of PWR_MODE_CTL (R415, R418): AUTO_IDLE and IDLE_US are stored whatever the key. -/
def modeCtl (v : Word) (d : Dev) : Dev :=
  regWrite d Reg.PWR_MODE_CTL v (fun _ d =>
    if bits v 15 8 = 0 then d.recordErr 0xD00 0x0106 0x100 v.toNat
    else
      let d := (d.setFlag Reg.PWR_MODE_CTL 3 (bitAt v 3)).setFld Reg.PWR_MODE_CTL 15 8 (bits v 15 8)
      if bits v 31 16 = 0x5057 then d.modeTarget (bits v 2 0) else d)

/-- The write asks for another target than the row's: it is a write of another row. -/
def otherTarget (v : Word) (t : Nat) : Bool :=
  bits v 31 16 == 0x5057 && bits v 2 0 != t && [0, 2, 3, 4].contains (bits v 2 0)

/-- SLEEP_REQUEST (R415, R416). -/
def doSleepRequest (v : Word) (d : Dev) : Dev := if otherTarget v 2 then d else modeCtl v d
def execSleepRequest (v : Word) (s : State) : Host.Outcome State Fault Refusal := act s (doSleepRequest v)

/-- DEEP_REQUEST (R415, R417). -/
def doDeepRequest (v : Word) (d : Dev) : Dev := if otherTarget v 3 then d else modeCtl v d
def execDeepRequest (v : Word) (s : State) : Host.Outcome State Fault Refusal := act s (doDeepRequest v)

/-- OFF_REQUEST (R415, R417). -/
def doOffRequest (v : Word) (d : Dev) : Dev := if otherTarget v 4 then d else modeCtl v d
def execOffRequest (v : Word) (s : State) : Host.Outcome State Fault Refusal := act s (doOffRequest v)

/-- ENTRY_CANCEL (R417, R418): TARGET = 0 in QUIESCE or FLUSH returns to RUN. -/
def doEntryCancel (v : Word) (d : Dev) : Dev := if otherTarget v 0 then d else modeCtl v d
def execEntryCancel (v : Word) (s : State) : Host.Outcome State Fault Refusal := act s (doEntryCancel v)

/-! ### Entry phases -/

/-- No tag is outstanding in any queue, a squashed one of a running reset among them (R121). -/
def Dev.noTags (d : Dev) : Bool := d.queues.all (fun (kv : Nat × Queue) => kv.2.cmds.isEmpty && kv.2.squash.isEmpty)

/-- QUIESCE_DONE (R416, R417): no tag is outstanding and no unit in flight. -/
def doQuiesceDone (d : Dev) : Dev :=
  if d.phase ≠ 1 ∨ d.pwrStop ∨ !d.noTags ∨ d.slices.any (fun (kv : Nat × Slice) => decide (0 < kv.2.inflight)) then d
  else d.setPhase (if d.entryTgt = 2 then 3 else 2)
def execQuiesceDone (s : State) : Host.Outcome State Fault Refusal := act s doQuiesceDone

/-- FLUSH is complete (R417, R566): every slot COMMITTED, every map page written back, the delta log empty; before a WARM
restart also no context operation and no slice FREEZING or RESETTING. -/
def Dev.flushed (d : Dev) : Bool :=
  d.cache.isEmpty && d.dirtyAll.isEmpty && d.dlog == 0 && d.pwDirty.isEmpty &&
  (d.entryTgt != 5 || (!d.flag Reg.CRY_OP_STS 0 &&
    d.slices.all (fun (kv : Nat × Slice) => kv.2.st != .freezing && kv.2.st != .resetting)))

/-- The open bands of a predicate are closed at their last verified stripe (R204). -/
def Dev.closeBands (d : Dev) (p : Nat → Bool) : Dev :=
  ((d.bands.map Prod.fst).filter (fun b => p b &&
    ((d.band b).st == .openSlc || (d.band b).st == .openQlc || (d.band b).st == .openMeta))).foldl (fun (d : Dev) b => d.closeBand b) d

/-- The restart of a WARM reset (R566): a paired unit releases its bridges to the twin; everything the manager wrote, the queues,
keys and heads are kept; every page locks; bring-up runs from step 6. -/
def Dev.warmRestart (d : Dev) (m : Memory) (r : BringUp) : Dev :=
  let d := d.capFlush.capPower 2
  let d := if d.paired then
      let d := d.sendGulon 0x41 []
      let d := ((List.range 512).filter (fun p => d.fld (Reg.FCH_P_STS p) 4 3 == 1)).foldl
        (fun (d : Dev) p => (d.sendFresh p { opc := 0x09 } []).setFld (Reg.FCH_P_STS p) 4 3 2) d
      ((d.setTwin 0).setSingle true).dropTwins.singleNow
    else d
  let d : Dev := { d with
    pages := d.pages.map (fun (kv : Nat × Page) => (kv.1, { kv.2 with unlocked := false }))
    xbufShown := false, banks := [], entryTgt := 0, giving := [], wants := [], leaving := false, nvm := { d.nvm with clean := true } }
  let d := (List.range 32).foldl (fun (d : Dev) i => d.setReg (Reg.CRY_XBUF i) 0) d
  let d := ((d.setPhase 0).beginBring 3 0).setFlag Reg.TST_BRG_STS 5 false
  { d with bring := some r }.bringFrom6 m r

/-- FLUSH_DONE (R417, R566). -/
def doFlushDone (m : Memory) (d : Dev) : Dev :=
  if d.phase ≠ 2 ∨ d.pwrStop ∨ !d.flushed then d
  else match d.entryTgt, d.bring with
    | 5, some r => d.warmRestart m r
    | _, _ => ((d.closeBands (fun _ => true)).capFlush).setPhase 3
def execFlushDone (s : State) : Host.Outcome State Fault Refusal := act s (doFlushDone s.array)

/-- SLEEP is entered: VCORE goes to 0.70 V with the settings of Table PWR-7. -/
def Dev.commitSleep (d : Dev) : Dev :=
  let d := ({ d with entryTgt := 0, sleepAt := d.tick }.setPhase 0).setMode 2
  (d.setBias 140).emit (.vid (vidWord 140))

/-- No operation, program buffer or die-parity accumulator is left (R431). -/
def Dev.portsIdle (d : Dev) : Bool := d.dpar.isEmpty && d.ports.all (fun (kv : Nat × Port) => kv.2.ops.isEmpty)

/-- DEEP or OFF is entered: every domain OFF, the time saved at the next 32.768 kHz edge (which falls within 30.6 µs), EN_MAIN
low, and for OFF EN_AO low with nothing retained in the trivet. -/
def Dev.commitDeep (d : Dev) (tgt : Nat) : Dev :=
  let d := d.capPower (if tgt = 3 then 3 else 2)
  let own := (List.range 512).filter (fun p => d.fld (Reg.FCH_P_STS p) 4 3 == 1 && d.lstate p == 5)
  let d := own.foldl (fun (d : Dev) p => d.sendFresh p { opc := 0x0A, args := 2 } []) d
  let d := ((List.range 512).filter (fun p => d.lstate p != 7)).foldl (fun (d : Dev) p => d.setLstate p 0) d
  let d := (List.range 64).foldl (fun (d : Dev) g => d.setDomSt g 2) d
  let edge := (d.tick + 1 + d.freeVal % 30518, (d.ao + 1) % 2 ^ 48, d.epoch, d.uncNow)
  let d := (d.drawn.headsDown.linkDown).setTwin 0
  let d := ((d.setFlag Reg.GLB_DEV_STS 0 false).setFlag Reg.TST_BRG_STS 4 false).setFlag Reg.TST_BRG_STS 5 false
  let d : Dev := { d with timeSave := if tgt = 3 then some edge else none, entryTgt := 0, nvm := { d.nvm with clean := true } }
  let d := ((d.setPhase 0).setMode tgt).setEnMain false
  if tgt = 4 then { d.emit (.ballLevel "EN_AO" false) with aoUp := false } else d

/-- ENTRY_COMMIT (R416, R417, Table PWR-3). -/
def doEntryCommit (d : Dev) : Dev :=
  if d.phase ≠ 3 ∨ d.pwrStop then d
  else if d.entryTgt = 2 then d.commitSleep
  else if d.portsIdle then d.commitDeep d.entryTgt
  else d
def execEntryCommit (s : State) : Host.Outcome State Fault Refusal := act s doEntryCommit

/-- IDLE_ENTRY (R414): no firmware core has had work for IDLE_US. -/
def doIdleEntry (d : Dev) : Dev :=
  if d.mode = 0 ∧ d.phase = 0 ∧ d.flag Reg.PWR_MODE_CTL 3 ∧ !d.dumping ∧ d.bring.isNone ∧ !d.pwrHeld ∧
      !d.slices.any (fun (kv : Nat × Slice) => kv.2.bound && kv.2.trumpEn) then d.setMode 1 else d
def execIdleEntry (s : State) : Host.Outcome State Fault Refusal := act s doIdleEntry

/-! ### Wakes (R420 to R426) -/

/-- The sources that wake from a mode (Table PWR-4). -/
def wakeMask (mode : Nat) : Nat := if mode = 2 then 0xFF else if mode = 3 then 0x6F else 1

/-- The lowest bit of a set of sources. -/
def lowestBit (n : Nat) : Nat := ((List.range 8).find? (fun i => n.testBit i)).getD 0

/-- Record a wake (R423): `tick`, `epoch` and `coarse` stamp it. -/
def Dev.recordWake (d : Dev) (src src1 : Nat) (reentry : Bool) (from_ tick epoch : Nat) (coarse : Bool) : Dev :=
  let level := decide (src1 = 0 ∨ src1 = 6)
  let d := d.setReg Reg.PWR_LAST_WAKE (w32 (src1 + 8 * level.toNat + 16 * (reentry && level).toNat + 32 * from_))
  let d := (d.set64 Reg.PWR_LAST_WAKE_TICK_LO Reg.PWR_LAST_WAKE_TICK_HI tick).setReg Reg.PWR_LAST_WAKE_EPOCH
    (w32 (timebOf epoch coarse))
  let d := (d.setReg Reg.PWR_WAKE_STAT (w32 src)).inc Reg.PWR_WAKES 1
  if src.testBit 6 then d.raise 0xD00 5 else d

/-- The time line of a wake from DEEP at this moment (R232, R423): the saved count plus the elapsed ticks, in the next EPOCH. -/
def Dev.wakeTime (d : Dev) : Nat × Nat :=
  let s := d.timeSave.getD d.timeNow
  (s.1 + (d.ao + 2 ^ 48 - s.2.1) % 2 ^ 48 * 1000000000 / 32768, s.2.2.1 + 1)

/-- WAKE (R420, R421, R422, R423, R426, R440, R547). -/
def doWake (sources : Nat) (levelAtIsolate : Bool) (res : BringUp) (d : Dev) : Dev :=
  let en := sources &&& (d.fld Reg.PWR_WAKE_EN 7 0 ||| 1)
  let hit (m : Nat) : Nat := en &&& wakeMask m
  if d.dumping || d.down then (if sources.testBit 0 then { d with wakeHeld := true } else d)
  else if d.phase ≠ 0 then
    if d.entryTgt = 5 ∨ hit d.entryTgt = 0 then d
    else ((({ d with entryTgt := 0 }.setPhase 0).setFlag Reg.PWR_MODE_STS 8 true).toRun).raise 0xD00 1
  else if d.mode = 2 ∧ hit 2 ≠ 0 then
    let t := d.tick
    let d := (d.capRecFree 0x31 2 [3, hit 2]).recordWake (hit 2) (lowestBit (hit 2)) levelAtIsolate 1 t d.epoch d.coarse
    let n := d.tick - d.sleepAt
    ({ d with scrStart := d.scrStart + n, sramStart := d.sramStart + n }.setMode 0).newVcore
  else if d.mode = 3 ∧ d.bring.isNone ∧ hit 3 ≠ 0 then
    let w := d.wakeTime
    let d := d.recordWake (hit 3) (lowestBit (hit 3)) levelAtIsolate 2 w.1 w.2 true
    ({ d with bring := some res, pgTry := 1 }).setEnMain true
  else if d.mode = 4 ∧ !d.aoUp ∧ hit 4 ≠ 0 then d.emit (.ballLevel "EN_AO" true)
  else if d.bring.isSome ∧ !d.enMain ∧ d.pgTry = 2 ∧ hit 3 ≠ 0 then { d with pgTry := 1 }.setEnMain true
  else d
def execWake (sources : Nat) (levelAtIsolate : Bool) (res : BringUp) (s : State) : Host.Outcome State Fault Refusal :=
  actAny s (doWake sources levelAtIsolate res)

/-- The windows whose settings a trivet bank holds (Table PWR-5). -/
def bankWindows (b : Nat) : List Nat :=
  [[0xD, 0], [7], [1], [2, 3], [5], [6], [0xA], [0xB, 8, 9], [0xC], [4], [0xF]].getD b []

/-- The settings of a register: every field the manager sets, but for the counts that fill a register. -/
def settingBits (off : Nat) : Nat :=
  match regDef? off with
  | some r => r.rwl ||| (if r.rw = 0xFFFFFFFF && off != Reg.SCP_RP_STOP_LO && off != Reg.SCP_RP_STOP_HI then 0 else r.rw)
  | none => 0

/-- What a wake from DEEP leaves in a register: the always-on pages run on, what the journal and the NVM record bring back stays, and
a setting stays unless the bank that holds it failed. -/
def deepReg (bad : List Nat) (cold : SMap Word) (kv : Nat × Word) : Option (Nat × Word) :=
  let w := kv.1 / 0x100000
  let failed := bad.any (fun b => (bankWindows b).contains w)
  let outage := kv.1 == Reg.ECC_DEC_STS || kv.1 == Reg.CRY_LANE_STS || kv.1 == Reg.STK_LADLE_STS ||
    (Reg.STK_LADLE_OUT 0 ≤ kv.1 && kv.1 ≤ Reg.STK_LADLE_OUT 3) || kv.1 == Reg.CRY_KEK_STS || kv.1 == Reg.TWN_PAIRKEY_STS
  if w == 0xE || w == 0x10 || keptCold true kv.1 || outage then some kv
  else
    let base : Word := if w == 0xD then kv.2 else SMap.get regReset cold kv.1
    let set := w32 (settingBits kv.1)
    let v := (base &&& ~~~set) ||| ((if failed then regReset kv.1 else kv.2) &&& set)
    if v = regReset kv.1 then none else some (kv.1, v)

/-- A page header after a wake from DEEP: CTL, INT_EN and INT_VEC are settings. -/
def Page.afterDeep (p : Page) : Page :=
  { Page.reset with en := p.en, freeze := p.freeze, isolate := p.isolate, intEn := p.intEn, vecSet := p.vecSet }

/-- STK_CR_LIM takes force (R358). -/
def Dev.crApply (d : Dev) : Dev :=
  { d with crLim := (List.range 10).map (fun c => (d.fld (Reg.STK_CR_LIM c) 15 0, d.fld (Reg.STK_CR_LIM c) 31 16)) }.crCounts

/-- One trivet bank failed its CRC (R425). -/
def Dev.bankFailed (d : Dev) (b : Nat) : Dev :=
  let d := ((d.setFlag Reg.PWR_WAKE_STAT (8 + b) true).inc Reg.PWR_TRIVET_FAILS 1).raise 0xD02 2
  d.errIncident 0xD02 0x0102 b 0 none none none none

/-- The wake from DEEP after the rails are up (Table PWR-6, R419, R425, R232, R501). -/
def Dev.deepWake (d : Dev) (m : Memory) (r : BringUp) : Dev :=
  let bad := (List.range 16).filter (fun b => r.retFail.contains b)
  let ppm := d.fld Reg.DLR_TIME_CTL 15 8
  let secret := !bad.contains 14 && !bad.contains 15
  let cold := d.coldState false
  let d' : Dev := { cold with
    regs := d.regs.filterMap (deepReg bad cold.regs)
    pages := d.pages.filterMap (fun (kv : Nat × Page) =>
      let w := kv.1 / 0x100
      if w == 0xD || w == 0xE || w == 0x10 then some (kv.1, { kv.2 with unlocked := false })
      else
        let p := if bad.any (fun b => (bankWindows b).contains w) then Page.reset else kv.2.afterDeep
        if p = Page.reset then none else some (kv.1, p))
    bifNow := d.bifNow, queues := d.queues, slices := d.slices, kek := if secret then d.kek else none, pairKey := if secret then d.pairKey else none
    doms := if bad.contains 0 then [] else cold.doms
    ports := if bad.contains 7 then [] else d.ports.map (fun (kv : Nat × Port) =>
      (kv.1, { Port.reset with delay := kv.2.delay, skew := kv.2.skew, skewBad := kv.2.skewBad }))
    hdOut := d.hdOut, wkOut := d.wkOut, coresOut := d.coresOut, coresHit := d.coresHit }
  let d' := if secret then d' else (d'.setReg Reg.CRY_KEK_STS 0).setReg Reg.TWN_PAIRKEY_STS (d'.reg Reg.TWN_PAIRKEY_STS &&& 2)
  let d' := d.ctxStore.foldl (fun (d : Dev) kv => d.loadCtx kv.1 kv.2) d'
  let d' := (List.range 64).foldl (fun (d : Dev) g => d.setDomSt g (d.domSt g)) d'
  let d' : Dev := { d'.crApply with
    hbCtl := d'.reg Reg.TWN_HB_CTL, clsNow := d'.reg Reg.DLR_CLS_W, ageNow := d'.reg Reg.DLR_AGE, susNow := d'.reg Reg.DLR_SUS_CTL
    rbNow := d'.reg Reg.SHF_RB_CTL }
  let d' := if bad.contains 1 then { d' with timeSave := none, saveDue := false }.timeFresh else d'.timeReload ppm
  let d' := ((d'.setMode 0).recount).beginBring 4 0
  let d' : Dev := { d' with t0 := d.get64 Reg.PWR_LAST_WAKE_TICK_LO Reg.PWR_LAST_WAKE_TICK_HI, bring := some r }
  let d' := d'.setReg Reg.PWR_TRIVET_STS (w32 (bad.foldl (fun a b => a - 2 ^ b) 0xFFFF))
  let d' := bad.foldl (fun (d : Dev) b => d.bankFailed b) d'
  d'.newVcore.bringFrom6 m r

/-- PG_MAIN_RISE (R426, R490). -/
def doPgMainRise (m : Memory) (d : Dev) : Dev :=
  if !d.enMain || d.pgMain then d
  else
    let d : Dev := { d with pgMain := true }
    match d.bring with
    | some r => if d.mode = 3 then d.deepWake m r else d.newVcore.bringFrom2 m r
    | none => d
def execPgMainRise (s : State) : Host.Outcome State Fault Refusal := actAo s (doPgMainRise s.array)

/-- POWER_GOOD_TIMEOUT (R426). -/
def doPowerGoodTimeout (d : Dev) : Dev :=
  if d.enMain && !d.pgMain then (d.recordErr 0xD00 0x0103 0 d.pgTry).setEnMain false else d
def execPowerGoodTimeout (s : State) : Host.Outcome State Fault Refusal := actAo s doPowerGoodTimeout

/-- PG_MAIN_RETRY (R426): once, 100 ms after the timeout. -/
def doPgMainRetry (d : Dev) : Dev :=
  if !d.enMain && d.bring.isSome && d.pgTry == 1 then { d with pgTry := 2 }.setEnMain true else d
def execPgMainRetry (s : State) : Host.Outcome State Fault Refusal := actAo s doPgMainRetry

/-! ### Domains (R428 to R435) -/

/-- Send BRIDGE_POWER to the bridges of a group that this unit holds. -/
def Dev.bridgePower (d : Dev) (g st : Nat) : Dev :=
  ((portsOf g).filter (fun p => d.fld (Reg.FCH_P_STS p) 4 3 == 1 && d.lstate p != 7)).foldl (fun (d : Dev) p => d.sendFresh p { opc := 0x0A, args := st } []) d

/-- A step down may start: the group follows this unit's policy, is at rest, and FLOOR allows it. -/
def Dev.mayStep (d : Dev) (g : Nat) : Bool :=
  let x := d.dom g
  !d.followed g && !x.leaving && !x.waking && !d.dumping && !d.pwrHeld && decide (d.domSt g < x.floor)

/-- Move a domain one state down (R431). -/
def Dev.stepDown (d : Dev) (g : Nat) : Dev :=
  if !d.mayStep g then d
  else if d.domSt g = 0 then
    if d.canLeave g then (d.setDom g { d.dom g with leaving := true }).bridgePower g 1 else d
  else if d.isDirty && d.dumpGroup g then d
  else
    let d := d.closeBands (fun b => d.bandIn b g)
    if d.canLeave g && d.noDpar g then (d.setDom g { d.dom g with leaving := true }).bridgePower g 2 else d

/-- DOMAIN_T_RET_EXPIRE (R431): T_RET ms without a dealt operation, or a park. -/
def doDomainTRetExpire (g : Nat) (d : Dev) : Dev :=
  let g := g % 64
  let x := d.dom g
  if d.domSt g = 0 ∧ (1 ≤ x.park ∨ x.last + x.tRet * 1000000 ≤ d.tick) then d.stepDown g else d
def execDomainTRetExpire (g : Nat) (s : State) : Host.Outcome State Fault Refusal := act s (doDomainTRetExpire g)

/-- DOMAIN_T_OFF_EXPIRE (R431): a further T_OFF s in RET, or a park. -/
def doDomainTOffExpire (g : Nat) (d : Dev) : Dev :=
  let g := g % 64
  let x := d.dom g
  if d.domSt g = 1 ∧ (x.park = 2 ∨ x.last + x.tOff * 1000000000 ≤ d.tick) then d.stepDown g else d
def execDomainTOffExpire (g : Nat) (s : State) : Host.Outcome State Fault Refusal := act s (doDomainTOffExpire g)

/-- DOMAIN_STEP_DONE (R431, R433): the step completes; the owner journals it; a demand that came meanwhile wakes the domain. -/
def doDomainStepDone (g : Nat) (d : Dev) : Dev :=
  let g := g % 64
  let x := d.dom g
  if !x.leaving || d.pwrStop then d
  else
    let st := d.domSt g + 1
    let d := d.setDomSt g st
    let d := if st = 2 then ((portsOf g).filter (fun p => d.lstate p != 7)).foldl (fun (d : Dev) p => d.setLstate p 0) d else d
    let d := d.setDom g { x with leaving := false, again := false, waking := x.again, last := d.tick }
    let d := (d.raise 0xD01 3).journalDom g st
    if x.again then d.wakeLanes g else if x.park == 2 && st == 1 then d.stepDown g else d
def execDomainStepDone (g : Nat) (s : State) : Host.Outcome State Fault Refusal := act s (doDomainStepDone g)

/-- DOMAIN_DEMAND_WAKE (R429, R431): operations of the listed commands wait for the domain; while PWR takes no new work its wake waits too
(R558). -/
def doDomainDemandWake (g : Nat) (waiters : List (Nat × Nat)) (d : Dev) : Dev :=
  let g := g % 64
  let d' := if d.followed g || d.pwrHeld then d else d.wakeDomain g
  let x := d'.dom g
  if d'.domSt g = 0 ∧ !x.leaving then d'
  else d'.setDom g { x with waiters := x.waiters ++ (waiters.map (fun w => (w.1 % 16384, w.2 % 32, d.tick))) }
def execDomainDemandWake (g : Nat) (waiters : List (Nat × Nat)) (s : State) : Host.Outcome State Fault Refusal :=
  act s (doDomainDemandWake g waiters)

/-- DOMAIN_ON (R429, R433, R434): every lane of a waking domain is ACTIVE or out of service; a parked group's bridges are taken by
force first; BRIDGE_POWER ON. -/
def doDomainOn (g : Nat) (d : Dev) : Dev :=
  let g := g % 64
  let x := d.dom g
  if !x.waking ∨ d.pwrStop ∨ d.followed g ∨ !(portsOf g).all (fun p => d.lstate p == 7 || d.lstate p == 5) then d
  else
    let live := (portsOf g).filter (fun p => d.lstate p != 7)
    let d := if x.parked then live.foldl (fun (d : Dev) p =>
        (d.sendFresh p { opc := 0x08, args := d.fence + 2 ^ 16 } []).sendFresh p { opc := 0x0A, args := 0 } []) d
      else d.bridgePower g 0
    let d := (d.setDomSt g 0).domReached g
    (d.raise 0xD01 3).journalDom g 0
def execDomainOn (g : Nat) (s : State) : Host.Outcome State Fault Refusal := act s (doDomainOn g)

/-- PWR_DSEL. -/
def Dev.dsel (d : Dev) : Nat := d.fld Reg.PWR_DSEL 5 0

/-- A write of PWR_DOM_OP (R432). -/
def domOp (v : Word) (d : Dev) : Dev :=
  if bits v 31 16 ≠ 0x5057 then pageWrite d Reg.PWR_DOM_OP v (fun _ d => d)
  else regWrite d Reg.PWR_DOM_OP v (fun _ d =>
    let g := d.dsel
    let op := bits v 1 0
    let x := d.dom g
    if op = 0 ∨ d.followed g ∨ (2 ≤ op ∧ x.floor < op - 1) then d.recordErr 0xD01 0x0101 g op
    else if op = 1 then d.wakeDomain g
    else if op - 1 ≤ d.domSt g then d
    else (d.setDom g { x with park := op - 1 }).stepDown g)

/-- The write asks for another operation than the row's. -/
def otherOp (v : Word) (op : Nat) : Bool := bits v 31 16 == 0x5057 && bits v 1 0 != op && bits v 1 0 != 0

/-- DOMAIN_WAKE_OP (R432): WAKE. -/
def doDomainWakeOp (v : Word) (d : Dev) : Dev := if otherOp v 1 then d else domOp v d
def execDomainWakeOp (v : Word) (s : State) : Host.Outcome State Fault Refusal := act s (doDomainWakeOp v)

/-- PARK_RET (R432). -/
def doParkRet (v : Word) (d : Dev) : Dev := if otherOp v 2 then d else domOp v d
def execParkRet (v : Word) (s : State) : Host.Outcome State Fault Refusal := act s (doParkRet v)

/-- PARK_OFF (R432). -/
def doParkOff (v : Word) (d : Dev) : Dev := if otherOp v 3 then d else domOp v d
def execParkOff (v : Word) (s : State) : Host.Outcome State Fault Refusal := act s (doParkOff v)

/-- FLOOR above the domain's state wakes it, once its policy applies here (R432, R433). -/
def Dev.floorCheck (d : Dev) (g : Nat) : Dev :=
  if !d.followed g && decide ((d.dom g).floor < d.domSt g) && !(d.dom g).waking then d.wakeDomain g else d

/-- PWR_DOM_POL_WRITE (R432, R442). -/
def doPwrDomPolWrite (v : Word) (d : Dev) : Dev :=
  regWrite d Reg.PWR_DOM_POL v (fun _ d =>
    if bits v 1 0 = 3 ∨ bits v 15 4 = 0 ∨ bits v 31 16 = 0 then d.recordErr 0xD01 0x0106 0x104 v.toNat
    else
      let g := d.dsel
      (d.setDom g { d.dom g with floor := bits v 1 0, tRet := bits v 15 4, tOff := bits v 31 16 }).floorCheck g)
def execPwrDomPolWrite (v : Word) (s : State) : Host.Outcome State Fault Refusal := act s (doPwrDomPolWrite v)

/-! ### The power-loss dump (R436 to R441, R532, R533) -/

/-- A cause of the dump is recognised: `src` 0 PWR_FAIL_N, 1 a rail or VID alert, 2 THERMTRIP_N.  During a reset's own dump the reset
is abandoned; before bring-up has restored anything there is nothing to dump, and bring-up is abandoned. -/
def Dev.recognise (d : Dev) (src : Nat) : Dev :=
  let d : Dev := if src = 2 then { d with stayDown := true, dumpSrc := 2 } else d
  if d.dumping then
    if d.devReset then
      { d with nvm := { d.nvm with abandoned := true }, dumpSrc := src, resetRun := false, bring := none }
    else d
  else if d.down || 3 ≤ d.mode || !d.pgMain || d.stage < 2 || d.stopped then d
  else if d.bring.isSome && decide (d.stage < 8) && d.phase == 0 then
    let d : Dev := { d with nvm := { d.nvm with abandoned := d.devReset || d.nvm.abandoned }, dumpSrc := src, bring := none, down := true }
    d.setEnMain false
  else d.startDump src

/-- PWR_FAIL_RECOGNISED (R436, R437). -/
def doPwrFailRecognised (d : Dev) : Dev :=
  ((d.capRecFree 0x31 0 [1]).setFlag Reg.PWR_FAIL_STS 0 true).recognise 0
def execPwrFailRecognised (s : State) : Host.Outcome State Fault Refusal := actAo s doPwrFailRecognised

/-- The MiB a dump writes (Table PWR-10): the state section, the delta log, the window and the cache pages in use, of 15 slots
each. -/
def Dev.dumpMib (d : Dev) : Nat :=
  16 + 256 * d.segs + ceilDiv (d.dlog * 16 + ceilDiv d.usedSlots 15 * 65536) 1048576

/-- DUMP_DONE (R439, R440, R441): DUMP_DONE goes to the NVM record and DUMPED to the twin; EN_MAIN falls, or the COLD reset that ran the
dump goes on from step 2. -/
def doDumpDone (us : Nat) (m : Memory) (d : Dev) : Dev :=
  if !d.dumping then d
  else
    let d := (d.setFlag Reg.PWR_FAIL_STS 1 false).setFlag Reg.PWR_FAIL_STS 3 true
    let d := (d.setReg Reg.PWR_DUMP_MIB (w32 (satN 16 d.dumpMib))).setReg Reg.PWR_DUMP_US (w32 (satN 16 us))
    let d : Dev := { d with nvm := { d.nvm with dumpDone := d.nvm.dumpStart } }
    let d := d.sendGulon 0x42 []
    match d.bring, d.dumpSrc with
    | some r, 4 => d.coldBring m 2 false r
    | some r, 5 => (d.setEnMain false).coldBring m 1 false r
    | _, _ => { d.setEnMain false with down := true, resetRun := true }
def execDumpDone (us : Nat) (s : State) : Host.Outcome State Fault Refusal := act s (doDumpDone us s.array)

/-- The dump may be left: the rails are off, and no THERMTRIP_N keeps them off (R533). -/
def Dev.mayExit (d : Dev) : Bool := d.down && !(d.stayDown && d.dumpSrc == 2)

/-- DUMP_EXIT (R440, R547): PWR_FAIL_N high for 10 ms; a WAKE_N that stayed low is the wake's source. -/
def doDumpExit (res : BringUp) (m : Memory) (d : Dev) : Dev :=
  if !d.mayExit then d
  else
    let held := d.wakeHeld
    let d := ({ d with wakeHeld := false }.setFlag Reg.PWR_FAIL_STS 0 false).coldBring m 5 false res
    if held then d.recordWake 1 0 false 0 d.tick d.epoch d.coarse else d
def execDumpExit (res : BringUp) (s : State) : Host.Outcome State Fault Refusal :=
  actAoWindow s (doDumpExit res s.array) (fun d => if d.mayExit then (d.headsDown.lostGranules d.nvm.stopOf).map (lostBytes d.draws) else [])

/-- VID_ALERT (R532). -/
def doVidAlert (d : Dev) : Dev := d.recognise 1
def execVidAlert (s : State) : Host.Outcome State Fault Refusal := act s doVidAlert

/-- PG_MAIN_FALL (R532): in RUN, IDLE and SLEEP. -/
def doPgMainFall (d : Dev) : Dev := if d.mode ≤ 2 then (d.capRecFree 0x31 1 [2]).recognise 1 else d
def execPgMainFall (s : State) : Host.Outcome State Fault Refusal := act s doPgMainFall

/-- THERMTRIP (R532, R533). -/
def doThermtrip (d : Dev) : Dev := ((d.emit (.ballLevel "THERMTRIP_N" false)).raise 0xD00 5).recognise 2
def execThermtrip (s : State) : Host.Outcome State Fault Refusal := actAo s doThermtrip

/-! ### Always-on counter and VID -/

/-- AO_COUNTER_EDGE (R442, R231): the 48-bit counter advances and its page publishes, within the spacing of R54; a time save that waits
for the edge is made. -/
def doAoCounterEdge (d : Dev) : Dev :=
  let d := d.set64 Reg.PWR_AO_LO Reg.PWR_AO_HI ((d.ao + 1) % 2 ^ 48)
  let d := if d.barUp then d.publishPage 0xD00 else d
  if d.saveDue then d.saveTime else d
def execAoCounterEdge (s : State) : Host.Outcome State Fault Refusal := actAo s doAoCounterEdge

/-- VID_FRAME (R427, R531): the target changes, or is repeated. -/
def doVidFrame (code : Nat) (d : Dev) : Dev :=
  let ok := if d.mode = 2 then code = 140 else 140 ≤ code ∧ code ≤ 160
  if ok then (d.setBias code).emit (.vid (vidWord code)) else d
def execVidFrame (code : Nat) (s : State) : Host.Outcome State Fault Refusal := act s (doVidFrame code)

end Sys2Proof.Machine
end

