-- ==== Sys2Proof/Machine/Glb.lean ====
section
/-! DEFINITION. Device resets (chapter 02), the supply, release and READY, the board's TAP, format (chapter 07, 11 and 17), the
Gulon link's training, the MSI-X table and the sideband's address. -/

namespace Sys2Proof.Machine

/-! ### Device resets (R58 to R60, R504, R560, R566) -/

/-- A device reset starts (R560). -/
def Dev.resetStart (d : Dev) (scope : Nat) : Dev :=
  let d := (d.incFld Reg.GLB_RST_STS 31 16 1).setFld Reg.GLB_RST_STS 3 0 scope
  let d := (d.setFlag Reg.GLB_RST_STS 4 false).setFlag Reg.GLB_RST_STS 5 false
  { d with nvm := { d.nvm with abandoned := false } }

/-- The reset that RESET_N starts: REFUSED, which only a write clears, keeps (R560). -/
def Dev.resetNStart (d : Dev) : Dev :=
  { (d.resetStart 2).setFlag Reg.GLB_RST_STS 4 (d.flag Reg.GLB_RST_STS 4) with stayDown := false }

/-- An accepted WARM write (R58, R566): the entry phases begin; refused while a tag is outstanding. -/
def Dev.warm (d : Dev) (res : BringUp) : Dev :=
  if !d.noTags then d.setFlag Reg.GLB_RST_STS 4 true
  else ({ d.resetStart 1 with resetRun := true, entryTgt := 5, bring := some res }.setPhase 1).toRun

/-- An accepted COLD write (R58): the power-loss dump runs first. -/
def Dev.cold (d : Dev) (res : BringUp) : Dev :=
  if d.dumping then d
  else ({ d.resetStart 2 with resetRun := true, stayDown := false, bring := some res }.toRun).startDump 4

/-- A write of GLB_RST_CTL (R58): without the key, or with another scope, it is ignored. -/
def rstCtl (v : Word) (scope : Nat) (f : Dev → Dev) (d : Dev) : Dev :=
  regWrite d Reg.GLB_RST_CTL v (fun _ d => if bits v 31 16 = 0x4C4D ∧ bits v 3 0 = scope then f d else d)

/-- The write starts a reset of another scope: it is a write of the other row. -/
def otherScope (v : Word) (scope : Nat) : Bool :=
  bits v 31 16 == 0x4C4D && bits v 3 0 != scope && (bits v 3 0 == 1 || bits v 3 0 == 2)

/-- WARM_RESET (R58, R566). -/
def doWarmReset (v : Word) (res : BringUp) (d : Dev) : Dev :=
  if otherScope v 1 then d else rstCtl v 1 (fun d => d.warm res) d
def execWarmReset (v : Word) (res : BringUp) (s : State) : Host.Outcome State Fault Refusal := act s (doWarmReset v res)

/-- COLD_RESET (R58). -/
def doColdReset (v : Word) (res : BringUp) (d : Dev) : Dev :=
  if otherScope v 2 then d else rstCtl v 2 (fun d => d.cold res) d
def execColdReset (v : Word) (res : BringUp) (s : State) : Host.Outcome State Fault Refusal := act s (doColdReset v res)

/-- A RESET_N restarts an unfinished bring-up at step 2: nothing has been restored yet (R504). -/
def Dev.restarts (d : Dev) : Bool :=
  !d.dumping && !d.down && (d.mode == 3 || d.stopped || !d.pgMain || (decide (2 ≤ d.stage) && decide (d.stage < 8)))

/-- RESET_N_RECOGNISED (R504, R547, R58): deferred while a dump runs; an unfinished bring-up restarts at step 2; otherwise the dump
runs first. -/
def doResetNRecognised (res : BringUp) (m : Memory) (d : Dev) : Dev :=
  if d.dumping || d.down then { d with resetDefer := true }
  else if d.stage < 2 then d
  else
    let d := d.resetNStart
    if d.restarts then (d.setEnMain false).coldBring m 1 false res
    else ({ d with resetRun := true, bring := some res }.toRun).startDump 5
def execResetNRecognised (res : BringUp) (s : State) : Host.Outcome State Fault Refusal :=
  actAoWindow s (doResetNRecognised res s.array) (fun d =>
    if decide (2 ≤ d.stage) && d.restarts then
      let d := d.resetNStart
      (((d.setEnMain false).headsDown).lostGranules d.nvm.stopOf).map (lostBytes d.draws)
    else [])

/-! ### The supply (R490, R528, R529, R533, R542) -/

/-- A program or erase of the flash array that lost its power: an erase leaves its sector DIRTY_ERASE (R451). -/
def Dev.nvmCut (d : Dev) : Dev :=
  { (d.nRun.toList ++ d.nSus.toList).foldl (fun (d : Dev) o => d.nAbandon o) d with nRun := none, nSus := none, apWait := [] }

/-- The page of a program that lost its power holds undefined bytes (R451). -/
def Dev.nvmTorn (d : Dev) : List (Nat × List Byte) :=
  ((d.nRun.toList ++ d.nSus.toList).filter (fun o => !o.erase)).map (fun o =>
    (o.at_ * 256, (List.range 256).map (fun i => BitVec.ofNat 8 (Config.free (2 ^ 120 * (d.draws + 1) + o.at_ * 256 + i)))))

/-- The supply is back, the straps are sampled (R529), the dump set follows SIDE (R435). -/
def Dev.supplied (d : Dev) (side bench dies64 : Bool) : Dev :=
  let d : Dev := { d.nvmCut with supplyLost := false, aoUp := true, enMain := false, pgMain := false, stayDown := false, down := false, wakeHeld := false }
  let d := d.setReg Reg.GLB_STRAP (w32 (side.toNat + 2 * bench.toNat + 4 * dies64.toNat))
  let mask : Word := if side then 0xAAAAAAAA else 0x55555555
  (d.setReg Reg.PWR_DUMPSET_LO mask).setReg Reg.PWR_DUMPSET_HI mask

/-- PG_AO_RISE (R490, R528, R529): step 1; bring-up begins.  A rise that follows OFF is a wake from OFF (R423). -/
def doPgAoRise (side bench dies64 : Bool) (res : BringUp) (m : Memory) (d : Dev) : Dev :=
  if d.aoUp && !d.supplyLost then d
  else
    let off := d.mode == 4
    let d := (d.supplied side bench dies64).coldBring m 0 true res
    if off then d.recordWake 1 0 false 3 0 d.epoch d.coarse else d
def execPgAoRise (side bench dies64 : Bool) (res : BringUp) (s : State) : Host.Outcome State Fault Refusal :=
  if s.dev.aoUp && !s.dev.supplyLost then .next s
  else .next { s with
    dev := doPgAoRise side bench dies64 res (storeArray s.array s.dev.nvmTorn) s.dev
    array := storeArray s.array s.dev.nvmTorn
    window := storeWindow s.window
      ((((s.dev.supplied side bench dies64).headsDown).lostGranules s.dev.nvm.stopOf).map (lostBytes s.dev.draws)) }

/-- PG_AO_FALL (R533, R542): THERMTRIP_N is released; with the main rails up what the controller does is undefined from here on,
otherwise it is off. -/
def doPgAoFall (d : Dev) : Dev :=
  let d := if d.stayDown && d.dumpSrc == 2 then d.emit (.ballLevel "THERMTRIP_N" true) else d
  if d.pgMain then { d with supplyLost := true, aoUp := false, pgMain := false, enMain := false }
  else { d with aoUp := false, enMain := false, bring := none, down := false }
def execPgAoFall (s : State) : Host.Outcome State Fault Refusal := actAo s doPgAoFall

/-! ### Release and READY (R499 to R503) -/

/-- TST_BRG_STS.HOLD: 0 none, 1 bridges held by the twin, 2 TAP, 3 pairing wait. -/
def Dev.hold (d : Dev) : Nat := d.fld Reg.TST_BRG_STS 9 8

/-- Set HOLD; becoming nonzero raises the event. -/
def Dev.setHold (d : Dev) (n : Nat) : Dev :=
  let d' := d.setFld Reg.TST_BRG_STS 9 8 n
  if n ≠ 0 ∧ d.hold = 0 then d'.raise 0x1000 1 else d'

/-- The copies of the dirty-region bitmap in service (R346). -/
def Dev.bmCopies (d : Dev) : Dev :=
  d.setReg Reg.SHF_BM_COPIES (w32 (1 + 2 * d.paired.toNat + sumL ([0, 1, 2].map (fun n => 2 ^ (2 + n) * (d.flag (Reg.SHF_BM_PORT n) 15).toNat))))

/-- The device is released (R499, R500): the host spaces decode, EPOCH is in the NVM record, the half of the next dump is erased,
and step 9 begins. -/
def Dev.releaseNow (d : Dev) : Dev :=
  let d := (d.setFlag Reg.GLB_DEV_STS 0 true).setFlag Reg.TST_BRG_STS 4 true
  let d := ((d.setFld Reg.TST_REL_MS 23 0 d.msNow).stageEnd 8).setStage 9
  let d : Dev := { d with
    resetRun := false, bring := none, pairStart := d.tick, restored := false, counted := false
    nvm := { d.nvm with epoch := d.epoch, dumpStart := none, dumpDone := none, clean := false } }
  let d := (d.setFlag Reg.HIF_PWIN_STS 0 (decide (0 < d.segs))).bmCopies
  let d := d.takeFree ((List.range 512).filter (fun p => d.homeSide p && !d.portGone p))
  let d := d.setHold (if d.flag Reg.TWN_CTL 0 && !d.paired then 3 else 0)
  if d.flag Reg.TWN_LINK_STS 0 && d.flag Reg.TWN_CTL 0 then d.enterKeying else d

/-- RELEASE (R499, R405). -/
def doRelease (d : Dev) : Dev :=
  match d.bring with
  | none => d
  | some r =>
    if d.stage ≠ 8 || d.stopped || d.hold == 2 || d.stayDown || d.mode != 0 then d
    else if r.portsHeld = 0 ∨ d.flag Reg.TWN_LINK_STS 0 then d.releaseNow
    else if d.hold = 1 then d
    else (d.recordErr 0xC01 0x0104 r.portsHeld 0).setHold 1
def execRelease (s : State) : Host.Outcome State Fault Refusal := act s doRelease

/-- The granule at a place of an open band: committed when its placement record's GVER is newer than its map entry (R503, R20). -/
def Dev.scanOne (d : Dev) (l : Loc) : Dev :=
  match d.granAt l with
  | some gr =>
    if !gr.pad && gverNewer gr.gver (d.ent gr.slice gr.granule).gver then
      d.mapChange { slice := gr.slice, granule := gr.granule, gver := gr.gver, loc := some l, src := none, owner := none, mnum := none }
    else d
  | none => d

/-- The places of a band's verified stripes. -/
def Dev.scanPlaces (d : Dev) (b : Nat) : List Loc :=
  ((List.range (d.band b).next).filter (fun k => (List.range 19).all (fun j => (d.fpage (d.chunkKey b k j)).verified))).flatMap (fun k =>
    (List.range 19).flatMap (fun j => if 16 ≤ roleOf j k then [] else
      let t := d.setAtPos b j
      [0, 1].map (fun h => { slc := (d.band b).slc, port := t.port, die := t.die, block := t.block, page := k, half := h, band := b, stripe := k, pos := j })))

/-- OPEN_BAND_SCAN (R503): after INCOMPLETE and CUT stops, every verified stripe of each band that the journal shows OPEN is read. -/
def doOpenBandScan (d : Dev) : Dev :=
  if d.stage = 9 ∧ d.scanPend then
    { (d.scanBands.flatMap d.scanPlaces).foldl (fun (d : Dev) l => d.scanOne l) d with scanPend := false, scanBands := [] } else d
def execOpenBandScan (s : State) : Host.Outcome State Fault Refusal := act s doOpenBandScan

/-- Slots that the stop lost and no twin brings back (R503). -/
def Dev.slotsLost (d : Dev) : Dev :=
  if d.flag Reg.TWN_STS 4 ∧ 0 < d.lostSlots then
    let n := d.lostSlots
    let d := (d.setFld Reg.TST_LOST_SLOTS 20 0 (satN 21 n)).errIncident 0x1000 0x0104 n (d.fld Reg.PWR_DUMP_SEQ 31 0) none none none none
    { d.raise 0x1000 3 with lostSlots := 0 }
  else { d with lostSlots := 0 }

/-- READY (R502, R405): the work of Table BRG-4 is complete and slices fetch. -/
def doReady (d : Dev) : Dev :=
  if d.stage ≠ 9 || !d.released || d.tstStop || d.scanPend || d.hold == 2 || !(d.paired || d.flag Reg.TWN_STS 4) then d
  else
    let d := d.slotsLost
    let d := (((d.stageEnd 9).setStage 10).stageEnd 10).setFlag Reg.TST_BRG_STS 5 true
    (d.setHold 0).raise 0x1000 0
def execReady (s : State) : Host.Outcome State Fault Refusal := act s doReady

/-! ### The board's TAP (R493, R495) -/

/-- The instruction drives or samples the boundary register. -/
def tapBoundary (i : TapIns) : Bool :=
  i == .extest || i == .extestPulse || i == .extestTrain || i == .sample || i == .preload

/-- TAP_INSTRUCTION (R493, R495): until CLEARED only BYPASS and IDCODE execute; afterwards a boundary instruction holds bring-up at
the end of the step, and takes a released device down. -/
def doTapInstruction (ins : TapIns) (ir : Nat) (d : Dev) : Dev :=
  if ins == .scan || (tapBoundary ins && !d.flag Reg.TST_SEC_STS 0) then d
  else
    let d := d.setFld Reg.TST_TAP_STS 7 0 ir
    if !tapBoundary ins || d.flag Reg.TST_TAP_STS 8 then d
    else
      let step := d.stage
      let d := if d.released then
          ((((d.headsDown).setFlag Reg.GLB_DEV_STS 0 false).setFlag Reg.TST_BRG_STS 4 false).setFlag Reg.TST_BRG_STS 5 false)
        else d
      let d := ((d.setFlag Reg.TST_TAP_STS 8 true).recordErr 0x1000 0x0105 (ir % 256) step).setHold 2
      d.raise 0x1000 2
def execTapInstruction (ins : TapIns) (ir : Nat) (s : State) : Host.Outcome State Fault Refusal := actAo s (doTapInstruction ins ir)

/-- The pages of the blocks that step 3 tests (Table BRG-2): the host ports, HBM, the flash ports and the Gulon link. -/
def testedPages : List Nat := [0x100, 0x600, 0xC00] ++ (List.range 512).map (0x800 + ·)

/-- The blocks whose pins the board drove are re-initialised, as step 4 does it (R494, R495): SOFT_RST of every tested page, ISOLATE clear. -/
def Dev.retest (d : Dev) : Dev :=
  { testedPages.foldl (fun (d : Dev) pg =>
      let d := d.softClear pg
      d.setPage pg { d.page pg with softRst := false, isolate := false }) d with pairKey := none }.setI3c

/-- TAP_TEST_LOGIC_RESET (R495): the hold ends; step 3 is repeated if the hold began at step 3 or later, and bring-up goes on from
there. -/
def doTapTestLogicReset (res : BringUp) (m : Memory) (d : Dev) : Dev :=
  let d := d.setFld Reg.TST_TAP_STS 7 0 0
  if !d.flag Reg.TST_TAP_STS 8 then d
  else
    let d := (d.setFlag Reg.TST_TAP_STS 8 false).setHold 0
    if d.stage < 3 || d.stopped || !d.pgMain || d.dumping || 2 < d.mode then d
    else
      let d : Dev := { d.retest with bring := some res, resetRun := true }
      ((d.step3 res).unlessStopped (fun d => d.step5 res)).unlessStopped (fun d => d.bringFrom6 m res)
def execTapTestLogicReset (res : BringUp) (s : State) : Host.Outcome State Fault Refusal := actAo s (doTapTestLogicReset res s.array)

/-! ### Format (R27, R77, R210, R323, R324, R346, R438) -/

/-- Block sets of a share, `n` of each die on the ports in service (Table ARC-6, R27). -/
def Dev.formSets (d : Dev) (n : Nat → Nat) : Nat :=
  sumL (((List.range 512).filter (fun p => !d.portGone p)).map (fun p => (d.diesOf p).length * n p))

/-- FORMAT: SEED is drawn, bands are formed, C_LOG and the kitty's denominators are set, nothing is mapped. -/
def doFormat (bandsFormed : Nat) (bm : Nat × Nat × Nat) (d : Dev) : Dev :=
  let n := bandsFormed % 2 ^ 23
  let seed := d.freeVal
  let d : Dev := { (d.capRec 0x2A 10 []).drawn with
    cap := { (d.capRec 0x2A 10 []).cap with bands := [], segs := [] }
    map := [], resync := [], giving := [], wants := [], resident := [], dirty := [], lost := [], dlog := 0, dlogRing := [], mapPend := [], refBits := [], mapWant := [], relocs := [], closeSeq := 0, metaAt := [], metaBack := [], bands := [], cache := [], flash := [], elog := []
    fills := [], stripeBuf := [], progd := [], chunksOk := [], bmDirty := [], bmClear := [], bmWait := [], rbQueue := [], trk := [], dpar := [], dacc := []
    spareUsed := [], rbUsed := [], rfshDays := [], gcCredit := 0, pwDirty := [], pwPoison := [], pwDead := [], pwCured := [], pwUnmir := 0, twinVers := []
    pwTwin := [], twinRegions := [], freeQ := [], exhausted := [], conds := [], peDays := [], fmtDays := 0, endur := 0xFFFFFFFF
    spareFmt := d.formSets d.spareBlocks * setBytes, fmtOut := (List.range 512).filter d.portGone, rebuildFmt := d.formSets d.rebuildBlocks * setBytes, scanPend := false, lostSlots := 0
    ports := d.ports.map (fun (kv : Nat × Port) => (kv.1, { kv.2 with ops := [] }))
    nvm := { d.nvm with formatted := true } }
  let d := ((d.setReg Reg.SHF_SEED (w32 seed)).setReg Reg.MAP_BANDS_FMT (w32 n)).set64 Reg.MAP_CLOG_LO Reg.MAP_CLOG_HI (5 * n * bandGranules / 8)
  let d := (d.setReg Reg.SHF_RB_SPACE_FMT (w32 (d.formSets d.rebuildBlocks))).setReg (Reg.SHF_BM_PORT 0) (w32 (0x8000 + bm.1 % 512))
  let d := (d.setReg (Reg.SHF_BM_PORT 1) (w32 (0x8000 + bm.2.1 % 512))).setReg (Reg.SHF_BM_PORT 2) (w32 (0x8000 + bm.2.2 % 512))
  let d := [0, 1, 2].foldl (fun (d : Dev) n => d.setBmLog n { BmLog.reset with base := d.bmSeq }) d
  let d := ((d.setReg Reg.MAP_RETIRED 0).setFld Reg.ECC_QUAL_FAIL 15 0 0).setReg Reg.PWR_DUMP_SEQ 0
  let d := (d.setFld Reg.STK_PWC_USED 20 0 0).bmCopies
  ({ d.recount with conds := [] }.pwCount).healthEval
def execFormat (bandsFormed : Nat) (bm : Nat × Nat × Nat) (s : State) :
    Host.Outcome State Fault Refusal :=
  if s.dev.supplyLost then .fault .undefinedSupply
  else if s.dev.pgMain && !s.dev.dumping then
    .next { s with dev := doFormat bandsFormed bm s.dev, window := [] }
  else .next s

/-! ### The Gulon link's training, firmware cores, MSI-X, sideband -/

/-- GULON_LINK_UP (R381, R382, R385): while TWN_LINK_CTL.EN = 1, logical lanes 0 to 15 take the lowest lanes that have not failed; a released unit that may pair
enters KEYING. -/
def doGulonLinkUp (d : Dev) : Dev :=
  let good := (List.range 18).filter (fun l => !d.flag Reg.TWN_LANE_FAIL l)
  let width := if 16 ≤ good.length then 16 else if 8 ≤ good.length then 8 else 0
  if d.flag Reg.TWN_LINK_STS 0 ∨ width = 0 ∨ !d.flag Reg.TWN_LINK_CTL 0 then d
  else
    let use := good.take width
    let spares := good.length - 16
    let d := (d.setReg Reg.TWN_LINK_STS (w32 (1 + 2 * width + 64 * spares))).setFld Reg.TWN_LANE_MAP 17 0 (sumL (use.map (fun l => 2 ^ l)))
    let d := d.raise 0xC00 0
    let d := if d.released && d.canKey && (d.mayPair || d.paired) then d.enterKeying else d
    d.timeRole
def execGulonLinkUp (s : State) : Host.Outcome State Fault Refusal := act s doGulonLinkUp

/-- GULON_LINK_DOWN (R398, R228). -/
def doGulonLinkDown (d : Dev) : Dev := d.linkDown.timeRole
def execGulonLinkDown (s : State) : Host.Outcome State Fault Refusal := act s doGulonLinkDown

/-- FIRMWARE_CORE_FAIL (R26). -/
def doFirmwareCoreFail (core : Nat) (again : Bool) (d : Dev) : Dev := d.coreFail core again
def execFirmwareCoreFail (core : Nat) (again : Bool) (s : State) : Host.Outcome State Fault Refusal := act s (doFirmwareCoreFail core again)

/-- MSIX_TABLE_WRITE (R52, R63): the table of 2,048 entries, on a head on which BAR4 decodes; clearing a vector's mask sends its pending
message.  The pending-bit array is read-only. -/
def doMsixTableWrite (head off : Nat) (v : Word) (d : Dev) : Dev :=
  if !d.barUp || !d.headUp (head % 4) then d
  else if !d.mgrOn (head % 4) then d.emit (.unsupportedRequest (head % 4))
  else if 0x8000 ≤ off || off % 4 ≠ 0 then d
  else ({ ({ d with accHead := some (head % 4) }.capWrite 2 off v) with accHead := none, msixTbl := SMap.set msixReset d.msixTbl (off / 4) v } : Dev).pbaFlush
def execMsixTableWrite (head off : Nat) (v : Word) (s : State) : Host.Outcome State Fault Refusal := act s (doMsixTableWrite head off v)

/-- I3C_DYNAMIC_ADDRESS (R94): the target answers in RUN, IDLE and SLEEP. -/
def doI3cDynamicAddress (addr : Nat) (d : Dev) : Dev :=
  if 2 < d.mode || !d.flag Reg.HIF_I3C_CTL 7 then d
  else (d.setFld Reg.HIF_I3C_STS 6 0 addr).setFlag Reg.HIF_I3C_STS 7 true
def execI3cDynamicAddress (addr : Nat) (s : State) : Host.Outcome State Fault Refusal := actAo s (doI3cDynamicAddress addr)

end Sys2Proof.Machine
end

