-- ==== Sys2Proof/Machine/Scp.lean ====
section
/-! DEFINITION. The scorepad's banks, the incident sheet, capture and the control of replay (chapter 16). -/

namespace Sys2Proof.Machine

/-! ### Banks (R462 to R470) -/

/-- Publish a bank under its SB_SEQ (R469). -/
def Dev.bankPublish (d : Dev) (b : Nat) : Dev :=
  let k := d.bank b
  d.setBank b { k with pubCur := k.cur, pubLast := k.last, seq := k.seq + 2, lastDue := none }

/-- Close a bank's window if its closing tick has come. -/
def Dev.bankClose (d : Dev) (b : Nat) : Dev :=
  let k := d.bank b
  if d.flag (Reg.SB_CFG b) 0 && d.flag (Reg.SB_CFG b) 1 && k.closing (d.fld (Reg.SB_WIN b) 15 0) then
    d.setBank b (k.closeAt (k.closingTick d.tick))
  else d

/-- WINDOW_CLOSE (R465). -/
def doWindowClose (bank : Nat) (d : Dev) : Dev := d.bankClose (bank % 256)
def execWindowClose (bank : Nat) (s : State) : Host.Outcome State Fault Refusal := act s (doWindowClose bank)

/-- BANK_PUBLISH (R466, R469): two tricks after a closing tick. -/
def doBankPublish (bank : Nat) (d : Dev) : Dev :=
  let b := bank % 256
  match (d.bank b).lastDue with
  | some t => if t ≤ d.tick ∧ !(d.bank b).closing (d.fld (Reg.SB_WIN b) 15 0) then d.bankPublish b else d
  | none => d
def execBankPublish (bank : Nat) (s : State) : Host.Outcome State Fault Refusal := act s (doBankPublish bank)

/-- The selectors a source carries (Table SCP-1): slice, class, group. -/
def srcSelectors (src : Nat) : Bool × Bool × Bool :=
  ([1, 2, 3, 4, 15].contains src, [1, 2, 3, 4, 10, 15].contains src, [4, 5, 6, 7, 8, 9, 12, 16].contains src)

/-- A filter enables only selectors that the source carries. -/
def filterOk (src : Nat) (filt : Word) : Bool :=
  let c := srcSelectors src
  (!bitAt filt 10 || c.1) && (!bitAt filt 13 || c.2.1) && (!bitAt filt 20 || c.2.2)

/-- SB_CFG_WRITE (R462, R470, R489): settings change only while EN = 0; clearing EN always takes effect and leaves the rest; setting
it clears CUR and LAST. -/
def doSbCfgWrite (bank : Nat) (v : Word) (d : Dev) : Dev :=
  let b := bank % 256
  let off := Reg.SB_CFG b
  regWrite d off v (fun new d =>
    let refuse (d : Dev) : Dev := d.recordErr (off / 0x1000) 0x0100 (off % 0x1000) v.toNat
    let src := bits new 15 8
    if d.flag off 0 then
      if new = d.reg off then d
      else if bitAt new 0 then refuse d
      else d.setFlag off 0 false
    else if 16 < src ∨ (bitAt new 0 ∧ (src = 0 ∨ !filterOk src (d.reg (Reg.SB_FILT b)))) then refuse d
    else
      let d := d.setReg off new
      if bitAt new 0 then
        d.setBank b { Bank.reset with seq := (d.bank b).seq, running := !bitAt new 1, cur := BankWin.empty d.tick }
      else d)
def execSbCfgWrite (bank : Nat) (v : Word) (s : State) : Host.Outcome State Fault Refusal := act s (doSbCfgWrite bank v)

/-- The bank work of a trick-group boundary (R465, R467, R469): enabled banks are published, windows that are running count the
group, a waiting bank starts its first window, and a step of the clock closes every open window. -/
def Dev.bankBoundary (d : Dev) (stepped : Bool) (b : Nat) : Dev :=
  if !d.flag (Reg.SB_CFG b) 0 || d.pagesStop (bankPage b) (bankPage b) then d
  else
    let d := (d.bankClose b).bankPublish b
    if !d.flag (Reg.SB_CFG b) 1 then d
    else
      let k := d.bank b
      if !k.running then d.setBank b { k with running := true, cur := BankWin.empty d.tick, groups := 0 }
      else if stepped then d.setBank b (k.closeAt d.tick)
      else
        let n := k.groups + 1
        d.setBank b { k with groups := n, lastDue := if d.fld (Reg.SB_WIN b) 15 0 ≤ n then some (d.tick + 4096) else none }

/-! ### The incident sheet (R472, R473) -/

/-- INCIDENT_JOURNAL (R473): the next entry not yet journaled goes to the metadata journal. -/
def doIncidentJournal (d : Dev) : Dev :=
  if d.pagesStop 0xF00 0xF00 then d else
  match d.incidents.findIdx? (fun e => !e.journaled) with
  | some i => match d.incidents[i]? with
    | some e => { d with incidents := setAt d.incidents i { e with journaled := true } }
    | none => d
  | none => d
def execIncidentJournal (s : State) : Host.Outcome State Fault Refusal := act s doIncidentJournal

/-- SCP_INC_CLR (R472). -/
def doScpIncClr (v : Word) (d : Dev) : Dev :=
  pageWrite d Reg.SCP_INC_CLR v (fun _ d =>
    if v = 0x53430001 then { d.setReg Reg.SCP_INC_STS 0 with incidents := [] } else d)
def execScpIncClr (v : Word) (s : State) : Host.Outcome State Fault Refusal := act s (doScpIncClr v)

/-- A 64-byte incident entry (Table SCP-2) as a number, lowest byte first. -/
def incidentWord (n : Nat) (e : Incident) : Nat :=
  n + 2 ^ 16 * e.block + 2 ^ 24 * e.coarse.toNat + 2 ^ 32 * (e.code % 2 ^ 16) + 2 ^ 48 * (e.epoch % 2 ^ 16) + 2 ^ 64 * (e.tick % 2 ^ 64) +
  2 ^ 128 * (e.info0 % 2 ^ 32) + 2 ^ 160 * (e.info1 % 2 ^ 32) + 2 ^ 192 * (e.slice.getD 0xFFFF % 2 ^ 16) +
  2 ^ 208 * (e.lba.getD (2 ^ 48 - 1) % 2 ^ 48) + 2 ^ 256 * (e.caprec.getD (2 ^ 64 - 1) % 2 ^ 64) +
  2 ^ 320 * (e.loc.getD (2 ^ 32 - 1) % 2 ^ 32) + 2 ^ 352 * (e.page.getD (2 ^ 32 - 1) % 2 ^ 32)

/-- A write of SCP_INC_SEL copies the entry to SCP_INC_ENT; an entry that does not exist reads as zeros. -/
def Dev.incSelect (d : Dev) (n : Nat) : Dev :=
  let w := match d.incidents[n]? with | some e => incidentWord n e | none => 0
  (List.range 16).foldl (fun (d : Dev) i => d.setReg (Reg.SCP_INC_ENT i) (w32 (w / 2 ^ (32 * i)))) d

/-! ### Capture (R474 to R483) -/

/-- What a checkpoint says of the controller (Table SCP-5), by block index: the block's registers from 0x100 upward that hold other than their
reset value, secret fields zero, and of its SRAM state the slices, the queue pairs and the operations on the ports, each in the form
`Dev.ckptSram` reads; credits, the cache index and the Dealer's plan are not among it (log 181). -/
def Dev.ckptItems (d : Dev) : List (Nat × List Nat) :=
  (List.range 16).map (fun b => (b, 0 :: (d.regs.filter (fun kv => pageBlock (kv.1 / 0x1000) == b && 0x100 ≤ kv.1 % 0x1000)).flatMap
    (fun kv => [kv.1, if isSecret kv.1 then 0 else kv.2.toNat]))) ++
  d.slices.map (fun kv => (3, [1, kv.1, kv.2.st.code, kv.2.pasid, kv.2.blks, kv.2.share, kv.2.tshare, kv.2.qpMax, kv.2.sgen])) ++
  d.queues.map (fun kv => (2, [2, kv.1, kv.2.en.toNat, kv.2.sqb, kv.2.cqb, kv.2.sqHead, kv.2.sqTail, kv.2.cqPosted, kv.2.cqHead])) ++
  d.ports.flatMap (fun kv => kv.2.ops.map (fun o =>
    (7, [4, kv.1, o.tag, o.opc, o.die, o.block, o.page, o.slc.toNat, o.data.toNat])))

/-- A checkpoint (R481): CKPT_BEGIN, the CKPT_DATA records, whose bytes and their number the spec does not lay out (free values, log 176),
and CKPT_END. -/
def Dev.checkpoint (d : Dev) : Dev :=
  let no := d.cap.ckptNo
  let items := d.ckptItems
  let recs := (items.zip (List.range items.length)).map (fun x =>
    (x.1.1, x.1.2, 8 * (Config.free (d.draws + 2 * x.2) % 8189), Config.free (d.draws + 2 * x.2 + 1)))
  let d : Dev := { d with draws := d.draws + 2 * items.length, cap := { d.cap with ckptNo := no + 1, groups := 0 } }
  let d := d.capRec 0x01 0 [(8, no), (8, sumL (recs.map (fun r => r.2.2.1)))]
  let d := recs.foldl (fun (d : Dev) r => d.capAdd 0x02 r.1 0 r.2.1 r.2.2.1 r.2.2.2) d
  d.capRec 0x03 0 [(8, no), (8, crc64 (recs.flatMap (fun r => toBytes r.2.2.2 r.2.2.1)))]

/-- Capture is disabled: its bands leave N_META; they are CLOSED, hold nothing valid and become victims like any other (R202). -/
def Dev.ringFreed (d : Dev) : Dev :=
  let d := d.cap.bands.foldl (fun (d : Dev) b => d.bandClosed b { d.band b with isMeta := false }) d
  { d with cap := { d.cap with bands := [] } }.respace

/-- The lowest-numbered FREE bands this unit stewards become the ring (R477), unless a ring of the size set is there. -/
def Dev.ringBands (d : Dev) : Dev :=
  if d.cap.bands.length = d.ringNeeds then d
  else
    let d := if d.cap.bands.isEmpty then d else d.ringFreed
    let bs := ((List.range (d.fld Reg.MAP_BANDS_FMT 22 0)).filter (fun b => (d.band b).st == .free && d.stewards b)).take d.ringNeeds
    let d := bs.foldl (fun (d : Dev) b =>
      ((d.setBand b { d.band b with st := .openMeta, isMeta := true, slc := true, sets := d.setsOf b }).trackerOpen b true).journalBand b 3) d
    { d with cap := { d.cap with bands := bs, segs := [] } }.respace

/-- Capture starts (R481, R483): a GAP record if power or a reset has stopped the last one, then a checkpoint. -/
def Dev.capBegin (d : Dev) : Dev :=
  let gap := d.cap.gap
  let d := (d.setReg Reg.SCP_CAP_STS (w32 (1 + 32 * (d.flag Reg.SCP_CAP_STS 5).toNat))).ringBands
  let first := ((d.cap.segs.head?).map CapSeg.num).getD (d.get64 Reg.SCP_CAP_SEG_LO Reg.SCP_CAP_SEG_HI)
  let d := d.set64 Reg.SCP_CAP_OLDEST_LO Reg.SCP_CAP_OLDEST_HI first
  let d : Dev := { d with cap := { d.cap with
    staged := 0, recs := [], post := none, trigAt := none, groups := 0, gap := 0, spill := false, lost := 0 } }
  let d := if gap = 0 then d else d.capRec 0x05 gap [(8, 2 ^ 64 - 1)]
  d.checkpoint

/-- A write of SCP_CAP_CTL (R482, R489): while capture runs only clearing EN is accepted; EN rising starts capture. -/
def capCtl (v : Word) (d : Dev) : Dev :=
  regWrite d Reg.SCP_CAP_CTL v (fun new d =>
    let old := d.reg Reg.SCP_CAP_CTL
    let refuse (d : Dev) : Dev := d.recordErr 0xF57 0x0100 0x100 v.toNat
    if new = old then d
    else if d.flag Reg.SCP_CAP_STS 0 then
      if new = putBit old 0 false then ((d.capStop).setReg Reg.SCP_CAP_CTL new).ringFreed else refuse d
    else if bits new 3 2 = 3 ∨ bits new 15 8 = 0 ∨ 64 < bits new 15 8 ∨ (bitAt new 0 ∧ d.cap.key.isNone) then refuse d
    else
      let d := d.setReg Reg.SCP_CAP_CTL new
      if bitAt new 0 ∧ !bitAt old 0 then d.capBegin
      else if !bitAt new 0 ∧ bitAt old 0 then d.ringFreed
      else d)

/-- CAPTURE_START (R474, R477, R481, R483, R489): a write of SCP_CAP_CTL. -/
def doCaptureStart (v : Word) (d : Dev) : Dev := capCtl v d
def execCaptureStart (v : Word) (s : State) : Host.Outcome State Fault Refusal := act s (doCaptureStart v)

/-- The staging has fallen below half after an overrun (R475): a GAP record names the records lost. -/
def Dev.capGap (d : Dev) : Dev :=
  if d.cap.spill ∧ d.cap.staged < d.capRoom / 2 then
    let n := d.cap.lost
    let d : Dev := { d with cap := { d.cap with spill := false, lost := 0 } }
    ((d.capRec 0x05 1 [(8, n)]).setFlag Reg.SCP_CAP_STS 3 true).errIncident 0xF57 0x0101 (n % 2 ^ 32) 0 none none none none
  else d

/-- CAPTURE_SEGMENT_WRITE (R475, R478, R482): a full segment goes to the ring. -/
def doCaptureSegmentWrite (d : Dev) : Dev :=
  if !d.flag Reg.SCP_CAP_STS 0 ∨ d.cap.staged < 1044416 ∨ d.scpStop then d
  else
    let d := d.capSegment
    let wrap := d.flag Reg.SCP_CAP_CTL 1
    let d := (if wrap then d.ringTrim else d).capGap
    match d.cap.post with
    | some n => if n ≤ 1 then d.capStop else { d with cap := { d.cap with post := some (n - 1) } }
    | none =>
      let held := d.get64 Reg.SCP_CAP_SEG_LO Reg.SCP_CAP_SEG_HI - d.get64 Reg.SCP_CAP_OLDEST_LO Reg.SCP_CAP_OLDEST_HI
      if !wrap ∧ d.ringRoom ≤ held then (d.setFlag Reg.SCP_CAP_STS 4 true).capStop else d
def execCaptureSegmentWrite (s : State) : Host.Outcome State Fault Refusal := act s doCaptureSegmentWrite

/-- CAPTURE_CHECKPOINT (R481): CKPT_TG trick groups after the last one. -/
def doCaptureCheckpoint (d : Dev) : Dev :=
  if d.flag Reg.SCP_CAP_STS 0 ∧ d.fld Reg.SCP_CAP_CKPT 15 0 ≤ d.cap.groups ∧ !d.scpHeld then d.checkpoint else d
def execCaptureCheckpoint (s : State) : Host.Outcome State Fault Refusal := act s doCaptureCheckpoint

/-- A write to one SCP_CAPKEY register clears any earlier key (R190). -/
def Dev.capkeyWrite (d : Dev) (k : Nat) (v : Word) : Dev :=
  { (d.setReg (Reg.SCP_CAPKEY k) v).setReg Reg.SCP_CAPKEY_STS 0 with cap := { d.cap with key := none } }.setFlag Reg.SCP_CAP_STS 5 false

/-- CAPKEY_SET (R478, R190): the write of SCP_CAPKEY7 sets the key from the eight registers. -/
def doCapkeySet (v : Word) (d : Dev) : Dev :=
  regWrite d (Reg.SCP_CAPKEY 7) v (fun _ d =>
    let d := d.capkeyWrite 7 v
    let k := d.keyRegs (Reg.SCP_CAPKEY 0)
    let d := (List.range 8).foldl (fun (d : Dev) i => d.setReg (Reg.SCP_CAPKEY i) 0) d
    let d : Dev := { d with cap := { d.cap with key := some k } }
    ((d.setFlag Reg.SCP_CAPKEY_STS 0 true).setFld Reg.SCP_CAPKEY_STS 31 16 (kcvOf k)).setFlag Reg.SCP_CAP_STS 5 true)
def execCapkeySet (v : Word) (s : State) : Host.Outcome State Fault Refusal := act s (doCapkeySet v)

/-! ### Capture export (R484) -/

/-- FIRST. -/
def Dev.xpFirst (d : Dev) : Nat := d.get64 Reg.SCP_XP_FIRST_LO Reg.SCP_XP_FIRST_HI

/-- A write of SCP_XP_CTL: EN = 1 starts an export unless capture runs; EN = 0 ends it. -/
def xpCtl (v : Word) (d : Dev) : Dev :=
  regWrite d Reg.SCP_XP_CTL v (fun new d =>
    let old := d.reg Reg.SCP_XP_CTL
    if bitAt new 0 ∧ !bitAt old 0 then
      if d.flag Reg.SCP_CAP_STS 0 then d.recordErr 0xF57 0x0104 0 (d.xpFirst % 2 ^ 32)
      else if d.fld Reg.SCP_XP_SLOTS 15 0 < 2 ∨ d.fld Reg.SCP_XP_NSEG 16 0 = 0 then d.recordErr 0xF57 0x0100 0x180 v.toNat
      else (((d.setReg Reg.SCP_XP_CTL new).setReg Reg.SCP_XP_PROD 0).setReg Reg.SCP_XP_CONS 0).setReg Reg.SCP_XP_STS 1
    else
      let d := d.setReg Reg.SCP_XP_CTL new
      if bitAt new 0 then d else d.setFlag Reg.SCP_XP_STS 0 false)

/-- CAPTURE_EXPORT_START (R484). -/
def doCaptureExportStart (v : Word) (d : Dev) : Dev := xpCtl v d
def execCaptureExportStart (v : Word) (s : State) : Host.Outcome State Fault Refusal := act s (doCaptureExportStart v)

/-- The head of a capture export (R484, R156): the lowest-numbered one that is up with MGR = 1. -/
def Dev.xpHead (d : Dev) : Option Nat := [0, 1, 2, 3].find? (fun h => d.headUp h && d.flag Reg.HIF_HEAD_CTL h)

/-- The units of a segment that the ring holds; of one that it does not hold the spec says nothing: a free value each (log 175). -/
def Dev.segOf (d : Dev) (num : Nat) : List Nat :=
  match d.cap.segs.find? (fun g => g.num == num) with
  | some g => g.units
  | none => (List.range 256).map (fun u => Config.free (d.draws + u) % 2 ^ 32768)

/-- CAPTURE_EXPORT_SEGMENT (R484, R164, R168): the next segment goes to its slot while the ring has room and a head can carry it. -/
def doCaptureExportSegment (hostOk : Bool) (d : Dev) : Dev :=
  let prod := d.fld Reg.SCP_XP_PROD 31 0
  let slots := d.fld Reg.SCP_XP_SLOTS 15 0
  if !d.flag Reg.SCP_XP_STS 0 || d.scpStop then d
  else if slots ≤ (prod + 2 ^ 32 - d.fld Reg.SCP_XP_CONS 31 0) % 2 ^ 32 then d.setFlag Reg.SCP_XP_STS 2 true
  else match d.xpHead with
  | none => d
  | some head =>
    if !hostOk then
      let d := ((d.setFlag Reg.SCP_XP_STS 0 false).setFlag Reg.SCP_XP_STS 3 true).setFlag Reg.SCP_XP_CTL 0 false
      d.recordErr 0xF57 0x0104 1 ((d.xpFirst + prod) % 2 ^ 32)
    else
      let num := d.xpFirst + prod
      let units := d.segOf num
      let d : Dev := { d with draws := d.draws + 256 }
      let d := (d.emit (.captureSegment head (prod % slots) (d.get64 Reg.SCP_XP_RING_LO Reg.SCP_XP_RING_HI + 2 ^ 20 * (prod % slots)) num units)).setReg
        Reg.SCP_XP_PROD (w32 (prod + 1))
      if prod + 1 < d.fld Reg.SCP_XP_NSEG 16 0 then d
      else (((d.setFlag Reg.SCP_XP_STS 0 false).setFlag Reg.SCP_XP_STS 1 true).setFlag Reg.SCP_XP_CTL 0 false).raise 0xF57 3
def execCaptureExportSegment (hostOk : Bool) (s : State) : Host.Outcome State Fault Refusal := act s (doCaptureExportSegment hostOk)

/-- SCP_XP_CONS_WRITE (R484, R164). -/
def doScpXpConsWrite (v : Word) (d : Dev) : Dev :=
  regWrite d Reg.SCP_XP_CONS v (fun new d =>
    let d := d.setReg Reg.SCP_XP_CONS new
    if (d.fld Reg.SCP_XP_PROD 31 0 + 2 ^ 32 - new.toNat) % 2 ^ 32 < d.fld Reg.SCP_XP_SLOTS 15 0 then d.setFlag Reg.SCP_XP_STS 2 false else d)
def execScpXpConsWrite (v : Word) (s : State) : Host.Outcome State Fault Refusal := act s (doScpXpConsWrite v)

/-! ### The control of replay (R485, R488) -/

/-- The first condition of R485 that fails. -/
def Dev.rpReason (d : Dev) : Option Nat :=
  if !d.flag Reg.GLB_STRAP 1 then some 1
  else if d.cap.key.isNone then some 2
  else if d.slices.any (fun (kv : Nat × Slice) => kv.2.bound) then some 3
  else if d.twin = 3 then some 4
  else none

/-- Replay mode begins (R485): the flash lanes and the Gulon link go to electrical idle, and no bridge is owned. -/
def Dev.rpBegin (d : Dev) : Dev :=
  let d := (d.setReg Reg.SCP_RP_STS 1).setReg Reg.SCP_RP_CONS 0
  let d := d.set64 Reg.SCP_RP_DIV_LO Reg.SCP_RP_DIV_HI 0
  let d := (List.range 512).foldl (fun (d : Dev) p => (if d.portGone p then d else d.setLstate p 0).setFld (Reg.FCH_P_STS p) 4 3 0) d
  let d := d.linkDown
  { d with rp := { ckpt := false, loaded := false, seen := d.out.length } }

/-- A write of SCP_RP_CTL: EN = 1 starts replay under R485, EN = 0 ends it, GO resumes a paused replay. -/
def rpCtl (v : Word) (d : Dev) : Dev :=
  regWrite d Reg.SCP_RP_CTL v (fun new d =>
    let was := d.flag Reg.SCP_RP_CTL 0
    let d :=
      if bitAt new 0 ∧ !was then
        match d.rpReason with
        | some n => d.recordErr 0xF57 0x0102 n 0
        | none => (d.setFlag Reg.SCP_RP_CTL 0 true).rpBegin
      else if !bitAt new 0 ∧ was then
        ((d.setFlag Reg.SCP_RP_CTL 0 false).setFlag Reg.SCP_RP_STS 0 false).setFlag Reg.SCP_RP_STS 1 false
      else d
    if bitAt v 1 then d.setFlag Reg.SCP_RP_STS 1 false else d)

/-- REPLAY_START (R485). -/
def doReplayStart (v : Word) (d : Dev) : Dev := rpCtl v d
def execReplayStart (v : Word) (s : State) : Host.Outcome State Fault Refusal := act s (doReplayStart v)

/-- REPLAY_PAUSE (R488): the clock reaches SCP_RP_STOP. -/
def doReplayPause (d : Dev) : Dev :=
  if d.flag Reg.SCP_RP_STS 0 && !d.flag Reg.SCP_RP_STS 1 && d.tick == d.get64 Reg.SCP_RP_STOP_LO Reg.SCP_RP_STOP_HI then
    (d.setFlag Reg.SCP_RP_STS 1 true).raise 0xF57 4
  else d
def execReplayPause (s : State) : Host.Outcome State Fault Refusal := act s doReplayPause

/-- GO (R488). -/
def doGo (v : Word) (d : Dev) : Dev := rpCtl v d
def execGo (v : Word) (s : State) : Host.Outcome State Fault Refusal := act s (doGo v)

/-- SCP_RP_PROD_WRITE (R486): Puano has placed segments. -/
def doScpRpProdWrite (v : Word) (d : Dev) : Dev := regWrite d Reg.SCP_RP_PROD v (fun new d => d.setReg Reg.SCP_RP_PROD new)
def execScpRpProdWrite (v : Word) (s : State) : Host.Outcome State Fault Refusal := act s (doScpRpProdWrite v)

end Sys2Proof.Machine
end

