-- ==== Sys2Proof/Machine/Boundary.lean ====
section
/-! DEFINITION. The trick-group boundary: what every chapter says happens there. -/

namespace Sys2Proof.Machine

/-- The pending shares of R146 become active. -/
def Dev.sharesApply (d : Dev) : Dev :=
  let ss := d.slices.filter (fun (kv : Nat × Slice) => kv.2.pendShare)
  if ss.isEmpty then d
  else (ss.foldl (fun (d : Dev) kv =>
    d.setSlice kv.1 { kv.2 with shareAct := kv.2.share, tshareAct := kv.2.tshare, pendShare := false }) d).sliceSums

/-- Settings that take effect at the boundary (R250, R358; chapters 11 and 13). -/
def Dev.settingsApply (d : Dev) : Dev :=
  { d with
    clsNow := d.reg Reg.DLR_CLS_W, ageNow := d.reg Reg.DLR_AGE, susNow := d.reg Reg.DLR_SUS_CTL
    rbNow := d.reg Reg.SHF_RB_CTL, hbCtl := d.reg Reg.TWN_HB_CTL }.crApply

/-- A port's load of the group that ends, in 1/1,024 of its 131,072 lane ticks. -/
def loadOf (ticks : Nat) : Nat := min 1024 (ticks / 128)

/-- The lane ticks dealt on a port in the group: of the direction with more of them (log 79). -/
def Port.laneTicks (x : Port) : Nat := max x.dealt x.dealtRx

/-- The loads of the group that ends (R248): each port's load and its TRUMP part are published, DLR_LOAD takes the average over the
ports that are ON and the highest, and each port gives a PORT_LOAD sample. -/
def Dev.loads (d : Dev) : Dev :=
  let on := (List.range 512).filter (fun p => d.domSt (p / 8) == 0 && !d.portGone p)
  let d := on.foldl (fun (d : Dev) p => d.score 12 (loadOf (d.port p).laneTicks) none none (some (p / 8))) d
  let ls := on.map (fun p => loadOf (d.port p).laneTicks)
  let dev := if on.isEmpty then 0 else sumL ls * 100 / (1024 * on.length)
  let d := d.setReg Reg.DLR_LOAD (w32 (dev + 2 ^ 8 * (ls.foldl max 0 * 100 / 1024)))
  let ps := d.ports.map (fun (kv : Nat × Port) =>
    (kv.1, { kv.2 with load := loadOf kv.2.laneTicks, trumpLd := loadOf kv.2.trump, dealt := 0, dealtRx := 0, trump := 0 }))
  { d with ports := ps.filter (fun (kv : Nat × Port) => kv.2 != Port.reset) }

/-- A follower asks its leader for one exchange (R229). -/
def Dev.timeAsk (d : Dev) : Dev :=
  if d.timeLink && !d.flag Reg.DLR_TIME_STS 4 then d.sendGulon 0x30 [f64 (1000 * d.tick)] else d

/-- TRICK_GROUP_BOUNDARY (R146, R202, R208, R218, R225, R227 to R229, R248, R250, R339, R358, R412, R433, R467, R469, R481, R510): the
count is at the next multiple of 131,072. -/
def doTrickGroupBoundary (d : Dev) : Dev :=
  if 3 ≤ d.mode then d
  else
    let t := if d.tick % 131072 = 0 ∧ d.tick ≠ d.tgTick then d.tick else (d.tick / 131072 + 1) * 131072
    let d := if t = d.tick then d else d.endTrick t
    let stepped := d.stepPend.isSome && d.coarse && d.flag Reg.DLR_TIME_CTL 2
    let d := d.timeRole.stepTick
    let d := d.sharesApply.settingsApply
    let d := d.loads
    let d := d.score 11 d.usedSlots none none none
    let d := (d.respace.setFld Reg.MAP_SLC_TGT 22 0 d.nSlcOf).rbCounts
    let d := if d.nvm.formatted then d.healthEval else d
    let d := (List.range 64).foldl (fun (d : Dev) g => d.floorCheck g) d
    let d := (List.range 256).foldl (fun (d : Dev) b => d.bankBoundary stepped b) d
    let d := if d.bmClear.any (fun x => decide (x.2 + 64 * 131072 ≤ d.tick)) then doBitmapClearFlush d else d
    let d := d.timeAsk
    { d with tgTick := d.tick, cap := { d.cap with groups := d.cap.groups + 1 } }
def execTrickGroupBoundary (s : State) : Host.Outcome State Fault Refusal := act s doTrickGroupBoundary

end Sys2Proof.Machine
end

