-- ==== Sys2Proof/Machine/Export.lean ====
section
/-! DEFINITION. The export of a slice's range, record by record (R161 to R168). -/

namespace Sys2Proof.Machine

/-- A granule counts as mapped: its entry is, or a visible version in the cache holds more than filled blocks (R214). -/
def Dev.holdsData (d : Dev) (s g : Nat) : Bool :=
  (d.ent s g).loc.isSome || (d.versOf s g).any (fun v => v.posted && v.blks.any (fun kb => !kb.2.filled))

/-- The granules of the next record: from the first one at or above the cursor that holds data, up to 31 in a row,
below END (R161). -/
def Dev.exportRun (d : Dev) (s first stop : Nat) : Nat × Nat :=
  let gs := (List.range (stop / 8 - first / 8)).map (fun i => first / 8 + i)
  let rest := gs.dropWhile (fun g => !d.holdsData s g)
  ((rest.head?).getD (stop / 8), ((rest.take 31).takeWhile (fun g => d.holdsData s g)).length)

/-- What a record carries of one block: its data page, its seal and whether it is poisoned (R162, R163).  Every block's seal is checked first;
the guard covers the plaintext, so with PLAIN = 0 it can be checked only while the block's key context is there, and the reference tag and
VERSION always (DEDUCED, log 214). -/
def Dev.exportBlk (d : Dev) (s lba : Nat) (plain : Bool) (b : Blk) (outs : List (Nat × CwOut)) : Nat × Nat × Bool :=
  if outs.any (fun o => o.1 == lba && o.2 == .lost) then (0, 0, true)
  else if b.poison then (0, b.sl.word, true)
  else if b.sl.reftag != refTag s lba || b.sl.version != 1 then (0, b.sl.word, true)
  else if d.keyOk s b then
    if d.tagBad s lba b || d.sealOff s lba b then (0, b.sl.word, true)
    else (if plain then d.plainOf s lba b else b.data, b.sl.word, false)
  else if plain then (0, b.sl.word, true)
  else (b.data, b.sl.word, false)

/-- A record as bytes: Table VSL-6, with its CRC. -/
def exportBytes (plain last : Bool) (s n seqNo lba tick epoch : Nat) (blks : List (Nat × Nat × Bool)) : Nat :=
  let flags := plain.toNat + 2 * last.toNat
  let ix := (List.range blks.length).zip blks
  let poison := ix.foldl (fun a x => if x.2.2.2 then a + 2 ^ x.1 else a) 0
  let seals := ix.foldl (fun a x => a + 2 ^ (8 * (0x80 + 16 * x.1)) * x.2.2.1) 0
  let data := ix.foldl (fun a x => a + 2 ^ (8 * (0x1000 + 0x1000 * x.1)) * x.2.1) 0
  let body := 0x4C455852 + 2 ^ 32 * 1 + 2 ^ 48 * flags + 2 ^ 64 * s + 2 ^ 80 * n + 2 ^ 128 * seqNo + 2 ^ 192 * lba +
    2 ^ 256 * tick + 2 ^ 320 * epoch + 2 ^ 384 * poison + seals + data
  body + 2 ^ 960 * crc64 (toBytes body (0x1000 + 0x1000 * blks.length))

/-- Move the export's cursor. -/
def Dev.exportCursor (d : Dev) (lba : Nat) : Dev :=
  { d.set64 Reg.VSL_EXP_CUR_LO Reg.VSL_EXP_CUR_HI lba with exp := { d.exp with cursor := lba } }

/-- What an export's record holds credit for. -/
def exportUnit : Nat := 2 ^ 81

/-- The export's units leave INFLIGHT (R143, R166), and the record's credit is free. -/
def Dev.exportFree (d : Dev) : Dev :=
  let s := d.fld Reg.VSL_EXP_CTL 13 4
  ({ d.setSlice s { d.slice s with inflight := (d.slice s).inflight - d.exp.units } with exp := { d.exp with units := 0 } } : Dev).freeCredit (fun u => u == exportUnit)

/-- The export ends: DONE unless it was stopped (R168). -/
def Dev.exportOver (d : Dev) (done : Bool) : Dev :=
  let d := ((d.setFlag Reg.VSL_EXP_STS 0 false).setFlag Reg.VSL_EXP_CTL 0 false)
  if done then (d.setFlag Reg.VSL_EXP_STS 1 true).raise 0x301 2 else d

/-- A host memory failure on the ring ends the export with FAULT (R168). -/
def Dev.exportFault (d : Dev) : Dev :=
  let s := d.fld Reg.VSL_EXP_CTL 13 4
  let d := (d.dropOwned (2 ^ 64 + d.exp.seqNo)).exportFree
  let d := ((d.setFlag Reg.VSL_EXP_STS 0 false).setFlag Reg.VSL_EXP_STS 3 true).setFlag Reg.VSL_EXP_CTL 0 false
  ({ d with exp := { d.exp with cur := none } }.recordErr 0x301 0x0104 s 1).raise 0x301 3

/-- Begin the record of granules `g0` on (R161, R165, R166): the tick of its first read, its granules read as they now stand, its units dispatched as
far as the share admits; the others follow as these finish. -/
def Dev.exportBegin (d : Dev) (g0 n : Nat) : Dev :=
  let s := d.fld Reg.VSL_EXP_CTL 13 4
  let x := d.slice s
  let k := min (8 * n) (x.shareAct * 256 - x.inflight)
  let d := d.setSlice s { x with inflight := x.inflight + k }
  { d with exp := { d.exp with
    cur := some (g0, n, (lbasOf (8 * g0) (8 * n)).map (d.servedBlk s)), bad := [], tick := d.tick, epoch := d.epoch, units := k, cursor := 8 * (g0 + n) } }

/-- Write the record in progress to its slot (R161 to R164), its data having come. -/
def Dev.exportWrite (d : Dev) (g0 n : Nat) (blks : List Blk) : Dev :=
  let s := d.fld Reg.VSL_EXP_CTL 13 4
  let plain := d.flag Reg.VSL_EXP_CTL 1
  let slots := d.fld Reg.VSL_EXP_SLOTS 15 0
  let stop := d.get64 Reg.VSL_EXP_END_LO Reg.VSL_EXP_END_HI
  let lbas := lbasOf (8 * g0) (8 * n)
  let o := d.takeFlash (2 ^ 64 + d.exp.seqNo) s (d.wantFlash s (8 * g0) (8 * n)) ((List.range n).map (fun i => g0 + i))
  let d := o.2
  let lost := o.1 ++ d.exp.bad.map (fun i => (8 * g0 + i, CwOut.lost))
  let out := (lbas.zip blks).map (fun x => d.exportBlk s x.1 plain x.2 lost)
  let d := if plain then (lbas.filter (fun lba => !lost.any (fun x => x.1 == lba && x.2 == .lost))).foldl
    (fun d lba => d.decrypt s lba) d else d
  let last := decide (8 * (g0 + n) = stop)
  let r := exportBytes plain last s n d.exp.seqNo (8 * g0) d.exp.tick d.exp.epoch out
  let d := d.emit (.exportRecord (d.fld Reg.VSL_EXP_CTL 3 2) (d.exp.seqNo % slots)
    (d.get64 Reg.VSL_EXP_RING_LO Reg.VSL_EXP_RING_HI + 2 ^ 20 * (d.exp.seqNo % slots)) [r, 0x1000 + 0x8000 * n])
  let bad := (lbas.zip out).filter (fun x => x.2.2.2)
  let d := bad.foldl (fun d x => (d.inc Reg.VSL_EXP_POISON 1).incident 3 0 s x.1 (some s) (some x.1) none none) d
  let d := (d.setReg Reg.VSL_EXP_PROD (w32 (d.fld Reg.VSL_EXP_PROD 31 0 + 1))).exportFree
  let d := { d with exp := { d.exp with seqNo := d.exp.seqNo + 1, looked := false, cur := none } }.exportCursor (8 * (g0 + n))
  if last then d.exportOver true else if d.exp.stops then d.exportOver false else d

/-- EXPORT_RECORD (R143, R161 to R166, R168): the next record begins while the ring has room and the slice's share admits a unit, its flash reads are
queued at BULK, and with its data there it goes to its slot; `hostOk = false` is a host memory failure.  A record waits while its head is down
(DESIGN CHOICE, log 214). -/
def doExportRecord (hostOk : Bool) (d : Dev) : Dev :=
  let s := d.fld Reg.VSL_EXP_CTL 13 4
  let stop := d.get64 Reg.VSL_EXP_END_LO Reg.VSL_EXP_END_HI
  if !d.flag Reg.VSL_EXP_STS 0 || d.vslStop || d.mapHeld || d.stkHeld || !d.headUp (d.fld Reg.VSL_EXP_CTL 3 2) then d
  else
    match d.exp.cur with
    | some (g0, n, blks) =>
      let r := d.flashReads (2 ^ 64 + d.exp.seqNo) 3 s (d.wantFlash s (8 * g0) (8 * n)) ((List.range n).map (fun i => g0 + i))
      if !r.1 then r.2 else if !hostOk then d.exportFault else d.exportWrite g0 n blks
    | none =>
      if (d.fld Reg.VSL_EXP_PROD 31 0 + 2 ^ 32 - d.fld Reg.VSL_EXP_CONS 31 0) % 2 ^ 32 = d.fld Reg.VSL_EXP_SLOTS 15 0 then
        if d.flag Reg.VSL_EXP_STS 2 then d
        else (d.setFlag Reg.VSL_EXP_STS 2 true).raise 0x301 1
      else
        let run := d.exportRun s d.exp.cursor stop
        let g0 := run.1
        let n := run.2
        if n = 0 then (d.exportCursor stop).exportOver true
        else
          let gs := (List.range n).map (fun i => g0 + i)
          if !d.groupsOn s (lbasOf (8 * g0) (8 * n)) || !d.shareOpen s then d
          else
            let t := d.lookup s 3 (!d.exp.looked) gs
            if !t.1 then { t.2 with exp := { t.2.exp with looked := true } }
            else
              let t := t.2.takeCredit 3 (8 * n) exportUnit
              if !t.1 then t.2
              else
              let d := t.2.exportBegin g0 n
              let r := d.flashReads (2 ^ 64 + d.exp.seqNo) 3 s (d.wantFlash s (8 * g0) (8 * n)) gs
              if !r.1 then r.2
              else if !hostOk then d.exportFault
              else d.exportWrite g0 n (lbasOf (8 * g0) (8 * n) |>.map (d.servedBlk s))
def execExportRecord (hostOk : Bool) (s : State) : Host.Outcome State Fault Refusal := act s (doExportRecord hostOk)

end Sys2Proof.Machine
end

