-- ==== Sys2Proof/Machine/Regs.lean ====
section
/-! DEFINITION. Register pages (chapter 02): the header's own registers, the effect of a write to every register of BAR0 that has no
command of its own, selectors, publication, and the read of the clock. -/

namespace Sys2Proof.Machine

/-! ### The header (R45 to R52) -/

/-- Error 0x0001 when a write sets RSVD bits of a header register. -/
def Dev.headRsvd (d : Dev) (pg rel : Nat) (v rsv : Word) : Dev :=
  if v &&& rsv != 0 then d.recordErr pg 0x0001 rel 0 else d

/-- What a SOFT_RST resets beside the page's registers (R47, R190; chapters 10, 15 and 16). -/
def Dev.softExtra (d : Dev) (pg : Nat) : Dev :=
  if pg = 0x400 then ({ d.xbufClear with kek := none }).relevel
  else if pg = 0x601 then ({ d with crLim := Dev.reset.crLim }).crCounts
  else if pg = 0xD01 then
    let polReset (x : Dom) : Dom := { x with floor := Dom.reset.floor, tRet := Dom.reset.tRet, tOff := Dom.reset.tOff }
    { d with doms := (d.doms.map (fun kv => (kv.1, polReset kv.2))).filter (fun kv => kv.2 != Dom.reset) }
  else if pg = 0x100 then d.setI3c
  else if pg = 0x101 then (d.resizeCache 0).setFlag Reg.HIF_PWIN_STS 0 false
  else if pg = 0xEFF then d.nvmSts
  else if pg = 0xC00 then { d with pairKey := none }
  else if pg = 0xF57 then { d.ringFreed with cap := { d.ringFreed.cap with key := none, staged := 0, recs := [], rnum := 0 } }
  else if 0xF01 ≤ pg ∧ pg < 0xF57 then
    [0, 1, 2].foldl (fun (d : Dev) i => if 3 * (pg - 0xF01) + i < 256 then d.setBank (3 * (pg - 0xF01) + i) Bank.reset else d) d
  else d

/-- EN of a page changes; on an FCH port page EN = 0 takes the port out of service (R288): its sets become erased (R331, R337). -/
def Dev.setEn (d : Dev) (pg : Nat) (en : Bool) : Dev :=
  let before := d
  let d := d.setPage pg { d.page pg with en := en }
  match pagePort pg with
  | some p =>
    if before.portGone p || !d.portGone p then d
    else ((d.bmLogLost p).membersGone before (fun s => s.port == p) p).outCounts p
  | none => d

/-- A write of CTL (R46 to R48, R558): EN, FREEZE and ISOLATE take their values, SOFT_RST resets the page; a write that sets ISOLATE
or SOFT_RST while EN is 1 before or in the write, or STS.BUSY is 1, is refused with error 0x0003. -/
def ctlWrite (pg : Nat) (v : Word) (d : Dev) : Dev :=
  pageWrite d (pg * 0x1000 + 0x10) v (fun ok d =>
    let d := if ok then d else d.recordErr pg 0x0002 0x10 0
    let d := d.headRsvd pg 0x10 v 0xFFFFFFF0
    if !ok then d
    else if (bitAt v 1 || bitAt v 3) && ((d.page pg).en || bitAt v 0 || d.pageBusy pg) then d.recordErr pg 0x0003 v.toNat 0
    else
      let d := if bitAt v 0 != (d.page pg).en then d.setEn pg (bitAt v 0) else d
      let d := (d.setPage pg { d.page pg with freeze := bitAt v 2, isolate := bitAt v 3 }).incRelease.bankRelease pg
      if bitAt v 1 then (d.softClear pg).softExtra pg else d)

/-- A write of STS: 1 to ERR clears the five error registers and arms capture again (R45). -/
def stsWrite (pg : Nat) (v : Word) (d : Dev) : Dev :=
  pageWrite d (pg * 0x1000 + 0x14) v (fun _ d =>
    let d := if bitAt v 4 then
        d.setPage pg { d.page pg with err := false, errCode := 0, overflow := 0, info0 := 0, info1 := 0, errTick := 0 }
      else d
    d.headRsvd pg 0x14 v 0xFFFFFFE0)

/-- A write has changed a page's line or vector (R52): its message goes out if the line is asserted; a pending bit without a cause is
cleared. -/
def Dev.lineAgain (d : Dev) (pg : Nat) : Dev := (if (d.page pg).line then d.pageMsix pg else d).pbaSettle

/-- The bits of INT_EN and INT_PEND that a page's block implements. -/
def intMask (pg : Nat) : Word := w32 (2 ^ intBits (pageBlock pg) - 1)

/-- A write of INT_EN. -/
def intEnSet (pg : Nat) (v : Word) (d : Dev) : Dev :=
  pageWrite d (pg * 0x1000 + 0x24) v (fun _ d =>
    let d := d.headRsvd pg 0x24 v (~~~(intMask pg))
    (d.setPage pg { d.page pg with intEn := v &&& intMask pg }).lineAgain pg)

/-- A write of INT_PEND. -/
def intPendW1c (pg : Nat) (v : Word) (d : Dev) : Dev :=
  pageWrite d (pg * 0x1000 + 0x28) v (fun _ d =>
    let d := d.headRsvd pg 0x28 v (~~~(intMask pg))
    (d.setPage pg { d.page pg with intPend := (d.page pg).intPend &&& ~~~v }).lineAgain pg)

/-- A write of INT_VEC. -/
def intVecSet (pg : Nat) (v : Word) (d : Dev) : Dev :=
  pageWrite d (pg * 0x1000 + 0x2C) v (fun _ d =>
    let d := d.headRsvd pg 0x2C v 0xFFFFFFE0
    (d.setPage pg { d.page pg with vecSet := some (bits v 4 0) }).lineAgain pg)

/-- A write of LOCK (R50). -/
def lockSet (pg : Nat) (v : Word) (d : Dev) : Dev :=
  pageWrite d (pg * 0x1000 + 0x44) v (fun _ d =>
    if v = 0x4C4D0001 then d.setPage pg { d.page pg with unlocked := true } else d.lockPage pg)

/-- A write of CHK_CNT. -/
def chkCntSet (pg : Nat) (v : Word) (d : Dev) : Dev :=
  pageWrite d (pg * 0x1000 + 0x48) v (fun _ d => d.setPage pg { d.page pg with chkCnt := v })

/-- A write to any header register. -/
def headerWrite (pg rel : Nat) (v : Word) (d : Dev) : Dev :=
  match rel with
  | 0x10 => ctlWrite pg v d
  | 0x14 => stsWrite pg v d
  | 0x24 => intEnSet pg v d
  | 0x28 => intPendW1c pg v d
  | 0x2C => intVecSet pg v d
  | 0x44 => lockSet pg v d
  | 0x48 => chkCntSet pg v d
  | _ =>
    let rsv : Word :=
      if rel = 0x04 then 0xFF else if rel = 0x08 then 0x00FC0000 else if rel = 0x1C ∨ 0x4C ≤ rel then 0xFFFFFFFF
      else if rel = 0x20 then ~~~(intMask pg) else 0
    pageWrite d (pg * 0x1000 + rel) v (fun _ d => d.headRsvd pg rel v rsv)

/-- ERR_CLEAR (R45). -/
def doErrClear (page : Nat) (d : Dev) : Dev := stsWrite page 0x10 d
def execErrClear (page : Nat) (s : State) : Host.Outcome State Fault Refusal := act s (doErrClear page)

/-- CTL_EN (R46, R558, R288). -/
def doCtlEn (page : Nat) (v : Word) (d : Dev) : Dev := ctlWrite page v d
def execCtlEn (page : Nat) (v : Word) (s : State) : Host.Outcome State Fault Refusal := act s (doCtlEn page v)

/-- SOFT_RST (R47, R48). -/
def doSoftRst (page : Nat) (v : Word) (d : Dev) : Dev := ctlWrite page v d
def execSoftRst (page : Nat) (v : Word) (s : State) : Host.Outcome State Fault Refusal := act s (doSoftRst page v)

/-- SOFT_RST_DONE (R47). -/
def doSoftRstDone (page : Nat) (d : Dev) : Dev :=
  if (d.page page).softRst then d.setPage page { d.page page with softRst := false } else d
def execSoftRstDone (page : Nat) (s : State) : Host.Outcome State Fault Refusal := act s (doSoftRstDone page)

/-- FREEZE (R46). -/
def doFreeze (page : Nat) (v : Word) (d : Dev) : Dev := ctlWrite page v d
def execFreeze (page : Nat) (v : Word) (s : State) : Host.Outcome State Fault Refusal := act s (doFreeze page v)

/-- ISOLATE (R46, R48). -/
def doIsolate (page : Nat) (v : Word) (d : Dev) : Dev := ctlWrite page v d
def execIsolate (page : Nat) (v : Word) (s : State) : Host.Outcome State Fault Refusal := act s (doIsolate page v)

/-- LOCK_WRITE (R50, R190). -/
def doLockWrite (page : Nat) (v : Word) (d : Dev) : Dev := lockSet page v d
def execLockWrite (page : Nat) (v : Word) (s : State) : Host.Outcome State Fault Refusal := act s (doLockWrite page v)

/-- LOCK_TIMEOUT (R50): 2^20 ticks have passed with no write to the page. -/
def doLockTimeout (page : Nat) (d : Dev) : Dev :=
  if (d.page page).unlocked && !d.unlocked page then d.lockPage page else d
def execLockTimeout (page : Nat) (s : State) : Host.Outcome State Fault Refusal := act s (doLockTimeout page)

/-- INT_PEND_CLEAR (R51, R52). -/
def doIntPendClear (page : Nat) (v : Word) (d : Dev) : Dev := intPendW1c page v d
def execIntPendClear (page : Nat) (v : Word) (s : State) : Host.Outcome State Fault Refusal := act s (doIntPendClear page v)

/-- INT_EN_WRITE (R52). -/
def doIntEnWrite (page : Nat) (v : Word) (d : Dev) : Dev := intEnSet page v d
def execIntEnWrite (page : Nat) (v : Word) (s : State) : Host.Outcome State Fault Refusal := act s (doIntEnWrite page v)

/-- INT_VEC_WRITE (R52). -/
def doIntVecWrite (page : Nat) (v : Word) (d : Dev) : Dev := intVecSet page v d
def execIntVecWrite (page : Nat) (v : Word) (s : State) : Host.Outcome State Fault Refusal := act s (doIntVecWrite page v)

/-! ### Settings -/

/-- The code under which a block refuses a setting (Tables MAP-9 to SCP-9). -/
def settingCode (off : Nat) : Nat :=
  match off / 0x100000 with
  | 4 => 0x0108
  | 6 => 0x0102
  | 12 => 0x0105
  | 13 => 0x0106
  | 14 => 0x0108
  | _ => 0x0100

/-- FLOOR and CEIL of STK_CR_LIM as written, in MiB. -/
def Dev.crWritten (d : Dev) (c : Nat) : Nat × Nat := (d.fld (Reg.STK_CR_LIM c) 15 0, d.fld (Reg.STK_CR_LIM c) 31 16)

/-- A limit of class `c` that R358 allows: FLOOR ≤ CEIL ≤ 16,384 MiB, and SHARED stays at 2,048 MiB or more. -/
def Dev.limitOk (d : Dev) (c : Nat) (v : Word) : Bool :=
  let floors := sumL ((List.range 10).map (fun k => if k = c then bits v 15 0 else (d.crWritten k).1))
  decide (bits v 15 0 ≤ bits v 31 16) && decide (bits v 31 16 ≤ 16384) && decide (floors + 2048 ≤ d.poolPages / 256)

/-- A lane of a group in the half that a FCH_REFCLK register controls is not OFF although its bit would change (R289). -/
def Dev.refclkBusy (d : Dev) (base : Nat) (old new : Word) : Bool :=
  (List.range 32).any (fun i => bitAt old i != bitAt new i && (portsOf (base + i)).any (fun p => d.lstate p != 0))

/-- The value lies in the ranges that the register's table gives (R191, R223, R224, R250, R289, R320, R350, R358, R379, R412, R442,
R461, R489). -/
def Dev.settingOk (d : Dev) (off : Nat) (v : Word) : Bool :=
  let lim (hi lo a b : Nat) : Bool := decide (a ≤ bits v hi lo) && decide (bits v hi lo ≤ b)
  match off with
  | 0x4001C0 => lim 12 8 16 31 && !(d.flag Reg.CRY_POLICY 2 && !bitAt v 2 && d.ctxs.any (fun kv => kv.2.st == .valid && kv.2.mode == 2))
  | 0x500174 => lim 11 0 64 1984 && lim 27 16 64 1984 && decide (bits v 11 0 < bits v 27 16)
  | 0x501100 => lim 15 8 1 255 && lim 23 16 1 192 && decide (bits v 15 8 ≤ bits v 23 16)
  | 0x600140 => lim 15 8 1 64 && lim 31 16 1 65535
  | 0x700100 => lim 15 8 1 255
  | 0x701100 => lim 7 0 1 255 && lim 15 8 1 255 && lim 23 16 1 255
  | 0x701104 => lim 11 0 16 4095
  | 0x701108 => lim 3 0 0 8 && lim 15 8 1 64
  | 0x800800 => lim 7 0 1 255 && lim 15 8 2 255
  | 0x800804 => lim 15 0 5 1000
  | 0x800808 => !d.refclkBusy 0 (d.reg off) v
  | 0x80080C => !d.refclkBusy 32 (d.reg off) v
  | 0xA00104 => lim 7 0 1 100 && lim 15 8 1 184 && lim 23 16 1 184 && lim 31 24 1 184
  | 0xA00108 => lim 15 0 1 10000
  | 0xA0010C => lim 7 0 1 255
  | 0xA01100 => lim 23 16 1 255
  | 0xA02100 => lim 15 8 1 255 && (bits v 27 16 == 0 || lim 27 16 7 4095)
  | 0xA02120 => decide (d.fld Reg.ECC_DAY 15 0 ≤ bits v 15 0)
  | 0xB00104 => lim 15 0 50 50000
  | 0xB00114 => lim 3 0 1 15
  | 0xB01100 => lim 7 0 1 192 && lim 15 8 1 192 && lim 23 16 1 192
  | 0xC00100 => lim 15 8 1 255
  | 0xC01108 => lim 15 0 64 65535 && lim 31 16 50 65535
  | 0xD00130 => lim 7 0 60 105
  | 0xD02100 => lim 7 0 25 250
  | 0xEFF110 => lim 3 0 1 8 && lim 7 4 0 2
  | 0xF57108 => lim 15 0 64 65535
  | 0xF5718C => lim 15 0 2 65535
  | 0xF57198 => lim 16 0 1 65536
  | 0xF571CC => lim 15 0 2 65535
  | _ =>
    if 0x601140 ≤ off ∧ off ≤ 0x601180 ∧ off % 8 = 0 then d.limitOk ((off - 0x601140) / 8) v else true

/-- The HBM error log entry that a write of ECC_HBM_ELOG_SEL copies (Table ECC-11). -/
def Dev.elogCopy (d : Dev) (n : Nat) : Dev :=
  let e : HbmErr := (d.hbmLog[n]?).getD { off := 0, ue := false, repaired := false, retired := false, tick := 0, epoch := 0 }
  let d := (d.setReg Reg.ECC_HBM_ELOG0 (w32 e.off)).setReg Reg.ECC_HBM_ELOG1
    (w32 (e.off / 2 ^ 32 % 64 + 2 ^ 8 * e.ue.toNat + 2 ^ 9 * e.repaired.toNat + 2 ^ 10 * e.retired.toNat))
  (d.setReg Reg.ECC_HBM_ELOG2 (w32 e.tick)).setReg Reg.ECC_HBM_ELOG3 (w32 (e.epoch % 2 ^ 16 + e.tick / 2 ^ 32 % 2 ^ 16 * 2 ^ 16))

/-- The failed pin that a write of TST_PIN_SEL copies (Table TST-1). -/
def Dev.pinCopy (d : Dev) (n : Nat) : Dev :=
  let x := (d.pins[n]?).getD (0, 0)
  d.setReg Reg.TST_PIN_RES (w32 (x.1 % 2 ^ 12 + 2 ^ 12 * (x.2 % 16) + 2 ^ 16 * d.pins.length))

/-- What a register's new value does beside being stored. -/
def Dev.afterStore (d before : Dev) (off : Nat) (new : Word) : Dev :=
  match off with
  | 0x100100 => { d with nvm := { d.nvm with bifCfg := bits new 1 0 } }
  | 0x4001C0 => d.relevel
  | 0x501100 => d.respace
  | 0x501110 => d.respace
  | 0xA03130 => d.elogCopy (bits new 9 0)
  | 0xC00100 => if before.flag Reg.TWN_LINK_CTL 0 && !bitAt new 0 then d.linkDown.timeRole else d
  | 0xD00108 => d.setFlag Reg.PWR_WAKE_EN 0 true
  | 0xEFF120 => d.nvmSts
  | 0xF00108 => d.incSelect (bits new 11 0)
  | 0x1000168 => d.pinCopy (bits new 11 0)
  | _ => d

/-- A write to a register that only holds a setting, a count or a selection: refused outside the ranges of its table. -/
def settingWrite (off : Nat) (v : Word) (d : Dev) : Dev :=
  regWrite d off v (fun new d =>
    if d.settingOk (canonOff off) new then (storeReg off new d).afterStore d (canonOff off) new
    else d.recordErr (off / 0x1000) (settingCode off) (off % 0x1000) v.toNat)

/-- SEG_LBA (R83): only while the segment is not ACTIVE. -/
def segLbaWrite (n off : Nat) (v : Word) (d : Dev) : Dev :=
  regWrite d off v (fun new d =>
    if d.segActive n && new != d.reg off then d.recordErr 0x101 0x0103 (off % 0x1000) v.toNat else storeReg off new d)

/-- VSL_SL_PASID, VSL_SL_PIN, VSL_SL_HDRM and VSL_SL_BLOB of the selected slice (R142, R144, R167). -/
def sliceSetWrite (off : Nat) (v : Word) (d : Dev) : Dev :=
  regWrite d off v (fun _ d =>
    let s := d.ssel
    let x := d.slice s
    let refuse (d : Dev) : Dev := d.recordErr 0x300 0x0103 s (off % 0x1000)
    match off with
    | 0x300108 =>
      if bits v 19 0 ≠ x.pasid ∧ x.st ≠ .unbound ∧ x.st ≠ .frozen then refuse d else d.setKept s { x with pasid := bits v 19 0 }
    | 0x30011C =>
      if 720896 < sumL (d.slices.map (fun kv => kv.2.pin)) - x.pin + bits v 20 0 then refuse d
      else (d.setKept s { x with pin := bits v 20 0 }).sliceSums
    | 0x300120 => d.setKept s { x with hdrm := bits v 23 0 }
    | 0x300138 => d.setSlice s { x with blob := x.blob / 2 ^ 32 * 2 ^ 32 + v.toNat / 2048 * 2048 }
    | 0x30013C => d.setSlice s { x with blob := x.blob % 2 ^ 32 + v.toNat * 2 ^ 32 }
    | _ => d)

/-- The ring, START and END registers of the export change only while RUNNING = 0 (R168). -/
def expSetWrite (off : Nat) (v : Word) (d : Dev) : Dev :=
  if d.flag Reg.VSL_EXP_STS 0 then
    regWrite d off v (fun _ d => d.recordErr 0x301 0x0103 (d.fld Reg.VSL_EXP_CTL 13 4) (off % 0x1000))
  else settingWrite off v d

/-- A counter of the selected domain (Table PWR-13). -/
def domCountWrite (off : Nat) (v : Word) (d : Dev) : Dev :=
  regWrite d off v (fun _ d =>
    let x := d.dom d.dsel
    if off = Reg.PWR_DOM_WAKES then d.setDom d.dsel { x with wakes := v.toNat }
    else d.setDom d.dsel { x with wakeMax := bits v 11 0 })

/-- SB_FILT and SB_WIN of a bank change only while EN = 0 (R470, R489). -/
def bankSetWrite (b r off : Nat) (v : Word) (d : Dev) : Dev :=
  regWrite d off v (fun new d =>
    let ok := !d.flag (Reg.SB_CFG b) 0 &&
      (if r = 8 then d.fld (Reg.SB_CFG b) 15 8 == 0 || filterOk (d.fld (Reg.SB_CFG b) 15 8) new else 1 ≤ bits new 15 0)
    if ok ∨ new = d.reg off then d.setReg off new else d.recordErr (off / 0x1000) 0x0100 (off % 0x1000) v.toNat)

/-- A key register other than the last one of its key (R190). -/
def keyWrite (off : Nat) (v : Word) (d : Dev) : Dev :=
  regWrite d off v (fun _ d =>
    match off / 0x1000 with
    | 0x400 => d.kekWrite ((off - 0x400180) / 4) v
    | 0xF57 => d.capkeyWrite ((off - 0xF57140) / 4) v
    | _ => d.setReg off v)

/-- A write of FCH_P_SVC: RECOMMISSION and RETRAIN. -/
def svcWrite (p : Nat) (v : Word) (d : Dev) : Dev :=
  if bitAt v 0 && bitAt v 1 && (d.page (0x800 + p)).en then doRetrain p (v &&& 2) (doRecommission p (v &&& 1) d)
  else if bitAt v 0 then doRecommission p v d
  else doRetrain p v d

/-- A write of CRY_OP, by its OP (Table CRY-8). -/
def cryOpWrite (v : Word) (d : Dev) : Dev :=
  match bits v 3 0 with
  | 1 => doImportWrapped v d
  | 2 => doImportPlain v d
  | 3 => doExportWrapped v d
  | 4 => doSaveState v d
  | 5 => doRestoreState v d
  | 6 => doZeroise v d
  | 7 => doZeroiseSlice v d
  | _ => doCryOpInvalid v d

/-- A write of VSL_SL_OP, by its OP (Table VSL-2); SAVE and RESTORE, whose outcome is an operand of their commands, are theirs. -/
def slOpWrite (v : Word) (d : Dev) : Dev :=
  match bits v 3 0 with
  | 2 => doSliceFreeze v d
  | 3 => doSliceThaw v d
  | 4 => if bits v 31 16 = 0x5653 then d else doSliceReset v d
  | 5 => if bits v 31 16 = 0x5653 then d else doSliceReset v d
  | 6 => doSliceClear v d
  | _ => doSliceReset v d

/-! ### The write of any register -/

/-- A 32-bit write to an aligned offset of a register window, at or above 0x100 of its page: a register with a command of its own
acts as that command says. -/
def bodyWrite (off : Nat) (v : Word) (d : Dev) : Dev :=
  let pg := off / 0x1000
  let rel := off % 0x1000
  match bankAt off with
  | some br => if br.2 = 4 then doSbCfgWrite br.1 v d else if br.2 = 8 ∨ br.2 = 0xC then bankSetWrite br.1 br.2 off v d else settingWrite off v d
  | none =>
    match pagePort pg with
    | some p => if rel = 0x160 then doLaneTestGo p v d else if rel = 0x170 then svcWrite p v d else settingWrite off v d
    | none =>
      match off with
      | 0x180 => rstCtl v 0 (fun d => d) d
      | 0x101100 => doPwinResize v d
      | 0x200104 => doCqeQCtlWrite off v d
      | 0x200108 => doCqeQCtlWrite off v d
      | 0x20010C => doCqeQCtlWrite off v d
      | 0x200110 => doCqeQCtlWrite off v d
      | 0x200114 => doCqeQCtlWrite off v d
      | 0x200128 => doCqeQRst v d
      | 0x300104 => slCtlWrite v d
      | 0x300108 => sliceSetWrite off v d
      | 0x30010C => doBlksLoWrite v d
      | 0x300110 => doBlksHiWrite v d
      | 0x300114 => doShareWrite v d
      | 0x30011C => sliceSetWrite off v d
      | 0x300120 => sliceSetWrite off v d
      | 0x300124 => slOpWrite v d
      | 0x300138 => sliceSetWrite off v d
      | 0x30013C => sliceSetWrite off v d
      | 0x301100 => expCtlWrite v d
      | 0x301114 => doExportConsWrite v d
      | 0x301104 => expSetWrite off v d
      | 0x301108 => expSetWrite off v d
      | 0x30110C => expSetWrite off v d
      | 0x301120 => expSetWrite off v d
      | 0x301124 => expSetWrite off v d
      | 0x301128 => expSetWrite off v d
      | 0x30112C => expSetWrite off v d
      | 0x400140 => cryOpWrite v d
      | 0x40019C => doKekSet v d
      | 0xA0110C => doEccRlSelWrite v d
      | 0xC0019C => doPairkeySet v d
      | 0xC01100 => doTwinLeave v d
      | 0xC01140 => doTwnSlMove v d
      | 0xD00100 => modeCtl v d
      | 0xD01104 => doPwrDomPolWrite v d
      | 0xD01108 => domOp v d
      | 0xD01110 => domCountWrite off v d
      | 0xD01114 => domCountWrite off v d
      | 0xEFF144 => doTryBoot v d
      | 0xF00104 => doScpIncClr v d
      | 0xF57100 => capCtl v d
      | 0xF5715C => doCapkeySet v d
      | 0xF57180 => xpCtl v d
      | 0xF571A0 => doScpXpConsWrite v d
      | 0xF571C0 => rpCtl v d
      | 0xF571D0 => doScpRpProdWrite v d
      | _ =>
        if pg = 0x101 ∧ 0x200 ≤ rel ∧ rel < 0x400 then
          let n := (rel - 0x200) / 0x10
          if rel % 0x10 = 0 then (d.segWrite n v).segRest n
          else if rel % 0x10 = 4 ∨ rel % 0x10 = 8 then segLbaWrite n off v d else settingWrite off v d
        else if pg = 0x102 ∧ rel < 0x500 then doSliceHeadWrite ((rel - 0x100) / 4) v d
        else if (pg = 0x400 ∧ 0x180 ≤ rel ∧ rel < 0x19C) ∨ (pg = 0xC00 ∧ 0x180 ≤ rel ∧ rel < 0x19C) ∨
            (pg = 0xF57 ∧ 0x140 ≤ rel ∧ rel < 0x15C) then keyWrite off v d
        else settingWrite off v d

/-- A 32-bit write to an aligned BAR0 offset. -/
def regWrite32 (off : Nat) (v : Word) (d : Dev) : Dev :=
  if off % 0x1000 < 0x100 ∧ pageExists (off / 0x1000) then headerWrite (off / 0x1000) (off % 0x1000) v d else bodyWrite off v d

/-- The firmware flash aperture (Table REG-2). -/
def inAperture (off : Nat) : Bool := decide (0xE00000 ≤ off) && decide (off < 0xE80000)

/-- The effect of a write of `size` bytes at an offset that lies outside the aperture (R40): 32 and 64 bits at aligned offsets, the
64-bit write as two, lower address first; a narrower write is dropped with error 0x0006. -/
def sizedWrite (off size value : Nat) (d : Dev) : Dev :=
  if size = 4 ∧ off % 4 = 0 then regWrite32 off (w32 value) d
  else if size = 8 ∧ off % 8 = 0 then regWrite32 (off + 4) (w32 (value / 2 ^ 32)) (regWrite32 off (w32 value) d)
  else if size = 1 ∨ size = 2 then pageWrite d off (w32 value) (fun _ d => d.recordErr (off / 0x1000) 0x0006 (off % 0x1000) 0)
  else d

/-- The effect of a write to the aperture: command cycles of the host port (R445, R447). -/
def apertureWrite (off size value : Nat) (d : Dev) : Dev :=
  let o := off - 0xE00000
  if size = 4 ∧ off % 4 = 0 then doUnlockCycle 0 o value d
  else if size = 8 ∧ off % 8 = 0 then doUnlockCycle 0 (o + 4) (value / 2 ^ 32) (doUnlockCycle 0 o value d)
  else if size = 1 ∨ size = 2 then pageAccess (d.capWrite 0 off (w32 value)) 0xEFF000 (fun _ d => d.recordErr 0xEFF 0x0006 o 0)
  else d

/-- The bytes such a write stores into the array. -/
def apertureStore (off size value : Nat) (d : Dev) : List (Nat × List Byte) :=
  let o := off - 0xE00000
  if size = 4 ∧ off % 4 = 0 then d.nStepStore 0 o (value % 2 ^ 32)
  else if size = 8 ∧ off % 8 = 0 then
    d.nStepStore 0 o (value % 2 ^ 32) ++ (doUnlockCycle 0 o value d).nStepStore 0 (o + 4) (value / 2 ^ 32 % 2 ^ 32)
  else []

/-! ### Reads (R37, R40, R57) -/

/-- The read of GLB_TIME_LO captures GLB_TIME_HI and GLB_TIME_EPOCH (R57). -/
def Dev.latchTime (d : Dev) : Dev :=
  { d with latHi := half32 true d.tick,
           latEpoch := w32 (d.epoch + 2 ^ 16 * d.coarse.toNat + 2 ^ 17 * d.fld Reg.DLR_TIME_STS 2 1) }

/-- One 32-bit read of BAR0: what it returns, and its effects: its capture record (R474), error 0x0007 outside every page (R37) and the
latch of R57. -/
def Dev.bar0Read32 (d : Dev) (off : Nat) : Word × Dev :=
  let v := d.bar0Read off
  let d := d.capRec 0x11 (4 * d.accessHead) [(4, off)]
  let d := if pageExists (off / 0x1000) then d else d.recordErr 0 0x0007 off 0
  (v, if off = 0x140 then d.latchTime else d)

/-- A word of the doorbell pages (R38, R39, R104; Table CQE-1). -/
def Dev.bar2Word (d : Dev) (off : Nat) : Word :=
  let q := d.queue (off / 0x1000 % 16384)
  match off % 0x1000 with
  | 0x000 => q.tailWr
  | 0x004 => q.headWr
  | 0x00C => w32 q.sts
  | 0x010 => w32 q.sqHead
  | 0x014 => w32 q.cqPosted
  | 0x018 => w32 q.outBits
  | _ => 0

/-- A word of BAR4: the MSI-X table at 0x0000 and the pending-bit array at 0x8000 (Table REG-1). -/
def Dev.bar4Word (d : Dev) (off : Nat) : Word :=
  if off < 0x8000 then SMap.get msixReset d.msixTbl (off / 4)
  else if off < 0x8100 then w32 (sumL ((d.pba.filter (fun v => v / 32 == (off - 0x8000) / 4)).map (fun v => 2 ^ (v % 32))))
  else 0

/-- A read of any size from a space of words (R40): 32 bits, 64 bits as two words, lower address first, and the addressed bytes of a
narrow read; another access returns 0. -/
def sizedRead (word : Nat → Dev → Word × Dev) (off size : Nat) (d : Dev) : Nat × Dev :=
  if size = 4 ∧ off % 4 = 0 then ((word off d).1.toNat, (word off d).2)
  else if size = 8 ∧ off % 8 = 0 then
    let lo := word off d
    let hi := word (off + 4) lo.2
    (lo.1.toNat + 2 ^ 32 * hi.1.toNat, hi.2)
  else if size = 1 ∨ (size = 2 ∧ off % 2 = 0) then
    let w := word (off / 4 * 4) d
    (w.1.toNat / 2 ^ (8 * (off % 4)) % 2 ^ (8 * size), w.2)
  else (0, d)

/-- What a read does: its value goes to the host. -/
def Dev.answer (r : Nat × Dev) : Dev := r.2.emit (.readData r.1)

/-! ### Configuration requests (R59, R62, R64, R71) -/

/-- A configuration request: retry status until release and during a reset, then answered.  Message control and the HDM decoder take a
write; a write to message control sends what was pending. -/
def Dev.cfgAccess (d : Dev) (a : HostAccess) : Dev :=
  let h := a.head % 4
  let i := a.off / 4
  if !d.headUp h then d
  else if !d.released || d.resetRun then d.emit (.configRetry h)
  else if a.rd then Dev.answer (sizedRead (fun o d => (if o < 64 then d.cfgReg h (o / 4) else 0, d)) a.off a.size d)
  else if a.size ≠ 4 ∨ a.off % 4 ≠ 0 ∨ 8 < i then d
  else if i = 0 then
    ({ d with cfg := SMap.set cfgReset d.cfg (16 * h) (putBits (d.cfgReg h 0) 15 14 (a.value / 2 ^ 14)) } : Dev).pbaFlush
  else if 4 ≤ i then { d with cfg := SMap.set cfgReset d.cfg (16 * h + i) (w32 a.value) }
  else d

/-! ### The row -/

/-- A write to a doorbell sub-page (R38, R39, R104): only an aligned 32-bit write acts. -/
def bar2Write (off size value : Nat) (d : Dev) : Dev :=
  let s := off / 0x10000 % 1024
  let q := off / 0x1000 % 16
  if size ≠ 4 then d
  else
    match off % 0x1000 with
    | 0x000 => doSqTailDbWrite s q (w32 value) d
    | 0x004 => doCqHeadDbWrite s q (w32 value) d
    | 0x008 => doQReset s q (w32 value) d
    | _ => d

/-- A write to BAR4: aligned 32-bit and 64-bit writes reach the MSI-X table. -/
def bar4Write (head off size value : Nat) (d : Dev) : Dev :=
  if size = 4 then doMsixTableWrite head off (w32 value) d
  else if size = 8 ∧ off % 8 = 0 then doMsixTableWrite head (off + 4) (w32 (value / 2 ^ 32)) (doMsixTableWrite head off (w32 value) d)
  else d

/-- A write to BAR0. -/
def bar0Write (off size value : Nat) (d : Dev) : Dev :=
  if 0x2000000 ≤ off then d
  else if inAperture off then apertureWrite off size value d
  else sizedWrite off size value d

/-- An access that came on a head: its capture records name the head. -/
def onHead (h : Nat) (f : Dev → Dev) (d : Dev) : Dev := { f { d with accHead := some h } with accHead := none }

/-- REGISTER_WRITE: an access of the host to a register space, a read (R37, R40) or a write (R42).  BAR0 and BAR4 complete with
Unsupported Request on a head on which they do not decode (R63), BAR2 while replay fences it (R485); until release and during a reset
BAR accesses are dropped (R59).  A read of the aperture is the row APERTURE_READ. -/
def doRegisterWrite (a : HostAccess) (d : Dev) : Dev :=
  let h := a.head % 4
  if a.space = .config then d.cfgAccess a
  else if !d.barUp || !d.headUp h then d
  else
    match a.space, a.rd with
    | .bar2, rd =>
      if d.rpFence then d.emit (.unsupportedRequest h)
      else if rd then Dev.answer (sizedRead (fun o d => (d.bar2Word o, d)) a.off a.size d)
      else bar2Write a.off a.size a.value d
    | .bar4, rd =>
      if !d.mgrOn h then d.emit (.unsupportedRequest h)
      else if rd then Dev.answer (sizedRead (fun o d => (d.bar4Word o, d)) a.off a.size d)
      else bar4Write h a.off a.size a.value d
    | _, true =>
      if !d.mgrOn h then d.emit (.unsupportedRequest h)
      else if 0x2000000 ≤ a.off ∨ inAperture a.off then d
      else onHead h (fun d => Dev.answer (sizedRead (fun o d => d.bar0Read32 o) a.off a.size d)) d
    | _, false => if !d.mgrOn h then d.emit (.unsupportedRequest h) else onHead h (bar0Write a.off a.size a.value) d

/-- The bytes that a write through the aperture stores into the array. -/
def accessStore (a : HostAccess) (d : Dev) : List (Nat × List Byte) :=
  if a.space = .bar0 ∧ a.rd = false ∧ inAperture a.off ∧ d.pgMain ∧ d.barUp ∧ d.mgrOn (a.head % 4) then
    apertureStore a.off a.size a.value d
  else []

def execRegisterWrite (a : HostAccess) (s : State) : Host.Outcome State Fault Refusal :=
  if a.space = .bar0 ∧ a.rd = false ∧ inAperture a.off then
    actArray s (fun _ d => if d.pgMain then doRegisterWrite a d else d) (fun _ d => accessStore a d)
  else act s (doRegisterWrite a)

/-- The offset is a selector register (R559). -/
def isSelector (off : Nat) : Bool := !(selectorGroup off).isEmpty

/-- SELECTOR_WRITE (R134, R559): the group presents the newly selected instance. -/
def doSelectorWrite (off : Nat) (v : Word) (d : Dev) : Dev := if isSelector off then bodyWrite off v d else d
def execSelectorWrite (off : Nat) (v : Word) (s : State) : Host.Outcome State Fault Refusal := act s (doSelectorWrite off v)

/-! ### Publication and the clock (R54, R57) -/

/-- SNAPSHOT_PUBLISH (R54): changes of covered registers, at least four tricks after the last publication. -/
def doSnapshotPublish (page : Nat) (d : Dev) : Dev := if pageExists page then d.publishPage page else d
def execSnapshotPublish (page : Nat) (s : State) : Host.Outcome State Fault Refusal := act s (doSnapshotPublish page)

/-- GLB_TIME_READ (R57): GLB_TIME_HI and GLB_TIME_EPOCH are captured at the tick that GLB_TIME_LO reads. -/
def doGlbTimeRead (d : Dev) : Dev :=
  if d.barUp then Dev.answer (sizedRead (fun o d => d.bar0Read32 o) 0x140 4 d) else d
def execGlbTimeRead (s : State) : Host.Outcome State Fault Refusal := act s doGlbTimeRead

end Sys2Proof.Machine
end

