-- ==== Sys2Proof/Machine/Replay.lean ====
section
/-! DEFINITION. Bench replay: what one record of Table SCP-5 does (R486 to R488). -/

namespace Sys2Proof.Machine

/-- Word `i` of a record's body. -/
def rpWord (r : RpRecord) (i : Nat) : Nat := r.words.getD i 0

/-! ### Reading the ring -/

/-- Records are taken: replay runs, it is not paused or at its end, and Puano has placed a segment not yet consumed. -/
def Dev.rpReady (d : Dev) : Bool :=
  d.flag Reg.SCP_RP_STS 0 && !d.flag Reg.SCP_RP_STS 1 && !d.flag Reg.SCP_RP_STS 3 && !d.scpStop && d.reg Reg.SCP_RP_PROD != d.reg Reg.SCP_RP_CONS

/-- The record is the last one of its segment: the segment is consumed. -/
def Dev.rpConsume (r : RpRecord) (d : Dev) : Dev := if r.last then d.setReg Reg.SCP_RP_CONS (d.reg Reg.SCP_RP_CONS + 1) else d

/-- Replay diverges (R487): it pauses at the RNUM, with RP_DIV and error 0x0103. -/
def Dev.rpDiverge (d : Dev) (rnum cond : Nat) : Dev :=
  let d := (d.setFlag Reg.SCP_RP_STS 2 true).setFlag Reg.SCP_RP_STS 1 true
  ((d.set64 Reg.SCP_RP_DIV_LO Reg.SCP_RP_DIV_HI rnum).raise 0xF57 5).recordErr 0xF57 0x0103 (rnum % 2 ^ 32) cond

/-- Do `f` with the fence of R485 out of the way: an injected host input acts as if it had arrived on its head. -/
def Dev.unfenced (d : Dev) (f : Dev → Dev) : Dev :=
  let was := d.flag Reg.SCP_RP_STS 0
  (f (d.setFlag Reg.SCP_RP_STS 0 false)).setFlag Reg.SCP_RP_STS 0 was

/-! ### Checkpoints (R481, R486) -/

/-- A slice state by its code in VSL_SL_STS. -/
def sliceStOf (n : Nat) : SliceSt :=
  match n with
  | 1 => .active
  | 2 => .freezing
  | 3 => .frozen
  | 4 => .resetting
  | 5 => .clearing
  | _ => .unbound

/-- Load register pairs (BAR0 offset, value); replay's own page and the key registers stay as they are. -/
def Dev.ckptRegs (d : Dev) (ws : List Nat) : Dev :=
  match ws with
  | off :: v :: rest =>
    let skip := off / 0x1000 = 0xF57 ∨ off % 0x1000 < 0x100 ∨ (off / 0x1000 = 0x400 ∧ 0x180 ≤ off % 0x1000 ∧ off % 0x1000 < 0x1A0) ∨
      0xE00000 ≤ off ∧ off < 0xE80000 ∨ 0x2000000 ≤ off
    (if skip then d else d.setReg off (w32 v)).ckptRegs rest
  | _ => d

/-- The SRAM state of a CKPT_DATA body in the model's own form: a slice, a queue pair, an outstanding command, a die operation. -/
def Dev.ckptSram (d : Dev) (kind : Nat) (ws : List Nat) : Dev :=
  match kind, ws with
  | 1, [s, st, pasid, blks, share, tshare, qpMax, sgen] =>
    d.setSlice (s % 1024) { d.slice (s % 1024) with
      st := sliceStOf st, pasid := pasid, blks := blks, share := share, tshare := tshare, shareAct := share, tshareAct := tshare,
      qpMax := qpMax, sgen := sgen }
  | 2, [q, en, sqb, cqb, sqHead, sqTail, cqPosted, cqHead] =>
    d.setQueue (q % 16384) { d.queue (q % 16384) with
      en := en == 1, sqb := sqb, cqb := cqb, sqHead := sqHead, sqTail := sqTail, cqPosted := cqPosted, cqHead := cqHead }
  | 3, [q, entry, no, db] =>
    let x := d.queue (q % 16384)
    let c := parseSqe entry no db
    let c := { c with keygen := (d.ctx (4 * (q % 16384 / 16) + c.keyidx)).keygen }
    d.setQueue (q % 16384) { x with cmds := x.cmds ++ [c] }
  | 4, [p, tag, opc, die, block, page, slc, data] =>
    let x := d.port (p % 512)
    let o : POp := { mkOp opc (if opc = 1 then .host else .rebuild) 2 0 0 0 0 die block page (slc == 1) with
      tag := tag, stage := .running, enq := d.tick, start := d.tick, data := data == 1 }
    d.setPort (p % 512) { x with ops := x.ops ++ [o] }
  | _, _ => d

/-- One record up to the end of the first complete checkpoint; records before its CKPT_BEGIN are passed over. -/
def Dev.rpLoad (d : Dev) (r : RpRecord) : Dev :=
  match r.kind with
  | 0x01 => { d with rp := { d.rp with ckpt := true }, tick := r.tick }
  | 0x02 =>
    if !d.rp.ckpt then d
    else if rpWord r 0 = 0 then d.ckptRegs (r.words.drop 1)
    else d.ckptSram (rpWord r 0) (r.words.drop 1)
  | 0x03 => if d.rp.ckpt then { d with rp := { ckpt := true, loaded := true, seen := d.out.length } } else d
  | _ => d

/-! ### Injection (R486) -/

/-- The little-endian number of `n` bytes from byte `i` of a response payload given as bytes. -/
def rpLe (r : RpRecord) (i n : Nat) : Nat := ofBytes ((List.range n).map (fun k => rpWord r (i + k) % 256))

/-- The controller has issued an operation with this port, tag and opcode (R487). -/
def Dev.rpIssued (d : Dev) (p tag opc : Nat) : Bool :=
  match (d.port p).op? tag with
  | some o => o.opc == opc
  | none => false

/-- A BRIDGE record: the 28-byte response of Table LNK-4 acts as if it had arrived, or answers nothing (R487). -/
def Dev.rpBridge (d : Dev) (r : RpRecord) : Dev :=
  let p := r.src % 512
  let tag := rpLe r 2 2 % 4096
  let opc := rpWord r 0
  let issued (o : Nat) : Bool := (rpWord r 5).testBit 0 || d.rpIssued p tag o
  let ok := match opc with
    | 0x81 => issued 1
    | 0x82 => issued (rpWord r 6)
    | 0x86 => ((d.port p).asks.find tag).isSome
    | 0x8F => d.rpIssued p tag (rpWord r 6)
    | _ => opc == 0x88 || opc == 0x8A || opc == 0x8B || opc == 0x8C
  if ok then d.message p [rpLe r 0 28] else d.rpDiverge r.rnum 1

/-- A DECODE record: die, block, page, codeword, step (0 hard), E, N01, N10, result. -/
def Dev.rpDecode (d : Dev) (r : RpRecord) : Dev :=
  let p := r.src % 512
  match (d.port p).ops.find? (fun o => o.opc == 1 && o.data && o.die == rpWord r 0 && o.block == rpWord r 1 && o.page == rpWord r 2) with
  | some o =>
    let ok := rpWord r 8 == 1
    if rpWord r 4 = 0 then doHardDecodeDone p o.tag (rpWord r 3) ok true true true true (rpWord r 5) (rpWord r 6) (rpWord r 7) 0 d
    else doWhiskDecodeDone p o.tag (rpWord r 3) ok true true true true 0 d
  | none => d.rpDiverge r.rnum 1

/-- A HOSTEV record: link down, link up, PERST, IDE integrity, IDE exhaustion, GPF phase, host access failure. -/
def Dev.rpHost (d : Dev) (r : RpRecord) : Dev :=
  match rpWord r 0 with
  | 0 => doHeadDown r.src d
  | 1 => doHeadUp r.src (rpWord r 1) (rpWord r 2) d
  | 2 => d.perst (r.src % 4 / 2)
  | 3 => doIdeIntegrityFail r.src (rpWord r 1) d
  | 4 => doIdeExhaust r.src (rpWord r 1) d
  | 5 => if rpWord r 1 = 1 then doGpfPhase1 d else doGpfPhase2 d
  | 6 => doHostAccessFail (rpWord r 1) (rpWord r 2) d
  | _ => d

/-- A LANE record: an LSTATE change, a CRC failure, a NAK, a replay. -/
def Dev.rpLane (d : Dev) (r : RpRecord) : Dev :=
  let p := r.src % 512
  match rpWord r 0 with
  | 0 => d.setLstate p (rpWord r 1 % 8)
  | 1 => d.inc (Reg.FCH_P_CRCERR p) 1
  | 2 => d.replay p
  | 3 => d.replay p
  | _ => d

/-- A TIMEX record: a dialogue's or an exchange's four stamps (R92, R229). -/
def Dev.rpTimex (d : Dev) (r : RpRecord) : Dev :=
  let t (i : Nat) : Int := (rpWord r i : Int)
  if r.src = 0 then
    let ofs := ((t 0 - t 1) + (t 3 - t 2)) / 2
    doPtmDialogue ofs ofs (((t 3 - t 0) - (t 2 - t 1)) / 2).toNat d
  else d.twinExchange (t 0) (t 1) (t 2) (t 3)

/-- A REG_WR record (R486): BAR0, or the MSI-X table of BAR4. -/
def Dev.rpRegWr (d : Dev) (r : RpRecord) : Dev :=
  d.unfenced (doRegisterWrite
    { head := r.src / 4 % 4, space := if r.src % 4 = 0 then .bar0 else .bar4, rd := false, off := rpWord r 0, size := 4, value := rpWord r 1 })

/-- A DOORBELL record. -/
def Dev.rpDoorbell (d : Dev) (r : RpRecord) : Dev :=
  d.unfenced (fun d =>
    if rpWord r 0 = 0 then doSqTailDbWrite (r.src / 16) (r.src % 16) (w32 (rpWord r 1)) d
    else doCqHeadDbWrite (r.src / 16) (r.src % 16) (w32 (rpWord r 1)) d)

/-- The bytes a MEMST record stores: window offset, then the bytes; a digest stores nothing. -/
def rpStore (r : RpRecord) : List Byte := (r.words.drop 1).map (fun w => BitVec.ofNat 8 w)

/-- The next completion entry of a queue pair that was posted after the ones already compared, with its place. -/
def Dev.rpPosted (d : Dev) (qid : Nat) : Option (Nat × Nat) :=
  (d.out.zipIdx.drop d.rp.seen).findSome? (fun x => match x.1 with
    | .completion q _ _ _ _ _ ts status info sqhd tagw timeb => if q = qid then some (x.2, entryOf ts status info sqhd tagw timeb) else none
    | _ => none)

/-- A COMPL record (R487): the posted entry equals it byte for byte, or replay diverges. -/
def Dev.rpCompl (d : Dev) (r : RpRecord) : Dev :=
  match d.rpPosted (r.src % 16384) with
  | some (i, e) =>
    if e = ofBytes ((List.range 16).map (fun k => rpWord r k % 256)) then { d with rp := { d.rp with seen := i + 1 } }
    else d.rpDiverge r.rnum 2
  | none => d.rpDiverge r.rnum 3

/-- A HDATA record: a block of host data.  With the last block of its write there, the write takes it as it took it in the field; what has come for a
write that cannot run yet waits. -/
def Dev.rpHdata (d : Dev) (qid tag i data : Nat) : Dev :=
  let mine (x : Nat × Nat × Nat × Nat) : Bool := x.1 == qid && x.2.1 == tag
  let d : Dev := { d with rp := { d.rp with hdata := d.rp.hdata ++ [(qid, tag, i, data)] } }
  match d.ready qid tag opWrite with
  | none => d
  | some c =>
    let blk (k : Nat) : Option Nat := (d.rp.hdata.find? (fun x => mine x && x.2.2.1 == k)).map (fun x => x.2.2.2)
    if !(List.range c.nblk).all (fun k => (blk k).isSome) || !d.admitted c then d
    else
      let datas := (List.range c.nblk).map (fun k => (blk k).getD 0 % 2 ^ 32768)
      { d with rp := { d.rp with hdata := d.rp.hdata.filter (fun x => !mine x) } }.withCredit qid c (fun d =>
        d.runWrite qid c datas (fun d => d.hdataRecs qid c datas))

/-- A MAPRES record stands in for the lookup: the granule's entry is the recorded one, its map page resident or not as HIT says. -/
def Dev.rpMapRes (d : Dev) (s g e : Nat) (hit : Bool) : Dev :=
  let d : Dev := { d with map := SMap.set (fun _ => MapEnt.reset) d.map (granKey s g) { gver := e / 4 % 2 ^ 20, loc := d.locOf e } }
  if hit then d.makeResident (pageKey s g) else { d with resident := d.resident.filter (· != pageKey s g) }

/-- A TWIN record: the header's MNUM is taken and its ACK applied; of the payloads, pages, used slots and the twin's state are the twin's report, and the
other kinds change only the copies held for it (log 180). -/
def Dev.rpTwin (d : Dev) (hd pl : Nat) : Dev :=
  let d := { d with gRx := hd / 2 ^ 64 % 2 ^ 64 + 1, gLastRx := d.tick }.acked (hd / 2 ^ 128 % 2 ^ 64)
  match hd % 256 with
  | 0x15 => d.grantIn (pl % 2 ^ 32) (pl / 2 ^ 32 % 2 ^ 32)
  | 0x40 => d.heartbeatIn (pl / 2 ^ 32 % 2 ^ 32) (pl % 2 ^ 32)
  | _ => d

/-- One record after the checkpoint, at its TICK.  PAD, REG_RD, RDATA and RAND record what the controller itself did; CKPT records of later
checkpoints describe state that is already there. -/
def Dev.rpInject (d : Dev) (r : RpRecord) : Dev :=
  match r.kind with
  | 0x04 =>
    let d : Dev := { d with tick := (d.tick + rpWord r 2) % 2 ^ 64 }
    (d.setFld Reg.DLR_TIME_STS 31 16 (rpWord r 0 % 65536)).setCoarse (rpWord r 1 == 1)
  | 0x05 => d.setFlag Reg.SCP_RP_STS 3 true
  | 0x10 => d.rpRegWr r
  | 0x12 => d.rpDoorbell r
  | 0x13 => d.unfenced (doSqeFetch r.src (rpWord r 1))
  | 0x14 => d.rpHdata (r.src % 16384) (rpWord r 0 % 32) (rpWord r 1) (rpWord r 2)
  | 0x15 => d.unfenced (doPwinStore (r.src % 4) (rpWord r 0) (rpStore r))
  | 0x16 => d.rpHost r
  | 0x17 => d.rpCompl r
  | 0x20 => d.rpMapRes (r.src % 1024) (rpWord r 0 % 2 ^ 37) (rpWord r 1) (rpWord r 2 % 2 == 1)
  | 0x21 => d.rpBridge r
  | 0x22 => d.rpLane r
  | 0x23 => d.rpDecode r
  | 0x28 => d.rpTwin (rpWord r 0) (rpWord r 1)
  | 0x29 => d.rpTimex r
  | 0x30 =>
    if r.src = 0 then (if (rpWord r 1).testBit 0 then doHbmUncorrectable (rpWord r 0) .nothing d else doHbmCorrected (rpWord r 0) false d)
    else doSramEccError (rpWord r 0 / 65536) (rpWord r 0 % 65536) (.data 0xA03 none) ((rpWord r 1).testBit 0) d
  | 0x31 => if rpWord r 0 = 1 then doPwrFailRecognised d else if rpWord r 0 = 2 then doPgMainFall d else d
  | _ => d

/-- The record may be taken now: before the checkpoint is loaded any record, after it those whose TICK has come; a COMPL record waits for
its entry until its TICK has passed (R487). -/
def Dev.rpDue (d : Dev) (r : RpRecord) : Bool :=
  !d.rp.loaded || decide (r.tick < d.tick) ||
  (decide (r.tick = d.tick) && (r.kind != 0x17 || (d.rpPosted (r.src % 16384)).isSome))

/-- REPLAY_INJECT (R486, R487, R488). -/
def doReplayInject (r : RpRecord) (d : Dev) : Dev :=
  if !d.rpReady then d
  else if !r.tagOk then d.rpDiverge r.rnum 4
  else if !d.rp.loaded then (d.rpLoad r).rpConsume r
  else if !d.rpDue r then d
  else (d.rpInject r).rpConsume r

/-- A record is injected now. -/
def Dev.rpActs (d : Dev) (r : RpRecord) : Bool := d.rpReady && r.tagOk && d.rp.loaded && d.rpDue r

/-- The bytes an injected MEMST record stores into the window. -/
def Dev.rpWindow (d : Dev) (r : RpRecord) : List (Nat × List Byte) :=
  if d.rpActs r && r.kind == 0x15 && (d.setFlag Reg.SCP_RP_STS 0 false).storeOk (r.src % 4) (rpWord r 0) (rpStore r).length then
    [(rpWord r 0, rpStore r)]
  else []

/-- The bytes an injected register write stores into the flash array. -/
def Dev.rpArray (d : Dev) (r : RpRecord) : List (Nat × List Byte) :=
  if d.rpActs r && r.kind == 0x10 && r.src % 4 == 0 && inAperture (rpWord r 0) && d.barUp && d.headUp (r.src / 4 % 4) &&
      d.flag Reg.HIF_HEAD_CTL (r.src / 4 % 4) then
    apertureStore (rpWord r 0) 4 (rpWord r 1) d
  else []

def execReplayInject (r : RpRecord) (s : State) : Host.Outcome State Fault Refusal :=
  if s.dev.supplyLost then .fault .undefinedSupply
  else if s.dev.pgMain then
    .next { s with
      dev := doReplayInject r s.dev,
      window := storeWindow s.window (s.dev.rpWindow r),
      array := storeArray s.array (s.dev.rpArray r) }
  else .next s

end Sys2Proof.Machine
end

