-- ==== Sys2Proof/Machine/Dispatch.lean ====
section
/-! DEFINITION. One arm per command, each a direct call of its meaning. -/

namespace Sys2Proof.Machine

/-- The effect of a command on everything but the queue of waiting commands. -/
def exec (i : Instr) (s : State) : Host.Outcome State Fault Refusal :=
  match i with
  | .registerWrite a => Sys2Proof.Machine.execRegisterWrite a s
  | .errClear page => Sys2Proof.Machine.execErrClear page s
  | .ctlEn page v => Sys2Proof.Machine.execCtlEn page v s
  | .softRst page v => Sys2Proof.Machine.execSoftRst page v s
  | .softRstDone page => Sys2Proof.Machine.execSoftRstDone page s
  | .freeze page v => Sys2Proof.Machine.execFreeze page v s
  | .isolate page v => Sys2Proof.Machine.execIsolate page v s
  | .lockWrite page v => Sys2Proof.Machine.execLockWrite page v s
  | .lockTimeout page => Sys2Proof.Machine.execLockTimeout page s
  | .intPendClear page v => Sys2Proof.Machine.execIntPendClear page v s
  | .intEnWrite page v => Sys2Proof.Machine.execIntEnWrite page v s
  | .intVecWrite page v => Sys2Proof.Machine.execIntVecWrite page v s
  | .selectorWrite off v => Sys2Proof.Machine.execSelectorWrite off v s
  | .snapshotPublish page => Sys2Proof.Machine.execSnapshotPublish page s
  | .glbTimeRead => Sys2Proof.Machine.execGlbTimeRead s
  | .warmReset v res => Sys2Proof.Machine.execWarmReset v res s
  | .coldReset v res => Sys2Proof.Machine.execColdReset v res s
  | .resetNRecognised res => Sys2Proof.Machine.execResetNRecognised res s
  | .headDown head => Sys2Proof.Machine.execHeadDown head s
  | .headUp head rate width => Sys2Proof.Machine.execHeadUp head rate width s
  | .headWaitExpire slice => Sys2Proof.Machine.execHeadWaitExpire slice s
  | .perstAN => Sys2Proof.Machine.execPerstAN s
  | .perstBN => Sys2Proof.Machine.execPerstBN s
  | .hostAccessFail qid tag => Sys2Proof.Machine.execHostAccessFail qid tag s
  | .hifDmaTmoExpire qid tag => Sys2Proof.Machine.execHifDmaTmoExpire qid tag s
  | .poisonedCompletion qid tag block => Sys2Proof.Machine.execPoisonedCompletion qid tag block s
  | .pwinLoad head off len => Sys2Proof.Machine.execPwinLoad head off len s
  | .pwinStore head off bytes => Sys2Proof.Machine.execPwinStore head off bytes s
  | .pwinWriteback granule => Sys2Proof.Machine.execPwinWriteback granule s
  | .pwinResize v => Sys2Proof.Machine.execPwinResize v s
  | .segEnable n v => Sys2Proof.Machine.execSegEnable n v s
  | .segDisable n v => Sys2Proof.Machine.execSegDisable n v s
  | .segDrained n => Sys2Proof.Machine.execSegDrained n s
  | .gpfPhase1 => Sys2Proof.Machine.execGpfPhase1 s
  | .gpfPhase2 => Sys2Proof.Machine.execGpfPhase2 s
  | .ideKmKeyProgram head stream key spdm => Sys2Proof.Machine.execIdeKmKeyProgram head stream key spdm s
  | .ideExhaust head stream => Sys2Proof.Machine.execIdeExhaust head stream s
  | .ideIntegrityFail head stream => Sys2Proof.Machine.execIdeIntegrityFail head stream s
  | .ptmDialogue offset residual delay => Sys2Proof.Machine.execPtmDialogue offset residual delay s
  | .ptmTimeout => Sys2Proof.Machine.execPtmTimeout s
  | .mctpMessage kind => Sys2Proof.Machine.execMctpMessage kind s
  | .identifyMemoryDevice => Sys2Proof.Machine.execIdentifyMemoryDevice s
  | .getHealthInfo => Sys2Proof.Machine.execGetHealthInfo s
  | .alertConfiguration set => Sys2Proof.Machine.execAlertConfiguration set s
  | .getPoisonList => Sys2Proof.Machine.execGetPoisonList s
  | .getEventRecords => Sys2Proof.Machine.execGetEventRecords s
  | .clearEventRecords n => Sys2Proof.Machine.execClearEventRecords n s
  | .setShutdownState v => Sys2Proof.Machine.execSetShutdownState v s
  | .mailboxUnsupported opcode => Sys2Proof.Machine.execMailboxUnsupported opcode s
  | .sliceHeadWrite w v => Sys2Proof.Machine.execSliceHeadWrite w v s
  | .sqTailDbWrite slice qp v => Sys2Proof.Machine.execSqTailDbWrite slice qp v s
  | .cqHeadDbWrite slice qp v => Sys2Proof.Machine.execCqHeadDbWrite slice qp v s
  | .sqeFetch qid entry => Sys2Proof.Machine.execSqeFetch qid entry s
  | .ringFault qid completion => Sys2Proof.Machine.execRingFault qid completion s
  | .hazardRelease qid tag => Sys2Proof.Machine.execHazardRelease qid tag s
  | .read qid tag lists => Sys2Proof.Machine.execRead qid tag lists s
  | .write qid tag lists data => Sys2Proof.Machine.execWrite qid tag lists data s
  | .flush qid tag => Sys2Proof.Machine.execFlush qid tag s
  | .discard qid tag => Sys2Proof.Machine.execDiscard qid tag s
  | .verify qid tag => Sys2Proof.Machine.execVerify qid tag s
  | .writeZeroes qid tag => Sys2Proof.Machine.execWriteZeroes qid tag s
  | .sealRead qid tag lists => Sys2Proof.Machine.execSealRead qid tag lists s
  | .createQp qid tag => Sys2Proof.Machine.execCreateQp qid tag s
  | .deleteQp qid tag => Sys2Proof.Machine.execDeleteQp qid tag s
  | .mapPin qid tag => Sys2Proof.Machine.execMapPin qid tag s
  | .mapUnpin qid tag => Sys2Proof.Machine.execMapUnpin qid tag s
  | .mapSpace qid tag => Sys2Proof.Machine.execMapSpace qid tag s
  | .healthGet qid tag => Sys2Proof.Machine.execHealthGet qid tag s
  | .coalesceTimeout qid => Sys2Proof.Machine.execCoalesceTimeout qid s
  | .cqStallTimeout qid => Sys2Proof.Machine.execCqStallTimeout qid s
  | .qReset slice qp v => Sys2Proof.Machine.execQReset slice qp v s
  | .cqeQRst v => Sys2Proof.Machine.execCqeQRst v s
  | .queueResetDrained qid => Sys2Proof.Machine.execQueueResetDrained qid s
  | .cqeQCtlWrite off v => Sys2Proof.Machine.execCqeQCtlWrite off v s
  | .sliceBind v => Sys2Proof.Machine.execSliceBind v s
  | .sliceUnbind v => Sys2Proof.Machine.execSliceUnbind v s
  | .sliceReset v => Sys2Proof.Machine.execSliceReset v s
  | .sliceResetDone slice => Sys2Proof.Machine.execSliceResetDone slice s
  | .sliceFreeze v => Sys2Proof.Machine.execSliceFreeze v s
  | .sliceFrozenReached slice => Sys2Proof.Machine.execSliceFrozenReached slice s
  | .sliceThaw v => Sys2Proof.Machine.execSliceThaw v s
  | .sliceSave v nvmOk => Sys2Proof.Machine.execSliceSave v nvmOk s
  | .sliceRestore v blob nvmOk => Sys2Proof.Machine.execSliceRestore v blob nvmOk s
  | .sliceClear v => Sys2Proof.Machine.execSliceClear v s
  | .sliceClearDone slice => Sys2Proof.Machine.execSliceClearDone slice s
  | .shareWrite v => Sys2Proof.Machine.execShareWrite v s
  | .blksHiWrite v => Sys2Proof.Machine.execBlksHiWrite v s
  | .blksLoWrite v => Sys2Proof.Machine.execBlksLoWrite v s
  | .blksShrinkApply slice => Sys2Proof.Machine.execBlksShrinkApply slice s
  | .unitDispatch qid tag => Sys2Proof.Machine.execUnitDispatch qid tag s
  | .exportStart v => Sys2Proof.Machine.execExportStart v s
  | .exportStop v => Sys2Proof.Machine.execExportStop v s
  | .exportRecord hostOk => Sys2Proof.Machine.execExportRecord hostOk s
  | .exportConsWrite v => Sys2Proof.Machine.execExportConsWrite v s
  | .importWrapped v => Sys2Proof.Machine.execImportWrapped v s
  | .importPlain v => Sys2Proof.Machine.execImportPlain v s
  | .exportWrapped v => Sys2Proof.Machine.execExportWrapped v s
  | .saveState v => Sys2Proof.Machine.execSaveState v s
  | .restoreState v => Sys2Proof.Machine.execRestoreState v s
  | .zeroise v => Sys2Proof.Machine.execZeroise v s
  | .zeroiseSlice v => Sys2Proof.Machine.execZeroiseSlice v s
  | .zeroiseDone ctx => Sys2Proof.Machine.execZeroiseDone ctx s
  | .cryOpInvalid v => Sys2Proof.Machine.execCryOpInvalid v s
  | .kekSet v => Sys2Proof.Machine.execKekSet v s
  | .laneFail lane knownAnswer => Sys2Proof.Machine.execLaneFail lane knownAnswer s
  | .mapPageLoad slice page cls => Sys2Proof.Machine.execMapPageLoad slice page cls s
  | .mapPageWriteback slice page => Sys2Proof.Machine.execMapPageWriteback slice page s
  | .mapCommit slice granule gver mismatches => Sys2Proof.Machine.execMapCommit slice granule gver mismatches s
  | .destage slice granule gver => Sys2Proof.Machine.execDestage slice granule gver s
  | .noSpaceTimeout qid tag => Sys2Proof.Machine.execNoSpaceTimeout qid tag s
  | .gcVictimSelect => Sys2Proof.Machine.execGcVictimSelect s
  | .slcFold => Sys2Proof.Machine.execSlcFold s
  | .relocCommit slice granule fromLoc band stripe pos half => Sys2Proof.Machine.execRelocCommit slice granule fromLoc band stripe pos half s
  | .bandErase band => Sys2Proof.Machine.execBandErase band s
  | .trickBoundary => Sys2Proof.Machine.execTrickBoundary s
  | .planCut port residueBad => Sys2Proof.Machine.execPlanCut port residueBad s
  | .trickGroupBoundary => Sys2Proof.Machine.execTrickGroupBoundary s
  | .agePromote port tag => Sys2Proof.Machine.execAgePromote port tag s
  | .susHoldExpire port die => Sys2Proof.Machine.execSusHoldExpire port die s
  | .timeExchangeTimeout => Sys2Proof.Machine.execTimeExchangeTimeout s
  | .trickMark port side trick dly => Sys2Proof.Machine.execTrickMark port side trick dly s
  | .armConfirmCut port => Sys2Proof.Machine.execArmConfirmCut port s
  | .markMiss port => Sys2Proof.Machine.execMarkMiss port s
  | .flitReceive port flit => Sys2Proof.Machine.execFlitReceive port flit s
  | .ack port seq => Sys2Proof.Machine.execAck port seq s
  | .nak port seq => Sys2Proof.Machine.execNak port seq s
  | .replayTimeout port => Sys2Proof.Machine.execReplayTimeout port s
  | .recoveryTimeout port => Sys2Proof.Machine.execRecoveryTimeout port s
  | .dieRead port c cwMask oslot soft => Sys2Proof.Machine.execDieRead port c cwMask oslot soft s
  | .dieProgram port c buf => Sys2Proof.Machine.execDieProgram port c buf s
  | .dieErase port c => Sys2Proof.Machine.execDieErase port c s
  | .dieSuspend port c => Sys2Proof.Machine.execDieSuspend port c s
  | .dieResume port c => Sys2Proof.Machine.execDieResume port c s
  | .dieStatus port c info onfi temp => Sys2Proof.Machine.execDieStatus port c info onfi temp s
  | .setOffsets port c oslot ofs => Sys2Proof.Machine.execSetOffsets port c oslot ofs s
  | .ownTake port c fence force => Sys2Proof.Machine.execOwnTake port c fence force s
  | .ownRelease port c => Sys2Proof.Machine.execOwnRelease port c s
  | .bridgePower port c state => Sys2Proof.Machine.execBridgePower port c state s
  | .laneTest port c mode dur stamp errors => Sys2Proof.Machine.execLaneTest port c mode dur stamp errors s
  | .pdata port c buf content => Sys2Proof.Machine.execPdata port c buf content s
  | .rdata port r cwMask soft content => Sys2Proof.Machine.execRdata port r cwMask soft content s
  | .done port r opc time100ns suspends => Sys2Proof.Machine.execDone port r opc time100ns suspends s
  | .status port die r dieState suspends lastTag lastStatus temp info => Sys2Proof.Machine.execStatus port die r dieState suspends lastTag lastStatus temp info s
  | .own port r holder fence => Sys2Proof.Machine.execOwn port r holder fence s
  | .power port r state => Sys2Proof.Machine.execPower port r state s
  | .test port r stamp errors rtt => Sys2Proof.Machine.execTest port r stamp errors rtt s
  | .armCut port status trick cut fired count => Sys2Proof.Machine.execArmCut port status trick cut fired count s
  | .refuse port r opc => Sys2Proof.Machine.execRefuse port r opc s
  | .dieResponseTimeout port tag => Sys2Proof.Machine.execDieResponseTimeout port tag s
  | .portInitTimeout port => Sys2Proof.Machine.execPortInitTimeout port s
  | .recommission port v => Sys2Proof.Machine.execRecommission port v s
  | .retrain port v => Sys2Proof.Machine.execRetrain port v s
  | .laneTestGo port v => Sys2Proof.Machine.execLaneTestGo port v s
  | .hardDecodeDone port tag cw ok syndromeOk sealOk placementOk gcmOk e n01 n10 decoder => Sys2Proof.Machine.execHardDecodeDone port tag cw ok syndromeOk sealOk placementOk gcmOk e n01 n10 decoder s
  | .whiskDecodeDone port tag cw ok syndromeOk sealOk placementOk gcmOk whisk => Sys2Proof.Machine.execWhiskDecodeDone port tag cw ok syndromeOk sealOk placementOk gcmOk whisk s
  | .earlyVerifyTimeout port die block page => Sys2Proof.Machine.execEarlyVerifyTimeout port die block page s
  | .sieveVisit band pos => Sys2Proof.Machine.execSieveVisit band pos s
  | .sieveWake group => Sys2Proof.Machine.execSieveWake group s
  | .eccDayAdvance => Sys2Proof.Machine.execEccDayAdvance s
  | .eccRlSelWrite v => Sys2Proof.Machine.execEccRlSelWrite v s
  | .dieQualify port die q => Sys2Proof.Machine.execDieQualify port die q s
  | .stripeWaitExpire band => Sys2Proof.Machine.execStripeWaitExpire band s
  | .reconstructSolve band stripe column failed checks => Sys2Proof.Machine.execReconstructSolve band stripe column failed checks s
  | .rebuildStripe => Sys2Proof.Machine.execRebuildStripe s
  | .copyback band pos die block verifyOk => Sys2Proof.Machine.execCopyback band pos die block verifyOk s
  | .bitmapClearFlush => Sys2Proof.Machine.execBitmapClearFlush s
  | .regionResync band region => Sys2Proof.Machine.execRegionResync band region s
  | .hbmStackFault stack cause => Sys2Proof.Machine.execHbmStackFault stack cause s
  | .creditGrant cls => Sys2Proof.Machine.execCreditGrant cls s
  | .cacheAdmit => Sys2Proof.Machine.execCacheAdmit s
  | .ladleJob ladle job residueOk => Sys2Proof.Machine.execLadleJob ladle job residueOk s
  | .sramEccError array word kind ue => Sys2Proof.Machine.execSramEccError array word kind ue s
  | .hbmCorrected off newer => Sys2Proof.Machine.execHbmCorrected off newer s
  | .hbmUncorrectable off item => Sys2Proof.Machine.execHbmUncorrectable off item s
  | .hbmRowRepair off spareLeft => Sys2Proof.Machine.execHbmRowRepair off spareLeft s
  | .hbmScrubRead result newer item => Sys2Proof.Machine.execHbmScrubRead result newer item s
  | .sramScrubRead array word result kind lapDone => Sys2Proof.Machine.execSramScrubRead array word result kind lapDone s
  | .scrStarved => Sys2Proof.Machine.execScrStarved s
  | .gulonLaneFail lane cause => Sys2Proof.Machine.execGulonLaneFail lane cause s
  | .hello m h => Sys2Proof.Machine.execHello m h s
  | .helloAck m h => Sys2Proof.Machine.execHelloAck m h s
  | .rekey m wkey => Sys2Proof.Machine.execRekey m wkey s
  | .rekeyAck m => Sys2Proof.Machine.execRekeyAck m s
  | .invLimit => Sys2Proof.Machine.execInvLimit s
  | .mirror m vers b => Sys2Proof.Machine.execMirror m vers b s
  | .journal m b => Sys2Proof.Machine.execJournal m b s
  | .free m slots => Sys2Proof.Machine.execFree m slots s
  | .freeSend => Sys2Proof.Machine.execFreeSend s
  | .wstore m stores => Sys2Proof.Machine.execWstore m stores s
  | .grant m pages used => Sys2Proof.Machine.execGrant m pages used s
  | .remoteOp m port opc die block page slice sgen qgen cls => Sys2Proof.Machine.execRemoteOp m port opc die block page slice sgen qgen cls s
  | .remoteDone m id status data => Sys2Proof.Machine.execRemoteDone m id status data s
  | .partial_ m request band stripe column sums => Sys2Proof.Machine.execPartial m request band stripe column sums s
  | .timeReq m t1 t2 => Sys2Proof.Machine.execTimeReq m t1 t2 s
  | .timeRsp m t1 t2 t3 t4 => Sys2Proof.Machine.execTimeRsp m t1 t2 t3 t4 s
  | .heartbeat m used peerState => Sys2Proof.Machine.execHeartbeat m used peerState s
  | .heartbeatSend => Sys2Proof.Machine.execHeartbeatSend s
  | .leave m => Sys2Proof.Machine.execLeave m s
  | .sync m vers b fence windowBytes last => Sys2Proof.Machine.execSync m vers b fence windowBytes last s
  | .move m slice queues ctxs => Sys2Proof.Machine.execMove m slice queues ctxs s
  | .dumped m => Sys2Proof.Machine.execDumped m s
  | .twinLossDecision => Sys2Proof.Machine.execTwinLossDecision s
  | .takeDelayExpire heldByOther => Sys2Proof.Machine.execTakeDelayExpire heldByOther s
  | .twinTakeover => Sys2Proof.Machine.execTwinTakeover s
  | .pairWaitExpire => Sys2Proof.Machine.execPairWaitExpire s
  | .twinLeave v => Sys2Proof.Machine.execTwinLeave v s
  | .twnSlMove v => Sys2Proof.Machine.execTwnSlMove v s
  | .pairkeySet v => Sys2Proof.Machine.execPairkeySet v s
  | .sleepRequest v => Sys2Proof.Machine.execSleepRequest v s
  | .deepRequest v => Sys2Proof.Machine.execDeepRequest v s
  | .offRequest v => Sys2Proof.Machine.execOffRequest v s
  | .entryCancel v => Sys2Proof.Machine.execEntryCancel v s
  | .quiesceDone => Sys2Proof.Machine.execQuiesceDone s
  | .flushDone => Sys2Proof.Machine.execFlushDone s
  | .entryCommit => Sys2Proof.Machine.execEntryCommit s
  | .idleEntry => Sys2Proof.Machine.execIdleEntry s
  | .wake sources levelAtIsolate res => Sys2Proof.Machine.execWake sources levelAtIsolate res s
  | .pgMainRise => Sys2Proof.Machine.execPgMainRise s
  | .powerGoodTimeout => Sys2Proof.Machine.execPowerGoodTimeout s
  | .pgMainRetry => Sys2Proof.Machine.execPgMainRetry s
  | .domainDemandWake g waiters => Sys2Proof.Machine.execDomainDemandWake g waiters s
  | .domainOn g => Sys2Proof.Machine.execDomainOn g s
  | .domainTRetExpire g => Sys2Proof.Machine.execDomainTRetExpire g s
  | .domainTOffExpire g => Sys2Proof.Machine.execDomainTOffExpire g s
  | .domainStepDone g => Sys2Proof.Machine.execDomainStepDone g s
  | .domainWakeOp v => Sys2Proof.Machine.execDomainWakeOp v s
  | .parkRet v => Sys2Proof.Machine.execParkRet v s
  | .parkOff v => Sys2Proof.Machine.execParkOff v s
  | .pwrDomPolWrite v => Sys2Proof.Machine.execPwrDomPolWrite v s
  | .pwrFailRecognised => Sys2Proof.Machine.execPwrFailRecognised s
  | .dumpDone us => Sys2Proof.Machine.execDumpDone us s
  | .dumpExit res => Sys2Proof.Machine.execDumpExit res s
  | .vidAlert => Sys2Proof.Machine.execVidAlert s
  | .pgMainFall => Sys2Proof.Machine.execPgMainFall s
  | .thermtrip => Sys2Proof.Machine.execThermtrip s
  | .aoCounterEdge => Sys2Proof.Machine.execAoCounterEdge s
  | .vidFrame code => Sys2Proof.Machine.execVidFrame code s
  | .unlockCycle port off value => Sys2Proof.Machine.execUnlockCycle port off value s
  | .nvmSeqTimeout port => Sys2Proof.Machine.execNvmSeqTimeout port s
  | .programPage port addr data => Sys2Proof.Machine.execProgramPage port addr data s
  | .sectorErase port sector => Sys2Proof.Machine.execSectorErase port sector s
  | .suspend port => Sys2Proof.Machine.execSuspend port s
  | .resume port => Sys2Proof.Machine.execResume port s
  | .idStatus port => Sys2Proof.Machine.execIdStatus port s
  | .readStat port => Sys2Proof.Machine.execReadStat port s
  | .nvmReset port => Sys2Proof.Machine.execNvmReset port s
  | .verifyMode port mode => Sys2Proof.Machine.execVerifyMode port mode s
  | .nvmProgramDone pass pulses => Sys2Proof.Machine.execNvmProgramDone pass pulses s
  | .nvmEraseDone pass pulses => Sys2Proof.Machine.execNvmEraseDone pass pulses s
  | .nvmAutoResume => Sys2Proof.Machine.execNvmAutoResume s
  | .nvmFetchSuspend => Sys2Proof.Machine.execNvmFetchSuspend s
  | .nvmFetchResume => Sys2Proof.Machine.execNvmFetchResume s
  | .apertureRead off corr => Sys2Proof.Machine.execApertureRead off corr s
  | .tryBoot v => Sys2Proof.Machine.execTryBoot v s
  | .confirm v => Sys2Proof.Machine.execConfirm v s
  | .windowClose bank => Sys2Proof.Machine.execWindowClose bank s
  | .bankPublish bank => Sys2Proof.Machine.execBankPublish bank s
  | .sbCfgWrite bank v => Sys2Proof.Machine.execSbCfgWrite bank v s
  | .incidentJournal => Sys2Proof.Machine.execIncidentJournal s
  | .scpIncClr v => Sys2Proof.Machine.execScpIncClr v s
  | .captureStart v => Sys2Proof.Machine.execCaptureStart v s
  | .captureSegmentWrite => Sys2Proof.Machine.execCaptureSegmentWrite s
  | .captureCheckpoint => Sys2Proof.Machine.execCaptureCheckpoint s
  | .capkeySet v => Sys2Proof.Machine.execCapkeySet v s
  | .captureExportStart v => Sys2Proof.Machine.execCaptureExportStart v s
  | .captureExportSegment hostOk => Sys2Proof.Machine.execCaptureExportSegment hostOk s
  | .scpXpConsWrite v => Sys2Proof.Machine.execScpXpConsWrite v s
  | .replayStart v => Sys2Proof.Machine.execReplayStart v s
  | .replayInject r => Sys2Proof.Machine.execReplayInject r s
  | .replayPause => Sys2Proof.Machine.execReplayPause s
  | .go v => Sys2Proof.Machine.execGo v s
  | .scpRpProdWrite v => Sys2Proof.Machine.execScpRpProdWrite v s
  | .pgAoRise side bench dies64 res => Sys2Proof.Machine.execPgAoRise side bench dies64 res s
  | .tapInstruction ins ir => Sys2Proof.Machine.execTapInstruction ins ir s
  | .tapTestLogicReset res => Sys2Proof.Machine.execTapTestLogicReset res s
  | .release => Sys2Proof.Machine.execRelease s
  | .openBandScan => Sys2Proof.Machine.execOpenBandScan s
  | .ready => Sys2Proof.Machine.execReady s
  | .format bandsFormed bmPorts => Sys2Proof.Machine.execFormat bandsFormed bmPorts s
  | .laneActive port rtts => Sys2Proof.Machine.execLaneActive port rtts s
  | .gulonLinkUp => Sys2Proof.Machine.execGulonLinkUp s
  | .gulonLinkDown => Sys2Proof.Machine.execGulonLinkDown s
  | .firmwareCoreFail core again => Sys2Proof.Machine.execFirmwareCoreFail core again s
  | .pgAoFall => Sys2Proof.Machine.execPgAoFall s
  | .msixTableWrite head off v => Sys2Proof.Machine.execMsixTableWrite head off v s
  | .i3cDynamicAddress addr => Sys2Proof.Machine.execI3cDynamicAddress addr s

end Sys2Proof.Machine
end

