-- ==== Sys2Proof/Safety.lean ====
section
/-! DEFINITION. What the statements call a device in service, and the conditions that every step keeps. -/

namespace Sys2Proof.Machine

/-- The supplies are in tolerance: no command ends the machine (R542). -/
abbrev State.supplied (s : State) : Prop := s.dev.supplyLost = false

/-- The main rails are up beside VAO: every island of the controller works. -/
abbrev State.running (s : State) : Prop := s.dev.supplyLost = false ∧ s.dev.aoUp = true ∧ s.dev.pgMain = true

/-- The two byte memories are in their canonical form. -/
abbrev State.memWf (s : State) : Prop := Memory.wf arrayDflt s.array = true ∧ Memory.wf windowDflt s.window = true

/-- No byte of the boot loader's sectors differs from `boot` (R443). -/
def State.bootHolds (boot : Nat → Byte) (s : State) : Prop := ∀ a < 0x100000, Memory.read arrayDflt s.array a = boot a

/-- A write reaches a page: BAR0 decodes, the page exists and its island has power (R37, R49, R59). -/
abbrev Dev.reaches (d : Dev) (pg : Nat) : Prop := d.barUp = true ∧ pageExists pg = true ∧ d.powered pg = true

/-- A write to a register from 0x100 up acts in full: it reaches the page, the page is unlocked, and no SOFT_RST runs there. -/
abbrev Dev.isOpen (d : Dev) (pg : Nat) : Prop := d.reaches pg ∧ d.unlocked pg = true ∧ (d.page pg).softRst = false

/-- No capture runs: no input is written down, and its registers keep (R474). -/
abbrev Dev.noCapture (d : Dev) : Prop := d.flag Reg.SCP_CAP_STS 0 = false

/-- The registers that an event, an error, an incident or a captured input moves beside the command's own: the capture states, the
count of the incident sheet, and, where it brings the controller from IDLE to RUN, the mode. -/
def eventRegs : List Nat := [Reg.SCP_CAP_STS, Reg.SCP_INC_STS, Reg.PWR_MODE_STS, Reg.PWR_BIAS_NOW, Reg.GLB_DEV_STS]

/-- The page headers that the same may move: the mode's, the incident sheet's and capture's. -/
def eventPages : List Nat := [0xD00, 0xF00, 0xF57]

/-- From `d` to `t` only the registers `own` and the headers of the pages `pgs` change, beside what an event, an incident or a sample
leaves: outputs and pending messages, capture, the sheet, the scorepad's banks and the draws of free values. -/
def Dev.frame (d t : Dev) (own pgs : List Nat) : Prop :=
  (∀ o, o ∉ own → o ∉ eventRegs → t.reg o = d.reg o) ∧
  (∀ pg, pg ∉ pgs → pg ∉ eventPages → t.page pg = d.page pg) ∧
  t = { d with regs := t.regs, pages := t.pages, out := t.out, pba := t.pba, cap := t.cap, draws := t.draws, banks := t.banks,
               incidents := t.incidents }

/-- An output left the chip on the way from `d` to `t`. -/
abbrev Dev.tells (d t : Dev) (o : Out) : Prop := o ∈ t.out.drop d.out.length

/-- A completion of the queue can be written at once: a head carries the slice, the ring takes writes, none waits before it. -/
abbrev Dev.canPost (d : Dev) (qid : Nat) : Prop :=
  d.sliceHead (qid / 16) ≠ none ∧ (d.queue qid).cqFault = false ∧ (d.queue qid).held = []

/-- The completion entry of a command left in the ring's next position (Table CQE-6). -/
def Dev.posts (d t : Dev) (qid tag status info : Nat) : Prop :=
  ∃ pasid head addr ts sqhd timeb, d.tells t (.completion qid pasid head addr ((d.queue qid).cqPosted % 64) (phaseOf (d.queue qid).cqPosted) ts status (info % 2 ^ 16)
    sqhd (tagWord tag 0 (d.queue qid).cqPosted) timeb)

/-- A read or write row of an outstanding command runs to its end at once: a head, no block on its path held, its units admitted, its map
pages here, and its completion can be written. -/
abbrev Dev.runsNow (d : Dev) (qid : Nat) (c : Cmd) : Prop :=
  d.mayRun qid c = true ∧ d.canPost qid ∧ ∀ g ∈ granulesOf c.lba c.nblk, d.entHere (qid / 16) g = true

/-- The credit that the command's stage takes is to be had (R355, R357). -/
abbrev Dev.paysNow (d : Dev) (qid : Nat) (c : Cmd) : Prop := (d.takeCredit (d.creditFor c).1 (d.creditFor c).2 (qid * 32 + c.tag)).1 = true

/-- The data of the flash reads that a command needs has come: of none, when no block comes from flash. -/
abbrev Dev.flashCame (d : Dev) (qid : Nat) (c : Cmd) (want : Nat → List Nat) : Prop :=
  (d.flashReads c.fetched c.cls (qid / 16) want (granulesOf c.lba c.nblk)).1 = true

/-- A write-type command is placed at once: it runs now, is admitted to the cache with its credit, no block of its data came poisoned, what its
merge reads has power and has come and no other merge holds one of its granules, its range touches no enabled segment, and there is space and room for one more version of each granule
that it places (R81, R194, R211, R212). -/
abbrev Dev.writesNow (d : Dev) (qid : Nat) (c : Cmd) : Prop :=
  d.runsNow qid c ∧ d.paysNow qid c ∧ d.admitted c = true ∧ c.bad = [] ∧ d.flashCame qid c (d.mergeWant (qid / 16) c) ∧
  d.mergeLocked (qid / 16) c = false ∧ d.inSegment (qid / 16) c.lba c.nblk = false ∧
  d.groupsOn (qid / 16) ((granulesOf c.lba c.nblk).flatMap
    (fun g => (d.mergeWant (qid / 16) c g).map (fun k => 8 * g + k))) = true ∧
  (d.newGranules (qid / 16) c = 0 ∨ (d.valid + d.newGranules (qid / 16) c ≤ d.limit ∧ d.wHard < d.fQ)) ∧
  (∀ g ∈ c.placedGranules, d.uncommitted (qid / 16) g < 64)

/-- A message from the twin: its type (Table TWN-2), its header, LAST and its payload.  HELLO and HELLO_ACK are not numbered (R386). -/
def Dev.gulonIn (d : Dev) : Instr → Option (Nat × GMsg × Bool × Fields)
  | .rekey m w => some (0x03, m, true, rekeyFs w (m.keyep + 1))
  | .rekeyAck m => some (0x04, m, true, [(2, (d.txEpoch + 1) % 65536)])
  | .mirror m vers b => some (0x10, m, true, mirrorFs vers b)
  | .journal m b => some (0x12, m, true, b.fs)
  | .free m slots => some (0x13, m, true, freeFs slots)
  | .wstore m stores => some (0x14, m, true, storeFs stores)
  | .grant m pages used => some (0x15, m, true, usedFs pages used)
  | .remoteOp m p opc die block page slice sgen qgen cls =>
    some (0x20, m, true, remoteOpFs p opc die block page slice sgen qgen (clsNum cls))
  | .remoteDone m id status data => some (0x21, m, true, remoteDoneFs id status data)
  | .partial_ m request band stripe column sums => some (0x22, m, true, partialFs request band stripe column sums)
  | .timeReq m t1 _ => some (0x30, m, true, [f64 t1])
  | .timeRsp m t1 t2 t3 _ => some (0x31, m, true, [f64 t1, f64 t2, f64 t3])
  | .heartbeat m used peer => some (0x40, m, true, usedFs peer used)
  | .leave m => some (0x41, m, true, [])
  | .dumped m => some (0x42, m, true, [])
  | .sync m vers b fence bytes last => some (0x50, m, last, syncFs vers b fence bytes)
  | .move m slice queues ctxs => some (0x51, m, true, moveFs slice queues ctxs)
  | _ => none

/-- A message of a type stands among those that no ACK covers yet. -/
abbrev Dev.sends (d : Dev) (kind : Nat) (fs : Fields) : Prop := ∃ x ∈ d.gPend, x.kind = kind ∧ x.words = fs

/-- A message of a type leaves on the link between `d` and `t`. -/
abbrev Dev.puts (d t : Dev) (kind : Nat) : Prop := ∃ hd body tag, d.tells t (.gulon hd body tag) ∧ hd % 256 = kind

/-- A message's ACK covers nothing that is still waiting for one. -/
abbrev Dev.acksNothing (d : Dev) (m : GMsg) : Prop := m.ack = 2 ^ 64 - 1 ∨ ∀ x ∈ d.gPend, m.ack < x.mnum

/-- Commands to what stands on the board beside the controller: a bridge and its dies. -/
def boardRow : Instr → Bool
  | .dieRead _ _ _ _ _ | .dieProgram _ _ _ | .dieErase _ _ | .dieSuspend _ _ | .dieResume _ _ | .dieStatus _ _ _ _ _ | .setOffsets _ _ _ _
  | .ownTake _ _ _ _ | .ownRelease _ _ | .bridgePower _ _ _ | .laneTest _ _ _ _ _ _ | .pdata _ _ _ _ | .armConfirmCut _
  | .trickMark _ _ _ _ | .markMiss _ => true
  | _ => false

/-- The rows that may store into the embedded flash array. -/
def storesArray : Instr → Bool
  | .registerWrite _ | .unlockCycle _ _ _ | .programPage _ _ _ | .nvmEraseDone _ _ | .pgAoRise _ _ _ _ | .replayInject _ => true
  | _ => false

/-- The rows that may store into the persistent window. -/
def storesWindow : Instr → Bool
  | .pwinStore _ _ _ | .wstore _ _ | .sync _ _ _ _ _ _ | .resetNRecognised _ | .dumpExit _ | .pgAoRise _ _ _ _ | .format _ _
  | .replayInject _ => true
  | _ => false

end Sys2Proof.Machine
end

