-- ==== Sys2Proof/Certificates/Slice0/Obligations.lean ====
section
/-! DEFINITION. The statements for the provers, family by family. -/

open Sys2Proof Sys2Proof.Machine

/-! ### Register pages and address map (chapter 02) -/

/-- One step takes the command at the front of the queue and runs it on the state with the queue's rest; with no command waiting one
tick of the idle device passes, and nothing else.  The queue is the form of a block's model; the tick is the model's choice (log 1). -/
def Obligations.StepRunsTheFront : Prop :=
  (∀ (c : Instr) (rest : List Instr) (s : State), step { s with pending := c :: rest } = exec c { s with pending := rest }) ∧
  (∀ s : State, s.pending = [] → step s = .next { s with dev := s.dev.idleTick })

/-- R45, R50, R51, R52: the header writes that need no unlocking, to a page they reach.  ERR_CLEAR clears the five error registers;
INT_EN_WRITE, INT_PEND_CLEAR and INT_VEC_WRITE set, clear and set their fields, INT_PEND bit by bit; LOCK_WRITE unlocks with the key and
locks with any other value; LOCK_TIMEOUT locks a page once 2^20 ticks have passed.  Other headers keep. -/
def Obligations.HeaderRowsWrite : Prop :=
  ∀ (s : State) (pg : Nat) (v : Word), s.running → s.dev.reaches pg →
    (∃ t, exec (.errClear pg) s = .next t ∧ (t.dev.page pg).err = false ∧ (t.dev.page pg).errCode = 0 ∧ (t.dev.page pg).overflow = 0 ∧
      (t.dev.page pg).info0 = 0 ∧ (t.dev.page pg).info1 = 0 ∧ (t.dev.page pg).errTick = 0 ∧
      (∀ q, q ≠ pg → t.dev.page q = s.dev.page q)) ∧
    (∃ t, exec (.intEnWrite pg v) s = .next t ∧ (t.dev.page pg).intEn = v &&& intMask pg ∧
      (t.dev.page pg).intPend = (s.dev.page pg).intPend ∧ (∀ q, q ≠ pg → t.dev.page q = s.dev.page q)) ∧
    (∃ t, exec (.intPendClear pg v) s = .next t ∧ (t.dev.page pg).intPend = (s.dev.page pg).intPend &&& ~~~v ∧
      (t.dev.page pg).intEn = (s.dev.page pg).intEn ∧ (∀ q, q ≠ pg → t.dev.page q = s.dev.page q)) ∧
    (∃ t, exec (.intVecWrite pg v) s = .next t ∧ (t.dev.page pg).vecSet = some (bits v 4 0) ∧
      (∀ q, q ≠ pg → t.dev.page q = s.dev.page q)) ∧
    (∃ t, exec (.lockWrite pg v) s = .next t ∧ (t.dev.page pg).unlocked = decide (v = 0x4C4D0001) ∧
      (∀ q, q ≠ pg → t.dev.page q = s.dev.page q)) ∧
    (s.dev.unlocked pg = false → ∃ t, exec (.lockTimeout pg) s = .next t ∧ (t.dev.page pg).unlocked = false ∧
      (∀ q, q ≠ pg → t.dev.page q = s.dev.page q))

/-- R46, R47, R48: a write of CTL that R48 does not refuse, to an unlocked page.  By each of the four rows it gives EN, FREEZE and ISOLATE the
values written, and SOFT_RST = 1 resets the page: INT_PEND and INT_EN are cleared, the page locks, CHK_CNT and the error registers keep (R45: of
a value that sets no RSVD bit).  A value without SOFT_RST leaves the page unlocked and a running SOFT_RST as it is.  SOFT_RST_DONE ends a
SOFT_RST, whatever the page's lock, and does nothing else; on a page in no SOFT_RST it does nothing. -/
def Obligations.ControlRowsWrite : Prop :=
  (∀ (s : State) (pg : Nat) (v : Word), s.running → s.dev.reaches pg → s.dev.unlocked pg = true →
    let p := s.dev.page pg
    (bitAt v 1 = true ∨ bitAt v 3 = true → p.en = false ∧ bitAt v 0 = false ∧ s.dev.pageBusy pg = false) →
      ∃ t, exec (.ctlEn pg v) s = .next t ∧ exec (.softRst pg v) s = .next t ∧ exec (.freeze pg v) s = .next t ∧
        exec (.isolate pg v) s = .next t ∧
        (let q := t.dev.page pg
         q.en = bitAt v 0 ∧ q.freeze = bitAt v 2 ∧ q.isolate = bitAt v 3 ∧ q.softRst = (bitAt v 1 || p.softRst) ∧ q.chkCnt = p.chkCnt ∧
         (bitAt v 1 = false → q.unlocked = true) ∧
         (bitAt v 1 = true → q.intPend = 0 ∧ q.intEn = 0 ∧ q.unlocked = false ∧
           (v &&& 0xFFFFFFF0 = 0 → q.err = p.err ∧ q.errCode = p.errCode ∧ q.overflow = p.overflow ∧ q.info0 = p.info0 ∧
             q.info1 = p.info1 ∧ q.errTick = p.errTick)))) ∧
  (∀ (s : State) (pg : Nat), s.running →
    exec (.softRstDone pg) s = .next (if (s.dev.page pg).softRst then
      { s with dev := s.dev.setPage pg { s.dev.page pg with softRst := false } } else s))

/-- R48: a write that sets ISOLATE or SOFT_RST while EN is 1 before the write or in it, or while STS.BUSY is 1, leaves CTL unchanged and
records error 0x0003 with the value written (R44, R45: in a header that holds no error; else OVERFLOW counts it); a write to a locked page
leaves CTL unchanged with error 0x0002.  So do the four rows that write CTL, each alike. -/
def Obligations.ControlWriteRefused : Prop :=
  ∀ (s : State) (pg : Nat) (v : Word), s.running → s.dev.reaches pg →
    let p := s.dev.page pg
    let keeps (q : Page) : Prop := q.en = p.en ∧ q.softRst = p.softRst ∧ q.freeze = p.freeze ∧ q.isolate = p.isolate
    let all (t : State) : Prop := exec (.ctlEn pg v) s = .next t ∧ exec (.softRst pg v) s = .next t ∧ exec (.freeze pg v) s = .next t ∧
      exec (.isolate pg v) s = .next t
    (s.dev.unlocked pg = true → bitAt v 1 = true ∨ bitAt v 3 = true → p.en = true ∨ bitAt v 0 = true ∨ s.dev.pageBusy pg = true →
      ∃ t, all t ∧ keeps (t.dev.page pg) ∧ (t.dev.page pg).err = true ∧
        (p.err = false → v &&& 0xFFFFFFF0 = 0 → (t.dev.page pg).errCode = 0x0003 ∧ (t.dev.page pg).info0 = v) ∧
        (p.err = true → v &&& 0xFFFFFFF0 = 0 → (t.dev.page pg).overflow = satN 16 (p.overflow + 1) ∧
          (t.dev.page pg).errCode = p.errCode)) ∧
    (s.dev.unlocked pg = false →
      ∃ t, all t ∧ keeps (t.dev.page pg) ∧ (p.err = false → (t.dev.page pg).errCode = 0x0002 ∧ (t.dev.page pg).info0 = 0x10))

/-- R54, R289: a publication that the spacing of four tricks allows makes every covered register of a page with power, in no SOFT_RST, read
what it holds now, and through a port page on which the spacing of all allows it the common registers too; one that it does not allow
does nothing; and nothing but the published copies, the SEQ and the spacing changes.  R57: a read of GLB_TIME_LO answers the low half of
the count and latches the other two registers. -/
def Obligations.PublishAndTimeRead : Prop :=
  (∀ (s : State) (pg : Nat), s.running → pageExists pg = true →
    (s.dev.pubDue pg = true →
      ∃ t, exec (.snapshotPublish pg) s = .next t ∧
        (s.dev.powered pg = true → (s.dev.page pg).softRst = false → ∀ o ∈ coveredOffs pg, t.dev.readReg o = s.dev.liveReg o) ∧
        (pagePort pg ≠ none → s.dev.comDue = true → ∀ o ∈ commonOffs, t.dev.readReg o = s.dev.liveReg o) ∧
        ∃ pub pages cs ct, t = { s with dev := { s.dev with published := pub, pages := pages, comSeq := cs, comTick := ct } }) ∧
    (s.dev.pubDue pg = false → exec (.snapshotPublish pg) s = .next s)) ∧
  (∀ s : State, s.running → s.dev.barUp = true → (s.dev.page 0).softRst = false →
    ∃ t, exec .glbTimeRead s = .next t ∧ t.dev.latHi = half32 true s.dev.tick ∧
      t.dev.latEpoch = w32 (s.dev.epoch + 2 ^ 16 * s.dev.coarse.toNat + 2 ^ 17 * s.dev.fld Reg.DLR_TIME_STS 2 1) ∧
      t.dev.out = s.dev.out ++ [.readData (s.dev.tick % 2 ^ 32)] ∧
      t.dev.regs = s.dev.regs ∧ t.dev.pages = s.dev.pages)

/-- R37 to R40, R42, R63, R71, R559: an aligned 32-bit write of a register with no command of its own, from a head on which BAR0 decodes, stores the merge
of its fields when its table allows the value and refuses it with an error when not; a 32-bit read answers what BAR0 holds there and changes
no register; a write of 8 or 16 bits is dropped with error 0x0006.  A write of a selector makes the group present the instance it names.  A
32-bit write to BAR2 is the doorbell's own row at the slice and queue of its offset.  Every access completes: with Unsupported Request on BAR0
and BAR4 of a head without MGR, with retry status on the configuration space until release. -/
def Obligations.RegisterWrites : Prop :=
  (∀ (s : State) (head off value : Nat) (r : RegDef), s.running → s.dev.mgrOn (head % 4) = true → s.dev.isOpen (off / 0x1000) →
    off % 4 = 0 → 0x100 ≤ off % 0x1000 → off < 0x2000000 → inAperture off = false → bodyWrite off = settingWrite off →
    regDef? off = some r → off ≠ Reg.PWR_WAKE_EN →
    let new := mergeWrite r (s.dev.reg (canonOff off)) (w32 value) true
    ∃ t, exec (.registerWrite ⟨head, .bar0, false, off, 4, value⟩) s = .next t ∧
      (s.dev.settingOk (canonOff off) new = true → t.dev.reg (canonOff off) = new) ∧
      (s.dev.settingOk (canonOff off) new = false → t.dev.regs = s.dev.regs ∧ (t.dev.page (off / 0x1000)).err = true)) ∧
  (∀ (s : State) (head off value : Nat), s.running → s.dev.barUp = true → s.dev.mgrOn (head % 4) = true →
    off % 4 = 0 → off < 0x2000000 → inAperture off = false →
    ∃ t, exec (.registerWrite ⟨head, .bar0, true, off, 4, value⟩) s = .next t ∧ s.dev.tells t.dev (.readData (s.dev.bar0Read off).toNat) ∧
      t.dev.regs = s.dev.regs ∧ t.array = s.array ∧ t.window = s.window) ∧
  (∀ (s : State) (head off size value : Nat), s.running → s.dev.isOpen (off / 0x1000) → s.dev.mgrOn (head % 4) = true →
    size = 1 ∨ size = 2 → off < 0x2000000 → inAperture off = false → (s.dev.page (off / 0x1000)).err = false →
    ∃ t, exec (.registerWrite ⟨head, .bar0, false, off, size, value⟩) s = .next t ∧ (t.dev.page (off / 0x1000)).errCode = 0x0006 ∧
      t.dev.regs = s.dev.regs) ∧
  (∀ (s : State) (off : Nat) (v : Word) (r : RegDef), s.running → s.dev.isOpen (off / 0x1000) → isSelector off = true →
    regDef? off = some r →
    ∃ t, exec (.selectorWrite off v) s = .next t ∧ t.dev.reg off = mergeWrite r (s.dev.reg off) v true ∧
      ∀ o ∈ selectorGroup off, t.dev.readReg o = t.dev.liveReg o) ∧
  (∀ (s : State) (head off value : Nat), s.running → s.dev.barUp = true → s.dev.headUp (head % 4) = true → s.dev.rpFence = false →
    let db := exec (.registerWrite ⟨head, .bar2, false, off, 4, value⟩) s
    (off % 0x1000 = 0x000 → db = exec (.sqTailDbWrite (off / 0x10000 % 1024) (off / 0x1000 % 16) (w32 value)) s) ∧
    (off % 0x1000 = 0x004 → db = exec (.cqHeadDbWrite (off / 0x10000 % 1024) (off / 0x1000 % 16) (w32 value)) s) ∧
    (off % 0x1000 = 0x008 → db = exec (.qReset (off / 0x10000 % 1024) (off / 0x1000 % 16) (w32 value)) s)) ∧
  (∀ (s : State) (a : HostAccess), s.running →
    (∃ t, exec (.registerWrite a) s = .next t) ∧
    (a.space = .bar0 ∨ a.space = .bar4 → s.dev.barUp = true → s.dev.headUp (a.head % 4) = true → s.dev.mgrOn (a.head % 4) = false →
      exec (.registerWrite a) s = .next { s with dev := s.dev.emit (.unsupportedRequest (a.head % 4)) }) ∧
    (a.space = .config → s.dev.headUp (a.head % 4) = true → s.dev.released = false ∨ s.dev.resetRun = true →
      exec (.registerWrite a) s = .next { s with dev := s.dev.emit (.configRetry (a.head % 4)) }))

/-- R58, R560: GLB_RST_CTL with its key.  An accepted WARM write, and an accepted COLD write or a recognised RESET_N, count a device
reset with its scope and clear ABANDONED, the writes REFUSED too; a WARM write with a tag outstanding only sets REFUSED. -/
def Obligations.DeviceResetsStart : Prop :=
  ∀ (s : State) (res : BringUp), s.running → s.dev.isOpen 0 →
    let sts (t : State) (scope : Nat) (refused : Bool) : Prop :=
      t.dev.fld Reg.GLB_RST_STS 31 16 = min (s.dev.fld Reg.GLB_RST_STS 31 16 + 1) 0xFFFF ∧ t.dev.fld Reg.GLB_RST_STS 3 0 = scope ∧
      t.dev.flag Reg.GLB_RST_STS 4 = refused ∧ t.dev.flag Reg.GLB_RST_STS 5 = false
    (s.dev.noTags = true → ∃ t, exec (.warmReset 0x4C4D0001 res) s = .next t ∧ sts t 1 false ∧ t.dev.resetRun = true ∧ t.dev.phase = 1) ∧
    (s.dev.noTags = false → ∃ t, exec (.warmReset 0x4C4D0001 res) s = .next t ∧ t.dev.flag Reg.GLB_RST_STS 4 = true ∧
      t.dev.fld Reg.GLB_RST_STS 31 16 = s.dev.fld Reg.GLB_RST_STS 31 16 ∧ t.dev.resetRun = s.dev.resetRun) ∧
    (s.dev.dumping = false → s.dev.mode ≤ 2 →
      ∃ t, exec (.coldReset 0x4C4D0002 res) s = .next t ∧ sts t 2 false ∧ t.dev.dumping = true ∧ t.dev.bring = some res) ∧
    (s.dev.dumping = false → s.dev.down = false → 2 ≤ s.dev.stage → s.dev.restarts = false → s.dev.mode ≤ 2 →
      ∃ t, exec (.resetNRecognised res) s = .next t ∧ sts t 2 (s.dev.flag Reg.GLB_RST_STS 4) ∧ t.dev.dumping = true ∧ t.dev.bring = some res)

/-! ### Host ports (chapter 03) -/

/-- R61, R69, R70, R71: a head that is up goes down with its IDE bits at the tick given; a head of the configuration that is down and
reaches L0 at its full width on lanes that passed comes up with its rate and width; PERST# of a port takes both its heads down and
clears their keys and their configuration spaces; and when a slice has had no usable head for HIF_HEAD_WAIT, its commands that need host data, and have needed it as
long, end with FAILOVER_RESUBMIT. -/
def Obligations.HeadsMove : Prop :=
  ∀ (s : State), s.running →
    (∀ h, h < 4 → s.dev.headUp h = true →
      ∃ t, exec (.headDown h) s = .next t ∧ t.dev.headUp h = false ∧ t.dev.flag (Reg.HIF_LINK_STS h) 8 = false ∧
        t.dev.flag (Reg.HIF_LINK_STS h) 9 = false ∧ (t.dev.page 0x100).intPend = putBit (s.dev.page 0x100).intPend 0 true ∧
        Dev.frame { s.dev with headDown := SMap.insert s.dev.headDown h s.dev.tick } t.dev [Reg.HIF_LINK_STS h] [0x100]) ∧
    (∀ h rate width, h < 4 → rate ≤ 2 → width = (if s.dev.bifNow.testBit (h / 2) then 8 else 16) → s.dev.headExists h = true →
      s.dev.headUp h = false → (∀ l < 32, s.dev.flag Reg.TST_HOSTLANE l = false) →
      ∃ t, exec (.headUp h rate width) s = .next t ∧ t.dev.headUp h = true ∧ t.dev.fld (Reg.HIF_LINK_STS h) 2 1 = rate ∧
        t.dev.fld (Reg.HIF_LINK_STS h) 7 3 = width ∧ t.dev.headDown.find h = none) ∧
    (∃ t, exec .perstAN s = .next t ∧ t.dev.headUp 0 = false ∧ t.dev.headUp 1 = false ∧
      (∀ k, k / 512 = 0 → t.dev.ideOf k = Ide.reset) ∧ ∀ k, k / 32 = 0 → SMap.get cfgReset t.dev.cfg k = cfgReset k) ∧
    (∃ t, exec .perstBN s = .next t ∧ t.dev.headUp 2 = false ∧ t.dev.headUp 3 = false ∧
      (∀ k, k / 512 = 1 → t.dev.ideOf k = Ide.reset) ∧ ∀ k, k / 32 = 1 → SMap.get cfgReset t.dev.cfg k = cfgReset k) ∧
    (∀ sl, sl < 1024 → s.dev.sliceHead sl = none →
      ∃ t, exec (.headWaitExpire sl) s = .next t ∧ ∀ q ∈ queuesOf sl, ∀ c ∈ (s.dev.queue q).live, c.movesData = true →
        max (s.dev.headless sl) c.dbTick + s.dev.fld Reg.HIF_HEAD_WAIT 15 0 * 1000000 ≤ s.dev.tick →
        (⟨c.tag, 0, 0x0601, 0, 0⟩ : CE) ∈ (t.dev.queue q).held)

/-- R67, R68, R116: the host answers an access of a command whose data moves.  Unsupported Request, Completer Abort and, once HIF_DMA_TMO
has passed, the DMA timeout end it with INVALID_FIELD and record error 0x0100 with the slice and the head; a poisoned completion ends a WRITE
with DATA_POISONED and the block's offset. -/
def Obligations.HostAccessesFail : Prop :=
  ∀ (s : State) (qid tag h : Nat) (c : Cmd), s.running → qid < 16384 → tag < 32 → s.dev.moving qid tag = some c → s.dev.canPost qid →
    s.dev.sliceHead (qid / 16) = some h →
    (s.dev.page 0x100).err = false →
    (∃ t, exec (.hostAccessFail qid tag) s = .next t ∧ s.dev.posts t.dev qid tag 0x0102 0 ∧ (t.dev.page 0x100).errCode = 0x0100 ∧
      (t.dev.page 0x100).info0 = w32 (qid / 16) ∧ (t.dev.page 0x100).info1 = w32 h) ∧
    (c.ioTick + s.dev.fld Reg.HIF_DMA_TMO 15 0 * 1000000 ≤ s.dev.tick →
      ∃ t, exec (.hifDmaTmoExpire qid tag) s = .next t ∧ s.dev.posts t.dev qid tag 0x0102 0 ∧ (t.dev.page 0x100).errCode = 0x0100) ∧
    (s.dev.tick < c.ioTick + s.dev.fld Reg.HIF_DMA_TMO 15 0 * 1000000 → exec (.hifDmaTmoExpire qid tag) s = .next s) ∧
    (∀ block, c.op = opWrite → block < c.nblk → ∃ t, exec (.poisonedCompletion qid tag block) s = .next t ∧
      s.dev.posts t.dev qid tag 0x0201 block)

/-- R74, R75, R80, R83, R85, R89: the persistent window.  A load answers the bytes stored, poison where a line is poisoned; a store that
its segment takes, within what may await the twin, leaves its bytes and marks each granule it touches dirty; every other byte of the
window and every byte of the flash array reads as before, and a store not taken changes no byte. -/
def Obligations.WindowAccess : Prop :=
  (∀ (s : State) (head off len : Nat), s.running → s.dev.memUp head = true → s.dev.hifHeld = false →
    s.dev.inWindow head off len true = true → (∀ l ∈ unitsOf off len 64, s.dev.pwBad l = false) →
    exec (.pwinLoad head off len) s = .next { s with dev := (
      s.dev.emit (.readData (ofBytes ((Memory.readList windowDflt s.window off len).map BitVec.toNat)))) }) ∧
  (∀ (s : State) (head off len : Nat), s.running → s.dev.memUp head = true → s.dev.hifHeld = false →
    s.dev.inWindow head off len true = true → (∃ l ∈ unitsOf off len 64, s.dev.pwBad l = true) →
    exec (.pwinLoad head off len) s = .next { s with dev := s.dev.emit .poison }) ∧
  (∀ (s : State) (head off : Nat) (bytes : List Byte), s.running →
    (s.dev.storeOk head off bytes.length = true → ∃ t, exec (.pwinStore head off bytes) s = .next t ∧
      (∀ i (h : i < bytes.length), Memory.read windowDflt t.window (off + i) = bytes[i]) ∧
      (∀ a, a < off ∨ off + bytes.length ≤ a → Memory.read windowDflt t.window a = Memory.read windowDflt s.window a) ∧
      t.array = s.array ∧ s.dev.tells t.dev .cxlDone ∧ ∀ g ∈ unitsOf off bytes.length 32768, (t.dev.pwDirty.find g).isSome = true) ∧
    (s.dev.storeOk head off bytes.length = false → ∃ t, exec (.pwinStore head off bytes) s = .next t ∧ t.window = s.window ∧
      t.array = s.array))

/-- R73, R78, R79, R81, R83: the window's segments.  A dirty granule of an active segment with a valid key becomes a version that no
block read sees; the window takes a new size while no segment is active, which sets the cache's slots; a segment with a legal backing
becomes active with EN, loses EN and stays active until its granules are written back. -/
def Obligations.WindowSegments : Prop :=
  ∀ (s : State), s.running →
    (∀ g x, s.dev.pwDirty.find g = some x → x.copying = false → g / 8192 < 32 → s.dev.segActive (g / 8192) = true →
      s.dev.health ≠ 3 → s.dev.hifStop = false → s.dev.cryHeld = false → s.dev.mapHeld = false → s.dev.dumping = false →
      s.dev.released = true → s.dev.mayTake 3 8 = true →
      let n := g / 8192
      let sl := s.dev.fld (Reg.SEG_CTL n) 13 4
      (s.dev.ctx (4 * sl + s.dev.fld (Reg.SEG_CTL n) 15 14)).st = .valid →
      (s.dev.ctx (4 * sl + s.dev.fld (Reg.SEG_CTL n) 15 14)).mode = 1 →
      ∃ t, exec (.pwinWriteback g) s = .next t ∧ (t.dev.pwDirty.find g).map PwGran.copying = some true ∧
        (∃ v, t.dev.cache = s.dev.cache ++ [v] ∧ v.slice = sl ∧ v.granule = (s.dev.segLba n + 8 * (g % 8192)) / 8 ∧ v.pwin = true ∧
          v.posted = false) ∧ t.window = s.window) ∧
    (∀ (v : Word), s.dev.isOpen 0x101 → (∀ n < 32, s.dev.segActive n = false) → bits v 5 0 ≤ 32 → bits v 5 0 ≠ s.dev.segs →
      ∃ t, exec (.pwinResize v) s = .next t ∧ t.dev.segs = bits v 5 0 ∧ t.dev.slots = (32 - bits v 5 0) * 61440 ∧
        t.dev.flag Reg.HIF_PWIN_STS 0 = decide (0 < bits v 5 0) ∧ t.window = s.window) ∧
    (∀ n (v : Word), s.dev.isOpen 0x101 → n < 32 → s.dev.segActive n = false → s.dev.flag (Reg.SEG_CTL n) 0 = false →
      s.dev.segLba n % 65536 = 0 → s.dev.segLba n + 65536 ≤ (s.dev.slice (bits v 13 4)).blks → bits v 31 16 ≠ 0xFFFF →
      ∃ t, exec (.segEnable n v) s = .next t ∧ t.dev.flag (Reg.SEG_CTL n) 0 = true ∧ t.dev.segActive n = true ∧
        t.dev.fld (Reg.SEG_CTL n) 13 4 = bits v 13 4) ∧
    (∀ n (v : Word), s.dev.isOpen 0x101 → n < 32 → s.dev.segActive n = true → bits v 31 1 = bits (s.dev.reg (Reg.SEG_CTL n)) 31 1 →
      ∃ t, exec (.segDisable n v) s = .next t ∧ t.dev.flag (Reg.SEG_CTL n) 0 = false ∧ t.dev.segActive n = s.dev.segDirty n) ∧
    (∀ n, n < 32 → s.dev.segActive n = true → s.dev.flag (Reg.SEG_CTL n) 0 = false → s.dev.segDirty n = false →
      ∃ t, exec (.segDrained n) s = .next t ∧ t.dev.segActive n = false ∧ t.dev.regs = (s.dev.setFlag (Reg.SEG_STS n) 0 false).regs ∧
        Dev.frame s.dev t.dev [Reg.SEG_STS n] [])

/-- R86, R87: Phase 1 of a Global Persistent Flush fixes the stores and clears the done and single bits; Phase 2 completes at once
without a twin, counted and marked as of one copy, and runs on while a store of before Phase 1, of a segment whose head is up, awaits the twin.  R90, R91: a
key that the stream has not had before, programmed inside an SPDM session, makes a stream secure, a repeated key or one from outside such a session does nothing, exhaustion stops it, an integrity failure takes its head down with error
0x0101.  R92, R93: a completed dialogue publishes residual and delay and counts good ones up to the lock; 1 s without one loses it. -/
def Obligations.LinkServices : Prop :=
  ∀ (s : State), s.running →
    (s.dev.barUp = true → s.dev.anyHead = true → ∃ t, exec .gpfPhase1 s = .next t ∧ t.dev.flag Reg.HIF_GPF_STS 0 = true ∧ t.dev.flag Reg.HIF_GPF_STS 1 = false ∧
      t.dev.flag Reg.HIF_GPF_STS 2 = false ∧
      Dev.frame { s.dev with gpfMark := s.dev.gTx, gpfRun := false } t.dev [Reg.HIF_GPF_STS] []) ∧
    (s.dev.barUp = true → s.dev.anyHead = true → s.dev.hifHeld = false → s.dev.paired = false → ∃ t, exec .gpfPhase2 s = .next t ∧
      t.dev.flag Reg.HIF_GPF_STS 1 = true ∧ t.dev.flag Reg.HIF_GPF_STS 2 = true ∧ t.dev.gpfRun = false ∧
      t.dev.fld Reg.HIF_GPF_STS 31 16 = min (s.dev.fld Reg.HIF_GPF_STS 31 16 + 1) 0xFFFF) ∧
    (∀ m ∈ s.dev.gPend, s.dev.gpfNeeds m = true → s.dev.flag Reg.HIF_GPF_STS 0 = true →
      s.dev.barUp = true → s.dev.anyHead = true → s.dev.hifHeld = false → s.dev.paired = true → ∃ t, exec .gpfPhase2 s = .next t ∧
      t.dev.gpfRun = true ∧ t.dev.flag Reg.HIF_GPF_STS 1 = s.dev.flag Reg.HIF_GPF_STS 1) ∧
    (∀ h st key, h < 4 → st < 2 → s.dev.headUp h = true → key ∉ SMap.get (fun _ => []) s.dev.ideUsed (256 * h + st) →
      ∃ t, exec (.ideKmKeyProgram h st key true) s = .next t ∧ t.dev.ideOf (256 * h + st) = ⟨key, true, false, false⟩ ∧
        t.dev.flag (Reg.HIF_LINK_STS h) (8 + st) = true) ∧
    (∀ h st key spdm, h < 4 → st < 256 → spdm = false ∨ s.dev.headUp h = false ∨ key ∈ SMap.get (fun _ => []) s.dev.ideUsed (256 * h + st) →
      exec (.ideKmKeyProgram h st key spdm) s = .next s) ∧
    (∀ h st, h < 4 → st < 2 → (s.dev.ideOf (256 * h + st)).live = true →
      (∃ t, exec (.ideExhaust h st) s = .next t ∧ (t.dev.ideOf (256 * h + st)).live = false ∧
        (t.dev.ideOf (256 * h + st)).stopped = true ∧ t.dev.flag (Reg.HIF_LINK_STS h) (8 + st) = false ∧
        bitAt (t.dev.page 0x100).intPend 3 = true) ∧
      ((s.dev.page 0x100).err = false → ∃ t, exec (.ideIntegrityFail h st) s = .next t ∧
        (t.dev.ideOf (256 * h + st)).insecure = true ∧ t.dev.headUp h = false ∧ (t.dev.page 0x100).errCode = 0x0101 ∧
        (t.dev.page 0x100).info0 = w32 h ∧ (t.dev.page 0x100).info1 = w32 st)) ∧
    (∀ (ofs res : Int) (delay : Nat), s.dev.flag Reg.HIF_PTM_CTL 0 = true → s.dev.headUp (s.dev.fld Reg.HIF_PTM_CTL 2 1) = true →
      s.dev.hifHeld = false → ∃ t, exec (.ptmDialogue ofs res delay) s = .next t ∧ t.dev.reg Reg.HIF_PTM_OFS = wInt res ∧
        t.dev.reg Reg.HIF_PTM_PDELAY = w32 delay ∧ t.dev.ptmLast = s.dev.tick ∧
        (res.natAbs ≤ 8 → t.dev.fld Reg.HIF_PTM_STS 7 4 = min (s.dev.fld Reg.HIF_PTM_STS 7 4 + 1) 15 ∧
          (7 ≤ s.dev.fld Reg.HIF_PTM_STS 7 4 → t.dev.flag Reg.HIF_PTM_STS 0 = true)) ∧
        (8 < res.natAbs → t.dev.fld Reg.HIF_PTM_STS 7 4 = 0 ∧ (2 ≤ s.dev.ptmBad → t.dev.flag Reg.HIF_PTM_STS 0 = false))) ∧
    (s.dev.flag Reg.HIF_PTM_STS 0 = true → s.dev.ptmLast + 1000000000 ≤ s.dev.tick → (s.dev.page 0x100).err = false →
      ∃ t, exec .ptmTimeout s = .next t ∧ t.dev.flag Reg.HIF_PTM_STS 0 = false ∧ t.dev.fld Reg.HIF_PTM_STS 7 4 = 0 ∧
        (t.dev.page 0x100).errCode = 0x0104 ∧
        Dev.frame { s.dev with ptmGood := 0 } t.dev [Reg.HIF_PTM_STS] [0x100])

/-- R64, R87 to R89, R94, R95: the memory-device mailbox answers each command of Table HIF-2 with its payload and any other opcode with
Unsupported; the sideband serves MCTP control, SPDM, health and sensors with their thresholds (R554) and the vendor's report and counts what it drops, and the bus gives it its dynamic address.  R52: an
MSI-X table write stores its dword.  R98: a write of SLICE_HEAD whose bytes name heads that exist is stored. -/
def Obligations.MailboxAndSideband : Prop :=
  ∀ (s : State), s.running →
    (s.dev.barUp = true → s.dev.hifHeld = false →
      exec .identifyMemoryDevice s = .next { s with dev := s.dev.emit (.mailbox 0 [s.dev.segs, 0, s.dev.segs]) } ∧
      exec .getHealthInfo s = .next { s with dev := s.dev.emit (.mailbox 0
        [s.dev.health, Config.sensor 0, s.dev.shutState, s.dev.fld Reg.HIF_DIRTY_SHUT 31 0]) } ∧
      (∀ x, exec (.alertConfiguration (some x)) s = .next { s with dev := { s.dev with alertSet := some x }.emit (.mailbox 0 [x]) }) ∧
      exec (.alertConfiguration none) s = .next { s with dev := s.dev.emit (.mailbox 0 [s.dev.alertSet.getD 0]) } ∧
      exec .getPoisonList s = .next { s with dev := s.dev.emit (.mailbox 0 (s.dev.pwBadLines.map (fun l => 64 * l))) } ∧
      exec .getEventRecords s = .next { s with dev := s.dev.emit (.mailbox 0 (s.dev.events.flatMap (fun e => [e.code, e.tick]))) } ∧
      (∀ n, exec (.clearEventRecords n) s = .next { s with dev := (
        { s.dev with events := s.dev.events.drop n }.emit (.mailbox 0 [])) }) ∧
      (∀ v, exec (.setShutdownState v) s = .next { s with dev := { s.dev with shutState := v }.emit (.mailbox 0 []) }) ∧
      (∀ op, op ∉ [0x0100, 0x0101, 0x4000, 0x4200, 0x4201, 0x4202, 0x4204, 0x4300] →
        exec (.mailboxUnsupported op) s = .next { s with dev := s.dev.emit (.mailbox 0x15 [op]) })) ∧
    (s.dev.mode ≤ 2 → s.dev.flag Reg.HIF_I3C_CTL 7 = true →
      exec (.mctpMessage 0) s = .next { s with dev := s.dev.emit (.mctp 0 []) } ∧
      exec (.mctpMessage 5) s = .next { s with dev := s.dev.emit (.mctp 5 []) } ∧
      exec (.mctpMessage 1) s = .next { s with dev := s.dev.emit (.mctp 1 [s.dev.health, Config.sensor 0, Config.sensor 1, Config.sensor 2, 105, 115]) } ∧
      exec (.mctpMessage 0x7F) s = .next { s with dev := s.dev.emit (.mctp 0x7F (s.dev.healthReport none)) } ∧
      (∀ k, k ∉ [0, 1, 5, 0x7F] → ∃ t, exec (.mctpMessage k) s = .next t ∧
        t.dev.fld Reg.HIF_I3C_STS 31 16 = min (s.dev.fld Reg.HIF_I3C_STS 31 16 + 1) 0xFFFF ∧ t.dev.out = s.dev.out) ∧
      (∀ a, a < 128 → ∃ t, exec (.i3cDynamicAddress a) s = .next t ∧ t.dev.fld Reg.HIF_I3C_STS 6 0 = a ∧
        t.dev.flag Reg.HIF_I3C_STS 7 = true)) ∧
    (∀ head off v, s.dev.barUp = true → s.dev.mgrOn (head % 4) = true → off < 0x8000 → off % 4 = 0 → ∃ t, exec (.msixTableWrite head off v) s = .next t ∧
      SMap.get msixReset t.dev.msixTbl (off / 4) = v ∧ ∀ i, i ≠ off / 4 → SMap.get msixReset t.dev.msixTbl i =
        SMap.get msixReset s.dev.msixTbl i) ∧
    (∀ w (v : Word), w < 256 → s.dev.isOpen 0x102 → v &&& 0xE0E0E0E0 = 0 →
      (∀ i < 4, s.dev.headByteOk (bits v (8 * i + 7) (8 * i)) = true) →
      ∃ t, exec (.sliceHeadWrite w v) s = .next t ∧ t.dev.reg (Reg.HIF_SLICE_HEAD w) =
        (s.dev.reg (Reg.HIF_SLICE_HEAD w) &&& 0xE0E0E0E0) ||| v)

/-! ### Command queues (chapter 04) -/

/-- R100, R101, R105, R113, R122, R125, R143: doorbells of an enabled queue of a bound slice move its tail and head, and a value out of
range changes neither and records 0x0100; a fetch takes the entry at SQ_HEAD, which becomes outstanding or ends with the first check of
Table CQE-5 that it fails; a ring fault stops the queue; a command that was held starts when the one that held it has posted, its first units dispatched; a unit is
dispatched while the slice's share is open, in fetch order, on the slice's head and with the generations of the moment, and a command's accesses
are measured from its first. -/
def Obligations.DoorbellsAndFetch : Prop :=
  ∀ (s : State) (sl qp : Nat) (v : Word), s.running → sl < 1024 → qp < 16 → s.dev.released = true → s.dev.resetRun = false →
    s.dev.mode ≤ 2 → s.dev.rpFence = false →
    let qid := 16 * sl + qp
    let q := s.dev.queue qid
    (q.en = true → q.resetting = false → (s.dev.slice sl).st ∈ [SliceSt.active, .freezing, .frozen] →
      ((bits v 15 0 + 65536 - q.sqHead) % 65536 ≤ 32 →
        ∃ t, exec (.sqTailDbWrite sl qp v) s = .next t ∧ (t.dev.queue qid).sqTail = bits v 15 0 ∧
          (∀ k, k ≠ qid → t.dev.queue k = s.dev.queue k)) ∧
      (32 < (bits v 15 0 + 65536 - q.sqHead) % 65536 → (s.dev.page 0x200).err = false →
        ∃ t, exec (.sqTailDbWrite sl qp v) s = .next t ∧ (t.dev.queue qid).sqTail = q.sqTail ∧ (t.dev.queue qid).dbErr = true ∧
          (t.dev.page 0x200).errCode = 0x0100 ∧ (t.dev.page 0x200).info0 = w32 qid ∧ (t.dev.page 0x200).info1 = v) ∧
      ((bits v 15 0 + 65536 - q.cqHead) % 65536 ≤ (q.cqPosted + 65536 - q.cqHead) % 65536 →
        ∃ t, exec (.cqHeadDbWrite sl qp v) s = .next t ∧ (t.dev.queue qid).cqHead = bits v 15 0)) ∧
    (∀ entry, s.dev.mayFetch qid = true → s.dev.canPost qid →
      let c := parseSqe entry s.dev.fetchNo (q.doorbellOf q.sqHead s.dev.tick)
      ∃ t, exec (.sqeFetch qid entry) s = .next t ∧ (t.dev.queue qid).sqHead = (q.sqHead + 1) % 65536 ∧
        t.dev.fetchNo = s.dev.fetchNo + 1 ∧
        (s.dev.fetchCheck qid c = none → ((t.dev.queue qid).cmd? c.tag).isSome = true) ∧
        (∀ st info, s.dev.fetchCheck qid c = some (st, info) → s.dev.posts t.dev qid c.tag st info)) ∧
    (∀ completion, q.en = true → (s.dev.page 0x200).err = false →
      ∃ t, exec (.ringFault qid completion) s = .next t ∧ (t.dev.queue qid).fault = true ∧ (t.dev.page 0x200).errCode = 0x0101 ∧
        bitAt (t.dev.page 0x200).intPend 1 = true) ∧
    (∀ tag c, tag < 32 → q.cmd? tag = some c → c.done = false → q.free c = true →
      (c.wasHeld = true → c.started = false → c.waiting = false → q.inOrder c = true → (readType c.op || writeType c.op) = true →
        0 < c.nblk → s.dev.cutRuns sl = false → s.dev.dataHeld = false → s.dev.shareOpen sl = true →
        let k := min c.nblk ((s.dev.slice sl).shareAct * 256 - (s.dev.slice sl).inflight)
        ∃ t, exec (.hazardRelease qid tag) s = .next t ∧ 0 < k ∧ (t.dev.queue qid).cmd? tag = some { c with
            units := k, sgen := (s.dev.slice sl).sgen, qgen := q.qgen, ioTick := s.dev.tick
            heads := c.heads ++ List.replicate k ((s.dev.sliceHead sl).getD (s.dev.headByte sl % 4)) } ∧
          (t.dev.slice sl).inflight = (s.dev.slice sl).inflight + k) ∧
      (c.wasHeld = false ∨ c.started = true → exec (.hazardRelease qid tag) s = .next s) ∧
      ((writeType c.op || readType c.op) = true → c.waiting = false → c.units < c.nblk → s.dev.shareOpen sl = true →
        0 < c.units ∨ q.inOrder c = true → s.dev.cutRuns sl = false →
        s.dev.vslHeld = false → s.dev.mapHeld = false → s.dev.hifHeld = false →
        ∃ t, exec (.unitDispatch qid tag) s = .next t ∧ (t.dev.queue qid).cmd? tag = some { c with
            units := c.units + 1, sgen := (s.dev.slice sl).sgen, qgen := q.qgen
            ioTick := if c.units = 0 then s.dev.tick else c.ioTick
            heads := c.heads ++ [(s.dev.sliceHead sl).getD (s.dev.headByte sl % 4)] } ∧
          (t.dev.slice sl).inflight = (s.dev.slice sl).inflight + 1))

/-- R101: a doorbell value out of range, a tail that would put more than 32 unfetched entries in the ring or a head that would pass the
entries posted, is ignored and sets DB_ERR, and error 0x0100 goes into the CQE header with the queue and the value (if it holds an
error already, OVERFLOW counts it); the end of a reset of the queue clears DB_ERR. -/
def Obligations.DoorbellsOutOfRange : Prop :=
  ∀ (s : State) (sl qp : Nat) (v : Word), s.running → sl < 1024 → qp < 16 → s.dev.released = true → s.dev.resetRun = false →
    s.dev.mode ≤ 2 → s.dev.rpFence = false →
    let qid := 16 * sl + qp
    let q := s.dev.queue qid
    let ignored (t : State) : Prop := (t.dev.queue qid).dbErr = true ∧ (t.dev.queue qid).sqTail = q.sqTail ∧
      (t.dev.queue qid).cqHead = q.cqHead ∧ (t.dev.queue qid).sqHead = q.sqHead ∧ (t.dev.queue qid).cqPosted = q.cqPosted ∧
      (t.dev.queue qid).cmds = q.cmds ∧ (t.dev.queue qid).held = q.held ∧ (∀ k, k ≠ qid → t.dev.queue k = s.dev.queue k) ∧
      ((s.dev.page 0x200).err = false → (t.dev.page 0x200).err = true ∧ (t.dev.page 0x200).errCode = 0x0100 ∧
        (t.dev.page 0x200).info0 = w32 qid ∧ (t.dev.page 0x200).info1 = v) ∧
      ((s.dev.page 0x200).err = true → (t.dev.page 0x200).errCode = (s.dev.page 0x200).errCode ∧
        (t.dev.page 0x200).overflow = satN 16 ((s.dev.page 0x200).overflow + 1))
    (q.en = true → q.resetting = false → (s.dev.slice sl).st ∈ [SliceSt.active, .freezing, .frozen] →
      32 < (bits v 15 0 + 65536 - q.sqHead) % 65536 → ∃ t, exec (.sqTailDbWrite sl qp v) s = .next t ∧ ignored t) ∧
    (q.en = true → (s.dev.slice sl).st ∈ [SliceSt.active, .freezing, .frozen, .resetting] →
      (q.cqPosted + 65536 - q.cqHead) % 65536 < (bits v 15 0 + 65536 - q.cqHead) % 65536 →
      ∃ t, exec (.cqHeadDbWrite sl qp v) s = .next t ∧ ignored t) ∧
    (q.resetting = true → q.resetRoom = true → (s.dev.slice sl).st = .active → s.dev.sliceHead sl ≠ none →
      ∃ t, exec (.queueResetDrained qid) s = .next t ∧ (t.dev.queue qid).dbErr = false)

/-- R15, R16, R109, R120, R128, R177, R518: the commands that read.  READ and VERIFY of blocks that come from no flash page end with
the first block's failure, or with success and, for READ, the plaintext of each block's newest visible content at its place; where flash is read
they end once its data has come; SEAL_READ hands over the packed seals, or ends with INVALID_FIELD at a misaligned list pointer (that status is
the model's choice, log 209); FLUSH ends once nothing posted before it remains in the cache; MAP_SPACE and HEALTH_GET
hand over their reports. -/
def Obligations.ReadingRows : Prop :=
  ∀ (s : State) (qid tag : Nat) (c : Cmd), s.running → qid < 16384 → tag < 32 → s.dev.canPost qid →
    let sl := qid / 16
    let h := (s.dev.sliceHead sl).getD 0
    let came := s.dev.groupsOn sl (lbasOf c.lba c.nblk) = true ∧ s.dev.flashCame qid c (s.dev.wantFlash sl c.lba c.nblk)
    let cached := ∀ lba ∈ lbasOf c.lba c.nblk, s.dev.fromFlash sl lba = false
    let fails := ((List.range c.nblk).filterMap (fun i => s.dev.blockFail c sl i [])).head?
    let good := if 0 < c.wakeUs then 0x0602 else 0x0000
    (∀ lists, s.dev.ready qid tag opRead = some c → s.dev.runsNow qid c → s.dev.paysNow qid c →
      (cached → c.listBad lists = false → ∃ t, exec (.read qid tag lists) s = .next t ∧
        (fails = none → s.dev.posts t.dev qid tag good (successInfo c.wakeUs false false) ∧
          ∀ i < c.nblk, s.dev.tells t.dev (.hostData (s.dev.slice sl).pasid (s.dev.unitHead qid c i) ((c.pages lists).getD i 0)
            (s.dev.plainOf sl (c.lba + i) (s.dev.servedBlk sl (c.lba + i))))) ∧
        (∀ st info, fails = some (st, info) → s.dev.posts t.dev qid tag st info)) ∧
      (came → ∃ t, exec (.read qid tag lists) s = .next t ∧ ∃ st info, s.dev.posts t.dev qid tag st info)) ∧
    (s.dev.ready qid tag opVerify = some c → s.dev.runsNow qid c → s.dev.paysNow qid c →
      (cached → ∃ t, exec (.verify qid tag) s = .next t ∧
        (fails = none → s.dev.posts t.dev qid tag good (successInfo c.wakeUs false false)) ∧
        (∀ st info, fails = some (st, info) → s.dev.posts t.dev qid tag st info)) ∧
      (came → ∃ t, exec (.verify qid tag) s = .next t ∧ ∃ st info, s.dev.posts t.dev qid tag st info)) ∧
    (∀ lists, s.dev.ready qid tag opSealRead = some c → s.dev.runsNow qid c → s.dev.paysNow qid c → came →
      (c.listBad lists = false → ∃ t, exec (.sealRead qid tag lists) s = .next t ∧
        (∃ st info, isSuccess st = true ∧ s.dev.posts t.dev qid tag st info) ∧
        (cached → ∀ j < ceilDiv c.nblk 256, s.dev.tells t.dev (.hostData (s.dev.slice sl).pasid (s.dev.unitHead qid c (256 * j))
          ((c.pages lists).getD j 0)
          (packSeals ((((List.range c.nblk).map (fun i => (s.dev.servedBlk sl (c.lba + i)).sl.word)).drop (256 * j)).take 256))))) ∧
      (c.listBad lists = true → ∃ t, exec (.sealRead qid tag lists) s = .next t ∧ s.dev.posts t.dev qid tag 0x0102 16)) ∧
    (s.dev.ready qid tag opFlush = some c → s.dev.cqeStop = false →
      (∀ v ∈ s.dev.cache, v.slice = sl → v.posted = true → v.pwin = false → v.postNo ≤ c.fetched → c.nblk ≠ 0 ∧
        v.touches c.lba c.nblk = false) →
      ∃ t, exec (.flush qid tag) s = .next t ∧ s.dev.posts t.dev qid tag 0x0000 0) ∧
    (s.dev.ready qid tag opMapSpace = some c →
      ∃ t, exec (.mapSpace qid tag) s = .next t ∧ s.dev.posts t.dev qid tag 0x0000 0 ∧
        s.dev.tells t.dev (.hostReport (s.dev.slice sl).pasid h (c.dp.getD 0 0) [s.dev.get64 Reg.MAP_CLOG_LO Reg.MAP_CLOG_HI,
          s.dev.limit, s.dev.valid, (s.dev.mappedOf sl).length, (s.dev.slice sl).pinned.length, s.dev.fQ, s.dev.gcModeOf, 0])) ∧
    (s.dev.ready qid tag opHealthGet = some c →
      ∃ t, exec (.healthGet qid tag) s = .next t ∧ s.dev.posts t.dev qid tag 0x0000 0 ∧
        s.dev.tells t.dev (.hostReport (s.dev.slice sl).pasid h (c.dp.getD 0 0) (s.dev.healthReport (some sl))))

/-- R18, R22, R23, R81, R111, R185, R213: the commands that write, without a twin.  A command that needs no PROGRAMMED posts with one
copy, and its blocks read as it wrote them: WRITE its data and WRITE_ZEROES zeros, encrypted and sealed under its key and application tag,
DISCARD filled blocks (of a GVER above every other of its granules); one whose data has been taken and encrypted already goes on
from there; a range in an enabled segment ends with INVALID_FIELD and a failed key
check with its status. -/
def Obligations.WritingRows : Prop :=
  ∀ (s : State) (qid tag : Nat) (c : Cmd) (lists : List (List Nat)) (data : List Nat), s.running → qid < 16384 → tag < 32 →
    let sl := qid / 16
    let good := if 0 < c.wakeUs then 0x0602 else 0x0002
    let invoc := (s.dev.ctx (4 * sl + c.keyidx)).invocOf s.dev.side
    (s.dev.writesNow qid c → s.dev.paired = false → s.dev.waitsProgram c = false →
      (∀ x ∈ s.dev.mapPend, x.owner ≠ some (qid * 32 + tag)) →
      (∀ bs, s.dev.ready qid tag opWrite = some c → c.host = some bs → cacheFault sl c = none →
        ∃ t, exec (.write qid tag lists data) s = .next t ∧ s.dev.posts t.dev qid tag good (successInfo c.wakeUs false true) ∧
          ∀ i < c.nblk, t.dev.cachedBlk sl (c.lba + i) = some (bs.getD i (filledBlk sl (c.lba + i)))) ∧
      (s.dev.ready qid tag opWrite = some c → c.host = none → c.listBad lists = false → s.dev.cryCheck sl c = none →
        ∃ t, exec (.write qid tag lists data) s = .next t ∧ s.dev.posts t.dev qid tag good (successInfo c.wakeUs false true) ∧
          ∀ i < c.nblk, t.dev.cachedBlk sl (c.lba + i) = some (s.dev.newBlk sl c i (data.getD i 0 % 2 ^ 32768) invoc)) ∧
      (s.dev.ready qid tag opWriteZeroes = some c → c.host = none → s.dev.cryCheck sl c = none →
        ∃ t, exec (.writeZeroes qid tag) s = .next t ∧ s.dev.posts t.dev qid tag good (successInfo c.wakeUs false true) ∧
          ∀ i < c.nblk, t.dev.cachedBlk sl (c.lba + i) = some (s.dev.newBlk sl c i 0 invoc)) ∧
      (s.dev.ready qid tag opDiscard = some c → c.host = none → s.dev.dlogRoom (granulesOf c.lba c.nblk).length = true →
        (∀ g ∈ granulesOf c.lba c.nblk, gverNewer (s.dev.nextGver sl g) (s.dev.ent sl g).gver = true ∧
          ∀ v ∈ s.dev.versOf sl g, gverNewer (s.dev.nextGver sl g) v.gver = true) →
        ∃ t, exec (.discard qid tag) s = .next t ∧ s.dev.posts t.dev qid tag good (successInfo c.wakeUs false true) ∧
          ∀ i < c.nblk, t.dev.blkNow sl (c.lba + i) = filledBlk sl (c.lba + i)) ∧
      (∀ st info, s.dev.ready qid tag opWrite = some c → c.host = none → c.listBad lists = false → s.dev.cryCheck sl c = some (st, info) →
        ∃ t, exec (.write qid tag lists data) s = .next t ∧ s.dev.posts t.dev qid tag st info)) ∧
    (s.dev.ready qid tag opWrite = some c → c.host = none → c.listBad lists = false → s.dev.runsNow qid c → s.dev.paysNow qid c → c.bad = [] →
      s.dev.admitted c = true →
      (∀ g ∈ granulesOf c.lba c.nblk, s.dev.mergeWant sl c g = []) → s.dev.inSegment sl c.lba c.nblk = true →
      ∃ t, exec (.write qid tag lists data) s = .next t ∧ s.dev.posts t.dev qid tag 0x0102 0)

/-- R104, R130, R131, R133, R135, R136, Table CQE-2, Table MAP-2: the administration of queues.  CREATE_QP enables an idle queue pair
with its rings, DELETE_QP disables an idle one, MAP_PIN and MAP_UNPIN change the pinned pages; an announcement is due after COAL_US; a
ring held full for more than 1 ms raises CQ_STALL; a reset written with its key squashes every command and discards what is not
fetched, and its end posts the squashed tags and the reset-done entry and lets the queue go on; an idle queue takes its settings. -/
def Obligations.QueueRows : Prop :=
  ∀ (s : State) (qid tag : Nat) (c : Cmd), s.running → qid < 16384 → tag < 32 →
    let sl := qid / 16
    let q := s.dev.queue qid
    let qp := leBytes c.raw 4 1 % 16
    let t' := 16 * sl + qp
    (s.dev.ready qid tag opCreateQp = some c → s.dev.canPost qid → qid % 16 = 0 → qp ≠ 0 → qp < (s.dev.slice sl).qpMax →
      (s.dev.queue t').en = false → leBytes c.raw 16 8 % 4096 = 0 → leBytes c.raw 24 8 % 4096 = 0 → leBytes c.raw 32 1 % 64 ≤ 32 →
      ∃ t, exec (.createQp qid tag) s = .next t ∧ s.dev.posts t.dev qid tag 0x0000 0 ∧ (t.dev.queue t').en = true ∧
        (t.dev.queue t').sqb = leBytes c.raw 16 8 ∧ (t.dev.queue t').cqb = leBytes c.raw 24 8 ∧
        (t.dev.queue t').coalN = leBytes c.raw 32 1 % 64 ∧ (t.dev.queue t').sqHead = 0) ∧
    (s.dev.ready qid tag opDeleteQp = some c → s.dev.canPost qid → qid % 16 = 0 → qp ≠ 0 → (s.dev.queue t').cmds = [] →
      (s.dev.queue t').squash = [] → (s.dev.queue t').resetting = false →
      ∃ t, exec (.deleteQp qid tag) s = .next t ∧ s.dev.posts t.dev qid tag 0x0000 0 ∧ (t.dev.queue t').en = false) ∧
    (∀ p0 n, s.dev.ready qid tag opMapPin = some c → s.dev.canPost qid → s.dev.mapHeld = false → s.dev.pinRange sl c true = .inr (p0, n) →
      let ps := (List.range n).map (fun i => p0 + i)
      (s.dev.pinLoad sl c.cls ps).1 = true →
      ∃ t, exec (.mapPin qid tag) s = .next t ∧ s.dev.posts t.dev qid tag 0x0000 0 ∧
        (t.dev.slice sl).pinned = ps.foldl insertSorted (s.dev.slice sl).pinned ∧ ∀ p ∈ ps, sl * 2 ^ 25 + p ∈ t.dev.resident) ∧
    (∀ p0 n, s.dev.ready qid tag opMapUnpin = some c → s.dev.canPost qid → s.dev.mapHeld = false → s.dev.pinRange sl c false = .inr (p0, n) →
      ∃ t, exec (.mapUnpin qid tag) s = .next t ∧ s.dev.posts t.dev qid tag 0x0000 0 ∧
        (t.dev.slice sl).pinned = (s.dev.slice sl).pinned.filter (fun p => !(decide (p0 ≤ p) && decide (p < p0 + n)))) ∧
    (∀ h, q.ien = true → 0 < q.unann → q.unannTick + q.coalUs * 1000 ≤ s.dev.tick → s.dev.sliceHead sl = some h →
      s.dev.vecOpen h q.vector = true →
      ∃ t, exec (.coalesceTimeout qid) s = .next t ∧ (t.dev.queue qid).unann = 0 ∧ t.dev.out = s.dev.out ++ [.msix h q.vector]) ∧
    (∀ k, q.stallTick = some k → k + 1000000 < s.dev.tick →
      ∃ t, exec (.cqStallTimeout qid) s = .next t ∧ bitAt (t.dev.page 0x200).intPend 2 = true ∧ Dev.frame s.dev t.dev [] [0x200]) ∧
    (q.en = true → q.resetting = false → (s.dev.slice sl).st = .active →
      let cut (t : State) : Prop := (t.dev.queue qid).resetting = true ∧ (t.dev.queue qid).qgen = (q.qgen + 1) % 16 ∧
        (t.dev.queue qid).live = [] ∧ (t.dev.queue qid).sqHead = q.sqTail ∧ ∀ x ∈ q.live, x.tag ∈ (t.dev.queue qid).squash
      (s.dev.released = true → s.dev.resetRun = false → ∃ t, exec (.qReset sl (qid % 16) 0x51530001) s = .next t ∧ cut t) ∧
      (s.dev.isOpen 0x200 → s.dev.fld Reg.CQE_QSEL 13 0 = qid → ∃ t, exec (.cqeQRst 0x51530001) s = .next t ∧ cut t)) ∧
    (q.resetting = true → q.resetRoom = true → (s.dev.slice sl).st = .active → (s.dev.slice sl).cutWaits = false → s.dev.canPost qid →
      let pos := (q.cqPosted + q.squash.length) % 65536
      ∃ t, exec (.queueResetDrained qid) s = .next t ∧ (t.dev.queue qid).resetting = false ∧ (t.dev.queue qid).squash = [] ∧
        (∀ i (h : i < q.squash.length), ∃ pasid head addr ts sqhd timeb, s.dev.tells t.dev (.completion qid pasid head addr
          ((q.cqPosted + i) % 64) (phaseOf (q.cqPosted + i)) ts 0x0501 0 sqhd (tagWord q.squash[i] 0 (q.cqPosted + i)) timeb)) ∧
        ∃ pasid head addr ts sqhd, s.dev.tells t.dev (.completion qid pasid head addr (pos % 64) (phaseOf pos) ts 0x0000 (q.discarded % 2 ^ 16) sqhd (tagWord 0 1 pos)
          (q.squash.foldl (fun a t => a ||| 2 ^ t) 0))) ∧
    (∀ (v : Word), s.dev.isOpen 0x200 → s.dev.fld Reg.CQE_QSEL 13 0 = qid → q.en = false →
      (bits v 7 2 ≤ 32 → 32 ≤ bits v 26 16 →
        ∃ t, exec (.cqeQCtlWrite 0x104 v) s = .next t ∧ (t.dev.queue qid).en = bitAt v 0 ∧ (t.dev.queue qid).ien = bitAt v 1 ∧
          (t.dev.queue qid).coalN = bits v 7 2 ∧ (t.dev.queue qid).coalUs = bits v 15 8 ∧ (t.dev.queue qid).vector = bits v 26 16) ∧
      (32 < bits v 7 2 ∨ bits v 26 16 < 32 → (s.dev.page 0x200).err = false → v &&& 0xF8000000 = 0 →
        ∃ t, exec (.cqeQCtlWrite 0x104 v) s = .next t ∧ t.dev.queue qid = q ∧ (t.dev.page 0x200).errCode = 0x0102) ∧
      (∃ t, exec (.cqeQCtlWrite 0x108 v) s = .next t ∧
        (t.dev.queue qid).sqb = q.sqb / 2 ^ 32 * 2 ^ 32 + v.toNat / 4096 * 4096))

/-! ### Slices (chapter 05) -/

/-- R138 to R141, R149 to R159: the operations on the slice that VSL_SSEL selects, each in a state that allows it, move the slice as
Table VSL-1 says; SLICE_SAVE hands over the blob under the next SAVESEQ, SLICE_RESTORE applies an accepted one and names the first
test that another fails. -/
def Obligations.SliceOperations : Prop :=
  ∀ (s : State) (v : Word), s.running → s.dev.isOpen 0x300 →
    let sl := s.dev.ssel
    let x := s.dev.slice sl
    let op (n : Nat) : Prop := bits v 31 16 = 0x5653 ∧ bits v 3 0 = n ∧ x.opBusy = false
    (bitAt v 0 = true → x.st = .unbound → 1 ≤ bits v 6 2 → bits v 6 2 ≤ 16 → 1 ≤ x.blks → x.blks ≤ 2 ^ 40 → 1 ≤ x.share →
      x.share ≤ 1024 → (∀ kv ∈ s.dev.slices, kv.1 ≠ sl → kv.2.bound = true → kv.2.pasid ≠ x.pasid) → s.dev.twinSlices.find sl = none →
      ∃ t, exec (.sliceBind v) s = .next t ∧
        t.dev.slice sl = { x with st := .active, trumpEn := bitAt v 1, qpMax := bits v 6 2 }) ∧
    (bitAt v 0 = false → x.st ∈ [SliceSt.active, .frozen] → bits v 6 2 = x.qpMax → bitAt v 1 = x.trumpEn → 1 ≤ x.qpMax →
      x.qpMax ≤ 16 → (∀ n < 32, s.dev.segActive n = false) → (∀ q ∈ queuesOf sl, (s.dev.queue q).en = false) →
      s.dev.exporting sl = false →
      ∃ t, exec (.sliceUnbind v) s = .next t ∧ t.dev.slice sl = { x with st := .unbound }) ∧
    (op 1 → x.st ∈ [SliceSt.active, .frozen] → s.dev.queueResetRuns sl = false →
      ∃ t, exec (.sliceReset v) s = .next t ∧ (t.dev.slice sl).st = .resetting ∧ (t.dev.slice sl).opBusy = true ∧
        (t.dev.slice sl).cutWaits = false ∧ (t.dev.slice sl).sgen = (x.sgen + 1) % 16) ∧
    (op 1 → x.st = .active → s.dev.queueResetRuns sl = true →
      ∃ t, exec (.sliceReset v) s = .next t ∧ (t.dev.slice sl).st = .resetting ∧ (t.dev.slice sl).cutWaits = true ∧
        (t.dev.slice sl).sgen = x.sgen) ∧
    (op 2 → x.st = .active → ∃ t, exec (.sliceFreeze v) s = .next t ∧ (t.dev.slice sl).st = .freezing ∧
      (t.dev.slice sl).opBusy = true ∧ (bits v 4 4 = 1 → ∀ q ∈ queuesOf sl, ∀ c ∈ (t.dev.queue q).live, c.started = true)) ∧
    (op 3 → x.st = .frozen → ∃ t, exec (.sliceThaw v) s = .next t ∧ (t.dev.slice sl).st = .active ∧
      (t.dev.slice sl).opBusy = false ∧ t.dev.flag (Reg.TWN_MOVED (sl / 32)) (sl % 32) = false) ∧
    (op 4 → x.st = .frozen → ∀ h, s.dev.mgrHead = some h →
      ∃ t, exec (.sliceSave v true) s = .next t ∧ (t.dev.slice sl).saveseq = (x.saveseq + 1) % 2 ^ 64 ∧
        (t.dev.slice sl).opBusy = false ∧ ∃ ws, ws.length = 512 ∧ s.dev.tells t.dev (.blob h x.blob ws)) ∧
    (op 4 → x.st = .frozen → (s.dev.page 0x300).err = false → v &&& 0xFFE0 = 0 →
      ∃ t, exec (.sliceSave v false) s = .next t ∧ (t.dev.slice sl).opErr = true ∧ (t.dev.slice sl).saveseq = x.saveseq ∧
        (t.dev.page 0x300).errCode = 0x0102 ∧ (t.dev.page 0x300).info1 = 7) ∧
    (∀ blob nvmOk, op 5 → x.st ∈ [SliceSt.unbound, .frozen] →
      let plain := blobText sl blob
      (s.dev.blobFault sl blob nvmOk = none →
        ∃ t, exec (.sliceRestore v blob nvmOk) s = .next t ∧ (t.dev.slice sl).st = .frozen ∧
          (t.dev.slice sl).saveseq = (x.saveseq + 1) % 2 ^ 64 ∧ (t.dev.slice sl).pasid = leBytes plain 0 4 % 2 ^ 20 ∧
          (t.dev.slice sl).blks = leBytes plain 4 8 % 2 ^ 41 ∧ (t.dev.slice sl).sgen = leBytes blob 0x22 1 % 16) ∧
      (∀ n, s.dev.blobFault sl blob nvmOk = some n → (s.dev.page 0x300).err = false → v &&& 0xFFE0 = 0 →
        ∃ t, exec (.sliceRestore v blob nvmOk) s = .next t ∧ (t.dev.slice sl).opErr = true ∧
          (t.dev.slice sl).st = x.st ∧ (t.dev.page 0x300).errCode = 0x0102 ∧ (t.dev.page 0x300).info1 = w32 n)) ∧
    (op 6 → x.st = .unbound → s.dev.exporting sl = false →
      ∃ t, exec (.sliceClear v) s = .next t ∧ (t.dev.slice sl).st = .clearing ∧ (t.dev.slice sl).opBusy = true ∧
        ∀ k < 4, (s.dev.ctx (4 * sl + k)).st = .valid → (t.dev.ctx (4 * sl + k)).st = .zeroising)

/-- R141, R152, R154: the ends of slice operations.  A reset whose stale units are gone, with room in every ring, and a freeze with
nothing outstanding reach ACTIVE and FROZEN; a clear unmaps every granule of the slice
(while PAIRED it ends once the twin has ACKed the last), empties its four contexts with their KEYGEN and unbinds it.  OP_BUSY falls. -/
def Obligations.SliceOperationsEnd : Prop :=
  ∀ (s : State) (sl : Nat), s.running → sl < 1024 →
    ((s.dev.slice sl).st = .resetting → (s.dev.slice sl).cutWaits = false → s.dev.sliceHead sl ≠ none →
      (∀ q ∈ queuesOf sl, (s.dev.queue q).en = true → (s.dev.queue q).resetRoom = true) →
      ∃ t, exec (.sliceResetDone sl) s = .next t ∧ (t.dev.slice sl).st = .active ∧ (t.dev.slice sl).opBusy = false ∧
        ∀ q ∈ queuesOf sl, (s.dev.queue q).en = true → (t.dev.queue q).resetting = false ∧ (t.dev.queue q).squash = []) ∧
    ((s.dev.slice sl).st = .freezing → s.dev.sliceCmds sl = [] →
      (∀ q ∈ queuesOf sl, (s.dev.queue q).held = [] ∧ (s.dev.queue q).resetting = false) →
      ∃ t, exec (.sliceFrozenReached sl) s = .next t ∧ (t.dev.slice sl).st = .frozen ∧ (t.dev.slice sl).opBusy = false ∧
        bitAt (t.dev.page 0x300).intPend 0 = true) ∧
    ((s.dev.slice sl).st = .clearing → (∀ k < 4, (s.dev.ctx (4 * sl + k)).st ≠ .zeroising) → s.dev.mapStop = false →
      s.dev.dlogRoom (s.dev.mappedOf sl).length = true → (∀ x ∈ s.dev.mapPend, x.slice ≠ sl) →
      s.dev.paired = false ∨ s.dev.mappedOf sl = [] →
      ∃ t, exec (.sliceClearDone sl) s = .next t ∧ (t.dev.slice sl).st = .unbound ∧ (t.dev.slice sl).opBusy = false ∧
        (∀ k < 4, t.dev.ctx (4 * sl + k) = Ctx.reset) ∧ (∀ g < 2 ^ 37, (t.dev.ent sl g).loc = none) ∧
        ∀ v ∈ t.dev.cache, v.slice ≠ sl)

/-- R145 to R148, R160, R161, R164, R168: shares wait as pending values; a count of blocks is judged as one value of two writes, grows at
once and shrinks at a trick-group boundary; an export of a bound slice's range starts at its START, hands over one record of each run of
granules, its data come from flash (till when the record is in progress, with the tick of its first read), and moves its cursor, waits while its ring
is full, ends after its last granule, stops when told to, a record in progress finished first, and goes on when the ring has room. -/
def Obligations.SliceSettingsAndExport : Prop :=
  ∀ (s : State) (v : Word), s.running →
    let sl := s.dev.ssel
    let x := s.dev.slice sl
    (s.dev.isOpen 0x300 → 1 ≤ bits v 10 0 → bits v 10 0 ≤ 1024 → bits v 22 16 ≤ 102 →
      ∃ t, exec (.shareWrite v) s = .next t ∧
        t.dev.slice sl = { x with share := bits v 10 0, tshare := bits v 22 16, pendShare := true }) ∧
    (s.dev.isOpen 0x300 → ∃ t, exec (.blksHiWrite v) s = .next t ∧ t.dev.slice sl = { x with blksStage := some (bits v 8 0) }) ∧
    (s.dev.isOpen 0x300 →
      let n := v.toNat + 2 ^ 32 * x.blksStage.getD (x.blks / 2 ^ 32)
      (x.blks ≤ n → (x.bound = true → 1 ≤ n ∧ n ≤ 2 ^ 40) →
        ∃ t, exec (.blksLoWrite v) s = .next t ∧ t.dev.slice sl = { x with blksStage := none, blks := n, blksPend := none }) ∧
      (n < x.blks → s.dev.highLba sl ≤ n → (x.bound = true → 1 ≤ n ∧ n ≤ 2 ^ 40) →
        ∃ t, exec (.blksLoWrite v) s = .next t ∧ t.dev.slice sl = { x with blksStage := none, blksPend := some n }) ∧
      (n < x.blks → n < s.dev.highLba sl →
        ∃ t, exec (.blksLoWrite v) s = .next t ∧ t.dev.slice sl = { x with blksStage := none })) ∧
    (∀ k n, k < 1024 → (s.dev.slice k).blksPend = some n → s.dev.tick % 131072 = 0 →
      (∀ c ∈ s.dev.sliceCmds k, writeType c.op = true → c.lba + c.nblk ≤ n) →
      exec (.blksShrinkApply k) s = .next { s with dev := s.dev.setKept k { s.dev.slice k with blks := n, blksPend := none } }) ∧
    (let start := s.dev.get64 Reg.VSL_EXP_START_LO Reg.VSL_EXP_START_HI
     let stop := s.dev.get64 Reg.VSL_EXP_END_LO Reg.VSL_EXP_END_HI
     s.dev.isOpen 0x301 → bitAt v 0 = true → s.dev.flag Reg.VSL_EXP_STS 0 = false → (s.dev.slice (bits v 13 4)).bound = true →
      s.dev.fld Reg.VSL_EXP_RING_LO 19 0 = 0 → start % 8 = 0 → stop % 8 = 0 → start < stop → stop ≤ (s.dev.slice (bits v 13 4)).blks →
      2 ≤ s.dev.fld Reg.VSL_EXP_SLOTS 15 0 →
      ∃ t, exec (.exportStart v) s = .next t ∧ t.dev.reg Reg.VSL_EXP_STS = 1 ∧ t.dev.reg Reg.VSL_EXP_PROD = 0 ∧
        t.dev.reg Reg.VSL_EXP_CONS = 0 ∧ t.dev.exp = { seqNo := 0, cursor := start, behind := [], looked := false }) ∧
    (s.dev.isOpen 0x301 → bitAt v 0 = false → s.dev.flag Reg.VSL_EXP_STS 0 = true →
      ∃ t, exec (.exportStop v) s = .next t ∧ t.dev.flag Reg.VSL_EXP_CTL 0 = false ∧
        (s.dev.exp.cur = none → t.dev.flag Reg.VSL_EXP_STS 0 = false) ∧
        (s.dev.exp.cur ≠ none → t.dev.flag Reg.VSL_EXP_STS 0 = true ∧ t.dev.exp.stops = true)) ∧
    (s.dev.flag Reg.VSL_EXP_STS 0 = true → s.dev.vslStop = false → s.dev.mapHeld = false → s.dev.stkHeld = false →
      s.dev.headUp (s.dev.fld Reg.VSL_EXP_CTL 3 2) = true →
      let k := s.dev.fld Reg.VSL_EXP_CTL 13 4
      let prod := s.dev.fld Reg.VSL_EXP_PROD 31 0
      let slots := s.dev.fld Reg.VSL_EXP_SLOTS 15 0
      let run := s.dev.exportRun k s.dev.exp.cursor (s.dev.get64 Reg.VSL_EXP_END_LO Reg.VSL_EXP_END_HI)
      let gran (g n : Nat) : List Nat := (List.range n).map (fun i => g + i)
      let came (g n : Nat) : Prop :=
        (s.dev.flashReads (2 ^ 64 + s.dev.exp.seqNo) 3 k (s.dev.wantFlash k (8 * g) (8 * n)) (gran g n)).1 = true
      let written (g n : Nat) (t : State) : Prop := t.dev.reg Reg.VSL_EXP_PROD = w32 (prod + 1) ∧
        t.dev.exp.seqNo = s.dev.exp.seqNo + 1 ∧ t.dev.exp.cursor = 8 * (g + n) ∧ t.dev.exp.cur = none ∧
        ∃ r, s.dev.tells t.dev (.exportRecord (s.dev.fld Reg.VSL_EXP_CTL 3 2) (s.dev.exp.seqNo % slots)
          (s.dev.get64 Reg.VSL_EXP_RING_LO Reg.VSL_EXP_RING_HI + 2 ^ 20 * (s.dev.exp.seqNo % slots)) [r, 0x1000 + 0x8000 * n])
      (∀ g n blks, s.dev.exp.cur = some (g, n, blks) → came g n →
        ∃ t, exec (.exportRecord true) s = .next t ∧ written g n t ∧ (s.dev.exp.stops = true → t.dev.flag Reg.VSL_EXP_STS 0 = false)) ∧
      (s.dev.exp.cur = none → (prod + 2 ^ 32 - s.dev.fld Reg.VSL_EXP_CONS 31 0) % 2 ^ 32 = slots →
        ∃ t, exec (.exportRecord true) s = .next t ∧ t.dev.flag Reg.VSL_EXP_STS 2 = true ∧ t.dev.exp = s.dev.exp ∧
          t.dev.out.filter (fun o => match o with | .exportRecord _ _ _ _ => true | _ => false) =
            s.dev.out.filter (fun o => match o with | .exportRecord _ _ _ _ => true | _ => false)) ∧
      (s.dev.exp.cur = none → (prod + 2 ^ 32 - s.dev.fld Reg.VSL_EXP_CONS 31 0) % 2 ^ 32 ≠ slots → run.2 = 0 →
        ∃ t, exec (.exportRecord true) s = .next t ∧ t.dev.flag Reg.VSL_EXP_STS 0 = false ∧ t.dev.flag Reg.VSL_EXP_STS 1 = true ∧
          t.dev.exp.cursor = s.dev.get64 Reg.VSL_EXP_END_LO Reg.VSL_EXP_END_HI) ∧
      (s.dev.exp.cur = none → (prod + 2 ^ 32 - s.dev.fld Reg.VSL_EXP_CONS 31 0) % 2 ^ 32 ≠ slots → 0 < run.2 →
        s.dev.groupsOn k (lbasOf (8 * run.1) (8 * run.2)) = true → s.dev.shareOpen k = true →
        (s.dev.takeCredit 3 (8 * run.2) exportUnit).1 = true → (∀ g ∈ gran run.1 run.2, s.dev.entHere k g = true) →
        (came run.1 run.2 → ∃ t, exec (.exportRecord true) s = .next t ∧ written run.1 run.2 t) ∧
        (¬came run.1 run.2 → ∃ t bs, exec (.exportRecord true) s = .next t ∧ t.dev.exp.cur = some (run.1, run.2, bs) ∧
          t.dev.exp.tick = s.dev.tick ∧ t.dev.reg Reg.VSL_EXP_PROD = s.dev.reg Reg.VSL_EXP_PROD))) ∧
    (s.dev.isOpen 0x301 → (s.dev.fld Reg.VSL_EXP_PROD 31 0 + 2 ^ 32 - v.toNat) % 2 ^ 32 ≠ s.dev.fld Reg.VSL_EXP_SLOTS 15 0 →
      ∃ t, exec (.exportConsWrite v) s = .next t ∧ t.dev.reg Reg.VSL_EXP_CONS = v ∧ t.dev.flag Reg.VSL_EXP_STS 2 = false)

/-! ### Cipher engine (chapter 06) -/

/-- R178, R182, R187 to R190, R562, Table CRY-8: the operations on the context that CRY_CSEL selects, from the record in CRY_XBUF.  An
copy (R175, R182), OP_BUSY staying 1; an export, a state save leave their record
in the buffer; a restore raises the marks; a zeroise destroys the key at once; an unknown operation fails with 0x0100. -/
def Obligations.CipherOperations : Prop :=
  ∀ (s : State) (v : Word), s.running → s.dev.isOpen 0x400 → bits v 31 16 = 0x4352 → s.dev.flag Reg.CRY_OP_STS 0 = false →
    let c := s.dev.fld Reg.CRY_CSEL 11 0
    let x := s.dev.ctx c
    let taken (r : Nat) : Prop := recordFault c r = none ∧ (leBytes r 0 1 = 2 → s.dev.flag Reg.CRY_POLICY 2 = true)
    let imported (r : Nat) (t : State) : Prop := (t.dev.ctx c).st = .valid ∧ (t.dev.ctx c).keygen = x.keygen + 1 ∧
      (t.dev.ctx c).key = leBytes r 0x10 64 ∧ (t.dev.ctx c).mode = leBytes r 0 1 ∧ t.dev.flag Reg.CRY_OP_STS 1 = false ∧
      ∀ k, k ≠ c → t.dev.ctx k = s.dev.ctx k
    let waits (t : State) : Prop := t.dev.ctx c = x ∧ t.dev.flag Reg.CRY_OP_STS 0 = true ∧ ∃ y ∈ t.dev.ctxPend, y.ctx = c
    let lands (r : Nat) (t : State) : Prop := (s.dev.paired = false → imported r t) ∧ (s.dev.paired = true → waits t)
    (bits v 3 0 = 1 → x.st = .empty → x.keygen ≠ 0xFFFF → ∀ k, s.dev.kek = some k →
      ∃ t, exec (.importWrapped v) s = .next t ∧ (∀ r, rfcUnwrap k 15 s.dev.xbuf = some r → taken r → lands r t) ∧
        (rfcUnwrap k 15 s.dev.xbuf = none → t.dev.ctx c = x ∧ t.dev.flag Reg.CRY_OP_STS 1 = true ∧ t.dev.fld Reg.CRY_OP_STS 7 4 = 1)) ∧
    (bits v 3 0 = 2 → x.st = .empty → x.keygen ≠ 0xFFFF → s.dev.flag Reg.CRY_POLICY 0 = true → taken (s.dev.xbuf % 2 ^ 960) →
      ∃ t, exec (.importPlain v) s = .next t ∧ lands (s.dev.xbuf % 2 ^ 960) t) ∧
    (bits v 3 0 = 3 → x.st = .valid → x.exportable = true → s.dev.flag Reg.CRY_POLICY 1 = true → ∀ k, s.dev.kek = some k →
      ∃ t, exec (.exportWrapped v) s = .next t ∧ t.dev.xbufShown = true ∧
        (∀ w < 32, t.dev.reg (Reg.CRY_XBUF w) = w32 (rfcWrap k 15 (ctxRecord c x) / 2 ^ (32 * w))) ∧ t.dev.ctxs = s.dev.ctxs) ∧
    (bits v 3 0 = 4 → ∃ t, exec (.saveState v) s = .next t ∧ t.dev.xbufShown = true ∧
      (∀ w < 32, t.dev.reg (Reg.CRY_XBUF w) = w32 (clearRecord c x / 2 ^ (32 * w))) ∧ t.dev.ctxs = s.dev.ctxs) ∧
    (let r := s.dev.xbuf
     bits v 3 0 = 5 → x.st = .valid → leBytes r 2 2 = c / 4 → leBytes r 4 1 = c % 4 → leBytes r 6 2 = x.keygen →
      leBytes r 8 8 = x.label →
      ∃ t, exec (.restoreState v) s = .next t ∧ (s.dev.paired = true → waits t) ∧ (s.dev.paired = false → t.dev.ctx c = { x with
        low := (t.dev.ctx c).low, mark0 := max x.mark0 (ofMarkField (leBytes r 0x10 4)), mark1 := max x.mark1 (ofMarkField (leBytes r 0x14 4)),
        invoc0 := max x.invoc0 (ofMarkField (leBytes r 0x10 4)), invoc1 := max x.invoc1 (ofMarkField (leBytes r 0x14 4)) })) ∧
    (bits v 3 0 = 6 → x.st = .valid → ∃ t, exec (.zeroise v) s = .next t ∧ (t.dev.ctx c).st = .zeroising ∧ (t.dev.ctx c).key = 0 ∧
      t.dev.flag Reg.CRY_OP_STS 0 = true ∧ t.dev.zeroing = [c] ∧ ∀ k, k ≠ c → t.dev.ctx k = s.dev.ctx k) ∧
    (bits v 3 0 = 7 → x.st = .valid → ∃ t, exec (.zeroiseSlice v) s = .next t ∧ t.dev.flag Reg.CRY_OP_STS 0 = true ∧
      ∀ k < 4, (s.dev.ctx (c / 4 * 4 + k)).st = .valid → (t.dev.ctx (c / 4 * 4 + k)).st = .zeroising ∧
        (t.dev.ctx (c / 4 * 4 + k)).key = 0) ∧
    (bits v 3 0 = 0 ∨ 8 ≤ bits v 3 0 → (s.dev.page 0x400).err = false →
      ∃ t, exec (.cryOpInvalid v) s = .next t ∧ t.dev.flag Reg.CRY_OP_STS 1 = true ∧ t.dev.ctxs = s.dev.ctxs ∧
        (v &&& 0xFFF0 = 0 → (t.dev.page 0x400).errCode = 0x0100))

/-- R170, R178, R189, R190: a zeroise whose copies are erased leaves the context EMPTY with its KEYGEN, and OP_BUSY falls with the last
of the operation; the write of CRY_KEK7 sets the KEK from the eight registers, which then read 0; a failed lane leaves service. -/
def Obligations.CipherKeysAndLanes : Prop :=
  ∀ (s : State), s.running →
    (∀ c, c < 4096 → (s.dev.ctx c).st = .zeroising →
      ∃ t, exec (.zeroiseDone c) s = .next t ∧ t.dev.ctx c = { Ctx.reset with keygen := (s.dev.ctx c).keygen } ∧
        (s.dev.zeroing = [c] → t.dev.flag Reg.CRY_OP_STS 0 = false) ∧ ∀ k, k ≠ c → t.dev.ctx k = s.dev.ctx k) ∧
    (∀ (v : Word), s.dev.isOpen 0x400 →
      ∃ t, exec (.kekSet v) s = .next t ∧ t.dev.flag Reg.CRY_KEK_STS 0 = true ∧ (∀ i < 8, t.dev.reg (Reg.CRY_KEK i) = 0) ∧
        t.dev.kek = some ((List.range 7).foldl (fun a k => a + 2 ^ (32 * k) * (s.dev.reg (Reg.CRY_KEK k)).toNat) 0 +
          2 ^ 224 * v.toNat)) ∧
    (∀ l known, l < 16 → s.dev.flag Reg.CRY_LANE_STS l = true → (s.dev.page 0x400).err = false →
      ∃ t, exec (.laneFail l known) s = .next t ∧ t.dev.flag Reg.CRY_LANE_STS l = false ∧ (t.dev.page 0x400).errCode = 0x0105 ∧
        (t.dev.page 0x400).info0 = w32 l ∧ bitAt (t.dev.page 0x400).intPend 3 = true ∧
        Dev.frame s.dev t.dev [Reg.CRY_LANE_STS] [0x400])

/-! ### Translation, space and collection (chapter 07) -/

/-- R195 to R197, R201: a map page that lookups wait for is read from its first copy that can be read: without all of that copy's codewords the
load goes on waiting, with them the page becomes resident; when neither copy can be read the entries of its mapped granules are lost, with error
0x0103.  The page that is due goes into a chunk each of two metadata bands and is clean; its records are reclaimed once both are PROGRAMMED. -/
def Obligations.MapPages : Prop :=
  ∀ (s : State) (sl page : Nat) (cls : Cls), s.running → sl < 1024 → page < 2 ^ 25 → s.dev.mapStop = false →
    let pk := sl * 2 ^ 25 + page
    let copies := SMap.get (fun _ => []) s.dev.metaAt pk
    let here (c : Nat) : Prop := ∀ col < 16, s.dev.cwReady (mapOwner pk) (c / 32 / 4096) (c / 32 % 4096) (c % 32) col = true
    (s.dev.mapWant.find pk = some (clsNum cls) → s.dev.mapRoom = true → pk ∉ s.dev.resident →
      (∀ c, copies.find? (fun c => !s.dev.copyLost c) = some c → (s.dev.takeCredit 8 16 (metaUnit pk)).1 = true →
        (here c → ∃ t, exec (.mapPageLoad sl page cls) s = .next t ∧ pk ∈ t.dev.resident ∧ t.dev.mapWant.find pk = none ∧
          t.dev.map = s.dev.map ∧ t.dev.metaAt = s.dev.metaAt ∧ t.dev.lost = s.dev.lost) ∧
        (¬here c → ∃ t, exec (.mapPageLoad sl page cls) s = .next t ∧ t.dev.resident = s.dev.resident ∧
          t.dev.mapWant = s.dev.mapWant ∧ t.dev.map = s.dev.map)) ∧
      (copies.find? (fun c => !s.dev.copyLost c) = none → (s.dev.page 0x500).err = false →
        ∃ t, exec (.mapPageLoad sl page cls) s = .next t ∧ pk ∈ t.dev.resident ∧ (∀ g ∈ s.dev.mappedIn pk, g ∈ t.dev.lost) ∧
          (t.dev.page 0x500).errCode = 0x0103 ∧ bitAt (t.dev.page 0x500).intPend 4 = true)) ∧
    (∀ x y, s.dev.nextBack = some pk → s.dev.shfStop = false → s.dev.writesBack = true → s.dev.metaBands = some (x, y) →
      (s.dev.takeCredit 8 16 (metaUnit pk)).1 = true →
      ∃ t, exec (.mapPageWriteback sl page) s = .next t ∧ t.dev.dirty = s.dev.dirty.filter (fun k => k != pk) ∧
        (∃ m ∈ t.dev.metaBack, m.page = pk ∧ m.chunks.length = 2 ∧ m.left = m.chunks) ∧ t.dev.map = s.dev.map ∧ t.dev.metaAt = s.dev.metaAt)

/-- R19, R20, R25, R200, R207, R212 to R214, R329, R363, R364: the write cache's versions, their map pages here.  A programmed posted version
whose GVER is newer than its entry's commits: without a twin the entry names its place and the version leaves the cache, while PAIRED the change
waits for the twin first; an older one only leaves.  A posted version is placed in the next half of the stripe of an open band of its kind, and
one of filled blocks unmaps its granule.  A write that waits for cache slots is admitted when the pool allows, in the order of R364; one with new
granules that has met F_Q at or below W_HARD past its deadline, which runs from its release where another command held it, ends with NO_SPACE. -/
def Obligations.CacheAndWaitingWrites : Prop :=
  (∀ (s : State) (sl g : Nat) (v : Ver), s.running → sl < 1024 → g < 2 ^ 37 → v.gver < 2 ^ 20 → s.dev.dumping = false →
      s.dev.mapStop = false →
      let isV (w : Ver) : Bool := w.slice == sl && w.granule == g && w.gver == v.gver
      let chg (l : Option Loc) : MapChg := { slice := sl, granule := g, gver := v.gver, loc := l, src := none, owner := none, mnum := none }
      s.dev.cache.find? isV = some v → s.dev.changing (chg v.loc) = false →
      (∀ l, v.loc = some l → v.stage = .programmed → v.posted = true ∨ v.pwin = true → s.dev.dlogFull = false →
        s.dev.pageHere (pageKey sl g) = true →
        (s.dev.paired = false → gverNewer v.gver (s.dev.ent sl g).gver = true →
          ∃ t, exec (.mapCommit sl g v.gver 0) s = .next t ∧ t.dev.ent sl g = ⟨v.gver, some l⟩ ∧ (∀ w ∈ t.dev.cache, isV w = false) ∧
            ∀ sl' g', granKey sl' g' ≠ granKey sl g → t.dev.ent sl' g' = s.dev.ent sl' g') ∧
        (s.dev.paired = false → gverNewer v.gver (s.dev.ent sl g).gver = false →
          ∃ t, exec (.mapCommit sl g v.gver 0) s = .next t ∧ t.dev.map = s.dev.map ∧ ∀ w ∈ t.dev.cache, isV w = false) ∧
        (s.dev.paired = true → ∃ t m, exec (.mapCommit sl g v.gver 0) s = .next t ∧ t.dev.map = s.dev.map ∧ t.dev.cache = s.dev.cache ∧
          t.dev.mapPend = s.dev.mapPend ++ [{ chg (some l) with mnum := some m }])) ∧
      (v.loc = none → v.posted = true → v.stage ≠ .received → s.dev.mayDestage = true → s.dev.shfStop = false →
        s.dev.stkStop = false →
        (∀ w ∈ s.dev.cache, w.slice = sl → w.granule = g → w.posted = true ∨ w.pwin = true ∨ gverNewer v.gver w.gver = false) →
        (∀ y ∈ s.dev.mapPend, y.slice = sl → y.granule = g → y.owner.isSome = true → gverNewer v.gver y.gver = false) →
        ((s.dev.mergedBlks v).all (·.filled) = true → s.dev.dlogFull = false → s.dev.pageHere (pageKey sl g) = true →
          s.dev.paired = false → gverNewer v.gver (s.dev.ent sl g).gver = true →
          ∃ t, exec (.destage sl g v.gver) s = .next t ∧ t.dev.ent sl g = ⟨v.gver, none⟩ ∧ ∀ w ∈ t.dev.cache, isV w = false) ∧
        ((s.dev.mergedBlks v).all (·.filled) = false → ∀ f,
          s.dev.fillFor (decide (v.cls < 3) && !v.pwin && decide (s.dev.fld Reg.MAP_SLC_USED 22 0 < s.dev.fld Reg.MAP_SLC_TGT 22 0)) false =
            some f →
          (s.dev.takeCredit 6 304 (2 ^ 19 + f.band * 4096 + f.stripe)).1 = true →
          ∃ t, exec (.destage sl g v.gver) s = .next t ∧
            ((t.dev.cache.find? isV).bind Ver.loc).map (fun l => (l.band, l.stripe, l.pos, l.half)) =
              some (f.band, f.stripe, posOfRole (f.placed / 2) f.stripe, f.placed % 2)))) ∧
  (∀ (s : State) (qid : Nat) (c : Cmd), s.running → qid < 16384 → (s.dev.queue qid).cmd? c.tag = some c →
      (s.dev.nextWaiting = some (qid, c) → s.dev.stkHeld = false → s.dev.dumping = false → s.dev.dumpSetUp = true →
        (s.dev.admitSlots c.cls (8 * c.placedGranules.length)).isSome = true →
        ∃ t, exec .cacheAdmit s = .next t ∧
          (t.dev.queue qid).cmd? c.tag = some { c with waiting := false, slots := 8 * c.placedGranules.length }) ∧
      (c.tag < 32 → writeType c.op = true → c.done = false → c.placed = false → 0 < s.dev.newGranules (qid / 16) c →
        s.dev.fQ ≤ s.dev.wHard → (s.dev.queue qid).free c = true →
        (if c.wasHeld then c.relTick.getD s.dev.tick else c.dbTick) + s.dev.ackFigure c.cls + 1000000 ≤ s.dev.tick → s.dev.canPost qid →
        ∃ t, exec (.noSpaceTimeout qid c.tag) s = .next t ∧ s.dev.posts t.dev qid c.tag 0x0301 0 ∧
          bitAt (t.dev.page 0x500).intPend 1 = true ∧
          t.dev.fld Reg.MAP_NOSPACE 31 0 = min (s.dev.fld Reg.MAP_NOSPACE 31 0 + 1) 0xFFFFFFFF))

/-- R202, R205, R206, R209, R217, R221: the victim that collection or refresh selects, once the relocation of the bands that are VICTIM already
has gone on, and the SLC band that a fold selects become VICTIM; a relocated copy that is programmed commits only while the entry still names its
source, with the entry's GVER kept; a VICTIM band of which nothing is needed goes to erase, or is withdrawn when a failed set finds no spare. -/
def Obligations.Collection : Prop :=
  ∀ (s : State), s.running → s.dev.mapHeld = false → s.dev.mapStop = false →
    (let d := ((s.dev.bands.filter (fun kv => kv.2.st == .victim)).map Prod.fst).foldl (fun (d : Dev) b => d.dealReloc b) s.dev.placeRelocs
     ∀ b, d.mapHeld = false → d.chooseVictim = some b → (d.band b).refresh = true ∨ d.collects = true →
      ∃ t, exec .gcVictimSelect s = .next t ∧ (t.dev.band b).st = .victim ∧ b ∉ t.dev.rbQueue) ∧
    (3 * s.dev.fld Reg.MAP_SLC_TGT 22 0 < 4 * s.dev.fld Reg.MAP_SLC_USED 22 0 →
      (∃ kv ∈ s.dev.bands, kv.2.st = .closed ∧ kv.2.slc = true ∧ kv.2.isMeta = false ∧ s.dev.stewards kv.1 = true) →
      ∃ t, exec .slcFold s = .next t ∧ ∃ kv ∈ s.dev.bands, kv.2.st = .closed ∧ kv.2.slc = true ∧ (t.dev.band kv.1).st = .victim) ∧
    (∀ sl g src band stripe pos half, sl < 1024 → g < 2 ^ 37 → half < 2 → s.dev.dumping = false →
      let found := s.dev.relocs.find? (fun r => r.slice == sl && r.granule == g && r.src.key * 2 + r.src.half == src && r.ok &&
        r.dst.any (fun l => l.band == band && l.stripe == stripe && l.pos == pos && l.half == half))
      (∀ r, found = some r → s.dev.pageHere (pageKey sl g) = true → s.dev.dlogFull = false → s.dev.paired = false →
        ((s.dev.ent sl g).loc = some r.src → ∃ t, exec (.relocCommit sl g src band stripe pos half) s = .next t ∧
          t.dev.ent sl g = ⟨(s.dev.ent sl g).gver, r.dst⟩) ∧
        ((s.dev.ent sl g).loc ≠ some r.src → ∃ t, exec (.relocCommit sl g src band stripe pos half) s = .next t ∧ t.dev.map = s.dev.map)) ∧
      (found = none → exec (.relocCommit sl g src band stripe pos half) s = .next s)) ∧
    (∀ b, (s.dev.band b).st = .victim → s.dev.bandNeeded b = false →
      ∃ t, exec (.bandErase b) s = .next t ∧
        ((s.dev.spareSets b).1 = true → (t.dev.band b).st = .erasing ∧ (t.dev.band b).erasedSets = []) ∧
        ((s.dev.spareSets b).1 = false → (t.dev.band b).st = .withdrawn))

/-! ### The Dealer and the trick clock (chapter 08) -/

/-- R146, R229, R236, R238 to R241, R243, R244, R250: at a trick boundary the count is at the next multiple of 2,048 and every ACTIVE lane whose
token this unit holds gets its TRICK_MARK, with a delay of 24 ns to 32.25 ns that is free; at a trick-group boundary the count is at a multiple of
131,072, pending shares and the settings of the Dealer take effect.  A port's plan, cut once per trick at tick 1,536, arms its one waiting read for
the next trick and sends it to the bridge; a plan whose residue fails is discarded and counted; an operation that has waited AGE tricks since it
became dealable, or since its last promotion, moves up one class; a suspension open for SUS_HOLD is due to end, and the plan after the die's last
read deals its DIE_RESUME; a follower without an exchange for eight trick groups records 0x0102 and loses twin lock. -/
def Obligations.PlansAndBoundaries : Prop :=
  (∀ (s : State), s.running → s.dev.mode < 3 →
      (∃ t, exec .trickBoundary s = .next t ∧ t.dev.tick = (s.dev.tick / 2048 + 1) * 2048 ∧
        (s.dev.dlrStop = false → ∀ p < 512, s.dev.lstate p = 5 → s.dev.fld (Reg.FCH_P_STS p) 4 3 = 1 →
          ∃ dly, 192 ≤ dly ∧ dly ≤ 258 ∧ s.dev.tells t.dev (.flit p (ctrlFlit 0x10 (t.dev.tick / 2048 % 65536 + 2 ^ 16 * dly))))) ∧
      (s.dev.stepPend = none → SMap.sortedAbove none s.dev.slices = true →
        ∃ t, exec .trickGroupBoundary s = .next t ∧ t.dev.tick % 131072 = 0 ∧ s.dev.tick ≤ t.dev.tick ∧
          t.dev.tick ≤ s.dev.tick + 131072 ∧ t.dev.tgTick = t.dev.tick ∧ t.dev.clsNow = s.dev.reg Reg.DLR_CLS_W ∧
          t.dev.ageNow = s.dev.reg Reg.DLR_AGE ∧ t.dev.susNow = s.dev.reg Reg.DLR_SUS_CTL ∧
          ∀ k, (s.dev.slice k).pendShare = true → (t.dev.slice k).shareAct = (s.dev.slice k).share ∧
            (t.dev.slice k).tshareAct = (s.dev.slice k).tshare ∧ (t.dev.slice k).pendShare = false)) ∧
  (∀ (s : State), s.running →
      (∀ p, p < 512 → s.dev.giving = [] → s.dev.wants = [] → s.dev.portDeals p = true → s.dev.dlrStop = false → s.dev.cutDue p = true →
        let x := s.dev.port p
        let next := (s.dev.tick / 2048 + 1) % 65536
        (∀ o, x.ops = [o] → o.stage = .waiting → o.opc = 0x01 → o.tag < 4096 → o.enq < s.dev.tick / 2048 * 2048 + 1536 →
          o.src = .host → 1 ≤ o.cls → o.cls ≤ 3 → x.carryTx = 0 → x.carryRx = 0 → x.susOpen = [] → s.dev.dieGone p o.die = false →
          ∃ t, exec (.planCut p false) s = .next t ∧ t.dev.tick = max s.dev.tick (s.dev.tick / 2048 * 2048 + 1536) ∧ t.dev.cutDue p = false ∧
            ((t.dev.port p).op? o.tag).map (fun y => (y.stage, y.trick)) = some (.armed, next) ∧
            ∃ slot, s.dev.tells t.dev (.bridge p 0x01 [1 + 4 * o.slc.toNat, o.tag, next, o.die, bitMask o.planes, o.block, o.page,
              bitMask o.cwsOf + 16 * o.soft.toNat + 2 ^ 8 * slot])) ∧
        (∀ die k, x.ops = [] → x.susOpen = [(die, k)] →
          ∃ t tag, exec (.planCut p false) s = .next t ∧ (t.dev.port p).susOpen = [] ∧
            s.dev.tells t.dev (.bridge p 0x05 [1, tag, next, die, 0, 0, 0, 0])) ∧
        ((s.dev.page 0x701).err = false →
          ∃ t, exec (.planCut p true) s = .next t ∧ (t.dev.page 0x701).errCode = 0x0004 ∧ (t.dev.page 0x701).info0 = w32 (145 + p) ∧
            (t.dev.page 0x701).chkCnt = w32 (min ((s.dev.page 0x701).chkCnt.toNat + 1) 0xFFFFFFFF) ∧ t.dev.out = s.dev.out ∧
            t.dev.port p = { x.carried (s.dev.tick / 2048) with cutFor := some (s.dev.tick / 2048) } ∧
            ∀ q, q ≠ p → t.dev.port q = s.dev.port q)) ∧
      (∀ p tag o, p < 512 → tag < 4096 → (s.dev.port p).op? tag = some o → o.stage = .waiting → 2 ≤ o.cls →
        (o.promo + 1) * (bits s.dev.ageNow 11 0 * 2048) ≤ s.dev.tick - o.enq →
        ∃ t, exec (.agePromote p tag) s = .next t ∧ (t.dev.port p).op? tag = some { o with cls := o.cls - 1, promo := o.promo + 1 } ∧
          t.dev.fld Reg.DLR_AGE_PROMO 31 0 = min (s.dev.fld Reg.DLR_AGE_PROMO 31 0 + 1) 0xFFFFFFFF) ∧
      (∀ p die k, p < 512 → die < 64 → (s.dev.port p).susOpen.find die = some k → k - 1 + bits s.dev.susNow 15 8 * 2048 ≤ s.dev.tick →
        ∃ t, exec (.susHoldExpire p die) s = .next t ∧ die ∈ (t.dev.port p).susDue ∧ die ∈ (t.dev.port p).resumes ∧
          (t.dev.port p).ops = (s.dev.port p).ops ∧ t.dev.out = s.dev.out) ∧
      (s.dev.timeLink = true → s.dev.flag Reg.DLR_TIME_STS 4 = false → s.dev.exLast + 8 * 131072 ≤ s.dev.tick →
        (s.dev.page 0x700).err = false →
        ∃ t, exec .timeExchangeTimeout s = .next t ∧ (t.dev.page 0x700).errCode = 0x0102 ∧
          (t.dev.page 0x700).info0 = w32 ((s.dev.tick - s.dev.exLast) / 131072) ∧
          (s.dev.fld Reg.DLR_TIME_STS 2 1 = 2 → t.dev.timeLocked = false)))

/-! ### Flash ports (chapter 09) -/

/-- R260, R262, R265, R275: the five armed commands.  One from the holder's port to a bridge that is ON, for the next trick and before its cut,
with no field that it does not use is held; from another port it is refused with NOT_OWNER, after its trick began it is dropped,
for any other trick refused with LATE. -/
def Obligations.ArmsAreHeld : Prop :=
  ∀ (s : State) (p : Nat) (c : BCmd) (i : Instr) (opc arg : Nat), p < 512 →
    (i, opc, arg) ∈ [(Instr.dieErase p c, 3, 0), (.dieSuspend p c, 4, 0), (.dieResume p c, 5, 0)] ∨
      (∃ buf, i = .dieProgram p c buf ∧ opc = 2 ∧ arg = buf % 32) ∨
      (∃ cw slot soft, i = .dieRead p c cw slot soft ∧ opc = 1 ∧ arg = cw % 16 + 16 * soft.toNat + 32 * (slot % 8)) →
    let b := s.dev.bridge p
    let h : Bridge := { b with heard := c.seq % 4096 }
    let next := (b.trick + 1) % 65536
    let refusal (status : Nat) : Out := .response p (c.side % 2) 0x8F status (c.tag % 4096) (b.die (c.die % 64)).onfi 0 [opc]
    b.power = 0 → c.arm = true → cmdUnused c opc = false →
    s.dev.addrBad p c true (decide (opc ≤ 3)) (decide (opc ≤ 2)) = false →
    (b.holder = c.side % 2 + 1 →
      (c.trick % 65536 = next → b.cutFor ≠ some next → ∃ t, exec i s = .next t ∧
        t.dev.bridge p = { h with arms := b.arms ++
          [{ side := c.side % 2, seq := c.seq % 4096, trick := next, lead := c.lead, opc := opc, tag := c.tag % 4096, die := c.die % 64,
             planes := c.planes % 16, block := c.block % 4096, page := c.page % 4096, slc := c.slc, arg := arg, cut := false }] } ∧
        (∀ q, q ≠ p → t.dev.bridge q = s.dev.bridge q) ∧ t = { s with dev := { s.dev with bridges := t.dev.bridges } }) ∧
      (c.trick % 65536 = next → b.cutFor = some next → exec i s = .next { s with dev := s.dev.setBridge p h }) ∧
      (c.trick % 65536 = b.trick → b.trick < 65536 → exec i s = .next { s with dev := s.dev.setBridge p h }) ∧
      (c.trick % 65536 ≠ next → c.trick % 65536 ≠ b.trick →
        exec i s = .next { s with dev := (s.dev.setBridge p h).emit (refusal 0x0A) })) ∧
    (b.holder ≠ c.side % 2 + 1 → exec i s = .next { s with dev := s.dev.emit (refusal 0x03) })

/-- R264 to R269, R272, R273: the cut confirms the arms of the next trick; the holder's trick mark fires
a confirmed read of an idle die with the offsets of its zone in its slot, and a confirmed program whose buffer is full and whose page is the next one of
every plane, which moves the records on; a program whose page is not the next one is refused with NOT_ERASED and the die keeps; a missed mark
fires nothing. -/
def Obligations.MarksFireArms : Prop :=
  ∀ (s : State) (p : Nat), p < 512 →
    let b := s.dev.bridge p
    let next := (b.trick + 1) % 65536
    b.power = 0 →
    (b.cutFor ≠ some next → ∃ t, exec (.armConfirmCut p) s = .next t ∧ (t.dev.bridge p).cutFor = some next ∧
      (t.dev.bridge p).arms = b.arms.map (fun a => if a.trick == next then { a with cut := true } else a) ∧
      t = { s with dev := { s.dev with bridges := t.dev.bridges } }) ∧
    (let missed : Bridge := { b with trick := next, arms := b.arms.filter (fun a => a.trick == (next + 1) % 65536), cutFor := none }
     exec (.markMiss p) s = .next { s with dev := (s.dev.setBridge p missed).emit (.response p (b.holder - 1) 0x8C 0 0 0 0
      [next, b.cutSeq, 0, 0]) }) ∧
    (∀ side trick dly a, side < 2 → trick < 65536 → b.holder = side + 1 → b.arms = [a] → a.trick = trick → a.cut = true →
      (a.opc = 0x01 → (b.die a.die).st = .idle → (b.die a.die).rdTag = none →
        let zone := min 3 (if a.slc then a.page / 192 else a.page / 768)
        ∃ t, exec (.trickMark p side trick dly) s = .next t ∧ (t.dev.bridge p).trick = trick ∧ (t.dev.bridge p).arms = [] ∧
          (t.dev.bridge p).die a.die = { b.die a.die with
            st := .reading, rdTag := some a.tag
            rdOfs := ((SMap.get (fun _ => []) b.slots (a.die * 8 + a.arg / 32)).drop (15 * zone)).take 15 } ∧
          s.dev.tells t.dev (.response p side 0x8C 0 0 0 0 [trick, b.cutSeq, 1, 1])) ∧
      (a.opc = 0x02 → (b.die a.die).busy = false → (b.die a.die).st ≠ .failed → (b.bufs.find a.arg).isSome = true →
        ((∀ pl ∈ planesOf a.planes, b.next.find (nextKey a.die pl a.block) = some (a.page + 1)) →
          ∃ t, exec (.trickMark p side trick dly) s = .next t ∧ ((t.dev.bridge p).die a.die).st = .programming ∧
            ∀ pl ∈ planesOf a.planes, (t.dev.bridge p).next.find (nextKey a.die pl a.block) = some (a.page + 2)) ∧
        ((∃ pl ∈ planesOf a.planes, b.next.find (nextKey a.die pl a.block) ≠ some (a.page + 1)) →
          ∃ t, exec (.trickMark p side trick dly) s = .next t ∧ (t.dev.bridge p).die a.die = b.die a.die ∧
            (t.dev.bridge p).next = b.next ∧
            s.dev.tells t.dev (.response p (a.side % 2) 0x8F 0x02 (a.tag % 4096) (b.die (a.die % 64)).onfi 0 [2]))))

/-- R260, R264, R273, R275 to R283: the commands a bridge carries out at once, each with its response: DIE_STATUS, SET_OFFSETS, OWN_TAKE,
OWN_RELEASE, BRIDGE_POWER, LANE_TEST and PDATA; a take without FORCE of a held bridge, or with a FENCE that is not newer, is refused.  In RET the
bridge still hears of its token and its power. -/
def Obligations.BridgeCommands : Prop :=
  ∀ (s : State) (p : Nat) (c : BCmd), p < 512 →
    let b := s.dev.bridge p
    let me := c.side % 2 + 1
    let tag := c.tag % 4096
    let i := c.die % 64
    let onfi := (b.die i).onfi
    let h : Bridge := { b with heard := c.seq % 4096 }
    let d : Dev := if b.holder = me then s.dev.setBridge p h else s.dev
    c.arm = false →
    (b.power = 0 → cmdUnused c 0x06 = false →
      (∀ info byte temp,
        let y : BDie := if b.holder = me ∧ (b.die i).st ≠ .absent then { b.die i with onfi := byte % 256, temp := temp } else b.die i
        ∃ t more, exec (.dieStatus p c info byte temp) s = .next t ∧ (t.dev.bridge p).die i = y ∧ more.length = (if info then 5 else 0) ∧
          s.dev.tells t.dev (.response p (c.side % 2) 0x86 0 tag y.onfi 0
            ([y.st.code, y.sus, y.lastTag, y.lastSt, (y.temp % 256).toNat] ++ more))) ∧
      (∀ slot ofs, b.holder = me → slot % 8 ≠ 7 → s.dev.addrBad p c true false false = false →
        ∃ t, exec (.setOffsets p c slot ofs) s = .next t ∧ ((t.dev.bridge p).slots.find (i * 8 + slot % 8)).map List.length =
          some 60 ∧ s.dev.tells t.dev (.response p (c.side % 2) 0x82 0 tag onfi 0 [0x07, 0, 0]))) ∧
    (b.power = 0 → cmdUnused c 0x0B = false →
      (∀ mode dur stamp errors, mode ≤ 2 → dur ≤ 255 → exec (.laneTest p c mode dur stamp errors) s = .next { s with dev := (
        d.emit (.response p (c.side % 2) 0x8B 0 tag 0 0 [stamp % 2 ^ 64, if mode = 0 then 0 else errors % 2 ^ 64])) }) ∧
      (∀ buf x, b.holder = me → buf < 32 → b.bufs.find buf = none → ∃ t, exec (.pdata p c buf x) s = .next t ∧
        t.dev.bridge p = { h with bufs := SMap.insert b.bufs buf x } ∧ t.dev.out = s.dev.out) ∧
      (∀ buf x, b.holder = me → buf < 32 → (b.bufs.find buf).isSome = true → exec (.pdata p c buf x) s = .next { s with dev := (
        d.emit (.response p (c.side % 2) 0x8F 0x04 tag onfi 0 [0x0C])) })) ∧
    (b.power ≤ 1 → cmdUnused c 0x08 = false →
      (∀ fence, b.holder = 0 → exec (.ownTake p c fence false) s = .next { s with dev := (
        (s.dev.setBridge p { b with holder := me, fence := fence % 65536 }).emit
          (.response p (c.side % 2) 0x88 0 tag 0 0 [me, fence % 65536])) }) ∧
      (∀ fence, fenceNewer (fence % 65536) b.fence = true → ∃ t, exec (.ownTake p c fence true) s = .next t ∧
        (t.dev.bridge p).holder = me ∧ (t.dev.bridge p).fence = fence % 65536 ∧ (t.dev.bridge p).arms = [] ∧
        (t.dev.bridge p).bufs = []) ∧
      (∀ fence force, (force = false ∧ b.holder ≠ 0) ∨ (force = true ∧ fenceNewer (fence % 65536) b.fence = false) →
        exec (.ownTake p c fence force) s = .next { s with dev := (
          d.emit (.response p (c.side % 2) 0x88 0x03 tag 0 0 [b.holder, b.fence])) }) ∧
      (b.holder = me → b.outstanding = false →
        (∃ t, exec (.ownRelease p c) s = .next t ∧ t.dev.bridge p = { h with holder := 0 } ∧
          s.dev.tells t.dev (.response p (c.side % 2) 0x88 0 tag 0 0 [0, b.fence])) ∧
        (∀ state, state ≤ 2 → ∃ t, exec (.bridgePower p c state) s = .next t ∧
          t.dev.bridge p = { h with power := state, slots := if state = 2 then [] else b.slots } ∧
          s.dev.tells t.dev (.response p (c.side % 2) 0x8A 0 tag 0 0 [state]))))

/-- R254 to R259: link-level replay.  A flit whose CRC fails is counted and NAKed; a sequenced flit in order is accepted and acknowledged;
an ACK empties the replay buffer up to its SEQ, and waiting flits take the room; a NAK and 256 ns without progress send the rest again, a flit's fourth
transmission enters RECOVERY; 50 µs there re-initialise the lane: programs and erases that were under way are asked about, what was armed else is
dealt again. -/
def Obligations.LinkReplays : Prop :=
  ∀ (s : State) (p : Nat), s.running → p < 512 →
    let x := s.dev.port p
    let again (l : List (Nat × Nat)) : List (Nat × Nat) := l.map (fun fc => (fc.1, fc.2 + 1))
    (s.dev.laneUp p = true → ∀ (flit : List Byte), flit.length = 32 →
      let bs := flit.map BitVec.toNat
      let hdr := ofBytes (bs.take 2)
      (crcBytes 16 0x8BB7 0xFFFF (bs.take 30) ≠ ofBytes (bs.drop 30) →
        ∃ t, exec (.flitReceive p flit) s = .next t ∧ t.dev.port p = { x with rxNak := true } ∧
          t.dev.fld (Reg.FCH_P_CRCERR p) 31 0 = min (s.dev.fld (Reg.FCH_P_CRCERR p) 31 0 + 1) 0xFFFFFFFF ∧
          t.dev.out = s.dev.out ++ [.flit p (ctrlFlit 2 x.rxNext)]) ∧
      (crcBytes 16 0x8BB7 0xFFFF (bs.take 30) = ofBytes (bs.drop 30) → 2 ≤ hdr % 4 → hdr / 16 = x.rxNext → hdr.testBit 2 = false →
        ∃ t, exec (.flitReceive p flit) s = .next t ∧ t.dev.out = s.dev.out ++ [.flit p (ctrlFlit 1 x.rxNext)] ∧
          (t.dev.port p).rxNext = (x.rxNext + 1) % 4096 ∧ (t.dev.port p).rxNak = false ∧
          (hdr % 4 = 2 → (if hdr.testBit 3 then (t.dev.port p).rx1 else (t.dev.port p).rx0) = [ofBytes ((bs.drop 2).take 28)]))) ∧
    (s.dev.laneUp p = true → ∀ seq,
      let n := (seq % 4096 + 4096 - x.base + 1) % 4096
      n ≤ x.txBuf.length → ∃ t, exec (.ack p seq) s = .next t ∧ x.txBuf.drop n <+: (t.dev.port p).txBuf ∧
        (x.tx0 = [] → x.tx1 = [] → t = { s with dev := s.dev.setPort p (x.acked n s.dev.tick) })) ∧
    (s.dev.laneUp p = true → x.tx0 = [] → x.tx1 = [] → ∀ seq,
      let n := (seq % 4096 + 4096 - x.base) % 4096
      n < x.txBuf.length → (∀ fc ∈ x.txBuf, fc.2 < 3) → ∃ t, exec (.nak p seq) s = .next t ∧ (t.dev.port p).txBuf = again (x.txBuf.drop n) ∧
        t.dev.fld (Reg.FCH_P_REPLAY p) 31 0 = min (s.dev.fld (Reg.FCH_P_REPLAY p) 31 0 + (x.txBuf.length - n)) 0xFFFFFFFF) ∧
    (s.dev.laneUp p = true → x.txBuf ≠ [] →
      (s.dev.tick < x.txTick + 256 → exec (.replayTimeout p) s = .next s) ∧
      (x.txTick + 256 ≤ s.dev.tick → (∀ fc ∈ x.txBuf, fc.2 < 3) →
        ∃ t, exec (.replayTimeout p) s = .next t ∧ t.dev.port p = { x with txBuf := again x.txBuf, txTick := s.dev.tick }) ∧
      (x.txTick + 256 ≤ s.dev.tick → (∃ fc ∈ x.txBuf, 3 ≤ fc.2) → x.recovs.length < s.dev.fld Reg.FCH_C_CTL 7 0 →
        ∃ t, exec (.replayTimeout p) s = .next t ∧ t.dev.lstate p = 6 ∧ (t.dev.port p).initTick = s.dev.tick ∧
          t.dev.fld (Reg.FCH_P_RECOV p) 31 0 = min (s.dev.fld (Reg.FCH_P_RECOV p) 31 0 + 1) 0xFFFFFFFF)) ∧
    (s.dev.lstate p = 6 → x.initTick + 50000 ≤ s.dev.tick → (∀ o ∈ x.ops, o.sent = none) →
      ∃ t, exec (.recoveryTimeout p) s = .next t ∧ t.dev.lstate p = 1 ∧ (t.dev.port p).rxNext = 0 ∧ (t.dev.port p).txBuf = [] ∧
        (∀ o ∈ (t.dev.port p).ops, o.stage ≠ .armed) ∧
        ∀ o ∈ x.ops, o.opc ∈ [2, 3] → o.stage ∈ [OpStage.armed, .running] →
          { o with stage := .running, asked := true, start := s.dev.tick } ∈ (t.dev.port p).ops)

/-- R206, R222, R237, R259, R266, R272, R273, R276, R280, R283 to R285, R307: what the responses of a bridge do.  A read's data arrives, unless
the command that it served has ended; a program's DONE leaves the buffered content in flash, a failed one records 0x0101 for the band, an erase's DONE leaves its pages erased;
STATUS says which dies are present and failed; OWN publishes the token and its FENCE, POWER OFF takes the lane out of service; the
sixteenth round trip publishes their median; ARM_CUT starts the confirmed operations, deals the others again and undoes a suspension that was not
confirmed; a refusal is counted,
recorded, and puts a busy operation back; an operation without a response fails its die. -/
def Obligations.ResponsesArrive : Prop :=
  ∀ (s : State) (p : Nat) (r : BRsp) (o : POp), s.running → p < 512 → r.tag < 4096 →
    (r.status = 0 → (s.dev.port p).op? r.tag = some o → o.stage = .running → o.forTwin = none → o.data = false →
      (o.opc = 0x01 → s.dev.hearsOf p r.tag true = true → s.dev.isOrphan p r true = false → ∀ mask soft content, ∃ t, exec (.rdata p r mask soft content) s = .next t ∧
        (o.owner.all s.dev.ownerLives = true → ((t.dev.port p).op? r.tag).map POp.data = some true) ∧
        (o.owner.all s.dev.ownerLives = false → (t.dev.port p).op? r.tag = none)) ∧
      (o.opc = 0x02 → s.dev.hearsOf p r.tag false = true → s.dev.isOrphan p r false = false → ∀ ns sus pg, s.dev.stripeBuf.find (flashKey p o.die o.block o.page) = some pg →
        ∃ t, exec (.done p r 2 ns sus) s = .next t ∧ t.dev.fpage (flashKey p o.die o.block o.page) = pg ∧
          t.dev.stripeBuf.find (flashKey p o.die o.block o.page) = none) ∧
      (o.opc = 0x03 → s.dev.hearsOf p r.tag false = true → s.dev.isOrphan p r false = false → ∀ ns sus, ∃ t, exec (.done p r 3 ns sus) s = .next t ∧
        ∀ pg < 4096, t.dev.fpage (flashKey p o.die o.block pg) = FPage.reset)) ∧
    (r.status = 1 → (s.dev.port p).op? r.tag = some o → o.stage = .running → o.forTwin = none → o.opc = 0x02 → o.src ≠ .rebuild →
      s.dev.hearsOf p r.tag false = true → s.dev.isOrphan p r false = false →
      (s.dev.page 0x500).err = false → ∀ ns sus, ∃ t, exec (.done p r 2 ns sus) s = .next t ∧ (t.dev.page 0x500).errCode = 0x0101 ∧
        (t.dev.page 0x500).info0 = w32 o.band) ∧
    (∀ die st sus lastTag lastSt temp info, die < 64 → r.status ≠ 0x0F →
      ∃ t, exec (.status p die r st sus lastTag lastSt temp info) s = .next t ∧
        t.dev.flag (if die < 32 then Reg.FCH_P_DIES_LO p else Reg.FCH_P_DIES_HI p) (die % 32) = (st != 6) ∧
        (st = 5 → t.dev.dieGone p die = true)) ∧
    (∀ holder fence, ∃ t, exec (.own p r holder fence) s = .next t ∧
      t.dev.fld (Reg.FCH_P_STS p) 4 3 = (if holder = 0 then 0 else if holder = s.dev.side + 1 then 1 else 2) ∧
      t.dev.fld (Reg.FCH_P_STS p) 31 16 = fence % 65536) ∧
    (r.status = 0 → ∃ t, exec (.power p r 2) s = .next t ∧ t.dev.lstate p = 0) ∧
    (r.status = 0 → (s.dev.port p).testTag ≠ 0 → s.dev.fld (Reg.FCH_P_TEST_CTL p) 1 0 ≠ 0 → ∀ stamp errors rtt,
      ∃ t, exec (.test p r stamp errors rtt) s = .next t ∧ (t.dev.port p).testTag = 0 ∧ (t.dev.port p).testEnd = 0 ∧
        t.dev.reg (Reg.FCH_P_TEST_ERR p) = w32 (min errors 0xFFFFFFFF)) ∧
    (r.status = 0 → (s.dev.port p).testTag ≠ 0 → s.dev.fld (Reg.FCH_P_TEST_CTL p) 1 0 = 0 → ∀ stamp errors rtt,
      ((s.dev.port p).rtts.length < 15 → ∃ t, exec (.test p r stamp errors rtt) s = .next t ∧
        (t.dev.port p).rtts = (s.dev.port p).rtts ++ [rtt]) ∧
      ((s.dev.port p).rtts.length = 15 → ∃ t, exec (.test p r stamp errors rtt) s = .next t ∧
        t.dev.fld (Reg.FCH_P_RTT p) 19 0 = min (medianOf ((s.dev.port p).rtts ++ [rtt])) (2 ^ 20 - 1) ∧
        (t.dev.port p).rtts = [])) ∧
    (∀ status trick cut count, status ≠ 0x0F → trick < 65536 → cut < 4096 → (s.dev.port p).ops = [] →
      (∀ die tk, (s.dev.port p).susArms = [(0x04, die, trick, cut, tk)] → ∃ t, exec (.armCut p status trick cut false count) s = .next t ∧
        (t.dev.port p).susArms = [] ∧ (t.dev.port p).susOpen.find die = none ∧
        t.dev.fld Reg.DLR_ARM_MISS 31 0 = min (s.dev.fld Reg.DLR_ARM_MISS 31 0 + 1) 0xFFFFFFFF)) ∧
    (∀ status trick cut count, status ≠ 0x0F → trick < 65536 → cut < 4096 → (s.dev.port p).ops = [o] → o.stage = .armed → o.trick = trick → o.seq = cut →
      (∀ a ∈ (s.dev.port p).susArms, a.2.2.1 ≠ trick) →
      (∃ t, exec (.armCut p status trick cut true count) s = .next t ∧
        (t.dev.port p).ops = [{ o with stage := .running, start := s.dev.tick }]) ∧
      (∃ t, exec (.armCut p status trick cut false count) s = .next t ∧
        (t.dev.port p).ops.map (fun y => (y.stage, y.misses)) = [(.waiting, o.misses + 1)] ∧
        t.dev.fld Reg.DLR_ARM_MISS 31 0 = min (s.dev.fld Reg.DLR_ARM_MISS 31 0 + 1) 0xFFFFFFFF)) ∧
    (r.status = 0x04 → (s.dev.page (0x800 + p)).err = false → (s.dev.port p).op? r.tag = some o → o.opc ≤ 3 →
      ∃ t, exec (.refuse p r o.opc) s = .next t ∧ (t.dev.page (0x800 + p)).errCode = 0x0103 ∧
        (t.dev.page (0x800 + p)).info0 = w32 r.tag ∧ (t.dev.page (0x800 + p)).info1 = 4 ∧
        ((t.dev.port p).op? r.tag).map POp.stage = some .waiting ∧
        t.dev.fld (Reg.FCH_P_REFUSE p) 31 0 = min (s.dev.fld (Reg.FCH_P_REFUSE p) 31 0 + 1) 0xFFFFFFFF) ∧
    ((s.dev.port p).op? r.tag = some o → o.stage = .running → o.data = false → o.sent = none → o.die < 64 →
      o.start + s.dev.fld Reg.FCH_DIE_TMO 15 0 * 1000000 ≤ s.dev.tick →
      ∃ t, exec (.dieResponseTimeout p r.tag) s = .next t ∧ t.dev.dieGone p o.die = true)

/-- R28, R282 to R284, R286, R288, R289: lanes and their service.  A lane that does not reach ACTIVE in INIT_MS fails its port with cause
1; one that does is in service with the median of its round trips; RECOMMISSION of a port out of service clears its failure marks and starts the lane again;
RETRAIN of an ACTIVE lane enters RECOVERY; a lane test starts, one of mode 1 or 2 with the lane out of service, and one that would stop the data of an
enabled port is refused. -/
def Obligations.LanesAndService : Prop :=
  ∀ (s : State) (p : Nat), s.running → p < 512 →
    let pg := 0x800 + p
    (1 ≤ s.dev.lstate p → s.dev.lstate p ≤ 4 →
      (s.dev.portGone p = false → (s.dev.port p).initTick + s.dev.fld Reg.FCH_C_CTL 15 8 * 1000000 ≤ s.dev.tick →
        (s.dev.page pg).err = false →
        ∃ t, exec (.portInitTimeout p) s = .next t ∧ t.dev.lstate p = 7 ∧ t.dev.flag (Reg.FCH_P_STS p) 7 = true ∧
          (t.dev.page pg).errCode = 0x0101 ∧ (t.dev.page pg).info0 = 1) ∧
      (∀ rtts, rtts.length = 16 → (∀ r ∈ rtts, r < 2 ^ 20) → ∃ t, exec (.laneActive p rtts) s = .next t ∧ t.dev.lstate p = 5 ∧
        t.dev.fld (Reg.FCH_P_RTT p) 19 0 = min (medianOf rtts) (2 ^ 20 - 1) ∧
        t.dev.fld (Reg.FCH_P_RTT_SPREAD p) 15 0 = min (rtts.foldl max 0 - rtts.foldl min (rtts.foldl max 0)) 0xFFFF ∧
        ((s.dev.bridge p).holder ≠ 2 - s.dev.side → (t.dev.bridge p).power = 0))) ∧
    (s.dev.lstate p = 6 → ∀ rtts, rtts.length = 16 → ∃ t, exec (.laneActive p rtts) s = .next t ∧ t.dev.lstate p = 5) ∧
    (∀ (v : Word), s.dev.isOpen pg →
      (bitAt v 0 = true → (s.dev.page pg).en = false → ∃ t, exec (.recommission p v) s = .next t ∧ t.dev.lstate p = 1 ∧
        t.dev.flag (Reg.FCH_P_STS p) 7 = false ∧ t.dev.reg (Reg.FCH_P_DFAIL_LO p) = 0 ∧ t.dev.reg (Reg.FCH_P_DFAIL_HI p) = 0 ∧
        ∀ o ∈ (t.dev.port p).ops, o.opc = 0x03) ∧
      (bitAt v 0 = true → (s.dev.page pg).en = true → (s.dev.page pg).err = false → v &&& 0xFFFFFFFC = 0 →
        ∃ t, exec (.recommission p v) s = .next t ∧ (t.dev.page pg).errCode = 0x0100 ∧ t.dev.ports = s.dev.ports) ∧
      (bitAt v 1 = true → s.dev.lstate p = 5 → (s.dev.port p).recovs.length < s.dev.fld Reg.FCH_C_CTL 7 0 →
        ∃ t, exec (.retrain p v) s = .next t ∧ t.dev.lstate p = 6) ∧
      (bits v 1 0 = 0 → bits v 15 8 ≠ 0 → bitAt v 16 = true → ∃ t, exec (.laneTestGo p v) s = .next t ∧
        t.dev.reg (Reg.FCH_P_TEST_STS p) = 0 ∧ (t.dev.port p).testTag = 1 ∧
        ∀ i < 16, ∃ tag, s.dev.tells t.dev (.bridge p 0x0B [0, tag, 0, 0, 0, 0, 0, 2 ^ 8 * bits v 15 8 + 2 ^ 32 * i])) ∧
      (1 ≤ bits v 1 0 → bits v 1 0 ≤ 2 → bits v 15 8 ≠ 0 → bitAt v 16 = true → (s.dev.page pg).en = false →
        ∃ t, exec (.laneTestGo p v) s = .next t ∧ t.dev.reg (Reg.FCH_P_TEST_STS p) = 0 ∧
          (t.dev.port p).testEnd = s.dev.tick + 1000000 * bits v 15 8) ∧
      (1 ≤ bits v 1 0 → bits v 1 0 ≤ 2 → bits v 15 8 ≠ 0 → bitAt v 16 = true → (s.dev.page pg).en = true →
        ∃ t, exec (.laneTestGo p v) s = .next t ∧ t.dev.reg (Reg.FCH_P_TEST_STS p) = 4 ∧ t.dev.ports = s.dev.ports))

/-! ### Read integrity (chapter 10) -/

/-- R292 to R295, R304 to R309: the decoders report.  A hard decode's result is taken into its read, and one that fails starts the
codeword's climb at L1, but fails a verify read; the sixteenth good one of a verify read within its limit marks the page verified, a bad
one records 0x0103; a soft decode, of a re-read whose data has come, ends the climb or moves it up one step; a success with a nonzero syndrome takes the decoder or whisk
out of service and is not counted. -/
def Obligations.DecodersReport : Prop :=
  ∀ (s : State) (p tag cw : Nat) (o : POp), s.running → p < 512 → tag < 4096 → cw < 16 → (s.dev.port p).op? tag = some o →
    (∀ (okS okP okG : Bool) (e n01 n10 dec : Nat), o.opc = 0x01 → o.data = true → o.owner = none → o.re = none → (∀ c ∈ o.got, c.cw ≠ cw) →
      o.forTwin = none → o.cols.contains cw = true →
      ((∃ c ∈ o.cols, c ≠ cw ∧ ∀ x ∈ o.got, x.cw ≠ c) → o.src ∈ [OpSrc.host, .reloc, .rebuild, .sieve] → ∀ ok,
        let good := ok && okS && (okP && s.dev.placedRight o cw) && (okG && s.dev.tagRight o cw)
        ∃ t, exec (.hardDecodeDone p tag cw ok true okS okP okG e n01 n10 dec) s = .next t ∧
          ((t.dev.port p).op? tag).map POp.got = some (o.got ++ [⟨cw, good, if good then 0 else 1, e, n01, n10, ok, false⟩]) ∧
          t.dev.fld Reg.ECC_CW_L1 31 0 = (if good then s.dev.fld Reg.ECC_CW_L1 31 0
            else min (s.dev.fld Reg.ECC_CW_L1 31 0 + 1) 0xFFFFFFFF)) ∧
      ((∀ c ∈ o.cols, c ≠ cw → ∃ x ∈ o.got, x.cw = c) → o.src = .verify → (∀ c ∈ o.got, c.step = 0) →
        let lim := if o.slc then s.dev.fld Reg.ECC_RW_CTL 31 24 else s.dev.fld Reg.ECC_RW_CTL 23 16
        ((∀ c ∈ o.got, c.ok = true ∧ c.e ≤ lim) → e ≤ lim →
          ∃ t, exec (.hardDecodeDone p tag cw true true true true okG e n01 n10 dec) s = .next t ∧
            (t.dev.fpage (flashKey p o.die o.block o.page)).verified = true) ∧
        ((s.dev.page 0xA00).err = false →
          ∃ t, exec (.hardDecodeDone p tag cw false true okS okP okG e n01 n10 dec) s = .next t ∧
            (t.dev.page 0xA00).errCode = 0x0103 ∧ (t.dev.page 0xA00).info0 = w32 (p * 64 + o.die) ∧
            bitAt (t.dev.page 0xA00).intPend 0 = true))) ∧
    (∀ (okS okP okG : Bool) (e n01 n10 dec : Nat), dec < 9 →
      ∃ t, exec (.hardDecodeDone p tag cw true false okS okP okG e n01 n10 dec) s = .next t ∧ p / 8 * 9 + dec ∈ t.dev.hdOut ∧
        t.dev.ports = s.dev.ports ∧ t.dev.fld Reg.ECC_CW_HARD_LO 31 0 = s.dev.fld Reg.ECC_CW_HARD_LO 31 0) ∧
    (∀ c w y, o.got.find? (fun x => x.cw == cw && x.step != 0) = some c → (∃ x ∈ o.cols, x ≠ cw ∧ o.settled x = false) →
      (s.dev.port p).ops.find? (fun y => y.re == some (tag, cw, c.step) && y.data) = some y → y.tag ≠ tag → s.dev.whiskTakes p y = true →
      (s.dev.placedRight o cw = true → s.dev.tagRight o cw = true → ∃ t, exec (.whiskDecodeDone p tag cw true true true true true w) s = .next t ∧ ((t.dev.port p).op? tag).map POp.got =
        some (o.got.map (fun y => if y.cw == cw then { c with step := 0 } else y))) ∧
      (∀ okS okP okG, c.step = 1 → ∃ t, exec (.whiskDecodeDone p tag cw false true okS okP okG w) s = .next t ∧
        ((t.dev.port p).op? tag).map POp.got = some (o.got.map (fun y => if y.cw == cw then { c with step := 2 } else y)) ∧
        t.dev.fld Reg.ECC_CW_L2 31 0 = min (s.dev.fld Reg.ECC_CW_L2 31 0 + 1) 0xFFFFFFFF)) ∧
    (∀ okS okP okG w, w < 104 → ∃ t, exec (.whiskDecodeDone p tag cw true false okS okP okG w) s = .next t ∧ w ∈ t.dev.wkOut ∧
      t.dev.ports = s.dev.ports)

/-- R298, R307, R308, R311 to R316: the read-level tracker and the sieve.  An early verify read covers its page by die parity; a visit
queues its reads and, once they have their decodes, dates its set; a group that holds a set too old is woken; ECC_DAY advances with the trick clock; a selected entry is shown; a die that
passes its qualification is known by its fresh offsets, one that fails any test is FAILED. -/
def Obligations.SieveAndTracker : Prop :=
  ∀ (s : State), s.running →
    (∀ p die block page b x, p < 512 →
      let at_ (st : BSet) : Bool := st.port == p && st.die == die && st.block == block
      let c := chunkId b page ((x.sets.findIdx? at_).getD 0)
      let done := SMap.get (fun _ => 0) s.dev.progd c / 4
      s.dev.bands.find? (fun kv => kv.2.sets.any at_) = some (b, x) → done ≠ 0 →
      s.dev.flag Reg.ECC_VFY_CTL 16 = true →
      done + s.dev.fld Reg.ECC_VFY_CTL 15 0 * 1000000 ≤ s.dev.tick + 1 → c ∉ s.dev.chunksOk →
      (∀ v ∈ (s.dev.port p).ops, v.src ≠ .verify ∧ v.src ≠ .early) → s.dev.mayTake 7 128 = true →
      ∃ t, exec (.earlyVerifyTimeout p die block page) s = .next t ∧
        page ∈ SMap.get (fun _ => []) t.dev.dpar (setKey p die block) ∧
        t.dev.fld Reg.ECC_VFY_EARLY 31 0 = min (s.dev.fld Reg.ECC_VFY_EARLY 31 0 + 1) 0xFFFFFFFF) ∧
    (∀ b pos, b < 2 ^ 23 → pos < 19 → (s.dev.band b).st = .closed → s.dev.stewards b = true → s.dev.flag Reg.ECC_SV_CTL 0 = true →
      s.dev.eccHeld = false → s.dev.flushing = false →
      let st := s.dev.setAtPos b pos
      let k := setKey st.port st.die st.block
      let ops := (s.dev.port st.port).ops.filter (fun o => o.owner == some (sieveOwner k) && o.re.isNone)
      s.dev.domSt (st.port / 8) = 0 → s.dev.dieGone st.port st.die = false → st.erased = false →
      (ops = [] → s.dev.svSeen.contains k = false → s.dev.sievePace = true → st.port < 512 →
        (∃ q ∈ sievePages (s.dev.band b).slc, q < (s.dev.band b).next ∧ ∃ c ∈ [0, 4, 8, 12], s.dev.cwErased b q pos c = false) →
        ∃ t, exec (.sieveVisit b pos) s = .next t ∧
          ∃ o ∈ (t.dev.port st.port).ops, o.src = .sieve ∧ o.owner = some (sieveOwner k) ∧ o.opc = 0x01) ∧
      (ops ≠ [] → (∀ o ∈ ops, o.over = true) →
        ∃ t, exec (.sieveVisit b pos) s = .next t ∧ (t.dev.trkOf k).vday = s.dev.eccDay ∧
          t.dev.svMoved = true ∧ t.dev.flag Reg.ECC_SV_STS 0 = true)) ∧
    (∀ g, g < 64 → s.dev.flag Reg.ECC_SV_CTL 0 = true → s.dev.fld Reg.ECC_SV_CTL 27 16 ≠ 0 → s.dev.domSt g ≠ 0 →
      (∃ kg ∈ s.dev.sieveSets, kg.2 = g ∧ s.dev.sieveOld kg.1 (s.dev.fld Reg.ECC_SV_CTL 27 16) = true) →
      (s.dev.dom g).leaving = false → (s.dev.dom g).sieve = false → s.dev.eccHeld = false → s.dev.flushing = false →
      ∃ t, exec (.sieveWake g) s = .next t ∧ (t.dev.dom g).waking = true ∧ (t.dev.dom g).sieve = true ∧ t.dev.flag Reg.ECC_SV_STS 2 = true ∧
        t.dev.fld Reg.ECC_SV_WAKES 31 0 = min (s.dev.fld Reg.ECC_SV_WAKES 31 0 + 1) 0xFFFFFFFF) ∧
    (s.dev.dayTick + 86400000000000 ≤ s.dev.tick →
      ∃ t, exec .eccDayAdvance s = .next t ∧ t.dev.eccDay = (s.dev.eccDay + 1) % 65536 ∧
        t.dev.dayTick = s.dev.dayTick + 86400000000000 ∧ t.dev.svMoved = false ∧
        t.dev.flag Reg.ECC_SV_STS 1 = !s.dev.svMoved) ∧
    (∀ (v : Word), s.dev.isOpen 0xA01 →
      ∃ t, exec (.eccRlSelWrite v) s = .next t ∧ ∀ w < 32, t.dev.reg (Reg.ECC_RL_ENT w) =
        w32 ((s.dev.trkOf (setKey (bits v 8 0) (bits v 14 9) (bits v 26 15))).bytes / 2 ^ (32 * w))) ∧
    (∀ p die q, p < 512 → die < 64 → s.dev.fresh.find (p * 64 + die) = none → s.dev.dieGone p die = false → die ∈ s.dev.diesOf p →
      (s.dev.qualFails die q = none → ∃ t, exec (.dieQualify p die q) s = .next t ∧
        (t.dev.fresh.find (p * 64 + die)).map List.length = some 64 ∧ t.dev.dieGone p die = false) ∧
      (∀ n, s.dev.qualFails die q = some n → (s.dev.page 0xA02).err = false → ∃ t, exec (.dieQualify p die q) s = .next t ∧
        t.dev.dieGone p die = true ∧ (t.dev.page 0xA02).errCode = 0x0105 ∧ (t.dev.page 0xA02).info1 = w32 n))

/-! ### The shuffle layout (chapter 11) -/

/-- R329, R333 to R335, R338 to R341, R344, R346, R349: a stripe that waits too long is closed with pads; a column of at most three
erasures whose checks pass is solved, and any other is poisoned with error 0x0102; a rebuild reads the sources that its next stripe needs and, with
all there, programs the stripe's replacement chunks; a copyback gives the band a set on the original port that is erased and in no band, and has the
rebuild set erased; the clears that wait leave the bitmap; a dirty region has its stripes read and judged one by one, and then waits for its clear. -/
def Obligations.LayoutKeeps : Prop :=
  ∀ (s : State), s.running → s.dev.shfStop = false →
    (∀ b f, s.dev.fills.find? (fun f => f.band == b) = some f → 0 < f.placed → f.placed < 32 →
      f.last + s.dev.fld Reg.SHF_STRIPE_CTL 15 0 * 1000 ≤ s.dev.tick →
      ∃ t, exec (.stripeWaitExpire b) s = .next t ∧
        ∀ f' ∈ t.dev.fills, f'.band = b → f'.stripe = f.stripe + 1 ∧ f'.placed = 0) ∧
    (∀ b k col checks, b < 2 ^ 23 → col < 16 → s.dev.erasures b k col ≠ [] → k < (s.dev.band b).next →
      ((s.dev.erasures b k col).length ≤ 3 → 0 < s.dev.fld Reg.SHF_DEG_CTL 3 0 → ∃ t, exec (.reconstructSolve b k col [] (true :: checks)) s = .next t ∧
        t.dev.fld Reg.SHF_DEG_READS 31 0 = min (s.dev.fld Reg.SHF_DEG_READS 31 0 +
          ((s.dev.erasures b k col).filter (fun j => roleOf j k < 16)).length) 0xFFFFFFFF ∧ t.dev.flash = s.dev.flash) ∧
      (3 < (s.dev.erasures b k col).length ∨ (∀ ok ∈ checks, ok = false) → (s.dev.page 0xB00).err = false →
        ∃ t, exec (.reconstructSolve b k col [] checks) s = .next t ∧ (t.dev.page 0xB00).errCode = 0x0102 ∧
          (t.dev.page 0xB00).info0 = w32 b ∧ bitAt (t.dev.page 0xB00).intPend 2 = true)) ∧
    (∀ b k, s.dev.rebuildNext = some b → bitAt s.dev.rbNow 24 = true → (s.dev.band b).st = .closed → s.dev.rebuildElse b = false →
      (s.dev.setsOf b).length = 19 → (∀ st ∈ s.dev.setsOf b, s.dev.dieGone st.port st.die = false ∧ st.erased = false) →
      s.dev.rebuildAt b = some k →
      let w := rebuildOwner b k
      let todo := ((s.dev.replSets b).filter (fun js => js.2.built == k)).map Prod.fst
      (∀ j ∈ todo, s.dev.dieTakes (s.dev.setAtPos b j).port (s.dev.setAtPos b j).die = true) →
      (s.dev.takeCredit 5 (16 * (16 + todo.length)) (rebuildUnit b k)).1 = true →
      ((∀ j ∈ todo, ∀ c < 16, s.dev.cwReady w b k j c = true) → ∃ t, exec .rebuildStripe s = .next t ∧ ∀ j ∈ todo,
        let st := s.dev.setAtPos b j
        (t.dev.setAtPos b j).built = k + 1 ∧
          ∃ o ∈ (t.dev.port st.port).ops, o.opc = 0x02 ∧ o.src = .rebuild ∧ o.die = st.die ∧ o.block = st.block ∧ o.page = k) ∧
      (∀ j ∈ todo, ∀ c < 16, s.dev.cwReady w b k j c = false → (∀ kv ∈ s.dev.ports, ∀ o ∈ kv.2.ops, o.owner ≠ some w) →
        ∀ x ∈ s.dev.needs w b k j c, ∃ t, exec .rebuildStripe s = .next t ∧
          ∃ o ∈ (t.dev.port (s.dev.setAtPos b x.1).port).ops, o.opc = 0x01 ∧ o.src = .rebuild ∧ o.owner = some w ∧ x.2 ∈ o.cols)) ∧
    (∀ b pos die block, b < 2 ^ 23 → pos < 19 → die < 64 → (s.dev.setsOf b).length = 19 →
      let st := s.dev.setAtPos b pos
      let o := st.formed
      bitAt s.dev.rbNow 25 = true → (s.dev.band b).st = .closed → st.repl = true → (s.dev.band b).next ≤ st.prog →
      s.dev.dieGone o.port die = false → (s.dev.fresh.find (o.port * 64 + die)).isSome = true → block < s.dev.dieBlocks o.port →
      s.dev.setFree o.port die block = true →
      ∃ t, exec (.copyback b pos die block true) s = .next t ∧
        t.dev.setAtPos b pos = { st with port := o.port, die := die, block := block, repl := false, erased := false, prog := 0, built := 0 } ∧
        (s.dev.dieGone st.port st.die = false →
          ∃ e ∈ (t.dev.port st.port).ops, e.opc = 0x03 ∧ e.die = st.die ∧ e.block = st.block)) ∧
    (s.dev.bmClear ≠ [] → ∃ t, exec .bitmapClearFlush s = .next t ∧ t.dev.bmClear = [] ∧
      t.dev.bmDirty = s.dev.bmDirty.filter (fun r => !(s.dev.bmClear.map Prod.fst).contains r)) ∧
    (∀ b r n, b < 2 ^ 23 → r < 64 → s.dev.released = true → s.dev.resync.find (b * 64 + r) = some n →
      (s.dev.resyncAt b r n = none → b * 64 + r ∈ s.dev.bmDirty → ∃ t, exec (.regionResync b r) s = .next t ∧
        t.dev.resync.find (b * 64 + r) = none ∧ (∃ tick, (b * 64 + r, tick) ∈ t.dev.bmClear) ∧ t.dev.elog = s.dev.elog) ∧
      (∀ k, s.dev.resyncAt b r n = some k →
        ((∀ j < 19, ∀ c < 16, s.dev.cwErased b k j c = true ∨ s.dev.cwSettled (resyncOwner b k) b k j c = true) →
          ∃ t, exec (.regionResync b r) s = .next t ∧ t.dev.resync.find (b * 64 + r) = some (k % 64 + 1) ∧
            (s.dev.stripeConsistent b k = true → t.dev.elog = s.dev.elog) ∧
            (s.dev.stripeConsistent b k = false → (s.dev.page 0xB00).err = false → (t.dev.page 0xB00).errCode = 0x0105 ∧
              (t.dev.page 0xB00).info0 = w32 b ∧ (t.dev.page 0xB00).info1 = w32 k)) ∧
        (∀ j < 19, ∀ c < 16, s.dev.cwErased b k j c = false → (∀ kv ∈ s.dev.ports, ∀ o ∈ kv.2.ops, o.owner ≠ some (resyncOwner b k)) →
          ∃ t, exec (.regionResync b r) s = .next t ∧
            ∃ o ∈ (t.dev.port (s.dev.setAtPos b j).port).ops, o.opc = 0x01 ∧ o.cls = 1 ∧ o.owner = some (resyncOwner b k) ∧ c ∈ o.cols)))

/-! ### Stockpot and memory (chapter 12) -/

/-- R354, R356, R357, R360, R361, R367, R372: a stack fault is marked, recorded and, without a twin, starts the dump; the oldest waiting
unit of a class takes its credit whole; a ladle whose residue fails leaves service, and an accumulator takes in a programmed page; an
SRAM error is counted, a recurring one remapped, an uncorrectable one recorded. -/
def Obligations.StockpotAndSram : Prop :=
  ∀ (s : State), s.running →
    (∀ k cause, k < 4 → 1 ≤ cause → cause ≤ 3 → (s.dev.page 0x600).err = false →
      ∃ t, exec (.hbmStackFault k cause) s = .next t ∧ t.dev.flag Reg.STK_HBM_STS (4 + k) = true ∧
        (t.dev.page 0x600).errCode = 0x0101 ∧ (t.dev.page 0x600).info0 = w32 k ∧ (t.dev.page 0x600).info1 = w32 cause ∧
        (s.dev.paired = false → s.dev.mode ≤ 2 → t.dev.dumping = true ∧ t.dev.stayDown = true)) ∧
    (∀ c w, c < 10 → s.dev.crWait.find? (fun w => w.cls == c) = some w → (∀ w ∈ s.dev.crWait, s.dev.unitGone w.unit = false) →
      s.dev.mayTake c w.pages = true → s.dev.stkStop = false →
      ∃ t, exec (.creditGrant c) s = .next t ∧ t.dev.crHold.find (w.unit * 16 + c) = some w.pages ∧ w ∉ t.dev.crWait) ∧
    (∀ n, n < 128 → s.dev.flag (Reg.STK_LADLE_OUT (n / 32)) (n % 32) = false → s.dev.stkHeld = false →
      (∀ cls, (s.dev.page 0x602).err = false → ∃ t, exec (.ladleJob n (.move cls) false) s = .next t ∧
        t.dev.flag (Reg.STK_LADLE_OUT (n / 32)) (n % 32) = true ∧ (t.dev.page 0x602).errCode = 0x0004 ∧
        (t.dev.page 0x602).info0 = w32 (n + 1) ∧ t.dev.fld Reg.STK_LADLE_STS 7 0 = s.dev.fld Reg.STK_LADLE_STS 7 0 - 1) ∧
      (∀ cls, exec (.ladleJob n (.move cls) true) s = .next s) ∧
      (∀ p die block page, p < 512 → die < 64 →
        let f := s.dev.fpage (setKey p die block * 4096 + page)
        f ≠ FPage.reset → f.verified = false → s.dev.mayTake 7 128 = true →
        ∃ t, exec (.ladleJob n (.dparIn p die block page) true) s = .next t ∧
          page ∈ SMap.get (fun _ => []) t.dev.dpar (setKey p die block))) ∧
    (∀ a w kind, a < 5120 → w < 2 ^ 32 →
      (∃ t, exec (.sramEccError a w kind false) s = .next t ∧
        t.dev.fld Reg.ECC_ARR_CE 31 0 = min (s.dev.fld Reg.ECC_ARR_CE 31 0 + 1) 0xFFFFFFFF ∧
        (a * 2 ^ 32 + w ∉ s.dev.ceWords → a * 2 ^ 32 + w ∈ t.dev.ceWords) ∧
        (a * 2 ^ 32 + w ∈ s.dev.ceWords → (SMap.get (fun _ => []) s.dev.remapped a).length < 8 →
          w ∈ SMap.get (fun _ => []) t.dev.remapped a)) ∧
      (∀ pg, kind = .data pg none ∨ (∃ u, kind = .data pg (some u)) → pageExists pg = true → pg ≠ 0xA03 → (s.dev.page pg).err = false → (s.dev.page 0xA03).err = false →
        ∃ t, exec (.sramEccError a w kind true) s = .next t ∧ (t.dev.page pg).errCode = 0x0005 ∧ (t.dev.page pg).info0 = w32 a ∧
          (t.dev.page 0xA03).errCode = 0x0110 ∧ (t.dev.page 0xA03).info0 = w32 a ∧
          t.dev.fld Reg.ECC_ARR_UE 31 0 = min (s.dev.fld Reg.ECC_ARR_UE 31 0 + 1) 0xFFFFFFFF))

/-- R368 to R377: HBM errors are counted and logged, a corrected line's write-back that a newer write overtakes is dropped and counted, an uncorrectable line holds the poison code, a row that wants repair gets a spare row
or its two pages retire; the scrubbers move on line by line, count their laps, and say when a lap takes too long. -/
def Obligations.HbmAndScrubbers : Prop :=
  ∀ (s : State), s.running →
    (∀ off, off < 154618822656 →
      (∀ newer : Bool, ∃ t, exec (.hbmCorrected off newer) s = .next t ∧
        t.dev.fld Reg.ECC_HBM_CE 31 0 = min (s.dev.fld Reg.ECC_HBM_CE 31 0 + 1) 0xFFFFFFFF ∧
        t.dev.fld Reg.ECC_WB_DROP 31 0 = min (s.dev.fld Reg.ECC_WB_DROP 31 0 + newer.toNat) 0xFFFFFFFF ∧
        t.dev.hbmLog.head? = some ⟨off, false, false, false, s.dev.tick, s.dev.epoch⟩) ∧
      (∀ item, (s.dev.page 0xA03).err = false → ∃ t, exec (.hbmUncorrectable off item) s = .next t ∧ off / 64 ∈ t.dev.hbmPoison ∧
        (t.dev.page 0xA03).errCode = 0x0113 ∧ (t.dev.page 0xA03).info0 = w32 (off % 2 ^ 32) ∧
        (t.dev.page 0xA03).info1 = w32 (off / 2 ^ 32) ∧
        t.dev.fld Reg.ECC_HBM_UE 31 0 = min (s.dev.fld Reg.ECC_HBM_UE 31 0 + 1) 0xFFFFFFFF) ∧
      (s.dev.rowWants (rowOf off) = true → s.dev.dumping = false →
        (∃ t, exec (.hbmRowRepair off true) s = .next t ∧
          t.dev.fld Reg.STK_REPAIRS 15 0 = min (s.dev.fld Reg.STK_REPAIRS 15 0 + 1) 0xFFFF ∧
          ∀ e ∈ t.dev.hbmLog, rowOf e.off = rowOf off → e.repaired = true) ∧
        (s.dev.fld Reg.STK_REPAIRS 31 16 < 4096 → (s.dev.page 0x600).err = false →
          ∃ t, exec (.hbmRowRepair off false) s = .next t ∧ off / 131072 * 2 ∈ t.dev.hbmRetired ∧
            off / 131072 * 2 + 1 ∈ t.dev.hbmRetired ∧ (t.dev.page 0x600).errCode = 0x0104 ∧
            ∀ e ∈ t.dev.hbmLog, rowOf e.off = rowOf off → e.retired = true))) ∧
    (∀ newer item, s.dev.pagesHold 0x600 0x600 = false → s.dev.flag Reg.STK_SCR_CTL 0 = true → s.dev.mode ≤ 1 → s.dev.flushing = false →
      (s.dev.scrLine + 1 < 2415919104 → ∃ t, exec (.hbmScrubRead 0 newer item) s = .next t ∧ t.dev.scrLine = s.dev.scrLine + 1 ∧
        t.dev.fld Reg.STK_SCR_HBM_POS 21 0 = (s.dev.scrLine + 1) / 1024) ∧
      (s.dev.scrLine + 1 = 2415919104 → ∃ t, exec (.hbmScrubRead 0 newer item) s = .next t ∧ t.dev.scrLine = 0 ∧
        t.dev.scrStart = s.dev.tick ∧ t.dev.fld Reg.STK_SCR_LAPS 15 0 = min (s.dev.fld Reg.STK_SCR_LAPS 15 0 + 1) 0xFFFF)) ∧
    (∀ a w kind, s.dev.pagesHold 0x600 0x600 = false → s.dev.flag Reg.STK_SCR_CTL 1 = true → s.dev.mode ≤ 1 → s.dev.flushing = false →
      exec (.sramScrubRead a w 0 kind false) s = .next s ∧
      ∃ t, exec (.sramScrubRead a w 0 kind true) s = .next t ∧ t.dev.sramStart = s.dev.tick ∧
        t.dev.fld Reg.STK_SCR_LAPS 31 16 = min (s.dev.fld Reg.STK_SCR_LAPS 31 16 + 1) 0xFFFF) ∧
    (s.dev.flag Reg.STK_SCR_CTL 0 = true →
      s.dev.scrStart + s.dev.fld Reg.STK_SCR_CTL 31 16 * 3600000000000 < s.dev.tick →
      ∃ t, exec .scrStarved s = .next t ∧ bitAt (t.dev.page 0x600).intPend 7 = true ∧ Dev.frame s.dev t.dev [] [0x600])


/-! ### The twin link (chapter 13) -/

/-- R381, R382, R385, R387, R388, R390, R391, R410: lanes, keys and pairing.  A failed lane leaves the map, a spare or eight lanes take its
place, or the link goes down; a trained link of a released unit that may pair enters KEYING and, with a key to prove, sends HELLO; HELLO is
checked, and the unit that serves sends SYNC; REKEY with a fresh key wrapped under the shelf key goes out in time, and an exhausted count
returns to KEYING; the eighth pairing-key word sets the key. -/
def Obligations.TwinLinkAndKeys : Prop :=
  ∀ (s : State), s.running →
    (∀ l c, l < 18 → s.dev.flag Reg.TWN_LANE_MAP l = true → (s.dev.page 0xC00).err = false →
      ∃ t, exec (.gulonLaneFail l c) s = .next t ∧ t.dev.flag Reg.TWN_LANE_FAIL l = true ∧ t.dev.flag Reg.TWN_LANE_MAP l = false ∧
        (t.dev.page 0xC00).errCode = 0x0100 ∧ (t.dev.page 0xC00).info0 = w32 l ∧ (t.dev.page 0xC00).info1 = w32 (c % 2) ∧
        ((∃ i < 18, s.dev.flag Reg.TWN_LANE_MAP i = false ∧ s.dev.flag Reg.TWN_LANE_FAIL i = false) →
          0 < s.dev.fld Reg.TWN_LINK_STS 7 6 →
          t.dev.fld Reg.TWN_LINK_STS 7 6 = s.dev.fld Reg.TWN_LINK_STS 7 6 - 1 ∧
          t.dev.fld Reg.TWN_LINK_STS 5 1 = s.dev.fld Reg.TWN_LINK_STS 5 1) ∧
        (s.dev.fld Reg.TWN_LINK_STS 7 6 = 0 → s.dev.fld Reg.TWN_LINK_STS 5 1 = 16 → 9 ≤ s.dev.lanesOn.length →
          t.dev.fld Reg.TWN_LINK_STS 5 1 = 8) ∧
        (s.dev.fld Reg.TWN_LINK_STS 7 6 = 0 → s.dev.fld Reg.TWN_LINK_STS 5 1 = 8 → t.dev.flag Reg.TWN_LINK_STS 0 = false)) ∧
    (let good := (List.range 18).filter (fun l => !s.dev.flag Reg.TWN_LANE_FAIL l)
     s.dev.flag Reg.TWN_LINK_STS 0 = false → s.dev.flag Reg.TWN_LINK_CTL 0 = true → 16 ≤ good.length →
      ∃ t, exec .gulonLinkUp s = .next t ∧ t.dev.flag Reg.TWN_LINK_STS 0 = true ∧ t.dev.fld Reg.TWN_LINK_STS 5 1 = 16 ∧
        t.dev.fld Reg.TWN_LINK_STS 7 6 = good.length - 16 ∧
        (s.dev.released = true → s.dev.flag Reg.TWN_CTL 0 = true → s.dev.twnHeld = false → s.dev.dumping = false → s.dev.twin ∈ [0, 3, 4, 5, 6, 7] →
          t.dev.twin = 1 ∧ (s.dev.linkKey.isSome = true → s.dev.puts t.dev 0x01))) ∧
    (s.dev.flag Reg.TWN_LINK_STS 0 = true →
      ∃ t, exec .gulonLinkDown s = .next t ∧ t.dev.flag Reg.TWN_LINK_STS 0 = false ∧ t.dev.fld Reg.TWN_LANE_MAP 17 0 = 0 ∧
        bitAt (t.dev.page 0xC00).intPend 0 = true ∧ (s.dev.twin = 2 → t.dev.twin = 0) ∧ (s.dev.twin = 3 → t.dev.twin = 3)) ∧
    (∀ (v : Word), s.dev.isOpen 0xC00 → ∃ t, exec (.pairkeySet v) s = .next t ∧ t.dev.flag Reg.TWN_PAIRKEY_STS 0 = true ∧
      t.dev.pairKey = some ((s.dev.setReg (Reg.TWN_PAIRKEY 7) v).keyRegs (Reg.TWN_PAIRKEY 0)) ∧
      ∀ i < 8, t.dev.reg (Reg.TWN_PAIRKEY i) = 0) ∧
    (∀ m h i, s.dev.canKey = true → s.dev.twin = 1 → i ∈ [Instr.hello m h, .helloAck m h] →
      (s.dev.helloCheck m h = none →
        (s.dev.gPrev = 3 → ∃ t, exec i s = .next t ∧ t.dev.twin = 3) ∧
        (s.dev.gPrev = 2 → ∃ t, exec i s = .next t ∧ t.dev.twin = 2) ∧
        (s.dev.gPrev ≠ 3 → s.dev.gPrev ≠ 2 → ∃ t, exec i s = .next t ∧ t.dev.twin = 2 ∧ t.dev.serves = s.dev.servesOver h ∧
          (s.dev.servesOver h = true → t.dev.syncEnd = some (t.dev.gTx - 1) ∧ ∃ fs, t.dev.sends 0x50 fs) ∧ (s.dev.servesOver h = false → t.dev.cache = [])) ∧
        (s.dev.linkKey.isSome = true → s.dev.fld Reg.TWN_TX_INV 31 0 < 2 ^ 31 → ∃ t, exec (.hello m h) s = .next t ∧ s.dev.puts t.dev 0x02)) ∧
      (∀ n, s.dev.helloCheck m h = some n → (s.dev.page 0xC01).err = false → ∃ t, exec i s = .next t ∧ t.dev.twin = 6 ∧
        t.dev.reg Reg.TWN_MISMATCH = w32 n ∧ (t.dev.page 0xC01).errCode = 0x0102 ∧ (t.dev.page 0xC01).info1 = w32 n)) ∧
    (s.dev.twin = 2 ∨ s.dev.twin = 3 → 2 ^ 31 - 2 ^ 24 ≤ s.dev.fld Reg.TWN_TX_INV 31 0 →
      (s.dev.rekeyOut = false → ∃ t, exec .invLimit s = .next t ∧ t.dev.rekeyOut = true ∧
        ∃ k, t.dev.sesTxNew = some k ∧ t.dev.sends 0x03 (rekeyFs (rfcWrap s.dev.shelfKey 4 k) (s.dev.txEpoch + 1))) ∧
      (s.dev.rekeyOut = true → 2 ^ 31 ≤ s.dev.fld Reg.TWN_TX_INV 31 0 → (s.dev.page 0xC00).err = false →
        ∃ t, exec .invLimit s = .next t ∧ t.dev.twin = 1 ∧ (t.dev.page 0xC00).errCode = 0x0106))

/-- R385, R386, R387: every message of the twin.  One whose tag holds under the session key of its epoch renews the time of the last
authenticated message and its ACK frees what it covers; it is applied only if it is the next in order, and any other is discarded; one whose
tag fails is counted, recorded and returns the link to KEYING. -/
def Obligations.MessagesInOrder : Prop :=
  ∀ (s : State) (i : Instr) (kind : Nat) (m : GMsg) (last : Bool) (fs : Fields), s.running → s.dev.gulonIn i = some (kind, m, last, fs) →
    s.dev.listens = true → (∀ x ∈ s.dev.gPend, x.mnum < s.dev.gTx) →
    (s.dev.tagGood kind m last fs = true → ∃ t, exec i s = .next t ∧
      t.dev.gRx = (if m.mnum = s.dev.gRx then s.dev.gRx + 1 else s.dev.gRx) ∧
      t.dev.gLastRx = s.dev.tick ∧ t.dev.fld Reg.TWN_KEY_STS 31 16 = m.keyep ∧
      (m.ack ≠ 2 ^ 64 - 1 → ∀ x ∈ t.dev.gPend, x ∈ s.dev.gPend → m.ack < x.mnum) ∧
      (m.mnum ≠ s.dev.gRx → t.window = s.window ∧ (s.dev.leaving = false ∨ s.dev.twin = 3 → t.dev.twinVers = s.dev.twinVers) ∧ t.dev.decided = none)) ∧
    (s.dev.tagGood kind m last fs = false → (s.dev.page 0xC00).err = false → ∃ t, exec i s = .next t ∧ t.dev.twin = 1 ∧
      t.dev.gPrev = s.dev.twin ∧ t.dev.fld Reg.TWN_AUTH_FAIL 31 0 = min (s.dev.fld Reg.TWN_AUTH_FAIL 31 0 + 1) 0xFFFFFFFF ∧
      (t.dev.page 0xC00).errCode = 0x0101 ∧ (t.dev.page 0xC00).info0 = w32 kind ∧ t.dev.gRx = s.dev.gRx ∧ t.window = s.window)

/-- R84, R229, R388, R393 to R398, R405, R407, R409, R411, R441: what a message that is applied does, by its type.  Where the message's own ACK
could end SYNCING or change what the message reads first, in a state that is PAIRED or where it covers nothing. -/
def Obligations.MessagesApply : Prop :=
  ∀ (s : State) (m : GMsg), s.running →
    (∀ wkey k, s.dev.recvOk 0x03 m true (rekeyFs wkey (m.keyep + 1)) = true → rfcUnwrap s.dev.shelfKey 4 wkey = some k →
      ∃ t, exec (.rekey m wkey) s = .next t ∧ t.dev.sesRxNew = some k ∧ t.dev.sends 0x04 [(2, (m.keyep + 1) % 65536)]) ∧
    (∀ k, s.dev.recvOk 0x04 m true [(2, (s.dev.txEpoch + 1) % 65536)] = true → s.dev.sesTxNew = some k →
      ∃ t, exec (.rekeyAck m) s = .next t ∧ t.dev.rekeyOut = false ∧ t.dev.sesTx = k ∧
        t.dev.fld Reg.TWN_KEY_STS 15 0 = (s.dev.txEpoch + 1) % 65536) ∧
    (∀ vers b, s.dev.recvOk 0x10 m true (mirrorFs vers b) = true → s.dev.twin = 3 ∨ s.dev.acksNothing m →
      ∃ t, exec (.mirror m vers b) s = .next t ∧ t.dev.twinVers = s.dev.twinVers ++ vers.map foreignVer) ∧
    (∀ b, s.dev.recvOk 0x12 m true b.fs = true →
      (∀ x r, b.bitmaps = [x] → r < 64 → x.regions.testBit r = true →
        ∃ t, exec (.journal m b) s = .next t ∧ x.band * 64 + r ∈ t.dev.twinRegions) ∧
      (∀ n st, b.bands = [(n, st)] → b.sets = [] → b.deltas = [] → b.doms = [] →
        ∃ t, exec (.journal m b) s = .next t ∧ (t.dev.band n).st = bandStOf st) ∧
      (∀ x, b.deltas = [x] → b.bands = [] → b.sets = [] → s.dev.acksNothing m →
        ∃ t, exec (.journal m b) s = .next t ∧ t.dev.ent (x.slice % 1024) (x.granule % 2 ^ 37) =
          { gver := x.entry / 4 % 2 ^ 20, loc := s.dev.locOf x.entry })) ∧
    (∀ slots, s.dev.recvOk 0x13 m true (freeFs slots) = true → s.dev.twin = 3 ∨ s.dev.acksNothing m → ∃ t, exec (.free m slots) s = .next t ∧
      t.dev.twinVers = s.dev.twinVers.filter (fun v => !slots.contains (v.slice, v.granule, v.gver))) ∧
    (∀ stores, s.dev.recvOk 0x14 m true (storeFs stores) = true →
      ∃ t, exec (.wstore m stores) s = .next t ∧ t.window = storeWindow s.window stores ∧ t.array = s.array ∧
        ∀ x ∈ stores, ∀ g ∈ unitsOf x.1 x.2.length 32768, (t.dev.pwTwin.find g).isSome = true) ∧
    (∀ pages used, s.dev.recvOk 0x15 m true (usedFs pages used) = true → s.dev.twin = 3 →
      ∃ t, exec (.grant m pages used) s = .next t ∧ t.dev.twinUsed = used ∧
        t.dev.fld Reg.TWN_PAGES 17 0 = min ((32 - s.dev.segs) * 4096) (s.dev.fld Reg.TWN_PAGES 17 0 + pages)) ∧
    (∀ used st, s.dev.recvOk 0x40 m true (usedFs st used) = true →
      ∃ t, exec (.heartbeat m used st) s = .next t ∧ t.dev.twinState = st % 16 ∧ t.dev.twinPtm = st.testBit 4 ∧ t.dev.twinUsed = used) ∧
    (∀ p opc die block page slice sg qg cls, p < 512 → s.dev.twin = 3 →
      s.dev.recvOk 0x20 m true (remoteOpFs p opc die block page slice sg qg (clsNum cls)) = true →
      (s.dev.fld (Reg.FCH_P_STS p) 4 3 = 1 → 1 ≤ opc → opc ≤ 3 →
        ∃ t, exec (.remoteOp m p opc die block page slice sg qg cls) s = .next t ∧
          ∃ o ∈ (t.dev.port p).ops, o.forTwin = some m.mnum ∧ o.opc = opc ∧ o.die = die % 64 ∧ o.block = block % 4096 ∧
            o.page = page % 4096) ∧
      (s.dev.fld (Reg.FCH_P_STS p) 4 3 ≠ 1 → ∃ t, exec (.remoteOp m p opc die block page slice sg qg cls) s = .next t ∧
        t.dev.sends 0x21 (remoteDoneFs m.mnum 1 []))) ∧
    (∀ id p o status data, s.dev.recvOk 0x21 m true (remoteDoneFs id status data) = true →
      s.dev.ports.findSome? (fun kv => (kv.2.ops.find? (fun o => o.sent == some id)).map (fun o => (kv.1, o))) = some (p, o) →
      o ∈ (s.dev.port p).ops → s.dev.acksNothing m →
      (∀ w, o.owner = some w → s.dev.ownerLives w = true → o.opc = 0x01 → w < 2 ^ 66 → ∃ t, exec (.remoteDone m id status data) s = .next t ∧
        ∃ x ∈ (t.dev.port p).ops, x.tag = o.tag ∧ x.data = true) ∧
      (∀ w, o.owner = some w → s.dev.ownerLives w = false → ∃ t, exec (.remoteDone m id status data) s = .next t ∧
        ∀ x ∈ (t.dev.port p).ops, x.tag ≠ o.tag) ∧
      (o.owner = none → o.opc = 0x02 → status = 0 → ∀ pg, s.dev.stripeBuf.find (flashKey p o.die o.block o.page) = some pg →
        ∃ t, exec (.remoteDone m id status data) s = .next t ∧ t.dev.fpage (flashKey p o.die o.block o.page) = pg) ∧
      (o.owner = none → o.opc = 0x03 → status = 0 → ∃ t, exec (.remoteDone m id status data) s = .next t ∧
        ∀ pg < 4096, t.dev.fpage (flashKey p o.die o.block pg) = FPage.reset)) ∧
    (∀ band stripe column sums, s.dev.recvOk 0x22 m true (partialFs true band stripe column sums) = true → s.dev.acksNothing m →
      ∃ t, exec (.partial_ m true band stripe column sums) s = .next t ∧
        t.dev.sends 0x22 (partialFs false band stripe column
          (((List.range 19).filter (fun j => s.dev.cwErased band stripe j column)).map (s.dev.partialSum band stripe column)))) ∧
    (∀ (t1 t2 : Nat), s.dev.recvOk 0x30 m true [f64 t1] = true → s.dev.twin = 3 ∨ s.dev.acksNothing m → s.dev.flag Reg.DLR_TIME_STS 4 = true →
      ∃ t, exec (.timeReq m t1 t2) s = .next t ∧ t.dev.sends 0x31 [f64 t1, f64 t2, f64 (1000 * s.dev.tick)]) ∧
    (∀ t1 t2 t3 t4, s.dev.recvOk 0x31 m true [f64 t1, f64 t2, f64 t3] = true → s.dev.twin = 3 ∨ s.dev.acksNothing m →
      s.dev.flag Reg.DLR_TIME_STS 4 = false → s.dev.flag Reg.DLR_TIME_CTL 1 = true →
      ∃ t, exec (.timeRsp m t1 t2 t3 t4) s = .next t ∧ t.dev.exLast = s.dev.tick ∧
        t.dev.reg Reg.DLR_TWIN_OFS = wInt (((t2 - t1) - (t4 - t3)) / 2)) ∧
    (s.dev.recvOk 0x41 m true [] = true → s.dev.twin = 3 →
      ∃ t, exec (.leave m) s = .next t ∧ t.dev.twin = 7 ∧ t.dev.fence = (s.dev.fence + 1) % 65536 ∧
        t.dev.flag Reg.TWN_STS 4 = true ∧ t.dev.gPend = [] ∧
        ∀ p < 512, s.dev.fld (Reg.FCH_P_STS p) 4 3 ≠ 1 → ∃ tag, s.dev.tells t.dev (.bridge p 0x08 [0, tag, 0, 0, 0, 0, 0, (s.dev.fence + 1) % 65536])) ∧
    (∀ vers b fence bytes, s.dev.recvOk 0x50 m true (syncFs vers b fence bytes) = true → s.dev.twin = 2 → s.dev.serves = false →
      s.dev.syncEnd = none →
      ∃ t, exec (.sync m vers b fence bytes true) s = .next t ∧ t.dev.twin = 3 ∧ t.dev.fence = (fence + 1) % 65536 ∧
        t.window = storeWindow s.window bytes ∧ t.dev.twinVers = s.dev.twinVers ++ vers.map foreignVer) ∧
    (∀ x qs cs, s.dev.recvOk 0x51 m true (moveFs x qs cs) = true →
      ∃ t, exec (.move m x qs cs) s = .next t ∧ (t.dev.slice (x.slice % 1024)).opBusy = (x.st == SliceSt.clearing.code) ∧
        (t.dev.slice (x.slice % 1024)).st = (if x.st = SliceSt.clearing.code then .clearing else .frozen) ∧
        (t.dev.slice (x.slice % 1024)).blks = x.blks ∧ (t.dev.slice (x.slice % 1024)).sgen = x.sgen % 16) ∧
    (s.dev.recvOk 0x42 m true [] = true → ∃ t, exec (.dumped m) s = .next t ∧ t.dev.decided = some s.dev.tick ∧
      (s.dev.side = 0 → t.dev.taking = true) ∧ (s.dev.side ≠ 0 → t.dev.taking = s.dev.taking))

/-- R386, R397 to R402, R405, R407, R411: sending in time, the loss of the twin and leaving it.  What waits for FREE goes in one message, up
to 3,000 slots; a HEARTBEAT goes after 8 tricks, or where an ACK is due; the loss is decided after MISS tricks, SIDE 0 takes the twin's bridges with FENCE + 1 at once and SIDE 1 after
TAKE_DELAY, or is fenced; takeover makes the unit LOST and its twin's slices its own, FROZEN or still CLEARING; LEAVE releases the bridges as they drain; LEAVE and TWN_SL_MOVE act as the tables say
or are refused with 0x0103. -/
def Obligations.LossAndLeaving : Prop :=
  ∀ (s : State), s.running →
    (s.dev.freeQ ≠ [] → s.dev.twnStop = false → s.dev.paired = true →
      ∃ t, exec .freeSend s = .next t ∧ t.dev.freeQ = s.dev.freeQ.drop 3000 ∧
        t.dev.sends 0x13 (freeFs ((s.dev.freeQ.take 3000).map (fun k => (k / 2 ^ 20 / 2 ^ 37, k / 2 ^ 20 % 2 ^ 37, k % 2 ^ 20))))) ∧
    (s.dev.twnStop = false → s.dev.twin = 2 ∨ s.dev.twin = 3 → s.dev.gLastTx + 16384 ≤ s.dev.tick ∨ s.dev.gRx ≠ s.dev.gSaid →
      ∃ t, exec .heartbeatSend s = .next t ∧ ∃ x, t.dev.sends 0x40 (usedFs x s.dev.ownUsed)) ∧
    (s.dev.paired = true → s.dev.leaving = false → s.dev.decided = none → s.dev.twnStop = false → s.dev.dumping = false →
      s.dev.gLastRx + bits s.dev.hbCtl 15 0 * 2048 ≤ s.dev.tick →
      (s.dev.side = 0 → ∃ t, exec .twinLossDecision s = .next t ∧ t.dev.decided = some s.dev.tick ∧ t.dev.taking = true ∧
        ∀ p < 512, s.dev.fld (Reg.FCH_P_STS p) 4 3 = 2 → s.dev.lstate p = 5 →
          ∃ tag, s.dev.tells t.dev (.bridge p 0x08 [0, tag, 0, 0, 0, 0, 0, (s.dev.fence + 1) % 65536 + 2 ^ 16])) ∧
      (s.dev.side ≠ 0 → exec .twinLossDecision s = .next { s with dev := { s.dev with decided := some s.dev.tick, decidedEp := s.dev.epoch } })) ∧
    (∀ t0, s.dev.decided = some t0 → s.dev.side = 1 → s.dev.taking = false →
      t0 + bits s.dev.hbCtl 31 16 * 10000 ≤ s.dev.tick → s.dev.twin ≠ 5 →
      (∃ t, exec (.takeDelayExpire false) s = .next t ∧ t.dev.taking = true) ∧
      (s.dev.twin ≠ 4 → ∃ t, exec (.takeDelayExpire true) s = .next t ∧ t.dev.twin = 5 ∧ t.dev.cache = [] ∧ t.dev.decided = none ∧
        t.dev.flag Reg.TST_BRG_STS 5 = false)) ∧
    (∀ t0, s.dev.decided = some t0 → s.dev.taking = true → s.dev.takes = [] → s.dev.twin ≠ 5 →
      ∃ t, exec .twinTakeover s = .next t ∧ t.dev.twin = 4 ∧ t.dev.fence = (s.dev.fence + 1) % 65536 ∧ t.dev.decided = none ∧
        t.dev.taking = false ∧ t.dev.gPend = [] ∧ bitAt (t.dev.page 0xC01).intPend 1 = true ∧
        t.dev.fld Reg.TWN_FAILOVERS 31 0 = min (s.dev.fld Reg.TWN_FAILOVERS 31 0 + 1) 0xFFFFFFFF ∧
        t.dev.get64 Reg.TWN_LOST_TICK_LO Reg.TWN_LOST_TICK_HI = t0 % 2 ^ 64 ∧
        ∀ kx ∈ s.dev.twinSlices, t.dev.flag (Reg.TWN_MOVED (kx.2.slice % 1024 / 32)) (kx.2.slice % 32) = true ∧
          ((∀ ky ∈ s.dev.twinSlices, ky.2.slice % 1024 = kx.2.slice % 1024 → ky.2.st = kx.2.st) →
            (t.dev.slice (kx.2.slice % 1024)).st = (if kx.2.st = SliceSt.clearing.code then .clearing else .frozen))) ∧
    (s.dev.fld Reg.GLB_DEV_STS 7 4 = 9 → s.dev.paired = false →
      s.dev.flag Reg.TWN_CTL 0 = false ∨ s.dev.pairStart + s.dev.fld Reg.TWN_CTL 31 16 * 1000000000 ≤ s.dev.tick →
      ((∀ p < 512, s.dev.fld (Reg.FCH_P_STS p) 4 3 ≠ 2) → ∃ t, exec .pairWaitExpire s = .next t ∧ t.dev.flag Reg.TWN_STS 4 = true ∧
        ∀ p < 512, s.dev.fld (Reg.FCH_P_STS p) 4 3 = 0 → s.dev.lstate p = 5 →
          ∃ tag, s.dev.tells t.dev (.bridge p 0x08 [0, tag, 0, 0, 0, 0, 0, s.dev.fence])) ∧
      ((∃ p < 512, s.dev.fld (Reg.FCH_P_STS p) 4 3 = 2) → (s.dev.page 0xC01).err = false →
        ∃ t, exec .pairWaitExpire s = .next t ∧ (t.dev.page 0xC01).errCode = 0x0104 ∧ t.dev.regs = s.dev.regs)) ∧
    (∀ (v : Word), s.dev.isOpen 0xC01 → bitAt v 1 = true → 1 ≤ bits v 31 16 → bits v 31 16 ≤ 600 → bits v 15 2 = 0 →
      (s.dev.slices.any (fun kv => kv.2.bound) = false → s.dev.twin = 3 → s.dev.leaving = false → s.dev.giving = [] →
        ∃ t, exec (.twinLeave v) s = .next t ∧ (s.dev.fld Reg.TWN_TX_INV 31 0 < 2 ^ 31 → s.dev.puts t.dev 0x41) ∧
          ((∀ p < 512, s.dev.fld (Reg.FCH_P_STS p) 4 3 = 1 → s.dev.drained p = true) → t.dev.twin = 0 ∧ t.dev.leaving = false ∧
            t.dev.flag Reg.TWN_STS 4 = true ∧ t.dev.flag Reg.TWN_CTL 0 = false ∧ t.dev.flag Reg.TWN_LINK_STS 0 = false) ∧
          (∀ p < 512, s.dev.fld (Reg.FCH_P_STS p) 4 3 = 1 → s.dev.drained p = false → t.dev.twin = 3 ∧ t.dev.leaving = true ∧ p ∈ t.dev.giving)) ∧
      (s.dev.slices.any (fun kv => kv.2.bound) = true ∨ s.dev.leaving = true → (s.dev.page 0xC01).err = false → ∃ t, exec (.twinLeave v) s = .next t ∧
        (t.dev.page 0xC01).errCode = 0x0103 ∧ (t.dev.page 0xC01).info0 = 0x100 ∧ t.dev.twin = s.dev.twin)) ∧
    (∀ (v : Word), s.dev.isOpen 0xC01 → bits v 15 10 = 0 →
      let x := s.dev.slice (bits v 9 0)
      (bits v 31 16 = 0x544E → s.dev.twin = 3 → x.st = .frozen → ∃ t, exec (.twnSlMove v) s = .next t ∧
        (t.dev.slice (bits v 9 0)).st = .unbound ∧ bitAt (t.dev.page 0xC01).intPend 4 = true ∧
        (t.dev.twinSlices.find (bits v 9 0)).map MSlice.sgen = some x.sgen ∧ ∃ qs cs, t.dev.sends 0x51 (moveFs (s.dev.mslice (bits v 9 0)) qs cs)) ∧
      (bits v 31 16 ≠ 0x544E ∨ s.dev.twin ≠ 3 ∨ x.st ≠ .frozen → (s.dev.page 0xC01).err = false →
        ∃ t, exec (.twnSlMove v) s = .next t ∧ (t.dev.page 0xC01).errCode = 0x0103 ∧ (t.dev.page 0xC01).info1 = v ∧
          t.dev.slices = s.dev.slices))

/-! ### Power (chapter 14) -/

/-- R414 to R418, R566: mode requests and entries.  A request with its key starts QUIESCE, or is refused with the lowest reason of Table
PWR-2; TARGET = 0 returns to RUN; QUIESCE leads to SAVE for SLEEP and to FLUSH for the others, FLUSH to SAVE or to the restart of a WARM
reset, SAVE to the mode. -/
def Obligations.ModeEntries : Prop :=
  ∀ (s : State), s.running →
    (∀ (v : Word) tgt i, (tgt, i) ∈ [(2, Instr.sleepRequest v), (3, .deepRequest v), (4, .offRequest v)] → s.dev.isOpen 0xD00 →
      bits v 31 16 = 0x5057 → bits v 2 0 = tgt → bits v 15 8 ≠ 0 → bits v 7 4 = 0 → s.dev.phase = 0 → s.dev.entryTgt ≠ 5 → s.dev.mode ≤ 1 →
      (s.dev.modeReason tgt = 0 → ∃ t, exec i s = .next t ∧ t.dev.phase = 1 ∧ t.dev.entryTgt = tgt ∧ t.dev.mode = 0 ∧
        t.dev.flag Reg.PWR_MODE_STS 8 = false ∧ t.dev.fld Reg.PWR_MODE_CTL 15 8 = bits v 15 8) ∧
      (s.dev.modeReason tgt ≠ 0 → (s.dev.page 0xD00).err = false → ∃ t, exec i s = .next t ∧ t.dev.phase = 0 ∧
        t.dev.flag Reg.PWR_MODE_STS 7 = true ∧ t.dev.fld Reg.PWR_MODE_STS 15 12 = s.dev.modeReason tgt ∧
        (t.dev.page 0xD00).errCode = 0x0100 ∧ (t.dev.page 0xD00).info0 = w32 tgt ∧
        (t.dev.page 0xD00).info1 = w32 (s.dev.modeReason tgt))) ∧
    (∀ (v : Word), s.dev.isOpen 0xD00 → bits v 31 16 = 0x5057 → bits v 2 0 = 0 → bits v 15 8 ≠ 0 → s.dev.mode ≤ 1 →
      1 ≤ s.dev.phase → s.dev.phase ≤ 2 → s.dev.entryTgt ≠ 5 →
      ∃ t, exec (.entryCancel v) s = .next t ∧ t.dev.phase = 0 ∧ t.dev.entryTgt = 0 ∧ t.dev.mode = 0) ∧
    (s.dev.phase = 1 → s.dev.pwrStop = false → s.dev.noTags = true → s.dev.slices.any (fun kv => decide (0 < kv.2.inflight)) = false →
      ∃ t, exec .quiesceDone s = .next t ∧ t.dev.phase = (if s.dev.entryTgt = 2 then 3 else 2)) ∧
    (s.dev.phase = 2 → s.dev.pwrStop = false → s.dev.flushed = true →
      (s.dev.entryTgt ≠ 5 → ∃ t, exec .flushDone s = .next t ∧ t.dev.phase = 3) ∧
      (∀ r, s.dev.entryTgt = 5 → s.dev.bring = some r → ∃ t, exec .flushDone s = .next t ∧ t.dev.phase = 0 ∧ t.dev.entryTgt = 0 ∧
        t.dev.released = false ∧ t.dev.fld Reg.TST_BRG_CAUSE 2 0 = 3)) ∧
    (s.dev.phase = 3 → s.dev.pwrStop = false →
      (s.dev.entryTgt = 2 → ∃ t, exec .entryCommit s = .next t ∧ t.dev.mode = 2 ∧ t.dev.phase = 0 ∧
        s.dev.tells t.dev (.vid (vidWord 140))) ∧
      (s.dev.entryTgt = 3 ∨ s.dev.entryTgt = 4 → s.dev.portsIdle = true → ∃ t, exec .entryCommit s = .next t ∧
        t.dev.mode = s.dev.entryTgt ∧ t.dev.enMain = false ∧ t.dev.pgMain = false ∧ t.dev.released = false ∧
        (∀ g < 64, t.dev.domSt g = 2) ∧ t.dev.aoUp = decide (s.dev.entryTgt = 3))) ∧
    (s.dev.mode = 0 → s.dev.phase = 0 → s.dev.flag Reg.PWR_MODE_CTL 3 = true → s.dev.dumping = false → s.dev.bring = none → s.dev.pwrHeld = false →
      s.dev.slices.any (fun kv => kv.2.bound && kv.2.trumpEn) = false →
      ∃ t, exec .idleEntry s = .next t ∧ t.dev.mode = 1 ∧ bitAt (t.dev.page 0xD00).intPend 0 = true)

/-- R231, R420 to R427, R440, R442, R490, R492, R531: wakes and supplies.  A wake leaves SLEEP for RUN, starts the rails from DEEP, raises
EN_AO from OFF, or abandons an entry; good rails run bring-up on, rails that stay away are dropped and tried once more; a dump that is
done is left when the supply is back; the always-on counter and VID frames. -/
def Obligations.WakesAndSupplies : Prop :=
  ∀ (s : State), s.supplied →
    (∀ src lvl res, s.dev.dumping = false → s.dev.down = false →
      let en := src &&& (s.dev.fld Reg.PWR_WAKE_EN 7 0 ||| 1)
      let hit := fun m => en &&& wakeMask m
      (s.dev.phase = 0 → s.dev.mode = 2 → hit 2 ≠ 0 → ∃ t, exec (.wake src lvl res) s = .next t ∧ t.dev.mode = 0 ∧
        t.dev.reg Reg.PWR_WAKE_STAT = w32 (hit 2) ∧ t.dev.fld Reg.PWR_LAST_WAKE 2 0 = lowestBit (hit 2) ∧
        t.dev.fld Reg.PWR_WAKES 31 0 = min (s.dev.fld Reg.PWR_WAKES 31 0 + 1) 0xFFFFFFFF ∧
        ∃ code, 140 ≤ code ∧ code ≤ 160 ∧ s.dev.tells t.dev (.vid (vidWord code))) ∧
      (s.dev.phase = 0 → s.dev.mode = 3 → s.dev.bring = none → hit 3 ≠ 0 → ∃ t, exec (.wake src lvl res) s = .next t ∧
        t.dev.enMain = true ∧ t.dev.bring = some res ∧ t.dev.reg Reg.PWR_WAKE_STAT = w32 (hit 3) ∧
        (s.dev.enMain = false → s.dev.tells t.dev (.ballLevel "EN_MAIN" true))) ∧
      (s.dev.phase = 0 → s.dev.mode = 4 → s.dev.aoUp = false → hit 4 ≠ 0 →
        exec (.wake src lvl res) s = .next { s with dev := s.dev.emit (.ballLevel "EN_AO" true) }) ∧
      (s.dev.phase ≠ 0 → s.dev.entryTgt ≠ 5 → hit s.dev.entryTgt ≠ 0 → s.dev.mode ≤ 1 → ∃ t, exec (.wake src lvl res) s = .next t ∧
        t.dev.phase = 0 ∧ t.dev.entryTgt = 0 ∧ t.dev.mode = 0 ∧ t.dev.flag Reg.PWR_MODE_STS 8 = true ∧
        bitAt (t.dev.page 0xD00).intPend 1 = true)) ∧
    (s.dev.aoUp = true →
      (∀ r, s.dev.enMain = true → s.dev.pgMain = false → s.dev.bring = some r →
        (s.dev.mode = 3 → ∃ t, exec .pgMainRise s = .next t ∧ t.dev.pgMain = true ∧ t.dev.mode = 0 ∧ t.dev.released = false ∧
          t.dev.fld Reg.TST_BRG_CAUSE 2 0 = 4) ∧
        (s.dev.mode ≠ 3 → r.clearFail = 0 → ∃ t, exec .pgMainRise s = .next t ∧ t.dev.pgMain = true ∧ t.dev.kek = none ∧
          t.dev.pairKey = none ∧ t.dev.cap.key = none ∧ t.dev.reg Reg.TST_SEC_STS = 0x1F) ∧
        (s.dev.mode ≠ 3 → 1 ≤ r.clearFail → r.clearFail ≤ 4 → (s.dev.page 0x1000).err = false → ∃ t, exec .pgMainRise s = .next t ∧
          t.dev.stopped = true ∧ (t.dev.page 0x1000).errCode = 0x0100 ∧ (t.dev.page 0x1000).info0 = w32 r.clearFail)) ∧
      (s.dev.enMain = true → s.dev.pgMain = false → (s.dev.page 0xD00).err = false → ∃ t, exec .powerGoodTimeout s = .next t ∧
        t.dev.enMain = false ∧ (t.dev.page 0xD00).errCode = 0x0103 ∧ (t.dev.page 0xD00).info1 = w32 s.dev.pgTry ∧
        s.dev.tells t.dev (.ballLevel "EN_MAIN" false)) ∧
      (s.dev.enMain = false → s.dev.bring.isSome = true → s.dev.pgTry = 1 → exec .pgMainRetry s =
        .next { s with dev := { s.dev.emit (.ballLevel "EN_MAIN" true) with pgTry := 2, enMain := true } }) ∧
      (∀ res, (s.dev.mayExit = false → exec (.dumpExit res) s = .next s) ∧
        (s.dev.mayExit = true → s.dev.pgMain = false → ∃ t, exec (.dumpExit res) s = .next t ∧ t.dev.down = false ∧
          t.dev.enMain = true ∧ t.dev.bring = some res ∧ t.dev.fld Reg.TST_BRG_CAUSE 2 0 = 5 ∧
          t.dev.flag Reg.PWR_FAIL_STS 0 = false ∧ t.array = s.array)) ∧
      (∃ t, exec .aoCounterEdge s = .next t ∧ t.dev.ao = (s.dev.ao + 1) % 2 ^ 48 ∧
        (s.dev.saveDue = true → t.dev.saveDue = false ∧
          t.dev.timeSave = some (s.dev.tick, (s.dev.ao + 1) % 2 ^ 48, s.dev.epoch, s.dev.uncNow)))) ∧
    (s.dev.pgMain = true → ∀ code, (if s.dev.mode = 2 then code = 140 else 140 ≤ code ∧ code ≤ 160) →
      exec (.vidFrame code) s = .next { s with dev := (s.dev.setBias code).emit (.vid (vidWord code)) })

/-- R428 to R434, R442: domains.  A demand wakes a domain and notes who waits; a domain whose lanes are up is ON, its bridges ordered ON
(and taken by force where a lost twin left them parked); a domain at rest steps down once nothing is left to do, and ends the step in the
next state; PWR_DOM_OP and PWR_DOM_POL act on the selected domain, or are refused. -/
def Obligations.Domains : Prop :=
  ∀ (s : State) (g : Nat), s.running → g < 64 →
    let x := s.dev.dom g
    (∀ ws, s.dev.followed g = false → s.dev.pwrHeld = false → x.leaving = false → s.dev.domSt g ≠ 0 →
      ∃ t, exec (.domainDemandWake g ws) s = .next t ∧ (t.dev.dom g).waking = true ∧
        (t.dev.dom g).waiters = x.waiters ++ ws.map (fun w => (w.1 % 16384, w.2 % 32, s.dev.tick))) ∧
    (x.waking = true → s.dev.followed g = false → s.dev.pwrStop = false → (∀ p ∈ portsOf g, s.dev.lstate p = 7 ∨ s.dev.lstate p = 5) →
      ∃ t, exec (.domainOn g) s = .next t ∧ t.dev.domSt g = 0 ∧ (t.dev.dom g).waking = false ∧ (t.dev.dom g).waiters = [] ∧
        bitAt (t.dev.page 0xD01).intPend 3 = true ∧
        ∀ p ∈ portsOf g, s.dev.lstate p ≠ 7 → x.parked = true ∨ s.dev.fld (Reg.FCH_P_STS p) 4 3 = 1 →
          (∃ tag, s.dev.tells t.dev (.bridge p 0x0A [0, tag, 0, 0, 0, 0, 0, 0])) ∧
          (x.parked = true → ∃ tag, s.dev.tells t.dev (.bridge p 0x08 [0, tag, 0, 0, 0, 0, 0, s.dev.fence + 2 ^ 16]))) ∧
    (s.dev.followed g = false → s.dev.pwrHeld = false → x.leaving = false → x.waking = false → s.dev.dumping = false →
      s.dev.canLeave g = true →
      (s.dev.domSt g = 0 → 1 ≤ x.floor → 1 ≤ x.park ∨ x.last + x.tRet * 1000000 ≤ s.dev.tick →
        ∃ t, exec (.domainTRetExpire g) s = .next t ∧ (t.dev.dom g).leaving = true ∧
          ∀ p ∈ portsOf g, s.dev.lstate p ≠ 7 → s.dev.fld (Reg.FCH_P_STS p) 4 3 = 1 →
            ∃ tag, s.dev.tells t.dev (.bridge p 0x0A [0, tag, 0, 0, 0, 0, 0, 1])) ∧
      (s.dev.domSt g = 1 → 2 ≤ x.floor → x.park = 2 ∨ x.last + x.tOff * 1000000000 ≤ s.dev.tick → s.dev.openIn g = false →
        s.dev.noDpar g = true → s.dev.isDirty = false ∨ s.dev.dumpGroup g = false →
        ∃ t, exec (.domainTOffExpire g) s = .next t ∧ (t.dev.dom g).leaving = true ∧
          ∀ p ∈ portsOf g, s.dev.lstate p ≠ 7 → s.dev.fld (Reg.FCH_P_STS p) 4 3 = 1 →
            ∃ tag, s.dev.tells t.dev (.bridge p 0x0A [0, tag, 0, 0, 0, 0, 0, 2]))) ∧
    (x.leaving = true → s.dev.pwrStop = false → s.dev.domSt g ≤ 1 → ∃ t, exec (.domainStepDone g) s = .next t ∧ t.dev.domSt g = s.dev.domSt g + 1 ∧
      (t.dev.dom g).waking = x.again ∧ (x.park ≠ 2 → (t.dev.dom g).leaving = false) ∧ bitAt (t.dev.page 0xD01).intPend 3 = true) ∧
    (s.dev.dsel = g → s.dev.isOpen 0xD01 → ∀ (v : Word) op i,
      (op, i) ∈ [(1, Instr.domainWakeOp v), (2, .parkRet v), (3, .parkOff v)] → bits v 31 16 = 0x5057 → bits v 1 0 = op →
      bits v 15 2 = 0 →
      (s.dev.followed g = false → op = 1 → x.leaving = false → s.dev.domSt g ≠ 0 →
        ∃ t, exec i s = .next t ∧ (t.dev.dom g).waking = true) ∧
      (s.dev.followed g = false → 2 ≤ op → op - 1 ≤ x.floor → s.dev.domSt g < op - 1 →
        ∃ t, exec i s = .next t ∧ (t.dev.dom g).park = op - 1) ∧
      (s.dev.followed g = false → 2 ≤ op → op - 1 ≤ x.floor → op - 1 ≤ s.dev.domSt g →
        ∃ t, exec i s = .next t ∧ t.dev.doms = s.dev.doms) ∧
      (s.dev.followed g = true ∨ (2 ≤ op ∧ x.floor < op - 1) → (s.dev.page 0xD01).err = false → ∃ t, exec i s = .next t ∧
        (t.dev.page 0xD01).errCode = 0x0101 ∧ (t.dev.page 0xD01).info0 = w32 g ∧ (t.dev.page 0xD01).info1 = w32 op ∧
        t.dev.doms = s.dev.doms)) ∧
    (s.dev.dsel = g → s.dev.isOpen 0xD01 → ∀ (v : Word), bits v 3 2 = 0 →
      (bits v 1 0 ≠ 3 → bits v 15 4 ≠ 0 → bits v 31 16 ≠ 0 → ∃ t, exec (.pwrDomPolWrite v) s = .next t ∧
        (t.dev.dom g).floor = bits v 1 0 ∧ (t.dev.dom g).tRet = bits v 15 4 ∧ (t.dev.dom g).tOff = bits v 31 16) ∧
      (bits v 1 0 = 3 ∨ bits v 15 4 = 0 ∨ bits v 31 16 = 0 → (s.dev.page 0xD01).err = false →
        ∃ t, exec (.pwrDomPolWrite v) s = .next t ∧ (t.dev.page 0xD01).errCode = 0x0106 ∧ (t.dev.page 0xD01).info0 = 0x104 ∧
          t.dev.doms = s.dev.doms))

/-- R435 to R441, R532, R533, R560: the power-loss dump.  Each cause starts it once: the next DUMP_SEQ and the other half go to the NVM
record, an entry is abandoned, the domains of the dump set are ON, THERMTRIP_N is driven low; its end is recorded, and then the main rails
go off, or the COLD reset that ran it goes on. -/
def Obligations.PowerLossDump : Prop :=
  ∀ (s : State), s.running →
    (∀ i src, (i, src) ∈ [(Instr.pwrFailRecognised, 0), (.vidAlert, 1), (.pgMainFall, 1), (.thermtrip, 2)] →
      (s.dev.dumping = false → s.dev.down = false → s.dev.mode ≤ 2 → 2 ≤ s.dev.stage → s.dev.stopped = false →
        s.dev.bring = none ∨ 8 ≤ s.dev.stage ∨ s.dev.phase ≠ 0 →
        let half := if s.dev.flag Reg.PWR_FAIL_STS 2 then 0 else 1
        ∃ t, exec i s = .next t ∧ t.dev.dumping = true ∧ t.dev.dumpAt = s.dev.tick ∧ t.dev.dumpSrc = src ∧ t.dev.entryTgt = 0 ∧
          t.dev.phase = 0 ∧ t.dev.fld Reg.PWR_DUMP_SEQ 31 0 = min (s.dev.fld Reg.PWR_DUMP_SEQ 31 0 + 1) 0xFFFFFFFF ∧
          t.dev.flag Reg.PWR_FAIL_STS 2 = (half == 1) ∧ t.dev.nvm.dumpStart = some (t.dev.fld Reg.PWR_DUMP_SEQ 31 0, half) ∧
          t.dev.nvm.dumpDone = none ∧ (∀ g < 64, s.dev.dumpGroup g = true → t.dev.domSt g = 0) ∧
          (src = 2 → t.dev.stayDown = true ∧ s.dev.tells t.dev (.ballLevel "THERMTRIP_N" false)) ∧
          t.array = s.array ∧ t.window = s.window)) ∧
    (s.dev.dumping = true → ∀ us,
      (s.dev.bring = none → ∃ t, exec (.dumpDone us) s = .next t ∧ t.dev.dumping = false ∧ t.dev.flag Reg.PWR_FAIL_STS 3 = true ∧
        t.dev.reg Reg.PWR_DUMP_US = w32 (min us 65535) ∧ t.dev.reg Reg.PWR_DUMP_MIB = w32 (min s.dev.dumpMib 65535) ∧
        t.dev.nvm.dumpDone = s.dev.nvm.dumpStart ∧ t.dev.enMain = false ∧ t.dev.pgMain = false ∧ t.dev.down = true) ∧
      (∀ r, s.dev.bring = some r → s.dev.dumpSrc = 4 → ∃ t, exec (.dumpDone us) s = .next t ∧ t.dev.dumping = false ∧
        t.dev.released = false ∧ t.dev.fld Reg.TST_BRG_CAUSE 2 0 = 2) ∧
      (∀ r, s.dev.bring = some r → s.dev.dumpSrc = 5 → ∃ t, exec (.dumpDone us) s = .next t ∧ t.dev.dumping = false ∧
        t.dev.enMain = true ∧ t.dev.bring = some r ∧ t.dev.fld Reg.TST_BRG_CAUSE 2 0 = 1))

/-! ### The embedded firmware flash (chapter 15) -/

/-- R444, R445, R447 to R452, R455: command sequences of a port.  Two unlock cycles in time prepare it; the command then acts: a program
stores its 256 bytes and nothing else, an erase starts, each is suspended and resumed by its own port, and the modes change; on a port that
is not prepared every command is abandoned with 0x0100, and a sector the port may not write is refused with 0x0102.  RESET abandons the port's own erase and clears its status; a program of its own that runs goes on first. -/
def Obligations.FlashSequences : Prop :=
  ∀ (s : State) (p : Nat), s.supplied → s.dev.aoUp = true → s.dev.nvmHeld = false → p < 2 → (p = 0 → s.dev.isOpen 0xEFF) →
    (p = 1 → s.dev.released = true ∨ s.dev.stage ≠ 0) →
    let x := s.dev.nPort p
    (x.phase = 0 → (∃ t, exec (.unlockCycle p 0x0A5A4 0x5A) s = .next t ∧ (t.dev.nPort p).phase = 1 ∧ t.array = s.array) ∧
      (∀ off value, off % 4 = 0 → ¬ (off = 0x0A5A4 ∧ (value = 0x5A ∨ value = 0xF0)) → value < 2 ^ 32 → (s.dev.page 0xEFF).err = false →
        ∃ t, exec (.unlockCycle p off value) s = .next t ∧ (t.dev.nPort p).phase = 0 ∧ (t.dev.page 0xEFF).errCode = 0x0100 ∧
          (t.dev.page 0xEFF).info0 = w32 off ∧ (t.dev.page 0xEFF).info1 = w32 value ∧ t.array = s.array)) ∧
    (x.phase = 1 → s.dev.tick ≤ x.tick + 100000 →
      ∃ t, exec (.unlockCycle p 0x05A58 0xA5) s = .next t ∧ (t.dev.nPort p).phase = 2 ∧ t.array = s.array) ∧
    (x.phase = 2 →
      (∀ addr data, data.length = 64 → addr < 2 ^ 25 →
        let page := addr / 256
        (s.dev.progOk p page = true → ∃ t, exec (.programPage p addr data) s = .next t ∧
          t.array = Memory.writeList arrayDflt s.array (page * 256) (wordBytes (data.map (fun w => w % 2 ^ 32))) ∧
          (∀ a, a < page * 256 ∨ page * 256 + 256 ≤ a → Memory.read arrayDflt t.array a = Memory.read arrayDflt s.array a) ∧
          t.window = s.window ∧ t.dev.nRun = some { port := p, erase := false, at_ := page, auto := false, tick := s.dev.tick } ∧
          (t.dev.sector (page / 256)).next = page % 256 + 1) ∧
        (s.dev.nMayWrite p (page / 256) = false → (s.dev.page 0xEFF).err = false → ∃ t, exec (.programPage p addr data) s = .next t ∧
          t.array = s.array ∧ t.dev.nRun = s.dev.nRun ∧ (t.dev.page 0xEFF).errCode = 0x0102 ∧
          (t.dev.page 0xEFF).info0 = w32 (page / 256))) ∧
      (∀ k, k < 512 →
        (s.dev.nMayWrite p k = true → s.dev.nRun = none → s.dev.nSus = none → ∃ t, exec (.sectorErase p k) s = .next t ∧
          t.dev.nRun = some { port := p, erase := true, at_ := k, auto := false, tick := s.dev.tick } ∧ t.array = s.array) ∧
        (s.dev.nMayWrite p k = false → (s.dev.page 0xEFF).err = false → ∃ t, exec (.sectorErase p k) s = .next t ∧
          t.dev.nRun = s.dev.nRun ∧ (t.dev.page 0xEFF).errCode = 0x0102 ∧ t.array = s.array)) ∧
      (∀ o, s.dev.nRun = some o → s.dev.nSus = none → o.port = p → ∃ t, exec (.suspend p) s = .next t ∧ t.dev.nRun = none ∧
        t.dev.nSus = some { o with auto := false, tick := s.dev.tick }) ∧
      (∀ o, s.dev.nRun = none → s.dev.nSus = some o → o.port = p → o.auto = false → ∃ t, exec (.resume p) s = .next t ∧
        t.dev.nSus = none ∧ t.dev.nRun = some { o with tick := s.dev.tick }) ∧
      (∃ t, exec (.idStatus p) s = .next t ∧ (t.dev.nPort p).idMode = true ∧ (t.dev.nPort p).phase = 0) ∧
      (∃ t, exec (.readStat p) s = .next t ∧ (t.dev.nPort p).statOne = true ∧ (t.dev.nPort p).phase = 0) ∧
      (∀ mode, mode < 2 → ∃ t, exec (.verifyMode p mode) s = .next t ∧ (t.dev.nPort p).pulse = (mode == 1) ∧
        (t.dev.nPort p).phase = 0)) ∧
    ((∀ o, s.dev.nRun = some o → o.port = p → o.erase = true) →
      ∃ t, exec (.nvmReset p) s = .next t ∧ (t.dev.nPort p).phase = 0 ∧ (t.dev.nPort p).flags = 0 ∧ (t.dev.nPort p).idMode = false ∧
        t.array = s.array ∧ ∀ o, s.dev.nRun = some o → o.port = p → t.dev.nRun = none ∧ (t.dev.sector o.at_).dirty = true) ∧
    (∀ o, s.dev.nRun = some o → o.port = p → o.erase = false →
      ∃ t, exec (.nvmReset p) s = .next t ∧ (t.dev.nPort p).phase = 0 ∧ (t.dev.nPort p).rst = true ∧ t.dev.nRun = s.dev.nRun ∧
        t.array = s.array) ∧
    (x.phase ≠ 2 → (s.dev.page 0xEFF).err = false → ∀ i, (∃ addr data, i = Instr.programPage p addr data) ∨
        (∃ k, i = .sectorErase p k) ∨ (∃ mode, i = .verifyMode p mode) ∨ i ∈ [.suspend p, .resume p, .idStatus p, .readStat p] →
      ∃ t, exec i s = .next t ∧ (t.dev.page 0xEFF).errCode = 0x0100 ∧ (t.dev.nPort p).phase = 0 ∧ t.dev.nRun = s.dev.nRun ∧
        t.dev.nSus = s.dev.nSus ∧ t.array = s.array)

/-- R446, R447, R451, R453, R455, R456, R459, R461: ends of programs and erases, automatic suspension, reads and boot control. -/
def Obligations.FlashEnds : Prop :=
  ∀ (s : State), s.supplied → s.dev.aoUp = true →
    (∀ p, p < 2 → (s.dev.nPort p).phase ≠ 0 → (s.dev.nPort p).tick + 100000 < s.dev.tick → (s.dev.page 0xEFF).err = false →
      ∃ t, exec (.nvmSeqTimeout p) s = .next t ∧ (t.dev.nPort p).phase = 0 ∧ (t.dev.page 0xEFF).errCode = 0x0100) ∧
    (∀ o pulses, s.dev.nRun = some o → s.dev.nvmStop = false → o.erase = false → (s.dev.page 0xEFF).err = false →
      (∃ t, exec (.nvmProgramDone true pulses) s = .next t ∧ t.dev.nRun = none ∧ (s.dev.apWait = [] → (t.dev.page 0xEFF).err = false)) ∧
      (∃ t, exec (.nvmProgramDone false pulses) s = .next t ∧ t.dev.nRun = none ∧ (t.dev.page 0xEFF).errCode = 0x0104 ∧
        (t.dev.page 0xEFF).info0 = w32 o.at_)) ∧
    (∀ o pulses, s.dev.nRun = some o → s.dev.nvmStop = false → o.erase = true →
      (16 ≤ o.at_ → ∃ t, exec (.nvmEraseDone true pulses) s = .next t ∧ t.dev.nRun = none ∧
        (∀ a, a / 65536 = o.at_ → Memory.read arrayDflt t.array a = 0xFF) ∧
        (∀ a, a / 65536 ≠ o.at_ → Memory.read arrayDflt t.array a = Memory.read arrayDflt s.array a) ∧
        t.dev.sector o.at_ = { next := 0, dirty := false, erases := (s.dev.sector o.at_).erases + 1 }) ∧
      ((s.dev.page 0xEFF).err = false → ∃ t, exec (.nvmEraseDone false pulses) s = .next t ∧ t.dev.nRun = none ∧ t.array = s.array ∧
        (t.dev.sector o.at_).dirty = true ∧ (t.dev.page 0xEFF).errCode = 0x0105)) ∧
    (∀ o, s.dev.nRun = none → s.dev.nSus = some o → s.dev.nvmStop = false →
      (o.erase = true → o.tick + 100000000 ≤ s.dev.tick → ∃ t, exec .nvmAutoResume s = .next t ∧ t.dev.nSus = none ∧
        t.dev.nRun = some { o with auto := true, tick := s.dev.tick }) ∧
      (o.auto = true → o.tick + 50000 ≤ s.dev.tick → ∃ t, exec .nvmFetchResume s = .next t ∧ t.dev.nSus = none ∧
        t.dev.nRun = some { o with tick := s.dev.tick })) ∧
    (∀ o, s.dev.nRun = some o → s.dev.nSus = none → o.erase = true → o.port = 0 → o.auto = false ∨ o.tick + 1000000 ≤ s.dev.tick →
      ∃ t, exec .nvmFetchSuspend s = .next t ∧ t.dev.nRun = none ∧ t.dev.nSus = some { o with auto := true, tick := s.dev.tick }) ∧
    (s.dev.barUp = true → s.dev.nvmHeld = false → s.dev.nHost.statOne = false → ∀ off corr, off % 4 = 0 → off < 0x80000 →
      let a := s.dev.fld Reg.NVM_WIN 5 0 * 0x80000 + off
      (s.dev.nHost.idMode = true → exec (.apertureRead off corr) s = .next { s with dev :=
        (s.dev.emit (.nvmData ((toBytes (s.dev.idWord off) 4).map (fun b => BitVec.ofNat 8 b)))) }) ∧
      (∀ o, s.dev.nHost.idMode = false → s.dev.nRun = some o → ∃ t, exec (.apertureRead off corr) s = .next t ∧ t.dev.out = s.dev.out ∧
        t.dev.apWait.length = s.dev.apWait.length + 1) ∧
      (s.dev.nHost.idMode = false → s.dev.nRun = none → s.dev.nSus = none → ∃ t, exec (.apertureRead off corr) s = .next t ∧
        (corr ≤ 8 → s.dev.tells t.dev (.nvmData (Memory.readList arrayDflt s.array a 4))) ∧ t.array = s.array ∧
        t.dev.fld Reg.NVM_RD_STS 31 8 = a / 256 ∧ t.dev.flag Reg.NVM_RD_STS 5 = decide (8 < corr) ∧
        (8 < corr → (s.dev.page 0xEFF).err = false → (t.dev.page 0xEFF).errCode = 0x0103))) ∧
    (∀ (v : Word) i, i ∈ [Instr.tryBoot v, .confirm v] → s.dev.isOpen 0xEFF → bits v 31 16 = 0x4E56 → bits v 15 2 = 0 →
      (bitAt v 0 = true → bitAt v 1 = false → s.dev.slotDirty = false → s.dev.nBusy 0 = false → ∃ t, exec i s = .next t ∧
        t.dev.flag Reg.NVM_BOOT_STS 3 = true ∧ t.dev.activeSlot = s.dev.activeSlot) ∧
      (bitAt v 0 = true → bitAt v 1 = false → s.dev.slotDirty = true ∨ s.dev.nBusy 0 = true → (s.dev.page 0xEFF).err = false →
        ∃ t, exec i s = .next t ∧ (t.dev.page 0xEFF).errCode = 0x0108 ∧
          t.dev.flag Reg.NVM_BOOT_STS 3 = s.dev.flag Reg.NVM_BOOT_STS 3) ∧
      (bitAt v 0 = false → bitAt v 1 = true → s.dev.flag Reg.NVM_BOOT_STS 2 = true → ∃ t, exec i s = .next t ∧
        t.dev.activeSlot = (s.dev.flag Reg.NVM_BOOT_STS 1).toNat ∧ t.dev.flag Reg.NVM_BOOT_STS 2 = false ∧
        (s.dev.nvm.svn < 2 ^ 32 → t.dev.fld Reg.NVM_SVN_MIN 31 0 = max s.dev.nvm.svn (s.dev.fld Reg.NVM_SVN_MIN 31 0))))

/-! ### Scorepad, capture and replay (chapter 16) -/

/-- R462, R465, R466, R469 to R473, R489: banks and the incident sheet.  A window that is due closes into LAST and its successor starts at
the closing tick; a bank is published two tricks later; SB_CFG changes only while EN = 0, and setting EN clears the bank; the sheet's next
entry is journaled, and SCP_INC_CLR with its key empties the sheet. -/
def Obligations.BanksAndSheet : Prop :=
  ∀ (s : State), s.running →
    (∀ b, b < 256 →
      let k := s.dev.bank b
      (s.dev.flag (Reg.SB_CFG b) 0 = true → s.dev.flag (Reg.SB_CFG b) 1 = true → k.closing (s.dev.fld (Reg.SB_WIN b) 15 0) = true →
        s.dev.pagesStop (bankPage b) (bankPage b) = false →
        ∃ t, exec (.windowClose b) s = .next t ∧ (t.dev.bank b).last = k.cur ∧
          (t.dev.bank b).cur = BankWin.empty (k.closingTick s.dev.tick) ∧ (t.dev.bank b).groups = 0 ∧
          (t.dev.bank b).closed = min (k.closed + 1) 0xFFFF ∧ t = { s with dev := { s.dev with banks := t.dev.banks } }) ∧
      (∀ due, k.lastDue = some due → due ≤ s.dev.tick → k.closing (s.dev.fld (Reg.SB_WIN b) 15 0) = false →
        exec (.bankPublish b) s = .next { s with dev :=
          (s.dev.setBank b { k with pubCur := k.cur, pubLast := k.last, seq := k.seq + 2, lastDue := none }) }) ∧
      (∀ (v : Word), s.dev.isOpen (Reg.SB_CFG b / 0x1000) → v &&& 0xFFE000FC = 0 → s.dev.reg (Reg.SB_CFG b) &&& 0xFFE000FC = 0 →
        (s.dev.flag (Reg.SB_CFG b) 0 = false → bitAt v 0 = true → 1 ≤ bits v 15 8 → bits v 15 8 ≤ 16 →
          filterOk (bits v 15 8) (s.dev.reg (Reg.SB_FILT b)) = true →
          ∃ t, exec (.sbCfgWrite b v) s = .next t ∧ t.dev.reg (Reg.SB_CFG b) = v ∧ (t.dev.bank b).cur = BankWin.empty s.dev.tick ∧
            (t.dev.bank b).last = BankWin.empty 0 ∧ (t.dev.bank b).running = !bitAt v 1) ∧
        (s.dev.flag (Reg.SB_CFG b) 0 = true → bitAt v 0 = true → v ≠ s.dev.reg (Reg.SB_CFG b) →
          (s.dev.page (Reg.SB_CFG b / 0x1000)).err = false →
          ∃ t, exec (.sbCfgWrite b v) s = .next t ∧ t.dev.reg (Reg.SB_CFG b) = s.dev.reg (Reg.SB_CFG b) ∧
            (t.dev.page (Reg.SB_CFG b / 0x1000)).errCode = 0x0100 ∧ t.dev.banks = s.dev.banks) ∧
        (s.dev.flag (Reg.SB_CFG b) 0 = true → bitAt v 0 = false →
          ∃ t, exec (.sbCfgWrite b v) s = .next t ∧ t.dev.reg (Reg.SB_CFG b) = putBit (s.dev.reg (Reg.SB_CFG b)) 0 false))) ∧
    (∀ i e, s.dev.pagesStop 0xF00 0xF00 = false → s.dev.incidents.findIdx? (fun e => !e.journaled) = some i → s.dev.incidents[i]? = some e →
      exec .incidentJournal s = .next { s with dev :=
        { s.dev with incidents := setAt s.dev.incidents i { e with journaled := true } } }) ∧
    (s.dev.isOpen 0xF00 → (∃ t, exec (.scpIncClr 0x53430001) s = .next t ∧ t.dev.incidents = [] ∧ t.dev.reg Reg.SCP_INC_STS = 0) ∧
      ∀ (v : Word), v ≠ 0x53430001 → ∃ t, exec (.scpIncClr v) s = .next t ∧ t.dev.incidents = s.dev.incidents)

/-- R190, R474, R475, R477, R478, R481 to R484, R489: capture and its export.  With a key, EN starts capture with a checkpoint, without one
it is refused; a full segment goes to the ring, whose oldest gives way while WRAP = 1 and which ends capture while WRAP = 0; the eighth key
word sets the key; an export writes each segment into the manager's ring, waits while it is full or no head can carry it, and ends at
NSEG or at a failed access. -/
def Obligations.CaptureAndExport : Prop :=
  ∀ (s : State), s.running →
    (s.dev.isOpen 0xF57 →
      (∀ (v : Word), s.dev.flag Reg.SCP_CAP_STS 0 = false → bitAt v 0 = true → s.dev.flag Reg.SCP_CAP_CTL 0 = false →
        bits v 3 2 ≠ 3 → 1 ≤ bits v 15 8 → bits v 15 8 ≤ 64 → v &&& 0xE0 = 0 →
        s.dev.reg Reg.SCP_CAP_CTL &&& 0xE0 = 0 →
        (s.dev.cap.key.isSome = true → ∃ t, exec (.captureStart v) s = .next t ∧ t.dev.flag Reg.SCP_CAP_STS 0 = true ∧
          t.dev.reg Reg.SCP_CAP_CTL = v ∧ t.dev.cap.ckptNo = s.dev.cap.ckptNo + 1 ∧ t.dev.cap.groups = 0 ∧ t.dev.cap.gap = 0 ∧
          (s.dev.cap.gap ≠ 0 → t.dev.cap.recs.head?.map CapRec.kind = some 0x05)) ∧
        (s.dev.cap.key = none → (s.dev.page 0xF57).err = false → ∃ t, exec (.captureStart v) s = .next t ∧
          t.dev.flag Reg.SCP_CAP_STS 0 = false ∧ (t.dev.page 0xF57).errCode = 0x0100 ∧ (t.dev.page 0xF57).info0 = 0x100)) ∧
      (∀ (v : Word), ∃ t, exec (.capkeySet v) s = .next t ∧ t.dev.flag Reg.SCP_CAPKEY_STS 0 = true ∧
        t.dev.cap.key = some ((s.dev.setReg (Reg.SCP_CAPKEY 7) v).keyRegs (Reg.SCP_CAPKEY 0)) ∧
        ∀ i < 8, t.dev.reg (Reg.SCP_CAPKEY i) = 0) ∧
      (∀ (v : Word), s.dev.flag Reg.SCP_XP_CTL 0 = false → bitAt v 0 = true → v &&& 0xFFFFFFF8 = 0 →
        (s.dev.flag Reg.SCP_CAP_STS 0 = false → 2 ≤ s.dev.fld Reg.SCP_XP_SLOTS 15 0 → s.dev.fld Reg.SCP_XP_NSEG 16 0 ≠ 0 →
          ∃ t, exec (.captureExportStart v) s = .next t ∧ t.dev.reg Reg.SCP_XP_STS = 1 ∧ t.dev.reg Reg.SCP_XP_PROD = 0 ∧
            t.dev.reg Reg.SCP_XP_CONS = 0) ∧
        (s.dev.flag Reg.SCP_CAP_STS 0 = true → (s.dev.page 0xF57).err = false → ∃ t, exec (.captureExportStart v) s = .next t ∧
          t.dev.flag Reg.SCP_XP_CTL 0 = false ∧ (t.dev.page 0xF57).errCode = 0x0104 ∧ (t.dev.page 0xF57).info0 = 0)) ∧
      (∀ (v : Word), ∃ t, exec (.scpXpConsWrite v) s = .next t ∧ t.dev.reg Reg.SCP_XP_CONS = v ∧
        ((s.dev.fld Reg.SCP_XP_PROD 31 0 + 2 ^ 32 - v.toNat) % 2 ^ 32 < s.dev.fld Reg.SCP_XP_SLOTS 15 0 →
          t.dev.flag Reg.SCP_XP_STS 2 = false))) ∧
    (s.dev.flag Reg.SCP_CAP_STS 0 = true →
      (1044416 ≤ s.dev.cap.staged → s.dev.scpStop = false → s.dev.cap.spill = false → s.dev.cap.post = none →
        let seg := s.dev.get64 Reg.SCP_CAP_SEG_LO Reg.SCP_CAP_SEG_HI
        let old := s.dev.get64 Reg.SCP_CAP_OLDEST_LO Reg.SCP_CAP_OLDEST_HI
        let room := 1024 * s.dev.fld Reg.SCP_CAP_CTL 15 8
        seg + 1 < 2 ^ 64 → old ≤ seg →
        ∃ t, exec .captureSegmentWrite s = .next t ∧ t.dev.cap.recs = s.dev.cap.recs.drop (capFit 1044416 s.dev.cap.recs).length ∧
          t.dev.cap.staged = s.dev.cap.staged - capUsed (capFit 1044416 s.dev.cap.recs) ∧
          t.dev.get64 Reg.SCP_CAP_SEG_LO Reg.SCP_CAP_SEG_HI = seg + 1 ∧
          (s.dev.flag Reg.SCP_CAP_CTL 1 = true → t.dev.get64 Reg.SCP_CAP_OLDEST_LO Reg.SCP_CAP_OLDEST_HI =
            max old (seg + 1 - room) ∧ t.dev.flag Reg.SCP_CAP_STS 0 = true) ∧
          (s.dev.flag Reg.SCP_CAP_CTL 1 = false → room ≤ seg + 1 - old → t.dev.flag Reg.SCP_CAP_STS 0 = false ∧
            t.dev.flag Reg.SCP_CAP_STS 4 = true ∧ t.dev.flag Reg.SCP_CAP_STS 2 = true)) ∧
      (s.dev.fld Reg.SCP_CAP_CKPT 15 0 ≤ s.dev.cap.groups → s.dev.scpHeld = false → ∃ t, exec .captureCheckpoint s = .next t ∧
        t.dev.cap.ckptNo = s.dev.cap.ckptNo + 1 ∧ t.dev.cap.groups = 0)) ∧
    (s.dev.flag Reg.SCP_XP_STS 0 = true → s.dev.scpStop = false →
      let prod := s.dev.fld Reg.SCP_XP_PROD 31 0
      let slots := s.dev.fld Reg.SCP_XP_SLOTS 15 0
      let used := (prod + 2 ^ 32 - s.dev.fld Reg.SCP_XP_CONS 31 0) % 2 ^ 32
      (slots ≤ used → ∀ ok, ∃ t, exec (.captureExportSegment ok) s = .next t ∧ t.dev.flag Reg.SCP_XP_STS 2 = true ∧
        t.dev.out = s.dev.out) ∧
      (used < slots → s.dev.xpHead = none → ∀ ok, exec (.captureExportSegment ok) s = .next s) ∧
      (∀ h, used < slots → s.dev.xpHead = some h →
        (∃ t, exec (.captureExportSegment true) s = .next t ∧ s.dev.tells t.dev
          (.captureSegment h (prod % slots) (s.dev.get64 Reg.SCP_XP_RING_LO Reg.SCP_XP_RING_HI + 2 ^ 20 * (prod % slots))
            (s.dev.xpFirst + prod) (s.dev.segOf (s.dev.xpFirst + prod))) ∧
          t.dev.reg Reg.SCP_XP_PROD = w32 (prod + 1) ∧
          (s.dev.fld Reg.SCP_XP_NSEG 16 0 ≤ prod + 1 → t.dev.flag Reg.SCP_XP_STS 0 = false ∧ t.dev.flag Reg.SCP_XP_STS 1 = true ∧
            t.dev.flag Reg.SCP_XP_CTL 0 = false ∧ bitAt (t.dev.page 0xF57).intPend 3 = true)) ∧
        ((s.dev.page 0xF57).err = false → ∃ t, exec (.captureExportSegment false) s = .next t ∧
          t.dev.flag Reg.SCP_XP_STS 0 = false ∧ t.dev.flag Reg.SCP_XP_STS 3 = true ∧ (t.dev.page 0xF57).errCode = 0x0104 ∧
          (t.dev.page 0xF57).info0 = 1)))

/-- R485 to R488: replay.  It starts on a bench device with a key, no bound slice and no twin, and is refused with 0x0102 and the first
condition that fails otherwise; EN = 0 ends it, GO resumes it, the stop count pauses it; a record whose tag fails makes it diverge, a
checkpoint loads before anything is injected, a due completion record is compared, and the last record of a segment consumes it. -/
def Obligations.ReplayControl : Prop :=
  ∀ (s : State), s.running →
    (s.dev.isOpen 0xF57 → ∀ (v : Word), v &&& 0xFFFFFFFC = 0 → ∀ i ∈ [Instr.replayStart v, .go v],
      (s.dev.flag Reg.SCP_RP_CTL 0 = false → bitAt v 0 = true →
        (s.dev.rpReason = none → ∃ t, exec i s = .next t ∧ t.dev.rpFence = true ∧ t.dev.flag Reg.SCP_RP_CTL 0 = true ∧
          t.dev.reg Reg.SCP_RP_CONS = 0 ∧ t.dev.rp.loaded = false ∧ ∀ p < 512, t.dev.fld (Reg.FCH_P_STS p) 4 3 = 0) ∧
        (∀ n, s.dev.rpReason = some n → (s.dev.page 0xF57).err = false → ∃ t, exec i s = .next t ∧
          t.dev.flag Reg.SCP_RP_CTL 0 = false ∧ (t.dev.page 0xF57).errCode = 0x0102 ∧ (t.dev.page 0xF57).info0 = w32 n)) ∧
      (s.dev.flag Reg.SCP_RP_CTL 0 = true → bitAt v 0 = false → ∃ t, exec i s = .next t ∧ t.dev.rpFence = false ∧
        t.dev.flag Reg.SCP_RP_CTL 0 = false ∧ t.dev.flag Reg.SCP_RP_STS 1 = false) ∧
      (s.dev.flag Reg.SCP_RP_CTL 0 = bitAt v 0 → bitAt v 1 = true → ∃ t, exec i s = .next t ∧ t.dev.flag Reg.SCP_RP_STS 1 = false ∧
        t.dev.rpFence = s.dev.rpFence)) ∧
    (s.dev.isOpen 0xF57 → ∀ (v : Word), ∃ t, exec (.scpRpProdWrite v) s = .next t ∧ t.dev.reg Reg.SCP_RP_PROD = v) ∧
    (s.dev.rpFence = true → s.dev.flag Reg.SCP_RP_STS 1 = false →
      s.dev.tick = s.dev.get64 Reg.SCP_RP_STOP_LO Reg.SCP_RP_STOP_HI →
      ∃ t, exec .replayPause s = .next t ∧ t.dev.flag Reg.SCP_RP_STS 1 = true ∧ bitAt (t.dev.page 0xF57).intPend 4 = true) ∧
    (∀ r : RpRecord, s.dev.rpReady = true →
      (r.tagOk = false → (s.dev.page 0xF57).err = false → ∃ t, exec (.replayInject r) s = .next t ∧
        t.dev.flag Reg.SCP_RP_STS 2 = true ∧ t.dev.flag Reg.SCP_RP_STS 1 = true ∧ (t.dev.page 0xF57).errCode = 0x0103 ∧
        (t.dev.page 0xF57).info1 = 4 ∧ t.dev.get64 Reg.SCP_RP_DIV_LO Reg.SCP_RP_DIV_HI = r.rnum % 2 ^ 64) ∧
      (r.tagOk = true → s.dev.rp.loaded = false → ∃ t, exec (.replayInject r) s = .next t ∧
        t.dev.rp.loaded = (r.kind == 3 && s.dev.rp.ckpt) ∧ (r.kind = 1 → t.dev.tick = r.tick ∧ t.dev.rp.ckpt = true) ∧
        (r.kind = 1 → r.last = true → t.dev.reg Reg.SCP_RP_CONS = s.dev.reg Reg.SCP_RP_CONS + 1) ∧
        t.array = s.array ∧ t.window = s.window) ∧
      (r.tagOk = true → s.dev.rp.loaded = true → s.dev.tick < r.tick → exec (.replayInject r) s = .next s) ∧
      (r.tagOk = true → s.dev.rp.loaded = true → r.tick ≤ s.dev.tick →
        (r.kind = 0x05 → ∃ t, exec (.replayInject r) s = .next t ∧ t.dev.flag Reg.SCP_RP_STS 3 = true) ∧
        (r.kind = 0x17 → r.tick < s.dev.tick → s.dev.rpPosted (r.src % 16384) = none → (s.dev.page 0xF57).err = false →
          ∃ t, exec (.replayInject r) s = .next t ∧ t.dev.flag Reg.SCP_RP_STS 2 = true ∧ (t.dev.page 0xF57).info1 = 3) ∧
        (r.kind = 0x17 → ∀ i, s.dev.rpPosted (r.src % 16384) = some (i, ofBytes ((List.range 16).map (fun k => rpWord r k % 256))) →
          ∃ t, exec (.replayInject r) s = .next t ∧ t.dev.rp.seen = i + 1)))

/-! ### Bring-up, release and test (chapter 17, format) -/

/-- R490, R493, R495, R528, R529, R533, R542: the supply and the TAP.  PG_AO begins bring-up with the straps sampled, and its rise is nothing to a unit
that has its supply; its fall takes the always-on island down, with the main rails up for good; the TAP is closed until the secrets are cleared, holds
bring-up with a boundary instruction, and Test-Logic-Reset lets it go on. -/
def Obligations.SupplyAndTap : Prop :=
  ∀ (s : State),
    (∀ side bench dies64 res, s.dev.aoUp = false →
      ∃ t, exec (.pgAoRise side bench dies64 res) s = .next t ∧ t.dev.supplyLost = false ∧ t.dev.aoUp = true ∧ t.dev.enMain = true ∧
        t.dev.pgMain = false ∧ t.dev.bring = some res ∧ t.dev.released = false ∧ t.dev.stage = 2 ∧
        t.dev.reg Reg.GLB_STRAP = w32 (side.toNat + 2 * bench.toNat + 4 * dies64.toNat) ∧ t.dev.fld Reg.TST_BRG_CAUSE 2 0 = 0 ∧
        t.dev.reg Reg.PWR_DUMPSET_LO = (if side then 0xAAAAAAAA else 0x55555555) ∧ t.dev.mode = 0) ∧
    (s.supplied → s.dev.aoUp = true →
      (∀ side bench dies64 res, exec (.pgAoRise side bench dies64 res) s = .next s) ∧
      (∃ t, exec .pgAoFall s = .next t ∧ t.dev.aoUp = false ∧ t.dev.enMain = false ∧ t.dev.supplyLost = s.dev.pgMain) ∧
      (∀ ins ir, ins = .scan ∨ (tapBoundary ins = true ∧ s.dev.flag Reg.TST_SEC_STS 0 = false) →
        exec (.tapInstruction ins ir) s = .next s) ∧
      (∀ ins ir, ins ∈ [.bypass, .idcode] → ∃ t, exec (.tapInstruction ins ir) s = .next t ∧
        t.dev.fld Reg.TST_TAP_STS 7 0 = ir % 256 ∧ t.dev.released = s.dev.released) ∧
      (∀ ins ir, tapBoundary ins = true → s.dev.flag Reg.TST_SEC_STS 0 = true → s.dev.flag Reg.TST_TAP_STS 8 = false →
        (s.dev.page 0x1000).err = false → ∃ t, exec (.tapInstruction ins ir) s = .next t ∧ t.dev.flag Reg.TST_TAP_STS 8 = true ∧
          t.dev.hold = 2 ∧ t.dev.released = false ∧ (t.dev.page 0x1000).errCode = 0x0105 ∧
          (t.dev.page 0x1000).info0 = w32 (ir % 256) ∧ (t.dev.page 0x1000).info1 = w32 s.dev.stage) ∧
      (∀ res, s.dev.flag Reg.TST_TAP_STS 8 = true → ∃ t, exec (.tapTestLogicReset res) s = .next t ∧
        t.dev.flag Reg.TST_TAP_STS 8 = false ∧ t.dev.fld Reg.TST_TAP_STS 7 0 = 0 ∧ t.dev.hold = 0))

/-- R399, R405, R499, R500, R502, R503: the end of bring-up.  Step 8 ends with the release, or holds while the twin has bridges; the open-band scan
commits, of what stands in the verified stripes of the bands that were OPEN, each granule newer than its map entry; READY starts fetching. -/
def Obligations.ReleaseAndReady : Prop :=
  ∀ (s : State), s.running →
    (∀ r, s.dev.bring = some r → s.dev.stage = 8 → s.dev.stopped = false → s.dev.hold = 0 ∨ s.dev.hold = 3 →
      s.dev.stayDown = false → s.dev.mode = 0 →
      (r.portsHeld = 0 ∨ s.dev.flag Reg.TWN_LINK_STS 0 = true → ∃ t, exec .release s = .next t ∧ t.dev.released = true ∧
        t.dev.stage = 9 ∧ t.dev.bring = none ∧ t.dev.resetRun = false ∧ t.dev.nvm.epoch = s.dev.epoch ∧
        t.dev.nvm.dumpStart = none) ∧
      (r.portsHeld ≠ 0 → s.dev.flag Reg.TWN_LINK_STS 0 = false → (s.dev.page 0xC01).err = false →
        ∃ t, exec .release s = .next t ∧ t.dev.released = s.dev.released ∧ t.dev.hold = 1 ∧
          (t.dev.page 0xC01).errCode = 0x0104 ∧ (t.dev.page 0xC01).info0 = w32 r.portsHeld)) ∧
    (s.dev.stage = 9 → s.dev.scanPend = true →
      let places := s.dev.scanBands.flatMap s.dev.scanPlaces
      ∃ t, exec .openBandScan s = .next t ∧ t.dev.scanPend = false ∧ t.dev.scanBands = [] ∧
        ((∀ l ∈ places, ∀ gr, s.dev.granAt l = some gr → gr.pad = true ∨ gverNewer gr.gver (s.dev.ent gr.slice gr.granule).gver = false) →
          t.dev.map = s.dev.map ∧ t.dev.mapPend = s.dev.mapPend) ∧
        (∀ l ∈ places, ∀ gr, s.dev.granAt l = some gr → gr.pad = false → gverNewer gr.gver (s.dev.ent gr.slice gr.granule).gver = true →
          (s.dev.paired = true → ∃ y ∈ t.dev.mapPend, y.slice = gr.slice ∧ y.granule = gr.granule ∧ y.gver = gr.gver ∧ y.loc = some l) ∧
          (s.dev.paired = false →
            (∀ l' ∈ places, ∀ gr', s.dev.granAt l' = some gr' → l' = l ∨ granKey gr'.slice gr'.granule ≠ granKey gr.slice gr.granule) →
            t.dev.ent gr.slice gr.granule = { gver := gr.gver, loc := some l }))) ∧
    (s.dev.stage = 9 → s.dev.released = true → s.dev.tstStop = false → s.dev.scanPend = false → s.dev.hold ≠ 2 →
      s.dev.paired = true ∨ s.dev.flag Reg.TWN_STS 4 = true → ∃ t, exec .ready s = .next t ∧ t.dev.flag Reg.TST_BRG_STS 5 = true ∧
        t.dev.stage = 10 ∧ t.dev.hold = 0 ∧ t.dev.lostSlots = 0 ∧ bitAt (t.dev.page 0x1000).intPend 0 = true ∧
        (s.dev.flag Reg.TWN_STS 4 = true → 0 < s.dev.lostSlots → (s.dev.page 0x1000).err = false →
          (t.dev.page 0x1000).errCode = 0x0104 ∧ (t.dev.page 0x1000).info0 = w32 s.dev.lostSlots))

/-- R26, R27, R77, R210, R323, R346: FORMAT empties the shelf, draws its seed and sets the totals that the kitty and the space limit count from; a
firmware core that fails restarts, and one that fails again leaves service. -/
def Obligations.FormatAndCores : Prop :=
  ∀ (s : State), s.running →
    (∀ n bm, s.dev.dumping = false → ∃ t, exec (.format n bm) s = .next t ∧
      t.dev.fld Reg.MAP_BANDS_FMT 22 0 = n % 2 ^ 23 ∧ t.dev.map = [] ∧ t.dev.bands = [] ∧ t.dev.cache = [] ∧ t.dev.flash = [] ∧
      t.dev.bmDirty = [] ∧ t.dev.nvm.formatted = true ∧ t.dev.spareFmt = s.dev.formSets s.dev.spareBlocks * setBytes ∧
      t.dev.rebuildFmt = s.dev.formSets s.dev.rebuildBlocks * setBytes ∧
      t.dev.get64 Reg.MAP_CLOG_LO Reg.MAP_CLOG_HI = 5 * (n % 2 ^ 23) * bandGranules / 8 ∧
      t.dev.reg Reg.SHF_RB_SPACE_FMT = w32 (s.dev.formSets s.dev.rebuildBlocks) ∧ t.window = [] ∧ t.array = s.array) ∧
    (∀ c again, c < 68 → c ∉ s.dev.coresOut →
      (again = true ∨ c ∈ s.dev.coresHit → ∃ t, exec (.firmwareCoreFail c again) s = .next t ∧ c ∈ t.dev.coresOut) ∧
      (again = false → c ∉ s.dev.coresHit → ∃ t, exec (.firmwareCoreFail c again) s = .next t ∧ c ∈ t.dev.coresHit ∧
        t.dev.coresOut = s.dev.coresOut))

/-! ### The whole machine -/

/-- No command touches the queue: a step takes the front and nothing else. -/
def Obligations.CommandsKeepTheQueue : Prop :=
  ∀ (c : Instr) (s t : State), exec c s = .next t → t.pending = s.pending

/-- R542: with the supply lost while the main rails were up, every command to the controller but the next rise of PG_AO ends the machine;
without any supply (and none lost) it changes nothing. -/
def Obligations.NoSupplyNoEffect : Prop :=
  ∀ (c : Instr) (s : State), boardRow c = false →
    (s.dev.supplyLost = true → (∀ a b d r, c ≠ .pgAoRise a b d r) → exec c s = .fault .undefinedSupply) ∧
    (s.dev.supplyLost = false → s.dev.aoUp = false → s.dev.pgMain = false → (∀ a b d r, c ≠ .pgAoRise a b d r) →
      (∀ src lvl res, c ≠ .wake src lvl res) → exec c s = .next s)

/-- The two byte memories are changed by the rows that store, at the bytes they store to: every other byte reads as before.  The first
part is every row's frame, the second the address of each store (R75, R84, R397, R409, R438, R445, R450, R451, R486). -/
def Obligations.StoresStayInPlace : Prop :=
  ∀ (c : Instr) (s t : State), exec c s = .next t →
    (storesArray c = false → t.array = s.array) ∧ (storesWindow c = false → t.window = s.window) ∧
    (∀ a sts, (match c with
        | .registerWrite acc => sts = accessStore acc s.dev
        | .unlockCycle p off value => sts = s.dev.nStepStore (p % 2) (off / 4 * 4) (value % 2 ^ 32)
        | .programPage _ addr _ => sts = [(addr % 0x2000000 / 256 * 256, List.replicate 256 erasedByte)]
        | .nvmEraseDone _ _ => sts = s.dev.nRun.toList.map (fun o => (o.at_ * 65536, List.replicate 65536 erasedByte))
        | .pgAoRise _ _ _ _ => sts = s.dev.nvmTorn
        | .replayInject r => sts = s.dev.rpArray r
        | _ => sts = []) →
      (∀ st ∈ sts, a < st.1 ∨ st.1 + st.2.length ≤ a) → Memory.read arrayDflt t.array a = Memory.read arrayDflt s.array a) ∧
    (∀ a sts, (match c with
        | .pwinStore _ off bytes => sts = [(off, bytes)]
        | .wstore _ stores => sts = stores
        | .sync _ _ _ _ bytes _ => sts = bytes
        | .replayInject r => sts = s.dev.rpWindow r
        | .pgAoRise side bench dies64 _ =>
          sts = ((s.dev.supplied side bench dies64).headsDown.lostGranules s.dev.nvm.stopOf).map (lostBytes s.dev.draws)
        | .dumpExit _ => sts = (s.dev.headsDown.lostGranules s.dev.nvm.stopOf).map (lostBytes s.dev.draws)
        | .resetNRecognised _ =>
          sts = ((s.dev.resetNStart.setEnMain false).headsDown.lostGranules s.dev.resetNStart.nvm.stopOf).map (lostBytes s.dev.draws)
        | .format _ _ => False
        | _ => sts = []) →
      (∀ st ∈ sts, a < st.1 ∨ st.1 + st.2.length ≤ a) → Memory.read windowDflt t.window a = Memory.read windowDflt s.window a)

/-- Every step keeps the two byte memories in their canonical form. -/
def Obligations.MemoriesStayCanonical : Prop :=
  ∀ (s t : State), s.memWf → step s = .next t → t.memWf

/-- R443: no step changes a byte of the boot loader's sectors 0 to 15. -/
def Obligations.BootSectorsKeep : Prop :=
  ∀ (boot : Nat → Byte) (s t : State), s.bootHolds boot → step s = .next t → t.bootHolds boot

/-- What reset leaves (R443, R447, R490): no command waits, the memories are in their canonical form, no supply is up and none is lost, and
the boot loader's sectors hold what they hold as shipped (whose bytes the spec does not give: `Config.bootByte`). -/
def Obligations.ResetIsCanonical : Prop :=
  State.reset.memWf ∧ State.reset.pending = [] ∧ State.reset.dev.aoUp = false ∧ State.reset.supplied ∧
  State.reset.bootHolds Config.bootByte
end

