-- ==== Sys2Proof/Laws/Aes.lean ====
section
/-! SUPPORT. What the modes of `Machine/Aes.lean` keep, and the parts of a state blob. -/

namespace Sys2Proof.Machine

/-- GCM text has its length. -/
theorem gcmText_lt (key iv len x : Nat) : gcmText key iv len x < 2 ^ (8 * len) := Nat.mod_lt _ (Nat.two_pow_pos _)

/-- GCM decryption undoes encryption of a text of its length. -/
theorem gcmText_gcmText (key iv len x : Nat) (h : x < 2 ^ (8 * len)) : gcmText key iv len (gcmText key iv len x) = x := by
  unfold gcmText
  rw [Nat.xor_mod_two_pow, Nat.mod_mod, ← Nat.xor_mod_two_pow, Nat.xor_assoc, Nat.xor_self, Nat.xor_zero, Nat.mod_eq_of_lt h]

/-- A tag is 16 bytes. -/
theorem gcmTag_lt (key iv alen aad len ct : Nat) : gcmTag key iv alen aad len ct < 2 ^ 128 := Nat.mod_lt _ (Nat.two_pow_pos _)

/-- Two byte strings, the first of `n` bytes. -/
def joinBytes (n a b : Nat) : Nat := a + 256 ^ n * b

/-- The first string of two. -/
theorem leBytes_join_low (a b n : Nat) (h : a < 256 ^ n) : leBytes (joinBytes n a b) 0 n = a := by
  rw [joinBytes, leBytes, Nat.pow_zero, Nat.div_one, Nat.add_mul_mod_self_left, Nat.mod_eq_of_lt h]

/-- Bytes of the second. -/
theorem leBytes_join_high (a b n k m : Nat) (h : a < 256 ^ n) : leBytes (joinBytes n a b) (n + k) m = leBytes b k m := by
  rw [joinBytes, leBytes, leBytes, Nat.pow_add, ← Nat.div_div_eq_div_mul, Nat.add_mul_div_left _ _ (Nat.pow_pos (by decide)),
    Nat.div_eq_of_lt h, Nat.zero_add]

/-- Bytes of the first. -/
theorem leBytes_join_inner (a b n k m : Nat) (h : k + m ≤ n) : leBytes (joinBytes n a b) k m = leBytes a k m := by
  obtain ⟨r, rfl⟩ := Nat.le.dest h
  have e : 256 ^ (k + m + r) * b = 256 ^ k * (256 ^ m * (256 ^ r * b)) := by rw [Nat.pow_add, Nat.pow_add]; ac_rfl
  rw [joinBytes, leBytes, leBytes, e, Nat.add_mul_div_left _ _ (Nat.pow_pos (by decide)), Nat.add_mul_mod_self_left]

/-- The second string of three. -/
theorem leBytes_second (a b c n m : Nat) (ha : a < 256 ^ n) (hb : b < 256 ^ m) :
    leBytes (joinBytes n a (joinBytes m b c)) n m = b :=
  (leBytes_join_high a _ n 0 m ha).trans (leBytes_join_low b c m hb)

/-- The last of three. -/
theorem leBytes_third (a b c n m k : Nat) (ha : a < 256 ^ n) (hb : b < 256 ^ m) (hc : c < 256 ^ k) :
    leBytes (joinBytes n a (joinBytes m b c)) (n + m) k = c :=
  ((leBytes_join_high a _ n m k ha).trans (leBytes_join_high b c m 0 k hb)).trans
    (by rw [leBytes, Nat.pow_zero, Nat.div_one, Nat.mod_eq_of_lt hc])

end Sys2Proof.Machine
end

