-- ==== Sys2Proof/Laws/Bits.lean ====
section
/-! SUPPORT. The laws of register fields: what a field reads after it, or another one, was set. -/

namespace Sys2Proof.Machine

theorem getLsbD_maskOf (hi lo n : Nat) : (maskOf hi lo).getLsbD n = (decide (n < 32) && decide (lo ≤ n) && decide (n - lo < hi + 1 - lo)) := by
  simp only [maskOf, BitVec.getLsbD_ofNat, Nat.testBit_shiftLeft, Nat.testBit_two_pow_sub_one]
  by_cases h1 : n < 32 <;> by_cases h2 : lo ≤ n <;> simp [h1, h2]

/-- One bit after a field was set. -/
theorem bitAt_putBits (w : Word) (hi lo v n : Nat) (h : hi < 32) :
    bitAt (putBits w hi lo v) n = if lo ≤ n ∧ n ≤ hi then v.testBit (n - lo) else bitAt w n := by
  simp only [bitAt, putBits, BitVec.getLsbD_or, BitVec.getLsbD_and, BitVec.getLsbD_not, getLsbD_maskOf,
    BitVec.getLsbD_ofNat, Nat.testBit_shiftLeft, Nat.testBit_mod_two_pow]
  by_cases h32 : n < 32
  · by_cases h1 : lo ≤ n
    · by_cases h2 : n ≤ hi
      · have h3 : n < hi + 1 := by omega
        have h4 : n - lo < hi + 1 - lo := by omega
        simp [h1, h2, h32, h4]
      · have h3 : ¬ n < hi + 1 := by omega
        have h4 : ¬ n - lo < hi + 1 - lo := by omega
        have h5 : ¬ n < lo := by omega
        simp [h1, h2, h32, h4]
    · simp [h1, h32]
  · have h2 : ¬ n ≤ hi := by omega
    simp [h32, h2, BitVec.getLsbD_of_ge w n (by omega)]

/-- A bit of a field. -/
theorem testBit_bits (w : Word) (hi lo i : Nat) : (bits w hi lo).testBit i = (decide (i < hi + 1 - lo) && bitAt w (lo + i)) := by
  simp only [bits, Nat.testBit_mod_two_pow, Nat.testBit_shiftRight, bitAt, BitVec.testBit_toNat]

/-- A field reads as it was set. -/
theorem bits_putBits_self (w : Word) (hi lo v : Nat) (h : hi < 32) :
    bits (putBits w hi lo v) hi lo = v % 2 ^ (hi + 1 - lo) := by
  apply Nat.eq_of_testBit_eq
  intro i
  rw [testBit_bits, bitAt_putBits _ _ _ _ _ h, Nat.testBit_mod_two_pow]
  by_cases hi' : i < hi + 1 - lo
  · rw [if_pos (by omega)]; simp
  · simp [hi']

/-- Setting a field leaves every field outside it. -/
theorem bits_putBits_ne (w : Word) (hi lo v hi' lo' : Nat) (h : hi < 32) (hd : hi < lo' ∨ hi' < lo) :
    bits (putBits w hi lo v) hi' lo' = bits w hi' lo' := by
  apply Nat.eq_of_testBit_eq
  intro i
  rw [testBit_bits, testBit_bits, bitAt_putBits _ _ _ _ _ h]
  by_cases hi' : i < hi' + 1 - lo'
  · rw [if_neg (by omega)]
  · simp [hi']

/-- A field inside the one that was set. -/
theorem bits_putBits_sub (w : Word) (hi lo v hi' lo' : Nat) (h : hi < 32) (h1 : lo ≤ lo') (h2 : hi' ≤ hi) :
    bits (putBits w hi lo v) hi' lo' = v / 2 ^ (lo' - lo) % 2 ^ (hi' + 1 - lo') := by
  apply Nat.eq_of_testBit_eq
  intro i
  rw [testBit_bits, bitAt_putBits _ _ _ _ _ h, Nat.testBit_mod_two_pow, ← Nat.shiftRight_eq_div_pow, Nat.testBit_shiftRight]
  by_cases hi' : i < hi' + 1 - lo'
  · rw [if_pos (by omega)]
    congr 2
    omega
  · simp [hi']

/-- One bit after a bit was set or cleared. -/
theorem bitAt_putBit (w : Word) (k n : Nat) (b : Bool) (h : k < 32) :
    bitAt (putBit w k b) n = if n = k then b else bitAt w n := by
  rw [putBit, bitAt_putBits _ _ _ _ _ h]
  by_cases hn : n = k
  · subst hn
    cases b <;> simp
  · rw [if_neg (by omega), if_neg hn]

/-- A field after a bit outside it was set or cleared. -/
theorem bits_putBit_ne (w : Word) (k hi lo : Nat) (b : Bool) (h : k < 32) (hd : k < lo ∨ hi < k) :
    bits (putBit w k b) hi lo = bits w hi lo := bits_putBits_ne w k k b.toNat hi lo h (by omega)

/-- One bit after a field outside it was set. -/
theorem bitAt_putBits_ne (w : Word) (hi lo v n : Nat) (h : hi < 32) (hd : n < lo ∨ hi < n) :
    bitAt (putBits w hi lo v) n = bitAt w n := by
  rw [bitAt_putBits _ _ _ _ _ h, if_neg (by omega)]

/-- A field of a word built from a number. -/
theorem bits_w32 (n hi lo : Nat) (h : hi < 32) : bits (w32 n) hi lo = n / 2 ^ lo % 2 ^ (hi + 1 - lo) := by
  apply Nat.eq_of_testBit_eq
  intro i
  rw [testBit_bits, Nat.testBit_mod_two_pow, ← Nat.shiftRight_eq_div_pow, Nat.testBit_shiftRight]
  simp only [bitAt, w32, BitVec.getLsbD_ofNat]
  by_cases hi' : i < hi + 1 - lo
  · have : lo + i < 32 := by omega
    simp [hi', this]
  · simp [hi']

/-! ### The guard of a zero block -/

/-- `crc64Zeros`, looking at the register at every byte, so that it is evaluated as it goes. -/
def crcForce : Nat → Nat → Nat
  | c, 0 => c
  | c, n + 1 => if c = 0 then crcForce (crcByte 64 0x42F0E1EBA9EA3693 0 0) n else crcForce (crcByte 64 0x42F0E1EBA9EA3693 c 0) n

theorem crcForce_eq (c n : Nat) : crcForce c n = crc64Zeros c n := by
  induction n generalizing c with
  | zero => rfl
  | succ n ih =>
    rw [crcForce, crc64Zeros]
    split
    · subst c; exact ih _
    · exact ih _

theorem zeroGuard_forced : (crcForce (2 ^ 64 - 1) 4096 ^^^ (2 ^ 64 - 1)) % 2 ^ 48 = zeroGuard := by decide +kernel

/-- The guard of a zero block is that of the CRC-64 of 4,096 zero bytes (R326, Table SHF-1). -/
theorem guardOf_zero : guardOf 0 = (crc64Zeros (2 ^ 64 - 1) 4096 ^^^ (2 ^ 64 - 1)) % 2 ^ 48 := by
  rw [← crcForce_eq, zeroGuard_forced]; rfl

end Sys2Proof.Machine
end

