-- ==== Sys2Proof/Laws/SMap.lean ====
section
/-! SUPPORT. The laws of sparse tables and byte memories: a read after a write, a write elsewhere (for every table, in canonical form or
not), and that every operation keeps the canonical form. -/

namespace Sys2Proof.Machine

variable {α : Type}

/-! ### Lookup -/

/-- An inserted key is found. -/
theorem SMap.find_insert_self (m : SMap α) (n : Nat) (x : α) : (m.insert n x).find n = some x := by
  induction m with
  | nil => simp [SMap.insert, SMap.find]
  | cons y m ih =>
    obtain ⟨k, v⟩ := y
    simp only [SMap.insert]
    split
    · simp [SMap.find]
    · split
      · simp [SMap.find]
      · rename_i h1 h2
        simp only [SMap.find, if_neg h1, ih]

/-- Inserting a key changes no other. -/
theorem SMap.find_insert_ne (m : SMap α) (n k : Nat) (x : α) (h : k ≠ n) : (m.insert n x).find k = m.find k := by
  induction m with
  | nil => simp only [SMap.insert, SMap.find, if_neg h]
  | cons y m ih =>
    obtain ⟨j, v⟩ := y
    simp only [SMap.insert]
    split
    · rename_i heq
      subst heq
      simp only [SMap.find, if_neg h]
    · split
      · simp only [SMap.find, if_neg h]
      · simp only [SMap.find, ih]

/-- A removed key is not listed. -/
theorem SMap.find_erase_self (m : SMap α) (n : Nat) : (m.erase n).find n = none := by
  induction m with
  | nil => rfl
  | cons y m ih =>
    obtain ⟨k, v⟩ := y
    simp only [SMap.erase]
    split
    · exact ih
    · rename_i h
      simp only [SMap.find, if_neg h, ih]

/-- Removing a key changes no other. -/
theorem SMap.find_erase_ne (m : SMap α) (n k : Nat) (h : k ≠ n) : (m.erase n).find k = m.find k := by
  induction m with
  | nil => rfl
  | cons y m ih =>
    obtain ⟨j, v⟩ := y
    simp only [SMap.erase]
    split
    · rename_i heq
      subst heq
      simp only [SMap.find, if_neg h, ih]
    · simp only [SMap.find, ih]

/-- A stored value is read back. -/
theorem SMap.get_set_self [DecidableEq α] (dflt : Nat → α) (m : SMap α) (n : Nat) (x : α) :
    SMap.get dflt (SMap.set dflt m n x) n = x := by
  simp only [SMap.get, SMap.set]
  split
  · rename_i h; rw [SMap.find_erase_self]; exact h.symm
  · rw [SMap.find_insert_self]; rfl

/-- Storing a value changes no other key. -/
theorem SMap.get_set_ne [DecidableEq α] (dflt : Nat → α) (m : SMap α) (n k : Nat) (x : α) (h : k ≠ n) :
    SMap.get dflt (SMap.set dflt m n x) k = SMap.get dflt m k := by
  simp only [SMap.get, SMap.set]
  split
  · rw [SMap.find_erase_ne m n k h]
  · rw [SMap.find_insert_ne m n k x h]

/-! ### Rising keys -/

theorem SMap.sortedAbove_some (b k : Nat) (v : α) (m : SMap α) :
    SMap.sortedAbove (some b) ((k, v) :: m) = (decide (b < k) && SMap.sortedAbove (some k) m) := rfl

/-- A table whose keys lie above a bound has them above any smaller one. -/
theorem SMap.sortedAbove_mono {b c : Nat} (h : b ≤ c) (m : SMap α) (hs : SMap.sortedAbove (some c) m = true) :
    SMap.sortedAbove (some b) m = true := by
  cases m with
  | nil => rfl
  | cons x m =>
    obtain ⟨k, v⟩ := x
    rw [SMap.sortedAbove_some] at hs ⊢
    simp only [Bool.and_eq_true, decide_eq_true_eq] at hs ⊢
    exact ⟨by omega, hs.2⟩

/-- A table with rising keys has them above nothing. -/
theorem SMap.sortedAbove_weaken {c : Nat} (m : SMap α) (hs : SMap.sortedAbove (some c) m = true) :
    SMap.sortedAbove none m = true := by
  cases m with
  | nil => rfl
  | cons x m =>
    obtain ⟨k, v⟩ := x
    rw [SMap.sortedAbove_some] at hs
    simp only [Bool.and_eq_true] at hs
    exact hs.2

/-- The keys behind the first lie above it. -/
theorem SMap.sortedAbove_tail (b : Option Nat) (k : Nat) (v : α) (m : SMap α)
    (hs : SMap.sortedAbove b ((k, v) :: m) = true) : SMap.sortedAbove (some k) m = true := by
  cases b with
  | none => exact hs
  | some c =>
    rw [SMap.sortedAbove_some] at hs
    simp only [Bool.and_eq_true] at hs
    exact hs.2

/-- A first key above the bound, and a tail above that key. -/
theorem SMap.sortedAbove_cons (b : Option Nat) (k : Nat) (v : α) (m : SMap α) (hb : ∀ c, b = some c → c < k)
    (hs : SMap.sortedAbove (some k) m = true) : SMap.sortedAbove b ((k, v) :: m) = true := by
  cases b with
  | none => exact hs
  | some c =>
    rw [SMap.sortedAbove_some]
    simp only [Bool.and_eq_true, decide_eq_true_eq]
    exact ⟨hb c rfl, hs⟩

/-- The first key lies above the bound. -/
theorem SMap.sortedAbove_head (b : Option Nat) (k : Nat) (v : α) (m : SMap α)
    (hs : SMap.sortedAbove b ((k, v) :: m) = true) : ∀ c, b = some c → c < k := by
  intro c hc
  subst hc
  rw [SMap.sortedAbove_some] at hs
  simp only [Bool.and_eq_true, decide_eq_true_eq] at hs
  exact hs.1

/-- Removing a key keeps the keys rising. -/
theorem SMap.erase_sorted (m : SMap α) (n : Nat) :
    ∀ b, SMap.sortedAbove b m = true → SMap.sortedAbove b (m.erase n) = true := by
  induction m with
  | nil => intro b _; rfl
  | cons x m ih =>
    obtain ⟨k, v⟩ := x
    intro b hs
    have tail := SMap.sortedAbove_tail b k v m hs
    simp only [SMap.erase]
    split
    · cases b with
      | none => exact ih none (SMap.sortedAbove_weaken m tail)
      | some c =>
        have := SMap.sortedAbove_head (some c) k v m hs c rfl
        exact ih _ (SMap.sortedAbove_mono (by omega) m tail)
    · exact SMap.sortedAbove_cons b k v _ (SMap.sortedAbove_head b k v m hs) (ih _ tail)

/-- Inserting a key above the bound keeps the keys rising. -/
theorem SMap.insert_sorted (m : SMap α) (n : Nat) (x : α) :
    ∀ b, (∀ c, b = some c → c < n) → SMap.sortedAbove b m = true → SMap.sortedAbove b (m.insert n x) = true := by
  induction m with
  | nil => intro b hb _; exact SMap.sortedAbove_cons b n x [] hb rfl
  | cons y m ih =>
    obtain ⟨k, v⟩ := y
    intro b hb hs
    have tail := SMap.sortedAbove_tail b k v m hs
    simp only [SMap.insert]
    split
    · rename_i heq
      subst heq
      exact SMap.sortedAbove_cons b n x m hb tail
    · split
      · rename_i hlt
        exact SMap.sortedAbove_cons b n x _ hb (SMap.sortedAbove_cons _ k v m (fun c hc => by cases hc; exact hlt) tail)
      · exact SMap.sortedAbove_cons b k v _ (SMap.sortedAbove_head b k v m hs) (ih (some k) (fun c hc => by cases hc; omega) tail)

/-! ### Byte memories -/

theorem SMap.erase_all (p : Nat × α → Bool) (m : SMap α) (n : Nat) (h : m.all p = true) : List.all (m.erase n) p = true := by
  induction m with
  | nil => rfl
  | cons y m ih =>
    obtain ⟨k, v⟩ := y
    simp only [List.all_cons, Bool.and_eq_true] at h
    simp only [SMap.erase]
    split
    · exact ih h.2
    · simp only [List.all_cons, Bool.and_eq_true]; exact ⟨h.1, ih h.2⟩

theorem SMap.insert_all (p : Nat × α → Bool) (m : SMap α) (n : Nat) (x : α) (hx : p (n, x) = true) (h : m.all p = true) :
    List.all (m.insert n x) p = true := by
  induction m with
  | nil => simp [SMap.insert, hx]
  | cons y m ih =>
    obtain ⟨k, v⟩ := y
    simp only [List.all_cons, Bool.and_eq_true] at h
    simp only [SMap.insert]
    split
    · simp only [List.all_cons, Bool.and_eq_true]; exact ⟨hx, h.2⟩
    · split
      · simp only [List.all_cons, Bool.and_eq_true]; exact ⟨hx, h⟩
      · simp only [List.all_cons, Bool.and_eq_true]; exact ⟨h.1, ih h.2⟩

/-- Storing a byte keeps the canonical form. -/
theorem Memory.write_wf (d : Nat → Byte) (m : Memory) (a : Nat) (b : Byte) (h : Memory.wf d m = true) :
    Memory.wf d (Memory.write d m a b) = true := by
  simp only [Memory.wf, Bool.and_eq_true] at h ⊢
  simp only [Memory.write, SMap.set]
  split
  · exact ⟨SMap.erase_sorted m a _ h.1, SMap.erase_all _ m a h.2⟩
  · rename_i hb
    exact ⟨SMap.insert_sorted m a b _ (fun c hc => by cases hc) h.1, SMap.insert_all _ m a b (by simpa using hb) h.2⟩

/-- Storing bytes keeps the canonical form. -/
theorem Memory.writeList_wf (d : Nat → Byte) (bs : List Byte) : ∀ (m : Memory) (a : Nat), Memory.wf d m = true →
    Memory.wf d (Memory.writeList d m a bs) = true := by
  induction bs with
  | nil => intro m a h; exact h
  | cons b bs ih => intro m a h; exact ih _ _ (Memory.write_wf d m a b h)

/-- A byte reads as it was stored. -/
theorem Memory.read_write_self (d : Nat → Byte) (m : Memory) (a : Nat) (b : Byte) : Memory.read d (Memory.write d m a b) a = b :=
  SMap.get_set_self _ m a b

/-- Storing a byte changes no other. -/
theorem Memory.read_write_ne (d : Nat → Byte) (m : Memory) (a k : Nat) (b : Byte) (hk : k ≠ a) :
    Memory.read d (Memory.write d m a b) k = Memory.read d m k :=
  SMap.get_set_ne _ m a k b hk

/-- Storing bytes changes nothing outside them. -/
theorem Memory.read_writeList_outside (d : Nat → Byte) (bs : List Byte) : ∀ (m : Memory) (a k : Nat),
    (k < a ∨ a + bs.length ≤ k) → Memory.read d (Memory.writeList d m a bs) k = Memory.read d m k := by
  induction bs with
  | nil => intro m a k _; rfl
  | cons b bs ih =>
    intro m a k hk
    simp only [List.length_cons] at hk
    simp only [Memory.writeList]
    rw [ih _ _ _ (by omega)]
    exact Memory.read_write_ne d m a k b (by omega)

/-- A stored byte of a run reads as it was stored. -/
theorem Memory.read_writeList_inside (d : Nat → Byte) (bs : List Byte) : ∀ (m : Memory) (a i : Nat) (h : i < bs.length),
    Memory.read d (Memory.writeList d m a bs) (a + i) = bs[i] := by
  induction bs with
  | nil => intro m a i h; simp at h
  | cons b bs ih =>
    intro m a i h
    simp only [Memory.writeList]
    cases i with
    | zero =>
      rw [Memory.read_writeList_outside d bs _ _ _ (by omega)]
      exact Memory.read_write_self d m a b
    | succ i =>
      have := ih (Memory.write d m a b) (a + 1) i (by simpa using h)
      rw [show a + (i + 1) = a + 1 + i by omega, this]
      rfl

end Sys2Proof.Machine
end

