-- ==== Sys2Proof/Laws/State.lean ====
section
/-! SUPPORT. What the updates of the state leave: one lemma per field of `State` and of `Dev` per update, each true by definition. -/

namespace Sys2Proof.Machine

/-! ### The four parts of the state -/

@[simp] theorem State.with_pending_pending (s : State) (x : List Instr) : ({ s with pending := x } : State).pending = x := rfl
@[simp] theorem State.with_pending_array (s : State) (x : List Instr) : ({ s with pending := x } : State).array = s.array := rfl
@[simp] theorem State.with_pending_window (s : State) (x : List Instr) : ({ s with pending := x } : State).window = s.window := rfl
@[simp] theorem State.with_pending_dev (s : State) (x : List Instr) : ({ s with pending := x } : State).dev = s.dev := rfl
@[simp] theorem State.with_array_pending (s : State) (x : Memory) : ({ s with array := x } : State).pending = s.pending := rfl
@[simp] theorem State.with_array_array (s : State) (x : Memory) : ({ s with array := x } : State).array = x := rfl
@[simp] theorem State.with_array_window (s : State) (x : Memory) : ({ s with array := x } : State).window = s.window := rfl
@[simp] theorem State.with_array_dev (s : State) (x : Memory) : ({ s with array := x } : State).dev = s.dev := rfl
@[simp] theorem State.with_window_pending (s : State) (x : Memory) : ({ s with window := x } : State).pending = s.pending := rfl
@[simp] theorem State.with_window_array (s : State) (x : Memory) : ({ s with window := x } : State).array = s.array := rfl
@[simp] theorem State.with_window_window (s : State) (x : Memory) : ({ s with window := x } : State).window = x := rfl
@[simp] theorem State.with_window_dev (s : State) (x : Memory) : ({ s with window := x } : State).dev = s.dev := rfl
@[simp] theorem State.with_dev_pending (s : State) (x : Dev) : ({ s with dev := x } : State).pending = s.pending := rfl
@[simp] theorem State.with_dev_array (s : State) (x : Dev) : ({ s with dev := x } : State).array = s.array := rfl
@[simp] theorem State.with_dev_window (s : State) (x : Dev) : ({ s with dev := x } : State).window = s.window := rfl
@[simp] theorem State.with_dev_dev (s : State) (x : Dev) : ({ s with dev := x } : State).dev = x := rfl

/-! ### `Dev.setReg` -/

@[simp] theorem Dev.setReg_published (d : Dev) (off : Nat) (v : Word) : (d.setReg off v).published = d.published := rfl
@[simp] theorem Dev.setReg_pages (d : Dev) (off : Nat) (v : Word) : (d.setReg off v).pages = d.pages := rfl
@[simp] theorem Dev.setReg_comSeq (d : Dev) (off : Nat) (v : Word) : (d.setReg off v).comSeq = d.comSeq := rfl
@[simp] theorem Dev.setReg_comTick (d : Dev) (off : Nat) (v : Word) : (d.setReg off v).comTick = d.comTick := rfl
@[simp] theorem Dev.setReg_out (d : Dev) (off : Nat) (v : Word) : (d.setReg off v).out = d.out := rfl
@[simp] theorem Dev.setReg_tick (d : Dev) (off : Nat) (v : Word) : (d.setReg off v).tick = d.tick := rfl
@[simp] theorem Dev.setReg_draws (d : Dev) (off : Nat) (v : Word) : (d.setReg off v).draws = d.draws := rfl
@[simp] theorem Dev.setReg_supplyLost (d : Dev) (off : Nat) (v : Word) : (d.setReg off v).supplyLost = d.supplyLost := rfl
@[simp] theorem Dev.setReg_resetRun (d : Dev) (off : Nat) (v : Word) : (d.setReg off v).resetRun = d.resetRun := rfl
@[simp] theorem Dev.setReg_latHi (d : Dev) (off : Nat) (v : Word) : (d.setReg off v).latHi = d.latHi := rfl
@[simp] theorem Dev.setReg_accHead (d : Dev) (off : Nat) (v : Word) : (d.setReg off v).accHead = d.accHead := rfl
@[simp] theorem Dev.setReg_latEpoch (d : Dev) (off : Nat) (v : Word) : (d.setReg off v).latEpoch = d.latEpoch := rfl
@[simp] theorem Dev.setReg_incidents (d : Dev) (off : Nat) (v : Word) : (d.setReg off v).incidents = d.incidents := rfl
@[simp] theorem Dev.setReg_banks (d : Dev) (off : Nat) (v : Word) : (d.setReg off v).banks = d.banks := rfl
@[simp] theorem Dev.setReg_cap (d : Dev) (off : Nat) (v : Word) : (d.setReg off v).cap = d.cap := rfl
@[simp] theorem Dev.setReg_rp (d : Dev) (off : Nat) (v : Word) : (d.setReg off v).rp = d.rp := rfl
@[simp] theorem Dev.setReg_msixTbl (d : Dev) (off : Nat) (v : Word) : (d.setReg off v).msixTbl = d.msixTbl := rfl
@[simp] theorem Dev.setReg_pba (d : Dev) (off : Nat) (v : Word) : (d.setReg off v).pba = d.pba := rfl
@[simp] theorem Dev.setReg_cfg (d : Dev) (off : Nat) (v : Word) : (d.setReg off v).cfg = d.cfg := rfl
@[simp] theorem Dev.setReg_headDown (d : Dev) (off : Nat) (v : Word) : (d.setReg off v).headDown = d.headDown := rfl
@[simp] theorem Dev.setReg_bifNow (d : Dev) (off : Nat) (v : Word) : (d.setReg off v).bifNow = d.bifNow := rfl
@[simp] theorem Dev.setReg_ide (d : Dev) (off : Nat) (v : Word) : (d.setReg off v).ide = d.ide := rfl
@[simp] theorem Dev.setReg_ideUsed (d : Dev) (off : Nat) (v : Word) : (d.setReg off v).ideUsed = d.ideUsed := rfl
@[simp] theorem Dev.setReg_ptmBad (d : Dev) (off : Nat) (v : Word) : (d.setReg off v).ptmBad = d.ptmBad := rfl
@[simp] theorem Dev.setReg_ptmLast (d : Dev) (off : Nat) (v : Word) : (d.setReg off v).ptmLast = d.ptmLast := rfl
@[simp] theorem Dev.setReg_ptmGood (d : Dev) (off : Nat) (v : Word) : (d.setReg off v).ptmGood = d.ptmGood := rfl
@[simp] theorem Dev.setReg_shutState (d : Dev) (off : Nat) (v : Word) : (d.setReg off v).shutState = d.shutState := rfl
@[simp] theorem Dev.setReg_alertSet (d : Dev) (off : Nat) (v : Word) : (d.setReg off v).alertSet = d.alertSet := rfl
@[simp] theorem Dev.setReg_events (d : Dev) (off : Nat) (v : Word) : (d.setReg off v).events = d.events := rfl
@[simp] theorem Dev.setReg_pwDirty (d : Dev) (off : Nat) (v : Word) : (d.setReg off v).pwDirty = d.pwDirty := rfl
@[simp] theorem Dev.setReg_pwPoison (d : Dev) (off : Nat) (v : Word) : (d.setReg off v).pwPoison = d.pwPoison := rfl
@[simp] theorem Dev.setReg_pwUnmir (d : Dev) (off : Nat) (v : Word) : (d.setReg off v).pwUnmir = d.pwUnmir := rfl
@[simp] theorem Dev.setReg_gpfMark (d : Dev) (off : Nat) (v : Word) : (d.setReg off v).gpfMark = d.gpfMark := rfl
@[simp] theorem Dev.setReg_gpfRun (d : Dev) (off : Nat) (v : Word) : (d.setReg off v).gpfRun = d.gpfRun := rfl
@[simp] theorem Dev.setReg_queues (d : Dev) (off : Nat) (v : Word) : (d.setReg off v).queues = d.queues := rfl
@[simp] theorem Dev.setReg_fetchNo (d : Dev) (off : Nat) (v : Word) : (d.setReg off v).fetchNo = d.fetchNo := rfl
@[simp] theorem Dev.setReg_slices (d : Dev) (off : Nat) (v : Word) : (d.setReg off v).slices = d.slices := rfl
@[simp] theorem Dev.setReg_exp (d : Dev) (off : Nat) (v : Word) : (d.setReg off v).exp = d.exp := rfl
@[simp] theorem Dev.setReg_ctxs (d : Dev) (off : Nat) (v : Word) : (d.setReg off v).ctxs = d.ctxs := rfl
@[simp] theorem Dev.setReg_ctxStore (d : Dev) (off : Nat) (v : Word) : (d.setReg off v).ctxStore = d.ctxStore := rfl
@[simp] theorem Dev.setReg_kek (d : Dev) (off : Nat) (v : Word) : (d.setReg off v).kek = d.kek := rfl
@[simp] theorem Dev.setReg_xbufShown (d : Dev) (off : Nat) (v : Word) : (d.setReg off v).xbufShown = d.xbufShown := rfl
@[simp] theorem Dev.setReg_zeroing (d : Dev) (off : Nat) (v : Word) : (d.setReg off v).zeroing = d.zeroing := rfl
@[simp] theorem Dev.setReg_map (d : Dev) (off : Nat) (v : Word) : (d.setReg off v).map = d.map := rfl
@[simp] theorem Dev.setReg_mapPend (d : Dev) (off : Nat) (v : Word) : (d.setReg off v).mapPend = d.mapPend := rfl
@[simp] theorem Dev.setReg_resident (d : Dev) (off : Nat) (v : Word) : (d.setReg off v).resident = d.resident := rfl
@[simp] theorem Dev.setReg_refBits (d : Dev) (off : Nat) (v : Word) : (d.setReg off v).refBits = d.refBits := rfl
@[simp] theorem Dev.setReg_mapWant (d : Dev) (off : Nat) (v : Word) : (d.setReg off v).mapWant = d.mapWant := rfl
@[simp] theorem Dev.setReg_dirty (d : Dev) (off : Nat) (v : Word) : (d.setReg off v).dirty = d.dirty := rfl
@[simp] theorem Dev.setReg_lost (d : Dev) (off : Nat) (v : Word) : (d.setReg off v).lost = d.lost := rfl
@[simp] theorem Dev.setReg_dlog (d : Dev) (off : Nat) (v : Word) : (d.setReg off v).dlog = d.dlog := rfl
@[simp] theorem Dev.setReg_dlogStalled (d : Dev) (off : Nat) (v : Word) : (d.setReg off v).dlogStalled = d.dlogStalled := rfl
@[simp] theorem Dev.setReg_dlogRing (d : Dev) (off : Nat) (v : Word) : (d.setReg off v).dlogRing = d.dlogRing := rfl
@[simp] theorem Dev.setReg_metaAt (d : Dev) (off : Nat) (v : Word) : (d.setReg off v).metaAt = d.metaAt := rfl
@[simp] theorem Dev.setReg_bands (d : Dev) (off : Nat) (v : Word) : (d.setReg off v).bands = d.bands := rfl
@[simp] theorem Dev.setReg_closeSeq (d : Dev) (off : Nat) (v : Word) : (d.setReg off v).closeSeq = d.closeSeq := rfl
@[simp] theorem Dev.setReg_relocs (d : Dev) (off : Nat) (v : Word) : (d.setReg off v).relocs = d.relocs := rfl
@[simp] theorem Dev.setReg_cache (d : Dev) (off : Nat) (v : Word) : (d.setReg off v).cache = d.cache := rfl
@[simp] theorem Dev.setReg_flash (d : Dev) (off : Nat) (v : Word) : (d.setReg off v).flash = d.flash := rfl
@[simp] theorem Dev.setReg_elog (d : Dev) (off : Nat) (v : Word) : (d.setReg off v).elog = d.elog := rfl
@[simp] theorem Dev.setReg_gcCredit (d : Dev) (off : Nat) (v : Word) : (d.setReg off v).gcCredit = d.gcCredit := rfl
@[simp] theorem Dev.setReg_spareUsed (d : Dev) (off : Nat) (v : Word) : (d.setReg off v).spareUsed = d.spareUsed := rfl
@[simp] theorem Dev.setReg_rbUsed (d : Dev) (off : Nat) (v : Word) : (d.setReg off v).rbUsed = d.rbUsed := rfl
@[simp] theorem Dev.setReg_fills (d : Dev) (off : Nat) (v : Word) : (d.setReg off v).fills = d.fills := rfl
@[simp] theorem Dev.setReg_stripeBuf (d : Dev) (off : Nat) (v : Word) : (d.setReg off v).stripeBuf = d.stripeBuf := rfl
@[simp] theorem Dev.setReg_progd (d : Dev) (off : Nat) (v : Word) : (d.setReg off v).progd = d.progd := rfl
@[simp] theorem Dev.setReg_chunksOk (d : Dev) (off : Nat) (v : Word) : (d.setReg off v).chunksOk = d.chunksOk := rfl
@[simp] theorem Dev.setReg_bmDirty (d : Dev) (off : Nat) (v : Word) : (d.setReg off v).bmDirty = d.bmDirty := rfl
@[simp] theorem Dev.setReg_bmClear (d : Dev) (off : Nat) (v : Word) : (d.setReg off v).bmClear = d.bmClear := rfl
@[simp] theorem Dev.setReg_bmWait (d : Dev) (off : Nat) (v : Word) : (d.setReg off v).bmWait = d.bmWait := rfl
@[simp] theorem Dev.setReg_bmLogs (d : Dev) (off : Nat) (v : Word) : (d.setReg off v).bmLogs = d.bmLogs := rfl
@[simp] theorem Dev.setReg_rbQueue (d : Dev) (off : Nat) (v : Word) : (d.setReg off v).rbQueue = d.rbQueue := rfl
@[simp] theorem Dev.setReg_lostSlots (d : Dev) (off : Nat) (v : Word) : (d.setReg off v).lostSlots = d.lostSlots := rfl
@[simp] theorem Dev.setReg_scanPend (d : Dev) (off : Nat) (v : Word) : (d.setReg off v).scanPend = d.scanPend := rfl
@[simp] theorem Dev.setReg_ports (d : Dev) (off : Nat) (v : Word) : (d.setReg off v).ports = d.ports := rfl
@[simp] theorem Dev.setReg_bridges (d : Dev) (off : Nat) (v : Word) : (d.setReg off v).bridges = d.bridges := rfl
@[simp] theorem Dev.setReg_clsNow (d : Dev) (off : Nat) (v : Word) : (d.setReg off v).clsNow = d.clsNow := rfl
@[simp] theorem Dev.setReg_ageNow (d : Dev) (off : Nat) (v : Word) : (d.setReg off v).ageNow = d.ageNow := rfl
@[simp] theorem Dev.setReg_susNow (d : Dev) (off : Nat) (v : Word) : (d.setReg off v).susNow = d.susNow := rfl
@[simp] theorem Dev.setReg_rbNow (d : Dev) (off : Nat) (v : Word) : (d.setReg off v).rbNow = d.rbNow := rfl
@[simp] theorem Dev.setReg_tgTick (d : Dev) (off : Nat) (v : Word) : (d.setReg off v).tgTick = d.tgTick := rfl
@[simp] theorem Dev.setReg_timeFig (d : Dev) (off : Nat) (v : Word) : (d.setReg off v).timeFig = d.timeFig := rfl
@[simp] theorem Dev.setReg_timePre (d : Dev) (off : Nat) (v : Word) : (d.setReg off v).timePre = d.timePre := rfl
@[simp] theorem Dev.setReg_stepPend (d : Dev) (off : Nat) (v : Word) : (d.setReg off v).stepPend = d.stepPend := rfl
@[simp] theorem Dev.setReg_lossAt (d : Dev) (off : Nat) (v : Word) : (d.setReg off v).lossAt = d.lossAt := rfl
@[simp] theorem Dev.setReg_exGood (d : Dev) (off : Nat) (v : Word) : (d.setReg off v).exGood = d.exGood := rfl
@[simp] theorem Dev.setReg_exBad (d : Dev) (off : Nat) (v : Word) : (d.setReg off v).exBad = d.exBad := rfl
@[simp] theorem Dev.setReg_exLast (d : Dev) (off : Nat) (v : Word) : (d.setReg off v).exLast = d.exLast := rfl
@[simp] theorem Dev.setReg_slewDone (d : Dev) (off : Nat) (v : Word) : (d.setReg off v).slewDone = d.slewDone := rfl
@[simp] theorem Dev.setReg_leadCoarse (d : Dev) (off : Nat) (v : Word) : (d.setReg off v).leadCoarse = d.leadCoarse := rfl
@[simp] theorem Dev.setReg_trk (d : Dev) (off : Nat) (v : Word) : (d.setReg off v).trk = d.trk := rfl
@[simp] theorem Dev.setReg_fresh (d : Dev) (off : Nat) (v : Word) : (d.setReg off v).fresh = d.fresh := rfl
@[simp] theorem Dev.setReg_hdOut (d : Dev) (off : Nat) (v : Word) : (d.setReg off v).hdOut = d.hdOut := rfl
@[simp] theorem Dev.setReg_wkOut (d : Dev) (off : Nat) (v : Word) : (d.setReg off v).wkOut = d.wkOut := rfl
@[simp] theorem Dev.setReg_dpar (d : Dev) (off : Nat) (v : Word) : (d.setReg off v).dpar = d.dpar := rfl
@[simp] theorem Dev.setReg_coldPrev (d : Dev) (off : Nat) (v : Word) : (d.setReg off v).coldPrev = d.coldPrev := rfl
@[simp] theorem Dev.setReg_coldNow (d : Dev) (off : Nat) (v : Word) : (d.setReg off v).coldNow = d.coldNow := rfl
@[simp] theorem Dev.setReg_svSeen (d : Dev) (off : Nat) (v : Word) : (d.setReg off v).svSeen = d.svSeen := rfl
@[simp] theorem Dev.setReg_svStart (d : Dev) (off : Nat) (v : Word) : (d.setReg off v).svStart = d.svStart := rfl
@[simp] theorem Dev.setReg_svMoved (d : Dev) (off : Nat) (v : Word) : (d.setReg off v).svMoved = d.svMoved := rfl
@[simp] theorem Dev.setReg_rfshDays (d : Dev) (off : Nat) (v : Word) : (d.setReg off v).rfshDays = d.rfshDays := rfl
@[simp] theorem Dev.setReg_dayTick (d : Dev) (off : Nat) (v : Word) : (d.setReg off v).dayTick = d.dayTick := rfl
@[simp] theorem Dev.setReg_crLim (d : Dev) (off : Nat) (v : Word) : (d.setReg off v).crLim = d.crLim := rfl
@[simp] theorem Dev.setReg_crWait (d : Dev) (off : Nat) (v : Word) : (d.setReg off v).crWait = d.crWait := rfl
@[simp] theorem Dev.setReg_crHold (d : Dev) (off : Nat) (v : Word) : (d.setReg off v).crHold = d.crHold := rfl
@[simp] theorem Dev.setReg_hbmPoison (d : Dev) (off : Nat) (v : Word) : (d.setReg off v).hbmPoison = d.hbmPoison := rfl
@[simp] theorem Dev.setReg_hbmDead (d : Dev) (off : Nat) (v : Word) : (d.setReg off v).hbmDead = d.hbmDead := rfl
@[simp] theorem Dev.setReg_dlogBad (d : Dev) (off : Nat) (v : Word) : (d.setReg off v).dlogBad = d.dlogBad := rfl
@[simp] theorem Dev.setReg_hbmLog (d : Dev) (off : Nat) (v : Word) : (d.setReg off v).hbmLog = d.hbmLog := rfl
@[simp] theorem Dev.setReg_hbmRecent (d : Dev) (off : Nat) (v : Word) : (d.setReg off v).hbmRecent = d.hbmRecent := rfl
@[simp] theorem Dev.setReg_hbmRetired (d : Dev) (off : Nat) (v : Word) : (d.setReg off v).hbmRetired = d.hbmRetired := rfl
@[simp] theorem Dev.setReg_hbmBare (d : Dev) (off : Nat) (v : Word) : (d.setReg off v).hbmBare = d.hbmBare := rfl
@[simp] theorem Dev.setReg_scrLine (d : Dev) (off : Nat) (v : Word) : (d.setReg off v).scrLine = d.scrLine := rfl
@[simp] theorem Dev.setReg_scrStart (d : Dev) (off : Nat) (v : Word) : (d.setReg off v).scrStart = d.scrStart := rfl
@[simp] theorem Dev.setReg_sramStart (d : Dev) (off : Nat) (v : Word) : (d.setReg off v).sramStart = d.sramStart := rfl
@[simp] theorem Dev.setReg_sleepAt (d : Dev) (off : Nat) (v : Word) : (d.setReg off v).sleepAt = d.sleepAt := rfl
@[simp] theorem Dev.setReg_remapped (d : Dev) (off : Nat) (v : Word) : (d.setReg off v).remapped = d.remapped := rfl
@[simp] theorem Dev.setReg_arrCe (d : Dev) (off : Nat) (v : Word) : (d.setReg off v).arrCe = d.arrCe := rfl
@[simp] theorem Dev.setReg_ceWords (d : Dev) (off : Nat) (v : Word) : (d.setReg off v).ceWords = d.ceWords := rfl
@[simp] theorem Dev.setReg_coresOut (d : Dev) (off : Nat) (v : Word) : (d.setReg off v).coresOut = d.coresOut := rfl
@[simp] theorem Dev.setReg_coresHit (d : Dev) (off : Nat) (v : Word) : (d.setReg off v).coresHit = d.coresHit := rfl
@[simp] theorem Dev.setReg_redNo (d : Dev) (off : Nat) (v : Word) : (d.setReg off v).redNo = d.redNo := rfl
@[simp] theorem Dev.setReg_exhausted (d : Dev) (off : Nat) (v : Word) : (d.setReg off v).exhausted = d.exhausted := rfl
@[simp] theorem Dev.setReg_conds (d : Dev) (off : Nat) (v : Word) : (d.setReg off v).conds = d.conds := rfl
@[simp] theorem Dev.setReg_levelTick (d : Dev) (off : Nat) (v : Word) : (d.setReg off v).levelTick = d.levelTick := rfl
@[simp] theorem Dev.setReg_levelEpoch (d : Dev) (off : Nat) (v : Word) : (d.setReg off v).levelEpoch = d.levelEpoch := rfl
@[simp] theorem Dev.setReg_peDays (d : Dev) (off : Nat) (v : Word) : (d.setReg off v).peDays = d.peDays := rfl
@[simp] theorem Dev.setReg_fmtDays (d : Dev) (off : Nat) (v : Word) : (d.setReg off v).fmtDays = d.fmtDays := rfl
@[simp] theorem Dev.setReg_spareFmt (d : Dev) (off : Nat) (v : Word) : (d.setReg off v).spareFmt = d.spareFmt := rfl
@[simp] theorem Dev.setReg_incWait (d : Dev) (off : Nat) (v : Word) : (d.setReg off v).incWait = d.incWait := rfl
@[simp] theorem Dev.setReg_sbWait (d : Dev) (off : Nat) (v : Word) : (d.setReg off v).sbWait = d.sbWait := rfl
@[simp] theorem Dev.setReg_pwDead (d : Dev) (off : Nat) (v : Word) : (d.setReg off v).pwDead = d.pwDead := rfl
@[simp] theorem Dev.setReg_pwCured (d : Dev) (off : Nat) (v : Word) : (d.setReg off v).pwCured = d.pwCured := rfl
@[simp] theorem Dev.setReg_ctxPend (d : Dev) (off : Nat) (v : Word) : (d.setReg off v).ctxPend = d.ctxPend := rfl
@[simp] theorem Dev.setReg_resync (d : Dev) (off : Nat) (v : Word) : (d.setReg off v).resync = d.resync := rfl
@[simp] theorem Dev.setReg_giving (d : Dev) (off : Nat) (v : Word) : (d.setReg off v).giving = d.giving := rfl
@[simp] theorem Dev.setReg_wants (d : Dev) (off : Nat) (v : Word) : (d.setReg off v).wants = d.wants := rfl
@[simp] theorem Dev.setReg_leaving (d : Dev) (off : Nat) (v : Word) : (d.setReg off v).leaving = d.leaving := rfl
@[simp] theorem Dev.setReg_metaBack (d : Dev) (off : Nat) (v : Word) : (d.setReg off v).metaBack = d.metaBack := rfl
@[simp] theorem Dev.setReg_scanBands (d : Dev) (off : Nat) (v : Word) : (d.setReg off v).scanBands = d.scanBands := rfl
@[simp] theorem Dev.setReg_dacc (d : Dev) (off : Nat) (v : Word) : (d.setReg off v).dacc = d.dacc := rfl
@[simp] theorem Dev.setReg_fmtOut (d : Dev) (off : Nat) (v : Word) : (d.setReg off v).fmtOut = d.fmtOut := rfl
@[simp] theorem Dev.setReg_apWait (d : Dev) (off : Nat) (v : Word) : (d.setReg off v).apWait = d.apWait := rfl
@[simp] theorem Dev.setReg_rebuildFmt (d : Dev) (off : Nat) (v : Word) : (d.setReg off v).rebuildFmt = d.rebuildFmt := rfl
@[simp] theorem Dev.setReg_endur (d : Dev) (off : Nat) (v : Word) : (d.setReg off v).endur = d.endur := rfl
@[simp] theorem Dev.setReg_gTx (d : Dev) (off : Nat) (v : Word) : (d.setReg off v).gTx = d.gTx := rfl
@[simp] theorem Dev.setReg_gRx (d : Dev) (off : Nat) (v : Word) : (d.setReg off v).gRx = d.gRx := rfl
@[simp] theorem Dev.setReg_gPend (d : Dev) (off : Nat) (v : Word) : (d.setReg off v).gPend = d.gPend := rfl
@[simp] theorem Dev.setReg_gPrev (d : Dev) (off : Nat) (v : Word) : (d.setReg off v).gPrev = d.gPrev := rfl
@[simp] theorem Dev.setReg_serves (d : Dev) (off : Nat) (v : Word) : (d.setReg off v).serves = d.serves := rfl
@[simp] theorem Dev.setReg_syncEnd (d : Dev) (off : Nat) (v : Word) : (d.setReg off v).syncEnd = d.syncEnd := rfl
@[simp] theorem Dev.setReg_rekeyOut (d : Dev) (off : Nat) (v : Word) : (d.setReg off v).rekeyOut = d.rekeyOut := rfl
@[simp] theorem Dev.setReg_sesTx (d : Dev) (off : Nat) (v : Word) : (d.setReg off v).sesTx = d.sesTx := rfl
@[simp] theorem Dev.setReg_sesTxNew (d : Dev) (off : Nat) (v : Word) : (d.setReg off v).sesTxNew = d.sesTxNew := rfl
@[simp] theorem Dev.setReg_sesRx (d : Dev) (off : Nat) (v : Word) : (d.setReg off v).sesRx = d.sesRx := rfl
@[simp] theorem Dev.setReg_sesRxNew (d : Dev) (off : Nat) (v : Word) : (d.setReg off v).sesRxNew = d.sesRxNew := rfl
@[simp] theorem Dev.setReg_shelfNew (d : Dev) (off : Nat) (v : Word) : (d.setReg off v).shelfNew = d.shelfNew := rfl
@[simp] theorem Dev.setReg_gSaid (d : Dev) (off : Nat) (v : Word) : (d.setReg off v).gSaid = d.gSaid := rfl
@[simp] theorem Dev.setReg_shelf (d : Dev) (off : Nat) (v : Word) : (d.setReg off v).shelf = d.shelf := rfl
@[simp] theorem Dev.setReg_pairKey (d : Dev) (off : Nat) (v : Word) : (d.setReg off v).pairKey = d.pairKey := rfl
@[simp] theorem Dev.setReg_gLastRx (d : Dev) (off : Nat) (v : Word) : (d.setReg off v).gLastRx = d.gLastRx := rfl
@[simp] theorem Dev.setReg_gLastTx (d : Dev) (off : Nat) (v : Word) : (d.setReg off v).gLastTx = d.gLastTx := rfl
@[simp] theorem Dev.setReg_twinUsed (d : Dev) (off : Nat) (v : Word) : (d.setReg off v).twinUsed = d.twinUsed := rfl
@[simp] theorem Dev.setReg_twinState (d : Dev) (off : Nat) (v : Word) : (d.setReg off v).twinState = d.twinState := rfl
@[simp] theorem Dev.setReg_twinPtm (d : Dev) (off : Nat) (v : Word) : (d.setReg off v).twinPtm = d.twinPtm := rfl
@[simp] theorem Dev.setReg_decided (d : Dev) (off : Nat) (v : Word) : (d.setReg off v).decided = d.decided := rfl
@[simp] theorem Dev.setReg_decidedEp (d : Dev) (off : Nat) (v : Word) : (d.setReg off v).decidedEp = d.decidedEp := rfl
@[simp] theorem Dev.setReg_taking (d : Dev) (off : Nat) (v : Word) : (d.setReg off v).taking = d.taking := rfl
@[simp] theorem Dev.setReg_takes (d : Dev) (off : Nat) (v : Word) : (d.setReg off v).takes = d.takes := rfl
@[simp] theorem Dev.setReg_twinSlices (d : Dev) (off : Nat) (v : Word) : (d.setReg off v).twinSlices = d.twinSlices := rfl
@[simp] theorem Dev.setReg_twinVers (d : Dev) (off : Nat) (v : Word) : (d.setReg off v).twinVers = d.twinVers := rfl
@[simp] theorem Dev.setReg_twinCtxs (d : Dev) (off : Nat) (v : Word) : (d.setReg off v).twinCtxs = d.twinCtxs := rfl
@[simp] theorem Dev.setReg_twinRegions (d : Dev) (off : Nat) (v : Word) : (d.setReg off v).twinRegions = d.twinRegions := rfl
@[simp] theorem Dev.setReg_pwTwin (d : Dev) (off : Nat) (v : Word) : (d.setReg off v).pwTwin = d.pwTwin := rfl
@[simp] theorem Dev.setReg_freeQ (d : Dev) (off : Nat) (v : Word) : (d.setReg off v).freeQ = d.freeQ := rfl
@[simp] theorem Dev.setReg_hbCtl (d : Dev) (off : Nat) (v : Word) : (d.setReg off v).hbCtl = d.hbCtl := rfl
@[simp] theorem Dev.setReg_pairStart (d : Dev) (off : Nat) (v : Word) : (d.setReg off v).pairStart = d.pairStart := rfl
@[simp] theorem Dev.setReg_doms (d : Dev) (off : Nat) (v : Word) : (d.setReg off v).doms = d.doms := rfl
@[simp] theorem Dev.setReg_nvm (d : Dev) (off : Nat) (v : Word) : (d.setReg off v).nvm = d.nvm := rfl
@[simp] theorem Dev.setReg_dumpAt (d : Dev) (off : Nat) (v : Word) : (d.setReg off v).dumpAt = d.dumpAt := rfl
@[simp] theorem Dev.setReg_dumpSrc (d : Dev) (off : Nat) (v : Word) : (d.setReg off v).dumpSrc = d.dumpSrc := rfl
@[simp] theorem Dev.setReg_stayDown (d : Dev) (off : Nat) (v : Word) : (d.setReg off v).stayDown = d.stayDown := rfl
@[simp] theorem Dev.setReg_nHost (d : Dev) (off : Nat) (v : Word) : (d.setReg off v).nHost = d.nHost := rfl
@[simp] theorem Dev.setReg_nFirm (d : Dev) (off : Nat) (v : Word) : (d.setReg off v).nFirm = d.nFirm := rfl
@[simp] theorem Dev.setReg_nRun (d : Dev) (off : Nat) (v : Word) : (d.setReg off v).nRun = d.nRun := rfl
@[simp] theorem Dev.setReg_nSus (d : Dev) (off : Nat) (v : Word) : (d.setReg off v).nSus = d.nSus := rfl
@[simp] theorem Dev.setReg_nSec (d : Dev) (off : Nat) (v : Word) : (d.setReg off v).nSec = d.nSec := rfl
@[simp] theorem Dev.setReg_entryTgt (d : Dev) (off : Nat) (v : Word) : (d.setReg off v).entryTgt = d.entryTgt := rfl
@[simp] theorem Dev.setReg_bring (d : Dev) (off : Nat) (v : Word) : (d.setReg off v).bring = d.bring := rfl
@[simp] theorem Dev.setReg_enMain (d : Dev) (off : Nat) (v : Word) : (d.setReg off v).enMain = d.enMain := rfl
@[simp] theorem Dev.setReg_pgMain (d : Dev) (off : Nat) (v : Word) : (d.setReg off v).pgMain = d.pgMain := rfl
@[simp] theorem Dev.setReg_aoUp (d : Dev) (off : Nat) (v : Word) : (d.setReg off v).aoUp = d.aoUp := rfl
@[simp] theorem Dev.setReg_pgTry (d : Dev) (off : Nat) (v : Word) : (d.setReg off v).pgTry = d.pgTry := rfl
@[simp] theorem Dev.setReg_t0 (d : Dev) (off : Nat) (v : Word) : (d.setReg off v).t0 = d.t0 := rfl
@[simp] theorem Dev.setReg_restored (d : Dev) (off : Nat) (v : Word) : (d.setReg off v).restored = d.restored := rfl
@[simp] theorem Dev.setReg_counted (d : Dev) (off : Nat) (v : Word) : (d.setReg off v).counted = d.counted := rfl
@[simp] theorem Dev.setReg_resetDefer (d : Dev) (off : Nat) (v : Word) : (d.setReg off v).resetDefer = d.resetDefer := rfl
@[simp] theorem Dev.setReg_timeSave (d : Dev) (off : Nat) (v : Word) : (d.setReg off v).timeSave = d.timeSave := rfl
@[simp] theorem Dev.setReg_saveDue (d : Dev) (off : Nat) (v : Word) : (d.setReg off v).saveDue = d.saveDue := rfl
@[simp] theorem Dev.setReg_wakeHeld (d : Dev) (off : Nat) (v : Word) : (d.setReg off v).wakeHeld = d.wakeHeld := rfl
@[simp] theorem Dev.setReg_down (d : Dev) (off : Nat) (v : Word) : (d.setReg off v).down = d.down := rfl
@[simp] theorem Dev.setReg_pins (d : Dev) (off : Nat) (v : Word) : (d.setReg off v).pins = d.pins := rfl

/-! ### `Dev.setFld` -/

@[simp] theorem Dev.setFld_published (d : Dev) (off hi lo v : Nat) : (d.setFld off hi lo v).published = d.published := rfl
@[simp] theorem Dev.setFld_pages (d : Dev) (off hi lo v : Nat) : (d.setFld off hi lo v).pages = d.pages := rfl
@[simp] theorem Dev.setFld_comSeq (d : Dev) (off hi lo v : Nat) : (d.setFld off hi lo v).comSeq = d.comSeq := rfl
@[simp] theorem Dev.setFld_comTick (d : Dev) (off hi lo v : Nat) : (d.setFld off hi lo v).comTick = d.comTick := rfl
@[simp] theorem Dev.setFld_out (d : Dev) (off hi lo v : Nat) : (d.setFld off hi lo v).out = d.out := rfl
@[simp] theorem Dev.setFld_tick (d : Dev) (off hi lo v : Nat) : (d.setFld off hi lo v).tick = d.tick := rfl
@[simp] theorem Dev.setFld_draws (d : Dev) (off hi lo v : Nat) : (d.setFld off hi lo v).draws = d.draws := rfl
@[simp] theorem Dev.setFld_supplyLost (d : Dev) (off hi lo v : Nat) : (d.setFld off hi lo v).supplyLost = d.supplyLost := rfl
@[simp] theorem Dev.setFld_resetRun (d : Dev) (off hi lo v : Nat) : (d.setFld off hi lo v).resetRun = d.resetRun := rfl
@[simp] theorem Dev.setFld_latHi (d : Dev) (off hi lo v : Nat) : (d.setFld off hi lo v).latHi = d.latHi := rfl
@[simp] theorem Dev.setFld_accHead (d : Dev) (off hi lo v : Nat) : (d.setFld off hi lo v).accHead = d.accHead := rfl
@[simp] theorem Dev.setFld_latEpoch (d : Dev) (off hi lo v : Nat) : (d.setFld off hi lo v).latEpoch = d.latEpoch := rfl
@[simp] theorem Dev.setFld_incidents (d : Dev) (off hi lo v : Nat) : (d.setFld off hi lo v).incidents = d.incidents := rfl
@[simp] theorem Dev.setFld_banks (d : Dev) (off hi lo v : Nat) : (d.setFld off hi lo v).banks = d.banks := rfl
@[simp] theorem Dev.setFld_cap (d : Dev) (off hi lo v : Nat) : (d.setFld off hi lo v).cap = d.cap := rfl
@[simp] theorem Dev.setFld_rp (d : Dev) (off hi lo v : Nat) : (d.setFld off hi lo v).rp = d.rp := rfl
@[simp] theorem Dev.setFld_msixTbl (d : Dev) (off hi lo v : Nat) : (d.setFld off hi lo v).msixTbl = d.msixTbl := rfl
@[simp] theorem Dev.setFld_pba (d : Dev) (off hi lo v : Nat) : (d.setFld off hi lo v).pba = d.pba := rfl
@[simp] theorem Dev.setFld_cfg (d : Dev) (off hi lo v : Nat) : (d.setFld off hi lo v).cfg = d.cfg := rfl
@[simp] theorem Dev.setFld_headDown (d : Dev) (off hi lo v : Nat) : (d.setFld off hi lo v).headDown = d.headDown := rfl
@[simp] theorem Dev.setFld_bifNow (d : Dev) (off hi lo v : Nat) : (d.setFld off hi lo v).bifNow = d.bifNow := rfl
@[simp] theorem Dev.setFld_ide (d : Dev) (off hi lo v : Nat) : (d.setFld off hi lo v).ide = d.ide := rfl
@[simp] theorem Dev.setFld_ideUsed (d : Dev) (off hi lo v : Nat) : (d.setFld off hi lo v).ideUsed = d.ideUsed := rfl
@[simp] theorem Dev.setFld_ptmBad (d : Dev) (off hi lo v : Nat) : (d.setFld off hi lo v).ptmBad = d.ptmBad := rfl
@[simp] theorem Dev.setFld_ptmLast (d : Dev) (off hi lo v : Nat) : (d.setFld off hi lo v).ptmLast = d.ptmLast := rfl
@[simp] theorem Dev.setFld_ptmGood (d : Dev) (off hi lo v : Nat) : (d.setFld off hi lo v).ptmGood = d.ptmGood := rfl
@[simp] theorem Dev.setFld_shutState (d : Dev) (off hi lo v : Nat) : (d.setFld off hi lo v).shutState = d.shutState := rfl
@[simp] theorem Dev.setFld_alertSet (d : Dev) (off hi lo v : Nat) : (d.setFld off hi lo v).alertSet = d.alertSet := rfl
@[simp] theorem Dev.setFld_events (d : Dev) (off hi lo v : Nat) : (d.setFld off hi lo v).events = d.events := rfl
@[simp] theorem Dev.setFld_pwDirty (d : Dev) (off hi lo v : Nat) : (d.setFld off hi lo v).pwDirty = d.pwDirty := rfl
@[simp] theorem Dev.setFld_pwPoison (d : Dev) (off hi lo v : Nat) : (d.setFld off hi lo v).pwPoison = d.pwPoison := rfl
@[simp] theorem Dev.setFld_pwUnmir (d : Dev) (off hi lo v : Nat) : (d.setFld off hi lo v).pwUnmir = d.pwUnmir := rfl
@[simp] theorem Dev.setFld_gpfMark (d : Dev) (off hi lo v : Nat) : (d.setFld off hi lo v).gpfMark = d.gpfMark := rfl
@[simp] theorem Dev.setFld_gpfRun (d : Dev) (off hi lo v : Nat) : (d.setFld off hi lo v).gpfRun = d.gpfRun := rfl
@[simp] theorem Dev.setFld_queues (d : Dev) (off hi lo v : Nat) : (d.setFld off hi lo v).queues = d.queues := rfl
@[simp] theorem Dev.setFld_fetchNo (d : Dev) (off hi lo v : Nat) : (d.setFld off hi lo v).fetchNo = d.fetchNo := rfl
@[simp] theorem Dev.setFld_slices (d : Dev) (off hi lo v : Nat) : (d.setFld off hi lo v).slices = d.slices := rfl
@[simp] theorem Dev.setFld_exp (d : Dev) (off hi lo v : Nat) : (d.setFld off hi lo v).exp = d.exp := rfl
@[simp] theorem Dev.setFld_ctxs (d : Dev) (off hi lo v : Nat) : (d.setFld off hi lo v).ctxs = d.ctxs := rfl
@[simp] theorem Dev.setFld_ctxStore (d : Dev) (off hi lo v : Nat) : (d.setFld off hi lo v).ctxStore = d.ctxStore := rfl
@[simp] theorem Dev.setFld_kek (d : Dev) (off hi lo v : Nat) : (d.setFld off hi lo v).kek = d.kek := rfl
@[simp] theorem Dev.setFld_xbufShown (d : Dev) (off hi lo v : Nat) : (d.setFld off hi lo v).xbufShown = d.xbufShown := rfl
@[simp] theorem Dev.setFld_zeroing (d : Dev) (off hi lo v : Nat) : (d.setFld off hi lo v).zeroing = d.zeroing := rfl
@[simp] theorem Dev.setFld_map (d : Dev) (off hi lo v : Nat) : (d.setFld off hi lo v).map = d.map := rfl
@[simp] theorem Dev.setFld_mapPend (d : Dev) (off hi lo v : Nat) : (d.setFld off hi lo v).mapPend = d.mapPend := rfl
@[simp] theorem Dev.setFld_resident (d : Dev) (off hi lo v : Nat) : (d.setFld off hi lo v).resident = d.resident := rfl
@[simp] theorem Dev.setFld_refBits (d : Dev) (off hi lo v : Nat) : (d.setFld off hi lo v).refBits = d.refBits := rfl
@[simp] theorem Dev.setFld_mapWant (d : Dev) (off hi lo v : Nat) : (d.setFld off hi lo v).mapWant = d.mapWant := rfl
@[simp] theorem Dev.setFld_dirty (d : Dev) (off hi lo v : Nat) : (d.setFld off hi lo v).dirty = d.dirty := rfl
@[simp] theorem Dev.setFld_lost (d : Dev) (off hi lo v : Nat) : (d.setFld off hi lo v).lost = d.lost := rfl
@[simp] theorem Dev.setFld_dlog (d : Dev) (off hi lo v : Nat) : (d.setFld off hi lo v).dlog = d.dlog := rfl
@[simp] theorem Dev.setFld_dlogStalled (d : Dev) (off hi lo v : Nat) : (d.setFld off hi lo v).dlogStalled = d.dlogStalled := rfl
@[simp] theorem Dev.setFld_dlogRing (d : Dev) (off hi lo v : Nat) : (d.setFld off hi lo v).dlogRing = d.dlogRing := rfl
@[simp] theorem Dev.setFld_metaAt (d : Dev) (off hi lo v : Nat) : (d.setFld off hi lo v).metaAt = d.metaAt := rfl
@[simp] theorem Dev.setFld_bands (d : Dev) (off hi lo v : Nat) : (d.setFld off hi lo v).bands = d.bands := rfl
@[simp] theorem Dev.setFld_closeSeq (d : Dev) (off hi lo v : Nat) : (d.setFld off hi lo v).closeSeq = d.closeSeq := rfl
@[simp] theorem Dev.setFld_relocs (d : Dev) (off hi lo v : Nat) : (d.setFld off hi lo v).relocs = d.relocs := rfl
@[simp] theorem Dev.setFld_cache (d : Dev) (off hi lo v : Nat) : (d.setFld off hi lo v).cache = d.cache := rfl
@[simp] theorem Dev.setFld_flash (d : Dev) (off hi lo v : Nat) : (d.setFld off hi lo v).flash = d.flash := rfl
@[simp] theorem Dev.setFld_elog (d : Dev) (off hi lo v : Nat) : (d.setFld off hi lo v).elog = d.elog := rfl
@[simp] theorem Dev.setFld_gcCredit (d : Dev) (off hi lo v : Nat) : (d.setFld off hi lo v).gcCredit = d.gcCredit := rfl
@[simp] theorem Dev.setFld_spareUsed (d : Dev) (off hi lo v : Nat) : (d.setFld off hi lo v).spareUsed = d.spareUsed := rfl
@[simp] theorem Dev.setFld_rbUsed (d : Dev) (off hi lo v : Nat) : (d.setFld off hi lo v).rbUsed = d.rbUsed := rfl
@[simp] theorem Dev.setFld_fills (d : Dev) (off hi lo v : Nat) : (d.setFld off hi lo v).fills = d.fills := rfl
@[simp] theorem Dev.setFld_stripeBuf (d : Dev) (off hi lo v : Nat) : (d.setFld off hi lo v).stripeBuf = d.stripeBuf := rfl
@[simp] theorem Dev.setFld_progd (d : Dev) (off hi lo v : Nat) : (d.setFld off hi lo v).progd = d.progd := rfl
@[simp] theorem Dev.setFld_chunksOk (d : Dev) (off hi lo v : Nat) : (d.setFld off hi lo v).chunksOk = d.chunksOk := rfl
@[simp] theorem Dev.setFld_bmDirty (d : Dev) (off hi lo v : Nat) : (d.setFld off hi lo v).bmDirty = d.bmDirty := rfl
@[simp] theorem Dev.setFld_bmClear (d : Dev) (off hi lo v : Nat) : (d.setFld off hi lo v).bmClear = d.bmClear := rfl
@[simp] theorem Dev.setFld_bmWait (d : Dev) (off hi lo v : Nat) : (d.setFld off hi lo v).bmWait = d.bmWait := rfl
@[simp] theorem Dev.setFld_bmLogs (d : Dev) (off hi lo v : Nat) : (d.setFld off hi lo v).bmLogs = d.bmLogs := rfl
@[simp] theorem Dev.setFld_rbQueue (d : Dev) (off hi lo v : Nat) : (d.setFld off hi lo v).rbQueue = d.rbQueue := rfl
@[simp] theorem Dev.setFld_lostSlots (d : Dev) (off hi lo v : Nat) : (d.setFld off hi lo v).lostSlots = d.lostSlots := rfl
@[simp] theorem Dev.setFld_scanPend (d : Dev) (off hi lo v : Nat) : (d.setFld off hi lo v).scanPend = d.scanPend := rfl
@[simp] theorem Dev.setFld_ports (d : Dev) (off hi lo v : Nat) : (d.setFld off hi lo v).ports = d.ports := rfl
@[simp] theorem Dev.setFld_bridges (d : Dev) (off hi lo v : Nat) : (d.setFld off hi lo v).bridges = d.bridges := rfl
@[simp] theorem Dev.setFld_clsNow (d : Dev) (off hi lo v : Nat) : (d.setFld off hi lo v).clsNow = d.clsNow := rfl
@[simp] theorem Dev.setFld_ageNow (d : Dev) (off hi lo v : Nat) : (d.setFld off hi lo v).ageNow = d.ageNow := rfl
@[simp] theorem Dev.setFld_susNow (d : Dev) (off hi lo v : Nat) : (d.setFld off hi lo v).susNow = d.susNow := rfl
@[simp] theorem Dev.setFld_rbNow (d : Dev) (off hi lo v : Nat) : (d.setFld off hi lo v).rbNow = d.rbNow := rfl
@[simp] theorem Dev.setFld_tgTick (d : Dev) (off hi lo v : Nat) : (d.setFld off hi lo v).tgTick = d.tgTick := rfl
@[simp] theorem Dev.setFld_timeFig (d : Dev) (off hi lo v : Nat) : (d.setFld off hi lo v).timeFig = d.timeFig := rfl
@[simp] theorem Dev.setFld_timePre (d : Dev) (off hi lo v : Nat) : (d.setFld off hi lo v).timePre = d.timePre := rfl
@[simp] theorem Dev.setFld_stepPend (d : Dev) (off hi lo v : Nat) : (d.setFld off hi lo v).stepPend = d.stepPend := rfl
@[simp] theorem Dev.setFld_lossAt (d : Dev) (off hi lo v : Nat) : (d.setFld off hi lo v).lossAt = d.lossAt := rfl
@[simp] theorem Dev.setFld_exGood (d : Dev) (off hi lo v : Nat) : (d.setFld off hi lo v).exGood = d.exGood := rfl
@[simp] theorem Dev.setFld_exBad (d : Dev) (off hi lo v : Nat) : (d.setFld off hi lo v).exBad = d.exBad := rfl
@[simp] theorem Dev.setFld_exLast (d : Dev) (off hi lo v : Nat) : (d.setFld off hi lo v).exLast = d.exLast := rfl
@[simp] theorem Dev.setFld_slewDone (d : Dev) (off hi lo v : Nat) : (d.setFld off hi lo v).slewDone = d.slewDone := rfl
@[simp] theorem Dev.setFld_leadCoarse (d : Dev) (off hi lo v : Nat) : (d.setFld off hi lo v).leadCoarse = d.leadCoarse := rfl
@[simp] theorem Dev.setFld_trk (d : Dev) (off hi lo v : Nat) : (d.setFld off hi lo v).trk = d.trk := rfl
@[simp] theorem Dev.setFld_fresh (d : Dev) (off hi lo v : Nat) : (d.setFld off hi lo v).fresh = d.fresh := rfl
@[simp] theorem Dev.setFld_hdOut (d : Dev) (off hi lo v : Nat) : (d.setFld off hi lo v).hdOut = d.hdOut := rfl
@[simp] theorem Dev.setFld_wkOut (d : Dev) (off hi lo v : Nat) : (d.setFld off hi lo v).wkOut = d.wkOut := rfl
@[simp] theorem Dev.setFld_dpar (d : Dev) (off hi lo v : Nat) : (d.setFld off hi lo v).dpar = d.dpar := rfl
@[simp] theorem Dev.setFld_coldPrev (d : Dev) (off hi lo v : Nat) : (d.setFld off hi lo v).coldPrev = d.coldPrev := rfl
@[simp] theorem Dev.setFld_coldNow (d : Dev) (off hi lo v : Nat) : (d.setFld off hi lo v).coldNow = d.coldNow := rfl
@[simp] theorem Dev.setFld_svSeen (d : Dev) (off hi lo v : Nat) : (d.setFld off hi lo v).svSeen = d.svSeen := rfl
@[simp] theorem Dev.setFld_svStart (d : Dev) (off hi lo v : Nat) : (d.setFld off hi lo v).svStart = d.svStart := rfl
@[simp] theorem Dev.setFld_svMoved (d : Dev) (off hi lo v : Nat) : (d.setFld off hi lo v).svMoved = d.svMoved := rfl
@[simp] theorem Dev.setFld_rfshDays (d : Dev) (off hi lo v : Nat) : (d.setFld off hi lo v).rfshDays = d.rfshDays := rfl
@[simp] theorem Dev.setFld_dayTick (d : Dev) (off hi lo v : Nat) : (d.setFld off hi lo v).dayTick = d.dayTick := rfl
@[simp] theorem Dev.setFld_crLim (d : Dev) (off hi lo v : Nat) : (d.setFld off hi lo v).crLim = d.crLim := rfl
@[simp] theorem Dev.setFld_crWait (d : Dev) (off hi lo v : Nat) : (d.setFld off hi lo v).crWait = d.crWait := rfl
@[simp] theorem Dev.setFld_crHold (d : Dev) (off hi lo v : Nat) : (d.setFld off hi lo v).crHold = d.crHold := rfl
@[simp] theorem Dev.setFld_hbmPoison (d : Dev) (off hi lo v : Nat) : (d.setFld off hi lo v).hbmPoison = d.hbmPoison := rfl
@[simp] theorem Dev.setFld_hbmDead (d : Dev) (off hi lo v : Nat) : (d.setFld off hi lo v).hbmDead = d.hbmDead := rfl
@[simp] theorem Dev.setFld_dlogBad (d : Dev) (off hi lo v : Nat) : (d.setFld off hi lo v).dlogBad = d.dlogBad := rfl
@[simp] theorem Dev.setFld_hbmLog (d : Dev) (off hi lo v : Nat) : (d.setFld off hi lo v).hbmLog = d.hbmLog := rfl
@[simp] theorem Dev.setFld_hbmRecent (d : Dev) (off hi lo v : Nat) : (d.setFld off hi lo v).hbmRecent = d.hbmRecent := rfl
@[simp] theorem Dev.setFld_hbmRetired (d : Dev) (off hi lo v : Nat) : (d.setFld off hi lo v).hbmRetired = d.hbmRetired := rfl
@[simp] theorem Dev.setFld_hbmBare (d : Dev) (off hi lo v : Nat) : (d.setFld off hi lo v).hbmBare = d.hbmBare := rfl
@[simp] theorem Dev.setFld_scrLine (d : Dev) (off hi lo v : Nat) : (d.setFld off hi lo v).scrLine = d.scrLine := rfl
@[simp] theorem Dev.setFld_scrStart (d : Dev) (off hi lo v : Nat) : (d.setFld off hi lo v).scrStart = d.scrStart := rfl
@[simp] theorem Dev.setFld_sramStart (d : Dev) (off hi lo v : Nat) : (d.setFld off hi lo v).sramStart = d.sramStart := rfl
@[simp] theorem Dev.setFld_sleepAt (d : Dev) (off hi lo v : Nat) : (d.setFld off hi lo v).sleepAt = d.sleepAt := rfl
@[simp] theorem Dev.setFld_remapped (d : Dev) (off hi lo v : Nat) : (d.setFld off hi lo v).remapped = d.remapped := rfl
@[simp] theorem Dev.setFld_arrCe (d : Dev) (off hi lo v : Nat) : (d.setFld off hi lo v).arrCe = d.arrCe := rfl
@[simp] theorem Dev.setFld_ceWords (d : Dev) (off hi lo v : Nat) : (d.setFld off hi lo v).ceWords = d.ceWords := rfl
@[simp] theorem Dev.setFld_coresOut (d : Dev) (off hi lo v : Nat) : (d.setFld off hi lo v).coresOut = d.coresOut := rfl
@[simp] theorem Dev.setFld_coresHit (d : Dev) (off hi lo v : Nat) : (d.setFld off hi lo v).coresHit = d.coresHit := rfl
@[simp] theorem Dev.setFld_redNo (d : Dev) (off hi lo v : Nat) : (d.setFld off hi lo v).redNo = d.redNo := rfl
@[simp] theorem Dev.setFld_exhausted (d : Dev) (off hi lo v : Nat) : (d.setFld off hi lo v).exhausted = d.exhausted := rfl
@[simp] theorem Dev.setFld_conds (d : Dev) (off hi lo v : Nat) : (d.setFld off hi lo v).conds = d.conds := rfl
@[simp] theorem Dev.setFld_levelTick (d : Dev) (off hi lo v : Nat) : (d.setFld off hi lo v).levelTick = d.levelTick := rfl
@[simp] theorem Dev.setFld_levelEpoch (d : Dev) (off hi lo v : Nat) : (d.setFld off hi lo v).levelEpoch = d.levelEpoch := rfl
@[simp] theorem Dev.setFld_peDays (d : Dev) (off hi lo v : Nat) : (d.setFld off hi lo v).peDays = d.peDays := rfl
@[simp] theorem Dev.setFld_fmtDays (d : Dev) (off hi lo v : Nat) : (d.setFld off hi lo v).fmtDays = d.fmtDays := rfl
@[simp] theorem Dev.setFld_spareFmt (d : Dev) (off hi lo v : Nat) : (d.setFld off hi lo v).spareFmt = d.spareFmt := rfl
@[simp] theorem Dev.setFld_incWait (d : Dev) (off hi lo v : Nat) : (d.setFld off hi lo v).incWait = d.incWait := rfl
@[simp] theorem Dev.setFld_sbWait (d : Dev) (off hi lo v : Nat) : (d.setFld off hi lo v).sbWait = d.sbWait := rfl
@[simp] theorem Dev.setFld_pwDead (d : Dev) (off hi lo v : Nat) : (d.setFld off hi lo v).pwDead = d.pwDead := rfl
@[simp] theorem Dev.setFld_pwCured (d : Dev) (off hi lo v : Nat) : (d.setFld off hi lo v).pwCured = d.pwCured := rfl
@[simp] theorem Dev.setFld_ctxPend (d : Dev) (off hi lo v : Nat) : (d.setFld off hi lo v).ctxPend = d.ctxPend := rfl
@[simp] theorem Dev.setFld_resync (d : Dev) (off hi lo v : Nat) : (d.setFld off hi lo v).resync = d.resync := rfl
@[simp] theorem Dev.setFld_giving (d : Dev) (off hi lo v : Nat) : (d.setFld off hi lo v).giving = d.giving := rfl
@[simp] theorem Dev.setFld_wants (d : Dev) (off hi lo v : Nat) : (d.setFld off hi lo v).wants = d.wants := rfl
@[simp] theorem Dev.setFld_leaving (d : Dev) (off hi lo v : Nat) : (d.setFld off hi lo v).leaving = d.leaving := rfl
@[simp] theorem Dev.setFld_metaBack (d : Dev) (off hi lo v : Nat) : (d.setFld off hi lo v).metaBack = d.metaBack := rfl
@[simp] theorem Dev.setFld_scanBands (d : Dev) (off hi lo v : Nat) : (d.setFld off hi lo v).scanBands = d.scanBands := rfl
@[simp] theorem Dev.setFld_dacc (d : Dev) (off hi lo v : Nat) : (d.setFld off hi lo v).dacc = d.dacc := rfl
@[simp] theorem Dev.setFld_fmtOut (d : Dev) (off hi lo v : Nat) : (d.setFld off hi lo v).fmtOut = d.fmtOut := rfl
@[simp] theorem Dev.setFld_apWait (d : Dev) (off hi lo v : Nat) : (d.setFld off hi lo v).apWait = d.apWait := rfl
@[simp] theorem Dev.setFld_rebuildFmt (d : Dev) (off hi lo v : Nat) : (d.setFld off hi lo v).rebuildFmt = d.rebuildFmt := rfl
@[simp] theorem Dev.setFld_endur (d : Dev) (off hi lo v : Nat) : (d.setFld off hi lo v).endur = d.endur := rfl
@[simp] theorem Dev.setFld_gTx (d : Dev) (off hi lo v : Nat) : (d.setFld off hi lo v).gTx = d.gTx := rfl
@[simp] theorem Dev.setFld_gRx (d : Dev) (off hi lo v : Nat) : (d.setFld off hi lo v).gRx = d.gRx := rfl
@[simp] theorem Dev.setFld_gPend (d : Dev) (off hi lo v : Nat) : (d.setFld off hi lo v).gPend = d.gPend := rfl
@[simp] theorem Dev.setFld_gPrev (d : Dev) (off hi lo v : Nat) : (d.setFld off hi lo v).gPrev = d.gPrev := rfl
@[simp] theorem Dev.setFld_serves (d : Dev) (off hi lo v : Nat) : (d.setFld off hi lo v).serves = d.serves := rfl
@[simp] theorem Dev.setFld_syncEnd (d : Dev) (off hi lo v : Nat) : (d.setFld off hi lo v).syncEnd = d.syncEnd := rfl
@[simp] theorem Dev.setFld_rekeyOut (d : Dev) (off hi lo v : Nat) : (d.setFld off hi lo v).rekeyOut = d.rekeyOut := rfl
@[simp] theorem Dev.setFld_sesTx (d : Dev) (off hi lo v : Nat) : (d.setFld off hi lo v).sesTx = d.sesTx := rfl
@[simp] theorem Dev.setFld_sesTxNew (d : Dev) (off hi lo v : Nat) : (d.setFld off hi lo v).sesTxNew = d.sesTxNew := rfl
@[simp] theorem Dev.setFld_sesRx (d : Dev) (off hi lo v : Nat) : (d.setFld off hi lo v).sesRx = d.sesRx := rfl
@[simp] theorem Dev.setFld_sesRxNew (d : Dev) (off hi lo v : Nat) : (d.setFld off hi lo v).sesRxNew = d.sesRxNew := rfl
@[simp] theorem Dev.setFld_shelfNew (d : Dev) (off hi lo v : Nat) : (d.setFld off hi lo v).shelfNew = d.shelfNew := rfl
@[simp] theorem Dev.setFld_gSaid (d : Dev) (off hi lo v : Nat) : (d.setFld off hi lo v).gSaid = d.gSaid := rfl
@[simp] theorem Dev.setFld_shelf (d : Dev) (off hi lo v : Nat) : (d.setFld off hi lo v).shelf = d.shelf := rfl
@[simp] theorem Dev.setFld_pairKey (d : Dev) (off hi lo v : Nat) : (d.setFld off hi lo v).pairKey = d.pairKey := rfl
@[simp] theorem Dev.setFld_gLastRx (d : Dev) (off hi lo v : Nat) : (d.setFld off hi lo v).gLastRx = d.gLastRx := rfl
@[simp] theorem Dev.setFld_gLastTx (d : Dev) (off hi lo v : Nat) : (d.setFld off hi lo v).gLastTx = d.gLastTx := rfl
@[simp] theorem Dev.setFld_twinUsed (d : Dev) (off hi lo v : Nat) : (d.setFld off hi lo v).twinUsed = d.twinUsed := rfl
@[simp] theorem Dev.setFld_twinState (d : Dev) (off hi lo v : Nat) : (d.setFld off hi lo v).twinState = d.twinState := rfl
@[simp] theorem Dev.setFld_twinPtm (d : Dev) (off hi lo v : Nat) : (d.setFld off hi lo v).twinPtm = d.twinPtm := rfl
@[simp] theorem Dev.setFld_decided (d : Dev) (off hi lo v : Nat) : (d.setFld off hi lo v).decided = d.decided := rfl
@[simp] theorem Dev.setFld_decidedEp (d : Dev) (off hi lo v : Nat) : (d.setFld off hi lo v).decidedEp = d.decidedEp := rfl
@[simp] theorem Dev.setFld_taking (d : Dev) (off hi lo v : Nat) : (d.setFld off hi lo v).taking = d.taking := rfl
@[simp] theorem Dev.setFld_takes (d : Dev) (off hi lo v : Nat) : (d.setFld off hi lo v).takes = d.takes := rfl
@[simp] theorem Dev.setFld_twinSlices (d : Dev) (off hi lo v : Nat) : (d.setFld off hi lo v).twinSlices = d.twinSlices := rfl
@[simp] theorem Dev.setFld_twinVers (d : Dev) (off hi lo v : Nat) : (d.setFld off hi lo v).twinVers = d.twinVers := rfl
@[simp] theorem Dev.setFld_twinCtxs (d : Dev) (off hi lo v : Nat) : (d.setFld off hi lo v).twinCtxs = d.twinCtxs := rfl
@[simp] theorem Dev.setFld_twinRegions (d : Dev) (off hi lo v : Nat) : (d.setFld off hi lo v).twinRegions = d.twinRegions := rfl
@[simp] theorem Dev.setFld_pwTwin (d : Dev) (off hi lo v : Nat) : (d.setFld off hi lo v).pwTwin = d.pwTwin := rfl
@[simp] theorem Dev.setFld_freeQ (d : Dev) (off hi lo v : Nat) : (d.setFld off hi lo v).freeQ = d.freeQ := rfl
@[simp] theorem Dev.setFld_hbCtl (d : Dev) (off hi lo v : Nat) : (d.setFld off hi lo v).hbCtl = d.hbCtl := rfl
@[simp] theorem Dev.setFld_pairStart (d : Dev) (off hi lo v : Nat) : (d.setFld off hi lo v).pairStart = d.pairStart := rfl
@[simp] theorem Dev.setFld_doms (d : Dev) (off hi lo v : Nat) : (d.setFld off hi lo v).doms = d.doms := rfl
@[simp] theorem Dev.setFld_nvm (d : Dev) (off hi lo v : Nat) : (d.setFld off hi lo v).nvm = d.nvm := rfl
@[simp] theorem Dev.setFld_dumpAt (d : Dev) (off hi lo v : Nat) : (d.setFld off hi lo v).dumpAt = d.dumpAt := rfl
@[simp] theorem Dev.setFld_dumpSrc (d : Dev) (off hi lo v : Nat) : (d.setFld off hi lo v).dumpSrc = d.dumpSrc := rfl
@[simp] theorem Dev.setFld_stayDown (d : Dev) (off hi lo v : Nat) : (d.setFld off hi lo v).stayDown = d.stayDown := rfl
@[simp] theorem Dev.setFld_nHost (d : Dev) (off hi lo v : Nat) : (d.setFld off hi lo v).nHost = d.nHost := rfl
@[simp] theorem Dev.setFld_nFirm (d : Dev) (off hi lo v : Nat) : (d.setFld off hi lo v).nFirm = d.nFirm := rfl
@[simp] theorem Dev.setFld_nRun (d : Dev) (off hi lo v : Nat) : (d.setFld off hi lo v).nRun = d.nRun := rfl
@[simp] theorem Dev.setFld_nSus (d : Dev) (off hi lo v : Nat) : (d.setFld off hi lo v).nSus = d.nSus := rfl
@[simp] theorem Dev.setFld_nSec (d : Dev) (off hi lo v : Nat) : (d.setFld off hi lo v).nSec = d.nSec := rfl
@[simp] theorem Dev.setFld_entryTgt (d : Dev) (off hi lo v : Nat) : (d.setFld off hi lo v).entryTgt = d.entryTgt := rfl
@[simp] theorem Dev.setFld_bring (d : Dev) (off hi lo v : Nat) : (d.setFld off hi lo v).bring = d.bring := rfl
@[simp] theorem Dev.setFld_enMain (d : Dev) (off hi lo v : Nat) : (d.setFld off hi lo v).enMain = d.enMain := rfl
@[simp] theorem Dev.setFld_pgMain (d : Dev) (off hi lo v : Nat) : (d.setFld off hi lo v).pgMain = d.pgMain := rfl
@[simp] theorem Dev.setFld_aoUp (d : Dev) (off hi lo v : Nat) : (d.setFld off hi lo v).aoUp = d.aoUp := rfl
@[simp] theorem Dev.setFld_pgTry (d : Dev) (off hi lo v : Nat) : (d.setFld off hi lo v).pgTry = d.pgTry := rfl
@[simp] theorem Dev.setFld_t0 (d : Dev) (off hi lo v : Nat) : (d.setFld off hi lo v).t0 = d.t0 := rfl
@[simp] theorem Dev.setFld_restored (d : Dev) (off hi lo v : Nat) : (d.setFld off hi lo v).restored = d.restored := rfl
@[simp] theorem Dev.setFld_counted (d : Dev) (off hi lo v : Nat) : (d.setFld off hi lo v).counted = d.counted := rfl
@[simp] theorem Dev.setFld_resetDefer (d : Dev) (off hi lo v : Nat) : (d.setFld off hi lo v).resetDefer = d.resetDefer := rfl
@[simp] theorem Dev.setFld_timeSave (d : Dev) (off hi lo v : Nat) : (d.setFld off hi lo v).timeSave = d.timeSave := rfl
@[simp] theorem Dev.setFld_saveDue (d : Dev) (off hi lo v : Nat) : (d.setFld off hi lo v).saveDue = d.saveDue := rfl
@[simp] theorem Dev.setFld_wakeHeld (d : Dev) (off hi lo v : Nat) : (d.setFld off hi lo v).wakeHeld = d.wakeHeld := rfl
@[simp] theorem Dev.setFld_down (d : Dev) (off hi lo v : Nat) : (d.setFld off hi lo v).down = d.down := rfl
@[simp] theorem Dev.setFld_pins (d : Dev) (off hi lo v : Nat) : (d.setFld off hi lo v).pins = d.pins := rfl

/-! ### `Dev.setFlag` -/

@[simp] theorem Dev.setFlag_published (d : Dev) (off n : Nat) (b : Bool) : (d.setFlag off n b).published = d.published := rfl
@[simp] theorem Dev.setFlag_pages (d : Dev) (off n : Nat) (b : Bool) : (d.setFlag off n b).pages = d.pages := rfl
@[simp] theorem Dev.setFlag_comSeq (d : Dev) (off n : Nat) (b : Bool) : (d.setFlag off n b).comSeq = d.comSeq := rfl
@[simp] theorem Dev.setFlag_comTick (d : Dev) (off n : Nat) (b : Bool) : (d.setFlag off n b).comTick = d.comTick := rfl
@[simp] theorem Dev.setFlag_out (d : Dev) (off n : Nat) (b : Bool) : (d.setFlag off n b).out = d.out := rfl
@[simp] theorem Dev.setFlag_tick (d : Dev) (off n : Nat) (b : Bool) : (d.setFlag off n b).tick = d.tick := rfl
@[simp] theorem Dev.setFlag_draws (d : Dev) (off n : Nat) (b : Bool) : (d.setFlag off n b).draws = d.draws := rfl
@[simp] theorem Dev.setFlag_supplyLost (d : Dev) (off n : Nat) (b : Bool) : (d.setFlag off n b).supplyLost = d.supplyLost := rfl
@[simp] theorem Dev.setFlag_resetRun (d : Dev) (off n : Nat) (b : Bool) : (d.setFlag off n b).resetRun = d.resetRun := rfl
@[simp] theorem Dev.setFlag_latHi (d : Dev) (off n : Nat) (b : Bool) : (d.setFlag off n b).latHi = d.latHi := rfl
@[simp] theorem Dev.setFlag_accHead (d : Dev) (off n : Nat) (b : Bool) : (d.setFlag off n b).accHead = d.accHead := rfl
@[simp] theorem Dev.setFlag_latEpoch (d : Dev) (off n : Nat) (b : Bool) : (d.setFlag off n b).latEpoch = d.latEpoch := rfl
@[simp] theorem Dev.setFlag_incidents (d : Dev) (off n : Nat) (b : Bool) : (d.setFlag off n b).incidents = d.incidents := rfl
@[simp] theorem Dev.setFlag_banks (d : Dev) (off n : Nat) (b : Bool) : (d.setFlag off n b).banks = d.banks := rfl
@[simp] theorem Dev.setFlag_cap (d : Dev) (off n : Nat) (b : Bool) : (d.setFlag off n b).cap = d.cap := rfl
@[simp] theorem Dev.setFlag_rp (d : Dev) (off n : Nat) (b : Bool) : (d.setFlag off n b).rp = d.rp := rfl
@[simp] theorem Dev.setFlag_msixTbl (d : Dev) (off n : Nat) (b : Bool) : (d.setFlag off n b).msixTbl = d.msixTbl := rfl
@[simp] theorem Dev.setFlag_pba (d : Dev) (off n : Nat) (b : Bool) : (d.setFlag off n b).pba = d.pba := rfl
@[simp] theorem Dev.setFlag_cfg (d : Dev) (off n : Nat) (b : Bool) : (d.setFlag off n b).cfg = d.cfg := rfl
@[simp] theorem Dev.setFlag_headDown (d : Dev) (off n : Nat) (b : Bool) : (d.setFlag off n b).headDown = d.headDown := rfl
@[simp] theorem Dev.setFlag_bifNow (d : Dev) (off n : Nat) (b : Bool) : (d.setFlag off n b).bifNow = d.bifNow := rfl
@[simp] theorem Dev.setFlag_ide (d : Dev) (off n : Nat) (b : Bool) : (d.setFlag off n b).ide = d.ide := rfl
@[simp] theorem Dev.setFlag_ideUsed (d : Dev) (off n : Nat) (b : Bool) : (d.setFlag off n b).ideUsed = d.ideUsed := rfl
@[simp] theorem Dev.setFlag_ptmBad (d : Dev) (off n : Nat) (b : Bool) : (d.setFlag off n b).ptmBad = d.ptmBad := rfl
@[simp] theorem Dev.setFlag_ptmLast (d : Dev) (off n : Nat) (b : Bool) : (d.setFlag off n b).ptmLast = d.ptmLast := rfl
@[simp] theorem Dev.setFlag_ptmGood (d : Dev) (off n : Nat) (b : Bool) : (d.setFlag off n b).ptmGood = d.ptmGood := rfl
@[simp] theorem Dev.setFlag_shutState (d : Dev) (off n : Nat) (b : Bool) : (d.setFlag off n b).shutState = d.shutState := rfl
@[simp] theorem Dev.setFlag_alertSet (d : Dev) (off n : Nat) (b : Bool) : (d.setFlag off n b).alertSet = d.alertSet := rfl
@[simp] theorem Dev.setFlag_events (d : Dev) (off n : Nat) (b : Bool) : (d.setFlag off n b).events = d.events := rfl
@[simp] theorem Dev.setFlag_pwDirty (d : Dev) (off n : Nat) (b : Bool) : (d.setFlag off n b).pwDirty = d.pwDirty := rfl
@[simp] theorem Dev.setFlag_pwPoison (d : Dev) (off n : Nat) (b : Bool) : (d.setFlag off n b).pwPoison = d.pwPoison := rfl
@[simp] theorem Dev.setFlag_pwUnmir (d : Dev) (off n : Nat) (b : Bool) : (d.setFlag off n b).pwUnmir = d.pwUnmir := rfl
@[simp] theorem Dev.setFlag_gpfMark (d : Dev) (off n : Nat) (b : Bool) : (d.setFlag off n b).gpfMark = d.gpfMark := rfl
@[simp] theorem Dev.setFlag_gpfRun (d : Dev) (off n : Nat) (b : Bool) : (d.setFlag off n b).gpfRun = d.gpfRun := rfl
@[simp] theorem Dev.setFlag_queues (d : Dev) (off n : Nat) (b : Bool) : (d.setFlag off n b).queues = d.queues := rfl
@[simp] theorem Dev.setFlag_fetchNo (d : Dev) (off n : Nat) (b : Bool) : (d.setFlag off n b).fetchNo = d.fetchNo := rfl
@[simp] theorem Dev.setFlag_slices (d : Dev) (off n : Nat) (b : Bool) : (d.setFlag off n b).slices = d.slices := rfl
@[simp] theorem Dev.setFlag_exp (d : Dev) (off n : Nat) (b : Bool) : (d.setFlag off n b).exp = d.exp := rfl
@[simp] theorem Dev.setFlag_ctxs (d : Dev) (off n : Nat) (b : Bool) : (d.setFlag off n b).ctxs = d.ctxs := rfl
@[simp] theorem Dev.setFlag_ctxStore (d : Dev) (off n : Nat) (b : Bool) : (d.setFlag off n b).ctxStore = d.ctxStore := rfl
@[simp] theorem Dev.setFlag_kek (d : Dev) (off n : Nat) (b : Bool) : (d.setFlag off n b).kek = d.kek := rfl
@[simp] theorem Dev.setFlag_xbufShown (d : Dev) (off n : Nat) (b : Bool) : (d.setFlag off n b).xbufShown = d.xbufShown := rfl
@[simp] theorem Dev.setFlag_zeroing (d : Dev) (off n : Nat) (b : Bool) : (d.setFlag off n b).zeroing = d.zeroing := rfl
@[simp] theorem Dev.setFlag_map (d : Dev) (off n : Nat) (b : Bool) : (d.setFlag off n b).map = d.map := rfl
@[simp] theorem Dev.setFlag_mapPend (d : Dev) (off n : Nat) (b : Bool) : (d.setFlag off n b).mapPend = d.mapPend := rfl
@[simp] theorem Dev.setFlag_resident (d : Dev) (off n : Nat) (b : Bool) : (d.setFlag off n b).resident = d.resident := rfl
@[simp] theorem Dev.setFlag_refBits (d : Dev) (off n : Nat) (b : Bool) : (d.setFlag off n b).refBits = d.refBits := rfl
@[simp] theorem Dev.setFlag_mapWant (d : Dev) (off n : Nat) (b : Bool) : (d.setFlag off n b).mapWant = d.mapWant := rfl
@[simp] theorem Dev.setFlag_dirty (d : Dev) (off n : Nat) (b : Bool) : (d.setFlag off n b).dirty = d.dirty := rfl
@[simp] theorem Dev.setFlag_lost (d : Dev) (off n : Nat) (b : Bool) : (d.setFlag off n b).lost = d.lost := rfl
@[simp] theorem Dev.setFlag_dlog (d : Dev) (off n : Nat) (b : Bool) : (d.setFlag off n b).dlog = d.dlog := rfl
@[simp] theorem Dev.setFlag_dlogStalled (d : Dev) (off n : Nat) (b : Bool) : (d.setFlag off n b).dlogStalled = d.dlogStalled := rfl
@[simp] theorem Dev.setFlag_dlogRing (d : Dev) (off n : Nat) (b : Bool) : (d.setFlag off n b).dlogRing = d.dlogRing := rfl
@[simp] theorem Dev.setFlag_metaAt (d : Dev) (off n : Nat) (b : Bool) : (d.setFlag off n b).metaAt = d.metaAt := rfl
@[simp] theorem Dev.setFlag_bands (d : Dev) (off n : Nat) (b : Bool) : (d.setFlag off n b).bands = d.bands := rfl
@[simp] theorem Dev.setFlag_closeSeq (d : Dev) (off n : Nat) (b : Bool) : (d.setFlag off n b).closeSeq = d.closeSeq := rfl
@[simp] theorem Dev.setFlag_relocs (d : Dev) (off n : Nat) (b : Bool) : (d.setFlag off n b).relocs = d.relocs := rfl
@[simp] theorem Dev.setFlag_cache (d : Dev) (off n : Nat) (b : Bool) : (d.setFlag off n b).cache = d.cache := rfl
@[simp] theorem Dev.setFlag_flash (d : Dev) (off n : Nat) (b : Bool) : (d.setFlag off n b).flash = d.flash := rfl
@[simp] theorem Dev.setFlag_elog (d : Dev) (off n : Nat) (b : Bool) : (d.setFlag off n b).elog = d.elog := rfl
@[simp] theorem Dev.setFlag_gcCredit (d : Dev) (off n : Nat) (b : Bool) : (d.setFlag off n b).gcCredit = d.gcCredit := rfl
@[simp] theorem Dev.setFlag_spareUsed (d : Dev) (off n : Nat) (b : Bool) : (d.setFlag off n b).spareUsed = d.spareUsed := rfl
@[simp] theorem Dev.setFlag_rbUsed (d : Dev) (off n : Nat) (b : Bool) : (d.setFlag off n b).rbUsed = d.rbUsed := rfl
@[simp] theorem Dev.setFlag_fills (d : Dev) (off n : Nat) (b : Bool) : (d.setFlag off n b).fills = d.fills := rfl
@[simp] theorem Dev.setFlag_stripeBuf (d : Dev) (off n : Nat) (b : Bool) : (d.setFlag off n b).stripeBuf = d.stripeBuf := rfl
@[simp] theorem Dev.setFlag_progd (d : Dev) (off n : Nat) (b : Bool) : (d.setFlag off n b).progd = d.progd := rfl
@[simp] theorem Dev.setFlag_chunksOk (d : Dev) (off n : Nat) (b : Bool) : (d.setFlag off n b).chunksOk = d.chunksOk := rfl
@[simp] theorem Dev.setFlag_bmDirty (d : Dev) (off n : Nat) (b : Bool) : (d.setFlag off n b).bmDirty = d.bmDirty := rfl
@[simp] theorem Dev.setFlag_bmClear (d : Dev) (off n : Nat) (b : Bool) : (d.setFlag off n b).bmClear = d.bmClear := rfl
@[simp] theorem Dev.setFlag_bmWait (d : Dev) (off n : Nat) (b : Bool) : (d.setFlag off n b).bmWait = d.bmWait := rfl
@[simp] theorem Dev.setFlag_bmLogs (d : Dev) (off n : Nat) (b : Bool) : (d.setFlag off n b).bmLogs = d.bmLogs := rfl
@[simp] theorem Dev.setFlag_rbQueue (d : Dev) (off n : Nat) (b : Bool) : (d.setFlag off n b).rbQueue = d.rbQueue := rfl
@[simp] theorem Dev.setFlag_lostSlots (d : Dev) (off n : Nat) (b : Bool) : (d.setFlag off n b).lostSlots = d.lostSlots := rfl
@[simp] theorem Dev.setFlag_scanPend (d : Dev) (off n : Nat) (b : Bool) : (d.setFlag off n b).scanPend = d.scanPend := rfl
@[simp] theorem Dev.setFlag_ports (d : Dev) (off n : Nat) (b : Bool) : (d.setFlag off n b).ports = d.ports := rfl
@[simp] theorem Dev.setFlag_bridges (d : Dev) (off n : Nat) (b : Bool) : (d.setFlag off n b).bridges = d.bridges := rfl
@[simp] theorem Dev.setFlag_clsNow (d : Dev) (off n : Nat) (b : Bool) : (d.setFlag off n b).clsNow = d.clsNow := rfl
@[simp] theorem Dev.setFlag_ageNow (d : Dev) (off n : Nat) (b : Bool) : (d.setFlag off n b).ageNow = d.ageNow := rfl
@[simp] theorem Dev.setFlag_susNow (d : Dev) (off n : Nat) (b : Bool) : (d.setFlag off n b).susNow = d.susNow := rfl
@[simp] theorem Dev.setFlag_rbNow (d : Dev) (off n : Nat) (b : Bool) : (d.setFlag off n b).rbNow = d.rbNow := rfl
@[simp] theorem Dev.setFlag_tgTick (d : Dev) (off n : Nat) (b : Bool) : (d.setFlag off n b).tgTick = d.tgTick := rfl
@[simp] theorem Dev.setFlag_timeFig (d : Dev) (off n : Nat) (b : Bool) : (d.setFlag off n b).timeFig = d.timeFig := rfl
@[simp] theorem Dev.setFlag_timePre (d : Dev) (off n : Nat) (b : Bool) : (d.setFlag off n b).timePre = d.timePre := rfl
@[simp] theorem Dev.setFlag_stepPend (d : Dev) (off n : Nat) (b : Bool) : (d.setFlag off n b).stepPend = d.stepPend := rfl
@[simp] theorem Dev.setFlag_lossAt (d : Dev) (off n : Nat) (b : Bool) : (d.setFlag off n b).lossAt = d.lossAt := rfl
@[simp] theorem Dev.setFlag_exGood (d : Dev) (off n : Nat) (b : Bool) : (d.setFlag off n b).exGood = d.exGood := rfl
@[simp] theorem Dev.setFlag_exBad (d : Dev) (off n : Nat) (b : Bool) : (d.setFlag off n b).exBad = d.exBad := rfl
@[simp] theorem Dev.setFlag_exLast (d : Dev) (off n : Nat) (b : Bool) : (d.setFlag off n b).exLast = d.exLast := rfl
@[simp] theorem Dev.setFlag_slewDone (d : Dev) (off n : Nat) (b : Bool) : (d.setFlag off n b).slewDone = d.slewDone := rfl
@[simp] theorem Dev.setFlag_leadCoarse (d : Dev) (off n : Nat) (b : Bool) : (d.setFlag off n b).leadCoarse = d.leadCoarse := rfl
@[simp] theorem Dev.setFlag_trk (d : Dev) (off n : Nat) (b : Bool) : (d.setFlag off n b).trk = d.trk := rfl
@[simp] theorem Dev.setFlag_fresh (d : Dev) (off n : Nat) (b : Bool) : (d.setFlag off n b).fresh = d.fresh := rfl
@[simp] theorem Dev.setFlag_hdOut (d : Dev) (off n : Nat) (b : Bool) : (d.setFlag off n b).hdOut = d.hdOut := rfl
@[simp] theorem Dev.setFlag_wkOut (d : Dev) (off n : Nat) (b : Bool) : (d.setFlag off n b).wkOut = d.wkOut := rfl
@[simp] theorem Dev.setFlag_dpar (d : Dev) (off n : Nat) (b : Bool) : (d.setFlag off n b).dpar = d.dpar := rfl
@[simp] theorem Dev.setFlag_coldPrev (d : Dev) (off n : Nat) (b : Bool) : (d.setFlag off n b).coldPrev = d.coldPrev := rfl
@[simp] theorem Dev.setFlag_coldNow (d : Dev) (off n : Nat) (b : Bool) : (d.setFlag off n b).coldNow = d.coldNow := rfl
@[simp] theorem Dev.setFlag_svSeen (d : Dev) (off n : Nat) (b : Bool) : (d.setFlag off n b).svSeen = d.svSeen := rfl
@[simp] theorem Dev.setFlag_svStart (d : Dev) (off n : Nat) (b : Bool) : (d.setFlag off n b).svStart = d.svStart := rfl
@[simp] theorem Dev.setFlag_svMoved (d : Dev) (off n : Nat) (b : Bool) : (d.setFlag off n b).svMoved = d.svMoved := rfl
@[simp] theorem Dev.setFlag_rfshDays (d : Dev) (off n : Nat) (b : Bool) : (d.setFlag off n b).rfshDays = d.rfshDays := rfl
@[simp] theorem Dev.setFlag_dayTick (d : Dev) (off n : Nat) (b : Bool) : (d.setFlag off n b).dayTick = d.dayTick := rfl
@[simp] theorem Dev.setFlag_crLim (d : Dev) (off n : Nat) (b : Bool) : (d.setFlag off n b).crLim = d.crLim := rfl
@[simp] theorem Dev.setFlag_crWait (d : Dev) (off n : Nat) (b : Bool) : (d.setFlag off n b).crWait = d.crWait := rfl
@[simp] theorem Dev.setFlag_crHold (d : Dev) (off n : Nat) (b : Bool) : (d.setFlag off n b).crHold = d.crHold := rfl
@[simp] theorem Dev.setFlag_hbmPoison (d : Dev) (off n : Nat) (b : Bool) : (d.setFlag off n b).hbmPoison = d.hbmPoison := rfl
@[simp] theorem Dev.setFlag_hbmDead (d : Dev) (off n : Nat) (b : Bool) : (d.setFlag off n b).hbmDead = d.hbmDead := rfl
@[simp] theorem Dev.setFlag_dlogBad (d : Dev) (off n : Nat) (b : Bool) : (d.setFlag off n b).dlogBad = d.dlogBad := rfl
@[simp] theorem Dev.setFlag_hbmLog (d : Dev) (off n : Nat) (b : Bool) : (d.setFlag off n b).hbmLog = d.hbmLog := rfl
@[simp] theorem Dev.setFlag_hbmRecent (d : Dev) (off n : Nat) (b : Bool) : (d.setFlag off n b).hbmRecent = d.hbmRecent := rfl
@[simp] theorem Dev.setFlag_hbmRetired (d : Dev) (off n : Nat) (b : Bool) : (d.setFlag off n b).hbmRetired = d.hbmRetired := rfl
@[simp] theorem Dev.setFlag_hbmBare (d : Dev) (off n : Nat) (b : Bool) : (d.setFlag off n b).hbmBare = d.hbmBare := rfl
@[simp] theorem Dev.setFlag_scrLine (d : Dev) (off n : Nat) (b : Bool) : (d.setFlag off n b).scrLine = d.scrLine := rfl
@[simp] theorem Dev.setFlag_scrStart (d : Dev) (off n : Nat) (b : Bool) : (d.setFlag off n b).scrStart = d.scrStart := rfl
@[simp] theorem Dev.setFlag_sramStart (d : Dev) (off n : Nat) (b : Bool) : (d.setFlag off n b).sramStart = d.sramStart := rfl
@[simp] theorem Dev.setFlag_sleepAt (d : Dev) (off n : Nat) (b : Bool) : (d.setFlag off n b).sleepAt = d.sleepAt := rfl
@[simp] theorem Dev.setFlag_remapped (d : Dev) (off n : Nat) (b : Bool) : (d.setFlag off n b).remapped = d.remapped := rfl
@[simp] theorem Dev.setFlag_arrCe (d : Dev) (off n : Nat) (b : Bool) : (d.setFlag off n b).arrCe = d.arrCe := rfl
@[simp] theorem Dev.setFlag_ceWords (d : Dev) (off n : Nat) (b : Bool) : (d.setFlag off n b).ceWords = d.ceWords := rfl
@[simp] theorem Dev.setFlag_coresOut (d : Dev) (off n : Nat) (b : Bool) : (d.setFlag off n b).coresOut = d.coresOut := rfl
@[simp] theorem Dev.setFlag_coresHit (d : Dev) (off n : Nat) (b : Bool) : (d.setFlag off n b).coresHit = d.coresHit := rfl
@[simp] theorem Dev.setFlag_redNo (d : Dev) (off n : Nat) (b : Bool) : (d.setFlag off n b).redNo = d.redNo := rfl
@[simp] theorem Dev.setFlag_exhausted (d : Dev) (off n : Nat) (b : Bool) : (d.setFlag off n b).exhausted = d.exhausted := rfl
@[simp] theorem Dev.setFlag_conds (d : Dev) (off n : Nat) (b : Bool) : (d.setFlag off n b).conds = d.conds := rfl
@[simp] theorem Dev.setFlag_levelTick (d : Dev) (off n : Nat) (b : Bool) : (d.setFlag off n b).levelTick = d.levelTick := rfl
@[simp] theorem Dev.setFlag_levelEpoch (d : Dev) (off n : Nat) (b : Bool) : (d.setFlag off n b).levelEpoch = d.levelEpoch := rfl
@[simp] theorem Dev.setFlag_peDays (d : Dev) (off n : Nat) (b : Bool) : (d.setFlag off n b).peDays = d.peDays := rfl
@[simp] theorem Dev.setFlag_fmtDays (d : Dev) (off n : Nat) (b : Bool) : (d.setFlag off n b).fmtDays = d.fmtDays := rfl
@[simp] theorem Dev.setFlag_spareFmt (d : Dev) (off n : Nat) (b : Bool) : (d.setFlag off n b).spareFmt = d.spareFmt := rfl
@[simp] theorem Dev.setFlag_incWait (d : Dev) (off n : Nat) (b : Bool) : (d.setFlag off n b).incWait = d.incWait := rfl
@[simp] theorem Dev.setFlag_sbWait (d : Dev) (off n : Nat) (b : Bool) : (d.setFlag off n b).sbWait = d.sbWait := rfl
@[simp] theorem Dev.setFlag_pwDead (d : Dev) (off n : Nat) (b : Bool) : (d.setFlag off n b).pwDead = d.pwDead := rfl
@[simp] theorem Dev.setFlag_pwCured (d : Dev) (off n : Nat) (b : Bool) : (d.setFlag off n b).pwCured = d.pwCured := rfl
@[simp] theorem Dev.setFlag_ctxPend (d : Dev) (off n : Nat) (b : Bool) : (d.setFlag off n b).ctxPend = d.ctxPend := rfl
@[simp] theorem Dev.setFlag_resync (d : Dev) (off n : Nat) (b : Bool) : (d.setFlag off n b).resync = d.resync := rfl
@[simp] theorem Dev.setFlag_giving (d : Dev) (off n : Nat) (b : Bool) : (d.setFlag off n b).giving = d.giving := rfl
@[simp] theorem Dev.setFlag_wants (d : Dev) (off n : Nat) (b : Bool) : (d.setFlag off n b).wants = d.wants := rfl
@[simp] theorem Dev.setFlag_leaving (d : Dev) (off n : Nat) (b : Bool) : (d.setFlag off n b).leaving = d.leaving := rfl
@[simp] theorem Dev.setFlag_metaBack (d : Dev) (off n : Nat) (b : Bool) : (d.setFlag off n b).metaBack = d.metaBack := rfl
@[simp] theorem Dev.setFlag_scanBands (d : Dev) (off n : Nat) (b : Bool) : (d.setFlag off n b).scanBands = d.scanBands := rfl
@[simp] theorem Dev.setFlag_dacc (d : Dev) (off n : Nat) (b : Bool) : (d.setFlag off n b).dacc = d.dacc := rfl
@[simp] theorem Dev.setFlag_fmtOut (d : Dev) (off n : Nat) (b : Bool) : (d.setFlag off n b).fmtOut = d.fmtOut := rfl
@[simp] theorem Dev.setFlag_apWait (d : Dev) (off n : Nat) (b : Bool) : (d.setFlag off n b).apWait = d.apWait := rfl
@[simp] theorem Dev.setFlag_rebuildFmt (d : Dev) (off n : Nat) (b : Bool) : (d.setFlag off n b).rebuildFmt = d.rebuildFmt := rfl
@[simp] theorem Dev.setFlag_endur (d : Dev) (off n : Nat) (b : Bool) : (d.setFlag off n b).endur = d.endur := rfl
@[simp] theorem Dev.setFlag_gTx (d : Dev) (off n : Nat) (b : Bool) : (d.setFlag off n b).gTx = d.gTx := rfl
@[simp] theorem Dev.setFlag_gRx (d : Dev) (off n : Nat) (b : Bool) : (d.setFlag off n b).gRx = d.gRx := rfl
@[simp] theorem Dev.setFlag_gPend (d : Dev) (off n : Nat) (b : Bool) : (d.setFlag off n b).gPend = d.gPend := rfl
@[simp] theorem Dev.setFlag_gPrev (d : Dev) (off n : Nat) (b : Bool) : (d.setFlag off n b).gPrev = d.gPrev := rfl
@[simp] theorem Dev.setFlag_serves (d : Dev) (off n : Nat) (b : Bool) : (d.setFlag off n b).serves = d.serves := rfl
@[simp] theorem Dev.setFlag_syncEnd (d : Dev) (off n : Nat) (b : Bool) : (d.setFlag off n b).syncEnd = d.syncEnd := rfl
@[simp] theorem Dev.setFlag_rekeyOut (d : Dev) (off n : Nat) (b : Bool) : (d.setFlag off n b).rekeyOut = d.rekeyOut := rfl
@[simp] theorem Dev.setFlag_sesTx (d : Dev) (off n : Nat) (b : Bool) : (d.setFlag off n b).sesTx = d.sesTx := rfl
@[simp] theorem Dev.setFlag_sesTxNew (d : Dev) (off n : Nat) (b : Bool) : (d.setFlag off n b).sesTxNew = d.sesTxNew := rfl
@[simp] theorem Dev.setFlag_sesRx (d : Dev) (off n : Nat) (b : Bool) : (d.setFlag off n b).sesRx = d.sesRx := rfl
@[simp] theorem Dev.setFlag_sesRxNew (d : Dev) (off n : Nat) (b : Bool) : (d.setFlag off n b).sesRxNew = d.sesRxNew := rfl
@[simp] theorem Dev.setFlag_shelfNew (d : Dev) (off n : Nat) (b : Bool) : (d.setFlag off n b).shelfNew = d.shelfNew := rfl
@[simp] theorem Dev.setFlag_gSaid (d : Dev) (off n : Nat) (b : Bool) : (d.setFlag off n b).gSaid = d.gSaid := rfl
@[simp] theorem Dev.setFlag_shelf (d : Dev) (off n : Nat) (b : Bool) : (d.setFlag off n b).shelf = d.shelf := rfl
@[simp] theorem Dev.setFlag_pairKey (d : Dev) (off n : Nat) (b : Bool) : (d.setFlag off n b).pairKey = d.pairKey := rfl
@[simp] theorem Dev.setFlag_gLastRx (d : Dev) (off n : Nat) (b : Bool) : (d.setFlag off n b).gLastRx = d.gLastRx := rfl
@[simp] theorem Dev.setFlag_gLastTx (d : Dev) (off n : Nat) (b : Bool) : (d.setFlag off n b).gLastTx = d.gLastTx := rfl
@[simp] theorem Dev.setFlag_twinUsed (d : Dev) (off n : Nat) (b : Bool) : (d.setFlag off n b).twinUsed = d.twinUsed := rfl
@[simp] theorem Dev.setFlag_twinState (d : Dev) (off n : Nat) (b : Bool) : (d.setFlag off n b).twinState = d.twinState := rfl
@[simp] theorem Dev.setFlag_twinPtm (d : Dev) (off n : Nat) (b : Bool) : (d.setFlag off n b).twinPtm = d.twinPtm := rfl
@[simp] theorem Dev.setFlag_decided (d : Dev) (off n : Nat) (b : Bool) : (d.setFlag off n b).decided = d.decided := rfl
@[simp] theorem Dev.setFlag_decidedEp (d : Dev) (off n : Nat) (b : Bool) : (d.setFlag off n b).decidedEp = d.decidedEp := rfl
@[simp] theorem Dev.setFlag_taking (d : Dev) (off n : Nat) (b : Bool) : (d.setFlag off n b).taking = d.taking := rfl
@[simp] theorem Dev.setFlag_takes (d : Dev) (off n : Nat) (b : Bool) : (d.setFlag off n b).takes = d.takes := rfl
@[simp] theorem Dev.setFlag_twinSlices (d : Dev) (off n : Nat) (b : Bool) : (d.setFlag off n b).twinSlices = d.twinSlices := rfl
@[simp] theorem Dev.setFlag_twinVers (d : Dev) (off n : Nat) (b : Bool) : (d.setFlag off n b).twinVers = d.twinVers := rfl
@[simp] theorem Dev.setFlag_twinCtxs (d : Dev) (off n : Nat) (b : Bool) : (d.setFlag off n b).twinCtxs = d.twinCtxs := rfl
@[simp] theorem Dev.setFlag_twinRegions (d : Dev) (off n : Nat) (b : Bool) : (d.setFlag off n b).twinRegions = d.twinRegions := rfl
@[simp] theorem Dev.setFlag_pwTwin (d : Dev) (off n : Nat) (b : Bool) : (d.setFlag off n b).pwTwin = d.pwTwin := rfl
@[simp] theorem Dev.setFlag_freeQ (d : Dev) (off n : Nat) (b : Bool) : (d.setFlag off n b).freeQ = d.freeQ := rfl
@[simp] theorem Dev.setFlag_hbCtl (d : Dev) (off n : Nat) (b : Bool) : (d.setFlag off n b).hbCtl = d.hbCtl := rfl
@[simp] theorem Dev.setFlag_pairStart (d : Dev) (off n : Nat) (b : Bool) : (d.setFlag off n b).pairStart = d.pairStart := rfl
@[simp] theorem Dev.setFlag_doms (d : Dev) (off n : Nat) (b : Bool) : (d.setFlag off n b).doms = d.doms := rfl
@[simp] theorem Dev.setFlag_nvm (d : Dev) (off n : Nat) (b : Bool) : (d.setFlag off n b).nvm = d.nvm := rfl
@[simp] theorem Dev.setFlag_dumpAt (d : Dev) (off n : Nat) (b : Bool) : (d.setFlag off n b).dumpAt = d.dumpAt := rfl
@[simp] theorem Dev.setFlag_dumpSrc (d : Dev) (off n : Nat) (b : Bool) : (d.setFlag off n b).dumpSrc = d.dumpSrc := rfl
@[simp] theorem Dev.setFlag_stayDown (d : Dev) (off n : Nat) (b : Bool) : (d.setFlag off n b).stayDown = d.stayDown := rfl
@[simp] theorem Dev.setFlag_nHost (d : Dev) (off n : Nat) (b : Bool) : (d.setFlag off n b).nHost = d.nHost := rfl
@[simp] theorem Dev.setFlag_nFirm (d : Dev) (off n : Nat) (b : Bool) : (d.setFlag off n b).nFirm = d.nFirm := rfl
@[simp] theorem Dev.setFlag_nRun (d : Dev) (off n : Nat) (b : Bool) : (d.setFlag off n b).nRun = d.nRun := rfl
@[simp] theorem Dev.setFlag_nSus (d : Dev) (off n : Nat) (b : Bool) : (d.setFlag off n b).nSus = d.nSus := rfl
@[simp] theorem Dev.setFlag_nSec (d : Dev) (off n : Nat) (b : Bool) : (d.setFlag off n b).nSec = d.nSec := rfl
@[simp] theorem Dev.setFlag_entryTgt (d : Dev) (off n : Nat) (b : Bool) : (d.setFlag off n b).entryTgt = d.entryTgt := rfl
@[simp] theorem Dev.setFlag_bring (d : Dev) (off n : Nat) (b : Bool) : (d.setFlag off n b).bring = d.bring := rfl
@[simp] theorem Dev.setFlag_enMain (d : Dev) (off n : Nat) (b : Bool) : (d.setFlag off n b).enMain = d.enMain := rfl
@[simp] theorem Dev.setFlag_pgMain (d : Dev) (off n : Nat) (b : Bool) : (d.setFlag off n b).pgMain = d.pgMain := rfl
@[simp] theorem Dev.setFlag_aoUp (d : Dev) (off n : Nat) (b : Bool) : (d.setFlag off n b).aoUp = d.aoUp := rfl
@[simp] theorem Dev.setFlag_pgTry (d : Dev) (off n : Nat) (b : Bool) : (d.setFlag off n b).pgTry = d.pgTry := rfl
@[simp] theorem Dev.setFlag_t0 (d : Dev) (off n : Nat) (b : Bool) : (d.setFlag off n b).t0 = d.t0 := rfl
@[simp] theorem Dev.setFlag_restored (d : Dev) (off n : Nat) (b : Bool) : (d.setFlag off n b).restored = d.restored := rfl
@[simp] theorem Dev.setFlag_counted (d : Dev) (off n : Nat) (b : Bool) : (d.setFlag off n b).counted = d.counted := rfl
@[simp] theorem Dev.setFlag_resetDefer (d : Dev) (off n : Nat) (b : Bool) : (d.setFlag off n b).resetDefer = d.resetDefer := rfl
@[simp] theorem Dev.setFlag_timeSave (d : Dev) (off n : Nat) (b : Bool) : (d.setFlag off n b).timeSave = d.timeSave := rfl
@[simp] theorem Dev.setFlag_saveDue (d : Dev) (off n : Nat) (b : Bool) : (d.setFlag off n b).saveDue = d.saveDue := rfl
@[simp] theorem Dev.setFlag_wakeHeld (d : Dev) (off n : Nat) (b : Bool) : (d.setFlag off n b).wakeHeld = d.wakeHeld := rfl
@[simp] theorem Dev.setFlag_down (d : Dev) (off n : Nat) (b : Bool) : (d.setFlag off n b).down = d.down := rfl
@[simp] theorem Dev.setFlag_pins (d : Dev) (off n : Nat) (b : Bool) : (d.setFlag off n b).pins = d.pins := rfl

/-! ### `Dev.set64` -/

@[simp] theorem Dev.set64_published (d : Dev) (lo hi v : Nat) : (d.set64 lo hi v).published = d.published := rfl
@[simp] theorem Dev.set64_pages (d : Dev) (lo hi v : Nat) : (d.set64 lo hi v).pages = d.pages := rfl
@[simp] theorem Dev.set64_comSeq (d : Dev) (lo hi v : Nat) : (d.set64 lo hi v).comSeq = d.comSeq := rfl
@[simp] theorem Dev.set64_comTick (d : Dev) (lo hi v : Nat) : (d.set64 lo hi v).comTick = d.comTick := rfl
@[simp] theorem Dev.set64_out (d : Dev) (lo hi v : Nat) : (d.set64 lo hi v).out = d.out := rfl
@[simp] theorem Dev.set64_tick (d : Dev) (lo hi v : Nat) : (d.set64 lo hi v).tick = d.tick := rfl
@[simp] theorem Dev.set64_draws (d : Dev) (lo hi v : Nat) : (d.set64 lo hi v).draws = d.draws := rfl
@[simp] theorem Dev.set64_supplyLost (d : Dev) (lo hi v : Nat) : (d.set64 lo hi v).supplyLost = d.supplyLost := rfl
@[simp] theorem Dev.set64_resetRun (d : Dev) (lo hi v : Nat) : (d.set64 lo hi v).resetRun = d.resetRun := rfl
@[simp] theorem Dev.set64_latHi (d : Dev) (lo hi v : Nat) : (d.set64 lo hi v).latHi = d.latHi := rfl
@[simp] theorem Dev.set64_accHead (d : Dev) (lo hi v : Nat) : (d.set64 lo hi v).accHead = d.accHead := rfl
@[simp] theorem Dev.set64_latEpoch (d : Dev) (lo hi v : Nat) : (d.set64 lo hi v).latEpoch = d.latEpoch := rfl
@[simp] theorem Dev.set64_incidents (d : Dev) (lo hi v : Nat) : (d.set64 lo hi v).incidents = d.incidents := rfl
@[simp] theorem Dev.set64_banks (d : Dev) (lo hi v : Nat) : (d.set64 lo hi v).banks = d.banks := rfl
@[simp] theorem Dev.set64_cap (d : Dev) (lo hi v : Nat) : (d.set64 lo hi v).cap = d.cap := rfl
@[simp] theorem Dev.set64_rp (d : Dev) (lo hi v : Nat) : (d.set64 lo hi v).rp = d.rp := rfl
@[simp] theorem Dev.set64_msixTbl (d : Dev) (lo hi v : Nat) : (d.set64 lo hi v).msixTbl = d.msixTbl := rfl
@[simp] theorem Dev.set64_pba (d : Dev) (lo hi v : Nat) : (d.set64 lo hi v).pba = d.pba := rfl
@[simp] theorem Dev.set64_cfg (d : Dev) (lo hi v : Nat) : (d.set64 lo hi v).cfg = d.cfg := rfl
@[simp] theorem Dev.set64_headDown (d : Dev) (lo hi v : Nat) : (d.set64 lo hi v).headDown = d.headDown := rfl
@[simp] theorem Dev.set64_bifNow (d : Dev) (lo hi v : Nat) : (d.set64 lo hi v).bifNow = d.bifNow := rfl
@[simp] theorem Dev.set64_ide (d : Dev) (lo hi v : Nat) : (d.set64 lo hi v).ide = d.ide := rfl
@[simp] theorem Dev.set64_ideUsed (d : Dev) (lo hi v : Nat) : (d.set64 lo hi v).ideUsed = d.ideUsed := rfl
@[simp] theorem Dev.set64_ptmBad (d : Dev) (lo hi v : Nat) : (d.set64 lo hi v).ptmBad = d.ptmBad := rfl
@[simp] theorem Dev.set64_ptmLast (d : Dev) (lo hi v : Nat) : (d.set64 lo hi v).ptmLast = d.ptmLast := rfl
@[simp] theorem Dev.set64_ptmGood (d : Dev) (lo hi v : Nat) : (d.set64 lo hi v).ptmGood = d.ptmGood := rfl
@[simp] theorem Dev.set64_shutState (d : Dev) (lo hi v : Nat) : (d.set64 lo hi v).shutState = d.shutState := rfl
@[simp] theorem Dev.set64_alertSet (d : Dev) (lo hi v : Nat) : (d.set64 lo hi v).alertSet = d.alertSet := rfl
@[simp] theorem Dev.set64_events (d : Dev) (lo hi v : Nat) : (d.set64 lo hi v).events = d.events := rfl
@[simp] theorem Dev.set64_pwDirty (d : Dev) (lo hi v : Nat) : (d.set64 lo hi v).pwDirty = d.pwDirty := rfl
@[simp] theorem Dev.set64_pwPoison (d : Dev) (lo hi v : Nat) : (d.set64 lo hi v).pwPoison = d.pwPoison := rfl
@[simp] theorem Dev.set64_pwUnmir (d : Dev) (lo hi v : Nat) : (d.set64 lo hi v).pwUnmir = d.pwUnmir := rfl
@[simp] theorem Dev.set64_gpfMark (d : Dev) (lo hi v : Nat) : (d.set64 lo hi v).gpfMark = d.gpfMark := rfl
@[simp] theorem Dev.set64_gpfRun (d : Dev) (lo hi v : Nat) : (d.set64 lo hi v).gpfRun = d.gpfRun := rfl
@[simp] theorem Dev.set64_queues (d : Dev) (lo hi v : Nat) : (d.set64 lo hi v).queues = d.queues := rfl
@[simp] theorem Dev.set64_fetchNo (d : Dev) (lo hi v : Nat) : (d.set64 lo hi v).fetchNo = d.fetchNo := rfl
@[simp] theorem Dev.set64_slices (d : Dev) (lo hi v : Nat) : (d.set64 lo hi v).slices = d.slices := rfl
@[simp] theorem Dev.set64_exp (d : Dev) (lo hi v : Nat) : (d.set64 lo hi v).exp = d.exp := rfl
@[simp] theorem Dev.set64_ctxs (d : Dev) (lo hi v : Nat) : (d.set64 lo hi v).ctxs = d.ctxs := rfl
@[simp] theorem Dev.set64_ctxStore (d : Dev) (lo hi v : Nat) : (d.set64 lo hi v).ctxStore = d.ctxStore := rfl
@[simp] theorem Dev.set64_kek (d : Dev) (lo hi v : Nat) : (d.set64 lo hi v).kek = d.kek := rfl
@[simp] theorem Dev.set64_xbufShown (d : Dev) (lo hi v : Nat) : (d.set64 lo hi v).xbufShown = d.xbufShown := rfl
@[simp] theorem Dev.set64_zeroing (d : Dev) (lo hi v : Nat) : (d.set64 lo hi v).zeroing = d.zeroing := rfl
@[simp] theorem Dev.set64_map (d : Dev) (lo hi v : Nat) : (d.set64 lo hi v).map = d.map := rfl
@[simp] theorem Dev.set64_mapPend (d : Dev) (lo hi v : Nat) : (d.set64 lo hi v).mapPend = d.mapPend := rfl
@[simp] theorem Dev.set64_resident (d : Dev) (lo hi v : Nat) : (d.set64 lo hi v).resident = d.resident := rfl
@[simp] theorem Dev.set64_refBits (d : Dev) (lo hi v : Nat) : (d.set64 lo hi v).refBits = d.refBits := rfl
@[simp] theorem Dev.set64_mapWant (d : Dev) (lo hi v : Nat) : (d.set64 lo hi v).mapWant = d.mapWant := rfl
@[simp] theorem Dev.set64_dirty (d : Dev) (lo hi v : Nat) : (d.set64 lo hi v).dirty = d.dirty := rfl
@[simp] theorem Dev.set64_lost (d : Dev) (lo hi v : Nat) : (d.set64 lo hi v).lost = d.lost := rfl
@[simp] theorem Dev.set64_dlog (d : Dev) (lo hi v : Nat) : (d.set64 lo hi v).dlog = d.dlog := rfl
@[simp] theorem Dev.set64_dlogStalled (d : Dev) (lo hi v : Nat) : (d.set64 lo hi v).dlogStalled = d.dlogStalled := rfl
@[simp] theorem Dev.set64_dlogRing (d : Dev) (lo hi v : Nat) : (d.set64 lo hi v).dlogRing = d.dlogRing := rfl
@[simp] theorem Dev.set64_metaAt (d : Dev) (lo hi v : Nat) : (d.set64 lo hi v).metaAt = d.metaAt := rfl
@[simp] theorem Dev.set64_bands (d : Dev) (lo hi v : Nat) : (d.set64 lo hi v).bands = d.bands := rfl
@[simp] theorem Dev.set64_closeSeq (d : Dev) (lo hi v : Nat) : (d.set64 lo hi v).closeSeq = d.closeSeq := rfl
@[simp] theorem Dev.set64_relocs (d : Dev) (lo hi v : Nat) : (d.set64 lo hi v).relocs = d.relocs := rfl
@[simp] theorem Dev.set64_cache (d : Dev) (lo hi v : Nat) : (d.set64 lo hi v).cache = d.cache := rfl
@[simp] theorem Dev.set64_flash (d : Dev) (lo hi v : Nat) : (d.set64 lo hi v).flash = d.flash := rfl
@[simp] theorem Dev.set64_elog (d : Dev) (lo hi v : Nat) : (d.set64 lo hi v).elog = d.elog := rfl
@[simp] theorem Dev.set64_gcCredit (d : Dev) (lo hi v : Nat) : (d.set64 lo hi v).gcCredit = d.gcCredit := rfl
@[simp] theorem Dev.set64_spareUsed (d : Dev) (lo hi v : Nat) : (d.set64 lo hi v).spareUsed = d.spareUsed := rfl
@[simp] theorem Dev.set64_rbUsed (d : Dev) (lo hi v : Nat) : (d.set64 lo hi v).rbUsed = d.rbUsed := rfl
@[simp] theorem Dev.set64_fills (d : Dev) (lo hi v : Nat) : (d.set64 lo hi v).fills = d.fills := rfl
@[simp] theorem Dev.set64_stripeBuf (d : Dev) (lo hi v : Nat) : (d.set64 lo hi v).stripeBuf = d.stripeBuf := rfl
@[simp] theorem Dev.set64_progd (d : Dev) (lo hi v : Nat) : (d.set64 lo hi v).progd = d.progd := rfl
@[simp] theorem Dev.set64_chunksOk (d : Dev) (lo hi v : Nat) : (d.set64 lo hi v).chunksOk = d.chunksOk := rfl
@[simp] theorem Dev.set64_bmDirty (d : Dev) (lo hi v : Nat) : (d.set64 lo hi v).bmDirty = d.bmDirty := rfl
@[simp] theorem Dev.set64_bmClear (d : Dev) (lo hi v : Nat) : (d.set64 lo hi v).bmClear = d.bmClear := rfl
@[simp] theorem Dev.set64_bmWait (d : Dev) (lo hi v : Nat) : (d.set64 lo hi v).bmWait = d.bmWait := rfl
@[simp] theorem Dev.set64_bmLogs (d : Dev) (lo hi v : Nat) : (d.set64 lo hi v).bmLogs = d.bmLogs := rfl
@[simp] theorem Dev.set64_rbQueue (d : Dev) (lo hi v : Nat) : (d.set64 lo hi v).rbQueue = d.rbQueue := rfl
@[simp] theorem Dev.set64_lostSlots (d : Dev) (lo hi v : Nat) : (d.set64 lo hi v).lostSlots = d.lostSlots := rfl
@[simp] theorem Dev.set64_scanPend (d : Dev) (lo hi v : Nat) : (d.set64 lo hi v).scanPend = d.scanPend := rfl
@[simp] theorem Dev.set64_ports (d : Dev) (lo hi v : Nat) : (d.set64 lo hi v).ports = d.ports := rfl
@[simp] theorem Dev.set64_bridges (d : Dev) (lo hi v : Nat) : (d.set64 lo hi v).bridges = d.bridges := rfl
@[simp] theorem Dev.set64_clsNow (d : Dev) (lo hi v : Nat) : (d.set64 lo hi v).clsNow = d.clsNow := rfl
@[simp] theorem Dev.set64_ageNow (d : Dev) (lo hi v : Nat) : (d.set64 lo hi v).ageNow = d.ageNow := rfl
@[simp] theorem Dev.set64_susNow (d : Dev) (lo hi v : Nat) : (d.set64 lo hi v).susNow = d.susNow := rfl
@[simp] theorem Dev.set64_rbNow (d : Dev) (lo hi v : Nat) : (d.set64 lo hi v).rbNow = d.rbNow := rfl
@[simp] theorem Dev.set64_tgTick (d : Dev) (lo hi v : Nat) : (d.set64 lo hi v).tgTick = d.tgTick := rfl
@[simp] theorem Dev.set64_timeFig (d : Dev) (lo hi v : Nat) : (d.set64 lo hi v).timeFig = d.timeFig := rfl
@[simp] theorem Dev.set64_timePre (d : Dev) (lo hi v : Nat) : (d.set64 lo hi v).timePre = d.timePre := rfl
@[simp] theorem Dev.set64_stepPend (d : Dev) (lo hi v : Nat) : (d.set64 lo hi v).stepPend = d.stepPend := rfl
@[simp] theorem Dev.set64_lossAt (d : Dev) (lo hi v : Nat) : (d.set64 lo hi v).lossAt = d.lossAt := rfl
@[simp] theorem Dev.set64_exGood (d : Dev) (lo hi v : Nat) : (d.set64 lo hi v).exGood = d.exGood := rfl
@[simp] theorem Dev.set64_exBad (d : Dev) (lo hi v : Nat) : (d.set64 lo hi v).exBad = d.exBad := rfl
@[simp] theorem Dev.set64_exLast (d : Dev) (lo hi v : Nat) : (d.set64 lo hi v).exLast = d.exLast := rfl
@[simp] theorem Dev.set64_slewDone (d : Dev) (lo hi v : Nat) : (d.set64 lo hi v).slewDone = d.slewDone := rfl
@[simp] theorem Dev.set64_leadCoarse (d : Dev) (lo hi v : Nat) : (d.set64 lo hi v).leadCoarse = d.leadCoarse := rfl
@[simp] theorem Dev.set64_trk (d : Dev) (lo hi v : Nat) : (d.set64 lo hi v).trk = d.trk := rfl
@[simp] theorem Dev.set64_fresh (d : Dev) (lo hi v : Nat) : (d.set64 lo hi v).fresh = d.fresh := rfl
@[simp] theorem Dev.set64_hdOut (d : Dev) (lo hi v : Nat) : (d.set64 lo hi v).hdOut = d.hdOut := rfl
@[simp] theorem Dev.set64_wkOut (d : Dev) (lo hi v : Nat) : (d.set64 lo hi v).wkOut = d.wkOut := rfl
@[simp] theorem Dev.set64_dpar (d : Dev) (lo hi v : Nat) : (d.set64 lo hi v).dpar = d.dpar := rfl
@[simp] theorem Dev.set64_coldPrev (d : Dev) (lo hi v : Nat) : (d.set64 lo hi v).coldPrev = d.coldPrev := rfl
@[simp] theorem Dev.set64_coldNow (d : Dev) (lo hi v : Nat) : (d.set64 lo hi v).coldNow = d.coldNow := rfl
@[simp] theorem Dev.set64_svSeen (d : Dev) (lo hi v : Nat) : (d.set64 lo hi v).svSeen = d.svSeen := rfl
@[simp] theorem Dev.set64_svStart (d : Dev) (lo hi v : Nat) : (d.set64 lo hi v).svStart = d.svStart := rfl
@[simp] theorem Dev.set64_svMoved (d : Dev) (lo hi v : Nat) : (d.set64 lo hi v).svMoved = d.svMoved := rfl
@[simp] theorem Dev.set64_rfshDays (d : Dev) (lo hi v : Nat) : (d.set64 lo hi v).rfshDays = d.rfshDays := rfl
@[simp] theorem Dev.set64_dayTick (d : Dev) (lo hi v : Nat) : (d.set64 lo hi v).dayTick = d.dayTick := rfl
@[simp] theorem Dev.set64_crLim (d : Dev) (lo hi v : Nat) : (d.set64 lo hi v).crLim = d.crLim := rfl
@[simp] theorem Dev.set64_crWait (d : Dev) (lo hi v : Nat) : (d.set64 lo hi v).crWait = d.crWait := rfl
@[simp] theorem Dev.set64_crHold (d : Dev) (lo hi v : Nat) : (d.set64 lo hi v).crHold = d.crHold := rfl
@[simp] theorem Dev.set64_hbmPoison (d : Dev) (lo hi v : Nat) : (d.set64 lo hi v).hbmPoison = d.hbmPoison := rfl
@[simp] theorem Dev.set64_hbmDead (d : Dev) (lo hi v : Nat) : (d.set64 lo hi v).hbmDead = d.hbmDead := rfl
@[simp] theorem Dev.set64_dlogBad (d : Dev) (lo hi v : Nat) : (d.set64 lo hi v).dlogBad = d.dlogBad := rfl
@[simp] theorem Dev.set64_hbmLog (d : Dev) (lo hi v : Nat) : (d.set64 lo hi v).hbmLog = d.hbmLog := rfl
@[simp] theorem Dev.set64_hbmRecent (d : Dev) (lo hi v : Nat) : (d.set64 lo hi v).hbmRecent = d.hbmRecent := rfl
@[simp] theorem Dev.set64_hbmRetired (d : Dev) (lo hi v : Nat) : (d.set64 lo hi v).hbmRetired = d.hbmRetired := rfl
@[simp] theorem Dev.set64_hbmBare (d : Dev) (lo hi v : Nat) : (d.set64 lo hi v).hbmBare = d.hbmBare := rfl
@[simp] theorem Dev.set64_scrLine (d : Dev) (lo hi v : Nat) : (d.set64 lo hi v).scrLine = d.scrLine := rfl
@[simp] theorem Dev.set64_scrStart (d : Dev) (lo hi v : Nat) : (d.set64 lo hi v).scrStart = d.scrStart := rfl
@[simp] theorem Dev.set64_sramStart (d : Dev) (lo hi v : Nat) : (d.set64 lo hi v).sramStart = d.sramStart := rfl
@[simp] theorem Dev.set64_sleepAt (d : Dev) (lo hi v : Nat) : (d.set64 lo hi v).sleepAt = d.sleepAt := rfl
@[simp] theorem Dev.set64_remapped (d : Dev) (lo hi v : Nat) : (d.set64 lo hi v).remapped = d.remapped := rfl
@[simp] theorem Dev.set64_arrCe (d : Dev) (lo hi v : Nat) : (d.set64 lo hi v).arrCe = d.arrCe := rfl
@[simp] theorem Dev.set64_ceWords (d : Dev) (lo hi v : Nat) : (d.set64 lo hi v).ceWords = d.ceWords := rfl
@[simp] theorem Dev.set64_coresOut (d : Dev) (lo hi v : Nat) : (d.set64 lo hi v).coresOut = d.coresOut := rfl
@[simp] theorem Dev.set64_coresHit (d : Dev) (lo hi v : Nat) : (d.set64 lo hi v).coresHit = d.coresHit := rfl
@[simp] theorem Dev.set64_redNo (d : Dev) (lo hi v : Nat) : (d.set64 lo hi v).redNo = d.redNo := rfl
@[simp] theorem Dev.set64_exhausted (d : Dev) (lo hi v : Nat) : (d.set64 lo hi v).exhausted = d.exhausted := rfl
@[simp] theorem Dev.set64_conds (d : Dev) (lo hi v : Nat) : (d.set64 lo hi v).conds = d.conds := rfl
@[simp] theorem Dev.set64_levelTick (d : Dev) (lo hi v : Nat) : (d.set64 lo hi v).levelTick = d.levelTick := rfl
@[simp] theorem Dev.set64_levelEpoch (d : Dev) (lo hi v : Nat) : (d.set64 lo hi v).levelEpoch = d.levelEpoch := rfl
@[simp] theorem Dev.set64_peDays (d : Dev) (lo hi v : Nat) : (d.set64 lo hi v).peDays = d.peDays := rfl
@[simp] theorem Dev.set64_fmtDays (d : Dev) (lo hi v : Nat) : (d.set64 lo hi v).fmtDays = d.fmtDays := rfl
@[simp] theorem Dev.set64_spareFmt (d : Dev) (lo hi v : Nat) : (d.set64 lo hi v).spareFmt = d.spareFmt := rfl
@[simp] theorem Dev.set64_incWait (d : Dev) (lo hi v : Nat) : (d.set64 lo hi v).incWait = d.incWait := rfl
@[simp] theorem Dev.set64_sbWait (d : Dev) (lo hi v : Nat) : (d.set64 lo hi v).sbWait = d.sbWait := rfl
@[simp] theorem Dev.set64_pwDead (d : Dev) (lo hi v : Nat) : (d.set64 lo hi v).pwDead = d.pwDead := rfl
@[simp] theorem Dev.set64_pwCured (d : Dev) (lo hi v : Nat) : (d.set64 lo hi v).pwCured = d.pwCured := rfl
@[simp] theorem Dev.set64_ctxPend (d : Dev) (lo hi v : Nat) : (d.set64 lo hi v).ctxPend = d.ctxPend := rfl
@[simp] theorem Dev.set64_resync (d : Dev) (lo hi v : Nat) : (d.set64 lo hi v).resync = d.resync := rfl
@[simp] theorem Dev.set64_giving (d : Dev) (lo hi v : Nat) : (d.set64 lo hi v).giving = d.giving := rfl
@[simp] theorem Dev.set64_wants (d : Dev) (lo hi v : Nat) : (d.set64 lo hi v).wants = d.wants := rfl
@[simp] theorem Dev.set64_leaving (d : Dev) (lo hi v : Nat) : (d.set64 lo hi v).leaving = d.leaving := rfl
@[simp] theorem Dev.set64_metaBack (d : Dev) (lo hi v : Nat) : (d.set64 lo hi v).metaBack = d.metaBack := rfl
@[simp] theorem Dev.set64_scanBands (d : Dev) (lo hi v : Nat) : (d.set64 lo hi v).scanBands = d.scanBands := rfl
@[simp] theorem Dev.set64_dacc (d : Dev) (lo hi v : Nat) : (d.set64 lo hi v).dacc = d.dacc := rfl
@[simp] theorem Dev.set64_fmtOut (d : Dev) (lo hi v : Nat) : (d.set64 lo hi v).fmtOut = d.fmtOut := rfl
@[simp] theorem Dev.set64_apWait (d : Dev) (lo hi v : Nat) : (d.set64 lo hi v).apWait = d.apWait := rfl
@[simp] theorem Dev.set64_rebuildFmt (d : Dev) (lo hi v : Nat) : (d.set64 lo hi v).rebuildFmt = d.rebuildFmt := rfl
@[simp] theorem Dev.set64_endur (d : Dev) (lo hi v : Nat) : (d.set64 lo hi v).endur = d.endur := rfl
@[simp] theorem Dev.set64_gTx (d : Dev) (lo hi v : Nat) : (d.set64 lo hi v).gTx = d.gTx := rfl
@[simp] theorem Dev.set64_gRx (d : Dev) (lo hi v : Nat) : (d.set64 lo hi v).gRx = d.gRx := rfl
@[simp] theorem Dev.set64_gPend (d : Dev) (lo hi v : Nat) : (d.set64 lo hi v).gPend = d.gPend := rfl
@[simp] theorem Dev.set64_gPrev (d : Dev) (lo hi v : Nat) : (d.set64 lo hi v).gPrev = d.gPrev := rfl
@[simp] theorem Dev.set64_serves (d : Dev) (lo hi v : Nat) : (d.set64 lo hi v).serves = d.serves := rfl
@[simp] theorem Dev.set64_syncEnd (d : Dev) (lo hi v : Nat) : (d.set64 lo hi v).syncEnd = d.syncEnd := rfl
@[simp] theorem Dev.set64_rekeyOut (d : Dev) (lo hi v : Nat) : (d.set64 lo hi v).rekeyOut = d.rekeyOut := rfl
@[simp] theorem Dev.set64_sesTx (d : Dev) (lo hi v : Nat) : (d.set64 lo hi v).sesTx = d.sesTx := rfl
@[simp] theorem Dev.set64_sesTxNew (d : Dev) (lo hi v : Nat) : (d.set64 lo hi v).sesTxNew = d.sesTxNew := rfl
@[simp] theorem Dev.set64_sesRx (d : Dev) (lo hi v : Nat) : (d.set64 lo hi v).sesRx = d.sesRx := rfl
@[simp] theorem Dev.set64_sesRxNew (d : Dev) (lo hi v : Nat) : (d.set64 lo hi v).sesRxNew = d.sesRxNew := rfl
@[simp] theorem Dev.set64_shelfNew (d : Dev) (lo hi v : Nat) : (d.set64 lo hi v).shelfNew = d.shelfNew := rfl
@[simp] theorem Dev.set64_gSaid (d : Dev) (lo hi v : Nat) : (d.set64 lo hi v).gSaid = d.gSaid := rfl
@[simp] theorem Dev.set64_shelf (d : Dev) (lo hi v : Nat) : (d.set64 lo hi v).shelf = d.shelf := rfl
@[simp] theorem Dev.set64_pairKey (d : Dev) (lo hi v : Nat) : (d.set64 lo hi v).pairKey = d.pairKey := rfl
@[simp] theorem Dev.set64_gLastRx (d : Dev) (lo hi v : Nat) : (d.set64 lo hi v).gLastRx = d.gLastRx := rfl
@[simp] theorem Dev.set64_gLastTx (d : Dev) (lo hi v : Nat) : (d.set64 lo hi v).gLastTx = d.gLastTx := rfl
@[simp] theorem Dev.set64_twinUsed (d : Dev) (lo hi v : Nat) : (d.set64 lo hi v).twinUsed = d.twinUsed := rfl
@[simp] theorem Dev.set64_twinState (d : Dev) (lo hi v : Nat) : (d.set64 lo hi v).twinState = d.twinState := rfl
@[simp] theorem Dev.set64_twinPtm (d : Dev) (lo hi v : Nat) : (d.set64 lo hi v).twinPtm = d.twinPtm := rfl
@[simp] theorem Dev.set64_decided (d : Dev) (lo hi v : Nat) : (d.set64 lo hi v).decided = d.decided := rfl
@[simp] theorem Dev.set64_decidedEp (d : Dev) (lo hi v : Nat) : (d.set64 lo hi v).decidedEp = d.decidedEp := rfl
@[simp] theorem Dev.set64_taking (d : Dev) (lo hi v : Nat) : (d.set64 lo hi v).taking = d.taking := rfl
@[simp] theorem Dev.set64_takes (d : Dev) (lo hi v : Nat) : (d.set64 lo hi v).takes = d.takes := rfl
@[simp] theorem Dev.set64_twinSlices (d : Dev) (lo hi v : Nat) : (d.set64 lo hi v).twinSlices = d.twinSlices := rfl
@[simp] theorem Dev.set64_twinVers (d : Dev) (lo hi v : Nat) : (d.set64 lo hi v).twinVers = d.twinVers := rfl
@[simp] theorem Dev.set64_twinCtxs (d : Dev) (lo hi v : Nat) : (d.set64 lo hi v).twinCtxs = d.twinCtxs := rfl
@[simp] theorem Dev.set64_twinRegions (d : Dev) (lo hi v : Nat) : (d.set64 lo hi v).twinRegions = d.twinRegions := rfl
@[simp] theorem Dev.set64_pwTwin (d : Dev) (lo hi v : Nat) : (d.set64 lo hi v).pwTwin = d.pwTwin := rfl
@[simp] theorem Dev.set64_freeQ (d : Dev) (lo hi v : Nat) : (d.set64 lo hi v).freeQ = d.freeQ := rfl
@[simp] theorem Dev.set64_hbCtl (d : Dev) (lo hi v : Nat) : (d.set64 lo hi v).hbCtl = d.hbCtl := rfl
@[simp] theorem Dev.set64_pairStart (d : Dev) (lo hi v : Nat) : (d.set64 lo hi v).pairStart = d.pairStart := rfl
@[simp] theorem Dev.set64_doms (d : Dev) (lo hi v : Nat) : (d.set64 lo hi v).doms = d.doms := rfl
@[simp] theorem Dev.set64_nvm (d : Dev) (lo hi v : Nat) : (d.set64 lo hi v).nvm = d.nvm := rfl
@[simp] theorem Dev.set64_dumpAt (d : Dev) (lo hi v : Nat) : (d.set64 lo hi v).dumpAt = d.dumpAt := rfl
@[simp] theorem Dev.set64_dumpSrc (d : Dev) (lo hi v : Nat) : (d.set64 lo hi v).dumpSrc = d.dumpSrc := rfl
@[simp] theorem Dev.set64_stayDown (d : Dev) (lo hi v : Nat) : (d.set64 lo hi v).stayDown = d.stayDown := rfl
@[simp] theorem Dev.set64_nHost (d : Dev) (lo hi v : Nat) : (d.set64 lo hi v).nHost = d.nHost := rfl
@[simp] theorem Dev.set64_nFirm (d : Dev) (lo hi v : Nat) : (d.set64 lo hi v).nFirm = d.nFirm := rfl
@[simp] theorem Dev.set64_nRun (d : Dev) (lo hi v : Nat) : (d.set64 lo hi v).nRun = d.nRun := rfl
@[simp] theorem Dev.set64_nSus (d : Dev) (lo hi v : Nat) : (d.set64 lo hi v).nSus = d.nSus := rfl
@[simp] theorem Dev.set64_nSec (d : Dev) (lo hi v : Nat) : (d.set64 lo hi v).nSec = d.nSec := rfl
@[simp] theorem Dev.set64_entryTgt (d : Dev) (lo hi v : Nat) : (d.set64 lo hi v).entryTgt = d.entryTgt := rfl
@[simp] theorem Dev.set64_bring (d : Dev) (lo hi v : Nat) : (d.set64 lo hi v).bring = d.bring := rfl
@[simp] theorem Dev.set64_enMain (d : Dev) (lo hi v : Nat) : (d.set64 lo hi v).enMain = d.enMain := rfl
@[simp] theorem Dev.set64_pgMain (d : Dev) (lo hi v : Nat) : (d.set64 lo hi v).pgMain = d.pgMain := rfl
@[simp] theorem Dev.set64_aoUp (d : Dev) (lo hi v : Nat) : (d.set64 lo hi v).aoUp = d.aoUp := rfl
@[simp] theorem Dev.set64_pgTry (d : Dev) (lo hi v : Nat) : (d.set64 lo hi v).pgTry = d.pgTry := rfl
@[simp] theorem Dev.set64_t0 (d : Dev) (lo hi v : Nat) : (d.set64 lo hi v).t0 = d.t0 := rfl
@[simp] theorem Dev.set64_restored (d : Dev) (lo hi v : Nat) : (d.set64 lo hi v).restored = d.restored := rfl
@[simp] theorem Dev.set64_counted (d : Dev) (lo hi v : Nat) : (d.set64 lo hi v).counted = d.counted := rfl
@[simp] theorem Dev.set64_resetDefer (d : Dev) (lo hi v : Nat) : (d.set64 lo hi v).resetDefer = d.resetDefer := rfl
@[simp] theorem Dev.set64_timeSave (d : Dev) (lo hi v : Nat) : (d.set64 lo hi v).timeSave = d.timeSave := rfl
@[simp] theorem Dev.set64_saveDue (d : Dev) (lo hi v : Nat) : (d.set64 lo hi v).saveDue = d.saveDue := rfl
@[simp] theorem Dev.set64_wakeHeld (d : Dev) (lo hi v : Nat) : (d.set64 lo hi v).wakeHeld = d.wakeHeld := rfl
@[simp] theorem Dev.set64_down (d : Dev) (lo hi v : Nat) : (d.set64 lo hi v).down = d.down := rfl
@[simp] theorem Dev.set64_pins (d : Dev) (lo hi v : Nat) : (d.set64 lo hi v).pins = d.pins := rfl

/-! ### `Dev.inc` -/

@[simp] theorem Dev.inc_published (d : Dev) (off n : Nat) : (d.inc off n).published = d.published := rfl
@[simp] theorem Dev.inc_pages (d : Dev) (off n : Nat) : (d.inc off n).pages = d.pages := rfl
@[simp] theorem Dev.inc_comSeq (d : Dev) (off n : Nat) : (d.inc off n).comSeq = d.comSeq := rfl
@[simp] theorem Dev.inc_comTick (d : Dev) (off n : Nat) : (d.inc off n).comTick = d.comTick := rfl
@[simp] theorem Dev.inc_out (d : Dev) (off n : Nat) : (d.inc off n).out = d.out := rfl
@[simp] theorem Dev.inc_tick (d : Dev) (off n : Nat) : (d.inc off n).tick = d.tick := rfl
@[simp] theorem Dev.inc_draws (d : Dev) (off n : Nat) : (d.inc off n).draws = d.draws := rfl
@[simp] theorem Dev.inc_supplyLost (d : Dev) (off n : Nat) : (d.inc off n).supplyLost = d.supplyLost := rfl
@[simp] theorem Dev.inc_resetRun (d : Dev) (off n : Nat) : (d.inc off n).resetRun = d.resetRun := rfl
@[simp] theorem Dev.inc_latHi (d : Dev) (off n : Nat) : (d.inc off n).latHi = d.latHi := rfl
@[simp] theorem Dev.inc_accHead (d : Dev) (off n : Nat) : (d.inc off n).accHead = d.accHead := rfl
@[simp] theorem Dev.inc_latEpoch (d : Dev) (off n : Nat) : (d.inc off n).latEpoch = d.latEpoch := rfl
@[simp] theorem Dev.inc_incidents (d : Dev) (off n : Nat) : (d.inc off n).incidents = d.incidents := rfl
@[simp] theorem Dev.inc_banks (d : Dev) (off n : Nat) : (d.inc off n).banks = d.banks := rfl
@[simp] theorem Dev.inc_cap (d : Dev) (off n : Nat) : (d.inc off n).cap = d.cap := rfl
@[simp] theorem Dev.inc_rp (d : Dev) (off n : Nat) : (d.inc off n).rp = d.rp := rfl
@[simp] theorem Dev.inc_msixTbl (d : Dev) (off n : Nat) : (d.inc off n).msixTbl = d.msixTbl := rfl
@[simp] theorem Dev.inc_pba (d : Dev) (off n : Nat) : (d.inc off n).pba = d.pba := rfl
@[simp] theorem Dev.inc_cfg (d : Dev) (off n : Nat) : (d.inc off n).cfg = d.cfg := rfl
@[simp] theorem Dev.inc_headDown (d : Dev) (off n : Nat) : (d.inc off n).headDown = d.headDown := rfl
@[simp] theorem Dev.inc_bifNow (d : Dev) (off n : Nat) : (d.inc off n).bifNow = d.bifNow := rfl
@[simp] theorem Dev.inc_ide (d : Dev) (off n : Nat) : (d.inc off n).ide = d.ide := rfl
@[simp] theorem Dev.inc_ideUsed (d : Dev) (off n : Nat) : (d.inc off n).ideUsed = d.ideUsed := rfl
@[simp] theorem Dev.inc_ptmBad (d : Dev) (off n : Nat) : (d.inc off n).ptmBad = d.ptmBad := rfl
@[simp] theorem Dev.inc_ptmLast (d : Dev) (off n : Nat) : (d.inc off n).ptmLast = d.ptmLast := rfl
@[simp] theorem Dev.inc_ptmGood (d : Dev) (off n : Nat) : (d.inc off n).ptmGood = d.ptmGood := rfl
@[simp] theorem Dev.inc_shutState (d : Dev) (off n : Nat) : (d.inc off n).shutState = d.shutState := rfl
@[simp] theorem Dev.inc_alertSet (d : Dev) (off n : Nat) : (d.inc off n).alertSet = d.alertSet := rfl
@[simp] theorem Dev.inc_events (d : Dev) (off n : Nat) : (d.inc off n).events = d.events := rfl
@[simp] theorem Dev.inc_pwDirty (d : Dev) (off n : Nat) : (d.inc off n).pwDirty = d.pwDirty := rfl
@[simp] theorem Dev.inc_pwPoison (d : Dev) (off n : Nat) : (d.inc off n).pwPoison = d.pwPoison := rfl
@[simp] theorem Dev.inc_pwUnmir (d : Dev) (off n : Nat) : (d.inc off n).pwUnmir = d.pwUnmir := rfl
@[simp] theorem Dev.inc_gpfMark (d : Dev) (off n : Nat) : (d.inc off n).gpfMark = d.gpfMark := rfl
@[simp] theorem Dev.inc_gpfRun (d : Dev) (off n : Nat) : (d.inc off n).gpfRun = d.gpfRun := rfl
@[simp] theorem Dev.inc_queues (d : Dev) (off n : Nat) : (d.inc off n).queues = d.queues := rfl
@[simp] theorem Dev.inc_fetchNo (d : Dev) (off n : Nat) : (d.inc off n).fetchNo = d.fetchNo := rfl
@[simp] theorem Dev.inc_slices (d : Dev) (off n : Nat) : (d.inc off n).slices = d.slices := rfl
@[simp] theorem Dev.inc_exp (d : Dev) (off n : Nat) : (d.inc off n).exp = d.exp := rfl
@[simp] theorem Dev.inc_ctxs (d : Dev) (off n : Nat) : (d.inc off n).ctxs = d.ctxs := rfl
@[simp] theorem Dev.inc_ctxStore (d : Dev) (off n : Nat) : (d.inc off n).ctxStore = d.ctxStore := rfl
@[simp] theorem Dev.inc_kek (d : Dev) (off n : Nat) : (d.inc off n).kek = d.kek := rfl
@[simp] theorem Dev.inc_xbufShown (d : Dev) (off n : Nat) : (d.inc off n).xbufShown = d.xbufShown := rfl
@[simp] theorem Dev.inc_zeroing (d : Dev) (off n : Nat) : (d.inc off n).zeroing = d.zeroing := rfl
@[simp] theorem Dev.inc_map (d : Dev) (off n : Nat) : (d.inc off n).map = d.map := rfl
@[simp] theorem Dev.inc_mapPend (d : Dev) (off n : Nat) : (d.inc off n).mapPend = d.mapPend := rfl
@[simp] theorem Dev.inc_resident (d : Dev) (off n : Nat) : (d.inc off n).resident = d.resident := rfl
@[simp] theorem Dev.inc_refBits (d : Dev) (off n : Nat) : (d.inc off n).refBits = d.refBits := rfl
@[simp] theorem Dev.inc_mapWant (d : Dev) (off n : Nat) : (d.inc off n).mapWant = d.mapWant := rfl
@[simp] theorem Dev.inc_dirty (d : Dev) (off n : Nat) : (d.inc off n).dirty = d.dirty := rfl
@[simp] theorem Dev.inc_lost (d : Dev) (off n : Nat) : (d.inc off n).lost = d.lost := rfl
@[simp] theorem Dev.inc_dlog (d : Dev) (off n : Nat) : (d.inc off n).dlog = d.dlog := rfl
@[simp] theorem Dev.inc_dlogStalled (d : Dev) (off n : Nat) : (d.inc off n).dlogStalled = d.dlogStalled := rfl
@[simp] theorem Dev.inc_dlogRing (d : Dev) (off n : Nat) : (d.inc off n).dlogRing = d.dlogRing := rfl
@[simp] theorem Dev.inc_metaAt (d : Dev) (off n : Nat) : (d.inc off n).metaAt = d.metaAt := rfl
@[simp] theorem Dev.inc_bands (d : Dev) (off n : Nat) : (d.inc off n).bands = d.bands := rfl
@[simp] theorem Dev.inc_closeSeq (d : Dev) (off n : Nat) : (d.inc off n).closeSeq = d.closeSeq := rfl
@[simp] theorem Dev.inc_relocs (d : Dev) (off n : Nat) : (d.inc off n).relocs = d.relocs := rfl
@[simp] theorem Dev.inc_cache (d : Dev) (off n : Nat) : (d.inc off n).cache = d.cache := rfl
@[simp] theorem Dev.inc_flash (d : Dev) (off n : Nat) : (d.inc off n).flash = d.flash := rfl
@[simp] theorem Dev.inc_elog (d : Dev) (off n : Nat) : (d.inc off n).elog = d.elog := rfl
@[simp] theorem Dev.inc_gcCredit (d : Dev) (off n : Nat) : (d.inc off n).gcCredit = d.gcCredit := rfl
@[simp] theorem Dev.inc_spareUsed (d : Dev) (off n : Nat) : (d.inc off n).spareUsed = d.spareUsed := rfl
@[simp] theorem Dev.inc_rbUsed (d : Dev) (off n : Nat) : (d.inc off n).rbUsed = d.rbUsed := rfl
@[simp] theorem Dev.inc_fills (d : Dev) (off n : Nat) : (d.inc off n).fills = d.fills := rfl
@[simp] theorem Dev.inc_stripeBuf (d : Dev) (off n : Nat) : (d.inc off n).stripeBuf = d.stripeBuf := rfl
@[simp] theorem Dev.inc_progd (d : Dev) (off n : Nat) : (d.inc off n).progd = d.progd := rfl
@[simp] theorem Dev.inc_chunksOk (d : Dev) (off n : Nat) : (d.inc off n).chunksOk = d.chunksOk := rfl
@[simp] theorem Dev.inc_bmDirty (d : Dev) (off n : Nat) : (d.inc off n).bmDirty = d.bmDirty := rfl
@[simp] theorem Dev.inc_bmClear (d : Dev) (off n : Nat) : (d.inc off n).bmClear = d.bmClear := rfl
@[simp] theorem Dev.inc_bmWait (d : Dev) (off n : Nat) : (d.inc off n).bmWait = d.bmWait := rfl
@[simp] theorem Dev.inc_bmLogs (d : Dev) (off n : Nat) : (d.inc off n).bmLogs = d.bmLogs := rfl
@[simp] theorem Dev.inc_rbQueue (d : Dev) (off n : Nat) : (d.inc off n).rbQueue = d.rbQueue := rfl
@[simp] theorem Dev.inc_lostSlots (d : Dev) (off n : Nat) : (d.inc off n).lostSlots = d.lostSlots := rfl
@[simp] theorem Dev.inc_scanPend (d : Dev) (off n : Nat) : (d.inc off n).scanPend = d.scanPend := rfl
@[simp] theorem Dev.inc_ports (d : Dev) (off n : Nat) : (d.inc off n).ports = d.ports := rfl
@[simp] theorem Dev.inc_bridges (d : Dev) (off n : Nat) : (d.inc off n).bridges = d.bridges := rfl
@[simp] theorem Dev.inc_clsNow (d : Dev) (off n : Nat) : (d.inc off n).clsNow = d.clsNow := rfl
@[simp] theorem Dev.inc_ageNow (d : Dev) (off n : Nat) : (d.inc off n).ageNow = d.ageNow := rfl
@[simp] theorem Dev.inc_susNow (d : Dev) (off n : Nat) : (d.inc off n).susNow = d.susNow := rfl
@[simp] theorem Dev.inc_rbNow (d : Dev) (off n : Nat) : (d.inc off n).rbNow = d.rbNow := rfl
@[simp] theorem Dev.inc_tgTick (d : Dev) (off n : Nat) : (d.inc off n).tgTick = d.tgTick := rfl
@[simp] theorem Dev.inc_timeFig (d : Dev) (off n : Nat) : (d.inc off n).timeFig = d.timeFig := rfl
@[simp] theorem Dev.inc_timePre (d : Dev) (off n : Nat) : (d.inc off n).timePre = d.timePre := rfl
@[simp] theorem Dev.inc_stepPend (d : Dev) (off n : Nat) : (d.inc off n).stepPend = d.stepPend := rfl
@[simp] theorem Dev.inc_lossAt (d : Dev) (off n : Nat) : (d.inc off n).lossAt = d.lossAt := rfl
@[simp] theorem Dev.inc_exGood (d : Dev) (off n : Nat) : (d.inc off n).exGood = d.exGood := rfl
@[simp] theorem Dev.inc_exBad (d : Dev) (off n : Nat) : (d.inc off n).exBad = d.exBad := rfl
@[simp] theorem Dev.inc_exLast (d : Dev) (off n : Nat) : (d.inc off n).exLast = d.exLast := rfl
@[simp] theorem Dev.inc_slewDone (d : Dev) (off n : Nat) : (d.inc off n).slewDone = d.slewDone := rfl
@[simp] theorem Dev.inc_leadCoarse (d : Dev) (off n : Nat) : (d.inc off n).leadCoarse = d.leadCoarse := rfl
@[simp] theorem Dev.inc_trk (d : Dev) (off n : Nat) : (d.inc off n).trk = d.trk := rfl
@[simp] theorem Dev.inc_fresh (d : Dev) (off n : Nat) : (d.inc off n).fresh = d.fresh := rfl
@[simp] theorem Dev.inc_hdOut (d : Dev) (off n : Nat) : (d.inc off n).hdOut = d.hdOut := rfl
@[simp] theorem Dev.inc_wkOut (d : Dev) (off n : Nat) : (d.inc off n).wkOut = d.wkOut := rfl
@[simp] theorem Dev.inc_dpar (d : Dev) (off n : Nat) : (d.inc off n).dpar = d.dpar := rfl
@[simp] theorem Dev.inc_coldPrev (d : Dev) (off n : Nat) : (d.inc off n).coldPrev = d.coldPrev := rfl
@[simp] theorem Dev.inc_coldNow (d : Dev) (off n : Nat) : (d.inc off n).coldNow = d.coldNow := rfl
@[simp] theorem Dev.inc_svSeen (d : Dev) (off n : Nat) : (d.inc off n).svSeen = d.svSeen := rfl
@[simp] theorem Dev.inc_svStart (d : Dev) (off n : Nat) : (d.inc off n).svStart = d.svStart := rfl
@[simp] theorem Dev.inc_svMoved (d : Dev) (off n : Nat) : (d.inc off n).svMoved = d.svMoved := rfl
@[simp] theorem Dev.inc_rfshDays (d : Dev) (off n : Nat) : (d.inc off n).rfshDays = d.rfshDays := rfl
@[simp] theorem Dev.inc_dayTick (d : Dev) (off n : Nat) : (d.inc off n).dayTick = d.dayTick := rfl
@[simp] theorem Dev.inc_crLim (d : Dev) (off n : Nat) : (d.inc off n).crLim = d.crLim := rfl
@[simp] theorem Dev.inc_crWait (d : Dev) (off n : Nat) : (d.inc off n).crWait = d.crWait := rfl
@[simp] theorem Dev.inc_crHold (d : Dev) (off n : Nat) : (d.inc off n).crHold = d.crHold := rfl
@[simp] theorem Dev.inc_hbmPoison (d : Dev) (off n : Nat) : (d.inc off n).hbmPoison = d.hbmPoison := rfl
@[simp] theorem Dev.inc_hbmDead (d : Dev) (off n : Nat) : (d.inc off n).hbmDead = d.hbmDead := rfl
@[simp] theorem Dev.inc_dlogBad (d : Dev) (off n : Nat) : (d.inc off n).dlogBad = d.dlogBad := rfl
@[simp] theorem Dev.inc_hbmLog (d : Dev) (off n : Nat) : (d.inc off n).hbmLog = d.hbmLog := rfl
@[simp] theorem Dev.inc_hbmRecent (d : Dev) (off n : Nat) : (d.inc off n).hbmRecent = d.hbmRecent := rfl
@[simp] theorem Dev.inc_hbmRetired (d : Dev) (off n : Nat) : (d.inc off n).hbmRetired = d.hbmRetired := rfl
@[simp] theorem Dev.inc_hbmBare (d : Dev) (off n : Nat) : (d.inc off n).hbmBare = d.hbmBare := rfl
@[simp] theorem Dev.inc_scrLine (d : Dev) (off n : Nat) : (d.inc off n).scrLine = d.scrLine := rfl
@[simp] theorem Dev.inc_scrStart (d : Dev) (off n : Nat) : (d.inc off n).scrStart = d.scrStart := rfl
@[simp] theorem Dev.inc_sramStart (d : Dev) (off n : Nat) : (d.inc off n).sramStart = d.sramStart := rfl
@[simp] theorem Dev.inc_sleepAt (d : Dev) (off n : Nat) : (d.inc off n).sleepAt = d.sleepAt := rfl
@[simp] theorem Dev.inc_remapped (d : Dev) (off n : Nat) : (d.inc off n).remapped = d.remapped := rfl
@[simp] theorem Dev.inc_arrCe (d : Dev) (off n : Nat) : (d.inc off n).arrCe = d.arrCe := rfl
@[simp] theorem Dev.inc_ceWords (d : Dev) (off n : Nat) : (d.inc off n).ceWords = d.ceWords := rfl
@[simp] theorem Dev.inc_coresOut (d : Dev) (off n : Nat) : (d.inc off n).coresOut = d.coresOut := rfl
@[simp] theorem Dev.inc_coresHit (d : Dev) (off n : Nat) : (d.inc off n).coresHit = d.coresHit := rfl
@[simp] theorem Dev.inc_redNo (d : Dev) (off n : Nat) : (d.inc off n).redNo = d.redNo := rfl
@[simp] theorem Dev.inc_exhausted (d : Dev) (off n : Nat) : (d.inc off n).exhausted = d.exhausted := rfl
@[simp] theorem Dev.inc_conds (d : Dev) (off n : Nat) : (d.inc off n).conds = d.conds := rfl
@[simp] theorem Dev.inc_levelTick (d : Dev) (off n : Nat) : (d.inc off n).levelTick = d.levelTick := rfl
@[simp] theorem Dev.inc_levelEpoch (d : Dev) (off n : Nat) : (d.inc off n).levelEpoch = d.levelEpoch := rfl
@[simp] theorem Dev.inc_peDays (d : Dev) (off n : Nat) : (d.inc off n).peDays = d.peDays := rfl
@[simp] theorem Dev.inc_fmtDays (d : Dev) (off n : Nat) : (d.inc off n).fmtDays = d.fmtDays := rfl
@[simp] theorem Dev.inc_spareFmt (d : Dev) (off n : Nat) : (d.inc off n).spareFmt = d.spareFmt := rfl
@[simp] theorem Dev.inc_incWait (d : Dev) (off n : Nat) : (d.inc off n).incWait = d.incWait := rfl
@[simp] theorem Dev.inc_sbWait (d : Dev) (off n : Nat) : (d.inc off n).sbWait = d.sbWait := rfl
@[simp] theorem Dev.inc_pwDead (d : Dev) (off n : Nat) : (d.inc off n).pwDead = d.pwDead := rfl
@[simp] theorem Dev.inc_pwCured (d : Dev) (off n : Nat) : (d.inc off n).pwCured = d.pwCured := rfl
@[simp] theorem Dev.inc_ctxPend (d : Dev) (off n : Nat) : (d.inc off n).ctxPend = d.ctxPend := rfl
@[simp] theorem Dev.inc_resync (d : Dev) (off n : Nat) : (d.inc off n).resync = d.resync := rfl
@[simp] theorem Dev.inc_giving (d : Dev) (off n : Nat) : (d.inc off n).giving = d.giving := rfl
@[simp] theorem Dev.inc_wants (d : Dev) (off n : Nat) : (d.inc off n).wants = d.wants := rfl
@[simp] theorem Dev.inc_leaving (d : Dev) (off n : Nat) : (d.inc off n).leaving = d.leaving := rfl
@[simp] theorem Dev.inc_metaBack (d : Dev) (off n : Nat) : (d.inc off n).metaBack = d.metaBack := rfl
@[simp] theorem Dev.inc_scanBands (d : Dev) (off n : Nat) : (d.inc off n).scanBands = d.scanBands := rfl
@[simp] theorem Dev.inc_dacc (d : Dev) (off n : Nat) : (d.inc off n).dacc = d.dacc := rfl
@[simp] theorem Dev.inc_fmtOut (d : Dev) (off n : Nat) : (d.inc off n).fmtOut = d.fmtOut := rfl
@[simp] theorem Dev.inc_apWait (d : Dev) (off n : Nat) : (d.inc off n).apWait = d.apWait := rfl
@[simp] theorem Dev.inc_rebuildFmt (d : Dev) (off n : Nat) : (d.inc off n).rebuildFmt = d.rebuildFmt := rfl
@[simp] theorem Dev.inc_endur (d : Dev) (off n : Nat) : (d.inc off n).endur = d.endur := rfl
@[simp] theorem Dev.inc_gTx (d : Dev) (off n : Nat) : (d.inc off n).gTx = d.gTx := rfl
@[simp] theorem Dev.inc_gRx (d : Dev) (off n : Nat) : (d.inc off n).gRx = d.gRx := rfl
@[simp] theorem Dev.inc_gPend (d : Dev) (off n : Nat) : (d.inc off n).gPend = d.gPend := rfl
@[simp] theorem Dev.inc_gPrev (d : Dev) (off n : Nat) : (d.inc off n).gPrev = d.gPrev := rfl
@[simp] theorem Dev.inc_serves (d : Dev) (off n : Nat) : (d.inc off n).serves = d.serves := rfl
@[simp] theorem Dev.inc_syncEnd (d : Dev) (off n : Nat) : (d.inc off n).syncEnd = d.syncEnd := rfl
@[simp] theorem Dev.inc_rekeyOut (d : Dev) (off n : Nat) : (d.inc off n).rekeyOut = d.rekeyOut := rfl
@[simp] theorem Dev.inc_sesTx (d : Dev) (off n : Nat) : (d.inc off n).sesTx = d.sesTx := rfl
@[simp] theorem Dev.inc_sesTxNew (d : Dev) (off n : Nat) : (d.inc off n).sesTxNew = d.sesTxNew := rfl
@[simp] theorem Dev.inc_sesRx (d : Dev) (off n : Nat) : (d.inc off n).sesRx = d.sesRx := rfl
@[simp] theorem Dev.inc_sesRxNew (d : Dev) (off n : Nat) : (d.inc off n).sesRxNew = d.sesRxNew := rfl
@[simp] theorem Dev.inc_shelfNew (d : Dev) (off n : Nat) : (d.inc off n).shelfNew = d.shelfNew := rfl
@[simp] theorem Dev.inc_gSaid (d : Dev) (off n : Nat) : (d.inc off n).gSaid = d.gSaid := rfl
@[simp] theorem Dev.inc_shelf (d : Dev) (off n : Nat) : (d.inc off n).shelf = d.shelf := rfl
@[simp] theorem Dev.inc_pairKey (d : Dev) (off n : Nat) : (d.inc off n).pairKey = d.pairKey := rfl
@[simp] theorem Dev.inc_gLastRx (d : Dev) (off n : Nat) : (d.inc off n).gLastRx = d.gLastRx := rfl
@[simp] theorem Dev.inc_gLastTx (d : Dev) (off n : Nat) : (d.inc off n).gLastTx = d.gLastTx := rfl
@[simp] theorem Dev.inc_twinUsed (d : Dev) (off n : Nat) : (d.inc off n).twinUsed = d.twinUsed := rfl
@[simp] theorem Dev.inc_twinState (d : Dev) (off n : Nat) : (d.inc off n).twinState = d.twinState := rfl
@[simp] theorem Dev.inc_twinPtm (d : Dev) (off n : Nat) : (d.inc off n).twinPtm = d.twinPtm := rfl
@[simp] theorem Dev.inc_decided (d : Dev) (off n : Nat) : (d.inc off n).decided = d.decided := rfl
@[simp] theorem Dev.inc_decidedEp (d : Dev) (off n : Nat) : (d.inc off n).decidedEp = d.decidedEp := rfl
@[simp] theorem Dev.inc_taking (d : Dev) (off n : Nat) : (d.inc off n).taking = d.taking := rfl
@[simp] theorem Dev.inc_takes (d : Dev) (off n : Nat) : (d.inc off n).takes = d.takes := rfl
@[simp] theorem Dev.inc_twinSlices (d : Dev) (off n : Nat) : (d.inc off n).twinSlices = d.twinSlices := rfl
@[simp] theorem Dev.inc_twinVers (d : Dev) (off n : Nat) : (d.inc off n).twinVers = d.twinVers := rfl
@[simp] theorem Dev.inc_twinCtxs (d : Dev) (off n : Nat) : (d.inc off n).twinCtxs = d.twinCtxs := rfl
@[simp] theorem Dev.inc_twinRegions (d : Dev) (off n : Nat) : (d.inc off n).twinRegions = d.twinRegions := rfl
@[simp] theorem Dev.inc_pwTwin (d : Dev) (off n : Nat) : (d.inc off n).pwTwin = d.pwTwin := rfl
@[simp] theorem Dev.inc_freeQ (d : Dev) (off n : Nat) : (d.inc off n).freeQ = d.freeQ := rfl
@[simp] theorem Dev.inc_hbCtl (d : Dev) (off n : Nat) : (d.inc off n).hbCtl = d.hbCtl := rfl
@[simp] theorem Dev.inc_pairStart (d : Dev) (off n : Nat) : (d.inc off n).pairStart = d.pairStart := rfl
@[simp] theorem Dev.inc_doms (d : Dev) (off n : Nat) : (d.inc off n).doms = d.doms := rfl
@[simp] theorem Dev.inc_nvm (d : Dev) (off n : Nat) : (d.inc off n).nvm = d.nvm := rfl
@[simp] theorem Dev.inc_dumpAt (d : Dev) (off n : Nat) : (d.inc off n).dumpAt = d.dumpAt := rfl
@[simp] theorem Dev.inc_dumpSrc (d : Dev) (off n : Nat) : (d.inc off n).dumpSrc = d.dumpSrc := rfl
@[simp] theorem Dev.inc_stayDown (d : Dev) (off n : Nat) : (d.inc off n).stayDown = d.stayDown := rfl
@[simp] theorem Dev.inc_nHost (d : Dev) (off n : Nat) : (d.inc off n).nHost = d.nHost := rfl
@[simp] theorem Dev.inc_nFirm (d : Dev) (off n : Nat) : (d.inc off n).nFirm = d.nFirm := rfl
@[simp] theorem Dev.inc_nRun (d : Dev) (off n : Nat) : (d.inc off n).nRun = d.nRun := rfl
@[simp] theorem Dev.inc_nSus (d : Dev) (off n : Nat) : (d.inc off n).nSus = d.nSus := rfl
@[simp] theorem Dev.inc_nSec (d : Dev) (off n : Nat) : (d.inc off n).nSec = d.nSec := rfl
@[simp] theorem Dev.inc_entryTgt (d : Dev) (off n : Nat) : (d.inc off n).entryTgt = d.entryTgt := rfl
@[simp] theorem Dev.inc_bring (d : Dev) (off n : Nat) : (d.inc off n).bring = d.bring := rfl
@[simp] theorem Dev.inc_enMain (d : Dev) (off n : Nat) : (d.inc off n).enMain = d.enMain := rfl
@[simp] theorem Dev.inc_pgMain (d : Dev) (off n : Nat) : (d.inc off n).pgMain = d.pgMain := rfl
@[simp] theorem Dev.inc_aoUp (d : Dev) (off n : Nat) : (d.inc off n).aoUp = d.aoUp := rfl
@[simp] theorem Dev.inc_pgTry (d : Dev) (off n : Nat) : (d.inc off n).pgTry = d.pgTry := rfl
@[simp] theorem Dev.inc_t0 (d : Dev) (off n : Nat) : (d.inc off n).t0 = d.t0 := rfl
@[simp] theorem Dev.inc_restored (d : Dev) (off n : Nat) : (d.inc off n).restored = d.restored := rfl
@[simp] theorem Dev.inc_counted (d : Dev) (off n : Nat) : (d.inc off n).counted = d.counted := rfl
@[simp] theorem Dev.inc_resetDefer (d : Dev) (off n : Nat) : (d.inc off n).resetDefer = d.resetDefer := rfl
@[simp] theorem Dev.inc_timeSave (d : Dev) (off n : Nat) : (d.inc off n).timeSave = d.timeSave := rfl
@[simp] theorem Dev.inc_saveDue (d : Dev) (off n : Nat) : (d.inc off n).saveDue = d.saveDue := rfl
@[simp] theorem Dev.inc_wakeHeld (d : Dev) (off n : Nat) : (d.inc off n).wakeHeld = d.wakeHeld := rfl
@[simp] theorem Dev.inc_down (d : Dev) (off n : Nat) : (d.inc off n).down = d.down := rfl
@[simp] theorem Dev.inc_pins (d : Dev) (off n : Nat) : (d.inc off n).pins = d.pins := rfl

/-! ### `Dev.inc64` -/

@[simp] theorem Dev.inc64_published (d : Dev) (lo hi n : Nat) : (d.inc64 lo hi n).published = d.published := rfl
@[simp] theorem Dev.inc64_pages (d : Dev) (lo hi n : Nat) : (d.inc64 lo hi n).pages = d.pages := rfl
@[simp] theorem Dev.inc64_comSeq (d : Dev) (lo hi n : Nat) : (d.inc64 lo hi n).comSeq = d.comSeq := rfl
@[simp] theorem Dev.inc64_comTick (d : Dev) (lo hi n : Nat) : (d.inc64 lo hi n).comTick = d.comTick := rfl
@[simp] theorem Dev.inc64_out (d : Dev) (lo hi n : Nat) : (d.inc64 lo hi n).out = d.out := rfl
@[simp] theorem Dev.inc64_tick (d : Dev) (lo hi n : Nat) : (d.inc64 lo hi n).tick = d.tick := rfl
@[simp] theorem Dev.inc64_draws (d : Dev) (lo hi n : Nat) : (d.inc64 lo hi n).draws = d.draws := rfl
@[simp] theorem Dev.inc64_supplyLost (d : Dev) (lo hi n : Nat) : (d.inc64 lo hi n).supplyLost = d.supplyLost := rfl
@[simp] theorem Dev.inc64_resetRun (d : Dev) (lo hi n : Nat) : (d.inc64 lo hi n).resetRun = d.resetRun := rfl
@[simp] theorem Dev.inc64_latHi (d : Dev) (lo hi n : Nat) : (d.inc64 lo hi n).latHi = d.latHi := rfl
@[simp] theorem Dev.inc64_accHead (d : Dev) (lo hi n : Nat) : (d.inc64 lo hi n).accHead = d.accHead := rfl
@[simp] theorem Dev.inc64_latEpoch (d : Dev) (lo hi n : Nat) : (d.inc64 lo hi n).latEpoch = d.latEpoch := rfl
@[simp] theorem Dev.inc64_incidents (d : Dev) (lo hi n : Nat) : (d.inc64 lo hi n).incidents = d.incidents := rfl
@[simp] theorem Dev.inc64_banks (d : Dev) (lo hi n : Nat) : (d.inc64 lo hi n).banks = d.banks := rfl
@[simp] theorem Dev.inc64_cap (d : Dev) (lo hi n : Nat) : (d.inc64 lo hi n).cap = d.cap := rfl
@[simp] theorem Dev.inc64_rp (d : Dev) (lo hi n : Nat) : (d.inc64 lo hi n).rp = d.rp := rfl
@[simp] theorem Dev.inc64_msixTbl (d : Dev) (lo hi n : Nat) : (d.inc64 lo hi n).msixTbl = d.msixTbl := rfl
@[simp] theorem Dev.inc64_pba (d : Dev) (lo hi n : Nat) : (d.inc64 lo hi n).pba = d.pba := rfl
@[simp] theorem Dev.inc64_cfg (d : Dev) (lo hi n : Nat) : (d.inc64 lo hi n).cfg = d.cfg := rfl
@[simp] theorem Dev.inc64_headDown (d : Dev) (lo hi n : Nat) : (d.inc64 lo hi n).headDown = d.headDown := rfl
@[simp] theorem Dev.inc64_bifNow (d : Dev) (lo hi n : Nat) : (d.inc64 lo hi n).bifNow = d.bifNow := rfl
@[simp] theorem Dev.inc64_ide (d : Dev) (lo hi n : Nat) : (d.inc64 lo hi n).ide = d.ide := rfl
@[simp] theorem Dev.inc64_ideUsed (d : Dev) (lo hi n : Nat) : (d.inc64 lo hi n).ideUsed = d.ideUsed := rfl
@[simp] theorem Dev.inc64_ptmBad (d : Dev) (lo hi n : Nat) : (d.inc64 lo hi n).ptmBad = d.ptmBad := rfl
@[simp] theorem Dev.inc64_ptmLast (d : Dev) (lo hi n : Nat) : (d.inc64 lo hi n).ptmLast = d.ptmLast := rfl
@[simp] theorem Dev.inc64_ptmGood (d : Dev) (lo hi n : Nat) : (d.inc64 lo hi n).ptmGood = d.ptmGood := rfl
@[simp] theorem Dev.inc64_shutState (d : Dev) (lo hi n : Nat) : (d.inc64 lo hi n).shutState = d.shutState := rfl
@[simp] theorem Dev.inc64_alertSet (d : Dev) (lo hi n : Nat) : (d.inc64 lo hi n).alertSet = d.alertSet := rfl
@[simp] theorem Dev.inc64_events (d : Dev) (lo hi n : Nat) : (d.inc64 lo hi n).events = d.events := rfl
@[simp] theorem Dev.inc64_pwDirty (d : Dev) (lo hi n : Nat) : (d.inc64 lo hi n).pwDirty = d.pwDirty := rfl
@[simp] theorem Dev.inc64_pwPoison (d : Dev) (lo hi n : Nat) : (d.inc64 lo hi n).pwPoison = d.pwPoison := rfl
@[simp] theorem Dev.inc64_pwUnmir (d : Dev) (lo hi n : Nat) : (d.inc64 lo hi n).pwUnmir = d.pwUnmir := rfl
@[simp] theorem Dev.inc64_gpfMark (d : Dev) (lo hi n : Nat) : (d.inc64 lo hi n).gpfMark = d.gpfMark := rfl
@[simp] theorem Dev.inc64_gpfRun (d : Dev) (lo hi n : Nat) : (d.inc64 lo hi n).gpfRun = d.gpfRun := rfl
@[simp] theorem Dev.inc64_queues (d : Dev) (lo hi n : Nat) : (d.inc64 lo hi n).queues = d.queues := rfl
@[simp] theorem Dev.inc64_fetchNo (d : Dev) (lo hi n : Nat) : (d.inc64 lo hi n).fetchNo = d.fetchNo := rfl
@[simp] theorem Dev.inc64_slices (d : Dev) (lo hi n : Nat) : (d.inc64 lo hi n).slices = d.slices := rfl
@[simp] theorem Dev.inc64_exp (d : Dev) (lo hi n : Nat) : (d.inc64 lo hi n).exp = d.exp := rfl
@[simp] theorem Dev.inc64_ctxs (d : Dev) (lo hi n : Nat) : (d.inc64 lo hi n).ctxs = d.ctxs := rfl
@[simp] theorem Dev.inc64_ctxStore (d : Dev) (lo hi n : Nat) : (d.inc64 lo hi n).ctxStore = d.ctxStore := rfl
@[simp] theorem Dev.inc64_kek (d : Dev) (lo hi n : Nat) : (d.inc64 lo hi n).kek = d.kek := rfl
@[simp] theorem Dev.inc64_xbufShown (d : Dev) (lo hi n : Nat) : (d.inc64 lo hi n).xbufShown = d.xbufShown := rfl
@[simp] theorem Dev.inc64_zeroing (d : Dev) (lo hi n : Nat) : (d.inc64 lo hi n).zeroing = d.zeroing := rfl
@[simp] theorem Dev.inc64_map (d : Dev) (lo hi n : Nat) : (d.inc64 lo hi n).map = d.map := rfl
@[simp] theorem Dev.inc64_mapPend (d : Dev) (lo hi n : Nat) : (d.inc64 lo hi n).mapPend = d.mapPend := rfl
@[simp] theorem Dev.inc64_resident (d : Dev) (lo hi n : Nat) : (d.inc64 lo hi n).resident = d.resident := rfl
@[simp] theorem Dev.inc64_refBits (d : Dev) (lo hi n : Nat) : (d.inc64 lo hi n).refBits = d.refBits := rfl
@[simp] theorem Dev.inc64_mapWant (d : Dev) (lo hi n : Nat) : (d.inc64 lo hi n).mapWant = d.mapWant := rfl
@[simp] theorem Dev.inc64_dirty (d : Dev) (lo hi n : Nat) : (d.inc64 lo hi n).dirty = d.dirty := rfl
@[simp] theorem Dev.inc64_lost (d : Dev) (lo hi n : Nat) : (d.inc64 lo hi n).lost = d.lost := rfl
@[simp] theorem Dev.inc64_dlog (d : Dev) (lo hi n : Nat) : (d.inc64 lo hi n).dlog = d.dlog := rfl
@[simp] theorem Dev.inc64_dlogStalled (d : Dev) (lo hi n : Nat) : (d.inc64 lo hi n).dlogStalled = d.dlogStalled := rfl
@[simp] theorem Dev.inc64_dlogRing (d : Dev) (lo hi n : Nat) : (d.inc64 lo hi n).dlogRing = d.dlogRing := rfl
@[simp] theorem Dev.inc64_metaAt (d : Dev) (lo hi n : Nat) : (d.inc64 lo hi n).metaAt = d.metaAt := rfl
@[simp] theorem Dev.inc64_bands (d : Dev) (lo hi n : Nat) : (d.inc64 lo hi n).bands = d.bands := rfl
@[simp] theorem Dev.inc64_closeSeq (d : Dev) (lo hi n : Nat) : (d.inc64 lo hi n).closeSeq = d.closeSeq := rfl
@[simp] theorem Dev.inc64_relocs (d : Dev) (lo hi n : Nat) : (d.inc64 lo hi n).relocs = d.relocs := rfl
@[simp] theorem Dev.inc64_cache (d : Dev) (lo hi n : Nat) : (d.inc64 lo hi n).cache = d.cache := rfl
@[simp] theorem Dev.inc64_flash (d : Dev) (lo hi n : Nat) : (d.inc64 lo hi n).flash = d.flash := rfl
@[simp] theorem Dev.inc64_elog (d : Dev) (lo hi n : Nat) : (d.inc64 lo hi n).elog = d.elog := rfl
@[simp] theorem Dev.inc64_gcCredit (d : Dev) (lo hi n : Nat) : (d.inc64 lo hi n).gcCredit = d.gcCredit := rfl
@[simp] theorem Dev.inc64_spareUsed (d : Dev) (lo hi n : Nat) : (d.inc64 lo hi n).spareUsed = d.spareUsed := rfl
@[simp] theorem Dev.inc64_rbUsed (d : Dev) (lo hi n : Nat) : (d.inc64 lo hi n).rbUsed = d.rbUsed := rfl
@[simp] theorem Dev.inc64_fills (d : Dev) (lo hi n : Nat) : (d.inc64 lo hi n).fills = d.fills := rfl
@[simp] theorem Dev.inc64_stripeBuf (d : Dev) (lo hi n : Nat) : (d.inc64 lo hi n).stripeBuf = d.stripeBuf := rfl
@[simp] theorem Dev.inc64_progd (d : Dev) (lo hi n : Nat) : (d.inc64 lo hi n).progd = d.progd := rfl
@[simp] theorem Dev.inc64_chunksOk (d : Dev) (lo hi n : Nat) : (d.inc64 lo hi n).chunksOk = d.chunksOk := rfl
@[simp] theorem Dev.inc64_bmDirty (d : Dev) (lo hi n : Nat) : (d.inc64 lo hi n).bmDirty = d.bmDirty := rfl
@[simp] theorem Dev.inc64_bmClear (d : Dev) (lo hi n : Nat) : (d.inc64 lo hi n).bmClear = d.bmClear := rfl
@[simp] theorem Dev.inc64_bmWait (d : Dev) (lo hi n : Nat) : (d.inc64 lo hi n).bmWait = d.bmWait := rfl
@[simp] theorem Dev.inc64_bmLogs (d : Dev) (lo hi n : Nat) : (d.inc64 lo hi n).bmLogs = d.bmLogs := rfl
@[simp] theorem Dev.inc64_rbQueue (d : Dev) (lo hi n : Nat) : (d.inc64 lo hi n).rbQueue = d.rbQueue := rfl
@[simp] theorem Dev.inc64_lostSlots (d : Dev) (lo hi n : Nat) : (d.inc64 lo hi n).lostSlots = d.lostSlots := rfl
@[simp] theorem Dev.inc64_scanPend (d : Dev) (lo hi n : Nat) : (d.inc64 lo hi n).scanPend = d.scanPend := rfl
@[simp] theorem Dev.inc64_ports (d : Dev) (lo hi n : Nat) : (d.inc64 lo hi n).ports = d.ports := rfl
@[simp] theorem Dev.inc64_bridges (d : Dev) (lo hi n : Nat) : (d.inc64 lo hi n).bridges = d.bridges := rfl
@[simp] theorem Dev.inc64_clsNow (d : Dev) (lo hi n : Nat) : (d.inc64 lo hi n).clsNow = d.clsNow := rfl
@[simp] theorem Dev.inc64_ageNow (d : Dev) (lo hi n : Nat) : (d.inc64 lo hi n).ageNow = d.ageNow := rfl
@[simp] theorem Dev.inc64_susNow (d : Dev) (lo hi n : Nat) : (d.inc64 lo hi n).susNow = d.susNow := rfl
@[simp] theorem Dev.inc64_rbNow (d : Dev) (lo hi n : Nat) : (d.inc64 lo hi n).rbNow = d.rbNow := rfl
@[simp] theorem Dev.inc64_tgTick (d : Dev) (lo hi n : Nat) : (d.inc64 lo hi n).tgTick = d.tgTick := rfl
@[simp] theorem Dev.inc64_timeFig (d : Dev) (lo hi n : Nat) : (d.inc64 lo hi n).timeFig = d.timeFig := rfl
@[simp] theorem Dev.inc64_timePre (d : Dev) (lo hi n : Nat) : (d.inc64 lo hi n).timePre = d.timePre := rfl
@[simp] theorem Dev.inc64_stepPend (d : Dev) (lo hi n : Nat) : (d.inc64 lo hi n).stepPend = d.stepPend := rfl
@[simp] theorem Dev.inc64_lossAt (d : Dev) (lo hi n : Nat) : (d.inc64 lo hi n).lossAt = d.lossAt := rfl
@[simp] theorem Dev.inc64_exGood (d : Dev) (lo hi n : Nat) : (d.inc64 lo hi n).exGood = d.exGood := rfl
@[simp] theorem Dev.inc64_exBad (d : Dev) (lo hi n : Nat) : (d.inc64 lo hi n).exBad = d.exBad := rfl
@[simp] theorem Dev.inc64_exLast (d : Dev) (lo hi n : Nat) : (d.inc64 lo hi n).exLast = d.exLast := rfl
@[simp] theorem Dev.inc64_slewDone (d : Dev) (lo hi n : Nat) : (d.inc64 lo hi n).slewDone = d.slewDone := rfl
@[simp] theorem Dev.inc64_leadCoarse (d : Dev) (lo hi n : Nat) : (d.inc64 lo hi n).leadCoarse = d.leadCoarse := rfl
@[simp] theorem Dev.inc64_trk (d : Dev) (lo hi n : Nat) : (d.inc64 lo hi n).trk = d.trk := rfl
@[simp] theorem Dev.inc64_fresh (d : Dev) (lo hi n : Nat) : (d.inc64 lo hi n).fresh = d.fresh := rfl
@[simp] theorem Dev.inc64_hdOut (d : Dev) (lo hi n : Nat) : (d.inc64 lo hi n).hdOut = d.hdOut := rfl
@[simp] theorem Dev.inc64_wkOut (d : Dev) (lo hi n : Nat) : (d.inc64 lo hi n).wkOut = d.wkOut := rfl
@[simp] theorem Dev.inc64_dpar (d : Dev) (lo hi n : Nat) : (d.inc64 lo hi n).dpar = d.dpar := rfl
@[simp] theorem Dev.inc64_coldPrev (d : Dev) (lo hi n : Nat) : (d.inc64 lo hi n).coldPrev = d.coldPrev := rfl
@[simp] theorem Dev.inc64_coldNow (d : Dev) (lo hi n : Nat) : (d.inc64 lo hi n).coldNow = d.coldNow := rfl
@[simp] theorem Dev.inc64_svSeen (d : Dev) (lo hi n : Nat) : (d.inc64 lo hi n).svSeen = d.svSeen := rfl
@[simp] theorem Dev.inc64_svStart (d : Dev) (lo hi n : Nat) : (d.inc64 lo hi n).svStart = d.svStart := rfl
@[simp] theorem Dev.inc64_svMoved (d : Dev) (lo hi n : Nat) : (d.inc64 lo hi n).svMoved = d.svMoved := rfl
@[simp] theorem Dev.inc64_rfshDays (d : Dev) (lo hi n : Nat) : (d.inc64 lo hi n).rfshDays = d.rfshDays := rfl
@[simp] theorem Dev.inc64_dayTick (d : Dev) (lo hi n : Nat) : (d.inc64 lo hi n).dayTick = d.dayTick := rfl
@[simp] theorem Dev.inc64_crLim (d : Dev) (lo hi n : Nat) : (d.inc64 lo hi n).crLim = d.crLim := rfl
@[simp] theorem Dev.inc64_crWait (d : Dev) (lo hi n : Nat) : (d.inc64 lo hi n).crWait = d.crWait := rfl
@[simp] theorem Dev.inc64_crHold (d : Dev) (lo hi n : Nat) : (d.inc64 lo hi n).crHold = d.crHold := rfl
@[simp] theorem Dev.inc64_hbmPoison (d : Dev) (lo hi n : Nat) : (d.inc64 lo hi n).hbmPoison = d.hbmPoison := rfl
@[simp] theorem Dev.inc64_hbmDead (d : Dev) (lo hi n : Nat) : (d.inc64 lo hi n).hbmDead = d.hbmDead := rfl
@[simp] theorem Dev.inc64_dlogBad (d : Dev) (lo hi n : Nat) : (d.inc64 lo hi n).dlogBad = d.dlogBad := rfl
@[simp] theorem Dev.inc64_hbmLog (d : Dev) (lo hi n : Nat) : (d.inc64 lo hi n).hbmLog = d.hbmLog := rfl
@[simp] theorem Dev.inc64_hbmRecent (d : Dev) (lo hi n : Nat) : (d.inc64 lo hi n).hbmRecent = d.hbmRecent := rfl
@[simp] theorem Dev.inc64_hbmRetired (d : Dev) (lo hi n : Nat) : (d.inc64 lo hi n).hbmRetired = d.hbmRetired := rfl
@[simp] theorem Dev.inc64_hbmBare (d : Dev) (lo hi n : Nat) : (d.inc64 lo hi n).hbmBare = d.hbmBare := rfl
@[simp] theorem Dev.inc64_scrLine (d : Dev) (lo hi n : Nat) : (d.inc64 lo hi n).scrLine = d.scrLine := rfl
@[simp] theorem Dev.inc64_scrStart (d : Dev) (lo hi n : Nat) : (d.inc64 lo hi n).scrStart = d.scrStart := rfl
@[simp] theorem Dev.inc64_sramStart (d : Dev) (lo hi n : Nat) : (d.inc64 lo hi n).sramStart = d.sramStart := rfl
@[simp] theorem Dev.inc64_sleepAt (d : Dev) (lo hi n : Nat) : (d.inc64 lo hi n).sleepAt = d.sleepAt := rfl
@[simp] theorem Dev.inc64_remapped (d : Dev) (lo hi n : Nat) : (d.inc64 lo hi n).remapped = d.remapped := rfl
@[simp] theorem Dev.inc64_arrCe (d : Dev) (lo hi n : Nat) : (d.inc64 lo hi n).arrCe = d.arrCe := rfl
@[simp] theorem Dev.inc64_ceWords (d : Dev) (lo hi n : Nat) : (d.inc64 lo hi n).ceWords = d.ceWords := rfl
@[simp] theorem Dev.inc64_coresOut (d : Dev) (lo hi n : Nat) : (d.inc64 lo hi n).coresOut = d.coresOut := rfl
@[simp] theorem Dev.inc64_coresHit (d : Dev) (lo hi n : Nat) : (d.inc64 lo hi n).coresHit = d.coresHit := rfl
@[simp] theorem Dev.inc64_redNo (d : Dev) (lo hi n : Nat) : (d.inc64 lo hi n).redNo = d.redNo := rfl
@[simp] theorem Dev.inc64_exhausted (d : Dev) (lo hi n : Nat) : (d.inc64 lo hi n).exhausted = d.exhausted := rfl
@[simp] theorem Dev.inc64_conds (d : Dev) (lo hi n : Nat) : (d.inc64 lo hi n).conds = d.conds := rfl
@[simp] theorem Dev.inc64_levelTick (d : Dev) (lo hi n : Nat) : (d.inc64 lo hi n).levelTick = d.levelTick := rfl
@[simp] theorem Dev.inc64_levelEpoch (d : Dev) (lo hi n : Nat) : (d.inc64 lo hi n).levelEpoch = d.levelEpoch := rfl
@[simp] theorem Dev.inc64_peDays (d : Dev) (lo hi n : Nat) : (d.inc64 lo hi n).peDays = d.peDays := rfl
@[simp] theorem Dev.inc64_fmtDays (d : Dev) (lo hi n : Nat) : (d.inc64 lo hi n).fmtDays = d.fmtDays := rfl
@[simp] theorem Dev.inc64_spareFmt (d : Dev) (lo hi n : Nat) : (d.inc64 lo hi n).spareFmt = d.spareFmt := rfl
@[simp] theorem Dev.inc64_incWait (d : Dev) (lo hi n : Nat) : (d.inc64 lo hi n).incWait = d.incWait := rfl
@[simp] theorem Dev.inc64_sbWait (d : Dev) (lo hi n : Nat) : (d.inc64 lo hi n).sbWait = d.sbWait := rfl
@[simp] theorem Dev.inc64_pwDead (d : Dev) (lo hi n : Nat) : (d.inc64 lo hi n).pwDead = d.pwDead := rfl
@[simp] theorem Dev.inc64_pwCured (d : Dev) (lo hi n : Nat) : (d.inc64 lo hi n).pwCured = d.pwCured := rfl
@[simp] theorem Dev.inc64_ctxPend (d : Dev) (lo hi n : Nat) : (d.inc64 lo hi n).ctxPend = d.ctxPend := rfl
@[simp] theorem Dev.inc64_resync (d : Dev) (lo hi n : Nat) : (d.inc64 lo hi n).resync = d.resync := rfl
@[simp] theorem Dev.inc64_giving (d : Dev) (lo hi n : Nat) : (d.inc64 lo hi n).giving = d.giving := rfl
@[simp] theorem Dev.inc64_wants (d : Dev) (lo hi n : Nat) : (d.inc64 lo hi n).wants = d.wants := rfl
@[simp] theorem Dev.inc64_leaving (d : Dev) (lo hi n : Nat) : (d.inc64 lo hi n).leaving = d.leaving := rfl
@[simp] theorem Dev.inc64_metaBack (d : Dev) (lo hi n : Nat) : (d.inc64 lo hi n).metaBack = d.metaBack := rfl
@[simp] theorem Dev.inc64_scanBands (d : Dev) (lo hi n : Nat) : (d.inc64 lo hi n).scanBands = d.scanBands := rfl
@[simp] theorem Dev.inc64_dacc (d : Dev) (lo hi n : Nat) : (d.inc64 lo hi n).dacc = d.dacc := rfl
@[simp] theorem Dev.inc64_fmtOut (d : Dev) (lo hi n : Nat) : (d.inc64 lo hi n).fmtOut = d.fmtOut := rfl
@[simp] theorem Dev.inc64_apWait (d : Dev) (lo hi n : Nat) : (d.inc64 lo hi n).apWait = d.apWait := rfl
@[simp] theorem Dev.inc64_rebuildFmt (d : Dev) (lo hi n : Nat) : (d.inc64 lo hi n).rebuildFmt = d.rebuildFmt := rfl
@[simp] theorem Dev.inc64_endur (d : Dev) (lo hi n : Nat) : (d.inc64 lo hi n).endur = d.endur := rfl
@[simp] theorem Dev.inc64_gTx (d : Dev) (lo hi n : Nat) : (d.inc64 lo hi n).gTx = d.gTx := rfl
@[simp] theorem Dev.inc64_gRx (d : Dev) (lo hi n : Nat) : (d.inc64 lo hi n).gRx = d.gRx := rfl
@[simp] theorem Dev.inc64_gPend (d : Dev) (lo hi n : Nat) : (d.inc64 lo hi n).gPend = d.gPend := rfl
@[simp] theorem Dev.inc64_gPrev (d : Dev) (lo hi n : Nat) : (d.inc64 lo hi n).gPrev = d.gPrev := rfl
@[simp] theorem Dev.inc64_serves (d : Dev) (lo hi n : Nat) : (d.inc64 lo hi n).serves = d.serves := rfl
@[simp] theorem Dev.inc64_syncEnd (d : Dev) (lo hi n : Nat) : (d.inc64 lo hi n).syncEnd = d.syncEnd := rfl
@[simp] theorem Dev.inc64_rekeyOut (d : Dev) (lo hi n : Nat) : (d.inc64 lo hi n).rekeyOut = d.rekeyOut := rfl
@[simp] theorem Dev.inc64_sesTx (d : Dev) (lo hi n : Nat) : (d.inc64 lo hi n).sesTx = d.sesTx := rfl
@[simp] theorem Dev.inc64_sesTxNew (d : Dev) (lo hi n : Nat) : (d.inc64 lo hi n).sesTxNew = d.sesTxNew := rfl
@[simp] theorem Dev.inc64_sesRx (d : Dev) (lo hi n : Nat) : (d.inc64 lo hi n).sesRx = d.sesRx := rfl
@[simp] theorem Dev.inc64_sesRxNew (d : Dev) (lo hi n : Nat) : (d.inc64 lo hi n).sesRxNew = d.sesRxNew := rfl
@[simp] theorem Dev.inc64_shelfNew (d : Dev) (lo hi n : Nat) : (d.inc64 lo hi n).shelfNew = d.shelfNew := rfl
@[simp] theorem Dev.inc64_gSaid (d : Dev) (lo hi n : Nat) : (d.inc64 lo hi n).gSaid = d.gSaid := rfl
@[simp] theorem Dev.inc64_shelf (d : Dev) (lo hi n : Nat) : (d.inc64 lo hi n).shelf = d.shelf := rfl
@[simp] theorem Dev.inc64_pairKey (d : Dev) (lo hi n : Nat) : (d.inc64 lo hi n).pairKey = d.pairKey := rfl
@[simp] theorem Dev.inc64_gLastRx (d : Dev) (lo hi n : Nat) : (d.inc64 lo hi n).gLastRx = d.gLastRx := rfl
@[simp] theorem Dev.inc64_gLastTx (d : Dev) (lo hi n : Nat) : (d.inc64 lo hi n).gLastTx = d.gLastTx := rfl
@[simp] theorem Dev.inc64_twinUsed (d : Dev) (lo hi n : Nat) : (d.inc64 lo hi n).twinUsed = d.twinUsed := rfl
@[simp] theorem Dev.inc64_twinState (d : Dev) (lo hi n : Nat) : (d.inc64 lo hi n).twinState = d.twinState := rfl
@[simp] theorem Dev.inc64_twinPtm (d : Dev) (lo hi n : Nat) : (d.inc64 lo hi n).twinPtm = d.twinPtm := rfl
@[simp] theorem Dev.inc64_decided (d : Dev) (lo hi n : Nat) : (d.inc64 lo hi n).decided = d.decided := rfl
@[simp] theorem Dev.inc64_decidedEp (d : Dev) (lo hi n : Nat) : (d.inc64 lo hi n).decidedEp = d.decidedEp := rfl
@[simp] theorem Dev.inc64_taking (d : Dev) (lo hi n : Nat) : (d.inc64 lo hi n).taking = d.taking := rfl
@[simp] theorem Dev.inc64_takes (d : Dev) (lo hi n : Nat) : (d.inc64 lo hi n).takes = d.takes := rfl
@[simp] theorem Dev.inc64_twinSlices (d : Dev) (lo hi n : Nat) : (d.inc64 lo hi n).twinSlices = d.twinSlices := rfl
@[simp] theorem Dev.inc64_twinVers (d : Dev) (lo hi n : Nat) : (d.inc64 lo hi n).twinVers = d.twinVers := rfl
@[simp] theorem Dev.inc64_twinCtxs (d : Dev) (lo hi n : Nat) : (d.inc64 lo hi n).twinCtxs = d.twinCtxs := rfl
@[simp] theorem Dev.inc64_twinRegions (d : Dev) (lo hi n : Nat) : (d.inc64 lo hi n).twinRegions = d.twinRegions := rfl
@[simp] theorem Dev.inc64_pwTwin (d : Dev) (lo hi n : Nat) : (d.inc64 lo hi n).pwTwin = d.pwTwin := rfl
@[simp] theorem Dev.inc64_freeQ (d : Dev) (lo hi n : Nat) : (d.inc64 lo hi n).freeQ = d.freeQ := rfl
@[simp] theorem Dev.inc64_hbCtl (d : Dev) (lo hi n : Nat) : (d.inc64 lo hi n).hbCtl = d.hbCtl := rfl
@[simp] theorem Dev.inc64_pairStart (d : Dev) (lo hi n : Nat) : (d.inc64 lo hi n).pairStart = d.pairStart := rfl
@[simp] theorem Dev.inc64_doms (d : Dev) (lo hi n : Nat) : (d.inc64 lo hi n).doms = d.doms := rfl
@[simp] theorem Dev.inc64_nvm (d : Dev) (lo hi n : Nat) : (d.inc64 lo hi n).nvm = d.nvm := rfl
@[simp] theorem Dev.inc64_dumpAt (d : Dev) (lo hi n : Nat) : (d.inc64 lo hi n).dumpAt = d.dumpAt := rfl
@[simp] theorem Dev.inc64_dumpSrc (d : Dev) (lo hi n : Nat) : (d.inc64 lo hi n).dumpSrc = d.dumpSrc := rfl
@[simp] theorem Dev.inc64_stayDown (d : Dev) (lo hi n : Nat) : (d.inc64 lo hi n).stayDown = d.stayDown := rfl
@[simp] theorem Dev.inc64_nHost (d : Dev) (lo hi n : Nat) : (d.inc64 lo hi n).nHost = d.nHost := rfl
@[simp] theorem Dev.inc64_nFirm (d : Dev) (lo hi n : Nat) : (d.inc64 lo hi n).nFirm = d.nFirm := rfl
@[simp] theorem Dev.inc64_nRun (d : Dev) (lo hi n : Nat) : (d.inc64 lo hi n).nRun = d.nRun := rfl
@[simp] theorem Dev.inc64_nSus (d : Dev) (lo hi n : Nat) : (d.inc64 lo hi n).nSus = d.nSus := rfl
@[simp] theorem Dev.inc64_nSec (d : Dev) (lo hi n : Nat) : (d.inc64 lo hi n).nSec = d.nSec := rfl
@[simp] theorem Dev.inc64_entryTgt (d : Dev) (lo hi n : Nat) : (d.inc64 lo hi n).entryTgt = d.entryTgt := rfl
@[simp] theorem Dev.inc64_bring (d : Dev) (lo hi n : Nat) : (d.inc64 lo hi n).bring = d.bring := rfl
@[simp] theorem Dev.inc64_enMain (d : Dev) (lo hi n : Nat) : (d.inc64 lo hi n).enMain = d.enMain := rfl
@[simp] theorem Dev.inc64_pgMain (d : Dev) (lo hi n : Nat) : (d.inc64 lo hi n).pgMain = d.pgMain := rfl
@[simp] theorem Dev.inc64_aoUp (d : Dev) (lo hi n : Nat) : (d.inc64 lo hi n).aoUp = d.aoUp := rfl
@[simp] theorem Dev.inc64_pgTry (d : Dev) (lo hi n : Nat) : (d.inc64 lo hi n).pgTry = d.pgTry := rfl
@[simp] theorem Dev.inc64_t0 (d : Dev) (lo hi n : Nat) : (d.inc64 lo hi n).t0 = d.t0 := rfl
@[simp] theorem Dev.inc64_restored (d : Dev) (lo hi n : Nat) : (d.inc64 lo hi n).restored = d.restored := rfl
@[simp] theorem Dev.inc64_counted (d : Dev) (lo hi n : Nat) : (d.inc64 lo hi n).counted = d.counted := rfl
@[simp] theorem Dev.inc64_resetDefer (d : Dev) (lo hi n : Nat) : (d.inc64 lo hi n).resetDefer = d.resetDefer := rfl
@[simp] theorem Dev.inc64_timeSave (d : Dev) (lo hi n : Nat) : (d.inc64 lo hi n).timeSave = d.timeSave := rfl
@[simp] theorem Dev.inc64_saveDue (d : Dev) (lo hi n : Nat) : (d.inc64 lo hi n).saveDue = d.saveDue := rfl
@[simp] theorem Dev.inc64_wakeHeld (d : Dev) (lo hi n : Nat) : (d.inc64 lo hi n).wakeHeld = d.wakeHeld := rfl
@[simp] theorem Dev.inc64_down (d : Dev) (lo hi n : Nat) : (d.inc64 lo hi n).down = d.down := rfl
@[simp] theorem Dev.inc64_pins (d : Dev) (lo hi n : Nat) : (d.inc64 lo hi n).pins = d.pins := rfl

/-! ### `Dev.setPage` -/

@[simp] theorem Dev.setPage_regs (d : Dev) (pg : Nat) (p : Page) : (d.setPage pg p).regs = d.regs := rfl
@[simp] theorem Dev.setPage_published (d : Dev) (pg : Nat) (p : Page) : (d.setPage pg p).published = d.published := rfl
@[simp] theorem Dev.setPage_comSeq (d : Dev) (pg : Nat) (p : Page) : (d.setPage pg p).comSeq = d.comSeq := rfl
@[simp] theorem Dev.setPage_comTick (d : Dev) (pg : Nat) (p : Page) : (d.setPage pg p).comTick = d.comTick := rfl
@[simp] theorem Dev.setPage_out (d : Dev) (pg : Nat) (p : Page) : (d.setPage pg p).out = d.out := rfl
@[simp] theorem Dev.setPage_tick (d : Dev) (pg : Nat) (p : Page) : (d.setPage pg p).tick = d.tick := rfl
@[simp] theorem Dev.setPage_draws (d : Dev) (pg : Nat) (p : Page) : (d.setPage pg p).draws = d.draws := rfl
@[simp] theorem Dev.setPage_supplyLost (d : Dev) (pg : Nat) (p : Page) : (d.setPage pg p).supplyLost = d.supplyLost := rfl
@[simp] theorem Dev.setPage_resetRun (d : Dev) (pg : Nat) (p : Page) : (d.setPage pg p).resetRun = d.resetRun := rfl
@[simp] theorem Dev.setPage_latHi (d : Dev) (pg : Nat) (p : Page) : (d.setPage pg p).latHi = d.latHi := rfl
@[simp] theorem Dev.setPage_accHead (d : Dev) (pg : Nat) (p : Page) : (d.setPage pg p).accHead = d.accHead := rfl
@[simp] theorem Dev.setPage_latEpoch (d : Dev) (pg : Nat) (p : Page) : (d.setPage pg p).latEpoch = d.latEpoch := rfl
@[simp] theorem Dev.setPage_incidents (d : Dev) (pg : Nat) (p : Page) : (d.setPage pg p).incidents = d.incidents := rfl
@[simp] theorem Dev.setPage_banks (d : Dev) (pg : Nat) (p : Page) : (d.setPage pg p).banks = d.banks := rfl
@[simp] theorem Dev.setPage_cap (d : Dev) (pg : Nat) (p : Page) : (d.setPage pg p).cap = d.cap := rfl
@[simp] theorem Dev.setPage_rp (d : Dev) (pg : Nat) (p : Page) : (d.setPage pg p).rp = d.rp := rfl
@[simp] theorem Dev.setPage_msixTbl (d : Dev) (pg : Nat) (p : Page) : (d.setPage pg p).msixTbl = d.msixTbl := rfl
@[simp] theorem Dev.setPage_pba (d : Dev) (pg : Nat) (p : Page) : (d.setPage pg p).pba = d.pba := rfl
@[simp] theorem Dev.setPage_cfg (d : Dev) (pg : Nat) (p : Page) : (d.setPage pg p).cfg = d.cfg := rfl
@[simp] theorem Dev.setPage_headDown (d : Dev) (pg : Nat) (p : Page) : (d.setPage pg p).headDown = d.headDown := rfl
@[simp] theorem Dev.setPage_bifNow (d : Dev) (pg : Nat) (p : Page) : (d.setPage pg p).bifNow = d.bifNow := rfl
@[simp] theorem Dev.setPage_ide (d : Dev) (pg : Nat) (p : Page) : (d.setPage pg p).ide = d.ide := rfl
@[simp] theorem Dev.setPage_ideUsed (d : Dev) (pg : Nat) (p : Page) : (d.setPage pg p).ideUsed = d.ideUsed := rfl
@[simp] theorem Dev.setPage_ptmBad (d : Dev) (pg : Nat) (p : Page) : (d.setPage pg p).ptmBad = d.ptmBad := rfl
@[simp] theorem Dev.setPage_ptmLast (d : Dev) (pg : Nat) (p : Page) : (d.setPage pg p).ptmLast = d.ptmLast := rfl
@[simp] theorem Dev.setPage_ptmGood (d : Dev) (pg : Nat) (p : Page) : (d.setPage pg p).ptmGood = d.ptmGood := rfl
@[simp] theorem Dev.setPage_shutState (d : Dev) (pg : Nat) (p : Page) : (d.setPage pg p).shutState = d.shutState := rfl
@[simp] theorem Dev.setPage_alertSet (d : Dev) (pg : Nat) (p : Page) : (d.setPage pg p).alertSet = d.alertSet := rfl
@[simp] theorem Dev.setPage_events (d : Dev) (pg : Nat) (p : Page) : (d.setPage pg p).events = d.events := rfl
@[simp] theorem Dev.setPage_pwDirty (d : Dev) (pg : Nat) (p : Page) : (d.setPage pg p).pwDirty = d.pwDirty := rfl
@[simp] theorem Dev.setPage_pwPoison (d : Dev) (pg : Nat) (p : Page) : (d.setPage pg p).pwPoison = d.pwPoison := rfl
@[simp] theorem Dev.setPage_pwUnmir (d : Dev) (pg : Nat) (p : Page) : (d.setPage pg p).pwUnmir = d.pwUnmir := rfl
@[simp] theorem Dev.setPage_gpfMark (d : Dev) (pg : Nat) (p : Page) : (d.setPage pg p).gpfMark = d.gpfMark := rfl
@[simp] theorem Dev.setPage_gpfRun (d : Dev) (pg : Nat) (p : Page) : (d.setPage pg p).gpfRun = d.gpfRun := rfl
@[simp] theorem Dev.setPage_queues (d : Dev) (pg : Nat) (p : Page) : (d.setPage pg p).queues = d.queues := rfl
@[simp] theorem Dev.setPage_fetchNo (d : Dev) (pg : Nat) (p : Page) : (d.setPage pg p).fetchNo = d.fetchNo := rfl
@[simp] theorem Dev.setPage_slices (d : Dev) (pg : Nat) (p : Page) : (d.setPage pg p).slices = d.slices := rfl
@[simp] theorem Dev.setPage_exp (d : Dev) (pg : Nat) (p : Page) : (d.setPage pg p).exp = d.exp := rfl
@[simp] theorem Dev.setPage_ctxs (d : Dev) (pg : Nat) (p : Page) : (d.setPage pg p).ctxs = d.ctxs := rfl
@[simp] theorem Dev.setPage_ctxStore (d : Dev) (pg : Nat) (p : Page) : (d.setPage pg p).ctxStore = d.ctxStore := rfl
@[simp] theorem Dev.setPage_kek (d : Dev) (pg : Nat) (p : Page) : (d.setPage pg p).kek = d.kek := rfl
@[simp] theorem Dev.setPage_xbufShown (d : Dev) (pg : Nat) (p : Page) : (d.setPage pg p).xbufShown = d.xbufShown := rfl
@[simp] theorem Dev.setPage_zeroing (d : Dev) (pg : Nat) (p : Page) : (d.setPage pg p).zeroing = d.zeroing := rfl
@[simp] theorem Dev.setPage_map (d : Dev) (pg : Nat) (p : Page) : (d.setPage pg p).map = d.map := rfl
@[simp] theorem Dev.setPage_mapPend (d : Dev) (pg : Nat) (p : Page) : (d.setPage pg p).mapPend = d.mapPend := rfl
@[simp] theorem Dev.setPage_resident (d : Dev) (pg : Nat) (p : Page) : (d.setPage pg p).resident = d.resident := rfl
@[simp] theorem Dev.setPage_refBits (d : Dev) (pg : Nat) (p : Page) : (d.setPage pg p).refBits = d.refBits := rfl
@[simp] theorem Dev.setPage_mapWant (d : Dev) (pg : Nat) (p : Page) : (d.setPage pg p).mapWant = d.mapWant := rfl
@[simp] theorem Dev.setPage_dirty (d : Dev) (pg : Nat) (p : Page) : (d.setPage pg p).dirty = d.dirty := rfl
@[simp] theorem Dev.setPage_lost (d : Dev) (pg : Nat) (p : Page) : (d.setPage pg p).lost = d.lost := rfl
@[simp] theorem Dev.setPage_dlog (d : Dev) (pg : Nat) (p : Page) : (d.setPage pg p).dlog = d.dlog := rfl
@[simp] theorem Dev.setPage_dlogStalled (d : Dev) (pg : Nat) (p : Page) : (d.setPage pg p).dlogStalled = d.dlogStalled := rfl
@[simp] theorem Dev.setPage_dlogRing (d : Dev) (pg : Nat) (p : Page) : (d.setPage pg p).dlogRing = d.dlogRing := rfl
@[simp] theorem Dev.setPage_metaAt (d : Dev) (pg : Nat) (p : Page) : (d.setPage pg p).metaAt = d.metaAt := rfl
@[simp] theorem Dev.setPage_bands (d : Dev) (pg : Nat) (p : Page) : (d.setPage pg p).bands = d.bands := rfl
@[simp] theorem Dev.setPage_closeSeq (d : Dev) (pg : Nat) (p : Page) : (d.setPage pg p).closeSeq = d.closeSeq := rfl
@[simp] theorem Dev.setPage_relocs (d : Dev) (pg : Nat) (p : Page) : (d.setPage pg p).relocs = d.relocs := rfl
@[simp] theorem Dev.setPage_cache (d : Dev) (pg : Nat) (p : Page) : (d.setPage pg p).cache = d.cache := rfl
@[simp] theorem Dev.setPage_flash (d : Dev) (pg : Nat) (p : Page) : (d.setPage pg p).flash = d.flash := rfl
@[simp] theorem Dev.setPage_elog (d : Dev) (pg : Nat) (p : Page) : (d.setPage pg p).elog = d.elog := rfl
@[simp] theorem Dev.setPage_gcCredit (d : Dev) (pg : Nat) (p : Page) : (d.setPage pg p).gcCredit = d.gcCredit := rfl
@[simp] theorem Dev.setPage_spareUsed (d : Dev) (pg : Nat) (p : Page) : (d.setPage pg p).spareUsed = d.spareUsed := rfl
@[simp] theorem Dev.setPage_rbUsed (d : Dev) (pg : Nat) (p : Page) : (d.setPage pg p).rbUsed = d.rbUsed := rfl
@[simp] theorem Dev.setPage_fills (d : Dev) (pg : Nat) (p : Page) : (d.setPage pg p).fills = d.fills := rfl
@[simp] theorem Dev.setPage_stripeBuf (d : Dev) (pg : Nat) (p : Page) : (d.setPage pg p).stripeBuf = d.stripeBuf := rfl
@[simp] theorem Dev.setPage_progd (d : Dev) (pg : Nat) (p : Page) : (d.setPage pg p).progd = d.progd := rfl
@[simp] theorem Dev.setPage_chunksOk (d : Dev) (pg : Nat) (p : Page) : (d.setPage pg p).chunksOk = d.chunksOk := rfl
@[simp] theorem Dev.setPage_bmDirty (d : Dev) (pg : Nat) (p : Page) : (d.setPage pg p).bmDirty = d.bmDirty := rfl
@[simp] theorem Dev.setPage_bmClear (d : Dev) (pg : Nat) (p : Page) : (d.setPage pg p).bmClear = d.bmClear := rfl
@[simp] theorem Dev.setPage_bmWait (d : Dev) (pg : Nat) (p : Page) : (d.setPage pg p).bmWait = d.bmWait := rfl
@[simp] theorem Dev.setPage_bmLogs (d : Dev) (pg : Nat) (p : Page) : (d.setPage pg p).bmLogs = d.bmLogs := rfl
@[simp] theorem Dev.setPage_rbQueue (d : Dev) (pg : Nat) (p : Page) : (d.setPage pg p).rbQueue = d.rbQueue := rfl
@[simp] theorem Dev.setPage_lostSlots (d : Dev) (pg : Nat) (p : Page) : (d.setPage pg p).lostSlots = d.lostSlots := rfl
@[simp] theorem Dev.setPage_scanPend (d : Dev) (pg : Nat) (p : Page) : (d.setPage pg p).scanPend = d.scanPend := rfl
@[simp] theorem Dev.setPage_ports (d : Dev) (pg : Nat) (p : Page) : (d.setPage pg p).ports = d.ports := rfl
@[simp] theorem Dev.setPage_bridges (d : Dev) (pg : Nat) (p : Page) : (d.setPage pg p).bridges = d.bridges := rfl
@[simp] theorem Dev.setPage_clsNow (d : Dev) (pg : Nat) (p : Page) : (d.setPage pg p).clsNow = d.clsNow := rfl
@[simp] theorem Dev.setPage_ageNow (d : Dev) (pg : Nat) (p : Page) : (d.setPage pg p).ageNow = d.ageNow := rfl
@[simp] theorem Dev.setPage_susNow (d : Dev) (pg : Nat) (p : Page) : (d.setPage pg p).susNow = d.susNow := rfl
@[simp] theorem Dev.setPage_rbNow (d : Dev) (pg : Nat) (p : Page) : (d.setPage pg p).rbNow = d.rbNow := rfl
@[simp] theorem Dev.setPage_tgTick (d : Dev) (pg : Nat) (p : Page) : (d.setPage pg p).tgTick = d.tgTick := rfl
@[simp] theorem Dev.setPage_timeFig (d : Dev) (pg : Nat) (p : Page) : (d.setPage pg p).timeFig = d.timeFig := rfl
@[simp] theorem Dev.setPage_timePre (d : Dev) (pg : Nat) (p : Page) : (d.setPage pg p).timePre = d.timePre := rfl
@[simp] theorem Dev.setPage_stepPend (d : Dev) (pg : Nat) (p : Page) : (d.setPage pg p).stepPend = d.stepPend := rfl
@[simp] theorem Dev.setPage_lossAt (d : Dev) (pg : Nat) (p : Page) : (d.setPage pg p).lossAt = d.lossAt := rfl
@[simp] theorem Dev.setPage_exGood (d : Dev) (pg : Nat) (p : Page) : (d.setPage pg p).exGood = d.exGood := rfl
@[simp] theorem Dev.setPage_exBad (d : Dev) (pg : Nat) (p : Page) : (d.setPage pg p).exBad = d.exBad := rfl
@[simp] theorem Dev.setPage_exLast (d : Dev) (pg : Nat) (p : Page) : (d.setPage pg p).exLast = d.exLast := rfl
@[simp] theorem Dev.setPage_slewDone (d : Dev) (pg : Nat) (p : Page) : (d.setPage pg p).slewDone = d.slewDone := rfl
@[simp] theorem Dev.setPage_leadCoarse (d : Dev) (pg : Nat) (p : Page) : (d.setPage pg p).leadCoarse = d.leadCoarse := rfl
@[simp] theorem Dev.setPage_trk (d : Dev) (pg : Nat) (p : Page) : (d.setPage pg p).trk = d.trk := rfl
@[simp] theorem Dev.setPage_fresh (d : Dev) (pg : Nat) (p : Page) : (d.setPage pg p).fresh = d.fresh := rfl
@[simp] theorem Dev.setPage_hdOut (d : Dev) (pg : Nat) (p : Page) : (d.setPage pg p).hdOut = d.hdOut := rfl
@[simp] theorem Dev.setPage_wkOut (d : Dev) (pg : Nat) (p : Page) : (d.setPage pg p).wkOut = d.wkOut := rfl
@[simp] theorem Dev.setPage_dpar (d : Dev) (pg : Nat) (p : Page) : (d.setPage pg p).dpar = d.dpar := rfl
@[simp] theorem Dev.setPage_coldPrev (d : Dev) (pg : Nat) (p : Page) : (d.setPage pg p).coldPrev = d.coldPrev := rfl
@[simp] theorem Dev.setPage_coldNow (d : Dev) (pg : Nat) (p : Page) : (d.setPage pg p).coldNow = d.coldNow := rfl
@[simp] theorem Dev.setPage_svSeen (d : Dev) (pg : Nat) (p : Page) : (d.setPage pg p).svSeen = d.svSeen := rfl
@[simp] theorem Dev.setPage_svStart (d : Dev) (pg : Nat) (p : Page) : (d.setPage pg p).svStart = d.svStart := rfl
@[simp] theorem Dev.setPage_svMoved (d : Dev) (pg : Nat) (p : Page) : (d.setPage pg p).svMoved = d.svMoved := rfl
@[simp] theorem Dev.setPage_rfshDays (d : Dev) (pg : Nat) (p : Page) : (d.setPage pg p).rfshDays = d.rfshDays := rfl
@[simp] theorem Dev.setPage_dayTick (d : Dev) (pg : Nat) (p : Page) : (d.setPage pg p).dayTick = d.dayTick := rfl
@[simp] theorem Dev.setPage_crLim (d : Dev) (pg : Nat) (p : Page) : (d.setPage pg p).crLim = d.crLim := rfl
@[simp] theorem Dev.setPage_crWait (d : Dev) (pg : Nat) (p : Page) : (d.setPage pg p).crWait = d.crWait := rfl
@[simp] theorem Dev.setPage_crHold (d : Dev) (pg : Nat) (p : Page) : (d.setPage pg p).crHold = d.crHold := rfl
@[simp] theorem Dev.setPage_hbmPoison (d : Dev) (pg : Nat) (p : Page) : (d.setPage pg p).hbmPoison = d.hbmPoison := rfl
@[simp] theorem Dev.setPage_hbmDead (d : Dev) (pg : Nat) (p : Page) : (d.setPage pg p).hbmDead = d.hbmDead := rfl
@[simp] theorem Dev.setPage_dlogBad (d : Dev) (pg : Nat) (p : Page) : (d.setPage pg p).dlogBad = d.dlogBad := rfl
@[simp] theorem Dev.setPage_hbmLog (d : Dev) (pg : Nat) (p : Page) : (d.setPage pg p).hbmLog = d.hbmLog := rfl
@[simp] theorem Dev.setPage_hbmRecent (d : Dev) (pg : Nat) (p : Page) : (d.setPage pg p).hbmRecent = d.hbmRecent := rfl
@[simp] theorem Dev.setPage_hbmRetired (d : Dev) (pg : Nat) (p : Page) : (d.setPage pg p).hbmRetired = d.hbmRetired := rfl
@[simp] theorem Dev.setPage_hbmBare (d : Dev) (pg : Nat) (p : Page) : (d.setPage pg p).hbmBare = d.hbmBare := rfl
@[simp] theorem Dev.setPage_scrLine (d : Dev) (pg : Nat) (p : Page) : (d.setPage pg p).scrLine = d.scrLine := rfl
@[simp] theorem Dev.setPage_scrStart (d : Dev) (pg : Nat) (p : Page) : (d.setPage pg p).scrStart = d.scrStart := rfl
@[simp] theorem Dev.setPage_sramStart (d : Dev) (pg : Nat) (p : Page) : (d.setPage pg p).sramStart = d.sramStart := rfl
@[simp] theorem Dev.setPage_sleepAt (d : Dev) (pg : Nat) (p : Page) : (d.setPage pg p).sleepAt = d.sleepAt := rfl
@[simp] theorem Dev.setPage_remapped (d : Dev) (pg : Nat) (p : Page) : (d.setPage pg p).remapped = d.remapped := rfl
@[simp] theorem Dev.setPage_arrCe (d : Dev) (pg : Nat) (p : Page) : (d.setPage pg p).arrCe = d.arrCe := rfl
@[simp] theorem Dev.setPage_ceWords (d : Dev) (pg : Nat) (p : Page) : (d.setPage pg p).ceWords = d.ceWords := rfl
@[simp] theorem Dev.setPage_coresOut (d : Dev) (pg : Nat) (p : Page) : (d.setPage pg p).coresOut = d.coresOut := rfl
@[simp] theorem Dev.setPage_coresHit (d : Dev) (pg : Nat) (p : Page) : (d.setPage pg p).coresHit = d.coresHit := rfl
@[simp] theorem Dev.setPage_redNo (d : Dev) (pg : Nat) (p : Page) : (d.setPage pg p).redNo = d.redNo := rfl
@[simp] theorem Dev.setPage_exhausted (d : Dev) (pg : Nat) (p : Page) : (d.setPage pg p).exhausted = d.exhausted := rfl
@[simp] theorem Dev.setPage_conds (d : Dev) (pg : Nat) (p : Page) : (d.setPage pg p).conds = d.conds := rfl
@[simp] theorem Dev.setPage_levelTick (d : Dev) (pg : Nat) (p : Page) : (d.setPage pg p).levelTick = d.levelTick := rfl
@[simp] theorem Dev.setPage_levelEpoch (d : Dev) (pg : Nat) (p : Page) : (d.setPage pg p).levelEpoch = d.levelEpoch := rfl
@[simp] theorem Dev.setPage_peDays (d : Dev) (pg : Nat) (p : Page) : (d.setPage pg p).peDays = d.peDays := rfl
@[simp] theorem Dev.setPage_fmtDays (d : Dev) (pg : Nat) (p : Page) : (d.setPage pg p).fmtDays = d.fmtDays := rfl
@[simp] theorem Dev.setPage_spareFmt (d : Dev) (pg : Nat) (p : Page) : (d.setPage pg p).spareFmt = d.spareFmt := rfl
@[simp] theorem Dev.setPage_incWait (d : Dev) (pg : Nat) (p : Page) : (d.setPage pg p).incWait = d.incWait := rfl
@[simp] theorem Dev.setPage_sbWait (d : Dev) (pg : Nat) (p : Page) : (d.setPage pg p).sbWait = d.sbWait := rfl
@[simp] theorem Dev.setPage_pwDead (d : Dev) (pg : Nat) (p : Page) : (d.setPage pg p).pwDead = d.pwDead := rfl
@[simp] theorem Dev.setPage_pwCured (d : Dev) (pg : Nat) (p : Page) : (d.setPage pg p).pwCured = d.pwCured := rfl
@[simp] theorem Dev.setPage_ctxPend (d : Dev) (pg : Nat) (p : Page) : (d.setPage pg p).ctxPend = d.ctxPend := rfl
@[simp] theorem Dev.setPage_resync (d : Dev) (pg : Nat) (p : Page) : (d.setPage pg p).resync = d.resync := rfl
@[simp] theorem Dev.setPage_giving (d : Dev) (pg : Nat) (p : Page) : (d.setPage pg p).giving = d.giving := rfl
@[simp] theorem Dev.setPage_wants (d : Dev) (pg : Nat) (p : Page) : (d.setPage pg p).wants = d.wants := rfl
@[simp] theorem Dev.setPage_leaving (d : Dev) (pg : Nat) (p : Page) : (d.setPage pg p).leaving = d.leaving := rfl
@[simp] theorem Dev.setPage_metaBack (d : Dev) (pg : Nat) (p : Page) : (d.setPage pg p).metaBack = d.metaBack := rfl
@[simp] theorem Dev.setPage_scanBands (d : Dev) (pg : Nat) (p : Page) : (d.setPage pg p).scanBands = d.scanBands := rfl
@[simp] theorem Dev.setPage_dacc (d : Dev) (pg : Nat) (p : Page) : (d.setPage pg p).dacc = d.dacc := rfl
@[simp] theorem Dev.setPage_fmtOut (d : Dev) (pg : Nat) (p : Page) : (d.setPage pg p).fmtOut = d.fmtOut := rfl
@[simp] theorem Dev.setPage_apWait (d : Dev) (pg : Nat) (p : Page) : (d.setPage pg p).apWait = d.apWait := rfl
@[simp] theorem Dev.setPage_rebuildFmt (d : Dev) (pg : Nat) (p : Page) : (d.setPage pg p).rebuildFmt = d.rebuildFmt := rfl
@[simp] theorem Dev.setPage_endur (d : Dev) (pg : Nat) (p : Page) : (d.setPage pg p).endur = d.endur := rfl
@[simp] theorem Dev.setPage_gTx (d : Dev) (pg : Nat) (p : Page) : (d.setPage pg p).gTx = d.gTx := rfl
@[simp] theorem Dev.setPage_gRx (d : Dev) (pg : Nat) (p : Page) : (d.setPage pg p).gRx = d.gRx := rfl
@[simp] theorem Dev.setPage_gPend (d : Dev) (pg : Nat) (p : Page) : (d.setPage pg p).gPend = d.gPend := rfl
@[simp] theorem Dev.setPage_gPrev (d : Dev) (pg : Nat) (p : Page) : (d.setPage pg p).gPrev = d.gPrev := rfl
@[simp] theorem Dev.setPage_serves (d : Dev) (pg : Nat) (p : Page) : (d.setPage pg p).serves = d.serves := rfl
@[simp] theorem Dev.setPage_syncEnd (d : Dev) (pg : Nat) (p : Page) : (d.setPage pg p).syncEnd = d.syncEnd := rfl
@[simp] theorem Dev.setPage_rekeyOut (d : Dev) (pg : Nat) (p : Page) : (d.setPage pg p).rekeyOut = d.rekeyOut := rfl
@[simp] theorem Dev.setPage_sesTx (d : Dev) (pg : Nat) (p : Page) : (d.setPage pg p).sesTx = d.sesTx := rfl
@[simp] theorem Dev.setPage_sesTxNew (d : Dev) (pg : Nat) (p : Page) : (d.setPage pg p).sesTxNew = d.sesTxNew := rfl
@[simp] theorem Dev.setPage_sesRx (d : Dev) (pg : Nat) (p : Page) : (d.setPage pg p).sesRx = d.sesRx := rfl
@[simp] theorem Dev.setPage_sesRxNew (d : Dev) (pg : Nat) (p : Page) : (d.setPage pg p).sesRxNew = d.sesRxNew := rfl
@[simp] theorem Dev.setPage_shelfNew (d : Dev) (pg : Nat) (p : Page) : (d.setPage pg p).shelfNew = d.shelfNew := rfl
@[simp] theorem Dev.setPage_gSaid (d : Dev) (pg : Nat) (p : Page) : (d.setPage pg p).gSaid = d.gSaid := rfl
@[simp] theorem Dev.setPage_shelf (d : Dev) (pg : Nat) (p : Page) : (d.setPage pg p).shelf = d.shelf := rfl
@[simp] theorem Dev.setPage_pairKey (d : Dev) (pg : Nat) (p : Page) : (d.setPage pg p).pairKey = d.pairKey := rfl
@[simp] theorem Dev.setPage_gLastRx (d : Dev) (pg : Nat) (p : Page) : (d.setPage pg p).gLastRx = d.gLastRx := rfl
@[simp] theorem Dev.setPage_gLastTx (d : Dev) (pg : Nat) (p : Page) : (d.setPage pg p).gLastTx = d.gLastTx := rfl
@[simp] theorem Dev.setPage_twinUsed (d : Dev) (pg : Nat) (p : Page) : (d.setPage pg p).twinUsed = d.twinUsed := rfl
@[simp] theorem Dev.setPage_twinState (d : Dev) (pg : Nat) (p : Page) : (d.setPage pg p).twinState = d.twinState := rfl
@[simp] theorem Dev.setPage_twinPtm (d : Dev) (pg : Nat) (p : Page) : (d.setPage pg p).twinPtm = d.twinPtm := rfl
@[simp] theorem Dev.setPage_decided (d : Dev) (pg : Nat) (p : Page) : (d.setPage pg p).decided = d.decided := rfl
@[simp] theorem Dev.setPage_decidedEp (d : Dev) (pg : Nat) (p : Page) : (d.setPage pg p).decidedEp = d.decidedEp := rfl
@[simp] theorem Dev.setPage_taking (d : Dev) (pg : Nat) (p : Page) : (d.setPage pg p).taking = d.taking := rfl
@[simp] theorem Dev.setPage_takes (d : Dev) (pg : Nat) (p : Page) : (d.setPage pg p).takes = d.takes := rfl
@[simp] theorem Dev.setPage_twinSlices (d : Dev) (pg : Nat) (p : Page) : (d.setPage pg p).twinSlices = d.twinSlices := rfl
@[simp] theorem Dev.setPage_twinVers (d : Dev) (pg : Nat) (p : Page) : (d.setPage pg p).twinVers = d.twinVers := rfl
@[simp] theorem Dev.setPage_twinCtxs (d : Dev) (pg : Nat) (p : Page) : (d.setPage pg p).twinCtxs = d.twinCtxs := rfl
@[simp] theorem Dev.setPage_twinRegions (d : Dev) (pg : Nat) (p : Page) : (d.setPage pg p).twinRegions = d.twinRegions := rfl
@[simp] theorem Dev.setPage_pwTwin (d : Dev) (pg : Nat) (p : Page) : (d.setPage pg p).pwTwin = d.pwTwin := rfl
@[simp] theorem Dev.setPage_freeQ (d : Dev) (pg : Nat) (p : Page) : (d.setPage pg p).freeQ = d.freeQ := rfl
@[simp] theorem Dev.setPage_hbCtl (d : Dev) (pg : Nat) (p : Page) : (d.setPage pg p).hbCtl = d.hbCtl := rfl
@[simp] theorem Dev.setPage_pairStart (d : Dev) (pg : Nat) (p : Page) : (d.setPage pg p).pairStart = d.pairStart := rfl
@[simp] theorem Dev.setPage_doms (d : Dev) (pg : Nat) (p : Page) : (d.setPage pg p).doms = d.doms := rfl
@[simp] theorem Dev.setPage_nvm (d : Dev) (pg : Nat) (p : Page) : (d.setPage pg p).nvm = d.nvm := rfl
@[simp] theorem Dev.setPage_dumpAt (d : Dev) (pg : Nat) (p : Page) : (d.setPage pg p).dumpAt = d.dumpAt := rfl
@[simp] theorem Dev.setPage_dumpSrc (d : Dev) (pg : Nat) (p : Page) : (d.setPage pg p).dumpSrc = d.dumpSrc := rfl
@[simp] theorem Dev.setPage_stayDown (d : Dev) (pg : Nat) (p : Page) : (d.setPage pg p).stayDown = d.stayDown := rfl
@[simp] theorem Dev.setPage_nHost (d : Dev) (pg : Nat) (p : Page) : (d.setPage pg p).nHost = d.nHost := rfl
@[simp] theorem Dev.setPage_nFirm (d : Dev) (pg : Nat) (p : Page) : (d.setPage pg p).nFirm = d.nFirm := rfl
@[simp] theorem Dev.setPage_nRun (d : Dev) (pg : Nat) (p : Page) : (d.setPage pg p).nRun = d.nRun := rfl
@[simp] theorem Dev.setPage_nSus (d : Dev) (pg : Nat) (p : Page) : (d.setPage pg p).nSus = d.nSus := rfl
@[simp] theorem Dev.setPage_nSec (d : Dev) (pg : Nat) (p : Page) : (d.setPage pg p).nSec = d.nSec := rfl
@[simp] theorem Dev.setPage_entryTgt (d : Dev) (pg : Nat) (p : Page) : (d.setPage pg p).entryTgt = d.entryTgt := rfl
@[simp] theorem Dev.setPage_bring (d : Dev) (pg : Nat) (p : Page) : (d.setPage pg p).bring = d.bring := rfl
@[simp] theorem Dev.setPage_enMain (d : Dev) (pg : Nat) (p : Page) : (d.setPage pg p).enMain = d.enMain := rfl
@[simp] theorem Dev.setPage_pgMain (d : Dev) (pg : Nat) (p : Page) : (d.setPage pg p).pgMain = d.pgMain := rfl
@[simp] theorem Dev.setPage_aoUp (d : Dev) (pg : Nat) (p : Page) : (d.setPage pg p).aoUp = d.aoUp := rfl
@[simp] theorem Dev.setPage_pgTry (d : Dev) (pg : Nat) (p : Page) : (d.setPage pg p).pgTry = d.pgTry := rfl
@[simp] theorem Dev.setPage_t0 (d : Dev) (pg : Nat) (p : Page) : (d.setPage pg p).t0 = d.t0 := rfl
@[simp] theorem Dev.setPage_restored (d : Dev) (pg : Nat) (p : Page) : (d.setPage pg p).restored = d.restored := rfl
@[simp] theorem Dev.setPage_counted (d : Dev) (pg : Nat) (p : Page) : (d.setPage pg p).counted = d.counted := rfl
@[simp] theorem Dev.setPage_resetDefer (d : Dev) (pg : Nat) (p : Page) : (d.setPage pg p).resetDefer = d.resetDefer := rfl
@[simp] theorem Dev.setPage_timeSave (d : Dev) (pg : Nat) (p : Page) : (d.setPage pg p).timeSave = d.timeSave := rfl
@[simp] theorem Dev.setPage_saveDue (d : Dev) (pg : Nat) (p : Page) : (d.setPage pg p).saveDue = d.saveDue := rfl
@[simp] theorem Dev.setPage_wakeHeld (d : Dev) (pg : Nat) (p : Page) : (d.setPage pg p).wakeHeld = d.wakeHeld := rfl
@[simp] theorem Dev.setPage_down (d : Dev) (pg : Nat) (p : Page) : (d.setPage pg p).down = d.down := rfl
@[simp] theorem Dev.setPage_pins (d : Dev) (pg : Nat) (p : Page) : (d.setPage pg p).pins = d.pins := rfl

/-! ### `Dev.emit` -/

@[simp] theorem Dev.emit_regs (d : Dev) (o : Out) : (d.emit o).regs = d.regs := rfl
@[simp] theorem Dev.emit_published (d : Dev) (o : Out) : (d.emit o).published = d.published := rfl
@[simp] theorem Dev.emit_pages (d : Dev) (o : Out) : (d.emit o).pages = d.pages := rfl
@[simp] theorem Dev.emit_comSeq (d : Dev) (o : Out) : (d.emit o).comSeq = d.comSeq := rfl
@[simp] theorem Dev.emit_comTick (d : Dev) (o : Out) : (d.emit o).comTick = d.comTick := rfl
@[simp] theorem Dev.emit_tick (d : Dev) (o : Out) : (d.emit o).tick = d.tick := rfl
@[simp] theorem Dev.emit_draws (d : Dev) (o : Out) : (d.emit o).draws = d.draws := rfl
@[simp] theorem Dev.emit_supplyLost (d : Dev) (o : Out) : (d.emit o).supplyLost = d.supplyLost := rfl
@[simp] theorem Dev.emit_resetRun (d : Dev) (o : Out) : (d.emit o).resetRun = d.resetRun := rfl
@[simp] theorem Dev.emit_latHi (d : Dev) (o : Out) : (d.emit o).latHi = d.latHi := rfl
@[simp] theorem Dev.emit_accHead (d : Dev) (o : Out) : (d.emit o).accHead = d.accHead := rfl
@[simp] theorem Dev.emit_latEpoch (d : Dev) (o : Out) : (d.emit o).latEpoch = d.latEpoch := rfl
@[simp] theorem Dev.emit_incidents (d : Dev) (o : Out) : (d.emit o).incidents = d.incidents := rfl
@[simp] theorem Dev.emit_banks (d : Dev) (o : Out) : (d.emit o).banks = d.banks := rfl
@[simp] theorem Dev.emit_cap (d : Dev) (o : Out) : (d.emit o).cap = d.cap := rfl
@[simp] theorem Dev.emit_rp (d : Dev) (o : Out) : (d.emit o).rp = d.rp := rfl
@[simp] theorem Dev.emit_msixTbl (d : Dev) (o : Out) : (d.emit o).msixTbl = d.msixTbl := rfl
@[simp] theorem Dev.emit_pba (d : Dev) (o : Out) : (d.emit o).pba = d.pba := rfl
@[simp] theorem Dev.emit_cfg (d : Dev) (o : Out) : (d.emit o).cfg = d.cfg := rfl
@[simp] theorem Dev.emit_headDown (d : Dev) (o : Out) : (d.emit o).headDown = d.headDown := rfl
@[simp] theorem Dev.emit_bifNow (d : Dev) (o : Out) : (d.emit o).bifNow = d.bifNow := rfl
@[simp] theorem Dev.emit_ide (d : Dev) (o : Out) : (d.emit o).ide = d.ide := rfl
@[simp] theorem Dev.emit_ideUsed (d : Dev) (o : Out) : (d.emit o).ideUsed = d.ideUsed := rfl
@[simp] theorem Dev.emit_ptmBad (d : Dev) (o : Out) : (d.emit o).ptmBad = d.ptmBad := rfl
@[simp] theorem Dev.emit_ptmLast (d : Dev) (o : Out) : (d.emit o).ptmLast = d.ptmLast := rfl
@[simp] theorem Dev.emit_ptmGood (d : Dev) (o : Out) : (d.emit o).ptmGood = d.ptmGood := rfl
@[simp] theorem Dev.emit_shutState (d : Dev) (o : Out) : (d.emit o).shutState = d.shutState := rfl
@[simp] theorem Dev.emit_alertSet (d : Dev) (o : Out) : (d.emit o).alertSet = d.alertSet := rfl
@[simp] theorem Dev.emit_events (d : Dev) (o : Out) : (d.emit o).events = d.events := rfl
@[simp] theorem Dev.emit_pwDirty (d : Dev) (o : Out) : (d.emit o).pwDirty = d.pwDirty := rfl
@[simp] theorem Dev.emit_pwPoison (d : Dev) (o : Out) : (d.emit o).pwPoison = d.pwPoison := rfl
@[simp] theorem Dev.emit_pwUnmir (d : Dev) (o : Out) : (d.emit o).pwUnmir = d.pwUnmir := rfl
@[simp] theorem Dev.emit_gpfMark (d : Dev) (o : Out) : (d.emit o).gpfMark = d.gpfMark := rfl
@[simp] theorem Dev.emit_gpfRun (d : Dev) (o : Out) : (d.emit o).gpfRun = d.gpfRun := rfl
@[simp] theorem Dev.emit_queues (d : Dev) (o : Out) : (d.emit o).queues = d.queues := rfl
@[simp] theorem Dev.emit_fetchNo (d : Dev) (o : Out) : (d.emit o).fetchNo = d.fetchNo := rfl
@[simp] theorem Dev.emit_slices (d : Dev) (o : Out) : (d.emit o).slices = d.slices := rfl
@[simp] theorem Dev.emit_exp (d : Dev) (o : Out) : (d.emit o).exp = d.exp := rfl
@[simp] theorem Dev.emit_ctxs (d : Dev) (o : Out) : (d.emit o).ctxs = d.ctxs := rfl
@[simp] theorem Dev.emit_ctxStore (d : Dev) (o : Out) : (d.emit o).ctxStore = d.ctxStore := rfl
@[simp] theorem Dev.emit_kek (d : Dev) (o : Out) : (d.emit o).kek = d.kek := rfl
@[simp] theorem Dev.emit_xbufShown (d : Dev) (o : Out) : (d.emit o).xbufShown = d.xbufShown := rfl
@[simp] theorem Dev.emit_zeroing (d : Dev) (o : Out) : (d.emit o).zeroing = d.zeroing := rfl
@[simp] theorem Dev.emit_map (d : Dev) (o : Out) : (d.emit o).map = d.map := rfl
@[simp] theorem Dev.emit_mapPend (d : Dev) (o : Out) : (d.emit o).mapPend = d.mapPend := rfl
@[simp] theorem Dev.emit_resident (d : Dev) (o : Out) : (d.emit o).resident = d.resident := rfl
@[simp] theorem Dev.emit_refBits (d : Dev) (o : Out) : (d.emit o).refBits = d.refBits := rfl
@[simp] theorem Dev.emit_mapWant (d : Dev) (o : Out) : (d.emit o).mapWant = d.mapWant := rfl
@[simp] theorem Dev.emit_dirty (d : Dev) (o : Out) : (d.emit o).dirty = d.dirty := rfl
@[simp] theorem Dev.emit_lost (d : Dev) (o : Out) : (d.emit o).lost = d.lost := rfl
@[simp] theorem Dev.emit_dlog (d : Dev) (o : Out) : (d.emit o).dlog = d.dlog := rfl
@[simp] theorem Dev.emit_dlogStalled (d : Dev) (o : Out) : (d.emit o).dlogStalled = d.dlogStalled := rfl
@[simp] theorem Dev.emit_dlogRing (d : Dev) (o : Out) : (d.emit o).dlogRing = d.dlogRing := rfl
@[simp] theorem Dev.emit_metaAt (d : Dev) (o : Out) : (d.emit o).metaAt = d.metaAt := rfl
@[simp] theorem Dev.emit_bands (d : Dev) (o : Out) : (d.emit o).bands = d.bands := rfl
@[simp] theorem Dev.emit_closeSeq (d : Dev) (o : Out) : (d.emit o).closeSeq = d.closeSeq := rfl
@[simp] theorem Dev.emit_relocs (d : Dev) (o : Out) : (d.emit o).relocs = d.relocs := rfl
@[simp] theorem Dev.emit_cache (d : Dev) (o : Out) : (d.emit o).cache = d.cache := rfl
@[simp] theorem Dev.emit_flash (d : Dev) (o : Out) : (d.emit o).flash = d.flash := rfl
@[simp] theorem Dev.emit_elog (d : Dev) (o : Out) : (d.emit o).elog = d.elog := rfl
@[simp] theorem Dev.emit_gcCredit (d : Dev) (o : Out) : (d.emit o).gcCredit = d.gcCredit := rfl
@[simp] theorem Dev.emit_spareUsed (d : Dev) (o : Out) : (d.emit o).spareUsed = d.spareUsed := rfl
@[simp] theorem Dev.emit_rbUsed (d : Dev) (o : Out) : (d.emit o).rbUsed = d.rbUsed := rfl
@[simp] theorem Dev.emit_fills (d : Dev) (o : Out) : (d.emit o).fills = d.fills := rfl
@[simp] theorem Dev.emit_stripeBuf (d : Dev) (o : Out) : (d.emit o).stripeBuf = d.stripeBuf := rfl
@[simp] theorem Dev.emit_progd (d : Dev) (o : Out) : (d.emit o).progd = d.progd := rfl
@[simp] theorem Dev.emit_chunksOk (d : Dev) (o : Out) : (d.emit o).chunksOk = d.chunksOk := rfl
@[simp] theorem Dev.emit_bmDirty (d : Dev) (o : Out) : (d.emit o).bmDirty = d.bmDirty := rfl
@[simp] theorem Dev.emit_bmClear (d : Dev) (o : Out) : (d.emit o).bmClear = d.bmClear := rfl
@[simp] theorem Dev.emit_bmWait (d : Dev) (o : Out) : (d.emit o).bmWait = d.bmWait := rfl
@[simp] theorem Dev.emit_bmLogs (d : Dev) (o : Out) : (d.emit o).bmLogs = d.bmLogs := rfl
@[simp] theorem Dev.emit_rbQueue (d : Dev) (o : Out) : (d.emit o).rbQueue = d.rbQueue := rfl
@[simp] theorem Dev.emit_lostSlots (d : Dev) (o : Out) : (d.emit o).lostSlots = d.lostSlots := rfl
@[simp] theorem Dev.emit_scanPend (d : Dev) (o : Out) : (d.emit o).scanPend = d.scanPend := rfl
@[simp] theorem Dev.emit_ports (d : Dev) (o : Out) : (d.emit o).ports = d.ports := rfl
@[simp] theorem Dev.emit_bridges (d : Dev) (o : Out) : (d.emit o).bridges = d.bridges := rfl
@[simp] theorem Dev.emit_clsNow (d : Dev) (o : Out) : (d.emit o).clsNow = d.clsNow := rfl
@[simp] theorem Dev.emit_ageNow (d : Dev) (o : Out) : (d.emit o).ageNow = d.ageNow := rfl
@[simp] theorem Dev.emit_susNow (d : Dev) (o : Out) : (d.emit o).susNow = d.susNow := rfl
@[simp] theorem Dev.emit_rbNow (d : Dev) (o : Out) : (d.emit o).rbNow = d.rbNow := rfl
@[simp] theorem Dev.emit_tgTick (d : Dev) (o : Out) : (d.emit o).tgTick = d.tgTick := rfl
@[simp] theorem Dev.emit_timeFig (d : Dev) (o : Out) : (d.emit o).timeFig = d.timeFig := rfl
@[simp] theorem Dev.emit_timePre (d : Dev) (o : Out) : (d.emit o).timePre = d.timePre := rfl
@[simp] theorem Dev.emit_stepPend (d : Dev) (o : Out) : (d.emit o).stepPend = d.stepPend := rfl
@[simp] theorem Dev.emit_lossAt (d : Dev) (o : Out) : (d.emit o).lossAt = d.lossAt := rfl
@[simp] theorem Dev.emit_exGood (d : Dev) (o : Out) : (d.emit o).exGood = d.exGood := rfl
@[simp] theorem Dev.emit_exBad (d : Dev) (o : Out) : (d.emit o).exBad = d.exBad := rfl
@[simp] theorem Dev.emit_exLast (d : Dev) (o : Out) : (d.emit o).exLast = d.exLast := rfl
@[simp] theorem Dev.emit_slewDone (d : Dev) (o : Out) : (d.emit o).slewDone = d.slewDone := rfl
@[simp] theorem Dev.emit_leadCoarse (d : Dev) (o : Out) : (d.emit o).leadCoarse = d.leadCoarse := rfl
@[simp] theorem Dev.emit_trk (d : Dev) (o : Out) : (d.emit o).trk = d.trk := rfl
@[simp] theorem Dev.emit_fresh (d : Dev) (o : Out) : (d.emit o).fresh = d.fresh := rfl
@[simp] theorem Dev.emit_hdOut (d : Dev) (o : Out) : (d.emit o).hdOut = d.hdOut := rfl
@[simp] theorem Dev.emit_wkOut (d : Dev) (o : Out) : (d.emit o).wkOut = d.wkOut := rfl
@[simp] theorem Dev.emit_dpar (d : Dev) (o : Out) : (d.emit o).dpar = d.dpar := rfl
@[simp] theorem Dev.emit_coldPrev (d : Dev) (o : Out) : (d.emit o).coldPrev = d.coldPrev := rfl
@[simp] theorem Dev.emit_coldNow (d : Dev) (o : Out) : (d.emit o).coldNow = d.coldNow := rfl
@[simp] theorem Dev.emit_svSeen (d : Dev) (o : Out) : (d.emit o).svSeen = d.svSeen := rfl
@[simp] theorem Dev.emit_svStart (d : Dev) (o : Out) : (d.emit o).svStart = d.svStart := rfl
@[simp] theorem Dev.emit_svMoved (d : Dev) (o : Out) : (d.emit o).svMoved = d.svMoved := rfl
@[simp] theorem Dev.emit_rfshDays (d : Dev) (o : Out) : (d.emit o).rfshDays = d.rfshDays := rfl
@[simp] theorem Dev.emit_dayTick (d : Dev) (o : Out) : (d.emit o).dayTick = d.dayTick := rfl
@[simp] theorem Dev.emit_crLim (d : Dev) (o : Out) : (d.emit o).crLim = d.crLim := rfl
@[simp] theorem Dev.emit_crWait (d : Dev) (o : Out) : (d.emit o).crWait = d.crWait := rfl
@[simp] theorem Dev.emit_crHold (d : Dev) (o : Out) : (d.emit o).crHold = d.crHold := rfl
@[simp] theorem Dev.emit_hbmPoison (d : Dev) (o : Out) : (d.emit o).hbmPoison = d.hbmPoison := rfl
@[simp] theorem Dev.emit_hbmDead (d : Dev) (o : Out) : (d.emit o).hbmDead = d.hbmDead := rfl
@[simp] theorem Dev.emit_dlogBad (d : Dev) (o : Out) : (d.emit o).dlogBad = d.dlogBad := rfl
@[simp] theorem Dev.emit_hbmLog (d : Dev) (o : Out) : (d.emit o).hbmLog = d.hbmLog := rfl
@[simp] theorem Dev.emit_hbmRecent (d : Dev) (o : Out) : (d.emit o).hbmRecent = d.hbmRecent := rfl
@[simp] theorem Dev.emit_hbmRetired (d : Dev) (o : Out) : (d.emit o).hbmRetired = d.hbmRetired := rfl
@[simp] theorem Dev.emit_hbmBare (d : Dev) (o : Out) : (d.emit o).hbmBare = d.hbmBare := rfl
@[simp] theorem Dev.emit_scrLine (d : Dev) (o : Out) : (d.emit o).scrLine = d.scrLine := rfl
@[simp] theorem Dev.emit_scrStart (d : Dev) (o : Out) : (d.emit o).scrStart = d.scrStart := rfl
@[simp] theorem Dev.emit_sramStart (d : Dev) (o : Out) : (d.emit o).sramStart = d.sramStart := rfl
@[simp] theorem Dev.emit_sleepAt (d : Dev) (o : Out) : (d.emit o).sleepAt = d.sleepAt := rfl
@[simp] theorem Dev.emit_remapped (d : Dev) (o : Out) : (d.emit o).remapped = d.remapped := rfl
@[simp] theorem Dev.emit_arrCe (d : Dev) (o : Out) : (d.emit o).arrCe = d.arrCe := rfl
@[simp] theorem Dev.emit_ceWords (d : Dev) (o : Out) : (d.emit o).ceWords = d.ceWords := rfl
@[simp] theorem Dev.emit_coresOut (d : Dev) (o : Out) : (d.emit o).coresOut = d.coresOut := rfl
@[simp] theorem Dev.emit_coresHit (d : Dev) (o : Out) : (d.emit o).coresHit = d.coresHit := rfl
@[simp] theorem Dev.emit_redNo (d : Dev) (o : Out) : (d.emit o).redNo = d.redNo := rfl
@[simp] theorem Dev.emit_exhausted (d : Dev) (o : Out) : (d.emit o).exhausted = d.exhausted := rfl
@[simp] theorem Dev.emit_conds (d : Dev) (o : Out) : (d.emit o).conds = d.conds := rfl
@[simp] theorem Dev.emit_levelTick (d : Dev) (o : Out) : (d.emit o).levelTick = d.levelTick := rfl
@[simp] theorem Dev.emit_levelEpoch (d : Dev) (o : Out) : (d.emit o).levelEpoch = d.levelEpoch := rfl
@[simp] theorem Dev.emit_peDays (d : Dev) (o : Out) : (d.emit o).peDays = d.peDays := rfl
@[simp] theorem Dev.emit_fmtDays (d : Dev) (o : Out) : (d.emit o).fmtDays = d.fmtDays := rfl
@[simp] theorem Dev.emit_spareFmt (d : Dev) (o : Out) : (d.emit o).spareFmt = d.spareFmt := rfl
@[simp] theorem Dev.emit_incWait (d : Dev) (o : Out) : (d.emit o).incWait = d.incWait := rfl
@[simp] theorem Dev.emit_sbWait (d : Dev) (o : Out) : (d.emit o).sbWait = d.sbWait := rfl
@[simp] theorem Dev.emit_pwDead (d : Dev) (o : Out) : (d.emit o).pwDead = d.pwDead := rfl
@[simp] theorem Dev.emit_pwCured (d : Dev) (o : Out) : (d.emit o).pwCured = d.pwCured := rfl
@[simp] theorem Dev.emit_ctxPend (d : Dev) (o : Out) : (d.emit o).ctxPend = d.ctxPend := rfl
@[simp] theorem Dev.emit_resync (d : Dev) (o : Out) : (d.emit o).resync = d.resync := rfl
@[simp] theorem Dev.emit_giving (d : Dev) (o : Out) : (d.emit o).giving = d.giving := rfl
@[simp] theorem Dev.emit_wants (d : Dev) (o : Out) : (d.emit o).wants = d.wants := rfl
@[simp] theorem Dev.emit_leaving (d : Dev) (o : Out) : (d.emit o).leaving = d.leaving := rfl
@[simp] theorem Dev.emit_metaBack (d : Dev) (o : Out) : (d.emit o).metaBack = d.metaBack := rfl
@[simp] theorem Dev.emit_scanBands (d : Dev) (o : Out) : (d.emit o).scanBands = d.scanBands := rfl
@[simp] theorem Dev.emit_dacc (d : Dev) (o : Out) : (d.emit o).dacc = d.dacc := rfl
@[simp] theorem Dev.emit_fmtOut (d : Dev) (o : Out) : (d.emit o).fmtOut = d.fmtOut := rfl
@[simp] theorem Dev.emit_apWait (d : Dev) (o : Out) : (d.emit o).apWait = d.apWait := rfl
@[simp] theorem Dev.emit_rebuildFmt (d : Dev) (o : Out) : (d.emit o).rebuildFmt = d.rebuildFmt := rfl
@[simp] theorem Dev.emit_endur (d : Dev) (o : Out) : (d.emit o).endur = d.endur := rfl
@[simp] theorem Dev.emit_gTx (d : Dev) (o : Out) : (d.emit o).gTx = d.gTx := rfl
@[simp] theorem Dev.emit_gRx (d : Dev) (o : Out) : (d.emit o).gRx = d.gRx := rfl
@[simp] theorem Dev.emit_gPend (d : Dev) (o : Out) : (d.emit o).gPend = d.gPend := rfl
@[simp] theorem Dev.emit_gPrev (d : Dev) (o : Out) : (d.emit o).gPrev = d.gPrev := rfl
@[simp] theorem Dev.emit_serves (d : Dev) (o : Out) : (d.emit o).serves = d.serves := rfl
@[simp] theorem Dev.emit_syncEnd (d : Dev) (o : Out) : (d.emit o).syncEnd = d.syncEnd := rfl
@[simp] theorem Dev.emit_rekeyOut (d : Dev) (o : Out) : (d.emit o).rekeyOut = d.rekeyOut := rfl
@[simp] theorem Dev.emit_sesTx (d : Dev) (o : Out) : (d.emit o).sesTx = d.sesTx := rfl
@[simp] theorem Dev.emit_sesTxNew (d : Dev) (o : Out) : (d.emit o).sesTxNew = d.sesTxNew := rfl
@[simp] theorem Dev.emit_sesRx (d : Dev) (o : Out) : (d.emit o).sesRx = d.sesRx := rfl
@[simp] theorem Dev.emit_sesRxNew (d : Dev) (o : Out) : (d.emit o).sesRxNew = d.sesRxNew := rfl
@[simp] theorem Dev.emit_shelfNew (d : Dev) (o : Out) : (d.emit o).shelfNew = d.shelfNew := rfl
@[simp] theorem Dev.emit_gSaid (d : Dev) (o : Out) : (d.emit o).gSaid = d.gSaid := rfl
@[simp] theorem Dev.emit_shelf (d : Dev) (o : Out) : (d.emit o).shelf = d.shelf := rfl
@[simp] theorem Dev.emit_pairKey (d : Dev) (o : Out) : (d.emit o).pairKey = d.pairKey := rfl
@[simp] theorem Dev.emit_gLastRx (d : Dev) (o : Out) : (d.emit o).gLastRx = d.gLastRx := rfl
@[simp] theorem Dev.emit_gLastTx (d : Dev) (o : Out) : (d.emit o).gLastTx = d.gLastTx := rfl
@[simp] theorem Dev.emit_twinUsed (d : Dev) (o : Out) : (d.emit o).twinUsed = d.twinUsed := rfl
@[simp] theorem Dev.emit_twinState (d : Dev) (o : Out) : (d.emit o).twinState = d.twinState := rfl
@[simp] theorem Dev.emit_twinPtm (d : Dev) (o : Out) : (d.emit o).twinPtm = d.twinPtm := rfl
@[simp] theorem Dev.emit_decided (d : Dev) (o : Out) : (d.emit o).decided = d.decided := rfl
@[simp] theorem Dev.emit_decidedEp (d : Dev) (o : Out) : (d.emit o).decidedEp = d.decidedEp := rfl
@[simp] theorem Dev.emit_taking (d : Dev) (o : Out) : (d.emit o).taking = d.taking := rfl
@[simp] theorem Dev.emit_takes (d : Dev) (o : Out) : (d.emit o).takes = d.takes := rfl
@[simp] theorem Dev.emit_twinSlices (d : Dev) (o : Out) : (d.emit o).twinSlices = d.twinSlices := rfl
@[simp] theorem Dev.emit_twinVers (d : Dev) (o : Out) : (d.emit o).twinVers = d.twinVers := rfl
@[simp] theorem Dev.emit_twinCtxs (d : Dev) (o : Out) : (d.emit o).twinCtxs = d.twinCtxs := rfl
@[simp] theorem Dev.emit_twinRegions (d : Dev) (o : Out) : (d.emit o).twinRegions = d.twinRegions := rfl
@[simp] theorem Dev.emit_pwTwin (d : Dev) (o : Out) : (d.emit o).pwTwin = d.pwTwin := rfl
@[simp] theorem Dev.emit_freeQ (d : Dev) (o : Out) : (d.emit o).freeQ = d.freeQ := rfl
@[simp] theorem Dev.emit_hbCtl (d : Dev) (o : Out) : (d.emit o).hbCtl = d.hbCtl := rfl
@[simp] theorem Dev.emit_pairStart (d : Dev) (o : Out) : (d.emit o).pairStart = d.pairStart := rfl
@[simp] theorem Dev.emit_doms (d : Dev) (o : Out) : (d.emit o).doms = d.doms := rfl
@[simp] theorem Dev.emit_nvm (d : Dev) (o : Out) : (d.emit o).nvm = d.nvm := rfl
@[simp] theorem Dev.emit_dumpAt (d : Dev) (o : Out) : (d.emit o).dumpAt = d.dumpAt := rfl
@[simp] theorem Dev.emit_dumpSrc (d : Dev) (o : Out) : (d.emit o).dumpSrc = d.dumpSrc := rfl
@[simp] theorem Dev.emit_stayDown (d : Dev) (o : Out) : (d.emit o).stayDown = d.stayDown := rfl
@[simp] theorem Dev.emit_nHost (d : Dev) (o : Out) : (d.emit o).nHost = d.nHost := rfl
@[simp] theorem Dev.emit_nFirm (d : Dev) (o : Out) : (d.emit o).nFirm = d.nFirm := rfl
@[simp] theorem Dev.emit_nRun (d : Dev) (o : Out) : (d.emit o).nRun = d.nRun := rfl
@[simp] theorem Dev.emit_nSus (d : Dev) (o : Out) : (d.emit o).nSus = d.nSus := rfl
@[simp] theorem Dev.emit_nSec (d : Dev) (o : Out) : (d.emit o).nSec = d.nSec := rfl
@[simp] theorem Dev.emit_entryTgt (d : Dev) (o : Out) : (d.emit o).entryTgt = d.entryTgt := rfl
@[simp] theorem Dev.emit_bring (d : Dev) (o : Out) : (d.emit o).bring = d.bring := rfl
@[simp] theorem Dev.emit_enMain (d : Dev) (o : Out) : (d.emit o).enMain = d.enMain := rfl
@[simp] theorem Dev.emit_pgMain (d : Dev) (o : Out) : (d.emit o).pgMain = d.pgMain := rfl
@[simp] theorem Dev.emit_aoUp (d : Dev) (o : Out) : (d.emit o).aoUp = d.aoUp := rfl
@[simp] theorem Dev.emit_pgTry (d : Dev) (o : Out) : (d.emit o).pgTry = d.pgTry := rfl
@[simp] theorem Dev.emit_t0 (d : Dev) (o : Out) : (d.emit o).t0 = d.t0 := rfl
@[simp] theorem Dev.emit_restored (d : Dev) (o : Out) : (d.emit o).restored = d.restored := rfl
@[simp] theorem Dev.emit_counted (d : Dev) (o : Out) : (d.emit o).counted = d.counted := rfl
@[simp] theorem Dev.emit_resetDefer (d : Dev) (o : Out) : (d.emit o).resetDefer = d.resetDefer := rfl
@[simp] theorem Dev.emit_timeSave (d : Dev) (o : Out) : (d.emit o).timeSave = d.timeSave := rfl
@[simp] theorem Dev.emit_saveDue (d : Dev) (o : Out) : (d.emit o).saveDue = d.saveDue := rfl
@[simp] theorem Dev.emit_wakeHeld (d : Dev) (o : Out) : (d.emit o).wakeHeld = d.wakeHeld := rfl
@[simp] theorem Dev.emit_down (d : Dev) (o : Out) : (d.emit o).down = d.down := rfl
@[simp] theorem Dev.emit_pins (d : Dev) (o : Out) : (d.emit o).pins = d.pins := rfl

/-! ### `Dev.drawn` -/

@[simp] theorem Dev.drawn_regs (d : Dev) : (d.drawn).regs = d.regs := rfl
@[simp] theorem Dev.drawn_published (d : Dev) : (d.drawn).published = d.published := rfl
@[simp] theorem Dev.drawn_pages (d : Dev) : (d.drawn).pages = d.pages := rfl
@[simp] theorem Dev.drawn_comSeq (d : Dev) : (d.drawn).comSeq = d.comSeq := rfl
@[simp] theorem Dev.drawn_comTick (d : Dev) : (d.drawn).comTick = d.comTick := rfl
@[simp] theorem Dev.drawn_out (d : Dev) : (d.drawn).out = d.out := rfl
@[simp] theorem Dev.drawn_tick (d : Dev) : (d.drawn).tick = d.tick := rfl
@[simp] theorem Dev.drawn_supplyLost (d : Dev) : (d.drawn).supplyLost = d.supplyLost := rfl
@[simp] theorem Dev.drawn_resetRun (d : Dev) : (d.drawn).resetRun = d.resetRun := rfl
@[simp] theorem Dev.drawn_latHi (d : Dev) : (d.drawn).latHi = d.latHi := rfl
@[simp] theorem Dev.drawn_accHead (d : Dev) : (d.drawn).accHead = d.accHead := rfl
@[simp] theorem Dev.drawn_latEpoch (d : Dev) : (d.drawn).latEpoch = d.latEpoch := rfl
@[simp] theorem Dev.drawn_incidents (d : Dev) : (d.drawn).incidents = d.incidents := rfl
@[simp] theorem Dev.drawn_banks (d : Dev) : (d.drawn).banks = d.banks := rfl
@[simp] theorem Dev.drawn_cap (d : Dev) : (d.drawn).cap = d.cap := rfl
@[simp] theorem Dev.drawn_rp (d : Dev) : (d.drawn).rp = d.rp := rfl
@[simp] theorem Dev.drawn_msixTbl (d : Dev) : (d.drawn).msixTbl = d.msixTbl := rfl
@[simp] theorem Dev.drawn_pba (d : Dev) : (d.drawn).pba = d.pba := rfl
@[simp] theorem Dev.drawn_cfg (d : Dev) : (d.drawn).cfg = d.cfg := rfl
@[simp] theorem Dev.drawn_headDown (d : Dev) : (d.drawn).headDown = d.headDown := rfl
@[simp] theorem Dev.drawn_bifNow (d : Dev) : (d.drawn).bifNow = d.bifNow := rfl
@[simp] theorem Dev.drawn_ide (d : Dev) : (d.drawn).ide = d.ide := rfl
@[simp] theorem Dev.drawn_ideUsed (d : Dev) : (d.drawn).ideUsed = d.ideUsed := rfl
@[simp] theorem Dev.drawn_ptmBad (d : Dev) : (d.drawn).ptmBad = d.ptmBad := rfl
@[simp] theorem Dev.drawn_ptmLast (d : Dev) : (d.drawn).ptmLast = d.ptmLast := rfl
@[simp] theorem Dev.drawn_ptmGood (d : Dev) : (d.drawn).ptmGood = d.ptmGood := rfl
@[simp] theorem Dev.drawn_shutState (d : Dev) : (d.drawn).shutState = d.shutState := rfl
@[simp] theorem Dev.drawn_alertSet (d : Dev) : (d.drawn).alertSet = d.alertSet := rfl
@[simp] theorem Dev.drawn_events (d : Dev) : (d.drawn).events = d.events := rfl
@[simp] theorem Dev.drawn_pwDirty (d : Dev) : (d.drawn).pwDirty = d.pwDirty := rfl
@[simp] theorem Dev.drawn_pwPoison (d : Dev) : (d.drawn).pwPoison = d.pwPoison := rfl
@[simp] theorem Dev.drawn_pwUnmir (d : Dev) : (d.drawn).pwUnmir = d.pwUnmir := rfl
@[simp] theorem Dev.drawn_gpfMark (d : Dev) : (d.drawn).gpfMark = d.gpfMark := rfl
@[simp] theorem Dev.drawn_gpfRun (d : Dev) : (d.drawn).gpfRun = d.gpfRun := rfl
@[simp] theorem Dev.drawn_queues (d : Dev) : (d.drawn).queues = d.queues := rfl
@[simp] theorem Dev.drawn_fetchNo (d : Dev) : (d.drawn).fetchNo = d.fetchNo := rfl
@[simp] theorem Dev.drawn_slices (d : Dev) : (d.drawn).slices = d.slices := rfl
@[simp] theorem Dev.drawn_exp (d : Dev) : (d.drawn).exp = d.exp := rfl
@[simp] theorem Dev.drawn_ctxs (d : Dev) : (d.drawn).ctxs = d.ctxs := rfl
@[simp] theorem Dev.drawn_ctxStore (d : Dev) : (d.drawn).ctxStore = d.ctxStore := rfl
@[simp] theorem Dev.drawn_kek (d : Dev) : (d.drawn).kek = d.kek := rfl
@[simp] theorem Dev.drawn_xbufShown (d : Dev) : (d.drawn).xbufShown = d.xbufShown := rfl
@[simp] theorem Dev.drawn_zeroing (d : Dev) : (d.drawn).zeroing = d.zeroing := rfl
@[simp] theorem Dev.drawn_map (d : Dev) : (d.drawn).map = d.map := rfl
@[simp] theorem Dev.drawn_mapPend (d : Dev) : (d.drawn).mapPend = d.mapPend := rfl
@[simp] theorem Dev.drawn_resident (d : Dev) : (d.drawn).resident = d.resident := rfl
@[simp] theorem Dev.drawn_refBits (d : Dev) : (d.drawn).refBits = d.refBits := rfl
@[simp] theorem Dev.drawn_mapWant (d : Dev) : (d.drawn).mapWant = d.mapWant := rfl
@[simp] theorem Dev.drawn_dirty (d : Dev) : (d.drawn).dirty = d.dirty := rfl
@[simp] theorem Dev.drawn_lost (d : Dev) : (d.drawn).lost = d.lost := rfl
@[simp] theorem Dev.drawn_dlog (d : Dev) : (d.drawn).dlog = d.dlog := rfl
@[simp] theorem Dev.drawn_dlogStalled (d : Dev) : (d.drawn).dlogStalled = d.dlogStalled := rfl
@[simp] theorem Dev.drawn_dlogRing (d : Dev) : (d.drawn).dlogRing = d.dlogRing := rfl
@[simp] theorem Dev.drawn_metaAt (d : Dev) : (d.drawn).metaAt = d.metaAt := rfl
@[simp] theorem Dev.drawn_bands (d : Dev) : (d.drawn).bands = d.bands := rfl
@[simp] theorem Dev.drawn_closeSeq (d : Dev) : (d.drawn).closeSeq = d.closeSeq := rfl
@[simp] theorem Dev.drawn_relocs (d : Dev) : (d.drawn).relocs = d.relocs := rfl
@[simp] theorem Dev.drawn_cache (d : Dev) : (d.drawn).cache = d.cache := rfl
@[simp] theorem Dev.drawn_flash (d : Dev) : (d.drawn).flash = d.flash := rfl
@[simp] theorem Dev.drawn_elog (d : Dev) : (d.drawn).elog = d.elog := rfl
@[simp] theorem Dev.drawn_gcCredit (d : Dev) : (d.drawn).gcCredit = d.gcCredit := rfl
@[simp] theorem Dev.drawn_spareUsed (d : Dev) : (d.drawn).spareUsed = d.spareUsed := rfl
@[simp] theorem Dev.drawn_rbUsed (d : Dev) : (d.drawn).rbUsed = d.rbUsed := rfl
@[simp] theorem Dev.drawn_fills (d : Dev) : (d.drawn).fills = d.fills := rfl
@[simp] theorem Dev.drawn_stripeBuf (d : Dev) : (d.drawn).stripeBuf = d.stripeBuf := rfl
@[simp] theorem Dev.drawn_progd (d : Dev) : (d.drawn).progd = d.progd := rfl
@[simp] theorem Dev.drawn_chunksOk (d : Dev) : (d.drawn).chunksOk = d.chunksOk := rfl
@[simp] theorem Dev.drawn_bmDirty (d : Dev) : (d.drawn).bmDirty = d.bmDirty := rfl
@[simp] theorem Dev.drawn_bmClear (d : Dev) : (d.drawn).bmClear = d.bmClear := rfl
@[simp] theorem Dev.drawn_bmWait (d : Dev) : (d.drawn).bmWait = d.bmWait := rfl
@[simp] theorem Dev.drawn_bmLogs (d : Dev) : (d.drawn).bmLogs = d.bmLogs := rfl
@[simp] theorem Dev.drawn_rbQueue (d : Dev) : (d.drawn).rbQueue = d.rbQueue := rfl
@[simp] theorem Dev.drawn_lostSlots (d : Dev) : (d.drawn).lostSlots = d.lostSlots := rfl
@[simp] theorem Dev.drawn_scanPend (d : Dev) : (d.drawn).scanPend = d.scanPend := rfl
@[simp] theorem Dev.drawn_ports (d : Dev) : (d.drawn).ports = d.ports := rfl
@[simp] theorem Dev.drawn_bridges (d : Dev) : (d.drawn).bridges = d.bridges := rfl
@[simp] theorem Dev.drawn_clsNow (d : Dev) : (d.drawn).clsNow = d.clsNow := rfl
@[simp] theorem Dev.drawn_ageNow (d : Dev) : (d.drawn).ageNow = d.ageNow := rfl
@[simp] theorem Dev.drawn_susNow (d : Dev) : (d.drawn).susNow = d.susNow := rfl
@[simp] theorem Dev.drawn_rbNow (d : Dev) : (d.drawn).rbNow = d.rbNow := rfl
@[simp] theorem Dev.drawn_tgTick (d : Dev) : (d.drawn).tgTick = d.tgTick := rfl
@[simp] theorem Dev.drawn_timeFig (d : Dev) : (d.drawn).timeFig = d.timeFig := rfl
@[simp] theorem Dev.drawn_timePre (d : Dev) : (d.drawn).timePre = d.timePre := rfl
@[simp] theorem Dev.drawn_stepPend (d : Dev) : (d.drawn).stepPend = d.stepPend := rfl
@[simp] theorem Dev.drawn_lossAt (d : Dev) : (d.drawn).lossAt = d.lossAt := rfl
@[simp] theorem Dev.drawn_exGood (d : Dev) : (d.drawn).exGood = d.exGood := rfl
@[simp] theorem Dev.drawn_exBad (d : Dev) : (d.drawn).exBad = d.exBad := rfl
@[simp] theorem Dev.drawn_exLast (d : Dev) : (d.drawn).exLast = d.exLast := rfl
@[simp] theorem Dev.drawn_slewDone (d : Dev) : (d.drawn).slewDone = d.slewDone := rfl
@[simp] theorem Dev.drawn_leadCoarse (d : Dev) : (d.drawn).leadCoarse = d.leadCoarse := rfl
@[simp] theorem Dev.drawn_trk (d : Dev) : (d.drawn).trk = d.trk := rfl
@[simp] theorem Dev.drawn_fresh (d : Dev) : (d.drawn).fresh = d.fresh := rfl
@[simp] theorem Dev.drawn_hdOut (d : Dev) : (d.drawn).hdOut = d.hdOut := rfl
@[simp] theorem Dev.drawn_wkOut (d : Dev) : (d.drawn).wkOut = d.wkOut := rfl
@[simp] theorem Dev.drawn_dpar (d : Dev) : (d.drawn).dpar = d.dpar := rfl
@[simp] theorem Dev.drawn_coldPrev (d : Dev) : (d.drawn).coldPrev = d.coldPrev := rfl
@[simp] theorem Dev.drawn_coldNow (d : Dev) : (d.drawn).coldNow = d.coldNow := rfl
@[simp] theorem Dev.drawn_svSeen (d : Dev) : (d.drawn).svSeen = d.svSeen := rfl
@[simp] theorem Dev.drawn_svStart (d : Dev) : (d.drawn).svStart = d.svStart := rfl
@[simp] theorem Dev.drawn_svMoved (d : Dev) : (d.drawn).svMoved = d.svMoved := rfl
@[simp] theorem Dev.drawn_rfshDays (d : Dev) : (d.drawn).rfshDays = d.rfshDays := rfl
@[simp] theorem Dev.drawn_dayTick (d : Dev) : (d.drawn).dayTick = d.dayTick := rfl
@[simp] theorem Dev.drawn_crLim (d : Dev) : (d.drawn).crLim = d.crLim := rfl
@[simp] theorem Dev.drawn_crWait (d : Dev) : (d.drawn).crWait = d.crWait := rfl
@[simp] theorem Dev.drawn_crHold (d : Dev) : (d.drawn).crHold = d.crHold := rfl
@[simp] theorem Dev.drawn_hbmPoison (d : Dev) : (d.drawn).hbmPoison = d.hbmPoison := rfl
@[simp] theorem Dev.drawn_hbmDead (d : Dev) : (d.drawn).hbmDead = d.hbmDead := rfl
@[simp] theorem Dev.drawn_dlogBad (d : Dev) : (d.drawn).dlogBad = d.dlogBad := rfl
@[simp] theorem Dev.drawn_hbmLog (d : Dev) : (d.drawn).hbmLog = d.hbmLog := rfl
@[simp] theorem Dev.drawn_hbmRecent (d : Dev) : (d.drawn).hbmRecent = d.hbmRecent := rfl
@[simp] theorem Dev.drawn_hbmRetired (d : Dev) : (d.drawn).hbmRetired = d.hbmRetired := rfl
@[simp] theorem Dev.drawn_hbmBare (d : Dev) : (d.drawn).hbmBare = d.hbmBare := rfl
@[simp] theorem Dev.drawn_scrLine (d : Dev) : (d.drawn).scrLine = d.scrLine := rfl
@[simp] theorem Dev.drawn_scrStart (d : Dev) : (d.drawn).scrStart = d.scrStart := rfl
@[simp] theorem Dev.drawn_sramStart (d : Dev) : (d.drawn).sramStart = d.sramStart := rfl
@[simp] theorem Dev.drawn_sleepAt (d : Dev) : (d.drawn).sleepAt = d.sleepAt := rfl
@[simp] theorem Dev.drawn_remapped (d : Dev) : (d.drawn).remapped = d.remapped := rfl
@[simp] theorem Dev.drawn_arrCe (d : Dev) : (d.drawn).arrCe = d.arrCe := rfl
@[simp] theorem Dev.drawn_ceWords (d : Dev) : (d.drawn).ceWords = d.ceWords := rfl
@[simp] theorem Dev.drawn_coresOut (d : Dev) : (d.drawn).coresOut = d.coresOut := rfl
@[simp] theorem Dev.drawn_coresHit (d : Dev) : (d.drawn).coresHit = d.coresHit := rfl
@[simp] theorem Dev.drawn_redNo (d : Dev) : (d.drawn).redNo = d.redNo := rfl
@[simp] theorem Dev.drawn_exhausted (d : Dev) : (d.drawn).exhausted = d.exhausted := rfl
@[simp] theorem Dev.drawn_conds (d : Dev) : (d.drawn).conds = d.conds := rfl
@[simp] theorem Dev.drawn_levelTick (d : Dev) : (d.drawn).levelTick = d.levelTick := rfl
@[simp] theorem Dev.drawn_levelEpoch (d : Dev) : (d.drawn).levelEpoch = d.levelEpoch := rfl
@[simp] theorem Dev.drawn_peDays (d : Dev) : (d.drawn).peDays = d.peDays := rfl
@[simp] theorem Dev.drawn_fmtDays (d : Dev) : (d.drawn).fmtDays = d.fmtDays := rfl
@[simp] theorem Dev.drawn_spareFmt (d : Dev) : (d.drawn).spareFmt = d.spareFmt := rfl
@[simp] theorem Dev.drawn_incWait (d : Dev) : (d.drawn).incWait = d.incWait := rfl
@[simp] theorem Dev.drawn_sbWait (d : Dev) : (d.drawn).sbWait = d.sbWait := rfl
@[simp] theorem Dev.drawn_pwDead (d : Dev) : (d.drawn).pwDead = d.pwDead := rfl
@[simp] theorem Dev.drawn_pwCured (d : Dev) : (d.drawn).pwCured = d.pwCured := rfl
@[simp] theorem Dev.drawn_ctxPend (d : Dev) : (d.drawn).ctxPend = d.ctxPend := rfl
@[simp] theorem Dev.drawn_resync (d : Dev) : (d.drawn).resync = d.resync := rfl
@[simp] theorem Dev.drawn_giving (d : Dev) : (d.drawn).giving = d.giving := rfl
@[simp] theorem Dev.drawn_wants (d : Dev) : (d.drawn).wants = d.wants := rfl
@[simp] theorem Dev.drawn_leaving (d : Dev) : (d.drawn).leaving = d.leaving := rfl
@[simp] theorem Dev.drawn_metaBack (d : Dev) : (d.drawn).metaBack = d.metaBack := rfl
@[simp] theorem Dev.drawn_scanBands (d : Dev) : (d.drawn).scanBands = d.scanBands := rfl
@[simp] theorem Dev.drawn_dacc (d : Dev) : (d.drawn).dacc = d.dacc := rfl
@[simp] theorem Dev.drawn_fmtOut (d : Dev) : (d.drawn).fmtOut = d.fmtOut := rfl
@[simp] theorem Dev.drawn_apWait (d : Dev) : (d.drawn).apWait = d.apWait := rfl
@[simp] theorem Dev.drawn_rebuildFmt (d : Dev) : (d.drawn).rebuildFmt = d.rebuildFmt := rfl
@[simp] theorem Dev.drawn_endur (d : Dev) : (d.drawn).endur = d.endur := rfl
@[simp] theorem Dev.drawn_gTx (d : Dev) : (d.drawn).gTx = d.gTx := rfl
@[simp] theorem Dev.drawn_gRx (d : Dev) : (d.drawn).gRx = d.gRx := rfl
@[simp] theorem Dev.drawn_gPend (d : Dev) : (d.drawn).gPend = d.gPend := rfl
@[simp] theorem Dev.drawn_gPrev (d : Dev) : (d.drawn).gPrev = d.gPrev := rfl
@[simp] theorem Dev.drawn_serves (d : Dev) : (d.drawn).serves = d.serves := rfl
@[simp] theorem Dev.drawn_syncEnd (d : Dev) : (d.drawn).syncEnd = d.syncEnd := rfl
@[simp] theorem Dev.drawn_rekeyOut (d : Dev) : (d.drawn).rekeyOut = d.rekeyOut := rfl
@[simp] theorem Dev.drawn_sesTx (d : Dev) : (d.drawn).sesTx = d.sesTx := rfl
@[simp] theorem Dev.drawn_sesTxNew (d : Dev) : (d.drawn).sesTxNew = d.sesTxNew := rfl
@[simp] theorem Dev.drawn_sesRx (d : Dev) : (d.drawn).sesRx = d.sesRx := rfl
@[simp] theorem Dev.drawn_sesRxNew (d : Dev) : (d.drawn).sesRxNew = d.sesRxNew := rfl
@[simp] theorem Dev.drawn_shelfNew (d : Dev) : (d.drawn).shelfNew = d.shelfNew := rfl
@[simp] theorem Dev.drawn_gSaid (d : Dev) : (d.drawn).gSaid = d.gSaid := rfl
@[simp] theorem Dev.drawn_shelf (d : Dev) : (d.drawn).shelf = d.shelf := rfl
@[simp] theorem Dev.drawn_pairKey (d : Dev) : (d.drawn).pairKey = d.pairKey := rfl
@[simp] theorem Dev.drawn_gLastRx (d : Dev) : (d.drawn).gLastRx = d.gLastRx := rfl
@[simp] theorem Dev.drawn_gLastTx (d : Dev) : (d.drawn).gLastTx = d.gLastTx := rfl
@[simp] theorem Dev.drawn_twinUsed (d : Dev) : (d.drawn).twinUsed = d.twinUsed := rfl
@[simp] theorem Dev.drawn_twinState (d : Dev) : (d.drawn).twinState = d.twinState := rfl
@[simp] theorem Dev.drawn_twinPtm (d : Dev) : (d.drawn).twinPtm = d.twinPtm := rfl
@[simp] theorem Dev.drawn_decided (d : Dev) : (d.drawn).decided = d.decided := rfl
@[simp] theorem Dev.drawn_decidedEp (d : Dev) : (d.drawn).decidedEp = d.decidedEp := rfl
@[simp] theorem Dev.drawn_taking (d : Dev) : (d.drawn).taking = d.taking := rfl
@[simp] theorem Dev.drawn_takes (d : Dev) : (d.drawn).takes = d.takes := rfl
@[simp] theorem Dev.drawn_twinSlices (d : Dev) : (d.drawn).twinSlices = d.twinSlices := rfl
@[simp] theorem Dev.drawn_twinVers (d : Dev) : (d.drawn).twinVers = d.twinVers := rfl
@[simp] theorem Dev.drawn_twinCtxs (d : Dev) : (d.drawn).twinCtxs = d.twinCtxs := rfl
@[simp] theorem Dev.drawn_twinRegions (d : Dev) : (d.drawn).twinRegions = d.twinRegions := rfl
@[simp] theorem Dev.drawn_pwTwin (d : Dev) : (d.drawn).pwTwin = d.pwTwin := rfl
@[simp] theorem Dev.drawn_freeQ (d : Dev) : (d.drawn).freeQ = d.freeQ := rfl
@[simp] theorem Dev.drawn_hbCtl (d : Dev) : (d.drawn).hbCtl = d.hbCtl := rfl
@[simp] theorem Dev.drawn_pairStart (d : Dev) : (d.drawn).pairStart = d.pairStart := rfl
@[simp] theorem Dev.drawn_doms (d : Dev) : (d.drawn).doms = d.doms := rfl
@[simp] theorem Dev.drawn_nvm (d : Dev) : (d.drawn).nvm = d.nvm := rfl
@[simp] theorem Dev.drawn_dumpAt (d : Dev) : (d.drawn).dumpAt = d.dumpAt := rfl
@[simp] theorem Dev.drawn_dumpSrc (d : Dev) : (d.drawn).dumpSrc = d.dumpSrc := rfl
@[simp] theorem Dev.drawn_stayDown (d : Dev) : (d.drawn).stayDown = d.stayDown := rfl
@[simp] theorem Dev.drawn_nHost (d : Dev) : (d.drawn).nHost = d.nHost := rfl
@[simp] theorem Dev.drawn_nFirm (d : Dev) : (d.drawn).nFirm = d.nFirm := rfl
@[simp] theorem Dev.drawn_nRun (d : Dev) : (d.drawn).nRun = d.nRun := rfl
@[simp] theorem Dev.drawn_nSus (d : Dev) : (d.drawn).nSus = d.nSus := rfl
@[simp] theorem Dev.drawn_nSec (d : Dev) : (d.drawn).nSec = d.nSec := rfl
@[simp] theorem Dev.drawn_entryTgt (d : Dev) : (d.drawn).entryTgt = d.entryTgt := rfl
@[simp] theorem Dev.drawn_bring (d : Dev) : (d.drawn).bring = d.bring := rfl
@[simp] theorem Dev.drawn_enMain (d : Dev) : (d.drawn).enMain = d.enMain := rfl
@[simp] theorem Dev.drawn_pgMain (d : Dev) : (d.drawn).pgMain = d.pgMain := rfl
@[simp] theorem Dev.drawn_aoUp (d : Dev) : (d.drawn).aoUp = d.aoUp := rfl
@[simp] theorem Dev.drawn_pgTry (d : Dev) : (d.drawn).pgTry = d.pgTry := rfl
@[simp] theorem Dev.drawn_t0 (d : Dev) : (d.drawn).t0 = d.t0 := rfl
@[simp] theorem Dev.drawn_restored (d : Dev) : (d.drawn).restored = d.restored := rfl
@[simp] theorem Dev.drawn_counted (d : Dev) : (d.drawn).counted = d.counted := rfl
@[simp] theorem Dev.drawn_resetDefer (d : Dev) : (d.drawn).resetDefer = d.resetDefer := rfl
@[simp] theorem Dev.drawn_timeSave (d : Dev) : (d.drawn).timeSave = d.timeSave := rfl
@[simp] theorem Dev.drawn_saveDue (d : Dev) : (d.drawn).saveDue = d.saveDue := rfl
@[simp] theorem Dev.drawn_wakeHeld (d : Dev) : (d.drawn).wakeHeld = d.wakeHeld := rfl
@[simp] theorem Dev.drawn_down (d : Dev) : (d.drawn).down = d.down := rfl
@[simp] theorem Dev.drawn_pins (d : Dev) : (d.drawn).pins = d.pins := rfl

end Sys2Proof.Machine
end

