-- ==== Sys2Proof/Laws/Ops.lean ====
section
/-! SUPPORT. What each shared operation of `Machine/Ops.lean` does, said once: what a register, a field and a page header read after it,
and which parts of the device it leaves as they were. -/

namespace Sys2Proof.Machine

variable (d : Dev)

/-! ### Registers -/

theorem Dev.reg_setReg (a b : Nat) (v : Word) : (d.setReg a v).reg b = if b = a then v else d.reg b := by
  simp only [Dev.reg, Dev.setReg]
  split
  · rename_i h; subst h; exact SMap.get_set_self _ _ _ _
  · rename_i h; exact SMap.get_set_ne _ _ _ _ _ h

@[simp] theorem Dev.reg_setReg_self (a : Nat) (v : Word) : (d.setReg a v).reg a = v := by rw [Dev.reg_setReg, if_pos rfl]

theorem Dev.reg_setReg_ne {a b : Nat} (h : b ≠ a) (v : Word) : (d.setReg a v).reg b = d.reg b := by
  rw [Dev.reg_setReg, if_neg h]

theorem Dev.reg_setFld (a b hi lo v : Nat) : (d.setFld a hi lo v).reg b = if b = a then putBits (d.reg a) hi lo v else d.reg b :=
  Dev.reg_setReg d a b _

theorem Dev.reg_setFlag (a b n : Nat) (x : Bool) : (d.setFlag a n x).reg b = if b = a then putBit (d.reg a) n x else d.reg b :=
  Dev.reg_setReg d a b _

theorem Dev.reg_setFld_ne {a b : Nat} (h : b ≠ a) (hi lo v : Nat) : (d.setFld a hi lo v).reg b = d.reg b := by
  rw [Dev.reg_setFld, if_neg h]

theorem Dev.reg_setFlag_ne {a b : Nat} (h : b ≠ a) (n : Nat) (x : Bool) : (d.setFlag a n x).reg b = d.reg b := by
  rw [Dev.reg_setFlag, if_neg h]

theorem Dev.reg_inc_ne {a b : Nat} (h : b ≠ a) (n : Nat) : (d.inc a n).reg b = d.reg b := Dev.reg_setFld_ne d h _ _ _

theorem Dev.reg_incFld_ne {a b : Nat} (h : b ≠ a) (hi lo n : Nat) : (d.incFld a hi lo n).reg b = d.reg b := Dev.reg_setFld_ne d h _ _ _

theorem Dev.reg_inc64_ne {a c b : Nat} (h1 : b ≠ a) (h2 : b ≠ c) (n : Nat) : (d.inc64 a c n).reg b = d.reg b := by
  simp only [Dev.inc64, Dev.reg_setReg, if_neg h1, if_neg h2]

theorem Dev.reg_set64_ne {a c b : Nat} (h1 : b ≠ a) (h2 : b ≠ c) (n : Nat) : (d.set64 a c n).reg b = d.reg b := by
  simp only [Dev.set64, Dev.reg_setReg, if_neg h1, if_neg h2]

/-- A field reads as it was set. -/
theorem Dev.fld_setFld_self (a hi lo v : Nat) (h : hi < 32) : (d.setFld a hi lo v).fld a hi lo = v % 2 ^ (hi + 1 - lo) := by
  simp only [Dev.fld, Dev.reg_setFld, if_pos]
  exact bits_putBits_self _ _ _ _ h

/-- Another field of the same register keeps. -/
theorem Dev.fld_setFld_other (a hi lo v hi' lo' : Nat) (h : hi < 32) (hd : hi < lo' ∨ hi' < lo) :
    (d.setFld a hi lo v).fld a hi' lo' = d.fld a hi' lo' := by
  simp only [Dev.fld, Dev.reg_setFld, if_pos]
  exact bits_putBits_ne _ _ _ _ _ _ h hd

theorem Dev.fld_setFld_ne {a b : Nat} (h : b ≠ a) (hi lo v hi' lo' : Nat) : (d.setFld a hi lo v).fld b hi' lo' = d.fld b hi' lo' := by
  simp only [Dev.fld, Dev.reg_setFld_ne d h]

theorem Dev.flag_setFlag_self (a n : Nat) (x : Bool) (h : n < 32) : (d.setFlag a n x).flag a n = x := by
  simp only [Dev.flag, Dev.reg_setFlag, if_pos]
  rw [bitAt_putBit _ _ _ _ h, if_pos rfl]

theorem Dev.flag_setFlag_other (a n m : Nat) (x : Bool) (h : n < 32) (hm : m ≠ n) : (d.setFlag a n x).flag a m = d.flag a m := by
  simp only [Dev.flag, Dev.reg_setFlag, if_pos]
  rw [bitAt_putBit _ _ _ _ h, if_neg hm]

theorem Dev.flag_setFlag_ne {a b : Nat} (h : b ≠ a) (n m : Nat) (x : Bool) : (d.setFlag a n x).flag b m = d.flag b m := by
  simp only [Dev.flag, Dev.reg_setFlag_ne d h]

theorem Dev.fld_setFlag_ne {a b : Nat} (h : b ≠ a) (n hi lo : Nat) (x : Bool) : (d.setFlag a n x).fld b hi lo = d.fld b hi lo := by
  simp only [Dev.fld, Dev.reg_setFlag_ne d h]

theorem Dev.flag_setFld_ne {a b : Nat} (h : b ≠ a) (hi lo v n : Nat) : (d.setFld a hi lo v).flag b n = d.flag b n := by
  simp only [Dev.flag, Dev.reg_setFld_ne d h]

theorem Dev.fld_setFlag_other (a n hi lo : Nat) (x : Bool) (h : n < 32) (hd : n < lo ∨ hi < n) :
    (d.setFlag a n x).fld a hi lo = d.fld a hi lo := by
  simp only [Dev.fld, Dev.reg_setFlag, if_pos]
  exact bits_putBit_ne _ _ _ _ _ h hd

theorem Dev.flag_setFld_other (a hi lo v n : Nat) (h : hi < 32) (hd : n < lo ∨ hi < n) :
    (d.setFld a hi lo v).flag a n = d.flag a n := by
  simp only [Dev.flag, Dev.reg_setFld, if_pos]
  exact bitAt_putBits_ne _ _ _ _ _ h hd

theorem Dev.fld_setReg_self (a hi lo : Nat) (v : Word) : (d.setReg a v).fld a hi lo = bits v hi lo := by
  simp only [Dev.fld, Dev.reg_setReg_self]

theorem Dev.fld_setReg_ne {a b : Nat} (h : b ≠ a) (v : Word) (hi lo : Nat) : (d.setReg a v).fld b hi lo = d.fld b hi lo := by
  simp only [Dev.fld, Dev.reg_setReg_ne d h]

theorem Dev.flag_setReg_self (a n : Nat) (v : Word) : (d.setReg a v).flag a n = bitAt v n := by
  simp only [Dev.flag, Dev.reg_setReg_self]

theorem Dev.flag_setReg_ne {a b : Nat} (h : b ≠ a) (v : Word) (n : Nat) : (d.setReg a v).flag b n = d.flag b n := by
  simp only [Dev.flag, Dev.reg_setReg_ne d h]

/-! ### What does not touch the registers -/

@[simp] theorem Dev.reg_setPage (pg : Nat) (p : Page) (off : Nat) : (d.setPage pg p).reg off = d.reg off := rfl
@[simp] theorem Dev.fld_setPage (pg : Nat) (p : Page) (off hi lo : Nat) : (d.setPage pg p).fld off hi lo = d.fld off hi lo := rfl
@[simp] theorem Dev.flag_setPage (pg : Nat) (p : Page) (off n : Nat) : (d.setPage pg p).flag off n = d.flag off n := rfl
@[simp] theorem Dev.reg_emit (o : Out) (off : Nat) : (d.emit o).reg off = d.reg off := rfl
@[simp] theorem Dev.fld_emit (o : Out) (off hi lo : Nat) : (d.emit o).fld off hi lo = d.fld off hi lo := rfl
@[simp] theorem Dev.flag_emit (o : Out) (off n : Nat) : (d.emit o).flag off n = d.flag off n := rfl
@[simp] theorem Dev.reg_drawn (off : Nat) : d.drawn.reg off = d.reg off := rfl
@[simp] theorem Dev.fld_drawn (off hi lo : Nat) : d.drawn.fld off hi lo = d.fld off hi lo := rfl
@[simp] theorem Dev.flag_drawn (off n : Nat) : d.drawn.flag off n = d.flag off n := rfl

/-! ### Page headers -/

theorem Dev.page_setPage (a b : Nat) (p : Page) : (d.setPage a p).page b = if b = a then p else d.page b := by
  simp only [Dev.page, Dev.setPage]
  split
  · rename_i h; subst h; exact SMap.get_set_self _ _ _ _
  · rename_i h; exact SMap.get_set_ne _ _ _ _ _ h

@[simp] theorem Dev.page_setPage_self (a : Nat) (p : Page) : (d.setPage a p).page a = p := by rw [Dev.page_setPage, if_pos rfl]

theorem Dev.page_setPage_ne {a b : Nat} (h : b ≠ a) (p : Page) : (d.setPage a p).page b = d.page b := by
  rw [Dev.page_setPage, if_neg h]

@[simp] theorem Dev.page_setReg (off : Nat) (v : Word) (pg : Nat) : (d.setReg off v).page pg = d.page pg := rfl
@[simp] theorem Dev.page_setFld (off hi lo v pg : Nat) : (d.setFld off hi lo v).page pg = d.page pg := rfl
@[simp] theorem Dev.page_setFlag (off n : Nat) (b : Bool) (pg : Nat) : (d.setFlag off n b).page pg = d.page pg := rfl
@[simp] theorem Dev.page_inc (off n pg : Nat) : (d.inc off n).page pg = d.page pg := rfl
@[simp] theorem Dev.page_inc64 (lo hi n pg : Nat) : (d.inc64 lo hi n).page pg = d.page pg := rfl
@[simp] theorem Dev.page_emit (o : Out) (pg : Nat) : (d.emit o).page pg = d.page pg := rfl

/-! ### Capture records -/

/-- A capture record changes the staging area only. -/
theorem Dev.capAdd_eq (kind src flags : Nat) (ws : List Nat) (n body : Nat) :
    d.capAdd kind src flags ws n body = { d with cap := (d.capAdd kind src flags ws n body).cap } := by
  simp only [Dev.capAdd]
  split <;> rfl

theorem Dev.capRec_eq (kind src : Nat) (fs : Fields) : d.capRec kind src fs = { d with cap := (d.capRec kind src fs).cap } :=
  Dev.capAdd_eq d _ _ _ _ _ _

/-- The record of a register write changes the staging area only. -/
theorem Dev.capWrite_eq (bar off : Nat) (v : Word) : d.capWrite bar off v = { d with cap := (d.capWrite bar off v).cap } := by
  simp only [Dev.capWrite]
  split <;> exact Dev.capAdd_eq d _ _ _ _ _ _

/-- While no capture runs there is no record. -/
theorem Dev.capAdd_idle (kind src flags : Nat) (ws : List Nat) (n body : Nat) (h : d.flag Reg.SCP_CAP_STS 0 = false) :
    d.capAdd kind src flags ws n body = d := by
  simp only [Dev.capAdd, h]
  rfl

theorem Dev.capRec_idle (kind src : Nat) (fs : Fields) (h : d.flag Reg.SCP_CAP_STS 0 = false) : d.capRec kind src fs = d :=
  Dev.capAdd_idle d _ _ _ _ _ _ h

/-- While no capture runs a record of unstated layout is not written either. -/
theorem Dev.capRecFree_idle (kind src : Nat) (ws : List Nat) (h : d.flag Reg.SCP_CAP_STS 0 = false) : d.capRecFree kind src ws = d := by
  simp only [Dev.capRecFree, h]
  rfl

/-! ### Errors and interrupts -/

/-- Recording an error changes the page's header only. -/
theorem Dev.recordErr_eq (pg code i0 i1 : Nat) : d.recordErr pg code i0 i1 = { d with pages := (d.recordErr pg code i0 i1).pages } := by
  simp only [Dev.recordErr]
  split <;> rfl

@[simp] theorem Dev.reg_recordErr (pg code i0 i1 off : Nat) : (d.recordErr pg code i0 i1).reg off = d.reg off := by
  rw [Dev.recordErr_eq]; rfl
@[simp] theorem Dev.fld_recordErr (pg code i0 i1 off hi lo : Nat) : (d.recordErr pg code i0 i1).fld off hi lo = d.fld off hi lo := by
  rw [Dev.recordErr_eq]; rfl
@[simp] theorem Dev.flag_recordErr (pg code i0 i1 off n : Nat) : (d.recordErr pg code i0 i1).flag off n = d.flag off n := by
  rw [Dev.recordErr_eq]; rfl

/-- The first error since a clear fills the error registers (R45). -/
theorem Dev.page_recordErr_first (pg code i0 i1 : Nat) (h : (d.page pg).err = false) :
    (d.recordErr pg code i0 i1).page pg =
      { d.page pg with err := true, errCode := code, info0 := w32 i0, info1 := w32 i1, errTick := d.tick } := by
  simp only [Dev.recordErr, h]
  exact Dev.page_setPage_self _ _ _

/-- A later error only counts (R45). -/
theorem Dev.page_recordErr_later (pg code i0 i1 : Nat) (h : (d.page pg).err = true) :
    (d.recordErr pg code i0 i1).page pg = { d.page pg with overflow := satN 16 ((d.page pg).overflow + 1) } := by
  simp only [Dev.recordErr, h]
  exact Dev.page_setPage_self _ _ _

theorem Dev.page_recordErr_ne {a b : Nat} (h : b ≠ a) (code i0 i1 : Nat) : (d.recordErr a code i0 i1).page b = d.page b := by
  simp only [Dev.recordErr]
  split <;> exact Dev.page_setPage_ne _ h _

/-- An MSI-X message is an output or a pending bit. -/
theorem Dev.msix_eq (h : Option Nat) (vec : Nat) : d.msix h vec = { d with out := (d.msix h vec).out, pba := (d.msix h vec).pba } := by
  simp only [Dev.msix]
  split
  · split <;> rfl
  · rfl

/-- An event source changes the page's header, the outputs and the pending bits. -/
theorem Dev.raise0_eq (pg bit : Nat) :
    d.raise0 pg bit = { d with pages := (d.raise0 pg bit).pages, out := (d.raise0 pg bit).out, pba := (d.raise0 pg bit).pba } := by
  simp only [Dev.raise0, Dev.pageMsix]
  split
  · rw [Dev.msix_eq]; rfl
  · rfl

@[simp] theorem Dev.reg_raise0 (pg bit off : Nat) : (d.raise0 pg bit).reg off = d.reg off := by rw [Dev.raise0_eq]; rfl

/-- An event latches its INT_PEND bit (R51). -/
theorem Dev.page_raise0 (pg bit : Nat) : (d.raise0 pg bit).page pg = { d.page pg with intPend := putBit (d.page pg).intPend bit true } := by
  have key : ∀ x : Dev, (x.pageMsix pg).page pg = x.page pg := by
    intro x; simp only [Dev.pageMsix]; rw [Dev.msix_eq]; rfl
  simp only [Dev.raise0]
  split
  · rw [key, Dev.page_setPage_self]
  · rw [Dev.page_setPage_self]

theorem Dev.page_raise0_ne {a b : Nat} (h : b ≠ a) (bit : Nat) : (d.raise0 a bit).page b = d.page b := by
  have key : ∀ x : Dev, (x.pageMsix a).page b = x.page b := by
    intro x; simp only [Dev.pageMsix]; rw [Dev.msix_eq]; rfl
  simp only [Dev.raise0]
  split
  · rw [key, Dev.page_setPage_ne _ h]
  · rw [Dev.page_setPage_ne _ h]

/-- An event that the firmware handles changes registers, headers, outputs and pending bits only. -/
theorem Dev.raise_eq (pg bit : Nat) :
    d.raise pg bit = { d with regs := (d.raise pg bit).regs, pages := (d.raise pg bit).pages, out := (d.raise pg bit).out,
                              pba := (d.raise pg bit).pba } := by
  simp only [Dev.raise, Dev.toRun]
  split
  · simp only [Dev.setMode]
    rw [Dev.raise0_eq, Dev.raise0_eq d]
    rfl
  · rw [Dev.raise0_eq]

/-- Registers outside the mode's three keep at an event. -/
theorem Dev.reg_raise (pg bit off : Nat) (h1 : off ≠ Reg.PWR_MODE_STS) (h2 : off ≠ Reg.GLB_DEV_STS) (h3 : off ≠ Reg.PWR_BIAS_NOW) :
    (d.raise pg bit).reg off = d.reg off := by
  simp only [Dev.raise, Dev.toRun]
  split
  · simp only [Dev.setMode, Dev.setBias, Dev.reg_raise0, Dev.reg_setReg, Dev.reg_setFld, if_neg h1, if_neg h2, if_neg h3]
  · exact Dev.reg_raise0 d pg bit off

/-- Outside IDLE an event changes no register. -/
theorem Dev.raise_awake (pg bit : Nat) (h : d.mode ≠ 1) : d.raise pg bit = d.raise0 pg bit := by
  have h' : (d.raise0 pg bit).mode = d.mode := by simp only [Dev.mode, Dev.fld, Dev.reg_raise0]
  simp only [Dev.raise, Dev.toRun, h', if_neg h]

/-- An event latches its INT_PEND bit, whatever the mode. -/
theorem Dev.intPend_raise (pg bit : Nat) (h : pg ≠ 0xD00) :
    ((d.raise pg bit).page pg) = { d.page pg with intPend := putBit (d.page pg).intPend bit true } := by
  simp only [Dev.raise, Dev.toRun]
  split
  · simp only [Dev.setMode, Dev.setBias]
    rw [Dev.page_raise0_ne _ h, Dev.page_setReg, Dev.page_setFld, Dev.page_setFld, Dev.page_raise0]
  · exact Dev.page_raise0 d pg bit

/-! ### The frames -/

section Frames

variable (s : State) (f : Dev → Dev) (g : Memory → Dev → Dev) (st : Memory → Dev → List (Nat × List Byte)) (sd : Dev → List (Nat × List Byte))

theorem act_next (h1 : s.dev.supplyLost = false) (h2 : s.dev.pgMain = true) : act s f = .next { s with dev := f s.dev } := by
  simp [act, actAny, h1, h2]

theorem actAo_next (h1 : s.dev.supplyLost = false) (h2 : s.dev.aoUp = true) : actAo s f = .next { s with dev := f s.dev } := by
  simp [actAo, actAny, h1, h2]

theorem actAny_next (h1 : s.dev.supplyLost = false) : actAny s f = .next { s with dev := f s.dev } := by
  simp [actAny, h1]

theorem actArray_next (h1 : s.dev.supplyLost = false) (h2 : s.dev.aoUp = true) :
    actArray s g st = .next { s with dev := g s.array s.dev, array := storeArray s.array (st s.array s.dev) } := by
  simp [actArray, h1, h2]

theorem actWindow_next (h1 : s.dev.supplyLost = false) (h2 : s.dev.pgMain = true) :
    actWindow s g st = .next { s with dev := g s.window s.dev, window := storeWindow s.window (st s.window s.dev) } := by
  simp [actWindow, h1, h2]

theorem actAoWindow_next (h1 : s.dev.supplyLost = false) (h2 : s.dev.aoUp = true) :
    actAoWindow s f sd = .next { s with dev := f s.dev, window := storeWindow s.window (sd s.dev) } := by
  simp [actAoWindow, h1, h2]

/-- A command that touches no byte memory: a next state differs in the device at most. -/
theorem actAny_inv (t : State) (h : actAny s f = .next t) : t = { s with dev := f s.dev } := by
  simp only [actAny] at h
  split at h
  · cases h
  · cases h; rfl

theorem act_inv (t : State) (h : act s f = .next t) : ∃ d, t = { s with dev := d } := ⟨_, actAny_inv s _ t h⟩

theorem actAo_inv (t : State) (h : actAo s f = .next t) : ∃ d, t = { s with dev := d } := ⟨_, actAny_inv s _ t h⟩

theorem actBoard_inv (t : State) (h : actBoard s f = .next t) : ∃ d, t = { s with dev := d } := by
  cases h; exact ⟨_, rfl⟩

/-- A command that may store into the flash array changes the device and, by stores, the array at most. -/
theorem actArray_inv (t : State) (h : actArray s g st = .next t) :
    ∃ d l, t = { s with dev := d, array := storeArray s.array l } := by
  simp only [actArray] at h
  split at h
  · cases h
  · split at h
    · cases h; exact ⟨_, _, rfl⟩
    · cases h; exact ⟨s.dev, [], rfl⟩

/-- A command that may store into the window changes the device and, by stores, the window at most. -/
theorem actWindow_inv (t : State) (h : actWindow s g st = .next t) :
    ∃ d l, t = { s with dev := d, window := storeWindow s.window l } := by
  simp only [actWindow] at h
  split at h
  · cases h
  · split at h
    · cases h; exact ⟨_, _, rfl⟩
    · cases h; exact ⟨s.dev, [], rfl⟩

theorem actAoWindow_inv (t : State) (h : actAoWindow s f sd = .next t) :
    ∃ d l, t = { s with dev := d, window := storeWindow s.window l } := by
  simp only [actAoWindow] at h
  split at h
  · cases h
  · split at h
    · cases h; exact ⟨_, _, rfl⟩
    · cases h; exact ⟨s.dev, [], rfl⟩

end Frames

/-! ### Stores into the two memories -/

/-- Stores keep the array's canonical form. -/
theorem storeArray_wf (l : List (Nat × List Byte)) : ∀ (m : Memory), Memory.wf arrayDflt m = true →
    Memory.wf arrayDflt (storeArray m l) = true := by
  induction l with
  | nil => intro m h; exact h
  | cons x l ih =>
    intro m h
    refine ih _ ?_
    dsimp only
    split
    · exact h
    · exact Memory.writeList_wf _ _ _ _ h

/-- Stores keep the window's canonical form. -/
theorem storeWindow_wf (l : List (Nat × List Byte)) : ∀ (m : Memory), Memory.wf windowDflt m = true →
    Memory.wf windowDflt (storeWindow m l) = true := by
  induction l with
  | nil => intro m h; exact h
  | cons x l ih => intro m h; exact ih _ (Memory.writeList_wf _ _ _ _ h)

/-- No store reaches the boot loader's sectors (R443). -/
theorem storeArray_boot (l : List (Nat × List Byte)) (a : Nat) (ha : a < 0x100000) : ∀ (m : Memory),
    Memory.read arrayDflt (storeArray m l) a = Memory.read arrayDflt m a := by
  induction l with
  | nil => intro m; rfl
  | cons x l ih =>
    intro m
    refine (ih _).trans ?_
    dsimp only
    split
    · rfl
    · exact Memory.read_writeList_outside _ _ _ _ _ (by omega)

end Sys2Proof.Machine
end

