-- ==== Sys2Proof/Laws/RegWrite.lean ====
section
/-! SUPPORT. What a register write does around its effect (R40 to R54): the lemma `regWrite_open` says everything a write to an open page
can change beside what its effect changes, and `pageWrite_reaches` the same of a header write. -/

namespace Sys2Proof.Machine

/-- Publishing changes the published copies only. -/
theorem Dev.publishAll_eq (os : List Nat) : ∀ d : Dev, ∃ p, d.publishAll os = { d with published := p } := by
  induction os with
  | nil => intro d; exact ⟨d.published, rfl⟩
  | cons o os ih =>
    intro d
    obtain ⟨p, hp⟩ := ih (d.publishReg o)
    exact ⟨p, by rw [Dev.publishAll, List.foldl_cons]; exact hp⟩

/-- What a write publishes changes the published copies and the pages' SEQ only. -/
theorem Dev.publishWrite_eq (d before : Dev) (off : Nat) :
    ∃ p g c, d.publishWrite before off = { d with published := p, pages := g, comSeq := c } := by
  simp only [Dev.publishWrite]
  split
  · split
    · simp only [Dev.publishAt]
      split
      · exact ⟨_, d.pages, _, rfl⟩
      · exact ⟨_, _, d.comSeq, rfl⟩
    · exact ⟨_, _, _, rfl⟩
  · obtain ⟨p, hp⟩ := Dev.publishAll_eq (selectorGroup off) d
    rw [hp]
    exact ⟨p, _, d.comSeq, rfl⟩

/-- A write to an unlocked page renews its lock time and changes no more than that. -/
theorem Dev.touchPage_unlocked (d : Dev) (pg : Nat) (h : d.unlocked pg = true) :
    d.touchPage pg = d.setPage pg { d.page pg with lastWr := d.tick } := by
  simp [Dev.touchPage, h]

/-- A capture record leaves what decides whether a write reaches a page. -/
theorem Dev.powered_capWrite (d : Dev) (bar off : Nat) (v : Word) (pg : Nat) : (d.capWrite bar off v).powered pg = d.powered pg := by
  rw [Dev.capWrite_eq]; rfl

theorem Dev.unlocked_capWrite (d : Dev) (bar off : Nat) (v : Word) (pg : Nat) : (d.capWrite bar off v).unlocked pg = d.unlocked pg := by
  rw [Dev.capWrite_eq]; rfl

/-- A write to a register of an open page: the record of the write and the page header aside, its effect acts on the state before. -/
theorem regWrite_open (d : Dev) (off : Nat) (v : Word) (eff : Word → Dev → Dev) (r : RegDef) (ho : d.isOpen (off / 0x1000))
    (hr : regDef? off = some r) :
    ∃ cap pages pub pages' cs,
      regWrite d off v eff =
        { eff (mergeWrite r (d.reg (canonOff off)) v true) { d with cap := cap, pages := pages } with
          published := pub, pages := pages', comSeq := cs } := by
  obtain ⟨⟨hb, he, hp⟩, hu, hs⟩ := ho
  have hcap := Dev.capWrite_eq d 0 off v
  have hu' := Dev.unlocked_capWrite d 0 off v (off / 0x1000)
  have ht : (d.capWrite 0 off v).touchPage (off / 0x1000) =
      (d.capWrite 0 off v).setPage (off / 0x1000) { d.page (off / 0x1000) with lastWr := d.tick } := by
    rw [Dev.touchPage_unlocked _ _ (hu'.trans hu)]
    rw [hcap]; rfl
  have hb' : (d.capWrite 0 off v).barUp = true := by rw [hcap]; exact hb
  have hs' : (((d.capWrite 0 off v).touchPage (off / 0x1000)).page (off / 0x1000)).softRst = false := by
    rw [ht, Dev.page_setPage_self]; exact hs
  simp only [regWrite, pageWrite, pageAccess, hb, if_true, hb', he, Dev.powered_capWrite, hp, hu', hu, hs', hr, Bool.not_true, Bool.false_and,
    if_false, Bool.false_eq_true]
  generalize hg : (if v &&& w32 r.rsv != 0 then
    ((d.capWrite 0 off v).touchPage (off / 0x1000)).recordErr (off / 0x1000) 1 (off % 4096) 0
    else (d.capWrite 0 off v).touchPage (off / 0x1000)) = d1
  have h1 : ∃ pages, d1 = { d with cap := (d.capWrite 0 off v).cap, pages := pages } := by
    rw [← hg, ht]
    split
    · rw [Dev.recordErr_eq, hcap]; exact ⟨_, rfl⟩
    · rw [hcap]; exact ⟨_, rfl⟩
  obtain ⟨pages, h1⟩ := h1
  have h2 : d1.reg (canonOff off) = d.reg (canonOff off) := by rw [h1]; rfl
  obtain ⟨pub, pages', cs, h3⟩ := Dev.publishWrite_eq (eff (mergeWrite r (d1.reg (canonOff off)) v true) d1) d1 off
  refine ⟨(d.capWrite 0 off v).cap, pages, pub, pages', cs, ?_⟩
  rw [h3, h2, ← h1]

/-- A header write reaches its page: the record of the write and the page's lock aside, `body` acts on the state before. -/
theorem pageWrite_reaches (d : Dev) (off : Nat) (v : Word) (body : Bool → Dev → Dev) (hr : d.reaches (off / 0x1000))
    (hh : off % 0x1000 < 0x100) :
    pageWrite d off v body = body (d.unlocked (off / 0x1000)) ((d.capWrite 0 off v).touchPage (off / 0x1000)) := by
  obtain ⟨hb, he, hp⟩ := hr
  have hh' : decide (0x100 ≤ off % 0x1000) = false := by simp; omega
  have hb' : (d.capWrite 0 off v).barUp = true := by rw [Dev.capWrite_eq]; exact hb
  simp only [pageWrite, pageAccess, hb, if_true, hb', he, Dev.powered_capWrite, hp, Dev.unlocked_capWrite, hh', Bool.not_true, Bool.false_and,
    Bool.and_false, if_false, Bool.false_eq_true]

end Sys2Proof.Machine
end

