-- ==== Sys2Proof/WellFormed.lean ====
section
/-! DEFINITION. Which commands are well formed: every operand lies in the range that the spec's field or the machine's size gives
it.  A meaning is total all the same: it takes an operand modulo the width of its field. -/

namespace Sys2Proof

/-- The four heads (R58). -/
def okHead (n : Nat) : Bool := decide (n < 4)
/-- QID = slice × 16 + queue pair (R98). -/
def okQid (n : Nat) : Bool := decide (n < 16384)
def okSlice (n : Nat) : Bool := decide (n < 1024)
def okQp (n : Nat) : Bool := decide (n < 16)
/-- A command TAG (Table CQE-3). -/
def okTag (n : Nat) : Bool := decide (n < 32)
/-- An operation tag of a port (Table LNK-3). -/
def okOpTag (n : Nat) : Bool := decide (n < 4096)
def okPort (n : Nat) : Bool := decide (n < 512)
def okDie (n : Nat) : Bool := decide (n < 64)
/-- A block of a plane (R262). -/
def okBlock (n : Nat) : Bool := decide (n < 4096)
/-- A channel group, which is also the number of its data-plane domain. -/
def okGroup (n : Nat) : Bool := decide (n < 64)
/-- A band number: MAP_BANDS_FMT has 23 bits. -/
def okBand (n : Nat) : Bool := decide (n < 8388608)
/-- A scorepad bank (R462). -/
def okBank (n : Nat) : Bool := decide (n < 256)
/-- A 4 KiB register page of BAR0. -/
def okPage (n : Nat) : Bool := decide (n < 8192)
/-- An offset of BAR0 (32 MiB). -/
def okOffset (n : Nat) : Bool := decide (n < 33554432)
/-- A write of 1, 2, 4 or 8 bytes (R40). -/
def okSize (n : Nat) : Bool := n == 1 || n == 2 || n == 4 || n == 8
/-- The host's or the firmware's port of the flash array. -/
def okNvmPort (n : Nat) : Bool := decide (n < 2)

/-- The fields of a bridge command header (Table LNK-3). -/
def okBCmd (c : BCmd) : Bool :=
  decide (c.side < 2) && okOpTag c.seq && okOpTag c.tag && decide (c.trick < 65536) && okDie c.die && decide (c.planes < 16) &&
  okBlock c.block && decide (c.page < 4096)

/-- The fields of a bridge response header (Table LNK-4). -/
def okBRsp (r : BRsp) : Bool := decide (r.status < 256) && okOpTag r.tag && decide (r.onfi < 256)

/-- The fields of a Gulon header (Table TWN-1). -/
def okGMsg (m : GMsg) : Bool := decide (m.side < 2) && decide (m.keyep < 65536) && decide (m.inv < 2 ^ 31)

/-- The fields of a HELLO (Table TWN-2). -/
def okHello (h : Hello) : Bool := decide (h.fence < 65536) && decide (h.segs ≤ 32) && okBand h.bandsFmt

/-- A replay record's TYPE is a byte and its TICK and RNUM are 64-bit (Table SCP-4). -/
def okRecord (r : RpRecord) : Bool := decide (r.kind < 256) && decide (r.tick < 2 ^ 64) && decide (r.rnum < 2 ^ 64)

/-- A slice as MOVE carries it. -/
def okMSlice (x : MSlice) : Bool := okSlice x.slice && decide (x.pasid < 2 ^ 20) && decide (x.sgen < 16)

/-- The units that bring-up tests may report exist. -/
def okBringUp (r : BringUp) : Bool :=
  r.gulonLanes.all (fun l => decide (l < 18)) && r.flashPorts.all okPort && r.hbmStacks.all (fun k => decide (k < 4)) &&
  r.dealerPorts.all okPort && r.hardDecoders.all (fun x => okGroup x.1) && r.retFail.all (fun b => decide (b < 16)) &&
  decide (r.dies < 65)

/-- An offset lies in its space (Table REG-1). -/
def okSpace (sp : HostSpace) (off : Nat) : Bool :=
  match sp with
  | .bar0 => okOffset off
  | .bar2 => decide (off < 67108864)
  | .bar4 => decide (off < 65536)
  | .config => decide (off < 4096)

/-- A command is well formed. -/
def Instr.wellFormed (i : Instr) : Bool :=
  match i with
  | .registerWrite a => okHead a.head && okSpace a.space a.off && okSize a.size
  | .errClear page => okPage page
  | .ctlEn page _ => okPage page
  | .softRst page _ => okPage page
  | .softRstDone page => okPage page
  | .freeze page _ => okPage page
  | .isolate page _ => okPage page
  | .lockWrite page _ => okPage page
  | .lockTimeout page => okPage page
  | .intPendClear page _ => okPage page
  | .intEnWrite page _ => okPage page
  | .intVecWrite page _ => okPage page
  | .selectorWrite off _ => okOffset off
  | .snapshotPublish page => okPage page
  | .glbTimeRead => true
  | .warmReset _ res => okBringUp res
  | .coldReset _ res => okBringUp res
  | .resetNRecognised res => okBringUp res
  | .headDown head => okHead head
  | .headUp head rate width => okHead head && decide (rate < 16) && decide (width < 32)
  | .headWaitExpire slice => okSlice slice
  | .perstAN => true
  | .perstBN => true
  | .hostAccessFail qid tag => okQid qid && okTag tag
  | .hifDmaTmoExpire qid tag => okQid qid && okTag tag
  | .poisonedCompletion qid tag _ => okQid qid && okTag tag
  | .pwinLoad head _ _ => okHead head
  | .pwinStore head _ bytes => okHead head && decide (1 ≤ bytes.length)
  | .pwinWriteback _ => true
  | .pwinResize _ => true
  | .segEnable n _ => decide (n < 32)
  | .segDisable n _ => decide (n < 32)
  | .segDrained n => decide (n < 32)
  | .gpfPhase1 => true
  | .gpfPhase2 => true
  | .ideKmKeyProgram head stream _ _ => okHead head && decide (stream < 256)
  | .ideExhaust head stream => okHead head && decide (stream < 256)
  | .ideIntegrityFail head stream => okHead head && decide (stream < 256)
  | .ptmDialogue _ _ _ => true
  | .ptmTimeout => true
  | .mctpMessage _ => true
  | .identifyMemoryDevice => true
  | .getHealthInfo => true
  | .alertConfiguration _ => true
  | .getPoisonList => true
  | .getEventRecords => true
  | .clearEventRecords _ => true
  | .setShutdownState _ => true
  | .mailboxUnsupported _ => true
  | .sliceHeadWrite w _ => decide (w < 256)
  | .sqTailDbWrite slice qp _ => okSlice slice && okQp qp
  | .cqHeadDbWrite slice qp _ => okSlice slice && okQp qp
  | .sqeFetch qid _ => okQid qid
  | .ringFault qid _ => okQid qid
  | .hazardRelease qid tag => okQid qid && okTag tag
  | .read qid tag _ => okQid qid && okTag tag
  | .write qid tag _ _ => okQid qid && okTag tag
  | .flush qid tag => okQid qid && okTag tag
  | .discard qid tag => okQid qid && okTag tag
  | .verify qid tag => okQid qid && okTag tag
  | .writeZeroes qid tag => okQid qid && okTag tag
  | .sealRead qid tag _ => okQid qid && okTag tag
  | .createQp qid tag => okQid qid && okTag tag
  | .deleteQp qid tag => okQid qid && okTag tag
  | .mapPin qid tag => okQid qid && okTag tag
  | .mapUnpin qid tag => okQid qid && okTag tag
  | .mapSpace qid tag => okQid qid && okTag tag
  | .healthGet qid tag => okQid qid && okTag tag
  | .coalesceTimeout qid => okQid qid
  | .cqStallTimeout qid => okQid qid
  | .qReset slice qp _ => okSlice slice && okQp qp
  | .cqeQRst _ => true
  | .queueResetDrained qid => okQid qid
  | .cqeQCtlWrite off _ => okOffset off
  | .sliceBind _ => true
  | .sliceUnbind _ => true
  | .sliceReset _ => true
  | .sliceResetDone slice => okSlice slice
  | .sliceFreeze _ => true
  | .sliceFrozenReached slice => okSlice slice
  | .sliceThaw _ => true
  | .sliceSave _ _ => true
  | .sliceRestore _ _ _ => true
  | .sliceClear _ => true
  | .sliceClearDone slice => okSlice slice
  | .shareWrite _ => true
  | .blksHiWrite _ => true
  | .blksLoWrite _ => true
  | .blksShrinkApply slice => okSlice slice
  | .unitDispatch qid tag => okQid qid && okTag tag
  | .exportStart _ => true
  | .exportStop _ => true
  | .exportRecord _ => true
  | .exportConsWrite _ => true
  | .importWrapped _ => true
  | .importPlain _ => true
  | .exportWrapped _ => true
  | .saveState _ => true
  | .restoreState _ => true
  | .zeroise _ => true
  | .zeroiseSlice _ => true
  | .zeroiseDone ctx => decide (ctx < 4096)
  | .cryOpInvalid _ => true
  | .kekSet _ => true
  | .laneFail lane _ => decide (lane < 16)
  | .mapPageLoad slice _ _ => okSlice slice
  | .mapPageWriteback slice _ => okSlice slice
  | .mapCommit slice _ _ _ => okSlice slice
  | .destage slice _ _ => okSlice slice
  | .noSpaceTimeout qid tag => okQid qid && okTag tag
  | .gcVictimSelect => true
  | .slcFold => true
  | .relocCommit slice _ _ band _ pos half => okSlice slice && okBand band && decide (pos < 19) && decide (half < 2)
  | .bandErase band => okBand band
  | .trickBoundary => true
  | .planCut port _ => okPort port
  | .trickGroupBoundary => true
  | .agePromote port tag => okPort port && okOpTag tag
  | .susHoldExpire port die => okPort port && okDie die
  | .timeExchangeTimeout => true
  | .trickMark port side _ _ => okPort port && decide (side < 2)
  | .armConfirmCut port => okPort port
  | .markMiss port => okPort port
  | .flitReceive port flit => okPort port && decide (flit.length = 32)
  | .ack port seq => okPort port && decide (seq < 4096)
  | .nak port seq => okPort port && decide (seq < 4096)
  | .replayTimeout port => okPort port
  | .recoveryTimeout port => okPort port
  | .dieRead port c cwMask oslot _ => okPort port && okBCmd c && decide (cwMask < 16) && decide (oslot < 8)
  | .dieProgram port c buf => okPort port && okBCmd c && decide (buf < 32)
  | .dieErase port c => okPort port && okBCmd c
  | .dieSuspend port c => okPort port && okBCmd c
  | .dieResume port c => okPort port && okBCmd c
  | .dieStatus port c _ onfi _ => okPort port && okBCmd c && decide (onfi < 256)
  | .setOffsets port c oslot _ => okPort port && okBCmd c && decide (oslot < 8)
  | .ownTake port c fence _ => okPort port && okBCmd c && decide (fence < 65536)
  | .ownRelease port c => okPort port && okBCmd c
  | .bridgePower port c _ => okPort port && okBCmd c
  | .laneTest port c _ _ _ _ => okPort port && okBCmd c
  | .pdata port c buf _ => okPort port && okBCmd c && decide (buf < 32)
  | .rdata port r cwMask _ _ => okPort port && okBRsp r && decide (cwMask < 16)
  | .done port r _ _ _ => okPort port && okBRsp r
  | .status port die r _ _ _ _ _ _ => okPort port && okDie die && okBRsp r
  | .own port r holder fence => okPort port && okBRsp r && decide (holder < 3) && decide (fence < 65536)
  | .power port r _ => okPort port && okBRsp r
  | .test port r _ _ _ => okPort port && okBRsp r
  | .armCut port _ _ _ _ _ => okPort port
  | .refuse port r _ => okPort port && okBRsp r
  | .dieResponseTimeout port tag => okPort port && okOpTag tag
  | .portInitTimeout port => okPort port
  | .recommission port _ => okPort port
  | .retrain port _ => okPort port
  | .laneTestGo port _ => okPort port
  | .hardDecodeDone port tag cw _ _ _ _ _ _ _ _ decoder => okPort port && okOpTag tag && decide (cw < 16) && decide (decoder < 9)
  | .whiskDecodeDone port tag cw _ _ _ _ _ whisk => okPort port && okOpTag tag && decide (cw < 16) && decide (whisk < 104)
  | .earlyVerifyTimeout port die block page => okPort port && okDie die && okBlock block && decide (page < 3072)
  | .sieveVisit band pos => okBand band && decide (pos < 19)
  | .sieveWake group => okGroup group
  | .eccDayAdvance => true
  | .eccRlSelWrite _ => true
  | .dieQualify port die _ => okPort port && okDie die
  | .stripeWaitExpire band => okBand band
  | .reconstructSolve band _ column _ _ => okBand band && decide (column < 19)
  | .rebuildStripe => true
  | .copyback band pos die block _ => okBand band && decide (pos < 19) && okDie die && okBlock block
  | .bitmapClearFlush => true
  | .regionResync band _ => okBand band
  | .hbmStackFault stack _ => decide (stack < 4)
  | .creditGrant _ => true
  | .cacheAdmit => true
  | .ladleJob _ _ _ => true
  | .sramEccError _ _ _ _ => true
  | .hbmCorrected _ _ => true
  | .hbmUncorrectable _ _ => true
  | .hbmRowRepair _ _ => true
  | .hbmScrubRead _ _ _ => true
  | .sramScrubRead _ _ _ _ _ => true
  | .scrStarved => true
  | .gulonLaneFail lane _ => decide (lane < 18)
  | .hello m h => okGMsg m && okHello h
  | .helloAck m h => okGMsg m && okHello h
  | .rekey m _ => okGMsg m
  | .rekeyAck m => okGMsg m
  | .invLimit => true
  | .mirror m _ _ => okGMsg m
  | .journal m _ => okGMsg m
  | .free m _ => okGMsg m
  | .freeSend => true
  | .wstore m _ => okGMsg m
  | .grant m _ _ => okGMsg m
  | .remoteOp m port _ die block page slice _ _ _ => okGMsg m && okPort port && okDie die && okBlock block && decide (page < 3072) && okSlice slice
  | .remoteDone m _ _ _ => okGMsg m
  | .partial_ m _ band _ column _ => okGMsg m && okBand band && decide (column < 19)
  | .timeReq m _ _ => okGMsg m
  | .timeRsp m _ _ _ _ => okGMsg m
  | .heartbeat m _ _ => okGMsg m
  | .heartbeatSend => true
  | .leave m => okGMsg m
  | .sync m _ _ fence _ _ => okGMsg m && decide (fence < 65536)
  | .move m slice queues ctxs => okGMsg m && okMSlice slice && queues.all (fun q => decide (q.qid / 16 = slice.slice)) &&
    ctxs.all (fun c => decide (c.ctx / 4 = slice.slice))
  | .dumped m => okGMsg m
  | .twinLossDecision => true
  | .takeDelayExpire _ => true
  | .twinTakeover => true
  | .pairWaitExpire => true
  | .twinLeave _ => true
  | .twnSlMove _ => true
  | .pairkeySet _ => true
  | .sleepRequest _ => true
  | .deepRequest _ => true
  | .offRequest _ => true
  | .entryCancel _ => true
  | .quiesceDone => true
  | .flushDone => true
  | .entryCommit => true
  | .idleEntry => true
  | .wake _ _ res => okBringUp res
  | .pgMainRise => true
  | .powerGoodTimeout => true
  | .pgMainRetry => true
  | .domainDemandWake g _ => okGroup g
  | .domainOn g => okGroup g
  | .domainTRetExpire g => okGroup g
  | .domainTOffExpire g => okGroup g
  | .domainStepDone g => okGroup g
  | .domainWakeOp _ => true
  | .parkRet _ => true
  | .parkOff _ => true
  | .pwrDomPolWrite _ => true
  | .pwrFailRecognised => true
  | .dumpDone _ => true
  | .dumpExit res => okBringUp res
  | .vidAlert => true
  | .pgMainFall => true
  | .thermtrip => true
  | .aoCounterEdge => true
  | .vidFrame code => decide (code < 256)
  | .unlockCycle port _ _ => okNvmPort port
  | .nvmSeqTimeout port => okNvmPort port
  | .programPage port _ _ => okNvmPort port
  | .sectorErase port sector => okNvmPort port && decide (sector < 512)
  | .suspend port => okNvmPort port
  | .resume port => okNvmPort port
  | .idStatus port => okNvmPort port
  | .readStat port => okNvmPort port
  | .nvmReset port => okNvmPort port
  | .verifyMode port _ => okNvmPort port
  | .nvmProgramDone _ _ => true
  | .nvmEraseDone _ _ => true
  | .nvmAutoResume => true
  | .nvmFetchSuspend => true
  | .nvmFetchResume => true
  | .apertureRead _ _ => true
  | .tryBoot _ => true
  | .confirm _ => true
  | .windowClose bank => okBank bank
  | .bankPublish bank => okBank bank
  | .sbCfgWrite bank _ => okBank bank
  | .incidentJournal => true
  | .scpIncClr _ => true
  | .captureStart _ => true
  | .captureSegmentWrite => true
  | .captureCheckpoint => true
  | .capkeySet _ => true
  | .captureExportStart _ => true
  | .captureExportSegment _ => true
  | .scpXpConsWrite _ => true
  | .replayStart _ => true
  | .replayInject r => okRecord r
  | .replayPause => true
  | .go _ => true
  | .scpRpProdWrite _ => true
  | .pgAoRise _ _ _ res => okBringUp res
  | .tapInstruction _ _ => true
  | .tapTestLogicReset res => okBringUp res
  | .release => true
  | .openBandScan => true
  | .ready => true
  | .format _ _ => true
  | .laneActive port rtts => okPort port && decide (rtts.length = 16)
  | .gulonLinkUp => true
  | .gulonLinkDown => true
  | .firmwareCoreFail _ _ => true
  | .pgAoFall => true
  | .msixTableWrite head _ _ => okHead head
  | .i3cDynamicAddress _ => true

end Sys2Proof
end

