-- ==== Sys2Proof/Tests/Slice0.lean ====
section
/-! SUPPORT. Tests of the model.  First the checks of `Instr.wellFormed`: one ill-formed command for each, which it refuses.  Then, for
every statement of `Certificates/Slice0/Obligations.lean` that has hypotheses, named theorems that show a concrete state and operands
meeting the hypotheses of each of its clauses together, and beside them what the command leaves there.  Each is one step of a small
state; the values expected are read off the spec's rules and tables. -/

set_option Elab.async false

namespace Sys2Proof.Tests
open Sys2Proof Sys2Proof.Machine

/-- The outcome is a next state that has a property. -/
def nextWith (o : Host.Outcome State Fault Refusal) (p : State → Bool) : Bool :=
  match o with
  | .next t => p t
  | _ => false

/-- The outcome is this next state. -/
def isNext (o : Host.Outcome State Fault Refusal) (t : State) : Bool := nextWith o (fun x => x == t)

/-- Two outcomes are the same next state. -/
def sameNext (a b : Host.Outcome State Fault Refusal) : Bool := nextWith a (isNext b)

/-- Some output of a state fits. -/
def told (t : State) (p : Out → Bool) : Bool := t.dev.out.any p

/-- A command of one flit went to a bridge, whatever its tag: opcode and ARGS. -/
def toldBridge (t : State) (p opc args : Nat) : Bool :=
  told t (fun o => match o with
    | .bridge q c [0, _, 0, 0, 0, 0, 0, a] => q == p && c == opc && a == args
    | _ => false)

/-- A completion with a tag and a status left for a queue. -/
def posted (t : State) (qid tag status : Nat) : Bool :=
  told t (fun o => match o with
    | .completion q _ _ _ _ _ _ st _ _ w _ => q == qid && st == status && w % 32 == tag
    | _ => false)

/-- It carried this INFO. -/
def postedInfo (t : State) (qid info : Nat) : Bool :=
  told t (fun o => match o with
    | .completion q _ _ _ _ _ _ _ i _ _ _ => q == qid && i == info
    | _ => false)

/-- A page whose CTL is unlocked. -/
def openPage (d : Dev) (pg : Nat) : Dev := d.setPage pg { d.page pg with unlocked := true }

/-- A released device in RUN: all supplies up, head 0 up at full width, READY. -/
def devUp : Dev :=
  ((({ Dev.reset with aoUp := true, pgMain := true }.setFlag Reg.GLB_DEV_STS 0 true).setFlag Reg.TST_BRG_STS 5 true).setFlag
    (Reg.HIF_LINK_STS 0) 0 true).setFlag Reg.HIF_HEAD_CTL 0 true

/-- The device with some of its data changed. -/
def st (d : Dev) : State := { State.reset with dev := d }

/-- An outstanding command that has done nothing yet: a READ of block 0 with a tag, placed with the host at address 0x1000. -/
def cmdOf (tag : Nat) : Cmd :=
  { tag := tag, op := opRead, cls := 1, fua := false, sco := false, nblk := 1, apptag := 0, lba := 0, keyidx := 0, list := false,
    dp := [0x1000], raw := 0, keygen := 0, fetched := 0, dbTick := 0, units := 0, slots := 0, waitTick := 0, waiting := false,
    done := false, mnum := 0, charge := 0, chargeRed := 0, wakeUs := 0, single := false, rebuilt := false, heads := [],
    ioTick := 0, placed := false, wasHeld := false, looked := false, sgen := 0, qgen := 0, bad := [] }

/-! ### Well-formed commands: every check refuses a term just outside its range, and a command inside every range passes -/

/-- A bridge command header inside its ranges. -/
def cOk : BCmd :=
  { side := 1, seq := 4095, arm := false, lead := false, slc := false, tag := 4095, trick := 65535, die := 63, planes := 15, block := 4095,
    page := 3071, junk := false }

/-- A response header inside its ranges. -/
def rOk : BRsp := { status := 255, tag := 4095, onfi := 255, orphan := false }

/-- A Gulon header inside its ranges. -/
def mOk : GMsg := { mnum := 0, ack := 0, keyep := 65535, side := 1, inv := 0, tag := 0 }

/-- A HELLO inside its ranges. -/
def hOk : Hello :=
  { serial := 1, ver := 1, fwMajor := 1, seed := 0, bandsFmt := 8388607, segs := 32, fence := 65535, stop := 0, dumpSeq := 0, wkey := 0,
    wshelf := none }

/-- A moved slice inside its ranges. -/
def sOk : MSlice :=
  { slice := 1023, st := 2, pasid := 1048575, blks := 0, share := 0, tshare := 0, trumpEn := false, qpMax := 0, pin := 0, hdrm := 0, sgen := 15,
    hdrmUsed := 0 }

/-- A journal batch with no records. -/
def jEmpty : JBatch := JBatch.none

/-- Measurements of a die. -/
def qAny : DieQual :=
  { planes := 0, blocks := 0, qlcPages := 0, slcReadNs := 0, qlcReadNs := 0, suspendNs := 0, slcProgNs := 0, qlcProgNs := 0, eraseNs := 0,
    code := 0, pol := 0, disturb := 0, freshQlc := 0, freshSlc := 0, fresh := [], ratedQlc := 0, ratedSlc := 0 }

/-- A replay record inside its ranges. -/
def pOk : RpRecord := { kind := 255, src := 0, tick := 2 ^ 64 - 1, rnum := 2 ^ 64 - 1, words := [], tagOk := true, last := false }

/-- Bring-up tests inside their ranges. -/
def bOk : BringUp :=
  { clearFail := 0, pinFaults := [], hostLanes := 0, gulonLanes := [17], flashPorts := [511], hbmStacks := [3], hbmRepaired := [],
    hardDecoders := [(63, 8)], whisks := [], cryLanes := [], ladles := [], dealerPorts := [511], badArray := none, badMapCheck := none,
    imageUnc := [], imageSig := 3, journalFound := true, anchors := 0, retFail := [15], portsHeld := 0, dies := 64 }

/-- The checks pass every one of these commands. -/
def allOk (l : List Instr) : Bool := l.all Instr.wellFormed

/-- The checks refuse every one of these commands. -/
def allBad (l : List Instr) : Bool := l.all (fun i => !i.wellFormed)

theorem test_wellFormed_accepts : allOk [.registerWrite ⟨3, .bar0, false, 33554428, 8, 0⟩, .headUp 3 15 31, .sqTailDbWrite 1023 15 0, .verify 16383 31,
    .dieRead 511 cOk 15 7 false, .done 511 rOk 0 0 0, .hello mOk hOk, .move mOk sOk [] [], .replayInject pOk, .pgAoRise true true true bOk,
    .bandErase 8388607] = true := by decide +kernel

theorem test_wellFormed_registers : allBad [.registerWrite ⟨4, .bar0, false, 0, 4, 0⟩,
    .registerWrite ⟨0, .bar0, false, 33554432, 4, 0⟩, .registerWrite ⟨0, .bar0, true, 0, 3, 0⟩, .registerWrite ⟨0, .bar2, true, 67108864, 4, 0⟩,
    .registerWrite ⟨0, .bar4, true, 65536, 4, 0⟩, .registerWrite ⟨0, .config, true, 4096, 4, 0⟩, .errClear 8192,
    .ctlEn 8192 0, .softRst 8192 0, .softRstDone 8192, .freeze 8192 0, .isolate 8192 0, .lockWrite 8192 0, .lockTimeout 8192,
    .intPendClear 8192 0, .intEnWrite 8192 0, .intVecWrite 8192 0, .selectorWrite 33554432 0, .snapshotPublish 8192,
    .cqeQCtlWrite 33554432 0] = true := by decide +kernel

theorem test_wellFormed_host : allBad [.headDown 4, .headUp 4 0 0, .headUp 0 16 0, .headUp 0 0 32, .headWaitExpire 1024, .pwinLoad 4 0 1,
    .pwinStore 4 0 [0], .pwinStore 0 0 [], .segEnable 32 0, .segDisable 32 0, .segDrained 32, .ideKmKeyProgram 4 0 0 true,
    .ideKmKeyProgram 0 256 0 true, .ideExhaust 4 0, .ideExhaust 0 256, .ideIntegrityFail 4 0, .ideIntegrityFail 0 256,
    .sliceHeadWrite 256 0] = true := by decide +kernel

theorem test_wellFormed_queues : allBad [.hostAccessFail 16384 0, .hostAccessFail 0 32, .hifDmaTmoExpire 0 32, .poisonedCompletion 0 32 0,
    .sqTailDbWrite 1024 0 0, .cqHeadDbWrite 0 16 0, .sqeFetch 16384 0, .ringFault 16384 true, .hazardRelease 0 32, .read 0 32 [], .write 16384 0 [] [],
    .flush 0 32, .discard 0 32, .verify 16384 0, .writeZeroes 0 32, .sealRead 16384 0 [], .createQp 16384 0, .deleteQp 16384 0, .mapPin 16384 0, .mapUnpin 16384 0, .mapSpace 16384 0,
    .healthGet 16384 0, .coalesceTimeout 16384, .cqStallTimeout 16384, .qReset 0 16 0, .queueResetDrained 16384,
    .unitDispatch 0 32] = true := by decide +kernel

theorem test_wellFormed_slices : allBad [.sliceResetDone 1024, .sliceFrozenReached 1024, .sliceClearDone 1024, .blksShrinkApply 1024,
    .zeroiseDone 4096, .laneFail 16 false] = true := by decide +kernel

theorem test_wellFormed_map : allBad [.mapPageLoad 1024 0 .trump, .mapPageWriteback 1024 0, .mapCommit 1024 0 0 0,
    .destage 1024 0 0, .noSpaceTimeout 0 32, .relocCommit 0 0 0 8388608 0 0 0, .relocCommit 0 0 0 0 0 19 0, .relocCommit 0 0 0 0 0 0 2,
    .bandErase 8388608] = true := by decide +kernel

theorem test_wellFormed_ports : allBad [.planCut 512 false, .agePromote 0 4096, .susHoldExpire 0 64, .trickMark 0 2 0 0, .armConfirmCut 512,
    .markMiss 512, .flitReceive 0 [], .ack 0 4096, .nak 512 0, .replayTimeout 512, .recoveryTimeout 512, .dieResponseTimeout 0 4096,
    .portInitTimeout 512, .recommission 512 0, .retrain 512 0, .laneTestGo 512 0, .laneActive 512 [], .armCut 512 0 0 0 true 0] = true := by
  decide +kernel

theorem test_wellFormed_header : allBad ([{ cOk with side := 2 }, { cOk with seq := 4096 }, { cOk with tag := 4096 },
    { cOk with trick := 65536 }, { cOk with die := 64 }, { cOk with planes := 16 }, { cOk with block := 4096 },
    { cOk with page := 4096 }].map (fun c => Instr.dieErase 0 c)) = true := by decide +kernel

theorem test_wellFormed_bridge : allBad [.dieRead 0 cOk 16 0 false, .dieRead 0 cOk 0 8 false, .dieProgram 0 cOk 32, .dieErase 512 cOk,
    .dieSuspend 512 cOk, .dieResume 512 cOk, .dieStatus 512 cOk true 0 0, .setOffsets 0 cOk 8 [], .ownTake 0 cOk 65536 false,
    .ownRelease 512 cOk, .bridgePower 512 cOk 0, .laneTest 512 cOk 0 0 0 0, .pdata 0 cOk 32 0] = true := by decide +kernel

theorem test_wellFormed_responses : allBad [.done 0 { rOk with status := 256 } 0 0 0, .done 0 { rOk with tag := 4096 } 0 0 0,
    .done 0 { rOk with onfi := 256 } 0 0 0, .rdata 0 rOk 16 false 0, .own 0 rOk 3 0, .own 0 rOk 0 65536, .power 512 rOk 0, .test 512 rOk 0 0 0,
    .refuse 512 rOk 0, .status 0 64 rOk 0 0 0 0 0 none] = true := by decide +kernel

theorem test_wellFormed_integrity : allBad [.hardDecodeDone 0 0 16 true true true true true 0 0 0 0,
    .hardDecodeDone 0 0 0 true true true true true 0 0 0 9, .whiskDecodeDone 0 0 16 true true true true true 0,
    .whiskDecodeDone 0 0 0 true true true true true 104, .earlyVerifyTimeout 0 0 0 3072, .sieveVisit 8388608 0, .sieveVisit 0 19,
    .sieveWake 64, .dieQualify 0 64 qAny] = true := by decide +kernel

theorem test_wellFormed_layout : allBad [.stripeWaitExpire 8388608, .reconstructSolve 8388608 0 0 [] [true], .reconstructSolve 0 0 19 [] [true],
    .copyback 8388608 0 0 0 true, .copyback 0 19 0 0 true, .copyback 0 0 64 0 true, .copyback 0 0 0 4096 true, .regionResync 8388608 0,
    .hbmStackFault 4 0] = true := by decide +kernel

theorem test_wellFormed_twin : allBad [.gulonLaneFail 18 0, .hello { mOk with side := 2 } hOk, .hello { mOk with keyep := 65536 } hOk,
    .hello mOk { hOk with fence := 65536 }, .helloAck mOk { hOk with segs := 33 }, .helloAck mOk { hOk with bandsFmt := 8388608 },
    .remoteOp mOk 512 0 0 0 0 0 0 0 .trump, .remoteOp mOk 0 0 0 0 3072 0 0 0 .trump, .partial_ mOk true 8388608 0 0 [],
    .partial_ mOk true 0 0 19 [], .sync mOk [] jEmpty 65536 [] true, .move mOk { sOk with slice := 1024 } [] [], .move mOk { sOk with pasid := 1048576 } [] [],
    .move mOk { sOk with sgen := 16 } [] [],
    .msixTableWrite 4 0 0] = true := by decide +kernel

theorem test_wellFormed_power : allBad [.domainDemandWake 64 [], .domainOn 64, .domainTRetExpire 64, .domainTOffExpire 64,
    .domainStepDone 64, .vidFrame 256] = true := by decide +kernel

theorem test_wellFormed_nvm : allBad [.unlockCycle 2 0 0, .nvmSeqTimeout 2, .programPage 2 0 [], .sectorErase 2 0, .sectorErase 0 512,
    .suspend 2, .resume 2, .idStatus 2, .readStat 2, .nvmReset 2, .verifyMode 2 0] = true := by decide +kernel

theorem test_wellFormed_scorepad : allBad [.windowClose 256, .bankPublish 256, .sbCfgWrite 256 0, .replayInject { pOk with kind := 256 },
    .replayInject { pOk with tick := 2 ^ 64 }, .replayInject { pOk with rnum := 2 ^ 64 }] = true := by decide +kernel

theorem test_wellFormed_bringUp : allBad ([{ bOk with gulonLanes := [18] }, { bOk with flashPorts := [512] }, { bOk with hbmStacks := [4] },
    { bOk with dealerPorts := [512] }, { bOk with hardDecoders := [(64, 0)] }, { bOk with retFail := [16] },
    { bOk with dies := 65 }].map (fun r => Instr.tapTestLogicReset r)) = true := by decide +kernel

/-! ### Register pages (chapter 02) -/

/-- A page with errors and a pending interrupt. -/
def busyPage : Page :=
  { Page.reset with err := true, errCode := 3, overflow := 2, info0 := 5, info1 := 6, errTick := 7, intPend := 0x9,
                    intEn := 0x1, unlocked := true, chkCnt := 4 }

/-- Page 0xD00 with errors, unlocked. -/
def dErr : Dev := devUp.setPage 0xD00 busyPage

theorem test_StepRunsTheFront :
    sameNext (step { st devUp with pending := [.lockWrite 0 0x4C4D0001] }) (exec (.lockWrite 0 0x4C4D0001) (st devUp)) = true ∧
    isNext (step (st devUp)) { st devUp with dev := devUp.idleTick } = true ∧ devUp.idleTick.tick = 1 := by decide +kernel

theorem test_HeaderRowsWrite_errClear : (st dErr).running ∧ dErr.reaches 0xD00 ∧
    nextWith (exec (.errClear 0xD00) (st dErr)) (fun t => (t.dev.page 0xD00) =
      { busyPage with err := false, errCode := 0, overflow := 0, info0 := 0, info1 := 0, errTick := 0 }) = true := by decide +kernel

theorem test_HeaderRowsWrite_intEn : nextWith (exec (.intEnWrite 0xD00 0xFFFFFFFF) (st dErr)) (fun t =>
    (t.dev.page 0xD00).intEn = intMask 0xD00 ∧ (t.dev.page 0xD00).intPend = 0x9) = true := by decide +kernel

theorem test_HeaderRowsWrite_intPend : nextWith (exec (.intPendClear 0xD00 0x1) (st dErr)) (fun t =>
    (t.dev.page 0xD00).intPend = 0x8) = true := by decide +kernel

theorem test_HeaderRowsWrite_intVec : nextWith (exec (.intVecWrite 0xD00 0x3F) (st dErr)) (fun t =>
    (t.dev.page 0xD00).vecSet = some 0x1F) = true := by decide +kernel

theorem test_HeaderRowsWrite_lock : nextWith (exec (.lockWrite 0xD00 0x4C4D0001) (st devUp)) (fun t =>
    (t.dev.page 0xD00).unlocked) = true ∧
    nextWith (exec (.lockWrite 0xD00 0x4C4D0002) (st dErr)) (fun t => !(t.dev.page 0xD00).unlocked) = true := by decide +kernel

/-- Page 0xD00 unlocked, 2^20 ticks ago. -/
def dOld : Dev := { dErr with tick := 2 ^ 20 }

theorem test_HeaderRowsWrite_lockTimeout : (st dOld).running ∧ dOld.reaches 0xD00 ∧ dOld.unlocked 0xD00 = false ∧
    (dOld.page 0xD00).unlocked = true ∧
    nextWith (exec (.lockTimeout 0xD00) (st dOld)) (fun t => !(t.dev.page 0xD00).unlocked) = true := by decide +kernel

theorem test_ControlRowsWrite_en : (st dErr).running ∧ dErr.reaches 0xD00 ∧ dErr.unlocked 0xD00 = true ∧ pagePort 0xD00 = none ∧
    nextWith (exec (.ctlEn 0xD00 0) (st dErr)) (fun t => !(t.dev.page 0xD00).en) = true := by decide +kernel

theorem test_ControlRowsWrite_freeze : nextWith (exec (.freeze 0xD00 0x5) (st dErr)) (fun t =>
    (t.dev.page 0xD00).freeze ∧ (t.dev.page 0xD00).en) = true := by decide +kernel

/-- Page 0xD00 with EN = 0. -/
def dOff : Dev := devUp.setPage 0xD00 { busyPage with en := false }

theorem test_ControlRowsWrite_isolate : (st dOff).running ∧ dOff.reaches 0xD00 ∧ dOff.unlocked 0xD00 = true ∧
    (dOff.page 0xD00).en = false ∧ dOff.pageBusy 0xD00 = false ∧
    nextWith (exec (.isolate 0xD00 0x8) (st dOff)) (fun t => (t.dev.page 0xD00).isolate ∧ !(t.dev.page 0xD00).en) = true := by
  decide +kernel

theorem test_ControlRowsWrite_softRst : nextWith (exec (.softRst 0xD00 0x2) (st dOff)) (fun t => (t.dev.page 0xD00).softRst ∧
    (t.dev.page 0xD00).intPend = 0 ∧ (t.dev.page 0xD00).intEn = 0 ∧ !(t.dev.page 0xD00).unlocked ∧
    (t.dev.page 0xD00).chkCnt = 4 ∧ (t.dev.page 0xD00).errCode = 3) = true := by decide +kernel

theorem test_ControlRowsWrite_softRstDone :
    nextWith (exec (.softRstDone 0xD00) (st (devUp.setPage 0xD00 { busyPage with en := false, softRst := true }))) (fun t =>
      !(t.dev.page 0xD00).softRst) = true := by decide +kernel

/-- Page 0xD00 open, without errors. -/
def dOpen : Dev := openPage devUp 0xD00

theorem test_ControlWriteRefused_enabled : (st dOpen).running ∧ dOpen.reaches 0xD00 ∧
    (dOpen.page 0xD00).err = false ∧ dOpen.unlocked 0xD00 = true ∧ (dOpen.page 0xD00).en = true ∧
    sameNext (exec (.softRst 0xD00 0x2) (st dOpen)) (exec (.isolate 0xD00 0x2) (st dOpen)) = true ∧
    nextWith (exec (.isolate 0xD00 0xA) (st dOpen)) (fun t => (t.dev.page 0xD00).errCode = 3 ∧ (t.dev.page 0xD00).info0 = 0xA ∧
      !(t.dev.page 0xD00).isolate ∧ (t.dev.page 0xD00).en ∧ !(t.dev.page 0xD00).softRst) = true := by decide +kernel

/-- The header holds an error. -/
def dOpenErr : Dev := dOpen.recordErr 0xD00 0x0004 1 0

theorem test_ControlWriteRefused_again : (st dOpenErr).running ∧ dOpenErr.reaches 0xD00 ∧
    (dOpenErr.page 0xD00).err = true ∧ dOpenErr.unlocked 0xD00 = true ∧
    nextWith (exec (.isolate 0xD00 0x8) (st dOpenErr)) (fun t => (t.dev.page 0xD00).errCode = 4 ∧ (t.dev.page 0xD00).overflow = 1 ∧
      !(t.dev.page 0xD00).isolate) = true := by decide +kernel

theorem test_ControlWriteRefused_locked : (st devUp).running ∧ devUp.reaches 0xD00 ∧ devUp.unlocked 0xD00 = false ∧
    nextWith (exec (.ctlEn 0xD00 0) (st devUp)) (fun t => (t.dev.page 0xD00).errCode = 2 ∧ (t.dev.page 0xD00).info0 = 0x10 ∧
      (t.dev.page 0xD00).en) = true := by decide +kernel

/-- A published page whose registers have moved since. -/
def dPub : Dev := { (devUp.setReg 0x600140 9).setPage 0x600 { Page.reset with pubTick := some 0 } with tick := 8192 }

theorem test_PublishAndTimeRead_publish : (st dPub).running ∧ pageExists 0x600 = true ∧ dPub.powered 0x600 = true ∧
    (dPub.page 0x600).softRst = false ∧ dPub.pubDue 0x600 = true ∧
    nextWith (exec (.snapshotPublish 0x600) (st dPub)) (fun t =>
      (coveredOffs 0x600).all (fun o => t.dev.readReg o == dPub.liveReg o)) = true := by decide +kernel

/-- One tick before the spacing of four tricks has passed, nothing is published. -/
theorem test_PublishAndTimeRead_spacing : ({ dPub with tick := 8191 } : Dev).pubDue 0x600 = false ∧
    isNext (exec (.snapshotPublish 0x600) (st { dPub with tick := 8191 })) (st { dPub with tick := 8191 }) = true := by decide +kernel

/-- The common registers of the port pages, one moved since their last publication, and the page of port 1 in SOFT_RST. -/
def dPubCom : Dev := { (devUp.setReg Reg.FCH_REFCLK_LO 9).setPage 0x801 { Page.reset with softRst := true } with tick := 8192 }

theorem test_PublishAndTimeRead_common : pageExists 0x801 = true ∧ pagePort 0x801 = some 1 ∧ dPubCom.pubDue 0x801 = true ∧
    dPubCom.comDue = true ∧ nextWith (exec (.snapshotPublish 0x801) (st dPubCom)) (fun t =>
      commonOffs.all (fun o => t.dev.readReg o == dPubCom.liveReg o)) = true := by decide +kernel

/-- A clock past its low half. -/
def dTime : Dev := { devUp with tick := 0x500000007 }

theorem test_PublishAndTimeRead_time : (st dTime).running ∧ dTime.barUp = true ∧ (dTime.page 0).softRst = false ∧
    nextWith (exec .glbTimeRead (st dTime)) (fun t => t.dev.latHi = 5 ∧ t.dev.out = [.readData 7]) = true := by decide +kernel

/-- Every page that the register tests write, open. -/
def dRegs : Dev := [0x100, 0x200, 0x300, 0x400, 0x500, 0x600, 0xD00, 0xD01, 0xF57].foldl openPage devUp

theorem test_RegisterWrites_setting : (st dRegs).running ∧ dRegs.mgrOn 0 = true ∧ dRegs.isOpen 0x500 ∧
    (regDef? Reg.MAP_SSEL).isSome = true ∧ dRegs.settingOk Reg.MAP_SSEL 1023 = true ∧ Reg.MAP_SSEL % 4 = 0 ∧
    0x100 ≤ Reg.MAP_SSEL % 0x1000 ∧ Reg.MAP_SSEL < 0x2000000 ∧ inAperture Reg.MAP_SSEL = false ∧
    nextWith (exec (.registerWrite ⟨0, .bar0, false, Reg.MAP_SSEL, 4, 1023⟩) (st dRegs)) (fun t => t.dev.reg Reg.MAP_SSEL = 1023) = true := by
  decide +kernel

theorem test_RegisterWrites_ownCommand : bodyWrite Reg.MAP_SSEL = settingWrite Reg.MAP_SSEL := rfl

theorem test_RegisterWrites_read : dRegs.barUp = true ∧
    nextWith (exec (.registerWrite ⟨0, .bar0, true, Reg.MAP_SSEL, 4, 0⟩) (st dRegs)) (fun t => t.dev.regs == dRegs.regs) = true ∧
    nextWith (exec (.registerWrite ⟨0, .bar0, true, 0x500010, 4, 0⟩) (st dRegs)) (fun t => t.dev.out = [.readData 1]) = true := by
  decide +kernel

theorem test_RegisterWrites_doorbell : dRegs.headUp 0 = true ∧ dRegs.rpFence = false ∧
    sameNext (exec (.registerWrite ⟨0, .bar2, false, 0x10000 * 5 + 0x1000 * 3, 4, 7⟩) (st dRegs)) (exec (.sqTailDbWrite 5 3 7) (st dRegs)) =
      true ∧
    sameNext (exec (.registerWrite ⟨0, .bar2, false, 0x10000 * 5 + 0x1000 * 3 + 4, 4, 7⟩) (st dRegs)) (exec (.cqHeadDbWrite 5 3 7) (st dRegs)) =
      true := by decide +kernel

/-- Head 0 without MGR. -/
def dNoMgr : Dev := dRegs.setFlag Reg.HIF_HEAD_CTL 0 false

theorem test_RegisterWrites_unsupported : dNoMgr.barUp = true ∧ dNoMgr.headUp 0 = true ∧ dNoMgr.mgrOn 0 = false ∧
    nextWith (exec (.registerWrite ⟨0, .bar4, true, 0, 4, 0⟩) (st dNoMgr)) (fun t => t.dev.out = [.unsupportedRequest 0]) = true := by
  decide +kernel

theorem test_RegisterWrites_retry : ({ dRegs with resetRun := true } : Dev).headUp 0 = true ∧
    nextWith (exec (.registerWrite ⟨0, .config, true, 0, 4, 0⟩) (st { dRegs with resetRun := true })) (fun t => t.dev.out = [.configRetry 0]) =
      true := by decide +kernel

theorem test_RegisterWrites_selector : dRegs.isOpen 0x200 ∧
    nextWith (exec (.selectorWrite Reg.CQE_QSEL 5) (st dRegs)) (fun t => t.dev.reg Reg.CQE_QSEL = 5 ∧
      (selectorGroup Reg.CQE_QSEL).all (fun o => t.dev.readReg o == t.dev.liveReg o) ∧
      t.dev.readReg 0x200104 = 0x00200000) = true := by decide +kernel

theorem test_RegisterWrites_narrow : dRegs.isOpen (Reg.MAP_SSEL / 0x1000) ∧ inAperture Reg.MAP_SSEL = false ∧
    (dRegs.page (Reg.MAP_SSEL / 0x1000)).err = false ∧
    nextWith (exec (.registerWrite ⟨0, .bar0, false, Reg.MAP_SSEL, 2, 7⟩) (st dRegs)) (fun t =>
      (t.dev.page (Reg.MAP_SSEL / 0x1000)).errCode = 6 ∧ t.dev.reg Reg.MAP_SSEL = 0) = true := by decide +kernel

/-- A bring-up that finds no fault: image A runs, the journal is there, and every port carries 8 dies. -/
def resOk : BringUp :=
  { clearFail := 0, pinFaults := [], hostLanes := 0, gulonLanes := [], flashPorts := [], hbmStacks := [], hbmRepaired := [],
    hardDecoders := [], whisks := [], cryLanes := [], ladles := [], dealerPorts := [], badArray := none, badMapCheck := none,
    imageUnc := [], imageSig := 3, journalFound := true, anchors := 0, retFail := [], portsHeld := 0,
    dies := 8 }

/-- Page 0 open. -/
def dGlb : Dev := openPage devUp 0

/-- A command outstanding. -/
def dTag : Dev := dGlb.setQueue 16 { Queue.reset 16 with en := true, cmds := [cmdOf 3] }

theorem test_DeviceResetsStart_warm : (st dGlb).running ∧ dGlb.isOpen 0 ∧ dGlb.noTags = true ∧
    nextWith (exec (.warmReset 0x4C4D0001 resOk) (st dGlb)) (fun t => t.dev.fld Reg.GLB_RST_STS 31 16 = 1 ∧
      t.dev.fld Reg.GLB_RST_STS 3 0 = 1 ∧ t.dev.resetRun ∧ t.dev.phase = 1) = true := by decide +kernel

theorem test_DeviceResetsStart_refused : dTag.isOpen 0 ∧ dTag.noTags = false ∧
    nextWith (exec (.warmReset 0x4C4D0001 resOk) (st dTag)) (fun t => t.dev.fld Reg.GLB_RST_STS 31 16 = 0 ∧
      t.dev.flag Reg.GLB_RST_STS 4 ∧ !t.dev.resetRun) = true := by decide +kernel

theorem test_DeviceResetsStart_cold : dTag.dumping = false ∧ dTag.mode ≤ 2 ∧
    nextWith (exec (.coldReset 0x4C4D0002 resOk) (st dTag)) (fun t => t.dev.fld Reg.GLB_RST_STS 31 16 = 1 ∧
      t.dev.fld Reg.GLB_RST_STS 3 0 = 2 ∧ t.dev.dumping ∧ t.dev.bring = some resOk) = true := by decide +kernel

/-- The same after bring-up. -/
def dStage : Dev := dTag.setStage 9

theorem test_DeviceResetsStart_resetN : dStage.isOpen 0 ∧ dStage.dumping = false ∧ dStage.down = false ∧ 2 ≤ dStage.stage ∧
    dStage.restarts = false ∧ dStage.mode ≤ 2 ∧
    nextWith (exec (.resetNRecognised resOk) (st dStage)) (fun t => t.dev.fld Reg.GLB_RST_STS 31 16 = 1 ∧
      t.dev.fld Reg.GLB_RST_STS 3 0 = 2 ∧ t.dev.dumping ∧ t.dev.bring = some resOk) = true := by decide +kernel

/-! ### Host ports (chapter 03) -/

/-- Head 2 is down; lanes passed their test. -/
theorem test_HeadsMove_up : devUp.headExists 2 = true ∧ devUp.headUp 2 = false ∧ devUp.bifNow.testBit 1 = false ∧
    (∀ l < 32, devUp.flag Reg.TST_HOSTLANE l = false) ∧
    nextWith (exec (.headUp 2 2 16) (st devUp)) (fun t => t.dev.headUp 2 ∧ t.dev.fld (Reg.HIF_LINK_STS 2) 2 1 = 2 ∧
      t.dev.fld (Reg.HIF_LINK_STS 2) 7 3 = 16) = true := by decide +kernel

theorem test_HeadsMove_down : devUp.headUp 0 = true ∧
    nextWith (exec (.headDown 0) (st { devUp with tick := 9 })) (fun t => !t.dev.headUp 0 ∧ t.dev.headDown.find 0 = some 9 ∧
      bitAt (t.dev.page 0x100).intPend 0) = true := by decide +kernel

/-- Head 0 carries a live IDE stream. -/
def dIde : Dev := (devUp.setIde 0 ⟨5, true, false, false⟩).setFlag (Reg.HIF_LINK_STS 0) 8 true

theorem test_HeadsMove_perst : (st dIde).running ∧ (dIde.ideOf 0).live = true ∧
    nextWith (exec .perstAN (st dIde)) (fun t => !t.dev.headUp 0 ∧ t.dev.ideOf 0 = Ide.reset) = true ∧
    nextWith (exec .perstBN (st dIde)) (fun t => t.dev.headUp 0 ∧ t.dev.ideOf 0 = dIde.ideOf 0) = true := by decide +kernel

/-- No head is up, and a READ of slice 1 has waited HIF_HEAD_WAIT. -/
def dHeadless : Dev :=
  { ((devUp.setFlag (Reg.HIF_LINK_STS 0) 0 false).setFld Reg.HIF_HEAD_WAIT 15 0 1).setQueue 16
      { Queue.reset 16 with en := true, cmds := [cmdOf 3] } with tick := 1000000 }

theorem test_HeadsMove_wait : (st dHeadless).running ∧ dHeadless.sliceHead 1 = none ∧ 16 ∈ queuesOf 1 ∧
    (dHeadless.queue 16).live = [cmdOf 3] ∧ (cmdOf 3).movesData = true ∧
    max (dHeadless.headless 1) 0 + dHeadless.fld Reg.HIF_HEAD_WAIT 15 0 * 1000000 ≤ dHeadless.tick ∧
    nextWith (exec (.headWaitExpire 1) (st dHeadless)) (fun t => (⟨3, 0, 0x0601, 0, 0⟩ : CE) ∈ (t.dev.queue 16).held) = true := by
  decide +kernel

/-- A WRITE of slice 1 whose data moves. -/
def dMoving : Dev := devUp.setQueue 16 { Queue.reset 16 with en := true, cmds := [{ cmdOf 3 with op := opWrite, units := 1, passed := true }] }

theorem test_HostAccessesFail : (st dMoving).running ∧ (dMoving.moving 16 3).isSome = true ∧ dMoving.canPost 16 ∧
    dMoving.sliceHead 1 = some 0 ∧ (dMoving.page 0x100).err = false ∧
    nextWith (exec (.hostAccessFail 16 3) (st dMoving)) (fun t => posted t 16 3 0x0102 ∧ postedInfo t 16 0 ∧ (t.dev.page 0x100).errCode = 0x0100 ∧
      (t.dev.page 0x100).info0 = 1 ∧ (t.dev.page 0x100).info1 = 0) = true := by decide +kernel

/-- HIF_DMA_TMO resets to 50 ms. -/
theorem test_HostAccessesFail_timeout : nextWith (exec (.hifDmaTmoExpire 16 3) (st { dMoving with tick := 50000000 })) (fun t =>
    posted t 16 3 0x0102 ∧ (t.dev.page 0x100).errCode = 0x0100) = true ∧
    isNext (exec (.hifDmaTmoExpire 16 3) (st { dMoving with tick := 49999999 })) (st { dMoving with tick := 49999999 }) = true := by
  decide +kernel

theorem test_HostAccessesFail_poison : nextWith (exec (.poisonedCompletion 16 3 0) (st dMoving)) (fun t =>
    posted t 16 3 0x0201 ∧ postedInfo t 16 0) = true := by decide +kernel

/-- A window of one segment that backs slice 0 from block 0, enabled, with three bytes stored. -/
def sWin : State :=
  { State.reset with
    window := [(5, 1), (6, 2), (64, 3)],
    dev := (((devUp.setFld Reg.HIF_PWIN_CTL 5 0 1).setFlag Reg.HIF_PWIN_STS 0 true).setFlag (Reg.SEG_CTL 0) 0 true).setFlag
      (Reg.SEG_STS 0) 0 true }

theorem test_WindowAccess_load : sWin.running ∧ sWin.dev.memUp 0 = true ∧ sWin.dev.hifHeld = false ∧
    sWin.dev.inWindow 0 5 2 true = true ∧ (∀ l ∈ unitsOf 5 2 64, l ∉ sWin.dev.pwPoison) ∧
    nextWith (exec (.pwinLoad 0 5 2) sWin) (fun t => t.dev.out = [.readData 0x201]) = true := by decide +kernel

theorem test_WindowAccess_poison : (∃ l ∈ unitsOf 63 2 64, l ∈ [1]) ∧ sWin.dev.inWindow 0 63 2 true = true ∧
    nextWith (exec (.pwinLoad 0 63 2) { sWin with dev := { sWin.dev with pwPoison := [1] } }) (fun t => t.dev.out = [.poison]) = true := by
  decide +kernel

theorem test_WindowAccess_store : sWin.dev.storeOk 0 0x7FFF 2 = true ∧
    nextWith (exec (.pwinStore 0 0x7FFF [7, 8]) sWin) (fun t => t.window = sWin.window ++ [(0x7FFF, 7), (0x8000, 8)] ∧
      (t.dev.pwDirty.find 0).isSome ∧ (t.dev.pwDirty.find 1).isSome ∧ t.dev.out = [.cxlDone]) = true := by decide +kernel

theorem test_WindowAccess_refused : sWin.dev.storeOk 0 (2 ^ 28 - 1) 2 = false ∧
    nextWith (exec (.pwinStore 0 (2 ^ 28 - 1) [7, 8]) sWin) (fun t => t.window = sWin.window) = true := by decide +kernel

/-- The window with granule 8191 dirty, and slice 0's first key valid. -/
def sDirty : State :=
  { sWin with dev := { sWin.dev with
      pwDirty := [(8191, { first := 0, copying := false, again := none })]
      ctxs := [(0, { Ctx.reset with st := .valid, mode := 1 })] } }

theorem test_WindowSegments_writeback : sDirty.running ∧ (sDirty.dev.pwDirty.find 8191).isSome = true ∧
    sDirty.dev.segActive (8191 / 8192) = true ∧ sDirty.dev.health ≠ 3 ∧ sDirty.dev.hifStop = false ∧ sDirty.dev.mayTake 3 8 = true ∧ sDirty.dev.cryHeld = false ∧
    sDirty.dev.mapHeld = false ∧ sDirty.dev.dumping = false ∧ sDirty.dev.released = true ∧
    nextWith (exec (.pwinWriteback 8191) sDirty) (fun t => (t.dev.pwDirty.find 8191).map PwGran.copying = some true ∧
      t.dev.cache.map (fun v => (v.slice, v.granule, v.pwin, v.posted)) = [(0, 8191, true, false)]) = true := by decide +kernel

/-- The window's registers unlocked, slice 3 of 65,536 blocks. -/
def dSeg : Dev := (openPage devUp 0x101).setSlice 3 { Slice.reset with st := .active, blks := 65536 }

theorem test_WindowSegments_resize : dSeg.isOpen 0x101 ∧ (∀ n < 32, dSeg.segActive n = false) ∧ bits 32 5 0 ≠ dSeg.segs ∧
    nextWith (exec (.pwinResize 32) (st dSeg)) (fun t => t.dev.segs = 32 ∧ t.dev.slots = 0 ∧ t.dev.flag Reg.HIF_PWIN_STS 0) = true := by
  decide +kernel

theorem test_WindowSegments_enable : dSeg.segActive 31 = false ∧ dSeg.flag (Reg.SEG_CTL 31) 0 = false ∧
    dSeg.segLba 31 % 65536 = 0 ∧ bits 0x31 31 16 ≠ 0xFFFF ∧ dSeg.segLba 31 + 65536 ≤ (dSeg.slice (bits 0x31 13 4)).blks ∧
    nextWith (exec (.segEnable 31 0x31) (st dSeg)) (fun t => t.dev.flag (Reg.SEG_CTL 31) 0 ∧ t.dev.segActive 31 ∧
      t.dev.fld (Reg.SEG_CTL 31) 13 4 = 3) = true := by decide +kernel

/-- Segment 0 active with a dirty granule. -/
def sSeg : State := { sDirty with dev := openPage sDirty.dev 0x101 }

theorem test_WindowSegments_disable : sSeg.running ∧ sSeg.dev.isOpen 0x101 ∧ sSeg.dev.segActive 0 = true ∧
    bits 0 31 1 = bits (sSeg.dev.reg (Reg.SEG_CTL 0)) 31 1 ∧ sSeg.dev.segDirty 0 = true ∧
    nextWith (exec (.segDisable 0 0) sSeg) (fun t => !t.dev.flag (Reg.SEG_CTL 0) 0 ∧ t.dev.segActive 0) = true := by decide +kernel

/-- Segment 0 draining, clean. -/
def dDrain : Dev := sWin.dev.setFlag (Reg.SEG_CTL 0) 0 false

theorem test_WindowSegments_drained : (st dDrain).running ∧ dDrain.segActive 0 = true ∧ dDrain.flag (Reg.SEG_CTL 0) 0 = false ∧
    dDrain.segDirty 0 = false ∧
    nextWith (exec (.segDrained 0) (st dDrain)) (fun t => !t.dev.segActive 0 ∧
      t.dev.regs = (dDrain.setFlag (Reg.SEG_STS 0) 0 false).regs) = true := by decide +kernel

theorem test_LinkServices_phase1 : (st devUp).running ∧ devUp.barUp = true ∧
    nextWith (exec .gpfPhase1 (st { devUp with gTx := 4 })) (fun t => t.dev.reg Reg.HIF_GPF_STS = 1 ∧ t.dev.gpfMark = 4) = true := by
  decide +kernel

theorem test_LinkServices_phase2 : devUp.hifHeld = false ∧ devUp.paired = false ∧
    nextWith (exec .gpfPhase2 (st devUp)) (fun t => t.dev.reg Reg.HIF_GPF_STS &&& 0xFFFF0006 = 0x00010006) = true := by decide +kernel

/-- Paired, Phase 1 passed, and a store of before it awaits the twin. -/
def dGpf : Dev :=
  { (devUp.setTwin 3).setFlag Reg.HIF_GPF_STS 0 true with gTx := 4, gpfMark := 4, gPend := [⟨3, 0x14, 0, true, storeFs [(5, [1])], true⟩] }

theorem test_LinkServices_phase2_waits : (st dGpf).running ∧ dGpf.barUp = true ∧ dGpf.hifHeld = false ∧ dGpf.paired = true ∧
    dGpf.anyHead = true ∧ dGpf.gPend.all dGpf.gpfNeeds = true ∧
    nextWith (exec .gpfPhase2 (st dGpf)) (fun t => t.dev.gpfRun ∧ !t.dev.flag Reg.HIF_GPF_STS 1) = true := by decide +kernel

theorem test_LinkServices_key : devUp.headUp 0 = true ∧ 7 ∉ SMap.get (fun _ => []) devUp.ideUsed 1 ∧
    nextWith (exec (.ideKmKeyProgram 0 1 7 true) (st devUp)) (fun t => t.dev.ideOf 1 = ⟨7, true, false, false⟩ ∧
      t.dev.flag (Reg.HIF_LINK_STS 0) 9) = true := by decide +kernel

/-- A key that the stream has had before, PERST# or not, is not taken. -/
theorem test_LinkServices_key_again :
    isNext (exec (.ideKmKeyProgram 0 1 7 true) (st { devUp with ideUsed := [(1, [7])] })) (st { devUp with ideUsed := [(1, [7])] }) = true := by
  decide +kernel

theorem test_LinkServices_exhaust : (dIde.ideOf 0).live = true ∧
    nextWith (exec (.ideExhaust 0 0) (st dIde)) (fun t => t.dev.ideOf 0 = ⟨5, false, true, false⟩ ∧
      !t.dev.flag (Reg.HIF_LINK_STS 0) 8 ∧ bitAt (t.dev.page 0x100).intPend 3) = true := by decide +kernel

theorem test_LinkServices_integrity : (dIde.page 0x100).err = false ∧
    nextWith (exec (.ideIntegrityFail 0 0) (st dIde)) (fun t => (t.dev.ideOf 0).insecure ∧ !t.dev.headUp 0 ∧
      (t.dev.page 0x100).errCode = 0x0101) = true := by decide +kernel

/-- PTM runs at head 0, with 7 good residuals. -/
def dPtm : Dev := (devUp.setFlag Reg.HIF_PTM_CTL 0 true).setFld Reg.HIF_PTM_STS 7 4 7

theorem test_LinkServices_ptm : (st dPtm).running ∧ dPtm.flag Reg.HIF_PTM_CTL 0 = true ∧
    dPtm.headUp (dPtm.fld Reg.HIF_PTM_CTL 2 1) = true ∧
    nextWith (exec (.ptmDialogue 3 (-8) 40) (st { dPtm with ptmGood := 7 })) (fun t => t.dev.fld Reg.HIF_PTM_STS 7 4 = 8 ∧
      t.dev.flag Reg.HIF_PTM_STS 0 ∧ t.dev.reg Reg.HIF_PTM_OFS = 0xFFFFFFF8 ∧ t.dev.reg Reg.HIF_PTM_PDELAY = 40) = true ∧
    nextWith (exec (.ptmDialogue 3 9 40) (st { dPtm.setFlag Reg.HIF_PTM_STS 0 true with ptmBad := 2, ptmGood := 7 })) (fun t =>
      t.dev.fld Reg.HIF_PTM_STS 7 4 = 0 ∧ !t.dev.flag Reg.HIF_PTM_STS 0) = true := by decide +kernel

/-- Locked, 1 s without a dialogue. -/
def dPtmOld : Dev := { dPtm.setFlag Reg.HIF_PTM_STS 0 true with tick := 1000000000 }

theorem test_LinkServices_ptmTimeout : (st dPtmOld).running ∧ dPtmOld.flag Reg.HIF_PTM_STS 0 = true ∧
    dPtmOld.ptmLast + 1000000000 ≤ dPtmOld.tick ∧ (dPtmOld.page 0x100).err = false ∧
    nextWith (exec .ptmTimeout (st dPtmOld)) (fun t => t.dev.reg Reg.HIF_PTM_STS &&& 0xF1 = 0 ∧
      (t.dev.page 0x100).errCode = 0x0104) = true := by decide +kernel

theorem test_MailboxAndSideband : devUp.barUp = true ∧ devUp.hifHeld = false ∧
    nextWith (exec .identifyMemoryDevice sWin) (fun t => t.dev.out = [.mailbox 0 [1, 0, 1]]) = true ∧
    nextWith (exec (.clearEventRecords 1) (st { devUp with events := [⟨0, 1⟩, ⟨1, 2⟩] })) (fun t => t.dev.events = [⟨1, 2⟩]) = true ∧
    0x1234 ∉ [0x0100, 0x0101, 0x4000, 0x4200, 0x4201, 0x4202, 0x4204, 0x4300] ∧
    nextWith (exec (.mailboxUnsupported 0x1234) (st devUp)) (fun t => t.dev.out = [.mailbox 0x15 [0x1234]]) = true := by decide +kernel

/-- The sideband enabled. -/
def dSide : Dev := devUp.setFlag Reg.HIF_I3C_CTL 7 true

theorem test_MailboxAndSideband_mctp : (st dSide).running ∧ dSide.mode ≤ 2 ∧ dSide.flag Reg.HIF_I3C_CTL 7 = true ∧
    nextWith (exec (.mctpMessage 5) (st dSide)) (fun t => t.dev.out = [.mctp 5 []]) = true ∧
    nextWith (exec (.mctpMessage 0x7F) (st dSide)) (fun t => t.dev.out = [.mctp 0x7F (dSide.healthReport none)]) = true ∧
    nextWith (exec (.mctpMessage 9) (st dSide)) (fun t => t.dev.out = [] ∧ t.dev.fld Reg.HIF_I3C_STS 31 16 = 1) = true ∧
    nextWith (exec (.i3cDynamicAddress 127) (st dSide)) (fun t => t.dev.reg Reg.HIF_I3C_STS &&& 0xFF = 0xFF) = true := by decide +kernel

theorem test_MailboxAndSideband_msix : nextWith (exec (.msixTableWrite 0 0x7FFC 0) (st devUp)) (fun t =>
    SMap.get msixReset t.dev.msixTbl 0x1FFF = 0) = true := by decide +kernel

/-- Slice heads unlocked. -/
def dHeads : Dev := openPage devUp 0x102

theorem test_MailboxAndSideband_sliceHead : dHeads.isOpen 0x102 ∧ (0x12 : Word) &&& 0xE0E0E0E0 = 0 ∧
    (∀ i < 4, dHeads.headByteOk (bits 0x12 (8 * i + 7) (8 * i)) = true) ∧
    nextWith (exec (.sliceHeadWrite 255 0x12) (st dHeads)) (fun t => t.dev.reg (Reg.HIF_SLICE_HEAD 255) = 0x12) = true := by
  decide +kernel

/-! ### Command queues (chapter 04) -/

/-- Slice 1 active with 4,096 blocks and a valid key, its queue 1 enabled. -/
def dQ : Dev :=
  { (devUp.setSlice 1 { Slice.reset with st := .active, blks := 4096 }).setQueue 17 { Queue.reset 17 with en := true } with
    ctxs := [(4, { Ctx.reset with st := .valid, mode := 1 })] }

/-- The same with a queue's data. -/
def dQ' (q : Queue) : Dev := dQ.setQueue 17 { q with en := true }

theorem test_DoorbellsAndFetch_tail : (st dQ).running ∧ dQ.released = true ∧ dQ.resetRun = false ∧ dQ.mode ≤ 2 ∧ dQ.rpFence = false ∧
    (dQ.queue 17).en = true ∧ (dQ.queue 17).resetting = false ∧ (dQ.slice 1).st = .active ∧
    nextWith (exec (.sqTailDbWrite 1 1 32) (st dQ)) (fun t => (t.dev.queue 17).sqTail = 32) = true ∧
    nextWith (exec (.sqTailDbWrite 1 1 33) (st dQ)) (fun t => (t.dev.queue 17).sqTail = 0 ∧ (t.dev.queue 17).dbErr ∧
      (t.dev.page 0x200).errCode = 0x0100 ∧ (t.dev.page 0x200).info0 = 17 ∧ (t.dev.page 0x200).info1 = 33) = true := by decide +kernel

theorem test_DoorbellsAndFetch_head :
    nextWith (exec (.cqHeadDbWrite 1 1 2) (st (dQ' { Queue.reset 17 with cqPosted := 2 }))) (fun t =>
      (t.dev.queue 17).cqHead = 2) = true := by decide +kernel

theorem test_DoorbellsOutOfRange_tail : (dQ.page 0x200).err = false ∧
    nextWith (exec (.sqTailDbWrite 1 1 33) (st dQ)) (fun t => (t.dev.queue 17).dbErr ∧ (t.dev.queue 17).sqTail = 0 ∧
      (t.dev.page 0x200).err) = true ∧
    nextWith (exec (.sqTailDbWrite 1 1 33) (st (dQ.recordErr 0x200 0x0101 0 0))) (fun t => (t.dev.queue 17).dbErr ∧
      (t.dev.page 0x200).errCode = 0x0101 ∧ (t.dev.page 0x200).overflow = 1) = true := by decide +kernel

theorem test_DoorbellsOutOfRange_head :
    nextWith (exec (.cqHeadDbWrite 1 1 3) (st (dQ' { Queue.reset 17 with cqPosted := 2 }))) (fun t =>
      (t.dev.queue 17).cqHead = 0 ∧ (t.dev.queue 17).dbErr ∧ (t.dev.page 0x200).info1 = 3) = true := by decide +kernel

theorem test_DoorbellsOutOfRange_cleared :
    nextWith (exec (.queueResetDrained 17) (st (dQ' { Queue.reset 17 with resetting := true, dbErr := true }))) (fun t =>
      !(t.dev.queue 17).dbErr ∧ !(t.dev.queue 17).resetting) = true := by decide +kernel

/-- One entry to fetch. -/
def dFetch : Dev := dQ' { Queue.reset 17 with sqTail := 1, dbTicks := [(1, 0)] }

/-- READ of 2 blocks at 4,094 with tag 5. -/
def sqeRead : Nat := opRead + 2 ^ 8 + 5 * 2 ^ 16 + 2 * 2 ^ 32 + 4094 * 2 ^ 64 + 0x1000 * 2 ^ 128

theorem test_DoorbellsAndFetch_fetch : (st dFetch).running ∧ dFetch.mayFetch 17 = true ∧ (dFetch.slice 1).st = .active ∧
    dFetch.canPost 17 ∧ dFetch.fetchCheck 17 (parseSqe sqeRead 0 0) = none ∧
    nextWith (exec (.sqeFetch 17 sqeRead) (st dFetch)) (fun t => (t.dev.queue 17).sqHead = 1 ∧ t.dev.fetchNo = 1 ∧
      ((t.dev.queue 17).cmd? 5).map (fun c => (c.op, c.nblk, c.lba)) = some (opRead, 2, 4094)) = true := by decide +kernel

/-- The same one block further. -/
def sqeFar : Nat := opRead + 2 ^ 8 + 5 * 2 ^ 16 + 2 * 2 ^ 32 + 4095 * 2 ^ 64 + 0x1000 * 2 ^ 128

theorem test_DoorbellsAndFetch_range : dFetch.fetchCheck 17 (parseSqe sqeFar 0 0) = some (stLbaRange, 0) ∧
    nextWith (exec (.sqeFetch 17 sqeFar) (st dFetch)) (fun t => (t.dev.queue 17).cmd? 5 = none ∧
      posted t 17 5 stLbaRange) = true := by decide +kernel

theorem test_DoorbellsAndFetch_fault : (dQ.queue 17).en = true ∧ (dQ.page 0x200).err = false ∧
    nextWith (exec (.ringFault 17 true) (st dQ)) (fun t => (t.dev.queue 17).fault ∧ (t.dev.page 0x200).errCode = 0x0101 ∧
      bitAt (t.dev.page 0x200).intPend 1) = true := by decide +kernel

/-- A READ of block 0 outstanding with tag 3. -/
def dRd : Dev := { dQ' { Queue.reset 17 with cmds := [cmdOf 3] } with tick := 9 }

/-- It was held for a conflict, which has gone. -/
def dHeld : Dev := { dQ' { Queue.reset 17 with cmds := [{ cmdOf 3 with wasHeld := true }] } with tick := 9 }

theorem test_DoorbellsAndFetch_release : (st dHeld).running ∧ (dHeld.queue 17).cmd? 3 = some { cmdOf 3 with wasHeld := true } ∧
    (dHeld.queue 17).free { cmdOf 3 with wasHeld := true } = true ∧ (cmdOf 3).started = false ∧
    (dHeld.queue 17).inOrder { cmdOf 3 with wasHeld := true } = true ∧ dHeld.cutRuns 1 = false ∧ dHeld.dataHeld = false ∧
    dHeld.shareOpen 1 = true ∧
    nextWith (exec (.hazardRelease 17 3) (st dHeld)) (fun t =>
      (t.dev.queue 17).cmd? 3 = some { cmdOf 3 with wasHeld := true, units := 1, ioTick := 9, heads := [0] } ∧
      (t.dev.slice 1).inflight = 1) = true ∧
    isNext (exec (.hazardRelease 17 3) (st dRd)) (st dRd) = true := by decide +kernel

theorem test_DoorbellsAndFetch_dispatch : (dRd.queue 17).cmd? 3 = some (cmdOf 3) ∧ (dRd.queue 17).free (cmdOf 3) = true ∧
    (dRd.queue 17).inOrder (cmdOf 3) = true ∧ dRd.cutRuns 1 = false ∧
    dRd.shareOpen 1 = true ∧ dRd.vslHeld = false ∧ dRd.mapHeld = false ∧ dRd.hifHeld = false ∧
    nextWith (exec (.unitDispatch 17 3) (st dRd)) (fun t => ((t.dev.queue 17).cmd? 3).map (fun c => (c.units, c.heads)) = some (1, [0]) ∧
      (t.dev.slice 1).inflight = 1) = true := by decide +kernel

theorem test_ReadingRows_read : (st dRd).running ∧ dRd.canPost 17 ∧ (dRd.ready 17 3 opRead).isSome = true ∧
    dRd.runsNow 17 (cmdOf 3) ∧ dRd.paysNow 17 (cmdOf 3) ∧ (∀ lba ∈ lbasOf 0 1, dRd.fromFlash 1 lba = false) ∧
    (cmdOf 3).listBad [] = false ∧ (dRd.blockFail (cmdOf 3) 1 0 []) = none ∧ dRd.groupsOn 1 (lbasOf 0 1) = true ∧
    dRd.flashCame 17 (cmdOf 3) (dRd.wantFlash 1 0 1) ∧
    nextWith (exec (.read 17 3 []) (st dRd)) (fun t => posted t 17 3 0 ∧ told t (fun o => match o with
      | .hostData _ 0 0x1000 x => x == 0
      | _ => false)) = true := by decide +kernel

/-- A command outstanding that reads no data from the host. -/
def dCmd (op : Nat) : Dev := dQ' { Queue.reset 17 with cmds := [{ cmdOf 3 with op := op }] }

theorem test_ReadingRows_verify : ((dCmd opVerify).ready 17 3 opVerify).isSome = true ∧ (dCmd opVerify).runsNow 17 { cmdOf 3 with op := opVerify } ∧
    (dCmd opVerify).paysNow 17 { cmdOf 3 with op := opVerify } ∧
    nextWith (exec (.verify 17 3) (st (dCmd opVerify))) (fun t => posted t 17 3 0) = true := by decide +kernel

theorem test_ReadingRows_seal : ((dCmd opSealRead).ready 17 3 opSealRead).isSome = true ∧
    (dCmd opSealRead).runsNow 17 { cmdOf 3 with op := opSealRead } ∧
    nextWith (exec (.sealRead 17 3 []) (st (dCmd opSealRead))) (fun t => posted t 17 3 0 ∧ told t (fun o => match o with
      | .hostData _ 0 0x1000 x => x == packSeals [((dCmd opSealRead).servedBlk 1 0).sl.word]
      | _ => false)) = true := by decide +kernel

/-- A SEAL_READ whose list page holds a misaligned pointer. -/
def cmdSealList : Cmd := { cmdOf 3 with op := opSealRead, nblk := 257, list := true }

theorem test_ReadingRows_sealList : ((dQ' { Queue.reset 17 with cmds := [cmdSealList] }).ready 17 3 opSealRead).isSome = true ∧
    (dQ' { Queue.reset 17 with cmds := [cmdSealList] }).mayRun 17 cmdSealList = true ∧ cmdSealList.listBad [[0x2008]] = true ∧
    nextWith (exec (.sealRead 17 3 [[0x2008]]) (st (dQ' { Queue.reset 17 with cmds := [cmdSealList] }))) (fun t =>
      posted t 17 3 0x0102 ∧ postedInfo t 17 16) = true := by decide +kernel

/-- The key of the slice's block is gone: it was written under KEYGEN 1. -/
def dKeyLost : Dev :=
  { dRd with cache := [{ slice := 1, granule := 0, gver := 1, cls := 1, qid := 17, tag := 1, pwin := false, posted := true, postNo := 1,
                         stage := .single, mnum := 0, blks := [(0, { filledBlk 1 0 with sl := mkSeal 1 0 0 0 0, crec := { CRec.zero with keygen := 1 } })],
                         wrote := [0], src := [], loc := none }] }

theorem test_ReadingRows_fails : (dKeyLost.blockFail (cmdOf 3) 1 0 []).isSome = true ∧ dKeyLost.runsNow 17 (cmdOf 3) ∧
    (∀ lba ∈ lbasOf 0 1, dKeyLost.fromFlash 1 lba = false) ∧
    nextWith (exec (.read 17 3 []) (st dKeyLost)) (fun t => (dKeyLost.blockFail (cmdOf 3) 1 0 []).any (fun x => posted t 17 3 x.1)) = true := by
  decide +kernel

theorem test_ReadingRows_flush : ((dCmd opFlush).ready 17 3 opFlush).isSome = true ∧ (dCmd opFlush).cqeStop = false ∧
    (dCmd opFlush).cache = [] ∧
    nextWith (exec (.flush 17 3) (st (dCmd opFlush))) (fun t => posted t 17 3 0) = true := by decide +kernel

theorem test_ReadingRows_reports : ((dCmd opMapSpace).ready 17 3 opMapSpace).isSome = true ∧
    nextWith (exec (.mapSpace 17 3) (st (dCmd opMapSpace))) (fun t => posted t 17 3 0 ∧ told t (fun o => match o with
      | .hostReport _ 0 0x1000 w => w.length == 8
      | _ => false)) = true ∧
    nextWith (exec (.healthGet 17 3) (st (dCmd opHealthGet))) (fun t => posted t 17 3 0 ∧ told t (fun o => match o with
      | .hostReport _ 0 0x1000 w => decide (w ≠ [])
      | _ => false)) = true := by decide +kernel

/-- A write-type command of `n` blocks from block 8, with cache slots for its granule. -/
def cmdWr (op n : Nat) : Cmd := { cmdOf 3 with op := op, lba := 8, nblk := n, slots := if op = opDiscard then 0 else 8, fetched := 1 }

/-- It is outstanding, with space for it. -/
def dWr (c : Cmd) : Dev :=
  (((dQ' { Queue.reset 17 with cmds := [c] }).setFld Reg.STK_PWC_SLOTS 20 0 64).set64 Reg.MAP_LIMIT_LO Reg.MAP_LIMIT_HI 1000).setFld
    Reg.MAP_FQ 22 0 9

theorem test_WritingRows_write : (st (dWr (cmdWr opWrite 1))).running ∧ (dWr (cmdWr opWrite 1)).writesNow 17 (cmdWr opWrite 1) ∧
    (dWr (cmdWr opWrite 1)).paired = false ∧ (dWr (cmdWr opWrite 1)).waitsProgram (cmdWr opWrite 1) = false ∧
    ((dWr (cmdWr opWrite 1)).ready 17 3 opWrite).isSome = true ∧ (dWr (cmdWr opWrite 1)).cryCheck 1 (cmdWr opWrite 1) = none ∧
    (cmdWr opWrite 1).listBad [] = false ∧ (dWr (cmdWr opWrite 1)).mapPend = [] ∧
    nextWith (exec (.write 17 3 [] [0]) (st (dWr (cmdWr opWrite 1)))) (fun t => posted t 17 3 2 ∧
      (t.dev.cachedBlk 1 8).map (fun b => (b.sl.apptag, b.crec.keyidx)) = some (0, 0)) = true := by decide +kernel

/-- Its data has been taken, encrypted and sealed. -/
def cmdHost : Cmd := { cmdWr opWrite 1 with host := some [{ filledBlk 1 8 with sl := mkSeal 1 8 5 0 0 }], units := 1, passed := true }

theorem test_WritingRows_goesOn : (dWr cmdHost).writesNow 17 cmdHost ∧ ((dWr cmdHost).ready 17 3 opWrite).isSome = true ∧
    cacheFault 1 cmdHost = none ∧ (dWr cmdHost).waitsProgram cmdHost = false ∧
    nextWith (exec (.write 17 3 [] []) (st (dWr cmdHost))) (fun t => posted t 17 3 2 ∧
      t.dev.cachedBlk 1 8 = (cmdHost.host.getD []).head?) = true := by decide +kernel

theorem test_WritingRows_zeroes : (dWr (cmdWr opWriteZeroes 1)).writesNow 17 (cmdWr opWriteZeroes 1) ∧
    ((dWr (cmdWr opWriteZeroes 1)).ready 17 3 opWriteZeroes).isSome = true ∧
    nextWith (exec (.writeZeroes 17 3) (st (dWr (cmdWr opWriteZeroes 1)))) (fun t => posted t 17 3 2 ∧
      (t.dev.cachedBlk 1 8).map (fun b => (b.sl.apptag, b.filled)) = some (0, false)) = true := by decide +kernel

theorem test_WritingRows_discard : (dWr (cmdWr opDiscard 8)).writesNow 17 (cmdWr opDiscard 8) ∧
    (dWr (cmdWr opDiscard 8)).dlogRoom 1 = true ∧ (dWr (cmdWr opDiscard 8)).versOf 1 1 = [] ∧
    gverNewer ((dWr (cmdWr opDiscard 8)).nextGver 1 1) ((dWr (cmdWr opDiscard 8)).ent 1 1).gver = true ∧
    ((dWr (cmdWr opDiscard 8)).ready 17 3 opDiscard).isSome = true ∧
    nextWith (exec (.discard 17 3) (st (dWr (cmdWr opDiscard 8)))) (fun t => posted t 17 3 2 ∧
      t.dev.blkNow 1 15 = filledBlk 1 15) = true := by decide +kernel

/-- The key is gone. -/
def dNoKey : Dev := { dWr (cmdWr opWrite 1) with ctxs := [] }

theorem test_WritingRows_noKey : (dNoKey.cryCheck 1 (cmdWr opWrite 1)).isSome = true ∧ dNoKey.writesNow 17 (cmdWr opWrite 1) ∧
    nextWith (exec (.write 17 3 [] [0]) (st dNoKey)) (fun t => posted t 17 3 stKeyInvalid ∧ t.dev.cache = []) = true := by decide +kernel

/-- Segment 0 is enabled over the range. -/
def dInSeg : Dev :=
  ((dWr (cmdWr opWrite 1)).setFld Reg.HIF_PWIN_CTL 5 0 1).setReg (Reg.SEG_CTL 0) 0x11 |>.setFlag (Reg.SEG_STS 0) 0 true

theorem test_WritingRows_inSegment : (st dInSeg).running ∧ (dInSeg.ready 17 3 opWrite).isSome = true ∧
    dInSeg.runsNow 17 (cmdWr opWrite 1) ∧ dInSeg.paysNow 17 (cmdWr opWrite 1) ∧ dInSeg.admitted (cmdWr opWrite 1) = true ∧
    (∀ g ∈ granulesOf 8 1, dInSeg.mergeWant 1 (cmdWr opWrite 1) g = []) ∧ dInSeg.inSegment 1 8 1 = true ∧
    nextWith (exec (.write 17 3 [] [0]) (st dInSeg)) (fun t => posted t 17 3 0x0102) = true := by decide +kernel

/-- Slice 1's queue 0 holds an admin command about queue 2, with the bytes given. -/
def dAdm (op raw : Nat) : Dev :=
  dQ.setQueue 16 { Queue.reset 16 with en := true, cmds := [{ cmdOf 3 with op := op, raw := raw }] }

/-- CREATE_QP of queue 2: rings at 0x5000 and 0x6000, COAL_N 32. -/
def rawCreate : Nat := 2 * 2 ^ 32 + 0x5000 * 2 ^ 128 + 0x6000 * 2 ^ 192 + 32 * 2 ^ 256

theorem test_QueueRows_create : ((dAdm opCreateQp rawCreate).ready 16 3 opCreateQp).isSome = true ∧ (dAdm opCreateQp rawCreate).canPost 16 ∧
    ((dAdm opCreateQp rawCreate).queue 18).en = false ∧ leBytes rawCreate 4 1 % 16 = 2 ∧ leBytes rawCreate 32 1 % 64 ≤ 32 ∧
    nextWith (exec (.createQp 16 3) (st (dAdm opCreateQp rawCreate))) (fun t => posted t 16 3 0 ∧ (t.dev.queue 18).en ∧
      (t.dev.queue 18).sqb = 0x5000 ∧ (t.dev.queue 18).cqb = 0x6000 ∧ (t.dev.queue 18).coalN = 32) = true := by decide +kernel

theorem test_QueueRows_delete : ((dAdm opDeleteQp (1 * 2 ^ 32)).ready 16 3 opDeleteQp).isSome = true ∧
    ((dAdm opDeleteQp (1 * 2 ^ 32)).queue 17).cmds = [] ∧
    nextWith (exec (.deleteQp 16 3) (st (dAdm opDeleteQp (1 * 2 ^ 32)))) (fun t => posted t 16 3 0 ∧ !(t.dev.queue 17).en) = true := by
  decide +kernel

/-- A MAP_PIN or MAP_UNPIN of the slice's first map page, with room for it. -/
def dPin (op : Nat) : Dev :=
  (dQ' { Queue.reset 17 with cmds := [{ cmdOf 3 with op := op, raw := 2 ^ 128 }] }).setSlice 1
    { Slice.reset with st := .active, blks := 65536, pin := 4, pinned := if op = opMapPin then [] else [0] }

theorem test_QueueRows_pin : ((dPin opMapPin).ready 17 3 opMapPin).isSome = true ∧ (dPin opMapPin).mapHeld = false ∧
    (dPin opMapPin).pinRange 1 { cmdOf 3 with op := opMapPin, raw := 2 ^ 128 } true = .inr (0, 1) ∧
    ((dPin opMapPin).pinLoad 1 1 [0]).1 = true ∧
    nextWith (exec (.mapPin 17 3) (st (dPin opMapPin))) (fun t => posted t 17 3 0 ∧ (t.dev.slice 1).pinned = [0] ∧ t.dev.resident = [2 ^ 25]) = true ∧
    nextWith (exec (.mapUnpin 17 3) (st (dPin opMapUnpin))) (fun t => posted t 17 3 0 ∧ (t.dev.slice 1).pinned = []) = true := by
  decide +kernel

/-- Two entries not announced for COAL_US. -/
def dCoal : Dev :=
  { dQ' { Queue.reset 17 with ien := true, unann := 2, coalUs := 3, cqPosted := 2 } with
    tick := 3000, msixTbl := [(4 * 33 + 3, 0)], cfg := [(0, 0x87FF)] }

theorem test_QueueRows_coalesce : (st dCoal).running ∧ (dCoal.queue 17).unannTick + 3 * 1000 ≤ dCoal.tick ∧ dCoal.sliceHead 1 = some 0 ∧
    dCoal.vecOpen 0 (dCoal.queue 17).vector = true ∧
    nextWith (exec (.coalesceTimeout 17) (st dCoal)) (fun t => (t.dev.queue 17).unann = 0 ∧ t.dev.out = [.msix 0 33]) = true := by
  decide +kernel

/-- A ring full for 1,000,001 ns. -/
def dStall : Dev := { dQ' { Queue.reset 17 with cqPosted := 64 } with tick := 1000001 }

theorem test_QueueRows_stall : (st dStall).running ∧ (dStall.queue 17).stallTick = some 0 ∧ 0 + 1000000 < dStall.tick ∧
    nextWith (exec (.cqStallTimeout 17) (st dStall)) (fun t => bitAt (t.dev.page 0x200).intPend 2) = true := by decide +kernel

/-- A queue with an outstanding command and an entry not fetched. -/
def dCut : Dev := dQ' { Queue.reset 17 with sqTail := 5, sqHead := 4, cmds := [cmdOf 3] }

theorem test_QueueRows_reset : (st dCut).running ∧ (dCut.queue 17).en = true ∧ (dCut.queue 17).resetting = false ∧
    (dCut.slice 1).st = .active ∧
    nextWith (exec (.qReset 1 1 0x51530001) (st dCut)) (fun t => (t.dev.queue 17).resetting ∧ (t.dev.queue 17).qgen = 1 ∧
      (t.dev.queue 17).sqHead = 5 ∧ (t.dev.queue 17).live = [] ∧ (t.dev.queue 17).squash = [3]) = true := by decide +kernel

/-- The same through the registers. -/
def dCutReg : Dev := (openPage dCut 0x200).setFld Reg.CQE_QSEL 13 0 17

theorem test_QueueRows_resetReg : dCutReg.isOpen 0x200 ∧ dCutReg.fld Reg.CQE_QSEL 13 0 = 17 ∧
    nextWith (exec (.cqeQRst 0x51530001) (st dCutReg)) (fun t => (t.dev.queue 17).resetting ∧ (t.dev.queue 17).squash = [3]) = true := by
  decide +kernel

/-- A queue whose reset has drained, with two tags squashed. -/
def dDone : Dev := dQ' { Queue.reset 17 with resetting := true, squash := [3, 9], discarded := 4 }

theorem test_QueueRows_resetDone : (st dDone).running ∧ (dDone.queue 17).resetRoom = true ∧ (dDone.slice 1).cutWaits = false ∧ dDone.canPost 17 ∧
    nextWith (exec (.queueResetDrained 17) (st dDone)) (fun t => !(t.dev.queue 17).resetting ∧ (t.dev.queue 17).squash = [] ∧
      posted t 17 3 0x0501 ∧ posted t 17 9 0x0501 ∧ postedInfo t 17 4 ∧ told t (fun o => match o with
        | .completion 17 _ _ _ 2 _ _ 0 4 _ _ b => b == 0x208
        | _ => false)) = true := by decide +kernel

/-- Queue 18 selected, disabled. -/
def dSel : Dev := (openPage dQ 0x200).setFld Reg.CQE_QSEL 13 0 18

theorem test_QueueRows_settings : dSel.isOpen 0x200 ∧ dSel.fld Reg.CQE_QSEL 13 0 = 18 ∧ (dSel.queue 18).en = false ∧
    nextWith (exec (.cqeQCtlWrite 0x104 0x00200581) (st dSel)) (fun t => (t.dev.queue 18).en ∧ (t.dev.queue 18).coalN = 32 ∧
      (t.dev.queue 18).coalUs = 5 ∧ (t.dev.queue 18).vector = 32) = true ∧
    nextWith (exec (.cqeQCtlWrite 0x104 0x001F0001) (st dSel)) (fun t => !(t.dev.queue 18).en ∧
      (t.dev.page 0x200).errCode = 0x0102) = true ∧
    nextWith (exec (.cqeQCtlWrite 0x108 0x5FFF) (st dSel)) (fun t => (t.dev.queue 18).sqb = 0x5000) = true := by decide +kernel

/-! ### Slices (chapter 05) -/

/-- The slice registers unlocked, slice 2 selected, with the slice given. -/
def dSl (x : Slice) : Dev := ((openPage devUp 0x300).setFld Reg.VSL_SSEL 9 0 2).setSlice 2 x

/-- A slice ready to be bound. -/
def slNew : Slice := { Slice.reset with blks := 1, pasid := 7 }

/-- A frozen slice of `n` blocks. -/
def slIn (a : SliceSt) (n : Nat) : Slice := { Slice.reset with st := a, blks := n, pasid := 7 }

theorem test_SliceOperations_bind : (st (dSl slNew)).running ∧ (dSl slNew).isOpen 0x300 ∧ (dSl slNew).ssel = 2 ∧
    (∀ kv ∈ (dSl slNew).slices, kv.1 ≠ 2 → kv.2.bound = true → kv.2.pasid ≠ 7) ∧ (dSl slNew).twinSlices.find 2 = none ∧
    nextWith (exec (.sliceBind 0x43) (st (dSl slNew))) (fun t => t.dev.slice 2 =
      { slNew with st := .active, trumpEn := true, qpMax := 16 }) = true := by decide +kernel

theorem test_SliceOperations_unbind : (dSl (slIn .frozen 8)).isOpen 0x300 ∧ bits 0x40 6 2 = 16 ∧
    (∀ n < 32, (dSl (slIn .frozen 8)).segActive n = false) ∧
    (∀ q ∈ queuesOf 2, ((dSl (slIn .frozen 8)).queue q).en = false) ∧ (dSl (slIn .frozen 8)).exporting 2 = false ∧
    nextWith (exec (.sliceUnbind 0x40) (st (dSl (slIn .frozen 8)))) (fun t => t.dev.slice 2 =
      { slIn .frozen 8 with st := .unbound }) = true := by decide +kernel

theorem test_SliceOperations_reset : bits 0x56530001 31 16 = 0x5653 ∧ (dSl (slIn .active 8)).queueResetRuns 2 = false ∧
    nextWith (exec (.sliceReset 0x56530001) (st (dSl (slIn .active 8)))) (fun t => (t.dev.slice 2).st = .resetting ∧
      (t.dev.slice 2).opBusy ∧ !(t.dev.slice 2).cutWaits ∧ (t.dev.slice 2).sgen = 1) = true := by decide +kernel

/-- A reset of queue 0 runs. -/
def dSlQ : Dev := (dSl (slIn .active 8)).setQueue 32 { Queue.reset 32 with en := true, resetting := true }

theorem test_SliceOperations_resetWaits : (st dSlQ).running ∧ dSlQ.queueResetRuns 2 = true ∧
    nextWith (exec (.sliceReset 0x56530001) (st dSlQ)) (fun t => (t.dev.slice 2).st = .resetting ∧ (t.dev.slice 2).cutWaits ∧
      (t.dev.slice 2).sgen = 0) = true := by decide +kernel

/-- A command not begun. -/
def dSlC : Dev := (dSl (slIn .active 8)).setQueue 32 { Queue.reset 32 with en := true, cmds := [cmdOf 3] }

theorem test_SliceOperations_freeze : (st dSlC).running ∧ (dSlC.slice 2).opBusy = false ∧
    nextWith (exec (.sliceFreeze 0x56530012) (st dSlC)) (fun t => (t.dev.slice 2).st = .freezing ∧ (t.dev.slice 2).opBusy ∧
      (t.dev.queue 32).live = []) = true := by decide +kernel

theorem test_SliceOperations_thaw : nextWith (exec (.sliceThaw 0x56530003) (st (dSl (slIn .frozen 8)))) (fun t =>
    (t.dev.slice 2).st = .active ∧ !(t.dev.slice 2).opBusy) = true := by decide +kernel

theorem test_SliceOperations_save : (dSl (slIn .frozen 8)).mgrHead = some 0 ∧
    nextWith (exec (.sliceSave 0x56530004 true) (st (dSl (slIn .frozen 8)))) (fun t => (t.dev.slice 2).saveseq = 1 ∧
      told t (fun o => match o with
        | .blob 0 0 _ => true
        | _ => false)) = true ∧
    nextWith (exec (.sliceSave 0x56530004 false) (st (dSl (slIn .frozen 8)))) (fun t => (t.dev.slice 2).saveseq = 0 ∧
      (t.dev.slice 2).opErr ∧ (t.dev.page 0x300).errCode = 0x0102 ∧ (t.dev.page 0x300).info1 = 7) = true := by decide +kernel

theorem test_SliceOperations_restoreFails : ((dSl (slIn .unbound 0)).blobFault 2 0 true).isSome = true ∧
    nextWith (exec (.sliceRestore 0x56530005 0 true) (st (dSl (slIn .unbound 0)))) (fun t => (t.dev.slice 2).opErr ∧
      (t.dev.slice 2).st = .unbound ∧ (t.dev.page 0x300).errCode = 0x0102) = true := by decide +kernel

theorem test_SliceOperations_clear : (dSl (slIn .unbound 0)).exporting 2 = false ∧
    nextWith (exec (.sliceClear 0x56530006) (st { dSl (slIn .unbound 0) with ctxs := [(8, { Ctx.reset with st := .valid })] })) (fun t =>
      (t.dev.slice 2).st = .clearing ∧ (t.dev.slice 2).opBusy ∧ (t.dev.ctx 8).st = .zeroising) = true := by decide +kernel

/-- A reset whose stale units are gone: a tag is squashed. -/
def dRstDone : Dev := (dSl (slIn .resetting 8)).setQueue 32 { Queue.reset 32 with en := true, resetting := true, squash := [1] }

theorem test_SliceOperationsEnd_reset : (st dRstDone).running ∧ (dRstDone.slice 2).cutWaits = false ∧ dRstDone.sliceHead 2 ≠ none ∧
    nextWith (exec (.sliceResetDone 2) (st dRstDone)) (fun t => (t.dev.slice 2).st = .active ∧ !(t.dev.queue 32).resetting ∧
      (t.dev.queue 32).squash = []) = true := by decide +kernel

theorem test_SliceOperationsEnd_frozen : (dSl (slIn .freezing 8)).sliceCmds 2 = [] ∧
    (∀ q ∈ queuesOf 2, ((dSl (slIn .freezing 8)).queue q).held = [] ∧ ((dSl (slIn .freezing 8)).queue q).resetting = false) ∧
    nextWith (exec (.sliceFrozenReached 2) (st (dSl (slIn .freezing 8)))) (fun t => (t.dev.slice 2).st = .frozen ∧
      bitAt (t.dev.page 0x300).intPend 0) = true := by decide +kernel

/-- A slice being cleared with a granule mapped. -/
def dClr : Dev :=
  { dSl (slIn .clearing 8) with map := [(2 * 2 ^ 37 + 1, { gver := 1, loc := some ⟨false, 0, 0, 0, 0, 0, 0, 0, 0⟩ })] }

theorem test_SliceOperationsEnd_clear : (st dClr).running ∧ (dClr.slice 2).st = .clearing ∧
    (∀ k < 4, (dClr.ctx (4 * 2 + k)).st ≠ .zeroising) ∧ dClr.dlogRoom (dClr.mappedOf 2).length = true ∧ dClr.mapPend = [] ∧
    dClr.mapStop = false ∧
    nextWith (exec (.sliceClearDone 2) (st dClr)) (fun t => (t.dev.slice 2).st = .unbound ∧ !(t.dev.slice 2).opBusy ∧
      (t.dev.ent 2 1).loc = none) = true := by decide +kernel

theorem test_SliceSettingsAndExport_share :
    nextWith (exec (.shareWrite 0x00660400) (st (dSl (slIn .active 8)))) (fun t => (t.dev.slice 2).share = 1024 ∧
      (t.dev.slice 2).tshare = 102 ∧ (t.dev.slice 2).pendShare ∧ (t.dev.slice 2).shareAct = 1) = true := by decide +kernel

theorem test_SliceSettingsAndExport_blks :
    nextWith (exec (.blksHiWrite 1) (st (dSl (slIn .active 8)))) (fun t => (t.dev.slice 2).blksStage = some 1) = true ∧
    nextWith (exec (.blksLoWrite 2) (st (dSl { slIn .active 8 with blksStage := some 1 }))) (fun t =>
      (t.dev.slice 2).blks = 2 ^ 32 + 2 ∧ (t.dev.slice 2).blksStage = none) = true ∧
    (dSl (slIn .active 8)).highLba 2 = 0 ∧
    nextWith (exec (.blksLoWrite 7) (st (dSl (slIn .active 8)))) (fun t => (t.dev.slice 2).blks = 8 ∧
      (t.dev.slice 2).blksPend = some 7) = true := by decide +kernel

/-- A granule at block 8 is in use. -/
def dHigh : Dev :=
  { dSl (slIn .active 64) with map := [(2 * 2 ^ 37 + 1, { gver := 1, loc := some ⟨false, 0, 0, 0, 0, 0, 0, 0, 0⟩ })] }

theorem test_SliceSettingsAndExport_blksRefused : 8 < dHigh.highLba 2 ∧
    nextWith (exec (.blksLoWrite 8) (st dHigh)) (fun t => (t.dev.slice 2).blks = 64 ∧ (t.dev.slice 2).blksPend = none) = true := by
  decide +kernel

theorem test_SliceSettingsAndExport_shrink : (devUp.setSlice 2 { slIn .active 8 with blksPend := some 7 }).tick % 131072 = 0 ∧
    (∀ c ∈ (devUp.setSlice 2 { slIn .active 8 with blksPend := some 7 }).sliceCmds 2, writeType c.op = true → c.lba + c.nblk ≤ 7) ∧
    nextWith (exec (.blksShrinkApply 2) (st (devUp.setSlice 2 { slIn .active 8 with blksPend := some 7 }))) (fun t =>
      (t.dev.slice 2).blks = 7 ∧ (t.dev.slice 2).blksPend = none) = true := by decide +kernel

/-- A formed band's sets, the first `n` of them lost. -/
def setsLost (n : Nat) : List BSet :=
  (List.range 19).map (fun j => { port := j, die := 1, block := 2, repl := false, erased := decide (j < n), prog := 0, old := (j * 64 + 1) * 4096 + 2 })

/-- An export of slice 2's first 16 blocks to a ring of 2 slots. -/
def dExp : Dev :=
  ((openPage (dSl (slIn .active 16)) 0x301).set64 Reg.VSL_EXP_END_LO Reg.VSL_EXP_END_HI 16).setFld Reg.VSL_EXP_SLOTS 15 0 2

theorem test_SliceSettingsAndExport_start : (st dExp).running ∧ dExp.isOpen 0x301 ∧ dExp.flag Reg.VSL_EXP_STS 0 = false ∧
    (dExp.slice (bits 0x21 13 4)).bound = true ∧ dExp.fld Reg.VSL_EXP_RING_LO 19 0 = 0 ∧
    dExp.get64 Reg.VSL_EXP_START_LO Reg.VSL_EXP_START_HI < dExp.get64 Reg.VSL_EXP_END_LO Reg.VSL_EXP_END_HI ∧
    dExp.get64 Reg.VSL_EXP_END_LO Reg.VSL_EXP_END_HI ≤ (dExp.slice 2).blks ∧ 2 ≤ dExp.fld Reg.VSL_EXP_SLOTS 15 0 ∧
    nextWith (exec (.exportStart 0x21) (st dExp)) (fun t => t.dev.reg Reg.VSL_EXP_STS = 1 ∧ t.dev.exp = { seqNo := 0, cursor := 0, behind := [], looked := false }) = true := by
  decide +kernel

/-- It runs. -/
def dExpRun : Dev := (dExp.setReg Reg.VSL_EXP_STS 1).setReg Reg.VSL_EXP_CTL 0x21

theorem test_SliceSettingsAndExport_stop :
    nextWith (exec (.exportStop 0x20) (st dExpRun)) (fun t => !t.dev.flag Reg.VSL_EXP_STS 0 ∧ !t.dev.flag Reg.VSL_EXP_CTL 0) = true := by
  decide +kernel

/-- A written block of zeros. -/
def blkAt (s lba : Nat) : Blk := { filledBlk s lba with sl := mkSeal s lba 0 0 0 }

/-- One granule of the range is in the cache. -/
def dExpHas : Dev :=
  { dExpRun with cache := [{ slice := 2, granule := 1, gver := 1, cls := 1, qid := 33, tag := 0, pwin := false, posted := true, postNo := 1,
                             stage := .single, mnum := 0, blks := [(0, blkAt 2 8)], wrote := [0], src := [], loc := none }] }

theorem test_SliceSettingsAndExport_record : (st dExpHas).running ∧ dExpHas.vslStop = false ∧ dExpHas.headUp (dExpHas.fld Reg.VSL_EXP_CTL 3 2) = true ∧ dExpHas.mayTake 3 8 = true ∧
    dExpHas.shareOpen 2 = true ∧ dExpHas.entHere 2 1 = true ∧ (dExpHas.flashReads (2 ^ 64) 3 2 (dExpHas.wantFlash 2 8 8) [1]).1 = true ∧ dExpHas.mapHeld = false ∧
    dExpHas.stkHeld = false ∧ (dExpHas.exportRun 2 0 16) = (1, 1) ∧ dExpHas.groupsOn 2 (lbasOf 8 8) = true ∧
    nextWith (exec (.exportRecord true) (st dExpHas)) (fun t => t.dev.reg Reg.VSL_EXP_PROD = 1 ∧ t.dev.exp.cursor = 16 ∧
      t.dev.exp.seqNo = 1 ∧ told t (fun o => match o with
        | .exportRecord 0 0 0 [_, n] => n == 0x9000
        | _ => false)) = true := by decide +kernel

theorem test_SliceSettingsAndExport_ends : (dExpRun.exportRun 2 0 16).2 = 0 ∧
    nextWith (exec (.exportRecord true) (st dExpRun)) (fun t => !t.dev.flag Reg.VSL_EXP_STS 0 ∧ t.dev.flag Reg.VSL_EXP_STS 1 ∧
      t.dev.exp.cursor = 16) = true := by decide +kernel

/-- The granule is read, and has been written since the record began. -/
def dExpOn (stops : Bool) : Dev :=
  { dExpHas with exp := { dExpHas.exp with cur := some (1, 1, List.replicate 8 (filledBlk 2 8)), stops := stops, tick := 4 }, tick := 9 }

theorem test_SliceSettingsAndExport_goesOn : (dExpOn true).exp.cur.isSome = true ∧
    ((dExpOn true).flashReads (2 ^ 64) 3 2 ((dExpOn true).wantFlash 2 8 8) [1]).1 = true ∧
    nextWith (exec (.exportRecord true) (st (dExpOn false))) (fun t => t.dev.reg Reg.VSL_EXP_PROD = 1 ∧ t.dev.exp.cur = none) = true ∧
    nextWith (exec (.exportRecord true) (st (dExpOn true))) (fun t => t.dev.reg Reg.VSL_EXP_PROD = 1 ∧ !t.dev.flag Reg.VSL_EXP_STS 0) = true ∧
    nextWith (exec (.exportStop 0x20) (st (dExpOn false))) (fun t => t.dev.exp.stops ∧ t.dev.flag Reg.VSL_EXP_STS 0) = true := by decide +kernel

/-- Granule 1 of slice 2 as flash holds it. -/
def granTwo : Gran := { slice := 2, granule := 1, gver := 1, pad := false, blks := List.replicate 8 (filledBlk 2 8) }

/-- The granule stands on flash: its read is dealt, and the record is in progress. -/
def dExpFlash : Dev :=
  { dExpRun with map := [(2 * 2 ^ 37 + 1, { gver := 1, loc := some ⟨false, 0, 1, 2, 0, 0, 2, 0, 0⟩ })],
                 bands := [(2, { Band.reset with st := .closed, next := 8, sets := setsLost 0 })], resident := [2 * 2 ^ 25], tick := 9,
                 flash := [(flashKey 0 1 2 0, { FPage.reset with half0 := some granTwo })] }

theorem test_SliceSettingsAndExport_reads : (dExpFlash.exportRun 2 0 16) = (1, 1) ∧ dExpFlash.groupsOn 2 (lbasOf 8 8) = true ∧
    dExpFlash.shareOpen 2 = true ∧ (dExpFlash.takeCredit 3 8 exportUnit).1 = true ∧ dExpFlash.entHere 2 1 = true ∧
    (dExpFlash.flashReads (2 ^ 64) 3 2 (dExpFlash.wantFlash 2 8 8) [1]).1 = false ∧
    nextWith (exec (.exportRecord true) (st dExpFlash)) (fun t => t.dev.exp.cur.isSome ∧ t.dev.exp.tick = 9 ∧
      t.dev.reg Reg.VSL_EXP_PROD = 0) = true := by decide +kernel

/-- The ring is full. -/
def dExpFull : Dev := (dExpHas.setReg Reg.VSL_EXP_PROD 2)

theorem test_SliceSettingsAndExport_full : (st dExpFull).running ∧
    (dExpFull.fld Reg.VSL_EXP_PROD 31 0 + 2 ^ 32 - dExpFull.fld Reg.VSL_EXP_CONS 31 0) % 2 ^ 32 = 2 ∧
    nextWith (exec (.exportRecord true) (st dExpFull)) (fun t => t.dev.flag Reg.VSL_EXP_STS 2 ∧ t.dev.exp = dExpFull.exp) = true ∧
    nextWith (exec (.exportConsWrite 1) (st (dExpFull.setFlag Reg.VSL_EXP_STS 2 true))) (fun t => t.dev.reg Reg.VSL_EXP_CONS = 1 ∧
      !t.dev.flag Reg.VSL_EXP_STS 2) = true := by decide +kernel


/-- The header of a blob of slice 2, SAVESEQ 0, of the device with a serial number. -/
def blobHd (n : Nat) : Nat := 0x4C534C42 + 2 ^ 32 + 2 * 2 ^ 48 + n * 2 ^ 128

theorem blobHd_magic (n : Nat) : leBytes (blobHd n) 0 4 = 0x4C534C42 := by unfold leBytes blobHd; norm_num; omega
theorem blobHd_form (n : Nat) : leBytes (blobHd n) 4 2 = 1 := by unfold leBytes blobHd; norm_num; omega
theorem blobHd_slice (n : Nat) : leBytes (blobHd n) 6 2 = 2 := by unfold leBytes blobHd; norm_num; omega
theorem blobHd_seq (n : Nat) : leBytes (blobHd n) 8 8 = 0 := by unfold leBytes blobHd; norm_num; omega
theorem blobHd_serial (n : Nat) (h : n < 18446744073709551616) : leBytes (blobHd n) 0x10 8 = n := by
  unfold leBytes blobHd; norm_num; omega
theorem blobHd_lt (n : Nat) (h : n < 18446744073709551616) : blobHd n < 256 ^ 64 := by unfold blobHd; norm_num; omega

/-- This unit's header, and the ciphertext of a plaintext of zeros. -/
def blobCt : Nat := gcmText Config.blobKey (blobIv 2 0) 1968 0
def unitHd : Nat := blobHd (Config.serial % 2 ^ 64)

/-- The blob: header, ciphertext and tag. -/
def blobGood : Nat := joinBytes 64 unitHd (joinBytes 1968 blobCt (gcmTag Config.blobKey (blobIv 2 0) 64 unitHd 1968 blobCt))

theorem lt_bytes (x n : Nat) (h : x < 2 ^ (8 * n)) : x < 256 ^ n := (Nat.pow_mul 2 8 n) ▸ h
theorem join_ct (key iv n hd t : Nat) (h : hd < 256 ^ 64) :
    leBytes (joinBytes 64 hd (joinBytes n (gcmText key iv n 0) t)) 64 n = gcmText key iv n 0 :=
  leBytes_second _ _ _ 64 n h (lt_bytes _ _ (gcmText_lt _ _ _ _))
theorem join_tag (key iv n hd a c : Nat) (h : hd < 256 ^ 64) :
    leBytes (joinBytes 64 hd (joinBytes n (gcmText key iv n 0) (gcmTag key iv a hd n c))) (64 + n) 16 = gcmTag key iv a hd n c :=
  leBytes_third _ _ _ 64 n 16 h (lt_bytes _ _ (gcmText_lt _ _ _ _)) (lt_bytes _ 16 (gcmTag_lt _ _ _ _ _ _))

theorem unitHd_lt : unitHd < 256 ^ 64 := blobHd_lt _ (Nat.mod_lt _ (by norm_num))
theorem blobGood_head (k m : Nat) (h : k + m ≤ 64) : leBytes blobGood k m = leBytes unitHd k m := leBytes_join_inner _ _ 64 k m h
theorem blobGood_unit : leBytes blobGood 0 64 = unitHd := leBytes_join_low _ _ 64 unitHd_lt
theorem blobGood_ct : leBytes blobGood 0x40 1968 = blobCt := join_ct _ _ _ _ _ unitHd_lt
theorem blobGood_tag : leBytes blobGood 0x7F0 16 = gcmTag Config.blobKey (blobIv 2 0) 64 unitHd 1968 blobCt :=
  join_tag _ _ 1968 _ _ _ unitHd_lt
theorem blobGood_seq : leBytes blobGood 8 8 = 0 := (blobGood_head 8 8 (by decide)).trans (blobHd_seq _)
theorem blobGood_text : blobText 2 blobGood = 0 := by
  rw [blobText, blobGood_seq, blobGood_ct, blobCt, gcmText_gcmText _ _ _ _ (Nat.two_pow_pos _)]

theorem slNew_saveseq : ((dSl (slIn .unbound 0)).slice 2).saveseq = 0 := by decide +kernel

theorem test_SliceOperations_restore : (dSl (slIn .unbound 0)).blobFault 2 blobGood true = none := by
  have h := blobHd_serial (Config.serial % 2 ^ 64) (Nat.mod_lt _ (by norm_num))
  rw [Dev.blobFault, blobGood_text, blobGood_seq, blobGood_ct, blobGood_tag, blobGood_unit,
    blobGood_head 0 4 (by decide),
    blobGood_head 4 2 (by decide), blobGood_head 6 2 (by decide), blobGood_head 0x10 8 (by decide), unitHd, blobHd_magic, blobHd_form,
    blobHd_slice, h, slNew_saveseq]
  simp [blobKeys, leBytes]

/-! ### Cipher engine (chapter 06) -/

/-- The cipher registers unlocked, context 9 (slice 2, key 1) selected and given, everything the policy may allow allowed. -/
def dCry (x : Ctx) : Dev :=
  { ((openPage devUp 0x400).setFld Reg.CRY_CSEL 11 0 9).setFld Reg.CRY_POLICY 2 0 7 with
    ctxs := if x = Ctx.reset then [] else [(9, x)] }

/-- An AES-XTS context with two different halves of the key. -/
def ctxXts : Ctx := { Ctx.reset with st := .valid, mode := 1, exportable := true, keygen := 5, label := 3, key := 7 }

/-- Its record is in the buffer. -/
def dRec : Dev := (dCry Ctx.reset).setXbuf (ctxRecord 9 ctxXts) false

theorem test_CipherOperations_importPlain : (st dRec).running ∧ dRec.isOpen 0x400 ∧ dRec.flag Reg.CRY_OP_STS 0 = false ∧
    (dRec.ctx 9).st = .empty ∧ (dRec.ctx 9).keygen ≠ 0xFFFF ∧ recordFault 9 (dRec.xbuf % 2 ^ 960) = none ∧
    leBytes (dRec.xbuf % 2 ^ 960) 0 1 = 1 ∧
    nextWith (exec (.importPlain 0x43520002) (st dRec)) (fun t => (t.dev.ctx 9).st = .valid ∧ (t.dev.ctx 9).keygen = 1 ∧
      (t.dev.ctx 9).key = 7 ∧ (t.dev.ctx 9).mode = 1 ∧ !t.dev.flag Reg.CRY_OP_STS 1) = true := by decide +kernel

/-- FIPS 197, C.3. -/
theorem test_aes256 : aes256 (ofBytes (List.range 32)) (ofBytes ((List.range 16).map (fun i => 17 * i))) =
    ofBytes [0x8E, 0xA2, 0xB7, 0xCA, 0x51, 0x67, 0x45, 0xBF, 0xEA, 0xFC, 0x49, 0x90, 0x4B, 0x49, 0x60, 0x89] := by decide +kernel

/-- That record wrapped under the key-encryption key 1 is in the buffer. -/
def dWrap : Dev :=
  { (dCry Ctx.reset).setXbuf
      0x661982F24B44A04C330F7E05498B8048B74EA8A2E61227DE7717161B6BB52D76A38888BCF0A38F5733D6FA3E562A97211E13882AF66AE4D98390589EB4D76CDE3CFE36FB54FA316AA48CEE671F8EE42DF68BC5FBD79CB0CAA7044CC627F5E3F69E79F0D32A4E5575B4B704B21FDCC05CCDFB6D6A0FCBFD7CB63A9F20B77093C5 false with
    kek := some 1 }

theorem test_CipherOperations_importWrapped : dWrap.kek = some 1 ∧ (dWrap.ctx 9).st = .empty ∧
    nextWith (exec (.importWrapped 0x43520001) (st dWrap)) (fun t => (t.dev.ctx 9).st = .valid ∧ (t.dev.ctx 9).keygen = 1 ∧
      (t.dev.ctx 9).key = 7 ∧ !t.dev.flag Reg.CRY_OP_STS 1) = true := by decide +kernel

/-- The context with a key-encryption key set. -/
def dKek : Dev := { dCry ctxXts with kek := some 1 }

theorem test_CipherOperations_export : dKek.flag Reg.CRY_POLICY 1 = true ∧ (dKek.ctx 9).exportable = true ∧
    nextWith (exec (.exportWrapped 0x43520003) (st dKek)) (fun t => t.dev.xbufShown) = true := by decide +kernel

theorem test_CipherOperations_save : nextWith (exec (.saveState 0x43520004) (st (dCry ctxXts))) (fun t => t.dev.xbufShown ∧
    t.dev.reg (Reg.CRY_XBUF 0) = w32 (clearRecord 9 ctxXts) ∧ t.dev.ctxs = (dCry ctxXts).ctxs) = true := by decide +kernel

/-- The record of a context whose marks are further. -/
def dRestore : Dev := (dCry ctxXts).setXbuf (clearRecord 9 { ctxXts with mark0 := 2 ^ 31, mark1 := 2 ^ 20 }) false

theorem test_CipherOperations_restore : (st dRestore).running ∧ leBytes dRestore.xbuf 2 2 = 9 / 4 ∧ leBytes dRestore.xbuf 4 1 = 9 % 4 ∧
    leBytes dRestore.xbuf 6 2 = (dRestore.ctx 9).keygen ∧ leBytes dRestore.xbuf 8 8 = (dRestore.ctx 9).label := by decide +kernel

theorem test_CipherOperations_restored :
    nextWith (exec (.restoreState 0x43520005) (st dRestore)) (fun t => (t.dev.ctx 9).mark0 = 2 ^ 31 ∧
      (t.dev.ctx 9).mark1 = 2 ^ 20 ∧ (t.dev.ctx 9).invoc0 = 2 ^ 31 ∧ (t.dev.ctx 9).invoc1 = 2 ^ 20 ∧ (t.dev.ctx 9).key = 7) = true := by decide +kernel

theorem test_CipherOperations_zeroise : (dCry ctxXts).zeroing = [] ∧
    nextWith (exec (.zeroise 0x43520006) (st (dCry ctxXts))) (fun t => (t.dev.ctx 9).st = .zeroising ∧ (t.dev.ctx 9).key = 0 ∧
      t.dev.zeroing = [9] ∧ t.dev.flag Reg.CRY_OP_STS 0) = true ∧
    nextWith (exec (.zeroiseSlice 0x43520007) (st (dCry ctxXts))) (fun t => (t.dev.ctx 9).st = .zeroising ∧ (t.dev.ctx 9).key = 0 ∧
      t.dev.flag Reg.CRY_OP_STS 0) = true := by decide +kernel

theorem test_CipherOperations_unknown : ((dCry ctxXts).page 0x400).err = false ∧
    nextWith (exec (.cryOpInvalid 0x43520008) (st (dCry ctxXts))) (fun t => t.dev.flag Reg.CRY_OP_STS 1 ∧
      t.dev.ctxs = (dCry ctxXts).ctxs ∧ (t.dev.page 0x400).errCode = 0x0100) = true := by decide +kernel

/-- A zeroise whose copies are erased. -/
def dZero : Dev := { dCry { Ctx.reset with st := .zeroising, keygen := 5 } with zeroing := [9] }

theorem test_CipherKeysAndLanes_zeroised : (st dZero).running ∧ (dZero.ctx 9).st = .zeroising ∧
    nextWith (exec (.zeroiseDone 9) (st (dZero.setFlag Reg.CRY_OP_STS 0 true))) (fun t => t.dev.ctx 9 = { Ctx.reset with keygen := 5 } ∧
      !t.dev.flag Reg.CRY_OP_STS 0) = true := by decide +kernel

theorem test_CipherKeysAndLanes_kek : (st (dCry Ctx.reset)).running ∧ (dCry Ctx.reset).isOpen 0x400 := by decide +kernel

theorem test_CipherKeysAndLanes_lane : devUp.flag Reg.CRY_LANE_STS 15 = true ∧ (devUp.page 0x400).err = false ∧
    nextWith (exec (.laneFail 15 true) (st devUp)) (fun t => !t.dev.flag Reg.CRY_LANE_STS 15 ∧ (t.dev.page 0x400).errCode = 0x0105 ∧
      (t.dev.page 0x400).info0 = 15 ∧ bitAt (t.dev.page 0x400).intPend 3) = true := by decide +kernel

/-! ### Translation, space and collection (chapter 07) -/

/-- A waiting operation of the die 9, NORMAL class. -/
def opOf (opc : Nat) (src : OpSrc) (stage : OpStage) : POp :=
  { tag := 6, opc := opc, src := src, cls := 2, slice := 1, band := 2, stripe := 0, pos := 0, die := 9, block := 7, page := 4, slc := false,
    stage := stage, enq := 0, trick := 1, seq := 5, misses := 0, buf := 0, sus := 0, start := 0, data := false, got := [], sent := none,
    forTwin := none }

/-- A port with one operation. -/
def portOf (o : POp) : Port := { Port.reset with ops := [o] }

/-- An open metadata band whose sets lie in the channel groups from `g` on. -/
def metaBandAt (g : Nat) : Band :=
  { Band.reset with st := .openMeta, isMeta := true, slc := true, next := 1, sets := (List.range 19).map (fun j =>
      { port := 8 * (g + j), die := 9, block := 7, repl := false, erased := false, prog := 0, old := 0 }) }

/-- A lookup of class HIGH waits for page 3 of slice 1, which has a granule mapped and copies at the chunks given. -/
def dLoad (copies : List Nat) : Dev :=
  { devUp with
    mapWant := [(2 ^ 25 + 3, 1)], map := [(2 ^ 37 + 3 * 8192, { gver := 1, loc := some ⟨false, 0, 0, 0, 0, 0, 0, 0, 0⟩ })]
    bands := [(1, metaBandAt 0)], metaAt := if copies = [] then [] else [(2 ^ 25 + 3, copies)] }

theorem test_MapPages_lost : (st (dLoad [])).running ∧ (dLoad []).mapStop = false ∧ (dLoad []).mapRoom = true ∧
    2 ^ 25 + 3 ∉ (dLoad []).resident ∧ ((dLoad []).page 0x500).err = false ∧
    nextWith (exec (.mapPageLoad 1 3 .high) (st (dLoad []))) (fun t => t.dev.resident = [2 ^ 25 + 3] ∧
      t.dev.lost = [2 ^ 37 + 3 * 8192] ∧ (t.dev.page 0x500).errCode = 0x0103 ∧ bitAt (t.dev.page 0x500).intPend 4) = true := by
  decide +kernel

/-- One copy stands in band 1's stripe 0 at position 0: its read goes to port 0, and the load waits for it. -/
theorem test_MapPages_waits : (dLoad [chunkId 1 0 0]).copyLost (chunkId 1 0 0) = false ∧ (dLoad [chunkId 1 0 0]).mapRoom = true ∧
    ((dLoad [chunkId 1 0 0]).takeCredit 8 16 (metaUnit (2 ^ 25 + 3))).1 = true ∧
    (dLoad [chunkId 1 0 0]).cwReady (mapOwner (2 ^ 25 + 3)) 1 0 0 0 = false ∧
    nextWith (exec (.mapPageLoad 1 3 .high) (st (dLoad [chunkId 1 0 0]))) (fun t => t.dev.resident = [] ∧
      t.dev.mapWant = [(2 ^ 25 + 3, 1)] ∧ ((t.dev.port 0).ops.map (fun o => (o.opc, o.die, o.block, o.cls)))  = [(1, 9, 7, 1)]) = true := by
  decide +kernel

/-- The read has brought all its codewords. -/
def dCame : Dev :=
  (dLoad [chunkId 1 0 0]).setPort 0 (portOf { opOf 1 .host .running with
    owner := some (mapOwner (2 ^ 25 + 3)), band := 1, data := true,
    got := (List.range 16).map (fun c => { cw := c, ok := true, step := 0, e := 0, n01 := 0, n10 := 0 }) })

theorem test_MapPages_load : (st dCame).running ∧ dCame.copyLost (chunkId 1 0 0) = false ∧
    (∀ col < 16, dCame.cwReady (mapOwner (2 ^ 25 + 3)) 1 0 0 col = true) ∧
    nextWith (exec (.mapPageLoad 1 3 .high) (st dCame)) (fun t => t.dev.resident = [2 ^ 25 + 3] ∧ t.dev.lost = [] ∧
      t.dev.mapWant = []) = true := by decide +kernel

/-- A dirty page, due, with one record in the log, and two metadata bands for its copies. -/
def dDirtyMap : Dev :=
  { devUp.setFld Reg.MAP_DLOG_CTL 11 0 0 with
    resident := [2 ^ 25 + 3], dirty := [2 ^ 25 + 3], dlog := 1, dlogRing := [(1, 3 * 8192, 0, false)],
    bands := [(1, metaBandAt 0), (2, metaBandAt 19)], fills := [⟨1, 0, 3, 0, 0, false⟩, ⟨2, 0, 3, 0, 0, false⟩] }

theorem test_MapPages_writeback : (st dDirtyMap).running ∧ dDirtyMap.nextBack = some (2 ^ 25 + 3) ∧ dDirtyMap.writesBack = true ∧
    dDirtyMap.metaBands = some (1, 2) ∧ (dDirtyMap.takeCredit 8 16 (metaUnit (2 ^ 25 + 3))).1 = true ∧
    nextWith (exec (.mapPageWriteback 1 3) (st dDirtyMap)) (fun t => t.dev.dirty = [] ∧ t.dev.dlog = 1 ∧
      t.dev.metaBack.map (fun m => (m.page, m.recs, m.chunks.map (fun c => c / 32 / 4096))) = [(2 ^ 25 + 3, 1, [1, 2])]) = true := by
  decide +kernel

/-- A version of granule 1 of slice 1. -/
def verAt (s : Stage) (l : Option Loc) (b : Blk) : Ver :=
  { slice := 1, granule := 1, gver := 5, cls := 1, qid := 17, tag := 3, pwin := false, posted := true, postNo := 1, stage := s,
    mnum := 0, blks := (List.range 8).map (fun k => (k, b)), wrote := List.range 8, src := [], loc := l }

/-- The first place of band 2. -/
def loc2 : Loc := ⟨false, 0, 0, 2, 0, 0, 2, 0, 0⟩

/-- It is programmed. -/
def dCommit : Dev := { dQ with cache := [verAt .programmed (some loc2) (filledBlk 1 8)] }

theorem test_CacheAndWaitingWrites_commit : (st dCommit).running ∧ dCommit.dumping = false ∧ dCommit.mapStop = false ∧ dCommit.dlogFull = false ∧
    dCommit.pageHere (pageKey 1 1) = true ∧ dCommit.paired = false ∧
    gverNewer 5 (dCommit.ent 1 1).gver = true ∧
    nextWith (exec (.mapCommit 1 1 5 0) (st dCommit)) (fun t => t.dev.ent 1 1 = ⟨5, some loc2⟩ ∧ t.dev.cache = []) = true := by
  decide +kernel

/-- The same while PAIRED. -/
def dCommit2 : Dev := dCommit.setFld Reg.TWN_STS 3 0 3

theorem test_CacheAndWaitingWrites_commitPaired : dCommit2.paired = true ∧ dCommit2.dlogFull = false ∧ dCommit2.pageHere (pageKey 1 1) = true ∧
    nextWith (exec (.mapCommit 1 1 5 0) (st dCommit2)) (fun t => t.dev.map = dCommit2.map ∧ t.dev.cache = dCommit2.cache ∧
      t.dev.mapPend.map (fun y => (y.slice, y.granule, y.gver, y.loc)) = [(1, 1, 5, some loc2)]) = true := by decide +kernel

/-- The entry is newer already. -/
def dStale : Dev := { dCommit with map := [(2 ^ 37 + 1, ⟨6, none⟩)] }

theorem test_CacheAndWaitingWrites_stale : (st dStale).running ∧ gverNewer 5 (dStale.ent 1 1).gver = false ∧
    nextWith (exec (.mapCommit 1 1 5 0) (st dStale)) (fun t => t.dev.map = dStale.map ∧ t.dev.cache = []) = true := by decide +kernel

/-- A filled version waits. -/
def dFilled : Dev := { dQ with cache := [verAt .single none (filledBlk 1 8)] }

theorem test_CacheAndWaitingWrites_filled : (st dFilled).running ∧ dFilled.mayDestage = true ∧ dFilled.shfStop = false ∧ dFilled.stkStop = false ∧
    (dFilled.mergedBlks (verAt .single none (filledBlk 1 8))).all (·.filled) = true ∧
    nextWith (exec (.destage 1 1 5) (st dFilled)) (fun t => (t.dev.ent 1 1).loc = none ∧ t.dev.cache = []) = true := by decide +kernel

/-- A block written. -/
def blkWr : Blk := { filledBlk 1 8 with sl := { (filledBlk 1 8).sl with flags := 0 } }

/-- One waits with data, and band 2 is open with stripe 4 filling. -/
def dPlace : Dev :=
  { (dQ.setFld Reg.MAP_BANDS_FMT 22 0 8).setFld Reg.MAP_FQ 22 0 8 with
    cache := [verAt .single none blkWr], bands := [(2, { Band.reset with st := .openQlc, next := 4 })],
    fills := [⟨2, 4, 3, 1, 0, false⟩] }

theorem test_CacheAndWaitingWrites_place : (st dPlace).running ∧ dPlace.mayDestage = true ∧
    (dPlace.mergedBlks (verAt .single none blkWr)).all (·.filled) = false ∧ dPlace.stewards 2 = true ∧
    (dPlace.takeCredit 6 304 (2 ^ 19 + 2 * 4096 + 4)).1 = true ∧
    nextWith (exec (.destage 1 1 5) (st dPlace)) (fun t => t.dev.cache.map (fun v => v.loc.map (fun l => (l.band, l.stripe, l.pos, l.half))) =
      [some (2, 4, posOfRole 1 4, 1)]) = true := by decide +kernel

/-- A WRITE that waits for slots. -/
def dWaitWr : Dev := (dWr { cmdWr opWrite 1 with slots := 0, waiting := true }).setFld Reg.STK_PWC_SLOTS 20 0 1966080

theorem test_CacheAndWaitingWrites_admit : (st dWaitWr).running ∧
    dWaitWr.nextWaiting = some (17, { cmdWr opWrite 1 with slots := 0, waiting := true }) ∧ dWaitWr.stkHeld = false ∧
    dWaitWr.dumping = false ∧ dWaitWr.dumpSetUp = true ∧ (dWaitWr.admitSlots 1 8).isSome = true ∧
    nextWith (exec .cacheAdmit (st dWaitWr)) (fun t => ((t.dev.queue 17).cmd? 3) = some { cmdWr opWrite 1 with slots := 8 }) = true := by
  decide +kernel

/-- No band is free, past the deadline. -/
def dNoSpace : Dev := { (dWr (cmdWr opWrite 1)).setFld Reg.MAP_FQ 22 0 0 with tick := 1014000 }

theorem test_CacheAndWaitingWrites_noSpace : (st dNoSpace).running ∧ 0 < dNoSpace.newGranules 1 (cmdWr opWrite 1) ∧
    dNoSpace.fQ ≤ dNoSpace.wHard ∧ 0 + dNoSpace.ackFigure 1 + 1000000 ≤ dNoSpace.tick ∧ dNoSpace.canPost 17 ∧
    nextWith (exec (.noSpaceTimeout 17 3) (st dNoSpace)) (fun t => posted t 17 3 0x0301 ∧ bitAt (t.dev.page 0x500).intPend 1 ∧
      t.dev.fld Reg.MAP_NOSPACE 31 0 = 1) = true := by decide +kernel

/-- A closed band with one granule, marked for refresh; band 3 is being filled. -/
def dGc (s : BandSt) : Dev :=
  { (dQ.setFld Reg.MAP_BANDS_FMT 22 0 8).setFld Reg.MAP_FQ 22 0 8 with
    map := [(2 ^ 37 + 1, ⟨5, some loc2⟩)], rbQueue := [2],
    bands := [(2, { Band.reset with st := s, next := 3072, refresh := true, reads := 0 })] }

theorem test_Collection_victim : (st (dGc .closed)).running ∧ (dGc .closed).mapHeld = false ∧ (dGc .closed).chooseVictim = some 2 ∧
    ((dGc .closed).band 2).refresh = true ∧
    nextWith (exec .gcVictimSelect (st (dGc .closed))) (fun t => (t.dev.band 2).st = .victim ∧ t.dev.rbQueue = []) = true := by decide +kernel

/-- More SLC bands than the target. -/
def dFold : Dev :=
  { (dQ.setFld Reg.MAP_SLC_USED 22 0 5).setFld Reg.MAP_SLC_TGT 22 0 3 with
    bands := [(2, { Band.reset with st := .closed, slc := true })] }

theorem test_Collection_fold : (st dFold).running ∧ 3 * dFold.fld Reg.MAP_SLC_TGT 22 0 < 4 * dFold.fld Reg.MAP_SLC_USED 22 0 ∧
    dFold.stewards 2 = true ∧ nextWith (exec .slcFold (st dFold)) (fun t => (t.dev.band 2).st = .victim) = true := by decide +kernel

/-- The victim's granule as flash holds it. -/
def gran11 : Gran := { slice := 1, granule := 1, gver := 5, pad := false, blks := (List.range 8).map (fun _ => blkWr) }

/-- The victim, its granule read and its copy at the last place of band 3's stripe 0 programmed and verified. -/
def dVict : Dev :=
  { dGc .victim with relocs := [{ slice := 1, granule := 1, src := loc2, gran := gran11, dst := some ⟨false, 0, 0, 3, 0, 1, 3, 0, 15⟩,
                                  ok := true }] }

theorem test_Collection_reloc : (st dVict).running ∧ (dVict.ent 1 1).loc = some loc2 ∧ dVict.pageHere (pageKey 1 1) = true ∧
    dVict.dlogFull = false ∧ dVict.paired = false ∧ dVict.dumping = false ∧
    nextWith (exec (.relocCommit 1 1 (loc2.key * 2) 3 0 15 1) (st dVict)) (fun t =>
      t.dev.ent 1 1 = ⟨5, some ⟨false, 0, 0, 3, 0, 1, 3, 0, 15⟩⟩) = true ∧
    isNext (exec (.relocCommit 1 1 (loc2.key * 2 + 1) 3 0 15 1) (st dVict)) (st dVict) = true := by decide +kernel

/-- The granule was written since. -/
def dVictMoved : Dev := { dVict with map := [(2 ^ 37 + 1, ⟨6, none⟩)] }

theorem test_Collection_relocStale : (dVictMoved.ent 1 1).loc ≠ some loc2 ∧
    nextWith (exec (.relocCommit 1 1 (loc2.key * 2) 3 0 15 1) (st dVictMoved)) (fun t => t.dev.map = dVictMoved.map) = true := by
  decide +kernel

/-- A victim that nothing names. -/
def dGone : Dev := { dGc .victim with map := [] }

theorem test_Collection_erase : (st dGone).running ∧ dGone.bandNeeded 2 = false ∧ (dGone.spareSets 2).1 = true ∧
    nextWith (exec (.bandErase 2) (st dGone)) (fun t => (t.dev.band 2).st = .erasing ∧ (t.dev.band 2).erasedSets = []) = true := by
  decide +kernel

/-! ### The Dealer and the trick clock (chapter 08) -/

/-- Port 3 ACTIVE with this unit's token, and the port data given. -/
def dPort (x : Port) : Dev :=
  ((devUp.setFld (Reg.FCH_P_STS 3) 2 0 5).setFld (Reg.FCH_P_STS 3) 4 3 1).setPort 3 x

theorem test_PlansAndBoundaries_trick : (st (dPort Port.reset)).running ∧ (dPort Port.reset).mode < 3 ∧ (dPort Port.reset).dlrStop = false ∧
    (dPort Port.reset).lstate 3 = 5 ∧ (dPort Port.reset).fld (Reg.FCH_P_STS 3) 4 3 = 1 := by decide +kernel

/-- A slice with pending shares. -/
def dShare : Dev := { devUp.setSlice 2 { Slice.reset with share := 9, tshare := 8, pendShare := true } with tick := 131073 }

theorem test_PlansAndBoundaries_group : (st dShare).running ∧ dShare.mode < 3 ∧ dShare.stepPend = none ∧
    SMap.sortedAbove none dShare.slices = true ∧ (dShare.slice 2).pendShare = true := by decide +kernel

theorem test_PlansAndBoundaries_plan : (st (dPort (portOf (opOf 1 .host .waiting)))).running ∧
    (dPort (portOf (opOf 1 .host .waiting))).portDeals 3 = true ∧ (dPort (portOf (opOf 1 .host .waiting))).dlrStop = false ∧
    (dPort (portOf (opOf 1 .host .waiting))).cutDue 3 = true ∧ (opOf 1 .host .waiting).enq < 0 / 2048 * 2048 + 1536 ∧
    (dPort (portOf (opOf 1 .host .waiting))).dieGone 3 9 = false ∧
    nextWith (exec (.planCut 3 false) (st (dPort (portOf (opOf 1 .host .waiting))))) (fun t => t.dev.tick = 1536 ∧ t.dev.cutDue 3 = false ∧
      ((t.dev.port 3).op? 6).map (fun y => (y.stage, y.trick)) = some (.armed, 1) ∧ told t (fun o => match o with
        | .bridge 3 1 [1, 6, 1, 9, 15, 7, 4, _] => true
        | _ => false)) = true := by decide +kernel

theorem test_PlansAndBoundaries_residue : (devUp.page 0x701).err = false ∧
    nextWith (exec (.planCut 3 true) (st (dPort (portOf (opOf 1 .host .waiting))))) (fun t => (t.dev.page 0x701).errCode = 4 ∧
      (t.dev.page 0x701).info0 = 148 ∧ (t.dev.page 0x701).chkCnt = 1 ∧ t.dev.out = []) = true := by decide +kernel

/-- AGE tricks later. -/
def dAged : Dev := { dPort (portOf (opOf 1 .host .waiting)) with tick := 0x100 * 2048 }

theorem test_PlansAndBoundaries_age : (st dAged).running ∧ ((dAged.port 3).op? 6).isSome = true ∧
    (0 + 1) * (bits dAged.ageNow 11 0 * 2048) ≤ dAged.tick - 0 ∧
    nextWith (exec (.agePromote 3 6) (st dAged)) (fun t => ((t.dev.port 3).op? 6).map (fun y => (y.cls, y.enq, y.promo)) = some (1, 0, 1) ∧
      t.dev.fld Reg.DLR_AGE_PROMO 31 0 = 1) = true := by decide +kernel

/-- Die 9 suspended for SUS_HOLD. -/
def dHold : Dev := { dPort { Port.reset with susOpen := [(9, 1)] } with tick := 0x40 * 2048 }

theorem test_PlansAndBoundaries_susHold : (st dHold).running ∧ (dHold.port 3).susOpen.find 9 = some 1 ∧
    1 - 1 + bits dHold.susNow 15 8 * 2048 ≤ dHold.tick ∧
    nextWith (exec (.susHoldExpire 3 9) (st dHold)) (fun t => (t.dev.port 3).susDue = [9] ∧ t.dev.out = []) = true := by decide +kernel

theorem test_PlansAndBoundaries_resume : dHold.portDeals 3 = true ∧ dHold.dlrStop = false ∧ dHold.cutDue 3 = true ∧ dHold.giving = [] ∧
    dHold.wants = [] ∧ (dHold.port 3).ops = [] ∧
    nextWith (exec (.planCut 3 false) (st dHold)) (fun t => (t.dev.port 3).susOpen = [] ∧ told t (fun o => match o with
      | .bridge 3 5 [1, _, 0x41, 9, 0, 0, 0, 0] => true
      | _ => false)) = true := by decide +kernel

/-- A follower of a link without an exchange for eight trick groups. -/
def dFollow : Dev := { (devUp.setFlag Reg.TWN_LINK_STS 0 true).setFlag Reg.DLR_TIME_CTL 1 true with tick := 8 * 131072 }

theorem test_PlansAndBoundaries_exchange : (st dFollow).running ∧ dFollow.timeLink = true ∧ dFollow.flag Reg.DLR_TIME_STS 4 = false ∧
    dFollow.exLast + 8 * 131072 ≤ dFollow.tick ∧ (dFollow.page 0x700).err = false ∧
    nextWith (exec .timeExchangeTimeout (st dFollow)) (fun t => (t.dev.page 0x700).errCode = 0x0102 ∧ (t.dev.page 0x700).info0 = 8) = true := by
  decide +kernel

/-! ### Flash ports (chapter 09) -/

/-- A command of side 0 for die 9, block 7, page 4 and all planes, with tag 6. -/
def bc (arm : Bool) (trick : Nat) : BCmd :=
  { side := 0, seq := 5, arm := arm, lead := false, slc := false, tag := 6, trick := trick, die := 9, planes := 15, block := 7,
    page := 4, junk := false }

/-- The same for no page, as DIE_ERASE uses it, and for the die alone. -/
def bce (arm : Bool) (trick : Nat) : BCmd := { bc arm trick with page := 0 }
def bcd (arm : Bool) (trick : Nat) : BCmd := { bce arm trick with planes := 0, block := 0 }

/-- A command for the bridge itself. -/
def bcb : BCmd := { bcd false 0 with die := 0 }

/-- Port 3's bridge in trick 8, held by side 0. -/
def dBr (b : Bridge) : Dev := devUp.setBridge 3 { b with holder := 1, trick := 8 }

/-- The arm that `bc` asks for. -/
def armOf (opc arg : Nat) (cut : Bool) : BArm :=
  { side := 0, seq := 5, trick := 9, lead := false, opc := opc, tag := 6, die := 9, planes := 15, block := 7, page := 4, slc := false,
    arg := arg, cut := cut }

theorem test_ArmsAreHeld_held : ((dBr Bridge.reset).bridge 3).power = 0 ∧ (dBr Bridge.reset).addrBad 3 (bc true 9) true true true = false ∧
    ((dBr Bridge.reset).bridge 3).holder = (bc true 9).side % 2 + 1 ∧ ((dBr Bridge.reset).bridge 3).cutFor ≠ some 9 ∧
    nextWith (exec (.dieRead 3 (bc true 9) 15 7 true) (st (dBr Bridge.reset))) (fun t => (t.dev.bridge 3).arms =
      [armOf 1 (15 + 16 + 32 * 7) false]) = true ∧
    nextWith (exec (.dieProgram 3 (bc true 9) 31) (st (dBr Bridge.reset))) (fun t => (t.dev.bridge 3).arms = [armOf 2 31 false]) = true := by
  decide +kernel

theorem test_ArmsAreHeld_others : cmdUnused (bc true 9) 2 = false ∧ cmdUnused (bce true 9) 3 = false ∧ cmdUnused (bcd true 9) 5 = false ∧
    nextWith (exec (.dieErase 3 (bce true 9)) (st (dBr Bridge.reset))) (fun t => (t.dev.bridge 3).arms =
      [{ armOf 3 0 false with page := 0 }]) = true ∧
    nextWith (exec (.dieSuspend 3 (bcd true 9)) (st (dBr Bridge.reset))) (fun t => (t.dev.bridge 3).arms =
      [{ armOf 4 0 false with page := 0, planes := 0, block := 0 }]) = true ∧
    nextWith (exec (.dieResume 3 (bcd true 9)) (st (dBr Bridge.reset))) (fun t => (t.dev.bridge 3).arms =
      [{ armOf 5 0 false with page := 0, planes := 0, block := 0 }]) = true ∧
    isNext (exec (.dieErase 3 (bce true 8)) (st (dBr Bridge.reset))) (st (dBr { Bridge.reset with heard := 5 })) = true ∧
    nextWith (exec (.dieErase 3 (bce true 10)) (st (dBr Bridge.reset))) (fun t => t.dev.out = [.response 3 0 0x8F 0x0A 6 0 0 [3]]) = true ∧
    isNext (exec (.dieErase 3 (bce true 9)) (st (dBr { Bridge.reset with cutFor := some 9 })))
      (st (dBr { Bridge.reset with cutFor := some 9, heard := 5 })) = true ∧
    nextWith (exec (.dieErase 3 { bce true 9 with side := 1 }) (st (dBr Bridge.reset))) (fun t =>
      t.dev.out = [.response 3 1 0x8F 0x03 6 0 0 [3]]) = true := by decide +kernel

theorem test_MarksFireArms_cut : ((dBr { Bridge.reset with arms := [armOf 1 15 false] }).bridge 3).cutFor ≠ some 9 ∧
    nextWith (exec (.armConfirmCut 3) (st (dBr { Bridge.reset with arms := [armOf 1 15 false] }))) (fun t =>
      (t.dev.bridge 3).cutFor = some 9 ∧ (t.dev.bridge 3).arms = [armOf 1 15 true] ∧ (t.dev.bridge 3).cutSeq = 5) = true := by
  decide +kernel

/-- With no arm to confirm, CUT is the SEQ of the last message (log 243). -/
theorem test_MarksFireArms_cutNone : nextWith (exec (.armConfirmCut 3) (st (dBr { Bridge.reset with heard := 70 }))) (fun t =>
    (t.dev.bridge 3).cutFor = some 9 ∧ (t.dev.bridge 3).cutSeq = 70) = true := by decide +kernel

theorem test_MarksFireArms_miss :
    nextWith (exec (.markMiss 3) (st (dBr { Bridge.reset with arms := [armOf 1 15 true] }))) (fun t =>
      (t.dev.bridge 3).trick = 9 ∧ (t.dev.bridge 3).arms = [] ∧ t.dev.out = [.response 3 0 0x8C 0 0 0 0 [9, 4095, 0, 0]]) = true := by
  decide +kernel

theorem test_MarksFireArms_read : (((dBr { Bridge.reset with arms := [armOf 1 15 true] }).bridge 3).die 9).st = .idle ∧
    nextWith (exec (.trickMark 3 0 9 0) (st (dBr { Bridge.reset with arms := [armOf 1 15 true] }))) (fun t =>
      (t.dev.bridge 3).trick = 9 ∧ (t.dev.bridge 3).arms = [] ∧ ((t.dev.bridge 3).die 9).st = .reading ∧
      ((t.dev.bridge 3).die 9).rdTag = some 6) = true := by decide +kernel

/-- A confirmed program of page 4, buffer 0 full, the page next of planes 0 to 2 and of plane 3 as given. -/
def brProg (last : Nat) : Bridge :=
  { Bridge.reset with arms := [armOf 2 0 true], bufs := [(0, 77)],
                      next := [(nextKey 9 0 7, 5), (nextKey 9 1 7, 5), (nextKey 9 2 7, 5), (nextKey 9 3 7, last)] }

/-- A read of page 800 uses the second zone's fifteen offsets of slot 6. -/
theorem test_MarksFireArms_readOffsets :
    nextWith (exec (.trickMark 3 0 9 0) (st (dBr { Bridge.reset with
      arms := [{ armOf 1 (15 + 32 * 6) true with page := 800 }]
      slots := [(9 * 8 + 6, (List.range 60).map Int.ofNat)] }))) (fun t =>
      ((t.dev.bridge 3).die 9).rdOfs = (List.range 15).map (fun i => Int.ofNat (15 + i))) = true := by decide +kernel

theorem test_MarksFireArms_program : (∀ pl ∈ planesOf 15, (brProg 5).next.find (nextKey 9 pl 7) = some (4 + 1)) ∧
    (((dBr (brProg 5)).bridge 3).bufs.find 0).isSome = true ∧ (((dBr (brProg 5)).bridge 3).die 9).busy = false ∧
    nextWith (exec (.trickMark 3 0 9 0) (st (dBr (brProg 5)))) (fun t => ((t.dev.bridge 3).die 9).st = .programming ∧
      (planesOf 15).all (fun pl => (t.dev.bridge 3).next.find (nextKey 9 pl 7) == some 6)) = true := by decide +kernel

theorem test_MarksFireArms_notErased : (∃ pl ∈ planesOf 15, (brProg 4).next.find (nextKey 9 pl 7) ≠ some (4 + 1)) ∧
    nextWith (exec (.trickMark 3 0 9 0) (st (dBr (brProg 4)))) (fun t => ((t.dev.bridge 3).die 9).st = .idle ∧
      (t.dev.bridge 3).next = (brProg 4).next ∧ told t (fun o => o == .response 3 0 0x8F 0x02 6 0 0 [2])) = true := by decide +kernel

theorem test_BridgeCommands_status : ((dBr Bridge.reset).bridge 3).power = 0 ∧ (bcd false 0).arm = false ∧ cmdUnused (bcd false 0) 6 = false ∧
    nextWith (exec (.dieStatus 3 (bcd false 0) false 0xE0 (-3)) (st (dBr Bridge.reset))) (fun t =>
      t.dev.out = [.response 3 0 0x86 0 6 0xE0 0 [0, 0, 0, 0, 253]] ∧ ((t.dev.bridge 3).die 9).temp = -3) = true ∧
    nextWith (exec (.dieStatus 3 { bcd false 0 with side := 1 } false 0xE0 (-3)) (st (dBr Bridge.reset))) (fun t =>
      t.dev.out = [.response 3 1 0x86 0 6 0 0 [0, 0, 0, 0, 0]]) = true ∧ cmdUnused bcb 0x0B = false ∧
    nextWith (exec (.laneTest 3 bcb 2 255 70 3) (st (dBr Bridge.reset))) (fun t =>
      t.dev.out = [.response 3 0 0x8B 0 6 0 0 [70, 3]]) = true := by decide +kernel

theorem test_BridgeCommands_take : cmdUnused bcb 0x08 = false ∧ nextWith (exec (.ownTake 4 bcb 7 false) (st devUp)) (fun t =>
      (t.dev.bridge 4).holder = 1 ∧ (t.dev.bridge 4).fence = 7 ∧ t.dev.out = [.response 4 0 0x88 0 6 0 0 [1, 7]]) = true ∧
    fenceNewer 7 ((dBr (brProg 5)).bridge 3).fence = true ∧
    nextWith (exec (.ownTake 3 { bcb with side := 1 } 7 true) (st (dBr (brProg 5)))) (fun t => (t.dev.bridge 3).holder = 2 ∧
      (t.dev.bridge 3).arms = [] ∧ (t.dev.bridge 3).bufs = []) = true ∧
    nextWith (exec (.ownTake 3 { bcb with side := 1 } 7 false) (st (dBr (brProg 5)))) (fun t =>
      (t.dev.bridge 3).holder = 1 ∧ t.dev.out = [.response 3 1 0x88 0x03 6 0 0 [1, 0]]) = true := by decide +kernel

theorem test_BridgeCommands_held : ((dBr Bridge.reset).bridge 3).outstanding = false ∧
    (dBr Bridge.reset).addrBad 3 (bcd false 0) true false false = false ∧
    nextWith (exec (.setOffsets 3 (bcd false 0) 6 [1, 2]) (st (dBr Bridge.reset))) (fun t =>
      ((t.dev.bridge 3).slots.find 78).map List.length = some 60 ∧ t.dev.out = [.response 3 0 0x82 0 6 0 0 [0x07, 0, 0]]) = true ∧
    nextWith (exec (.ownRelease 3 bcb) (st (dBr Bridge.reset))) (fun t => (t.dev.bridge 3).holder = 0) = true ∧
    nextWith (exec (.bridgePower 3 bcb 2) (st (dBr Bridge.reset))) (fun t => (t.dev.bridge 3).power = 2 ∧
      t.dev.out = [.response 3 0 0x8A 0 6 0 0 [2]]) = true := by decide +kernel

/-- In RET the bridge goes OFF, which loses its slots; the commands of its dies do not reach it. -/
theorem test_BridgeCommands_ret :
    nextWith (exec (.bridgePower 3 bcb 2) (st (dBr { Bridge.reset with power := 1, slots := [(78, [])] }))) (fun t =>
      (t.dev.bridge 3).power = 2 ∧ (t.dev.bridge 3).slots = []) = true ∧
    isNext (exec (.setOffsets 3 (bcd false 0) 6 [1, 2]) (st (dBr { Bridge.reset with power := 1 })))
      (st (dBr { Bridge.reset with power := 1 })) = true := by decide +kernel

theorem test_BridgeCommands_data : ((dBr Bridge.reset).bridge 3).bufs.find 31 = none ∧ (((dBr (brProg 5)).bridge 3).bufs.find 0).isSome = true ∧
    nextWith (exec (.pdata 3 bcb 31 9) (st (dBr Bridge.reset))) (fun t => (t.dev.bridge 3).bufs = [(31, 9)]) = true ∧
    nextWith (exec (.pdata 3 bcb 0 9) (st (dBr (brProg 5)))) (fun t => (t.dev.bridge 3).bufs = [(0, 77)] ∧
      t.dev.out = [.response 3 0 0x8F 0x04 6 0 0 [0x0C]]) = true := by decide +kernel

/-- A flit of 30 zero bytes after its header, with its CRC (of a data flit of SEQ 0), and the same with a bit flipped. -/
def flitOk : List Byte :=
  let bs : List Nat := 2 :: List.replicate 29 0
  let c := crcBytes 16 0x8BB7 0xFFFF bs
  (bs ++ [c % 256, c / 256]).map (BitVec.ofNat 8)

theorem test_LinkReplays_flit : (st (dPort Port.reset)).running ∧ (dPort Port.reset).laneUp 3 = true ∧ flitOk.length = 32 ∧
    nextWith (exec (.flitReceive 3 flitOk) (st (dPort Port.reset))) (fun t => (t.dev.port 3).rxNext = 1 ∧
      t.dev.out = [.flit 3 (ctrlFlit 1 0)] ∧ (t.dev.port 3).rx0 = [0]) = true ∧
    nextWith (exec (.flitReceive 3 (flitOk.set 5 1)) (st (dPort Port.reset))) (fun t => (t.dev.port 3).rxNak ∧
      (t.dev.port 3).rxNext = 0 ∧ t.dev.fld (Reg.FCH_P_CRCERR 3) 31 0 = 1 ∧ t.dev.out = [.flit 3 (ctrlFlit 2 0)]) = true := by decide +kernel

/-- Four flits sent, SEQ 4094 to 1, none acknowledged, each sent so many times. -/
def portTx (n : Nat) : Port := { Port.reset with txNext := 2, txBuf := (List.range 4).map (fun i => (i, n)) }

theorem test_LinkReplays_ack : (dPort (portTx 1)).laneUp 3 = true ∧ (portTx 1).base = 4094 ∧
    (4095 % 4096 + 4096 - (portTx 1).base + 1) % 4096 ≤ (portTx 1).txBuf.length ∧
    nextWith (exec (.ack 3 4095) (st (dPort (portTx 1)))) (fun t => (t.dev.port 3).txBuf = [(2, 1), (3, 1)]) = true ∧
    nextWith (exec (.nak 3 0) (st (dPort (portTx 1)))) (fun t => (t.dev.port 3).txBuf = [(2, 2), (3, 2)] ∧
      t.dev.fld (Reg.FCH_P_REPLAY 3) 31 0 = 2 ∧ t.dev.out = [.flit 3 2, .flit 3 3]) = true := by decide +kernel

theorem test_LinkReplays_timeout :
    isNext (exec (.replayTimeout 3) (st { dPort (portTx 2) with tick := 255 })) (st { dPort (portTx 2) with tick := 255 }) = true ∧
    nextWith (exec (.replayTimeout 3) (st { dPort (portTx 2) with tick := 256 })) (fun t =>
      t.dev.port 3 = { portTx 3 with txTick := 256 }) = true ∧
    (portTx 3).recovs.length < (dPort (portTx 3)).fld Reg.FCH_C_CTL 7 0 ∧
    nextWith (exec (.replayTimeout 3) (st { dPort (portTx 3) with tick := 256 })) (fun t => t.dev.lstate 3 = 6 ∧
      (t.dev.port 3).initTick = 256 ∧ t.dev.fld (Reg.FCH_P_RECOV 3) 31 0 = 1) = true := by decide +kernel

/-- RECOVERY for 50 µs. -/
def dRecov : Dev := { (dPort (portOf (opOf 1 .host .armed))).setFld (Reg.FCH_P_STS 3) 2 0 6 with tick := 50000 }

theorem test_LinkReplays_recovery : (st dRecov).running ∧ dRecov.lstate 3 = 6 ∧ (dRecov.port 3).initTick + 50000 ≤ dRecov.tick ∧
    nextWith (exec (.recoveryTimeout 3) (st dRecov)) (fun t => t.dev.lstate 3 = 1 ∧
      (t.dev.port 3).ops.all (fun o => o.stage == .waiting)) = true := by decide +kernel

/-- An armed erase: its die is asked what became of it. -/
def dRecovErase : Dev := { (dPort (portOf (opOf 3 .host .armed))).setFld (Reg.FCH_P_STS 3) 2 0 6 with tick := 50000 }

theorem test_LinkReplays_recoveryAsks : dRecovErase.lstate 3 = 6 ∧ (dRecovErase.port 3).initTick + 50000 ≤ dRecovErase.tick ∧
    nextWith (exec (.recoveryTimeout 3) (st dRecovErase)) (fun t =>
      (t.dev.port 3).ops = [{ opOf 3 .host .running with asked := true, start := 50000 }]) = true := by decide +kernel

/-- A response without error for tag 6. -/
def rs (status : Nat) : BRsp := { status := status, tag := 6, onfi := 0, orphan := false }

/-- Port 3 with one running operation. -/
def dOp (opc : Nat) : Dev := dPort (portOf (opOf opc .host .running))

theorem test_ResponsesArrive_rdata : (st (dOp 1)).running ∧ ((dOp 1).port 3).op? 6 = some (opOf 1 .host .running) ∧
    nextWith (exec (.rdata 3 (rs 0) 15 false 9) (st (dOp 1))) (fun t => ((t.dev.port 3).op? 6).map POp.data = some true) = true := by
  decide +kernel

/-- The command that it served has ended. -/
def dOrphan : Dev := dPort (portOf { opOf 1 .host .running with owner := some 99 })

theorem test_ResponsesArrive_rdataEnded : (some 99).all dOrphan.ownerLives = false ∧
    nextWith (exec (.rdata 3 (rs 0) 15 false 9) (st dOrphan)) (fun t => (t.dev.port 3).op? 6 = none) = true := by decide +kernel

/-- A program whose chunk is in the stripe buffer, and an erase of a block with content. -/
def dProg (opc : Nat) : Dev :=
  { dOp opc with stripeBuf := [(flashKey 3 9 7 4, { FPage.reset with parity := true })],
                 flash := [(flashKey 3 9 7 5, { FPage.reset with parity := true })] }

theorem test_ResponsesArrive_done : (st (dProg 2)).running ∧ (dProg 2).stripeBuf.find (flashKey 3 9 7 4) = some { FPage.reset with parity := true } ∧
    nextWith (exec (.done 3 (rs 0) 2 9 0) (st (dProg 2))) (fun t => (t.dev.fpage (flashKey 3 9 7 4)).parity ∧ t.dev.stripeBuf = []) = true ∧
    nextWith (exec (.done 3 (rs 0) 3 9 0) (st (dProg 3))) (fun t => t.dev.flash = []) = true := by decide +kernel

theorem test_ResponsesArrive_failed : ((dProg 2).page 0x500).err = false ∧
    nextWith (exec (.done 3 (rs 1) 2 9 0) (st (dProg 2))) (fun t => (t.dev.page 0x500).errCode = 0x0101 ∧ (t.dev.page 0x500).info0 = 2) = true := by
  decide +kernel

theorem test_ResponsesArrive_status :
    nextWith (exec (.status 3 63 (rs 0) 0 0 0 0 0 none) (st devUp)) (fun t => t.dev.flag (Reg.FCH_P_DIES_HI 3) 31) = true ∧
    nextWith (exec (.status 3 0 (rs 0) 6 0 0 0 0 none) (st devUp)) (fun t => !t.dev.flag (Reg.FCH_P_DIES_LO 3) 0) = true ∧
    nextWith (exec (.own 3 (rs 0) 2 9) (st devUp)) (fun t => t.dev.fld (Reg.FCH_P_STS 3) 4 3 = 2 ∧ t.dev.fld (Reg.FCH_P_STS 3) 31 16 = 9) = true ∧
    nextWith (exec (.power 3 (rs 0) 2) (st (dPort Port.reset))) (fun t => t.dev.lstate 3 = 0) = true := by decide +kernel

/-- A test of round trips of port 3, with those reported, in the mode given. -/
def dTest (mode : Nat) (l : List Nat) : Dev := (dPort { Port.reset with testTag := 1, rtts := l }).setFld (Reg.FCH_P_TEST_CTL 3) 1 0 mode

theorem test_ResponsesArrive_test : ((dTest 0 []).port 3).testTag ≠ 0 ∧ (dTest 0 []).fld (Reg.FCH_P_TEST_CTL 3) 1 0 = 0 ∧
    nextWith (exec (.test 3 (rs 0) 1 0 70) (st (dTest 0 (List.replicate 14 5)))) (fun t =>
      (t.dev.port 3).rtts = List.replicate 14 5 ++ [70]) = true ∧
    nextWith (exec (.test 3 (rs 0) 1 0 70) (st (dTest 0 (List.replicate 15 5)))) (fun t =>
      (t.dev.port 3).rtts = [] ∧ t.dev.fld (Reg.FCH_P_RTT 3) 19 0 = 5) = true ∧
    (dTest 2 []).fld (Reg.FCH_P_TEST_CTL 3) 1 0 ≠ 0 ∧
    nextWith (exec (.test 3 (rs 0) 1 6 70) (st (dTest 2 []))) (fun t => (t.dev.port 3).testTag = 0 ∧
      t.dev.reg (Reg.FCH_P_TEST_ERR 3) = 6) = true := by decide +kernel

theorem test_ResponsesArrive_cut : ((dPort (portOf (opOf 1 .host .armed))).port 3).ops = [opOf 1 .host .armed] ∧
    nextWith (exec (.armCut 3 0 1 5 true 1) (st (dPort (portOf (opOf 1 .host .armed))))) (fun t =>
      (t.dev.port 3).ops = [{ opOf 1 .host .armed with stage := .running, start := 0 }]) = true ∧
    nextWith (exec (.armCut 3 0 1 5 false 1) (st (dPort (portOf (opOf 1 .host .armed))))) (fun t =>
      (t.dev.port 3).ops.map (fun y => (y.stage, y.misses)) = [(.waiting, 1)] ∧ t.dev.fld Reg.DLR_ARM_MISS 31 0 = 1) = true := by
  decide +kernel

/-- A suspension of die 9 armed for trick 1 and not confirmed. -/
def dSusArm : Dev := dPort { Port.reset with susArms := [(4, 9, 1, 5, 0)], susOpen := [(9, 1)] }

theorem test_ResponsesArrive_cutSuspend : (dSusArm.port 3).ops = [] ∧
    nextWith (exec (.armCut 3 0 1 5 false 0) (st dSusArm)) (fun t => (t.dev.port 3).susArms = [] ∧ (t.dev.port 3).susOpen = [] ∧
      t.dev.fld Reg.DLR_ARM_MISS 31 0 = 1) = true := by decide +kernel

theorem test_ResponsesArrive_refuse : ((dOp 1).page 0x803).err = false ∧
    nextWith (exec (.refuse 3 (rs 4) 1) (st (dOp 1))) (fun t => (t.dev.page 0x803).errCode = 0x0103 ∧ (t.dev.page 0x803).info0 = 6 ∧
      (t.dev.page 0x803).info1 = 4 ∧ ((t.dev.port 3).op? 6).map POp.stage = some .waiting ∧
      t.dev.fld (Reg.FCH_P_REFUSE 3) 31 0 = 1) = true := by decide +kernel

theorem test_ResponsesArrive_timeout : 0 + (dOp 1).fld Reg.FCH_DIE_TMO 15 0 * 1000000 ≤ 65535000000 ∧
    nextWith (exec (.dieResponseTimeout 3 6) (st { dOp 1 with tick := 65535000000 })) (fun t => t.dev.dieGone 3 9) = true := by decide +kernel

/-- A lane that trains for 65.5 s. -/
def dTrain : Dev := { (dPort Port.reset).setFld (Reg.FCH_P_STS 3) 2 0 4 with tick := 255000000 }

theorem test_LanesAndService_init : (st dTrain).running ∧ dTrain.lstate 3 = 4 ∧ dTrain.portGone 3 = false ∧
    (dTrain.port 3).initTick + dTrain.fld Reg.FCH_C_CTL 15 8 * 1000000 ≤ dTrain.tick ∧ (dTrain.page 0x803).err = false ∧
    nextWith (exec (.portInitTimeout 3) (st dTrain)) (fun t => t.dev.lstate 3 = 7 ∧ t.dev.flag (Reg.FCH_P_STS 3) 7 ∧
      (t.dev.page 0x803).errCode = 0x0101 ∧ (t.dev.page 0x803).info0 = 1) = true ∧
    nextWith (exec (.laneActive 3 (1 :: List.replicate 15 9)) (st dTrain)) (fun t => t.dev.lstate 3 = 5 ∧ t.dev.fld (Reg.FCH_P_RTT 3) 19 0 = 9 ∧
      t.dev.fld (Reg.FCH_P_RTT_SPREAD 3) 15 0 = 8) = true := by decide +kernel

theorem test_LanesAndService_recovered :
    nextWith (exec (.laneActive 3 (List.replicate 16 9)) (st ((dPort Port.reset).setFld (Reg.FCH_P_STS 3) 2 0 6))) (fun t =>
      t.dev.lstate 3 = 5) = true := by decide +kernel

/-- Port 3's page open, EN as given. -/
def dPg (en : Bool) : Dev :=
  ((dPort Port.reset).setFlag (Reg.FCH_P_STS 3) 7 (!en)).setPage 0x803 { Page.reset with unlocked := true, en := en }

theorem test_LanesAndService_recommission : (st (dPg false)).running ∧ (dPg false).isOpen 0x803 ∧ (dPg true).isOpen 0x803 ∧
    nextWith (exec (.recommission 3 1) (st (dPg false))) (fun t => t.dev.lstate 3 = 1 ∧ !t.dev.flag (Reg.FCH_P_STS 3) 7) = true ∧
    nextWith (exec (.recommission 3 1) (st (dPg true))) (fun t => (t.dev.page 0x803).errCode = 0x0100 ∧ t.dev.lstate 3 = 5) = true ∧
    nextWith (exec (.retrain 3 2) (st (dPg true))) (fun t => t.dev.lstate 3 = 6) = true := by decide +kernel

theorem test_LanesAndService_laneTest :
    nextWith (exec (.laneTestGo 3 0x10100) (st (dPg true))) (fun t => t.dev.reg (Reg.FCH_P_TEST_STS 3) = 0 ∧ (t.dev.port 3).testTag = 1 ∧
      ((List.range 16).all (fun i => told t (fun o => match o with
        | .bridge 3 0x0B [0, _, 0, 0, 0, 0, 0, w] => w == 2 ^ 8 + 2 ^ 32 * i
        | _ => false)))) = true ∧
    nextWith (exec (.laneTestGo 3 0x10102) (st (dPg false))) (fun t => t.dev.reg (Reg.FCH_P_TEST_STS 3) = 0 ∧
      (t.dev.port 3).testEnd = 1000000) = true ∧
    nextWith (exec (.laneTestGo 3 0x10102) (st (dPg true))) (fun t => t.dev.reg (Reg.FCH_P_TEST_STS 3) = 4 ∧ (t.dev.port 3).testTag = 0) = true := by
  decide +kernel

/-! ### The shuffle layout (chapter 11) -/

/-- A stripe of band 2 that has waited WAIT_US for more. -/
def dStripe : Dev :=
  { (dQ.setFld Reg.MAP_BANDS_FMT 22 0 8).setFld Reg.SHF_STRIPE_CTL 15 0 5 with
    bands := [(2, { Band.reset with st := .openQlc, next := 4 })], fills := [⟨2, 4, 31, 1, 0, false⟩], tick := 5000 }

theorem test_LayoutKeeps_pads : (st dStripe).running ∧ dStripe.shfStop = false ∧
    dStripe.fills.find? (fun f => f.band == 2) = some ⟨2, 4, 31, 1, 0, false⟩ ∧
    0 + dStripe.fld Reg.SHF_STRIPE_CTL 15 0 * 1000 ≤ dStripe.tick ∧
    nextWith (exec (.stripeWaitExpire 2) (st dStripe)) (fun t => t.dev.fills.all (fun f => f.band ≠ 2 || (f.stripe == 5 && f.placed == 0))) =
      true := by decide +kernel

/-- R322, in the field of 0x11D with g = 2: a byte 1 of role 15 makes P 1, Q g^15 = 0x26 and R g^30 = 0x60. -/
theorem test_parity : parityOf ((List.range 16).map (fun i => if i = 15 then 1 else 0)) = (1, 0x26, 0x60) := by decide +kernel

/-- Sixteen data bytes, of which roles 0, 1 and 2 are lost, and the sources that remain. -/
def dataBytes : List Nat := (List.range 16).map (fun i => 17 * i + 3)

theorem test_parity_solves :
    let pqr := parityOf dataBytes
    let have_ : List Nat := dataBytes.drop 3 ++ [pqr.1, pqr.2.1, pqr.2.2]
    ((solveTerms ((List.range 19).drop 3) 1).zip have_).foldl (fun a x => a ^^^ byteMul x.2 x.1.2) 0 = 20 := by decide +kernel

/-- Band 2 closed, with `n` sets lost. -/
def dLost (n : Nat) : Dev := { dQ with bands := [(2, { Band.reset with st := .closed, next := 8, sets := setsLost n })] }

theorem test_LayoutKeeps_solve : (st (dLost 3)).running ∧ (dLost 3).erasures 2 7 15 = [0, 1, 2] ∧ 7 < ((dLost 3).band 2).next ∧
    nextWith (exec (.reconstructSolve 2 7 15 [] [true]) (st (dLost 3))) (fun t => t.dev.fld Reg.SHF_DEG_READS 31 0 = 3) = true := by
  decide +kernel

/-- A second attempt, another survivor in a source's place, is tried while fewer than three positions are erased. -/
theorem test_LayoutKeeps_tries : 1 < (dLost 1).fld Reg.SHF_DEG_CTL 3 0 ∧
    nextWith (exec (.reconstructSolve 2 7 15 [] [false, true]) (st (dLost 1))) (fun t => t.dev.fld Reg.SHF_DEG_READS 31 0 = 1 ∧
      (t.dev.page 0xB00).errCode = 0) = true := by decide +kernel

theorem test_LayoutKeeps_poison : (dLost 4).erasures 2 7 15 = [0, 1, 2, 3] ∧ ((dLost 4).page 0xB00).err = false ∧
    nextWith (exec (.reconstructSolve 2 7 15 [] [true]) (st (dLost 4))) (fun t => (t.dev.page 0xB00).errCode = 0x0102 ∧
      (t.dev.page 0xB00).info0 = 2 ∧ bitAt (t.dev.page 0xB00).intPend 2) = true ∧
    nextWith (exec (.reconstructSolve 2 7 15 [] [false, false]) (st (dLost 1))) (fun t => (t.dev.page 0xB00).errCode = 0x0102) = true := by
  decide +kernel

/-- Its set 5 is a replacement for block 6 of port 40's die 7, with so many stripes given. -/
def setsRepl (n : Nat) : List BSet :=
  (List.range 19).map (fun j => { port := j, die := 1, block := 2, repl := decide (j = 5), erased := false,
                                  prog := if j = 5 then n else 0, old := if j = 5 then (40 * 64 + 7) * 4096 + 6 else (j * 64 + 1) * 4096 + 2, built := if j = 5 then n else 0 })

/-- A read of all sixteen codewords of position `j` of band 2's stripe `k`, for an owner, whose data has come. -/
def opCame (w k : Nat) (src : OpSrc) (ok : Bool) (j : Nat) : POp :=
  { opOf 1 src .running with
    owner := some w, stripe := k, pos := j, die := 1, block := 2, page := k, data := true,
    got := (List.range 16).map (fun c => { cw := c, ok := ok, step := 0, e := 0, n01 := 0, n10 := 0 }) }

/-- Every port of the band has its read. -/
def allCame (w k : Nat) (src : OpSrc) (ok : Bool) : SMap Port := (List.range 19).map (fun j => (j, portOf (opCame w k src ok j)))

/-- A rebuild of band 2 at stripe `n`. -/
def dRebuild (n : Nat) : Dev :=
  { dQ with bands := [(2, { Band.reset with st := .closed, next := 8, sets := setsRepl n })], rbQueue := [2],
            rbNow := 0x0780401A, fresh := [(40 * 64 + 3, [])] }

theorem test_LayoutKeeps_rebuildReads : (st (dRebuild 2)).running ∧ (dRebuild 2).rebuildNext = some 2 ∧ bitAt (dRebuild 2).rbNow 24 = true ∧
    ((dRebuild 2).setsOf 2).length = 19 ∧ (∀ st ∈ (dRebuild 2).setsOf 2, (dRebuild 2).dieGone st.port st.die = false ∧ st.erased = false) ∧
    (dRebuild 2).rebuildElse 2 = false ∧ (dRebuild 2).rebuildAt 2 = some 2 ∧ (dRebuild 2).dieTakes 5 1 = true ∧
    ((dRebuild 2).takeCredit 5 (16 * 17) (rebuildUnit 2 2)).1 = true ∧ ((dRebuild 2).band 2).st = .closed ∧
    (dRebuild 2).cwReady (rebuildOwner 2 2) 2 2 5 15 = false ∧ (17, 15) ∈ (dRebuild 2).needs (rebuildOwner 2 2) 2 2 5 15 ∧
    nextWith (exec .rebuildStripe (st (dRebuild 2))) (fun t => (t.dev.port 17).ops.any (fun o => o.opc == 1 && o.src == .rebuild && o.cols.contains 15)) =
      true := by decide +kernel

/-- All that its sources hold has come. -/
def dRebuilt : Dev := { dRebuild 2 with ports := allCame (rebuildOwner 2 2) 2 .rebuild true }

theorem test_LayoutKeeps_rebuildWrites : dRebuilt.rebuildElse 2 = false ∧ dRebuilt.dieTakes 5 1 = true ∧
    (∀ c < 16, dRebuilt.cwReady (rebuildOwner 2 2) 2 2 5 c = true) ∧
    nextWith (exec .rebuildStripe (st dRebuilt)) (fun t => (t.dev.setAtPos 2 5).built = 3 ∧
      (t.dev.port 5).ops.any (fun o => o.opc == 2 && o.src == .rebuild && o.die == 1 && o.block == 2 && o.page == 2)) = true := by
  decide +kernel

/-- A rebuild that is done. -/
def dCopy : Dev := dRebuild 8

theorem test_LayoutKeeps_copyback : (st dCopy).running ∧ bitAt dCopy.rbNow 25 = true ∧ (dCopy.setsOf 2).length = 19 ∧
    (dCopy.setAtPos 2 5).repl = true ∧ (dCopy.band 2).next ≤ (dCopy.setAtPos 2 5).prog ∧ (dCopy.setAtPos 2 5).formed.port = 40 ∧
    dCopy.dieGone 40 3 = false ∧ (dCopy.fresh.find (40 * 64 + 3)).isSome = true ∧ (dCopy.band 2).st = .closed ∧
    11 < dCopy.dieBlocks 40 ∧ dCopy.setFree 40 3 11 = true ∧ dCopy.dieGone 5 1 = false ∧
    nextWith (exec (.copyback 2 5 3 11 true) (st dCopy)) (fun t => (t.dev.setAtPos 2 5).repl = false ∧ (t.dev.setAtPos 2 5).port = 40 ∧
      (t.dev.setAtPos 2 5).die = 3 ∧ (t.dev.setAtPos 2 5).block = 11 ∧
      (t.dev.port 5).ops.any (fun e => e.opc == 3 && e.die == 1 && e.block == 2)) = true := by decide +kernel

/-- Regions dirty, one of them waiting to be cleared, of a closed band; region 3 is left by a stop. -/
def dBm : Dev :=
  { dQ with bmDirty := [130, 131], bmClear := [(130, 5)], resync := [(131, 0)]
            bands := [(2, { Band.reset with st := .closed, next := 256, sets := setsLost 0 })] }

theorem test_LayoutKeeps_bitmap : (st dBm).running ∧ dBm.shfStop = false ∧
    nextWith (exec .bitmapClearFlush (st dBm)) (fun t => t.dev.bmClear = [] ∧ t.dev.bmDirty = [131]) = true := by decide +kernel

theorem test_LayoutKeeps_resyncNone : dBm.released = true ∧ dBm.resync.find (2 * 64 + 3) = some 0 ∧ dBm.resyncAt 2 3 0 = none ∧
    nextWith (exec (.regionResync 2 3) (st dBm)) (fun t => t.dev.resync = [] ∧ t.dev.bmClear.any (fun x => x.1 == 131)) = true := by
  decide +kernel

/-- Stripe 192 of the region has a programmed chunk. -/
def dBm1 : Dev := { dBm with flash := [(flashKey 7 1 2 192, { FPage.reset with parity := true })] }

theorem test_LayoutKeeps_resyncReads : dBm1.resyncAt 2 3 0 = some 192 ∧ dBm1.cwErased 2 192 18 15 = false ∧
    nextWith (exec (.regionResync 2 3) (st dBm1)) (fun t => (t.dev.port 18).ops.any (fun o => o.opc == 1 && o.cls == 1 &&
      o.owner == some (resyncOwner 2 192) && o.cols.contains 15)) = true := by decide +kernel

/-- Its reads have come, with the outcome given. -/
def dBm2 (ok : Bool) : Dev := { dBm1 with ports := allCame (resyncOwner 2 192) 192 .resync ok }

theorem test_LayoutKeeps_resyncBad : (∀ j < 19, (dBm2 false).cwSettled (resyncOwner 2 192) 2 192 j 15 = true) ∧ ((dBm2 false).page 0xB00).err = false ∧
    nextWith (exec (.regionResync 2 3) (st (dBm2 false))) (fun t => t.dev.resync = [(131, 1)] ∧ (t.dev.page 0xB00).errCode = 0x0105 ∧
      (t.dev.page 0xB00).info0 = 2 ∧ (t.dev.page 0xB00).info1 = 192) = true := by decide +kernel

/-! ### Read integrity (chapter 10) -/

/-- A read whose data has arrived, with what its codewords gave so far. -/
def opGot (src : OpSrc) (got : List CwGot) : POp := { opOf 1 src .running with data := true, got := got }

/-- `n` good codewords with 3 errors each. -/
def goods (n : Nat) : List CwGot := (List.range n).map (fun i => { cw := i, ok := true, step := 0, e := 3, n01 := 1, n10 := 2, hd := true })

/-- What codeword 15 gave, with 3 errors, and the step that it waits for. -/
def gotOf (ok : Bool) (step : Nat) : CwGot := { cw := 15, ok := ok, step := step, e := 3, n01 := 1, n10 := 2, hd := true }

/-- Such a read at port 3. -/
def dGot (src : OpSrc) (got : List CwGot) : Dev := dPort (portOf (opGot src got))

theorem test_DecodersReport_hard : (st (dGot .host [])).running ∧ ((dGot .host []).port 3).op? 6 = some (opGot .host []) ∧
    nextWith (exec (.hardDecodeDone 3 6 15 true true true true true 3 1 2 8) (st (dGot .host []))) (fun t =>
      ((t.dev.port 3).op? 6).map POp.got = some [(gotOf true 0)] ∧ t.dev.fld Reg.ECC_CW_L1 31 0 = 0) = true ∧
    nextWith (exec (.hardDecodeDone 3 6 15 true true true true false 3 1 2 8) (st (dGot .host []))) (fun t =>
      ((t.dev.port 3).op? 6).map POp.got = some [(gotOf false 1)] ∧ t.dev.fld Reg.ECC_CW_L1 31 0 = 1) = true := by decide +kernel

theorem test_DecodersReport_verify : (dGot .verify (goods 15)).fld Reg.ECC_RW_CTL 23 16 ≥ 3 ∧
    (∀ c ∈ goods 15, c.ok = true ∧ c.e ≤ (dGot .verify (goods 15)).fld Reg.ECC_RW_CTL 23 16) ∧
    nextWith (exec (.hardDecodeDone 3 6 15 true true true true true 3 1 2 0) (st (dGot .verify (goods 15)))) (fun t =>
      (t.dev.fpage (flashKey 3 9 7 4)).verified) = true := by decide +kernel

theorem test_DecodersReport_verifyFails : ((dGot .verify (goods 15)).page 0xA00).err = false ∧
    nextWith (exec (.hardDecodeDone 3 6 15 false true true true true 3 1 2 0) (st (dGot .verify (goods 15)))) (fun t =>
      (t.dev.page 0xA00).errCode = 0x0103 ∧ (t.dev.page 0xA00).info0 = 201 ∧ bitAt (t.dev.page 0xA00).intPend 0) = true := by decide +kernel

theorem test_DecodersReport_syndrome :
    nextWith (exec (.hardDecodeDone 3 6 15 true false true true true 3 1 2 8) (st (dGot .host []))) (fun t =>
      t.dev.hdOut = [8] ∧ t.dev.ports = (dGot .host []).ports) = true ∧
    nextWith (exec (.whiskDecodeDone 3 6 15 true false true true true 103) (st (dGot .host []))) (fun t =>
      t.dev.wkOut = [103] ∧ t.dev.ports = (dGot .host []).ports) = true := by decide +kernel

/-- A codeword waits for the soft decode of step L1, whose re-read, with tag 7, has its data. -/
def dSoft : Dev :=
  dPort { Port.reset with ops := [opGot .host [(gotOf false 1)],
    { opGot .host [] with tag := 7, re := some (6, 15, 1), soft := true }] }

theorem test_DecodersReport_soft : ([(gotOf false 1)] : List CwGot).find? (fun x => x.cw == 15 && x.step != 0) = some (gotOf false 1) ∧
    ((dSoft.port 3).ops.find? (fun y => y.re == some (6, 15, 1) && y.data)).map POp.tag = some 7 ∧
    nextWith (exec (.whiskDecodeDone 3 6 15 true true true true true 0) (st dSoft)) (fun t =>
      ((t.dev.port 3).op? 6).map POp.got = some [(gotOf false 0)]) = true ∧
    nextWith (exec (.whiskDecodeDone 3 6 15 false true true true true 0) (st dSoft)) (fun t =>
      ((t.dev.port 3).op? 6).map POp.got = some [(gotOf false 2)] ∧ t.dev.fld Reg.ECC_CW_L2 31 0 = 1) = true := by decide +kernel

/-- A chunk of band 2 programmed 65,535 ms ago and not verified, at port 5, die 1, block 2. -/
def dEarly : Dev :=
  { (dLost 0).setReg Reg.ECC_VFY_CTL 0x10005 with progd := [(chunkId 2 4 5, 4 * 1 + 1)], tick := 5000000 }

theorem test_SieveAndTracker_early : (st dEarly).running ∧ dEarly.flag Reg.ECC_VFY_CTL 16 = true ∧
    dEarly.bands.find? (fun kv => kv.2.sets.any (fun st => st.port == 5 && st.die == 1 && st.block == 2)) =
      some (2, dEarly.band 2) ∧ SMap.get (fun _ => 0) dEarly.progd (chunkId 2 4 5) / 4 = 1 ∧
    1 + dEarly.fld Reg.ECC_VFY_CTL 15 0 * 1000000 ≤ dEarly.tick + 1 ∧ dEarly.mayTake 7 128 = true ∧
    nextWith (exec (.earlyVerifyTimeout 5 1 2 4) (st dEarly)) (fun t => t.dev.dpar = [(setKey 5 1 2, [4])] ∧
      t.dev.fld Reg.ECC_VFY_EARLY 31 0 = 1) = true := by decide +kernel

/-- The sieve runs, on ECC_DAY 100. -/
def dSieve : Dev := ((dLost 0).setFlag Reg.ECC_SV_CTL 0 true).setFld Reg.ECC_DAY 15 0 100

theorem test_SieveAndTracker_begin : (st dSieve).running ∧ dSieve.flag Reg.ECC_SV_CTL 0 = true ∧ dSieve.eccHeld = false ∧ dSieve.flushing = false ∧
    dSieve.domSt 0 = 0 ∧ dSieve.dieGone 5 1 = false ∧ (dSieve.setAtPos 2 5).erased = false ∧ dSieve.stewards 2 = true ∧
    dSieve.svSeen.contains (setKey 5 1 2) = false ∧ dSieve.sievePace = true ∧ 3 ∈ sievePages false ∧
    nextWith (exec (.sieveVisit 2 5) (st dSieve)) (fun t => (t.dev.port 5).ops.map (fun o => (o.opc, o.page, o.cols)) =
      (List.range 4).map (fun q => (1, q, [0, 4, 8, 12]))) = true := by decide +kernel

/-- Its reads have their decodes. -/
def dVisited : Dev :=
  dSieve.setPort 5 (portOf { opOf 1 .sieve .running with
    owner := some (sieveOwner (setKey 5 1 2)), pos := 5, die := 1, block := 2, page := 0, data := true, cols := [0]
    got := [{ cw := 0, ok := true, step := 0, e := 3, n01 := 1, n10 := 2, hd := true }] })

theorem test_SieveAndTracker_visit : (st dVisited).running ∧ ((dVisited.port 5).ops.all POp.over) = true ∧
    nextWith (exec (.sieveVisit 2 5) (st dVisited)) (fun t => (t.dev.trkOf (setKey 5 1 2)).vday = 100 ∧ t.dev.svMoved ∧
      t.dev.flag Reg.ECC_SV_STS 0) = true := by decide +kernel

/-- Group 1 is OFF and holds a set not visited for 100 days. -/
def dWakeOld : Dev := dSieve.setDomSt 1 2

theorem test_SieveAndTracker_wake : (st dWakeOld).running ∧ dWakeOld.fld Reg.ECC_SV_CTL 27 16 ≠ 0 ∧ dWakeOld.domSt 1 ≠ 0 ∧
    (∃ kg ∈ dWakeOld.sieveSets, kg.2 = 1 ∧ dWakeOld.sieveOld kg.1 (dWakeOld.fld Reg.ECC_SV_CTL 27 16) = true) ∧
    (dWakeOld.dom 1).leaving = false ∧
    nextWith (exec (.sieveWake 1) (st dWakeOld)) (fun t => (t.dev.dom 1).waking ∧ t.dev.flag Reg.ECC_SV_STS 2 ∧
      t.dev.fld Reg.ECC_SV_WAKES 31 0 = 1) = true := by decide +kernel

theorem test_SieveAndTracker_day : nextWith (exec .eccDayAdvance (st { dSieve with tick := 86400000000000 })) (fun t => t.dev.eccDay = 101 ∧
    t.dev.dayTick = 86400000000000 ∧ t.dev.flag Reg.ECC_SV_STS 1) = true := by decide +kernel

/-- The tracker page open, an entry with a date. -/
def dTrk : Dev := (openPage devUp 0xA01).setTrk (setKey 3 9 7) { Trk.reset with vday := 5 }

theorem test_SieveAndTracker_select : (st dTrk).running ∧ dTrk.isOpen 0xA01 ∧
    nextWith (exec (.eccRlSelWrite (w32 (3 + 9 * 2 ^ 9 + 7 * 2 ^ 15))) (st dTrk)) (fun t =>
      t.dev.reg (Reg.ECC_RL_ENT 23) &&& 0xFFFF = 5) = true := by decide +kernel

/-- A die within every limit. -/
def qualOk : DieQual :=
  { planes := 4, blocks := 1, qlcPages := 3072, slcReadNs := 8000, qlcReadNs := 65000, suspendNs := 5000, slcProgNs := 400000,
    qlcProgNs := 3000000, eraseNs := 15000000, code := 0, pol := 0, disturb := 4, freshQlc := 0, freshSlc := 0, fresh := [],
    ratedQlc := 10000, ratedSlc := 100000 }

/-- Die 1 of port 3 is present. -/
def dQual : Dev := devUp.setFlag (Reg.FCH_P_DIES_LO 3) 1 true

theorem test_SieveAndTracker_qualify : (st dQual).running ∧ dQual.fresh.find (3 * 64 + 1) = none ∧ dQual.dieGone 3 1 = false ∧
    1 ∈ dQual.diesOf 3 ∧ dQual.qualFails 1 qualOk = none ∧ dQual.qualFails 1 { qualOk with disturb := 5 } = some 6 ∧
    (dQual.page 0xA02).err = false := by decide +kernel

/-! ### Stockpot and memory (chapter 12) -/

theorem test_StockpotAndSram_stack : (devUp.page 0x600).err = false ∧ devUp.paired = false ∧ devUp.mode ≤ 2 ∧
    nextWith (exec (.hbmStackFault 3 2) (st devUp)) (fun t => t.dev.flag Reg.STK_HBM_STS 7 ∧ (t.dev.page 0x600).errCode = 0x0101 ∧
      (t.dev.page 0x600).info0 = 3 ∧ (t.dev.page 0x600).info1 = 2 ∧ t.dev.dumping ∧ t.dev.stayDown) = true := by decide +kernel

/-- A unit waits for 9 pages of class 6. -/
def dWaits : Dev := { devUp with crWait := [⟨6, 9, 0, 2 ^ 19 + 5⟩] }

theorem test_StockpotAndSram_credit : (st dWaits).running ∧ dWaits.crWait.find? (fun w => w.cls == 6) = some ⟨6, 9, 0, 2 ^ 19 + 5⟩ ∧
    (∀ w ∈ dWaits.crWait, dWaits.unitGone w.unit = false) ∧ dWaits.mayTake 6 9 = true ∧ dWaits.stkStop = false ∧
    nextWith (exec (.creditGrant 6) (st dWaits)) (fun t => t.dev.crHold = [((2 ^ 19 + 5) * 16 + 6, 9)] ∧ t.dev.crWait = []) = true := by
  decide +kernel

theorem test_StockpotAndSram_ladle : devUp.flag (Reg.STK_LADLE_OUT (127 / 32)) (127 % 32) = false ∧ (devUp.page 0x602).err = false ∧
    nextWith (exec (.ladleJob 127 (.move .high) false) (st devUp)) (fun t => t.dev.flag (Reg.STK_LADLE_OUT 3) 31 ∧
      (t.dev.page 0x602).errCode = 4 ∧ (t.dev.page 0x602).info0 = 128 ∧
      t.dev.fld Reg.STK_LADLE_STS 7 0 = devUp.fld Reg.STK_LADLE_STS 7 0 - 1) = true := by decide +kernel

/-- A programmed page not verified. -/
def dAcc : Dev := { devUp with flash := [(setKey 3 9 7 * 4096 + 4, { FPage.reset with parity := true })] }

theorem test_StockpotAndSram_dpar : (st dAcc).running ∧ dAcc.fpage (setKey 3 9 7 * 4096 + 4) ≠ FPage.reset ∧ dAcc.mayTake 7 128 = true ∧
    nextWith (exec (.ladleJob 0 (.dparIn 3 9 7 4) true) (st dAcc)) (fun t => t.dev.dpar = [(setKey 3 9 7, [4])]) = true := by
  decide +kernel

theorem test_StockpotAndSram_sram : pageExists 0x600 = true ∧ (devUp.page 0x600).err = false ∧ (devUp.page 0xA03).err = false ∧
    nextWith (exec (.sramEccError 7 9 (.data 0x600 none) false) (st devUp)) (fun t => t.dev.fld Reg.ECC_ARR_CE 31 0 = 1 ∧
      t.dev.ceWords = [7 * 2 ^ 32 + 9]) = true ∧
    nextWith (exec (.sramEccError 7 9 (.data 0x600 none) false) (st { devUp with ceWords := [7 * 2 ^ 32 + 9] })) (fun t =>
      t.dev.remapped = [(7, [9])]) = true ∧
    nextWith (exec (.sramEccError 7 9 (.data 0x600 none) true) (st devUp)) (fun t => (t.dev.page 0x600).errCode = 5 ∧
      (t.dev.page 0x600).info0 = 7 ∧ (t.dev.page 0xA03).errCode = 0x0110 ∧ t.dev.fld Reg.ECC_ARR_UE 31 0 = 1) = true := by decide +kernel

theorem test_HbmAndScrubbers_errors :
    nextWith (exec (.hbmCorrected 154618822655 true) (st devUp)) (fun t => t.dev.fld Reg.ECC_HBM_CE 31 0 = 1 ∧ t.dev.fld Reg.ECC_WB_DROP 31 0 = 1 ∧
      t.dev.hbmLog = [⟨154618822655, false, false, false, 0, 0⟩]) = true ∧
    nextWith (exec (.hbmUncorrectable 154618822655 .nothing) (st devUp)) (fun t => t.dev.hbmPoison = [2415919103] ∧
      (t.dev.page 0xA03).errCode = 0x0113 ∧ (t.dev.page 0xA03).info1 = 35 ∧ t.dev.fld Reg.ECC_HBM_UE 31 0 = 1) = true := by decide +kernel

/-- An uncorrectable error logged. -/
def dRow : Dev := { devUp with hbmLog := [⟨131072, true, false, false, 0, 0⟩] }

theorem test_HbmAndScrubbers_row : (st dRow).running ∧ dRow.rowWants (rowOf 131072) = true ∧ dRow.dumping = false ∧
    dRow.fld Reg.STK_REPAIRS 31 16 < 4096 ∧ (dRow.page 0x600).err = false ∧
    nextWith (exec (.hbmRowRepair 131072 true) (st dRow)) (fun t => t.dev.fld Reg.STK_REPAIRS 15 0 = 1 ∧
      t.dev.hbmLog.all (·.repaired)) = true ∧
    nextWith (exec (.hbmRowRepair 131072 false) (st dRow)) (fun t => 2 ∈ t.dev.hbmRetired ∧ 3 ∈ t.dev.hbmRetired ∧
      (t.dev.page 0x600).errCode = 0x0104 ∧ t.dev.hbmLog.all (·.retired)) = true := by decide +kernel

/-- Both scrubbers run; the HBM lap at the line given. -/
def dScrub (n : Nat) : Dev := { devUp.setFld Reg.STK_SCR_CTL 1 0 3 with scrLine := n, tick := 7 }

theorem test_HbmAndScrubbers_scrub : (st (dScrub 0)).running ∧ (dScrub 0).flag Reg.STK_SCR_CTL 0 = true ∧ (dScrub 0).mode ≤ 1 ∧ (dScrub 0).flushing = false ∧
    nextWith (exec (.hbmScrubRead 0 false .nothing) (st (dScrub 1023))) (fun t => t.dev.scrLine = 1024 ∧ t.dev.fld Reg.STK_SCR_HBM_POS 21 0 = 1) = true ∧
    nextWith (exec (.hbmScrubRead 0 false .nothing) (st (dScrub 2415919103))) (fun t => t.dev.scrLine = 0 ∧ t.dev.scrStart = 7 ∧
      t.dev.fld Reg.STK_SCR_LAPS 15 0 = 1) = true ∧
    isNext (exec (.sramScrubRead 1 2 0 (.data 0 none) false) (st (dScrub 0))) (st (dScrub 0)) = true ∧
    nextWith (exec (.sramScrubRead 1 2 0 (.data 0 none) true) (st (dScrub 0))) (fun t => t.dev.sramStart = 7 ∧
      t.dev.fld Reg.STK_SCR_LAPS 31 16 = 1) = true := by decide +kernel

/-- The HBM lap is an hour too long. -/
def dStarved : Dev := { dScrub 0 with tick := (dScrub 0).fld Reg.STK_SCR_CTL 31 16 * 3600000000000 + 1 }

theorem test_HbmAndScrubbers_starved : (st dStarved).running ∧ dStarved.flag Reg.STK_SCR_CTL 0 = true ∧
    0 + dStarved.fld Reg.STK_SCR_CTL 31 16 * 3600000000000 < dStarved.tick ∧
    nextWith (exec .scrStarved (st dStarved)) (fun t => bitAt (t.dev.page 0x600).intPend 7) = true := by decide +kernel

/-! ### The twin link (chapter 13) -/

/-- All good lanes in the map, `n` of them, of which 16 carry data; the rest have failed. -/
def dLanes (n : Nat) : Dev :=
  ((((devUp.setFld Reg.TWN_LANE_MAP 17 0 (2 ^ 18 - 1)).setFld Reg.TWN_LINK_STS 5 1 16).setFld Reg.TWN_LINK_STS 7 6 n).setFlag
    Reg.TWN_LINK_STS 0 true)

theorem test_TwinLinkAndKeys_laneFull : (dLanes 0).flag Reg.TWN_LANE_MAP 17 = true ∧ ((dLanes 0).page 0xC00).err = false ∧
    9 ≤ (dLanes 0).lanesOn.length ∧
    nextWith (exec (.gulonLaneFail 17 1) (st (dLanes 0))) (fun t => t.dev.flag Reg.TWN_LANE_FAIL 17 ∧ !t.dev.flag Reg.TWN_LANE_MAP 17 ∧
      (t.dev.page 0xC00).errCode = 0x0100 ∧ (t.dev.page 0xC00).info0 = 17 ∧ t.dev.fld Reg.TWN_LINK_STS 5 1 = 8) = true := by decide +kernel

/-- Lane 17 is a spare. -/
def dSpare : Dev := (dLanes 1).setFld Reg.TWN_LANE_MAP 17 0 (2 ^ 17 - 1)

theorem test_TwinLinkAndKeys_spare : (∃ i < 18, dSpare.flag Reg.TWN_LANE_MAP i = false ∧ dSpare.flag Reg.TWN_LANE_FAIL i = false) ∧
    0 < dSpare.fld Reg.TWN_LINK_STS 7 6 ∧
    nextWith (exec (.gulonLaneFail 0 0) (st dSpare)) (fun t => t.dev.fld Reg.TWN_LINK_STS 7 6 = 0 ∧
      t.dev.fld Reg.TWN_LINK_STS 5 1 = 16 ∧ t.dev.flag Reg.TWN_LANE_MAP 17) = true ∧
    nextWith (exec (.gulonLaneFail 0 0) (st ((dLanes 0).setFld Reg.TWN_LINK_STS 5 1 8))) (fun t =>
      !t.dev.flag Reg.TWN_LINK_STS 0) = true := by decide +kernel

/-- The link down, pairing enabled, in a twin state. -/
def dDown (twin : Nat) : Dev :=
  ((devUp.setFlag Reg.TWN_LINK_CTL 0 true).setFlag Reg.TWN_CTL 0 true).setFld Reg.TWN_STS 3 0 twin

/-- A message of a type leaves. -/
def toldKind (t : State) (kind : Nat) : Bool :=
  told t (fun o => match o with
    | .gulon hd _ _ => hd % 256 == kind
    | _ => false)

/-- A message of a type and these fields waits for its ACK. -/
def sendsMsg (t : State) (kind : Nat) (fs : Fields) : Bool := t.dev.gPend.any (fun x => x.kind == kind && x.words == fs)

theorem test_TwinLinkAndKeys_up : (st (dDown 0)).running ∧ (dDown 0).flag Reg.TWN_LINK_STS 0 = false ∧ (dDown 0).released = true ∧
    (dDown 0).twnHeld = false ∧ (dDown 0).dumping = false ∧ (dDown 0).twin ∈ [0, 3, 4, 5, 6, 7] ∧
    nextWith (exec .gulonLinkUp (st { dDown 0 with pairKey := some 5 })) (fun t => t.dev.flag Reg.TWN_LINK_STS 0 ∧
      t.dev.fld Reg.TWN_LINK_STS 5 1 = 16 ∧ t.dev.fld Reg.TWN_LINK_STS 7 6 = 2 ∧ t.dev.twin = 1 ∧ toldKind t 0x01) = true := by decide +kernel

/-- The link up, in a twin state. -/
def dTw (twin : Nat) : Dev := (dDown twin).setFlag Reg.TWN_LINK_STS 0 true

theorem test_TwinLinkAndKeys_down : (dTw 2).flag Reg.TWN_LINK_STS 0 = true ∧
    nextWith (exec .gulonLinkDown (st (dTw 2))) (fun t => t.dev.twin = 0 ∧ !t.dev.flag Reg.TWN_LINK_STS 0 ∧
      bitAt (t.dev.page 0xC00).intPend 0) = true ∧
    nextWith (exec .gulonLinkDown (st (dTw 3))) (fun t => t.dev.twin = 3) = true := by decide +kernel

/-- Eight words of the pairing key. -/
theorem test_TwinLinkAndKeys_key : (openPage devUp 0xC00).isOpen 0xC00 := by decide +kernel

/-- A message next in order, acknowledging nothing, with no tag. -/
def gm : GMsg := { mnum := 0, ack := 2 ^ 64 - 1, keyep := 0, side := 1, inv := 0, tag := 0 }

/-- The same with the tag that a session key 9 gives it. -/
def gmT (kind : Nat) (last : Bool) (m : GMsg) (fs : Fields) : GMsg :=
  { m with tag := gTag 9 kind last m.mnum m.ack m.keyep m.side m.inv fs }

/-- The HELLO of a twin that fits, with a fence: its session key 9 under the pairing key 5. -/
def helloOf (fence : Nat) : Hello :=
  { serial := 2, ver := 2 ^ 24, fwMajor := 0, seed := 0, bandsFmt := 0, segs := 0, fence := fence, stop := 0, dumpSeq := 0,
    wkey := rfcWrap 5 4 9, wshelf := none }

/-- KEYING, with a pairing key, from a state before. -/
def dKey (prev : Nat) : Dev := { dTw 1 with gPrev := prev, pairKey := some 5, cache := [verAt .single none blkWr] }

theorem test_TwinLinkAndKeys_hello : (st (dKey 0)).running ∧ (dKey 0).canKey = true ∧ (dKey 0).linkKey = some 5 ∧
    (dKey 0).fld Reg.TWN_TX_INV 31 0 < 2 ^ 31 ∧ (dKey 0).helloCheck gm (helloOf 1) = none ∧ (dKey 0).servesOver (helloOf 1) = false ∧
    nextWith (exec (.hello gm (helloOf 1)) (st (dKey 0))) (fun t => t.dev.twin = 2 ∧ !t.dev.serves ∧ t.dev.cache = [] ∧ t.dev.sesRx = 9 ∧
      toldKind t 0x02) = true := by decide +kernel

theorem test_TwinLinkAndKeys_helloAgain : (dKey 3).helloCheck gm (helloOf 1) = none ∧
    nextWith (exec (.helloAck gm (helloOf 1)) (st (dKey 3))) (fun t => t.dev.twin = 3) = true ∧
    nextWith (exec (.hello gm (helloOf 1)) (st (dKey 2))) (fun t => t.dev.twin = 2) = true := by decide +kernel

/-- The fence of this unit is ahead: it serves. -/
def dServe : Dev := { (dKey 0).setFld Reg.TWN_STS 31 16 2 with cache := [] }

theorem test_TwinLinkAndKeys_serves : (st dServe).running ∧ dServe.servesOver (helloOf 1) = true ∧
    dServe.helloCheck gm (helloOf 1) = none ∧
    nextWith (exec (.hello gm (helloOf 1)) (st dServe)) (fun t => t.dev.twin = 2 ∧ t.dev.serves ∧ t.dev.syncEnd = some 0 ∧
      t.dev.gPend.map GSent.kind = [0x50]) = true := by decide +kernel

/-- Check 2: the session key does not unwrap.  Check 5: another number of persistent segments. -/
theorem test_TwinLinkAndKeys_mismatch : (dKey 0).helloCheck gm { helloOf 1 with wkey := 0 } = some 2 ∧
    (dKey 0).helloCheck gm { helloOf 1 with segs := 1 } = some 5 ∧ ((dKey 0).page 0xC01).err = false ∧
    nextWith (exec (.hello gm { helloOf 1 with segs := 1 }) (st (dKey 0))) (fun t => t.dev.twin = 6 ∧ t.dev.reg Reg.TWN_MISMATCH = 5 ∧
      (t.dev.page 0xC01).errCode = 0x0102 ∧ (t.dev.page 0xC01).info1 = 5) = true := by decide +kernel

/-- The count of messages under one key near its end. -/
def dInv (n : Nat) (out : Bool) : Dev := { (dTw 3).setFld Reg.TWN_TX_INV 31 0 n with rekeyOut := out }

theorem test_TwinLinkAndKeys_rekey : (st (dInv (2 ^ 31 - 2 ^ 24) false)).running ∧
    2 ^ 31 - 2 ^ 24 ≤ (dInv (2 ^ 31 - 2 ^ 24) false).fld Reg.TWN_TX_INV 31 0 ∧
    nextWith (exec .invLimit (st (dInv (2 ^ 31 - 2 ^ 24) false))) (fun t => t.dev.rekeyOut ∧ t.dev.sesTxNew.isSome ∧
      t.dev.gPend.map GSent.kind = [3]) = true ∧
    ((dInv (2 ^ 31) true).page 0xC00).err = false ∧
    nextWith (exec .invLimit (st (dInv (2 ^ 31) true))) (fun t => t.dev.twin = 1 ∧ (t.dev.page 0xC00).errCode = 0x0106) = true := by
  decide +kernel

/-- Two messages not acknowledged; the twin's session key is 9, the shelf key 6. -/
def dMsg (twin : Nat) : Dev :=
  { dTw twin with
    gTx := 2, gPend := [⟨0, 0x40, 0, true, [], true⟩, ⟨1, 0x40, 0, true, [], true⟩], tick := 3, sesRx := 9, shelf := some 6 }

theorem test_MessagesInOrder_next :
    let m := gmT 0x40 true { gm with ack := 0 } (usedFs 1 9)
    (st (dMsg 3)).running ∧ (dMsg 3).gulonIn (.heartbeat m 9 1) = some (0x40, m, true, usedFs 1 9) ∧
    (dMsg 3).listens = true ∧ (dMsg 3).tagGood 0x40 m true (usedFs 1 9) = true ∧ (∀ x ∈ (dMsg 3).gPend, x.mnum < (dMsg 3).gTx) ∧
    nextWith (exec (.heartbeat m 9 1) (st (dMsg 3))) (fun t => t.dev.gRx = 1 ∧ t.dev.gLastRx = 3 ∧
      t.dev.gPend.map GSent.mnum = [1]) = true := by decide +kernel

theorem test_MessagesInOrder_other :
    let m := gmT 0x42 true { gm with mnum := 7 } []
    (dMsg 3).tagGood 0x42 m true [] = true ∧
    nextWith (exec (.dumped m) (st (dMsg 3))) (fun t => t.dev.gRx = 0 ∧ t.dev.decided = none) = true ∧
    ((dMsg 3).page 0xC00).err = false ∧ (dMsg 3).tagGood 0x42 gm true [] = false ∧
    nextWith (exec (.dumped gm) (st (dMsg 3))) (fun t => t.dev.gRx = 0 ∧ t.dev.decided = none ∧ t.dev.twin = 1 ∧ t.dev.gPrev = 3 ∧
      t.dev.fld Reg.TWN_AUTH_FAIL 31 0 = 1 ∧ (t.dev.page 0xC00).errCode = 0x0101 ∧ (t.dev.page 0xC00).info0 = 0x42) = true := by
  decide +kernel

/-- The twin's next key, 11, under the shelf key. -/
def wkey11 : Nat := rfcWrap (dMsg 3).shelfKey 4 11

theorem test_MessagesApply_keys :
    let m := gmT 0x03 true gm (rekeyFs wkey11 1)
    (st (dMsg 3)).running ∧ (dMsg 3).recvOk 0x03 m true (rekeyFs wkey11 1) = true ∧
    rfcUnwrap (dMsg 3).shelfKey 4 wkey11 = some 11 ∧
    nextWith (exec (.rekey m wkey11) (st (dMsg 3))) (fun t => t.dev.sesRxNew = some 11 ∧ sendsMsg t 0x04 [(2, 1)]) = true := by decide +kernel

/-- REKEY awaits its answer. -/
def dRekey : Dev := { dMsg 3 with rekeyOut := true, sesTxNew := some 12 }

theorem test_MessagesApply_keyed :
    let m := gmT 0x04 true gm [(2, 1)]
    (st dRekey).running ∧ dRekey.recvOk 0x04 m true [(2, (dRekey.txEpoch + 1) % 65536)] = true ∧ dRekey.sesTxNew = some 12 ∧
    nextWith (exec (.rekeyAck m) (st dRekey)) (fun t => !t.dev.rekeyOut ∧ t.dev.sesTx = 12 ∧ t.dev.fld Reg.TWN_KEY_STS 15 0 = 1 ∧
      t.dev.fld Reg.TWN_REKEYS 31 0 = 1) = true := by decide +kernel

/-- A version with no block. -/
def mv1 : MVer := ⟨1, 2, 3, false, []⟩

theorem test_MessagesApply_mirror :
    let m := gmT 0x10 true gm (mirrorFs [mv1] JBatch.none)
    (dMsg 3).recvOk 0x10 m true (mirrorFs [mv1] JBatch.none) = true ∧
    nextWith (exec (.mirror m [mv1] JBatch.none) (st (dMsg 3))) (fun t =>
      t.dev.twinVers.map (fun v => (v.slice, v.granule, v.gver)) = [(1, 2, 3)]) = true := by decide +kernel

theorem test_MessagesApply_free :
    let d := { dMsg 3 with twinVers := [verAt .single none blkWr] }
    let m := gmT 0x13 true gm (freeFs [(1, 1, 5)])
    (st d).running ∧ d.recvOk 0x13 m true (freeFs [(1, 1, 5)]) = true ∧
    nextWith (exec (.free m [(1, 1, 5)]) (st d)) (fun t => t.dev.twinVers = []) = true := by decide +kernel

theorem test_MessagesApply_wstore :
    let m := gmT 0x14 true gm (storeFs [(0x7FFF, [1, 2])])
    (dMsg 3).recvOk 0x14 m true (storeFs [(0x7FFF, [1, 2])]) = true ∧
    nextWith (exec (.wstore m [(0x7FFF, [1, 2])]) (st (dMsg 3))) (fun t => t.window = [(0x7FFF, 1), (0x8000, 2)] ∧
      t.dev.pwTwin.map Prod.fst = [0, 1]) = true := by decide +kernel

/-- One dirty region; one band; one map entry. -/
def jbMap : JBatch := { JBatch.none with bitmaps := [⟨3, 0, 2, 8, 0, 0⟩] }
def jbBand : JBatch := { JBatch.none with bands := [(2, 4)] }
def jbDelta : JBatch := { JBatch.none with deltas := [⟨1, 2, 4 * 7⟩] }

theorem test_MessagesApply_journal : (dMsg 3).acksNothing gm ∧
    (dMsg 3).recvOk 0x12 (gmT 0x12 true gm jbMap.fs) true jbMap.fs = true ∧
    nextWith (exec (.journal (gmT 0x12 true gm jbMap.fs) jbMap) (st (dMsg 3))) (fun t => t.dev.twinRegions = [131]) = true ∧
    (dMsg 3).recvOk 0x12 (gmT 0x12 true gm jbBand.fs) true jbBand.fs = true ∧
    nextWith (exec (.journal (gmT 0x12 true gm jbBand.fs) jbBand) (st (dMsg 3))) (fun t => (t.dev.band 2).st = bandStOf 4) = true ∧
    (dMsg 3).recvOk 0x12 (gmT 0x12 true gm jbDelta.fs) true jbDelta.fs = true ∧
    nextWith (exec (.journal (gmT 0x12 true gm jbDelta.fs) jbDelta) (st (dMsg 3))) (fun t =>
      (t.dev.ent 1 2).gver = 7 ∧ (t.dev.ent 1 2).loc = (dMsg 3).locOf 28) = true := by decide +kernel

theorem test_MessagesApply_grant : (dMsg 3).twin = 3 ∧
    (dMsg 3).recvOk 0x15 (gmT 0x15 true gm (usedFs 256 40)) true (usedFs 256 40) = true ∧
    nextWith (exec (.grant (gmT 0x15 true gm (usedFs 256 40)) 256 40) (st (dMsg 3))) (fun t => t.dev.twinUsed = 40 ∧
      t.dev.fld Reg.TWN_PAGES 17 0 = min (32 * 4096) ((dMsg 3).fld Reg.TWN_PAGES 17 0 + 256)) = true ∧
    (dMsg 3).recvOk 0x40 (gmT 0x40 true gm (usedFs 0x13 9)) true (usedFs 0x13 9) = true ∧
    nextWith (exec (.heartbeat (gmT 0x40 true gm (usedFs 0x13 9)) 9 0x13) (st (dMsg 3))) (fun t => t.dev.twinState = 3 ∧ t.dev.twinPtm ∧
      t.dev.twinUsed = 9) = true := by decide +kernel

/-- This unit holds the token of port 3. -/
def dRemote : Dev := (dMsg 3).setFld (Reg.FCH_P_STS 3) 4 3 1

theorem test_MessagesApply_remoteOp :
    let fs (p : Nat) := remoteOpFs p 1 9 7 4 1 0 0 (clsNum .high)
    (st dRemote).running ∧ dRemote.twin = 3 ∧ dRemote.fld (Reg.FCH_P_STS 3) 4 3 = 1 ∧ dRemote.fld (Reg.FCH_P_STS 4) 4 3 ≠ 1 ∧
    dRemote.recvOk 0x20 (gmT 0x20 true gm (fs 3)) true (fs 3) = true ∧
    nextWith (exec (.remoteOp (gmT 0x20 true gm (fs 3)) 3 1 9 7 4 1 0 0 .high) (st dRemote)) (fun t => (t.dev.port 3).ops.map (fun o =>
      (o.forTwin, o.opc, o.die, o.block, o.page)) = [(some 0, 1, 9, 7, 4)]) = true ∧
    nextWith (exec (.remoteOp (gmT 0x20 true gm (fs 4)) 4 1 9 7 4 1 0 0 .high) (st dRemote)) (fun t =>
      sendsMsg t 0x21 (remoteDoneFs 0 1 [])) = true := by decide +kernel

/-- An operation sent to the twin as message 1. -/
def dSent (opc : Nat) : Dev :=
  { (dMsg 3).setPort 3 (portOf { opOf opc .host .running with sent := some 1 }) with
    stripeBuf := [(flashKey 3 9 7 4, { FPage.reset with slc := true })],
    flash := [(flashKey 3 9 7 5, { FPage.reset with slc := true })] }

theorem test_MessagesApply_remoteDone :
    let m := gmT 0x21 true gm (remoteDoneFs 1 0 [])
    (st (dSent 2)).running ∧ (dSent 2).recvOk 0x21 m true (remoteDoneFs 1 0 []) = true ∧ (dSent 2).acksNothing m ∧
    (dSent 2).ports.findSome? (fun kv => (kv.2.ops.find? (fun o => o.sent == some 1)).map (fun o => (kv.1, o))) =
      some (3, { opOf 2 .host .running with sent := some 1 }) ∧
    { opOf 2 .host .running with sent := some 1 } ∈ ((dSent 2).port 3).ops ∧
    nextWith (exec (.remoteDone m 1 0 []) (st (dSent 2))) (fun t => (t.dev.fpage (flashKey 3 9 7 4)).slc) = true ∧
    nextWith (exec (.remoteDone m 1 0 []) (st (dSent 3))) (fun t => t.dev.flash = []) = true := by decide +kernel

/-- A read that the command fetched first in queue 17 owns, sent as message 1. -/
def dOwned : Dev :=
  { (dMsg 3).setPort 3 (portOf { opOf 1 .host .running with sent := some 1, owner := some 0 }) with
    queues := [(17, { Queue.reset 17 with en := true, cmds := [cmdOf 3] })] }

theorem test_MessagesApply_remoteRead :
    let m := gmT 0x21 true gm (remoteDoneFs 1 0 [5])
    (st dOwned).running ∧ dOwned.recvOk 0x21 m true (remoteDoneFs 1 0 [5]) = true ∧ dOwned.ownerLives 0 = true ∧
    nextWith (exec (.remoteDone m 1 0 [5]) (st dOwned)) (fun t => (t.dev.port 3).ops.map (fun o => (o.tag, o.data)) = [(6, true)]) = true := by
  decide +kernel

/-- Its command has ended since. -/
theorem test_MessagesApply_remoteOrphan :
    let d := { dOwned with queues := [] }
    let m := gmT 0x21 true gm (remoteDoneFs 1 0 [5])
    (st d).running ∧ d.recvOk 0x21 m true (remoteDoneFs 1 0 [5]) = true ∧ d.ownerLives 0 = false ∧
    nextWith (exec (.remoteDone m 1 0 [5]) (st d)) (fun t => (t.dev.port 3).ops = []) = true := by decide +kernel

/-- No position of an empty map is erased: the reply carries no sum. -/
theorem test_MessagesApply_partial :
    let m := gmT 0x22 true gm (partialFs true 2 3 4 [])
    (dMsg 3).recvOk 0x22 m true (partialFs true 2 3 4 []) = true ∧ (dMsg 3).acksNothing m ∧
    nextWith (exec (.partial_ m true 2 3 4 []) (st (dMsg 3))) (fun t => t.dev.gPend.any (fun x => x.kind == 0x22 &&
      x.words.take 4 == [(1, 0), (4, 2), (2, 3), (1, 4)])) = true := by decide +kernel

/-- This unit leads the time. -/
def dLead : Dev := (dMsg 3).setFlag Reg.DLR_TIME_STS 4 true

/-- This unit follows. -/
def dHeed : Dev := (dMsg 3).setFlag Reg.DLR_TIME_CTL 1 true

theorem test_MessagesApply_time :
    let q := gmT 0x30 true gm [f64 7]
    let r := gmT 0x31 true gm [f64 0, f64 9000, f64 10000]
    (st dLead).running ∧ dLead.recvOk 0x30 q true [f64 7] = true ∧ dLead.flag Reg.DLR_TIME_STS 4 = true ∧
    nextWith (exec (.timeReq q 7 8) (st dLead)) (fun t => sendsMsg t 0x31 [f64 7, f64 8, f64 3000]) = true ∧
    (st dHeed).running ∧ dHeed.recvOk 0x31 r true [f64 0, f64 9000, f64 10000] = true ∧ dHeed.flag Reg.DLR_TIME_STS 4 = false ∧
    dHeed.flag Reg.DLR_TIME_CTL 1 = true ∧
    nextWith (exec (.timeRsp r 0 9000 10000 11000) (st dHeed)) (fun t => t.dev.exLast = 3 ∧ t.dev.reg Reg.DLR_TWIN_OFS = 4000) = true := by
  decide +kernel

theorem test_MessagesApply_leave :
    let m := gmT 0x41 true gm []
    (dMsg 3).recvOk 0x41 m true [] = true ∧ (dMsg 3).fld (Reg.FCH_P_STS 4) 4 3 ≠ 1 := by decide +kernel

/-- The joiner's last SYNC. -/
theorem test_MessagesApply_sync :
    let fs := syncFs [mv1] JBatch.none 0xFFFF [(5, [6])]
    let m := gmT 0x50 true gm fs
    (dMsg 2).recvOk 0x50 m true fs = true ∧ (dMsg 2).serves = false ∧ (dMsg 2).syncEnd = none ∧
    nextWith (exec (.sync m [mv1] JBatch.none 0xFFFF [(5, [6])] true) (st (dMsg 2))) (fun t => t.dev.twin = 3 ∧
      t.dev.fence = 0 ∧ t.window = [(5, 6)] ∧ t.dev.twinVers.length = 1) = true := by decide +kernel

/-- A slice as MOVE carries it. -/
def msl : MSlice :=
  { slice := 1023, st := 3, pasid := 7, blks := 64, share := 1, tshare := 0, trumpEn := false, qpMax := 16, pin := 0, hdrm := 0, sgen := 3,
    hdrmUsed := 0 }

theorem test_MessagesApply_move :
    let m := gmT 0x51 true gm (moveFs msl [] [])
    (dMsg 3).recvOk 0x51 m true (moveFs msl [] []) = true ∧
    nextWith (exec (.move m msl [] []) (st (dMsg 3))) (fun t => (t.dev.slice 1023).st = .frozen ∧
      (t.dev.slice 1023).blks = 64 ∧ (t.dev.slice 1023).sgen = 3) = true ∧
    (dMsg 3).recvOk 0x42 (gmT 0x42 true gm []) true [] = true ∧
    nextWith (exec (.dumped (gmT 0x42 true gm [])) (st (dMsg 3))) (fun t => t.dev.decided = some 3 ∧ t.dev.taking) = true ∧
    ((dMsg 3).setFld Reg.GLB_STRAP 0 0 1).side = 1 ∧
    nextWith (exec (.dumped (gmT 0x42 true gm [])) (st ((dMsg 3).setFld Reg.GLB_STRAP 0 0 1))) (fun t => t.dev.decided = some 3 ∧
      !t.dev.taking) = true := by decide +kernel

/-- One that was being cleared. -/
theorem test_MessagesApply_moveClearing :
    let x := { msl with st := SliceSt.clearing.code }
    let m := gmT 0x51 true gm (moveFs x [] [])
    (dMsg 3).recvOk 0x51 m true (moveFs x [] []) = true ∧
    nextWith (exec (.move m x [] []) (st (dMsg 3))) (fun t => (t.dev.slice 1023).st = .clearing ∧ (t.dev.slice 1023).opBusy) = true := by
  decide +kernel

/-- The copy of slice 1, granule 1, GVER 5 is to be freed. -/
def dFree : Dev := { dMsg 3 with freeQ := [(2 ^ 37 + 1) * 2 ^ 20 + 5] }

theorem test_LossAndLeaving_send : (st dFree).running ∧ dFree.paired = true ∧ dFree.twnStop = false ∧
    nextWith (exec .freeSend (st dFree)) (fun t => t.dev.freeQ = [] ∧ sendsMsg t 0x13 (freeFs [(1, 1, 5)])) = true ∧
    (dMsg 3).gLastTx + 16384 ≤ 16384 ∧
    nextWith (exec .heartbeatSend (st { dMsg 3 with tick := 16384 })) (fun t => t.dev.gPend.any (fun x => x.kind == 0x40 && x.mnum == 2)) =
      true := by decide +kernel

/-- MISS tricks of silence, on the side given. -/
def dSilent (side : Nat) : Dev :=
  { ((dMsg 3).setFld Reg.GLB_STRAP 0 0 side) with tick := bits (dMsg 3).hbCtl 15 0 * 2048 }

theorem test_LossAndLeaving_decide : (st (dSilent 1)).running ∧ (dSilent 1).paired = true ∧ (dSilent 1).decided = none ∧
    (dSilent 1).twnStop = false ∧ (dSilent 1).dumping = false ∧
    (dSilent 1).gLastRx + bits (dSilent 1).hbCtl 15 0 * 2048 ≤ (dSilent 1).tick ∧ (dSilent 1).side = 1 ∧ (dSilent 0).side = 0 ∧
    isNext (exec .twinLossDecision (st (dSilent 1))) (st { dSilent 1 with decided := some (dSilent 1).tick }) = true := by decide +kernel

/-- Decided at tick 0 on side 1, TAKE_DELAY later. -/
def dDelay : Dev := { dMsg 3 with decided := some 0, tick := bits (dMsg 3).hbCtl 31 16 * 10000 }

/-- The same on side 1. -/
def dDelay1 : Dev := dDelay.setFld Reg.GLB_STRAP 0 0 1

theorem test_LossAndLeaving_take : (st dDelay1).running ∧ dDelay1.side = 1 ∧ dDelay1.taking = false ∧
    0 + bits dDelay1.hbCtl 31 16 * 10000 ≤ dDelay1.tick ∧ dDelay1.twin ≠ 5 ∧ dDelay1.twin ≠ 4 := by decide +kernel

/-- Every take is answered. -/
def dTaken : Dev := { dMsg 3 with decided := some 2, taking := true, twinSlices := [(1023, msl)] }

theorem test_LossAndLeaving_takeover : (st dTaken).running ∧ dTaken.takes = [] ∧ dTaken.twin ≠ 5 := by decide +kernel

/-- Bring-up step 9 has waited PAIR_WAIT. -/
def dPairWait : Dev := { devUp.setStage 9 with tick := devUp.fld Reg.TWN_CTL 31 16 * 1000000000 }

theorem test_LossAndLeaving_pairWait : (st dPairWait).running ∧ dPairWait.fld Reg.GLB_DEV_STS 7 4 = 9 ∧ dPairWait.paired = false ∧
    dPairWait.pairStart + dPairWait.fld Reg.TWN_CTL 31 16 * 1000000000 ≤ dPairWait.tick ∧
    (dPairWait.setFld (Reg.FCH_P_STS 3) 4 3 2).fld (Reg.FCH_P_STS 3) 4 3 = 2 ∧ (dPairWait.page 0xC01).err = false := by decide +kernel

/-- The twin registers open. -/
def dLeave : Dev := openPage (dMsg 3) 0xC01

theorem test_LossAndLeaving_leave : (st dLeave).running ∧ dLeave.isOpen 0xC01 ∧ dLeave.slices.any (fun kv => kv.2.bound) = false ∧
    dLeave.fld Reg.TWN_TX_INV 31 0 < 2 ^ 31 ∧
    bitAt 0x00010002 1 = true ∧ bits 0x00010002 31 16 = 1 ∧ bits 0x00010002 15 2 = 0 ∧
    nextWith (exec (.twinLeave 0x00010002) (st (dLeave.setSlice 2 (slIn .active 8)))) (fun t => (t.dev.page 0xC01).errCode = 0x0103 ∧
      (t.dev.page 0xC01).info0 = 0x100 ∧ t.dev.twin = 3) = true := by decide +kernel

/-- Port 3 is this unit's, a program's data at its bridge: it is released as it drains. -/
def dLeaveBusy : Dev :=
  (dLeave.setFld (Reg.FCH_P_STS 3) 4 3 1).setPort 3 (portOf { opOf 2 .host .armed with buf := 1 })

theorem test_LossAndLeaving_leaveBusy : (st dLeaveBusy).running ∧ dLeaveBusy.isOpen 0xC01 ∧ dLeaveBusy.giving = [] ∧ dLeaveBusy.leaving = false ∧
    dLeaveBusy.slices.any (fun kv => kv.2.bound) = false ∧ dLeaveBusy.fld (Reg.FCH_P_STS 3) 4 3 = 1 ∧ dLeaveBusy.drained 3 = false := by
  decide +kernel

theorem test_LossAndLeaving_move : ((dLeave.setSlice 2 (slIn .frozen 8)).slice 2).st = .frozen ∧ bits 0x544E0002 31 16 = 0x544E ∧
    bits 0x544E0002 15 10 = 0 ∧
    nextWith (exec (.twnSlMove 0x544E0002) (st (dLeave.setSlice 2 (slIn .frozen 8)))) (fun t => (t.dev.slice 2).st = .unbound ∧
      bitAt (t.dev.page 0xC01).intPend 4 ∧ (t.dev.twinSlices.find 2).map MSlice.sgen = some 0 ∧
      t.dev.gPend.any (fun x => x.kind == 0x51)) = true ∧
    nextWith (exec (.twnSlMove 0x544E0002) (st (dLeave.setSlice 2 (slIn .active 8)))) (fun t => (t.dev.slice 2).st = .active ∧
      (t.dev.page 0xC01).errCode = 0x0103 ∧ (t.dev.page 0xC01).info1 = 0x544E0002) = true := by decide +kernel

/-! ### Power (chapter 14) -/

/-- The power page open. -/
def dPow : Dev := openPage devUp 0xD00

/-- PWR_MODE_CTL with its key, AUTO_IDLE time 1 and a target. -/
def modeWord (t : Nat) : Word := w32 (0x50570100 + t)

theorem test_ModeEntries_request : (st dPow).running ∧ dPow.isOpen 0xD00 ∧ bits (modeWord 4) 31 16 = 0x5057 ∧ bits (modeWord 4) 2 0 = 4 ∧
    bits (modeWord 4) 15 8 ≠ 0 ∧ bits (modeWord 4) 7 4 = 0 ∧ dPow.phase = 0 ∧ dPow.mode ≤ 1 ∧ dPow.modeReason 2 = 0 ∧
    dPow.modeReason 3 = 0 ∧ dPow.modeReason 4 = 0 ∧
    nextWith (exec (.sleepRequest (modeWord 2)) (st dPow)) (fun t => t.dev.phase = 1 ∧ t.dev.entryTgt = 2) = true ∧
    nextWith (exec (.deepRequest (modeWord 3)) (st dPow)) (fun t => t.dev.phase = 1 ∧ t.dev.entryTgt = 3) = true ∧
    nextWith (exec (.offRequest (modeWord 4)) (st dPow)) (fun t => t.dev.phase = 1 ∧ t.dev.entryTgt = 4) = true := by decide +kernel

/-- A rebuild runs. -/
def dBusyRb : Dev := dPow.setFlag Reg.SHF_RB_STS 0 true

theorem test_ModeEntries_refused : dBusyRb.modeReason 2 = 3 ∧ (dBusyRb.page 0xD00).err = false ∧
    nextWith (exec (.sleepRequest (modeWord 2)) (st dBusyRb)) (fun t => t.dev.phase = 0 ∧ t.dev.fld Reg.PWR_MODE_STS 15 12 = 3 ∧
      t.dev.flag Reg.PWR_MODE_STS 7 ∧ (t.dev.page 0xD00).errCode = 0x0100 ∧ (t.dev.page 0xD00).info1 = 3) = true := by decide +kernel

/-- An entry in a phase. -/
def dPhase (ph tgt : Nat) : Dev := { dPow.setPhase ph with entryTgt := tgt, bring := if tgt = 5 then some resOk else none }

theorem test_ModeEntries_phases : (dPhase 1 2).phase = 1 ∧ (dPhase 1 2).noTags = true ∧ (dPhase 1 2).pwrStop = false ∧
    (dPhase 1 2).slices.any (fun kv => decide (0 < kv.2.inflight)) = false ∧ (dPhase 2 3).pwrStop = false ∧ (dPhase 2 3).flushed = true ∧
    nextWith (exec (.entryCancel (modeWord 0)) (st (dPhase 2 3))) (fun t => t.dev.phase = 0 ∧ t.dev.entryTgt = 0) = true ∧
    nextWith (exec .quiesceDone (st (dPhase 1 2))) (fun t => t.dev.phase = 3) = true ∧
    nextWith (exec .quiesceDone (st (dPhase 1 3))) (fun t => t.dev.phase = 2) = true ∧
    nextWith (exec .flushDone (st (dPhase 2 3))) (fun t => t.dev.phase = 3) = true := by decide +kernel

theorem test_ModeEntries_commit : (dPhase 2 5).flushed = true ∧ (dPhase 3 3).portsIdle = true ∧ (dPhase 3 3).pwrStop = false ∧
    nextWith (exec .entryCommit (st (dPhase 3 2))) (fun t => t.dev.mode = 2 ∧ t.dev.phase = 0 ∧ told t (fun o => o == .vid (vidWord 140))) =
      true := by decide +kernel

/-- AUTO_IDLE. -/
def dIdle : Dev := dPow.setFlag Reg.PWR_MODE_CTL 3 true

theorem test_ModeEntries_idle : (st dIdle).running ∧ dIdle.mode = 0 ∧ dIdle.phase = 0 ∧ dIdle.flag Reg.PWR_MODE_CTL 3 = true ∧
    dIdle.dumping = false ∧ dIdle.bring = none ∧ dIdle.pwrHeld = false ∧ dIdle.slices.any (fun kv => kv.2.bound && kv.2.trumpEn) = false ∧
    nextWith (exec .idleEntry (st dIdle)) (fun t => t.dev.mode = 1 ∧ bitAt (t.dev.page 0xD00).intPend 0) = true := by decide +kernel

/-- A device in a mode; DEEP and OFF have the main rails off. -/
def dMode (m : Nat) : Dev :=
  { devUp.setFld Reg.PWR_MODE_STS 2 0 m with pgMain := decide (m < 3), enMain := decide (m < 3), aoUp := decide (m < 4) }

theorem test_WakesAndSupplies_wake : (st (dMode 2)).supplied ∧ (dMode 2).dumping = false ∧ (dMode 2).down = false ∧ (dMode 2).mode = 2 ∧ (dMode 2).phase = 0 ∧
    (1 &&& ((dMode 2).fld Reg.PWR_WAKE_EN 7 0 ||| 1)) &&& wakeMask 2 ≠ 0 := by decide +kernel

theorem test_WakesAndSupplies_deep : (st (dMode 3)).supplied ∧ (dMode 3).mode = 3 ∧ (dMode 3).bring = none ∧
    nextWith (exec (.wake 1 false resOk) (st (dMode 3))) (fun t => t.dev.enMain ∧ t.dev.bring = some resOk ∧
      t.dev.reg Reg.PWR_WAKE_STAT = 1 ∧ told t (fun o => o == .ballLevel "EN_MAIN" true)) = true ∧
    nextWith (exec (.wake 1 false resOk) (st (dMode 4))) (fun t => t.dev.out = [.ballLevel "EN_AO" true]) = true ∧
    nextWith (exec (.wake 1 false resOk) (st (dPhase 2 3))) (fun t => t.dev.phase = 0 ∧ t.dev.entryTgt = 0 ∧
      t.dev.flag Reg.PWR_MODE_STS 8 ∧ bitAt (t.dev.page 0xD00).intPend 1) = true := by decide +kernel

/-- The rails are asked for and not good yet, bring-up to follow. -/
def dRails (m : Nat) (r : BringUp) : Dev :=
  { (dMode 3).setFld Reg.PWR_MODE_STS 2 0 m with enMain := true, bring := some r, pgTry := 1, kek := some 5 }

theorem test_WakesAndSupplies_clearFails : (dRails 0 { resOk with clearFail := 4 }).mode ≠ 3 ∧
    ((dRails 0 { resOk with clearFail := 4 }).page 0x1000).err = false := by decide +kernel

theorem test_WakesAndSupplies_timeout : (dRails 0 resOk).enMain = true ∧ (dRails 0 resOk).pgMain = false ∧ (dRails 0 resOk).aoUp = true ∧
    ((dRails 0 resOk).page 0xD00).err = false ∧
    nextWith (exec .powerGoodTimeout (st (dRails 0 resOk))) (fun t => !t.dev.enMain ∧ (t.dev.page 0xD00).errCode = 0x0103 ∧
      (t.dev.page 0xD00).info1 = 1 ∧ told t (fun o => o == .ballLevel "EN_MAIN" false)) = true ∧
    nextWith (exec .pgMainRetry (st { dRails 0 resOk with enMain := false })) (fun t => t.dev.enMain ∧ t.dev.pgTry = 2 ∧
      t.dev.out = [.ballLevel "EN_MAIN" true]) = true := by decide +kernel

/-- A dump is done, the rails off. -/
def dDone2 (stay : Bool) : Dev := { dMode 3 with down := true, stayDown := stay, dumpSrc := 2 }

theorem test_WakesAndSupplies_exit : (dDone2 true).mayExit = false ∧ (dDone2 false).mayExit = true ∧ (dDone2 false).pgMain = false ∧
    isNext (exec (.dumpExit resOk) (st (dDone2 true))) (st (dDone2 true)) = true := by decide +kernel

theorem test_WakesAndSupplies_clock :
    nextWith (exec .aoCounterEdge (st { devUp with saveDue := true, tick := 9 })) (fun t => t.dev.ao = 1 ∧ !t.dev.saveDue ∧
      t.dev.timeSave.map Prod.fst = some 9) = true ∧
    nextWith (exec (.vidFrame 160) (st devUp)) (fun t => t.dev.out = [.vid (vidWord 160)]) = true := by decide +kernel

/-- Domain 63 in a state, its record given. -/
def dDom (s : Nat) (x : Dom) : Dev := (openPage ((devUp.setDomSt 63 s).setFld Reg.PWR_DSEL 5 0 63) 0xD01).setDom 63 x

theorem test_Domains_demand : (st (dDom 2 Dom.reset)).running ∧ (dDom 2 Dom.reset).followed 63 = false ∧ (dDom 2 Dom.reset).pwrHeld = false ∧ (dDom 2 Dom.reset).domSt 63 = 2 ∧
    nextWith (exec (.domainDemandWake 63 [(17, 3)]) (st (dDom 2 Dom.reset))) (fun t => (t.dev.dom 63).waking ∧
      (t.dev.dom 63).waiters = [(17, 3, 0)]) = true := by decide +kernel

/-- A domain waking, its ports out of service but one, which is ACTIVE. -/
def dWaking : Dev :=
  let d := dDom 2 { Dom.reset with waking := true, parked := true, waiters := [(17, 3, 0)] }
  (portsOf 63).foldl (fun (d : Dev) p => d.setFld (Reg.FCH_P_STS p) 2 0 (if p = 511 then 5 else 7)) d

theorem test_Domains_on : (st dWaking).running ∧ (dWaking.dom 63).waking = true ∧ dWaking.followed 63 = false ∧ dWaking.pwrStop = false ∧
    (∀ p ∈ portsOf 63, dWaking.lstate p = 7 ∨ dWaking.lstate p = 5) ∧ dWaking.lstate 511 ≠ 7 ∧
    nextWith (exec (.domainOn 63) (st dWaking)) (fun t => t.dev.domSt 63 = 0 ∧ !(t.dev.dom 63).waking ∧ (t.dev.dom 63).waiters = [] ∧
      bitAt (t.dev.page 0xD01).intPend 3 ∧ toldBridge t 511 0x0A 0 ∧ toldBridge t 511 8 (2 ^ 16)) =
      true := by decide +kernel

/-- Port 511 held by this unit, the domain at rest since tick 0 at a time. -/
def dRest (s t : Nat) : Dev := { (dDom s Dom.reset).setFld (Reg.FCH_P_STS 511) 4 3 1 with tick := t }

theorem test_Domains_ret : (st (dRest 0 10000000)).running ∧ (dRest 0 10000000).followed 63 = false ∧ (dRest 0 10000000).pwrHeld = false ∧
    (dRest 0 10000000).dumping = false ∧ (dRest 0 10000000).canLeave 63 = true ∧ (dRest 0 10000000).domSt 63 = 0 ∧
    ((dRest 0 10000000).dom 63).last + ((dRest 0 10000000).dom 63).tRet * 1000000 ≤ (dRest 0 10000000).tick ∧
    nextWith (exec (.domainTRetExpire 63) (st (dRest 0 10000000))) (fun t => (t.dev.dom 63).leaving ∧
      toldBridge t 511 0x0A 1) = true := by decide +kernel

theorem test_Domains_off : (st (dRest 1 600000000000)).running ∧ (dRest 1 600000000000).canLeave 63 = true ∧
    2 ≤ ((dRest 1 600000000000).dom 63).floor ∧ (dRest 1 600000000000).openIn 63 = false ∧
    (dRest 1 600000000000).noDpar 63 = true ∧ (dRest 1 600000000000).isDirty = false ∧
    nextWith (exec (.domainTOffExpire 63) (st (dRest 1 600000000000))) (fun t => (t.dev.dom 63).leaving ∧
      toldBridge t 511 0x0A 2) = true ∧
    nextWith (exec (.domainStepDone 63) (st (dDom 1 { Dom.reset with leaving := true }))) (fun t => t.dev.domSt 63 = 2 ∧
      !(t.dev.dom 63).leaving ∧ bitAt (t.dev.page 0xD01).intPend 3) = true := by decide +kernel

theorem test_Domains_ops : (dDom 2 Dom.reset).isOpen 0xD01 ∧ (dDom 2 Dom.reset).dsel = 63 ∧
    nextWith (exec (.domainWakeOp 0x50570001) (st (dDom 2 Dom.reset))) (fun t => (t.dev.dom 63).waking) = true ∧
    nextWith (exec (.parkOff 0x50570003) (st (dDom 1 Dom.reset))) (fun t => (t.dev.dom 63).park = 2) = true ∧
    nextWith (exec (.parkOff 0x50570003) (st (dDom 2 Dom.reset))) (fun t => (t.dev.dom 63).park = 0) = true ∧
    nextWith (exec (.parkRet 0x50570002) (st (dDom 0 Dom.reset))) (fun t => (t.dev.dom 63).park = 1) = true := by decide +kernel

theorem test_Domains_opRefused : ((dDom 0 { Dom.reset with floor := 1 }).page 0xD01).err = false ∧
    nextWith (exec (.parkOff 0x50570003) (st (dDom 0 { Dom.reset with floor := 1 }))) (fun t => (t.dev.dom 63).park = 0 ∧
      (t.dev.page 0xD01).errCode = 0x0101 ∧ (t.dev.page 0xD01).info0 = 63 ∧ (t.dev.page 0xD01).info1 = 3) = true ∧
    nextWith (exec (.pwrDomPolWrite 0x00010011) (st (dDom 0 Dom.reset))) (fun t => (t.dev.dom 63).floor = 1 ∧ (t.dev.dom 63).tRet = 1 ∧
      (t.dev.dom 63).tOff = 1) = true ∧
    nextWith (exec (.pwrDomPolWrite 0x00000011) (st (dDom 0 Dom.reset))) (fun t => (t.dev.dom 63).floor = 2 ∧
      (t.dev.page 0xD01).errCode = 0x0106 ∧ (t.dev.page 0xD01).info0 = 0x104) = true := by decide +kernel

/-- A unit in service, one domain of the dump set OFF, an entry under way. -/
def dServed : Dev := { ((devUp.setStage 9).setPhase 2).setDomSt 5 2 with entryTgt := 3 }

theorem test_PowerLossDump_start : (st dServed).running ∧ dServed.dumping = false ∧ dServed.down = false ∧ dServed.mode ≤ 2 ∧
    2 ≤ dServed.stage ∧ dServed.stopped = false ∧ dServed.bring = none ∧
    nextWith (exec .pwrFailRecognised (st dServed)) (fun t => t.dev.dumping ∧ t.dev.dumpSrc = 0 ∧ t.dev.phase = 0 ∧ t.dev.entryTgt = 0 ∧
      t.dev.fld Reg.PWR_DUMP_SEQ 31 0 = 1 ∧ t.dev.nvm.dumpStart = some (1, 1) ∧ t.dev.nvm.dumpDone = none) = true := by decide +kernel

theorem test_PowerLossDump_causes :
    nextWith (exec .vidAlert (st dServed)) (fun t => t.dev.dumping ∧ t.dev.dumpSrc = 1) = true ∧
    nextWith (exec .pgMainFall (st dServed)) (fun t => t.dev.dumping ∧ t.dev.dumpSrc = 1) = true ∧
    nextWith (exec .thermtrip (st dServed)) (fun t => t.dev.dumping ∧ t.dev.dumpSrc = 2 ∧ t.dev.stayDown ∧
      told t (fun o => o == .ballLevel "THERMTRIP_N" false)) = true := by decide +kernel

/-- A dump that runs. -/
def dDumping (src : Nat) (r : Option BringUp) : Dev :=
  { devUp.setFlag Reg.PWR_FAIL_STS 1 true with dumpSrc := src, bring := r, nvm := { NvmRec.reset with dumpStart := some (4, 1) } }

theorem test_PowerLossDump_done : (st (dDumping 0 none)).running ∧ (dDumping 0 none).dumping = true ∧ (dDumping 4 (some resOk)).dumping = true := by
  decide +kernel

/-! ### The embedded firmware flash (chapter 15) -/

/-- The host's port after `n` unlock cycles; its page open. -/
def dNv (n : Nat) : Dev := { openPage devUp 0xEFF with nHost := { NPort.reset with phase := n } }

theorem test_FlashSequences_unlock : (st (dNv 0)).supplied ∧ (dNv 0).aoUp = true ∧ (dNv 0).nvmHeld = false ∧ (dNv 0).isOpen 0xEFF ∧
    (dNv 0).released = true ∧ ((dNv 0).nPort 0).phase = 0 ∧
    (dNv 0).tick ≤ ((dNv 1).nPort 0).tick + 100000 ∧
    nextWith (exec (.unlockCycle 0 0x0A5A4 0x5A) (st (dNv 0))) (fun t => (t.dev.nPort 0).phase = 1) = true ∧
    nextWith (exec (.unlockCycle 0 0x05A58 0xA5) (st (dNv 1))) (fun t => (t.dev.nPort 0).phase = 2) = true ∧
    nextWith (exec (.unlockCycle 0 0x05A58 0xA5) (st (dNv 0))) (fun t => (t.dev.nPort 0).phase = 0 ∧
      (t.dev.page 0xEFF).errCode = 0x0100 ∧ (t.dev.page 0xEFF).info0 = 0x05A58 ∧ (t.dev.page 0xEFF).info1 = 0xA5) = true := by
  decide +kernel

/-- Page 300 × 256 lies in slot 1, which is not the active one. -/
theorem test_FlashSequences_program : (dNv 2).progOk 0 (300 * 256) = true ∧ (dNv 2).nMayWrite 0 20 = false ∧
    nextWith (exec (.programPage 0 (300 * 65536) (0x04030201 :: List.replicate 63 0xFFFFFFFF)) (st (dNv 2))) (fun t =>
      t.array = [(0x12C0000, 1), (0x12C0001, 2), (0x12C0002, 3), (0x12C0003, 4)] ∧ t.dev.nRun.map NOp.at_ = some 76800 ∧
      (t.dev.sector 300).next = 1) = true ∧
    nextWith (exec (.programPage 0 (20 * 65536) (List.replicate 64 0)) (st (dNv 2))) (fun t => t.array = [] ∧ t.dev.nRun = none ∧
      (t.dev.page 0xEFF).errCode = 0x0102 ∧ (t.dev.page 0xEFF).info0 = 20) = true := by decide +kernel

theorem test_FlashSequences_erase : (dNv 2).nMayWrite 0 511 = true ∧ (dNv 2).nRun = none ∧ (dNv 2).nSus = none ∧ (dNv 2).nMayWrite 0 0 = false ∧
    nextWith (exec (.sectorErase 0 511) (st (dNv 2))) (fun t => t.dev.nRun.map (fun o => (o.erase, o.at_)) = some (true, 511)) = true ∧
    nextWith (exec (.sectorErase 0 0) (st (dNv 2))) (fun t => t.dev.nRun = none ∧ (t.dev.page 0xEFF).errCode = 0x0102) = true := by
  decide +kernel

/-- An erase of sector 300 by the host. -/
def opEr (auto : Bool) : NOp := { port := 0, erase := true, at_ := 300, auto := auto, tick := 0 }

theorem test_FlashSequences_suspend :
    nextWith (exec (.suspend 0) (st { dNv 2 with nRun := some (opEr false) })) (fun t => t.dev.nRun = none ∧
      t.dev.nSus = some (opEr false)) = true ∧
    nextWith (exec (.resume 0) (st { dNv 2 with nSus := some (opEr false) })) (fun t => t.dev.nSus = none ∧
      t.dev.nRun = some (opEr false)) = true := by decide +kernel

theorem test_FlashSequences_modes :
    nextWith (exec (.idStatus 0) (st (dNv 2))) (fun t => (t.dev.nPort 0).idMode ∧ (t.dev.nPort 0).phase = 0) = true ∧
    nextWith (exec (.readStat 0) (st (dNv 2))) (fun t => (t.dev.nPort 0).statOne ∧ (t.dev.nPort 0).phase = 0) = true ∧
    nextWith (exec (.verifyMode 0 1) (st (dNv 2))) (fun t => (t.dev.nPort 0).pulse ∧ (t.dev.nPort 0).phase = 0) = true ∧
    nextWith (exec (.verifyMode 0 1) (st (dNv 1))) (fun t => !(t.dev.nPort 0).pulse ∧ (t.dev.nPort 0).phase = 0 ∧
      (t.dev.page 0xEFF).errCode = 0x0100) = true := by decide +kernel

theorem test_FlashSequences_reset : nextWith (exec (.nvmReset 0) (st { dNv 2 with nRun := some (opEr false) })) (fun t =>
    (t.dev.nPort 0).phase = 0 ∧ t.dev.nRun = none ∧ (t.dev.sector 300).dirty) = true := by decide +kernel

theorem test_FlashSequences_reset_program :
    nextWith (exec (.nvmReset 0) (st { dNv 2 with nRun := some { port := 0, erase := false, at_ := 70000, auto := false, tick := 0 } }))
      (fun t => (t.dev.nPort 0).phase = 0 ∧ (t.dev.nPort 0).rst ∧ t.dev.nRun.map NOp.at_ = some 70000) = true := by decide +kernel

theorem test_FlashEnds_timeout : nextWith (exec (.nvmSeqTimeout 0) (st { dNv 1 with tick := 100001 })) (fun t =>
    (t.dev.nPort 0).phase = 0 ∧ (t.dev.page 0xEFF).errCode = 0x0100) = true := by decide +kernel

/-- A program of page 70000 runs. -/
def dPg2 : Dev := { dNv 0 with nRun := some { port := 0, erase := false, at_ := 70000, auto := false, tick := 0 } }

theorem test_FlashEnds_program : (st dPg2).supplied ∧ (dPg2.page 0xEFF).err = false ∧ dPg2.nvmStop = false ∧
    nextWith (exec (.nvmProgramDone true 1) (st dPg2)) (fun t => t.dev.nRun = none ∧ !(t.dev.page 0xEFF).err) = true ∧
    nextWith (exec (.nvmProgramDone false 1) (st dPg2)) (fun t => t.dev.nRun = none ∧ (t.dev.page 0xEFF).errCode = 0x0104 ∧
      (t.dev.page 0xEFF).info0 = 70000) = true := by decide +kernel

/-- The erase runs, with two bytes of its sector and one of the next written. -/
def sErase : State :=
  { st { dNv 0 with nRun := some (opEr false) } with array := [(300 * 65536, 1), (301 * 65536 - 1, 2), (301 * 65536, 3)] }

theorem test_FlashEnds_erase : sErase.supplied ∧ sErase.dev.nvmStop = false ∧
    nextWith (exec (.nvmEraseDone false 1) sErase) (fun t => t.dev.nRun = none ∧ t.array = sErase.array ∧ (t.dev.sector 300).dirty ∧
      (t.dev.page 0xEFF).errCode = 0x0105) = true := by decide +kernel

theorem test_FlashEnds_resume : ({ dNv 0 with nSus := some (opEr false), tick := 100000000 } : Dev).nvmStop = false ∧
    nextWith (exec .nvmAutoResume (st { dNv 0 with nSus := some (opEr false), tick := 100000000 })) (fun t => t.dev.nSus = none ∧
      t.dev.nRun.map NOp.at_ = some 300) = true ∧
    nextWith (exec .nvmFetchResume (st { dNv 0 with nSus := some (opEr true), tick := 50000 })) (fun t => t.dev.nSus = none ∧
      t.dev.nRun.map NOp.at_ = some 300) = true ∧
    nextWith (exec .nvmFetchSuspend (st { dNv 0 with nRun := some (opEr false) })) (fun t => t.dev.nRun = none ∧
      t.dev.nSus = some (opEr true)) = true := by decide +kernel

/-- Window 2 of the aperture, with bytes there. -/
def sAp (idm : Bool) : State :=
  { st { devUp.setFld Reg.NVM_WIN 5 0 2 with nHost := { NPort.reset with idMode := idm } } with array := [(0x100004, 1), (0x100007, 4)] }

theorem test_FlashEnds_read : (sAp false).supplied ∧ (sAp false).dev.barUp = true ∧ (sAp false).dev.nvmHeld = false ∧
    (sAp false).dev.nHost.statOne = false ∧
    nextWith (exec (.apertureRead 4 0) (sAp false)) (fun t => t.dev.out = [.nvmData [1, 0xFF, 0xFF, 4]] ∧ !t.dev.flag Reg.NVM_RD_STS 5 ∧
      t.dev.fld Reg.NVM_RD_STS 31 8 = 0x1000) = true ∧
    nextWith (exec (.apertureRead 4 9) (sAp false)) (fun t => t.dev.flag Reg.NVM_RD_STS 5 ∧ (t.dev.page 0xEFF).errCode = 0x0103) = true ∧
    nextWith (exec (.apertureRead 4 0) (sAp true)) (fun t => t.dev.out = [.nvmData [0, 2, 0, 1]]) = true := by decide +kernel

/-- While the array programs, the read stalls; its answer comes with the program's end. -/
theorem test_FlashEnds_stalled :
    nextWith (exec (.apertureRead 4 0) { sAp false with dev := { (sAp false).dev with nRun := dPg2.nRun } }) (fun t => t.dev.out = [] ∧
      t.dev.apWait.length = 1) = true ∧
    nextWith (exec (.nvmProgramDone true 1) { sAp false with dev := { (sAp false).dev with nRun := dPg2.nRun, apWait := [(0x100004, 0)] } }) (fun t =>
      t.dev.apWait = [] ∧ t.dev.out = [.nvmData [1, 0xFF, 0xFF, 4]]) = true := by decide +kernel

theorem test_FlashEnds_boot : (dNv 0).slotDirty = false ∧ (dNv 0).nBusy 0 = false ∧
    nextWith (exec (.tryBoot 0x4E560001) (st (dNv 0))) (fun t => t.dev.flag Reg.NVM_BOOT_STS 3 ∧ t.dev.activeSlot = 0) = true ∧
    nextWith (exec (.tryBoot 0x4E560001) (st { dNv 0 with nSus := some (opEr false) })) (fun t => !t.dev.flag Reg.NVM_BOOT_STS 3 ∧
      (t.dev.page 0xEFF).errCode = 0x0108) = true ∧
    nextWith (exec (.confirm 0x4E560002) (st ({ dNv 0 with nvm := { NvmRec.reset with svn := 5 } }.setFld Reg.NVM_BOOT_STS 2 1 3))) (fun t =>
      t.dev.activeSlot = 1 ∧ !t.dev.flag Reg.NVM_BOOT_STS 2 ∧ t.dev.fld Reg.NVM_SVN_MIN 31 0 = 5) = true := by decide +kernel

/-! ### Scorepad, capture and replay (chapter 16) -/

/-- A full window of one sample. -/
def winOne : BankWin := { BankWin.empty 0 with count := 1, sum := 5, min := 5, max := 5, bins := [(1, 1)] }

/-- Bank 255 counts in windows, the running one due. -/
def dBank : Dev :=
  ((openPage devUp (Reg.SB_CFG 255 / 0x1000)).setReg (Reg.SB_CFG 255) 0x103).setFld (Reg.SB_WIN 255) 15 0 1 |>.setBank 255
    { Bank.reset with cur := winOne, running := true, groups := 1 }

theorem test_BanksAndSheet_close : (st dBank).running ∧ dBank.flag (Reg.SB_CFG 255) 0 = true ∧ dBank.flag (Reg.SB_CFG 255) 1 = true ∧
    (dBank.bank 255).closing (dBank.fld (Reg.SB_WIN 255) 15 0) = true ∧
    nextWith (exec (.windowClose 255) (st dBank)) (fun t => (t.dev.bank 255).last = winOne ∧ (t.dev.bank 255).closed = 1 ∧
      (t.dev.bank 255).groups = 0 ∧ (t.dev.bank 255).cur.count = 0) = true := by decide +kernel

/-- A bank to be published. -/
def dDue : Dev := { dBank.setBank 255 { Bank.reset with cur := winOne, lastDue := some 4 } with tick := 4 }

theorem test_BanksAndSheet_publish : (st dDue).running ∧ (dDue.bank 255).closing (dDue.fld (Reg.SB_WIN 255) 15 0) = false ∧
    nextWith (exec (.bankPublish 255) (st dDue)) (fun t => (t.dev.bank 255).pubCur = winOne ∧ (t.dev.bank 255).seq = 2 ∧
      (t.dev.bank 255).lastDue = none) = true := by decide +kernel

/-- Bank 0 with EN = 0. -/
def dCfg : Dev := openPage devUp (Reg.SB_CFG 0 / 0x1000)

theorem test_BanksAndSheet_enable : (st dCfg).running ∧ dCfg.isOpen (Reg.SB_CFG 0 / 0x1000) ∧ dCfg.flag (Reg.SB_CFG 0) 0 = false ∧
    (0x1001 : Word) &&& 0xFFE000FC = 0 ∧ dCfg.reg (Reg.SB_CFG 0) &&& 0xFFE000FC = 0 ∧
    filterOk (bits 0x1001 15 8) (dCfg.reg (Reg.SB_FILT 0)) = true ∧
    nextWith (exec (.sbCfgWrite 0 0x1001) (st { dCfg with tick := 9 })) (fun t => t.dev.reg (Reg.SB_CFG 0) = 0x1001 ∧
      (t.dev.bank 0).cur = BankWin.empty 9 ∧ (t.dev.bank 0).running) = true := by decide +kernel

theorem test_BanksAndSheet_locked : dBank.isOpen (Reg.SB_CFG 255 / 0x1000) ∧ (dBank.page (Reg.SB_CFG 255 / 0x1000)).err = false ∧
    nextWith (exec (.sbCfgWrite 255 0x203) (st dBank)) (fun t => t.dev.reg (Reg.SB_CFG 255) = 0x103 ∧ t.dev.banks = dBank.banks ∧
      (t.dev.page (Reg.SB_CFG 255 / 0x1000)).errCode = 0x0100) = true ∧
    nextWith (exec (.sbCfgWrite 255 0) (st dBank)) (fun t => t.dev.reg (Reg.SB_CFG 255) = 0x102) = true := by decide +kernel

/-- One entry on the sheet. -/
def incOne : Incident :=
  { block := 6, code := 0x0101, coarse := false, epoch := 0, tick := 5, info0 := 1, info1 := 2, slice := none, lba := none, caprec := none,
    loc := none, page := none, journaled := false }

/-- The sheet with it. -/
def dInc : Dev := { openPage devUp 0xF00 with incidents := [incOne] }

theorem test_BanksAndSheet_sheet : (st dInc).running ∧ dInc.isOpen 0xF00 ∧ dInc.pagesStop 0xF00 0xF00 = false ∧
    dInc.incidents.findIdx? (fun e => !e.journaled) = some 0 ∧
    nextWith (exec .incidentJournal (st dInc)) (fun t => t.dev.incidents = [{ incOne with journaled := true }]) = true ∧
    nextWith (exec (.scpIncClr 0x53430001) (st dInc)) (fun t => t.dev.incidents = [] ∧ t.dev.reg Reg.SCP_INC_STS = 0) = true ∧
    nextWith (exec (.scpIncClr 0x53430002) (st dInc)) (fun t => t.dev.incidents = [incOne]) = true := by decide +kernel

/-- The capture page open; a key where asked. -/
def dCap (key : Bool) : Dev :=
  { openPage devUp 0xF57 with cap := { Cap.reset with key := if key then some 5 else none } }

theorem test_CaptureAndExport_start : (st (dCap true)).running ∧ (dCap true).cap.key.isSome = true ∧ bits 0x4001 15 8 = 64 ∧ (0x4001 : Word) &&& 0xE0 = 0 ∧
    (dCap true).isOpen 0xF57 ∧ (dCap true).flag Reg.SCP_CAP_CTL 0 = false ∧
    (dCap true).reg Reg.SCP_CAP_CTL &&& 0xE0 = 0 ∧ ((dCap false).page 0xF57).err = false ∧
    nextWith (exec (.captureStart 0x4001) (st (dCap false))) (fun t => !t.dev.flag Reg.SCP_CAP_STS 0 ∧
      (t.dev.page 0xF57).errCode = 0x0100 ∧ (t.dev.page 0xF57).info0 = 0x100) = true := by decide +kernel

theorem test_CaptureAndExport_key : (st (dCap false)).running ∧ (dCap false).isOpen 0xF57 := by decide +kernel

/-- Two slots, two segments to export. -/
def dXp : Dev := ((dCap true).setFld Reg.SCP_XP_SLOTS 15 0 2).setFld Reg.SCP_XP_NSEG 16 0 2

theorem test_CaptureAndExport_export : (st dXp).running ∧ dXp.flag Reg.SCP_CAP_STS 0 = false ∧ dXp.flag Reg.SCP_XP_CTL 0 = false ∧
    nextWith (exec (.captureExportStart 1) (st dXp)) (fun t => t.dev.reg Reg.SCP_XP_STS = 1 ∧ t.dev.reg Reg.SCP_XP_PROD = 0) = true ∧
    nextWith (exec (.captureExportStart 1) (st (dXp.setFlag Reg.SCP_CAP_STS 0 true))) (fun t => !t.dev.flag Reg.SCP_XP_CTL 0 ∧
      (t.dev.page 0xF57).errCode = 0x0104) = true ∧
    nextWith (exec (.scpXpConsWrite 3) (st (dXp.setReg Reg.SCP_XP_PROD 4))) (fun t => t.dev.reg Reg.SCP_XP_CONS = 3) = true := by
  decide +kernel

/-- An export with `n` segments written. -/
def dXpRun (n : Nat) : Dev := ((dXp.setReg Reg.SCP_XP_STS 1).setReg Reg.SCP_XP_CTL 1).setReg Reg.SCP_XP_PROD (w32 n)

theorem test_CaptureAndExport_segment : (st (dXpRun 1)).running ∧ (dXpRun 1).scpStop = false ∧ (dXpRun 1).xpHead = some 0 ∧
    ((dXpRun 1).setFlag (Reg.HIF_LINK_STS 0) 0 false).xpHead = none ∧
    isNext (exec (.captureExportSegment true) (st ((dXpRun 1).setFlag (Reg.HIF_LINK_STS 0) 0 false)))
      (st ((dXpRun 1).setFlag (Reg.HIF_LINK_STS 0) 0 false)) = true ∧
    nextWith (exec (.captureExportSegment true) (st (dXpRun 1))) (fun t => t.dev.reg Reg.SCP_XP_PROD = 2 ∧ t.dev.reg Reg.SCP_XP_STS = 2 ∧
      told t (fun o => match o with
        | .captureSegment 0 1 0x100000 1 _ => true
        | _ => false) ∧ bitAt (t.dev.page 0xF57).intPend 3) = true ∧
    nextWith (exec (.captureExportSegment true) (st (dXpRun 2))) (fun t => t.dev.flag Reg.SCP_XP_STS 2 ∧ t.dev.out = []) = true ∧
    nextWith (exec (.captureExportSegment false) (st (dXpRun 1))) (fun t => !t.dev.flag Reg.SCP_XP_STS 0 ∧ t.dev.flag Reg.SCP_XP_STS 3 ∧
      (t.dev.page 0xF57).errCode = 0x0104 ∧ (t.dev.page 0xF57).info0 = 1) = true := by decide +kernel

/-- A record that fills a segment. -/
def recFull : CapRec := { kind := 0x10, src := 0, flags := 0, tick := 0, rnum := 0, epoch := 0, words := [], n := 1044392, body := 0 }

/-- Capture runs, a segment and one more record staged, the ring of one band full; WRAP as given. -/
def dRing (wrap : Bool) : Dev :=
  let d := (((dCap true).setFlag Reg.SCP_CAP_STS 0 true).setReg Reg.SCP_CAP_CTL (if wrap then 0x103 else 0x101)).setFld
    Reg.SCP_CAP_CKPT 15 0 7
  { d.set64 Reg.SCP_CAP_SEG_LO Reg.SCP_CAP_SEG_HI 1024 with cap := { d.cap with recs := [recFull, { recFull with n := 8 }], staged := 1044448, groups := 7 } }

theorem test_CaptureAndExport_ring : (st (dRing true)).running ∧ (dRing true).flag Reg.SCP_CAP_STS 0 = true ∧
    1044416 ≤ (dRing true).cap.staged ∧ (dRing true).cap.spill = false ∧ (dRing true).cap.post = none ∧
    (dRing true).scpStop = false ∧ (dRing true).scpHeld = false ∧
    (dRing true).fld Reg.SCP_CAP_CKPT 15 0 ≤ (dRing true).cap.groups ∧
    nextWith (exec .captureSegmentWrite (st (dRing true))) (fun t => t.dev.get64 Reg.SCP_CAP_SEG_LO Reg.SCP_CAP_SEG_HI = 1025 ∧
      t.dev.get64 Reg.SCP_CAP_OLDEST_LO Reg.SCP_CAP_OLDEST_HI = 1 ∧ t.dev.flag Reg.SCP_CAP_STS 0 ∧
      t.dev.cap.recs.map CapRec.n = [8] ∧ t.dev.cap.staged = 32) = true ∧
    nextWith (exec .captureSegmentWrite (st (dRing false))) (fun t => !t.dev.flag Reg.SCP_CAP_STS 0 ∧ t.dev.flag Reg.SCP_CAP_STS 4 ∧
      t.dev.flag Reg.SCP_CAP_STS 2) = true := by decide +kernel

/-- A bench device with a capture key. -/
def dBench : Dev := (dCap true).setFlag Reg.GLB_STRAP 1 true

theorem test_ReplayControl_start : (st dBench).running ∧ dBench.isOpen 0xF57 ∧ dBench.rpReason = none ∧ ((dCap true).rpReason).isSome = true ∧
    dBench.flag Reg.SCP_RP_CTL 0 = false ∧
    nextWith (exec (.replayStart 1) (st (dCap true))) (fun t => !t.dev.flag Reg.SCP_RP_CTL 0 ∧ (t.dev.page 0xF57).errCode = 0x0102) = true := by
  decide +kernel

/-- Replay runs, its checkpoint loaded or not. -/
def dRp (loaded : Bool) : Dev :=
  { ((dBench.setFlag Reg.SCP_RP_CTL 0 true).setFlag Reg.SCP_RP_STS 0 true).setReg Reg.SCP_RP_PROD 1 with
    rp := { ckpt := loaded, loaded := loaded, seen := 0 } }

/-- A record. -/
def rec_ (kind tick : Nat) (ok : Bool) : RpRecord :=
  { kind := kind, src := 17, tick := tick, rnum := 9, words := [], tagOk := ok, last := false }

theorem test_ReplayControl_controls : (dRp true).rpFence = true ∧ (dRp true).rpReady = true ∧
    nextWith (exec (.replayStart 0) (st (dRp true))) (fun t => !t.dev.rpFence ∧ !t.dev.flag Reg.SCP_RP_CTL 0) = true ∧
    nextWith (exec (.go 3) (st ((dRp true).setFlag Reg.SCP_RP_STS 1 true))) (fun t => t.dev.rpFence ∧ !t.dev.flag Reg.SCP_RP_STS 1) = true ∧
    nextWith (exec (.scpRpProdWrite 5) (st (dRp true))) (fun t => t.dev.reg Reg.SCP_RP_PROD = 5) = true := by decide +kernel

/-- The stop count is reached. -/
def dStop : Dev := { (dRp true).set64 Reg.SCP_RP_STOP_LO Reg.SCP_RP_STOP_HI 70 with tick := 70 }

theorem test_ReplayControl_pause : (st dStop).running ∧ dStop.rpFence = true ∧ dStop.flag Reg.SCP_RP_STS 1 = false ∧
    nextWith (exec .replayPause (st dStop)) (fun t => t.dev.flag Reg.SCP_RP_STS 1 ∧ bitAt (t.dev.page 0xF57).intPend 4) = true := by
  decide +kernel

theorem test_ReplayControl_inject : ((dRp true).page 0xF57).err = false ∧
    nextWith (exec (.replayInject (rec_ 5 0 false)) (st (dRp true))) (fun t => t.dev.flag Reg.SCP_RP_STS 2 ∧ t.dev.flag Reg.SCP_RP_STS 1 ∧
      (t.dev.page 0xF57).errCode = 0x0103 ∧ (t.dev.page 0xF57).info1 = 4 ∧
      t.dev.get64 Reg.SCP_RP_DIV_LO Reg.SCP_RP_DIV_HI = 9) = true ∧
    nextWith (exec (.replayInject (rec_ 1 0x77 true)) (st (dRp false))) (fun t => t.dev.tick = 0x77 ∧ t.dev.rp.ckpt ∧ !t.dev.rp.loaded) = true ∧
    isNext (exec (.replayInject (rec_ 5 1 true)) (st (dRp true))) (st (dRp true)) = true ∧
    nextWith (exec (.replayInject (rec_ 5 0 true)) (st (dRp true))) (fun t => t.dev.flag Reg.SCP_RP_STS 3) = true := by decide +kernel

theorem test_ReplayControl_compare : { dRp true with tick := 1 }.rpPosted (17 % 16384) = none ∧
    nextWith (exec (.replayInject (rec_ 0x17 0 true)) (st { dRp true with tick := 1 })) (fun t => t.dev.flag Reg.SCP_RP_STS 2 ∧ (t.dev.page 0xF57).info1 = 3) =
      true := by decide +kernel

/-! ### Bring-up, release and test (chapter 17, format) -/

theorem test_SupplyAndTap_aoRise : State.reset.dev.aoUp = false := by decide +kernel

theorem test_SupplyAndTap_aoFall : (st devUp).supplied ∧ devUp.aoUp = true ∧
    isNext (exec (.pgAoRise true true true resOk) (st devUp)) (st devUp) = true ∧
    nextWith (exec .pgAoFall (st devUp)) (fun t => !t.dev.aoUp ∧ !t.dev.enMain ∧ t.dev.supplyLost) = true ∧
    nextWith (exec .pgAoFall (st { devUp with pgMain := false })) (fun t => !t.dev.aoUp ∧ !t.dev.supplyLost) = true := by decide +kernel

theorem test_SupplyAndTap_tapClosed : devUp.flag Reg.TST_SEC_STS 0 = false ∧
    isNext (exec (.tapInstruction .extest 9) (st devUp)) (st devUp) = true ∧
    isNext (exec (.tapInstruction .scan 9) (st devUp)) (st devUp) = true ∧
    nextWith (exec (.tapInstruction .idcode 0x1FE) (st devUp)) (fun t => t.dev.fld Reg.TST_TAP_STS 7 0 = 0xFE ∧ t.dev.released) = true := by
  decide +kernel

/-- The secrets are cleared. -/
def dTap : Dev := devUp.setFlag Reg.TST_SEC_STS 0 true

theorem test_SupplyAndTap_tapHold : tapBoundary .extest = true ∧ dTap.flag Reg.TST_SEC_STS 0 = true ∧ dTap.flag Reg.TST_TAP_STS 8 = false ∧
    (dTap.page 0x1000).err = false ∧
    nextWith (exec (.tapInstruction .extest 9) (st dTap)) (fun t => t.dev.flag Reg.TST_TAP_STS 8 ∧ t.dev.hold = 2 ∧ !t.dev.released ∧
      (t.dev.page 0x1000).errCode = 0x0105 ∧ (t.dev.page 0x1000).info0 = 9) = true := by decide +kernel

/-- A boundary instruction holds bring-up at step 2. -/
def dTapHeld : Dev := ((dTap.setFlag Reg.TST_TAP_STS 8 true).setHold 2).setStage 2

theorem test_SupplyAndTap_tapReset : dTapHeld.flag Reg.TST_TAP_STS 8 = true ∧
    nextWith (exec (.tapTestLogicReset resOk) (st dTapHeld)) (fun t => !t.dev.flag Reg.TST_TAP_STS 8 ∧ t.dev.fld Reg.TST_TAP_STS 7 0 = 0 ∧
      t.dev.hold = 0) = true := by decide +kernel

/-- Step 8 stands, `held` ports held by the twin. -/
def dEight (held : Nat) : Dev := { (devUp.setFlag Reg.GLB_DEV_STS 0 false).setStage 8 with bring := some { resOk with portsHeld := held } }

theorem test_ReleaseAndReady_release : (st (dEight 0)).running ∧ (dEight 0).bring = some { resOk with portsHeld := 0 } ∧
    (dEight 0).stage = 8 ∧ (dEight 0).stopped = false ∧ (dEight 0).hold = 0 ∧ (dEight 0).stayDown = false ∧ (dEight 0).mode = 0 := by
  decide +kernel

theorem test_ReleaseAndReady_heldPorts : (st (dEight 3)).running ∧ (dEight 3).stage = 8 ∧ (dEight 3).stopped = false ∧ (dEight 3).hold = 0 ∧
    (dEight 3).stayDown = false ∧ (dEight 3).mode = 0 ∧ (dEight 3).flag Reg.TWN_LINK_STS 0 = false ∧ ((dEight 3).page 0xC01).err = false ∧
    nextWith (exec .release (st (dEight 3))) (fun t => !t.dev.released ∧ t.dev.hold = 1 ∧ (t.dev.page 0xC01).errCode = 0x0104 ∧
      (t.dev.page 0xC01).info0 = 3) = true := by decide +kernel

/-- Band 2 was OPEN, its one stripe verified: the chunk of role 0 holds version 7 of granule 2 of slice 1. -/
def granS : Gran := { slice := 1, granule := 2, gver := 7, pad := false, blks := [] }
def dScan : Dev :=
  { devUp.setStage 9 with
    scanPend := true, scanBands := [2], bands := [(2, { Band.reset with st := .closed, next := 1, sets := setsLost 0 })]
    flash := (List.range 19).map (fun j => (flashKey j 1 2 0,
      { FPage.reset with verified := true, half0 := if j = posOfRole 0 0 then some granS else none })) }

/-- Where that is. -/
def scanLoc : Loc := ⟨false, posOfRole 0 0, 1, 2, 0, 0, 2, 0, posOfRole 0 0⟩

theorem test_ReleaseAndReady_scan : (st dScan).running ∧ dScan.stage = 9 ∧ scanLoc ∈ dScan.scanPlaces 2 ∧
    dScan.granAt scanLoc = some granS ∧ gverNewer 7 (dScan.ent 1 2).gver = true ∧ dScan.paired = false ∧
    nextWith (exec .openBandScan (st dScan)) (fun t => !t.dev.scanPend ∧ t.dev.ent 1 2 = { gver := 7, loc := some scanLoc }) = true := by
  decide +kernel

/-- The entry is as new already; or the unit is paired, and the change waits for the twin. -/
theorem test_ReleaseAndReady_scanOld : gverNewer 7 ({ gver := 7, loc := none } : MapEnt).gver = false ∧
    nextWith (exec .openBandScan (st (dScan.putEnt 1 2 { gver := 7, loc := none }))) (fun t => !t.dev.scanPend ∧
      t.dev.ent 1 2 = { gver := 7, loc := none }) = true ∧ (dScan.setFld Reg.TWN_STS 3 0 3).paired = true ∧
    nextWith (exec .openBandScan (st (dScan.setFld Reg.TWN_STS 3 0 3))) (fun t =>
      t.dev.mapPend.map (fun y => (y.slice, y.granule, y.gver, y.loc)) = [(1, 2, 7, some scanLoc)] ∧ t.dev.ent 1 2 = dScan.ent 1 2) = true := by
  decide +kernel

/-- Step 9 done: alone with slots lost, or paired. -/
def dNine (paired : Bool) : Dev :=
  if paired then (devUp.setStage 9).setFld Reg.TWN_STS 3 0 3 else { devUp.setStage 9 |>.setFlag Reg.TWN_STS 4 true with lostSlots := 2 }

theorem test_ReleaseAndReady_ready : (st (dNine false)).running ∧ (dNine false).stage = 9 ∧ (dNine false).released = true ∧
    (dNine false).tstStop = false ∧ (dNine false).scanPend = false ∧ (dNine false).hold ≠ 2 ∧ (dNine false).flag Reg.TWN_STS 4 = true ∧ 0 < (dNine false).lostSlots ∧
    ((dNine false).page 0x1000).err = false ∧
    nextWith (exec .ready (st (dNine false))) (fun t => t.dev.flag Reg.TST_BRG_STS 5 ∧ t.dev.stage = 10 ∧ t.dev.hold = 0 ∧
      t.dev.lostSlots = 0 ∧ bitAt (t.dev.page 0x1000).intPend 0 ∧ (t.dev.page 0x1000).errCode = 0x0104 ∧
      (t.dev.page 0x1000).info0 = 2) = true := by decide +kernel

theorem test_FormatAndCores_format : (st devUp).running ∧ devUp.dumping = false := by decide +kernel

theorem test_FormatAndCores_core : 67 < 68 ∧ 67 ∉ devUp.coresOut ∧ 67 ∉ devUp.coresHit ∧
    nextWith (exec (.firmwareCoreFail 67 false) (st devUp)) (fun t => t.dev.coresHit = [67] ∧ t.dev.coresOut = []) = true ∧
    nextWith (exec (.firmwareCoreFail 67 true) (st devUp)) (fun t => t.dev.coresOut = [67]) = true ∧
    nextWith (exec (.firmwareCoreFail 67 false) (st { devUp with coresHit := [67] })) (fun t => t.dev.coresOut = [67]) = true := by
  decide +kernel

/-- SHA-384 of the empty message. -/
def emptyDigest : List Nat :=
  [0x38, 0xB0, 0x60, 0xA7, 0x51, 0xAC, 0x96, 0x38, 0x4C, 0xD9, 0x32, 0x7E, 0xB1, 0xB1, 0xE3, 0x6A, 0x21, 0xFD, 0xB7, 0x11, 0x14, 0xBE, 0x07, 0x43,
   0x4C, 0x0C, 0xC7, 0xBF, 0x63, 0xF6, 0xE1, 0xDA, 0x27, 0x4E, 0xDE, 0xBF, 0xE7, 0x6F, 0x65, 0xFB, 0xD5, 0x1A, 0xD2, 0xF1, 0x48, 0x98, 0xB9, 0x5B]

theorem test_sha384 : sha384 [] = emptyDigest := by decide +kernel

/-- Slot 0 with the header of an image of no bytes. -/
def imgEmpty : Memory :=
  Memory.writeList arrayDflt (Memory.writeList arrayDflt [] (slotBase 0) ([0x49, 0x57, 0x46, 0x4C, 1, 0, 0, 0] ++ List.replicate 12 0))
    (slotBase 0 + 0x40) (emptyDigest.map (BitVec.ofNat 8))

/-- R458 in its order: the whole image, its signature, its SVN, its magic. -/
theorem test_imageCheck : imageCheck imgEmpty 0 0 [] 1 = 0 ∧ imageCheck imgEmpty 0 0 [] 2 = 4 ∧ imageCheck imgEmpty 0 1 [] 1 = 5 ∧
    imageCheck imgEmpty 1 0 [] 3 = 1 := by decide +kernel

/-! ### The whole machine -/

/-- A command waits, both memories hold something. -/
def sWhole : State :=
  { State.reset with dev := devUp, array := [(0x100000, 0x12)], window := [(8, 0x34)], pending := [.glbTimeRead] }

theorem test_CommandsKeepTheQueue : nextWith (exec .glbTimeRead sWhole) (fun t => t.pending == [.glbTimeRead]) = true := by decide +kernel

/-- The outcome is a fault for want of a supply. -/
def noSupply (o : Host.Outcome State Fault Refusal) : Bool :=
  match o with
  | .fault .undefinedSupply => true
  | _ => false

/-- PG_AO fell with the main rails up. -/
def dDead : Dev := { devUp with supplyLost := true, aoUp := false, pgMain := false, enMain := false }

theorem test_NoSupplyNoEffect_lost : boardRow .release = false ∧ dDead.supplyLost = true ∧
    noSupply (exec .release (st dDead)) = true ∧ noSupply (exec (.format 1 (0, 0, 0)) (st dDead)) = true ∧
    noSupply (exec (.intEnWrite 0 1) (st dDead)) = true := by decide +kernel

theorem test_NoSupplyNoEffect_off : Dev.reset.supplyLost = false ∧ Dev.reset.aoUp = false ∧ Dev.reset.pgMain = false ∧
    isNext (exec .pgAoFall State.reset) State.reset = true ∧ isNext (exec (.cryOpInvalid 1) State.reset) State.reset = true ∧
    isNext (exec (.registerWrite ⟨0, .bar0, false, 0, 4, 1⟩) State.reset) State.reset = true := by decide +kernel

theorem test_StoresStayInPlace_array : storesArray (.programPage 0 (300 * 65536) (0x04030201 :: List.replicate 63 0xFFFFFFFF)) = true ∧
    nextWith (exec (.programPage 0 (300 * 65536) (0x04030201 :: List.replicate 63 0xFFFFFFFF)) { sWhole with dev := dNv 2 }) (fun t =>
      Memory.read arrayDflt t.array 0x100000 = Memory.read arrayDflt sWhole.array 0x100000 ∧
      Memory.read arrayDflt t.array 0x12C0000 = 1 ∧ t.window == sWhole.window) = true := by decide +kernel

theorem test_StoresStayInPlace_none : storesArray .glbTimeRead = false ∧ storesWindow .glbTimeRead = false ∧
    nextWith (exec .glbTimeRead sWhole) (fun t => t.array == sWhole.array ∧ t.window == sWhole.window) = true := by decide +kernel

theorem test_MemoriesStayCanonical : sWhole.memWf := by decide +kernel

/-- Any state holds some boot loader: the bytes it reads there. -/
theorem test_BootSectorsKeep : sWhole.bootHolds (fun a => Memory.read arrayDflt sWhole.array a) := fun _ _ => rfl


end Sys2Proof.Tests
end

section
/-! The refused writes of CTL (R42, R45, R48, R50): what such a write leaves in the page's header, whichever of the four rows carries it. -/

namespace Sys2Proof.Machine

/-! ### The four fields of CTL (R46) -/

/-- Two headers hold the same CTL: EN, SOFT_RST, FREEZE and ISOLATE agree. -/
def Page.SameCtl (q p : Page) : Prop := q.en = p.en ∧ q.softRst = p.softRst ∧ q.freeze = p.freeze ∧ q.isolate = p.isolate

theorem Page.SameCtl.refl (p : Page) : p.SameCtl p := ⟨rfl, rfl, rfl, rfl⟩

theorem Page.SameCtl.trans {p q r : Page} (h : p.SameCtl q) (h' : q.SameCtl r) : p.SameCtl r := by
  obtain ⟨he, hs, hf, hi⟩ := h
  obtain ⟨he', hs', hf', hi'⟩ := h'
  exact ⟨he.trans he', hs.trans hs', hf.trans hf', hi.trans hi'⟩

/-! ### Errors in a header (R45) -/

section Headers

variable (d : Dev)

/-- After an error the header holds one. -/
@[simp] theorem Dev.err_recordErr (pg code i0 i1 : Nat) : ((d.recordErr pg code i0 i1).page pg).err = true := by
  cases h : (d.page pg).err with
  | false => rw [Dev.page_recordErr_first d _ _ _ _ h]
  | true => rw [Dev.page_recordErr_later d _ _ _ _ h]; exact h

theorem Dev.recordErr_sameCtl (pg code i0 i1 : Nat) : ((d.recordErr pg code i0 i1).page pg).SameCtl (d.page pg) := by
  cases h : (d.page pg).err with
  | false => rw [Dev.page_recordErr_first d _ _ _ _ h]; exact Page.SameCtl.refl _
  | true => rw [Dev.page_recordErr_later d _ _ _ _ h]; exact Page.SameCtl.refl _

/-- A value that sets no RSVD bit records nothing. -/
theorem Dev.headRsvd_of_clear (pg rel : Nat) {v rsv : Word} (h : v &&& rsv = 0) : d.headRsvd pg rel v rsv = d := by
  simp [Dev.headRsvd, h]

/-- The check of the RSVD bits changes page headers only. -/
theorem Dev.headRsvd_eq (pg rel : Nat) (v rsv : Word) :
    d.headRsvd pg rel v rsv = { d with pages := (d.headRsvd pg rel v rsv).pages } := by
  unfold Dev.headRsvd
  split
  · exact Dev.recordErr_eq d _ _ _ _
  · rfl

theorem Dev.headRsvd_sameCtl (pg rel : Nat) (v rsv : Word) : ((d.headRsvd pg rel v rsv).page pg).SameCtl (d.page pg) := by
  unfold Dev.headRsvd
  split
  · exact Dev.recordErr_sameCtl d _ _ _ _
  · exact Page.SameCtl.refl _

/-- A header that holds an error keeps its code and first information word through the check of the RSVD bits. -/
theorem Dev.headRsvd_keeps_error (pg rel : Nat) (v rsv : Word) (h : (d.page pg).err = true) :
    ((d.headRsvd pg rel v rsv).page pg).errCode = (d.page pg).errCode ∧ ((d.headRsvd pg rel v rsv).page pg).info0 = (d.page pg).info0 := by
  unfold Dev.headRsvd
  split
  · rw [Dev.page_recordErr_later d _ _ _ _ h]
    exact ⟨rfl, rfl⟩
  · exact ⟨rfl, rfl⟩

/-! ### How the write arrives (R50, R474) -/

/-- A page that locks keeps the rest of its header. -/
theorem Dev.page_lockPage (pg : Nat) : (d.lockPage pg).page pg = { d.page pg with unlocked := false } := by
  simp only [Dev.lockPage]
  split
  · exact Dev.page_setPage_self d pg _
  · exact Dev.page_setPage_self d pg _

/-- A write settles the page's lock as it stood when the write arrived, and starts its time anew. -/
theorem Dev.page_touchPage (pg : Nat) :
    (d.touchPage pg).page pg = { d.page pg with unlocked := d.unlocked pg, lastWr := d.tick } := by
  have htick : (d.lockPage pg).tick = d.tick := by
    simp only [Dev.lockPage]
    split <;> rfl
  by_cases hexp : ((d.page pg).unlocked && !d.unlocked pg) = true
  · have hu : d.unlocked pg = false := by simpa using (Bool.and_eq_true_iff.mp hexp).2
    rw [Dev.touchPage, if_pos hexp, Dev.page_setPage_self, Dev.page_lockPage, htick, hu]
  · have hu : d.unlocked pg = (d.page pg).unlocked := by
      cases hp : (d.page pg).unlocked with
      | false => simp [Dev.unlocked, hp]
      | true => simpa [hp] using hexp
    rw [Dev.touchPage, if_neg hexp, Dev.page_setPage_self, hu]

/-- The device when a write of the page's CTL has been captured and has renewed the page's lock time. -/
def Dev.ctlArrived (pg : Nat) (v : Word) : Dev := (d.capWrite 0 (pg * 0x1000 + 0x10) v).touchPage pg

theorem Dev.page_ctlArrived (pg : Nat) (v : Word) :
    (d.ctlArrived pg v).page pg = { d.page pg with unlocked := d.unlocked pg, lastWr := d.tick } := by
  rw [Dev.ctlArrived, Dev.page_touchPage, Dev.unlocked_capWrite, Dev.capWrite_eq]
  rfl

theorem Dev.pageBusy_headRsvd (pg rel : Nat) (v rsv : Word) (b : Nat) : (d.headRsvd pg rel v rsv).pageBusy b = d.pageBusy b := by
  rw [Dev.headRsvd_eq]
  rfl

theorem Dev.pageBusy_ctlArrived (pg : Nat) (v : Word) (h : d.unlocked pg = true) : (d.ctlArrived pg v).pageBusy pg = d.pageBusy pg := by
  rw [Dev.ctlArrived, Dev.touchPage_unlocked _ _ ((Dev.unlocked_capWrite d _ _ _ _).trans h), Dev.capWrite_eq]
  rfl

/-! ### The refused write -/

/-- A write of CTL to a locked page records error 0x0002 and, of RSVD bits, 0x0001, and does nothing else (R42, R50). -/
theorem ctlWrite_locked (pg : Nat) (v : Word) (hr : d.reaches pg) (hu : d.unlocked pg = false) :
    ctlWrite pg v d = ((d.ctlArrived pg v).recordErr pg 0x0002 0x10 0).headRsvd pg 0x10 v 0xFFFFFFF0 := by
  have hpg : (pg * 0x1000 + 0x10) / 0x1000 = pg := by omega
  rw [ctlWrite, pageWrite_reaches d _ v _ (by rw [hpg]; exact hr) (by omega), hpg, hu]
  simp [Dev.ctlArrived]

/-- A write of CTL to an unlocked page that sets ISOLATE or SOFT_RST while EN is 1, before or in the write, or the page is busy, records
error 0x0003 and, of RSVD bits, 0x0001, and does nothing else (R48). -/
theorem ctlWrite_refused (pg : Nat) (v : Word) (hr : d.reaches pg) (hu : d.unlocked pg = true)
    (hset : bitAt v 1 = true ∨ bitAt v 3 = true) (hblock : (d.page pg).en = true ∨ bitAt v 0 = true ∨ d.pageBusy pg = true) :
    ctlWrite pg v d = ((d.ctlArrived pg v).headRsvd pg 0x10 v 0xFFFFFFF0).recordErr pg 0x0003 v.toNat 0 := by
  have hpg : (pg * 0x1000 + 0x10) / 0x1000 = pg := by omega
  have hen : (((d.ctlArrived pg v).headRsvd pg 0x10 v 0xFFFFFFF0).page pg).en = (d.page pg).en := by
    obtain ⟨hen, -⟩ := Dev.headRsvd_sameCtl (d.ctlArrived pg v) pg 0x10 v 0xFFFFFFF0
    rw [hen, Dev.page_ctlArrived]
  have hbusy : ((d.ctlArrived pg v).headRsvd pg 0x10 v 0xFFFFFFF0).pageBusy pg = d.pageBusy pg := by
    rw [Dev.pageBusy_headRsvd, Dev.pageBusy_ctlArrived d pg v hu]
  have hrefuse : ((bitAt v 1 || bitAt v 3) && ((d.page pg).en || bitAt v 0 || d.pageBusy pg)) = true := by
    simpa [or_assoc] using And.intro hset hblock
  rw [ctlWrite, pageWrite_reaches d _ v _ (by rw [hpg]; exact hr) (by omega), hpg, hu, ← Dev.ctlArrived]
  simp only [if_true, hen, hbusy, hrefuse, Bool.not_true, Bool.false_eq_true, if_false]

/-- What a write of CTL to a locked page leaves in the page's header. -/
theorem page_ctlWrite_locked (pg : Nat) (v : Word) (hr : d.reaches pg) (hu : d.unlocked pg = false) :
    ((ctlWrite pg v d).page pg).SameCtl (d.page pg) ∧
    ((d.page pg).err = false → ((ctlWrite pg v d).page pg).errCode = 0x0002 ∧ ((ctlWrite pg v d).page pg).info0 = 0x10) := by
  have harr := Dev.page_ctlArrived d pg v
  rw [ctlWrite_locked d pg v hr hu]
  constructor
  · refine (Dev.headRsvd_sameCtl _ _ _ _ _).trans ((Dev.recordErr_sameCtl _ _ _ _ _).trans ?_)
    rw [harr]
    exact Page.SameCtl.refl _
  · intro herr
    obtain ⟨hcode, hinfo⟩ := Dev.headRsvd_keeps_error ((d.ctlArrived pg v).recordErr pg 0x0002 0x10 0) pg 0x10 v 0xFFFFFFF0
      (Dev.err_recordErr _ _ _ _ _)
    rw [hcode, hinfo, Dev.page_recordErr_first _ _ _ _ _ (by rw [harr]; exact herr)]
    exact ⟨rfl, rfl⟩

/-- What a write of CTL that R48 refuses leaves in the page's header, when the value sets no RSVD bit: one error more. -/
theorem page_ctlWrite_refused (pg : Nat) (v : Word) (hr : d.reaches pg) (hu : d.unlocked pg = true)
    (hset : bitAt v 1 = true ∨ bitAt v 3 = true) (hblock : (d.page pg).en = true ∨ bitAt v 0 = true ∨ d.pageBusy pg = true) :
    ((ctlWrite pg v d).page pg).SameCtl (d.page pg) ∧ ((ctlWrite pg v d).page pg).err = true ∧
    ((d.page pg).err = false → v &&& 0xFFFFFFF0 = 0 →
      ((ctlWrite pg v d).page pg).errCode = 0x0003 ∧ ((ctlWrite pg v d).page pg).info0 = v) ∧
    ((d.page pg).err = true → v &&& 0xFFFFFFF0 = 0 →
      ((ctlWrite pg v d).page pg).overflow = satN 16 ((d.page pg).overflow + 1) ∧
      ((ctlWrite pg v d).page pg).errCode = (d.page pg).errCode) := by
  have harr := Dev.page_ctlArrived d pg v
  rw [ctlWrite_refused d pg v hr hu hset hblock]
  refine ⟨?_, Dev.err_recordErr _ _ _ _ _, ?_, ?_⟩
  · refine (Dev.recordErr_sameCtl _ _ _ _ _).trans ((Dev.headRsvd_sameCtl _ _ _ _ _).trans ?_)
    rw [harr]
    exact Page.SameCtl.refl _
  · intro herr hclear
    rw [Dev.headRsvd_of_clear _ _ _ hclear, Dev.page_recordErr_first _ _ _ _ _ (by rw [harr]; exact herr)]
    exact ⟨rfl, by simp [w32]⟩
  · intro herr hclear
    rw [Dev.headRsvd_of_clear _ _ _ hclear, Dev.page_recordErr_later _ _ _ _ _ (by rw [harr]; exact herr), harr]
    exact ⟨rfl, rfl⟩

end Headers

/-! ### The four rows that write CTL -/

/-- CTL_EN, SOFT_RST, FREEZE and ISOLATE all write CTL, and nothing else of the machine than the device moves. -/
theorem exec_ctlRows (s : State) (pg : Nat) (v : Word) (hrun : s.running) :
    exec (.ctlEn pg v) s = .next { s with dev := ctlWrite pg v s.dev } ∧
    exec (.softRst pg v) s = .next { s with dev := ctlWrite pg v s.dev } ∧
    exec (.freeze pg v) s = .next { s with dev := ctlWrite pg v s.dev } ∧
    exec (.isolate pg v) s = .next { s with dev := ctlWrite pg v s.dev } := by
  obtain ⟨hsup, -, hmain⟩ := hrun
  exact ⟨act_next s (doCtlEn pg v) hsup hmain, act_next s (doSoftRst pg v) hsup hmain, act_next s (doFreeze pg v) hsup hmain,
    act_next s (doIsolate pg v) hsup hmain⟩

/-- Settles O4: every row runs `ctlWrite`, which a lock and R48's refusal each reduce to recording errors on the page as the write
found it. -/
theorem controlWriteRefused : Obligations.ControlWriteRefused := by
  intro s pg v hrun hreach p keeps all
  have hrows := exec_ctlRows s pg v hrun
  constructor
  · intro hu hset hblock
    exact ⟨_, hrows, page_ctlWrite_refused s.dev pg v hreach hu hset hblock⟩
  · intro hu
    exact ⟨_, hrows, page_ctlWrite_locked s.dev pg v hreach hu⟩

end Sys2Proof.Machine
end

section
/-! Doorbell values out of range (R101): the refused write records one error and sets DB_ERR, whichever doorbell it came to, and the end of
a queue reset clears DB_ERR, also when a slice reset's cut follows it at once. -/

namespace Sys2Proof.Machine

section Doorbells

variable (d : Dev)

/-! ### Queues (what an update of one queue leaves) -/

/-- A queue reads as it was set, its stall clock set to follow the new counters (Table CQE-9). -/
theorem Dev.queue_setQueue_self (qid : Nat) (q : Queue) :
    (d.setQueue qid q).queue qid = { q with stallTick := if q.en && q.stalled then some (q.stallTick.getD d.tick) else none } :=
  SMap.get_set_self _ _ _ _

theorem Dev.queue_setQueue_ne {qid k : Nat} (h : k ≠ qid) (q : Queue) : (d.setQueue qid q).queue k = d.queue k :=
  SMap.get_set_ne _ _ _ _ _ h

@[simp] theorem Dev.page_setQueue (qid : Nat) (q : Queue) (pg : Nat) : (d.setQueue qid q).page pg = d.page pg := rfl

/-- A queue is read from the queue table only. -/
theorem Dev.queue_congr {d e : Dev} (h : e.queues = d.queues) (k : Nat) : e.queue k = d.queue k := by
  simp only [Dev.queue, h]

/-- A queue set without touching DB_ERR changes DB_ERR of no queue. -/
theorem Dev.dbErr_setQueue {qid : Nat} {q : Queue} (h : q.dbErr = (d.queue qid).dbErr) (k : Nat) :
    ((d.setQueue qid q).queue k).dbErr = (d.queue k).dbErr := by
  by_cases hk : k = qid
  · subst hk
    rw [Dev.queue_setQueue_self, h]
  · rw [Dev.queue_setQueue_ne d hk]

/-! ### What leaves the queue table -/

@[simp] theorem Dev.queues_recordErr (pg code i0 i1 : Nat) : (d.recordErr pg code i0 i1).queues = d.queues := by
  rw [Dev.recordErr_eq]

@[simp] theorem Dev.queues_raise0 (pg bit : Nat) : (d.raise0 pg bit).queues = d.queues := by rw [Dev.raise0_eq]

@[simp] theorem Dev.queues_raise (pg bit : Nat) : (d.raise pg bit).queues = d.queues := by rw [Dev.raise_eq]

@[simp] theorem Dev.queues_capRec (kind src : Nat) (fs : Fields) : (d.capRec kind src fs).queues = d.queues := by rw [Dev.capRec_eq]

@[simp] theorem Dev.page_capRec (kind src : Nat) (fs : Fields) (pg : Nat) : (d.capRec kind src fs).page pg = d.page pg := by
  rw [Dev.capRec_eq]
  rfl

@[simp] theorem Dev.queues_toRun : d.toRun.queues = d.queues := by
  unfold Dev.toRun
  split
  · simp [Dev.setMode, Dev.setBias]
  · rfl

/-- The return from IDLE raises MODE_CHG in the PWR header and leaves every other header. -/
theorem Dev.page_toRun {pg : Nat} (h : pg ≠ 0xD00) : d.toRun.page pg = d.page pg := by
  unfold Dev.toRun
  split
  · simp [Dev.setMode, Dev.setBias, Dev.page_raise0_ne _ h]
  · rfl

/-! ### The refused doorbell write (R101) -/

/-- What R101 leaves of a device `d` when the write of `v` to a doorbell of queue `qid` is refused. -/
def Dev.DoorbellIgnored (qid : Nat) (v : Word) (e : Dev) : Prop :=
  (e.queue qid).dbErr = true ∧ (e.queue qid).sqTail = (d.queue qid).sqTail ∧
  (e.queue qid).cqHead = (d.queue qid).cqHead ∧ (e.queue qid).sqHead = (d.queue qid).sqHead ∧
  (e.queue qid).cqPosted = (d.queue qid).cqPosted ∧ (e.queue qid).cmds = (d.queue qid).cmds ∧
  (e.queue qid).held = (d.queue qid).held ∧ (∀ k, k ≠ qid → e.queue k = d.queue k) ∧
  ((d.page 0x200).err = false → (e.page 0x200).err = true ∧ (e.page 0x200).errCode = 0x0100 ∧
    (e.page 0x200).info0 = w32 qid ∧ (e.page 0x200).info1 = v) ∧
  ((d.page 0x200).err = true → (e.page 0x200).errCode = (d.page 0x200).errCode ∧
    (e.page 0x200).overflow = satN 16 ((d.page 0x200).overflow + 1))

theorem Dev.queue_dbError_self (qid : Nat) (v : Word) :
    (d.dbError qid v).queue qid = (d.setQueue qid { d.queue qid with dbErr := true }).queue qid :=
  Dev.queue_congr (by simp [Dev.dbError]) qid

theorem Dev.queue_dbError_ne {qid k : Nat} (h : k ≠ qid) (v : Word) : (d.dbError qid v).queue k = d.queue k :=
  (Dev.queue_congr (by simp [Dev.dbError]) k).trans (Dev.queue_setQueue_ne d h { d.queue qid with dbErr := true })

/-- The CQE header after a refused doorbell write: R45's record of the error, with the event DB_ERR latched. -/
theorem Dev.page_dbError (qid : Nat) (v : Word) :
    ∃ pend, (d.dbError qid v).page 0x200 =
      { ((d.setQueue qid { d.queue qid with dbErr := true }).recordErr 0x200 0x0100 qid v.toNat).page 0x200 with intPend := pend } :=
  ⟨_, Dev.intPend_raise _ 0x200 0 (by decide)⟩

/-- Two states of a queue agree but for the doorbell registers as last written and the stall clock. -/
def Queue.SameRing (p q : Queue) : Prop := p = { q with tailWr := p.tailWr, headWr := p.headWr, stallTick := p.stallTick }

theorem Queue.SameRing.fields {p q : Queue} (h : p.SameRing q) :
    p.en = q.en ∧ p.resetting = q.resetting ∧ p.sqHead = q.sqHead ∧ p.cqPosted = q.cqPosted ∧ p.cqHead = q.cqHead := by
  rw [h]
  exact ⟨rfl, rfl, rfl, rfl, rfl⟩

/-- Device `a` is `d` after a doorbell write to queue `qid` that has not moved its ring: the other queues and the CQE header agree. -/
structure Dev.OnlyLatched (qid : Nat) (a : Dev) : Prop where
  ring : (a.queue qid).SameRing (d.queue qid)
  others : ∀ k, k ≠ qid → a.queue k = d.queue k
  header : a.page 0x200 = d.page 0x200

theorem Dev.OnlyLatched.dbError_ignored {d a : Dev} {qid : Nat} (h : d.OnlyLatched qid a) (v : Word) :
    d.DoorbellIgnored qid v (a.dbError qid v) := by
  obtain ⟨hring, hothers, hheader⟩ := h
  have hself := Dev.queue_dbError_self a qid v
  rw [Dev.queue_setQueue_self, hring] at hself
  obtain ⟨pend, hhead⟩ := Dev.page_dbError a qid v
  refine ⟨by rw [hself], by rw [hself], by rw [hself], by rw [hself], by rw [hself], by rw [hself], by rw [hself],
    fun k hk => (Dev.queue_dbError_ne a hk v).trans (hothers k hk), fun herr => ?_, fun herr => ?_⟩
  · rw [hhead, Dev.page_recordErr_first _ _ _ _ _ (by rw [Dev.page_setQueue, hheader, herr])]
    exact ⟨rfl, rfl, rfl, by simp [w32]⟩
  · rw [hhead, Dev.page_recordErr_later _ _ _ _ _ (by rw [Dev.page_setQueue, hheader, herr]), Dev.page_setQueue, hheader]
    exact ⟨rfl, rfl⟩

/-- The device when a doorbell write has been captured and has woken the firmware; `port` is 0 for the tail, 1 for the head. -/
def Dev.doorbellArrived (qid port : Nat) (v : Word) : Dev := (d.capRec 0x12 qid [(1, port), (2, bits v 15 0)]).toRun

theorem Dev.queue_doorbellArrived (qid port : Nat) (v : Word) (k : Nat) : (d.doorbellArrived qid port v).queue k = d.queue k :=
  Dev.queue_congr (by simp [Dev.doorbellArrived]) k

/-- Setting the doorbell registers of the queue after the write has arrived moves no ring. -/
theorem Dev.onlyLatched_setQueue (qid port : Nat) (v : Word) {q : Queue} (hq : q.SameRing (d.queue qid)) :
    d.OnlyLatched qid ((d.doorbellArrived qid port v).setQueue qid q) where
  ring := by
    rw [Dev.queue_setQueue_self, hq]
    rfl
  others k hk := (Dev.queue_setQueue_ne _ hk q).trans (Dev.queue_doorbellArrived d qid port v k)
  header := by rw [Dev.page_setQueue, Dev.doorbellArrived, Dev.page_toRun _ (by decide), Dev.page_capRec]

/-- The device when a tail doorbell has latched the value written. -/
def Dev.tailLatched (qid : Nat) (v : Word) : Dev :=
  (d.doorbellArrived qid 0 v).setQueue qid { (d.doorbellArrived qid 0 v).queue qid with tailWr := w32 (bits v 15 0) }

/-- The device when a head doorbell has latched the value written. -/
def Dev.headLatched (qid : Nat) (v : Word) : Dev :=
  (d.doorbellArrived qid 1 v).setQueue qid { (d.doorbellArrived qid 1 v).queue qid with headWr := w32 (bits v 15 0) }

theorem Dev.onlyLatched_tailLatched (qid : Nat) (v : Word) : d.OnlyLatched qid (d.tailLatched qid v) :=
  Dev.onlyLatched_setQueue d qid 0 v (by rw [Dev.queue_doorbellArrived]; rfl)

theorem Dev.onlyLatched_headLatched (qid : Nat) (v : Word) : d.OnlyLatched qid (d.headLatched qid v) :=
  Dev.onlyLatched_setQueue d qid 1 v (by rw [Dev.queue_doorbellArrived]; rfl)

/-- Doorbell writes reach their queues: replay does not fence them, and the controller is released, in no device reset and in RUN, IDLE or
SLEEP. -/
structure Dev.TakesDoorbells : Prop where
  rpFence : d.rpFence = false
  released : d.released = true
  resetRun : d.resetRun = false
  mode : d.mode ≤ 2

/-- No check before a doorbell's own drops the write. -/
theorem Dev.TakesDoorbells.undropped {d : Dev} (h : d.TakesDoorbells) : (!d.released || d.resetRun || decide (2 < d.mode)) = false := by
  simp [h.released, h.resetRun, h.mode]

end Doorbells

section Refused

variable {d : Dev} {sl qp : Nat} {v : Word}

/-- SQ_TAIL_DB refuses a tail past 32 unfetched entries. -/
theorem doSqTailDbWrite_refused (htakes : d.TakesDoorbells) (hsl : sl < 1024) (hqp : qp < 16)
    (hen : (d.queue (16 * sl + qp)).en = true) (hreset : (d.queue (16 * sl + qp)).resetting = false)
    (hst : (d.slice sl).st ∈ [SliceSt.active, .freezing, .frozen])
    (hrange : 32 < (bits v 15 0 + 65536 - (d.queue (16 * sl + qp)).sqHead) % 65536) :
    doSqTailDbWrite sl qp v d = (d.tailLatched (16 * sl + qp) v).dbError (16 * sl + qp) v := by
  obtain ⟨hen', hreset', hhead', -, -⟩ := (Dev.onlyLatched_tailLatched d (16 * sl + qp) v).ring.fields
  have hserves : ((d.slice sl).st == .unbound || (d.slice sl).st == .clearing || (d.slice sl).st == .resetting) = false := by
    simp only [List.mem_cons, List.not_mem_nil, or_false] at hst
    rcases hst with h | h | h <;> rw [h] <;> rfl
  have htaken : ((d.slice sl).st == .unbound || (d.slice sl).st == .clearing || (d.slice sl).st == .resetting ||
      ((d.tailLatched (16 * sl + qp) v).queue (16 * sl + qp)).resetting ||
      !((d.tailLatched (16 * sl + qp) v).queue (16 * sl + qp)).en) = false := by
    rw [hserves, hreset', hreset, hen', hen]
    rfl
  rw [← hhead'] at hrange
  rw [doSqTailDbWrite, Nat.mod_eq_of_lt hsl, Nat.mod_eq_of_lt hqp, htakes.rpFence, htakes.undropped, if_neg Bool.false_ne_true,
    if_neg Bool.false_ne_true]
  exact (if_neg (ne_true_of_eq_false htaken)).trans (if_pos hrange)

/-- CQ_HEAD_DB refuses a head past the entries posted. -/
theorem doCqHeadDbWrite_refused (htakes : d.TakesDoorbells) (hsl : sl < 1024) (hqp : qp < 16)
    (hen : (d.queue (16 * sl + qp)).en = true) (hst : (d.slice sl).st ∈ [SliceSt.active, .freezing, .frozen, .resetting])
    (hrange : ((d.queue (16 * sl + qp)).cqPosted + 65536 - (d.queue (16 * sl + qp)).cqHead) % 65536 <
      (bits v 15 0 + 65536 - (d.queue (16 * sl + qp)).cqHead) % 65536) :
    doCqHeadDbWrite sl qp v d = (d.headLatched (16 * sl + qp) v).dbError (16 * sl + qp) v := by
  obtain ⟨hen', -, -, hposted', hhead'⟩ := (Dev.onlyLatched_headLatched d (16 * sl + qp) v).ring.fields
  have htaken : ((d.slice sl).st == .unbound || (d.slice sl).st == .clearing ||
      !((d.headLatched (16 * sl + qp) v).queue (16 * sl + qp)).en) = false := by
    rw [hen', hen]
    simp only [List.mem_cons, List.not_mem_nil, or_false] at hst
    rcases hst with h | h | h | h <;> rw [h] <;> rfl
  rw [← hposted', ← hhead'] at hrange
  rw [doCqHeadDbWrite, Nat.mod_eq_of_lt hsl, Nat.mod_eq_of_lt hqp, htakes.rpFence, htakes.undropped, if_neg Bool.false_ne_true,
    if_neg Bool.false_ne_true]
  exact (if_neg (ne_true_of_eq_false htaken)).trans (if_pos hrange)

end Refused

/-! ### The cut of a slice reset leaves DB_ERR -/

section Cut

variable (d : Dev)

/-- A step that is taken or not leaves the queue table when it does so taken. -/
theorem Dev.queues_ite {c : Prop} [Decidable c] {a b : Dev} (h : a.queues = b.queues) : (if c then a else b).queues = b.queues := by
  split
  · exact h
  · rfl

theorem Dev.queues_revalid : d.revalid.queues = d.queues := rfl

theorem Dev.queues_dropVers (p : Ver → Bool) : (d.dropVers p).queues = d.queues := by
  simp only [Dev.dropVers]
  split
  · rfl
  · split <;> rfl

theorem Dev.queues_putGulon (kind mnum : Nat) (last : Bool) (fs : Fields) : (d.putGulon kind mnum last fs).queues = d.queues := by
  simp only [Dev.putGulon]
  split
  · rfl
  · split <;> rfl

theorem Dev.queues_sendGulon (kind : Nat) (fs : Fields) : (d.sendGulon kind fs).queues = d.queues := by
  simp only [Dev.sendGulon, Dev.sendPart]
  split
  · exact Dev.queues_ite (Dev.queues_putGulon d _ _ _ _)
  · rfl

theorem Dev.queues_journal (b : JBatch) : (d.journal b).queues = d.queues :=
  Dev.queues_ite (Dev.queues_sendGulon d _ _)

theorem Dev.queues_setKept (s : Nat) (x : Slice) : (d.setKept s x).queues = d.queues :=
  Dev.queues_ite (Dev.queues_journal (d.setSlice s x) _)

theorem Dev.queues_unmerge (s g gv : Nat) : (d.unmerge s g gv).queues = d.queues := by
  simp only [Dev.unmerge]
  split
  · rfl
  · exact Dev.queues_ite (Dev.queues_sendGulon _ _ _)

/-- Operations folded over a list leave the queue table when each does. -/
theorem Dev.queues_foldl {α : Type} (f : Dev → α → Dev) (l : List α) (h : ∀ e x, (f e x).queues = e.queues) :
    (l.foldl f d).queues = d.queues :=
  List.foldlRecOn (motive := fun e : Dev => e.queues = d.queues) l f rfl (fun e he x _ => (h e x).trans he)

/-- The end of a write without success undoes it outside the queues (R119). -/
theorem Dev.queues_onFail (qid : Nat) (c : Cmd) : (d.onFail qid c).queues = d.queues := by
  simp only [Dev.onFail]
  refine (Dev.queues_ite (Dev.queues_setKept _ _ _)).trans ?_
  refine (Dev.queues_ite (Dev.queues_revalid _)).trans ?_
  refine (Dev.queues_foldl _ _ _ fun e _ => Dev.queues_unmerge e _ _ _).trans ?_
  exact Dev.queues_dropVers _ _

theorem Dev.dbErr_squash (qid : Nat) (p : Cmd → Bool) (k : Nat) : ((d.squash qid p).queue k).dbErr = (d.queue k).dbErr := by
  rw [Dev.squash, Dev.queue_congr (Dev.queues_foldl _ _ _ fun e c => ?_) k]
  · exact Dev.dbErr_setQueue d (by rfl) k
  · split
    · exact Dev.queues_onFail e qid c
    · rfl

theorem Dev.dbErr_discardUnfetched (qid k : Nat) : ((d.discardUnfetched qid).queue k).dbErr = (d.queue k).dbErr :=
  Dev.dbErr_setQueue d (by rfl) k

/-- The cut squashes and discards (R150, R151), queue by queue, and clears no DB_ERR and sets none. -/
theorem Dev.dbErr_sliceCut (s k : Nat) : ((d.sliceCut s).queue k).dbErr = (d.queue k).dbErr := by
  simp only [Dev.sliceCut]
  refine List.foldlRecOn (motive := fun e : Dev => (e.queue k).dbErr = (d.queue k).dbErr) _ _ ?_ (fun e he qid _ => ?_)
  · rw [Dev.queue_congr (Dev.queues_setKept d s _)]
  · rw [Dev.dbErr_discardUnfetched, Dev.dbErr_squash, he]

/-! ### The end of a queue reset (R130, R131) -/

theorem Dev.dbErr_resetDone (qid status : Nat) : ((d.resetDone qid status).queue qid).dbErr = false := by
  rw [Dev.resetDone, Dev.queue_setQueue_self]

/-- A queue reset that may end clears DB_ERR. -/
theorem dbErr_doQueueResetDrained {d : Dev} {qid : Nat} (hqid : qid < 16384) (hreset : (d.queue qid).resetting = true)
    (hroom : (d.queue qid).resetRoom = true) (hcut : d.cutRuns (qid / 16) = false) (hhead : d.sliceHead (qid / 16) ≠ none) :
    ((doQueueResetDrained qid d).queue qid).dbErr = false := by
  have hends : (!(d.queue qid).resetting || d.cutRuns (qid / 16) || (d.sliceHead (qid / 16)).isNone || !(d.queue qid).resetRoom) = false := by
    simp [hreset, hroom, hcut, Option.isSome_iff_ne_none, hhead]
  simp only [doQueueResetDrained, Nat.mod_eq_of_lt hqid, hends, Bool.false_eq_true, if_false]
  split
  · rw [Dev.dbErr_sliceCut, Dev.dbErr_resetDone]
  · exact Dev.dbErr_resetDone _ qid stSquashed

end Cut

/-! ### The three rows -/

/-- A command to the controller's main part runs while the supplies stand. -/
theorem act_of_running (s : State) (f : Dev → Dev) (hrun : s.running) : act s f = .next { s with dev := f s.dev } := by
  obtain ⟨hsup, -, hmain⟩ := hrun
  exact act_next s f hsup hmain

/-- Settles O15: each refused write is `dbError` on a device whose ring has not moved, and the reset's last step clears DB_ERR, which the
cut of a slice reset that waited for it leaves clear. -/
theorem doorbellsOutOfRange : Obligations.DoorbellsOutOfRange := by
  intro s sl qp v hrun hsl hqp hreleased hresetRun hmode hfence qid q ignored
  have htakes : s.dev.TakesDoorbells := ⟨hfence, hreleased, hresetRun, hmode⟩
  refine ⟨fun hen hreset hst hrange => ?tail, fun hen hst hrange => ?head, fun hreset hroom hst hhead => ?drained⟩
  case tail =>
    refine ⟨_, act_of_running s (doSqTailDbWrite sl qp v) hrun, ?_⟩
    rw [doSqTailDbWrite_refused htakes hsl hqp hen hreset hst hrange]
    exact (Dev.onlyLatched_tailLatched s.dev qid v).dbError_ignored v
  case head =>
    refine ⟨_, act_of_running s (doCqHeadDbWrite sl qp v) hrun, ?_⟩
    rw [doCqHeadDbWrite_refused htakes hsl hqp hen hst hrange]
    exact (Dev.onlyLatched_headLatched s.dev qid v).dbError_ignored v
  case drained =>
    have hsl' : qid / 16 = sl := by simp only [qid]; omega
    have hcut : s.dev.cutRuns sl = false := by simp [Dev.cutRuns, hst]
    exact ⟨_, act_of_running s (doQueueResetDrained qid) hrun,
      dbErr_doQueueResetDrained (by simp only [qid]; omega) hreset hroom (hsl' ▸ hcut) (hsl' ▸ hhead)⟩

end Sys2Proof.Machine
end

section
/-! What a command does beside the device: the queue keeps, and each byte memory takes the stores of its row and no others (R75, R84, R397,
R409, R438, R445, R450, R451, R486).  Every row but four runs in one of the frames of `Machine/Ops.lean`. -/

namespace Sys2Proof.Machine

-- In order, one declaration at a time: keeps the check within its memory limit.
set_option Elab.async false

/-! ### The stores of each row -/

/-- The runs of bytes that a row stores into the flash array, if it stores. -/
def arrayStores (c : Instr) (d : Dev) : List (Nat × List Byte) :=
  match c with
  | .registerWrite a => accessStore a d
  | .unlockCycle p off value => d.nStepStore (p % 2) (off / 4 * 4) (value % 2 ^ 32)
  | .programPage p addr data =>
    if data.length = 64 && d.nReady (p % 2) && d.progOk (p % 2) (addr % 0x2000000 / 256) then
      [(addr % 0x2000000 / 256 * 256, wordBytes (data.map (fun w => w % 2 ^ 32)))] else []
  | .nvmEraseDone pass _ =>
    match d.nRun with
    | some o => if o.erase && pass && !d.nvmStop then [(o.at_ * 65536, List.replicate 65536 erasedByte)] else []
    | none => []
  | .pgAoRise _ _ _ _ => d.nvmTorn
  | .replayInject r => d.rpArray r
  | _ => []

/-- The runs of bytes that a row stores into the persistent window, if it stores. -/
def windowStores (c : Instr) (d : Dev) : List (Nat × List Byte) :=
  match c with
  | .pwinStore head off bytes => if d.storeOk head off bytes.length then [(off, bytes)] else []
  | .wstore m stores => if d.recvOk 0x14 m true (storeFs stores) then stores else []
  | .sync m vers b fence bytes last =>
    if d.recvOk 0x50 m last (syncFs vers b fence bytes) && d.twin == 2 && !d.serves then bytes else []
  | .replayInject r => d.rpWindow r
  | .pgAoRise side bench dies64 _ => ((d.supplied side bench dies64).headsDown.lostGranules d.nvm.stopOf).map (lostBytes d.draws)
  | .dumpExit _ => if d.mayExit then (d.headsDown.lostGranules d.nvm.stopOf).map (lostBytes d.draws) else []
  | .resetNRecognised _ =>
    if decide (2 ≤ d.stage) && d.restarts then
      ((d.resetNStart.setEnMain false).headsDown.lostGranules d.resetNStart.nvm.stopOf).map (lostBytes d.resetNStart.draws)
    else []
  | _ => []

/-! ### The frames -/

/-- The frames in which a command to the controller runs, with what it may store into the array and into the window. -/
inductive RowFrame (s : State) : Host.Outcome State Fault Refusal → List (Nat × List Byte) → List (Nat × List Byte) → Prop
  | main (f : Dev → Dev) : RowFrame s (act s f) [] []
  | ao (f : Dev → Dev) : RowFrame s (actAo s f) [] []
  | array {l : List (Nat × List Byte)} (f : Memory → Dev → Dev) (g : Memory → Dev → List (Nat × List Byte)) (h : l = g s.array s.dev) :
    RowFrame s (actArray s f g) l []
  | window {l : List (Nat × List Byte)} (f : Memory → Dev → Dev) (g : Memory → Dev → List (Nat × List Byte)) (h : l = g s.window s.dev) :
    RowFrame s (actWindow s f g) [] l
  | aoWindow {l : List (Nat × List Byte)} (f : Dev → Dev) (g : Dev → List (Nat × List Byte)) (h : l = g s.dev) :
    RowFrame s (actAoWindow s f g) [] l

/-- The commands of the embedded flash run in the array's frame. -/
theorem RowFrame.flash {s : State} {l : List (Nat × List Byte)} (f : Dev → Dev) (g : Dev → List (Nat × List Byte)) (h : l = g s.dev) :
    RowFrame s (actFlash s f g) l [] :=
  .array _ _ h

/-- Rows in a form of their own: they act without VAO, or on both memories, or empty the window. -/
def ownForm : Instr → Bool
  | .pgAoRise _ _ _ _ | .wake _ _ _ | .replayInject _ | .format _ _ => true
  | _ => false

/-- Every other row to the controller runs in one of the frames, with its own stores. -/
theorem exec_rowFrame (s : State) (c : Instr) (hboard : boardRow c = false) (hown : ownForm c = false) :
    RowFrame s (exec c s) (arrayStores c s.dev) (windowStores c s.dev) := by
  cases c
  case registerWrite a =>
    show RowFrame s (execRegisterWrite a s) (accessStore a s.dev) []
    unfold execRegisterWrite
    split
    · exact .array _ _ rfl
    · rename_i h
      rw [accessStore, if_neg (fun hc => h ⟨hc.1, hc.2.1, hc.2.2.1⟩)]
      exact .main _
  case pgAoRise | wake | replayInject | format => cases hown
  case dieRead | dieProgram | dieErase | dieSuspend | dieResume | dieStatus | setOffsets | ownTake | ownRelease | bridgePower | laneTest |
    pdata | armConfirmCut | trickMark | markMiss => cases hboard
  case pwinLoad | pwinStore | pwinWriteback | hello | helloAck | wstore | sync => dsimp only [exec]; exact .window _ _ rfl
  case dumpExit | resetNRecognised => dsimp only [exec]; exact .aoWindow _ _ rfl
  case unlockCycle | programPage | suspend | nvmReset | nvmProgramDone | nvmEraseDone | nvmFetchSuspend =>
    dsimp only [exec]; exact .flash _ _ rfl
  case apertureRead => dsimp only [exec]; exact .array _ _ rfl
  case nvmSeqTimeout | sectorErase | resume | idStatus | readStat | verifyMode | nvmAutoResume | nvmFetchResume | tryBoot | confirm |
    mctpMessage | pgMainRise | powerGoodTimeout | pgMainRetry | pwrFailRecognised | thermtrip | aoCounterEdge | pgAoFall | tapInstruction |
    tapTestLogicReset | i3cDynamicAddress => exact .ao _
  all_goals exact .main _

section Frames

variable {s t : State} {o : Host.Outcome State Fault Refusal} {la lw : List (Nat × List Byte)}

/-- A next state of a framed row: the queue keeps, each memory keeps or takes the row's stores. -/
theorem RowFrame.next (hf : RowFrame s o la lw) (h : o = .next t) :
    t.pending = s.pending ∧ (t.array = s.array ∨ t.array = storeArray s.array la) ∧
    (t.window = s.window ∨ t.window = storeWindow s.window lw) := by
  cases hf with
  | main f => obtain ⟨d, rfl⟩ := act_inv s f t h; exact ⟨rfl, .inl rfl, .inl rfl⟩
  | ao f => obtain ⟨d, rfl⟩ := actAo_inv s f t h; exact ⟨rfl, .inl rfl, .inl rfl⟩
  | array f g hl =>
    subst hl
    simp only [actArray] at h
    split at h
    · cases h
    · split at h <;> cases h
      · exact ⟨rfl, .inr rfl, .inl rfl⟩
      · exact ⟨rfl, .inl rfl, .inl rfl⟩
  | window f g hl =>
    subst hl
    simp only [actWindow] at h
    split at h
    · cases h
    · split at h <;> cases h
      · exact ⟨rfl, .inl rfl, .inr rfl⟩
      · exact ⟨rfl, .inl rfl, .inl rfl⟩
  | aoWindow f g hl =>
    subst hl
    simp only [actAoWindow] at h
    split at h
    · cases h
    · split at h <;> cases h
      · exact ⟨rfl, .inl rfl, .inr rfl⟩
      · exact ⟨rfl, .inl rfl, .inl rfl⟩

/-- With the supply lost under way a framed row ends the machine (R542). -/
theorem RowFrame.fault (hf : RowFrame s o la lw) (hlost : s.dev.supplyLost = true) : o = .fault .undefinedSupply := by
  cases hf <;> simp only [act, actAo, actAny, actArray, actWindow, actAoWindow, hlost, if_true]

/-- Without any supply a framed row changes nothing. -/
theorem RowFrame.off (hf : RowFrame s o la lw) (hlost : s.dev.supplyLost = false) (hao : s.dev.aoUp = false)
    (hmain : s.dev.pgMain = false) : o = .next s := by
  cases hf <;> simp only [act, actAo, actAny, actArray, actWindow, actAoWindow, hlost, hao, hmain, Bool.false_eq_true, if_false]

end Frames

/-! ### Every row -/

/-- A next state of any command: the queue keeps, each memory keeps or takes the row's stores, but FORMAT may empty the window. -/
theorem exec_next {c : Instr} {s t : State} (h : exec c s = .next t) :
    t.pending = s.pending ∧ (t.array = s.array ∨ t.array = storeArray s.array (arrayStores c s.dev)) ∧
    (t.window = s.window ∨ t.window = storeWindow s.window (windowStores c s.dev) ∨ ((∃ n bm, c = .format n bm) ∧ t.window = [])) := by
  cases hboard : boardRow c with
  | true =>
    have hdev : ∃ d, t = { s with dev := d } := by
      cases c
      case dieRead | dieProgram | dieErase | dieSuspend | dieResume | dieStatus | setOffsets | ownTake | ownRelease | bridgePower |
        laneTest | pdata | armConfirmCut | trickMark | markMiss => exact actBoard_inv s _ t h
      all_goals cases hboard
    obtain ⟨d, rfl⟩ := hdev
    exact ⟨rfl, .inl rfl, .inl rfl⟩
  | false =>
    cases hown : ownForm c with
    | false =>
      obtain ⟨hq, ha, hw⟩ := (exec_rowFrame s c hboard hown).next h
      exact ⟨hq, ha, hw.imp id .inl⟩
    | true =>
      cases c
      case wake src lvl res =>
        have ht := actAny_inv s _ t h
        subst ht
        exact ⟨rfl, .inl rfl, .inl rfl⟩
      case pgAoRise side bench dies64 res =>
        simp only [exec, execPgAoRise] at h
        split at h <;> cases h
        · exact ⟨rfl, .inl rfl, .inl rfl⟩
        · exact ⟨rfl, .inr rfl, .inr (.inl rfl)⟩
      case replayInject r =>
        simp only [exec, execReplayInject] at h
        split at h
        · cases h
        · split at h <;> cases h
          · exact ⟨rfl, .inr rfl, .inr (.inl rfl)⟩
          · exact ⟨rfl, .inl rfl, .inl rfl⟩
      case format n bm =>
        simp only [exec, execFormat] at h
        split at h
        · cases h
        · split at h <;> cases h
          · exact ⟨rfl, .inl rfl, .inr (.inr ⟨⟨n, bm, rfl⟩, rfl⟩)⟩
          · exact ⟨rfl, .inl rfl, .inl rfl⟩
      all_goals cases hown

/-- Settles O55: no frame, and no row in a form of its own, writes the queue. -/
theorem commandsKeepTheQueue : Obligations.CommandsKeepTheQueue := by
  intro c s t h
  obtain ⟨hq, -, -⟩ := exec_next h
  exact hq

/-- Settles O56: what holds of the frames holds of the two rows beside them that need no VAO to be asked. -/
theorem noSupplyNoEffect : Obligations.NoSupplyNoEffect := by
  intro c s hboard
  refine ⟨fun hlost hrise => ?lost, fun hlost hao hmain hrise hwake => ?off⟩
  case lost =>
    cases hown : ownForm c with
    | false => exact (exec_rowFrame s c hboard hown).fault hlost
    | true =>
      cases c
      case wake | replayInject | format =>
        simp only [exec, execWake, actAny, execReplayInject, execFormat, hlost, if_true]
      case pgAoRise side bench dies64 res => exact absurd rfl (hrise side bench dies64 res)
      all_goals cases hown
  case off =>
    cases hown : ownForm c with
    | false => exact (exec_rowFrame s c hboard hown).off hlost hao hmain
    | true =>
      cases c
      case replayInject | format =>
        simp only [exec, execReplayInject, execFormat, hlost, hmain, Bool.false_and, Bool.false_eq_true, if_false]
      case wake src lvl res => exact absurd rfl (hwake src lvl res)
      case pgAoRise side bench dies64 res => exact absurd rfl (hrise side bench dies64 res)
      all_goals cases hown

/-- A step keeps what every command and the tick of an idle device keep. -/
theorem step_next {s t : State} (h : step s = .next t) :
    (∃ d, t = { s with dev := d }) ∨ ∃ c rest, s.pending = c :: rest ∧ exec c { s with pending := rest } = .next t := by
  cases hq : s.pending with
  | nil =>
    simp only [step, hq] at h
    cases h
    exact .inl ⟨_, rfl⟩
  | cons c rest =>
    simp only [step, hq] at h
    exact .inr ⟨c, rest, rfl, h⟩

/-- Settles O1: both parts are the two branches of `step`. -/
theorem stepRunsTheFront : Obligations.StepRunsTheFront := by
  refine ⟨fun c rest s => rfl, fun s hs => ?_⟩
  simp only [step, hs]

/-- Settles O58: a memory that takes stores stays canonical, and so does an emptied window. -/
theorem memoriesStayCanonical : Obligations.MemoriesStayCanonical := by
  intro s t ⟨harray, hwindow⟩ h
  obtain ⟨d, rfl⟩ | ⟨c, rest, -, hexec⟩ := step_next h
  · exact ⟨harray, hwindow⟩
  · obtain ⟨-, ha, hw⟩ := exec_next hexec
    constructor
    · rcases ha with ha | ha <;> rw [ha]
      · exact harray
      · exact storeArray_wf _ _ harray
    · rcases hw with hw | hw | ⟨-, hw⟩ <;> rw [hw]
      · exact hwindow
      · exact storeWindow_wf _ _ hwindow
      · rfl

/-- Settles O59: no store into the array reaches the boot loader's sectors. -/
theorem bootSectorsKeep : Obligations.BootSectorsKeep := by
  intro boot s t hboot h a ha
  obtain ⟨d, rfl⟩ | ⟨c, rest, -, hexec⟩ := step_next h
  · exact hboot a ha
  · obtain ⟨-, hstore, -⟩ := exec_next hexec
    rcases hstore with hstore | hstore <;> rw [hstore]
    · exact hboot a ha
    · exact (storeArray_boot _ a ha _).trans (hboot a ha)

/-- Settles O60: both memories are empty, so each byte reads its default. -/
theorem resetIsCanonical : Obligations.ResetIsCanonical := by
  refine ⟨⟨rfl, rfl⟩, rfl, rfl, rfl, fun a ha => ?_⟩
  exact (if_pos ha : arrayDflt a = Config.bootByte a)

/-! ### Where the stores lie -/

/-- A byte outside the runs stored keeps. -/
theorem read_storeArray_outside (l : List (Nat × List Byte)) (a : Nat) : ∀ (m : Memory),
    (∀ st ∈ l, a < st.1 ∨ st.1 + st.2.length ≤ a) → Memory.read arrayDflt (storeArray m l) a = Memory.read arrayDflt m a := by
  induction l with
  | nil => intro m _; rfl
  | cons x l ih =>
    intro m hout
    refine (ih _ fun st hst => hout st (List.mem_cons_of_mem _ hst)).trans ?_
    dsimp only
    split
    · rfl
    · exact Memory.read_writeList_outside _ _ _ _ _ (hout x List.mem_cons_self)

theorem read_storeWindow_outside (l : List (Nat × List Byte)) (a : Nat) : ∀ (m : Memory),
    (∀ st ∈ l, a < st.1 ∨ st.1 + st.2.length ≤ a) → Memory.read windowDflt (storeWindow m l) a = Memory.read windowDflt m a := by
  induction l with
  | nil => intro m _; rfl
  | cons x l ih =>
    intro m hout
    refine (ih _ fun st hst => hout st (List.mem_cons_of_mem _ hst)).trans ?_
    exact Memory.read_writeList_outside _ _ _ _ _ (hout x List.mem_cons_self)

/-- A word is four bytes. -/
theorem length_wordBytes (ws : List Nat) : (wordBytes ws).length = 4 * ws.length := by
  induction ws with
  | nil => rfl
  | cons w ws ih =>
    have hcons : (wordBytes (w :: ws)).length = 4 + (wordBytes ws).length := List.length_append
    rw [hcons, ih, List.length_cons, Nat.mul_succ, Nat.add_comm]

/-- A row that is not among those that store into the array has no stores there. -/
theorem arrayStores_of_not {c : Instr} (h : storesArray c = false) (d : Dev) : arrayStores c d = [] := by
  cases c
  case registerWrite | unlockCycle | programPage | nvmEraseDone | pgAoRise | replayInject => cases h
  all_goals rfl

theorem windowStores_of_not {c : Instr} (h : storesWindow c = false) (d : Dev) : windowStores c d = [] := by
  cases c
  case pwinStore | wstore | sync | replayInject | pgAoRise | dumpExit | resetNRecognised => cases h
  all_goals rfl

/-- The page that PROGRAM_PAGE addresses covers what it stores (R450). -/
theorem programPage_stores_within {p addr : Nat} {data : List Nat} {d : Dev} {st : Nat × List Byte}
    (h : st ∈ arrayStores (.programPage p addr data) d) : st.1 = addr % 0x2000000 / 256 * 256 ∧ st.2.length = 256 := by
  simp only [arrayStores] at h
  split at h
  · rename_i hc
    have hlen : data.length = 64 := of_decide_eq_true (Bool.and_eq_true_iff.mp (Bool.and_eq_true_iff.mp hc).1).1
    rw [List.mem_singleton] at h
    subst h
    exact ⟨rfl, by rw [length_wordBytes, List.length_map, hlen]⟩
  · cases h

/-- The sector of the operation that runs covers what the end of an erase stores (R451). -/
theorem nvmEraseDone_stores_within {pass : Bool} {pulses : Nat} {d : Dev} {st : Nat × List Byte}
    (h : st ∈ arrayStores (.nvmEraseDone pass pulses) d) :
    st ∈ d.nRun.toList.map (fun o => (o.at_ * 65536, List.replicate 65536 erasedByte)) := by
  simp only [arrayStores] at h
  cases hrun : d.nRun with
  | none => simp [hrun] at h
  | some o =>
    simp only [hrun] at h
    split at h
    · exact h
    · cases h

/-- Settles O57: the stores of each row lie where the statement says. -/
theorem storesStayInPlace : Obligations.StoresStayInPlace := by
  intro c s t h
  obtain ⟨-, ha, hw⟩ := exec_next h
  refine ⟨fun hno => ?array, fun hno => ?window, fun a sts hsts hout => ?arrayAt, fun a sts hsts hout => ?windowAt⟩
  case array =>
    rw [arrayStores_of_not hno] at ha
    exact ha.elim id id
  case window =>
    rw [windowStores_of_not hno] at hw
    obtain hw | hw | ⟨⟨n, bm, rfl⟩, -⟩ := hw
    · exact hw
    · exact hw
    · cases hno
  case arrayAt =>
    obtain ha | ha := ha <;> rw [ha]
    refine read_storeArray_outside _ _ _ fun st hst => ?_
    cases c
    case registerWrite | unlockCycle | pgAoRise | replayInject => exact hout st (hsts ▸ hst)
    case programPage p addr data =>
      obtain ⟨hbase, hlen⟩ := programPage_stores_within hst
      have := hout _ (hsts ▸ List.mem_singleton_self _)
      rw [hbase, hlen]
      rwa [List.length_replicate] at this
    case nvmEraseDone => exact hout st (hsts ▸ nvmEraseDone_stores_within hst)
    all_goals cases hst
  case windowAt =>
    obtain hw | hw | ⟨⟨n, bm, rfl⟩, -⟩ := hw
    · rw [hw]
    · rw [hw]
      refine read_storeWindow_outside _ _ _ fun st hst => ?_
      cases c
      case wstore | sync | pwinStore | dumpExit | resetNRecognised =>
        simp only [windowStores] at hst
        split at hst
        · exact hout st (hsts ▸ hst)
        · cases hst
      case pgAoRise | replayInject => exact hout st (hsts ▸ hst)
      all_goals cases hst
    · cases hsts

end Sys2Proof.Machine
end

section
/-! Header writes that need no unlocking (R45, R50 to R52), and what a SOFT_RST of the cipher engine's page leaves pending (R47, R186). -/

namespace Sys2Proof.Machine

-- In order, one declaration at a time: keeps the check within its memory limit.
set_option Elab.async false

section Headers

variable (d : Dev)

/-! ### Other pages' headers -/

theorem Dev.page_lockPage_ne {pg q : Nat} (h : q ≠ pg) : (d.lockPage pg).page q = d.page q := by
  simp only [Dev.lockPage]
  split
  · exact Dev.page_setPage_ne d h _
  · exact Dev.page_setPage_ne d h _

theorem Dev.page_touchPage_ne {pg q : Nat} (h : q ≠ pg) : (d.touchPage pg).page q = d.page q := by
  simp only [Dev.touchPage]
  rw [Dev.page_setPage_ne _ h]
  split
  · exact Dev.page_lockPage_ne d h
  · rfl

theorem Dev.page_headRsvd_ne {pg q : Nat} (h : q ≠ pg) (rel : Nat) (v rsv : Word) : (d.headRsvd pg rel v rsv).page q = d.page q := by
  simp only [Dev.headRsvd]
  split
  · exact Dev.page_recordErr_ne d h _ _ _
  · rfl

@[simp] theorem Dev.page_capWrite (bar off : Nat) (v : Word) (q : Nat) : (d.capWrite bar off v).page q = d.page q := by
  rw [Dev.capWrite_eq]
  rfl

/-- Sending a page's message changes no header. -/
@[simp] theorem Dev.page_pageMsix (pg q : Nat) : (d.pageMsix pg).page q = d.page q := by
  rw [Dev.pageMsix, Dev.msix_eq]
  rfl

@[simp] theorem Dev.page_lineAgain (pg q : Nat) : (d.lineAgain pg).page q = d.page q := by
  have hset : ∀ e : Dev, (e.pbaSettle).page q = e.page q := fun _ => rfl
  rw [Dev.lineAgain, hset]
  split
  · exact Dev.page_pageMsix d pg q
  · rfl

/-- The check of the RSVD bits leaves the interrupt fields. -/
theorem Dev.headRsvd_interrupts (pg rel : Nat) (v rsv : Word) :
    ((d.headRsvd pg rel v rsv).page pg).intEn = (d.page pg).intEn ∧ ((d.headRsvd pg rel v rsv).page pg).intPend = (d.page pg).intPend := by
  simp only [Dev.headRsvd]
  split
  · cases herr : (d.page pg).err with
    | false => rw [Dev.page_recordErr_first d _ _ _ _ herr]; exact ⟨rfl, rfl⟩
    | true => rw [Dev.page_recordErr_later d _ _ _ _ herr]; exact ⟨rfl, rfl⟩
  · exact ⟨rfl, rfl⟩

/-! ### A header write that reaches its page -/

/-- The device when a write of a header register has been captured and has settled the page's lock. -/
def Dev.headArrived (pg rel : Nat) (v : Word) : Dev := (d.capWrite 0 (pg * 0x1000 + rel) v).touchPage pg

theorem Dev.page_headArrived (pg rel : Nat) (v : Word) :
    (d.headArrived pg rel v).page pg = { d.page pg with unlocked := d.unlocked pg, lastWr := d.tick } := by
  rw [Dev.headArrived, Dev.page_touchPage, Dev.unlocked_capWrite, Dev.capWrite_eq]
  rfl

theorem Dev.page_headArrived_ne {pg q : Nat} (h : q ≠ pg) (rel : Nat) (v : Word) : (d.headArrived pg rel v).page q = d.page q := by
  rw [Dev.headArrived, Dev.page_touchPage_ne _ h, Dev.page_capWrite]

theorem pageWrite_header (pg rel : Nat) (v : Word) (body : Bool → Dev → Dev) (hr : d.reaches pg) (hrel : rel < 0x100) :
    pageWrite d (pg * 0x1000 + rel) v body = body (d.unlocked pg) (d.headArrived pg rel v) := by
  have hpg : (pg * 0x1000 + rel) / 0x1000 = pg := by omega
  rw [pageWrite_reaches d _ v body (by rw [hpg]; exact hr) (by omega), hpg]
  rfl

/-- A write that replaces the page's header and looks at the line again leaves the header it sets and every other one. -/
theorem Dev.page_setPage_lineAgain (pg q : Nat) (p : Page) : ((d.setPage pg p).lineAgain pg).page q = if q = pg then p else d.page q := by
  rw [Dev.page_lineAgain, Dev.page_setPage]

/-! ### The rows -/

variable {d} {pg : Nat} (v : Word) (hr : d.reaches pg)
include hr

/-- ERR_CLEAR clears the five error registers (R45). -/
theorem page_doErrClear (q : Nat) : (doErrClear pg d).page q =
    if q = pg then { (d.headArrived pg 0x14 0x10).page pg with err := false, errCode := 0, overflow := 0, info0 := 0, info1 := 0, errTick := 0 }
    else d.page q := by
  have hclear : (0x10 : Word) &&& 0xFFFFFFE0 = 0 := by decide
  have hbit : bitAt (0x10 : Word) 4 = true := by decide
  rw [doErrClear, stsWrite, pageWrite_header d pg 0x14 _ _ hr (by decide)]
  simp only [hbit, if_true]
  rw [Dev.headRsvd_of_clear _ _ _ hclear, Dev.page_setPage]
  split
  · rfl
  · exact Dev.page_headArrived_ne d ‹_› _ _

/-- INT_EN takes the bits that the block implements (R52). -/
theorem page_doIntEnWrite (q : Nat) : (doIntEnWrite pg v d).page q =
    if q = pg then { ((d.headArrived pg 0x24 v).headRsvd pg 0x24 v (~~~(intMask pg))).page pg with intEn := v &&& intMask pg }
    else d.page q := by
  rw [doIntEnWrite, intEnSet, pageWrite_header d pg 0x24 _ _ hr (by decide), Dev.page_setPage_lineAgain]
  split
  · rfl
  · rw [Dev.page_headRsvd_ne _ ‹_›, Dev.page_headArrived_ne d ‹_›]

/-- INT_PEND is cleared bit by bit (R51). -/
theorem page_doIntPendClear (q : Nat) : (doIntPendClear pg v d).page q =
    if q = pg then { ((d.headArrived pg 0x28 v).headRsvd pg 0x28 v (~~~(intMask pg))).page pg with
      intPend := (((d.headArrived pg 0x28 v).headRsvd pg 0x28 v (~~~(intMask pg))).page pg).intPend &&& ~~~v }
    else d.page q := by
  rw [doIntPendClear, intPendW1c, pageWrite_header d pg 0x28 _ _ hr (by decide), Dev.page_setPage_lineAgain]
  split
  · rfl
  · rw [Dev.page_headRsvd_ne _ ‹_›, Dev.page_headArrived_ne d ‹_›]

/-- INT_VEC takes the vector (R52). -/
theorem page_doIntVecWrite (q : Nat) : (doIntVecWrite pg v d).page q =
    if q = pg then { ((d.headArrived pg 0x2C v).headRsvd pg 0x2C v 0xFFFFFFE0).page pg with vecSet := some (bits v 4 0) }
    else d.page q := by
  rw [doIntVecWrite, intVecSet, pageWrite_header d pg 0x2C _ _ hr (by decide), Dev.page_setPage_lineAgain]
  split
  · rfl
  · rw [Dev.page_headRsvd_ne _ ‹_›, Dev.page_headArrived_ne d ‹_›]

/-- LOCK unlocks with the key and locks with any other value (R50). -/
theorem page_doLockWrite (q : Nat) : (doLockWrite pg v d).page q =
    if q = pg then { (d.headArrived pg 0x44 v).page pg with unlocked := decide (v = 0x4C4D0001) } else d.page q := by
  rw [doLockWrite, lockSet, pageWrite_header d pg 0x44 _ _ hr (by decide)]
  by_cases hkey : v = 0x4C4D0001
  · rw [if_pos hkey, Dev.page_setPage, decide_eq_true hkey]
    split
    · rfl
    · exact Dev.page_headArrived_ne d ‹_› _ _
  · rw [if_neg hkey, decide_eq_false hkey]
    split
    · subst q
      exact Dev.page_lockPage _ _
    · rw [Dev.page_lockPage_ne _ ‹_›, Dev.page_headArrived_ne d ‹_›]

end Headers

/-- A page whose time to lock has come is locked by LOCK_TIMEOUT, and no other (R50). -/
theorem page_doLockTimeout (d : Dev) {pg : Nat} (h : d.unlocked pg = false) :
    ((doLockTimeout pg d).page pg).unlocked = false ∧ ∀ q, q ≠ pg → (doLockTimeout pg d).page q = d.page q := by
  rw [doLockTimeout]
  split
  · exact ⟨by rw [Dev.page_lockPage], fun q hq => Dev.page_lockPage_ne d hq⟩
  · rename_i hnot
    exact ⟨by simpa [h] using hnot, fun _ _ => rfl⟩

/-- Settles O2: each row's header is the one its lemma gives. -/
theorem headerRowsWrite : Obligations.HeaderRowsWrite := by
  intro s pg v hrun hr
  refine ⟨⟨_, act_of_running s (doErrClear pg) hrun, ?_⟩, ⟨_, act_of_running s (doIntEnWrite pg v) hrun, ?_⟩,
    ⟨_, act_of_running s (doIntPendClear pg v) hrun, ?_⟩, ⟨_, act_of_running s (doIntVecWrite pg v) hrun, ?_⟩,
    ⟨_, act_of_running s (doLockWrite pg v) hrun, ?_⟩, fun hlocked => ⟨_, act_of_running s (doLockTimeout pg) hrun, page_doLockTimeout _ hlocked⟩⟩
  · simp +contextual only [page_doErrClear hr, if_true, if_false, true_and, implies_true]
  · obtain ⟨-, hpend⟩ := Dev.headRsvd_interrupts (s.dev.headArrived pg 0x24 v) pg 0x24 v (~~~(intMask pg))
    rw [Dev.page_headArrived] at hpend
    simp +contextual only [page_doIntEnWrite v hr, if_true, if_false, hpend, true_and, implies_true]
  · obtain ⟨hen, hpend⟩ := Dev.headRsvd_interrupts (s.dev.headArrived pg 0x28 v) pg 0x28 v (~~~(intMask pg))
    rw [Dev.page_headArrived] at hen hpend
    simp +contextual only [page_doIntPendClear v hr, if_true, if_false, hen, hpend, true_and, implies_true]
  · simp +contextual only [page_doIntVecWrite v hr, if_true, if_false, true_and, implies_true]
  · simp +contextual only [page_doLockWrite v hr, if_true, if_false, true_and, implies_true]

/-! ### Counterexamples (what a refutation cites) -/

/-- The outcome is a next state with a property. -/
def nextHas (p : State → Bool) : Host.Outcome State Fault Refusal → Bool
  | .next t => p t
  | _ => false

/-- What the model evaluates to holds of the next state that a statement speaks of. -/
theorem nextHas_elim {o : Host.Outcome State Fault Refusal} {p : State → Bool} {t : State} (h : nextHas p o = true) (ht : o = .next t) :
    p t = true := by
  subst ht
  exact h

/-- A device. -/
def Dev.asState (d : Dev) : State := { State.reset with dev := d }

/-- A released device in RUN with its supplies up, READY, head 0 up and a manager's. -/
def devServing : Dev :=
  ((({ Dev.reset with aoUp := true, pgMain := true }.setFlag Reg.GLB_DEV_STS 0 true).setFlag Reg.TST_BRG_STS 5 true).setFlag
    (Reg.HIF_LINK_STS 0) 0 true).setFlag Reg.HIF_HEAD_CTL 0 true

/-- The cipher engine's page unlocked with EN = 0, LOW_SHIFT at 16, and a GCM context with 2^17 values left, which is not LOW. -/
def devCryLow : Dev :=
  ((devServing.setPage 0x400 { Page.reset with en := false, unlocked := true }).setFld Reg.CRY_POLICY 12 8 16).setCtx 0
    { Ctx.reset with st := .valid, mode := 2, invoc0 := 2 ^ 32 - 2 ^ 17 }

/-- Refutes O3: a SOFT_RST of the cipher engine's page returns LOW_SHIFT to its reset value 28, which makes a GCM context LOW (R186), and the
event KEY_LOW is latched after INT_PEND was cleared. -/
theorem not_controlRowsWrite : ¬ Obligations.ControlRowsWrite := by
  intro h
  have hrow := h.1 devCryLow.asState 0x400 2 (by decide +kernel) (by decide +kernel) (by decide +kernel) (by decide +kernel)
  obtain ⟨t, hexec, -, -, -, hpage⟩ := hrow
  obtain ⟨-, -, -, -, -, -, hreset⟩ := hpage
  obtain ⟨hpend, -⟩ := hreset (by decide)
  have hlatched := nextHas_elim (p := fun t => (t.dev.page 0x400).intPend == 2) (by decide +kernel) hexec
  rw [hpend] at hlatched
  exact absurd hlatched (by decide)

end Sys2Proof.Machine
end

section
/-! Publication of covered registers and the read of the clock (R54, R57, R289). -/

namespace Sys2Proof.Machine

-- In order, one declaration at a time: keeps the check within its memory limit.
set_option Elab.async false

section Publication

variable (d : Dev)

/-! ### What a publication copies -/

/-- A register holds the same whatever has been published. -/
theorem Dev.liveReg_published (p : SMap Word) (off : Nat) : ({ d with published := p } : Dev).liveReg off = d.liveReg off := rfl

/-- A common register holds its one stored value, whichever port page names it (R36). -/
theorem Dev.liveReg_common {off : Nat} (h : isCommon off = true) : d.liveReg off = d.reg (canonOff off) := by
  simp only [isCommon, Bool.and_eq_true, decide_eq_true_eq] at h
  obtain ⟨⟨hlo, hhi⟩, hrel⟩ := h
  have hbank : bankAt off = none := by simp only [bankAt]; rw [if_neg (by omega)]
  have hpage : pagePort (off / 0x1000) = some (off / 0x1000 - 0x800) := by simp only [pagePort]; rw [if_pos (by omega)]
  have hrel' : ¬ off % 0x1000 = 0x100 := by omega
  simp only [Dev.liveReg, hbank]
  split
  case h_12 => simp only [hpage, if_neg hrel']
  all_goals omega

theorem canonOff_of_common {off : Nat} (h : isCommon off = true) : canonOff off = 0x800000 + off % 0x1000 := by
  simp only [isCommon, Bool.and_eq_true, decide_eq_true_eq] at h
  exact if_pos ⟨h.1.1, h.1.2, h.2⟩

theorem canonOff_of_own {off : Nat} (h : isCommon off = false) : canonOff off = off := by
  simp only [isCommon, Bool.and_eq_false_iff, decide_eq_false_iff_not] at h
  exact if_neg fun hc => by rcases h with (h | h) | h <;> exact h (by omega)

/-- Offsets that share a stored value show the same. -/
theorem Dev.liveReg_congr {o o' : Nat} (h : canonOff o' = canonOff o) : d.liveReg o' = d.liveReg o := by
  have hcommon : ∀ {a b : Nat}, canonOff a = canonOff b → isCommon a = true → isCommon b = true := by
    intro a b hab ha
    cases hb : isCommon b with
    | true => rfl
    | false =>
      rw [canonOff_of_common ha, canonOff_of_own hb] at hab
      rw [← hb, ← hab]
      simp only [isCommon, Bool.and_eq_true, decide_eq_true_eq] at ha ⊢
      omega
  cases ho : isCommon o with
  | true => rw [Dev.liveReg_common d ho, Dev.liveReg_common d (hcommon h.symm ho), h]
  | false =>
    cases ho' : isCommon o' with
    | true => rw [hcommon h ho'] at ho; cases ho
    | false => rw [canonOff_of_own ho, canonOff_of_own ho'] at h; rw [h]

/-- The published copy that a register shows. -/
def Dev.pubCopy (off : Nat) : Word := SMap.get regReset d.published (canonOff off)

theorem Dev.readReg_eq (off : Nat) : d.readReg off = if covered off then d.pubCopy off else d.liveReg off := rfl

theorem Dev.pubCopy_publishReg (o off : Nat) :
    (d.publishReg o).pubCopy off = if canonOff o = canonOff off then d.liveReg off else d.pubCopy off := by
  by_cases h : canonOff o = canonOff off
  · rw [if_pos h, ← Dev.liveReg_congr d h, Dev.pubCopy, ← h]
    exact SMap.get_set_self _ _ _ _
  · rw [if_neg h]
    exact SMap.get_set_ne _ _ _ _ _ (Ne.symm h)

/-- After a publication of registers each shows what it held. -/
theorem Dev.pubCopy_publishAll (os : List Nat) (off : Nat) : ∀ d : Dev,
    (d.publishAll os).pubCopy off = if ∃ o ∈ os, canonOff o = canonOff off then d.liveReg off else d.pubCopy off := by
  induction os with
  | nil => intro d; simp [Dev.publishAll]
  | cons o os ih =>
    intro d
    have hstep : d.publishAll (o :: os) = (d.publishReg o).publishAll os := rfl
    rw [hstep, ih, Dev.pubCopy_publishReg]
    simp only [List.mem_cons, exists_eq_or_imp]
    have hlive : (d.publishReg o).liveReg off = d.liveReg off := rfl
    rw [hlive]
    by_cases hhead : canonOff o = canonOff off
    · simp only [hhead, true_or, if_true, ite_self]
    · simp only [hhead, false_or, if_false]

/-- A covered register shows its published copy. -/
theorem Dev.readReg_covered {off : Nat} (h : covered off = true) : d.readReg off = d.pubCopy off := by
  rw [Dev.readReg_eq, if_pos h]

/-- The copy of a register of a list is up to date once those out of date are published, with any others. -/
theorem Dev.pubCopy_publishAll_stale {offs rest : List Nat} {off : Nat} (hcov : covered off = true) (hmem : off ∈ offs)
    (hsub : ∀ o ∈ d.staleIn offs, o ∈ rest) : (d.publishAll rest).pubCopy off = d.liveReg off := by
  rw [Dev.pubCopy_publishAll]
  split
  · rfl
  · rename_i hnot
    rw [← Dev.readReg_covered d hcov]
    by_contra hold
    exact hnot ⟨off, hsub off (List.mem_filter.mpr ⟨hmem, by simpa using hold⟩), rfl⟩

/-! ### The registers of a page's publication are covered -/

/-- The offsets of the covered registers of a window. -/
def snapOffs (w : Nat) : List Nat :=
  (windowRegs w).flatMap (fun r => if !r.snap then [] else (List.range r.count).map (fun i => r.off + i * r.stride))

theorem covered_of_mem_snapOffs {w o : Nat} (h : o ∈ snapOffs w) : covered o = true := by
  have hsmall : ∀ w < 18, ∀ o ∈ snapOffs w, covered o = true := by decide
  by_cases hw : w < 18
  · exact hsmall w hw o h
  · have hnone : windowRegs w = [] := by
      unfold windowRegs
      split <;> first | omega | rfl
    simp [snapOffs, hnone] at h

/-- A port page's register is covered where port 0's is (R36). -/
theorem covered_portPage {pg o : Nat} (hlo : 0x800 ≤ pg) (hhi : pg < 0xA00) (ho : o / 0x1000 = 0x800) :
    covered (pg * 0x1000 + o % 0x1000) = covered o := by
  have hrel : (pg * 0x1000 + o % 0x1000) % 0x1000 = o % 0x1000 := by omega
  simp only [covered, regDef?, hrel]
  rw [if_neg (by omega), if_pos (by omega), if_neg (by omega), if_pos (by omega)]

theorem covered_of_mem_coveredOffs {pg o : Nat} (h : o ∈ coveredOffs pg) : covered o = true := by
  simp only [coveredOffs, List.mem_flatMap] at h
  obtain ⟨r, hr, ho⟩ := h
  split at ho
  · simp at ho
  · rename_i hsnap
    rw [List.mem_filterMap] at ho
    obtain ⟨o', ho', hsome⟩ := ho
    have hcov : covered o' = true := covered_of_mem_snapOffs (List.mem_flatMap.mpr ⟨r, hr, by rw [if_neg hsnap]; exact ho'⟩)
    by_cases hbase : o' / 0x1000 = (if 0x800 ≤ pg ∧ pg < 0xA00 then 0x800 else pg) ∧ (!isCommon o') = true
    · rw [if_pos hbase] at hsome
      have hsome := Option.some.inj hsome
      by_cases hport : 0x800 ≤ pg ∧ pg < 0xA00
      · rw [if_pos hport] at hbase
        rw [← hsome, covered_portPage hport.1 hport.2 hbase.1, hcov]
      · rw [if_neg hport] at hbase
        rw [← hsome, show pg * 0x1000 + o' % 0x1000 = o' by omega, hcov]
    · rw [if_neg hbase] at hsome
      cases hsome

theorem covered_of_mem_commonOffs : ∀ o ∈ commonOffs, covered o = true := by decide

/-! ### A page's publication -/

/-- The registers that a publication through a page copies: its own out of date, and the common ones. -/
def Dev.ownStale (pg : Nat) : List Nat := if d.powered pg && !(d.page pg).softRst then d.stale pg else []
def Dev.comStale (pg : Nat) : List Nat := if (pagePort pg).isSome && d.comDue then d.staleIn commonOffs else []

/-- A publication changes the published copies, the SEQ and the spacing; where the spacing allows it, it copies what is out of date. -/
theorem Dev.publishPage_eq (pg : Nat) : ∃ pub pages cs ct,
    d.publishPage pg = { d with published := pub, pages := pages, comSeq := cs, comTick := ct } ∧
      (d.pubDue pg = true → pub = (d.publishAll (d.ownStale pg ++ d.comStale pg)).published) := by
  obtain ⟨pub, hpub⟩ := Dev.publishAll_eq (d.ownStale pg ++ d.comStale pg) d
  have hown : (if (d.powered pg && !(d.page pg).softRst) = true then d.stale pg else []) = d.ownStale pg := rfl
  have hcom : (if ((pagePort pg).isSome && d.comDue) = true then d.staleIn commonOffs else []) = d.comStale pg := rfl
  simp only [Dev.publishPage, hown, hcom]
  cases hdue : d.pubDue pg with
  | false => exact ⟨_, _, _, _, rfl, fun h => nomatch h⟩
  | true =>
    simp only [Bool.not_true, Bool.false_eq_true, if_false]
    cases hcoms : (d.comStale pg).isEmpty with
    | false =>
      rw [hpub]
      exact ⟨pub, _, _, _, rfl, fun _ => rfl⟩
    | true =>
      rw [List.isEmpty_iff.mp hcoms, List.append_nil] at hpub ⊢
      cases howns : (d.ownStale pg).isEmpty with
      | true => exact ⟨_, _, _, _, rfl, fun _ => by rw [List.isEmpty_iff.mp howns]; rfl⟩
      | false =>
        rw [hpub]
        exact ⟨pub, _, _, _, rfl, fun _ => rfl⟩

end Publication

/-- A publication that the spacing does not allow does nothing. -/
theorem Dev.publishPage_early (d : Dev) {pg : Nat} (h : d.pubDue pg = false) : d.publishPage pg = d := by
  rw [Dev.publishPage, h]
  rfl

/-- A read of GLB_TIME_LO gives the low half of the count, is captured, and latches the time (R57). -/
theorem Dev.glbTimeRead_eq (d : Dev) (hbar : d.barUp = true) (hrst : (d.page 0).softRst = false) : ∃ cap, doGlbTimeRead d =
    { d.latchTime with cap := cap, out := d.out ++ [.readData (d.tick % 2 ^ 32)] } := by
  have hcov : covered 0x140 = false := by decide
  have hread : d.bar0Read 0x140 = w32 d.tick := by
    have hdef : (regDef? 0x140).isSome = true := by decide
    have hcom : isCommon 0x140 = false := by decide
    have hexists : pageExists 0 = true := by decide
    have hpow : d.powered 0 = true := rfl
    simp [Dev.bar0Read, hexists, hcom, hdef, hpow, hrst, Dev.readReg, hcov, Dev.liveReg, bankAt, Dev.liveGlb]
  refine ⟨(d.capRec 0x11 (4 * d.accessHead) [(4, 0x140)]).cap, ?_⟩
  have hexists : pageExists (0x140 / 0x1000) = true := by decide
  simp only [doGlbTimeRead, hbar, if_true, sizedRead, Dev.bar0Read32, Dev.answer, hexists, hread]
  rw [Dev.capRec_eq]
  rw [show (w32 d.tick).toNat = d.tick % 2 ^ 32 from BitVec.toNat_ofNat _ _]
  rfl

/-- Settles O5: the registers published are covered ones, whose copies a publication brings up to date. -/
theorem publishAndTimeRead : Obligations.PublishAndTimeRead := by
  refine ⟨fun s pg hrun hpg => ⟨fun hdue => ⟨_, act_of_running s _ hrun, ?_⟩, fun hearly => ?_⟩, fun s hrun hbar hrst => ?_⟩
  · obtain ⟨pub, pages, cs, ct, heq, hpub⟩ := s.dev.publishPage_eq pg
    have hshow : ∀ (offs : List Nat), (∀ o ∈ offs, covered o = true) → (∀ o ∈ s.dev.staleIn offs, o ∈ s.dev.ownStale pg ++ s.dev.comStale pg) →
        ∀ o ∈ offs, (s.dev.publishPage pg).readReg o = s.dev.liveReg o := by
      intro offs hcov hsub o ho
      rw [Dev.readReg_covered _ (hcov o ho), ← s.dev.pubCopy_publishAll_stale (hcov o ho) ho hsub, Dev.pubCopy, Dev.pubCopy, heq, hpub hdue]
    simp only [doSnapshotPublish, hpg, if_true]
    refine ⟨fun hpow hrst => hshow _ (fun o => covered_of_mem_coveredOffs) fun o ho => ?_, fun hport hcom =>
      hshow _ covered_of_mem_commonOffs fun o ho => ?_, pub, pages, cs, ct, by rw [heq]⟩
    · exact List.mem_append_left _ (by simpa [Dev.ownStale, hpow, hrst, Dev.stale] using ho)
    · exact List.mem_append_right _ (by simpa [Dev.comStale, Option.isSome_iff_ne_none.mpr hport, hcom] using ho)
  · rw [show exec (.snapshotPublish pg) s = act s (doSnapshotPublish pg) from rfl, act_of_running s _ hrun, doSnapshotPublish,
      if_pos hpg, Dev.publishPage_early _ hearly]
  · refine ⟨_, act_of_running s doGlbTimeRead hrun, ?_⟩
    obtain ⟨cap, heq⟩ := s.dev.glbTimeRead_eq hbar hrst
    rw [heq]
    exact ⟨rfl, rfl, rfl, rfl, rfl⟩

end Sys2Proof.Machine
end

section
/-! A VICTIM band whose rebuilt set has failed too (R205, R206, R343). -/

namespace Sys2Proof.Machine

-- In order, one declaration at a time: keeps the check within its memory limit.
set_option Elab.async false

/-- A VICTIM band whose set at position 0 stands on a replacement that has failed in its turn. -/
def bandTwiceFailed : Band :=
  { Band.reset with
    st := .victim
    sets := { port := 0, die := 0, block := 7, repl := true, erased := true, prog := 0, old := 3 } ::
      List.replicate 18 { port := 1, die := 0, block := 3, repl := false, erased := false, prog := 0, old := 4 } }

/-- Its die has no spare block left. -/
def devTwiceFailed : Dev := { devServing with bands := [(0, bandTwiceFailed)], spareUsed := [(0, 100000)] }

/-- Refutes O26: before a VICTIM band's spares are looked for, its replaced positions go back to their own sets (R343), so a replacement that has
failed needs no spare: the band goes to erase, though for the sets as they stood no spare is found. -/
theorem not_collection : ¬ Obligations.Collection := by
  intro h
  obtain ⟨-, -, -, herase⟩ := h devTwiceFailed.asState (by decide +kernel) (by decide +kernel) (by decide +kernel)
  obtain ⟨t, hexec, -, hwithdrawn⟩ := herase 0 (by decide +kernel) (by decide +kernel)
  have hst := hwithdrawn (by decide +kernel)
  have herasing := nextHas_elim (p := fun t => (t.dev.band 0).st == .erasing) (by decide +kernel) hexec
  rw [hst] at herasing
  exact absurd herasing (by decide)

end Sys2Proof.Machine
end

section
/-! A slice being cleared whose map names one granule twice (R141). -/

namespace Sys2Proof.Machine

-- In order, one declaration at a time: keeps the check within its memory limit.
set_option Elab.async false

/-- A map entry that names a place. -/
def entPlaced : MapEnt := { gver := 1, loc := some ⟨false, 0, 0, 0, 0, 0, 0, 0, 0⟩ }

/-- Slice 2 is CLEARING, and the map holds its granule 1 twice: a map that is not in canonical form. -/
def devMapTwice : Dev :=
  { devServing.setSlice 2 { Slice.reset with st := .clearing, blks := 8 } with
    map := [(2 * 2 ^ 37 + 1, entPlaced), (2 * 2 ^ 37 + 1, entPlaced)] }

/-- Refutes O20: the statement ranges over states whose map is not canonical. Of a granule that the map names twice the release takes one entry
away, the other stays mapped, and the slice is still CLEARING. -/
theorem not_sliceOperationsEnd : ¬ Obligations.SliceOperationsEnd := by
  intro h
  obtain ⟨-, -, hclear⟩ := h devMapTwice.asState 2 (by decide +kernel) (by decide +kernel)
  obtain ⟨t, hexec, hst, -⟩ := hclear (by decide +kernel) (by decide +kernel) (by decide +kernel) (by decide +kernel) (by decide +kernel)
    (by decide +kernel)
  have hclearing := nextHas_elim (p := fun t => (t.dev.slice 2).st == .clearing) (by decide +kernel) hexec
  rw [hst] at hclearing
  exact absurd hclearing (by decide)

end Sys2Proof.Machine
end

section
/-! The bridge behind a flash port: how the token, the argument and the address checks lead to a command's effect (R260 to R262, R265, R275). -/

namespace Sys2Proof.Machine

-- In order, one declaration at a time: keeps the check within its memory limit.
set_option Elab.async false

@[simp] theorem Dev.bridge_setBridge_self (d : Dev) (p : Nat) (x : Bridge) : (d.setBridge p x).bridge p = x := SMap.get_set_self _ _ _ _

theorem Dev.bridge_setBridge_ne (d : Dev) {p q : Nat} (h : q ≠ p) (x : Bridge) : (d.setBridge p x).bridge q = d.bridge q :=
  SMap.get_set_ne _ _ _ _ _ h

@[simp] theorem Dev.bridge_emit (d : Dev) (o : Out) (p : Nat) : (d.emit o).bridge p = d.bridge p := rfl
@[simp] theorem Dev.out_setBridge (d : Dev) (p : Nat) (x : Bridge) : (d.setBridge p x).out = d.out := rfl
@[simp] theorem Dev.out_emit (d : Dev) (o : Out) : (d.emit o).out = d.out ++ [o] := rfl

@[simp] theorem Bridge.die_setDie_self (b : Bridge) (i : Nat) (x : BDie) : (b.setDie i x).die i = x := SMap.get_set_self _ _ _ _

/-- The device after the bridge has noted who spoke. -/
def Dev.hearOn (d : Dev) (p : Nat) (c : BCmd) : Dev :=
  if (d.bridge p).holder = c.side % 2 + 1 then d.setBridge p { d.bridge p with heard := c.seq % 4096 } else d

theorem Dev.hearOn_mine {d : Dev} {p : Nat} {c : BCmd} (h : (d.bridge p).holder = c.side % 2 + 1) :
    d.hearOn p c = d.setBridge p { d.bridge p with heard := c.seq % 4096 } := if_pos h

theorem Dev.hearOn_other {d : Dev} {p : Nat} {c : BCmd} (h : (d.bridge p).holder ≠ c.side % 2 + 1) : d.hearOn p c = d := if_neg h

theorem Dev.addrBad_hearOn (d : Dev) (p : Nat) (c : BCmd) (die block page : Bool) :
    (d.hearOn p c).addrBad p c die block page = d.addrBad p c die block page := by
  by_cases h : (d.bridge p).holder = c.side % 2 + 1
  · rw [Dev.hearOn_mine h]
    simp [Dev.addrBad, Bridge.die]
    rfl
  · rw [Dev.hearOn_other h]

/-- A command from a port without the token is refused where the token is needed (R275). -/
theorem Dev.bridgeCmd_notOwner (d : Dev) {p : Nat} (hp : p < 512) (c : BCmd) (opc : Nat) (armed badArg die block page : Bool)
    (go : Nat → Dev → Dev) (hears : (d.bridge p).hears opc = true) (hother : (d.bridge p).holder ≠ c.side % 2 + 1) :
    d.bridgeCmd p c opc armed true badArg die block page go = d.refuseCmd p c opc bsNotOwner := by
  simp [Dev.bridgeCmd, Nat.mod_eq_of_lt hp, hears, hother]

/-- A command that passes every check is carried out. -/
theorem Dev.bridgeCmd_goes (d : Dev) {p : Nat} (hp : p < 512) (c : BCmd) (opc : Nat) (armed owner badArg die block page : Bool)
    (go : Nat → Dev → Dev) (hears : (d.bridge p).hears opc = true)
    (hmine : owner = true → (d.bridge p).holder = c.side % 2 + 1) (harm : c.arm = armed) (hunused : cmdUnused c opc = false)
    (harg : badArg = false) (haddr : d.addrBad p c die block page = false) :
    d.bridgeCmd p c opc armed owner badArg die block page go = go p (d.hearOn p c) := by
  rw [← Dev.addrBad_hearOn] at haddr
  by_cases h : (d.bridge p).holder = c.side % 2 + 1
  · have hb : ((d.bridge p).holder == c.side % 2 + 1) = true := beq_iff_eq.mpr h
    rw [Dev.hearOn_mine h] at haddr ⊢
    simp [Dev.bridgeCmd, Nat.mod_eq_of_lt hp, hears, hb, harm, hunused, harg, haddr]
  · have howner : owner = false := by
      cases owner
      · rfl
      · exact absurd (hmine rfl) h
    rw [Dev.hearOn_other h] at haddr ⊢
    simp [Dev.bridgeCmd, Nat.mod_eq_of_lt hp, hears, h, harm, hunused, harg, haddr, howner]

theorem Bridge.hears_of_on {b : Bridge} (h : b.power = 0) (opc : Nat) : b.hears opc = true := by simp [Bridge.hears, h]

/-! ### Armed commands -/

/-- The arm that an armed command asks for. -/
def armOf (c : BCmd) (next opc arg : Nat) : BArm :=
  { side := c.side % 2, seq := c.seq % 4096, trick := next, lead := c.lead, opc := opc, tag := c.tag % 4096, die := c.die % 64,
    planes := c.planes % 16, block := c.block % 4096, page := c.page % 4096, slc := c.slc, arg := arg, cut := false }

/-- The row of an armed command, with what it arms. -/
def armedRow (p : Nat) (c : BCmd) (i : Instr) (opc arg : Nat) : Prop :=
  (i, opc, arg) ∈ [(Instr.dieErase p c, 3, 0), (.dieSuspend p c, 4, 0), (.dieResume p c, 5, 0)] ∨
    (∃ buf, i = .dieProgram p c buf ∧ opc = 2 ∧ arg = buf % 32) ∨
    (∃ cw slot soft, i = .dieRead p c cw slot soft ∧ opc = 1 ∧ arg = cw % 16 + 16 * soft.toNat + 32 * (slot % 8))

/-- The five armed commands are one row, with the address checks of their opcode. -/
theorem exec_armedRow {p : Nat} {c : BCmd} {i : Instr} {opc arg : Nat} (h : armedRow p c i opc arg) (s : State) :
    exec i s = .next { s with dev := s.dev.armCmd p c opc arg false (decide (opc ≤ 3)) (decide (opc ≤ 2)) } := by
  obtain h | ⟨buf, rfl, rfl, rfl⟩ | ⟨cw, slot, soft, rfl, rfl, rfl⟩ := h
  · simp only [List.mem_cons, Prod.mk.injEq, List.not_mem_nil, or_false] at h
    obtain ⟨rfl, rfl, rfl⟩ | ⟨rfl, rfl, rfl⟩ | ⟨rfl, rfl, rfl⟩ := h <;> rfl
  · rfl
  · rfl

section
variable {d : Dev} {p : Nat} {c : BCmd} {opc arg : Nat} {block page : Bool}

/-- Another port's armed command is refused (R275). -/
theorem Dev.armCmd_notOwner (hp : p < 512) (hon : (d.bridge p).power = 0) (hother : (d.bridge p).holder ≠ c.side % 2 + 1) :
    d.armCmd p c opc arg false block page = d.refuseCmd p c opc bsNotOwner :=
  Dev.bridgeCmd_notOwner d hp c opc _ _ _ _ _ _ (Bridge.hears_of_on hon _) hother

/-- The holder's armed command that passes the checks: held before the cut of the next trick, dropped after it and in the trick in progress, refused
for any other (R265). -/
theorem Dev.armCmd_mine (hp : p < 512) (hon : (d.bridge p).power = 0) (hmine : (d.bridge p).holder = c.side % 2 + 1) (harm : c.arm = true)
    (hunused : cmdUnused c opc = false) (haddr : d.addrBad p c true block page = false) :
    d.armCmd p c opc arg false block page =
      (if c.trick % 65536 = ((d.bridge p).trick + 1) % 65536 then
        if (d.bridge p).cutFor = some (((d.bridge p).trick + 1) % 65536) then d.hearOn p c
        else (d.hearOn p c).setBridge p { (d.hearOn p c).bridge p with
          arms := (d.bridge p).arms ++ [armOf c (((d.bridge p).trick + 1) % 65536) opc arg] }
      else if c.trick % 65536 = (d.bridge p).trick then d.hearOn p c
      else (d.hearOn p c).refuseCmd p c opc bsLate) := by
  unfold Dev.armCmd
  rw [Dev.bridgeCmd_goes d hp c opc _ _ _ _ _ _ _ (Bridge.hears_of_on hon _) (fun _ => hmine) harm hunused rfl haddr]
  simp only [Dev.hearOn_mine hmine, Dev.bridge_setBridge_self]
  rfl

end

/-- Settles O28: every armed row is `armCmd` of its opcode, whose outcome the trick named decides. -/
theorem armsAreHeld : Obligations.ArmsAreHeld := by
  intro s p c i opc arg hp hrow b h next refusal hon harm hunused haddr
  rw [exec_armedRow hrow s]
  refine ⟨fun hmine => ?_, fun hother => ?_⟩
  · have hheard : s.dev.hearOn p c = s.dev.setBridge p h := Dev.hearOn_mine hmine
    have hrefuse : (s.dev.setBridge p h).refuseCmd p c opc bsLate = (s.dev.setBridge p h).emit (refusal 0x0A) := by
      simp only [Dev.refuseCmd, Dev.respond, Dev.bridge_setBridge_self]
      rfl
    rw [Dev.armCmd_mine hp hon hmine harm hunused haddr, hheard, hrefuse]
    refine ⟨fun ht hcut => ⟨_, rfl, ?_⟩, fun ht hcut => ?_, fun ht hlt => ?_, fun hn hc => ?_⟩
    · rw [if_pos ht, if_neg hcut]
      refine ⟨?_, fun q hq => ?_, rfl⟩
      · simp only [Dev.bridge_setBridge_self]
        rfl
      · simp only [Dev.bridge_setBridge_ne _ hq]
    · rw [if_pos ht, if_pos hcut]
    · have hne : c.trick % 65536 ≠ next := by omega
      rw [if_neg hne, if_pos ht]
    · rw [if_neg hn, if_neg hc]
  · rw [Dev.armCmd_notOwner hp hon hother]
    rfl

end Sys2Proof.Machine
end

section
/-! The cut and the trick mark: what a bridge's arms do (R264 to R269, R272, R273). -/

namespace Sys2Proof.Machine

-- In order, one declaration at a time: keeps the check within its memory limit.
set_option Elab.async false

theorem SMap.find_foldl_insert_ne {α : Type} (v : α) {k : Nat} : ∀ (keys : List Nat) (m : SMap α), k ∉ keys →
    SMap.find (keys.foldl (fun m k => SMap.insert m k v) m) k = SMap.find m k := by
  intro keys
  induction keys with
  | nil => intro m _; rfl
  | cons a keys ih =>
    intro m hk
    rw [List.mem_cons, not_or] at hk
    rw [List.foldl_cons, ih _ hk.2, SMap.find_insert_ne _ _ _ _ hk.1]

theorem SMap.find_foldl_insert_mem {α : Type} (v : α) {k : Nat} : ∀ (keys : List Nat) (m : SMap α), k ∈ keys →
    SMap.find (keys.foldl (fun m k => SMap.insert m k v) m) k = some v := by
  intro keys
  induction keys with
  | nil => intro m hk; exact absurd hk List.not_mem_nil
  | cons a keys ih =>
    intro m hk
    by_cases hmem : k ∈ keys
    · exact ih _ hmem
    · have hka : k = a := (List.mem_cons.mp hk).resolve_right hmem
      rw [List.foldl_cons, SMap.find_foldl_insert_ne v keys _ hmem, hka, SMap.find_insert_self]

/-- An output is told when it is among those that were added. -/
theorem Dev.tells_of_out {d t : Dev} {o : Out} (before after : List Out) (h : t.out = d.out ++ (before ++ o :: after)) : d.tells t o := by
  rw [Dev.tells, h, List.drop_left]
  exact List.mem_append_right _ List.mem_cons_self

theorem Dev.refuseCmd_eq (d : Dev) (p : Nat) (c : BCmd) (opc status : Nat) : d.refuseCmd p c opc status =
    d.emit (.response p (c.side % 2) 0x8F status (c.tag % 4096) ((d.bridge p).die (c.die % 64)).onfi 0 [opc]) := rfl

/-! ### One confirmed arm -/

/-- The bridge once the mark of trick `t` has come and its arms have been taken out. -/
def Bridge.marked (b : Bridge) (t : Nat) : Bridge :=
  { b with trick := t, arms := b.arms.filter (fun a => a.trick == (t + 1) % 65536), cutFor := none }

theorem firingOrder_one (a : BArm) : firingOrder [a] = [a] := by
  unfold firingOrder
  cases hl : a.lead <;> by_cases ho : a.opc = 1 <;> simp [hl, ho]

section
variable {d : Dev} {p side trick dly : Nat} {a : BArm}

/-- The holder's mark fires the one arm that was confirmed for its trick. -/
theorem doTrickMark_one (hp : p < 512) (hon : (d.bridge p).power = 0) (hside : side < 2) (htrick : trick < 65536)
    (hholder : (d.bridge p).holder = side + 1) (harms : (d.bridge p).arms = [a]) (hat : a.trick = trick) (hcut : a.cut = true) :
    doTrickMark p side trick dly d =
      ((d.setBridge p ((d.bridge p).marked trick)).fireArm p a).emit (.response p side 0x8C 0 0 0 0 [trick, (d.bridge p).cutSeq, 1, 1]) := by
  simp [doTrickMark, Nat.mod_eq_of_lt hp, Nat.mod_eq_of_lt hside, Nat.mod_eq_of_lt htrick, hon, hholder, harms, hat, hcut, firingOrder_one,
    Bridge.marked]

theorem Bridge.marked_one (hat : a.trick = trick) {b : Bridge} (harms : b.arms = [a]) : (b.marked trick).arms = [] := by
  have hne : (trick == (trick + 1) % 65536) = false := beq_eq_false_iff_ne.mpr (by omega)
  simp [Bridge.marked, harms, hat, hne]

/-- A read of an idle die starts, with the offsets of its zone (R264). -/
theorem Dev.fireArm_read (hop : a.opc = 1) (hidle : ((d.bridge p).die a.die).st = .idle) (htag : ((d.bridge p).die a.die).rdTag = none) :
    d.fireArm p a = d.setBridge p ((d.bridge p).setDie a.die { (d.bridge p).die a.die with
      st := .reading, rdTag := some a.tag
      rdOfs := ((SMap.get (fun _ => []) (d.bridge p).slots (a.die * 8 + a.arg / 32)).drop
        (15 * min 3 (if a.slc then a.page / 192 else a.page / 768))).take 15 }) := by
  simp [Dev.fireArm, hop, hidle, htag]

/-- A program whose buffer is full and whose page is the next one of every plane starts, and the records move on (R272, R273). -/
theorem Dev.fireArm_program (hop : a.opc = 2) (hfree : ((d.bridge p).die a.die).busy = false) (hok : ((d.bridge p).die a.die).st ≠ .failed)
    (hbuf : ((d.bridge p).bufs.find a.arg).isSome = true)
    (hnext : ∀ pl ∈ planesOf a.planes, (d.bridge p).next.find (nextKey a.die pl a.block) = some (a.page + 1)) :
    d.fireArm p a = d.setBridge p (({ d.bridge p with
        next := ((planesOf a.planes).map (fun pl => nextKey a.die pl a.block)).foldl (fun m k => SMap.insert m k (a.page + 2)) (d.bridge p).next
          } : Bridge).setDie a.die { (d.bridge p).die a.die with
        st := .programming, tag := a.tag, opc := 2, block := a.block, page := a.page, planes := a.planes, buf := a.arg, sus := 0,
        orphan := false }) := by
  have hall : ((planesOf a.planes).map (fun pl => nextKey a.die pl a.block)).all (fun k => (d.bridge p).next.find k == some (a.page + 1)) = true := by
    simpa using hnext
  simp only [Dev.fireArm, hop, hfree, hok, Option.isNone_eq_false_iff.mpr hbuf, hall]
  simp

/-- A program whose page is not the next one of some plane is refused (R272). -/
theorem Dev.fireArm_notErased (hop : a.opc = 2) (hfree : ((d.bridge p).die a.die).busy = false) (hok : ((d.bridge p).die a.die).st ≠ .failed)
    (hbuf : ((d.bridge p).bufs.find a.arg).isSome = true)
    (hnext : ∃ pl ∈ planesOf a.planes, (d.bridge p).next.find (nextKey a.die pl a.block) ≠ some (a.page + 1)) :
    d.fireArm p a = d.refuseCmd p a.cmd 2 bsNotErased := by
  have hall : ((planesOf a.planes).map (fun pl => nextKey a.die pl a.block)).all (fun k => (d.bridge p).next.find k == some (a.page + 1)) = false := by
    simpa using hnext
  simp only [Dev.fireArm, hop, hfree, hok, Option.isNone_eq_false_iff.mpr hbuf, hall]
  simp

end

/-- Settles O29: the cut and a missed mark are single updates; the holder's mark fires the one confirmed arm. -/
theorem marksFireArms : Obligations.MarksFireArms := by
  intro s p hp b next hon
  refine ⟨fun hcut => ⟨_, rfl, ?_⟩, ?_, ?_⟩
  · have hdev : doArmConfirmCut p s.dev = s.dev.setBridge p { b with
        arms := b.arms.map (fun a => if a.trick == next then { a with cut := true } else a)
        cutSeq := ((s.dev.bridge p).arms.filter (fun a => a.trick == next)).foldl
          (fun m a => if (a.seq + 4096 - m) % 4096 < 2048 then a.seq else m)
          ((((s.dev.bridge p).arms.filter (fun a => a.trick == next)).head?.map (·.seq)).getD b.heard)
        cutFor := some next } := by
      unfold doArmConfirmCut
      rw [Nat.mod_eq_of_lt hp, if_neg (not_or.mpr ⟨not_not.mpr hon, hcut⟩)]
    rw [hdev]
    refine ⟨?_, ?_, rfl⟩ <;> simp only [Dev.bridge_setBridge_self]
  · have hdev : doMarkMiss p s.dev = (s.dev.setBridge p (b.marked next)).emit (.response p (b.holder - 1) 0x8C 0 0 0 0 [next, b.cutSeq, 0, 0]) := by
      unfold doMarkMiss
      rw [Nat.mod_eq_of_lt hp, if_neg (not_not.mpr hon)]
      rfl
    show Host.Outcome.next _ = _
    rw [hdev]
    rfl
  · intro side trick dly a hside htrick hholder harms hat hcut
    have hmark := doTrickMark_one (dly := dly) hp hon hside htrick hholder harms hat hcut
    have hexec : exec (.trickMark p side trick dly) s = .next { s with dev := doTrickMark p side trick dly s.dev } := rfl
    rw [hexec, hmark]
    have hb : (s.dev.setBridge p (b.marked trick)).bridge p = b.marked trick := Dev.bridge_setBridge_self _ _ _
    refine ⟨fun hop hidle htag => ⟨_, rfl, ?_⟩, fun hop hfree hok hbuf => ⟨fun hnext => ⟨_, rfl, ?_⟩, fun hnext => ⟨_, rfl, ?_⟩⟩⟩
    · rw [Dev.fireArm_read hop (by rw [hb]; exact hidle) (by rw [hb]; exact htag), hb]
      simp only [Dev.bridge_emit, Dev.bridge_setBridge_self, Bridge.die_setDie_self]
      exact ⟨rfl, Bridge.marked_one hat harms, rfl, Dev.tells_of_out [] [] rfl⟩
    · rw [Dev.fireArm_program hop (by rw [hb]; exact hfree) (by rw [hb]; exact hok) (by rw [hb]; exact hbuf) (by rw [hb]; exact hnext), hb]
      simp only [Dev.bridge_emit, Dev.bridge_setBridge_self, Bridge.die_setDie_self]
      exact ⟨trivial, fun pl hpl => SMap.find_foldl_insert_mem _ _ _ (List.mem_map.mpr ⟨pl, hpl, rfl⟩)⟩
    · rw [Dev.fireArm_notErased hop (by rw [hb]; exact hfree) (by rw [hb]; exact hok) (by rw [hb]; exact hbuf) (by rw [hb]; exact hnext)]
      rw [Dev.refuseCmd_eq, hb]
      simp only [Dev.bridge_emit, Dev.bridge_setBridge_self]
      exact ⟨rfl, rfl, Dev.tells_of_out [] [_] (List.append_assoc _ _ _)⟩

end Sys2Proof.Machine
end

section
/-! Frames: what a shared operation of the device leaves.  A frame names the parts that may change by an erasure, the registers that may change by
a list, and says that outputs are only added.  Frames compose, so each operation's frame is proved once. -/

namespace Sys2Proof.Machine

-- In order, one declaration at a time: keeps the check within its memory limit.
set_option Elab.async false

theorem bitAt_putBit_mono {w : Word} {n : Nat} (h : bitAt w n = true) (k : Nat) : bitAt (putBit w k true) n = true := by
  by_cases hk : k < 32
  · rw [bitAt_putBit _ _ _ _ hk]
    split
    · rfl
    · exact h
  · have hn : n < 32 := by
      by_contra hn
      rw [bitAt, BitVec.getLsbD_of_ge _ _ (by omega)] at h
      exact absurd h (by decide)
    have hw : w.getLsbD n = true := h
    have hlt : ¬ k ≤ n := by omega
    simp only [bitAt, putBit, putBits, BitVec.getLsbD_or, BitVec.getLsbD_and, BitVec.getLsbD_not, getLsbD_maskOf, hw, hn, hlt, decide_true,
      decide_false, Bool.and_false, Bool.false_and, Bool.not_false, Bool.and_true, Bool.true_or]

/-- From `p` to `q` a page's first error stays as it was recorded, and no pending bit is lost. -/
def Page.Later (p q : Page) : Prop :=
  (p.err = true → q.err = true ∧ q.errCode = p.errCode ∧ q.info0 = p.info0 ∧ q.info1 = p.info1) ∧
  ∀ n, bitAt p.intPend n = true → bitAt q.intPend n = true

theorem Page.Later.refl (p : Page) : p.Later p := ⟨fun h => ⟨h, rfl, rfl, rfl⟩, fun _ h => h⟩

theorem Page.Later.trans {p q r : Page} (h : p.Later q) (h' : q.Later r) : p.Later r := by
  refine ⟨fun hp => ?_, fun n hn => h'.2 n (h.2 n hn)⟩
  obtain ⟨hq, hcode, h0, h1⟩ := h.1 hp
  obtain ⟨hr, hcode', h0', h1'⟩ := h'.1 hq
  exact ⟨hr, hcode'.trans hcode, h0'.trans h0, h1'.trans h1⟩

/-- The registers that show the mode. -/
def modeRegs : List Nat := [Reg.PWR_MODE_STS, Reg.GLB_DEV_STS]

/-- From `d` to `t` the device may have woken from IDLE to RUN; nothing else of the registers that show its mode has changed. -/
structure Dev.Runs (d t : Dev) : Prop where
  mode : t.mode = d.mode ∨ (d.mode = 1 ∧ t.mode = 0)
  sts : ∀ n, 2 < n → t.flag Reg.PWR_MODE_STS n = d.flag Reg.PWR_MODE_STS n
  dev : ∀ n, n < 10 ∨ 12 < n → t.flag Reg.GLB_DEV_STS n = d.flag Reg.GLB_DEV_STS n

section
variable {d e t : Dev}

theorem Dev.Runs.of_regs (hsts : t.reg Reg.PWR_MODE_STS = d.reg Reg.PWR_MODE_STS) (hdev : t.reg Reg.GLB_DEV_STS = d.reg Reg.GLB_DEV_STS) : d.Runs t :=
  ⟨Or.inl (congrArg (fun w => bits w 2 0) hsts), fun n _ => congrArg (fun w => bitAt w n) hsts, fun n _ => congrArg (fun w => bitAt w n) hdev⟩

theorem Dev.Runs.refl (d : Dev) : d.Runs d := .of_regs rfl rfl

theorem Dev.Runs.trans (h : d.Runs e) (h' : e.Runs t) : d.Runs t := by
  refine ⟨?_, fun n hn => (h'.sts n hn).trans (h.sts n hn), fun n hn => (h'.dev n hn).trans (h.dev n hn)⟩
  rcases h'.mode with hm | ⟨hidle, hrun⟩
  · exact h.mode.imp hm.trans (And.imp_right hm.trans)
  · exact h.mode.elim (fun he => Or.inr ⟨he.symm.trans hidle, hrun⟩) (fun he => Or.inr ⟨he.1, hrun⟩)

theorem Dev.Runs.modeOr (h : d.Runs t) : t.mode = d.mode ∨ t.mode = 0 := h.mode.imp_right And.right

/-- Only from IDLE does a report change the mode. -/
theorem Dev.Runs.mode_eq (h : d.Runs t) (hm : d.mode ≠ 1) : t.mode = d.mode := h.mode.resolve_right (fun hi => hm hi.1)

/-- A field whose bits are the same. -/
theorem bits_congr {w w' : Word} {hi lo : Nat} (h : ∀ n, lo ≤ n → n ≤ hi → bitAt w n = bitAt w' n) : bits w hi lo = bits w' hi lo := by
  apply Nat.eq_of_testBit_eq
  intro i
  rw [testBit_bits, testBit_bits]
  by_cases hi' : i < hi + 1 - lo
  · rw [h (lo + i) (by omega) (by omega)]
  · simp [hi']

/-- A field of PWR_MODE_STS beside the mode. -/
theorem Dev.Runs.stsFld (h : d.Runs t) (hi lo : Nat) (hlo : 2 < lo) : t.fld Reg.PWR_MODE_STS hi lo = d.fld Reg.PWR_MODE_STS hi lo :=
  bits_congr (fun n hn _ => h.sts n (by omega))

/-- A field of GLB_DEV_STS beside the mode. -/
theorem Dev.Runs.devFld (h : d.Runs t) (hi lo : Nat) (hout : hi < 10 ∨ 12 < lo) : t.fld Reg.GLB_DEV_STS hi lo = d.fld Reg.GLB_DEV_STS hi lo :=
  bits_congr (fun n _ _ => h.dev n (by omega))

/-- A register that does not show the mode is written. -/
theorem Dev.Runs.setReg {off : Nat} (h : off ∉ modeRegs) (v : Word) : d.Runs (d.setReg off v) := by
  simp only [modeRegs, List.mem_cons, List.not_mem_nil, or_false, not_or] at h
  exact .of_regs (Dev.reg_setReg_ne d (Ne.symm h.1) v) (Dev.reg_setReg_ne d (Ne.symm h.2) v)

end

/-- `t` comes from `d` by changes within what `erase` erases, at registers of `rs` only, with outputs only added, the pages' headers only
moved on, and no change of mode but a wake to RUN. -/
structure Dev.Frame (erase : Dev → Dev) (rs : List Nat) (d t : Dev) : Prop where
  kept : erase t = erase d
  regs : ∀ off, off ∉ rs → t.reg off = d.reg off
  out : d.out <+: t.out
  page : ∀ pg, (d.page pg).Later (t.page pg)
  runs : d.Runs t

section
variable {erase : Dev → Dev} {rs : List Nat} {d e t : Dev}

theorem Dev.Frame.refl (d : Dev) : Dev.Frame erase rs d d := ⟨Eq.refl _, fun _ _ => Eq.refl _, List.prefix_rfl, fun _ => .refl _, .refl d⟩

theorem Dev.Frame.trans (h : Dev.Frame erase rs d e) (h' : Dev.Frame erase rs e t) : Dev.Frame erase rs d t :=
  ⟨h'.kept.trans h.kept, fun off hoff => (h'.regs off hoff).trans (h.regs off hoff), h.out.trans h'.out, fun pg => (h.page pg).trans (h'.page pg),
    h.runs.trans h'.runs⟩

theorem Dev.Frame.ite {c : Prop} [Decidable c] (h : Dev.Frame erase rs d e) (h' : Dev.Frame erase rs d t) :
    Dev.Frame erase rs d (if c then e else t) := by
  split
  · exact h
  · exact h'

theorem Dev.Frame.foldl {α : Type} {f : Dev → α → Dev} (h : ∀ e x, Dev.Frame erase rs e (f e x)) (l : List α) (d : Dev) :
    Dev.Frame erase rs d (l.foldl f d) :=
  List.foldlRecOn (motive := fun e : Dev => Dev.Frame erase rs d e) l f (.refl d) (fun e he x _ => he.trans (h e x))

/-- A change that the erasure hides and that touches neither registers nor outputs. -/
theorem Dev.Frame.hidden (h : erase t = erase d) (hr : t.regs = d.regs) (ho : t.out = d.out) (hp : t.pages = d.pages := by rfl) :
    Dev.Frame erase rs d t :=
  ⟨h, fun off _ => by rw [Dev.reg, Dev.reg, hr], ho ▸ List.prefix_rfl, fun pg => by rw [Dev.page, Dev.page, hp]; exact .refl _,
    .of_regs (by rw [Dev.reg, Dev.reg, hr]) (by rw [Dev.reg, Dev.reg, hr])⟩

/-- A page's header moves on. -/
theorem Dev.Frame.setPage {pg : Nat} {p : Page} (hp : (d.page pg).Later p)
    (h : ∀ (x : Dev) (p : Page), erase (x.setPage pg p) = erase x := by intros; rfl) : Dev.Frame erase rs d (d.setPage pg p) := by
  refine ⟨h d p, fun _ _ => rfl, List.prefix_rfl, fun q => ?_, .of_regs rfl rfl⟩
  rw [Dev.page_setPage]
  split
  · next e => exact e ▸ hp
  · exact .refl _

/-- A register of the list is written. -/
theorem Dev.Frame.setReg {off : Nat} (hoff : off ∈ rs) (v : Word) (h : ∀ x : Dev, erase (x.setReg off v) = erase x := by intro; rfl)
    (hm : off ∉ modeRegs := by decide) : Dev.Frame erase rs d (d.setReg off v) :=
  ⟨h d, fun _ hb => Dev.reg_setReg_ne d (ne_of_mem_of_not_mem hoff hb).symm v, List.prefix_rfl, fun _ => .refl _, .setReg hm v⟩

theorem Dev.Frame.setFld {off : Nat} (hoff : off ∈ rs) (hi lo v : Nat) (h : ∀ x : Dev, ∀ v, erase (x.setReg off v) = erase x := by intros; rfl)
    (hm : off ∉ modeRegs := by decide) : Dev.Frame erase rs d (d.setFld off hi lo v) := .setReg hoff _ (fun x => h x _) hm

theorem Dev.Frame.setFlag {off : Nat} (hoff : off ∈ rs) (n : Nat) (b : Bool) (h : ∀ x : Dev, ∀ v, erase (x.setReg off v) = erase x := by intros; rfl)
    (hm : off ∉ modeRegs := by decide) : Dev.Frame erase rs d (d.setFlag off n b) := .setReg hoff _ (fun x => h x _) hm

theorem Dev.Frame.inc64 {a b : Nat} (ha : a ∈ rs) (hb : b ∈ rs) (n : Nat) (h : ∀ x : Dev, erase (x.inc64 a b n) = erase x := by intro; rfl)
    (hma : a ∉ modeRegs := by decide) (hmb : b ∉ modeRegs := by decide) : Dev.Frame erase rs d (d.inc64 a b n) :=
  ⟨h d, fun _ hoff => Dev.reg_inc64_ne d (ne_of_mem_of_not_mem ha hoff).symm (ne_of_mem_of_not_mem hb hoff).symm n, List.prefix_rfl, fun _ => .refl _,
    (Dev.Runs.setReg hma _).trans (.setReg hmb _)⟩

theorem Dev.Frame.set64 {a b : Nat} (ha : a ∈ rs) (hb : b ∈ rs) (v : Nat) (h : ∀ x : Dev, erase (x.set64 a b v) = erase x := by intro; rfl)
    (hma : a ∉ modeRegs := by decide) (hmb : b ∉ modeRegs := by decide) : Dev.Frame erase rs d (d.set64 a b v) :=
  ⟨h d, fun _ hoff => Dev.reg_set64_ne d (ne_of_mem_of_not_mem ha hoff).symm (ne_of_mem_of_not_mem hb hoff).symm v, List.prefix_rfl, fun _ => .refl _,
    (Dev.Runs.setReg hma _).trans (.setReg hmb _)⟩

theorem Dev.Frame.emit (o : Out) (h : ∀ x : Dev, erase (x.emit o) = erase x := by intro; rfl) : Dev.Frame erase rs d (d.emit o) :=
  ⟨h d, fun _ _ => Eq.refl _, List.prefix_append _ _, fun _ => .refl _, .of_regs rfl rfl⟩

/-- A frame with a wider erasure and more registers. -/
theorem Dev.Frame.weaken {erase' : Dev → Dev} {rs' : List Nat} (h : Dev.Frame erase rs d t) (he : ∀ x, erase' (erase x) = erase' x)
    (hrs : ∀ off ∈ rs, off ∈ rs') : Dev.Frame erase' rs' d t :=
  ⟨by rw [← he t, h.kept, he d], fun off hoff => h.regs off (fun hr => hoff (hrs off hr)), h.out, h.page, h.runs⟩

/-- What a frame tells of an output holds after it. -/
theorem Dev.Frame.tells (h : Dev.Frame erase rs e t) {o : Out} (hd : d.out <+: e.out) (ho : d.tells e o) : d.tells t o := by
  obtain ⟨l, hl⟩ := hd
  obtain ⟨l', hl'⟩ := h.out
  rw [Dev.tells, ← hl, List.drop_left] at ho
  rw [Dev.tells, ← hl', ← hl, List.append_assoc, List.drop_left]
  exact List.mem_append_left _ ho

end

/-! ### Reports: errors, incidents and interrupts -/

/-- The device without what reports change. -/
def Dev.sansReports (d : Dev) : Dev :=
  { d with regs := [], pages := [], out := [], pba := [], cap := { Cap.reset with key := d.cap.key }, incidents := [], incWait := [], draws := 0 }

/-- The registers that reports change: the mode (an interrupt wakes the device from IDLE), capture's state and the sheet's. -/
def reportRegs : List Nat := [Reg.PWR_MODE_STS, Reg.GLB_DEV_STS, Reg.PWR_BIAS_NOW, Reg.SCP_CAP_STS, Reg.SCP_INC_STS]

/-- `t` comes from `d` by reports. -/
abbrev Dev.Reports (d t : Dev) : Prop := Dev.Frame Dev.sansReports reportRegs d t

section
variable (d : Dev)

theorem Dev.Reports.recordErr (pg code i0 i1 : Nat) : d.Reports (d.recordErr pg code i0 i1) := by
  refine ⟨by rw [Dev.recordErr_eq]; rfl, fun off _ => Dev.reg_recordErr _ _ _ _ _ _, by rw [Dev.recordErr_eq], fun q => ?_,
    .of_regs (Dev.reg_recordErr _ _ _ _ _ _) (Dev.reg_recordErr _ _ _ _ _ _)⟩
  by_cases hq : q = pg
  · subst hq
    by_cases herr : (d.page q).err = true
    · rw [Dev.page_recordErr_later _ _ _ _ _ herr]
      exact ⟨fun _ => ⟨herr, rfl, rfl, rfl⟩, fun _ h => h⟩
    · rw [Dev.page_recordErr_first _ _ _ _ _ (Bool.not_eq_true _ ▸ herr)]
      exact ⟨fun h => absurd h herr, fun _ h => h⟩
  · rw [Dev.page_recordErr_ne _ hq]
    exact .refl _

theorem Dev.out_msix (h : Option Nat) (vec : Nat) : d.out <+: (d.msix h vec).out := by
  unfold Dev.msix
  split
  · split
    · exact List.prefix_append _ _
    · exact List.prefix_rfl
  · exact List.prefix_rfl

theorem Dev.Reports.msix (h : Option Nat) (vec : Nat) : d.Reports (d.msix h vec) := by
  refine ⟨?_, fun off _ => ?_, Dev.out_msix d h vec, fun q => ?_, ?_⟩
  · rw [Dev.msix_eq]; rfl
  · rw [Dev.msix_eq]; rfl
  · rw [Dev.msix_eq]; exact .refl _
  · rw [Dev.msix_eq]; exact .of_regs rfl rfl

theorem Dev.Reports.raise0 (pg bit : Nat) : d.Reports (d.raise0 pg bit) := by
  have h : d.Reports (d.setPage pg { d.page pg with intPend := putBit (d.page pg).intPend bit true }) :=
    .setPage ⟨fun h => ⟨h, rfl, rfl, rfl⟩, fun _ h => bitAt_putBit_mono h bit⟩
  exact Dev.Frame.ite (h.trans (Dev.Reports.msix _ _ _)) h

/-- The device with another mode, before its change is told. -/
def Dev.moded (d : Dev) (m : Nat) : Dev :=
  let d := (d.setFld Reg.PWR_MODE_STS 2 0 m).setFld Reg.GLB_DEV_STS 12 10 (if m ≤ 2 then m else 0)
  d.setBias (d.fld Reg.PWR_BIAS_NOW 7 0)

theorem Dev.setMode_eq (m : Nat) : d.setMode m = (d.moded m).raise0 0xD00 0 := rfl

theorem Dev.reg_moded_sts (m : Nat) : (d.moded m).reg Reg.PWR_MODE_STS = putBits (d.reg Reg.PWR_MODE_STS) 2 0 m := by
  unfold Dev.moded
  extract_lets e
  rw [Dev.setBias, Dev.reg_setReg_ne _ (by decide), Dev.reg_setFld_ne _ (by decide), Dev.reg_setFld, if_pos rfl]

theorem Dev.reg_moded_dev (m : Nat) : (d.moded m).reg Reg.GLB_DEV_STS = putBits (d.reg Reg.GLB_DEV_STS) 12 10 (if m ≤ 2 then m else 0) := by
  unfold Dev.moded
  extract_lets e
  rw [Dev.setBias, Dev.reg_setReg_ne _ (by decide), Dev.reg_setFld, if_pos rfl, Dev.reg_setFld_ne _ (by decide)]

/-- The mode is shown. -/
theorem Dev.mode_moded {m : Nat} (hm : m < 8) : (d.moded m).mode = m := by
  rw [Dev.mode, Dev.fld, Dev.reg_moded_sts, bits_putBits_self _ _ _ _ (by decide)]
  exact Nat.mod_eq_of_lt hm

/-- A wake to RUN. -/
theorem Dev.Reports.setRun (hm : d.mode = 1) : d.Reports (d.setMode 0) := by
  have h : d.Reports (d.moded 0) := by
    refine ⟨rfl, fun off hoff => ?_, List.prefix_rfl, fun _ => .refl _, Or.inr ⟨hm, Dev.mode_moded d (by decide)⟩, fun n hn => ?_, fun n hn => ?_⟩
    · simp only [reportRegs, List.mem_cons, List.not_mem_nil, or_false, not_or] at hoff
      obtain ⟨hsts, hdev, hbias, -⟩ := hoff
      unfold Dev.moded
      extract_lets e
      rw [Dev.setBias, Dev.reg_setReg_ne _ hbias, Dev.reg_setFld_ne _ hdev, Dev.reg_setFld_ne _ hsts]
    · rw [Dev.flag, Dev.reg_moded_sts, bitAt_putBits_ne _ _ _ _ _ (by decide) (by omega), ← Dev.flag]
    · rw [Dev.flag, Dev.reg_moded_dev, bitAt_putBits_ne _ _ _ _ _ (by decide) (by omega), ← Dev.flag]
  exact h.trans (Dev.Reports.raise0 _ _ _)

theorem Dev.Reports.toRun : d.Reports d.toRun := by
  unfold Dev.toRun
  split
  · next hm => exact Dev.Reports.setRun d hm
  · exact .refl d

theorem Dev.Reports.raise (pg bit : Nat) : d.Reports (d.raise pg bit) := (Dev.Reports.raise0 d pg bit).trans (Dev.Reports.toRun _)

theorem Dev.Reports.chkCount (pg : Nat) : d.Reports (d.chkCount pg) :=
  .setPage ⟨fun h => ⟨h, rfl, rfl, rfl⟩, fun _ h => h⟩

/-- A record leaves the capture key. -/
theorem Dev.capKey_capAdd (kind src flags : Nat) (ws : List Nat) (n body : Nat) : (d.capAdd kind src flags ws n body).cap.key = d.cap.key := by
  have hadd : ∀ room (c : Cap) r, (c.add room r).key = c.key := by
    intro room c r
    unfold Cap.add
    split
    · rfl
    · split
      · rfl
      · rfl
  unfold Dev.capAdd
  extract_lets r
  split
  · exact hadd _ _ _
  · rfl

theorem Dev.Reports.capAdd (kind src flags : Nat) (ws : List Nat) (n body : Nat) : d.Reports (d.capAdd kind src flags ws n body) := by
  have hkey := Dev.capKey_capAdd d kind src flags ws n body
  rw [Dev.capAdd_eq]
  refine .hidden ?_ rfl rfl
  unfold Dev.sansReports
  rw [hkey]

theorem Dev.Reports.capRec (kind src : Nat) (fs : Fields) : d.Reports (d.capRec kind src fs) := Dev.Reports.capAdd d _ _ _ _ _ _

theorem Dev.Reports.capRecFree (kind src : Nat) (ws : List Nat) : d.Reports (d.capRecFree kind src ws) :=
  .ite ((Dev.Reports.capAdd d _ _ _ _ _ _).trans (.hidden rfl rfl rfl)) (.refl d)

/-- Another capture state with the same key. -/
theorem Dev.Reports.setCap {c : Cap} (h : c.key = d.cap.key) : d.Reports { d with cap := c } := by
  refine .hidden ?_ rfl rfl
  unfold Dev.sansReports
  rw [h]

theorem Dev.Reports.capKey {d t : Dev} (h : d.Reports t) : t.cap.key = d.cap.key := congrArg (·.cap.key) h.kept

theorem Dev.Reports.capStop : d.Reports d.capStop := by
  have h : d.Reports (((d.setFlag Reg.SCP_CAP_STS 0 false).setFlag Reg.SCP_CAP_STS 2 true).raise 0xF57 2) :=
    (Dev.Frame.setReg (by decide) _).trans <| (Dev.Frame.setReg (by decide) _).trans <| Dev.Reports.raise _ _ _
  exact .ite (h.trans (Dev.Reports.setCap _ h.capKey.symm)) (.refl d)

theorem Dev.Reports.capTrigger : d.Reports d.capTrigger := by
  have h : d.Reports ((d.setFlag Reg.SCP_CAP_STS 1 true).raise 0xF57 1) := (Dev.Frame.setReg (by decide) _).trans (Dev.Reports.raise _ _ _)
  have h' : d.Reports { (d.setFlag Reg.SCP_CAP_STS 1 true).raise 0xF57 1 with
      cap := { d.cap with post := some (d.fld Reg.SCP_CAP_CTL 31 16), trigAt := some d.cap.rnum } } := h.trans (Dev.Reports.setCap _ h.capKey.symm)
  exact .ite (h'.trans (Dev.Reports.capStop _)) h'

theorem Dev.Reports.logIncident (e : Incident) : d.Reports (d.logIncident e) := by
  unfold Dev.logIncident
  extract_lets trig d1 n d2 first d3
  have h1 : d.Reports d1 := Dev.Frame.ite (Dev.Reports.capTrigger d) (.refl d)
  refine h1.trans (Dev.Frame.ite ?_ ?_)
  · have h2 : d1.Reports d2 := .hidden rfl rfl rfl
    have h3 : d2.Reports (d2.setFld Reg.SCP_INC_STS 12 0 n) := .setFld (by decide) _ _ _
    exact h2.trans (h3.trans (.setFlag (by decide) _ _))
  · exact (Dev.Frame.setReg (by decide) _).trans <| .ite (Dev.Reports.raise _ _ _) (.refl _)

theorem Dev.Reports.incident (blk code i0 i1 : Nat) (slice lba loc page : Option Nat) :
    d.Reports (d.incident blk code i0 i1 slice lba loc page) :=
  .ite (.hidden rfl rfl rfl) (Dev.Reports.logIncident d _)

theorem Dev.Reports.errIncident (pg code i0 i1 : Nat) (slice lba loc page : Option Nat) :
    d.Reports (d.errIncident pg code i0 i1 slice lba loc page) :=
  (Dev.Reports.recordErr d pg code i0 i1).trans (Dev.Reports.incident _ _ _ _ _ _ _ _ _)

end

end Sys2Proof.Machine
end

section
/-! The frame of completing commands: what a completion entry's writing and its consequences leave (R103, R115, R119, R124). -/

namespace Sys2Proof.Machine

-- In order, one declaration at a time: keeps the check within its memory limit.
set_option Elab.async false

/-- The device without what completing a command changes: its queue and slice, the versions it posts or takes back, their map entries and the
messages that say so to the twin, the scorepad, the outputs. -/
def Dev.sansPosting (d : Dev) : Dev :=
  { d with
    regs := [], out := [], pba := [], cap := { Cap.reset with key := d.cap.key }, draws := 0, banks := [], sbWait := [], queues := [], slices := [],
    exp := { seqNo := 0, cursor := 0, behind := [], looked := false }, map := [], mapPend := [], resident := [], refBits := [], mapWant := [],
    dirty := [], lost := [], dlog := 0, dlogRing := [], cache := [], freeQ := [], gTx := 0, gPend := [], gLastTx := 0, gSaid := 0 }

/-- The registers that completing a command changes. -/
def postRegs : List Nat :=
  [Reg.STK_PWC_USED, Reg.STK_PWC_CREDIT, Reg.STK_PWC_STS, Reg.MAP_VALID_LO, Reg.MAP_VALID_HI, Reg.MAP_RELOC_LO, Reg.MAP_RELOC_HI,
   Reg.MAP_DLOG_USED, Reg.MAP_CACHE_DIRTY, Reg.TWN_TX_INV, Reg.TWN_MIR_PEND, Reg.VSL_EXP_BEHIND]

/-- `t` comes from `d` by completing commands. -/
abbrev Dev.Posts (d t : Dev) : Prop := Dev.Frame Dev.sansPosting postRegs d t

section
variable (d : Dev)

theorem Dev.Posts.revalid : d.Posts d.revalid := .set64 (by decide) (by decide) _

theorem Dev.Posts.freeSlots (n : Nat) : d.Posts (d.freeSlots n) :=
  (Dev.Frame.setFld (by decide) _ _ _).trans <| (Dev.Frame.setFld (by decide) _ _ _).trans (.setFlag (by decide) _ _)

theorem Dev.Posts.dropVers (p : Ver → Bool) : d.Posts (d.dropVers p) := by
  unfold Dev.dropVers
  extract_lets gone d1 d2 d3
  have h1 : d.Posts d1 := .hidden rfl rfl rfl
  have h3 : d.Posts d3 := (h1.trans (Dev.Posts.freeSlots _ _)).trans (Dev.Posts.revalid _)
  exact Dev.Frame.ite (.refl d) (Dev.Frame.ite (h3.trans (.hidden rfl rfl rfl)) h3)

theorem Dev.Posts.putGulon (kind mnum : Nat) (last : Bool) (fs : Fields) : d.Posts (d.putGulon kind mnum last fs) := by
  unfold Dev.putGulon
  extract_lets inv len hd d1
  have h1 : d.Posts d1 := Dev.Frame.ite ((Dev.Frame.emit _).trans (.hidden rfl rfl rfl)) (.emit _)
  have h2 : d1.Posts (d1.setReg Reg.TWN_TX_INV (w32 (inv + 1))) := .setReg (by decide) _
  exact Dev.Frame.ite (.refl d) (h1.trans (h2.trans (.hidden rfl rfl rfl)))

theorem Dev.Posts.sendPart (kind : Nat) (last : Bool) (fs : Fields) : d.Posts (d.sendPart kind last fs) := by
  unfold Dev.sendPart
  extract_lets go d1 d2
  have h1 : d.Posts d1 := Dev.Frame.ite (Dev.Posts.putGulon d _ _ _ _) (.refl d)
  have h2 : d1.Posts d2 := .hidden rfl rfl rfl
  exact Dev.Frame.ite (h1.trans (h2.trans (.setFld (by decide) _ _ _))) (.refl d)

theorem Dev.Posts.sendGulon (kind : Nat) (fs : Fields) : d.Posts (d.sendGulon kind fs) := Dev.Posts.sendPart d _ _ _

theorem Dev.Posts.journal (b : JBatch) : d.Posts (d.journal b) := .ite (Dev.Posts.sendGulon d _ _) (.refl d)

theorem Dev.Posts.setSlice (s : Nat) (x : Slice) : d.Posts (d.setSlice s x) := .hidden rfl rfl rfl

theorem Dev.Posts.setQueue (q : Nat) (x : Queue) : d.Posts (d.setQueue q x) := .hidden rfl rfl rfl

theorem Dev.Posts.setKept (s : Nat) (x : Slice) : d.Posts (d.setKept s x) :=
  (Dev.Posts.setSlice d s x).trans (.ite (Dev.Posts.journal _ _) (.refl _))

theorem Dev.Posts.unmerge (s g gv : Nat) : d.Posts (d.unmerge s g gv) := by
  unfold Dev.unmerge
  extract_lets hit d1
  have h1 : d.Posts d1 := .hidden rfl rfl rfl
  exact Dev.Frame.ite (.refl d) (Dev.Frame.ite (h1.trans (Dev.Posts.sendGulon _ _ _)) h1)

theorem Dev.Posts.makeResident (pk : Nat) : d.Posts (d.makeResident pk) := by
  unfold Dev.makeResident
  refine Dev.Frame.ite (.refl d) ?_
  split <;> exact .hidden rfl rfl rfl

theorem Dev.Posts.putEnt (slice granule : Nat) (e : MapEnt) : d.Posts (d.putEnt slice granule e) := by
  unfold Dev.putEnt
  extract_lets pk d1 d2 d3 d4
  have h1 : d.Posts d1 := .hidden rfl rfl rfl
  have h2 : d1.Posts d2 := .setFld (by decide) _ _ _
  have h3 : d2.Posts d3 := Dev.Posts.makeResident _ _
  have h4 : d3.Posts d4 := Dev.Frame.ite (.refl _) (.hidden rfl rfl rfl)
  exact h1.trans <| h2.trans <| h3.trans <| h4.trans <| (Dev.Frame.setFld (by decide) _ _ _).trans (Dev.Posts.revalid _)

theorem Dev.Posts.applyEnt (x : MapChg) : d.Posts (d.applyEnt x) := by
  unfold Dev.applyEnt
  split
  · exact Dev.Frame.ite ((Dev.Posts.putEnt d _ _ _).trans (.inc64 (by decide) (by decide) _)) (.refl d)
  · exact Dev.Frame.ite ((Dev.Posts.putEnt d _ _ _).trans (Dev.Posts.dropVers _ _)) (Dev.Posts.dropVers _ _)

theorem Dev.Posts.applyOwned (o : Nat) : d.Posts (d.applyOwned o) :=
  Dev.Frame.trans (e := { d with mapPend := d.mapPend.filter (fun x => x.owner != some o) }) (.hidden rfl rfl rfl) (.foldl Dev.Posts.applyEnt _ _)

theorem Dev.Posts.countBehind (s : Nat) (gs : List Nat) : d.Posts (d.countBehind s gs) := by
  unfold Dev.countBehind
  extract_lets lo hit
  have h : d.Posts { d with exp := { d.exp with behind := d.exp.behind ++ hit } } := .hidden rfl rfl rfl
  exact Dev.Frame.ite (.refl d) (h.trans (.setFld (by decide) _ _ _))

theorem Dev.Posts.onPost (qid : Nat) (c : Cmd) : d.Posts (d.onPost qid c) := by
  unfold Dev.onPost
  extract_lets s d1 d2
  have h1 : d.Posts d1 := .hidden rfl rfl rfl
  exact h1.trans <| (Dev.Posts.countBehind _ _ _).trans (Dev.Posts.applyOwned _ _)

theorem Dev.Posts.onFail (qid : Nat) (c : Cmd) : d.Posts (d.onFail qid c) := by
  unfold Dev.onFail
  extract_lets mine placed gone d1 d2 d3 x
  have h0 : d.Posts { d with mapPend := d.mapPend.filter (fun x => x.owner != some (qid * 32 + c.tag)) } := .hidden rfl rfl rfl
  have h1 : d.Posts d1 := h0.trans (Dev.Posts.dropVers _ _)
  have h2 : d1.Posts d2 := .foldl (fun e _ => Dev.Posts.unmerge e _ _ _) _ _
  have h3 : d2.Posts d3 := (Dev.Frame.ite (Dev.Posts.revalid _) (.refl _)).trans (Dev.Posts.freeSlots _ _)
  exact h1.trans <| h2.trans <| h3.trans <| Dev.Frame.ite (Dev.Posts.setKept _ _ _) (.refl _)

theorem Dev.Posts.msix (h : Option Nat) (vec : Nat) : d.Posts (d.msix h vec) := by
  refine ⟨?_, fun off _ => ?_, Dev.out_msix d h vec, fun q => ?_, ?_⟩
  · rw [Dev.msix_eq]; rfl
  · rw [Dev.msix_eq]; rfl
  · rw [Dev.msix_eq]; exact .refl _
  · rw [Dev.msix_eq]; exact .of_regs rfl rfl

theorem Dev.Posts.announce (qid : Nat) : d.Posts (d.announce qid) := by
  unfold Dev.announce
  extract_lets q d1
  have h1 : d.Posts d1 := Dev.Posts.setQueue _ _ _
  exact Dev.Frame.ite (h1.trans (Dev.Posts.msix _ _ _)) h1

theorem Dev.Posts.score (src v : Nat) (slice cls group : Option Nat) : d.Posts (d.score src v slice cls group) := by
  unfold Dev.score
  refine Dev.Frame.foldl (fun e b => ?_) _ _
  exact Dev.Frame.ite (.refl e) (Dev.Frame.ite (.hidden rfl rfl rfl) (.hidden rfl rfl rfl))

theorem Dev.Posts.scorePost (qid : Nat) (c : Cmd) : d.Posts (d.scorePost qid c) := by
  unfold Dev.scorePost
  extract_lets s lat src d1
  have h1 : d.Posts d1 := Dev.Frame.ite (Dev.Posts.score d _ _ _ _ _) (.refl d)
  exact h1.trans (Dev.Frame.ite (Dev.Posts.score _ _ _ _ _ _) (.refl _))

theorem Dev.Posts.capRec (kind src : Nat) (fs : Fields) : d.Posts (d.capRec kind src fs) := by
  have hkey : (d.capRec kind src fs).cap.key = d.cap.key := Dev.capKey_capAdd d _ _ _ _ _ _
  rw [Dev.capRec_eq]
  refine .hidden ?_ rfl rfl
  unfold Dev.sansPosting
  rw [hkey]

theorem Dev.Posts.writeCe (qid head : Nat) (ce : CE) : d.Posts (d.writeCe qid head ce) := by
  unfold Dev.writeCe
  extract_lets q n timeb tagw d1 cmd q1 d2 d3 now
  have h1 : d.Posts d1 := (Dev.Posts.capRec d _ _ _).trans (.emit _)
  have h2 : d1.Posts d2 := Dev.Posts.setQueue _ _ _
  have h3 : d2.Posts d3 := by
    clear_value cmd d2
    cases cmd with
    | none => exact .refl _
    | some c =>
      exact (Dev.Posts.scorePost _ _ _).trans <| (Dev.Posts.setSlice _ _ _).trans <|
        Dev.Frame.ite (Dev.Frame.ite (Dev.Posts.onPost _ _ _) (Dev.Posts.onFail _ _ _)) (.refl _)
  exact h1.trans <| h2.trans <| h3.trans <| Dev.Frame.ite (Dev.Posts.announce _ _) (.refl _)

theorem Dev.Posts.post (qid : Nat) (ce : CE) : d.Posts (d.post qid ce) := by
  simp only [Dev.post]
  split
  · exact Dev.Posts.writeCe _ _ _ _
  · exact Dev.Posts.setQueue _ _ _

theorem Dev.Posts.complete (qid tag status info : Nat) : d.Posts (d.complete qid tag status info) := Dev.Posts.post d _ _

theorem Dev.Posts.completeAll (status : Nat) : d.Posts (d.completeAll status) :=
  .foldl (fun _ _ => .foldl (fun e _ => Dev.Posts.complete e _ _ _ _) _ _) _ _

end

end Sys2Proof.Machine
end

section
/-! The commands a bridge carries out at once (R260, R264, R273, R275 to R283). -/

namespace Sys2Proof.Machine

-- In order, one declaration at a time: keeps the check within its memory limit.
set_option Elab.async false

/-! ### A bridge that is taken from this unit -/

section
variable (d : Dev)

theorem Dev.bridges_setTwin (st : Nat) : (d.setTwin st).bridges = d.bridges := by
  have hraise : ∀ (e : Dev) (pg bit : Nat), (e.raise pg bit).bridges = e.bridges := fun e pg bit =>
    congrArg (·.bridges) (Dev.Reports.raise e pg bit).kept
  unfold Dev.setTwin
  extract_lets d1 d2
  have h2 : d2.bridges = d.bridges := rfl
  split
  · rfl
  · split
    · exact hraise _ _ _
    · split
      · exact hraise _ _ _
      · split
        · exact hraise _ _ _
        · exact h2

theorem Dev.bridges_fenced : d.fenced.bridges = d.bridges := by
  unfold Dev.fenced
  split
  · rfl
  · exact (congrArg (·.bridges) (Dev.Posts.completeAll (d.setTwin 5).stopFetch stFailover).kept).trans (Dev.bridges_setTwin d 5)

theorem Dev.bridges_ownLost (p fence : Nat) : (d.ownLost p fence).bridges = d.bridges := by
  unfold Dev.ownLost
  split
  · exact (Dev.bridges_fenced _).trans
      (congrArg (·.bridges) ((Dev.Reports.recordErr _ _ _ _ _).trans (Dev.Reports.raise _ _ _)).kept)
  · rfl

theorem Dev.bridge_ownLost (p fence q : Nat) : (d.ownLost p fence).bridge q = d.bridge q := by
  rw [Dev.bridge, Dev.bridges_ownLost, Dev.bridge]

end

/-! ### The bridge after it has noted who spoke -/

section
variable (d : Dev) (p : Nat) (c : BCmd)

/-- Only `heard` may differ. -/
theorem Dev.bridge_hearOn : (d.hearOn p c).bridge p =
    if (d.bridge p).holder = c.side % 2 + 1 then { d.bridge p with heard := c.seq % 4096 } else d.bridge p := by
  unfold Dev.hearOn
  split
  · exact Dev.bridge_setBridge_self _ _ _
  · rfl

theorem Dev.out_hearOn : (d.hearOn p c).out = d.out := by
  unfold Dev.hearOn
  split <;> rfl

variable {p c}

theorem Dev.bridge_hearOn_mine (h : (d.bridge p).holder = c.side % 2 + 1) :
    (d.hearOn p c).bridge p = { d.bridge p with heard := c.seq % 4096 } := (Dev.bridge_hearOn d p c).trans (if_pos h)

variable (p c)

theorem Dev.dies_hearOn : ((d.hearOn p c).bridge p).dies = (d.bridge p).dies := by
  rw [Dev.bridge_hearOn]
  split <;> rfl

theorem Dev.die_hearOn (i : Nat) : ((d.hearOn p c).bridge p).die i = (d.bridge p).die i := by
  rw [Bridge.die, Dev.dies_hearOn, Bridge.die]

theorem Dev.holder_hearOn : ((d.hearOn p c).bridge p).holder = (d.bridge p).holder := by
  rw [Dev.bridge_hearOn]
  split <;> rfl

theorem Dev.fence_hearOn : ((d.hearOn p c).bridge p).fence = (d.bridge p).fence := by
  rw [Dev.bridge_hearOn]
  split <;> rfl

theorem Dev.addrBad_none : d.addrBad p c false false false = false := rfl

end

/-! ### One command at a time -/

section
variable (s : State) {p : Nat} {c : BCmd}

theorem exec_dieStatus (hp : p < 512) (hon : (s.dev.bridge p).power = 0) (harm : c.arm = false) (hunused : cmdUnused c 0x06 = false)
    (info : Bool) (byte : Nat) (temp : Int) :
    let b := s.dev.bridge p
    let i := c.die % 64
    let y : BDie := if b.holder = c.side % 2 + 1 ∧ (b.die i).st ≠ .absent then { b.die i with onfi := byte % 256, temp := temp } else b.die i
    ∃ t more, exec (.dieStatus p c info byte temp) s = .next t ∧ (t.dev.bridge p).die i = y ∧ more.length = (if info then 5 else 0) ∧
      s.dev.tells t.dev (.response p (c.side % 2) 0x86 0 (c.tag % 4096) y.onfi 0
        ([y.st.code, y.sus, y.lastTag, y.lastSt, (y.temp % 256).toNat] ++ more)) := by
  intro b i y
  refine ⟨_, if info then [Config.bridgeModel p % 65536, Config.bridgeFirmware p % 65536, (s.dev.hearOn p c).bridgeBlocks p,
    ((List.range 64).filter (fun j => (((s.dev.hearOn p c).bridge p).die j).st != .absent)).length, Config.bridgeTa p % 65536] else [], rfl, ?_⟩
  unfold doDieStatus
  rw [Dev.bridgeCmd_goes s.dev hp c _ _ _ _ _ _ _ _ (Bridge.hears_of_on hon _) (fun h => absurd h Bool.false_ne_true) harm hunused rfl rfl]
  simp only [Dev.die_hearOn, Dev.holder_hearOn]
  refine ⟨?_, by cases info <;> rfl, Dev.tells_of_out [] [] ?_⟩
  · simp only [Dev.respond, Dev.bridge_emit, Dev.bridge_setBridge_self, Bridge.die_setDie_self]
    exact Bridge.die_setDie_self _ _ _
  · simp only [Dev.respond, Dev.out_emit, Dev.out_setBridge, Dev.out_hearOn, Dev.bridge_setBridge_self, Bridge.die_setDie_self]
    rfl

theorem exec_setOffsets (hp : p < 512) (hon : (s.dev.bridge p).power = 0) (harm : c.arm = false) (hunused : cmdUnused c 0x07 = false)
    (hmine : (s.dev.bridge p).holder = c.side % 2 + 1) (slot : Nat) (ofs : List Int) (hslot : slot % 8 ≠ 7)
    (haddr : s.dev.addrBad p c true false false = false) :
    ∃ t, exec (.setOffsets p c slot ofs) s = .next t ∧
      ((t.dev.bridge p).slots.find (c.die % 64 * 8 + slot % 8)).map List.length = some 60 ∧
      s.dev.tells t.dev (.response p (c.side % 2) 0x82 0 (c.tag % 4096) ((s.dev.bridge p).die (c.die % 64)).onfi 0 [0x07, 0, 0]) := by
  refine ⟨_, rfl, ?_⟩
  unfold doSetOffsets
  rw [Dev.bridgeCmd_goes s.dev hp c _ _ _ _ _ _ _ _ (Bridge.hears_of_on hon _) (fun _ => hmine) harm hunused
    (beq_eq_false_iff_ne.mpr hslot) haddr]
  have hb := Dev.bridge_hearOn_mine s.dev hmine
  refine ⟨?_, Dev.tells_of_out [] [] ?_⟩
  · simp only [Dev.respond, Dev.bridge_emit, Dev.bridge_setBridge_self, SMap.find_insert_self, Option.map_some, List.length_map,
      List.length_range]
  · simp only [Dev.respond, Dev.out_emit, Dev.out_setBridge, Dev.out_hearOn, Dev.bridge_setBridge_self, hb]
    rfl

theorem exec_laneTest (hp : p < 512) (hon : (s.dev.bridge p).power = 0) (harm : c.arm = false) (hunused : cmdUnused c 0x0B = false)
    (mode dur stamp errors : Nat) (hmode : mode ≤ 2) (hdur : dur ≤ 255) :
    exec (.laneTest p c mode dur stamp errors) s = .next { s with dev := ((s.dev.hearOn p c).emit
      (.response p (c.side % 2) 0x8B 0 (c.tag % 4096) 0 0 [stamp % 2 ^ 64, if mode = 0 then 0 else errors % 2 ^ 64])) } := by
  have harg : (decide (2 < mode) || decide (255 < dur)) = false := by simp; omega
  show Host.Outcome.next { s with dev := doLaneTest p c mode dur stamp errors s.dev } = _
  unfold doLaneTest
  rw [Dev.bridgeCmd_goes s.dev hp c _ _ _ _ _ _ _ _ (Bridge.hears_of_on hon _) (fun h => absurd h Bool.false_ne_true) harm hunused harg rfl]
  rfl

/-- PDATA of the holder goes to the check of its buffer. -/
theorem exec_pdata (hp : p < 512) (hon : (s.dev.bridge p).power = 0) (harm : c.arm = false) (hunused : cmdUnused c 0x0C = false)
    (hmine : (s.dev.bridge p).holder = c.side % 2 + 1) {buf : Nat} (hbuf : buf < 32) (x : Nat) :
    let h : Bridge := { s.dev.bridge p with heard := c.seq % 4096 }
    exec (.pdata p c buf x) s = .next { s with dev := (
      if ((s.dev.bridge p).bufs.find buf).isSome then (s.dev.hearOn p c).refuseCmd p c 0x0C bsBusy
      else (s.dev.hearOn p c).setBridge p { h with bufs := SMap.insert (s.dev.bridge p).bufs buf x }) } := by
  have harg : decide (31 < buf) = false := decide_eq_false (by omega)
  intro h
  show Host.Outcome.next { s with dev := doPdata p c buf x s.dev } = _
  unfold doPdata
  rw [Dev.bridgeCmd_goes s.dev hp c _ _ _ _ _ _ _ _ (Bridge.hears_of_on hon _) (fun _ => hmine) harm hunused harg rfl,
    Dev.bridge_hearOn_mine s.dev hmine]

theorem Bridge.hears_ret {b : Bridge} (h : b.power ≤ 1) {opc : Nat} (hopc : opc = 0x08 ∨ opc = 0x09 ∨ opc = 0x0A) : b.hears opc = true := by
  have hpow : b.power = 0 ∨ b.power = 1 := by omega
  obtain hpow | hpow := hpow <;> simp [Bridge.hears, hpow, hopc, or_assoc]

/-- What OWN_TAKE does once heard. -/
def Dev.takeBridge (d : Dev) (p : Nat) (c : BCmd) (f : Nat) (force : Bool) : Dev :=
  let b := d.bridge p
  let me := c.side % 2 + 1
  if if force then fenceNewer f b.fence else b.holder == 0 then
    let b' := if force then
        { b with arms := [], bufs := [], dies := b.dies.map (fun (kv : Nat × BDie) => (kv.1, { kv.2 with orphan := kv.2.busy })) }
      else b
    let d := (d.setBridge p { b' with holder := me, fence := f }).respond p c 0x88 0 [me, f]
    if b.holder = d.side + 1 ∧ me ≠ d.side + 1 then d.ownLost p f else d
  else d.respond p c 0x88 bsNotOwner [b.holder, b.fence]

theorem exec_ownTake (hp : p < 512) (hon : (s.dev.bridge p).power ≤ 1) (harm : c.arm = false) (hunused : cmdUnused c 0x08 = false)
    (fence : Nat) (force : Bool) :
    exec (.ownTake p c fence force) s = .next { s with dev := (s.dev.hearOn p c).takeBridge p c (fence % 65536) force } := by
  show Host.Outcome.next { s with dev := doOwnTake p c fence force s.dev } = _
  unfold doOwnTake
  rw [Dev.bridgeCmd_goes s.dev hp c _ _ _ _ _ _ _ _ (Bridge.hears_ret hon (.inl rfl)) (fun h => absurd h Bool.false_ne_true) harm hunused rfl rfl]
  rfl

/-- A take of a free bridge (R276). -/
theorem Dev.takeBridge_free (d : Dev) (p : Nat) (c : BCmd) (f : Nat) (h : (d.bridge p).holder = 0) :
    d.takeBridge p c f false = (d.setBridge p { d.bridge p with holder := c.side % 2 + 1, fence := f }).emit
      (.response p (c.side % 2) 0x88 0 (c.tag % 4096) 0 0 [c.side % 2 + 1, f]) := by
  have hne : ¬ (0 = ((d.setBridge p { d.bridge p with holder := c.side % 2 + 1, fence := f }).respond p c 0x88 0 [c.side % 2 + 1, f]).side + 1 ∧
      c.side % 2 + 1 ≠ ((d.setBridge p { d.bridge p with holder := c.side % 2 + 1, fence := f }).respond p c 0x88 0 [c.side % 2 + 1, f]).side + 1) :=
    fun h => by omega
  simp only [Dev.takeBridge, h, Bool.false_eq_true, if_false, beq_self_eq_true, if_true]
  rw [if_neg hne]
  rfl

/-- A forced take with a newer FENCE empties the arms and buffers (R277). -/
theorem Dev.takeBridge_force (d : Dev) (p : Nat) (c : BCmd) (f : Nat) (h : fenceNewer f (d.bridge p).fence = true) :
    ∃ dies, (d.takeBridge p c f true).bridge p =
      { d.bridge p with holder := c.side % 2 + 1, fence := f, arms := [], bufs := [], dies := dies } := by
  refine ⟨(d.bridge p).dies.map (fun (kv : Nat × BDie) => (kv.1, { kv.2 with orphan := kv.2.busy })), ?_⟩
  simp only [Dev.takeBridge, if_true, h]
  split
  · rw [Dev.bridge_ownLost]
    exact Dev.bridge_setBridge_self _ _ _
  · exact Dev.bridge_setBridge_self _ _ _

theorem exec_ownTake_refused (hp : p < 512) (hon : (s.dev.bridge p).power ≤ 1) (harm : c.arm = false) (hunused : cmdUnused c 0x08 = false)
    (fence : Nat) (force : Bool)
    (h : (force = false ∧ (s.dev.bridge p).holder ≠ 0) ∨ (force = true ∧ fenceNewer (fence % 65536) (s.dev.bridge p).fence = false)) :
    exec (.ownTake p c fence force) s = .next { s with dev := ((s.dev.hearOn p c).emit
      (.response p (c.side % 2) 0x88 0x03 (c.tag % 4096) 0 0 [(s.dev.bridge p).holder, (s.dev.bridge p).fence])) } := by
  rw [exec_ownTake s hp hon harm hunused]
  simp only [Dev.takeBridge, Dev.holder_hearOn, Dev.fence_hearOn]
  rw [if_neg]
  · rfl
  · obtain ⟨rfl, h⟩ | ⟨rfl, h⟩ := h <;> simp [h]


theorem exec_ownRelease (hp : p < 512) (hon : (s.dev.bridge p).power ≤ 1) (harm : c.arm = false) (hunused : cmdUnused c 0x09 = false)
    (hmine : (s.dev.bridge p).holder = c.side % 2 + 1) (hrest : (s.dev.bridge p).outstanding = false) :
    ∃ t, exec (.ownRelease p c) s = .next t ∧ t.dev.bridge p = { s.dev.bridge p with heard := c.seq % 4096, holder := 0 } ∧
      s.dev.tells t.dev (.response p (c.side % 2) 0x88 0 (c.tag % 4096) 0 0 [0, (s.dev.bridge p).fence]) := by
  have hb := Dev.bridge_hearOn_mine s.dev hmine
  have hrest' : ((s.dev.hearOn p c).bridge p).outstanding = false := by
    rw [hb]
    exact hrest
  refine ⟨_, rfl, ?_⟩
  unfold doOwnRelease
  rw [Dev.bridgeCmd_goes s.dev hp c _ _ _ _ _ _ _ _ (Bridge.hears_ret hon (.inr (.inl rfl))) (fun _ => hmine) harm hunused rfl rfl]
  simp only [hrest', Bool.false_eq_true, if_false]
  refine ⟨?_, Dev.tells_of_out [] [] ?_⟩
  · simp only [Dev.respond, Dev.bridge_emit, Dev.bridge_setBridge_self, hb]
  · simp only [Dev.respond, Dev.out_emit, Dev.out_setBridge, Dev.out_hearOn, hb]
    rfl

theorem exec_bridgePower (hp : p < 512) (hon : (s.dev.bridge p).power ≤ 1) (harm : c.arm = false) (hunused : cmdUnused c 0x0A = false)
    (hmine : (s.dev.bridge p).holder = c.side % 2 + 1) (hrest : (s.dev.bridge p).outstanding = false) {state : Nat} (hstate : state ≤ 2) :
    ∃ t, exec (.bridgePower p c state) s = .next t ∧
      t.dev.bridge p = { s.dev.bridge p with
        heard := c.seq % 4096, power := state, slots := if state = 2 then [] else (s.dev.bridge p).slots } ∧
      s.dev.tells t.dev (.response p (c.side % 2) 0x8A 0 (c.tag % 4096) 0 0 [state]) := by
  have hb := Dev.bridge_hearOn_mine s.dev hmine
  have hrest' : ((s.dev.hearOn p c).bridge p).outstanding = false := by
    rw [hb]
    exact hrest
  refine ⟨_, rfl, ?_⟩
  unfold doBridgePower
  rw [Dev.bridgeCmd_goes s.dev hp c _ _ _ _ _ _ _ _ (Bridge.hears_ret hon (.inr (.inr rfl))) (fun _ => hmine) harm hunused
    (decide_eq_false (by omega)) rfl]
  simp only [hrest', Bool.false_eq_true, if_false]
  refine ⟨?_, Dev.tells_of_out [] [] ?_⟩
  · simp only [Dev.respond, Dev.bridge_emit, Dev.bridge_setBridge_self, hb]
  · simp only [Dev.respond, Dev.out_emit, Dev.out_setBridge, Dev.out_hearOn]
    rfl

end

/-- Settles O30: each command passes the common checks and goes to its own effect. -/
theorem bridgeCommands : Obligations.BridgeCommands := by
  intro s p c hp b me tag i onfi h d harm
  refine ⟨fun hon hunused => ⟨?_, ?_⟩, fun hon hunused => ⟨?_, ?_, ?_⟩, fun hon hunused => ⟨?_, ?_, ?_, fun hmine hrest => ⟨?_, ?_⟩⟩⟩
  · exact fun info byte temp => exec_dieStatus s hp hon harm hunused info byte temp
  · exact fun slot ofs hmine hslot haddr => exec_setOffsets s hp hon harm hunused hmine slot ofs hslot haddr
  · exact fun mode dur stamp errors hmode hdur => exec_laneTest s hp hon harm hunused mode dur stamp errors hmode hdur
  · intro buf x hmine hbuf hfree
    rw [exec_pdata s hp hon harm hunused hmine hbuf x, if_neg (Bool.not_eq_true _ ▸ Option.isSome_eq_false_iff.mpr (Option.isNone_iff_eq_none.mpr hfree))]
    exact ⟨_, rfl, Dev.bridge_setBridge_self _ _ _, Dev.out_hearOn s.dev p c⟩
  · intro buf x hmine hbuf hfull
    rw [exec_pdata s hp hon harm hunused hmine hbuf x, if_pos hfull, Dev.refuseCmd_eq, Dev.die_hearOn]
    rfl
  · intro fence hfree
    have hnot : (s.dev.bridge p).holder ≠ c.side % 2 + 1 := by rw [hfree]; omega
    rw [exec_ownTake s hp hon harm hunused, Dev.hearOn_other hnot, Dev.takeBridge_free _ _ _ _ hfree]
  · intro fence hnewer
    rw [← Dev.fence_hearOn s.dev p c] at hnewer
    obtain ⟨dies, hb⟩ := Dev.takeBridge_force (s.dev.hearOn p c) p c _ hnewer
    refine ⟨_, exec_ownTake s hp hon harm hunused fence true, ?_⟩
    dsimp only
    rw [hb]
    exact ⟨rfl, rfl, rfl, rfl⟩
  · exact fun fence force h => exec_ownTake_refused s hp hon harm hunused fence force h
  · exact exec_ownRelease s hp hon harm hunused hmine hrest
  · exact fun state hstate => exec_bridgePower s hp hon harm hunused hmine hrest hstate

end Sys2Proof.Machine
end

section
/-! A register write to an open page whose value sets no RSVD bit: beside its effect, only the lock's time, SEQ and the published copies change. -/

namespace Sys2Proof.Machine

-- In order, one declaration at a time: keeps the check within its memory limit.
set_option Elab.async false

/-- A page header without its lock time, its SEQ and its spacing. -/
def Page.body (p : Page) : Page := { p with lastWr := 0, seq := 0, pubTick := none }

/-- From `d` to `t` a write has arrived: its capture record is written and the page's lock time renewed. -/
def Dev.Arrives (d t : Dev) : Prop := ∃ cap pages, t = { d with cap := cap, pages := pages } ∧ (∀ q, (t.page q).body = (d.page q).body) ∧
  (d.flag Reg.SCP_CAP_STS 0 = false → cap = d.cap) ∧ cap.key = d.cap.key

/-- From `d` to `t` values have been published. -/
def Dev.Publishes (d t : Dev) : Prop :=
  ∃ pub pages cs, t = { d with published := pub, pages := pages, comSeq := cs } ∧ ∀ q, (t.page q).body = (d.page q).body

section
variable {d t : Dev}

theorem Dev.Arrives.body (h : d.Arrives t) (q : Nat) : (t.page q).body = (d.page q).body := by
  obtain ⟨_, _, _, h, -⟩ := h
  exact h q

theorem Dev.Arrives.reg (h : d.Arrives t) (off : Nat) : t.reg off = d.reg off := by
  obtain ⟨_, _, rfl, _⟩ := h
  rfl

theorem Dev.Publishes.body (h : d.Publishes t) (q : Nat) : (t.page q).body = (d.page q).body := by
  obtain ⟨_, _, _, _, h⟩ := h
  exact h q

theorem Dev.Publishes.reg (h : d.Publishes t) (off : Nat) : t.reg off = d.reg off := by
  obtain ⟨_, _, _, rfl, _⟩ := h
  rfl

theorem Dev.Publishes.fld (h : d.Publishes t) (off hi lo : Nat) : t.fld off hi lo = d.fld off hi lo := by rw [Dev.fld, h.reg, Dev.fld]

theorem Dev.Publishes.flag (h : d.Publishes t) (off n : Nat) : t.flag off n = d.flag off n := by rw [Dev.flag, h.reg, Dev.flag]

theorem Dev.Arrives.fld (h : d.Arrives t) (off hi lo : Nat) : t.fld off hi lo = d.fld off hi lo := by rw [Dev.fld, h.reg, Dev.fld]

theorem Dev.Arrives.flag (h : d.Arrives t) (off n : Nat) : t.flag off n = d.flag off n := by rw [Dev.flag, h.reg, Dev.flag]

/-- A field that the lock time, SEQ and the spacing are not part of. -/
theorem Page.err_of_body {p q : Page} (h : p.body = q.body) :
    p.err = q.err ∧ p.errCode = q.errCode ∧ p.info0 = q.info0 ∧ p.info1 = q.info1 :=
  ⟨congrArg (·.err) h, congrArg (·.errCode) h, congrArg (·.info0) h, congrArg (·.info1) h⟩

variable (d)

theorem Dev.body_setPage (pg : Nat) {p : Page} (h : p.body = (d.page pg).body) (q : Nat) :
    ((d.setPage pg p).page q).body = (d.page q).body := by
  rw [Dev.page_setPage]
  split
  · next e => rw [h, e]
  · rfl

theorem Dev.Publishes.seqStep (pg : Nat) : d.Publishes (d.seqStep pg) := ⟨d.published, _, d.comSeq, rfl, Dev.body_setPage d pg rfl⟩

theorem Dev.Publishes.publishWrite (before : Dev) (off : Nat) : d.Publishes (d.publishWrite before off) := by
  simp only [Dev.publishWrite]
  split
  · split
    · simp only [Dev.publishAt]
      split
      · exact ⟨_, d.pages, _, rfl, fun q => rfl⟩
      · exact ⟨_, _, d.comSeq, rfl, Dev.body_setPage _ _ rfl⟩
    · exact ⟨d.published, d.pages, d.comSeq, rfl, fun q => rfl⟩
  · obtain ⟨p, hp⟩ := Dev.publishAll_eq (selectorGroup off) d
    rw [hp]
    exact ⟨p, _, d.comSeq, rfl, Dev.body_setPage { d with published := p } _ rfl⟩

/-- Capturing a write keeps capture's key. -/
theorem Dev.capKey_capWrite (bar off : Nat) (v : Word) : (d.capWrite bar off v).cap.key = d.cap.key := by
  rw [Dev.capWrite]
  split <;> exact Dev.capKey_capAdd d _ _ _ _ _ _

/-- A write to an open page goes to its body. -/
theorem pageWrite_open (off : Nat) (v : Word) (body : Bool → Dev → Dev) (ho : d.isOpen (off / 0x1000)) :
    ∃ d1, d.Arrives d1 ∧ pageWrite d off v body = body true d1 := by
  obtain ⟨⟨hb, he, hp⟩, hu, hs⟩ := ho
  have hcap := Dev.capWrite_eq d 0 off v
  have hu' := Dev.unlocked_capWrite d 0 off v (off / 0x1000)
  have ht : (d.capWrite 0 off v).touchPage (off / 0x1000) =
      (d.capWrite 0 off v).setPage (off / 0x1000) { d.page (off / 0x1000) with lastWr := d.tick } := by
    rw [Dev.touchPage_unlocked _ _ (hu'.trans hu)]
    rw [hcap]; rfl
  have hb' : (d.capWrite 0 off v).barUp = true := by rw [hcap]; exact hb
  have hs' : (((d.capWrite 0 off v).touchPage (off / 0x1000)).page (off / 0x1000)).softRst = false := by
    rw [ht, Dev.page_setPage_self]; exact hs
  refine ⟨(d.capWrite 0 off v).touchPage (off / 0x1000), ⟨(d.capWrite 0 off v).cap, ((d.capWrite 0 off v).touchPage (off / 0x1000)).pages, ?_, fun q => ?_, fun hidle => ?_, ?_⟩, ?_⟩
  · rw [ht, hcap]; rfl
  · rw [ht, Dev.body_setPage]
    · rw [hcap]; rfl
    · rw [hcap]; rfl
  · rw [Dev.capWrite]
    split
    · rw [Dev.capRedacted, Dev.capAdd_idle _ _ _ _ _ _ _ hidle]
    · rw [Dev.capRec_idle _ _ _ _ hidle]
  · exact Dev.capKey_capWrite d 0 off v
  · simp only [pageWrite, pageAccess, hb, if_true, hb', he, Dev.powered_capWrite, hp, hu', hu, hs', Bool.not_true, Bool.false_and,
      if_false, Bool.false_eq_true]

/-- A register write to an open page whose value sets no RSVD bit. -/
theorem regWrite_clean (off : Nat) (v : Word) (eff : Word → Dev → Dev) (r : RegDef) (ho : d.isOpen (off / 0x1000)) (hr : regDef? off = some r)
    (hrsv : v &&& w32 r.rsv = 0) :
    ∃ d1, d.Arrives d1 ∧ (eff (mergeWrite r (d.reg (canonOff off)) v true) d1).Publishes (regWrite d off v eff) := by
  obtain ⟨d1, harr, hw⟩ := pageWrite_open d off v _ ho
  refine ⟨d1, harr, ?_⟩
  rw [regWrite, hw]
  simp only [hr, hrsv, harr.reg, Bool.not_true, Bool.false_and, Bool.false_eq_true, if_false, bne_self_eq_false]
  exact Dev.Publishes.publishWrite _ _ _

end

/-- A write that a register's plain fields take whole. -/
theorem mergeWrite_whole {r : RegDef} {old v m : Word} (hw1c : r.w1c = 0) (hset : w32 (r.rw ||| r.rwl) = ~~~m) (hv : v &&& m = 0)
    (hold : old &&& m = 0) : mergeWrite r old v true = v := by
  have hzero : v &&& w32 0 = 0 := by simp [w32]
  have hv' : v &&& ~~~m = v := by
    ext i hi
    have hvi : (v &&& m)[i] = false := by rw [hv]; simp
    rw [BitVec.getElem_and] at hvi
    cases hb : v[i] <;> simp_all
  unfold mergeWrite
  rw [hw1c, hzero]
  simp only [if_true, hset, BitVec.not_not, hold, hv']
  show (0#32 ||| v) &&& ~~~(0#32) = v
  rw [BitVec.zero_or, BitVec.not_zero, BitVec.and_allOnes]

end Sys2Proof.Machine
end

section
/-! Banks and the incident sheet (R462 to R473, R489). -/

namespace Sys2Proof.Machine

-- In order, one declaration at a time: keeps the check within its memory limit.
set_option Elab.async false

@[simp] theorem Dev.bank_setBank_self (d : Dev) (b : Nat) (x : Bank) : (d.setBank b x).bank b = x := SMap.get_set_self _ _ _ _

/-- The table's row of SB_CFG. -/
def sbCfgRow : RegDef := ⟨"SB_CFG", 0x4, 1, 4, 0, 0, 0x1FFF03, 0, 0, 0xFFE000FC, false, false, false⟩

theorem regDef_sbCfg : ∀ b < 256, regDef? (Reg.SB_CFG b) = some sbCfgRow ∧ canonOff (Reg.SB_CFG b) = Reg.SB_CFG b := by
  have hgrid : ∀ i < 16, ∀ j < 16, regDef? (Reg.SB_CFG (16 * i + j)) = some sbCfgRow ∧ canonOff (Reg.SB_CFG (16 * i + j)) = Reg.SB_CFG (16 * i + j) := by
    decide
  intro b hb
  have h := hgrid (b / 16) (by omega) (b % 16) (by omega)
  rwa [Nat.div_add_mod] at h

/-- A value that sets no RSVD bit of SB_CFG is taken whole. -/
theorem mergeWrite_sbCfg {old v : Word} (hv : v &&& 0xFFE000FC = 0) (hold : old &&& 0xFFE000FC = 0) : mergeWrite sbCfgRow old v true = v :=
  mergeWrite_whole rfl (by decide) hv hold

section
variable (s : State) {b : Nat}

theorem exec_windowClose (hrun : s.running) (hb : b < 256) (hen : s.dev.flag (Reg.SB_CFG b) 0 = true) (hwin : s.dev.flag (Reg.SB_CFG b) 1 = true)
    (hdue : (s.dev.bank b).closing (s.dev.fld (Reg.SB_WIN b) 15 0) = true) :
    exec (.windowClose b) s = .next { s with dev := s.dev.setBank b ((s.dev.bank b).closeAt ((s.dev.bank b).closingTick s.dev.tick)) } := by
  have hexec := act_of_running s (doWindowClose b) hrun
  rw [doWindowClose, Nat.mod_eq_of_lt hb, Dev.bankClose, hen, hwin, hdue] at hexec
  exact hexec

theorem exec_bankPublish (hrun : s.running) (hb : b < 256) {due : Nat} (hdue : (s.dev.bank b).lastDue = some due) (htick : due ≤ s.dev.tick)
    (hopen : (s.dev.bank b).closing (s.dev.fld (Reg.SB_WIN b) 15 0) = false) :
    exec (.bankPublish b) s = .next { s with dev := s.dev.bankPublish b } := by
  have hexec := act_of_running s (doBankPublish b) hrun
  simp only [doBankPublish, Nat.mod_eq_of_lt hb, hdue, htick, hopen] at hexec
  exact hexec

/-- A write of SB_CFG with no RSVD bit, by its cases. -/
theorem exec_sbCfgWrite (hrun : s.running) (hb : b < 256) {v : Word} (hopen : s.dev.isOpen (Reg.SB_CFG b / 0x1000))
    (hv : v &&& 0xFFE000FC = 0) (hold : s.dev.reg (Reg.SB_CFG b) &&& 0xFFE000FC = 0) :
    ∃ d1 t, s.dev.Arrives d1 ∧ exec (.sbCfgWrite b v) s = .next { s with dev := t } ∧ Dev.Publishes
      (if s.dev.flag (Reg.SB_CFG b) 0 then
        if v = s.dev.reg (Reg.SB_CFG b) then d1
        else if bitAt v 0 then d1.recordErr (Reg.SB_CFG b / 0x1000) 0x0100 (Reg.SB_CFG b % 0x1000) v.toNat
        else d1.setFlag (Reg.SB_CFG b) 0 false
      else if 16 < bits v 15 8 ∨ (bitAt v 0 ∧ (bits v 15 8 = 0 ∨ !filterOk (bits v 15 8) (s.dev.reg (Reg.SB_FILT b)))) then
        d1.recordErr (Reg.SB_CFG b / 0x1000) 0x0100 (Reg.SB_CFG b % 0x1000) v.toNat
      else if bitAt v 0 then
        (d1.setReg (Reg.SB_CFG b) v).setBank b
          { Bank.reset with seq := ((d1.setReg (Reg.SB_CFG b) v).bank b).seq, running := !bitAt v 1, cur := BankWin.empty s.dev.tick }
      else d1.setReg (Reg.SB_CFG b) v) t := by
  obtain ⟨hrow, hcanon⟩ := regDef_sbCfg b hb
  obtain ⟨d1, harr, hpub⟩ := regWrite_clean s.dev (Reg.SB_CFG b) v (fun new d =>
    let refuse (d : Dev) : Dev := d.recordErr (Reg.SB_CFG b / 0x1000) 0x0100 (Reg.SB_CFG b % 0x1000) v.toNat
    let src := bits new 15 8
    if d.flag (Reg.SB_CFG b) 0 then
      if new = d.reg (Reg.SB_CFG b) then d
      else if bitAt new 0 then refuse d
      else d.setFlag (Reg.SB_CFG b) 0 false
    else if 16 < src ∨ (bitAt new 0 ∧ (src = 0 ∨ !filterOk src (d.reg (Reg.SB_FILT b)))) then refuse d
    else
      let d := d.setReg (Reg.SB_CFG b) new
      if bitAt new 0 then
        d.setBank b { Bank.reset with seq := (d.bank b).seq, running := !bitAt new 1, cur := BankWin.empty d.tick }
      else d) sbCfgRow hopen hrow hv
  refine ⟨d1, doSbCfgWrite b v s.dev, harr, act_of_running s _ hrun, ?_⟩
  rw [hcanon, mergeWrite_sbCfg hv hold] at hpub
  simp only [harr.reg, harr.flag] at hpub
  have htick : (d1.setReg (Reg.SB_CFG b) v).tick = s.dev.tick := by
    obtain ⟨_, _, rfl, _⟩ := harr
    rfl
  rw [htick] at hpub
  rw [doSbCfgWrite, Nat.mod_eq_of_lt hb]
  exact hpub

end

/-- Settles O49. -/
theorem banksAndSheet : Obligations.BanksAndSheet := by
  intro s hrun
  refine ⟨fun b hb => ⟨fun hen hwin hdue _ => ?_, fun due hdue htick hopen => ?_, fun v hopen hv hold => ⟨?_, ?_, ?_⟩⟩, ?_, ?_⟩
  · refine ⟨_, exec_windowClose s hrun hb hen hwin hdue, ?_⟩
    dsimp only
    rw [Dev.bank_setBank_self]
    exact ⟨rfl, rfl, rfl, rfl, rfl⟩
  · exact exec_bankPublish s hrun hb hdue htick hopen
  · intro hen hv0 hlo hhi hfilt
    obtain ⟨d1, t, harr, hexec, hpub⟩ := exec_sbCfgWrite s hrun hb hopen hv hold
    rw [if_neg (by simp [hen]), if_neg (by simp [hfilt]; omega), if_pos hv0] at hpub
    refine ⟨_, hexec, ?_⟩
    have hbank : t.bank b = { Bank.reset with seq := ((d1.setReg (Reg.SB_CFG b) v).bank b).seq, running := !bitAt v 1, cur := BankWin.empty s.dev.tick } := by
      obtain ⟨_, _, _, rfl, _⟩ := hpub
      exact Dev.bank_setBank_self _ _ _
    dsimp only
    rw [hbank, hpub.reg]
    exact ⟨Dev.reg_setReg_self _ _ _, rfl, rfl, rfl⟩
  · intro hen hv0 hne herr
    obtain ⟨d1, t, harr, hexec, hpub⟩ := exec_sbCfgWrite s hrun hb hopen hv hold
    rw [if_pos hen, if_neg hne, if_pos hv0] at hpub
    have herr1 : (d1.page (Reg.SB_CFG b / 0x1000)).err = false := (Page.err_of_body (harr.body _)).1.trans herr
    refine ⟨_, hexec, ?_, ?_, ?_⟩
    · rw [hpub.reg, Dev.reg_recordErr, harr.reg]
    · rw [(Page.err_of_body (hpub.body _)).2.1, Dev.page_recordErr_first _ _ _ _ _ herr1]
    · obtain ⟨_, _, _, rfl, _⟩ := hpub
      obtain ⟨_, _, rfl, _⟩ := harr
      rw [Dev.recordErr_eq]
  · intro hen hv0
    obtain ⟨d1, t, harr, hexec, hpub⟩ := exec_sbCfgWrite s hrun hb hopen hv hold
    have hne : v ≠ s.dev.reg (Reg.SB_CFG b) := by
      rintro rfl
      exact absurd (hen.symm.trans hv0) (by decide)
    rw [if_pos hen, if_neg hne, if_neg (by simp [hv0])] at hpub
    refine ⟨_, hexec, ?_⟩
    rw [hpub.reg, Dev.reg_setFlag, if_pos rfl, harr.reg]
  · intro i e hstop hidx he
    have hexec := act_of_running s doIncidentJournal hrun
    simp only [doIncidentJournal, hstop, hidx, he] at hexec
    exact hexec
  · intro hopen
    refine ⟨?_, fun v hv => ?_⟩
    · obtain ⟨d1, -, hw⟩ := pageWrite_open s.dev Reg.SCP_INC_CLR 0x53430001
        (fun _ d => if (0x53430001 : Word) = 0x53430001 then { d.setReg Reg.SCP_INC_STS 0 with incidents := [] } else d) hopen
      refine ⟨_, act_of_running s _ hrun, ?_⟩
      rw [doScpIncClr, hw, if_pos rfl]
      exact ⟨rfl, Dev.reg_setReg_self d1 Reg.SCP_INC_STS 0⟩
    · obtain ⟨d1, harr, hw⟩ := pageWrite_open s.dev Reg.SCP_INC_CLR v
        (fun _ d => if v = 0x53430001 then { d.setReg Reg.SCP_INC_STS 0 with incidents := [] } else d) hopen
      refine ⟨_, act_of_running s _ hrun, ?_⟩
      rw [doScpIncClr, hw, if_neg hv]
      obtain ⟨_, _, rfl, _⟩ := harr
      rfl

end Sys2Proof.Machine
end

section
/-! A capture that starts with no room in its staging (Table STK-5, R475): its GAP record is lost. -/

namespace Sys2Proof.Machine

-- In order, one declaration at a time: keeps the check within its memory limit.
set_option Elab.async false

/-- What a capture with a spilled or roomless staging keeps: it runs, and no record stands. -/
def Dev.Lossy (d : Dev) : Prop := d.flag Reg.SCP_CAP_STS 0 = true ∧ d.cap.recs = [] ∧ (d.cap.spill = true ∨ d.capRoom = 0)

theorem Dev.Lossy.capAdd {d : Dev} (h : d.Lossy) (kind src flags : Nat) (ws : List Nat) (n body : Nat) :
    (d.capAdd kind src flags ws n body).Lossy := by
  obtain ⟨hon, hrecs, hroom⟩ := h
  simp only [Dev.capAdd, hon, if_true]
  refine ⟨hon, ?_, .inl ?_⟩
  · simp only [Cap.add]
    obtain hspill | hroom := hroom
    · rw [if_pos hspill]
      exact hrecs
    · split
      · exact hrecs
      · rw [if_pos (by rw [hroom, CapRec.len]; omega)]
        exact hrecs
  · simp only [Cap.add]
    obtain hspill | hroom := hroom
    · rw [if_pos hspill]
      exact hspill
    · split
      · assumption
      · rw [if_pos (by rw [hroom, CapRec.len]; omega)]

theorem Dev.Lossy.checkpoint {d : Dev} (h : d.Lossy) : d.checkpoint.cap.recs = [] := by
  obtain ⟨hon, hrecs, hroom⟩ := h
  unfold Dev.checkpoint
  extract_lets no items recs cap d1 d2 d3
  have h1 : d1.Lossy := ⟨hon, hrecs, hroom⟩
  have h2 : d2.Lossy := h1.capAdd _ _ _ _ _ _
  have h3 : d3.Lossy := List.foldlRecOn (motive := Dev.Lossy) recs _ h2 (fun e he x _ => he.capAdd _ _ _ _ _ _)
  exact (h3.capAdd _ _ _ _ _ _).2.1

/-- Capture begins with its ring in place and no room in the staging. -/
theorem Dev.recs_capBegin {d : Dev} (hbands : d.cap.bands.length = d.ringNeeds) (hroom : d.capRoom = 0) : d.capBegin.cap.recs = [] := by
  have hring : ∀ v, (d.setReg Reg.SCP_CAP_STS v).ringBands = d.setReg Reg.SCP_CAP_STS v := by
    intro v
    have hne : Reg.SCP_CAP_CTL ≠ Reg.SCP_CAP_STS := by decide
    have hneeds : (d.setReg Reg.SCP_CAP_STS v).ringNeeds = d.ringNeeds := by
      rw [Dev.ringNeeds, Dev.fld_setReg_ne _ hne, Dev.ringNeeds]
    rw [Dev.ringBands, if_pos (by rw [hneeds]; exact hbands)]
  unfold Dev.capBegin
  rw [hring]
  extract_lets gap d1 first d2 cap d3 d4
  have hon : d3.flag Reg.SCP_CAP_STS 0 = true := by
    have hne1 : Reg.SCP_CAP_STS ≠ Reg.SCP_CAP_OLDEST_LO := by decide
    have hne2 : Reg.SCP_CAP_STS ≠ Reg.SCP_CAP_OLDEST_HI := by decide
    have hreg : d3.reg Reg.SCP_CAP_STS = w32 (1 + 32 * (d.flag Reg.SCP_CAP_STS 5).toNat) :=
      (Dev.reg_set64_ne _ hne1 hne2 _).trans (Dev.reg_setReg_self _ _ _)
    rw [Dev.flag, hreg]
    cases d.flag Reg.SCP_CAP_STS 5 <;> decide
  have h3 : d3.Lossy := ⟨hon, rfl, .inr hroom⟩
  have h4 : d4.Lossy := by
    by_cases hgap : gap = 0
    · rw [show d4 = d3 from if_pos hgap]
      exact h3
    · rw [show d4 = d3.capRec 0x05 gap [(8, 2 ^ 64 - 1)] from if_neg hgap]
      exact h3.capAdd _ _ _ _ _ _
  exact h4.checkpoint

/-- A device whose capture ring stands, whose capture key is set and whose last capture power loss stopped, with every page of the staging
retired. -/
def devNoStaging : Dev :=
  { devServing with
    pages := [(0xF57, { Page.reset with unlocked := true })]
    cap := { Cap.reset with key := some 0, gap := 1, bands := [0, 1] }
    hbmRetired := List.replicate 65536 0x220000 }

theorem capRoom_devNoStaging : devNoStaging.capRoom = 0 := by
  have hcount : ∀ p : Nat → Bool, p 0x220000 = true → devNoStaging.hbmRetired.countP p = 65536 := by
    intro p hp
    rw [show devNoStaging.hbmRetired = List.replicate 65536 0x220000 from rfl, List.countP_replicate, if_pos hp]
  rw [Dev.capRoom, hcount _ (by decide)]
  rfl

theorem regDef_capCtl : regDef? Reg.SCP_CAP_CTL =
    some ⟨"SCP_CAP_CTL", 0xF57100, 1, 0x4, 0x1002, 0x0, 0xFFFFFF1F, 0x0, 0x0, 0xE0, false, false, false⟩ := rfl

/-- The effect of a write to SCP_CAP_CTL (R482, R489). -/
def capCtlEffect (v new : Word) (d : Dev) : Dev :=
  let old := d.reg Reg.SCP_CAP_CTL
  let refuse (d : Dev) : Dev := d.recordErr 0xF57 0x0100 0x100 v.toNat
  if new = old then d
  else if d.flag Reg.SCP_CAP_STS 0 then
    if new = putBit old 0 false then ((d.capStop).setReg Reg.SCP_CAP_CTL new).ringFreed else refuse d
  else if bits new 3 2 = 3 ∨ bits new 15 8 = 0 ∨ 64 < bits new 15 8 ∨ (bitAt new 0 ∧ d.cap.key.isNone) then refuse d
  else
    let d := d.setReg Reg.SCP_CAP_CTL new
    if bitAt new 0 ∧ !bitAt old 0 then d.capBegin
    else if !bitAt new 0 ∧ bitAt old 0 then d.ringFreed
    else d

theorem capCtl_eq (v : Word) (d : Dev) : capCtl v d = regWrite d Reg.SCP_CAP_CTL v (capCtlEffect v) := rfl

theorem recs_capCtl : (capCtl 0x101 devNoStaging).cap.recs = [] := by
  obtain ⟨d1, ⟨cap, pages, rfl, -, hcap⟩, pub, pages', cs, hw, -⟩ := regWrite_clean devNoStaging Reg.SCP_CAP_CTL 0x101 (capCtlEffect 0x101) _
    (by decide) regDef_capCtl (by decide)
  obtain rfl : cap = devNoStaging.cap := hcap.1 (by decide)
  have hnew : mergeWrite ⟨"SCP_CAP_CTL", 0xF57100, 1, 0x4, 0x1002, 0x0, 0xFFFFFF1F, 0x0, 0x0, 0xE0, false, false, false⟩
      (devNoStaging.reg (canonOff Reg.SCP_CAP_CTL)) 0x101 true = 0x101 := by decide
  have heffect : capCtlEffect 0x101 0x101 { devNoStaging with cap := devNoStaging.cap, pages := pages } =
      (({ devNoStaging with pages := pages } : Dev).setReg Reg.SCP_CAP_CTL 0x101).capBegin := by
    have hold : devNoStaging.reg Reg.SCP_CAP_CTL = 0x1002 := by decide
    have hidle : devNoStaging.flag Reg.SCP_CAP_STS 0 = false := by decide
    have hold' : ({ devNoStaging with cap := devNoStaging.cap, pages := pages } : Dev).reg Reg.SCP_CAP_CTL = 0x1002 := hold
    have hidle' : ({ devNoStaging with cap := devNoStaging.cap, pages := pages } : Dev).flag Reg.SCP_CAP_STS 0 = false := hidle
    unfold capCtlEffect
    have hlegal : ¬ (bits (0x101 : Word) 3 2 = 3 ∨ bits (0x101 : Word) 15 8 = 0 ∨ 64 < bits (0x101 : Word) 15 8 ∨
        (bitAt (0x101 : Word) 0 ∧ devNoStaging.cap.key.isNone)) := by decide
    rw [hold', hidle', if_neg (by decide), if_neg (by decide), if_neg hlegal, if_pos (by decide)]
  rw [hnew, heffect] at hw
  rw [capCtl_eq, hw]
  have hbands : devNoStaging.cap.bands.length = (devNoStaging.setReg Reg.SCP_CAP_CTL 0x101).ringNeeds := by decide
  exact Dev.recs_capBegin (d := ({ devNoStaging with pages := pages } : Dev).setReg Reg.SCP_CAP_CTL 0x101) hbands capRoom_devNoStaging

theorem captureStart_dev {s t : State} {v : Word} (hrun : s.running) (h : exec (.captureStart v) s = .next t) : t.dev = capCtl v s.dev :=
  congrArg (·.dev) (Host.Outcome.next.inj (h.symm.trans (act_of_running s (doCaptureStart v) hrun)))

/-- Refutes O50: a capture after a power loss whose staging has no page left loses its GAP record with every other, so no record stands at its head. -/
theorem not_captureAndExport : ¬ Obligations.CaptureAndExport := by
  intro h
  obtain ⟨hstart, -⟩ := (h devNoStaging.asState (by decide +kernel)).1 (by decide +kernel)
  obtain ⟨t, hexec, -, -, -, -, -, hgap⟩ := (hstart 0x101 (by decide +kernel) (by decide) (by decide +kernel) (by decide) (by decide) (by decide)
    (by decide) (by decide +kernel)).1 (by decide +kernel)
  have hkind := hgap (by decide)
  have hrecs : t.dev.cap.recs = [] := by
    have hasState : devNoStaging.asState.dev = devNoStaging := rfl
    rw [captureStart_dev (by decide +kernel) hexec, hasState, recs_capCtl]
  rw [hrecs] at hkind
  exact absurd hkind (by decide)

end Sys2Proof.Machine
end

section
/-! A rebuilt stripe's programs and the operations that its reads leave (R31, R340). -/

namespace Sys2Proof.Machine

-- In order, one declaration at a time: keeps the check within its memory limit.
set_option Elab.async false

/-- A read that serves the rebuild of stripe 0 of band 0. -/
def strayRead : POp := { mkOp 0x01 .rebuild 3 0 0 0 4 0 1 0 false with owner := some (rebuildOwner 0 0) }

/-- A CLOSED band with one stripe, of which four sets are being replaced: no codeword of them can be solved. -/
def bandRebuilding : Band :=
  { Band.reset with
    st := .closed, next := 1
    sets := (List.range 19).map (fun i => { port := i, die := 0, block := 1, repl := decide (i < 4), erased := false, prog := 0, old := 0 }) }

/-- The band's rebuild is due; port 0 is listed twice, the second time with the read. -/
def devStray : Dev :=
  { devServing with bands := [(0, bandRebuilding)], rbQueue := [0], ports := [(0, Port.reset), (0, { Port.reset with ops := [strayRead] })] }

/-- Refutes O36: in a state whose list of ports names port 0 twice, the reads that served the rebuild are dropped from the port's later
entry, which then replaces the entry that has just taken the stripe's program. -/
theorem not_layoutKeeps : ¬ Obligations.LayoutKeeps := by
  intro h
  obtain ⟨-, -, hrebuild, -⟩ := h devStray.asState (by decide +kernel) (by decide +kernel)
  obtain ⟨t, hexec, hprograms⟩ := (hrebuild 0 0 (by decide +kernel) (by decide +kernel) (by decide +kernel) (by decide +kernel)
    (by decide +kernel) (by decide +kernel) (by decide +kernel) (by decide +kernel) (by decide +kernel)).1 (by decide +kernel)
  obtain ⟨-, o, ho, hopc, -⟩ := hprograms 0 (by decide +kernel)
  have hport : (devStray.setAtPos 0 0).port = 0 := by decide +kernel
  have hnone := nextHas_elim (p := fun t => !(t.dev.port 0).ops.any (fun o => o.opc == 0x02)) (by decide +kernel) hexec
  have hany : (t.dev.port 0).ops.any (fun o => o.opc == 0x02) = true := List.any_eq_true.mpr ⟨o, hport ▸ ho, beq_iff_eq.mpr hopc⟩
  rw [hany] at hnone
  exact absurd hnone (by decide)

end Sys2Proof.Machine
end

section
/-! The embedded flash's shared operations: how a port's cycle reaches its sequence (R445, R447, R558), what aborts it, and what the stalled
reads that follow a command leave (R446, R455). -/

namespace Sys2Proof.Machine

-- In order, one declaration at a time: keeps the check within its memory limit.
set_option Elab.async false

/-! ### Ports and sectors -/

section
variable (d : Dev)

@[simp] theorem Dev.nPort_setNPort_self (p : Nat) (x : NPort) : (d.setNPort p x).nPort p = x := by
  unfold Dev.nPort Dev.setNPort
  split <;> rfl

@[simp] theorem Dev.sector_setSector_self (k : Nat) (x : NSector) : (d.setSector k x).sector k = x := SMap.get_set_self _ _ _ _

theorem Dev.sector_setSector_ne {k j : Nat} (h : j ≠ k) (x : NSector) : (d.setSector k x).sector j = d.sector j :=
  SMap.get_set_ne _ _ _ _ _ h

theorem Dev.setNPort_eq (p : Nat) (x : NPort) : d.setNPort p x = { d with nHost := (d.setNPort p x).nHost, nFirm := (d.setNPort p x).nFirm } := by
  unfold Dev.setNPort
  split <;> rfl

/-- What a port's flag or an error of the NVM page leaves: the array's operations and sectors, and the port but for its flags. -/
structure Dev.NvmSame (d t : Dev) : Prop where
  run : t.nRun = d.nRun
  sus : t.nSus = d.nSus
  sec : t.nSec = d.nSec

theorem Dev.NvmSame.setNPort (p : Nat) (x : NPort) : d.NvmSame (d.setNPort p x) := by
  rw [Dev.setNPort_eq]
  exact ⟨rfl, rfl, rfl⟩

theorem Dev.NvmSame.trans {d e t : Dev} (h : d.NvmSame e) (h' : e.NvmSame t) : d.NvmSame t :=
  ⟨h'.run.trans h.run, h'.sus.trans h.sus, h'.sec.trans h.sec⟩

theorem Dev.NvmSame.sector {d t : Dev} (h : d.NvmSame t) (k : Nat) : t.sector k = d.sector k := by rw [Dev.sector, h.sec, Dev.sector]

theorem Dev.NvmSame.nFlag (p bit : Nat) (b : Bool) : d.NvmSame (d.nFlag p bit b) :=
  (Dev.NvmSame.setNPort d p _).trans ⟨rfl, rfl, rfl⟩

theorem Dev.NvmSame.nErr (code i0 i1 : Nat) : d.NvmSame (d.nErr code i0 i1) := by
  rw [Dev.nErr, Dev.recordErr_eq]
  exact ⟨rfl, rfl, rfl⟩

@[simp] theorem Dev.page_setNPort (p : Nat) (x : NPort) (pg : Nat) : (d.setNPort p x).page pg = d.page pg := by rw [Dev.setNPort_eq]; rfl

@[simp] theorem Dev.page_nvmSts (pg : Nat) : d.nvmSts.page pg = d.page pg := rfl

@[simp] theorem Dev.nPort_nvmSts (p : Nat) : d.nvmSts.nPort p = d.nPort p := rfl

@[simp] theorem Dev.page_nFlag (p bit : Nat) (b : Bool) (pg : Nat) : (d.nFlag p bit b).page pg = d.page pg :=
  Dev.page_setNPort d p _ pg

/-- A flag changes nothing else of its port. -/
theorem Dev.nPort_nFlag (p bit : Nat) (b : Bool) : (d.nFlag p bit b).nPort p = { d.nPort p with flags := ((d.nFlag p bit b).nPort p).flags } := by
  have h : (d.nFlag p bit b).nPort p = { d.nPort p with flags := (
      if b && !((d.nPort p).flags.testBit (bit - 2)) then (d.nPort p).flags + 2 ^ (bit - 2)
      else if !b && (d.nPort p).flags.testBit (bit - 2) then (d.nPort p).flags - 2 ^ (bit - 2) else (d.nPort p).flags) } :=
    Dev.nPort_setNPort_self d p _
  rw [h]

@[simp] theorem Dev.nPort_nErr (code i0 i1 p : Nat) : (d.nErr code i0 i1).nPort p = d.nPort p := by
  rw [Dev.nErr, Dev.recordErr_eq]
  rfl

theorem Dev.page_nErr_first (code i0 i1 : Nat) (h : (d.page 0xEFF).err = false) :
    ((d.nErr code i0 i1).page 0xEFF).err = true ∧ ((d.nErr code i0 i1).page 0xEFF).errCode = code ∧
      ((d.nErr code i0 i1).page 0xEFF).info0 = w32 i0 ∧ ((d.nErr code i0 i1).page 0xEFF).info1 = w32 i1 := by
  rw [Dev.nErr, Dev.page_recordErr_first _ _ _ _ _ h]
  exact ⟨rfl, rfl, rfl, rfl⟩

/-! ### Aborts (R447) -/

theorem Dev.NvmSame.nAbort (p off value : Nat) : d.NvmSame (d.nAbort p off value) :=
  (Dev.NvmSame.setNPort d p _).trans <| (Dev.NvmSame.nFlag _ p 5 true).trans (Dev.NvmSame.nErr _ _ _ _)

theorem Dev.phase_nAbort (p off value : Nat) : ((d.nAbort p off value).nPort p).phase = 0 := by
  rw [Dev.nAbort, Dev.nPort_nErr, Dev.nPort_nFlag, Dev.nPort_setNPort_self]

theorem Dev.page_nAbort (p off value : Nat) (h : (d.page 0xEFF).err = false) :
    ((d.nAbort p off value).page 0xEFF).err = true ∧ ((d.nAbort p off value).page 0xEFF).errCode = 0x0100 ∧
      ((d.nAbort p off value).page 0xEFF).info0 = w32 off ∧ ((d.nAbort p off value).page 0xEFF).info1 = w32 value := by
  rw [Dev.nAbort]
  exact Dev.page_nErr_first _ _ _ _ (by rw [Dev.page_nFlag, Dev.page_setNPort]; exact h)

end

/-! ### A cycle arrives -/

/-- The port takes cycles: the host port while the NVM page is open, the firmware port from bring-up on. -/
def Dev.nTakes (d : Dev) (p : Nat) : Prop :=
  d.nvmHeld = false ∧ (p = 0 → d.isOpen 0xEFF) ∧ (p ≠ 0 → d.released = true ∨ d.stage ≠ 0)

theorem Dev.capWrites_eq (ws : List (Nat × Nat)) : ∀ d : Dev,
    ∃ cap, ws.foldl (fun (d : Dev) w => d.capWrite 0 (0xE00000 + w.1) (w32 w.2)) d = { d with cap := cap } ∧
      (d.flag Reg.SCP_CAP_STS 0 = false → cap = d.cap) ∧ cap.key = d.cap.key := by
  induction ws with
  | nil => exact fun d => ⟨d.cap, rfl, fun _ => rfl, rfl⟩
  | cons w ws ih =>
    intro d
    obtain ⟨cap, hcap, hidle, hkey⟩ := ih (d.capWrite 0 (0xE00000 + w.1) (w32 w.2))
    refine ⟨cap, ?_, fun h => ?_, hkey.trans (Dev.capKey_capWrite d _ _ _)⟩
    · rw [List.foldl_cons, hcap, Dev.capWrite_eq]
    · have hsame : (d.capWrite 0 (0xE00000 + w.1) (w32 w.2)).flag Reg.SCP_CAP_STS 0 = d.flag Reg.SCP_CAP_STS 0 := by rw [Dev.capWrite_eq]; rfl
      rw [hidle (hsame.trans h), Dev.capWrite]
      split
      · rw [Dev.capRedacted, Dev.capAdd_idle _ _ _ _ _ _ _ h]
      · rw [Dev.capRec_idle _ _ _ _ h]

/-- A cycle on a port that takes it goes to its body. -/
theorem nCycle_goes {d : Dev} {p : Nat} (h : d.nTakes p) (ws : List (Nat × Nat)) (body : Dev → Dev) :
    ∃ d1, d.Arrives d1 ∧ nCycle p ws body d = body d1 := by
  obtain ⟨hheld, hhost, hfirm⟩ := h
  by_cases hp : p = 0
  · obtain ⟨⟨hb, he, hpow⟩, hu, hs⟩ := hhost hp
    obtain ⟨cap, hcap, hidle⟩ := Dev.capWrites_eq ws d
    refine ⟨{ d with cap := cap }.touchPage 0xEFF, ⟨cap, ({ d with cap := cap }.touchPage 0xEFF).pages, ?_, fun q => ?_, hidle.1, hidle.2⟩, ?_⟩
    · rw [Dev.touchPage_unlocked { d with cap := cap } _ hu]; rfl
    · rw [Dev.touchPage_unlocked { d with cap := cap } _ hu]
      exact Dev.body_setPage { d with cap := cap } _ (p := { d.page 0xEFF with lastWr := d.tick }) rfl q
    · have hb' : ({ d with cap := cap } : Dev).barUp = true := hb
      have hu' : ({ d with cap := cap } : Dev).unlocked 0xEFF = true := hu
      have hpow' : ({ d with cap := cap } : Dev).powered 0xEFF = true := hpow
      have hpg : 0xEFF000 / 0x1000 = 0xEFF := by decide
      have hrel : decide (0x100 ≤ 0xEFF000 % 0x1000) = false := by decide
      simp only [nCycle, hheld, hp, hb, hcap, pageAccess, hpg, hb', he, hpow', hu', hrel, if_true, Bool.not_true, Bool.false_and,
        Bool.and_false, Bool.false_eq_true, if_false]
  · have htakes : (d.released || d.fld Reg.GLB_DEV_STS 7 4 != 0) = true := by
      obtain h | h := hfirm hp
      · simp [h]
      · have h' : d.fld Reg.GLB_DEV_STS 7 4 ≠ 0 := h
        simp [h']
    refine ⟨d, ⟨d.cap, d.pages, rfl, fun _ => rfl, fun _ => rfl, rfl⟩, ?_⟩
    simp only [nCycle, hheld, hp, htakes, if_true, if_false, Bool.false_eq_true]

theorem Dev.nReady_of_takes {d : Dev} {p : Nat} (h : d.nTakes p) (hphase : (d.nPort p).phase = 2) : d.nReady p = true := by
  obtain ⟨hheld, hhost, hfirm⟩ := h
  by_cases hp : p = 0
  · obtain ⟨⟨hb, -, -⟩, hu, hs⟩ := hhost hp
    subst hp
    simp only [Dev.nReady, hphase, hheld, hb, hu, hs, if_true, Bool.not_false, Bool.and_true, beq_self_eq_true]
  · have htakes : (d.released || d.fld Reg.GLB_DEV_STS 7 4 != 0) = true := by
      obtain h | h := hfirm hp
      · simp [h]
      · have h' : d.fld Reg.GLB_DEV_STS 7 4 ≠ 0 := h
        simp [h']
    simp only [Dev.nReady, hphase, hheld, hp, htakes, if_false, Bool.not_false, Bool.and_true, beq_self_eq_true]

/-- Whether a port's cycle has arrived does not change its sequence, the array's operations or its sectors. -/
theorem Dev.Arrives.nvm {d t : Dev} (h : d.Arrives t) : d.NvmSame t ∧ (∀ p, t.nPort p = d.nPort p) ∧ t.tick = d.tick ∧
    (∀ p page, t.progOk p page = d.progOk p page) ∧ ∀ p k, t.nMayWrite p k = d.nMayWrite p k := by
  obtain ⟨_, _, rfl, -, -⟩ := h
  exact ⟨⟨rfl, rfl, rfl⟩, fun _ => rfl, rfl, fun _ _ => rfl, fun _ _ => rfl⟩

/-! ### Reads that were stalled -/

/-- The device without what a read of the array changes. -/
def Dev.sansReads (d : Dev) : Dev := { d.sansReports with apWait := [] }

/-- The registers that a read of the array changes. -/
def readRegs : List Nat := reportRegs ++ [Reg.NVM_RD_STS, Reg.NVM_CORR_CNT, Reg.NVM_THR_CNT, Reg.NVM_UNC_CNT]

/-- `t` comes from `d` by reads of the array. -/
abbrev Dev.Reads (d t : Dev) : Prop := Dev.Frame Dev.sansReads readRegs d t

section
variable (d : Dev)

theorem Dev.Reads.of_reports {t : Dev} (h : d.Reports t) : d.Reads t :=
  Dev.Frame.weaken h (fun _ => rfl) (fun _ ho => List.mem_append_left _ ho)

theorem Dev.Reads.arrayRead (m : Memory) (x : Nat × Nat) : d.Reads (d.arrayRead m x) := by
  unfold Dev.arrayRead
  extract_lets page
  split
  · exact (Dev.Frame.emit _).trans (.setReg (by decide) _)
  · rename_i unc thr d1 d2 d3 d4 _ _
    have h0 : d.Reads d.drawn := .hidden rfl rfl rfl
    have h1 : d.Reads d1 := Dev.Frame.ite (h0.trans (.emit _)) (.emit _)
    have h2 : d1.Reads d2 := .setReg (by decide) _
    have h3 : d2.Reads d3 := Dev.Frame.ite (.setFld (by decide) _ _ _) (.refl _)
    have h4 : d3.Reads d4 := by
      refine Dev.Frame.ite ?_ (.refl _)
      exact Dev.Frame.trans (e := d3.inc Reg.NVM_THR_CNT 1) (.setFld (by decide) _ _ _) (Dev.Reads.of_reports _ (Dev.Reports.raise _ _ _))
    refine h1.trans <| h2.trans <| h3.trans <| h4.trans <| Dev.Frame.ite ?_ (.refl _)
    exact Dev.Frame.trans (e := d4.inc Reg.NVM_UNC_CNT 1) (.setFld (by decide) _ _ _) (Dev.Reads.of_reports _ (Dev.Reports.recordErr _ _ _ _ _))

theorem Dev.Reads.apServe (m : Memory) : d.Reads (d.apServe m) := by
  unfold Dev.apServe
  refine Dev.Frame.ite (.refl d) ?_
  have h : d.Reads { d with apWait := [] } := .hidden rfl rfl rfl
  exact h.trans (.foldl (fun e x => Dev.Reads.arrayRead e m x) _ _)

variable {d}

theorem Dev.Reads.nvm {t : Dev} (h : d.Reads t) : d.NvmSame t ∧ ∀ p, t.nPort p = d.nPort p := by
  have hhost : t.nHost = d.nHost := congrArg (·.nHost) h.kept
  have hfirm : t.nFirm = d.nFirm := congrArg (·.nFirm) h.kept
  refine ⟨⟨congrArg (·.nRun) h.kept, congrArg (·.nSus) h.kept, congrArg (·.nSec) h.kept⟩, fun p => ?_⟩
  rw [Dev.nPort, hhost, hfirm, Dev.nPort]

end

/-- A command of the array's ports runs while VAO is up. -/
theorem actFlash_next (s : State) (f : Dev → Dev) (g : Dev → List (Nat × List Byte)) (hsup : s.supplied) (hao : s.dev.aoUp = true) :
    actFlash s f g = .next { s with
      dev := (f s.dev).apServe (storeArray s.array (g s.dev)), array := storeArray s.array (g s.dev) } :=
  actArray_next s (fun m d => (f d).apServe (storeArray m (g d))) (fun _ d => g d) hsup hao

end Sys2Proof.Machine
end

section
/-! Command sequences of a port of the embedded flash (R444 to R452, R455). -/

namespace Sys2Proof.Machine

-- In order, one declaration at a time: keeps the check within its memory limit.
set_option Elab.async false

/-! ### Programs, erases and RESET on the array -/

section
variable {d : Dev} {p : Nat}

theorem Dev.nMayWrite_above {k : Nat} (h : d.nMayWrite p k = true) : 16 ≤ k := by
  by_contra hk
  have hslot : slotOf k = 2 := by rw [slotOf, if_neg (by omega), if_neg (by omega)]
  simp [Dev.nMayWrite, hslot] at h
  omega

theorem Dev.nProgram_ok {page : Nat} (h : d.progOk p page = true) : d.nProgram p page =
    { d.setSector (page / 256) { d.sector (page / 256) with next := page % 256 + 1 } with
      nRun := some { port := p, erase := false, at_ := page, auto := false, tick := d.tick } }.nvmSts := by
  have hparts := h
  simp only [Dev.progOk, Bool.and_eq_true] at hparts
  obtain ⟨⟨⟨⟨hmay, hadm⟩, -⟩, -⟩, -⟩ := hparts
  simp only [Dev.nProgram, hmay, hadm, h, Bool.not_true, Bool.false_eq_true, if_false]
  rfl

theorem Dev.nProgram_barred {page : Nat} (h : d.nMayWrite p (page / 256) = false) :
    d.nProgram p page = (d.nFlag p 7 true).nErr 0x0102 (page / 256) p := by
  simp only [Dev.nProgram, h, Bool.not_false, if_true]

theorem Dev.nErase_ok {k : Nat} (h : d.nMayWrite p k = true) (hrun : d.nRun = none) (hsus : d.nSus = none) : d.nErase p k =
    { d with nRun := some { port := p, erase := true, at_ := k, auto := false, tick := d.tick } }.nvmSts := by
  simp [Dev.nErase, h, hrun, hsus]

theorem Dev.nErase_barred {k : Nat} (h : d.nMayWrite p k = false) : d.nErase p k = (d.nFlag p 7 true).nErr 0x0102 k p := by
  simp only [Dev.nErase, h, Bool.not_false, if_true]

theorem Dev.nSuspend_own {o : NOp} (hrun : d.nRun = some o) (hsus : d.nSus = none) (hport : o.port = p) :
    d.nSuspend p = { d with nRun := none, nSus := some { o with auto := false, tick := d.tick } }.nvmSts := by
  simp only [Dev.nSuspend, hrun, hsus]
  exact if_pos hport

theorem Dev.nResume_own {o : NOp} (hrun : d.nRun = none) (hsus : d.nSus = some o) (hport : o.port = p) (hauto : o.auto = false) :
    d.nResume p = { d with nSus := none, nRun := some { o with tick := d.tick } }.nvmSts := by
  simp only [Dev.nResume, hrun, hsus]
  exact if_pos ⟨hport, by rw [hauto]; rfl⟩

/-- RESET waits for a program of the port's own that runs. -/
theorem Dev.nReset_program {o : NOp} (hrun : d.nRun = some o) (hport : o.port = p) (hprog : o.erase = false) :
    d.nReset p = d.setNPort p { d.nPort p with phase := 0, words := [], rst := true } := by
  simp [Dev.nReset, hrun, hport, hprog]

/-- Operations of a list end as abandoned ones: every erase's sector is left DIRTY_ERASE, and the operations stay as they are. -/
theorem Dev.nAbandon_all (l : List NOp) : ∀ d : Dev,
    ((l.foldl (fun (d : Dev) o => d.nAbandon o) d).nRun = d.nRun) ∧
    ∀ k, ((∃ o ∈ l, o.erase = true ∧ o.at_ = k) ∨ (d.sector k).dirty = true) → ((l.foldl (fun (d : Dev) o => d.nAbandon o) d).sector k).dirty = true := by
  induction l with
  | nil => exact fun d => ⟨rfl, fun k h => h.resolve_left (by simp)⟩
  | cons a l ih =>
    intro d
    obtain ⟨hrun, hdirty⟩ := ih (d.nAbandon a)
    refine ⟨?_, fun k h => ?_⟩
    · rw [List.foldl_cons, hrun, Dev.nAbandon]
      split <;> rfl
    · refine hdirty k ?_
      have hstep : ∀ k, (a.erase = true ∧ a.at_ = k) ∨ (d.sector k).dirty = true → ((d.nAbandon a).sector k).dirty = true := by
        intro k h
        rw [Dev.nAbandon]
        by_cases he : a.erase = true
        · rw [if_pos he]
          by_cases hk : k = a.at_
          · rw [hk, Dev.sector_setSector_self]
          · rw [Dev.sector_setSector_ne _ hk]
            exact h.resolve_left (fun h => hk h.2.symm)
        · rw [if_neg he]
          exact h.resolve_left (fun h => he h.1)
      obtain ⟨o, ho, herase, hat⟩ | h := h
      · obtain rfl | ho := List.mem_cons.mp ho
        · exact .inr (hstep k (.inl ⟨herase, hat⟩))
        · exact .inl ⟨o, ho, herase, hat⟩
      · exact .inr (hstep k (.inr h))

/-- The part of RESET that takes the port's erases out. -/
def Dev.nResetErases (d : Dev) (p : Nat) : Dev :=
  let mine (o : NOp) : Bool := o.port == p && o.erase
  let d := ((d.nRun.toList ++ d.nSus.toList).filter mine).foldl (fun (d : Dev) o => d.nAbandon o) d
  { d with nRun := d.nRun.filter (fun o => !mine o), nSus := d.nSus.filter (fun o => !mine o) }

/-- RESET where no program of the port's own runs. -/
theorem Dev.nReset_idle (h : ∀ o, d.nRun = some o → o.port = p → o.erase = true) : d.nReset p =
    ((d.nResetErases p).setNPort p
      { (d.nResetErases p).nPort p with phase := 0, words := [], idMode := false, statOne := false, flags := 0, rst := false }).nvmSts := by
  have hnone : d.nRun.any (fun o => o.port == p && !o.erase) = false := by
    cases hrun : d.nRun with
    | none => rfl
    | some o =>
      by_cases hport : o.port = p
      · simp [h o hrun hport]
      · simp [hport]
  simp only [Dev.nReset, hnone, Bool.false_eq_true, if_false]
  rfl

theorem Dev.nResetErases_run {o : NOp} (hrun : d.nRun = some o) (hport : o.port = p) (herase : o.erase = true) :
    (d.nResetErases p).nRun = none ∧ ((d.nResetErases p).sector o.at_).dirty = true := by
  obtain ⟨hsame, hdirty⟩ := Dev.nAbandon_all ((d.nRun.toList ++ d.nSus.toList).filter (fun o => o.port == p && o.erase)) d
  refine ⟨?_, hdirty o.at_ (.inl ⟨o, ?_, herase, rfl⟩)⟩
  · have hleft : (d.nResetErases p).nRun = (((d.nRun.toList ++ d.nSus.toList).filter (fun o => o.port == p && o.erase)).foldl
        (fun (d : Dev) o => d.nAbandon o) d).nRun.filter (fun o => !(o.port == p && o.erase)) := rfl
    rw [hleft, hsame, hrun]
    simp [Option.filter, hport, herase]
  · simp [hrun, hport, herase]

end

/-! ### One row -/

section
variable (s : State) {p : Nat}

/-- A row of a port's cycles, with what it stores: the port's body on a device that the cycles have reached, then the stalled reads. -/
theorem exec_flashRow (hsup : s.supplied) (hao : s.dev.aoUp = true) (htakes : s.dev.nTakes p) {i : Instr} {ws : List (Nat × Nat)}
    {body : Dev → Dev} {g : Dev → List (Nat × List Byte)} (h : exec i s = actFlash s (nCycle p ws body) g) :
    ∃ d1 t, s.dev.Arrives d1 ∧ exec i s = .next t ∧ (body d1).Reads t.dev ∧ t.array = storeArray s.array (g s.dev) ∧ t.window = s.window := by
  obtain ⟨d1, harr, hgo⟩ := nCycle_goes htakes ws body
  refine ⟨d1, _, harr, h.trans (actFlash_next s _ _ hsup hao), ?_, rfl, rfl⟩
  rw [← hgo]
  exact Dev.Reads.apServe _ _

/-- A row of a port's cycles that stores nothing and that no read follows. -/
theorem exec_aoRow (hsup : s.supplied) (hao : s.dev.aoUp = true) (htakes : s.dev.nTakes p) {i : Instr} {ws : List (Nat × Nat)}
    {body : Dev → Dev} (h : exec i s = actAo s (nCycle p ws body)) :
    ∃ d1 t, s.dev.Arrives d1 ∧ exec i s = .next t ∧ (body d1).Reads t.dev ∧ t.array = s.array := by
  obtain ⟨d1, harr, hgo⟩ := nCycle_goes htakes ws body
  refine ⟨d1, _, harr, h.trans (actAo_next s _ hsup hao), ?_, rfl⟩
  rw [← hgo]
  exact .refl _

end

/-- A port whose sequence has been taken up by its command. -/
def Dev.nCleared (d : Dev) (p : Nat) : Dev := d.setNPort p { d.nPort p with phase := 0, words := [] }

section
variable {d : Dev} {p : Nat}

theorem Dev.nCommand_ready (h : (d.nPort p).phase = 2) (byte : Nat) (body : Dev → Dev) : d.nCommand p byte body = body (d.nCleared p) := if_pos h

theorem Dev.nCommand_unready (h : (d.nPort p).phase ≠ 2) (byte : Nat) (body : Dev → Dev) : d.nCommand p byte body = d.nAbort p 0x0A5A4 byte := if_neg h

theorem Dev.nCleared_eq (d : Dev) (p : Nat) : ∃ nHost nFirm, d.nCleared p = { d with nHost := nHost, nFirm := nFirm } :=
  ⟨_, _, Dev.setNPort_eq d p _⟩

end

/-- A port that has abandoned its sequence (R447). -/
structure Abandoned (s t : State) (p off value : Nat) : Prop where
  code : (t.dev.page 0xEFF).errCode = 0x0100
  info0 : (t.dev.page 0xEFF).info0 = w32 off
  info1 : (t.dev.page 0xEFF).info1 = w32 value
  phase : (t.dev.nPort p).phase = 0
  run : t.dev.nRun = s.dev.nRun
  sus : t.dev.nSus = s.dev.nSus

theorem abandoned_of_abort {s t : State} {p off value : Nat} {d1 e : Dev} (harr : s.dev.Arrives d1) (herr : (s.dev.page 0xEFF).err = false)
    (he : d1.NvmSame e) (hpage : e.page 0xEFF = d1.page 0xEFF) (hreads : (e.nAbort p off value).Reads t.dev) : Abandoned s t p off value := by
  obtain ⟨hsame, -⟩ := harr.nvm
  have herr1 : (e.page 0xEFF).err = false := by rw [hpage, (Page.err_of_body (harr.body 0xEFF)).1]; exact herr
  obtain ⟨hset, hcode, h0, h1⟩ := Dev.page_nAbort e p off value herr1
  obtain ⟨-, hcode', h0', h1'⟩ := (hreads.page 0xEFF).1 hset
  obtain ⟨hsame', hport⟩ := hreads.nvm
  have hall := hsame.trans (he.trans ((Dev.NvmSame.nAbort e p off value).trans hsame'))
  exact ⟨hcode'.trans hcode, h0'.trans h0, h1'.trans h1, by rw [hport, Dev.phase_nAbort], hall.run, hall.sus⟩

end Sys2Proof.Machine
end

section
/-! Settling the command sequences of the embedded flash: one lemma per kind of row. -/

namespace Sys2Proof.Machine

-- In order, one declaration at a time: keeps the check within its memory limit.
set_option Elab.async false

/-! ### The rows as cycles of a port -/

section
variable (s : State) {p : Nat} (hp : p < 2)
include hp

theorem exec_unlockCycle_eq (off value : Nat) : exec (.unlockCycle p off value) s =
    actFlash s (nCycle p [(off / 4 * 4, value)] (fun d => d.nStep p (off / 4 * 4) (value % 2 ^ 32)))
      (fun d => d.nStepStore p (off / 4 * 4) (value % 2 ^ 32)) := by
  obtain rfl | rfl : p = 0 ∨ p = 1 := by omega
  · rfl
  · rfl

theorem exec_programPage_eq (addr : Nat) (data : List Nat) : exec (.programPage p addr data) s =
    actFlash s (nCycle p (programCycles addr data) (fun d => d.nCommand p 0x30 (fun d =>
        if data.length = 64 then d.nProgram p (addr % 0x2000000 / 256) else d.nAbort p 0x0A5A4 0x30)))
      (fun d => if data.length = 64 && d.nReady p && d.progOk p (addr % 0x2000000 / 256) then
        [(addr % 0x2000000 / 256 * 256, wordBytes (data.map (fun w => w % 2 ^ 32)))] else []) := by
  obtain rfl | rfl : p = 0 ∨ p = 1 := by omega
  · rfl
  · rfl

theorem exec_sectorErase_eq (k : Nat) : exec (.sectorErase p k) s =
    actAo s (nCycle p (eraseCycles k) (fun d => d.nCommand p 0x80 (fun d => d.nErase p (k % 512)))) := by
  obtain rfl | rfl : p = 0 ∨ p = 1 := by omega
  · rfl
  · rfl

theorem exec_suspend_eq : exec (.suspend p) s =
    actFlash s (nCycle p [(0x0A5A4, 0xB0)] (fun d => d.nCommand p 0xB0 (fun d => d.nSuspend p))) (fun _ => []) := by
  obtain rfl | rfl : p = 0 ∨ p = 1 := by omega
  · rfl
  · rfl

theorem exec_resume_eq : exec (.resume p) s =
    actAo s (nCycle p [(0x0A5A4, 0xD0)] (fun d => d.nCommand p 0xD0 (fun d => d.nResume p))) := by
  obtain rfl | rfl : p = 0 ∨ p = 1 := by omega
  · rfl
  · rfl

theorem exec_idStatus_eq : exec (.idStatus p) s =
    actAo s (nCycle p [(0x0A5A4, 0x90)] (fun d => d.nCommand p 0x90 (fun d => d.setNPort p { d.nPort p with idMode := true }))) := by
  obtain rfl | rfl : p = 0 ∨ p = 1 := by omega
  · rfl
  · rfl

theorem exec_readStat_eq : exec (.readStat p) s =
    actAo s (nCycle p [(0x0A5A4, 0x70)] (fun d => d.nCommand p 0x70 (fun d => d.setNPort p { d.nPort p with statOne := true }))) := by
  obtain rfl | rfl : p = 0 ∨ p = 1 := by omega
  · rfl
  · rfl

theorem exec_verifyMode_eq (mode : Nat) : exec (.verifyMode p mode) s =
    actAo s (nCycle p [(0x0A5A4, 0x60), (0x05A58, mode)] (fun d => d.nCommand p 0x60 (fun d =>
      if mode < 2 then d.nVerify p mode else d.nAbort p 0x05A58 mode))) := by
  obtain rfl | rfl : p = 0 ∨ p = 1 := by omega
  · rfl
  · rfl

theorem exec_nvmReset_eq : exec (.nvmReset p) s = actFlash s (nCycle p [(0x0A5A4, 0xF0)] (fun d => d.nReset p)) (fun _ => []) := by
  obtain rfl | rfl : p = 0 ∨ p = 1 := by omega
  · rfl
  · rfl

end

/-! ### Unlock cycles -/

section
variable (s : State) {p : Nat} (hsup : s.supplied) (hao : s.dev.aoUp = true) (htakes : s.dev.nTakes p) (hp : p < 2)
include hsup hao htakes hp

theorem exec_unlock_first (hphase : (s.dev.nPort p).phase = 0) :
    ∃ t, exec (.unlockCycle p 0x0A5A4 0x5A) s = .next t ∧ (t.dev.nPort p).phase = 1 ∧ t.array = s.array := by
  obtain ⟨d1, t, harr, hexec, hreads, harray, -⟩ := exec_flashRow s hsup hao htakes (exec_unlockCycle_eq s hp 0x0A5A4 0x5A)
  obtain ⟨-, hport, -⟩ := harr.nvm
  have hphase1 : (d1.nPort p).phase = 0 := by rw [hport]; exact hphase
  refine ⟨t, hexec, ?_, ?_⟩
  · rw [hreads.nvm.2]
    simp [Dev.nStep, Dev.nCycleIn, hphase1]
  · rw [harray]
    simp [Dev.nStepStore, hphase, storeArray]

theorem exec_unlock_second (hphase : (s.dev.nPort p).phase = 1) (htime : s.dev.tick ≤ (s.dev.nPort p).tick + 100000) :
    ∃ t, exec (.unlockCycle p 0x05A58 0xA5) s = .next t ∧ (t.dev.nPort p).phase = 2 ∧ t.array = s.array := by
  obtain ⟨d1, t, harr, hexec, hreads, harray, -⟩ := exec_flashRow s hsup hao htakes (exec_unlockCycle_eq s hp 0x05A58 0xA5)
  obtain ⟨-, hport, htick, -⟩ := harr.nvm
  have hphase1 : (d1.nPort p).phase = 1 := by rw [hport]; exact hphase
  have htime1 : ¬ (d1.nPort p).tick + 100000 < d1.tick := by rw [hport, htick]; omega
  refine ⟨t, hexec, ?_, ?_⟩
  · rw [hreads.nvm.2]
    simp [Dev.nStep, Dev.nCycleIn, hphase1, htime1]
  · rw [harray]
    simp [Dev.nStepStore, hphase, storeArray]

/-- A first cycle that is neither an unlock cycle nor RESET aborts the sequence (R447). -/
theorem exec_unlock_wrong (hphase : (s.dev.nPort p).phase = 0) {off value : Nat} (hoff : off % 4 = 0)
    (hwrong : ¬ (off = 0x0A5A4 ∧ (value = 0x5A ∨ value = 0xF0))) (hvalue : value < 2 ^ 32) (herr : (s.dev.page 0xEFF).err = false) :
    ∃ t, exec (.unlockCycle p off value) s = .next t ∧ Abandoned s t p off value ∧ t.array = s.array := by
  have hoff' : off / 4 * 4 = off := by omega
  obtain ⟨d1, t, harr, hexec, hreads, harray, -⟩ := exec_flashRow s hsup hao htakes (exec_unlockCycle_eq s hp off value)
  obtain ⟨-, hport, -⟩ := harr.nvm
  have hphase1 : (d1.nPort p).phase = 0 := by rw [hport]; exact hphase
  rw [hoff', Nat.mod_eq_of_lt hvalue] at hreads harray
  have hbody : d1.nStep p off value =
      (d1.setNPort p { d1.nPort p with phase := 0, words := [], tick := d1.tick, off := off, value := value }).nAbort p off value := by
    have hreset : ((off == 0x0A5A4) && (value == 0xF0)) = false := by simp; omega
    have hfirst : ((off == 0x0A5A4) && (value == 0x5A)) = false := by simp; omega
    simp only [Dev.nStep, Dev.nCycleIn, hphase1, hfirst, hreset, Bool.and_assoc, Bool.and_false, Bool.false_eq_true, if_false, ne_eq,
      not_true_eq_false, false_and]
  rw [hbody] at hreads
  refine ⟨t, hexec, abandoned_of_abort harr herr (Dev.NvmSame.setNPort d1 p _) (Dev.page_setNPort d1 p _ _) hreads, ?_⟩
  rw [harray]
  simp [Dev.nStepStore, hphase, storeArray]

/-! ### Commands on a prepared port -/

theorem exec_program_ok (hphase : (s.dev.nPort p).phase = 2) {addr : Nat} {data : List Nat} (hlen : data.length = 64) (haddr : addr < 2 ^ 25)
    (hok : s.dev.progOk p (addr / 256) = true) : ∃ t, exec (.programPage p addr data) s = .next t ∧
      t.array = Memory.writeList arrayDflt s.array (addr / 256 * 256) (wordBytes (data.map (fun w => w % 2 ^ 32))) ∧
      (∀ a, a < addr / 256 * 256 ∨ addr / 256 * 256 + 256 ≤ a → Memory.read arrayDflt t.array a = Memory.read arrayDflt s.array a) ∧
      t.window = s.window ∧ t.dev.nRun = some { port := p, erase := false, at_ := addr / 256, auto := false, tick := s.dev.tick } ∧
      (t.dev.sector (addr / 256 / 256)).next = addr / 256 % 256 + 1 := by
  obtain ⟨d1, t, harr, hexec, hreads, harray, hwindow⟩ := exec_flashRow s hsup hao htakes (exec_programPage_eq s hp addr data)
  obtain ⟨-, hport, htick, hprog, -⟩ := harr.nvm
  have hphase1 : (d1.nPort p).phase = 2 := by rw [hport]; exact hphase
  rw [Nat.mod_eq_of_lt (show addr < 0x2000000 from haddr)] at hreads harray
  rw [Dev.nCommand_ready hphase1, if_pos hlen] at hreads
  have hok1 : (d1.nCleared p).progOk p (addr / 256) = true := by
    obtain ⟨_, _, h⟩ := Dev.nCleared_eq d1 p
    rw [h]
    exact (hprog p _).trans hok
  rw [Dev.nProgram_ok hok1] at hreads
  have habove : ¬ addr / 256 * 256 < 0x100000 := by
    simp only [Dev.progOk, Bool.and_eq_true] at hok
    obtain ⟨⟨⟨⟨hmay, -⟩, -⟩, -⟩, -⟩ := hok
    have := Dev.nMayWrite_above hmay
    omega
  have hstore : t.array = Memory.writeList arrayDflt s.array (addr / 256 * 256) (wordBytes (data.map (fun w => w % 2 ^ 32))) := by
    rw [harray, if_pos (by simp [hlen, Dev.nReady_of_takes htakes hphase, hok])]
    simp only [storeArray, List.foldl_cons, List.foldl_nil, habove, if_false]
  refine ⟨t, hexec, hstore, fun a ha => ?_, hwindow, ?_, ?_⟩
  · rw [hstore]
    refine Memory.read_writeList_outside _ _ _ _ _ ?_
    rw [length_wordBytes, List.length_map, hlen]
    exact ha
  · rw [hreads.nvm.1.run]
    obtain ⟨_, _, h⟩ := Dev.nCleared_eq d1 p
    have htick' : (d1.nCleared p).tick = s.dev.tick := by rw [h]; exact htick
    show some _ = some _
    rw [htick']
  · rw [hreads.nvm.1.sector]
    exact congrArg (·.next) (Dev.sector_setSector_self (d1.nCleared p) (addr / 256 / 256)
      { (d1.nCleared p).sector (addr / 256 / 256) with next := addr / 256 % 256 + 1 })

omit hsup hao htakes hp in
/-- A sector that the port may not write refuses a program or an erase (R448). -/
theorem barred_of_reads {t : State} {d1 : Dev} {k : Nat} (harr : s.dev.Arrives d1) (herr : (s.dev.page 0xEFF).err = false)
    (hreads : (((d1.nCleared p).nFlag p 7 true).nErr 0x0102 k p).Reads t.dev) :
    t.dev.nRun = s.dev.nRun ∧ (t.dev.page 0xEFF).errCode = 0x0102 ∧ (t.dev.page 0xEFF).info0 = w32 k := by
  have herr1 : (((d1.nCleared p).nFlag p 7 true).page 0xEFF).err = false := by
    rw [Dev.page_nFlag, Dev.nCleared, Dev.page_setNPort, (Page.err_of_body (harr.body 0xEFF)).1]
    exact herr
  obtain ⟨hset, hcode, h0, -⟩ := Dev.page_nErr_first _ 0x0102 k p herr1
  obtain ⟨-, hcode', h0', -⟩ := (hreads.page 0xEFF).1 hset
  have hrun := (harr.nvm.1.trans ((Dev.NvmSame.setNPort d1 p _).trans ((Dev.NvmSame.nFlag (d1.nCleared p) p 7 true).trans
    ((Dev.NvmSame.nErr _ _ _ _).trans hreads.nvm.1)))).run
  exact ⟨hrun, hcode'.trans hcode, h0'.trans h0⟩

theorem exec_program_barred (hphase : (s.dev.nPort p).phase = 2) {addr : Nat} {data : List Nat} (hlen : data.length = 64) (haddr : addr < 2 ^ 25)
    (hbar : s.dev.nMayWrite p (addr / 256 / 256) = false) (herr : (s.dev.page 0xEFF).err = false) :
    ∃ t, exec (.programPage p addr data) s = .next t ∧ t.array = s.array ∧ t.dev.nRun = s.dev.nRun ∧ (t.dev.page 0xEFF).errCode = 0x0102 ∧
      (t.dev.page 0xEFF).info0 = w32 (addr / 256 / 256) := by
  obtain ⟨d1, t, harr, hexec, hreads, harray, -⟩ := exec_flashRow s hsup hao htakes (exec_programPage_eq s hp addr data)
  obtain ⟨-, hport, -, -, hmay⟩ := harr.nvm
  have hphase1 : (d1.nPort p).phase = 2 := by rw [hport]; exact hphase
  have hbar1 : (d1.nCleared p).nMayWrite p (addr / 256 / 256) = false := by
    obtain ⟨_, _, h⟩ := Dev.nCleared_eq d1 p
    rw [h]
    exact (hmay p _).trans hbar
  rw [Nat.mod_eq_of_lt (show addr < 0x2000000 from haddr)] at hreads harray
  rw [Dev.nCommand_ready hphase1, if_pos hlen, Dev.nProgram_barred hbar1] at hreads
  refine ⟨t, hexec, ?_, barred_of_reads s harr herr hreads⟩
  rw [harray, if_neg (by simp [Dev.progOk, hbar])]
  rfl

theorem exec_erase_ok (hphase : (s.dev.nPort p).phase = 2) {k : Nat} (hk : k < 512) (hmay : s.dev.nMayWrite p k = true) (hrun : s.dev.nRun = none)
    (hsus : s.dev.nSus = none) : ∃ t, exec (.sectorErase p k) s = .next t ∧
      t.dev.nRun = some { port := p, erase := true, at_ := k, auto := false, tick := s.dev.tick } ∧ t.array = s.array := by
  obtain ⟨d1, t, harr, hexec, hreads, harray⟩ := exec_aoRow s hsup hao htakes (exec_sectorErase_eq s hp k)
  obtain ⟨hsame, hport, htick, -, hmay1⟩ := harr.nvm
  have hphase1 : (d1.nPort p).phase = 2 := by rw [hport]; exact hphase
  obtain ⟨nHost, nFirm, hcl⟩ := Dev.nCleared_eq d1 p
  have hrun1 : (d1.nCleared p).nRun = none := by rw [hcl]; exact hsame.run.trans hrun
  have hsus1 : (d1.nCleared p).nSus = none := by rw [hcl]; exact hsame.sus.trans hsus
  have hmay2 : (d1.nCleared p).nMayWrite p k = true := by rw [hcl]; exact (hmay1 p k).trans hmay
  have htick1 : (d1.nCleared p).tick = s.dev.tick := by rw [hcl]; exact htick
  rw [Nat.mod_eq_of_lt hk, Dev.nCommand_ready hphase1, Dev.nErase_ok hmay2 hrun1 hsus1] at hreads
  refine ⟨t, hexec, ?_, harray⟩
  rw [hreads.nvm.1.run]
  show some _ = some _
  rw [htick1]

theorem exec_erase_barred (hphase : (s.dev.nPort p).phase = 2) {k : Nat} (hk : k < 512) (hbar : s.dev.nMayWrite p k = false)
    (herr : (s.dev.page 0xEFF).err = false) : ∃ t, exec (.sectorErase p k) s = .next t ∧ t.dev.nRun = s.dev.nRun ∧
      (t.dev.page 0xEFF).errCode = 0x0102 ∧ t.array = s.array := by
  obtain ⟨d1, t, harr, hexec, hreads, harray⟩ := exec_aoRow s hsup hao htakes (exec_sectorErase_eq s hp k)
  obtain ⟨-, hport, -, -, hmay⟩ := harr.nvm
  have hphase1 : (d1.nPort p).phase = 2 := by rw [hport]; exact hphase
  have hbar1 : (d1.nCleared p).nMayWrite p k = false := by
    obtain ⟨_, _, h⟩ := Dev.nCleared_eq d1 p
    rw [h]
    exact (hmay p _).trans hbar
  rw [Nat.mod_eq_of_lt hk, Dev.nCommand_ready hphase1, Dev.nErase_barred hbar1] at hreads
  obtain ⟨hrun, hcode, -⟩ := barred_of_reads s harr herr hreads
  exact ⟨t, hexec, hrun, hcode, harray⟩

theorem exec_suspend_ok (hphase : (s.dev.nPort p).phase = 2) {o : NOp} (hrun : s.dev.nRun = some o) (hsus : s.dev.nSus = none) (hport : o.port = p) :
    ∃ t, exec (.suspend p) s = .next t ∧ t.dev.nRun = none ∧ t.dev.nSus = some { o with auto := false, tick := s.dev.tick } := by
  obtain ⟨d1, t, harr, hexec, hreads, -, -⟩ := exec_flashRow s hsup hao htakes (exec_suspend_eq s hp)
  obtain ⟨hsame, hport1, htick, -, -⟩ := harr.nvm
  have hphase1 : (d1.nPort p).phase = 2 := by rw [hport1]; exact hphase
  obtain ⟨nHost, nFirm, hcl⟩ := Dev.nCleared_eq d1 p
  have hrun1 : (d1.nCleared p).nRun = some o := by rw [hcl]; exact hsame.run.trans hrun
  have hsus1 : (d1.nCleared p).nSus = none := by rw [hcl]; exact hsame.sus.trans hsus
  have htick1 : (d1.nCleared p).tick = s.dev.tick := by rw [hcl]; exact htick
  rw [Dev.nCommand_ready hphase1] at hreads
  rw [Dev.nSuspend_own hrun1 hsus1 hport, htick1] at hreads
  exact ⟨t, hexec, hreads.nvm.1.run, hreads.nvm.1.sus⟩

theorem exec_resume_ok (hphase : (s.dev.nPort p).phase = 2) {o : NOp} (hrun : s.dev.nRun = none) (hsus : s.dev.nSus = some o) (hport : o.port = p)
    (hauto : o.auto = false) : ∃ t, exec (.resume p) s = .next t ∧ t.dev.nSus = none ∧ t.dev.nRun = some { o with tick := s.dev.tick } := by
  obtain ⟨d1, t, harr, hexec, hreads, -⟩ := exec_aoRow s hsup hao htakes (exec_resume_eq s hp)
  obtain ⟨hsame, hport1, htick, -, -⟩ := harr.nvm
  have hphase1 : (d1.nPort p).phase = 2 := by rw [hport1]; exact hphase
  obtain ⟨nHost, nFirm, hcl⟩ := Dev.nCleared_eq d1 p
  have hrun1 : (d1.nCleared p).nRun = none := by rw [hcl]; exact hsame.run.trans hrun
  have hsus1 : (d1.nCleared p).nSus = some o := by rw [hcl]; exact hsame.sus.trans hsus
  have htick1 : (d1.nCleared p).tick = s.dev.tick := by rw [hcl]; exact htick
  rw [Dev.nCommand_ready hphase1] at hreads
  rw [Dev.nResume_own hrun1 hsus1 hport hauto, htick1] at hreads
  exact ⟨t, hexec, hreads.nvm.1.sus, hreads.nvm.1.run⟩

/-- ID_STATUS, READ_STAT and VERIFY_MODE leave their mode on the port. -/
theorem exec_modes (hphase : (s.dev.nPort p).phase = 2) :
    (∃ t, exec (.idStatus p) s = .next t ∧ (t.dev.nPort p).idMode = true ∧ (t.dev.nPort p).phase = 0) ∧
    (∃ t, exec (.readStat p) s = .next t ∧ (t.dev.nPort p).statOne = true ∧ (t.dev.nPort p).phase = 0) ∧
    (∀ mode, mode < 2 → ∃ t, exec (.verifyMode p mode) s = .next t ∧ (t.dev.nPort p).pulse = (mode == 1) ∧ (t.dev.nPort p).phase = 0) := by
  have hready : ∀ d1, s.dev.Arrives d1 → (d1.nPort p).phase = 2 := fun d1 harr => by rw [harr.nvm.2.1]; exact hphase
  refine ⟨?_, ?_, fun mode hmode => ?_⟩
  · obtain ⟨d1, t, harr, hexec, hreads, -⟩ := exec_aoRow s hsup hao htakes (exec_idStatus_eq s hp)
    rw [Dev.nCommand_ready (hready d1 harr)] at hreads
    refine ⟨t, hexec, ?_⟩
    rw [hreads.nvm.2, Dev.nPort_setNPort_self, Dev.nCleared, Dev.nPort_setNPort_self]
    exact ⟨rfl, rfl⟩
  · obtain ⟨d1, t, harr, hexec, hreads, -⟩ := exec_aoRow s hsup hao htakes (exec_readStat_eq s hp)
    rw [Dev.nCommand_ready (hready d1 harr)] at hreads
    refine ⟨t, hexec, ?_⟩
    rw [hreads.nvm.2, Dev.nPort_setNPort_self, Dev.nCleared, Dev.nPort_setNPort_self]
    exact ⟨rfl, rfl⟩
  · obtain ⟨d1, t, harr, hexec, hreads, -⟩ := exec_aoRow s hsup hao htakes (exec_verifyMode_eq s hp mode)
    rw [Dev.nCommand_ready (hready d1 harr), if_pos hmode] at hreads
    refine ⟨t, hexec, ?_⟩
    rw [hreads.nvm.2, Dev.nVerify, Dev.nPort_nvmSts, Dev.nPort_setNPort_self]
    exact ⟨rfl, rfl⟩

/-! ### RESET -/

theorem exec_reset_idle (herase : ∀ o, s.dev.nRun = some o → o.port = p → o.erase = true) :
    ∃ t, exec (.nvmReset p) s = .next t ∧ (t.dev.nPort p).phase = 0 ∧ (t.dev.nPort p).flags = 0 ∧ (t.dev.nPort p).idMode = false ∧
      t.array = s.array ∧ ∀ o, s.dev.nRun = some o → o.port = p → t.dev.nRun = none ∧ (t.dev.sector o.at_).dirty = true := by
  obtain ⟨d1, t, harr, hexec, hreads, harray, -⟩ := exec_flashRow s hsup hao htakes (exec_nvmReset_eq s hp)
  obtain ⟨hsame, -⟩ := harr.nvm
  rw [Dev.nReset_idle (fun o ho => herase o (hsame.run.symm.trans ho))] at hreads
  obtain ⟨hafter, hport⟩ := hreads.nvm
  refine ⟨t, hexec, ?_, ?_, ?_, harray, fun o ho hop => ?_⟩
  · rw [hport, Dev.nPort_nvmSts, Dev.nPort_setNPort_self]
  · rw [hport, Dev.nPort_nvmSts, Dev.nPort_setNPort_self]
  · rw [hport, Dev.nPort_nvmSts, Dev.nPort_setNPort_self]
  · obtain ⟨hrun, hdirty⟩ := Dev.nResetErases_run (hsame.run.trans ho) hop (herase o ho hop)
    have hkept := Dev.NvmSame.setNPort (d1.nResetErases p) p
      { (d1.nResetErases p).nPort p with phase := 0, words := [], idMode := false, statOne := false, flags := 0, rst := false }
    refine ⟨hafter.run.trans (hkept.run.trans hrun), ?_⟩
    rw [hafter.sector]
    exact (congrArg (·.dirty) (hkept.sector o.at_)).trans hdirty

theorem exec_reset_program {o : NOp} (hrun : s.dev.nRun = some o) (hport : o.port = p) (hprog : o.erase = false) :
    ∃ t, exec (.nvmReset p) s = .next t ∧ (t.dev.nPort p).phase = 0 ∧ (t.dev.nPort p).rst = true ∧ t.dev.nRun = s.dev.nRun ∧
      t.array = s.array := by
  obtain ⟨d1, t, harr, hexec, hreads, harray, -⟩ := exec_flashRow s hsup hao htakes (exec_nvmReset_eq s hp)
  obtain ⟨hsame, -⟩ := harr.nvm
  rw [Dev.nReset_program (hsame.run.trans hrun) hport hprog] at hreads
  obtain ⟨hafter, hport'⟩ := hreads.nvm
  refine ⟨t, hexec, ?_, ?_, ?_, harray⟩
  · rw [hport', Dev.nPort_setNPort_self]
  · rw [hport', Dev.nPort_setNPort_self]
  · exact hafter.run.trans ((Dev.NvmSame.setNPort d1 p _).run.trans hsame.run)

/-! ### Commands on a port that is not prepared -/

omit hp in
theorem exec_unready_flash (hphase : (s.dev.nPort p).phase ≠ 2) (herr : (s.dev.page 0xEFF).err = false) {i : Instr} {ws : List (Nat × Nat)}
    {byte : Nat} {body : Dev → Dev} {g : Dev → List (Nat × List Byte)} (h : exec i s = actFlash s (nCycle p ws (fun d => d.nCommand p byte body)) g)
    (hg : g s.dev = []) : ∃ t, exec i s = .next t ∧ Abandoned s t p 0x0A5A4 byte ∧ t.array = s.array := by
  obtain ⟨d1, t, harr, hexec, hreads, harray, -⟩ := exec_flashRow s hsup hao htakes h
  obtain ⟨-, hport, -⟩ := harr.nvm
  rw [Dev.nCommand_unready (by rw [hport]; exact hphase)] at hreads
  refine ⟨t, hexec, abandoned_of_abort harr herr ⟨rfl, rfl, rfl⟩ rfl hreads, ?_⟩
  rw [harray, hg]
  rfl

omit hp in
theorem exec_unready_ao (hphase : (s.dev.nPort p).phase ≠ 2) (herr : (s.dev.page 0xEFF).err = false) {i : Instr} {ws : List (Nat × Nat)}
    {byte : Nat} {body : Dev → Dev} (h : exec i s = actAo s (nCycle p ws (fun d => d.nCommand p byte body))) :
    ∃ t, exec i s = .next t ∧ Abandoned s t p 0x0A5A4 byte ∧ t.array = s.array := by
  obtain ⟨d1, t, harr, hexec, hreads, harray⟩ := exec_aoRow s hsup hao htakes h
  obtain ⟨-, hport, -⟩ := harr.nvm
  rw [Dev.nCommand_unready (by rw [hport]; exact hphase)] at hreads
  exact ⟨t, hexec, abandoned_of_abort harr herr ⟨rfl, rfl, rfl⟩ rfl hreads, harray⟩

theorem exec_unready (hphase : (s.dev.nPort p).phase ≠ 2) (herr : (s.dev.page 0xEFF).err = false) {i : Instr}
    (hi : (∃ addr data, i = Instr.programPage p addr data) ∨ (∃ k, i = .sectorErase p k) ∨ (∃ mode, i = .verifyMode p mode) ∨
      i ∈ [.suspend p, .resume p, .idStatus p, .readStat p]) :
    ∃ t byte, exec i s = .next t ∧ Abandoned s t p 0x0A5A4 byte ∧ t.array = s.array := by
  have hready : s.dev.nReady p = false := by simp [Dev.nReady, hphase]
  obtain ⟨addr, data, rfl⟩ | ⟨k, rfl⟩ | ⟨mode, rfl⟩ | hi := hi
  · obtain ⟨t, h⟩ := exec_unready_flash s hsup hao htakes hphase herr (exec_programPage_eq s hp addr data) (by simp [hready])
    exact ⟨t, _, h⟩
  · obtain ⟨t, h⟩ := exec_unready_ao s hsup hao htakes hphase herr (exec_sectorErase_eq s hp k)
    exact ⟨t, _, h⟩
  · obtain ⟨t, h⟩ := exec_unready_ao s hsup hao htakes hphase herr (exec_verifyMode_eq s hp mode)
    exact ⟨t, _, h⟩
  · simp only [List.mem_cons, List.not_mem_nil, or_false] at hi
    obtain rfl | rfl | rfl | rfl := hi
    · obtain ⟨t, h⟩ := exec_unready_flash s hsup hao htakes hphase herr (exec_suspend_eq s hp) rfl
      exact ⟨t, _, h⟩
    · obtain ⟨t, h⟩ := exec_unready_ao s hsup hao htakes hphase herr (exec_resume_eq s hp)
      exact ⟨t, _, h⟩
    · obtain ⟨t, h⟩ := exec_unready_ao s hsup hao htakes hphase herr (exec_idStatus_eq s hp)
      exact ⟨t, _, h⟩
    · obtain ⟨t, h⟩ := exec_unready_ao s hsup hao htakes hphase herr (exec_readStat_eq s hp)
      exact ⟨t, _, h⟩

end

/-- Settles O47: each row is a port's cycle, whose body the port's phase decides. -/
theorem flashSequences : Obligations.FlashSequences := by
  intro s p hsup hao hheld hp hhost hfirm x
  have htakes : s.dev.nTakes p := ⟨hheld, hhost, fun h => hfirm (by omega)⟩
  refine ⟨fun h0 => ⟨?_, ?_⟩, ?_, fun h2 => ⟨?_, ?_, ?_, ?_, ?_⟩, ?_, ?_, ?_⟩
  · exact exec_unlock_first s hsup hao htakes hp h0
  · intro off value hoff hwrong hvalue herr
    obtain ⟨t, hexec, hab, harray⟩ := exec_unlock_wrong s hsup hao htakes hp h0 hoff hwrong hvalue herr
    exact ⟨t, hexec, hab.phase, hab.code, hab.info0, hab.info1, harray⟩
  · exact exec_unlock_second s hsup hao htakes hp
  · exact fun addr data hlen haddr => ⟨exec_program_ok s hsup hao htakes hp h2 hlen haddr, exec_program_barred s hsup hao htakes hp h2 hlen haddr⟩
  · exact fun k hk => ⟨exec_erase_ok s hsup hao htakes hp h2 hk, exec_erase_barred s hsup hao htakes hp h2 hk⟩
  · exact fun o => exec_suspend_ok s hsup hao htakes hp h2
  · exact fun o => exec_resume_ok s hsup hao htakes hp h2
  · exact exec_modes s hsup hao htakes hp h2
  · exact exec_reset_idle s hsup hao htakes hp
  · exact fun o => exec_reset_program s hsup hao htakes hp
  · intro hphase herr i hi
    obtain ⟨t, byte, hexec, hab, harray⟩ := exec_unready s hsup hao htakes hp hphase herr hi
    exact ⟨t, hexec, hab.code, hab.phase, hab.run, hab.sus, harray⟩

end Sys2Proof.Machine
end

section
/-! Ends of operations of the embedded flash, automatic suspension, reads and boot control (R446, R447, R451, R453, R455, R456, R459, R461). -/

namespace Sys2Proof.Machine

-- In order, one declaration at a time: keeps the check within its memory limit.
set_option Elab.async false

/-! ### An event leaves the error registers -/

section
variable (d : Dev)

theorem Dev.err_raise0 (pg bit q : Nat) : ((d.raise0 pg bit).page q).err = (d.page q).err := by
  by_cases hq : q = pg
  · rw [hq, Dev.page_raise0]
  · rw [Dev.page_raise0_ne _ hq]

theorem Dev.err_toRun (q : Nat) : (d.toRun.page q).err = (d.page q).err := by
  unfold Dev.toRun
  split
  · exact Dev.err_raise0 _ _ _ _
  · rfl

theorem Dev.err_raise (pg bit q : Nat) : ((d.raise pg bit).page q).err = (d.page q).err := (Dev.err_toRun _ q).trans (Dev.err_raise0 d pg bit q)

end

/-! ### Ends of operations -/

section
variable {d : Dev} {p : Nat}

theorem Dev.NvmSame.of_reports {e t : Dev} (h : e.Reports t) : e.NvmSame t :=
  ⟨congrArg (·.nRun) h.kept, congrArg (·.nSus) h.kept, congrArg (·.nSec) h.kept⟩

theorem Dev.Reports.nEnded (d : Dev) (p : Nat) (pass : Bool) : d.Reports (d.nEnded p pass) := by
  unfold Dev.nEnded
  refine Dev.Frame.ite ?_ (.refl d)
  exact (Dev.Reports.raise d _ _).trans (Dev.Frame.ite (.refl _) (Dev.Reports.raise _ _ _))

theorem Dev.err_nEnded (d : Dev) (p : Nat) (pass : Bool) (q : Nat) : ((d.nEnded p pass).page q).err = (d.page q).err := by
  unfold Dev.nEnded
  split
  · split
    · exact Dev.err_raise _ _ _ _
    · exact (Dev.err_raise _ _ _ _).trans (Dev.err_raise _ _ _ _)
  · rfl

/-- The end of a program: the array is free, a failure is recorded, and a RESET that waited acts. -/
def Dev.programEnds (d : Dev) (o : NOp) (pass : Bool) (pulses : Nat) : Dev :=
  let pulse := (d.nPort o.port).pulse
  let n := if !pulse then 0 else if pass then max 1 (min 12 pulses) else 12
  let d := { d with nRun := none }
  let d := if pulse then d.setFld Reg.NVM_PULSES 3 0 n else d
  let d := d.nFlag o.port 2 (!pass)
  let d := if pass then d else d.nErr 0x0104 o.at_ n
  let d := d.nEnded o.port pass
  if (d.nPort o.port).rst then d.nReset o.port else d

theorem doNvmProgramDone_ends {o : NOp} (hrun : d.nRun = some o) (hprog : o.erase = false) (hgo : d.nvmStop = false) (pass : Bool) (pulses : Nat) :
    doNvmProgramDone pass pulses d = d.programEnds o pass pulses := by
  simp only [doNvmProgramDone, hrun, hprog, hgo, Bool.or_self, Bool.false_eq_true, if_false]
  rfl

/-- RESET of a port with no operation running leaves the page headers. -/
theorem Dev.nReset_none (h : d.nRun = none) (p : Nat) : (d.nReset p).nRun = none ∧ ∀ q, (d.nReset p).page q = d.page q := by
  have hidle : ∀ o, d.nRun = some o → o.port = p → o.erase = true := fun o ho => by rw [h] at ho; exact absurd ho (by simp)
  rw [Dev.nReset_idle hidle]
  have hfold : ∀ (l : List NOp) (e : Dev) (q : Nat), (l.foldl (fun (d : Dev) o => d.nAbandon o) e).page q = e.page q := by
    intro l e q
    refine List.foldlRecOn (motive := fun x : Dev => x.page q = e.page q) l _ rfl (fun x hx o _ => ?_)
    rw [Dev.nAbandon]
    split
    · exact hx
    · exact hx
  refine ⟨?_, fun q => ?_⟩
  · refine (Dev.NvmSame.setNPort _ p _).run.trans ?_
    have hleft : (d.nResetErases p).nRun = (((d.nRun.toList ++ d.nSus.toList).filter (fun o => o.port == p && o.erase)).foldl
        (fun (d : Dev) o => d.nAbandon o) d).nRun.filter (fun o => !(o.port == p && o.erase)) := rfl
    rw [hleft, (Dev.nAbandon_all _ d).1, h]
    rfl
  · rw [Dev.page_nvmSts, Dev.page_setNPort]
    exact hfold _ _ _

/-- What the end of a program leaves: no operation runs, and the page's first error stands, a failure's where there was none. -/
theorem Dev.programEnds_spec (o : NOp) (pass : Bool) (pulses : Nat) (herr : (d.page 0xEFF).err = false) :
    (d.programEnds o pass pulses).nRun = none ∧
    (pass = true → ((d.programEnds o pass pulses).page 0xEFF).err = false) ∧
    (pass = false → ((d.programEnds o pass pulses).page 0xEFF).err = true ∧ ((d.programEnds o pass pulses).page 0xEFF).errCode = 0x0104 ∧
      ((d.programEnds o pass pulses).page 0xEFF).info0 = w32 o.at_) := by
  unfold Dev.programEnds
  extract_lets pulse n d0 d1 d2 d3 d4
  have hrun1 : d1.nRun = none := by
    simp only [d1]
    split <;> rfl
  have hpage1 : d1.page 0xEFF = d.page 0xEFF := by
    simp only [d1]
    split <;> rfl
  have hrun2 : d2.nRun = none := (Dev.NvmSame.nFlag d1 _ _ _).run.trans hrun1
  have hpage2 : d2.page 0xEFF = d.page 0xEFF := (Dev.page_nFlag d1 _ _ _ _).trans hpage1
  have hrun3 : d3.nRun = none := by
    simp only [d3]
    split
    · exact hrun2
    · exact (Dev.NvmSame.nErr d2 _ _ _).run.trans hrun2
  have hend := Dev.Reports.nEnded d3 o.port pass
  have hrun4 : d4.nRun = none := (Dev.NvmSame.of_reports hend).run.trans hrun3
  have hfin : ∀ e : Dev, e.nRun = none → (if (e.nPort o.port).rst then e.nReset o.port else e).nRun = none ∧
      ∀ q, (if (e.nPort o.port).rst then e.nReset o.port else e).page q = e.page q := by
    intro e he
    split
    · exact Dev.nReset_none he _
    · exact ⟨he, fun _ => rfl⟩
  obtain ⟨hrun5, hpage5⟩ := hfin d4 hrun4
  refine ⟨hrun5, fun hpass => ?_, fun hpass => ?_⟩
  · rw [hpage5]
    have hd3 : d3 = d2 := if_pos hpass
    rw [show (d4.page 0xEFF).err = (d3.page 0xEFF).err from Dev.err_nEnded d3 _ _ _, hd3, hpage2]
    exact herr
  · rw [hpage5]
    have hd3 : d3 = d2.nErr 0x0104 o.at_ n := if_neg (by simp [hpass])
    obtain ⟨hset, hcode, h0, -⟩ := Dev.page_nErr_first d2 0x0104 o.at_ n (by rw [hpage2]; exact herr)
    rw [← hd3] at hset hcode h0
    obtain ⟨hset', hcode', h0', -⟩ := (hend.page 0xEFF).1 hset
    exact ⟨hset', hcode'.trans hcode, h0'.trans h0⟩

/-- The end of a program leaves the stalled reads. -/
theorem Dev.apWait_programEnds (d : Dev) (o : NOp) (pass : Bool) (pulses : Nat) : (d.programEnds o pass pulses).apWait = d.apWait := by
  have hport : ∀ (e : Dev) (q : Nat) (x : NPort), (e.setNPort q x).apWait = e.apWait := fun e q x => by rw [Dev.setNPort_eq]
  have herrs : ∀ (e : Dev) (code i0 i1 : Nat), (e.nErr code i0 i1).apWait = e.apWait := fun e code i0 i1 => by rw [Dev.nErr, Dev.recordErr_eq]
  have hreset : ∀ (e : Dev) (q : Nat), (e.nReset q).apWait = e.apWait := by
    intro e q
    have hfold : ∀ (l : List NOp) (e : Dev), (l.foldl (fun (d : Dev) o => d.nAbandon o) e).apWait = e.apWait := by
      intro l e
      refine List.foldlRecOn (motive := fun x : Dev => x.apWait = e.apWait) l _ rfl (fun x hx o _ => ?_)
      rw [Dev.nAbandon]
      split
      · exact hx
      · exact hx
    simp only [Dev.nReset]
    split
    · exact hport _ _ _
    · exact (hport _ q _).trans (hfold _ _)
  unfold Dev.programEnds
  extract_lets pulse n d0 d1 d2 d3 d4
  have h1 : d1.apWait = d.apWait := by
    simp only [d1]
    split <;> rfl
  have h2 : d2.apWait = d.apWait := (hport d1 _ _).trans h1
  have h3 : d3.apWait = d.apWait := by
    simp only [d3]
    split
    · exact h2
    · exact (herrs _ _ _ _).trans h2
  have h4 : d4.apWait = d.apWait := (congrArg (·.apWait) (Dev.Reports.nEnded d3 o.port pass).kept).trans h3
  split
  · exact (hreset _ _).trans h4
  · exact h4

theorem Dev.page_apServe_none (m : Memory) (h : d.apWait = []) (q : Nat) : (d.apServe m).page q = d.page q := by
  unfold Dev.apServe
  split
  · rfl
  · rw [h]
    rfl

/-- The end of an erase: the array is free, the sector is free or DIRTY_ERASE, and a failure is recorded. -/
def Dev.eraseEnds (d : Dev) (o : NOp) (pass : Bool) (pulses : Nat) : Dev :=
  let pulse := (d.nPort o.port).pulse
  let n := if !pulse then 0 else if pass then max 1 (min 12 pulses) else 12
  let x := d.sector o.at_
  let d := { d with nRun := none }
  let d := if pulse then d.setFld Reg.NVM_PULSES 7 4 n else d
  let d := d.setSector o.at_ (if pass then { next := 0, dirty := false, erases := x.erases + 1 } else { x with dirty := true })
  let d := d.nFlag o.port 3 (!pass)
  let d := if pass then d else d.nErr 0x0105 o.at_ n
  d.nEnded o.port pass

theorem doNvmEraseDone_ends {o : NOp} (hrun : d.nRun = some o) (herase : o.erase = true) (hgo : d.nvmStop = false) (pass : Bool) (pulses : Nat) :
    doNvmEraseDone pass pulses d = d.eraseEnds o pass pulses := by
  simp only [doNvmEraseDone, hrun, herase, hgo, Bool.not_true, Bool.or_self, Bool.false_eq_true, if_false]
  rfl

theorem Dev.eraseEnds_spec (o : NOp) (pass : Bool) (pulses : Nat) :
    (d.eraseEnds o pass pulses).nRun = none ∧
    (d.eraseEnds o pass pulses).sector o.at_ =
      (if pass then { next := 0, dirty := false, erases := (d.sector o.at_).erases + 1 } else { d.sector o.at_ with dirty := true }) ∧
    (pass = false → (d.page 0xEFF).err = false → ((d.eraseEnds o pass pulses).page 0xEFF).err = true ∧
      ((d.eraseEnds o pass pulses).page 0xEFF).errCode = 0x0105) := by
  unfold Dev.eraseEnds
  extract_lets pulse n x d0 d1 d2 d3 d4
  have hrun1 : d1.nRun = none := by
    simp only [d1]
    split <;> rfl
  have hpage1 : d1.page 0xEFF = d.page 0xEFF := by
    simp only [d1]
    split <;> rfl
  have hflag := Dev.NvmSame.nFlag d2 o.port 3 (!pass)
  have hpage3 : d3.page 0xEFF = d.page 0xEFF := (Dev.page_nFlag d2 _ _ _ _).trans hpage1
  have h4 : d3.NvmSame d4 := by
    simp only [d4]
    split
    · exact ⟨rfl, rfl, rfl⟩
    · exact Dev.NvmSame.nErr d3 _ _ _
  have hend := Dev.Reports.nEnded d4 o.port pass
  have hall : d2.NvmSame (d4.nEnded o.port pass) := hflag.trans (h4.trans (Dev.NvmSame.of_reports hend))
  refine ⟨hall.run.trans hrun1, ?_, fun hpass herr => ?_⟩
  · rw [hall.sector]
    exact Dev.sector_setSector_self d1 _ _
  · have hd4 : d4 = d3.nErr 0x0105 o.at_ n := if_neg (by simp [hpass])
    obtain ⟨hset, hcode, -, -⟩ := Dev.page_nErr_first d3 0x0105 o.at_ n (by rw [hpage3]; exact herr)
    rw [← hd4] at hset hcode
    obtain ⟨hset', hcode', -, -⟩ := (hend.page 0xEFF).1 hset
    exact ⟨hset', hcode'.trans hcode⟩

end

/-- Storing one run above the boot loader's sectors. -/
theorem storeArray_singleton (m : Memory) {k : Nat} (hk : 0x100000 ≤ k) (bs : List Byte) : storeArray m [(k, bs)] = Memory.writeList arrayDflt m k bs :=
  if_neg (Nat.not_lt.mpr hk)

/-- What the end of an erase stores: the sector's bytes, on success of the erase that runs. -/
def eraseStores (pass : Bool) (bs : List Byte) (d : Dev) : List (Nat × List Byte) :=
  match d.nRun with
  | some o => if o.erase && pass && !d.nvmStop then [(o.at_ * 65536, bs)] else []
  | none => []

theorem eraseStores_of {d : Dev} {o : NOp} {pass : Bool} (hrun : d.nRun = some o) (hgo : d.nvmStop = false) (herase : o.erase = true)
    (bs : List Byte) : eraseStores pass bs d = if pass then [(o.at_ * 65536, bs)] else [] := by
  simp only [eraseStores, hrun, hgo, herase, Bool.true_and, Bool.not_false, Bool.and_true]

section
variable (s : State) (hsup : s.supplied) (hao : s.dev.aoUp = true)
include hsup hao

theorem exec_nvmProgramDone {o : NOp} (hrun : s.dev.nRun = some o) (hgo : s.dev.nvmStop = false) (hprog : o.erase = false) (pass : Bool) (pulses : Nat) :
    exec (.nvmProgramDone pass pulses) s = .next { s with
      dev := (s.dev.programEnds o pass pulses).apServe (storeArray s.array []), array := storeArray s.array [] } := by
  rw [← doNvmProgramDone_ends hrun hprog hgo]
  exact actFlash_next s (doNvmProgramDone pass pulses) (fun _ => []) hsup hao

theorem exec_programDone_passed {o : NOp} (hrun : s.dev.nRun = some o) (hgo : s.dev.nvmStop = false) (hprog : o.erase = false)
    (herr : (s.dev.page 0xEFF).err = false) (pulses : Nat) : ∃ t, exec (.nvmProgramDone true pulses) s = .next t ∧ t.dev.nRun = none ∧
      (s.dev.apWait = [] → (t.dev.page 0xEFF).err = false) := by
  obtain ⟨hnone, hpass, -⟩ := Dev.programEnds_spec o true pulses herr
  refine ⟨_, exec_nvmProgramDone s hsup hao hrun hgo hprog true pulses, (Dev.Reads.apServe _ _).nvm.1.run.trans hnone, fun hwait => ?_⟩
  dsimp only
  rw [Dev.page_apServe_none _ ((Dev.apWait_programEnds s.dev o true pulses).trans hwait)]
  exact hpass rfl

theorem exec_programDone_failed {o : NOp} (hrun : s.dev.nRun = some o) (hgo : s.dev.nvmStop = false) (hprog : o.erase = false)
    (herr : (s.dev.page 0xEFF).err = false) (pulses : Nat) : ∃ t, exec (.nvmProgramDone false pulses) s = .next t ∧ t.dev.nRun = none ∧
      (t.dev.page 0xEFF).errCode = 0x0104 ∧ (t.dev.page 0xEFF).info0 = w32 o.at_ := by
  obtain ⟨hnone, -, hfail⟩ := Dev.programEnds_spec o false pulses herr
  obtain ⟨hset, hcode, h0⟩ := hfail rfl
  have hreads := Dev.Reads.apServe (s.dev.programEnds o false pulses) (storeArray s.array [])
  obtain ⟨-, hcode', h0', -⟩ := (hreads.page 0xEFF).1 hset
  exact ⟨_, exec_nvmProgramDone s hsup hao hrun hgo hprog false pulses, hreads.nvm.1.run.trans hnone, hcode'.trans hcode, h0'.trans h0⟩

theorem exec_nvmEraseDone {o : NOp} (hrun : s.dev.nRun = some o) (hgo : s.dev.nvmStop = false) (herase : o.erase = true) (pass : Bool) (pulses : Nat) :
    ∃ t, exec (.nvmEraseDone pass pulses) s = .next t ∧ (s.dev.eraseEnds o pass pulses).Reads t.dev ∧
      t.array = storeArray s.array (if pass then [(o.at_ * 65536, List.replicate 65536 erasedByte)] else []) := by
  refine ⟨_, actFlash_next s (doNvmEraseDone pass pulses) (eraseStores pass (List.replicate 65536 erasedByte)) hsup hao, ?_, ?_⟩
  · rw [← doNvmEraseDone_ends hrun herase hgo]
    exact Dev.Reads.apServe _ _
  · exact congrArg _ (eraseStores_of hrun hgo herase _)

theorem exec_eraseDone_passed {o : NOp} (hrun : s.dev.nRun = some o) (hgo : s.dev.nvmStop = false) (herase : o.erase = true) (pulses : Nat)
    (habove : 16 ≤ o.at_) : ∃ t, exec (.nvmEraseDone true pulses) s = .next t ∧ t.dev.nRun = none ∧
      (∀ a, a / 65536 = o.at_ → Memory.read arrayDflt t.array a = 0xFF) ∧
      (∀ a, a / 65536 ≠ o.at_ → Memory.read arrayDflt t.array a = Memory.read arrayDflt s.array a) ∧
      t.dev.sector o.at_ = { next := 0, dirty := false, erases := (s.dev.sector o.at_).erases + 1 } := by
  obtain ⟨t, hexec, hreads, harray⟩ := exec_nvmEraseDone s hsup hao hrun hgo herase true pulses
  obtain ⟨hnone, hsector, -⟩ := Dev.eraseEnds_spec (d := s.dev) o true pulses
  have hstore : t.array = Memory.writeList arrayDflt s.array (o.at_ * 65536) (List.replicate 65536 erasedByte) := by
    rw [harray, if_pos rfl]
    exact storeArray_singleton _ (by omega) _
  refine ⟨t, hexec, hreads.nvm.1.run.trans hnone, fun a ha => ?_, fun a ha => ?_, (hreads.nvm.1.sector _).trans hsector⟩
  · have hi : a % 65536 < (List.replicate 65536 erasedByte).length := by
      rw [List.length_replicate]
      exact Nat.mod_lt _ (by decide)
    have haddr : a = o.at_ * 65536 + a % 65536 := by omega
    rw [hstore, haddr, Memory.read_writeList_inside arrayDflt _ s.array (o.at_ * 65536) _ hi]
    exact List.getElem_replicate hi
  · rw [hstore]
    refine Memory.read_writeList_outside _ _ _ _ _ ?_
    rw [List.length_replicate]
    omega

theorem exec_eraseDone_failed {o : NOp} (hrun : s.dev.nRun = some o) (hgo : s.dev.nvmStop = false) (herase : o.erase = true) (pulses : Nat)
    (herr : (s.dev.page 0xEFF).err = false) : ∃ t, exec (.nvmEraseDone false pulses) s = .next t ∧ t.dev.nRun = none ∧ t.array = s.array ∧
      (t.dev.sector o.at_).dirty = true ∧ (t.dev.page 0xEFF).errCode = 0x0105 := by
  obtain ⟨t, hexec, hreads, harray⟩ := exec_nvmEraseDone s hsup hao hrun hgo herase false pulses
  obtain ⟨hnone, hsector, hfail⟩ := Dev.eraseEnds_spec (d := s.dev) o false pulses
  obtain ⟨hset, hcode⟩ := hfail rfl herr
  obtain ⟨-, hcode', -, -⟩ := (hreads.page 0xEFF).1 hset
  refine ⟨t, hexec, hreads.nvm.1.run.trans hnone, harray, ?_, hcode'.trans hcode⟩
  rw [hreads.nvm.1.sector, hsector]
  rfl

/-! ### Sequences in time, and automatic suspension -/

theorem exec_seqTimeout {p : Nat} (hp : p < 2) (hphase : (s.dev.nPort p).phase ≠ 0) (hlate : (s.dev.nPort p).tick + 100000 < s.dev.tick)
    (herr : (s.dev.page 0xEFF).err = false) : ∃ t, exec (.nvmSeqTimeout p) s = .next t ∧ (t.dev.nPort p).phase = 0 ∧
      (t.dev.page 0xEFF).errCode = 0x0100 := by
  have hbody : doNvmSeqTimeout p s.dev = s.dev.nAbort p (s.dev.nPort p).off (s.dev.nPort p).value := by
    rw [doNvmSeqTimeout, Nat.mod_eq_of_lt hp]
    exact if_pos ⟨hphase, hlate⟩
  refine ⟨_, actAo_next s (doNvmSeqTimeout p) hsup hao, ?_⟩
  dsimp only
  rw [hbody]
  exact ⟨Dev.phase_nAbort _ _ _ _, (Dev.page_nAbort _ _ _ _ herr).2.1⟩

theorem exec_autoResume {o : NOp} (hrun : s.dev.nRun = none) (hsus : s.dev.nSus = some o) (hgo : s.dev.nvmStop = false) (herase : o.erase = true)
    (htime : o.tick + 100000000 ≤ s.dev.tick) : ∃ t, exec .nvmAutoResume s = .next t ∧ t.dev.nSus = none ∧
      t.dev.nRun = some { o with auto := true, tick := s.dev.tick } := by
  have hbody : doNvmAutoResume s.dev = { s.dev with nSus := none, nRun := some { o with auto := true, tick := s.dev.tick } }.nvmSts := by
    simp only [doNvmAutoResume, hrun, hsus]
    exact if_pos ⟨herase, by rw [hgo]; rfl, htime⟩
  refine ⟨_, actAo_next s doNvmAutoResume hsup hao, ?_⟩
  dsimp only
  rw [hbody]
  exact ⟨rfl, rfl⟩

theorem exec_fetchResume {o : NOp} (hrun : s.dev.nRun = none) (hsus : s.dev.nSus = some o) (hgo : s.dev.nvmStop = false) (hauto : o.auto = true)
    (htime : o.tick + 50000 ≤ s.dev.tick) : ∃ t, exec .nvmFetchResume s = .next t ∧ t.dev.nSus = none ∧
      t.dev.nRun = some { o with tick := s.dev.tick } := by
  have hbody : doNvmFetchResume s.dev = { s.dev with nSus := none, nRun := some { o with tick := s.dev.tick } }.nvmSts := by
    simp only [doNvmFetchResume, hrun, hsus]
    exact if_pos ⟨hauto, by rw [hgo]; rfl, htime⟩
  refine ⟨_, actAo_next s doNvmFetchResume hsup hao, ?_⟩
  dsimp only
  rw [hbody]
  exact ⟨rfl, rfl⟩

theorem exec_fetchSuspend {o : NOp} (hrun : s.dev.nRun = some o) (hsus : s.dev.nSus = none) (herase : o.erase = true) (hport : o.port = 0)
    (hdue : o.auto = false ∨ o.tick + 1000000 ≤ s.dev.tick) : ∃ t, exec .nvmFetchSuspend s = .next t ∧ t.dev.nRun = none ∧
      t.dev.nSus = some { o with auto := true, tick := s.dev.tick } := by
  have hbody : doNvmFetchSuspend s.dev = { s.dev with nRun := none, nSus := some { o with auto := true, tick := s.dev.tick } }.nvmSts := by
    simp only [doNvmFetchSuspend, hrun, hsus]
    exact if_pos ⟨herase, hport, by simpa using hdue⟩
  refine ⟨_, actFlash_next s doNvmFetchSuspend (fun _ => []) hsup hao, ?_⟩
  have hreads := Dev.Reads.apServe (doNvmFetchSuspend s.dev) (storeArray s.array [])
  exact ⟨hreads.nvm.1.run.trans (by rw [hbody]; rfl), hreads.nvm.1.sus.trans (by rw [hbody]; rfl)⟩

end

/-! ### Reads through the aperture -/

/-- What the counters of a read change. -/
def countRegs : List Nat := reportRegs ++ [Reg.NVM_CORR_CNT, Reg.NVM_THR_CNT, Reg.NVM_UNC_CNT]

theorem Dev.countFrame_of_reports {d t : Dev} (h : d.Reports t) : Dev.Frame Dev.sansReports countRegs d t :=
  Dev.Frame.weaken h (fun _ => rfl) (fun _ ho => List.mem_append_left _ ho)

/-- The fields of NVM_RD_STS that a read of a page with `c` wrong bits shows. -/
theorem readStatus_fields (c page : Nat) (thr unc : Bool) (hpage : page < 2 ^ 24) :
    let v := w32 ((if unc then 0 else min c 8) + 16 * thr.toNat + 32 * unc.toNat + 2 ^ 8 * page)
    bits v 31 8 = page ∧ bitAt v 5 = unc := by
  intro v
  have hlow : (if unc then 0 else min c 8) ≤ 8 := by
    split
    · exact Nat.zero_le _
    · exact Nat.min_le_right _ _
  have hthr := Bool.toNat_le thr
  refine ⟨?_, ?_⟩
  · rw [bits_w32 _ _ _ (by decide)]
    have hunc := Bool.toNat_le unc
    omega
  · have hbit : bits v 5 5 = unc.toNat := by
      rw [bits_w32 _ _ _ (by decide)]
      cases unc
      · simp only [Bool.toNat_false] at hlow ⊢
        omega
      · simp only [Bool.toNat_true] at hlow ⊢
        omega
    have htest : (bits v 5 5).testBit 0 = bitAt v 5 := testBit_bits v 5 5 0
    rw [← htest, hbit]
    cases unc <;> rfl

/-- A read of the array with nothing suspended: its data, NVM_RD_STS, and the error of an uncorrectable page. -/
theorem Dev.arrayRead_spec {d : Dev} (hsus : d.nSus = none) (m : Memory) (a c : Nat) (ha : a / 256 < 2 ^ 24) :
    (c ≤ 8 → d.tells (d.arrayRead m (a, c)) (.nvmData (Memory.readList arrayDflt m a 4))) ∧
    (d.arrayRead m (a, c)).fld Reg.NVM_RD_STS 31 8 = a / 256 ∧ (d.arrayRead m (a, c)).flag Reg.NVM_RD_STS 5 = decide (8 < c) ∧
    (8 < c → (d.page 0xEFF).err = false → ((d.arrayRead m (a, c)).page 0xEFF).errCode = 0x0103) := by
  unfold Dev.arrayRead
  extract_lets page
  split
  · next o ho =>
      rw [hsus] at ho
      exact absurd ho (by simp)
  rename_i unc thr d1 d2 d3 d4 _ _
  have h3 : Dev.Frame Dev.sansReports countRegs d2 d3 := Dev.Frame.ite (.setFld (by decide) _ _ _) (.refl _)
  have h4 : Dev.Frame Dev.sansReports countRegs d3 d4 := by
    refine Dev.Frame.ite ?_ (.refl _)
    exact Dev.Frame.trans (e := d3.inc Reg.NVM_THR_CNT 1) (.setFld (by decide) _ _ _) (Dev.countFrame_of_reports (Dev.Reports.raise _ _ _))
  have h5 : Dev.Frame Dev.sansReports countRegs d4 (if unc then (d4.inc Reg.NVM_UNC_CNT 1).nErr 0x0103 page 0 else d4) := by
    refine Dev.Frame.ite ?_ (.refl _)
    exact Dev.Frame.trans (e := d4.inc Reg.NVM_UNC_CNT 1) (.setFld (by decide) _ _ _) (Dev.countFrame_of_reports (Dev.Reports.recordErr _ _ _ _ _))
  have hall := h3.trans (h4.trans h5)
  have hreg := hall.regs Reg.NVM_RD_STS (by decide)
  have hsts : d2.reg Reg.NVM_RD_STS = w32 ((if unc then 0 else min c 8) + 16 * thr.toNat + 32 * unc.toNat + 2 ^ 8 * page) := by
    refine (Dev.reg_setReg_self _ _ _).trans (congrArg (fun n => w32 (n + _ + _ + _)) ?_)
    split
    · rfl
    · next h => exact (Nat.min_eq_left (Nat.not_lt.mp (by simpa [unc] using h))).symm
  obtain ⟨hpage, hunc⟩ := readStatus_fields c page thr unc ha
  refine ⟨fun hc => hall.tells (e := d2) ?_ ?_, ?_, ?_, fun hc herr => ?_⟩
  · have h1 : Dev.Frame Dev.sansReads readRegs d d1 := Dev.Frame.ite (Dev.Frame.trans (e := d.drawn) (.hidden rfl rfl rfl) (.emit _)) (.emit _)
    exact h1.out
  · have hd1 : d1 = d.emit (.nvmData (Memory.readList arrayDflt m a 4)) := if_neg (by simpa [unc] using hc)
    refine Dev.tells_of_out [] [] ?_
    exact congrArg (·.out) hd1
  · rw [Dev.fld, hreg, hsts]
    exact hpage
  · rw [Dev.flag, hreg, hsts]
    exact hunc
  · have hu : unc = true := decide_eq_true hc
    have h4err : (d4.page 0xEFF).err = (d.page 0xEFF).err := by
      have h1 : d1.page 0xEFF = d.page 0xEFF := by
        simp only [d1]
        split <;> rfl
      have h3 : d3.page 0xEFF = d.page 0xEFF := by
        simp only [d3]
        split
        · exact h1
        · exact h1
      rw [← h3]
      simp only [d4]
      split
      · exact Dev.err_raise _ _ _ _
      · rfl
    rw [if_pos hu]
    exact (Dev.page_nErr_first (d4.inc Reg.NVM_UNC_CNT 1) 0x0103 page 0 (h4err.trans herr)).2.1

section
variable (s : State) (hsup : s.supplied) (hao : s.dev.aoUp = true)
include hsup hao

theorem exec_apertureRead (off corr : Nat) :
    exec (.apertureRead off corr) s = .next { s with dev := doApertureRead off corr s.array s.dev } :=
  actArray_next s (doApertureRead off corr) (fun _ _ => []) hsup hao

end

section
variable {d : Dev} (hbar : d.barUp = true) (hheld : d.nvmHeld = false) (hone : d.nHost.statOne = false)
include hbar hheld hone

theorem doApertureRead_id (m : Memory) {off : Nat} (corr : Nat) (hoff : off % 4 = 0) (hlt : off < 0x80000) (hid : d.nHost.idMode = true) :
    doApertureRead off corr m d = d.emit (.nvmData ((toBytes (d.idWord off) 4).map (fun b => BitVec.ofNat 8 b))) := by
  have hword : off % 0x80000 / 4 * 4 = off := by omega
  simp only [doApertureRead, hword, hbar, hheld, hone, hid, Bool.not_true, Bool.or_self, Bool.false_eq_true, if_false, if_true]

theorem doApertureRead_stalls (m : Memory) (off corr : Nat) (hid : d.nHost.idMode = false) {o : NOp} (hrun : d.nRun = some o) :
    doApertureRead off corr m d = { d with apWait := d.apWait ++ [(d.nAddr 0 (off % 0x80000 / 4 * 4), corr)] } := by
  simp only [doApertureRead, hbar, hheld, hone, hid, hrun, Option.isSome_some, Bool.not_true, Bool.or_self, Bool.false_eq_true, if_false, if_true]

theorem doApertureRead_reads (m : Memory) {off : Nat} (corr : Nat) (hoff : off % 4 = 0) (hlt : off < 0x80000) (hid : d.nHost.idMode = false)
    (hrun : d.nRun = none) : doApertureRead off corr m d = d.arrayRead m (d.fld Reg.NVM_WIN 5 0 * 0x80000 + off, corr) := by
  have hword : off % 0x80000 / 4 * 4 = off := by omega
  have haddr : d.nAddr 0 off = d.fld Reg.NVM_WIN 5 0 * 0x80000 + off := by rw [Dev.nAddr, if_pos rfl, Nat.mod_eq_of_lt hlt]
  simp only [doApertureRead, hword, haddr, hbar, hheld, hone, hid, hrun, Option.isSome_none, Bool.not_true, Bool.or_self, Bool.false_eq_true,
    if_false]

end

/-! ### Boot control -/

theorem regDef_bootCtl : regDef? Reg.NVM_BOOT_CTL =
    some ⟨"NVM_BOOT_CTL", 0xEFF144, 1, 0x4, 0x0, 0x0, 0x0, 0x0, 0xFFFF0003, 0xFFFC, true, true, false⟩ := rfl

/-- A value whose bits 15 to 2 are zero sets no RSVD bit of NVM_BOOT_CTL. -/
theorem bootCtl_rsvd {v : Word} (h : bits v 15 2 = 0) : v &&& w32 0xFFFC = 0 := by
  have hbits : ∀ i, 2 ≤ i → i < 16 → bitAt v i = false := by
    intro i h2 h16
    have htest := testBit_bits v 15 2 (i - 2)
    rw [h, Nat.zero_testBit, Nat.add_sub_cancel' h2, decide_eq_true (by omega), Bool.true_and] at htest
    exact htest.symm
  have hmask : ∀ i < 32, (w32 0xFFFC).getLsbD i = (decide (2 ≤ i) && decide (i < 16)) := by decide
  refine BitVec.eq_of_getLsbD_eq (fun i hi => ?_)
  rw [BitVec.getLsbD_and, hmask i hi, show BitVec.getLsbD (0 : Word) i = false from BitVec.getLsbD_zero]
  by_cases hin : 2 ≤ i ∧ i < 16
  · rw [show v.getLsbD i = false from hbits i hin.1 hin.2, Bool.false_and]
  · rw [← Bool.decide_and, decide_eq_false hin, Bool.and_false]

/-- A write of NVM_BOOT_CTL with its key: TRY acts, then CONFIRM. -/
theorem exec_bootCtl (s : State) (hsup : s.supplied) (hao : s.dev.aoUp = true) {v : Word} {i : Instr} (hi : i ∈ [Instr.tryBoot v, .confirm v])
    (ho : s.dev.isOpen 0xEFF) (hkey : bits v 31 16 = 0x4E56) (hrsv : bits v 15 2 = 0) :
    ∃ t d1, exec i s = .next t ∧ s.dev.Arrives d1 ∧ (confirmBody v (tryBody v d1)).Publishes t.dev := by
  have hexec : exec i s = .next { s with dev := doTryBoot v s.dev } := by
    simp only [List.mem_cons, List.not_mem_nil, or_false] at hi
    rcases hi with rfl | rfl
    · exact actAo_next s (doTryBoot v) hsup hao
    · exact actAo_next s (doConfirm v) hsup hao
  obtain ⟨d1, harr, hpub⟩ := regWrite_clean s.dev Reg.NVM_BOOT_CTL v
    (fun _ d => if bits v 31 16 = 0x4E56 then confirmBody v (tryBody v d) else d) _ ho regDef_bootCtl (bootCtl_rsvd hrsv)
  rw [if_pos hkey] at hpub
  exact ⟨_, d1, hexec, harr, hpub⟩

section
variable {d : Dev} {v : Word}

theorem Dev.reg_nvmSts (d : Dev) {off : Nat} (h : off ∉ [Reg.NVM_STS, Reg.NVM_HOST_STAT, Reg.NVM_SEC_STS]) : d.nvmSts.reg off = d.reg off := by
  simp only [List.mem_cons, List.not_mem_nil, or_false, not_or] at h
  obtain ⟨hsts, hhost, hsec⟩ := h
  unfold Dev.nvmSts
  rw [Dev.reg_setReg_ne _ hsec, Dev.reg_setReg_ne _ hhost, Dev.reg_setReg_ne _ hsts]

theorem Dev.slotDirty_arrives {d1 : Dev} (h : d.Arrives d1) : d1.slotDirty = d.slotDirty ∧ d1.nBusy 0 = d.nBusy 0 := by
  obtain ⟨_, _, rfl, _⟩ := h
  exact ⟨rfl, rfl⟩

theorem Dev.nvm_arrives {d1 : Dev} (h : d.Arrives d1) : d1.nvm = d.nvm := by
  obtain ⟨_, _, rfl, _⟩ := h
  rfl

theorem confirmBody_off (h : bitAt v 1 = false) : confirmBody v d = d := by
  rw [confirmBody, h]
  rfl

theorem tryBody_off (h : bitAt v 0 = false) : tryBody v d = d := by
  rw [tryBody, h]
  rfl

theorem tryBody_goes (h : bitAt v 0 = true) (hdirty : d.slotDirty = false) (hbusy : d.nBusy 0 = false) :
    tryBody v d = d.setFlag Reg.NVM_BOOT_STS 3 true := by
  rw [tryBody, h, hdirty, hbusy]
  rfl

theorem tryBody_refused (h : bitAt v 0 = true) (hno : d.slotDirty = true ∨ d.nBusy 0 = true) : tryBody v d = d.nErr 0x0108 0x144 v.toNat := by
  rw [tryBody, h]
  exact if_pos (Bool.or_eq_true_iff.mpr hno)

/-- CONFIRM has taken the slot that ran on trial. -/
def Dev.confirmed (d : Dev) : Dev := (d.setFlag Reg.NVM_BOOT_STS 0 (d.flag Reg.NVM_BOOT_STS 1)).setFlag Reg.NVM_BOOT_STS 2 false

theorem confirmBody_spec (h : bitAt v 1 = true) (htrial : d.flag Reg.NVM_BOOT_STS 2 = true) :
    (confirmBody v d).activeSlot = (d.flag Reg.NVM_BOOT_STS 1).toNat ∧ (confirmBody v d).flag Reg.NVM_BOOT_STS 2 = false ∧
    (d.nvm.svn < 2 ^ 32 → (confirmBody v d).fld Reg.NVM_SVN_MIN 31 0 = max d.nvm.svn (d.fld Reg.NVM_SVN_MIN 31 0)) := by
  have hbody : confirmBody v d = (((d.confirmed).setReg
      Reg.NVM_SVN_MIN (w32 (max d.confirmed.nvm.svn (d.confirmed.fld Reg.NVM_SVN_MIN 31 0))))).nvmSts := by
    rw [confirmBody, h, htrial]
    rfl
  have hslot : d.confirmed.fld Reg.NVM_BOOT_STS 0 0 = (d.flag Reg.NVM_BOOT_STS 1).toNat := by
    rw [Dev.confirmed, Dev.fld_setFlag_other _ _ _ _ _ _ (by decide) (by decide)]
    refine (Dev.fld_setFld_self d Reg.NVM_BOOT_STS 0 0 (d.flag Reg.NVM_BOOT_STS 1).toNat (by decide)).trans ?_
    cases d.flag Reg.NVM_BOOT_STS 1 <;> rfl
  have hmin : d.confirmed.fld Reg.NVM_SVN_MIN 31 0 = d.fld Reg.NVM_SVN_MIN 31 0 := by
    rw [Dev.confirmed, Dev.fld_setFlag_ne _ (by decide), Dev.fld_setFlag_ne _ (by decide)]
  rw [hbody, hmin]
  refine ⟨?_, ?_, fun hsvn => ?_⟩
  · rw [Dev.activeSlot, Dev.fld, Dev.reg_nvmSts _ (by decide), ← Dev.fld, Dev.fld_setReg_ne _ (by decide)]
    exact hslot
  · rw [Dev.flag, Dev.reg_nvmSts _ (by decide), ← Dev.flag, Dev.flag_setReg_ne _ (by decide)]
    exact Dev.flag_setFlag_self _ _ 2 _ (by decide)
  · rw [Dev.fld, Dev.reg_nvmSts _ (by decide), Dev.reg_setReg_self, bits_w32 _ _ _ (by decide), Nat.pow_zero, Nat.div_one]
    exact Nat.mod_eq_of_lt (max_lt hsvn (Nat.mod_lt _ (by decide)))

end

/-- Settles O48. -/
theorem flashEnds : Obligations.FlashEnds := by
  intro s hsup hao
  refine ⟨fun p hp hphase hlate herr => exec_seqTimeout s hsup hao hp hphase hlate herr, fun o pulses hrun hgo hprog herr => ?_,
    fun o pulses hrun hgo herase => ?_, fun o hrun hsus hgo => ?_,
    fun o hrun hsus herase hport hdue => exec_fetchSuspend s hsup hao hrun hsus herase hport hdue,
    fun hbar hheld hone off corr hoff hlt => ?_, fun v i hi ho hkey hrsv => ?_⟩
  · exact ⟨exec_programDone_passed s hsup hao hrun hgo hprog herr pulses, exec_programDone_failed s hsup hao hrun hgo hprog herr pulses⟩
  · exact ⟨exec_eraseDone_passed s hsup hao hrun hgo herase pulses, exec_eraseDone_failed s hsup hao hrun hgo herase pulses⟩
  · exact ⟨exec_autoResume s hsup hao hrun hsus hgo, exec_fetchResume s hsup hao hrun hsus hgo⟩
  · intro a
    have hexec := exec_apertureRead s hsup hao off corr
    refine ⟨fun hid => ?_, fun o hid hrun => ?_, fun hid hrun hsus => ?_⟩
    · rw [hexec, doApertureRead_id hbar hheld hone s.array corr hoff hlt hid]
    · rw [doApertureRead_stalls hbar hheld hone s.array off corr hid hrun] at hexec
      exact ⟨_, hexec, rfl, List.length_append⟩
    · rw [doApertureRead_reads hbar hheld hone s.array corr hoff hlt hid hrun] at hexec
      have ha : a / 256 < 2 ^ 24 := by
        have hwin : s.dev.fld Reg.NVM_WIN 5 0 < 2 ^ 6 := Nat.mod_lt _ (by decide)
        simp only [a]
        omega
      obtain ⟨htells, hpage, hflag, hcode⟩ := Dev.arrayRead_spec hsus s.array a corr ha
      exact ⟨_, hexec, htells, rfl, hpage, hflag, hcode⟩
  · obtain ⟨t, d1, hexec, harr, hpub⟩ := exec_bootCtl s hsup hao hi ho hkey hrsv
    obtain ⟨hdirty, hbusy⟩ := Dev.slotDirty_arrives harr
    refine ⟨fun htry hconf hclean hfree => ?_, fun htry hconf hno herr => ?_, fun htry hconf htrial => ?_⟩
    · rw [confirmBody_off hconf, tryBody_goes htry (hdirty.trans hclean) (hbusy.trans hfree)] at hpub
      refine ⟨t, hexec, ?_, ?_⟩
      · rw [hpub.flag]
        exact Dev.flag_setFlag_self _ _ _ _ (by decide)
      · rw [Dev.activeSlot, hpub.fld, Dev.fld_setFlag_other _ _ _ _ _ _ (by decide) (by decide), harr.fld]
        rfl
    · rw [confirmBody_off hconf, tryBody_refused htry (by rw [hdirty, hbusy]; exact hno)] at hpub
      have herr1 : (d1.page 0xEFF).err = false := (Page.err_of_body (harr.body _)).1.trans herr
      refine ⟨t, hexec, ?_, ?_⟩
      · exact (Page.err_of_body (hpub.body _)).2.1.trans (Dev.page_nErr_first d1 0x0108 0x144 v.toNat herr1).2.1
      · rw [hpub.flag, ← harr.flag]
        exact congrArg (fun w => bitAt w 3) ((Dev.Reports.recordErr d1 0xEFF 0x0108 0x144 v.toNat).regs Reg.NVM_BOOT_STS (by decide))
    · rw [tryBody_off htry] at hpub
      obtain ⟨hslot, hoff, hsvn⟩ := confirmBody_spec (d := d1) hconf ((harr.flag _ _).trans htrial)
      refine ⟨t, hexec, ?_, ?_, ?_⟩
      · rw [Dev.activeSlot, hpub.fld, ← harr.flag]
        exact hslot
      · rw [hpub.flag]
        exact hoff
      · rw [hpub.fld, ← harr.fld, ← Dev.nvm_arrives harr]
        exact hsvn

end Sys2Proof.Machine
end

section
/-! The exact frame of the statements, rule by rule: what a register write, an error and an event leave (R51, R45). -/

namespace Sys2Proof.Machine

-- In order, one declaration at a time: keeps the check within its memory limit.
set_option Elab.async false

/-- The device without what `Dev.frame` lets an event change. -/
def Dev.sansEvents (d : Dev) : Dev :=
  { d with regs := [], pages := [], out := [], pba := [], cap := Cap.reset, draws := 0, banks := [], incidents := [] }

section
variable {d e t : Dev} {own pgs : List Nat}

/-- `x` with what an event changes as `t` has it. -/
def Dev.withEvents (x t : Dev) : Dev :=
  { x with regs := t.regs, pages := t.pages, out := t.out, pba := t.pba, cap := t.cap, draws := t.draws, banks := t.banks,
           incidents := t.incidents }

theorem Dev.frame_of (hreg : ∀ o, o ∉ own → o ∉ eventRegs → t.reg o = d.reg o) (hpage : ∀ pg, pg ∉ pgs → pg ∉ eventPages → t.page pg = d.page pg)
    (h : t.sansEvents = d.sansEvents) : d.frame t own pgs :=
  ⟨hreg, hpage, (congrArg (fun x : Dev => x.withEvents t) h : t.sansEvents.withEvents t = d.sansEvents.withEvents t)⟩

theorem Dev.frame.sans (h : d.frame t own pgs) : t.sansEvents = d.sansEvents := by
  rw [h.2.2]
  rfl

theorem Dev.frame.refl (d : Dev) (own pgs : List Nat) : d.frame d own pgs := ⟨fun _ _ _ => rfl, fun _ _ _ => rfl, rfl⟩

theorem Dev.frame.trans (h : d.frame e own pgs) (h' : e.frame t own pgs) : d.frame t own pgs :=
  Dev.frame_of (fun o ho he => (h'.1 o ho he).trans (h.1 o ho he)) (fun pg hp he => (h'.2.1 pg hp he).trans (h.2.1 pg hp he)) (h'.sans.trans h.sans)

theorem Dev.frame.ite {c : Prop} [Decidable c] (h : d.frame e own pgs) (h' : d.frame t own pgs) : d.frame (if c then e else t) own pgs := by
  split
  · exact h
  · exact h'

theorem Dev.frame.setReg {off : Nat} (hoff : off ∈ own) (d : Dev) (pgs : List Nat) (v : Word) : d.frame (d.setReg off v) own pgs :=
  ⟨fun _ ho _ => Dev.reg_setReg_ne d (ne_of_mem_of_not_mem hoff ho).symm v, fun _ _ _ => rfl, rfl⟩

theorem Dev.frame.recordErr {pg : Nat} (hpg : pg ∈ pgs) (d : Dev) (own : List Nat) (code i0 i1 : Nat) : d.frame (d.recordErr pg code i0 i1) own pgs :=
  Dev.frame_of (fun _ _ _ => Dev.reg_recordErr _ _ _ _ _ _)
    (fun _ hp _ => Dev.page_recordErr_ne d (ne_of_mem_of_not_mem hpg hp).symm code i0 i1) (by rw [Dev.recordErr_eq]; rfl)

theorem Dev.page_raise_ne (d : Dev) {a b : Nat} (h : b ≠ a) (bit : Nat) (hb : b ≠ 0xD00) : (d.raise a bit).page b = d.page b := by
  simp only [Dev.raise, Dev.toRun]
  split
  · simp only [Dev.setMode, Dev.setBias]
    rw [Dev.page_raise0_ne _ hb, Dev.page_setReg, Dev.page_setFld, Dev.page_setFld, Dev.page_raise0_ne _ h]
  · exact Dev.page_raise0_ne _ h _

theorem Dev.frame.raise {pg : Nat} (hpg : pg ∈ pgs) (d : Dev) (own : List Nat) (bit : Nat) : d.frame (d.raise pg bit) own pgs := by
  refine Dev.frame_of (fun o _ he => ?_) (fun q hp he => ?_) (by rw [Dev.raise_eq]; rfl)
  · simp only [eventRegs, List.mem_cons, List.not_mem_nil, or_false, not_or] at he
    obtain ⟨-, -, hmode, hbias, hdev⟩ := he
    exact Dev.reg_raise d pg bit o hmode hdev hbias
  · simp only [eventPages, List.mem_cons, List.not_mem_nil, or_false, not_or] at he
    exact Dev.page_raise_ne d (ne_of_mem_of_not_mem hpg hp).symm bit he.1

end

/-! ### The cipher's keys and lanes (R170, R189, R190) -/

theorem Dev.ctx_of_reports {d t : Dev} (h : d.Reports t) (c : Nat) : t.ctx c = d.ctx c := by
  have hkeys : t.ctxs = d.ctxs := congrArg (·.ctxs) h.kept
  rw [Dev.ctx, hkeys, Dev.ctx]

section
variable (d : Dev) {c : Nat}

theorem Dev.ctx_endZeroise_self (c : Nat) : (d.endZeroise c).ctx c = { Ctx.reset with keygen := (d.ctx c).keygen } := SMap.get_set_self _ _ _ _

theorem Dev.ctx_keepCopy (x : CtxCopy) (k : Nat) : (d.keepCopy c x).ctx k = d.ctx k := by
  have hkeys : (d.keepCopy c x).ctxs = d.ctxs := congrArg (·.ctxs) (Dev.Posts.journal d _).kept
  rw [Dev.ctx, hkeys, Dev.ctx]

theorem Dev.ctx_endZeroise_ne {k : Nat} (h : k ≠ c) : (d.endZeroise c).ctx k = d.ctx k :=
  (SMap.get_set_ne _ _ _ _ _ h).trans (Dev.ctx_keepCopy d _ k)

/-- The end of a zeroise leaves the contexts as `endZeroise` does, and the end of the operation's last one drops OP_BUSY. -/
theorem doZeroiseDone_spec (hc : c < 4096) (hst : (d.ctx c).st = .zeroising) :
    (∀ k, (doZeroiseDone c d).ctx k = (d.endZeroise c).ctx k) ∧ (d.zeroing = [c] → (doZeroiseDone c d).flag Reg.CRY_OP_STS 0 = false) := by
  have hmod : c % 4096 = c := Nat.mod_eq_of_lt hc
  have hbody : doZeroiseDone c d = (if (d.zeroing.contains c && (d.zeroing.filter (fun k => k != c)).isEmpty) = true then
      (({ d.endZeroise c with zeroing := d.zeroing.filter (fun k => k != c) } : Dev).setFlag Reg.CRY_OP_STS 0 false).raise 0x400 0
      else { d.endZeroise c with zeroing := d.zeroing.filter (fun k => k != c) }) := by
    simp only [doZeroiseDone, hmod, hst]
    rfl
  rw [hbody]
  refine ⟨fun k => ?_, fun hzero => ?_⟩
  · split
    · exact (Dev.ctx_of_reports (Dev.Reports.raise _ _ _) k)
    · rfl
  · have hlast : (d.zeroing.contains c && (d.zeroing.filter (fun k => k != c)).isEmpty) = true := by
      rw [hzero]
      simp
    rw [if_pos hlast, Dev.flag, Dev.reg_raise _ _ _ _ (by decide) (by decide) (by decide)]
    exact Dev.flag_setFlag_self _ _ _ _ (by decide)

end

theorem regDef_kek7 : regDef? (Reg.CRY_KEK 7) =
    some ⟨"CRY_KEK", 0x400180, 8, 0x4, 0x0, 0x0, 0x0, 0x0, 0xFFFFFFFF, 0x0, false, false, false⟩ := rfl

/-- The KEK from the eight registers, which are then empty. -/
def Dev.kekTaken (d : Dev) : Dev :=
  let k := d.keyRegs (Reg.CRY_KEK 0)
  let d := (List.range 8).foldl (fun d i => d.setReg (Reg.CRY_KEK i) 0) d
  { (d.setFlag Reg.CRY_KEK_STS 0 true).setFld Reg.CRY_KEK_STS 31 16 (kcvOf k) with kek := some k }

/-- Registers written one by one read as written. -/
theorem Dev.reg_clear_kek (d : Dev) {i : Nat} (hi : i < 8) :
    ((List.range 8).foldl (fun d i => d.setReg (Reg.CRY_KEK i) 0) d).reg (Reg.CRY_KEK i) = 0 := by
  have hnext : ∀ n, ∀ i < n, ((List.range n).foldl (fun d i => d.setReg (Reg.CRY_KEK i) 0) d).reg (Reg.CRY_KEK i) = 0 := by
    intro n
    induction n with
    | zero => exact fun i hi => absurd hi (Nat.not_lt_zero i)
    | succ n ih =>
      intro i hi
      rw [List.range_succ, List.foldl_append, List.foldl_cons, List.foldl_nil, Dev.reg_setReg]
      split
      · rfl
      · next hne => exact ih i (Nat.lt_of_le_of_ne (Nat.le_of_lt_succ hi) (fun h => hne (by rw [h])))
  exact hnext 8 i hi

theorem Dev.kekTaken_spec (d : Dev) :
    d.kekTaken.flag Reg.CRY_KEK_STS 0 = true ∧ (∀ i < 8, d.kekTaken.reg (Reg.CRY_KEK i) = 0) ∧ d.kekTaken.kek = some (d.keyRegs (Reg.CRY_KEK 0)) := by
  refine ⟨?_, fun i hi => ?_, rfl⟩
  · refine (Dev.flag_setFld_other _ Reg.CRY_KEK_STS 31 16 _ 0 (by decide) (by decide)).trans ?_
    exact Dev.flag_setFlag_self _ _ _ _ (by decide)
  · have hne : Reg.CRY_KEK i ≠ Reg.CRY_KEK_STS := by
      simp only [Reg.CRY_KEK, Reg.CRY_KEK_STS]
      omega
    refine (Dev.reg_setFld_ne _ hne _ _ _).trans ((Dev.reg_setFlag_ne _ hne _ _).trans ?_)
    exact Dev.reg_clear_kek d hi

/-- The key in the registers once the last word is written. -/
theorem Dev.keyRegs_kekWrite (d : Dev) (v : Word) : (d.kekWrite 7 v).keyRegs (Reg.CRY_KEK 0) =
    (List.range 7).foldl (fun a k => a + 2 ^ (32 * k) * (d.reg (Reg.CRY_KEK k)).toNat) 0 + 2 ^ 224 * v.toNat := by
  have hlow : ∀ k < 7, (d.kekWrite 7 v).reg (Reg.CRY_KEK 0 + 4 * k) = d.reg (Reg.CRY_KEK k) := by
    intro k hk
    have hsts : Reg.CRY_KEK 0 + 4 * k ≠ Reg.CRY_KEK_STS := by
      simp only [Reg.CRY_KEK, Reg.CRY_KEK_STS]
      omega
    have hlast : Reg.CRY_KEK 0 + 4 * k ≠ Reg.CRY_KEK 7 := by
      simp only [Reg.CRY_KEK]
      omega
    refine (Dev.reg_setReg_ne _ hsts _).trans ((Dev.reg_setReg_ne _ hlast _).trans ?_)
    rw [show Reg.CRY_KEK 0 + 4 * k = Reg.CRY_KEK k by simp only [Reg.CRY_KEK]]
  have hlast : (d.kekWrite 7 v).reg (Reg.CRY_KEK 0 + 4 * 7) = v := by
    refine (Dev.reg_setReg_ne _ (by decide) _).trans (Dev.reg_setReg_self d (Reg.CRY_KEK 7) v)
  unfold Dev.keyRegs
  rw [List.range_succ, List.foldl_append, List.foldl_cons, List.foldl_nil, hlast]
  congr 1
  exact List.foldl_ext _ _ _ (fun a k hk => by rw [hlow k (List.mem_range.mp hk)])

section
variable (s : State) (hrun : s.running)
include hrun

theorem exec_zeroiseDone {c : Nat} (hc : c < 4096) (hst : (s.dev.ctx c).st = .zeroising) :
    ∃ t, exec (.zeroiseDone c) s = .next t ∧ t.dev.ctx c = { Ctx.reset with keygen := (s.dev.ctx c).keygen } ∧
      (s.dev.zeroing = [c] → t.dev.flag Reg.CRY_OP_STS 0 = false) ∧ ∀ k, k ≠ c → t.dev.ctx k = s.dev.ctx k := by
  obtain ⟨hctx, hbusy⟩ := doZeroiseDone_spec s.dev hc hst
  refine ⟨_, act_of_running s (doZeroiseDone c) hrun, (hctx c).trans ?_, hbusy, fun k hk => (hctx k).trans ?_⟩
  · exact Dev.ctx_endZeroise_self _ _
  · exact Dev.ctx_endZeroise_ne _ hk

theorem exec_kekSet (v : Word) (ho : s.dev.isOpen 0x400) :
    ∃ t, exec (.kekSet v) s = .next t ∧ t.dev.flag Reg.CRY_KEK_STS 0 = true ∧ (∀ i < 8, t.dev.reg (Reg.CRY_KEK i) = 0) ∧
      t.dev.kek = some ((List.range 7).foldl (fun a k => a + 2 ^ (32 * k) * (s.dev.reg (Reg.CRY_KEK k)).toNat) 0 + 2 ^ 224 * v.toNat) := by
  obtain ⟨d1, harr, hpub⟩ := regWrite_clean s.dev (Reg.CRY_KEK 7) v (fun _ d => (d.kekWrite 7 v).kekTaken) _ ho regDef_kek7
    (by simp [w32])
  obtain ⟨hsts, hregs, hkek⟩ := Dev.kekTaken_spec (d1.kekWrite 7 v)
  refine ⟨_, act_of_running s (doKekSet v) hrun, hpub.flag _ _ |>.trans hsts, fun i hi => (hpub.reg _).trans (hregs i hi), ?_⟩
  have hkeep : (doKekSet v s.dev).kek = ((d1.kekWrite 7 v).kekTaken).kek := by
    obtain ⟨_, _, _, h, -⟩ := hpub
    exact congrArg (·.kek) h
  refine hkeep.trans (hkek.trans (congrArg some ?_))
  rw [Dev.keyRegs_kekWrite]
  congr 1
  exact List.foldl_ext _ _ _ (fun a k _ => by rw [harr.reg])

theorem exec_laneFail {l : Nat} (known : Bool) (hl : l < 16) (hon : s.dev.flag Reg.CRY_LANE_STS l = true) (herr : (s.dev.page 0x400).err = false) :
    ∃ t, exec (.laneFail l known) s = .next t ∧ t.dev.flag Reg.CRY_LANE_STS l = false ∧ (t.dev.page 0x400).errCode = 0x0105 ∧
      (t.dev.page 0x400).info0 = w32 l ∧ bitAt (t.dev.page 0x400).intPend 3 = true ∧
      Dev.frame s.dev t.dev [Reg.CRY_LANE_STS] [0x400] := by
  have hbody : doLaneFail l known s.dev = ((((s.dev.setFlag Reg.CRY_LANE_STS l false).setFlag Reg.CRY_LANE_STS (16 + l) false).recordErr 0x400 0x0105 l
      known.toNat).raise 0x400 3) := by
    simp only [doLaneFail, Nat.mod_eq_of_lt hl, hon]
    rfl
  refine ⟨_, act_of_running s (doLaneFail l known) hrun, ?_⟩
  dsimp only
  rw [hbody, Dev.intPend_raise _ _ _ (by decide)]
  have hfirst := Dev.page_recordErr_first ((s.dev.setFlag Reg.CRY_LANE_STS l false).setFlag Reg.CRY_LANE_STS (16 + l) false) 0x400 0x0105 l
    known.toNat herr
  refine ⟨?_, congrArg (·.errCode) hfirst, congrArg (·.info0) hfirst, ?_, ?_⟩
  · rw [Dev.flag, Dev.reg_raise _ _ _ _ (by decide) (by decide) (by decide), Dev.reg_recordErr]
    refine (Dev.flag_setFlag_other _ Reg.CRY_LANE_STS (16 + l) l false (by omega) (by omega)).trans ?_
    exact Dev.flag_setFlag_self _ _ _ _ (by omega)
  · exact (bitAt_putBit _ _ _ _ (by decide)).trans (if_pos rfl)
  · have hreg := fun (d : Dev) v => Dev.frame.setReg (own := [Reg.CRY_LANE_STS]) (List.mem_singleton.mpr rfl) d [0x400] v
    have hpg : 0x400 ∈ [0x400] := List.mem_singleton.mpr rfl
    exact ((hreg _ _).trans (hreg _ _)).trans ((Dev.frame.recordErr hpg _ _ _ _ _).trans (Dev.frame.raise hpg _ _ _))

end

/-- Settles O23. -/
theorem cipherKeysAndLanes : Obligations.CipherKeysAndLanes := fun s hrun =>
  ⟨fun _ hc hst => exec_zeroiseDone s hrun hc hst, fun v ho => exec_kekSet s hrun v ho, fun _ known hl hon herr => exec_laneFail s hrun known hl hon herr⟩

end Sys2Proof.Machine
end

section
/-! Link-level replay of a flash lane (R254 to R259): the rules of a port, of its lane state, of the pump and of a replay. -/

namespace Sys2Proof.Machine

-- In order, one declaration at a time: keeps the check within its memory limit.
set_option Elab.async false

/-! ### Ports -/

section
variable (d : Dev) (p : Nat)

@[simp] theorem Dev.port_setPort_self (x : Port) : (d.setPort p x).port p = x := SMap.get_set_self _ _ _ _

theorem Dev.port_setPort_ne {q : Nat} (h : q ≠ p) (x : Port) : (d.setPort p x).port q = d.port q := SMap.get_set_ne _ _ _ _ _ h

theorem Dev.capRecFree_eq (kind src : Nat) (ws : List Nat) :
    d.capRecFree kind src ws = { d with cap := (d.capRecFree kind src ws).cap, draws := (d.capRecFree kind src ws).draws } := by
  unfold Dev.capRecFree
  split
  · rw [Dev.capAdd_eq]
    rfl
  · rfl

theorem Dev.port_of_reports {d t : Dev} (h : d.Reports t) (p : Nat) : t.port p = d.port p := by
  have hports : t.ports = d.ports := congrArg (·.ports) h.kept
  rw [Dev.port, hports, Dev.port]

/-- A saturating count of 32 bits. -/
theorem Dev.fld_inc_self (off n : Nat) : (d.inc off n).fld off 31 0 = min (d.fld off 31 0 + n) 0xFFFFFFFF := by
  refine (Dev.fld_setFld_self d off 31 0 _ (by decide)).trans ?_
  rw [satN]
  omega

/-! ### The lane state -/

/-- The registers that a change of a lane's state moves. -/
def laneRegs (p : Nat) : List Nat := reportRegs ++ [Reg.FCH_P_STS p, Reg.FCH_C_UP, Reg.FCH_C_FAILED, Reg.FCH_C_HANDED]

/-- `t` comes from `d` by changes of lane states, and reports. -/
abbrev Dev.Lanes (p : Nat) (d t : Dev) : Prop := Dev.Frame Dev.sansReports (laneRegs p) d t

theorem Dev.Lanes.of_reports {t : Dev} (h : d.Reports t) : Dev.Lanes p d t :=
  Dev.Frame.weaken h (fun _ => rfl) (fun _ ho => List.mem_append_left _ ho)

theorem mem_laneRegs {off : Nat} (h : off ∈ [Reg.FCH_P_STS p, Reg.FCH_C_UP, Reg.FCH_C_FAILED, Reg.FCH_C_HANDED]) : off ∈ laneRegs p :=
  List.mem_append_right _ h

/-- A register of a port shows no mode. -/
theorem modeRegs_port {off p k : Nat} (h : off = 0x800000 + k + 0x1000 * p) (hk : k < 0x1000) (hne : k ≠ 0x104) : off ∉ modeRegs := by
  simp only [modeRegs, List.mem_cons, List.not_mem_nil, or_false, Reg.PWR_MODE_STS, Reg.GLB_DEV_STS]
  omega

theorem Dev.Lanes.fchCounts : Dev.Lanes p d d.fchCounts :=
  (Dev.Frame.setFld (mem_laneRegs p (by simp)) _ _ _).trans
    ((Dev.Frame.setFld (mem_laneRegs p (by simp)) _ _ _).trans (Dev.Frame.setFld (mem_laneRegs p (by simp)) _ _ _))

theorem Dev.Lanes.setLstate (st : Nat) : Dev.Lanes p d (d.setLstate p st) := by
  unfold Dev.setLstate
  refine Dev.Frame.ite (.refl d) ?_
  have hsts : Dev.Lanes p d (d.setFld (Reg.FCH_P_STS p) 2 0 st) := Dev.Frame.setFld (mem_laneRegs p List.mem_cons_self) 2 0 st
    (hm := modeRegs_port (k := 0x100) rfl (by decide) (by decide))
  refine hsts.trans ((Dev.Lanes.fchCounts _ p).trans ?_)
  exact Dev.Lanes.of_reports _ p ((Dev.Reports.raise _ _ _).trans (Dev.Reports.capRecFree _ _ _ _))

theorem Dev.port_of_lanes {d t : Dev} {p : Nat} (h : Dev.Lanes p d t) (q : Nat) : t.port q = d.port q := by
  have hports : t.ports = d.ports := congrArg (·.ports) h.kept
  rw [Dev.port, hports, Dev.port]

/-- A port's status register is none of the counted ones. -/
theorem fchCounts_sts {p : Nat} : (d.fchCounts).reg (Reg.FCH_P_STS p) = d.reg (Reg.FCH_P_STS p) := by
  unfold Dev.fchCounts
  rw [Dev.reg_setFld_ne _ (by simp only [Reg.FCH_P_STS, Reg.FCH_C_HANDED]; omega), Dev.reg_setFld_ne _ (by simp only [Reg.FCH_P_STS, Reg.FCH_C_FAILED]; omega),
    Dev.reg_setFld_ne _ (by simp only [Reg.FCH_P_STS, Reg.FCH_C_UP]; omega)]

/-- A port's registers are none of those that reports change. -/
theorem reportRegs_port {off p k : Nat} (h : off = 0x800000 + k + 0x1000 * p) (hk : k < 0x1000) (hp : p < 512) : off ∉ reportRegs := by
  simp only [reportRegs, List.mem_cons, List.not_mem_nil, or_false, not_or, Reg.PWR_MODE_STS, Reg.GLB_DEV_STS, Reg.PWR_BIAS_NOW, Reg.SCP_CAP_STS,
    Reg.SCP_INC_STS]
  omega

theorem sts_notReport {p : Nat} (hp : p < 512) : Reg.FCH_P_STS p ∉ reportRegs := reportRegs_port (k := 0x100) rfl (by decide) hp

/-- A lane's state register after a change of state. -/
theorem Dev.reg_setLstate {p : Nat} (hp : p < 512) {st : Nat} (h : d.lstate p ≠ st) :
    (d.setLstate p st).reg (Reg.FCH_P_STS p) = putBits (d.reg (Reg.FCH_P_STS p)) 2 0 st := by
  unfold Dev.setLstate
  rw [if_neg h]
  have hreports := (Dev.Reports.raise (d.setFld (Reg.FCH_P_STS p) 2 0 st).fchCounts (0x800 + p) 0).trans (Dev.Reports.capRecFree _ 0x22 p [0, st])
  rw [hreports.regs _ (sts_notReport hp), fchCounts_sts, Dev.reg_setFld, if_pos rfl]

theorem Dev.lstate_setLstate {p st : Nat} (hp : p < 512) (hst : st < 8) : (d.setLstate p st).lstate p = st := by
  by_cases h : d.lstate p = st
  · rw [Dev.setLstate, if_pos h, h]
  · rw [Dev.lstate, Dev.fld, Dev.reg_setLstate d hp h, bits_putBits_self _ _ _ _ (by decide)]
    exact Nat.mod_eq_of_lt hst

/-! ### The pump -/

/-- What the pump leaves of a port beside its buffers. -/
def Port.sansTx (x : Port) : Port := { x with tx0 := [], tx1 := [], txNext := 0, txBuf := [], txTick := 0 }

theorem Dev.pump_spec : ∃ x, d.pump p = { d with ports := (d.setPort p x).ports, out := (d.pump p).out } ∧ x.sansTx = (d.port p).sansTx ∧
    (d.port p).txBuf <+: x.txBuf ∧ d.out <+: (d.pump p).out ∨ d.pump p = d := by
  unfold Dev.pump
  extract_lets x room a b go fs
  split
  · exact ⟨x, Or.inr rfl⟩
  · rename_i d1
    have hfold : ∀ (l : List Nat) (e : Dev), l.foldl (fun (d : Dev) f => d.emit (.flit p f)) e = { e with out := e.out ++ l.map (fun f => .flit p f) } := by
      intro l
      induction l with
      | nil =>
        intro e
        rw [List.foldl_nil, List.map_nil, List.append_nil]
      | cons f l ih =>
        intro e
        rw [List.foldl_cons, ih, List.map_cons]
        simp only [Dev.emit, List.append_assoc, List.singleton_append]
    rw [hfold]
    exact ⟨_, Or.inl ⟨rfl, rfl, List.prefix_append _ _, List.prefix_append _ _⟩⟩

theorem Dev.pump_idle (h0 : (d.port p).tx0 = []) (h1 : (d.port p).tx1 = []) : d.pump p = d := by
  unfold Dev.pump
  extract_lets x room a b go fs
  have hgo : go = [] := by simp only [go, a, b, x, h0, h1, List.take_nil, List.append_nil]
  rw [hgo]
  exact if_pos (Bool.or_true _)

theorem Dev.txBuf_pump : (d.port p).txBuf <+: ((d.pump p).port p).txBuf := by
  obtain ⟨x, ⟨hpump, -, hbuf, -⟩ | hpump⟩ := Dev.pump_spec d p
  · have hport : (d.pump p).port p = x := by
      rw [hpump]
      exact Dev.port_setPort_self d p x
    rw [hport]
    exact hbuf
  · rw [hpump]

/-! ### A replay -/

/-- A port whose unacknowledged flits are sent again. -/
def Port.again (x : Port) (tick : Nat) : Port := { x with txBuf := x.txBuf.map (fun fc => (fc.1, fc.2 + 1)), txTick := tick }

/-- The device after the flits of a replay. -/
def Dev.resent (d : Dev) (p : Nat) : Dev :=
  let x := d.port p
  let e := (d.capRecFree 0x22 p [3, x.txBuf.length]).inc (Reg.FCH_P_REPLAY p) x.txBuf.length
  (x.again d.tick).txBuf.foldl (fun (d : Dev) fc => d.emit (.flit p fc.1)) (e.setPort p (x.again d.tick))

theorem Dev.emits_eq (f : Nat × Nat → Out) (l : List (Nat × Nat)) : ∀ e : Dev,
    l.foldl (fun (d : Dev) fc => d.emit (f fc)) e = { e with out := (l.foldl (fun (d : Dev) fc => d.emit (f fc)) e).out } := by
  induction l with
  | nil => exact fun _ => rfl
  | cons fc l ih =>
    intro e
    rw [List.foldl_cons, ih]
    rfl

theorem Dev.replay_eq (h : (d.port p).txBuf ≠ []) : d.replay p =
    if ((d.port p).again d.tick).txBuf.any (fun fc => decide (4 ≤ fc.2)) then (d.resent p).enterRecovery p else d.resent p := by
  have htick : ((d.capRecFree 0x22 p [3, (d.port p).txBuf.length]).inc (Reg.FCH_P_REPLAY p) (d.port p).txBuf.length).tick = d.tick := by
    rw [Dev.capRecFree_eq]
    rfl
  have hbody : d.replay p =
      (fun (tick : Nat) (e : Dev) => if ((d.port p).again tick).txBuf.any (fun fc => decide (4 ≤ fc.2)) then e.enterRecovery p else e)
        ((d.capRecFree 0x22 p [3, (d.port p).txBuf.length]).inc (Reg.FCH_P_REPLAY p) (d.port p).txBuf.length).tick
        (((d.port p).again ((d.capRecFree 0x22 p [3, (d.port p).txBuf.length]).inc (Reg.FCH_P_REPLAY p) (d.port p).txBuf.length).tick).txBuf.foldl
          (fun (d : Dev) fc => d.emit (.flit p fc.1)) (((d.capRecFree 0x22 p [3, (d.port p).txBuf.length]).inc (Reg.FCH_P_REPLAY p)
            (d.port p).txBuf.length).setPort p ((d.port p).again ((d.capRecFree 0x22 p [3, (d.port p).txBuf.length]).inc (Reg.FCH_P_REPLAY p)
              (d.port p).txBuf.length).tick))) := by
    unfold Dev.replay
    exact if_neg (by simpa using h)
  rw [hbody, htick]
  rfl

/-- A replay's port, and the registers it counts in. -/
theorem Dev.resent_spec : (d.resent p).port p = (d.port p).again d.tick ∧ (d.resent p).tick = d.tick ∧
    (∀ off, off ≠ Reg.FCH_P_REPLAY p → (d.resent p).reg off = d.reg off) ∧
    (d.resent p).fld (Reg.FCH_P_REPLAY p) 31 0 = min (d.fld (Reg.FCH_P_REPLAY p) 31 0 + (d.port p).txBuf.length) 0xFFFFFFFF := by
  unfold Dev.resent
  extract_lets x e
  have he : e.tick = d.tick := by
    simp only [e]
    rw [Dev.capRecFree_eq]
    rfl
  rw [Dev.emits_eq (fun fc => .flit p fc.1)]
  refine ⟨Dev.port_setPort_self e p _, he, fun off hoff => ?_, ?_⟩
  · refine (Dev.reg_setFld_ne _ hoff 31 0 _).trans ?_
    rw [Dev.capRecFree_eq]
    rfl
  · refine (Dev.fld_inc_self _ (Reg.FCH_P_REPLAY p) _).trans ?_
    rw [Dev.capRecFree_eq]
    rfl

/-- A lane's entry into RECOVERY that the port survives (R258). -/
theorem Dev.enterRecovery_spec {p : Nat} (hp : p < 512) (hlim : (d.port p).recovs.length < d.fld Reg.FCH_C_CTL 7 0) :
    (d.enterRecovery p).lstate p = 6 ∧ ((d.enterRecovery p).port p).initTick = d.tick ∧
    (d.enterRecovery p).fld (Reg.FCH_P_RECOV p) 31 0 = min (d.fld (Reg.FCH_P_RECOV p) 31 0 + 1) 0xFFFFFFFF := by
  unfold Dev.enterRecovery
  extract_lets d1 x rs d2
  have hlanes : Dev.Lanes p (d.inc (Reg.FCH_P_RECOV p) 1) d1 := Dev.Lanes.setLstate _ p 6
  have htick : d1.tick = d.tick := (congrArg (·.tick) hlanes.kept)
  have hport : d1.port p = d.port p := Dev.port_of_lanes hlanes p
  have hctl : d2.fld Reg.FCH_C_CTL 7 0 = d.fld Reg.FCH_C_CTL 7 0 := by
    refine congrArg (fun w => bits w 7 0) ((hlanes.regs Reg.FCH_C_CTL ?_).trans (Dev.reg_setFld_ne _ ?_ _ _ _))
    · simp only [laneRegs, reportRegs, List.mem_append, List.mem_cons, List.not_mem_nil, or_false, Reg.PWR_MODE_STS, Reg.GLB_DEV_STS,
        Reg.PWR_BIAS_NOW, Reg.SCP_CAP_STS, Reg.SCP_INC_STS, Reg.FCH_P_STS, Reg.FCH_C_UP, Reg.FCH_C_FAILED, Reg.FCH_C_HANDED, Reg.FCH_C_CTL]
      omega
    · simp only [Reg.FCH_C_CTL, Reg.FCH_P_RECOV]
      omega
  have hrs : rs.length ≤ (d.port p).recovs.length + 1 := by
    have hfilter := List.length_filter_le (fun t => decide (d1.tick < t + 1000000000)) x.recovs
    have hx : x.recovs = (d.port p).recovs := congrArg (·.recovs) hport
    simp only [rs, List.length_append, List.length_singleton]
    rw [hx] at hfilter ⊢
    omega
  rw [if_neg (by rw [hctl]; omega)]
  refine ⟨Dev.lstate_setLstate _ hp (by decide), ?_, ?_⟩
  · rw [show d2.port p = _ from Dev.port_setPort_self d1 p _]
    exact htick
  · refine (congrArg (fun w => bits w 31 0) (hlanes.regs (Reg.FCH_P_RECOV p) ?_)).trans (Dev.fld_inc_self d _ 1)
    simp only [laneRegs, List.mem_append, not_or]
    refine ⟨reportRegs_port (k := 0x138) rfl (by decide) hp, ?_⟩
    simp only [List.mem_cons, List.not_mem_nil, or_false, Reg.FCH_P_STS, Reg.FCH_P_RECOV, Reg.FCH_C_UP, Reg.FCH_C_FAILED, Reg.FCH_C_HANDED]
    omega

/-- A flit counted three times or less goes out again without a recovery. -/
theorem Port.again_few {x : Port} {tick : Nat} (h : ∀ fc ∈ x.txBuf, fc.2 < 3) : (x.again tick).txBuf.any (fun fc => decide (4 ≤ fc.2)) = false := by
  rw [List.any_eq_false]
  intro fc hfc
  obtain ⟨gc, hgc, rfl⟩ := List.mem_map.mp hfc
  have hlt := h gc hgc
  simp only [decide_eq_true_eq]
  omega

theorem Port.again_many {x : Port} {tick : Nat} (h : ∃ fc ∈ x.txBuf, 3 ≤ fc.2) : (x.again tick).txBuf.any (fun fc => decide (4 ≤ fc.2)) = true := by
  obtain ⟨fc, hfc, hge⟩ := h
  exact List.any_eq_true.mpr ⟨_, List.mem_map.mpr ⟨fc, hfc, rfl⟩, decide_eq_true (by omega)⟩

end

/-! ### Flits that arrive -/

/-- The bytes of a flit as numbers. -/
theorem flitBytes_eq {flit : List Byte} (hlen : flit.length = 32) :
    (List.range 32).map (fun i => ((flit[i]?).getD 0).toNat) = flit.map BitVec.toNat := by
  refine List.ext_getElem (by simp [hlen]) (fun i h1 h2 => ?_)
  have hi : i < flit.length := by simpa using h2
  rw [List.getElem_map, List.getElem_range, List.getElem_map, List.getElem?_eq_getElem hi, Option.getD_some]

section
variable {d : Dev} {p : Nat} (hp : p < 512) (hup : d.laneUp p = true)
include hp hup

theorem doFlitReceive_crc {flit : List Byte} (hlen : flit.length = 32)
    (hcrc : crcBytes 16 0x8BB7 0xFFFF ((flit.map BitVec.toNat).take 30) ≠ ofBytes ((flit.map BitVec.toNat).drop 30)) :
    doFlitReceive p flit d = (((d.capRecFree 0x22 p [1]).inc (Reg.FCH_P_CRCERR p) 1).setPort p { d.port p with rxNak := true }).emit
      (.flit p (ctrlFlit 2 (d.port p).rxNext)) := by
  simp only [doFlitReceive, Nat.mod_eq_of_lt hp, flitBytes_eq hlen, hup, Bool.not_true, Bool.false_eq_true, if_false]
  exact if_pos hcrc

theorem doFlitReceive_next {flit : List Byte} (hlen : flit.length = 32)
    (hcrc : crcBytes 16 0x8BB7 0xFFFF ((flit.map BitVec.toNat).take 30) = ofBytes ((flit.map BitVec.toNat).drop 30))
    (htype : 2 ≤ ofBytes ((flit.map BitVec.toNat).take 2) % 4) (hseq : ofBytes ((flit.map BitVec.toNat).take 2) / 16 = (d.port p).rxNext) :
    doFlitReceive p flit d = ((d.setPort p { d.port p with rxNext := ((d.port p).rxNext + 1) % 4096, rxNak := false }).emit
      (.flit p (ctrlFlit 1 (d.port p).rxNext))).takeFlit p (ofBytes ((flit.map BitVec.toNat).take 2))
        (ofBytes (((flit.map BitVec.toNat).drop 2).take 28)) := by
  simp only [doFlitReceive, Nat.mod_eq_of_lt hp, flitBytes_eq hlen, hup, Bool.not_true, Bool.false_eq_true, if_false, hcrc, ne_eq,
    not_true_eq_false]
  split
  · next h => omega
  · next h => omega
  · rw [if_pos hseq, hseq]

omit hp hup in
/-- A flit that does not end its message is kept. -/
theorem Dev.takeFlit_more (d : Dev) (p : Nat) {hdr : Nat} (payload : Nat) (hlast : hdr.testBit 2 = false) :
    ∃ x, d.takeFlit p hdr payload = d.setPort p x ∧ x.rxNext = (d.port p).rxNext ∧ x.rxNak = (d.port p).rxNak ∧
      (hdr % 4 = 2 → (if hdr.testBit 3 then x.rx1 else x.rx0) = [payload]) := by
  simp only [Dev.takeFlit, hlast, Bool.false_and, Bool.false_eq_true, if_false]
  cases hdr.testBit 3
  · exact ⟨_, rfl, rfl, rfl, fun h => by simp only [Bool.false_eq_true, if_false, h, if_true]⟩
  · exact ⟨_, rfl, rfl, rfl, fun h => by simp only [if_true, h]⟩

end

/-- What becomes of an operation when its lane is re-initialised (R259). -/
def POp.reinit (o : POp) (tick : Nat) : POp :=
  if (o.opc == 0x02 || o.opc == 0x03) && o.sent.isNone && (o.stage == .armed || o.stage == .running) then
    { o with stage := .running, asked := true, start := tick }
  else if o.sent.isNone && (o.stage != .running || (o.opc == 0x01 && !o.data)) then { o with stage := .waiting, buf := 32 } else o

/-- A port whose lane is re-initialised. -/
def Port.reinit (x : Port) (tick : Nat) : Port :=
  { x.linkReset tick with
    carryTx := 0, carryRx := 0, susArms := [], susMiss := [], susDue := []
    ops := (x.linkReset tick).ops.map (fun o => o.reinit tick) }

/-- The bridge's side of a re-initialisation, and the port's counts. -/
def Dev.bridgeReinit (d : Dev) (p : Nat) : Dev :=
  let b := d.bridge p
  let d := if b.holder = 2 - d.side then d
    else d.setBridge p { b with arms := [], bufs := [], cutSeq := 4095, cutFor := none, heard := 4095 }
  d.outCounts p

section
variable (s : State) (p : Nat) (hrun : s.running) (hp : p < 512)
include hrun hp

theorem exec_flit_crc (hup : s.dev.laneUp p = true) {flit : List Byte} (hlen : flit.length = 32)
    (hcrc : crcBytes 16 0x8BB7 0xFFFF ((flit.map BitVec.toNat).take 30) ≠ ofBytes ((flit.map BitVec.toNat).drop 30)) :
    ∃ t, exec (.flitReceive p flit) s = .next t ∧ t.dev.port p = { s.dev.port p with rxNak := true } ∧
      t.dev.fld (Reg.FCH_P_CRCERR p) 31 0 = min (s.dev.fld (Reg.FCH_P_CRCERR p) 31 0 + 1) 0xFFFFFFFF ∧
      t.dev.out = s.dev.out ++ [.flit p (ctrlFlit 2 (s.dev.port p).rxNext)] := by
  refine ⟨_, act_of_running s (doFlitReceive p flit) hrun, ?_⟩
  dsimp only
  rw [doFlitReceive_crc hp hup hlen hcrc, Dev.capRecFree_eq]
  exact ⟨Dev.port_setPort_self _ p _, Dev.fld_inc_self _ (Reg.FCH_P_CRCERR p) 1, rfl⟩

theorem exec_flit_next (hup : s.dev.laneUp p = true) {flit : List Byte} (hlen : flit.length = 32)
    (hcrc : crcBytes 16 0x8BB7 0xFFFF ((flit.map BitVec.toNat).take 30) = ofBytes ((flit.map BitVec.toNat).drop 30))
    (htype : 2 ≤ ofBytes ((flit.map BitVec.toNat).take 2) % 4) (hseq : ofBytes ((flit.map BitVec.toNat).take 2) / 16 = (s.dev.port p).rxNext)
    (hlast : (ofBytes ((flit.map BitVec.toNat).take 2)).testBit 2 = false) :
    ∃ t, exec (.flitReceive p flit) s = .next t ∧ t.dev.out = s.dev.out ++ [.flit p (ctrlFlit 1 (s.dev.port p).rxNext)] ∧
      (t.dev.port p).rxNext = ((s.dev.port p).rxNext + 1) % 4096 ∧ (t.dev.port p).rxNak = false ∧
      (ofBytes ((flit.map BitVec.toNat).take 2) % 4 = 2 → (if (ofBytes ((flit.map BitVec.toNat).take 2)).testBit 3 then (t.dev.port p).rx1
        else (t.dev.port p).rx0) = [ofBytes (((flit.map BitVec.toNat).drop 2).take 28)]) := by
  refine ⟨_, act_of_running s (doFlitReceive p flit) hrun, ?_⟩
  dsimp only
  rw [doFlitReceive_next hp hup hlen hcrc htype hseq]
  have hport := Dev.port_setPort_self s.dev p { s.dev.port p with rxNext := ((s.dev.port p).rxNext + 1) % 4096, rxNak := false }
  obtain ⟨x, htake, hnext, hnak, hrx⟩ := Dev.takeFlit_more
    ((s.dev.setPort p { s.dev.port p with rxNext := ((s.dev.port p).rxNext + 1) % 4096, rxNak := false }).emit (.flit p (ctrlFlit 1 (s.dev.port p).rxNext))) p (ofBytes (((flit.map BitVec.toNat).drop 2).take 28)) hlast
  rw [htake, Dev.port_setPort_self]
  exact ⟨rfl, hnext.trans (congrArg (·.rxNext) hport), hnak.trans (congrArg (·.rxNak) hport), hrx⟩

theorem exec_ack (hup : s.dev.laneUp p = true) (seq : Nat) (hn : (seq % 4096 + 4096 - (s.dev.port p).base + 1) % 4096 ≤ (s.dev.port p).txBuf.length) :
    ∃ t, exec (.ack p seq) s = .next t ∧
      (s.dev.port p).txBuf.drop ((seq % 4096 + 4096 - (s.dev.port p).base + 1) % 4096) <+: (t.dev.port p).txBuf ∧
      ((s.dev.port p).tx0 = [] → (s.dev.port p).tx1 = [] →
        t = { s with dev := s.dev.setPort p ((s.dev.port p).acked ((seq % 4096 + 4096 - (s.dev.port p).base + 1) % 4096) s.dev.tick) }) := by
  generalize hnum : (seq % 4096 + 4096 - (s.dev.port p).base + 1) % 4096 = n at hn
  have hbody : doAck p seq s.dev = (s.dev.setPort p ((s.dev.port p).acked n s.dev.tick)).pump p := by
    rw [doAck, Nat.mod_eq_of_lt hp, if_pos hup, Dev.ackUpTo]
    simp only [hnum]
    exact if_pos hn
  have hacked : ((s.dev.port p).acked n s.dev.tick).txBuf = (s.dev.port p).txBuf.drop n ∧
      ((s.dev.port p).acked n s.dev.tick).tx0 = (s.dev.port p).tx0 ∧ ((s.dev.port p).acked n s.dev.tick).tx1 = (s.dev.port p).tx1 := by
    unfold Port.acked
    split
    · next h => exact ⟨by rw [h, List.drop_zero], rfl, rfl⟩
    · exact ⟨rfl, rfl, rfl⟩
  refine ⟨_, act_of_running s (doAck p seq) hrun, ?_⟩
  dsimp only
  rw [hbody]
  refine ⟨?_, fun h0 h1 => ?_⟩
  · have hpump := Dev.txBuf_pump (s.dev.setPort p ((s.dev.port p).acked n s.dev.tick)) p
    rw [Dev.port_setPort_self, hacked.1] at hpump
    exact hpump
  · rw [Dev.pump_idle _ p]
    · rw [Dev.port_setPort_self]
      exact hacked.2.1.trans h0
    · rw [Dev.port_setPort_self]
      exact hacked.2.2.trans h1

theorem exec_nak (hup : s.dev.laneUp p = true) (h0 : (s.dev.port p).tx0 = []) (h1 : (s.dev.port p).tx1 = []) (seq : Nat)
    (hn : (seq % 4096 + 4096 - (s.dev.port p).base) % 4096 < (s.dev.port p).txBuf.length) (hfew : ∀ fc ∈ (s.dev.port p).txBuf, fc.2 < 3) :
    ∃ t, exec (.nak p seq) s = .next t ∧ (t.dev.port p).txBuf =
      ((s.dev.port p).txBuf.drop ((seq % 4096 + 4096 - (s.dev.port p).base) % 4096)).map (fun fc => (fc.1, fc.2 + 1)) ∧
      t.dev.fld (Reg.FCH_P_REPLAY p) 31 0 = min (s.dev.fld (Reg.FCH_P_REPLAY p) 31 0 +
        ((s.dev.port p).txBuf.length - (seq % 4096 + 4096 - (s.dev.port p).base) % 4096)) 0xFFFFFFFF := by
  generalize hnum : (seq % 4096 + 4096 - (s.dev.port p).base) % 4096 = n at hn
  let e := (s.dev.capRecFree 0x22 p [2, seq % 4096]).setPort p ((s.dev.port p).acked n s.dev.tick)
  have hcap : s.dev.Reports (s.dev.capRecFree 0x22 p [2, seq % 4096]) := Dev.Reports.capRecFree _ _ _ _
  have hbody : doNak p seq s.dev = (e.replay p).pump p := by
    rw [doNak, Nat.mod_eq_of_lt hp, if_pos hup]
    simp only [hnum]
    rw [if_pos (Nat.le_of_lt hn)]
  have hport : e.port p = (s.dev.port p).acked n s.dev.tick := Dev.port_setPort_self _ p _
  have hacked : (e.port p).txBuf = (s.dev.port p).txBuf.drop n ∧ (e.port p).tx0 = (s.dev.port p).tx0 ∧ (e.port p).tx1 = (s.dev.port p).tx1 := by
    rw [hport, Port.acked]
    split
    · next h => exact ⟨by rw [h, List.drop_zero], rfl, rfl⟩
    · exact ⟨rfl, rfl, rfl⟩
  obtain ⟨hbuf, htx0, htx1⟩ := hacked
  obtain ⟨hres, -, -, hcnt⟩ := Dev.resent_spec e p
  have hne : (e.port p).txBuf ≠ [] := by
    rw [hbuf]
    exact List.ne_nil_of_length_pos (by rw [List.length_drop]; omega)
  have hreplay : e.replay p = e.resent p := by
    rw [Dev.replay_eq _ _ hne, if_neg]
    rw [Port.again_few (fun fc hfc => hfew fc (List.mem_of_mem_drop (hbuf ▸ hfc)))]
    exact Bool.false_ne_true
  have hidle : (e.resent p).pump p = e.resent p := Dev.pump_idle _ p (by rw [hres]; exact htx0.trans h0) (by rw [hres]; exact htx1.trans h1)
  refine ⟨_, act_of_running s (doNak p seq) hrun, ?_⟩
  dsimp only
  rw [hbody, hreplay, hidle, hres, hcnt, hbuf, List.length_drop]
  refine ⟨congrArg (List.map _) hbuf, ?_⟩
  have hreg : e.reg (Reg.FCH_P_REPLAY p) = s.dev.reg (Reg.FCH_P_REPLAY p) := hcap.regs _ (reportRegs_port (k := 0x134) rfl (by decide) hp)
  rw [Dev.fld, hreg, Dev.fld]

theorem exec_replayTimeout (hup : s.dev.laneUp p = true) (hbuf : (s.dev.port p).txBuf ≠ []) :
    (s.dev.tick < (s.dev.port p).txTick + 256 → exec (.replayTimeout p) s = .next s) ∧
    ((s.dev.port p).txTick + 256 ≤ s.dev.tick → (∀ fc ∈ (s.dev.port p).txBuf, fc.2 < 3) → ∃ t, exec (.replayTimeout p) s = .next t ∧
      t.dev.port p = { s.dev.port p with txBuf := (s.dev.port p).txBuf.map (fun fc => (fc.1, fc.2 + 1)), txTick := s.dev.tick }) ∧
    ((s.dev.port p).txTick + 256 ≤ s.dev.tick → (∃ fc ∈ (s.dev.port p).txBuf, 3 ≤ fc.2) →
      (s.dev.port p).recovs.length < s.dev.fld Reg.FCH_C_CTL 7 0 →
      ∃ t, exec (.replayTimeout p) s = .next t ∧ t.dev.lstate p = 6 ∧ (t.dev.port p).initTick = s.dev.tick ∧
        t.dev.fld (Reg.FCH_P_RECOV p) 31 0 = min (s.dev.fld (Reg.FCH_P_RECOV p) 31 0 + 1) 0xFFFFFFFF) := by
  have hbody : doReplayTimeout p s.dev = if (s.dev.port p).txTick + 256 ≤ s.dev.tick then s.dev.replay p else s.dev := by
    simp only [doReplayTimeout, Nat.mod_eq_of_lt hp, hup, Bool.true_and, decide_eq_true_eq]
  obtain ⟨hport, htick, hregs, -⟩ := Dev.resent_spec s.dev p
  have hexec := act_of_running s (doReplayTimeout p) hrun
  refine ⟨fun hearly => ?_, fun hlate hfew => ⟨_, hexec, ?_⟩, fun hlate hmany hlim => ⟨_, hexec, ?_⟩⟩
  · rw [hbody, if_neg (Nat.not_le.mpr hearly)] at hexec
    exact hexec
  · dsimp only
    rw [hbody, if_pos hlate, Dev.replay_eq _ _ hbuf, Port.again_few hfew]
    exact hport
  · dsimp only
    rw [hbody, if_pos hlate, Dev.replay_eq _ _ hbuf, Port.again_many hmany]
    have hctl : (s.dev.resent p).fld Reg.FCH_C_CTL 7 0 = s.dev.fld Reg.FCH_C_CTL 7 0 :=
      congrArg (fun w => bits w 7 0) (hregs _ (by simp only [Reg.FCH_C_CTL, Reg.FCH_P_REPLAY]; omega))
    have hrecov : (s.dev.resent p).fld (Reg.FCH_P_RECOV p) 31 0 = s.dev.fld (Reg.FCH_P_RECOV p) 31 0 :=
      congrArg (fun w => bits w 31 0) (hregs _ (by simp only [Reg.FCH_P_RECOV, Reg.FCH_P_REPLAY]; omega))
    have hspec := Dev.enterRecovery_spec (s.dev.resent p) hp (by rw [hport, hctl]; exact hlim)
    rw [htick, hrecov] at hspec
    exact hspec

omit hrun in
/-- What a re-initialised lane leaves: DETECT, and its port re-initialised. -/
theorem Dev.reinit_spec (d : Dev) : (d.reinit p).lstate p = 1 ∧ (d.reinit p).port p = (d.port p).reinit d.tick := by
  have hlanes : Dev.Lanes p d (d.setLstate p 1) := Dev.Lanes.setLstate d p 1
  have htick : (d.setLstate p 1).tick = d.tick := congrArg (·.tick) hlanes.kept
  have hport : (d.setLstate p 1).port p = d.port p := Dev.port_of_lanes hlanes p
  have hbody : d.reinit p = ((d.setLstate p 1).setPort p (((d.setLstate p 1).port p).reinit (d.setLstate p 1).tick)).bridgeReinit p := rfl
  have hbridge : ∀ e : Dev, (e.bridgeReinit p).port p = e.port p ∧ (e.bridgeReinit p).lstate p = e.lstate p := by
    intro e
    have hne : Reg.FCH_P_STS p ≠ Reg.FCH_P_OUT p := by
      simp only [Reg.FCH_P_STS, Reg.FCH_P_OUT]
      omega
    unfold Dev.bridgeReinit
    extract_lets b e1
    have he1 : e1.ports = e.ports ∧ e1.regs = e.regs := by
      simp only [e1]
      split
      · exact ⟨rfl, rfl⟩
      · exact ⟨rfl, rfl⟩
    refine ⟨?_, ?_⟩
    · rw [Dev.port, show (e1.outCounts p).ports = e1.ports from rfl, he1.1, Dev.port]
    · rw [Dev.lstate, Dev.fld, Dev.outCounts, Dev.reg_setReg_ne _ hne, Dev.reg, he1.2]
      rfl
  rw [hbody, (hbridge _).1, (hbridge _).2, Dev.port_setPort_self, hport, htick]
  exact ⟨Dev.lstate_setLstate d hp (by decide), rfl⟩

theorem exec_recoveryTimeout (hst : s.dev.lstate p = 6) (hlate : (s.dev.port p).initTick + 50000 ≤ s.dev.tick)
    (hown : ∀ o ∈ (s.dev.port p).ops, o.sent = none) :
    ∃ t, exec (.recoveryTimeout p) s = .next t ∧ t.dev.lstate p = 1 ∧ (t.dev.port p).rxNext = 0 ∧ (t.dev.port p).txBuf = [] ∧
      (∀ o ∈ (t.dev.port p).ops, o.stage ≠ .armed) ∧
      ∀ o ∈ (s.dev.port p).ops, o.opc ∈ [2, 3] → o.stage ∈ [OpStage.armed, .running] →
        { o with stage := .running, asked := true, start := s.dev.tick } ∈ (t.dev.port p).ops := by
  have hbody : doRecoveryTimeout p s.dev = s.dev.reinit p := by
    rw [doRecoveryTimeout, Nat.mod_eq_of_lt hp]
    exact if_pos ⟨hst, hlate⟩
  obtain ⟨hone, hport⟩ := Dev.reinit_spec p hp s.dev
  refine ⟨_, act_of_running s (doRecoveryTimeout p) hrun, ?_⟩
  dsimp only
  rw [hbody, hport]
  refine ⟨hone, rfl, rfl, fun o ho => ?_, fun o ho hopc hstage => ?_⟩
  · obtain ⟨q, hq, rfl⟩ := List.mem_map.mp ho
    have hsent := hown q hq
    unfold POp.reinit
    split
    · exact OpStage.noConfusion
    · split
      · exact OpStage.noConfusion
      · next h2 =>
          intro harmed
          rw [hsent, harmed] at h2
          exact h2 rfl
  · refine List.mem_map.mpr ⟨o, ho, if_pos ?_⟩
    rw [hown o ho]
    simp only [List.mem_cons, List.not_mem_nil, or_false] at hopc hstage
    rcases hopc with h | h <;> rcases hstage with h' | h' <;> rw [h, h'] <;> rfl

end

/-- Settles O31. -/
theorem linkReplays : Obligations.LinkReplays := by
  intro s p hrun hp x again
  refine ⟨fun hup flit hlen => ?_, fun hup seq => exec_ack s p hrun hp hup seq, fun hup h0 h1 seq => exec_nak s p hrun hp hup h0 h1 seq,
    fun hup hbuf => exec_replayTimeout s p hrun hp hup hbuf, fun hst hlate hown => exec_recoveryTimeout s p hrun hp hst hlate hown⟩
  exact ⟨exec_flit_crc s p hrun hp hup hlen, exec_flit_next s p hrun hp hup hlen⟩

end Sys2Proof.Machine
end

section
/-! What the work of bands, stripes and operations may change: the frame that closing a band, failing a program or a die, poisoning a
column and losing a line of HBM all keep (R203 to R206, R222, R285 to R287, R331, R370). -/

namespace Sys2Proof.Machine

-- In order, one declaration at a time: keeps the check within its memory limit.
set_option Elab.async false

section
variable {erase : Dev → Dev} {rs : List Nat}

theorem Dev.Frame.foldl_mem {α : Type} {f : Dev → α → Dev} {l : List α} (h : ∀ e, ∀ x ∈ l, Dev.Frame erase rs e (f e x)) (d : Dev) :
    Dev.Frame erase rs d (l.foldl f d) :=
  List.foldlRecOn (motive := fun e : Dev => Dev.Frame erase rs d e) l f (.refl d) (fun e he x hx => he.trans (h e x hx))

end

/-! ### The work's frame -/

/-- The device without what the work of bands, stripes and operations changes. -/
def Dev.sansWork (d : Dev) : Dev :=
  { d.sansPosting with
    pages := [], incidents := [], incWait := [], bands := [], ports := [], bridges := [], trk := [], relocs := [], rfshDays := [], chunksOk := []
    progd := [], fills := [], metaBack := [], bmDirty := [], bmClear := [], bmLogs := [], bmWait := [], closeSeq := 0, crHold := [], crWait := []
    dacc := [], dpar := [], elog := [], flash := [], gcCredit := 0, rbQueue := [], rbUsed := [], spareUsed := [], stripeBuf := [], exhausted := []
    dlogBad := false, hbmDead := [], pwCured := [], pwDead := [], pwPoison := [], resync := [] }

/-- The registers that the work changes. -/
def workRegs : List Nat :=
  reportRegs ++ postRegs ++
  [Reg.ECC_CW_DPAR, Reg.ECC_CW_SHF, Reg.ECC_DPAR_SETS, Reg.ECC_HBM_POISON, Reg.ECC_PE_MEAN, Reg.ECC_RFSH_30D, Reg.ECC_VFY_FAIL,
   Reg.FCH_C_FAILED, Reg.FCH_C_HANDED, Reg.FCH_C_UP, Reg.MAP_BANDS, Reg.MAP_FQ, Reg.MAP_GC_BANDS, Reg.MAP_GC_CREDIT, Reg.MAP_GC_STS,
   Reg.MAP_LIMIT_LO, Reg.MAP_LIMIT_HI, Reg.MAP_META, Reg.MAP_PE_MAX, Reg.MAP_PE_MIN, Reg.MAP_QLC_USED, Reg.MAP_SLC_USED, Reg.MAP_RETIRED,
   Reg.MAP_WM_BG, Reg.MAP_WM_FG, Reg.MAP_WM_HARD, Reg.SHF_BM_COPIES, Reg.SHF_BM_DIRTY, Reg.SHF_BM_SEQ_LO, Reg.SHF_BM_SEQ_HI, Reg.SHF_ELOG,
   Reg.SHF_POISON, Reg.SHF_RB_Q1, Reg.SHF_RB_Q2, Reg.SHF_RB_Q3, Reg.SHF_RB_SPACE, Reg.SHF_RB_STS, Reg.SHF_RB_CHUNKS_LO, Reg.SHF_RB_CHUNKS_HI,
   Reg.STK_POOL, Reg.STK_SHARED, Reg.STK_CR_WAITS] ++
  (List.range 10).map Reg.STK_CR_USED ++ (List.range 3).map Reg.SHF_BM_PORT ++ (List.range 32).map Reg.SEG_STS ++ (List.range 16).map Reg.FCH_C_FAILMAP

/-- `t` comes from `d` by the work of bands, stripes and operations. -/
abbrev Dev.Works (d t : Dev) : Prop := Dev.Frame Dev.sansWork workRegs d t

section
variable {d e : Dev}

theorem Dev.Works.of_reports {t : Dev} (h : e.Reports t) : e.Works t :=
  Dev.Frame.weaken h (fun _ => rfl) (by decide)

theorem Dev.Works.of_posts {t : Dev} (h : e.Posts t) : e.Works t :=
  Dev.Frame.weaken h (fun _ => rfl) (by decide)

variable (h : d.Works e)
include h

theorem Dev.Works.fld {off : Nat} (hoff : off ∈ workRegs) (hi lo v : Nat) (hm : off ∉ modeRegs := by decide) :
    d.Works (e.setFld off hi lo v) := h.trans (.setFld hoff hi lo v (hm := hm))

theorem Dev.Works.flag {off : Nat} (hoff : off ∈ workRegs) (n : Nat) (b : Bool) (hm : off ∉ modeRegs := by decide) :
    d.Works (e.setFlag off n b) := h.trans (.setFlag hoff n b (hm := hm))

theorem Dev.Works.reg {off : Nat} (hoff : off ∈ workRegs) (v : Word) (hm : off ∉ modeRegs := by decide) :
    d.Works (e.setReg off v) := h.trans (.setReg hoff v (hm := hm))

theorem Dev.Works.inc {off : Nat} (hoff : off ∈ workRegs) (n : Nat) (hm : off ∉ modeRegs := by decide) :
    d.Works (e.inc off n) := h.trans (.setFld hoff _ _ _ (hm := hm))

/-- A change of what the frame does not keep. -/
theorem Dev.Works.hide {t : Dev} (he : t.sansWork = e.sansWork) (hr : t.regs = e.regs := by rfl) (ho : t.out = e.out := by rfl)
    (hp : t.pages = e.pages := by rfl) : d.Works t := h.trans (.hidden he hr ho hp)

theorem Dev.Works.raise (pg bit : Nat) : d.Works (e.raise pg bit) := h.trans (Dev.Works.of_reports (Dev.Reports.raise e pg bit))

theorem Dev.Works.recordErr (pg code i0 i1 : Nat) : d.Works (e.recordErr pg code i0 i1) := h.trans (Dev.Works.of_reports (Dev.Reports.recordErr e pg code i0 i1))

theorem Dev.Works.journal (b : JBatch) : d.Works (e.journal b) := h.trans (Dev.Works.of_posts (Dev.Posts.journal e b))

theorem Dev.Works.sendGulon (ty : Nat) (fs : Fields) : d.Works (e.sendGulon ty fs) := h.trans (Dev.Works.of_posts (Dev.Posts.sendGulon e ty fs))

theorem Dev.Works.setBand (b : Nat) (x : Band) : d.Works (e.setBand b x) := h.hide rfl

theorem Dev.Works.setPort (p : Nat) (x : Port) : d.Works (e.setPort p x) := h.hide rfl

theorem Dev.Works.setBmLog (n : Nat) (l : BmLog) : d.Works (e.setBmLog n l) := h.hide rfl

theorem Dev.Works.setTrk (k : Nat) (x : Trk) : d.Works (e.setTrk k x) := h.hide rfl

theorem Dev.Works.setFPage (k : Nat) (f : FPage) : d.Works (e.setFPage k f) := h.hide rfl

theorem Dev.Works.dropOp (p tag : Nat) : d.Works (e.dropOp p tag) := h.hide rfl

/-! ### Counts -/

theorem Dev.Works.kitty : d.Works e.kitty := (h.fld (by decide) _ _ _).flag (by decide) _ _

theorem Dev.Works.peCounts : d.Works e.peCounts := by
  have hcount : ∀ v w, d.Works ((e.setFld Reg.MAP_PE_MAX 15 0 v).setFld Reg.MAP_PE_MIN 15 0 w) := fun v w =>
    (h.fld (by decide) _ _ _).fld (by decide) _ _ _
  unfold Dev.peCounts
  extract_lets
  exact Dev.Frame.ite (hcount _ _) ((hcount _ _).fld (by decide) _ _ _)

theorem Dev.Works.gcCredit (n : Int) : d.Works { e with gcCredit := n } := h.hide rfl

theorem Dev.Works.respace : d.Works e.respace := by
  unfold Dev.respace
  extract_lets bs withdrawn nS nMeta nQ nSlc d1 d2 d3 d4 d5 d6 d7 d8 cLog d9 old new d10 d11 d12
  have h1 : d.Works d1 := h.fld (by decide) _ _ _
  have h2 : d.Works d2 := h1.fld (by decide) _ _ _
  have h3 : d.Works d3 := h2.fld (by decide) _ _ _
  have h4 : d.Works d4 := h3.fld (by decide) _ _ _
  have h5 : d.Works d5 := h4.fld (by decide) _ _ _
  have h6 : d.Works d6 := h5.fld (by decide) _ _ _
  have h7 : d.Works d7 := h6.fld (by decide) _ _ _
  have h8 : d.Works d8 := h7.fld (by decide) _ _ _
  have h9 : d.Works d9 := h8.trans (.set64 (by decide) (by decide) _)
  have h10 : d.Works d10 := Dev.Frame.ite (h9.gcCredit 0) h9
  have h11 : d.Works d11 := h10.reg (by decide) _
  have h12 : d.Works d12 := (h11.fld (by decide) _ _ _).fld (by decide) _ _ _
  exact Dev.Frame.ite h12 (h12.raise _ _)

theorem Dev.Works.crCounts : d.Works e.crCounts := by
  have huse : d.Works ((List.range 10).foldl (fun d c => d.setFld (Reg.STK_CR_USED c) 23 0 (d.crUsed c)) e) := by
    refine h.trans (Dev.Frame.foldl_mem (fun x c hc => Dev.Frame.setFld ?_ _ _ _ (hm := ?_)) e)
    · simp only [workRegs, List.mem_append, List.mem_map]
      exact Or.inl (Or.inl (Or.inl (Or.inr ⟨c, hc, rfl⟩)))
    · simp only [modeRegs, List.mem_cons, List.not_mem_nil, or_false, Reg.STK_CR_USED, Reg.PWR_MODE_STS, Reg.GLB_DEV_STS]
      have hc10 : c < 10 := List.mem_range.mp hc
      omega
  exact ((huse.fld (by decide) _ _ _).fld (by decide) _ _ _).fld (by decide) _ _ _

theorem Dev.Works.freeCredit (p : Nat → Bool) : d.Works (e.freeCredit p) := by
  unfold Dev.freeCredit
  refine Dev.Frame.ite ?_ h
  exact Dev.Works.crCounts (h.hide rfl)

theorem Dev.Works.rbCounts : d.Works e.rbCounts := by
  unfold Dev.rbCounts
  extract_lets ps n d1 d2 d3
  have h3 : d.Works d3 := ((h.fld (by decide) _ _ _).fld (by decide) _ _ _).fld (by decide) _ _ _
  exact (h3.fld (by decide) _ _ _).flag (by decide) _ _

theorem Dev.Works.unlogErasures (p : Nat → Bool) : d.Works (e.unlogErasures p) :=
  Dev.Works.fld (e := { e with elog := e.elog.filter (fun k => !p k) }) (h.hide rfl) (by decide) _ _ _

theorem Dev.Works.dparCount : d.Works e.dparCount := h.fld (by decide) _ _ _

/-! ### The dirty-region bitmap -/

theorem Dev.Works.bmMayClear (band region : Nat) : d.Works (e.bmMayClear band region) := by
  unfold Dev.bmMayClear
  extract_lets
  exact Dev.Frame.ite (h.hide rfl) h

theorem Dev.Works.bmWrite (kind band : Nat) : d.Works (e.bmWrite kind band) := by
  unfold Dev.bmWrite
  extract_lets d1 r b d2
  have h1 : d.Works d1 := h.trans (.inc64 (by decide) (by decide) 1)
  have h2 : d.Works d2 := h1.journal _
  exact h2.trans (.foldl (fun x n => Dev.Works.setBmLog (.refl x) _ _) _ _)

theorem Dev.Works.bmCheckpoint : d.Works e.bmCheckpoint := by
  unfold Dev.bmCheckpoint
  extract_lets bs d1
  have h1 : d.Works d1 := h.trans (.foldl (fun x b => Dev.Works.bmWrite (.refl x) 3 b) _ _)
  exact Dev.Frame.ite h1 (h1.trans (.foldl (fun x n => Dev.Works.setBmLog (.refl x) _ _) _ _))

theorem Dev.Works.bmRecord (kind band : Nat) : d.Works (e.bmRecord kind band) := by
  unfold Dev.bmRecord
  extract_lets d1
  have h1 : d.Works d1 := Dev.Works.bmWrite h _ _
  exact Dev.Frame.ite (Dev.Works.bmCheckpoint h1) h1

theorem Dev.Works.bmSet (band stripe : Nat) : d.Works (e.bmSet band stripe) := by
  unfold Dev.bmSet
  extract_lets r d1
  have hmark : d.Works { e with bmDirty := e.bmDirty ++ [r] } := h.hide rfl
  have h1 : d.Works d1 := (hmark.bmRecord 1 band).fld (by decide) _ _ _
  refine Dev.Frame.ite (h.hide rfl) (Dev.Frame.ite (h1.hide rfl) h1)

/-! ### Operations -/

theorem Dev.Works.remote (p : Nat) (o : POp) : d.Works (e.remote p o) := by
  unfold Dev.remote
  extract_lets d1 d2
  have h1 : d.Works d1 := Dev.Frame.ite (Dev.Works.bmSet h _ _) h
  exact Dev.Works.sendGulon (h1.setPort _ _) _ _

theorem Dev.Works.addOp (p : Nat) (o : POp) : d.Works (e.addOp p o) := by
  unfold Dev.addOp
  extract_lets x t o1 d1
  have h1 : d.Works d1 := h.setPort _ _
  exact Dev.Frame.ite (h1.remote _ _) h1

theorem Dev.Works.dealFinals (b pos : Nat) (s : BSet) (slc : Bool) (due : Nat → Bool) : d.Works (e.dealFinals b pos s slc due) := by
  unfold Dev.dealFinals
  exact h.trans (.foldl (fun x pg => Dev.Frame.ite (.refl x) (Dev.Works.addOp (.refl x) _ _)) _ _)

/-! ### Bands -/

theorem Dev.Works.bandClosed (b : Nat) (x : Band) : d.Works (e.bandClosed b x) :=
  Dev.Works.journal (Dev.Works.setBand (e := { e with closeSeq := e.closeSeq + 1 }) (h.hide rfl) _ _) _

theorem Dev.Works.metaAbandon (b : Nat) : d.Works (e.metaAbandon b) := by
  unfold Dev.metaAbandon
  extract_lets gone d1
  have h1 : d.Works d1 := h.hide rfl
  exact Dev.Frame.ite h ((h1.fld (by decide) _ _ _).freeCredit _)

theorem Dev.Works.closeBand (b : Nat) : d.Works (e.closeBand b) := by
  unfold Dev.closeBand
  extract_lets x d1 d2 d3 d4 d5
  have h2 : d.Works d2 := (h.metaAbandon b).hide rfl
  have h3 : d.Works d3 := h2.trans (.foldl (fun x k => Dev.Works.bmMayClear (.refl x) _ _) _ _)
  have h4 : d.Works d4 := h3.trans (.foldl (fun x js => Dev.Works.dealFinals (.refl x) _ _ _ _ _) _ _)
  exact Dev.Frame.ite ((h4.freeCredit _).bandClosed _ _) h

theorem Dev.Works.bandFreed (b : Nat) : d.Works (e.bandFreed b) := by
  unfold Dev.bandFreed
  extract_lets x back sets d1 d2 bd d3 dead y d4
  have h1 : d.Works d1 := h.unlogErasures _
  have h2 : d.Works d2 := Dev.Frame.ite (h1.gcCredit _) h1
  have h3 : d.Works d3 := h2.setBand _ _
  have h4 : d.Works d4 := by
    simp only [d4]
    clear_value dead
    cases dead with
    | none => exact h3
    | some s => exact h3.setBand _ _
  have h5 : d.Works (if back then d4 else d4.inc Reg.MAP_GC_BANDS 1) := Dev.Frame.ite h4 (h4.inc (by decide) 1)
  exact ((Dev.Works.journal h5 _).peCounts.kitty).respace

theorem Dev.Works.eraseProgress (b : Nat) : d.Works (e.eraseProgress b) := by
  unfold Dev.eraseProgress
  extract_lets x
  exact Dev.Frame.ite (h.bandFreed b) h

theorem Dev.Works.markRefresh (b : Nat) : d.Works (e.markRefresh b) := by
  unfold Dev.markRefresh
  extract_lets x y d1
  have h1 : d.Works d1 := h.hide rfl
  exact Dev.Frame.ite h (h1.fld (by decide) _ _ _)

theorem Dev.Works.programFail (b pos : Nat) : d.Works (e.programFail b pos) := by
  unfold Dev.programFail
  extract_lets s d1 s' y d2 d3 d4
  have h2 : d.Works d2 := (h.closeBand b).setBand _ _
  have h3 : d.Works d3 := (h2.inc (by decide) 1).raise _ _
  exact (h3.recordErr _ _ _ _).markRefresh b

theorem Dev.Works.rebuildSettle (b : Nat) : d.Works (e.rebuildSettle b) := by
  unfold Dev.rebuildSettle
  extract_lets x k
  exact (h.setBand _ _).freeCredit _

theorem Dev.Works.programBad (o : POp) : d.Works (e.programBad o) := by
  unfold Dev.programBad
  exact Dev.Frame.ite ((h.programFail _ _).rebuildSettle _) (h.programFail _ _)

theorem Dev.Works.queueRebuild (b : Nat) : d.Works (e.queueRebuild b) := by
  unfold Dev.queueRebuild
  extract_lets first d1
  have h1 : d.Works d1 := h.hide rfl
  exact Dev.Frame.ite h (Dev.Frame.ite ((h1.flag (by decide) _ _).raise _ _) h1)

/-! ### Codewords -/

theorem Dev.Works.logErasure (band stripe pos col : Nat) : d.Works (e.logErasure band stripe pos col) := by
  unfold Dev.logErasure
  extract_lets k d1
  have h1 : d.Works d1 := h.hide rfl
  exact Dev.Frame.ite h (h1.fld (by decide) _ _ _)

theorem Dev.Works.toShf (port die block page band stripe pos col : Nat) : d.Works (e.toShf port die block page band stripe pos col) := by
  unfold Dev.toShf
  extract_lets d1 covered d2 d3
  have h1 : d.Works d1 := h.inc (by decide) 1
  have h2 : d.Works d2 := Dev.Frame.ite ((h1.recordErr _ _ _ _).raise _ _) h1
  exact ((h2.recordErr _ _ _ _).raise _ _).logErasure _ _ _ _

theorem Dev.Works.accMove (k page : Nat) (into : Bool) : d.Works (e.accMove k page into) := by
  unfold Dev.accMove
  extract_lets a band ps
  exact Dev.Frame.ite h (h.hide rfl)

theorem Dev.Works.dparSet (k page : Nat) (on : Bool) : d.Works (e.dparSet k page on) := by
  unfold Dev.dparSet
  split
  · extract_lets first d1
    have h1 : d.Works d1 := Dev.Works.dparCount (h.hide rfl)
    exact h1.trans (.foldl (fun x q => Dev.Works.accMove (.refl x) _ _ _) _ _)
  · extract_lets d1 ps d2
    have h2 : d.Works d2 := Dev.Works.dparCount ((h.accMove k page false).hide rfl)
    have hdrop : d.Works { d2 with dacc := d2.dacc.filter (fun kv => kv.1 / 8 != k) } := h2.hide rfl
    exact Dev.Frame.ite (hdrop.freeCredit _) h2

theorem Dev.Works.accLost (k a : Nat) : d.Works (e.accLost k a) := by
  unfold Dev.accLost
  extract_lets mine d1 d2
  have h1 : d.Works d1 := by
    simp only [d1]
    split
    · exact h.dealFinals _ _ _ _ _
    · exact h
  have h2 : d.Works d2 := h1.hide rfl
  exact h2.trans (.foldl (fun x q => Dev.Works.dparSet (.refl x) _ _ _) _ _)

theorem Dev.Works.verifyFail (p : Nat) (o : POp) : d.Works (e.verifyFail p o) := ((h.inc (by decide) 1).recordErr _ _ _ _).raise _ _

theorem Dev.Works.verifyBad (p : Nat) (o : POp) (worse : CwGot → Bool) : d.Works (e.verifyBad p o worse) := by
  unfold Dev.verifyBad
  extract_lets k d1 bad
  have h1 : d.Works d1 := h.verifyFail p o
  have hshf : d.Works (bad.foldl (fun d c => d.toShf p o.die o.block o.page o.band o.stripe o.pos c) d1) :=
    h1.trans (.foldl (fun x c => Dev.Works.toShf (.refl x) _ _ _ _ _ _ _ _) _ _)
  refine Dev.Frame.ite (Dev.Frame.ite (hshf.markRefresh _) ((h1.inc (by decide) 1).markRefresh _)) (Dev.Frame.ite h1 ?_)
  exact (h1.dparSet _ _ _).programFail _ _

theorem Dev.Works.abortOp (p : Nat) (o : POp) : d.Works (e.abortOp p o) := by
  unfold Dev.abortOp
  extract_lets d1
  have h1 : d.Works d1 := h.dropOp p o.tag
  refine Dev.Frame.ite (h1.sendGulon _ _) <| Dev.Frame.ite (h1.rebuildSettle _) <| Dev.Frame.ite (h1.programBad o) <|
    Dev.Frame.ite (Dev.Frame.ite h1 (h1.eraseProgress _)) <| Dev.Frame.ite (h1.verifyBad p o _) <| Dev.Frame.ite ?_ h1
  exact h1.trans (.foldl (fun x c => Dev.Works.toShf (.refl x) _ _ _ _ _ _ _ _) _ _)

theorem Dev.Works.abortAll (p : Nat) (mine : POp → Bool) : d.Works (e.abortAll p mine) :=
  h.trans (.foldl (fun x o => Dev.Works.abortOp (.refl x) p o) _ _)

theorem Dev.Works.poisonCw (key col : Nat) : d.Works (e.poisonCw key col) := by
  have hput : ∀ f, d.Works ((e.setFPage key f).inc Reg.SHF_POISON 1) := fun f => (h.setFPage key f).inc (by decide) 1
  unfold Dev.poisonCw
  extract_lets f bad
  refine Dev.Frame.ite h (Dev.Frame.ite ?_ ?_)
  · split
    · exact Dev.Frame.ite h (hput _)
    · exact h
  · split
    · exact Dev.Frame.ite h (hput _)
    · exact h

theorem Dev.Works.poisonColumn (band stripe col : Nat) : d.Works (e.poisonColumn band stripe col) := by
  unfold Dev.poisonColumn
  extract_lets d1
  have h1 : d.Works d1 := h.trans (.foldl (fun x j => Dev.Works.poisonCw (.refl x) _ _) _ _)
  have h2 : d.Works (d1.errIncident 0xB00 0x0102 band (stripe * 16 + col) none none none none) :=
    h1.trans (Dev.Works.of_reports (Dev.Reports.errIncident _ _ _ _ _ _ _ _ _))
  exact h2.raise _ _

theorem Dev.Works.poisonNew (before : List (Nat × Nat)) (band : Nat) : d.Works (e.poisonNew before band) :=
  h.trans (.foldl (fun x _ => Dev.Works.poisonColumn (.refl x) _ _ _) _ _)

theorem Dev.Works.membersGone (before : Dev) (gone : BSet → Bool) (port : Nat) : d.Works (e.membersGone before gone port) := by
  unfold Dev.membersGone
  extract_lets n hit d1 d2
  have h1 : d.Works d1 := by
    refine h.trans (.foldl (fun x b => ?_) _ _)
    extract_lets y
    have hx : x.Works x := .refl x
    split
    · exact hx.setBand _ _
    · exact (hx.closeBand b).queueRebuild b
    · exact (hx.closeBand b).queueRebuild b
    · exact (hx.closeBand b).queueRebuild b
    · exact hx.queueRebuild b
    · exact hx
  have h2 : d.Works d2 := h1.trans (.foldl (fun x b => Dev.Works.poisonNew (.refl x) _ _) _ _)
  exact h2.respace.rbCounts

/-! ### Lines of HBM that are lost -/

theorem Dev.Works.exhaust (kind : Nat) : d.Works (e.exhaust kind) := by
  have hmark : d.Works { e with exhausted := insertSorted e.exhausted kind } := h.hide rfl
  unfold Dev.exhaust
  exact Dev.Frame.ite h (hmark.trans (Dev.Works.of_reports (Dev.Reports.incident _ _ _ _ _ _ _ _ _)))

theorem Dev.Works.mapPageLost (pk : Nat) : d.Works (e.mapPageLost pk) := h.hide rfl

theorem Dev.Works.complete (qid tag status info : Nat) : d.Works (e.complete qid tag status info) :=
  h.trans (Dev.Works.of_posts (Dev.Posts.complete e _ _ _ _))

theorem Dev.Works.unitPoisoned (u : Nat × Nat × Nat) : d.Works (e.unitPoisoned u) := by
  unfold Dev.unitPoisoned
  split
  · exact Dev.Frame.ite h (h.trans (Dev.Works.of_posts (Dev.Posts.setQueue e _ _)))
  · exact h

theorem Dev.Works.potLost (item : PotItem) : d.Works (e.potLost item) := by
  cases item with
  | unit q t i => exact h.unitPoisoned _
  | exportUnit i =>
    have hbad : d.Works { e with exp := { e.exp with bad := insertSorted e.exp.bad i } } := h.hide rfl
    exact Dev.Frame.ite hbad h
  | accumulator p die blk a => exact h.accLost _ _
  | nothing => exact h
  | stripeParity => exact h
  | deltaLog => exact h

theorem Dev.Works.pwPoisonCount : d.Works e.pwPoisonCount := by
  refine h.trans (Dev.Frame.foldl_mem (fun x n hn => Dev.Frame.setFld ?_ _ _ _ (hm := ?_)) e)
  · simp only [workRegs, List.mem_append, List.mem_map]
    exact Or.inl (Or.inr ⟨n, hn, rfl⟩)
  · have hn32 : n < 32 := List.mem_range.mp hn
    simp only [modeRegs, List.mem_cons, List.not_mem_nil, or_false, Reg.SEG_STS, Reg.PWR_MODE_STS, Reg.GLB_DEV_STS]
    omega

theorem Dev.Works.pwPoisoned (lines : List Nat) : d.Works (e.pwPoisoned lines) := by
  have hmark : ∀ l, d.Works { e with pwPoison := l } := fun l => h.hide rfl
  unfold Dev.pwPoisoned
  extract_lets new
  exact Dev.Frame.ite h ((hmark _).pwPoisonCount.raise _ _)

theorem Dev.Works.slotLost (slot : Nat) : d.Works (e.slotLost slot) := by
  have hcache : ∀ c, d.Works { e with cache := c } := fun c => h.hide rfl
  unfold Dev.slotLost
  split
  · exact h
  · exact Dev.Frame.ite (h.complete _ _ _ _) (Dev.Frame.ite h (hcache _))

theorem Dev.Works.trackerLost (k : Nat) : d.Works (e.trackerLost k) := (h.setTrk _ _).setTrk _ _

theorem Dev.Works.lineLost (off : Nat) (item : PotItem) : d.Works (e.lineLost off item) := by
  have hlog : ∀ b, d.Works { e with dlogBad := b } := fun b => h.hide rfl
  unfold Dev.lineLost
  split
  · exact h.potLost item
  · exact Dev.Frame.ite (hlog _) h
  · split
    · exact h.mapPageLost _
    · exact h
  · exact Dev.Frame.ite (h.pwPoisoned _) (Dev.Frame.ite (Dev.Frame.ite (h.slotLost _) h) (h.slotLost _))
  · exact h.trackerLost _
  · exact h

theorem Dev.Works.pwStackPoisoned (k : Nat) : d.Works (e.pwStackPoisoned k) := by
  have hmark : ∀ a b c, d.Works { e with pwPoison := a, pwDead := b, pwCured := c } := fun a b c => h.hide rfl
  unfold Dev.pwStackPoisoned
  extract_lets on d1
  exact Dev.Frame.ite (hmark _ _ _) ((hmark _ _ _).pwPoisonCount.raise _ _)

theorem Dev.Works.stackDead (l : List Nat) (b : Bool) : d.Works { e with hbmDead := l, dlogBad := b } := h.hide rfl

theorem Dev.Works.poisonStack (k : Nat) : d.Works (e.poisonStack k) := by
  unfold Dev.poisonStack
  extract_lets n d1 d2 d3 d4
  have h1 : d.Works d1 := h.trans (.foldl (fun x i => Dev.Works.slotLost (.refl x) i) _ _)
  have h2 : d.Works d2 := h1.pwStackPoisoned k
  have h3 : d.Works d3 := h2.trans (.foldl (fun x pk => Dev.Works.mapPageLost (.refl x) pk) _ _)
  have h4 : d.Works d4 := h3.trans (.foldl (fun x k => Dev.Works.trackerLost (.refl x) k) _ _)
  exact (h4.stackDead _ _).fld (by decide) _ _ _

/-! ### Ports -/

theorem Dev.Works.freeToken (p : Nat) : d.Works (e.freeToken p) := by
  have hput : ∀ b, d.Works (e.setBridge p b) := fun b => h.hide rfl
  unfold Dev.freeToken
  extract_lets b
  exact Dev.Frame.ite (hput _) h

theorem Dev.Works.drawn : d.Works e.drawn := h.hide rfl

theorem Dev.Works.fchCounts : d.Works e.fchCounts := ((h.fld (by decide) _ _ _).fld (by decide) _ _ _).fld (by decide) _ _ _

theorem Dev.Works.bmLogLost (p : Nat) : d.Works (e.bmLogLost p) := by
  unfold Dev.bmLogLost
  split
  · exact h
  · next n hn =>
      have hmem : Reg.SHF_BM_PORT n ∈ workRegs := by
        have hn3 : n ∈ List.range 3 := List.mem_of_find?_eq_some hn
        simp only [workRegs, List.mem_append, List.mem_map]
        exact Or.inl (Or.inl (Or.inr ⟨n, hn3, rfl⟩))
      have hm : Reg.SHF_BM_PORT n ∉ modeRegs := by
        have hn3 : n ∈ List.range 3 := List.mem_of_find?_eq_some hn
        simp only [modeRegs, List.mem_cons, List.not_mem_nil, or_false, Reg.SHF_BM_PORT, Reg.PWR_MODE_STS, Reg.GLB_DEV_STS]
        have hlt : n < 3 := List.mem_range.mp hn3
        omega
      extract_lets d1 d2 others ok
      have h1 : d.Works d1 := (h.recordErr _ _ _ _).raise _ _
      have h2 : d.Works d2 := (h1.flag hmem _ _ hm).flag (by decide) _ _
      split
      · exact h2
      · extract_lets d3 d4
        have h4 : d.Works d4 := ((h2.fld hmem _ _ _ hm).flag hmem _ _ hm).flag (by decide) _ _
        exact (h4.setBmLog _ _).bmCheckpoint

end

/-! ### Dies and ports that fail -/

/-- The registers of a port that its failure, or a die's, changes. -/
def failRegs (p : Nat) : List Nat := workRegs ++ [Reg.FCH_P_STS p, Reg.FCH_P_OUT p, Reg.FCH_P_DFAIL_LO p, Reg.FCH_P_DFAIL_HI p]

/-- `t` comes from `d` by work, and by failures at a port. -/
abbrev Dev.Fails (p : Nat) (d t : Dev) : Prop := Dev.Frame Dev.sansWork (failRegs p) d t

section
variable {d e : Dev} {p : Nat}

theorem Dev.Fails.of_works {t : Dev} (h : e.Works t) : e.Fails p t :=
  Dev.Frame.weaken h (fun _ => rfl) (fun _ ho => List.mem_append_left _ ho)

theorem Dev.Fails.of_lanes {t : Dev} (h : Dev.Lanes p e t) : e.Fails p t := by
  refine Dev.Frame.weaken h (fun _ => rfl) (fun o ho => ?_)
  simp only [laneRegs, List.mem_append, List.mem_cons, List.not_mem_nil, or_false] at ho
  rcases ho with ho | rfl | rfl | rfl | rfl
  · have hwork : ∀ o ∈ reportRegs, o ∈ workRegs := by decide
    exact List.mem_append_left _ (hwork o ho)
  · exact List.mem_append_right _ List.mem_cons_self
  · exact List.mem_append_left _ (by decide)
  · exact List.mem_append_left _ (by decide)
  · exact List.mem_append_left _ (by decide)

variable (h : e.Fails p d)
include h

theorem Dev.Fails.thenWorks {t : Dev} (h' : d.Works t) : e.Fails p t := h.trans (Dev.Fails.of_works h')

theorem Dev.Fails.flag {off : Nat} (hoff : off ∈ failRegs p) (n : Nat) (b : Bool) (hm : off ∉ modeRegs := by decide) :
    e.Fails p (d.setFlag off n b) := h.trans (.setFlag hoff n b (hm := hm))

theorem Dev.Fails.fld {off : Nat} (hoff : off ∈ failRegs p) (hi lo v : Nat) (hm : off ∉ modeRegs := by decide) :
    e.Fails p (d.setFld off hi lo v) := h.trans (.setFld hoff hi lo v (hm := hm))

theorem Dev.Fails.outCounts : e.Fails p (d.outCounts p) := h.trans (.setReg (List.mem_append_right _ (by simp)) _
  (hm := modeRegs_port (k := 0x150) rfl (by decide) (by decide)))

theorem Dev.Fails.dieFail (die cause : Nat) : e.Fails p (d.dieFail p die cause) := by
  unfold Dev.dieFail
  refine Dev.Frame.ite h ?_
  extract_lets before r d1 d2 d3
  have hr : r ∈ failRegs p := by
    simp only [r]
    split
    · exact List.mem_append_right _ (by simp)
    · exact List.mem_append_right _ (by simp)
  have hm : r ∉ modeRegs := by
    simp only [r]
    split
    · exact modeRegs_port (k := 0x10C) rfl (by decide) (by decide)
    · exact modeRegs_port (k := 0x110) rfl (by decide) (by decide)
  have h1 : e.Fails p d1 := h.flag hr _ _ hm
  have h3 : d1.Works d3 := (Dev.Works.raise (Dev.Works.recordErr (.refl _) _ _ _ _) _ _).abortAll _ _
  exact (h1.thenWorks ((h3.membersGone _ _ _).abortAll _ _)).outCounts

omit h in
/-- A port's own registers are none of the work's. -/
theorem workRegs_port {off p k : Nat} (h : off = 0x800000 + k + 0x1000 * p) (hk : 0x100 ≤ k ∧ k < 0x200) (hp : p < 512) : off ∉ workRegs := by
  simp only [workRegs, List.mem_append, List.mem_map, List.mem_range, not_or, not_exists, not_and]
  refine ⟨⟨⟨⟨⟨⟨reportRegs_port h (by omega) hp, ?_⟩, ?_⟩, fun c hc => ?_⟩, fun n hn => ?_⟩, fun n hn => ?_⟩, fun n hn => ?_⟩
  · simp only [postRegs, List.mem_cons, List.not_mem_nil, or_false, Reg.STK_PWC_USED, Reg.STK_PWC_CREDIT, Reg.STK_PWC_STS, Reg.MAP_VALID_LO,
      Reg.MAP_VALID_HI, Reg.MAP_RELOC_LO, Reg.MAP_RELOC_HI, Reg.MAP_DLOG_USED, Reg.MAP_CACHE_DIRTY, Reg.TWN_TX_INV, Reg.TWN_MIR_PEND,
      Reg.VSL_EXP_BEHIND]
    omega
  · simp only [List.mem_cons, List.not_mem_nil, or_false, Reg.ECC_CW_DPAR, Reg.ECC_CW_SHF, Reg.ECC_DPAR_SETS, Reg.ECC_HBM_POISON,
      Reg.ECC_PE_MEAN, Reg.ECC_RFSH_30D, Reg.ECC_VFY_FAIL, Reg.FCH_C_FAILED, Reg.FCH_C_HANDED, Reg.FCH_C_UP, Reg.MAP_BANDS, Reg.MAP_FQ,
      Reg.MAP_GC_BANDS, Reg.MAP_GC_CREDIT, Reg.MAP_GC_STS, Reg.MAP_LIMIT_LO, Reg.MAP_LIMIT_HI, Reg.MAP_META, Reg.MAP_PE_MAX, Reg.MAP_PE_MIN,
      Reg.MAP_QLC_USED, Reg.MAP_SLC_USED, Reg.MAP_RETIRED, Reg.MAP_WM_BG, Reg.MAP_WM_FG, Reg.MAP_WM_HARD, Reg.SHF_BM_COPIES, Reg.SHF_BM_DIRTY,
      Reg.SHF_BM_SEQ_LO, Reg.SHF_BM_SEQ_HI, Reg.SHF_ELOG, Reg.SHF_POISON, Reg.SHF_RB_Q1, Reg.SHF_RB_Q2, Reg.SHF_RB_Q3, Reg.SHF_RB_SPACE,
      Reg.SHF_RB_STS, Reg.SHF_RB_CHUNKS_LO, Reg.SHF_RB_CHUNKS_HI, Reg.STK_POOL, Reg.STK_SHARED, Reg.STK_CR_WAITS]
    omega
  · simp only [Reg.STK_CR_USED]
    omega
  · simp only [Reg.SHF_BM_PORT]
    omega
  · simp only [Reg.SEG_STS]
    omega
  · simp only [Reg.FCH_C_FAILMAP]
    omega

theorem Dev.Fails.setLstate (st : Nat) : e.Fails p (d.setLstate p st) := h.trans (Dev.Fails.of_lanes (Dev.Lanes.setLstate d p st))

end

/-- The device once a failed port is marked: FAILED, its cause recorded, and, where it is handed over, its token freed. -/
def Dev.portMarked (d : Dev) (p cause info1 : Nat) : Dev :=
  let d := d.setLstate p 7
  let d := d.setFlag (Reg.FCH_P_STS p) 7 true
  let d := d.setFlag (Reg.FCH_C_FAILMAP (p / 32)) (p % 32) true
  (d.recordErr (0x800 + p) 0x0101 cause info1).raise (0x800 + p) 1

/-- The hand-over of a failed port to the twin, where it may be. -/
def Dev.handsOver (d : Dev) (p cause : Nat) : Dev :=
  let may := (cause == 1 || cause == 2) && d.flag Reg.FCH_C_CTL 16 && d.paired
  let hand := may && d.freeVal % 2 == 1
  let d := if may then d.drawn else d
  if hand then ((d.setFlag (Reg.FCH_P_STS p) 8 true).setFld (Reg.FCH_P_STS p) 4 3 2).freeToken p else d

/-- What a failed port leaves of its operations and of the bands. -/
def Dev.portEnds (d before : Dev) (p : Nat) (hand : Bool) : Dev :=
  let d := (d.abortAll p (fun _ => true)).fchCounts
  if hand then d else (((d.bmLogLost p).membersGone before (fun s => s.port == p) p).abortAll p (fun _ => true)).outCounts p

theorem Dev.portFail_eq (d : Dev) (p cause info1 : Nat) : ∃ hand, d.portFail p cause info1 =
    (((d.portMarked p cause info1).handsOver p cause).portEnds d p hand) := ⟨_, rfl⟩

section
variable (d : Dev) {p : Nat}

theorem Dev.Fails.portEnds (before : Dev) (hand : Bool) : d.Fails p (d.portEnds before p hand) := by
  unfold Dev.portEnds
  extract_lets d1
  have h1 : d.Works d1 := (Dev.Works.abortAll (.refl d) _ _).fchCounts
  refine Dev.Frame.ite (Dev.Fails.of_works h1) ?_
  exact (Dev.Fails.of_works (((h1.bmLogLost p).membersGone _ _ _).abortAll _ _)).outCounts

theorem Dev.Fails.handsOver (cause : Nat) : d.Fails p (d.handsOver p cause) := by
  have hsts : Reg.FCH_P_STS p ∈ failRegs p := List.mem_append_right _ List.mem_cons_self
  have hm : Reg.FCH_P_STS p ∉ modeRegs := modeRegs_port (k := 0x100) rfl (by decide) (by decide)
  unfold Dev.handsOver
  extract_lets may hand d1
  have h1 : d.Fails p d1 := Dev.Frame.ite (Dev.Fails.of_works (Dev.Works.drawn (.refl d))) (.refl d)
  exact Dev.Frame.ite (Dev.Fails.thenWorks ((h1.flag hsts _ _ hm).fld hsts _ _ _ hm) (Dev.Works.freeToken (.refl _) p)) h1

variable (hp : p < 512)
include hp

theorem Dev.Fails.portMarked (cause info1 : Nat) : d.Fails p (d.portMarked p cause info1) := by
  have hsts : Reg.FCH_P_STS p ∈ failRegs p := List.mem_append_right _ List.mem_cons_self
  have hm : Reg.FCH_P_STS p ∉ modeRegs := modeRegs_port (k := 0x100) rfl (by decide) (by decide)
  have hmap : Reg.FCH_C_FAILMAP (p / 32) ∈ failRegs p := by
    simp only [failRegs, workRegs, List.mem_append, List.mem_map]
    exact Or.inl (Or.inr ⟨p / 32, List.mem_range.mpr (by omega), rfl⟩)
  have hmm : Reg.FCH_C_FAILMAP (p / 32) ∉ modeRegs := by
    simp only [modeRegs, List.mem_cons, List.not_mem_nil, or_false, Reg.FCH_C_FAILMAP, Reg.PWR_MODE_STS, Reg.GLB_DEV_STS]
    omega
  unfold Dev.portMarked
  extract_lets d1 d2 d3
  have h3 : d.Fails p d3 := ((Dev.Fails.setLstate (.refl d) 7).flag hsts _ _ hm).flag hmap _ _ hmm
  exact h3.thenWorks (Dev.Works.raise (Dev.Works.recordErr (.refl d3) _ _ _ _) _ _)

theorem Dev.Fails.portFail (cause info1 : Nat) : d.Fails p (d.portFail p cause info1) := by
  obtain ⟨hand, hfail⟩ := Dev.portFail_eq d p cause info1
  rw [hfail]
  exact (Dev.Fails.portMarked d hp _ _).trans ((Dev.Fails.handsOver _ _).trans (Dev.Fails.portEnds _ _ _))

/-- What ends at a failed port leaves its state. -/
theorem Dev.reg_portEnds (before : Dev) (hand : Bool) : (d.portEnds before p hand).reg (Reg.FCH_P_STS p) = d.reg (Reg.FCH_P_STS p) := by
  have hout : Reg.FCH_P_STS p ≠ Reg.FCH_P_OUT p := by
    simp only [Reg.FCH_P_STS, Reg.FCH_P_OUT]
    omega
  have hkept : ∀ t, d.Works t → t.reg (Reg.FCH_P_STS p) = d.reg (Reg.FCH_P_STS p) := fun t ht =>
    ht.regs _ (workRegs_port (k := 0x100) rfl (by decide) hp)
  unfold Dev.portEnds
  extract_lets d1
  have h1 : d.Works d1 := (Dev.Works.abortAll (.refl d) _ _).fchCounts
  split
  · exact hkept _ h1
  · rw [Dev.outCounts, Dev.reg_setReg_ne _ hout]
    exact hkept _ (((h1.bmLogLost p).membersGone _ _ _).abortAll _ _)

/-- A hand-over keeps a lane's state and its failure mark. -/
theorem Dev.sts_handsOver (cause : Nat) : (d.handsOver p cause).lstate p = d.lstate p ∧
    (d.handsOver p cause).flag (Reg.FCH_P_STS p) 7 = d.flag (Reg.FCH_P_STS p) 7 := by
  unfold Dev.handsOver
  extract_lets may hand d1
  have h1 : d1.reg (Reg.FCH_P_STS p) = d.reg (Reg.FCH_P_STS p) := by
    simp only [d1]
    split <;> rfl
  have hfree : ∀ x : Dev, (x.freeToken p).reg (Reg.FCH_P_STS p) = x.reg (Reg.FCH_P_STS p) := fun x =>
    (Dev.Works.freeToken (.refl x) p).regs _ (workRegs_port (k := 0x100) rfl (by decide) hp)
  split
  · refine ⟨?_, ?_⟩
    · rw [Dev.lstate, Dev.fld, hfree, ← Dev.fld, Dev.fld_setFld_other _ _ _ _ _ _ _ (by decide) (by decide),
        Dev.fld_setFlag_other _ _ _ _ _ _ (by decide) (by decide), Dev.fld, h1]
      rfl
    · rw [Dev.flag, hfree, ← Dev.flag, Dev.flag_setFld_other _ _ _ _ _ _ (by decide) (by decide),
        Dev.flag_setFlag_other _ _ _ _ _ (by decide) (by decide), Dev.flag, h1]
      rfl
  · exact ⟨by rw [Dev.lstate, Dev.fld, h1]; rfl, by rw [Dev.flag, h1]; rfl⟩

theorem Dev.sts_portMarked (cause info1 : Nat) : (d.portMarked p cause info1).lstate p = 7 ∧
    (d.portMarked p cause info1).flag (Reg.FCH_P_STS p) 7 = true ∧
    ((d.page (0x800 + p)).err = false → ((d.portMarked p cause info1).page (0x800 + p)).err = true ∧
      ((d.portMarked p cause info1).page (0x800 + p)).errCode = 0x0101 ∧
      ((d.portMarked p cause info1).page (0x800 + p)).info0 = w32 cause) := by
  have hmap : Reg.FCH_P_STS p ≠ Reg.FCH_C_FAILMAP (p / 32) := by
    simp only [Reg.FCH_P_STS, Reg.FCH_C_FAILMAP]
    omega
  unfold Dev.portMarked
  extract_lets d1 d2 d3
  have hraise := Dev.Reports.raise (d3.recordErr (0x800 + p) 0x0101 cause info1) (0x800 + p) 1
  have hreg : ((d3.recordErr (0x800 + p) 0x0101 cause info1).raise (0x800 + p) 1).reg (Reg.FCH_P_STS p) = d2.reg (Reg.FCH_P_STS p) := by
    rw [hraise.regs _ (sts_notReport hp), Dev.reg_recordErr]
    exact Dev.reg_setFlag_ne d2 hmap _ _
  refine ⟨?_, ?_, fun herr => ?_⟩
  · rw [Dev.lstate, Dev.fld, hreg, ← Dev.fld, Dev.fld_setFlag_other _ _ _ _ _ _ (by decide) (by decide)]
    exact Dev.lstate_setLstate d hp (by decide)
  · rw [Dev.flag, hreg, ← Dev.flag]
    exact Dev.flag_setFlag_self _ _ _ _ (by decide)
  · have h3 : (d3.page (0x800 + p)).err = false := by
      refine Eq.trans ?_ herr
      show (d1.page (0x800 + p)).err = _
      simp only [d1, Dev.setLstate]
      split
      · rfl
      · rw [Dev.capRecFree_eq]
        exact Dev.err_raise _ _ _ _
    have hfirst := Dev.page_recordErr_first d3 (0x800 + p) 0x0101 cause info1 h3
    obtain ⟨hset, hcode, h0, -⟩ := (hraise.page (0x800 + p)).1 (congrArg (·.err) hfirst)
    exact ⟨hset, hcode.trans (congrArg (·.errCode) hfirst), h0.trans (congrArg (·.info0) hfirst)⟩

/-- A port that has failed: its lane is FAILED, it is marked, and its first error names the cause. -/
theorem Dev.portFail_spec (cause info1 : Nat) :
    (d.portFail p cause info1).lstate p = 7 ∧ (d.portFail p cause info1).flag (Reg.FCH_P_STS p) 7 = true ∧
    ((d.page (0x800 + p)).err = false → ((d.portFail p cause info1).page (0x800 + p)).errCode = 0x0101 ∧
      ((d.portFail p cause info1).page (0x800 + p)).info0 = w32 cause) := by
  obtain ⟨hand, hfail⟩ := Dev.portFail_eq d p cause info1
  obtain ⟨hst, hmark, herr⟩ := Dev.sts_portMarked d hp cause info1
  obtain ⟨hst', hmark'⟩ := Dev.sts_handsOver (d.portMarked p cause info1) hp cause
  have hreg := Dev.reg_portEnds ((d.portMarked p cause info1).handsOver p cause) hp d hand
  rw [hfail]
  refine ⟨?_, ?_, fun h => ?_⟩
  · rw [Dev.lstate, Dev.fld, hreg]
    exact hst'.trans hst
  · rw [Dev.flag, hreg]
    exact hmark'.trans hmark
  · obtain ⟨hset, hcode, h0⟩ := herr h
    have hrest := (Dev.Fails.handsOver (p := p) (d.portMarked p cause info1) cause).trans (Dev.Fails.portEnds _ d hand)
    obtain ⟨-, hcode', h0', -⟩ := (hrest.page (0x800 + p)).1 hset
    exact ⟨hcode'.trans hcode, h0'.trans h0⟩

end

end Sys2Proof.Machine
end

section
/-! Lanes and their service (R282 to R289). -/

namespace Sys2Proof.Machine

-- In order, one declaration at a time: keeps the check within its memory limit.
set_option Elab.async false

/-! ### A register write to an open page, whatever its RSVD bits -/

/-- A register write to an open page: RSVD bits written as 1 are recorded, and its effect follows (R38, R45). -/
theorem regWrite_reports (d : Dev) (off : Nat) (v : Word) (eff : Word → Dev → Dev) (r : RegDef) (ho : d.isOpen (off / 0x1000))
    (hr : regDef? off = some r) :
    ∃ d1 d2, d.Arrives d1 ∧ (d2 = d1 ∨ d2 = d1.recordErr (off / 0x1000) 0x0001 (off % 0x1000) 0) ∧ (v &&& w32 r.rsv = 0 → d2 = d1) ∧
      (eff (mergeWrite r (d.reg (canonOff off)) v true) d2).Publishes (regWrite d off v eff) := by
  obtain ⟨d1, harr, hw⟩ := pageWrite_open d off v _ ho
  refine ⟨d1, if v &&& w32 r.rsv != 0 then d1.recordErr (off / 0x1000) 0x0001 (off % 0x1000) 0 else d1, harr, ?_, fun hz => ?_, ?_⟩
  · split
    · exact Or.inr rfl
    · exact Or.inl rfl
  · rw [hz]
    rfl
  · have hreg : (if v &&& w32 r.rsv != 0 then d1.recordErr (off / 0x1000) 0x0001 (off % 0x1000) 0 else d1).reg (canonOff off) =
        d.reg (canonOff off) := by
      split
      · rw [Dev.reg_recordErr, harr.reg]
      · exact harr.reg _
    rw [regWrite, hw]
    simp only [hr, hreg, Bool.not_true, Bool.false_and, Bool.false_eq_true, if_false]
    exact Dev.Publishes.publishWrite _ _ _

/-- A bit of two words merged by a mask. -/
theorem getLsbD_merge (set old v : Word) (n : Nat) :
    (((old &&& ~~~set) ||| (v &&& set)) &&& ~~~(0 : Word)).getLsbD n = if set.getLsbD n = true then v.getLsbD n else old.getLsbD n := by
  have hones : ~~~(0 : Word) = BitVec.allOnes 32 := rfl
  rw [hones, BitVec.and_allOnes, BitVec.getLsbD_or, BitVec.getLsbD_and, BitVec.getLsbD_and, BitVec.getLsbD_not]
  by_cases hn : n < 32
  · cases set.getLsbD n
    · simp [hn]
    · simp
  · simp [BitVec.getLsbD_of_ge v n (by omega), BitVec.getLsbD_of_ge old n (by omega)]

/-- A bit after a write: the one written where the register takes it, the old one elsewhere. -/
theorem bitAt_mergeWrite {r : RegDef} (hw1c : r.w1c = 0) (old v : Word) (n : Nat) :
    bitAt (mergeWrite r old v true) n = if bitAt (w32 (r.rw ||| r.rwl)) n then bitAt v n else bitAt old n := by
  have hzero : v &&& w32 0 = 0 := by simp [w32]
  unfold mergeWrite
  rw [hw1c, hzero, if_pos rfl]
  exact getLsbD_merge (w32 (r.rw ||| r.rwl)) old v n

/-- A field that a register takes reads as written. -/
theorem bits_mergeWrite {r : RegDef} (hw1c : r.w1c = 0) (old v : Word) (hi lo : Nat)
    (h : ∀ i < hi + 1 - lo, bitAt (w32 (r.rw ||| r.rwl)) (lo + i) = true) : bits (mergeWrite r old v true) hi lo = bits v hi lo := by
  apply Nat.eq_of_testBit_eq
  intro i
  rw [testBit_bits, testBit_bits, bitAt_mergeWrite hw1c]
  by_cases hi' : i < hi + 1 - lo
  · rw [h i hi', if_pos rfl]
  · simp [hi']

/-! ### Commands to a bridge -/

/-- A port without what sending commands changes. -/
def Port.sansSend (x : Port) : Port :=
  { x.sansTx with nextTag := 0, asks := [], carryTx := 0, carryRx := 0, dealt := 0, dealtRx := 0 }

theorem Port.sansSend_nextTag (x : Port) (n : Nat) : ({ x with nextTag := n } : Port).sansSend = x.sansSend := rfl

theorem Port.sansSend_asks (x : Port) (m : SMap Nat) : ({ x with asks := m } : Port).sansSend = x.sansSend := rfl

theorem Port.sansSend_dealt (x : Port) (a b c e : Nat) :
    ({ x with carryTx := a, carryRx := b, dealt := c, dealtRx := e } : Port).sansSend = x.sansSend := rfl

/-- `t` comes from `d` by commands sent to a port's bridge. -/
structure Dev.Sends (p : Nat) (d t : Dev) : Prop where
  rest : t = { d with ports := t.ports, out := t.out }
  mine : (t.port p).sansSend = (d.port p).sansSend
  others : ∀ q, q ≠ p → t.port q = d.port q
  out : d.out <+: t.out

section
variable {d e t : Dev} {p : Nat}

theorem Dev.Sends.refl (d : Dev) (p : Nat) : d.Sends p d := ⟨rfl, rfl, fun _ _ => rfl, List.prefix_rfl⟩

theorem Dev.Sends.trans (h : d.Sends p e) (h' : e.Sends p t) : d.Sends p t := by
  refine ⟨?_, h'.mine.trans h.mine, fun q hq => (h'.others q hq).trans (h.others q hq), h.out.trans h'.out⟩
  have hrest := h'.rest
  rw [h.rest] at hrest
  exact hrest

theorem Dev.Sends.foldl {α : Type} {f : Dev → α → Dev} (h : ∀ (e : Dev) x, e.Sends p (f e x)) (l : List α) (d : Dev) : d.Sends p (l.foldl f d) :=
  List.foldlRecOn (motive := fun e : Dev => d.Sends p e) l f (.refl d p) (fun e he x _ => he.trans (h e x))

theorem Dev.Sends.setPort {x : Port} (hx : x.sansSend = (d.port p).sansSend) : d.Sends p (d.setPort p x) :=
  ⟨rfl, by rw [Dev.port_setPort_self]; exact hx, fun _ hq => Dev.port_setPort_ne d p hq x, List.prefix_rfl⟩

theorem Dev.Sends.emit (o : Out) : d.Sends p (d.emit o) := ⟨rfl, rfl, fun _ _ => rfl, List.prefix_append _ _⟩

theorem Dev.Sends.pump (d : Dev) (p : Nat) : d.Sends p (d.pump p) := by
  obtain ⟨x, ⟨hpump, hx, -, hout⟩ | hpump⟩ := Dev.pump_spec d p
  · have hset : d.Sends p (d.setPort p x) := Dev.Sends.setPort (congrArg (fun y : Port =>
      { y with nextTag := 0, asks := [], carryTx := 0, carryRx := 0, dealt := 0, dealtRx := 0 }) hx)
    have hport : ∀ q, (d.pump p).port q = (d.setPort p x).port q := fun q => by rw [hpump]; rfl
    exact ⟨by rw [hpump], by rw [hport]; exact hset.mine, fun q hq => by rw [hport]; exact hset.others q hq, hout⟩
  · rw [hpump]
    exact .refl d p

theorem Dev.Sends.sendData (d : Dev) (p : Nat) (c : LaneCmd) (data : List Nat) : d.Sends p (d.sendData p c data) := by
  unfold Dev.sendData
  extract_lets d1 x fs
  have h1 : d.Sends p d1 := .emit _
  refine h1.trans ((Dev.Sends.setPort ?_).trans (Dev.Sends.pump _ p))
  split <;> rfl

omit p in
/-- An output that a part of a run tells, the whole run tells. -/
theorem Dev.tells_within {d e e' t : Dev} {o : Out} (hd : d.out <+: e.out) (ho : e.tells e' o) (ht : e'.out <+: t.out) : d.tells t o := by
  obtain ⟨l, hl⟩ := ht
  have hlen : d.out.length ≤ e.out.length := hd.length_le
  rw [Dev.tells, ← hl, List.drop_append]
  exact List.mem_append_left _ ((List.drop_sublist_drop_left _ hlen).subset ho)

/-- A command is told to the bridge. -/
theorem Dev.tells_sendData (d : Dev) (p : Nat) (c : LaneCmd) (data : List Nat) : d.tells (d.sendData p c data) (.bridge p c.opc c.words) := by
  unfold Dev.sendData
  extract_lets d1 x fs
  obtain ⟨l, hl⟩ := (Dev.Sends.pump (d1.setPort p (if c.opc = 0x0C then { x with tx1 := x.tx1 ++ fs } else { x with tx0 := x.tx0 ++ fs })) p).out
  refine Dev.tells_of_out [] l (hl.symm.trans ?_)
  exact List.append_assoc d.out [.bridge p c.opc c.words] l

theorem Dev.Sends.sendFresh (d : Dev) (p : Nat) (c : LaneCmd) (data : List Nat) : d.Sends p (d.sendFresh p c data) := by
  unfold Dev.sendFresh
  extract_lets x t
  exact (Dev.Sends.setPort (Port.sansSend_nextTag _ _)).trans (Dev.Sends.sendData _ p _ data)

theorem Dev.Sends.askDie (d : Dev) (p die : Nat) : d.Sends p (d.askDie p die) := by
  unfold Dev.askDie
  extract_lets x t
  exact (Dev.Sends.setPort (Port.sansSend_asks _ _)).trans (Dev.Sends.sendFresh _ p _ _)

theorem Dev.Sends.delayWork (d : Dev) (p : Nat) (dies : List Nat) : d.Sends p (d.delayWork p dies) := by
  have hask : ∀ (l : List Nat) (d : Dev), d.Sends p (l.foldl (fun (d : Dev) i =>
      (d.setPort p { d.port p with
        carryTx := (d.port p).carryTx + 16, carryRx := (d.port p).carryRx + 16, dealt := (d.port p).dealt + 16
        dealtRx := (d.port p).dealtRx + 16 }).askDie p i) d) :=
    fun l d => Dev.Sends.foldl (fun e i => (Dev.Sends.setPort (Port.sansSend_dealt _ _ _ _ _)).trans (Dev.Sends.askDie _ p i)) l d
  exact (hask dies d).trans (Dev.Sends.foldl (fun e i => Dev.Sends.sendFresh e p _ _) _ _)

theorem Dev.Sends.reg (h : d.Sends p t) (off : Nat) : t.reg off = d.reg off := by
  have hregs : t.regs = d.regs := by rw [h.rest]
  rw [Dev.reg, hregs, Dev.reg]

theorem Dev.Sends.bridge (h : d.Sends p t) (q : Nat) : t.bridge q = d.bridge q := by
  have hbridges : t.bridges = d.bridges := by rw [h.rest]
  rw [Dev.bridge, hbridges, Dev.bridge]

end

/-! ### Round trips -/

section
variable (d : Dev) {p : Nat} (hp : p < 512)
include hp

/-- The registers that a measured delay of a port moves. -/
def delayRegs (p : Nat) : List Nat :=
  reportRegs ++ [Reg.FCH_P_RTT p, Reg.FCH_P_RTT_SPREAD p, Reg.DLR_P_DELAY, Reg.DLR_SKEW]

/-- The device without the ports and what reports change. -/
def Dev.sansPorts (d : Dev) : Dev := { d.sansReports with ports := [] }

/-- The registers that a port's delay is published in. -/
def pubRegs : List Nat := reportRegs ++ [Reg.DLR_P_DELAY, Reg.DLR_SKEW]

omit hp in
/-- A write of a port is in no frame without the ports. -/
theorem Dev.sansPorts_setPort (p : Nat) (x : Port) : Dev.Frame Dev.sansPorts pubRegs d (d.setPort p x) := .hidden rfl rfl rfl

omit hp in
theorem Dev.delayPublish_frame (p : Nat) : Dev.Frame Dev.sansPorts pubRegs d (d.delayPublish p) := by
  unfold Dev.delayPublish
  extract_lets dly x d1
  exact (Dev.sansPorts_setPort d p _).trans (Dev.Frame.ite ((Dev.Frame.setFld (by decide) _ _ _).trans (.setFlag (by decide) _ _)) (.refl d1))

/-- A delay that has been measured stands in its registers, and nothing but the port's figures follows it. -/
theorem Dev.delayMeasured_spec (rtt spread : Nat) : Dev.Frame Dev.sansPorts (delayRegs p) d (d.delayMeasured p rtt spread) ∧
    (d.delayMeasured p rtt spread).fld (Reg.FCH_P_RTT p) 19 0 = min rtt (2 ^ 20 - 1) ∧
    (d.delayMeasured p rtt spread).fld (Reg.FCH_P_RTT_SPREAD p) 15 0 = min spread 0xFFFF := by
  have hrtt : Reg.FCH_P_RTT p ∈ delayRegs p := List.mem_append_right _ (by simp)
  have hspread : Reg.FCH_P_RTT_SPREAD p ∈ delayRegs p := List.mem_append_right _ (by simp)
  have hm : ∀ k, k < 0x1000 → k ≠ 0x104 → 0x800000 + k + 0x1000 * p ∉ modeRegs := fun k hk hne => modeRegs_port rfl hk hne
  unfold Dev.delayMeasured
  extract_lets bad d1 x d2 n d3
  have h1 : Dev.Frame Dev.sansPorts (delayRegs p) d d1 := (Dev.Frame.setFld hrtt _ _ _ (hm := hm 0x11C (by decide) (by decide))).trans
    (.setFld hspread _ _ _ (hm := hm 0x120 (by decide) (by decide)))
  have h3 : Dev.Frame Dev.sansPorts pubRegs d1 d3 := by
    have h2 : Dev.Frame Dev.sansPorts pubRegs d1 d2 := (Dev.sansPorts_setPort d1 p _).trans (Dev.delayPublish_frame _ p)
    exact h2.trans ((Dev.Frame.setFld (by decide) _ _ _).trans (.setFld (by decide) _ _ _))
  have h4 : Dev.Frame Dev.sansPorts pubRegs d1 (if bad then (d3.recordErr 0x701 0x0101 p (spread / 2)).raise 0x701 4 else d3) := by
    refine h3.trans (Dev.Frame.ite ?_ (.refl d3))
    exact Dev.Frame.weaken ((Dev.Reports.recordErr d3 _ _ _ _).trans (Dev.Reports.raise _ _ _)) (fun _ => rfl) (by decide)
  have hsub : ∀ off ∈ pubRegs, off ∈ delayRegs p := by
    intro off ho
    simp only [pubRegs, delayRegs, List.mem_append, List.mem_cons, List.not_mem_nil, or_false] at ho ⊢
    tauto
  have hout : Reg.FCH_P_RTT p ∉ pubRegs ∧ Reg.FCH_P_RTT_SPREAD p ∉ pubRegs := by
    simp only [pubRegs, List.mem_append, not_or]
    refine ⟨⟨reportRegs_port (k := 0x11C) rfl (by decide) hp, ?_⟩, reportRegs_port (k := 0x120) rfl (by decide) hp, ?_⟩
    · simp only [List.mem_cons, List.not_mem_nil, or_false, Reg.DLR_P_DELAY, Reg.DLR_SKEW, Reg.FCH_P_RTT]
      omega
    · simp only [List.mem_cons, List.not_mem_nil, or_false, Reg.DLR_P_DELAY, Reg.DLR_SKEW, Reg.FCH_P_RTT_SPREAD]
      omega
  have hne : Reg.FCH_P_RTT p ≠ Reg.FCH_P_RTT_SPREAD p := by
    simp only [Reg.FCH_P_RTT, Reg.FCH_P_RTT_SPREAD]
    omega
  refine ⟨h1.trans (Dev.Frame.weaken h4 (fun _ => rfl) hsub), ?_, ?_⟩
  · rw [Dev.fld, h4.regs _ hout.1, ← Dev.fld, Dev.fld_setFld_ne _ hne, Dev.fld_setFld_self _ _ _ _ _ (by decide)]
    exact Nat.mod_eq_of_lt (Nat.lt_of_le_of_lt (Nat.min_le_right _ _) (by decide))
  · rw [Dev.fld, h4.regs _ hout.2, ← Dev.fld, Dev.fld_setFld_self _ _ _ _ _ (by decide)]
    exact Nat.mod_eq_of_lt (Nat.lt_of_le_of_lt (Nat.min_le_right _ _) (by decide))

end

/-! ### Registers of a port -/

/-- A register of a port has the row of port 0's. -/
theorem regDef_port {k p : Nat} (hk : k < 0x1000) (hp : p < 512) : regDef? (0x800000 + k + 0x1000 * p) = regDef? (0x800000 + k) := by
  have hmod : (0x800000 + k + 0x1000 * p) % 0x1000 = (0x800000 + k) % 0x1000 := by omega
  unfold regDef?
  rw [if_neg (by omega), if_pos (by omega), if_neg (by omega), if_pos (by omega), hmod]

theorem canonOff_port {k p : Nat} (hk : k < 0x800) : canonOff (0x800000 + k + 0x1000 * p) = 0x800000 + k + 0x1000 * p :=
  if_neg (by omega)

/-- A register of a port that no change of a lane's state and no measured delay moves. -/
theorem laneRegs_port {off p k : Nat} (h : off = 0x800000 + k + 0x1000 * p) (hk : 0x104 ≤ k ∧ k < 0x800) (hp : p < 512) : off ∉ laneRegs p := by
  have hrep : off ∉ reportRegs := reportRegs_port h (by omega) hp
  simp only [laneRegs, List.mem_append, List.mem_cons, List.not_mem_nil, or_false, not_or, Reg.FCH_P_STS, Reg.FCH_C_UP, Reg.FCH_C_FAILED, Reg.FCH_C_HANDED]
  exact ⟨hrep, by omega⟩

section
variable (s : State) (p : Nat) (hrun : s.running) (hp : p < 512)
include hrun hp

/-! ### Initialisation -/

/-- A lane that does not reach ACTIVE in time fails its port (R286). -/
theorem portInitTimeout_fails (hlo : 1 ≤ s.dev.lstate p) (hhi : s.dev.lstate p ≤ 4) (hgone : s.dev.portGone p = false)
    (hlate : (s.dev.port p).initTick + s.dev.fld Reg.FCH_C_CTL 15 8 * 1000000 ≤ s.dev.tick) (herr : (s.dev.page (0x800 + p)).err = false) :
    ∃ t, exec (.portInitTimeout p) s = .next t ∧ t.dev.lstate p = 7 ∧ t.dev.flag (Reg.FCH_P_STS p) 7 = true ∧
      (t.dev.page (0x800 + p)).errCode = 0x0101 ∧ (t.dev.page (0x800 + p)).info0 = 1 := by
  have hmod : p % 512 = p := Nat.mod_eq_of_lt hp
  have hbody : doPortInitTimeout p s.dev =
      (if (s.dev.dom (p / 8)).waking then s.dev.recordErr 0xD01 0x0105 (p / 8) p else s.dev).portFail p 1 (s.dev.lstate p) := by
    unfold doPortInitTimeout
    rw [hmod]
    exact if_pos ⟨hlo, hhi, by simp [hgone], hlate⟩
  refine ⟨_, act_of_running s (doPortInitTimeout p) hrun, ?_⟩
  dsimp only
  rw [hbody]
  obtain ⟨hst, hfl, hcode⟩ := Dev.portFail_spec (if (s.dev.dom (p / 8)).waking then s.dev.recordErr 0xD01 0x0105 (p / 8) p else s.dev) hp 1 (s.dev.lstate p)
  refine ⟨hst, hfl, hcode ?_⟩
  split
  · rw [Dev.page_recordErr_ne _ (by omega)]
    exact herr
  · exact herr

omit hrun hp in
/-- A lane that wakes its bridge changes no register and no port. -/
theorem Dev.bridgeWakes_keeps (d : Dev) : (d.bridgeWakes p).regs = d.regs ∧ (d.bridgeWakes p).ports = d.ports := by
  unfold Dev.bridgeWakes
  extract_lets b
  split
  · exact ⟨rfl, rfl⟩
  · split
    · exact ⟨rfl, rfl⟩
    · exact ⟨rfl, rfl⟩

omit hrun hp in
/-- A bridge that the other port does not hold powers up with its lane (R281). -/
theorem Dev.power_bridgeWakes (d : Dev) (h : (d.bridge p).holder ≠ 2 - d.side) : ((d.bridgeWakes p).bridge p).power = 0 := by
  unfold Dev.bridgeWakes
  extract_lets b
  split
  · rename_i hor
    exact hor.resolve_right h
  · split
    · exact congrArg (·.power) (Dev.bridge_setBridge_self d p _)
    · exact congrArg (·.power) (Dev.bridge_setBridge_self d p _)

omit hrun hp in
/-- The lane's way up to DELAY. -/
def Dev.laneSteps (d : Dev) (p : Nat) : Dev :=
  [2, 3, 4].foldl (fun (d : Dev) st => if d.lstate p < st then d.setLstate p st else d) (d.bridgeWakes p)

omit hrun hp in
theorem Dev.laneSteps_lanes (d : Dev) : Dev.Lanes p (d.bridgeWakes p) (d.laneSteps p) :=
  Dev.Frame.foldl (fun e st => Dev.Frame.ite (Dev.Lanes.setLstate e p st) (.refl e)) _ _

omit hrun in
/-- A lane in DETECT is in service with the median of its round trips (R282, R284). -/
theorem laneActive_up (hlo : 1 ≤ s.dev.lstate p) (hhi : s.dev.lstate p ≤ 4) (rtts : List Nat) (hr : ∀ r ∈ rtts, r < 2 ^ 20) :
    (doLaneActive p rtts s.dev).lstate p = 5 ∧
    (doLaneActive p rtts s.dev).fld (Reg.FCH_P_RTT p) 19 0 = min (medianOf rtts) (2 ^ 20 - 1) ∧
    (doLaneActive p rtts s.dev).fld (Reg.FCH_P_RTT_SPREAD p) 15 0 = min (rtts.foldl max 0 - rtts.foldl min (rtts.foldl max 0)) 0xFFFF ∧
    ((s.dev.bridge p).holder ≠ 2 - s.dev.side → ((doLaneActive p rtts s.dev).bridge p).power = 0) := by
  have hmod : p % 512 = p := Nat.mod_eq_of_lt hp
  have hrs : rtts.map (· % 2 ^ 20) = rtts := (List.map_congr_left (fun r h => Nat.mod_eq_of_lt (hr r h))).trans (List.map_id' rtts)
  obtain ⟨e, he⟩ : ∃ e, e = (s.dev.laneSteps p).delayWork p ((s.dev.laneSteps p).askedDies p) := ⟨_, rfl⟩
  have hbody : doLaneActive p rtts s.dev = (e.roundTrips p rtts).setLstate p 5 := by
    rw [he]
    unfold doLaneActive
    rw [hmod, hrs]
    exact if_pos ⟨hlo, hhi⟩
  obtain ⟨hframe, hrtt, hspread⟩ := Dev.delayMeasured_spec e hp (medianOf rtts) (rtts.foldl max 0 - rtts.foldl min (rtts.foldl max 0))
  have hlanes : Dev.Lanes p (e.roundTrips p rtts) ((e.roundTrips p rtts).setLstate p 5) := Dev.Lanes.setLstate _ p 5
  rw [hbody]
  refine ⟨Dev.lstate_setLstate _ hp (by decide), ?_, ?_, fun hh => ?_⟩
  · rw [Dev.fld, hlanes.regs _ (laneRegs_port (k := 0x11C) rfl (by decide) hp)]
    exact hrtt
  · rw [Dev.fld, hlanes.regs _ (laneRegs_port (k := 0x120) rfl (by decide) hp)]
    exact hspread
  · have hb1 : ((e.roundTrips p rtts).setLstate p 5).bridges = e.bridges :=
      (congrArg (·.bridges) hlanes.kept).trans (congrArg (·.bridges) hframe.kept)
    have hb2 : (s.dev.laneSteps p).bridges = (s.dev.bridgeWakes p).bridges := congrArg (·.bridges) (Dev.laneSteps_lanes p s.dev).kept
    have hb3 : e.bridge p = (s.dev.laneSteps p).bridge p := by
      rw [he]
      exact (Dev.Sends.delayWork _ p _).bridge p
    rw [Dev.bridge, hb1, ← Dev.bridge, hb3, Dev.bridge, hb2, ← Dev.bridge]
    exact Dev.power_bridgeWakes p s.dev hh

omit hrun hp in
/-- A port whose flits count as not sent again. -/
def Port.uncounted (x : Port) : Port := { x with txBuf := x.txBuf.map (fun fc => (fc.1, 0)) }

omit hrun hp in
/-- A replay from fresh counts keeps the lane's state. -/
theorem Dev.lstate_replay_uncounted (d : Dev) : ((d.setPort p (d.port p).uncounted).replay p).lstate p = d.lstate p := by
  have hport : (d.setPort p (d.port p).uncounted).port p = (d.port p).uncounted := Dev.port_setPort_self d p _
  by_cases hbuf : ((d.setPort p (d.port p).uncounted).port p).txBuf = []
  · have hsame : (d.setPort p (d.port p).uncounted).replay p = d.setPort p (d.port p).uncounted := by
      unfold Dev.replay
      exact if_pos (List.isEmpty_iff.mpr hbuf)
    rw [hsame]
    rfl
  · have hfew : (((d.setPort p (d.port p).uncounted).port p).again (d.setPort p (d.port p).uncounted).tick).txBuf.any (fun fc => decide (4 ≤ fc.2)) = false := by
      rw [hport]
      simp [Port.again, Port.uncounted]
    obtain ⟨-, -, hregs, -⟩ := Dev.resent_spec (d.setPort p (d.port p).uncounted) p
    rw [Dev.replay_eq _ _ hbuf, hfew]
    have hsts : Reg.FCH_P_STS p ≠ Reg.FCH_P_REPLAY p := by
      simp only [Reg.FCH_P_STS, Reg.FCH_P_REPLAY]
      omega
    exact congrArg (fun w => bits w 2 0) (hregs _ hsts)

omit hrun in
/-- A lane in RECOVERY comes back to ACTIVE (R258). -/
theorem laneActive_back (hl : s.dev.lstate p = 6) (rtts : List Nat) : (doLaneActive p rtts s.dev).lstate p = 5 := by
  have hmod : p % 512 = p := Nat.mod_eq_of_lt hp
  obtain ⟨e, he⟩ : ∃ e, e = (s.dev.bridgeWakes p).setLstate p 5 := ⟨_, rfl⟩
  obtain ⟨e2, he2⟩ : ∃ e2, e2 = (((e.setPort p (e.port p).uncounted).replay p).pump p).delayWork p [] := ⟨_, rfl⟩
  have hbody : doLaneActive p rtts s.dev = e2.roundTrips p (rtts.map (· % 2 ^ 20)) := by
    rw [he2, he]
    unfold doLaneActive
    rw [hmod]
    exact (if_neg (by omega)).trans (if_pos hl)
  have hsts : Reg.FCH_P_STS p ∉ delayRegs p := by
    have hrep := sts_notReport hp
    simp only [delayRegs, List.mem_append, List.mem_cons, List.not_mem_nil, or_false, not_or, Reg.FCH_P_STS, Reg.FCH_P_RTT, Reg.FCH_P_RTT_SPREAD,
      Reg.DLR_P_DELAY, Reg.DLR_SKEW] at hrep ⊢
    exact ⟨hrep, by omega⟩
  have h1 : (e2.roundTrips p (rtts.map (· % 2 ^ 20))).lstate p = e2.lstate p :=
    congrArg (fun w => bits w 2 0) ((Dev.delayMeasured_spec e2 hp _ _).1.regs _ hsts)
  have h2 : e2.lstate p = ((e.setPort p (e.port p).uncounted).replay p).lstate p := by
    rw [he2]
    exact congrArg (fun w => bits w 2 0) (((Dev.Sends.pump _ p).trans (Dev.Sends.delayWork _ p [])).reg _)
  rw [hbody, h1, h2, Dev.lstate_replay_uncounted p, he]
  exact Dev.lstate_setLstate _ hp (by decide)

/-! ### A new package -/

omit hrun hp in
/-- A withdrawn band comes back: its sets on the port's new package are erased (R21). -/
def Dev.bandBack (p : Nat) (d : Dev) (b : Nat) : Dev :=
  let js := (List.range 19).zip (d.setsOf b)
  let d := d.setBand b { d.band b with st := .erasing, sets := d.setsOf b, erasedSets := (js.filter (fun js => js.2.port != p)).map Prod.fst }
  ((js.filter (fun js => js.2.port == p)).foldl (fun (d : Dev) js => d.addOp p (mkOp 0x03 .erase 3 0 b 0 js.1 js.2.die js.2.block 0 false)) d).journalBand b 6

omit hrun hp in
theorem Dev.Works.bandBack {d e : Dev} (h : d.Works e) (b : Nat) : d.Works (Dev.bandBack p e b) := by
  unfold Dev.bandBack
  extract_lets js old e1
  have h1 : d.Works e1 := h.setBand b _
  exact Dev.Works.journal (h1.trans (Dev.Frame.foldl (fun e js => Dev.Works.addOp (.refl e) p _) _ _)) _

omit hrun hp in
/-- A port all of whose operations are erases. -/
def Dev.onlyErases (d : Dev) (p : Nat) : Prop := ∀ o ∈ (d.port p).ops, o.opc = 0x03

omit hrun hp in
theorem Dev.onlyErases_of_ports {d t : Dev} (h : t.ports = d.ports) (hd : d.onlyErases p) : t.onlyErases p := by
  unfold Dev.onlyErases
  rw [Dev.port, h]
  exact hd

omit hrun hp in
theorem Dev.onlyErases_remote (d : Dev) (hd : d.onlyErases p) (o : POp) (ho : o.opc = 0x03) : (d.remote p o).onlyErases p := by
  have hset : (d.setPort p ((d.port p).setOp { o with stage := .running, sent := some d.gTx })).onlyErases p := by
    intro y hy
    rw [Dev.port_setPort_self] at hy
    obtain ⟨x, hx, rfl⟩ := List.mem_map.mp hy
    split
    · exact ho
    · exact hd x hx
  unfold Dev.remote
  rw [if_neg (by rw [ho]; decide)]
  exact Dev.onlyErases_of_ports p (congrArg (·.ports) (Dev.Posts.sendGulon _ _ _).kept) hset

omit hrun hp in
theorem Dev.onlyErases_addOp (d : Dev) (hd : d.onlyErases p) (o : POp) (ho : o.opc = 0x03) : (d.addOp p o).onlyErases p := by
  have hset : ∀ (x : Port) (a : POp), x = d.port p → a.opc = 0x03 →
      (d.setPort p { x with ops := x.ops ++ [a], nextTag := (x.freeTag + 1) % 4096 }).onlyErases p := by
    intro x a hx ha y hy
    rw [Dev.port_setPort_self] at hy
    rcases List.mem_append.mp hy with hy | hy
    · exact hd y (hx ▸ hy)
    · rw [List.mem_singleton.mp hy]
      exact ha
  unfold Dev.addOp
  extract_lets x t o' d1
  have h1 : d1.onlyErases p := hset x o' rfl ho
  split
  · exact Dev.onlyErases_remote p d1 h1 o' ho
  · exact h1

omit hrun hp in
theorem Dev.onlyErases_bandBack (d : Dev) (hd : d.onlyErases p) (b : Nat) : (Dev.bandBack p d b).onlyErases p := by
  unfold Dev.bandBack
  extract_lets js old d1
  have h1 : d1.onlyErases p := Dev.onlyErases_of_ports p rfl hd
  refine Dev.onlyErases_of_ports p (congrArg (·.ports) (Dev.Posts.journal _ _).kept) ?_
  exact List.foldlRecOn (motive := fun e : Dev => e.onlyErases p) _ _ h1 (fun e he js _ => Dev.onlyErases_addOp p e he _ rfl)

omit hrun hp in
/-- A new package's registers, and its port's operations. -/
theorem Dev.newPackage_spec (d : Dev) : (∀ off ∉ workRegs, (d.newPackage p).reg off = d.reg off) ∧
    (d.onlyErases p → (d.newPackage p).onlyErases p) := by
  unfold Dev.newPackage
  extract_lets d1 here d2 back
  have hregs : d2.regs = d.regs := rfl
  have hports : d2.ports = d.ports := rfl
  refine ⟨fun off hoff => ?_, fun hd => ?_⟩
  · have hw : d2.Works (back.foldl (Dev.bandBack p) d2) := Dev.Frame.foldl (fun e b => Dev.Works.bandBack p (.refl e) b) _ _
    refine (hw.regs off hoff).trans ?_
    rw [Dev.reg, hregs, Dev.reg]
  · exact List.foldlRecOn (motive := fun e : Dev => e.onlyErases p) back (Dev.bandBack p) (Dev.onlyErases_of_ports p hports hd)
      (fun e he b _ => Dev.onlyErases_bandBack p e he b)

omit hrun in
/-- A re-initialised lane moves its state field alone of the registers of the port beside FCH_P_OUT. -/
theorem Dev.reg_reinit (d : Dev) : (∀ off ∉ laneRegs p, off ≠ Reg.FCH_P_OUT p → (d.reinit p).reg off = d.reg off) ∧
    (d.reinit p).flag (Reg.FCH_P_STS p) 7 = d.flag (Reg.FCH_P_STS p) 7 := by
  have hbridge : ∀ (e : Dev) off, off ≠ Reg.FCH_P_OUT p → (e.bridgeReinit p).reg off = e.reg off := by
    intro e off hne
    unfold Dev.bridgeReinit
    extract_lets b e1
    have he1 : e1.regs = e.regs := by
      simp only [e1]
      split
      · rfl
      · rfl
    rw [Dev.outCounts, Dev.reg_setReg_ne _ hne, Dev.reg, he1, Dev.reg]
  refine ⟨fun off hoff hne => ?_, ?_⟩
  · exact (hbridge _ off hne).trans ((Dev.Lanes.setLstate d p 1).regs off hoff)
  · have hne : Reg.FCH_P_STS p ≠ Reg.FCH_P_OUT p := by
      simp only [Reg.FCH_P_STS, Reg.FCH_P_OUT]
      omega
    have hset : (d.setLstate p 1).flag (Reg.FCH_P_STS p) 7 = d.flag (Reg.FCH_P_STS p) 7 := by
      by_cases h : d.lstate p = 1
      · rw [Dev.setLstate, if_pos h]
      · rw [Dev.flag, Dev.reg_setLstate d hp h, bitAt_putBits_ne _ _ _ _ _ (by omega) (by omega), ← Dev.flag]
    exact (congrArg (fun w => bitAt w 7) (hbridge _ _ hne)).trans hset

/-! ### Service (R282, R288) -/

omit hrun hp in
/-- The row of FCH_P_SVC. -/
def svcRow : RegDef := ⟨"FCH_P_SVC", 0x800170, 1, 0x4, 0x0, 0x0, 0x0, 0x0, 0x3, 0xFFFFFFFC, false, false, false⟩

omit hrun in
/-- A write of FCH_P_SVC to an open page: an effect on the device that the write reached, published. -/
theorem portSvcWrite (d : Dev) (v : Word) (eff : Dev → Dev) (ho : d.isOpen (0x800 + p)) :
    ∃ d1 d2, d.Arrives d1 ∧ (d2 = d1 ∨ d2 = d1.recordErr (0x800 + p) 0x0001 0x170 0) ∧ (v &&& 0xFFFFFFFC = 0 → d2 = d1) ∧
      (eff d2).Publishes (regWrite d (Reg.FCH_P_SVC p) v (fun _ => eff)) := by
  have hpg : Reg.FCH_P_SVC p / 0x1000 = 0x800 + p := by
    simp only [Reg.FCH_P_SVC]
    omega
  have hrel : Reg.FCH_P_SVC p % 0x1000 = 0x170 := by
    simp only [Reg.FCH_P_SVC]
    omega
  have hrow : regDef? (Reg.FCH_P_SVC p) = some svcRow := (regDef_port (k := 0x170) (by decide) hp).trans rfl
  obtain ⟨d1, d2, h1, h2, h3, h4⟩ := regWrite_reports d (Reg.FCH_P_SVC p) v (fun _ => eff) svcRow (by rw [hpg]; exact ho) hrow
  rw [hpg, hrel] at h2
  exact ⟨d1, d2, h1, h2, h3, h4⟩

omit hrun hp in
theorem Dev.en_recordErr_self (d : Dev) (pg code i0 i1 : Nat) : ((d.recordErr pg code i0 i1).page pg).en = (d.page pg).en := by
  by_cases herr : (d.page pg).err = false
  · rw [Dev.page_recordErr_first _ _ _ _ _ herr]
  · rw [Dev.page_recordErr_later _ _ _ _ _ (by simpa using herr)]

omit hrun hp in
/-- What the write that reaches a page leaves of the device the effect sees. -/
theorem svc_keeps {d d1 d2 : Dev} (h1 : d.Arrives d1) (h2 : d2 = d1 ∨ d2 = d1.recordErr (0x800 + p) 0x0001 0x170 0) :
    d2.ports = d.ports ∧ (∀ off, d2.reg off = d.reg off) ∧ (d2.page (0x800 + p)).en = (d.page (0x800 + p)).en := by
  have hen : (d1.page (0x800 + p)).en = (d.page (0x800 + p)).en := congrArg (·.en) (h1.body _)
  have hports : d1.ports = d.ports := by
    obtain ⟨_, _, rfl, -⟩ := h1
    rfl
  rcases h2 with rfl | rfl
  · exact ⟨hports, h1.reg, hen⟩
  · refine ⟨?_, fun off => ?_, ?_⟩
    · rw [← hports]
      exact congrArg (·.ports) (Dev.Reports.recordErr d1 _ _ _ _).kept
    · rw [Dev.reg_recordErr, h1.reg]
    · exact (Dev.en_recordErr_self d1 _ _ _ _).trans hen

omit hrun hp in
/-- The port without a failure mark and without operations, before its new package (R288). -/
def Dev.recommissioned (d : Dev) (p : Nat) : Dev :=
  let d := (d.setFlag (Reg.FCH_P_STS p) 7 false).setFlag (Reg.FCH_P_STS p) 8 false
  let d := ((d.setReg (Reg.FCH_P_DFAIL_LO p) 0).setReg (Reg.FCH_P_DFAIL_HI p) 0).setFlag (Reg.FCH_C_FAILMAP (p / 32)) (p % 32) false
  d.setPort p { d.port p with ops := [], susOpen := [], susArms := [], susMiss := [], susDue := [], slots := [], timeouts := [], recovs := [] }

omit hrun hp in
theorem Dev.reg_setPort (d : Dev) (q : Nat) (x : Port) (off : Nat) : (d.setPort q x).reg off = d.reg off := rfl

omit hrun hp in
theorem Dev.recommissioned_spec (d : Dev) : (d.recommissioned p).flag (Reg.FCH_P_STS p) 7 = false ∧
    (d.recommissioned p).reg (Reg.FCH_P_DFAIL_LO p) = 0 ∧ (d.recommissioned p).reg (Reg.FCH_P_DFAIL_HI p) = 0 ∧
    (d.recommissioned p).onlyErases p := by
  have hne : Reg.FCH_P_STS p ≠ Reg.FCH_C_FAILMAP (p / 32) ∧ Reg.FCH_P_STS p ≠ Reg.FCH_P_DFAIL_HI p ∧ Reg.FCH_P_STS p ≠ Reg.FCH_P_DFAIL_LO p ∧
      Reg.FCH_P_DFAIL_LO p ≠ Reg.FCH_C_FAILMAP (p / 32) ∧ Reg.FCH_P_DFAIL_HI p ≠ Reg.FCH_C_FAILMAP (p / 32) ∧
      Reg.FCH_P_DFAIL_LO p ≠ Reg.FCH_P_DFAIL_HI p := by
    simp only [Reg.FCH_P_STS, Reg.FCH_P_DFAIL_LO, Reg.FCH_P_DFAIL_HI, Reg.FCH_C_FAILMAP]
    omega
  obtain ⟨hs1, hs2, hs3, hl1, hh1, hl2⟩ := hne
  unfold Dev.recommissioned
  refine ⟨?_, ?_, ?_, fun o ho => ?_⟩
  · refine Eq.trans (congrArg (fun w => bitAt w 7) (Dev.reg_setPort _ _ _ _)) ?_
    rw [← Dev.flag, Dev.flag_setFlag_ne _ hs1, Dev.flag_setReg_ne _ hs2, Dev.flag_setReg_ne _ hs3,
      Dev.flag_setFlag_other _ _ _ _ _ (by decide) (by decide), Dev.flag_setFlag_self _ _ _ _ (by decide)]
  · rw [Dev.reg_setPort, Dev.reg_setFlag_ne _ hl1, Dev.reg_setReg_ne _ hl2, Dev.reg_setReg_self]
  · rw [Dev.reg_setPort, Dev.reg_setFlag_ne _ hh1, Dev.reg_setReg_self]
  · rw [Dev.port_setPort_self] at ho
    cases ho

omit hrun hp in
theorem Dev.Publishes.port {d t : Dev} (h : d.Publishes t) (q : Nat) : t.port q = d.port q := by
  obtain ⟨_, _, _, rfl, -⟩ := h
  rfl

omit hrun hp in
theorem Dev.Publishes.ports {d t : Dev} (h : d.Publishes t) : t.ports = d.ports := by
  obtain ⟨_, _, _, rfl, -⟩ := h
  rfl

omit hrun hp in
theorem Dev.Publishes.out {d t : Dev} (h : d.Publishes t) : t.out = d.out := by
  obtain ⟨_, _, _, rfl, -⟩ := h
  rfl

omit hrun hp in
theorem Dev.Arrives.ports {d t : Dev} (h : d.Arrives t) : t.ports = d.ports := by
  obtain ⟨_, _, rfl, -⟩ := h
  rfl

omit hrun hp in
/-- The counts of bands and lanes are registers and the credit of collection. -/
theorem Dev.ports_respace (d : Dev) : d.respace.fchCounts.ports = d.ports := by
  have hcounts : ∀ e : Dev, e.fchCounts.ports = e.ports := fun _ => rfl
  have hraise : ∀ (e : Dev) pg b, (e.raise pg b).ports = e.ports := fun e pg b => congrArg (·.ports) (Dev.Reports.raise e pg b).kept
  have hfld : ∀ (e : Dev) off hi lo v, (e.setFld off hi lo v).ports = e.ports := fun _ _ _ _ _ => rfl
  have hreg : ∀ (e : Dev) off v, (e.setReg off v).ports = e.ports := fun _ _ _ => rfl
  have h64 : ∀ (e : Dev) a b v, (e.set64 a b v).ports = e.ports := fun _ _ _ _ => rfl
  rw [hcounts]
  unfold Dev.respace
  extract_lets bs withdrawn nS nMeta nQ nSlc d1 d2 d3 d4 d5 d6 d7 d8 cLog d9 old new d10 d11 d12
  have h9 : d9.ports = d.ports := by simp only [d1, d2, d3, d4, d5, d6, d7, d8, d9, hfld, h64]
  have h10 : d10.ports = d9.ports := by
    simp only [d10]
    split
    · rfl
    · rfl
  have h12 : d12.ports = d.ports := by
    simp only [d11, d12, hfld, hreg]
    exact h10.trans h9
  split
  · exact h12
  · rw [hraise]
    exact h12

omit hrun hp in
theorem Port.reinit_erases {x : Port} {tick : Nat} (h : ∀ o ∈ x.ops, o.opc = 0x03) : ∀ o ∈ (x.reinit tick).ops, o.opc = 0x03 := by
  intro o ho
  obtain ⟨y, hy, rfl⟩ := List.mem_map.mp ho
  have hopc : (y.reinit tick).opc = y.opc := by
    unfold POp.reinit
    split
    · rfl
    · split
      · rfl
      · rfl
  rw [hopc]
  exact h y hy

omit hrun in
/-- RECOMMISSION of a disabled port: its marks are gone and its lane starts again (R288). -/
theorem recommission_off (v : Word) (ho : s.dev.isOpen (0x800 + p)) (hv : bitAt v 0 = true) (hen : (s.dev.page (0x800 + p)).en = false) :
    (doRecommission p v s.dev).lstate p = 1 ∧ (doRecommission p v s.dev).flag (Reg.FCH_P_STS p) 7 = false ∧
    (doRecommission p v s.dev).reg (Reg.FCH_P_DFAIL_LO p) = 0 ∧ (doRecommission p v s.dev).reg (Reg.FCH_P_DFAIL_HI p) = 0 ∧
    ∀ o ∈ ((doRecommission p v s.dev).port p).ops, o.opc = 0x03 := by
  obtain ⟨eff, heff⟩ : ∃ eff : Dev → Dev, eff = fun d => if !bitAt v 0 then d else if (d.page (0x800 + p)).en then
      d.recordErr (0x800 + p) 0x0100 0x170 v.toNat else (((d.recommissioned p).newPackage p).reinit p).respace.fchCounts := ⟨_, rfl⟩
  have hbody : doRecommission p v s.dev = regWrite s.dev (Reg.FCH_P_SVC p) v (fun _ => eff) := by
    rw [heff]
    unfold doRecommission
    rw [Nat.mod_eq_of_lt hp]
    rfl
  obtain ⟨d1, d2, harr, hrep, -, hpub⟩ := portSvcWrite p hp s.dev v eff ho
  obtain ⟨-, -, hen2⟩ := svc_keeps p harr hrep
  have hd2 : eff d2 = (((d2.recommissioned p).newPackage p).reinit p).respace.fchCounts := by
    rw [heff]
    simp only [hv, hen2, hen, Bool.not_true, Bool.false_eq_true, if_false]
  rw [hbody]
  rw [hd2] at hpub
  obtain ⟨hflag, hlo, hhi, hops⟩ := Dev.recommissioned_spec p d2
  obtain ⟨hpackregs, hpackops⟩ := Dev.newPackage_spec p (d2.recommissioned p)
  obtain ⟨hlst, hport⟩ := Dev.reinit_spec p hp ((d2.recommissioned p).newPackage p)
  obtain ⟨hregs, hflag7⟩ := Dev.reg_reinit p hp ((d2.recommissioned p).newPackage p)
  have hw : (((d2.recommissioned p).newPackage p).reinit p).Works (((d2.recommissioned p).newPackage p).reinit p).respace.fchCounts :=
    (Dev.Works.respace (.refl _)).fchCounts
  have hsts : Reg.FCH_P_STS p ∉ workRegs := workRegs_port (k := 0x100) rfl (by decide) hp
  have hfail : ∀ off k, off = 0x800000 + k + 0x1000 * p → 0x104 ≤ k → k < 0x200 → off ≠ Reg.FCH_P_OUT p →
      (regWrite s.dev (Reg.FCH_P_SVC p) v (fun _ => eff)).reg off = (d2.recommissioned p).reg off := by
    intro off k hoff hk1 hk2 hout
    have hnw : off ∉ workRegs := workRegs_port hoff (by omega) hp
    rw [hpub.reg, hw.regs _ hnw, hregs off (laneRegs_port hoff (by omega) hp) hout, hpackregs off hnw]
  refine ⟨?_, ?_, ?_, ?_, ?_⟩
  · rw [Dev.lstate, hpub.fld, Dev.fld, hw.regs _ hsts]
    exact hlst
  · rw [hpub.flag, Dev.flag, hw.regs _ hsts, ← Dev.flag, hflag7, Dev.flag, hpackregs _ hsts]
    exact hflag
  · rw [hfail (Reg.FCH_P_DFAIL_LO p) 0x10C rfl (by decide) (by decide) (by simp only [Reg.FCH_P_DFAIL_LO, Reg.FCH_P_OUT]; omega)]
    exact hlo
  · rw [hfail (Reg.FCH_P_DFAIL_HI p) 0x110 rfl (by decide) (by decide) (by simp only [Reg.FCH_P_DFAIL_HI, Reg.FCH_P_OUT]; omega)]
    exact hhi
  · have hports : (regWrite s.dev (Reg.FCH_P_SVC p) v (fun _ => eff)).port p = (((d2.recommissioned p).newPackage p).reinit p).port p := by
      rw [hpub.port, Dev.port, Dev.ports_respace, Dev.port]
    rw [hports, hport]
    exact Port.reinit_erases (hpackops hops)

omit hrun in
/-- RECOMMISSION of an enabled port is refused (R288). -/
theorem recommission_on (v : Word) (ho : s.dev.isOpen (0x800 + p)) (hv : bitAt v 0 = true) (hen : (s.dev.page (0x800 + p)).en = true)
    (herr : (s.dev.page (0x800 + p)).err = false) (hrsv : v &&& 0xFFFFFFFC = 0) :
    ((doRecommission p v s.dev).page (0x800 + p)).errCode = 0x0100 ∧ (doRecommission p v s.dev).ports = s.dev.ports := by
  obtain ⟨eff, heff⟩ : ∃ eff : Dev → Dev, eff = fun d => if !bitAt v 0 then d else if (d.page (0x800 + p)).en then
      d.recordErr (0x800 + p) 0x0100 0x170 v.toNat else (((d.recommissioned p).newPackage p).reinit p).respace.fchCounts := ⟨_, rfl⟩
  have hbody : doRecommission p v s.dev = regWrite s.dev (Reg.FCH_P_SVC p) v (fun _ => eff) := by
    rw [heff]
    unfold doRecommission
    rw [Nat.mod_eq_of_lt hp]
    rfl
  obtain ⟨d1, d2, harr, -, hclean, hpub⟩ := portSvcWrite p hp s.dev v eff ho
  rw [hclean hrsv] at hpub
  have hen1 : (d1.page (0x800 + p)).en = true := (congrArg (·.en) (harr.body _)).trans hen
  have herr1 : (d1.page (0x800 + p)).err = false := (congrArg (·.err) (harr.body _)).trans herr
  have heff1 : eff d1 = d1.recordErr (0x800 + p) 0x0100 0x170 v.toNat := by
    rw [heff]
    simp only [hv, hen1, Bool.not_true, Bool.false_eq_true, if_false, if_true]
  rw [heff1] at hpub
  rw [hbody]
  refine ⟨?_, ?_⟩
  · refine (congrArg (·.errCode) (hpub.body _)).trans ?_
    exact congrArg (·.errCode) (Dev.page_recordErr_first _ _ _ _ _ herr1)
  · refine hpub.ports.trans ?_
    rw [show (d1.recordErr (0x800 + p) 0x0100 0x170 v.toNat).ports = d1.ports from congrArg (·.ports) (Dev.Reports.recordErr d1 _ _ _ _).kept]
    exact harr.ports

omit hrun in
/-- RETRAIN of an ACTIVE lane (R282). -/
theorem retrain_active (v : Word) (ho : s.dev.isOpen (0x800 + p)) (hv : bitAt v 1 = true) (hl : s.dev.lstate p = 5)
    (hlim : (s.dev.port p).recovs.length < s.dev.fld Reg.FCH_C_CTL 7 0) : (doRetrain p v s.dev).lstate p = 6 := by
  obtain ⟨eff, heff⟩ : ∃ eff : Dev → Dev, eff = fun d => if bitAt v 1 && d.lstate p == 5 then d.enterRecovery p else d := ⟨_, rfl⟩
  have hbody : doRetrain p v s.dev = regWrite s.dev (Reg.FCH_P_SVC p) v (fun _ => eff) := by
    rw [heff]
    unfold doRetrain
    rw [Nat.mod_eq_of_lt hp]
  obtain ⟨d1, d2, harr, hrep, -, hpub⟩ := portSvcWrite p hp s.dev v eff ho
  obtain ⟨hports, hregs, -⟩ := svc_keeps p harr hrep
  have hl2 : d2.lstate p = 5 := (congrArg (fun w => bits w 2 0) (hregs _)).trans hl
  have hport : d2.port p = s.dev.port p := by rw [Dev.port, hports, Dev.port]
  have hlim2 : (d2.port p).recovs.length < d2.fld Reg.FCH_C_CTL 7 0 := by
    rw [hport, Dev.fld, hregs, ← Dev.fld]
    exact hlim
  have heff2 : eff d2 = d2.enterRecovery p := by
    rw [heff]
    simp only [hv, hl2, beq_self_eq_true, Bool.and_self, if_true]
  rw [hbody, Dev.lstate, hpub.fld, heff2]
  exact (Dev.enterRecovery_spec d2 hp hlim2).1

/-! ### Lane tests (R283) -/

omit hrun hp in
/-- The row of FCH_P_TEST_CTL. -/
def testCtlRow : RegDef := ⟨"FCH_P_TEST_CTL", 0x800160, 1, 0x4, 0x0, 0x0, 0xFF03, 0x0, 0x10000, 0xFFFE00FC, true, false, false⟩

omit hrun hp in
/-- What a GO of a test does to the device that its write reached; the register holds `new`, the mode is `mode` and the duration `dur`. -/
def Dev.testGo (p mode dur : Nat) (new : Word) (d : Dev) : Dev :=
  let d := d.setReg (Reg.FCH_P_TEST_CTL p) (putBit new 16 false)
  if mode ≠ 0 ∧ (d.page (0x800 + p)).en then ((d.recordErr (0x800 + p) 0x0105 mode 0).setReg (Reg.FCH_P_TEST_STS p) 4)
  else
    let d := (d.setReg (Reg.FCH_P_TEST_STS p) 0).setPort p { d.port p with testTag := 1, rtts := [] }
    let d := (List.range (if mode = 0 then 16 else 1)).foldl (fun (d : Dev) i =>
      d.sendFresh p { opc := 0x0B, args := mode + 2 ^ 8 * dur + 2 ^ 32 * i } []) d
    if mode = 0 then d else d.setPort p { d.port p with testEnd := d.tick + 1000000 * dur }

omit hrun in
/-- A GO with a mode and a duration that there are. -/
theorem laneTestGo_eq (v : Word) (ho : s.dev.isOpen (0x800 + p)) (hm : bits v 1 0 ≤ 2) (hd : bits v 15 8 ≠ 0) (hv : bitAt v 16 = true) :
    ∃ d2 new, d2.ports = s.dev.ports ∧ d2.tick = s.dev.tick ∧ d2.out = s.dev.out ∧ (d2.page (0x800 + p)).en = (s.dev.page (0x800 + p)).en ∧
      (Dev.testGo p (bits v 1 0) (bits v 15 8) new d2).Publishes (doLaneTestGo p v s.dev) := by
  have hpg : Reg.FCH_P_TEST_CTL p / 0x1000 = 0x800 + p := by
    simp only [Reg.FCH_P_TEST_CTL]
    omega
  have hrel : Reg.FCH_P_TEST_CTL p % 0x1000 = 0x160 := by
    simp only [Reg.FCH_P_TEST_CTL]
    omega
  have hrow : regDef? (Reg.FCH_P_TEST_CTL p) = some testCtlRow := (regDef_port (k := 0x160) (by decide) hp).trans rfl
  obtain ⟨eff, heff⟩ : ∃ eff : Word → Dev → Dev, eff = fun new d =>
      if bits new 1 0 = 3 ∨ bits new 15 8 = 0 then d.recordErr (0x800 + p) 0x0100 0x160 v.toNat
      else if !bitAt v 16 then d.setReg (Reg.FCH_P_TEST_CTL p) (putBit new 16 false)
      else Dev.testGo p (bits new 1 0) (bits new 15 8) new d := ⟨_, rfl⟩
  have hbody : doLaneTestGo p v s.dev = regWrite s.dev (Reg.FCH_P_TEST_CTL p) v eff := by
    rw [heff]
    unfold doLaneTestGo
    rw [Nat.mod_eq_of_lt hp]
    rfl
  obtain ⟨d1, d2, h1, h2, -, hpub⟩ := regWrite_reports s.dev (Reg.FCH_P_TEST_CTL p) v eff testCtlRow (by rw [hpg]; exact ho) hrow
  have hmode := bits_mergeWrite (r := testCtlRow) rfl (s.dev.reg (canonOff (Reg.FCH_P_TEST_CTL p))) v 1 0 (by decide)
  have hdur := bits_mergeWrite (r := testCtlRow) rfl (s.dev.reg (canonOff (Reg.FCH_P_TEST_CTL p))) v 15 8 (by decide)
  rw [hpg, hrel] at h2
  have h1tick : d1.tick = s.dev.tick ∧ d1.out = s.dev.out := by
    obtain ⟨_, _, rfl, -⟩ := h1
    exact ⟨rfl, rfl⟩
  have hrest : d2.tick = s.dev.tick ∧ d2.out = s.dev.out := by
    rcases h2 with rfl | rfl
    · exact h1tick
    · rw [Dev.recordErr_eq]
      exact h1tick
  have hen : (d2.page (0x800 + p)).en = (s.dev.page (0x800 + p)).en := by
    have hen1 : (d1.page (0x800 + p)).en = (s.dev.page (0x800 + p)).en := congrArg (·.en) (h1.body _)
    rcases h2 with rfl | rfl
    · exact hen1
    · exact (Dev.en_recordErr_self d1 _ _ _ _).trans hen1
  have hports : d2.ports = s.dev.ports := by
    rcases h2 with rfl | rfl
    · exact h1.ports
    · exact (congrArg (·.ports) (Dev.Reports.recordErr d1 _ _ _ _).kept).trans h1.ports
  refine ⟨d2, mergeWrite testCtlRow (s.dev.reg (canonOff (Reg.FCH_P_TEST_CTL p))) v true, hports, hrest.1, hrest.2, hen, ?_⟩
  rw [hbody]
  have heff2 : eff (mergeWrite testCtlRow (s.dev.reg (canonOff (Reg.FCH_P_TEST_CTL p))) v true) d2 = Dev.testGo p (bits v 1 0) (bits v 15 8)
      (mergeWrite testCtlRow (s.dev.reg (canonOff (Reg.FCH_P_TEST_CTL p))) v true) d2 := by
    rw [heff]
    dsimp only
    rw [hmode, hdur, if_neg (by omega), hv]
    rfl
  rw [← heff2]
  exact hpub

omit hrun hp in
/-- A delay test starts: sixteen round trips go out. -/
theorem testGo_delay (d : Dev) (dur : Nat) (new : Word) : (Dev.testGo p 0 dur new d).reg (Reg.FCH_P_TEST_STS p) = 0 ∧
    ((Dev.testGo p 0 dur new d).port p).testTag = 1 ∧
    ∀ i < 16, ∃ tag, d.tells (Dev.testGo p 0 dur new d) (.bridge p 0x0B [0, tag, 0, 0, 0, 0, 0, 2 ^ 8 * dur + 2 ^ 32 * i]) := by
  obtain ⟨d1, hd1⟩ : ∃ d1, d1 = ((d.setReg (Reg.FCH_P_TEST_CTL p) (putBit new 16 false)).setReg (Reg.FCH_P_TEST_STS p) 0).setPort p
      { d.port p with testTag := 1, rtts := [] } := ⟨_, rfl⟩
  obtain ⟨send, hsend⟩ : ∃ send : Dev → Nat → Dev, send = fun d i => d.sendFresh p { opc := 0x0B, args := 0 + 2 ^ 8 * dur + 2 ^ 32 * i } [] :=
    ⟨_, rfl⟩
  have hbody : Dev.testGo p 0 dur new d = (List.range 16).foldl send d1 := by
    rw [hsend, hd1]
    unfold Dev.testGo
    rw [if_neg (by simp)]
    rfl
  have hstep : ∀ (e : Dev) i, e.Sends p (send e i) := by
    intro e i
    rw [hsend]
    exact Dev.Sends.sendFresh e p _ _
  have hall : d1.Sends p ((List.range 16).foldl send d1) := Dev.Sends.foldl hstep _ _
  rw [hbody]
  refine ⟨?_, ?_, fun i hi => ?_⟩
  · rw [hall.reg, hd1]
    exact Dev.reg_setReg_self _ _ _
  · have hmine := congrArg (·.testTag) hall.mine
    have hport : d1.port p = { d.port p with testTag := 1, rtts := [] } := by
      rw [hd1]
      exact Dev.port_setPort_self _ _ _
    refine hmine.trans ?_
    rw [hport]
    rfl
  · obtain ⟨l1, l2, hl⟩ := List.append_of_mem (List.mem_range.mpr hi)
    rw [hl, List.foldl_append, List.foldl_cons]
    obtain ⟨e, he⟩ : ∃ e, e = l1.foldl send d1 := ⟨_, rfl⟩
    rw [← he]
    have hone : e.tells (send e i) (.bridge p 0x0B [0, (e.port p).freeTag % 4096, 0, 0, 0, 0, 0, 2 ^ 8 * dur + 2 ^ 32 * i]) := by
      have htell := Dev.tells_sendData (e.setPort p { e.port p with nextTag := ((e.port p).freeTag % 4096 + 1) % 4096 }) p
        { opc := 0x0B, args := 0 + 2 ^ 8 * dur + 2 ^ 32 * i, tag := (e.port p).freeTag % 4096 } []
      rw [Nat.zero_add] at htell
      rw [hsend]
      dsimp only
      rw [Nat.zero_add]
      exact htell
    have hbefore : d.out <+: e.out := by
      have hout : d1.out = d.out := by
        rw [hd1]
        rfl
      rw [he, ← hout]
      exact (Dev.Sends.foldl hstep l1 d1).out
    exact ⟨_, Dev.tells_within hbefore hone (Dev.Sends.foldl hstep l2 _).out⟩

omit hrun hp in
/-- A test that takes the lane out of service starts. -/
theorem testGo_lane (d : Dev) (mode dur : Nat) (new : Word) (hmode : mode ≠ 0) (hen : (d.page (0x800 + p)).en = false) :
    (Dev.testGo p mode dur new d).reg (Reg.FCH_P_TEST_STS p) = 0 ∧ ((Dev.testGo p mode dur new d).port p).testEnd = d.tick + 1000000 * dur := by
  obtain ⟨d1, hd1⟩ : ∃ d1, d1 = ((d.setReg (Reg.FCH_P_TEST_CTL p) (putBit new 16 false)).setReg (Reg.FCH_P_TEST_STS p) 0).setPort p
      { d.port p with testTag := 1, rtts := [] } := ⟨_, rfl⟩
  obtain ⟨e, he⟩ : ∃ e, e = d1.sendFresh p { opc := 0x0B, args := mode + 2 ^ 8 * dur + 2 ^ 32 * 0 } [] := ⟨_, rfl⟩
  have hbody : Dev.testGo p mode dur new d = e.setPort p { e.port p with testEnd := e.tick + 1000000 * dur } := by
    have hpage : ((d.setReg (Reg.FCH_P_TEST_CTL p) (putBit new 16 false)).page (0x800 + p)).en = false := hen
    rw [he, hd1]
    unfold Dev.testGo
    dsimp only
    rw [hpage, if_neg (by simp), if_neg hmode, if_neg hmode]
    rfl
  have hsends : d1.Sends p e := he ▸ Dev.Sends.sendFresh d1 p _ _
  have htick : e.tick = d.tick := by
    rw [hsends.rest, hd1]
    rfl
  rw [hbody]
  refine ⟨?_, ?_⟩
  · rw [Dev.reg_setPort, hsends.reg, hd1]
    exact Dev.reg_setReg_self _ _ _
  · rw [Dev.port_setPort_self, htick]

omit hrun hp in
/-- A test that would stop the data of an enabled port is refused. -/
theorem testGo_refused (d : Dev) (mode dur : Nat) (new : Word) (hmode : mode ≠ 0) (hen : (d.page (0x800 + p)).en = true) :
    (Dev.testGo p mode dur new d).reg (Reg.FCH_P_TEST_STS p) = 4 ∧ (Dev.testGo p mode dur new d).ports = d.ports := by
  have hbody : Dev.testGo p mode dur new d =
      ((d.setReg (Reg.FCH_P_TEST_CTL p) (putBit new 16 false)).recordErr (0x800 + p) 0x0105 mode 0).setReg (Reg.FCH_P_TEST_STS p) 4 := by
    unfold Dev.testGo
    exact if_pos ⟨hmode, hen⟩
  rw [hbody]
  refine ⟨Dev.reg_setReg_self _ _ _, ?_⟩
  exact congrArg (·.ports) (Dev.Reports.recordErr (d.setReg (Reg.FCH_P_TEST_CTL p) (putBit new 16 false)) (0x800 + p) 0x0105 mode 0).kept

end

/-- Settles O33: initialisation and its timeout, RECOMMISSION, RETRAIN and the lane tests, in turn. -/
theorem lanesAndService : Obligations.LanesAndService := by
  intro s p hrun hp pg
  refine ⟨fun hlo hhi => ⟨fun hgone hlate herr => portInitTimeout_fails s p hrun hp hlo hhi hgone hlate herr, fun rtts _ hr => ?_⟩,
    fun hl rtts _ => ?_, fun v ho => ⟨fun hv hen => ?_, fun hv hen herr hrsv => ?_, fun hv hl hlim => ?_, fun hm hd hv => ?_,
      fun hlo hhi hd hv hen => ?_, fun hlo hhi hd hv hen => ?_⟩⟩
  · exact ⟨_, act_of_running s (doLaneActive p rtts) hrun, laneActive_up s p hp hlo hhi rtts hr⟩
  · exact ⟨_, act_of_running s (doLaneActive p rtts) hrun, laneActive_back s p hp hl rtts⟩
  · exact ⟨_, act_of_running s (doRecommission p v) hrun, recommission_off s p hp v ho hv hen⟩
  · exact ⟨_, act_of_running s (doRecommission p v) hrun, recommission_on s p hp v ho hv hen herr hrsv⟩
  · exact ⟨_, act_of_running s (doRetrain p v) hrun, retrain_active s p hp v ho hv hl hlim⟩
  · obtain ⟨d2, new, -, -, hout, -, hpub⟩ := laneTestGo_eq s p hp v ho (by omega) hd hv
    rw [hm] at hpub
    obtain ⟨hsts, htag, htell⟩ := testGo_delay p d2 (bits v 15 8) new
    refine ⟨_, act_of_running s (doLaneTestGo p v) hrun, (hpub.reg _).trans hsts, (congrArg (·.testTag) (hpub.port p)).trans htag, fun i hi => ?_⟩
    obtain ⟨tag, h⟩ := htell i hi
    exact ⟨tag, Dev.tells_within (by rw [hout]) h (by rw [hpub.out])⟩
  · obtain ⟨d2, new, -, htick, -, hen2, hpub⟩ := laneTestGo_eq s p hp v ho hhi hd hv
    obtain ⟨hsts, hend⟩ := testGo_lane p d2 (bits v 1 0) (bits v 15 8) new (by omega) (hen2.trans hen)
    refine ⟨_, act_of_running s (doLaneTestGo p v) hrun, (hpub.reg _).trans hsts, (congrArg (·.testEnd) (hpub.port p)).trans ?_⟩
    rw [hend, htick]
  · obtain ⟨d2, new, hports, -, -, hen2, hpub⟩ := laneTestGo_eq s p hp v ho hhi hd hv
    obtain ⟨hsts, hrest⟩ := testGo_refused p d2 (bits v 1 0) (bits v 15 8) new (by omega) (hen2.trans hen)
    exact ⟨_, act_of_running s (doLaneTestGo p v) hrun, (hpub.reg _).trans hsts, hpub.ports.trans (hrest.trans hports)⟩

end Sys2Proof.Machine
end

section
/-! The power-loss dump: what its start leaves (R435 to R437), and its obligations. -/

namespace Sys2Proof.Machine

-- In order, one declaration at a time: keeps the check within its memory limit.
set_option Elab.async false

/-! ### The state of a domain -/

section
variable (d : Dev)

/-- Domain state registers are none of a port's. -/
theorem domSts_ne_port {g p : Nat} (hg : g < 64) : Reg.PWR_DOM_STS (g / 16) ≠ Reg.FCH_P_STS p := by
  simp only [Reg.PWR_DOM_STS, Reg.FCH_P_STS]
  omega

/-- The registers of domains and of the ports' copies of their states. -/
def domRegs : List Nat := (List.range 4).map Reg.PWR_DOM_STS ++ (List.range 512).map Reg.FCH_P_STS

theorem mem_domRegs_dom {g : Nat} (hg : g < 64) : Reg.PWR_DOM_STS (g / 16) ∈ domRegs :=
  List.mem_append_left _ (List.mem_map.mpr ⟨g / 16, List.mem_range.mpr (by omega), rfl⟩)

theorem mem_domRegs_port {p : Nat} (hp : p < 512) : Reg.FCH_P_STS p ∈ domRegs :=
  List.mem_append_right _ (List.mem_map.mpr ⟨p, List.mem_range.mpr hp, rfl⟩)

theorem domSts_notMode {g : Nat} (hg : g < 64) : Reg.PWR_DOM_STS (g / 16) ∉ modeRegs := by
  simp only [modeRegs, List.mem_cons, List.not_mem_nil, or_false, Reg.PWR_DOM_STS, Reg.PWR_MODE_STS, Reg.GLB_DEV_STS]
  omega

/-- The device without its domains' history and the ports. -/
def Dev.sansDoms (d : Dev) : Dev := { d with regs := [], coldNow := [], ports := [] }

/-- A domain's change of state as a change of fields, of the history and of the ports. -/
theorem Dev.setDomSt_frame {g : Nat} (hg : g < 64) (st : Nat) : Dev.Frame Dev.sansDoms domRegs d (d.setDomSt g st) := by
  unfold Dev.setDomSt
  extract_lets d1 d2
  have h1 : Dev.Frame Dev.sansDoms domRegs d d1 := .setFld (mem_domRegs_dom hg) _ _ _ (hm := domSts_notMode hg)
  have h2 : Dev.Frame Dev.sansDoms domRegs d1 d2 := Dev.Frame.ite (.refl d1) (.hidden rfl rfl rfl)
  refine (h1.trans h2).trans (Dev.Frame.foldl_mem (fun e i hi => ?_) d2)
  have hi8 : i < 8 := List.mem_range.mp hi
  have hslots : ∀ (e : Dev) p x, Dev.Frame Dev.sansDoms domRegs e (e.setPort p x) := fun e p x => .hidden rfl rfl rfl
  have hport : Dev.Frame Dev.sansDoms domRegs e (if st = 2 then e.setPort (8 * g + i) { e.port (8 * g + i) with slots := [] } else e) :=
    Dev.Frame.ite (hslots e _ _) (.refl e)
  exact hport.trans (.setFld (mem_domRegs_port (by omega)) _ _ _ (hm := modeRegs_port (k := 0x100) rfl (by decide) (by decide)))

/-- A domain's state after a change of it, and that of every other. -/
theorem Dev.domSt_setDomSt {g : Nat} (hg : g < 64) {st : Nat} (hst : st < 4) {g' : Nat} (hg' : g' < 64) :
    (d.setDomSt g st).domSt g' = if g' = g then st else d.domSt g' := by
  unfold Dev.setDomSt
  extract_lets d1 d2
  have hfold : ∀ (l : List Nat) (e : Dev), (l.foldl (fun d i =>
      (if st = 2 then d.setPort (8 * g + i) { d.port (8 * g + i) with slots := [] } else d).setFld (Reg.FCH_P_STS (8 * g + i)) 6 5 st) e).domSt g' =
      e.domSt g' := by
    intro l
    induction l with
    | nil => exact fun _ => rfl
    | cons i l ih =>
      intro e
      rw [List.foldl_cons, ih, Dev.domSt, Dev.fld_setFld_ne _ (domSts_ne_port hg')]
      split
      · rfl
      · rfl
  have h2 : d2.domSt g' = d1.domSt g' := by
    simp only [d2]
    split
    · rfl
    · rfl
  refine (hfold _ d2).trans (h2.trans ?_)
  have hreg : d1.reg (Reg.PWR_DOM_STS (g' / 16)) = if g' / 16 = g / 16 then putBits (d.reg (Reg.PWR_DOM_STS (g / 16))) (2 * (g % 16) + 1) (2 * (g % 16)) st
      else d.reg (Reg.PWR_DOM_STS (g' / 16)) := by
    by_cases hsame : g' / 16 = g / 16
    · rw [if_pos hsame, hsame]
      exact Dev.reg_setReg_self _ _ _
    · rw [if_neg hsame]
      exact Dev.reg_setReg_ne _ (by simp only [Reg.PWR_DOM_STS]; omega) _
  rw [Dev.domSt, Dev.fld, hreg]
  by_cases h : g' = g
  · have hw : 2 * (g % 16) + 1 + 1 - 2 * (g % 16) = 2 := by omega
    rw [h, if_pos rfl, if_pos rfl, bits_putBits_self _ _ _ _ (by omega), hw]
    exact Nat.mod_eq_of_lt hst
  · rw [if_neg h]
    by_cases hsame : g' / 16 = g / 16
    · rw [if_pos hsame, bits_putBits_ne _ _ _ _ _ _ (by omega) (by omega), ← hsame]
      rfl
    · rw [if_neg hsame]
      rfl

end

/-! ### The start of the dump -/

section
variable (d : Dev)

/-- The registers that the start of a dump changes once it is recorded. -/
def dumpRegs : List Nat := reportRegs ++ [Reg.NVM_STS, Reg.NVM_HOST_STAT, Reg.NVM_SEC_STS] ++ domRegs

/-- The device without what a dump's start changes once it is recorded. -/
def Dev.sansDump (d : Dev) : Dev :=
  { d.sansReports with coldNow := [], ports := [], nRun := none, nSus := none, nSec := [], nHost := NPort.reset, nFirm := NPort.reset, apWait := [] }

/-- `t` comes from `d` by the rest of a dump's start. -/
abbrev Dev.Dumps (d t : Dev) : Prop := Dev.Frame Dev.sansDump dumpRegs d t

theorem Dev.Dumps.of_reports {t : Dev} (h : d.Reports t) : d.Dumps t :=
  Dev.Frame.weaken h (fun _ => rfl) (fun _ ho => List.mem_append_left _ (List.mem_append_left _ ho))

theorem Dev.Dumps.setDomSt {g : Nat} (hg : g < 64) (st : Nat) : d.Dumps (d.setDomSt g st) :=
  Dev.Frame.weaken (Dev.setDomSt_frame d hg st) (fun _ => rfl) (fun _ ho => List.mem_append_right _ ho)

theorem Dev.Dumps.nvmSts : d.Dumps d.nvmSts :=
  (Dev.Frame.setReg (by decide) _).trans ((Dev.Frame.setReg (by decide) _).trans (.setReg (by decide) _))

theorem Dev.Dumps.nvmPowerFail : d.Dumps d.nvmPowerFail := by
  unfold Dev.nvmPowerFail
  extract_lets d1
  have habandon : ∀ (e : Dev) (o : NOp), e.Dumps (e.nAbandon o) := fun e o => Dev.Frame.ite (.hidden rfl rfl rfl) (.refl e)
  have hclear : ∀ (e : Dev) a b x y, e.Dumps { e with nRun := a, nSus := b, nHost := x, nFirm := y, apWait := [] } := fun e a b x y => .hidden rfl rfl rfl
  have h1 : d.Dumps d1 := Dev.Frame.foldl (fun e o => habandon e o) _ _
  exact h1.trans ((hclear d1 _ _ _ _).trans (Dev.Dumps.nvmSts _))

theorem Dev.Dumps.incRelease : d.Dumps d.incRelease := by
  unfold Dev.incRelease
  have hlog : Dev.Reports { d with incWait := [] } (d.incWait.foldl Dev.logIncident { d with incWait := [] }) :=
    Dev.Frame.foldl (fun e x => Dev.Reports.logIncident e x) _ _
  have hwait : d.Dumps { d with incWait := [] } := .hidden rfl rfl rfl
  exact Dev.Frame.ite (.refl d) (hwait.trans (Dev.Dumps.of_reports _ hlog))

/-- The device once a dump is recorded (R437, R439). -/
def Dev.dumpBegun (d : Dev) (src : Nat) : Dev :=
  let own := decide (4 ≤ src)
  let ends := d.devReset && !own
  let half := if d.flag Reg.PWR_FAIL_STS 2 then 0 else 1
  let d := (d.setFlag Reg.PWR_FAIL_STS 1 true).setFlag Reg.PWR_FAIL_STS 2 (half == 1)
  let d := (d.setFlag Reg.PWR_FAIL_STS 3 false).inc Reg.PWR_DUMP_SEQ 1
  let seq := d.fld Reg.PWR_DUMP_SEQ 31 0
  let d : Dev := { d with
    dumpAt := d.tick, dumpSrc := src, entryTgt := 0, saveDue := true, restored := false, counted := false
    nvm := { d.nvm with dumpStart := some (seq, half), dumpDone := none, abandoned := ends, clean := false }
    resetRun := own, bring := if own then d.bring else none }
  d.setFld Reg.PWR_MODE_STS 6 4 0

/-- The domains of the dump set wake (R435). -/
def Dev.dumpDoms (d : Dev) : Dev := (List.range 64).foldl (fun d g => if d.dumpGroup g && d.domSt g != 0 then d.setDomSt g 0 else d) d

theorem Dev.startDump_eq (src : Nat) (hd : d.dumping = false) (hm : d.mode ≤ 2) :
    d.startDump src = (d.dumpBegun src).nvmPowerFail.incRelease.journalIncidents.dumpDoms := by
  unfold Dev.startDump
  rw [if_neg (by simp [hd]; omega)]
  rfl

theorem Dev.Dumps.dumpDoms : d.Dumps d.dumpDoms := by
  refine Dev.Frame.foldl_mem (fun e g hg => ?_) d
  exact Dev.Frame.ite (Dev.Dumps.setDomSt e (List.mem_range.mp hg) 0) (.refl e)

/-- What follows the record of a dump's start. -/
theorem Dev.startDump_frame (src : Nat) (hd : d.dumping = false) (hm : d.mode ≤ 2) : (d.dumpBegun src).Dumps (d.startDump src) := by
  rw [Dev.startDump_eq d src hd hm]
  have hj : ∀ e : Dev, e.Dumps e.journalIncidents := fun e => .hidden rfl rfl rfl
  exact ((Dev.Dumps.nvmPowerFail _).trans (Dev.Dumps.incRelease _)).trans ((hj _).trans (Dev.Dumps.dumpDoms _))

/-- What the start of a dump leaves (R436, R437, R439). -/
structure Dev.Dumped (d : Dev) (src : Nat) (t : Dev) : Prop where
  dumping : t.dumping = true
  dumpAt : t.dumpAt = d.tick
  dumpSrc : t.dumpSrc = src
  entryTgt : t.entryTgt = 0
  phase : t.phase = 0
  seq : t.fld Reg.PWR_DUMP_SEQ 31 0 = min (d.fld Reg.PWR_DUMP_SEQ 31 0 + 1) 0xFFFFFFFF
  half : t.flag Reg.PWR_FAIL_STS 2 = !d.flag Reg.PWR_FAIL_STS 2
  start : t.nvm.dumpStart = some (t.fld Reg.PWR_DUMP_SEQ 31 0, if d.flag Reg.PWR_FAIL_STS 2 then 0 else 1)
  done : t.nvm.dumpDone = none
  doms : ∀ g < 64, d.dumpGroup g = true → t.domSt g = 0
  bring : t.bring = if 4 ≤ src then d.bring else none
  stayDown : t.stayDown = d.stayDown
  out : d.out <+: t.out
  page : ∀ pg, (d.page pg).Later (t.page pg)
  regs : ∀ off, off ∉ dumpRegs → off ∉ [Reg.PWR_FAIL_STS, Reg.PWR_DUMP_SEQ, Reg.PWR_MODE_STS] → t.reg off = d.reg off
  kept : t.hbmPoison = d.hbmPoison ∧ t.hbmLog = d.hbmLog

theorem Dev.dumpGroup_of_regs {d t : Dev} (h : ∀ off ∈ [Reg.PWR_DUMPSET_LO, Reg.PWR_DUMPSET_HI], t.reg off = d.reg off) (g : Nat) :
    t.dumpGroup g = d.dumpGroup g := by
  unfold Dev.dumpGroup Dev.flag
  rw [h _ (by simp), h _ (by simp)]

theorem not_mem_dumpRegs {off : Nat} (h : off ∉ reportRegs ++ [Reg.NVM_STS, Reg.NVM_HOST_STAT, Reg.NVM_SEC_STS])
    (hdom : off < 0xD01120 ∨ 0xD01130 ≤ off) (hport : off < 0x800000 ∨ 0xA00000 ≤ off) : off ∉ dumpRegs := by
  intro hin
  rcases List.mem_append.mp hin with hmem | hin
  · exact h hmem
  rcases List.mem_append.mp hin with hmem | hmem
  · obtain ⟨n, hn, rfl⟩ := List.mem_map.mp hmem
    have hn4 : n < 4 := List.mem_range.mp hn
    simp only [Reg.PWR_DOM_STS] at hdom
    omega
  · obtain ⟨p, hp, rfl⟩ := List.mem_map.mp hmem
    have hp512 : p < 512 := List.mem_range.mp hp
    simp only [Reg.FCH_P_STS] at hport
    omega

theorem dumpSet_notDump {off : Nat} (h : off ∈ [Reg.PWR_DUMPSET_LO, Reg.PWR_DUMPSET_HI]) : off ∉ dumpRegs := by
  rcases List.mem_pair.mp h with rfl | rfl
  · exact not_mem_dumpRegs (by decide) (by decide) (by decide)
  · exact not_mem_dumpRegs (by decide) (by decide) (by decide)

/-- The domains of the dump set are ON (R435). -/
theorem Dev.domSt_dumpDoms {g : Nat} (hg : g < 64) (hset : d.dumpGroup g = true) : d.dumpDoms.domSt g = 0 := by
  obtain ⟨step, hstep⟩ : ∃ step : Dev → Nat → Dev, step = fun d g => if d.dumpGroup g && d.domSt g != 0 then d.setDomSt g 0 else d := ⟨_, rfl⟩
  have hgroup : ∀ (e : Dev) k, k < 64 → ∀ j, (step e k).dumpGroup j = e.dumpGroup j := by
    intro e k hk j
    have hframe : e.Dumps (step e k) := by
      rw [hstep]
      exact Dev.Frame.ite (Dev.Dumps.setDomSt e hk 0) (.refl e)
    exact Dev.dumpGroup_of_regs (fun off ho => hframe.regs off (dumpSet_notDump ho)) j
  have hkeep : ∀ (e : Dev) k, k < 64 → e.domSt g = 0 → (step e k).domSt g = 0 := by
    intro e k hk h0
    rw [hstep]
    dsimp only
    split
    · rw [Dev.domSt_setDomSt e hk (by decide) hg, h0, ite_self]
    · exact h0
  have hown : ∀ e : Dev, e.dumpGroup g = true → (step e g).domSt g = 0 := by
    intro e he
    rw [hstep]
    dsimp only
    rw [he, Bool.true_and]
    by_cases h0 : e.domSt g = 0
    · rw [if_neg (by simp [h0])]
      exact h0
    · rw [if_pos (by simp [h0]), Dev.domSt_setDomSt e hg (by decide) hg, if_pos rfl]
  have hall : ∀ (l : List Nat) (e : Dev), (∀ k ∈ l, k < 64) → e.dumpGroup g = true → (g ∈ l ∨ e.domSt g = 0) → (l.foldl step e).domSt g = 0 := by
    intro l
    induction l with
    | nil => exact fun e _ _ h => h.resolve_left List.not_mem_nil
    | cons k l ih =>
      intro e hl he h
      have hk : k < 64 := hl k List.mem_cons_self
      refine ih (step e k) (fun j hj => hl j (List.mem_cons_of_mem _ hj)) ((hgroup e k hk g).trans he) ?_
      rcases h with hmem | h0
      · rcases List.mem_cons.mp hmem with rfl | hmem
        · exact Or.inr (hown e he)
        · exact Or.inl hmem
      · exact Or.inr (hkeep e k hk h0)
  rw [Dev.dumpDoms, ← hstep]
  exact hall (List.range 64) d (fun k hk => List.mem_range.mp hk) hset (Or.inl (List.mem_range.mpr hg))

/-- The registers that record a dump's start. -/
def Dev.dumpFlags (d : Dev) : Dev :=
  (((d.setFlag Reg.PWR_FAIL_STS 1 true).setFlag Reg.PWR_FAIL_STS 2 ((if d.flag Reg.PWR_FAIL_STS 2 then 0 else 1) == 1)).setFlag Reg.PWR_FAIL_STS 3 false).inc
    Reg.PWR_DUMP_SEQ 1

theorem Dev.reg_dumpBegun (src off : Nat) : (d.dumpBegun src).reg off = (d.dumpFlags.setFld Reg.PWR_MODE_STS 6 4 0).reg off := rfl

theorem Dev.dumpFlags_spec : d.dumpFlags.flag Reg.PWR_FAIL_STS 1 = true ∧ d.dumpFlags.flag Reg.PWR_FAIL_STS 2 = !d.flag Reg.PWR_FAIL_STS 2 ∧
    d.dumpFlags.fld Reg.PWR_DUMP_SEQ 31 0 = min (d.fld Reg.PWR_DUMP_SEQ 31 0 + 1) 0xFFFFFFFF ∧
    (∀ off, off ∉ [Reg.PWR_FAIL_STS, Reg.PWR_DUMP_SEQ] → d.dumpFlags.reg off = d.reg off) := by
  have hne : Reg.PWR_FAIL_STS ≠ Reg.PWR_DUMP_SEQ := by decide
  unfold Dev.dumpFlags
  refine ⟨?_, ?_, ?_, fun off hoff => ?_⟩
  · rw [Dev.flag, Dev.inc, Dev.incFld, Dev.reg_setFld_ne _ hne, ← Dev.flag, Dev.flag_setFlag_other _ _ _ _ _ (by decide) (by decide),
      Dev.flag_setFlag_other _ _ _ _ _ (by decide) (by decide), Dev.flag_setFlag_self _ _ _ _ (by decide)]
  · rw [Dev.flag, Dev.inc, Dev.incFld, Dev.reg_setFld_ne _ hne, ← Dev.flag, Dev.flag_setFlag_other _ _ _ _ _ (by decide) (by decide),
      Dev.flag_setFlag_self _ _ _ _ (by decide)]
    cases d.flag Reg.PWR_FAIL_STS 2
    · rfl
    · rfl
  · rw [Dev.fld_inc_self, Dev.fld, Dev.reg_setFlag_ne _ hne.symm, Dev.reg_setFlag_ne _ hne.symm, Dev.reg_setFlag_ne _ hne.symm, ← Dev.fld]
  · simp only [List.mem_cons, List.not_mem_nil, or_false, not_or] at hoff
    rw [Dev.inc, Dev.incFld, Dev.reg_setFld_ne _ hoff.2, Dev.reg_setFlag_ne _ hoff.1, Dev.reg_setFlag_ne _ hoff.1, Dev.reg_setFlag_ne _ hoff.1]

/-- The start of a dump leaves a dump recorded. -/
theorem Dev.startDump_spec (src : Nat) (hd : d.dumping = false) (hm : d.mode ≤ 2) : d.Dumped src (d.startDump src) := by
  obtain ⟨t, ht⟩ : ∃ t, t = d.startDump src := ⟨_, rfl⟩
  obtain ⟨b, hb⟩ : ∃ b, b = d.dumpBegun src := ⟨_, rfl⟩
  have hframe : b.Dumps t := by
    rw [ht, hb]
    exact Dev.startDump_frame d src hd hm
  have hfail : t.reg Reg.PWR_FAIL_STS = d.dumpFlags.reg Reg.PWR_FAIL_STS := by
    rw [hframe.regs _ (not_mem_dumpRegs (by decide) (by decide) (by decide)), hb, Dev.reg_dumpBegun, Dev.reg_setFld_ne _ (by decide)]
  have hseq : t.reg Reg.PWR_DUMP_SEQ = d.dumpFlags.reg Reg.PWR_DUMP_SEQ := by
    rw [hframe.regs _ (not_mem_dumpRegs (by decide) (by decide) (by decide)), hb, Dev.reg_dumpBegun, Dev.reg_setFld_ne _ (by decide)]
  obtain ⟨hflag, hhalf, hinc, hrest⟩ := Dev.dumpFlags_spec d
  rw [← ht]
  refine
    { dumping := (congrArg (fun w => bitAt w 1) hfail).trans hflag
      dumpAt := (congrArg (·.dumpAt) hframe.kept).trans (hb ▸ rfl)
      dumpSrc := (congrArg (·.dumpSrc) hframe.kept).trans (hb ▸ rfl)
      entryTgt := (congrArg (·.entryTgt) hframe.kept).trans (hb ▸ rfl)
      phase := ?_
      seq := (congrArg (fun w => bits w 31 0) hseq).trans hinc
      half := (congrArg (fun w => bitAt w 2) hfail).trans hhalf
      start := ?_
      done := (congrArg (·.nvm.dumpDone) hframe.kept).trans (hb ▸ rfl)
      doms := fun g hg hset => ?_
      bring := (congrArg (·.bring) hframe.kept).trans ?_
      stayDown := (congrArg (·.stayDown) hframe.kept).trans (hb ▸ rfl)
      out := (show d.out <+: b.out from hb ▸ List.prefix_rfl).trans hframe.out
      page := fun pg => (show (d.page pg).Later (b.page pg) from hb ▸ .refl _).trans (hframe.page pg)
      regs := fun off hoff hne => ?_
      kept := ⟨(congrArg (·.hbmPoison) hframe.kept).trans (hb ▸ rfl), (congrArg (·.hbmLog) hframe.kept).trans (hb ▸ rfl)⟩ }
  · rw [Dev.phase, hframe.runs.stsFld _ _ (by decide), hb]
    exact Dev.fld_setFld_self d.dumpFlags Reg.PWR_MODE_STS 6 4 0 (by decide)
  · refine (congrArg (·.nvm.dumpStart) hframe.kept).trans ?_
    rw [Dev.fld, hseq, hb]
    rfl
  · rw [ht, Dev.startDump_eq d src hd hm]
    refine Dev.domSt_dumpDoms _ hg ?_
    have hj : ∀ e : Dev, e.Dumps e.journalIncidents := fun e => .hidden rfl rfl rfl
    have hbefore := ((Dev.Dumps.nvmPowerFail (d.dumpBegun src)).trans (Dev.Dumps.incRelease _)).trans (hj _)
    refine (Dev.dumpGroup_of_regs (fun off ho => hbefore.regs off (dumpSet_notDump ho)) g).trans ?_
    refine (Dev.dumpGroup_of_regs (fun off ho => ?_) g).trans hset
    rcases List.mem_pair.mp ho with rfl | rfl
    · rw [Dev.reg_dumpBegun, Dev.reg_setFld_ne _ (by decide), hrest _ (by decide)]
    · rw [Dev.reg_dumpBegun, Dev.reg_setFld_ne _ (by decide), hrest _ (by decide)]
  · rw [hb]
    by_cases h4 : 4 ≤ src
    · rw [if_pos h4]
      exact if_pos (decide_eq_true h4)
    · rw [if_neg h4]
      exact if_neg (by simp [h4])
  · simp only [List.mem_cons, List.not_mem_nil, or_false, not_or] at hne
    obtain ⟨hne1, hne2, hne3⟩ := hne
    rw [hframe.regs off hoff, hb, Dev.reg_dumpBegun, Dev.reg_setFld_ne _ hne3, hrest off (by simp [hne1, hne2])]

end

/-! ### A cause of the dump is recognised (R436, R532) -/

section
variable {d e : Dev}

/-- The device once THERMTRIP_N is recognised. -/
def Dev.tripped (d : Dev) (src : Nat) : Dev := if src = 2 then { d with stayDown := true, dumpSrc := 2 } else d

theorem Dev.recognise_eq (src : Nat) (hd : e.dumping = false) (hdown : e.down = false) (hm : e.mode ≤ 2) (hpg : e.pgMain = true) (hst : 2 ≤ e.stage)
    (hstop : e.stopped = false) (hbring : e.bring = none ∨ 8 ≤ e.stage ∨ e.phase ≠ 0) : e.recognise src = (e.tripped src).startDump src := by
  have hgo : (e.bring.isSome && decide (e.stage < 8) && e.phase == 0) = false := by
    rcases hbring with h | h | h
    · simp [h]
    · simp [Nat.not_lt.mpr h]
    · simp [h]
  have hoff : (e.down || decide (3 ≤ e.mode) || !e.pgMain || decide (e.stage < 2) || e.stopped) = false := by
    simp [hdown, hpg, hstop]
    omega
  have hkept : ∀ t : Dev, t = e.tripped src → t.dumping = false ∧
      (t.down || decide (3 ≤ t.mode) || !t.pgMain || decide (t.stage < 2) || t.stopped) = false ∧
      (t.bring.isSome && decide (t.stage < 8) && t.phase == 0) = false := by
    intro t ht
    rw [ht]
    unfold Dev.tripped
    split
    · exact ⟨hd, hoff, hgo⟩
    · exact ⟨hd, hoff, hgo⟩
  unfold Dev.recognise
  extract_lets t
  obtain ⟨h1, h2, h3⟩ := hkept t rfl
  refine (if_neg (by simp [h1])).trans ((if_neg (by rw [h2]; simp)).trans ((if_neg (by rw [h3]; simp)).trans rfl))

/-- From `d` to `e` a cause of the dump has been told: reports, and PWR_FAIL_STS's other flags. -/
structure Dev.Told (d e : Dev) : Prop where
  frame : Dev.Frame Dev.sansReports (reportRegs ++ [Reg.PWR_FAIL_STS]) d e
  fail : ∀ n, n = 1 ∨ n = 2 → e.flag Reg.PWR_FAIL_STS n = d.flag Reg.PWR_FAIL_STS n

theorem Dev.Told.of_reports (h : d.Reports e) : d.Told e :=
  ⟨Dev.Frame.weaken h (fun _ => rfl) (fun _ ho => List.mem_append_left _ ho),
    fun n _ => congrArg (fun w => bitAt w n) (h.regs _ (by decide))⟩

/-- The dump that a recognised cause starts, seen from the device before its cause was told. -/
theorem Dev.recognise_spec (src : Nat) (h : d.Told e) (hd : d.dumping = false) (hdown : d.down = false) (hm : d.mode ≤ 2) (hpg : d.pgMain = true)
    (hst : 2 ≤ d.stage) (hstop : d.stopped = false) (hbring : d.bring = none ∨ 8 ≤ d.stage ∨ d.phase ≠ 0) (t : Dev) (ht : t = e.recognise src) :
    t.dumping = true ∧ t.dumpAt = d.tick ∧ t.dumpSrc = src ∧ t.entryTgt = 0 ∧ t.phase = 0 ∧
    t.fld Reg.PWR_DUMP_SEQ 31 0 = min (d.fld Reg.PWR_DUMP_SEQ 31 0 + 1) 0xFFFFFFFF ∧
    t.flag Reg.PWR_FAIL_STS 2 = ((if d.flag Reg.PWR_FAIL_STS 2 then 0 else 1) == 1) ∧
    t.nvm.dumpStart = some (t.fld Reg.PWR_DUMP_SEQ 31 0, if d.flag Reg.PWR_FAIL_STS 2 then 0 else 1) ∧ t.nvm.dumpDone = none ∧
    (∀ g < 64, d.dumpGroup g = true → t.domSt g = 0) ∧ (src = 2 → t.stayDown = true) ∧ e.out <+: t.out := by
  have hstage : e.stage = d.stage := h.frame.runs.devFld _ _ (Or.inl (by decide))
  have hphase : e.phase = d.phase := h.frame.runs.stsFld _ _ (by decide)
  have hmode : e.mode ≤ 2 := h.frame.runs.modeOr.elim (fun hm' => hm' ▸ hm) (fun h0 => h0 ▸ Nat.zero_le 2)
  have hbr : e.bring = d.bring := congrArg (·.bring) h.frame.kept
  have heq := Dev.recognise_eq (e := e) src ((h.fail 1 (Or.inl rfl)).trans hd) ((congrArg (·.down) h.frame.kept).trans hdown) hmode
    ((congrArg (·.pgMain) h.frame.kept).trans hpg) (hstage ▸ hst) ((congrArg (fun w => bitAt w 6) (h.frame.regs _ (by decide))).trans hstop)
    (by rw [hstage, hphase, hbr]; exact hbring)
  have htrip : (e.tripped src).regs = e.regs ∧ (e.tripped src).tick = e.tick ∧ (e.tripped src).out = e.out ∧ (src = 2 → (e.tripped src).stayDown = true) := by
    unfold Dev.tripped
    split
    · exact ⟨rfl, rfl, rfl, fun _ => rfl⟩
    · exact ⟨rfl, rfl, rfl, fun h2 => absurd h2 ‹_›⟩
  obtain ⟨hregs, htick, hout, hstay⟩ := htrip
  have hreg : ∀ off, (e.tripped src).reg off = e.reg off := fun off => by rw [Dev.reg, hregs, Dev.reg]
  have hspec := Dev.startDump_spec (e.tripped src) src ((congrArg (fun w => bitAt w 1) (hreg _)).trans ((h.fail 1 (Or.inl rfl)).trans hd))
    (by rw [Dev.mode, Dev.fld, hreg]; exact hmode)
  rw [← heq, ← ht] at hspec
  have hhalf : (e.tripped src).flag Reg.PWR_FAIL_STS 2 = d.flag Reg.PWR_FAIL_STS 2 :=
    (congrArg (fun w => bitAt w 2) (hreg _)).trans (h.fail 2 (Or.inr rfl))
  have hgroup : ∀ g, (e.tripped src).dumpGroup g = d.dumpGroup g := fun g =>
    (Dev.dumpGroup_of_regs (fun off _ => hreg off) g).trans (Dev.dumpGroup_of_regs (fun off ho => h.frame.regs off (by
      rcases List.mem_pair.mp ho with rfl | rfl
      · decide
      · decide)) g)
  refine ⟨hspec.dumping, hspec.dumpAt.trans (htick.trans (congrArg (·.tick) h.frame.kept)), hspec.dumpSrc, hspec.entryTgt, hspec.phase, ?_, ?_, ?_,
    hspec.done, fun g hg hset => hspec.doms g hg ((hgroup g).trans hset), fun h2 => hspec.stayDown.trans (hstay h2), hout ▸ hspec.out⟩
  · rw [hspec.seq, Dev.fld, hreg, h.frame.regs _ (by decide), ← Dev.fld]
  · rw [hspec.half, hhalf]
    cases d.flag Reg.PWR_FAIL_STS 2
    · rfl
    · rfl
  · rw [hspec.start, hhalf]

end

end Sys2Proof.Machine
end

section
/-! Bring-up: what its steps leave of the power's state (R490 to R501). -/

namespace Sys2Proof.Machine

-- In order, one declaration at a time: keeps the check within its memory limit.
set_option Elab.async false

/-! ### The frame of bring-up's steps -/

/-- The registers that no step of bring-up after the second changes. -/
def bringWatch : List Nat := [Reg.TST_BRG_CAUSE, Reg.TST_SEC_STS, Reg.TST_TAP_STS]

/-- The registers of which those steps keep some field. -/
def bringKept : List Nat := Reg.PWR_FAIL_STS :: Reg.TST_BRG_STS :: bringWatch

/-- The device without what bring-up's steps after the second change. -/
def Dev.sansBring (d : Dev) : Dev :=
  { d.sansWork with pins := [], coldNow := [], hdOut := [], wkOut := [], scanPend := false, counted := false, nvm := NvmRec.reset }

/-- `t` comes from `d` by steps of bring-up after the second. -/
structure Dev.Brings (d t : Dev) : Prop where
  kept : t.sansBring = d.sansBring
  regs : ∀ off ∈ bringWatch, t.reg off = d.reg off
  fail : ∀ n, n < 4 → t.flag Reg.PWR_FAIL_STS n = d.flag Reg.PWR_FAIL_STS n
  hold : t.hold = d.hold
  released : t.released = d.released
  mode : t.mode = d.mode ∨ t.mode = 0
  phase : t.phase = d.phase
  out : d.out <+: t.out
  page : ∀ pg, (d.page pg).Later (t.page pg)

section
variable {d e t : Dev}

theorem Dev.Brings.refl (d : Dev) : d.Brings d :=
  ⟨rfl, fun _ _ => rfl, fun _ _ => rfl, rfl, rfl, Or.inl rfl, rfl, List.prefix_rfl, fun _ => .refl _⟩

theorem Dev.Brings.trans (h : d.Brings e) (h' : e.Brings t) : d.Brings t :=
  ⟨h'.kept.trans h.kept, fun off ho => (h'.regs off ho).trans (h.regs off ho), fun n hn => (h'.fail n hn).trans (h.fail n hn),
    h'.hold.trans h.hold, h'.released.trans h.released, h'.mode.elim (fun hm => h.mode.imp hm.trans hm.trans) Or.inr, h'.phase.trans h.phase, h.out.trans h'.out,
    fun pg => (h.page pg).trans (h'.page pg)⟩

theorem Dev.Brings.ite {c : Prop} [Decidable c] (h : d.Brings e) (h' : d.Brings t) : d.Brings (if c then e else t) := by
  split
  · exact h
  · exact h'

theorem Dev.Brings.foldl {α : Type} {f : Dev → α → Dev} (h : ∀ (e : Dev) x, e.Brings (f e x)) (l : List α) (d : Dev) : d.Brings (l.foldl f d) :=
  List.foldlRecOn (motive := fun e : Dev => d.Brings e) l f (.refl d) (fun e he x _ => he.trans (h e x))

theorem Dev.Brings.foldl_mem {α : Type} {f : Dev → α → Dev} {l : List α} (h : ∀ (e : Dev), ∀ x ∈ l, e.Brings (f e x)) (d : Dev) : d.Brings (l.foldl f d) :=
  List.foldlRecOn (motive := fun e : Dev => d.Brings e) l f (.refl d) (fun e he x hx => he.trans (h e x hx))

/-- A narrower frame that keeps the watched registers and PWR_FAIL_STS. -/
theorem Dev.Brings.of_frame {erase : Dev → Dev} {rs : List Nat} (h : Dev.Frame erase rs d t) (he : ∀ x, (erase x).sansBring = x.sansBring)
    (hrs : ∀ off ∈ bringKept, off ∉ rs) : d.Brings t := by
  refine ⟨by rw [← he t, h.kept, he d], fun off ho => h.regs off (hrs off (List.mem_cons_of_mem _ (List.mem_cons_of_mem _ ho))), fun n _ => ?_, ?_, ?_,
    h.runs.modeOr, ?_, h.out, h.page⟩
  · exact congrArg (fun w => bitAt w n) (h.regs _ (hrs _ List.mem_cons_self))
  · exact congrArg (fun w => bits w 9 8) (h.regs _ (hrs _ (List.mem_cons_of_mem _ List.mem_cons_self)))
  · exact h.runs.dev 0 (Or.inl (by decide))
  · exact h.runs.stsFld _ _ (by decide)

theorem Dev.Brings.of_reports (h : d.Reports t) : d.Brings t := .of_frame h (fun _ => rfl) (by decide)

theorem Dev.Brings.of_works (h : d.Works t) : d.Brings t := .of_frame h (fun _ => rfl) (by decide)

/-- A register of no interest is written. -/
theorem Dev.Brings.setReg {off : Nat} (hoff : off ∉ bringKept ++ modeRegs) (v : Word) : d.Brings (d.setReg off v) := by
  have hmode : off ∉ modeRegs := fun hm => hoff (List.mem_append_right _ hm)
  refine .of_frame (erase := Dev.sansBring) (rs := [off]) (.setReg List.mem_cons_self v (hm := hmode)) (fun _ => rfl) (fun o ho hmem => ?_)
  rw [List.mem_singleton] at hmem
  exact hoff (List.mem_append_left _ (hmem ▸ ho))

/-- A change of what the frame does not keep. -/
theorem Dev.Brings.hide (he : t.sansBring = d.sansBring) (hr : t.regs = d.regs := by rfl) (ho : t.out = d.out := by rfl) (hp : t.pages = d.pages := by rfl) :
    d.Brings t := .of_frame (erase := Dev.sansBring) (rs := []) (.hidden he hr ho hp) (fun _ => rfl) (fun _ _ => List.not_mem_nil)

theorem Dev.Brings.recordErr (d : Dev) (pg code i0 i1 : Nat) : d.Brings (d.recordErr pg code i0 i1) := .of_reports (Dev.Reports.recordErr d _ _ _ _)

theorem Dev.Brings.raise (d : Dev) (pg n : Nat) : d.Brings (d.raise pg n) := .of_reports (Dev.Reports.raise d _ _)

theorem Dev.Brings.emit (d : Dev) (o : Out) : d.Brings (d.emit o) :=
  .of_frame (erase := Dev.sansBring) (rs := []) (.emit o) (fun _ => rfl) (fun _ _ => List.not_mem_nil)

/-! ### Steps begin, end and stop -/

/-- A field of TST_BRG_STS beside HOLD is written. -/
theorem Dev.Brings.brgSts (d : Dev) (hi lo v : Nat) (h32 : hi < 32) (hout : hi < 8 ∨ 9 < lo) : d.Brings (d.setFld Reg.TST_BRG_STS hi lo v) := by
  have hreg : ∀ off, off ≠ Reg.TST_BRG_STS → (d.setFld Reg.TST_BRG_STS hi lo v).reg off = d.reg off := fun off ho => Dev.reg_setFld_ne d ho _ _ _
  refine ⟨rfl, fun off ho => hreg off ?_, fun n _ => congrArg (fun w => bitAt w n) (hreg _ (by decide)),
    Dev.fld_setFld_other d _ _ _ _ _ _ h32 (by omega), congrArg (fun w => bitAt w 0) (hreg Reg.GLB_DEV_STS (by decide)),
    Or.inl (congrArg (fun w => bits w 2 0) (hreg Reg.PWR_MODE_STS (by decide))), congrArg (fun w => bits w 6 4) (hreg Reg.PWR_MODE_STS (by decide)),
    List.prefix_rfl, fun _ => .refl _⟩
  exact (show ∀ o ∈ bringWatch, o ≠ Reg.TST_BRG_STS by decide) off ho

/-- The step is shown (GLB_DEV_STS, TST_BRG_STS). -/
theorem Dev.Brings.setStage (d : Dev) (n : Nat) : d.Brings (d.setStage n) := by
  have hdev : d.Brings (d.setFld Reg.GLB_DEV_STS 7 4 n) := by
    refine ⟨rfl, fun off ho => Dev.reg_setFld_ne d ?_ _ _ _, fun n _ => Dev.flag_setFld_ne d (by decide) _ _ _ _, ?_, ?_, Or.inl ?_, ?_, List.prefix_rfl,
      fun _ => .refl _⟩
    · exact (show ∀ o ∈ bringWatch, o ≠ Reg.GLB_DEV_STS by decide) off ho
    · exact Dev.fld_setFld_ne d (by decide) _ _ _ _ _
    · exact Dev.flag_setFld_other d _ _ _ _ _ (by decide) (by decide)
    · exact Dev.fld_setFld_ne d (by decide) _ _ _ _ _
    · exact Dev.fld_setFld_ne d (by decide) _ _ _ _ _
  exact hdev.trans (.brgSts _ _ _ _ (by decide) (by decide))

theorem Dev.Brings.stageEnd (d : Dev) {n : Nat} (hn : n - 1 < 8) : d.Brings (d.stageEnd n) := by
  refine .setReg ?_ _
  simp only [bringKept, bringWatch, modeRegs, List.mem_cons, List.mem_append, List.not_mem_nil, or_false, Reg.TST_STAGE_MS, Reg.PWR_FAIL_STS,
    Reg.TST_BRG_CAUSE, Reg.TST_SEC_STS, Reg.TST_TAP_STS, Reg.TST_BRG_STS, Reg.PWR_MODE_STS, Reg.GLB_DEV_STS]
  omega

theorem Dev.Brings.stopBring (d : Dev) (step code : Nat) : d.Brings (d.stopBring step code) := by
  have h1 : d.Brings (d.setFlag Reg.TST_BRG_STS 6 true) := .brgSts d 6 6 _ (by decide) (by decide)
  exact (h1.trans (Dev.Brings.recordErr _ _ _ _ _)).trans (.emit _ _)

theorem Dev.Brings.unlessStopped {f : Dev → Dev} (h : e.Brings (f e)) (he : d.Brings e) : d.Brings (e.unlessStopped f) := by
  unfold Dev.unlessStopped
  exact he.trans (.ite (.refl e) h)

/-! ### The steps -/

theorem not_watched {off : Nat} (h : off ≠ Reg.PWR_FAIL_STS ∧ off ≠ Reg.TST_BRG_CAUSE ∧ off ≠ Reg.TST_SEC_STS ∧ off ≠ Reg.TST_TAP_STS ∧
    off ≠ Reg.TST_BRG_STS ∧ off ≠ Reg.PWR_MODE_STS ∧ off ≠ Reg.GLB_DEV_STS) : off ∉ bringKept ++ modeRegs := by
  simp only [bringKept, bringWatch, modeRegs, List.mem_cons, List.mem_append, List.not_mem_nil, or_false]
  tauto

theorem Dev.Brings.portFail (d : Dev) {p : Nat} (hp : p < 512) (cause info1 : Nat) : d.Brings (d.portFail p cause info1) := by
  refine .of_frame (Dev.Fails.portFail d hp cause info1) (fun _ => rfl) (fun off ho => ?_)
  rw [failRegs, List.mem_append, not_or]
  have hwork : ∀ off ∈ bringKept, off ∉ workRegs := by decide
  refine ⟨hwork off ho, ?_⟩
  simp only [bringKept, bringWatch, List.mem_cons, List.not_mem_nil, or_false, Reg.PWR_FAIL_STS, Reg.TST_BRG_CAUSE, Reg.TST_SEC_STS, Reg.TST_TAP_STS, Reg.TST_BRG_STS] at ho
  simp only [List.mem_cons, List.not_mem_nil, or_false, not_or, Reg.FCH_P_STS, Reg.FCH_P_OUT, Reg.FCH_P_DFAIL_LO, Reg.FCH_P_DFAIL_HI]
  omega

theorem Dev.Brings.setLstate (d : Dev) {p : Nat} (hp : p < 512) (st : Nat) : d.Brings (d.setLstate p st) := by
  refine .of_frame (Dev.Lanes.setLstate d p st) (fun _ => rfl) (fun off ho => ?_)
  have hrep : ∀ off ∈ bringKept, off ∉ reportRegs ++ [Reg.FCH_C_UP, Reg.FCH_C_FAILED, Reg.FCH_C_HANDED] := by decide
  have hout := hrep off ho
  simp only [laneRegs, List.mem_append, List.mem_cons, List.not_mem_nil, or_false, not_or] at hout ⊢
  simp only [bringKept, bringWatch, List.mem_cons, List.not_mem_nil, or_false, Reg.PWR_FAIL_STS, Reg.TST_BRG_CAUSE, Reg.TST_SEC_STS, Reg.TST_TAP_STS, Reg.TST_BRG_STS] at ho
  refine ⟨hout.1, ?_, hout.2⟩
  simp only [Reg.FCH_P_STS]
  omega

theorem Dev.Brings.setDomSt (d : Dev) {g : Nat} (hg : g < 64) (st : Nat) : d.Brings (d.setDomSt g st) := by
  refine .of_frame (Dev.setDomSt_frame d hg st) (fun _ => rfl) (fun off ho => ?_)
  have hrep : ∀ off ∈ bringKept, off ∉ reportRegs ++ [Reg.NVM_STS, Reg.NVM_HOST_STAT, Reg.NVM_SEC_STS] := by decide
  have hout := hrep off ho
  simp only [bringKept, bringWatch, List.mem_cons, List.not_mem_nil, or_false, Reg.PWR_FAIL_STS, Reg.TST_BRG_CAUSE, Reg.TST_SEC_STS, Reg.TST_TAP_STS, Reg.TST_BRG_STS] at ho
  have hdump : off ∉ dumpRegs := not_mem_dumpRegs hout (by omega) (by omega)
  exact fun hm => hdump (List.mem_append_right _ hm)

theorem Dev.Brings.bistErr (d : Dev) (row unit : Nat) : d.Brings (d.bistErr row unit) := .recordErr d _ _ _ _

theorem Dev.Brings.chkErr (d : Dev) (row unit : Nat) : d.Brings (d.chkErr row unit) := .recordErr d _ _ _ _

theorem Dev.Brings.setPort (d : Dev) (p : Nat) (x : Port) : d.Brings (d.setPort p x) := .hide rfl

theorem Dev.Brings.setPins (d : Dev) (l : List (Nat × Nat)) : d.Brings { d with pins := l } := .hide rfl

/-- Step 3 (Table BRG-2). -/
theorem Dev.Brings.step3 (d : Dev) (r : BringUp) : d.Brings (d.step3 r) := by
  have hfport : ∀ p < 512, Reg.TST_FPORT_FAIL (p / 32) ∉ bringKept ++ modeRegs := by
    intro p hp
    refine not_watched ?_
    simp only [Reg.TST_FPORT_FAIL, Reg.PWR_FAIL_STS, Reg.TST_BRG_CAUSE, Reg.TST_SEC_STS, Reg.TST_TAP_STS, Reg.TST_BRG_STS, Reg.PWR_MODE_STS, Reg.GLB_DEV_STS]
    omega
  have h512 : ∀ {q : Nat → Bool} {p : Nat}, p ∈ (List.range 512).filter q → p < 512 := fun hp => List.mem_range.mp (List.mem_of_mem_filter hp)
  unfold Dev.step3
  extract_lets d1 d2 d3 d4 d5 d6 lanes d7 idle gul d8 ports d9 d10 bads d11 mask d12 good d13 d14
  have h1 : d.Brings d1 := .setStage d 3
  have h2 : d1.Brings d2 := .foldl_mem (fun e g hg => .setDomSt e (List.mem_range.mp hg) 0) _
  have h3 : d2.Brings d3 := .foldl (fun e p => .bistErr e _ _) _ _
  have h4 : d3.Brings d4 := .setPins d3 _
  have h6 : d4.Brings d6 := (show d4.Brings d5 from .setReg (by decide) _).trans (.setReg (by decide) _)
  have h7 : d6.Brings d7 := .foldl (fun e l => .bistErr e _ _) _ _
  have h8 : d7.Brings d8 := .foldl (fun e l => (show e.Brings (e.setFlag Reg.TWN_LANE_FAIL l true) from .setReg (by decide) _).trans (.bistErr _ _ _)) _ _
  have h9 : d8.Brings d9 := .foldl_mem (fun e p hp =>
    (show e.Brings (e.setFlag (Reg.TST_FPORT_FAIL (p / 32)) (p % 32) true) from .setReg (hfport p (h512 hp)) _).trans (.bistErr _ _ _)) _
  have h10 : d9.Brings d10 := .foldl_mem (fun e p hp => .portFail e (h512 (List.mem_of_mem_filter hp)) _ _) _
  have h11 : d10.Brings d11 := .foldl (fun e k => .bistErr e _ _) _ _
  have h12 : d11.Brings d12 := .setReg (by decide) _
  have h13 : d12.Brings d13 := .foldl_mem (fun e p hp => (Dev.Brings.setPort e p _).trans (.setLstate _ (h512 hp) _)) _
  have h14 : d13.Brings d14 := .foldl_mem (fun e p hp => .setLstate e (h512 hp) _) _
  have hend : d14.Brings (((d14.stageEnd 3).setStage 4).stageEnd 4) :=
    ((Dev.Brings.stageEnd d14 (by decide)).trans (.setStage _ _)).trans (.stageEnd _ (by decide))
  exact (((h1.trans h2).trans (h3.trans h4)).trans ((h6.trans h7).trans (h8.trans h9))).trans
    (((h10.trans h11).trans (h12.trans h13)).trans (h14.trans hend))

theorem Dev.Brings.decoderOut (d : Dev) (g dec : Nat) : d.Brings (d.decoderOut g dec) := by
  unfold Dev.decoderOut
  extract_lets k d1 lost grp7 d2 d3 d4
  have h1 : d.Brings d1 := .hide rfl
  have h3 : d1.Brings d3 := (show d1.Brings d2 from .setReg (by decide) _).trans (.setReg (by decide) _)
  have h4 : d3.Brings d4 := (Dev.Brings.recordErr d3 _ _ _ _).trans (.raise _ _ _)
  exact .ite (.refl d) (((h1.trans h3).trans h4).trans (.ite (.refl d4) (.of_works (Dev.Works.exhaust (.refl d4) 2))))

theorem Dev.Brings.whiskOut (d : Dev) (w cause : Nat) : d.Brings (d.whiskOut w cause) := by
  unfold Dev.whiskOut
  extract_lets d1 n d2 d3
  have h1 : d.Brings d1 := .hide rfl
  have h2 : d1.Brings d2 := (show d1.Brings (d1.setFld Reg.ECC_DEC_STS 27 24 (8 - n)) from .setReg (by decide) _).trans (.setReg (by decide) _)
  have h3 : d2.Brings d3 := (Dev.Brings.recordErr d2 _ _ _ _).trans (.raise _ _ _)
  exact .ite (.refl d) (((h1.trans h2).trans h3).trans (.ite (.refl d3) (.of_works (Dev.Works.exhaust (.refl d3) 3))))

theorem Dev.Brings.laneFail (d : Dev) (lane : Nat) (known : Bool) : d.Brings (doLaneFail lane known d) := by
  unfold doLaneFail
  extract_lets l d1
  have h1 : d.Brings d1 := (show d.Brings (d.setFlag Reg.CRY_LANE_STS l false) from .setReg (by decide) _).trans (.setReg (by decide) _)
  exact .ite (.refl d) ((h1.trans (.recordErr _ _ _ _ _)).trans (.raise _ _ _))

/-- A port page is disabled by a checker that fails. -/
theorem Dev.Brings.disable (d : Dev) (pg : Nat) : d.Brings (d.setPage pg { d.page pg with en := false }) :=
  .of_frame (erase := Dev.sansBring) (rs := []) (.setPage ⟨fun h => ⟨h, rfl, rfl, rfl⟩, fun _ h => h⟩) (fun _ => rfl) (fun _ _ => List.not_mem_nil)

/-- Step 5 (Table BRG-3). -/
theorem Dev.Brings.step5 (d : Dev) (r : BringUp) : d.Brings (d.step5 r) := by
  unfold Dev.step5
  extract_lets d1 hd d2 wk d3 cl d4 ld d5 dl d6 d7
  have h1 : d.Brings d1 := .setStage d 5
  have h2 : d1.Brings d2 := .foldl (fun e x => (Dev.Brings.decoderOut e _ _).trans (.chkErr _ _ _)) _ _
  have h3 : d2.Brings d3 := .foldl (fun e w => (Dev.Brings.whiskOut e _ _).trans (.chkErr _ _ _)) _ _
  have h4 : d3.Brings d4 := .foldl (fun e l => (Dev.Brings.laneFail e _ _).trans (.chkErr _ _ _)) _ _
  have h5 : d4.Brings d5 := by
    refine .foldl_mem (fun e n hn => ?_) _
    have hn128 : n < 128 := List.mem_range.mp (List.mem_of_mem_filter hn)
    have hout : e.Brings (e.setFlag (Reg.STK_LADLE_OUT (n / 32)) (n % 32) true) := by
      refine .setReg (not_watched ?_) _
      simp only [Reg.STK_LADLE_OUT, Reg.PWR_FAIL_STS, Reg.TST_BRG_CAUSE, Reg.TST_SEC_STS, Reg.TST_TAP_STS, Reg.TST_BRG_STS, Reg.PWR_MODE_STS, Reg.GLB_DEV_STS]
      omega
    exact (((hout.trans (.setReg (by decide) _)).trans (.recordErr _ _ _ _ _)).trans (.raise _ _ _)).trans (.chkErr _ _ _)
  have h6 : d5.Brings d6 := .foldl (fun e p => (Dev.Brings.disable e _).trans (.chkErr _ _ _)) _ _
  have h7 : d6.Brings d7 := .setReg (by decide) _
  have hall := ((h1.trans h2).trans (h3.trans h4)).trans ((h5.trans h6).trans h7)
  split
  · exact ((hall.trans (.setReg (by decide) _)).trans (.chkErr _ _ _)).trans (.stopBring _ _ _)
  · exact (hall.trans (.chkErr _ _ _)).trans (.stopBring _ _ _)
  · exact hall.trans (.stageEnd _ (by decide))

theorem Dev.Brings.nvmSts (d : Dev) : d.Brings d.nvmSts :=
  ((show d.Brings (d.setReg Reg.NVM_STS _) from .setReg (by decide) _).trans (.setReg (by decide) _)).trans (.setReg (by decide) _)

theorem Dev.Brings.runImage (d : Dev) (m : Memory) (slot : Nat) (trial : Bool) : d.Brings (d.runImage m slot trial) := by
  unfold Dev.runImage
  extract_lets d1
  have h1 : d.Brings d1 := (show d.Brings (d.setFlag Reg.NVM_BOOT_STS 1 (slot == 1)) from .setReg (by decide) _).trans (.setReg (by decide) _)
  have hnvm : ∀ (e : Dev) x, e.Brings { e with nvm := x } := fun e x => .hide rfl
  exact ((h1.trans (.setReg (by decide) _)).trans (hnvm _ _)).trans (.nvmSts _)

theorem Dev.Brings.bootCheck (d : Dev) (m : Memory) (r : BringUp) (s : Nat) : d.Brings (d.bootCheck m r s).2 := by
  unfold Dev.bootCheck
  extract_lets n d1
  have h1 : d.Brings d1 := .ite (.setReg (by decide) _) (.refl d)
  exact h1.trans (.ite ((show d1.Brings (d1.inc Reg.NVM_UNC_CNT 1) from .setReg (by decide) _).trans (.recordErr _ _ _ _ _)) (.refl d1))

theorem Dev.Brings.bootFallback (d : Dev) : d.Brings d.bootFallback :=
  (show d.Brings (d.setFlag Reg.NVM_BOOT_STS 4 true) from .setReg (by decide) _).trans (.raise _ _ _)

theorem Dev.Brings.bootActive (d : Dev) (m : Memory) (r : BringUp) : d.Brings (d.bootActive m r) := by
  unfold Dev.bootActive
  extract_lets a x y
  have hx : d.Brings x.2 := .bootCheck d m r a
  have hy : d.Brings y.2 := hx.trans (.bootCheck _ m r _)
  have hother : d.Brings (y.2.setFlag Reg.NVM_BOOT_STS 0 (1 - a == 1)) := hy.trans (.setReg (by decide) _)
  refine .ite ((hx.trans (.runImage _ m _ _)).trans (.stageEnd _ (by decide))) (.ite ?_ ?_)
  · exact ((hother.trans (.bootFallback _)).trans (.runImage _ m _ _)).trans (.stageEnd _ (by decide))
  · exact (hy.trans (.recordErr _ _ _ _ _)).trans (.stopBring _ _ _)

/-- Step 6 (R458). -/
theorem Dev.Brings.step6 (d : Dev) (m : Memory) (r : BringUp) : d.Brings (d.step6 m r) := by
  unfold Dev.step6
  extract_lets d1 d2 x
  have h2 : d.Brings d2 :=
    ((Dev.Brings.setStage d 6).trans (show d1.Brings (d1.setFld Reg.NVM_BOOT_STS 10 8 0) from .setReg (by decide) _)).trans (.setReg (by decide) _)
  have hx : d.Brings x.2 := (h2.trans (show d2.Brings (d2.setFlag Reg.NVM_BOOT_STS 3 false) from .setReg (by decide) _)).trans (.bootCheck _ m r _)
  refine .ite (.ite ((hx.trans (.runImage _ m _ _)).trans (.stageEnd _ (by decide))) ?_) (h2.trans (.bootActive _ m r))
  exact (hx.trans (.bootFallback _)).trans (.bootActive _ m r)

/-- Step 7 (R353). -/
theorem Dev.Brings.step7 (d : Dev) (r : BringUp) : d.Brings (d.step7 r) := by
  unfold Dev.step7
  extract_lets d1 bad mask rep d2
  have h2 : d.Brings d2 := (Dev.Brings.setStage d 7).trans (.setReg (by decide) _)
  have hmatch : ∀ l : List Nat, d2.Brings (match l with
      | [] => d2.stageEnd 7
      | k :: ks => ((k :: ks).foldl (fun (d : Dev) i => d.recordErr 0x600 0x0100 i (r.hbmRepaired.getD i 0)) d2).stopBring 7 0x0100) := by
    intro l
    cases l with
    | nil => exact .stageEnd _ (by decide)
    | cons k ks => exact (Dev.Brings.foldl (fun e i => .recordErr e _ _ _ _) (k :: ks) d2).trans (.stopBring _ _ _)
  exact h2.trans (hmatch bad)

/-- Step 8 (R439, R497, R498). -/
theorem Dev.Brings.step8 (d : Dev) (r : BringUp) : d.Brings (d.step8 r) := by
  have hscan : ∀ (e : Dev) b, e.Brings { e with scanPend := b } := fun e b => .hide rfl
  have hinc : ∀ e : Dev, e.Brings (e.inc Reg.HIF_DIRTY_SHUT 1) := fun e => .setReg (by decide) _
  have hcount : ∀ e : Dev, e.Brings { e with counted := true } := fun e => .hide rfl
  have hfail : ∀ e : Dev, e.Brings (e.setFlag Reg.PWR_FAIL_STS 4 true) := by
    intro e
    refine ⟨rfl, fun off ho => ?_, fun n hn => Dev.flag_setFlag_other e _ _ _ _ (by decide) (by omega), Dev.fld_setFlag_ne e (by decide) _ _ _ _,
      Dev.flag_setFlag_ne e (by decide) _ _ _, Or.inl ?_, ?_, List.prefix_rfl, fun _ => .refl _⟩
    · exact Dev.reg_setFlag_ne e ((show ∀ o ∈ bringWatch, o ≠ Reg.PWR_FAIL_STS by decide) off ho) _ _
    · exact congrArg (fun w => bits w 2 0) (Dev.reg_setFlag_ne e (by decide) _ _)
    · exact congrArg (fun w => bits w 6 4) (Dev.reg_setFlag_ne e (by decide) _ _)
  have hshut : ∀ e : Dev, e.Brings ((if e.counted then e else { e.inc Reg.HIF_DIRTY_SHUT 1 with counted := true }).setFlag Reg.PWR_FAIL_STS 4 true) := by
    intro e
    refine Dev.Brings.trans ?_ (hfail _)
    split
    · exact .refl e
    · exact (hinc e).trans (hcount _)
  unfold Dev.step8
  extract_lets d1 cls d2 src d3
  have h1 : d.Brings d1 := .setStage d 8
  have h2 : d1.Brings d2 := hscan d1 _
  have h3 : d2.Brings d3 := hshut d2
  have h4 : d3.Brings ((d3.recordErr 0xD02 0x0104 (d3.fld Reg.PWR_DUMP_SEQ 31 0) (d3.fld Reg.PWR_DUMP_MIB 15 0)).raise 0xD02 4) :=
    (Dev.Brings.recordErr d3 _ _ _ _).trans (.raise _ _ _)
  split
  · exact (h1.trans (.recordErr _ _ _ _ _)).trans (.stopBring _ _ _)
  · split
    · exact h1.trans h2
    · exact ((h1.trans h2).trans h3).trans h4

/-- Steps 6 to 8. -/
theorem Dev.Brings.bringFrom6 (d : Dev) (m : Memory) (r : BringUp) : d.Brings (d.bringFrom6 m r) :=
  .unlessStopped (.step8 _ r) (.unlessStopped (.step7 _ r) (.step6 d m r))

/-- Steps 3 to 8, unless the second has stopped bring-up. -/
theorem Dev.Brings.bringFrom2 (d : Dev) (m : Memory) (r : BringUp) : (d.step2 r).Brings (d.bringFrom2 m r) :=
  .unlessStopped (.bringFrom6 _ m r) (.unlessStopped (.step5 _ r) (.unlessStopped (.step3 _ r) (.refl _)))

/-! ### Step 2 and what it leaves -/

/-- The device whose secrets are cleared (R492), with what TST_SEC_STS shows. -/
def Dev.cleared (d : Dev) (w : Word) : Dev :=
  { d.setStage 2 with kek := none, pairKey := none, xbufShown := false, cap := { (d.setStage 2).cap with key := none } }.setReg Reg.TST_SEC_STS w

theorem Dev.step2_clear (d : Dev) (r : BringUp) (h : r.clearFail = 0) : d.step2 r = (d.cleared 0x1F).stageEnd 2 := by
  unfold Dev.step2
  exact if_neg (by omega)

theorem Dev.step2_fail (d : Dev) (r : BringUp) (h : 1 ≤ r.clearFail ∧ r.clearFail ≤ 4) :
    ∃ w, d.step2 r = ((d.cleared w).recordErr 0x1000 0x0100 r.clearFail 0).stopBring 2 0x0100 := by
  unfold Dev.step2
  exact ⟨_, if_pos h⟩

/-- The second step from a device whose secrets are cleared. -/
theorem Dev.step2_brings (d : Dev) (r : BringUp) : ∃ w, (d.cleared w).Brings (d.step2 r) := by
  by_cases h : 1 ≤ r.clearFail ∧ r.clearFail ≤ 4
  · obtain ⟨w, hw⟩ := Dev.step2_fail d r h
    exact ⟨w, hw ▸ (Dev.Brings.recordErr _ _ _ _ _).trans (.stopBring _ _ _)⟩
  · refine ⟨0x1F, ?_⟩
    have hstep : d.step2 r = (d.cleared 0x1F).stageEnd 2 := by
      unfold Dev.step2
      exact if_neg h
    rw [hstep]
    exact .stageEnd _ (by decide)

/-- What bring-up keeps of the power's state: all its steps. -/
structure Dev.BroughtUp (d t : Dev) : Prop where
  cause : t.reg Reg.TST_BRG_CAUSE = d.reg Reg.TST_BRG_CAUSE
  fail : ∀ n, n < 4 → t.flag Reg.PWR_FAIL_STS n = d.flag Reg.PWR_FAIL_STS n
  released : t.released = d.released
  mode : t.mode = d.mode ∨ t.mode = 0
  phase : t.phase = d.phase
  power : t.pgMain = d.pgMain ∧ t.enMain = d.enMain ∧ t.bring = d.bring ∧ t.down = d.down ∧ t.entryTgt = d.entryTgt

theorem Dev.BroughtUp.trans (h : d.BroughtUp e) (h' : e.BroughtUp t) : d.BroughtUp t := by
  obtain ⟨a1, a2, a3, a4, a5⟩ := h.power
  obtain ⟨b1, b2, b3, b4, b5⟩ := h'.power
  exact ⟨h'.cause.trans h.cause, fun n hn => (h'.fail n hn).trans (h.fail n hn), h'.released.trans h.released,
    h'.mode.elim (fun hm => h.mode.imp hm.trans hm.trans) Or.inr, h'.phase.trans h.phase,
    b1.trans a1, b2.trans a2, b3.trans a3, b4.trans a4, b5.trans a5⟩

theorem Dev.BroughtUp.of_brings (h : d.Brings t) : d.BroughtUp t :=
  ⟨h.regs _ List.mem_cons_self, h.fail, h.released, h.mode, h.phase, congrArg (·.pgMain) h.kept, congrArg (·.enMain) h.kept, congrArg (·.bring) h.kept,
    congrArg (·.down) h.kept, congrArg (·.entryTgt) h.kept⟩

theorem Dev.BroughtUp.cleared (d : Dev) (w : Word) : d.BroughtUp (d.cleared w) := by
  have h1 : d.BroughtUp (d.setStage 2) := .of_brings (.setStage d 2)
  have h2 : ∀ e : Dev, ∀ c, e.BroughtUp { e with kek := none, pairKey := none, xbufShown := false, cap := c } := fun e c =>
    ⟨rfl, fun _ _ => rfl, rfl, Or.inl rfl, rfl, rfl, rfl, rfl, rfl, rfl⟩
  have h3 : ∀ e : Dev, e.BroughtUp (e.setReg Reg.TST_SEC_STS w) := fun e =>
    ⟨Dev.reg_setReg_ne e (by decide) w, fun n _ => Dev.flag_setReg_ne e (by decide) w n, Dev.flag_setReg_ne e (by decide) w 0,
      Or.inl (congrArg (fun w => bits w 2 0) (Dev.reg_setReg_ne e (by decide) w)), congrArg (fun w => bits w 6 4) (Dev.reg_setReg_ne e (by decide) w),
      rfl, rfl, rfl, rfl, rfl⟩
  exact (h1.trans (h2 _ _)).trans (h3 _)

theorem Dev.BroughtUp.bringFrom2 (d : Dev) (m : Memory) (r : BringUp) : d.BroughtUp (d.bringFrom2 m r) := by
  obtain ⟨w, hw⟩ := Dev.step2_brings d r
  exact ((Dev.BroughtUp.cleared d w).trans (.of_brings hw)).trans (.of_brings (.bringFrom2 d m r))

theorem Dev.BroughtUp.newVcore (d : Dev) : d.BroughtUp d.newVcore := by
  have hdrawn : d.BroughtUp d.drawn := ⟨rfl, fun _ _ => rfl, rfl, Or.inl rfl, rfl, rfl, rfl, rfl, rfl, rfl⟩
  have hbias : ∀ (e : Dev) c, e.BroughtUp (e.setBias c) := fun e c => .of_brings (.setReg (by decide) _)
  exact (hdrawn.trans (hbias _ _)).trans (.of_brings (.emit _ _))

/-! ### A COLD bring-up begins (R490) -/

/-- A key that a filter on keys keeps. -/
theorem SMap.find_filter_keep {α : Type} (q : Nat × α → Bool) (k : Nat) (h : ∀ v, q (k, v) = true) :
    ∀ m : SMap α, SMap.find (m.filter q) k = SMap.find m k
  | [] => rfl
  | (j, v) :: m => by
    have ih := SMap.find_filter_keep q k h m
    by_cases hj : k = j
    · subst hj
      rw [List.filter_cons_of_pos (h v), SMap.find, SMap.find, if_pos rfl, if_pos rfl]
    · by_cases hq : q (j, v) = true
      · rw [List.filter_cons_of_pos hq, SMap.find, SMap.find, if_neg hj, if_neg hj, ih]
      · rw [List.filter_cons_of_neg hq, SMap.find, if_neg hj, ih]

/-- An abandoned reset is told (R560). -/
def Dev.unabandoned (d : Dev) : Dev :=
  if d.nvm.abandoned then { d.setFlag Reg.GLB_RST_STS 5 true with nvm := { d.nvm with abandoned := false } } else d

/-- RUN, with no entry under way. -/
def Dev.awake (d : Dev) : Dev := ((d.setFld Reg.PWR_MODE_STS 2 0 0).setFld Reg.PWR_MODE_STS 6 4 0).setFld Reg.GLB_DEV_STS 12 10 0

/-- No dump, and none found incomplete. -/
def Dev.undumped (d : Dev) : Dev := (d.setFlag Reg.PWR_FAIL_STS 1 false).setFlag Reg.PWR_FAIL_STS 4 false

/-- Nothing of the last stop is left to do. -/
def Dev.restarted (d : Dev) : Dev := { d with nvm := { d.nvm with clean := false }, entryTgt := 0, down := false, resetDefer := false }

/-- The device as a COLD bring-up begins on it. -/
def Dev.coldBegun (d : Dev) (start cls : Nat) : Dev := ((d.unabandoned.awake.beginBring start cls).undumped.setStage 2).restarted

/-- A COLD bring-up goes on with the main rails, or waits for them. -/
def Dev.coldGo (d : Dev) (m : Memory) (r : BringUp) : Dev :=
  if d.pgMain then { d with bring := some r }.newVcore.bringFrom2 m r else { d with bring := some r, pgTry := 1 }.setEnMain true

theorem Dev.coldBring_eq (d : Dev) (m : Memory) (start : Nat) (vao : Bool) (r : BringUp) : d.coldBring m start vao r =
    ((d.headsDown.coldInit vao (r.retFail.contains 1) d.nvm.stopOf).coldBegun start d.nvm.stopOf).coldGo m r := rfl

/-- A register that the beginning of bring-up keeps. -/
theorem Dev.reg_beginBring (d : Dev) (start cls : Nat) {off : Nat} (hpg : off / 0x1000 ≠ 0x1000) (hdev : off ≠ Reg.GLB_DEV_STS) :
    (d.beginBring start cls).reg off = d.reg off := by
  have hcause : off ≠ Reg.TST_BRG_CAUSE := by
    rintro rfl
    exact hpg rfl
  unfold Dev.beginBring
  extract_lets e f
  have he : e.reg off = d.reg off := by
    rw [Dev.reg, SMap.get, show e.regs = d.regs.filter (fun (kv : Nat × Word) => kv.1 / 0x1000 != 0x1000 || kv.1 == Reg.TST_TAP_STS) from rfl,
      SMap.find_filter_keep _ off (by simp [hpg])]
    rfl
  rw [Dev.reg_setReg_ne _ hcause, Dev.reg_setFlag_ne _ hdev, he]

theorem Dev.coldBegun_spec (d : Dev) (start cls : Nat) : (d.coldBegun start cls).reg Reg.TST_BRG_CAUSE = w32 (start + 8 * cls) ∧
    (d.coldBegun start cls).flag Reg.PWR_FAIL_STS 1 = false ∧ (d.coldBegun start cls).flag Reg.PWR_FAIL_STS 0 = d.flag Reg.PWR_FAIL_STS 0 ∧
    (d.coldBegun start cls).released = false ∧ (d.coldBegun start cls).mode = 0 ∧ (d.coldBegun start cls).phase = 0 ∧
    (d.coldBegun start cls).entryTgt = 0 ∧ (d.coldBegun start cls).down = false ∧ (d.coldBegun start cls).pgMain = d.pgMain := by
  have hareg : ∀ off, off ≠ Reg.GLB_RST_STS → d.unabandoned.reg off = d.reg off := by
    intro off hoff
    unfold Dev.unabandoned
    split
    · exact Dev.reg_setFlag_ne d hoff 5 true
    · rfl
  have hapg : d.unabandoned.pgMain = d.pgMain := by
    unfold Dev.unabandoned
    split
    · rfl
    · rfl
  obtain ⟨a, ha⟩ : ∃ a, a = d.unabandoned := ⟨_, rfl⟩
  obtain ⟨b, hb⟩ : ∃ b, b = a.awake := ⟨_, rfl⟩
  obtain ⟨c, hc⟩ : ∃ c, c = (b.beginBring start cls).undumped := ⟨_, rfl⟩
  rw [← ha] at hareg hapg
  have hbegun : d.coldBegun start cls = (c.setStage 2).restarted := by
    rw [hc, hb, ha]
    rfl
  have hend : ∀ off, (d.coldBegun start cls).reg off = (c.setStage 2).reg off := fun off => by
    rw [hbegun]
    rfl
  have hstage : c.Brings (c.setStage 2) := .setStage c 2
  have hcreg : ∀ off, off ≠ Reg.PWR_FAIL_STS → c.reg off = (b.beginBring start cls).reg off := fun off hoff => by
    rw [hc, Dev.undumped, Dev.reg_setFlag_ne _ hoff, Dev.reg_setFlag_ne _ hoff]
  have hbreg : ∀ off, off ≠ Reg.PWR_MODE_STS → off ≠ Reg.GLB_DEV_STS → b.reg off = a.reg off := fun off h1 h2 => by
    rw [hb, Dev.awake, Dev.reg_setFld_ne _ h2, Dev.reg_setFld_ne _ h1, Dev.reg_setFld_ne _ h1]
  have hmode : c.reg Reg.PWR_MODE_STS = putBits (putBits (d.reg Reg.PWR_MODE_STS) 2 0 0) 6 4 0 := by
    rw [hcreg _ (by decide), Dev.reg_beginBring b start cls (by decide) (by decide), hb, Dev.awake, Dev.reg_setFld_ne _ (by decide), Dev.reg_setFld,
      if_pos rfl, Dev.reg_setFld, if_pos rfl, hareg _ (by decide)]
  have hfail : c.flag Reg.PWR_FAIL_STS 0 = d.flag Reg.PWR_FAIL_STS 0 := by
    rw [hc, Dev.undumped, Dev.flag_setFlag_other _ _ _ _ _ (by decide) (by decide), Dev.flag_setFlag_other _ _ _ _ _ (by decide) (by decide), Dev.flag,
      Dev.reg_beginBring b start cls (by decide) (by decide), hbreg _ (by decide) (by decide), hareg _ (by decide), ← Dev.flag]
  refine ⟨?_, ?_, ?_, ?_, ?_, ?_, rfl, rfl, ?_⟩
  · rw [hend, hstage.regs _ (by decide), hcreg _ (by decide)]
    exact Dev.reg_setReg_self _ _ _
  · rw [Dev.flag, hend, ← Dev.flag, hstage.fail 1 (by decide), hc, Dev.undumped, Dev.flag_setFlag_other _ _ _ _ _ (by decide) (by decide),
      Dev.flag_setFlag_self _ _ _ _ (by decide)]
  · rw [Dev.flag, hend, ← Dev.flag, hstage.fail 0 (by decide), hfail]
  · rw [Dev.released, Dev.flag, hend, ← Dev.flag, ← Dev.released, hstage.released, Dev.released, Dev.flag, hcreg _ (by decide), ← Dev.flag]
    exact (Dev.flag_setReg_ne _ (by decide) _ _).trans (Dev.flag_setFlag_self _ _ _ _ (by decide))
  · have h0 : c.mode = 0 := by
      rw [Dev.mode, Dev.fld, hmode, bits_putBits_ne _ _ _ _ _ _ (by decide) (by decide), bits_putBits_self _ _ _ _ (by decide), Nat.zero_mod]
    rw [Dev.mode, Dev.fld, hend, ← Dev.fld, ← Dev.mode]
    exact hstage.mode.elim (fun h => h.trans h0) id
  · have h0 : c.phase = 0 := by
      rw [Dev.phase, Dev.fld, hmode, bits_putBits_self _ _ _ _ (by decide), Nat.zero_mod]
    rw [Dev.phase, Dev.fld, hend, ← Dev.fld, ← Dev.phase]
    exact hstage.phase.trans h0
  · rw [hbegun, ← hapg]
    have hpg : (c.setStage 2).restarted.pgMain = c.pgMain := rfl
    rw [hpg, hc, hb]
    rfl

/-- With the main rails up, what goes on of a COLD bring-up keeps the power's state. -/
theorem Dev.coldGo_up (d : Dev) (m : Memory) (r : BringUp) (h : d.pgMain = true) : Dev.BroughtUp { d with bring := some r } (d.coldGo m r) := by
  unfold Dev.coldGo
  rw [if_pos h]
  exact (Dev.BroughtUp.newVcore _).trans (.bringFrom2 _ m r)

end

end Sys2Proof.Machine
end

section
/-! What a COLD reset restores leaves the rails and PWR_FAIL_STS (R501, R561); the power-loss dump's obligation. -/

namespace Sys2Proof.Machine

-- In order, one declaration at a time: keeps the check within its memory limit.
set_option Elab.async false

/-! ### The rails and PWR_FAIL_STS through a COLD reset -/

/-- The registers that a COLD reset leaves as they are: PWR_FAIL_STS, the straps and the dump set. -/
def railRegs : List Nat := [Reg.PWR_FAIL_STS, Reg.GLB_STRAP, Reg.PWR_DUMPSET_LO]

/-- From `d` to `t` the rails, their request, the supply, PWR_FAIL_STS, the straps and the dump set stand, and the mode but for a wake to RUN. -/
structure Dev.Rails (d t : Dev) : Prop where
  pgMain : t.pgMain = d.pgMain
  enMain : t.enMain = d.enMain
  aoUp : t.aoUp = d.aoUp
  supply : d.supplyLost = false → t.supplyLost = false
  regs : ∀ off ∈ railRegs, t.reg off = d.reg off
  mode : t.mode = d.mode ∨ t.mode = 0

section
variable {d e t : Dev}

theorem Dev.Rails.fail (h : d.Rails t) : t.reg Reg.PWR_FAIL_STS = d.reg Reg.PWR_FAIL_STS := h.regs _ (by decide)

theorem Dev.Rails.refl (d : Dev) : d.Rails d := ⟨rfl, rfl, rfl, id, fun _ _ => rfl, Or.inl rfl⟩

theorem Dev.Rails.trans (h : d.Rails e) (h' : e.Rails t) : d.Rails t :=
  ⟨h'.pgMain.trans h.pgMain, h'.enMain.trans h.enMain, h'.aoUp.trans h.aoUp, fun hs => h'.supply (h.supply hs),
    fun off ho => (h'.regs off ho).trans (h.regs off ho), h'.mode.elim (fun hm => h.mode.imp hm.trans hm.trans) Or.inr⟩

theorem Dev.Rails.ite {c : Prop} [Decidable c] (h : d.Rails e) (h' : d.Rails t) : d.Rails (if c then e else t) := by
  split
  · exact h
  · exact h'

theorem Dev.Rails.foldl {α : Type} {f : Dev → α → Dev} (h : ∀ (e : Dev) x, e.Rails (f e x)) (l : List α) (d : Dev) : d.Rails (l.foldl f d) :=
  List.foldlRecOn (motive := fun e : Dev => d.Rails e) l f (.refl d) (fun e he x _ => he.trans (h e x))

theorem Dev.Rails.foldl_mem {α : Type} {f : Dev → α → Dev} {l : List α} (h : ∀ (e : Dev), ∀ x ∈ l, e.Rails (f e x)) (d : Dev) : d.Rails (l.foldl f d) :=
  List.foldlRecOn (motive := fun e : Dev => d.Rails e) l f (.refl d) (fun e he x hx => he.trans (h e x hx))

theorem Dev.Rails.of_works (h : d.Works t) : d.Rails t := ⟨congrArg (·.pgMain) h.kept, congrArg (·.enMain) h.kept,
  congrArg (·.aoUp) h.kept, fun hs => (congrArg (·.supplyLost) h.kept).trans hs, fun off ho => h.regs off ((show ∀ o ∈ railRegs, o ∉ workRegs by decide) off ho), h.runs.modeOr⟩

theorem Dev.Rails.of_posts (h : d.Posts t) : d.Rails t := .of_works (Dev.Works.of_posts h)

theorem Dev.Rails.of_reports (h : d.Reports t) : d.Rails t := .of_works (Dev.Works.of_reports h)

theorem Dev.Rails.setReg {off : Nat} (hoff : off ∉ Reg.PWR_MODE_STS :: railRegs) (v : Word) : d.Rails (d.setReg off v) := by
  have hne : ∀ o ∈ Reg.PWR_MODE_STS :: railRegs, o ≠ off := fun o ho h => hoff (h ▸ ho)
  exact ⟨rfl, rfl, rfl, id, fun o ho => Dev.reg_setReg_ne d (hne o (List.mem_cons_of_mem _ ho)) v,
    Or.inl (congrArg (fun w => bits w 2 0) (Dev.reg_setReg_ne d (hne _ List.mem_cons_self) v))⟩

theorem Dev.Rails.set64 {a b : Nat} (ha : a ∉ Reg.PWR_MODE_STS :: railRegs) (hb : b ∉ Reg.PWR_MODE_STS :: railRegs) (v : Nat) :
    d.Rails (d.set64 a b v) := (Dev.Rails.setReg ha _).trans (.setReg hb _)

/-- Nothing of the rails and of the registers is touched. -/
theorem Dev.Rails.plain (hp : t.pgMain = d.pgMain := by rfl) (he : t.enMain = d.enMain := by rfl) (ha : t.aoUp = d.aoUp := by rfl)
    (hs : t.supplyLost = d.supplyLost := by rfl) (hr : t.regs = d.regs := by rfl) : d.Rails t :=
  ⟨hp, he, ha, hs.trans, fun off _ => by rw [Dev.reg, hr, Dev.reg], Or.inl (by rw [Dev.mode, Dev.fld, Dev.reg, hr]; rfl)⟩

/-! ### The pieces -/

theorem Dev.Rails.takeHeadDown (d : Dev) {h : Nat} (hh : h < 4) : d.Rails (d.takeHeadDown h) := by
  have hne : Reg.HIF_LINK_STS h ∉ Reg.PWR_MODE_STS :: railRegs := by
    simp only [railRegs, List.mem_cons, List.not_mem_nil, or_false, Reg.PWR_FAIL_STS, Reg.PWR_MODE_STS, Reg.GLB_STRAP, Reg.PWR_DUMPSET_LO, Reg.HIF_LINK_STS]
    omega
  have hdown : ∀ (e : Dev) m, e.Rails { e with headDown := m } := fun e m => .plain
  unfold Dev.takeHeadDown
  extract_lets d1
  have h1 : d.Rails d1 := ((Dev.Rails.setReg hne _).trans (.setReg hne _)).trans (.setReg hne _)
  refine .ite ?_ (.refl d)
  exact ((h1.trans (hdown d1 _)).trans (.of_reports (Dev.Reports.raise _ _ _))).trans (.of_reports (Dev.Reports.capRecFree _ _ _ _))

theorem Dev.Rails.headsDown (d : Dev) : d.Rails d.headsDown := by
  refine .foldl_mem (fun e h hh => .takeHeadDown e ?_) d
  simp only [List.mem_cons, List.not_mem_nil, or_false] at hh
  omega

theorem Dev.Rails.drawn (d : Dev) : d.Rails d.drawn := .plain

theorem Dev.Rails.setCache (d : Dev) (l : List Ver) : d.Rails { d with cache := l } := .plain

theorem Dev.Rails.verAfter (d : Dev) (v : Ver) (n : Nat) : d.Rails (d.verAfter v n) := by
  unfold Dev.verAfter
  extract_lets news blks
  exact .ite (.setCache d _) (.ite (.refl d) (.setCache d _))

theorem Dev.Rails.unmapAfter (d : Dev) (x : MapChg) (n : Nat) : d.Rails (d.unmapAfter x n) := .ite (.of_posts (Dev.Posts.applyEnt d x)) (.refl d)

theorem Dev.Rails.pwCount (d : Dev) : d.Rails d.pwCount := .setReg (by decide) _

theorem Dev.Rails.restoreCache (old d : Dev) (cls : Nat) : d.Rails (old.restoreCache d cls) := by
  have hlast : ∀ (e : Dev) a b c, e.Rails { e.drawn.drawn with cache := a, pwDirty := b, lostSlots := c, restored := true, counted := old.counted } :=
    fun _ _ _ _ => .plain
  unfold Dev.restoreCache
  extract_lets d1 d2 all cut keepV keepW vers own src d3
  have h1 : d.Rails d1 := by
    refine (Dev.Rails.setCache d []).trans (.foldl (fun e v => ?_) _ _)
    exact .ite (.drawn e) ((Dev.Rails.verAfter e _ _).trans (.drawn _))
  have h2 : d1.Rails d2 := .foldl (fun e x => (Dev.Rails.unmapAfter e _ _).trans (.drawn _)) _ _
  have h3 : d2.Rails d3 := hlast d2 _ _ _
  exact ((h1.trans h2).trans h3).trans ((show d3.Rails (d3.setFld Reg.STK_PWC_USED 20 0 (8 * own vers)) from .setReg (by decide) _).trans (.pwCount _))

theorem Dev.Rails.loadCtx (d : Dev) (c : Nat) (x : CtxCopy) : d.Rails (d.loadCtx c x) := by
  have hcopy : d.Rails (d.setCopy c x.swept) := .plain
  have hset : ∀ (e : Dev) y, e.Rails (e.setCtx c y) := fun _ _ => .plain
  have hmove : ∀ (e : Dev) y z, e.Rails (e.moveCtx c y z) := by
    intro e y z
    unfold Dev.moveCtx
    extract_lets few d1 d2
    have h1 : e.Rails d1 := hset e _
    have h2 : d1.Rails d2 := .ite (.of_reports (Dev.Reports.raise _ _ _)) (.refl d1)
    exact (h1.trans h2).trans (.ite (.of_reports (Dev.Reports.raise _ _ _)) (.refl d2))
  exact hcopy.trans (hmove _ _ _)

theorem Dev.Rails.addOp (d : Dev) (p : Nat) (o : POp) : d.Rails (d.addOp p o) := .of_works (Dev.Works.addOp (.refl d) p o)

theorem Dev.Rails.restoreBands (d : Dev) : d.Rails d.restoreBands := by
  have hpar : ∀ e : Dev, e.Rails { e with dpar := [], dacc := [] } := fun _ => .plain
  unfold Dev.restoreBands
  extract_lets d1 d2 d3
  have h1 : d.Rails d1 := .foldl (fun e b => .of_works (Dev.Works.closeBand (.refl e) b)) _ _
  have h2 : d1.Rails d2 := hpar d1
  have h3 : d2.Rails d3 := .foldl (fun e k => .ite (.refl e) (.addOp e _ _)) _ _
  exact ((h1.trans h2).trans h3).trans (.foldl (fun e b => .foldl (fun x js => .addOp x _ _) _ e) _ _)

theorem Dev.Rails.setFld {off : Nat} (d : Dev) (hoff : off ∉ Reg.PWR_MODE_STS :: railRegs) (hi lo v : Nat) : d.Rails (d.setFld off hi lo v) := .setReg hoff _

theorem Dev.Rails.setFlag {off : Nat} (d : Dev) (hoff : off ∉ Reg.PWR_MODE_STS :: railRegs) (n : Nat) (b : Bool) : d.Rails (d.setFlag off n b) :=
  .setReg hoff _

theorem Dev.Rails.recount (d : Dev) : d.Rails d.recount := by
  unfold Dev.recount
  extract_lets d1 d2 d3 d4 d5
  have h1 : d.Rails d1 := (Dev.Rails.setFld d (by decide) _ _ _).trans (.setFld _ (by decide) _ _ _)
  have h2 : d1.Rails d2 := by
    have hresize : ∀ (e : Dev) n, e.Rails (e.resizeCache n) := fun e n =>
      (((Dev.Rails.setFld e (by decide) _ _ _).trans (.setFld _ (by decide) _ _ _)).trans (.setFld _ (by decide) _ _ _)).trans (.setFlag _ (by decide) _ _)
    exact (hresize d1 _).trans (.of_posts (Dev.Posts.revalid _))
  have h3 : d2.Rails d3 := by
    have hworks : d2.Works ((d2.respace.kitty.rbCounts.peCounts).fchCounts) := Dev.Works.fchCounts (Dev.Works.peCounts (Dev.Works.rbCounts (Dev.Works.kitty (Dev.Works.respace (.refl d2)))))
    exact (Dev.Rails.of_works hworks).trans (.setFld _ (by decide) _ _ _)
  have h4 : d3.Rails d4 := by
    have htrump : ∀ e : Dev, e.Rails e.trumpSum := by
      intro e
      unfold Dev.trumpSum
      extract_lets n was x
      have hx : e.Rails x := .setReg (by decide) _
      exact hx.trans (.ite (.of_reports (Dev.Reports.raise _ _ _)) (.refl x))
    have hsums : ∀ e : Dev, e.Rails e.sliceSums := by
      intro e
      unfold Dev.sliceSums
      extract_lets bound x y
      have hx : e.Rails x := .setFld e (by decide) _ _ _
      have hy : x.Rails y := .setFld x (by decide) _ _ _
      exact (hx.trans hy).trans ((Dev.Rails.setFld y (by decide) _ _ _).trans (htrump _))
    exact ((hsums d3).trans (.setFld _ (by decide) _ _ _)).trans (.of_works (Dev.Works.crCounts (.refl _)))
  have h5 : d4.Rails d5 := (Dev.Rails.setFld d4 (by decide) _ _ _).trans (.setFlag _ (by decide) _ _)
  exact ((h1.trans h2).trans (h3.trans h4)).trans (h5.trans (.setFlag _ (by decide) _ _))

theorem Dev.Rails.adjustHeads (d : Dev) : d.Rails d.adjustHeads := by
  unfold Dev.adjustHeads
  extract_lets d1
  have h1 : d.Rails d1 := by
    simp only [d1]
    split
    · exact .of_reports (Dev.Reports.recordErr _ _ _ _ _)
    · exact .refl d
  refine h1.trans (.foldl_mem (fun e s hs => .ite (.refl e) (.setFld e ?_ _ _ _)) _)
  have hs1024 : s < 1024 := List.mem_range.mp hs
  simp only [railRegs, List.mem_cons, List.not_mem_nil, or_false, Reg.PWR_FAIL_STS, Reg.PWR_MODE_STS, Reg.GLB_STRAP, Reg.PWR_DUMPSET_LO, Reg.HIF_SLICE_HEAD]
  omega

theorem Dev.Rails.startTime (d : Dev) (a b c : Nat) : d.Rails (d.startTime a b c) := by
  unfold Dev.startTime
  extract_lets nvm d1 d2
  have h1 : d.Rails d1 := .plain
  have h2 : d1.Rails d2 := (show d1.Rails (d1.setReg Reg.DLR_TIME_STS _) from .setReg (by decide) _).trans (.setReg (by decide) _)
  exact (h1.trans h2).trans ((show d2.Rails (d2.setReg Reg.GLB_TIME_UNC _) from .setReg (by decide) _).trans (.of_reports (Dev.Reports.capRec _ _ _ _)))

theorem Dev.Rails.timeFresh (d : Dev) : d.Rails d.timeFresh := by
  have hday : d.Rails { d with dayTick := 0 } := .plain
  exact hday.trans (.startTime _ _ _ _)

theorem Dev.Rails.timeReload (d : Dev) (ppm : Nat) : d.Rails (d.timeReload ppm) := by
  have hsave : ∀ e : Dev, e.Rails { e with timeSave := none, saveDue := false } := fun _ => .plain
  unfold Dev.timeReload
  extract_lets s ao elapsed u d1
  have h1 : d.Rails d1 := (Dev.Rails.set64 (by decide) (by decide) _).trans (.set64 (by decide) (by decide) _)
  exact (h1.trans (hsave d1)).trans (.startTime _ _ _ _)

/-- A key whose entries a map of entries keeps, where no entry changes its key. -/
theorem SMap.find_filterMap_keep {α : Type} (f : Nat × α → Option (Nat × α)) (k : Nat) (hk : ∀ v, f (k, v) = some (k, v))
    (hkey : ∀ j v y, f (j, v) = some y → y.1 = j) : ∀ m : SMap α, SMap.find (m.filterMap f) k = SMap.find m k
  | [] => rfl
  | (j, v) :: m => by
    have ih := SMap.find_filterMap_keep f k hk hkey m
    by_cases hj : k = j
    · subst hj
      rw [List.filterMap_cons_some (hk v), SMap.find, SMap.find, if_pos rfl, if_pos rfl]
    · rw [SMap.find, if_neg hj]
      match hf : f (j, v) with
      | none => rw [List.filterMap_cons_none hf, ih]
      | some (i, w) =>
        have hi : i = j := hkey j v _ hf
        rw [List.filterMap_cons_some hf, SMap.find, hi, if_neg hj, ih]

/-- The registers that a COLD reset keeps hold (R501), with VAO lost or present. -/
theorem Dev.reg_coldState {vao : Bool} {off : Nat} (h : keptCold vao off = true) (hi3c : off ≠ Reg.HIF_I3C_CTL) : (d.coldState vao).reg off = d.reg off := by
  obtain ⟨e, he, hregs⟩ : ∃ e : Dev, d.coldState vao = e.setI3c ∧ e.regs = d.coldRegs vao := ⟨_, rfl, rfl⟩
  rw [he, Dev.setI3c, Dev.reg_setReg_ne _ hi3c, Dev.reg, SMap.get, hregs, Dev.coldRegs,
    SMap.find_filterMap_keep _ off (fun v => by simp only [h, if_true]) (fun j v y hy => ?_)]
  · rfl
  · have hmask : ∀ w : Word, (if v &&& w = 0 then none else some (j, v &&& w)) = some y → y.1 = j := by
      intro w hw
      split at hw
      · cases hw
      · exact (congrArg Prod.fst (Option.some.inj hw)).symm
    dsimp only at hy
    by_cases hkept : keptCold vao j = true
    · rw [if_pos hkept] at hy
      exact (congrArg Prod.fst (Option.some.inj hy)).symm
    · rw [if_neg hkept] at hy
      exact hmask _ hy

theorem Dev.Rails.coldState (d : Dev) : d.Rails (d.coldState false) :=
  ⟨rfl, rfl, rfl, fun _ => rfl, fun off ho => Dev.reg_coldState ((show ∀ o ∈ railRegs, keptCold false o = true by decide) off ho)
    ((show ∀ o ∈ railRegs, o ≠ Reg.HIF_I3C_CTL by decide) off ho),
    Or.inl (congrArg (fun w => bits w 2 0) (Dev.reg_coldState (off := Reg.PWR_MODE_STS) (by decide) (by decide)))⟩

/-- What a COLD reset restores after the reset of the registers leaves the rails and PWR_FAIL_STS, with VAO lost or present. -/
theorem Dev.coldInit_split (d : Dev) (vao crcBad : Bool) (cls : Nat) : ∃ old : Dev, d.Rails old ∧ (old.coldState vao).Rails (d.coldInit vao crcBad cls) := by
  have hsync : ∀ (e : Dev) a b, e.Rails { e with resync := a, scanBands := b } := fun _ _ _ => .plain
  have hsave : ∀ e : Dev, e.Rails { e with timeSave := none, saveDue := false } := fun _ => .plain
  have hfound : ∀ (e : Dev) l, e.Rails { e with bmDirty := l }.mergeTwin := fun _ _ => .plain
  have hinc : ∀ (e : Dev) l, e.Rails { e with incidents := l } := fun _ _ => .plain
  unfold Dev.coldInit
  extract_lets ppm d1 old src d2 d3 d4 d5
  have h1 : d.Rails d1 := hfound d _
  have h2 : d1.Rails old := .ite (hinc d1 _) (.refl d1)
  have h3 : (old.coldState vao).Rails d2 := hsync _ _ _
  have h4 : d2.Rails d3 := .restoreCache old d2 cls
  have h5 : d3.Rails d4 := .foldl (fun e kv => .loadCtx e _ _) _ _
  have h6 : d4.Rails d5 := ((Dev.Rails.restoreBands d4).trans (.recount _)).trans (.adjustHeads _)
  have h7 : d5.Rails (if vao || crcBad then { d5 with timeSave := none, saveDue := false }.timeFresh else d5.timeReload ppm) :=
    .ite ((hsave d5).trans (.timeFresh _)) (.timeReload d5 ppm)
  exact ⟨old, h1.trans h2, (h3.trans h4).trans ((h5.trans h6).trans h7)⟩

theorem Dev.Rails.coldInit (d : Dev) (crcBad : Bool) (cls : Nat) : d.Rails (d.coldInit false crcBad cls) := by
  obtain ⟨old, hold, hrest⟩ := d.coldInit_split false crcBad cls
  exact (hold.trans (.coldState old)).trans hrest

/-! ### A COLD bring-up -/

theorem Dev.BroughtUp.setEnMain (d : Dev) : (d.setEnMain true).regs = d.regs ∧ (d.setEnMain true).pgMain = d.pgMain ∧ (d.setEnMain true).enMain = true ∧
    (d.setEnMain true).bring = d.bring ∧ (d.setEnMain true).down = d.down ∧ (d.setEnMain true).entryTgt = d.entryTgt := by
  unfold Dev.setEnMain
  extract_lets e
  have he : e.regs = d.regs ∧ e.pgMain = d.pgMain ∧ e.bring = d.bring ∧ e.down = d.down ∧ e.entryTgt = d.entryTgt := by
    simp only [e]
    split
    · exact ⟨rfl, rfl, rfl, rfl, rfl⟩
    · exact ⟨rfl, rfl, rfl, rfl, rfl⟩
  obtain ⟨h1, h2, h3, h4, h5⟩ := he
  exact ⟨h1, h2, rfl, h3, h4, h5⟩

/-- A COLD bring-up with VAO present (R490). -/
structure Dev.ColdUp (d : Dev) (start : Nat) (r : BringUp) (t : Dev) : Prop where
  cause : t.fld Reg.TST_BRG_CAUSE 2 0 = start
  dumping : t.dumping = false
  fail0 : t.flag Reg.PWR_FAIL_STS 0 = d.flag Reg.PWR_FAIL_STS 0
  released : t.released = false
  mode : t.mode = 0
  phase : t.phase = 0
  entryTgt : t.entryTgt = 0
  down : t.down = false
  bring : t.bring = some r
  off : d.pgMain = false → t.enMain = true

theorem Dev.coldBring_spec (d : Dev) (m : Memory) {start : Nat} (hs : start < 8) (r : BringUp) : d.ColdUp start r (d.coldBring m start false r) := by
  rw [Dev.coldBring_eq]
  obtain ⟨e, he⟩ : ∃ e, e = d.headsDown.coldInit false (r.retFail.contains 1) d.nvm.stopOf := ⟨_, rfl⟩
  have hrails : d.Rails e := by
    rw [he]
    exact (Dev.Rails.headsDown d).trans (.coldInit _ _ _)
  rw [← he]
  obtain ⟨hcause, hdump, hfail0, hrel, hmode, hphase, htgt, hdown, hpg⟩ := Dev.coldBegun_spec e start d.nvm.stopOf
  obtain ⟨b, hb⟩ : ∃ b, b = e.coldBegun start d.nvm.stopOf := ⟨_, rfl⟩
  rw [← hb] at hcause hdump hfail0 hrel hmode hphase htgt hdown hpg ⊢
  have hfld : bits (w32 (start + 8 * d.nvm.stopOf)) 2 0 = start := by
    rw [bits_w32 _ _ _ (by decide)]
    omega
  have hfail : e.flag Reg.PWR_FAIL_STS 0 = d.flag Reg.PWR_FAIL_STS 0 := congrArg (fun w => bitAt w 0) hrails.fail
  by_cases hup : b.pgMain = true
  · have hgo := Dev.coldGo_up b m r hup
    obtain ⟨h1, h2, h3, h4, h5⟩ := hgo.power
    refine ⟨?_, (hgo.fail 1 (by decide)).trans hdump, ((hgo.fail 0 (by decide)).trans hfail0).trans hfail, hgo.released.trans hrel, ?_, hgo.phase.trans hphase,
      h5.trans htgt, h4.trans hdown, h3, fun hoff => ?_⟩
    · rw [Dev.fld, hgo.cause]
      exact (congrArg (fun w => bits w 2 0) hcause).trans hfld
    · exact hgo.mode.elim (fun h => h.trans hmode) id
    · rw [hpg, hrails.pgMain, hoff] at hup
      cases hup
  · have hgo : b.coldGo m r = { b with bring := some r, pgTry := 1 }.setEnMain true := by
      unfold Dev.coldGo
      exact if_neg hup
    obtain ⟨h1, -, h3, h4, h5, h6⟩ := Dev.BroughtUp.setEnMain { b with bring := some r, pgTry := 1 }
    have hreg : ∀ off, (b.coldGo m r).reg off = b.reg off := fun off => by
      rw [hgo, Dev.reg, h1]
      rfl
    rw [← hgo] at h3 h4 h5 h6
    refine ⟨?_, ?_, ?_, ?_, ?_, ?_, h6.trans htgt, h5.trans hdown, h4, fun _ => h3⟩
    · rw [Dev.fld, hreg, hcause]
      exact hfld
    · exact (congrArg (fun w => bitAt w 1) (hreg _)).trans hdump
    · exact ((congrArg (fun w => bitAt w 0) (hreg _)).trans hfail0).trans hfail
    · exact (congrArg (fun w => bitAt w 0) (hreg _)).trans hrel
    · exact (congrArg (fun w => bits w 2 0) (hreg _)).trans hmode
    · exact (congrArg (fun w => bits w 6 4) (hreg _)).trans hphase

/-- The registers that heads going down change. -/
def headRegs : List Nat := reportRegs ++ (List.range 4).map Reg.HIF_LINK_STS

/-- The device without its rails, its heads' losses and what reports change. -/
def Dev.sansRails (d : Dev) : Dev := { d.sansReports with headDown := [], enMain := false, pgMain := false }

theorem Dev.takeHeadDown_frame (d : Dev) {h : Nat} (hh : h < 4) : Dev.Frame Dev.sansRails headRegs d (d.takeHeadDown h) := by
  have hmem : Reg.HIF_LINK_STS h ∈ headRegs := List.mem_append_right _ (List.mem_map.mpr ⟨h, List.mem_range.mpr hh, rfl⟩)
  have hm : Reg.HIF_LINK_STS h ∉ modeRegs := by
    simp only [modeRegs, List.mem_cons, List.not_mem_nil, or_false, Reg.HIF_LINK_STS, Reg.PWR_MODE_STS, Reg.GLB_DEV_STS]
    omega
  have hdown : ∀ (e : Dev) l, Dev.Frame Dev.sansRails headRegs e { e with headDown := l } := fun e l => .hidden rfl rfl rfl
  have hrep : ∀ {e t : Dev}, e.Reports t → Dev.Frame Dev.sansRails headRegs e t := fun h =>
    Dev.Frame.weaken h (fun _ => rfl) (fun _ ho => List.mem_append_left _ ho)
  unfold Dev.takeHeadDown
  extract_lets d1
  have h1 : Dev.Frame Dev.sansRails headRegs d d1 :=
    ((Dev.Frame.setFlag hmem _ _ (hm := hm)).trans (.setFlag hmem _ _ (hm := hm))).trans (.setFlag hmem _ _ (hm := hm))
  refine Dev.Frame.ite ?_ (.refl d)
  exact ((h1.trans (hdown d1 _)).trans (hrep (Dev.Reports.raise _ _ _))).trans (hrep (Dev.Reports.capRecFree _ _ _ _))

theorem Dev.headsDown_frame (d : Dev) : Dev.Frame Dev.sansRails headRegs d d.headsDown := by
  refine Dev.Frame.foldl_mem (fun e h hh => Dev.takeHeadDown_frame e ?_) d
  simp only [List.mem_cons, List.not_mem_nil, or_false] at hh
  omega

/-- EN_MAIN falls, and the heads with it. -/
theorem Dev.setEnMain_low (d : Dev) : (d.setEnMain false).enMain = false ∧ (d.setEnMain false).pgMain = false ∧
    Dev.Frame Dev.sansRails headRegs d (d.setEnMain false) := by
  have hrails : ∀ e : Dev, Dev.Frame Dev.sansRails headRegs e { e with enMain := false, pgMain := false } := fun e => .hidden rfl rfl rfl
  unfold Dev.setEnMain
  extract_lets e
  have he : Dev.Frame Dev.sansRails headRegs d e := Dev.Frame.ite (.refl d) (.emit _)
  exact ⟨rfl, rfl, (he.trans (Dev.headsDown_frame e)).trans (hrails _)⟩

theorem not_mem_headRegs {off : Nat} (h : off ∉ reportRegs) (hpg : off < 0x100000 ∨ 0x101000 ≤ off) : off ∉ headRegs := by
  intro hin
  rcases List.mem_append.mp hin with hmem | hmem
  · exact h hmem
  · obtain ⟨n, hn, rfl⟩ := List.mem_map.mp hmem
    have hn4 : n < 4 := List.mem_range.mp hn
    simp only [Reg.HIF_LINK_STS] at hpg
    omega

end

/-! ### The obligation -/

section
variable (s : State) (hrun : s.running)
include hrun

/-- Each cause of the dump starts it (R436, R532, R533). -/
theorem exec_dumpCause (i : Instr) (src : Nat) (hi : (i, src) ∈ [(Instr.pwrFailRecognised, 0), (.vidAlert, 1), (.pgMainFall, 1), (.thermtrip, 2)])
    (hm : s.dev.mode ≤ 2) : ∃ e, s.dev.Told e ∧ exec i s = .next { s with dev := e.recognise src } ∧
      (src = 2 → s.dev.tells e (.ballLevel "THERMTRIP_N" false)) := by
  obtain ⟨hsup, hao, hmain⟩ := hrun
  simp only [List.mem_cons, Prod.mk.injEq, List.not_mem_nil, or_false] at hi
  rcases hi with ⟨rfl, rfl⟩ | ⟨rfl, rfl⟩ | ⟨rfl, rfl⟩ | ⟨rfl, rfl⟩
  · refine ⟨(s.dev.capRecFree 0x31 0 [1]).setFlag Reg.PWR_FAIL_STS 0 true, ?_, actAo_next s doPwrFailRecognised hsup hao, fun h => absurd h (by decide)⟩
    have h1 := Dev.Reports.capRecFree s.dev 0x31 0 [1]
    have hw : Dev.Frame Dev.sansReports (reportRegs ++ [Reg.PWR_FAIL_STS]) s.dev (s.dev.capRecFree 0x31 0 [1]) :=
      Dev.Frame.weaken h1 (fun _ => rfl) (fun _ ho => List.mem_append_left _ ho)
    refine ⟨hw.trans (.setFlag (by decide) _ _), fun n hn => ?_⟩
    rw [Dev.flag_setFlag_other _ _ _ _ _ (by decide) (by omega)]
    exact congrArg (fun w => bitAt w n) (h1.regs _ (by decide))
  · exact ⟨s.dev, .of_reports (.refl _), act_of_running s doVidAlert ⟨hsup, hao, hmain⟩, fun h => absurd h (by decide)⟩
  · refine ⟨s.dev.capRecFree 0x31 1 [2], .of_reports (Dev.Reports.capRecFree s.dev _ _ _), ?_, fun h => absurd h (by decide)⟩
    refine (act_of_running s doPgMainFall ⟨hsup, hao, hmain⟩).trans ?_
    rw [doPgMainFall, if_pos hm]
  · have hemit : s.dev.Reports (s.dev.emit (.ballLevel "THERMTRIP_N" false)) := .emit _
    have hraise := Dev.Reports.raise (s.dev.emit (.ballLevel "THERMTRIP_N" false)) 0xD00 5
    refine ⟨(s.dev.emit (.ballLevel "THERMTRIP_N" false)).raise 0xD00 5, .of_reports (hemit.trans hraise), actAo_next s doThermtrip hsup hao, fun _ => ?_⟩
    exact Dev.tells_within List.prefix_rfl (Dev.tells_of_out [] [] rfl) hraise.out

omit hrun in
/-- DUMP_DONE goes to the NVM record, and DUMPED to the twin. -/
def Dev.dumpDoneTold (d : Dev) : Dev := { d with nvm := { d.nvm with dumpDone := d.nvm.dumpStart } }.sendGulon 0x42 []

omit hrun in
theorem Dev.dumpDoneTold_spec (d : Dev) : (∀ off, off ∉ postRegs → d.dumpDoneTold.reg off = d.reg off) ∧ d.dumpDoneTold.nvm.dumpDone = d.nvm.dumpStart ∧
    d.dumpDoneTold.bring = d.bring ∧ d.dumpDoneTold.dumpSrc = d.dumpSrc := by
  obtain ⟨e, he⟩ : ∃ e : Dev, e = { d with nvm := { d.nvm with dumpDone := d.nvm.dumpStart } } := ⟨_, rfl⟩
  have hsend : e.Posts d.dumpDoneTold := by
    rw [he]
    exact Dev.Posts.sendGulon _ _ _
  refine ⟨fun off ho => (hsend.regs off ho).trans ?_, (congrArg (·.nvm.dumpDone) hsend.kept).trans ?_, (congrArg (·.bring) hsend.kept).trans ?_,
    (congrArg (·.dumpSrc) hsend.kept).trans ?_⟩
  all_goals
    rw [he]
    rfl

omit hrun in
/-- The registers that tell of a dump's end (Table PWR-10). -/
def Dev.dumpShown (d : Dev) (us : Nat) : Dev :=
  let d := (d.setFlag Reg.PWR_FAIL_STS 1 false).setFlag Reg.PWR_FAIL_STS 3 true
  (d.setReg Reg.PWR_DUMP_MIB (w32 (satN 16 d.dumpMib))).setReg Reg.PWR_DUMP_US (w32 (satN 16 us))

omit hrun in
/-- The device once a dump's end is recorded (R439). -/
def Dev.dumpEnded (d : Dev) (us : Nat) : Dev := (d.dumpShown us).dumpDoneTold

omit hrun in
theorem satN_16 (n : Nat) : satN 16 n = min n 65535 := by simp only [satN, Nat.reducePow, Nat.reduceSub]

omit hrun in
theorem Dev.dumpMib_congr {d t : Dev} (hsegs : t.segs = d.segs) (hused : t.usedSlots = d.usedSlots) (hlog : t.dlog = d.dlog) : t.dumpMib = d.dumpMib := by
  rw [Dev.dumpMib, hsegs, hused, hlog, ← Dev.dumpMib]

omit hrun in
theorem Dev.dumpEnded_spec (d : Dev) (us : Nat) : (d.dumpEnded us).flag Reg.PWR_FAIL_STS 1 = false ∧ (d.dumpEnded us).flag Reg.PWR_FAIL_STS 3 = true ∧
    (d.dumpEnded us).reg Reg.PWR_DUMP_US = w32 (min us 65535) ∧ (d.dumpEnded us).reg Reg.PWR_DUMP_MIB = w32 (min d.dumpMib 65535) ∧
    (d.dumpEnded us).nvm.dumpDone = d.nvm.dumpStart ∧ (d.dumpEnded us).bring = d.bring ∧ (d.dumpEnded us).dumpSrc = d.dumpSrc := by
  obtain ⟨hreg, hdone, hbr, hsrc⟩ := Dev.dumpDoneTold_spec (d.dumpShown us)
  obtain ⟨e, he⟩ : ∃ e, e = (d.setFlag Reg.PWR_FAIL_STS 1 false).setFlag Reg.PWR_FAIL_STS 3 true := ⟨_, rfl⟩
  have hshown : d.dumpShown us = (e.setReg Reg.PWR_DUMP_MIB (w32 (satN 16 e.dumpMib))).setReg Reg.PWR_DUMP_US (w32 (satN 16 us)) := by
    rw [he]
    rfl
  have h1 : ∀ off, off ≠ Reg.PWR_FAIL_STS → e.reg off = d.reg off := fun off ho => by
    rw [he, Dev.reg_setFlag_ne _ ho, Dev.reg_setFlag_ne _ ho]
  have hlog : e.dlog = d.dlog := by
    rw [he]
    rfl
  have hmib : e.dumpMib = d.dumpMib :=
    Dev.dumpMib_congr (congrArg (fun w => bits w 5 0) (h1 _ (by decide))) (congrArg (fun w => bits w 20 0) (h1 _ (by decide))) hlog
  have hfail : ∀ n, (d.dumpShown us).flag Reg.PWR_FAIL_STS n = e.flag Reg.PWR_FAIL_STS n := fun n => by
    rw [hshown, Dev.flag_setReg_ne _ (by decide), Dev.flag_setReg_ne _ (by decide)]
  have hkept : (d.dumpShown us).nvm = d.nvm ∧ (d.dumpShown us).bring = d.bring ∧ (d.dumpShown us).dumpSrc = d.dumpSrc := by
    have hset : ∀ (x : Dev) off v, (x.setReg off v).nvm = x.nvm ∧ (x.setReg off v).bring = x.bring ∧ (x.setReg off v).dumpSrc = x.dumpSrc :=
      fun _ _ _ => ⟨rfl, rfl, rfl⟩
    have hflags : e.nvm = d.nvm ∧ e.bring = d.bring ∧ e.dumpSrc = d.dumpSrc := by
      rw [he]
      exact ⟨rfl, rfl, rfl⟩
    rw [hshown, (hset _ _ _).1, (hset _ _ _).2.1, (hset _ _ _).2.2, (hset _ _ _).1, (hset _ _ _).2.1, (hset _ _ _).2.2]
    exact hflags
  refine ⟨?_, ?_, ?_, ?_, hdone.trans (congrArg (·.dumpStart) hkept.1), hbr.trans hkept.2.1, hsrc.trans hkept.2.2⟩
  · rw [Dev.dumpEnded, Dev.flag, hreg _ (by decide), ← Dev.flag, hfail, he, Dev.flag_setFlag_other _ _ _ _ _ (by decide) (by decide),
      Dev.flag_setFlag_self _ _ _ _ (by decide)]
  · rw [Dev.dumpEnded, Dev.flag, hreg _ (by decide), ← Dev.flag, hfail, he, Dev.flag_setFlag_self _ _ _ _ (by decide)]
  · rw [Dev.dumpEnded, hreg _ (by decide), hshown, Dev.reg_setReg_self, satN_16]
  · rw [Dev.dumpEnded, hreg _ (by decide), hshown, Dev.reg_setReg_ne _ (by decide), Dev.reg_setReg_self, hmib, satN_16]

omit hrun in
theorem doDumpDone_eq (us : Nat) (m : Memory) (d : Dev) (hd : d.dumping = true) : doDumpDone us m d =
    match (d.dumpEnded us).bring, (d.dumpEnded us).dumpSrc with
    | some r, 4 => (d.dumpEnded us).coldBring m 2 false r
    | some r, 5 => ((d.dumpEnded us).setEnMain false).coldBring m 1 false r
    | _, _ => { (d.dumpEnded us).setEnMain false with down := true, resetRun := true } := by
  unfold doDumpDone
  exact if_neg (by simp [hd])

end

/-- Settles O46: each cause's start of the dump, and the three ways on from its end. -/
theorem powerLossDump : Obligations.PowerLossDump := by
  intro s hrun
  refine ⟨fun i src hi hd hdown hm hst hstop hbring => ?_, fun hd us => ⟨fun hnone => ?_, fun r hr h4 => ?_, fun r hr h5 => ?_⟩⟩
  · obtain ⟨e, htold, hexec, htell⟩ := exec_dumpCause s hrun i src hi hm
    obtain ⟨h1, h2, h3, h4, h5, h6, h7, h8, h9, h10, h11, hout⟩ :=
      Dev.recognise_spec src htold hd hdown hm hrun.2.2 hst hstop hbring (e.recognise src) rfl
    exact ⟨_, hexec, h1, h2, h3, h4, h5, h6, h7, h8, h9, h10, fun h => ⟨h11 h, Dev.tells_within List.prefix_rfl (htell h) hout⟩, rfl, rfl⟩
  all_goals
    obtain ⟨hsup, hao, hmain⟩ := hrun
    obtain ⟨hfail1, hfail3, hus, hmib, hdone, hbr, hsrc⟩ := Dev.dumpEnded_spec s.dev us
  · have hbody : doDumpDone us s.array s.dev = { (s.dev.dumpEnded us).setEnMain false with down := true, resetRun := true } := by
      rw [doDumpDone_eq us s.array s.dev hd, hbr, hnone]
    obtain ⟨hen, hpg, hframe⟩ := Dev.setEnMain_low (s.dev.dumpEnded us)
    have hreg : ∀ off, off ∉ headRegs → ({ (s.dev.dumpEnded us).setEnMain false with down := true, resetRun := true } : Dev).reg off =
        (s.dev.dumpEnded us).reg off := fun off ho => hframe.regs off ho
    refine ⟨_, act_of_running s (doDumpDone us s.array) ⟨hsup, hao, hmain⟩, ?_⟩
    dsimp only
    rw [hbody]
    refine ⟨?_, ?_, ?_, ?_, (congrArg (·.nvm.dumpDone) hframe.kept).trans hdone, hen, hpg, rfl⟩
    · exact (congrArg (fun w => bitAt w 1) (hreg _ (not_mem_headRegs (by decide) (by decide)))).trans hfail1
    · exact (congrArg (fun w => bitAt w 3) (hreg _ (not_mem_headRegs (by decide) (by decide)))).trans hfail3
    · exact (hreg _ (not_mem_headRegs (by decide) (by decide))).trans hus
    · exact (hreg _ (not_mem_headRegs (by decide) (by decide))).trans hmib
  · have hbody : doDumpDone us s.array s.dev = (s.dev.dumpEnded us).coldBring s.array 2 false r := by
      rw [doDumpDone_eq us s.array s.dev hd, hbr, hr, hsrc, h4]
      rfl
    have hspec := Dev.coldBring_spec (s.dev.dumpEnded us) s.array (start := 2) (by decide) r
    rw [← hbody] at hspec
    exact ⟨_, act_of_running s (doDumpDone us s.array) ⟨hsup, hao, hmain⟩, hspec.dumping, hspec.released, hspec.cause⟩
  · have hbody : doDumpDone us s.array s.dev = ((s.dev.dumpEnded us).setEnMain false).coldBring s.array 1 false r := by
      rw [doDumpDone_eq us s.array s.dev hd, hbr, hr, hsrc, h5]
      rfl
    have hspec := Dev.coldBring_spec ((s.dev.dumpEnded us).setEnMain false) s.array (start := 1) (by decide) r
    rw [← hbody] at hspec
    exact ⟨_, act_of_running s (doDumpDone us s.array) ⟨hsup, hao, hmain⟩, hspec.dumping, hspec.off (Dev.setEnMain_low _).2.1, hspec.bring, hspec.cause⟩

end Sys2Proof.Machine
end

section
/-! Device resets (R58 to R60, R560). -/

namespace Sys2Proof.Machine

-- In order, one declaration at a time: keeps the check within its memory limit.
set_option Elab.async false

section
variable (d : Dev)

/-- A count of a field stops at the field's end. -/
theorem Dev.fld_incFld_self (off hi lo n : Nat) (h : hi < 32) :
    (d.incFld off hi lo n).fld off hi lo = min (d.fld off hi lo + n) (2 ^ (hi + 1 - lo) - 1) := by
  rw [Dev.incFld, Dev.fld_setFld_self _ _ _ _ _ h, satN]
  have hpos : 0 < 2 ^ (hi + 1 - lo) := Nat.two_pow_pos _
  exact Nat.mod_eq_of_lt (by omega)

/-- GLB_RST_STS shows a reset of the scope, counted. -/
structure Dev.ResetShown (scope : Nat) (refused : Bool) (t : Dev) : Prop where
  count : t.fld Reg.GLB_RST_STS 31 16 = min (d.fld Reg.GLB_RST_STS 31 16 + 1) 0xFFFF
  scope : t.fld Reg.GLB_RST_STS 3 0 = scope
  refused : t.flag Reg.GLB_RST_STS 4 = refused
  abandoned : t.flag Reg.GLB_RST_STS 5 = false

theorem Dev.ResetShown.of_reg {d e t : Dev} {scope : Nat} {refused : Bool} (h : d.ResetShown scope refused e)
    (hr : t.reg Reg.GLB_RST_STS = e.reg Reg.GLB_RST_STS) : d.ResetShown scope refused t :=
  ⟨(congrArg (fun w => bits w 31 16) hr).trans h.count, (congrArg (fun w => bits w 3 0) hr).trans h.scope,
    (congrArg (fun w => bitAt w 4) hr).trans h.refused, (congrArg (fun w => bitAt w 5) hr).trans h.abandoned⟩

theorem Dev.ResetShown.from {d e t : Dev} {scope : Nat} {refused : Bool} (h : e.ResetShown scope refused t)
    (hr : e.reg Reg.GLB_RST_STS = d.reg Reg.GLB_RST_STS) : d.ResetShown scope refused t :=
  ⟨h.count.trans (congrArg (fun w => min (bits w 31 16 + 1) 0xFFFF) hr), h.scope, h.refused, h.abandoned⟩

/-- GLB_RST_STS as a reset's start writes it. -/
def Dev.resetCounted (d : Dev) (scope : Nat) : Dev :=
  (((d.incFld Reg.GLB_RST_STS 31 16 1).setFld Reg.GLB_RST_STS 3 0 scope).setFlag Reg.GLB_RST_STS 4 false).setFlag Reg.GLB_RST_STS 5 false

theorem Dev.resetCounted_shown {scope : Nat} (h : scope < 16) : d.ResetShown scope false (d.resetCounted scope) := by
  unfold Dev.resetCounted
  refine ⟨?_, ?_, ?_, ?_⟩
  · rw [Dev.fld_setFlag_other _ _ _ _ _ _ (by decide) (by decide), Dev.fld_setFlag_other _ _ _ _ _ _ (by decide) (by decide),
      Dev.fld_setFld_other _ _ _ _ _ _ _ (by decide) (by decide), Dev.fld_incFld_self _ _ _ _ _ (by decide)]
    rfl
  · rw [Dev.fld_setFlag_other _ _ _ _ _ _ (by decide) (by decide), Dev.fld_setFlag_other _ _ _ _ _ _ (by decide) (by decide),
      Dev.fld_setFld_self _ _ _ _ _ (by decide)]
    exact Nat.mod_eq_of_lt h
  · rw [Dev.flag_setFlag_other _ _ _ _ _ (by decide) (by decide), Dev.flag_setFlag_self _ _ _ _ (by decide)]
  · rw [Dev.flag_setFlag_self _ _ _ _ (by decide)]

theorem Dev.reg_resetStart (scope off : Nat) : (d.resetStart scope).reg off = (d.resetCounted scope).reg off := rfl

theorem Dev.reg_resetCounted (scope : Nat) {off : Nat} (h : off ≠ Reg.GLB_RST_STS) : (d.resetCounted scope).reg off = d.reg off := by
  rw [Dev.resetCounted, Dev.reg_setFlag_ne _ h, Dev.reg_setFlag_ne _ h, Dev.reg_setFld_ne _ h, Dev.reg_incFld_ne _ h]

/-- A reset that RESET_N starts keeps REFUSED. -/
theorem Dev.resetNStart_shown : d.ResetShown 2 (d.flag Reg.GLB_RST_STS 4) d.resetNStart := by
  have hshown := (Dev.resetCounted_shown d (scope := 2) (by decide)).of_reg (Dev.reg_resetStart d 2 _)
  have hreg : ∀ off, d.resetNStart.reg off = ((d.resetStart 2).setFlag Reg.GLB_RST_STS 4 (d.flag Reg.GLB_RST_STS 4)).reg off := fun _ => rfl
  refine ⟨?_, ?_, ?_, ?_⟩
  · rw [Dev.fld, hreg, ← Dev.fld, Dev.fld_setFlag_other _ _ _ _ _ _ (by decide) (by decide)]
    exact hshown.count
  · rw [Dev.fld, hreg, ← Dev.fld, Dev.fld_setFlag_other _ _ _ _ _ _ (by decide) (by decide)]
    exact hshown.scope
  · rw [Dev.flag, hreg, ← Dev.flag, Dev.flag_setFlag_self _ _ _ _ (by decide)]
  · rw [Dev.flag, hreg, ← Dev.flag, Dev.flag_setFlag_other _ _ _ _ _ (by decide) (by decide)]
    exact hshown.abandoned

theorem Dev.reg_resetNStart {off : Nat} (h : off ≠ Reg.GLB_RST_STS) : d.resetNStart.reg off = d.reg off :=
  (Dev.reg_setFlag_ne (d.resetStart 2) h 4 _).trans ((Dev.reg_resetStart d 2 off).trans (Dev.reg_resetCounted d 2 h))

/-- The dump that a device reset starts keeps what GLB_RST_STS shows. -/
theorem Dev.resetDump_spec {e : Dev} {src : Nat} (hsrc : 4 ≤ src) {scope : Nat} {refused : Bool} (h : d.ResetShown scope refused e)
    (hd : e.dumping = false) (hm : e.mode ≤ 2) :
    d.ResetShown scope refused (e.toRun.startDump src) ∧ (e.toRun.startDump src).dumping = true ∧ (e.toRun.startDump src).bring = e.bring := by
  have hrep := Dev.Reports.toRun e
  have hspec := Dev.startDump_spec e.toRun src ((congrArg (fun w => bitAt w 1) (hrep.regs Reg.PWR_FAIL_STS (by decide))).trans hd)
    (hrep.runs.modeOr.elim (fun h0 => h0 ▸ hm) (fun h0 => h0 ▸ Nat.zero_le 2))
  refine ⟨(h.of_reg (hrep.regs _ (by decide))).of_reg ?_, hspec.dumping, (hspec.bring.trans (if_pos hsrc)).trans (congrArg (·.bring) hrep.kept)⟩
  exact hspec.regs _ (not_mem_dumpRegs (by decide) (by decide) (by decide)) (by decide)

end

/-! ### The obligation -/

/-- GLB_RST_CTL of Table GLB-1. -/
def rstRow : RegDef := ⟨"GLB_RST_CTL", 0x180, 1, 0x4, 0x0, 0x0, 0x0, 0x0, 0xFFFF000F, 0xFFF0, true, false, false⟩

/-- A write of GLB_RST_CTL with the key does what its scope says, once it has arrived. -/
theorem rstCtl_key (d : Dev) (v : Word) (scope : Nat) (f : Dev → Dev) (ho : d.isOpen 0) (hrsv : v &&& 0xFFF0 = 0)
    (hv : bits v 31 16 = 0x4C4D ∧ bits v 3 0 = scope) : ∃ d1, d.Arrives d1 ∧ (f d1).Publishes (rstCtl v scope f d) := by
  obtain ⟨d1, harr, hpub⟩ := regWrite_clean d Reg.GLB_RST_CTL v (fun _ d => if bits v 31 16 = 0x4C4D ∧ bits v 3 0 = scope then f d else d)
    rstRow ho rfl hrsv
  exact ⟨d1, harr, (if_pos hv : _ = f d1) ▸ hpub⟩

theorem Dev.Arrives.noTags {d t : Dev} (h : d.Arrives t) : t.noTags = d.noTags := by
  obtain ⟨_, _, rfl, _⟩ := h
  rfl

theorem Dev.Arrives.resetRun {d t : Dev} (h : d.Arrives t) : t.resetRun = d.resetRun := by
  obtain ⟨_, _, rfl, _⟩ := h
  rfl

theorem Dev.Publishes.resetRun {d t : Dev} (h : d.Publishes t) : t.resetRun = d.resetRun := by
  obtain ⟨_, _, _, rfl, _⟩ := h
  rfl

theorem Dev.Publishes.bring {d t : Dev} (h : d.Publishes t) : t.bring = d.bring := by
  obtain ⟨_, _, _, rfl, _⟩ := h
  rfl

/-- An accepted WARM write starts the entry phases. -/
theorem Dev.warm_go (d : Dev) (res : BringUp) (h : d.noTags = true) :
    d.ResetShown 1 false (d.warm res) ∧ (d.warm res).resetRun = true ∧ (d.warm res).phase = 1 := by
  obtain ⟨e, he⟩ : ∃ e : Dev, e = { d.resetStart 1 with resetRun := true, entryTgt := 5, bring := some res } := ⟨_, rfl⟩
  have hshown : d.ResetShown 1 false e := (Dev.resetCounted_shown d (scope := 1) (by decide)).of_reg (congrArg (·.reg Reg.GLB_RST_STS) he)
  have hwarm : d.warm res = (e.setPhase 1).toRun := by
    rw [Dev.warm, if_neg (by simp [h]), he]
  have hrep := Dev.Reports.toRun (e.setPhase 1)
  rw [hwarm]
  refine ⟨(hshown.of_reg (Dev.reg_setFld_ne e (by decide) 6 4 1)).of_reg (hrep.regs _ (by decide)), ?_, ?_⟩
  · exact (congrArg (·.resetRun) hrep.kept).trans (congrArg (·.resetRun) he)
  · exact (hrep.runs.stsFld _ _ (by decide)).trans (Dev.fld_setFld_self e Reg.PWR_MODE_STS 6 4 1 (by decide))

/-- Settles O7: GLB_RST_STS counts and shows each reset that starts; the phases of an entry, or the dump, follow. -/
theorem deviceResetsStart : Obligations.DeviceResetsStart := by
  intro s res hrun ho sts
  have hsts : ∀ (t : Dev) scope refused, s.dev.ResetShown scope refused t →
      sts { s with dev := t } scope refused := fun t _ _ h => ⟨h.count, h.scope, h.refused, h.abandoned⟩
  refine ⟨fun htags => ?_, fun htags => ?_, fun hd hm => ?_, fun hd hdown hst hres hm => ?_⟩
  · obtain ⟨d1, harr, hpub⟩ := rstCtl_key s.dev 0x4C4D0001 1 (fun d => d.warm res) ho (by decide) (by decide)
    obtain ⟨hshown, hreset, hphase⟩ := Dev.warm_go d1 res (harr.noTags.trans htags)
    refine ⟨_, act_of_running s (doWarmReset 0x4C4D0001 res) hrun, hsts _ _ _ ?_, ?_, ?_⟩
    · exact (hshown.from (harr.reg _)).of_reg (hpub.reg _)
    · exact hpub.resetRun.trans hreset
    · exact (hpub.fld _ _ _).trans hphase
  · obtain ⟨d1, harr, hpub⟩ := rstCtl_key s.dev 0x4C4D0001 1 (fun d => d.warm res) ho (by decide) (by decide)
    have hwarm : d1.warm res = d1.setFlag Reg.GLB_RST_STS 4 true := if_pos (by simp [harr.noTags.trans htags])
    rw [hwarm] at hpub
    refine ⟨_, act_of_running s (doWarmReset 0x4C4D0001 res) hrun, ?_, ?_, ?_⟩
    · exact (hpub.flag _ _).trans (Dev.flag_setFlag_self d1 _ _ _ (by decide))
    · exact (hpub.fld _ _ _).trans ((Dev.fld_setFlag_other d1 _ _ _ _ _ (by decide) (by decide)).trans (harr.fld _ _ _))
    · exact hpub.resetRun.trans harr.resetRun
  · obtain ⟨d1, harr, hpub⟩ := rstCtl_key s.dev 0x4C4D0002 2 (fun d => d.cold res) ho (by decide) (by decide)
    obtain ⟨e, he⟩ : ∃ e : Dev, e = { d1.resetStart 2 with resetRun := true, stayDown := false, bring := some res } := ⟨_, rfl⟩
    have hd1 : d1.dumping = false := (harr.flag _ _).trans hd
    have hcold : d1.cold res = e.toRun.startDump 4 := by
      rw [Dev.cold, hd1, he]
      rfl
    have hreg : ∀ off, off ≠ Reg.GLB_RST_STS → e.reg off = s.dev.reg off := fun off hoff =>
      (show e.reg off = (d1.resetStart 2).reg off from he ▸ rfl).trans
        ((Dev.reg_resetStart d1 2 off).trans ((Dev.reg_resetCounted d1 2 hoff).trans (harr.reg off)))
    have hshown : s.dev.ResetShown 2 false e :=
      ((Dev.resetCounted_shown d1 (scope := 2) (by decide)).of_reg (congrArg (·.reg Reg.GLB_RST_STS) he)).from (harr.reg _)
    obtain ⟨hshown', hdump, hbring⟩ := Dev.resetDump_spec s.dev (src := 4) (by decide) hshown
      ((congrArg (fun w => bitAt w 1) (hreg _ (by decide))).trans hd)
      ((congrArg (fun w => bits w 2 0) (hreg _ (by decide))).trans_le hm)
    rw [← hcold] at hshown' hdump hbring
    refine ⟨_, act_of_running s (doColdReset 0x4C4D0002 res) hrun, hsts _ _ _ (hshown'.of_reg (hpub.reg _)), ?_, ?_⟩
    · exact (hpub.flag _ _).trans hdump
    · exact hpub.bring.trans (hbring.trans (congrArg (·.bring) he))
  · obtain ⟨hsup, hao, hmain⟩ := hrun
    obtain ⟨e, he⟩ : ∃ e : Dev, e = { s.dev.resetNStart with resetRun := true, bring := some res } := ⟨_, rfl⟩
    have hreg : ∀ off, off ≠ Reg.GLB_RST_STS → s.dev.resetNStart.reg off = s.dev.reg off := fun off hoff => Dev.reg_resetNStart s.dev hoff
    have hrest : s.dev.resetNStart.restarts = false := by
      refine Eq.trans ?_ hres
      unfold Dev.restarts Dev.dumping Dev.mode Dev.stopped Dev.stage Dev.flag Dev.fld
      rw [hreg _ (by decide), hreg _ (by decide), hreg _ (by decide), hreg _ (by decide)]
      rfl
    have hbody : doResetNRecognised res s.array s.dev = e.toRun.startDump 5 := by
      unfold doResetNRecognised
      rw [if_neg (by simp [hd, hdown]), if_neg (by omega)]
      dsimp only
      rw [hrest, he]
      rfl
    have hexec : exec (.resetNRecognised res) s = .next { s with dev := doResetNRecognised res s.array s.dev } := by
      show execResetNRecognised res s = _
      unfold execResetNRecognised actAoWindow
      simp only [hsup, hao, hres, Bool.and_false, Bool.false_eq_true, if_false, if_true]
      rfl
    obtain ⟨hshown', hdump, hbring⟩ := Dev.resetDump_spec s.dev (src := 5) (by decide)
      ((Dev.resetNStart_shown s.dev).of_reg (t := e) (he ▸ rfl))
      ((congrArg (fun w => bitAt w 1) ((show e.reg _ = s.dev.resetNStart.reg _ from he ▸ rfl).trans (hreg Reg.PWR_FAIL_STS (by decide)))).trans hd)
      ((congrArg (fun w => bits w 2 0) ((show e.reg _ = s.dev.resetNStart.reg _ from he ▸ rfl).trans (hreg Reg.PWR_MODE_STS (by decide)))).trans_le hm)
    rw [← hbody] at hshown' hdump hbring
    exact ⟨_, hexec, hsts _ _ _ hshown', hdump, hbring.trans (congrArg (·.bring) he)⟩

end Sys2Proof.Machine
end

section
/-! HBM errors, their repair, the scrubbers (R354, R368 to R377). -/

namespace Sys2Proof.Machine

-- In order, one declaration at a time: keeps the check within its memory limit.
set_option Elab.async false

section
variable {d e t : Dev}

theorem Dev.fld_lt (d : Dev) (off hi lo : Nat) : d.fld off hi lo < 2 ^ (hi + 1 - lo) := Nat.mod_lt _ (Nat.two_pow_pos _)

/-- A command that leaves the device as it is. -/
theorem act_unchanged (s : State) (f : Dev → Dev) (hrun : s.running) (h : f s.dev = s.dev) : act s f = .next s := by
  rw [act_of_running s f hrun, h]

/-! ### A stack fault (R13, R354) -/

/-- What a stack fault leaves of errors recorded before it. -/
structure Dev.Survives (d t : Dev) : Prop where
  page : ∀ pg, (d.page pg).Later (t.page pg)
  poison : t.hbmPoison = d.hbmPoison
  log : t.hbmLog = d.hbmLog
  regs : ∀ off ∈ [Reg.ECC_HBM_UE, Reg.STK_HBM_STS], t.reg off = d.reg off

theorem Dev.Survives.trans (h : d.Survives e) (h' : e.Survives t) : d.Survives t :=
  ⟨fun pg => (h.page pg).trans (h'.page pg), h'.poison.trans h.poison, h'.log.trans h.log, fun off ho => (h'.regs off ho).trans (h.regs off ho)⟩

theorem Dev.Survives.of_works (h : d.Works t) : d.Survives t :=
  ⟨h.page, congrArg (·.hbmPoison) h.kept, congrArg (·.hbmLog) h.kept, fun off ho => h.regs off (by
    rcases List.mem_pair.mp ho with rfl | rfl
    · decide
    · decide)⟩

theorem Dev.Survives.startDump (d : Dev) (src : Nat) : d.Survives (d.startDump src) := by
  by_cases hgo : (d.dumping || decide (3 ≤ d.mode)) = true
  · have hsame : d.startDump src = d := if_pos hgo
    rw [hsame]
    exact .of_works (.refl d)
  · rw [Bool.or_eq_true, decide_eq_true_eq, not_or, Bool.not_eq_true] at hgo
    have h := Dev.startDump_spec d src hgo.1 (by omega)
    refine ⟨h.page, h.kept.1, h.kept.2, fun off ho => ?_⟩
    rcases List.mem_pair.mp ho with rfl | rfl
    · exact h.regs _ (not_mem_dumpRegs (by decide) (by decide) (by decide)) (by decide)
    · exact h.regs _ (not_mem_dumpRegs (by decide) (by decide) (by decide)) (by decide)

/-- What a controller fault records before it goes on (R13). -/
def Dev.faultTold (d : Dev) (idx cause : Nat) : Dev := ((d.errIncident 0x600 0x0101 idx cause none none none none).raise 0x600 0).stopFetch

theorem Dev.faultTold_reports (d : Dev) (idx cause : Nat) :
    d.Reports ((d.errIncident 0x600 0x0101 idx cause none none none none).raise 0x600 0) :=
  (Dev.Reports.errIncident d _ _ _ _ _ _ _ _).trans (Dev.Reports.raise _ _ _)

theorem Dev.Survives.faultTold (d : Dev) (idx cause : Nat) : d.Survives (d.faultTold idx cause) := by
  have h : d.Survives ((d.errIncident 0x600 0x0101 idx cause none none none none).raise 0x600 0) :=
    .of_works (Dev.Works.of_reports (Dev.faultTold_reports d idx cause))
  refine ⟨h.page, h.poison, h.log, fun off ho => ?_⟩
  rw [← h.regs off ho]
  refine Dev.reg_setFlag_ne _ ?_ _ _
  rcases List.mem_pair.mp ho with rfl | rfl
  · decide
  · decide

theorem Dev.ctrlFault_eq (d : Dev) (idx cause : Nat) : d.ctrlFault idx cause =
    if (d.faultTold idx cause).paired then (d.faultTold idx cause).handBridges.completeAll stFailover
    else { (d.faultTold idx cause).startDump 3 with stayDown := true } := rfl

theorem Dev.Survives.ctrlFault (d : Dev) (idx cause : Nat) : d.Survives (d.ctrlFault idx cause) := by
  have htold := Dev.Survives.faultTold d idx cause
  rw [Dev.ctrlFault_eq]
  split
  · have hgive : ∀ (x : Dev) l, x.Survives { x with giving := l } := fun x l => ⟨fun _ => .refl _, rfl, rfl, fun _ _ => rfl⟩
    exact (htold.trans (hgive _ _)).trans (.of_works (Dev.Works.of_posts (Dev.Posts.completeAll _ _)))
  · have hdown : ∀ x : Dev, x.Survives { x with stayDown := true } := fun x => ⟨fun _ => .refl _, rfl, rfl, fun _ _ => rfl⟩
    exact (htold.trans (Dev.Survives.startDump _ 3)).trans (hdown _)

/-- The device that a stack fault finds once it is marked, and the poison code covers the stack of a device without a twin. -/
def Dev.stackMarked (d : Dev) (k : Nat) : Dev :=
  if (d.setFlag Reg.STK_HBM_STS (4 + k) true).paired then d.setFlag Reg.STK_HBM_STS (4 + k) true
  else (d.setFlag Reg.STK_HBM_STS (4 + k) true).poisonStack k

theorem doHbmStackFault_eq {k cause : Nat} (hk : k < 4) (hlo : 1 ≤ cause) (hhi : cause ≤ 3) (d : Dev) :
    doHbmStackFault k cause d = (d.stackMarked k).ctrlFault k cause := by
  unfold doHbmStackFault
  dsimp only
  rw [Nat.mod_eq_of_lt hk, if_pos (And.intro hlo hhi)]
  rfl

theorem Dev.stackMarked_works (d : Dev) (k : Nat) : (d.setFlag Reg.STK_HBM_STS (4 + k) true).Works (d.stackMarked k) :=
  Dev.Frame.ite (.refl _) (Dev.Works.poisonStack (.refl _) k)

theorem Dev.stackFault_page (d : Dev) {k cause : Nat} (hk : k < 4) (hlo : 1 ≤ cause) (hhi : cause ≤ 3) :
    (∀ pg, (d.page pg).Later ((doHbmStackFault k cause d).page pg)) ∧ (doHbmStackFault k cause d).hbmPoison = d.hbmPoison ∧
    (doHbmStackFault k cause d).reg Reg.ECC_HBM_UE = d.reg Reg.ECC_HBM_UE := by
  have h := (Dev.Survives.of_works (Dev.stackMarked_works d k)).trans (Dev.Survives.ctrlFault _ k cause)
  rw [← doHbmStackFault_eq hk hlo hhi] at h
  exact ⟨h.page, h.poison, (h.regs _ (by simp)).trans (Dev.reg_setFlag_ne d (by decide) _ _)⟩

/-! ### One error of HBM (R368 to R371) -/

theorem Dev.hbmLog_hbmLogAdd (d : Dev) (off : Nat) (ue : Bool) :
    (d.hbmLogAdd off ue).hbmLog = (⟨off, ue, false, false, d.tick, d.epoch⟩ :: d.hbmLog).take 1024 := rfl

theorem stackOf_lt (off : Nat) : stackOf off < 4 := by
  unfold stackOf
  omega

theorem hbmCorrected_spec (d : Dev) {off : Nat} (hoff : off < 154618822656) (newer : Bool) :
    (doHbmCorrected off newer d).fld Reg.ECC_HBM_CE 31 0 = min (d.fld Reg.ECC_HBM_CE 31 0 + 1) 0xFFFFFFFF ∧
    (doHbmCorrected off newer d).fld Reg.ECC_WB_DROP 31 0 = min (d.fld Reg.ECC_WB_DROP 31 0 + newer.toNat) 0xFFFFFFFF ∧
    (doHbmCorrected off newer d).hbmLog.head? = some ⟨off, false, false, false, d.tick, d.epoch⟩ := by
  obtain ⟨e, he⟩ : ∃ e, e = d.capRec 0x30 0 [(8, off), (1, 0)] := ⟨_, rfl⟩
  have hrep : d.Reports e := he ▸ Dev.Reports.capRec d _ _ _
  obtain ⟨f, hf⟩ : ∃ f, f = (e.inc Reg.ECC_HBM_CE 1).hbmLogAdd off false := ⟨_, rfl⟩
  have hbody : doHbmCorrected off newer d = f.wbDrop newer := by
    unfold doHbmCorrected Dev.hbmCe hbmBytes
    rw [Nat.mod_eq_of_lt hoff, hf, he]
  have hreg : ∀ r, r ≠ Reg.ECC_HBM_ELOG_CNT → f.reg r = (e.inc Reg.ECC_HBM_CE 1).reg r := fun r hr => hf ▸ Dev.reg_setFld_ne _ hr 10 0 _
  have hce : f.fld Reg.ECC_HBM_CE 31 0 = min (d.fld Reg.ECC_HBM_CE 31 0 + 1) 0xFFFFFFFF := by
    rw [Dev.fld, hreg _ (by decide), ← Dev.fld, Dev.fld_inc_self, Dev.fld, hrep.regs _ (by decide), ← Dev.fld]
  have hdrop : f.reg Reg.ECC_WB_DROP = d.reg Reg.ECC_WB_DROP := by
    rw [hreg _ (by decide), Dev.reg_inc_ne _ (by decide), hrep.regs _ (by decide)]
  have htick : e.tick = d.tick := congrArg (·.tick) hrep.kept
  have hepoch : (e.inc Reg.ECC_HBM_CE 1).epoch = d.epoch :=
    congrArg (fun w => bits w 31 16) ((Dev.reg_inc_ne e (by decide) 1).trans (hrep.regs Reg.DLR_TIME_STS (by decide)))
  have hlog : f.hbmLog.head? = some ⟨off, false, false, false, d.tick, d.epoch⟩ := by
    rw [hf, Dev.hbmLog_hbmLogAdd, List.take_succ_cons, List.head?_cons, hepoch, ← htick]
    rfl
  rw [hbody]
  cases newer with
  | false =>
    refine ⟨hce, ?_, hlog⟩
    have hlt := Dev.fld_lt d Reg.ECC_WB_DROP 31 0
    rw [Dev.wbDrop, if_neg (by decide), Dev.fld, hdrop, ← Dev.fld, Bool.toNat_false]
    omega
  | true =>
    refine ⟨?_, ?_, hlog⟩
    · exact (congrArg (fun w => bits w 31 0) (Dev.reg_inc_ne f (by decide) 1)).trans hce
    · exact (Dev.fld_inc_self f Reg.ECC_WB_DROP 1).trans (congrArg (fun w => min (bits w 31 0 + 1) 0xFFFFFFFF) hdrop)

/-- An uncorrectable line once it is recorded. -/
def Dev.ueTold (d : Dev) (off : Nat) : Dev :=
  (((d.capRec 0x30 0 [(8, off), (1, 1)]).inc Reg.ECC_HBM_UE 1).recordErr 0xA03 0x0113 (off % 2 ^ 32) (off / 2 ^ 32)).raise 0xA03 2

/-- An uncorrectable line once it holds the poison code. -/
def Dev.ueHeld (d : Dev) (off : Nat) : Dev :=
  let d : Dev := { d with hbmPoison := insertSorted d.hbmPoison (off / 64),
                          hbmRecent := d.hbmRecent.filter (fun x => decide (d.tick < x.2 + 1000000000)) ++ [(stackOf off, d.tick)] }
  (d.setFld Reg.ECC_HBM_POISON 23 0 (satN 24 d.hbmPoison.length)).hbmLogAdd off true

theorem Dev.hbmUe_eq (d : Dev) (off : Nat) (item : PotItem) : d.hbmUe off item =
    if 64 < ((((d.ueTold off).ueHeld off).lineLost off item).hbmRecent.filter (fun x => x.1 == stackOf off)).length then
      doHbmStackFault (stackOf off) 3 (((d.ueTold off).ueHeld off).lineLost off item) else ((d.ueTold off).ueHeld off).lineLost off item := rfl

theorem mem_insertSorted {n : Nat} : ∀ {l : List Nat}, n ∈ insertSorted l n
  | [] => List.mem_singleton.mpr rfl
  | k :: ks => by
    unfold insertSorted
    split
    · simp [*]
    · split
      · simp
      · exact List.mem_cons_of_mem _ mem_insertSorted

theorem mem_insertSorted_of_mem {n m : Nat} : ∀ {l : List Nat}, m ∈ l → m ∈ insertSorted l n
  | k :: ks, h => by
    unfold insertSorted
    split
    · exact h
    · split
      · exact List.mem_cons_of_mem _ h
      · rcases List.mem_cons.mp h with rfl | h
        · exact List.mem_cons_self
        · exact List.mem_cons_of_mem _ (mem_insertSorted_of_mem h)

/-- An error recorded first on a page is what the page shows from then on. -/
theorem Dev.firstErr_later {d t : Dev} {pg code i0 i1 : Nat} (h : (d.page pg).err = false) (hl : ((d.recordErr pg code i0 i1).page pg).Later (t.page pg)) :
    (t.page pg).errCode = code ∧ (t.page pg).info0 = w32 i0 ∧ (t.page pg).info1 = w32 i1 := by
  rw [Dev.page_recordErr_first d pg code i0 i1 h] at hl
  exact (hl.1 rfl).2

/-- What follows the record of an uncorrectable line keeps it. -/
theorem Dev.hbmUe_survives (d : Dev) (off : Nat) (item : PotItem) :
    (∀ pg, ((d.ueTold off).page pg).Later ((d.hbmUe off item).page pg)) ∧ off / 64 ∈ (d.hbmUe off item).hbmPoison ∧
    (d.hbmUe off item).reg Reg.ECC_HBM_UE = (d.ueTold off).reg Reg.ECC_HBM_UE := by
  obtain ⟨e, he⟩ : ∃ e, e = d.ueTold off := ⟨_, rfl⟩
  rw [Dev.hbmUe_eq, ← he]
  have hheld : (e.ueHeld off).hbmPoison = insertSorted e.hbmPoison (off / 64) := rfl
  have hpage : ∀ pg, (e.ueHeld off).page pg = e.page pg := fun _ => rfl
  have hreg : (e.ueHeld off).reg Reg.ECC_HBM_UE = e.reg Reg.ECC_HBM_UE :=
    (Dev.reg_setFld_ne _ (by decide) 10 0 _).trans (Dev.reg_setFld_ne _ (by decide) 23 0 _)
  obtain ⟨f, hf⟩ : ∃ f, f = (e.ueHeld off).lineLost off item := ⟨_, rfl⟩
  have hline : (e.ueHeld off).Survives f := .of_works (hf ▸ Dev.Works.lineLost (.refl _) off item)
  have hmem : off / 64 ∈ f.hbmPoison := by
    rw [hline.poison, hheld]
    exact mem_insertSorted
  have hlater : ∀ pg, (e.page pg).Later (f.page pg) := fun pg => hpage pg ▸ hline.page pg
  have hue : f.reg Reg.ECC_HBM_UE = e.reg Reg.ECC_HBM_UE := (hline.regs _ (by simp)).trans hreg
  rw [← hf]
  split
  · obtain ⟨h1, h2, h3⟩ := Dev.stackFault_page f (stackOf_lt off) (cause := 3) (by decide) (by decide)
    exact ⟨fun pg => (hlater pg).trans (h1 pg), h2 ▸ hmem, h3.trans hue⟩
  · exact ⟨hlater, hmem, hue⟩

theorem Dev.hbmUe_spec (d : Dev) (off : Nat) (item : PotItem) (herr : (d.page 0xA03).err = false) :
    off / 64 ∈ (d.hbmUe off item).hbmPoison ∧ ((d.hbmUe off item).page 0xA03).errCode = 0x0113 ∧
    ((d.hbmUe off item).page 0xA03).info0 = w32 (off % 2 ^ 32) ∧ ((d.hbmUe off item).page 0xA03).info1 = w32 (off / 2 ^ 32) ∧
    (d.hbmUe off item).fld Reg.ECC_HBM_UE 31 0 = min (d.fld Reg.ECC_HBM_UE 31 0 + 1) 0xFFFFFFFF := by
  obtain ⟨hpage, hpoison, hreg⟩ := Dev.hbmUe_survives d off item
  obtain ⟨e, he⟩ : ∃ e, e = (d.capRec 0x30 0 [(8, off), (1, 1)]).inc Reg.ECC_HBM_UE 1 := ⟨_, rfl⟩
  have htold : d.ueTold off = (e.recordErr 0xA03 0x0113 (off % 2 ^ 32) (off / 2 ^ 32)).raise 0xA03 2 := he ▸ rfl
  have hraise := Dev.Reports.raise (e.recordErr 0xA03 0x0113 (off % 2 ^ 32) (off / 2 ^ 32)) 0xA03 2
  have herr' : (e.page 0xA03).err = false := by rw [he, Dev.page_inc, Dev.page_capRec, herr]
  have hlater : ((e.recordErr 0xA03 0x0113 (off % 2 ^ 32) (off / 2 ^ 32)).page 0xA03).Later ((d.hbmUe off item).page 0xA03) :=
    (hraise.page 0xA03).trans (htold ▸ hpage 0xA03)
  obtain ⟨h1, h2, h3⟩ := Dev.firstErr_later herr' hlater
  refine ⟨hpoison, h1, h2, h3, ?_⟩
  rw [Dev.fld, hreg, htold, hraise.regs _ (by decide), Dev.reg_recordErr, ← Dev.fld, he, Dev.fld_inc_self, Dev.fld,
    (Dev.Reports.capRec d _ _ _).regs _ (by decide), ← Dev.fld]

/-! ### Row repair (R373, R374) -/

/-- What the retirement of a page keeps of the errors recorded before it. -/
structure Dev.Retires (d t : Dev) : Prop where
  page : ∀ pg, (d.page pg).Later (t.page pg)
  log : t.hbmLog = d.hbmLog
  retired : ∀ p ∈ d.hbmRetired, p ∈ t.hbmRetired

theorem Dev.Retires.refl (d : Dev) : d.Retires d := ⟨fun _ => .refl _, rfl, fun _ h => h⟩

theorem Dev.Retires.trans (h : d.Retires e) (h' : e.Retires t) : d.Retires t :=
  ⟨fun pg => (h.page pg).trans (h'.page pg), h'.log.trans h.log, fun p hp => h'.retired p (h.retired p hp)⟩

theorem Dev.Retires.of_works (h : d.Works t) : d.Retires t :=
  ⟨h.page, congrArg (·.hbmLog) h.kept, fun _ hp => (congrArg (·.hbmRetired) h.kept : t.hbmRetired = d.hbmRetired) ▸ hp⟩

theorem Dev.Retires.setReg (d : Dev) (off : Nat) (v : Word) : d.Retires (d.setReg off v) := ⟨fun _ => .refl _, rfl, fun _ h => h⟩

theorem Dev.Retires.trimCache (d : Dev) : d.Retires d.trimCache := by
  have hevict : ∀ v, d.Retires (d.evict v) := fun v => ⟨fun _ => .refl _, rfl, fun _ h => h⟩
  unfold Dev.trimCache
  split
  · split
    · split
      · exact .refl d
      · exact hevict _
    · exact .refl d
  · exact .refl d

theorem Dev.Retires.retirePage (d : Dev) (pg : Nat) : d.Retires (d.retirePage pg) ∧ pg ∈ (d.retirePage pg).hbmRetired := by
  have hmark : ∀ x : Dev, x.Retires { x with hbmRetired := insertSorted x.hbmRetired pg } := fun x =>
    ⟨fun _ => .refl _, rfl, fun _ h => mem_insertSorted_of_mem h⟩
  have hbare : ∀ (x : Dev) l, x.Retires { x with hbmBare := l } := fun x l => ⟨fun _ => .refl _, rfl, fun _ h => h⟩
  unfold Dev.retirePage
  split
  · next hin => exact ⟨.refl d, List.contains_iff_mem.mp hin⟩
  · extract_lets d1 d2 r d3 x d4
    have h2 : d.Retires d2 := (hmark d).trans (.setReg d1 _ _)
    have hpg : pg ∈ d2.hbmRetired := mem_insertSorted
    suffices hall : ∀ t, d2.Retires t → d.Retires t ∧ pg ∈ t.hbmRetired by
      refine hall _ ?_
      split
      · exact .trimCache d2
      · split
        · exact .of_works (Dev.Works.crCounts (.refl d2))
        · split
          · split
            · exact .refl d2
            · exact .setReg d2 _ _
          · split
            · split
              · exact (Dev.Retires.setReg d2 _ _).trans (.of_works (Dev.Works.exhaust (.refl d3) 7))
              · exact .setReg d2 _ _
            · have h4 : d2.Retires d4 :=
                (Dev.Retires.of_works (Dev.Works.recordErr (.refl d2) 0x600 0x0105 r pg)).trans (hbare _ _)
              split
              · exact h4.trans (.setReg d4 _ _)
              · exact h4
    exact fun t ht => ⟨h2.trans ht, ht.retired _ hpg⟩

theorem rowOf_marked (l : List HbmErr) (row : Nat) (f : HbmErr → HbmErr) (p : HbmErr → Prop) (hp : ∀ e, p (f e)) :
    ∀ e ∈ l.map (fun e => if rowOf e.off == row then f e else e), rowOf e.off = row → p e := by
  intro e he hrow
  obtain ⟨x, -, rfl⟩ := List.mem_map.mp he
  by_cases hx : (rowOf x.off == row) = true
  · rw [if_pos hx]
    exact hp x
  · rw [if_neg hx] at hrow
    exact absurd (by simpa using hrow) hx

theorem hbmRowRepair_spare (d : Dev) {off : Nat} (hoff : off < 154618822656) (hw : d.rowWants (rowOf off) = true) (hd : d.dumping = false) :
    (doHbmRowRepair off true d).fld Reg.STK_REPAIRS 15 0 = min (d.fld Reg.STK_REPAIRS 15 0 + 1) 0xFFFF ∧
    ∀ e ∈ (doHbmRowRepair off true d).hbmLog, rowOf e.off = rowOf off → e.repaired = true := by
  obtain ⟨e, he⟩ : ∃ e : Dev, e = { d with hbmLog := d.hbmLog.map (fun (e : HbmErr) => if rowOf e.off == rowOf off then { e with repaired := true } else e) } :=
    ⟨_, rfl⟩
  have hbody : doHbmRowRepair off true d = (e.incFld Reg.STK_REPAIRS 15 0 1).raise 0x600 1 := by
    unfold doHbmRowRepair hbmBytes
    dsimp only
    rw [Nat.mod_eq_of_lt hoff, if_neg (by simp [hw, hd]), he]
    rfl
  have hrep := Dev.Reports.raise (e.incFld Reg.STK_REPAIRS 15 0 1) 0x600 1
  rw [hbody]
  refine ⟨?_, ?_⟩
  · rw [Dev.fld, hrep.regs _ (by decide), ← Dev.fld, Dev.fld_incFld_self _ _ _ _ _ (by decide), he]
    rfl
  · have hlog : ((e.incFld Reg.STK_REPAIRS 15 0 1).raise 0x600 1).hbmLog = e.hbmLog := congrArg (·.hbmLog) hrep.kept
    rw [hlog, he]
    exact rowOf_marked d.hbmLog (rowOf off) (fun e => { e with repaired := true }) (fun e => e.repaired = true) (fun _ => rfl)

theorem hbmRowRepair_retire (d : Dev) {off : Nat} (hoff : off < 154618822656) (hw : d.rowWants (rowOf off) = true) (hd : d.dumping = false)
    (hspare : d.fld Reg.STK_REPAIRS 31 16 < 4096) (herr : (d.page 0x600).err = false) :
    off / 131072 * 2 ∈ (doHbmRowRepair off false d).hbmRetired ∧ off / 131072 * 2 + 1 ∈ (doHbmRowRepair off false d).hbmRetired ∧
    ((doHbmRowRepair off false d).page 0x600).errCode = 0x0104 ∧
    ∀ e ∈ (doHbmRowRepair off false d).hbmLog, rowOf e.off = rowOf off → e.retired = true := by
  obtain ⟨e, he⟩ : ∃ e : Dev, e = { d with hbmLog := d.hbmLog.map (fun (e : HbmErr) => if rowOf e.off == rowOf off then { e with retired := true } else e) } :=
    ⟨_, rfl⟩
  obtain ⟨f, hf⟩ : ∃ f : Dev, f = ((e.incFld Reg.STK_REPAIRS 31 16 1).recordErr 0x600 0x0104 (off % 2 ^ 32) (off / 2 ^ 32)).raise 0x600 2 := ⟨_, rfl⟩
  have hbody : doHbmRowRepair off false d = (f.retirePage (off / 131072 * 2)).retirePage (off / 131072 * 2 + 1) := by
    unfold doHbmRowRepair hbmBytes
    dsimp only
    rw [Nat.mod_eq_of_lt hoff, if_neg (by simp [hw, hd]), if_neg (by decide), if_neg (by omega), hf, he]
  have hrep := Dev.Reports.raise ((e.incFld Reg.STK_REPAIRS 31 16 1).recordErr 0x600 0x0104 (off % 2 ^ 32) (off / 2 ^ 32)) 0x600 2
  rw [← hf] at hrep
  have herr' : ((e.incFld Reg.STK_REPAIRS 31 16 1).page 0x600).err = false := he ▸ herr
  obtain ⟨h1, hm1⟩ := Dev.Retires.retirePage f (off / 131072 * 2)
  obtain ⟨h2, hm2⟩ := Dev.Retires.retirePage (f.retirePage (off / 131072 * 2)) (off / 131072 * 2 + 1)
  rw [hbody]
  refine ⟨h2.retired _ hm1, hm2, (Dev.firstErr_later herr' ((hrep.page 0x600).trans ((h1.trans h2).page 0x600))).1, ?_⟩
  have hlog : f.hbmLog = e.hbmLog := (congrArg (·.hbmLog) hrep.kept).trans (by rw [Dev.sansReports, Dev.recordErr_eq]; rfl)
  rw [(h1.trans h2).log, hlog, he]
  exact rowOf_marked d.hbmLog (rowOf off) (fun e => { e with retired := true }) (fun e => e.retired = true) (fun _ => rfl)

/-! ### Scrubbers (R376, R377) -/

theorem hbmScrub_steps (d : Dev) (newer : Bool) (item : PotItem) (hhold : d.pagesHold 0x600 0x600 = false) (hon : d.flag Reg.STK_SCR_CTL 0 = true)
    (hm : d.mode ≤ 1) (hf : d.flushing = false) : doHbmScrubRead 0 newer item d =
      if (d.scrLine + 1) * 64 = hbmBytes then
        (({ (d.setReg Reg.STK_SCR_HBM_LAP (w32 (satN 32 ((d.tick - d.scrStart) / 1000000000)))) with scrLine := 0, scrStart := d.tick }.incFld
          Reg.STK_SCR_LAPS 15 0 1).setReg Reg.STK_SCR_HBM_POS 0).raise 0x600 6
      else { d with scrLine := d.scrLine + 1 }.setFld Reg.STK_SCR_HBM_POS 21 0 ((d.scrLine + 1) / 1024) := by
  unfold doHbmScrubRead
  rw [if_neg (by simp [hhold, hon, hf]; omega)]
  rfl

theorem sramScrub_steps (d : Dev) (a w : Nat) (kind : ArrKind) (last : Bool) (hhold : d.pagesHold 0x600 0x600 = false)
    (hon : d.flag Reg.STK_SCR_CTL 1 = true) (hm : d.mode ≤ 1) (hf : d.flushing = false) : doSramScrubRead a w 0 kind last d =
      if last then ({ d.setReg Reg.STK_SCR_SRAM_LAP (w32 (satN 32 ((d.tick - d.sramStart) / 1000000))) with sramStart := d.tick }.incFld
        Reg.STK_SCR_LAPS 31 16 1).raise 0x600 6 else d := by
  unfold doSramScrubRead
  rw [if_neg (by simp [hhold, hon, hf]; omega)]
  rfl

theorem hbmScrub_next (d : Dev) (newer : Bool) (item : PotItem) (hhold : d.pagesHold 0x600 0x600 = false) (hon : d.flag Reg.STK_SCR_CTL 0 = true)
    (hm : d.mode ≤ 1) (hf : d.flushing = false) (hmore : d.scrLine + 1 < 2415919104) :
    (doHbmScrubRead 0 newer item d).scrLine = d.scrLine + 1 ∧
    (doHbmScrubRead 0 newer item d).fld Reg.STK_SCR_HBM_POS 21 0 = (d.scrLine + 1) / 1024 := by
  rw [hbmScrub_steps d newer item hhold hon hm hf, if_neg (by rw [hbmBytes]; omega)]
  refine ⟨rfl, ?_⟩
  rw [Dev.fld_setFld_self _ _ _ _ _ (by decide)]
  exact Nat.mod_eq_of_lt (by omega)

theorem hbmScrub_lap (d : Dev) (newer : Bool) (item : PotItem) (hhold : d.pagesHold 0x600 0x600 = false) (hon : d.flag Reg.STK_SCR_CTL 0 = true)
    (hm : d.mode ≤ 1) (hf : d.flushing = false) (hlast : d.scrLine + 1 = 2415919104) :
    (doHbmScrubRead 0 newer item d).scrLine = 0 ∧ (doHbmScrubRead 0 newer item d).scrStart = d.tick ∧
    (doHbmScrubRead 0 newer item d).fld Reg.STK_SCR_LAPS 15 0 = min (d.fld Reg.STK_SCR_LAPS 15 0 + 1) 0xFFFF := by
  rw [hbmScrub_steps d newer item hhold hon hm hf, if_pos (by rw [hbmBytes]; omega)]
  obtain ⟨e, he⟩ : ∃ e : Dev, e = { d.setReg Reg.STK_SCR_HBM_LAP (w32 (satN 32 ((d.tick - d.scrStart) / 1000000000))) with
    scrLine := 0, scrStart := d.tick } := ⟨_, rfl⟩
  rw [← he]
  have hrep := Dev.Reports.raise ((e.incFld Reg.STK_SCR_LAPS 15 0 1).setReg Reg.STK_SCR_HBM_POS 0) 0x600 6
  refine ⟨(congrArg (·.scrLine) hrep.kept).trans (congrArg (·.scrLine) he), (congrArg (·.scrStart) hrep.kept).trans (congrArg (·.scrStart) he), ?_⟩
  have hold : e.reg Reg.STK_SCR_LAPS = d.reg Reg.STK_SCR_LAPS := (congrArg (·.reg Reg.STK_SCR_LAPS) he).trans (Dev.reg_setReg_ne d (by decide) _)
  rw [Dev.fld, hrep.regs _ (by decide), Dev.reg_setReg_ne _ (by decide), ← Dev.fld, Dev.fld_incFld_self _ _ _ _ _ (by decide), Dev.fld, hold]
  rfl

theorem sramScrub_lap (d : Dev) (a w : Nat) (kind : ArrKind) (hhold : d.pagesHold 0x600 0x600 = false)
    (hon : d.flag Reg.STK_SCR_CTL 1 = true) (hm : d.mode ≤ 1) (hf : d.flushing = false) :
    (doSramScrubRead a w 0 kind true d).sramStart = d.tick ∧
    (doSramScrubRead a w 0 kind true d).fld Reg.STK_SCR_LAPS 31 16 = min (d.fld Reg.STK_SCR_LAPS 31 16 + 1) 0xFFFF := by
  rw [sramScrub_steps d a w kind true hhold hon hm hf, if_pos rfl]
  obtain ⟨e, he⟩ : ∃ e : Dev, e = { d.setReg Reg.STK_SCR_SRAM_LAP (w32 (satN 32 ((d.tick - d.sramStart) / 1000000))) with sramStart := d.tick } :=
    ⟨_, rfl⟩
  rw [← he]
  have hrep := Dev.Reports.raise (e.incFld Reg.STK_SCR_LAPS 31 16 1) 0x600 6
  refine ⟨(congrArg (·.sramStart) hrep.kept).trans (congrArg (·.sramStart) he), ?_⟩
  have hold : e.reg Reg.STK_SCR_LAPS = d.reg Reg.STK_SCR_LAPS := (congrArg (·.reg Reg.STK_SCR_LAPS) he).trans (Dev.reg_setReg_ne d (by decide) _)
  rw [Dev.fld, hrep.regs _ (by decide), ← Dev.fld, Dev.fld_incFld_self _ _ _ _ _ (by decide), Dev.fld, hold]
  rfl

end

/-! ### The obligation -/

/-- Settles O38: the counts, the log and the poison of HBM, a row's repair or retirement, and the scrubbers' laps. -/
theorem hbmAndScrubbers : Obligations.HbmAndScrubbers := by
  intro s hrun
  refine ⟨fun off hoff => ⟨fun newer => ?_, fun item herr => ?_, fun hw hd => ⟨?_, fun hspare herr => ?_⟩⟩, fun newer item hhold hon hm hf => ?_,
    fun a w kind hhold hon hm hf => ?_, fun hon hlate => ?_⟩
  · exact ⟨_, act_of_running s (doHbmCorrected off newer) hrun, hbmCorrected_spec s.dev hoff newer⟩
  · have hbody : doHbmUncorrectable off item s.dev = s.dev.hbmUe off item := congrArg (s.dev.hbmUe · item) (Nat.mod_eq_of_lt hoff)
    refine ⟨_, act_of_running s (doHbmUncorrectable off item) hrun, ?_⟩
    dsimp only
    rw [hbody]
    exact Dev.hbmUe_spec s.dev off item herr
  · exact ⟨_, act_of_running s (doHbmRowRepair off true) hrun, hbmRowRepair_spare s.dev hoff hw hd⟩
  · exact ⟨_, act_of_running s (doHbmRowRepair off false) hrun, hbmRowRepair_retire s.dev hoff hw hd hspare herr⟩
  · exact ⟨fun hmore => ⟨_, act_of_running s (doHbmScrubRead 0 newer item) hrun, hbmScrub_next s.dev newer item hhold hon hm hf hmore⟩,
      fun hlast => ⟨_, act_of_running s (doHbmScrubRead 0 newer item) hrun, hbmScrub_lap s.dev newer item hhold hon hm hf hlast⟩⟩
  · exact ⟨act_unchanged s (doSramScrubRead a w 0 kind false) hrun (sramScrub_steps s.dev a w kind false hhold hon hm hf),
      _, act_of_running s (doSramScrubRead a w 0 kind true) hrun, sramScrub_lap s.dev a w kind hhold hon hm hf⟩
  · have hbody : doScrStarved s.dev = s.dev.raise 0x600 7 := if_pos (by rw [Dev.scrStarved, hon, decide_eq_true hlate]; rfl)
    refine ⟨_, act_of_running s doScrStarved hrun, ?_⟩
    dsimp only
    rw [hbody]
    refine ⟨?_, Dev.frame.raise (List.mem_singleton.mpr rfl) _ _ _⟩
    rw [Dev.intPend_raise _ _ _ (by decide)]
    exact (bitAt_putBit _ _ _ _ (by decide)).trans (if_pos rfl)

end Sys2Proof.Machine
end

section
/-! The stockpot: stack faults, credit, ladles and SRAM errors (R354 to R372). -/

namespace Sys2Proof.Machine

-- In order, one declaration at a time: keeps the check within its memory limit.
set_option Elab.async false

section
variable {d e t : Dev}

/-- What every step of a fold keeps, the fold keeps. -/
theorem Dev.foldl_keeps {α β : Type} (g : Dev → β) {f : Dev → α → Dev} (h : ∀ e x, g (f e x) = g e) (l : List α) :
    ∀ d, g (l.foldl f d) = g d := by
  induction l with
  | nil => exact fun _ => rfl
  | cons x xs ih => exact fun d => (ih (f d x)).trans (h d x)

/-! ### A stack fault (R13, R354) -/

theorem Dev.Posts.sameErr (h : d.Posts t) (pg : Nat) : (t.page pg).err = (d.page pg).err :=
  congrArg (fun ps => (SMap.get (fun _ => Page.reset) ps pg).err) (congrArg (·.pages) h.kept : t.pages = d.pages)

theorem Dev.err_slotLost (d : Dev) (slot pg : Nat) : ((d.slotLost slot).page pg).err = (d.page pg).err := by
  unfold Dev.slotLost
  split
  · rfl
  · split
    · exact (Dev.Posts.complete d _ _ _ _).sameErr pg
    · split
      · rfl
      · rfl

theorem Dev.pages_pwPoisonCount (d : Dev) : d.pwPoisonCount.pages = d.pages :=
  Dev.foldl_keeps (fun x => x.pages) (by intro _ _; rfl) _ _

theorem Dev.err_pwStackPoisoned (d : Dev) (k pg : Nat) : ((d.pwStackPoisoned k).page pg).err = (d.page pg).err := by
  unfold Dev.pwStackPoisoned
  extract_lets on d1
  split
  · rfl
  · rw [Dev.err_raise, Dev.page, Dev.pages_pwPoisonCount]
    rfl

/-- The poison code records no error on any page. -/
theorem Dev.err_poisonStack (d : Dev) (k pg : Nat) : ((d.poisonStack k).page pg).err = (d.page pg).err := by
  unfold Dev.poisonStack
  extract_lets n d1 d2 d3 d4
  have h1 : (d1.page pg).err = (d.page pg).err := Dev.foldl_keeps (fun x => (x.page pg).err) (fun x i => Dev.err_slotLost x i pg) _ _
  have h3 : d3.pages = d2.pages := Dev.foldl_keeps (fun x => x.pages) (by intro _ _; rfl) _ _
  have h4 : d4.pages = d3.pages := Dev.foldl_keeps (fun x => x.pages) (by intro _ _; rfl) _ _
  have hlast : ∀ (x : Dev) a b, (({ x with hbmDead := a, dlogBad := b }.setFld Reg.ECC_HBM_POISON 23 0 0xFFFFFF).page pg).err = (x.page pg).err :=
    fun _ _ _ => rfl
  have h2 : (d2.page pg).err = (d1.page pg).err := Dev.err_pwStackPoisoned d1 k pg
  rw [hlast, Dev.page, h4.trans h3, ← Dev.page, h2, h1]

/-- A stack fault's error is the first that it records (R13). -/
theorem Dev.ctrlFault_err (d : Dev) (idx cause : Nat) (h : (d.page 0x600).err = false) :
    ((d.ctrlFault idx cause).page 0x600).errCode = 0x0101 ∧ ((d.ctrlFault idx cause).page 0x600).info0 = w32 idx ∧
    ((d.ctrlFault idx cause).page 0x600).info1 = w32 cause := by
  refine Dev.firstErr_later (d := d) h (Page.Later.trans (q := (d.faultTold idx cause).page 0x600) ?_ ?_)
  · have hinc := Dev.Reports.incident (d.recordErr 0x600 0x0101 idx cause) (pageBlock 0x600) 0x0101 idx cause none none none none
    have hraise := Dev.Reports.raise (d.errIncident 0x600 0x0101 idx cause none none none none) 0x600 0
    exact (hinc.page 0x600).trans (hraise.page 0x600)
  · rw [Dev.ctrlFault_eq]
    split
    · have hpost := Dev.Posts.completeAll (d.faultTold idx cause).handBridges stFailover
      have hgive : ∀ (x : Dev) l, ({ x with giving := l } : Dev).page 0x600 = x.page 0x600 := fun _ _ => rfl
      exact hgive (d.faultTold idx cause) _ ▸ hpost.page 0x600
    · exact (Dev.Survives.startDump (d.faultTold idx cause) 3).page 0x600

/-- Without a twin a controller fault runs the dump, and the device stays down (R13, R436). -/
theorem Dev.ctrlFault_dumps (d : Dev) (idx cause : Nat) (hp : d.paired = false) (hm : d.mode ≤ 2) :
    (d.ctrlFault idx cause).dumping = true ∧ (d.ctrlFault idx cause).stayDown = true := by
  have hrep := Dev.faultTold_reports d idx cause
  obtain ⟨e, he⟩ : ∃ e, e = (d.errIncident 0x600 0x0101 idx cause none none none none).raise 0x600 0 := ⟨_, rfl⟩
  have htold : d.faultTold idx cause = e.stopFetch := he ▸ rfl
  rw [← he] at hrep
  have hreg : ∀ off, off ∉ reportRegs → off ≠ Reg.TST_BRG_STS → e.stopFetch.reg off = d.reg off := fun off ho hne =>
    (Dev.reg_setFlag_ne e hne 5 false).trans (hrep.regs off ho)
  have hprev : e.stopFetch.gPrev = d.gPrev := (congrArg (·.gPrev) hrep.kept : e.gPrev = d.gPrev)
  have hpair : e.stopFetch.paired = false := by
    rw [← hp, Dev.paired, Dev.paired, hprev, Dev.twin, Dev.twin, Dev.fld, hreg _ (by decide) (by decide), ← Dev.fld]
  have hmode : e.stopFetch.mode ≤ 2 := by
    have hsame : e.stopFetch.mode = e.mode := Dev.fld_setFlag_ne e (by decide) 5 2 0 false
    rw [hsame]
    exact hrep.runs.modeOr.elim (fun h0 => h0 ▸ hm) (fun h0 => h0 ▸ Nat.zero_le 2)
  rw [Dev.ctrlFault_eq, htold, if_neg (by simp [hpair])]
  refine ⟨?_, rfl⟩
  by_cases hd : e.stopFetch.dumping = true
  · have hsame : e.stopFetch.startDump 3 = e.stopFetch := if_pos (by simp [hd])
    rw [hsame]
    exact hd
  · exact (Dev.startDump_spec e.stopFetch 3 (by simpa using hd) hmode).dumping

theorem hbmStackFault_spec (d : Dev) {k cause : Nat} (hk : k < 4) (hlo : 1 ≤ cause) (hhi : cause ≤ 3) (herr : (d.page 0x600).err = false) :
    (doHbmStackFault k cause d).flag Reg.STK_HBM_STS (4 + k) = true ∧ ((doHbmStackFault k cause d).page 0x600).errCode = 0x0101 ∧
    ((doHbmStackFault k cause d).page 0x600).info0 = w32 k ∧ ((doHbmStackFault k cause d).page 0x600).info1 = w32 cause ∧
    (d.paired = false → d.mode ≤ 2 → (doHbmStackFault k cause d).dumping = true ∧ (doHbmStackFault k cause d).stayDown = true) := by
  have hworks := Dev.stackMarked_works d k
  have hmarked : ((d.stackMarked k).page 0x600).err = false := by
    unfold Dev.stackMarked
    split
    · exact herr
    · exact (Dev.err_poisonStack _ k 0x600).trans herr
  rw [doHbmStackFault_eq hk hlo hhi]
  obtain ⟨h1, h2, h3⟩ := Dev.ctrlFault_err (d.stackMarked k) k cause hmarked
  refine ⟨?_, h1, h2, h3, fun hp hm => Dev.ctrlFault_dumps (d.stackMarked k) k cause ?_ ?_⟩
  · refine (congrArg (fun w => bitAt w (4 + k)) (((Dev.Survives.of_works hworks).trans (Dev.Survives.ctrlFault _ k cause)).regs Reg.STK_HBM_STS
      (by simp))).trans ?_
    exact Dev.flag_setFlag_self d _ _ _ (by omega)
  · have hprev : (d.stackMarked k).gPrev = d.gPrev := congrArg (·.gPrev) hworks.kept
    rw [← hp, Dev.paired, Dev.paired, hprev, Dev.twin, Dev.twin, Dev.fld, hworks.regs _ (by decide), Dev.reg_setFlag_ne _ (by decide), ← Dev.fld]
  · have hsame : (d.setFlag Reg.STK_HBM_STS (4 + k) true).mode = d.mode := Dev.fld_setFlag_ne d (by decide) _ 2 0 _
    exact hworks.runs.modeOr.elim (fun h0 => h0 ▸ hsame ▸ hm) (fun h0 => h0 ▸ Nat.zero_le 2)

/-! ### Credit (R357) -/

/-- Publishing the figures of the pool moves registers only. -/
theorem Dev.crCounts_keeps {β : Type} (g : Dev → β) (h : ∀ e off v, g (Dev.setReg e off v) = g e) (d : Dev) : g d.crCounts = g d := by
  unfold Dev.crCounts
  extract_lets d1 d2
  have h1 : g d1 = g d := Dev.foldl_keeps g (fun e c => h e _ _) _ _
  exact (h _ _ _).trans ((h _ _ _).trans ((h _ _ _).trans h1))

theorem Dev.filter_waiting (d : Dev) (h : ∀ w ∈ d.crWait, d.unitGone w.unit = false) : d.crWait.filter (fun w => !d.unitGone w.unit) = d.crWait :=
  List.filter_eq_self.mpr (fun w hw => by rw [h w hw, Bool.not_false])

/-- The unit at the front takes its credit. -/
def Dev.granted (d : Dev) (w : CrUnit) : Dev :=
  { d with crHold := SMap.insert d.crHold (w.unit * 16 + w.cls) w.pages, crWait := d.crWait.filter (fun y => y != w) }

theorem doCreditGrant_eq (d : Dev) {c : Nat} {w : CrUnit} (hc : c < 10) (hf : d.crWait.find? (fun w => w.cls == c) = some w)
    (hgone : ∀ w ∈ d.crWait, d.unitGone w.unit = false) (hmay : d.mayTake c w.pages = true) (hstop : d.stkStop = false) :
    doCreditGrant c d = ((d.granted w).crCounts.ioFrom (fun q c => q * 32 + c.tag == w.unit)).score 10 (d.tick - w.tick) none (some w.cls) none := by
  have hcls : w.cls = c := by simpa using List.find?_some hf
  have hsame : ({ d with crWait := d.crWait.filter (fun w => !d.unitGone w.unit) } : Dev) = d := by rw [Dev.filter_waiting d hgone]
  unfold doCreditGrant
  rw [hsame]
  dsimp only
  rw [Nat.mod_eq_of_lt hc, hf]
  dsimp only
  rw [hcls, hmay, hstop, Dev.granted, hcls]
  exact if_pos rfl

theorem creditGrant_spec (d : Dev) {c : Nat} {w : CrUnit} (hc : c < 10) (hf : d.crWait.find? (fun w => w.cls == c) = some w)
    (hgone : ∀ w ∈ d.crWait, d.unitGone w.unit = false) (hmay : d.mayTake c w.pages = true) (hstop : d.stkStop = false) :
    (doCreditGrant c d).crHold.find (w.unit * 16 + c) = some w.pages ∧ w ∉ (doCreditGrant c d).crWait := by
  have hcls : w.cls = c := by simpa using List.find?_some hf
  have hscore := Dev.Posts.score ((d.granted w).crCounts.ioFrom (fun q c => q * 32 + c.tag == w.unit)) 10 (d.tick - w.tick) none (some w.cls) none
  rw [← doCreditGrant_eq d hc hf hgone hmay hstop] at hscore
  obtain ⟨x, hx⟩ : ∃ x, x = (d.granted w).crCounts := ⟨_, rfl⟩
  rw [← hx] at hscore
  have hx1 : x.crHold = (d.granted w).crHold := hx ▸ Dev.crCounts_keeps (·.crHold) (fun _ _ _ => rfl) (d.granted w)
  have hx2 : x.crWait = (d.granted w).crWait := hx ▸ Dev.crCounts_keeps (·.crWait) (fun _ _ _ => rfl) (d.granted w)
  have hhold : (doCreditGrant c d).crHold = (d.granted w).crHold := (congrArg (·.crHold) hscore.kept : _ = x.crHold).trans hx1
  have hwait : (doCreditGrant c d).crWait = (d.granted w).crWait := (congrArg (·.crWait) hscore.kept : _ = x.crWait).trans hx2
  rw [hhold, hwait, ← hcls]
  refine ⟨SMap.find_insert_self _ _ _, fun hin => ?_⟩
  have hne := (List.mem_filter.mp hin).2
  rw [bne_self_eq_false] at hne
  exact Bool.false_ne_true hne

/-! ### Ladles (R360, R361) -/

theorem ladleJob_bad (d : Dev) {n : Nat} (hn : n < 128) (hin : d.flag (Reg.STK_LADLE_OUT (n / 32)) (n % 32) = false) (hheld : d.stkHeld = false)
    (cls : Cls) (herr : (d.page 0x602).err = false) :
    (doLadleJob n (.move cls) false d).flag (Reg.STK_LADLE_OUT (n / 32)) (n % 32) = true ∧
    ((doLadleJob n (.move cls) false d).page 0x602).errCode = 0x0004 ∧ ((doLadleJob n (.move cls) false d).page 0x602).info0 = w32 (n + 1) ∧
    (doLadleJob n (.move cls) false d).fld Reg.STK_LADLE_STS 7 0 = d.fld Reg.STK_LADLE_STS 7 0 - 1 := by
  obtain ⟨e, he⟩ : ∃ e, e = (d.setFlag (Reg.STK_LADLE_OUT (n / 32)) (n % 32) true).setFld Reg.STK_LADLE_STS 7 0 (d.fld Reg.STK_LADLE_STS 7 0 - 1) :=
    ⟨_, rfl⟩
  obtain ⟨f, hf⟩ : ∃ f, f = e.recordErr 0x602 0x0004 (n + 1) 0 := ⟨_, rfl⟩
  have hbody : doLadleJob n (.move cls) false d = ((f.recordErr 0x602 0x0103 n (n + 1)).raise 0x602 3).chkCount 0x602 := by
    unfold doLadleJob
    dsimp only
    rw [Nat.mod_eq_of_lt hn, hin, hheld, if_neg (by decide), if_neg (by decide), hf, he]
  have hrep : f.Reports (((f.recordErr 0x602 0x0103 n (n + 1)).raise 0x602 3).chkCount 0x602) :=
    ((Dev.Reports.recordErr f _ _ _ _).trans (Dev.Reports.raise _ _ _)).trans (Dev.Reports.chkCount _ _)
  have hne : Reg.STK_LADLE_OUT (n / 32) ≠ Reg.STK_LADLE_STS := by
    simp only [Reg.STK_LADLE_OUT, Reg.STK_LADLE_STS]
    omega
  have hnot : Reg.STK_LADLE_OUT (n / 32) ∉ reportRegs := by
    simp only [reportRegs, List.mem_cons, List.not_mem_nil, or_false, Reg.STK_LADLE_OUT, Reg.PWR_MODE_STS, Reg.GLB_DEV_STS, Reg.PWR_BIAS_NOW,
      Reg.SCP_CAP_STS, Reg.SCP_INC_STS]
    omega
  rw [hbody]
  rw [hf] at hrep ⊢
  have hfirst := Dev.firstErr_later (d := e) (pg := 0x602) (code := 0x0004) (i0 := n + 1) (i1 := 0) (he ▸ herr) (hrep.page 0x602)
  refine ⟨?_, hfirst.1, hfirst.2.1, ?_⟩
  · rw [Dev.flag, hrep.regs _ hnot, Dev.reg_recordErr, he, Dev.reg_setFld_ne _ hne, ← Dev.flag]
    exact Dev.flag_setFlag_self d _ _ _ (Nat.mod_lt _ (by decide))
  · have hlt := Dev.fld_lt d Reg.STK_LADLE_STS 7 0
    rw [Dev.fld, hrep.regs _ (by decide), Dev.reg_recordErr, he, ← Dev.fld, Dev.fld_setFld_self _ _ _ _ _ (by decide)]
    exact Nat.mod_eq_of_lt (by omega)

theorem ladleJob_good (d : Dev) (n : Nat) (cls : Cls) : doLadleJob n (.move cls) true d = d := by
  unfold doLadleJob
  dsimp only
  split
  · rfl
  · rfl

theorem Dev.dpar_accMove (d : Dev) (k page : Nat) (into : Bool) : (d.accMove k page into).dpar = d.dpar := by
  unfold Dev.accMove
  extract_lets a band ps
  split
  · rfl
  · rfl

theorem Dev.mem_dparSet (d : Dev) (k page : Nat) : page ∈ SMap.get (fun _ => []) (d.dparSet k page true).dpar k := by
  unfold Dev.dparSet
  rw [if_pos rfl]
  extract_lets first d1
  have hsame : ∀ (l : List Nat) (x : Dev), (l.foldl (fun (d : Dev) q => d.accMove k q true) x).dpar = x.dpar := fun l x =>
    Dev.foldl_keeps (·.dpar) (fun e q => Dev.dpar_accMove e k q true) l x
  have hput : d1.dpar = SMap.set (fun _ => []) d.dpar k (insertSorted ((SMap.get (fun _ => []) d.dpar k).filter (· != page)) page) := rfl
  rw [hsame, hput, SMap.get_set_self]
  exact mem_insertSorted

theorem ladleJob_dparIn (d : Dev) {n p die : Nat} (block page : Nat) (hn : n < 128)
    (hin : d.flag (Reg.STK_LADLE_OUT (n / 32)) (n % 32) = false) (hheld : d.stkHeld = false) (hp : p < 512) (hdie : die < 64)
    (hf : d.fpage (setKey p die block * 4096 + page) ≠ FPage.reset) (hv : (d.fpage (setKey p die block * 4096 + page)).verified = false)
    (hmay : d.mayTake 7 128 = true) :
    page ∈ SMap.get (fun _ => []) (doLadleJob n (.dparIn p die block page) true d).dpar (setKey p die block) := by
  have hfresh : (d.fpage (setKey p die block * 4096 + page) == FPage.reset) = false := beq_eq_false_iff_ne.mpr hf
  have hbody : doLadleJob n (.dparIn p die block page) true d =
      ((d.takeCredit 7 128 (2 ^ 43 + setKey p die block)).2).dparSet (setKey p die block) page true := by
    unfold doLadleJob
    dsimp only
    rw [Nat.mod_eq_of_lt hn, Nat.mod_eq_of_lt hp, Nat.mod_eq_of_lt hdie, hin, hheld, if_neg (by decide)]
    simp only [hfresh, hv, hmay, if_true, Bool.not_true, Bool.and_false, Bool.or_self, Bool.false_eq_true, if_false]
  rw [hbody]
  exact Dev.mem_dparSet _ _ _

/-! ### SRAM errors (R367, R372) -/

/-- What one SRAM error leaves of what it counted and recorded before. -/
structure Dev.Remaps (d t : Dev) : Prop where
  page : ∀ pg, (d.page pg).Later (t.page pg)
  regs : ∀ off ∈ [Reg.ECC_ARR_CE, Reg.ECC_ARR_UE], t.reg off = d.reg off
  words : t.ceWords = d.ceWords

theorem Dev.Remaps.refl (d : Dev) : d.Remaps d := ⟨fun _ => .refl _, fun _ _ => rfl, rfl⟩

theorem Dev.Remaps.trans (h : d.Remaps e) (h' : e.Remaps t) : d.Remaps t :=
  ⟨fun pg => (h.page pg).trans (h'.page pg), fun off ho => (h'.regs off ho).trans (h.regs off ho), h'.words.trans h.words⟩

theorem Dev.Remaps.of_works (h : d.Works t) : d.Remaps t :=
  ⟨h.page, fun off ho => h.regs off (by
    rcases List.mem_pair.mp ho with rfl | rfl
    · decide
    · decide), congrArg (·.ceWords) h.kept⟩

theorem Dev.Remaps.incFld (d : Dev) {off : Nat} (h : off ∉ [Reg.ECC_ARR_CE, Reg.ECC_ARR_UE]) (hi lo n : Nat) : d.Remaps (d.incFld off hi lo n) :=
  ⟨fun _ => .refl _, fun _ ho => Dev.reg_incFld_ne d (ne_of_mem_of_not_mem ho h) _ _ _, rfl⟩

/-- Remapping a word keeps what was recorded, and the word is remapped while fewer than eight are. -/
theorem Dev.remapWord_spec (d : Dev) (a w : Nat) : d.Remaps (d.remapWord a w) ∧
    ((SMap.get (fun _ => []) d.remapped a).length < 8 → w ∈ SMap.get (fun _ => []) (d.remapWord a w).remapped a) := by
  unfold Dev.remapWord
  extract_lets ws d1
  have hput : d.Remaps { d with remapped := SMap.set (fun _ => []) d.remapped a (insertSorted ws w) } := ⟨fun _ => .refl _, fun _ _ => rfl, rfl⟩
  have h1 : d.Remaps d1 := hput.trans (.incFld _ (by decide) 15 0 1)
  have hmem : w ∈ SMap.get (fun _ => []) d1.remapped a := by
    have hd1 : d1.remapped = SMap.set (fun _ => []) d.remapped a (insertSorted ws w) := rfl
    rw [hd1, SMap.get_set_self]
    exact mem_insertSorted
  split
  · next hold =>
    refine ⟨.refl d, fun hlen => ?_⟩
    have hin : ws.contains w = true := by
      simp only [Bool.or_eq_true, decide_eq_true_eq] at hold
      exact hold.resolve_right (Nat.not_le.mpr hlen)
    exact List.contains_iff_mem.mp hin
  · split
    · have hout : (d1.incFld Reg.ECC_ARR_STS 28 16 1).Works
          ((((d1.incFld Reg.ECC_ARR_STS 28 16 1).recordErr 0xA03 0x0112 a 0).raise 0xA03 1).exhaust 6) :=
        ((Dev.Works.recordErr (.refl _) _ _ _ _).raise _ _).exhaust _
      refine ⟨(h1.trans (.incFld d1 (by decide) 28 16 1)).trans (.of_works hout), fun _ => ?_⟩
      have hsame : ∀ t, (d1.incFld Reg.ECC_ARR_STS 28 16 1).Works t → t.remapped = d1.remapped := fun t ht => congrArg (·.remapped) ht.kept
      rw [hsame _ hout]
      exact hmem
    · exact ⟨h1, fun _ => hmem⟩

/-- A corrected SRAM error: counted, and remapped when it recurs. -/
theorem sramCe_spec (d : Dev) {a w : Nat} (kind : ArrKind) (ha : a < 5120) (hw : w < 2 ^ 32) :
    (doSramEccError a w kind false d).fld Reg.ECC_ARR_CE 31 0 = min (d.fld Reg.ECC_ARR_CE 31 0 + 1) 0xFFFFFFFF ∧
    (a * 2 ^ 32 + w ∉ d.ceWords → a * 2 ^ 32 + w ∈ (doSramEccError a w kind false d).ceWords) ∧
    (a * 2 ^ 32 + w ∈ d.ceWords → (SMap.get (fun _ => []) d.remapped a).length < 8 →
      w ∈ SMap.get (fun _ => []) (doSramEccError a w kind false d).remapped a) := by
  obtain ⟨e, he⟩ : ∃ e, e = (d.capRec 0x30 1 [(8, a * 65536 + w), (1, false.toNat)]).chkCount (if pageExists (arrPage kind) then arrPage kind else 0xA03) :=
    ⟨_, rfl⟩
  obtain ⟨f, hf⟩ : ∃ f : Dev, f = { e.inc Reg.ECC_ARR_CE 1 with
    arrCe := SMap.set (fun _ => 0) (e.inc Reg.ECC_ARR_CE 1).arrCe a (satN 16 (SMap.get (fun _ => 0) (e.inc Reg.ECC_ARR_CE 1).arrCe a + 1)) } := ⟨_, rfl⟩
  have hbody : doSramEccError a w kind false d =
      if f.ceWords.contains (a * 2 ^ 32 + w) then f.remapWord a w else { f with ceWords := f.ceWords ++ [a * 2 ^ 32 + w] } := by
    unfold doSramEccError Dev.sramError
    dsimp only
    rw [Nat.mod_eq_of_lt ha, Nat.mod_eq_of_lt hw, hf, he]
    rfl
  have hrep : d.Reports e := he ▸ (Dev.Reports.capRec d _ _ _).trans (Dev.Reports.chkCount _ _)
  have hwords : f.ceWords = d.ceWords := (congrArg (·.ceWords) hf).trans (congrArg (·.ceWords) hrep.kept)
  have hmap : f.remapped = d.remapped := (congrArg (·.remapped) hf).trans (congrArg (·.remapped) hrep.kept)
  have hce : f.fld Reg.ECC_ARR_CE 31 0 = min (d.fld Reg.ECC_ARR_CE 31 0 + 1) 0xFFFFFFFF := by
    have hreg : f.fld Reg.ECC_ARR_CE 31 0 = (e.inc Reg.ECC_ARR_CE 1).fld Reg.ECC_ARR_CE 31 0 := congrArg (fun x => x.fld Reg.ECC_ARR_CE 31 0) hf
    rw [hreg, Dev.fld_inc_self, Dev.fld, hrep.regs _ (by decide), ← Dev.fld]
  rw [hbody, hwords]
  split
  · next hin =>
    obtain ⟨hkeep, hremap⟩ := Dev.remapWord_spec f a w
    have hmem : a * 2 ^ 32 + w ∈ d.ceWords := List.contains_iff_mem.mp hin
    refine ⟨?_, fun hnot => absurd hmem hnot, fun _ hlen => hremap (hmap.symm ▸ hlen)⟩
    rw [Dev.fld, hkeep.regs _ (by simp), ← Dev.fld]
    exact hce
  · next hin =>
    refine ⟨hce, fun _ => ?_, fun hmem => absurd (List.contains_iff_mem.mpr hmem) hin⟩
    exact List.mem_append_right _ (List.mem_singleton.mpr rfl)

/-- An uncorrectable SRAM error of a data array: counted and recorded on both pages. -/
theorem sramUe_spec (d : Dev) {a pg : Nat} (w : Nat) (u : Option (Nat × Nat × Nat)) (ha : a < 5120) (hex : pageExists pg = true) (hne : pg ≠ 0xA03)
    (herr : (d.page pg).err = false) (hecc : (d.page 0xA03).err = false) :
    ((doSramEccError a w (.data pg u) true d).page pg).errCode = 0x0005 ∧ ((doSramEccError a w (.data pg u) true d).page pg).info0 = w32 a ∧
    ((doSramEccError a w (.data pg u) true d).page 0xA03).errCode = 0x0110 ∧ ((doSramEccError a w (.data pg u) true d).page 0xA03).info0 = w32 a ∧
    (doSramEccError a w (.data pg u) true d).fld Reg.ECC_ARR_UE 31 0 = min (d.fld Reg.ECC_ARR_UE 31 0 + 1) 0xFFFFFFFF := by
  obtain ⟨e, he⟩ : ∃ e, e = (d.capRec 0x30 1 [(8, a * 65536 + w), (1, true.toNat)]).chkCount pg := ⟨_, rfl⟩
  obtain ⟨f, hf⟩ : ∃ f, f = (e.inc Reg.ECC_ARR_UE 1).recordErr pg 0x0005 a 0 := ⟨_, rfl⟩
  obtain ⟨g, hg⟩ : ∃ g, g = (((f.recordErr 0xA03 0x0110 a w).raise 0xA03 0).remapWord a w) := ⟨_, rfl⟩
  have hbody : ∃ t, doSramEccError a w (.data pg u) true d = t ∧ g.Works t := by
    refine ⟨_, rfl, ?_⟩
    unfold doSramEccError Dev.sramError
    simp only [arrPage, hex, if_true, Nat.mod_eq_of_lt ha, Bool.not_true, Bool.false_eq_true, if_false]
    rw [← he, ← hf, ← hg]
    cases u with
    | none => exact .refl g
    | some u => exact Dev.Works.unitPoisoned (.refl g) u
  have hrep : d.Reports e := he ▸ (Dev.Reports.capRec d _ _ _).trans (Dev.Reports.chkCount _ _)
  have herrs : ∀ q, (e.page q).err = (d.page q).err := fun q => by
    rw [he, Dev.chkCount, Dev.page_setPage]
    split
    · next hq => rw [hq, Dev.page_capRec]
    · rw [Dev.page_capRec]
  obtain ⟨t, ht, hworks⟩ := hbody
  have htold := (Dev.Works.recordErr (.refl f) 0xA03 0x0110 a w).raise 0xA03 0
  have hmap := (Dev.remapWord_spec ((f.recordErr 0xA03 0x0110 a w).raise 0xA03 0) a w).1
  rw [← hg] at hmap
  have hend := hmap.trans (Dev.Remaps.of_works hworks)
  have hfirst := Dev.firstErr_later (d := e.inc Reg.ECC_ARR_UE 1) (t := t) (pg := pg) (code := 0x0005) (i0 := a) (i1 := 0)
    ((herrs pg).trans herr) (hf ▸ (htold.page pg).trans (hend.page pg))
  have hfecc : (f.page 0xA03).err = false := by
    rw [hf, Dev.page_recordErr_ne _ hne.symm, Dev.page_inc, herrs, hecc]
  have hsecond := Dev.firstErr_later (d := f) (t := t) (pg := 0xA03) (code := 0x0110) (i0 := a) (i1 := w) hfecc
    (((Dev.Reports.raise (f.recordErr 0xA03 0x0110 a w) 0xA03 0).page 0xA03).trans (hend.page 0xA03))
  rw [ht]
  refine ⟨hfirst.1, hfirst.2.1, hsecond.1, hsecond.2.1, ?_⟩
  rw [Dev.fld, hend.regs _ (by simp), htold.regs _ (by decide), hf, Dev.reg_recordErr, ← Dev.fld, Dev.fld_inc_self, Dev.fld, hrep.regs _ (by decide),
    ← Dev.fld]

end

/-! ### The obligation -/

/-- Settles O37: a stack fault, a grant of credit, the jobs of the ladles and the errors of SRAM. -/
theorem stockpotAndSram : Obligations.StockpotAndSram := by
  intro s hrun
  refine ⟨fun k cause hk hlo hhi herr => ?_, fun c w hc hf hgone hmay hstop => ?_, fun n hn hin hheld => ⟨fun cls herr => ?_, fun cls => ?_,
    fun p die block page hp hdie => ?_⟩, fun a w kind ha hw => ⟨?_, fun pg hkind hex hne herr hecc => ?_⟩⟩
  · exact ⟨_, act_of_running s (doHbmStackFault k cause) hrun, hbmStackFault_spec s.dev hk hlo hhi herr⟩
  · exact ⟨_, act_of_running s (doCreditGrant c) hrun, creditGrant_spec s.dev hc hf hgone hmay hstop⟩
  · exact ⟨_, act_of_running s (doLadleJob n (.move cls) false) hrun, ladleJob_bad s.dev hn hin hheld cls herr⟩
  · exact act_unchanged s (doLadleJob n (.move cls) true) hrun (ladleJob_good s.dev n cls)
  · intro f hf hv hmay
    exact ⟨_, act_of_running s (doLadleJob n (.dparIn p die block page) true) hrun, ladleJob_dparIn s.dev block page hn hin hheld hp hdie hf hv hmay⟩
  · exact ⟨_, act_of_running s (doSramEccError a w kind false) hrun, sramCe_spec s.dev kind ha hw⟩
  · obtain ⟨u, rfl⟩ : ∃ u, kind = .data pg u := by
      rcases hkind with rfl | ⟨u, rfl⟩
      · exact ⟨none, rfl⟩
      · exact ⟨some u, rfl⟩
    exact ⟨_, act_of_running s (doSramEccError a w (.data pg u) true) hrun, sramUe_spec s.dev w u ha hex hne herr hecc⟩

end Sys2Proof.Machine
end

section
/-! Mode requests and entries (R413 to R418, R566). -/

namespace Sys2Proof.Machine

-- In order, one declaration at a time: keeps the check within its memory limit.
set_option Elab.async false

section
variable {d e t : Dev}

/-! ### The mode changes (R413) -/

/-- A change of mode: what it shows, and what it keeps. -/
structure Dev.Moded (d : Dev) (m : Nat) (t : Dev) : Prop where
  mode : t.mode = m
  regs : ∀ off, off ∉ [Reg.PWR_MODE_STS, Reg.GLB_DEV_STS, Reg.PWR_BIAS_NOW] → t.reg off = d.reg off
  sts : ∀ n, 2 < n → t.flag Reg.PWR_MODE_STS n = d.flag Reg.PWR_MODE_STS n
  dev : ∀ n, n < 10 ∨ 12 < n → t.flag Reg.GLB_DEV_STS n = d.flag Reg.GLB_DEV_STS n
  kept : t.sansReports = d.sansReports
  out : d.out <+: t.out
  page : ∀ pg, (d.page pg).Later (t.page pg)
  told : bitAt (t.page 0xD00).intPend 0 = true

theorem Dev.setMode_spec (d : Dev) {m : Nat} (hm : m < 8) : d.Moded m (d.setMode m) := by
  obtain ⟨e, he⟩ : ∃ e, e = d.moded m := ⟨_, rfl⟩
  have hraise : e.Reports (e.raise0 0xD00 0) := Dev.Reports.raise0 e _ _
  have hreg : ∀ off, (e.raise0 0xD00 0).reg off = e.reg off := fun off => Dev.reg_raise0 e _ _ _
  have hmode : e.mode = m := he ▸ Dev.mode_moded d hm
  have hlook : ∀ off, off ∉ [Reg.PWR_MODE_STS, Reg.GLB_DEV_STS, Reg.PWR_BIAS_NOW] → e.reg off = d.reg off := fun off hoff => by
    simp only [List.mem_cons, List.not_mem_nil, or_false, not_or] at hoff
    obtain ⟨hsts, hdev, hbias⟩ := hoff
    rw [he]
    unfold Dev.moded
    extract_lets f
    rw [Dev.setBias, Dev.reg_setReg_ne _ hbias, Dev.reg_setFld_ne _ hdev, Dev.reg_setFld_ne _ hsts]
  rw [Dev.setMode_eq, ← he]
  refine ⟨?_, fun off hoff => (hreg off).trans (hlook off hoff), fun n hn => ?_, fun n hn => ?_, hraise.kept.trans (congrArg (·.sansReports) he),
    (show d.out <+: e.out from he ▸ List.prefix_rfl).trans hraise.out, fun pg => (show (d.page pg).Later (e.page pg) from he ▸ .refl _).trans (hraise.page pg), ?_⟩
  · rw [← hmode, Dev.mode, Dev.fld, hreg, ← Dev.fld, ← Dev.mode]
  · rw [Dev.flag, hreg, he, Dev.reg_moded_sts, bitAt_putBits_ne _ _ _ _ _ (by decide) (by omega), ← Dev.flag]
  · rw [Dev.flag, hreg, he, Dev.reg_moded_dev, bitAt_putBits_ne _ _ _ _ _ (by decide) (by omega), ← Dev.flag]
  · rw [Dev.page_raise0]
    exact (bitAt_putBit _ _ _ _ (by decide)).trans (if_pos rfl)

theorem Dev.Moded.fld (h : d.Moded m t) (hi lo : Nat) (hlo : 2 < lo) : t.fld Reg.PWR_MODE_STS hi lo = d.fld Reg.PWR_MODE_STS hi lo :=
  bits_congr (fun n hn _ => h.sts n (by omega))

/-- What runs in a firmware core leaves the device in RUN, where it was in RUN or IDLE. -/
theorem Dev.mode_toRun (h : d.mode ≤ 1) : d.toRun.mode = 0 := by
  unfold Dev.toRun
  split
  · exact (Dev.setMode_spec d (by decide)).mode
  · omega

/-! ### Requests (R415) -/

/-- A field of zeros has no bit of a mask within it. -/
theorem and_mask_zero {v m : Word} {hi lo : Nat} (h : bits v hi lo = 0) (hm : ∀ i < 32, bitAt m i = true → lo ≤ i ∧ i ≤ hi) : v &&& m = 0 := by
  apply BitVec.eq_of_getLsbD_eq
  intro i hi32
  rw [BitVec.getLsbD_and, show (0 : Word).getLsbD i = false from BitVec.getLsbD_zero, Bool.and_eq_false_iff]
  by_cases hmi : bitAt m i = true
  · obtain ⟨hlo, hhi⟩ := hm i hi32 hmi
    have hbit := testBit_bits v hi lo (i - lo)
    rw [h, Nat.zero_testBit, decide_eq_true (by omega), Bool.true_and, Nat.add_sub_cancel' hlo] at hbit
    exact Or.inl hbit.symm
  · exact Or.inr (Bool.not_eq_true _ ▸ hmi)

/-- PWR_MODE_CTL of Table PWR-1. -/
def modeRow : RegDef := ⟨"PWR_MODE_CTL", 0xD00100, 1, 0x4, 0x1008, 0x0, 0xFF0F, 0x0, 0xFFFF0000, 0xF0, true, false, false⟩

/-- AUTO_IDLE and IDLE_US as a write stores them. -/
def Dev.idleSet (d : Dev) (v : Word) : Dev := (d.setFlag Reg.PWR_MODE_CTL 3 (bitAt v 3)).setFld Reg.PWR_MODE_CTL 15 8 (bits v 15 8)

theorem Dev.reg_idleSet (d : Dev) (v : Word) {off : Nat} (h : off ≠ Reg.PWR_MODE_CTL) : (d.idleSet v).reg off = d.reg off := by
  rw [Dev.idleSet, Dev.reg_setFld_ne _ h, Dev.reg_setFlag_ne _ h]

theorem Dev.fld_idleSet (d : Dev) (v : Word) : (d.idleSet v).fld Reg.PWR_MODE_CTL 15 8 = bits v 15 8 := by
  rw [Dev.idleSet, Dev.fld_setFld_self _ _ _ _ _ (by decide)]
  exact Nat.mod_eq_of_lt (Nat.mod_lt _ (Nat.two_pow_pos _))

/-- A write of PWR_MODE_CTL with its key sets the target, once it has arrived. -/
theorem modeCtl_key (d : Dev) (v : Word) (ho : d.isOpen 0xD00) (hkey : bits v 31 16 = 0x5057) (hus : bits v 15 8 ≠ 0) :
    ∃ d1 d2, d.Arrives d1 ∧ (d2 = d1 ∨ d2 = d1.recordErr 0xD00 0x0001 0x100 0) ∧ (v &&& 0xF0 = 0 → d2 = d1) ∧
      ((d2.idleSet v).modeTarget (bits v 2 0)).Publishes (modeCtl v d) := by
  obtain ⟨d1, d2, harr, herr, hrsv, hpub⟩ := regWrite_reports d Reg.PWR_MODE_CTL v (fun _ d =>
    if bits v 15 8 = 0 then d.recordErr 0xD00 0x0106 0x100 v.toNat
    else
      let d := (d.setFlag Reg.PWR_MODE_CTL 3 (bitAt v 3)).setFld Reg.PWR_MODE_CTL 15 8 (bits v 15 8)
      if bits v 31 16 = 0x5057 then d.modeTarget (bits v 2 0) else d) modeRow ho rfl
  have heff : (if bits v 15 8 = 0 then d2.recordErr 0xD00 0x0106 0x100 v.toNat
    else if bits v 31 16 = 0x5057 then (d2.idleSet v).modeTarget (bits v 2 0) else d2.idleSet v) = (d2.idleSet v).modeTarget (bits v 2 0) := by
    rw [if_neg hus, if_pos hkey]
  exact ⟨d1, d2, harr, herr, hrsv, heff ▸ hpub⟩

/-- What PWR_MODE_CTL's effect finds of the device that the write reached. -/
structure Dev.Asked (d : Dev) (v : Word) (e : Dev) : Prop where
  regs : ∀ off, off ≠ Reg.PWR_MODE_CTL → e.reg off = d.reg off
  us : e.fld Reg.PWR_MODE_CTL 15 8 = bits v 15 8
  entryTgt : e.entryTgt = d.entryTgt
  gPrev : e.gPrev = d.gPrev

theorem Dev.Publishes.entryTgt (h : d.Publishes t) : t.entryTgt = d.entryTgt := by
  obtain ⟨_, _, _, rfl, _⟩ := h
  rfl

theorem Dev.asked_of_arrives {d d1 d2 : Dev} (v : Word) (harr : d.Arrives d1) (h : d2 = d1 ∨ d2 = d1.recordErr 0xD00 0x0001 0x100 0) :
    d.Asked v (d2.idleSet v) := by
  obtain ⟨_, _, rfl, _⟩ := harr
  rcases h with rfl | rfl
  · exact ⟨fun off hoff => Dev.reg_idleSet _ v hoff, Dev.fld_idleSet _ v, rfl, rfl⟩
  · exact ⟨fun off hoff => (Dev.reg_idleSet _ v hoff).trans (Dev.reg_recordErr _ _ _ _ _ _), Dev.fld_idleSet _ v,
      by rw [Dev.recordErr_eq]; rfl, by rw [Dev.recordErr_eq]; rfl⟩

theorem Dev.segsActive_congr (h : ∀ off, off ≠ Reg.PWR_MODE_CTL → e.reg off = d.reg off) :
    (List.range 32).any (fun n => e.segActive n) = (List.range 32).any (fun n => d.segActive n) := by
  have hseg : ∀ n ∈ List.range 32, e.segActive n = d.segActive n := fun n hn => by
    have hn32 : n < 32 := List.mem_range.mp hn
    refine congrArg (fun w => bitAt w 0) (h _ ?_)
    simp only [Reg.SEG_STS, Reg.PWR_MODE_CTL]
    omega
  rw [Bool.eq_iff_iff, List.any_eq_true, List.any_eq_true]
  exact exists_congr (fun n => and_congr_right (fun hn => by rw [hseg n hn]))

/-- What the reasons of Table PWR-2 look at, the write keeps. -/
theorem Dev.Asked.modeReason (h : d.Asked v e) (tgt : Nat) : e.modeReason tgt = d.modeReason tgt := by
  have hflag : ∀ off n, off ≠ Reg.PWR_MODE_CTL → e.flag off n = d.flag off n := fun off n ho => congrArg (fun w => bitAt w n) (h.regs off ho)
  have hfld : ∀ off hi lo, off ≠ Reg.PWR_MODE_CTL → e.fld off hi lo = d.fld off hi lo := fun off hi lo ho => congrArg (fun w => bits w hi lo) (h.regs off ho)
  unfold Dev.modeReason Dev.phase Dev.paired Dev.twin
  rw [Dev.segsActive_congr h.regs, h.gPrev, hfld _ _ _ (by decide), hfld _ _ _ (by decide), hfld _ _ _ (by decide), hflag _ _ (by decide), hflag _ _ (by decide), hflag _ _ (by decide)]

/-- A request that nothing refuses starts QUIESCE (R415, R416). -/
theorem Dev.modeTarget_go (e : Dev) {tgt : Nat} (ht : 2 ≤ tgt ∧ tgt ≤ 4) (hm : e.mode ≤ 1) (h5 : e.entryTgt ≠ 5) (hp : e.phase = 0) (hr : e.modeReason tgt = 0) :
    (e.modeTarget tgt).phase = 1 ∧ (e.modeTarget tgt).entryTgt = tgt ∧ (e.modeTarget tgt).mode = 0 ∧
    (e.modeTarget tgt).flag Reg.PWR_MODE_STS 8 = false ∧ (e.modeTarget tgt).fld Reg.PWR_MODE_CTL 15 8 = e.fld Reg.PWR_MODE_CTL 15 8 := by
  obtain ⟨f, hf⟩ : ∃ f, f = ((e.setTarget tgt).setPhase 1).setFlag Reg.PWR_MODE_STS 8 false := ⟨_, rfl⟩
  have hbody : e.modeTarget tgt = f.toRun := by
    unfold Dev.modeTarget
    dsimp only
    rw [if_neg (by omega), if_neg (by omega), if_neg (by omega), if_neg (by omega), if_neg (not_not.mpr hr), if_neg (by omega), hf]
  have hrep := Dev.Reports.toRun f
  have hsts : ∀ hi lo, hi < 4 ∨ 8 < lo → f.fld Reg.PWR_MODE_STS hi lo = e.fld Reg.PWR_MODE_STS hi lo := fun hi lo h => by
    rw [hf, Dev.fld_setFlag_other _ _ _ _ _ _ (by decide) (by omega), Dev.setPhase, Dev.fld_setFld_other _ _ _ _ _ _ _ (by decide) (by omega)]
    exact Dev.fld_setFld_ne e (by decide) _ _ _ _ _
  rw [hbody]
  refine ⟨?_, (congrArg (·.entryTgt) hrep.kept).trans (congrArg (·.entryTgt) hf), Dev.mode_toRun ?_, ?_, ?_⟩
  · rw [Dev.phase, hrep.runs.stsFld _ _ (by decide), hf, Dev.fld_setFlag_other _ _ _ _ _ _ (by decide) (by decide)]
    exact Dev.fld_setFld_self _ _ _ _ _ (by decide)
  · exact (hsts 2 0 (by decide)).trans_le hm
  · rw [hrep.runs.sts 8 (by decide), hf]
    exact Dev.flag_setFlag_self _ _ _ _ (by decide)
  · rw [Dev.fld, hrep.regs _ (by decide), hf, Dev.reg_setFlag_ne _ (by decide), Dev.setPhase, Dev.reg_setFld_ne _ (by decide), ← Dev.fld]
    exact Dev.fld_setFld_other e _ _ _ _ _ _ (by decide) (by decide)

/-- A request that a reason refuses says so (R415). -/
theorem Dev.modeTarget_refused (e : Dev) {tgt : Nat} (ht : 2 ≤ tgt ∧ tgt ≤ 4) (hm : e.mode ≤ 1) (h5 : e.entryTgt ≠ 5) (hp : e.phase = 0)
    (hr : e.modeReason tgt ≠ 0) (herr : (e.page 0xD00).err = false) :
    (e.modeTarget tgt).phase = 0 ∧ (e.modeTarget tgt).flag Reg.PWR_MODE_STS 7 = true ∧
    (e.modeTarget tgt).fld Reg.PWR_MODE_STS 15 12 = e.modeReason tgt ∧ ((e.modeTarget tgt).page 0xD00).errCode = 0x0100 ∧
    ((e.modeTarget tgt).page 0xD00).info0 = w32 tgt ∧ ((e.modeTarget tgt).page 0xD00).info1 = w32 (e.modeReason tgt) := by
  have hlt : e.modeReason tgt < 16 := by
    unfold Dev.modeReason
    split_ifs <;> decide
  have hbody : e.modeTarget tgt = ((e.setFlag Reg.PWR_MODE_STS 7 true).setFld Reg.PWR_MODE_STS 15 12 (e.modeReason tgt)).recordErr 0xD00 0x0100 tgt
      (e.modeReason tgt) := by
    unfold Dev.modeTarget
    dsimp only
    rw [if_neg (by omega), if_neg (by omega), if_neg (by omega), if_neg (by omega), if_pos hr, Dev.modeRefuse]
  obtain ⟨h1, h2, h3⟩ := Dev.firstErr_later (d := (e.setFlag Reg.PWR_MODE_STS 7 true).setFld Reg.PWR_MODE_STS 15 12 (e.modeReason tgt))
    (pg := 0xD00) (code := 0x0100) (i0 := tgt) (i1 := e.modeReason tgt) herr (.refl _)
  rw [hbody]
  refine ⟨?_, ?_, ?_, h1, h2, h3⟩
  · rw [Dev.phase, Dev.fld_recordErr, Dev.fld_setFld_other _ _ _ _ _ _ _ (by decide) (by decide),
      Dev.fld_setFlag_other _ _ _ _ _ _ (by decide) (by decide)]
    exact hp
  · rw [Dev.flag_recordErr, Dev.flag_setFld_other _ _ _ _ _ _ (by decide) (by decide), Dev.flag_setFlag_self _ _ _ _ (by decide)]
  · rw [Dev.fld_recordErr, Dev.fld_setFld_self _ _ _ _ _ (by decide)]
    exact Nat.mod_eq_of_lt hlt

/-- TARGET = 0 in QUIESCE or FLUSH returns to RUN (R417, R418). -/
theorem Dev.modeTarget_cancel (e : Dev) (hm : e.mode ≤ 1) (h5 : e.entryTgt ≠ 5) (hp : 1 ≤ e.phase ∧ e.phase ≤ 2) :
    (e.modeTarget 0).phase = 0 ∧ (e.modeTarget 0).entryTgt = 0 ∧ (e.modeTarget 0).mode = 0 := by
  obtain ⟨f, hf⟩ : ∃ f, f = (e.setTarget 0).setPhase 0 := ⟨_, rfl⟩
  have hbody : e.modeTarget 0 = f.toRun := by
    unfold Dev.modeTarget
    dsimp only
    rw [if_neg (by omega), if_neg (by omega), if_pos ⟨by omega, rfl⟩, hf]
  have hrep := Dev.Reports.toRun f
  rw [hbody]
  refine ⟨?_, (congrArg (·.entryTgt) hrep.kept).trans (congrArg (·.entryTgt) hf), Dev.mode_toRun ?_⟩
  · rw [Dev.phase, hrep.runs.stsFld _ _ (by decide), hf]
    exact Dev.fld_setFld_self _ _ _ _ _ (by decide)
  · have hsame : f.mode = e.mode := by
      rw [hf, Dev.mode, Dev.setPhase, Dev.fld_setFld_other _ _ _ _ _ _ _ (by decide) (by decide)]
      exact Dev.fld_setFld_ne e (by decide) _ _ _ _ _
    exact hsame.trans_le hm

/-! ### SLEEP (R416) -/

theorem Dev.commitSleep_spec (d : Dev) : d.commitSleep.mode = 2 ∧ d.commitSleep.phase = 0 ∧ d.tells d.commitSleep (.vid (vidWord 140)) := by
  obtain ⟨e, he⟩ : ∃ e : Dev, e = { d with entryTgt := 0, sleepAt := d.tick }.setPhase 0 := ⟨_, rfl⟩
  obtain ⟨f, hf⟩ : ∃ f, f = e.setMode 2 := ⟨_, rfl⟩
  have hbody : d.commitSleep = (f.setBias 140).emit (.vid (vidWord 140)) := by rw [hf, he, Dev.commitSleep]
  have hmoded := Dev.setMode_spec e (m := 2) (by decide)
  rw [← hf] at hmoded
  have hphase : e.phase = 0 := he ▸ Dev.fld_setFld_self _ _ _ _ _ (by decide)
  rw [hbody]
  refine ⟨?_, ?_, ?_⟩
  · exact (Dev.fld_setReg_ne f (by decide) _ _ _).trans hmoded.mode
  · exact (Dev.fld_setReg_ne f (by decide) _ _ _).trans ((hmoded.fld 6 4 (by decide)).trans hphase)
  · have hout : d.out <+: f.out := (show d.out <+: e.out from he ▸ List.prefix_rfl).trans hmoded.out
    exact Dev.tells_within (e := f.setBias 140) hout (Dev.tells_of_out [] [] rfl) List.prefix_rfl

/-! ### DEEP and OFF (R417) -/

/-- The registers of the domains' states. -/
def domStsRegs : List Nat := (List.range 4).map Reg.PWR_DOM_STS

/-- What leaving for DEEP or OFF keeps. -/
structure Dev.GoesOff (d t : Dev) : Prop where
  ao : t.aoUp = d.aoUp
  regs : ∀ off ∈ domStsRegs, t.reg off = d.reg off

theorem Dev.Frame.aoUp {erase : Dev → Dev} {rs : List Nat} (h : Dev.Frame erase rs d t) (he : ∀ x, (erase x).aoUp = x.aoUp) : t.aoUp = d.aoUp := by
  rw [← he t, h.kept, he d]

theorem Dev.GoesOff.refl (d : Dev) : d.GoesOff d := ⟨rfl, fun _ _ => rfl⟩

theorem Dev.GoesOff.trans (h : d.GoesOff e) (h' : e.GoesOff t) : d.GoesOff t :=
  ⟨h'.ao.trans h.ao, fun off ho => (h'.regs off ho).trans (h.regs off ho)⟩

theorem Dev.GoesOff.of_frame {erase : Dev → Dev} {rs : List Nat} (h : Dev.Frame erase rs d t) (he : ∀ x, (erase x).aoUp = x.aoUp)
    (hrs : ∀ off ∈ domStsRegs, off ∉ rs) : d.GoesOff t :=
  ⟨h.aoUp he, fun off ho => h.regs off (hrs off ho)⟩

theorem Dev.GoesOff.of_reports (h : d.Reports t) : d.GoesOff t := .of_frame h (fun _ => rfl) (by decide)

theorem Dev.GoesOff.setReg {off : Nat} (h : off ∉ domStsRegs) (d : Dev) (v : Word) : d.GoesOff (d.setReg off v) :=
  ⟨rfl, fun _ ho => Dev.reg_setReg_ne d (ne_of_mem_of_not_mem ho h) v⟩

theorem Dev.GoesOff.foldl_mem {α : Type} {f : Dev → α → Dev} {l : List α} (h : ∀ (e : Dev), ∀ x ∈ l, e.GoesOff (f e x)) (d : Dev) :
    d.GoesOff (l.foldl f d) := List.foldlRecOn (motive := fun e : Dev => d.GoesOff e) l f (.refl d) (fun _ he x hx => he.trans (h _ x hx))

theorem Dev.GoesOff.ite {c : Prop} [Decidable c] (h : d.GoesOff e) (h' : d.GoesOff t) : d.GoesOff (if c then e else t) := by
  split
  · exact h
  · exact h'

theorem Dev.GoesOff.capPower (d : Dev) (src : Nat) : d.GoesOff (d.capPower src) := by
  have hcap : ∀ (x : Dev) c, x.GoesOff { x with cap := c } := fun x c => ⟨rfl, fun _ _ => rfl⟩
  exact Dev.GoesOff.ite ((Dev.GoesOff.of_reports (Dev.Reports.capStop d)).trans (hcap _ _)) (.refl d)

theorem Dev.GoesOff.sendFresh (d : Dev) (p : Nat) (c : LaneCmd) : d.GoesOff (d.sendFresh p c []) :=
  ⟨congrArg (·.aoUp) (Dev.Sends.sendFresh d p c []).rest, fun off _ => (Dev.Sends.sendFresh d p c []).reg off⟩

theorem Dev.GoesOff.setLstate (d : Dev) (p st : Nat) : d.GoesOff (d.setLstate p st) := by
  refine .of_frame (Dev.Lanes.setLstate d p st) (fun _ => rfl) (fun off ho hin => ?_)
  obtain ⟨n, hn, rfl⟩ := List.mem_map.mp ho
  have hn4 : n < 4 := List.mem_range.mp hn
  simp only [laneRegs, reportRegs, List.mem_append, List.mem_cons, List.not_mem_nil, or_false, Reg.PWR_DOM_STS, Reg.PWR_MODE_STS, Reg.GLB_DEV_STS,
    Reg.PWR_BIAS_NOW, Reg.SCP_CAP_STS, Reg.SCP_INC_STS, Reg.FCH_P_STS, Reg.FCH_C_UP, Reg.FCH_C_FAILED, Reg.FCH_C_HANDED] at hin
  omega

theorem Dev.GoesOff.setSingle (d : Dev) (b : Bool) : d.GoesOff (d.setSingle b) := by
  unfold Dev.setSingle
  extract_lets d1 d2
  exact ((((Dev.GoesOff.setReg (by decide) d _).trans (.setReg (by decide) _ _)).trans (.setReg (by decide) d1 _)).trans
    (.setReg (by decide) _ _)).trans ((Dev.GoesOff.setReg (by decide) d2 _).trans (.setReg (by decide) _ _))

theorem Dev.GoesOff.setTwin (d : Dev) (st : Nat) : d.GoesOff (d.setTwin st) := by
  unfold Dev.setTwin
  extract_lets d1 d2
  have h2 : d.GoesOff d2 := (Dev.GoesOff.setReg (by decide) d _).trans (.setSingle d1 _)
  have hraise : ∀ n, d.GoesOff (d2.raise 0xC01 n) := fun n => h2.trans (.of_reports (Dev.Reports.raise d2 _ n))
  exact .ite (.refl d) (.ite (hraise 0) (.ite (hraise 2) (.ite (hraise 3) h2)))

theorem Dev.GoesOff.linkDown (d : Dev) : d.GoesOff d.linkDown := by
  have hend : ∀ x : Dev, x.GoesOff { x with syncEnd := none } := fun x => ⟨rfl, fun _ _ => rfl⟩
  have htwin : ∀ x : Dev, x.GoesOff ({ x with syncEnd := none }.setTwin 0) := fun x => (hend x).trans (.setTwin _ 0)
  unfold Dev.linkDown
  split
  · extract_lets d1 d2
    have h1 : d.GoesOff d1 := (Dev.GoesOff.setReg (by decide) d _).trans (.setReg (by decide) _ _)
    have h2 : d.GoesOff d2 := (h1.trans (.setReg (by decide) d1 _)).trans (.of_reports (Dev.Reports.raise _ _ _))
    split
    · exact h2.trans (htwin d2)
    · exact h2
  · exact .refl d

theorem domSts_notHead : ∀ off ∈ domStsRegs, off ∉ headRegs := by
  intro off ho
  obtain ⟨n, hn, rfl⟩ := List.mem_map.mp ho
  have hn4 : n < 4 := List.mem_range.mp hn
  refine not_mem_headRegs ?_ (by simp only [Reg.PWR_DOM_STS]; omega)
  simp only [reportRegs, List.mem_cons, List.not_mem_nil, or_false, Reg.PWR_DOM_STS, Reg.PWR_MODE_STS, Reg.GLB_DEV_STS, Reg.PWR_BIAS_NOW,
    Reg.SCP_CAP_STS, Reg.SCP_INC_STS]
  omega

theorem Dev.GoesOff.headsDown (d : Dev) : d.GoesOff d.headsDown := .of_frame (Dev.headsDown_frame d) (fun _ => rfl) domSts_notHead

theorem Dev.GoesOff.setEnMain (d : Dev) : d.GoesOff (d.setEnMain false) := .of_frame (Dev.setEnMain_low d).2.2 (fun _ => rfl) domSts_notHead

theorem Dev.GoesOff.setMode (d : Dev) {m : Nat} (hm : m < 8) : d.GoesOff (d.setMode m) := by
  have h := Dev.setMode_spec d hm
  refine ⟨congrArg (·.aoUp) h.kept, fun off ho => h.regs off ?_⟩
  revert off
  decide

/-- Every domain is OFF once each has been set so. -/
theorem Dev.allOff (d : Dev) : ((List.range 64).foldl (fun (d : Dev) g => d.setDomSt g 2) d).aoUp = d.aoUp ∧
    ∀ g < 64, ((List.range 64).foldl (fun (d : Dev) g => d.setDomSt g 2) d).domSt g = 2 := by
  have hall : ∀ (l : List Nat), (∀ g ∈ l, g < 64) → ∀ e : Dev, (l.foldl (fun (d : Dev) g => d.setDomSt g 2) e).aoUp = e.aoUp ∧
      ∀ g < 64, (l.foldl (fun (d : Dev) g => d.setDomSt g 2) e).domSt g = if g ∈ l then 2 else e.domSt g := by
    intro l
    induction l with
    | nil => exact fun _ e => ⟨rfl, fun g _ => (if_neg List.not_mem_nil).symm⟩
    | cons k l ih =>
      intro hl e
      have hk : k < 64 := hl k List.mem_cons_self
      obtain ⟨hao, hdom⟩ := ih (fun g hg => hl g (List.mem_cons_of_mem _ hg)) (e.setDomSt k 2)
      rw [List.foldl_cons]
      refine ⟨hao.trans ((Dev.setDomSt_frame e hk 2).aoUp (fun _ => rfl)), fun g hg => (hdom g hg).trans ?_⟩
      rw [Dev.domSt_setDomSt _ hk (by decide) hg]
      by_cases hgl : g ∈ l
      · simp [hgl]
      · by_cases hgk : g = k
        · simp [hgk]
        · simp [hgl, hgk]
  obtain ⟨hao, hdom⟩ := hall (List.range 64) (fun g hg => List.mem_range.mp hg) d
  exact ⟨hao, fun g hg => (hdom g hg).trans (if_pos (List.mem_range.mpr hg))⟩

/-- The ports leave, the domains go OFF. -/
def Dev.deepPorts (d : Dev) (tgt : Nat) : Dev :=
  let d := d.capPower (if tgt = 3 then 3 else 2)
  let own := (List.range 512).filter (fun p => d.fld (Reg.FCH_P_STS p) 4 3 == 1 && d.lstate p == 5)
  let d := own.foldl (fun (d : Dev) p => d.sendFresh p { opc := 0x0A, args := 2 } []) d
  ((List.range 512).filter (fun p => d.lstate p != 7)).foldl (fun (d : Dev) p => d.setLstate p 0) d

def Dev.deepDoms (d : Dev) : Dev := (List.range 64).foldl (fun (d : Dev) g => d.setDomSt g 2) d

/-- The links go, release and READY fall, the time is kept for DEEP. -/
def Dev.deepLinks (d : Dev) (tgt : Nat) : Dev :=
  let edge := (d.tick + 1 + d.freeVal % 30518, (d.ao + 1) % 2 ^ 48, d.epoch, d.uncNow)
  let d := (d.drawn.headsDown.linkDown).setTwin 0
  let d := ((d.setFlag Reg.GLB_DEV_STS 0 false).setFlag Reg.TST_BRG_STS 4 false).setFlag Reg.TST_BRG_STS 5 false
  { d with timeSave := if tgt = 3 then some edge else none, entryTgt := 0, nvm := { d.nvm with clean := true } }

theorem Dev.commitDeep_eq (d : Dev) (tgt : Nat) : d.commitDeep tgt =
    if tgt = 4 then { (((((d.deepPorts tgt).deepDoms.deepLinks tgt).setPhase 0).setMode tgt).setEnMain false).emit (.ballLevel "EN_AO" false) with
      aoUp := false }
    else ((((d.deepPorts tgt).deepDoms.deepLinks tgt).setPhase 0).setMode tgt).setEnMain false := by
  unfold Dev.commitDeep Dev.deepPorts Dev.deepDoms Dev.deepLinks
  dsimp only

theorem Dev.deepPorts_off (d : Dev) (tgt : Nat) : d.GoesOff (d.deepPorts tgt) := by
  unfold Dev.deepPorts
  extract_lets d1 own d2
  have h1 : d.GoesOff d1 := .capPower d _
  have h2 : d1.GoesOff d2 := .foldl_mem (fun e p _ => .sendFresh e p _) d1
  exact (h1.trans h2).trans (.foldl_mem (fun e p _ => .setLstate e p 0) d2)

theorem Dev.deepLinks_off (d : Dev) (tgt : Nat) : d.GoesOff (d.deepLinks tgt) ∧ (d.deepLinks tgt).released = false := by
  have hsave : ∀ (x : Dev) a b, x.GoesOff { x with timeSave := a, entryTgt := 0, nvm := b } := fun x a b => ⟨rfl, fun _ _ => rfl⟩
  have hdrawn : d.GoesOff d.drawn := ⟨rfl, fun _ _ => rfl⟩
  obtain ⟨e, he⟩ : ∃ e, e = (d.drawn.headsDown.linkDown).setTwin 0 := ⟨_, rfl⟩
  obtain ⟨f, hf⟩ : ∃ f, f = ((e.setFlag Reg.GLB_DEV_STS 0 false).setFlag Reg.TST_BRG_STS 4 false).setFlag Reg.TST_BRG_STS 5 false := ⟨_, rfl⟩
  have hde : d.GoesOff e := he ▸ ((hdrawn.trans (.headsDown _)).trans (.linkDown _)).trans (.setTwin _ 0)
  have hef : e.GoesOff f := hf ▸ ((Dev.GoesOff.setReg (by decide) e _).trans (.setReg (by decide) _ _)).trans (.setReg (by decide) _ _)
  have hrel : f.released = false := by
    rw [hf, Dev.released, Dev.flag_setFlag_ne _ (by decide), Dev.flag_setFlag_ne _ (by decide), Dev.flag_setFlag_self _ _ _ _ (by decide)]
  have hbody : ∃ a b, d.deepLinks tgt = { f with timeSave := a, entryTgt := 0, nvm := b } := by
    refine ⟨if tgt = 3 then some (d.tick + 1 + d.freeVal % 30518, (d.ao + 1) % 2 ^ 48, d.epoch, d.uncNow) else none, { f.nvm with clean := true }, ?_⟩
    rw [hf, he]
    rfl
  obtain ⟨a, b, hbody⟩ := hbody
  rw [hbody]
  exact ⟨(hde.trans hef).trans (hsave f a b), hrel⟩

/-- The mode is entered, and EN_MAIN falls. -/
theorem Dev.deepEnd_spec (e : Dev) {tgt : Nat} (ht : tgt = 3 ∨ tgt = 4) (hrel : e.released = false) (t : Dev)
    (h : t = ((e.setPhase 0).setMode tgt).setEnMain false) :
    t.mode = tgt ∧ t.enMain = false ∧ t.pgMain = false ∧ t.released = false ∧ e.GoesOff t := by
  have hmoded := Dev.setMode_spec (e.setPhase 0) (m := tgt) (by omega)
  obtain ⟨f, hf⟩ : ∃ f, f = (e.setPhase 0).setMode tgt := ⟨_, rfl⟩
  rw [← hf] at hmoded h
  obtain ⟨hen, hpg, hframe⟩ := Dev.setEnMain_low f
  rw [← h] at hen hpg hframe
  have hoff : e.GoesOff t := by
    rw [h, hf]
    exact ((Dev.GoesOff.setReg (by decide) e _).trans (.setMode _ (by omega))).trans (.setEnMain _)
  refine ⟨(hframe.runs.mode_eq (by rw [hmoded.mode]; omega)).trans hmoded.mode, hen, hpg, ?_, hoff⟩
  rw [Dev.released, hframe.runs.dev 0 (by decide), hmoded.dev 0 (by decide), Dev.setPhase, Dev.flag_setFld_ne _ (by decide)]
  exact hrel

theorem Dev.commitDeep_spec (d : Dev) {tgt : Nat} (ht : tgt = 3 ∨ tgt = 4) (hao : d.aoUp = true) :
    (d.commitDeep tgt).mode = tgt ∧ (d.commitDeep tgt).enMain = false ∧ (d.commitDeep tgt).pgMain = false ∧ (d.commitDeep tgt).released = false ∧
    (∀ g < 64, (d.commitDeep tgt).domSt g = 2) ∧ (d.commitDeep tgt).aoUp = decide (tgt = 3) := by
  obtain ⟨e, he⟩ : ∃ e, e = (d.deepPorts tgt).deepDoms.deepLinks tgt := ⟨_, rfl⟩
  obtain ⟨t, h⟩ : ∃ t, t = ((e.setPhase 0).setMode tgt).setEnMain false := ⟨_, rfl⟩
  have hports := Dev.deepPorts_off d tgt
  obtain ⟨hdomao, hdoms⟩ := Dev.allOff (d.deepPorts tgt)
  obtain ⟨hlinks, hrel⟩ := Dev.deepLinks_off (d.deepPorts tgt).deepDoms tgt
  rw [← he] at hlinks hrel
  obtain ⟨hmode, hen, hpg, hreleased, hoff⟩ := Dev.deepEnd_spec e ht hrel t h
  have hend := hlinks.trans hoff
  have haot : t.aoUp = true := (hend.ao.trans hdomao).trans (hports.ao.trans hao)
  have hdomt : ∀ g < 64, t.domSt g = 2 := fun g hg => by
    refine (congrArg (fun w => bits w (2 * (g % 16) + 1) (2 * (g % 16))) (hend.regs _ ?_)).trans (hdoms g hg)
    exact List.mem_map.mpr ⟨g / 16, List.mem_range.mpr (by omega), rfl⟩
  have hbody : d.commitDeep tgt = if tgt = 4 then { t.emit (.ballLevel "EN_AO" false) with aoUp := false } else t := by
    rw [Dev.commitDeep_eq, ← he, ← h]
  rw [hbody]
  rcases ht with rfl | rfl
  · exact ⟨hmode, hen, hpg, hreleased, hdomt, haot⟩
  · exact ⟨hmode, hen, hpg, hreleased, hdomt, rfl⟩

/-! ### The restart of a WARM reset (R566) -/

/-- The device that a WARM reset's bring-up begins from. -/
def Dev.warmBegun (d : Dev) : Dev := ((d.setPhase 0).beginBring 3 0).setFlag Reg.TST_BRG_STS 5 false

theorem Dev.warmBegun_spec (d : Dev) : d.warmBegun.phase = 0 ∧ d.warmBegun.entryTgt = d.entryTgt ∧ d.warmBegun.released = false ∧
    d.warmBegun.fld Reg.TST_BRG_CAUSE 2 0 = 3 := by
  obtain ⟨e, he⟩ : ∃ e, e = d.setPhase 0 := ⟨_, rfl⟩
  have hbody : d.warmBegun = (e.beginBring 3 0).setFlag Reg.TST_BRG_STS 5 false := he ▸ rfl
  rw [hbody]
  refine ⟨?_, (congrArg (·.entryTgt) he : e.entryTgt = d.entryTgt), ?_, ?_⟩
  · rw [Dev.phase, Dev.fld_setFlag_ne _ (by decide), Dev.fld, Dev.reg_beginBring e 3 0 (by decide) (by decide), he]
    exact Dev.fld_setFld_self d Reg.PWR_MODE_STS 6 4 0 (by decide)
  · rw [Dev.released, Dev.flag_setFlag_ne _ (by decide)]
    exact (Dev.flag_setReg_ne _ (by decide) _ _).trans (Dev.flag_setFlag_self _ _ _ _ (by decide))
  · rw [Dev.fld_setFlag_ne _ (by decide)]
    exact Dev.fld_setReg_self _ _ _ _ _

/-- A WARM reset's bring-up runs from a device that waits for no entry. -/
theorem Dev.warmRestart_eq (d : Dev) (m : Memory) (r : BringUp) :
    ∃ e : Dev, e.entryTgt = 0 ∧ d.warmRestart m r = { e.warmBegun with bring := some r }.bringFrom6 m r := by
  unfold Dev.warmRestart
  extract_lets d1 i1 i2 d2 n d3 d4 d5
  have hclear : ∀ (l : List Nat) (y : Dev), (l.foldl (fun (d : Dev) i => d.setReg (Reg.CRY_XBUF i) 0) y).entryTgt = y.entryTgt := fun l y =>
    Dev.foldl_keeps (·.entryTgt) (by intro _ _; rfl) l y
  exact ⟨d4, hclear (List.range 32) d3, rfl⟩

theorem Dev.warmRestart_spec (d : Dev) (m : Memory) (r : BringUp) : (d.warmRestart m r).phase = 0 ∧ (d.warmRestart m r).entryTgt = 0 ∧
    (d.warmRestart m r).released = false ∧ (d.warmRestart m r).fld Reg.TST_BRG_CAUSE 2 0 = 3 := by
  obtain ⟨e, htgt, hbody⟩ := Dev.warmRestart_eq d m r
  obtain ⟨hphase, hentry, hrel, hcause⟩ := Dev.warmBegun_spec e
  obtain ⟨f, hf⟩ : ∃ f : Dev, f = { e.warmBegun with bring := some r } := ⟨_, rfl⟩
  have hreg : ∀ off, f.reg off = e.warmBegun.reg off := fun off => hf ▸ rfl
  have hbrings := Dev.Brings.bringFrom6 f m r
  rw [hbody, ← hf]
  refine ⟨?_, ?_, ?_, ?_⟩
  · rw [hbrings.phase, Dev.phase, Dev.fld, hreg]
    exact hphase
  · exact (congrArg (·.entryTgt) hbrings.kept).trans ((congrArg (·.entryTgt) hf).trans (hentry.trans htgt))
  · rw [hbrings.released, Dev.released, Dev.flag, hreg]
    exact hrel
  · rw [Dev.fld, hbrings.regs _ (by decide), hreg]
    exact hcause

end

/-! ### The obligation -/

section
variable (s : State) (hrun : s.running)
include hrun

/-- A request for an entry with the key is a write of PWR_MODE_CTL with that target. -/
theorem exec_modeRequest (v : Word) {tgt : Nat} {i : Instr} (hi : (tgt, i) ∈ [(2, Instr.sleepRequest v), (3, .deepRequest v), (4, .offRequest v)])
    (htgt : bits v 2 0 = tgt) : (2 ≤ tgt ∧ tgt ≤ 4) ∧ exec i s = .next { s with dev := modeCtl v s.dev } := by
  have hother : otherTarget v tgt = false := by simp [otherTarget, htgt]
  simp only [List.mem_cons, Prod.mk.injEq, List.not_mem_nil, or_false] at hi
  rcases hi with ⟨rfl, rfl⟩ | ⟨rfl, rfl⟩ | ⟨rfl, rfl⟩
  · refine ⟨by decide, (act_of_running s (doSleepRequest v) hrun).trans ?_⟩
    rw [doSleepRequest, hother, if_neg (by decide)]
  · refine ⟨by decide, (act_of_running s (doDeepRequest v) hrun).trans ?_⟩
    rw [doDeepRequest, hother, if_neg (by decide)]
  · refine ⟨by decide, (act_of_running s (doOffRequest v) hrun).trans ?_⟩
    rw [doOffRequest, hother, if_neg (by decide)]

theorem exec_modeEntry (v : Word) (tgt : Nat) (i : Instr) (hi : (tgt, i) ∈ [(2, Instr.sleepRequest v), (3, .deepRequest v), (4, .offRequest v)])
    (ho : s.dev.isOpen 0xD00) (hkey : bits v 31 16 = 0x5057) (htgt : bits v 2 0 = tgt) (hus : bits v 15 8 ≠ 0) (hrsv : bits v 7 4 = 0)
    (hp : s.dev.phase = 0) (h5 : s.dev.entryTgt ≠ 5) (hm : s.dev.mode ≤ 1) :
    (s.dev.modeReason tgt = 0 → ∃ t, exec i s = .next t ∧ t.dev.phase = 1 ∧ t.dev.entryTgt = tgt ∧ t.dev.mode = 0 ∧
      t.dev.flag Reg.PWR_MODE_STS 8 = false ∧ t.dev.fld Reg.PWR_MODE_CTL 15 8 = bits v 15 8) ∧
    (s.dev.modeReason tgt ≠ 0 → (s.dev.page 0xD00).err = false → ∃ t, exec i s = .next t ∧ t.dev.phase = 0 ∧
      t.dev.flag Reg.PWR_MODE_STS 7 = true ∧ t.dev.fld Reg.PWR_MODE_STS 15 12 = s.dev.modeReason tgt ∧
      (t.dev.page 0xD00).errCode = 0x0100 ∧ (t.dev.page 0xD00).info0 = w32 tgt ∧ (t.dev.page 0xD00).info1 = w32 (s.dev.modeReason tgt)) := by
  obtain ⟨hrange, hexec⟩ := exec_modeRequest s hrun v hi htgt
  obtain ⟨d1, d2, harr, herr2, hclean, hpub⟩ := modeCtl_key s.dev v ho hkey hus
  have hsame : d2 = d1 := hclean (and_mask_zero hrsv (by decide))
  have hasked := Dev.asked_of_arrives v harr herr2
  obtain ⟨e, he⟩ : ∃ e, e = d2.idleSet v := ⟨_, rfl⟩
  rw [← he, htgt] at hpub
  rw [← he] at hasked
  have hsts : ∀ hi lo, e.fld Reg.PWR_MODE_STS hi lo = s.dev.fld Reg.PWR_MODE_STS hi lo := fun hi lo => congrArg (fun w => bits w hi lo) (hasked.regs _ (by decide))
  have hmode : e.mode ≤ 1 := (hsts 2 0).trans_le hm
  have hphase : e.phase = 0 := (hsts 6 4).trans hp
  have htgt5 : e.entryTgt ≠ 5 := hasked.entryTgt ▸ h5
  refine ⟨fun hr => ⟨_, hexec, ?_⟩, fun hr herr => ⟨_, hexec, ?_⟩⟩
  · obtain ⟨h1, h2, h3, h4, h5'⟩ := Dev.modeTarget_go e hrange hmode htgt5 hphase ((hasked.modeReason tgt).trans hr)
    refine ⟨(hpub.fld _ _ _).trans h1, hpub.entryTgt.trans h2, (hpub.fld _ _ _).trans h3, (hpub.flag _ _).trans h4, ?_⟩
    exact (hpub.fld _ _ _).trans (h5'.trans hasked.us)
  · have herr' : (e.page 0xD00).err = false := by
      have hpage : e.page 0xD00 = d1.page 0xD00 := by rw [he, hsame]; rfl
      rw [hpage, (Page.err_of_body (harr.body 0xD00)).1]
      exact herr
    obtain ⟨h1, h2, h3, h4, h5', h6⟩ := Dev.modeTarget_refused e hrange hmode htgt5 hphase (by rw [hasked.modeReason]; exact hr) herr'
    rw [hasked.modeReason] at h3 h6
    obtain ⟨-, hcode, hinfo0, hinfo1⟩ := Page.err_of_body (hpub.body 0xD00)
    exact ⟨(hpub.fld _ _ _).trans h1, (hpub.flag _ _).trans h2, (hpub.fld _ _ _).trans h3, hcode.trans h4, hinfo0.trans h5', hinfo1.trans h6⟩

end

/-- Settles O43: the requests, the cancel, the phases and the commits of an entry, and IDLE. -/
theorem modeEntries : Obligations.ModeEntries := by
  intro s hrun
  refine ⟨fun v tgt i hi ho hkey htgt hus hrsv hp h5 hm => exec_modeEntry s hrun v tgt i hi ho hkey htgt hus hrsv hp h5 hm,
    fun v ho hkey htgt hus hm hlo hhi h5 => ?_, fun hp hstop htags hunits => ?_, fun hp hstop hfl => ⟨fun h5 => ?_, fun r h5 hbr => ?_⟩,
    fun hp hstop => ⟨fun h2 => ?_, fun h34 hidle => ?_⟩, fun hm hp hauto hd hbr hheld hsl => ?_⟩
  · obtain ⟨d1, d2, harr, herr2, -, hpub⟩ := modeCtl_key s.dev v ho hkey hus
    have hasked := Dev.asked_of_arrives v harr herr2
    obtain ⟨e, he⟩ : ∃ e, e = d2.idleSet v := ⟨_, rfl⟩
    rw [← he, htgt] at hpub
    rw [← he] at hasked
    have hsts : ∀ hi lo, e.fld Reg.PWR_MODE_STS hi lo = s.dev.fld Reg.PWR_MODE_STS hi lo := fun hi lo => congrArg (fun w => bits w hi lo) (hasked.regs _ (by decide))
    have hphase : e.phase = s.dev.phase := hsts 6 4
    obtain ⟨h1, h2, h3⟩ := Dev.modeTarget_cancel e ((hsts 2 0).trans_le hm) (hasked.entryTgt ▸ h5) (hphase ▸ ⟨hlo, hhi⟩)
    have hother : otherTarget v 0 = false := by simp [otherTarget, htgt]
    have hexec : exec (.entryCancel v) s = .next { s with dev := modeCtl v s.dev } := by
      refine (act_of_running s (doEntryCancel v) hrun).trans ?_
      rw [doEntryCancel, hother, if_neg (by decide)]
    exact ⟨_, hexec, (hpub.fld _ _ _).trans h1, hpub.entryTgt.trans h2, (hpub.fld _ _ _).trans h3⟩
  · have hbody : doQuiesceDone s.dev = s.dev.setPhase (if s.dev.entryTgt = 2 then 3 else 2) := if_neg (by simp [hp, hstop, htags, hunits])
    refine ⟨_, act_of_running s doQuiesceDone hrun, ?_⟩
    dsimp only
    rw [hbody, Dev.phase, Dev.setPhase, Dev.fld_setFld_self _ _ _ _ _ (by decide)]
    split
    · rfl
    · rfl
  · have hbody : ∃ e : Dev, doFlushDone s.array s.dev = e.setPhase 3 := by
      unfold doFlushDone
      rw [if_neg (by simp [hp, hstop, hfl])]
      split
      · next h5' _ => exact absurd h5' h5
      · exact ⟨_, rfl⟩
    obtain ⟨e, hbody⟩ := hbody
    refine ⟨_, act_of_running s (doFlushDone s.array) hrun, ?_⟩
    dsimp only
    rw [hbody]
    exact Dev.fld_setFld_self e _ _ _ _ (by decide)
  · have hbody : doFlushDone s.array s.dev = s.dev.warmRestart s.array r := by
      unfold doFlushDone
      rw [if_neg (by simp [hp, hstop, hfl]), h5, hbr]
      rfl
    refine ⟨_, act_of_running s (doFlushDone s.array) hrun, ?_⟩
    dsimp only
    rw [hbody]
    exact Dev.warmRestart_spec s.dev s.array r
  · have hbody : doEntryCommit s.dev = s.dev.commitSleep := by
      unfold doEntryCommit
      rw [if_neg (by simp [hp, hstop]), if_pos h2]
    refine ⟨_, act_of_running s doEntryCommit hrun, ?_⟩
    dsimp only
    rw [hbody]
    exact Dev.commitSleep_spec s.dev
  · have hbody : doEntryCommit s.dev = s.dev.commitDeep s.dev.entryTgt := by
      unfold doEntryCommit
      rw [if_neg (by simp [hp, hstop]), if_neg (by omega), if_pos hidle]
    refine ⟨_, act_of_running s doEntryCommit hrun, ?_⟩
    dsimp only
    rw [hbody]
    exact Dev.commitDeep_spec s.dev h34 hrun.2.1
  · have hbody : doIdleEntry s.dev = s.dev.setMode 1 := if_pos (by simp [hm, hp, hauto, hd, hbr, hheld, hsl])
    have hmoded := Dev.setMode_spec s.dev (m := 1) (by decide)
    refine ⟨_, act_of_running s doIdleEntry hrun, ?_⟩
    dsimp only
    rw [hbody]
    exact ⟨hmoded.mode, hmoded.told⟩

end Sys2Proof.Machine
end

section
/-! Wakes, the main rails, the always-on counter and VID frames (R420 to R427, R440, R442, R490, R492, R531). -/

namespace Sys2Proof.Machine

-- In order, one declaration at a time: keeps the check within its memory limit.
set_option Elab.async false

section
variable {d e t : Dev}

/-! ### A wake is recorded (R423) -/

/-- The registers of a wake. -/
def wakeRegs : List Nat :=
  [Reg.PWR_LAST_WAKE, Reg.PWR_LAST_WAKE_TICK_LO, Reg.PWR_LAST_WAKE_TICK_HI, Reg.PWR_LAST_WAKE_EPOCH, Reg.PWR_WAKE_STAT, Reg.PWR_WAKES]

/-- A wake that is recorded: reports, and its registers. -/
abbrev Dev.WakeFrame (d t : Dev) : Prop := Dev.Frame Dev.sansReports (reportRegs ++ wakeRegs) d t

/-- The registers of a wake as they are written. -/
def Dev.wakeStamped (d : Dev) (src src1 : Nat) (reentry : Bool) (from_ tick epoch : Nat) (coarse : Bool) : Dev :=
  let level := decide (src1 = 0 ∨ src1 = 6)
  let d := d.setReg Reg.PWR_LAST_WAKE (w32 (src1 + 8 * level.toNat + 16 * (reentry && level).toNat + 32 * from_))
  let d := (d.set64 Reg.PWR_LAST_WAKE_TICK_LO Reg.PWR_LAST_WAKE_TICK_HI tick).setReg Reg.PWR_LAST_WAKE_EPOCH (w32 (timebOf epoch coarse))
  (d.setReg Reg.PWR_WAKE_STAT (w32 src)).inc Reg.PWR_WAKES 1

theorem Dev.recordWake_eq (d : Dev) (src src1 : Nat) (reentry : Bool) (from_ tick epoch : Nat) (coarse : Bool) :
    d.recordWake src src1 reentry from_ tick epoch coarse =
      if src.testBit 6 then (d.wakeStamped src src1 reentry from_ tick epoch coarse).raise 0xD00 5
      else d.wakeStamped src src1 reentry from_ tick epoch coarse := rfl

theorem Dev.wakeStamped_frame (d : Dev) (src src1 : Nat) (reentry : Bool) (from_ tick epoch : Nat) (coarse : Bool) :
    d.WakeFrame (d.wakeStamped src src1 reentry from_ tick epoch coarse) := by
  unfold Dev.wakeStamped
  extract_lets level d1 d2
  have h1 : d.WakeFrame d1 := .setReg (by decide) _
  have h2 : d1.WakeFrame d2 := (Dev.Frame.set64 (by decide) (by decide) _).trans (.setReg (by decide) _)
  exact (h1.trans h2).trans ((Dev.Frame.setReg (by decide) _).trans (.setFld (by decide) _ _ _))

/-- What the record of a wake shows. -/
structure Dev.WakeShown (d : Dev) (src src1 : Nat) (t : Dev) : Prop where
  frame : d.WakeFrame t
  stat : t.reg Reg.PWR_WAKE_STAT = w32 src
  last : src1 < 8 → t.fld Reg.PWR_LAST_WAKE 2 0 = src1
  count : t.fld Reg.PWR_WAKES 31 0 = min (d.fld Reg.PWR_WAKES 31 0 + 1) 0xFFFFFFFF

theorem Dev.wakeStamped_spec (d : Dev) (src src1 : Nat) (reentry : Bool) (from_ tick epoch : Nat) (coarse : Bool) :
    d.WakeShown src src1 (d.wakeStamped src src1 reentry from_ tick epoch coarse) := by
  refine ⟨Dev.wakeStamped_frame d src src1 reentry from_ tick epoch coarse, ?_, fun hlt => ?_, ?_⟩
  all_goals
    unfold Dev.wakeStamped
    extract_lets level d1 d2
  · rw [Dev.reg_inc_ne _ (by decide), Dev.reg_setReg_self]
  · have hreg : ((d2.setReg Reg.PWR_WAKE_STAT (w32 src)).inc Reg.PWR_WAKES 1).reg Reg.PWR_LAST_WAKE = d1.reg Reg.PWR_LAST_WAKE := by
      rw [Dev.reg_inc_ne _ (by decide), Dev.reg_setReg_ne _ (by decide)]
      exact (Dev.reg_setReg_ne _ (by decide) _).trans (Dev.reg_set64_ne d1 (by decide) (by decide) _)
    rw [Dev.fld, hreg, ← Dev.fld, Dev.fld_setReg_self, bits_w32 _ _ _ (by decide)]
    omega
  · have hreg : (d2.setReg Reg.PWR_WAKE_STAT (w32 src)).reg Reg.PWR_WAKES = d.reg Reg.PWR_WAKES := by
      rw [Dev.reg_setReg_ne _ (by decide)]
      exact ((Dev.reg_setReg_ne _ (by decide) _).trans (Dev.reg_set64_ne d1 (by decide) (by decide) _)).trans (Dev.reg_setReg_ne d (by decide) _)
    rw [Dev.fld_inc_self, Dev.fld, hreg, ← Dev.fld]

theorem Dev.WakeShown.thenReports (h : d.WakeShown src src1 e) (h' : e.Reports t) : d.WakeShown src src1 t :=
  ⟨h.frame.trans (Dev.Frame.weaken h' (fun _ => rfl) (fun _ ho => List.mem_append_left _ ho)), (h'.regs _ (by decide)).trans h.stat,
    fun hlt => (congrArg (fun w => bits w 2 0) (h'.regs _ (by decide))).trans (h.last hlt),
    (congrArg (fun w => bits w 31 0) (h'.regs _ (by decide))).trans h.count⟩

theorem Dev.recordWake_spec (d : Dev) (src src1 : Nat) (reentry : Bool) (from_ tick epoch : Nat) (coarse : Bool) :
    d.WakeShown src src1 (d.recordWake src src1 reentry from_ tick epoch coarse) := by
  have h := Dev.wakeStamped_spec d src src1 reentry from_ tick epoch coarse
  rw [Dev.recordWake_eq]
  split
  · exact h.thenReports (Dev.Reports.raise _ _ _)
  · exact h

theorem lowestBit_lt (n : Nat) : lowestBit n < 8 := by
  unfold lowestBit
  match hf : (List.range 8).find? (fun i => n.testBit i) with
  | none => exact Nat.zero_lt_succ 7
  | some i => exact List.mem_range.mp (List.mem_of_find?_eq_some hf)

/-! ### The VCORE target (R427) -/

/-- The new target of VCORE is told, within its bounds. -/
theorem Dev.newVcore_tells (d : Dev) : ∃ code, 140 ≤ code ∧ code ≤ 160 ∧ d.tells d.newVcore (.vid (vidWord code)) := by
  refine ⟨140 + d.freeVal % 21, by omega, by omega, ?_⟩
  exact Dev.tells_of_out [] [] rfl

theorem Dev.reg_newVcore (d : Dev) {off : Nat} (h : off ≠ Reg.PWR_BIAS_NOW) : d.newVcore.reg off = d.reg off :=
  Dev.reg_setReg_ne d.drawn h _

/-! ### A wake from DEEP after the rails are up (R419, R425) -/

/-- The domains' states are shown again: the rails stand. -/
theorem Dev.pgMain_showDoms (d : Dev) : ((List.range 64).foldl (fun (d : Dev) g => d.setDomSt g (d.domSt g)) d).pgMain = d.pgMain := by
  have hkept : ∀ x : Dev, (Dev.sansDoms x).pgMain = x.pgMain := fun _ => rfl
  refine List.foldlRecOn (motive := fun e : Dev => e.pgMain = d.pgMain) _ _ rfl (fun e he g hg => ?_)
  rw [← he, ← hkept e, ← (Dev.setDomSt_frame e (List.mem_range.mp hg) (e.domSt g)).kept, hkept]

theorem Dev.deepWake_eq (d : Dev) (m : Memory) (r : BringUp) : ∃ (e : Dev) (t0 : Nat) (w : Word) (bad : List Nat), e.pgMain = d.pgMain ∧
    d.deepWake m r = (bad.foldl (fun (d : Dev) b => d.bankFailed b)
      ({ ((e.setMode 0).recount).beginBring 4 0 with t0 := t0, bring := some r }.setReg Reg.PWR_TRIVET_STS w)).newVcore.bringFrom6 m r := by
  have hcr : ∀ x : Dev, x.crApply.pgMain = x.pgMain := fun x => by
    have hlim : ∀ (y : Dev) l, ({ y with crLim := l } : Dev).pgMain = y.pgMain := fun _ _ => rfl
    rw [Dev.crApply, Dev.crCounts_keeps (·.pgMain) (fun _ _ _ => rfl), hlim]
  have hfresh : ∀ x : Dev, ({ x with timeSave := none, saveDue := false }.timeFresh).pgMain = x.pgMain := fun x =>
    (Dev.Rails.timeFresh { x with timeSave := none, saveDue := false }).pgMain
  unfold Dev.deepWake
  extract_lets bad ppm secret cold x d2 d3 d4 d5 d6 d7 d8 d9 d10 d11
  have h2 : d2.pgMain = d.pgMain := rfl
  have h3 : d3.pgMain = d2.pgMain := by
    simp only [d3]
    split
    · rfl
    · rfl
  have h4 : d4.pgMain = d3.pgMain := (Dev.Rails.foldl (fun e (kv : Nat × CtxCopy) => .loadCtx e kv.1 kv.2) _ _ : d3.Rails d4).pgMain
  have h5 : d5.pgMain = d4.pgMain := Dev.pgMain_showDoms d4
  have h6 : d6.pgMain = d5.pgMain := hcr d5
  have h7 : d7.pgMain = d6.pgMain := rfl
  have h8 : d8.pgMain = d7.pgMain := by
    simp only [d8]
    split
    · exact hfresh d7
    · exact (Dev.Rails.timeReload d7 ppm).pgMain
  exact ⟨d8, _, _, bad, h8.trans (h7.trans (h6.trans (h5.trans (h4.trans (h3.trans h2))))), rfl⟩

theorem Dev.Brings.bankFailed (d : Dev) (b : Nat) : d.Brings (d.bankFailed b) := by
  unfold Dev.bankFailed
  extract_lets e
  have he : d.Brings e := ((Dev.Brings.setReg (by decide) _).trans (.setReg (by decide) _)).trans (.raise _ _ _)
  exact he.trans (.of_reports (Dev.Reports.errIncident e _ _ _ _ _ _ _ _))

/-- A wake from DEEP with the main rails up runs bring-up from the wake's start (R419). -/
theorem Dev.deepWake_spec (d : Dev) (m : Memory) (r : BringUp) : (d.deepWake m r).pgMain = d.pgMain ∧ (d.deepWake m r).mode = 0 ∧
    (d.deepWake m r).released = false ∧ (d.deepWake m r).fld Reg.TST_BRG_CAUSE 2 0 = 4 := by
  obtain ⟨e, t0, w, bad, hpg, hbody⟩ := Dev.deepWake_eq d m r
  obtain ⟨f, hf⟩ : ∃ f, f = (e.setMode 0).recount := ⟨_, rfl⟩
  obtain ⟨g, hg⟩ : ∃ g : Dev, g = { f.beginBring 4 0 with t0 := t0, bring := some r } := ⟨_, rfl⟩
  rw [hbody, ← hf, ← hg]
  have hmoded := Dev.setMode_spec e (m := 0) (by decide)
  have hrecount := Dev.Rails.recount (e.setMode 0)
  rw [← hf] at hrecount
  have hgreg : ∀ off, g.reg off = (f.beginBring 4 0).reg off := fun off => hg ▸ rfl
  have hgpg : g.pgMain = d.pgMain := by
    have h1 : g.pgMain = f.pgMain := hg ▸ rfl
    have h2 : (e.setMode 0).pgMain = e.pgMain := congrArg (·.pgMain) hmoded.kept
    rw [h1, hrecount.pgMain, h2, hpg]
  have hgmode : g.mode = 0 := by
    have h1 : g.mode = f.mode := by
      rw [Dev.mode, Dev.fld, hgreg, Dev.reg_beginBring f 4 0 (by decide) (by decide), ← Dev.fld, ← Dev.mode]
    rw [h1]
    exact hrecount.mode.elim (fun h => h.trans hmoded.mode) id
  have hgrel : g.released = false := by
    rw [Dev.released, Dev.flag, hgreg, ← Dev.flag]
    exact (Dev.flag_setReg_ne _ (by decide) _ _).trans (Dev.flag_setFlag_self _ _ _ _ (by decide))
  have hgcause : g.fld Reg.TST_BRG_CAUSE 2 0 = 4 := by
    rw [Dev.fld, hgreg, ← Dev.fld]
    exact Dev.fld_setReg_self _ _ _ _ _
  have hshown : g.Brings (bad.foldl (fun (d : Dev) b => d.bankFailed b) (g.setReg Reg.PWR_TRIVET_STS w)) :=
    (Dev.Brings.setReg (by decide) w).trans (.foldl (fun x b => .bankFailed x b) bad _)
  have hup := ((Dev.BroughtUp.of_brings hshown).trans (.newVcore _)).trans (.of_brings (.bringFrom6 _ m r))
  exact ⟨hup.power.1.trans hgpg, hup.mode.elim (fun h => h.trans hgmode) id, hup.released.trans hgrel,
    (congrArg (fun w => bits w 2 0) hup.cause).trans hgcause⟩

/-! ### Bring-up with the secrets cleared (R492) -/

/-- With the secrets cleared nothing of them is left (R492). -/
theorem Dev.bringFrom2_cleared (d : Dev) (m : Memory) (r : BringUp) (h : r.clearFail = 0) :
    (d.bringFrom2 m r).kek = none ∧ (d.bringFrom2 m r).pairKey = none ∧ (d.bringFrom2 m r).cap.key = none ∧
    (d.bringFrom2 m r).reg Reg.TST_SEC_STS = 0x1F := by
  have hstage : (d.cleared 0x1F).Brings (d.step2 r) := by
    rw [Dev.step2_clear d r h]
    exact .stageEnd _ (by decide)
  have hbr := hstage.trans (.bringFrom2 d m r)
  exact ⟨congrArg (·.kek) hbr.kept, congrArg (·.pairKey) hbr.kept, congrArg (·.cap.key) hbr.kept, (hbr.regs _ (by decide)).trans (Dev.reg_setReg_self _ _ _)⟩

/-- Bring-up stops where a secret could not be cleared (R492). -/
theorem Dev.bringFrom2_fails (d : Dev) (m : Memory) (r : BringUp) (h : 1 ≤ r.clearFail ∧ r.clearFail ≤ 4) (herr : (d.page 0x1000).err = false) :
    (d.bringFrom2 m r).stopped = true ∧ ((d.bringFrom2 m r).page 0x1000).errCode = 0x0100 ∧
    ((d.bringFrom2 m r).page 0x1000).info0 = w32 r.clearFail := by
  obtain ⟨w, hw⟩ := Dev.step2_fail d r h
  obtain ⟨e, he⟩ : ∃ e, e = (d.cleared w).recordErr 0x1000 0x0100 r.clearFail 0 := ⟨_, rfl⟩
  rw [← he] at hw
  have hstop : (e.stopBring 2 0x0100).stopped = true := by
    rw [Dev.stopBring, Dev.stopped, Dev.flag_emit, Dev.flag_recordErr]
    exact Dev.flag_setFlag_self e _ _ _ (by decide)
  have hbody : d.bringFrom2 m r = e.stopBring 2 0x0100 := by
    unfold Dev.bringFrom2 Dev.unlessStopped
    rw [hw, if_pos hstop, if_pos hstop, if_pos hstop]
  have hclear : (d.cleared w).page 0x1000 = d.page 0x1000 := rfl
  have hfirst := Dev.firstErr_later (d := d.cleared w) (t := e.stopBring 2 0x0100) (pg := 0x1000) (code := 0x0100) (i0 := r.clearFail) (i1 := 0)
    (hclear ▸ herr) (he ▸ (Dev.Brings.stopBring _ 2 0x0100).page 0x1000)
  rw [hbody]
  exact ⟨hstop, hfirst.1, hfirst.2.1⟩

/-! ### The main rails (R426) -/

/-- EN_MAIN rises: what it keeps, and what it tells. -/
theorem Dev.setEnMain_high (d : Dev) : (d.setEnMain true).enMain = true ∧ (∀ off, (d.setEnMain true).reg off = d.reg off) ∧
    (d.setEnMain true).bring = d.bring ∧ d.out <+: (d.setEnMain true).out ∧ (d.enMain = false → d.tells (d.setEnMain true) (.ballLevel "EN_MAIN" true)) := by
  unfold Dev.setEnMain
  extract_lets e
  have he : (∀ off, e.reg off = d.reg off) ∧ e.bring = d.bring ∧ d.out <+: e.out ∧ (d.enMain = false → d.tells e (.ballLevel "EN_MAIN" true)) := by
    simp only [e]
    split
    · next hon => exact ⟨fun _ => rfl, rfl, List.prefix_rfl, fun hoff => absurd (hon.symm.trans hoff) (by decide)⟩
    · exact ⟨fun _ => rfl, rfl, List.prefix_append _ _, fun _ => Dev.tells_of_out [] [] rfl⟩
  exact ⟨rfl, he.1, he.2.1, he.2.2.1, he.2.2.2⟩

/-- EN_MAIN falls: it is told. -/
theorem Dev.setEnMain_tells (d : Dev) (h : d.enMain = true) : d.tells (d.setEnMain false) (.ballLevel "EN_MAIN" false) := by
  obtain ⟨e, he⟩ : ∃ e, e = d.emit (.ballLevel "EN_MAIN" false) := ⟨_, rfl⟩
  have hbody : (d.setEnMain false).out = e.headsDown.out := by
    unfold Dev.setEnMain
    rw [h, if_neg (by decide), he]
    rfl
  have hout := (Dev.headsDown_frame e).out
  rw [← hbody] at hout
  exact Dev.tells_within (e := d) List.prefix_rfl (Dev.tells_of_out [] [] (congrArg (·.out) he)) hout

theorem doPowerGoodTimeout_spec (d : Dev) (hen : d.enMain = true) (hpg : d.pgMain = false) (herr : (d.page 0xD00).err = false) :
    (doPowerGoodTimeout d).enMain = false ∧ ((doPowerGoodTimeout d).page 0xD00).errCode = 0x0103 ∧
    ((doPowerGoodTimeout d).page 0xD00).info1 = w32 d.pgTry ∧ d.tells (doPowerGoodTimeout d) (.ballLevel "EN_MAIN" false) := by
  obtain ⟨e, he⟩ : ∃ e, e = d.recordErr 0xD00 0x0103 0 d.pgTry := ⟨_, rfl⟩
  have hbody : doPowerGoodTimeout d = e.setEnMain false := by
    rw [doPowerGoodTimeout, hen, hpg, he]
    rfl
  have hrec : d.Reports e := he ▸ Dev.Reports.recordErr d _ _ _ _
  obtain ⟨hlow, -, hframe⟩ := Dev.setEnMain_low e
  obtain ⟨h1, -, h3⟩ := Dev.firstErr_later (d := d) (t := e.setEnMain false) (pg := 0xD00) (code := 0x0103) (i0 := 0) (i1 := d.pgTry) herr
    (he ▸ hframe.page 0xD00)
  rw [hbody]
  exact ⟨hlow, h1, h3, Dev.tells_within hrec.out (Dev.setEnMain_tells e ((congrArg (·.enMain) hrec.kept).trans hen)) List.prefix_rfl⟩

/-- EN_MAIN rises where it was low. -/
theorem Dev.setEnMain_rise (d : Dev) (h : d.enMain = false) : d.setEnMain true = { d.emit (.ballLevel "EN_MAIN" true) with enMain := true } := by
  unfold Dev.setEnMain
  rw [h]
  rfl

theorem doPgMainRetry_eq (d : Dev) (hen : d.enMain = false) (hbr : d.bring.isSome = true) (htry : d.pgTry = 1) :
    doPgMainRetry d = { d.emit (.ballLevel "EN_MAIN" true) with pgTry := 2, enMain := true } := by
  have hgo : doPgMainRetry d = { d with pgTry := 2 }.setEnMain true := if_pos (by simp [hen, hbr, htry])
  exact hgo.trans (Dev.setEnMain_rise { d with pgTry := 2 } hen)

/-! ### The always-on counter (R231, R442) -/

theorem Dev.get64_set64 (d : Dev) {lo hi : Nat} (h : lo ≠ hi) {v : Nat} (hv : v < 2 ^ 64) : (d.set64 lo hi v).get64 lo hi = v := by
  rw [Dev.get64, Dev.set64, Dev.fld_setReg_self, Dev.fld_setReg_ne _ h, Dev.fld_setReg_self, bits_w32 _ _ _ (by decide), bits_w32 _ _ _ (by decide)]
  omega

/-- The always-on count is in no figure of the time's uncertainty. -/
theorem Dev.uncNow_set64 (d : Dev) (v : Nat) : (d.set64 Reg.PWR_AO_LO Reg.PWR_AO_HI v).uncNow = d.uncNow := by
  have hreg : ∀ off, off ≠ Reg.PWR_AO_LO → off ≠ Reg.PWR_AO_HI → (d.set64 Reg.PWR_AO_LO Reg.PWR_AO_HI v).reg off = d.reg off :=
    fun off h1 h2 => Dev.reg_set64_ne d h1 h2 v
  unfold Dev.uncNow Dev.slewLeft Dev.regInt Dev.coarse Dev.timeLocked Dev.flag Dev.fld
  rw [hreg _ (by decide) (by decide), hreg _ (by decide) (by decide), hreg _ (by decide) (by decide)]
  rfl

theorem Dev.publishPage_keeps (d : Dev) (pg : Nat) : (d.publishPage pg).ao = d.ao ∧ (d.publishPage pg).timeNow = d.timeNow ∧
    (d.publishPage pg).saveDue = d.saveDue := by
  obtain ⟨pub, pages, cs, ct, heq, -⟩ := Dev.publishPage_eq d pg
  rw [heq]
  exact ⟨rfl, rfl, rfl⟩

theorem doAoCounterEdge_spec (d : Dev) : (doAoCounterEdge d).ao = (d.ao + 1) % 2 ^ 48 ∧
    (d.saveDue = true → (doAoCounterEdge d).saveDue = false ∧
      (doAoCounterEdge d).timeSave = some (d.tick, (d.ao + 1) % 2 ^ 48, d.epoch, d.uncNow)) := by
  obtain ⟨e, he⟩ : ∃ e, e = d.set64 Reg.PWR_AO_LO Reg.PWR_AO_HI ((d.ao + 1) % 2 ^ 48) := ⟨_, rfl⟩
  obtain ⟨f, hf⟩ : ∃ f, f = if e.barUp then e.publishPage 0xD00 else e := ⟨_, rfl⟩
  have hbody : doAoCounterEdge d = if f.saveDue then f.saveTime else f := by
    rw [hf, he]
    rfl
  have hao : e.ao = (d.ao + 1) % 2 ^ 48 := he ▸ Dev.get64_set64 d (by decide) (by omega)
  have hepoch : e.epoch = d.epoch := he ▸ congrArg (fun w => bits w 31 16) (Dev.reg_set64_ne d (by decide) (by decide) _)
  have hnow : e.timeNow = (d.tick, (d.ao + 1) % 2 ^ 48, d.epoch, d.uncNow) := by
    rw [Dev.timeNow, hao, hepoch, he, Dev.uncNow_set64]
    rfl
  have hdue : e.saveDue = d.saveDue := he ▸ rfl
  have hpub : f.ao = e.ao ∧ f.timeNow = e.timeNow ∧ f.saveDue = e.saveDue := by
    rw [hf]
    split
    · exact Dev.publishPage_keeps e 0xD00
    · exact ⟨rfl, rfl, rfl⟩
  obtain ⟨h1, h2, h3⟩ := hpub
  have hsave : ∀ x : Dev, x.saveTime.ao = x.ao ∧ x.saveTime.saveDue = false ∧ x.saveTime.timeSave = some x.timeNow := fun _ => ⟨rfl, rfl, rfl⟩
  rw [hbody]
  split
  · exact ⟨(hsave f).1.trans (h1.trans hao), fun _ => ⟨(hsave f).2.1, (hsave f).2.2.trans (congrArg some (h2.trans hnow))⟩⟩
  · next hno => exact ⟨h1.trans hao, fun hd => absurd (h3.trans (hdue.trans hd)) hno⟩

/-! ### Wakes (R420 to R423) -/

/-- The sources of a wake that are enabled. -/
def Dev.wakeOn (d : Dev) (src : Nat) : Nat := src &&& (d.fld Reg.PWR_WAKE_EN 7 0 ||| 1)

/-- A wake from SLEEP (R420, R423). -/
theorem doWake_sleep (d : Dev) (src : Nat) (lvl : Bool) (res : BringUp) (hd : d.dumping = false) (hdown : d.down = false) (hp : d.phase = 0)
    (hm : d.mode = 2) (hhit : d.wakeOn src &&& wakeMask 2 ≠ 0) :
    (doWake src lvl res d).mode = 0 ∧ (doWake src lvl res d).reg Reg.PWR_WAKE_STAT = w32 (d.wakeOn src &&& wakeMask 2) ∧
    (doWake src lvl res d).fld Reg.PWR_LAST_WAKE 2 0 = lowestBit (d.wakeOn src &&& wakeMask 2) ∧
    (doWake src lvl res d).fld Reg.PWR_WAKES 31 0 = min (d.fld Reg.PWR_WAKES 31 0 + 1) 0xFFFFFFFF ∧
    ∃ code, 140 ≤ code ∧ code ≤ 160 ∧ d.tells (doWake src lvl res d) (.vid (vidWord code)) := by
  obtain ⟨h, hh⟩ : ∃ h, h = d.wakeOn src &&& wakeMask 2 := ⟨_, rfl⟩
  obtain ⟨e, he⟩ : ∃ e, e = d.capRecFree 0x31 2 [3, h] := ⟨_, rfl⟩
  obtain ⟨f, hf⟩ : ∃ f, f = e.recordWake h (lowestBit h) lvl 1 d.tick d.epoch d.coarse := ⟨_, rfl⟩
  obtain ⟨g, hg⟩ : ∃ g : Dev, g = { f with scrStart := f.scrStart + (f.tick - f.sleepAt), sramStart := f.sramStart + (f.tick - f.sleepAt) } := ⟨_, rfl⟩
  have hbody : doWake src lvl res d = (g.setMode 0).newVcore := by
    unfold doWake
    dsimp only
    rw [if_neg (by simp [hd, hdown]), if_neg (by simp [hp]), if_pos ⟨hm, hhit⟩, hg, hf, he, hh]
    rfl
  have hrep : d.Reports e := he ▸ Dev.Reports.capRecFree d _ _ _
  have hshown := Dev.recordWake_spec e h (lowestBit h) lvl 1 d.tick d.epoch d.coarse
  rw [← hf] at hshown
  have hmoded := Dev.setMode_spec g (m := 0) (by decide)
  have hreg : ∀ off, off ∉ [Reg.PWR_MODE_STS, Reg.GLB_DEV_STS, Reg.PWR_BIAS_NOW] → (g.setMode 0).newVcore.reg off = f.reg off := fun off hoff => by
    rw [Dev.reg_newVcore _ (by rintro rfl; exact hoff (by decide)), hmoded.regs off hoff, hg]
    rfl
  obtain ⟨code, hlo, hhi, htell⟩ := Dev.newVcore_tells (g.setMode 0)
  rw [hbody, ← hh]
  refine ⟨?_, (hreg _ (by decide)).trans hshown.stat, ?_, ?_, code, hlo, hhi, ?_⟩
  · exact (congrArg (fun w => bits w 2 0) (Dev.reg_newVcore _ (by decide))).trans hmoded.mode
  · exact (congrArg (fun w => bits w 2 0) (hreg _ (by decide))).trans (hshown.last (lowestBit_lt h))
  · refine (congrArg (fun w => bits w 31 0) (hreg _ (by decide))).trans (hshown.count.trans ?_)
    rw [Dev.fld, hrep.regs _ (by decide), ← Dev.fld]
  · have hout : d.out <+: g.out := (hrep.out.trans hshown.frame.out).trans (hg ▸ List.prefix_rfl)
    exact Dev.tells_within (hout.trans hmoded.out) htell List.prefix_rfl

/-- A wake from DEEP starts the rails (R420, R426). -/
theorem doWake_deep (d : Dev) (src : Nat) (lvl : Bool) (res : BringUp) (hd : d.dumping = false) (hdown : d.down = false) (hp : d.phase = 0)
    (hm : d.mode = 3) (hbr : d.bring = none) (hhit : d.wakeOn src &&& wakeMask 3 ≠ 0) :
    (doWake src lvl res d).enMain = true ∧ (doWake src lvl res d).bring = some res ∧
    (doWake src lvl res d).reg Reg.PWR_WAKE_STAT = w32 (d.wakeOn src &&& wakeMask 3) ∧
    (d.enMain = false → d.tells (doWake src lvl res d) (.ballLevel "EN_MAIN" true)) := by
  obtain ⟨h, hh⟩ : ∃ h, h = d.wakeOn src &&& wakeMask 3 := ⟨_, rfl⟩
  obtain ⟨f, hf⟩ : ∃ f, f = d.recordWake h (lowestBit h) lvl 2 d.wakeTime.1 d.wakeTime.2 true := ⟨_, rfl⟩
  obtain ⟨g, hg⟩ : ∃ g : Dev, g = { f with bring := some res, pgTry := 1 } := ⟨_, rfl⟩
  have hbody : doWake src lvl res d = g.setEnMain true := by
    unfold doWake
    dsimp only
    rw [if_neg (by simp [hd, hdown]), if_neg (by simp [hp]), if_neg (by simp [hm]), if_pos ⟨hm, by simp [hbr], hhit⟩, hg, hf, hh]
    rfl
  have hshown := Dev.recordWake_spec d h (lowestBit h) lvl 2 d.wakeTime.1 d.wakeTime.2 true
  rw [← hf] at hshown
  obtain ⟨h1, h2, h3, -, h5⟩ := Dev.setEnMain_high g
  have hgreg : ∀ off, g.reg off = f.reg off := fun off => hg ▸ rfl
  rw [hbody, ← hh]
  refine ⟨h1, h3.trans (congrArg (·.bring) hg), ((h2 _).trans (hgreg _)).trans hshown.stat, fun hen => ?_⟩
  have hgen : g.enMain = false := ((congrArg (·.enMain) hg).trans (congrArg (·.enMain) hshown.frame.kept)).trans hen
  exact Dev.tells_within (hshown.frame.out.trans (hg ▸ List.prefix_rfl)) (h5 hgen) List.prefix_rfl

/-- A wake raises EN_AO from OFF (R420). -/
theorem doWake_off (d : Dev) (src : Nat) (lvl : Bool) (res : BringUp) (hd : d.dumping = false) (hdown : d.down = false) (hp : d.phase = 0)
    (hm : d.mode = 4) (hao : d.aoUp = false) (hhit : d.wakeOn src &&& wakeMask 4 ≠ 0) : doWake src lvl res d = d.emit (.ballLevel "EN_AO" true) := by
  unfold doWake
  dsimp only
  rw [if_neg (by simp [hd, hdown]), if_neg (by simp [hp]), if_neg (by simp [hm]), if_neg (by simp [hm]), if_pos ⟨hm, by simp [hao], hhit⟩]

/-- A wake abandons an entry (R422). -/
theorem doWake_entry (d : Dev) (src : Nat) (lvl : Bool) (res : BringUp) (hd : d.dumping = false) (hdown : d.down = false) (hp : d.phase ≠ 0)
    (h5 : d.entryTgt ≠ 5) (hhit : d.wakeOn src &&& wakeMask d.entryTgt ≠ 0) (hm : d.mode ≤ 1) :
    (doWake src lvl res d).phase = 0 ∧ (doWake src lvl res d).entryTgt = 0 ∧ (doWake src lvl res d).mode = 0 ∧
    (doWake src lvl res d).flag Reg.PWR_MODE_STS 8 = true ∧ bitAt ((doWake src lvl res d).page 0xD00).intPend 1 = true := by
  obtain ⟨e, he⟩ : ∃ e : Dev, e = ({ d with entryTgt := 0 }.setPhase 0).setFlag Reg.PWR_MODE_STS 8 true := ⟨_, rfl⟩
  have hbody : doWake src lvl res d = (e.toRun).raise 0xD00 1 := by
    unfold doWake
    dsimp only
    rw [if_neg (by simp [hd, hdown]), if_pos hp, he]
    exact if_neg (not_or.mpr ⟨h5, hhit⟩)
  have hrun := Dev.Reports.toRun e
  have hrep := hrun.trans (Dev.Reports.raise e.toRun 0xD00 1)
  have hmode : e.mode ≤ 1 := by
    have hsame : e.mode = d.mode := by
      rw [he, Dev.mode, Dev.fld_setFlag_other _ _ _ _ _ _ (by decide) (by decide), Dev.setPhase, Dev.fld_setFld_other _ _ _ _ _ _ _ (by decide) (by decide)]
      rfl
    exact hsame.trans_le hm
  rw [hbody]
  refine ⟨?_, (congrArg (·.entryTgt) hrep.kept).trans (congrArg (·.entryTgt) he), ?_, ?_, ?_⟩
  · rw [Dev.phase, hrep.runs.stsFld _ _ (by decide), he, Dev.fld_setFlag_other _ _ _ _ _ _ (by decide) (by decide)]
    exact Dev.fld_setFld_self _ _ _ _ _ (by decide)
  · exact (Dev.Reports.raise e.toRun 0xD00 1).runs.modeOr.elim (fun h => h.trans (Dev.mode_toRun hmode)) id
  · rw [hrep.runs.sts 8 (by decide), he]
    exact Dev.flag_setFlag_self _ _ _ _ (by decide)
  · refine ((Dev.Reports.toRun (e.toRun.raise0 0xD00 1)).page 0xD00).2 1 ?_
    rw [Dev.page_raise0]
    exact (bitAt_putBit _ _ _ _ (by decide)).trans (if_pos rfl)

/-! ### The dump is left (R440, R533) -/

/-- A dump that may be left is left by a COLD bring-up from the supply's return. -/
theorem doDumpExit_spec (d : Dev) (m : Memory) (res : BringUp) (hex : d.mayExit = true) (hpg : d.pgMain = false) :
    (doDumpExit res m d).down = false ∧ (doDumpExit res m d).enMain = true ∧ (doDumpExit res m d).bring = some res ∧
    (doDumpExit res m d).fld Reg.TST_BRG_CAUSE 2 0 = 5 ∧ (doDumpExit res m d).flag Reg.PWR_FAIL_STS 0 = false := by
  obtain ⟨e, he⟩ : ∃ e : Dev, e = { d with wakeHeld := false }.setFlag Reg.PWR_FAIL_STS 0 false := ⟨_, rfl⟩
  obtain ⟨f, hf⟩ : ∃ f, f = e.coldBring m 5 false res := ⟨_, rfl⟩
  have hbody : doDumpExit res m d = if d.wakeHeld then f.recordWake 1 0 false 0 f.tick f.epoch f.coarse else f := by
    unfold doDumpExit
    rw [hex, if_neg (by decide), hf, he]
  have hspec := Dev.coldBring_spec e m (start := 5) (by decide) res
  rw [← hf] at hspec
  have hepg : e.pgMain = false := (congrArg (·.pgMain) he).trans hpg
  have hfail : f.flag Reg.PWR_FAIL_STS 0 = false := hspec.fail0.trans (he ▸ Dev.flag_setFlag_self _ _ _ _ (by decide))
  rw [hbody]
  split
  · have hshown := (Dev.recordWake_spec f 1 0 false 0 f.tick f.epoch f.coarse).frame
    exact ⟨(congrArg (·.down) hshown.kept).trans hspec.down, (congrArg (·.enMain) hshown.kept).trans (hspec.off hepg),
      (congrArg (·.bring) hshown.kept).trans hspec.bring, (congrArg (fun w => bits w 2 0) (hshown.regs _ (by decide))).trans hspec.cause,
      (congrArg (fun w => bitAt w 0) (hshown.regs _ (by decide))).trans hfail⟩
  · exact ⟨hspec.down, hspec.off hepg, hspec.bring, hspec.cause, hfail⟩

end

/-! ### The obligation -/

/-- PG_MAIN rises with bring-up waiting for it (R426, R490, R492). -/
theorem doPgMainRise_spec (d : Dev) (m : Memory) (r : BringUp) (hen : d.enMain = true) (hpg : d.pgMain = false) (hbr : d.bring = some r) :
    (d.mode = 3 → (doPgMainRise m d).pgMain = true ∧ (doPgMainRise m d).mode = 0 ∧ (doPgMainRise m d).released = false ∧
      (doPgMainRise m d).fld Reg.TST_BRG_CAUSE 2 0 = 4) ∧
    (d.mode ≠ 3 → r.clearFail = 0 → (doPgMainRise m d).pgMain = true ∧ (doPgMainRise m d).kek = none ∧ (doPgMainRise m d).pairKey = none ∧
      (doPgMainRise m d).cap.key = none ∧ (doPgMainRise m d).reg Reg.TST_SEC_STS = 0x1F) ∧
    (d.mode ≠ 3 → 1 ≤ r.clearFail → r.clearFail ≤ 4 → (d.page 0x1000).err = false → (doPgMainRise m d).stopped = true ∧
      ((doPgMainRise m d).page 0x1000).errCode = 0x0100 ∧ ((doPgMainRise m d).page 0x1000).info0 = w32 r.clearFail) := by
  obtain ⟨e, he⟩ : ∃ e : Dev, e = { d with pgMain := true } := ⟨_, rfl⟩
  have hmode : e.mode = d.mode := he ▸ rfl
  have hup : e.pgMain = true := he ▸ rfl
  have hbody : doPgMainRise m d = if e.mode = 3 then e.deepWake m r else e.newVcore.bringFrom2 m r := by
    have hgo : doPgMainRise m d = (match e.bring with
        | some r => if e.mode = 3 then e.deepWake m r else e.newVcore.bringFrom2 m r
        | none => e) := by
      rw [he]
      exact if_neg (by simp [hen, hpg])
    have hebr : e.bring = some r := (congrArg (·.bring) he).trans hbr
    rw [hgo, hebr]
  refine ⟨fun h3 => ?_, fun h3 hclear => ?_, fun h3 hlo hhi herr => ?_⟩
  · rw [hbody, if_pos (hmode.trans h3)]
    have hwake := Dev.deepWake_spec e m r
    rw [hup] at hwake
    exact hwake
  · rw [hbody, if_neg (hmode ▸ h3)]
    have hbrought := (Dev.BroughtUp.newVcore e).trans (.bringFrom2 e.newVcore m r)
    exact ⟨hbrought.power.1.trans hup, Dev.bringFrom2_cleared e.newVcore m r hclear⟩
  · rw [hbody, if_neg (hmode ▸ h3)]
    have hpage : e.newVcore.page 0x1000 = d.page 0x1000 := he ▸ rfl
    exact Dev.bringFrom2_fails e.newVcore m r ⟨hlo, hhi⟩ (hpage ▸ herr)

/-- Settles O44: the wakes, the rails, the end of a dump, the counter's edge and the VID frames. -/
theorem wakesAndSupplies : Obligations.WakesAndSupplies := by
  intro s hsup
  refine ⟨fun src lvl res hd hdown => ?_, fun hao => ⟨fun r hen hpg hbr => ?_, fun hen hpg herr => ?_, fun hen hbr htry => ?_,
    fun res => ⟨fun hex => ?_, fun hex hpg => ?_⟩, ?_⟩, fun hpg code hcode => ?_⟩
  · intro en hit
    refine ⟨fun hp hm hhit => ?_, fun hp hm hbr hhit => ?_, fun hp hm hao hhit => ?_, fun hp h5 hhit hm => ?_⟩
    · exact ⟨_, actAny_next s (doWake src lvl res) hsup, doWake_sleep s.dev src lvl res hd hdown hp hm hhit⟩
    · exact ⟨_, actAny_next s (doWake src lvl res) hsup, doWake_deep s.dev src lvl res hd hdown hp hm hbr hhit⟩
    · refine (actAny_next s (doWake src lvl res) hsup).trans ?_
      rw [doWake_off s.dev src lvl res hd hdown hp hm hao hhit]
    · exact ⟨_, actAny_next s (doWake src lvl res) hsup, doWake_entry s.dev src lvl res hd hdown hp h5 hhit hm⟩
  · obtain ⟨h1, h2, h3⟩ := doPgMainRise_spec s.dev s.array r hen hpg hbr
    have hexec : exec .pgMainRise s = .next { s with dev := doPgMainRise s.array s.dev } := actAo_next s (doPgMainRise s.array) hsup hao
    exact ⟨fun hm => ⟨_, hexec, h1 hm⟩, fun hm hc => ⟨_, hexec, h2 hm hc⟩, fun hm hlo hhi herr => ⟨_, hexec, h3 hm hlo hhi herr⟩⟩
  · exact ⟨_, actAo_next s doPowerGoodTimeout hsup hao, doPowerGoodTimeout_spec s.dev hen hpg herr⟩
  · refine (actAo_next s doPgMainRetry hsup hao).trans ?_
    rw [doPgMainRetry_eq s.dev hen hbr htry]
  · have hbody : doDumpExit res s.array s.dev = s.dev := if_pos (by simp [hex])
    show execDumpExit res s = .next s
    unfold execDumpExit actAoWindow
    simp only [hsup, hao, hex, hbody, Bool.false_eq_true, if_false, if_true]
    rfl
  · obtain ⟨w, hw⟩ : ∃ w, w = storeWindow s.window ((s.dev.headsDown.lostGranules s.dev.nvm.stopOf).map (lostBytes s.dev.draws)) := ⟨_, rfl⟩
    have hexec : exec (.dumpExit res) s = .next { s with dev := doDumpExit res s.array s.dev, window := w } := by
      show execDumpExit res s = _
      unfold execDumpExit actAoWindow
      simp only [hsup, hao, hex, Bool.false_eq_true, if_false, if_true, hw]
    obtain ⟨h1, h2, h3, h4, h5⟩ := doDumpExit_spec s.dev s.array res hex hpg
    exact ⟨_, hexec, h1, h2, h3, h4, h5, rfl⟩
  · exact ⟨_, actAo_next s doAoCounterEdge hsup hao, doAoCounterEdge_spec s.dev⟩
  · have hbody : doVidFrame code s.dev = (s.dev.setBias code).emit (.vid (vidWord code)) := if_pos hcode
    show act s (doVidFrame code) = _
    unfold act
    rw [actAny_next s _ hsup, hpg, if_pos rfl, hbody]

end Sys2Proof.Machine
end

section
/-! Power domains: wakes, steps down, operations and policies (R428 to R435). -/

namespace Sys2Proof.Machine

-- In order, one declaration at a time: keeps the check within its memory limit.
set_option Elab.async false

section
variable {d e t : Dev}

/-! ### What the work beside the domains keeps of them -/

/-- From `d` to `t` no domain's record and no domain's state changes. -/
structure Dev.Lulls (d t : Dev) : Prop where
  doms : t.doms = d.doms
  tick : t.tick = d.tick
  regs : ∀ off ∈ domStsRegs, t.reg off = d.reg off
  out : d.out <+: t.out
  page : ∀ pg, (d.page pg).Later (t.page pg)

theorem Dev.Lulls.refl (d : Dev) : d.Lulls d := ⟨rfl, rfl, fun _ _ => rfl, List.prefix_rfl, fun _ => .refl _⟩

theorem Dev.Lulls.trans (h : d.Lulls e) (h' : e.Lulls t) : d.Lulls t :=
  ⟨h'.doms.trans h.doms, h'.tick.trans h.tick, fun off ho => (h'.regs off ho).trans (h.regs off ho), h.out.trans h'.out,
    fun pg => (h.page pg).trans (h'.page pg)⟩

theorem Dev.Lulls.ite {c : Prop} [Decidable c] (h : d.Lulls e) (h' : d.Lulls t) : d.Lulls (if c then e else t) := by
  split
  · exact h
  · exact h'

theorem Dev.Lulls.foldl {α : Type} {f : Dev → α → Dev} (h : ∀ (e : Dev) x, e.Lulls (f e x)) (l : List α) (d : Dev) : d.Lulls (l.foldl f d) :=
  List.foldlRecOn (motive := fun e : Dev => d.Lulls e) l f (.refl d) (fun e he x _ => he.trans (h e x))

theorem Dev.Lulls.of_frame {erase : Dev → Dev} {rs : List Nat} (h : Dev.Frame erase rs d t) (hd : ∀ x, (erase x).doms = x.doms)
    (ht : ∀ x, (erase x).tick = x.tick) (hrs : ∀ off ∈ domStsRegs, off ∉ rs) : d.Lulls t :=
  ⟨by rw [← hd t, h.kept, hd d], by rw [← ht t, h.kept, ht d], fun off ho => h.regs off (hrs off ho), h.out, h.page⟩

theorem domSts_notReport : ∀ off ∈ domStsRegs, off ∉ reportRegs := by decide

theorem Dev.Lulls.of_reports (h : d.Reports t) : d.Lulls t := .of_frame h (fun _ => rfl) (fun _ => rfl) domSts_notReport

theorem Dev.Lulls.of_works (h : d.Works t) : d.Lulls t := .of_frame h (fun _ => rfl) (fun _ => rfl) (by decide)

theorem Dev.Lulls.sendFresh (d : Dev) (p : Nat) (c : LaneCmd) : d.Lulls (d.sendFresh p c []) := by
  have h := Dev.Sends.sendFresh d p c []
  have hpage : ∀ pg, (d.sendFresh p c []).page pg = d.page pg := fun pg => (congrArg (fun x : Dev => x.page pg) h.rest).trans rfl
  exact ⟨congrArg (·.doms) h.rest, congrArg (·.tick) h.rest, fun off _ => h.reg off, h.out, fun pg => hpage pg ▸ .refl _⟩

theorem Dev.Lulls.setPort (d : Dev) (p : Nat) (x : Port) : d.Lulls (d.setPort p x) := ⟨rfl, rfl, fun _ _ => rfl, List.prefix_rfl, fun _ => .refl _⟩

theorem Dev.Lulls.setLstate (d : Dev) (p st : Nat) : d.Lulls (d.setLstate p st) := by
  refine .of_frame (Dev.Lanes.setLstate d p st) (fun _ => rfl) (fun _ => rfl) (fun off ho hin => ?_)
  obtain ⟨n, hn, rfl⟩ := List.mem_map.mp ho
  have hn4 : n < 4 := List.mem_range.mp hn
  simp only [laneRegs, reportRegs, List.mem_append, List.mem_cons, List.not_mem_nil, or_false, Reg.PWR_DOM_STS, Reg.PWR_MODE_STS, Reg.GLB_DEV_STS,
    Reg.PWR_BIAS_NOW, Reg.SCP_CAP_STS, Reg.SCP_INC_STS, Reg.FCH_P_STS, Reg.FCH_C_UP, Reg.FCH_C_FAILED, Reg.FCH_C_HANDED] at hin
  omega

theorem Dev.Lulls.wakeLanes (d : Dev) (g : Nat) : d.Lulls (d.wakeLanes g) :=
  .foldl (fun e _ => .ite ((Dev.Lulls.setPort e _ _).trans (.setLstate _ _ _)) (.ite ((Dev.Lulls.setPort e _ _).trans (.setLstate _ _ _)) (.refl e))) _ _

theorem Dev.Lulls.bridgePower (d : Dev) (g st : Nat) : d.Lulls (d.bridgePower g st) := .foldl (fun e p => .sendFresh e p _) _ _

theorem Dev.Lulls.journalDom (d : Dev) (g st : Nat) : d.Lulls (d.journalDom g st) := .of_works (Dev.Works.journal (.refl d) _)

theorem Dev.Lulls.domSt (h : d.Lulls t) {g : Nat} (hg : g < 64) : t.domSt g = d.domSt g :=
  congrArg (fun w => bits w (2 * (g % 16) + 1) (2 * (g % 16))) (h.regs _ (List.mem_map.mpr ⟨g / 16, List.mem_range.mpr (by omega), rfl⟩))

theorem Dev.Lulls.dom (h : d.Lulls t) (g : Nat) : t.dom g = d.dom g := by rw [Dev.dom, h.doms, Dev.dom]

theorem Dev.dom_setDom_self (d : Dev) (g : Nat) (x : Dom) : (d.setDom g x).dom g = x := SMap.get_set_self _ _ _ _

theorem Dev.domSt_setDom (d : Dev) (g k : Nat) (x : Dom) : (d.setDom g x).domSt k = d.domSt k := rfl

/-! ### A demand wakes a domain (R429) -/

/-- A demand on a domain that is not ON and does not leave wakes it. -/
theorem Dev.wakeDomain_spec (d : Dev) {g : Nat} (hg : g < 64) (hl : (d.dom g).leaving = false) (hst : d.domSt g ≠ 0) :
    ((d.wakeDomain g).dom g).waking = true ∧ ((d.wakeDomain g).dom g).waiters = (d.dom g).waiters ∧ ((d.wakeDomain g).dom g).leaving = false ∧
    (d.wakeDomain g).domSt g = d.domSt g ∧ (d.wakeDomain g).tick = d.tick := by
  unfold Dev.wakeDomain
  extract_lets x
  rw [if_neg (by rw [show x.leaving = (d.dom g).leaving from rfl, hl]; decide), if_neg hst]
  split
  · next hw => exact ⟨hw, rfl, hl, rfl, rfl⟩
  · rw [(Dev.Lulls.wakeLanes _ g).dom, Dev.dom_setDom_self, (Dev.Lulls.wakeLanes _ g).domSt hg, (Dev.Lulls.wakeLanes _ g).tick]
    exact ⟨rfl, rfl, hl, rfl, rfl⟩

/-- A demand keeps a domain's policy. -/
theorem Dev.wakeDomain_policy (d : Dev) (g : Nat) : ((d.wakeDomain g).dom g).floor = (d.dom g).floor ∧
    ((d.wakeDomain g).dom g).tRet = (d.dom g).tRet ∧ ((d.wakeDomain g).dom g).tOff = (d.dom g).tOff := by
  unfold Dev.wakeDomain
  extract_lets x
  split
  · rw [Dev.dom_setDom_self]
    exact ⟨rfl, rfl, rfl⟩
  · split
    · rw [Dev.dom_setDom_self]
      exact ⟨rfl, rfl, rfl⟩
    · split
      · exact ⟨rfl, rfl, rfl⟩
      · rw [(Dev.Lulls.wakeLanes _ g).dom, Dev.dom_setDom_self]
        exact ⟨rfl, rfl, rfl⟩

theorem doDomainDemandWake_spec (d : Dev) {g : Nat} (hg : g < 64) (ws : List (Nat × Nat)) (hf : d.followed g = false) (hh : d.pwrHeld = false)
    (hl : (d.dom g).leaving = false) (hst : d.domSt g ≠ 0) :
    ((doDomainDemandWake g ws d).dom g).waking = true ∧
    ((doDomainDemandWake g ws d).dom g).waiters = (d.dom g).waiters ++ ws.map (fun w => (w.1 % 16384, w.2 % 32, d.tick)) := by
  obtain ⟨h1, h2, -, h4, h5⟩ := Dev.wakeDomain_spec d hg hl hst
  have hbody : doDomainDemandWake g ws d = (d.wakeDomain g).setDom g { (d.wakeDomain g).dom g with
      waiters := ((d.wakeDomain g).dom g).waiters ++ ws.map (fun w => (w.1 % 16384, w.2 % 32, d.tick)) } := by
    unfold doDomainDemandWake
    dsimp only
    rw [Nat.mod_eq_of_lt hg, hf, hh, show (false || false) = false from rfl]
    exact if_neg (fun h => hst (h4 ▸ h.1))
  rw [hbody, Dev.dom_setDom_self]
  exact ⟨h1, congrArg (· ++ _) h2⟩

/-! ### Commands to the bridges of a group -/

/-- A fold that tells an output at one of its elements tells it. -/
theorem Dev.tells_foldl {α : Type} {f : Dev → α → Dev} {P : Out → Prop} {x : α} (Q : Dev → Prop) (hout : ∀ (e : Dev) y, e.out <+: (f e y).out)
    (hQ : ∀ e y, Q e → Q (f e y)) (h : ∀ e, Q e → ∃ o, P o ∧ e.tells (f e x) o)
    (l : List α) (d : Dev) (hx : x ∈ l) (hd : Q d) : ∃ o, P o ∧ d.tells (l.foldl f d) o := by
  induction l generalizing d with
  | nil => nomatch hx
  | cons y l ih =>
    rw [List.foldl_cons]
    have hrest : (f d y).out <+: (l.foldl f (f d y)).out :=
      List.foldlRecOn (motive := fun e : Dev => (f d y).out <+: e.out) l f List.prefix_rfl (fun e he z _ => he.trans (hout e z))
    rcases List.mem_cons.mp hx with rfl | hx
    · obtain ⟨o, ho, htell⟩ := h d hd
      exact ⟨o, ho, Dev.tells_within List.prefix_rfl htell hrest⟩
    · obtain ⟨o, ho, htell⟩ := ih (f d y) hx (hQ d y hd)
      exact ⟨o, ho, Dev.tells_within (hout d y) htell List.prefix_rfl⟩

/-- A command with a fresh tag is told to the bridge. -/
theorem Dev.tells_sendFresh (d : Dev) (p opc args : Nat) : ∃ tag, d.tells (d.sendFresh p { opc := opc, args := args } [])
    (.bridge p opc [0, tag, 0, 0, 0, 0, 0, args]) := by
  unfold Dev.sendFresh
  extract_lets x tag
  have hset : d.out <+: (d.setPort p { x with nextTag := (tag + 1) % 4096 }).out := List.prefix_rfl
  exact ⟨tag, Dev.tells_within hset (Dev.tells_sendData (d.setPort p { x with nextTag := (tag + 1) % 4096 }) p _ []) List.prefix_rfl⟩

/-- BRIDGE_POWER goes to every bridge of the group that this unit holds. -/
theorem Dev.tells_bridgePower (d : Dev) (g st : Nat) {p : Nat} (hp : p ∈ portsOf g) (hl : d.lstate p ≠ 7) (hown : d.fld (Reg.FCH_P_STS p) 4 3 = 1) :
    ∃ tag, d.tells (d.bridgePower g st) (.bridge p 0x0A [0, tag, 0, 0, 0, 0, 0, st]) := by
  have hin : p ∈ (portsOf g).filter (fun p => d.fld (Reg.FCH_P_STS p) 4 3 == 1 && d.lstate p != 7) :=
    List.mem_filter.mpr ⟨hp, by rw [hown]; simpa using hl⟩
  obtain ⟨o, ⟨tag, rfl⟩, htell⟩ := Dev.tells_foldl (f := fun (d : Dev) p => d.sendFresh p { opc := 0x0A, args := st } [])
    (P := fun o => ∃ tag, o = .bridge p 0x0A [0, tag, 0, 0, 0, 0, 0, st]) (fun _ => True) (fun e q => (Dev.Lulls.sendFresh e q _).out) (fun _ _ _ => trivial)
    (fun e _ => (Dev.tells_sendFresh e p 0x0A st).elim (fun tag h => ⟨_, ⟨tag, rfl⟩, h⟩)) _ d hin trivial
  exact ⟨tag, htell⟩

/-! ### Steps down (R431) -/

theorem SMap.mem_of_find {α : Type} {k : Nat} {v : α} : ∀ {m : SMap α}, SMap.find m k = some v → (k, v) ∈ m
  | (j, w) :: m, h => by
    rw [SMap.find] at h
    split at h
    · next hj =>
      rw [hj, Option.some.inj h]
      exact List.mem_cons_self
    · exact List.mem_cons_of_mem _ (SMap.mem_of_find h)

/-- With no open band in a group closing its bands does nothing. -/
theorem Dev.closeBands_none (d : Dev) (g : Nat) (h : d.openIn g = false) : d.closeBands (fun b => d.bandIn b g) = d := by
  have hnone : (d.bands.map Prod.fst).filter (fun b => d.bandIn b g &&
      ((d.band b).st == .openSlc || (d.band b).st == .openQlc || (d.band b).st == .openMeta)) = [] := by
    rw [List.filter_eq_nil_iff]
    intro b _ hopen
    rw [Bool.and_eq_true] at hopen
    obtain ⟨hin, hopen⟩ := hopen
    match hf : SMap.find d.bands b with
    | none =>
      have hreset : d.band b = Band.reset := by rw [Dev.band, SMap.get, hf]; rfl
      rw [hreset] at hopen
      exact absurd hopen (by decide)
    | some x =>
      have hband : d.band b = x := by rw [Dev.band, SMap.get, hf]; rfl
      rw [Dev.openIn, List.any_eq_false] at h
      exact h (b, x) (SMap.mem_of_find hf) (by rw [hband] at hopen; simp only [hopen, hin, Bool.and_self])
  unfold Dev.closeBands
  rw [hnone]
  rfl

/-- A step down changes of its domain whether it leaves, and no state. -/
theorem Dev.stepDown_dom (d : Dev) {g : Nat} (hg : g < 64) :
    ((d.stepDown g).dom g = d.dom g ∨ (d.stepDown g).dom g = { d.dom g with leaving := true }) ∧ (d.stepDown g).domSt g = d.domSt g ∧
    ∀ pg, (d.page pg).Later ((d.stepDown g).page pg) := by
  have hleave : ∀ (e : Dev) n, ((e.setDom g { e.dom g with leaving := true }).bridgePower g n).dom g = { e.dom g with leaving := true } ∧
      ((e.setDom g { e.dom g with leaving := true }).bridgePower g n).domSt g = e.domSt g ∧
      ∀ pg, (e.page pg).Later (((e.setDom g { e.dom g with leaving := true }).bridgePower g n).page pg) := fun e n => by
    have h := Dev.Lulls.bridgePower (e.setDom g { e.dom g with leaving := true }) g n
    exact ⟨(h.dom g).trans (Dev.dom_setDom_self e g _), h.domSt hg, h.page⟩
  have hsame : (d.dom g = d.dom g ∨ d.dom g = { d.dom g with leaving := true }) ∧ d.domSt g = d.domSt g ∧ ∀ pg, (d.page pg).Later (d.page pg) :=
    ⟨Or.inl rfl, rfl, fun _ => .refl _⟩
  unfold Dev.stepDown
  split
  · exact hsame
  · split
    · split
      · exact ⟨Or.inr (hleave d 1).1, (hleave d 1).2⟩
      · exact hsame
    · split
      · exact hsame
      · have hclose : d.Lulls (d.closeBands (fun b => d.bandIn b g)) :=
          .of_works (Dev.Frame.foldl (fun e b => Dev.Works.closeBand (.refl e) b) _ _)
        dsimp only
        split
        · obtain ⟨h1, h2, h3⟩ := hleave (d.closeBands (fun b => d.bandIn b g)) 2
          exact ⟨Or.inr (h1.trans (by rw [hclose.dom])), h2.trans (hclose.domSt hg), fun pg => (hclose.page pg).trans (h3 pg)⟩
        · exact ⟨Or.inl (hclose.dom g), hclose.domSt hg, hclose.page⟩

/-- A domain at rest steps down (R431). -/
theorem Dev.stepDown_leaves (d : Dev) (g n : Nat) (hmay : d.mayStep g = true) (hleave : d.canLeave g = true)
    (hn : n = 1 ∧ d.domSt g = 0 ∨ n = 2 ∧ d.domSt g ≠ 0 ∧ (d.isDirty && d.dumpGroup g) = false ∧ d.openIn g = false ∧ d.noDpar g = true) :
    ((d.stepDown g).dom g).leaving = true ∧ ∀ p ∈ portsOf g, d.lstate p ≠ 7 → d.fld (Reg.FCH_P_STS p) 4 3 = 1 →
      ∃ tag, d.tells (d.stepDown g) (.bridge p 0x0A [0, tag, 0, 0, 0, 0, 0, n]) := by
  have hbody : d.stepDown g = (d.setDom g { d.dom g with leaving := true }).bridgePower g n := by
    unfold Dev.stepDown
    rw [if_neg (by simp [hmay])]
    rcases hn with ⟨rfl, h0⟩ | ⟨rfl, h0, hdirty, hopen, hdpar⟩
    · rw [if_pos h0, if_pos hleave]
    · rw [if_neg h0, if_neg (by simp [hdirty]), Dev.closeBands_none d g hopen]
      dsimp only
      rw [hleave, hdpar, if_pos (by decide)]
  rw [hbody]
  refine ⟨?_, fun p hp hl hown => Dev.tells_bridgePower (d.setDom g { d.dom g with leaving := true }) g n hp hl hown⟩
  rw [(Dev.Lulls.bridgePower _ g n).dom, Dev.dom_setDom_self]

theorem domainTRetExpire_leaves (d : Dev) {g : Nat} (hg : g < 64) (hmay : d.mayStep g = true) (hleave : d.canLeave g = true) (hst : d.domSt g = 0)
    (ht : 1 ≤ (d.dom g).park ∨ (d.dom g).last + (d.dom g).tRet * 1000000 ≤ d.tick) :
    ((doDomainTRetExpire g d).dom g).leaving = true ∧ ∀ p ∈ portsOf g, d.lstate p ≠ 7 → d.fld (Reg.FCH_P_STS p) 4 3 = 1 →
      ∃ tag, d.tells (doDomainTRetExpire g d) (.bridge p 0x0A [0, tag, 0, 0, 0, 0, 0, 1]) := by
  have hbody : doDomainTRetExpire g d = d.stepDown g := by
    unfold doDomainTRetExpire
    dsimp only
    rw [Nat.mod_eq_of_lt hg, if_pos ⟨hst, ht⟩]
  rw [hbody]
  exact Dev.stepDown_leaves d g 1 hmay hleave (Or.inl ⟨rfl, hst⟩)

theorem domainTOffExpire_leaves (d : Dev) {g : Nat} (hg : g < 64) (hmay : d.mayStep g = true) (hleave : d.canLeave g = true) (hst : d.domSt g = 1)
    (ht : (d.dom g).park = 2 ∨ (d.dom g).last + (d.dom g).tOff * 1000000000 ≤ d.tick) (hopen : d.openIn g = false) (hdpar : d.noDpar g = true)
    (hdirty : d.isDirty = false ∨ d.dumpGroup g = false) :
    ((doDomainTOffExpire g d).dom g).leaving = true ∧ ∀ p ∈ portsOf g, d.lstate p ≠ 7 → d.fld (Reg.FCH_P_STS p) 4 3 = 1 →
      ∃ tag, d.tells (doDomainTOffExpire g d) (.bridge p 0x0A [0, tag, 0, 0, 0, 0, 0, 2]) := by
  have hbody : doDomainTOffExpire g d = d.stepDown g := by
    unfold doDomainTOffExpire
    dsimp only
    rw [Nat.mod_eq_of_lt hg, if_pos ⟨hst, ht⟩]
  have hclean : (d.isDirty && d.dumpGroup g) = false := by
    rcases hdirty with h | h <;> rw [h]
    · rfl
    · exact Bool.and_false _
  rw [hbody]
  exact Dev.stepDown_leaves d g 2 hmay hleave (Or.inr ⟨rfl, by rw [hst]; decide, hclean, hopen, hdpar⟩)

/-! ### The ends of a wake and of a step (R429, R431, R433) -/

/-- A change of a domain's state is told on PWR's page, and changes no domain's record. -/
theorem Dev.setDomSt_keeps (d : Dev) {g st : Nat} (hg : g < 64) (hst : st < 4) :
    (d.setDomSt g st).doms = d.doms ∧ (d.setDomSt g st).domSt g = st ∧ d.out <+: (d.setDomSt g st).out := by
  have h := Dev.setDomSt_frame (d := d) hg st
  refine ⟨?_, (Dev.domSt_setDomSt d hg hst hg).trans (if_pos rfl), h.out⟩
  have hdoms : ∀ x : Dev, x.sansDoms.doms = x.doms := fun _ => rfl
  rw [← hdoms, h.kept, hdoms]

theorem Dev.Lulls.raise (d : Dev) (pg bit : Nat) : d.Lulls (d.raise pg bit) := .of_reports (Dev.Reports.raise d pg bit)

/-- A change of a domain's state is raised and journaled. -/
theorem Dev.raisedJournal (d : Dev) (g st : Nat) : d.Lulls ((d.raise 0xD01 3).journalDom g st) ∧
    bitAt (((d.raise 0xD01 3).journalDom g st).page 0xD01).intPend 3 = true := by
  have hjournal := Dev.Lulls.journalDom (d.raise 0xD01 3) g st
  refine ⟨(Dev.Lulls.raise d 0xD01 3).trans hjournal, (hjournal.page 0xD01).2 3 ?_⟩
  rw [Dev.intPend_raise _ _ _ (by decide)]
  exact (bitAt_putBit _ _ _ _ (by decide)).trans (if_pos rfl)

theorem Dev.domReached_spec (d : Dev) (g : Nat) : ((d.domReached g).dom g).waking = false ∧ ((d.domReached g).dom g).waiters = [] ∧
    (∀ k, (d.domReached g).domSt k = d.domSt k) ∧ (d.domReached g).out = d.out := by
  unfold Dev.domReached
  extract_lets x us d1 longest
  have hkeep : d1.regs = d.regs ∧ d1.out = d.out := List.foldlRecOn (motive := fun e : Dev => e.regs = d.regs ∧ e.out = d.out) _ _ ⟨rfl, rfl⟩
    (fun e he w _ => by split <;> exact he)
  rw [Dev.dom_setDom_self]
  refine ⟨rfl, rfl, fun k => ?_, hkeep.2⟩
  rw [Dev.domSt_setDom, Dev.domSt, Dev.fld, Dev.reg, hkeep.1]
  rfl

/-- The bridges of a parked group are taken by force and ordered ON. -/
def Dev.takeParked (g : Nat) (d : Dev) : Dev :=
  ((portsOf g).filter (fun p => d.lstate p != 7)).foldl (fun (d : Dev) p =>
    (d.sendFresh p { opc := 0x08, args := d.fence + 2 ^ 16 } []).sendFresh p { opc := 0x0A, args := 0 } []) d

theorem Dev.fence_sendFresh (d : Dev) (p : Nat) (c : LaneCmd) : (d.sendFresh p c []).fence = d.fence :=
  congrArg (fun w => bits w 31 16) ((Dev.Sends.sendFresh d p c []).reg _)

theorem Dev.tells_takeParked (d : Dev) (g : Nat) {p : Nat} (hp : p ∈ portsOf g) (hl : d.lstate p ≠ 7) :
    (∃ tag, d.tells (d.takeParked g) (.bridge p 0x0A [0, tag, 0, 0, 0, 0, 0, 0])) ∧
    ∃ tag, d.tells (d.takeParked g) (.bridge p 0x08 [0, tag, 0, 0, 0, 0, 0, d.fence + 2 ^ 16]) := by
  have hin : p ∈ (portsOf g).filter (fun p => d.lstate p != 7) := List.mem_filter.mpr ⟨hp, by simpa using hl⟩
  have hfirst : ∀ (e : Dev) q, e.out <+: (e.sendFresh q { opc := 0x08, args := e.fence + 2 ^ 16 } []).out := fun e q => (Dev.Lulls.sendFresh e q _).out
  have hlast : ∀ (e : Dev) q, e.out <+: (e.sendFresh q { opc := 0x0A, args := 0 } []).out := fun e q => (Dev.Lulls.sendFresh e q _).out
  constructor
  · obtain ⟨o, ⟨tag, rfl⟩, htell⟩ := Dev.tells_foldl (P := fun o => ∃ tag, o = .bridge p 0x0A [0, tag, 0, 0, 0, 0, 0, 0]) (fun _ => True)
      (fun e q => (hfirst e q).trans (hlast _ q)) (fun _ _ _ => trivial)
      (fun e _ => (Dev.tells_sendFresh _ p 0x0A 0).elim (fun tag h => ⟨_, ⟨tag, rfl⟩, Dev.tells_within (hfirst e p) h List.prefix_rfl⟩)) _ d hin trivial
    exact ⟨tag, htell⟩
  · obtain ⟨o, ⟨tag, rfl⟩, htell⟩ := Dev.tells_foldl (P := fun o => ∃ tag, o = .bridge p 0x08 [0, tag, 0, 0, 0, 0, 0, d.fence + 2 ^ 16])
      (fun e => e.fence = d.fence)
      (fun e q => (hfirst e q).trans (hlast _ q)) (fun e q he => by rw [Dev.fence_sendFresh, Dev.fence_sendFresh, he])
      (fun e he => (Dev.tells_sendFresh e p 0x08 (e.fence + 2 ^ 16)).elim (fun tag h => ⟨_, ⟨tag, by rw [he]⟩, Dev.tells_within List.prefix_rfl h (hlast _ p)⟩))
      _ d hin rfl
    exact ⟨tag, htell⟩

theorem domainOn_spec (d : Dev) {g : Nat} (hg : g < 64) (hw : (d.dom g).waking = true) (hf : d.followed g = false) (hs : d.pwrStop = false)
    (hup : ∀ p ∈ portsOf g, d.lstate p = 7 ∨ d.lstate p = 5) :
    (doDomainOn g d).domSt g = 0 ∧ ((doDomainOn g d).dom g).waking = false ∧ ((doDomainOn g d).dom g).waiters = [] ∧
    bitAt ((doDomainOn g d).page 0xD01).intPend 3 = true ∧
    ∀ p ∈ portsOf g, d.lstate p ≠ 7 → (d.dom g).parked = true ∨ d.fld (Reg.FCH_P_STS p) 4 3 = 1 →
      (∃ tag, d.tells (doDomainOn g d) (.bridge p 0x0A [0, tag, 0, 0, 0, 0, 0, 0])) ∧
      ((d.dom g).parked = true → ∃ tag, d.tells (doDomainOn g d) (.bridge p 0x08 [0, tag, 0, 0, 0, 0, 0, d.fence + 2 ^ 16])) := by
  obtain ⟨e, he⟩ : ∃ e, e = if (d.dom g).parked then d.takeParked g else d.bridgePower g 0 := ⟨_, rfl⟩
  have hbody : doDomainOn g d = (((e.setDomSt g 0).domReached g).raise 0xD01 3).journalDom g 0 := by
    have hall : (portsOf g).all (fun p => d.lstate p == 7 || d.lstate p == 5) = true := List.all_eq_true.mpr (fun p hp => by simpa using hup p hp)
    unfold doDomainOn
    dsimp only
    rw [Nat.mod_eq_of_lt hg, hw, hf, hs, hall, if_neg (by decide), he]
    rfl
  obtain ⟨hst, hset⟩ : (e.setDomSt g 0).domSt g = 0 ∧ e.out <+: (e.setDomSt g 0).out := (Dev.setDomSt_keeps e hg (by decide)).2
  obtain ⟨hwk, hwt, hdst, hout⟩ := Dev.domReached_spec (e.setDomSt g 0) g
  obtain ⟨htail, hpend⟩ := Dev.raisedJournal ((e.setDomSt g 0).domReached g) g 0
  have hrest : e.out <+: (doDomainOn g d).out := hbody ▸ (hset.trans (by rw [hout])).trans htail.out
  refine ⟨?_, ?_, ?_, hbody ▸ hpend, fun p hp hl hown => ?_⟩
  · rw [hbody, htail.domSt hg, hdst, hst]
  · rw [hbody, htail.dom, hwk]
  · rw [hbody, htail.dom, hwt]
  · have within : ∀ {o}, d.tells e o → d.tells (doDomainOn g d) o := fun h => Dev.tells_within List.prefix_rfl h hrest
    by_cases hpark : (d.dom g).parked = true
    · rw [if_pos hpark] at he
      obtain ⟨⟨t1, h1⟩, t2, h2⟩ := Dev.tells_takeParked d g hp hl
      exact ⟨⟨t1, within (he ▸ h1)⟩, fun _ => ⟨t2, within (he ▸ h2)⟩⟩
    · rw [if_neg hpark] at he
      obtain ⟨t1, h1⟩ := Dev.tells_bridgePower d g 0 hp hl (hown.resolve_left hpark)
      exact ⟨⟨t1, within (he ▸ h1)⟩, fun h => absurd h hpark⟩

theorem domainStepDone_spec (d : Dev) {g : Nat} (hg : g < 64) (hl : (d.dom g).leaving = true) (hs : d.pwrStop = false) (hst : d.domSt g ≤ 1) :
    (doDomainStepDone g d).domSt g = d.domSt g + 1 ∧ ((doDomainStepDone g d).dom g).waking = (d.dom g).again ∧
    ((d.dom g).park ≠ 2 → ((doDomainStepDone g d).dom g).leaving = false) ∧ bitAt ((doDomainStepDone g d).page 0xD01).intPend 3 = true := by
  unfold doDomainStepDone
  rw [Nat.mod_eq_of_lt hg]
  extract_lets _ x st d1 d2 d3 d4
  rw [if_neg (by rw [show x.leaving = true from hl, hs]; decide)]
  have h1 : d1.domSt g = st := (Dev.setDomSt_keeps d hg (Nat.lt_of_le_of_lt (Nat.succ_le_succ hst) (by decide))).2.1
  have h2 : d1.Lulls d2 := .ite (.foldl (fun e p => .setLstate e p 0) _ _) (.refl _)
  obtain ⟨h4, hpend⟩ : d3.Lulls d4 ∧ bitAt (d4.page 0xD01).intPend 3 = true := Dev.raisedJournal d3 g st
  have hdom : d4.dom g = { x with leaving := false, again := false, waking := x.again, last := d2.tick } :=
    (h4.dom g).trans (Dev.dom_setDom_self d2 g _)
  have hdst : d4.domSt g = d.domSt g + 1 := ((h4.domSt hg).trans (Dev.domSt_setDom d2 g g _)).trans ((h2.domSt hg).trans h1)
  split
  · have h5 := Dev.Lulls.wakeLanes d4 g
    rw [h5.domSt hg, h5.dom, hdom]
    exact ⟨hdst, rfl, fun _ => rfl, (h5.page 0xD01).2 3 hpend⟩
  · split
    · next hpark =>
      obtain ⟨h6, h7, h8⟩ := Dev.stepDown_dom d4 hg
      refine ⟨h7.trans hdst, ?_, fun h => absurd (beq_iff_eq.mp (Bool.and_eq_true_iff.mp hpark).1) h, (h8 0xD01).2 3 hpend⟩
      rcases h6 with h6 | h6 <;> rw [h6, hdom]
    · rw [hdom]
      exact ⟨hdst, rfl, fun _ => rfl, hpend⟩

/-! ### PWR_DOM_OP and PWR_DOM_POL (R432) -/

theorem Dev.Publishes.doms (h : d.Publishes t) : t.doms = d.doms := by
  obtain ⟨_, _, _, rfl, _⟩ := h
  rfl

theorem Dev.Publishes.dom (h : d.Publishes t) (g : Nat) : t.dom g = d.dom g := by rw [Dev.dom, h.doms, Dev.dom]

/-- What the effect of a write finds of the domains. -/
theorem Dev.Arrives.domains (h : d.Arrives t) : t.doms = d.doms ∧ t.dsel = d.dsel ∧ (∀ g, t.followed g = d.followed g) ∧ (∀ g, t.domSt g = d.domSt g) ∧
    (t.page 0xD01).err = (d.page 0xD01).err := by
  have herr := (Page.err_of_body (h.body 0xD01)).1
  obtain ⟨_, _, rfl, _⟩ := h
  exact ⟨rfl, rfl, fun _ => rfl, fun _ => rfl, herr⟩

/-- The operation that a write of PWR_DOM_OP with its key asks for. -/
def Dev.domOpDone (d : Dev) (g op : Nat) : Dev :=
  if op = 0 ∨ d.followed g ∨ (2 ≤ op ∧ (d.dom g).floor < op - 1) then d.recordErr 0xD01 0x0101 g op
  else if op = 1 then d.wakeDomain g
  else if op - 1 ≤ d.domSt g then d
  else (d.setDom g { d.dom g with park := op - 1 }).stepDown g

/-- PWR_DOM_OP of Table PWR-4. -/
def domOpRow : RegDef := ⟨"PWR_DOM_OP", 0xD01108, 1, 0x4, 0x0, 0x0, 0x0, 0x0, 0xFFFF0003, 0xFFFC, false, false, false⟩

/-- PWR_DOM_POL of Table PWR-4. -/
def domPolRow : RegDef := ⟨"PWR_DOM_POL", 0xD01104, 1, 0x4, 0x25800A2, 0x0, 0xFFFFFFF3, 0x0, 0x0, 0xC, false, false, false⟩

theorem domOp_key (d : Dev) (v : Word) (ho : d.isOpen 0xD01) (hkey : bits v 31 16 = 0x5057) (hrsv : bits v 15 2 = 0) :
    ∃ d1, d.Arrives d1 ∧ (d1.domOpDone d.dsel (bits v 1 0)).Publishes (domOp v d) := by
  obtain ⟨d1, harr, hpub⟩ := regWrite_clean (d := d) Reg.PWR_DOM_OP v (fun _ e => e.domOpDone e.dsel (bits v 1 0)) domOpRow ho rfl
    (and_mask_zero hrsv (by decide))
  refine ⟨d1, harr, ?_⟩
  rw [← harr.domains.2.1]
  unfold domOp
  rw [if_neg (not_not_intro hkey)]
  exact hpub

theorem exec_domOp (s : State) (hrun : s.running) (v : Word) {op : Nat} {i : Instr}
    (hi : (op, i) ∈ [(1, Instr.domainWakeOp v), (2, .parkRet v), (3, .parkOff v)]) (hop : bits v 1 0 = op) :
    1 ≤ op ∧ exec i s = .next { s with dev := domOp v s.dev } := by
  have hsame : otherOp v op = false := by rw [otherOp, hop]; simp
  simp only [List.mem_cons, List.not_mem_nil, or_false, Prod.mk.injEq] at hi
  rcases hi with ⟨rfl, rfl⟩ | ⟨rfl, rfl⟩ | ⟨rfl, rfl⟩
  · exact ⟨by decide, (act_of_running s (doDomainWakeOp v) hrun).trans (by rw [doDomainWakeOp, if_neg (by rw [hsame]; decide)])⟩
  · exact ⟨by decide, (act_of_running s (doParkRet v) hrun).trans (by rw [doParkRet, if_neg (by rw [hsame]; decide)])⟩
  · exact ⟨by decide, (act_of_running s (doParkOff v) hrun).trans (by rw [doParkOff, if_neg (by rw [hsame]; decide)])⟩

theorem domOp_spec (d : Dev) (v : Word) {g op : Nat} (hg : g < 64) (hsel : d.dsel = g) (ho : d.isOpen 0xD01) (hkey : bits v 31 16 = 0x5057)
    (hop : bits v 1 0 = op) (hrsv : bits v 15 2 = 0) (hlo : 1 ≤ op) :
    (d.followed g = false → op = 1 → (d.dom g).leaving = false → d.domSt g ≠ 0 → ((domOp v d).dom g).waking = true) ∧
    (d.followed g = false → 2 ≤ op → op - 1 ≤ (d.dom g).floor → d.domSt g < op - 1 → ((domOp v d).dom g).park = op - 1) ∧
    (d.followed g = false → 2 ≤ op → op - 1 ≤ (d.dom g).floor → op - 1 ≤ d.domSt g → (domOp v d).doms = d.doms) ∧
    (d.followed g = true ∨ (2 ≤ op ∧ (d.dom g).floor < op - 1) → (d.page 0xD01).err = false → ((domOp v d).page 0xD01).errCode = 0x0101 ∧
      ((domOp v d).page 0xD01).info0 = w32 g ∧ ((domOp v d).page 0xD01).info1 = w32 op ∧ (domOp v d).doms = d.doms) := by
  obtain ⟨d1, harr, hpub⟩ := domOp_key d v ho hkey hrsv
  obtain ⟨hdoms, -, hfol, hdst, herr⟩ := harr.domains
  have hdom : d1.dom g = d.dom g := by rw [Dev.dom, hdoms, Dev.dom]
  rw [hsel, hop, Dev.domOpDone, hdom, hfol, hdst] at hpub
  have hgo : d.followed g = false → ¬(2 ≤ op ∧ (d.dom g).floor < op - 1) → ¬(op = 0 ∨ d.followed g = true ∨ (2 ≤ op ∧ (d.dom g).floor < op - 1)) :=
    fun hf hfl h => h.elim (by omega) (fun h => h.elim (fun h => by rw [hf] at h; exact absurd h (by decide)) hfl)
  refine ⟨fun hf h1 hl hst => ?_, fun hf h2 hfl hst => ?_, fun hf h2 hfl hst => ?_, fun href hnone => ?_⟩
  · rw [if_neg (hgo hf (by omega)), if_pos h1] at hpub
    rw [hpub.dom]
    exact (Dev.wakeDomain_spec d1 hg (by rw [hdom]; exact hl) (by rw [hdst]; exact hst)).1
  · rw [if_neg (hgo hf (by omega)), if_neg (by omega), if_neg (by omega)] at hpub
    rw [hpub.dom]
    rcases (Dev.stepDown_dom (d1.setDom g { d.dom g with park := op - 1 }) hg).1 with h | h <;> rw [h, Dev.dom_setDom_self]
  · rw [if_neg (hgo hf (by omega)), if_neg (by omega), if_pos hst] at hpub
    rw [hpub.doms, hdoms]
  · rw [if_pos (Or.inr href)] at hpub
    obtain ⟨-, hcode, h0, h1⟩ := Page.err_of_body (hpub.body 0xD01)
    have hpage := Dev.page_recordErr_first d1 0xD01 0x0101 g op (herr.trans hnone)
    have hdoms' : (d1.recordErr 0xD01 0x0101 g op).doms = d1.doms := (Dev.Lulls.of_reports (Dev.Reports.recordErr d1 0xD01 0x0101 g op)).doms
    rw [hpage] at hcode h0 h1
    exact ⟨hcode, h0, h1, by rw [hpub.doms, hdoms', hdoms]⟩

theorem pwrDomPol_spec (d : Dev) (v : Word) {g : Nat} (hsel : d.dsel = g) (ho : d.isOpen 0xD01) (hrsv : bits v 3 2 = 0) :
    (bits v 1 0 ≠ 3 → bits v 15 4 ≠ 0 → bits v 31 16 ≠ 0 → ((doPwrDomPolWrite v d).dom g).floor = bits v 1 0 ∧
      ((doPwrDomPolWrite v d).dom g).tRet = bits v 15 4 ∧ ((doPwrDomPolWrite v d).dom g).tOff = bits v 31 16) ∧
    (bits v 1 0 = 3 ∨ bits v 15 4 = 0 ∨ bits v 31 16 = 0 → (d.page 0xD01).err = false → ((doPwrDomPolWrite v d).page 0xD01).errCode = 0x0106 ∧
      ((doPwrDomPolWrite v d).page 0xD01).info0 = 0x104 ∧ (doPwrDomPolWrite v d).doms = d.doms) := by
  obtain ⟨d1, harr, hpub⟩ := regWrite_clean (d := d) Reg.PWR_DOM_POL v (fun _ d =>
    if bits v 1 0 = 3 ∨ bits v 15 4 = 0 ∨ bits v 31 16 = 0 then d.recordErr 0xD01 0x0106 0x104 v.toNat
    else
      let g := d.dsel
      (d.setDom g { d.dom g with floor := bits v 1 0, tRet := bits v 15 4, tOff := bits v 31 16 }).floorCheck g) domPolRow ho rfl
    (and_mask_zero hrsv (by decide))
  obtain ⟨hdoms, hdsel, -, -, herr⟩ := harr.domains
  dsimp only at hpub
  rw [hdsel, hsel] at hpub
  refine ⟨fun h1 h2 h3 => ?_, fun hbad hnone => ?_⟩
  · rw [if_neg (fun h => h.elim h1 (fun h => h.elim h2 h3))] at hpub
    have hpol : ∀ e : Dev, ((e.floorCheck g).dom g).floor = (e.dom g).floor ∧ ((e.floorCheck g).dom g).tRet = (e.dom g).tRet ∧
        ((e.floorCheck g).dom g).tOff = (e.dom g).tOff := fun e => by
      unfold Dev.floorCheck
      split
      · exact Dev.wakeDomain_policy e g
      · exact ⟨rfl, rfl, rfl⟩
    obtain ⟨e, he⟩ : ∃ e, e = d1.setDom g { d1.dom g with floor := bits v 1 0, tRet := bits v 15 4, tOff := bits v 31 16 } := ⟨_, rfl⟩
    rw [← he] at hpub
    rw [show (doPwrDomPolWrite v d).dom g = _ from hpub.dom g, (hpol _).1, (hpol _).2.1, (hpol _).2.2, he, Dev.dom_setDom_self]
    exact ⟨rfl, rfl, rfl⟩
  · rw [if_pos hbad] at hpub
    obtain ⟨-, hcode, h0, -⟩ := Page.err_of_body (hpub.body 0xD01)
    rw [Dev.page_recordErr_first d1 0xD01 0x0106 0x104 v.toNat (herr.trans hnone)] at hcode h0
    have hdoms' : (d1.recordErr 0xD01 0x0106 0x104 v.toNat).doms = d1.doms := (Dev.Lulls.of_reports (Dev.Reports.recordErr d1 0xD01 0x0106 0x104 v.toNat)).doms
    exact ⟨hcode, h0, (hpub.doms.trans hdoms').trans hdoms⟩

end

/-- Settles O45: wakes and their end, steps down and theirs, PWR_DOM_OP and PWR_DOM_POL. -/
theorem domains : Obligations.Domains := by
  intro s g hrun hg x
  refine ⟨fun ws hf hh hl hst => ⟨_, act_of_running s (doDomainDemandWake g ws) hrun, doDomainDemandWake_spec s.dev hg ws hf hh hl hst⟩,
    fun hw hf hs hup => ⟨_, act_of_running s (doDomainOn g) hrun, domainOn_spec s.dev hg hw hf hs hup⟩,
    fun hf hh hl hw hd hleave => ?_,
    fun hl hs hst => ⟨_, act_of_running s (doDomainStepDone g) hrun, domainStepDone_spec s.dev hg hl hs hst⟩,
    fun hsel ho v op i hi hkey hop hrsv => ?_, fun hsel ho v hrsv => ?_⟩
  · have hmay : s.dev.domSt g < x.floor → s.dev.mayStep g = true := fun h => by
      unfold Dev.mayStep
      dsimp only
      rw [hf, hl, hw, hd, hh, decide_eq_true h]
      rfl
    exact ⟨fun hst hfl ht => ⟨_, act_of_running s (doDomainTRetExpire g) hrun,
        domainTRetExpire_leaves s.dev hg (hmay (by omega)) hleave hst ht⟩,
      fun hst hfl ht hopen hdpar hdirty => ⟨_, act_of_running s (doDomainTOffExpire g) hrun,
        domainTOffExpire_leaves s.dev hg (hmay (by omega)) hleave hst ht hopen hdpar hdirty⟩⟩
  · obtain ⟨hlo, hexec⟩ := exec_domOp s hrun v hi hop
    obtain ⟨h1, h2, h3, h4⟩ := domOp_spec s.dev v hg hsel ho hkey hop hrsv hlo
    exact ⟨fun a b c e => ⟨_, hexec, h1 a b c e⟩, fun a b c e => ⟨_, hexec, h2 a b c e⟩, fun a b c e => ⟨_, hexec, h3 a b c e⟩,
      fun a b => ⟨_, hexec, h4 a b⟩⟩
  · obtain ⟨h1, h2⟩ := pwrDomPol_spec s.dev v hsel ho hrsv
    exact ⟨fun a b c => ⟨_, act_of_running s (doPwrDomPolWrite v) hrun, h1 a b c⟩, fun a b => ⟨_, act_of_running s (doPwrDomPolWrite v) hrun, h2 a b⟩⟩

end Sys2Proof.Machine
end

section
/-! Control of replay and the injection of records (R485 to R488). -/

namespace Sys2Proof.Machine

-- In order, one declaration at a time: keeps the check within its memory limit.
set_option Elab.async false

section
variable {d e t : Dev}

/-! ### The pairing state and the link -/

/-- The registers that show the pairing state and the link. -/
def pairRegs : List Nat :=
  reportRegs ++ [Reg.TWN_STS, Reg.TWN_LINK_STS, Reg.TWN_LANE_MAP, Reg.SHF_BM_COPIES, Reg.STK_PWC_STS, Reg.HIF_PWIN_STS]

/-- The device without its reports and the end of its synchronisation. -/
def Dev.sansPairs (d : Dev) : Dev := { d.sansReports with syncEnd := none }

/-- From `d` to `t` the pairing state and the link change, and events are reported. -/
structure Dev.Pairs (d t : Dev) : Prop where
  kept : t.sansPairs = d.sansPairs
  regs : ∀ off, off ∉ pairRegs → t.reg off = d.reg off
  out : d.out <+: t.out
  page : ∀ pg, (d.page pg).Later (t.page pg)

theorem Dev.Pairs.refl (d : Dev) : d.Pairs d := ⟨rfl, fun _ _ => rfl, List.prefix_rfl, fun _ => .refl _⟩

theorem Dev.Pairs.trans (h : d.Pairs e) (h' : e.Pairs t) : d.Pairs t :=
  ⟨h'.kept.trans h.kept, fun off ho => (h'.regs off ho).trans (h.regs off ho), h.out.trans h'.out, fun pg => (h.page pg).trans (h'.page pg)⟩

theorem Dev.Pairs.ite {c : Prop} [Decidable c] (h : d.Pairs e) (h' : d.Pairs t) : d.Pairs (if c then e else t) := by
  split
  · exact h
  · exact h'

theorem Dev.Pairs.of_reports (h : d.Reports t) : d.Pairs t :=
  ⟨congrArg (fun x : Dev => { x with syncEnd := none }) h.kept, fun off ho => h.regs off (fun hin => ho (List.mem_append_left _ hin)), h.out, h.page⟩

theorem Dev.Pairs.setReg {off : Nat} (h : off ∈ pairRegs) (d : Dev) (v : Word) : d.Pairs (d.setReg off v) :=
  ⟨rfl, fun _ ho => Dev.reg_setReg_ne d (ne_of_mem_of_not_mem h ho).symm v, List.prefix_rfl, fun _ => .refl _⟩

theorem Dev.Pairs.setSingle (d : Dev) (b : Bool) : d.Pairs (d.setSingle b) := by
  unfold Dev.setSingle
  extract_lets d1 d2
  exact ((((Dev.Pairs.setReg (by decide) d _).trans (.setReg (by decide) _ _)).trans (.setReg (by decide) d1 _)).trans
    (.setReg (by decide) _ _)).trans ((Dev.Pairs.setReg (by decide) d2 _).trans (.setReg (by decide) _ _))

theorem Dev.Pairs.setTwin (d : Dev) (st : Nat) : d.Pairs (d.setTwin st) := by
  unfold Dev.setTwin
  extract_lets d1 d2
  have h2 : d.Pairs d2 := (Dev.Pairs.setReg (by decide) d _).trans (.setSingle d1 _)
  have hraise : ∀ n, d.Pairs (d2.raise 0xC01 n) := fun n => h2.trans (.of_reports (Dev.Reports.raise d2 _ n))
  exact .ite (.refl d) (.ite (hraise 0) (.ite (hraise 2) (.ite (hraise 3) h2)))

theorem Dev.Pairs.syncEnd (d : Dev) (x : Option Nat) : d.Pairs { d with syncEnd := x } := ⟨rfl, fun _ _ => rfl, List.prefix_rfl, fun _ => .refl _⟩

theorem Dev.Pairs.linkDown (d : Dev) : d.Pairs d.linkDown := by
  have htwin : ∀ x : Dev, x.Pairs ({ x with syncEnd := none }.setTwin 0) := fun x => (Dev.Pairs.syncEnd x none).trans (.setTwin _ 0)
  unfold Dev.linkDown
  split
  · extract_lets d1 d2
    have h1 : d.Pairs d1 := (Dev.Pairs.setReg (by decide) d _).trans (.setReg (by decide) _ _)
    have h2 : d.Pairs d2 := (h1.trans (.setReg (by decide) d1 _)).trans (.of_reports (Dev.Reports.raise _ _ _))
    split
    · exact h2.trans (htwin d2)
    · exact h2
  · exact .refl d

/-! ### Replay mode begins and ends (R485) -/

/-- The flash lane of a port goes to electrical idle, and its bridge is in no hands. -/
def Dev.laneOff (d : Dev) (p : Nat) : Dev := (if d.portGone p then d else d.setLstate p 0).setFld (Reg.FCH_P_STS p) 4 3 0

theorem Dev.reg_laneOff (d : Dev) {p off : Nat} (ho : off ∉ laneRegs p) : (d.laneOff p).reg off = d.reg off := by
  have hlane : Dev.Lanes p d (if d.portGone p then d else d.setLstate p 0) := .ite (.refl d) (Dev.Lanes.setLstate d p 0)
  rw [Dev.laneOff, Dev.reg_setFld_ne _ (ne_of_mem_of_not_mem (mem_laneRegs p List.mem_cons_self) ho).symm, hlane.regs off ho]

theorem pSts_notLane {p q : Nat} (h : q ≠ p) (hq : q < 512) : Reg.FCH_P_STS q ∉ laneRegs p := by
  simp only [laneRegs, reportRegs, List.mem_append, List.mem_cons, List.not_mem_nil, or_false, Reg.PWR_MODE_STS, Reg.GLB_DEV_STS,
    Reg.PWR_BIAS_NOW, Reg.SCP_CAP_STS, Reg.SCP_INC_STS, Reg.FCH_P_STS, Reg.FCH_C_UP, Reg.FCH_C_FAILED, Reg.FCH_C_HANDED]
  omega

/-- The lanes of listed ports go to electrical idle: each is in no hands, and no other register but the lanes' own changes. -/
theorem Dev.laneOff_foldl (l : List Nat) (d : Dev) :
    (∀ off, (∀ p ∈ l, off ∉ laneRegs p) → (l.foldl Dev.laneOff d).reg off = d.reg off) ∧
    ∀ q < 512, (l.foldl Dev.laneOff d).fld (Reg.FCH_P_STS q) 4 3 = if q ∈ l then 0 else d.fld (Reg.FCH_P_STS q) 4 3 := by
  induction l generalizing d with
  | nil => exact ⟨fun _ _ => rfl, fun _ _ => rfl⟩
  | cons p l ih =>
    rw [List.foldl_cons]
    obtain ⟨hregs, hown⟩ := ih (d.laneOff p)
    refine ⟨fun off ho => (hregs off (fun q hq => ho q (List.mem_cons_of_mem _ hq))).trans (Dev.reg_laneOff d (ho p List.mem_cons_self)), fun q hq => ?_⟩
    rw [hown q hq]
    by_cases hql : q ∈ l
    · rw [if_pos hql, if_pos (List.mem_cons_of_mem _ hql)]
    · rw [if_neg hql]
      by_cases hqp : q = p
      · rw [hqp, if_pos List.mem_cons_self, Dev.laneOff, Dev.fld_setFld_self _ _ _ _ _ (by decide)]
        rfl
      · rw [if_neg (by simp [hqp, hql]), Dev.fld, Dev.reg_laneOff d (pSts_notLane hqp hq), Dev.fld]

/-- The registers of replay are none of a lane. -/
theorem rp_notLane {off : Nat} (ho : 0xF57000 ≤ off ∧ off < 0xF58000) (hrep : off ∉ reportRegs) : ∀ p ∈ List.range 512, off ∉ laneRegs p := by
  intro p hp
  have hp' : p < 512 := List.mem_range.mp hp
  simp only [laneRegs, List.mem_append, List.mem_cons, List.not_mem_nil, or_false, not_or, Reg.FCH_P_STS, Reg.FCH_C_UP, Reg.FCH_C_FAILED, Reg.FCH_C_HANDED]
  exact ⟨hrep, by omega⟩

theorem pSts_notPair {p : Nat} (hp : p < 512) : Reg.FCH_P_STS p ∉ pairRegs := by
  simp only [pairRegs, reportRegs, List.mem_append, List.mem_cons, List.not_mem_nil, or_false, Reg.PWR_MODE_STS, Reg.GLB_DEV_STS,
    Reg.PWR_BIAS_NOW, Reg.SCP_CAP_STS, Reg.SCP_INC_STS, Reg.FCH_P_STS, Reg.TWN_STS, Reg.TWN_LINK_STS, Reg.TWN_LANE_MAP, Reg.SHF_BM_COPIES,
    Reg.STK_PWC_STS, Reg.HIF_PWIN_STS]
  omega

/-- No record has been taken and no entry compared. -/
def Dev.rpFresh (d : Dev) : Dev := { d with rp := { ckpt := false, loaded := false, seen := d.out.length } }

theorem Dev.reg_rpFresh (d : Dev) (off : Nat) : d.rpFresh.reg off = d.reg off := rfl

/-- Replay's registers begin at their start values. -/
def Dev.rpZero (d : Dev) : Dev := ((d.setReg Reg.SCP_RP_STS 1).setReg Reg.SCP_RP_CONS 0).set64 Reg.SCP_RP_DIV_LO Reg.SCP_RP_DIV_HI 0

theorem Dev.rpBegin_eq (d : Dev) : d.rpBegin = (((List.range 512).foldl Dev.laneOff d.rpZero).linkDown).rpFresh := rfl

theorem Dev.rpBegin_spec (d : Dev) : d.rpBegin.reg Reg.SCP_RP_STS = 1 ∧ d.rpBegin.reg Reg.SCP_RP_CONS = 0 ∧
    d.rpBegin.reg Reg.SCP_RP_CTL = d.reg Reg.SCP_RP_CTL ∧ d.rpBegin.rp.loaded = false ∧ ∀ p < 512, d.rpBegin.fld (Reg.FCH_P_STS p) 4 3 = 0 := by
  obtain ⟨hfold, hown⟩ := Dev.laneOff_foldl (List.range 512) d.rpZero
  rw [Dev.rpBegin_eq]
  generalize (List.range 512).foldl Dev.laneOff d.rpZero = e at hfold hown ⊢
  have hlink := Dev.Pairs.linkDown e
  generalize e.linkDown = t at hlink ⊢
  have hreg : ∀ off, 0xF57000 ≤ off ∧ off < 0xF58000 → off ∉ pairRegs → t.rpFresh.reg off = d.rpZero.reg off := fun off ho hp =>
    (Dev.reg_rpFresh t off).trans ((hlink.regs off hp).trans (hfold off (rp_notLane ho (fun h => hp (List.mem_append_left _ h)))))
  refine ⟨(hreg _ (by decide) (by decide)).trans ?_, (hreg _ (by decide) (by decide)).trans ?_, (hreg _ (by decide) (by decide)).trans ?_, rfl, fun p hp => ?_⟩
  · exact (Dev.reg_set64_ne _ (by decide) (by decide) _).trans ((Dev.reg_setReg_ne _ (by decide) _).trans (Dev.reg_setReg_self _ _ _))
  · exact (Dev.reg_set64_ne _ (by decide) (by decide) _).trans (Dev.reg_setReg_self _ _ _)
  · exact (Dev.reg_set64_ne _ (by decide) (by decide) _).trans ((Dev.reg_setReg_ne _ (by decide) _).trans (Dev.reg_setReg_ne _ (by decide) _))
  · have hkeep : t.rpFresh.fld (Reg.FCH_P_STS p) 4 3 = e.fld (Reg.FCH_P_STS p) 4 3 := by rw [Dev.fld, Dev.reg_rpFresh, hlink.regs _ (pSts_notPair hp), Dev.fld]
    exact hkeep.trans ((hown p hp).trans (if_pos (List.mem_range.mpr hp)))

/-- What a write of SCP_RP_CTL does, once it has arrived. -/
def Dev.rpControl (d : Dev) (en go : Bool) : Dev :=
  let was := d.flag Reg.SCP_RP_CTL 0
  let d :=
    if en ∧ !was then
      match d.rpReason with
      | some n => d.recordErr 0xF57 0x0102 n 0
      | none => (d.setFlag Reg.SCP_RP_CTL 0 true).rpBegin
    else if !en ∧ was then ((d.setFlag Reg.SCP_RP_CTL 0 false).setFlag Reg.SCP_RP_STS 0 false).setFlag Reg.SCP_RP_STS 1 false
    else d
  if go then d.setFlag Reg.SCP_RP_STS 1 false else d

/-- SCP_RP_CTL of Table SCP-1. -/
def rpCtlRow : RegDef := ⟨"SCP_RP_CTL", 0xF571C0, 1, 0x4, 0x0, 0x0, 0x1, 0x0, 0x2, 0xFFFFFFFC, true, false, false⟩

/-- SCP_RP_PROD of Table SCP-1. -/
def rpProdRow : RegDef := ⟨"SCP_RP_PROD", 0xF571D0, 1, 0x4, 0x0, 0xFFFFFFFF, 0x0, 0x0, 0x0, 0x0, false, false, false⟩

theorem rpCtl_reaches (d : Dev) (v : Word) (ho : d.isOpen 0xF57) (hrsv : v &&& 0xFFFFFFFC = 0) :
    ∃ d1, d.Arrives d1 ∧ (d1.rpControl (bitAt v 0) (bitAt v 1)).Publishes (rpCtl v d) := by
  obtain ⟨d1, harr, hpub⟩ := regWrite_clean (d := d) Reg.SCP_RP_CTL v (fun new e => e.rpControl (bitAt new 0) (bitAt v 1)) rpCtlRow ho rfl hrsv
  have hen : bitAt (mergeWrite rpCtlRow (d.reg (canonOff Reg.SCP_RP_CTL)) v true) 0 = bitAt v 0 := bitAt_mergeWrite rfl _ v 0
  rw [hen] at hpub
  exact ⟨d1, harr, hpub⟩

/-- GO clears PAUSED and nothing else of replay. -/
theorem Dev.rpGo_keeps (d : Dev) (go : Bool) (off n : Nat) (h : off ≠ Reg.SCP_RP_STS ∨ n ≠ 1) :
    (if go then d.setFlag Reg.SCP_RP_STS 1 false else d).flag off n = d.flag off n := by
  split
  · rcases eq_or_ne off Reg.SCP_RP_STS with rfl | hoff
    · exact Dev.flag_setFlag_other _ _ _ _ _ (by decide) (h.resolve_left (fun h => h rfl))
    · exact Dev.flag_setFlag_ne _ hoff _ _ _
  · rfl

theorem Dev.rpControl_starts (d : Dev) (go : Bool) (hoff : d.flag Reg.SCP_RP_CTL 0 = false) (hok : d.rpReason = none) :
    (d.rpControl true go).rpFence = true ∧ (d.rpControl true go).flag Reg.SCP_RP_CTL 0 = true ∧
    (d.rpControl true go).reg Reg.SCP_RP_CONS = 0 ∧ (d.rpControl true go).rp.loaded = false ∧
    ∀ p < 512, (d.rpControl true go).fld (Reg.FCH_P_STS p) 4 3 = 0 := by
  have hbody : d.rpControl true go = if go then (d.setFlag Reg.SCP_RP_CTL 0 true).rpBegin.setFlag Reg.SCP_RP_STS 1 false
      else (d.setFlag Reg.SCP_RP_CTL 0 true).rpBegin := by
    unfold Dev.rpControl
    rw [hoff, hok]
    rfl
  obtain ⟨hsts, hcons, hctl, hload, hports⟩ := Dev.rpBegin_spec (d.setFlag Reg.SCP_RP_CTL 0 true)
  obtain ⟨e, he⟩ : ∃ e, e = (d.setFlag Reg.SCP_RP_CTL 0 true).rpBegin := ⟨_, rfl⟩
  rw [← he] at hbody hsts hcons hctl hload hports
  have hreg : ∀ off, off ≠ Reg.SCP_RP_STS → (if go then e.setFlag Reg.SCP_RP_STS 1 false else e).reg off = e.reg off := fun off ho => by
    split
    · exact Dev.reg_setFlag_ne _ ho _ _
    · rfl
  rw [hbody]
  refine ⟨?_, ?_, (hreg _ (by decide)).trans hcons, ?_, fun p hp => ?_⟩
  · exact (Dev.rpGo_keeps e go _ 0 (Or.inr (by decide))).trans (by rw [Dev.flag, hsts]; decide)
  · refine (Dev.rpGo_keeps e go _ 0 (Or.inl (by decide))).trans ?_
    rw [Dev.flag, hctl]
    exact Dev.flag_setFlag_self d _ _ _ (by decide)
  · split <;> exact hload
  · rw [Dev.fld, hreg _ (by simp only [Reg.FCH_P_STS, Reg.SCP_RP_STS]; omega)]
    exact hports p hp

theorem Dev.rpControl_refused (d : Dev) (go : Bool) {n : Nat} (hoff : d.flag Reg.SCP_RP_CTL 0 = false) (hno : d.rpReason = some n)
    (herr : (d.page 0xF57).err = false) : (d.rpControl true go).flag Reg.SCP_RP_CTL 0 = false ∧
    ((d.rpControl true go).page 0xF57).errCode = 0x0102 ∧ ((d.rpControl true go).page 0xF57).info0 = w32 n := by
  have hbody : d.rpControl true go = if go then (d.recordErr 0xF57 0x0102 n 0).setFlag Reg.SCP_RP_STS 1 false else d.recordErr 0xF57 0x0102 n 0 := by
    unfold Dev.rpControl
    rw [hoff, hno]
    rfl
  have hpage : (d.rpControl true go).page 0xF57 = (d.recordErr 0xF57 0x0102 n 0).page 0xF57 := by
    rw [hbody]
    split <;> rfl
  rw [hpage, Dev.page_recordErr_first d 0xF57 0x0102 n 0 herr]
  refine ⟨?_, rfl, rfl⟩
  rw [hbody, Dev.rpGo_keeps _ go _ 0 (Or.inl (by decide)), Dev.flag, Dev.reg_recordErr]
  exact hoff

theorem Dev.rpControl_ends (d : Dev) (go : Bool) (hon : d.flag Reg.SCP_RP_CTL 0 = true) : (d.rpControl false go).rpFence = false ∧
    (d.rpControl false go).flag Reg.SCP_RP_CTL 0 = false ∧ (d.rpControl false go).flag Reg.SCP_RP_STS 1 = false := by
  obtain ⟨e, he⟩ : ∃ e, e = ((d.setFlag Reg.SCP_RP_CTL 0 false).setFlag Reg.SCP_RP_STS 0 false).setFlag Reg.SCP_RP_STS 1 false := ⟨_, rfl⟩
  have hbody : d.rpControl false go = if go then e.setFlag Reg.SCP_RP_STS 1 false else e := by
    unfold Dev.rpControl
    rw [hon, he]
    rfl
  have hsts1 : e.flag Reg.SCP_RP_STS 1 = false := he ▸ Dev.flag_setFlag_self _ _ _ _ (by decide)
  rw [hbody]
  refine ⟨(Dev.rpGo_keeps e go _ 0 (Or.inr (by decide))).trans ?_, (Dev.rpGo_keeps e go _ 0 (Or.inl (by decide))).trans ?_, ?_⟩
  · rw [he, Dev.flag_setFlag_other _ _ _ _ _ (by decide) (by decide), Dev.flag_setFlag_self _ _ _ _ (by decide)]
  · rw [he, Dev.flag_setFlag_ne _ (by decide), Dev.flag_setFlag_ne _ (by decide), Dev.flag_setFlag_self _ _ _ _ (by decide)]
  · split
    · exact Dev.flag_setFlag_self _ _ _ _ (by decide)
    · exact hsts1

theorem Dev.rpControl_goes (d : Dev) {en : Bool} (hen : d.flag Reg.SCP_RP_CTL 0 = en) : (d.rpControl en true).flag Reg.SCP_RP_STS 1 = false ∧
    (d.rpControl en true).rpFence = d.rpFence := by
  have hbody : d.rpControl en true = d.setFlag Reg.SCP_RP_STS 1 false := by
    unfold Dev.rpControl
    rw [hen]
    cases en <;> rfl
  rw [hbody]
  exact ⟨Dev.flag_setFlag_self _ _ _ _ (by decide), Dev.flag_setFlag_other _ _ _ _ _ (by decide) (by decide)⟩

theorem Dev.Publishes.rp (h : d.Publishes t) : t.rp = d.rp := by
  obtain ⟨_, _, _, rfl, _⟩ := h
  rfl

theorem rpReason_arrives (h : d.Arrives t) : t.rpReason = d.rpReason := by
  obtain ⟨cap, _, rfl, -, -, hkey⟩ := h
  unfold Dev.rpReason
  rw [← hkey]
  rfl

theorem rpCtl_spec (d : Dev) (v : Word) (ho : d.isOpen 0xF57) (hrsv : v &&& 0xFFFFFFFC = 0) :
    (d.flag Reg.SCP_RP_CTL 0 = false → bitAt v 0 = true →
      (d.rpReason = none → (rpCtl v d).rpFence = true ∧ (rpCtl v d).flag Reg.SCP_RP_CTL 0 = true ∧ (rpCtl v d).reg Reg.SCP_RP_CONS = 0 ∧
        (rpCtl v d).rp.loaded = false ∧ ∀ p < 512, (rpCtl v d).fld (Reg.FCH_P_STS p) 4 3 = 0) ∧
      (∀ n, d.rpReason = some n → (d.page 0xF57).err = false → (rpCtl v d).flag Reg.SCP_RP_CTL 0 = false ∧
        ((rpCtl v d).page 0xF57).errCode = 0x0102 ∧ ((rpCtl v d).page 0xF57).info0 = w32 n)) ∧
    (d.flag Reg.SCP_RP_CTL 0 = true → bitAt v 0 = false → (rpCtl v d).rpFence = false ∧ (rpCtl v d).flag Reg.SCP_RP_CTL 0 = false ∧
      (rpCtl v d).flag Reg.SCP_RP_STS 1 = false) ∧
    (d.flag Reg.SCP_RP_CTL 0 = bitAt v 0 → bitAt v 1 = true → (rpCtl v d).flag Reg.SCP_RP_STS 1 = false ∧ (rpCtl v d).rpFence = d.rpFence) := by
  obtain ⟨d1, harr, hpub⟩ := rpCtl_reaches d v ho hrsv
  have hctl : d1.flag Reg.SCP_RP_CTL 0 = d.flag Reg.SCP_RP_CTL 0 := harr.flag _ _
  have hfence : ∀ {x : Bool}, (d1.rpControl (bitAt v 0) (bitAt v 1)).rpFence = x → (rpCtl v d).rpFence = x := fun h => (hpub.flag _ 0).trans h
  refine ⟨fun hoff hv => ⟨fun hok => ?_, fun n hno herr => ?_⟩, fun hon hv => ?_, fun heq hgo => ?_⟩
  · rw [hv] at hpub hfence
    obtain ⟨h1, h2, h3, h4, h5⟩ := Dev.rpControl_starts d1 (bitAt v 1) (hctl.trans hoff) ((rpReason_arrives harr).trans hok)
    exact ⟨hfence h1, (hpub.flag _ _).trans h2, (hpub.reg _).trans h3, (congrArg (·.loaded) hpub.rp).trans h4, fun p hp => (hpub.fld _ _ _).trans (h5 p hp)⟩
  · rw [hv] at hpub
    obtain ⟨h1, h2, h3⟩ := Dev.rpControl_refused d1 (bitAt v 1) (hctl.trans hoff) ((rpReason_arrives harr).trans hno)
      ((Page.err_of_body (harr.body 0xF57)).1.trans herr)
    obtain ⟨-, hcode, hinfo, -⟩ := Page.err_of_body (hpub.body 0xF57)
    exact ⟨(hpub.flag _ _).trans h1, hcode.trans h2, hinfo.trans h3⟩
  · rw [hv] at hpub hfence
    obtain ⟨h1, h2, h3⟩ := Dev.rpControl_ends d1 (bitAt v 1) (hctl.trans hon)
    exact ⟨hfence h1, (hpub.flag _ _).trans h2, (hpub.flag _ _).trans h3⟩
  · rw [hgo] at hpub hfence
    obtain ⟨h1, h2⟩ := Dev.rpControl_goes d1 (hctl.trans heq)
    exact ⟨(hpub.flag _ _).trans h1, hfence (h2.trans (harr.flag _ _))⟩

theorem scpRpProdWrite_reg (d : Dev) (v : Word) (ho : d.isOpen 0xF57) : (doScpRpProdWrite v d).reg Reg.SCP_RP_PROD = v := by
  obtain ⟨d1, -, hpub⟩ := regWrite_clean (d := d) Reg.SCP_RP_PROD v (fun new e => e.setReg Reg.SCP_RP_PROD new) rpProdRow ho rfl BitVec.and_zero
  exact (hpub.reg _).trans ((Dev.reg_setReg_self _ _ _).trans (mergeWrite_whole (m := 0) rfl (by decide) BitVec.and_zero BitVec.and_zero))

theorem replayPause_spec (d : Dev) (hf : d.rpFence = true) (hp : d.flag Reg.SCP_RP_STS 1 = false)
    (ht : d.tick = d.get64 Reg.SCP_RP_STOP_LO Reg.SCP_RP_STOP_HI) :
    (doReplayPause d).flag Reg.SCP_RP_STS 1 = true ∧ bitAt ((doReplayPause d).page 0xF57).intPend 4 = true := by
  have hbody : doReplayPause d = (d.setFlag Reg.SCP_RP_STS 1 true).raise 0xF57 4 := by
    have hf' : d.flag Reg.SCP_RP_STS 0 = true := hf
    exact if_pos (by rw [hf', hp, ← ht]; simp)
  rw [hbody, Dev.intPend_raise _ _ _ (by decide), Dev.flag, Dev.reg_raise _ _ _ _ (by decide) (by decide) (by decide)]
  exact ⟨Dev.flag_setFlag_self _ _ _ _ (by decide), (bitAt_putBit _ _ _ _ (by decide)).trans (if_pos rfl)⟩

/-! ### Records (R486, R487) -/

/-- The last record of a segment moves CONS and nothing else. -/
theorem Dev.rpConsume_keeps (d : Dev) (r : RpRecord) : (∀ off, off ≠ Reg.SCP_RP_CONS → (d.rpConsume r).reg off = d.reg off) ∧
    (d.rpConsume r).pages = d.pages ∧ (d.rpConsume r).rp = d.rp ∧ (d.rpConsume r).tick = d.tick := by
  unfold Dev.rpConsume
  split
  · exact ⟨fun off ho => Dev.reg_setReg_ne _ ho _, rfl, rfl, rfl⟩
  · exact ⟨fun _ _ => rfl, rfl, rfl, rfl⟩

theorem Dev.flag_rpConsume (d : Dev) (r : RpRecord) (n : Nat) : (d.rpConsume r).flag Reg.SCP_RP_STS n = d.flag Reg.SCP_RP_STS n :=
  congrArg (fun w => bitAt w n) ((Dev.rpConsume_keeps d r).1 _ (by decide))

theorem Dev.page_rpConsume (d : Dev) (r : RpRecord) (pg : Nat) : (d.rpConsume r).page pg = d.page pg :=
  congrArg (fun m => SMap.get (fun _ => Page.reset) m pg) (Dev.rpConsume_keeps d r).2.1

theorem Dev.rpDiverge_spec (d : Dev) (rnum cond : Nat) (herr : (d.page 0xF57).err = false) :
    (d.rpDiverge rnum cond).flag Reg.SCP_RP_STS 2 = true ∧ (d.rpDiverge rnum cond).flag Reg.SCP_RP_STS 1 = true ∧
    ((d.rpDiverge rnum cond).page 0xF57).errCode = 0x0103 ∧ ((d.rpDiverge rnum cond).page 0xF57).info1 = w32 cond ∧
    (d.rpDiverge rnum cond).get64 Reg.SCP_RP_DIV_LO Reg.SCP_RP_DIV_HI = rnum % 2 ^ 64 := by
  unfold Dev.rpDiverge
  extract_lets d1
  have hreg : ∀ off, off ≠ Reg.PWR_MODE_STS → off ≠ Reg.GLB_DEV_STS → off ≠ Reg.PWR_BIAS_NOW →
      (((d1.set64 Reg.SCP_RP_DIV_LO Reg.SCP_RP_DIV_HI rnum).raise 0xF57 5).recordErr 0xF57 0x0103 (rnum % 2 ^ 32) cond).reg off =
        (d1.set64 Reg.SCP_RP_DIV_LO Reg.SCP_RP_DIV_HI rnum).reg off := fun off h1 h2 h3 => by
    rw [Dev.reg_recordErr, Dev.reg_raise _ _ _ _ h1 h2 h3]
  have hsts : ∀ n, (d1.set64 Reg.SCP_RP_DIV_LO Reg.SCP_RP_DIV_HI rnum).flag Reg.SCP_RP_STS n = d1.flag Reg.SCP_RP_STS n := fun n =>
    congrArg (fun w => bitAt w n) (Dev.reg_set64_ne d1 (by decide) (by decide) rnum)
  have herr' : (((d1.set64 Reg.SCP_RP_DIV_LO Reg.SCP_RP_DIV_HI rnum).raise 0xF57 5).page 0xF57).err = false := (Dev.err_raise _ _ _ _).trans herr
  have hsts' : ∀ n, (((d1.set64 Reg.SCP_RP_DIV_LO Reg.SCP_RP_DIV_HI rnum).raise 0xF57 5).recordErr 0xF57 0x0103 (rnum % 2 ^ 32) cond).flag
      Reg.SCP_RP_STS n = d1.flag Reg.SCP_RP_STS n := fun n =>
    (congrArg (fun w => bitAt w n) (hreg _ (by decide) (by decide) (by decide))).trans (hsts n)
  rw [hsts', hsts', Dev.page_recordErr_first _ _ _ _ _ herr']
  refine ⟨?_, Dev.flag_setFlag_self _ _ _ _ (by decide), rfl, rfl, ?_⟩
  · exact (Dev.flag_setFlag_other _ _ _ _ _ (by decide) (by decide)).trans (Dev.flag_setFlag_self _ _ _ _ (by decide))
  · rw [Dev.get64, Dev.fld, Dev.fld, hreg Reg.SCP_RP_DIV_LO (by decide) (by decide) (by decide),
      hreg Reg.SCP_RP_DIV_HI (by decide) (by decide) (by decide), ← Dev.fld, ← Dev.fld, Dev.set64, Dev.fld_setReg_self, Dev.fld_setReg_ne _ (by decide), Dev.fld_setReg_self, bits_w32 _ _ _ (by decide), bits_w32 _ _ _ (by decide)]
    omega

theorem Dev.rp_ckptRegs (ws : List Nat) (d : Dev) : (d.ckptRegs ws).rp = d.rp := by
  induction d, ws using Dev.ckptRegs.induct with
  | case1 d off v rest skip ih =>
    rw [Dev.ckptRegs]
    refine Eq.trans ih ?_
    split <;> rfl
  | case2 d ws h =>
    rw [Dev.ckptRegs]
    · exact h

theorem Dev.rp_ckptSram (d : Dev) (kind : Nat) (ws : List Nat) : (d.ckptSram kind ws).rp = d.rp := by
  unfold Dev.ckptSram
  split <;> rfl

/-- Before the checkpoint is loaded a record loads it: CKPT_BEGIN sets the clock, the CKPT_END of a checkpoint begun completes it. -/
theorem Dev.rpLoad_spec (d : Dev) (r : RpRecord) (hl : d.rp.loaded = false) : (d.rpLoad r).rp.loaded = (r.kind == 3 && d.rp.ckpt) ∧
    (r.kind = 1 → (d.rpLoad r).tick = r.tick ∧ (d.rpLoad r).rp.ckpt = true ∧ ∀ off, (d.rpLoad r).reg off = d.reg off) := by
  unfold Dev.rpLoad
  split
  · next h => rw [h]; exact ⟨hl, fun _ => ⟨rfl, rfl, fun _ => rfl⟩⟩
  · next h =>
    rw [h]
    refine ⟨?_, fun h => absurd h (by decide)⟩
    split
    · exact hl
    · split
      · rw [Dev.rp_ckptRegs]; exact hl
      · rw [Dev.rp_ckptSram]; exact hl
  · next h =>
    rw [h]
    refine ⟨?_, fun h => absurd h (by decide)⟩
    split
    · next hc => rw [hc]; rfl
    · next hc => rw [Bool.eq_false_iff.mpr hc]; exact hl
  · next h1 h2 h3 => exact ⟨by rw [hl]; simp [show r.kind ≠ 3 from h3], fun h => absurd h h1⟩

theorem Dev.rpDue_late {r : RpRecord} (h : d.rp.loaded = true) (ht : d.tick < r.tick) : d.rpDue r = false := by
  rw [Dev.rpDue, h, decide_eq_false (by omega), decide_eq_false (by omega)]
  rfl

theorem Dev.rpDue_come {r : RpRecord} (ht : r.tick ≤ d.tick) (h : r.tick = d.tick → r.kind ≠ 0x17 ∨ (d.rpPosted (r.src % 16384)).isSome = true) :
    d.rpDue r = true := by
  rcases Nat.lt_or_eq_of_le ht with hlt | heq
  · rw [Dev.rpDue, decide_eq_true hlt, Bool.or_true, Bool.true_or]
  · have hc : (r.kind != 0x17 || (d.rpPosted (r.src % 16384)).isSome) = true := by
      rcases h heq with hk | hp
      · simp [hk]
      · rw [hp, Bool.or_true]
    rw [Dev.rpDue, decide_eq_true heq, hc, Bool.true_and, Bool.or_true]

variable (r : RpRecord) (hready : d.rpReady = true)
include hready

theorem replayInject_diverges (htag : r.tagOk = false) : doReplayInject r d = d.rpDiverge r.rnum 4 := by
  unfold doReplayInject
  rw [hready, htag]
  rfl

theorem replayInject_loads (htag : r.tagOk = true) (hl : d.rp.loaded = false) : doReplayInject r d = (d.rpLoad r).rpConsume r := by
  unfold doReplayInject
  rw [hready, htag, hl]
  rfl

theorem replayInject_injects (htag : r.tagOk = true) (hl : d.rp.loaded = true) (hdue : d.rpDue r = true) :
    doReplayInject r d = (d.rpInject r).rpConsume r := by
  unfold doReplayInject
  rw [hready, htag, hl, hdue]
  rfl

theorem replayInject_waits (htag : r.tagOk = true) (hl : d.rp.loaded = true) (hdue : d.rpDue r = false) : doReplayInject r d = d := by
  unfold doReplayInject
  rw [hready, htag, hl, hdue]
  rfl

omit hready

/-- Of a record that is not injected now no byte is stored. -/
theorem Dev.rpStores_none (h : d.rpActs r = false) : d.rpWindow r = [] ∧ d.rpArray r = [] := by
  unfold Dev.rpWindow Dev.rpArray
  rw [h]
  exact ⟨rfl, rfl⟩

end

theorem exec_replayInject (s : State) (hrun : s.running) (r : RpRecord) : exec (.replayInject r) s = .next { s with
    dev := doReplayInject r s.dev, window := storeWindow s.window (s.dev.rpWindow r), array := storeArray s.array (s.dev.rpArray r) } := by
  obtain ⟨hlost, -, hpg⟩ := hrun
  show execReplayInject r s = _
  rw [execReplayInject, hlost, hpg]
  rfl

theorem exec_replayInject_quiet (s : State) (hrun : s.running) (r : RpRecord) (h : s.dev.rpActs r = false) :
    exec (.replayInject r) s = .next { s with dev := doReplayInject r s.dev } := by
  obtain ⟨hw, ha⟩ := Dev.rpStores_none r h
  rw [exec_replayInject s hrun r, hw, ha]
  rfl

/-- Settles O51: the start, the end, GO, the pause, and what each record does. -/
theorem replayControl : Obligations.ReplayControl := by
  intro s hrun
  refine ⟨fun ho v hrsv i hi => ?_, fun ho v => ⟨_, act_of_running s (doScpRpProdWrite v) hrun, scpRpProdWrite_reg s.dev v ho⟩,
    fun hf hp ht => ⟨_, act_of_running s doReplayPause hrun, replayPause_spec s.dev hf hp ht⟩, fun r hready => ⟨fun htag herr => ?_, fun htag hl => ?_,
      fun htag hl ht => ?_, fun htag hl ht => ⟨fun hk => ?_, fun hk hlt hnone herr => ?_, fun hk i hsome => ?_⟩⟩⟩
  · have hexec : exec i s = .next { s with dev := rpCtl v s.dev } := by
      simp only [List.mem_cons, List.not_mem_nil, or_false] at hi
      rcases hi with rfl | rfl
      · exact act_of_running s (doReplayStart v) hrun
      · exact act_of_running s (doGo v) hrun
    obtain ⟨h1, h2, h3⟩ := rpCtl_spec s.dev v ho hrsv
    exact ⟨fun hoff hv => ⟨fun hok => ⟨_, hexec, (h1 hoff hv).1 hok⟩, fun n hno herr => ⟨_, hexec, (h1 hoff hv).2 n hno herr⟩⟩,
      fun hon hv => ⟨_, hexec, h2 hon hv⟩, fun heq hgo => ⟨_, hexec, h3 heq hgo⟩⟩
  · refine ⟨_, exec_replayInject s hrun r, ?_⟩
    rw [replayInject_diverges r hready htag]
    exact Dev.rpDiverge_spec s.dev r.rnum 4 herr
  · have hacts : s.dev.rpActs r = false := by rw [Dev.rpActs, hl, Bool.and_false, Bool.false_and]
    obtain ⟨hload, hbegin⟩ := Dev.rpLoad_spec s.dev r hl
    obtain ⟨-, -, hrp, htick⟩ := Dev.rpConsume_keeps (s.dev.rpLoad r) r
    refine ⟨_, exec_replayInject_quiet s hrun r hacts, ?_, fun hk => ?_, fun hk hlast => ?_, rfl, rfl⟩
    all_goals
      dsimp only
      rw [replayInject_loads r hready htag hl]
    · rw [hrp, hload]
    · obtain ⟨ht, hc, -⟩ := hbegin hk
      rw [hrp, htick]
      exact ⟨ht, hc⟩
    · obtain ⟨-, -, hreg⟩ := hbegin hk
      rw [Dev.rpConsume, hlast, if_pos rfl, Dev.reg_setReg_self, hreg]
  · have hdue := Dev.rpDue_late hl ht
    rw [exec_replayInject_quiet s hrun r (by rw [Dev.rpActs, hdue, Bool.and_false]), replayInject_waits r hready htag hl hdue]
  · have hdue : s.dev.rpDue r = true := Dev.rpDue_come ht (fun _ => Or.inl (by rw [hk]; decide))
    refine ⟨_, exec_replayInject s hrun r, ?_⟩
    dsimp only
    rw [replayInject_injects r hready htag hl hdue, Dev.flag_rpConsume, Dev.rpInject, hk]
    exact Dev.flag_setFlag_self _ _ _ _ (by decide)
  · have hdue : s.dev.rpDue r = true := Dev.rpDue_come ht (fun heq => absurd heq (by omega))
    refine ⟨_, exec_replayInject s hrun r, ?_⟩
    have hcompl : s.dev.rpInject r = s.dev.rpDiverge r.rnum 3 := by
      rw [Dev.rpInject, hk]
      show s.dev.rpCompl r = _
      rw [Dev.rpCompl, hnone]
    obtain ⟨h1, -, -, h4, -⟩ := Dev.rpDiverge_spec s.dev r.rnum 3 herr
    dsimp only
    rw [replayInject_injects r hready htag hl hdue, Dev.flag_rpConsume, Dev.page_rpConsume, hcompl]
    exact ⟨h1, h4⟩
  · have hdue : s.dev.rpDue r = true := Dev.rpDue_come ht (fun _ => Or.inr (by rw [hsome]; rfl))
    have hcompl : s.dev.rpInject r = { s.dev with rp := { s.dev.rp with seen := i + 1 } } := by
      rw [Dev.rpInject, hk]
      show s.dev.rpCompl r = _
      rw [Dev.rpCompl, hsome]
      exact if_pos rfl
    refine ⟨_, exec_replayInject s hrun r, ?_⟩
    dsimp only
    rw [replayInject_injects r hready htag hl hdue, (Dev.rpConsume_keeps _ r).2.2.1, hcompl]

end Sys2Proof.Machine
end

section
/-! Operations on a key context (R175, R178, R182, R187 to R190, R562). -/

namespace Sys2Proof.Machine

-- In order, one declaration at a time: keeps the check within its memory limit.
set_option Elab.async false

/-- Beside a write's effect, what its arrival changes are reports. -/
theorem Dev.Arrives.reports {d t : Dev} (h : d.Arrives t) : d.Reports t := by
  obtain ⟨cap, pages, rfl, hbody, -, hkey⟩ := h
  refine ⟨?_, fun _ _ => rfl, List.prefix_rfl, fun pg => ⟨fun herr => ?_, fun n hn => ?_⟩, .of_regs rfl rfl⟩
  · unfold Dev.sansReports
    rw [hkey]
  · obtain ⟨h1, h2, h3, h4⟩ := Page.err_of_body (hbody pg)
    exact ⟨h1.trans herr, h2, h3, h4⟩
  · exact (congrArg (fun p : Page => bitAt p.intPend n) (hbody pg)).trans hn

section
variable {d e t : Dev}

/-! ### The record buffer -/

theorem Dev.reg_xbufFold (f : Nat → Word) (l : List Nat) (d : Dev) :
    (∀ w, (l.foldl (fun d w => d.setReg (Reg.CRY_XBUF w) (f w)) d).reg (Reg.CRY_XBUF w) = if w ∈ l then f w else d.reg (Reg.CRY_XBUF w)) ∧
    ∀ off, (∀ w ∈ l, off ≠ Reg.CRY_XBUF w) → (l.foldl (fun d w => d.setReg (Reg.CRY_XBUF w) (f w)) d).reg off = d.reg off := by
  induction l generalizing d with
  | nil => exact ⟨fun _ => rfl, fun _ _ => rfl⟩
  | cons a l ih =>
    obtain ⟨hin, hout⟩ := ih (d.setReg (Reg.CRY_XBUF a) (f a))
    rw [List.foldl_cons]
    refine ⟨fun w => ?_, fun off ho => (hout off (fun w hw => ho w (List.mem_cons_of_mem _ hw))).trans (Dev.reg_setReg_ne d (ho a List.mem_cons_self) _)⟩
    rw [hin w]
    by_cases hwl : w ∈ l
    · rw [if_pos hwl, if_pos (List.mem_cons_of_mem _ hwl)]
    · rw [if_neg hwl]
      by_cases hwa : w = a
      · rw [hwa, if_pos List.mem_cons_self, Dev.reg_setReg_self]
      · rw [if_neg (by simp [hwa, hwl]), Dev.reg_setReg_ne d (by simp only [Reg.CRY_XBUF]; omega)]

/-- The record buffer's registers. -/
def xbufRegs : List Nat := (List.range 32).map Reg.CRY_XBUF

theorem Dev.setXbuf_reg (d : Dev) (x : Nat) (shown : Bool) : (∀ w < 32, (d.setXbuf x shown).reg (Reg.CRY_XBUF w) = w32 (x / 2 ^ (32 * w))) ∧
    ∀ off, off ∉ xbufRegs → (d.setXbuf x shown).reg off = d.reg off := by
  obtain ⟨hin, hout⟩ := Dev.reg_xbufFold (fun w => w32 (x / 2 ^ (32 * w))) (List.range 32) d
  exact ⟨fun w hw => (hin w).trans (if_pos (List.mem_range.mpr hw)), fun off ho => hout off (fun w hw h => ho (List.mem_map.mpr ⟨w, hw, h.symm⟩))⟩

/-- Filling the buffer changes its registers and whether it is shown. -/
theorem Dev.setXbuf_eq (d : Dev) (x : Nat) (shown : Bool) : d.setXbuf x shown = { d with regs := (d.setXbuf x shown).regs, xbufShown := shown } := by
  have hfold : ∀ (l : List Nat) (e : Dev), l.foldl (fun d w => d.setReg (Reg.CRY_XBUF w) (w32 (x / 2 ^ (32 * w)))) e =
      { e with regs := (l.foldl (fun d w => d.setReg (Reg.CRY_XBUF w) (w32 (x / 2 ^ (32 * w)))) e).regs } := by
    intro l
    induction l with
    | nil => exact fun _ => rfl
    | cons a l ih =>
      intro e
      rw [List.foldl_cons, ih]
      rfl
  unfold Dev.setXbuf
  rw [hfold]

theorem Dev.page_setXbuf (d : Dev) (x : Nat) (shown : Bool) (pg : Nat) : (d.setXbuf x shown).page pg = d.page pg := by
  rw [Dev.setXbuf_eq]
  rfl

/-! ### An accepted operation (R187) -/

/-- What an operation that CRY_OP accepts finds: `d` with ERR and FAIL cleared and the buffer emptied. -/
structure Dev.Operates (d e : Dev) : Prop where
  ctxs : e.ctxs = d.ctxs
  kek : e.kek = d.kek
  gPrev : e.gPrev = d.gPrev
  regs : ∀ off, off ∉ Reg.CRY_OP_STS :: (xbufRegs ++ reportRegs) → e.reg off = d.reg off
  sts : ∀ n < 8, e.flag Reg.CRY_OP_STS n = false

theorem Dev.Operates.flag (h : d.Operates e) {off : Nat} (ho : off ∉ Reg.CRY_OP_STS :: (xbufRegs ++ reportRegs)) (n : Nat) : e.flag off n = d.flag off n :=
  congrArg (fun w => bitAt w n) (h.regs off ho)

theorem Dev.Operates.ctx (h : d.Operates e) (c : Nat) : e.ctx c = d.ctx c := by rw [Dev.ctx, h.ctxs, Dev.ctx]

theorem Dev.Operates.paired (h : d.Operates e) : e.paired = d.paired := by
  rw [Dev.paired, Dev.twin, Dev.fld, h.regs _ (by decide), h.gPrev]
  rfl

/-- CRY_OP of Table CRY-10. -/
def cryOpRow : RegDef := ⟨"CRY_OP", 0x400140, 1, 0x4, 0x0, 0x0, 0x0, 0x0, 0xFFFF000F, 0xFFF0, true, false, false⟩

theorem Dev.setXbuf_operates (d : Dev) : d.Operates ((d.setFld Reg.CRY_OP_STS 7 0 0).setXbuf 0 false) := by
  have hreg := (Dev.setXbuf_reg (d.setFld Reg.CRY_OP_STS 7 0 0) 0 false).2
  refine ⟨by rw [Dev.setXbuf_eq]; rfl, by rw [Dev.setXbuf_eq]; rfl, by rw [Dev.setXbuf_eq]; rfl, fun off ho => ?_, fun n hn => ?_⟩
  · rw [List.mem_cons, List.mem_append, not_or, not_or] at ho
    obtain ⟨hsts, hx, -⟩ := ho
    rw [hreg off hx, Dev.reg_setFld_ne _ hsts]
  · rw [Dev.flag, hreg _ (by decide), Dev.reg_setFld, if_pos rfl]
    exact (bitAt_putBits _ _ _ _ _ (by decide)).trans (by simp; omega)

theorem Dev.Operates.of_reports (h : d.Reports e) (h' : e.Operates t) : d.Operates t :=
  ⟨h'.ctxs.trans (congrArg (·.ctxs) h.kept), h'.kek.trans (congrArg (·.kek) h.kept), h'.gPrev.trans (congrArg (·.gPrev) h.kept),
    fun off ho => (h'.regs off ho).trans (h.regs off (fun hin => ho (List.mem_cons_of_mem _ (List.mem_append_right _ hin)))), h'.sts⟩

/-- An accepted operation runs on the context and the record of the moment. -/
theorem cryOp_runs (d : Dev) (v : Word) {op : Nat} (body : Nat → Nat → Dev → Dev) (ho : d.isOpen 0x400) (hkey : bits v 31 16 = 0x4352)
    (hbusy : d.flag Reg.CRY_OP_STS 0 = false) (hop : bits v 3 0 = op) :
    ∃ e, d.Operates e ∧ (v &&& 0xFFF0 = 0 → (e.page 0x400).err = (d.page 0x400).err) ∧
      (body (d.fld Reg.CRY_CSEL 11 0) d.xbuf e).Publishes (cryOp v op body d) := by
  obtain ⟨d1, d2, harr, herr, hclean, hpub⟩ := regWrite_reports d Reg.CRY_OP v (fun _ d =>
    if bits v 31 16 = 0x4352 ∧ !d.flag Reg.CRY_OP_STS 0 then
      let x := d.xbuf
      let d := d.setFld Reg.CRY_OP_STS 7 0 0
      body (d.fld Reg.CRY_CSEL 11 0) x (d.setXbuf 0 false)
    else d) cryOpRow ho rfl
  have hrep : d.Reports d2 := by
    rcases herr with rfl | rfl
    · exact harr.reports
    · exact harr.reports.trans (Dev.Reports.recordErr _ _ _ _ _)
  have hreg : d2.reg = d.reg := by
    funext off
    rcases herr with rfl | rfl
    · exact harr.reg off
    · exact (Dev.reg_recordErr _ _ _ _ _ _).trans (harr.reg off)
  have hx : d2.xbuf = d.xbuf := by rw [Dev.xbuf, hreg, Dev.xbuf]
  have hc : (d2.setFld Reg.CRY_OP_STS 7 0 0).fld Reg.CRY_CSEL 11 0 = d.fld Reg.CRY_CSEL 11 0 :=
    (Dev.fld_setFld_ne _ (by decide) _ _ _ _ _).trans (by rw [Dev.fld, hreg, Dev.fld])
  dsimp only at hpub
  rw [if_pos ⟨hkey, by rw [Dev.flag, hreg, ← Dev.flag, hbusy]; rfl⟩, hx, hc] at hpub
  refine ⟨_, Dev.Operates.of_reports hrep (Dev.setXbuf_operates d2), fun hz => ?_, ?_⟩
  · rw [Dev.page_setXbuf, hclean hz]
    exact (Page.err_of_body (harr.body 0x400)).1
  · unfold cryOp
    rw [if_neg (not_not_intro hop)]
    exact hpub

theorem Dev.Publishes.cipher (h : d.Publishes t) : t.ctxs = d.ctxs ∧ t.ctxPend = d.ctxPend ∧ t.zeroing = d.zeroing ∧ t.xbufShown = d.xbufShown := by
  obtain ⟨_, _, _, rfl, _⟩ := h
  exact ⟨rfl, rfl, rfl, rfl⟩

theorem Dev.Publishes.ctx (h : d.Publishes t) (c : Nat) : t.ctx c = d.ctx c := by rw [Dev.ctx, h.cipher.1, Dev.ctx]

/-! ### Changes of a context -/

theorem Dev.ctx_setCtx_self (d : Dev) (c : Nat) (x : Ctx) : (d.setCtx c x).ctx c = x := SMap.get_set_self _ _ _ _

theorem Dev.ctx_setCtx_ne (d : Dev) {c k : Nat} (h : k ≠ c) (x : Ctx) : (d.setCtx c x).ctx k = d.ctx k := SMap.get_set_ne _ _ _ _ _ h

/-- A context whose counters have moved on is stored, and reported. -/
theorem Dev.moveCtx_reports (d : Dev) (c : Nat) (x y : Ctx) : (d.setCtx c { y with low := d.fewLeft y }).Reports (d.moveCtx c x y) := by
  unfold Dev.moveCtx
  extract_lets few d1 d2
  have h2 : d1.Reports d2 := .ite (Dev.Reports.raise _ _ _) (.refl _)
  exact .ite (h2.trans (Dev.Reports.raise _ _ _)) h2

/-- A change that lands with the end of its own operation: the context is as it becomes, and OP_BUSY falls. -/
theorem Dev.lands_spec (d : Dev) (c : Nat) (x y : Ctx) : ((d.moveCtx c x y).cryDone.ctx c = { y with low := d.fewLeft y }) ∧
    (∀ k, k ≠ c → (d.moveCtx c x y).cryDone.ctx k = d.ctx k) ∧
    (d.moveCtx c x y).cryDone.flag Reg.CRY_OP_STS 1 = d.flag Reg.CRY_OP_STS 1 := by
  have hmove := Dev.moveCtx_reports d c x y
  have hdone : ((d.moveCtx c x y).setFlag Reg.CRY_OP_STS 0 false).Reports (d.moveCtx c x y).cryDone := Dev.Reports.raise _ _ _
  refine ⟨?_, fun k hk => ?_, ?_⟩
  · rw [Dev.ctx_of_reports hdone]
    exact (Dev.ctx_of_reports hmove c).trans (Dev.ctx_setCtx_self _ _ _)
  · rw [Dev.ctx_of_reports hdone]
    exact (Dev.ctx_of_reports hmove k).trans (Dev.ctx_setCtx_ne _ hk _)
  · rw [Dev.flag, hdone.regs _ (by decide), ← Dev.flag, Dev.flag_setFlag_other _ _ _ _ _ (by decide) (by decide), Dev.flag, hmove.regs _ (by decide)]
    rfl

/-- What the copies' update keeps: contexts, changes that wait, the pairing, and the registers of operations. -/
structure Dev.Copies (d t : Dev) : Prop where
  ctxs : t.ctxs = d.ctxs
  ctxPend : t.ctxPend = d.ctxPend
  gPrev : t.gPrev = d.gPrev
  regs : ∀ off, off ∉ postRegs → t.reg off = d.reg off

theorem Dev.Copies.journal (d : Dev) (b : JBatch) : d.Copies (d.journal b) := by
  have h := Dev.Posts.journal d b
  exact ⟨congrArg (·.ctxs) h.kept, congrArg (·.ctxPend) h.kept, congrArg (·.gPrev) h.kept, h.regs⟩

theorem Dev.Copies.setCopy (h : d.Copies t) (c : Nat) (x : CtxCopy) : d.Copies (t.setCopy c x) := ⟨h.ctxs, h.ctxPend, h.gPrev, h.regs⟩

theorem Dev.Copies.keepCtx (d : Dev) (c : Nat) (x : Ctx) : d.Copies (d.keepCtx c x) := (Dev.Copies.journal d _).setCopy _ _

theorem Dev.Copies.keepMarks (d : Dev) (c m0 m1 : Nat) : d.Copies (d.keepMarks c m0 m1) := (Dev.Copies.journal d _).setCopy _ _

theorem Dev.Copies.paired (h : d.Copies t) : t.paired = d.paired := by
  rw [Dev.paired, Dev.twin, Dev.fld, h.regs _ (by decide), h.gPrev]
  rfl

theorem Dev.Copies.ctx (h : d.Copies t) (c : Nat) : t.ctx c = d.ctx c := by rw [Dev.ctx, h.ctxs, Dev.ctx]

/-- While PAIRED a change of a context waits, and its operation goes on. -/
theorem Dev.ctxWait_waits (h : (d.setFlag Reg.CRY_OP_STS 0 true).Copies e) (hp : e.paired = true) (x : CtxChg) :
    (e.ctxWait x).ctx = d.ctx ∧ (e.ctxWait x).flag Reg.CRY_OP_STS 0 = true ∧ ∃ y ∈ (e.ctxWait x).ctxPend, y.ctx = x.ctx := by
  have hwait : e.ctxWait x = { e with ctxPend := e.ctxPend ++ [x] } := if_pos hp
  rw [hwait]
  refine ⟨funext (fun c => h.ctx c), ?_, x, List.mem_append_right _ (List.mem_singleton.mpr rfl), rfl⟩
  exact (congrArg (fun w => bitAt w 0) (h.regs _ (by decide))).trans (Dev.flag_setFlag_self _ _ _ _ (by decide))

/-! ### Imports (R178, R188) -/

/-- A record that passes its checks is imported at once without a twin, and waits for the twin's copy while PAIRED. -/
theorem Dev.importRecord_spec (d : Dev) {c r op : Nat} (hfault : recordFault c r = none) (hpol : leBytes r 0 1 = 2 → d.flag Reg.CRY_POLICY 2 = true) :
    (d.paired = false → ((d.importRecord c r op).ctx c).st = .valid ∧ ((d.importRecord c r op).ctx c).keygen = (d.ctx c).keygen + 1 ∧
      ((d.importRecord c r op).ctx c).key = leBytes r 0x10 64 ∧ ((d.importRecord c r op).ctx c).mode = leBytes r 0 1 ∧
      (d.importRecord c r op).flag Reg.CRY_OP_STS 1 = d.flag Reg.CRY_OP_STS 1 ∧ ∀ k, k ≠ c → (d.importRecord c r op).ctx k = d.ctx k) ∧
    (d.paired = true → (d.importRecord c r op).ctx c = d.ctx c ∧ (d.importRecord c r op).flag Reg.CRY_OP_STS 0 = true ∧
      ∃ y ∈ (d.importRecord c r op).ctxPend, y.ctx = c) := by
  have hbody : d.importRecord c r op = ((d.setFlag Reg.CRY_OP_STS 0 true).keepCtx c (ctxOfRecord r ((d.ctx c).keygen + 1))).ctxWait
      { ctx := c, new := ctxOfRecord r ((d.ctx c).keygen + 1), kind := .imported, mnum := d.gTx } := by
    unfold Dev.importRecord
    rw [hfault]
    exact if_neg (fun h => by rw [hpol h.1] at h; exact absurd h.2 (by decide))
  have hcopy := Dev.Copies.keepCtx (d.setFlag Reg.CRY_OP_STS 0 true) c (ctxOfRecord r ((d.ctx c).keygen + 1))
  rw [hbody]
  generalize (d.setFlag Reg.CRY_OP_STS 0 true).keepCtx c (ctxOfRecord r ((d.ctx c).keygen + 1)) = e at hcopy ⊢
  have hpair : e.paired = d.paired := by
    rw [hcopy.paired, Dev.paired, Dev.twin, Dev.fld_setFlag_ne _ (by decide)]
    rfl
  refine ⟨fun hp => ?_, fun hp => ?_⟩
  · have hland : e.ctxWait { ctx := c, new := ctxOfRecord r ((d.ctx c).keygen + 1), kind := .imported, mnum := d.gTx } =
        (e.moveCtx c Ctx.reset (ctxOfRecord r ((d.ctx c).keygen + 1))).cryDone := if_neg (by rw [hpair, hp]; decide)
    obtain ⟨hself, hother, hflag⟩ := Dev.lands_spec e c Ctx.reset (ctxOfRecord r ((d.ctx c).keygen + 1))
    rw [hland, hself]
    refine ⟨rfl, rfl, rfl, rfl, ?_, fun k hk => (hother k hk).trans (hcopy.ctx k)⟩
    rw [hflag, Dev.flag, hcopy.regs _ (by decide)]
    exact Dev.flag_setFlag_other _ _ _ _ _ (by decide) (by decide)
  · obtain ⟨h1, h2, h3⟩ := Dev.ctxWait_waits hcopy (hpair.trans hp) { ctx := c, new := ctxOfRecord r ((d.ctx c).keygen + 1), kind := .imported, mnum := d.gTx }
    exact ⟨congrFun h1 c, h2, h3⟩

/-- An operation that fails leaves the contexts. -/
theorem Dev.cryFail_spec (d : Dev) (code i0 i1 : Nat) : (d.cryFail code i0 i1).ctxs = d.ctxs ∧ (d.cryFail code i0 i1).flag Reg.CRY_OP_STS 1 = true ∧
    (d.cryFail code i0 i1).fld Reg.CRY_OP_STS 7 4 = code % 16 := by
  unfold Dev.cryFail
  extract_lets d1 d2
  have hrep : d2.Reports ((d2.recordErr 0x400 code i0 i1).raise 0x400 0) := (Dev.Reports.recordErr _ _ _ _ _).trans (Dev.Reports.raise _ _ _)
  have hreg := hrep.regs Reg.CRY_OP_STS (by decide)
  refine ⟨congrArg (·.ctxs) hrep.kept, ?_, ?_⟩
  · rw [Dev.flag, hreg]
    exact (Dev.flag_setFld_other _ _ _ _ _ _ (by decide) (by decide)).trans (Dev.flag_setFlag_self _ _ _ _ (by decide))
  · rw [Dev.fld, hreg]
    exact (Dev.fld_setFld_self _ _ _ _ _ (by decide)).trans (Nat.mod_mod _ _)

/-! ### Zeroising (R189) -/

theorem Dev.ctxs_ctxOver (d : Dev) (x : CtxChg) : (d.ctxOver x).ctxs = d.ctxs := by
  unfold Dev.ctxOver
  split
  · exact congrArg (·.ctxs) (Dev.Reports.raise (d.setFlag Reg.CRY_OP_STS 0 false) 0x400 0).kept
  · split
    · rfl
    · exact congrArg (·.ctxs) (Dev.Reports.raise (d.setSlice (x.ctx / 4) { d.slice (x.ctx / 4) with opBusy := false }) 0x300 0).kept

theorem Dev.ctxs_ctxDrop (d : Dev) (c : Nat) : (d.ctxDrop c).ctxs = d.ctxs :=
  List.foldlRecOn (motive := fun e : Dev => e.ctxs = d.ctxs) _ _ rfl (fun e he x _ => (Dev.ctxs_ctxOver e x).trans he)

/-- A zeroise makes its context ZEROISING with no key, and keeps every other. -/
theorem Dev.startZeroise_spec (d : Dev) (c : Nat) : ((d.startZeroise c).ctx c).st = .zeroising ∧ ((d.startZeroise c).ctx c).key = 0 ∧
    ∀ k, k ≠ c → (d.startZeroise c).ctx k = d.ctx k := by
  unfold Dev.startZeroise
  extract_lets x d1
  rw [Dev.ctx_setCtx_self]
  refine ⟨rfl, rfl, fun k hk => (Dev.ctx_setCtx_ne _ hk _).trans ?_⟩
  refine (Dev.ctx_keepCopy _ _ _).trans ?_
  rw [Dev.ctx, Dev.ctxs_ctxDrop, Dev.ctx]

/-- A zeroise of several contexts makes each of them ZEROISING with no key. -/
theorem Dev.startZeroise_foldl (l : List Nat) (d : Dev) {k : Nat}
    (h : k ∈ l ∨ (d.ctx k).st = .zeroising ∧ (d.ctx k).key = 0) :
    ((l.foldl (fun d k => d.startZeroise k) d).ctx k).st = .zeroising ∧ ((l.foldl (fun d k => d.startZeroise k) d).ctx k).key = 0 := by
  induction l generalizing d with
  | nil => exact h.resolve_left (fun h => nomatch h)
  | cons a l ih =>
    obtain ⟨hst, hkey, hother⟩ := Dev.startZeroise_spec d a
    rw [List.foldl_cons]
    by_cases hka : k = a
    · subst hka
      exact ih _ (Or.inr ⟨hst, hkey⟩)
    · refine ih _ (h.imp (fun h => (List.mem_cons.mp h).resolve_left hka) (fun h => ?_))
      rw [hother k hka]
      exact h

/-- The buffer filled with a record shows it, and the contexts stay. -/
theorem Dev.setXbuf_shows (e : Dev) (x : Nat) (hpub : ((e.setXbuf x true).raise 0x400 0).Publishes t) : t.xbufShown = true ∧
    (∀ w < 32, t.reg (Reg.CRY_XBUF w) = w32 (x / 2 ^ (32 * w))) ∧ t.ctxs = e.ctxs := by
  have hrep := Dev.Reports.raise (e.setXbuf x true) 0x400 0
  refine ⟨hpub.cipher.2.2.2.trans ((congrArg (·.xbufShown) hrep.kept).trans ?_), fun w hw => ?_, hpub.cipher.1.trans ((congrArg (·.ctxs) hrep.kept).trans ?_)⟩
  · rw [Dev.setXbuf_eq]
    rfl
  · have hoff : Reg.CRY_XBUF w ∉ reportRegs := by
      simp only [reportRegs, List.mem_cons, List.not_mem_nil, or_false, Reg.CRY_XBUF, Reg.PWR_MODE_STS, Reg.GLB_DEV_STS, Reg.PWR_BIAS_NOW,
        Reg.SCP_CAP_STS, Reg.SCP_INC_STS]
      omega
    rw [hpub.reg, hrep.regs _ hoff]
    exact (Dev.setXbuf_reg e x true).1 w hw
  · rw [Dev.setXbuf_eq]
    rfl

/-! ### The rows of CRY_OP -/

section
variable (d) (v : Word) (ho : d.isOpen 0x400) (hkey : bits v 31 16 = 0x4352) (hbusy : d.flag Reg.CRY_OP_STS 0 = false)
include ho hkey hbusy

/-- A record taken: without a twin it lands, while PAIRED it waits. -/
def Dev.Taken (d : Dev) (c r : Nat) (t : Dev) : Prop :=
  (d.paired = false → (t.ctx c).st = .valid ∧ (t.ctx c).keygen = (d.ctx c).keygen + 1 ∧ (t.ctx c).key = leBytes r 0x10 64 ∧
    (t.ctx c).mode = leBytes r 0 1 ∧ t.flag Reg.CRY_OP_STS 1 = false ∧ ∀ k, k ≠ c → t.ctx k = d.ctx k) ∧
  (d.paired = true → t.ctx c = d.ctx c ∧ t.flag Reg.CRY_OP_STS 0 = true ∧ ∃ y ∈ t.ctxPend, y.ctx = c)

omit ho hkey hbusy in
theorem Dev.Operates.taken (h : d.Operates e) {c r op : Nat} (hfault : recordFault c r = none)
    (hpol : leBytes r 0 1 = 2 → d.flag Reg.CRY_POLICY 2 = true) (hpub : (e.importRecord c r op).Publishes t) : d.Taken c r t := by
  obtain ⟨hland, hwait⟩ := Dev.importRecord_spec e (op := op) hfault (fun h2 => (h.flag (by decide) 2).trans (hpol h2))
  rw [h.paired] at hland hwait
  refine ⟨fun hp => ?_, fun hp => ?_⟩
  · obtain ⟨h1, h2, h3, h4, h5, h6⟩ := hland hp
    rw [hpub.ctx]
    exact ⟨h1, h2.trans (by rw [h.ctx]), h3, h4, (hpub.flag _ _).trans (h5.trans (h.sts 1 (by decide))),
      fun k hk => (hpub.ctx k).trans ((h6 k hk).trans (h.ctx k))⟩
  · obtain ⟨h1, h2, y, hy, hyc⟩ := hwait hp
    exact ⟨(hpub.ctx c).trans (h1.trans (h.ctx c)), (hpub.flag _ _).trans h2, y, hpub.cipher.2.1 ▸ hy, hyc⟩

theorem importWrapped_spec {c k : Nat} (hc : d.fld Reg.CRY_CSEL 11 0 = c) (hop : bits v 3 0 = 1) (hst : (d.ctx c).st = .empty)
    (hgen : (d.ctx c).keygen ≠ 0xFFFF) (hk : d.kek = some k) :
    (∀ r, rfcUnwrap k 15 d.xbuf = some r → recordFault c r = none → (leBytes r 0 1 = 2 → d.flag Reg.CRY_POLICY 2 = true) →
      d.Taken c r (doImportWrapped v d)) ∧
    (rfcUnwrap k 15 d.xbuf = none → (doImportWrapped v d).ctx c = d.ctx c ∧ (doImportWrapped v d).flag Reg.CRY_OP_STS 1 = true ∧
      (doImportWrapped v d).fld Reg.CRY_OP_STS 7 4 = 1) := by
  obtain ⟨e, h, -, hpub⟩ := cryOp_runs d v (fun c x d =>
    if (d.ctx c).st ≠ .empty then d.cryFail 0x0100 c 1
    else
      match d.kek with
      | none => d.cryFail 0x0104 c 1
      | some k =>
        if (d.ctx c).keygen = 0xFFFF then d.cryFail 0x0107 c 0
        else
          match rfcUnwrap k 15 x with
          | none => d.cryFail 0x0101 c 1
          | some r => d.importRecord c r 1) ho hkey hbusy hop
  rw [hc, h.ctx, h.kek, hk, if_neg (not_not_intro hst)] at hpub
  dsimp only at hpub
  rw [if_neg hgen] at hpub
  refine ⟨fun r hr hfault hpol => ?_, fun hr => ?_⟩
  · rw [hr] at hpub
    exact h.taken d hfault hpol hpub
  · rw [hr] at hpub
    obtain ⟨h1, h2, h3⟩ := Dev.cryFail_spec e 0x0101 c 1
    have hctx : (e.cryFail 0x0101 c 1).ctx c = d.ctx c := by rw [Dev.ctx, h1, ← Dev.ctx, h.ctx]
    exact ⟨(hpub.ctx c).trans hctx, (hpub.flag _ _).trans h2, (hpub.fld _ _ _).trans h3⟩

theorem importPlain_spec {c : Nat} (hc : d.fld Reg.CRY_CSEL 11 0 = c) (hop : bits v 3 0 = 2) (hst : (d.ctx c).st = .empty)
    (hgen : (d.ctx c).keygen ≠ 0xFFFF) (hplain : d.flag Reg.CRY_POLICY 0 = true) (hfault : recordFault c (d.xbuf % 2 ^ 960) = none)
    (hpol : leBytes (d.xbuf % 2 ^ 960) 0 1 = 2 → d.flag Reg.CRY_POLICY 2 = true) : d.Taken c (d.xbuf % 2 ^ 960) (doImportPlain v d) := by
  obtain ⟨e, h, -, hpub⟩ := cryOp_runs d v (fun c x d =>
    if (d.ctx c).st ≠ .empty then d.cryFail 0x0100 c 2
    else if !d.flag Reg.CRY_POLICY 0 then d.cryFail 0x0103 c 2
    else if (d.ctx c).keygen = 0xFFFF then d.cryFail 0x0107 c 0
    else d.importRecord c (x % 2 ^ 960) 2) ho hkey hbusy hop
  rw [hc, h.ctx, if_neg (not_not_intro hst), if_neg (by rw [h.flag (by decide), hplain]; decide), if_neg hgen] at hpub
  exact h.taken d hfault hpol hpub

theorem exportWrapped_spec {c k : Nat} (hc : d.fld Reg.CRY_CSEL 11 0 = c) (hop : bits v 3 0 = 3) (hst : (d.ctx c).st = .valid)
    (hex : (d.ctx c).exportable = true) (hpol : d.flag Reg.CRY_POLICY 1 = true) (hk : d.kek = some k) :
    (doExportWrapped v d).xbufShown = true ∧
    (∀ w < 32, (doExportWrapped v d).reg (Reg.CRY_XBUF w) = w32 (rfcWrap k 15 (ctxRecord c (d.ctx c)) / 2 ^ (32 * w))) ∧
    (doExportWrapped v d).ctxs = d.ctxs := by
  obtain ⟨e, h, -, hpub⟩ := cryOp_runs d v (fun c _ d =>
    let x := d.ctx c
    if x.st ≠ .valid ∨ !x.exportable then d.cryFail 0x0100 c 3
    else
      match d.kek with
      | none => d.cryFail 0x0104 c 3
      | some k =>
        if !d.flag Reg.CRY_POLICY 1 then d.cryFail 0x0103 c 3
        else (d.setXbuf (rfcWrap k 15 (ctxRecord c x)) true).raise 0x400 0) ho hkey hbusy hop
  dsimp only at hpub
  rw [hc, h.ctx, h.kek, hk, if_neg (by rw [hst, hex]; decide)] at hpub
  dsimp only at hpub
  rw [if_neg (by rw [h.flag (by decide), hpol]; decide)] at hpub
  obtain ⟨h1, h2, h3⟩ := Dev.setXbuf_shows e _ hpub
  exact ⟨h1, h2, h3.trans h.ctxs⟩

theorem saveState_spec {c : Nat} (hc : d.fld Reg.CRY_CSEL 11 0 = c) (hop : bits v 3 0 = 4) : (doSaveState v d).xbufShown = true ∧
    (∀ w < 32, (doSaveState v d).reg (Reg.CRY_XBUF w) = w32 (clearRecord c (d.ctx c) / 2 ^ (32 * w))) ∧ (doSaveState v d).ctxs = d.ctxs := by
  obtain ⟨e, h, -, hpub⟩ := cryOp_runs d v (fun c _ d => (d.setXbuf (clearRecord c (d.ctx c)) true).raise 0x400 0) ho hkey hbusy hop
  rw [hc, h.ctx] at hpub
  obtain ⟨h1, h2, h3⟩ := Dev.setXbuf_shows e _ hpub
  exact ⟨h1, h2, h3.trans h.ctxs⟩

end

/-- A context whose marks and counters have been raised to a record's. -/
def Ctx.raised (x : Ctx) (m0 m1 : Nat) : Ctx :=
  { x with mark0 := max x.mark0 m0, mark1 := max x.mark1 m1, invoc0 := max x.invoc0 m0, invoc1 := max x.invoc1 m1 }

theorem Ctx.raised_raised (x : Ctx) (m0 m1 : Nat) : ({ x with
    mark0 := max x.mark0 (x.raised m0 m1).mark0, mark1 := max x.mark1 (x.raised m0 m1).mark1,
    invoc0 := max x.invoc0 (x.raised m0 m1).invoc0, invoc1 := max x.invoc1 (x.raised m0 m1).invoc1 } : Ctx) = x.raised m0 m1 := by
  simp only [Ctx.raised, ← max_assoc, max_self]

/-- A restore raises its context's marks at once without a twin, and waits for the twin's copy while PAIRED. -/
theorem Dev.restoreMarks_spec (d : Dev) (c m0 m1 : Nat) {t : Dev}
    (ht : t = ((d.setFlag Reg.CRY_OP_STS 0 true).keepMarks c ((d.ctx c).raised m0 m1).mark0 ((d.ctx c).raised m0 m1).mark1).ctxWait
      { ctx := c, new := (d.ctx c).raised m0 m1, kind := .restored, mnum := d.gTx }) :
    (d.paired = true → t.ctx c = d.ctx c ∧ t.flag Reg.CRY_OP_STS 0 = true ∧ ∃ y ∈ t.ctxPend, y.ctx = c) ∧
    (d.paired = false → ∃ low, t.ctx c = { (d.ctx c).raised m0 m1 with low := low }) := by
  have hcopy := Dev.Copies.keepMarks (d.setFlag Reg.CRY_OP_STS 0 true) c ((d.ctx c).raised m0 m1).mark0 ((d.ctx c).raised m0 m1).mark1
  generalize (d.setFlag Reg.CRY_OP_STS 0 true).keepMarks c ((d.ctx c).raised m0 m1).mark0 ((d.ctx c).raised m0 m1).mark1 = e at hcopy ht
  have hpair : e.paired = d.paired := by
    rw [hcopy.paired, Dev.paired, Dev.twin, Dev.fld_setFlag_ne _ (by decide)]
    rfl
  have hctx : e.ctx c = d.ctx c := hcopy.ctx c
  refine ⟨fun hp => ?_, fun hp => ?_⟩
  · obtain ⟨h1, h2, h3⟩ := Dev.ctxWait_waits hcopy (hpair.trans hp) { ctx := c, new := (d.ctx c).raised m0 m1, kind := .restored, mnum := d.gTx }
    rw [ht]
    exact ⟨congrFun h1 c, h2, h3⟩
  · have hland : t = (e.moveCtx c (e.ctx c) ((d.ctx c).raised m0 m1)).cryDone := by
      rw [ht, Dev.ctxWait, if_neg (by rw [hpair, hp]; decide), Dev.ctxLands]
      dsimp only
      rw [hctx, Ctx.raised_raised]
      rfl
    rw [hland]
    exact ⟨_, (Dev.lands_spec e c (e.ctx c) ((d.ctx c).raised m0 m1)).1⟩

section
variable (d) (v : Word) (ho : d.isOpen 0x400) (hkey : bits v 31 16 = 0x4352) (hbusy : d.flag Reg.CRY_OP_STS 0 = false)
include ho hkey hbusy

theorem restoreState_spec {c : Nat} (hc : d.fld Reg.CRY_CSEL 11 0 = c) (hop : bits v 3 0 = 5) (hst : (d.ctx c).st = .valid)
    (h2 : leBytes d.xbuf 2 2 = c / 4) (h4 : leBytes d.xbuf 4 1 = c % 4) (h6 : leBytes d.xbuf 6 2 = (d.ctx c).keygen)
    (h8 : leBytes d.xbuf 8 8 = (d.ctx c).label) :
    (d.paired = true → (doRestoreState v d).ctx c = d.ctx c ∧ (doRestoreState v d).flag Reg.CRY_OP_STS 0 = true ∧
      ∃ y ∈ (doRestoreState v d).ctxPend, y.ctx = c) ∧
    (d.paired = false → ∃ low, (doRestoreState v d).ctx c =
      { (d.ctx c).raised (ofMarkField (leBytes d.xbuf 0x10 4)) (ofMarkField (leBytes d.xbuf 0x14 4)) with low := low }) := by
  obtain ⟨e, h, -, hpub⟩ := cryOp_runs d v (fun c r d =>
    if (d.ctx c).st ≠ .valid then d.cryFail 0x0100 c 5
    else if leBytes r 2 2 ≠ c / 4 then d.cryFail 0x0102 c 2
    else if leBytes r 4 1 ≠ c % 4 then d.cryFail 0x0102 c 4
    else if leBytes r 6 2 ≠ (d.ctx c).keygen then d.cryFail 0x0102 c 6
    else if leBytes r 8 8 ≠ (d.ctx c).label then d.cryFail 0x0102 c 8
    else ((d.setFlag Reg.CRY_OP_STS 0 true).keepMarks c ((d.ctx c).raised (ofMarkField (leBytes r 0x10 4)) (ofMarkField (leBytes r 0x14 4))).mark0
        ((d.ctx c).raised (ofMarkField (leBytes r 0x10 4)) (ofMarkField (leBytes r 0x14 4))).mark1).ctxWait
      { ctx := c, new := (d.ctx c).raised (ofMarkField (leBytes r 0x10 4)) (ofMarkField (leBytes r 0x14 4)), kind := .restored, mnum := d.gTx })
    ho hkey hbusy hop
  rw [hc, if_neg (not_not_intro (by rw [h.ctx]; exact hst)), if_neg (not_not_intro h2), if_neg (not_not_intro h4),
    if_neg (not_not_intro (by rw [h.ctx]; exact h6)), if_neg (not_not_intro (by rw [h.ctx]; exact h8))] at hpub
  obtain ⟨hwait, hland⟩ := Dev.restoreMarks_spec e c (ofMarkField (leBytes d.xbuf 0x10 4)) (ofMarkField (leBytes d.xbuf 0x14 4)) rfl
  rw [h.paired, h.ctx] at hwait hland
  have hpub' : Dev.Publishes _ (doRestoreState v d) := hpub
  rw [h.ctx] at hpub'
  refine ⟨fun hp => ?_, fun hp => ?_⟩
  · obtain ⟨h1, h2, y, hy, hyc⟩ := hwait hp
    exact ⟨(hpub'.ctx c).trans h1, (hpub'.flag _ _).trans h2, y, hpub'.cipher.2.1 ▸ hy, hyc⟩
  · obtain ⟨low, hlow⟩ := hland hp
    exact ⟨low, (hpub'.ctx c).trans hlow⟩

theorem zeroise_spec {c : Nat} (hc : d.fld Reg.CRY_CSEL 11 0 = c) (hop : bits v 3 0 = 6) (hst : (d.ctx c).st = .valid) :
    ((doZeroise v d).ctx c).st = .zeroising ∧ ((doZeroise v d).ctx c).key = 0 ∧ (doZeroise v d).flag Reg.CRY_OP_STS 0 = true ∧
    (doZeroise v d).zeroing = [c] ∧ ∀ k, k ≠ c → (doZeroise v d).ctx k = d.ctx k := by
  obtain ⟨e, h, -, hpub⟩ := cryOp_runs d v (fun c _ d =>
    if (d.ctx c).st ≠ .valid then d.cryFail 0x0100 c 6
    else { (d.startZeroise c).setFlag Reg.CRY_OP_STS 0 true with zeroing := [c] }) ho hkey hbusy hop
  dsimp only at hpub
  rw [hc, h.ctx, if_neg (not_not_intro hst)] at hpub
  have hpub' : Dev.Publishes _ (doZeroise v d) := hpub
  obtain ⟨h1, h2, h3⟩ := Dev.startZeroise_spec e c
  rw [hpub'.ctx]
  exact ⟨h1, h2, (hpub'.flag _ _).trans (Dev.flag_setFlag_self (e.startZeroise c) _ _ _ (by decide)), hpub'.cipher.2.2.1,
    fun k hk => (hpub'.ctx k).trans ((h3 k hk).trans (h.ctx k))⟩

theorem zeroiseSlice_spec {c : Nat} (hc : d.fld Reg.CRY_CSEL 11 0 = c) (hop : bits v 3 0 = 7) (hst : (d.ctx c).st = .valid) :
    (doZeroiseSlice v d).flag Reg.CRY_OP_STS 0 = true ∧ ∀ k < 4, (d.ctx (c / 4 * 4 + k)).st = .valid →
      ((doZeroiseSlice v d).ctx (c / 4 * 4 + k)).st = .zeroising ∧ ((doZeroiseSlice v d).ctx (c / 4 * 4 + k)).key = 0 := by
  obtain ⟨e, h, -, hpub⟩ := cryOp_runs d v (fun c _ d =>
    let cs := ([0, 1, 2, 3].map (fun k => c / 4 * 4 + k)).filter (fun k => (d.ctx k).st == .valid)
    let d := cs.foldl (fun d k => d.startZeroise k) d
    if cs.isEmpty then d.raise 0x400 0
    else { d.setFlag Reg.CRY_OP_STS 0 true with zeroing := cs }) ho hkey hbusy hop
  dsimp only at hpub
  obtain ⟨cs, hcs⟩ : ∃ cs, cs = ([0, 1, 2, 3].map (fun k => c / 4 * 4 + k)).filter (fun k => (e.ctx k).st == .valid) := ⟨_, rfl⟩
  rw [hc, ← hcs] at hpub
  have hmem : ∀ k < 4, (d.ctx (c / 4 * 4 + k)).st = .valid → c / 4 * 4 + k ∈ cs := fun k hk hv => by
    rw [hcs, List.mem_filter, h.ctx, hv]
    refine ⟨List.mem_map.mpr ⟨k, ?_, rfl⟩, rfl⟩
    simp only [List.mem_cons, List.not_mem_nil, or_false]
    omega
  have hself : c ∈ cs := by
    have hsum : c / 4 * 4 + c % 4 = c := by omega
    have := hmem (c % 4) (Nat.mod_lt _ (by decide))
    rw [hsum] at this
    exact this hst
  have hne : ¬ cs.isEmpty = true := fun h => by rw [List.isEmpty_iff.mp h] at hself; exact nomatch hself
  rw [if_neg hne] at hpub
  have hpub' : Dev.Publishes _ (doZeroiseSlice v d) := hpub
  refine ⟨(hpub'.flag _ _).trans (Dev.flag_setFlag_self (cs.foldl (fun d k => d.startZeroise k) e) _ _ _ (by decide)), fun k hk hv => ?_⟩
  rw [hpub'.ctx]
  exact Dev.startZeroise_foldl cs e (Or.inl (hmem k hk hv))

theorem cryOpInvalid_spec (hop : bits v 3 0 = 0 ∨ 8 ≤ bits v 3 0) (herr : (d.page 0x400).err = false) :
    (doCryOpInvalid v d).flag Reg.CRY_OP_STS 1 = true ∧ (doCryOpInvalid v d).ctxs = d.ctxs ∧
    (v &&& 0xFFF0 = 0 → ((doCryOpInvalid v d).page 0x400).errCode = 0x0100) := by
  obtain ⟨e, h, hclean, hpub⟩ := cryOp_runs d v (fun c _ d =>
    ((d.setFlag Reg.CRY_OP_STS 1 true).setFld Reg.CRY_OP_STS 7 4 0).recordErr 0x400 0x0100 c (bits v 3 0)) ho hkey hbusy rfl
  have hbody : doCryOpInvalid v d = _ := if_neg (by omega)
  rw [← hbody] at hpub
  obtain ⟨x, hx⟩ : ∃ x, x = (e.setFlag Reg.CRY_OP_STS 1 true).setFld Reg.CRY_OP_STS 7 4 0 := ⟨_, rfl⟩
  rw [← hx] at hpub
  refine ⟨?_, ?_, fun hz => ?_⟩
  · rw [hpub.flag, Dev.flag, Dev.reg_recordErr, ← Dev.flag, hx]
    exact (Dev.flag_setFld_other _ _ _ _ _ _ (by decide) (by decide)).trans (Dev.flag_setFlag_self _ _ _ _ (by decide))
  · exact (hpub.cipher.1.trans (congrArg (·.ctxs) (Dev.Reports.recordErr x _ _ _ _).kept)).trans ((congrArg (·.ctxs) hx).trans h.ctxs)
  · obtain ⟨-, hcode, -, -⟩ := Page.err_of_body (hpub.body 0x400)
    have hnone : (x.page 0x400).err = false := by rw [hx]; exact (hclean hz).trans herr
    rw [hcode, Dev.page_recordErr_first x _ _ _ _ hnone]

end

end

/-- Settles O22: imports, exports, saves, restores, zeroises and unknown operations. -/
theorem cipherOperations : Obligations.CipherOperations := by
  intro s v hrun ho hkey hbusy c x taken imported waits lands
  refine ⟨fun hop hst hgen k hk => ?_, fun hop hst hgen hpol htaken => ?_,
    fun hop hst hex hpol k hk => ⟨_, act_of_running s (doExportWrapped v) hrun, exportWrapped_spec s.dev v ho hkey hbusy rfl hop hst hex hpol hk⟩,
    fun hop => ⟨_, act_of_running s (doSaveState v) hrun, saveState_spec s.dev v ho hkey hbusy rfl hop⟩,
    fun hop hst h2 h4 h6 h8 => ?_,
    fun hop hst => ⟨_, act_of_running s (doZeroise v) hrun, zeroise_spec s.dev v ho hkey hbusy rfl hop hst⟩,
    fun hop hst => ⟨_, act_of_running s (doZeroiseSlice v) hrun, zeroiseSlice_spec s.dev v ho hkey hbusy rfl hop hst⟩,
    fun hop herr => ⟨_, act_of_running s (doCryOpInvalid v) hrun, cryOpInvalid_spec s.dev v ho hkey hbusy hop herr⟩⟩
  · obtain ⟨htake, hfail⟩ := importWrapped_spec s.dev v ho hkey hbusy rfl hop hst hgen hk
    exact ⟨_, act_of_running s (doImportWrapped v) hrun, fun r hr ht => htake r hr ht.1 ht.2, hfail⟩
  · obtain ⟨hfault, hmode⟩ := htaken
    exact ⟨_, act_of_running s (doImportPlain v) hrun, importPlain_spec s.dev v ho hkey hbusy rfl hop hst hgen hpol hfault hmode⟩
  · obtain ⟨hwait, hland⟩ := restoreState_spec s.dev v ho hkey hbusy rfl hop hst h2 h4 h6 h8
    refine ⟨_, act_of_running s (doRestoreState v) hrun, hwait, fun hp => ?_⟩
    obtain ⟨low, hlow⟩ := hland hp
    have hself : (((doRestoreState v s.dev).ctx c).low) = low := congrArg (·.low) hlow
    dsimp only
    rw [hself]
    exact hlow

end Sys2Proof.Machine
end

section
/-! The memory-device mailbox, the sideband, the MSI-X table and the slice heads (R52, R64, R94, R95, R98). -/

namespace Sys2Proof.Machine

-- In order, one declaration at a time: keeps the check within its memory limit.
set_option Elab.async false

section
variable {d e t : Dev}

/-! ### Messages and completions that waited for a head -/

theorem Dev.Posts.pbaSend (d : Dev) (h : Option Nat) (v : Nat) : d.Posts (d.pbaSend h v) := by
  have hsend : ∀ (x : Dev) p o, x.Posts ({ x with pba := p }.emit o) := fun x p o =>
    ⟨rfl, fun _ _ => rfl, List.prefix_append _ _, fun _ => .refl _, .of_regs rfl rfl⟩
  unfold Dev.pbaSend
  split
  · exact .ite (hsend _ _ _) (.refl d)
  · exact .refl d

theorem Dev.Posts.pbaFlush (d : Dev) : d.Posts d.pbaFlush := .foldl (fun e _ => Dev.Posts.pbaSend e _ _) _ _

theorem Dev.Posts.releaseHeldN (n : Nat) (d : Dev) (q : Nat) : d.Posts (Dev.releaseHeldN n d q) := by
  induction n generalizing d with
  | zero => exact .refl d
  | succ n ih =>
    unfold Dev.releaseHeldN
    split
    · exact ((Dev.Posts.setQueue d _ _).trans (Dev.Posts.writeCe _ _ _ _)).trans (ih _)
    · exact .refl d

theorem Dev.Posts.releaseAllHeld (d : Dev) : d.Posts d.releaseAllHeld :=
  .foldl (fun e q => .ite (.refl e) (Dev.Posts.releaseHeldN _ e q)) _ _

theorem Dev.Posts.movesFrom (d : Dev) (f : Nat → Bool) : d.Posts (d.movesFrom f) := .hidden rfl rfl rfl

/-! ### The mailbox (R64) -/

theorem Dev.mailbox_up (d : Dev) (hb : d.barUp = true) (hh : d.hifHeld = false) (code : Nat) (ws : List Nat) (f : Dev → Dev) :
    d.mailbox code ws f = (f d).emit (.mailbox code ws) := if_pos (by rw [hb, hh]; rfl)

theorem mailboxUnsupported_up (d : Dev) (hb : d.barUp = true) (hh : d.hifHeld = false) {op : Nat}
    (hop : op ∉ [0x0100, 0x0101, 0x4000, 0x4200, 0x4201, 0x4202, 0x4204, 0x4300]) :
    doMailboxUnsupported op d = d.emit (.mailbox 0x15 [op]) := by
  have hnot : ¬ [0x0100, 0x0101, 0x4000, 0x4200, 0x4201, 0x4202, 0x4204, 0x4300].contains op = true := by simpa using hop
  exact (if_neg hnot).trans (Dev.mailbox_up d hb hh _ _ _)

/-! ### The sideband (R94, R95) -/

section
variable (d) (hm : d.mode ≤ 2) (hen : d.flag Reg.HIF_I3C_CTL 7 = true)
include hm hen

theorem mctpMessage_served : doMctpMessage 0 d = d.emit (.mctp 0 []) ∧ doMctpMessage 5 d = d.emit (.mctp 5 []) ∧
    doMctpMessage 1 d = d.emit (.mctp 1 [d.health, Config.sensor 0, Config.sensor 1, Config.sensor 2, 105, 115]) ∧
    doMctpMessage 0x7F d = d.emit (.mctp 0x7F (d.healthReport none)) := by
  have hserve : ¬(2 < d.mode || !d.flag Reg.HIF_I3C_CTL 7) = true := by rw [hen, decide_eq_false (by omega)]; decide
  exact ⟨if_neg hserve, if_neg hserve, if_neg hserve, if_neg hserve⟩

theorem mctpMessage_dropped {k : Nat} (hk : k ∉ [0, 1, 5, 0x7F]) :
    (doMctpMessage k d).fld Reg.HIF_I3C_STS 31 16 = min (d.fld Reg.HIF_I3C_STS 31 16 + 1) 0xFFFF ∧ (doMctpMessage k d).out = d.out := by
  simp only [List.mem_cons, List.not_mem_nil, or_false, not_or] at hk
  obtain ⟨h0, h1, h5, h7⟩ := hk
  have hbody : doMctpMessage k d = d.incFld Reg.HIF_I3C_STS 31 16 1 := by
    unfold doMctpMessage
    rw [if_neg (by rw [hen, decide_eq_false (by omega)]; decide), if_neg (by omega), if_neg h1, if_neg h7]
  rw [hbody]
  refine ⟨(Dev.fld_setFld_self _ _ _ _ _ (by decide)).trans ?_, rfl⟩
  exact Nat.mod_eq_of_lt (Nat.lt_of_le_of_lt (Nat.min_le_right _ _) (by decide))

theorem i3cDynamicAddress_spec {a : Nat} (ha : a < 128) : (doI3cDynamicAddress a d).fld Reg.HIF_I3C_STS 6 0 = a ∧
    (doI3cDynamicAddress a d).flag Reg.HIF_I3C_STS 7 = true := by
  have hbody : doI3cDynamicAddress a d = (d.setFld Reg.HIF_I3C_STS 6 0 a).setFlag Reg.HIF_I3C_STS 7 true :=
    if_neg (by rw [hen, decide_eq_false (by omega)]; decide)
  rw [hbody]
  refine ⟨?_, Dev.flag_setFlag_self _ _ _ _ (by decide)⟩
  rw [Dev.fld_setFlag_other _ _ _ _ _ _ (by decide) (by decide), Dev.fld_setFld_self _ _ _ _ _ (by decide)]
  exact Nat.mod_eq_of_lt ha

end

/-! ### The MSI-X table (R52) -/

/-- A dword of the table is stored; the messages that it lets go change no dword. -/
theorem msixTableWrite_spec (d : Dev) {head off : Nat} (v : Word) (hb : d.barUp = true) (hm : d.mgrOn (head % 4) = true) (hoff : off < 0x8000)
    (ha : off % 4 = 0) : (doMsixTableWrite head off v d).msixTbl = SMap.set msixReset d.msixTbl (off / 4) v := by
  have hup : d.headUp (head % 4) = true := by
    rw [Dev.mgrOn, Bool.and_eq_true, Bool.and_eq_true] at hm
    exact hm.1.1
  have hbody : doMsixTableWrite head off v d = ({ ({ d with accHead := some (head % 4) }.capWrite 2 off v) with
      accHead := none, msixTbl := SMap.set msixReset d.msixTbl (off / 4) v } : Dev).pbaFlush := by
    unfold doMsixTableWrite
    rw [hb, hup, hm, decide_eq_false (by omega), if_neg (by decide), if_neg (by decide), if_neg (by simp [ha])]
  rw [hbody]
  exact congrArg (·.msixTbl) (Dev.Posts.pbaFlush _).kept

/-! ### The slice heads (R98) -/

/-- HIF_SLICE_HEAD of Table HIF-1. -/
def sliceHeadRow : RegDef := ⟨"HIF_SLICE_HEAD", 0x102100, 256, 0x4, 0x0, 0x1F1F1F1F, 0x0, 0x0, 0x0, 0xE0E0E0E0, false, false, false⟩

theorem regDef_sliceHead : ∀ w < 256, regDef? (Reg.HIF_SLICE_HEAD w) = some sliceHeadRow ∧ canonOff (Reg.HIF_SLICE_HEAD w) = Reg.HIF_SLICE_HEAD w := by
  have hgrid : ∀ i < 16, ∀ j < 16, regDef? (Reg.HIF_SLICE_HEAD (16 * i + j)) = some sliceHeadRow ∧
      canonOff (Reg.HIF_SLICE_HEAD (16 * i + j)) = Reg.HIF_SLICE_HEAD (16 * i + j) := by decide
  intro w hw
  have h := hgrid (w / 16) (by omega) (w % 16) (by omega)
  rwa [Nat.div_add_mod] at h

/-- A write of slice heads merges the bytes' five bits. -/
theorem mergeWrite_sliceHead (old v : Word) (hrsv : v &&& 0xE0E0E0E0 = 0) : mergeWrite sliceHeadRow old v true = (old &&& 0xE0E0E0E0) ||| v := by
  have hmask : ∀ i < 32, (0xE0E0E0E0 : Word).getLsbD i = !bitAt (w32 0x1F1F1F1F) i := by decide
  apply BitVec.eq_of_getLsbD_eq
  intro i hi
  have hv : (v &&& 0xE0E0E0E0).getLsbD i = false := by rw [hrsv]; simp
  refine (bitAt_mergeWrite rfl old v i).trans ?_
  rw [BitVec.getLsbD_or, BitVec.getLsbD_and, hmask i hi]
  rw [BitVec.getLsbD_and, hmask i hi] at hv
  show (if bitAt (w32 0x1F1F1F1F) i = true then v.getLsbD i else old.getLsbD i) = _
  cases hb : bitAt (w32 0x1F1F1F1F) i
  · rw [hb] at hv
    simp only [Bool.not_false, Bool.and_true] at hv ⊢
    rw [hv, Bool.or_false]
    rfl
  · simp

/-- The heads that a merged byte names are the written byte's. -/
theorem headByteOk_merge (d : Dev) (old v : Word) {i : Nat} (hi : i < 4) :
    d.headByteOk (bits (mergeWrite sliceHeadRow old v true) (8 * i + 7) (8 * i)) = d.headByteOk (bits v (8 * i + 7) (8 * i)) := by
  have hmask : ∀ i < 4, ∀ j < 4, bitAt (w32 (sliceHeadRow.rw ||| sliceHeadRow.rwl)) (8 * i + j) = true := by decide
  have hnib : bits (mergeWrite sliceHeadRow old v true) (8 * i + 7) (8 * i) % 2 ^ 4 = bits v (8 * i + 7) (8 * i) % 2 ^ 4 := by
    apply Nat.eq_of_testBit_eq
    intro j
    rw [Nat.testBit_mod_two_pow, Nat.testBit_mod_two_pow]
    by_cases hj : j < 4
    · rw [testBit_bits, testBit_bits, bitAt_mergeWrite rfl, hmask i hi j hj]
      rfl
    · rw [decide_eq_false hj, Bool.false_and, Bool.false_and]
  unfold Dev.headByteOk
  generalize bits (mergeWrite sliceHeadRow old v true) (8 * i + 7) (8 * i) = a at hnib ⊢
  generalize bits v (8 * i + 7) (8 * i) = b at hnib ⊢
  rw [show a % 4 = b % 4 by omega, show a / 4 % 4 = b / 4 % 4 by omega]

/-- Slice heads that all exist are stored; the moves and the completions that they let go keep them. -/
theorem sliceHeadWrite_stored (d : Dev) {w : Nat} (v : Word) (hw : w < 256) (ho : d.isOpen 0x102) (hrsv : v &&& 0xE0E0E0E0 = 0)
    (hok : ∀ i < 4, d.headByteOk (bits v (8 * i + 7) (8 * i)) = true) :
    (doSliceHeadWrite w v d).reg (Reg.HIF_SLICE_HEAD w) = (d.reg (Reg.HIF_SLICE_HEAD w) &&& 0xE0E0E0E0) ||| v := by
  obtain ⟨hrow, hcanon⟩ := regDef_sliceHead w hw
  have hpage : Reg.HIF_SLICE_HEAD w / 0x1000 = 0x102 := by simp only [Reg.HIF_SLICE_HEAD]; omega
  obtain ⟨d1, harr, hpub⟩ := regWrite_clean (d := d) (Reg.HIF_SLICE_HEAD w) v (fun new d =>
    match (List.range 4).find? (fun i => !d.headByteOk (bits new (8 * i + 7) (8 * i))) with
    | some i => d.recordErr 0x102 0x0105 (4 * w + i) (bits v (8 * i + 7) (8 * i))
    | none =>
      let ss := (List.range 4).filter (fun i => bits new (8 * i + 7) (8 * i) != d.headByte (4 * w + i))
      let d := ss.foldl (fun (d : Dev) i => d.setSlice (4 * w + i) { d.slice (4 * w + i) with headTick := d.tick }) d
      ((storeReg (Reg.HIF_SLICE_HEAD w) new d).movesFrom (fun s => s / 4 == w)).releaseAllHeld) sliceHeadRow (hpage ▸ ho) hrow hrsv
  have hnone : (List.range 4).find? (fun i => !d1.headByteOk (bits (mergeWrite sliceHeadRow (d.reg (canonOff (Reg.HIF_SLICE_HEAD w))) v true)
      (8 * i + 7) (8 * i))) = none := by
    rw [List.find?_eq_none]
    intro i hi
    have hexists : d1.headByteOk = d.headByteOk := by
      obtain ⟨_, _, rfl, _⟩ := harr
      rfl
    rw [headByteOk_merge d1 _ v (List.mem_range.mp hi), hexists, hok i (List.mem_range.mp hi)]
    decide
  rw [hnone, hcanon] at hpub
  dsimp only at hpub
  unfold doSliceHeadWrite
  rw [Nat.mod_eq_of_lt hw]
  refine (hpub.reg _).trans ?_
  have hoff : Reg.HIF_SLICE_HEAD w ∉ postRegs := by
    simp only [postRegs, List.mem_cons, List.not_mem_nil, or_false, Reg.HIF_SLICE_HEAD, Reg.STK_PWC_USED, Reg.STK_PWC_CREDIT, Reg.STK_PWC_STS,
      Reg.MAP_VALID_LO, Reg.MAP_VALID_HI, Reg.MAP_RELOC_LO, Reg.MAP_RELOC_HI, Reg.MAP_DLOG_USED, Reg.MAP_CACHE_DIRTY, Reg.TWN_TX_INV, Reg.TWN_MIR_PEND,
      Reg.VSL_EXP_BEHIND]
    omega
  rw [((Dev.Posts.movesFrom _ _).trans (Dev.Posts.releaseAllHeld _)).regs _ hoff, storeReg, hcanon, Dev.reg_setReg_self]
  exact mergeWrite_sliceHead _ _ hrsv

end

/-- Settles O13: the mailbox, the sideband, the MSI-X table and the slice heads. -/
theorem mailboxAndSideband : Obligations.MailboxAndSideband := by
  intro s hrun
  have box : ∀ (f : Dev → Dev) t, f s.dev = t → act s f = .next { s with dev := t } := fun f t h => h ▸ act_of_running s f hrun
  have side : ∀ (f : Dev → Dev) t, f s.dev = t → actAo s f = .next { s with dev := t } := fun f t h => h ▸ actAo_next s f hrun.1 hrun.2.1
  refine ⟨fun hb hh => ?_, fun hm hen => ?_, fun head off v hb hm hoff ha => ?_, fun w v hw ho hrsv hok =>
    ⟨_, act_of_running s (doSliceHeadWrite w v) hrun, sliceHeadWrite_stored s.dev v hw ho hrsv hok⟩⟩
  · have up := Dev.mailbox_up s.dev hb hh
    exact ⟨box _ _ (up _ _ _), box _ _ (up _ _ _), fun x => box _ _ (up 0 [x] (fun d => { d with alertSet := some x })), box _ _ (up 0 [s.dev.alertSet.getD 0] (fun d => { d with alertSet := s.dev.alertSet })),
      box _ _ (up _ _ _), box _ _ (up _ _ _),
      fun n => box _ _ (up _ _ _), fun v => box _ _ (up _ _ _), fun op hop => box _ _ (mailboxUnsupported_up s.dev hb hh hop)⟩
  · obtain ⟨h0, h5, h1, h7⟩ := mctpMessage_served s.dev hm hen
    exact ⟨side _ _ h0, side _ _ h5, side _ _ h1, side _ _ h7, fun k hk => ⟨_, side _ _ rfl, mctpMessage_dropped s.dev hm hen hk⟩,
      fun a ha => ⟨_, side _ _ rfl, i3cDynamicAddress_spec s.dev hm hen ha⟩⟩
  · have htbl := msixTableWrite_spec s.dev v hb hm hoff ha
    refine ⟨_, act_of_running s (doMsixTableWrite head off v) hrun, ?_, fun i hi => ?_⟩
    all_goals
      dsimp only
      rw [htbl]
    · exact SMap.get_set_self _ _ _ _
    · exact SMap.get_set_ne _ _ _ _ _ hi

end Sys2Proof.Machine
end

section
/-! Posting a completion entry: what it tells the host, and what of its queue it changes (R103, R115, R124, R136). -/

namespace Sys2Proof.Machine

-- In order, one declaration at a time: keeps the check within its memory limit.
set_option Elab.async false

section
variable (d : Dev)

/-! ### What beside the entry leaves the queues -/

theorem Dev.queues_makeResident (pk : Nat) : (d.makeResident pk).queues = d.queues := by
  unfold Dev.makeResident
  split
  · rfl
  · dsimp only
    split <;> rfl

theorem Dev.queues_putEnt (s g : Nat) (e : MapEnt) : (d.putEnt s g e).queues = d.queues := by
  unfold Dev.putEnt
  extract_lets pk d1 d2 d3 d4
  have h3 : d3.queues = d.queues := (Dev.queues_makeResident d2 pk).trans rfl
  have h4 : d4.queues = d3.queues := by
    simp only [d4]
    split <;> rfl
  exact ((Dev.queues_revalid _).trans h4).trans h3

theorem Dev.queues_applyEnt (x : MapChg) : (d.applyEnt x).queues = d.queues := by
  have hinc : ∀ (e : Dev) lo hi n, (e.inc64 lo hi n).queues = e.queues := fun _ _ _ _ => rfl
  unfold Dev.applyEnt
  dsimp only
  split
  · split
    · exact (hinc _ _ _ _).trans (Dev.queues_putEnt d _ _ _)
    · rfl
  · split
    · exact (Dev.queues_dropVers _ _).trans (Dev.queues_putEnt d _ _ _)
    · exact Dev.queues_dropVers d _

theorem Dev.queues_onPost (qid : Nat) (c : Cmd) : (d.onPost qid c).queues = d.queues := by
  have hbehind : ∀ (e : Dev) s gs, (e.countBehind s gs).queues = e.queues := fun e s gs => by
    unfold Dev.countBehind
    dsimp only
    split <;> rfl
  have howned : ∀ (e : Dev) o, (e.applyOwned o).queues = e.queues := fun e o =>
    (Dev.queues_foldl _ _ _ (fun e x => Dev.queues_applyEnt e x)).trans rfl
  unfold Dev.onPost
  exact (howned _ _).trans ((hbehind _ _ _).trans rfl)

theorem Dev.queues_score (src v : Nat) (slice cls group : Option Nat) : (d.score src v slice cls group).queues = d.queues :=
  Dev.queues_foldl _ _ _ (fun e b => by
    dsimp only
    split
    · rfl
    · split <;> rfl)

theorem Dev.queues_scorePost (qid : Nat) (c : Cmd) : (d.scorePost qid c).queues = d.queues :=
  (Dev.queues_ite (Dev.queues_score _ _ _ _ _ _)).trans (Dev.queues_ite (Dev.queues_score d _ _ _ _ _))

theorem Dev.queues_msix (h : Option Nat) (vec : Nat) : (d.msix h vec).queues = d.queues := by rw [Dev.msix_eq]

theorem Dev.tick_capRec (kind src : Nat) (fs : Fields) : (d.capRec kind src fs).tick = d.tick := by rw [Dev.capRec_eq]

theorem Dev.out_capRec (kind src : Nat) (fs : Fields) : (d.capRec kind src fs).out = d.out := by rw [Dev.capRec_eq]

/-! ### The queue of an entry -/

/-- Two states of a queue agree but for what waits to be announced and the stall clock. -/
def Queue.Alike (p q : Queue) : Prop := p = { q with unannTick := p.unannTick, unann := p.unann, stallTick := p.stallTick }

theorem Queue.Alike.refl (q : Queue) : q.Alike q := rfl

theorem Queue.Alike.trans {p q r : Queue} (h : p.Alike q) (h' : q.Alike r) : p.Alike r := by
  unfold Queue.Alike at *
  exact Eq.trans h (by rw [h'])

/-- The fields that agree. -/
theorem Queue.Alike.fields {p q : Queue} (h : p.Alike q) : p.en = q.en ∧ p.sqHead = q.sqHead ∧ p.sqTail = q.sqTail ∧ p.cqPosted = q.cqPosted ∧
    p.cqHead = q.cqHead ∧ p.cmds = q.cmds ∧ p.held = q.held ∧ p.cqFault = q.cqFault := by
  rw [h]
  exact ⟨rfl, rfl, rfl, rfl, rfl, rfl, rfl, rfl⟩

theorem Dev.queue_setQueue_alike (qid : Nat) (q : Queue) : ((d.setQueue qid q).queue qid).Alike q := by
  rw [Dev.queue_setQueue_self]
  rfl

/-- A queue whose ring has taken one entry, a command's own (type 0) or another. -/
def Queue.entered (q : Queue) (typ tag tick : Nat) : Queue :=
  { q with cqPosted := (q.cqPosted + 1) % 65536, cmds := if typ = 0 then ({ q with cmds := q.cmds.filter (fun c => c.tag != tag) }).released tick else q.cmds }

theorem Dev.queue_announce (qid : Nat) : ((d.announce qid).queue qid).Alike (d.queue qid) ∧ ∀ k, k ≠ qid → (d.announce qid).queue k = d.queue k := by
  have hq : (d.announce qid).queues = (d.setQueue qid { d.queue qid with unann := 0 }).queues := by
    unfold Dev.announce
    exact Dev.queues_ite (Dev.queues_msix _ _ _)
  refine ⟨?_, fun k hk => (Dev.queue_congr hq k).trans (Dev.queue_setQueue_ne d hk _)⟩
  rw [Dev.queue_congr hq, Dev.queue_setQueue_self]
  rfl

/-- An entry's writing changes the ring and the commands of its queue, and no other queue. -/
theorem Dev.queue_writeCe (qid h : Nat) (ce : CE) : ((d.writeCe qid h ce).queue qid).Alike ((d.queue qid).entered ce.typ ce.tag d.tick) ∧
    ∀ k, k ≠ qid → (d.writeCe qid h ce).queue k = d.queue k := by
  unfold Dev.writeCe
  extract_lets q n timeb tagw d1 cmd q1 d2 d3 now
  have h1 : d1.queues = d.queues := Dev.queues_capRec d _ _ _
  have h3 : d3.queues = d2.queues := by
    clear_value cmd d2
    cases cmd with
    | none => rfl
    | some c =>
      refine (Dev.queues_ite ?_).trans (Dev.queues_scorePost d2 qid c)
      split
      · exact Dev.queues_onPost _ _ _
      · exact Dev.queues_onFail _ _ _
  have hself : (d2.queue qid).Alike (q.entered ce.typ ce.tag d.tick) := by
    have htick : d1.tick = d.tick := Dev.tick_capRec d _ _ _
    have hq1 : q1.Alike (q.entered ce.typ ce.tag d.tick) := by
      rw [← htick]
      rfl
    exact (Dev.queue_setQueue_alike d1 qid q1).trans hq1
  have hother : ∀ k, k ≠ qid → d3.queue k = d.queue k := fun k hk =>
    (Dev.queue_congr h3 k).trans ((Dev.queue_setQueue_ne d1 hk q1).trans (Dev.queue_congr h1 k))
  have hthis : (d3.queue qid).Alike (q.entered ce.typ ce.tag d.tick) := by rw [Dev.queue_congr h3]; exact hself
  split
  · obtain ⟨hann, hnone⟩ := Dev.queue_announce d3 qid
    exact ⟨hann.trans hthis, fun k hk => (hnone k hk).trans (hother k hk)⟩
  · exact ⟨hthis, hother⟩

/-- An entry is told to the host. -/
theorem Dev.tells_writeCe (qid h : Nat) (ce : CE) : ∃ pasid addr ts sqhd timeb, (ce.typ = 1 → timeb = ce.bitmap) ∧ d.tells (d.writeCe qid h ce)
    (.completion qid pasid h addr ((d.queue qid).cqPosted % 64) (phaseOf (d.queue qid).cqPosted) ts ce.status (ce.info % 2 ^ 16)
      sqhd (tagWord ce.tag (if ce.typ = 1 then 1 else 0) (d.queue qid).cqPosted) timeb) := by
  unfold Dev.writeCe
  extract_lets q n timeb tagw d1 cmd q1 d2 d3 now
  have hout : d1.out = d.out ++ [_] := congrArg (· ++ [_]) (Dev.out_capRec d _ _ _)
  have hlast : d2.out <+: (if q1.ien ∧ now then d3.announce qid else d3).out := by
    have h3 : d2.Posts d3 := by
      clear_value cmd d2
      cases cmd with
      | none => exact .refl _
      | some c =>
        exact (Dev.Posts.scorePost _ _ _).trans <| (Dev.Posts.setSlice _ _ _).trans <|
          Dev.Frame.ite (Dev.Frame.ite (Dev.Posts.onPost _ _ _) (Dev.Posts.onFail _ _ _)) (.refl _)
    exact (h3.trans (Dev.Frame.ite (Dev.Posts.announce _ _) (.refl _))).out
  have htell : ∀ o, d1.out = d.out ++ [o] → d.tells d1 o := fun o ho => by
    rw [Dev.tells, ho, List.drop_left]
    exact List.mem_singleton.mpr rfl
  exact ⟨_, _, _, _, timeb, (fun ht => if_pos ht), Dev.tells_within List.prefix_rfl (htell _ hout) hlast⟩

/-- The device without what an entry's writing changes beside the end of a write. -/
def Dev.sansEntry (d : Dev) : Dev :=
  { d with out := [], pba := [], cap := { Cap.reset with key := d.cap.key }, banks := [], sbWait := [], queues := [], slices := [] }

theorem Dev.sansEntry_score (src v : Nat) (slice cls group : Option Nat) : (d.score src v slice cls group).sansEntry = d.sansEntry ∧
    (d.score src v slice cls group).slices = d.slices :=
  List.foldlRecOn (motive := fun e : Dev => e.sansEntry = d.sansEntry ∧ e.slices = d.slices) _ _ ⟨rfl, rfl⟩ (fun e he b _ => by
    dsimp only
    split
    · exact he
    · split <;> exact he)

theorem Dev.sansEntry_msix (h : Option Nat) (vec : Nat) : (d.msix h vec).sansEntry = d.sansEntry ∧ (d.msix h vec).slices = d.slices := by
  rw [Dev.msix_eq]
  exact ⟨rfl, rfl⟩

/-- An entry that ends no write changes of its slice what is in flight, of the rest only queues, outputs and samples. -/
theorem Dev.writeCe_quiet (qid h : Nat) (ce : CE) (hcmd : ce.typ = 0 → ∀ c, (d.queue qid).cmd? ce.tag = some c → writeType c.op = false) :
    (d.writeCe qid h ce).sansEntry = d.sansEntry ∧
    ∀ s, (d.writeCe qid h ce).slice s = { d.slice s with inflight := ((d.writeCe qid h ce).slice s).inflight } := by
  unfold Dev.writeCe
  extract_lets q n timeb tagw d1 cmd q1 d2 d3 now
  have h2 : d2.sansEntry = d.sansEntry ∧ d2.slices = d.slices := by
    have hkey : (d.capRec 0x17 qid [(16, entryOf d.tick ce.status ce.info q.sqHead tagw timeb)]).cap.key = d.cap.key := Dev.capKey_capAdd d _ _ _ _ _ _
    have hcap := Dev.capRec_eq d 0x17 qid [(16, entryOf d.tick ce.status ce.info q.sqHead tagw timeb)]
    constructor
    · show (d.capRec 0x17 qid [(16, entryOf d.tick ce.status ce.info q.sqHead tagw timeb)]).sansEntry = _
      rw [hcap]
      unfold Dev.sansEntry
      dsimp only
      rw [hkey]
    · show (d.capRec 0x17 qid [(16, entryOf d.tick ce.status ce.info q.sqHead tagw timeb)]).slices = _
      rw [hcap]
  have h3 : d3.sansEntry = d2.sansEntry ∧ ∀ s, d3.slice s = { d2.slice s with inflight := (d3.slice s).inflight } := by
    have hwrite : ∀ c, cmd = some c → writeType c.op = false := fun c hc => by
      simp only [cmd] at hc
      split at hc
      · next ht => exact hcmd ht c hc
      · exact nomatch hc
    clear_value cmd d2
    cases cmd with
    | none => exact ⟨rfl, fun _ => rfl⟩
    | some c =>
      have hscore : (d2.scorePost qid c).sansEntry = d2.sansEntry ∧ (d2.scorePost qid c).slices = d2.slices := by
        have hite : ∀ {p : Prop} [Decidable p] (a b : Dev), a.sansEntry = b.sansEntry ∧ a.slices = b.slices →
            (if p then a else b).sansEntry = b.sansEntry ∧ (if p then a else b).slices = b.slices := fun a b hab => by
          split
          · exact hab
          · exact ⟨rfl, rfl⟩
        unfold Dev.scorePost
        extract_lets s lat src e1
        have he1 : e1.sansEntry = d2.sansEntry ∧ e1.slices = d2.slices := hite _ _ (Dev.sansEntry_score d2 _ _ _ _ _)
        have he2 := hite (p := 0 < c.wakeUs) _ _ (Dev.sansEntry_score e1 4 c.wakeUs s (some c.cls) (some 0))
        exact ⟨he2.1.trans he1.1, he2.2.trans he1.2⟩
      simp only [d3, hwrite c rfl]
      generalize d2.scorePost qid c = e at hscore
      refine ⟨hscore.1, fun s => ?_⟩
      have hslice : e.slice s = d2.slice s := by rw [Dev.slice, hscore.2, Dev.slice]
      rw [← hslice]
      by_cases hs : s = qid / 16
      · rw [hs]
        show SMap.get _ _ _ = _
        rw [if_neg (by decide)]
        exact (SMap.get_set_self _ _ _ _).trans (by rw [Dev.slice, Dev.slice, Dev.setSlice]; dsimp only; rw [SMap.get_set_self])
      · show SMap.get _ _ _ = _
        rw [if_neg (by decide)]
        exact (SMap.get_set_ne _ _ _ _ _ hs).trans (by rw [Dev.slice, Dev.slice, Dev.setSlice]; dsimp only; rw [SMap.get_set_ne _ _ _ _ _ hs])
  have hann : ∀ e : Dev, (e.announce qid).sansEntry = e.sansEntry ∧ (e.announce qid).slices = e.slices := fun e => by
    unfold Dev.announce
    dsimp only
    split
    · exact Dev.sansEntry_msix _ _ _
    · exact ⟨rfl, rfl⟩
  have hslices : ∀ s, d2.slice s = d.slice s := fun s => by rw [Dev.slice, h2.2, Dev.slice]
  split
  · refine ⟨(hann d3).1.trans (h3.1.trans h2.1), fun s => ?_⟩
    have hs : (d3.announce qid).slice s = d3.slice s := by rw [Dev.slice, (hann d3).2, Dev.slice]
    rw [hs, ← hslices s]
    exact h3.2 s
  · exact ⟨h3.1.trans h2.1, fun s => hslices s ▸ h3.2 s⟩

end

/-! ### Posting now -/

section
variable {d e t : Dev} {qid : Nat}

theorem Dev.headUp_congr (hl : ∀ k < 4, t.reg (Reg.HIF_LINK_STS k) = d.reg (Reg.HIF_LINK_STS k)) (h : Nat) : t.headUp h = d.headUp h := by
  unfold Dev.headUp Dev.flag
  by_cases hh : h < 4
  · rw [hl h hh]
  · rw [decide_eq_false hh, Bool.false_and, Bool.false_and]

/-- The head of a slice follows from its byte and the links' states. -/
theorem Dev.sliceHead_congr {s : Nat} (hs : t.reg (Reg.HIF_SLICE_HEAD (s / 4)) = d.reg (Reg.HIF_SLICE_HEAD (s / 4)))
    (hl : ∀ k < 4, t.reg (Reg.HIF_LINK_STS k) = d.reg (Reg.HIF_LINK_STS k)) : t.sliceHead s = d.sliceHead s := by
  unfold Dev.sliceHead Dev.headByte Dev.fld
  rw [hs]
  simp only [Dev.headUp_congr hl]

theorem Dev.canPost_of_queue (hp : d.canPost qid) (hh : e.sliceHead (qid / 16) = d.sliceHead (qid / 16)) (hq : e.queue qid = d.queue qid) :
    e.canPost qid := by
  obtain ⟨h1, h2, h3⟩ := hp
  exact ⟨hh ▸ h1, hq ▸ h2, hq ▸ h3⟩

theorem Dev.post_now (hp : d.canPost qid) (ce : CE) : ∃ h, d.post qid ce = d.writeCe qid h ce := by
  obtain ⟨hhead, hfault, hheld⟩ := hp
  obtain ⟨h, hh⟩ := Option.ne_none_iff_exists'.mp hhead
  refine ⟨h, ?_⟩
  unfold Dev.post
  dsimp only
  rw [hh, hfault, hheld]
  rfl

/-- An entry that can be written is posted at the ring's next place. -/
theorem Dev.posts_post (hp : e.canPost qid) {tag typ st info : Nat} (hty : typ ≠ 1) (hq : (e.queue qid).cqPosted = (d.queue qid).cqPosted)
    (hout : d.out <+: e.out) (ht : (e.post qid ⟨tag, typ, st, info, 0⟩).out <+: t.out) : d.posts t qid tag st info := by
  obtain ⟨h, hpost⟩ := Dev.post_now hp ⟨tag, typ, st, info, 0⟩
  obtain ⟨pasid, addr, ts, sqhd, timeb, -, htell⟩ := Dev.tells_writeCe e qid h ⟨tag, typ, st, info, 0⟩
  rw [hpost] at ht
  rw [hq, if_neg hty] at htell
  exact ⟨pasid, h, addr, ts, sqhd, timeb, Dev.tells_within hout htell ht⟩

end

end Sys2Proof.Machine
end

section
/-! Doorbells, fetch of submission entries, ring faults, release of held commands and dispatch of units (R100, R101, R105, R113, R122, R125, R143). -/

namespace Sys2Proof.Machine

-- In order, one declaration at a time: keeps the check within its memory limit.
set_option Elab.async false

/-! ### Commands of a queue -/

/-- A command replaced is found under its tag. -/
theorem Queue.cmd_setCmd {q : Queue} {tag : Nat} {c c' : Cmd} (h : q.cmd? tag = some c) (ht : c'.tag = c.tag) : (q.setCmd c').cmd? tag = some c' := by
  have htag : c.tag = tag := by simpa using List.find?_some h
  have hfind : ∀ l : List Cmd, l.find? (fun c => c.tag == tag) = some c →
      (l.map (fun x => if x.tag == c'.tag then c' else x)).find? (fun c => c.tag == tag) = some c' := by
    intro l
    induction l with
    | nil => exact fun h => nomatch h
    | cons x l ih =>
      intro hl
      rw [List.find?_cons] at hl
      rw [List.map_cons, List.find?_cons]
      by_cases hx : x.tag = tag
      · rw [if_pos (by rw [hx, ht, htag]; exact beq_self_eq_true _), show (c'.tag == tag) = true by rw [ht, htag]; exact beq_self_eq_true _]
      · have hx' : (x.tag == tag) = false := by simpa using hx
        rw [if_neg (by rw [ht, htag, hx']; decide), hx']
        rw [hx'] at hl
        exact ih hl
  exact hfind q.cmds h

/-- A command replaced keeps which tags are outstanding. -/
theorem Queue.cmd_setCmd_isSome (q : Queue) (c : Cmd) {tag : Nat} (h : (q.cmd? tag).isSome = true) : ((q.setCmd c).cmd? tag).isSome = true := by
  unfold Queue.cmd? Queue.setCmd at *
  rw [List.find?_isSome] at h ⊢
  obtain ⟨x, hx, ht⟩ := h
  refine ⟨if x.tag == c.tag then c else x, List.mem_map.mpr ⟨x, hx, rfl⟩, ?_⟩
  split
  · next heq => rw [← beq_iff_eq.mp heq]; exact ht
  · exact ht

section
variable (d : Dev) {qid : Nat}

theorem Dev.queue_setCmd (c : Cmd) : ((d.setCmd qid c).queue qid).Alike ((d.queue qid).setCmd c) := Dev.queue_setQueue_alike d qid _

theorem Queue.Alike.cmd {p q : Queue} (h : p.Alike q) (tag : Nat) : p.cmd? tag = q.cmd? tag := by
  rw [Queue.cmd?, h.fields.2.2.2.2.2.1, Queue.cmd?]

/-! ### Doorbells (R100, R101) -/

theorem Dev.queues_emit (o : Out) : (d.emit o).queues = d.queues := rfl

/-- Held completions that are written move no head. -/
theorem Dev.cqHead_releaseHeldN (n : Nat) (d : Dev) : ((Dev.releaseHeldN n d qid).queue qid).cqHead = (d.queue qid).cqHead := by
  induction n generalizing d with
  | zero => rfl
  | succ n ih =>
    unfold Dev.releaseHeldN
    split
    · next ce rest h _ _ =>
      obtain ⟨-, -, -, -, hce, -⟩ := (Dev.queue_writeCe (d.setQueue qid { d.queue qid with held := rest }) qid h ce).1.fields
      exact (ih _).trans (hce.trans (Dev.queue_setQueue_alike d qid _).fields.2.2.2.2.1)
    · rfl

/-- A ring fault stops its queue and changes nothing else of it. -/
theorem Dev.queue_ringFault (completion : Bool) : ((d.ringFault qid completion).queue qid).Alike
    { d.queue qid with fault := true, cqFault := (d.queue qid).cqFault || completion } := by
  unfold Dev.ringFault
  rw [Dev.queue_congr (d := d.setQueue qid { d.queue qid with fault := true, cqFault := (d.queue qid).cqFault || completion }) (by simp)]
  exact Dev.queue_setQueue_alike d qid _

theorem Dev.cqHead_ringFault (completion : Bool) : ((d.ringFault qid completion).queue qid).cqHead = (d.queue qid).cqHead :=
  (Dev.queue_ringFault d completion).fields.2.2.2.2.1

theorem Dev.cqHead_retryHeld : ((d.retryHeld qid).queue qid).cqHead = (d.queue qid).cqHead := by
  unfold Dev.retryHeld
  dsimp only
  split
  · exact Dev.cqHead_releaseHeldN _ d
  · split
    · rfl
    · split
      · exact (Dev.cqHead_releaseHeldN _ _).trans (Dev.queue_setQueue_alike d.drawn qid _).fields.2.2.2.2.1
      · exact Dev.cqHead_ringFault d.drawn true

section
variable {sl qp : Nat} {v : Word} (htakes : d.TakesDoorbells) (hsl : sl < 1024) (hqp : qp < 16) (hen : (d.queue (16 * sl + qp)).en = true)
include htakes hsl hqp hen

/-- SQ_TAIL_DB takes a tail of at most 32 unfetched entries. -/
theorem doSqTailDbWrite_taken (hreset : (d.queue (16 * sl + qp)).resetting = false) (hst : (d.slice sl).st ∈ [SliceSt.active, .freezing, .frozen])
    (hrange : (bits v 15 0 + 65536 - (d.queue (16 * sl + qp)).sqHead) % 65536 ≤ 32) :
    ((doSqTailDbWrite sl qp v d).queue (16 * sl + qp)).sqTail = bits v 15 0 ∧
    ∀ k, k ≠ 16 * sl + qp → (doSqTailDbWrite sl qp v d).queue k = d.queue k := by
  have hlat := Dev.onlyLatched_tailLatched d (16 * sl + qp) v
  obtain ⟨hen', hreset', hhead', -, -⟩ := hlat.ring.fields
  have hserves : ((d.slice sl).st == .unbound || (d.slice sl).st == .clearing || (d.slice sl).st == .resetting) = false := by
    simp only [List.mem_cons, List.not_mem_nil, or_false] at hst
    rcases hst with h | h | h <;> rw [h] <;> rfl
  have htaken : ((d.slice sl).st == .unbound || (d.slice sl).st == .clearing || (d.slice sl).st == .resetting ||
      ((d.tailLatched (16 * sl + qp) v).queue (16 * sl + qp)).resetting ||
      !((d.tailLatched (16 * sl + qp) v).queue (16 * sl + qp)).en) = false := by
    rw [hserves, hreset', hreset, hen', hen]
    rfl
  have hnot : ¬ 32 < (bits v 15 0 + 65536 - ((d.tailLatched (16 * sl + qp) v).queue (16 * sl + qp)).sqHead) % 65536 := by rw [hhead']; omega
  have hbody : ∃ q', q'.sqTail = bits v 15 0 ∧ doSqTailDbWrite sl qp v d = (d.tailLatched (16 * sl + qp) v).setQueue (16 * sl + qp) q' := by
    rw [doSqTailDbWrite, Nat.mod_eq_of_lt hsl, Nat.mod_eq_of_lt hqp, htakes.rpFence, htakes.undropped, if_neg Bool.false_ne_true,
      if_neg Bool.false_ne_true]
    exact ⟨_, rfl, (if_neg (ne_true_of_eq_false htaken)).trans (if_neg hnot)⟩
  obtain ⟨q', hq', hbody⟩ := hbody
  rw [hbody]
  exact ⟨(Dev.queue_setQueue_alike _ _ q').fields.2.2.1.trans hq', fun k hk => (Dev.queue_setQueue_ne _ hk q').trans (hlat.others k hk)⟩

/-- CQ_HEAD_DB takes a head within the entries posted. -/
theorem doCqHeadDbWrite_taken (hst : (d.slice sl).st ∈ [SliceSt.active, .freezing, .frozen])
    (hrange : (bits v 15 0 + 65536 - (d.queue (16 * sl + qp)).cqHead) % 65536 ≤
      ((d.queue (16 * sl + qp)).cqPosted + 65536 - (d.queue (16 * sl + qp)).cqHead) % 65536) :
    ((doCqHeadDbWrite sl qp v d).queue (16 * sl + qp)).cqHead = bits v 15 0 := by
  obtain ⟨hen', -, -, hposted', hhead'⟩ := (Dev.onlyLatched_headLatched d (16 * sl + qp) v).ring.fields
  have htaken : ((d.slice sl).st == .unbound || (d.slice sl).st == .clearing ||
      !((d.headLatched (16 * sl + qp) v).queue (16 * sl + qp)).en) = false := by
    rw [hen', hen]
    simp only [List.mem_cons, List.not_mem_nil, or_false] at hst
    rcases hst with h | h | h <;> rw [h] <;> rfl
  rw [← hposted', ← hhead'] at hrange
  have hbody : ∃ q', q'.cqHead = bits v 15 0 ∧
      doCqHeadDbWrite sl qp v d = (((d.headLatched (16 * sl + qp) v).setQueue (16 * sl + qp) q').retryHeld (16 * sl + qp)).pbaSettle := by
    rw [doCqHeadDbWrite, Nat.mod_eq_of_lt hsl, Nat.mod_eq_of_lt hqp, htakes.rpFence, htakes.undropped, if_neg Bool.false_ne_true,
      if_neg Bool.false_ne_true]
    exact ⟨_, rfl, (if_neg (ne_true_of_eq_false htaken)).trans (if_neg (Nat.not_lt.mpr hrange))⟩
  obtain ⟨q', hq', hbody⟩ := hbody
  rw [hbody]
  exact (Dev.cqHead_retryHeld _).trans ((Dev.queue_setQueue_alike _ _ q').fields.2.2.2.2.1.trans hq')

end

/-! ### Ring faults (R105) -/

theorem Dev.ringFault_spec (completion : Bool) (herr : (d.page 0x200).err = false) : ((d.ringFault qid completion).queue qid).fault = true ∧
    ((d.ringFault qid completion).page 0x200).errCode = 0x0101 ∧ bitAt ((d.ringFault qid completion).page 0x200).intPend 1 = true := by
  refine ⟨?_, ?_⟩
  · rw [Dev.queue_ringFault d completion]
  · unfold Dev.ringFault
    rw [Dev.intPend_raise _ _ _ (by decide)]
    refine ⟨?_, (bitAt_putBit _ _ _ _ (by decide)).trans (if_pos rfl)⟩
    rw [Dev.page_recordErr_first _ _ _ _ _ (by exact herr)]

/-! ### Units (R143, R147) -/

/-- The units that the share admits now are dispatched. -/
theorem Dev.admitUnits_spec {tag n k : Nat} {c : Cmd} (hc : (d.queue qid).cmd? tag = some c)
    (hk : min (min n (c.nblk - c.units)) ((d.slice (qid / 16)).shareAct * 256 - (d.slice (qid / 16)).inflight) = k) (hpos : 0 < k) :
    ((d.admitUnits qid c n).2.queue qid).cmd? tag = some { c with
      units := c.units + k, sgen := (d.slice (qid / 16)).sgen, qgen := (d.queue qid).qgen, ioTick := if c.units = 0 then d.tick else c.ioTick
      heads := c.heads ++ List.replicate k ((d.sliceHead (qid / 16)).getD (d.headByte (qid / 16) % 4)) } ∧
    ((d.admitUnits qid c n).2.slice (qid / 16)).inflight = (d.slice (qid / 16)).inflight + k := by
  unfold Dev.admitUnits
  dsimp only
  rw [hk, if_neg (by omega)]
  dsimp only
  refine ⟨?_, ?_⟩
  · rw [(Dev.queue_setCmd _ _).cmd]
    exact Queue.cmd_setCmd hc rfl
  · exact congrArg Slice.inflight (SMap.get_set_self _ _ _ _)

theorem hazardRelease_dispatches {tag : Nat} {c : Cmd} (hqid : qid < 16384) (htag : tag < 32) (hc : (d.queue qid).cmd? tag = some c) (hd : c.done = false)
    (hf : (d.queue qid).free c = true) (hh : c.wasHeld = true) (hs : c.started = false) (hw : c.waiting = false)
    (ho : (d.queue qid).inOrder c = true) (hop : (readType c.op || writeType c.op) = true) (hcut : d.cutRuns (qid / 16) = false)
    (hheld : d.dataHeld = false) : doHazardRelease qid tag d = (d.admitUnits qid c c.nblk).2 := by
  unfold doHazardRelease
  dsimp only
  rw [Nat.mod_eq_of_lt hqid, Nat.mod_eq_of_lt htag, hc]
  dsimp only
  rw [hh, hd, hs, hw, hf, ho, hop, hcut, hheld]
  rfl

theorem hazardRelease_waits {tag : Nat} {c : Cmd} (hqid : qid < 16384) (htag : tag < 32) (hc : (d.queue qid).cmd? tag = some c)
    (h : c.wasHeld = false ∨ c.started = true) : doHazardRelease qid tag d = d := by
  unfold doHazardRelease
  dsimp only
  rw [Nat.mod_eq_of_lt hqid, Nat.mod_eq_of_lt htag, hc]
  dsimp only
  rw [if_neg]
  rcases h with h | h <;> rw [h] <;> simp

theorem unitDispatch_dispatches {tag : Nat} {c : Cmd} (hqid : qid < 16384) (htag : tag < 32) (hc : (d.queue qid).cmd? tag = some c) (hd : c.done = false)
    (hf : (d.queue qid).free c = true) (hop : (writeType c.op || readType c.op) = true) (hw : c.waiting = false) (hn : c.units < c.nblk)
    (hshare : d.shareOpen (qid / 16) = true) (ho : 0 < c.units ∨ (d.queue qid).inOrder c = true) (hcut : d.cutRuns (qid / 16) = false)
    (hv : d.vslHeld = false) (hm : d.mapHeld = false) (hh : d.hifHeld = false) : doUnitDispatch qid tag d = (d.admitUnits qid c 1).2 := by
  have hstart : (c.started || (d.queue qid).inOrder c) = true := by
    rcases ho with h | h
    · rw [Cmd.started, decide_eq_true h]
      rfl
    · rw [h, Bool.or_true]
  unfold doUnitDispatch
  dsimp only
  rw [Nat.mod_eq_of_lt hqid, Nat.mod_eq_of_lt htag, hc]
  dsimp only
  rw [hop, hd, hw, hf, decide_eq_true hn, hstart, hcut, hshare, hv, hm, hh]
  rfl

/-! ### Fetch (R113, R114, R121, R122) -/

/-- From `d` to `t` the slots of a write are reserved or waited for: of the queue only the command may change. -/
theorem Dev.reserveSlots_keeps (c : Cmd) (hin : ((d.queue qid).cmd? c.tag).isSome = true) :
    ((d.reserveSlots qid c).queue qid).sqHead = (d.queue qid).sqHead ∧ (d.reserveSlots qid c).fetchNo = d.fetchNo ∧
    (((d.reserveSlots qid c).queue qid).cmd? c.tag).isSome = true := by
  have hset : ∀ (e : Dev) (c' : Cmd), e.queues = d.queues → e.fetchNo = d.fetchNo → ((e.setCmd qid c').queue qid).sqHead = (d.queue qid).sqHead ∧
      (e.setCmd qid c').fetchNo = d.fetchNo ∧ (((e.setCmd qid c').queue qid).cmd? c.tag).isSome = true := fun e c' hq hn => by
    have hqueue := Dev.queue_congr hq qid
    refine ⟨(Dev.queue_setCmd e c').fields.2.1.trans (by rw [hqueue]; rfl), hn, ?_⟩
    rw [(Dev.queue_setCmd e c').cmd, hqueue]
    exact Queue.cmd_setCmd_isSome _ _ hin
  have hraise : ∀ (e : Dev) pg bit, (e.raise pg bit).fetchNo = e.fetchNo := fun e pg bit => by rw [Dev.raise_eq]
  have htake : ∀ n, (d.takeSlots n).queues = d.queues ∧ (d.takeSlots n).fetchNo = d.fetchNo := fun n => by
    unfold Dev.takeSlots
    extract_lets u rise d1 d2 d3
    have h2 : d2.queues = d.queues ∧ d2.fetchNo = d.fetchNo := by
      simp only [d2]
      split <;> exact ⟨rfl, rfl⟩
    split
    · exact ⟨(Dev.queues_raise _ _ _).trans h2.1, (hraise _ _ _).trans h2.2⟩
    · exact h2
  have hadmit : ∀ cls n e, d.admitSlots cls n = some e → e.queues = d.queues ∧ e.fetchNo = d.fetchNo := fun cls n e he => by
    have hcredit : ∀ v, ((d.takeSlots n).setFld Reg.STK_PWC_CREDIT 20 0 v).queues = d.queues ∧
        ((d.takeSlots n).setFld Reg.STK_PWC_CREDIT 20 0 v).fetchNo = d.fetchNo := fun v => htake n
    unfold Dev.admitSlots at he
    dsimp only at he
    split at he
    · exact nomatch he
    · split at he
      · split at he
        · exact Option.some.inj he ▸ htake n
        · exact nomatch he
      · split at he
        · exact nomatch he
        · split at he
          · exact Option.some.inj he ▸ htake n
          · split at he
            · exact Option.some.inj he ▸ hcredit _
            · exact nomatch he
  unfold Dev.reserveSlots
  dsimp only
  split
  · exact ⟨rfl, rfl, hin⟩
  · split
    · next e he =>
      split at he
      · exact nomatch he
      · obtain ⟨hq, hn⟩ := hadmit _ _ _ he
        exact hset e _ hq hn
    · have hwait := hset d { c with waiting := true, waitTick := d.tick } rfl rfl
      split
      · have hq : ((((d.setCmd qid { c with waiting := true, waitTick := d.tick }).inc Reg.STK_PWC_TFULL 1).raise 0x602 5).queues) =
            (d.setCmd qid { c with waiting := true, waitTick := d.tick }).queues := (Dev.queues_raise _ _ _).trans rfl
        rw [Dev.queue_congr hq]
        exact ⟨hwait.1, (hraise _ _ _).trans hwait.2.1, hwait.2.2⟩
      · split
        · exact hwait
        · exact hwait

theorem Dev.fetchCheck_emit (o : Out) (c : Cmd) : (d.emit o).fetchCheck qid c = d.fetchCheck qid c := rfl

/-- The device when an entry has been read: SQ_HEAD has moved on. -/
def Dev.sqeRead (qid entry : Nat) (d : Dev) : Dev :=
  let q := d.queue qid
  let d := d.emit (.hostRead (d.slice (qid / 16)).pasid ((d.sliceHead (qid / 16)).getD 0) (q.sqb + 64 * (q.sqHead % 32)))
  let d := d.capRec 0x13 qid [(2, q.sqHead % 32), (64, entry)]
  let d := { d with fetchNo := d.fetchNo + 1 }
  d.setQueue qid { q with sqHead := (q.sqHead + 1) % 65536 }

theorem Dev.sqeRead_spec (entry : Nat) : ((d.sqeRead qid entry).queue qid).Alike { d.queue qid with sqHead := ((d.queue qid).sqHead + 1) % 65536 } ∧
    (d.sqeRead qid entry).fetchNo = d.fetchNo + 1 ∧ d.out <+: (d.sqeRead qid entry).out ∧
    (d.sqeRead qid entry).sliceHead (qid / 16) = d.sliceHead (qid / 16) := by
  unfold Dev.sqeRead
  extract_lets q d1 d2 d3
  have h2 : d2 = { d1 with cap := d2.cap } := Dev.capRec_eq d1 _ _ _
  have hout : d2.out = d.out ++ [_] := (Dev.out_capRec d1 _ _ _).trans rfl
  have hno : d3.fetchNo = d.fetchNo + 1 := by
    simp only [d3]
    rw [h2]
    rfl
  refine ⟨Dev.queue_setQueue_alike d3 qid _, hno, ?_, ?_⟩
  · show d.out <+: d2.out
    rw [hout]
    exact List.prefix_append _ _
  · show d2.sliceHead (qid / 16) = _
    rw [h2]
    rfl

/-- The command that a fetched entry becomes. -/
def Dev.sqeCmd (d : Dev) (qid : Nat) (c : Cmd) : Cmd :=
  { c with
    keygen := (d.ctx (4 * (qid / 16) + c.keyidx)).keygen
    charge := if (c.op = opWrite ∨ c.op = opWriteZeroes) ∧ d.health = 2 then redCharge c else 0
    chargeRed := d.redNo, ioTick := d.tick, wasHeld := !(d.queue qid).free c }

/-- A command that passes its checks becomes outstanding. -/
def Dev.sqeTake (d : Dev) (qid : Nat) (c : Cmd) : Dev :=
  let x := d.slice (qid / 16)
  let charge := if (c.op = opWrite ∨ c.op = opWriteZeroes) ∧ d.health = 2 then redCharge c else 0
  let c := d.sqeCmd qid c
  let d := if charge = 0 then d else d.setKept (qid / 16) { x with hdrmUsed := x.hdrmUsed + charge }
  let q := d.queue qid
  let d := if q.free c then d else d.inc Reg.CQE_HAZ_WAITS 1
  let d := d.setQueue qid { q with cmds := q.cmds ++ [c] }
  d.reserveSlots qid c

theorem Dev.sqeTake_spec (c : Cmd) : ((d.sqeTake qid c).queue qid).sqHead = (d.queue qid).sqHead ∧ (d.sqeTake qid c).fetchNo = d.fetchNo ∧
    (((d.sqeTake qid c).queue qid).cmd? c.tag).isSome = true := by
  unfold Dev.sqeTake
  extract_lets x charge c1 d1 q d2 d3
  have h1 : d1.queues = d.queues ∧ d1.fetchNo = d.fetchNo := by
    simp only [d1]
    split
    · exact ⟨rfl, rfl⟩
    · exact ⟨Dev.queues_setKept _ _ _, congrArg (·.fetchNo) (Dev.Posts.setKept d (qid / 16) _).kept⟩
  have h2 : d2.fetchNo = d1.fetchNo := by
    simp only [d2]
    split <;> rfl
  have hq : q = d.queue qid := Dev.queue_congr h1.1 qid
  have hset : (d3.queue qid).Alike { q with cmds := q.cmds ++ [c1] } := Dev.queue_setQueue_alike d2 qid _
  have hin : ((d3.queue qid).cmd? c1.tag).isSome = true := by
    rw [hset.cmd, Queue.cmd?, List.find?_isSome]
    exact ⟨c1, List.mem_append_right _ (List.mem_singleton.mpr rfl), beq_self_eq_true _⟩
  obtain ⟨h4, h5, h6⟩ := Dev.reserveSlots_keeps d3 c1 hin
  exact ⟨h4.trans (hset.fields.2.1.trans (by rw [hq])), h5.trans (h2.trans h1.2), h6⟩

theorem sqeFetch_eq (entry : Nat) (hqid : qid < 16384) (hmay : d.mayFetch qid = true) :
    doSqeFetch qid entry d =
      match d.fetchCheck qid (parseSqe entry d.fetchNo ((d.queue qid).doorbellOf (d.queue qid).sqHead d.tick)) with
      | some (status, info) => (if status = stTagBusy then (d.sqeRead qid entry).inc Reg.CQE_TAGBUSY 1 else d.sqeRead qid entry).post qid
          ⟨(parseSqe entry d.fetchNo ((d.queue qid).doorbellOf (d.queue qid).sqHead d.tick)).tag, 2, status, info, 0⟩
      | none => (d.sqeRead qid entry).sqeTake qid (parseSqe entry d.fetchNo ((d.queue qid).doorbellOf (d.queue qid).sqHead d.tick)) := by
  unfold doSqeFetch
  dsimp only
  rw [Nat.mod_eq_of_lt hqid, hmay, Dev.fetchCheck_emit]
  rfl

theorem sqeFetch_spec (entry : Nat) (hqid : qid < 16384) (hmay : d.mayFetch qid = true) (hpost : d.canPost qid) {c : Cmd}
    (hc : c = parseSqe entry d.fetchNo ((d.queue qid).doorbellOf (d.queue qid).sqHead d.tick)) :
    ((doSqeFetch qid entry d).queue qid).sqHead = ((d.queue qid).sqHead + 1) % 65536 ∧ (doSqeFetch qid entry d).fetchNo = d.fetchNo + 1 ∧
    (d.fetchCheck qid c = none → (((doSqeFetch qid entry d).queue qid).cmd? c.tag).isSome = true) ∧
    (∀ st info, d.fetchCheck qid c = some (st, info) → d.posts (doSqeFetch qid entry d) qid c.tag st info) := by
  have hbody := sqeFetch_eq d entry hqid hmay
  rw [← hc] at hbody
  obtain ⟨hq, hno, hout, hhead⟩ := Dev.sqeRead_spec d (qid := qid) entry
  obtain ⟨-, hsq, -, hposted, -, -, hheld, hfault⟩ := hq.fields
  match hchk : d.fetchCheck qid c with
  | none =>
    rw [hchk] at hbody
    obtain ⟨h1, h2, h3⟩ := Dev.sqeTake_spec (d.sqeRead qid entry) (qid := qid) c
    rw [hbody]
    exact ⟨h1.trans hsq, h2.trans hno, fun _ => h3, fun _ _ h => nomatch h⟩
  | some (st, info) =>
    rw [hchk] at hbody
    obtain ⟨e, he⟩ : ∃ e, e = if st = stTagBusy then (d.sqeRead qid entry).inc Reg.CQE_TAGBUSY 1 else d.sqeRead qid entry := ⟨_, rfl⟩
    have hqueue : e.queue qid = (d.sqeRead qid entry).queue qid := by rw [he]; split <;> rfl
    have heno : e.fetchNo = (d.sqeRead qid entry).fetchNo := by rw [he]; split <;> rfl
    have heout : e.out = (d.sqeRead qid entry).out := by rw [he]; split <;> rfl
    have hehead : e.sliceHead (qid / 16) = d.sliceHead (qid / 16) := by
      rw [← hhead, he]
      split
      · have hs : qid / 16 / 4 < 256 := by omega
        exact Dev.sliceHead_congr (Dev.reg_setFld_ne _ (by simp only [Reg.HIF_SLICE_HEAD, Reg.CQE_TAGBUSY]; omega) _ _ _)
          (fun k hk => Dev.reg_setFld_ne _ (by simp only [Reg.HIF_LINK_STS, Reg.CQE_TAGBUSY]; omega) _ _ _)
      · rfl
    have hbody' : doSqeFetch qid entry d = e.post qid ⟨c.tag, 2, st, info, 0⟩ := by rw [hbody, he]
    have hcan : e.canPost qid := by
      obtain ⟨h1, h2, h3⟩ := hpost
      exact ⟨by rw [hehead]; exact h1, by rw [hqueue, hfault]; exact h2, by rw [hqueue, hheld]; exact h3⟩
    obtain ⟨h, hwrite⟩ := Dev.post_now hcan ⟨c.tag, 2, st, info, 0⟩
    refine ⟨?_, ?_, (fun h => nomatch h), fun st' info' h' => ?_⟩
    · rw [hbody', hwrite, (Dev.queue_writeCe e qid h _).1.fields.2.1]
      show (e.queue qid).sqHead = _
      rw [hqueue, hsq]
    · rw [hbody']
      exact (congrArg (·.fetchNo) (Dev.Posts.post e qid _).kept).trans (heno.trans hno)
    · obtain ⟨rfl, rfl⟩ : st = st' ∧ info = info' := by simpa using h'
      rw [hbody']
      exact Dev.posts_post hcan (by decide) (by rw [hqueue, hposted]) (heout ▸ hout) List.prefix_rfl

end

/-- Settles O14: doorbells taken and refused, fetches, ring faults, and the units dispatched. -/
theorem doorbellsAndFetch : Obligations.DoorbellsAndFetch := by
  intro s sl qp v hrun hsl hqp hreleased hresetRun hmode hfence qid q
  have htakes : s.dev.TakesDoorbells := ⟨hfence, hreleased, hresetRun, hmode⟩
  have hqid : qid < 16384 := by simp only [qid]; omega
  have hdiv : qid / 16 = sl := by simp only [qid]; omega
  refine ⟨fun hen hreset hst => ⟨fun hrange => ⟨_, act_of_running s (doSqTailDbWrite sl qp v) hrun,
      doSqTailDbWrite_taken s.dev htakes hsl hqp hen hreset hst hrange⟩, fun hrange herr => ?_,
      fun hrange => ⟨_, act_of_running s (doCqHeadDbWrite sl qp v) hrun, doCqHeadDbWrite_taken s.dev htakes hsl hqp hen hst hrange⟩⟩,
    fun entry hmay hpost => ⟨_, act_of_running s (doSqeFetch qid entry) hrun, sqeFetch_spec s.dev entry hqid hmay hpost rfl⟩,
    fun completion hen herr => ?_, fun tag c htag hc hd hf => ⟨fun hh hs hw ho hop hn hcut hheld hshare => ?_, fun h => ?_,
      fun hop hw hn hshare ho hcut hv hm hh => ?_⟩⟩
  · refine ⟨_, act_of_running s (doSqTailDbWrite sl qp v) hrun, ?_⟩
    dsimp only
    rw [doSqTailDbWrite_refused htakes hsl hqp hen hreset hst hrange]
    obtain ⟨h1, h2, -, -, -, -, -, -, h3, -⟩ := (Dev.onlyLatched_tailLatched s.dev qid v).dbError_ignored v
    obtain ⟨-, hcode, hi0, hi1⟩ := h3 herr
    exact ⟨h2, h1, hcode, hi0, hi1⟩
  · have hbody : doRingFault qid completion s.dev = s.dev.ringFault qid completion := by
      unfold doRingFault
      rw [Nat.mod_eq_of_lt hqid, if_pos hen]
    refine ⟨_, act_of_running s (doRingFault qid completion) hrun, ?_⟩
    dsimp only
    rw [hbody]
    exact Dev.ringFault_spec s.dev completion herr
  · intro k
    have hopen : (s.dev.slice sl).inflight < (s.dev.slice sl).shareAct * 256 := of_decide_eq_true hshare
    have hunits : c.units = 0 := by
      rw [Cmd.started, Bool.or_eq_false_iff] at hs
      have := of_decide_eq_false hs.1
      omega
    have hpos : 0 < k := by simp only [k]; omega
    obtain ⟨h1, h2⟩ := Dev.admitUnits_spec s.dev (qid := qid) (n := c.nblk) (k := k) hc (by rw [hdiv, hunits]; simp only [k]; omega) hpos
    refine ⟨_, act_of_running s (doHazardRelease qid tag) hrun, hpos, ?_⟩
    dsimp only
    rw [hazardRelease_dispatches s.dev hqid htag hc hd hf hh hs hw ho hop (hdiv ▸ hcut) hheld, h1]
    rw [hdiv, hunits, Nat.zero_add] at *
    exact ⟨rfl, h2⟩
  · have hsame := act_of_running s (doHazardRelease qid tag) hrun
    rw [hazardRelease_waits s.dev hqid htag hc h] at hsame
    exact hsame
  · have hopen : (s.dev.slice sl).inflight < (s.dev.slice sl).shareAct * 256 := of_decide_eq_true hshare
    obtain ⟨h1, h2⟩ := Dev.admitUnits_spec s.dev (qid := qid) (n := 1) (k := 1) hc (by rw [hdiv]; omega) (by decide)
    refine ⟨_, act_of_running s (doUnitDispatch qid tag) hrun, ?_⟩
    dsimp only
    rw [unitDispatch_dispatches s.dev hqid htag hc hd hf hop hw hn (hdiv ▸ hshare) ho (hdiv ▸ hcut) hv hm hh, h1]
    rw [hdiv] at *
    exact ⟨rfl, h2⟩

end Sys2Proof.Machine
end

section
/-! The administration of queues (R102, R104, R130 to R136, Table CQE-2). -/

namespace Sys2Proof.Machine

-- In order, one declaration at a time: keeps the check within its memory limit.
set_option Elab.async false

section
variable {d e t : Dev} {qid : Nat}

/-! ### Completing a command that writes nothing -/

/-- A command that its queue calls ready is outstanding there under its tag, not done, and held by none. -/
theorem Dev.ready_spec {tag op : Nat} {c : Cmd} (h : d.ready qid tag op = some c) :
    (d.queue qid).cmd? tag = some c ∧ c.tag = tag ∧ c.op = op ∧ c.done = false ∧ (d.queue qid).free c = true := by
  unfold Dev.ready at h
  dsimp only at h
  split at h
  · exact nomatch h
  · next c' hc =>
    split at h
    · next hcond =>
      obtain rfl := Option.some.inj h
      have htag : (c'.tag == tag) = true := List.find?_some (p := fun x : Cmd => x.tag == tag) hc
      simp only [Bool.and_eq_true, beq_iff_eq, Bool.not_eq_true'] at hcond htag
      exact ⟨hc, htag, hcond.1.1.1.1.1, hcond.1.1.1.1.2, hcond.1.1.1.2⟩
    · exact nomatch h

/-- Completing a command leaves every other queue. -/
theorem Dev.queue_complete_ne (hp : e.canPost qid) (tag status info : Nat) {k : Nat} (hk : k ≠ qid) :
    (e.complete qid tag status info).queue k = e.queue k := by
  obtain ⟨h, hpost⟩ := Dev.post_now hp ⟨tag, 0, status, info, 0⟩
  rw [Dev.complete, hpost]
  exact (Dev.queue_writeCe e qid h _).2 k hk

/-- Completing a command that writes nothing leaves the map's resident pages and of a slice all but what is in flight. -/
theorem Dev.complete_quiet (hp : e.canPost qid) {tag : Nat} {c : Cmd} (hc : (e.queue qid).cmd? tag = some c) (hop : writeType c.op = false)
    (status info : Nat) : (e.complete qid tag status info).resident = e.resident ∧
      ∀ s, ((e.complete qid tag status info).slice s).pinned = (e.slice s).pinned := by
  obtain ⟨h, hpost⟩ := Dev.post_now hp ⟨tag, 0, status, info, 0⟩
  have hcmd : ∀ c', (e.queue qid).cmd? tag = some c' → writeType c'.op = false := fun c' h' => by
    rw [hc] at h'
    obtain rfl := Option.some.inj h'
    exact hop
  obtain ⟨hsans, hslice⟩ := Dev.writeCe_quiet e qid h ⟨tag, 0, status, info, 0⟩ (fun _ => hcmd)
  have hres : (e.writeCe qid h ⟨tag, 0, status, info, 0⟩).sansEntry.resident = e.sansEntry.resident := by rw [hsans]
  rw [Dev.complete, hpost]
  exact ⟨hres, fun s => by rw [hslice s]⟩

/-- Completing after a change that keeps the registers and the command's queue. -/
theorem Dev.posts_complete (hp : d.canPost qid) (hreg : e.regs = d.regs) (hq : e.queue qid = d.queue qid) (hout : e.out = d.out)
    (tag status info : Nat) : e.canPost qid ∧ d.posts (e.complete qid tag status info) qid tag status info := by
  have hhead : e.sliceHead (qid / 16) = d.sliceHead (qid / 16) :=
    Dev.sliceHead_congr (by rw [Dev.reg, hreg, Dev.reg]) (fun k _ => by rw [Dev.reg, hreg, Dev.reg])
  have hcan := Dev.canPost_of_queue hp hhead hq
  exact ⟨hcan, Dev.posts_post hcan (by decide) (by rw [hq]) (by rw [hout]) List.prefix_rfl⟩

/-! ### The rows of Table CQE-2 -/

/-- CREATE_QP's new state of a queue pair. -/
def Queue.created (q : Queue) (t : Nat) (c : Cmd) : Queue :=
  { Queue.reset t with
    en := true, ien := q.ien, vector := q.vector, qgen := q.qgen, coalN := leBytes c.raw 32 1 % 64, coalUs := leBytes c.raw 33 1,
    sqb := leBytes c.raw 16 8, cqb := leBytes c.raw 24 8 }

theorem createQp_eq {tag qp : Nat} {c : Cmd} (hqid : qid < 16384) (htag : tag < 32) (hready : d.ready qid tag opCreateQp = some c)
    (hqp : leBytes c.raw 4 1 % 16 = qp) (h0 : qp ≠ 0) (hmax : qp < (d.slice (qid / 16)).qpMax) (hen : (d.queue (16 * (qid / 16) + qp)).en = false)
    (hsq : leBytes c.raw 16 8 % 4096 = 0) (hcq : leBytes c.raw 24 8 % 4096 = 0) (hn : leBytes c.raw 32 1 % 64 ≤ 32) :
    doCreateQp qid tag d = (d.setQueue (16 * (qid / 16) + qp) ((d.queue (16 * (qid / 16) + qp)).created (16 * (qid / 16) + qp) c)).complete qid c.tag stSuccess 0 := by
  unfold doCreateQp
  simp only [Nat.mod_eq_of_lt hqid, Nat.mod_eq_of_lt htag, hready, hqp]
  rw [if_neg (Nat.not_lt.mpr hn), if_neg (by simp [h0, hmax, hen, hsq, hcq])]
  rfl

theorem deleteQp_eq {tag qp : Nat} {c : Cmd} (hqid : qid < 16384) (htag : tag < 32) (hready : d.ready qid tag opDeleteQp = some c)
    (hqp : leBytes c.raw 4 1 % 16 = qp) (h0 : qp ≠ 0) (hcmds : (d.queue (16 * (qid / 16) + qp)).cmds = [])
    (hsquash : (d.queue (16 * (qid / 16) + qp)).squash = []) (hreset : (d.queue (16 * (qid / 16) + qp)).resetting = false) :
    doDeleteQp qid tag d =
      (d.setQueue (16 * (qid / 16) + qp) { d.queue (16 * (qid / 16) + qp) with en := false }).complete qid c.tag stSuccess 0 := by
  unfold doDeleteQp
  simp only [Nat.mod_eq_of_lt hqid, Nat.mod_eq_of_lt htag, hready, hqp]
  rw [if_neg (by simp [h0, hcmds, hsquash, hreset])]

/-- What loading the pages of a pin leaves. -/
theorem Dev.pinLoad_keeps (d : Dev) (s cls : Nat) (ps : List Nat) : (d.pinLoad s cls ps).2.regs = d.regs ∧ (d.pinLoad s cls ps).2.queues = d.queues ∧
    (d.pinLoad s cls ps).2.out = d.out ∧ (d.pinLoad s cls ps).2.slices = d.slices := by
  have hmake : ∀ (e : Dev) pk, (e.makeResident pk).regs = e.regs ∧ (e.makeResident pk).queues = e.queues ∧ (e.makeResident pk).out = e.out ∧
      (e.makeResident pk).slices = e.slices := fun e pk => by
    unfold Dev.makeResident
    split
    · exact ⟨rfl, rfl, rfl, rfl⟩
    · dsimp only
      split <;> exact ⟨rfl, rfl, rfl, rfl⟩
  have hwant : ∀ (e : Dev) pk c, (e.wantPage pk c).regs = e.regs ∧ (e.wantPage pk c).queues = e.queues ∧ (e.wantPage pk c).out = e.out ∧
      (e.wantPage pk c).slices = e.slices := fun e pk c => by
    unfold Dev.wantPage
    split <;> exact ⟨rfl, rfl, rfl, rfl⟩
  unfold Dev.pinLoad
  refine List.foldlRecOn (motive := fun e : Dev => e.regs = d.regs ∧ e.queues = d.queues ∧ e.out = d.out ∧ e.slices = d.slices) _ _
    ⟨rfl, rfl, rfl, rfl⟩ (fun e he p _ => ?_)
  obtain ⟨h1, h2, h3, h4⟩ := he
  have hmade : ∀ b : Bool, (if b = true then e else e.makeResident (s * 2 ^ 25 + p)).regs = d.regs ∧
      (if b = true then e else e.makeResident (s * 2 ^ 25 + p)).queues = d.queues ∧ (if b = true then e else e.makeResident (s * 2 ^ 25 + p)).out = d.out ∧
      (if b = true then e else e.makeResident (s * 2 ^ 25 + p)).slices = d.slices := fun b => by
    obtain ⟨m1, m2, m3, m4⟩ := hmake e (s * 2 ^ 25 + p)
    cases b
    · exact ⟨m1.trans h1, m2.trans h2, m3.trans h3, m4.trans h4⟩
    · exact ⟨h1, h2, h3, h4⟩
  have hm := hmade (e.mapExists (s * 2 ^ 25 + p))
  dsimp only
  generalize (if e.mapExists (s * 2 ^ 25 + p) = true then e else e.makeResident (s * 2 ^ 25 + p)) = e1 at hm ⊢
  obtain ⟨n1, n2, n3, n4⟩ := hm
  split
  · exact ⟨n1, n2, n3, n4⟩
  · split
    · obtain ⟨w1, w2, w3, w4⟩ := hwant e1 (s * 2 ^ 25 + p) cls
      exact ⟨w1.trans n1, w2.trans n2, w3.trans n3, w4.trans n4⟩
    · exact ⟨n1, n2, n3, n4⟩

/-- A pin whose pages have all come finds them resident. -/
theorem Dev.pinLoad_resident {s cls : Nat} {ps : List Nat} (h : (d.pinLoad s cls ps).1 = true) {p : Nat} (hp : p ∈ ps) :
    s * 2 ^ 25 + p ∈ (d.pinLoad s cls ps).2.resident := by
  have := List.all_eq_true.mp h p hp
  exact List.contains_iff_mem.mp this

theorem mapPin_eq {tag p0 n : Nat} {c : Cmd} (hqid : qid < 16384) (htag : tag < 32) (hready : d.ready qid tag opMapPin = some c)
    (hheld : d.mapHeld = false) (hr : d.pinRange (qid / 16) c true = .inr (p0, n))
    (hload : (d.pinLoad (qid / 16) c.cls ((List.range n).map (fun i => p0 + i))).1 = true) :
    let ps := (List.range n).map (fun i => p0 + i)
    let e := (d.pinLoad (qid / 16) c.cls ps).2
    doMapPin qid tag d = (e.setSlice (qid / 16) { d.slice (qid / 16) with pinned := ps.foldl insertSorted (d.slice (qid / 16)).pinned }).complete qid c.tag stSuccess 0 := by
  intro ps e
  have hslice : e.slice (qid / 16) = d.slice (qid / 16) := by
    rw [Dev.slice, (Dev.pinLoad_keeps d _ _ _).2.2.2, Dev.slice]
  unfold doMapPin
  simp only [Nat.mod_eq_of_lt hqid, Nat.mod_eq_of_lt htag, hready, hheld, hr, hload, Bool.not_true, Bool.false_eq_true, if_false]
  rw [← hslice]

theorem mapUnpin_eq {tag p0 n : Nat} {c : Cmd} (hqid : qid < 16384) (htag : tag < 32) (hready : d.ready qid tag opMapUnpin = some c)
    (hheld : d.mapHeld = false) (hr : d.pinRange (qid / 16) c false = .inr (p0, n)) :
    doMapUnpin qid tag d = (d.setSlice (qid / 16) { d.slice (qid / 16) with
      pinned := (d.slice (qid / 16)).pinned.filter (fun p => !(decide (p0 ≤ p) && decide (p < p0 + n))) }).complete qid c.tag stSuccess 0 := by
  unfold doMapUnpin
  simp only [Nat.mod_eq_of_lt hqid, Nat.mod_eq_of_lt htag, hready, hheld, hr, Bool.false_eq_true, if_false]

/-! ### Announcements (R136, Table CQE-9) -/

/-- An announcement whose vector is open sends its message. -/
theorem Dev.announce_sends {h : Nat} (hien : (d.queue qid).ien = true) (hh : d.sliceHead (qid / 16) = some h)
    (hvec : d.vecOpen h (d.queue qid).vector = true) :
    ((d.announce qid).queue qid).unann = 0 ∧ (d.announce qid).out = d.out ++ [.msix h (d.queue qid).vector] := by
  have hsend : ∀ e : Dev, e.vecOpen h (d.queue qid).vector = true → e.msix (some h) (d.queue qid).vector = e.emit (.msix h (d.queue qid).vector) :=
    fun e he => if_pos he
  have heq : d.announce qid = (d.setQueue qid { d.queue qid with unann := 0 }).emit (.msix h (d.queue qid).vector) := by
    unfold Dev.announce
    dsimp only
    rw [if_pos hien]
    have hhead : (d.setQueue qid { d.queue qid with unann := 0 }).sliceHead (qid / 16) = some h := hh
    rw [hhead]
    exact hsend _ hvec
  rw [heq]
  refine ⟨?_, rfl⟩
  show ((d.setQueue qid { d.queue qid with unann := 0 }).queue qid).unann = 0
  rw [Dev.queue_setQueue_self]

/-! ### A queue reset begins (R130) -/

/-- The tags of a list of commands. -/
theorem mem_tagsOf {cs : List Cmd} {x : Cmd} (hx : x ∈ cs) : x.tag ∈ tagsOf cs := by
  have hkeep : ∀ (l : List Cmd) (a : List Nat) (n : Nat), n ∈ a → n ∈ l.foldl (fun a c => insertSorted a c.tag) a := by
    intro l
    induction l with
    | nil => exact fun a n h => h
    | cons y l ih => exact fun a n h => ih _ n (mem_insertSorted_of_mem h)
  have hin : ∀ (l : List Cmd) (a : List Nat), x ∈ l → x.tag ∈ l.foldl (fun a c => insertSorted a c.tag) a := by
    intro l
    induction l with
    | nil => exact fun a h => nomatch h
    | cons y l ih =>
      intro a h
      rcases List.mem_cons.mp h with rfl | h
      · exact hkeep l _ _ mem_insertSorted
      · exact ih _ h
  exact hin cs [] hx

/-- Numbers folded into an ordered list are in it. -/
theorem mem_foldl_insertSorted {l : List Nat} {n : Nat} (hn : n ∈ l) : ∀ a : List Nat, n ∈ l.foldl insertSorted a := by
  have hkeep : ∀ (l : List Nat) (a : List Nat), n ∈ a → n ∈ l.foldl insertSorted a := by
    intro l
    induction l with
    | nil => exact fun a h => h
    | cons y l ih => exact fun a h => ih _ (mem_insertSorted_of_mem h)
  induction l with
  | nil => exact nomatch hn
  | cons y l ih =>
    intro a
    rcases List.mem_cons.mp hn with rfl | h
    · exact hkeep l _ mem_insertSorted
    · exact ih h _

/-- A reset that begins squashes what is live and discards what is not fetched. -/
def Queue.CutFrom (q t : Queue) : Prop :=
  t.resetting = true ∧ t.qgen = (q.qgen + 1) % 16 ∧ t.live = [] ∧ t.sqHead = q.sqTail ∧ ∀ x ∈ q.live, x.tag ∈ t.squash

theorem Dev.queueReset_cuts (d : Dev) (hen : (d.queue qid).en = true) (hres : (d.queue qid).resetting = false)
    (hst : (d.slice (qid / 16)).st = .active) : (d.queue qid).CutFrom ((d.queueReset qid).queue qid) := by
  have hsq : ∀ e : Dev, (e.queue qid).resetting = true → (e.queue qid).qgen = ((d.queue qid).qgen + 1) % 16 → (e.queue qid).sqTail = (d.queue qid).sqTail →
      (e.queue qid).live = (d.queue qid).live → (d.queue qid).CutFrom (((e.squash qid (fun _ => true)).discardUnfetched qid).queue qid) := by
    intro e h1 h2 h3 h4
    have hq : ((e.squash qid (fun _ => true)).queue qid).Alike
        { e.queue qid with
          cmds := (e.queue qid).cmds.filter (fun c => c.done || !true)
          squash := (tagsOf ((e.queue qid).live.filter (fun _ => true))).foldl insertSorted (e.queue qid).squash
          stale := (e.queue qid).stale ++ (((e.queue qid).live.filter (fun _ => true)).filter (fun c => c.fin < c.units)).map
            (fun c => (c.sgen, c.qgen, c.units - c.fin)) } := by
      unfold Dev.squash
      dsimp only
      rw [Dev.queue_congr (Dev.queues_foldl _ _ _ (fun e c => Dev.queues_ite (Dev.queues_onFail _ _ _))) qid]
      exact Dev.queue_setQueue_alike e qid _
    unfold Dev.discardUnfetched
    dsimp only
    rw [Dev.queue_setQueue_self, hq]
    refine ⟨h1, h2, ?_, h3, fun x hx => ?_⟩
    · show ((e.queue qid).cmds.filter (fun c => c.done || !true)).filter (fun c => !c.done) = []
      rw [List.filter_filter]
      refine List.filter_eq_nil_iff.mpr (fun c _ => ?_)
      cases c.done <;> decide
    · rw [← h4] at hx
      exact mem_foldl_insertSorted (mem_tagsOf (List.mem_filter.mpr ⟨hx, rfl⟩)) _
  unfold Dev.queueReset
  dsimp only
  rw [if_neg (by simp [hen, hres, hst])]
  have hself := Dev.queue_setQueue_self d qid { d.queue qid with resetting := true, qgen := ((d.queue qid).qgen + 1) % 16 }
  exact hsq _ (by rw [hself]) (by rw [hself]) (by rw [hself]) (by rw [hself]; rfl)

/-! ### A queue reset ends (R130, R131) -/

theorem phaseOf_mod (n : Nat) : phaseOf (n % 65536) = phaseOf n := by
  unfold phaseOf
  omega

theorem tagWord_mod (tag typ n : Nat) : tagWord tag typ (n % 65536) = tagWord tag typ n := by rw [tagWord, phaseOf_mod, tagWord]

/-- The queue of an entry as the host is told of it, at a place counted on from some entry. -/
def Dev.entered (d t : Dev) (qid n tag typ status info bitmap : Nat) : Prop :=
  ∃ pasid head addr ts sqhd timeb, (typ = 1 → timeb = bitmap) ∧ d.tells t
    (.completion qid pasid head addr (n % 64) (phaseOf n) ts status (info % 2 ^ 16) sqhd (tagWord tag (if typ = 1 then 1 else 0) n) timeb)

/-- An entry that is no command's own, posted at once: its place, and what it leaves. -/
theorem Dev.post_other (hp : e.canPost qid) {n : Nat} (hn : (e.queue qid).cqPosted % 65536 = n % 65536) (ce : CE) (hty : ce.typ ≠ 0) :
    (e.post qid ce).canPost qid ∧ ((e.post qid ce).queue qid).cqPosted % 65536 = (n + 1) % 65536 ∧
    ((e.post qid ce).queue qid).squash = (e.queue qid).squash ∧ (∀ s, ((e.post qid ce).slice s).cutWaits = (e.slice s).cutWaits) ∧
    e.out <+: (e.post qid ce).out ∧ e.entered (e.post qid ce) qid n ce.tag ce.typ ce.status ce.info ce.bitmap := by
  obtain ⟨h, hpost⟩ := Dev.post_now hp ce
  obtain ⟨hsans, hslice⟩ := Dev.writeCe_quiet e qid h ce (fun h0 => absurd h0 hty)
  obtain ⟨hq, -⟩ := Dev.queue_writeCe e qid h ce
  obtain ⟨pasid, addr, ts, sqhd, timeb, hbit, htell⟩ := Dev.tells_writeCe e qid h ce
  have hhead : (e.writeCe qid h ce).sliceHead (qid / 16) = e.sliceHead (qid / 16) :=
    by
    have hs : (e.writeCe qid h ce).sansEntry.sliceHead (qid / 16) = e.sansEntry.sliceHead (qid / 16) := by rw [hsans]
    exact hs
  obtain ⟨hc1, hc2, hc3⟩ := hp
  have hplace : (e.queue qid).cqPosted % 64 = n % 64 := by omega
  rw [hpost]
  rw [hplace, ← phaseOf_mod, ← tagWord_mod, hn, phaseOf_mod, tagWord_mod] at htell
  have hout := Dev.Posts.writeCe e qid h ce
  refine ⟨⟨hhead ▸ hc1, ?_, ?_⟩, ?_, ?_, fun s => by rw [hslice s], hout.out, pasid, h, addr, ts, sqhd, timeb, hbit, htell⟩
  · rw [hq]; exact hc2
  · rw [hq]; exact hc3
  · rw [hq]
    show ((e.queue qid).cqPosted + 1) % 65536 % 65536 = _
    omega
  · rw [hq]; rfl

end

/-- Entries of tags posted one after another. -/
theorem Dev.post_tags {qid : Nat} (status : Nat) : ∀ (tags : List Nat) (e : Dev) (n : Nat), e.canPost qid → (e.queue qid).cqPosted % 65536 = n % 65536 →
    let t := tags.foldl (fun d t => d.post qid ⟨t, 2, status, 0, 0⟩) e
    t.canPost qid ∧ (t.queue qid).cqPosted % 65536 = (n + tags.length) % 65536 ∧ (t.queue qid).squash = (e.queue qid).squash ∧
    (∀ s, (t.slice s).cutWaits = (e.slice s).cutWaits) ∧ e.out <+: t.out ∧
    ∀ i (h : i < tags.length), e.entered t qid (n + i) tags[i] 2 status 0 0
  | [], e, n, hp, hn => ⟨hp, hn, rfl, fun _ => rfl, List.prefix_rfl, fun i h => absurd h (Nat.not_lt_zero i)⟩
  | x :: tags, e, n, hp, hn => by
    obtain ⟨hp1, hn1, hs1, hc1, ho1, ht1⟩ := Dev.post_other hp hn ⟨x, 2, status, 0, 0⟩ (show 2 ≠ 0 by decide)
    obtain ⟨hp2, hn2, hs2, hc2, ho2, ht2⟩ := Dev.post_tags status tags _ (n + 1) hp1 hn1
    refine ⟨hp2, ?_, hs2.trans hs1, fun s => (hc2 s).trans (hc1 s), ho1.trans ho2, fun i hi => ?_⟩
    · refine hn2.trans ?_
      rw [List.length_cons]
      congr 1
      omega
    · cases i with
      | zero =>
        obtain ⟨pasid, head, addr, ts, sqhd, timeb, hb, h⟩ := ht1
        exact ⟨pasid, head, addr, ts, sqhd, timeb, hb, Dev.tells_within List.prefix_rfl h ho2⟩
      | succ i =>
        obtain ⟨pasid, head, addr, ts, sqhd, timeb, hb, h⟩ := ht2 i (by rw [List.length_cons] at hi; omega)
        rw [show n + 1 + i = n + (i + 1) by omega] at h
        exact ⟨pasid, head, addr, ts, sqhd, timeb, hb, Dev.tells_within ho1 h List.prefix_rfl⟩

section
variable {d : Dev} {qid : Nat}

/-- The reset-done entries of a queue whose ring takes them. -/
theorem Dev.resetDone_spec (status : Nat) (hp : d.canPost qid) {n : Nat} (hn : (d.queue qid).cqPosted % 65536 = n % 65536) :
    ((d.resetDone qid status).queue qid).resetting = false ∧ ((d.resetDone qid status).queue qid).squash = [] ∧
    (∀ s, ((d.resetDone qid status).slice s).cutWaits = (d.slice s).cutWaits) ∧
    d.out <+: (d.resetDone qid status).out ∧
    (∀ i (h : i < (d.queue qid).squash.length), d.entered (d.resetDone qid status) qid (n + i) (d.queue qid).squash[i] 2 status 0 0) ∧
    d.entered (d.resetDone qid status) qid (n + (d.queue qid).squash.length) 0 1 stSuccess (d.queue qid).discarded
      ((d.queue qid).squash.foldl (fun a t => a ||| 2 ^ t) 0) := by
  unfold Dev.resetDone
  extract_lets q tags m bitmap d1 d2 d3 d4 q4
  have hq1 : (d1.queue qid).Alike { q with squash := [], discarded := 0, fault := false, cqFault := false } := Dev.queue_setQueue_alike d qid _
  have hp1 : d1.canPost qid := ⟨hp.1, by rw [hq1], by rw [hq1]; exact hp.2.2⟩
  have h2 : d2 = d1 := by
    simp only [d2]
    rw [Dev.releaseHeld, hp1.2.2]
    rfl
  have hp2 : d2.canPost qid := h2 ▸ hp1
  have hn2 : (d2.queue qid).cqPosted % 65536 = n % 65536 := by rw [h2, hq1]; exact hn
  have hs2 : (d2.queue qid).squash = [] := by rw [h2, hq1]
  have hc2 : ∀ s, (d2.slice s).cutWaits = (d.slice s).cutWaits := fun s => by rw [h2]; rfl
  have ho2 : d2.out = d.out := by rw [h2]; rfl
  clear_value d2
  obtain ⟨hp3, hn3, hs3, hc3, ho3, ht3⟩ := Dev.post_tags status tags d2 n hp2 hn2
  obtain ⟨-, -, hs4, hc4, ho4, ht4⟩ := Dev.post_other hp3 hn3 ⟨0, 1, stSuccess, m, bitmap⟩ (show 1 ≠ 0 by decide)
  have htell : ∀ {a : Dev} {o : Out}, d2.tells a o → a.out <+: d4.out → d.tells (d4.setQueue qid { q4 with resetting := false, dbErr := false }) o :=
    fun {a o} h hl => Dev.tells_within (by rw [ho2]) h hl
  refine ⟨by rw [Dev.queue_setQueue_self], ?_, fun s => ((hc4 s).trans (hc3 s)).trans (hc2 s), ?_, fun i hi => ?_, ?_⟩
  · rw [Dev.queue_setQueue_self]
    exact (hs4.trans hs3).trans hs2
  · show d.out <+: d4.out
    rw [← ho2]
    exact ho3.trans ho4
  · obtain ⟨pasid, head, addr, ts, sqhd, timeb, hb, h⟩ := ht3 i hi
    exact ⟨pasid, head, addr, ts, sqhd, timeb, hb, htell h ho4⟩
  · obtain ⟨pasid, head, addr, ts, sqhd, timeb, hb, h⟩ := ht4
    exact ⟨pasid, head, addr, ts, sqhd, timeb, hb, htell (Dev.tells_within ho3 h List.prefix_rfl) List.prefix_rfl⟩

/-- Dropping what is left of the old generation leaves its queue else and its ring. -/
theorem Dev.drainStale_spec (d : Dev) (qid : Nat) : ((d.drainStale qid).queue qid).Alike { d.queue qid with stale := [] } ∧
    (d.drainStale qid).out = d.out ∧ (d.drainStale qid).regs = d.regs ∧ ((d.drainStale qid).slice (qid / 16)).cutWaits = (d.slice (qid / 16)).cutWaits := by
  unfold Dev.drainStale
  dsimp only
  split
  · next h =>
    rw [← List.isEmpty_iff.mp h]
    exact ⟨.refl _, rfl, rfl, rfl⟩
  · refine ⟨Dev.queue_setQueue_alike _ _ _, rfl, rfl, ?_⟩
    have hself : ∀ (e : Dev) s x q y, ((e.setSlice s x).setQueue q y).slice s = x := fun e s x q y => SMap.get_set_self _ _ _ _
    rw [hself]

/-- What a state needs that a queue reset may end now. -/
structure Dev.Drained (d : Dev) (qid : Nat) : Prop where
  small : qid < 16384
  resets : (d.queue qid).resetting = true
  room : (d.queue qid).resetRoom = true
  active : (d.slice (qid / 16)).st = .active
  noCut : (d.slice (qid / 16)).cutWaits = false
  post : d.canPost qid

theorem Dev.Drained.stale (h : d.Drained qid) : (d.drainStale qid).canPost qid := by
  obtain ⟨hq, -, hregs, -⟩ := Dev.drainStale_spec d qid
  refine ⟨?_, by rw [hq]; exact h.post.2.1, by rw [hq]; exact h.post.2.2⟩
  rw [Dev.sliceHead_congr (d := d) (by rw [Dev.reg, hregs, Dev.reg]) (fun k _ => by rw [Dev.reg, hregs, Dev.reg])]
  exact h.post.1

/-- The end of a queue reset. -/
theorem Dev.Drained.resetEnds (h : d.Drained qid) {n : Nat} (hn : ((d.drainStale qid).queue qid).cqPosted % 65536 = n % 65536) :
    doQueueResetDrained qid d = (d.drainStale qid).resetDone qid stSquashed := by
  have hkeep := (Dev.resetDone_spec (d := d.drainStale qid) stSquashed h.stale hn).2.2.1 (qid / 16)
  have hruns : d.cutRuns (qid / 16) = false := by rw [Dev.cutRuns, h.active]; rfl
  obtain ⟨k, hk⟩ := Option.ne_none_iff_exists'.mp h.post.1
  unfold doQueueResetDrained
  simp only [Nat.mod_eq_of_lt h.small, h.resets, h.room, hruns, hk, Option.isNone_some, Bool.not_true, Bool.or_false, Bool.false_eq_true, if_false]
  rw [hkeep, (Dev.drainStale_spec d qid).2.2.2, h.noCut]
  rfl


/-! ### The registers of a queue (R130, R135) -/

theorem Dev.queue_of_reports {d t : Dev} (h : d.Reports t) (q : Nat) : t.queue q = d.queue q :=
  Dev.queue_congr (congrArg (·.queues) h.kept) q

theorem Dev.slice_of_reports {d t : Dev} (h : d.Reports t) (s : Nat) : t.slice s = d.slice s := by
  have hslices : t.slices = d.slices := congrArg (·.slices) h.kept
  rw [Dev.slice, hslices, Dev.slice]

theorem Dev.Publishes.queue {d t : Dev} (h : d.Publishes t) (q : Nat) : t.queue q = d.queue q := by
  obtain ⟨_, _, _, rfl, -⟩ := h
  rfl

/-- A device that a write to the queue's page has reached: its queues, slices and registers as before. -/
structure Dev.Reached (d t : Dev) : Prop where
  queue : ∀ q, t.queue q = d.queue q
  slice : ∀ s, t.slice s = d.slice s
  reg : ∀ o, t.reg o = d.reg o

/-- A write to a register of the open page 0x200 runs its effect on a device that it has reached. -/
theorem regWrite_reached {t : Dev} {off : Nat} {v : Word} {eff : Word → Dev → Dev} (ht : t = regWrite d off v eff) (r : RegDef) (ho : d.isOpen 0x200)
    (hpg : off / 0x1000 = 0x200) (hr : regDef? off = some r) : ∃ m d2, d.Reached d2 ∧ (v &&& w32 r.rsv = 0 → (d2.page 0x200).err = (d.page 0x200).err) ∧
      (eff m d2).Publishes t := by
  subst ht
  obtain ⟨d1, d2, harr, hd2, hclean, hpub⟩ := regWrite_reports d off v eff r (hpg ▸ ho) hr
  have hrep : d1.Reports d2 := by
    rcases hd2 with h | h
    · exact h ▸ .refl _
    · exact h ▸ Dev.Reports.recordErr _ _ _ _ _
  have hreg : ∀ o, d2.reg o = d1.reg o := fun o => by
    rcases hd2 with h | h
    · rw [h]
    · rw [h, Dev.reg_recordErr]
  refine ⟨_, d2, ⟨fun q => ?_, fun s => ?_, fun o => (hreg o).trans (harr.reg o)⟩, fun hz => ?_, hpub⟩
  · exact (Dev.queue_of_reports hrep q).trans (Dev.queue_of_reports harr.reports q)
  · exact (Dev.slice_of_reports hrep s).trans (Dev.slice_of_reports harr.reports s)
  · rw [hclean hz]
    exact (Page.err_of_body (harr.body 0x200)).1

theorem cqeQRst_cuts (ho : d.isOpen 0x200) (hsel : d.fld Reg.CQE_QSEL 13 0 = qid) (hen : (d.queue qid).en = true)
    (hres : (d.queue qid).resetting = false) (hst : (d.slice (qid / 16)).st = .active) :
    (d.queue qid).CutFrom ((doCqeQRst 0x51530001 d).queue qid) := by
  obtain ⟨m, d2, ⟨hq, hs, hreg⟩, -, hpub⟩ := regWrite_reached (t := doCqeQRst 0x51530001 d) rfl _ ho rfl rfl
  have hsel2 : d2.fld Reg.CQE_QSEL 13 0 = qid := by rw [Dev.fld, hreg]; exact hsel
  rw [hpub.queue, if_pos (show (0x51530001 : Word) = 0x51530001#32 from rfl), hsel2, ← hq]
  exact Dev.queueReset_cuts d2 (by rw [hq]; exact hen) (by rw [hq]; exact hres) (by rw [hs]; exact hst)

/-- The settings of an idle queue: a legal value is taken, one out of range is refused (R135). -/
theorem cqeQCtlWrite_settings (v : Word) (ho : d.isOpen 0x200) (hsel : d.fld Reg.CQE_QSEL 13 0 = qid) (hen : (d.queue qid).en = false) :
    let t := doCqeQCtlWrite 0x104 v d
    (bits v 7 2 ≤ 32 → 32 ≤ bits v 26 16 → (t.queue qid).en = bitAt v 0 ∧ (t.queue qid).ien = bitAt v 1 ∧
      (t.queue qid).coalN = bits v 7 2 ∧ (t.queue qid).coalUs = bits v 15 8 ∧ (t.queue qid).vector = bits v 26 16) ∧
    (32 < bits v 7 2 ∨ bits v 26 16 < 32 → (d.page 0x200).err = false → v &&& 0xF8000000 = 0 →
      t.queue qid = d.queue qid ∧ (t.page 0x200).errCode = 0x0102) := by
  intro t
  have hoff : Reg.CQE_Q_CTL + 0x104 % 0x1000 - 0x104 = Reg.CQE_Q_CTL := by decide
  have heq : t = doCqeQCtlWrite 0x104 v d := rfl
  unfold doCqeQCtlWrite at heq
  rw [hoff] at heq
  extract_lets off at heq
  rw [if_neg (by decide)] at heq
  obtain ⟨m, d2, ⟨hq, -, hreg⟩, herr, hpub⟩ := regWrite_reached heq _ ho (show Reg.CQE_Q_CTL / 0x1000 = 0x200 from rfl) (show regDef? Reg.CQE_Q_CTL = some _ from rfl)
  have hsel2 : d2.fld Reg.CQE_QSEL 13 0 = qid := by rw [Dev.fld, hreg]; exact hsel
  refine ⟨fun hn hv => ?_, fun hbad hidle hz => ?_⟩
  · rw [hpub.queue]
    dsimp only
    rw [if_pos (show off = Reg.CQE_Q_CTL from rfl), hsel2, if_neg (by omega), hq, hen, Bool.false_and, Bool.false_and, if_neg Bool.false_ne_true, Dev.queue_setQueue_self]
    refine ⟨?_, ?_, ?_, ?_, ?_⟩ <;> split <;> rfl
  · have herr2 := (herr hz).trans hidle
    constructor
    · rw [hpub.queue]
      dsimp only
      rw [if_pos (show off = Reg.CQE_Q_CTL from rfl), if_pos hbad]
      exact (Dev.queue_of_reports (Dev.Reports.recordErr _ _ _ _ _) _).trans (hq _)
    · rw [(Page.err_of_body (hpub.body 0x200)).2.1]
      dsimp only
      rw [if_pos (show off = Reg.CQE_Q_CTL from rfl), if_pos hbad, Dev.page_recordErr_first _ _ _ _ _ herr2]

theorem cqeQCtlWrite_base (v : Word) (ho : d.isOpen 0x200) (hsel : d.fld Reg.CQE_QSEL 13 0 = qid) (hen : (d.queue qid).en = false) :
    ((doCqeQCtlWrite 0x108 v d).queue qid).sqb = (d.queue qid).sqb / 2 ^ 32 * 2 ^ 32 + v.toNat / 4096 * 4096 := by
  have hoff : Reg.CQE_Q_CTL + 0x108 % 0x1000 - 0x104 = Reg.CQE_Q_SQB_LO := by decide
  obtain ⟨t, ht⟩ : ∃ t, t = doCqeQCtlWrite 0x108 v d := ⟨_, rfl⟩
  have heq := ht
  unfold doCqeQCtlWrite at heq
  rw [hoff] at heq
  extract_lets off at heq
  rw [if_neg (by decide)] at heq
  obtain ⟨m, d2, ⟨hq, -, hreg⟩, -, hpub⟩ := regWrite_reached heq _ ho (show Reg.CQE_Q_SQB_LO / 0x1000 = 0x200 from rfl) (show regDef? Reg.CQE_Q_SQB_LO = some _ from rfl)
  have hsel2 : d2.fld Reg.CQE_QSEL 13 0 = qid := by rw [Dev.fld, hreg]; exact hsel
  rw [← ht, hpub.queue]
  dsimp only
  rw [if_neg (show off ≠ Reg.CQE_Q_CTL by decide), if_pos (show off = Reg.CQE_Q_SQB_LO from rfl), hsel2, hq, hen, Bool.false_and, Bool.false_and, if_neg Bool.false_ne_true, Dev.queue_setQueue_self]

end

/-- Settles O18: every row of a queue's administration ends as its table says. -/
theorem queueRows : Obligations.QueueRows := by
  intro s qid tag c hrun hqid htag sl q qp t'
  have hcases : ∀ {k : Nat}, qid % 16 = 0 → k ≠ 0 → qid ≠ 16 * (qid / 16) + k := fun h0 hk h => hk (by omega)
  refine ⟨fun hready hpost h0 hqp hmax hen hsq hcq hn => ?_, fun hready hpost h0 hqp hcmds hsquash hres => ?_,
    ?_, fun p0 n hready hpost hheld hr => ?_, fun h hien hun hdue hh hvec => ?_,
    fun k hk hlate => ?_, ?_, ?_,
    fun v ho hsel hen => ⟨fun hn hv => ?_, fun hbad hidle hz => ?_, ?_⟩⟩
  · obtain ⟨-, htg, -⟩ := Dev.ready_spec hready
    have heq := createQp_eq hqid htag hready rfl hqp hmax hen hsq hcq hn
    have hne : qid ≠ t' := hcases h0 hqp
    obtain ⟨hcan, hposts⟩ := Dev.posts_complete hpost (e := s.dev.setQueue t' (Queue.created (s.dev.queue t') t' c)) rfl
      (Dev.queue_setQueue_ne _ hne _) rfl c.tag stSuccess 0
    refine ⟨_, act_of_running s (doCreateQp qid tag) hrun, ?_⟩
    dsimp only
    rw [heq, Dev.queue_complete_ne hcan _ _ _ hne.symm, Dev.queue_setQueue_self]
    exact ⟨htg ▸ hposts, rfl, rfl, rfl, rfl, rfl⟩
  · obtain ⟨-, htg, -⟩ := Dev.ready_spec hready
    have heq := deleteQp_eq hqid htag hready rfl hqp hcmds hsquash hres
    have hne : qid ≠ t' := hcases h0 hqp
    obtain ⟨hcan, hposts⟩ := Dev.posts_complete hpost (e := s.dev.setQueue t' { s.dev.queue t' with en := false }) rfl
      (Dev.queue_setQueue_ne _ hne _) rfl c.tag stSuccess 0
    refine ⟨_, act_of_running s (doDeleteQp qid tag) hrun, ?_⟩
    dsimp only
    rw [heq, Dev.queue_complete_ne hcan _ _ _ hne.symm, Dev.queue_setQueue_self]
    exact ⟨htg ▸ hposts, rfl⟩
  · intro p0 n hready hpost hheld hr ps hload
    obtain ⟨hc, htg, hop, -⟩ := Dev.ready_spec hready
    have heq := mapPin_eq hqid htag hready hheld hr hload
    obtain ⟨hregs, hqs, hout, -⟩ := Dev.pinLoad_keeps s.dev sl c.cls ps
    have hres : ∀ p ∈ ps, sl * 2 ^ 25 + p ∈ (s.dev.pinLoad sl c.cls ps).2.resident := fun p hp => Dev.pinLoad_resident hload hp
    obtain ⟨e, he⟩ : ∃ e, e = (s.dev.pinLoad sl c.cls ps).2 := ⟨_, rfl⟩
    rw [← he] at hregs hqs hout hres
    obtain ⟨hcan, hposts⟩ := Dev.posts_complete hpost
      (e := e.setSlice sl { s.dev.slice sl with pinned := ps.foldl insertSorted (s.dev.slice sl).pinned }) hregs (Dev.queue_congr hqs qid) hout
      c.tag stSuccess 0
    have hcmd : ((e.setSlice sl { s.dev.slice sl with pinned := ps.foldl insertSorted (s.dev.slice sl).pinned }).queue qid).cmd? c.tag = some c := by
      rw [htg]
      exact (congrArg (fun x : Queue => x.cmd? tag) (Dev.queue_congr hqs qid)).trans hc
    obtain ⟨hkeep, hpin⟩ := Dev.complete_quiet hcan hcmd (by rw [hop]; rfl) stSuccess 0
    refine ⟨_, act_of_running s (doMapPin qid tag) hrun, ?_⟩
    dsimp only
    rw [heq, ← he]
    refine ⟨htg ▸ hposts, (hpin sl).trans ?_, fun p hp => ?_⟩
    · exact congrArg Slice.pinned (SMap.get_set_self _ _ _ _)
    · rw [hkeep]
      exact hres p hp
  · obtain ⟨hc, htg, hop, -⟩ := Dev.ready_spec hready
    have heq := mapUnpin_eq hqid htag hready hheld hr
    obtain ⟨hcan, hposts⟩ := Dev.posts_complete hpost (e := s.dev.setSlice sl { s.dev.slice sl with
      pinned := (s.dev.slice sl).pinned.filter (fun p => !(decide (p0 ≤ p) && decide (p < p0 + n))) }) rfl rfl rfl c.tag stSuccess 0
    obtain ⟨-, hpin⟩ := Dev.complete_quiet hcan (htg.symm ▸ hc) (by rw [hop]; rfl) stSuccess 0
    refine ⟨_, act_of_running s (doMapUnpin qid tag) hrun, ?_⟩
    dsimp only
    rw [heq]
    exact ⟨htg ▸ hposts, (hpin sl).trans (congrArg Slice.pinned (SMap.get_set_self _ _ _ _))⟩
  · have heq : doCoalesceTimeout qid s.dev = s.dev.announce qid := by
      unfold doCoalesceTimeout
      dsimp only
      rw [Nat.mod_eq_of_lt hqid, if_pos (by simp [q] at hien hun hdue; simp [hien, hun, hdue])]
    refine ⟨_, act_of_running s (doCoalesceTimeout qid) hrun, ?_⟩
    dsimp only
    rw [heq]
    exact Dev.announce_sends hien hh hvec
  · have heq : doCqStallTimeout qid s.dev = s.dev.raise 0x200 2 := by
      unfold doCqStallTimeout
      rw [Nat.mod_eq_of_lt hqid, hk]
      exact if_pos hlate
    refine ⟨_, act_of_running s (doCqStallTimeout qid) hrun, ?_⟩
    dsimp only
    rw [heq, Dev.intPend_raise _ _ _ (by decide)]
    exact ⟨(bitAt_putBit _ 2 2 true (by decide)).trans rfl, Dev.frame.raise (by decide) _ _ _⟩
  · intro hen hres hst cut
    refine ⟨fun hrel hrr => ?_, fun ho hsel => ⟨_, act_of_running s (doCqeQRst 0x51530001) hrun, cqeQRst_cuts ho hsel hen hres hst⟩⟩
    have heq : doQReset sl (qid % 16) 0x51530001 s.dev = s.dev.queueReset qid := by
      unfold doQReset
      rw [if_pos ⟨rfl, hrel, by simp [hrr]⟩]
      congr 1
      simp only [sl]
      omega
    refine ⟨_, act_of_running s (doQReset sl (qid % 16) 0x51530001) hrun, ?_⟩
    show Queue.CutFrom _ ((doQReset sl (qid % 16) 0x51530001 s.dev).queue qid)
    rw [heq]
    exact Dev.queueReset_cuts s.dev hen hres hst
  · intro hres hroom hst hcut hpost pos
    have hd : s.dev.Drained qid := ⟨hqid, hres, hroom, hst, hcut, hpost⟩
    obtain ⟨hq, hout, -⟩ := Dev.drainStale_spec s.dev qid
    have hn : ((s.dev.drainStale qid).queue qid).cqPosted % 65536 = q.cqPosted % 65536 := by rw [hq]
    have hsq : ((s.dev.drainStale qid).queue qid).squash = q.squash := by rw [hq]
    have hdisc : ((s.dev.drainStale qid).queue qid).discarded = q.discarded := by rw [hq]
    obtain ⟨h1, h2, -, -, h3, h4⟩ := Dev.resetDone_spec stSquashed hd.stale hn
    rw [← hd.resetEnds hn] at h1 h2 h3 h4
    rw [hsq, hdisc] at h4
    refine ⟨_, act_of_running s (doQueueResetDrained qid) hrun, h1, h2, fun i hi => ?_, ?_⟩
    · obtain ⟨pasid, head, addr, ts, sqhd, timeb, -, h⟩ := h3 i (by rw [hsq]; exact hi)
      simp only [hsq] at h
      exact ⟨pasid, head, addr, ts, sqhd, timeb, Dev.tells_within (by rw [hout]) h List.prefix_rfl⟩
    · obtain ⟨pasid, head, addr, ts, sqhd, timeb, hb, h⟩ := h4
      rw [hb rfl] at h
      refine ⟨pasid, head, addr, ts, sqhd, ?_⟩
      have hp64 : pos % 64 = (q.cqPosted + q.squash.length) % 64 := by simp only [pos]; omega
      rw [hp64]
      simp only [pos, phaseOf_mod, tagWord_mod]
      exact Dev.tells_within (by rw [hout]) h List.prefix_rfl
  · exact ⟨_, act_of_running s (doCqeQCtlWrite 0x104 v) hrun, (cqeQCtlWrite_settings v ho hsel hen).1 hn hv⟩
  · exact ⟨_, act_of_running s (doCqeQCtlWrite 0x104 v) hrun, (cqeQCtlWrite_settings v ho hsel hen).2 hbad hidle hz⟩
  · exact ⟨_, act_of_running s (doCqeQCtlWrite 0x108 v) hrun, cqeQCtlWrite_base v ho hsel hen⟩

end Sys2Proof.Machine
end

section
/-! Global Persistent Flush, IDE and PTM (R86, R87, R90 to R93, R397). -/

namespace Sys2Proof.Machine

-- In order, one declaration at a time: keeps the check within its memory limit.
set_option Elab.async false

section
variable (d : Dev)

/-- Capturing an event of a link leaves the registers. -/
theorem Dev.reg_capRecFree (kind src : Nat) (ws : List Nat) (off : Nat) : (d.capRecFree kind src ws).reg off = d.reg off := by
  rw [Dev.capRecFree_eq]
  rfl

theorem Dev.page_capRecFree (kind src : Nat) (ws : List Nat) (pg : Nat) : (d.capRecFree kind src ws).page pg = d.page pg := by
  rw [Dev.capRecFree_eq]
  rfl

theorem Dev.sansEvents_capRecFree (kind src : Nat) (ws : List Nat) : (d.capRecFree kind src ws).sansEvents = d.sansEvents := by
  rw [Dev.capRecFree_eq]
  rfl

/-- A flag follows from its register. -/
theorem Dev.flag_congr {d t : Dev} {off : Nat} (h : t.reg off = d.reg off) (n : Nat) : t.flag off n = d.flag off n := by rw [Dev.flag, h, Dev.flag]

theorem Dev.fld_congr {d t : Dev} {off : Nat} (h : t.reg off = d.reg off) (hi lo : Nat) : t.fld off hi lo = d.fld off hi lo := by
  rw [Dev.fld, h, Dev.fld]

/-! ### Global Persistent Flush (R86, R87, R397) -/

/-- GPF_STS as Phase 1 leaves it. -/
def Dev.gpfFixed (d : Dev) : Dev :=
  ((d.setFlag Reg.HIF_GPF_STS 0 true).setFlag Reg.HIF_GPF_STS 1 false).setFlag Reg.HIF_GPF_STS 2 false

theorem Dev.gpfFixed_flags : d.gpfFixed.flag Reg.HIF_GPF_STS 0 = true ∧ d.gpfFixed.flag Reg.HIF_GPF_STS 1 = false ∧
    d.gpfFixed.flag Reg.HIF_GPF_STS 2 = false := by
  unfold Dev.gpfFixed
  refine ⟨?_, ?_, Dev.flag_setFlag_self _ _ _ _ (by decide)⟩
  · rw [Dev.flag_setFlag_other _ _ _ _ _ (by decide) (by decide), Dev.flag_setFlag_other _ _ _ _ _ (by decide) (by decide)]
    exact Dev.flag_setFlag_self _ _ _ _ (by decide)
  · rw [Dev.flag_setFlag_other _ _ _ _ _ (by decide) (by decide)]
    exact Dev.flag_setFlag_self _ _ _ _ (by decide)

theorem gpfPhase1_eq (hb : d.barUp = true) (hh : d.anyHead = true) : ∃ e, e = d.capRecFree 0x16 d.gpfHead [5, 1] ∧
    doGpfPhase1 d = { e.gpfFixed with gpfMark := d.gTx, gpfRun := false } := by
  refine ⟨_, rfl, ?_⟩
  have hg : (d.capRecFree 0x16 d.gpfHead [5, 1]).gTx = d.gTx := by rw [Dev.capRecFree_eq]
  unfold doGpfPhase1
  rw [hb, hh, if_neg (by decide), ← hg]
  rfl

theorem gpfPhase1_frame (e : Dev) (hr : ∀ o, e.reg o = d.reg o) (hp : ∀ pg, e.page pg = d.page pg) (hs : e.sansEvents = d.sansEvents) (m : Nat) :
    Dev.frame { d with gpfMark := m, gpfRun := false } { e.gpfFixed with gpfMark := m, gpfRun := false } [Reg.HIF_GPF_STS] [] := by
  refine Dev.frame_of (fun o ho _ => ?_) (fun pg _ _ => hp pg) ?_
  · have hne : o ≠ Reg.HIF_GPF_STS := fun h => ho (h ▸ List.mem_singleton.mpr rfl)
    show e.gpfFixed.reg o = d.reg o
    unfold Dev.gpfFixed
    rw [Dev.reg_setFlag_ne _ hne, Dev.reg_setFlag_ne _ hne, Dev.reg_setFlag_ne _ hne, hr]
  · have hset : ∀ x : Dev, ({ x.gpfFixed with gpfMark := m, gpfRun := false } : Dev).sansEvents =
        { x.sansEvents with gpfMark := m, gpfRun := false } := fun _ => rfl
    rw [hset, hs]
    rfl

/-- A flush that completes without a twin. -/
theorem Dev.gpfDone_single (hp : d.paired = false) : d.gpfDone.flag Reg.HIF_GPF_STS 1 = true ∧ d.gpfDone.flag Reg.HIF_GPF_STS 2 = true ∧
    d.gpfDone.gpfRun = false ∧ d.gpfDone.fld Reg.HIF_GPF_STS 31 16 = min (d.fld Reg.HIF_GPF_STS 31 16 + 1) 0xFFFF := by
  unfold Dev.gpfDone
  extract_lets single d1 d2 d3
  have hs : single = true := by simp only [single, hp]; rfl
  rw [if_pos hs]
  have hreg : ((d3.event 0).reg Reg.HIF_GPF_STS) = (d1.incFld Reg.HIF_GPF_STS 31 16 1).reg Reg.HIF_GPF_STS :=
    Dev.reg_raise _ _ _ _ (by decide) (by decide) (by decide)
  have h1 : d1 = (d.setFlag Reg.HIF_GPF_STS 1 true).setFlag Reg.HIF_GPF_STS 2 true := by simp only [d1, hs]
  refine ⟨?_, ?_, rfl, ?_⟩
  · rw [Dev.flag_congr hreg, Dev.incFld, Dev.flag_setFld_other _ _ _ _ _ _ (by decide) (by decide), h1,
      Dev.flag_setFlag_other _ _ _ _ _ (by decide) (by decide)]
    exact Dev.flag_setFlag_self _ _ _ _ (by decide)
  · rw [Dev.flag_congr hreg, Dev.incFld, Dev.flag_setFld_other _ _ _ _ _ _ (by decide) (by decide), h1]
    exact Dev.flag_setFlag_self _ _ _ _ (by decide)
  · rw [Dev.fld_congr hreg, Dev.fld_incFld_self _ _ _ _ _ (by decide), h1, Dev.fld_setFlag_other _ _ _ _ _ _ (by decide) (by decide),
      Dev.fld_setFlag_other _ _ _ _ _ _ (by decide) (by decide)]
    rfl

/-- Phase 2 begins on the state that it tries to end at once. -/
def Dev.gpfBegun (d : Dev) : Dev :=
  { d.capRecFree 0x16 d.gpfHead [5, 2] with gpfMark := if d.flag Reg.HIF_GPF_STS 0 then d.gpfMark else d.gTx, gpfRun := true }

theorem gpfPhase2_eq (hb : d.barUp = true) (hh : d.anyHead = true) (hheld : d.hifHeld = false) : doGpfPhase2 d = d.gpfBegun.gpfTry := by
  unfold doGpfPhase2
  rw [hb, hh, hheld]
  rfl

theorem Dev.gpfBegun_keeps : d.gpfBegun.paired = d.paired ∧ (∀ o, d.gpfBegun.reg o = d.reg o) ∧ d.gpfBegun.gPend = d.gPend := by
  unfold Dev.gpfBegun
  rw [Dev.capRecFree_eq]
  exact ⟨rfl, fun _ => rfl, rfl⟩

theorem gpfPhase2_single (hb : d.barUp = true) (hh : d.anyHead = true) (hheld : d.hifHeld = false) (hp : d.paired = false) :
    (doGpfPhase2 d).flag Reg.HIF_GPF_STS 1 = true ∧ (doGpfPhase2 d).flag Reg.HIF_GPF_STS 2 = true ∧ (doGpfPhase2 d).gpfRun = false ∧
    (doGpfPhase2 d).fld Reg.HIF_GPF_STS 31 16 = min (d.fld Reg.HIF_GPF_STS 31 16 + 1) 0xFFFF := by
  obtain ⟨hpair, hreg, -⟩ := d.gpfBegun_keeps
  have hp' := hpair.trans hp
  have hdone : d.gpfBegun.gpfTry = d.gpfBegun.gpfDone := by
    have hrun : d.gpfBegun.gpfRun = true := rfl
    unfold Dev.gpfTry
    rw [hrun, hp']
    rfl
  rw [gpfPhase2_eq d hb hh hheld, hdone]
  obtain ⟨h1, h2, h3, h4⟩ := d.gpfBegun.gpfDone_single hp'
  exact ⟨h1, h2, h3, by rw [h4, Dev.fld_congr (hreg _)]⟩

theorem gpfPhase2_waits {m : GSent} (hm : m ∈ d.gPend) (hneed : d.gpfNeeds m = true) (hfix : d.flag Reg.HIF_GPF_STS 0 = true) (hb : d.barUp = true)
    (hh : d.anyHead = true) (hheld : d.hifHeld = false) (hp : d.paired = true) :
    (doGpfPhase2 d).gpfRun = true ∧ (doGpfPhase2 d).flag Reg.HIF_GPF_STS 1 = d.flag Reg.HIF_GPF_STS 1 := by
  obtain ⟨hpair, hreg, hpend⟩ := d.gpfBegun_keeps
  have hneed' : d.gpfBegun.gpfNeeds m = true := by
    have hmark : d.gpfBegun.gpfMark = d.gpfMark := by simp only [Dev.gpfBegun, hfix, if_true]
    rw [← hneed]
    unfold Dev.gpfNeeds
    rw [hmark, Dev.fld_congr (hreg _), Dev.headUp_congr (fun k _ => hreg _)]
  have hany : d.gpfBegun.gPend.any d.gpfBegun.gpfNeeds = true := List.any_eq_true.mpr ⟨m, hpend ▸ hm, hneed'⟩
  have hwait : d.gpfBegun.gpfTry = d.gpfBegun := by
    unfold Dev.gpfTry
    rw [hany, hpair.trans hp]
    rfl
  rw [gpfPhase2_eq d hb hh hheld, hwait]
  exact ⟨rfl, Dev.flag_congr (hreg _) _⟩

/-! ### IDE (R90, R91) -/

theorem Dev.ideOf_setIde (k : Nat) (x : Ide) : (d.setIde k x).ideOf k = x := SMap.get_set_self _ _ _ _

theorem Dev.ideOf_of_reports {d t : Dev} (h : d.Reports t) (k : Nat) : t.ideOf k = d.ideOf k := by
  have hide : t.ide = d.ide := congrArg (·.ide) h.kept
  rw [Dev.ideOf, hide, Dev.ideOf]

/-- The status registers of the links do not move with a report. -/
theorem linkSts_notReport {h : Nat} (hh : h < 4) : Reg.HIF_LINK_STS h ∉ reportRegs := by
  interval_cases h <;> decide

theorem ideKey_fresh {h st key : Nat} (hh : h < 4) (hst : st < 2) (hup : d.headUp h = true)
    (hnew : key ∉ SMap.get (fun _ => []) d.ideUsed (256 * h + st)) :
    (doIdeKmKeyProgram h st key true d).ideOf (256 * h + st) = ⟨key, true, false, false⟩ ∧
    (doIdeKmKeyProgram h st key true d).flag (Reg.HIF_LINK_STS h) (8 + st) = true := by
  have hcont : (SMap.get (fun _ => []) d.ideUsed (256 * h + st)).contains key = false := by
    rw [← Bool.not_eq_true, List.contains_iff_mem]
    exact hnew
  unfold doIdeKmKeyProgram
  simp only [Nat.mod_eq_of_lt hh, Nat.mod_eq_of_lt (show st < 256 by omega), hup, hcont, hst, Bool.not_true, Bool.or_self, Bool.false_eq_true,
    if_false, if_true]
  exact ⟨Dev.ideOf_setIde _ _ _, Dev.flag_setFlag_self _ _ _ _ (by omega)⟩

theorem ideKey_refused {h st key : Nat} {spdm : Bool} (hh : h < 4) (hst : st < 256)
    (hbad : spdm = false ∨ d.headUp h = false ∨ key ∈ SMap.get (fun _ => []) d.ideUsed (256 * h + st)) : doIdeKmKeyProgram h st key spdm d = d := by
  unfold doIdeKmKeyProgram
  dsimp only
  rw [Nat.mod_eq_of_lt hh, Nat.mod_eq_of_lt hst]
  refine if_pos ?_
  rcases hbad with rfl | hdown | hused
  · rfl
  · rw [hdown]
    simp
  · rw [List.contains_iff_mem.mpr hused]
    simp

theorem ideExhaust_spec {h st : Nat} (hh : h < 4) (hst : st < 2) (hlive : (d.ideOf (256 * h + st)).live = true) :
    ((doIdeExhaust h st d).ideOf (256 * h + st)).live = false ∧ ((doIdeExhaust h st d).ideOf (256 * h + st)).stopped = true ∧
    (doIdeExhaust h st d).flag (Reg.HIF_LINK_STS h) (8 + st) = false ∧ bitAt ((doIdeExhaust h st d).page 0x100).intPend 3 = true := by
  obtain ⟨e, heq, hide, hflag⟩ : ∃ e : Dev, doIdeExhaust h st d = e.raise 0x100 3 ∧
      e.ideOf (256 * h + st) = { d.ideOf (256 * h + st) with live := false, stopped := true } ∧ e.flag (Reg.HIF_LINK_STS h) (8 + st) = false := by
    unfold doIdeExhaust
    simp only [Nat.mod_eq_of_lt hh, Nat.mod_eq_of_lt (show st < 256 by omega), hlive, hst, if_true]
    exact ⟨_, rfl, Dev.ideOf_setIde _ _ _, Dev.flag_setFlag_self _ _ _ _ (by omega)⟩
  have hrep := Dev.Reports.raise e 0x100 3
  rw [heq, Dev.ideOf_of_reports hrep, hide, Dev.flag_congr (hrep.regs _ (linkSts_notReport hh)), Dev.intPend_raise _ _ _ (by decide)]
  exact ⟨rfl, rfl, hflag, (bitAt_putBit _ 3 3 true (by decide)).trans rfl⟩

/-- A head that goes down is not up, and only its link's state beside reports has changed. -/
theorem Dev.takeHeadDown_spec {h : Nat} (hh : h < 4) : (d.takeHeadDown h).headUp h = false ∧ (d.takeHeadDown h).ide = d.ide ∧
    ∀ pg, (d.page pg).Later ((d.takeHeadDown h).page pg) := by
  unfold Dev.takeHeadDown
  split
  · next hup =>
    extract_lets d1
    have hall := (Dev.Reports.raise { d1 with headDown := SMap.insert d1.headDown h d1.tick } 0x100 0).trans (Dev.Reports.capRecFree _ 0x16 h [0])
    refine ⟨?_, congrArg (·.ide) hall.kept, hall.page⟩
    unfold Dev.headUp
    rw [Dev.flag_congr (hall.regs _ (linkSts_notReport hh))]
    have hflag : d1.flag (Reg.HIF_LINK_STS h) 0 = false := by
      simp only [d1]
      rw [Dev.flag_setFlag_other _ _ _ _ _ (by decide) (by decide), Dev.flag_setFlag_other _ _ _ _ _ (by decide) (by decide)]
      exact Dev.flag_setFlag_self _ _ _ _ (by decide)
    show (decide (h < 4) && d1.flag (Reg.HIF_LINK_STS h) 0) = false
    rw [hflag, Bool.and_false]
  · next hup => exact ⟨Bool.not_eq_true _ ▸ hup, rfl, fun _ => .refl _⟩

theorem ideIntegrityFail_spec {h st : Nat} (hh : h < 4) (hst : st < 2) (hlive : (d.ideOf (256 * h + st)).live = true)
    (herr : (d.page 0x100).err = false) : ((doIdeIntegrityFail h st d).ideOf (256 * h + st)).insecure = true ∧
    (doIdeIntegrityFail h st d).headUp h = false ∧ ((doIdeIntegrityFail h st d).page 0x100).errCode = 0x0101 ∧
    ((doIdeIntegrityFail h st d).page 0x100).info0 = w32 h ∧ ((doIdeIntegrityFail h st d).page 0x100).info1 = w32 st := by
  obtain ⟨e, heq, hide, hpage⟩ : ∃ e : Dev, doIdeIntegrityFail h st d = ((e.recordErr 0x100 0x0101 h st).raise 0x100 2).takeHeadDown h ∧
      e.ideOf (256 * h + st) = { d.ideOf (256 * h + st) with live := false, insecure := true } ∧ e.page 0x100 = d.page 0x100 := by
    unfold doIdeIntegrityFail
    simp only [Nat.mod_eq_of_lt hh, Nat.mod_eq_of_lt (show st < 256 by omega), hlive, if_true]
    exact ⟨_, rfl, Dev.ideOf_setIde _ _ _, Dev.page_capRecFree _ _ _ _ _⟩
  have hrep := (Dev.Reports.recordErr e 0x100 0x0101 h st).trans (Dev.Reports.raise _ 0x100 2)
  obtain ⟨hdown, hkeep, hlater⟩ := Dev.takeHeadDown_spec ((e.recordErr 0x100 0x0101 h st).raise 0x100 2) hh
  have hfirst := Dev.page_recordErr_first e 0x100 0x0101 h st (by rw [hpage]; exact herr)
  have hpg := (((Dev.Reports.raise (e.recordErr 0x100 0x0101 h st) 0x100 2).page 0x100).trans (hlater 0x100)).1 (by rw [hfirst])
  rw [heq]
  refine ⟨?_, hdown, hpg.2.1.trans (by rw [hfirst]), hpg.2.2.1.trans (by rw [hfirst]), hpg.2.2.2.trans (by rw [hfirst])⟩
  rw [Dev.ideOf, hkeep]
  exact congrArg Ide.insecure ((Dev.ideOf_of_reports hrep _).trans hide)

end

/-! ### Precision time measurement (R92, R93) -/

/-- What the figures of the last dialogue are held in. -/
def ptmRegs : List Nat := [Reg.HIF_PTM_STS, Reg.HIF_PTM_OFS, Reg.HIF_PTM_PDELAY]

/-- From `d` to `t` the figures of the last dialogue stay. -/
def Dev.KeepsPtm (d t : Dev) : Prop := t.ptmLast = d.ptmLast ∧ ∀ o ∈ ptmRegs, t.reg o = d.reg o

section
variable {d e t : Dev}

theorem Dev.KeepsPtm.refl (d : Dev) : d.KeepsPtm d := ⟨rfl, fun _ _ => rfl⟩

theorem Dev.KeepsPtm.trans (h : d.KeepsPtm e) (h' : e.KeepsPtm t) : d.KeepsPtm t := ⟨h'.1.trans h.1, fun o ho => (h'.2 o ho).trans (h.2 o ho)⟩

theorem Dev.KeepsPtm.ite {c : Prop} [Decidable c] (h : d.KeepsPtm e) (h' : d.KeepsPtm t) : d.KeepsPtm (if c then e else t) := by
  split
  · exact h
  · exact h'

theorem Dev.KeepsPtm.setReg {off : Nat} (h : off ∉ ptmRegs) (d : Dev) (v : Word) : d.KeepsPtm (d.setReg off v) :=
  ⟨rfl, fun _ ho => Dev.reg_setReg_ne d (ne_of_mem_of_not_mem ho h) v⟩

theorem Dev.KeepsPtm.of_reports (h : d.Reports t) : d.KeepsPtm t := by
  have hno : ∀ o ∈ ptmRegs, o ∉ reportRegs := by decide
  exact ⟨congrArg (·.ptmLast) h.kept, fun o ho => h.regs o (hno o ho)⟩

variable (d)

theorem Dev.KeepsPtm.score (src v : Nat) (slice cls group : Option Nat) : d.KeepsPtm (d.score src v slice cls group) := by
  have h := (Dev.sansEntry_score d src v slice cls group).1
  have hlast : (d.score src v slice cls group).sansEntry.ptmLast = d.sansEntry.ptmLast := by rw [h]
  exact ⟨hlast, fun o _ => (congrArg (fun x : Dev => x.reg o) h : (d.score src v slice cls group).sansEntry.reg o = d.sansEntry.reg o)⟩

theorem Dev.KeepsPtm.coarseCheck : d.KeepsPtm d.coarseCheck :=
  .ite (.setReg (by decide) _ _) (.ite (.setReg (by decide) _ _) (.refl _))

theorem Dev.KeepsPtm.timeLock (fig : Nat) : d.KeepsPtm (d.timeLock fig) := by
  unfold Dev.timeLock
  extract_lets d1 _ d2
  have h1 : d.KeepsPtm d1 := .ite (.refl _) ⟨rfl, fun _ _ => rfl⟩
  have h2 : d1.KeepsPtm d2 := (Dev.KeepsPtm.setReg (off := Reg.DLR_TIME_STS) (by decide) d1 _).trans ⟨rfl, fun _ _ => rfl⟩
  exact h1.trans (h2.trans ((Dev.KeepsPtm.coarseCheck d2).trans (.setReg (off := Reg.GLB_TIME_UNC) (by decide) _ _)))

theorem Dev.KeepsPtm.correct (ofs : Int) : d.KeepsPtm (d.correct ofs) := by
  have h : d.KeepsPtm ((d.setReg Reg.DLR_TIME_OFS (wInt ofs)).setSlew ofs) :=
    (Dev.KeepsPtm.setReg (off := Reg.DLR_TIME_OFS) (by decide) _ _).trans
      ((Dev.KeepsPtm.setReg (off := Reg.DLR_SLEW_LEFT) (by decide) _ _).trans (.setReg (off := Reg.DLR_TIME_STS) (by decide) _ _))
  exact h.trans ⟨rfl, fun _ _ => rfl⟩

theorem Dev.KeepsPtm.timeChange (d0 : Dev) : d.KeepsPtm (Dev.timeChange d0 d) :=
  .ite (.refl _) (.of_reports ((Dev.Reports.capRec d _ _ _).trans (Dev.Reports.raise _ _ _)))

end

section
variable (d : Dev)

/-- The lock's change shows in PTM_STS. -/
theorem Dev.ptmLock_spec (b : Bool) : (d.ptmLock b).flag Reg.HIF_PTM_STS 0 = b ∧ (d.ptmLock b).fld Reg.HIF_PTM_STS 7 4 = d.fld Reg.HIF_PTM_STS 7 4 ∧
    (d.ptmLock b).ptmLast = d.ptmLast ∧ ∀ o ∈ [Reg.HIF_PTM_OFS, Reg.HIF_PTM_PDELAY], (d.ptmLock b).reg o = d.reg o := by
  unfold Dev.ptmLock
  split
  · next h => exact ⟨h, rfl, rfl, fun _ _ => rfl⟩
  · extract_lets d1
    have hrep : (d.setFlag Reg.HIF_PTM_STS 0 b).KeepsPtm d1 := .of_reports (Dev.Reports.raise _ _ _)
    have hsts := hrep.2 Reg.HIF_PTM_STS (by decide)
    have hother : ∀ o ∈ [Reg.HIF_PTM_OFS, Reg.HIF_PTM_PDELAY], d1.reg o = d.reg o := fun o ho => by
      have hp : ∀ o ∈ [Reg.HIF_PTM_OFS, Reg.HIF_PTM_PDELAY], o ∈ ptmRegs ∧ o ≠ Reg.HIF_PTM_STS := by decide
      rw [hrep.2 o (hp o ho).1, Dev.reg_setFlag_ne _ (hp o ho).2]
    have hflag : d1.flag Reg.HIF_PTM_STS 0 = b := by
      rw [Dev.flag_congr hsts]
      exact Dev.flag_setFlag_self _ _ _ _ (by decide)
    have hfld : d1.fld Reg.HIF_PTM_STS 7 4 = d.fld Reg.HIF_PTM_STS 7 4 := by
      rw [Dev.fld_congr hsts]
      exact Dev.fld_setFlag_other _ _ _ _ _ _ (by decide) (by decide)
    have hlast : d1.ptmLast = d.ptmLast := hrep.1
    split
    · exact ⟨hflag, hfld, hlast, hother⟩
    · refine ⟨?_, ?_, hlast, fun o ho => ?_⟩
      · rw [Dev.incFld, Dev.flag_setFld_other _ _ _ _ _ _ (by decide) (by decide), hflag]
      · rw [Dev.incFld, Dev.fld_setFld_other _ _ _ _ _ _ _ (by decide) (by decide), hfld]
      · have hne : ∀ o ∈ [Reg.HIF_PTM_OFS, Reg.HIF_PTM_PDELAY], o ≠ Reg.HIF_PTM_STS := by decide
        rw [Dev.reg_incFld_ne _ (hne o ho), hother o ho]

/-- The count of good dialogues after one with this residual. -/
def Dev.ptmGoods (d : Dev) (residual : Int) : Nat := if residual.natAbs ≤ 8 then min (d.fld Reg.HIF_PTM_STS 7 4 + 1) 15 else 0

/-- The figures of a completed dialogue. -/
def Dev.ptmFigures (d : Dev) (residual : Int) (delay : Nat) : Dev :=
  let e : Dev := { (d.capAdd 0x29 0 0 [] 32 d.freeVal).drawn with
    ptmBad := if residual.natAbs ≤ 8 then 0 else d.ptmBad + 1, ptmLast := d.tick, ptmGood := d.ptmGoods residual }
  ((((e.setFld Reg.HIF_PTM_STS 7 4 (d.ptmGoods residual)).setReg Reg.HIF_PTM_OFS (wInt residual)).setReg Reg.HIF_PTM_PDELAY (w32 delay)).score 14
    (1000 * residual.natAbs) none none none)

/-- The lock after a completed dialogue. -/
def Dev.ptmJudged (d : Dev) (residual : Int) (e : Dev) : Dev :=
  if 8 ≤ d.ptmGoods residual then e.ptmLock true else if 3 ≤ e.ptmBad then e.ptmLock false else e

theorem ptmDialogue_eq (ofs res : Int) (delay : Nat) (hen : d.flag Reg.HIF_PTM_CTL 0 = true) (hup : d.headUp (d.fld Reg.HIF_PTM_CTL 2 1) = true)
    (hheld : d.hifHeld = false) : (d.ptmJudged res (d.ptmFigures res delay)).KeepsPtm (doPtmDialogue ofs res delay d) := by
  have htick : (d.capAdd 0x29 0 0 [] 32 d.freeVal).tick = d.tick := by rw [Dev.capAdd_eq]
  have hreg : (d.capAdd 0x29 0 0 [] 32 d.freeVal).regs = d.regs := by rw [Dev.capAdd_eq]
  have hbad : (d.capAdd 0x29 0 0 [] 32 d.freeVal).ptmBad = d.ptmBad := by rw [Dev.capAdd_eq]
  have hfld : (d.capAdd 0x29 0 0 [] 32 d.freeVal).drawn.fld Reg.HIF_PTM_STS 7 4 = d.fld Reg.HIF_PTM_STS 7 4 :=
    Dev.fld_congr (d := d) (by show (d.capAdd 0x29 0 0 [] 32 d.freeVal).reg _ = _; rw [Dev.reg, hreg, Dev.reg]) _ _
  unfold doPtmDialogue
  rw [hen, hup, hheld, if_neg (by decide)]
  extract_lets d1 good g d2 d3 d4 d5
  have hg : g = d.ptmGoods res := by
    simp only [g, good, d1, hfld, Dev.ptmGoods, decide_eq_true_eq, satN]
    rfl
  have h5 : d5 = d.ptmJudged res (d.ptmFigures res delay) := by
    have h4 : d4 = d.ptmFigures res delay := by
      simp only [d4, d3, d2, Dev.ptmFigures, ← hg, good, d1, decide_eq_true_eq]
      rw [show (d.capAdd 0x29 0 0 [] 32 d.freeVal).drawn.tick = d.tick from htick,
        show (d.capAdd 0x29 0 0 [] 32 d.freeVal).drawn.ptmBad = d.ptmBad from hbad]
    simp only [d5, hg, h4]
    rfl
  rw [← h5]
  exact .ite ((Dev.KeepsPtm.correct d5 ofs).trans ((Dev.KeepsPtm.timeLock _ 8).trans (.timeChange _ d5))) (.ite (.setReg (by decide) _ _) (.refl _))

theorem Dev.ptmFigures_spec (res : Int) (delay : Nat) : (d.ptmFigures res delay).reg Reg.HIF_PTM_OFS = wInt res ∧
    (d.ptmFigures res delay).reg Reg.HIF_PTM_PDELAY = w32 delay ∧ (d.ptmFigures res delay).fld Reg.HIF_PTM_STS 7 4 = d.ptmGoods res ∧
    (d.ptmFigures res delay).ptmLast = d.tick ∧ (d.ptmFigures res delay).ptmBad = if res.natAbs ≤ 8 then 0 else d.ptmBad + 1 := by
  unfold Dev.ptmFigures
  extract_lets _ e
  obtain ⟨x, hx⟩ : ∃ x, x = ((e.setFld Reg.HIF_PTM_STS 7 4 (d.ptmGoods res)).setReg Reg.HIF_PTM_OFS (wInt res)).setReg Reg.HIF_PTM_PDELAY (w32 delay) :=
    ⟨_, rfl⟩
  have hscore := Dev.KeepsPtm.score x 14 (1000 * res.natAbs) none none none
  have hbad : (x.score 14 (1000 * res.natAbs) none none none).sansEntry.ptmBad = x.sansEntry.ptmBad := by
    rw [(Dev.sansEntry_score x 14 (1000 * res.natAbs) none none none).1]
  rw [← hx]
  refine ⟨?_, ?_, ?_, hscore.1.trans (by rw [hx]; rfl), hbad.trans (by rw [hx]; rfl)⟩
  · rw [hscore.2 _ (by decide), hx, Dev.reg_setReg_ne _ (by decide), Dev.reg_setReg_self]
  · rw [hscore.2 _ (by decide), hx, Dev.reg_setReg_self]
  · have hsts : x.reg Reg.HIF_PTM_STS = (e.setFld Reg.HIF_PTM_STS 7 4 (d.ptmGoods res)).reg Reg.HIF_PTM_STS := by
      rw [hx, Dev.reg_setReg_ne _ (by decide), Dev.reg_setReg_ne _ (by decide)]
    rw [Dev.fld_congr ((hscore.2 _ (by decide)).trans hsts), Dev.fld_setFld_self _ _ _ _ _ (by decide)]
    refine Nat.mod_eq_of_lt ?_
    unfold Dev.ptmGoods
    split
    · exact lt_of_le_of_lt (Nat.min_le_right _ _) (by decide)
    · decide

theorem Dev.ptmJudged_spec {d e : Dev} {res : Int} (hg : e.fld Reg.HIF_PTM_STS 7 4 = d.ptmGoods res) :
    (d.ptmJudged res e).fld Reg.HIF_PTM_STS 7 4 = d.ptmGoods res ∧ (d.ptmJudged res e).ptmLast = e.ptmLast ∧
    (∀ o ∈ [Reg.HIF_PTM_OFS, Reg.HIF_PTM_PDELAY], (d.ptmJudged res e).reg o = e.reg o) ∧
    (8 ≤ d.ptmGoods res → (d.ptmJudged res e).flag Reg.HIF_PTM_STS 0 = true) ∧
    (d.ptmGoods res < 8 → 3 ≤ e.ptmBad → (d.ptmJudged res e).flag Reg.HIF_PTM_STS 0 = false) := by
  unfold Dev.ptmJudged
  split
  · next h8 =>
    obtain ⟨h1, h2, h3, h4⟩ := e.ptmLock_spec true
    exact ⟨h2.trans hg, h3, h4, fun _ => h1, fun h => absurd h8 (by omega)⟩
  · next h8 =>
    split
    · obtain ⟨h1, h2, h3, h4⟩ := e.ptmLock_spec false
      exact ⟨h2.trans hg, h3, h4, fun h => absurd h h8, fun _ _ => h1⟩
    · next h3 => exact ⟨hg, rfl, fun _ _ => rfl, fun h => absurd h h8, fun _ h => absurd h h3⟩

theorem ptmDialogue_spec (ofs res : Int) (delay : Nat) (hen : d.flag Reg.HIF_PTM_CTL 0 = true) (hup : d.headUp (d.fld Reg.HIF_PTM_CTL 2 1) = true)
    (hheld : d.hifHeld = false) :
    let t := doPtmDialogue ofs res delay d
    t.reg Reg.HIF_PTM_OFS = wInt res ∧ t.reg Reg.HIF_PTM_PDELAY = w32 delay ∧ t.ptmLast = d.tick ∧
    (res.natAbs ≤ 8 → t.fld Reg.HIF_PTM_STS 7 4 = min (d.fld Reg.HIF_PTM_STS 7 4 + 1) 15 ∧
      (7 ≤ d.fld Reg.HIF_PTM_STS 7 4 → t.flag Reg.HIF_PTM_STS 0 = true)) ∧
    (8 < res.natAbs → t.fld Reg.HIF_PTM_STS 7 4 = 0 ∧ (2 ≤ d.ptmBad → t.flag Reg.HIF_PTM_STS 0 = false)) := by
  intro t
  obtain ⟨hofs, hdelay, hfld, hlast, hbad⟩ := d.ptmFigures_spec res delay
  obtain ⟨jfld, jlast, jreg, jlock, jlose⟩ := Dev.ptmJudged_spec (e := d.ptmFigures res delay) hfld
  obtain ⟨klast, kreg⟩ := ptmDialogue_eq d ofs res delay hen hup hheld
  have hsts := kreg Reg.HIF_PTM_STS (by decide)
  have hgood : ∀ h : res.natAbs ≤ 8, d.ptmGoods res = min (d.fld Reg.HIF_PTM_STS 7 4 + 1) 15 := fun h => if_pos h
  refine ⟨?_, ?_, (klast.trans jlast).trans hlast, fun h => ⟨?_, fun h7 => ?_⟩, fun h => ⟨?_, fun h2 => ?_⟩⟩
  · exact (kreg _ (by decide)).trans ((jreg _ (by decide)).trans hofs)
  · exact (kreg _ (by decide)).trans ((jreg _ (by decide)).trans hdelay)
  · rw [Dev.fld_congr hsts, jfld, hgood h]
  · rw [Dev.flag_congr hsts]
    exact jlock (by rw [hgood h]; omega)
  · rw [Dev.fld_congr hsts, jfld]
    exact if_neg (by omega)
  · rw [Dev.flag_congr hsts]
    have h0 : d.ptmGoods res = 0 := if_neg (by omega)
    rw [if_neg (by omega)] at hbad
    exact jlose (by omega) (by omega)

/-- A lock lost: its frame. -/
theorem Dev.ptmLock_frame (hlock : d.flag Reg.HIF_PTM_STS 0 = true) : d.frame (d.ptmLock false) [Reg.HIF_PTM_STS] [0x100] := by
  unfold Dev.ptmLock
  rw [hlock, if_neg (by decide)]
  dsimp only
  rw [if_neg (by decide)]
  exact (Dev.frame.setReg (by decide) d _ _).trans ((Dev.frame.raise (by decide) _ _ 1).trans (Dev.frame.setReg (by decide) _ _ _))

theorem ptmTimeout_spec (hlock : d.flag Reg.HIF_PTM_STS 0 = true) (hlate : d.ptmLast + 1000000000 ≤ d.tick) (herr : (d.page 0x100).err = false) :
    let t := doPtmTimeout d
    t.flag Reg.HIF_PTM_STS 0 = false ∧ t.fld Reg.HIF_PTM_STS 7 4 = 0 ∧ (t.page 0x100).errCode = 0x0104 ∧
      Dev.frame { d with ptmGood := 0 } t [Reg.HIF_PTM_STS] [0x100] := by
  intro t
  obtain ⟨x, hx⟩ : ∃ x : Dev, x = (d.ptmLock false).setFld Reg.HIF_PTM_STS 7 4 0 := ⟨_, rfl⟩
  have ht : t = ({ x with ptmGood := 0 } : Dev).recordErr 0x100 0x0104 (x.fld Reg.HIF_PTM_CTL 2 1) 0 := by
    simp only [t, hx]
    unfold doPtmTimeout
    rw [if_pos (by simp [hlock, hlate])]
    rfl
  have hreg : ∀ o, t.reg o = x.reg o := fun o => by rw [ht, Dev.reg_recordErr]; rfl
  have hframe : d.frame x [Reg.HIF_PTM_STS] [0x100] := by
    rw [hx]
    exact (d.ptmLock_frame hlock).trans (Dev.frame.setReg (by decide) _ _ _)
  have hpage : (x.page 0x100).err = false := by
    rw [hx]
    show ((d.ptmLock false).page 0x100).err = false
    unfold Dev.ptmLock
    rw [hlock, if_neg (by decide)]
    dsimp only
    rw [if_neg (by decide)]
    show (((d.setFlag Reg.HIF_PTM_STS 0 false).raise 0x100 1).page 0x100).err = false
    rw [Dev.intPend_raise _ _ _ (by decide)]
    exact herr
  refine ⟨?_, ?_, ?_, ?_⟩
  · rw [Dev.flag_congr (hreg _), hx, Dev.flag_setFld_other _ _ _ _ _ _ (by decide) (by decide)]
    exact (d.ptmLock_spec false).1
  · rw [Dev.fld_congr (hreg _), hx]
    exact Dev.fld_setFld_self _ _ _ _ _ (by decide)
  · rw [ht, Dev.page_recordErr_first { x with ptmGood := 0 } _ _ _ _ hpage]
  · have hgood : Dev.frame { d with ptmGood := 0 } { x with ptmGood := 0 } [Reg.HIF_PTM_STS] [0x100] := by
      obtain ⟨h1, h2, h3⟩ := hframe
      refine Dev.frame_of h1 h2 ?_
      have hset : ∀ y : Dev, ({ y with ptmGood := 0 } : Dev).sansEvents = { y.sansEvents with ptmGood := 0 } := fun _ => rfl
      have hs : x.sansEvents = d.sansEvents := by rw [h3]; rfl
      rw [hset, hset, hs]
    rw [ht]
    exact hgood.trans (Dev.frame.recordErr (by decide) _ _ _ _ _)

end

/-- Settles O12: each service of the link does what its section says. -/
theorem linkServices : Obligations.LinkServices := by
  intro s hrun
  refine ⟨fun hb hh => ?_, fun hb hh hheld hp => ⟨_, act_of_running s doGpfPhase2 hrun, gpfPhase2_single s.dev hb hh hheld hp⟩,
    fun m hm hneed hfix hb hh hheld hp => ⟨_, act_of_running s doGpfPhase2 hrun, gpfPhase2_waits s.dev hm hneed hfix hb hh hheld hp⟩,
    fun h st key hh hst hup hnew => ⟨_, act_of_running s (doIdeKmKeyProgram h st key true) hrun, ideKey_fresh s.dev hh hst hup hnew⟩,
    fun h st key spdm hh hst hbad => ?_, fun h st hh hst hlive => ⟨⟨_, act_of_running s (doIdeExhaust h st) hrun, ideExhaust_spec s.dev hh hst hlive⟩,
      fun herr => ⟨_, act_of_running s (doIdeIntegrityFail h st) hrun, ideIntegrityFail_spec s.dev hh hst hlive herr⟩⟩,
    fun ofs res delay hen hup hheld => ⟨_, act_of_running s (doPtmDialogue ofs res delay) hrun, ptmDialogue_spec s.dev ofs res delay hen hup hheld⟩,
    fun hlock hlate herr => ⟨_, act_of_running s doPtmTimeout hrun, ptmTimeout_spec s.dev hlock hlate herr⟩⟩
  · obtain ⟨e, he, heq⟩ := gpfPhase1_eq s.dev hb hh
    have hframe := gpfPhase1_frame s.dev e (fun o => by rw [he, Dev.reg_capRecFree]) (fun pg => by rw [he, Dev.page_capRecFree])
      (by rw [he, Dev.sansEvents_capRecFree]) s.dev.gTx
    obtain ⟨h0, h1, h2⟩ := e.gpfFixed_flags
    refine ⟨_, act_of_running s doGpfPhase1 hrun, ?_⟩
    dsimp only
    rw [heq]
    exact ⟨h0, h1, h2, hframe⟩
  · have hsame := act_of_running s (doIdeKmKeyProgram h st key spdm) hrun
    rw [ideKey_refused s.dev hh hst hbad] at hsame
    exact hsame

end Sys2Proof.Machine
end

section
/-! The persistent window: its loads and stores, its segments and their write-back (R72 to R89). -/

namespace Sys2Proof.Machine

-- In order, one declaration at a time: keeps the check within its memory limit.
set_option Elab.async false

/-! ### Messages to the twin -/

/-- The device without what sending a message changes. -/
def Dev.sansMessage (d : Dev) : Dev := { d with regs := [], out := [], draws := 0, gTx := 0, gPend := [], gLastTx := 0, gSaid := 0 }

/-- The registers that sending a message changes. -/
def messageRegs : List Nat := [Reg.TWN_TX_INV, Reg.TWN_MIR_PEND]

/-- `t` comes from `d` by messages sent to the twin. -/
abbrev Dev.Messages (d t : Dev) : Prop := Dev.Frame Dev.sansMessage messageRegs d t

section
variable (d : Dev)

theorem Dev.Messages.putGulon (kind mnum : Nat) (last : Bool) (fs : Fields) : d.Messages (d.putGulon kind mnum last fs) := by
  unfold Dev.putGulon
  extract_lets inv len hd d1
  have h1 : d.Messages d1 := Dev.Frame.ite ((Dev.Frame.emit _).trans (.hidden rfl rfl rfl)) (.emit _)
  have h2 : d1.Messages (d1.setReg Reg.TWN_TX_INV (w32 (inv + 1))) := .setReg (by decide) _
  exact Dev.Frame.ite (.refl d) (h1.trans (h2.trans (.hidden rfl rfl rfl)))

theorem Dev.Messages.sendPart (kind : Nat) (last : Bool) (fs : Fields) : d.Messages (d.sendPart kind last fs) := by
  unfold Dev.sendPart
  extract_lets go d1 d2
  have h1 : d.Messages d1 := Dev.Frame.ite (Dev.Messages.putGulon d _ _ _ _) (.refl d)
  have h2 : d1.Messages d2 := .hidden rfl rfl rfl
  exact Dev.Frame.ite (h1.trans (h2.trans (.setFld (by decide) _ _ _))) (.refl d)

theorem Dev.Messages.sendGulon (kind : Nat) (fs : Fields) : d.Messages (d.sendGulon kind fs) := Dev.Messages.sendPart d _ _ _

end

/-! ### Waking the domains of the dump set (R435) -/

/-- The device without what waking a domain changes. -/
def Dev.sansWaking (d : Dev) : Dev := { d.sansReports with ports := [], doms := [] }

/-- From `d` to `t` domains have been woken. -/
structure Dev.Wakes (d t : Dev) : Prop where
  kept : t.sansWaking = d.sansWaking
  out : d.out <+: t.out

section
variable {d e t : Dev}

theorem Dev.Wakes.refl (d : Dev) : d.Wakes d := ⟨Eq.refl _, List.prefix_rfl⟩

theorem Dev.Wakes.trans (h : d.Wakes e) (h' : e.Wakes t) : d.Wakes t := ⟨h'.kept.trans h.kept, h.out.trans h'.out⟩

theorem Dev.Wakes.ite {c : Prop} [Decidable c] (h : d.Wakes e) (h' : d.Wakes t) : d.Wakes (if c then e else t) := by
  split
  · exact h
  · exact h'

theorem Dev.Wakes.foldl {α : Type} {f : Dev → α → Dev} (h : ∀ (e : Dev) x, e.Wakes (f e x)) (l : List α) (d : Dev) : d.Wakes (l.foldl f d) :=
  List.foldlRecOn (motive := fun e : Dev => d.Wakes e) l f (.refl d) (fun e he x _ => he.trans (h e x))

variable (d)

theorem Dev.Wakes.setDom (g : Nat) (x : Dom) : d.Wakes (d.setDom g x) := ⟨Eq.refl _, List.prefix_rfl⟩

theorem Dev.Wakes.setLane (p st : Nat) (x : Port) : d.Wakes ((d.setPort p x).setLstate p st) := by
  have h := Dev.Lanes.setLstate (d.setPort p x) p st
  refine ⟨?_, h.out⟩
  have hk := congrArg (fun y : Dev => { y with ports := [], doms := [] }) h.kept
  exact hk

theorem Dev.Wakes.wakeLanes (g : Nat) : d.Wakes (d.wakeLanes g) :=
  .foldl (fun e p => .ite (Dev.Wakes.setLane e p _ _) (.ite (Dev.Wakes.setLane e p _ _) (.refl e))) _ _

theorem Dev.Wakes.wakeDomain (g : Nat) : d.Wakes (d.wakeDomain g) :=
  .ite (.setDom d _ _) (.ite (.setDom d _ _) (.ite (.refl d) ((Dev.Wakes.setDom d _ _).trans (.wakeLanes _ _))))

theorem Dev.Wakes.dumpSetWake : d.Wakes d.dumpSetWake := .ite (.foldl (fun e g => .wakeDomain e g) _ _) (.refl d)

end

/-! ### Dirty granules (R79, R80) -/

/-- Each granule that a store touches is marked. -/
theorem find_pwStored (tick : Nat) {g : Nat} : ∀ (gs : List Nat) (m : SMap PwGran), (m.find g).isSome = true ∨ g ∈ gs →
    ((gs.foldl (pwStored tick) m).find g).isSome = true
  | [], m, h => h.resolve_right (fun h => nomatch h)
  | x :: gs, m, h => by
    refine find_pwStored tick gs _ ?_
    by_cases hx : g = x
    · subst hx
      exact .inl (by rw [pwStored, SMap.find_insert_self]; rfl)
    · rcases h with h | h
      · exact .inl (by rw [pwStored, SMap.find_insert_ne _ _ _ _ hx]; exact h)
      · exact .inr ((List.mem_cons.mp h).resolve_left hx)

section
variable {s : State}

theorem actWindow_of_running (s : State) (f : Memory → Dev → Dev) (g : Memory → Dev → List (Nat × List Byte)) (hrun : s.running) :
    actWindow s f g = .next { s with dev := f s.window s.dev, window := storeWindow s.window (g s.window s.dev) } := by
  obtain ⟨hlost, -, hmain⟩ := hrun
  unfold actWindow
  rw [hlost, hmain]
  rfl

/-! ### Loads (R75, R77, R89) -/

/-- A head through which CXL.mem decodes has no fence of a replay. -/
theorem Dev.memUp_fence {d : Dev} {head : Nat} (h : d.memUp head = true) : d.rpFence = false := by
  unfold Dev.memUp at h
  simp only [Bool.and_eq_true, Bool.not_eq_true'] at h
  exact h.2

/-- The answer to a load within the window. -/
def Dev.loaded (d : Dev) (m : Memory) (off len : Nat) : Dev :=
  if (unitsOf off len 64).any d.pwBad then d.emit .poison
  else d.emit (.readData (ofBytes ((Memory.readList windowDflt m off len).map BitVec.toNat)))

theorem exec_pwinLoad {head off len : Nat} (hrun : s.running) (hup : s.dev.memUp head = true) (hheld : s.dev.hifHeld = false)
    (hin : s.dev.inWindow head off len true = true) : exec (.pwinLoad head off len) s = .next { s with dev := s.dev.loaded s.window off len } := by
  have hbody : doPwinLoad head off len s.window s.dev = s.dev.loaded s.window off len := by
    unfold doPwinLoad
    rw [Dev.memUp_fence hup, hup, hheld, hin]
    rfl
  refine (actWindow_of_running s (doPwinLoad head off len) (fun _ _ => []) hrun).trans ?_
  rw [hbody]
  rfl

/-! ### Stores (R80, R84, R85, R89) -/

/-- The device at a store's end, before the dump set is woken: its granules are dirty and the host has been answered. -/
theorem doPwinStore_spec (d : Dev) {head off : Nat} {bytes : List Byte} (hok : d.storeOk head off bytes.length = true) :
    d.tells (doPwinStore head off bytes d) .cxlDone ∧
    ∀ g ∈ unitsOf off bytes.length 32768, ((doPwinStore head off bytes d).pwDirty.find g).isSome = true := by
  have hok' := hok
  unfold Dev.storeOk at hok'
  simp only [Bool.and_eq_true, Bool.not_eq_true'] at hok'
  obtain ⟨⟨⟨⟨hup, hheld⟩, -⟩, hin⟩, -⟩ := hok'
  have hlen : bytes.length ≠ 0 := fun h0 => by
    rw [h0] at hin
    exact absurd hin (by unfold Dev.inWindow; simp)
  unfold doPwinStore
  extract_lets len full hit base d1 d2 d3 d4 d5 d6 d7
  rw [if_neg (by rw [Dev.memUp_fence hup]; decide), if_neg (by simp [hup, hheld, len, hlen]), if_neg (by simp [len, hin]), if_neg (by simp [len, hok])]
  have hout4 : d4.out = d.out := by
    have h2 : d2.out = d.out := by
      simp only [d2]
      split
      · exact (Dev.foldl_keeps (fun x => x.out) (by intro _ _; rfl) _ _).trans rfl
      · rfl
    have h3 : d3.out = d2.out := by
      simp only [d3]
      split <;> rfl
    exact h3.trans h2
  have hdirty4 : ∀ g ∈ unitsOf off len 32768, (d4.pwDirty.find g).isSome = true := fun g hg => find_pwStored _ _ _ (.inr hg)
  have h5 : d5.out = d4.out ∧ d5.pwDirty = d4.pwDirty := by
    simp only [d5]
    split <;> exact ⟨rfl, rfl⟩
  have h6 : d5.Messages d6 := Dev.Frame.ite (Dev.Messages.sendGulon _ _ _) (.refl _)
  have h7 : d6.Reports d7 := Dev.Frame.ite (Dev.Reports.capRec _ _ _ _) (Dev.Reports.capAdd _ _ _ _ _ _ _)
  have h8 := Dev.Wakes.dumpSetWake (d7.emit .cxlDone)
  have hdirty : (d7.emit .cxlDone).dumpSetWake.pwDirty = d4.pwDirty := by
    have h8d : (d7.emit .cxlDone).dumpSetWake.pwDirty = d7.pwDirty := congrArg (·.pwDirty) h8.kept
    have h7d : d7.pwDirty = d6.pwDirty := congrArg (·.pwDirty) h7.kept
    have h6d : d6.pwDirty = d5.pwDirty := congrArg (·.pwDirty) h6.kept
    rw [h8d, h7d, h6d, h5.2]
  refine ⟨?_, fun g hg => by rw [hdirty]; exact hdirty4 g hg⟩
  have hpre : d.out <+: d7.out := by
    rw [← hout4, ← h5.1]
    exact h6.out.trans h7.out
  refine Dev.tells_within hpre (?_ : d7.tells (d7.emit .cxlDone) .cxlDone) h8.out
  rw [Dev.tells, show (d7.emit .cxlDone).out = d7.out ++ [.cxlDone] from rfl, List.drop_left]
  exact List.mem_singleton.mpr rfl

end

/-- Settles O10: loads and stores of the window, and what they leave of both memories. -/
theorem windowAccess : Obligations.WindowAccess := by
  refine ⟨fun s head off len hrun hup hheld hin hgood => ?_, fun s head off len hrun hup hheld hin hbad => ?_,
    fun s head off bytes hrun => ⟨fun hok => ?_, fun hno => ?_⟩⟩
  · rw [exec_pwinLoad hrun hup hheld hin, Dev.loaded, if_neg (by simpa using hgood)]
  · rw [exec_pwinLoad hrun hup hheld hin, Dev.loaded, if_pos (List.any_eq_true.mpr hbad)]
  · obtain ⟨htell, hdirty⟩ := doPwinStore_spec s.dev hok
    refine ⟨_, actWindow_of_running s (fun _ d => doPwinStore head off bytes d)
      (fun _ d => if d.storeOk head off bytes.length then [(off, bytes)] else []) hrun, ?_⟩
    dsimp only
    rw [if_pos hok]
    exact ⟨fun i h => Memory.read_writeList_inside windowDflt bytes s.window off i h,
      fun a ha => Memory.read_writeList_outside windowDflt bytes s.window off a ha, rfl, htell, hdirty⟩
  · refine ⟨_, actWindow_of_running s (fun _ d => doPwinStore head off bytes d)
      (fun _ d => if d.storeOk head off bytes.length then [(off, bytes)] else []) hrun, ?_⟩
    dsimp only
    rw [if_neg (by rw [hno]; decide)]
    exact ⟨rfl, rfl⟩

end Sys2Proof.Machine
end

section
/-! The segments of the persistent window: write-back, size, activation (R73, R78 to R83). -/

namespace Sys2Proof.Machine

-- In order, one declaration at a time: keeps the check within its memory limit.
set_option Elab.async false

/-! ### A register write to an open page -/

/-- A register write to an open page runs its effect on a device that differs by reports alone. -/
theorem regWrite_effect {d t : Dev} {off pg : Nat} {v : Word} {eff : Word → Dev → Dev} (ht : t = regWrite d off v eff) (ho : d.isOpen pg)
    (hpg : off / 0x1000 = pg) {r : RegDef} (hr : regDef? off = some r) :
    ∃ d2, d.Reports d2 ∧ (∀ o, d2.reg o = d.reg o) ∧ (v &&& w32 r.rsv = 0 → (d2.page pg).err = (d.page pg).err) ∧
      (eff (mergeWrite r (d.reg (canonOff off)) v true) d2).Publishes t := by
  subst ht hpg
  obtain ⟨d1, d2, harr, hd2, hclean, hpub⟩ := regWrite_reports d off v eff r ho hr
  have hrep : d1.Reports d2 ∧ ∀ o, d2.reg o = d1.reg o := by
    rcases hd2 with h | h
    · exact h ▸ ⟨.refl _, fun _ => rfl⟩
    · exact h ▸ ⟨Dev.Reports.recordErr _ _ _ _ _, fun _ => Dev.reg_recordErr _ _ _ _ _ _⟩
  refine ⟨d2, harr.reports.trans hrep.1, fun o => (hrep.2 o).trans (harr.reg o), fun hz => ?_, hpub⟩
  rw [hclean hz]
  exact (Page.err_of_body (harr.body _)).1

/-! ### Segment control -/

/-- A field above bit 0 of a word with bit 0 set. -/
theorem bits_or_one (v : Word) (hi : Nat) {lo : Nat} (hlo : 0 < lo) : bits (v ||| 1) hi lo = bits v hi lo := by
  apply Nat.eq_of_testBit_eq
  intro i
  rw [testBit_bits, testBit_bits]
  have hone : (1#32).getLsbD (lo + i) = false := by
    rw [BitVec.getLsbD_one]
    simp
    omega
  show (decide _ && (v ||| 1#32).getLsbD (lo + i)) = _
  rw [BitVec.getLsbD_or, hone, Bool.or_false]
  rfl

/-- A bit above bit 0 of a word with bit 0 cleared. -/
theorem bitAt_and_not_one (v : Word) {n : Nat} (h0 : 0 < n) (hn : n < 32) : bitAt (v &&& ~~~1) n = bitAt v n := by
  have hone : (~~~(1#32)).getLsbD n = true := by
    rw [BitVec.getLsbD_not, BitVec.getLsbD_one]
    simp
    omega
  show (v &&& ~~~(1#32)).getLsbD n = _
  rw [BitVec.getLsbD_and, hone, Bool.and_true]
  rfl

/-- SEG_CTL's row of its table. -/
def segCtlRow : RegDef := ⟨"SEG_CTL", 0x101200, 32, 0x10, 0x0, 0x0, 0xFFFFFFF7, 0x0, 0x0, 0x8, false, false, false⟩

theorem regDef_segCtl : ∀ n < 32, regDef? (Reg.SEG_CTL n) = some segCtlRow ∧ canonOff (Reg.SEG_CTL n) = Reg.SEG_CTL n := by decide

theorem segSts_ne (n : Nat) : Reg.SEG_CTL n ≠ Reg.SEG_STS n := by simp only [Reg.SEG_CTL, Reg.SEG_STS]; omega

section
variable {d : Dev} {n : Nat}

/-- What a write of SEG_CTL stores when it is not refused. -/
def segNew (d : Dev) (n : Nat) (v : Word) : Word := mergeWrite segCtlRow (d.reg (Reg.SEG_CTL n)) v true

theorem Dev.segLba_congr {d t : Dev} (h : ∀ o, t.reg o = d.reg o) (n : Nat) : t.segLba n = d.segLba n := by
  unfold Dev.segLba Dev.get64
  rw [Dev.fld_congr (h _), Dev.fld_congr (h _)]

theorem segRest_active {t : Dev} (h : t.flag (Reg.SEG_CTL n) 0 = true) : t.segRest n = t := by
  unfold Dev.segRest
  rw [h, Bool.not_true, Bool.and_false, Bool.false_and, if_neg Bool.false_ne_true]

/-- A segment that rests loses ACTIVE, unless it has dirty granules. -/
theorem segRest_drops {t : Dev} (hact : t.segActive n = true) (hen : t.flag (Reg.SEG_CTL n) 0 = false) :
    (t.segRest n).segActive n = t.segDirty n ∧ (t.segRest n).flag (Reg.SEG_CTL n) 0 = false := by
  unfold Dev.segRest
  rw [hact, hen]
  cases hd : t.segDirty n
  · refine ⟨Dev.flag_setFlag_self _ _ _ _ (by decide), ?_⟩
    exact (Dev.flag_setFlag_ne _ (segSts_ne n) _ _ _).trans hen
  · exact ⟨hact, hen⟩

/-- A write that enables a segment at rest with a legal backing. -/
theorem segEnable_spec (ho : d.isOpen 0x101) (hn : n < 32) (hact : d.segActive n = false) (hen : d.flag (Reg.SEG_CTL n) 0 = false)
    (hlba : d.segLba n % 65536 = 0) {v : Word} (hblks : d.segLba n + 65536 ≤ (d.slice (bits v 13 4)).blks) (happ : bits v 31 16 ≠ 0xFFFF) :
    (doSegEnable n v d).flag (Reg.SEG_CTL n) 0 = true ∧ (doSegEnable n v d).segActive n = true ∧
    (doSegEnable n v d).fld (Reg.SEG_CTL n) 13 4 = bits v 13 4 := by
  obtain ⟨hrow, hcanon⟩ := regDef_segCtl n hn
  obtain ⟨d2, hrep, hreg, -, hpub⟩ := regWrite_effect (t := d.segWrite n (v ||| 1)) rfl ho (by simp only [Reg.SEG_CTL]; omega) hrow
  have hnew : mergeWrite segCtlRow (d.reg (canonOff (Reg.SEG_CTL n))) (v ||| 1) true = segNew d n (v ||| 1) := by rw [hcanon]; rfl
  have hbit : bitAt (segNew d n (v ||| 1)) 0 = true := by
    unfold segNew
    rw [bitAt_mergeWrite rfl, if_pos (by decide)]
    show (v ||| 1#32).getLsbD 0 = true
    rw [BitVec.getLsbD_or]
    simp
  have hfield : ∀ hi lo, 0 < lo → (∀ i < hi + 1 - lo, bitAt (w32 (segCtlRow.rw ||| segCtlRow.rwl)) (lo + i) = true) →
      bits (segNew d n (v ||| 1)) hi lo = bits v hi lo := fun hi lo h0 h => (bits_mergeWrite rfl _ _ _ _ h).trans (bits_or_one v hi h0)
  have hslice := hfield 13 4 (by decide) (by decide)
  have htag := hfield 31 16 (by decide) (by decide)
  have hold : bitAt (d2.reg (Reg.SEG_CTL n)) 0 = false := by rw [hreg]; exact hen
  have hact2 : d2.segActive n = false := (Dev.flag_congr (hreg _) 0).trans hact
  have heff : ∀ o, (d.segWrite n (v ||| 1)).reg o = ((storeReg (Reg.SEG_CTL n) (segNew d n (v ||| 1)) d2).setFlag (Reg.SEG_STS n) 0 true).reg o := by
    intro o
    rw [hpub.reg]
    dsimp only
    rw [hnew, hact2, Bool.false_and, if_neg Bool.false_ne_true, hbit, hold, if_pos (show (true && !false) = true from rfl), hslice, htag, Dev.segLba_congr hreg,
      Dev.slice_of_reports hrep, if_neg (by simp [hlba, hblks, happ])]
  have hctl : (d.segWrite n (v ||| 1)).reg (Reg.SEG_CTL n) = segNew d n (v ||| 1) := by
    rw [heff, Dev.reg_setFlag_ne _ (segSts_ne n), storeReg, hcanon, Dev.reg_setReg_self]
  have hflag : (d.segWrite n (v ||| 1)).flag (Reg.SEG_CTL n) 0 = true := by rw [Dev.flag, hctl, hbit]
  have heq : doSegEnable n v d = d.segWrite n (v ||| 1) := by
    unfold doSegEnable
    rw [Nat.mod_eq_of_lt hn, segRest_active hflag]
  rw [heq]
  refine ⟨hflag, ?_, by rw [Dev.fld, hctl, hslice]⟩
  unfold Dev.segActive
  rw [Dev.flag_congr (heff _)]
  exact Dev.flag_setFlag_self _ _ _ _ (by decide)

/-- A write that disables an active segment and moves no other field. -/
theorem segDisable_spec (ho : d.isOpen 0x101) (hn : n < 32) (hact : d.segActive n = true) {v : Word}
    (hv : bits v 31 1 = bits (d.reg (Reg.SEG_CTL n)) 31 1) :
    (doSegDisable n v d).flag (Reg.SEG_CTL n) 0 = false ∧ (doSegDisable n v d).segActive n = d.segDirty n := by
  obtain ⟨hrow, hcanon⟩ := regDef_segCtl n hn
  obtain ⟨d2, hrep, hreg, -, hpub⟩ := regWrite_effect (t := d.segWrite n (v &&& ~~~1)) rfl ho (by simp only [Reg.SEG_CTL]; omega) hrow
  have hnew : mergeWrite segCtlRow (d.reg (canonOff (Reg.SEG_CTL n))) (v &&& ~~~1) true = segNew d n (v &&& ~~~1) := by rw [hcanon]; rfl
  have hbit : bitAt (segNew d n (v &&& ~~~1)) 0 = false := by
    unfold segNew
    rw [bitAt_mergeWrite rfl, if_pos (by decide)]
    show (v &&& ~~~1#32).getLsbD 0 = false
    rw [BitVec.getLsbD_and]
    simp
  have hsame : bits (segNew d n (v &&& ~~~1)) 31 1 = bits (d.reg (Reg.SEG_CTL n)) 31 1 := by
    apply Nat.eq_of_testBit_eq
    intro i
    have hi := congrArg (fun x => x.testBit i) hv
    simp only [testBit_bits] at hi ⊢
    by_cases hlt : i < 31
    · rw [segNew, bitAt_mergeWrite rfl, bitAt_and_not_one v (by omega) (by omega)]
      split
      · exact hi
      · rfl
    · simp [hlt]
  have heff : d.segWrite n (v &&& ~~~1) = d.segWrite n (v &&& ~~~1) ∧
      ∀ o, (d.segWrite n (v &&& ~~~1)).reg o = (storeReg (Reg.SEG_CTL n) (segNew d n (v &&& ~~~1)) d2).reg o := by
    refine ⟨rfl, fun o => ?_⟩
    rw [hpub.reg]
    dsimp only
    rw [hnew, hreg, hsame, hbit]
    simp
  have hctl : (d.segWrite n (v &&& ~~~1)).flag (Reg.SEG_CTL n) 0 = false := by
    rw [Dev.flag, heff.2, storeReg, hcanon, Dev.reg_setReg_self, hbit]
  have hact' : (d.segWrite n (v &&& ~~~1)).segActive n = true := by
    unfold Dev.segActive
    rw [Dev.flag, heff.2, storeReg, hcanon, Dev.reg_setReg_ne _ (segSts_ne n).symm, hreg]
    exact hact
  have hdirty : (d.segWrite n (v &&& ~~~1)).pwDirty = d.pwDirty := by
    obtain ⟨_, _, _, h, -⟩ := hpub
    rw [h]
    have h2 : d2.pwDirty = d.pwDirty := congrArg (·.pwDirty) hrep.kept
    dsimp only
    rw [hnew, hreg, hsame, hbit]
    simp [storeReg, h2]
  have heq : doSegDisable n v d = (d.segWrite n (v &&& ~~~1)).segRest n := by
    unfold doSegDisable
    rw [Nat.mod_eq_of_lt hn]
  obtain ⟨h1, h2⟩ := segRest_drops hact' hctl
  rw [heq]
  refine ⟨h2, h1.trans ?_⟩
  unfold Dev.segDirty
  rw [hdirty]

/-! ### The window's size (R73) -/

theorem pwinResize_spec (ho : d.isOpen 0x101) (hrest : ∀ n < 32, d.segActive n = false) {v : Word} (hmax : bits v 5 0 ≤ 32)
    (hne : bits v 5 0 ≠ d.segs) : (doPwinResize v d).segs = bits v 5 0 ∧ (doPwinResize v d).slots = (32 - bits v 5 0) * 61440 ∧
    (doPwinResize v d).flag Reg.HIF_PWIN_STS 0 = decide (0 < bits v 5 0) := by
  obtain ⟨d2, -, hreg, -, hpub⟩ := regWrite_effect (t := doPwinResize v d) rfl ho rfl (show regDef? Reg.HIF_PWIN_CTL = some _ from rfl)
  obtain ⟨new, hnew⟩ : ∃ new, new = mergeWrite ⟨"HIF_PWIN_CTL", 0x101100, 1, 0x4, 0x0, 0x0, 0x3F, 0x0, 0x0, 0xFFFFFFC0, false, false, false⟩
    (d.reg (canonOff Reg.HIF_PWIN_CTL)) v true := ⟨_, rfl⟩
  rw [← hnew] at hpub
  have hsize : bits new 5 0 = bits v 5 0 := by
    rw [hnew]
    exact bits_mergeWrite rfl _ _ _ _ (by decide)
  have hsegs : d2.segs = d.segs := Dev.fld_congr (hreg _) _ _
  have hact : (List.range 32).any d2.segActive = false := by
    rw [List.any_eq_false]
    intro k hk
    rw [Dev.segActive, Dev.flag_congr (hreg _), Bool.not_eq_true]
    exact hrest k (List.mem_range.mp hk)
  have heff : ∀ o, (doPwinResize v d).reg o =
      (((storeReg Reg.HIF_PWIN_CTL new d2).resizeCache (bits v 5 0)).setFlag Reg.HIF_PWIN_STS 0 (decide (0 < bits v 5 0))).reg o := by
    intro o
    rw [hpub.reg]
    dsimp only
    rw [hsize, if_neg (by rw [hsegs]; exact hne), hact, Bool.or_false, if_neg (by simpa using hmax)]
  refine ⟨?_, ?_, ?_⟩
  · rw [Dev.segs, Dev.fld_congr (heff _), Dev.fld_setFlag_ne _ (by decide)]
    unfold Dev.resizeCache
    rw [Dev.fld_setFlag_ne _ (by decide), Dev.fld_setFld_ne _ (by decide), Dev.fld_setFld_ne _ (by decide), Dev.fld_setFld_ne _ (by decide)]
    rw [Dev.fld, storeReg, show canonOff Reg.HIF_PWIN_CTL = Reg.HIF_PWIN_CTL from rfl, Dev.reg_setReg_self]
    exact hsize
  · rw [Dev.slots, Dev.fld_congr (heff _), Dev.fld_setFlag_ne _ (by decide)]
    unfold Dev.resizeCache
    rw [Dev.fld_setFlag_ne _ (by decide), Dev.fld_setFld_ne _ (by decide), Dev.fld_setFld_ne _ (by decide), Dev.fld_setFld_self _ _ _ _ _ (by decide)]
    omega
  · rw [Dev.flag_congr (heff _)]
    exact Dev.flag_setFlag_self _ _ _ _ (by decide)

/-! ### The write-back of a granule (R79 to R82) -/

/-- What a granule's write-back needs of the state. -/
structure Dev.WritesBack (d : Dev) (g : Nat) (x : PwGran) : Prop where
  dirty : d.pwDirty.find g = some x
  idle : x.copying = false
  seg : g / 8192 < 32
  active : d.segActive (g / 8192) = true
  health : d.health ≠ 3
  hif : d.hifStop = false
  cry : d.cryHeld = false
  map : d.mapHeld = false
  dump : d.dumping = false
  released : d.released = true
  room : d.mayTake 3 8 = true

/-- The key context of a segment. -/
def Dev.segKey (d : Dev) (n : Nat) : Nat := 4 * d.fld (Reg.SEG_CTL n) 13 4 + d.fld (Reg.SEG_CTL n) 15 14

theorem pwinWriteback_eq {g : Nat} {x : PwGran} (h : d.WritesBack g x) (hkey : (d.ctx (d.segKey (g / 8192))).st = .valid)
    (hmode : (d.ctx (d.segKey (g / 8192))).mode = 1) (m : Memory) : ∃ k v,
      doPwinWriteback g m d = ({ d.inc Reg.CRY_UNITS_ENC k with pwDirty := pwCopied d.pwDirty g }.putVer v).revalid ∧
      v.slice = d.fld (Reg.SEG_CTL (g / 8192)) 13 4 ∧ v.granule = (d.segLba (g / 8192) + 8 * (g % 8192)) / 8 ∧ v.pwin = true ∧ v.posted = false := by
  obtain ⟨h1, h2, h3, h4, h5, h6, h7, h8, h9, h10, h11⟩ := h
  have hgate : (x.copying || decide (d.health = 3) || d.hifStop || d.cryHeld || d.mapHeld || d.dumping || !d.segActive (g / 8192) ||
      decide (32 ≤ g / 8192) || !d.released || !d.mayTake 3 8) = false := by
    simp [h2, h4, h5, h6, h7, h8, h9, h10, h11, h3]
  have hmode1 : (d.ctx (4 * d.fld (Reg.SEG_CTL (g / 8192)) 13 4 + d.fld (Reg.SEG_CTL (g / 8192)) 15 14)).mode = 1 := hmode
  have hgcm : ((d.ctx (4 * d.fld (Reg.SEG_CTL (g / 8192)) 13 4 + d.fld (Reg.SEG_CTL (g / 8192)) 15 14)).mode == 2) = false := by
    rw [hmode1]
    rfl
  unfold doPwinWriteback
  dsimp only
  rw [h1]
  dsimp only
  rw [hgate, if_neg Bool.false_ne_true, hgcm, if_neg (by
    rintro (hbad | ⟨hbad, -⟩)
    · exact hbad hkey
    · exact nomatch hbad)]
  exact ⟨_, _, rfl, rfl, rfl, rfl, rfl⟩

theorem Dev.putVer_spec (v : Ver) : ∃ v', v'.slice = v.slice ∧ v'.granule = v.granule ∧ v'.pwin = v.pwin ∧ v'.posted = v.posted ∧
    (d.putVer v).cache = d.cache ++ [v'] ∧ (d.putVer v).pwDirty = d.pwDirty := by
  unfold Dev.putVer
  extract_lets v' d1
  refine ⟨v', rfl, rfl, rfl, rfl, ?_⟩
  split
  · have h := (Dev.Messages.sendGulon d1 0x10 (mirrorFs [v'.mver] (d1.verBatch v'))).kept
    have hcache : (d1.sendGulon 0x10 (mirrorFs [v'.mver] (d1.verBatch v'))).cache = d1.cache := congrArg (·.cache) h
    have hdirty : (d1.sendGulon 0x10 (mirrorFs [v'.mver] (d1.verBatch v'))).pwDirty = d1.pwDirty := congrArg (·.pwDirty) h
    exact ⟨hcache, hdirty⟩
  · exact ⟨rfl, rfl⟩

theorem pwinWriteback_spec {g : Nat} {x : PwGran} (h : d.WritesBack g x) (hkey : (d.ctx (d.segKey (g / 8192))).st = .valid)
    (hmode : (d.ctx (d.segKey (g / 8192))).mode = 1) (m : Memory) :
    ((doPwinWriteback g m d).pwDirty.find g).map PwGran.copying = some true ∧
    ∃ v, (doPwinWriteback g m d).cache = d.cache ++ [v] ∧ v.slice = d.fld (Reg.SEG_CTL (g / 8192)) 13 4 ∧
      v.granule = (d.segLba (g / 8192) + 8 * (g % 8192)) / 8 ∧ v.pwin = true ∧ v.posted = false := by
  obtain ⟨k, v, heq, h1, h2, h3, h4⟩ := pwinWriteback_eq h hkey hmode m
  obtain ⟨v', g1, g2, g3, g4, hcache, hdirty⟩ := Dev.putVer_spec (d := { d.inc Reg.CRY_UNITS_ENC k with pwDirty := pwCopied d.pwDirty g }) v
  rw [heq]
  refine ⟨?_, v', hcache, g1.trans h1, g2.trans h2, g3.trans h3, g4.trans h4⟩
  rw [show (({ d.inc Reg.CRY_UNITS_ENC k with pwDirty := pwCopied d.pwDirty g } : Dev).putVer v).revalid.pwDirty = pwCopied d.pwDirty g from hdirty]
  unfold pwCopied
  rw [h.dirty]
  dsimp only
  rw [SMap.find_insert_self]
  rfl

end

/-- Settles O11: write-back, resize, enabling and disabling of the window's segments. -/
theorem windowSegments : Obligations.WindowSegments := by
  intro s hrun
  refine ⟨?_, fun v ho hrest hmax hne => ?_, fun n v ho hn hact hen hlba hblks happ => ?_, fun n v ho hn hact hv => ?_, fun n hn hact hen hd => ?_⟩
  · intro g x hdirty hidle hseg hact hhealth hhif hcry hmap hdump hrel hroom n sl hkey hmode
    obtain ⟨hcopy, v, hcache, h1, h2, h3, h4⟩ := pwinWriteback_spec
      ⟨hdirty, hidle, hseg, hact, hhealth, hhif, hcry, hmap, hdump, hrel, hroom⟩ hkey hmode s.window
    exact ⟨_, actWindow_of_running s (doPwinWriteback g) (fun _ _ => []) hrun, hcopy, ⟨v, hcache, h1, h2, h3, h4⟩, rfl⟩
  · obtain ⟨h1, h2, h3⟩ := pwinResize_spec ho hrest hmax hne
    exact ⟨_, act_of_running s (doPwinResize v) hrun, h1, h2, h3, rfl⟩
  · exact ⟨_, act_of_running s (doSegEnable n v) hrun, segEnable_spec ho hn hact hen hlba hblks happ⟩
  · exact ⟨_, act_of_running s (doSegDisable n v) hrun, segDisable_spec ho hn hact hv⟩
  · have heq : doSegDrained n s.dev = s.dev.setFlag (Reg.SEG_STS n) 0 false := by
      unfold doSegDrained Dev.segRest
      rw [Nat.mod_eq_of_lt hn, hact, hen, hd]
      rfl
    refine ⟨_, act_of_running s (doSegDrained n) hrun, ?_⟩
    dsimp only
    rw [heq]
    exact ⟨Dev.flag_setFlag_self _ _ _ _ (by decide), rfl, Dev.frame.setReg (List.mem_singleton.mpr rfl) _ _ _⟩

end Sys2Proof.Machine
end

section
/-! Host accesses that fail, and heads that go down and come up (R60 to R71, R116). -/

namespace Sys2Proof.Machine

-- In order, one declaration at a time: keeps the check within its memory limit.
set_option Elab.async false

section
variable {d e t : Dev} {qid tag : Nat}

/-! ### Posting after reports -/

theorem sliceHead_notReport {k : Nat} (hk : k < 256) : Reg.HIF_SLICE_HEAD k ∉ reportRegs := by
  simp only [reportRegs, Reg.HIF_SLICE_HEAD, List.mem_cons, List.not_mem_nil, or_false, Reg.PWR_MODE_STS, Reg.GLB_DEV_STS, Reg.PWR_BIAS_NOW,
    Reg.SCP_CAP_STS, Reg.SCP_INC_STS, not_or]
  omega

theorem Dev.sliceHead_of_reports (h : d.Reports t) {s : Nat} (hs : s < 1024) : t.sliceHead s = d.sliceHead s :=
  Dev.sliceHead_congr (h.regs _ (sliceHead_notReport (by omega))) (fun _ hk => h.regs _ (linkSts_notReport hk))

/-- A completion after reports, and the first error that they recorded. -/
theorem Dev.posts_after_reports (hqid : qid < 16384) (hp : d.canPost qid) (h : d.Reports e) (status info : Nat) :
    d.posts (e.complete qid tag status info) qid tag status info :=
  Dev.posts_post (Dev.canPost_of_queue hp (Dev.sliceHead_of_reports h (by omega)) (Dev.queue_of_reports h qid)) (by decide)
    (by rw [Dev.queue_of_reports h]) h.out List.prefix_rfl

/-! ### Failed accesses (R67, R68) -/

theorem Dev.moving_tag {c : Cmd} (h : d.moving qid tag = some c) : c.tag = tag := by
  have hc := (Option.filter_eq_some_iff.mp h).1
  have htag : (c.tag == tag) = true := List.find?_some (p := fun x : Cmd => x.tag == tag) hc
  exact beq_iff_eq.mp htag

theorem Dev.dmaFail_spec {c : Cmd} {h : Nat} (hqid : qid < 16384) (hmove : d.moving qid tag = some c) (hp : d.canPost qid) (hh : d.sliceHead (qid / 16) = some h)
    (herr : (d.page 0x100).err = false) : d.posts (d.dmaFail qid tag) qid tag 0x0102 0 ∧ ((d.dmaFail qid tag).page 0x100).errCode = 0x0100 ∧
    ((d.dmaFail qid tag).page 0x100).info0 = w32 (qid / 16) ∧ ((d.dmaFail qid tag).page 0x100).info1 = w32 h := by
  have htag := Dev.moving_tag hmove
  obtain ⟨e, he⟩ : ∃ e, e = d.capRecFree 0x16 h [6, qid, tag] := ⟨_, rfl⟩
  have heq : d.dmaFail qid tag = ((e.recordErr 0x100 0x0100 (qid / 16) h).raise 0x100 5).complete qid tag stInvalidField 0 := by
    unfold Dev.dmaFail
    rw [hmove]
    dsimp only
    rw [hh, he, ← htag]
    rfl
  have hrep : d.Reports e := he ▸ Dev.Reports.capRecFree d _ _ _
  have hpage : (e.page 0x100).err = false := by rw [he, Dev.page_capRecFree]; exact herr
  have hfirst := Dev.page_recordErr_first e 0x100 0x0100 (qid / 16) h hpage
  have hraise := Dev.Reports.raise (e.recordErr 0x100 0x0100 (qid / 16) h) 0x100 5
  have hpost := Dev.posts_after_reports (tag := tag) hqid hp ((hrep.trans (Dev.Reports.recordErr e 0x100 0x0100 (qid / 16) h)).trans hraise) stInvalidField 0
  have hlater := ((hraise.page 0x100).trans ((Dev.Posts.complete _ qid tag stInvalidField 0).page 0x100)).1 (by rw [hfirst])
  rw [heq]
  exact ⟨hpost, hlater.2.1.trans (by rw [hfirst]), hlater.2.2.1.trans (by rw [hfirst]), hlater.2.2.2.trans (by rw [hfirst])⟩

/-! ### Heads (R61, R69 to R71) -/

theorem linkSts_inj {h k : Nat} (hne : h ≠ k) : Reg.HIF_LINK_STS h ≠ Reg.HIF_LINK_STS k := by
  simp only [Reg.HIF_LINK_STS]
  omega

/-- The state of a link that is going down. -/
def Dev.linkFallen (d : Dev) (h : Nat) : Dev :=
  ((d.setFlag (Reg.HIF_LINK_STS h) 0 false).setFlag (Reg.HIF_LINK_STS h) 8 false).setFlag (Reg.HIF_LINK_STS h) 9 false

theorem Dev.linkFallen_flags (d : Dev) (h : Nat) : (d.linkFallen h).flag (Reg.HIF_LINK_STS h) 0 = false ∧
    (d.linkFallen h).flag (Reg.HIF_LINK_STS h) 8 = false ∧ (d.linkFallen h).flag (Reg.HIF_LINK_STS h) 9 = false := by
  unfold Dev.linkFallen
  refine ⟨?_, ?_, Dev.flag_setFlag_self _ _ _ _ (by decide)⟩
  · rw [Dev.flag_setFlag_other _ _ _ _ _ (by decide) (by decide), Dev.flag_setFlag_other _ _ _ _ _ (by decide) (by decide)]
    exact Dev.flag_setFlag_self _ _ _ _ (by decide)
  · rw [Dev.flag_setFlag_other _ _ _ _ _ (by decide) (by decide)]
    exact Dev.flag_setFlag_self _ _ _ _ (by decide)

theorem Dev.takeHeadDown_eq {h : Nat} (hup : d.headUp h = true) :
    d.takeHeadDown h = (({ d.linkFallen h with headDown := SMap.insert d.headDown h d.tick } : Dev).raise 0x100 0).capRecFree 0x16 h [0] := if_pos hup

theorem Dev.headDown_spec {h : Nat} (hh : h < 4) (hup : d.headUp h = true) : (d.takeHeadDown h).headUp h = false ∧
    (d.takeHeadDown h).flag (Reg.HIF_LINK_STS h) 8 = false ∧ (d.takeHeadDown h).flag (Reg.HIF_LINK_STS h) 9 = false ∧
    ((d.takeHeadDown h).page 0x100).intPend = putBit (d.page 0x100).intPend 0 true ∧
    Dev.frame { d with headDown := SMap.insert d.headDown h d.tick } (d.takeHeadDown h) [Reg.HIF_LINK_STS h] [0x100] := by
  obtain ⟨x, hx⟩ : ∃ x : Dev, x = { d.linkFallen h with headDown := SMap.insert d.headDown h d.tick } := ⟨_, rfl⟩
  have heq : d.takeHeadDown h = (x.raise 0x100 0).capRecFree 0x16 h [0] := hx ▸ Dev.takeHeadDown_eq hup
  have hreg : (d.takeHeadDown h).reg (Reg.HIF_LINK_STS h) = (d.linkFallen h).reg (Reg.HIF_LINK_STS h) := by
    rw [heq, Dev.reg_capRecFree, (Dev.Reports.raise x 0x100 0).regs _ (linkSts_notReport hh), hx]
    rfl
  obtain ⟨-, h8, h9⟩ := d.linkFallen_flags h
  refine ⟨(Dev.takeHeadDown_spec d hh).1, (Dev.flag_congr hreg 8).trans h8, (Dev.flag_congr hreg 9).trans h9, ?_, ?_⟩
  · rw [heq, Dev.page_capRecFree, Dev.intPend_raise _ _ _ (by decide), hx]
    rfl
  · have hlink : Dev.frame { d with headDown := SMap.insert d.headDown h d.tick } x [Reg.HIF_LINK_STS h] [0x100] := by
      have hset : x = ((({ d with headDown := SMap.insert d.headDown h d.tick } : Dev).setFlag (Reg.HIF_LINK_STS h) 0 false).setFlag
        (Reg.HIF_LINK_STS h) 8 false).setFlag (Reg.HIF_LINK_STS h) 9 false := hx
      have hmem : Reg.HIF_LINK_STS h ∈ [Reg.HIF_LINK_STS h] := List.mem_singleton.mpr rfl
      rw [hset]
      exact (Dev.frame.setReg hmem _ _ _).trans ((Dev.frame.setReg hmem _ _ _).trans (Dev.frame.setReg hmem _ _ _))
    have hcap : Dev.frame (x.raise 0x100 0) ((x.raise 0x100 0).capRecFree 0x16 h [0]) [Reg.HIF_LINK_STS h] [0x100] :=
      Dev.frame_of (fun _ _ _ => Dev.reg_capRecFree _ _ _ _ _) (fun _ _ _ => Dev.page_capRecFree _ _ _ _ _) (Dev.sansEvents_capRecFree _ _ _ _)
    rw [heq]
    exact hlink.trans ((Dev.frame.raise (by decide) _ _ _).trans hcap)

/-- A head that goes down leaves the other links. -/
theorem Dev.takeHeadDown_other (d : Dev) {h k : Nat} (hk : k < 4) (hne : k ≠ h) : (d.takeHeadDown h).headUp k = d.headUp k := by
  by_cases hup : d.headUp h = true
  · have hreg : (d.takeHeadDown h).reg (Reg.HIF_LINK_STS k) = d.reg (Reg.HIF_LINK_STS k) := by
      rw [Dev.takeHeadDown_eq hup, Dev.reg_capRecFree, (Dev.Reports.raise _ 0x100 0).regs _ (linkSts_notReport hk)]
      show (d.linkFallen h).reg (Reg.HIF_LINK_STS k) = _
      unfold Dev.linkFallen
      rw [Dev.reg_setFlag_ne _ (linkSts_inj hne), Dev.reg_setFlag_ne _ (linkSts_inj hne), Dev.reg_setFlag_ne _ (linkSts_inj hne)]
    unfold Dev.headUp
    rw [Dev.flag_congr hreg]
  · rw [Dev.takeHeadDown, if_neg hup]

/-- A look-up among the entries that do not belong to a port. -/
theorem SMap.get_filter_gone {α : Type} (dflt : Nat → α) (q : Nat → Bool) {k : Nat} (hk : q k = false) (m : SMap α) :
    SMap.get dflt (m.filter (fun (kv : Nat × α) => q kv.1)) k = dflt k := by
  have hfind : SMap.find (m.filter (fun (kv : Nat × α) => q kv.1)) k = none := by
    by_contra hne
    obtain ⟨v, hv⟩ := Option.ne_none_iff_exists'.mp hne
    have hmem := (List.mem_filter.mp (SMap.mem_of_find hv)).2
    rw [hk] at hmem
    exact nomatch hmem
  unfold SMap.get
  rw [hfind]
  rfl

theorem Dev.perst_spec (d : Dev) {port : Nat} (hp : port < 2) : (d.perst port).headUp (2 * port) = false ∧ (d.perst port).headUp (2 * port + 1) = false ∧
    (∀ k, k / 512 = port → (d.perst port).ideOf k = Ide.reset) ∧ ∀ k, k / 32 = port → SMap.get cfgReset (d.perst port).cfg k = cfgReset k := by
  have h0 : 2 * port < 4 := by omega
  have h1 : 2 * port + 1 < 4 := by omega
  obtain ⟨e, he⟩ : ∃ e, e = (d.capRecFree 0x16 (2 * port) [2]).takeHeadDown (2 * port) := ⟨_, rfl⟩
  have hdown0 : e.headUp (2 * port) = false := he ▸ (Dev.takeHeadDown_spec _ h0).1
  have hshow : ∀ h, (d.perst port).headUp h = (e.takeHeadDown (2 * port + 1)).headUp h := fun h => by rw [he]; rfl
  refine ⟨?_, ?_, fun k hk => ?_, fun k hk => ?_⟩
  · rw [hshow, Dev.takeHeadDown_other e h0 (by omega)]
    exact hdown0
  · rw [hshow]
    exact (Dev.takeHeadDown_spec e h1).1
  · exact SMap.get_filter_gone _ (fun i => i / 512 != port) (by simp [hk]) _
  · exact SMap.get_filter_gone _ (fun i => i / 32 != port) (by simp [hk]) _

/-- From `d` to `t` the links and what is known of the heads that are down stay. -/
def Dev.KeepsLinks (d t : Dev) : Prop := t.headDown = d.headDown ∧ ∀ h < 4, t.reg (Reg.HIF_LINK_STS h) = d.reg (Reg.HIF_LINK_STS h)

theorem Dev.KeepsLinks.refl (d : Dev) : d.KeepsLinks d := ⟨rfl, fun _ _ => rfl⟩

theorem Dev.KeepsLinks.trans (h : d.KeepsLinks e) (h' : e.KeepsLinks t) : d.KeepsLinks t :=
  ⟨h'.1.trans h.1, fun k hk => (h'.2 k hk).trans (h.2 k hk)⟩

theorem Dev.KeepsLinks.of_reports (h : d.Reports t) : d.KeepsLinks t := ⟨congrArg (·.headDown) h.kept, fun _ hk => h.regs _ (linkSts_notReport hk)⟩

theorem Dev.KeepsLinks.of_posts (h : d.Posts t) : d.KeepsLinks t :=
  ⟨congrArg (·.headDown) h.kept, fun k hk => h.regs _ (by interval_cases k <;> decide)⟩

theorem Dev.KeepsLinks.savesGo (d : Dev) : d.KeepsLinks d.savesGo := by
  have hdone : ∀ (x : Dev) s, x.KeepsLinks (x.opDone s) := fun x s =>
    (Dev.KeepsLinks.of_posts (Dev.Posts.setSlice x _ _)).trans (.of_reports (Dev.Reports.raise _ _ _))
  have hgo : ∀ (x : Dev) s, x.KeepsLinks (x.saveGo s) := fun x s => by
    unfold Dev.saveGo
    split
    · exact Dev.KeepsLinks.trans (e := x.emit _) ⟨rfl, fun _ _ => rfl⟩ (hdone _ s)
    · exact .refl x
  exact List.foldlRecOn (motive := fun e : Dev => d.KeepsLinks e) _ _ (.refl d) (fun x hx kv _ => hx.trans (hgo x kv.1))

/-- A head that comes up. -/
def Dev.linkRisen (d : Dev) (h rate width : Nat) : Dev :=
  ((d.setFlag (Reg.HIF_LINK_STS h) 0 true).setFld (Reg.HIF_LINK_STS h) 2 1 rate).setFld (Reg.HIF_LINK_STS h) 7 3 width

/-- A head that returns is counted, and no longer known as down. -/
def Dev.linkCounted (d : Dev) (h : Nat) : Dev :=
  let e := if (d.headDown.find h).isSome then d.incFld (Reg.HIF_LINK_STS h) 31 16 1 else d
  { e with headDown := SMap.erase e.headDown h }

theorem headUp_eq {h rate width : Nat} (hh : h < 4) (hr : rate ≤ 2) (hw : width = (if d.bifNow.testBit (h / 2) then 8 else 16))
    (hex : d.headExists h = true) (hdown : d.headUp h = false) (hlanes : ∀ l < 32, d.flag Reg.TST_HOSTLANE l = false) (hmain : d.pgMain = true) :
    ((d.linkRisen h rate width).linkCounted h).KeepsLinks (doHeadUp h rate width d) := by
  have hbad : ∀ full, (List.range 32).any (fun l => d.flag Reg.TST_HOSTLANE l && l / 16 == h / 2 && (full == 16 || l % 16 / 8 == h % 2)) = false := by
    intro full
    rw [List.any_eq_false]
    intro l hl
    rw [hlanes l (List.mem_range.mp hl)]
    simp
  unfold doHeadUp
  rw [Nat.mod_eq_of_lt hh]
  extract_lets k full bad d1 d2 d3
  rw [if_neg (by simp [k, full, bad, hbad, hex, hdown, hw, hmain]; omega)]
  have h3 : d3 = (d.linkRisen h rate width).linkCounted h := rfl
  rw [← h3]
  have hraise := Dev.KeepsLinks.of_reports (Dev.Reports.raise d3 0x100 0)
  have hmoves := fun (x : Dev) f => Dev.KeepsLinks.of_posts (Dev.Posts.movesFrom x f)
  have hcap := fun (x : Dev) => Dev.KeepsLinks.of_reports (Dev.Reports.capRecFree x 0x16 h [1, rate, width])
  have hheld := fun (x : Dev) => Dev.KeepsLinks.of_posts (Dev.Posts.releaseAllHeld x)
  have hflush := fun (x : Dev) => Dev.KeepsLinks.of_posts (Dev.Posts.pbaFlush x)
  exact hraise.trans ((hmoves _ _).trans ((hcap _).trans ((hheld _).trans ((hflush _).trans (.savesGo _)))))

theorem Dev.linkCounted_spec (d : Dev) {h rate width : Nat} (hr : rate ≤ 2) (hw : width < 32) :
    let e := (d.linkRisen h rate width).linkCounted h
    e.flag (Reg.HIF_LINK_STS h) 0 = true ∧ e.fld (Reg.HIF_LINK_STS h) 2 1 = rate ∧ e.fld (Reg.HIF_LINK_STS h) 7 3 = width ∧ e.headDown.find h = none := by
  have hrisen : (d.linkRisen h rate width).flag (Reg.HIF_LINK_STS h) 0 = true ∧ (d.linkRisen h rate width).fld (Reg.HIF_LINK_STS h) 2 1 = rate ∧
      (d.linkRisen h rate width).fld (Reg.HIF_LINK_STS h) 7 3 = width := by
    unfold Dev.linkRisen
    refine ⟨?_, ?_, ?_⟩
    · rw [Dev.flag_setFld_other _ _ _ _ _ _ (by decide) (by decide), Dev.flag_setFld_other _ _ _ _ _ _ (by decide) (by decide)]
      exact Dev.flag_setFlag_self _ _ _ _ (by decide)
    · rw [Dev.fld_setFld_other _ _ _ _ _ _ _ (by decide) (by decide), Dev.fld_setFld_self _ _ _ _ _ (by decide)]
      exact Nat.mod_eq_of_lt (by omega)
    · rw [Dev.fld_setFld_self _ _ _ _ _ (by decide)]
      exact Nat.mod_eq_of_lt hw
  obtain ⟨h1, h2, h3⟩ := hrisen
  intro e
  unfold e Dev.linkCounted
  extract_lets x
  have hx : x.flag (Reg.HIF_LINK_STS h) 0 = true ∧ x.fld (Reg.HIF_LINK_STS h) 2 1 = rate ∧ x.fld (Reg.HIF_LINK_STS h) 7 3 = width := by
    simp only [x]
    split
    · exact ⟨(Dev.flag_setFld_other _ _ _ _ _ _ (by decide) (by decide)).trans h1, (Dev.fld_setFld_other _ _ _ _ _ _ _ (by decide) (by decide)).trans h2,
        (Dev.fld_setFld_other _ _ _ _ _ _ _ (by decide) (by decide)).trans h3⟩
    · exact ⟨h1, h2, h3⟩
  exact ⟨hx.1, hx.2.1, hx.2.2, SMap.find_erase_self _ _⟩

/-! ### No head in time (R69) -/

/-- A completion of a slice without a head waits in its queue; other queues keep. -/
theorem Dev.complete_held (d : Dev) (hno : d.sliceHead (qid / 16) = none) (tag status : Nat) :
    ((d.complete qid tag status 0).queue qid).held = (d.queue qid).held ++ [⟨tag, 0, status, 0, 0⟩] ∧
    (∀ k, k ≠ qid → (d.complete qid tag status 0).queue k = d.queue k) ∧ (d.complete qid tag status 0).regs = d.regs ∧
    (d.complete qid tag status 0).tick = d.tick ∧ ∀ s, (d.complete qid tag status 0).headless s = d.headless s := by
  unfold Dev.complete Dev.post
  dsimp only
  rw [hno]
  refine ⟨?_, fun k hk => Dev.queue_setQueue_ne d hk _, rfl, rfl, fun _ => rfl⟩
  rw [Dev.queue_setQueue_self]

/-- What the loop over a slice's queues keeps, and what it has held. -/
structure Dev.Waits (d t : Dev) : Prop where
  regs : t.regs = d.regs
  tick : t.tick = d.tick
  headless : ∀ s, t.headless s = d.headless s
  held : ∀ q, (d.queue q).held <+: (t.queue q).held

theorem Dev.Waits.refl (d : Dev) : d.Waits d := ⟨rfl, rfl, fun _ => rfl, fun _ => List.prefix_rfl⟩

theorem Dev.Waits.trans (h : d.Waits e) (h' : e.Waits t) : d.Waits t :=
  ⟨h'.regs.trans h.regs, h'.tick.trans h.tick, fun s => (h'.headless s).trans (h.headless s), fun q => (h.held q).trans (h'.held q)⟩

theorem Dev.Waits.sliceHead (h : d.Waits t) (s : Nat) : t.sliceHead s = d.sliceHead s :=
  Dev.sliceHead_congr (by rw [Dev.reg, h.regs, Dev.reg]) (fun k _ => by rw [Dev.reg, h.regs, Dev.reg])

theorem Dev.Waits.complete (d : Dev) (hno : d.sliceHead (qid / 16) = none) (tag status : Nat) : d.Waits (d.complete qid tag status 0) := by
  obtain ⟨hheld, hother, hregs, htick, hless⟩ := Dev.complete_held d hno tag status
  refine ⟨hregs, htick, hless, fun q => ?_⟩
  by_cases hq : q = qid
  · rw [hq, hheld]
    exact List.prefix_append _ _
  · rw [hother q hq]

/-- Commands ended one after another all wait. -/
theorem Dev.completes_held (status : Nat) : ∀ (cs : List Cmd) (d : Dev), d.sliceHead (qid / 16) = none →
    d.Waits (cs.foldl (fun (d : Dev) c => d.complete qid c.tag status 0) d) ∧
    (∀ k, k ≠ qid → (cs.foldl (fun (d : Dev) c => d.complete qid c.tag status 0) d).queue k = d.queue k) ∧
    ∀ c ∈ cs, (⟨c.tag, 0, status, 0, 0⟩ : CE) ∈ ((cs.foldl (fun (d : Dev) c => d.complete qid c.tag status 0) d).queue qid).held
  | [], d, _ => ⟨.refl d, fun _ _ => rfl, fun c h => nomatch h⟩
  | x :: cs, d, hno => by
    have hx := Dev.Waits.complete d hno x.tag status
    obtain ⟨hheld, hother, -⟩ := Dev.complete_held d hno x.tag status
    obtain ⟨h1, h2, h3⟩ := Dev.completes_held status cs (d.complete qid x.tag status 0) ((hx.sliceHead _).trans hno)
    refine ⟨hx.trans h1, fun k hk => (h2 k hk).trans (hother k hk), fun c hc => ?_⟩
    rcases List.mem_cons.mp hc with rfl | hc
    · refine (h1.held qid).subset ?_
      rw [hheld]
      exact List.mem_append_right _ (List.mem_singleton.mpr rfl)
    · exact h3 c hc

end

/-- The commands of a queue that have waited for a head long enough. -/
def Dev.overdue (d : Dev) (sl wait q : Nat) : List Cmd :=
  (d.queue q).live.filter (fun c => c.movesData && decide (max (d.headless sl) c.dbTick + wait ≤ d.tick))

/-- Those of each queue of a list end. -/
theorem Dev.overdue_held {sl : Nat} (wait : Nat) : ∀ (qs : List Nat), qs.Nodup → (∀ q ∈ qs, q / 16 = sl) → ∀ d : Dev, d.sliceHead sl = none →
    ∀ q ∈ qs, ∀ c ∈ d.overdue sl wait q, (⟨c.tag, 0, stFailover, 0, 0⟩ : CE) ∈
      ((qs.foldl (fun (d : Dev) q => (d.overdue sl wait q).foldl (fun (d : Dev) c => d.complete q c.tag stFailover 0) d) d).queue q).held := by
  have hmono : ∀ (qs : List Nat), (∀ q ∈ qs, q / 16 = sl) → ∀ d : Dev, d.sliceHead sl = none →
      d.Waits (qs.foldl (fun (d : Dev) q => (d.overdue sl wait q).foldl (fun (d : Dev) c => d.complete q c.tag stFailover 0) d) d) := by
    intro qs
    induction qs with
    | nil => exact fun _ d _ => .refl d
    | cons x qs ih =>
      intro hqs d hno
      have hx : d.sliceHead (x / 16) = none := by rw [hqs x List.mem_cons_self]; exact hno
      obtain ⟨h1, -⟩ := Dev.completes_held stFailover (d.overdue sl wait x) d hx
      exact h1.trans (ih (fun q hq => hqs q (List.mem_cons_of_mem _ hq)) _ ((h1.sliceHead _).trans hno))
  intro qs
  induction qs with
  | nil => exact fun _ _ _ _ q hq => nomatch hq
  | cons x qs ih =>
    intro hnd hqs d hno q hq c hc
    have hx : d.sliceHead (x / 16) = none := by rw [hqs x List.mem_cons_self]; exact hno
    obtain ⟨h1, h2, h3⟩ := Dev.completes_held stFailover (d.overdue sl wait x) d hx
    have hrest := fun q hq => hqs q (List.mem_cons_of_mem x hq)
    have hno1 := (h1.sliceHead sl).trans hno
    rcases List.mem_cons.mp hq with rfl | hq
    · exact ((hmono qs hrest _ hno1).held q).subset (h3 c hc)
    · have hne : q ≠ x := fun h => (List.nodup_cons.mp hnd).1 (h ▸ hq)
      refine ih (List.nodup_cons.mp hnd).2 hrest _ hno1 q hq c ?_
      rw [Dev.overdue, h2 q hne, h1.headless, h1.tick]
      exact hc

theorem headWaitExpire_spec {d : Dev} {sl : Nat} (hsl : sl < 1024) (hno : d.sliceHead sl = none) {q : Nat} (hq : q ∈ queuesOf sl) {c : Cmd}
    (hc : c ∈ (d.queue q).live) (hmove : c.movesData = true)
    (hlate : max (d.headless sl) c.dbTick + d.fld Reg.HIF_HEAD_WAIT 15 0 * 1000000 ≤ d.tick) :
    (⟨c.tag, 0, stFailover, 0, 0⟩ : CE) ∈ ((doHeadWaitExpire sl d).queue q).held := by
  have heq : doHeadWaitExpire sl d = (queuesOf sl).foldl (fun (d' : Dev) q =>
      (d'.overdue sl (d.fld Reg.HIF_HEAD_WAIT 15 0 * 1000000) q).foldl (fun (d : Dev) c => d.complete q c.tag stFailover 0) d') d := by
    unfold doHeadWaitExpire
    rw [Nat.mod_eq_of_lt hsl]
    dsimp only
    rw [hno]
    rfl
  have hnd : (queuesOf sl).Nodup := (List.nodup_range).map (fun a b h => by omega)
  have hin : ∀ q ∈ queuesOf sl, q / 16 = sl := fun q hq => by
    obtain ⟨p, hp, rfl⟩ := List.mem_map.mp hq
    have := List.mem_range.mp hp
    omega
  rw [heq]
  exact Dev.overdue_held _ _ hnd hin d hno q hq c (List.mem_filter.mpr ⟨hc, by simp [hmove, hlate]⟩)

/-- Settles O9: failed and poisoned host accesses end their command. -/
theorem hostAccessesFail : Obligations.HostAccessesFail := by
  intro s qid tag h c hrun hqid htag hmove hpost hh herr
  obtain ⟨h1, h2, h3, h4⟩ := Dev.dmaFail_spec hqid hmove hpost hh herr
  have hfail : doHostAccessFail qid tag s.dev = s.dev.dmaFail qid tag := by
    unfold doHostAccessFail
    rw [Nat.mod_eq_of_lt hqid, Nat.mod_eq_of_lt htag]
  have htmo : doHifDmaTmoExpire qid tag s.dev =
      if c.ioTick + s.dev.fld Reg.HIF_DMA_TMO 15 0 * 1000000 ≤ s.dev.tick then s.dev.dmaFail qid tag else s.dev := by
    unfold doHifDmaTmoExpire
    rw [Nat.mod_eq_of_lt hqid, Nat.mod_eq_of_lt htag, hmove]
  refine ⟨⟨_, act_of_running s (doHostAccessFail qid tag) hrun, ?_⟩, fun hlate => ⟨_, act_of_running s (doHifDmaTmoExpire qid tag) hrun, ?_⟩,
    fun hearly => ?_, fun block hop hblock => ⟨_, act_of_running s (doPoisonedCompletion qid tag block) hrun, ?_⟩⟩
  · dsimp only
    rw [hfail]
    exact ⟨h1, h2, h3, h4⟩
  · dsimp only
    rw [htmo, if_pos hlate]
    exact ⟨h1, h2⟩
  · have hsame := act_of_running s (doHifDmaTmoExpire qid tag) hrun
    rw [htmo, if_neg (by omega)] at hsame
    exact hsame
  · have heq : doPoisonedCompletion qid tag block s.dev = s.dev.complete qid tag stPoisoned block := by
      unfold doPoisonedCompletion
      dsimp only
      rw [Nat.mod_eq_of_lt hqid, Nat.mod_eq_of_lt htag, hmove]
      dsimp only
      rw [if_pos hop, Dev.moving_tag hmove, Nat.mod_eq_of_lt (by omega)]
    dsimp only
    rw [heq]
    exact Dev.posts_after_reports hqid hpost (.refl _) stPoisoned block

/-- Settles O8: how heads go down, come up and are missed. -/
theorem headsMove : Obligations.HeadsMove := by
  intro s hrun
  refine ⟨fun h hh hup => ⟨_, act_of_running s (doHeadDown h) hrun, ?_⟩, fun h rate width hh hr hw hex hdown hlanes =>
      ⟨_, act_of_running s (doHeadUp h rate width) hrun, ?_⟩, ⟨_, act_of_running s doPerstAN hrun, Dev.perst_spec s.dev (port := 0) (by decide)⟩,
    ⟨_, act_of_running s doPerstBN hrun, Dev.perst_spec s.dev (port := 1) (by decide)⟩, fun sl hsl hno =>
      ⟨_, act_of_running s (doHeadWaitExpire sl) hrun, fun q hq c hc hmove hlate => headWaitExpire_spec hsl hno hq hc hmove hlate⟩⟩
  · have heq : doHeadDown h s.dev = s.dev.takeHeadDown h := by
      unfold doHeadDown
      rw [Nat.mod_eq_of_lt hh]
    dsimp only
    rw [heq]
    exact Dev.headDown_spec hh hup
  · have hw32 : width < 32 := by
      rw [hw]
      split <;> decide
    obtain ⟨hkeep, hlinks⟩ := headUp_eq hh hr hw hex hdown hlanes hrun.2.2
    obtain ⟨h1, h2, h3, h4⟩ := s.dev.linkCounted_spec (h := h) hr hw32
    have hreg := hlinks h hh
    refine ⟨?_, (Dev.fld_congr hreg _ _).trans h2, (Dev.fld_congr hreg _ _).trans h3, ?_⟩
    · unfold Dev.headUp
      rw [Dev.flag_congr hreg, h1, decide_eq_true hh]
      rfl
    · dsimp only
      rw [hkeep]
      exact h4

end Sys2Proof.Machine
end

section
/-! Register writes, reads and selectors (R36 to R43, R59, R63, R71, R559). -/

namespace Sys2Proof.Machine

-- In order, one declaration at a time: keeps the check within its memory limit.
set_option Elab.async false

section
variable (d : Dev)

/-! ### What storing a setting does beside -/

/-- The registers of the time line that a change of role moves. -/
def roleRegs : List Nat := [Reg.DLR_TIME_STS, Reg.DLR_TWIN_OFS, Reg.GLB_TIME_UNC] ++ reportRegs

theorem Dev.reg_timeRole {o : Nat} (h : o ∉ roleRegs) : d.timeRole.reg o = d.reg o := by
  have hne : o ≠ Reg.DLR_TIME_STS ∧ o ≠ Reg.DLR_TWIN_OFS ∧ o ≠ Reg.GLB_TIME_UNC ∧ o ∉ reportRegs := by
    simpa [roleRegs, List.mem_append] using h
  obtain ⟨hsts, hofs, hunc, hrep⟩ := hne
  have hunlock : ∀ e : Dev, e.timeUnlock.reg o = e.reg o := fun e => by
    unfold Dev.timeUnlock
    split
    · exact Dev.reg_setFlag_ne e hsts _ _
    · rfl
  have hchange : ∀ a e : Dev, (Dev.timeChange a e).reg o = e.reg o := fun a e => by
    unfold Dev.timeChange
    split
    · rfl
    · exact ((Dev.Reports.capRec e _ _ _).trans (Dev.Reports.raise _ _ _)).regs _ hrep
  unfold Dev.timeRole
  extract_lets own lead src was d1 d2 d3 d4
  have h1 : d1.reg o = d.reg o := (Dev.reg_setFld_ne _ hsts _ _ _).trans (Dev.reg_setFlag_ne d hsts _ _)
  have h2 : d2.reg o = d1.reg o := by
    simp only [d2]
    split
    · exact Dev.reg_setReg_ne d1 hofs _
    · rfl
  have h3 : d3.reg o = d2.reg o := by
    simp only [d3]
    split <;> rfl
  have h4 : d4.reg o = d3.reg o := by
    simp only [d4]
    split
    · exact hunlock d3
    · split
      · exact Dev.reg_setReg_ne _ hunc _
      · rfl
  rw [hchange, h4, h3, h2, h1]

theorem Dev.reg_relevel {o : Nat} (h : o ∉ reportRegs) : d.relevel.reg o = d.reg o :=
  List.foldlRecOn (motive := fun e : Dev => e.reg o = d.reg o) _ _ rfl (fun e he kv _ => by
    refine Eq.trans ?_ he
    exact (Dev.moveCtx_reports e kv.1 (e.ctx kv.1) (e.ctx kv.1)).regs _ h)

theorem Dev.reg_incSelect {o : Nat} (n : Nat) (h : o < Reg.SCP_INC_ENT 0) : (d.incSelect n).reg o = d.reg o :=
  List.foldlRecOn (motive := fun e : Dev => e.reg o = d.reg o) _ _ rfl (fun e he i _ => by
    rw [Dev.reg_setReg_ne _ (by simp only [Reg.SCP_INC_ENT] at h ⊢; omega), he])

/-- What a setting does beside being stored leaves its own register. -/
theorem Dev.reg_afterStore (before : Dev) {off : Nat} (new : Word) (h : off ≠ Reg.PWR_WAKE_EN) : (d.afterStore before off new).reg off = d.reg off := by
  unfold Dev.afterStore
  split
  · rfl
  · exact d.reg_relevel (by decide)
  · exact (Dev.Works.respace (.refl d)).regs _ (by decide)
  · exact (Dev.Works.respace (.refl d)).regs _ (by decide)
  · unfold Dev.elogCopy
    dsimp only
    rw [Dev.reg_setReg_ne _ (by decide), Dev.reg_setReg_ne _ (by decide), Dev.reg_setReg_ne _ (by decide), Dev.reg_setReg_ne _ (by decide)]
  · split
    · rw [Dev.reg_timeRole _ (by decide)]
      exact (Dev.Pairs.linkDown d).regs _ (by decide)
    · rfl
  · exact absurd rfl h
  · unfold Dev.nvmSts
    dsimp only
    rw [Dev.reg_setReg_ne _ (by decide), Dev.reg_setReg_ne _ (by decide), Dev.reg_setReg_ne _ (by decide)]
  · exact d.reg_incSelect _ (by decide)
  · exact Dev.reg_setReg_ne d (by decide) _
  · rfl

/-! ### A register write that arrives -/

/-- A device that a write has reached: capture, and page headers whose errors were recorded first stay. -/
def Dev.Arrived (t : Dev) : Prop := ∃ c p, t = { d with cap := c, pages := p }

/-- A write to a register of an open page runs its effect on a device that it has reached; what it publishes follows. -/
theorem regWrite_arrives {off pg : Nat} (v : Word) (eff : Word → Dev → Dev) (ho : d.isOpen pg) (hpg : off / 0x1000 = pg) {r : RegDef}
    (hr : regDef? off = some r) : ∃ d2 before, d.Arrived d2 ∧
      regWrite d off v eff = (eff (mergeWrite r (d.reg (canonOff off)) v true) d2).publishWrite before off := by
  subst hpg
  obtain ⟨d1, harr, hw⟩ := pageWrite_open d off v _ ho
  obtain ⟨d2, hd2⟩ : ∃ d2, d2 = if v &&& w32 r.rsv != 0 then d1.recordErr (off / 0x1000) 0x0001 (off % 0x1000) 0 else d1 := ⟨_, rfl⟩
  have hreg : d2.reg (canonOff off) = d.reg (canonOff off) := by
    rw [hd2]
    split
    · rw [Dev.reg_recordErr, harr.reg]
    · exact harr.reg _
  have hshape : d.Arrived d2 := by
    obtain ⟨c, p, h1, -⟩ := harr
    rw [hd2, h1]
    split
    · exact ⟨c, _, by rw [Dev.recordErr_eq]⟩
    · exact ⟨c, p, rfl⟩
  refine ⟨d2, d2, hshape, ?_⟩
  rw [regWrite, hw]
  simp only [hr, Bool.not_true, Bool.false_and, Bool.false_eq_true, if_false]
  rw [← hd2, hreg]

theorem Dev.settingOk_shape (c : Cap) (p : SMap Page) (h : Option Nat) (off : Nat) (v : Word) :
    ({ d with cap := c, pages := p, accHead := h } : Dev).settingOk off v = d.settingOk off v := rfl

/-- The effect of a setting's write. -/
def settingEff (off : Nat) (v new : Word) (d : Dev) : Dev :=
  if d.settingOk (canonOff off) new then (storeReg off new d).afterStore d (canonOff off) new
  else d.recordErr (off / 0x1000) (settingCode off) (off % 0x1000) v.toNat

theorem settingWrite_eq (off : Nat) (v : Word) : settingWrite off v d = regWrite d off v (settingEff off v) := rfl

theorem canonOff_ne {off k : Nat} (h : off ≠ k) (hk : k < 0x800000 ∨ 0x801000 ≤ k) : canonOff off ≠ k := by
  unfold canonOff
  split
  · omega
  · exact h

/-- The first or a later error: the page shows one. -/
theorem Dev.err_recordErr_self (pg code i0 i1 : Nat) : ((d.recordErr pg code i0 i1).page pg).err = true := by
  cases h : (d.page pg).err with
  | false => rw [Dev.page_recordErr_first d _ _ _ _ h]
  | true => rw [Dev.page_recordErr_later d _ _ _ _ h]; exact h

theorem settingWrite_spec {off : Nat} (v : Word) (ho : d.isOpen (off / 0x1000)) {r : RegDef} (hr : regDef? off = some r) (hne : off ≠ Reg.PWR_WAKE_EN) :
    let new := mergeWrite r (d.reg (canonOff off)) v true
    (d.settingOk (canonOff off) new = true → (settingWrite off v d).reg (canonOff off) = new) ∧
    (d.settingOk (canonOff off) new = false → (settingWrite off v d).regs = d.regs ∧ ((settingWrite off v d).page (off / 0x1000)).err = true) := by
  intro new
  obtain ⟨d2, before, ⟨c, p, hd2⟩, heq⟩ := regWrite_arrives d v (settingEff off v) ho rfl hr
  have hpub := Dev.Publishes.publishWrite (settingEff off v new d2) before off
  rw [settingWrite_eq, heq]
  have hok : d2.settingOk (canonOff off) new = d.settingOk (canonOff off) new := by
    rw [hd2]
    exact Dev.settingOk_shape d c p d.accHead _ _
  refine ⟨fun h => ?_, fun h => ?_⟩
  · rw [hpub.reg]
    unfold settingEff
    rw [hok, h, if_pos rfl, Dev.reg_afterStore _ _ _ (canonOff_ne hne (by decide)), storeReg, Dev.reg_setReg_self]
  · have heff : settingEff off v new d2 = d2.recordErr (off / 0x1000) (settingCode off) (off % 0x1000) v.toNat := by
      unfold settingEff
      rw [hok, h]
      rfl
    constructor
    · obtain ⟨_, _, _, h1, -⟩ := hpub
      rw [h1, heff, Dev.recordErr_eq, hd2]
    · rw [(Page.err_of_body (hpub.body _)).1, heff]
      exact Dev.err_recordErr_self _ _ _ _ _

/-! ### Selectors (R559) -/

/-- The selectors. -/
def selectors : List Nat :=
  [0x200100, 0x300100, 0x400100, 0x500140, 0x701140, 0xA0110C, 0xA03110, 0xA03130, 0xB0010C, 0xD01100, 0xEFF120, 0xF00108, 0x1000168]

theorem mem_selectors {off : Nat} (h : isSelector off = true) : off ∈ selectors := by
  unfold isSelector selectorGroup at h
  dsimp only at h
  split at h
  case h_14 => exact nomatch h
  all_goals decide

/-- The effect of a write of ECC_RL_SEL: the entry that it names is copied. -/
def eccSelEff (new : Word) (d : Dev) : Dev :=
  let d := storeReg Reg.ECC_RL_SEL new d
  let x := (d.trkOf (setKey (bits new 8 0) (bits new 14 9) (bits new 26 15))).bytes
  ((List.range 32).zip (toWords x 32)).foldl (fun d iw => d.setReg (Reg.ECC_RL_ENT iw.1) (w32 iw.2)) d

theorem eccSelEff_reg (new : Word) (e : Dev) : (eccSelEff new e).reg Reg.ECC_RL_SEL = new := by
  unfold eccSelEff
  extract_lets d1 x
  have h1 : d1.reg Reg.ECC_RL_SEL = new := Dev.reg_setReg_self _ _ _
  refine List.foldlRecOn (motive := fun e : Dev => e.reg Reg.ECC_RL_SEL = new) _ _ h1 (fun e he iw _ => ?_)
  rw [Dev.reg_setReg_ne _ (by simp only [Reg.ECC_RL_SEL, Reg.ECC_RL_ENT]; omega), he]

/-- A selector's write stores the merge, and presents its group anew. -/
theorem selectorWrite_row {off : Nat} (h : isSelector off = true) (v : Word) : ∃ eff : Word → Dev → Dev,
    (∀ e : Dev, doSelectorWrite off v e = regWrite e off v eff) ∧ ∀ new e, (eff new e).reg off = new := by
  have hset : ∀ k ∈ selectors, canonOff k = k ∧ k ≠ Reg.PWR_WAKE_EN := by decide
  obtain ⟨hcanon, hne⟩ := hset off (mem_selectors h)
  have hrow : off = Reg.ECC_RL_SEL ∨ (off ≠ Reg.ECC_RL_SEL ∧ bodyWrite off v = settingWrite off v ∧ ∀ (e : Dev) new, e.settingOk off new = true) := by
    have hmem := mem_selectors h
    simp only [selectors, List.mem_cons, List.not_mem_nil, or_false] at hmem
    rcases hmem with rfl | rfl | rfl | rfl | rfl | rfl | rfl | rfl | rfl | rfl | rfl | rfl | rfl
    case inr.inr.inr.inr.inr.inl => exact .inl rfl
    all_goals exact .inr ⟨by decide, rfl, fun _ _ => rfl⟩
  rcases hrow with rfl | ⟨-, hbody, hok⟩
  · exact ⟨eccSelEff, fun e => if_pos h, eccSelEff_reg⟩
  · refine ⟨settingEff off v, fun e => ?_, fun new e => ?_⟩
    · rw [doSelectorWrite, if_pos h, hbody, settingWrite_eq]
    · unfold settingEff
      rw [hcanon, hok, if_pos rfl, Dev.reg_afterStore _ _ _ hne, storeReg, hcanon, Dev.reg_setReg_self]

/-- SHF's page shows of the page headers which ports are in service. -/
theorem Dev.liveShf_pages {p : SMap Page} (hen : ∀ q, (({ d with pages := p } : Dev).page q).en = (d.page q).en) (rel : Nat) :
    ({ d with pages := p } : Dev).liveShf rel = d.liveShf rel := by
  have hgone : ∀ q i, ({ d with pages := p } : Dev).dieGone q i = d.dieGone q i := fun q i => by
    unfold Dev.dieGone Dev.portGone Dev.portOut
    rw [hen]
    rfl
  have hset : ∀ b, ({ d with pages := p } : Dev).setsOf b = d.setsOf b := fun _ => rfl
  have hchunk : ∀ b k c, ({ d with pages := p } : Dev).chunkErased b k c = d.chunkErased b k c := fun b k c => by
    unfold Dev.chunkErased
    simp only [hgone]
    rfl
  have hcw : ∀ b k j c, ({ d with pages := p } : Dev).cwErased b k j c = d.cwErased b k j c := fun b k j c => by
    unfold Dev.cwErased
    rw [hchunk]
  have hera : ∀ b k c, ({ d with pages := p } : Dev).erasures b k c = d.erasures b k c := fun b k c => by
    unfold Dev.erasures
    simp only [hcw]
  have hband : ∀ b, ({ d with pages := p } : Dev).bandErasures b = d.bandErasures b := fun b => by
    unfold Dev.bandErasures Dev.stripeErasures
    simp only [hera]
    rfl
  unfold Dev.liveShf
  dsimp only
  simp only [hgone, hset, hband]
  rfl

/-- A register outside the GLB page and the port pages shows of the page headers at most which pages have EN = 1. -/
theorem Dev.liveReg_pages {p : SMap Page} (hen : ∀ q, (({ d with pages := p } : Dev).page q).en = (d.page q).en) {o : Nat} (h0 : o / 0x1000 ≠ 0)
    (hport : pagePort (o / 0x1000) = none) : ({ d with pages := p } : Dev).liveReg o = d.liveReg o := by
  unfold Dev.liveReg
  dsimp only
  split
  · rfl
  · split
    case h_1 => omega
    case h_8 => exact d.liveShf_pages hen _
    case h_12 => simp only [hport]; rfl
    all_goals rfl

theorem Dev.publishAll_shape (os : List Nat) : ∃ p, d.publishAll os = { d with published := p } :=
  List.foldlRecOn (motive := fun e : Dev => ∃ p, e = { d with published := p }) os _ ⟨d.published, rfl⟩ (fun e he o _ => by
    obtain ⟨p, rfl⟩ := he
    exact ⟨_, rfl⟩)

theorem Dev.publishWrite_selector (before : Dev) {off : Nat} (h : isSelector off = true) :
    d.publishWrite before off = (d.publishAll (selectorGroup off)).seqStep (off / 0x1000) := by
  unfold isSelector at h
  unfold Dev.publishWrite
  generalize selectorGroup off = os at h
  cases os with
  | nil => exact nomatch h
  | cons o os => rfl

theorem Dev.liveReg_seqStep (pg : Nat) {o : Nat} (h0 : o / 0x1000 ≠ 0) (hport : pagePort (o / 0x1000) = none) :
    (d.seqStep pg).liveReg o = d.liveReg o :=
  have hen : ∀ q, ((d.seqStep pg).page q).en = (d.page q).en := fun q => by
    rw [Dev.seqStep, Dev.page_setPage]
    split
    · next h => rw [h]
    · rfl
  Dev.liveReg_pages d hen h0 hport

/-- A group presented anew reads as it is. -/
theorem Dev.readReg_presented {off o : Nat} (h : isSelector off = true) (ho : o ∈ selectorGroup off) (pg : Nat) :
    ((d.publishAll (selectorGroup off)).seqStep pg).readReg o = ((d.publishAll (selectorGroup off)).seqStep pg).liveReg o := by
  have hplace : ∀ k ∈ selectors, ∀ o ∈ selectorGroup k, o / 0x1000 ≠ 0 ∧ pagePort (o / 0x1000) = none := by decide
  obtain ⟨h0, hport⟩ := hplace off (mem_selectors h) o ho
  have hpub : (d.publishAll (selectorGroup off)).pubCopy o = d.liveReg o := by
    rw [Dev.pubCopy_publishAll, if_pos ⟨o, ho, rfl⟩]
  have hlive : ((d.publishAll (selectorGroup off)).seqStep pg).liveReg o = d.liveReg o := by
    obtain ⟨p, hp⟩ := d.publishAll_shape (selectorGroup off)
    rw [Dev.liveReg_seqStep _ pg h0 hport, hp]
    exact Dev.liveReg_published d p o
  rw [Dev.readReg_eq]
  split
  · rw [hlive, ← hpub]
    rfl
  · rfl

theorem selectorWrite_spec {off : Nat} (v : Word) {r : RegDef} (ho : d.isOpen (off / 0x1000)) (h : isSelector off = true) (hr : regDef? off = some r) :
    (doSelectorWrite off v d).reg off = mergeWrite r (d.reg off) v true ∧
    ∀ o ∈ selectorGroup off, (doSelectorWrite off v d).readReg o = (doSelectorWrite off v d).liveReg o := by
  obtain ⟨eff, hrow, heff⟩ := selectorWrite_row h v
  obtain ⟨d2, before, -, heq⟩ := regWrite_arrives d v eff ho rfl hr
  have hcanon : ∀ k ∈ selectors, canonOff k = k := by decide
  rw [hrow, heq, hcanon off (mem_selectors h)]
  refine ⟨?_, fun o ho => ?_⟩
  · rw [(Dev.Publishes.publishWrite _ before off).reg, heff]
  · rw [Dev.publishWrite_selector _ _ h]
    exact Dev.readReg_presented _ h ho _

/-! ### Accesses that come on a head -/

/-- What a head must be that BAR0 and BAR4 decode on it (R63). -/
theorem Dev.mgrOn_up {h : Nat} (hm : d.mgrOn h = true) : d.headUp h = true := by
  unfold Dev.mgrOn at hm
  simp only [Bool.and_eq_true] at hm
  exact hm.1.1

theorem doRegisterWrite_bar0 {head off size value : Nat} (hb : d.barUp = true) (hm : d.mgrOn (head % 4) = true) :
    doRegisterWrite ⟨head, .bar0, false, off, size, value⟩ d = onHead (head % 4) (bar0Write off size value) d := by
  unfold doRegisterWrite
  simp only [hb, hm, d.mgrOn_up hm]
  rfl

theorem doRegisterWrite_read {head off value : Nat} (hb : d.barUp = true) (hm : d.mgrOn (head % 4) = true) (hal : off % 4 = 0) (hlt : off < 0x2000000)
    (hap : inAperture off = false) :
    doRegisterWrite ⟨head, .bar0, true, off, 4, value⟩ d =
      onHead (head % 4) (fun d => Dev.answer ((d.bar0Read32 off).1.toNat, (d.bar0Read32 off).2)) d := by
  unfold doRegisterWrite
  simp only [hb, hm, d.mgrOn_up hm, hap, sizedRead, hal]
  rw [if_neg (by decide), if_neg (by decide), if_neg (by decide), if_neg (by simp; omega)]
  rfl

theorem Dev.bar0Read_accHead (h : Option Nat) (off : Nat) : ({ d with accHead := h } : Dev).bar0Read off = d.bar0Read off := by
  have hhead : ∀ pg rel, ({ d with accHead := h } : Dev).headerReg pg rel = d.headerReg pg rel := fun _ _ => rfl
  have hread : ({ d with accHead := h } : Dev).readReg off = d.readReg off := rfl
  have hpower : ∀ pg, ({ d with accHead := h } : Dev).powered pg = d.powered pg := fun _ => rfl
  have hpage : ∀ pg, ({ d with accHead := h } : Dev).page pg = d.page pg := fun _ => rfl
  unfold Dev.bar0Read
  dsimp only
  rw [hhead, hread, hpower, hpage]

/-- A read of a word tells the host the word and leaves the registers. -/
theorem Dev.bar0Read32_spec (off : Nat) : d.tells (Dev.answer ((d.bar0Read32 off).1.toNat, (d.bar0Read32 off).2)) (.readData (d.bar0Read off).toNat) ∧
    (Dev.answer ((d.bar0Read32 off).1.toNat, (d.bar0Read32 off).2)).regs = d.regs := by
  unfold Dev.bar0Read32 Dev.answer
  extract_lets v d1 d2
  have h1 : d1.out = d.out ∧ d1.regs = d.regs := by
    simp only [d1]
    rw [Dev.capRec_eq]
    exact ⟨rfl, rfl⟩
  have h2 : d2.out = d.out ∧ d2.regs = d.regs := by
    simp only [d2]
    split
    · exact h1
    · rw [Dev.recordErr_eq]
      exact h1
  have h3 : ∀ e : Dev, e.out = d.out ∧ e.regs = d.regs → d.tells (e.emit (.readData v.toNat)) (.readData v.toNat) ∧
      (e.emit (.readData v.toNat)).regs = d.regs := fun e he => by
    refine ⟨?_, he.2⟩
    rw [Dev.tells, show (e.emit (.readData v.toNat)).out = e.out ++ [.readData v.toNat] from rfl, he.1, List.drop_left]
    exact List.mem_singleton.mpr rfl
  refine h3 _ ?_
  dsimp only
  split
  · exact h2
  · exact h2

/-- A write narrower than a word is dropped with an error. -/
theorem narrowWrite_spec {off size value : Nat} (ho : d.isOpen (off / 0x1000)) (hsize : size = 1 ∨ size = 2) (hlt : off < 0x2000000)
    (hap : inAperture off = false) (herr : (d.page (off / 0x1000)).err = false) :
    ((bar0Write off size value d).page (off / 0x1000)).errCode = 0x0006 ∧ (bar0Write off size value d).regs = d.regs := by
  have heq : bar0Write off size value d = pageWrite d off (w32 value) (fun _ d => d.recordErr (off / 0x1000) 0x0006 (off % 0x1000) 0) := by
    unfold bar0Write sizedWrite
    rw [if_neg (by omega), hap, if_neg Bool.false_ne_true, if_neg (by omega), if_neg (by omega), if_pos hsize]
  obtain ⟨d1, harr, hw⟩ := pageWrite_open d off (w32 value) (fun _ d => d.recordErr (off / 0x1000) 0x0006 (off % 0x1000) 0) ho
  rw [heq, hw]
  have herr1 : (d1.page (off / 0x1000)).err = false := (Page.err_of_body (harr.body _)).1.trans herr
  refine ⟨by rw [Dev.page_recordErr_first _ _ _ _ _ herr1], ?_⟩
  obtain ⟨_, _, h1, -⟩ := harr
  rw [Dev.recordErr_eq, h1]

/-- A word written to BAR2 goes to the row of its offset in the queue's page (R51). -/
theorem bar2Write_tail {off : Nat} (value : Nat) (h : off % 0x1000 = 0x000) :
    bar2Write off 4 value d = doSqTailDbWrite (off / 0x10000 % 1024) (off / 0x1000 % 16) (w32 value) d := by
  simp [bar2Write, h]

theorem bar2Write_head {off : Nat} (value : Nat) (h : off % 0x1000 = 0x004) :
    bar2Write off 4 value d = doCqHeadDbWrite (off / 0x10000 % 1024) (off / 0x1000 % 16) (w32 value) d := by
  simp [bar2Write, h]

theorem bar2Write_reset {off : Nat} (value : Nat) (h : off % 0x1000 = 0x008) :
    bar2Write off 4 value d = doQReset (off / 0x10000 % 1024) (off / 0x1000 % 16) (w32 value) d := by
  simp [bar2Write, h]

end

section
variable {s : State}

/-- An access that is no write of the aperture changes the device only. -/
theorem exec_registerWrite_act {a : HostAccess} (h : ¬ (a.space = .bar0 ∧ a.rd = false ∧ inAperture a.off)) :
    exec (.registerWrite a) s = act s (doRegisterWrite a) :=
  if_neg h

/-- A write to BAR0 outside the aperture. -/
theorem exec_bar0Write {head off size value : Nat} (hrun : s.running) (hb : s.dev.barUp = true) (hm : s.dev.mgrOn (head % 4) = true)
    (hap : inAperture off = false) : exec (.registerWrite ⟨head, .bar0, false, off, size, value⟩) s =
      .next { s with dev := onHead (head % 4) (bar0Write off size value) s.dev } := by
  rw [exec_registerWrite_act (by simp [hap]), act_of_running _ _ hrun, doRegisterWrite_bar0 _ hb hm]

/-- A write of a word to BAR2. -/
theorem exec_bar2Write {head off value : Nat} (hrun : s.running) (hb : s.dev.barUp = true) (hup : s.dev.headUp (head % 4) = true)
    (hfence : s.dev.rpFence = false) : exec (.registerWrite ⟨head, .bar2, false, off, 4, value⟩) s =
      .next { s with dev := bar2Write off 4 value s.dev } := by
  have hrow : doRegisterWrite ⟨head, .bar2, false, off, 4, value⟩ s.dev = bar2Write off 4 value s.dev := by
    unfold doRegisterWrite
    simp only [hb, hup, hfence]
    rfl
  rw [exec_registerWrite_act (by simp), act_of_running _ _ hrun, hrow]

theorem registerWrite_next (a : HostAccess) (hrun : s.running) : ∃ t, exec (.registerWrite a) s = .next t := by
  change ∃ t, execRegisterWrite a s = .next t
  unfold execRegisterWrite
  split
  · exact ⟨_, actArray_next _ _ _ hrun.1 hrun.2.1⟩
  · exact ⟨_, act_of_running s _ hrun⟩

/-- An access to BAR0 or BAR4 on a head on which they do not decode (R63). -/
theorem exec_registerWrite_noMgr {a : HostAccess} (hrun : s.running) (hspace : a.space = .bar0 ∨ a.space = .bar4) (hb : s.dev.barUp = true)
    (hup : s.dev.headUp (a.head % 4) = true) (hno : s.dev.mgrOn (a.head % 4) = false) :
    exec (.registerWrite a) s = .next { s with dev := s.dev.emit (.unsupportedRequest (a.head % 4)) } := by
  have hrow : doRegisterWrite a s.dev = s.dev.emit (.unsupportedRequest (a.head % 4)) := by
    unfold doRegisterWrite
    rcases hspace with h | h
    · cases a.rd <;> simp [h, hb, hup, hno]
    · simp [h, hb, hup, hno]
  have hnone : accessStore a s.dev = [] := if_neg (by simp [hno])
  change execRegisterWrite a s = _
  unfold execRegisterWrite
  split
  · rw [actArray_next _ _ _ hrun.1 hrun.2.1, hnone, hrow, if_pos hrun.2.2]
    rfl
  · rw [act_of_running s _ hrun, hrow]

/-- An access to the configuration space of a head that is up before release or during a reset is told to come again. -/
theorem exec_config_retry {a : HostAccess} (hrun : s.running) (hspace : a.space = .config) (hup : s.dev.headUp (a.head % 4) = true)
    (hwait : s.dev.released = false ∨ s.dev.resetRun = true) :
    exec (.registerWrite a) s = .next { s with dev := s.dev.emit (.configRetry (a.head % 4)) } := by
  have hrow : doRegisterWrite a s.dev = s.dev.emit (.configRetry (a.head % 4)) := by
    unfold doRegisterWrite Dev.cfgAccess
    simp only [hspace, hup, if_true, Bool.not_true, Bool.false_eq_true, if_false]
    rw [if_pos (by simpa using hwait)]
  rw [exec_registerWrite_act (by simp [hspace]), act_of_running s _ hrun, hrow]

end

/-- Settles O6: register writes of every size, reads, selectors, doorbells and accesses that do not decode. -/
theorem registerWrites : Obligations.RegisterWrites := by
  refine ⟨?_, fun s head off value hrun hb hm hal hlt hap => ?_, fun s head off size value hrun ho hm hsize hlt hap herr => ?_,
    fun s off v r hrun ho hsel hr => ⟨_, act_of_running s (doSelectorWrite off v) hrun, selectorWrite_spec s.dev v ho hsel hr⟩, ?_,
    fun s a hrun => ⟨?_, fun hspace hb hup hno => ?_, fun hspace hup hwait => ?_⟩⟩
  · intro s head off value r hrun hm ho hal hbody hlt hap hset hr hne new
    refine ⟨_, exec_bar0Write hrun ho.1.1 hm hap, ?_⟩
    have heq : bar0Write off 4 value { s.dev with accHead := some (head % 4) } = settingWrite off (w32 value) { s.dev with accHead := some (head % 4) } := by
      unfold bar0Write sizedWrite regWrite32
      rw [if_neg (by omega), hap, if_neg Bool.false_ne_true, if_pos ⟨rfl, hal⟩, if_neg (by omega), hset]
    obtain ⟨h1, h2⟩ := settingWrite_spec { s.dev with accHead := some (head % 4) } (w32 value) ho hr hne
    rw [← heq] at h1 h2
    exact ⟨h1, h2⟩
  · rw [exec_registerWrite_act (by simp), act_of_running _ _ hrun, doRegisterWrite_read _ hb hm hal hlt hap]
    obtain ⟨h1, h2⟩ := Dev.bar0Read32_spec { s.dev with accHead := some (head % 4) } off
    rw [Dev.bar0Read_accHead] at h1
    exact ⟨_, rfl, h1, h2, rfl, rfl⟩
  · obtain ⟨h1, h2⟩ := narrowWrite_spec { s.dev with accHead := some (head % 4) } (value := value) ho hsize hlt hap herr
    exact ⟨_, exec_bar0Write hrun ho.1.1 hm hap, h1, h2⟩
  · intro s head off value hrun hb hup hfence db
    have hdb : db = .next { s with dev := bar2Write off 4 value s.dev } := exec_bar2Write hrun hb hup hfence
    rw [hdb]
    refine ⟨fun h => ?_, fun h => ?_, fun h => ?_⟩
    · rw [bar2Write_tail _ _ h]
      exact (act_of_running s (doSqTailDbWrite _ _ (w32 value)) hrun).symm
    · rw [bar2Write_head _ _ h]
      exact (act_of_running s (doCqHeadDbWrite _ _ (w32 value)) hrun).symm
    · rw [bar2Write_reset _ _ h]
      exact (act_of_running s (doQReset _ _ (w32 value)) hrun).symm
  · exact registerWrite_next a hrun
  · exact exec_registerWrite_noMgr hrun hspace hb hup hno
  · exact exec_config_retry hrun hspace hup hwait

end Sys2Proof.Machine
end

section
/-! Decoders report: what taking in a decode's result leaves of ports, pages and counts (R292 to R295, R301, R304 to R307). -/

namespace Sys2Proof.Machine

-- In order, one declaration at a time: keeps the check within its memory limit.
set_option Elab.async false

/-! ### What leaves the flash pages and the stripe buffers -/

/-- From `d` to `t` no flash page and no stripe buffer changes. -/
def Dev.KeepsFlash (d t : Dev) : Prop := t.flash = d.flash ∧ t.stripeBuf = d.stripeBuf

section
variable {d e t : Dev}

theorem Dev.KeepsFlash.refl (d : Dev) : d.KeepsFlash d := ⟨rfl, rfl⟩

theorem Dev.KeepsFlash.trans (h : d.KeepsFlash e) (h' : e.KeepsFlash t) : d.KeepsFlash t := ⟨h'.1.trans h.1, h'.2.trans h.2⟩

theorem Dev.KeepsFlash.ite {c : Prop} [Decidable c] (h : d.KeepsFlash e) (h' : d.KeepsFlash t) : d.KeepsFlash (if c then e else t) := by
  split
  · exact h
  · exact h'

theorem Dev.KeepsFlash.foldl {α : Type} {f : Dev → α → Dev} (h : ∀ e x, Dev.KeepsFlash e (f e x)) (l : List α) (d : Dev) :
    d.KeepsFlash (l.foldl f d) :=
  List.foldlRecOn (motive := fun e : Dev => d.KeepsFlash e) l f (.refl d) (fun e he x _ => he.trans (h e x))

theorem Dev.KeepsFlash.of_posts (h : d.Posts t) : d.KeepsFlash t := ⟨congrArg (·.flash) h.kept, congrArg (·.stripeBuf) h.kept⟩

theorem Dev.KeepsFlash.of_reports (h : d.Reports t) : d.KeepsFlash t := ⟨congrArg (·.flash) h.kept, congrArg (·.stripeBuf) h.kept⟩

theorem Dev.KeepsFlash.fpage (h : d.KeepsFlash t) (k : Nat) : t.fpage k = d.fpage k := by rw [Dev.fpage, h.1, Dev.fpage]

end

section
variable (d : Dev)

theorem Dev.KeepsFlash.crCounts : d.KeepsFlash d.crCounts :=
  (Dev.KeepsFlash.foldl (fun _ _ => ⟨rfl, rfl⟩) (List.range 10) d).trans ⟨rfl, rfl⟩

theorem Dev.KeepsFlash.freeCredit (p : Nat → Bool) : d.KeepsFlash (d.freeCredit p) := by
  unfold Dev.freeCredit
  exact .ite (.trans ⟨rfl, rfl⟩ (.crCounts _)) (.refl d)

theorem Dev.KeepsFlash.respace : d.KeepsFlash d.respace := by
  unfold Dev.respace
  extract_lets bs withdrawn nS nMeta nQ nSlc d1 d2 d3 d4 d5 d6 d7 d8 cLog d9 old new d10 d11 d12
  have h10 : d.KeepsFlash d10 := .ite ⟨rfl, rfl⟩ ⟨rfl, rfl⟩
  have h12 : d.KeepsFlash d12 := h10.trans ⟨rfl, rfl⟩
  exact .ite h12 (h12.trans (.of_reports (Dev.Reports.raise _ _ _)))

theorem Dev.KeepsFlash.journal (b : JBatch) : d.KeepsFlash (d.journal b) := .of_posts (Dev.Posts.journal d b)

theorem Dev.KeepsFlash.bmMayClear (band region : Nat) : d.KeepsFlash (d.bmMayClear band region) := by
  unfold Dev.bmMayClear
  extract_lets r
  exact .ite ⟨rfl, rfl⟩ (.refl d)

theorem Dev.KeepsFlash.setBmLog (n : Nat) (l : BmLog) : d.KeepsFlash (d.setBmLog n l) := ⟨rfl, rfl⟩

theorem Dev.KeepsFlash.setBand (b : Nat) (x : Band) : d.KeepsFlash (d.setBand b x) := ⟨rfl, rfl⟩

theorem Dev.KeepsFlash.bmWrite (kind band : Nat) : d.KeepsFlash (d.bmWrite kind band) := by
  unfold Dev.bmWrite
  extract_lets d1 r b d2
  have h2 : d.KeepsFlash d2 := .trans (e := d1) ⟨rfl, rfl⟩ (.journal d1 _)
  exact h2.trans (.foldl (fun x n => .setBmLog x n _) _ _)

theorem Dev.KeepsFlash.bmRecord (kind band : Nat) : d.KeepsFlash (d.bmRecord kind band) := by
  have hcheck : ∀ e : Dev, e.KeepsFlash e.bmCheckpoint := fun e => by
    unfold Dev.bmCheckpoint
    extract_lets bs d1
    have h1 : e.KeepsFlash d1 := .foldl (fun x b => .bmWrite x 3 b) _ _
    exact .ite h1 (h1.trans (.foldl (fun x n => .setBmLog x n _) _ _))
  unfold Dev.bmRecord
  exact .ite ((Dev.KeepsFlash.bmWrite d kind band).trans (hcheck _)) (.bmWrite d kind band)

theorem Dev.KeepsFlash.bmSet (band stripe : Nat) : d.KeepsFlash (d.bmSet band stripe) := by
  unfold Dev.bmSet
  extract_lets r d1
  have h1 : d.KeepsFlash d1 := .trans (.trans (e := { d with bmDirty := d.bmDirty ++ [r] }) ⟨rfl, rfl⟩ (.bmRecord _ 1 band)) ⟨rfl, rfl⟩
  exact .ite ⟨rfl, rfl⟩ (.ite (h1.trans ⟨rfl, rfl⟩) h1)

theorem Dev.KeepsFlash.addOp (p : Nat) (o : POp) : d.KeepsFlash (d.addOp p o) := by
  have hremote : ∀ (e : Dev) (o : POp), e.KeepsFlash (e.remote p o) := fun e o => by
    unfold Dev.remote
    extract_lets d1 d2
    have h1 : e.KeepsFlash d1 := .ite (.bmSet e _ _) (.refl e)
    exact (h1.trans (e := d1) (t := d2) ⟨rfl, rfl⟩).trans (.of_posts (Dev.Posts.sendGulon _ _ _))
  unfold Dev.addOp
  extract_lets x t o1 d1
  have h1 : d.KeepsFlash d1 := ⟨rfl, rfl⟩
  exact .ite (h1.trans (hremote _ _)) h1

theorem Dev.KeepsFlash.metaAbandon (b : Nat) : d.KeepsFlash (d.metaAbandon b) := by
  unfold Dev.metaAbandon
  extract_lets gone d1
  exact .ite (.refl d) (.trans (e := d1.setFld Reg.MAP_CACHE_DIRTY 20 0 d1.dirty.length) ⟨rfl, rfl⟩ (.freeCredit _ _))

theorem Dev.KeepsFlash.closeBand (b : Nat) : d.KeepsFlash (d.closeBand b) := by
  unfold Dev.closeBand
  extract_lets x d1 d2 d3 d4 d5
  have h1 : d.KeepsFlash d1 := .metaAbandon d b
  have h2 : d.KeepsFlash d2 := h1.trans (e := d1) ⟨rfl, rfl⟩
  have h3 : d.KeepsFlash d3 := h2.trans (.foldl (fun x k => .bmMayClear x _ _) _ _)
  have hfinal : ∀ (e : Dev) (js : Nat × BSet), e.KeepsFlash (e.dealFinals b js.1 js.2 x.slc (fun _ => true)) := fun e js => by
    unfold Dev.dealFinals
    exact .foldl (fun y pg => .ite (.refl y) (.addOp y _ _)) _ _
  have h5 : d.KeepsFlash d5 := (h3.trans (.foldl hfinal _ _)).trans (.freeCredit _ _)
  have hclosed : ∀ (e : Dev) (y : Band), e.KeepsFlash (e.bandClosed b y) := fun e y =>
    .trans (e := { e with closeSeq := e.closeSeq + 1 }) ⟨rfl, rfl⟩ (.trans (.setBand _ b _) (.journal _ _))
  exact .ite (h5.trans (hclosed d5 _)) (.refl d)

theorem Dev.KeepsFlash.markRefresh (b : Nat) : d.KeepsFlash (d.markRefresh b) := by
  unfold Dev.markRefresh
  extract_lets x y d1
  exact .ite (.refl d) ⟨rfl, rfl⟩

theorem Dev.KeepsFlash.programFail (b pos : Nat) : d.KeepsFlash (d.programFail b pos) := by
  unfold Dev.programFail
  extract_lets s d1 s' y d2 d3 d4
  have h1 : d.KeepsFlash d1 := .closeBand d b
  have h2 : d.KeepsFlash d2 := h1.trans (.setBand d1 b _)
  have h3 : d.KeepsFlash d3 := (h2.trans (t := d2.inc Reg.MAP_RETIRED 1) ⟨rfl, rfl⟩).trans (.of_reports (Dev.Reports.raise _ _ _))
  exact (h3.trans (.of_reports (Dev.Reports.recordErr _ _ _ _ _))).trans (.markRefresh _ b)

theorem Dev.KeepsFlash.accMove (k page : Nat) (into : Bool) : d.KeepsFlash (d.accMove k page into) := by
  unfold Dev.accMove
  extract_lets a band ps
  exact .ite (.refl d) ⟨rfl, rfl⟩

theorem Dev.KeepsFlash.dparSet (k page : Nat) (on : Bool) : d.KeepsFlash (d.dparSet k page on) := by
  unfold Dev.dparSet
  extract_lets first d1 d2 ps d3
  have h1 : d.KeepsFlash d1 := ⟨rfl, rfl⟩
  have h3 : d.KeepsFlash d3 := (Dev.KeepsFlash.accMove d k page false).trans ⟨rfl, rfl⟩
  refine .ite (h1.trans (.foldl (fun x q => .accMove x k q true) _ _)) (.ite ?_ h3)
  exact (h3.trans (e := d3) (t := { d3 with dacc := d3.dacc.filter (fun kv => kv.1 / 8 != k) }) ⟨rfl, rfl⟩).trans (.freeCredit _ _)

theorem Dev.KeepsFlash.rebuildSettle (b : Nat) : d.KeepsFlash (d.rebuildSettle b) := by
  unfold Dev.rebuildSettle
  extract_lets x k
  exact .trans (e := d.setBand b { x with progress := k }) ⟨rfl, rfl⟩ (.freeCredit _ _)

theorem Dev.KeepsFlash.rebuildDone (b : Nat) : d.KeepsFlash (d.rebuildDone b) := by
  unfold Dev.rebuildDone
  extract_lets d1 d2
  have h1 : d.KeepsFlash d1 := .trans (e := { d with rbQueue := d.rbQueue.filter (· != b) }.rbCounts) ⟨rfl, rfl⟩ (.freeCredit _ _)
  have h2 : d.KeepsFlash d2 := .ite (h1.trans (.markRefresh _ _)) h1
  exact .ite (h2.trans (.of_reports (Dev.Reports.raise _ _ _))) h2

theorem Dev.KeepsFlash.rebuildVerified (b pos : Nat) : d.KeepsFlash (d.rebuildVerified b pos) := by
  unfold Dev.rebuildVerified
  extract_lets s x ok prog d1
  have h1 : d.KeepsFlash d1 := .trans (e := d.setBand b _) ⟨rfl, rfl⟩ (.rebuildSettle _ b)
  exact .ite (h1.trans (.rebuildDone _ b)) h1

theorem Dev.KeepsFlash.tryPost (qid tag : Nat) : d.KeepsFlash (d.tryPost qid tag) := by
  have hstall : d.KeepsFlash d.dlogStall := by
    unfold Dev.dlogStall
    exact .ite (.refl d) (.trans (e := { d.recordErr 0x500 0x0104 d.dlog 0 with dlogStalled := true })
      (.trans (.of_reports (Dev.Reports.recordErr d _ _ _ _)) ⟨rfl, rfl⟩) (.of_reports (Dev.Reports.raise _ _ _)))
  have hsucceed : ∀ c w single, d.KeepsFlash (d.succeed qid c w false single) := fun c w single =>
    .trans (e := d.setCmd qid _) ⟨rfl, rfl⟩ (.of_posts (Dev.Posts.complete _ _ _ _ _))
  unfold Dev.tryPost
  split
  · exact .ite ((hsucceed _ _ _).trans (.freeCredit _ _)) (.ite hstall (.refl d))
  · exact .refl d

theorem Dev.KeepsFlash.metaDone (b k : Nat) : d.KeepsFlash (d.metaDone b k) := by
  have hspent : ∀ e : Dev, e.KeepsFlash e.metaSpent := fun e => by
    unfold Dev.metaSpent
    exact .foldl (fun x b => by
      dsimp only
      exact .ite (.trans (.setBand x b _) (.journal _ _)) (.setBand x b _)) _ _
  have htrim : ∀ e : Dev, e.KeepsFlash e.trimCache := fun e => by
    unfold Dev.trimCache
    split
    · split
      · exact .ite (.refl e) ⟨rfl, rfl⟩
      · exact .refl e
    · exact .refl e
  unfold Dev.metaDone
  extract_lets bs done d1 d2
  have h1 : d.KeepsFlash d1 := ⟨rfl, rfl⟩
  have hreclaim : ∀ (e : Dev) (m : MetaBack), e.KeepsFlash { e.reclaim m.page m.recs with metaAt := SMap.insert e.metaAt m.page m.chunks } := fun e m =>
    ⟨rfl, rfl⟩
  have h2 : d.KeepsFlash d2 := h1.trans (.foldl (fun x m => (hreclaim x m).trans (.freeCredit _ _)) _ _)
  exact .ite h1 (((h2.trans (hspent _)).trans (.respace _)).trans (htrim _))

theorem Dev.KeepsFlash.stripeDone (b k : Nat) : d.KeepsFlash (d.stripeDone b k) := by
  unfold Dev.stripeDone
  extract_lets d1 d2 x d3 d4 y d5
  have h1 : d.KeepsFlash d1 := ⟨rfl, rfl⟩
  have h3 : d.KeepsFlash d3 := (h1.trans (.freeCredit _ _)).trans ⟨rfl, rfl⟩
  have h4 : d.KeepsFlash d4 := .ite h3 (h3.trans (.bmMayClear _ _ _))
  have h5 : d.KeepsFlash d5 := .ite (h4.trans (.closeBand _ b)) h4
  have hpost : ∀ e : Dev, e.KeepsFlash e.postPlaced := fun e => by
    unfold Dev.postPlaced
    exact .foldl (fun x qt => .tryPost x _ _) _ _
  exact .ite ((h5.trans (.metaDone _ _ _)).trans (hpost _)) (.refl d)

end

/-! ### The operations of a port by their tags -/

theorem List.find?_map_put {α : Type} {f : α → α} {p : α → Bool} (hf : ∀ x, p (f x) = p x) (l : List α) : (l.map f).find? p = (l.find? p).map f := by
  rw [List.find?_map]
  congr 2
  funext x
  exact hf x

section
variable {x : Port} {o : POp} {tag : Nat}

theorem Port.tag_of_op? (h : x.op? tag = some o) : o.tag = tag := by simpa using List.find?_some h

theorem Port.op?_setOp_self {y : POp} (h : x.op? tag = some o) (hy : y.tag = tag) : (x.setOp y).op? tag = some y := by
  have hmap : (x.setOp y).op? tag = (x.op? tag).map (fun z => if z.tag == y.tag then y else z) := List.find?_map_put (fun z => by
    split
    · next hz => rw [beq_iff_eq.mp hz]
    · rfl) _
  rw [hmap, h, Option.map_some, if_pos (by rw [Port.tag_of_op? h, hy]; exact beq_self_eq_true tag)]

theorem Port.op?_setOp_ne {y : POp} (hy : y.tag ≠ tag) : (x.setOp y).op? tag = x.op? tag := by
  have hmap : (x.setOp y).op? tag = (x.op? tag).map (fun z => if z.tag == y.tag then y else z) := List.find?_map_put (fun z => by
    split
    · next hz => rw [beq_iff_eq.mp hz]
    · rfl) _
  rw [hmap]
  cases h : x.op? tag with
  | none => rfl
  | some o => rw [Option.map_some, if_neg (by rw [Port.tag_of_op? h]; simpa using Ne.symm hy)]

theorem Port.op?_filter_ne {y : Nat} (hy : y ≠ tag) : ({ x with ops := x.ops.filter (fun o => o.tag != y) } : Port).op? tag = x.op? tag := by
  rw [Port.op?, List.find?_filter]
  exact List.find?_congr (fun z _ => by
    by_cases hz : z.tag = tag
    · simp [hz, Ne.symm hy]
    · simp [hz])

/-- The tag that the next operation takes is no operation's. -/
theorem Port.freeTag_fresh (x : Port) : ∀ o ∈ x.ops, o.tag ≠ x.freeTag := by
  intro o ho heq
  unfold Port.freeTag at heq
  split at heq
  · next t ht =>
    have hfree := List.find?_some ht
    simp only [Bool.not_eq_true', List.any_eq_false, beq_iff_eq] at hfree
    exact hfree o ho heq
  · have hle : ∀ (l : List POp) (m : Nat), (∀ y ∈ l, y.tag < l.foldl (fun m o => max m (o.tag + 1)) m) ∧ m ≤ l.foldl (fun m o => max m (o.tag + 1)) m := by
      intro l
      induction l with
      | nil => exact fun m => ⟨fun y hy => absurd hy List.not_mem_nil, Nat.le_refl m⟩
      | cons z l ih =>
        intro m
        obtain ⟨h1, h2⟩ := ih (max m (z.tag + 1))
        refine ⟨fun y hy => ?_, le_trans (le_max_left _ _) h2⟩
        rcases List.mem_cons.mp hy with rfl | hy
        · exact lt_of_lt_of_le (Nat.lt_succ_self _) (le_trans (le_max_right _ _) h2)
        · exact h1 y hy
    exact absurd heq (Nat.ne_of_lt ((hle x.ops 4096).1 o ho))

theorem Port.tag_ne_freeTag (h : x.op? tag = some o) : x.freeTag ≠ tag := fun heq =>
  x.freeTag_fresh o (List.mem_of_find?_eq_some h) ((Port.tag_of_op? h).trans heq.symm)

end

section
variable {d e t : Dev} {p tag : Nat} {o : POp}

theorem Dev.port_of_ports (h : t.ports = d.ports) (q : Nat) : t.port q = d.port q := by rw [Dev.port, h, Dev.port]

theorem Dev.op?_setPortOp (h : (d.port p).op? tag = some o) {y : POp} (hy : y.tag = tag) : ((d.setPortOp p y).port p).op? tag = some y := by
  rw [Dev.setPortOp, Dev.port_setPort_self]
  exact Port.op?_setOp_self h hy

theorem Dev.op?_dropOp_ne {y : Nat} (hy : y ≠ tag) : ((d.dropOp p y).port p).op? tag = (d.port p).op? tag := by
  rw [Dev.dropOp, Dev.port_setPort_self]
  exact Port.op?_filter_ne hy

theorem Dev.ports_sendGulon (d : Dev) (ty : Nat) (fs : Fields) : (d.sendGulon ty fs).ports = d.ports :=
  congrArg (·.ports) (Dev.Posts.sendGulon d ty fs).kept

/-- A new operation, one that programs nothing, leaves the others. -/
theorem Dev.op?_addOp (h : (d.port p).op? tag = some o) {y : POp} (hy : y.opc ≠ 0x02) : ((d.addOp p y).port p).op? tag = some o := by
  have hne := Port.tag_ne_freeTag h
  unfold Dev.addOp
  extract_lets x t o1 d1
  have ht : t ≠ tag := hne
  clear_value t
  have h1 : (d1.port p).op? tag = some o := by
    rw [show d1.port p = { x with ops := x.ops ++ [o1], nextTag := (t + 1) % 4096 } from d.port_setPort_self p _]
    have hx : x.ops.find? (fun o => o.tag == tag) = some o := h
    change (x.ops ++ [o1]).find? (fun o => o.tag == tag) = some o
    rw [List.find?_append, hx, Option.some_or]
  split
  · unfold Dev.remote
    extract_lets d2 d3
    have h2 : d2 = d1 := if_neg hy
    have h3 : (d3.port p).op? tag = some o := by
      simp only [d3]
      rw [Dev.port_setPort_self, Port.op?_setOp_ne ht, h2, h1]
    clear_value d3
    rw [Dev.port_of_ports (Dev.ports_sendGulon _ _ _), h3]
  · exact h1

end

/-! ### Counting and judging a decode's result -/

/-- The device without what taking in a decode's result changes beside the read itself: counts and scores, the marks of bands and the read-level
tracker. -/
def Dev.sansDecode (d : Dev) : Dev := { d.sansPosting with pages := [], incidents := [], incWait := [], bands := [], trk := [], rfshDays := [] }

/-- The registers that taking in a decode's result changes, but the counts of the ladder's first steps. -/
def decodeRegs : List Nat :=
  reportRegs ++ [Reg.ECC_CW_HARD_LO, Reg.ECC_CW_HARD_HI, Reg.ECC_MISPLACE, Reg.CRY_GCM_FAIL, Reg.SHF_DEG_SUBST, Reg.ECC_OVER_RWT, Reg.ECC_RFSH_30D,
    Reg.ECC_RL_SAT, Reg.ECC_RL_UPD]

/-- `t` comes from `d` by counting and judging decodes, which records no error. -/
structure Dev.Decodes (d t : Dev) : Prop where
  frame : Dev.Frame Dev.sansDecode decodeRegs d t
  err : ∀ pg, (t.page pg).err = (d.page pg).err

section
variable {d e t : Dev}

theorem Dev.Decodes.refl (d : Dev) : d.Decodes d := ⟨.refl d, fun _ => rfl⟩

theorem Dev.Decodes.trans (h : d.Decodes e) (h' : e.Decodes t) : d.Decodes t := ⟨h.frame.trans h'.frame, fun pg => (h'.err pg).trans (h.err pg)⟩

theorem Dev.Decodes.ite {c : Prop} [Decidable c] (h : d.Decodes e) (h' : d.Decodes t) : d.Decodes (if c then e else t) := by
  split
  · exact h
  · exact h'

theorem Dev.Decodes.foldl {α : Type} {f : Dev → α → Dev} (h : ∀ e x, Dev.Decodes e (f e x)) (l : List α) (d : Dev) : d.Decodes (l.foldl f d) :=
  List.foldlRecOn (motive := fun e : Dev => d.Decodes e) l f (.refl d) (fun e he x _ => he.trans (h e x))

theorem Dev.Decodes.ports (h : d.Decodes t) : t.ports = d.ports := congrArg (·.ports) h.frame.kept

theorem Dev.Decodes.flash (h : d.Decodes t) : t.flash = d.flash := congrArg (·.flash) h.frame.kept

theorem Dev.Decodes.fld (h : d.Decodes t) {off : Nat} (hi lo : Nat) (hoff : off ∉ decodeRegs := by decide) : t.fld off hi lo = d.fld off hi lo :=
  Dev.fld_congr (h.frame.regs off hoff) hi lo

end

section
variable (d : Dev)

theorem Dev.Decodes.inc {off : Nat} (hoff : off ∈ decodeRegs) (n : Nat) (hm : off ∉ modeRegs := by decide) : d.Decodes (d.inc off n) :=
  ⟨.setFld hoff _ _ _ (hm := hm), fun _ => rfl⟩

theorem Dev.Decodes.raise (pg bit : Nat) : d.Decodes (d.raise pg bit) :=
  ⟨Dev.Frame.weaken (Dev.Reports.raise d pg bit) (fun _ => rfl) (by decide), fun q => Dev.err_raise d pg bit q⟩

theorem Dev.Decodes.capRecFree (kind src : Nat) (ws : List Nat) : d.Decodes (d.capRecFree kind src ws) :=
  ⟨Dev.Frame.weaken (Dev.Reports.capRecFree d kind src ws) (fun _ => rfl) (by decide), fun q => by rw [Dev.page_capRecFree]⟩

theorem Dev.Decodes.score (src v : Nat) (slice cls group : Option Nat) : d.Decodes (d.score src v slice cls group) := by
  unfold Dev.score
  refine .foldl (fun e b => ?_) _ _
  exact .ite (.refl e) (.ite ⟨.hidden rfl rfl rfl, fun _ => rfl⟩ ⟨.hidden rfl rfl rfl, fun _ => rfl⟩)

theorem Dev.Decodes.setTrk (k : Nat) (x : Trk) : d.Decodes (d.setTrk k x) := ⟨.hidden rfl rfl rfl, fun _ => rfl⟩

theorem Dev.Decodes.markRefresh (b : Nat) : d.Decodes (d.markRefresh b) := by
  have hmark : ∀ (x : Band) (l : List Nat), d.Decodes { d.setBand b x with rfshDays := l } := fun x l => ⟨.hidden rfl rfl rfl, fun _ => rfl⟩
  unfold Dev.markRefresh
  extract_lets x d1
  exact .ite (.refl d) ((hmark _ _).trans ⟨.setFld (by decide) _ _ _, fun _ => rfl⟩)

theorem Dev.Decodes.readTracked (p : Nat) (o : POp) : d.Decodes (d.readTracked p o) := by
  have hmove : ∀ (e : Dev) k i delta, e.Decodes (e.moveOfs k i delta) := fun e k i delta => by
    unfold Dev.moveOfs
    extract_lets t v c d1
    have h1 : e.Decodes d1 := .setTrk e k _
    exact .ite h1 ((h1.trans (.inc d1 (by decide) 1)).trans (.raise _ _ _))
  have hupd : ∀ (e : Dev) k page slc n01 n10, e.Decodes (e.trackerUpdate k page slc n01 n10) := fun e k page slc n01 n10 => by
    unfold Dev.trackerUpdate
    extract_lets diff s gain z d1 t
    have h1 : e.Decodes d1 := .foldl (fun x i => hmove x _ _ _) _ _
    exact .ite (.refl e) ((h1.trans (.setTrk d1 k _)).trans (.inc _ (by decide) 1))
  unfold Dev.readTracked
  extract_lets k d1 hard thr d2
  have h1 : d.Decodes d1 := .ite (.setTrk d k _) (.refl d)
  have h2 : d.Decodes d2 := h1.trans (hupd _ _ _ _ _ _)
  exact .ite (h2.trans ((Dev.Decodes.inc d2 (by decide) 1).trans (.markRefresh _ _))) h2

end

end Sys2Proof.Machine
end

section
/-! Reports of hard decoders, whisks and verify reads (R292 to R295, R301, R304 to R307). -/

namespace Sys2Proof.Machine

-- In order, one declaration at a time: keeps the check within its memory limit.
set_option Elab.async false

/-! ### A hard decode (R292, R301) -/

/-- The read with one more codeword's result. -/
def POp.plus (o : POp) (x : CwGot) : POp := { o with got := o.got ++ [x] }

/-- The read's codewords are not judged on their tags (R306). -/
def POp.verifies (o : POp) : Bool := o.src == .verify || o.src == .early || o.src == .final

section
variable {d : Dev} {p tag cw : Nat} {o : POp}

/-- A hard decode whose syndrome is right: counted and judged, a failed codeword's climb begun, the read updated. -/
theorem doHardDecodeDone_row (hp : p < 512) (ht : tag < 4096) (hc : cw < 16) (hop : (d.port p).op? tag = some o) (hopc : o.opc = 0x01)
    (hdata : o.data = true) (hre : o.re = none) (hgot : ∀ x ∈ o.got, x.cw ≠ cw) (hcol : o.cols.contains cw = true)
    {ok okS okP okG : Bool} (e n01 n10 dec : Nat) {good climbs : Bool}
    (hgood : good = (ok && okS && (okP && d.placedRight o cw) && (o.verifies || (okG && d.tagRight o cw))))
    (hclimbs : climbs = (!good && !o.verifies && o.forTwin.isNone)) :
    let o' := o.plus ⟨cw, good, if climbs then 1 else 0, e, n01, n10, ok, false⟩
    ∃ d1 d2, d.Decodes d1 ∧ Dev.Decodes (if climbs then d1.inc Reg.ECC_CW_L1 1 else d1) d2 ∧
      doHardDecodeDone p tag cw ok true okS okP okG e n01 n10 dec d =
        (let f := if climbs then (d2.setPortOp p o').softRead p o' cw 1 else d2.setPortOp p o'
        (if o'.got.length = o'.cols.length then f.readTracked p o' else f).readEnd p o') := by
  intro o'
  unfold doHardDecodeDone
  extract_lets p1 g c
  have hp1 : p1 = p := Nat.mod_eq_of_lt hp
  have hc1 : c = cw := Nat.mod_eq_of_lt hc
  have hany : o.got.any (fun x => x.cw == c) = false := by
    rw [List.any_eq_false]
    intro x hx
    rw [hc1]
    simpa using hgot x hx
  clear_value p1 c
  subst hp1 hc1
  rw [if_neg (by simp), Nat.mod_eq_of_lt ht, hop]
  dsimp -zeta only
  have hmem : c ∈ o.cols := by simpa using hcol
  rw [if_neg (by simp [hopc, hdata, hre, hmem]; simpa using hany)]
  extract_lets placed gcm d1 d2 d3 vfy d4 good' climbs' d5 d6 o2 d7 d8 d9
  have h1 : d.Decodes d1 := (Dev.Decodes.capRecFree d _ _ _).trans ⟨.inc64 (by decide) (by decide) 1, fun _ => rfl⟩
  have h2 : d.Decodes d2 := .ite (h1.trans (.score _ _ _ _ _ _)) h1
  have h3 : d.Decodes d3 := .ite (h2.trans (.inc _ (by decide) 1)) h2
  have h4 : d.Decodes d4 := .ite (h3.trans (.inc _ (by decide) 1)) h3
  have h6 : d5.Decodes d6 := .ite (.inc _ (by decide) 1) (.refl d5)
  have hg : good' = good := hgood.symm
  have hcl : climbs' = climbs := by rw [hclimbs, ← hg]; rfl
  clear_value good'
  subst hg
  clear_value climbs'
  subst hcl
  exact ⟨d4, d6, h4, h6, rfl⟩

theorem POp.got_plus (o : POp) (x : CwGot) : (o.plus x).got = o.got ++ [x] := rfl

theorem POp.settled_plus (o : POp) (x : CwGot) (c : Nat) : (o.plus x).settled c = (o.settled c || (x.cw == c && x.step == 0)) := by
  simp [POp.settled, POp.plus, List.any_append]

theorem Dev.readEnd_open (h : o.over = false) : d.readEnd p o = d := by
  unfold Dev.readEnd
  rw [h]
  rfl

theorem Dev.op?_softRead (h : (d.port p).op? tag = some o) (y : POp) (c step : Nat) : ((d.softRead p y c step).port p).op? tag = some o := by
  unfold Dev.softRead
  refine Dev.op?_addOp h ?_
  dsimp only [mkOp]
  decide

theorem Dev.fld_softRead {off : Nat} (hoff : off ∉ workRegs) (e : Dev) (y : POp) (c step hi lo : Nat) :
    (e.softRead p y c step).fld off hi lo = e.fld off hi lo := by
  unfold Dev.softRead
  exact Dev.fld_congr ((Dev.Works.addOp (.refl e) p _).regs off hoff) hi lo

/-- A codeword that another has still to follow: its result stands in the read, and a failed one's climb is counted. -/
theorem doHardDecodeDone_open (hp : p < 512) (ht : tag < 4096) (hc : cw < 16) (hop : (d.port p).op? tag = some o) (hopc : o.opc = 0x01)
    (hdata : o.data = true) (hre : o.re = none) (hgot : ∀ x ∈ o.got, x.cw ≠ cw) (htwin : o.forTwin = none) (hcol : o.cols.contains cw = true)
    (hrest : ∃ c ∈ o.cols, c ≠ cw ∧ ∀ x ∈ o.got, x.cw ≠ c) (hsrc : o.verifies = false) (ok okS okP okG : Bool) (e n01 n10 dec : Nat) :
    let good := ok && okS && (okP && d.placedRight o cw) && (okG && d.tagRight o cw)
    let t := doHardDecodeDone p tag cw ok true okS okP okG e n01 n10 dec d
    ((t.port p).op? tag).map POp.got = some (o.got ++ [⟨cw, good, if good then 0 else 1, e, n01, n10, ok, false⟩]) ∧
    t.fld Reg.ECC_CW_L1 31 0 = (if good then d.fld Reg.ECC_CW_L1 31 0 else min (d.fld Reg.ECC_CW_L1 31 0 + 1) 0xFFFFFFFF) := by
  intro good t
  have hgood : good = (ok && okS && (okP && d.placedRight o cw) && (o.verifies || (okG && d.tagRight o cw))) := by
    rw [hsrc, Bool.false_or]
  clear_value good
  obtain ⟨d1, d2, h1, h2, heq⟩ := doHardDecodeDone_row (climbs := !good) hp ht hc hop hopc hdata hre hgot hcol e n01 n10 dec hgood
    (by simp [hsrc, htwin])
  have ht' : t = _ := heq
  obtain ⟨c, hcc, hne, hnone⟩ := hrest
  have hnot : ∀ x : CwGot, x.cw = cw → (o.plus x).over = false := fun x hx => by
    rw [POp.over, List.all_eq_false]
    refine ⟨c, hcc, ?_⟩
    rw [POp.settled_plus, hx]
    have hs : o.settled c = false := by
      rw [POp.settled, List.any_eq_false]
      intro y hy
      simp [hnone y hy]
    simp [hs, Ne.symm hne]
  rw [Dev.readEnd_open (hnot _ rfl)] at ht'
  have htag : o.tag = tag := Port.tag_of_op? hop
  have hport : ∀ y : POp, y.tag = tag → ((d2.setPortOp p y).port p).op? tag = some y := fun y hy => by
    refine Dev.op?_setPortOp (o := o) ?_ hy
    rw [Dev.port_of_ports h2.ports]
    have hsame : (if !good then d1.inc Reg.ECC_CW_L1 1 else d1).ports = d1.ports := by split <;> rfl
    rw [Dev.port_of_ports hsame, Dev.port_of_ports h1.ports, hop]
  have hL1 : (if !good then d1.inc Reg.ECC_CW_L1 1 else d1).fld Reg.ECC_CW_L1 31 0 =
      (if good then d.fld Reg.ECC_CW_L1 31 0 else min (d.fld Reg.ECC_CW_L1 31 0 + 1) 0xFFFFFFFF) := by
    cases good with
    | true => exact h1.fld _ _
    | false => exact (Dev.fld_inc_self _ _ _).trans (by rw [h1.fld]; rfl)
  have hlast : ∀ (f : Dev) (y : POp) (b : Prop) [Decidable b], f.Decodes (if b then f.readTracked p y else f) := fun f y b _ =>
    .ite (.readTracked f p y) (.refl f)
  have hset : ∀ y : POp, (d2.setPortOp p y).fld Reg.ECC_CW_L1 31 0 = d2.fld Reg.ECC_CW_L1 31 0 := fun y => rfl
  rw [ht']
  refine ⟨?_, ?_⟩
  · rw [Dev.port_of_ports (hlast _ _ _).ports]
    have hgot' : ∀ f : Dev, (f.port p).op? tag = some (o.plus ⟨cw, good, if !good then 1 else 0, e, n01, n10, ok, false⟩) →
        ((f.port p).op? tag).map POp.got = some (o.got ++ [⟨cw, good, if good then 0 else 1, e, n01, n10, ok, false⟩]) := fun f hf => by
      rw [hf, Option.map_some, POp.got_plus]
      cases good <;> rfl
    refine hgot' _ ?_
    split
    · exact Dev.op?_softRead (hport (o.plus _) htag) _ _ _
    · exact hport (o.plus _) htag
  · rw [(hlast _ _ _).fld, ← hL1, ← h2.fld]
    split
    · rw [Dev.fld_softRead (by decide), hset]
    · exact hset _

/-! ### The end of a verify read (R306, R309) -/

/-- The bit errors that a verify read's codewords may have. -/
def Dev.verifyLimit (d : Dev) (o : POp) : Nat := if o.slc then d.fld Reg.ECC_RW_CTL 31 24 else d.fld Reg.ECC_RW_CTL 23 16

theorem Dev.verifyEnd_passes (hsrc : o.src = .verify) (hpass : ∀ c ∈ o.got, c.ok = true ∧ c.e ≤ d.verifyLimit o) :
    ((d.verifyEnd p o).fpage (flashKey p o.die o.block o.page)).verified = true := by
  unfold Dev.verifyEnd
  extract_lets k lim pass key pg d1 d2
  have hp : pass = true := List.all_eq_true.mpr (fun c hc => Bool.and_eq_true_iff.mpr ⟨(hpass c hc).1, decide_eq_true (hpass c hc).2⟩)
  have h1 : (d1.fpage key).verified = true := by
    simp only [d1]
    rw [Dev.fpage, show ∀ f : FPage, (d.setFPage key f).flash = SMap.set (fun _ => FPage.reset) d.flash key f from fun _ => rfl, SMap.get_set_self]
  have h2 : d1.KeepsFlash d2 := .ite (.accMove d1 k _ _) (.refl d1)
  have h3 : ∀ t, d2.KeepsFlash t → (t.fpage key).verified = true := fun t ht => by rw [ht.fpage, h2.fpage, h1]
  rw [if_pos hp, if_neg (by rw [hsrc]; decide)]
  split
  · exact h3 _ (.rebuildVerified _ _ _)
  · split
    · exact h3 _ (.trans (e := { d2 with chunksOk := insertSorted d2.chunksOk (chunkId o.band o.stripe o.pos) }) ⟨rfl, rfl⟩ (.stripeDone _ _ _))
    · exact h3 _ (.refl d2)

theorem Dev.verifyEnd_fails (hsrc : o.src = .verify) (hfail : ∃ c ∈ o.got, c.ok = false) (herr : (d.page 0xA00).err = false) :
    ((d.verifyEnd p o).page 0xA00).errCode = 0x0103 ∧ ((d.verifyEnd p o).page 0xA00).info0 = w32 (p * 64 + o.die) ∧
    bitAt ((d.verifyEnd p o).page 0xA00).intPend 0 = true := by
  have hfirst : ((d.verifyFail p o).page 0xA00).err = true ∧ ((d.verifyFail p o).page 0xA00).errCode = 0x0103 ∧
      ((d.verifyFail p o).page 0xA00).info0 = w32 (p * 64 + o.die) ∧ bitAt ((d.verifyFail p o).page 0xA00).intPend 0 = true := by
    unfold Dev.verifyFail
    have hrec := Dev.page_recordErr_first (d.inc Reg.ECC_VFY_FAIL 1) 0xA00 0x0103 (p * 64 + o.die) (o.block * 4096 + o.page) herr
    have herr' : (((d.inc Reg.ECC_VFY_FAIL 1).recordErr 0xA00 0x0103 (p * 64 + o.die) (o.block * 4096 + o.page)).page 0xA00).err = true := by rw [hrec]
    obtain ⟨h1, h2, h3, -⟩ := ((Dev.Reports.raise ((d.inc Reg.ECC_VFY_FAIL 1).recordErr 0xA00 0x0103 (p * 64 + o.die) (o.block * 4096 + o.page))
      0xA00 0).page 0xA00).1 herr'
    refine ⟨h1, h2.trans (by rw [hrec]), h3.trans (by rw [hrec]), ?_⟩
    rw [Dev.intPend_raise _ _ _ (by decide)]
    exact (bitAt_putBit _ 0 0 true (by decide)).trans rfl
  have hbad : ∀ worse, (d.verifyFail p o).Works (d.verifyBad p o worse) := fun worse => by
    unfold Dev.verifyBad
    extract_lets k d1 bad
    rw [if_neg (by rw [hsrc]; decide)]
    exact .ite (.refl d1) (Dev.Works.programFail (.dparSet (.refl d1) _ _ _) _ _)
  have heq : d.verifyEnd p o = d.verifyBad p o (fun c => decide (d.verifyLimit o < c.e)) := by
    unfold Dev.verifyEnd
    extract_lets k lim pass
    have hp : ¬ pass = true := by
      obtain ⟨c, hc, hok⟩ := hfail
      intro h
      have hall := List.all_eq_true.mp h c hc
      rw [hok] at hall
      exact Bool.false_ne_true hall
    rw [if_neg hp]
    rfl
  rw [heq]
  obtain ⟨hkeep, hbits⟩ := (hbad (fun c => decide (d.verifyLimit o < c.e))).page 0xA00
  obtain ⟨h1, h2, h3, h4⟩ := hfirst
  obtain ⟨-, hc, hi, -⟩ := hkeep h1
  exact ⟨hc.trans h2, hi.trans h3, hbits 0 h4⟩

/-- The last codeword of a verify read ends it. -/
theorem doHardDecodeDone_verify (hp : p < 512) (ht : tag < 4096) (hc : cw < 16) (hop : (d.port p).op? tag = some o) (hopc : o.opc = 0x01)
    (hdata : o.data = true) (howner : o.owner = none) (hre : o.re = none) (hgot : ∀ x ∈ o.got, x.cw ≠ cw) (htwin : o.forTwin = none)
    (hcol : o.cols.contains cw = true) (hrest : ∀ c ∈ o.cols, c ≠ cw → ∃ x ∈ o.got, x.cw = c) (hsrc : o.src = .verify)
    (hstep : ∀ c ∈ o.got, c.step = 0) (ok okS okP okG : Bool) (e n01 n10 dec : Nat) :
    ∃ f : Dev, (f.page 0xA00).err = (d.page 0xA00).err ∧ (∀ y, f.verifyLimit y = d.verifyLimit y) ∧
      doHardDecodeDone p tag cw ok true okS okP okG e n01 n10 dec d =
        f.verifyEnd p (o.plus ⟨cw, ok && okS && okP, 0, e, n01, n10, ok, false⟩) := by
  have hv : o.verifies = true := by rw [POp.verifies, hsrc]; rfl
  have hplaced : d.placedRight o cw = true := by rw [Dev.placedRight, hsrc]; rfl
  obtain ⟨d1, d2, h1, h2, heq⟩ := doHardDecodeDone_row (ok := ok) (okS := okS) (okP := okP) (okG := okG)
    (good := ok && okS && okP) (climbs := false) hp ht hc hop hopc hdata hre hgot hcol e n01 n10 dec
    (by rw [hv, hplaced, Bool.true_or, Bool.and_true, Bool.and_true]) (by rw [hv, Bool.not_true, Bool.and_false, Bool.false_and])
  rw [if_neg Bool.false_ne_true] at h2 heq
  rw [if_neg Bool.false_ne_true] at heq
  have hover : (o.plus ⟨cw, ok && okS && okP, 0, e, n01, n10, ok, false⟩).over = true := by
    refine List.all_eq_true.mpr (fun c hcc => ?_)
    rw [POp.settled_plus]
    by_cases hne : c = cw
    · simp [hne]
    · obtain ⟨x, hx, hxc⟩ := hrest c hcc hne
      have hs : o.settled c = true := List.any_eq_true.mpr ⟨x, hx, by simp [hxc, hstep x hx]⟩
      rw [hs, Bool.true_or]
  have hlast : ∀ (f : Dev) (y : POp) (b : Prop) [Decidable b], f.Decodes (if b then f.readTracked p y else f) := fun f y b _ =>
    .ite (.readTracked f p y) (.refl f)
  have hset : ∀ y : POp, (d2.setPortOp p y).page 0xA00 = d2.page 0xA00 ∧
      (d2.setPortOp p y).reg Reg.ECC_RW_CTL = d2.reg Reg.ECC_RW_CTL := fun y => ⟨rfl, rfl⟩
  have h12 := h1.trans h2
  have hend : ∀ (f : Dev) (y : POp), y.over = true → y.owner = none → y.forTwin = none → y.src = .verify →
      f.readEnd p y = ((f.dropOp p y.tag).outCounts p).verifyEnd p y := fun f y hy ho hf hs => by
    unfold Dev.readEnd
    simp [hy, ho, hf, hs]
  have hout : ∀ f : Dev, ∀ n, ((f.dropOp p n).outCounts p).page 0xA00 = f.page 0xA00 ∧
      ((f.dropOp p n).outCounts p).reg Reg.ECC_RW_CTL = f.reg Reg.ECC_RW_CTL := fun f n =>
    ⟨rfl, Dev.reg_setReg_ne _ (by simp only [Reg.FCH_P_OUT, Reg.ECC_RW_CTL]; omega) _⟩
  refine ⟨_, ?_, ?_, heq.trans (hend _ _ hover howner htwin hsrc)⟩
  · rw [(hout _ _).1, (hlast _ _ _).err, (hset _).1, h12.err]
  · intro y
    have hreg : ∀ f : Dev, f.reg Reg.ECC_RW_CTL = d.reg Reg.ECC_RW_CTL → f.verifyLimit y = d.verifyLimit y := fun f hf => by
      rw [Dev.verifyLimit, Dev.fld_congr hf, Dev.fld_congr hf, Dev.verifyLimit]
    refine hreg _ ?_
    rw [(hout _ _).2, (hlast _ _ _).frame.regs _ (by decide), (hset _).2, h12.frame.regs _ (by decide)]

/-! ### Decoders out of service (R295) and soft decodes (R294, R304, R305) -/

theorem Dev.exhaust_keeps (e : Dev) (kind : Nat) : (e.exhaust kind).ports = e.ports ∧ (e.exhaust kind).hdOut = e.hdOut ∧
    (e.exhaust kind).wkOut = e.wkOut ∧ (e.exhaust kind).reg Reg.ECC_CW_HARD_LO = e.reg Reg.ECC_CW_HARD_LO := by
  unfold Dev.exhaust
  split
  · exact ⟨rfl, rfl, rfl, rfl⟩
  · have h := Dev.Reports.incident { e with exhausted := insertSorted e.exhausted kind } 0 0x0101 kind 0 none none none none
    exact ⟨congrArg (·.ports) h.kept, congrArg (·.hdOut) h.kept, congrArg (·.wkOut) h.kept, h.regs _ (by decide)⟩

/-- A hard decoder that reports a success with a nonzero syndrome is out of service. -/
theorem Dev.decoderOut_spec (g dec : Nat) : (d.decoderOut g dec).ports = d.ports ∧ g % 64 * 9 + dec % 9 ∈ (d.decoderOut g dec).hdOut ∧
    (d.decoderOut g dec).reg Reg.ECC_CW_HARD_LO = d.reg Reg.ECC_CW_HARD_LO := by
  unfold Dev.decoderOut
  extract_lets k d1 lost grp7 d2 d3 d4
  by_cases hk : d.hdOut.contains k = true
  · rw [if_pos hk]
    exact ⟨rfl, by simpa using hk, rfl⟩
  · rw [if_neg hk]
    have h3 : d3.ports = d.ports ∧ k ∈ d3.hdOut ∧ d3.reg Reg.ECC_CW_HARD_LO = d.reg Reg.ECC_CW_HARD_LO := by
      refine ⟨rfl, mem_insertSorted, ?_⟩
      simp only [d3, d2]
      rw [Dev.reg_setFld_ne _ (by decide), Dev.reg_setFld_ne _ (by decide)]
      rfl
    have h34 : d3.Reports d4 := (Dev.Reports.recordErr _ _ _ _ _).trans (Dev.Reports.raise _ _ _)
    have h4 : d4.ports = d.ports ∧ k ∈ d4.hdOut ∧ d4.reg Reg.ECC_CW_HARD_LO = d.reg Reg.ECC_CW_HARD_LO :=
      ⟨(congrArg (·.ports) h34.kept).trans h3.1, (congrArg (·.hdOut) h34.kept : d4.hdOut = d3.hdOut) ▸ h3.2.1, (h34.regs _ (by decide)).trans h3.2.2⟩
    split
    · exact h4
    · obtain ⟨he1, he2, -, he4⟩ := d4.exhaust_keeps 2
      exact ⟨he1.trans h4.1, he2 ▸ h4.2.1, he4.trans h4.2.2⟩

/-- A whisk that reports a success with a nonzero syndrome is out of service. -/
theorem Dev.whiskOut_spec (w cause : Nat) : (d.whiskOut w cause).ports = d.ports ∧ w % 104 ∈ (d.whiskOut w cause).wkOut := by
  unfold Dev.whiskOut
  extract_lets d1 n d2 d3
  by_cases hk : d.wkOut.contains (w % 104) = true
  · rw [if_pos hk]
    exact ⟨rfl, by simpa using hk⟩
  · rw [if_neg hk]
    have h2 : d2.ports = d.ports ∧ w % 104 ∈ d2.wkOut := ⟨rfl, mem_insertSorted⟩
    have h23 : d2.Reports d3 := (Dev.Reports.recordErr _ _ _ _ _).trans (Dev.Reports.raise _ _ _)
    have h3 : d3.ports = d.ports ∧ w % 104 ∈ d3.wkOut :=
      ⟨(congrArg (·.ports) h23.kept).trans h2.1, (congrArg (·.wkOut) h23.kept : d3.wkOut = d2.wkOut) ▸ h2.2⟩
    split
    · exact h3
    · obtain ⟨he1, -, he3, -⟩ := d3.exhaust_keeps 3
      exact ⟨he1.trans h3.1, he3 ▸ h3.2⟩

/-- The read with another result for a codeword. -/
def POp.put (o : POp) (x : CwGot) : POp := { o with got := o.got.map (fun y => if y.cw == x.cw then x else y) }

theorem POp.settled_put_ne (o : POp) {x : CwGot} {c : Nat} (h : x.cw ≠ c) (hs : o.settled c = false) : (o.put x).settled c = false := by
  rw [POp.settled, List.any_eq_false] at hs ⊢
  intro y hy
  obtain ⟨z, hz, rfl⟩ := List.mem_map.mp hy
  split
  · simp [h]
  · exact hs z hz

/-- What a soft decode is of: a codeword on the ladder, its re-read with its data, a whisk that takes it. -/
structure Dev.Climbing (d : Dev) (p tag cw : Nat) (o : POp) (c : CwGot) (y : POp) : Prop where
  port_lt : p < 512
  tag_lt : tag < 4096
  cw_lt : cw < 16
  op : (d.port p).op? tag = some o
  got : o.got.find? (fun x => x.cw == cw && x.step != 0) = some c
  reread : (d.port p).ops.find? (fun y => y.re == some (tag, cw, c.step) && y.data) = some y
  other : y.tag ≠ tag
  takes : d.whiskTakes p y = true
  rest : ∃ x ∈ o.cols, x ≠ cw ∧ o.settled x = false

variable {c : CwGot} {y : POp}

theorem Dev.Climbing.cw_eq (h : d.Climbing p tag cw o c y) : c.cw = cw := by
  have := List.find?_some h.got
  simp only [Bool.and_eq_true, beq_iff_eq] at this
  exact this.1

theorem Dev.Climbing.unover (h : d.Climbing p tag cw o c y) {x : CwGot} (hx : x.cw = cw) : (o.put x).over = false := by
  obtain ⟨z, hz, hne, hs⟩ := h.rest
  rw [POp.over, List.all_eq_false]
  exact ⟨z, hz, by simp [o.settled_put_ne (fun hc => hne (hc.symm.trans hx)) hs]⟩

theorem Dev.placedRight_capRecFree (kind src : Nat) (ws : List Nat) (o : POp) (c : Nat) :
    (d.capRecFree kind src ws).placedRight o c = d.placedRight o c := by
  rw [Dev.capRecFree_eq]
  rfl

theorem Dev.tagRight_capRecFree (kind src : Nat) (ws : List Nat) (o : POp) (c : Nat) : (d.capRecFree kind src ws).tagRight o c = d.tagRight o c := by
  rw [Dev.capRecFree_eq]
  rfl

/-- A soft decode whose syndrome is right: the re-read is over, and the codeword's climb ends or goes on. -/
theorem Dev.Climbing.row (h : d.Climbing p tag cw o c y) (ok okS okP okG : Bool) (w : Nat) :
    ∃ e f rest : Dev, d.Decodes e ∧ f = e.dropOp p y.tag ∧ (f.port p).op? tag = some o ∧ doWhiskDecodeDone p tag cw ok true okS okP okG w d =
      (if ok && okS && (okP && d.placedRight o cw) && (okG && d.tagRight o cw) then
        ((f.score 6 c.step none none (some (p / 8))).setPortOp p (o.put { c with step := 0 })).readEnd p (o.put { c with step := 0 })
      else if f.nextStep c.step = 2 then
        ((f.setPortOp p (o.put { c with step := f.nextStep c.step })).inc Reg.ECC_CW_L2 1).softRead p (o.put { c with step := f.nextStep c.step }) c.cw 2
      else rest) := by
  have hcw := h.cw_eq
  unfold doWhiskDecodeDone
  extract_lets p1 g
  have hp1 : p1 = p := Nat.mod_eq_of_lt h.port_lt
  clear_value p1
  subst hp1
  rw [if_neg (by simp), Nat.mod_eq_of_lt h.tag_lt, h.op]
  dsimp -zeta only
  rw [Nat.mod_eq_of_lt h.cw_lt, h.got]
  dsimp -zeta only
  rw [Port.tag_of_op? h.op, hcw, h.reread]
  dsimp -zeta only
  rw [h.takes, if_neg (by decide)]
  extract_lets d1 placed gcm d2 d3 d4 put o1 n o2 d5 k d6 d7
  have h1 : d.Decodes d1 := .capRecFree d _ _ _
  have h2 : d.Decodes d2 := .ite (h1.trans (.inc d1 (by decide) 1)) h1
  have h3 : d.Decodes d3 := .ite (h2.trans (.inc d2 (by decide) 1)) h2
  have h4 : (d4.port p1).op? tag = some o := (Dev.op?_dropOp_ne h.other).trans (by rw [Dev.port_of_ports h3.ports, h.op])
  have hplaced : placed = (okP && d.placedRight o cw) := congrArg (okP && ·) (Dev.placedRight_capRecFree _ _ _ o cw)
  have hgcm : gcm = (okG && d.tagRight o cw) := congrArg (okG && ·) (Dev.tagRight_capRecFree _ _ _ o cw)
  have hput : ∀ x, put x = o.put x := fun x => by
    simp only [put]
    rw [← Port.tag_of_op? h.op]
    rfl
  refine ⟨d3, d4, if n = 3 then (d5.inc Reg.ECC_CW_L3 1).softRead p1 o2 cw 3 else d7.readEnd p1 o2, h3, rfl, h4, ?_⟩
  rw [hplaced, hgcm]
  simp only [o1, d5, o2, n, g, hput]

/-- The soft decode succeeds with all its checks. -/
theorem Dev.Climbing.succeeds (h : d.Climbing p tag cw o c y) (hplaced : d.placedRight o cw = true) (htag : d.tagRight o cw = true) (w : Nat) :
    (((doWhiskDecodeDone p tag cw true true true true true w d).port p).op? tag).map POp.got =
      some (o.got.map (fun y => if y.cw == cw then { c with step := 0 } else y)) := by
  have hname : o.tag = tag := Port.tag_of_op? h.op
  obtain ⟨e, f, rest, -, -, hop, heq⟩ := h.row true true true true w
  rw [hplaced, htag, if_pos (by decide)] at heq
  have hscore : ((f.score 6 c.step none none (some (p / 8))).port p).op? tag = some o := by
    rw [Dev.port_of_ports (Dev.Decodes.score f _ _ _ _ _).ports, hop]
  rw [heq, Dev.readEnd_open (h.unover (x := { c with step := 0 }) h.cw_eq), Dev.op?_setPortOp (y := o.put _) hscore hname, Option.map_some, ← h.cw_eq]
  rfl

/-- The soft decode of the ladder's first step fails: the codeword moves up. -/
theorem Dev.Climbing.fails (h : d.Climbing p tag cw o c y) (hstep : c.step = 1) (okS okP okG : Bool) (w : Nat) :
    (((doWhiskDecodeDone p tag cw false true okS okP okG w d).port p).op? tag).map POp.got =
      some (o.got.map (fun y => if y.cw == cw then { c with step := 2 } else y)) ∧
    (doWhiskDecodeDone p tag cw false true okS okP okG w d).fld Reg.ECC_CW_L2 31 0 = min (d.fld Reg.ECC_CW_L2 31 0 + 1) 0xFFFFFFFF := by
  have hname : o.tag = tag := Port.tag_of_op? h.op
  obtain ⟨e, f, rest, he, hf, hop, heq⟩ := h.row false okS okP okG w
  have hnext : f.nextStep c.step = 2 := by rw [hstep]; rfl
  rw [hnext, if_neg (by simp), if_pos rfl] at heq
  have hset : (((f.setPortOp p (o.put { c with step := 2 })).inc Reg.ECC_CW_L2 1).port p).op? tag = some (o.put { c with step := 2 }) :=
    Dev.op?_setPortOp (y := o.put _) hop hname
  have hreg : (f.setPortOp p (o.put { c with step := 2 })).fld Reg.ECC_CW_L2 31 0 = d.fld Reg.ECC_CW_L2 31 0 := by
    rw [hf]
    exact he.fld 31 0
  rw [heq]
  refine ⟨?_, ?_⟩
  · rw [Dev.op?_softRead hset, Option.map_some, ← h.cw_eq]
    rfl
  · rw [Dev.fld_softRead (by decide), Dev.fld_inc_self, hreg]

end

/-- Settles O34: hard decodes, verify reads, soft decodes, and decoders that fail. -/
theorem decodersReport : Obligations.DecodersReport := by
  intro s p tag cw o hrun hp ht hc hop
  refine ⟨fun okS okP okG e n01 n10 dec hopc hdata howner hre hgot htwin hcol => ⟨fun hrest hsrc ok => ?_, fun hrest hsrc hstep => ?_⟩,
    fun okS okP okG e n01 n10 dec hdec => ?_, fun c w y hcg hrest hy hne htakes => ?_, fun okS okP okG w hw => ?_⟩
  · refine ⟨_, act_of_running s (doHardDecodeDone p tag cw ok true okS okP okG e n01 n10 dec) hrun, ?_⟩
    have hv : o.verifies = false := by
      have hall : ∀ x ∈ [OpSrc.host, .reloc, .rebuild, .sieve], (x == .verify || x == .early || x == .final) = false := by decide
      exact hall _ hsrc
    exact doHardDecodeDone_open hp ht hc hop hopc hdata hre hgot htwin hcol hrest hv ok okS okP okG e n01 n10 dec
  · refine ⟨fun hall he => ⟨_, act_of_running s (doHardDecodeDone p tag cw true true true true okG e n01 n10 dec) hrun, ?_⟩,
      fun herr => ⟨_, act_of_running s (doHardDecodeDone p tag cw false true okS okP okG e n01 n10 dec) hrun, ?_⟩⟩
    · obtain ⟨f, -, hlim, heq⟩ := doHardDecodeDone_verify hp ht hc hop hopc hdata howner hre hgot htwin hcol hrest hsrc hstep true true true okG e n01 n10 dec
      dsimp only
      rw [heq]
      refine Dev.verifyEnd_passes hsrc (fun x hx => ?_)
      rw [hlim]
      rcases List.mem_append.mp hx with hx | hx
      · exact hall x hx
      · rw [List.mem_singleton.mp hx]
        exact ⟨rfl, he⟩
    · obtain ⟨f, hpage, -, heq⟩ := doHardDecodeDone_verify hp ht hc hop hopc hdata howner hre hgot htwin hcol hrest hsrc hstep false okS okP okG e n01 n10 dec
      dsimp only
      rw [heq]
      exact Dev.verifyEnd_fails hsrc ⟨_, List.mem_append_right _ (List.mem_singleton.mpr rfl), rfl⟩ (hpage.trans herr)
  · refine ⟨_, act_of_running s (doHardDecodeDone p tag cw true false okS okP okG e n01 n10 dec) hrun, ?_⟩
    obtain ⟨h1, h2, h3⟩ := Dev.decoderOut_spec (d := s.dev) (p / 8) dec
    have heq : doHardDecodeDone p tag cw true false okS okP okG e n01 n10 dec s.dev = (s.dev.decoderOut (p / 8) dec).chkCount 0xA00 := by
      unfold doHardDecodeDone
      rw [if_pos (by decide), Nat.mod_eq_of_lt hp]
    dsimp only
    rw [heq]
    rw [Nat.mod_eq_of_lt hdec, Nat.mod_eq_of_lt (by omega)] at h2
    exact ⟨h2, h1, Dev.fld_congr h3 _ _⟩
  · have hclimb : s.dev.Climbing p tag cw o c y := ⟨hp, ht, hc, hop, hcg, hy, hne, htakes, hrest⟩
    exact ⟨fun hplaced htag => ⟨_, act_of_running s (doWhiskDecodeDone p tag cw true true true true true w) hrun, hclimb.succeeds hplaced htag w⟩,
      fun okS okP okG hstep => ⟨_, act_of_running s (doWhiskDecodeDone p tag cw false true okS okP okG w) hrun, hclimb.fails hstep okS okP okG w⟩⟩
  · refine ⟨_, act_of_running s (doWhiskDecodeDone p tag cw true false okS okP okG w) hrun, ?_⟩
    obtain ⟨h1, h2⟩ := Dev.whiskOut_spec (d := s.dev) w 0
    have heq : doWhiskDecodeDone p tag cw true false okS okP okG w s.dev = (s.dev.whiskOut w 0).chkCount 0xA00 := by
      unfold doWhiskDecodeDone
      rw [if_pos (by decide)]
    dsimp only
    rw [heq]
    rw [Nat.mod_eq_of_lt hw] at h2
    exact ⟨h2, h1⟩

end Sys2Proof.Machine
end

section
/-! The sieve, early verify, the day of the read-level tracker and die qualification (R297, R307, R310 to R316, R530). -/

namespace Sys2Proof.Machine

-- In order, one declaration at a time: keeps the check within its memory limit.
set_option Elab.async false

/-! ### Operations that are added -/

section
variable {d : Dev} {p : Nat} {o : POp}

/-- A fold that meets an element after which something holds comes to it, while what that needs is kept. -/
theorem foldl_reaches {α σ : Type} {f : σ → α → σ} {P Q : σ → Prop} {x : α} (hQ : ∀ e y, Q e → Q (f e y)) (hP : ∀ e y, P e → P (f e y))
    (h : ∀ e, Q e → P (f e x)) : ∀ {l : List α}, x ∈ l → ∀ e, Q e → P (l.foldl f e)
  | y :: l, hx, e, he => by
    rw [List.foldl_cons]
    rcases List.mem_cons.mp hx with rfl | hx
    · exact List.foldlRecOn (motive := P) l f (h e he) (fun e' he' z _ => hP e' z he')
    · exact foldl_reaches hQ hP h hx _ (hQ e y he)

/-- What an added operation leaves: the operations before it, with itself, under its tag, perhaps sent to the twin at once. -/
theorem Dev.ops_addOp {y : POp} (hy : y.opc ≠ 0x02) : ∃ z : POp, z.src = y.src ∧ z.owner = y.owner ∧ z.opc = y.opc ∧
    ((d.addOp p y).port p).ops = (d.port p).ops ++ [z] := by
  unfold Dev.addOp
  extract_lets x t o1 d1
  have hfresh : ∀ w ∈ x.ops, w.tag ≠ t := x.freeTag_fresh
  clear_value t
  have h1 : d1.port p = { x with ops := x.ops ++ [o1], nextTag := (t + 1) % 4096 } := d.port_setPort_self p _
  split
  · unfold Dev.remote
    extract_lets d2 d3
    have h2 : d2 = d1 := if_neg hy
    refine ⟨{ o1 with stage := .running, sent := some d2.gTx }, rfl, rfl, rfl, ?_⟩
    have h3 : d3.port p = (d2.port p).setOp { o1 with stage := .running, sent := some d2.gTx } := by
      simp only [d3]
      exact d2.port_setPort_self p _
    rw [Dev.port_of_ports (Dev.ports_sendGulon _ _ _), h3, h2, h1]
    change (x.ops ++ [o1]).map _ = x.ops ++ [_]
    rw [List.map_append]
    congr 1
    · refine (List.map_congr_left (fun w hw => ?_)).trans (List.map_id _)
      exact if_neg (by simpa using hfresh w hw)
    · exact congrArg (fun w => [w]) (if_pos (beq_self_eq_true t))
  · exact ⟨o1, rfl, rfl, rfl, by rw [h1]⟩

/-- An added operation, one that programs nothing, changes the port and what sending it to the twin changes. -/
theorem Dev.posts_addOp {y : POp} (hy : y.opc ≠ 0x02) : ∃ ps, Dev.Posts { d with ports := ps } (d.addOp p y) := by
  unfold Dev.addOp
  extract_lets x t o1 d1
  split
  · unfold Dev.remote
    extract_lets d2 d3
    have h2 : d2 = d1 := if_neg hy
    have h3 : d3 = { d with ports := d3.ports } := by
      simp only [d3]
      rw [h2]
      rfl
    rw [h3]
    exact ⟨_, Dev.Posts.sendGulon _ _ _⟩
  · exact ⟨_, .refl d1⟩

/-- A port's registers are none that posting changes. -/
theorem postRegs_port {off q k : Nat} (h : off = 0x800000 + k + 0x1000 * q) (hk : 0x100 ≤ k ∧ k < 0x200) (hq : q < 512) : off ∉ postRegs := fun hoff => by
  have hsub : ∀ r ∈ postRegs, r ∈ workRegs := by decide
  exact workRegs_port h hk hq (hsub off hoff)

/-- What a die's failure is read from. -/
theorem Dev.dieGone_congr {t : Dev} {q : Nat} (hreg : ∀ off ∈ [Reg.FCH_P_STS q, Reg.FCH_P_DFAIL_LO q, Reg.FCH_P_DFAIL_HI q], t.reg off = d.reg off)
    (hen : (t.page (0x800 + q)).en = (d.page (0x800 + q)).en) (hdump : t.reg Reg.PWR_FAIL_STS = d.reg Reg.PWR_FAIL_STS) (i : Nat) :
    t.dieGone q i = d.dieGone q i ∧ t.portGone q = d.portGone q := by
  simp only [List.forall_mem_cons] at hreg
  obtain ⟨hsts, hlo, hhi, -⟩ := hreg
  have hd : t.dumping = d.dumping := Dev.flag_congr hdump _
  have hout : t.portOut q = d.portOut q := by rw [Dev.portOut, hen, hd, Dev.portOut]
  have hgone : t.portGone q = d.portGone q := by rw [Dev.portGone, hout, Dev.flag_congr hsts, Dev.flag_congr hsts, Dev.portGone]
  exact ⟨by rw [Dev.dieGone, hgone, Dev.flag_congr hlo, Dev.flag_congr hhi, Dev.dieGone], hgone⟩

theorem Dev.dieGone_of_posts {t : Dev} (h : d.Posts t) {q : Nat} (hq : q < 512) (i : Nat) : t.dieGone q i = d.dieGone q i := by
  have hpages : t.pages = d.pages := congrArg (·.pages) h.kept
  have hreg : ∀ k, 0x100 ≤ k ∧ k < 0x200 → t.reg (0x800000 + k + 0x1000 * q) = d.reg (0x800000 + k + 0x1000 * q) := fun k hk =>
    h.regs _ (postRegs_port rfl hk hq)
  refine (Dev.dieGone_congr ?_ (by rw [Dev.page, hpages, Dev.page]) (h.regs _ (by decide)) i).1
  simp only [List.forall_mem_cons]
  exact ⟨hreg 0x100 (by decide), hreg 0x10C (by decide), hreg 0x110 (by decide), fun _ h => absurd h List.not_mem_nil⟩

theorem Dev.setsOf_of_posts {t : Dev} (h : d.Posts t) (b : Nat) : t.setsOf b = d.setsOf b := by
  have hbands : t.bands = d.bands := congrArg (·.bands) h.kept
  have hdies : t.diesPerPort = d.diesPerPort := by rw [Dev.diesPerPort, Dev.flag_congr (h.regs Reg.GLB_STRAP (by decide)), Dev.diesPerPort]
  have hformed : t.formedSets b = d.formedSets b := by
    rw [Dev.formedSets, Dev.fld_congr (h.regs Reg.SHF_SEED (by decide)), hdies, Dev.formedSets]
  rw [Dev.setsOf, Dev.band, hbands, hformed, Dev.setsOf, Dev.band]

theorem Dev.cwErased_addOp {y : POp} (hy : y.opc ≠ 0x02) {band pos : Nat} (hport : (d.setAtPos band pos).port < 512) (stripe col : Nat) :
    (d.addOp p y).cwErased band stripe pos col = d.cwErased band stripe pos col := by
  obtain ⟨ps, hpost⟩ := Dev.posts_addOp (d := d) (p := p) hy
  have helog : (d.addOp p y).elog = d.elog := congrArg (·.elog) hpost.kept
  have hset : (d.addOp p y).setAtPos band pos = d.setAtPos band pos := by
    rw [Dev.setAtPos, Dev.setsOf_of_posts hpost, Dev.setAtPos]
    rfl
  have hgone : ∀ i, (d.addOp p y).dieGone (d.setAtPos band pos).port i = d.dieGone (d.setAtPos band pos).port i := fun i =>
    Dev.dieGone_of_posts hpost hport i
  rw [Dev.cwErased, Dev.chunkErased, hset, helog, hgone]
  rfl

/-! ### Early verify (R307, R308) -/

theorem Dev.Works.takeCredit (c n u : Nat) : d.Works (d.takeCredit c n u).2 := by
  unfold Dev.takeCredit
  extract_lets d1
  have h1 : d.Works d1 := Dev.Works.freeCredit (.refl d) _
  have hhold : ∀ (e : Dev) (m : SMap Nat) (l : List CrUnit), e.Works { e with crHold := m, crWait := l } := fun e m l => Dev.Works.hide (.refl e) rfl
  split
  · exact h1
  · split
    · exact Dev.Works.crCounts (h1.trans (hhold d1 _ _))
    · split
      · exact h1
      · exact Dev.Works.inc (h1.trans (hhold d1 d1.crHold _)) (by decide) 1

/-- An early verify read is dealt, and die parity covers the page. -/
theorem doEarlyVerifyTimeout_spec {die block page b : Nat} {x : Band} (hp : p < 512) {at_ : BSet → Bool}
    (hat : ∀ st, at_ st = (st.port == p && st.die == die && st.block == block)) (hband : d.bands.find? (fun kv => kv.2.sets.any at_) = some (b, x))
    {c : Nat} (hc : c = chunkId b page ((x.sets.findIdx? at_).getD 0)) (hdone : SMap.get (fun _ => 0) d.progd c / 4 ≠ 0)
    (hon : d.flag Reg.ECC_VFY_CTL 16 = true)
    (hdue : SMap.get (fun _ => 0) d.progd c / 4 + d.fld Reg.ECC_VFY_CTL 15 0 * 1000000 ≤ d.tick + 1) (hok : c ∉ d.chunksOk)
    (hnone : ∀ v ∈ (d.port p).ops, v.src ≠ .verify ∧ v.src ≠ .early) (htake : d.mayTake 7 128 = true) :
    page ∈ SMap.get (fun _ => []) (doEarlyVerifyTimeout p die block page d).dpar (setKey p die block) ∧
    (doEarlyVerifyTimeout p die block page d).fld Reg.ECC_VFY_EARLY 31 0 = min (d.fld Reg.ECC_VFY_EARLY 31 0 + 1) 0xFFFFFFFF := by
  have hat' : at_ = fun st : BSet => st.port == p && st.die == die && st.block == block := funext hat
  subst hat'
  have hany : (d.port p).ops.any (fun v => (v.src == .verify || v.src == .early) && v.die == die && v.block == block && v.page == page) = false := by
    rw [List.any_eq_false]
    intro v hv
    obtain ⟨h1, h2⟩ := hnone v hv
    simp [h1, h2]
  have hout : d.chunksOk.contains c = false := by simpa using hok
  unfold doEarlyVerifyTimeout
  rw [Nat.mod_eq_of_lt hp]
  extract_lets p1 at1 u d1
  rw [show d.bands.find? (fun kv => kv.2.sets.any at1) = some (b, x) from hband]
  dsimp -zeta only
  extract_lets pos c1 t d2
  have hc1 : c1 = c := hc.symm
  have ht : t = SMap.get (fun _ => 0) d.progd c / 4 := by
    simp only [t]
    rw [hc1]
  rw [if_neg (by
    rw [ht, hc1, hon, hout]
    simp only [show (d.port p1).ops.any _ = false from hany]
    simp
    omega), if_neg (by simp [htake])]
  refine ⟨Dev.mem_dparSet _ _ _, ?_⟩
  have h1 : d.Works d1 := .takeCredit 7 128 u
  have h2 : d.Works d2 := h1.addOp _ _
  have h3 : (d2.inc Reg.ECC_VFY_EARLY 1).Works ((d2.inc Reg.ECC_VFY_EARLY 1).dparSet (setKey p1 die block) page true) := .dparSet (.refl _) _ _ _
  rw [Dev.fld_congr (h3.regs _ (by decide)), Dev.fld_inc_self, Dev.fld_congr (h2.regs _ (by decide))]

/-! ### A visit of the sieve (R312, R313) -/

/-- A read of the sieve for `w` waits or runs at a port. -/
def Dev.sieves (d : Dev) (p w : Nat) : Prop := ∃ o ∈ (d.port p).ops, o.src = .sieve ∧ o.owner = some w ∧ o.opc = 0x01

/-- A visit's read of one page. -/
def sieveOp (b pos : Nat) (s : BSet) (slc : Bool) (q : Nat) (cols : List Nat) : POp :=
  { mkOp 0x01 .sieve 3 0 b q pos s.die s.block q slc with owner := some (sieveOwner (setKey s.port s.die s.block)), cols := cols }

theorem sieveOp_opc (b pos : Nat) (s : BSet) (slc : Bool) (q : Nat) (cols : List Nat) : (sieveOp b pos s slc q cols).opc ≠ 0x02 := by
  show (0x01 : Nat) ≠ 0x02
  decide

/-- The visit's reads of one page are queued. -/
def Dev.sievePage (d : Dev) (b pos : Nat) (s : BSet) (slc : Bool) (q : Nat) : Dev :=
  let cols := [0, 4, 8, 12].filter (fun c => !d.cwErased b q pos c)
  if cols.isEmpty then d
  else d.addOp s.port (sieveOp b pos s slc q cols)

theorem Dev.sieveReads_spec {b pos q c : Nat} (hport : (d.setAtPos b pos).port < 512) (hq : q ∈ sievePages (d.band b).slc) (hnext : q < (d.band b).next)
    (hc : c ∈ [0, 4, 8, 12]) (hgood : d.cwErased b q pos c = false) :
    (d.sieveReads b pos).sieves (d.setAtPos b pos).port
      (sieveOwner (setKey (d.setAtPos b pos).port (d.setAtPos b pos).die (d.setAtPos b pos).block)) := by
  have heq : d.sieveReads b pos = ((sievePages (d.band b).slc).filter (fun q => decide (q < (d.band b).next))).foldl
      (fun d' q => d'.sievePage b pos (d.setAtPos b pos) (d.band b).slc q) d := rfl
  have hmem : q ∈ (sievePages (d.band b).slc).filter (fun q => decide (q < (d.band b).next)) := by
    rw [List.mem_filter]
    exact ⟨hq, decide_eq_true hnext⟩
  rw [heq]
  refine foldl_reaches (P := fun e : Dev => e.sieves (d.setAtPos b pos).port
    (sieveOwner (setKey (d.setAtPos b pos).port (d.setAtPos b pos).die (d.setAtPos b pos).block))) (Q := fun e : Dev => e.setAtPos b pos = d.setAtPos b pos ∧ ∀ q c, e.cwErased b q pos c = d.cwErased b q pos c) (x := q)
    (fun e y he => ?_) (fun e y he => ?_) (fun e he => ?_) hmem d ⟨rfl, fun _ _ => rfl⟩
  · unfold Dev.sievePage
    extract_lets cols
    split
    · exact he
    · refine ⟨?_, fun q c => ?_⟩
      · obtain ⟨ps, hpost⟩ := Dev.posts_addOp (d := e) (p := (d.setAtPos b pos).port) (sieveOp_opc b pos (d.setAtPos b pos) (d.band b).slc _ cols)
        rw [Dev.setAtPos, Dev.setsOf_of_posts hpost]
        exact he.1
      · exact (Dev.cwErased_addOp (sieveOp_opc b pos (d.setAtPos b pos) (d.band b).slc _ cols) (he.1 ▸ hport) q c).trans (he.2 q c)
  · obtain ⟨o, ho, hsrc⟩ := he
    unfold Dev.sievePage
    extract_lets cols
    split
    · exact ⟨o, ho, hsrc⟩
    · obtain ⟨z, -, -, -, hops⟩ := Dev.ops_addOp (d := e) (p := (d.setAtPos b pos).port) (sieveOp_opc b pos (d.setAtPos b pos) (d.band b).slc _ cols)
      refine ⟨o, ?_, hsrc⟩
      rw [hops]
      exact List.mem_append_left _ ho
  · have hmem : c ∈ [0, 4, 8, 12].filter (fun c => !e.cwErased b q pos c) := List.mem_filter.mpr ⟨hc, by rw [he.2, hgood]; rfl⟩
    unfold Dev.sievePage
    extract_lets cols
    have hne : cols ≠ [] := List.ne_nil_of_mem hmem
    rw [if_neg (by rw [List.isEmpty_iff]; exact hne)]
    obtain ⟨z, hsrc, howner, hz, hops⟩ := Dev.ops_addOp (d := e) (p := (d.setAtPos b pos).port) (sieveOp_opc b pos (d.setAtPos b pos) (d.band b).slc _ cols)
    refine ⟨z, ?_, hsrc, howner, hz⟩
    rw [hops]
    exact List.mem_append_right _ List.mem_cons_self

theorem Dev.readsOut_of_sieves {w : Nat} (h : d.sieves p w) : d.readsOut w = true := by
  obtain ⟨o, ho, -, howner, -⟩ := h
  rw [Dev.port, SMap.get] at ho
  cases hfind : SMap.find d.ports p with
  | none =>
    rw [hfind] at ho
    exact absurd ho List.not_mem_nil
  | some x =>
    rw [hfind] at ho
    exact List.any_eq_true.mpr ⟨(p, x), SMap.mem_of_find hfind, List.any_eq_true.mpr ⟨o, ho, by simp [howner]⟩⟩

/-- A visit has dated the set of tracker entry `k`. -/
def Dev.visited (k day : Nat) (d : Dev) : Prop := (d.trkOf k).vday = day ∧ d.svMoved = true ∧ d.flag Reg.ECC_SV_STS 0 = true

theorem Dev.visited.congr {k day : Nat} {t : Dev} (h : Dev.visited k day d) (htrk : t.trk = d.trk) (hmoved : t.svMoved = d.svMoved)
    (hreg : t.reg Reg.ECC_SV_STS = d.reg Reg.ECC_SV_STS) : Dev.visited k day t :=
  ⟨by rw [Dev.trkOf, htrk]; exact h.1, hmoved.trans h.2.1, (Dev.flag_congr hreg 0).trans h.2.2⟩

theorem Dev.visited.dropOwned {k day : Nat} (h : Dev.visited k day d) (w : Nat) : Dev.visited k day (d.dropOwned w) := by
  unfold Dev.dropOwned
  refine List.foldlRecOn (motive := Dev.visited k day) _ _ h (fun e he kv _ => ?_)
  refine he.congr rfl rfl ?_
  exact Dev.reg_setReg_ne _ (by simp only [Reg.FCH_P_OUT, Reg.ECC_SV_STS]; omega) _

theorem Dev.visited.sieveLap {k day : Nat} (h : Dev.visited k day d) : Dev.visited k day d.sieveLap := by
  unfold Dev.sieveLap
  extract_lets maxAge left d1 cold d2
  split
  · have h1 : Dev.visited k day d1 := h.congr rfl rfl (Dev.reg_setFld_ne d (by decide) _ _ _)
    have h2 : Dev.visited k day d2 := h1.congr rfl rfl rfl
    have h3 : Dev.visited k day ((d2.inc Reg.ECC_SV_LAPS 1).setFld Reg.ECC_SV_POS 26 0 0) :=
      h2.congr rfl rfl ((Dev.reg_setFld_ne _ (by decide) _ _ _).trans (Dev.reg_setFld_ne _ (by decide) _ _ _))
    have hr := Dev.Reports.raise ((d2.inc Reg.ECC_SV_LAPS 1).setFld Reg.ECC_SV_POS 26 0 0) 0xA02 0
    exact h3.congr (congrArg (·.trk) hr.kept) (congrArg (·.svMoved) hr.kept) (hr.regs _ (by decide))
  · exact h

/-- A visit whose reads have their decodes dates its set. -/
theorem Dev.sieveEnd_spec (b pos : Nat) (ops : List POp) :
    ((d.sieveEnd b pos ops).trkOf (setKey (d.setAtPos b pos).port (d.setAtPos b pos).die (d.setAtPos b pos).block)).vday = d.eccDay ∧
    (d.sieveEnd b pos ops).svMoved = true ∧ (d.sieveEnd b pos ops).flag Reg.ECC_SV_STS 0 = true := by
  unfold Dev.sieveEnd
  extract_lets s k g got e d1 d2 t sample drift d3 d4 d5 old d6 d7
  have h1 : d.reg Reg.ECC_DAY = d1.reg Reg.ECC_DAY := by
    have hreport : d.Decodes d1 := .ite ((Dev.Decodes.inc d (by decide) 1).trans (.markRefresh _ _)) (.refl d)
    exact (hreport.frame.regs _ (by decide)).symm
  have h2 : d2.eccDay = d.eccDay := Dev.fld_congr ((Dev.reg_setFld_ne d1 (by decide) _ _ _).trans h1.symm) _ _
  have h3 : (d3.trkOf k).vday = d.eccDay := by
    have htrk : ∀ x : Trk, ((d2.setTrk k x).score 7 drift none none (some g)).trkOf k = x := fun x => by
      have hkeep : ((d2.setTrk k x).score 7 drift none none (some g)).trk = (d2.setTrk k x).trk := congrArg (·.trk) (Dev.sansEntry_score _ _ _ _ _ _).1
      rw [Dev.trkOf, hkeep]
      exact SMap.get_set_self _ _ _ _
    simp only [d3]
    rw [htrk, h2]
  clear_value d3
  have h5 : Dev.visited k d.eccDay d5 := ⟨h3, rfl, Dev.flag_setFlag_self _ _ _ _ (by decide)⟩
  have h7 : Dev.visited k d.eccDay d7 := by
    simp only [d7]
    split
    · exact h5
    · exact h5
  have h8 : Dev.visited k d.eccDay (if old.isEmpty then d7.setFlag Reg.ECC_SV_STS 2 false else d7) := by
    split
    · exact ⟨h7.1, h7.2.1, (Dev.flag_setFlag_other d7 Reg.ECC_SV_STS 2 0 false (by decide) (by decide)).trans h7.2.2⟩
    · exact h7
  exact (h8.dropOwned _).sieveLap

/-- What a visit asks of the set and of the device (R312). -/
structure Dev.Visits (d : Dev) (b pos : Nat) : Prop where
  band_lt : b < 2 ^ 23
  pos_lt : pos < 19
  closed : (d.band b).st = .closed
  mine : d.stewards b = true
  on : d.flag Reg.ECC_SV_CTL 0 = true
  unheld : d.eccHeld = false
  unflushed : d.flushing = false
  domain : d.domSt ((d.setAtPos b pos).port / 8) = 0
  die : d.dieGone (d.setAtPos b pos).port (d.setAtPos b pos).die = false
  whole : (d.setAtPos b pos).erased = false

theorem Dev.Visits.row {b pos : Nat} (h : d.Visits b pos) {k : Nat}
    (hk : k = setKey (d.setAtPos b pos).port (d.setAtPos b pos).die (d.setAtPos b pos).block) {ops : List POp}
    (hops : ops = (d.port (d.setAtPos b pos).port).ops.filter (fun o => o.owner == some (sieveOwner k) && o.re.isNone)) :
    doSieveVisit b pos d = (if ops.isEmpty then
      if d.svSeen.contains k || !(d.sievePace || (d.dom ((d.setAtPos b pos).port / 8)).sieve) then d
      else if (d.sieveReads b pos).readsOut (sieveOwner k) then d.sieveReads b pos else (d.sieveReads b pos).sieveEnd b pos []
    else if ops.all POp.over then d.sieveEnd b pos ops else d) := by
  unfold doSieveVisit
  rw [Nat.mod_eq_of_lt h.band_lt, Nat.mod_eq_of_lt h.pos_lt]
  extract_lets b1 x s k1 ops1 d1
  have hk1 : k1 = k := hk.symm
  have hops1 : ops1 = ops := by
    rw [hops, ← hk1]
  rw [if_neg (by simp [b1, x, s, h.closed, h.mine, h.domain, h.on, h.die, h.whole, h.unheld, h.unflushed]), hops1]
  simp only [d1, hk1, b1, s]

/-! ### Wakes of the sieve and its days (R314, R316) -/

/-- Waking a domain's lanes changes of the registers those of lane states and of reports. -/
theorem Dev.reg_wakeDomain {g : Nat} (hg : g < 64) {off : Nat} (hlow : off < 0x800000 ∨ 0xA00000 ≤ off) (hoff : off ∉ reportRegs)
    (hcount : off ∉ [Reg.FCH_C_UP, Reg.FCH_C_FAILED, Reg.FCH_C_HANDED]) : (d.wakeDomain g).reg off = d.reg off := by
  have hlane : ∀ (e : Dev) q st, q < 512 → (e.setLstate q st).reg off = e.reg off := fun e q st hq => by
    refine (Dev.Lanes.setLstate e q st).regs off ?_
    simp only [laneRegs, List.mem_append, not_or]
    refine ⟨hoff, ?_⟩
    simp only [List.mem_cons, List.not_mem_nil, or_false, not_or] at hcount ⊢
    exact ⟨by simp only [Reg.FCH_P_STS]; omega, hcount⟩
  have hlanes : ∀ e : Dev, (e.wakeLanes g).reg off = e.reg off := fun e => by
    unfold Dev.wakeLanes
    refine List.foldlRecOn (motive := fun x : Dev => x.reg off = e.reg off) _ _ rfl (fun x hx q hq => ?_)
    have hq' : q < 512 := by
      simp only [portsOf, List.mem_map, List.mem_range] at hq
      omega
    split
    · exact (hlane _ _ _ hq').trans hx
    · split
      · exact (hlane _ _ _ hq').trans hx
      · exact hx
  unfold Dev.wakeDomain
  extract_lets x
  split
  · rfl
  · split
    · rfl
    · split
      · rfl
      · exact hlanes _

theorem doSieveWake_spec {g : Nat} (hg : g < 64) (hon : d.flag Reg.ECC_SV_CTL 0 = true) (hage : d.fld Reg.ECC_SV_CTL 27 16 ≠ 0) (hst : d.domSt g ≠ 0)
    (hold : ∃ kg ∈ d.sieveSets, kg.2 = g ∧ d.sieveOld kg.1 (d.fld Reg.ECC_SV_CTL 27 16) = true) (hl : (d.dom g).leaving = false)
    (hsv : (d.dom g).sieve = false) (hheld : d.eccHeld = false) (hfl : d.flushing = false) :
    ((doSieveWake g d).dom g).waking = true ∧ ((doSieveWake g d).dom g).sieve = true ∧ (doSieveWake g d).flag Reg.ECC_SV_STS 2 = true ∧
    (doSieveWake g d).fld Reg.ECC_SV_WAKES 31 0 = min (d.fld Reg.ECC_SV_WAKES 31 0 + 1) 0xFFFFFFFF := by
  have hany : d.sieveSets.any (fun kg => kg.2 == g && d.sieveOld kg.1 (d.fld Reg.ECC_SV_CTL 27 16)) = true := by
    obtain ⟨kg, hmem, hkg, h⟩ := hold
    exact List.any_eq_true.mpr ⟨kg, hmem, by simp [hkg, h]⟩
  unfold doSieveWake
  rw [Nat.mod_eq_of_lt hg]
  extract_lets g1 maxAge d1
  rw [if_pos (by simp only [maxAge, g1, hon, hheld, hfl, hsv, hany]; simpa using ⟨hage, hst⟩)]
  have hwake : (d1.dom g).waking = true := (Dev.wakeDomain_spec d hg hl hst).1
  have hreg : d1.fld Reg.ECC_SV_WAKES 31 0 = d.fld Reg.ECC_SV_WAKES 31 0 := Dev.fld_congr (Dev.reg_wakeDomain hg (by decide) (by decide) (by decide)) _ _
  have hdom : ∀ e : Dev, ((e.inc Reg.ECC_SV_WAKES 1).setFlag Reg.ECC_SV_STS 2 true).dom g = e.dom g := fun e => rfl
  refine ⟨?_, ?_, Dev.flag_setFlag_self _ _ _ _ (by decide), ?_⟩
  · rw [hdom, Dev.dom_setDom_self]
    exact hwake
  · rw [hdom, Dev.dom_setDom_self]
  · rw [Dev.fld_setFlag_ne _ (by decide), Dev.fld_inc_self]
    exact congrArg (fun n => min (n + 1) 0xFFFFFFFF) hreg

theorem Dev.dayStep_spec : d.dayStep.eccDay = (d.eccDay + 1) % 65536 ∧ d.dayStep.dayTick = d.dayTick ∧ d.dayStep.svMoved = false ∧
    d.dayStep.flag Reg.ECC_SV_STS 1 = !d.svMoved := by
  unfold Dev.dayStep
  extract_lets starved d1 d2 d3 d4 d5
  have h1 : d1.eccDay = (d.eccDay + 1) % 65536 := Dev.fld_setFld_self d Reg.ECC_DAY 15 0 _ (by decide)
  have h4 : d4.eccDay = (d.eccDay + 1) % 65536 ∧ d4.flag Reg.ECC_SV_STS 1 = starved :=
    ⟨(Dev.fld_congr (Dev.reg_setFlag_ne d3 (by decide) _ _) _ _).trans h1, Dev.flag_setFlag_self _ _ _ _ (by decide)⟩
  have hrep : d4.Reports d5 := .ite (Dev.Reports.raise _ _ _) (.refl d4)
  have hlast : ∀ n, ((d5.setFld Reg.ECC_RFSH_30D 19 0 n).reg Reg.ECC_DAY = d4.reg Reg.ECC_DAY) ∧
      ((d5.setFld Reg.ECC_RFSH_30D 19 0 n).reg Reg.ECC_SV_STS = d4.reg Reg.ECC_SV_STS) := fun n =>
    ⟨(Dev.reg_setFld_ne d5 (by decide) _ _ _).trans (hrep.regs _ (by decide)), (Dev.reg_setFld_ne d5 (by decide) _ _ _).trans (hrep.regs _ (by decide))⟩
  have htick : d5.dayTick = d4.dayTick := congrArg (·.dayTick) hrep.kept
  have hmoved : d5.svMoved = d4.svMoved := congrArg (·.svMoved) hrep.kept
  exact ⟨(Dev.fld_congr (hlast _).1 _ _).trans h4.1, htick, hmoved, (Dev.flag_congr (hlast _).2 _).trans h4.2⟩

end

end Sys2Proof.Machine
end

section
/-! The tracker's selected entry, and die qualification (R297, R298, R311, R530). -/

namespace Sys2Proof.Machine

-- In order, one declaration at a time: keeps the check within its memory limit.
set_option Elab.async false

/-! ### The selected entry (R298) -/

theorem w32_mod (n : Nat) : w32 (n % 2 ^ 32) = w32 n := by
  apply BitVec.eq_of_toNat_eq
  simp [w32]

/-- The words of a value, stored one after another from the register of index `s`. -/
theorem Dev.reg_storeWords (n : Nat) : ∀ (s x : Nat) (d : Dev),
    let t := ((List.range' s n).zip (toWords x n)).foldl (fun d iw => d.setReg (Reg.ECC_RL_ENT iw.1) (w32 iw.2)) d
    (∀ w < s, t.reg (Reg.ECC_RL_ENT w) = d.reg (Reg.ECC_RL_ENT w)) ∧ ∀ i < n, t.reg (Reg.ECC_RL_ENT (s + i)) = w32 (x / 2 ^ (32 * i)) := by
  induction n with
  | zero => exact fun s x d => ⟨fun _ _ => rfl, fun i hi => absurd hi (Nat.not_lt_zero i)⟩
  | succ n ih =>
    intro s x d t
    obtain ⟨hlow, hhigh⟩ := ih (s + 1) (x / 2 ^ 32) (d.setReg (Reg.ECC_RL_ENT s) (w32 (x % 2 ^ 32)))
    refine ⟨fun w hw => (hlow w (by omega)).trans (Dev.reg_setReg_ne d (by simp only [Reg.ECC_RL_ENT]; omega) _), fun i hi => ?_⟩
    cases i with
    | zero =>
      refine (hlow s (Nat.lt_succ_self s)).trans ((Dev.reg_setReg_self d _ _).trans ?_)
      rw [w32_mod, Nat.mul_zero, Nat.pow_zero, Nat.div_one]
    | succ i =>
      have h := hhigh i (by omega)
      rw [Nat.div_div_eq_div_mul, ← Nat.pow_add, show s + 1 + i = s + (i + 1) by omega, show 32 + 32 * i = 32 * (i + 1) by omega] at h
      exact h

theorem eccSelEff_entry (new : Word) (e : Dev) {w : Nat} (hw : w < 32) : (eccSelEff new e).reg (Reg.ECC_RL_ENT w) =
    w32 ((e.trkOf (setKey (bits new 8 0) (bits new 14 9) (bits new 26 15))).bytes / 2 ^ (32 * w)) := by
  unfold eccSelEff
  extract_lets d1 x
  rw [List.range_eq_range']
  obtain ⟨-, h⟩ := Dev.reg_storeWords 32 0 x d1
  have h' := h w hw
  rw [Nat.zero_add] at h'
  exact h'

section
variable (d : Dev)

/-- A write of the selector shows the entry that it names. -/
theorem doEccRlSelWrite_spec (v : Word) (ho : d.isOpen 0xA01) {w : Nat} (hw : w < 32) : (doEccRlSelWrite v d).reg (Reg.ECC_RL_ENT w) =
    w32 ((d.trkOf (setKey (bits v 8 0) (bits v 14 9) (bits v 26 15))).bytes / 2 ^ (32 * w)) := by
  obtain ⟨d2, hrep, -, -, hpub⟩ := regWrite_effect (t := doEccRlSelWrite v d) (off := Reg.ECC_RL_SEL) (v := v) (eff := eccSelEff) rfl ho (by decide)
    (show regDef? Reg.ECC_RL_SEL = some _ from rfl)
  have htrk : d2.trk = d.trk := congrArg (·.trk) hrep.kept
  rw [hpub.reg, eccSelEff_entry _ _ hw, bits_mergeWrite rfl _ _ 8 0 (by decide), bits_mergeWrite rfl _ _ 14 9 (by decide),
    bits_mergeWrite rfl _ _ 26 15 (by decide), Dev.trkOf, htrk, Dev.trkOf]

end

/-! ### Dies that fail (R287) -/

section
variable (d : Dev) {p : Nat} (hp : p < 512)

/-- The register that marks a die FAILED. -/
def dfailReg (p die : Nat) : Nat := if die < 32 then Reg.FCH_P_DFAIL_LO p else Reg.FCH_P_DFAIL_HI p

theorem Dev.dieGone_of_flag {die : Nat} (h : d.flag (dfailReg p die) (die % 32) = true) (hd : die < 64) : d.dieGone p die = true := by
  unfold dfailReg at h
  unfold Dev.dieGone
  split at h
  · next hlt =>
    rw [Nat.mod_eq_of_lt hlt] at h
    rw [if_pos hlt, h, Bool.or_true]
  · next hge =>
    rw [show die % 32 = die - 32 by omega] at h
    rw [if_neg hge, h, Bool.or_true]

theorem dfailReg_eq (p die : Nat) : ∃ k, (k = 0x10C ∨ k = 0x110) ∧ dfailReg p die = 0x800000 + k + 0x1000 * p := by
  unfold dfailReg
  split
  · exact ⟨0x10C, .inl rfl, rfl⟩
  · exact ⟨0x110, .inr rfl, rfl⟩

include hp

theorem dfailReg_notWork (die : Nat) : dfailReg p die ∉ workRegs := by
  obtain ⟨k, hk, h⟩ := dfailReg_eq p die
  exact workRegs_port h (by omega) hp

omit hp in
theorem dfailReg_ne (die : Nat) : dfailReg p die ≠ Reg.FCH_P_STS p ∧ dfailReg p die ≠ Reg.FCH_P_OUT p := by
  obtain ⟨k, hk, h⟩ := dfailReg_eq p die
  rw [h]
  simp only [Reg.FCH_P_STS, Reg.FCH_P_OUT]
  omega

omit hp in
/-- A die that has failed without its port is marked. -/
theorem Dev.flag_of_dieGone {die : Nat} (hdie : d.dieGone p die = true) (hport : d.portGone p = false) : d.flag (dfailReg p die) (die % 32) = true ∨ 64 ≤ die := by
  unfold Dev.dieGone at hdie
  rw [hport, Bool.false_or] at hdie
  unfold dfailReg
  split at hdie
  · next hlt => exact .inl (by rwa [if_pos hlt, Nat.mod_eq_of_lt hlt])
  · next hge =>
    by_cases h : die < 64
    · exact .inl (by rwa [if_neg hge, show die % 32 = die - 32 by omega])
    · exact .inr (by omega)

/-- A die that fails, or has failed, is marked. -/
theorem Dev.dieFail_marks {die : Nat} (hd : die < 64) (cause : Nat) : (d.dieFail p die cause).flag (dfailReg p die) (die % 32) = true := by
  unfold Dev.dieFail
  split
  · next hgone =>
    simp only [Bool.and_eq_true, Bool.not_eq_true'] at hgone
    exact (Dev.flag_of_dieGone d hgone.1 hgone.2).resolve_right (by omega)
  · extract_lets before r d1 d2 d3
    have h1 : d1.flag (dfailReg p die) (die % 32) = true := Dev.flag_setFlag_self _ _ _ _ (by omega)
    have h3 : d1.Works ((d3.membersGone before (fun s => s.port == p && s.die == die) p).abortAll p (fun o => o.die == die)) :=
      ((Dev.Works.abortAll (Dev.Works.raise (Dev.Works.recordErr (.refl d1) _ _ _ _) _ _) _ _).membersGone _ _ _).abortAll _ _
    refine (Dev.flag_congr ?_ _).trans h1
    rw [Dev.outCounts, Dev.reg_setReg_ne _ (dfailReg_ne die).2]
    exact h3.regs _ (dfailReg_notWork hp die)

/-- A port that fails leaves the marks of its dies. -/
theorem Dev.reg_portFail_dfail (cause info1 die : Nat) : (d.portFail p cause info1).reg (dfailReg p die) = d.reg (dfailReg p die) := by
  have hw := dfailReg_notWork hp die
  obtain ⟨hsts, hout⟩ := dfailReg_ne (p := p) die
  have hlane : dfailReg p die ∉ laneRegs p := by
    have hrep : ∀ r ∈ reportRegs, r ∈ workRegs := by decide
    have hcnt : ∀ r ∈ [Reg.FCH_C_UP, Reg.FCH_C_FAILED, Reg.FCH_C_HANDED], r ∈ workRegs := by decide
    intro h
    rcases List.mem_append.mp h with h | h
    · exact hw (hrep _ h)
    · rcases List.mem_cons.mp h with h | h
      · exact hsts h
      · exact hw (hcnt _ h)
  have hmap : dfailReg p die ≠ Reg.FCH_C_FAILMAP (p / 32) := fun h => hw (by
    rw [h]
    simp only [workRegs, List.mem_append, List.mem_map]
    exact Or.inr ⟨p / 32, List.mem_range.mpr (by omega), rfl⟩)
  have hmark : (d.portMarked p cause info1).reg (dfailReg p die) = d.reg (dfailReg p die) := by
    unfold Dev.portMarked
    extract_lets d1 d2 d3
    have h3 : d3.reg (dfailReg p die) = d.reg (dfailReg p die) :=
      (Dev.reg_setFlag_ne _ hmap _ _).trans ((Dev.reg_setFlag_ne _ hsts _ _).trans ((Dev.Lanes.setLstate d p 7).regs _ hlane))
    exact ((Dev.Works.raise (Dev.Works.recordErr (.refl d3) _ _ _ _) _ _).regs _ hw).trans h3
  have hhand : ∀ e : Dev, (e.handsOver p cause).reg (dfailReg p die) = e.reg (dfailReg p die) := fun e => by
    unfold Dev.handsOver
    extract_lets may hand d1
    have h1 : d1.reg (dfailReg p die) = e.reg (dfailReg p die) := by
      simp only [d1]
      split <;> rfl
    split
    · exact ((Dev.Works.freeToken (.refl _) p).regs _ hw).trans ((Dev.reg_setFld_ne _ hsts _ _ _).trans
        ((Dev.reg_setFlag_ne _ hsts _ _).trans h1))
    · exact h1
  have hend : ∀ (e before : Dev) (hand : Bool), (e.portEnds before p hand).reg (dfailReg p die) = e.reg (dfailReg p die) := fun e before hand => by
    unfold Dev.portEnds
    extract_lets d1
    have h1 : e.Works d1 := (Dev.Works.abortAll (.refl e) _ _).fchCounts
    split
    · exact h1.regs _ hw
    · rw [Dev.outCounts, Dev.reg_setReg_ne _ hout]
      exact (((h1.bmLogLost p).membersGone _ _ _).abortAll _ _).regs _ hw
  obtain ⟨hand, hfail⟩ := Dev.portFail_eq d p cause info1
  rw [hfail, hend, hhand, hmark]

/-- A die that fails, or has failed, is gone, whatever becomes of its port. -/
theorem Dev.dieGone_dieFailed {die : Nat} (hd : die < 64) (cause : Nat) : (d.dieFailed p die cause).dieGone p die = true := by
  have hmark := Dev.dieFail_marks d hp hd cause
  refine Dev.dieGone_of_flag _ ?_ hd
  unfold Dev.dieFailed
  extract_lets d1
  split
  · exact (Dev.flag_congr (Dev.reg_portFail_dfail d1 hp _ _ _) _).trans hmark
  · exact hmark

theorem Dev.Fails.dieFailed (die cause : Nat) : d.Fails p (d.dieFailed p die cause) := by
  unfold Dev.dieFailed
  extract_lets d1
  have h1 : d.Fails p d1 := .dieFail (.refl d) die cause
  exact .ite (h1.trans (Dev.Fails.portFail d1 hp _ _)) h1

/-! ### Die qualification (R311, R530) -/

/-- A die that is present for the first time and has not failed. -/
structure Dev.Unqualified (d : Dev) (p die : Nat) : Prop where
  port_lt : p < 512
  die_lt : die < 64
  unknown : d.fresh.find (p * 64 + die) = none
  whole : d.dieGone p die = false
  present : die ∈ d.diesOf p

omit hp in
theorem Dev.Unqualified.open {d : Dev} {die : Nat} (h : d.Unqualified p die) :
    ((SMap.find d.fresh (p * 64 + die)).isSome || d.dieGone p die || !(d.diesOf p).contains die) = false := by
  have hmem : (d.diesOf p).contains die = true := by simpa using h.present
  rw [show SMap.find d.fresh (p * 64 + die) = none from h.unknown, h.whole, hmem]
  rfl

omit hp in
/-- A die's failure is read below the pages of ECC, and from the dump's state. -/
theorem Dev.dieGone_below {t : Dev} (hp : p < 512) (hreg : ∀ off < 0xA00000, off ∉ reportRegs → t.reg off = d.reg off)
    (hpage : (t.page (0x800 + p)).en = (d.page (0x800 + p)).en) (hdump : t.reg Reg.PWR_FAIL_STS = d.reg Reg.PWR_FAIL_STS) (i : Nat) :
    t.dieGone p i = d.dieGone p i := by
  refine (Dev.dieGone_congr ?_ hpage hdump i).1
  simp only [List.forall_mem_cons]
  refine ⟨hreg _ (by simp only [Reg.FCH_P_STS]; omega) (reportRegs_port (k := 0x100) rfl (by decide) hp),
    hreg _ (by simp only [Reg.FCH_P_DFAIL_LO]; omega) (reportRegs_port (k := 0x10C) rfl (by decide) hp),
    hreg _ (by simp only [Reg.FCH_P_DFAIL_HI]; omega) (reportRegs_port (k := 0x110) rfl (by decide) hp), fun _ h => absurd h List.not_mem_nil⟩

omit hp in
theorem doDieQualify_fails {d : Dev} {die n : Nat} {q : DieQual} (h : d.Unqualified p die) (hq : d.qualFails die q = some n)
    (herr : (d.page 0xA02).err = false) :
    (doDieQualify p die q d).dieGone p die = true ∧ ((doDieQualify p die q d).page 0xA02).errCode = 0x0105 ∧
    ((doDieQualify p die q d).page 0xA02).info1 = w32 n := by
  have hp := h.port_lt
  let e1 := d.incFld Reg.ECC_QUAL_FAIL 15 0 1
  have heq : doDieQualify p die q d = ((e1.recordErr 0xA02 0x0105 (p * 64 + die) n).raise 0xA02 2).dieFailed p die 2 := by
    unfold doDieQualify
    rw [Nat.mod_eq_of_lt hp, Nat.mod_eq_of_lt h.die_lt]
    extract_lets p1 i d1 d2 d3 raw ofs clamps
    rw [show d.qualFails i q = some n from hq]
    exact if_neg (fun hc => Bool.false_ne_true (h.open.symm.trans hc))
  have hfirst := Dev.page_recordErr_first e1 0xA02 0x0105 (p * 64 + die) n herr
  have hraise := Dev.Reports.raise (e1.recordErr 0xA02 0x0105 (p * 64 + die) n) 0xA02 2
  obtain ⟨-, hcode, -, hi⟩ := ((hraise.page 0xA02).trans ((Dev.Fails.dieFailed _ hp die 2).page 0xA02)).1 (by rw [hfirst])
  rw [heq]
  exact ⟨Dev.dieGone_dieFailed _ hp h.die_lt 2, hcode.trans (by rw [hfirst]), hi.trans (by rw [hfirst])⟩

omit hp in
theorem doDieQualify_passes {d : Dev} {die : Nat} {q : DieQual} (h : d.Unqualified p die) (hq : d.qualFails die q = none) :
    ((doDieQualify p die q d).fresh.find (p * 64 + die)).map List.length = some 64 ∧ (doDieQualify p die q d).dieGone p die = false := by
  have hp := h.port_lt
  unfold doDieQualify
  rw [Nat.mod_eq_of_lt hp, Nat.mod_eq_of_lt h.die_lt]
  extract_lets p1 i d1 d2 d3 raw ofs clamps d4
  rw [show d.qualFails i q = none from hq, if_neg (fun hc => Bool.false_ne_true (h.open.symm.trans hc))]
  have h2 : ∀ off, off ∉ [Reg.ECC_RL_CODE, Reg.ECC_RL_POL, Reg.ECC_PE_RATED] → d3.reg off = d.reg off := fun off hoff => by
    simp only [List.mem_cons, List.not_mem_nil, or_false, not_or] at hoff
    obtain ⟨hc, hpol, hr⟩ := hoff
    refine (Dev.reg_setFld_ne _ hr _ _ _).trans ((Dev.reg_setFld_ne _ hr _ _ _).trans ?_)
    simp only [d2]
    split
    · exact (Dev.reg_setReg_ne _ hpol _).trans (Dev.reg_setReg_ne _ hc _)
    · rfl
  have hraise := Dev.Reports.raise (d3.inc Reg.ECC_RL_SAT clamps) 0xA01 0
  have h4 : ∀ off, off ∉ [Reg.ECC_RL_CODE, Reg.ECC_RL_POL, Reg.ECC_PE_RATED, Reg.ECC_RL_SAT] → off ∉ reportRegs → d4.reg off = d.reg off := fun off hoff hrep => by
    simp only [List.mem_cons, List.not_mem_nil, or_false, not_or] at hoff
    obtain ⟨hc, hpol, hr, hs⟩ := hoff
    have h3 : d3.reg off = d.reg off := h2 off (by simp [hc, hpol, hr])
    simp only [d4]
    split
    · exact h3
    · exact (hraise.regs _ hrep).trans ((Dev.reg_setFld_ne _ hs _ _ _).trans h3)
  have hpage : (d4.page (0x800 + p)).en = (d.page (0x800 + p)).en := by
    have h3 : d3.page (0x800 + p) = d.page (0x800 + p) := by
      simp only [d3, d2]
      split <;> rfl
    simp only [d4]
    split
    · rw [h3]
    · rw [Dev.page_raise_ne _ (by omega) _ (by omega)]
      exact congrArg Page.en h3
  have hlen : ofs.length = 64 := by simp [ofs, raw]
  refine ⟨?_, ?_⟩
  · show (SMap.find (SMap.insert d4.fresh (p * 64 + die) ofs) (p * 64 + die)).map List.length = some 64
    rw [SMap.find_insert_self, Option.map_some, hlen]
  · refine (Dev.dieGone_below (d := d) hp (fun off hlow hrep => h4 off ?_ hrep) hpage (h4 _ (by decide) (by decide)) die).trans h.whole
    simp only [List.mem_cons, List.not_mem_nil, or_false, Reg.ECC_RL_CODE, Reg.ECC_RL_POL, Reg.ECC_PE_RATED, Reg.ECC_RL_SAT]
    omega

end

/-- Settles O35: early verify, sieve visits and wakes, days, the selected entry, die qualification. -/
theorem sieveAndTracker : Obligations.SieveAndTracker := by
  intro s hrun
  refine ⟨?_, ?_, fun g hg hon hage hst hold hl hsv hheld hfl => ?_, fun hdue => ?_, fun v ho => ?_, fun p die q hp hd hfresh hgone hdie => ?_⟩
  · intro p die block page b x hp at_ c done hband hdone hon hdue hok hnone htake
    exact ⟨_, act_of_running s (doEarlyVerifyTimeout p die block page) hrun,
      doEarlyVerifyTimeout_spec hp (fun _ => rfl) hband rfl hdone hon hdue hok hnone htake⟩
  · intro b pos hb hpos hst hmine hon hheld hfl st k ops hdom hdie herased
    have hv : s.dev.Visits b pos := ⟨hb, hpos, hst, hmine, hon, hheld, hfl, hdom, hdie, herased⟩
    refine ⟨fun hops hseen hpace hport hread => ⟨_, act_of_running s (doSieveVisit b pos) hrun, ?_⟩,
      fun hops hover => ⟨_, act_of_running s (doSieveVisit b pos) hrun, ?_⟩⟩
    · obtain ⟨q, hq, hnext, c, hc, hgood⟩ := hread
      have hs := Dev.sieveReads_spec hport hq hnext hc hgood
      dsimp only
      rw [hv.row (k := k) rfl (ops := ops) rfl, hops, if_pos List.isEmpty_nil, hseen, hpace, if_neg (by simp), if_pos (Dev.readsOut_of_sieves hs)]
      exact hs
    · have hne : ops.isEmpty = false := by rw [List.isEmpty_eq_false_iff]; exact hops
      dsimp only
      rw [hv.row (k := k) rfl (ops := ops) rfl, hne, if_neg Bool.false_ne_true, if_pos (List.all_eq_true.mpr hover)]
      exact Dev.sieveEnd_spec b pos ops
  · exact ⟨_, act_of_running s (doSieveWake g) hrun, doSieveWake_spec hg hon hage hst hold hl hsv hheld hfl⟩
  · refine ⟨_, act_of_running s doEccDayAdvance hrun, ?_⟩
    have heq : doEccDayAdvance s.dev = { s.dev with dayTick := s.dev.dayTick + dayTicks }.dayStep := if_pos hdue
    dsimp only
    rw [heq]
    exact Dev.dayStep_spec (d := { s.dev with dayTick := s.dev.dayTick + dayTicks })
  · exact ⟨_, act_of_running s (doEccRlSelWrite v) hrun, fun w hw => doEccRlSelWrite_spec s.dev v ho hw⟩
  · have hun : s.dev.Unqualified p die := ⟨hp, hd, hfresh, hgone, hdie⟩
    exact ⟨fun hq => ⟨_, act_of_running s (doDieQualify p die q) hrun, doDieQualify_passes hun hq⟩,
      fun n hq herr => ⟨_, act_of_running s (doDieQualify p die q) hrun, doDieQualify_fails hun hq herr⟩⟩

end Sys2Proof.Machine
end

section
/-! What programs and erases that have ended change, in what frame (R206, R222, R285, R340, R341). -/

namespace Sys2Proof.Machine

-- In order, one declaration at a time: keeps the check within its memory limit.
set_option Elab.async false

section
variable {d e : Dev}

/-! ### The verify reads that a program makes due -/

theorem Dev.Works.verifyDue (h : d.Works e) (p : Nat) (o : POp) : d.Works (e.verifyDue p o) := by
  unfold Dev.verifyDue
  extract_lets n pages d1
  have h1 : d.Works d1 := h.trans (.foldl (fun x q => .ite (Dev.Works.addOp (.refl x) _ _) (.refl x)) _ _)
  exact h1.dealFinals _ _ _ _ _

theorem Dev.KeepsFlash.verifyDue (d : Dev) (p : Nat) (o : POp) : d.KeepsFlash (d.verifyDue p o) := by
  unfold Dev.verifyDue
  extract_lets n pages d1
  have h1 : d.KeepsFlash d1 := .foldl (fun x q => .ite (.addOp x _ _) (.refl x)) _ _
  unfold Dev.dealFinals
  exact h1.trans (.foldl (fun y pg => .ite (.refl y) (.addOp y _ _)) _ _)

theorem Dev.Works.rebuildOk (h : d.Works e) (p : Nat) (o : POp) : d.Works (e.rebuildOk p o) := by
  unfold Dev.rebuildOk
  extract_lets d1 d2 n pages
  have h2 : d.Works d2 := (h.setFPage _ _).trans (.inc64 (by decide) (by decide) 1)
  exact h2.trans (.foldl (fun x q => Dev.Works.addOp (.refl x) _ _) _ _)

theorem Dev.Works.programOk (h : d.Works e) (p : Nat) (o : POp) : d.Works (e.programOk p o) := by
  have hbuf : ∀ (x : Dev) k pg b, x.Works { x.setFPage k pg with stripeBuf := b } := fun x k pg b => Dev.Works.hide (.refl x) rfl
  have hprogd : ∀ (x : Dev) m, x.Works { x with progd := m } := fun x m => Dev.Works.hide (.refl x) rfl
  unfold Dev.programOk
  extract_lets key d1 c d2
  have h1 : d.Works d1 := by
    simp only [d1]
    split
    · exact h.trans (hbuf _ _ _ _)
    · exact h
  have h2 : d.Works d2 := h1.trans (hprogd _ _)
  exact .ite (h1.rebuildOk p o) (.ite (Dev.Works.verifyDue (.ite (h2.accMove _ _ _) h2) p o) h1)

/-- A program that ended well has its page in flash, and its buffer is free. -/
theorem Dev.programOk_stores {p : Nat} {o : POp} {pg : FPage} (hbuf : d.stripeBuf.find (flashKey p o.die o.block o.page) = some pg) :
    (d.programOk p o).fpage (flashKey p o.die o.block o.page) = pg ∧
    (d.programOk p o).stripeBuf.find (flashKey p o.die o.block o.page) = none := by
  have hset : ∀ (x : Dev) k f, (x.setFPage k f).fpage k = f := fun x k f => SMap.get_set_self _ _ _ _
  have hkeep : ∀ {x t : Dev} {k : Nat}, x.KeepsFlash t → x.fpage k = pg ∧ x.stripeBuf.find k = none → t.fpage k = pg ∧ t.stripeBuf.find k = none :=
    fun ht hx => ⟨(ht.fpage _).trans hx.1, by rw [ht.2]; exact hx.2⟩
  unfold Dev.programOk
  extract_lets key d1 c d2
  have hd1 : d1 = { d.setFPage key pg with stripeBuf := d.stripeBuf.erase key } := by
    simp only [d1]
    rw [show SMap.find d.stripeBuf key = some pg from hbuf]
  have h1 : d1.fpage key = pg ∧ d1.stripeBuf.find key = none := by
    rw [hd1]
    exact ⟨hset d key pg, SMap.find_erase_self _ _⟩
  clear_value d1
  split
  · unfold Dev.rebuildOk
    extract_lets e1 e2 n pages
    have h2 : e2.fpage key = pg ∧ e2.stripeBuf.find key = none := by
      refine ⟨?_, h1.2⟩
      show e1.fpage key = pg
      simp only [e1]
      by_cases hk : key = d1.chunkKey o.band o.stripe o.pos
      · rw [← hk, hset]
        exact h1.1
      · rw [Dev.fpage, show ∀ f, (d1.setFPage (d1.chunkKey o.band o.stripe o.pos) f).flash =
          SMap.set (fun _ => FPage.reset) d1.flash (d1.chunkKey o.band o.stripe o.pos) f from fun _ => rfl, SMap.get_set_ne _ _ _ _ _ hk]
        exact h1.1
    exact hkeep (.foldl (fun x q => .addOp x _ _) _ _) h2
  · split
    · have h2 : d1.KeepsFlash (if (d2.dpar.find (setKey p o.die o.block)).isSome then d2.accMove (setKey p o.die o.block) o.page true else d2) :=
        .trans (e := d2) ⟨rfl, rfl⟩ (.ite (.accMove d2 _ _ _) (.refl d2))
      exact hkeep (h2.trans (.verifyDue _ p o)) h1
    · exact h1

/-! ### Erases -/

theorem Dev.Works.dparDrop (h : d.Works e) (k : Nat) : d.Works (e.dparDrop k) := by
  have hdrop : ∀ (x : Dev) m a, x.Works { x with dpar := m, dacc := a } := fun x m a => Dev.Works.hide (.refl x) rfl
  unfold Dev.dparDrop
  exact .ite h (Dev.Works.freeCredit (Dev.Works.dparCount (h.trans (hdrop _ _ _))) _)

theorem Dev.KeepsFlash.dparDrop (d : Dev) (k : Nat) : d.KeepsFlash (d.dparDrop k) := by
  unfold Dev.dparDrop
  exact .ite (.refl d) (.trans (e := { d with dpar := d.dpar.erase k, dacc := d.dacc.filter (fun kv => kv.1 / 8 != k) }.dparCount) ⟨rfl, rfl⟩
    (.freeCredit _ _))

theorem Dev.Works.rebuildSetFree (h : d.Works e) (k : Nat) : d.Works (e.rebuildSetFree k) := by
  have hfree : ∀ (x : Dev) m a, x.Works { x with rbUsed := m, bands := a } := fun x m a => Dev.Works.hide (.refl x) rfl
  unfold Dev.rebuildSetFree
  exact Dev.Works.kitty (h.trans (hfree _ _ _))

theorem Dev.KeepsFlash.eraseProgress (d : Dev) (b : Nat) : d.KeepsFlash (d.eraseProgress b) := by
  have hpe : ∀ x : Dev, x.KeepsFlash x.peCounts := fun x => by
    unfold Dev.peCounts
    extract_lets n es lo d1
    exact .ite ⟨rfl, rfl⟩ ⟨rfl, rfl⟩
  have hfreed : d.KeepsFlash (d.bandFreed b) := by
    unfold Dev.bandFreed
    extract_lets x back sets d1 d2 bd d3 dead y d4
    have h1 : d.KeepsFlash d1 := ⟨rfl, rfl⟩
    have h2 : d.KeepsFlash d2 := .ite (h1.trans ⟨rfl, rfl⟩) h1
    have h3 : d.KeepsFlash d3 := h2.trans (.setBand d2 b _)
    have h4 : d.KeepsFlash d4 := by
      simp only [d4]
      clear_value dead
      cases dead with
      | none => exact h3
      | some s => exact h3.trans (.setBand d3 b _)
    have h5 : d.KeepsFlash (if back then d4 else d4.inc Reg.MAP_GC_BANDS 1) := .ite h4 (h4.trans ⟨rfl, rfl⟩)
    have h6 := (h5.trans (.journal _ { JBatch.none with bands := [(b, 0)] })).trans (hpe _)
    exact (h6.trans (t := Dev.kitty _) ⟨rfl, rfl⟩).trans (.respace _)
  unfold Dev.eraseProgress
  extract_lets x
  exact .ite hfreed (.refl d)

theorem Dev.Works.eraseOk (h : d.Works e) (p : Nat) (o : POp) : d.Works (e.eraseOk p o) := by
  have hflash : ∀ (x : Dev) m, x.Works { x with flash := m } := fun x m => Dev.Works.hide (.refl x) rfl
  unfold Dev.eraseOk
  extract_lets k back d1 x
  have h1 : d.Works d1 := Dev.Works.setTrk (Dev.Works.dparDrop (h.trans (hflash _ _)) k) _ _
  exact .ite (h1.rebuildSetFree _) (Dev.Works.eraseProgress (h1.setBand _ _) _)

/-- An erase that ended well leaves the set's pages erased. -/
theorem Dev.eraseOk_erases (d : Dev) (p : Nat) (o : POp) {pg : Nat} (hpg : pg < 4096) :
    (d.eraseOk p o).fpage (flashKey p o.die o.block pg) = FPage.reset := by
  unfold Dev.eraseOk
  extract_lets k back d1 x
  have hkey : flashKey p o.die o.block pg / 4096 = k := by
    simp only [k, flashKey, setKey]
    omega
  have h0 : ({ d with flash := d.flash.filter (fun kv => kv.1 / 4096 != k) } : Dev).fpage (flashKey p o.die o.block pg) = FPage.reset := by
    have hnone : SMap.find (d.flash.filter (fun kv => kv.1 / 4096 != k)) (flashKey p o.die o.block pg) = none := by
      cases hf : SMap.find (d.flash.filter (fun kv => kv.1 / 4096 != k)) (flashKey p o.die o.block pg) with
      | none => rfl
      | some f =>
        have hmem := (List.mem_filter.mp (SMap.mem_of_find hf)).2
        simp only [hkey, bne_self_eq_false] at hmem
        exact absurd hmem Bool.false_ne_true
    rw [Dev.fpage, SMap.get]
    exact congrArg (Option.getD · FPage.reset) hnone
  have h1 : Dev.KeepsFlash { d with flash := d.flash.filter (fun kv => kv.1 / 4096 != k) } d1 := (Dev.KeepsFlash.dparDrop _ k).trans ⟨rfl, rfl⟩
  have h2 : d1.KeepsFlash (if back then d1.rebuildSetFree (p * 2 ^ 18 + o.die * 2 ^ 12 + o.block)
      else (d1.setBand o.band { x with erasedSets := insertSorted x.erasedSets o.pos }).eraseProgress o.band) :=
    .ite ⟨rfl, rfl⟩ ((Dev.KeepsFlash.setBand d1 o.band _).trans (.eraseProgress _ _))
  exact ((h1.trans h2).fpage _).trans h0

theorem Dev.Works.takeSpare (h : d.Works e) (b pos : Nat) : d.Works (e.takeSpare b pos).2 := by
  have hused : ∀ (x : Dev) m, x.Works { x with spareUsed := m } := fun x m => Dev.Works.hide (.refl x) rfl
  unfold Dev.takeSpare
  extract_lets s dk used blk d1 x d2 full d3
  have h1 : d.Works d1 := h.trans (hused _ _)
  have h3 : d.Works d3 := Dev.Works.journal (h1.setBand b _) _
  split
  · exact .ite (h3.exhaust 0) h3
  · exact h

theorem Dev.Works.eraseBad (h : d.Works e) (o : POp) : d.Works (e.eraseBad o) := by
  have hretire : d.Works (e.retireSet o.band o.pos).2 := by
    unfold Dev.retireSet
    extract_lets s d1 d2
    exact Dev.Works.takeSpare (Dev.Works.unlogErasures (Dev.Works.raise (Dev.Works.recordErr (h.inc (by decide) 1) _ _ _ _) _ _) _) _ _
  unfold Dev.eraseBad
  split
  · exact h
  · extract_lets r d1 x s
    exact .ite (hretire.addOp _ _) (Dev.Works.respace (hretire.setBand _ _))

end

end Sys2Proof.Machine
end

section
/-! Responses of a bridge (R237, R266, R276 to R287). -/

namespace Sys2Proof.Machine

-- In order, one declaration at a time: keeps the check within its memory limit.
set_option Elab.async false

section
variable {d e : Dev} {p tag : Nat} {o : POp}

/-! ### Records, dies and ports that fail with a response -/

theorem Dev.bridgeRec_eq (d : Dev) (p opc : Nat) (r : BRsp) (fs : Fields) : d.bridgeRec p opc r fs = { d with cap := (d.bridgeRec p opc r fs).cap } := by
  unfold Dev.bridgeRec
  rw [Dev.capRec_eq]

theorem Dev.Reports.bridgeRec (d : Dev) (p opc : Nat) (r : BRsp) (fs : Fields) : d.Reports (d.bridgeRec p opc r fs) := Dev.Reports.capRec d _ _ _

theorem Dev.Fails.setPort (h : e.Fails p d) (q : Nat) (x : Port) : e.Fails p (d.setPort q x) := h.thenWorks (Dev.Works.setPort (.refl d) q x)

theorem Dev.Fails.setBridge (h : e.Fails p d) (q : Nat) (x : Bridge) : e.Fails p (d.setBridge q x) := h.thenWorks (Dev.Works.hide (.refl d) rfl)

theorem Dev.Fails.fatal (hp : p < 512) (h : e.Fails p d) (status : Nat) : e.Fails p (d.fatal p status) :=
  .ite (h.trans (Dev.Fails.portFail d hp _ _)) h

theorem Dev.Fails.rspStatus (hp : p < 512) (h : e.Fails p d) (die status : Nat) : e.Fails p (d.rspStatus p die status) := by
  unfold Dev.rspStatus
  extract_lets x n d1
  have h1 : e.Fails p d1 := h.setPort _ _
  exact .ite (h.trans (Dev.Fails.portFail d hp _ _)) (.ite (.ite (h1.trans (Dev.Fails.dieFailed d1 hp _ _)) h1) (h.setPort _ _))

/-- A response that tells no failure of the die changes of the port the die's timeouts only. -/
theorem Dev.rspStatus_ok (d : Dev) (p die : Nat) {status : Nat} (h : status ≠ 0x0F ∧ status ≠ 0x08) :
    d.rspStatus p die status = d.setPort p { d.port p with timeouts := (d.port p).timeouts.erase die } := by
  unfold Dev.rspStatus
  rw [if_neg h.1]
  exact if_neg h.2

theorem Dev.port_outCounts (d : Dev) (p q : Nat) : (d.outCounts p).port q = d.port q := rfl

/-! ### DONE (R206, R222, R285, R307) -/

theorem Dev.bridgeDone_eq (d : Dev) (p tag opc status onfi : Nat) : ∃ bs, d.bridgeDone p tag opc status onfi = { d with bridges := bs } := by
  unfold Dev.bridgeDone
  extract_lets b
  split
  · split
    · exact ⟨_, rfl⟩
    · exact ⟨_, rfl⟩
  · exact ⟨_, rfl⟩

/-- The device that a DONE leaves to its operation's end: the bridge's side done, the report recorded and scored, the operation gone. -/
def Dev.doneTaken (d : Dev) (p : Nat) (r : BRsp) (o : POp) (opc time100ns suspends : Nat) : Dev :=
  let d := (d.bridgeDone p (r.tag % 4096) opc r.status r.onfi).bridgeRec p 0x82 r [(1, opc), (1, 0), (2, time100ns), (1, suspends)]
  let d := (d.score 8 time100ns none none (some (p / 8))).score 9 suspends none none (some (p / 8))
  let x := d.port p
  (d.setPort p { x with susOpen := x.susOpen.erase o.die }).dropOp p (r.tag % 4096)

/-- The end of an operation that a DONE reports, by what it was and how it ended. -/
def Dev.doneEnds (d : Dev) (p : Nat) (o : POp) (status : Nat) : Dev :=
  if o.forTwin.isSome then d.sendGulon 0x21 (remoteDoneFs (o.forTwin.getD 0) status [])
  else match o.opc == 0x02, status == 0 with
    | true, true => d.programOk p o
    | true, false => d.programBad o
    | false, true => d.eraseOk p o
    | false, false => d.eraseBad o

/-- A DONE of an operation that runs here ends it. -/
theorem doDone_row {r : BRsp} {opc : Nat} (hp : p < 512) (ht : r.tag < 4096) (hmine : d.hearsOf p r.tag false = true)
    (horphan : d.isOrphan p r false = false) (hop : (d.port p).op? r.tag = some o) (hopc : o.opc = opc) (hrun : o.stage = .running) (hread : o.opc ≠ 0x01)
    (ns sus : Nat) : doDone p r opc ns sus d = (((d.doneTaken p r o opc ns sus).doneEnds p o r.status).rspStatus p o.die r.status).outCounts p := by
  obtain ⟨bs, hbs⟩ := d.bridgeDone_eq p r.tag opc r.status r.onfi
  have hport : (((d.bridgeDone p r.tag opc r.status r.onfi).bridgeRec p 0x82 r [(1, opc), (1, 0), (2, ns), (1, sus)]).port p).op? r.tag = some o := by
    rw [Dev.bridgeRec_eq, hbs]
    exact hop
  unfold doDone
  rw [Nat.mod_eq_of_lt hp, Nat.mod_eq_of_lt ht]
  extract_lets p1 tag1 mine orphan d1 d2 g d3 x
  rw [show mine = true from hmine, show orphan = false from horphan, if_neg (by decide), if_neg (by decide),
    show (d2.port p1).op? tag1 = some o from hport]
  dsimp only
  rw [if_neg (by simp [hopc ▸ hread, hrun, hopc])]
  unfold Dev.doneTaken
  rw [Nat.mod_eq_of_lt ht]
  rfl

theorem Dev.doneTaken_keeps (d : Dev) (p : Nat) (r : BRsp) (o : POp) (opc ns sus : Nat) : d.KeepsFlash (d.doneTaken p r o opc ns sus) ∧
    d.Works (d.doneTaken p r o opc ns sus) ∧ (∀ pg, ((d.doneTaken p r o opc ns sus).page pg).err = (d.page pg).err) := by
  unfold Dev.doneTaken
  extract_lets d1 d2 x
  obtain ⟨bs, hbs⟩ := d.bridgeDone_eq p (r.tag % 4096) opc r.status r.onfi
  have h1 : ∃ c, d1 = { d with bridges := bs, cap := c } := by
    simp only [d1]
    rw [Dev.bridgeRec_eq, hbs]
    exact ⟨_, rfl⟩
  have hw0 : d.Works d1 := (Dev.Works.hide (.refl d) (by rw [hbs]; rfl) (by rw [hbs]) (by rw [hbs]) (by rw [hbs])).trans
    (Dev.Works.of_reports (Dev.Reports.bridgeRec _ _ _ _ _))
  obtain ⟨c, hc⟩ := h1
  have hk1 : d.KeepsFlash d1 := hc ▸ ⟨rfl, rfl⟩
  have hp1 : d1.pages = d.pages := hc ▸ rfl
  clear_value d1
  have hpost : d1.Posts d2 := (Dev.Posts.score d1 _ _ _ _ _).trans (Dev.Posts.score _ _ _ _ _ _)
  refine ⟨(hk1.trans (.of_posts hpost)).trans ⟨rfl, rfl⟩, Dev.Works.dropOp (Dev.Works.setPort (hw0.trans (Dev.Works.of_posts hpost)) _ _) _ _, fun pg => ?_⟩
  exact (hpost.sameErr pg).trans (by rw [Dev.page, hp1, Dev.page])

/-- What follows the end of a well-reported operation leaves the flash. -/
theorem Dev.KeepsFlash.reported (d : Dev) (p die : Nat) : d.KeepsFlash ((d.rspStatus p die 0).outCounts p) := by
  rw [Dev.rspStatus_ok d p die (by decide)]
  exact ⟨rfl, rfl⟩

/-! ### RDATA (R285, R290) -/

/-- The data of a read arrive, unless the command that it serves has ended. -/
theorem doRdata_spec {r : BRsp} (hp : p < 512) (ht : r.tag < 4096) (hst : r.status = 0) (hmine : d.hearsOf p r.tag true = true)
    (horphan : d.isOrphan p r true = false) (hop : (d.port p).op? r.tag = some o) (hrun : o.stage = .running) (hdata : o.data = false)
    (hopc : o.opc = 0x01) (mask : Nat) (soft : Bool) (content : Nat) :
    (o.owner.all d.ownerLives = true → (((doRdata p r mask soft content d).port p).op? r.tag).map POp.data = some true) ∧
    (o.owner.all d.ownerLives = false → ((doRdata p r mask soft content d).port p).op? r.tag = none) := by
  unfold doRdata
  rw [Nat.mod_eq_of_lt hp, Nat.mod_eq_of_lt ht]
  extract_lets p1 tag1 _ mine orphan b d1 d2
  have h1 : ∃ bs, d1 = { d with bridges := bs } := by
    simp only [d1]
    split
    · exact ⟨_, rfl⟩
    · exact ⟨_, rfl⟩
  obtain ⟨bs, hbs⟩ := h1
  have h2 : ∃ c, d2 = { d with bridges := bs, cap := c } := by
    simp only [d2]
    rw [Dev.bridgeRec_eq, hbs]
    exact ⟨_, rfl⟩
  obtain ⟨c, hc⟩ := h2
  have hlives : d2.ownerLives = d.ownerLives := by
    rw [hc]
    rfl
  have hport : (d2.port p1).op? tag1 = some o := by
    rw [hc]
    exact hop
  clear_value d2
  rw [show mine = true from hmine, show orphan = false from horphan, if_neg (by decide), if_neg (by decide), hport]
  dsimp only
  rw [if_neg (by simp [hopc, hrun, hdata]), hlives, hst]
  have hlast : ∀ e : Dev, ((((e.rspStatus p1 o.die 0).outCounts p1).port p1).op? r.tag) = (e.port p1).op? r.tag := fun e => by
    rw [Dev.rspStatus_ok e p1 o.die (by decide), Dev.port_outCounts, Dev.port_setPort_self]
    rfl
  refine ⟨fun hl => ?_, fun hl => ?_⟩
  · rw [if_pos hl, hlast, Dev.op?_setPortOp (y := { o with data := true, came := d2.tick }) hport (Port.tag_of_op? (o := o) hport)]
    rfl
  · rw [if_neg (by rw [hl]; exact Bool.false_ne_true), hlast, Dev.dropOp, Dev.port_setPort_self]
    refine List.find?_eq_none.mpr (fun z hz => ?_)
    have hne := (List.mem_filter.mp hz).2
    simpa using hne

/-! ### Programs and erases that are done -/

theorem doDone_programmed {r : BRsp} {pg : FPage} (hp : p < 512) (ht : r.tag < 4096) (hst : r.status = 0) (hmine : d.hearsOf p r.tag false = true)
    (horphan : d.isOrphan p r false = false) (hop : (d.port p).op? r.tag = some o) (hrun : o.stage = .running) (htwin : o.forTwin = none)
    (hopc : o.opc = 0x02) (hbuf : d.stripeBuf.find (flashKey p o.die o.block o.page) = some pg) (ns sus : Nat) :
    (doDone p r 2 ns sus d).fpage (flashKey p o.die o.block o.page) = pg ∧
    (doDone p r 2 ns sus d).stripeBuf.find (flashKey p o.die o.block o.page) = none := by
  obtain ⟨hkeep, -, -⟩ := d.doneTaken_keeps p r o 2 ns sus
  have hends : (d.doneTaken p r o 2 ns sus).doneEnds p o 0 = (d.doneTaken p r o 2 ns sus).programOk p o := by
    unfold Dev.doneEnds
    rw [htwin, hopc]
    rfl
  obtain ⟨h1, h2⟩ := Dev.programOk_stores (d := d.doneTaken p r o 2 ns sus) (p := p) (o := o) (pg := pg) (by rw [hkeep.2]; exact hbuf)
  have hlast := Dev.KeepsFlash.reported ((d.doneTaken p r o 2 ns sus).programOk p o) p o.die
  rw [doDone_row hp ht hmine horphan hop hopc hrun (by rw [hopc]; decide), hst, hends]
  exact ⟨(hlast.fpage _).trans h1, by rw [hlast.2]; exact h2⟩

theorem doDone_erased {r : BRsp} (hp : p < 512) (ht : r.tag < 4096) (hst : r.status = 0) (hmine : d.hearsOf p r.tag false = true)
    (horphan : d.isOrphan p r false = false) (hop : (d.port p).op? r.tag = some o) (hrun : o.stage = .running) (htwin : o.forTwin = none)
    (hopc : o.opc = 0x03) (ns sus : Nat) {pg : Nat} (hpg : pg < 4096) : (doDone p r 3 ns sus d).fpage (flashKey p o.die o.block pg) = FPage.reset := by
  have hends : (d.doneTaken p r o 3 ns sus).doneEnds p o 0 = (d.doneTaken p r o 3 ns sus).eraseOk p o := by
    unfold Dev.doneEnds
    rw [htwin, hopc]
    rfl
  rw [doDone_row hp ht hmine horphan hop hopc hrun (by rw [hopc]; decide), hst, hends]
  exact ((Dev.KeepsFlash.reported _ p o.die).fpage _).trans (Dev.eraseOk_erases _ p o hpg)

theorem Dev.pages_freeCredit (d : Dev) (f : Nat → Bool) : (d.freeCredit f).pages = d.pages := by
  have hcr : ∀ e : Dev, e.crCounts.pages = e.pages := fun e =>
    Dev.foldl_keeps (fun x : Dev => x.pages) (fun _ _ => rfl) (List.range 10) e
  unfold Dev.freeCredit
  split
  · exact hcr _
  · rfl

theorem Dev.pages_dealFinals (d : Dev) (b pos : Nat) (s : BSet) (slc : Bool) (due : Nat → Bool) : (d.dealFinals b pos s slc due).pages = d.pages := by
  unfold Dev.dealFinals
  refine Dev.foldl_keeps (fun x : Dev => x.pages) (fun x pg => ?_) _ _
  split
  · rfl
  · obtain ⟨ps, hpost⟩ := Dev.posts_addOp (d := x) (p := s.port) (y := mkOp 0x01 .final 2 0 b pg pos s.die s.block pg slc) (show (0x01 : Nat) ≠ 0x02 by decide)
    exact congrArg (·.pages) hpost.kept

/-- A band's end of filling records nothing. -/
theorem Dev.pages_closeBand (d : Dev) (b : Nat) : (d.closeBand b).pages = d.pages := by
  unfold Dev.closeBand
  extract_lets x d1 d2 d3 d4 d5
  have h1 : d1.pages = d.pages := by
    simp only [d1]
    unfold Dev.metaAbandon
    extract_lets gone e1
    split
    · rfl
    · exact Dev.pages_freeCredit _ _
  have h2 : d2.pages = d1.pages := rfl
  have h3 : d3.pages = d2.pages := Dev.foldl_keeps (fun x : Dev => x.pages) (fun y k => by
    unfold Dev.bmMayClear
    extract_lets r
    split <;> rfl) _ _
  have h4 : d4.pages = d3.pages := Dev.foldl_keeps (fun x : Dev => x.pages) (fun y js => Dev.pages_dealFinals y _ _ _ _ _) _ _
  have h5 : d5.pages = d4.pages := Dev.pages_freeCredit _ _
  have hjournal : ∀ (e : Dev) j, (e.journal j).pages = e.pages := fun e j => congrArg (·.pages) (Dev.Posts.journal e j).kept
  have hclosed : ∀ (e : Dev) y, (e.bandClosed b y).pages = e.pages := fun e y => (hjournal _ _).trans rfl
  split
  · exact (hclosed _ _).trans (h5.trans (h4.trans (h3.trans (h2.trans h1))))
  · rfl

theorem doDone_failed {r : BRsp} (hp : p < 512) (ht : r.tag < 4096) (hst : r.status = 1) (hmine : d.hearsOf p r.tag false = true)
    (horphan : d.isOrphan p r false = false) (hop : (d.port p).op? r.tag = some o) (hrun : o.stage = .running) (htwin : o.forTwin = none)
    (hopc : o.opc = 0x02) (hsrc : o.src ≠ .rebuild) (herr : (d.page 0x500).err = false) (ns sus : Nat) :
    ((doDone p r 2 ns sus d).page 0x500).errCode = 0x0101 ∧ ((doDone p r 2 ns sus d).page 0x500).info0 = w32 o.band := by
  obtain ⟨-, -, htaken⟩ := d.doneTaken_keeps p r o 2 ns sus
  have hends : (d.doneTaken p r o 2 ns sus).doneEnds p o 1 = (d.doneTaken p r o 2 ns sus).programFail o.band o.pos := by
    unfold Dev.doneEnds Dev.programBad
    rw [htwin, hopc, if_neg (by simp)]
    exact if_neg hsrc
  rw [doDone_row hp ht hmine horphan hop hopc hrun (by rw [hopc]; decide), hst, hends, Dev.rspStatus_ok _ _ _ (by decide)]
  generalize hd : d.doneTaken p r o 2 ns sus = e at htaken
  have hfail : ((e.programFail o.band o.pos).page 0x500).errCode = 0x0101 ∧ ((e.programFail o.band o.pos).page 0x500).info0 = w32 o.band := by
    unfold Dev.programFail
    extract_lets s d1 s' y d2 d3 d4
    have hclose : (d2.page 0x500).err = (e.page 0x500).err := by
      show (d1.page 0x500).err = _
      simp only [d1]
      rw [Dev.page, Dev.pages_closeBand, Dev.page]
    have h3 : (d3.page 0x500).err = false := (Dev.err_raise _ _ _ _).trans (hclose.trans ((htaken _).trans herr))
    have hfirst := Dev.page_recordErr_first d3 0x500 0x0101 o.band (s.port * 64 + s.die) h3
    have hw : d4.Works (d4.markRefresh o.band) := .markRefresh (.refl d4) _
    obtain ⟨-, hcode, h0, -⟩ := (hw.page 0x500).1 (congrArg (·.err) hfirst)
    exact ⟨hcode.trans (congrArg (·.errCode) hfirst), h0.trans (congrArg (·.info0) hfirst)⟩
  have hlast : ∀ (f : Dev) x, ((f.setPort p x).outCounts p).page 0x500 = f.page 0x500 := fun _ _ => rfl
  rw [hlast]
  exact hfail

end

end Sys2Proof.Machine
end

section
/-! Reports of a bridge on its dies, its token, its power, its tests and its arms (R237, R266, R276 to R287). -/

namespace Sys2Proof.Machine

-- In order, one declaration at a time: keeps the check within its memory limit.
set_option Elab.async false

section
variable {d e : Dev} {p : Nat} {o : POp}

/-! ### STATUS (R259, R285) -/

theorem Dev.Works.doneEnds (h : d.Works e) (p : Nat) (o : POp) (status : Nat) : d.Works (e.doneEnds p o status) := by
  unfold Dev.doneEnds
  split
  · exact h.trans (Dev.Works.of_posts (Dev.Posts.sendGulon _ _ _))
  · split
    · exact h.programOk p o
    · exact h.programBad o
    · exact h.eraseOk p o
    · exact h.eraseBad o

theorem Dev.Fails.doDone (hp : p < 512) (h : e.Fails p d) (r : BRsp) (opc ns sus : Nat) : e.Fails p (doDone p r opc ns sus d) := by
  unfold Sys2Proof.Machine.doDone
  rw [Nat.mod_eq_of_lt hp]
  extract_lets p1 tag mine orphan d1 d2 g d3 x
  obtain ⟨bs, hbs⟩ := d.bridgeDone_eq p1 tag opc r.status r.onfi
  have h1 : e.Fails p1 d1 := by
    rw [show d1 = { d with bridges := bs } from hbs]
    exact h.thenWorks (Dev.Works.hide (.refl d) rfl)
  have h2 : e.Fails p1 d2 := h1.thenWorks (Dev.Works.of_reports (Dev.Reports.bridgeRec _ _ _ _ _))
  refine .ite h1 (.ite (h2.fatal hp _) ?_)
  split
  · next o ho =>
    split
    · exact h2.fatal hp _
    · extract_lets d4 d5
      have h3 : e.Fails p1 d3 := h2.thenWorks (Dev.Works.of_posts
        ((Dev.Posts.score d2 8 ns none none g).trans (Dev.Posts.score (d2.score 8 ns none none g) 9 sus none none g)))
      have h5 : e.Fails p1 d5 := (h3.setPort _ _).thenWorks (Dev.Works.dropOp (.refl _) _ _)
      have h6 : d5.Works (d5.doneEnds p1 o r.status) := Dev.Works.doneEnds (.refl d5) p1 o r.status
      exact ((h5.thenWorks h6).rspStatus hp _ _).outCounts
  · exact h2.fatal hp _

theorem Dev.Fails.askedOps (hp : p < 512) (h : e.Fails p d) (die st lastTag lastSt : Nat) (r : BRsp) :
    e.Fails p (d.askedOps p die st lastTag lastSt r) := by
  unfold Dev.askedOps
  have hfold : d.Fails p (((d.port p).ops.filter (fun o => o.die == die && o.asked)).foldl (fun (d : Dev) o =>
      if st = 0 ∧ o.tag = lastTag % 4096 then
        Sys2Proof.Machine.doDone p { status := lastSt, tag := lastTag, onfi := r.onfi, orphan := false } o.opc 0 o.sus d
      else if st = 0 then d.setPortOp p { o with stage := .waiting, buf := 32, asked := false }
      else d.setPortOp p { o with asked := false }) d) :=
    .foldl (fun x o => .ite (Dev.Fails.doDone hp (.refl x) _ _ _ _) (.ite (Dev.Fails.setPort (.refl x) _ _) (Dev.Fails.setPort (.refl x) _ _))) _ _
  exact Dev.Fails.outCounts (h.trans hfold)

/-- The register that shows a die present. -/
def diesReg (p die : Nat) : Nat := if die < 32 then Reg.FCH_P_DIES_LO p else Reg.FCH_P_DIES_HI p

theorem diesReg_eq (p die : Nat) : ∃ k, (k = 0x104 ∨ k = 0x108) ∧ diesReg p die = 0x800000 + k + 0x1000 * p := by
  unfold diesReg
  split
  · exact ⟨0x104, .inl rfl, rfl⟩
  · exact ⟨0x108, .inr rfl, rfl⟩

theorem diesReg_notFail (hp : p < 512) (die : Nat) : diesReg p die ∉ failRegs p := by
  obtain ⟨k, hk, h⟩ := diesReg_eq p die
  intro hmem
  rcases List.mem_append.mp hmem with hmem | hmem
  · exact workRegs_port h (by omega) hp hmem
  · rw [h] at hmem
    simp only [Reg.FCH_P_STS, Reg.FCH_P_OUT, Reg.FCH_P_DFAIL_LO, Reg.FCH_P_DFAIL_HI, List.mem_cons, List.not_mem_nil, or_false] at hmem
    omega

theorem Dev.reg_delayPublish (d : Dev) (p : Nat) {off : Nat} (h : off ≠ Reg.DLR_P_DELAY) : (d.delayPublish p).reg off = d.reg off := by
  unfold Dev.delayPublish
  extract_lets dly d1
  split
  · exact (Dev.reg_setFlag_ne _ h _ _).trans (Dev.reg_setFld_ne _ h _ _ _)
  · rfl

/-- What a STATUS tells of a die is shown, whatever else it tells and whatever follows from it. -/
theorem doStatus_spec {r : BRsp} {die : Nat} (hp : p < 512) (hdie : die < 64) (hr : r.status ≠ 0x0F) (st sus lastTag lastSt : Nat) (temp : Int)
    (info : Option (Nat × Nat × Nat × Nat × Nat)) :
    (doStatus p die r st sus lastTag lastSt temp info d).flag (diesReg p die) (die % 32) = (st != 6) ∧
    (st = 5 → (doStatus p die r st sus lastTag lastSt temp info d).dieGone p die = true) := by
  unfold doStatus
  rw [Nat.mod_eq_of_lt hp, Nat.mod_eq_of_lt hdie]
  extract_lets p1 i more d1 x d2 here d3 b y d4 d5 d6 d7
  have h3 : d3.flag (diesReg p die) (die % 32) = (st != 6) := Dev.flag_setFlag_self _ _ _ _ (by omega)
  clear_value d3
  obtain ⟨k, hk, heq⟩ := diesReg_eq p die
  have hne : ∀ {off : Nat}, (off < 0x800000 ∨ off = 0x80081C ∨ ∃ k', 0x110 ≤ k' ∧ k' < 0x800 ∧ off = 0x800000 + k' + 0x1000 * p) → diesReg p die ≠ off := by
    intro off hoff
    rw [heq]
    rcases hoff with h | h | ⟨k', h⟩ <;> omega
  have h4 : d4.reg (diesReg p die) = d3.reg (diesReg p die) := by
    simp only [d4]
    split
    · rfl
    · split <;> rfl
  clear_value d4
  have h5 : d5.reg (diesReg p die) = d4.reg (diesReg p die) := Dev.reg_setFld_ne _ (hne (.inr (.inl rfl))) _ _ _
  clear_value d5
  have h6 : d6.reg (diesReg p die) = d5.reg (diesReg p die) := by
    simp only [d6]
    split
    · rw [Dev.reg_delayPublish _ _ (hne (.inl (by decide))), Dev.reg_setFld_ne _ (hne (.inr (.inr ⟨0x118, by decide, by decide, rfl⟩))),
        Dev.reg_setFld_ne _ (hne (.inr (.inr ⟨0x118, by decide, by decide, rfl⟩))),
        Dev.reg_setFld_ne _ (hne (.inr (.inr ⟨0x114, by decide, by decide, rfl⟩))),
        Dev.reg_setFld_ne _ (hne (.inr (.inr ⟨0x114, by decide, by decide, rfl⟩)))]
    · rfl
  clear_value d6
  have h7 : d6.Fails p1 d7 := .ite (.refl d6) (Dev.Fails.askedOps hp (.refl d6) _ _ _ _ _)
  clear_value d7
  have hflag : ∀ {t : Dev}, d6.Fails p1 t → t.flag (diesReg p die) (die % 32) = (st != 6) := fun {t} h =>
    (Dev.flag_congr ((h.regs _ (diesReg_notFail hp die)).trans (h6.trans (h5.trans h4))) _).trans h3
  rw [if_neg hr]
  constructor
  · split
    · exact (hflag (h7.trans (Dev.Fails.dieFailed d7 hp _ _)))
    · exact hflag h7
  · intro h
    rw [if_pos h]
    exact Dev.dieGone_dieFailed d7 hp hdie 2

/-! ### OWN and POWER (R276, R277, R280) -/

/-- A port that fails for what a bridge says keeps every field of its state but the lane's state and its marks. -/
theorem Dev.fld_portFail_fatal (d : Dev) (hp : p < 512) (info1 : Nat) {hi lo : Nat} (hlo : 2 < lo) (h7 : 7 < lo ∨ hi < 7) :
    (d.portFail p 3 info1).fld (Reg.FCH_P_STS p) hi lo = d.fld (Reg.FCH_P_STS p) hi lo := by
  obtain ⟨hand, hfail⟩ := Dev.portFail_eq d p 3 info1
  have hmap : Reg.FCH_P_STS p ≠ Reg.FCH_C_FAILMAP (p / 32) := by
    simp only [Reg.FCH_P_STS, Reg.FCH_C_FAILMAP]
    omega
  have hset : (d.setLstate p 7).fld (Reg.FCH_P_STS p) hi lo = d.fld (Reg.FCH_P_STS p) hi lo := by
    by_cases h : d.lstate p = 7
    · rw [Dev.setLstate, if_pos h]
    · rw [Dev.fld, Dev.reg_setLstate d hp h, bits_putBits_ne _ _ _ _ _ _ (by decide) (.inl hlo), ← Dev.fld]
  rw [hfail, Dev.fld_congr (Dev.reg_portEnds _ hp d hand)]
  show (d.portMarked p 3 info1).fld (Reg.FCH_P_STS p) hi lo = _
  unfold Dev.portMarked
  extract_lets d1 d2 d3
  have hrep : d3.Reports ((d3.recordErr (0x800 + p) 0x0101 3 info1).raise (0x800 + p) 1) :=
    (Dev.Reports.recordErr d3 _ _ _ _).trans (Dev.Reports.raise _ _ _)
  rw [Dev.fld_congr (hrep.regs _ (sts_notReport hp)), Dev.fld_setFlag_ne _ hmap,
    Dev.fld_setFlag_other _ _ _ _ _ _ (by decide) h7, hset]

/-- An OWN shows the token and its FENCE as the bridge reports them. -/
theorem doOwn_spec (d : Dev) (hp : p < 512) (r : BRsp) (holder fence : Nat) :
    (doOwn p r holder fence d).fld (Reg.FCH_P_STS p) 4 3 = (if holder = 0 then 0 else if holder = d.side + 1 then 1 else 2) ∧
    (doOwn p r holder fence d).fld (Reg.FCH_P_STS p) 31 16 = fence % 65536 := by
  unfold doOwn
  rw [Nat.mod_eq_of_lt hp]
  extract_lets p1 f own d1 d2 was d3 d4 d5
  have h4 : d4.fld (Reg.FCH_P_STS p) 4 3 = own ∧ d4.fld (Reg.FCH_P_STS p) 31 16 = fence % 65536 := by
    constructor
    · refine (Dev.fld_setFld_other _ _ _ _ _ _ _ (by decide) (by decide)).trans
        ((Dev.fld_setFld_self _ _ _ _ _ (by decide)).trans (Nat.mod_eq_of_lt ?_))
      show own < 4
      simp only [own]
      split
      · decide
      · split <;> decide
    · exact (Dev.fld_setFld_self _ _ _ _ _ (by decide)).trans (Nat.mod_eq_of_lt (Nat.mod_lt _ (by decide)))
  clear_value d4
  have h5 : ∀ hi lo, d5.fld (Reg.FCH_P_STS p) hi lo = d4.fld (Reg.FCH_P_STS p) hi lo := fun hi lo => by
    simp only [d5]
    split
    · rfl
    · exact Dev.fld_congr ((Dev.Reports.raise d4 _ _).regs _ (sts_notReport hp)) hi lo
  clear_value d5
  split
  · rw [Dev.fld_portFail_fatal d5 hp _ (by decide) (by decide), Dev.fld_portFail_fatal d5 hp _ (by decide) (by decide), h5, h5]
    exact h4
  · rw [h5, h5]
    exact h4

/-- A POWER that says OFF takes the lane out of service. -/
theorem doPower_off (d : Dev) (hp : p < 512) {r : BRsp} (hr : r.status = 0) : (doPower p r 2 d).lstate p = 0 := by
  unfold doPower
  rw [Nat.mod_eq_of_lt hp]
  extract_lets p1 d1
  rw [if_pos ⟨hr, rfl⟩]
  exact Dev.lstate_setLstate d1 hp (by decide)

/-! ### TEST (R283, R284) -/

theorem Dev.port_bridgeRec (d : Dev) (p opc : Nat) (r : BRsp) (fs : Fields) (q : Nat) : (d.bridgeRec p opc r fs).port q = d.port q :=
  Dev.port_of_reports (Dev.Reports.bridgeRec d p opc r fs) q

theorem Dev.reg_bridgeRec (d : Dev) (p opc : Nat) (r : BRsp) (fs : Fields) (off : Nat) : (d.bridgeRec p opc r fs).reg off = d.reg off := by
  rw [Dev.bridgeRec_eq]
  rfl

theorem Dev.port_setReg (d : Dev) (off : Nat) (v : Word) (q : Nat) : (d.setReg off v).port q = d.port q := rfl

theorem satN_32 (n : Nat) : satN 32 n = min n 0xFFFFFFFF := by simp only [satN, Nat.reducePow, Nat.reduceSub]

/-- A test with a pattern that reports ends with its bit errors. -/
theorem doTest_pattern (d : Dev) (hp : p < 512) {r : BRsp} (hr : r.status = 0) (htag : (d.port p).testTag ≠ 0)
    (hmode : d.fld (Reg.FCH_P_TEST_CTL p) 1 0 ≠ 0) (stamp errors rtt : Nat) :
    ((doTest p r stamp errors rtt d).port p).testTag = 0 ∧ ((doTest p r stamp errors rtt d).port p).testEnd = 0 ∧
    (doTest p r stamp errors rtt d).reg (Reg.FCH_P_TEST_ERR p) = w32 (min errors 0xFFFFFFFF) := by
  unfold doTest
  rw [Nat.mod_eq_of_lt hp]
  extract_lets p1 d1 x d2 d3 bits
  have hx : x = d.port p := Dev.port_bridgeRec d _ _ _ _ p
  rw [if_neg (by omega), if_neg (by rwa [hx]), if_pos (by rwa [Dev.fld, Dev.reg_bridgeRec, ← Dev.fld])]
  have hne : Reg.FCH_P_TEST_ERR p ≠ Reg.FCH_P_TEST_BITS p ∧ Reg.FCH_P_TEST_ERR p ≠ Reg.FCH_P_TEST_STS p := by
    simp only [Reg.FCH_P_TEST_ERR, Reg.FCH_P_TEST_BITS, Reg.FCH_P_TEST_STS]
    omega
  have herr : d3.reg (Reg.FCH_P_TEST_ERR p) = w32 (min errors 0xFFFFFFFF) := by
    rw [← satN_32]
    exact (Dev.reg_setReg_ne _ hne.2 _).trans (Dev.reg_setReg_self _ _ _)
  have h3 : d3.port p = { x with testTag := 0, testEnd := 0 } :=
    (Dev.port_of_ports (d := d1.setPort p { x with testTag := 0, testEnd := 0 }) rfl p).trans (Dev.port_setPort_self d1 p _)
  clear_value d3 bits
  have hraise := Dev.Reports.raise (d3.setReg (Reg.FCH_P_TEST_BITS p) (w32 bits)) (0x800 + p) 4
  have hport := (Dev.port_of_reports hraise p).trans ((Dev.port_setReg _ _ _ p).trans h3)
  refine ⟨congrArg (·.testTag) hport, congrArg (·.testEnd) hport, ?_⟩
  exact (hraise.regs _ (reportRegs_port (k := 0x168) rfl (by decide) hp)).trans ((Dev.reg_setReg_ne _ hne.1 _).trans herr)

/-- A round trip of a delay test short of the sixteenth is kept. -/
theorem doTest_trip (d : Dev) (hp : p < 512) {r : BRsp} (hr : r.status = 0) (htag : (d.port p).testTag ≠ 0)
    (hmode : d.fld (Reg.FCH_P_TEST_CTL p) 1 0 = 0) (hlen : (d.port p).rtts.length < 15) (stamp errors rtt : Nat) :
    ((doTest p r stamp errors rtt d).port p).rtts = (d.port p).rtts ++ [rtt] := by
  unfold doTest
  rw [Nat.mod_eq_of_lt hp]
  extract_lets p1 d1 x d2 d3 bits rs
  have hx : x = d.port p := Dev.port_bridgeRec d _ _ _ _ p
  have hrs : rs = (d.port p).rtts ++ [rtt] := by rw [show rs = x.rtts ++ [rtt] from rfl, hx]
  rw [if_neg (by omega), if_neg (by rwa [hx]), if_neg (by rw [Dev.fld, Dev.reg_bridgeRec, ← Dev.fld]; exact not_not.mpr hmode),
    if_pos (by rw [hrs, List.length_append]; show _ + 1 < 16; omega), Dev.port_setPort_self]
  exact hrs

/-- What a measurement publishes of a port is not its round trips. -/
theorem Dev.rtts_delayMeasured (d : Dev) (p rtt spread : Nat) : ((d.delayMeasured p rtt spread).port p).rtts = (d.port p).rtts := by
  have hpub : ∀ e : Dev, ((e.delayPublish p).port p).rtts = (e.port p).rtts := fun e => by
    unfold Dev.delayPublish
    extract_lets dly x e1
    have h1 : (e1.port p).rtts = (e.port p).rtts := congrArg (·.rtts) (Dev.port_setPort_self e p _)
    split
    · exact h1
    · exact h1
  unfold Dev.delayMeasured
  extract_lets bad d1 x d2 n d3
  have h2 : (d2.port p).rtts = (d.port p).rtts := (hpub _).trans (congrArg (·.rtts) (Dev.port_setPort_self d1 p _))
  clear_value d2
  split
  · exact (congrArg (·.rtts) (Dev.port_of_reports ((Dev.Reports.recordErr d3 _ _ _ _).trans (Dev.Reports.raise _ _ _)) p)).trans h2
  · exact h2

/-- The sixteenth round trip publishes their median. -/
theorem doTest_median (d : Dev) (hp : p < 512) {r : BRsp} (hr : r.status = 0) (htag : (d.port p).testTag ≠ 0)
    (hmode : d.fld (Reg.FCH_P_TEST_CTL p) 1 0 = 0) (hlen : (d.port p).rtts.length = 15) (stamp errors rtt : Nat) :
    (doTest p r stamp errors rtt d).fld (Reg.FCH_P_RTT p) 19 0 = min (medianOf ((d.port p).rtts ++ [rtt])) (2 ^ 20 - 1) ∧
    ((doTest p r stamp errors rtt d).port p).rtts = [] := by
  unfold doTest
  rw [Nat.mod_eq_of_lt hp]
  extract_lets p1 d1 x d2 d3 bits rs
  have hx : x = d.port p := Dev.port_bridgeRec d _ _ _ _ p
  have hrs : rs = (d.port p).rtts ++ [rtt] := by rw [show rs = x.rtts ++ [rtt] from rfl, hx]
  rw [if_neg (by omega), if_neg (by rwa [hx]), if_neg (by rw [Dev.fld, Dev.reg_bridgeRec, ← Dev.fld]; exact not_not.mpr hmode),
    if_neg (by rw [hrs, List.length_append, hlen]; exact Nat.lt_irrefl 16), hrs]
  have hport : ((d1.setPort p1 { x with rtts := [], testTag := 0 }).port p).rtts = [] := congrArg (·.rtts) (Dev.port_setPort_self d1 p _)
  generalize d1.setPort p1 { x with rtts := [], testTag := 0 } = d4 at *
  unfold Dev.roundTrips
  extract_lets hi
  obtain ⟨-, hrtt, -⟩ := Dev.delayMeasured_spec d4 hp (medianOf ((d.port p).rtts ++ [rtt])) (hi - ((d.port p).rtts ++ [rtt]).foldl min hi)
  have hkeep := Dev.rtts_delayMeasured d4 p (medianOf ((d.port p).rtts ++ [rtt])) (hi - ((d.port p).rtts ++ [rtt]).foldl min hi)
  generalize d4.delayMeasured p1 (medianOf ((d.port p).rtts ++ [rtt])) (hi - ((d.port p).rtts ++ [rtt]).foldl min hi) = d5 at *
  have hraise := Dev.Reports.raise (d5.setReg (Reg.FCH_P_TEST_STS p1) 3) (0x800 + p1) 4
  have hne : Reg.FCH_P_RTT p ≠ Reg.FCH_P_TEST_STS p := by
    simp only [Reg.FCH_P_RTT, Reg.FCH_P_TEST_STS]
    omega
  refine ⟨(Dev.fld_congr ?_ _ _).trans hrtt, ?_⟩
  · exact (hraise.regs _ (reportRegs_port (k := 0x11C) rfl (by decide) hp)).trans (Dev.reg_setReg_ne _ hne _)
  · exact (congrArg (·.rtts) (Dev.port_of_reports hraise p)).trans (hkeep.trans hport)

/-! ### REFUSE and an operation without a response (R260, R285) -/

/-- A refusal is counted and recorded, and one for a busy die puts its operation back. -/
theorem doRefuse_busy (d : Dev) (hp : p < 512) {r : BRsp} (hr : r.status = 0x04) (ht : r.tag < 4096) (herr : (d.page (0x800 + p)).err = false)
    (hop : (d.port p).op? r.tag = some o) (hopc : o.opc ≤ 3) :
    ((doRefuse p r o.opc d).page (0x800 + p)).errCode = 0x0103 ∧ ((doRefuse p r o.opc d).page (0x800 + p)).info0 = w32 r.tag ∧
    ((doRefuse p r o.opc d).page (0x800 + p)).info1 = 4 ∧ (((doRefuse p r o.opc d).port p).op? r.tag).map POp.stage = some .waiting ∧
    (doRefuse p r o.opc d).fld (Reg.FCH_P_REFUSE p) 31 0 = min (d.fld (Reg.FCH_P_REFUSE p) 31 0 + 1) 0xFFFFFFFF := by
  unfold doRefuse
  rw [Nat.mod_eq_of_lt hp, Nat.mod_eq_of_lt ht]
  extract_lets p1 tag d1 d2
  have hport : (d2.port p).op? r.tag = some o := by
    refine Eq.trans (congrArg (fun x => Port.op? x r.tag) ?_) hop
    exact (Dev.port_of_reports (Dev.Reports.recordErr d1 _ _ _ _) p).trans (Dev.port_bridgeRec d _ _ _ _ p)
  have hcount : d2.fld (Reg.FCH_P_REFUSE p) 31 0 = min (d.fld (Reg.FCH_P_REFUSE p) 31 0 + 1) 0xFFFFFFFF := by
    refine (Dev.fld_congr (Dev.reg_recordErr d1 _ _ _ _ _) _ _).trans ((Dev.fld_inc_self _ _ _).trans ?_)
    rw [Dev.fld_congr (Dev.reg_bridgeRec d _ _ _ _ _)]
  have hpage : d2.page (0x800 + p) = _ := Dev.page_recordErr_first d1 (0x800 + p) 0x0103 tag r.status (by
    rw [show (d1.page (0x800 + p)) = d.page (0x800 + p) from by
      show (d.bridgeRec p1 0x8F r [(1, o.opc)]).page (0x800 + p) = _
      rw [Dev.bridgeRec_eq]
      rfl]
    exact herr)
  clear_value d2
  have hdone : ∀ b, ((d2.setPortOp p { o with stage := .waiting, buf := b }).outCounts p).port p = (d2.port p).setOp { o with stage := .waiting, buf := b } :=
    fun b => (Dev.port_outCounts _ p p).trans (Dev.port_setPort_self d2 p _)
  have hne : Reg.FCH_P_REFUSE p ≠ Reg.FCH_P_OUT p := by
    simp only [Reg.FCH_P_REFUSE, Reg.FCH_P_OUT]
    omega
  rw [if_neg (by omega), if_neg (by rw [hr]; decide), if_neg (by omega), show (d2.port p1).op? tag = some o from hport]
  dsimp only
  rw [if_neg (by omega), if_neg (by simp), if_neg (by rw [hr]; decide), if_neg (by rw [hr]; decide)]
  refine ⟨congrArg (·.errCode) hpage, congrArg (·.info0) hpage, (congrArg (·.info1) hpage).trans (by rw [hr]; rfl), ?_, ?_⟩
  · rw [hdone, Port.op?_setOp_self (y := { o with stage := .waiting, buf := _ }) hport (show o.tag = r.tag from Port.tag_of_op? hport)]
    rfl
  · refine (Dev.fld_congr ?_ _ _).trans hcount
    rw [Dev.outCounts, Dev.reg_setReg_ne _ hne]
    rfl

/-- An operation that has no response in time fails its die. -/
theorem doDieResponseTimeout_spec (d : Dev) (hp : p < 512) {tag : Nat} (ht : tag < 4096) (hop : (d.port p).op? tag = some o) (hrun : o.stage = .running)
    (hdata : o.data = false) (hsent : o.sent = none) (hdie : o.die < 64) (hlate : o.start + d.fld Reg.FCH_DIE_TMO 15 0 * 1000000 ≤ d.tick) :
    (doDieResponseTimeout p tag d).dieGone p o.die = true := by
  unfold doDieResponseTimeout
  rw [Nat.mod_eq_of_lt hp, Nat.mod_eq_of_lt ht]
  extract_lets p1
  rw [show (d.port p1).op? tag = some o from hop]
  dsimp only
  rw [if_pos ⟨hrun, by rw [hdata]; rfl, by rw [hsent]; rfl, hlate⟩]
  exact Dev.dieGone_dieFailed d hp hdie 0

end

end Sys2Proof.Machine
end

section
/-! ARM_CUT (R237, R266), and what the responses of a bridge do. -/

namespace Sys2Proof.Machine

-- In order, one declaration at a time: keeps the check within its memory limit.
set_option Elab.async false

section
variable {d : Dev} {p : Nat} {o : POp}

/-! ### ARM_CUT -/

theorem Dev.fatal_ok (d : Dev) (p : Nat) {status : Nat} (h : status ≠ 0x0F) : d.fatal p status = d := if_neg h

theorem Dev.fld_outCounts (d : Dev) (p : Nat) {off : Nat} (h : off ≠ Reg.FCH_P_OUT p) (hi lo : Nat) : (d.outCounts p).fld off hi lo = d.fld off hi lo := by
  refine Dev.fld_congr ?_ hi lo
  rw [Dev.outCounts, Dev.reg_setReg_ne _ h]

theorem armMiss_ne (p : Nat) : Reg.DLR_ARM_MISS ≠ Reg.FCH_P_MARKMISS p ∧ Reg.DLR_ARM_MISS ≠ Reg.FCH_P_OUT p := by
  simp only [Reg.DLR_ARM_MISS, Reg.FCH_P_MARKMISS, Reg.FCH_P_OUT]
  omega

/-- A suspension that was not confirmed, on a port without operations, is undone and counted. -/
theorem Dev.susMissed_spec (d : Dev) (die : Nat) (rest : Nat × Nat × Nat) (hops : (d.port p).ops = []) :
    ((d.susMissed p (0x04, die, rest)).port p).susArms = (d.port p).susArms ∧
    ((d.susMissed p (0x04, die, rest)).port p).susOpen.find die = none ∧ ((d.susMissed p (0x04, die, rest)).port p).ops = [] ∧
    (d.susMissed p (0x04, die, rest)).fld Reg.DLR_ARM_MISS 31 0 = min (d.fld Reg.DLR_ARM_MISS 31 0 + 1) 0xFFFFFFFF := by
  unfold Dev.susMissed
  extract_lets d1 die1 k n x1 d2 d3 x y
  have h1 : d1.fld Reg.DLR_ARM_MISS 31 0 = min (d.fld Reg.DLR_ARM_MISS 31 0 + 1) 0xFFFFFFFF := Dev.fld_inc_self _ _ _
  have h2 : d2.port p = { d.port p with susMiss := SMap.set (fun _ => 0) (d1.port p).susMiss k n } := Dev.port_setPort_self d1 p _
  have h2f : d2.fld Reg.DLR_ARM_MISS 31 0 = d1.fld Reg.DLR_ARM_MISS 31 0 := rfl
  clear_value d2
  have h3 : d3.port p = d2.port p ∧ d3.fld Reg.DLR_ARM_MISS 31 0 = d2.fld Reg.DLR_ARM_MISS 31 0 := by
    simp only [d3]
    split
    · exact ⟨Dev.port_of_reports (Dev.Reports.recordErr d2 _ _ _ _) p, Dev.fld_congr (Dev.reg_recordErr d2 _ _ _ _ _) _ _⟩
    · exact ⟨rfl, rfl⟩
  clear_value d3
  have hx : x.ops = [] ∧ x.susArms = (d.port p).susArms := by
    rw [show x = d3.port p from rfl, h3.1, h2]
    exact ⟨hops, rfl⟩
  have hrun : x.running die1 = none := by
    rw [Port.running, hx.1]
    rfl
  have hy : y = x := by simp only [y, hrun]
  rw [if_neg (show (0x04 : Nat) ≠ 0x05 by decide)]
  have hport := Dev.port_setPort_self d3 p { y with susOpen := x.susOpen.erase die1 }
  refine ⟨(congrArg (·.susArms) hport).trans (hy ▸ hx.2), ?_, (congrArg (·.ops) hport).trans (hy ▸ hx.1), ?_⟩
  · rw [hport]
    exact SMap.find_erase_self _ _
  · exact h3.2.trans (h2f.trans h1)

theorem doArmCut_undone (hp : p < 512) {status trick cut : Nat} (hst : status ≠ 0x0F) (ht : trick < 65536) (hops : (d.port p).ops = []) {die tk : Nat}
    (hsus : (d.port p).susArms = [(0x04, die, trick, cut, tk)]) (count : Nat) :
    ((doArmCut p status trick cut false count d).port p).susArms = [] ∧
    ((doArmCut p status trick cut false count d).port p).susOpen.find die = none ∧
    (doArmCut p status trick cut false count d).fld Reg.DLR_ARM_MISS 31 0 = min (d.fld Reg.DLR_ARM_MISS 31 0 + 1) 0xFFFFFFFF := by
  unfold doArmCut
  rw [Nat.mod_eq_of_lt hp]
  extract_lets p1 d1 d2 confirmed x here heard d3 d4 mine d5
  have h1 : d2.port p = d.port p ∧ d2.fld Reg.DLR_ARM_MISS 31 0 = d.fld Reg.DLR_ARM_MISS 31 0 :=
    ⟨Dev.port_bridgeRec d _ _ _ _ p, (Dev.fld_setFld_ne d1 (armMiss_ne p).1 _ _ _ _ _).trans (Dev.fld_congr (Dev.reg_bridgeRec d _ _ _ _ _) _ _)⟩
  have hconf : ∀ n, confirmed n = false := fun n => rfl
  clear_value d2 confirmed
  have hx : x = d.port p := h1.1
  have hhere : here = [(0x04, die, trick, cut, tk)] := by
    simp only [here, hx, hsus, Nat.mod_eq_of_lt ht]
    simp
  have h3 : d3.port p = { x with susArms := [], susMiss := x.susMiss.filter (fun kv => !heard.contains kv.1) } := by
    refine (Dev.port_setPort_self d2 p _).trans ?_
    simp only [hx, hsus, Nat.mod_eq_of_lt ht]
    simp
  have h3f : d3.fld Reg.DLR_ARM_MISS 31 0 = d.fld Reg.DLR_ARM_MISS 31 0 := h1.2
  clear_value d3
  have h4 : d4 = d3.susMissed p1 (0x04, die, trick, cut, tk) := by simp [d4, hhere, hconf]
  have h3o : (d3.port p).ops = [] := by
    rw [h3, hx]
    exact hops
  obtain ⟨harms, hopen, hops4, hmiss⟩ := Dev.susMissed_spec d3 die (trick, cut, tk) h3o
  rw [← h4] at harms hopen hops4 hmiss
  clear_value d4
  have h5 : d5 = d4 := by simp [d5, mine, show (d4.port p1).ops = [] from hops4]
  rw [Dev.fatal_ok _ _ hst, h5]
  refine ⟨?_, hopen, ?_⟩
  · exact harms.trans (by rw [h3])
  · rw [Dev.fld_outCounts _ _ (armMiss_ne p).2, hmiss, h3f]

/-- An armed operation that was not confirmed waits again under a new tag. -/
def Dev.dealtAgain (d : Dev) (p : Nat) (o : POp) : Dev :=
  let x := d.port p
  let t := x.freeTag
  let d := d.setPort p { x with ops := x.ops.map (fun (y : POp) => if y.tag == o.tag then
    { o with tag := t, stage := .waiting, misses := o.misses + 1 } else y), nextTag := (t + 1) % 4096 }
  let d := d.inc Reg.DLR_ARM_MISS 1
  if o.misses + 1 = 2 then d.recordErr 0x701 0x0103 p o.die else d

theorem Dev.dealtAgain_spec (d : Dev) (hops : (d.port p).ops = [o]) :
    ((d.dealtAgain p o).port p).ops.map (fun y => (y.stage, y.misses)) = [(.waiting, o.misses + 1)] ∧
    (d.dealtAgain p o).fld Reg.DLR_ARM_MISS 31 0 = min (d.fld Reg.DLR_ARM_MISS 31 0 + 1) 0xFFFFFFFF := by
  unfold Dev.dealtAgain
  extract_lets x t d1 d2
  have h1 : (d1.port p).ops = [{ o with tag := t, stage := .waiting, misses := o.misses + 1 }] := by
    refine (congrArg (·.ops) (Dev.port_setPort_self d p _)).trans ?_
    rw [show x.ops = [o] from hops]
    simp
  have h2 : d2.port p = d1.port p := rfl
  have h2f : d2.fld Reg.DLR_ARM_MISS 31 0 = min (d.fld Reg.DLR_ARM_MISS 31 0 + 1) 0xFFFFFFFF := Dev.fld_inc_self d1 _ _
  clear_value d2
  have h3 : ∀ e : Dev, e.port p = d2.port p → (e.port p).ops.map (fun y => (y.stage, y.misses)) = [(.waiting, o.misses + 1)] := fun e he => by
    rw [he, h2, h1]
    rfl
  split
  · exact ⟨h3 _ (Dev.port_of_reports (Dev.Reports.recordErr d2 _ _ _ _) p), (Dev.fld_congr (Dev.reg_recordErr d2 _ _ _ _ _) _ _).trans h2f⟩
  · exact ⟨h3 _ rfl, h2f⟩

/-- The one armed operation of a port runs on, confirmed, or is dealt again, by whether the bridge fired. -/
theorem doArmCut_row (hp : p < 512) {status trick cut : Nat} (hst : status ≠ 0x0F) (ht : trick < 65536) (hcut : cut < 4096) (hops : (d.port p).ops = [o])
    (harmed : o.stage = .armed) (htrick : o.trick = trick) (hseq : o.seq = cut) (hsus : ∀ a ∈ (d.port p).susArms, a.2.2.1 ≠ trick) (fired : Bool) (count : Nat) :
    ∃ e : Dev, (e.port p).ops = [o] ∧ e.tick = d.tick ∧ e.fld Reg.DLR_ARM_MISS 31 0 = d.fld Reg.DLR_ARM_MISS 31 0 ∧
      doArmCut p status trick cut fired count d =
        (if fired then e.setPortOp p { o with stage := .running, start := e.tick } else e.dealtAgain p o).outCounts p := by
  unfold doArmCut
  rw [Nat.mod_eq_of_lt hp]
  extract_lets p1 d1 d2 confirmed x here heard d3 d4 mine d5
  have hd1 : d1.port p = d.port p ∧ d1.tick = d.tick ∧ d1.fld Reg.DLR_ARM_MISS 31 0 = d.fld Reg.DLR_ARM_MISS 31 0 := by
    refine ⟨Dev.port_bridgeRec d _ _ _ _ p, ?_, Dev.fld_congr (Dev.reg_bridgeRec d _ _ _ _ _) _ _⟩
    rw [show d1.tick = (d.bridgeRec p1 _ _ _).tick from rfl, Dev.bridgeRec_eq]
  clear_value d1
  have h2 : d2.port p = d1.port p ∧ d2.tick = d1.tick ∧ d2.fld Reg.DLR_ARM_MISS 31 0 = d1.fld Reg.DLR_ARM_MISS 31 0 := by
    simp only [d2]
    split
    · exact ⟨rfl, rfl, rfl⟩
    · exact ⟨rfl, rfl, Dev.fld_setFld_ne d1 (armMiss_ne p).1 _ _ _ _ _⟩
  clear_value d2
  have hconf : confirmed cut = fired := by
    simp only [confirmed, Nat.mod_eq_of_lt hcut, Nat.add_sub_cancel_left, Nat.mod_self]
    simp
  clear_value confirmed
  have hx : x = d.port p := h2.1.trans hd1.1
  have hhere : here = [] := by
    simp only [here, hx, Nat.mod_eq_of_lt ht, List.filter_eq_nil_iff, beq_iff_eq]
    exact hsus
  have h3 : (d3.port p).ops = [o] := (congrArg (·.ops) (Dev.port_setPort_self d2 p _)).trans (by
    show x.ops = _
    rw [hx, hops])
  have h3t : d3.tick = d.tick ∧ d3.fld Reg.DLR_ARM_MISS 31 0 = d.fld Reg.DLR_ARM_MISS 31 0 := ⟨h2.2.1.trans hd1.2.1, h2.2.2.trans hd1.2.2⟩
  clear_value d3
  have h4 : d4 = d3 := by simp [d4, hhere]
  have hmine : mine = [o] := by simp [mine, h4, show (d3.port p1).ops = [o] from h3, harmed, htrick, Nat.mod_eq_of_lt ht]
  refine ⟨d3, h3, h3t.1, h3t.2, ?_⟩
  have h5 : d5 = if fired then d3.setPortOp p { o with stage := .running, start := d3.tick } else d3.dealtAgain p o := by
    have hone : d5 = if confirmed o.seq then d3.setPortOp p { o with stage := .running, start := d3.tick } else d3.dealtAgain p o := by
      simp only [d5, hmine, h4, List.foldl_cons, List.foldl_nil]
      rfl
    rw [hone, hseq, hconf]
  rw [Dev.fatal_ok _ _ hst, h5]

theorem doArmCut_op (hp : p < 512) {status trick cut : Nat} (hst : status ≠ 0x0F) (ht : trick < 65536) (hcut : cut < 4096) (hops : (d.port p).ops = [o])
    (harmed : o.stage = .armed) (htrick : o.trick = trick) (hseq : o.seq = cut) (hsus : ∀ a ∈ (d.port p).susArms, a.2.2.1 ≠ trick) (count : Nat) :
    ((doArmCut p status trick cut true count d).port p).ops = [{ o with stage := .running, start := d.tick }] ∧
    ((doArmCut p status trick cut false count d).port p).ops.map (fun y => (y.stage, y.misses)) = [(.waiting, o.misses + 1)] ∧
    (doArmCut p status trick cut false count d).fld Reg.DLR_ARM_MISS 31 0 = min (d.fld Reg.DLR_ARM_MISS 31 0 + 1) 0xFFFFFFFF := by
  obtain ⟨e, he, htick, -, hrun⟩ := doArmCut_row hp hst ht hcut hops harmed htrick hseq hsus true count
  obtain ⟨e', he', -, hmiss, hagain⟩ := doArmCut_row hp hst ht hcut hops harmed htrick hseq hsus false count
  obtain ⟨hstage, hcount⟩ := Dev.dealtAgain_spec e' he'
  rw [hrun, hagain, if_pos rfl, if_neg (by decide)]
  refine ⟨?_, hstage, ?_⟩
  · rw [Dev.port_outCounts]
    refine (congrArg (·.ops) (Dev.port_setPort_self e p _)).trans ?_
    rw [Port.setOp, he, htick]
    simp
  · rw [Dev.fld_outCounts _ _ (armMiss_ne p).2, hcount, hmiss]

end

/-- Settles O32: each response changes its port, its die and its operation as the tables give, and the registers that show it. -/
theorem responsesArrive : Obligations.ResponsesArrive := by
  intro s p r o hrun hp ht
  have hact : ∀ f, act s f = .next { s with dev := f s.dev } := fun f => act_of_running s f hrun
  refine ⟨fun hst hop hstage htwin hdata => ⟨?_, ?_, ?_⟩, ?_, ?_, ?_, ?_, ?_, ?_, ?_, ?_, ?_, ?_⟩
  · intro hopc hmine horphan mask soft content
    exact ⟨_, hact _, doRdata_spec hp ht hst hmine horphan hop hstage hdata hopc mask soft content⟩
  · intro hopc hmine horphan ns sus pg hbuf
    exact ⟨_, hact _, doDone_programmed hp ht hst hmine horphan hop hstage htwin hopc hbuf ns sus⟩
  · intro hopc hmine horphan ns sus
    exact ⟨_, hact _, fun pg hpg => doDone_erased hp ht hst hmine horphan hop hstage htwin hopc ns sus hpg⟩
  · intro hst hop hstage htwin hopc hsrc hmine horphan herr ns sus
    exact ⟨_, hact _, doDone_failed hp ht hst hmine horphan hop hstage htwin hopc hsrc herr ns sus⟩
  · intro die st sus lastTag lastSt temp info hdie hr
    exact ⟨_, hact _, doStatus_spec hp hdie hr st sus lastTag lastSt temp info⟩
  · intro holder fence
    exact ⟨_, hact _, doOwn_spec s.dev hp r holder fence⟩
  · intro hr
    exact ⟨_, hact _, doPower_off s.dev hp hr⟩
  · intro hr htag hmode stamp errors rtt
    exact ⟨_, hact _, doTest_pattern s.dev hp hr htag hmode stamp errors rtt⟩
  · intro hr htag hmode stamp errors rtt
    exact ⟨fun hlen => ⟨_, hact _, doTest_trip s.dev hp hr htag hmode hlen stamp errors rtt⟩,
      fun hlen => ⟨_, hact _, doTest_median s.dev hp hr htag hmode hlen stamp errors rtt⟩⟩
  · intro status trick cut count hst htrick _ hops die tk hsus
    exact ⟨_, hact _, doArmCut_undone hp hst htrick hops hsus count⟩
  · intro status trick cut count hst hlt hcut hops harmed htrick hseq hsus
    obtain ⟨hrunning, hagain⟩ := doArmCut_op hp hst hlt hcut hops harmed htrick hseq hsus count
    exact ⟨⟨_, hact _, hrunning⟩, ⟨_, hact _, hagain⟩⟩
  · intro hr herr hop hopc
    exact ⟨_, hact _, doRefuse_busy s.dev hp hr ht herr hop hopc⟩
  · intro hop hstage hdata hsent hdie hlate
    exact ⟨_, hact _, doDieResponseTimeout_spec s.dev hp ht hop hstage hdata hsent hdie hlate⟩

end Sys2Proof.Machine
end

section
/-! FORMAT and firmware cores that fail (R26, R27, R77, R210, R323, R438). -/

namespace Sys2Proof.Machine

-- In order, one declaration at a time: keeps the check within its memory limit.
set_option Elab.async false

/-! ### What the sums of a shelf leave of it -/

/-- The registers that a FORMAT sets the shelf's totals in. -/
def totalRegs : List Nat := [Reg.MAP_BANDS_FMT, Reg.MAP_CLOG_LO, Reg.MAP_CLOG_HI, Reg.SHF_RB_SPACE_FMT]

/-- From `d` to `t` the shelf's contents and its totals stand. -/
structure Dev.Tallies (d t : Dev) : Prop where
  shelf : (t.map, t.bands, t.cache, t.flash, t.bmDirty, t.nvm, t.spareFmt, t.rebuildFmt) =
    (d.map, d.bands, d.cache, d.flash, d.bmDirty, d.nvm, d.spareFmt, d.rebuildFmt)
  regs : ∀ off ∈ totalRegs, t.reg off = d.reg off

section
variable {d e t : Dev}

theorem Dev.Tallies.refl (d : Dev) : d.Tallies d := ⟨rfl, fun _ _ => rfl⟩

theorem Dev.Tallies.trans (h : d.Tallies e) (h' : e.Tallies t) : d.Tallies t :=
  ⟨h'.shelf.trans h.shelf, fun off ho => (h'.regs off ho).trans (h.regs off ho)⟩

theorem Dev.Tallies.ite {c : Prop} [Decidable c] (h : d.Tallies e) (h' : d.Tallies t) : d.Tallies (if c then e else t) := by
  split
  · exact h
  · exact h'

theorem Dev.Tallies.foldl {α : Type} {f : Dev → α → Dev} {l : List α} (h : ∀ (e : Dev), ∀ x ∈ l, e.Tallies (f e x)) (d : Dev) : d.Tallies (l.foldl f d) :=
  List.foldlRecOn (motive := fun e : Dev => d.Tallies e) l f (.refl d) (fun e he x hx => he.trans (h e x hx))

theorem Dev.Tallies.setReg {off : Nat} (hoff : off ∉ totalRegs) (v : Word) : d.Tallies (d.setReg off v) :=
  ⟨rfl, fun _ ho => Dev.reg_setReg_ne d (ne_of_mem_of_not_mem ho hoff) v⟩

theorem Dev.Tallies.setFld {off : Nat} (d : Dev) (hoff : off ∉ totalRegs) (hi lo v : Nat) : d.Tallies (d.setFld off hi lo v) := .setReg hoff _

theorem Dev.Tallies.setFlag {off : Nat} (d : Dev) (hoff : off ∉ totalRegs) (n : Nat) (b : Bool) : d.Tallies (d.setFlag off n b) := .setReg hoff _

theorem Dev.Tallies.of_reports (h : d.Reports t) : d.Tallies t := by
  refine ⟨?_, fun off ho => h.regs off ?_⟩
  · have hk := h.kept
    exact Prod.ext (congrArg (·.map) hk) (Prod.ext (congrArg (·.bands) hk) (Prod.ext (congrArg (·.cache) hk) (Prod.ext (congrArg (·.flash) hk)
      (Prod.ext (congrArg (·.bmDirty) hk) (Prod.ext (congrArg (·.nvm) hk) (Prod.ext (congrArg (·.spareFmt) hk) (congrArg (·.rebuildFmt) hk)))))))
  · exact (show ∀ o ∈ totalRegs, o ∉ reportRegs by decide) off ho

theorem Dev.Tallies.raise (d : Dev) (pg bit : Nat) : d.Tallies (d.raise pg bit) := .of_reports (Dev.Reports.raise d pg bit)

/-- Neither the shelf nor a register is touched. -/
theorem Dev.Tallies.plain (hs : (t.map, t.bands, t.cache, t.flash, t.bmDirty, t.nvm, t.spareFmt, t.rebuildFmt) =
    (d.map, d.bands, d.cache, d.flash, d.bmDirty, d.nvm, d.spareFmt, d.rebuildFmt) := by rfl) (hr : t.regs = d.regs := by rfl) : d.Tallies t :=
  ⟨hs, fun off _ => by rw [Dev.reg, hr, Dev.reg]⟩

theorem Dev.Tallies.sendGulon (d : Dev) (kind : Nat) (fs : Fields) : d.Tallies (d.sendGulon kind fs) := by
  have hk := (Dev.Messages.sendGulon d kind fs).kept
  refine ⟨?_, fun off ho => (Dev.Messages.sendGulon d kind fs).regs off ((show ∀ o ∈ totalRegs, o ∉ messageRegs by decide) off ho)⟩
  exact Prod.ext (congrArg (·.map) hk) (Prod.ext (congrArg (·.bands) hk) (Prod.ext (congrArg (·.cache) hk) (Prod.ext (congrArg (·.flash) hk)
    (Prod.ext (congrArg (·.bmDirty) hk) (Prod.ext (congrArg (·.nvm) hk) (Prod.ext (congrArg (·.spareFmt) hk) (congrArg (·.rebuildFmt) hk)))))))

theorem Dev.Tallies.respace (d : Dev) : d.Tallies d.respace := by
  unfold Dev.respace
  extract_lets bs withdrawn nS nMeta nQ nSlc d1 d2 d3 d4 d5 d6 d7 d8 cLog d9 old new d10 d11 d12
  have h8 : d.Tallies d8 := ((((((((Dev.Tallies.setFld d (off := Reg.MAP_BANDS) (by decide) _ _ _).trans
    (.setFld d1 (off := Reg.MAP_META) (by decide) _ _ _)).trans (.setFld d2 (off := Reg.MAP_QLC_USED) (by decide) _ _ _)).trans
    (.setFld d3 (off := Reg.MAP_SLC_USED) (by decide) _ _ _)).trans (.setFld d4 (off := Reg.MAP_FQ) (by decide) _ _ _)).trans
    (.setFld d5 (off := Reg.MAP_WM_BG) (by decide) _ _ _)).trans (.setFld d6 (off := Reg.MAP_WM_FG) (by decide) _ _ _)).trans
    (.setFld d7 (off := Reg.MAP_WM_HARD) (by decide) _ _ _))
  have h9 : d8.Tallies d9 := (Dev.Tallies.setReg (off := Reg.MAP_LIMIT_LO) (by decide) _).trans (.setReg (off := Reg.MAP_LIMIT_HI) (by decide) _)
  have h10 : d9.Tallies d10 := .ite .plain (.refl d9)
  have h11 : d10.Tallies d11 := .setReg (off := Reg.MAP_GC_CREDIT) (by decide) _
  have h12 : d11.Tallies d12 := (Dev.Tallies.setFld d11 (off := Reg.MAP_GC_STS) (by decide) _ _ _).trans (.setFld _ (by decide) _ _ _)
  have hall := (((h8.trans h9).trans h10).trans h11).trans h12
  exact .ite hall (hall.trans (.raise d12 _ _))

theorem Dev.Tallies.kitty (d : Dev) : d.Tallies d.kitty :=
  (Dev.Tallies.setFld d (off := Reg.SHF_RB_SPACE) (by decide) _ _ _).trans (.setFlag _ (off := Reg.SHF_RB_STS) (by decide) _ _)

theorem Dev.Tallies.rbCounts (d : Dev) : d.Tallies d.rbCounts := by
  unfold Dev.rbCounts
  extract_lets ps n d1 d2 d3
  exact (((((Dev.Tallies.setFld d (off := Reg.SHF_RB_Q1) (by decide) _ _ _).trans (.setFld d1 (off := Reg.SHF_RB_Q2) (by decide) _ _ _)).trans
    (.setFld d2 (off := Reg.SHF_RB_Q3) (by decide) _ _ _)).trans (.setFld d3 (off := Reg.SHF_RB_STS) (by decide) _ _ _)).trans
    (.setFlag _ (off := Reg.SHF_RB_STS) (by decide) _ _))

theorem Dev.Tallies.peCounts (d : Dev) : d.Tallies d.peCounts := by
  unfold Dev.peCounts
  extract_lets n es lo d1
  have h1 : d.Tallies d1 := (Dev.Tallies.setFld d (off := Reg.MAP_PE_MAX) (by decide) _ _ _).trans (.setFld _ (off := Reg.MAP_PE_MIN) (by decide) _ _ _)
  exact .ite h1 (h1.trans (.setFld d1 (off := Reg.ECC_PE_MEAN) (by decide) _ _ _))

theorem Dev.Tallies.ports (d : Dev) : d.Tallies (d.fchCounts.diesCount) := by
  unfold Dev.fchCounts Dev.diesCount
  extract_lets n d1 d2
  exact (((Dev.Tallies.setFld d (off := Reg.FCH_C_UP) (by decide) _ _ _).trans (.setFld d1 (off := Reg.FCH_C_FAILED) (by decide) _ _ _)).trans
    (.setFld d2 (off := Reg.FCH_C_HANDED) (by decide) _ _ _)).trans (.setFld _ (off := Reg.FCH_C_DIES) (by decide) _ _ _)

theorem Dev.Tallies.sliceSums (d : Dev) : d.Tallies d.sliceSums := by
  have htrump : ∀ e : Dev, e.Tallies e.trumpSum := fun e => by
    unfold Dev.trumpSum
    extract_lets n was e1
    have h1 : e.Tallies e1 := .setReg (off := Reg.DLR_TSUM) (by decide) _
    exact .ite (h1.trans (.raise e1 _ _)) h1
  unfold Dev.sliceSums
  extract_lets bound d1 d2
  exact (((Dev.Tallies.setFld d (off := Reg.VSL_SHARE_SUM) (by decide) _ _ _).trans (.setFld d1 (off := Reg.VSL_PIN_SUM) (by decide) _ _ _)).trans
    (.setFld d2 (off := Reg.VSL_BOUND) (by decide) _ _ _)).trans (htrump _)

theorem Dev.Tallies.crCounts (d : Dev) : d.Tallies d.crCounts := by
  have hcr : ∀ n ∈ List.range 10, Reg.STK_CR_USED n ∉ totalRegs := by
    intro n hn
    have hlt := List.mem_range.mp hn
    simp only [totalRegs, List.mem_cons, List.not_mem_nil, or_false, Reg.STK_CR_USED, Reg.MAP_BANDS_FMT, Reg.MAP_CLOG_LO, Reg.MAP_CLOG_HI,
      Reg.SHF_RB_SPACE_FMT]
    omega
  have hclasses : d.Tallies ((List.range 10).foldl (fun d c => d.setFld (Reg.STK_CR_USED c) 23 0 (d.crUsed c)) d) :=
    .foldl (fun e c hc => .setFld e (hcr c hc) _ _ _) _
  unfold Dev.crCounts
  extract_lets d1 d2
  exact ((hclasses.trans (.setFld d1 (off := Reg.STK_POOL) (by decide) _ _ _)).trans (.setFld d2 (off := Reg.STK_SHARED) (by decide) _ _ _)).trans
    (.setFld _ (off := Reg.STK_SHARED) (by decide) _ _ _)

theorem Dev.Tallies.recount (d : Dev) : d.Tallies d.recount := by
  have hresize : ∀ (e : Dev) n, e.Tallies (e.resizeCache n) := fun e n =>
    (((Dev.Tallies.setFld e (off := Reg.STK_PWC_SLOTS) (by decide) _ _ _).trans (.setFld _ (off := Reg.STK_PWC_THR) (by decide) _ _ _)).trans
      (.setFld _ (off := Reg.STK_PWC_RES) (by decide) _ _ _)).trans (.setFlag _ (off := Reg.STK_PWC_STS) (by decide) _ _)
  have hvalid : ∀ e : Dev, e.Tallies e.revalid := fun e =>
    (Dev.Tallies.setReg (off := Reg.MAP_VALID_LO) (by decide) _).trans (.setReg (off := Reg.MAP_VALID_HI) (by decide) _)
  unfold Dev.recount
  extract_lets d1 d2 d3 d4 d5
  have h1 : d.Tallies d1 := (Dev.Tallies.setFld d (off := Reg.MAP_DLOG_USED) (by decide) _ _ _).trans
    (.setFld _ (off := Reg.MAP_CACHE_DIRTY) (by decide) _ _ _)
  have h2 : d1.Tallies d2 := (hresize d1 _).trans (hvalid _)
  have h3 : d2.Tallies d3 := ((((Dev.Tallies.respace d2).trans (.kitty _)).trans (.rbCounts _)).trans (.peCounts _)).trans (.ports _)
  have h4 : d3.Tallies d4 := ((Dev.Tallies.sliceSums d3).trans (.setFld _ (off := Reg.SHF_BM_DIRTY) (by decide) _ _ _)).trans (.crCounts _)
  have h5 : d4.Tallies d5 := (Dev.Tallies.setFld d4 (off := Reg.SCP_INC_STS) (by decide) _ _ _).trans (.setFlag _ (off := Reg.SCP_INC_STS) (by decide) _ _)
  exact ((((h1.trans h2).trans h3).trans h4).trans h5).trans (.setFlag d5 (off := Reg.STK_PWC_STS) (by decide) _ _)

theorem Dev.Tallies.healthEval (d : Dev) : d.Tallies d.healthEval := by
  have hlevel : ∀ (e : Dev) n, e.Tallies (e.levelChange n) := fun e n => by
    unfold Dev.levelChange
    extract_lets old e1 e2 e3 e4
    have h1 : e.Tallies e1 := (Dev.Tallies.setFld e (off := Reg.GLB_DEV_STS) (by decide) _ _ _).trans (.of_reports (Dev.Reports.incident _ _ _ _ _ _ _ _ _))
    have h2 : e1.Tallies e2 := .plain
    have h3 : e2.Tallies e3 := .plain
    have h4 : e3.Tallies e4 := .ite .plain (.refl e3)
    have hall := ((h1.trans h2).trans h3).trans h4
    refine .ite (.refl e) (.ite (hall.trans ?_) hall)
    exact Dev.Tallies.trans .plain (.foldl (fun x s _ => .plain) _)
  unfold Dev.healthEval
  extract_lets new d1
  have h1 : d.Tallies d1 := Dev.Tallies.trans (.ite (.refl d) .plain) (hlevel _ _)
  exact .ite (.refl d) (.ite h1 (h1.trans (.ite (.sendGulon d1 _ _) (.refl d1))))

/-! ### FORMAT -/

/-- The block sets of a share go by the pages, the die geometry and the state of the ports. -/
theorem Dev.formSets_congr (hpage : t.pages = d.pages)
    (hreg : ∀ off, 0x800000 ≤ off ∧ off < 0xA00000 ∨ off = Reg.GLB_STRAP ∨ off = Reg.PWR_FAIL_STS → t.reg off = d.reg off) :
    t.formSets t.rebuildBlocks = d.formSets d.rebuildBlocks := by
  have hport : ∀ p < 512, ∀ k < 0x1000, t.reg (0x800000 + k + 0x1000 * p) = d.reg (0x800000 + k + 0x1000 * p) := fun p hp k hk =>
    hreg _ (.inl (by omega))
  have hgone : ∀ p < 512, t.portGone p = d.portGone p := fun p hp => by
    have hsts : t.reg (Reg.FCH_P_STS p) = d.reg (Reg.FCH_P_STS p) := hport p hp 0x100 (by decide)
    rw [Dev.portGone, Dev.portGone, Dev.portOut, Dev.portOut, Dev.flag_congr hsts, Dev.flag_congr hsts, Dev.dumping, Dev.dumping,
      Dev.flag_congr (hreg Reg.PWR_FAIL_STS (by simp)), Dev.page, Dev.page, hpage]
  have hdies : ∀ p < 512, t.diesOf p = d.diesOf p := fun p hp => by
    have hlo : t.reg (Reg.FCH_P_DIES_LO p) = d.reg (Reg.FCH_P_DIES_LO p) := hport p hp 0x104 (by decide)
    have hhi : t.reg (Reg.FCH_P_DIES_HI p) = d.reg (Reg.FCH_P_DIES_HI p) := hport p hp 0x108 (by decide)
    simp only [Dev.diesOf, Dev.flag_congr hlo, Dev.flag_congr hhi]
  have hblocks : ∀ p < 512, t.rebuildBlocks p = d.rebuildBlocks p := fun p hp => by
    have hgeom : t.reg (Reg.FCH_P_GEOM p) = d.reg (Reg.FCH_P_GEOM p) := hport p hp 0x118 (by decide)
    rw [Dev.rebuildBlocks, Dev.rebuildBlocks, Dev.dieBlocks, Dev.dieBlocks, Dev.fld_congr hgeom, Dev.diesPerPort, Dev.diesPerPort,
      Dev.flag_congr (hreg Reg.GLB_STRAP (by simp))]
  have hon : (List.range 512).filter (fun p => !t.portGone p) = (List.range 512).filter (fun p => !d.portGone p) :=
    List.filter_congr (fun p hp => by rw [hgone p (List.mem_range.mp hp)])
  unfold Dev.formSets
  rw [hon]
  refine congrArg sumL (List.map_congr_left (fun p hp => ?_))
  have hlt := List.mem_range.mp (List.mem_filter.mp hp).1
  rw [hdies p hlt, hblocks p hlt]

theorem doFormat_spec (d : Dev) (n : Nat) (bm : Nat × Nat × Nat) :
    (doFormat n bm d).fld Reg.MAP_BANDS_FMT 22 0 = n % 2 ^ 23 ∧ (doFormat n bm d).map = [] ∧ (doFormat n bm d).bands = [] ∧
    (doFormat n bm d).cache = [] ∧ (doFormat n bm d).flash = [] ∧ (doFormat n bm d).bmDirty = [] ∧ (doFormat n bm d).nvm.formatted = true ∧
    (doFormat n bm d).spareFmt = d.formSets d.spareBlocks * setBytes ∧ (doFormat n bm d).rebuildFmt = d.formSets d.rebuildBlocks * setBytes ∧
    (doFormat n bm d).get64 Reg.MAP_CLOG_LO Reg.MAP_CLOG_HI = 5 * (n % 2 ^ 23) * bandGranules / 8 ∧
    (doFormat n bm d).reg Reg.SHF_RB_SPACE_FMT = w32 (d.formSets d.rebuildBlocks) := by
  unfold doFormat
  extract_lets n1 seed d0 cap nvm d1 d2 d3 d4 b d5 d6 d7 d8
  have h0 : d0.pages = d.pages ∧ d0.regs = d.regs := by
    have hcap : ∀ e : Dev, e.drawn.pages = e.pages ∧ e.drawn.regs = e.regs := fun _ => ⟨rfl, rfl⟩
    refine ⟨(hcap _).1.trans ?_, (hcap _).2.trans ?_⟩ <;> rw [Dev.capRec_eq]
  have h1 : d1.pages = d0.pages ∧ d1.regs = d0.regs := ⟨rfl, rfl⟩
  have hshelf : (d1.map, d1.bands, d1.cache, d1.flash, d1.bmDirty, d1.nvm, d1.spareFmt, d1.rebuildFmt) =
    ([], [], [], [], [], { d.nvm with formatted := true }, d.formSets d.spareBlocks * setBytes, d.formSets d.rebuildBlocks * setBytes) := rfl
  clear_value d0 d1
  have hreg1 : ∀ off, d1.reg off = d.reg off := fun off => by rw [Dev.reg, h1.2, h0.2, Dev.reg]
  have hcong : d2.formSets d2.rebuildBlocks = d.formSets d.rebuildBlocks := by
    refine Dev.formSets_congr (h1.1.trans h0.1) (fun off ho => Eq.trans ?_ (hreg1 off))
    have hne : off ≠ Reg.SHF_SEED ∧ off ≠ Reg.MAP_BANDS_FMT ∧ off ≠ Reg.MAP_CLOG_LO ∧ off ≠ Reg.MAP_CLOG_HI := by
      refine ⟨?_, ?_, ?_, ?_⟩
      all_goals
        rintro rfl
        rcases ho with ho | ho | ho <;> exact absurd ho (by decide)
    exact (Dev.reg_set64_ne _ hne.2.2.1 hne.2.2.2 _).trans ((Dev.reg_setReg_ne _ hne.2.1 _).trans (Dev.reg_setReg_ne _ hne.1 _))
  have h2f : d2.fld Reg.MAP_BANDS_FMT 22 0 = n1 := by
    refine (Dev.fld_congr (Dev.reg_set64_ne _ (by decide) (by decide) _) 22 0).trans ?_
    rw [Dev.fld, Dev.reg_setReg_self, bits_w32 _ _ _ (by decide)]
    simp only [n1]
    omega
  have h2c : d2.get64 Reg.MAP_CLOG_LO Reg.MAP_CLOG_HI = 5 * n1 * bandGranules / 8 := by
    refine Dev.get64_set64 _ (by decide) ?_
    have hn : n1 < 2 ^ 23 := Nat.mod_lt n (by decide)
    simp only [bandGranules]
    omega
  have h2s : (d2.map, d2.bands, d2.cache, d2.flash, d2.bmDirty, d2.nvm, d2.spareFmt, d2.rebuildFmt) = _ := hshelf
  clear_value d2
  have h4 : (d2.setReg Reg.SHF_RB_SPACE_FMT (w32 (d2.formSets d2.rebuildBlocks))).Tallies d4 :=
    ((Dev.Tallies.setReg (off := Reg.SHF_BM_PORT 0) (by decide) _).trans (.setReg (off := Reg.SHF_BM_PORT 1) (by decide) _)).trans
      (.setReg (off := Reg.SHF_BM_PORT 2) (by decide) _)
  have h8 : d4.Tallies d8 := by
    have h5 : d4.Tallies d5 := .foldl (fun e x _ => .plain) _
    have h6 : d5.Tallies d6 := ((Dev.Tallies.setReg (off := Reg.MAP_RETIRED) (by decide) _).trans
      (.setFld _ (off := Reg.ECC_QUAL_FAIL) (by decide) _ _ _)).trans (.setReg (off := Reg.PWR_DUMP_SEQ) (by decide) _)
    have h7 : d6.Tallies d7 := (Dev.Tallies.setFld d6 (off := Reg.STK_PWC_USED) (by decide) _ _ _).trans (.setReg (off := Reg.SHF_BM_COPIES) (by decide) _)
    exact ((h5.trans h6).trans h7).trans (.recount d7)
  have hend : d8.Tallies ({ d8 with conds := [] }.pwCount.healthEval) := by
    have hpw : ∀ e : Dev, e.Tallies e.pwCount := fun e => .setFld e (off := Reg.HIF_PWIN_DIRTY) (by decide) _ _ _
    exact (Dev.Tallies.trans (.plain) (hpw _)).trans (.healthEval _)
  have hall := (h4.trans h8).trans hend
  have hmem : Reg.MAP_BANDS_FMT ∈ totalRegs ∧ Reg.MAP_CLOG_LO ∈ totalRegs ∧ Reg.MAP_CLOG_HI ∈ totalRegs ∧ Reg.SHF_RB_SPACE_FMT ∈ totalRegs := by decide
  generalize ({ d8 with conds := [] } : Dev).pwCount.healthEval = t at hall
  have hs := hall.shelf.trans h2s
  simp only [Prod.mk.injEq] at hs
  obtain ⟨hmap, hbands, hcache, hflash, hdirty, hnvm, hspare, hrebuild⟩ := hs
  refine ⟨?_, hmap, hbands, hcache, hflash, hdirty, congrArg (·.formatted) hnvm, hspare, hrebuild, ?_, ?_⟩
  · exact (Dev.fld_congr ((hall.regs _ hmem.1).trans (Dev.reg_setReg_ne _ (by decide) _)) _ _).trans h2f
  · rw [Dev.get64, Dev.fld_congr ((hall.regs _ hmem.2.1).trans (Dev.reg_setReg_ne _ (by decide) _)),
      Dev.fld_congr ((hall.regs _ hmem.2.2.1).trans (Dev.reg_setReg_ne _ (by decide) _))]
    exact h2c
  · rw [hall.regs _ hmem.2.2.2, Dev.reg_setReg_self, hcong]

/-! ### Firmware cores (R26) -/

/-- A core that fails again leaves service. -/
theorem Dev.coreFail_again (d : Dev) {c : Nat} (hc : c < 68) (hout : c ∉ d.coresOut) {again : Bool} (h : again = true ∨ c ∈ d.coresHit) :
    c ∈ (d.coreFail c again).coresOut := by
  unfold Dev.coreFail
  rw [Nat.mod_eq_of_lt hc]
  extract_lets c1 d1
  have h1 : c ∈ d1.coresOut := mem_insertSorted
  rw [if_neg (by simpa using hout), if_pos (by simpa using h)]
  split
  · exact h1
  · unfold Dev.exhaust
    split
    · exact h1
    · have hkept := congrArg (·.coresOut) (Dev.Reports.incident { d1 with exhausted := insertSorted d1.exhausted 4 } 0 0x0101 4 0 none none none none).kept
      exact (congrArg (c ∈ ·) hkept).mpr h1

/-- A core that fails for the first time restarts. -/
theorem Dev.coreFail_first (d : Dev) {c : Nat} (hc : c < 68) (hout : c ∉ d.coresOut) (hhit : c ∉ d.coresHit) :
    d.coreFail c false = { d with coresHit := insertSorted d.coresHit c } := by
  unfold Dev.coreFail
  rw [Nat.mod_eq_of_lt hc]
  extract_lets c1 d1
  rw [if_neg (by simpa using hout), if_neg (by simpa using hhit)]

end

/-- Settles O54: FORMAT's record of the empty shelf stands through the sums drawn from it, and a core's two failures are its restart and its end. -/
theorem formatAndCores : Obligations.FormatAndCores := by
  intro s hrun
  obtain ⟨hlost, -, hpg⟩ := id hrun
  refine ⟨fun n bm hdump => ⟨{ s with dev := doFormat n bm s.dev, window := [] }, ?_, ?_⟩, fun c again hc hout => ⟨fun h => ?_, fun hfirst hhit => ?_⟩⟩
  · show execFormat n bm s = _
    unfold execFormat
    rw [if_neg (by rw [hlost]; decide), if_pos (by rw [hpg, hdump]; rfl)]
  · obtain ⟨hfmt, hmap, hbands, hcache, hflash, hdirty, hnvm, hspare, hrebuild, hclog, hspace⟩ := doFormat_spec s.dev n bm
    exact ⟨hfmt, hmap, hbands, hcache, hflash, hdirty, hnvm, hspare, hrebuild, hclog, hspace, rfl, rfl⟩
  · exact ⟨_, act_of_running s _ hrun, Dev.coreFail_again s.dev hc hout h⟩
  · have hone := Dev.coreFail_first s.dev hc hout hhit
    refine ⟨_, act_of_running s _ hrun, ?_⟩
    subst hfirst
    rw [show doFirmwareCoreFail c false s.dev = _ from hone]
    exact ⟨mem_insertSorted, rfl⟩

end Sys2Proof.Machine
end

section
/-! Release, the open-band scan and READY (R405, R499 to R503). -/

namespace Sys2Proof.Machine

-- In order, one declaration at a time: keeps the check within its memory limit.
set_option Elab.async false

section
variable {d e t : Dev}

/-! ### Map changes -/

theorem Dev.map_makeResident (d : Dev) (pk : Nat) : (d.makeResident pk).map = d.map := by
  unfold Dev.makeResident
  split
  · rfl
  · extract_lets d1
    show d1.map = d.map
    simp only [d1]
    split <;> rfl

theorem Dev.map_putEnt (d : Dev) (s g : Nat) (e : MapEnt) : (d.putEnt s g e).map = SMap.set (fun _ => MapEnt.reset) d.map (granKey s g) e := by
  unfold Dev.putEnt
  extract_lets pk d1 d2 d3 d4
  have h3 : d3.map = d1.map := (Dev.map_makeResident d2 pk).trans rfl
  have h4 : d4.map = d3.map := by
    simp only [d4]
    split <;> rfl
  exact h4.trans h3

theorem Dev.map_dropVers (d : Dev) (q : Ver → Bool) : (d.dropVers q).map = d.map := by
  unfold Dev.dropVers
  extract_lets gone d1 d2 d3
  split
  · rfl
  · split <;> rfl

/-- A journal record for the twin leaves the map and the changes that wait. -/
theorem Dev.map_journal (d : Dev) (b : JBatch) : (d.journal b).map = d.map ∧ (d.journal b).mapPend = d.mapPend := by
  unfold Dev.journal
  split
  · have hk := (Dev.Messages.sendGulon d 0x12 b.fs).kept
    exact ⟨congrArg (·.map) hk, congrArg (·.mapPend) hk⟩
  · exact ⟨rfl, rfl⟩

/-- Posting a map change leaves the pairing state. -/
theorem Dev.paired_of_posts (h : d.Posts t) : t.paired = d.paired := by
  have hreg : t.reg Reg.TWN_STS = d.reg Reg.TWN_STS := h.regs _ (by decide)
  have hprev : t.gPrev = d.gPrev := congrArg (·.gPrev) h.kept
  rw [Dev.paired, Dev.paired, Dev.twin, Dev.twin, Dev.fld_congr hreg, hprev]

theorem Dev.Posts.mapChange (d : Dev) (x : MapChg) : d.Posts (d.mapChange x) := by
  unfold Dev.mapChange
  extract_lets d1
  have h1 : d.Posts d1 := Dev.Posts.journal d _
  exact .ite (h1.trans (.hidden rfl rfl rfl)) (h1.trans (Dev.Posts.applyEnt d1 x))

/-- While PAIRED a map change waits, and the map stands. -/
theorem Dev.mapChange_paired (d : Dev) (x : MapChg) (hpair : d.paired = true) : (d.mapChange x).map = d.map ∧
    ∃ n, (d.mapChange x).mapPend = d.mapPend ++ [{ x with mnum := n }] := by
  unfold Dev.mapChange
  extract_lets d1
  have hpost : d.Posts d1 := Dev.Posts.journal d _
  obtain ⟨hmap, hpend⟩ : d1.map = d.map ∧ d1.mapPend = d.mapPend := Dev.map_journal d _
  rw [if_pos ((Dev.paired_of_posts hpost).trans hpair)]
  exact ⟨hmap, _, congrArg (· ++ [_]) hpend⟩

/-- Without a twin a map change newer than its entry is the entry. -/
theorem Dev.mapChange_alone (d : Dev) (x : MapChg) (hpair : d.paired = false) (hsrc : x.src = none)
    (hnew : gverNewer x.gver (d.ent x.slice x.granule).gver = true) :
    (d.mapChange x).map = SMap.set (fun _ => MapEnt.reset) d.map (granKey x.slice x.granule) { gver := x.gver, loc := x.loc } := by
  unfold Dev.mapChange
  extract_lets d1
  have hpost : d.Posts d1 := Dev.Posts.journal d _
  have hmap : d1.map = d.map := (Dev.map_journal d _).1
  have hent : d1.ent x.slice x.granule = d.ent x.slice x.granule := by rw [Dev.ent, Dev.ent, hmap]
  rw [if_neg (by rw [Dev.paired_of_posts hpost, hpair]; decide)]
  unfold Dev.applyEnt
  extract_lets here
  rw [hsrc]
  dsimp -zeta only
  rw [hent, if_pos hnew, Dev.map_dropVers, Dev.map_putEnt, hmap]

/-! ### The open-band scan (R503) -/

theorem gverNewer_self (n : Nat) : gverNewer n n = false := by
  have h : (n + 2 ^ 20 - n % 2 ^ 20) % 2 ^ 20 = 0 := by omega
  rw [gverNewer, h]
  rfl

/-- The scan changes nothing for a place whose content is not newer than its entry. -/
theorem Dev.scanOne_stale {l : Loc} (h : ∀ gr, d.granAt l = some gr → gr.pad = true ∨ gverNewer gr.gver (d.ent gr.slice gr.granule).gver = false) :
    d.scanOne l = d := by
  unfold Dev.scanOne
  split
  · next gr hgr =>
    rcases h gr hgr with hpad | hold
    · rw [hpad]
      rfl
    · rw [hold, Bool.and_false]
      rfl
  · rfl

/-- The map change that commits a place's content. -/
def scanChg (gr : Gran) (l : Loc) : MapChg :=
  { slice := gr.slice, granule := gr.granule, gver := gr.gver, loc := some l, src := none, owner := none, mnum := none }

theorem Dev.scanOne_newer {l : Loc} {gr : Gran} (hgr : d.granAt l = some gr) (hpad : gr.pad = false)
    (hnew : gverNewer gr.gver (d.ent gr.slice gr.granule).gver = true) : d.scanOne l = d.mapChange (scanChg gr l) := by
  unfold Dev.scanOne
  rw [hgr]
  dsimp only
  rw [hpad, hnew]
  exact if_pos rfl

/-- The scan of a place changes nothing, or commits content that is newer than its entry. -/
theorem Dev.scanOne_cases (d : Dev) (l : Loc) : d.scanOne l = d ∨
    ∃ gr, d.granAt l = some gr ∧ gverNewer gr.gver (d.ent gr.slice gr.granule).gver = true ∧ d.scanOne l = d.mapChange (scanChg gr l) := by
  cases hgr : d.granAt l with
  | none => exact .inl (Dev.scanOne_stale (fun gr h => by rw [hgr] at h; cases h))
  | some gr =>
    by_cases h : gr.pad = false ∧ gverNewer gr.gver (d.ent gr.slice gr.granule).gver = true
    · exact .inr ⟨gr, rfl, h.2, Dev.scanOne_newer hgr h.1 h.2⟩
    · refine .inl (Dev.scanOne_stale (fun gr' h' => ?_))
      cases hgr.symm.trans h'
      simpa [or_iff_not_imp_left] using h

theorem Dev.Posts.scanOne (d : Dev) (l : Loc) : d.Posts (d.scanOne l) := by
  rcases d.scanOne_cases l with h | ⟨gr, -, -, h⟩
  · rw [h]
    exact .refl d
  · rw [h]
    exact Dev.Posts.mapChange d _

theorem Dev.granAt_of_posts (h : d.Posts t) (l : Loc) : t.granAt l = d.granAt l := by
  have hflash : t.flash = d.flash := congrArg (·.flash) h.kept
  rw [Dev.granAt, Dev.fpage, hflash]
  rfl

/-- What a scan reads of a device that it has not committed to yet. -/
structure Dev.Scans (d e : Dev) : Prop where
  posts : d.Posts e
  map : e.map = d.map

theorem Dev.Scans.scanOne (h : d.Scans e) (hpair : d.paired = true) (l : Loc) : d.Scans (e.scanOne l) ∧ e.mapPend <+: (e.scanOne l).mapPend := by
  have hp : e.paired = true := (Dev.paired_of_posts h.posts).trans hpair
  rcases e.scanOne_cases l with hs | ⟨gr, -, -, hs⟩
  · rw [hs]
    exact ⟨h, List.prefix_rfl⟩
  · obtain ⟨hmap, n, hpend⟩ := Dev.mapChange_paired e (scanChg gr l) hp
    rw [hs, hpend]
    exact ⟨⟨h.posts.trans (Dev.Posts.mapChange e _), hmap.trans h.map⟩, List.prefix_append _ _⟩

/-- While PAIRED the scan lists each place's newer content with the map changes that wait. -/
theorem Dev.scan_paired (hpair : d.paired = true) {places : List Loc} {l : Loc} (hl : l ∈ places) {gr : Gran} (hgr : d.granAt l = some gr)
    (hpad : gr.pad = false) (hnew : gverNewer gr.gver (d.ent gr.slice gr.granule).gver = true) :
    ∃ y ∈ (places.foldl (fun (d : Dev) l => d.scanOne l) d).mapPend, y.slice = gr.slice ∧ y.granule = gr.granule ∧ y.gver = gr.gver ∧ y.loc = some l := by
  have hkeeps : ∀ (e : Dev) l', d.Scans e → d.Scans (e.scanOne l') := fun e l' h => (h.scanOne hpair l').1
  refine (foldl_reaches (Q := fun e => d.Scans e)
    (P := fun e => d.Scans e ∧ ∃ y ∈ e.mapPend, y.slice = gr.slice ∧ y.granule = gr.granule ∧ y.gver = gr.gver ∧ y.loc = some l) hkeeps ?_ ?_ hl d
    ⟨.refl d, rfl⟩).2
  · rintro e l' ⟨h, y, hy, hy'⟩
    obtain ⟨hnext, hpre⟩ := h.scanOne hpair l'
    exact ⟨hnext, y, hpre.subset hy, hy'⟩
  · intro e h
    have hent : e.ent gr.slice gr.granule = d.ent gr.slice gr.granule := by rw [Dev.ent, Dev.ent, h.map]
    refine ⟨hkeeps e l h, ?_⟩
    obtain ⟨-, n, hpend⟩ := Dev.mapChange_paired e (scanChg gr l) ((Dev.paired_of_posts h.posts).trans hpair)
    rw [Dev.scanOne_newer ((Dev.granAt_of_posts h.posts l).trans hgr) hpad (hent ▸ hnew), hpend]
    exact ⟨_, List.mem_append_right _ List.mem_cons_self, rfl, rfl, rfl, rfl⟩

/-- As `foldl_reaches`, with steps that hold for the list's members. -/
theorem foldl_reaches_mem {α σ : Type} {f : σ → α → σ} {P Q : σ → Prop} {x : α} (L : List α) (hQ : ∀ e, ∀ y ∈ L, Q e → Q (f e y))
    (hP : ∀ e, ∀ y ∈ L, P e → P (f e y)) (h : ∀ e, Q e → P (f e x)) : ∀ {l : List α}, l ⊆ L → x ∈ l → ∀ e, Q e → P (l.foldl f e)
  | y :: l, hl, hx, e, he => by
    rw [List.foldl_cons]
    rcases List.mem_cons.mp hx with rfl | hx
    · exact List.foldlRecOn (motive := P) l f (h e he) (fun e' he' z hz => hP e' z (hl (List.mem_cons_of_mem _ hz)) he')
    · exact foldl_reaches_mem L hQ hP h (fun z hz => hl (List.mem_cons_of_mem _ hz)) hx _ (hQ e y (hl List.mem_cons_self) he)

/-- The entry of a granule key. -/
def Dev.entAt (d : Dev) (k : Nat) : MapEnt := SMap.get (fun _ => MapEnt.reset) d.map k

/-- Without a twin the scan of a place changes the entry of no other granule. -/
theorem Dev.scanOne_other (h : d.Posts e) (hpair : d.paired = false) {l : Loc} {k : Nat}
    (hother : ∀ gr, d.granAt l = some gr → granKey gr.slice gr.granule ≠ k) : (e.scanOne l).entAt k = e.entAt k := by
  rcases e.scanOne_cases l with hs | ⟨gr, hgr, hnew, hs⟩
  · rw [hs]
  · have hmap := Dev.mapChange_alone e (scanChg gr l) ((Dev.paired_of_posts h).trans hpair) rfl hnew
    rw [hs, Dev.entAt, hmap]
    exact SMap.get_set_ne _ _ _ _ _ (hother gr ((Dev.granAt_of_posts h l).symm.trans hgr)).symm

/-- Without a twin the scan of a place whose content is newer than the granule's entry, or is that entry, leaves it as the entry. -/
theorem Dev.scanOne_own (h : d.Posts e) (hpair : d.paired = false) {l : Loc} {gr : Gran} (hgr : d.granAt l = some gr) (hpad : gr.pad = false)
    (hent : gverNewer gr.gver (e.ent gr.slice gr.granule).gver = true ∨ e.ent gr.slice gr.granule = { gver := gr.gver, loc := some l }) :
    (e.scanOne l).ent gr.slice gr.granule = { gver := gr.gver, loc := some l } := by
  have hgre := (Dev.granAt_of_posts h l).trans hgr
  rcases hent with hnew | hown
  · have hmap := Dev.mapChange_alone e (scanChg gr l) ((Dev.paired_of_posts h).trans hpair) rfl hnew
    rw [Dev.scanOne_newer hgre hpad hnew, Dev.ent, hmap]
    exact SMap.get_set_self _ _ _ _
  · rw [Dev.scanOne_stale (fun gr' h' => ?_), hown]
    cases hgre.symm.trans h'
    rw [hown]
    exact .inr (gverNewer_self _)

/-- Without a twin the scan commits a place's newer content, where no other place holds the granule. -/
theorem Dev.scan_alone (hpair : d.paired = false) {places : List Loc} {l : Loc} (hl : l ∈ places) {gr : Gran} (hgr : d.granAt l = some gr)
    (hpad : gr.pad = false) (hnew : gverNewer gr.gver (d.ent gr.slice gr.granule).gver = true)
    (hone : ∀ l' ∈ places, ∀ gr', d.granAt l' = some gr' → l' = l ∨ granKey gr'.slice gr'.granule ≠ granKey gr.slice gr.granule) :
    (places.foldl (fun (d : Dev) l => d.scanOne l) d).ent gr.slice gr.granule = { gver := gr.gver, loc := some l } := by
  have hstep : ∀ e, ∀ l' ∈ places, d.Posts e →
      l' = l ∨ (e.scanOne l').ent gr.slice gr.granule = e.ent gr.slice gr.granule := fun e l' hl' h => by
    by_cases heq : l' = l
    · exact .inl heq
    · exact .inr (Dev.scanOne_other h hpair (fun gr' h' => (hone l' hl' gr' h').resolve_left heq))
  refine (foldl_reaches_mem (Q := fun e => d.Posts e ∧ (gverNewer gr.gver (e.ent gr.slice gr.granule).gver = true ∨
      e.ent gr.slice gr.granule = { gver := gr.gver, loc := some l }))
    (P := fun e => d.Posts e ∧ e.ent gr.slice gr.granule = { gver := gr.gver, loc := some l }) places ?_ ?_ ?_ (List.Subset.refl _) hl d
    ⟨.refl d, .inl hnew⟩).2
  · rintro e l' hl' ⟨h, hent⟩
    refine ⟨h.trans (Dev.Posts.scanOne e l'), ?_⟩
    rcases hstep e l' hl' h with rfl | hsame
    · exact .inr (Dev.scanOne_own h hpair hgr hpad hent)
    · rwa [hsame]
  · rintro e l' hl' ⟨h, hent⟩
    refine ⟨h.trans (Dev.Posts.scanOne e l'), ?_⟩
    rcases hstep e l' hl' h with rfl | hsame
    · exact Dev.scanOne_own h hpair hgr hpad (.inr hent)
    · rwa [hsame]
  · rintro e ⟨h, hent⟩
    exact ⟨h.trans (Dev.Posts.scanOne e l), Dev.scanOne_own h hpair hgr hpad hent⟩

end

end Sys2Proof.Machine
end

section
/-! Release and READY (R405, R499 to R503), and the obligation of the end of bring-up. -/

namespace Sys2Proof.Machine

-- In order, one declaration at a time: keeps the check within its memory limit.
set_option Elab.async false

section
variable {d e t : Dev}

/-! ### What the release's last steps leave (R499) -/

/-- From `d` to `t` the bring-up's record, the NVM record and the low bits of GLB_DEV_STS stand. -/
structure Dev.Releases (d t : Dev) : Prop where
  kept : (t.bring, t.resetRun, t.nvm) = (d.bring, d.resetRun, d.nvm)
  dev : ∀ n < 10, t.flag Reg.GLB_DEV_STS n = d.flag Reg.GLB_DEV_STS n

theorem Dev.Releases.refl (d : Dev) : d.Releases d := ⟨rfl, fun _ _ => rfl⟩

theorem Dev.Releases.trans (h : d.Releases e) (h' : e.Releases t) : d.Releases t :=
  ⟨h'.kept.trans h.kept, fun n hn => (h'.dev n hn).trans (h.dev n hn)⟩

theorem Dev.Releases.ite {c : Prop} [Decidable c] (h : d.Releases e) (h' : d.Releases t) : d.Releases (if c then e else t) := by
  split
  · exact h
  · exact h'

theorem Dev.Releases.setReg {off : Nat} (d : Dev) (h : Reg.GLB_DEV_STS ≠ off) (v : Word) : d.Releases (d.setReg off v) :=
  ⟨rfl, fun n _ => Dev.flag_congr (Dev.reg_setReg_ne d h v) n⟩

theorem Dev.Releases.setFld {off : Nat} (d : Dev) (h : Reg.GLB_DEV_STS ≠ off) (hi lo v : Nat) : d.Releases (d.setFld off hi lo v) := .setReg d h _

theorem Dev.Releases.setFlag {off : Nat} (d : Dev) (h : Reg.GLB_DEV_STS ≠ off) (n : Nat) (b : Bool) : d.Releases (d.setFlag off n b) := .setReg d h _

theorem Dev.Releases.of_reports (h : d.Reports t) : d.Releases t :=
  ⟨Prod.ext (congrArg (·.bring) h.kept) (Prod.ext (congrArg (·.resetRun) h.kept) (congrArg (·.nvm) h.kept)), fun n hn => h.runs.dev n (.inl hn)⟩

theorem Dev.Releases.of_messages (h : d.Messages t) : d.Releases t :=
  ⟨Prod.ext (congrArg (·.bring) h.kept) (Prod.ext (congrArg (·.resetRun) h.kept) (congrArg (·.nvm) h.kept)), fun n hn => h.runs.dev n (.inl hn)⟩

/-- Neither the records of the release nor a register is touched. -/
theorem Dev.Releases.plain (hk : (t.bring, t.resetRun, t.nvm) = (d.bring, d.resetRun, d.nvm) := by rfl) (hr : t.regs = d.regs := by rfl) : d.Releases t :=
  ⟨hk, fun n _ => Dev.flag_congr (by rw [Dev.reg, hr, Dev.reg]) n⟩

theorem Dev.Releases.takeFree (d : Dev) (ports : List Nat) : d.Releases (d.takeFree ports) := by
  refine List.foldlRecOn (motive := fun e : Dev => d.Releases e) _ _ (.refl d) (fun e h p _ => h.trans ?_)
  have hs := Dev.Sends.sendFresh e p { opc := 0x08, args := e.fence } []
  generalize e.sendFresh p { opc := 0x08, args := e.fence } [] = t at hs
  rw [hs.rest]
  exact .plain

theorem Dev.Releases.setHold (d : Dev) (n : Nat) : d.Releases (d.setHold n) := by
  unfold Dev.setHold
  extract_lets d1
  have h1 : d.Releases d1 := .setFld d (off := Reg.TST_BRG_STS) (by decide) _ _ _
  exact .ite (h1.trans (.of_reports (Dev.Reports.raise d1 _ _))) h1

theorem Dev.Releases.setTwin (d : Dev) (st : Nat) : d.Releases (d.setTwin st) := by
  have hdev : ∀ (e : Dev) n b, 12 < n → n < 32 → e.Releases (e.setFlag Reg.GLB_DEV_STS n b) := fun e n b h12 h32 =>
    ⟨rfl, fun m hm => Dev.flag_setFlag_other e Reg.GLB_DEV_STS n m b h32 (by omega)⟩
  have hsingle : ∀ (e : Dev) b, e.Releases (e.setSingle b) := fun e b => by
    unfold Dev.setSingle
    extract_lets e1 e2
    have h1 : e.Releases e1 := (Dev.Releases.setFlag e (off := Reg.TWN_STS) (by decide) _ _).trans (hdev _ _ _ (by decide) (by decide))
    have h2 : e1.Releases e2 := (hdev e1 _ _ (by decide) (by decide)).trans (.setFlag _ (off := Reg.SHF_BM_COPIES) (by decide) _ _)
    exact (h1.trans h2).trans ((Dev.Releases.setFlag e2 (off := Reg.STK_PWC_STS) (by decide) _ _).trans (.setFlag _ (off := Reg.HIF_PWIN_STS) (by decide) _ _))
  unfold Dev.setTwin
  extract_lets d1 d2
  have h2 : d.Releases d2 := (Dev.Releases.setFld d (off := Reg.TWN_STS) (by decide) _ _ _).trans (hsingle d1 _)
  have hraise : ∀ n, d.Releases (d2.raise 0xC01 n) := fun n => h2.trans (.of_reports (Dev.Reports.raise d2 _ n))
  exact .ite (.refl d) (.ite (hraise 0) (.ite (hraise 2) (.ite (hraise 3) h2)))

theorem Dev.Releases.enterKeying (d : Dev) : d.Releases d.enterKeying := by
  have hrandom : ∀ e : Dev, e.Releases e.random := fun e => (Dev.Releases.of_reports (Dev.Reports.capRec e _ _ _)).trans .plain
  have hkeys : ∀ e : Dev, e.Releases e.freshKeys := fun e => by
    unfold Dev.freshKeys
    extract_lets r1 e1 r2 e2
    have h1 : e.Releases e1 := (hrandom e).trans .plain
    have h2 : e1.Releases e2 := .ite ((hrandom e1).trans .plain) (.refl e1)
    exact (h1.trans h2).trans ((Dev.Releases.setFld e2 (off := Reg.TWN_KEY_STS) (by decide) _ _ _).trans (.setReg _ (off := Reg.TWN_TX_INV) (by decide) _))
  have hhello : ∀ e : Dev, e.Releases (e.sendHello 0x01) := fun e => by
    unfold Dev.sendHello
    split
    · exact .of_messages (Dev.Messages.putGulon e _ _ _ _)
    · exact .refl e
  unfold Dev.enterKeying
  extract_lets prev
  have h1 : d.Releases { d with gPrev := prev } := .plain
  exact ((h1.trans (.setTwin _ 1)).trans (hkeys _)).trans (hhello _)

theorem Dev.setStage_spec (d : Dev) {n : Nat} (hn : n < 16) : (d.setStage n).released = d.released ∧ (d.setStage n).stage = n ∧
    (d.setStage n).epoch = d.epoch := by
  have hreg : ∀ off, off ≠ Reg.TST_BRG_STS → (d.setStage n).reg off = (d.setFld Reg.GLB_DEV_STS 7 4 n).reg off := fun off ho =>
    Dev.reg_setFld_ne _ ho _ _ _
  refine ⟨?_, ?_, ?_⟩
  · exact (Dev.flag_congr (hreg _ (by decide)) _).trans (Dev.flag_setFld_other _ _ _ _ _ _ (by decide) (by decide))
  · exact (Dev.fld_congr (hreg _ (by decide)) _ _).trans ((Dev.fld_setFld_self _ _ _ _ _ (by decide)).trans (Nat.mod_eq_of_lt hn))
  · exact Dev.fld_congr ((hreg _ (by decide)).trans (Dev.reg_setFld_ne _ (by decide) _ _ _)) _ _

theorem Dev.record_keeps (d : Dev) (n : NvmRec) :
    ({ d with resetRun := false, bring := none, pairStart := d.tick, restored := false, counted := false, nvm := n } : Dev).released = d.released ∧
    ({ d with resetRun := false, bring := none, pairStart := d.tick, restored := false, counted := false, nvm := n } : Dev).stage = d.stage := ⟨rfl, rfl⟩

/-- The release: the host spaces decode and step 9 begins, with the epoch in the NVM record. -/
theorem Dev.releaseNow_spec (d : Dev) : d.releaseNow.released = true ∧ d.releaseNow.stage = 9 ∧ d.releaseNow.bring = none ∧
    d.releaseNow.resetRun = false ∧ d.releaseNow.nvm.epoch = d.epoch ∧ d.releaseNow.nvm.dumpStart = none := by
  unfold Dev.releaseNow
  extract_lets d1 d2 nvm d3 d4 d5 d6
  have h1 : d1.released = true := by
    show (((d.setFlag Reg.GLB_DEV_STS 0 true).setFlag Reg.TST_BRG_STS 4 true).flag Reg.GLB_DEV_STS 0) = true
    rw [Dev.flag_congr (Dev.reg_setFlag_ne _ (by decide) _ _)]
    exact Dev.flag_setFlag_self _ _ _ _ (by decide)
  have he1 : d1.epoch = d.epoch := Dev.fld_congr ((Dev.reg_setFlag_ne _ (by decide) _ _).trans (Dev.reg_setFlag_ne _ (by decide) _ _)) _ _
  clear_value d1
  have h2 : d2.released = true ∧ d2.stage = 9 ∧ d2.epoch = d.epoch := by
    obtain ⟨hrel, hstage, hepoch⟩ := Dev.setStage_spec ((d1.setFld Reg.TST_REL_MS 23 0 d1.msNow).stageEnd 8) (n := 9) (by decide)
    have hreg : ∀ off, off ∉ [Reg.TST_REL_MS, Reg.TST_STAGE_MS 7] → ((d1.setFld Reg.TST_REL_MS 23 0 d1.msNow).stageEnd 8).reg off = d1.reg off := by
      intro off ho
      simp only [List.mem_cons, List.not_mem_nil, or_false, not_or] at ho
      exact (Dev.reg_setFld_ne _ ho.2 _ _ _).trans (Dev.reg_setFld_ne _ ho.1 _ _ _)
    exact ⟨hrel.trans ((Dev.flag_congr (hreg _ (by decide)) _).trans h1), hstage, hepoch.trans ((Dev.fld_congr (hreg _ (by decide)) _ _).trans he1)⟩
  clear_value d2
  have h3 : d3.released = true ∧ d3.stage = 9 ∧ d3.bring = none ∧ d3.resetRun = false ∧ d3.nvm.epoch = d.epoch ∧ d3.nvm.dumpStart = none :=
    ⟨(Dev.record_keeps d2 _).1.trans h2.1, (Dev.record_keeps d2 _).2.trans h2.2.1, rfl, rfl, h2.2.2, rfl⟩
  have h4 : d3.Releases d4 := (Dev.Releases.setFlag d3 (off := Reg.HIF_PWIN_STS) (by decide) _ _).trans (.setReg _ (off := Reg.SHF_BM_COPIES) (by decide) _)
  have h6 : d4.Releases d6 := (Dev.Releases.takeFree d4 _).trans (.setHold d5 _)
  have hall : d3.Releases (if d6.flag Reg.TWN_LINK_STS 0 && d6.flag Reg.TWN_CTL 0 then d6.enterKeying else d6) :=
    (h4.trans h6).trans (.ite (.enterKeying d6) (.refl d6))
  clear_value d6
  generalize (if d6.flag Reg.TWN_LINK_STS 0 && d6.flag Reg.TWN_CTL 0 then d6.enterKeying else d6) = t at hall
  obtain ⟨hrel, hstage, hbring, hrun, hepoch, hstart⟩ := h3
  have hk := hall.kept
  simp only [Prod.mk.injEq] at hk
  obtain ⟨hkb, hkr, hkn⟩ := hk
  refine ⟨(hall.dev 0 (by decide)).trans hrel, ?_, hkb.trans hbring, hkr.trans hrun, ?_, ?_⟩
  · exact (bits_congr (fun n hn hn' => hall.dev n (by omega))).trans hstage
  · rw [hkn, hepoch]
  · rw [hkn, hstart]

/-- A release that the twin's bridges hold back. -/
theorem Dev.release_held {n : Nat} (herr : (d.page 0xC01).err = false) :
    ((d.recordErr 0xC01 0x0104 n 0).setHold 1).released = d.released ∧ ((d.recordErr 0xC01 0x0104 n 0).setHold 1).hold = 1 ∧
    (((d.recordErr 0xC01 0x0104 n 0).setHold 1).page 0xC01).errCode = 0x0104 ∧
    (((d.recordErr 0xC01 0x0104 n 0).setHold 1).page 0xC01).info0 = w32 n := by
  have hfirst := Dev.page_recordErr_first d 0xC01 0x0104 n 0 herr
  have hrel : (d.recordErr 0xC01 0x0104 n 0).released = d.released := Dev.flag_congr (Dev.reg_recordErr d _ _ _ _ _) _
  generalize d.recordErr 0xC01 0x0104 n 0 = e at hfirst hrel
  unfold Dev.setHold
  extract_lets e1
  have h1 : e1.hold = 1 := Dev.fld_setFld_self _ _ _ _ _ (by decide)
  have h1r : e1.released = d.released := (Dev.flag_congr (Dev.reg_setFld_ne e (by decide) _ _ _) _).trans hrel
  have h1p : e1.page 0xC01 = e.page 0xC01 := rfl
  clear_value e1
  rw [← h1p] at hfirst
  split
  · have hrep := Dev.Reports.raise e1 0x1000 1
    obtain ⟨-, hcode, h0, -⟩ := (hrep.page 0xC01).1 (congrArg (·.err) hfirst)
    exact ⟨(hrep.runs.dev 0 (by decide)).trans h1r, (Dev.fld_congr (hrep.regs _ (by decide)) _ _).trans h1,
      hcode.trans (congrArg (·.errCode) hfirst), h0.trans (congrArg (·.info0) hfirst)⟩
  · exact ⟨h1r, h1, congrArg (·.errCode) hfirst, congrArg (·.info0) hfirst⟩

/-! ### READY (R405, R502) -/

/-- The device once the slots that the stop lost are reported. -/
theorem Dev.slotsLost_spec (d : Dev) : d.slotsLost.lostSlots = 0 ∧
    (d.flag Reg.TWN_STS 4 = true → 0 < d.lostSlots → (d.page 0x1000).err = false →
      (d.slotsLost.page 0x1000).err = true ∧ (d.slotsLost.page 0x1000).errCode = 0x0104 ∧ (d.slotsLost.page 0x1000).info0 = w32 d.lostSlots) := by
  unfold Dev.slotsLost
  extract_lets n d1 d2
  refine ⟨?_, fun hsingle hlost herr => ?_⟩
  · split <;> rfl
  · rw [if_pos ⟨hsingle, hlost⟩]
    have hpage : (d.setFld Reg.TST_LOST_SLOTS 20 0 (satN 21 n)).page 0x1000 = d.page 0x1000 := Dev.page_setFld d _ _ _ _ _
    have hrep : ((d.setFld Reg.TST_LOST_SLOTS 20 0 (satN 21 n)).recordErr 0x1000 0x0104 n (d.fld Reg.PWR_DUMP_SEQ 31 0)).Reports d2 :=
      (Dev.Reports.incident _ _ _ _ _ _ _ _ _).trans (Dev.Reports.raise d1 _ _)
    clear_value d2
    rw [← hpage] at herr
    generalize d.setFld Reg.TST_LOST_SLOTS 20 0 (satN 21 n) = e at hrep herr
    have hfirst := Dev.page_recordErr_first e 0x1000 0x0104 n (d.fld Reg.PWR_DUMP_SEQ 31 0) herr
    obtain ⟨hset, hcode, h0, -⟩ := (hrep.page 0x1000).1 (congrArg (·.err) hfirst)
    exact ⟨hset, hcode.trans (congrArg (·.errCode) hfirst), h0.trans (congrArg (·.info0) hfirst)⟩

theorem doReady_spec (hstage : d.stage = 9) (hrel : d.released = true) (hstop : d.tstStop = false) (hscan : d.scanPend = false) (hhold : d.hold ≠ 2)
    (htwin : d.paired = true ∨ d.flag Reg.TWN_STS 4 = true) :
    (doReady d).flag Reg.TST_BRG_STS 5 = true ∧ (doReady d).stage = 10 ∧ (doReady d).hold = 0 ∧ (doReady d).lostSlots = 0 ∧
    bitAt ((doReady d).page 0x1000).intPend 0 = true ∧
    (d.flag Reg.TWN_STS 4 = true → 0 < d.lostSlots → (d.page 0x1000).err = false →
      ((doReady d).page 0x1000).errCode = 0x0104 ∧ ((doReady d).page 0x1000).info0 = w32 d.lostSlots) := by
  unfold doReady
  rw [if_neg (by rcases htwin with h | h <;> simp [hstage, hrel, hstop, hscan, hhold, h])]
  extract_lets d1 d2
  have hlostSpec := d.slotsLost_spec
  rw [show d.slotsLost = d1 from rfl] at hlostSpec
  obtain ⟨hslots, herr⟩ := hlostSpec
  clear_value d1
  have h2 : d2.flag Reg.TST_BRG_STS 5 = true := Dev.flag_setFlag_self _ _ _ _ (by decide)
  have h2s : d2.stage = 10 := by
    obtain ⟨-, hst, -⟩ := (d1.stageEnd 9).setStage_spec (n := 10) (by decide)
    exact (Dev.fld_congr ((Dev.reg_setFlag_ne _ (by decide) _ _).trans (Dev.reg_setFld_ne _ (by decide) _ _ _)) _ _).trans hst
  have h2l : d2.lostSlots = 0 ∧ d2.page 0x1000 = d1.page 0x1000 :=
    ⟨hslots, by simp only [d2, Dev.stageEnd, Dev.setStage, Dev.page_setFlag, Dev.page_setFld]⟩
  clear_value d2
  have hh : d2.setHold 0 = d2.setFld Reg.TST_BRG_STS 9 8 0 := by
    unfold Dev.setHold
    exact if_neg (fun h => h.1 rfl)
  rw [hh]
  have hrep := Dev.Reports.raise (d2.setFld Reg.TST_BRG_STS 9 8 0) 0x1000 0
  have hreg : ((d2.setFld Reg.TST_BRG_STS 9 8 0).raise 0x1000 0).reg Reg.TST_BRG_STS = (d2.setFld Reg.TST_BRG_STS 9 8 0).reg Reg.TST_BRG_STS :=
    hrep.regs _ (by decide)
  refine ⟨?_, ?_, ?_, ?_, ?_, fun hsingle hlost hfree => ?_⟩
  · exact (Dev.flag_congr hreg _).trans ((Dev.flag_setFld_other _ _ _ _ _ _ (by decide) (by decide)).trans h2)
  · exact (hrep.runs.devFld 7 4 (by decide)).trans ((Dev.fld_setFld_ne _ (by decide) _ _ _ _ _).trans h2s)
  · exact (Dev.fld_congr hreg _ _).trans (Dev.fld_setFld_self _ _ _ _ _ (by decide))
  · exact (congrArg (·.lostSlots) hrep.kept).trans h2l.1
  · rw [Dev.intPend_raise _ _ _ (by decide)]
    exact (bitAt_putBit _ _ _ _ (by decide)).trans (if_pos rfl)
  · obtain ⟨hset, hcode, h0⟩ := herr hsingle hlost hfree
    rw [← h2l.2, ← Dev.page_setFld d2 Reg.TST_BRG_STS 9 8 0] at hset hcode h0
    obtain ⟨-, hcode', h0', -⟩ := (hrep.page 0x1000).1 hset
    exact ⟨hcode'.trans hcode, h0'.trans h0⟩

end

/-- Settles O53: the release's records through what it still sends, the scan place by place, and READY's flags. -/
theorem releaseAndReady : Obligations.ReleaseAndReady := by
  intro s hrun
  have hact : ∀ f, act s f = .next { s with dev := f s.dev } := fun f => act_of_running s f hrun
  refine ⟨fun r hbring hstage hstop hhold hdown hmode => ?_, fun hstage hscan => ?_, fun hstage hrel hstop hscan hhold htwin => ?_⟩
  · have hopen : (s.dev.stage ≠ 8 || s.dev.stopped || s.dev.hold == 2 || s.dev.stayDown || s.dev.mode != 0) = false := by
      rcases hhold with h | h <;> simp [hstage, hstop, h, hdown, hmode]
    refine ⟨fun hgo => ⟨_, hact _, ?_⟩, fun hheld hlink herr => ⟨_, hact _, ?_⟩⟩
    · have hbody : doRelease s.dev = s.dev.releaseNow := by
        unfold doRelease
        rw [hbring]
        dsimp only
        rw [hopen, if_neg (by decide), if_pos hgo]
      rw [hbody]
      exact s.dev.releaseNow_spec
    · have hne : s.dev.hold ≠ 1 := by rcases hhold with h | h <;> omega
      have hbody : doRelease s.dev = (s.dev.recordErr 0xC01 0x0104 r.portsHeld 0).setHold 1 := by
        unfold doRelease
        rw [hbring]
        dsimp only
        rw [hopen, if_neg (by decide), if_neg (by simp [hheld, hlink]), if_neg hne]
      rw [hbody]
      exact Dev.release_held herr
  · refine ⟨_, hact _, ?_⟩
    have hbody : doOpenBandScan s.dev =
        { (s.dev.scanBands.flatMap s.dev.scanPlaces).foldl (fun (d : Dev) l => d.scanOne l) s.dev with scanPend := false, scanBands := [] } :=
      if_pos ⟨hstage, hscan⟩
    rw [hbody]
    refine ⟨rfl, rfl, fun hstale => ?_, fun l hl gr hgr hpad hnew => ⟨fun hpair => ?_, fun hpair hone => ?_⟩⟩
    · have hsame : (s.dev.scanBands.flatMap s.dev.scanPlaces).foldl (fun (d : Dev) l => d.scanOne l) s.dev = s.dev :=
        List.foldlRecOn (motive := fun e => e = s.dev) _ _ rfl (fun e he l hl => by
          rw [he]
          exact Dev.scanOne_stale (hstale l hl))
      rw [hsame]
      exact ⟨rfl, rfl⟩
    · exact Dev.scan_paired hpair hl hgr hpad hnew
    · exact Dev.scan_alone hpair hl hgr hpad hnew hone
  · exact ⟨_, hact _, doReady_spec hstage hrel hstop hscan hhold htwin⟩

end Sys2Proof.Machine
end

section
/-! The supply and the TAP (R423, R490, R493, R495, R528, R529, R533). -/

namespace Sys2Proof.Machine

-- In order, one declaration at a time: keeps the check within its memory limit.
set_option Elab.async false

section
variable {d e t : Dev}

/-! ### The rise of the supply (R490, R528, R529) -/

theorem Dev.stage_coldBegun (d : Dev) (start cls : Nat) : (d.coldBegun start cls).stage = 2 :=
  (Dev.setStage_spec (d.unabandoned.awake.beginBring start cls).undumped (n := 2) (by decide)).2.1

theorem Dev.restarted_keeps (d : Dev) : (∀ off, d.restarted.reg off = d.reg off) ∧ d.restarted.aoUp = d.aoUp ∧ d.restarted.supplyLost = d.supplyLost :=
  ⟨fun _ => rfl, rfl, rfl⟩

theorem Dev.unabandoned_keeps (d : Dev) : (∀ off, off ≠ Reg.GLB_RST_STS → d.unabandoned.reg off = d.reg off) ∧ d.unabandoned.aoUp = d.aoUp ∧
    d.unabandoned.supplyLost = d.supplyLost := by
  unfold Dev.unabandoned
  split
  · exact ⟨fun off ho => Dev.reg_setFlag_ne d ho 5 true, rfl, rfl⟩
  · exact ⟨fun _ _ => rfl, rfl, rfl⟩

/-- The straps and the dump set, and the supply, as a COLD bring-up begins. -/
theorem Dev.coldBegun_keeps (d : Dev) (start cls : Nat) : (∀ off ∈ [Reg.GLB_STRAP, Reg.PWR_DUMPSET_LO], (d.coldBegun start cls).reg off = d.reg off) ∧
    (d.coldBegun start cls).aoUp = d.aoUp ∧ (d.coldBegun start cls).supplyLost = d.supplyLost := by
  obtain ⟨hreg1, hao1, hs1⟩ := d.unabandoned_keeps
  have hbegun : d.coldBegun start cls = ((d.unabandoned.awake.beginBring start cls).undumped.setStage 2).restarted := rfl
  obtain ⟨hreg5, hao5, hs5⟩ := ((d.unabandoned.awake.beginBring start cls).undumped.setStage 2).restarted_keeps
  have hkeep : ∀ b : Dev, ((b.awake.beginBring start cls).undumped.setStage 2).aoUp = b.aoUp ∧
      ((b.awake.beginBring start cls).undumped.setStage 2).supplyLost = b.supplyLost := fun b => ⟨rfl, rfl⟩
  rw [hbegun, hao5, hs5, (hkeep _).1, (hkeep _).2]
  refine ⟨fun off ho => (hreg5 off).trans ?_, hao1, hs1⟩
  obtain ⟨hdev, hbrg, hfail, hmode, hrst, hpg⟩ : off ≠ Reg.GLB_DEV_STS ∧ off ≠ Reg.TST_BRG_STS ∧ off ≠ Reg.PWR_FAIL_STS ∧ off ≠ Reg.PWR_MODE_STS ∧
      off ≠ Reg.GLB_RST_STS ∧ off / 0x1000 ≠ 0x1000 := by
    rcases List.mem_pair.mp ho with rfl | rfl
    · decide
    · decide
  rw [Dev.setStage, Dev.reg_setFld_ne _ hbrg, Dev.reg_setFld_ne _ hdev, Dev.undumped, Dev.reg_setFlag_ne _ hfail, Dev.reg_setFlag_ne _ hfail,
    Dev.reg_beginBring _ start cls hpg hdev, Dev.awake, Dev.reg_setFld_ne _ hdev, Dev.reg_setFld_ne _ hmode, Dev.reg_setFld_ne _ hmode, hreg1 off hrst]

theorem Dev.setEnMain_true (d : Dev) : (d.setEnMain true).aoUp = d.aoUp ∧ (d.setEnMain true).supplyLost = d.supplyLost ∧
    (d.setEnMain true).regs = d.regs ∧ (d.setEnMain true).pgMain = d.pgMain ∧ (d.setEnMain true).enMain = true ∧ (d.setEnMain true).bring = d.bring := by
  unfold Dev.setEnMain
  extract_lets e
  have he : e.aoUp = d.aoUp ∧ e.supplyLost = d.supplyLost ∧ e.regs = d.regs ∧ e.pgMain = d.pgMain ∧ e.bring = d.bring := by
    simp only [e]
    split
    · exact ⟨rfl, rfl, rfl, rfl, rfl⟩
    · exact ⟨rfl, rfl, rfl, rfl, rfl⟩
  obtain ⟨h1, h2, h3, h4, h5⟩ := he
  exact ⟨h1, h2, h3, h4, rfl, h5⟩

/-- A COLD bring-up that waits for the main rails. -/
structure Dev.AwaitsMain (d : Dev) (start : Nat) (r : BringUp) (t : Dev) : Prop where
  supply : t.supplyLost = false
  aoUp : t.aoUp = d.aoUp
  enMain : t.enMain = true
  pgMain : t.pgMain = false
  bring : t.bring = some r
  released : t.released = false
  stage : t.stage = 2
  regs : ∀ off ∈ [Reg.GLB_STRAP, Reg.PWR_DUMPSET_LO], t.reg off = d.reg off
  cause : t.fld Reg.TST_BRG_CAUSE 2 0 = start
  mode : t.mode = 0

theorem Dev.coldState_keeps (d : Dev) : (d.coldState true).supplyLost = false ∧ (d.coldState true).aoUp = d.aoUp ∧ (d.coldState true).pgMain = d.pgMain :=
  ⟨rfl, rfl, rfl⟩

theorem Dev.coldGo_awaits (d : Dev) (m : Memory) (r : BringUp) (hpg : d.pgMain = false) : d.coldGo m r = { d with bring := some r, pgTry := 1 }.setEnMain true := by
  unfold Dev.coldGo
  exact if_neg (by rw [hpg]; decide)

theorem Dev.coldGo_awaits_keeps (d : Dev) (m : Memory) (r : BringUp) (hpg : d.pgMain = false) : (d.coldGo m r).aoUp = d.aoUp ∧
    (d.coldGo m r).supplyLost = d.supplyLost ∧ (d.coldGo m r).regs = d.regs ∧ (d.coldGo m r).pgMain = d.pgMain ∧ (d.coldGo m r).enMain = true ∧
    (d.coldGo m r).bring = some r := by
  rw [d.coldGo_awaits m r hpg]
  exact Dev.setEnMain_true _

/-- With VAO lost and the main rails off, a COLD bring-up waits for them with the straps and the dump set as they are. -/
theorem Dev.coldBring_awaits (d : Dev) (m : Memory) {start : Nat} (hs : start < 8) (r : BringUp) (hoff : d.pgMain = false) :
    d.AwaitsMain start r (d.coldBring m start true r) := by
  have hheads := Dev.Rails.headsDown d
  obtain ⟨old, hold, hrest⟩ := d.headsDown.coldInit_split true (r.retFail.contains 1) d.nvm.stopOf
  have hin := hheads.trans hold
  rw [Dev.coldBring_eq]
  generalize d.headsDown.coldInit true (r.retFail.contains 1) d.nvm.stopOf = e at hrest
  obtain ⟨hlost, hao, hpg0⟩ := old.coldState_keeps
  have hsub : ∀ off ∈ [Reg.GLB_STRAP, Reg.PWR_DUMPSET_LO], off ∈ railRegs ∧ keptCold true off = true ∧ off ≠ Reg.HIF_I3C_CTL := by decide
  have hreg0 : ∀ off ∈ [Reg.GLB_STRAP, Reg.PWR_DUMPSET_LO], e.reg off = d.reg off := fun off ho => by
    obtain ⟨hmem, hkept, hne⟩ := hsub off ho
    rw [hrest.regs off hmem, Dev.reg_coldState hkept hne, hin.regs off hmem]
  have hpg : e.pgMain = false := hrest.pgMain.trans (hpg0.trans (hin.pgMain.trans hoff))
  have hsup : e.supplyLost = false := hrest.supply hlost
  have hup : e.aoUp = d.aoUp := hrest.aoUp.trans (hao.trans hin.aoUp)
  obtain ⟨hcause, -, -, hrel, hmode, -, -, -, hbpg⟩ := Dev.coldBegun_spec e start d.nvm.stopOf
  obtain ⟨hbreg, hbao, hbs⟩ := Dev.coldBegun_keeps e start d.nvm.stopOf
  have hstage := Dev.stage_coldBegun e start d.nvm.stopOf
  generalize e.coldBegun start d.nvm.stopOf = b at hcause hrel hmode hbpg hbreg hbao hbs hstage
  obtain ⟨h1, h2, h3, h4, h5, h6⟩ := b.coldGo_awaits_keeps m r (hbpg.trans hpg)
  have hreg : ∀ off, (b.coldGo m r).reg off = b.reg off := fun off => by
    rw [Dev.reg, h3, Dev.reg]
  refine ⟨h2.trans (hbs.trans hsup), h1.trans (hbao.trans hup), h5, h4.trans (hbpg.trans hpg), h6, ?_, ?_, fun off ho => ?_, ?_, ?_⟩
  · exact (Dev.flag_congr (hreg _) _).trans hrel
  · exact (Dev.fld_congr (hreg _) _ _).trans hstage
  · rw [hreg, hbreg off ho, hreg0 off ho]
  · rw [Dev.fld_congr (hreg _), Dev.fld, hcause, bits_w32 _ _ _ (by decide)]
    omega
  · exact (Dev.fld_congr (hreg _) _ _).trans hmode

/-- A wake that no level raised is recorded in its registers, and in nothing else. -/
theorem Dev.recordWake_regs (d : Dev) {src : Nat} (hsrc : src.testBit 6 = false) (src1 : Nat) (re : Bool) (frm tick ep : Nat) (co : Bool) :
    ∃ rs, d.recordWake src src1 re frm tick ep co = { d with regs := rs } ∧
      ∀ off, off ∉ [Reg.PWR_LAST_WAKE, Reg.PWR_LAST_WAKE_TICK_LO, Reg.PWR_LAST_WAKE_TICK_HI, Reg.PWR_LAST_WAKE_EPOCH, Reg.PWR_WAKE_STAT, Reg.PWR_WAKES] →
        (d.recordWake src src1 re frm tick ep co).reg off = d.reg off := by
  unfold Dev.recordWake
  extract_lets level d1 d2 d3
  rw [if_neg (by rw [hsrc]; decide)]
  refine ⟨d3.regs, rfl, fun off ho => ?_⟩
  simp only [List.mem_cons, List.not_mem_nil, or_false, not_or] at ho
  obtain ⟨h1, h2, h3, h4, h5, h6⟩ := ho
  rw [show d3.reg off = d2.reg off from (Dev.reg_setFld_ne _ h6 _ _ _).trans (Dev.reg_setReg_ne _ h5 _),
    show d2.reg off = d1.reg off from (Dev.reg_setReg_ne _ h4 _).trans (Dev.reg_set64_ne _ h2 h3 _)]
  exact Dev.reg_setReg_ne _ h1 _

theorem Dev.AwaitsMain.withRegs {start : Nat} {r : BringUp} (h : d.AwaitsMain start r e) (rs : SMap Word)
    (hreg : ∀ off ∈ [Reg.GLB_DEV_STS, Reg.TST_BRG_CAUSE, Reg.PWR_MODE_STS, Reg.GLB_STRAP, Reg.PWR_DUMPSET_LO], ({ e with regs := rs } : Dev).reg off = e.reg off) :
    d.AwaitsMain start r { e with regs := rs } := by
  refine ⟨h.supply, h.aoUp, h.enMain, h.pgMain, h.bring, ?_, ?_, fun off ho => ?_, ?_, ?_⟩
  · exact (Dev.flag_congr (hreg _ (by decide)) _).trans h.released
  · exact (Dev.fld_congr (hreg _ (by decide)) _ _).trans h.stage
  · exact (hreg off ((show ∀ o ∈ [Reg.GLB_STRAP, Reg.PWR_DUMPSET_LO], o ∈ [Reg.GLB_DEV_STS, Reg.TST_BRG_CAUSE, Reg.PWR_MODE_STS, Reg.GLB_STRAP, Reg.PWR_DUMPSET_LO]
      by decide) off ho)).trans (h.regs off ho)
  · exact (Dev.fld_congr (hreg _ (by decide)) _ _).trans h.cause
  · exact (Dev.fld_congr (hreg _ (by decide)) _ _).trans h.mode

/-- The device with its supply back. -/
theorem Dev.supplied_spec (d : Dev) (side bench dies64 : Bool) : (d.supplied side bench dies64).pgMain = false ∧ (d.supplied side bench dies64).aoUp = true ∧
    (d.supplied side bench dies64).reg Reg.GLB_STRAP = w32 (side.toNat + 2 * bench.toNat + 4 * dies64.toNat) ∧
    (d.supplied side bench dies64).reg Reg.PWR_DUMPSET_LO = (if side then 0xAAAAAAAA else 0x55555555) := by
  unfold Dev.supplied
  extract_lets c d1 d2 mask
  refine ⟨rfl, rfl, ?_, ?_⟩
  · rw [Dev.reg_setReg_ne _ (by decide), Dev.reg_setReg_ne _ (by decide)]
    exact Dev.reg_setReg_self _ _ _
  · rw [Dev.reg_setReg_ne _ (by decide)]
    exact Dev.reg_setReg_self _ _ _

theorem doPgAoRise_spec (d : Dev) (side bench dies64 : Bool) (r : BringUp) (m : Memory) (hao : d.aoUp = false) :
    (d.supplied side bench dies64).AwaitsMain 0 r (doPgAoRise side bench dies64 r m d) := by
  have hcold := Dev.coldBring_awaits (d.supplied side bench dies64) m (start := 0) (by decide) r (d.supplied_spec side bench dies64).1
  unfold doPgAoRise
  extract_lets off d1
  rw [if_neg (by simp [hao])]
  split
  · obtain ⟨rs, heq, hregs⟩ := Dev.recordWake_regs d1 (src := 1) (by decide) 0 false 3 0 d1.epoch d1.coarse
    rw [heq] at hregs ⊢
    exact hcold.withRegs rs (fun off ho => hregs off ((show ∀ o ∈ [Reg.GLB_DEV_STS, Reg.TST_BRG_CAUSE, Reg.PWR_MODE_STS, Reg.GLB_STRAP, Reg.PWR_DUMPSET_LO],
      o ∉ [Reg.PWR_LAST_WAKE, Reg.PWR_LAST_WAKE_TICK_LO, Reg.PWR_LAST_WAKE_TICK_HI, Reg.PWR_LAST_WAKE_EPOCH, Reg.PWR_WAKE_STAT, Reg.PWR_WAKES]
      by decide) off ho))
  · exact hcold

/-! ### The TAP (R493, R495) -/

/-- Heads going down record no error. -/
theorem Dev.err_headsDown (d : Dev) {pg : Nat} (herr : (d.page pg).err = false) : (d.headsDown.page pg).err = false := by
  refine List.foldlRecOn (motive := fun e : Dev => (e.page pg).err = false) _ _ herr (fun e he h _ => ?_)
  unfold Dev.takeHeadDown
  extract_lets e1
  have h1 : ({ e1 with headDown := SMap.insert e.headDown h e.tick } : Dev).page pg = e.page pg := by
    show e1.page pg = e.page pg
    simp only [e1, Dev.page_setFlag]
  split
  · rw [Dev.page_capRecFree, Dev.err_raise]
    exact (congrArg (·.err) h1).trans he
  · exact he

/-- A boundary instruction holds bring-up and takes a released device down. -/
theorem doTapInstruction_holds {ins : TapIns} {ir : Nat} (hb : tapBoundary ins = true) (hsec : d.flag Reg.TST_SEC_STS 0 = true)
    (htap : d.flag Reg.TST_TAP_STS 8 = false) (herr : (d.page 0x1000).err = false) :
    (doTapInstruction ins ir d).flag Reg.TST_TAP_STS 8 = true ∧ (doTapInstruction ins ir d).hold = 2 ∧ (doTapInstruction ins ir d).released = false ∧
    ((doTapInstruction ins ir d).page 0x1000).errCode = 0x0105 ∧ ((doTapInstruction ins ir d).page 0x1000).info0 = w32 (ir % 256) ∧
    ((doTapInstruction ins ir d).page 0x1000).info1 = w32 d.stage := by
  have hne : ins ≠ .scan := by
    rintro rfl
    exact absurd hb (by decide)
  unfold doTapInstruction
  rw [if_neg (by simp [hne, hsec])]
  extract_lets d1 step d2 d3
  have h1 : d1.flag Reg.TST_TAP_STS 8 = false := (Dev.flag_setFld_other d _ _ _ _ _ (by decide) (by decide)).trans htap
  have hstep : step = d.stage := Dev.fld_setFld_ne d (by decide) _ _ _ _ _
  have h1p : (d1.page 0x1000).err = false := (congrArg (·.err) (Dev.page_setFld d _ _ _ _ _)).trans herr
  rw [if_neg (by simp [hb, h1])]
  clear_value d1 step
  have h2 : d2.released = false ∧ (d2.page 0x1000).err = false := by
    simp only [d2]
    split
    · refine ⟨?_, ?_⟩
      · refine (Dev.flag_congr ((Dev.reg_setFlag_ne _ (by decide) _ _).trans (Dev.reg_setFlag_ne _ (by decide) _ _)) _).trans ?_
        exact Dev.flag_setFlag_self _ _ _ _ (by decide)
      · rw [Dev.page_setFlag, Dev.page_setFlag, Dev.page_setFlag]
        exact Dev.err_headsDown d1 h1p
    · next hrel => exact ⟨by simpa using hrel, h1p⟩
  clear_value d2
  have hfirst := Dev.page_recordErr_first (d2.setFlag Reg.TST_TAP_STS 8 true) 0x1000 0x0105 (ir % 256) step
    ((congrArg (·.err) (Dev.page_setFlag d2 _ _ _ _)).trans h2.2)
  have hrel : ((d2.setFlag Reg.TST_TAP_STS 8 true).recordErr 0x1000 0x0105 (ir % 256) step).released = false :=
    (Dev.flag_congr ((Dev.reg_recordErr _ _ _ _ _ _).trans (Dev.reg_setFlag_ne _ (by decide) _ _)) _).trans h2.1
  have htap3 : ((d2.setFlag Reg.TST_TAP_STS 8 true).recordErr 0x1000 0x0105 (ir % 256) step).flag Reg.TST_TAP_STS 8 = true :=
    (Dev.flag_congr (Dev.reg_recordErr _ _ _ _ _ _) _).trans (Dev.flag_setFlag_self _ _ _ _ (by decide))
  have h3 : d3 = ((d2.setFlag Reg.TST_TAP_STS 8 true).recordErr 0x1000 0x0105 (ir % 256) step).setHold 2 := rfl
  clear_value d3
  generalize (d2.setFlag Reg.TST_TAP_STS 8 true).recordErr 0x1000 0x0105 (ir % 256) step = e at hfirst hrel htap3 h3
  obtain ⟨f, hf, hrep⟩ : ∃ f, f = e.setFld Reg.TST_BRG_STS 9 8 2 ∧ f.Reports (d3.raise 0x1000 2) := by
    refine ⟨_, rfl, Dev.Frame.trans ?_ (Dev.Reports.raise d3 _ _)⟩
    rw [h3]
    unfold Dev.setHold
    extract_lets f
    exact .ite (Dev.Reports.raise f _ _) (.refl f)
  have hfp : f.page 0x1000 = e.page 0x1000 := hf ▸ Dev.page_setFld e _ _ _ _ _
  rw [← hfp] at hfirst
  obtain ⟨-, hcode, h0, h1'⟩ := (hrep.page 0x1000).1 (congrArg (·.err) hfirst)
  refine ⟨?_, ?_, ?_, hcode.trans (congrArg (·.errCode) hfirst), h0.trans (congrArg (·.info0) hfirst), ?_⟩
  · exact (Dev.flag_congr (hrep.regs _ (by decide)) _).trans (hf ▸ (Dev.flag_setFld_ne e (by decide) _ _ _ _).trans htap3)
  · exact (Dev.fld_congr (hrep.regs _ (by decide)) _ _).trans (hf ▸ Dev.fld_setFld_self e _ _ _ _ (by decide))
  · exact (hrep.runs.dev 0 (by decide)).trans (hf ▸ (Dev.flag_setFld_ne e (by decide) _ _ _ _).trans hrel)
  · exact (h1'.trans (congrArg (·.info1) hfirst)).trans (by rw [← hstep])

theorem Dev.reg_filter (d : Dev) (p : Nat × Word → Bool) {off : Nat} (h : ∀ v, p (off, v) = true) : ({ d with regs := d.regs.filter p } : Dev).reg off = d.reg off := by
  rw [Dev.reg, SMap.get, SMap.find_filter_keep _ off h]
  rfl

theorem Dev.reg_lockPage (d : Dev) {pg : Nat} (h : pg ≠ 0x400) (off : Nat) : (d.lockPage pg).pbaSettle.reg off = d.reg off := by
  unfold Dev.lockPage
  extract_lets p e
  rw [if_neg h]
  rfl

/-- A register beside its page's own keeps its value through the page's SOFT_RST. -/
theorem Dev.reg_softClear (d : Dev) {pg off : Nat} (h4 : pg ≠ 0x400) (hpg : off / 0x1000 ≠ pg) : (d.softClear pg).reg off = d.reg off := by
  unfold Dev.softClear
  extract_lets d1 p d2 d3
  have h1 : d1.reg off = d.reg off := Dev.reg_filter d _ (fun v => by simp [resetBySoft, hpg])
  have h3 : d3.reg off = d1.reg off := (Dev.reg_lockPage d2 h4 off).trans (Dev.reg_setPage d1 _ _ _)
  clear_value d1 d3
  split
  · exact h3.trans h1
  · obtain ⟨pub, hpub⟩ := d3.publishAll_shape (d3.stale pg)
    rw [hpub]
    exact h3.trans h1

/-- A page's SOFT_RST in the retest. -/
theorem Dev.reg_retestPage (d : Dev) {pg off : Nat} (h4 : pg ≠ 0x400) (hpg : off / 0x1000 ≠ pg) (p : Page) : ((d.softClear pg).setPage pg p).reg off = d.reg off := by
  rw [Dev.reg_setPage, Dev.reg_softClear d h4 hpg]

theorem mem_testedPages {pg : Nat} (h : pg ∈ testedPages) : pg < 0xD00 ∧ pg ≠ 0x400 := by
  simp only [testedPages, List.mem_append, List.mem_cons, List.not_mem_nil, or_false, List.mem_map, List.mem_range] at h
  rcases h with (rfl | rfl | rfl) | ⟨n, hn, rfl⟩ <;> omega

/-- The retest resets the blocks' registers, and no register of the tests. -/
theorem Dev.reg_retest (d : Dev) {off : Nat} (hpg : off / 0x1000 = 0x1000) : d.retest.reg off = d.reg off := by
  have hstep : ∀ e : Dev, e.reg off = d.reg off → ∀ pg ∈ testedPages,
      ((e.softClear pg).setPage pg { (e.softClear pg).page pg with softRst := false, isolate := false }).reg off = d.reg off := fun e he pg hmem =>
    (Dev.reg_retestPage e (mem_testedPages hmem).2 (by have := (mem_testedPages hmem).1; omega) _).trans he
  have hfold := List.foldlRecOn (motive := fun e : Dev => e.reg off = d.reg off) testedPages _ (Eq.refl (d.reg off)) hstep
  have hne : off ≠ Reg.HIF_I3C_CTL := by
    rintro rfl
    exact absurd hpg (by decide)
  have hI3c : ∀ (e : Dev) (k : Option Nat), ({ e with pairKey := k } : Dev).setI3c.reg off = e.reg off := fun e k => by
    rw [Dev.setI3c, Dev.reg_setReg_ne _ hne]
    rfl
  unfold Dev.retest
  exact (hI3c _ _).trans hfold

theorem Dev.setHold_zero (d : Dev) : d.setHold 0 = d.setFld Reg.TST_BRG_STS 9 8 0 := by
  unfold Dev.setHold
  exact if_neg (fun h => h.1 rfl)

theorem Dev.reg_bringUp (d : Dev) (b : Option BringUp) (run : Bool) (off : Nat) : ({ d with bring := b, resetRun := run } : Dev).reg off = d.reg off := rfl

/-- Test-Logic-Reset ends the hold, and what it lets go on leaves it so. -/
theorem doTapTestLogicReset_spec (d : Dev) (r : BringUp) (m : Memory) (htap : d.flag Reg.TST_TAP_STS 8 = true) :
    (doTapTestLogicReset r m d).flag Reg.TST_TAP_STS 8 = false ∧ (doTapTestLogicReset r m d).fld Reg.TST_TAP_STS 7 0 = 0 ∧
    (doTapTestLogicReset r m d).hold = 0 := by
  unfold doTapTestLogicReset
  extract_lets d1 d2 x d3
  have h1 : d1.flag Reg.TST_TAP_STS 8 = true := (Dev.flag_setFld_other d _ _ _ _ _ (by decide) (by decide)).trans htap
  have h1f : d1.fld Reg.TST_TAP_STS 7 0 = 0 := Dev.fld_setFld_self d _ _ _ _ (by decide)
  clear_value d1
  have hheld : d2 = (d1.setFlag Reg.TST_TAP_STS 8 false).setFld Reg.TST_BRG_STS 9 8 0 := Dev.setHold_zero _
  have h2 : d2.flag Reg.TST_TAP_STS 8 = false ∧ d2.fld Reg.TST_TAP_STS 7 0 = 0 ∧ d2.hold = 0 := by
    rw [hheld]
    refine ⟨?_, ?_, Dev.fld_setFld_self _ _ _ _ _ (by decide)⟩
    · exact (Dev.flag_setFld_ne _ (by decide) _ _ _ _).trans (Dev.flag_setFlag_self _ _ _ _ (by decide))
    · exact (Dev.fld_setFld_ne _ (by decide) _ _ _ _ _).trans ((Dev.fld_setFlag_other _ _ _ _ _ _ (by decide) (by decide)).trans h1f)
  clear_value d2
  rw [if_neg (by rw [h1]; decide)]
  split
  · exact h2
  · have hretest : ∀ off, off / 0x1000 = 0x1000 → d3.reg off = d2.reg off := fun off ho =>
      (Dev.reg_bringUp x (some r) true off).trans (Dev.reg_retest d2 ho)
    clear_value d3
    have hbrings : d3.Brings (((d3.step3 r).unlessStopped (fun d => d.step5 r)).unlessStopped (fun d => d.bringFrom6 m r)) :=
      .unlessStopped (.bringFrom6 _ m r) (.unlessStopped (.step5 _ r) (.step3 d3 r))
    have htapreg := (hbrings.regs Reg.TST_TAP_STS (by simp [bringWatch])).trans (hretest Reg.TST_TAP_STS rfl)
    exact ⟨(Dev.flag_congr htapreg _).trans h2.1, (Dev.fld_congr htapreg _ _).trans h2.2.1,
      hbrings.hold.trans ((Dev.fld_congr (hretest Reg.TST_BRG_STS rfl) _ _).trans h2.2.2)⟩

end

/-- Settles O52: the rise begins a COLD bring-up that waits for the main rails, the fall takes the island down, and the TAP holds bring-up. -/
theorem supplyAndTap : Obligations.SupplyAndTap := by
  intro s
  refine ⟨fun side bench dies64 res hao => ?_, fun hsup hao => ?_⟩
  · obtain ⟨-, hup, hstrap, hset⟩ := s.dev.supplied_spec side bench dies64
    have h := doPgAoRise_spec s.dev side bench dies64 res (storeArray s.array s.dev.nvmTorn) hao
    refine ⟨{ s with
      dev := doPgAoRise side bench dies64 res (storeArray s.array s.dev.nvmTorn) s.dev
      array := storeArray s.array s.dev.nvmTorn
      window := storeWindow s.window
        ((((s.dev.supplied side bench dies64).headsDown).lostGranules s.dev.nvm.stopOf).map (lostBytes s.dev.draws)) }, ?_, ?_⟩
    · show execPgAoRise side bench dies64 res s = _
      unfold execPgAoRise
      rw [if_neg (by simp [hao])]
    · exact ⟨h.supply, h.aoUp.trans hup, h.enMain, h.pgMain, h.bring, h.released, h.stage, (h.regs _ (by decide)).trans hstrap, h.cause,
        (h.regs _ (by decide)).trans hset, h.mode⟩
  · have hlost : s.dev.supplyLost = false := hsup
    have hact : ∀ f, actAo s f = .next { s with dev := f s.dev } := fun f => actAo_next s f hlost hao
    refine ⟨fun side bench dies64 res => ?_, ⟨_, hact _, ?_⟩, fun ins ir h => ?_, fun ins ir h => ⟨_, hact _, ?_⟩,
      fun ins ir hb hsec htap herr => ⟨_, hact _, doTapInstruction_holds hb hsec htap herr⟩,
      fun res htap => ⟨_, hact _, doTapTestLogicReset_spec s.dev res s.array htap⟩⟩
    · show execPgAoRise side bench dies64 res s = _
      unfold execPgAoRise
      rw [if_pos (by rw [hao, hlost]; rfl)]
    · unfold doPgAoFall
      extract_lets d1
      have h1 : d1.pgMain = s.dev.pgMain ∧ d1.supplyLost = s.dev.supplyLost := by
        simp only [d1]
        split
        · exact ⟨rfl, rfl⟩
        · exact ⟨rfl, rfl⟩
      clear_value d1
      split
      · next hpg => exact ⟨rfl, rfl, (h1.1.symm.trans hpg).symm⟩
      · next hpg => exact ⟨rfl, rfl, (h1.2.trans hlost).trans (h1.1.symm.trans (Bool.eq_false_iff.mpr hpg)).symm⟩
    · have hsame : doTapInstruction ins ir s.dev = s.dev := if_pos (by rcases h with rfl | ⟨hb, hsec⟩ <;> simp [*])
      exact (hact _).trans (by rw [hsame])
    · have hset : doTapInstruction ins ir s.dev = s.dev.setFld Reg.TST_TAP_STS 7 0 ir := by
        unfold doTapInstruction
        rcases List.mem_pair.mp h with rfl | rfl
        · exact (if_neg (by simp [tapBoundary])).trans (if_pos (by simp [tapBoundary]))
        · exact (if_neg (by simp [tapBoundary])).trans (if_pos (by simp [tapBoundary]))
      rw [hset]
      exact ⟨Dev.fld_setFld_self _ _ _ _ _ (by decide), Dev.flag_setFld_ne _ (by decide) _ _ _ _⟩

end Sys2Proof.Machine
end

section
/-! What goes on when the twin's answer has come, or is waited for no longer: map changes, contexts and completions, with the messages that
they send (R23, R25, R182, R386, R405). -/

namespace Sys2Proof.Machine

-- In order, one declaration at a time: keeps the check within its memory limit.
set_option Elab.async false

/-! ### The frame -/

/-- The device without what goes on once the twin has answered. -/
def Dev.sansSettled (d : Dev) : Dev :=
  { d.sansPosting with
    pages := [], incidents := [], incWait := [], crHold := [], ctxPend := [], ctxs := [], dlogStalled := false, events := [], gpfRun := false
    pwDirty := [], pwUnmir := 0 }

/-- The registers that this changes. -/
def settleRegs : List Nat :=
  reportRegs ++ postRegs ++ [Reg.HIF_GPF_STS, Reg.HIF_PWIN_DIRTY, Reg.SHF_BM_DIRTY, Reg.CRY_OP_STS, Reg.STK_POOL, Reg.STK_SHARED] ++
  (List.range 10).map Reg.STK_CR_USED

/-- A slice as it was, but for what is in flight, what it has used of its headroom, and its operation. -/
def Slice.Alike (p q : Slice) : Prop := p = { q with inflight := p.inflight, hdrmUsed := p.hdrmUsed, opBusy := p.opBusy }

theorem Slice.Alike.refl (p : Slice) : p.Alike p := rfl

theorem Slice.Alike.of (p : Slice) (n k : Nat) (b : Bool) : Slice.Alike { p with inflight := n, hdrmUsed := k, opBusy := b } p := rfl

theorem Slice.Alike.trans {p q r : Slice} (h : p.Alike q) (h' : q.Alike r) : p.Alike r := by
  unfold Slice.Alike at h h' ⊢
  rw [h, h']

theorem Slice.Alike.fields {p q : Slice} (h : p.Alike q) : p.st = q.st ∧ p.sgen = q.sgen ∧ p.blks = q.blks := by
  unfold Slice.Alike at h
  rw [h]
  exact ⟨rfl, rfl, rfl⟩

/-- What the messages to the twin and the slices are kept in. -/
def Dev.line (d : Dev) : SMap Slice × List GSent × Nat := (d.slices, d.gPend, d.gTx)

/-- From `d` to `t` map changes, contexts and commands go on: slices keep their states, and messages to the twin are only added, by a unit that has one. -/
structure Dev.Settles (d t : Dev) : Prop where
  frame : Dev.Frame Dev.sansSettled settleRegs d t
  slice : ∀ s, (t.slice s).Alike (d.slice s)
  sent : ∃ l, t.gPend = d.gPend ++ l ∧ (d.mayPair = true → l = []) ∧ ∀ x ∈ l, d.gTx ≤ x.mnum
  next : d.gTx ≤ t.gTx

section
variable {d e t : Dev}

theorem Dev.mayPair_of_reg (h : t.reg Reg.TWN_STS = d.reg Reg.TWN_STS) : t.mayPair = d.mayPair := by
  have htwin : t.twin = d.twin := Dev.fld_congr h 3 0
  unfold Dev.mayPair
  rw [htwin]

theorem Dev.Settles.of_line (hf : Dev.Frame Dev.sansSettled settleRegs d t) (hl : t.line = d.line) : d.Settles t := by
  obtain ⟨hs, hg⟩ := Prod.mk.inj hl
  obtain ⟨hp, hn⟩ := Prod.mk.inj hg
  have hs' : ∀ s, t.slice s = d.slice s := fun s => congrArg (fun m => SMap.get (fun _ => Slice.reset) m s) hs
  exact ⟨hf, fun s => by rw [hs' s]; exact .refl _, ⟨[], by rw [List.append_nil]; exact hp, fun _ => rfl, fun _ hx => nomatch hx⟩, hn.ge⟩

theorem Dev.Settles.refl (d : Dev) : d.Settles d := .of_line (.refl d) rfl

theorem Dev.Settles.trans (h : d.Settles e) (h' : e.Settles t) : d.Settles t := by
  obtain ⟨l, hl, hmay, hmn⟩ := h.sent
  obtain ⟨k, hk, hmay', hmn'⟩ := h'.sent
  refine ⟨h.frame.trans h'.frame, fun s => (h'.slice s).trans (h.slice s), ⟨l ++ k, ?_, fun hd => ?_, fun x hx => ?_⟩, h.next.trans h'.next⟩
  · rw [hk, hl, List.append_assoc]
  · rw [hmay hd, hmay' ((Dev.mayPair_of_reg (h.frame.regs _ (by decide))).trans hd)]
    rfl
  · exact (List.mem_append.mp hx).elim (hmn x) (fun h2 => h.next.trans (hmn' x h2))

theorem Dev.Settles.ite {c : Prop} [Decidable c] (h : d.Settles e) (h' : d.Settles t) : d.Settles (if c then e else t) := by
  split
  · exact h
  · exact h'

theorem Dev.Settles.foldl {α : Type} {f : Dev → α → Dev} (h : ∀ (e : Dev) x, e.Settles (f e x)) (l : List α) (d : Dev) : d.Settles (l.foldl f d) :=
  List.foldlRecOn (motive := fun e : Dev => d.Settles e) l f (.refl d) (fun e he x _ => he.trans (h e x))

theorem Dev.Settles.of_posts (h : d.Posts t) (hl : t.line = d.line) : d.Settles t :=
  .of_line (Dev.Frame.weaken h (fun _ => rfl) (by decide)) hl

theorem Dev.line_of_reports (h : d.Reports t) : t.line = d.line := by
  have hk := congrArg (fun x : Dev => (x.slices, x.gPend, x.gTx)) h.kept
  exact hk

theorem Dev.Settles.of_reports (h : d.Reports t) : d.Settles t :=
  .of_line (Dev.Frame.weaken h (fun _ => rfl) (by decide)) (Dev.line_of_reports h)

/-- A change that the frame hides. -/
theorem Dev.Settles.hide (h : t.sansSettled = d.sansSettled) (hl : t.line = d.line := by rfl) (hr : t.regs = d.regs := by rfl)
    (ho : t.out = d.out := by rfl) (hp : t.pages = d.pages := by rfl) : d.Settles t := .of_line (.hidden h hr ho hp) hl

theorem Dev.Settles.setReg {off : Nat} (h : off ∈ settleRegs) (d : Dev) (v : Word) (hm : off ∉ modeRegs := by decide) : d.Settles (d.setReg off v) :=
  .of_line (.setReg h v (hm := hm)) rfl

theorem Dev.slice_setSlice_self (d : Dev) (s : Nat) (x : Slice) : (d.setSlice s x).slice s = x := SMap.get_set_self _ _ _ _

theorem Dev.slice_setSlice_ne (d : Dev) {s k : Nat} (h : k ≠ s) (x : Slice) : (d.setSlice s x).slice k = d.slice k := SMap.get_set_ne _ _ _ _ _ h

theorem Dev.Settles.setSlice (d : Dev) {s : Nat} {x : Slice} (h : x.Alike (d.slice s)) : d.Settles (d.setSlice s x) := by
  refine ⟨.hidden rfl rfl rfl, fun k => ?_, ⟨[], (List.append_nil _).symm, fun _ => rfl, fun _ hx => nomatch hx⟩, le_rfl⟩
  by_cases hk : k = s
  · rw [hk, Dev.slice_setSlice_self]
    exact h
  · rw [Dev.slice_setSlice_ne d hk]
    exact .refl _

variable (d)

theorem Dev.Settles.raise (pg bit : Nat) : d.Settles (d.raise pg bit) := .of_reports (Dev.Reports.raise d pg bit)

theorem Dev.Settles.recordErr (pg code i0 i1 : Nat) : d.Settles (d.recordErr pg code i0 i1) := .of_reports (Dev.Reports.recordErr d pg code i0 i1)

/-! ### Messages -/

theorem Dev.line_putGulon (kind mnum : Nat) (last : Bool) (fs : Fields) : (d.putGulon kind mnum last fs).line = d.line := by
  have hlast : ∀ (e : Dev) (w : Word) (a b : Nat), ({ e.setReg Reg.TWN_TX_INV w with gLastTx := a, gSaid := b } : Dev).line = e.line := fun _ _ _ _ => rfl
  unfold Dev.putGulon
  extract_lets inv len hd e
  have he : e.line = d.line := by
    simp only [e]
    split <;> rfl
  split
  · rfl
  · exact (hlast e _ _ _).trans he

theorem Dev.Settles.sendPart (kind : Nat) (last : Bool) (fs : Fields) : d.Settles (d.sendPart kind last fs) := by
  have hf : Dev.Frame Dev.sansSettled settleRegs d (d.sendPart kind last fs) := Dev.Frame.weaken (Dev.Posts.sendPart d kind last fs) (fun _ => rfl) (by decide)
  refine ⟨hf, fun s => ?_, ?_, ?_⟩
  · have hs : (d.sendPart kind last fs).slices = d.slices := congrArg (·.slices) (Dev.Messages.sendPart d kind last fs).kept
    rw [Dev.slice, Dev.slice, hs]
    exact .refl _
  all_goals
    unfold Dev.sendPart
    extract_lets go d1 d2
    have h1 : d1.line = d.line := by
      simp only [d1]
      split
      · exact d.line_putGulon _ _ _ _
      · rfl
    obtain ⟨-, hg⟩ := Prod.mk.inj h1
    obtain ⟨hp, hn⟩ := Prod.mk.inj hg
    clear_value d1 go
  · split
    · next hlive =>
      refine ⟨[⟨d1.gTx, kind, d1.tick, last, fs, go⟩], congrArg (· ++ [(⟨d1.gTx, kind, d1.tick, last, fs, go⟩ : GSent)]) hp, fun hmay => ?_, fun x hx => ?_⟩
      · simp only [Dev.mayPair, Dev.paired, Bool.or_eq_true, Bool.and_eq_true, beq_iff_eq, decide_eq_true_eq] at hmay hlive
        omega
      · rw [List.mem_singleton.mp hx]
        exact hn.ge
    · exact ⟨[], (List.append_nil _).symm, fun _ => rfl, fun _ hx => nomatch hx⟩
  · split
    · exact hn.ge.trans (Nat.le_succ _)
    · exact le_rfl

theorem Dev.Settles.sendGulon (kind : Nat) (fs : Fields) : d.Settles (d.sendGulon kind fs) := .sendPart d kind true fs

theorem Dev.Settles.journal (b : JBatch) : d.Settles (d.journal b) := .ite (.sendGulon d _ _) (.refl d)

theorem Dev.Settles.setKept {s : Nat} {x : Slice} (h : x.Alike (d.slice s)) : d.Settles (d.setKept s x) :=
  (Dev.Settles.setSlice d h).trans (.ite (.journal _ _) (.refl _))

/-! ### Map changes -/

theorem Dev.line_makeResident (pk : Nat) : (d.makeResident pk).line = d.line := by
  have hlast : ∀ e : Dev, ({ e with resident := e.resident ++ [pk], mapWant := e.mapWant.erase pk } : Dev).line = e.line := fun _ => rfl
  unfold Dev.makeResident
  split
  · rfl
  · extract_lets e
    refine (hlast e).trans ?_
    simp only [e]
    split <;> rfl

theorem Dev.line_putEnt (s g : Nat) (x : MapEnt) : (d.putEnt s g x).line = d.line := by
  unfold Dev.putEnt
  extract_lets pk d1 d2 d3 d4
  have h4 : d4.line = d3.line := by
    simp only [d4]
    split
    · rfl
    · rfl
  have h : (d4.setFld Reg.MAP_CACHE_DIRTY 20 0 d4.dirty.length).revalid.line = d4.line := rfl
  exact (h.trans h4).trans (Dev.line_makeResident d2 pk)

theorem Dev.line_freeSlots (n : Nat) : (d.freeSlots n).line = d.line := rfl

theorem Dev.line_revalid : d.revalid.line = d.line := rfl

theorem Dev.line_dropVers (p : Ver → Bool) : (d.dropVers p).line = d.line := by
  have hlast : ∀ (e : Dev) (l : List Nat), ({ e with freeQ := l } : Dev).line = e.line := fun _ _ => rfl
  unfold Dev.dropVers
  extract_lets gone d1 d2 d3
  have h1 : d1.line = d.line := rfl
  have h3 : d3.line = d.line := ((Dev.line_revalid d2).trans (Dev.line_freeSlots d1 _)).trans h1
  clear_value d3
  split
  · rfl
  · split
    · exact (hlast d3 _).trans h3
    · exact h3

theorem Dev.line_inc64 (lo hi n : Nat) : (d.inc64 lo hi n).line = d.line := rfl

theorem Dev.line_applyEnt (x : MapChg) : (d.applyEnt x).line = d.line := by
  unfold Dev.applyEnt
  extract_lets here
  split
  · split
    · exact (Dev.line_inc64 _ _ _ _).trans (Dev.line_putEnt d _ _ _)
    · rfl
  · split
    · exact (Dev.line_dropVers _ _).trans (Dev.line_putEnt d _ _ _)
    · exact Dev.line_dropVers d _

theorem Dev.Settles.applyEnt (x : MapChg) : d.Settles (d.applyEnt x) := .of_posts (Dev.Posts.applyEnt d x) (d.line_applyEnt x)

theorem Dev.Settles.dropVers (p : Ver → Bool) : d.Settles (d.dropVers p) := .of_posts (Dev.Posts.dropVers d p) (d.line_dropVers p)

theorem Dev.Settles.countBehind (s : Nat) (gs : List Nat) : d.Settles (d.countBehind s gs) := by
  refine .of_posts (Dev.Posts.countBehind d s gs) ?_
  unfold Dev.countBehind
  extract_lets lo hit
  split <;> rfl

theorem Dev.Settles.applyOwned (o : Nat) : d.Settles (d.applyOwned o) :=
  (Dev.Settles.hide rfl : d.Settles { d with mapPend := d.mapPend.filter (fun x => x.owner != some o) }).trans (.foldl Dev.Settles.applyEnt _ _)

theorem Dev.Settles.pwCount : d.Settles d.pwCount := .setReg (by decide) d _

theorem Dev.Settles.pwCommitted (s g : Nat) : d.Settles (d.pwCommitted s g) := by
  unfold Dev.pwCommitted
  split
  · exact .refl d
  · next w _ =>
    have hclean : ∀ e : Dev, e.Settles { e with pwDirty := pwCleaned d.pwDirty w }.pwCount := fun e =>
      (Dev.Settles.hide rfl : e.Settles { e with pwDirty := pwCleaned d.pwDirty w }).trans (.pwCount _)
    exact .ite ((Dev.Settles.countBehind d s [g]).trans (hclean _)) (.refl d)

theorem Dev.Settles.applyChg (x : MapChg) : d.Settles (d.applyChg x) := by
  unfold Dev.applyChg
  extract_lets d1
  have h1 : d.Settles d1 := .ite (.pwCommitted d _ _) (.refl d)
  exact h1.trans (.applyEnt d1 x)

theorem Dev.Settles.applyReady (p : MapChg → Bool) : d.Settles (d.applyReady p) := by
  unfold Dev.applyReady
  extract_lets go
  exact (Dev.Settles.hide rfl : d.Settles { d with mapPend := d.mapPend.filter (fun x => !go x) }).trans (.foldl Dev.Settles.applyChg _ _)

/-! ### Contexts -/

theorem Dev.Settles.moveCtx (c : Nat) (x y : Ctx) : d.Settles (d.moveCtx c x y) := by
  unfold Dev.moveCtx
  extract_lets few d1 d2
  have h1 : d.Settles d1 := .hide rfl
  have h2 : d1.Settles d2 := .ite (.raise d1 _ _) (.refl d1)
  exact (h1.trans h2).trans (.ite (.raise d2 _ _) (.refl d2))

theorem Dev.Settles.opDone (s : Nat) : d.Settles (d.opDone s) := (Dev.Settles.setSlice d (.of _ _ _ _)).trans (.raise _ _ _)

theorem Dev.Settles.ctxOver (x : CtxChg) : d.Settles (d.ctxOver x) :=
  .ite ((Dev.Settles.setReg (by decide) d _).trans (.raise _ _ _)) (.ite (.refl d) (.opDone d _))

theorem Dev.Settles.ctxLands (x : CtxChg) : d.Settles (d.ctxLands x) := by
  unfold Dev.ctxLands
  extract_lets c cur
  split
  · exact (Dev.Settles.moveCtx d _ _ _).trans (.ctxOver _ _)
  · exact (Dev.Settles.moveCtx d _ _ _).trans (.ctxOver _ _)
  · exact (Dev.Settles.moveCtx d _ _ _).trans (.ctxOver _ _)

theorem Dev.Settles.ctxPend (l : List CtxChg) : d.Settles { d with ctxPend := l } := .hide rfl

theorem Dev.Settles.ctxReady (p : CtxChg → Bool) : d.Settles (d.ctxReady p) := by
  unfold Dev.ctxReady
  extract_lets rest d1
  have h1 : d.Settles d1 := .foldl (fun e x => (Dev.Settles.ctxPend e _).trans (.ctxLands _ x)) _ d
  exact h1.trans (.ctxPend d1 rest)

/-! ### Completions -/

theorem Dev.line_score (src v : Nat) (slice cls group : Option Nat) : (d.score src v slice cls group).line = d.line :=
  List.foldlRecOn (motive := fun e : Dev => e.line = d.line) _ _ rfl (fun e he b _ => by
    dsimp only
    split
    · exact he
    · split <;> exact he)

theorem Dev.Settles.score (src v : Nat) (slice cls group : Option Nat) : d.Settles (d.score src v slice cls group) :=
  .of_posts (Dev.Posts.score d _ _ _ _ _) (d.line_score _ _ _ _ _)

theorem Dev.Settles.scorePost (qid : Nat) (c : Cmd) : d.Settles (d.scorePost qid c) := by
  unfold Dev.scorePost
  extract_lets s lat src d1
  have h1 : d.Settles d1 := .ite (.score d _ _ _ _ _) (.refl d)
  exact h1.trans (.ite (.score d1 _ _ _ _ _) (.refl d1))

theorem Dev.Settles.unmerge (s g gv : Nat) : d.Settles (d.unmerge s g gv) := by
  unfold Dev.unmerge
  extract_lets hit d1
  have h1 : d.Settles d1 := .hide rfl
  exact .ite (.refl d) (.ite (h1.trans (.sendGulon d1 _ _)) h1)

theorem Dev.Settles.onPost (qid : Nat) (c : Cmd) : d.Settles (d.onPost qid c) := by
  unfold Dev.onPost
  extract_lets s d1 d2
  have h1 : d.Settles d1 := .hide rfl
  have h2 : d1.Settles d2 := .countBehind d1 _ _
  exact (h1.trans h2).trans (.applyOwned d2 _)

theorem Dev.Settles.onFail (qid : Nat) (c : Cmd) : d.Settles (d.onFail qid c) := by
  unfold Dev.onFail
  extract_lets mine placed gone d1 d2 d3 x
  have h0 : d.Settles { d with mapPend := d.mapPend.filter (fun x => x.owner != some (qid * 32 + c.tag)) } := .hide rfl
  have h1 : d.Settles d1 := h0.trans (.dropVers _ _)
  have h2 : d1.Settles d2 := .foldl (fun e _ => .unmerge e _ _ _) _ d1
  have hfree : ∀ e : Dev, e.Settles (e.freeSlots (c.slots - placed)) := fun e => .of_posts (Dev.Posts.freeSlots e _) rfl
  have hvalid : d2.Settles (if c.passed && !c.placed then d2.revalid else d2) := .ite (.of_posts (Dev.Posts.revalid d2) rfl) (.refl d2)
  have h3 : d2.Settles d3 := hvalid.trans (hfree _)
  exact ((h1.trans h2).trans h3).trans (.ite (.setKept d3 (.of _ _ _ _)) (.refl d3))

theorem Dev.line_msix (h : Option Nat) (vec : Nat) : (d.msix h vec).line = d.line := by
  rw [Dev.msix_eq]
  rfl

theorem Dev.Settles.setQueue (q : Nat) (x : Queue) : d.Settles (d.setQueue q x) := .hide rfl

theorem Dev.Settles.announce (qid : Nat) : d.Settles (d.announce qid) := by
  unfold Dev.announce
  extract_lets q d1
  have h1 : d.Settles d1 := .setQueue d _ _
  exact .ite (h1.trans (.of_posts (Dev.Posts.msix d1 _ _) (d1.line_msix _ _))) h1

theorem Dev.Settles.capRec (kind src : Nat) (fs : Fields) : d.Settles (d.capRec kind src fs) :=
  .of_posts (Dev.Posts.capRec d kind src fs) (by rw [Dev.capRec_eq]; rfl)

theorem Dev.Settles.emit (o : Out) : d.Settles (d.emit o) := .of_posts (Dev.Frame.emit o) rfl

theorem Dev.Settles.writeCe (qid head : Nat) (ce : CE) : d.Settles (d.writeCe qid head ce) := by
  unfold Dev.writeCe
  extract_lets q n timeb tagw d1 cmd q1 d2 d3 now
  have h1 : d.Settles d1 := (Dev.Settles.capRec d _ _ _).trans (.emit _ _)
  have h2 : d1.Settles d2 := .setQueue d1 _ _
  have h3 : d2.Settles d3 := by
    clear_value cmd d2
    cases cmd with
    | none => exact .refl d2
    | some c =>
      exact ((Dev.Settles.scorePost d2 _ _).trans (.setSlice _ (.of _ _ _ _))).trans (.ite (.ite (.onPost _ _ _) (.onFail _ _ _)) (.refl _))
  exact ((h1.trans h2).trans h3).trans (.ite (.announce d3 _) (.refl d3))

theorem Dev.Settles.post (qid : Nat) (ce : CE) : d.Settles (d.post qid ce) := by
  simp only [Dev.post]
  split
  · exact .writeCe d _ _ _
  · exact .setQueue d _ _

theorem Dev.Settles.completeAll (status : Nat) : d.Settles (d.completeAll status) :=
  .foldl (fun e _ => .foldl (fun e _ => .post e _ _) _ e) _ d

theorem Dev.Settles.freeCredit (p : Nat → Bool) : d.Settles (d.freeCredit p) := by
  have huse : ∀ e : Dev, e.Settles ((List.range 10).foldl (fun d c => d.setFld (Reg.STK_CR_USED c) 23 0 (d.crUsed c)) e) := fun e =>
    List.foldlRecOn (motive := fun x : Dev => e.Settles x) _ _ (.refl e) (fun x hx c hc => hx.trans (by
      refine Dev.Settles.setReg ?_ x _ (hm := ?_)
      · simp only [settleRegs, List.mem_append, List.mem_map]
        exact Or.inr ⟨c, hc, rfl⟩
      · have hc10 : c < 10 := List.mem_range.mp hc
        simp only [modeRegs, List.mem_cons, List.not_mem_nil, or_false, Reg.STK_CR_USED, Reg.PWR_MODE_STS, Reg.GLB_DEV_STS]
        omega))
  have hcounts : ∀ e : Dev, e.Settles e.crCounts := fun e => by
    unfold Dev.crCounts
    extract_lets d1 d2
    have h1 : e.Settles d1 := huse e
    have h2 : d1.Settles d2 := .setReg (by decide) d1 _
    exact (h1.trans h2).trans ((Dev.Settles.setReg (by decide) d2 _).trans (.setReg (by decide) _ _))
  have hfree : d.Settles { d with crHold := d.crHold.filter (fun kv => !p (kv.1 / 16)) } := .hide rfl
  exact .ite (hfree.trans (hcounts _)) (.refl d)

theorem Dev.Settles.dlogStall : d.Settles d.dlogStall := by
  have hstall : ∀ e : Dev, e.Settles { e with dlogStalled := true } := fun e => .hide rfl
  exact .ite (.refl d) (((Dev.Settles.recordErr d _ _ _ _).trans (hstall _)).trans (.raise _ _ _))

theorem Dev.Settles.tryPost (qid tag : Nat) : d.Settles (d.tryPost qid tag) := by
  unfold Dev.tryPost
  split
  · exact .ite (((Dev.Settles.setQueue d _ _).trans (.post _ _ _)).trans (.freeCredit _ _)) (.ite (.dlogStall d) (.refl d))
  · exact .refl d

theorem Dev.Settles.postPlaced : d.Settles d.postPlaced := .foldl (fun e _ => .tryPost e _ _) _ d

theorem Dev.Settles.gpfTry : d.Settles d.gpfTry := by
  have hdone : d.Settles d.gpfDone := by
    unfold Dev.gpfDone
    extract_lets single d1 d2 d3
    have h1 : d.Settles d1 := (Dev.Settles.setReg (by decide) d _).trans (.setReg (by decide) _ _)
    have h2 : d1.Settles d2 := (Dev.Settles.setReg (by decide) d1 _).trans (.raise _ _ _)
    have h3 : d2.Settles d3 := .hide rfl
    exact ((h1.trans h2).trans h3).trans (.ite (.hide rfl) (.refl d3))
  exact .ite hdone (.refl d)

end

end Sys2Proof.Machine
end

section
/-! Going on without the twin, taking its slices over, and what is sent to it (R23, R386, R401, R402, R405). -/

namespace Sys2Proof.Machine

-- In order, one declaration at a time: keeps the check within its memory limit.
set_option Elab.async false

/-! ### With one copy (R23, R402, R405) -/

/-- The device without what changes when it goes on alone. -/
def Dev.sansSingle (d : Dev) : Dev :=
  { d.sansSettled with
    ports := [], gPrev := 0, giving := [], bmDirty := [], resync := [], pwTwin := [], twinVers := [], twinRegions := [], twinUsed := 0 }

/-- The registers that this changes. -/
def singleRegs : List Nat := settleRegs ++ [Reg.TWN_PAGES]

/-- `t` comes from `d` by going on with one copy. -/
structure Dev.Singles (d t : Dev) : Prop where
  frame : Dev.Frame Dev.sansSingle singleRegs d t
  slice : ∀ s, (t.slice s).Alike (d.slice s)

section
variable {d e t : Dev}

theorem Dev.Singles.trans (h : d.Singles e) (h' : e.Singles t) : d.Singles t :=
  ⟨h.frame.trans h'.frame, fun s => (h'.slice s).trans (h.slice s)⟩

theorem Dev.Singles.of_settles (h : d.Settles t) : d.Singles t :=
  ⟨Dev.Frame.weaken h.frame (fun _ => rfl) (fun _ ho => List.mem_append_left _ ho), h.slice⟩

theorem Dev.Singles.hide (h : t.sansSingle = d.sansSingle) (hs : t.slices = d.slices := by rfl) (hr : t.regs = d.regs := by rfl)
    (ho : t.out = d.out := by rfl) (hp : t.pages = d.pages := by rfl) : d.Singles t :=
  ⟨.hidden h hr ho hp, fun s => by rw [Dev.slice, Dev.slice, hs]; exact .refl _⟩

theorem Dev.Singles.setReg {off : Nat} (h : off ∈ singleRegs) (d : Dev) (v : Word) (hm : off ∉ modeRegs := by decide) : d.Singles (d.setReg off v) :=
  ⟨.setReg h v (hm := hm), fun _ => .refl _⟩

variable (d)

theorem Dev.Singles.dropTwins : d.Singles d.dropTwins := by
  have hdrop : d.Singles { d with pwTwin := [], twinVers := [], twinRegions := [], twinUsed := 0 } := .hide rfl
  exact hdrop.trans (.setReg (by decide) _ _)

theorem Dev.Singles.takeTwins : d.Singles d.takeTwins := by
  unfold Dev.takeTwins
  extract_lets own mirrored d1
  have h1 : d.Singles d1 := .hide rfl
  exact h1.trans (.setReg (by decide) d1 _)

/-- A unit that has no twin waits for nothing more. -/
theorem Dev.singleNow_spec : d.Singles d.singleNow ∧ d.singleNow.giving = [] ∧ (d.mayPair = true → d.singleNow.gPend = []) := by
  unfold Dev.singleNow
  extract_lets late d1 d2
  have h1 : d.Singles d1 := .hide rfl
  have h2 : d1.Singles d2 := (Dev.Singles.setReg (by decide) d1 _).trans (.setReg (by decide) _ _)
  have hset : ∀ off ∈ settleRegs, off ∉ modeRegs → ∀ (e : Dev) v, e.Settles (e.setReg off v) := fun off ho hm e v => .setReg ho e v (hm := hm)
  have hcounts : ∀ e : Dev, e.Settles e.pwCount.bmCount.revalid := fun e =>
    ((Dev.Settles.pwCount e).trans (hset _ (by decide) (by decide) _ _)).trans (.of_posts (Dev.Posts.revalid _) rfl)
  have h3 : d2.Settles (((d2.applyReady (fun _ => true)).ctxReady (fun _ => true)).pwCount.bmCount.revalid).postPlaced.gpfTry :=
    ((((Dev.Settles.applyReady d2 _).trans (.ctxReady _ _)).trans (hcounts _)).trans (.postPlaced _)).trans (.gpfTry _)
  have hgiving := congrArg (·.giving) h3.frame.kept
  refine ⟨(h1.trans h2).trans (.of_settles h3), hgiving, fun hmay => ?_⟩
  obtain ⟨l, hl, hnone, -⟩ := h3.sent
  have hgone : d2.gPend = [] := rfl
  have hmay2 : d2.mayPair = true := (Dev.mayPair_of_reg ((h1.trans h2).frame.regs _ (by decide))).trans hmay
  rw [hl, hgone, hnone hmay2]
  rfl

end

/-! ### Slices that are taken over (R401) -/

/-- The device without what taking a slice over changes. -/
def Dev.sansAdopted (d : Dev) : Dev := { d.sansReports with ctxs := [], ctxStore := [], queues := [], slices := [], twinCtxs := [], twinSlices := [] }

/-- The registers that this changes. -/
def adoptRegs : List Nat := reportRegs ++ [Reg.VSL_SHARE_SUM, Reg.VSL_PIN_SUM, Reg.VSL_BOUND, Reg.DLR_TSUM]

/-- `t` comes from `d` by taking slices and contexts over. -/
abbrev Dev.Adopts (d t : Dev) : Prop := Dev.Frame Dev.sansAdopted adoptRegs d t

section
variable (d : Dev)

theorem Dev.Adopts.of_reports {d t : Dev} (h : d.Reports t) : d.Adopts t := Dev.Frame.weaken h (fun _ => rfl) (by decide)

theorem Dev.slices_of_reports {d t : Dev} (h : d.Reports t) : t.slices = d.slices := by
  have hk := congrArg (·.slices) h.kept
  exact hk

theorem Dev.moveCtx_spec (c : Nat) (x y : Ctx) : d.Adopts (d.moveCtx c x y) ∧ (d.moveCtx c x y).slices = d.slices := by
  unfold Dev.moveCtx
  extract_lets few d1 d2
  have h1 : d.Adopts d1 ∧ d1.slices = d.slices := ⟨.hidden rfl rfl rfl, rfl⟩
  have hraise : ∀ (e : Dev) (c : Prop) [Decidable c] n, e.Reports (if c then e.raise 0x400 n else e) := fun e c _ n => .ite (Dev.Reports.raise e _ _) (.refl e)
  have h2 : d1.Reports d2 := hraise d1 _ 1
  have h3 := h2.trans (hraise d2 (y.mode = 2 ∧ y.invocOf d2.side = 2 ^ 32 ∧ x.invocOf d2.side < 2 ^ 32) 2)
  exact ⟨h1.1.trans (Dev.Adopts.of_reports h3), (Dev.slices_of_reports h3).trans h1.2⟩

theorem Dev.loadCtx_spec (c : Nat) (x : CtxCopy) : d.Adopts (d.loadCtx c x) ∧ (d.loadCtx c x).slices = d.slices := by
  have hcopy : d.Adopts (d.setCopy c x.swept) ∧ (d.setCopy c x.swept).slices = d.slices := ⟨.hidden rfl rfl rfl, rfl⟩
  have hmove := (d.setCopy c x.swept).moveCtx_spec c Ctx.reset (x.load d.shelfKey)
  exact ⟨hcopy.1.trans hmove.1, hmove.2.trans hcopy.2⟩

/-- The sums over the slices are registers. -/
theorem Dev.sliceSums_frame : Dev.Frame Dev.sansReports adoptRegs d d.sliceSums := by
  have hreports : ∀ {e t : Dev}, e.Reports t → Dev.Frame Dev.sansReports adoptRegs e t := fun h => Dev.Frame.weaken h (fun _ => rfl) (by decide)
  have htrump : ∀ e : Dev, Dev.Frame Dev.sansReports adoptRegs e e.trumpSum := fun e => by
    unfold Dev.trumpSum
    extract_lets n was e1
    have h1 : Dev.Frame Dev.sansReports adoptRegs e e1 := .setReg (by decide) _
    exact h1.trans (.ite (hreports (Dev.Reports.raise e1 _ _)) (.refl e1))
  unfold Dev.sliceSums
  extract_lets bound d1 d2
  have h1 : Dev.Frame Dev.sansReports adoptRegs d d1 := .setFld (by decide) _ _ _
  have h2 : Dev.Frame Dev.sansReports adoptRegs d1 d2 := .setFld (by decide) _ _ _
  have h3 : Dev.Frame Dev.sansReports adoptRegs d2 (d2.setFld Reg.VSL_BOUND 10 0 bound.length) := .setFld (by decide) _ _ _
  exact ((h1.trans h2).trans h3).trans (htrump _)

theorem Dev.sliceSums_keeps : d.sliceSums.slices = d.slices ∧ d.sliceSums.twinSlices = d.twinSlices ∧ d.sliceSums.gPend = d.gPend := by
  have h := congrArg (fun x : Dev => (x.slices, x.twinSlices, x.gPend)) d.sliceSums_frame.kept
  obtain ⟨h1, h2⟩ := Prod.mk.inj h
  obtain ⟨h2, h3⟩ := Prod.mk.inj h2
  exact ⟨h1, h2, h3⟩

/-- The slice as it is taken over. -/
def Dev.adopted (d : Dev) (x : MSlice) : Slice :=
  { Slice.reset with
    st := if x.st = SliceSt.clearing.code then .clearing else .frozen, opBusy := x.st == SliceSt.clearing.code, pasid := x.pasid % 2 ^ 20, blks := x.blks, share := x.share, tshare := x.tshare, shareAct := x.share,
    tshareAct := x.tshare, trumpEn := x.trumpEn, qpMax := x.qpMax, pin := x.pin, hdrm := x.hdrm, sgen := x.sgen % 16,
    hdrmUsed := if d.health = 2 then x.hdrmUsed else 0,
    saveseq := (d.slice (x.slice % 1024)).saveseq }

theorem Dev.slice_of_slices {d t : Dev} (h : t.slices = d.slices) (k : Nat) : t.slice k = d.slice k := by rw [Dev.slice, h, Dev.slice]

theorem Dev.adoptSlice_spec (x : MSlice) : d.Adopts (d.adoptSlice x) ∧
    ∀ k, (d.adoptSlice x).slice k = if k = x.slice % 1024 then d.adopted x else d.slice k := by
  have hset : ∀ y : Slice, d.Adopts (d.setSlice (x.slice % 1024) y) := fun y => .hidden rfl rfl rfl
  have hload : ∀ (l : List Nat) (e : Dev), e.Adopts (l.foldl (fun (d : Dev) c => match d.twinCtxs.find c with
      | some k => (fun (d : Dev) => if x.st = SliceSt.clearing.code then d else d.loadCtx c k) { d with twinCtxs := SMap.erase d.twinCtxs c }
      | none => d) e) ∧ (l.foldl (fun (d : Dev) c => match d.twinCtxs.find c with
      | some k => (fun (d : Dev) => if x.st = SliceSt.clearing.code then d else d.loadCtx c k) { d with twinCtxs := SMap.erase d.twinCtxs c }
      | none => d) e).slices = e.slices := fun l e =>
    List.foldlRecOn (motive := fun t : Dev => e.Adopts t ∧ t.slices = e.slices) l _ ⟨.refl e, rfl⟩ (fun t ht c _ => by
      split
      · next k _ =>
        have herase : t.Adopts { t with twinCtxs := SMap.erase t.twinCtxs c } := .hidden rfl rfl rfl
        dsimp only
        split
        · exact ⟨ht.1.trans herase, ht.2⟩
        · obtain ⟨hl, hs⟩ := Dev.loadCtx_spec { t with twinCtxs := SMap.erase t.twinCtxs c } c k
          exact ⟨(ht.1.trans herase).trans hl, hs.trans ht.2⟩
      · exact ht)
  have hdrop : ∀ e : Dev, e.Adopts { e with
      queues := e.queues.filter (fun (kv : Nat × Queue) => kv.1 / 16 != x.slice % 1024), twinSlices := SMap.erase e.twinSlices (x.slice % 1024) } ∧
      ({ e with queues := e.queues.filter (fun (kv : Nat × Queue) => kv.1 / 16 != x.slice % 1024), twinSlices := SMap.erase e.twinSlices (x.slice % 1024) } : Dev).slices =
        e.slices := fun e => ⟨.hidden rfl rfl rfl, rfl⟩
  unfold Dev.adoptSlice
  extract_lets s y d1 d2
  obtain ⟨h2, hs2⟩ : d1.Adopts d2 ∧ d2.slices = d1.slices := hload _ d1
  have h1 : d.Adopts d1 := hset (d.adopted x)
  have hs1 : ∀ k, d1.slice k = if k = x.slice % 1024 then d.adopted x else d.slice k := fun k => by
    by_cases hk : k = x.slice % 1024
    · rw [if_pos hk, hk]
      exact d.slice_setSlice_self _ _
    · rw [if_neg hk]
      exact d.slice_setSlice_ne hk _
  clear_value d1 d2
  obtain ⟨h3, hs3⟩ := hdrop d2
  have h4 := Dev.sliceSums_frame { d2 with
    queues := d2.queues.filter (fun (kv : Nat × Queue) => kv.1 / 16 != x.slice % 1024), twinSlices := SMap.erase d2.twinSlices (x.slice % 1024) }
  have hs4 := (Dev.sliceSums_keeps { d2 with
    queues := d2.queues.filter (fun (kv : Nat × Queue) => kv.1 / 16 != x.slice % 1024), twinSlices := SMap.erase d2.twinSlices (x.slice % 1024) }).1
  exact ⟨((h1.trans h2).trans h3).trans (Dev.Frame.weaken h4 (fun _ => rfl) (fun _ ho => ho)), fun k => (Dev.slice_of_slices ((hs4.trans hs3).trans hs2) k).trans (hs1 k)⟩

theorem Dev.ownCtxs_spec : d.Adopts d.ownCtxs ∧ d.ownCtxs.slices = d.slices := by
  have hfold := List.foldlRecOn (motive := fun t : Dev => d.Adopts t ∧ t.slices = d.slices) d.twinCtxs
    (fun (d : Dev) (kv : Nat × CtxCopy) => if (d.ctx kv.1).st = .empty ∧ (d.ctx kv.1).keygen ≤ kv.2.keygen then d.loadCtx kv.1 kv.2 else d) ⟨.refl d, rfl⟩
    (fun t ht kv _ => by
      split
      · exact ⟨ht.1.trans (t.loadCtx_spec _ _).1, (t.loadCtx_spec _ _).2.trans ht.2⟩
      · exact ht)
  have hnone : ∀ e : Dev, e.Adopts { e with twinCtxs := [] } ∧ ({ e with twinCtxs := [] } : Dev).slices = e.slices := fun e => ⟨.hidden rfl rfl rfl, rfl⟩
  exact ⟨hfold.1.trans (hnone _).1, (hnone _).2.trans hfold.2⟩

end

/-! ### The pairing state -/

section
variable (d : Dev)

theorem Dev.twinSts_setSingle (b : Bool) : (d.setSingle b).twin = d.twin ∧ (d.setSingle b).fence = d.fence ∧ (d.setSingle b).flag Reg.TWN_STS 4 = b := by
  unfold Dev.setSingle
  extract_lets d1 d2
  have h2 : d2.reg Reg.TWN_STS = (d.setFlag Reg.TWN_STS 4 b).reg Reg.TWN_STS :=
    (Dev.reg_setFlag_ne _ (by decide) _ _).trans ((Dev.reg_setFlag_ne d1 (by decide) _ _).trans (Dev.reg_setFlag_ne _ (by decide) _ _))
  have hlast : ((d2.setFlag Reg.STK_PWC_STS 2 b).setFlag Reg.HIF_PWIN_STS 1 (d2.twin != 3)).reg Reg.TWN_STS = (d.setFlag Reg.TWN_STS 4 b).reg Reg.TWN_STS :=
    (Dev.reg_setFlag_ne _ (by decide) _ _).trans ((Dev.reg_setFlag_ne d2 (by decide) _ _).trans h2)
  refine ⟨?_, ?_, ?_⟩
  · exact (Dev.fld_congr hlast 3 0).trans (Dev.fld_setFlag_other d _ _ _ _ _ (by decide) (by decide))
  · exact (Dev.fld_congr hlast 31 16).trans (Dev.fld_setFlag_other d _ _ _ _ _ (by decide) (by decide))
  · exact (Dev.flag_congr hlast 4).trans (Dev.flag_setFlag_self d _ _ _ (by decide))

/-- A unit enters a pairing state; FENCE stays. -/
theorem Dev.setTwin_spec {st : Nat} (hst : st < 16) : (d.setTwin st).twin = st ∧ (d.setTwin st).fence = d.fence ∧
    (d.twin ≠ st → 4 ≤ st → (d.setTwin st).flag Reg.TWN_STS 4 = true) := by
  unfold Dev.setTwin
  extract_lets d1 d2
  have h1 : d1.twin = st ∧ d1.fence = d.fence := by
    refine ⟨(Dev.fld_setFld_self d _ _ _ _ (by decide)).trans ?_, Dev.fld_setFld_other d _ _ _ _ _ _ (by decide) (by decide)⟩
    exact Nat.mod_eq_of_lt hst
  obtain ⟨htwin, hfence, hsingle⟩ := d1.twinSts_setSingle (if st = 3 then false else if st = 1 then d.flag Reg.TWN_STS 4
    else if st = 0 then d.flag Reg.TWN_STS 4 || d.released else true)
  have hreg : ∀ n, (d2.raise 0xC01 n).reg Reg.TWN_STS = d2.reg Reg.TWN_STS := fun n => (Dev.Reports.raise d2 _ n).regs _ (by decide)
  have h2 : d2.twin = st ∧ d2.fence = d.fence ∧ (d.twin ≠ st → 4 ≤ st → d2.flag Reg.TWN_STS 4 = true) :=
    ⟨htwin.trans h1.1, hfence.trans h1.2, fun _ h4 => hsingle.trans (by rw [if_neg (by omega), if_neg (by omega), if_neg (by omega)])⟩
  clear_value d2
  have hall : ∀ n, (d2.raise 0xC01 n).twin = st ∧ (d2.raise 0xC01 n).fence = d.fence ∧ (d.twin ≠ st → 4 ≤ st → (d2.raise 0xC01 n).flag Reg.TWN_STS 4 = true) :=
    fun n => ⟨(Dev.fld_congr (hreg n) 3 0).trans h2.1, (Dev.fld_congr (hreg n) 31 16).trans h2.2.1,
      fun hne h4 => (Dev.flag_congr (hreg n) 4).trans (h2.2.2 hne h4)⟩
  split
  · next h => exact ⟨h, rfl, fun hne => absurd h hne⟩
  · split
    · exact hall 0
    · split
      · exact hall 2
      · split
        · exact hall 3
        · exact h2

/-! ### Messages that are sent (R386) -/

/-- What is sent stands among the messages that no ACK covers yet. -/
theorem Dev.sends_sendGulon (h : d.twin = 2 ∨ d.paired = true) (kind : Nat) (fs : Fields) : (d.sendGulon kind fs).sends kind fs := by
  unfold Dev.sendGulon Dev.sendPart
  extract_lets go d1 d2
  rw [if_pos (by rcases h with h | h <;> simp [h])]
  exact ⟨_, List.mem_append_right _ (List.mem_singleton.mpr rfl), rfl, rfl⟩

theorem gHeader_mod {kind : Nat} (hk : kind < 256) (last : Bool) (len mnum ack keyep side inv : Nat) :
    gHeader kind last len mnum ack keyep side inv % 256 = kind := by
  unfold gHeader
  omega

/-- A message that may go leaves on the link. -/
theorem Dev.puts_putGulon (hinv : d.fld Reg.TWN_TX_INV 31 0 < 2 ^ 31) {kind : Nat} (hk : kind < 256) (mnum : Nat) (last : Bool) (fs : Fields) :
    d.puts (d.putGulon kind mnum last fs) kind := by
  have hlast : ∀ (e : Dev) (w : Word) (a b : Nat), ({ e.setReg Reg.TWN_TX_INV w with gLastTx := a, gSaid := b } : Dev).out = e.out := fun _ _ _ _ => rfl
  unfold Dev.putGulon
  extract_lets inv len hd e
  rw [if_neg (by omega)]
  have hmod : hd % 256 = kind := gHeader_mod hk _ _ _ _ _ _ _
  obtain ⟨body, tag, he⟩ : ∃ body tag, e.out = d.out ++ [.gulon hd body tag] := by
    simp only [e]
    split
    · exact ⟨_, _, rfl⟩
    · exact ⟨_, _, rfl⟩
  exact ⟨hd, body, tag, Dev.tells_of_out [] [] ((hlast e _ _ _).trans he), hmod⟩

theorem Dev.puts_sendGulon (h : d.twin = 2 ∨ d.paired = true) (hput : d.mayPut = true) {kind : Nat} (hk : kind < 256) (fs : Fields) :
    d.puts (d.sendGulon kind fs) kind := by
  have hinv : d.fld Reg.TWN_TX_INV 31 0 < 2 ^ 31 := by
    simp only [Dev.mayPut, Bool.and_eq_true, decide_eq_true_eq] at hput
    exact hput.2
  obtain ⟨hd, body, tag, htell, hmod⟩ := d.puts_putGulon hinv hk d.gTx true fs
  unfold Dev.sendGulon Dev.sendPart
  extract_lets go d1 d2
  rw [if_pos (by rcases h with h | h <;> simp [h])]
  have h1 : d1 = d.putGulon kind d.gTx true fs := if_pos hput
  have h2 : (d2.setFld Reg.TWN_MIR_PEND 15 0 (satN 16 d2.gPend.length)).out = d1.out := rfl
  refine ⟨hd, body, tag, ?_, hmod⟩
  rw [Dev.tells, h2, h1]
  exact htell

/-- The registers that show the pairing state. -/
def twinRegs : List Nat := reportRegs ++ [Reg.TWN_STS, Reg.SHF_BM_COPIES, Reg.STK_PWC_STS, Reg.HIF_PWIN_STS]

theorem Dev.reg_setTwin {off : Nat} (ho : off ∉ twinRegs) (st : Nat) : (d.setTwin st).reg off = d.reg off := by
  have hne : off ≠ Reg.TWN_STS ∧ off ≠ Reg.GLB_DEV_STS ∧ off ≠ Reg.SHF_BM_COPIES ∧ off ≠ Reg.STK_PWC_STS ∧ off ≠ Reg.HIF_PWIN_STS ∧ off ∉ reportRegs := by
    simp only [twinRegs, reportRegs, List.mem_append, List.mem_cons, List.not_mem_nil, or_false, not_or] at ho ⊢
    tauto
  obtain ⟨hsts, hdev, hbm, hpwc, hpwin, hrep⟩ := hne
  unfold Dev.setTwin
  extract_lets d1 d2
  have h2 : d2.reg off = d.reg off := by
    simp only [d2, Dev.setSingle]
    rw [Dev.reg_setFlag_ne _ hpwin, Dev.reg_setFlag_ne _ hpwc, Dev.reg_setFlag_ne _ hbm, Dev.reg_setFlag_ne _ hdev, Dev.reg_setFlag_ne _ hdev,
      Dev.reg_setFlag_ne _ hsts]
    exact Dev.reg_setFld_ne d hsts _ _ _
  clear_value d2
  have hraise : ∀ n, (d2.raise 0xC01 n).reg off = d.reg off := fun n => ((Dev.Reports.raise d2 _ n).regs _ hrep).trans h2
  split
  · rfl
  · split
    · exact hraise 0
    · split
      · exact hraise 2
      · split
        · exact hraise 3
        · exact h2

theorem Dev.linkDown_spec : d.linkDown.flag Reg.TWN_LINK_STS 0 = false ∧ (d.twin ≠ 1 → d.twin ≠ 2 → d.linkDown.reg Reg.TWN_STS = d.reg Reg.TWN_STS) := by
  have htwin : ∀ x : Dev, ({ x with syncEnd := none }.setTwin 0).reg Reg.TWN_LINK_STS = x.reg Reg.TWN_LINK_STS := fun x =>
    Dev.reg_setTwin { x with syncEnd := none } (by decide) 0
  unfold Dev.linkDown
  split
  · extract_lets d1 d2
    have h1 : d1.flag Reg.TWN_LINK_STS 0 = false ∧ d1.reg Reg.TWN_STS = d.reg Reg.TWN_STS := by
      refine ⟨?_, (Dev.reg_setFld_ne _ (by decide) _ _ _).trans (Dev.reg_setFlag_ne _ (by decide) _ _)⟩
      exact (Dev.flag_setFld_other _ _ _ _ _ _ (by decide) (by decide)).trans (Dev.flag_setFlag_self d _ _ _ (by decide))
    have hreg : ∀ off ∈ [Reg.TWN_LINK_STS, Reg.TWN_STS], d2.reg off = d1.reg off := fun off ho => by
      have hne : off ≠ Reg.TWN_LANE_MAP ∧ off ∉ reportRegs := (show ∀ o ∈ [Reg.TWN_LINK_STS, Reg.TWN_STS], o ≠ Reg.TWN_LANE_MAP ∧ o ∉ reportRegs by decide) off ho
      exact ((Dev.Reports.raise _ _ _).regs off hne.2).trans (Dev.reg_setFld_ne _ hne.1 _ _ _)
    clear_value d1 d2
    have h2 : d2.flag Reg.TWN_LINK_STS 0 = false := (Dev.flag_congr (hreg _ (by decide)) 0).trans h1.1
    have hsts : d2.reg Reg.TWN_STS = d.reg Reg.TWN_STS := (hreg _ (by decide)).trans h1.2
    split
    · next hdown =>
      refine ⟨(Dev.flag_congr (htwin d2) 0).trans h2, fun hne1 hne2 => ?_⟩
      have htw : d2.twin = d.twin := Dev.fld_congr hsts 3 0
      rw [htw] at hdown
      simp [hne1, hne2] at hdown
    · exact ⟨h2, fun _ _ => hsts⟩
  · next hoff => exact ⟨by simpa using hoff, fun _ _ => rfl⟩

theorem Dev.get64_set64_mod {lo hi : Nat} (h : lo ≠ hi) (v : Nat) : (d.set64 lo hi v).get64 lo hi = v % 2 ^ 64 := by
  rw [Dev.get64, Dev.set64, Dev.fld_setReg_self, Dev.fld_setReg_ne _ h, Dev.fld_setReg_self, bits_w32 _ _ _ (by decide), bits_w32 _ _ _ (by decide)]
  omega

end

end Sys2Proof.Machine
end

section
/-! Sending in time, the loss of the twin, takeover, leaving (R386, R397 to R402, R405, R407, R411). -/

namespace Sys2Proof.Machine

-- In order, one declaration at a time: keeps the check within its memory limit.
set_option Elab.async false

section
variable {d e t : Dev}

/-! ### Sending in time (R386, R397, R398) -/

theorem doFreeSend_spec (hq : d.freeQ ≠ []) (hstop : d.twnStop = false) (hpair : d.paired = true) : (doFreeSend d).freeQ = d.freeQ.drop 3000 ∧
    (doFreeSend d).sends 0x13 (freeFs ((d.freeQ.take 3000).map (fun k => (k / 2 ^ 20 / 2 ^ 37, k / 2 ^ 20 % 2 ^ 37, k % 2 ^ 20)))) := by
  unfold doFreeSend
  rw [if_neg (by simp [hq, hstop]), if_pos hpair]
  refine ⟨?_, Dev.sends_sendGulon { d with freeQ := d.freeQ.drop 3000 } (Or.inr hpair) _ _⟩
  exact congrArg (·.freeQ) (Dev.Messages.sendGulon { d with freeQ := d.freeQ.drop 3000 } _ _).kept

theorem doHeartbeatSend_spec (hstop : d.twnStop = false) (htwin : d.twin = 2 ∨ d.twin = 3) (hdue : d.gLastTx + 16384 ≤ d.tick ∨ d.gRx ≠ d.gSaid) :
    ∃ x, (doHeartbeatSend d).sends 0x40 (usedFs x d.ownUsed) := by
  have hlive : d.twin = 2 ∨ d.paired = true := htwin.imp_right (fun h => by simp [Dev.paired, h])
  have hnow : (decide (d.tick < d.gLastTx + 8 * 2048) && d.gRx == d.gSaid) = false := by
    rcases hdue with h | h
    · simp only [Bool.and_eq_false_iff, decide_eq_false_iff_not]
      exact Or.inl (by omega)
    · simp [h]
  unfold doHeartbeatSend
  rw [if_neg (by rw [hnow, hstop]; rcases htwin with h | h <;> simp [h])]
  exact ⟨_, d.sends_sendGulon hlive _ _⟩

/-! ### The loss is decided (R398, R399) -/

/-- Takes go to the bridges of some ports. -/
theorem Dev.tells_takes {f : Nat → Nat} {p : Nat} {l : List Nat} (hp : p ∈ l) (d : Dev) :
    ∃ tag, d.tells (l.foldl (fun (d : Dev) p => d.sendFresh p { opc := 0x08, args := f d.fence } []) d) (.bridge p 0x08 [0, tag, 0, 0, 0, 0, 0, f d.fence]) := by
  obtain ⟨o, ⟨tag, rfl⟩, htell⟩ := Dev.tells_foldl (f := fun (d : Dev) p => d.sendFresh p { opc := 0x08, args := f d.fence } [])
    (P := fun o => ∃ tag, o = .bridge p 0x08 [0, tag, 0, 0, 0, 0, 0, f d.fence]) (fun e => e.fence = d.fence) (fun e q => (Dev.Lulls.sendFresh e q _).out)
    (fun e q he => (Dev.fence_sendFresh e q _).trans he)
    (fun e he => (Dev.tells_sendFresh e p 0x08 (f e.fence)).elim (fun tag h => ⟨_, ⟨tag, by rw [he]⟩, h⟩)) l d hp rfl
  exact ⟨tag, htell⟩

/-- What a forced take carries: FENCE + 1, and FORCE. -/
def forceArgs (fence : Nat) : Nat := (fence + 1) % 65536 + 2 ^ 16

/-- What is told and decided, and how. -/
structure Dev.Tells (d t : Dev) : Prop where
  out : d.out <+: t.out
  decided : t.decided = d.decided

theorem Dev.Tells.trans (h : d.Tells e) (h' : e.Tells t) : d.Tells t := ⟨h.out.trans h'.out, h'.decided.trans h.decided⟩

theorem Dev.Tells.foldl {α : Type} {f : Dev → α → Dev} (h : ∀ (e : Dev) x, e.Tells (f e x)) (l : List α) (d : Dev) : d.Tells (l.foldl f d) :=
  List.foldlRecOn (motive := fun e : Dev => d.Tells e) l f ⟨List.prefix_rfl, rfl⟩ (fun e he x _ => he.trans (h e x))

theorem Dev.Tells.sendFresh (d : Dev) (p : Nat) (c : LaneCmd) : d.Tells (d.sendFresh p c []) :=
  ⟨(Dev.Sends.sendFresh d p c []).out, by rw [(Dev.Sends.sendFresh d p c []).rest]⟩

/-- The twin's bridges are taken by force. -/
theorem Dev.forceTakes_spec (d : Dev) : d.forceTakes.taking = true ∧ d.Tells d.forceTakes ∧
    ∀ p < 512, d.fld (Reg.FCH_P_STS p) 4 3 = 2 → d.lstate p = 5 →
      ∃ tag, d.tells d.forceTakes (.bridge p 0x08 [0, tag, 0, 0, 0, 0, 0, (d.fence + 1) % 65536 + 2 ^ 16]) := by
  have hfail : ∀ (e : Dev), ∀ p < 512, e.Tells ((e.setFlag (Reg.FCH_P_STS p) 8 false).portFail p 1 0) := fun e p hp => by
    have h := Dev.Fails.portFail (e.setFlag (Reg.FCH_P_STS p) 8 false) hp 1 0
    have hk := congrArg (fun x : Dev => x.decided) h.kept
    exact ⟨h.out, hk⟩
  have hpark : ∀ (e : Dev) (g : Nat), e.Tells (e.setDom g { e.dom g with parked := true }) := fun e g => ⟨List.prefix_rfl, rfl⟩
  have hlast : ∀ (e : Dev) (l : List Nat), e.Tells { e with taking := true, takes := l } := fun e l => ⟨List.prefix_rfl, rfl⟩
  unfold Dev.forceTakes
  extract_lets theirs live dead d1 d2 off d3
  have h2 : d1.Tells d2 := List.foldlRecOn (motive := fun e : Dev => d1.Tells e) dead _ ⟨List.prefix_rfl, rfl⟩ (fun e he p hp =>
    he.trans (hfail e p (List.mem_range.mp (List.mem_filter.mp (List.mem_filter.mp hp).1).1)))
  have h3 : d2.Tells d3 := .foldl hpark _ _
  have hrest := (h2.trans h3).trans (hlast d3 live)
  refine ⟨rfl, (Dev.Tells.foldl (fun e p => .sendFresh e p _) live d : d.Tells d1).trans hrest, fun p hp hown hl => ?_⟩
  have hin : p ∈ live := List.mem_filter.mpr ⟨List.mem_filter.mpr ⟨List.mem_range.mpr hp, by simp [hown]⟩, by simp [hl]⟩
  obtain ⟨tag, htell⟩ := Dev.tells_takes (f := forceArgs) hin d
  simp only [forceArgs] at htell
  have hd1 : d1 = List.foldl (fun (d : Dev) p => d.sendFresh p { opc := 8, args := (d.fence + 1) % 65536 + 2 ^ 16 } []) d live := rfl
  rw [← hd1] at htell
  clear_value d1 d2 d3
  exact ⟨tag, Dev.tells_within List.prefix_rfl htell hrest.out⟩

theorem doTwinLossDecision_spec (hpair : d.paired = true) (hleave : d.leaving = false) (hdec : d.decided = none) (hstop : d.twnStop = false)
    (hdump : d.dumping = false) (hmiss : d.gLastRx + bits d.hbCtl 15 0 * 2048 ≤ d.tick) :
    doTwinLossDecision d = d.decideLoss (d.side == 0) :=
  if_neg (by simp [hpair, hleave, hdec, hstop, hdump]; omega)

/-! ### Fenced (R399) -/

theorem Dev.keeps_setTwin (d : Dev) (st : Nat) : (d.setTwin st).decided = d.decided ∧ (d.setTwin st).twinSlices = d.twinSlices ∧ (d.setTwin st).slices = d.slices := by
  have h := congrArg (fun x : Dev => (x.decided, x.twinSlices, x.slices)) (Dev.Pairs.setTwin d st).kept
  obtain ⟨h1, h2⟩ := Prod.mk.inj h
  obtain ⟨h2, h3⟩ := Prod.mk.inj h2
  exact ⟨h1, h2, h3⟩

theorem Dev.dropCache_keeps (d : Dev) : d.dropCache.cache = [] ∧ d.dropCache.decided = d.decided ∧
    ∀ off ∈ [Reg.TWN_STS, Reg.TST_BRG_STS], d.dropCache.reg off = d.reg off := by
  have hvalid : ∀ e : Dev, e.revalid.cache = e.cache ∧ e.revalid.decided = e.decided := fun _ => ⟨rfl, rfl⟩
  have hregs : ∀ e : Dev, ∀ off ∈ [Reg.TWN_STS, Reg.TST_BRG_STS], e.revalid.reg off = e.reg off := fun e off ho =>
    (Dev.Posts.revalid e).regs off ((show ∀ o ∈ [Reg.TWN_STS, Reg.TST_BRG_STS], o ∉ postRegs by decide) off ho)
  unfold Dev.dropCache
  extract_lets d1
  have h1 : d1.cache = [] ∧ d1.decided = d.decided := ⟨rfl, rfl⟩
  have h1r : ∀ off ∈ [Reg.TWN_STS, Reg.TST_BRG_STS], d1.reg off = d.reg off := fun off ho =>
    Dev.reg_setFld_ne _ ((show ∀ o ∈ [Reg.TWN_STS, Reg.TST_BRG_STS], o ≠ Reg.HIF_PWIN_DIRTY by decide) off ho) _ _ _
  clear_value d1
  refine ⟨(hvalid _).1.trans h1.1, (hvalid _).2.trans h1.2, fun off ho => (hregs _ off ho).trans ?_⟩
  obtain ⟨hu, hs⟩ := (show ∀ o ∈ [Reg.TWN_STS, Reg.TST_BRG_STS], o ≠ Reg.STK_PWC_USED ∧ o ≠ Reg.STK_PWC_STS by decide) off ho
  rw [Dev.reg_setFlag_ne _ hs, Dev.reg_setFld_ne _ hu, h1r off ho]

theorem Dev.fenced_spec (h4 : d.twin ≠ 4) (h5 : d.twin ≠ 5) : d.fenced.twin = 5 ∧ d.fenced.cache = [] ∧ d.fenced.decided = d.decided ∧
    d.fenced.flag Reg.TST_BRG_STS 5 = false := by
  unfold Dev.fenced
  rw [if_neg (by simp [h4, h5])]
  extract_lets d1
  have h1 : d1.twin = 5 ∧ d1.decided = d.decided ∧ d1.flag Reg.TST_BRG_STS 5 = false :=
    ⟨(Dev.fld_setFlag_ne _ (by decide) _ _ _ _).trans (d.setTwin_spec (st := 5) (by decide)).1, (d.keeps_setTwin 5).1, Dev.flag_setFlag_self _ _ _ _ (by decide)⟩
  have hdone := Dev.Settles.completeAll d1 stFailover
  have hdec := congrArg (·.decided) hdone.frame.kept
  clear_value d1
  obtain ⟨hcache, hdec2, hregs⟩ := (d1.completeAll stFailover).dropCache_keeps
  have hreg : ∀ off ∈ [Reg.TWN_STS, Reg.TST_BRG_STS], (d1.completeAll stFailover).dropCache.reg off = d1.reg off := fun off ho =>
    (hregs off ho).trans (hdone.frame.regs off ((show ∀ o ∈ [Reg.TWN_STS, Reg.TST_BRG_STS], o ∉ settleRegs by decide) off ho))
  exact ⟨(Dev.fld_congr (hreg _ (by decide)) 3 0).trans h1.1, hcache, (hdec2.trans hdec).trans h1.2.1, (Dev.flag_congr (hreg _ (by decide)) 5).trans h1.2.2⟩

/-- The probes of this unit's own bridges. -/
def Dev.probed (d : Dev) : Dev :=
  ((List.range 512).filter (fun p => d.fld (Reg.FCH_P_STS p) 4 3 == 1)).foldl (fun (d : Dev) p => d.sendFresh p { opc := 0x08, args := d.fence } []) d

theorem Dev.twin_probed (d : Dev) : d.probed.twin = d.twin :=
  List.foldlRecOn (motive := fun e : Dev => e.twin = d.twin) _ _ rfl (fun e he p _ => (Dev.fld_congr ((Dev.Sends.sendFresh e p _ []).reg _) 3 0).trans he)

theorem doTakeDelayExpire_spec {t0 : Nat} (hdec : d.decided = some t0) (hside : d.side = 1) (htaking : d.taking = false)
    (hdelay : t0 + bits d.hbCtl 31 16 * 10000 ≤ d.tick) (h5 : d.twin ≠ 5) (heldByOther : Bool) :
    doTakeDelayExpire heldByOther d = if heldByOther then { d.probed with decided := none }.fenced else d.probed.forceTakes := by
  unfold doTakeDelayExpire
  rw [hdec]
  dsimp -zeta only
  unfold Dev.probed
  exact if_neg (by simp [hside, htaking, h5]; omega)

/-! ### Takeover (R399, R401, R402) -/

/-- The twin's slices are taken over, each shown as moved. -/
def Dev.takeSlice (d : Dev) (x : MSlice) : Dev := (d.adoptSlice x).setFlag (Reg.TWN_MOVED (x.slice % 1024 / 32)) (x.slice % 32) true

/-- The registers of a takeover's slices. -/
def movedRegs : List Nat := adoptRegs ++ (List.range 32).map Reg.TWN_MOVED

theorem Dev.takeSlice_frame (d : Dev) (x : MSlice) : Dev.Frame Dev.sansAdopted movedRegs d (d.takeSlice x) := by
  have hadopt : Dev.Frame Dev.sansAdopted movedRegs d (d.adoptSlice x) :=
    Dev.Frame.weaken (d.adoptSlice_spec x).1 (fun _ => rfl) (fun _ ho => List.mem_append_left _ ho)
  refine hadopt.trans (.setFlag (List.mem_append_right _ (List.mem_map_of_mem (List.mem_range.mpr (by omega)))) _ _ (hm := ?_))
  simp only [modeRegs, List.mem_cons, List.not_mem_nil, or_false, Reg.TWN_MOVED, Reg.PWR_MODE_STS, Reg.GLB_DEV_STS]
  omega

theorem Dev.takeSlice_moved (d : Dev) (x : MSlice) : (d.takeSlice x).flag (Reg.TWN_MOVED (x.slice % 1024 / 32)) (x.slice % 32) = true ∧
    ∀ i < 32, ∀ n, d.flag (Reg.TWN_MOVED i) n = true → (d.takeSlice x).flag (Reg.TWN_MOVED i) n = true := by
  refine ⟨Dev.flag_setFlag_self _ _ _ _ (by omega), fun i hi32 n hf => ?_⟩
  have hne : Reg.TWN_MOVED i ∉ adoptRegs := by
    simp only [adoptRegs, reportRegs, List.mem_append, List.mem_cons, List.not_mem_nil, or_false, Reg.TWN_MOVED, Reg.PWR_MODE_STS, Reg.GLB_DEV_STS,
      Reg.PWR_BIAS_NOW, Reg.SCP_CAP_STS, Reg.SCP_INC_STS, Reg.VSL_SHARE_SUM, Reg.VSL_PIN_SUM, Reg.VSL_BOUND, Reg.DLR_TSUM]
    omega
  have hkeep : (d.adoptSlice x).flag (Reg.TWN_MOVED i) n = true := (Dev.flag_congr ((d.adoptSlice_spec x).1.regs _ hne) n).trans hf
  unfold Dev.takeSlice
  by_cases hi : Reg.TWN_MOVED i = Reg.TWN_MOVED (x.slice % 1024 / 32)
  · rw [← hi, Dev.flag, Dev.reg_setFlag, if_pos rfl]
    exact bitAt_putBit_mono hkeep _
  · exact (Dev.flag_setFlag_ne _ hi _ _ _).trans hkeep

/-- The state in which a slice is taken over. -/
def takenSt (x : MSlice) : SliceSt := if x.st = SliceSt.clearing.code then .clearing else .frozen

theorem Dev.st_takeSlice (d : Dev) (x : MSlice) (k : Nat) : ((d.takeSlice x).slice k).st = if k = x.slice % 1024 then takenSt x else (d.slice k).st := by
  have h : (d.takeSlice x).slice k = (d.adoptSlice x).slice k := rfl
  rw [h, (d.adoptSlice_spec x).2 k]
  split
  · rfl
  · rfl

/-- All of the twin's slices are taken over. -/
theorem Dev.takeSlices_spec (l : List MSlice) (d : Dev) : Dev.Frame Dev.sansAdopted movedRegs d (l.foldl Dev.takeSlice d) ∧
    ∀ x ∈ l, (l.foldl Dev.takeSlice d).flag (Reg.TWN_MOVED (x.slice % 1024 / 32)) (x.slice % 32) = true ∧
      ((∀ y ∈ l, y.slice % 1024 = x.slice % 1024 → y.st = x.st) → ((l.foldl Dev.takeSlice d).slice (x.slice % 1024)).st = takenSt x) := by
  refine ⟨.foldl Dev.takeSlice_frame l d, fun x hx => ⟨?_, fun hall => ?_⟩⟩
  · exact foldl_reaches (P := fun e : Dev => e.flag (Reg.TWN_MOVED (x.slice % 1024 / 32)) (x.slice % 32) = true) (Q := fun _ => True) (fun _ _ _ => trivial)
      (fun e y he => (e.takeSlice_moved y).2 _ (by omega) _ he) (fun e _ => (e.takeSlice_moved x).1) hx d trivial
  · refine foldl_reaches_mem (P := fun e : Dev => (e.slice (x.slice % 1024)).st = takenSt x) (Q := fun _ => True) l (fun _ _ _ _ => trivial) (fun e y hy he => ?_)
      (fun e _ => (e.st_takeSlice x _).trans (if_pos rfl)) (fun _ h => h) hx d trivial
    rw [Dev.st_takeSlice]
    split
    · next heq => rw [takenSt, takenSt, hall y hy heq.symm]
    · exact he

theorem Dev.aloneNow_spec (d : Dev) : d.Singles d.aloneNow ∧ (d.mayPair = true → d.aloneNow.gPend = []) := by
  obtain ⟨hsingle, -, hgone⟩ := d.takeTwins.singleNow_spec
  have htake := Dev.Singles.takeTwins d
  exact ⟨htake.trans hsingle, fun hmay => hgone ((Dev.mayPair_of_reg (htake.frame.regs _ (by decide))).trans hmay)⟩

theorem doTwinTakeover_spec {t0 : Nat} (hdec : d.decided = some t0) (htaking : d.taking = true) (htakes : d.takes = []) (h5 : d.twin ≠ 5) :
    (doTwinTakeover d).twin = 4 ∧ (doTwinTakeover d).fence = (d.fence + 1) % 65536 ∧ (doTwinTakeover d).decided = none ∧
    (doTwinTakeover d).taking = false ∧ (doTwinTakeover d).gPend = [] ∧ bitAt ((doTwinTakeover d).page 0xC01).intPend 1 = true ∧
    (doTwinTakeover d).fld Reg.TWN_FAILOVERS 31 0 = min (d.fld Reg.TWN_FAILOVERS 31 0 + 1) 0xFFFFFFFF ∧
    (doTwinTakeover d).get64 Reg.TWN_LOST_TICK_LO Reg.TWN_LOST_TICK_HI = t0 % 2 ^ 64 ∧
    ∀ kx ∈ d.twinSlices, (doTwinTakeover d).flag (Reg.TWN_MOVED (kx.2.slice % 1024 / 32)) (kx.2.slice % 32) = true ∧
      ((∀ ky ∈ d.twinSlices, ky.2.slice % 1024 = kx.2.slice % 1024 → ky.2.st = kx.2.st) →
        ((doTwinTakeover d).slice (kx.2.slice % 1024)).st = takenSt kx.2) := by
  unfold doTwinTakeover
  rw [hdec]
  dsimp -zeta only
  rw [if_neg (by simp [htaking, htakes, h5])]
  extract_lets d1 d2 lost d3 d4 d5 d6
  -- The state and FENCE.
  obtain ⟨htw, -, -⟩ := d.setTwin_spec (st := 4) (by decide)
  have h1 : d1.twin = 4 ∧ d1.fence = (d.fence + 1) % 65536 ∧ d1.twinSlices = d.twinSlices :=
    ⟨(Dev.fld_setFld_other _ _ _ _ _ _ _ (by decide) (by decide)).trans htw, Dev.fld_setFld_self _ _ _ _ _ (by decide), (d.keeps_setTwin 4).2.1⟩
  have h1f : d1.fld Reg.TWN_FAILOVERS 31 0 = d.fld Reg.TWN_FAILOVERS 31 0 :=
    (Dev.fld_setFld_ne _ (by decide) _ _ _ _ _).trans (Dev.fld_congr ((Dev.Pairs.setTwin d 4).regs _ (by decide)) 31 0)
  clear_value d1
  have hmay : d1.mayPair = true := by simp [Dev.mayPair, h1.1]
  -- What waited for the twin.
  obtain ⟨h12, hgone⟩ := d1.aloneNow_spec
  have hgp2 : d2.gPend = [] := hgone hmay
  have hts2 : d2.twinSlices = d.twinSlices := (congrArg (·.twinSlices) h12.frame.kept).trans h1.2.2
  have hlost : lost = d.twinSlices.map Prod.snd := by rw [← hts2]
  clear_value lost
  change d1.Singles d2 at h12
  clear_value d2
  -- Its slices and contexts.
  obtain ⟨h23, hmoved⟩ := Dev.takeSlices_spec lost d2
  change Dev.Frame Dev.sansAdopted movedRegs d2 d3 at h23
  change ∀ x ∈ lost, d3.flag (Reg.TWN_MOVED (x.slice % 1024 / 32)) (x.slice % 32) = true ∧
      ((∀ y ∈ lost, y.slice % 1024 = x.slice % 1024 → y.st = x.st) → (d3.slice (x.slice % 1024)).st = takenSt x) at hmoved
  have hgp3 : d3.gPend = [] := (congrArg (·.gPend) h23.kept).trans hgp2
  clear_value d3
  obtain ⟨h34, hsl4⟩ := d3.ownCtxs_spec
  have hgp4 : d4.gPend = [] := (congrArg (·.gPend) h34.kept).trans hgp3
  change d3.Adopts d4 at h34
  change d4.slices = d3.slices at hsl4
  clear_value d4
  have hreg4 : ∀ off ∈ [Reg.TWN_STS, Reg.TWN_FAILOVERS], d4.reg off = d1.reg off := fun off ho => by
    obtain ⟨ha, hm, hs⟩ := (show ∀ o ∈ [Reg.TWN_STS, Reg.TWN_FAILOVERS], o ∉ adoptRegs ∧ o ∉ movedRegs ∧ o ∉ singleRegs by decide) off ho
    exact (h34.regs off ha).trans ((h23.regs off hm).trans (h12.frame.regs off hs))
  -- The registers of the loss.
  have h5g : d5.gPend = d4.gPend ∧ d5.slices = d4.slices := ⟨rfl, rfl⟩
  have h5r : ∀ off, off ∉ [Reg.TWN_LOST_TICK_LO, Reg.TWN_LOST_TICK_HI, Reg.TWN_LOST_EPOCH] → d5.reg off = d4.reg off := fun off ho => by
    simp only [List.mem_cons, List.not_mem_nil, or_false, not_or] at ho
    obtain ⟨hlo, hhi, hep⟩ := ho
    exact (Dev.reg_setFld_ne _ hep _ _ _).trans (Dev.reg_set64_ne _ hlo hhi _)
  have h5t : d5.get64 Reg.TWN_LOST_TICK_LO Reg.TWN_LOST_TICK_HI = t0 % 2 ^ 64 := by
    have hk : d5.get64 Reg.TWN_LOST_TICK_LO Reg.TWN_LOST_TICK_HI =
        (d4.set64 Reg.TWN_LOST_TICK_LO Reg.TWN_LOST_TICK_HI t0).get64 Reg.TWN_LOST_TICK_LO Reg.TWN_LOST_TICK_HI := by
      rw [Dev.get64, Dev.get64, Dev.fld_setFld_ne _ (by decide), Dev.fld_setFld_ne _ (by decide)]
    exact hk.trans (d4.get64_set64_mod (by decide) t0)
  clear_value d5
  have hrep := Dev.Reports.raise (d5.inc Reg.TWN_FAILOVERS 1) 0xC01 1
  have h6r : ∀ off, off ∉ reportRegs → off ≠ Reg.TWN_FAILOVERS → d6.reg off = d5.reg off := fun off ho hne => (hrep.regs off ho).trans (Dev.reg_setFld_ne _ hne _ _ _)
  have h6f : d6.fld Reg.TWN_FAILOVERS 31 0 = min (d5.fld Reg.TWN_FAILOVERS 31 0 + 1) 0xFFFFFFFF :=
    (Dev.fld_congr (hrep.regs _ (by decide)) 31 0).trans (d5.fld_inc_self _ _)
  have h6p : bitAt (d6.page 0xC01).intPend 1 = true := by
    show bitAt (((d5.inc Reg.TWN_FAILOVERS 1).raise 0xC01 1).page 0xC01).intPend 1 = true
    rw [Dev.intPend_raise _ _ _ (by decide)]
    exact (bitAt_putBit _ _ _ _ (by decide)).trans (if_pos rfl)
  have h6k : d6.gPend = d5.gPend ∧ d6.slices = d5.slices := ⟨congrArg (·.gPend) hrep.kept, congrArg (·.slices) hrep.kept⟩
  clear_value d6
  have hsts : d6.reg Reg.TWN_STS = d1.reg Reg.TWN_STS :=
    (h6r _ (by decide) (by decide)).trans ((h5r _ (by decide)).trans (hreg4 _ (by decide)))
  refine ⟨(Dev.fld_congr hsts 3 0).trans h1.1, (Dev.fld_congr hsts 31 16).trans h1.2.1, rfl, rfl, h6k.1.trans (h5g.1.trans hgp4), h6p, ?_, ?_, fun kx hkx => ?_⟩
  · refine h6f.trans ?_
    rw [Dev.fld_congr (h5r _ (by decide)) 31 0, Dev.fld_congr (hreg4 _ (by decide)) 31 0, h1f]
  · refine Eq.trans ?_ h5t
    show d6.get64 _ _ = _
    rw [Dev.get64, Dev.get64, Dev.fld_congr (h6r _ (by decide) (by decide)), Dev.fld_congr (h6r _ (by decide) (by decide))]
  · have hin : kx.2 ∈ lost := hlost ▸ List.mem_map_of_mem hkx
    obtain ⟨hfl, hst⟩ := hmoved kx.2 hin
    refine ⟨?_, fun hall => ?_⟩
    · have hi : kx.2.slice % 1024 / 32 < 32 := by omega
      have hkeep : d6.reg (Reg.TWN_MOVED (kx.2.slice % 1024 / 32)) = d3.reg (Reg.TWN_MOVED (kx.2.slice % 1024 / 32)) := by
        obtain ⟨hrr, hne, hl, ha⟩ := (show ∀ i < 32, Reg.TWN_MOVED i ∉ reportRegs ∧ Reg.TWN_MOVED i ≠ Reg.TWN_FAILOVERS ∧
          Reg.TWN_MOVED i ∉ [Reg.TWN_LOST_TICK_LO, Reg.TWN_LOST_TICK_HI, Reg.TWN_LOST_EPOCH] ∧ Reg.TWN_MOVED i ∉ adoptRegs by decide) _ hi
        exact (h6r _ hrr hne).trans ((h5r _ hl).trans (h34.regs _ ha))
      exact (Dev.flag_congr hkeep _).trans hfl
    · have hsl : d6.slice (kx.2.slice % 1024) = d3.slice (kx.2.slice % 1024) := Dev.slice_of_slices (h6k.2.trans (h5g.2.trans hsl4)) _
      refine (congrArg Slice.st hsl).trans (hst (fun y hy heq => ?_))
      rw [hlost] at hy
      obtain ⟨ky, hky, rfl⟩ := List.mem_map.mp hy
      exact hall ky hky heq

end

end Sys2Proof.Machine
end

section
/-! Waiting for the twin at bring-up, leaving it, and handing it a slice (R405, R407, R411). -/

namespace Sys2Proof.Machine

-- In order, one declaration at a time: keeps the check within its memory limit.
set_option Elab.async false

section
variable {d e t : Dev}

/-! ### Bring-up without the twin (R405) -/

theorem Dev.setSingle_keeps (d : Dev) (b : Bool) : (d.setSingle b).out = d.out ∧ ∀ p < 512, (d.setSingle b).reg (Reg.FCH_P_STS p) = d.reg (Reg.FCH_P_STS p) := by
  refine ⟨rfl, fun p hp => (Dev.Pairs.setSingle d b).regs _ (pSts_notPair hp)⟩

theorem doPairWaitExpire_spec (hstage : d.fld Reg.GLB_DEV_STS 7 4 = 9) (hpair : d.paired = false)
    (hlate : d.flag Reg.TWN_CTL 0 = false ∨ d.pairStart + d.fld Reg.TWN_CTL 31 16 * 1000000000 ≤ d.tick) :
    ((∀ p < 512, d.fld (Reg.FCH_P_STS p) 4 3 ≠ 2) → (doPairWaitExpire d).flag Reg.TWN_STS 4 = true ∧
      ∀ p < 512, d.fld (Reg.FCH_P_STS p) 4 3 = 0 → d.lstate p = 5 →
        ∃ tag, d.tells (doPairWaitExpire d) (.bridge p 0x08 [0, tag, 0, 0, 0, 0, 0, d.fence])) ∧
    ((∃ p < 512, d.fld (Reg.FCH_P_STS p) 4 3 = 2) → (d.page 0xC01).err = false →
      ((doPairWaitExpire d).page 0xC01).errCode = 0x0104 ∧ (doPairWaitExpire d).regs = d.regs) := by
  have hgo : ¬(d.fld Reg.GLB_DEV_STS 7 4 ≠ 9 ∨ d.paired = true ∨
      (d.flag Reg.TWN_CTL 0 = true ∧ d.tick < d.pairStart + d.fld Reg.TWN_CTL 31 16 * 1000000000)) := by
    rintro (h | h | ⟨h, hlt⟩)
    · exact h hstage
    · rw [hpair] at h
      exact absurd h (by decide)
    · rcases hlate with h' | h'
      · rw [h'] at h
        exact absurd h (by decide)
      · omega
  have hheld : 0 < ((List.range 512).filter (fun p => d.fld (Reg.FCH_P_STS p) 4 3 == 2)).length ↔ ∃ p < 512, d.fld (Reg.FCH_P_STS p) 4 3 = 2 := by
    rw [List.length_pos_iff_exists_mem]
    exact exists_congr (fun p => by rw [List.mem_filter, List.mem_range, beq_iff_eq])
  have hbody : doPairWaitExpire d = if 0 < ((List.range 512).filter (fun p => d.fld (Reg.FCH_P_STS p) 4 3 == 2)).length then
      d.recordErr 0xC01 0x0104 ((List.range 512).filter (fun p => d.fld (Reg.FCH_P_STS p) 4 3 == 2)).length 0
      else (d.setSingle true).takeFree ((List.range 512).filter (fun p => d.fld (Reg.FCH_P_STS p) 4 3 == 0)) := if_neg hgo
  constructor
  · intro hnone
    rw [hbody, if_neg (fun h => (hheld.mp h).elim (fun p hp => hnone p hp.1 hp.2))]
    obtain ⟨hout, hreg⟩ := d.setSingle_keeps true
    obtain ⟨-, hfence, hsingle⟩ := d.twinSts_setSingle true
    generalize d.setSingle true = e at hout hreg hfence hsingle
    refine ⟨?_, fun p hp hfree hl => ?_⟩
    · refine (Dev.flag_congr (d := e) ?_ 4).trans hsingle
      exact List.foldlRecOn (motive := fun t : Dev => t.reg Reg.TWN_STS = e.reg Reg.TWN_STS) _ _ rfl (fun t ht q _ => ((Dev.Sends.sendFresh t q _ []).reg _).trans ht)
    · have hin : p ∈ ((List.range 512).filter (fun p => d.fld (Reg.FCH_P_STS p) 4 3 == 0)).filter (fun p => e.lstate p == 5) :=
        List.mem_filter.mpr ⟨List.mem_filter.mpr ⟨List.mem_range.mpr hp, by simp [hfree]⟩, by rw [Dev.lstate, Dev.fld_congr (hreg p hp)]; exact beq_iff_eq.mpr hl⟩
      obtain ⟨tag, htell⟩ := Dev.tells_takes (f := id) hin e
      simp only [id] at htell
      have hfree : e.takeFree ((List.range 512).filter (fun p => d.fld (Reg.FCH_P_STS p) 4 3 == 0)) = (((List.range 512).filter (fun p =>
        d.fld (Reg.FCH_P_STS p) 4 3 == 0)).filter (fun p => e.lstate p == 5)).foldl (fun (d : Dev) p => d.sendFresh p { opc := 0x08, args := d.fence } []) e := rfl
      rw [← hfree, hfence] at htell
      refine ⟨tag, ?_⟩
      rw [Dev.tells, ← hout]
      exact htell
  · intro hsome herr
    rw [hbody, if_pos (hheld.mpr hsome)]
    exact ⟨by rw [Dev.page_recordErr_first _ _ _ _ _ herr], by rw [Dev.recordErr_eq]⟩

/-! ### Leaving (R407) -/

/-- A unit that has left its twin. -/
structure Dev.Left (t : Dev) : Prop where
  twin : t.twin = 0
  leaving : t.leaving = false
  giving : t.giving = []
  single : t.flag Reg.TWN_STS 4 = true
  disabled : t.flag Reg.TWN_CTL 0 = false
  down : t.flag Reg.TWN_LINK_STS 0 = false

theorem Dev.out_laneIdle (d : Dev) (p : Nat) (x : Port) : d.out <+: ((d.setPort p x).setLstate p 0).out := (Dev.Lanes.setLstate (d.setPort p x) p 0).out

/-- REMOVABLE is set and PAIR_EN clear. -/
theorem Dev.removable_spec (d : Dev) : ((d.setFlag Reg.TWN_STS 6 true).setFlag Reg.TWN_CTL 0 false).twin = d.twin ∧
    ((d.setFlag Reg.TWN_STS 6 true).setFlag Reg.TWN_CTL 0 false).flag Reg.TWN_STS 4 = d.flag Reg.TWN_STS 4 ∧
    ((d.setFlag Reg.TWN_STS 6 true).setFlag Reg.TWN_CTL 0 false).flag Reg.TWN_CTL 0 = false ∧
    ((d.setFlag Reg.TWN_STS 6 true).setFlag Reg.TWN_CTL 0 false).leaving = d.leaving ∧
    ((d.setFlag Reg.TWN_STS 6 true).setFlag Reg.TWN_CTL 0 false).out = d.out := by
  refine ⟨?_, ?_, Dev.flag_setFlag_self _ _ _ _ (by decide), rfl, rfl⟩
  · unfold Dev.twin
    rw [Dev.fld_setFlag_ne _ (by decide), Dev.fld_setFlag_other _ _ _ _ _ _ (by decide) (by decide)]
  · rw [Dev.flag_setFlag_ne _ (by decide), Dev.flag_setFlag_other _ _ _ _ _ (by decide) (by decide)]

/-- The last bridge is released: the unit is left alone. -/
theorem Dev.leaveEnd_left (hl : d.leaving = true) (hg : d.giving = []) : d.leaveEnd.Left ∧ d.out <+: d.leaveEnd.out := by
  unfold Dev.leaveEnd
  rw [if_neg (by simp [hl, hg])]
  generalize (List.range 512).filter (fun p => d.lstate p != 7) = l
  extract_lets d1 d2 d3
  have h1 : d.out <+: d1.out := List.foldlRecOn (motive := fun e : Dev => d.out <+: e.out) _
    (fun (d : Dev) p => (d.setPort p { d.port p with ops := [] }).setLstate p 0) List.prefix_rfl (fun e he p _ => he.trans (e.out_laneIdle p _))
  clear_value d1
  obtain ⟨x, hx, hxd⟩ : ∃ x : Dev, (x.leaving = false ∧ x.out = d1.out) ∧ d2 = (x.setTwin 0).setSingle true :=
    ⟨{ d1 with leaving := false, wants := [] }, ⟨rfl, rfl⟩, rfl⟩
  clear_value d2
  have hkept : x.Pairs d2 := hxd ▸ (Dev.Pairs.setTwin x 0).trans (.setSingle _ true)
  have h2l := (congrArg (fun y : Dev => y.leaving) hkept.kept).trans hx.1
  have h2o := hkept.out
  have h2 : d2.twin = 0 ∧ d2.flag Reg.TWN_STS 4 = true := by
    obtain ⟨htw, -, hsg⟩ := (x.setTwin 0).twinSts_setSingle true
    exact hxd ▸ ⟨htw.trans (x.setTwin_spec (by decide)).1, hsg⟩
  clear hxd
  have h3 : d3.twin = 0 ∧ d3.flag Reg.TWN_STS 4 = true ∧ d3.flag Reg.TWN_CTL 0 = false ∧ d3.leaving = d2.leaving ∧ d3.out = d2.out := by
    obtain ⟨htw, hsg, hctl, hkl, hko⟩ := d2.removable_spec
    exact ⟨htw.trans h2.1, hsg.trans h2.2, hctl, hkl, hko⟩
  clear_value d3
  obtain ⟨h3tw, h3sg, h3ctl, h3l, h3o⟩ := h3
  obtain ⟨hsingle, hgiving, -⟩ := d3.dropTwins.singleNow_spec
  have h4 := (Dev.Singles.dropTwins d3).trans hsingle
  generalize d3.dropTwins.singleNow = f at h4 hgiving
  have h4l := congrArg (·.leaving) h4.frame.kept
  have h4sts : f.reg Reg.TWN_STS = d3.reg Reg.TWN_STS := h4.frame.regs _ (by decide)
  have h4ctl : f.reg Reg.TWN_CTL = d3.reg Reg.TWN_CTL := h4.frame.regs _ (by decide)
  have htw4 : f.twin = 0 := (Dev.fld_congr h4sts 3 0).trans h3tw
  obtain ⟨hdown, hsts⟩ := f.linkDown_spec
  have hlink := Dev.Pairs.linkDown f
  have hsts' := hsts (by omega) (by omega)
  refine ⟨⟨(Dev.fld_congr hsts' 3 0).trans htw4, ?_, ?_, ?_, ?_, hdown⟩, ?_⟩
  · exact (congrArg (·.leaving) hlink.kept).trans (h4l.trans (h3l.trans h2l))
  · exact (congrArg (·.giving) hlink.kept).trans hgiving
  · exact (Dev.flag_congr hsts' 4).trans ((Dev.flag_congr h4sts 4).trans h3sg)
  · exact (Dev.flag_congr (hlink.regs _ (by decide)) 0).trans ((Dev.flag_congr h4ctl 0).trans h3ctl)
  · exact h1.trans (hx.2 ▸ h2o.trans (h3o ▸ h4.frame.out.trans hlink.out))

theorem Dev.leaveEnd_waits (h : d.giving ≠ []) : d.leaveEnd = d := if_pos (by simp [h])

theorem Dev.Left.leaveEnd (h : d.Left) : d.leaveEnd = d := if_pos (by simp [h.leaving])

theorem Dev.Left.giveStep (h : d.Left) (p : Nat) : d.giveStep p = d := if_neg (by simp [h.giving])

/-- From `d` to `t` the token of a port has gone. -/
structure Dev.Hands (p : Nat) (d t : Dev) : Prop where
  leaving : t.leaving = d.leaving
  twin : t.twin = d.twin
  giving : t.giving = d.giving.filter (· != p)
  ops : ∀ q, (t.port q).ops = (d.port q).ops
  out : d.out <+: t.out

theorem Dev.giveToken_hands (hl : d.leaving = true) {p : Nat} (hp : p < 512) : d.Hands p (d.giveToken p) := by
  unfold Dev.giveToken
  extract_lets d1 d2
  have h1 : d1.leaving = true ∧ d1.twin = d.twin ∧ d1.giving = d.giving.filter (· != p) ∧ d1.ports = d.ports ∧ d1.out = d.out := ⟨hl, rfl, rfl, rfl, rfl⟩
  clear_value d1
  obtain ⟨h1l, h1t, h1g, h1p, h1o⟩ := h1
  have hsend : d1.Sends p (if d1.lstate p == 5 then d1.sendFresh p { opc := 0x09 } [] else d1) := by
    split
    · exact Dev.Sends.sendFresh d1 p _ []
    · exact ⟨rfl, rfl, fun _ _ => rfl, List.prefix_rfl⟩
  have hne : Reg.TWN_STS ≠ Reg.FCH_P_STS p := by simp only [Reg.TWN_STS, Reg.FCH_P_STS]; omega
  have h2 : d2.leaving = true ∧ d2.twin = d1.twin ∧ d2.giving = d1.giving ∧ (∀ q, (d2.port q).ops = (d1.port q).ops) ∧ d1.out <+: d2.out := by
    simp only [d2]
    generalize (if d1.lstate p == 5 then d1.sendFresh p { opc := 0x09 } [] else d1) = f at hsend
    refine ⟨?_, ?_, ?_, fun q => ?_, hsend.out⟩
    · exact (congrArg (·.leaving) hsend.rest).trans h1l
    · exact (Dev.fld_setFld_ne _ hne _ _ _ _ _).trans (Dev.fld_congr (hsend.reg _) 3 0)
    · exact congrArg (·.giving) hsend.rest
    · rw [Dev.setFld, Dev.port_setReg]
      by_cases hq : q = p
      · rw [hq]
        exact congrArg (·.ops) hsend.mine
      · rw [hsend.others q hq]
  clear_value d2
  obtain ⟨h2l, h2t, h2g, h2p, h2o⟩ := h2
  rw [if_pos h2l]
  exact ⟨h2l.trans hl.symm, h2t.trans h1t, h2g.trans h1g, fun q => (h2p q).trans (congrArg (·.ops) (Dev.port_of_ports h1p q)), h1o ▸ h2o⟩

theorem Dev.giveStep_leaving (hl : d.leaving = true) {p : Nat} (hp : p < 512) : d.giveStep p = d ∨
    (p ∈ d.giving ∧ d.drained p = true ∧ ∃ f, d.Hands p f ∧ d.giveStep p = f.leaveEnd) := by
  unfold Dev.giveStep
  split
  · next h =>
    obtain ⟨hin, hdr⟩ := Bool.and_eq_true_iff.mp h
    exact Or.inr ⟨by simpa using hin, hdr, _, Dev.giveToken_hands hl hp, rfl⟩
  · exact Or.inl rfl

theorem Dev.drained_of_ops {p : Nat} (h : (t.port p).ops = (d.port p).ops) : t.drained p = d.drained p := by rw [Dev.drained, h, Dev.drained]

/-- A leaving unit goes on leaving, or has left. -/
def Dev.goesOn (d : Dev) : Prop := d.Left ∨ d.leaving = true

theorem Dev.leaveEnd_goesOn (h : d.goesOn) : d.leaveEnd.goesOn ∧ d.out <+: d.leaveEnd.out := by
  rcases h with h | h
  · rw [h.leaveEnd]
    exact ⟨Or.inl h, List.prefix_rfl⟩
  · by_cases hg : d.giving = []
    · obtain ⟨hleft, hout⟩ := Dev.leaveEnd_left h hg
      exact ⟨Or.inl hleft, hout⟩
    · rw [Dev.leaveEnd_waits hg]
      exact ⟨Or.inr h, List.prefix_rfl⟩

theorem Dev.giveStep_goesOn (h : d.goesOn) {p : Nat} (hp : p < 512) : (d.giveStep p).goesOn ∧ d.out <+: (d.giveStep p).out := by
  rcases h with h | h
  · rw [h.giveStep p]
    exact ⟨Or.inl h, List.prefix_rfl⟩
  · rcases Dev.giveStep_leaving h hp with heq | ⟨-, -, f, hf, heq⟩
    · rw [heq]
      exact ⟨Or.inr h, List.prefix_rfl⟩
    · rw [heq]
      obtain ⟨hgo, hout⟩ := Dev.leaveEnd_goesOn (Or.inr (hf.leaving.trans h) : f.goesOn)
      exact ⟨hgo, hf.out.trans hout⟩

theorem Dev.giveSteps_out {l : List Nat} (hl : ∀ p ∈ l, p < 512) (h : d.goesOn) : d.out <+: (l.foldl Dev.giveStep d).leaveEnd.out := by
  have hfold := List.foldlRecOn (motive := fun e : Dev => e.goesOn ∧ d.out <+: e.out) l Dev.giveStep ⟨h, List.prefix_rfl⟩ (fun e he p hp => by
    obtain ⟨hgo, hout⟩ := Dev.giveStep_goesOn he.1 (hl p hp)
    exact ⟨hgo, he.2.trans hout⟩)
  exact hfold.2.trans (Dev.leaveEnd_goesOn hfold.1).2

/-- With every bridge drained, the unit has left at the end. -/
theorem Dev.giveSteps_left : ∀ {l : List Nat} {d : Dev}, l.Nodup → (∀ p ∈ l, p < 512) → d.leaving = true → (∀ p ∈ l, d.drained p = true) →
    (∀ q, q ∈ d.giving ↔ q ∈ l) → (l.foldl Dev.giveStep d).leaveEnd.Left
  | [], d, _, _, hl, _, hg => (Dev.leaveEnd_left hl (List.eq_nil_iff_forall_not_mem.mpr (fun q hq => nomatch (hg q).mp hq))).1
  | p :: l, d, hnd, hlt, hl, hdr, hg => by
    obtain ⟨hnot, hnd'⟩ := List.nodup_cons.mp hnd
    have hpin : d.giving.contains p && d.drained p := by
      rw [hdr p List.mem_cons_self]
      simp [(hg p).mpr List.mem_cons_self]
    have hf := Dev.giveToken_hands hl (hlt p List.mem_cons_self)
    have hstep : d.giveStep p = (d.giveToken p).leaveEnd := if_pos hpin
    rw [List.foldl_cons, hstep]
    generalize d.giveToken p = f at hf
    have hfl : f.leaving = true := hf.leaving.trans hl
    have hfg : ∀ q, q ∈ f.giving ↔ q ∈ l := fun q => by
      rw [hf.giving, List.mem_filter, hg q, List.mem_cons, bne_iff_ne]
      exact ⟨fun h => h.1.resolve_left h.2, fun h => ⟨Or.inr h, fun hq => hnot (hq ▸ h)⟩⟩
    by_cases hempty : f.giving = []
    · have hnil : l = [] := List.eq_nil_iff_forall_not_mem.mpr (fun q hq => by
        have := (hfg q).mpr hq
        rw [hempty] at this
        exact nomatch this)
      have hleft := (Dev.leaveEnd_left hfl hempty).1
      rw [hnil, List.foldl_nil, hleft.leaveEnd]
      exact hleft
    · rw [Dev.leaveEnd_waits hempty]
      exact Dev.giveSteps_left hnd' (fun q hq => hlt q (List.mem_cons_of_mem _ hq)) hfl
        (fun q hq => (Dev.drained_of_ops (hf.ops q)).trans (hdr q (List.mem_cons_of_mem _ hq))) hfg

/-- A bridge that has not drained keeps the unit PAIRED and leaving. -/
theorem Dev.giveSteps_waits {l : List Nat} (hl : ∀ p ∈ l, p < 512) {p : Nat} (hleave : d.leaving = true) (hin : p ∈ d.giving) (hdr : d.drained p = false) :
    (l.foldl Dev.giveStep d).leaveEnd.twin = d.twin ∧ (l.foldl Dev.giveStep d).leaveEnd.leaving = true ∧ p ∈ (l.foldl Dev.giveStep d).leaveEnd.giving := by
  have hfold := List.foldlRecOn (motive := fun e : Dev => e.twin = d.twin ∧ e.leaving = true ∧ p ∈ e.giving ∧ e.drained p = false) l Dev.giveStep
    ⟨rfl, hleave, hin, hdr⟩ (fun e ⟨htw, hel, heg, hed⟩ q hq => by
      rcases Dev.giveStep_leaving hel (hl q hq) with heq | ⟨-, hqd, f, hf, heq⟩
      · rw [heq]
        exact ⟨htw, hel, heg, hed⟩
      · have hne : p ≠ q := by
          rintro rfl
          rw [hed] at hqd
          exact absurd hqd (by decide)
        have hfp : p ∈ f.giving := by
          rw [hf.giving]
          exact List.mem_filter.mpr ⟨heg, bne_iff_ne.mpr hne⟩
        rw [heq, Dev.leaveEnd_waits (List.ne_nil_of_mem hfp)]
        exact ⟨hf.twin.trans htw, hf.leaving.trans hel, hfp, (Dev.drained_of_ops (hf.ops p)).trans hed⟩)
  obtain ⟨htw, hel, heg, -⟩ := hfold
  rw [Dev.leaveEnd_waits (List.ne_nil_of_mem heg)]
  exact ⟨htw, hel, heg⟩

theorem mem_insertSorted_iff {n m : Nat} : ∀ {l : List Nat}, m ∈ insertSorted l n ↔ m = n ∨ m ∈ l
  | [] => by simp [insertSorted]
  | k :: ks => by
    unfold insertSorted
    split
    · next h => simp [h]
    · split
      · simp
      · rw [List.mem_cons, mem_insertSorted_iff, List.mem_cons]
        tauto

theorem mem_foldl_insertSorted_iff {m : Nat} : ∀ (l acc : List Nat), m ∈ l.foldl insertSorted acc ↔ m ∈ l ∨ m ∈ acc
  | [], acc => by simp
  | k :: l, acc => by
    rw [List.foldl_cons, mem_foldl_insertSorted_iff l, mem_insertSorted_iff, List.mem_cons]
    tauto

/-- Every bridge that this unit holds is released as it drains. -/
theorem Dev.handOver_spec (hl : d.leaving = true) (hg : d.giving = []) : d.out <+: ((d.handOver (List.range 512)).leaveEnd).out ∧
    ((∀ p < 512, d.fld (Reg.FCH_P_STS p) 4 3 = 1 → d.drained p = true) → (d.handOver (List.range 512)).leaveEnd.Left) ∧
    ∀ p < 512, d.fld (Reg.FCH_P_STS p) 4 3 = 1 → d.drained p = false → (d.handOver (List.range 512)).leaveEnd.twin = d.twin ∧
      (d.handOver (List.range 512)).leaveEnd.leaving = true ∧ p ∈ (d.handOver (List.range 512)).leaveEnd.giving := by
  obtain ⟨ps, hps⟩ : ∃ ps, ps = (List.range 512).filter (fun p => d.fld (Reg.FCH_P_STS p) 4 3 == 1) := ⟨_, rfl⟩
  have hmem : ∀ p, p ∈ ps ↔ p < 512 ∧ d.fld (Reg.FCH_P_STS p) 4 3 = 1 := fun p => by rw [hps, List.mem_filter, List.mem_range, beq_iff_eq]
  have hlt : ∀ p ∈ ps, p < 512 := fun p hp => ((hmem p).mp hp).1
  have hnd : ps.Nodup := hps ▸ List.nodup_range.filter _
  have heq : d.handOver (List.range 512) = ps.foldl Dev.giveStep { d with giving := ps.foldl insertSorted d.giving } := by rw [hps]; rfl
  have hdr : ∀ p, ({ d with giving := ps.foldl insertSorted d.giving } : Dev).drained p = d.drained p := fun p => rfl
  have hgiv : ∀ q, q ∈ ({ d with giving := ps.foldl insertSorted d.giving } : Dev).giving ↔ q ∈ ps := fun q =>
    (mem_foldl_insertSorted_iff ps d.giving).trans (by rw [hg]; simp)
  have htw : ({ d with giving := ps.foldl insertSorted d.giving } : Dev).twin = d.twin ∧
      ({ d with giving := ps.foldl insertSorted d.giving } : Dev).leaving = true ∧
      ({ d with giving := ps.foldl insertSorted d.giving } : Dev).out = d.out := ⟨rfl, hl, rfl⟩
  rw [heq]
  generalize ({ d with giving := ps.foldl insertSorted d.giving } : Dev) = e at hdr hgiv htw
  obtain ⟨htwin, hel, hout⟩ := htw
  refine ⟨hout ▸ Dev.giveSteps_out hlt (Or.inr hel), fun hall => ?_, fun p hp hown hdrp => ?_⟩
  · exact Dev.giveSteps_left hnd hlt hel (fun p hp => (hdr p).trans (hall p (hlt p hp) ((hmem p).mp hp).2)) hgiv
  · rw [← htwin]
    exact Dev.giveSteps_waits hlt hel ((hgiv p).mpr ((hmem p).mpr ⟨hp, hown⟩)) ((hdr p).trans hdrp)

end

end Sys2Proof.Machine
end

section
/-! The writes of TWN_CTL and TWN_SL_MOVE (R407, R411), and what losing and leaving the twin does. -/

namespace Sys2Proof.Machine

-- In order, one declaration at a time: keeps the check within its memory limit.
set_option Elab.async false

section
variable {d t : Dev}

theorem Dev.Publishes.twins (h : d.Publishes t) : t.gPend = d.gPend ∧ t.giving = d.giving ∧ t.leaving = d.leaving ∧ t.twinSlices = d.twinSlices ∧ t.slices = d.slices := by
  obtain ⟨_, _, _, rfl, _⟩ := h
  exact ⟨rfl, rfl, rfl, rfl, rfl⟩

/-- An error recorded by a write's effect, as the page shows it. -/
theorem Dev.Publishes.recordedErr {pg code i0 i1 : Nat} (h : (d.recordErr pg code i0 i1).Publishes t) (herr : (d.page pg).err = false) :
    (t.page pg).errCode = code ∧ (t.page pg).info0 = w32 i0 ∧ (t.page pg).info1 = w32 i1 := by
  obtain ⟨-, hcode, h0, h1⟩ := Page.err_of_body (h.body pg)
  rw [Dev.page_recordErr_first d pg code i0 i1 herr] at hcode h0 h1
  exact ⟨hcode, h0, h1⟩

/-! ### TWN_CTL (R407) -/

/-- TWN_CTL's row of its table. -/
def twnCtlRow : RegDef := ⟨"TWN_CTL", 0xC01100, 1, 0x4, 0xA0001, 0x0, 0xFFFF0001, 0x0, 0x2, 0xFFFC, true, false, false⟩

/-- What a write of TWN_CTL does, once it has arrived. -/
def twnCtlEff (v new : Word) (d : Dev) : Dev :=
  if !(1 ≤ bits new 31 16 && bits new 31 16 ≤ 600) then d.recordErr 0xC01 0x0105 0x100 v.toNat
  else
    let rose := bitAt new 0 && !d.flag Reg.TWN_CTL 0
    if bitAt v 1 && (d.slices.any (fun kv => kv.2.bound) || d.twin != 3 || d.leaving) then d.recordErr 0xC01 0x0103 0x100 v.toNat
    else if !bitAt v 1 then
      let d := storeReg Reg.TWN_CTL new d
      if rose && d.released && d.canKey && d.mayPair then d.enterKeying else d
    else
      let d := storeReg Reg.TWN_CTL new d
      ({ d.sendGulon 0x41 [] with leaving := true }.handOver (List.range 512)).leaveEnd

theorem doTwinLeave_eq (v : Word) (d : Dev) : doTwinLeave v d = regWrite d Reg.TWN_CTL v (twnCtlEff v) := rfl

theorem twnCtlEff_refused {v new : Word} (hw : 1 ≤ bits new 31 16 ∧ bits new 31 16 ≤ 600) (hleave : bitAt v 1 = true)
    (h : (d.slices.any (fun kv => kv.2.bound) || d.twin != 3 || d.leaving) = true) : twnCtlEff v new d = d.recordErr 0xC01 0x0103 0x100 v.toNat := by
  unfold twnCtlEff
  extract_lets rose
  rw [if_neg (by simp [hw.1, hw.2]), if_pos (by rw [hleave, h]; rfl)]

theorem twnCtlEff_leaves {v new : Word} (hw : 1 ≤ bits new 31 16 ∧ bits new 31 16 ≤ 600) (hleave : bitAt v 1 = true)
    (hb : d.slices.any (fun kv => kv.2.bound) = false) (htw : d.twin = 3) (hl : d.leaving = false) :
    twnCtlEff v new d = ({ (storeReg Reg.TWN_CTL new d).sendGulon 0x41 [] with leaving := true }.handOver (List.range 512)).leaveEnd := by
  unfold twnCtlEff
  extract_lets rose d1
  rw [if_neg (by simp [hw.1, hw.2]), if_neg (by simp [hb, htw, hl]), if_neg (by simp [hleave])]

/-- The state in which LEAVE has gone out. -/
theorem Dev.leaveSent_spec (d : Dev) (new : Word) (htw : d.twin = 3) (hg : d.giving = []) :
    ∃ e : Dev, e = { (storeReg Reg.TWN_CTL new d).sendGulon 0x41 [] with leaving := true } ∧ e.leaving = true ∧ e.giving = [] ∧ e.twin = 3 ∧
      (∀ p < 512, e.fld (Reg.FCH_P_STS p) 4 3 = d.fld (Reg.FCH_P_STS p) 4 3 ∧ e.drained p = d.drained p) ∧
      (d.fld Reg.TWN_TX_INV 31 0 < 2 ^ 31 → d.puts e 0x41) := by
  refine ⟨_, rfl, rfl, ?_, ?_, fun p hp => ⟨?_, ?_⟩, fun hinv => ?_⟩
  all_goals
    have hstore : (storeReg Reg.TWN_CTL new d).twin = d.twin := Dev.fld_congr (Dev.reg_setReg_ne d (by decide) new) 3 0
    have hkeep : ∀ off, off ≠ Reg.TWN_CTL → (storeReg Reg.TWN_CTL new d).reg off = d.reg off := fun off ho => Dev.reg_setReg_ne d ho new
    have hsame : (storeReg Reg.TWN_CTL new d).giving = d.giving ∧ (storeReg Reg.TWN_CTL new d).ports = d.ports ∧ (storeReg Reg.TWN_CTL new d).out = d.out :=
      ⟨rfl, rfl, rfl⟩
    generalize storeReg Reg.TWN_CTL new d = f at hstore hkeep hsame
    have hsend := Dev.Messages.sendGulon f 0x41 []
    have hlast : ∀ x : Dev, ({ x with leaving := true } : Dev).regs = x.regs ∧ ({ x with leaving := true } : Dev).giving = x.giving ∧
      ({ x with leaving := true } : Dev).ports = x.ports ∧ ({ x with leaving := true } : Dev).out = x.out := fun _ => ⟨rfl, rfl, rfl, rfl⟩
  · exact (congrArg (·.giving) hsend.kept).trans (hsame.1.trans hg)
  · exact (Dev.fld_congr (d := f) (hsend.regs _ (by decide)) 3 0).trans (hstore.trans htw)
  · have hne : Reg.FCH_P_STS p ∉ messageRegs ∧ Reg.FCH_P_STS p ≠ Reg.TWN_CTL := by
      simp only [messageRegs, List.mem_cons, List.not_mem_nil, or_false, Reg.FCH_P_STS, Reg.TWN_TX_INV, Reg.TWN_MIR_PEND, Reg.TWN_CTL]
      omega
    exact (Dev.fld_congr (d := f) (hsend.regs _ hne.1) 4 3).trans (Dev.fld_congr (hkeep _ hne.2) 4 3)
  · have hports : (f.sendGulon 0x41 []).ports = d.ports := (congrArg (·.ports) hsend.kept).trans hsame.2.1
    exact Dev.drained_of_ops (congrArg Port.ops (Dev.port_of_ports hports p))
  · have hput : f.mayPut = true := by
      have hinv' : f.fld Reg.TWN_TX_INV 31 0 < 2 ^ 31 := (Dev.fld_congr (hkeep _ (by decide)) 31 0).trans_lt hinv
      simp only [Dev.mayPut, hstore, htw, Bool.and_eq_true, decide_eq_true_eq]
      exact ⟨rfl, hinv'⟩
    obtain ⟨hd, body, tag, htell, hmod⟩ := f.puts_sendGulon (Or.inr (by simp [Dev.paired, hstore, htw])) hput (kind := 0x41) (by decide) []
    refine ⟨hd, body, tag, ?_, hmod⟩
    rw [Dev.tells, hsame.2.2] at htell
    exact htell

theorem doTwinLeave_spec (v : Word) (ho : d.isOpen 0xC01) (hv : bitAt v 1 = true) (h1 : 1 ≤ bits v 31 16) (h600 : bits v 31 16 ≤ 600) (hrsv : bits v 15 2 = 0) :
    (d.slices.any (fun kv => kv.2.bound) = false → d.twin = 3 → d.leaving = false → d.giving = [] →
      (d.fld Reg.TWN_TX_INV 31 0 < 2 ^ 31 → d.puts (doTwinLeave v d) 0x41) ∧
      ((∀ p < 512, d.fld (Reg.FCH_P_STS p) 4 3 = 1 → d.drained p = true) → (doTwinLeave v d).twin = 0 ∧ (doTwinLeave v d).leaving = false ∧
        (doTwinLeave v d).flag Reg.TWN_STS 4 = true ∧ (doTwinLeave v d).flag Reg.TWN_CTL 0 = false ∧ (doTwinLeave v d).flag Reg.TWN_LINK_STS 0 = false) ∧
      (∀ p < 512, d.fld (Reg.FCH_P_STS p) 4 3 = 1 → d.drained p = false →
        (doTwinLeave v d).twin = 3 ∧ (doTwinLeave v d).leaving = true ∧ p ∈ (doTwinLeave v d).giving)) ∧
    (d.slices.any (fun kv => kv.2.bound) = true ∨ d.leaving = true → (d.page 0xC01).err = false →
      ((doTwinLeave v d).page 0xC01).errCode = 0x0103 ∧ ((doTwinLeave v d).page 0xC01).info0 = 0x100 ∧ (doTwinLeave v d).twin = d.twin) := by
  obtain ⟨d2, hrep, hreg, herr2, hpub⟩ := regWrite_effect (doTwinLeave_eq v d) ho (by decide) (r := twnCtlRow) (by rfl)
  have hnew : bits (mergeWrite twnCtlRow (d.reg (canonOff Reg.TWN_CTL)) v true) 31 16 = bits v 31 16 := bits_mergeWrite rfl _ _ 31 16 (by decide)
  generalize mergeWrite twnCtlRow (d.reg (canonOff Reg.TWN_CTL)) v true = new at hnew hpub
  have hw : 1 ≤ bits new 31 16 ∧ bits new 31 16 ≤ 600 := by omega
  have hsl2 : d2.slices = d.slices := Dev.slices_of_reports hrep
  have hl2 : d2.leaving = d.leaving := congrArg (·.leaving) hrep.kept
  have htw2 : d2.twin = d.twin := Dev.fld_congr (hreg _) 3 0
  generalize doTwinLeave v d = t at hpub
  have hclean : v &&& w32 twnCtlRow.rsv = 0 := and_mask_zero hrsv (by decide)
  constructor
  · intro hb htw hl hg
    have hg2 : d2.giving = [] := (congrArg (·.giving) hrep.kept).trans hg
    rw [twnCtlEff_leaves hw hv (hsl2 ▸ hb) (htw2.trans htw) (hl2.trans hl)] at hpub
    obtain ⟨e, he, hel, heg, hetw, hports, hput⟩ := d2.leaveSent_spec new (htw2.trans htw) hg2
    rw [← he] at hpub
    obtain ⟨hout, hleft, hstays⟩ := Dev.handOver_spec hel heg
    obtain ⟨-, htg, htl, -, -⟩ := hpub.twins
    have hp2 : ∀ p < 512, e.fld (Reg.FCH_P_STS p) 4 3 = d.fld (Reg.FCH_P_STS p) 4 3 ∧ e.drained p = d.drained p := fun p hp =>
      ⟨(hports p hp).1.trans (Dev.fld_congr (hreg _) 4 3), (hports p hp).2.trans
        (Dev.drained_of_ops (congrArg Port.ops (Dev.port_of_reports hrep p)))⟩
    refine ⟨fun hinv => ?_, fun hall => ?_, fun p hp hown hdr => ?_⟩
    · obtain ⟨hd, body, tag, htell, hmod⟩ := hput ((Dev.fld_congr (hreg _) 31 0).trans_lt hinv)
      exact ⟨hd, body, tag, Dev.tells_within hrep.out htell (by rw [hpub.out]; exact hout), hmod⟩
    · obtain ⟨ltw, lle, lgi, lsg, lct, ldn⟩ := hleft (fun p hp hown => (hp2 p hp).2.trans (hall p hp ((hp2 p hp).1.symm.trans hown)))
      exact ⟨(hpub.fld _ _ _).trans ltw, htl.trans lle, (hpub.flag _ _).trans lsg, (hpub.flag _ _).trans lct, (hpub.flag _ _).trans ldn⟩
    · obtain ⟨stw, sle, sgi⟩ := hstays p hp ((hp2 p hp).1.trans hown) ((hp2 p hp).2.trans hdr)
      exact ⟨(hpub.fld _ _ _).trans (stw.trans hetw), htl.trans sle, by rw [htg]; exact sgi⟩
  · intro hbad herr
    rw [twnCtlEff_refused hw hv (by
      rw [hsl2, hl2]
      rcases hbad with h | h <;> simp [h])] at hpub
    obtain ⟨hcode, h0, -⟩ := hpub.recordedErr ((herr2 hclean).trans herr)
    refine ⟨hcode, h0, (hpub.fld _ _ _).trans ?_⟩
    exact (Dev.fld_congr (Dev.reg_recordErr _ _ _ _ _ _) 3 0).trans htw2

/-! ### TWN_SL_MOVE (R411) -/

/-- What a write of TWN_SL_MOVE does, once it has arrived. -/
def slMoveEff (v _new : Word) (d : Dev) : Dev :=
  let s := bits v 9 0
  if bits v 31 16 = 0x544E ∧ d.twin = 3 ∧ (d.slice s).st = .frozen then
    let copies := d.ctxStore.filter (fun kv => kv.1 / 4 == s)
    let d := d.sendGulon 0x51 (moveFs (d.mslice s) ((queuesOf s).map d.mqueue) (copies.map (fun kv => kv.2.mctx kv.1)))
    let d : Dev := { d with
      twinSlices := SMap.insert d.twinSlices s (d.mslice s)
      twinCtxs := copies.foldl (fun (m : SMap CtxCopy) kv => SMap.insert m kv.1 kv.2) d.twinCtxs }
    (d.slip s).raise 0xC01 4
  else d.recordErr 0xC01 0x0103 0x140 v.toNat

theorem doTwnSlMove_eq (v : Word) (d : Dev) : doTwnSlMove v d = regWrite d Reg.TWN_SL_MOVE v (slMoveEff v) := rfl

/-- A slice that leaves is unbound; the messages to the twin and its table of slices keep. -/
theorem Dev.slip_spec (d : Dev) (s : Nat) : ((d.slip s).slice s).st = .unbound ∧ (d.slip s).twinSlices = d.twinSlices ∧ (d.slip s).gPend = d.gPend := by
  unfold Dev.slip
  extract_lets d1
  have h1 : d1.twinSlices = d.twinSlices ∧ d1.gPend = d.gPend := ⟨rfl, rfl⟩
  clear_value d1
  obtain ⟨hs, ht, hg⟩ := (d1.setSlice s { d1.slice s with st := .unbound, pinned := [] }).sliceSums_keeps
  have hset : ∀ x : Slice, (d1.setSlice s x).twinSlices = d1.twinSlices ∧ (d1.setSlice s x).gPend = d1.gPend := fun _ => ⟨rfl, rfl⟩
  refine ⟨?_, ht.trans ((hset _).1.trans h1.1), hg.trans ((hset _).2.trans h1.2)⟩
  rw [Dev.slice_of_slices hs, Dev.slice_setSlice_self]

theorem slMoveEff_moves {v new : Word} (hkey : bits v 31 16 = 0x544E) (htw : d.twin = 3) (hst : (d.slice (bits v 9 0)).st = .frozen) :
    ((slMoveEff v new d).slice (bits v 9 0)).st = .unbound ∧ bitAt ((slMoveEff v new d).page 0xC01).intPend 4 = true ∧
    ((slMoveEff v new d).twinSlices.find (bits v 9 0)).map MSlice.sgen = some (d.slice (bits v 9 0)).sgen ∧
    ∃ qs cs, (slMoveEff v new d).sends 0x51 (moveFs (d.mslice (bits v 9 0)) qs cs) := by
  unfold slMoveEff
  extract_lets s copies d1 d2
  rw [if_pos ⟨hkey, htw, hst⟩]
  have hsend : d1.sends 0x51 (moveFs (d.mslice s) ((queuesOf s).map d.mqueue) (copies.map (fun kv => kv.2.mctx kv.1))) :=
    d.sends_sendGulon (Or.inr (by simp [Dev.paired, htw])) _ _
  have hsl : d1.slices = d.slices := congrArg (·.slices) (Dev.Messages.sendGulon d _ _).kept
  clear_value d1
  have h2 : d2.gPend = d1.gPend ∧ d2.twinSlices = SMap.insert d1.twinSlices s (d1.mslice s) := ⟨rfl, rfl⟩
  clear_value d2
  obtain ⟨hst2, hts2, hg2⟩ := d2.slip_spec s
  have hrep := Dev.Reports.raise (d2.slip s) 0xC01 4
  refine ⟨?_, ?_, ?_, (queuesOf s).map d.mqueue, copies.map (fun kv => kv.2.mctx kv.1), ?_⟩
  · rw [Dev.slice_of_slices (Dev.slices_of_reports hrep)]
    exact hst2
  · rw [Dev.intPend_raise _ _ _ (by decide)]
    exact (bitAt_putBit _ _ _ _ (by decide)).trans (if_pos rfl)
  · have hts : ((d2.slip s).raise 0xC01 4).twinSlices = SMap.insert d1.twinSlices s (d1.mslice s) :=
      (congrArg (·.twinSlices) hrep.kept).trans (hts2.trans h2.2)
    rw [hts, SMap.find_insert_self]
    show some (d1.slice s).sgen = _
    rw [Dev.slice_of_slices hsl]
  · have hgp : ((d2.slip s).raise 0xC01 4).gPend = d1.gPend := (congrArg (·.gPend) hrep.kept).trans (hg2.trans h2.1)
    obtain ⟨x, hx, hkind, hwords⟩ := hsend
    exact ⟨x, hgp ▸ hx, hkind, hwords⟩

theorem Dev.mslice_of_slices (h : t.slices = d.slices) (s : Nat) : t.mslice s = d.mslice s := by
  unfold Dev.mslice
  rw [Dev.slice_of_slices h]

theorem doTwnSlMove_spec (v : Word) (ho : d.isOpen 0xC01) (hrsv : bits v 15 10 = 0) :
    (bits v 31 16 = 0x544E → d.twin = 3 → (d.slice (bits v 9 0)).st = .frozen →
      ((doTwnSlMove v d).slice (bits v 9 0)).st = .unbound ∧ bitAt ((doTwnSlMove v d).page 0xC01).intPend 4 = true ∧
      ((doTwnSlMove v d).twinSlices.find (bits v 9 0)).map MSlice.sgen = some (d.slice (bits v 9 0)).sgen ∧
      ∃ qs cs, (doTwnSlMove v d).sends 0x51 (moveFs (d.mslice (bits v 9 0)) qs cs)) ∧
    (bits v 31 16 ≠ 0x544E ∨ d.twin ≠ 3 ∨ (d.slice (bits v 9 0)).st ≠ .frozen → (d.page 0xC01).err = false →
      ((doTwnSlMove v d).page 0xC01).errCode = 0x0103 ∧ ((doTwnSlMove v d).page 0xC01).info1 = v ∧ (doTwnSlMove v d).slices = d.slices) := by
  obtain ⟨d2, hrep, hreg, herr2, hpub⟩ := regWrite_effect (doTwnSlMove_eq v d) ho (by decide) (show regDef? Reg.TWN_SL_MOVE = some _ from rfl)
  have hsl2 : d2.slices = d.slices := Dev.slices_of_reports hrep
  have htw2 : d2.twin = d.twin := Dev.fld_congr (hreg _) 3 0
  have hsl : d2.slice (bits v 9 0) = d.slice (bits v 9 0) := Dev.slice_of_slices hsl2 _
  have hms : d2.mslice (bits v 9 0) = d.mslice (bits v 9 0) := Dev.mslice_of_slices hsl2 _
  generalize doTwnSlMove v d = t at hpub
  obtain ⟨htp, -, -, htt, hts⟩ := hpub.twins
  constructor
  · intro hkey htw hst
    obtain ⟨hun, hpend, hsgen, qs, cs, x, hx, hkind, hwords⟩ := slMoveEff_moves (d := d2) hkey (htw2.trans htw) (hsl ▸ hst)
    refine ⟨?_, ?_, ?_, qs, cs, x, htp ▸ hx, hkind, hms ▸ hwords⟩
    · rw [Dev.slice_of_slices hts]
      exact hun
    · have hbody := congrArg (fun p : Page => p.intPend) (hpub.body 0xC01)
      exact (congrArg (fun w => bitAt w 4) hbody).trans hpend
    · rw [htt, hsgen, hsl]
  · intro hbad herr
    have heff : ∀ new, slMoveEff v new d2 = d2.recordErr 0xC01 0x0103 0x140 v.toNat := fun new => by
      unfold slMoveEff
      extract_lets s copies e1 e2
      refine if_neg (fun h => ?_)
      obtain ⟨hkey, htw, hst⟩ := h
      rcases hbad with hb | hb | hb
      · exact hb hkey
      · exact hb (htw2.symm.trans htw)
      · exact hb (hsl ▸ hst)
    rw [heff] at hpub hts
    obtain ⟨hcode, -, h1⟩ := hpub.recordedErr ((herr2 (and_mask_zero hrsv (by decide))).trans herr)
    refine ⟨hcode, h1.trans ?_, hts.trans ?_⟩
    · simp [w32]
    · rw [Dev.recordErr_eq]
      exact hsl2

end

/-- A unit whose loss is not decided any more. -/
theorem Dev.exists_undecided (d : Dev) : ∃ e : Dev, e = { d with decided := none } ∧ e.twin = d.twin ∧ e.decided = none := ⟨_, rfl, rfl, rfl⟩

/-- Settles O42: sending in time, the loss of the twin, takeover, and leaving, each row on its own. -/
theorem lossAndLeaving : Obligations.LossAndLeaving := by
  intro s hrun
  have hact : ∀ f, act s f = .next { s with dev := f s.dev } := fun f => act_of_running s f hrun
  refine ⟨fun hq hstop hpair => ⟨_, hact _, doFreeSend_spec hq hstop hpair⟩,
    fun hstop htw hdue => ⟨_, hact _, doHeartbeatSend_spec hstop htw hdue⟩,
    fun hpair hleave hdec hstop hdump hmiss => ?_, fun t0 hdec hside htaking hdelay h5 => ?_,
    fun t0 hdec htaking htakes h5 => ⟨_, hact _, doTwinTakeover_spec hdec htaking htakes h5⟩,
    fun hstage hpair hlate => ?_, fun v ho hv h1 h600 hrsv => ?_, fun v ho hrsv => ?_⟩
  · have hbody := doTwinLossDecision_spec hpair hleave hdec hstop hdump hmiss
    constructor
    · intro hside
      obtain ⟨htaking, htells, hports⟩ := Dev.forceTakes_spec { s.dev with decided := some s.dev.tick, decidedEp := s.dev.epoch }
      have hloss : doTwinLossDecision s.dev = { s.dev with decided := some s.dev.tick, decidedEp := s.dev.epoch }.forceTakes := by
        rw [hbody, show (s.dev.side == 0) = true from by simp [hside]]
        unfold Dev.decideLoss
        exact if_pos rfl
      refine ⟨_, hact _, ?_⟩
      dsimp only
      rw [hloss]
      exact ⟨htells.decided, htaking, hports⟩
    · intro hside
      refine (hact _).trans ?_
      rw [hbody, show (s.dev.side == 0) = false from by simp [hside]]
      rfl
  · have hbody := doTakeDelayExpire_spec hdec hside htaking hdelay h5
    constructor
    · exact ⟨_, hact _, (congrArg (·.taking) (hbody false)).trans (Dev.forceTakes_spec s.dev.probed).1⟩
    · intro h4
      have htw := s.dev.twin_probed
      obtain ⟨e, he, hetw, hedec⟩ := s.dev.probed.exists_undecided
      have hfenced := Dev.fenced_spec (d := e) (by rw [hetw, htw]; exact h4) (by rw [hetw, htw]; exact h5)
      rw [hedec] at hfenced
      refine ⟨_, hact _, ?_⟩
      dsimp only
      rw [hbody true, if_pos rfl, ← he]
      exact hfenced
  · obtain ⟨hfree, hheld⟩ := doPairWaitExpire_spec hstage hpair hlate
    exact ⟨fun hnone => ⟨_, hact _, hfree hnone⟩, fun hsome herr => ⟨_, hact _, hheld hsome herr⟩⟩
  · obtain ⟨hgo, hrefused⟩ := doTwinLeave_spec v ho hv h1 h600 hrsv
    exact ⟨fun hb htw hl hg => ⟨_, hact _, hgo hb htw hl hg⟩, fun hbad herr => ⟨_, hact _, hrefused hbad herr⟩⟩
  · obtain ⟨hgo, hrefused⟩ := doTwnSlMove_spec v ho hrsv
    exact ⟨fun hkey htw hst => ⟨_, hact _, hgo hkey htw hst⟩, fun hbad herr => ⟨_, hact _, hrefused hbad herr⟩⟩

end Sys2Proof.Machine
end

section
/-! Keying and the lanes of the twin link (R381, R382, R385, R388, R390, R398). -/

namespace Sys2Proof.Machine

-- In order, one declaration at a time: keeps the check within its memory limit.
set_option Elab.async false

/-! ### The roles of time (R228) -/

/-- The device without what the roles of time are kept in. -/
def Dev.sansRole (d : Dev) : Dev :=
  { d.sansReports with exGood := 0, exBad := 0, exLast := 0, lossAt := none, stepPend := none, timeFig := 0, ports := [] }

/-- The registers that the roles of time are shown in. -/
def timeRegs : List Nat := reportRegs ++ [Reg.DLR_TIME_STS, Reg.DLR_TWIN_OFS, Reg.GLB_TIME_UNC]

/-- `t` comes from `d` by a change of the roles of time. -/
abbrev Dev.Roles (d t : Dev) : Prop := Dev.Frame Dev.sansRole timeRegs d t

theorem Dev.Roles.of_reports {d t : Dev} (h : d.Reports t) : d.Roles t := Dev.Frame.weaken h (fun _ => rfl) (by decide)

theorem Dev.Roles.timeRole (d : Dev) : d.Roles d.timeRole := by
  have hunlock : ∀ e : Dev, e.Roles e.timeUnlock := fun e => by
    have hloss : ∀ x : Dev, x.Roles { x with lossAt := some (x.tick, x.uncNow), stepPend := none } := fun x => .hidden rfl rfl rfl
    have hset : e.Roles { e.setFlag Reg.DLR_TIME_STS 0 false with lossAt := some (e.tick, e.uncNow), stepPend := none } :=
      (Dev.Frame.setFlag (by decide) _ _).trans (.hidden rfl rfl rfl)
    exact .ite hset (.refl e)
  have hunc : ∀ e : Dev, e.Roles ({ e with timeFig := 8 } : Dev).timeUnc := fun e =>
    (Dev.Frame.hidden rfl rfl rfl : e.Roles { e with timeFig := 8 }).trans (.setReg (by decide) _)
  have hchange : ∀ a e : Dev, e.Roles (Dev.timeChange a e) := fun a e =>
    .ite (.refl e) ((Dev.Roles.of_reports (Dev.Reports.capRec e _ _ _)).trans (Dev.Roles.of_reports (Dev.Reports.raise _ _ _)))
  unfold Dev.timeRole
  extract_lets own lead src was d1 d2 d3 d4
  have h1 : d.Roles d1 := (Dev.Frame.setFlag (by decide) _ _).trans (.setFld (by decide) _ _ _)
  have h2 : d1.Roles d2 := .ite (.setReg (by decide) _) (.refl d1)
  have h3 : d2.Roles d3 := .ite (.hidden rfl rfl rfl) (.refl d2)
  have h4 : d3.Roles d4 := .ite (hunlock d3) (.ite (hunc d3) (.refl d3))
  exact (((h1.trans h2).trans h3).trans h4).trans (hchange _ d4)

/-! ### The frame of keying -/

/-- The device without what keying changes. -/
def Dev.sansKeys (d : Dev) : Dev :=
  { d.sansPairs with gPrev := 0, sesTx := 0, sesTxNew := none, rekeyOut := false, shelfNew := none, gLastTx := 0, gSaid := 0 }

/-- The registers that keying changes. -/
def keyingRegs : List Nat := twinRegs ++ [Reg.TWN_KEY_STS, Reg.TWN_TX_INV]

/-- `t` comes from `d` by keying. -/
structure Dev.Keys (d t : Dev) : Prop where
  kept : t.sansKeys = d.sansKeys
  regs : ∀ off, off ∉ keyingRegs → t.reg off = d.reg off
  out : d.out <+: t.out
  page : ∀ pg, (d.page pg).Later (t.page pg)

section
variable {d e t : Dev}

theorem Dev.Keys.refl (d : Dev) : d.Keys d := ⟨rfl, fun _ _ => rfl, List.prefix_rfl, fun _ => .refl _⟩

theorem Dev.Keys.trans (h : d.Keys e) (h' : e.Keys t) : d.Keys t :=
  ⟨h'.kept.trans h.kept, fun off ho => (h'.regs off ho).trans (h.regs off ho), h.out.trans h'.out, fun pg => (h.page pg).trans (h'.page pg)⟩

theorem Dev.Keys.ite {c : Prop} [Decidable c] (h : d.Keys e) (h' : d.Keys t) : d.Keys (if c then e else t) := by
  split
  · exact h
  · exact h'

theorem Dev.Keys.setTwin (d : Dev) (st : Nat) : d.Keys (d.setTwin st) := by
  have h := Dev.Pairs.setTwin d st
  exact ⟨congrArg (fun x : Dev => { x with gPrev := 0, sesTx := 0, sesTxNew := none, rekeyOut := false, shelfNew := none, gLastTx := 0, gSaid := 0 }) h.kept,
    fun off ho => d.reg_setTwin (fun hin => ho (List.mem_append_left _ hin)) st, h.out, h.page⟩

theorem Dev.Keys.of_reports (h : d.Reports t) : d.Keys t :=
  ⟨congrArg (fun x : Dev => { x with syncEnd := none, gPrev := 0, sesTx := 0, sesTxNew := none, rekeyOut := false, shelfNew := none, gLastTx := 0, gSaid := 0 })
    h.kept, fun off ho => h.regs off (fun hin => ho (List.mem_append_left _ (List.mem_append_left _ hin))), h.out, h.page⟩

theorem Dev.Keys.hide (h : t.sansKeys = d.sansKeys) (hr : t.regs = d.regs := by rfl) (ho : t.out = d.out := by rfl) (hp : t.pages = d.pages := by rfl) : d.Keys t :=
  ⟨h, fun off _ => by rw [Dev.reg, hr, Dev.reg], ho ▸ List.prefix_rfl, fun pg => by rw [Dev.page, Dev.page, hp]; exact .refl _⟩

theorem Dev.Keys.setReg {off : Nat} (h : off ∈ keyingRegs) (d : Dev) (v : Word) : d.Keys (d.setReg off v) :=
  ⟨rfl, fun _ ho => Dev.reg_setReg_ne d (ne_of_mem_of_not_mem h ho).symm v, List.prefix_rfl, fun _ => .refl _⟩

theorem Dev.Keys.emit (d : Dev) (o : Out) : d.Keys (d.emit o) := ⟨rfl, fun _ _ => rfl, List.prefix_append _ _, fun _ => .refl _⟩

theorem Dev.Keys.drawn (d : Dev) : d.Keys d.drawn := .hide rfl

theorem Dev.Keys.putGulon (d : Dev) (kind mnum : Nat) (last : Bool) (fs : Fields) : d.Keys (d.putGulon kind mnum last fs) := by
  unfold Dev.putGulon
  extract_lets inv len hd d1
  have h1 : d.Keys d1 := .ite ((Dev.Keys.emit d _).trans (.drawn _)) (.emit d _)
  have h2 : d1.Keys (d1.setReg Reg.TWN_TX_INV (w32 (inv + 1))) := .setReg (by decide) d1 _
  exact .ite (.refl d) (h1.trans (h2.trans (.hide rfl)))

theorem Dev.Keys.sendHello (d : Dev) (kind : Nat) : d.Keys (d.sendHello kind) := by
  unfold Dev.sendHello
  split
  · exact .putGulon d _ _ _ _
  · exact .refl d

theorem Dev.Keys.freshKeys (d : Dev) : d.Keys d.freshKeys := by
  have hrandom : ∀ e : Dev, e.Keys e.random := fun e => (Dev.Keys.of_reports (Dev.Reports.capRec e _ _ _)).trans (.drawn _)
  have hkey : ∀ (e : Dev) k, e.Keys { e with sesTx := k, sesTxNew := none, rekeyOut := false } := fun e k => .hide rfl
  have hshelf : ∀ (e : Dev) k, e.Keys { e with shelfNew := k } := fun e k => .hide rfl
  unfold Dev.freshKeys
  extract_lets r1 d1 r2 d2
  have h1 : d.Keys d1 := (hrandom d).trans (hkey _ _)
  have h2 : d1.Keys d2 := .ite ((hrandom d1).trans (hshelf _ _)) (.refl d1)
  exact (h1.trans h2).trans ((Dev.Keys.setReg (by decide) d2 _).trans (.setReg (by decide) _ _))

theorem Dev.Keys.enterKeying (d : Dev) : d.Keys d.enterKeying := by
  unfold Dev.enterKeying
  extract_lets prev
  have h1 : d.Keys { d with gPrev := prev } := .hide rfl
  exact ((h1.trans (.setTwin _ 1)).trans (.freshKeys _)).trans (.sendHello _ _)

/-! ### Entering KEYING (R385, R390) -/

theorem Dev.putGulon_keeps (d : Dev) (kind mnum : Nat) (last : Bool) (fs : Fields) : (d.putGulon kind mnum last fs).gPrev = d.gPrev ∧
    (d.putGulon kind mnum last fs).reg Reg.TWN_STS = d.reg Reg.TWN_STS :=
  ⟨congrArg (·.gPrev) (Dev.Messages.putGulon d kind mnum last fs).kept, (Dev.Messages.putGulon d kind mnum last fs).regs _ (by decide)⟩

theorem Dev.sendHello_keeps (d : Dev) (kind : Nat) : (d.sendHello kind).gPrev = d.gPrev ∧ (d.sendHello kind).reg Reg.TWN_STS = d.reg Reg.TWN_STS := by
  unfold Dev.sendHello
  split
  · exact d.putGulon_keeps _ _ _ _
  · exact ⟨rfl, rfl⟩

theorem Dev.freshKeys_keeps (d : Dev) : d.freshKeys.gPrev = d.gPrev ∧ d.freshKeys.reg Reg.TWN_STS = d.reg Reg.TWN_STS ∧ d.freshKeys.linkKey = d.linkKey ∧
    d.freshKeys.fld Reg.TWN_TX_INV 31 0 = 0 := by
  have hrandom : ∀ e : Dev, e.random.gPrev = e.gPrev ∧ e.random.reg Reg.TWN_STS = e.reg Reg.TWN_STS ∧ e.random.linkKey = e.linkKey := fun e => by
    have h := Dev.Reports.capRec e 0x2A 11 []
    have hk := congrArg (fun x : Dev => (x.gPrev, x.linkKey)) h.kept
    obtain ⟨h1, h2⟩ := Prod.mk.inj hk
    exact ⟨h1, h.regs _ (by decide), h2⟩
  have hkey : ∀ (e : Dev) k, ({ e with sesTx := k, sesTxNew := none, rekeyOut := false } : Dev).gPrev = e.gPrev ∧
      ({ e with sesTx := k, sesTxNew := none, rekeyOut := false } : Dev).reg Reg.TWN_STS = e.reg Reg.TWN_STS ∧
      ({ e with sesTx := k, sesTxNew := none, rekeyOut := false } : Dev).linkKey = e.linkKey := fun e k => ⟨rfl, rfl, rfl⟩
  have hshelf : ∀ (e : Dev) k, ({ e with shelfNew := k } : Dev).gPrev = e.gPrev ∧ ({ e with shelfNew := k } : Dev).reg Reg.TWN_STS = e.reg Reg.TWN_STS ∧
      ({ e with shelfNew := k } : Dev).linkKey = e.linkKey := fun e k => ⟨rfl, rfl, rfl⟩
  have hlast : ∀ (e : Dev) w, ((e.setFld Reg.TWN_KEY_STS 15 0 w).setReg Reg.TWN_TX_INV 0).gPrev = e.gPrev ∧
      ((e.setFld Reg.TWN_KEY_STS 15 0 w).setReg Reg.TWN_TX_INV 0).linkKey = e.linkKey := fun e w => ⟨rfl, rfl⟩
  have htrans : ∀ {a b c : Dev}, a.gPrev = b.gPrev ∧ a.reg Reg.TWN_STS = b.reg Reg.TWN_STS ∧ a.linkKey = b.linkKey →
      b.gPrev = c.gPrev ∧ b.reg Reg.TWN_STS = c.reg Reg.TWN_STS ∧ b.linkKey = c.linkKey →
      a.gPrev = c.gPrev ∧ a.reg Reg.TWN_STS = c.reg Reg.TWN_STS ∧ a.linkKey = c.linkKey := fun h h' =>
    ⟨h.1.trans h'.1, h.2.1.trans h'.2.1, h.2.2.trans h'.2.2⟩
  unfold Dev.freshKeys
  extract_lets r1 d1 r2 d2
  have h1 : d1.gPrev = d.gPrev ∧ d1.reg Reg.TWN_STS = d.reg Reg.TWN_STS ∧ d1.linkKey = d.linkKey := htrans (hkey r1 (d.freeVal % 2 ^ 256)) (hrandom d)
  have h2 : d2.gPrev = d1.gPrev ∧ d2.reg Reg.TWN_STS = d1.reg Reg.TWN_STS ∧ d2.linkKey = d1.linkKey := by
    simp only [d2]
    split
    · exact htrans (hshelf r2 _) (hrandom d1)
    · exact ⟨rfl, rfl, rfl⟩
  obtain ⟨hg, hr, hl⟩ := htrans h2 h1
  clear_value d2
  obtain ⟨hg', hl'⟩ := hlast d2 (d2.txEpoch + 1)
  refine ⟨hg'.trans hg, ?_, hl'.trans hl, ?_⟩
  · exact (Dev.reg_setReg_ne _ (by decide) _).trans ((Dev.reg_setFld_ne d2 (by decide) _ _ _).trans hr)
  · rw [Dev.fld_setReg_self]
    decide

/-- The unit is in KEYING, remembers where it was, and has sent HELLO if it has a key to prove. -/
theorem Dev.enterKeying_spec (d : Dev) : d.enterKeying.twin = 1 ∧
    d.enterKeying.gPrev = (if d.twin = 2 ∨ d.twin = 3 then d.twin else if d.twin = 1 then d.gPrev else 0) ∧
    (d.linkKey.isSome = true → d.puts d.enterKeying 0x01) := by
  unfold Dev.enterKeying
  extract_lets prev
  obtain ⟨d1, hd1⟩ : ∃ d1 : Dev, d1 = { d with gPrev := prev }.setTwin 1 := ⟨_, rfl⟩
  have h1 : d1.twin = 1 ∧ d1.gPrev = prev ∧ d1.linkKey = d.linkKey ∧ d.out <+: d1.out := by
    rw [hd1]
    have hp := Dev.Pairs.setTwin { d with gPrev := prev } 1
    have hk := congrArg (fun x : Dev => (x.gPrev, x.linkKey)) hp.kept
    obtain ⟨h1, h2⟩ := Prod.mk.inj hk
    exact ⟨(Dev.setTwin_spec _ (by decide)).1, h1, h2, hp.out⟩
  rw [← hd1]
  clear hd1
  obtain ⟨htw, hpv, hlk, hout⟩ := h1
  obtain ⟨hg2, hr2, hl2, hinv⟩ := d1.freshKeys_keeps
  have hout2 := (Dev.Keys.freshKeys d1).out
  generalize d1.freshKeys = d2 at hg2 hr2 hl2 hinv hout2
  obtain ⟨hg3, hr3⟩ := d2.sendHello_keeps 0x01
  refine ⟨(Dev.fld_congr (hr3.trans hr2) 3 0).trans htw, hg3.trans (hg2.trans hpv), fun hkey => ?_⟩
  obtain ⟨k, hk⟩ := Option.isSome_iff_exists.mp (hl2.trans hlk ▸ hkey)
  have hsend : d2.sendHello 0x01 = d2.putGulon 0x01 d2.gTx true (d2.myHello k).fs := by
    unfold Dev.sendHello
    rw [hk]
  obtain ⟨hd, body, tag, htell, hmod⟩ := d2.puts_putGulon (by rw [hinv]; decide) (kind := 0x01) (by decide) d2.gTx true (d2.myHello k).fs
  rw [hsend]
  exact ⟨hd, body, tag, Dev.tells_within (hout.trans hout2) htell List.prefix_rfl, hmod⟩

end

end Sys2Proof.Machine
end

section
/-! The lanes of the twin link, its training and loss, the pairing key and fresh session keys (R381, R382, R387, R388, R390, R398). -/

namespace Sys2Proof.Machine

-- In order, one declaration at a time: keeps the check within its memory limit.
set_option Elab.async false

section
variable {d e t : Dev}

/-! ### Lanes in service (R381) -/

/-- The sum of ascending powers of two has just their bits. -/
theorem testBit_foldl_pow {k : Nat} : ∀ {l : List Nat} {acc : Nat}, l.Pairwise (· < ·) → (∀ i ∈ l, acc < 2 ^ i) → k ∉ l →
    (l.foldl (fun a i => a + 2 ^ i) acc).testBit k = acc.testBit k
  | [], acc, _, _, _ => rfl
  | i :: l, acc, hp, hacc, hk => by
    obtain ⟨hlt, hp'⟩ := List.pairwise_cons.mp hp
    have hi : acc < 2 ^ i := hacc i List.mem_cons_self
    have hki : k ≠ i := fun h => hk (h ▸ List.mem_cons_self)
    have hsum : acc + 2 ^ i = 2 ^ i ||| acc := by
      have h := Nat.two_pow_add_eq_or_of_lt hi 1
      rw [Nat.mul_one] at h
      rw [← h, Nat.add_comm]
    rw [List.foldl_cons, testBit_foldl_pow hp' (fun j hj => ?_) (fun h => hk (List.mem_cons_of_mem _ h)), hsum, Nat.testBit_or, Nat.testBit_two_pow]
    · simp [Ne.symm hki]
    · have hj' : 2 ^ (i + 1) ≤ 2 ^ j := Nat.pow_le_pow_right (by decide) (hlt j hj)
      rw [Nat.pow_succ] at hj'
      omega

theorem Dev.lanesOn_pairwise (d : Dev) : d.lanesOn.Pairwise (· < ·) := List.pairwise_lt_range.filter _

/-- One lane fewer leaves at least all lanes but one. -/
theorem Dev.lanesOn_length {l : Nat} (h : ∀ i < 18, i ≠ l → t.flag Reg.TWN_LANE_MAP i = d.flag Reg.TWN_LANE_MAP i) : d.lanesOn.length ≤ t.lanesOn.length + 1 := by
  have hnd : d.lanesOn.Nodup := d.lanesOn_pairwise.imp Nat.ne_of_lt
  have hsub : d.lanesOn.erase l ⊆ t.lanesOn := fun i hi => by
    obtain ⟨hne, hin⟩ := (hnd.mem_erase_iff).mp hi
    obtain ⟨hr, hf⟩ := List.mem_filter.mp hin
    exact List.mem_filter.mpr ⟨hr, (h i (List.mem_range.mp hr) hne).trans hf⟩
  have hlen := (List.subperm_of_subset (hnd.erase l) hsub).length_le
  by_cases hin : l ∈ d.lanesOn
  · rw [List.length_erase_of_mem hin] at hlen
    omega
  · rw [List.erase_of_not_mem hin] at hlen
    omega

/-! ### The link goes down (R398) -/

theorem Dev.linkDown_lanes (d : Dev) : (d.flag Reg.TWN_LINK_STS 0 = true → d.linkDown.fld Reg.TWN_LANE_MAP 17 0 = 0 ∧ bitAt (d.linkDown.page 0xC00).intPend 0 = true) ∧
    (∀ l < 18, d.flag Reg.TWN_LANE_MAP l = false → d.linkDown.flag Reg.TWN_LANE_MAP l = false) ∧
    (d.flag Reg.TWN_LINK_STS 0 = true → d.twin = 2 → d.linkDown.twin = 0) := by
  by_cases hup : d.flag Reg.TWN_LINK_STS 0 = true
  · unfold Dev.linkDown
    rw [if_pos hup]
    extract_lets d1 d2
    have hreg : d2.reg Reg.TWN_LANE_MAP = (d1.setFld Reg.TWN_LANE_MAP 17 0 0).reg Reg.TWN_LANE_MAP := (Dev.Reports.raise _ _ _).regs _ (by decide)
    have h2 : d2.fld Reg.TWN_LANE_MAP 17 0 = 0 ∧ (∀ l < 18, d2.flag Reg.TWN_LANE_MAP l = false) ∧ bitAt (d2.page 0xC00).intPend 0 = true ∧ d2.twin = d.twin := by
      refine ⟨?_, fun l hl => ?_, ?_, ?_⟩
      · exact (Dev.fld_congr hreg 17 0).trans (Dev.fld_setFld_self d1 _ _ _ _ (by decide))
      · rw [Dev.flag_congr hreg, Dev.flag, Dev.reg_setFld, if_pos rfl, bitAt_putBits _ _ _ _ _ (by decide), if_pos (by omega)]
        exact Nat.zero_testBit _
      · show bitAt (((d1.setFld Reg.TWN_LANE_MAP 17 0 0).raise 0xC00 0).page 0xC00).intPend 0 = true
        rw [Dev.intPend_raise _ _ _ (by decide)]
        exact (bitAt_putBit _ _ _ _ (by decide)).trans (if_pos rfl)
      · refine Dev.fld_congr (((Dev.Reports.raise _ _ _).regs _ (by decide)).trans ?_) 3 0
        exact (Dev.reg_setFld_ne d1 (by decide) _ _ _).trans ((Dev.reg_setFld_ne _ (by decide) _ _ _).trans (Dev.reg_setFlag_ne d (by decide) _ _))
    clear_value d1 d2
    have hend : ({ d2 with syncEnd := none }.setTwin 0).reg Reg.TWN_LANE_MAP = d2.reg Reg.TWN_LANE_MAP := Dev.reg_setTwin { d2 with syncEnd := none } (by decide) 0
    have hpage := (Dev.Pairs.setTwin { d2 with syncEnd := none } 0).page 0xC00
    have htw := (Dev.setTwin_spec { d2 with syncEnd := none } (st := 0) (by decide)).1
    obtain ⟨hmap, hoff, hpend, hd2⟩ := h2
    split
    · exact ⟨fun _ => ⟨(Dev.fld_congr hend 17 0).trans hmap, hpage.2 0 hpend⟩, fun l hl _ => (Dev.flag_congr hend l).trans (hoff l hl), fun _ _ => htw⟩
    · next hstay => exact ⟨fun _ => ⟨hmap, hpend⟩, fun l hl _ => hoff l hl, fun _ h2' => absurd (by simp [hd2.trans h2']) hstay⟩
  · have hsame : d.linkDown = d := if_neg hup
    rw [hsame]
    exact ⟨fun h => absurd h hup, fun _ _ h => h, fun h => absurd h hup⟩

theorem doGulonLinkDown_spec (hup : d.flag Reg.TWN_LINK_STS 0 = true) : (doGulonLinkDown d).flag Reg.TWN_LINK_STS 0 = false ∧
    (doGulonLinkDown d).fld Reg.TWN_LANE_MAP 17 0 = 0 ∧ bitAt ((doGulonLinkDown d).page 0xC00).intPend 0 = true ∧
    (d.twin = 2 → (doGulonLinkDown d).twin = 0) ∧ (d.twin = 3 → (doGulonLinkDown d).twin = 3) := by
  obtain ⟨hdown, hsts⟩ := d.linkDown_spec
  obtain ⟨hlanes, -, htwo⟩ := d.linkDown_lanes
  obtain ⟨hmap, hpend⟩ := hlanes hup
  unfold doGulonLinkDown
  generalize d.linkDown = e at hdown hsts hmap hpend htwo
  have hrole := Dev.Roles.timeRole e
  have htw : e.timeRole.twin = e.twin := Dev.fld_congr (hrole.regs _ (by decide)) 3 0
  exact ⟨(Dev.flag_congr (hrole.regs _ (by decide)) 0).trans hdown, (Dev.fld_congr (hrole.regs _ (by decide)) 17 0).trans hmap, (hrole.page 0xC00).2 0 hpend,
    fun h => htw.trans (htwo hup h), fun h => htw.trans ((Dev.fld_congr (hsts (by omega) (by omega)) 3 0).trans h)⟩

/-! ### A lane fails (R382) -/

/-- With no spare the link narrows, or goes down. -/
def Dev.narrowed (d : Dev) : Dev :=
  if 8 < d.fld Reg.TWN_LINK_STS 5 1 ∧ 8 ≤ d.lanesOn.length then
    let keep := d.lanesOn.take 8
    let d := d.setFld Reg.TWN_LANE_MAP 17 0 (keep.foldl (fun a i => a + 2 ^ i) 0)
    ((d.setFld Reg.TWN_LINK_STS 5 1 8).inc Reg.TWN_RETRAINS 1).raise 0xC00 0
  else d.linkDown

/-- What a lane's failure has recorded stands: FAIL, the map and the error. -/
structure Dev.LaneOut (l : Nat) (d t : Dev) : Prop where
  fail : t.reg Reg.TWN_LANE_FAIL = d.reg Reg.TWN_LANE_FAIL
  map : d.flag Reg.TWN_LANE_MAP l = false → t.flag Reg.TWN_LANE_MAP l = false
  page : (d.page 0xC00).Later (t.page 0xC00)

theorem Dev.narrowed_spec (d : Dev) {l : Nat} (hl : l < 18) (hoff : d.flag Reg.TWN_LANE_MAP l = false) : d.LaneOut l d.narrowed ∧
    (8 < d.fld Reg.TWN_LINK_STS 5 1 → 8 ≤ d.lanesOn.length → d.narrowed.fld Reg.TWN_LINK_STS 5 1 = 8) ∧
    (d.fld Reg.TWN_LINK_STS 5 1 ≤ 8 → d.narrowed.flag Reg.TWN_LINK_STS 0 = false) := by
  unfold Dev.narrowed
  split
  · next hcond =>
    extract_lets keep d1
    have hkeep : l ∉ keep := fun h => by
      have hin := (List.mem_filter.mp (List.mem_of_mem_take h)).2
      rw [hoff] at hin
      exact absurd hin (by decide)
    have hpw : keep.Pairwise (· < ·) := d.lanesOn_pairwise.sublist (List.take_sublist 8 _)
    have h1 : d1.flag Reg.TWN_LANE_MAP l = false := by
      show (d.setFld Reg.TWN_LANE_MAP 17 0 _).flag Reg.TWN_LANE_MAP l = false
      rw [Dev.flag, Dev.reg_setFld, if_pos rfl, bitAt_putBits _ _ _ _ _ (by decide), if_pos (by omega),
        testBit_foldl_pow hpw (fun i _ => Nat.two_pow_pos i) (by rw [Nat.sub_zero]; exact hkeep)]
      exact Nat.zero_testBit _
    have h1f : d1.reg Reg.TWN_LANE_FAIL = d.reg Reg.TWN_LANE_FAIL := Dev.reg_setFld_ne d (by decide) _ _ _
    have h1p : d1.page 0xC00 = d.page 0xC00 := Dev.page_setFld d _ _ _ _ _
    clear_value d1
    have hrep := Dev.Reports.raise ((d1.setFld Reg.TWN_LINK_STS 5 1 8).inc Reg.TWN_RETRAINS 1) 0xC00 0
    have hreg : ∀ off, off ≠ Reg.TWN_LINK_STS → off ≠ Reg.TWN_RETRAINS → off ∉ reportRegs →
        (((d1.setFld Reg.TWN_LINK_STS 5 1 8).inc Reg.TWN_RETRAINS 1).raise 0xC00 0).reg off = d1.reg off := fun off h h' hr =>
      (hrep.regs off hr).trans ((Dev.reg_setFld_ne _ h' _ _ _).trans (Dev.reg_setFld_ne d1 h _ _ _))
    have hpg : ((d1.setFld Reg.TWN_LINK_STS 5 1 8).inc Reg.TWN_RETRAINS 1).page 0xC00 = d1.page 0xC00 := by
      rw [Dev.inc, Dev.incFld, Dev.page_setFld, Dev.page_setFld]
    refine ⟨⟨(hreg _ (by decide) (by decide) (by decide)).trans h1f, fun _ => (Dev.flag_congr (hreg _ (by decide) (by decide) (by decide)) l).trans h1, ?_⟩,
      fun _ _ => ?_, fun h => absurd hcond.1 (by omega)⟩
    · have hpage := hrep.page 0xC00
      rw [hpg, h1p] at hpage
      exact hpage
    · exact (Dev.fld_congr ((hrep.regs _ (by decide)).trans (Dev.reg_setFld_ne _ (by decide) _ _ _)) 5 1).trans (Dev.fld_setFld_self d1 _ _ _ _ (by decide))
  · next hcond =>
    have hpairs := Dev.Pairs.linkDown d
    exact ⟨⟨hpairs.regs _ (by decide), fun h => d.linkDown_lanes.2.1 l hl h, hpairs.page _⟩, fun h h' => absurd ⟨h, h'⟩ hcond, fun _ => d.linkDown_spec.1⟩

/-- A spare lane takes the failed one's place. -/
theorem Dev.spareTaken_spec (d : Dev) {l i n : Nat} (hil : i ≠ l) (hi : i < 18) (hn : n < 4) :
    let t := ((d.setFlag Reg.TWN_LANE_MAP i true).setFld Reg.TWN_LINK_STS 7 6 n).inc Reg.TWN_RETRAINS 1
    d.LaneOut l (if n = 0 then t.exhaust 5 else t) ∧ (if n = 0 then t.exhaust 5 else t).fld Reg.TWN_LINK_STS 7 6 = n ∧
    (if n = 0 then t.exhaust 5 else t).fld Reg.TWN_LINK_STS 5 1 = d.fld Reg.TWN_LINK_STS 5 1 := by
  intro t
  have hwork : t.Works (if n = 0 then t.exhaust 5 else t) := .ite (Dev.Works.exhaust (.refl t) 5) (.refl t)
  have hreg : t.reg Reg.TWN_LANE_FAIL = d.reg Reg.TWN_LANE_FAIL :=
    (Dev.reg_setFld_ne _ (by decide) _ _ _).trans ((Dev.reg_setFld_ne _ (by decide) _ _ _).trans (Dev.reg_setFlag_ne d (by decide) _ _))
  have hmap : t.flag Reg.TWN_LANE_MAP l = d.flag Reg.TWN_LANE_MAP l :=
    (Dev.flag_setFld_ne _ (by decide) _ _ _ _).trans ((Dev.flag_setFld_ne _ (by decide) _ _ _ _).trans (Dev.flag_setFlag_other d _ _ _ _ (by omega) (Ne.symm hil)))
  have hpage : t.page 0xC00 = d.page 0xC00 := by
    show (((d.setFlag Reg.TWN_LANE_MAP i true).setFld Reg.TWN_LINK_STS 7 6 n).inc Reg.TWN_RETRAINS 1).page 0xC00 = _
    rw [Dev.inc, Dev.incFld, Dev.page_setFld, Dev.page_setFld, Dev.page_setFlag]
  have h76 : t.fld Reg.TWN_LINK_STS 7 6 = n :=
    (Dev.fld_setFld_ne _ (by decide) _ _ _ _ _).trans ((Dev.fld_setFld_self _ _ _ _ _ (by decide)).trans (Nat.mod_eq_of_lt hn))
  have h51 : t.fld Reg.TWN_LINK_STS 5 1 = d.fld Reg.TWN_LINK_STS 5 1 :=
    (Dev.fld_setFld_ne _ (by decide) _ _ _ _ _).trans ((Dev.fld_setFld_other _ _ _ _ _ _ _ (by decide) (by decide)).trans (Dev.fld_setFlag_ne d (by decide) _ _ _ _))
  clear_value t
  refine ⟨⟨(hwork.regs _ (by decide)).trans hreg, fun h => (Dev.flag_congr (hwork.regs _ (by decide)) l).trans (hmap.trans h), hpage ▸ hwork.page 0xC00⟩,
    (Dev.fld_congr (hwork.regs _ (by decide)) 7 6).trans h76, (Dev.fld_congr (hwork.regs _ (by decide)) 5 1).trans h51⟩

/-- The lane leaves the map, and its failure is recorded. -/
def Dev.laneOut (d : Dev) (l cause : Nat) : Dev :=
  (((d.setFlag Reg.TWN_LANE_FAIL l true).setFlag Reg.TWN_LANE_MAP l false).recordErr 0xC00 0x0100 l (cause % 2)).raise 0xC00 1

theorem Dev.laneOut_spec (d : Dev) {l : Nat} (cause : Nat) (hl : l < 18) (herr : (d.page 0xC00).err = false) :
    (d.laneOut l cause).flag Reg.TWN_LANE_FAIL l = true ∧ (d.laneOut l cause).flag Reg.TWN_LANE_MAP l = false ∧
    (∀ i, i ≠ l → (d.laneOut l cause).flag Reg.TWN_LANE_FAIL i = d.flag Reg.TWN_LANE_FAIL i ∧ (d.laneOut l cause).flag Reg.TWN_LANE_MAP i = d.flag Reg.TWN_LANE_MAP i) ∧
    (d.laneOut l cause).reg Reg.TWN_LINK_STS = d.reg Reg.TWN_LINK_STS ∧ ((d.laneOut l cause).page 0xC00).err = true ∧
    ((d.laneOut l cause).page 0xC00).errCode = 0x0100 ∧ ((d.laneOut l cause).page 0xC00).info0 = w32 l ∧ ((d.laneOut l cause).page 0xC00).info1 = w32 (cause % 2) := by
  unfold Dev.laneOut
  obtain ⟨d1, hd1⟩ : ∃ d1 : Dev, d1 = (d.setFlag Reg.TWN_LANE_FAIL l true).setFlag Reg.TWN_LANE_MAP l false := ⟨_, rfl⟩
  have h1 : d1.flag Reg.TWN_LANE_FAIL l = true ∧ d1.flag Reg.TWN_LANE_MAP l = false ∧
      (∀ i, i ≠ l → d1.flag Reg.TWN_LANE_FAIL i = d.flag Reg.TWN_LANE_FAIL i ∧ d1.flag Reg.TWN_LANE_MAP i = d.flag Reg.TWN_LANE_MAP i) ∧
      d1.reg Reg.TWN_LINK_STS = d.reg Reg.TWN_LINK_STS ∧ (d1.page 0xC00).err = false := by
    rw [hd1]
    refine ⟨(Dev.flag_setFlag_ne _ (by decide) _ _ _).trans (Dev.flag_setFlag_self d _ _ _ (by omega)), Dev.flag_setFlag_self _ _ _ _ (by omega), fun i hi => ⟨?_, ?_⟩, ?_, ?_⟩
    · exact (Dev.flag_setFlag_ne _ (by decide) _ _ _).trans (Dev.flag_setFlag_other d _ _ _ _ (by omega) hi)
    · exact (Dev.flag_setFlag_other _ _ _ _ _ (by omega) hi).trans (Dev.flag_setFlag_ne d (by decide) _ _ _)
    · exact (Dev.reg_setFlag_ne _ (by decide) _ _).trans (Dev.reg_setFlag_ne d (by decide) _ _)
    · rw [Dev.page_setFlag, Dev.page_setFlag, herr]
  rw [← hd1]
  clear hd1
  obtain ⟨hfail, hmap, hothers, hsts, herr1⟩ := h1
  have hreg : ∀ off, off ≠ Reg.PWR_MODE_STS → off ≠ Reg.GLB_DEV_STS → off ≠ Reg.PWR_BIAS_NOW →
      ((d1.recordErr 0xC00 0x0100 l (cause % 2)).raise 0xC00 1).reg off = d1.reg off := fun off a b c =>
    (Dev.reg_raise _ _ _ _ a b c).trans (Dev.reg_recordErr _ _ _ _ _ _)
  have hF := hreg Reg.TWN_LANE_FAIL (by decide) (by decide) (by decide)
  have hM := hreg Reg.TWN_LANE_MAP (by decide) (by decide) (by decide)
  have hfirst := Dev.page_recordErr_first d1 0xC00 0x0100 l (cause % 2) herr1
  obtain ⟨he, hcode, h0, h1⟩ := ((Dev.Reports.raise (d1.recordErr 0xC00 0x0100 l (cause % 2)) 0xC00 1).page 0xC00).1 (congrArg (·.err) hfirst)
  exact ⟨(Dev.flag_congr hF l).trans hfail, (Dev.flag_congr hM l).trans hmap,
    fun i hi => ⟨(Dev.flag_congr hF i).trans (hothers i hi).1, (Dev.flag_congr hM i).trans (hothers i hi).2⟩,
    (hreg _ (by decide) (by decide) (by decide)).trans hsts, he, hcode.trans (congrArg (·.errCode) hfirst), h0.trans (congrArg (·.info0) hfirst),
    h1.trans (congrArg (·.info1) hfirst)⟩

/-- The lanes that can take the place of a failed one. -/
def Dev.freeLanes (d : Dev) : List Nat := (List.range 18).filter (fun i => !d.flag Reg.TWN_LANE_MAP i && !d.flag Reg.TWN_LANE_FAIL i)

/-- A spare takes the place of the lane that has left, or the link narrows or goes down. -/
def Dev.laneReplaced (d : Dev) : Dev :=
  match d.freeLanes, d.fld Reg.TWN_LINK_STS 7 6 with
  | i :: _, n + 1 =>
    let d := ((d.setFlag Reg.TWN_LANE_MAP i true).setFld Reg.TWN_LINK_STS 7 6 n).inc Reg.TWN_RETRAINS 1
    if n = 0 then d.exhaust 5 else d
  | _, _ => d.narrowed

theorem doGulonLaneFail_eq {l : Nat} (cause : Nat) (hl : l < 18) (hon : d.flag Reg.TWN_LANE_MAP l = true) :
    doGulonLaneFail l cause d = (d.laneOut l cause).laneReplaced := by
  unfold doGulonLaneFail
  rw [Nat.mod_eq_of_lt hl]
  exact if_neg (by simp [hon])

theorem Dev.laneReplaced_spec (d : Dev) {l : Nat} (hl : l < 18) (hfail : d.flag Reg.TWN_LANE_FAIL l = true) (hoff : d.flag Reg.TWN_LANE_MAP l = false) :
    d.LaneOut l d.laneReplaced ∧
    (d.freeLanes ≠ [] → 0 < d.fld Reg.TWN_LINK_STS 7 6 →
      d.laneReplaced.fld Reg.TWN_LINK_STS 7 6 = d.fld Reg.TWN_LINK_STS 7 6 - 1 ∧ d.laneReplaced.fld Reg.TWN_LINK_STS 5 1 = d.fld Reg.TWN_LINK_STS 5 1) ∧
    (d.fld Reg.TWN_LINK_STS 7 6 = 0 → d.laneReplaced = d.narrowed) := by
  unfold Dev.laneReplaced
  split
  · next i rest n hfree hn =>
    obtain ⟨hi, hgood⟩ := List.mem_filter.mp (hfree ▸ List.mem_cons_self : i ∈ d.freeLanes)
    have hil : i ≠ l := fun h => by
      rw [h] at hgood
      simp [hfail] at hgood
    have hlt : n < 4 := by
      have hbits : d.fld Reg.TWN_LINK_STS 7 6 < 2 ^ 2 := Nat.mod_lt _ (by decide)
      omega
    obtain ⟨hout, h76, h51⟩ := d.spareTaken_spec hil (List.mem_range.mp hi) hlt
    exact ⟨hout, fun _ _ => ⟨h76.trans (by omega), h51⟩, fun h => absurd h (by omega)⟩
  · next hno =>
    refine ⟨(d.narrowed_spec hl hoff).1, fun hfree hpos => ?_, fun _ => rfl⟩
    obtain ⟨i, rest, hcons⟩ := List.exists_cons_of_ne_nil hfree
    exact absurd (Nat.succ_pred_eq_of_pos hpos).symm (hno i rest _ hcons)

theorem doGulonLaneFail_spec {l : Nat} (c : Nat) (hl : l < 18) (hon : d.flag Reg.TWN_LANE_MAP l = true) (herr : (d.page 0xC00).err = false) :
    ∃ t, t = doGulonLaneFail l c d ∧ t.flag Reg.TWN_LANE_FAIL l = true ∧ t.flag Reg.TWN_LANE_MAP l = false ∧
    (t.page 0xC00).errCode = 0x0100 ∧ (t.page 0xC00).info0 = w32 l ∧ (t.page 0xC00).info1 = w32 (c % 2) ∧
    ((∃ i < 18, d.flag Reg.TWN_LANE_MAP i = false ∧ d.flag Reg.TWN_LANE_FAIL i = false) → 0 < d.fld Reg.TWN_LINK_STS 7 6 →
      t.fld Reg.TWN_LINK_STS 7 6 = d.fld Reg.TWN_LINK_STS 7 6 - 1 ∧ t.fld Reg.TWN_LINK_STS 5 1 = d.fld Reg.TWN_LINK_STS 5 1) ∧
    (d.fld Reg.TWN_LINK_STS 7 6 = 0 → d.fld Reg.TWN_LINK_STS 5 1 = 16 → 9 ≤ d.lanesOn.length → t.fld Reg.TWN_LINK_STS 5 1 = 8) ∧
    (d.fld Reg.TWN_LINK_STS 7 6 = 0 → d.fld Reg.TWN_LINK_STS 5 1 = 8 → t.flag Reg.TWN_LINK_STS 0 = false) := by
  obtain ⟨hfail, hmap, hothers, hsts, he, hcode, h0, h1⟩ := d.laneOut_spec c hl herr
  refine ⟨_, rfl, ?_⟩
  rw [doGulonLaneFail_eq c hl hon]
  generalize d.laneOut l c = e at hfail hmap hothers hsts he hcode h0 h1
  obtain ⟨hout, hspare, hnone⟩ := e.laneReplaced_spec hl hfail hmap
  obtain ⟨-, hnarrow, hdown⟩ := e.narrowed_spec hl hmap
  have h76 : e.fld Reg.TWN_LINK_STS 7 6 = d.fld Reg.TWN_LINK_STS 7 6 := Dev.fld_congr hsts 7 6
  have h51 : e.fld Reg.TWN_LINK_STS 5 1 = d.fld Reg.TWN_LINK_STS 5 1 := Dev.fld_congr hsts 5 1
  obtain ⟨-, hcode', h0', h1'⟩ := hout.page.1 he
  refine ⟨(Dev.flag_congr hout.fail l).trans hfail, hout.map hmap, hcode'.trans hcode, h0'.trans h0, h1'.trans h1, ?_, ?_, ?_⟩
  · rintro ⟨i, hi, him, hif⟩ hpos
    have hil : i ≠ l := fun h => by
      rw [h, hon] at him
      exact absurd him (by decide)
    have hmem : i ∈ e.freeLanes := List.mem_filter.mpr ⟨List.mem_range.mpr hi, by rw [(hothers i hil).1, (hothers i hil).2, him, hif]; rfl⟩
    rw [← h76, ← h51]
    exact hspare (List.ne_nil_of_mem hmem) (h76 ▸ hpos)
  · intro hz hw hlen
    rw [hnone (h76.trans hz)]
    have hlanes := Dev.lanesOn_length (d := d) (t := e) (l := l) (fun i _ hil => (hothers i hil).2)
    exact hnarrow (by omega) (by omega)
  · intro hz hw
    rw [hnone (h76.trans hz)]
    exact hdown (by omega)

/-! ### The link trains (R381, R385) -/

/-- A page of a block that works. -/
def Page.works (p : Page) : Bool := p.en && !p.freeze && !p.isolate && !p.softRst

/-- Each page in the range works. -/
theorem Dev.pagesHold_iff (hd : d.dumping = false) (lo hi : Nat) :
    d.pagesHold lo hi = false ↔ ∀ kv ∈ d.pages, lo ≤ kv.1 → kv.1 ≤ hi → kv.2.works = true := by
  simp only [Dev.pagesHold, Dev.pagesStop, Page.works, hd, Bool.not_false, Bool.true_and, Bool.or_eq_false_iff, List.any_eq_false, Bool.and_eq_true, Bool.or_eq_true,
    decide_eq_true_eq, Bool.not_eq_true']
  constructor
  · rintro ⟨hs, he⟩ kv hkv hlo hhi
    have h1 := hs kv hkv
    have h2 := he kv hkv
    cases hen : kv.2.en <;> simp_all
  · intro h
    refine ⟨fun kv hkv hbad => ?_, fun kv hkv hbad => ?_⟩
    · obtain ⟨⟨hlo, hhi⟩, hbad⟩ := hbad
      have h1 := h kv hkv hlo hhi
      simp_all
    · obtain ⟨⟨hlo, hhi⟩, hbad⟩ := hbad
      have h1 := h kv hkv hlo hhi
      simp_all

theorem SMap.mem_set {α : Type} [DecidableEq α] {dflt : Nat → α} {m : SMap α} {n : Nat} {x : α} {kv : Nat × α} (h : kv ∈ SMap.set dflt m n x) : kv = (n, x) ∨ kv ∈ m := by
  have hall : (SMap.set dflt m n x).all (fun y => decide (y = (n, x) ∨ y ∈ m)) = true := by
    have hm : m.all (fun y => decide (y = (n, x) ∨ y ∈ m)) = true := List.all_eq_true.mpr (fun y hy => decide_eq_true (.inr hy))
    unfold SMap.set
    split
    · exact SMap.erase_all _ _ _ hm
    · exact SMap.insert_all _ _ _ _ (decide_eq_true (.inl rfl)) hm
  exact of_decide_eq_true (List.all_eq_true.mp hall kv h)

/-- Every page of the list that the list shows for its number works as before once an event latches. -/
theorem Dev.works_raise0 (lo hi pg bit : Nat) (h : ∀ kv ∈ d.pages, lo ≤ kv.1 → kv.1 ≤ hi → kv.2.works = true) :
    ∀ kv ∈ (d.raise0 pg bit).pages, lo ≤ kv.1 → kv.1 ≤ hi → kv.2.works = true := by
  have hpages : (d.raise0 pg bit).pages = (d.setPage pg { d.page pg with intPend := putBit (d.page pg).intPend bit true }).pages := by
    have hmsix : ∀ e : Dev, (e.pageMsix pg).pages = e.pages := fun e => by
      rw [Dev.pageMsix, Dev.msix_eq]
    unfold Dev.raise0
    extract_lets p p' d'
    split
    · exact hmsix d'
    · rfl
  intro kv hkv hlo hhi
  rw [hpages] at hkv
  rcases SMap.mem_set (show kv ∈ SMap.set (fun _ => Page.reset) d.pages pg _ from hkv) with hnew | hold
  · rw [hnew] at hlo hhi ⊢
    show (d.page pg).works = true
    rw [Dev.page, SMap.get]
    cases hfind : SMap.find d.pages pg with
    | none => rfl
    | some p => exact h (pg, p) (SMap.mem_of_find hfind) hlo hhi
  · exact h kv hold hlo hhi

theorem Dev.works_raise (lo hi pg bit : Nat) (h : ∀ kv ∈ d.pages, lo ≤ kv.1 → kv.1 ≤ hi → kv.2.works = true) :
    ∀ kv ∈ (d.raise pg bit).pages, lo ≤ kv.1 → kv.1 ≤ hi → kv.2.works = true := by
  unfold Dev.raise Dev.toRun
  split
  · exact Dev.works_raise0 lo hi 0xD00 0 (fun kv hkv => Dev.works_raise0 lo hi pg bit h kv hkv)
  · exact Dev.works_raise0 lo hi pg bit h

theorem Dev.canKey_raise (pg bit : Nat) (hup : d.flag Reg.TWN_LINK_STS 0 = true) (hctl : d.flag Reg.TWN_CTL 0 = true) (hheld : d.twnHeld = false)
    (hdump : d.dumping = false) : (d.raise pg bit).canKey = true := by
  have hreg := fun off a b c => d.reg_raise pg bit off a b c
  have hd : (d.raise pg bit).dumping = false := (Dev.flag_congr (hreg _ (by decide) (by decide) (by decide)) 1).trans hdump
  have hh : (d.raise pg bit).twnHeld = false := (Dev.pagesHold_iff hd _ _).mpr (Dev.works_raise _ _ pg bit ((Dev.pagesHold_iff hdump _ _).mp hheld))
  have h1 := (Dev.flag_congr (hreg Reg.TWN_LINK_STS (by decide) (by decide) (by decide)) 0).trans hup
  have h2 := (Dev.flag_congr (hreg Reg.TWN_CTL (by decide) (by decide) (by decide)) 0).trans hctl
  rw [Dev.canKey, h1, h2, hh, hd]
  rfl

/-- The link is up at the width its lanes give. -/
def Dev.trained (d : Dev) (sts map : Nat) : Dev := ((d.setReg Reg.TWN_LINK_STS (w32 sts)).setFld Reg.TWN_LANE_MAP 17 0 map).raise 0xC00 0

theorem Dev.trained_spec (d : Dev) {n : Nat} (hn : n < 3) (map : Nat) :
    (d.trained (1 + 2 * 16 + 64 * n) map).flag Reg.TWN_LINK_STS 0 = true ∧ (d.trained (1 + 2 * 16 + 64 * n) map).fld Reg.TWN_LINK_STS 5 1 = 16 ∧
    (d.trained (1 + 2 * 16 + 64 * n) map).fld Reg.TWN_LINK_STS 7 6 = n ∧ (d.trained (1 + 2 * 16 + 64 * n) map).twin = d.twin ∧
    (d.trained (1 + 2 * 16 + 64 * n) map).released = d.released ∧ (d.trained (1 + 2 * 16 + 64 * n) map).linkKey = d.linkKey ∧
    d.out <+: (d.trained (1 + 2 * 16 + 64 * n) map).out ∧
    (d.flag Reg.TWN_CTL 0 = true → d.twnHeld = false → d.dumping = false → (d.trained (1 + 2 * 16 + 64 * n) map).canKey = true) := by
  obtain ⟨d1, hd1⟩ : ∃ d1 : Dev, d1 = (d.setReg Reg.TWN_LINK_STS (w32 (1 + 2 * 16 + 64 * n))).setFld Reg.TWN_LANE_MAP 17 0 map := ⟨_, rfl⟩
  have hreg : ∀ off, off ≠ Reg.TWN_LINK_STS → off ≠ Reg.TWN_LANE_MAP → d1.reg off = d.reg off := fun off h h' => by
    rw [hd1]
    exact (Dev.reg_setFld_ne _ h' _ _ _).trans (Dev.reg_setReg_ne d h _)
  have hsts : d1.reg Reg.TWN_LINK_STS = w32 (1 + 2 * 16 + 64 * n) := by
    rw [hd1]
    exact (Dev.reg_setFld_ne _ (by decide) _ _ _).trans (Dev.reg_setReg_self d _ _)
  have hkeep : d1.linkKey = d.linkKey ∧ d1.out = d.out ∧ d1.pages = d.pages := by
    rw [hd1]
    exact ⟨rfl, rfl, rfl⟩
  have hw : bitAt (w32 (1 + 2 * 16 + 64 * n)) 0 = true ∧ bits (w32 (1 + 2 * 16 + 64 * n)) 5 1 = 16 ∧ bits (w32 (1 + 2 * 16 + 64 * n)) 7 6 = n := by
    interval_cases n <;> decide
  have htr : d.trained (1 + 2 * 16 + 64 * n) map = d1.raise 0xC00 0 := by
    rw [hd1]
    rfl
  rw [htr]
  clear hd1 htr
  have hrep := Dev.Reports.raise d1 0xC00 0
  have hS : (d1.raise 0xC00 0).reg Reg.TWN_LINK_STS = w32 (1 + 2 * 16 + 64 * n) := (hrep.regs _ (by decide)).trans hsts
  obtain ⟨hw0, hw51, hw76⟩ := hw
  obtain ⟨hlk, ho, hpg⟩ := hkeep
  refine ⟨(congrArg (fun w => bitAt w 0) hS).trans hw0, (congrArg (fun w => bits w 5 1) hS).trans hw51, (congrArg (fun w => bits w 7 6) hS).trans hw76,
    Dev.fld_congr ((hrep.regs _ (by decide)).trans (hreg _ (by decide) (by decide))) 3 0,
    (hrep.runs.dev 0 (by decide)).trans (Dev.flag_congr (hreg _ (by decide) (by decide)) 0), (congrArg (·.linkKey) hrep.kept).trans hlk, ho ▸ hrep.out,
    fun hctl hheld hdump => ?_⟩
  have hdump1 : d1.dumping = false := (Dev.flag_congr (hreg _ (by decide) (by decide)) 1).trans hdump
  refine Dev.canKey_raise 0xC00 0 ((congrArg (fun w => bitAt w 0) hsts).trans hw0) ((Dev.flag_congr (hreg _ (by decide) (by decide)) 0).trans hctl)
    ((Dev.pagesHold_iff hdump1 _ _).mpr ?_) hdump1
  rw [hpg]
  exact (Dev.pagesHold_iff hdump _ _).mp hheld

theorem doGulonLinkUp_spec (d : Dev) (hdown : d.flag Reg.TWN_LINK_STS 0 = false) (hen : d.flag Reg.TWN_LINK_CTL 0 = true)
    (hgood : 16 ≤ ((List.range 18).filter (fun l => !d.flag Reg.TWN_LANE_FAIL l)).length) :
    (doGulonLinkUp d).flag Reg.TWN_LINK_STS 0 = true ∧ (doGulonLinkUp d).fld Reg.TWN_LINK_STS 5 1 = 16 ∧
    (doGulonLinkUp d).fld Reg.TWN_LINK_STS 7 6 = ((List.range 18).filter (fun l => !d.flag Reg.TWN_LANE_FAIL l)).length - 16 ∧
    (d.released = true → d.flag Reg.TWN_CTL 0 = true → d.twnHeld = false → d.dumping = false → d.twin ∈ [0, 3, 4, 5, 6, 7] →
      (doGulonLinkUp d).twin = 1 ∧ (d.linkKey.isSome = true → d.puts (doGulonLinkUp d) 0x01)) := by
  unfold doGulonLinkUp
  generalize hg : (List.range 18).filter (fun l => !d.flag Reg.TWN_LANE_FAIL l) = good at hgood ⊢
  have hle : good.length ≤ 18 := by
    rw [← hg]
    exact (List.length_filter_le _ _).trans (by decide)
  extract_lets _ width use spares d1 d2 d3
  have hwidth : width = 16 := if_pos hgood
  clear_value width
  subst hwidth
  rw [if_neg (by simp [hdown, hen])]
  obtain ⟨hup, hwid, hsp, htw, hrel, hlk, hout, hcan⟩ := d.trained_spec (n := spares) (show good.length - 16 < 3 by omega) (sumL (use.map (fun l => 2 ^ l)))
  have hd2 : d2 = d.trained (1 + 2 * 16 + 64 * spares) (sumL (use.map (fun l => 2 ^ l))) := rfl
  rw [← hd2] at hup hwid hsp htw hrel hlk hout hcan
  have hkeys : d2.Keys d3 := .ite (.enterKeying d2) (.refl d2)
  have henter : d.released = true → d.flag Reg.TWN_CTL 0 = true → d.twnHeld = false → d.dumping = false → d.twin ∈ [0, 3, 4, 5, 6, 7] →
      d3.twin = 1 ∧ (d.linkKey.isSome = true → d.puts d3 0x01) := fun hr hc hh hd ht => by
    have hpair : (d2.mayPair || d2.paired) = true := by
      simp only [List.mem_cons, List.not_mem_nil, or_false] at ht
      rw [Dev.mayPair, Dev.paired, htw]
      simp only [Bool.or_eq_true, beq_iff_eq, decide_eq_true_eq]
      omega
    have hd3 : d3 = d2.enterKeying := if_pos (by rw [hrel, hr, hcan hc hh hd, hpair]; rfl)
    obtain ⟨htwin, -, hputs⟩ := d2.enterKeying_spec
    rw [hd3]
    refine ⟨htwin, fun hk => ?_⟩
    obtain ⟨hd, body, tag, htell, hmod⟩ := hputs (hlk ▸ hk)
    exact ⟨hd, body, tag, Dev.tells_within hout htell List.prefix_rfl, hmod⟩
  clear_value d3 d2
  have hrole := Dev.Roles.timeRole d3
  have hL : d3.timeRole.reg Reg.TWN_LINK_STS = d2.reg Reg.TWN_LINK_STS := (hrole.regs _ (by decide)).trans (hkeys.regs _ (by decide))
  refine ⟨(Dev.flag_congr hL 0).trans hup, (Dev.fld_congr hL 5 1).trans hwid, (Dev.fld_congr hL 7 6).trans hsp, fun hr hc hh hd ht => ?_⟩
  obtain ⟨htwin, hputs⟩ := henter hr hc hh hd ht
  refine ⟨(Dev.fld_congr (hrole.regs _ (by decide)) 3 0).trans htwin, fun hk => ?_⟩
  obtain ⟨hdr, body, tag, htell, hmod⟩ := hputs hk
  exact ⟨hdr, body, tag, Dev.tells_within List.prefix_rfl htell hrole.out, hmod⟩

/-! ### The pairing key (R190, R390) -/

/-- Registers emptied one after another read 0. -/
theorem Dev.reg_emptied (f : Nat → Nat) (d : Dev) (n : Nat) : ∀ i < n, ((List.range n).foldl (fun d i => d.setReg (f i) 0) d).reg (f i) = 0 := by
  induction n with
  | zero => exact fun i hi => absurd hi (Nat.not_lt_zero i)
  | succ n ih =>
    intro i hi
    rw [List.range_succ, List.foldl_append, List.foldl_cons, List.foldl_nil, Dev.reg_setReg]
    split
    · rfl
    · next hne => exact ih i (Nat.lt_of_le_of_ne (Nat.le_of_lt_succ hi) (fun h => hne (by rw [h])))

/-- The pairing key from the eight registers, which are then empty. -/
def Dev.pairkeyTaken (d : Dev) : Dev :=
  let k := d.keyRegs (Reg.TWN_PAIRKEY 0)
  let e := (List.range 8).foldl (fun (d : Dev) i => d.setReg (Reg.TWN_PAIRKEY i) 0) d
  { (e.setFlag Reg.TWN_PAIRKEY_STS 0 true).setFld Reg.TWN_PAIRKEY_STS 31 16 (kcvOf k) with pairKey := some k }

theorem Dev.pairkeyTaken_spec (d : Dev) : d.pairkeyTaken.flag Reg.TWN_PAIRKEY_STS 0 = true ∧ (∀ i < 8, d.pairkeyTaken.reg (Reg.TWN_PAIRKEY i) = 0) ∧
    d.pairkeyTaken.pairKey = some (d.keyRegs (Reg.TWN_PAIRKEY 0)) := by
  refine ⟨?_, fun i hi => ?_, rfl⟩
  · refine (Dev.flag_setFld_other _ Reg.TWN_PAIRKEY_STS 31 16 _ 0 (by decide) (by decide)).trans ?_
    exact Dev.flag_setFlag_self _ _ _ _ (by decide)
  · have hne : Reg.TWN_PAIRKEY i ≠ Reg.TWN_PAIRKEY_STS := by
      simp only [Reg.TWN_PAIRKEY, Reg.TWN_PAIRKEY_STS]
      omega
    refine (Dev.reg_setFld_ne _ hne _ _ _).trans ((Dev.reg_setFlag_ne _ hne _ _).trans ?_)
    exact Dev.reg_emptied (fun i => Reg.TWN_PAIRKEY i) d 8 i hi

/-- The key taken, a link that waited for it enters KEYING. -/
def Dev.pairkeyEff (d : Dev) (v : Word) : Dev :=
  let e := d.setReg (Reg.TWN_PAIRKEY 7) v
  let x := (List.range 8).foldl (fun (d : Dev) i => d.setReg (Reg.TWN_PAIRKEY i) 0) e
  if x.twin = 1 ∧ x.linkKey.isNone then e.pairkeyTaken.enterKeying else e.pairkeyTaken

theorem Dev.pairkeyEff_spec (d : Dev) (v : Word) : (d.pairkeyEff v).flag Reg.TWN_PAIRKEY_STS 0 = true ∧ (∀ i < 8, (d.pairkeyEff v).reg (Reg.TWN_PAIRKEY i) = 0) ∧
    (d.pairkeyEff v).pairKey = some ((d.setReg (Reg.TWN_PAIRKEY 7) v).keyRegs (Reg.TWN_PAIRKEY 0)) := by
  unfold Dev.pairkeyEff
  extract_lets e x
  have he : d.setReg (Reg.TWN_PAIRKEY 7) v = e := rfl
  rw [he]
  clear_value x
  clear he
  clear_value e
  obtain ⟨hsts, hregs, hkey⟩ := e.pairkeyTaken_spec
  have hkeys : e.pairkeyTaken.Keys (if x.twin = 1 ∧ x.linkKey.isNone then e.pairkeyTaken.enterKeying else e.pairkeyTaken) := .ite (.enterKeying _) (.refl _)
  refine ⟨(Dev.flag_congr (hkeys.regs _ (by decide)) 0).trans hsts, fun i hi => (hkeys.regs _ ?_).trans (hregs i hi), (congrArg (·.pairKey) hkeys.kept).trans hkey⟩
  interval_cases i <;> decide

theorem regDef_pairkey7 : regDef? (Reg.TWN_PAIRKEY 7) =
    some ⟨"TWN_PAIRKEY", 0xC00180, 8, 0x4, 0x0, 0x0, 0x0, 0x0, 0xFFFFFFFF, 0x0, false, false, false⟩ := rfl

theorem doPairkeySet_spec (d : Dev) (v : Word) (ho : d.isOpen 0xC00) : (doPairkeySet v d).flag Reg.TWN_PAIRKEY_STS 0 = true ∧
    (doPairkeySet v d).pairKey = some ((d.setReg (Reg.TWN_PAIRKEY 7) v).keyRegs (Reg.TWN_PAIRKEY 0)) ∧
    ∀ i < 8, (doPairkeySet v d).reg (Reg.TWN_PAIRKEY i) = 0 := by
  obtain ⟨d2, -, hreg, -, hpub⟩ := regWrite_effect (eff := fun _ d => d.pairkeyEff v) (t := doPairkeySet v d) rfl ho (by decide) regDef_pairkey7
  obtain ⟨hsts, hregs, hkey⟩ := d2.pairkeyEff_spec v
  have hkept : (doPairkeySet v d).pairKey = (d2.pairkeyEff v).pairKey := by
    obtain ⟨_, _, _, h, -⟩ := hpub
    exact congrArg (·.pairKey) h
  have hsame : ∀ off, (d2.setReg (Reg.TWN_PAIRKEY 7) v).reg off = (d.setReg (Reg.TWN_PAIRKEY 7) v).reg off := fun off => by
    rw [Dev.reg_setReg, Dev.reg_setReg, hreg]
  refine ⟨(hpub.flag _ _).trans hsts, hkept.trans (hkey.trans (congrArg some ?_)), fun i hi => (hpub.reg _).trans (hregs i hi)⟩
  exact List.foldl_ext _ _ _ (fun a k _ => by rw [hsame])

/-! ### A fresh session key in time (R388) -/

theorem doInvLimit_rekeys (d : Dev) (ht : d.twin = 2 ∨ d.twin = 3) (hinv : 2 ^ 31 - 2 ^ 24 ≤ d.fld Reg.TWN_TX_INV 31 0) (hout : d.rekeyOut = false) :
    (doInvLimit d).rekeyOut = true ∧
    ∃ k, (doInvLimit d).sesTxNew = some k ∧ (doInvLimit d).sends 0x03 (rekeyFs (rfcWrap d.shelfKey 4 k) (d.txEpoch + 1)) := by
  have hcond : ¬((!(d.twin == 2 || d.twin == 3) || decide (d.fld Reg.TWN_TX_INV 31 0 < 2 ^ 31 - 2 ^ 24)) = true) := by
    rw [Bool.or_eq_true, decide_eq_true_eq]
    rintro (h | h)
    · rcases ht with ht | ht <;> simp [ht] at h
    · omega
  have hrandom := Dev.Reports.capRec d 0x2A 11 []
  obtain ⟨d1, hd1⟩ : ∃ d1 : Dev, d1 = { d.random with rekeyOut := true, sesTxNew := some (d.freeVal % 2 ^ 256) } := ⟨_, rfl⟩
  have hbody : doInvLimit d = d1.sendGulon 0x03 (rekeyFs (rfcWrap d.shelfKey 4 (d.freeVal % 2 ^ 256)) (d.txEpoch + 1)) := by
    unfold doInvLimit
    extract_lets inv k
    rw [if_neg hcond, if_neg (by simp [hout]), hd1]
  have h1 : d1.rekeyOut = true ∧ d1.sesTxNew = some (d.freeVal % 2 ^ 256) ∧ d1.twin = d.twin := by
    rw [hd1]
    exact ⟨rfl, rfl, Dev.fld_congr (hrandom.regs _ (by decide)) 3 0⟩
  clear hd1
  obtain ⟨hro, hses, htw⟩ := h1
  have hkept := (Dev.Messages.sendGulon d1 0x03 (rekeyFs (rfcWrap d.shelfKey 4 (d.freeVal % 2 ^ 256)) (d.txEpoch + 1))).kept
  rw [hbody]
  refine ⟨(congrArg (·.rekeyOut) hkept).trans hro, d.freeVal % 2 ^ 256, (congrArg (·.sesTxNew) hkept).trans hses, Dev.sends_sendGulon d1 ?_ _ _⟩
  rw [Dev.paired, htw]
  rcases ht with ht | ht
  · exact .inl ht
  · exact .inr (by simp [ht])

theorem doInvLimit_exhausted (d : Dev) (ht : d.twin = 2 ∨ d.twin = 3) (hinv : 2 ^ 31 ≤ d.fld Reg.TWN_TX_INV 31 0) (hout : d.rekeyOut = true)
    (herr : (d.page 0xC00).err = false) : (doInvLimit d).twin = 1 ∧ ((doInvLimit d).page 0xC00).errCode = 0x0106 := by
  have hcond : ¬((!(d.twin == 2 || d.twin == 3) || decide (d.fld Reg.TWN_TX_INV 31 0 < 2 ^ 31 - 2 ^ 24)) = true) := by
    rw [Bool.or_eq_true, decide_eq_true_eq]
    rintro (h | h)
    · rcases ht with ht | ht <;> simp [ht] at h
    · omega
  have hbody : doInvLimit d = (d.recordErr 0xC00 0x0106 (d.fld Reg.TWN_KEY_STS 15 0) 0).enterKeying := by
    unfold doInvLimit
    extract_lets inv k
    rw [if_neg hcond, if_pos hout, if_pos hinv]
  have hfirst := Dev.page_recordErr_first d 0xC00 0x0106 (d.fld Reg.TWN_KEY_STS 15 0) 0 herr
  rw [hbody]
  obtain ⟨-, hcode, -, -⟩ := ((Dev.Keys.enterKeying (d.recordErr 0xC00 0x0106 (d.fld Reg.TWN_KEY_STS 15 0) 0)).page 0xC00).1 (congrArg (·.err) hfirst)
  exact ⟨(Dev.enterKeying_spec _).1, hcode.trans (congrArg (·.errCode) hfirst)⟩

end

end Sys2Proof.Machine
end

section
/-! HELLO and HELLO_ACK: what their check decides, and where the unit goes from KEYING (R387, R391, R409, R410). -/

namespace Sys2Proof.Machine

-- In order, one declaration at a time: keeps the check within its memory limit.
set_option Elab.async false

section
variable {d e t : Dev}

/-! ### The check of HELLO (R391) -/

/-- The check reads nothing that a report changes. -/
theorem Dev.helloCheck_of_reports (hr : d.Reports e) (m : GMsg) (h : Hello) : e.helloCheck m h = d.helloCheck m h := by
  have hreg : ∀ off, off ∉ reportRegs → e.reg off = d.reg off := hr.regs
  have hside : e.side = d.side := Dev.fld_congr (hreg _ (by decide)) 0 0
  have hver : e.fld Reg.NVM_IMG_VER 31 24 = d.fld Reg.NVM_IMG_VER 31 24 := Dev.fld_congr (hreg _ (by decide)) 31 24
  have hfmt : e.fld Reg.MAP_BANDS_FMT 22 0 = d.fld Reg.MAP_BANDS_FMT 22 0 := Dev.fld_congr (hreg _ (by decide)) 22 0
  have hseed : e.fld Reg.SHF_SEED 31 0 = d.fld Reg.SHF_SEED 31 0 := Dev.fld_congr (hreg _ (by decide)) 31 0
  have hsegs : e.segs = d.segs := Dev.fld_congr (hreg _ (by decide)) 5 0
  have hses : e.sessionIn h = d.sessionIn h := by
    have hkept := congrArg (fun x : Dev => x.sessionIn h) hr.kept
    exact hkept
  unfold Dev.helloCheck
  rw [hside, hver, hfmt, hseed, hsegs, hses]

theorem Dev.servesOver_of_regs (h : Hello) (hf : t.fence = d.fence) (hc : t.reg Reg.TST_BRG_CAUSE = d.reg Reg.TST_BRG_CAUSE) (hs : t.reg Reg.GLB_STRAP = d.reg Reg.GLB_STRAP) :
    t.servesOver h = d.servesOver h := by
  have hstop : t.stopClass = d.stopClass := Dev.fld_congr hc 5 3
  have hside : t.side = d.side := Dev.fld_congr hs 0 0
  unfold Dev.servesOver
  rw [hf, hstop, hside]

theorem Dev.err_setTwin (d : Dev) (st pg : Nat) : ((d.setTwin st).page pg).err = (d.page pg).err := by
  unfold Dev.setTwin
  extract_lets d1 d2
  have h2 : d2.page pg = d.page pg := by
    show (d1.setSingle _).page pg = d.page pg
    rw [Dev.setSingle, Dev.page_setFlag, Dev.page_setFlag, Dev.page_setFlag, Dev.page_setFlag, Dev.page_setFlag, Dev.page_setFlag]
    exact Dev.page_setFld d _ _ _ _ _
  have hraise : ∀ n, ((d2.raise 0xC01 n).page pg).err = (d.page pg).err := fun n => by rw [Dev.err_raise, h2]
  rw [← h2] at hraise ⊢
  split
  · rw [h2]
  · split
    · exact hraise 0
    · split
      · exact hraise 2
      · split
        · exact hraise 3
        · rfl

/-- A failed check is shown, and the unit is in MISMATCH. -/
theorem Dev.helloIn_mismatch (d : Dev) (mem : Memory) (m : GMsg) (h : Hello) (reply : Bool) {n : Nat} (hn : d.helloCheck m h = some n)
    (herr : (d.page 0xC01).err = false) : (d.helloIn mem m h reply).twin = 6 ∧ (d.helloIn mem m h reply).reg Reg.TWN_MISMATCH = w32 n ∧
    ((d.helloIn mem m h reply).page 0xC01).errCode = 0x0102 ∧ ((d.helloIn mem m h reply).page 0xC01).info1 = w32 n := by
  obtain ⟨d1, hd1⟩ : ∃ d1 : Dev, d1 = (d.setTwin 6).setReg Reg.TWN_MISMATCH (w32 n) := ⟨_, rfl⟩
  have hbody : d.helloIn mem m h reply = if d.paired then (d1.recordErr 0xC01 0x0102 0 n).singleNow else d1.recordErr 0xC01 0x0102 0 n := by
    rw [hd1]
    unfold Dev.helloIn
    rw [hn]
  have h1 : d1.twin = 6 ∧ d1.reg Reg.TWN_MISMATCH = w32 n ∧ (d1.page 0xC01).err = false := by
    rw [hd1]
    exact ⟨(Dev.fld_setReg_ne _ (by decide) _ _ _).trans (d.setTwin_spec (by decide)).1, Dev.reg_setReg_self _ _ _, (d.err_setTwin 6 0xC01).trans herr⟩
  clear hd1
  obtain ⟨htw, hmis, herr1⟩ := h1
  have hfirst := Dev.page_recordErr_first d1 0xC01 0x0102 0 n herr1
  have hreg : ∀ off, (d1.recordErr 0xC01 0x0102 0 n).reg off = d1.reg off := fun off => Dev.reg_recordErr _ _ _ _ _ _
  generalize d1.recordErr 0xC01 0x0102 0 n = d2 at hbody hfirst hreg
  rw [hbody]
  split
  · obtain ⟨hs, -, -⟩ := d2.singleNow_spec
    obtain ⟨-, hcode, -, hinfo⟩ := (hs.frame.page 0xC01).1 (congrArg (·.err) hfirst)
    exact ⟨(Dev.fld_congr ((hs.frame.regs _ (by decide)).trans (hreg _)) 3 0).trans htw, ((hs.frame.regs _ (by decide)).trans (hreg _)).trans hmis,
      hcode.trans (congrArg (·.errCode) hfirst), hinfo.trans (congrArg (·.info1) hfirst)⟩
  · exact ⟨(Dev.fld_congr (hreg _) 3 0).trans htw, (hreg _).trans hmis, congrArg (·.errCode) hfirst, congrArg (·.info1) hfirst⟩

/-! ### The keys are exchanged (R385, R390) -/

/-- From `d` to `t` the twin has been met: where the unit was, whom it serves and what it has put on the link stay. -/
structure Dev.Meets (d t : Dev) : Prop where
  gPrev : t.gPrev = d.gPrev
  out : t.out = d.out
  twin : t.twin = d.twin
  fence : t.fence = d.fence
  cause : t.reg Reg.TST_BRG_CAUSE = d.reg Reg.TST_BRG_CAUSE
  strap : t.reg Reg.GLB_STRAP = d.reg Reg.GLB_STRAP

theorem Dev.Meets.trans (h : d.Meets e) (h' : e.Meets t) : d.Meets t :=
  ⟨h'.gPrev.trans h.gPrev, h'.out.trans h.out, h'.twin.trans h.twin, h'.fence.trans h.fence, h'.cause.trans h.cause, h'.strap.trans h.strap⟩

theorem Dev.Meets.refl (d : Dev) : d.Meets d := ⟨rfl, rfl, rfl, rfl, rfl, rfl⟩

theorem Dev.Meets.setReg {off : Nat} (h : off ∉ [Reg.TWN_STS, Reg.TST_BRG_CAUSE, Reg.GLB_STRAP]) (d : Dev) (v : Word) : d.Meets (d.setReg off v) := by
  have hne : ∀ o ∈ [Reg.TWN_STS, Reg.TST_BRG_CAUSE, Reg.GLB_STRAP], (d.setReg off v).reg o = d.reg o := fun o ho =>
    Dev.reg_setReg_ne d (ne_of_mem_of_not_mem ho h) v
  exact ⟨rfl, rfl, Dev.fld_congr (hne _ (by simp)) 3 0, Dev.fld_congr (hne _ (by simp)) 31 16, hne _ (by simp), hne _ (by simp)⟩

theorem Dev.Meets.hide (hg : t.gPrev = d.gPrev := by rfl) (ho : t.out = d.out := by rfl) (hr : t.regs = d.regs := by rfl) : d.Meets t := by
  have hreg : ∀ off, t.reg off = d.reg off := fun off => by rw [Dev.reg, hr, Dev.reg]
  exact ⟨hg, ho, Dev.fld_congr (hreg _) 3 0, Dev.fld_congr (hreg _) 31 16, hreg _, hreg _⟩

/-- The session key, the peer and its serial are taken. -/
def Dev.met (d : Dev) (m : GMsg) (h : Hello) : Dev :=
  let ses := (d.sessionIn h).getD 0
  let d := match d.shelf, (if (d.shelfIn h).isSome then d.shelfIn h else d.shelfNew) with
    | none, some k => d.adoptShelf k
    | _, _ => d
  let d := { d with sesRx := ses, sesRxNew := none }.setFld Reg.TWN_KEY_STS 31 16 m.keyep
  let d := d.set64 Reg.TWN_PEER_SERIAL_LO Reg.TWN_PEER_SERIAL_HI (h.serial % 2 ^ 64)
  let d := (d.setReg Reg.TWN_PEER_VER (w32 h.ver)).setFlag Reg.TWN_STS 5 (m.side % 2 == 1)
  { d.setReg Reg.TWN_MISMATCH 0 with gLastRx := d.tick }

theorem Dev.Meets.adoptShelf (d : Dev) (k : Nat) : d.Meets (d.adoptShelf k) := by
  unfold Dev.adoptShelf
  extract_lets anew
  refine Dev.Meets.trans ?_ (.setReg (off := Reg.TWN_PAIRKEY_STS) (by decide) _ _)
  exact .hide

theorem Dev.Meets.set64 {lo hi : Nat} (hlo : lo ∉ [Reg.TWN_STS, Reg.TST_BRG_CAUSE, Reg.GLB_STRAP]) (hhi : hi ∉ [Reg.TWN_STS, Reg.TST_BRG_CAUSE, Reg.GLB_STRAP])
    (d : Dev) (v : Nat) : d.Meets (d.set64 lo hi v) := (Dev.Meets.setReg hlo d _).trans (.setReg hhi _ _)

theorem Dev.Meets.met (d : Dev) (m : GMsg) (h : Hello) : d.Meets (d.met m h) := by
  unfold Dev.met
  extract_lets ses d1 d2 d3 d4 d5
  have h1 : d.Meets d1 := by
    simp only [d1]
    split
    · exact .adoptShelf d _
    · exact .refl d
  have h2 : d1.Meets d2 := by
    refine Dev.Meets.trans ?_ (.setReg (off := Reg.TWN_KEY_STS) (by decide) _ _)
    exact .hide
  have h3 : d2.Meets d3 := .set64 (lo := Reg.TWN_PEER_SERIAL_LO) (hi := Reg.TWN_PEER_SERIAL_HI) (by decide) (by decide) d2 _
  have hver : d3.Meets (d3.setReg Reg.TWN_PEER_VER (w32 h.ver)) := .setReg (by decide) d3 _
  have hflag : ∀ (e : Dev) b, e.Meets (e.setFlag Reg.TWN_STS 5 b) := fun e b =>
    ⟨rfl, rfl, Dev.fld_setFlag_other e _ _ _ _ _ (by decide) (by decide), Dev.fld_setFlag_other e _ _ _ _ _ (by decide) (by decide),
      Dev.reg_setFlag_ne e (by decide) _ _, Dev.reg_setFlag_ne e (by decide) _ _⟩
  have h4 : d3.Meets d4 := hver.trans (hflag _ _)
  have h5 : d4.Meets d5 := .setReg (off := Reg.TWN_MISMATCH) (by decide) d4 _
  exact (((h1.trans h2).trans h3).trans h4).trans (h5.trans .hide)

/-- SYNCING begins: the unit that serves sends SYNC, the other discards what it holds (R409, R410). -/
def Dev.syncing (d : Dev) (mem : Memory) (m : GMsg) (serve : Bool) : Dev :=
  let e := { d with serves := serve, decided := none, taking := false, takes := [], gRx := m.mnum }.setTwin 2
  if serve then e.sendSync mem else e.joinerClear

theorem Dev.keyed_eq (d : Dev) (mem : Memory) (m : GMsg) (h : Hello) : d.keyed mem m h =
    if (d.met m h).gPrev = 3 then ((d.met m h).setTwin 3).resend true
    else if (d.met m h).gPrev = 2 then ((d.met m h).setTwin 2).resend true
    else (d.met m h).syncing mem m ((d.met m h).servesOver h) := rfl

/-! ### What waits is sent again (R387) -/

theorem Dev.resend_keeps (d : Dev) (all : Bool) : (d.resend all).reg Reg.TWN_STS = d.reg Reg.TWN_STS ∧ d.out <+: (d.resend all).out := by
  unfold Dev.resend
  extract_lets e
  have hfold : d.Messages e := by
    refine Dev.Frame.foldl (fun x m => ?_) _ d
    exact .ite (Dev.Messages.putGulon x _ _ _ _) (.refl x)
  exact ⟨hfold.regs _ (by decide), hfold.out⟩

/-! ### SYNC of the unit that serves (R409) -/

theorem Dev.gTx_sendPart (h : d.twin = 2 ∨ d.paired = true) (kind : Nat) (last : Bool) (fs : Fields) :
    (d.sendPart kind last fs).gTx = d.gTx + 1 ∧ (d.sendPart kind last fs).syncEnd = d.syncEnd := by
  have hk := congrArg (fun x : Dev => x.syncEnd) (Dev.Messages.sendPart d kind last fs).kept
  refine ⟨?_, hk⟩
  unfold Dev.sendPart
  extract_lets go d1 d2
  rw [if_pos (by rcases h with h | h <;> simp [h])]
  have h1 : d1.gTx = d.gTx := by
    simp only [d1]
    split
    · exact congrArg (·.2.2) (d.line_putGulon kind d.gTx last fs)
    · rfl
  exact congrArg (· + 1) h1

theorem Dev.sendSync_spec (d : Dev) (mem : Memory) (htw : d.twin = 2) : (d.sendSync mem).twin = 2 ∧ (d.sendSync mem).serves = d.serves ∧
    (d.sendSync mem).syncEnd = some ((d.sendSync mem).gTx - 1) ∧ (∃ fs, (d.sendSync mem).sends 0x50 fs) ∧ d.out <+: (d.sendSync mem).out := by
  unfold Dev.sendSync
  extract_lets part parts d1
  have h1 : d.Messages d1 := Dev.Frame.foldl (fun x _ => Dev.Messages.sendPart x _ _ _) _ d
  clear_value d1
  obtain ⟨d2, hd2⟩ : ∃ d2 : Dev, d2 = { d1 with syncEnd := some d1.gTx } := ⟨_, rfl⟩
  rw [← hd2]
  have h2 : d2.reg Reg.TWN_STS = d1.reg Reg.TWN_STS ∧ d2.serves = d1.serves ∧ d2.syncEnd = some d1.gTx ∧ d2.gTx = d1.gTx ∧ d2.out = d1.out := by
    rw [hd2]
    exact ⟨rfl, rfl, rfl, rfl, rfl⟩
  have h1s : d1.serves = d.serves := congrArg (·.serves) h1.kept
  have h1t : d1.reg Reg.TWN_STS = d.reg Reg.TWN_STS := h1.regs _ (by decide)
  have h1o := h1.out
  clear hd2
  obtain ⟨hreg, hsrv, hend, htx, hout⟩ := h2
  have htw2 : d2.twin = 2 := (Dev.fld_congr (hreg.trans h1t) 3 0).trans htw
  have hm := Dev.Messages.sendPart d2 0x50 true (part [] JBatch.none [])
  obtain ⟨hgtx, hse⟩ := d2.gTx_sendPart (.inl htw2) 0x50 true (part [] JBatch.none [])
  refine ⟨(Dev.fld_congr (hm.regs _ (by decide)) 3 0).trans htw2, (congrArg (·.serves) hm.kept).trans (hsrv.trans h1s), ?_,
    ⟨_, Dev.sends_sendGulon d2 (.inl htw2) 0x50 _⟩, h1o.trans (hout ▸ hm.out)⟩
  rw [hse, hend, hgtx, htx]
  rfl

/-! ### The unit that joins (R409) -/

theorem Dev.dropCache_hides (d : Dev) : d.dropCache.serves = d.serves ∧ d.dropCache.out = d.out := ⟨rfl, rfl⟩

theorem Dev.foldl_setBmLog (f : Dev → Nat → BmLog) (l : List Nat) (d : Dev) :
    (l.foldl (fun (e : Dev) n => e.setBmLog n (f e n)) d).cache = d.cache ∧ (l.foldl (fun (e : Dev) n => e.setBmLog n (f e n)) d).serves = d.serves ∧
    (l.foldl (fun (e : Dev) n => e.setBmLog n (f e n)) d).out = d.out ∧ (l.foldl (fun (e : Dev) n => e.setBmLog n (f e n)) d).regs = d.regs :=
  List.foldlRecOn (motive := fun e : Dev => e.cache = d.cache ∧ e.serves = d.serves ∧ e.out = d.out ∧ e.regs = d.regs) l _ ⟨rfl, rfl, rfl, rfl⟩
    (fun _ he _ _ => he)

theorem Dev.joinerClear_spec (d : Dev) : d.joinerClear.cache = [] ∧ d.joinerClear.serves = d.serves ∧ d.joinerClear.twin = d.twin ∧ d.joinerClear.out = d.out := by
  obtain ⟨hcache, -, hregs⟩ := d.dropCache_keeps
  obtain ⟨hserves, hout⟩ := d.dropCache_hides
  have hsts := hregs Reg.TWN_STS (by simp)
  unfold Dev.joinerClear
  generalize d.dropCache = e at hcache hserves hout hsts
  extract_lets e1 d1 log d2
  obtain ⟨h1c, h1s, h1o, h1r⟩ : d1.cache = e.cache ∧ d1.serves = e.serves ∧ d1.out = e.out ∧ d1.regs = e.regs := ⟨rfl, rfl, rfl, rfl⟩
  clear_value d1 e1 log
  obtain ⟨h2c, h2s, h2o, h2r⟩ : d2.cache = d1.cache ∧ d2.serves = d1.serves ∧ d2.out = d1.out ∧ d2.regs = d1.regs :=
    Dev.foldl_setBmLog (fun e _ => { log with base := e.bmSeq }) d1.bmLogsOn d1
  clear_value d2
  have hlast : ∀ x : Dev, ((x.bmCount.setFld Reg.MAP_DLOG_USED 21 0 0).setFld Reg.MAP_CACHE_DIRTY 20 0 0).cache = x.cache ∧
      ((x.bmCount.setFld Reg.MAP_DLOG_USED 21 0 0).setFld Reg.MAP_CACHE_DIRTY 20 0 0).serves = x.serves ∧
      ((x.bmCount.setFld Reg.MAP_DLOG_USED 21 0 0).setFld Reg.MAP_CACHE_DIRTY 20 0 0).out = x.out := fun _ => ⟨rfl, rfl, rfl⟩
  obtain ⟨h3c, h3s, h3o⟩ := hlast d2
  refine ⟨h3c.trans (h2c.trans (h1c.trans hcache)), h3s.trans (h2s.trans (h1s.trans hserves)), ?_, h3o.trans (h2o.trans (h1o.trans hout))⟩
  refine Dev.fld_congr ?_ 3 0
  refine ((Dev.reg_setFld_ne _ (by decide) _ _ _).trans ((Dev.reg_setFld_ne _ (by decide) _ _ _).trans (Dev.reg_setFld_ne d2 (by decide) _ _ _))).trans ?_
  rw [← hsts, Dev.reg, h2r, h1r, Dev.reg]

/-! ### From KEYING to SYNCING or back (R387, R409) -/

theorem Dev.syncing_spec (d : Dev) (mem : Memory) (m : GMsg) (serve : Bool) : (d.syncing mem m serve).twin = 2 ∧ (d.syncing mem m serve).serves = serve ∧
    (serve = true → (d.syncing mem m serve).syncEnd = some ((d.syncing mem m serve).gTx - 1) ∧ ∃ fs, (d.syncing mem m serve).sends 0x50 fs) ∧
    (serve = false → (d.syncing mem m serve).cache = []) ∧ d.out <+: (d.syncing mem m serve).out := by
  unfold Dev.syncing
  obtain ⟨e0, he0⟩ : ∃ e0 : Dev, e0 = { d with serves := serve, decided := none, taking := false, takes := [], gRx := m.mnum } := ⟨_, rfl⟩
  have h0 : e0.serves = serve ∧ e0.out = d.out := by
    rw [he0]
    exact ⟨rfl, rfl⟩
  rw [← he0]
  extract_lets e
  have hp := Dev.Pairs.setTwin e0 2
  have htw : e.twin = 2 := (e0.setTwin_spec (by decide)).1
  have hs : e.serves = serve := (congrArg (·.serves) hp.kept).trans h0.1
  have hout : d.out <+: e.out := h0.2 ▸ hp.out
  clear_value e
  split
  · next hserve =>
    obtain ⟨h1, h2, h3, h4, h5⟩ := e.sendSync_spec mem htw
    exact ⟨h1, h2.trans hs, fun _ => ⟨h3, h4⟩, fun h => absurd (hserve.symm.trans h) (by decide), hout.trans h5⟩
  · next hserve =>
    obtain ⟨h1, h2, h3, h4⟩ := e.joinerClear_spec
    exact ⟨h3.trans htw, h2.trans hs, fun h => absurd h hserve, fun _ => h1, h4 ▸ hout⟩

theorem Dev.back_spec (d : Dev) {st : Nat} (hst : st < 16) : ((d.setTwin st).resend true).twin = st ∧ d.out <+: ((d.setTwin st).resend true).out := by
  obtain ⟨hreg, hout⟩ := (d.setTwin st).resend_keeps true
  exact ⟨(Dev.fld_congr hreg 3 0).trans (d.setTwin_spec hst).1, (Dev.Pairs.setTwin d st).out.trans hout⟩

/-- Where the exchange of keys takes the unit, by where it was. -/
structure Dev.Keyed (d : Dev) (h : Hello) (t : Dev) : Prop where
  out : d.out <+: t.out
  back3 : d.gPrev = 3 → t.twin = 3
  back2 : d.gPrev = 2 → t.twin = 2
  joins : d.gPrev ≠ 3 → d.gPrev ≠ 2 → t.twin = 2 ∧ t.serves = d.servesOver h ∧
    (d.servesOver h = true → t.syncEnd = some (t.gTx - 1) ∧ ∃ fs, t.sends 0x50 fs) ∧ (d.servesOver h = false → t.cache = [])

theorem Dev.keyed_spec (d : Dev) (mem : Memory) (m : GMsg) (h : Hello) : d.Keyed h (d.keyed mem m h) := by
  have hm := Dev.Meets.met d m h
  rw [Dev.keyed_eq]
  generalize d.met m h = e at hm
  have hserves : e.servesOver h = d.servesOver h := Dev.servesOver_of_regs h hm.fence hm.cause hm.strap
  split
  · next h3 =>
    have hg := hm.gPrev ▸ h3
    obtain ⟨htw, hout⟩ := e.back_spec (st := 3) (by decide)
    exact ⟨hm.out ▸ hout, fun _ => htw, fun h => absurd (hg.symm.trans h) (by decide), fun h => absurd hg h⟩
  · next h3 =>
    split
    · next h2 =>
      have hg := hm.gPrev ▸ h2
      obtain ⟨htw, hout⟩ := e.back_spec (st := 2) (by decide)
      exact ⟨hm.out ▸ hout, fun h => absurd (hg.symm.trans h) (by decide), fun _ => htw, fun _ h => absurd hg h⟩
    · next h2 =>
      rw [hm.gPrev] at h3 h2
      obtain ⟨htw, hs, hserve, hjoin, hout⟩ := e.syncing_spec mem m (e.servesOver h)
      rw [hserves] at htw hs hserve hjoin hout ⊢
      exact ⟨hm.out ▸ hout, fun h => absurd h h3, fun h => absurd h h2, fun _ _ => ⟨htw, hs, hserve, hjoin⟩⟩

theorem Dev.sendHello_meets (d : Dev) (kind : Nat) : d.out <+: (d.sendHello kind).out ∧ (d.sendHello kind).gPrev = d.gPrev ∧
    ∀ h, (d.sendHello kind).servesOver h = d.servesOver h := by
  have hk := Dev.Keys.sendHello d kind
  obtain ⟨hg, hsts⟩ := d.sendHello_keeps kind
  exact ⟨hk.out, hg, fun h => Dev.servesOver_of_regs h (Dev.fld_congr hsts 31 16) (hk.regs _ (by decide)) (hk.regs _ (by decide))⟩

/-- The checks have passed. -/
theorem Dev.helloIn_ok (d : Dev) (mem : Memory) (m : GMsg) (h : Hello) (reply : Bool) (hn : d.helloCheck m h = none) : d.Keyed h (d.helloIn mem m h reply) ∧
    (reply = true → d.linkKey.isSome = true → d.fld Reg.TWN_TX_INV 31 0 < 2 ^ 31 → d.puts (d.helloIn mem m h reply) 0x02) := by
  have hbody : d.helloIn mem m h reply = (if reply then d.sendHello 0x02 else d).keyed mem m h := by
    unfold Dev.helloIn
    rw [hn]
  rw [hbody]
  cases reply with
  | false => exact ⟨d.keyed_spec mem m h, fun h => absurd h (by decide)⟩
  | true =>
    rw [if_pos rfl]
    obtain ⟨hout, hg, hs⟩ := d.sendHello_meets 0x02
    have hk := (d.sendHello 0x02).keyed_spec mem m h
    refine ⟨⟨hout.trans hk.out, fun h3 => hk.back3 (hg.trans h3), fun h2 => hk.back2 (hg.trans h2), fun h3 h2 => ?_⟩, fun _ hkey hinv => ?_⟩
    · rw [← hg] at h3 h2
      rw [← hs]
      exact hk.joins h3 h2
    · obtain ⟨k, hk'⟩ := Option.isSome_iff_exists.mp hkey
      have hsend : d.sendHello 0x02 = d.putGulon 0x02 d.gTx true (d.myHello k).fs := by
        unfold Dev.sendHello
        rw [hk']
      obtain ⟨hd, body, tag, htell, hmod⟩ := d.puts_putGulon hinv (kind := 0x02) (by decide) d.gTx true (d.myHello k).fs
      rw [← hsend] at htell
      exact ⟨hd, body, tag, Dev.tells_within List.prefix_rfl htell hk.out, hmod⟩

theorem Dev.Reports.capTwin (d : Dev) (kind : Nat) (m : GMsg) (last : Bool) (fs : Fields) : d.Reports (d.capTwin kind m last fs) := by
  unfold Dev.capTwin
  exact .ite (.ite (Dev.Reports.capRec d _ _ _) (Dev.Reports.capAdd d _ _ _ _ _ _)) (.ite (Dev.Reports.capAdd d _ _ _ _ _ _) (Dev.Reports.capRec d _ _ _))

theorem Dev.page_capAdd (d : Dev) (kind src flags : Nat) (ws : List Nat) (n body pg : Nat) : (d.capAdd kind src flags ws n body).page pg = d.page pg := by
  unfold Dev.capAdd
  split
  · rfl
  · rfl

theorem Dev.page_capTwin (d : Dev) (kind : Nat) (m : GMsg) (last : Bool) (fs : Fields) (pg : Nat) : (d.capTwin kind m last fs).page pg = d.page pg := by
  unfold Dev.capTwin Dev.capData
  split
  · split
    · exact d.page_capAdd _ _ _ _ _ _ _
    · exact d.page_capAdd _ _ _ _ _ _ _
  · split
    · exact d.page_capAdd _ _ _ _ _ _ _
    · exact d.page_capAdd _ _ _ _ _ _ _

/-- A captured message changes nothing that the exchange of keys reads. -/
theorem Dev.Keyed.of_reports {h : Hello} (hr : d.Reports e) (hk : e.Keyed h t) : d.Keyed h t := by
  have hg : e.gPrev = d.gPrev := congrArg (·.gPrev) hr.kept
  have hs : e.servesOver h = d.servesOver h :=
    Dev.servesOver_of_regs h (Dev.fld_congr (hr.regs _ (by decide)) 31 16) (hr.regs _ (by decide)) (hr.regs _ (by decide))
  refine ⟨hr.out.trans hk.out, fun h3 => hk.back3 (hg.trans h3), fun h2 => hk.back2 (hg.trans h2), fun h3 h2 => ?_⟩
  rw [← hg] at h3 h2
  rw [← hs]
  exact hk.joins h3 h2

end

/-! ### HELLO and HELLO_ACK in KEYING -/

section
variable (s : State) (hrun : s.running)
include hrun

theorem exec_hello_eq (m : GMsg) (h : Hello) (hcan : s.dev.canKey = true) (htw : s.dev.twin = 1) :
    ∃ t, exec (.hello m h) s = .next t ∧ t.dev = (s.dev.capTwin 0x01 m true h.fs).helloIn s.window m h true := by
  refine ⟨_, actWindow_of_running s (doHello m h) (fun _ _ => []) hrun, ?_⟩
  have htw1 : (s.dev.capTwin 0x01 m true h.fs).twin = 1 := (Dev.fld_congr ((Dev.Reports.capTwin s.dev _ _ _ _).regs _ (by decide)) 3 0).trans htw
  show doHello m h s.window s.dev = _
  unfold doHello
  rw [if_neg (by simp [hcan])]
  exact if_pos htw1

theorem exec_helloAck_eq (m : GMsg) (h : Hello) (hcan : s.dev.canKey = true) (htw : s.dev.twin = 1) :
    ∃ t, exec (.helloAck m h) s = .next t ∧ t.dev = (s.dev.capTwin 0x02 m true h.fs).helloIn s.window m h false := by
  refine ⟨_, actWindow_of_running s (doHelloAck m h) (fun _ _ => []) hrun, ?_⟩
  show doHelloAck m h s.window s.dev = _
  unfold doHelloAck
  exact if_pos (by simp [hcan, htw])

/-- HELLO or HELLO_ACK, captured, is checked. -/
theorem exec_helloAny_eq (m : GMsg) (h : Hello) (hcan : s.dev.canKey = true) (htw : s.dev.twin = 1) {i : Instr} (hi : i ∈ [Instr.hello m h, .helloAck m h]) :
    ∃ t d1 reply, exec i s = .next t ∧ s.dev.Reports d1 ∧ t.dev = d1.helloIn s.window m h reply := by
  simp only [List.mem_cons, List.not_mem_nil, or_false] at hi
  rcases hi with rfl | rfl
  · obtain ⟨t, ht, hd⟩ := exec_hello_eq s hrun m h hcan htw
    exact ⟨t, _, true, ht, Dev.Reports.capTwin s.dev _ _ _ _, hd⟩
  · obtain ⟨t, ht, hd⟩ := exec_helloAck_eq s hrun m h hcan htw
    exact ⟨t, _, false, ht, Dev.Reports.capTwin s.dev _ _ _ _, hd⟩

theorem exec_helloAny_ok (m : GMsg) (h : Hello) (hcan : s.dev.canKey = true) (htw : s.dev.twin = 1) {i : Instr} (hi : i ∈ [Instr.hello m h, .helloAck m h])
    (hn : s.dev.helloCheck m h = none) : ∃ t, exec i s = .next t ∧ s.dev.Keyed h t.dev := by
  obtain ⟨t, d1, reply, ht, hr, hd⟩ := exec_helloAny_eq s hrun m h hcan htw hi
  obtain ⟨hk, -⟩ := d1.helloIn_ok s.window m h reply ((Dev.helloCheck_of_reports hr m h).trans hn)
  exact ⟨t, ht, hd ▸ hk.of_reports hr⟩

theorem exec_hello_answers (m : GMsg) (h : Hello) (hcan : s.dev.canKey = true) (htw : s.dev.twin = 1) (hn : s.dev.helloCheck m h = none)
    (hkey : s.dev.linkKey.isSome = true) (hinv : s.dev.fld Reg.TWN_TX_INV 31 0 < 2 ^ 31) : ∃ t, exec (.hello m h) s = .next t ∧ s.dev.puts t.dev 0x02 := by
  obtain ⟨t, ht, hd⟩ := exec_hello_eq s hrun m h hcan htw
  have hr := Dev.Reports.capTwin s.dev 0x01 m true h.fs
  generalize s.dev.capTwin 0x01 m true h.fs = d1 at hd hr
  have hlk : d1.linkKey = s.dev.linkKey := congrArg (·.linkKey) hr.kept
  obtain ⟨-, hputs⟩ := d1.helloIn_ok s.window m h true ((Dev.helloCheck_of_reports hr m h).trans hn)
  obtain ⟨hdr, body, tag, htell, hmod⟩ := hputs rfl (hlk ▸ hkey) (by rw [Dev.fld_congr (hr.regs Reg.TWN_TX_INV (by decide)) 31 0]; exact hinv)
  exact ⟨t, ht, hdr, body, tag, hd ▸ Dev.tells_within hr.out htell List.prefix_rfl, hmod⟩

theorem exec_helloAny_mismatch (m : GMsg) (h : Hello) (hcan : s.dev.canKey = true) (htw : s.dev.twin = 1) {i : Instr} (hi : i ∈ [Instr.hello m h, .helloAck m h])
    {n : Nat} (hn : s.dev.helloCheck m h = some n) (herr : (s.dev.page 0xC01).err = false) : ∃ t, exec i s = .next t ∧ t.dev.twin = 6 ∧
      t.dev.reg Reg.TWN_MISMATCH = w32 n ∧ (t.dev.page 0xC01).errCode = 0x0102 ∧ (t.dev.page 0xC01).info1 = w32 n := by
  simp only [List.mem_cons, List.not_mem_nil, or_false] at hi
  have hcap : ∀ kind, ((s.dev.capTwin kind m true h.fs).page 0xC01).err = false := fun kind => by
    rw [Dev.page_capTwin, herr]
  rcases hi with rfl | rfl
  · obtain ⟨t, ht, hd⟩ := exec_hello_eq s hrun m h hcan htw
    exact ⟨t, ht, hd ▸ Dev.helloIn_mismatch _ _ m h _ ((Dev.helloCheck_of_reports (Dev.Reports.capTwin s.dev _ _ _ _) m h).trans hn) (hcap _)⟩
  · obtain ⟨t, ht, hd⟩ := exec_helloAck_eq s hrun m h hcan htw
    exact ⟨t, ht, hd ▸ Dev.helloIn_mismatch _ _ m h _ ((Dev.helloCheck_of_reports (Dev.Reports.capTwin s.dev _ _ _ _) m h).trans hn) (hcap _)⟩

end

/-- Settles O39. -/
theorem twinLinkAndKeys : Obligations.TwinLinkAndKeys := by
  intro s hrun
  refine ⟨fun l c hl hon herr => ?_, fun hdown hen hgood => ⟨_, act_of_running s doGulonLinkUp hrun, doGulonLinkUp_spec s.dev hdown hen hgood⟩,
    fun hup => ⟨_, act_of_running s doGulonLinkDown hrun, doGulonLinkDown_spec hup⟩,
    fun v ho => ⟨_, act_of_running s (doPairkeySet v) hrun, doPairkeySet_spec s.dev v ho⟩, fun m h i hcan htw hi => ⟨fun hn => ⟨fun h3 => ?_, fun h2 => ?_,
      fun h3 h2 => ?_, fun hkey hinv => exec_hello_answers s hrun m h hcan htw hn hkey hinv⟩, fun n hn herr => exec_helloAny_mismatch s hrun m h hcan htw hi hn herr⟩,
    fun ht hinv => ⟨fun hout => ⟨_, act_of_running s doInvLimit hrun, doInvLimit_rekeys s.dev ht hinv hout⟩,
      fun hout hfull herr => ⟨_, act_of_running s doInvLimit hrun, doInvLimit_exhausted s.dev ht hfull hout herr⟩⟩⟩
  · obtain ⟨t, ht, hspec⟩ := doGulonLaneFail_spec c hl hon herr
    subst ht
    exact ⟨_, act_of_running s (doGulonLaneFail l c) hrun, hspec⟩
  · obtain ⟨t, ht, hk⟩ := exec_helloAny_ok s hrun m h hcan htw hi hn
    exact ⟨t, ht, hk.back3 h3⟩
  · obtain ⟨t, ht, hk⟩ := exec_helloAny_ok s hrun m h hcan htw hi hn
    exact ⟨t, ht, hk.back2 h2⟩
  · obtain ⟨t, ht, hk⟩ := exec_helloAny_ok s hrun m h hcan htw hi hn
    exact ⟨t, ht, hk.joins h3 h2⟩

end Sys2Proof.Machine
end

section
/-! Slices: what completing commands leaves of them, and the operations that VSL_SL_CTL and VSL_SL_OP start (R138 to R141, R149 to R159). -/

namespace Sys2Proof.Machine

-- In order, one declaration at a time: keeps the check within its memory limit.
set_option Elab.async false

section
variable {d e t : Dev}

/-! ### What a slice's record becomes -/

theorem Dev.slices_journal (d : Dev) (b : JBatch) : (d.journal b).slices = d.slices := by
  unfold Dev.journal
  split
  · exact congrArg (·.slices) (Dev.Messages.sendGulon d _ _).kept
  · rfl

theorem Dev.slices_keepSlice (d : Dev) (s : Nat) : (d.keepSlice s).slices = d.slices := d.slices_journal _

theorem Dev.slice_setSlice (d : Dev) (s k : Nat) (x : Slice) : (d.setSlice s x).slice k = if k = s then x else d.slice k := by
  split
  · next h => rw [h, Dev.slice_setSlice_self]
  · next h => exact Dev.slice_setSlice_ne d h x

theorem Dev.slice_setKept (d : Dev) (s k : Nat) (x : Slice) : (d.setKept s x).slice k = if k = s then x else d.slice k := by
  unfold Dev.setKept
  extract_lets d1
  have h1 : d1.slice k = if k = s then x else d.slice k := d.slice_setSlice s k x
  split
  · exact (Dev.slice_of_slices (d1.slices_keepSlice s) k).trans h1
  · exact h1

theorem Dev.slice_sliceTo (d : Dev) (s k : Nat) (st : SliceSt) : (d.sliceTo s st).slice k = if k = s then { d.slice s with st := st } else d.slice k := by
  unfold Dev.sliceTo
  split
  · next h =>
    split
    · next hk => rw [hk, ← h]
    · rfl
  · exact (Dev.slice_of_slices (Dev.slices_keepSlice _ s) k).trans (d.slice_setSlice s k _)

theorem Dev.slice_sliceTo_self (d : Dev) (s : Nat) (st : SliceSt) : (d.sliceTo s st).slice s = { d.slice s with st := st } := by
  rw [Dev.slice_sliceTo, if_pos rfl]

theorem Dev.slice_opDone (d : Dev) (s k : Nat) : (d.opDone s).slice k = if k = s then { d.slice s with opBusy := false } else d.slice k :=
  (Dev.slice_of_reports (Dev.Reports.raise _ _ _) k).trans (d.slice_setSlice s k _)

/-! ### What completing commands leaves of a slice -/

/-- From `d` to `t` of each slice only what is in flight and what is used of its headroom have changed. -/
def Dev.Steady (d t : Dev) : Prop := ∀ k, ∃ n h, t.slice k = { d.slice k with inflight := n, hdrmUsed := h }

theorem Dev.Steady.of_slices (h : t.slices = d.slices) : d.Steady t := fun k => ⟨_, _, Dev.slice_of_slices h k⟩

theorem Dev.Steady.refl (d : Dev) : d.Steady d := .of_slices rfl

theorem Dev.Steady.trans (h : d.Steady e) (h' : e.Steady t) : d.Steady t := fun k => by
  obtain ⟨n, m, h1⟩ := h k
  obtain ⟨n', m', h2⟩ := h' k
  exact ⟨n', m', by rw [h2, h1]⟩

theorem Dev.Steady.ite {c : Prop} [Decidable c] (h : d.Steady e) (h' : d.Steady t) : d.Steady (if c then e else t) := by
  split
  · exact h
  · exact h'

theorem Dev.Steady.foldl {α : Type} {f : Dev → α → Dev} (h : ∀ (e : Dev) x, e.Steady (f e x)) (l : List α) (d : Dev) : d.Steady (l.foldl f d) :=
  List.foldlRecOn (motive := fun e : Dev => d.Steady e) l f (.refl d) (fun e he x _ => he.trans (h e x))

theorem Dev.Steady.setKept (d : Dev) (s n h : Nat) : d.Steady (d.setKept s { d.slice s with inflight := n, hdrmUsed := h }) := fun k => by
  rw [Dev.slice_setKept]
  split
  · next hk => exact ⟨n, h, by rw [hk]⟩
  · exact ⟨_, _, rfl⟩

theorem Dev.Steady.setSlice (d : Dev) (s n h : Nat) : d.Steady (d.setSlice s { d.slice s with inflight := n, hdrmUsed := h }) := fun k => by
  rw [Dev.slice_setSlice]
  split
  · next hk => exact ⟨n, h, by rw [hk]⟩
  · exact ⟨_, _, rfl⟩

theorem Dev.slices_of_line (h : t.line = d.line) : t.slices = d.slices := congrArg (·.1) h

theorem Dev.Steady.unmerge (d : Dev) (s g gv : Nat) : d.Steady (d.unmerge s g gv) := by
  unfold Dev.unmerge
  extract_lets hit d1
  have h1 : d.Steady d1 := .of_slices rfl
  exact .ite (.refl d) (.ite (h1.trans (.of_slices (congrArg (·.slices) (Dev.Messages.sendGulon d1 _ _).kept))) h1)

theorem Dev.Steady.onFail (d : Dev) (qid : Nat) (c : Cmd) : d.Steady (d.onFail qid c) := by
  unfold Dev.onFail
  extract_lets mine placed gone d1 d2 d3 x
  have h1 : d.Steady d1 := .of_slices (Dev.slices_of_line (Dev.line_dropVers { d with mapPend := d.mapPend.filter (fun x => x.owner != some (qid * 32 + c.tag)) } _))
  have h2 : d1.Steady d2 := .foldl (fun e _ => .unmerge e _ _ _) _ d1
  have hfree : ∀ e : Dev, e.Steady (e.freeSlots (c.slots - placed)) := fun e => .of_slices rfl
  have hvalid : d2.Steady (if c.passed && !c.placed then d2.revalid else d2) := .ite (.of_slices rfl) (.refl d2)
  have h3 : d2.Steady d3 := hvalid.trans (hfree _)
  exact ((h1.trans h2).trans h3).trans (.ite (.setKept d3 _ _ _) (.refl d3))

theorem Dev.slices_foldl {α : Type} {f : Dev → α → Dev} (h : ∀ (e : Dev) x, (f e x).slices = e.slices) (l : List α) (d : Dev) : (l.foldl f d).slices = d.slices :=
  List.foldlRecOn (motive := fun e : Dev => e.slices = d.slices) l f rfl (fun e he x _ => (h e x).trans he)

theorem Dev.Steady.onPost (d : Dev) (qid : Nat) (c : Cmd) : d.Steady (d.onPost qid c) := by
  have hbehind : ∀ (e : Dev) s gs, (e.countBehind s gs).slices = e.slices := fun e s gs => by
    unfold Dev.countBehind
    dsimp only
    split <;> rfl
  have howned : ∀ (e : Dev) o, (e.applyOwned o).slices = e.slices := fun e o =>
    (Dev.slices_foldl (fun e x => Dev.slices_of_line (e.line_applyEnt x)) _ _).trans rfl
  unfold Dev.onPost
  exact .of_slices ((howned _ _).trans ((hbehind _ _ _).trans rfl))

theorem Dev.slices_scorePost (d : Dev) (qid : Nat) (c : Cmd) : (d.scorePost qid c).slices = d.slices := by
  have hscore : ∀ (e : Dev) src v s cl g, (e.score src v s cl g).slices = e.slices := fun e src v s cl g => Dev.slices_of_line (e.line_score src v s cl g)
  unfold Dev.scorePost
  extract_lets s lat src d1
  have h1 : d1.slices = d.slices := by
    simp only [d1]
    split
    · exact hscore _ _ _ _ _ _
    · rfl
  split
  · exact (hscore _ _ _ _ _ _).trans h1
  · exact h1

theorem Dev.Steady.writeCe (d : Dev) (qid head : Nat) (ce : CE) : d.Steady (d.writeCe qid head ce) := by
  unfold Dev.writeCe
  extract_lets q n timeb tagw d1 cmd q1 d2 d3 now
  have h1 : d.Steady d1 := .of_slices (Dev.slices_of_reports (Dev.Reports.capRec d 0x17 qid _) : (d.capRec 0x17 qid _).slices = d.slices)
  have h2 : d1.Steady d2 := .of_slices rfl
  have h3 : d2.Steady d3 := by
    clear_value cmd d2
    cases cmd with
    | none => exact .refl d2
    | some c =>
      have hscore : d2.Steady (d2.scorePost qid c) := .of_slices (d2.slices_scorePost qid c)
      exact (hscore.trans (.setSlice _ _ _ _)).trans (.ite (.ite (.onPost _ _ _) (.onFail _ _ _)) (.refl _))
  have hannounce : d3.Steady (d3.announce qid) := by
    unfold Dev.announce
    extract_lets q d4
    exact .ite (.of_slices (Dev.slices_of_line (d4.line_msix _ _))) (.of_slices rfl)
  exact ((h1.trans h2).trans h3).trans (.ite hannounce (.refl d3))

theorem Dev.Steady.complete (d : Dev) (qid tag status info : Nat) : d.Steady (d.complete qid tag status info) := by
  unfold Dev.complete
  simp only [Dev.post]
  split
  · exact .writeCe d _ _ _
  · exact .of_slices rfl

theorem Dev.Steady.squash (d : Dev) (qid : Nat) (p : Cmd → Bool) : d.Steady (d.squash qid p) := by
  unfold Dev.squash
  extract_lets q dead d1
  have h1 : d.Steady d1 := .of_slices rfl
  exact h1.trans (.foldl (fun e c => .ite (.onFail e _ _) (.refl e)) _ d1)

/-! ### Commands that freezing ends (R154) -/

theorem Dev.queue_complete_other (d : Dev) (qid tag status info : Nat) {k : Nat} (hk : k ≠ qid) : (d.complete qid tag status info).queue k = d.queue k := by
  unfold Dev.complete
  simp only [Dev.post]
  split
  · exact (Dev.queue_writeCe d qid _ _).2 k hk
  · exact SMap.get_set_ne _ _ _ _ _ hk

/-- Of a queue's live commands those of a completed tag go, and none else is changed in its tag or start. -/
theorem Dev.live_complete (d : Dev) (qid tag status info : Nat) : ∀ c ∈ ((d.complete qid tag status info).queue qid).live,
    c.tag ≠ tag ∧ ∃ c0 ∈ (d.queue qid).live, c0.tag = c.tag ∧ c0.started = c.started := by
  intro c hc
  unfold Dev.complete at hc
  simp only [Dev.post] at hc
  split at hc
  · next h _ _ =>
    have hcmds := congrArg (·.cmds) (Dev.queue_writeCe d qid h ⟨tag, 0, status, info, 0⟩).1
    obtain ⟨hmem, hdone⟩ := List.mem_filter.mp hc
    rw [hcmds] at hmem
    obtain ⟨c0, hc0, hrel⟩ := List.mem_map.mp (show c ∈ ({ d.queue qid with cmds := (d.queue qid).cmds.filter (fun c => c.tag != tag) } : Queue).released d.tick from hmem)
    obtain ⟨hin, htag⟩ := List.mem_filter.mp hc0
    have hsame : c.tag = c0.tag ∧ c.done = c0.done ∧ c.started = c0.started := by
      rw [← hrel]
      split
      · exact ⟨rfl, rfl, rfl⟩
      · exact ⟨rfl, rfl, rfl⟩
    obtain ⟨h1, h2, h3⟩ := hsame
    exact ⟨by simpa [h1] using htag, c0, List.mem_filter.mpr ⟨hin, h2 ▸ hdone⟩, h1.symm, h3.symm⟩
  · rw [Dev.queue_setQueue_self] at hc
    obtain ⟨hmem, hdone⟩ := List.mem_filter.mp hc
    obtain ⟨c0, hc0, hmap⟩ := List.mem_map.mp (show c ∈ (d.queue qid).cmds.map (fun c => if c.tag == tag then { c with done := true } else c) from hmem)
    split at hmap
    · next htag =>
      rw [← hmap] at hdone
      simp at hdone
    · next htag =>
      subst hmap
      exact ⟨by simpa using htag, c0, List.mem_filter.mpr ⟨hc0, hdone⟩, rfl, rfl⟩

theorem Dev.live_completes (qid status : Nat) : ∀ (l : List Cmd) (d : Dev), ∀ c : Cmd, c ∈ ((l.foldl (fun d c => d.complete qid c.tag status 0) d).queue qid).live →
    (∀ x ∈ l, x.tag ≠ c.tag) ∧ ∃ c0 ∈ (d.queue qid).live, c0.tag = c.tag ∧ c0.started = c.started
  | [], d, c, hc => ⟨fun _ h => (nomatch h), c, hc, rfl, rfl⟩
  | x :: l, d, c, hc => by
    obtain ⟨hno, c1, hc1, htag, hst⟩ := Dev.live_completes qid status l (d.complete qid x.tag status 0) c hc
    obtain ⟨hne, c0, hc0, htag0, hst0⟩ := d.live_complete qid x.tag status 0 c1 hc1
    refine ⟨fun y hy => ?_, c0, hc0, htag0.trans htag, hst0.trans hst⟩
    rcases List.mem_cons.mp hy with rfl | hy
    · exact fun h => hne (htag.trans h.symm)
    · exact hno y hy

/-- The commands of a queue that have no unit dispatched end. -/
def Dev.endUnstarted (d : Dev) (q : Nat) : Dev := ((d.queue q).live.filter (fun c => !c.started)).foldl (fun d c => d.complete q c.tag stSliceFrozen 0) d

theorem Dev.endUnstarted_spec (d : Dev) (q : Nat) : d.Steady (d.endUnstarted q) ∧ (∀ c ∈ ((d.endUnstarted q).queue q).live, c.started = true) ∧
    ∀ k, k ≠ q → (d.endUnstarted q).queue k = d.queue k := by
  refine ⟨.foldl (fun e c => .complete e _ _ _ _) _ d, fun c hc => ?_, fun k hk => ?_⟩
  · obtain ⟨hno, c0, hc0, htag, hst⟩ := Dev.live_completes q stSliceFrozen _ d c hc
    by_contra hs
    have hs0 : c0.started = false := hst.trans (Bool.not_eq_true _ ▸ hs)
    exact hno c0 (List.mem_filter.mpr ⟨hc0, by simp [hs0]⟩) htag
  · exact List.foldlRecOn (motive := fun e : Dev => e.queue k = d.queue k) _ _ rfl (fun e he c _ => (e.queue_complete_other q _ _ _ hk).trans he)

theorem Dev.endUnstarted_foldl : ∀ (l : List Nat) (d : Dev), d.Steady (l.foldl (fun d q => d.endUnstarted q) d) ∧
    ∀ q, (q ∈ l ∨ ∀ c ∈ (d.queue q).live, c.started = true) → ∀ c ∈ ((l.foldl (fun d q => d.endUnstarted q) d).queue q).live, c.started = true
  | [], d => ⟨.refl d, fun _ h => h.resolve_left (fun h => nomatch h)⟩
  | a :: l, d => by
    obtain ⟨hs, hall, hother⟩ := d.endUnstarted_spec a
    obtain ⟨hs', hall'⟩ := Dev.endUnstarted_foldl l (d.endUnstarted a)
    refine ⟨hs.trans hs', fun q hq => hall' q ?_⟩
    by_cases hqa : q = a
    · exact .inr (hqa ▸ hall)
    · exact hq.imp (fun h => (List.mem_cons.mp h).resolve_left hqa) (fun h => by rw [hother q hqa]; exact h)

end

end Sys2Proof.Machine
end

section
/-! The rows of VSL_SL_CTL and VSL_SL_OP (R138 to R141, R149 to R159). -/

namespace Sys2Proof.Machine

-- In order, one declaration at a time: keeps the check within its memory limit.
set_option Elab.async false

section
variable {d e t : Dev}

/-- A device that a write to the slices' page has reached: slices, queues, contexts and registers as before. -/
structure Dev.AtSlices (d e : Dev) : Prop where
  reports : d.Reports e
  reg : ∀ o, e.reg o = d.reg o

theorem Dev.AtSlices.ssel (h : d.AtSlices e) : e.ssel = d.ssel := Dev.fld_congr (h.reg _) 9 0

theorem Dev.AtSlices.slice (h : d.AtSlices e) (k : Nat) : e.slice k = d.slice k := Dev.slice_of_reports h.reports k

theorem Dev.AtSlices.queue (h : d.AtSlices e) (q : Nat) : e.queue q = d.queue q := Dev.queue_of_reports h.reports q

theorem Dev.AtSlices.exporting (h : d.AtSlices e) (s : Nat) : e.exporting s = d.exporting s := by
  rw [Dev.exporting, Dev.exporting, Dev.flag_congr (h.reg _) 0, Dev.fld_congr (h.reg _) 13 4]

theorem Dev.Publishes.slices (h : d.Publishes t) : t.slices = d.slices := by
  obtain ⟨-, -, -, -, hs⟩ := h.twins
  exact hs

theorem Dev.Publishes.slice (h : d.Publishes t) (k : Nat) : t.slice k = d.slice k := Dev.slice_of_slices h.slices k

/-! ### Binding (R139, R140) -/

/-- What a write of VSL_SL_CTL does at the selected slice. -/
def slCtlEff (v : Word) (d : Dev) : Dev :=
  let s := d.ssel
  let x := d.slice s
  let qpMax := bits v 6 2
  let changes := bitAt v 1 != x.trumpEn || qpMax != x.qpMax
  if qpMax < 1 ∨ 16 < qpMax ∨ (changes ∧ x.st ≠ .unbound ∧ x.st ≠ .frozen) then d.recordErr 0x300 0x0103 s 0x104
  else
    let y := { x with trumpEn := bitAt v 1, qpMax := qpMax }
    if bitAt v 0 && !x.bound then
      let clash := d.slices.any (fun kv => kv.1 != s && kv.2.bound && kv.2.pasid == x.pasid)
      if x.st = .unbound ∧ 1 ≤ x.blks ∧ x.blks ≤ 2 ^ 40 ∧ 1 ≤ x.share ∧ x.share ≤ 1024 ∧ !clash ∧ (d.twinSlices.find s).isNone then
        ((d.setSlice s y).sliceTo s .active).sliceSums
      else d.recordErr 0x300 0x0101 s x.pasid
    else if !bitAt v 0 && x.bound then
      let segs := (List.range 32).any (fun n => d.flag (Reg.SEG_STS n) 0 && d.fld (Reg.SEG_CTL n) 13 4 == s)
      let qs := (queuesOf s).any (fun q => (d.queue q).en)
      if (x.st = .active ∨ x.st = .frozen) ∧ !segs ∧ !qs ∧ !d.exporting s then
        ((d.setSlice s y).sliceTo s .unbound).sliceSums
      else d.recordErr 0x300 0x0101 s x.pasid
    else (d.setKept s y).sliceSums

theorem slCtlWrite_effect (v : Word) (ho : d.isOpen 0x300) : ∃ e, d.AtSlices e ∧ (slCtlEff v e).Publishes (slCtlWrite v d) := by
  obtain ⟨e, hrep, hreg, -, hpub⟩ := regWrite_effect (eff := fun _ d => slCtlEff v d) (show slCtlWrite v d = regWrite d Reg.VSL_SL_CTL v _ from rfl) ho (by decide)
    (show regDef? Reg.VSL_SL_CTL = some _ from rfl)
  exact ⟨e, ⟨hrep, hreg⟩, hpub⟩

theorem Dev.slice_bindTo (d : Dev) (s : Nat) (y : Slice) (st : SliceSt) : (((d.setSlice s y).sliceTo s st).sliceSums).slice s = { y with st := st } := by
  rw [Dev.slice_of_slices (Dev.sliceSums_keeps _).1, Dev.slice_sliceTo_self, Dev.slice_setSlice_self]

theorem slCtlEff_binds (v : Word) (e : Dev) (h0 : bitAt v 0 = true) (hst : (e.slice e.ssel).st = .unbound) (hq1 : 1 ≤ bits v 6 2) (hq2 : bits v 6 2 ≤ 16)
    (hb1 : 1 ≤ (e.slice e.ssel).blks) (hb2 : (e.slice e.ssel).blks ≤ 2 ^ 40) (hs1 : 1 ≤ (e.slice e.ssel).share) (hs2 : (e.slice e.ssel).share ≤ 1024)
    (hclash : ∀ kv ∈ e.slices, kv.1 ≠ e.ssel → kv.2.bound = true → kv.2.pasid ≠ (e.slice e.ssel).pasid) (htwin : e.twinSlices.find e.ssel = none) :
    (slCtlEff v e).slice e.ssel = { e.slice e.ssel with st := .active, trumpEn := bitAt v 1, qpMax := bits v 6 2 } := by
  have hbound : (e.slice e.ssel).bound = false := by rw [Slice.bound, hst]; rfl
  unfold slCtlEff
  extract_lets s x qpMax changes y clash segs qs
  have hc : clash = false := by
    simp only [clash, List.any_eq_false, Bool.and_eq_true, bne_iff_ne, beq_iff_eq]
    rintro kv hkv ⟨⟨hne, hb⟩, hp⟩
    exact hclash kv hkv hne hb hp
  rw [if_neg (by rintro (h | h | h); exacts [absurd hq1 (by omega), absurd hq2 (by omega), h.2.1 hst]), if_pos (by simp [h0, x, s, hbound]),
    if_pos ⟨hst, hb1, hb2, hs1, hs2, by simp [hc], by simp [s, htwin]⟩]
  exact e.slice_bindTo s y .active

theorem slCtlEff_unbinds (v : Word) (e : Dev) (h0 : bitAt v 0 = false) (hst : (e.slice e.ssel).st = .active ∨ (e.slice e.ssel).st = .frozen)
    (hq : bits v 6 2 = (e.slice e.ssel).qpMax) (ht : bitAt v 1 = (e.slice e.ssel).trumpEn) (hq1 : 1 ≤ (e.slice e.ssel).qpMax) (hq2 : (e.slice e.ssel).qpMax ≤ 16)
    (hsegs : ∀ n < 32, e.segActive n = false) (hqs : ∀ q ∈ queuesOf e.ssel, (e.queue q).en = false) (hexp : e.exporting e.ssel = false) :
    (slCtlEff v e).slice e.ssel = { e.slice e.ssel with st := .unbound } := by
  have hbound : (e.slice e.ssel).bound = true := by
    rw [Slice.bound]
    rcases hst with h | h <;> rw [h] <;> rfl
  unfold slCtlEff
  extract_lets s x qpMax changes y clash segs qs
  have hch : changes = false := by simp [changes, qpMax, x, s, hq, ht]
  have hse : segs = false := by
    simp only [segs, List.any_eq_false, List.mem_range, Bool.and_eq_true]
    exact fun n hn h => absurd h.1 (by have := hsegs n hn; rw [Dev.segActive] at this; simp [this])
  have hqs' : qs = false := by
    simp only [qs, List.any_eq_false]
    exact fun q hq h => absurd h (by simp [hqs q hq])
  have hy : y = x := by simp only [y, qpMax, x, s, hq, ht]
  rw [if_neg (by rintro (h | h | h); exacts [absurd hq1 (by omega), absurd hq2 (by omega), absurd h.1 (by simp [hch])]), if_neg (by simp [h0]),
    if_pos (by simp [h0, x, s, hbound]), if_pos ⟨hst, by simp [hse], by simp [hqs'], by simp [s, hexp]⟩]
  rw [hy]
  exact e.slice_bindTo s x .unbound

/-! ### Operations (R138) -/

/-- The slice with its operation begun. -/
def Slice.begun (x : Slice) (op : Nat) (v : Word) : Slice := { x with opErr := false, op := op, policy := bits v 4 4 }

theorem slOp_effect (v : Word) (op : Nat) (states : List SliceSt) (ok : Dev → Nat → Bool) (body : Nat → Dev → Dev) (ho : d.isOpen 0x300)
    (hkey : bits v 31 16 = 0x5653) (hop : bits v 3 0 = op) (hbusy : (d.slice d.ssel).opBusy = false) (hst : states.contains (d.slice d.ssel).st = true)
    (hok : ∀ e, d.AtSlices e → ok e d.ssel = true) :
    ∃ e, d.AtSlices e ∧ (v &&& 0xFFE0 = 0 → (e.page 0x300).err = (d.page 0x300).err) ∧
      (body d.ssel (e.setSlice d.ssel ((d.slice d.ssel).begun op v))).Publishes (slOp v op states ok body d) := by
  have hrow : slOp v op states ok body d = regWrite d Reg.VSL_SL_OP v _ := if_neg (fun h => h.1 hop)
  obtain ⟨e, hrep, hreg, herr, hpub⟩ := regWrite_effect hrow ho (by decide) (show regDef? Reg.VSL_SL_OP = some _ from rfl)
  have hat : d.AtSlices e := ⟨hrep, hreg⟩
  refine ⟨e, hat, herr, ?_⟩
  dsimp only at hpub
  rw [hat.ssel, hat.slice, if_pos ⟨hkey, hop, hst, by simp [hbusy], hok e hat⟩] at hpub
  exact hpub

/-! ### Reset (R149 to R151) -/

theorem Dev.slice_sliceCut (d : Dev) (s : Nat) : ∃ n h, (d.sliceCut s).slice s =
    { d.slice s with sgen := ((d.slice s).sgen + 1) % 16, cutWaits := false, inflight := n, hdrmUsed := h } := by
  unfold Dev.sliceCut
  extract_lets x d1
  have h1 : d1.slice s = { x with sgen := (x.sgen + 1) % 16, cutWaits := false } := by
    rw [Dev.slice_setKept, if_pos rfl]
  have hstep : ∀ (e : Dev) q, e.Steady ((e.squash q (fun c => c.started || x.policy == 1)).discardUnfetched q) := fun e q =>
    (Dev.Steady.squash e q _).trans (.of_slices rfl)
  obtain ⟨n, h, hs⟩ := Dev.Steady.foldl hstep (queuesOf s) d1 s
  exact ⟨n, h, by rw [hs, h1]⟩

/-- What SLICE_RESET does once it has begun. -/
def Dev.resetBegins (s : Nat) (d : Dev) : Dev :=
  let waits := d.queueResetRuns s
  let d := (d.setSlice s { d.slice s with opBusy := true, cutWaits := waits }).sliceTo s .resetting
  if waits then d else d.sliceCut s

theorem Dev.resetBegins_cuts (d : Dev) (s : Nat) (hq : d.queueResetRuns s = false) : ((Dev.resetBegins s d).slice s).st = .resetting ∧
    ((Dev.resetBegins s d).slice s).opBusy = true ∧ ((Dev.resetBegins s d).slice s).cutWaits = false ∧
    ((Dev.resetBegins s d).slice s).sgen = ((d.slice s).sgen + 1) % 16 := by
  unfold Dev.resetBegins
  rw [hq]
  extract_lets waits x d1
  have h1 : d1.slice s = { d.slice s with opBusy := true, cutWaits := false, st := .resetting } := by
    rw [Dev.slice_sliceTo_self, Dev.slice_setSlice_self]
  rw [if_neg (by decide)]
  obtain ⟨n, h, hs⟩ := d1.slice_sliceCut s
  rw [hs, h1]
  exact ⟨rfl, rfl, rfl, rfl⟩

theorem Dev.resetBegins_waits (d : Dev) (s : Nat) (hq : d.queueResetRuns s = true) : ((Dev.resetBegins s d).slice s).st = .resetting ∧
    ((Dev.resetBegins s d).slice s).cutWaits = true ∧ ((Dev.resetBegins s d).slice s).sgen = (d.slice s).sgen := by
  unfold Dev.resetBegins
  rw [hq]
  extract_lets waits x d1
  have h1 : d1.slice s = { d.slice s with opBusy := true, cutWaits := true, st := .resetting } := by
    rw [Dev.slice_sliceTo_self, Dev.slice_setSlice_self]
  rw [if_pos rfl, h1]
  exact ⟨rfl, rfl, rfl⟩

/-! ### Freeze and thaw (R154) -/

/-- The tail of an enabled queue at the cut is kept. -/
def Dev.keepTail (d : Dev) (q : Nat) : Dev := if (d.queue q).en then d.setQueue q { d.queue q with cutTail := (d.queue q).sqTail } else d

theorem Dev.slices_keepTail (d : Dev) (q : Nat) : (d.keepTail q).slices = d.slices := by
  unfold Dev.keepTail
  split
  · rfl
  · rfl

/-- Every enabled queue of the slice has its tail at the cut kept. -/
def Dev.keepTails (d : Dev) (s : Nat) : Dev := (queuesOf s).foldl (fun (d : Dev) q => d.keepTail q) d

theorem Dev.slices_keepTails (d : Dev) (s : Nat) : (d.keepTails s).slices = d.slices := by
  unfold Dev.keepTails
  generalize queuesOf s = l
  induction l generalizing d with
  | nil => rfl
  | cons q l ih => exact (ih (d.keepTail q)).trans (d.slices_keepTail q)

/-- What SLICE_FREEZE does once it has begun. -/
def Dev.freezeBegins (s : Nat) (d : Dev) : Dev :=
  let d := (d.setSlice s { d.slice s with opBusy := true }).sliceTo s .freezing
  let d := d.keepTails s
  if (d.slice s).policy = 1 then (queuesOf s).foldl (fun d q => d.endUnstarted q) d else d

theorem Dev.freezeBegins_spec (d : Dev) (s : Nat) : ((Dev.freezeBegins s d).slice s).st = .freezing ∧ ((Dev.freezeBegins s d).slice s).opBusy = true ∧
    ((d.slice s).policy = 1 → ∀ q ∈ queuesOf s, ∀ c ∈ ((Dev.freezeBegins s d).queue q).live, c.started = true) := by
  unfold Dev.freezeBegins
  extract_lets x d1 d2
  have hd2 : d2 = d1.keepTails s := rfl
  have h1 : d1.slice s = { d.slice s with opBusy := true, st := .freezing } := by
    rw [Dev.slice_sliceTo_self, Dev.slice_setSlice_self]
  clear_value d2 d1
  have h2 : d2.slices = d1.slices := hd2 ▸ d1.slices_keepTails s
  have hs : d2.slice s = { d.slice s with opBusy := true, st := .freezing } := (Dev.slice_of_slices h2 s).trans h1
  obtain ⟨hsteady, hall⟩ := Dev.endUnstarted_foldl (queuesOf s) d2
  split
  · obtain ⟨n, h, hk⟩ := hsteady s
    rw [hk, hs]
    exact ⟨rfl, rfl, fun _ q hq => hall q (.inl hq)⟩
  · next hp =>
    rw [hs] at hp ⊢
    exact ⟨rfl, rfl, fun h => absurd h hp⟩

theorem Dev.thaw_spec (d : Dev) {s : Nat} (hs : s < 1024) : (((d.setFlag (Reg.TWN_MOVED (s / 32)) (s % 32) false).sliceTo s .active).opDone s).slice s =
      { d.slice s with st := .active, opBusy := false } ∧
    (((d.setFlag (Reg.TWN_MOVED (s / 32)) (s % 32) false).sliceTo s .active).opDone s).flag (Reg.TWN_MOVED (s / 32)) (s % 32) = false := by
  have hflag : (d.setFlag (Reg.TWN_MOVED (s / 32)) (s % 32) false).flag (Reg.TWN_MOVED (s / 32)) (s % 32) = false := Dev.flag_setFlag_self d _ _ _ (Nat.mod_lt _ (by decide))
  have hslice : (d.setFlag (Reg.TWN_MOVED (s / 32)) (s % 32) false).slice s = d.slice s := rfl
  generalize d.setFlag (Reg.TWN_MOVED (s / 32)) (s % 32) false = e at hflag hslice
  have hoff : Reg.TWN_MOVED (s / 32) ∉ messageRegs ∧ Reg.TWN_MOVED (s / 32) ∉ reportRegs := by
    simp only [messageRegs, reportRegs, List.mem_cons, List.not_mem_nil, or_false, Reg.TWN_MOVED, Reg.TWN_TX_INV, Reg.TWN_MIR_PEND, Reg.PWR_MODE_STS, Reg.GLB_DEV_STS,
      Reg.PWR_BIAS_NOW, Reg.SCP_CAP_STS, Reg.SCP_INC_STS]
    omega
  have hto : (e.sliceTo s .active).reg (Reg.TWN_MOVED (s / 32)) = e.reg (Reg.TWN_MOVED (s / 32)) := by
    unfold Dev.sliceTo Dev.keepSlice Dev.journal
    split
    · rfl
    · split
      · exact (Dev.Messages.sendGulon _ _ _).regs _ hoff.1
      · rfl
  have hsl : (e.sliceTo s .active).slice s = { d.slice s with st := .active } := by rw [Dev.slice_sliceTo_self, hslice]
  generalize e.sliceTo s .active = e2 at hto hsl
  refine ⟨?_, ?_⟩
  · rw [Dev.slice_opDone, if_pos rfl, hsl]
  · have hdone : (e2.opDone s).reg (Reg.TWN_MOVED (s / 32)) = e2.reg (Reg.TWN_MOVED (s / 32)) :=
      (Dev.Reports.raise (e2.setSlice s { e2.slice s with opBusy := false }) 0x300 0).regs _ hoff.2
    exact (Dev.flag_congr (hdone.trans hto) _).trans hflag

/-! ### Save (R156, R157) -/

theorem length_toWords (n : Nat) : ∀ x, (toWords x n).length = n := by
  induction n with
  | zero => exact fun _ => rfl
  | succ n ih => exact fun x => congrArg (· + 1) (ih (x / 2 ^ 32))

theorem Dev.saveGo_spec (d : Dev) (s : Nat) {h : Nat} (hh : d.mgrHead = some h) : (d.saveGo s).slice s = { d.slice s with opBusy := false } ∧
    ∃ ws, ws.length = 512 ∧ d.tells (d.saveGo s) (.blob h (d.slice s).blob ws) := by
  have hbody : d.saveGo s = (d.emit (.blob h (d.slice s).blob (toWords (d.blobOf s) 512))).opDone s := by
    unfold Dev.saveGo
    rw [hh]
  obtain ⟨e, he⟩ : ∃ e, e = d.emit (.blob h (d.slice s).blob (toWords (d.blobOf s) 512)) := ⟨_, rfl⟩
  have hs : e.slice s = d.slice s := by
    rw [he]
    rfl
  have hout : e.out = d.out ++ [.blob h (d.slice s).blob (toWords (d.blobOf s) 512)] := by
    rw [he]
    rfl
  rw [hbody, ← he]
  clear he hbody
  refine ⟨by rw [Dev.slice_opDone, if_pos rfl, hs], toWords (d.blobOf s) 512, length_toWords 512 _, ?_⟩
  have htell : d.tells e (.blob h (d.slice s).blob (toWords (d.blobOf s) 512)) := by
    rw [Dev.tells, hout, List.drop_left]
    exact List.mem_singleton.mpr rfl
  exact Dev.tells_within List.prefix_rfl htell (Dev.Reports.raise (e.setSlice s { e.slice s with opBusy := false }) 0x300 0).out

/-- A failed operation of a slice: recorded with its cause, and over. -/
theorem Dev.opFails_spec (d : Dev) (s n : Nat) (herr : (d.page 0x300).err = false) :
    (((d.setSlice s { d.slice s with opErr := true }).recordErr 0x300 0x0102 s n).opDone s).slice s = { d.slice s with opErr := true, opBusy := false } ∧
    ((((d.setSlice s { d.slice s with opErr := true }).recordErr 0x300 0x0102 s n).opDone s).page 0x300).errCode = 0x0102 ∧
    ((((d.setSlice s { d.slice s with opErr := true }).recordErr 0x300 0x0102 s n).opDone s).page 0x300).info1 = w32 n := by
  obtain ⟨e, he⟩ : ∃ e, e = d.setSlice s { d.slice s with opErr := true } := ⟨_, rfl⟩
  have hs : e.slice s = { d.slice s with opErr := true } := by rw [he, Dev.slice_setSlice_self]
  have herr1 : (e.page 0x300).err = false := by
    rw [he]
    exact herr
  rw [← he]
  clear he
  have hfirst := Dev.page_recordErr_first e 0x300 0x0102 s n herr1
  have hs2 : (e.recordErr 0x300 0x0102 s n).slice s = { d.slice s with opErr := true } := (Dev.slice_of_reports (Dev.Reports.recordErr e _ _ _ _) s).trans hs
  generalize e.recordErr 0x300 0x0102 s n = e2 at hfirst hs2
  have hlater := (Dev.Reports.raise (e2.setSlice s { e2.slice s with opBusy := false }) 0x300 0).page 0x300
  obtain ⟨-, hcode, -, hinfo⟩ := hlater.1 (congrArg (·.err) hfirst)
  exact ⟨by rw [Dev.slice_opDone, if_pos rfl, hs2], hcode.trans (congrArg (·.errCode) hfirst), hinfo.trans (congrArg (·.info1) hfirst)⟩

end

end Sys2Proof.Machine
end

section
/-! Restore and clear of a slice, and what the rows of its operations do (R156 to R160). -/

namespace Sys2Proof.Machine

-- In order, one declaration at a time: keeps the check within its memory limit.
set_option Elab.async false

section
variable {d e t : Dev}

/-! ### Slices that stay as they are, but for their commands and their operation -/

def Dev.Likewise (d t : Dev) : Prop := ∀ k, (t.slice k).Alike (d.slice k)

theorem Dev.Likewise.of_slices (h : t.slices = d.slices) : d.Likewise t := fun k => by
  rw [Dev.slice_of_slices h k]
  exact .refl _

theorem Dev.Likewise.trans (h : d.Likewise e) (h' : e.Likewise t) : d.Likewise t := fun k => (h' k).trans (h k)

theorem Dev.Likewise.ite {c : Prop} [Decidable c] (h : d.Likewise e) (h' : d.Likewise t) : d.Likewise (if c then e else t) := by
  split
  · exact h
  · exact h'

theorem Dev.Likewise.foldl {α : Type} {f : Dev → α → Dev} (h : ∀ (e : Dev) x, e.Likewise (f e x)) (l : List α) (d : Dev) : d.Likewise (l.foldl f d) :=
  List.foldlRecOn (motive := fun e : Dev => d.Likewise e) l f (.of_slices rfl) (fun e he x _ => he.trans (h e x))

theorem Dev.Likewise.journal (d : Dev) (b : JBatch) : d.Likewise (d.journal b) := (Dev.Settles.journal d b).slice

theorem Dev.Likewise.ctxDrop (d : Dev) (c : Nat) : d.Likewise (d.ctxDrop c) :=
  (Dev.Likewise.of_slices rfl : d.Likewise { d with ctxPend := d.ctxPend.filter (fun x => x.ctx != c) }).trans
    (.foldl (fun e x => (Dev.Settles.ctxOver e x).slice) _ _)

theorem Dev.Likewise.keepCopy (d : Dev) (c : Nat) (x : CtxCopy) : d.Likewise (d.keepCopy c x) := by
  unfold Dev.keepCopy
  exact (Dev.Likewise.journal d _).trans (.of_slices rfl)

/-! ### Restore (R158, R159) -/

/-- The slice that a blob holds, as it is applied. -/
def blobSlice (x : Slice) (plain blob : Nat) : Slice :=
  let f (o n : Nat) := leBytes plain o n
  { x with
    pasid := f 0 4 % 2 ^ 20, blks := f 4 8 % 2 ^ 41, blksStage := none, blksPend := none,
    share := f 0xC 4 % 2 ^ 11, tshare := f 0xC 4 / 2 ^ 16 % 2 ^ 7, shareAct := f 0xC 4 % 2 ^ 11,
    tshareAct := f 0xC 4 / 2 ^ 16 % 2 ^ 7, pendShare := false, trumpEn := (f 0x10 4).testBit 0,
    qpMax := f 0x10 4 / 2 % 2 ^ 5, pin := f 0x14 4 % 2 ^ 21, hdrm := f 0x18 4 % 2 ^ 24,
    sgen := leBytes blob 0x22 1 % 16, saveseq := (x.saveseq + 1) % 2 ^ 64 }

/-- One of a blob's key records goes to its context's copy and waits for the twin's. -/
def Dev.blobCtx (s plain : Nat) (d : Dev) (k : Nat) : Dev :=
  let c := 4 * s + k
  let d := d.ctxDrop c
  let y := restoredCtx (d.ctxCopy c) ((blobKeys plain).getD k 0)
  { d.keepCtx c y with ctxPend := d.ctxPend ++ [{ ctx := c, new := y, kind := .blob, mnum := d.gTx }] }

theorem Dev.Likewise.blobCtx (s plain : Nat) (d : Dev) (k : Nat) : d.Likewise (Dev.blobCtx s plain d k) := by
  unfold Dev.blobCtx
  extract_lets c d1 y
  have h1 : d.Likewise d1 := .ctxDrop d c
  have hpend : ∀ (e : Dev) (l : List CtxChg), e.Likewise { e with ctxPend := l } := fun _ _ => .of_slices rfl
  exact (h1.trans (.keepCopy d1 _ _)).trans (hpend _ _)

/-- A blob's queue context goes into the slice's queue. -/
def Dev.blobQueue (s plain : Nat) (d : Dev) (p : Nat) : Dev :=
  let f (o n : Nat) := leBytes plain o n
  let b := 0x40 + 0x40 * p
  let ctl := f b 4
  d.setQueue (16 * s + p) { Queue.reset (16 * s + p) with
    en := ctl.testBit 0, ien := ctl.testBit 1, coalN := ctl / 4 % 64, coalUs := ctl / 2 ^ 8 % 256,
    vector := ctl / 2 ^ 16 % 2 ^ 11, sqb := f (b + 4) 8, cqb := f (b + 12) 8, sqHead := f (b + 20) 2,
    sqTail := f (b + 22) 2, cqPosted := f (b + 24) 2, cqHead := f (b + 26) 2, qgen := f (b + 28) 1 % 16 }

theorem Dev.slices_blobQueue (s plain : Nat) (d : Dev) (p : Nat) : (Dev.blobQueue s plain d p).slices = d.slices := rfl

/-- An accepted blob applied, in its steps. -/
def Dev.blobApplied (d : Dev) (s blob : Nat) : Dev :=
  let plain := blobText s blob
  let hb := leBytes plain 0x1C 1 % 32
  let d := (d.setSlice s (blobSlice (d.slice s) plain blob)).sliceTo s .frozen
  let d := if d.headFit hb = hb then d else d.recordErr 0x102 0x0105 s hb
  let d := d.setFld (Reg.HIF_SLICE_HEAD (s / 4)) (8 * (s % 4) + 7) (8 * (s % 4)) (d.headFit hb)
  let d := (List.range 16).foldl (fun d p => Dev.blobQueue s plain d p) d
  let ks := [0, 1, 2, 3].filter (fun k => (d.ctx (4 * s + k)).st != .zeroising)
  let d := (d.setSlice s { d.slice s with opBusy := true }).sliceSums
  if ks.isEmpty then d.opDone s
  else
    let d := ks.foldl (fun d k => Dev.blobCtx s plain d k) d
    if d.paired then d else d.ctxReady (fun x => x.kind == .blob && x.ctx / 4 == s)

theorem Dev.applyBlob_eq (d : Dev) (s blob : Nat) : d.applyBlob s blob = d.blobApplied s blob := rfl

theorem Dev.applyBlob_alike (d : Dev) (s blob : Nat) :
    ((d.applyBlob s blob).slice s).Alike { blobSlice (d.slice s) (blobText s blob) blob with st := .frozen } := by
  rw [Dev.applyBlob_eq]
  unfold Dev.blobApplied
  extract_lets plain hb d1 d2 d3 d4 ks x d5 d6
  have h1 : d1.slice s = { blobSlice (d.slice s) plain blob with st := .frozen } := by
    rw [Dev.slice_sliceTo_self, Dev.slice_setSlice_self]
  rw [← h1]
  clear_value d1
  have h2 : d1.Likewise d2 := .ite (.of_slices rfl) (.of_slices (Dev.slices_of_reports (Dev.Reports.recordErr d1 _ _ _ _)))
  clear_value d2
  have h3 : d2.Likewise d3 := .of_slices rfl
  have h4 : d3.Likewise d4 := .of_slices (Dev.slices_foldl (Dev.slices_blobQueue s plain) _ d3)
  clear_value d4
  have hbusy : d4.Likewise (d4.setSlice s { d4.slice s with opBusy := true }) := (Dev.Settles.setSlice d4 (.of _ _ _ _)).slice
  have h5 : d4.Likewise d5 := Dev.Likewise.trans hbusy (.of_slices (Dev.sliceSums_keeps _).1)
  clear_value d5
  have h6 : d5.Likewise d6 := .foldl (fun e k => .blobCtx s plain e k) _ _
  clear_value d6
  exact (((h2.trans h3).trans h4).trans h5).trans (.ite (Dev.Settles.opDone d5 s).slice (h6.trans (.ite (.of_slices rfl) (Dev.Settles.ctxReady d6 _).slice))) s

theorem Dev.applyBlob_fields (d : Dev) (s blob : Nat) : ((d.applyBlob s blob).slice s).st = .frozen ∧
    ((d.applyBlob s blob).slice s).saveseq = ((d.slice s).saveseq + 1) % 2 ^ 64 ∧
    ((d.applyBlob s blob).slice s).pasid = leBytes (blobText s blob) 0 4 % 2 ^ 20 ∧
    ((d.applyBlob s blob).slice s).blks = leBytes (blobText s blob) 4 8 % 2 ^ 41 ∧
    ((d.applyBlob s blob).slice s).sgen = leBytes blob 0x22 1 % 16 := by
  have h := d.applyBlob_alike s blob
  generalize (d.applyBlob s blob).slice s = y at h ⊢
  unfold Slice.Alike at h
  rw [h]
  exact ⟨rfl, rfl, rfl, rfl, rfl⟩

/-! ### Clear (R160) -/

/-- A context of a slice that is cleared is zeroised if it holds a key, or is to. -/
def Dev.clearCtx (s : Nat) (d : Dev) (k : Nat) : Dev :=
  if (d.ctx (4 * s + k)).st = .valid || d.ctxPend.any (fun x => x.ctx == 4 * s + k) then d.startZeroise (4 * s + k) else d

theorem Dev.clearCtx_zeroises (s : Nat) (d : Dev) (k : Nat) (h : (d.ctx (4 * s + k)).st = .valid ∨ (d.ctx (4 * s + k)).st = .zeroising) :
    ((Dev.clearCtx s d k).ctx (4 * s + k)).st = .zeroising := by
  unfold Dev.clearCtx
  split
  · exact (d.startZeroise_spec _).1
  · next hn => exact h.resolve_left (fun hv => hn (by simp [hv]))

theorem Dev.clearCtx_other (s : Nat) (d : Dev) {j k : Nat} (h : k ≠ j) : (Dev.clearCtx s d j).ctx (4 * s + k) = d.ctx (4 * s + k) := by
  unfold Dev.clearCtx
  split
  · exact (d.startZeroise_spec _).2.2 _ (by omega)
  · rfl

theorem Dev.clearCtx_foldl (s : Nat) {k : Nat} : ∀ (l : List Nat) (d : Dev),
    (d.ctx (4 * s + k)).st = .zeroising ∨ (d.ctx (4 * s + k)).st = .valid ∧ k ∈ l →
    ((l.foldl (fun d j => Dev.clearCtx s d j) d).ctx (4 * s + k)).st = .zeroising
  | [], d, h => h.resolve_right (fun h => nomatch h.2)
  | j :: l, d, h => by
    rw [List.foldl_cons]
    refine Dev.clearCtx_foldl s l _ ?_
    by_cases hk : k = j
    · subst hk
      exact .inl (d.clearCtx_zeroises s k (h.elim .inr (fun h => .inl h.1)))
    · rw [d.clearCtx_other s hk]
      exact h.imp_right (fun h => ⟨h.1, (List.mem_cons.mp h.2).resolve_left hk⟩)

/-- What SLICE_CLEAR does once it has begun. -/
def Dev.clearBegins (s : Nat) (d : Dev) : Dev :=
  let d := [0, 1, 2, 3].foldl (fun d k => Dev.clearCtx s d k) d
  (d.setSlice s { d.slice s with opBusy := true }).sliceTo s .clearing

theorem Dev.ctxs_sliceTo (d : Dev) (s : Nat) (st : SliceSt) : (d.sliceTo s st).ctxs = d.ctxs := by
  unfold Dev.sliceTo Dev.keepSlice Dev.journal
  split
  · rfl
  · split
    · exact congrArg (·.ctxs) (Dev.Messages.sendGulon _ _ _).kept
    · rfl

theorem Dev.clearBegins_spec (d : Dev) (s : Nat) : ((Dev.clearBegins s d).slice s).st = .clearing ∧ ((Dev.clearBegins s d).slice s).opBusy = true ∧
    ∀ k < 4, (d.ctx (4 * s + k)).st = .valid → ((Dev.clearBegins s d).ctx (4 * s + k)).st = .zeroising := by
  unfold Dev.clearBegins
  extract_lets d1 x
  have h1 : ∀ k < 4, (d.ctx (4 * s + k)).st = .valid → (d1.ctx (4 * s + k)).st = .zeroising := fun k hk hv =>
    Dev.clearCtx_foldl s [0, 1, 2, 3] d (.inr ⟨hv, by simp; omega⟩)
  clear_value d1
  have h2 : ((d1.setSlice s { x with opBusy := true }).sliceTo s .clearing).slice s = { x with opBusy := true, st := .clearing } := by
    rw [Dev.slice_sliceTo_self, Dev.slice_setSlice_self]
  have h3 : ∀ c, ((d1.setSlice s { x with opBusy := true }).sliceTo s .clearing).ctx c = d1.ctx c := fun c => by
    have := (d1.setSlice s { x with opBusy := true }).ctxs_sliceTo s .clearing
    rw [Dev.ctx, this]
    rfl
  rw [h2]
  exact ⟨rfl, rfl, fun k hk hv => by rw [h3]; exact h1 k hk hv⟩

/-! ### Each operation's write -/

theorem Dev.mgrHead_setSlice (d : Dev) (s : Nat) (x : Slice) : (d.setSlice s x).mgrHead = d.mgrHead := rfl

theorem Dev.ssel_lt (d : Dev) : d.ssel < 1024 := Nat.mod_lt _ (by decide)

theorem Dev.AtSlices.mgrHead (h : d.AtSlices e) : e.mgrHead = d.mgrHead := by
  have hf : ∀ k, (e.headUp k && e.flag Reg.HIF_HEAD_CTL k) = (d.headUp k && d.flag Reg.HIF_HEAD_CTL k) := fun k => by
    rw [Dev.headUp_congr (fun j _ => h.reg (Reg.HIF_LINK_STS j)), Dev.flag_congr (h.reg _)]
  simp only [Dev.mgrHead, hf]

theorem Dev.blobFault_congr {s blob : Nat} {nvmOk : Bool} (h : (t.slice s).saveseq = (d.slice s).saveseq) : t.blobFault s blob nvmOk = d.blobFault s blob nvmOk := by
  unfold Dev.blobFault
  rw [h]

theorem Dev.blobFault_begun {blob : Nat} {nvmOk : Bool} (op : Nat) (v : Word) :
    (e.setSlice d.ssel ((d.slice d.ssel).begun op v)).blobFault d.ssel blob nvmOk = d.blobFault d.ssel blob nvmOk :=
  Dev.blobFault_congr (by rw [Dev.slice_setSlice_self]; rfl)

theorem Dev.AtSlices.ctx (h : d.AtSlices e) (c : Nat) : e.ctx c = d.ctx c := by
  have hk : e.ctxs = d.ctxs := congrArg (·.ctxs) h.reports.kept
  rw [Dev.ctx, hk, Dev.ctx]

/-- What SLICE_SAVE does once it has begun. -/
def Dev.saveBegins (nvmOk : Bool) (s : Nat) (d : Dev) : Dev :=
  if nvmOk then (d.setSlice s { d.slice s with opBusy := true, saveseq := ((d.slice s).saveseq + 1) % 2 ^ 64 }).saveGo s
  else ((d.setSlice s { d.slice s with opErr := true }).recordErr 0x300 0x0102 s 7).opDone s

theorem Dev.saveBegins_saves (d : Dev) (s : Nat) {h : Nat} (hh : d.mgrHead = some h) :
    (Dev.saveBegins true s d).slice s = { d.slice s with opBusy := false, saveseq := ((d.slice s).saveseq + 1) % 2 ^ 64 } ∧
    ∃ ws, ws.length = 512 ∧ d.tells (Dev.saveBegins true s d) (.blob h (d.slice s).blob ws) := by
  obtain ⟨y, hy⟩ : ∃ y, y = { d.slice s with opBusy := true, saveseq := ((d.slice s).saveseq + 1) % 2 ^ 64 } := ⟨_, rfl⟩
  have hbody : Dev.saveBegins true s d = (d.setSlice s y).saveGo s := by rw [hy]; rfl
  obtain ⟨h1, ws, hlen, htell⟩ := (d.setSlice s y).saveGo_spec s ((d.mgrHead_setSlice s y).trans hh)
  rw [Dev.slice_setSlice_self] at h1 htell
  rw [hbody]
  subst hy
  exact ⟨h1, ws, hlen, htell⟩

/-- What SLICE_RESTORE does once it has begun. -/
def Dev.restoreBegins (blob : Nat) (nvmOk : Bool) (s : Nat) (d : Dev) : Dev :=
  match d.blobFault s blob nvmOk with
  | some n => ((d.setSlice s { d.slice s with opErr := true }).recordErr 0x300 0x0102 s n).opDone s
  | none => d.applyBlob s blob

theorem Dev.restoreBegins_applies {s blob : Nat} {nvmOk : Bool} (h : d.blobFault s blob nvmOk = none) : Dev.restoreBegins blob nvmOk s d = d.applyBlob s blob := by
  unfold Dev.restoreBegins
  rw [h]

theorem Dev.restoreBegins_fails {s blob n : Nat} {nvmOk : Bool} (h : d.blobFault s blob nvmOk = some n) :
    Dev.restoreBegins blob nvmOk s d = ((d.setSlice s { d.slice s with opErr := true }).recordErr 0x300 0x0102 s n).opDone s := by
  unfold Dev.restoreBegins
  rw [h]

/-- An operation that fails once it has begun, as it is seen after the write. -/
theorem Dev.opFails_published (e : Dev) (k n : Nat) (x : Slice) (herr : (e.page 0x300).err = false)
    (hpub : (((e.setSlice k x).setSlice k { (e.setSlice k x).slice k with opErr := true }).recordErr 0x300 0x0102 k n |>.opDone k).Publishes t) :
    t.slice k = { x with opErr := true, opBusy := false } ∧ (t.page 0x300).errCode = 0x0102 ∧ (t.page 0x300).info1 = w32 n := by
  obtain ⟨h1, h2, h3⟩ := Dev.opFails_spec (e.setSlice k x) k n herr
  obtain ⟨-, hcode, -, hi1⟩ := Page.err_of_body (hpub.body 0x300)
  rw [← hpub.slice, Dev.slice_setSlice_self] at h1
  exact ⟨h1, hcode.trans h2, hi1.trans h3⟩

section
variable (s : State) (v : Word) (hrun : s.running) (ho : s.dev.isOpen 0x300)
include hrun ho

theorem sliceBind_spec (h0 : bitAt v 0 = true) (hst : (s.dev.slice s.dev.ssel).st = .unbound) (hq1 : 1 ≤ bits v 6 2) (hq2 : bits v 6 2 ≤ 16)
    (hb1 : 1 ≤ (s.dev.slice s.dev.ssel).blks) (hb2 : (s.dev.slice s.dev.ssel).blks ≤ 2 ^ 40) (hs1 : 1 ≤ (s.dev.slice s.dev.ssel).share)
    (hs2 : (s.dev.slice s.dev.ssel).share ≤ 1024)
    (hclash : ∀ kv ∈ s.dev.slices, kv.1 ≠ s.dev.ssel → kv.2.bound = true → kv.2.pasid ≠ (s.dev.slice s.dev.ssel).pasid)
    (htwin : s.dev.twinSlices.find s.dev.ssel = none) :
    ∃ t, exec (.sliceBind v) s = .next t ∧
      t.dev.slice s.dev.ssel = { s.dev.slice s.dev.ssel with st := .active, trumpEn := bitAt v 1, qpMax := bits v 6 2 } := by
  obtain ⟨e, hat, hpub⟩ := slCtlWrite_effect v ho
  have hdo : doSliceBind v s.dev = slCtlWrite v s.dev := if_pos h0
  have heff := slCtlEff_binds v e h0
  rw [hat.ssel, hat.slice, Dev.slices_of_reports hat.reports, show e.twinSlices = s.dev.twinSlices from congrArg (·.twinSlices) hat.reports.kept] at heff
  refine ⟨_, act_of_running s (doSliceBind v) hrun, ?_⟩
  show (doSliceBind v s.dev).slice _ = _
  rw [hdo, hpub.slice]
  exact heff hst hq1 hq2 hb1 hb2 hs1 hs2 hclash htwin

theorem sliceUnbind_spec (h0 : bitAt v 0 = false) (hst : (s.dev.slice s.dev.ssel).st ∈ [SliceSt.active, .frozen])
    (hq : bits v 6 2 = (s.dev.slice s.dev.ssel).qpMax) (ht : bitAt v 1 = (s.dev.slice s.dev.ssel).trumpEn) (hq1 : 1 ≤ (s.dev.slice s.dev.ssel).qpMax)
    (hq2 : (s.dev.slice s.dev.ssel).qpMax ≤ 16) (hsegs : ∀ n < 32, s.dev.segActive n = false) (hqs : ∀ q ∈ queuesOf s.dev.ssel, (s.dev.queue q).en = false)
    (hexp : s.dev.exporting s.dev.ssel = false) :
    ∃ t, exec (.sliceUnbind v) s = .next t ∧ t.dev.slice s.dev.ssel = { s.dev.slice s.dev.ssel with st := .unbound } := by
  obtain ⟨e, hat, hpub⟩ := slCtlWrite_effect v ho
  have hdo : doSliceUnbind v s.dev = slCtlWrite v s.dev := if_neg (by simp [h0])
  have heff := slCtlEff_unbinds v e h0
  have hseg : ∀ n < 32, e.segActive n = false := fun n hn => (Dev.flag_congr (hat.reg _) 0).trans (hsegs n hn)
  simp only [hat.ssel, hat.slice, hat.queue, hat.exporting] at heff
  refine ⟨_, act_of_running s (doSliceUnbind v) hrun, ?_⟩
  show (doSliceUnbind v s.dev).slice _ = _
  rw [hdo, hpub.slice]
  exact heff (by simpa using hst) hq ht hq1 hq2 hseg hqs hexp

variable (hkey : bits v 31 16 = 0x5653) (hbusy : (s.dev.slice s.dev.ssel).opBusy = false)
include hkey hbusy

theorem sliceReset_spec (hop : bits v 3 0 = 1) (hst : (s.dev.slice s.dev.ssel).st ∈ [SliceSt.active, .frozen]) :
    ∃ e t, exec (.sliceReset v) s = .next t ∧ s.dev.AtSlices e ∧
      (Dev.resetBegins s.dev.ssel (e.setSlice s.dev.ssel ((s.dev.slice s.dev.ssel).begun 1 v))).Publishes t.dev := by
  obtain ⟨e, hat, -, hpub⟩ := slOp_effect v 1 [.active, .frozen] (fun _ _ => true) Dev.resetBegins ho hkey hop hbusy (List.contains_iff_mem.mpr hst) (fun _ _ => rfl)
  exact ⟨e, _, act_of_running s (doSliceReset v) hrun, hat, hpub⟩

omit hrun ho hkey hbusy in
theorem queueResetRuns_begun {d e : Dev} (hat : d.AtSlices e) (k : Nat) (x : Slice) : (e.setSlice k x).queueResetRuns k = d.queueResetRuns k := by
  have h : ∀ q, (e.setSlice k x).queue q = d.queue q := fun q => hat.queue q
  simp only [Dev.queueResetRuns, h]

theorem sliceReset_cuts (hop : bits v 3 0 = 1) (hst : (s.dev.slice s.dev.ssel).st ∈ [SliceSt.active, .frozen]) (hq : s.dev.queueResetRuns s.dev.ssel = false) :
    ∃ t, exec (.sliceReset v) s = .next t ∧ (t.dev.slice s.dev.ssel).st = .resetting ∧ (t.dev.slice s.dev.ssel).opBusy = true ∧
      (t.dev.slice s.dev.ssel).cutWaits = false ∧ (t.dev.slice s.dev.ssel).sgen = ((s.dev.slice s.dev.ssel).sgen + 1) % 16 := by
  obtain ⟨e, t, ht, hat, hpub⟩ := sliceReset_spec s v hrun ho hkey hbusy hop hst
  have h := Dev.resetBegins_cuts _ _ ((queueResetRuns_begun hat _ ((s.dev.slice s.dev.ssel).begun 1 v)).trans hq)
  rw [← hpub.slice, Dev.slice_setSlice_self] at h
  exact ⟨t, ht, h⟩

theorem sliceReset_waits (hop : bits v 3 0 = 1) (hst : (s.dev.slice s.dev.ssel).st = .active) (hq : s.dev.queueResetRuns s.dev.ssel = true) :
    ∃ t, exec (.sliceReset v) s = .next t ∧ (t.dev.slice s.dev.ssel).st = .resetting ∧ (t.dev.slice s.dev.ssel).cutWaits = true ∧
      (t.dev.slice s.dev.ssel).sgen = (s.dev.slice s.dev.ssel).sgen := by
  obtain ⟨e, t, ht, hat, hpub⟩ := sliceReset_spec s v hrun ho hkey hbusy hop (by simp [hst])
  have h := Dev.resetBegins_waits _ _ ((queueResetRuns_begun hat _ ((s.dev.slice s.dev.ssel).begun 1 v)).trans hq)
  rw [← hpub.slice, Dev.slice_setSlice_self] at h
  exact ⟨t, ht, h⟩

theorem sliceFreeze_spec (hop : bits v 3 0 = 2) (hst : (s.dev.slice s.dev.ssel).st = .active) :
    ∃ t, exec (.sliceFreeze v) s = .next t ∧ (t.dev.slice s.dev.ssel).st = .freezing ∧ (t.dev.slice s.dev.ssel).opBusy = true ∧
      (bits v 4 4 = 1 → ∀ q ∈ queuesOf s.dev.ssel, ∀ c ∈ (t.dev.queue q).live, c.started = true) := by
  obtain ⟨e, hat, -, hpub⟩ := slOp_effect v 2 [.active] (fun _ _ => true) Dev.freezeBegins ho hkey hop hbusy (by rw [hst]; rfl) (fun _ _ => rfl)
  obtain ⟨h1, h2, h3⟩ := Dev.freezeBegins_spec (e.setSlice s.dev.ssel ((s.dev.slice s.dev.ssel).begun 2 v)) s.dev.ssel
  rw [Dev.slice_setSlice_self] at h3
  rw [← hpub.slice] at h1 h2
  exact ⟨_, act_of_running s (doSliceFreeze v) hrun, h1, h2, fun hp q hq c hc => h3 hp q hq c (by rw [← hpub.queue]; exact hc)⟩

theorem sliceThaw_spec (hop : bits v 3 0 = 3) (hst : (s.dev.slice s.dev.ssel).st = .frozen) :
    ∃ t, exec (.sliceThaw v) s = .next t ∧ (t.dev.slice s.dev.ssel).st = .active ∧ (t.dev.slice s.dev.ssel).opBusy = false ∧
      t.dev.flag (Reg.TWN_MOVED (s.dev.ssel / 32)) (s.dev.ssel % 32) = false := by
  obtain ⟨e, hat, -, hpub⟩ := slOp_effect v 3 [.frozen] (fun _ _ => true)
    (fun k d => ((d.setFlag (Reg.TWN_MOVED (k / 32)) (k % 32) false).sliceTo k .active).opDone k) ho hkey hop hbusy (by rw [hst]; rfl) (fun _ _ => rfl)
  obtain ⟨h1, h2⟩ := Dev.thaw_spec (e.setSlice s.dev.ssel ((s.dev.slice s.dev.ssel).begun 3 v)) (s := s.dev.ssel) s.dev.ssel_lt
  rw [← hpub.slice] at h1
  rw [← hpub.flag] at h2
  exact ⟨_, act_of_running s (doSliceThaw v) hrun, congrArg (·.st) h1, congrArg (·.opBusy) h1, h2⟩

theorem sliceSave_saves (hop : bits v 3 0 = 4) (hst : (s.dev.slice s.dev.ssel).st = .frozen) {h : Nat} (hh : s.dev.mgrHead = some h) :
    ∃ t, exec (.sliceSave v true) s = .next t ∧ (t.dev.slice s.dev.ssel).saveseq = ((s.dev.slice s.dev.ssel).saveseq + 1) % 2 ^ 64 ∧
      (t.dev.slice s.dev.ssel).opBusy = false ∧ ∃ ws, ws.length = 512 ∧ s.dev.tells t.dev (.blob h (s.dev.slice s.dev.ssel).blob ws) := by
  obtain ⟨e, hat, -, hpub⟩ := slOp_effect v 4 [.frozen] (fun _ _ => true) (Dev.saveBegins true) ho hkey hop hbusy (by rw [hst]; rfl) (fun _ _ => rfl)
  obtain ⟨h1, ws, hlen, htell⟩ := Dev.saveBegins_saves (e.setSlice s.dev.ssel ((s.dev.slice s.dev.ssel).begun 4 v)) s.dev.ssel
    ((Dev.mgrHead_setSlice e s.dev.ssel _).trans (hat.mgrHead.trans hh))
  rw [← hpub.slice, Dev.slice_setSlice_self] at h1
  rw [Dev.slice_setSlice_self] at htell
  have hout : (doSliceSave v true s.dev).out = _ := hpub.out
  exact ⟨_, act_of_running s (doSliceSave v true) hrun, congrArg (·.saveseq) h1, congrArg (·.opBusy) h1, ws, hlen,
    Dev.tells_within hat.reports.out htell (by rw [← hout])⟩

theorem sliceSave_fails (hop : bits v 3 0 = 4) (hst : (s.dev.slice s.dev.ssel).st = .frozen) (herr : (s.dev.page 0x300).err = false) (hv : v &&& 0xFFE0 = 0) :
    ∃ t, exec (.sliceSave v false) s = .next t ∧ (t.dev.slice s.dev.ssel).opErr = true ∧
      (t.dev.slice s.dev.ssel).saveseq = (s.dev.slice s.dev.ssel).saveseq ∧ (t.dev.page 0x300).errCode = 0x0102 ∧ (t.dev.page 0x300).info1 = 7 := by
  obtain ⟨e, hat, hsame, hpub⟩ := slOp_effect v 4 [.frozen] (fun _ _ => true) (Dev.saveBegins false) ho hkey hop hbusy (by rw [hst]; rfl) (fun _ _ => rfl)
  obtain ⟨h1, h2, h3⟩ := Dev.opFails_published e s.dev.ssel 7 ((s.dev.slice s.dev.ssel).begun 4 v) ((hsame hv).trans herr) hpub
  exact ⟨_, act_of_running s (doSliceSave v false) hrun, congrArg (·.opErr) h1, congrArg (·.saveseq) h1, h2, h3⟩

variable (blob : Nat) (nvmOk : Bool)

theorem sliceRestore_restores (hop : bits v 3 0 = 5) (hst : (s.dev.slice s.dev.ssel).st ∈ [SliceSt.unbound, .frozen])
    (hfault : s.dev.blobFault s.dev.ssel blob nvmOk = none) :
    ∃ t, exec (.sliceRestore v blob nvmOk) s = .next t ∧ (t.dev.slice s.dev.ssel).st = .frozen ∧
      (t.dev.slice s.dev.ssel).saveseq = ((s.dev.slice s.dev.ssel).saveseq + 1) % 2 ^ 64 ∧
      (t.dev.slice s.dev.ssel).pasid = leBytes (blobText s.dev.ssel blob) 0 4 % 2 ^ 20 ∧
      (t.dev.slice s.dev.ssel).blks = leBytes (blobText s.dev.ssel blob) 4 8 % 2 ^ 41 ∧
      (t.dev.slice s.dev.ssel).sgen = leBytes blob 0x22 1 % 16 := by
  obtain ⟨e, hat, -, hpub⟩ := slOp_effect v 5 [.unbound, .frozen] (fun _ _ => true) (Dev.restoreBegins blob nvmOk) ho hkey hop hbusy
    (List.contains_iff_mem.mpr hst) (fun _ _ => rfl)
  have hf := Dev.blobFault_begun (d := s.dev) (e := e) (blob := blob) (nvmOk := nvmOk) 5 v
  rw [hfault] at hf
  have h := Dev.applyBlob_fields (e.setSlice s.dev.ssel ((s.dev.slice s.dev.ssel).begun 5 v)) s.dev.ssel blob
  rw [← Dev.restoreBegins_applies hf, ← hpub.slice, Dev.slice_setSlice_self] at h
  exact ⟨_, act_of_running s (doSliceRestore v blob nvmOk) hrun, h⟩

theorem sliceRestore_fails (hop : bits v 3 0 = 5) (hst : (s.dev.slice s.dev.ssel).st ∈ [SliceSt.unbound, .frozen]) (n : Nat)
    (hfault : s.dev.blobFault s.dev.ssel blob nvmOk = some n) (herr : (s.dev.page 0x300).err = false) (hv : v &&& 0xFFE0 = 0) :
    ∃ t, exec (.sliceRestore v blob nvmOk) s = .next t ∧ (t.dev.slice s.dev.ssel).opErr = true ∧
      (t.dev.slice s.dev.ssel).st = (s.dev.slice s.dev.ssel).st ∧ (t.dev.page 0x300).errCode = 0x0102 ∧ (t.dev.page 0x300).info1 = w32 n := by
  obtain ⟨e, hat, hsame, hpub⟩ := slOp_effect v 5 [.unbound, .frozen] (fun _ _ => true) (Dev.restoreBegins blob nvmOk) ho hkey hop hbusy
    (List.contains_iff_mem.mpr hst) (fun _ _ => rfl)
  have hf := Dev.blobFault_begun (d := s.dev) (e := e) (blob := blob) (nvmOk := nvmOk) 5 v
  rw [hfault] at hf
  rw [Dev.restoreBegins_fails hf] at hpub
  obtain ⟨h1, h2, h3⟩ := Dev.opFails_published e s.dev.ssel n ((s.dev.slice s.dev.ssel).begun 5 v) ((hsame hv).trans herr) hpub
  exact ⟨_, act_of_running s (doSliceRestore v blob nvmOk) hrun, congrArg (·.opErr) h1, congrArg (·.st) h1, h2, h3⟩

theorem sliceClear_spec (hop : bits v 3 0 = 6) (hst : (s.dev.slice s.dev.ssel).st = .unbound) (hexp : s.dev.exporting s.dev.ssel = false) :
    ∃ t, exec (.sliceClear v) s = .next t ∧ (t.dev.slice s.dev.ssel).st = .clearing ∧ (t.dev.slice s.dev.ssel).opBusy = true ∧
      ∀ k < 4, (s.dev.ctx (4 * s.dev.ssel + k)).st = .valid → (t.dev.ctx (4 * s.dev.ssel + k)).st = .zeroising := by
  obtain ⟨e, hat, -, hpub⟩ := slOp_effect v 6 [.unbound] (fun d s => !d.exporting s) Dev.clearBegins ho hkey hop hbusy (by rw [hst]; rfl)
    (fun e he => by rw [he.exporting, hexp]; rfl)
  obtain ⟨h1, h2, h3⟩ := Dev.clearBegins_spec (e.setSlice s.dev.ssel ((s.dev.slice s.dev.ssel).begun 6 v)) s.dev.ssel
  rw [← hpub.slice] at h1 h2
  refine ⟨_, act_of_running s (doSliceClear v) hrun, h1, h2, fun k hk hv => ?_⟩
  have hctx : (e.setSlice s.dev.ssel ((s.dev.slice s.dev.ssel).begun 6 v)).ctx (4 * s.dev.ssel + k) = s.dev.ctx (4 * s.dev.ssel + k) := hat.ctx _
  exact (congrArg (·.st) (hpub.ctx _)).trans (h3 k hk ((congrArg (·.st) hctx).trans hv))

end

end

/-- Settles O19: each operation's write reaches its body on the selected slice, whose steps beside it change no more of a slice than its
commands in flight. -/
theorem sliceOperations : Obligations.SliceOperations := by
  intro s v hrun ho sl x op
  refine ⟨sliceBind_spec s v hrun ho, sliceUnbind_spec s v hrun ho, fun h => ?_, fun h => ?_, fun h => ?_, fun h => ?_, fun h hst k => ?_, fun h => ?_,
    fun blob nvmOk h hst => ?_, fun h => ?_⟩
  · exact sliceReset_cuts s v hrun ho h.1 h.2.2 h.2.1
  · exact sliceReset_waits s v hrun ho h.1 h.2.2 h.2.1
  · exact sliceFreeze_spec s v hrun ho h.1 h.2.2 h.2.1
  · exact sliceThaw_spec s v hrun ho h.1 h.2.2 h.2.1
  · exact sliceSave_saves s v hrun ho h.1 h.2.2 h.2.1 hst
  · exact sliceSave_fails s v hrun ho h.1 h.2.2 h.2.1
  · exact ⟨sliceRestore_restores s v hrun ho h.1 h.2.2 blob nvmOk h.2.1 hst, sliceRestore_fails s v hrun ho h.1 h.2.2 blob nvmOk h.2.1 hst⟩
  · exact sliceClear_spec s v hrun ho h.1 h.2.2 h.2.1

end Sys2Proof.Machine
end

section
/-! What a row that reads blocks changes beside its command, and that the flash reads the same after it (R143, R302, R320, R356). -/

namespace Sys2Proof.Machine

-- In order, one declaration at a time: keeps the check within its memory limit.
set_option Elab.async false

/-! ### Rows that read: the frames -/

/-- The device without what serving blocks from flash changes. -/
def Dev.sansServe (d : Dev) : Dev :=
  { d with
    regs := [], pages := [], out := [], pba := [], cap := { Cap.reset with key := d.cap.key }, incidents := [], incWait := [], draws := 0,
    gTx := 0, gPend := [], gLastTx := 0, gSaid := 0, ports := [], flash := [], bmDirty := [], bmClear := [], bmWait := [], bmLogs := [],
    crHold := [], crWait := [] }

/-- The device without what a row that looks blocks up changes besides. -/
def Dev.sansFetch (d : Dev) : Dev := { d.sansServe with refBits := [], mapWant := [] }

/-- The registers below the port pages that this changes. -/
def fetchRegs : List Nat :=
  [Reg.GLB_DEV_STS, Reg.CRY_UNITS_DEC, Reg.CRY_GCM_FAIL, Reg.MAP_CACHE_HIT, Reg.MAP_CACHE_MISS, Reg.STK_POOL, Reg.STK_SHARED, Reg.STK_CR_WAITS] ++
  (List.range 10).map Reg.STK_CR_USED

/-- From `d` to `t` blocks are read: but for what is erased and these registers, all below the port pages stays. -/
structure Dev.PortFrame (erase : Dev → Dev) (d t : Dev) : Prop where
  kept : erase t = erase d
  regs : ∀ off < 0x800000, off ∉ fetchRegs → t.reg off = d.reg off
  out : d.out <+: t.out
  page : ∀ pg, (d.page pg).Later (t.page pg)

/-- Blocks are served from flash: queues, slices, the map and its cache stay. -/
abbrev Dev.Serves (d t : Dev) : Prop := Dev.PortFrame Dev.sansServe d t

/-- Blocks are looked up and served. -/
abbrev Dev.Fetches (d t : Dev) : Prop := Dev.PortFrame Dev.sansFetch d t

section
variable {erase : Dev → Dev} {d e t : Dev}

theorem Dev.PortFrame.refl (d : Dev) : Dev.PortFrame erase d d := ⟨rfl, fun _ _ _ => rfl, List.prefix_rfl, fun _ => .refl _⟩

theorem Dev.PortFrame.trans (h : Dev.PortFrame erase d e) (h' : Dev.PortFrame erase e t) : Dev.PortFrame erase d t :=
  ⟨h'.kept.trans h.kept, fun off hlt hoff => (h'.regs off hlt hoff).trans (h.regs off hlt hoff), h.out.trans h'.out, fun pg => (h.page pg).trans (h'.page pg)⟩

theorem Dev.PortFrame.ite {c : Prop} [Decidable c] (h : Dev.PortFrame erase d e) (h' : Dev.PortFrame erase d t) : Dev.PortFrame erase d (if c then e else t) := by
  split
  · exact h
  · exact h'

theorem Dev.PortFrame.foldl {α : Type} {f : Dev → α → Dev} (h : ∀ (e : Dev) x, Dev.PortFrame erase e (f e x)) (l : List α) (d : Dev) : Dev.PortFrame erase d (l.foldl f d) :=
  List.foldlRecOn (motive := fun e : Dev => Dev.PortFrame erase d e) l f (.refl d) (fun e he x _ => he.trans (h e x))

theorem Dev.PortFrame.of_frame {erase' : Dev → Dev} {rs : List Nat} (h : Dev.Frame erase' rs d t) (he : ∀ x, erase (erase' x) = erase x)
    (hr : ∀ off ∈ rs, off ∈ fetchRegs ∨ 0x800000 ≤ off) : Dev.PortFrame erase d t :=
  ⟨by rw [← he t, h.kept, he d], fun off hlt hoff => h.regs off (fun hm => (hr off hm).elim hoff (fun h => absurd hlt (Nat.not_lt.mpr h))), h.out, h.page⟩

/-- A change that the frame hides. -/
theorem Dev.PortFrame.hide (h : erase t = erase d) (hr : t.regs = d.regs := by rfl) (ho : t.out = d.out := by rfl) (hp : t.pages = d.pages := by rfl) :
    Dev.PortFrame erase d t :=
  ⟨h, fun off _ _ => by rw [Dev.reg, Dev.reg, hr], ho ▸ List.prefix_rfl, fun pg => by rw [Dev.page, Dev.page, hp]; exact .refl _⟩

theorem Dev.PortFrame.fetches (h : d.Serves t) : d.Fetches t :=
  ⟨congrArg (fun x : Dev => { x with refBits := [], mapWant := [] }) h.kept, h.regs, h.out, h.page⟩

theorem Dev.PortFrame.of_reports (h : d.Reports t) : d.Serves t := .of_frame h (fun _ => rfl) (by decide)

theorem Dev.PortFrame.of_messages (h : d.Messages t) : d.Serves t := .of_frame h (fun _ => rfl) (by decide)

variable (d)

theorem Dev.PortFrame.setReg {off : Nat} (h : off ∈ fetchRegs ∨ 0x800000 ≤ off) (v : Word) : d.Serves (d.setReg off v) :=
  ⟨rfl, fun k hk hn => Dev.reg_setReg_ne d (fun hkoff : k = off => h.elim (fun hm => hn (by rw [hkoff]; exact hm)) (fun hle => absurd hk (by omega))) v,
    List.prefix_rfl, fun _ => .refl _⟩

theorem Dev.PortFrame.emit (o : Out) : d.Serves (d.emit o) := ⟨rfl, fun _ _ _ => rfl, List.prefix_append _ _, fun _ => .refl _⟩

theorem Dev.PortFrame.setFld {off : Nat} (h : off ∈ fetchRegs ∨ 0x800000 ≤ off) (hi lo v : Nat) : d.Serves (d.setFld off hi lo v) := .setReg d h _

theorem Dev.PortFrame.inc {off : Nat} (h : off ∈ fetchRegs ∨ 0x800000 ≤ off) (n : Nat) : d.Serves (d.inc off n) := .setReg d h _

theorem Dev.PortFrame.raise (pg bit : Nat) : d.Serves (d.raise pg bit) := .of_reports (Dev.Reports.raise d pg bit)

theorem Dev.PortFrame.recordErr (pg code i0 i1 : Nat) : d.Serves (d.recordErr pg code i0 i1) := .of_reports (Dev.Reports.recordErr d pg code i0 i1)

theorem Dev.PortFrame.capRec (kind src : Nat) (fs : Fields) : d.Serves (d.capRec kind src fs) := .of_reports (Dev.Reports.capRec d kind src fs)

/-! ### Operations on the ports -/

theorem Dev.PortFrame.journal (b : JBatch) : d.Serves (d.journal b) := .ite (.of_messages (.sendGulon d _ _)) (.refl d)

theorem Dev.PortFrame.setBmLog (n : Nat) (l : BmLog) : d.Serves (d.setBmLog n l) := .hide rfl

theorem Dev.PortFrame.setPort (p : Nat) (x : Port) : d.Serves (d.setPort p x) := .hide rfl

theorem Dev.PortFrame.bmWrite (kind band : Nat) : d.Serves (d.bmWrite kind band) := by
  unfold Dev.bmWrite
  extract_lets d1 r b d2
  have h1 : d.Serves d1 := (Dev.PortFrame.setReg d (.inr (by decide)) _).trans (.setReg _ (.inr (by decide)) _)
  have h2 : d.Serves d2 := h1.trans (.journal d1 _)
  exact h2.trans (.foldl (fun x n => .setBmLog x _ _) _ _)

theorem Dev.PortFrame.bmCheckpoint : d.Serves d.bmCheckpoint := by
  unfold Dev.bmCheckpoint
  extract_lets bs d1
  have h1 : d.Serves d1 := .foldl (fun x b => .bmWrite x 3 b) _ _
  exact .ite h1 (h1.trans (.foldl (fun x n => .setBmLog x _ _) _ _))

theorem Dev.PortFrame.bmRecord (kind band : Nat) : d.Serves (d.bmRecord kind band) := by
  unfold Dev.bmRecord
  extract_lets d1
  have h1 : d.Serves d1 := .bmWrite d kind band
  exact .ite (h1.trans (.bmCheckpoint d1)) h1

theorem Dev.PortFrame.bmSet (band stripe : Nat) : d.Serves (d.bmSet band stripe) := by
  unfold Dev.bmSet
  extract_lets r d1
  have hmark : d.Serves { d with bmDirty := d.bmDirty ++ [r] } := .hide rfl
  have h1 : d.Serves d1 := (hmark.trans (.bmRecord _ 1 band)).trans (.setFld _ (.inr (by decide)) _ _ _)
  have hclear : ∀ l, d.Serves { d with bmClear := l } := fun _ => .hide rfl
  have hwait : ∀ m, d1.Serves { d1 with bmWait := m } := fun _ => .hide rfl
  exact .ite (hclear _) (.ite (h1.trans (hwait _)) h1)

theorem Dev.PortFrame.remote (p : Nat) (o : POp) : d.Serves (d.remote p o) := by
  unfold Dev.remote
  extract_lets d1 d2
  have h1 : d.Serves d1 := .ite (.bmSet d _ _) (.refl d)
  have h2 : d.Serves d2 := h1.trans (.setPort d1 _ _)
  exact h2.trans (.of_messages (.sendGulon d2 _ _))

theorem Dev.PortFrame.addOp (p : Nat) (o : POp) : d.Serves (d.addOp p o) := by
  unfold Dev.addOp
  extract_lets x t o1 d1
  have h1 : d.Serves d1 := .setPort d _ _
  exact .ite (h1.trans (.remote d1 _ _)) h1

theorem Dev.PortFrame.dealReads (w cls s band stripe at_ : Nat) (slc : Bool) (res : Nat × Nat) (src : OpSrc) (want : List (Nat × Nat)) :
    d.Serves (d.dealReads w cls s band stripe at_ slc res src want) := by
  unfold Dev.dealReads
  refine .foldl (fun e j => ?_) _ _
  extract_lets have_ cols st
  exact .foldl (fun x cs => .addOp x _ _) _ _

theorem Dev.PortFrame.flashReads (w cls s : Nat) (want : Nat → List Nat) (gs : List Nat) : d.Serves (d.flashReads w cls s want gs).2 := by
  unfold Dev.flashReads
  extract_lets items
  exact .foldl (fun e x => .dealReads e _ _ _ _ _ _ _ _ _ _) _ _

theorem Dev.PortFrame.outCounts (p : Nat) : d.Serves (d.outCounts p) := by
  unfold Dev.outCounts
  extract_lets x run arm buf
  exact .setReg d (.inr (by rw [Reg.FCH_P_OUT]; omega)) _

theorem Dev.PortFrame.dropOwned (w : Nat) : d.Serves (d.dropOwned w) :=
  .foldl (fun e _ => (Dev.PortFrame.setPort e _ _).trans (.outCounts _ _)) _ _

/-! ### What comes from flash -/

theorem Dev.PortFrame.poisonCw (key col : Nat) : d.Serves (d.poisonCw key col) := by
  have hput : ∀ f, d.Serves ((d.setFPage key f).inc Reg.SHF_POISON 1) := fun f =>
    (Dev.PortFrame.hide rfl : d.Serves (d.setFPage key f)).trans (.inc _ (.inr (by decide)) 1)
  unfold Dev.poisonCw
  extract_lets f bad
  refine .ite (.refl d) (.ite ?_ ?_)
  · split
    · exact .ite (.refl d) (hput _)
    · exact .refl d
  · split
    · exact .ite (.refl d) (hput _)
    · exact .refl d

theorem Dev.PortFrame.poisonColumn (band stripe col : Nat) : d.Serves (d.poisonColumn band stripe col) := by
  unfold Dev.poisonColumn
  extract_lets d1
  have h1 : d.Serves d1 := .foldl (fun x j => .poisonCw x _ _) _ _
  exact (h1.trans (.of_reports (Dev.Reports.errIncident d1 _ _ _ _ _ _ _ _))).trans (.raise _ _ _)

theorem Dev.PortFrame.reconstruct (band stripe col : Nat) : d.Serves (d.reconstruct band stripe col).2 := by
  unfold Dev.reconstruct
  split
  · exact .poisonColumn d _ _ _
  · exact .inc d (.inr (by decide)) 1

theorem Dev.PortFrame.serveCw (w band stripe pos col : Nat) : d.Serves (d.serveCw w band stripe pos col).2 := by
  unfold Dev.serveCw
  split
  · split
    · exact .refl d
    · exact .reconstruct d _ _ _
  · split
    · exact .refl d
    · exact .inc d (.inr (by decide)) 1

theorem Dev.PortFrame.takeFlash (w s : Nat) (want : Nat → List Nat) (gs : List Nat) : d.Serves (d.takeFlash w s want gs).2 := by
  unfold Dev.takeFlash
  extract_lets r
  have hr : d.Serves r.2 := by
    refine List.foldlRecOn (motive := fun acc : List (Nat × CwOut) × Dev => d.Serves acc.2) _ _ (.refl d) (fun acc hacc x _ => ?_)
    exact List.foldlRecOn (motive := fun acc : List (Nat × CwOut) × Dev => d.Serves acc.2) _ _ hacc (fun a ha k _ => ha.trans (.serveCw a.2 _ _ _ _ _))
  exact hr.trans (.dropOwned r.2 w)

theorem Dev.PortFrame.decrypt (s lba : Nat) : d.Serves (d.decrypt s lba) := by
  unfold Dev.decrypt
  extract_lets b d1
  have h1 : d.Serves d1 := .inc d (.inl (by decide)) 1
  refine .ite (.refl d) (.ite ?_ h1)
  exact ((h1.trans (.inc d1 (.inl (by decide)) 1)).trans (.recordErr _ _ _ _ _)).trans (.raise _ _ _)

/-! ### Lookups and credit -/

theorem Dev.PortFrame.lookup (s cls : Nat) (first : Bool) (gs : List Nat) : d.Fetches (d.lookup s cls first gs).2 := by
  unfold Dev.lookup
  refine .foldl (fun e g => ?_) _ _
  extract_lets pk e1
  have h1 : e.Fetches e1 := Dev.PortFrame.fetches (.ite ((Dev.PortFrame.capRec e _ _ _).trans (.inc _ (by split <;> exact .inl (by decide)) 1)) (.refl e))
  have href : ∀ l, e1.Fetches { e1 with refBits := l } := fun _ => .hide rfl
  have hwant : e1.Fetches (e1.wantPage pk cls) := .hide rfl
  exact .ite (h1.trans (href _)) (.ite h1 (h1.trans hwant))

theorem Dev.PortFrame.crCounts : d.Serves d.crCounts := by
  unfold Dev.crCounts
  extract_lets d1 d2
  have h1 : d.Serves d1 := by
    refine List.foldlRecOn (motive := fun e : Dev => d.Serves e) _ _ (.refl d) (fun e he c hc => he.trans (.setFld e (.inl ?_) _ _ _))
    exact List.mem_append_right _ (List.mem_map.mpr ⟨c, hc, rfl⟩)
  have h2 : d.Serves d2 := h1.trans (.setFld d1 (.inl (by decide)) _ _ _)
  exact (h2.trans (.setFld d2 (.inl (by decide)) _ _ _)).trans (.setFld _ (.inl (by decide)) _ _ _)

theorem Dev.PortFrame.freeCredit (p : Nat → Bool) : d.Serves (d.freeCredit p) := by
  have hhold : ∀ m, d.Serves { d with crHold := m } := fun _ => .hide rfl
  exact .ite ((hhold _).trans (.crCounts _)) (.refl d)

theorem Dev.PortFrame.takeCredit (c n u : Nat) : d.Serves (d.takeCredit c n u).2 := by
  unfold Dev.takeCredit
  extract_lets d1
  have h1 : d.Serves d1 := .freeCredit d _
  have hhold : ∀ (e : Dev) (m : SMap Nat) (l : List CrUnit), e.Serves { e with crHold := m, crWait := l } := fun _ _ _ => .hide rfl
  split
  · exact h1
  · split
    · exact (h1.trans (hhold d1 _ _)).trans (.crCounts _)
    · split
      · exact h1
      · exact (h1.trans (hhold d1 d1.crHold _)).trans (.inc _ (.inl (by decide)) 1)

end

end Sys2Proof.Machine
end

section
/-! The flash as it is read: by what a codeword, a granule and a block are decided (R143, R205, R298, R302, R332). -/

namespace Sys2Proof.Machine

-- In order, one declaration at a time: keeps the check within its memory limit.
set_option Elab.async false

/-- What reads of the flash look at, but for registers and pages. -/
def Dev.flashSide (d : Dev) : SMap FPage × SMap Port × SMap Band × List Ver × List MapChg × List Nat × SMap MapEnt × List Nat :=
  (d.flash, d.ports, d.bands, d.cache, d.mapPend, d.lost, d.map, d.elog)

/-- The registers that reads of the flash look at. -/
def readsFlashReg (off : Nat) : Prop :=
  off = Reg.GLB_STRAP ∨ off = Reg.SHF_SEED ∨ off = Reg.PWR_FAIL_STS ∨ ∃ p, off = Reg.FCH_P_STS p ∨ off = Reg.FCH_P_DFAIL_LO p ∨ off = Reg.FCH_P_DFAIL_HI p

/-- Reads of the flash look the same in `t` as in `d`. -/
structure Dev.SameFlash (d t : Dev) : Prop where
  side : t.flashSide = d.flashSide
  reg : ∀ off, readsFlashReg off → t.reg off = d.reg off
  en : ∀ pg, (t.page pg).en = (d.page pg).en

section
variable {d e t : Dev}

theorem Dev.SameFlash.refl (d : Dev) : d.SameFlash d := ⟨rfl, fun _ _ => rfl, fun _ => rfl⟩

theorem Dev.SameFlash.trans (h : d.SameFlash e) (h' : e.SameFlash t) : d.SameFlash t :=
  ⟨h'.side.trans h.side, fun off hoff => (h'.reg off hoff).trans (h.reg off hoff), fun pg => (h'.en pg).trans (h.en pg)⟩

theorem Dev.SameFlash.ite {c : Prop} [Decidable c] (h : d.SameFlash e) (h' : d.SameFlash t) : d.SameFlash (if c then e else t) := by
  split
  · exact h
  · exact h'

theorem Dev.SameFlash.foldl {α : Type} {f : Dev → α → Dev} (h : ∀ (e : Dev) x, e.SameFlash (f e x)) (l : List α) (d : Dev) : d.SameFlash (l.foldl f d) :=
  List.foldlRecOn (motive := fun e : Dev => d.SameFlash e) l f (.refl d) (fun e he x _ => he.trans (h e x))

/-- A change of none of this. -/
theorem Dev.SameFlash.hide (h : t.flashSide = d.flashSide) (hr : t.regs = d.regs := by rfl) (hp : t.pages = d.pages := by rfl) : d.SameFlash t :=
  ⟨h, fun off _ => by rw [Dev.reg, Dev.reg, hr], fun pg => by rw [Dev.page, Dev.page, hp]⟩

theorem not_readsFlashReg {off : Nat} (h : off < 0x800000) (hne : off ≠ Reg.GLB_STRAP) : ¬ readsFlashReg off := by
  rintro (h0 | h0 | h0 | ⟨p, h0 | h0 | h0⟩)
  · exact hne h0
  · exact absurd (h0 ▸ h) (by decide)
  · exact absurd (h0 ▸ h) (by decide)
  · rw [h0, Reg.FCH_P_STS] at h
    omega
  · rw [h0, Reg.FCH_P_DFAIL_LO] at h
    omega
  · rw [h0, Reg.FCH_P_DFAIL_HI] at h
    omega

theorem Dev.SameFlash.setReg {off : Nat} (h : off < 0x800000) (d : Dev) (v : Word) (hne : off ≠ Reg.GLB_STRAP := by decide) : d.SameFlash (d.setReg off v) :=
  ⟨rfl, fun k hk => Dev.reg_setReg_ne d (fun hkoff : k = off => not_readsFlashReg h hne (by rw [← hkoff]; exact hk)) v, fun _ => rfl⟩

/-! ### What is read -/

variable (h : d.SameFlash t)
include h

theorem Dev.SameFlash.flag {off : Nat} (hoff : readsFlashReg off) (n : Nat) : t.flag off n = d.flag off n := Dev.flag_congr (h.reg _ hoff) n

theorem Dev.SameFlash.portOut (p : Nat) : t.portOut p = d.portOut p := by
  rw [Dev.portOut, h.en, Dev.dumping, h.flag (.inr (.inr (.inl rfl))), Dev.portOut, Dev.dumping]

theorem Dev.SameFlash.portGone (p : Nat) : t.portGone p = d.portGone p := by
  rw [Dev.portGone, h.portOut, h.flag (.inr (.inr (.inr ⟨p, .inl rfl⟩))), h.flag (.inr (.inr (.inr ⟨p, .inl rfl⟩))), Dev.portGone]

theorem Dev.SameFlash.dieGone (p die : Nat) : t.dieGone p die = d.dieGone p die := by
  rw [Dev.dieGone, h.portGone, h.flag (.inr (.inr (.inr ⟨p, .inr (.inl rfl)⟩))), h.flag (.inr (.inr (.inr ⟨p, .inr (.inr rfl)⟩))), Dev.dieGone]

theorem Dev.SameFlash.fields : t.flash = d.flash ∧ t.ports = d.ports ∧ t.bands = d.bands ∧ t.cache = d.cache ∧ t.mapPend = d.mapPend ∧ t.lost = d.lost ∧
    t.map = d.map ∧ t.elog = d.elog := by
  have hs := h.side
  simp only [Dev.flashSide, Prod.mk.injEq] at hs
  exact hs

theorem Dev.SameFlash.port (p : Nat) : t.port p = d.port p := by
  obtain ⟨-, hp, -⟩ := h.fields
  rw [Dev.port, hp, Dev.port]

theorem Dev.SameFlash.setAtPos (b pos : Nat) : t.setAtPos b pos = d.setAtPos b pos := by
  obtain ⟨-, -, hb, -⟩ := h.fields
  have hdies : t.diesPerPort = d.diesPerPort := by rw [Dev.diesPerPort, h.flag (.inl rfl), Dev.diesPerPort]
  have hseed : t.fld Reg.SHF_SEED 31 0 = d.fld Reg.SHF_SEED 31 0 := Dev.fld_congr (h.reg _ (.inr (.inl rfl))) 31 0
  have hform : t.formedSets b = d.formedSets b := by simp only [Dev.formedSets, hdies, hseed]
  have hband : t.band b = d.band b := by rw [Dev.band, hb, Dev.band]
  have hsets : t.setsOf b = d.setsOf b := by rw [Dev.setsOf, hband, hform, Dev.setsOf]
  rw [Dev.setAtPos, hsets, Dev.setAtPos]

theorem Dev.SameFlash.cwErased (b stripe pos col : Nat) : t.cwErased b stripe pos col = d.cwErased b stripe pos col := by
  obtain ⟨-, -, -, -, -, -, -, he⟩ := h.fields
  simp only [Dev.cwErased, Dev.chunkErased, h.setAtPos, h.dieGone, he]

theorem Dev.SameFlash.fpage (k : Nat) : t.fpage k = d.fpage k := by
  obtain ⟨hf, -⟩ := h.fields
  rw [Dev.fpage, hf, Dev.fpage]

theorem Dev.SameFlash.cwPoisoned (b stripe pos col : Nat) : t.cwPoisoned b stripe pos col = d.cwPoisoned b stripe pos col := by
  simp only [Dev.cwPoisoned, Dev.chunkKey, h.setAtPos, h.fpage]

theorem Dev.SameFlash.unknowns (b stripe col : Nat) : t.unknowns b stripe col = d.unknowns b stripe col := by
  simp only [Dev.unknowns, h.cwErased, h.cwPoisoned]

theorem Dev.SameFlash.ownerOps (w b stripe pos : Nat) : t.ownerOps w b stripe pos = d.ownerOps w b stripe pos := by
  simp only [Dev.ownerOps, h.setAtPos, h.port]

theorem Dev.SameFlash.cwSettled (w b stripe pos col : Nat) : t.cwSettled w b stripe pos col = d.cwSettled w b stripe pos col := by
  simp only [Dev.cwSettled, h.ownerOps]

theorem Dev.SameFlash.known (b stripe pos col : Nat) : t.known b stripe pos col = d.known b stripe pos col := by
  simp only [Dev.known, h.cwErased, h.cwPoisoned]

theorem Dev.SameFlash.rebuildable (b stripe pos col : Nat) : t.rebuildable b stripe pos col = d.rebuildable b stripe pos col := by
  rw [Dev.rebuildable, h.cwErased, h.cwPoisoned, h.unknowns, Dev.rebuildable]

theorem Dev.SameFlash.sources (w b stripe pos col : Nat) : t.sources w b stripe pos col = d.sources w b stripe pos col := by
  simp only [Dev.sources, Dev.cwClimbs, h.known, h.ownerOps]

/-- Whether a codeword has come. -/
theorem Dev.SameFlash.cwReady (w b stripe pos col : Nat) : t.cwReady w b stripe pos col = d.cwReady w b stripe pos col := by
  have hsourced : t.sourced w b stripe pos col = d.sourced w b stripe pos col := by simp only [Dev.sourced, h.sources, h.cwSettled]
  simp only [Dev.cwReady, h.rebuildable, Dev.cwLate, h.cwErased, hsourced, h.cwSettled, h.ownerOps]

/-! ### Blocks -/

theorem Dev.SameFlash.ent (s g : Nat) : t.ent s g = d.ent s g := by
  obtain ⟨-, -, -, -, -, -, hm, -⟩ := h.fields
  rw [Dev.ent, hm, Dev.ent]

theorem Dev.SameFlash.cachedBlk (s lba : Nat) : t.cachedBlk s lba = d.cachedBlk s lba := by
  obtain ⟨-, -, -, hc, hp, -⟩ := h.fields
  have hv : ∀ g, t.versOf s g = d.versOf s g := fun g => by rw [Dev.versOf, hc, Dev.versOf]
  have hu : ∀ g gv, t.unposted s g gv = d.unposted s g gv := fun g gv => by rw [Dev.unposted, hv, hp, Dev.unposted]
  have hsh : ∀ v ∈ (d.versOf s (lba / 8)).reverse, t.shows v (lba % 8) = d.shows v (lba % 8) := fun v hm => by
    have hslice : v.slice = s := by
      have := (List.mem_filter.mp (List.mem_reverse.mp hm)).2
      simp only [Bool.and_eq_true, beq_iff_eq] at this
      exact this.1.1
    simp only [Dev.shows, hslice, hu]
  rw [Dev.cachedBlk, hv, List.find?_congr hsh, Dev.cachedBlk]

theorem Dev.SameFlash.stored (s g : Nat) : t.stored s g = d.stored s g := by
  simp only [Dev.stored, Dev.granAt, h.ent, h.fpage]

theorem Dev.SameFlash.pageLost (s g : Nat) : t.pageLost s g = d.pageLost s g := by
  obtain ⟨-, -, -, -, -, hl, -⟩ := h.fields
  rw [Dev.pageLost, hl, Dev.pageLost]

theorem Dev.SameFlash.blkAt (l : Loc) (k : Nat) : t.blkAt l k = d.blkAt l k := by
  have hkey : ∀ b stripe pos, t.chunkKey b stripe pos = d.chunkKey b stripe pos := fun b stripe pos => by rw [Dev.chunkKey, h.setAtPos, Dev.chunkKey]
  have hsolved : ∀ b stripe pos col, t.solvedCw b stripe pos col = d.solvedCw b stripe pos col := fun b stripe pos col => by
    simp only [Dev.solvedCw, Dev.survivors, h.known, Dev.cwHeld, hkey, h.fpage]
  simp only [Dev.blkAt, Dev.granAt, h.rebuildable, hsolved, h.fpage]

/-- The block that a read is served. -/
theorem Dev.SameFlash.servedBlk (s lba : Nat) : t.servedBlk s lba = d.servedBlk s lba := by
  have hflash : t.flashBlk s lba = d.flashBlk s lba := by simp only [Dev.flashBlk, h.stored, h.ent, h.blkAt]
  simp only [Dev.servedBlk, h.cachedBlk, h.stored, h.pageLost, hflash]

theorem Dev.SameFlash.fromFlash (s lba : Nat) : t.fromFlash s lba = d.fromFlash s lba := by
  rw [Dev.fromFlash, h.cachedBlk, h.stored, h.pageLost, Dev.fromFlash]

theorem Dev.SameFlash.wantFlash (s lba n : Nat) : t.wantFlash s lba n = d.wantFlash s lba n := by
  funext g
  simp only [Dev.wantFlash, h.fromFlash]

theorem Dev.SameFlash.flashWant (s : Nat) (want : Nat → List Nat) (gs : List Nat) : t.flashWant s want gs = d.flashWant s want gs := by
  simp only [Dev.flashWant, h.ent]

/-- Whether the data of a row's reads has come. -/
theorem Dev.SameFlash.came (w cls s : Nat) (want : Nat → List Nat) (gs : List Nat) :
    (t.flashReads w cls s want gs).1 = (d.flashReads w cls s want gs).1 := by
  simp only [Dev.flashReads, h.flashWant, h.cwReady]

/-! ### Credit leaves the flash as it is read -/

omit h

theorem Dev.SameFlash.crCounts (d : Dev) : d.SameFlash d.crCounts := by
  unfold Dev.crCounts
  extract_lets d1 d2
  have h1 : d.SameFlash d1 := by
    refine List.foldlRecOn (motive := fun e : Dev => d.SameFlash e) _ _ (.refl d) (fun e he c hc => he.trans (.setReg ?_ e _ ?_))
    · have := List.mem_range.mp hc
      rw [Reg.STK_CR_USED]
      omega
    · rw [Reg.STK_CR_USED, Reg.GLB_STRAP]
      omega
  have h2 : d.SameFlash d2 := h1.trans (.setReg (by decide) d1 _)
  exact (h2.trans (.setReg (by decide) d2 _)).trans (.setReg (by decide) _ _)

theorem Dev.SameFlash.freeCredit (d : Dev) (p : Nat → Bool) : d.SameFlash (d.freeCredit p) := by
  have hhold : ∀ m, d.SameFlash { d with crHold := m } := fun _ => .hide rfl
  exact .ite ((hhold _).trans (.crCounts _)) (.refl d)

theorem Dev.SameFlash.takeCredit (d : Dev) (c n u : Nat) : d.SameFlash (d.takeCredit c n u).2 := by
  unfold Dev.takeCredit
  extract_lets d1
  have h1 : d.SameFlash d1 := .freeCredit d _
  have hhold : ∀ (e : Dev) (m : SMap Nat) (l : List CrUnit), e.SameFlash { e with crHold := m, crWait := l } := fun _ _ _ => .hide rfl
  split
  · exact h1
  · split
    · exact (h1.trans (hhold d1 _ _)).trans (.crCounts _)
    · split
      · exact h1
      · exact (h1.trans (hhold d1 d1.crHold _)).trans (.setReg (by decide) _ _)

end

end Sys2Proof.Machine
end

section
/-! Credit and lookups of a row whose map pages are here, and the frame of an export's record (R143, R161 to R168, R197, R355). -/

namespace Sys2Proof.Machine

-- In order, one declaration at a time: keeps the check within its memory limit.
set_option Elab.async false

section
variable {d e t : Dev}

/-! ### Credit -/

/-- What credit is taken from. -/
def Dev.creditSide (d : Dev) : SMap Nat × List CrUnit × SMap Queue × List (Nat × Nat) × List Nat := (d.crHold, d.crWait, d.queues, d.crLim, d.hbmRetired)

theorem Dev.onlyRegs_setFld (h : ∃ r, t = { d with regs := r }) (off hi lo v : Nat) : ∃ r, t.setFld off hi lo v = { d with regs := r } := by
  obtain ⟨r, rfl⟩ := h
  exact ⟨_, rfl⟩

theorem Dev.crCounts_eq (d : Dev) : ∃ r, d.crCounts = { d with regs := r } := by
  unfold Dev.crCounts
  extract_lets d1 d2
  have h1 : ∃ r, d1 = { d with regs := r } :=
    List.foldlRecOn (motive := fun e : Dev => ∃ r, e = { d with regs := r }) _ _ ⟨d.regs, rfl⟩ (fun _ he _ _ => Dev.onlyRegs_setFld he _ _ _ _)
  have h2 : ∃ r, d2 = { d with regs := r } := Dev.onlyRegs_setFld h1 _ _ _ _
  clear_value d2
  exact Dev.onlyRegs_setFld (Dev.onlyRegs_setFld h2 _ _ _ _) _ _ _ _

theorem Dev.mayTake_congr (hs : t.creditSide = d.creditSide) (hd : t.dumping = d.dumping) (c n : Nat) : t.mayTake c n = d.mayTake c n := by
  simp only [Dev.creditSide, Prod.mk.injEq] at hs
  obtain ⟨hh, -, -, hl, hr⟩ := hs
  have hused : ∀ k, t.crUsed k = d.crUsed k := fun k => by rw [Dev.crUsed, hh, Dev.crUsed]
  have hfloor : ∀ k, t.crFloor k = d.crFloor k := fun k => by rw [Dev.crFloor, hl, Dev.crFloor]
  have hshared : t.crShared = d.crShared := by
    have hf : t.crFloor = d.crFloor := funext hfloor
    rw [Dev.crShared, Dev.poolPages, hr, hf, Dev.crShared, Dev.poolPages]
  have hsu : t.crSharedUsed = d.crSharedUsed := by simp only [Dev.crSharedUsed, hused, hfloor]
  have hceil : t.crCeil c = d.crCeil c := by rw [Dev.crCeil, hl, Dev.crCeil]
  rw [Dev.mayTake, Dev.mayTake]
  rw [hused, hfloor, hshared, hsu, hd, hceil]

/-- Credit is had alike where what it is taken from is alike. -/
theorem Dev.takeCredit_congr (hs : t.creditSide = d.creditSide) (hd : t.dumping = d.dumping) (c n u : Nat) : (t.takeCredit c n u).1 = (d.takeCredit c n u).1 := by
  have hfree : ∀ e : Dev, ∃ r, e.freeCredit e.unitGone = { e with regs := r, crHold := (e.freeCredit e.unitGone).crHold } ∧
      (e.freeCredit e.unitGone).crHold = (if e.crHold.any (fun kv => e.unitGone (kv.1 / 16)) then e.crHold.filter (fun kv => !e.unitGone (kv.1 / 16)) else e.crHold) := by
    intro e
    unfold Dev.freeCredit
    split
    · obtain ⟨r, hr⟩ := Dev.crCounts_eq { e with crHold := e.crHold.filter (fun kv => !e.unitGone (kv.1 / 16)) }
      rw [hr]
      exact ⟨r, rfl, rfl⟩
    · exact ⟨e.regs, rfl, rfl⟩
  have hdump : ∀ e : Dev, (e.freeCredit e.unitGone).dumping = e.dumping := fun e =>
    Dev.flag_congr ((Dev.Works.freeCredit (.refl e) e.unitGone).regs Reg.PWR_FAIL_STS (by decide)) 1
  have hs' := hs
  simp only [Dev.creditSide, Prod.mk.injEq] at hs'
  obtain ⟨hh, hw, hq, hl, hr⟩ := hs'
  have hgone : t.unitGone = d.unitGone := by
    funext k
    rw [Dev.unitGone, Dev.queue, hq, Dev.unitGone, Dev.queue]
  obtain ⟨rt, het, hht⟩ := hfree t
  obtain ⟨rd, hed, hhd⟩ := hfree d
  have hdt := hdump t
  have hdd := hdump d
  unfold Dev.takeCredit
  extract_lets a b
  have ha : a = t.freeCredit t.unitGone := rfl
  have hb : b = d.freeCredit d.unitGone := rfl
  rw [← ha] at het hht hdt
  rw [← hb] at hed hhd hdd
  clear_value a b
  have hhold : a.crHold = b.crHold := by rw [hht, hhd, hgone, hh]
  have hwait : a.crWait = b.crWait := by
    rw [het, hed]
    exact hw
  have hgab : a.unitGone = b.unitGone := by
    rw [het, hed]
    exact hgone
  have hside : a.creditSide = b.creditSide := by
    have hqab : a.queues = b.queues := by rw [het, hed]; exact hq
    have hlab : a.crLim = b.crLim := by rw [het, hed]; exact hl
    have hrab : a.hbmRetired = b.hbmRetired := by rw [het, hed]; exact hr
    rw [Dev.creditSide, hhold, hwait, hqab, hlab, hrab, Dev.creditSide]
  have hmay : a.mayTake c n = b.mayTake c n := Dev.mayTake_congr hside (hdt.trans (hd.trans hdd.symm)) c n
  rw [hhold, hwait, hgab, hmay]
  split
  · rfl
  · split
    · rfl
    · split <;> rfl

/-! ### Lookups of pages that are here -/

/-- Nothing that credit, reads of the flash and the lookups look at has changed. -/
structure Dev.Looks (d t : Dev) : Prop where
  fetches : d.Fetches t
  flash : d.SameFlash t
  credit : t.creditSide = d.creditSide

theorem Dev.Looks.refl (d : Dev) : d.Looks d := ⟨.refl d, .refl d, rfl⟩

theorem Dev.Looks.trans (h : d.Looks e) (h' : e.Looks t) : d.Looks t := ⟨h.fetches.trans h'.fetches, h.flash.trans h'.flash, h'.credit.trans h.credit⟩

theorem Dev.Looks.entHere (h : d.Looks t) (s g : Nat) : t.entHere s g = d.entHere s g := by
  have hr : t.resident = d.resident := congrArg (·.resident) h.fetches.kept
  have hm : t.metaAt = d.metaAt := congrArg (·.metaAt) h.fetches.kept
  rw [Dev.entHere, hr, Dev.mapExists, hr, hm, Dev.entHere, Dev.mapExists]

theorem Dev.Looks.dumping (h : d.Looks t) : t.dumping = d.dumping := h.flash.flag (.inr (.inr (.inl rfl))) 1

/-- A record of the capture. -/
theorem Dev.Looks.capRec (d : Dev) (kind src : Nat) (fs : Fields) : d.Looks (d.capRec kind src fs) := by
  refine ⟨(Dev.PortFrame.capRec d kind src fs).fetches, ?_, ?_⟩
  · unfold Dev.capRec Dev.capAdd
    dsimp only
    split
    · exact .hide rfl
    · exact .refl d
  · unfold Dev.capRec Dev.capAdd
    dsimp only
    split <;> rfl

theorem Dev.Looks.inc {off : Nat} (h : off ∈ fetchRegs) (d : Dev) (n : Nat) (hlt : off < 0x800000 := by decide) (hne : off ≠ Reg.GLB_STRAP := by decide) :
    d.Looks (d.inc off n) := ⟨(Dev.PortFrame.inc d (.inl h) n).fetches, .setReg hlt d _ hne, rfl⟩

theorem Dev.Looks.lookup (s cls : Nat) (first : Bool) {gs : List Nat} (h : ∀ g ∈ gs, d.entHere s g = true) :
    (d.lookup s cls first gs).1 = true ∧ d.Looks (d.lookup s cls first gs).2 := by
  refine ⟨List.all_eq_true.mpr h, ?_⟩
  unfold Dev.lookup
  refine List.foldlRecOn (motive := fun e : Dev => d.Looks e) _ _ (.refl d) (fun e he g hg => he.trans ?_)
  have hhere : e.entHere s g = true := (he.entHere s g).trans (h g hg)
  clear he hg
  extract_lets pk e1
  have h1 : e.Looks e1 := by
    by_cases hf : first = true
    · have he1 : e1 = (e.capRec 0x20 s [(8, g), (8, entWord (e.ent s g)), (1, (e.entHere s g).toNat)]).inc Reg.MAP_CACHE_HIT 1 := by
        simp only [e1, hf, hhere, if_true]
      rw [he1]
      exact (Dev.Looks.capRec e _ _ _).trans (.inc (by decide) _ 1)
    · have he1 : e1 = e := if_neg hf
      rw [he1]
      exact .refl e
  have href : ∀ (x : Dev) l, x.Looks { x with refBits := l } := fun x l => ⟨.hide rfl, .hide rfl, rfl⟩
  have hhere1 : e1.entHere s g = true := (h1.entHere s g).trans hhere
  clear_value e1
  rw [if_pos hhere1]
  split
  · exact h1.trans (href _ _)
  · exact h1

/-! ### The export's own registers -/

/-- From `d` to `t` the export stays as it is, and its registers but the count of poisoned blocks. -/
structure Dev.KeepsExport (d t : Dev) : Prop where
  exp : t.exp = d.exp
  reg : ∀ off, 0x301100 ≤ off → off ≤ 0x301138 → off ≠ Reg.VSL_EXP_POISON → t.reg off = d.reg off
  out : d.out <+: t.out

theorem Dev.KeepsExport.refl (d : Dev) : d.KeepsExport d := ⟨rfl, fun _ _ _ _ => rfl, List.prefix_rfl⟩

theorem Dev.KeepsExport.trans (h : d.KeepsExport e) (h' : e.KeepsExport t) : d.KeepsExport t :=
  ⟨h'.exp.trans h.exp, fun off h1 h2 h3 => (h'.reg off h1 h2 h3).trans (h.reg off h1 h2 h3), h.out.trans h'.out⟩

theorem Dev.KeepsExport.foldl {α : Type} {f : Dev → α → Dev} (h : ∀ (e : Dev) x, e.KeepsExport (f e x)) (l : List α) (d : Dev) : d.KeepsExport (l.foldl f d) :=
  List.foldlRecOn (motive := fun e : Dev => d.KeepsExport e) l f (.refl d) (fun e he x _ => he.trans (h e x))

theorem Dev.KeepsExport.of_fetches (h : d.Fetches t) : d.KeepsExport t := by
  refine ⟨congrArg (·.exp) h.kept, fun off h1 h2 _ => h.regs off (by omega) ?_, h.out⟩
  intro hm
  have hall : ∀ k ∈ fetchRegs, k < 0x301100 ∨ 0x301138 < k := by decide
  have := hall off hm
  omega

theorem Dev.KeepsExport.of_reports (h : d.Reports t) : d.KeepsExport t := .of_fetches (Dev.PortFrame.of_reports h).fetches

theorem Dev.KeepsExport.poisoned (d : Dev) (n : Nat) : d.KeepsExport (d.inc Reg.VSL_EXP_POISON n) :=
  ⟨rfl, fun _ _ _ hne => Dev.reg_setReg_ne d hne _, List.prefix_rfl⟩

theorem Dev.KeepsExport.fld (h : d.KeepsExport t) (off hi lo : Nat) (h1 : 0x301100 ≤ off := by decide) (h2 : off ≤ 0x301138 := by decide)
    (h3 : off ≠ Reg.VSL_EXP_POISON := by decide) : t.fld off hi lo = d.fld off hi lo := Dev.fld_congr (h.reg off h1 h2 h3) hi lo

theorem Dev.KeepsExport.flag (h : d.KeepsExport t) (off n : Nat) (h1 : 0x301100 ≤ off := by decide) (h2 : off ≤ 0x301138 := by decide)
    (h3 : off ≠ Reg.VSL_EXP_POISON := by decide) : t.flag off n = d.flag off n := Dev.flag_congr (h.reg off h1 h2 h3) n

theorem Dev.KeepsExport.get64 (h : d.KeepsExport t) {lo hi : Nat} (h1 : (0x301100 ≤ lo ∧ lo ≤ 0x301138 ∧ lo ≠ Reg.VSL_EXP_POISON) := by decide)
    (h2 : (0x301100 ≤ hi ∧ hi ≤ 0x301138 ∧ hi ≠ Reg.VSL_EXP_POISON) := by decide) : t.get64 lo hi = d.get64 lo hi := by
  rw [Dev.get64, Dev.fld_congr (h.reg lo h1.1 h1.2.1 h1.2.2), Dev.fld_congr (h.reg hi h2.1 h2.2.1 h2.2.2), Dev.get64]

end

end Sys2Proof.Machine
end

section
/-! Shares and block counts of a slice, and the export of its range (R145 to R148, R160 to R168). -/

namespace Sys2Proof.Machine

-- In order, one declaration at a time: keeps the check within its memory limit.
set_option Elab.async false

section
variable {d e t : Dev}

/-! ### Shares and block counts -/

theorem Dev.AtSlices.highLba (h : d.AtSlices e) (s : Nat) : e.highLba s = d.highLba s := by
  have hc : e.cache = d.cache := congrArg (·.cache) h.reports.kept
  have hm : e.mappedOf s = d.mappedOf s := by
    have hmap : e.map = d.map := congrArg (·.map) h.reports.kept
    rw [Dev.mappedOf, hmap, Dev.mappedOf]
  rw [Dev.highLba, hc, hm, Dev.highLba]

theorem Dev.slice_setKept_self (d : Dev) (s : Nat) (x : Slice) : (d.setKept s x).slice s = x := by rw [Dev.slice_setKept, if_pos rfl]

/-- What a write of VSL_SL_BLKS_LO does at the selected slice. -/
def blksLoEff (v : Word) (d : Dev) : Dev :=
  let s := d.ssel
  let x := d.slice s
  let n := v.toNat + 2 ^ 32 * x.blksStage.getD (x.blks / 2 ^ 32)
  let y := { x with blksStage := none }
  if (n < x.blks ∧ n < d.highLba s) ∨ (x.bound ∧ (n < 1 ∨ 2 ^ 40 < n)) then
    (d.setSlice s y).recordErr 0x300 0x0103 s 0x10C
  else if x.blks ≤ n then d.setKept s { y with blks := n, blksPend := none }
  else d.setSlice s { y with blksPend := some n }

/-- The count that a write of VSL_SL_BLKS_LO completes. -/
def blksCount (v : Word) (x : Slice) : Nat := v.toNat + 2 ^ 32 * x.blksStage.getD (x.blks / 2 ^ 32)

theorem blksLoEff_grows (v : Word) (d : Dev) (h : (d.slice d.ssel).blks ≤ blksCount v (d.slice d.ssel))
    (hb : (d.slice d.ssel).bound = true → 1 ≤ blksCount v (d.slice d.ssel) ∧ blksCount v (d.slice d.ssel) ≤ 2 ^ 40) :
    (blksLoEff v d).slice d.ssel = { d.slice d.ssel with blksStage := none, blks := blksCount v (d.slice d.ssel), blksPend := none } := by
  unfold blksLoEff
  extract_lets s x n y
  rw [if_neg (by rintro (h1 | h1); exacts [absurd h (Nat.not_le.mpr h1.1), absurd (hb h1.1) (fun h2 => h1.2.elim (Nat.not_lt.mpr h2.1) (Nat.not_lt.mpr h2.2))]), if_pos (show x.blks ≤ n from h)]
  exact Dev.slice_setKept_self d s _

theorem blksLoEff_shrinks (v : Word) (d : Dev) (h : blksCount v (d.slice d.ssel) < (d.slice d.ssel).blks) (hh : d.highLba d.ssel ≤ blksCount v (d.slice d.ssel))
    (hb : (d.slice d.ssel).bound = true → 1 ≤ blksCount v (d.slice d.ssel) ∧ blksCount v (d.slice d.ssel) ≤ 2 ^ 40) :
    (blksLoEff v d).slice d.ssel = { d.slice d.ssel with blksStage := none, blksPend := some (blksCount v (d.slice d.ssel)) } := by
  unfold blksLoEff
  extract_lets s x n y
  rw [if_neg (by rintro (h1 | h1); exacts [absurd hh (Nat.not_le.mpr h1.2), absurd (hb h1.1) (fun h2 => h1.2.elim (Nat.not_lt.mpr h2.1) (Nat.not_lt.mpr h2.2))]),
    if_neg (show ¬x.blks ≤ n from Nat.not_le.mpr h)]
  exact Dev.slice_setSlice_self d s _

theorem blksLoEff_refused (v : Word) (d : Dev) (h : blksCount v (d.slice d.ssel) < (d.slice d.ssel).blks) (hh : blksCount v (d.slice d.ssel) < d.highLba d.ssel) :
    (blksLoEff v d).slice d.ssel = { d.slice d.ssel with blksStage := none } := by
  unfold blksLoEff
  extract_lets s x n y
  rw [if_pos (.inl ⟨h, hh⟩)]
  exact (Dev.slice_of_reports (Dev.Reports.recordErr (d.setSlice s y) _ _ _ _) s).trans (Dev.slice_setSlice_self d s y)

theorem doBlksLoWrite_effect (v : Word) (ho : d.isOpen 0x300) : ∃ e, d.AtSlices e ∧ (blksLoEff v e).Publishes (doBlksLoWrite v d) := by
  obtain ⟨e, hrep, hreg, -, hpub⟩ := regWrite_effect (eff := fun _ d => blksLoEff v d) (show doBlksLoWrite v d = regWrite d Reg.VSL_SL_BLKS_LO v _ from rfl) ho (by decide)
    (show regDef? Reg.VSL_SL_BLKS_LO = some _ from rfl)
  exact ⟨e, ⟨hrep, hreg⟩, hpub⟩

section
variable (s : State) (v : Word) (hrun : s.running) (ho : s.dev.isOpen 0x300)
include hrun

theorem shareWrite_spec (ho : s.dev.isOpen 0x300) (h1 : 1 ≤ bits v 10 0) (h2 : bits v 10 0 ≤ 1024) (h3 : bits v 22 16 ≤ 102) :
    ∃ t, exec (.shareWrite v) s = .next t ∧
      t.dev.slice s.dev.ssel = { s.dev.slice s.dev.ssel with share := bits v 10 0, tshare := bits v 22 16, pendShare := true } := by
  obtain ⟨e, hrep, hreg, -, hpub⟩ := regWrite_effect (show doShareWrite v s.dev = regWrite s.dev Reg.VSL_SL_SHARE v _ from rfl) ho (by decide)
    (show regDef? Reg.VSL_SL_SHARE = some _ from rfl)
  have hat : s.dev.AtSlices e := ⟨hrep, hreg⟩
  dsimp only at hpub
  rw [if_neg (by omega), hat.ssel, hat.slice] at hpub
  exact ⟨_, act_of_running s (doShareWrite v) hrun, (hpub.slice _).trans (Dev.slice_setKept_self e _ _)⟩

theorem blksHiWrite_spec (ho : s.dev.isOpen 0x300) :
    ∃ t, exec (.blksHiWrite v) s = .next t ∧ t.dev.slice s.dev.ssel = { s.dev.slice s.dev.ssel with blksStage := some (bits v 8 0) } := by
  obtain ⟨e, hrep, hreg, -, hpub⟩ := regWrite_effect (show doBlksHiWrite v s.dev = regWrite s.dev Reg.VSL_SL_BLKS_HI v _ from rfl) ho (by decide)
    (show regDef? Reg.VSL_SL_BLKS_HI = some _ from rfl)
  have hat : s.dev.AtSlices e := ⟨hrep, hreg⟩
  dsimp only at hpub
  rw [hat.ssel, hat.slice] at hpub
  exact ⟨_, act_of_running s (doBlksHiWrite v) hrun, (hpub.slice _).trans (Dev.slice_setSlice_self e _ _)⟩

include ho

theorem blksLoWrite_spec :
    let x := s.dev.slice s.dev.ssel
    let n := blksCount v x
    (x.blks ≤ n → (x.bound = true → 1 ≤ n ∧ n ≤ 2 ^ 40) →
      ∃ t, exec (.blksLoWrite v) s = .next t ∧ t.dev.slice s.dev.ssel = { x with blksStage := none, blks := n, blksPend := none }) ∧
    (n < x.blks → s.dev.highLba s.dev.ssel ≤ n → (x.bound = true → 1 ≤ n ∧ n ≤ 2 ^ 40) →
      ∃ t, exec (.blksLoWrite v) s = .next t ∧ t.dev.slice s.dev.ssel = { x with blksStage := none, blksPend := some n }) ∧
    (n < x.blks → n < s.dev.highLba s.dev.ssel → ∃ t, exec (.blksLoWrite v) s = .next t ∧ t.dev.slice s.dev.ssel = { x with blksStage := none }) := by
  obtain ⟨e, hat, hpub⟩ := doBlksLoWrite_effect v ho
  have hg := blksLoEff_grows v e
  have hs := blksLoEff_shrinks v e
  have hr := blksLoEff_refused v e
  rw [hat.ssel, hat.slice] at hg hs hr
  rw [hat.highLba] at hs hr
  have hexec := act_of_running s (doBlksLoWrite v) hrun
  exact ⟨fun h hb => ⟨_, hexec, (hpub.slice _).trans (hg h hb)⟩, fun h hh hb => ⟨_, hexec, (hpub.slice _).trans (hs h hh hb)⟩,
    fun h hh => ⟨_, hexec, (hpub.slice _).trans (hr h hh)⟩⟩

omit ho

theorem blksShrinkApply_spec (k n : Nat) (hk : k < 1024) (hp : (s.dev.slice k).blksPend = some n) (ht : s.dev.tick % 131072 = 0)
    (hc : ∀ c ∈ s.dev.sliceCmds k, writeType c.op = true → c.lba + c.nblk ≤ n) :
    exec (.blksShrinkApply k) s = .next { s with dev := s.dev.setKept k { s.dev.slice k with blks := n, blksPend := none } } := by
  have hdo : doBlksShrinkApply k s.dev = s.dev.setKept k { s.dev.slice k with blks := n, blksPend := none } := by
    unfold doBlksShrinkApply
    rw [Nat.mod_eq_of_lt hk]
    dsimp only
    rw [hp]
    refine if_pos ⟨ht, List.all_eq_true.mpr (fun c hm => ?_)⟩
    by_cases hw : writeType c.op = true
    · simp [hc c hm hw]
    · simp [hw]
  rw [← hdo]
  exact act_of_running s (doBlksShrinkApply k) hrun

end

/-! ### Start, stop and room of an export (R160, R164, R168) -/

/-- The registers and the export as an accepted start leaves them. -/
def Dev.exportStarted (d : Dev) (new : Word) (start : Nat) : Dev :=
  let d := d.setReg Reg.VSL_EXP_CTL new
  let d := d.setReg Reg.VSL_EXP_STS 1
  let d := ((d.setReg Reg.VSL_EXP_PROD 0).setReg Reg.VSL_EXP_CONS 0).set64 Reg.VSL_EXP_CUR_LO Reg.VSL_EXP_CUR_HI start
  let d := (d.setReg Reg.VSL_EXP_BEHIND 0).setReg Reg.VSL_EXP_POISON 0
  { d with exp := { seqNo := 0, cursor := start, behind := [], looked := false } }

theorem Dev.reg_exportStarted (d : Dev) (new : Word) (start : Nat) : (d.exportStarted new start).reg Reg.VSL_EXP_STS = 1 ∧
    (d.exportStarted new start).reg Reg.VSL_EXP_PROD = 0 ∧ (d.exportStarted new start).reg Reg.VSL_EXP_CONS = 0 ∧
    (d.exportStarted new start).exp = { seqNo := 0, cursor := start, behind := [], looked := false } := by
  unfold Dev.exportStarted
  extract_lets d1 d2 d3 d4
  have hexp : ∀ (e : Dev) (x : Export) off, ({ e with exp := x } : Dev).reg off = e.reg off := fun _ _ _ => rfl
  have h3 : ∀ off, off ≠ Reg.VSL_EXP_CUR_LO → off ≠ Reg.VSL_EXP_CUR_HI → off ≠ Reg.VSL_EXP_BEHIND → off ≠ Reg.VSL_EXP_POISON →
      d4.reg off = ((d2.setReg Reg.VSL_EXP_PROD 0).setReg Reg.VSL_EXP_CONS 0).reg off := fun off h1 h2 h3 h4 => by
    rw [Dev.reg_setReg_ne _ h4, Dev.reg_setReg_ne _ h3, Dev.reg_set64_ne _ h1 h2]
  refine ⟨?_, ?_, ?_, rfl⟩
  · rw [hexp, h3 _ (by decide) (by decide) (by decide) (by decide), Dev.reg_setReg_ne _ (by decide), Dev.reg_setReg_ne _ (by decide), Dev.reg_setReg_self]
  · rw [hexp, h3 _ (by decide) (by decide) (by decide) (by decide), Dev.reg_setReg_ne _ (by decide), Dev.reg_setReg_self]
  · rw [hexp, h3 _ (by decide) (by decide) (by decide) (by decide), Dev.reg_setReg_self]

theorem Dev.AtSlices.get64 (h : d.AtSlices e) (lo hi : Nat) : e.get64 lo hi = d.get64 lo hi := by
  rw [Dev.get64, Dev.fld_congr (h.reg lo), Dev.fld_congr (h.reg hi), Dev.get64]

theorem Dev.AtSlices.fld (h : d.AtSlices e) (off hi lo : Nat) : e.fld off hi lo = d.fld off hi lo := Dev.fld_congr (h.reg off) hi lo

theorem Dev.AtSlices.flag (h : d.AtSlices e) (off n : Nat) : e.flag off n = d.flag off n := Dev.flag_congr (h.reg off) n

theorem Dev.AtSlices.exp (h : d.AtSlices e) : e.exp = d.exp := congrArg (·.exp) h.reports.kept

theorem Dev.Publishes.exp (h : d.Publishes t) : t.exp = d.exp := by
  obtain ⟨_, _, _, rfl, -⟩ := h
  rfl

/-- What a stop does to a running export. -/
def Dev.exportStopped (d : Dev) : Dev :=
  let d := d.setFlag Reg.VSL_EXP_CTL 0 false
  if d.exp.cur.isSome then { d with exp := { d.exp with stops := true } } else d.setFlag Reg.VSL_EXP_STS 0 false

theorem Dev.exportStopped_spec (d : Dev) : d.exportStopped.flag Reg.VSL_EXP_CTL 0 = false ∧
    (d.exp.cur = none → d.exportStopped.flag Reg.VSL_EXP_STS 0 = false) ∧
    (d.exp.cur ≠ none → d.exportStopped.flag Reg.VSL_EXP_STS 0 = d.flag Reg.VSL_EXP_STS 0 ∧ d.exportStopped.exp.stops = true) := by
  unfold Dev.exportStopped
  extract_lets d1
  have hexp : d1.exp = d.exp := rfl
  have hctl : d1.flag Reg.VSL_EXP_CTL 0 = false := Dev.flag_setFlag_self d _ _ _ (by decide)
  have hsts : d1.flag Reg.VSL_EXP_STS 0 = d.flag Reg.VSL_EXP_STS 0 := Dev.flag_setFlag_ne d (by decide) _ _ _
  have hrec : ∀ (e : Dev) (x : Export) off n, ({ e with exp := x } : Dev).flag off n = e.flag off n := fun _ _ _ _ => rfl
  clear_value d1
  rw [hexp]
  cases hcur : d.exp.cur with
  | none =>
    rw [if_neg (by simp)]
    exact ⟨(Dev.flag_setFlag_ne d1 (by decide) _ _ _).trans hctl, fun _ => Dev.flag_setFlag_self d1 _ _ _ (by decide), fun h => absurd rfl h⟩
  | some x =>
    rw [if_pos (show (some x).isSome = true from rfl)]
    exact ⟨(hrec d1 _ _ _).trans hctl, (fun h => nomatch h), fun _ => ⟨(hrec d1 _ _ _).trans hsts, rfl⟩⟩

section
variable (s : State) (v : Word) (hrun : s.running) (ho : s.dev.isOpen 0x301)
include hrun ho

omit hrun in
theorem expCtlWrite_effect : ∃ e new, s.dev.AtSlices e ∧
    (s.dev.flag Reg.VSL_EXP_STS 0 = true → bitAt v 0 = false → e.exportStopped.Publishes (expCtlWrite v s.dev)) ∧
    (s.dev.flag Reg.VSL_EXP_STS 0 = false → bitAt v 0 = true →
      (s.dev.slice (bits v 13 4)).bound = true ∧ s.dev.fld Reg.VSL_EXP_RING_LO 19 0 = 0 ∧
      s.dev.get64 Reg.VSL_EXP_START_LO Reg.VSL_EXP_START_HI % 8 = 0 ∧ s.dev.get64 Reg.VSL_EXP_END_LO Reg.VSL_EXP_END_HI % 8 = 0 ∧
      s.dev.get64 Reg.VSL_EXP_START_LO Reg.VSL_EXP_START_HI < s.dev.get64 Reg.VSL_EXP_END_LO Reg.VSL_EXP_END_HI ∧
      s.dev.get64 Reg.VSL_EXP_END_LO Reg.VSL_EXP_END_HI ≤ (s.dev.slice (bits v 13 4)).blks ∧ 2 ≤ s.dev.fld Reg.VSL_EXP_SLOTS 15 0 →
      (e.exportStarted new (s.dev.get64 Reg.VSL_EXP_START_LO Reg.VSL_EXP_START_HI)).Publishes (expCtlWrite v s.dev)) := by
  obtain ⟨e, hrep, hreg, -, hpub⟩ := regWrite_effect (show expCtlWrite v s.dev = regWrite s.dev Reg.VSL_EXP_CTL v _ from rfl) ho (by decide)
    (show regDef? Reg.VSL_EXP_CTL = some _ from rfl)
  have hat : s.dev.AtSlices e := ⟨hrep, hreg⟩
  generalize mergeWrite _ _ v true = new at hpub
  dsimp only at hpub
  rw [hat.flag, hat.slice, hat.fld, hat.fld, hat.get64, hat.get64] at hpub
  refine ⟨e, new, hat, fun hon hv => ?_, fun hoff hv hall => ?_⟩
  · rw [if_pos hon, if_pos (by rw [hv]; rfl)] at hpub
    exact hpub
  · rw [if_neg (by simp [hoff]), if_neg (by simp [hv]), if_pos hall] at hpub
    exact hpub

theorem exportStart_spec (hv : bitAt v 0 = true) (hoff : s.dev.flag Reg.VSL_EXP_STS 0 = false) (hall : (s.dev.slice (bits v 13 4)).bound = true ∧ s.dev.fld Reg.VSL_EXP_RING_LO 19 0 = 0 ∧
      s.dev.get64 Reg.VSL_EXP_START_LO Reg.VSL_EXP_START_HI % 8 = 0 ∧ s.dev.get64 Reg.VSL_EXP_END_LO Reg.VSL_EXP_END_HI % 8 = 0 ∧
      s.dev.get64 Reg.VSL_EXP_START_LO Reg.VSL_EXP_START_HI < s.dev.get64 Reg.VSL_EXP_END_LO Reg.VSL_EXP_END_HI ∧
      s.dev.get64 Reg.VSL_EXP_END_LO Reg.VSL_EXP_END_HI ≤ (s.dev.slice (bits v 13 4)).blks ∧ 2 ≤ s.dev.fld Reg.VSL_EXP_SLOTS 15 0) :
    ∃ t, exec (.exportStart v) s = .next t ∧ t.dev.reg Reg.VSL_EXP_STS = 1 ∧ t.dev.reg Reg.VSL_EXP_PROD = 0 ∧ t.dev.reg Reg.VSL_EXP_CONS = 0 ∧
      t.dev.exp = { seqNo := 0, cursor := s.dev.get64 Reg.VSL_EXP_START_LO Reg.VSL_EXP_START_HI, behind := [], looked := false } := by
  obtain ⟨e, new, -, -, hstart⟩ := expCtlWrite_effect s v ho
  have hpub := hstart hoff hv hall
  have hdo : doExportStart v s.dev = expCtlWrite v s.dev := if_pos hv
  rw [← hdo] at hpub
  obtain ⟨h1, h2, h3, h4⟩ := e.reg_exportStarted new (s.dev.get64 Reg.VSL_EXP_START_LO Reg.VSL_EXP_START_HI)
  exact ⟨_, act_of_running s (doExportStart v) hrun, (hpub.reg _).trans h1, (hpub.reg _).trans h2, (hpub.reg _).trans h3, hpub.exp.trans h4⟩

theorem exportStop_spec (hv : bitAt v 0 = false) (hon : s.dev.flag Reg.VSL_EXP_STS 0 = true) :
    ∃ t, exec (.exportStop v) s = .next t ∧ t.dev.flag Reg.VSL_EXP_CTL 0 = false ∧
      (s.dev.exp.cur = none → t.dev.flag Reg.VSL_EXP_STS 0 = false) ∧
      (s.dev.exp.cur ≠ none → t.dev.flag Reg.VSL_EXP_STS 0 = true ∧ t.dev.exp.stops = true) := by
  obtain ⟨e, new, hat, hstop, -⟩ := expCtlWrite_effect s v ho
  have hpub := hstop hon hv
  have hdo : doExportStop v s.dev = expCtlWrite v s.dev := if_neg (by simp [hv])
  rw [← hdo] at hpub
  obtain ⟨h1, h2, h3⟩ := e.exportStopped_spec
  rw [hat.exp, hat.flag] at h3
  rw [hat.exp] at h2
  exact ⟨_, act_of_running s (doExportStop v) hrun, (hpub.flag _ _).trans h1, fun h => (hpub.flag _ _).trans (h2 h),
    fun h => ⟨(hpub.flag _ _).trans ((h3 h).1.trans hon), (congrArg (·.stops) hpub.exp).trans (h3 h).2⟩⟩

theorem exportConsWrite_spec (hroom : (s.dev.fld Reg.VSL_EXP_PROD 31 0 + 2 ^ 32 - v.toNat) % 2 ^ 32 ≠ s.dev.fld Reg.VSL_EXP_SLOTS 15 0) :
    ∃ t, exec (.exportConsWrite v) s = .next t ∧ t.dev.reg Reg.VSL_EXP_CONS = v ∧ t.dev.flag Reg.VSL_EXP_STS 2 = false := by
  obtain ⟨e, hrep, hreg, -, hpub⟩ := regWrite_effect (show doExportConsWrite v s.dev = regWrite s.dev Reg.VSL_EXP_CONS v _ from rfl) ho (by decide)
    (show regDef? Reg.VSL_EXP_CONS = some _ from rfl)
  rw [mergeWrite_whole (m := 0) rfl (by decide) (by simp) (by simp)] at hpub
  dsimp only at hpub
  have hfld : ∀ off hi lo, off ≠ Reg.VSL_EXP_CONS → (e.setReg Reg.VSL_EXP_CONS v).fld off hi lo = s.dev.fld off hi lo := fun off hi lo hne =>
    (Dev.fld_congr (Dev.reg_setReg_ne e hne v) hi lo).trans (Dev.fld_congr (hreg off) hi lo)
  rw [hfld _ _ _ (by decide), hfld _ _ _ (by decide), if_pos (by simpa using hroom)] at hpub
  exact ⟨_, act_of_running s (doExportConsWrite v) hrun, (hpub.reg _).trans ((Dev.reg_setFlag_ne _ (by decide) _ _).trans (Dev.reg_setReg_self e _ _)),
    (hpub.flag _ _).trans (Dev.flag_setFlag_self _ _ _ _ (by decide))⟩

end

end

end Sys2Proof.Machine
end

section
/-! The records of an export (R161 to R168). -/

namespace Sys2Proof.Machine

-- In order, one declaration at a time: keeps the check within its memory limit.
set_option Elab.async false

section
variable {d e t : Dev}

theorem Dev.tells_emit (d : Dev) (o : Out) : d.tells (d.emit o) o := by
  rw [Dev.tells, show (d.emit o).out = d.out ++ [o] from rfl, List.drop_left]
  exact List.mem_singleton.mpr rfl

/-! ### The end of an export -/

theorem Dev.exportOver_spec (d : Dev) (done : Bool) : (d.exportOver done).exp = d.exp ∧ (∀ off, off ≠ Reg.VSL_EXP_STS → off ≠ Reg.VSL_EXP_CTL → off ∉ reportRegs →
      (d.exportOver done).reg off = d.reg off) ∧ (d.exportOver done).flag Reg.VSL_EXP_STS 0 = false ∧ d.out <+: (d.exportOver done).out ∧
    (done = true → (d.exportOver done).flag Reg.VSL_EXP_STS 1 = true) := by
  unfold Dev.exportOver
  extract_lets d1
  have hexp : d1.exp = d.exp := rfl
  have hout : d1.out = d.out := rfl
  have hreg : ∀ off, off ≠ Reg.VSL_EXP_STS → off ≠ Reg.VSL_EXP_CTL → d1.reg off = d.reg off := fun off h1 h2 =>
    (Dev.reg_setFlag_ne _ h2 _ _).trans (Dev.reg_setFlag_ne d h1 _ _)
  have hoff : d1.flag Reg.VSL_EXP_STS 0 = false := (Dev.flag_setFlag_ne _ (by decide) _ _ _).trans (Dev.flag_setFlag_self d _ _ _ (by decide))
  clear_value d1
  cases done with
  | false => exact ⟨hexp, fun off h1 h2 _ => hreg off h1 h2, hoff, hout ▸ List.prefix_rfl, (fun h => nomatch h)⟩
  | true =>
    have hrep := Dev.Reports.raise (d1.setFlag Reg.VSL_EXP_STS 1 true) 0x301 2
    have hflag : ∀ n, ((d1.setFlag Reg.VSL_EXP_STS 1 true).raise 0x301 2).flag Reg.VSL_EXP_STS n = (d1.setFlag Reg.VSL_EXP_STS 1 true).flag Reg.VSL_EXP_STS n := fun n =>
      Dev.flag_congr (hrep.regs _ (by decide)) n
    refine ⟨(congrArg (·.exp) hrep.kept).trans hexp, fun off h1 h2 h3 => ?_, ?_, hout ▸ hrep.out, fun _ => ?_⟩
    · exact (hrep.regs off h3).trans ((Dev.reg_setFlag_ne d1 h1 _ _).trans (hreg off h1 h2))
    · exact (hflag 0).trans ((Dev.flag_setFlag_other d1 _ _ _ _ (by decide) (by decide)).trans hoff)
    · exact (hflag 1).trans (Dev.flag_setFlag_self d1 _ _ _ (by decide))

/-! ### A record written -/

theorem Dev.exportFree_spec (d : Dev) : d.exportFree.exp = { d.exp with units := 0 } ∧
    (∀ off, 0x301100 ≤ off → off ≤ 0x301138 → off ≠ Reg.VSL_EXP_POISON → d.exportFree.reg off = d.reg off) ∧ d.out <+: d.exportFree.out := by
  unfold Dev.exportFree
  extract_lets s
  have hreg : ∀ (x : Slice) (y : Export) off, ({ d.setSlice s x with exp := y } : Dev).reg off = d.reg off := fun _ _ _ => rfl
  have hout : ∀ (x : Slice) (y : Export), ({ d.setSlice s x with exp := y } : Dev).out = d.out := fun _ _ => rfl
  have hk : ∀ e : Dev, e.KeepsExport (e.freeCredit (fun u => u == exportUnit)) := fun e => .of_fetches (Dev.PortFrame.freeCredit e _).fetches
  exact ⟨(hk _).exp, fun off h1 h2 h3 => ((hk _).reg off h1 h2 h3).trans (hreg _ _ off), by
    have h := (hk { d.setSlice s { d.slice s with inflight := (d.slice s).inflight - d.exp.units } with exp := { d.exp with units := 0 } }).out
    rwa [hout] at h⟩

/-- What a record that is written leaves of the export. -/
structure Dev.Recorded (d t : Dev) (g n : Nat) : Prop where
  prod : t.reg Reg.VSL_EXP_PROD = w32 (d.fld Reg.VSL_EXP_PROD 31 0 + 1)
  seqNo : t.exp.seqNo = d.exp.seqNo + 1
  cursor : t.exp.cursor = 8 * (g + n)
  cur : t.exp.cur = none
  record : ∃ r, d.tells t (.exportRecord (d.fld Reg.VSL_EXP_CTL 3 2) (d.exp.seqNo % d.fld Reg.VSL_EXP_SLOTS 15 0)
    (d.get64 Reg.VSL_EXP_RING_LO Reg.VSL_EXP_RING_HI + 2 ^ 20 * (d.exp.seqNo % d.fld Reg.VSL_EXP_SLOTS 15 0)) [r, 0x1000 + 0x8000 * n])
  stops : d.exp.stops = true → t.flag Reg.VSL_EXP_STS 0 = false

/-- The record's slot taken: the count and the cursor move on. -/
def Dev.exportNext (d : Dev) (g n : Nat) : Dev :=
  let d := (d.setReg Reg.VSL_EXP_PROD (w32 (d.fld Reg.VSL_EXP_PROD 31 0 + 1))).exportFree
  { d with exp := { d.exp with seqNo := d.exp.seqNo + 1, looked := false, cur := none } }.exportCursor (8 * (g + n))

theorem Dev.exportNext_spec (d : Dev) (g n : Nat) : (d.exportNext g n).reg Reg.VSL_EXP_PROD = w32 (d.fld Reg.VSL_EXP_PROD 31 0 + 1) ∧
    (d.exportNext g n).exp = { d.exp with units := 0, seqNo := d.exp.seqNo + 1, looked := false, cur := none, cursor := 8 * (g + n) } ∧
    d.out <+: (d.exportNext g n).out := by
  unfold Dev.exportNext
  extract_lets d1
  obtain ⟨hexp, hreg, hout⟩ := Dev.exportFree_spec (d.setReg Reg.VSL_EXP_PROD (w32 (d.fld Reg.VSL_EXP_PROD 31 0 + 1)))
  have hprod : d1.reg Reg.VSL_EXP_PROD = w32 (d.fld Reg.VSL_EXP_PROD 31 0 + 1) := (hreg _ (by decide) (by decide) (by decide)).trans (Dev.reg_setReg_self d _ _)
  have hexp1 : d1.exp = { d.exp with units := 0 } := hexp
  have hout1 : d.out <+: d1.out := hout
  clear_value d1
  have hcur : ∀ (e : Dev) (x : Export) l, ({ e with exp := x }.exportCursor l).reg Reg.VSL_EXP_PROD = e.reg Reg.VSL_EXP_PROD ∧
      ({ e with exp := x }.exportCursor l).exp = { x with cursor := l } ∧ ({ e with exp := x }.exportCursor l).out = e.out := fun e x l =>
    ⟨Dev.reg_set64_ne { e with exp := x } (by decide) (by decide) l, rfl, rfl⟩
  obtain ⟨h1, h2, h3⟩ := hcur d1 { d1.exp with seqNo := d1.exp.seqNo + 1, looked := false, cur := none } (8 * (g + n))
  refine ⟨h1.trans hprod, h2.trans ?_, h3 ▸ hout1⟩
  rw [hexp1]

theorem Dev.exportWrite_spec (d : Dev) (g n : Nat) (blks : List Blk) : d.Recorded (d.exportWrite g n blks) g n := by
  unfold Dev.exportWrite
  extract_lets s plain slots stop lbas o d1 lost out d2 last r d3 bad d4 d5 x d6
  have h1 : d.KeepsExport d1 := .of_fetches (Dev.PortFrame.takeFlash d _ _ _ _).fetches
  clear_value d1
  have h2 : d.KeepsExport d2 := by
    by_cases hp : plain = true
    · have hd2 : d2 = _ := if_pos hp
      rw [hd2]
      exact h1.trans (.foldl (fun e lba => .of_fetches (Dev.PortFrame.decrypt e s lba).fetches) _ d1)
    · have hd2 : d2 = d1 := if_neg hp
      rw [hd2]
      exact h1
  clear_value d2
  have htell : d.tells d3 (.exportRecord (d.fld Reg.VSL_EXP_CTL 3 2) (d.exp.seqNo % slots)
      (d.get64 Reg.VSL_EXP_RING_LO Reg.VSL_EXP_RING_HI + 2 ^ 20 * (d.exp.seqNo % slots)) [r, 0x1000 + 0x8000 * n]) := by
    have hemit : d2.tells d3 (.exportRecord (d2.fld Reg.VSL_EXP_CTL 3 2) (d2.exp.seqNo % slots)
      (d2.get64 Reg.VSL_EXP_RING_LO Reg.VSL_EXP_RING_HI + 2 ^ 20 * (d2.exp.seqNo % slots)) [r, 0x1000 + 0x8000 * n]) := Dev.tells_emit d2 _
    rw [h2.fld Reg.VSL_EXP_CTL, h2.exp, h2.get64] at hemit
    exact Dev.tells_within h2.out hemit List.prefix_rfl
  have h3 : d2.exp = d3.exp ∧ ∀ off, d2.reg off = d3.reg off := ⟨rfl, fun _ => rfl⟩
  clear_value d3
  have h4 : d3.KeepsExport d4 := .foldl (fun e x => (Dev.KeepsExport.poisoned e 1).trans (.of_reports (Dev.Reports.incident _ _ _ _ _ _ _ _ _))) _ _
  clear_value d4
  have hd6 : d6 = d4.exportNext g n := rfl
  obtain ⟨hprod, hexp, hout⟩ := d4.exportNext_spec g n
  rw [← hd6] at hprod hexp hout
  clear_value d6
  have hexp4 : d4.exp = d.exp := h4.exp.trans (h3.1.symm.trans h2.exp)
  have hprod4 : d4.fld Reg.VSL_EXP_PROD 31 0 = d.fld Reg.VSL_EXP_PROD 31 0 := (h4.fld Reg.VSL_EXP_PROD 31 0).trans ((Dev.fld_congr (h3.2 _).symm _ _).trans (h2.fld Reg.VSL_EXP_PROD 31 0))
  rw [hprod4] at hprod
  rw [hexp4] at hexp
  have hover : ∀ done, d.Recorded (d6.exportOver done) g n := fun done => by
    obtain ⟨oexp, oreg, ooff, oout, -⟩ := d6.exportOver_spec done
    exact ⟨(oreg _ (by decide) (by decide) (by decide)).trans hprod, (congrArg (·.seqNo) (oexp.trans hexp)), (congrArg (·.cursor) (oexp.trans hexp)),
      (congrArg (·.cur) (oexp.trans hexp)), ⟨r, Dev.tells_within List.prefix_rfl htell ((h4.out.trans hout).trans oout)⟩, fun _ => ooff⟩
  split
  · exact hover true
  · split
    · exact hover false
    · next hs =>
      exact ⟨hprod, congrArg (·.seqNo) hexp, congrArg (·.cursor) hexp, congrArg (·.cur) hexp, ⟨r, Dev.tells_within List.prefix_rfl htell (h4.out.trans hout)⟩,
        fun h => absurd ((congrArg (·.stops) hexp).trans h) hs⟩

/-! ### The row -/

/-- Interrupts add no output of another kind. -/
theorem Dev.filter_raise {p : Out → Bool} (hp : ∀ h v, p (.msix h v) = false) (d : Dev) (pg bit : Nat) : (d.raise pg bit).out.filter p = d.out.filter p := by
  have hmsix : ∀ (e : Dev) h v, (e.msix h v).out.filter p = e.out.filter p := fun e h v => by
    unfold Dev.msix
    split
    · split
      · rw [show (e.emit (.msix _ v)).out = e.out ++ [.msix _ v] from rfl, List.filter_append, List.filter_cons_of_neg (by simp [hp]), List.filter_nil, List.append_nil]
      · rfl
    · rfl
  have h0 : ∀ (e : Dev) pg bit, (e.raise0 pg bit).out.filter p = e.out.filter p := fun e pg bit => by
    unfold Dev.raise0
    extract_lets x x' e'
    split
    · exact hmsix e' _ _
    · rfl
  unfold Dev.raise Dev.toRun
  split
  · exact (h0 ((d.raise0 pg bit).moded 0) _ _).trans (h0 d pg bit)
  · exact h0 d pg bit

theorem Dev.exportBegin_spec (d : Dev) (g n : Nat) : d.SameFlash (d.exportBegin g n) ∧ d.out <+: (d.exportBegin g n).out ∧ (∀ off, (d.exportBegin g n).reg off = d.reg off) ∧
    (d.exportBegin g n).exp.seqNo = d.exp.seqNo ∧ (∃ bs, (d.exportBegin g n).exp.cur = some (g, n, bs)) ∧ (d.exportBegin g n).exp.tick = d.tick ∧
    (d.exportBegin g n).exp.stops = d.exp.stops := by
  unfold Dev.exportBegin
  extract_lets s x k d1
  have h1 : d1.flashSide = d.flashSide ∧ d1.out = d.out ∧ d1.regs = d.regs ∧ d1.pages = d.pages ∧ d1.exp = d.exp ∧ d1.tick = d.tick := ⟨rfl, rfl, rfl, rfl, rfl, rfl⟩
  clear_value d1
  obtain ⟨hside, hout, hregs, hpages, hexp, htick⟩ := h1
  refine ⟨.hide hside hregs hpages, hout ▸ List.prefix_rfl, fun off => ?_, congrArg (·.seqNo) hexp, ⟨_, rfl⟩, htick, congrArg (·.stops) hexp⟩
  show d1.reg off = d.reg off
  rw [Dev.reg, hregs, Dev.reg]

/-- The granules of a record. -/
def exportGrans (g n : Nat) : List Nat := (List.range n).map (fun i => g + i)

/-- The data of the record of granules `g` on has come. -/
def Dev.exportCame (d : Dev) (k g n : Nat) : Prop :=
  (d.flashReads (2 ^ 64 + d.exp.seqNo) 3 k (d.wantFlash k (8 * g) (8 * n)) (exportGrans g n)).1 = true

/-- The row once a record has begun: it is written if its data has come. -/
def Dev.exportGoes (k g n : Nat) (blks : List Blk) (d : Dev) : Dev :=
  let r := d.flashReads (2 ^ 64 + d.exp.seqNo) 3 k (d.wantFlash k (8 * g) (8 * n)) (exportGrans g n)
  if !r.1 then r.2 else if !true then d.exportFault else d.exportWrite g n blks

theorem Dev.exportGoes_came {k g n : Nat} (h : d.exportCame k g n) (blks : List Blk) : d.exportGoes k g n blks = d.exportWrite g n blks := by
  unfold Dev.exportGoes
  dsimp only
  rw [show (d.flashReads (2 ^ 64 + d.exp.seqNo) 3 k (d.wantFlash k (8 * g) (8 * n)) (exportGrans g n)).1 = true from h]
  rfl

theorem Dev.exportGoes_waits {k g n : Nat} (h : ¬d.exportCame k g n) (blks : List Blk) : d.Fetches (d.exportGoes k g n blks) := by
  unfold Dev.exportGoes
  dsimp only
  rw [Bool.eq_false_iff.mpr (show ¬(d.flashReads (2 ^ 64 + d.exp.seqNo) 3 k (d.wantFlash k (8 * g) (8 * n)) (exportGrans g n)).1 = true from h)]
  exact (Dev.PortFrame.flashReads d _ _ _ _ _).fetches

/-- A record begun on a device that the lookups and the credit have reached. -/
theorem Dev.exportBegun (hlook : d.SameFlash e) (hfetch : d.Fetches e) (k g n : Nat) (blks : List Blk) :
    (d.exportCame k g n → d.Recorded ((e.exportBegin g n).exportGoes k g n blks) g n) ∧
    (¬d.exportCame k g n → (∃ bs, ((e.exportBegin g n).exportGoes k g n blks).exp.cur = some (g, n, bs)) ∧
      ((e.exportBegin g n).exportGoes k g n blks).exp.tick = d.tick ∧ ((e.exportBegin g n).exportGoes k g n blks).reg Reg.VSL_EXP_PROD = d.reg Reg.VSL_EXP_PROD) := by
  obtain ⟨hsame, hout, hreg, hseq, hcur, htick, hstops⟩ := e.exportBegin_spec g n
  have hexp : e.exp = d.exp := congrArg (·.exp) hfetch.kept
  have hk := Dev.KeepsExport.of_fetches hfetch
  have hcame : (e.exportBegin g n).exportCame k g n ↔ d.exportCame k g n := by
    have hall := hlook.trans hsame
    unfold Dev.exportCame
    rw [hseq, hexp, hall.wantFlash, hall.came]
  have ht : e.tick = d.tick := congrArg (·.tick) hfetch.kept
  generalize e.exportBegin g n = b at hcame hout hreg hseq hcur htick hstops
  have hfld : ∀ off hi lo, b.fld off hi lo = e.fld off hi lo := fun off hi lo => Dev.fld_congr (hreg off) hi lo
  constructor
  · intro h
    rw [Dev.exportGoes_came (hcame.mpr h)]
    obtain ⟨h1, h2, h3, h4, ⟨r, h5⟩, h6⟩ := b.exportWrite_spec g n blks
    have hget : b.get64 Reg.VSL_EXP_RING_LO Reg.VSL_EXP_RING_HI = d.get64 Reg.VSL_EXP_RING_LO Reg.VSL_EXP_RING_HI := by
      rw [← hk.get64, Dev.get64, hfld, hfld, Dev.get64]
    rw [hfld, hk.fld Reg.VSL_EXP_PROD] at h1
    rw [hseq, hexp] at h2
    rw [hfld, hk.fld Reg.VSL_EXP_CTL, hfld, hk.fld Reg.VSL_EXP_SLOTS, hseq, hexp, hget] at h5
    rw [hstops, hexp] at h6
    exact ⟨h1, h2, h3, h4, ⟨r, Dev.tells_within (hfetch.out.trans hout) h5 List.prefix_rfl⟩, h6⟩
  · intro h
    have hf := Dev.exportGoes_waits (fun h' => h (hcame.mp h')) blks
    have hkb := Dev.KeepsExport.of_fetches hf
    obtain ⟨bs, hbs⟩ := hcur
    exact ⟨⟨bs, (congrArg (·.cur) hkb.exp).trans hbs⟩, (congrArg (·.tick) hkb.exp).trans (htick.trans ht),
      (hkb.reg _ (by decide) (by decide) (by decide)).trans ((hreg _).trans (hk.reg _ (by decide) (by decide) (by decide)))⟩

section
variable (hon : d.flag Reg.VSL_EXP_STS 0 = true) (hvsl : d.vslStop = false) (hmap : d.mapHeld = false) (hstk : d.stkHeld = false)
  (hup : d.headUp (d.fld Reg.VSL_EXP_CTL 3 2) = true)
include hon hvsl hmap hstk hup

theorem doExportRecord_goesOn {g n : Nat} {blks : List Blk} (hcur : d.exp.cur = some (g, n, blks)) :
    doExportRecord true d = d.exportGoes (d.fld Reg.VSL_EXP_CTL 13 4) g n blks := by
  unfold doExportRecord
  extract_lets s stop
  rw [if_neg (by simp [hon, hvsl, hmap, hstk, hup])]
  rw [hcur]
  rfl

theorem doExportRecord_full (hcur : d.exp.cur = none)
    (hfull : (d.fld Reg.VSL_EXP_PROD 31 0 + 2 ^ 32 - d.fld Reg.VSL_EXP_CONS 31 0) % 2 ^ 32 = d.fld Reg.VSL_EXP_SLOTS 15 0) :
    doExportRecord true d = if d.flag Reg.VSL_EXP_STS 2 then d else (d.setFlag Reg.VSL_EXP_STS 2 true).raise 0x301 1 := by
  unfold doExportRecord
  extract_lets s stop
  rw [if_neg (by simp [hon, hvsl, hmap, hstk, hup])]
  rw [hcur]
  exact if_pos hfull

variable (hcur : d.exp.cur = none) (hroom : (d.fld Reg.VSL_EXP_PROD 31 0 + 2 ^ 32 - d.fld Reg.VSL_EXP_CONS 31 0) % 2 ^ 32 ≠ d.fld Reg.VSL_EXP_SLOTS 15 0)
include hcur hroom

theorem doExportRecord_ends
    (hrun : (d.exportRun (d.fld Reg.VSL_EXP_CTL 13 4) d.exp.cursor (d.get64 Reg.VSL_EXP_END_LO Reg.VSL_EXP_END_HI)).2 = 0) :
    doExportRecord true d = (d.exportCursor (d.get64 Reg.VSL_EXP_END_LO Reg.VSL_EXP_END_HI)).exportOver true := by
  unfold doExportRecord
  extract_lets s stop run g0 n gs
  rw [if_neg (by simp [hon, hvsl, hmap, hstk, hup])]
  rw [hcur]
  dsimp only
  rw [if_neg hroom]
  exact if_pos hrun

theorem doExportRecord_begins {g n : Nat}
    (hrun : d.exportRun (d.fld Reg.VSL_EXP_CTL 13 4) d.exp.cursor (d.get64 Reg.VSL_EXP_END_LO Reg.VSL_EXP_END_HI) = (g, n)) (hn : 0 < n)
    (hgroups : d.groupsOn (d.fld Reg.VSL_EXP_CTL 13 4) (lbasOf (8 * g) (8 * n)) = true) (hshare : d.shareOpen (d.fld Reg.VSL_EXP_CTL 13 4) = true)
    (hcredit : (d.takeCredit 3 (8 * n) exportUnit).1 = true) (hhere : ∀ x ∈ exportGrans g n, d.entHere (d.fld Reg.VSL_EXP_CTL 13 4) x = true) :
    ∃ e blks, d.SameFlash e ∧ d.Fetches e ∧ doExportRecord true d = (e.exportBegin g n).exportGoes (d.fld Reg.VSL_EXP_CTL 13 4) g n blks := by
  obtain ⟨hfirst, hlook⟩ := Dev.Looks.lookup (d := d) (d.fld Reg.VSL_EXP_CTL 13 4) 3 (!d.exp.looked) hhere
  obtain ⟨l, hl⟩ : ∃ l, l = d.lookup (d.fld Reg.VSL_EXP_CTL 13 4) 3 (!d.exp.looked) (exportGrans g n) := ⟨_, rfl⟩
  rw [← hl] at hfirst hlook
  have htake : (l.2.takeCredit 3 (8 * n) exportUnit).1 = true := (Dev.takeCredit_congr hlook.credit hlook.dumping _ _ _).trans hcredit
  refine ⟨(l.2.takeCredit 3 (8 * n) exportUnit).2, (lbasOf (8 * g) (8 * n)).map
    (((l.2.takeCredit 3 (8 * n) exportUnit).2.exportBegin g n).servedBlk (d.fld Reg.VSL_EXP_CTL 13 4)), hlook.flash.trans (.takeCredit l.2 _ _ _),
    hlook.fetches.trans (Dev.PortFrame.takeCredit l.2 _ _ _).fetches, ?_⟩
  unfold doExportRecord
  extract_lets s stop run g0 n' gs tl x y tc b r
  have hrun' : run = (g, n) := hrun
  have hg0 : g0 = g := congrArg (·.1) hrun'
  have hn' : n' = n := congrArg (·.2) hrun'
  have hgs : gs = exportGrans g n := by simp only [gs, hg0, hn', exportGrans]
  have htl : tl = l := by rw [hl, ← hgs]
  have htc : tc = l.2.takeCredit 3 (8 * n) exportUnit := by rw [← htl, ← hn']
  have hb : b = (l.2.takeCredit 3 (8 * n) exportUnit).2.exportBegin g n := by rw [← htc, ← hg0, ← hn']
  have hr : r = b.flashReads (2 ^ 64 + b.exp.seqNo) 3 s (b.wantFlash s (8 * g) (8 * n)) (exportGrans g n) := by rw [← hgs, ← hg0, ← hn']
  clear_value r b tc tl gs g0 n'
  rw [if_neg (by simp [hon, hvsl, hmap, hstk, hup])]
  rw [hcur]
  dsimp only
  rw [if_neg hroom, hg0, hn', if_neg (Nat.pos_iff_ne_zero.mp hn), if_neg (by simp [s, hgroups, hshare]), if_neg (by rw [htl, hfirst]; decide),
    if_neg (by rw [htc, htake]; decide), ← hb, hr]
  rfl

end

end

/-- The row, in each of its cases. -/
theorem exportRecord_spec (s : State) (hrunning : s.running) (hon : s.dev.flag Reg.VSL_EXP_STS 0 = true) (hvsl : s.dev.vslStop = false)
    (hmap : s.dev.mapHeld = false) (hstk : s.dev.stkHeld = false) (hup : s.dev.headUp (s.dev.fld Reg.VSL_EXP_CTL 3 2) = true) :
    let k := s.dev.fld Reg.VSL_EXP_CTL 13 4
    let full := (s.dev.fld Reg.VSL_EXP_PROD 31 0 + 2 ^ 32 - s.dev.fld Reg.VSL_EXP_CONS 31 0) % 2 ^ 32 = s.dev.fld Reg.VSL_EXP_SLOTS 15 0
    let run := s.dev.exportRun k s.dev.exp.cursor (s.dev.get64 Reg.VSL_EXP_END_LO Reg.VSL_EXP_END_HI)
    let isRecord : Out → Bool := fun o => match o with | .exportRecord _ _ _ _ => true | _ => false
    (∀ g n blks, s.dev.exp.cur = some (g, n, blks) → s.dev.exportCame k g n →
      ∃ t, exec (.exportRecord true) s = .next t ∧ s.dev.Recorded t.dev g n) ∧
    (s.dev.exp.cur = none → full → ∃ t, exec (.exportRecord true) s = .next t ∧ t.dev.flag Reg.VSL_EXP_STS 2 = true ∧ t.dev.exp = s.dev.exp ∧
      t.dev.out.filter isRecord = s.dev.out.filter isRecord) ∧
    (s.dev.exp.cur = none → ¬full → run.2 = 0 → ∃ t, exec (.exportRecord true) s = .next t ∧ t.dev.flag Reg.VSL_EXP_STS 0 = false ∧
      t.dev.flag Reg.VSL_EXP_STS 1 = true ∧ t.dev.exp.cursor = s.dev.get64 Reg.VSL_EXP_END_LO Reg.VSL_EXP_END_HI) ∧
    (s.dev.exp.cur = none → ¬full → 0 < run.2 → s.dev.groupsOn k (lbasOf (8 * run.1) (8 * run.2)) = true → s.dev.shareOpen k = true →
      (s.dev.takeCredit 3 (8 * run.2) exportUnit).1 = true → (∀ g ∈ exportGrans run.1 run.2, s.dev.entHere k g = true) →
      (s.dev.exportCame k run.1 run.2 → ∃ t, exec (.exportRecord true) s = .next t ∧ s.dev.Recorded t.dev run.1 run.2) ∧
      (¬s.dev.exportCame k run.1 run.2 → ∃ t bs, exec (.exportRecord true) s = .next t ∧ t.dev.exp.cur = some (run.1, run.2, bs) ∧
        t.dev.exp.tick = s.dev.tick ∧ t.dev.reg Reg.VSL_EXP_PROD = s.dev.reg Reg.VSL_EXP_PROD)) := by
  intro k full run isRecord
  have hexec := act_of_running s (doExportRecord true) hrunning
  refine ⟨fun g n blks hcur hcame => ⟨_, hexec, ?_⟩, fun hcur hfull => ⟨_, hexec, ?_⟩, fun hcur hroom hend => ⟨_, hexec, ?_⟩,
    fun hcur hroom hn hgroups hshare hcredit hhere => ?_⟩
  · show s.dev.Recorded (doExportRecord true s.dev) g n
    rw [doExportRecord_goesOn hon hvsl hmap hstk hup hcur, Dev.exportGoes_came hcame]
    exact s.dev.exportWrite_spec g n blks
  · show (doExportRecord true s.dev).flag _ _ = true ∧ (doExportRecord true s.dev).exp = _ ∧ (doExportRecord true s.dev).out.filter isRecord = _
    rw [doExportRecord_full hon hvsl hmap hstk hup hcur hfull]
    split
    · next h => exact ⟨h, rfl, rfl⟩
    · have hrep := Dev.Reports.raise (s.dev.setFlag Reg.VSL_EXP_STS 2 true) 0x301 1
      exact ⟨(Dev.flag_congr (hrep.regs _ (by decide)) 2).trans (Dev.flag_setFlag_self s.dev _ _ _ (by decide)), congrArg (·.exp) hrep.kept,
        Dev.filter_raise (fun _ _ => rfl) (s.dev.setFlag Reg.VSL_EXP_STS 2 true) 0x301 1⟩
  · show (doExportRecord true s.dev).flag _ _ = false ∧ (doExportRecord true s.dev).flag _ _ = true ∧ (doExportRecord true s.dev).exp.cursor = _
    rw [doExportRecord_ends hon hvsl hmap hstk hup hcur hroom hend]
    obtain ⟨hexp, -, hoff, -, hdone⟩ := (s.dev.exportCursor (s.dev.get64 Reg.VSL_EXP_END_LO Reg.VSL_EXP_END_HI)).exportOver_spec true
    exact ⟨hoff, hdone rfl, congrArg (·.cursor) hexp⟩
  · obtain ⟨e, blks, hsame, hfetch, hdo⟩ := doExportRecord_begins hon hvsl hmap hstk hup hcur hroom (show _ = (run.1, run.2) from rfl) hn hgroups hshare hcredit hhere
    obtain ⟨hw, hnw⟩ := Dev.exportBegun hsame hfetch k run.1 run.2 blks
    rw [← hdo] at hw hnw
    refine ⟨fun h => ⟨_, hexec, hw h⟩, fun h => ?_⟩
    obtain ⟨⟨bs, hbs⟩, htick, hprod⟩ := hnw h
    exact ⟨_, bs, hexec, hbs, htick, hprod⟩

/-- Settles O21: the lookups and the credit of a record leave the flash as reads see it, so that its data has come when it had, and nothing that a
record's writing passes through touches the export's registers. -/
theorem sliceSettingsAndExport : Obligations.SliceSettingsAndExport := by
  intro s v hrun sl x
  refine ⟨shareWrite_spec s v hrun, blksHiWrite_spec s v hrun, fun ho => blksLoWrite_spec s v hrun ho, fun k n => blksShrinkApply_spec s hrun k n, ?_, ?_, ?_, ?_⟩
  · intro start stop ho hv hoff h1 h2 h3 h4 h5 h6 h7
    exact exportStart_spec s v hrun ho hv hoff ⟨h1, h2, h3, h4, h5, h6, h7⟩
  · exact fun ho => exportStop_spec s v hrun ho
  · intro hon hvsl hmap hstk hup k prod slots run gran came written
    obtain ⟨hgo, hfull, hend, hbegin⟩ := exportRecord_spec s hrun hon hvsl hmap hstk hup
    have hwritten : ∀ g n t, s.dev.Recorded t.dev g n → written g n t := fun g n t h => ⟨h.prod, h.seqNo, h.cursor, h.cur, h.record⟩
    refine ⟨fun g n blks hcur hcame => ?_, hfull, hend, fun hcur hroom hn hgroups hshare hcredit hhere => ?_⟩
    · obtain ⟨t, ht, hrec⟩ := hgo g n blks hcur hcame
      exact ⟨t, ht, hwritten g n t hrec, hrec.stops⟩
    · obtain ⟨hw, hnw⟩ := hbegin hcur hroom hn hgroups hshare hcredit hhere
      refine ⟨fun h => ?_, hnw⟩
      obtain ⟨t, ht, hrec⟩ := hw h
      exact ⟨t, ht, hwritten _ _ t hrec⟩
  · exact fun ho => exportConsWrite_spec s v hrun ho

end Sys2Proof.Machine
end

section
/-! The map's pages: load, loss and writeback (R196 to R201). -/

namespace Sys2Proof.Machine

-- In order, one declaration at a time: keeps the check within its memory limit.
set_option Elab.async false

section
variable {d e t : Dev}

/-! ### Room in the map cache -/

theorem Dev.PortFrame.mapRoom (h : d.Serves t) : t.mapRoom = d.mapRoom := by
  have hk := congrArg (fun x : Dev => (x.resident, x.metaAt, x.hbmRetired, x.refBits, x.slices, x.metaBack, x.mapPend, x.dirty)) h.kept
  simp only [Dev.sansServe, Prod.mk.injEq] at hk
  obtain ⟨hres, hmeta, hret, href, hsl, hback, hpend, hdirty⟩ := hk
  have hevict : t.mayEvict = d.mayEvict := by
    funext k
    rw [Dev.mayEvict, Dev.pinned, Dev.inBack, hsl, hback, hpend, Dev.mayEvict, Dev.pinned, Dev.inBack]
  have hvictim : t.sweepVictim = d.sweepVictim := by rw [Dev.sweepVictim, hres, hevict, href, Dev.sweepVictim]
  have hfull : t.mapFull = d.mapFull := by rw [Dev.mapFull, Dev.mapSlots, Dev.dirSlots, hres, hmeta, hret, Dev.mapFull, Dev.mapSlots, Dev.dirSlots]
  rw [Dev.mapRoom, hfull, hvictim, hdirty, Dev.mapRoom]

/-- A page that finds room is made resident, and is waited for no longer. -/
theorem Dev.makeResident_room (d : Dev) {pk : Nat} (hr : d.mapRoom = true) (hnew : pk ∉ d.resident) :
    pk ∈ (d.makeResident pk).resident ∧ (d.makeResident pk).mapWant.find pk = none ∧ (d.makeResident pk).map = d.map ∧
      (d.makeResident pk).metaAt = d.metaAt ∧ (d.makeResident pk).lost = d.lost := by
  unfold Dev.makeResident
  rw [if_neg (by simp [hr, hnew])]
  have hput : ∀ e : Dev, pk ∈ ({ e with resident := e.resident ++ [pk], mapWant := e.mapWant.erase pk } : Dev).resident := fun e => by simp
  have hwant : ∀ e : Dev, ({ e with resident := e.resident ++ [pk], mapWant := e.mapWant.erase pk } : Dev).mapWant.find pk = none := fun e => SMap.find_erase_self _ _
  split
  · exact ⟨hput _, hwant _, rfl, rfl, rfl⟩
  · exact ⟨hput _, hwant _, rfl, rfl, rfl⟩

/-- What is known of the map besides its cache. -/
def Dev.mapFacts (d : Dev) : SMap MapEnt × SMap (List Nat) × List Nat := (d.map, d.metaAt, d.lost)

theorem Dev.mapLoaded_spec (d : Dev) {pk : Nat} (hr : d.mapRoom = true) (hnew : pk ∉ d.resident) :
    pk ∈ (d.mapLoaded pk).resident ∧ (d.mapLoaded pk).mapWant.find pk = none ∧ (d.mapLoaded pk).mapFacts = d.mapFacts ∧ ∀ pg, (d.page pg).Later ((d.mapLoaded pk).page pg) := by
  unfold Dev.mapLoaded
  obtain ⟨e, he⟩ : ∃ e, e = (d.dropOwned (mapOwner pk)).freeCredit (fun u => u == metaUnit pk) := ⟨_, rfl⟩
  have hs : d.Serves e := by
    rw [he]
    exact (Dev.PortFrame.dropOwned d _).trans (.freeCredit _ _)
  rw [← he]
  have hres : e.resident = d.resident := congrArg (·.resident) hs.kept
  obtain ⟨h1, h2, h3, h4, h5⟩ := e.makeResident_room (hs.mapRoom.trans hr) (by rwa [hres])
  have hfacts : e.mapFacts = d.mapFacts := by
    have hk := congrArg (fun x : Dev => x.mapFacts) hs.kept
    exact hk
  have hio : ∀ (x : Dev) p, (x.ioFrom p).resident = x.resident ∧ (x.ioFrom p).mapWant = x.mapWant ∧ (x.ioFrom p).mapFacts = x.mapFacts ∧ (x.ioFrom p).pages = x.pages :=
    fun _ _ => ⟨rfl, rfl, rfl, rfl⟩
  obtain ⟨i1, i2, i3, i4⟩ := hio (e.makeResident pk) (fun q c => q / 16 == pk / 2 ^ 25 && c.looked && !c.passed)
  refine ⟨by rw [i1]; exact h1, by rw [i2]; exact h2, i3.trans ?_, fun pg => ?_⟩
  · rw [Dev.mapFacts, h3, h4, h5]
    exact hfacts
  · have hpage : ((e.makeResident pk).ioFrom (fun q c => q / 16 == pk / 2 ^ 25 && c.looked && !c.passed)).page pg = (e.makeResident pk).page pg := by
      rw [Dev.page, i4, Dev.page]
    rw [hpage]
    exact (hs.page pg).trans ((Dev.Posts.makeResident e pk).page pg)

/-! ### Load (R196, R197) -/

/-- The codewords of one copy of a page, served in turn. -/
def Dev.serveCopy (d : Dev) (w c : Nat) : Dev := (List.range 16).foldl (fun (d : Dev) col => (d.serveCw w (c / 32 / 4096) (c / 32 % 4096) (c % 32) col).2) d

theorem Dev.PortFrame.serveCopy (d : Dev) (w c : Nat) : d.Serves (d.serveCopy w c) := .foldl (fun e _ => .serveCw e _ _ _ _ _) _ _

/-- The copy's codewords have all come. -/
def Dev.copyCame (d : Dev) (pk c : Nat) : Prop := ∀ col < 16, d.cwReady (mapOwner pk) (c / 32 / 4096) (c / 32 % 4096) (c % 32) col = true

/-- What a load that waits keeps. -/
def Dev.mapCache (d : Dev) : List Nat × SMap Nat × SMap MapEnt := (d.resident, d.mapWant, d.map)

/-- A page's copy `c` is read: it loads once its codewords have all come. -/
def Dev.mapLoadFrom (d : Dev) (pk cls c : Nat) : Dev :=
  let t := d.takeCredit 8 16 (metaUnit pk)
  let d := t.2
  if !t.1 then d
  else
    let w := mapOwner pk
    let b := c / 32 / 4096
    let k := c / 32 % 4096
    let j := c % 32
    let todo := (List.range 16).filter (fun col => !d.cwReady w b k j col)
    if todo.isEmpty then (d.serveCopy w c).mapLoaded pk
    else
      let want := todo.flatMap (d.needs w b k j)
      let off := (want.map (fun x => (d.setAtPos b x.1).port / 8)).filter (fun g => d.domSt g != 0)
      let d := (off.foldl insertSorted []).foldl (fun (d : Dev) g => d.wakeDomain g) d
      d.dealReads w cls 0 b k j (d.band b).slc (granKey (pk / 2 ^ 25) (pk % 2 ^ 25), 0) .host want

theorem Dev.mapLoadFrom_loads {pk cls c : Nat} (htake : (d.takeCredit 8 16 (metaUnit pk)).1 = true) (hcame : d.copyCame pk c) :
    d.mapLoadFrom pk cls c = ((d.takeCredit 8 16 (metaUnit pk)).2.serveCopy (mapOwner pk) c).mapLoaded pk := by
  unfold Dev.mapLoadFrom
  extract_lets tc d1 w b k j todo want off d2
  have htodo : todo.isEmpty = true := by
    rw [List.isEmpty_iff, List.filter_eq_nil_iff]
    intro col hcol
    rw [(Dev.SameFlash.takeCredit d 8 16 (metaUnit pk)).cwReady, hcame col (List.mem_range.mp hcol)]
    decide
  rw [if_neg (by simp [tc, htake]), if_pos htodo]

theorem Dev.mapLoadFrom_waits {pk cls c : Nat} (hcame : ¬d.copyCame pk c) : (d.mapLoadFrom pk cls c).mapCache = d.mapCache := by
  have hserves : ∀ {x y : Dev}, x.Serves y → y.mapCache = x.mapCache := fun h => by
    have hk := congrArg (fun x : Dev => x.mapCache) h.kept
    exact hk
  have hwakes : ∀ {x y : Dev}, x.Wakes y → y.mapCache = x.mapCache := fun h => by
    have hk := congrArg (fun x : Dev => x.mapCache) h.kept
    exact hk
  unfold Dev.mapLoadFrom
  extract_lets tc d1 w b k j todo want off d2
  have h1 : d1.mapCache = d.mapCache := hserves (.takeCredit d 8 16 (metaUnit pk))
  have htodo : todo.isEmpty = false := by
    rw [Bool.eq_false_iff]
    intro he
    refine hcame (fun col hcol => ?_)
    rw [List.isEmpty_iff, List.filter_eq_nil_iff] at he
    have h := he col (List.mem_range.mpr hcol)
    rw [(Dev.SameFlash.takeCredit d 8 16 (metaUnit pk)).cwReady] at h
    simpa using h
  have h2 : d2.mapCache = d1.mapCache := hwakes (.foldl (fun e g => .wakeDomain e g) _ d1)
  split
  · exact h1
  · rw [if_neg (by rw [htodo]; decide)]
    exact (hserves (.dealReads d2 _ _ _ _ _ _ _ _ _ _)).trans (h2.trans h1)

theorem Dev.mapLoadStep_found {pk cls c : Nat} (hw : d.mapWant.find pk = some cls) (hstop : d.mapStop = false) (hroom : d.mapRoom = true)
    (hc : (SMap.get (fun _ => []) d.metaAt pk).find? (fun c => !d.copyLost c) = some c) : d.mapLoadStep pk = d.mapLoadFrom pk cls c := by
  unfold Dev.mapLoadStep
  rw [hw]
  dsimp only
  rw [if_neg (by simp [hstop, hroom]), hc]
  rfl

theorem Dev.mapLoadStep_none {pk cls : Nat} (hw : d.mapWant.find pk = some cls) (hstop : d.mapStop = false) (hroom : d.mapRoom = true)
    (hc : (SMap.get (fun _ => []) d.metaAt pk).find? (fun c => !d.copyLost c) = none) : d.mapLoadStep pk = d.mapLost pk (SMap.get (fun _ => []) d.metaAt pk) := by
  unfold Dev.mapLoadStep
  rw [hw]
  dsimp only
  rw [if_neg (by simp [hstop, hroom]), hc]

/-! ### Loss (R196) -/

theorem Dev.page_incident {pg : Nat} (h0 : pg ≠ 0xF00) (h1 : pg ≠ 0xF57) (h2 : pg ≠ 0xD00) (d : Dev) (blk code i0 i1 : Nat) (slice lba loc page : Option Nat) :
    (d.incident blk code i0 i1 slice lba loc page).page pg = d.page pg := by
  have hcap : ∀ (e : Dev) (x : Cap), ({ e with cap := x } : Dev).page pg = e.page pg := fun _ _ => rfl
  have hstop : ∀ e : Dev, e.capStop.page pg = e.page pg := fun e => by
    unfold Dev.capStop
    split
    · exact (hcap _ _).trans (Dev.page_raise_ne _ h1 _ h2)
    · rfl
  have htrig : ∀ e : Dev, e.capTrigger.page pg = e.page pg := fun e => by
    unfold Dev.capTrigger
    extract_lets n e0 x e1
    have he1 : e1.page pg = e.page pg := (hcap _ _).trans (Dev.page_raise_ne _ h1 _ h2)
    split
    · exact (hstop e1).trans he1
    · exact he1
  have hlog : ∀ (e : Dev) (x : Incident), (e.logIncident x).page pg = e.page pg := fun e x => by
    unfold Dev.logIncident
    extract_lets trig e1 n e2 first e3
    have he1 : e1.page pg = e.page pg := by
      by_cases ht : trig = true
      · rw [show e1 = e.capTrigger from if_pos ht, htrig]
      · rw [show e1 = e from if_neg ht]
    clear_value e1
    split
    · exact he1
    · split
      · exact (Dev.page_raise_ne e3 h0 _ h2).trans he1
      · exact he1
  unfold Dev.incident
  dsimp only
  split
  · rfl
  · exact hlog d _

theorem Dev.page_serveCw {pg : Nat} (h0 : pg ≠ 0xF00) (h1 : pg ≠ 0xF57) (h2 : pg ≠ 0xD00) (h3 : pg ≠ 0xB00) (d : Dev) (w band stripe pos col : Nat) :
    (d.serveCw w band stripe pos col).2.page pg = d.page pg := by
  have hcw : ∀ (e : Dev) key, (e.poisonCw key col).page pg = e.page pg := fun e key => by
    unfold Dev.poisonCw
    extract_lets f bad
    split
    · rfl
    · split
      · split
        · split <;> rfl
        · rfl
      · split
        · split <;> rfl
        · rfl
  have hcolumn : (d.poisonColumn band stripe col).page pg = d.page pg := by
    unfold Dev.poisonColumn
    extract_lets d1
    have hd1 : d1.page pg = d.page pg := List.foldlRecOn (motive := fun e : Dev => e.page pg = d.page pg) _ _ rfl (fun e he j _ => (hcw e _).trans he)
    clear_value d1
    exact (Dev.page_raise_ne _ h3 _ h2).trans ((Dev.page_incident h0 h1 h2 _ _ _ _ _ _ _ _ _).trans ((Dev.page_recordErr_ne d1 h3 _ _ _).trans hd1))
  have hrec : (d.reconstruct band stripe col).2.page pg = d.page pg := by
    unfold Dev.reconstruct
    split
    · exact hcolumn
    · rfl
  unfold Dev.serveCw
  split
  · split
    · rfl
    · exact hrec
  · split <;> rfl

theorem Dev.mapLost_spec (d : Dev) {pk : Nat} (copies : List Nat) (hr : d.mapRoom = true) (hnew : pk ∉ d.resident) (herr : (d.page 0x500).err = false) :
    pk ∈ (d.mapLost pk copies).resident ∧ (∀ g ∈ d.mappedIn pk, g ∈ (d.mapLost pk copies).lost) ∧ ((d.mapLost pk copies).page 0x500).errCode = 0x0103 ∧
      bitAt ((d.mapLost pk copies).page 0x500).intPend 4 = true := by
  unfold Dev.mapLost
  extract_lets d1 d2
  have hs : d.Serves d1 := .foldl (fun e c => .serveCopy e (mapOwner pk) c) _ _
  have hp : d1.page 0x500 = d.page 0x500 := List.foldlRecOn (motive := fun e : Dev => e.page 0x500 = d.page 0x500) _ _ rfl (fun e he c _ =>
    List.foldlRecOn (motive := fun e : Dev => e.page 0x500 = d.page 0x500) _ _ he (fun x hx col _ =>
      (Dev.page_serveCw (by decide) (by decide) (by decide) (by decide) x _ _ _ _ _).trans hx))
  clear_value d1
  have hroom1 : d1.mapRoom = true := hs.mapRoom.trans hr
  have hres1 : d1.resident = d.resident := congrArg (·.resident) hs.kept
  have hmap1 : d1.map = d.map := congrArg (·.map) hs.kept
  have hin : d1.mappedIn pk = d.mappedIn pk := by rw [Dev.mappedIn, hmap1, Dev.mappedIn]
  have h2 : d2.mapRoom = d1.mapRoom ∧ d2.resident = d1.resident ∧ d2.page 0x500 = d1.page 0x500 ∧ d2.lost = (d1.mappedIn pk).foldl insertSorted d1.lost := ⟨rfl, rfl, rfl, rfl⟩
  clear_value d2
  obtain ⟨hroom2, hres2, hpage2, hlost2⟩ := h2
  have herr2 : (d2.page 0x500).err = false := by rw [hpage2, hp]; exact herr
  obtain ⟨e, he⟩ : ∃ e, e = d2.errIncident 0x500 0x0103 (pk / 2 ^ 25) (pk % 2 ^ 25) (some (pk / 2 ^ 25)) none none none := ⟨_, rfl⟩
  have hrep : d2.Reports e := by
    rw [he]
    exact Dev.Reports.errIncident d2 _ _ _ _ _ _ _ _
  have herrE : (e.page 0x500).err = true ∧ (e.page 0x500).errCode = 0x0103 := by
    rw [he]
    unfold Dev.errIncident
    rw [Dev.page_incident (by decide) (by decide) (by decide), Dev.page_recordErr_first d2 _ _ _ _ herr2]
    exact ⟨rfl, rfl⟩
  rw [← he]
  clear he
  have hrep2 := Dev.Reports.raise e 0x500 4
  have hbit := Dev.intPend_raise e 0x500 4 (by decide)
  generalize e.raise 0x500 4 = r at hrep2 hbit
  have hsr : d2.Serves r := .of_reports (hrep.trans hrep2)
  have hresr : r.resident = d2.resident := congrArg (·.resident) hsr.kept
  obtain ⟨l1, -, l3, l4⟩ := r.mapLoaded_spec (pk := pk) (hsr.mapRoom.trans (hroom2.trans hroom1)) (by rw [hresr, hres2, hres1]; exact hnew)
  have hlostr : r.lost = d2.lost := congrArg (·.lost) hsr.kept
  obtain ⟨hre, hrc, -⟩ := (hrep2.page 0x500).1 herrE.1
  obtain ⟨-, hcode, -⟩ := (l4 0x500).1 hre
  refine ⟨l1, fun g hg => ?_, hcode.trans (hrc.trans herrE.2), (l4 0x500).2 4 (by rw [hbit]; exact (bitAt_putBit _ 4 4 true (by decide)).trans (if_pos rfl))⟩
  have hl : (r.mapLoaded pk).lost = r.lost := congrArg (fun x => x.2.2) l3
  rw [hl, hlostr, hlost2, hin]
  exact mem_foldl_insertSorted hg _

/-! ### Writeback (R198 to R200) -/

/-- From `d` to `t` the map, its pages on flash, its dirty pages and the write cache stay. -/
structure Dev.KeepsMap (d t : Dev) : Prop where
  dirty : t.dirty = d.dirty
  map : t.map = d.map
  metaAt : t.metaAt = d.metaAt
  cache : t.cache = d.cache

theorem Dev.KeepsMap.refl (d : Dev) : d.KeepsMap d := ⟨rfl, rfl, rfl, rfl⟩

theorem Dev.KeepsMap.trans (h : d.KeepsMap e) (h' : e.KeepsMap t) : d.KeepsMap t := ⟨h'.dirty.trans h.dirty, h'.map.trans h.map, h'.metaAt.trans h.metaAt,
  h'.cache.trans h.cache⟩

theorem Dev.KeepsMap.ite {c : Prop} [Decidable c] (h : d.KeepsMap e) (h' : d.KeepsMap t) : d.KeepsMap (if c then e else t) := by
  split
  · exact h
  · exact h'

theorem Dev.KeepsMap.foldl {α : Type} {f : Dev → α → Dev} (h : ∀ (e : Dev) x, e.KeepsMap (f e x)) (l : List α) (d : Dev) : d.KeepsMap (l.foldl f d) :=
  List.foldlRecOn (motive := fun e : Dev => d.KeepsMap e) l f (.refl d) (fun e he x _ => he.trans (h e x))

theorem Dev.KeepsMap.of_serves (h : d.Serves t) : d.KeepsMap t := ⟨congrArg (·.dirty) h.kept, congrArg (·.map) h.kept, congrArg (·.metaAt) h.kept,
  congrArg (·.cache) h.kept⟩

theorem Dev.KeepsMap.setReg (d : Dev) (off : Nat) (v : Word) : d.KeepsMap (d.setReg off v) := ⟨rfl, rfl, rfl, rfl⟩

theorem Dev.KeepsMap.setFld (d : Dev) (off hi lo v : Nat) : d.KeepsMap (d.setFld off hi lo v) := ⟨rfl, rfl, rfl, rfl⟩

theorem Dev.KeepsMap.respace (d : Dev) : d.KeepsMap d.respace := by
  unfold Dev.respace
  extract_lets bs withdrawn nS nMeta nQ nSlc d1 d2 d3 d4 d5 d6 d7 d8 cLog d9 old new d10 d11 d12
  have h4 : d.KeepsMap d4 := (((Dev.KeepsMap.setFld d _ _ _ _).trans (.setFld d1 _ _ _ _)).trans (.setFld d2 _ _ _ _)).trans (.setFld d3 _ _ _ _)
  have h8 : d4.KeepsMap d8 := (((Dev.KeepsMap.setFld d4 _ _ _ _).trans (.setFld d5 _ _ _ _)).trans (.setFld d6 _ _ _ _)).trans (.setFld d7 _ _ _ _)
  have h9 : d8.KeepsMap d9 := (Dev.KeepsMap.setReg d8 _ _).trans (.setReg _ _ _)
  have hcredit : ∀ (e : Dev) n, e.KeepsMap { e with gcCredit := n } := fun _ _ => ⟨rfl, rfl, rfl, rfl⟩
  have h10 : d9.KeepsMap d10 := .ite (hcredit d9 0) (.refl d9)
  have h12 : d10.KeepsMap d12 := ((Dev.KeepsMap.setReg d10 _ _).trans (.setFld d11 _ _ _ _)).trans (.setFld _ _ _ _ _)
  have hall := (((h4.trans h8).trans h9).trans h10).trans h12
  exact .ite hall (hall.trans (.of_serves (.raise d12 _ _)))

theorem Dev.KeepsMap.setBand (d : Dev) (b : Nat) (x : Band) : d.KeepsMap (d.setBand b x) := ⟨rfl, rfl, rfl, rfl⟩

theorem Dev.KeepsMap.fills (d : Dev) (l : List Fill) : d.KeepsMap { d with fills := l } := ⟨rfl, rfl, rfl, rfl⟩

theorem Dev.KeepsMap.openMeta (d : Dev) (b : Nat) : d.KeepsMap (d.openMeta b) := by
  unfold Dev.openMeta
  extract_lets x d1 d2
  have h2 : d.KeepsMap d2 := (Dev.KeepsMap.setBand d b _).trans (.fills d1 _)
  have hmode : ∀ (e : Dev) k, e.KeepsMap (e.trackerMode true k) := fun _ _ => ⟨rfl, rfl, rfl, rfl⟩
  have htrk : d2.KeepsMap (d2.trackerOpen b true) := .foldl hmode _ d2
  exact ((h2.trans htrk).trans (.of_serves (.journal _ _))).trans (.respace _)

theorem Dev.KeepsMap.queueProgram (d : Dev) (f : Fill) (pos slice : Nat) : d.KeepsMap (d.queueProgram f pos slice) := by
  unfold Dev.queueProgram
  extract_lets s key pg stamp d1
  have h1 : d.KeepsMap d1 := ⟨rfl, rfl, rfl, rfl⟩
  exact h1.trans (.of_serves (.addOp d1 _ _))

theorem Dev.KeepsMap.queueParity (d : Dev) (f : Fill) (slice : Nat) : d.KeepsMap (d.queueParity f slice) := by
  have hbuf : ∀ (e : Dev) m, e.KeepsMap { e with stripeBuf := m } := fun _ _ => ⟨rfl, rfl, rfl, rfl⟩
  exact .foldl (fun e ip => (hbuf e _).trans (.queueProgram _ _ _ _)) _ d

theorem Dev.KeepsMap.fillHalf (d : Dev) (f : Fill) (g : Gran) (cls : Nat) : d.KeepsMap (d.fillHalf f g cls) := by
  unfold Dev.fillHalf
  extract_lets b k pos s key x pg pg' d1 f' padChunk d2 d3 y d4 d5 rest
  have h1 : d.KeepsMap d1 := ⟨rfl, rfl, rfl, rfl⟩
  have h2 : d1.KeepsMap d2 := .ite (.setReg d1 _ _) (.refl d1)
  have h3 : d.KeepsMap d3 := .ite ((h1.trans h2).trans (.queueProgram d2 _ _ _)) h1
  have h4 : d.KeepsMap d4 := h3.trans (.setBand d3 _ _)
  exact .ite ((h4.trans (.queueParity d4 _ _)).trans (.fills d5 _)) (h4.trans (.fills d4 _))

theorem Dev.KeepsMap.metaPut (d : Dev) (b pk cls : Nat) : d.KeepsMap (d.metaPut b pk cls).2 := by
  unfold Dev.metaPut
  extract_lets d1 fill
  have h1 : d.KeepsMap d1 := .ite (.openMeta d b) (.refl d)
  clear_value d1
  cases fill d1 with
  | none => exact h1
  | some f =>
    dsimp only
    have h2 : d.KeepsMap (d1.fillHalf f (d1.metaHalf pk 0) cls) := h1.trans (.fillHalf d1 f _ _)
    split
    · exact h2.trans (.fillHalf _ _ _ _)
    · exact h2

/-- The page that is written back is clean, and waits for its chunks `a` and `b` to be programmed. -/
def Dev.pageBack (d : Dev) (pk a b : Nat) : Dev :=
  let n := (d.dlogRing.filter (fun r => pageKey r.1 r.2.1 == pk && !r.2.2.2)).length
  let d : Dev := { d with
    dirty := d.dirty.filter (fun k => k != pk)
    metaBack := d.metaBack ++ [({ page := pk, recs := n, chunks := [a, b], left := [a, b] } : MetaBack)] }
  d.setFld Reg.MAP_CACHE_DIRTY 20 0 d.dirty.length

theorem Dev.pageBack_spec (d : Dev) (pk a b : Nat) : (d.pageBack pk a b).dirty = d.dirty.filter (fun k => k != pk) ∧
    (∃ m ∈ (d.pageBack pk a b).metaBack, m.page = pk ∧ m.chunks.length = 2 ∧ m.left = m.chunks) ∧ (d.pageBack pk a b).map = d.map ∧
    (d.pageBack pk a b).metaAt = d.metaAt :=
  ⟨rfl, ⟨_, List.mem_append_right _ (List.mem_singleton.mpr rfl), rfl, rfl, rfl⟩, rfl, rfl⟩

theorem doMapPageWriteback_eq {sl page x y : Nat} (hsl : sl < 1024) (hpage : page < 2 ^ 25) (hnext : d.nextBack = some (sl * 2 ^ 25 + page))
    (hstop : d.mapStop = false) (hshf : d.shfStop = false) (hback : d.writesBack = true) (hbands : d.metaBands = some (x, y))
    (htake : (d.takeCredit 8 16 (metaUnit (sl * 2 ^ 25 + page))).1 = true) : ∃ e a b, d.KeepsMap e ∧ doMapPageWriteback sl page d = e.pageBack (sl * 2 ^ 25 + page) a b := by
  obtain ⟨c, hc⟩ : ∃ c, c = d.takeCredit 8 16 (metaUnit (sl * 2 ^ 25 + page)) := ⟨_, rfl⟩
  have hkeep : d.KeepsMap c.2 := by
    rw [hc]
    exact .of_serves (.takeCredit d _ _ _)
  refine ⟨_, (c.2.metaPut x (sl * 2 ^ 25 + page) d.backCls).1, ((c.2.metaPut x (sl * 2 ^ 25 + page) d.backCls).2.metaPut y (sl * 2 ^ 25 + page) d.backCls).1,
    (hkeep.trans (.metaPut c.2 x (sl * 2 ^ 25 + page) d.backCls)).trans (.metaPut _ y (sl * 2 ^ 25 + page) d.backCls), ?_⟩
  unfold doMapPageWriteback
  rw [Nat.mod_eq_of_lt hsl, Nat.mod_eq_of_lt hpage]
  rw [← hc] at htake
  dsimp only
  rw [if_neg (by simp [hnext, hstop, hshf, hback]), hbands]
  dsimp only
  rw [← hc, if_neg (by simp [htake])]
  generalize (c.2.metaPut x (sl * 2 ^ 25 + page) d.backCls) = m
  generalize m.2.metaPut y (sl * 2 ^ 25 + page) d.backCls = n
  rfl

theorem mapPageWriteback_spec {sl page x y : Nat} (hsl : sl < 1024) (hpage : page < 2 ^ 25) (hnext : d.nextBack = some (sl * 2 ^ 25 + page))
    (hstop : d.mapStop = false) (hshf : d.shfStop = false) (hback : d.writesBack = true) (hbands : d.metaBands = some (x, y))
    (htake : (d.takeCredit 8 16 (metaUnit (sl * 2 ^ 25 + page))).1 = true) :
    (doMapPageWriteback sl page d).dirty = d.dirty.filter (fun k => k != sl * 2 ^ 25 + page) ∧
    (∃ m ∈ (doMapPageWriteback sl page d).metaBack, m.page = sl * 2 ^ 25 + page ∧ m.chunks.length = 2 ∧ m.left = m.chunks) ∧
    (doMapPageWriteback sl page d).map = d.map ∧ (doMapPageWriteback sl page d).metaAt = d.metaAt := by
  obtain ⟨e, a, b, hkeep, heq⟩ := doMapPageWriteback_eq hsl hpage hnext hstop hshf hback hbands htake
  obtain ⟨hdirty, hback, hmap, hmeta⟩ := e.pageBack_spec (sl * 2 ^ 25 + page) a b
  rw [heq]
  exact ⟨hdirty.trans (by rw [hkeep.dirty]), hback, hmap.trans hkeep.map, hmeta.trans hkeep.metaAt⟩

theorem doMapPageLoad_eq {sl page : Nat} {cls : Cls} (hsl : sl < 1024) (hpage : page < 2 ^ 25) (hwant : d.mapWant.find (sl * 2 ^ 25 + page) = some (clsNum cls)) :
    doMapPageLoad sl page cls d = d.mapLoadStep (sl * 2 ^ 25 + page) := by
  unfold doMapPageLoad
  rw [Nat.mod_eq_of_lt hsl, Nat.mod_eq_of_lt hpage]
  exact if_neg (by rw [hwant]; simp)

end

/-- Settles O24: a load reads the first copy that is not lost, by codewords that credit leaves as they are; what serving them changes leaves room in the
cache as it is, and a writeback's chunks touch no entry. -/
theorem mapPages : Obligations.MapPages := by
  intro s sl page cls hrun hsl hpage hstop pk copies here
  have hload := act_of_running s (doMapPageLoad sl page cls) hrun
  refine ⟨fun hwant hroom hnew => ⟨fun c hc htake => ⟨fun hhere => ⟨_, hload, ?_⟩, fun hhere => ⟨_, hload, ?_⟩⟩, fun hnone herr => ⟨_, hload, ?_⟩⟩,
    fun x y hnext hshf hback hbands htake => ⟨_, act_of_running s (doMapPageWriteback sl page) hrun,
      mapPageWriteback_spec hsl hpage hnext hstop hshf hback hbands htake⟩⟩
  · show pk ∈ (doMapPageLoad sl page cls s.dev).resident ∧ (doMapPageLoad sl page cls s.dev).mapWant.find pk = none ∧ (doMapPageLoad sl page cls s.dev).map = _ ∧
      (doMapPageLoad sl page cls s.dev).metaAt = _ ∧ (doMapPageLoad sl page cls s.dev).lost = _
    rw [doMapPageLoad_eq hsl hpage hwant, Dev.mapLoadStep_found hwant hstop hroom hc, Dev.mapLoadFrom_loads htake hhere]
    have hs : s.dev.Serves ((s.dev.takeCredit 8 16 (metaUnit pk)).2.serveCopy (mapOwner pk) c) := (Dev.PortFrame.takeCredit s.dev _ _ _).trans (.serveCopy _ _ _)
    have hres := congrArg (·.resident) hs.kept
    obtain ⟨h1, h2, h3, -⟩ := Dev.mapLoaded_spec _ (hs.mapRoom.trans hroom) (fun h => hnew (hres ▸ h))
    have hfacts := congrArg (fun x : Dev => x.mapFacts) hs.kept
    have h3' := h3.trans hfacts
    simp only [Dev.mapFacts, Prod.mk.injEq] at h3'
    exact ⟨h1, h2, h3'⟩
  · show (doMapPageLoad sl page cls s.dev).resident = _ ∧ (doMapPageLoad sl page cls s.dev).mapWant = _ ∧ (doMapPageLoad sl page cls s.dev).map = _
    rw [doMapPageLoad_eq hsl hpage hwant, Dev.mapLoadStep_found hwant hstop hroom hc]
    have h := Dev.mapLoadFrom_waits (cls := clsNum cls) hhere
    simp only [Dev.mapCache, Prod.mk.injEq] at h
    exact h
  · show pk ∈ (doMapPageLoad sl page cls s.dev).resident ∧ (∀ g ∈ _, g ∈ (doMapPageLoad sl page cls s.dev).lost) ∧
      ((doMapPageLoad sl page cls s.dev).page 0x500).errCode = _ ∧ bitAt ((doMapPageLoad sl page cls s.dev).page 0x500).intPend 4 = true
    rw [doMapPageLoad_eq hsl hpage hwant, Dev.mapLoadStep_none hwant hstop hroom hnone]
    exact s.dev.mapLost_spec _ hroom hnew herr

end Sys2Proof.Machine
end

section
/-! The write cache: commit and placement of its versions, admission of the writes that wait for it, NO_SPACE (R11, R20, R200 to R213, R365). -/

namespace Sys2Proof.Machine

-- In order, one declaration at a time: keeps the check within its memory limit.
set_option Elab.async false

section
variable {d e t : Dev}

/-! ### Changes of the map -/

theorem Dev.cache_dropVers (d : Dev) (p : Ver → Bool) : (d.dropVers p).cache = d.cache.filter (fun v => !p v) := by
  unfold Dev.dropVers
  extract_lets gone d1 d2 d3
  have hall : gone.isEmpty = true → d.cache = d.cache.filter (fun v => !p v) := fun h => by
    rw [List.isEmpty_iff, List.filter_eq_nil_iff] at h
    exact (List.filter_eq_self.mpr (fun v hv => by simpa using h v hv)).symm
  split
  · next h => exact hall h
  · split <;> rfl

theorem Dev.cache_putEnt (d : Dev) (s g : Nat) (e : MapEnt) : (d.putEnt s g e).cache = d.cache := by
  unfold Dev.putEnt
  extract_lets pk d1 d2 d3 d4
  have h2 : d2.cache = d.cache := rfl
  clear_value d2
  have h3 : d3.cache = d2.cache := by
    have hmake : (d2.makeResident pk).cache = d2.cache := by
      unfold Dev.makeResident
      split
      · rfl
      · split <;> rfl
    exact hmake
  clear_value d3
  have h4 : d4.cache = d3.cache := by
    by_cases hc : d3.dirty.contains pk = true
    · rw [show d4 = d3 from if_pos hc]
    · rw [show d4 = { d3 with dirty := d3.dirty ++ [pk] } from if_neg hc]
  clear_value d4
  exact h4.trans (h3.trans h2)

/-- The entry of a change that takes effect is of a granule's own, and its version leaves the cache. -/
theorem Dev.applyEnt_new (d : Dev) (x : MapChg) (hsrc : x.src = none) (hnew : gverNewer x.gver (d.ent x.slice x.granule).gver = true) :
    (d.applyEnt x).map = SMap.set (fun _ => MapEnt.reset) d.map (granKey x.slice x.granule) { gver := x.gver, loc := x.loc } ∧
    ∀ w ∈ (d.applyEnt x).cache, w ∈ d.cache ∧ ¬(w.slice = x.slice ∧ w.granule = x.granule ∧ w.gver = x.gver) := by
  unfold Dev.applyEnt
  extract_lets here
  rw [hsrc]
  dsimp only
  rw [if_pos hnew]
  refine ⟨(Dev.map_dropVers _ _).trans (Dev.map_putEnt d _ _ _), fun w hw => ?_⟩
  rw [Dev.cache_dropVers, Dev.cache_putEnt, List.mem_filter] at hw
  refine ⟨hw.1, fun h => ?_⟩
  have h2 := hw.2
  simp [here, h] at h2

theorem Dev.applyEnt_old (d : Dev) (x : MapChg) (hsrc : x.src = none) (hold : gverNewer x.gver (d.ent x.slice x.granule).gver = false) :
    (d.applyEnt x).map = d.map ∧ ∀ w ∈ (d.applyEnt x).cache, w ∈ d.cache ∧ ¬(w.slice = x.slice ∧ w.granule = x.granule ∧ w.gver = x.gver) := by
  unfold Dev.applyEnt
  extract_lets here
  rw [hsrc]
  dsimp only
  rw [if_neg (by simp [hold])]
  refine ⟨Dev.map_dropVers _ _, fun w hw => ?_⟩
  rw [Dev.cache_dropVers, List.mem_filter] at hw
  refine ⟨hw.1, fun h => ?_⟩
  have h2 := hw.2
  simp [here, h] at h2

/-- A journal record for the twin leaves the write cache. -/
theorem Dev.cache_journal (d : Dev) (b : JBatch) : (d.journal b).cache = d.cache := by
  have hk := (Dev.PortFrame.journal d b).kept
  exact congrArg (·.cache) hk

theorem Dev.mapChange_waits (d : Dev) (x : MapChg) (hp : d.paired = true) : (d.mapChange x).map = d.map ∧ (d.mapChange x).cache = d.cache ∧
    ∃ m, (d.mapChange x).mapPend = d.mapPend ++ [{ x with mnum := some m }] := by
  unfold Dev.mapChange
  extract_lets d1
  have hpair : d1.paired = true := (Dev.paired_of_posts (Dev.Posts.journal d _)).trans hp
  obtain ⟨hmap, hpend⟩ : d1.map = d.map ∧ d1.mapPend = d.mapPend := Dev.map_journal d _
  have hcache : d1.cache = d.cache := Dev.cache_journal d _
  clear_value d1
  rw [if_pos hpair]
  exact ⟨hmap, hcache, _, congrArg (· ++ [_]) hpend⟩

theorem Dev.mapChange_applies (d : Dev) (x : MapChg) (hp : d.paired = false) : ∃ e : Dev, d.mapChange x = e.applyEnt x ∧ e.map = d.map ∧ e.cache = d.cache := by
  unfold Dev.mapChange
  extract_lets d1
  have hpair : d1.paired = false := (Dev.paired_of_posts (Dev.Posts.journal d _)).trans hp
  have hmap : d1.map = d.map := (Dev.map_journal d _).1
  have hcache : d1.cache = d.cache := Dev.cache_journal d _
  clear_value d1
  rw [if_neg (by simp [hpair])]
  exact ⟨d1, rfl, hmap, hcache⟩

/-- The change of a version's granule, as its commit makes it. -/
def verChg (s g gver : Nat) (l : Option Loc) : MapChg := { slice := s, granule := g, gver := gver, loc := l, src := none, owner := none, mnum := none }

/-- The version under its name. -/
def isVer (s g gver : Nat) (w : Ver) : Bool := w.slice == s && w.granule == g && w.gver == gver

theorem isVer_iff {s g gver : Nat} {w : Ver} : isVer s g gver w = true ↔ w.slice = s ∧ w.granule = g ∧ w.gver = gver := by
  simp only [isVer, Bool.and_eq_true, beq_iff_eq, and_assoc]

/-- A change that takes effect at once, alone. -/
theorem Dev.mapChange_alone_spec (d : Dev) (s g gver : Nat) (l : Option Loc) (hp : d.paired = false) :
    (gverNewer gver (d.ent s g).gver = true → (d.mapChange (verChg s g gver l)).ent s g = ⟨gver, l⟩ ∧
      (∀ w ∈ (d.mapChange (verChg s g gver l)).cache, isVer s g gver w = false) ∧
      ∀ s' g', granKey s' g' ≠ granKey s g → (d.mapChange (verChg s g gver l)).ent s' g' = d.ent s' g') ∧
    (gverNewer gver (d.ent s g).gver = false → (d.mapChange (verChg s g gver l)).map = d.map ∧
      ∀ w ∈ (d.mapChange (verChg s g gver l)).cache, isVer s g gver w = false) := by
  obtain ⟨e, heq, hmap, hcache⟩ := d.mapChange_applies (verChg s g gver l) hp
  have hent : e.ent s g = d.ent s g := by rw [Dev.ent, hmap, Dev.ent]
  rw [heq]
  have hnot : ∀ {w : Ver}, ¬(w.slice = s ∧ w.granule = g ∧ w.gver = gver) → isVer s g gver w = false := fun h =>
    Bool.eq_false_iff.mpr (fun hv => h (isVer_iff.mp hv))
  refine ⟨fun hnew => ?_, fun hold => ?_⟩
  · obtain ⟨hm, hc⟩ := e.applyEnt_new (verChg s g gver l) rfl (by rw [← hent] at hnew; exact hnew)
    refine ⟨?_, fun w hw => hnot (hc w hw).2, fun s' g' hne => ?_⟩
    · rw [Dev.ent, hm]
      exact SMap.get_set_self _ _ _ _
    · rw [Dev.ent, hm, hmap, Dev.ent]
      exact SMap.get_set_ne _ _ _ _ _ hne
  · obtain ⟨hm, hc⟩ := e.applyEnt_old (verChg s g gver l) rfl (by rw [← hent] at hold; exact hold)
    exact ⟨hm.trans hmap, fun w hw => hnot (hc w hw).2⟩

/-! ### Commit (R11, R200) -/

theorem Dev.KeepsMap.pwCommitted (d : Dev) (s g : Nat) : d.KeepsMap (d.pwCommitted s g) := by
  have hbehind : ∀ gs, d.KeepsMap (d.countBehind s gs) := fun gs => by
    unfold Dev.countBehind
    extract_lets lo hit
    split
    · exact .refl d
    · exact ⟨rfl, rfl, rfl, rfl⟩
  have hdirty : ∀ (e : Dev) m, e.KeepsMap ({ e with pwDirty := m } : Dev).pwCount := fun _ _ => ⟨rfl, rfl, rfl, rfl⟩
  unfold Dev.pwCommitted
  split
  · exact .refl d
  · exact .ite ((hbehind _).trans (hdirty _ _)) (.refl d)

theorem Dev.pwCommitted_keeps (d : Dev) (s g : Nat) : (d.pwCommitted s g).paired = d.paired ∧ (d.pwCommitted s g).mapPend = d.mapPend := by
  have hset := Dev.Settles.pwCommitted d s g
  refine ⟨?_, ?_⟩
  · have hreg : (d.pwCommitted s g).reg Reg.TWN_STS = d.reg Reg.TWN_STS := hset.frame.regs _ (by decide)
    have hprev : (d.pwCommitted s g).gPrev = d.gPrev := congrArg (·.gPrev) hset.frame.kept
    rw [Dev.paired, Dev.paired, Dev.twin, Dev.twin, Dev.fld_congr hreg, hprev]
  · have hbehind : ∀ gs, (d.countBehind s gs).mapPend = d.mapPend := fun gs => by
      unfold Dev.countBehind
      extract_lets lo hit
      split <;> rfl
    have hdirty : ∀ (e : Dev) m, ({ e with pwDirty := m } : Dev).pwCount.mapPend = e.mapPend := fun _ _ => rfl
    unfold Dev.pwCommitted
    split
    · rfl
    · split
      · exact (hdirty _ _).trans (hbehind _)
      · rfl

/-- A commit changes the map as its change does, on a device that differs in nothing the map is kept in. -/
theorem Dev.commitVer_eq (d : Dev) (v : Ver) (x : MapChg) : ∃ e : Dev, d.commitVer v x = e.mapChange x ∧ d.KeepsMap e ∧ e.paired = d.paired ∧ e.mapPend = d.mapPend := by
  unfold Dev.commitVer
  split
  · obtain ⟨h1, h2⟩ := d.pwCommitted_keeps v.slice v.granule
    exact ⟨_, rfl, .pwCommitted d _ _, h1, h2⟩
  · exact ⟨d, rfl, .refl d, rfl, rfl⟩

section
variable {s g : Nat} {v : Ver} (hs : s < 1024) (hg : g < 2 ^ 37) (hgv : v.gver < 2 ^ 20) (hdump : d.dumping = false) (hstop : d.mapStop = false)
  (hv : d.cache.find? (isVer s g v.gver) = some v) (hchg : d.changing (verChg s g v.gver v.loc) = false)
include hs hg hgv hdump hstop hv hchg

theorem doMapCommit_commits {l : Loc} (hl : v.loc = some l) (hst : v.stage = .programmed) (hpost : v.posted = true ∨ v.pwin = true) (hfull : d.dlogFull = false)
    (hhere : d.pageHere (pageKey s g) = true) : doMapCommit s g v.gver 0 d = d.commitVer v (verChg s g v.gver (some l)) := by
  unfold doMapCommit
  rw [Nat.mod_eq_of_lt hs, Nat.mod_eq_of_lt hg, Nat.mod_eq_of_lt hgv]
  rw [hl] at hchg
  have hp : (v.posted || v.pwin) = true := by simpa using hpost
  have hfind : d.cache.find? (fun w => w.slice == s && w.granule == g && w.gver == v.gver) = some v := hv
  dsimp only
  rw [hfind]
  dsimp only
  rw [hl]
  dsimp only
  rw [if_neg (by rw [hst, hp, hstop, hdump]; rintro (h | h | h | h | h); exacts [h rfl, absurd h (by decide), absurd h (by decide), absurd h (by decide), absurd (hchg.symm.trans h) (by decide)]),
    if_neg (by simp [hhere]), if_neg (by decide)]
  exact if_neg (by rw [show (d.mapResidue 0).dlogFull = d.dlogFull from rfl, hfull]; decide)

/-! ### Placement (R20, R202, R331) -/

variable (hl : v.loc = none) (hpost : v.posted = true) (hst : v.stage ≠ .received) (hmay : d.mayDestage = true) (hshf : d.shfStop = false) (hstk : d.stkStop = false)
  (holder : ∀ w ∈ d.cache, w.slice = s → w.granule = g → w.posted = true ∨ w.pwin = true ∨ gverNewer v.gver w.gver = false)
  (hpend : ∀ y ∈ d.mapPend, y.slice = s → y.granule = g → y.owner.isSome = true → gverNewer v.gver y.gver = false)
include hl hpost hst hmay hshf hstk holder hpend

theorem doDestage_open : doDestage s g v.gver d =
    if (d.mergedBlks v).all (·.filled) && v.posted then
      if !d.pageHere (pageKey s g) then d.wantPage (pageKey s g) v.cls
      else if d.dlogFull then d.dlogStall else d.mapChange (verChg s g v.gver none)
    else d.destageVer v := by
  have hfind : d.cache.find? (fun w => w.slice == s && w.granule == g && w.gver == v.gver) = some v := hv
  have hold : d.cache.any (fun w => w.slice == s && w.granule == g && !w.posted && !w.pwin && gverNewer v.gver w.gver) = false := by
    rw [List.any_eq_false]
    intro w hw h
    simp only [Bool.and_eq_true, beq_iff_eq, Bool.not_eq_true'] at h
    obtain ⟨⟨⟨⟨h1, h2⟩, h3⟩, h4⟩, h5⟩ := h
    rcases holder w hw h1 h2 with h | h | h
    · exact absurd (h3.symm.trans h) (by decide)
    · exact absurd (h4.symm.trans h) (by decide)
    · exact absurd (h5.symm.trans h) (by decide)
  have hpe : d.mapPend.any (fun y => y.slice == s && y.granule == g && y.owner.isSome && gverNewer v.gver y.gver) = false := by
    rw [List.any_eq_false]
    intro y hy h
    simp only [Bool.and_eq_true, beq_iff_eq] at h
    obtain ⟨⟨⟨h1, h2⟩, h3⟩, h4⟩ := h
    exact absurd (h4.symm.trans (hpend y hy h1 h2 h3)) (by decide)
  have hstage : (v.stage == Stage.received) = false := by simpa using hst
  rw [hl] at hchg
  have hchg' : d.changing { slice := s, granule := g, gver := v.gver, loc := none, src := none, owner := none, mnum := none } = false := hchg
  unfold doDestage
  rw [Nat.mod_eq_of_lt hs, Nat.mod_eq_of_lt hg, Nat.mod_eq_of_lt hgv]
  dsimp only
  rw [hfind]
  dsimp only
  rw [if_neg (by simp [hl, hold, hpost, hstage, hmay, hpe, hstop, hshf, hstk, hdump, hchg'])]
  rfl

theorem doDestage_unmaps (hfilled : (d.mergedBlks v).all (·.filled) = true) (hfull : d.dlogFull = false) (hhere : d.pageHere (pageKey s g) = true) :
    doDestage s g v.gver d = d.mapChange (verChg s g v.gver none) := by
  rw [doDestage_open hs hg hgv hdump hstop hv hchg hl hpost hst hmay hshf hstk holder hpend, if_pos (by simp [hfilled, hpost]), if_neg (by simp [hhere]),
    if_neg (by simp [hfull])]

theorem doDestage_places (hdata : (d.mergedBlks v).all (·.filled) = false) : doDestage s g v.gver d = d.destageVer v := by
  rw [doDestage_open hs hg hgv hdump hstop hv hchg hl hpost hst hmay hshf hstk holder hpend, if_neg (by simp [hdata])]

end

/-! A version placed. -/

theorem Dev.KeepsMap.spendCredit (d : Dev) : d.KeepsMap d.spendCredit := .ite ⟨rfl, rfl, rfl, rfl⟩ (.refl d)

theorem Dev.KeepsMap.padStripe : ∀ (n : Nat) (d : Dev) (b k : Nat), d.KeepsMap (Dev.padStripe n d b k)
  | 0, d, _, _ => .refl d
  | n + 1, d, b, k => by
    unfold Dev.padStripe
    split
    · exact .ite ((Dev.KeepsMap.fillHalf d _ _ _).trans (Dev.KeepsMap.padStripe n _ b k)) (.refl d)
    · exact .refl d

theorem Dev.KeepsMap.stripeSeals (d : Dev) (v : Ver) (blks : List Blk) : d.KeepsMap (d.stripeSeals v blks).2 := by
  unfold Dev.stripeSeals
  refine List.foldlRecOn (motive := fun acc : List Blk × Dev => d.KeepsMap acc.2) _ _ (.refl d) (fun acc hacc kb _ => ?_)
  dsimp only
  split
  · exact hacc
  · exact hacc.trans ((Dev.KeepsMap.setFld acc.2 _ _ _ _).trans (.of_serves ((Dev.PortFrame.of_reports (Dev.Reports.errIncident _ _ _ _ _ _ _ _ _)).trans (.raise _ _ _))))

/-- A version that is placed at `l`. -/
def placeAt (v : Ver) (l : Loc) (w : Ver) : Ver := if w == v then { w with loc := some l } else w

/-- The first version of its name, placed, is found at its place. -/
theorem find_placeAt {s g gver : Nat} {v : Ver} (l : Loc) : ∀ {vs : List Ver}, vs.find? (isVer s g gver) = some v →
    (vs.map (placeAt v l)).find? (isVer s g gver) = some { v with loc := some l }
  | w :: vs, h => by
    have hname : ∀ w : Ver, isVer s g gver (placeAt v l w) = isVer s g gver w := fun w => by
      unfold placeAt
      split <;> rfl
    rw [List.map_cons, List.find?_cons, hname]
    rw [List.find?_cons] at h
    cases hw : isVer s g gver w with
    | true =>
      rw [hw] at h
      obtain rfl : w = v := Option.some.inj h
      exact congrArg some (if_pos (beq_self_eq_true w))
    | false =>
      rw [hw] at h
      exact find_placeAt l h

/-- The place that a fill gives next. -/
theorem Dev.fillLoc_place (d : Dev) (f : Fill) : (d.fillLoc f).band = f.band ∧ (d.fillLoc f).stripe = f.stripe ∧ (d.fillLoc f).pos = posOfRole (f.placed / 2) f.stripe ∧
    (d.fillLoc f).half = f.placed % 2 := ⟨rfl, rfl, rfl, rfl⟩

theorem Dev.fillReady_found (d : Dev) {slc reloc : Bool} {cr : Nat} {f : Fill} (hf : d.fillFor slc reloc = some f)
    (ht : (d.takeCredit cr 304 (2 ^ 19 + f.band * 4096 + f.stripe)).1 = true) :
    d.fillReady slc reloc cr = (some f, (d.takeCredit cr 304 (2 ^ 19 + f.band * 4096 + f.stripe)).2) := by
  unfold Dev.fillReady
  rw [hf]
  dsimp only
  rw [hf]
  dsimp only
  rw [ht]
  rfl

/-- The placed half: the version's place, its content and what its stripe then gets. -/
def Dev.placeVer (v : Ver) (f : Fill) (d : Dev) : Dev :=
  let l := d.fillLoc f
  let d0 := { d with cache := d.cache.map (placeAt v l) }
  let d1 := d0.spendCredit
  let sealed := d1.stripeSeals v (d1.mergedBlks v)
  let d2 := sealed.2.fillHalf f { slice := v.slice, granule := v.granule, gver := v.gver, pad := false, blks := sealed.1 } v.cls
  if d2.stripeHurries f.band f.stripe then Dev.padStripe 32 d2 f.band f.stripe else d2

theorem Dev.destageVer_eq (d : Dev) {v : Ver} {f : Fill} {e : Dev}
    (h : d.fillReady (decide (v.cls < 3) && !v.pwin && decide (d.fld Reg.MAP_SLC_USED 22 0 < d.fld Reg.MAP_SLC_TGT 22 0)) false 6 = (some f, e)) :
    d.destageVer v = e.placeVer v f := by
  unfold Dev.destageVer
  dsimp only
  rw [h]
  rfl

theorem Dev.cache_placeVer (d : Dev) (v : Ver) (f : Fill) : (d.placeVer v f).cache = d.cache.map (placeAt v (d.fillLoc f)) := by
  unfold Dev.placeVer
  extract_lets l d0 d1 sealed d2
  have h0 : d0.cache = d.cache.map (placeAt v l) := rfl
  clear_value d0
  have h1 : d1.cache = d0.cache := (Dev.KeepsMap.spendCredit d0).cache
  clear_value d1
  have h2 : d2.cache = d1.cache := ((Dev.KeepsMap.stripeSeals d1 v _).trans (.fillHalf sealed.2 f _ _)).cache
  clear_value d2
  have hpad : (if d2.stripeHurries f.band f.stripe then Dev.padStripe 32 d2 f.band f.stripe else d2).cache = d2.cache :=
    (Dev.KeepsMap.ite (.padStripe 32 d2 f.band f.stripe) (.refl d2)).cache
  exact hpad.trans (h2.trans (h1.trans h0))

theorem Dev.destageVer_places (d : Dev) {v : Ver} {f : Fill} {s g gver : Nat} (hv : d.cache.find? (isVer s g gver) = some v)
    (hf : d.fillFor (decide (v.cls < 3) && !v.pwin && decide (d.fld Reg.MAP_SLC_USED 22 0 < d.fld Reg.MAP_SLC_TGT 22 0)) false = some f)
    (ht : (d.takeCredit 6 304 (2 ^ 19 + f.band * 4096 + f.stripe)).1 = true) :
    (((d.destageVer v).cache.find? (isVer s g gver)).bind Ver.loc).map (fun l => (l.band, l.stripe, l.pos, l.half)) =
      some (f.band, f.stripe, posOfRole (f.placed / 2) f.stripe, f.placed % 2) := by
  have hkeep : d.KeepsMap (d.takeCredit 6 304 (2 ^ 19 + f.band * 4096 + f.stripe)).2 := .of_serves (.takeCredit d _ _ _)
  have hready := d.fillReady_found hf ht
  generalize (d.takeCredit 6 304 (2 ^ 19 + f.band * 4096 + f.stripe)).2 = e at hkeep hready
  rw [Dev.destageVer_eq d hready, Dev.cache_placeVer, hkeep.cache, find_placeAt _ hv]
  obtain ⟨l1, l2, l3, l4⟩ := e.fillLoc_place f
  have hplace : ((e.fillLoc f).band, (e.fillLoc f).stripe, (e.fillLoc f).pos, (e.fillLoc f).half) =
      (f.band, f.stripe, posOfRole (f.placed / 2) f.stripe, f.placed % 2) := by rw [l1, l2, l3, l4]
  exact congrArg some hplace

end

/-! ### Admission (R363, R364) and NO_SPACE (R212) -/

theorem Dev.queues_takeSlots (d : Dev) (n : Nat) : (d.takeSlots n).queues = d.queues := by
  unfold Dev.takeSlots
  extract_lets u rise d1 d2 d3
  have h2 : d2.queues = d1.queues := Dev.queues_ite rfl
  clear_value d2
  have h3 : d3.queues = d2.queues := rfl
  clear_value d3
  exact (Dev.queues_ite (Dev.queues_raise _ _ _)).trans (h3.trans h2)

theorem Dev.queues_admitSlots {d e : Dev} {cls n : Nat} (h : d.admitSlots cls n = some e) : e.queues = d.queues := by
  unfold Dev.admitSlots at h
  dsimp only at h
  split_ifs at h
  · exact Option.some.inj h ▸ d.queues_takeSlots n
  · exact Option.some.inj h ▸ d.queues_takeSlots n
  · exact Option.some.inj h ▸ d.queues_takeSlots n

theorem doCacheAdmit_admits {d : Dev} {qid : Nat} {c : Cmd} (hc : (d.queue qid).cmd? c.tag = some c) (hnext : d.nextWaiting = some (qid, c))
    (hheld : d.stkHeld = false) (hdump : d.dumping = false) (hup : d.dumpSetUp = true)
    (hadmit : (d.admitSlots c.cls (8 * c.placedGranules.length)).isSome = true) :
    ((doCacheAdmit d).queue qid).cmd? c.tag = some { c with waiting := false, slots := 8 * c.placedGranules.length } := by
  obtain ⟨e, he⟩ := Option.isSome_iff_exists.mp hadmit
  have hq : (e.queue qid).cmd? c.tag = some c := (congrArg (fun q : Queue => q.cmd? c.tag) (Dev.queue_congr (Dev.queues_admitSlots he) qid)).trans hc
  have heq : doCacheAdmit d = e.setCmd qid { c with waiting := false, slots := 8 * c.placedGranules.length } := by
    unfold doCacheAdmit
    rw [hnext]
    dsimp only
    rw [hheld, hdump, hup, he]
    rfl
  rw [heq, (Dev.queue_setCmd e _).cmd]
  exact Queue.cmd_setCmd hq rfl

theorem doNoSpaceTimeout_ends {d : Dev} {qid : Nat} {c : Cmd} (hqid : qid < 16384) (hc : (d.queue qid).cmd? c.tag = some c) (htag : c.tag < 32)
    (hty : writeType c.op = true) (hdone : c.done = false) (hplaced : c.placed = false) (hnew : 0 < d.newGranules (qid / 16) c)
    (hfq : d.fQ ≤ d.wHard) (hfree : (d.queue qid).free c = true)
    (hdue : (if c.wasHeld then c.relTick.getD d.tick else c.dbTick) + d.ackFigure c.cls + 1000000 ≤ d.tick) (hpost : d.canPost qid) :
    d.posts (doNoSpaceTimeout qid c.tag d) qid c.tag 0x0301 0 ∧ bitAt ((doNoSpaceTimeout qid c.tag d).page 0x500).intPend 1 = true ∧
    (doNoSpaceTimeout qid c.tag d).fld Reg.MAP_NOSPACE 31 0 = min (d.fld Reg.MAP_NOSPACE 31 0 + 1) 0xFFFFFFFF := by
  have heq : doNoSpaceTimeout qid c.tag d = ((d.inc Reg.MAP_NOSPACE 1).raise 0x500 1).complete qid c.tag 0x0301 0 := by
    unfold doNoSpaceTimeout
    rw [Nat.mod_eq_of_lt hqid, Nat.mod_eq_of_lt htag]
    dsimp only
    rw [hc]
    exact if_pos ⟨hty, by simp [hdone], by simp [hplaced], hfree, hnew, hfq, hdue⟩
  have hreports := Dev.Reports.raise (d.inc Reg.MAP_NOSPACE 1) 0x500 1
  have hfirst : (d.inc Reg.MAP_NOSPACE 1).canPost qid := by
    refine Dev.canPost_of_queue hpost (Dev.sliceHead_congr ?_ (fun k hk => ?_)) rfl
    · exact Dev.reg_inc_ne d (by simp only [Reg.HIF_SLICE_HEAD, Reg.MAP_NOSPACE]; omega) 1
    · exact Dev.reg_inc_ne d (by interval_cases k <;> decide) 1
  have hposts := Dev.posts_after_reports (tag := c.tag) hqid hfirst hreports 0x0301 0
  have hframe := Dev.Posts.complete ((d.inc Reg.MAP_NOSPACE 1).raise 0x500 1) qid c.tag 0x0301 0
  rw [heq]
  refine ⟨hposts, (hframe.page 0x500).2 1 ?_, ?_⟩
  · rw [Dev.intPend_raise _ _ _ (by decide)]
    exact (bitAt_putBit _ 1 1 true (by decide)).trans (if_pos rfl)
  · rw [Dev.fld, hframe.regs _ (by decide), hreports.regs _ (by decide), ← Dev.fld, Dev.fld_inc_self]

/-! ### O25 -/

/-- Settles O25: a version commits through the one change of the map, applied now or waiting for the twin; a posted one of filled blocks unmaps, any
other takes the next half of its band; what waits is admitted with its slots, or ends past its deadline. -/
theorem cacheAndWaitingWrites : Obligations.CacheAndWaitingWrites := by
  unfold Obligations.CacheAndWaitingWrites
  refine ⟨fun s sl g v hrun hsl hg hgver hdump hstop => ?_, fun s qid c hrun hqid hc => ⟨fun hnext hheld hdump hup hadmit => ?_, ?_⟩⟩
  · intro isV chg hv hchg
    refine ⟨fun l hl hst hpost hfull hhere => ?_, fun hl hpost hst hmay hshf hstk holder hpend => ⟨fun hfilled hfull hhere halone hnew => ?_, fun hdata f hf ht => ?_⟩⟩
    · have hcommit := doMapCommit_commits hsl hg hgver hdump hstop hv hchg hl hst hpost hfull hhere
      have hrow := act_of_running s (doMapCommit sl g v.gver 0) hrun
      rw [hcommit] at hrow
      obtain ⟨e, heq, hkeep, hpaired, hmapPend⟩ := s.dev.commitVer_eq v (verChg sl g v.gver (some l))
      rw [heq] at hrow
      have hent : ∀ sl' g', e.ent sl' g' = s.dev.ent sl' g' := fun _ _ => by rw [Dev.ent, hkeep.map, Dev.ent]
      refine ⟨fun halone hnew => ?_, fun halone hold => ?_, fun hpair => ?_⟩
      · obtain ⟨h1, h2, h3⟩ := (e.mapChange_alone_spec sl g v.gver (some l) (hpaired.trans halone)).1 (by rw [hent]; exact hnew)
        exact ⟨_, hrow, h1, h2, fun sl' g' hne => (h3 sl' g' hne).trans (hent sl' g')⟩
      · obtain ⟨h1, h2⟩ := (e.mapChange_alone_spec sl g v.gver (some l) (hpaired.trans halone)).2 (by rw [hent]; exact hold)
        exact ⟨_, hrow, h1.trans hkeep.map, h2⟩
      · obtain ⟨h1, h2, m, h3⟩ := e.mapChange_waits (verChg sl g v.gver (some l)) (hpaired.trans hpair)
        exact ⟨_, m, hrow, h1.trans hkeep.map, h2.trans hkeep.cache, h3.trans (congrArg (· ++ [_]) hmapPend)⟩
    · have hrow := act_of_running s (doDestage sl g v.gver) hrun
      rw [doDestage_unmaps hsl hg hgver hdump hstop hv hchg hl hpost hst hmay hshf hstk holder hpend hfilled hfull hhere] at hrow
      obtain ⟨h1, h2, -⟩ := (s.dev.mapChange_alone_spec sl g v.gver none halone).1 hnew
      exact ⟨_, hrow, h1, h2⟩
    · have hrow := act_of_running s (doDestage sl g v.gver) hrun
      rw [doDestage_places hsl hg hgver hdump hstop hv hchg hl hpost hst hmay hshf hstk holder hpend hdata] at hrow
      exact ⟨_, hrow, s.dev.destageVer_places hv hf ht⟩
  · exact ⟨_, act_of_running s doCacheAdmit hrun, doCacheAdmit_admits hc hnext hheld hdump hup hadmit⟩
  · intro htag hty hdone hplaced hnew hfq hfree hdue hpost
    exact ⟨_, act_of_running s (doNoSpaceTimeout qid c.tag) hrun, doNoSpaceTimeout_ends hqid hc htag hty hdone hplaced hnew hfq hfree hdue hpost⟩

end Sys2Proof.Machine
end

section
/-! Boundaries of tricks and trick groups (R146, R218, R225, R227, R236, R241, R250, R267). -/

namespace Sys2Proof.Machine

-- In order, one declaration at a time: keeps the check within its memory limit.
set_option Elab.async false

section
variable {d e t : Dev}

/-! ### The count at a boundary -/

/-- The device without what a slewing period changes. -/
def Dev.sansSlew (d : Dev) : Dev := { d.sansRole with slewDone := false }

/-- The registers that time is kept in. -/
def slewRegs : List Nat := timeRegs ++ [Reg.DLR_SLEW_LEFT]

/-- From `d` to `t` the roles of time change or the count slews. -/
abbrev Dev.Slews (d t : Dev) : Prop := Dev.Frame Dev.sansSlew slewRegs d t

theorem Dev.Slews.of_roles (h : d.Roles t) : d.Slews t := Dev.Frame.weaken h (fun _ => rfl) (by decide)

theorem Dev.Slews.slewTick (d : Dev) : d.Slews d.slewTick := by
  have hcoarse : ∀ (e : Dev) b, e.Slews (e.setCoarse b) := fun e b => .setFlag (by decide) _ _
  have hslew : ∀ (e : Dev) v, e.Slews (e.setSlew v) := fun e v => (Dev.Frame.setReg (by decide) _).trans (.setFlag (by decide) _ _)
  have hdone : ∀ e : Dev, e.Slews { e with slewDone := true } := fun e => .hidden rfl rfl rfl
  have hchange : ∀ a e : Dev, e.Slews (Dev.timeChange a e) := fun a e =>
    .ite (.refl e) (Dev.Slews.of_roles ((Dev.Roles.of_reports (Dev.Reports.capRec e _ _ _)).trans (Dev.Roles.of_reports (Dev.Reports.raise _ _ _))))
  have hcheck : ∀ e : Dev, e.Slews e.coarseCheck := fun e => .ite (hcoarse e true) (.ite (hcoarse e false) (.refl e))
  unfold Dev.slewTick
  extract_lets slewed d1
  have h0 : d.Slews slewed := hslew d _
  clear_value slewed
  have h1 : d.Slews d1 := .ite (h0.trans (hdone slewed)) (.refl d)
  exact ((h1.trans (hcheck d1)).trans (.setReg (by decide) _)).trans (hchange d _)

theorem Dev.endTrick_eq (d : Dev) (n : Nat) : ∃ e : Dev, d.endTrick n = { e with tick := n, slewDone := false } ∧ d.Slews e := by
  unfold Dev.endTrick
  extract_lets d1
  exact ⟨d1, rfl, .ite (Dev.Slews.slewTick d) (.refl d)⟩

/-! ### Pages that do not stop -/

/-- A page stops the work of its block (R46, R558). -/
def Page.stops (p : Page) : Bool := p.freeze || p.isolate || p.softRst

theorem Dev.pagesStop_iff (hd : d.dumping = false) (lo hi : Nat) : d.pagesStop lo hi = false ↔ ∀ kv ∈ d.pages, lo ≤ kv.1 → kv.1 ≤ hi → kv.2.stops = false := by
  simp only [Dev.pagesStop, hd, Bool.not_false, Bool.true_and, List.any_eq_false, Bool.and_eq_true, decide_eq_true_eq, not_and, Bool.not_eq_true, and_imp]
  rfl

theorem Dev.stops_raise0 (lo hi pg bit : Nat) (h : ∀ kv ∈ d.pages, lo ≤ kv.1 → kv.1 ≤ hi → kv.2.stops = false) :
    ∀ kv ∈ (d.raise0 pg bit).pages, lo ≤ kv.1 → kv.1 ≤ hi → kv.2.stops = false := by
  have hpages : (d.raise0 pg bit).pages = (d.setPage pg { d.page pg with intPend := putBit (d.page pg).intPend bit true }).pages := by
    unfold Dev.raise0
    extract_lets p p' d'
    split
    · exact (show (d'.pageMsix pg).pages = d'.pages by rw [Dev.pageMsix, Dev.msix_eq])
    · rfl
  intro kv hkv hlo hhi
  rw [hpages] at hkv
  rcases SMap.mem_set (show kv ∈ SMap.set (fun _ => Page.reset) d.pages pg _ from hkv) with hnew | hold
  · rw [hnew] at hlo hhi ⊢
    show (d.page pg).stops = false
    rw [Dev.page, SMap.get]
    cases hfind : SMap.find d.pages pg with
    | none => rfl
    | some p => exact h (pg, p) (SMap.mem_of_find hfind) hlo hhi
  · exact h kv hold hlo hhi

theorem Dev.pagesStop_raise (lo hi pg bit : Nat) (h : d.pagesStop lo hi = false) : (d.raise pg bit).pagesStop lo hi = false := by
  have hsame : (d.raise pg bit).dumping = d.dumping := Dev.flag_congr (d.reg_raise pg bit _ (by decide) (by decide) (by decide)) 1
  cases hd : d.dumping with
  | true => rw [Dev.pagesStop, hsame, hd]; rfl
  | false =>
    rw [Dev.pagesStop_iff hd] at h
    rw [Dev.pagesStop_iff (hsame.trans hd)]
    unfold Dev.raise Dev.toRun
    split
    · exact Dev.stops_raise0 lo hi 0xD00 0 (Dev.stops_raise0 lo hi pg bit h)
    · exact Dev.stops_raise0 lo hi pg bit h

/-- The count's slewing stops no page. -/
theorem Dev.dlrStop_slewTick (h : d.dlrStop = false) : d.slewTick.dlrStop = false := by
  have hset : ∀ (e : Dev) off v, off ≠ Reg.PWR_FAIL_STS → (e.setReg off v).dlrStop = e.dlrStop := fun e off v hne => by
    have hd : (e.setReg off v).dumping = e.dumping := Dev.flag_congr (e.reg_setReg_ne hne.symm v) 1
    rw [Dev.dlrStop, Dev.pagesStop, hd]
    rfl
  have hcoarse : ∀ e : Dev, e.coarseCheck.dlrStop = e.dlrStop := fun e => by
    unfold Dev.coarseCheck
    split
    · exact hset e _ _ (by decide)
    · split
      · exact hset e _ _ (by decide)
      · rfl
  have hchange : ∀ a e : Dev, e.dlrStop = false → (Dev.timeChange a e).dlrStop = false := fun a e he => by
    unfold Dev.timeChange
    split
    · exact he
    · have hrec : (e.timeRec 0).dlrStop = e.dlrStop := by
        unfold Dev.timeRec Dev.capRec Dev.capAdd
        dsimp only
        split <;> rfl
      exact Dev.pagesStop_raise _ _ _ _ (hrec.trans he)
  unfold Dev.slewTick
  extract_lets slewed d1
  have h0 : slewed.dlrStop = d.dlrStop := (hset _ Reg.DLR_TIME_STS _ (by decide)).trans (hset d Reg.DLR_SLEW_LEFT _ (by decide))
  clear_value slewed
  have h1 : d1.dlrStop = d.dlrStop := by
    by_cases hs : d.slews = true
    · rw [show d1 = { slewed with slewDone := true } from if_pos hs]
      exact h0
    · rw [show d1 = d from if_neg hs]
  clear_value d1
  exact hchange d _ ((hset _ Reg.GLB_TIME_UNC _ (by decide)).trans ((hcoarse d1).trans (h1.trans h)))

theorem Dev.dlrStop_endTrick (h : d.dlrStop = false) (n : Nat) : (d.endTrick n).dlrStop = false := by
  have hmove : ∀ e : Dev, ({ e with tick := n, slewDone := false } : Dev).dlrStop = e.dlrStop := fun _ => rfl
  unfold Dev.endTrick
  split
  · exact (hmove d.slewTick).trans (Dev.dlrStop_slewTick h)
  · exact (hmove d).trans h

/-! ### The boundary of a trick -/

/-- The mark that a lane gets. -/
def Dev.markLane (d : Dev) (p : Nat) : Dev :=
  (d.emit (.flit p (ctrlFlit 0x10 (d.tick / 2048 % 65536 + 2 ^ 16 * markDly d.tick (d.port p).delay (d.freeVal % 8250))))).drawn

theorem markDly_bounds (b delay phase : Nat) : 192 ≤ markDly b delay phase ∧ markDly b delay phase ≤ 258 := by
  unfold markDly
  dsimp only
  omega

theorem Dev.tick_markLanes (l : List Nat) (d : Dev) : (l.foldl Dev.markLane d).tick = d.tick :=
  List.foldlRecOn (motive := fun e : Dev => e.tick = d.tick) l Dev.markLane rfl (fun _ he _ _ => he)

theorem Dev.tells_markLanes (d : Dev) {l : List Nat} {p : Nat} (hp : p ∈ l) :
    ∃ dly, 192 ≤ dly ∧ dly ≤ 258 ∧ d.tells (l.foldl Dev.markLane d) (.flit p (ctrlFlit 0x10 (d.tick / 2048 % 65536 + 2 ^ 16 * dly))) := by
  have hmark : ∀ e : Dev, e.tick = d.tick → ∃ o, (∃ dly, 192 ≤ dly ∧ dly ≤ 258 ∧ o = .flit p (ctrlFlit 0x10 (d.tick / 2048 % 65536 + 2 ^ 16 * dly))) ∧
      e.tells (e.markLane p) o := fun e he => by
    obtain ⟨h1, h2⟩ := markDly_bounds e.tick (e.port p).delay (e.freeVal % 8250)
    exact ⟨_, ⟨_, h1, h2, rfl⟩, Dev.tells_of_out [] [] (by rw [← he]; rfl)⟩
  obtain ⟨o, ⟨dly, h1, h2, rfl⟩, htell⟩ := Dev.tells_foldl (f := Dev.markLane) (fun e : Dev => e.tick = d.tick) (fun e q => List.prefix_append _ _)
    (fun _ _ he => he) hmark l d hp rfl
  exact ⟨dly, h1, h2, htell⟩

/-- Buckets are refilled: of the ports nothing but their buckets. -/
theorem Dev.refillBuckets_eq (d : Dev) : ∃ ps, d.refillBuckets = { d with ports := ps } := by
  unfold Dev.refillBuckets
  extract_lets ts sum scaled
  split
  · exact ⟨d.ports, rfl⟩
  · exact List.foldlRecOn (motive := fun e : Dev => ∃ ps, e = { d with ports := ps }) _ _ ⟨d.ports, rfl⟩ (fun e ⟨ps, he⟩ p _ => by
      rw [he]
      exact ⟨_, rfl⟩)

theorem portSts_notSlew {p : Nat} (hp : p < 512) : Reg.FCH_P_STS p ∉ slewRegs := by
  simp only [slewRegs, timeRegs, reportRegs, List.mem_append, List.mem_cons, List.not_mem_nil, or_false, Reg.FCH_P_STS, Reg.PWR_MODE_STS, Reg.GLB_DEV_STS,
    Reg.PWR_BIAS_NOW, Reg.SCP_CAP_STS, Reg.SCP_INC_STS, Reg.DLR_TIME_STS, Reg.DLR_TWIN_OFS, Reg.GLB_TIME_UNC, Reg.DLR_SLEW_LEFT]
  omega

theorem doTrickBoundary_spec (d : Dev) (hm : d.mode < 3) : (doTrickBoundary d).tick = (d.tick / 2048 + 1) * 2048 ∧
    (d.dlrStop = false → ∀ p < 512, d.lstate p = 5 → d.fld (Reg.FCH_P_STS p) 4 3 = 1 →
      ∃ dly, 192 ≤ dly ∧ dly ≤ 258 ∧ d.tells (doTrickBoundary d) (.flit p (ctrlFlit 0x10 ((doTrickBoundary d).tick / 2048 % 65536 + 2 ^ 16 * dly)))) := by
  obtain ⟨e, he, hslew⟩ := d.endTrick_eq ((d.tick / 2048 + 1) * 2048)
  have hbody : doTrickBoundary d = if (d.endTrick ((d.tick / 2048 + 1) * 2048)).dlrStop then d.endTrick ((d.tick / 2048 + 1) * 2048)
      else ((List.range 512).filter (fun p => (d.endTrick ((d.tick / 2048 + 1) * 2048)).refillBuckets.lstate p == 5 &&
        (d.endTrick ((d.tick / 2048 + 1) * 2048)).refillBuckets.fld (Reg.FCH_P_STS p) 4 3 == 1)).foldl Dev.markLane
          (d.endTrick ((d.tick / 2048 + 1) * 2048)).refillBuckets := if_neg (Nat.not_le.mpr hm)
  have htick : (d.endTrick ((d.tick / 2048 + 1) * 2048)).tick = (d.tick / 2048 + 1) * 2048 := rfl
  have hstop : d.dlrStop = false → (d.endTrick ((d.tick / 2048 + 1) * 2048)).dlrStop = false := fun h => Dev.dlrStop_endTrick h _
  have hout : d.out <+: (d.endTrick ((d.tick / 2048 + 1) * 2048)).out := by
    rw [he]
    exact hslew.out
  have hreg : ∀ p < 512, (d.endTrick ((d.tick / 2048 + 1) * 2048)).reg (Reg.FCH_P_STS p) = d.reg (Reg.FCH_P_STS p) := fun p hp => by
    rw [he]
    exact hslew.regs _ (portSts_notSlew hp)
  generalize d.endTrick ((d.tick / 2048 + 1) * 2048) = c at hbody htick hstop hout hreg
  obtain ⟨ps, hps⟩ := c.refillBuckets_eq
  rw [hps] at hbody
  rw [hbody]
  refine ⟨?_, fun hst p hp hl hown => ?_⟩
  · split
    · exact htick
    · exact (Dev.tick_markLanes _ _).trans htick
  · rw [if_neg (by simp [hstop hst]), Dev.tick_markLanes]
    have hin : p ∈ (List.range 512).filter (fun p => ({ c with ports := ps } : Dev).lstate p == 5 &&
        ({ c with ports := ps } : Dev).fld (Reg.FCH_P_STS p) 4 3 == 1) := by
      have h1 : ({ c with ports := ps } : Dev).lstate p = 5 := (Dev.fld_congr (hreg p hp) 2 0).trans hl
      have h2 : ({ c with ports := ps } : Dev).fld (Reg.FCH_P_STS p) 4 3 = 1 := (Dev.fld_congr (hreg p hp) 4 3).trans hown
      exact List.mem_filter.mpr ⟨List.mem_range.mpr hp, by rw [h1, h2]; rfl⟩
    obtain ⟨dly, h1, h2, htell⟩ := Dev.tells_markLanes { c with ports := ps } hin
    exact ⟨dly, h1, h2, Dev.tells_within (e := { c with ports := ps }) hout htell List.prefix_rfl⟩

/-! ### What the boundary of a trick group sets -/

/-- What a slice's trick capacity goes by. -/
def Slice.shares (x : Slice) : Nat × Nat × Bool := (x.shareAct, x.tshareAct, x.pendShare)

/-- From `d` to `t` the count, the settings in force and the slices' shares stay. -/
structure Dev.KeepsDeal (d t : Dev) : Prop where
  tick : t.tick = d.tick
  cls : t.clsNow = d.clsNow
  age : t.ageNow = d.ageNow
  sus : t.susNow = d.susNow
  shares : ∀ k, (t.slice k).shares = (d.slice k).shares

theorem Dev.KeepsDeal.refl (d : Dev) : d.KeepsDeal d := ⟨rfl, rfl, rfl, rfl, fun _ => rfl⟩

theorem Dev.KeepsDeal.trans (h : d.KeepsDeal e) (h' : e.KeepsDeal t) : d.KeepsDeal t :=
  ⟨h'.tick.trans h.tick, h'.cls.trans h.cls, h'.age.trans h.age, h'.sus.trans h.sus, fun k => (h'.shares k).trans (h.shares k)⟩

theorem Dev.KeepsDeal.ite {c : Prop} [Decidable c] (h : d.KeepsDeal e) (h' : d.KeepsDeal t) : d.KeepsDeal (if c then e else t) := by
  split
  · exact h
  · exact h'

theorem Dev.KeepsDeal.foldl {α : Type} {f : Dev → α → Dev} (h : ∀ (e : Dev) x, e.KeepsDeal (f e x)) (l : List α) (d : Dev) : d.KeepsDeal (l.foldl f d) :=
  List.foldlRecOn (motive := fun e : Dev => d.KeepsDeal e) l f (.refl d) (fun e he x _ => he.trans (h e x))

/-- The slices and these fields are the same. -/
theorem Dev.KeepsDeal.of_slices (hs : t.slices = d.slices) (ht : t.tick = d.tick) (hc : t.clsNow = d.clsNow) (ha : t.ageNow = d.ageNow)
    (hsus : t.susNow = d.susNow) : d.KeepsDeal t := ⟨ht, hc, ha, hsus, fun k => by rw [Dev.slice, hs, Dev.slice]⟩

theorem Dev.KeepsDeal.of_serves (h : d.Serves t) : d.KeepsDeal t := by
  have hk := h.kept
  exact .of_slices (congrArg (·.slices) hk) (congrArg (·.tick) hk) (congrArg (·.clsNow) hk) (congrArg (·.ageNow) hk) (congrArg (·.susNow) hk)

theorem Dev.KeepsDeal.of_wakes (h : d.Wakes t) : d.KeepsDeal t := by
  have hk := h.kept
  exact .of_slices (congrArg (·.slices) hk) (congrArg (·.tick) hk) (congrArg (·.clsNow) hk) (congrArg (·.ageNow) hk) (congrArg (·.susNow) hk)

theorem Dev.KeepsDeal.setReg (d : Dev) (off : Nat) (v : Word) : d.KeepsDeal (d.setReg off v) := ⟨rfl, rfl, rfl, rfl, fun _ => rfl⟩

theorem Dev.KeepsDeal.setFld (d : Dev) (off hi lo v : Nat) : d.KeepsDeal (d.setFld off hi lo v) := ⟨rfl, rfl, rfl, rfl, fun _ => rfl⟩

theorem Dev.KeepsDeal.setBank (d : Dev) (b : Nat) (x : Bank) : d.KeepsDeal (d.setBank b x) := ⟨rfl, rfl, rfl, rfl, fun _ => rfl⟩

theorem Dev.KeepsDeal.respace (d : Dev) : d.KeepsDeal d.respace := by
  unfold Dev.respace
  extract_lets bs withdrawn nS nMeta nQ nSlc d1 d2 d3 d4 d5 d6 d7 d8 cLog d9 old new d10 d11 d12
  have h4 : d.KeepsDeal d4 := (((Dev.KeepsDeal.setFld d _ _ _ _).trans (.setFld d1 _ _ _ _)).trans (.setFld d2 _ _ _ _)).trans (.setFld d3 _ _ _ _)
  have h8 : d4.KeepsDeal d8 := (((Dev.KeepsDeal.setFld d4 _ _ _ _).trans (.setFld d5 _ _ _ _)).trans (.setFld d6 _ _ _ _)).trans (.setFld d7 _ _ _ _)
  have h9 : d8.KeepsDeal d9 := (Dev.KeepsDeal.setReg d8 _ _).trans (.setReg _ _ _)
  have hcredit : ∀ (e : Dev) n, e.KeepsDeal { e with gcCredit := n } := fun _ _ => ⟨rfl, rfl, rfl, rfl, fun _ => rfl⟩
  have h10 : d9.KeepsDeal d10 := .ite (hcredit d9 0) (.refl d9)
  have h12 : d10.KeepsDeal d12 := ((Dev.KeepsDeal.setReg d10 _ _).trans (.setFld d11 _ _ _ _)).trans (.setFld _ _ _ _ _)
  have hall := (((h4.trans h8).trans h9).trans h10).trans h12
  exact .ite hall (hall.trans (.of_serves (.raise d12 _ _)))

theorem Dev.KeepsDeal.score (d : Dev) (src v : Nat) (slice cls group : Option Nat) : d.KeepsDeal (d.score src v slice cls group) := by
  obtain ⟨hk, hs⟩ := d.sansEntry_score src v slice cls group
  exact .of_slices hs (congrArg (·.tick) hk) (congrArg (·.clsNow) hk) (congrArg (·.ageNow) hk) (congrArg (·.susNow) hk)

theorem Dev.KeepsDeal.loads (d : Dev) : d.KeepsDeal d.loads := by
  have hports : ∀ (e : Dev) ps, e.KeepsDeal { e with ports := ps } := fun _ _ => ⟨rfl, rfl, rfl, rfl, fun _ => rfl⟩
  unfold Dev.loads
  extract_lets on d1 ls dev d2 ps
  have h1 : d.KeepsDeal d1 := .foldl (fun e p => .score e _ _ _ _ _) _ d
  exact (h1.trans (.setReg d1 _ _)).trans (hports d2 _)

theorem Dev.KeepsDeal.rbCounts (d : Dev) : d.KeepsDeal d.rbCounts := by
  unfold Dev.rbCounts
  extract_lets ps n d1 d2 d3
  exact ((((Dev.KeepsDeal.setFld d _ _ _ _).trans (.setFld d1 _ _ _ _)).trans (.setFld d2 _ _ _ _)).trans (.setFld d3 _ _ _ _)).trans (.setReg _ _ _)

theorem Dev.KeepsDeal.sendGulon (d : Dev) (kind : Nat) (fs : Fields) : d.KeepsDeal (d.sendGulon kind fs) := .of_serves (.of_messages (.sendGulon d kind fs))

/-- The headroom used starts anew; the shares stay. -/
theorem Dev.KeepsDeal.noHdrm (d : Dev) (s : Nat) : d.KeepsDeal (d.setSlice s { d.slice s with hdrmUsed := 0 }) := by
  refine ⟨rfl, rfl, rfl, rfl, fun k => ?_⟩
  by_cases hk : k = s
  · rw [hk, Dev.slice_setSlice_self]
    rfl
  · rw [Dev.slice_setSlice_ne d hk]

theorem Dev.KeepsDeal.levelChange (d : Dev) (n : Nat) : d.KeepsDeal (d.levelChange n) := by
  have hevent : ∀ (e : Dev) i, e.KeepsDeal (e.event i) := fun _ _ => ⟨rfl, rfl, rfl, rfl, fun _ => rfl⟩
  have hemit : ∀ (e : Dev) o, e.KeepsDeal (e.emit o) := fun _ _ => ⟨rfl, rfl, rfl, rfl, fun _ => rfl⟩
  have hlevel : ∀ (e : Dev), e.KeepsDeal { e with levelTick := e.tick, levelEpoch := e.epoch } := fun _ => ⟨rfl, rfl, rfl, rfl, fun _ => rfl⟩
  have hred : ∀ (e : Dev), e.KeepsDeal { e with redNo := e.redNo + 1 } := fun _ => ⟨rfl, rfl, rfl, rfl, fun _ => rfl⟩
  have htwins : ∀ (e : Dev) m, e.KeepsDeal { e with twinSlices := m } := fun _ _ => ⟨rfl, rfl, rfl, rfl, fun _ => rfl⟩
  unfold Dev.levelChange
  extract_lets old e1 e2 e3 e4
  have h1 : d.KeepsDeal e1 := (Dev.KeepsDeal.setFld d _ _ _ _).trans (.of_serves (.of_reports (Dev.Reports.incident _ _ _ _ _ _ _ _ _)))
  have h2 : e1.KeepsDeal e2 := (hevent e1 _).trans (hemit _ _)
  have h4 : e2.KeepsDeal e4 := (hlevel e2).trans (.ite (hred e3) (.refl e3))
  exact .ite (.refl d) (.ite (((h1.trans h2).trans h4).trans ((htwins e4 _).trans (.foldl (fun e s => .noHdrm e s) _ _))) ((h1.trans h2).trans h4))

theorem Dev.KeepsDeal.healthEval (d : Dev) : d.KeepsDeal d.healthEval := by
  have hconds : ∀ (e : Dev) l, e.KeepsDeal { e with conds := l } := fun _ _ => ⟨rfl, rfl, rfl, rfl, fun _ => rfl⟩
  unfold Dev.healthEval
  extract_lets new d1
  have h1 : d.KeepsDeal d1 := Dev.KeepsDeal.trans (.ite (.refl d) (hconds d _)) (.levelChange _ _)
  exact .ite (.refl d) (.ite h1 (h1.trans (.of_serves (.journal d1 _))))

theorem Dev.KeepsDeal.floorCheck (d : Dev) (g : Nat) : d.KeepsDeal (d.floorCheck g) := .ite (.of_wakes (.wakeDomain d g)) (.refl d)

theorem Dev.KeepsDeal.bankBoundary (d : Dev) (stepped : Bool) (b : Nat) : d.KeepsDeal (d.bankBoundary stepped b) := by
  have hclose : d.KeepsDeal (d.bankClose b) := .ite (.setBank d _ _) (.refl d)
  unfold Dev.bankBoundary
  extract_lets d1 k n
  have h1 : d.KeepsDeal d1 := hclose.trans (.setBank _ _ _)
  exact .ite (.refl d) (.ite h1 (.ite (h1.trans (.setBank d1 _ _)) (.ite (h1.trans (.setBank d1 _ _)) (h1.trans (.setBank d1 _ _)))))

theorem Dev.KeepsDeal.clearFlush (d : Dev) : d.KeepsDeal (doBitmapClearFlush d) := by
  have hclear : ∀ (e : Dev) a c, e.KeepsDeal { e with bmDirty := a, bmClear := [], bmWait := c } := fun _ _ _ => ⟨rfl, rfl, rfl, rfl, fun _ => rfl⟩
  unfold doBitmapClearFlush
  extract_lets gone bands d1
  have h1 : d.KeepsDeal d1 := hclear d _ _
  exact .ite (.refl d) ((h1.trans (.foldl (fun e b => .of_serves (.bmRecord e 2 b)) _ _)).trans (.setFld _ _ _ _ _))

theorem Dev.KeepsDeal.timeAsk (d : Dev) : d.KeepsDeal d.timeAsk := .ite (.sendGulon d _ _) (.refl d)

theorem Dev.KeepsDeal.sliceSums (d : Dev) : d.KeepsDeal d.sliceSums := by
  have htrump : ∀ e : Dev, e.KeepsDeal e.trumpSum := fun e => by
    unfold Dev.trumpSum
    extract_lets n was e1
    have h1 : e.KeepsDeal e1 := .setReg e _ _
    exact .ite (h1.trans (.of_serves (.raise e1 _ _))) h1
  unfold Dev.sliceSums
  extract_lets bound d1 d2
  exact (((Dev.KeepsDeal.setFld d _ _ _ _).trans (.setFld d1 _ _ _ _)).trans (.setFld d2 _ _ _ _)).trans (htrump _)

/-! Pending shares. -/

/-- The slice's pending shares take effect. -/
def Slice.applied (x : Slice) : Slice := { x with shareAct := x.share, tshareAct := x.tshare, pendShare := false }

theorem Dev.slice_applied : ∀ (l : List (Nat × Slice)) (d e : Dev), (∀ kv ∈ l, kv.2 = d.slice kv.1) → ∀ k,
    (l.foldl (fun (d : Dev) kv => d.setSlice kv.1 kv.2.applied) e).slice k = if k ∈ l.map Prod.fst then (d.slice k).applied else e.slice k
  | [], d, e, _, k => by simp
  | kv :: l, d, e, h, k => by
    rw [List.foldl_cons, Dev.slice_applied l d _ (fun x hx => h x (List.mem_cons_of_mem _ hx)) k]
    by_cases hk : k ∈ l.map Prod.fst
    · rw [if_pos hk, if_pos (by rw [List.map_cons]; exact List.mem_cons_of_mem _ hk)]
    · rw [if_neg hk]
      by_cases he : k = kv.1
      · rw [he, Dev.slice_setSlice_self, if_pos (by simp), h kv List.mem_cons_self]
      · rw [Dev.slice_setSlice_ne e he, if_neg (by simp [he, hk])]

theorem SMap.find_none_of_above {α : Type} : ∀ {m : SMap α} {b : Nat} {n : Nat}, SMap.sortedAbove (some b) m = true → n ≤ b → SMap.find m n = none
  | [], _, _, _, _ => rfl
  | (k, v) :: m, b, n, h, hn => by
    rw [SMap.sortedAbove_some, Bool.and_eq_true, decide_eq_true_eq] at h
    rw [SMap.find, if_neg (by omega)]
    exact SMap.find_none_of_above h.2 (by omega)

theorem SMap.find_of_mem {α : Type} : ∀ {m : SMap α} {k : Nat} {v : α}, SMap.sortedAbove none m = true → (k, v) ∈ m → SMap.find m k = some v
  | (j, w) :: m, k, v, hs, hmem => by
    have hs' : SMap.sortedAbove (some j) m = true := hs
    rw [SMap.find]
    rcases List.mem_cons.mp hmem with heq | hin
    · rw [if_pos (Prod.mk.inj heq).1, (Prod.mk.inj heq).2]
    · have htail := SMap.find_of_mem (SMap.sortedAbove_weaken m hs') hin
      rw [if_neg (fun hk => by rw [SMap.find_none_of_above hs' hk.le] at htail; exact nomatch htail)]
      exact htail

theorem Dev.sharesApply_shares (d : Dev) (hs : SMap.sortedAbove none d.slices = true) {k : Nat} (hp : (d.slice k).pendShare = true) :
    (d.sharesApply.slice k).shares = ((d.slice k).share, (d.slice k).tshare, false) := by
  have hmem : (k, d.slice k) ∈ d.slices.filter (fun (kv : Nat × Slice) => kv.2.pendShare) := by
    refine List.mem_filter.mpr ⟨?_, hp⟩
    rw [Dev.slice, SMap.get] at hp ⊢
    cases hf : SMap.find d.slices k with
    | none => rw [hf] at hp; exact nomatch hp
    | some v => exact SMap.mem_of_find hf
  have hall : ∀ kv ∈ d.slices.filter (fun (kv : Nat × Slice) => kv.2.pendShare), kv.2 = d.slice kv.1 := fun kv hkv => by
    rw [Dev.slice, SMap.get, SMap.find_of_mem hs (List.mem_filter.mp hkv).1]
    rfl
  unfold Dev.sharesApply
  dsimp only
  rw [if_neg (by simp [List.ne_nil_of_mem hmem])]
  refine ((Dev.KeepsDeal.sliceSums _).shares k).trans ?_
  have h := Dev.slice_applied (d.slices.filter (fun (kv : Nat × Slice) => kv.2.pendShare)) d d hall k
  rw [if_pos (List.mem_map.mpr ⟨_, hmem, rfl⟩)] at h
  exact congrArg Slice.shares h

/-- The settings of the Dealer. -/
def dealRegs : List Nat := [Reg.DLR_CLS_W, Reg.DLR_AGE, Reg.DLR_SUS_CTL]

theorem Dev.sharesApply_keeps (d : Dev) : d.sharesApply.tick = d.tick ∧ ∀ off ∈ dealRegs, d.sharesApply.reg off = d.reg off := by
  have hsums : ∀ (e : Dev), ∀ off ∈ dealRegs, e.sliceSums.reg off = e.reg off := fun e off hoff => by
    have hset : ∀ (x : Dev) a hi lo v, a ∉ dealRegs → (x.setFld a hi lo v).reg off = x.reg off := fun x a hi lo v ha =>
      Dev.reg_setFld_ne x (ne_of_mem_of_not_mem hoff ha) _ _ _
    have htrump : ∀ x : Dev, x.trumpSum.reg off = x.reg off := fun x => by
      unfold Dev.trumpSum
      extract_lets n was x1
      have h1 : x1.reg off = x.reg off := Dev.reg_setReg_ne x (ne_of_mem_of_not_mem hoff (by decide)) _
      split
      · exact ((Dev.Reports.raise x1 _ _).regs off ((show ∀ o ∈ dealRegs, o ∉ reportRegs by decide) off hoff)).trans h1
      · exact h1
    unfold Dev.sliceSums
    extract_lets bound x1 x2
    exact (htrump _).trans ((hset x2 Reg.VSL_BOUND _ _ _ (by decide)).trans ((hset x1 Reg.VSL_PIN_SUM _ _ _ (by decide)).trans
      (hset e Reg.VSL_SHARE_SUM _ _ _ (by decide))))
  have hfold : ∀ l : List (Nat × Slice), (l.foldl (fun (d : Dev) kv => d.setSlice kv.1 kv.2.applied) d).tick = d.tick ∧
      (l.foldl (fun (d : Dev) kv => d.setSlice kv.1 kv.2.applied) d).regs = d.regs := fun l =>
    List.foldlRecOn (motive := fun e : Dev => e.tick = d.tick ∧ e.regs = d.regs) l _ ⟨rfl, rfl⟩ (fun _ he _ _ => he)
  unfold Dev.sharesApply
  extract_lets ss
  obtain ⟨htick, hregs⟩ := hfold ss
  split
  · exact ⟨rfl, fun _ _ => rfl⟩
  · refine ⟨(Dev.KeepsDeal.sliceSums _).tick.trans htick, fun off hoff => (hsums _ off hoff).trans ?_⟩
    exact congrArg (fun m => (SMap.get regReset m off)) hregs

theorem Dev.settingsApply_spec (d : Dev) : d.settingsApply.tick = d.tick ∧ d.settingsApply.clsNow = d.reg Reg.DLR_CLS_W ∧
    d.settingsApply.ageNow = d.reg Reg.DLR_AGE ∧ d.settingsApply.susNow = d.reg Reg.DLR_SUS_CTL ∧ ∀ k, (d.settingsApply.slice k).shares = (d.slice k).shares := by
  have hlim : ∀ (e : Dev) l, e.KeepsDeal { e with crLim := l } := fun _ _ => ⟨rfl, rfl, rfl, rfl, fun _ => rfl⟩
  have happly : ∀ e : Dev, e.KeepsDeal e.crApply := fun e => (hlim e _).trans (.of_serves (.crCounts _))
  have h := happly { d with
    clsNow := d.reg Reg.DLR_CLS_W, ageNow := d.reg Reg.DLR_AGE, susNow := d.reg Reg.DLR_SUS_CTL
    rbNow := d.reg Reg.SHF_RB_CTL, hbCtl := d.reg Reg.TWN_HB_CTL }
  exact ⟨h.tick, h.cls, h.age, h.sus, h.shares⟩

/-! ### The boundary of a trick group -/

theorem Dev.stepPend_timeChange (a d : Dev) : (Dev.timeChange a d).stepPend = d.stepPend := by
  unfold Dev.timeChange
  split
  · rfl
  · have hk := ((Dev.Reports.capRec d 0x04 0 [(2, d.epoch), (1, d.coarse.toNat), (8, 0)]).trans (Dev.Reports.raise _ 0x700 0)).kept
    exact congrArg (·.stepPend) hk

theorem Dev.stepPend_endTrick (d : Dev) (n : Nat) : (d.endTrick n).stepPend = d.stepPend := by
  have hcheck : ∀ e : Dev, e.coarseCheck.stepPend = e.stepPend := fun e => by
    unfold Dev.coarseCheck
    split
    · rfl
    · split <;> rfl
  have hslew : d.slewTick.stepPend = d.stepPend := by
    unfold Dev.slewTick
    extract_lets slewed d1
    have h1 : d1.stepPend = d.stepPend := by
      by_cases hs : d.slews = true
      · rw [show d1 = { slewed with slewDone := true } from if_pos hs]
        rfl
      · rw [show d1 = d from if_neg hs]
    clear_value d1
    have hunc : d1.coarseCheck.timeUnc.stepPend = d1.coarseCheck.stepPend := rfl
    exact (Dev.stepPend_timeChange d _).trans (hunc.trans ((hcheck d1).trans h1))
  unfold Dev.endTrick
  split
  · exact hslew
  · rfl

theorem Dev.stepPend_timeRole (h : d.stepPend = none) : d.timeRole.stepPend = none := by
  have hunlock : ∀ e : Dev, e.stepPend = none → e.timeUnlock.stepPend = none := fun e he => by
    unfold Dev.timeUnlock
    split
    · rfl
    · exact he
  have hite : ∀ (c : Prop) [Decidable c] (x y : Dev), x.stepPend = none → y.stepPend = none → (if c then x else y).stepPend = none := fun c _ x y hx hy => by
    split
    · exact hx
    · exact hy
  unfold Dev.timeRole
  extract_lets own lead src was d1 d2 d3 d4
  have h1 : d1.stepPend = none := h
  have h2 : d2.stepPend = none := hite _ _ _ h1 h1
  have h3 : d3.stepPend = none := hite _ _ _ h2 h2
  have h4 : d4.stepPend = none := hite _ _ _ (hunlock d3 h3) (hite _ _ _ h3 h3)
  clear_value d4
  exact (Dev.stepPend_timeChange d d4).trans h4

/-- What comes before the shares: the count, the roles of time. -/
structure Dev.AtGroup (d t : Dev) (n : Nat) : Prop where
  tick : t.tick = n
  slices : t.slices = d.slices
  regs : ∀ off ∈ dealRegs, t.reg off = d.reg off

theorem Dev.atGroup (d : Dev) (n : Nat) (hs : d.stepPend = none) : d.AtGroup (if n = d.tick then d else d.endTrick n).timeRole.stepTick n := by
  have hrole : ∀ e : Dev, e.stepPend = none → e.tick = n → e.slices = d.slices → (∀ off ∈ dealRegs, e.reg off = d.reg off) → d.AtGroup e.timeRole.stepTick n :=
    fun e he ht hsl hr => by
      have hstep : e.timeRole.stepTick = e.timeRole := by
        unfold Dev.stepTick
        rw [Dev.stepPend_timeRole he]
      have hroles := Dev.Roles.timeRole e
      have hk := hroles.kept
      rw [hstep]
      exact ⟨(congrArg (·.tick) hk).trans ht, (congrArg (·.slices) hk).trans hsl,
        fun off hoff => (hroles.regs off ((show ∀ o ∈ dealRegs, o ∉ timeRegs by decide) off hoff)).trans (hr off hoff)⟩
  split
  · next hn => exact hrole d hs hn.symm rfl (fun _ _ => rfl)
  · obtain ⟨e, he, hslew⟩ := d.endTrick_eq n
    refine hrole _ ((d.stepPend_endTrick n).trans hs) rfl ?_ (fun off hoff => ?_)
    · rw [he]
      exact (congrArg (·.slices) hslew.kept : e.slices = d.slices)
    · rw [he]
      exact hslew.regs off ((show ∀ o ∈ dealRegs, o ∉ slewRegs by decide) off hoff)

/-- The tick of the next boundary. -/
def Dev.groupTick (d : Dev) : Nat := if d.tick % 131072 = 0 ∧ d.tick ≠ d.tgTick then d.tick else (d.tick / 131072 + 1) * 131072

theorem Dev.groupTick_spec (d : Dev) : d.groupTick % 131072 = 0 ∧ d.tick ≤ d.groupTick ∧ d.groupTick ≤ d.tick + 131072 := by
  unfold Dev.groupTick
  split
  · next h => exact ⟨h.1, le_rfl, Nat.le_add_right _ _⟩
  · omega

/-- The group ends. -/
def Dev.groupClosed (d : Dev) : Dev := { d with tgTick := d.tick, cap := { d.cap with groups := d.cap.groups + 1 } }

/-- The shares and the settings are applied at the count of the boundary; what comes after them keeps them. -/
theorem doTrickGroupBoundary_eq (d : Dev) (hm : d.mode < 3) (hs : d.stepPend = none) : ∃ a e : Dev, d.AtGroup a d.groupTick ∧
    a.sharesApply.settingsApply.KeepsDeal e ∧ doTrickGroupBoundary d = e.groupClosed := by
  unfold doTrickGroupBoundary
  rw [if_neg (Nat.not_le.mpr hm)]
  extract_lets t d1 stepped d2 d3 d4 d5 d6 d7 d8 d9 d10 d11
  have h2 : d.AtGroup d2 d.groupTick := d.atGroup d.groupTick hs
  have hd3 : d3 = d2.sharesApply.settingsApply := rfl
  clear_value d3 d2 stepped
  have h5 : d3.KeepsDeal d5 := (Dev.KeepsDeal.loads d3).trans (.score d4 _ _ _ _ _)
  clear_value d5
  have h6 : d5.KeepsDeal d6 := ((Dev.KeepsDeal.respace d5).trans (.setFld _ _ _ _ _)).trans (.rbCounts _)
  clear_value d6
  have h7 : d6.KeepsDeal d7 := .ite (.healthEval d6) (.refl d6)
  clear_value d7
  have h8 : d7.KeepsDeal d8 := .foldl (fun e g => .floorCheck e g) _ d7
  clear_value d8
  have h9 : d8.KeepsDeal d9 := .foldl (fun e b => .bankBoundary e stepped b) _ d8
  clear_value d9
  have h10 : d9.KeepsDeal d10 := .ite (.clearFlush d9) (.refl d9)
  clear_value d10
  have h11 : d10.KeepsDeal d11 := .timeAsk d10
  clear_value d11
  exact ⟨d2, d11, h2, hd3 ▸ (((h5.trans h6).trans h7).trans h8).trans ((h9.trans h10).trans h11), rfl⟩

theorem doTrickGroupBoundary_spec (d : Dev) (hm : d.mode < 3) (hstep : d.stepPend = none) (hsort : SMap.sortedAbove none d.slices = true) :
    (doTrickGroupBoundary d).tick % 131072 = 0 ∧ d.tick ≤ (doTrickGroupBoundary d).tick ∧ (doTrickGroupBoundary d).tick ≤ d.tick + 131072 ∧
    (doTrickGroupBoundary d).tgTick = (doTrickGroupBoundary d).tick ∧ (doTrickGroupBoundary d).clsNow = d.reg Reg.DLR_CLS_W ∧
    (doTrickGroupBoundary d).ageNow = d.reg Reg.DLR_AGE ∧ (doTrickGroupBoundary d).susNow = d.reg Reg.DLR_SUS_CTL ∧
    ∀ k, (d.slice k).pendShare = true → ((doTrickGroupBoundary d).slice k).shares = ((d.slice k).share, (d.slice k).tshare, false) := by
  obtain ⟨a, e, ⟨htick, hslices, hregs⟩, hkeep, heq⟩ := doTrickGroupBoundary_eq d hm hstep
  obtain ⟨hs1, hs2⟩ := a.sharesApply_keeps
  have hs3 : ∀ k, (d.slice k).pendShare = true → (a.sharesApply.slice k).shares = ((d.slice k).share, (d.slice k).tshare, false) := fun k hk => by
    have hsl : a.slice k = d.slice k := by rw [Dev.slice, hslices, Dev.slice]
    rw [← hsl] at hk ⊢
    exact a.sharesApply_shares (hslices ▸ hsort) hk
  generalize a.sharesApply = b at hkeep hs1 hs2 hs3
  obtain ⟨h1, h2, h3, h4, h5⟩ := b.settingsApply_spec
  generalize b.settingsApply = c at hkeep h1 h2 h3 h4 h5
  have het : e.tick = d.groupTick := hkeep.tick.trans (h1.trans (hs1.trans htick))
  have hreg : ∀ off ∈ dealRegs, b.reg off = d.reg off := fun off hoff => (hs2 off hoff).trans (hregs off hoff)
  obtain ⟨g1, g2, g3⟩ := d.groupTick_spec
  have hct : e.groupClosed.tick = d.groupTick := het
  rw [heq]
  refine ⟨by rw [hct]; exact g1, by rw [hct]; exact g2, by rw [hct]; exact g3, rfl, hkeep.cls.trans (h2.trans (hreg _ (by decide))),
    hkeep.age.trans (h3.trans (hreg _ (by decide))), hkeep.sus.trans (h4.trans (hreg _ (by decide))), fun k hk => ?_⟩
  exact (hkeep.shares k).trans ((h5 k).trans (hs3 k hk))

end

end Sys2Proof.Machine
end

section
/-! The plan of a port, aging, suspensions that end, the exchange of time (R229, R236 to R240, R243, R244). -/

namespace Sys2Proof.Machine

-- In order, one declaration at a time: keeps the check within its memory limit.
set_option Elab.async false

section
variable {d e t : Dev} {p : Nat}

/-! ### What sending a plan keeps -/

/-- From `d` to `t` the count stays, and of the port its operations, its open suspensions and the trick of its plan. -/
structure Dev.KeepsPlan (p : Nat) (d t : Dev) : Prop where
  tick : t.tick = d.tick
  ops : (t.port p).ops = (d.port p).ops
  sus : (t.port p).susOpen = (d.port p).susOpen
  cut : (t.port p).cutFor = (d.port p).cutFor
  out : d.out <+: t.out

theorem Dev.KeepsPlan.refl (d : Dev) (p : Nat) : d.KeepsPlan p d := ⟨rfl, rfl, rfl, rfl, List.prefix_rfl⟩

theorem Dev.KeepsPlan.trans (h : d.KeepsPlan p e) (h' : e.KeepsPlan p t) : d.KeepsPlan p t :=
  ⟨h'.tick.trans h.tick, h'.ops.trans h.ops, h'.sus.trans h.sus, h'.cut.trans h.cut, h.out.trans h'.out⟩

theorem Dev.KeepsPlan.ite {c : Prop} [Decidable c] (h : d.KeepsPlan p e) (h' : d.KeepsPlan p t) : d.KeepsPlan p (if c then e else t) := by
  split
  · exact h
  · exact h'

/-- The port takes a form with the same operations, suspensions and trick. -/
theorem Dev.KeepsPlan.setPort (d : Dev) {x : Port} (ho : x.ops = (d.port p).ops) (hs : x.susOpen = (d.port p).susOpen) (hc : x.cutFor = (d.port p).cutFor) :
    d.KeepsPlan p (d.setPort p x) := by
  have hx : (d.setPort p x).port p = x := Dev.port_setPort_self d p x
  exact ⟨rfl, (congrArg (·.ops) hx).trans ho, (congrArg (·.susOpen) hx).trans hs, (congrArg (·.cutFor) hx).trans hc, List.prefix_rfl⟩

theorem Dev.KeepsPlan.of_sends (h : d.Sends p t) : d.KeepsPlan p t := by
  have hm := h.mine
  have ht := congrArg (·.tick) h.rest
  exact ⟨ht, congrArg (·.ops) hm, congrArg (·.susOpen) hm, congrArg (·.cutFor) hm, h.out⟩

/-- The ports stay. -/
theorem Dev.KeepsPlan.of_ports (hp : t.ports = d.ports) (ht : t.tick = d.tick) (ho : d.out <+: t.out) : d.KeepsPlan p t := by
  have hport : t.port p = d.port p := by rw [Dev.port, hp, Dev.port]
  exact ⟨ht, congrArg (·.ops) hport, congrArg (·.susOpen) hport, congrArg (·.cutFor) hport, ho⟩

theorem Dev.KeepsPlan.of_reports (h : d.Reports t) : d.KeepsPlan p t := by
  have hk := h.kept
  exact .of_ports (congrArg (·.ports) hk) (congrArg (·.tick) hk) h.out

theorem Dev.KeepsPlan.inc (d : Dev) (off n : Nat) : d.KeepsPlan p (d.inc off n) := .of_ports rfl rfl List.prefix_rfl

theorem Dev.KeepsPlan.charge (d : Dev) (tx rx : Nat) : d.KeepsPlan p (d.charge p tx rx) := .setPort d rfl rfl rfl

theorem Dev.KeepsPlan.outCounts (d : Dev) : d.KeepsPlan p (d.outCounts p) := .of_ports rfl rfl List.prefix_rfl

/-- A slot of the die holds the read's offsets. -/
theorem Dev.KeepsPlan.offsetSlot (d : Dev) (o : POp) : d.KeepsPlan p (d.offsetSlot p o).2 := by
  unfold Dev.offsetSlot
  split
  · exact .refl d p
  · extract_lets x raw ofs mine slot clamps d1 d2 x2 d3
    have h1 : d.KeepsPlan p d1 := .ite (.refl d p) ((Dev.KeepsPlan.inc d _ _).trans (.of_reports (Dev.Reports.raise _ _ _)))
    have h2 : d1.KeepsPlan p d2 := (Dev.KeepsPlan.charge d1 _ _).trans (.of_sends (.sendFresh _ p _ _))
    have h3 : d2.KeepsPlan p d3 := .setPort d2 rfl rfl rfl
    split
    · exact .setPort d rfl rfl rfl
    · exact ((h1.trans h2).trans h3).trans (.inc d3 _ _)

/-! ### The arm of a read of an idle die -/

/-- The fields of the arm of a read. -/
def readArm (o : POp) (trick slot : Nat) : List Nat :=
  [1 + 4 * o.slc.toNat, o.tag, trick, o.die, bitMask o.planes, o.block, o.page, bitMask o.cwsOf + 16 * o.soft.toNat + 2 ^ 8 * slot]

/-- The arm goes out once a slot of the die holds the read's offsets, and the operation is armed. -/
def Dev.armRead (d : Dev) (p : Nat) (o : POp) : Dev :=
  let d1 := (d.offsetSlot p o).2
  let seq := (d1.port p).seq0
  let d2 := d1.sendCmd p { opc := 0x01, flags := 1 + 4 * o.slc.toNat, tag := o.tag, trick := (d.tick / 2048 + 1) % 65536, die := o.die, planes := bitMask o.planes,
                           block := o.block, page := o.page, args := bitMask o.cwsOf + 16 * o.soft.toNat + 2 ^ 8 * (d.offsetSlot p o).1 }
  let d3 := d2.charge p o.cost.1 o.cost.2
  let x := d3.port p
  d3.setPort p { x.setOp { o with stage := .armed, trick := (d.tick / 2048 + 1) % 65536, seq := seq } with trump := x.trump + (if o.cls = 0 then o.bucketCost else 0) }

theorem Dev.sendOp_read (d : Dev) {o : POp} (hops : (d.port p).ops = [o]) (hopc : o.opc = 0x01) : d.sendOp p false o.tag = d.armRead p o := by
  have hop : (d.port p).op? o.tag = some o := by
    rw [Port.op?, hops]
    simp
  have hrun : (d.port p).running o.die = none := by
    rw [Port.running, hops]
    simp [hopc]
  cases o
  subst hopc
  unfold Dev.sendOp
  rw [hop]
  dsimp only
  rw [if_neg (by simp), hrun]
  rfl

theorem Dev.armRead_spec (d : Dev) {o : POp} (hops : (d.port p).ops = [o]) :
    (d.armRead p o).tick = d.tick ∧ ((d.armRead p o).port p).cutFor = (d.port p).cutFor ∧
    (((d.armRead p o).port p).op? o.tag).map (fun y => (y.stage, y.trick)) = some (.armed, (d.tick / 2048 + 1) % 65536) ∧
    ∃ slot, d.tells (d.armRead p o) (.bridge p 0x01 (readArm o ((d.tick / 2048 + 1) % 65536) slot)) := by
  unfold Dev.armRead
  extract_lets d1 seq d2 d3 x armed
  have h1 : d.KeepsPlan p d1 := .offsetSlot d o
  have htell : d1.tells d2 (.bridge p 0x01 (readArm o ((d.tick / 2048 + 1) % 65536) (d.offsetSlot p o).1)) := Dev.tells_sendData d1 p _ []
  have h2 : d1.KeepsPlan p d2 := .of_sends (.sendData d1 p _ [])
  clear_value d2
  have h3 : d2.KeepsPlan p d3 := .charge d2 _ _
  clear_value d3
  have hall := (h1.trans h2).trans h3
  have hx : x.ops = [o] := hall.ops.trans hops
  have hport : ∀ y : Port, (d3.setPort p y).port p = y := fun y => Dev.port_setPort_self d3 p y
  refine ⟨hall.tick, ?_, ?_, (d.offsetSlot p o).1, Dev.tells_within h1.out htell h3.out⟩
  · rw [hport]
    exact hall.cut
  · have harmed : armed.ops = [{ o with stage := .armed, trick := (d.tick / 2048 + 1) % 65536, seq := seq }] := by simp [armed, Port.setOp, hx]
    rw [hport, Port.op?]
    simp [harmed]

/-! ### The plan (R236, R239, R240, R244) -/

/-- A port as its plan finds it, the capacity of the tricks since the last one spent. -/
def Port.planned (x : Port) (reloc rebuild trick : Nat) : Port := ((x.sharesOver reloc rebuild trick).carried trick).retag

theorem Port.planned_spec {x : Port} (htags : ∀ o ∈ x.ops, o.tag < 4096) (reloc rebuild trick : Nat) : (x.planned reloc rebuild trick).ops = x.ops ∧
    (x.planned reloc rebuild trick).susOpen = x.susOpen ∧ (x.carryTx = 0 → (x.planned reloc rebuild trick).carryTx = 0) ∧
    (x.carryRx = 0 → (x.planned reloc rebuild trick).carryRx = 0) := by
  have hretag : x.planned reloc rebuild trick = (x.sharesOver reloc rebuild trick).carried trick := by
    have hnil : ((x.sharesOver reloc rebuild trick).carried trick).ops.filter (fun o => decide (4096 ≤ o.tag)) = [] :=
      List.filter_eq_nil_iff.mpr (fun o ho => by simpa using htags o ho)
    rw [Port.planned, Port.retag, hnil, List.foldl_nil]
  rw [hretag]
  exact ⟨rfl, rfl, fun h => by simp [Port.carried, Port.sharesOver, h], fun h => by simp [Port.carried, Port.sharesOver, h]⟩

theorem Dev.dealClasses_one (d : Dev) (x : Port) {o : POp} {pl : Plan} (htags : pl.tags = []) (hroom : pl.room = true) (hready : d.dieReady p x pl o = true) :
    (d.dealClasses p x 1 [o] pl).tags = [o.tag] := by
  have hcan : [o].filter (fun o => !pl.tags.contains o.tag && pl.room && d.dieReady p x pl o) = [o] := by simp [htags, hroom, hready]
  unfold Dev.dealClasses
  rw [hcan]
  simp only [List.foldl_nil, Dev.dealClasses, Plan.deal, htags, List.nil_append]

theorem Dev.dieReady_read (d : Dev) {x : Port} {o : POp} {pl : Plan} (hgive : d.giving = []) (hx : x.ops = [o]) (hwait : o.stage = .waiting) (hopc : o.opc = 0x01)
    (hdies : pl.dies = []) (hgone : d.dieGone p o.die = false) : d.dieReady p x pl o = true := by
  have hrun : x.running o.die = none := by
    rw [Port.running, hx]
    simp [hopc]
  unfold Dev.dieReady
  rw [hrun]
  simp [hgive, hx, hwait, hopc, hdies, hgone]

theorem Port.forget_spec (x : Port) (pl : Plan) (ops : List POp) : (x.forget pl ops).ops = x.ops ∧ (x.forget pl ops).cutFor = x.cutFor ∧
    (x.forget pl ops).susOpen = x.susOpen := by
  unfold Port.forget
  split <;> exact ⟨rfl, rfl, rfl⟩

/-- A read of an idle die of a port that has nothing else is what the plan deals. -/
theorem Dev.cutPlan_read (d : Dev) {o : POp} {cut : Nat} (hgive : d.giving = []) (hops : (d.port p).ops = [o]) (hwait : o.stage = .waiting) (hopc : o.opc = 0x01)
    (htag : o.tag < 4096) (henq : o.enq < cut) (hsrc : o.src = .host) (hcls : 1 ≤ o.cls) (htx : (d.port p).carryTx = 0) (hrx : (d.port p).carryRx = 0)
    (hsus : (d.port p).susOpen = []) (hgone : d.dieGone p o.die = false) :
    ∃ (e : Dev) (x : Port), d.cutPlan p cut = ((e.setPort p x).sendOp p false o.tag).outCounts p ∧ e.tick = d.tick ∧ d.out <+: e.out ∧ x.ops = [o] ∧
      x.cutFor = some (cut / 2048) := by
  obtain ⟨hpops, hpsus, hptx, hprx⟩ := Port.planned_spec (x := d.port p) (fun y hy => by rw [hops, List.mem_singleton] at hy; rw [hy]; exact htag) d.gcShareOf d.rebuildShare (cut / 2048)
  have hne : o.cls ≠ 0 := Nat.ne_of_gt hcls
  have hc0 : (o.cls == 0) = false := by simpa using hne
  unfold Dev.cutPlan
  extract_lets share x ends pl ops hits d1 x1 t g src1 pl1 r rest src2 c idle all x2 dm d2 first d3 d4
  have hx : x.ops = [o] := hpops.trans hops
  have hxsus : x.susOpen = [] := hpsus.trans hsus
  have hxtx : x.carryTx = 0 := hptx htx
  have hxrx : x.carryRx = 0 := hprx hrx
  clear_value x share
  have hends : ends = [] := by simp [ends, Port.resumes, hxsus]
  have hcap : x.capped o = false := by simp [Port.capped, hc0]
  have hopsl : ops = [o] := by simp [ops, hx, hwait, htag, henq, hopc]
  have hd1 : d1 = d := if_pos (by simp [hits, hopsl, hcap])
  have hx1 : x1.ops = [o] := by simp [x1, hx, hcap]
  have hx1cut : x1.cutFor = some (cut / 2048) := rfl
  have ht : t.1 = pl := by simp [t, Dev.dealTrump, hopsl, hc0]
  have hg : g.1 = pl := by simp [g, Dev.dealShare, hopsl, POp.relocates, hsrc, ht]
  have hpl1 : pl1.tags = [] ∧ pl1.dies = [] ∧ pl1.room = true := by
    simp only [pl1, Dev.chargeShare, hg, Plan.room]
    simp [pl, hxtx, hxrx, hends]
  clear_value x1 pl1
  have hr : r.1 = pl1 := by simp [r, Dev.dealShare, hopsl, hsrc]
  have hrest : rest = [o] := by simp [rest, hopsl, hne, hsrc, POp.relocates]
  have hc : c.tags = [o.tag] := by
    simp only [c, src2, hr, hrest, hd1]
    exact d.dealClasses_one x1 hpl1.1 hpl1.2.2 (d.dieReady_read hgive hx1 hwait hopc hpl1.2.1 hgone)
  have hall : all.tags = [o.tag] := by
    have hidle : idle = [] := by simp [idle, hopsl, hsrc]
    have heq : all = c := by simp only [all, hidle, List.length_nil, Dev.dealClasses]
    rw [heq, hc]
  obtain ⟨hx2, hx2cut, -⟩ : x2.ops = x1.ops ∧ x2.cutFor = x1.cutFor ∧ x2.susOpen = x1.susOpen := Port.forget_spec _ _ _
  have hfirst : first o.tag = false := by simp [first, hopsl, hc0]
  have hd3 : d3 = d2.setPort p x2 := by simp [d3, hall, hfirst]
  have hd4 : d4 = d3 := by simp [d4, hends]
  have hd2 : d2.tick = d1.tick ∧ d2.out = d1.out := by
    simp only [d2]
    split <;> exact ⟨rfl, rfl⟩
  clear_value x2 d2
  refine ⟨d2, x2, ?_, hd2.1.trans (by rw [hd1]), by rw [hd2.2, hd1], hx2.trans hx1, hx2cut.trans hx1cut⟩
  rw [hall, hd4, hd3]
  simp [hfirst]

/-- The plan of a port with nothing but a suspension whose reads are done deals its end. -/
theorem Dev.cutPlan_resume (d : Dev) {cut die k : Nat} (hops : (d.port p).ops = []) (hsus : (d.port p).susOpen = [(die, k)]) :
    ∃ (e : Dev) (x : Port), d.cutPlan p cut = ((e.setPort p x).resumeDie p die).outCounts p ∧ e.tick = d.tick ∧ d.out <+: e.out ∧
      x.susOpen = [(die, k)] ∧ x.cutFor = some (cut / 2048) := by
  obtain ⟨hpops, hpsus, -, -⟩ := Port.planned_spec (x := d.port p) (fun y hy => by rw [hops] at hy; exact nomatch hy) d.gcShareOf d.rebuildShare (cut / 2048)
  unfold Dev.cutPlan
  extract_lets share x ends pl ops hits d1 x1 t g src1 pl1 r rest src2 c idle all x2 dm d2 first d3 d4
  have hx : x.ops = [] := hpops.trans hops
  have hxsus : x.susOpen = [(die, k)] := hpsus.trans hsus
  clear_value x share
  have hends : ends = [die] := by simp [ends, Port.resumes, hxsus, hx]
  have hopsl : ops = [] := by simp [ops, hx]
  have hd1 : d1 = d := if_pos (by simp [hits, hopsl])
  have hx1sus : x1.susOpen = [(die, k)] := hxsus
  have hx1cut : x1.cutFor = some (cut / 2048) := rfl
  have ht : t.1 = pl := by simp [t, Dev.dealTrump, hopsl]
  have hg : g.1 = pl := by simp [g, Dev.dealShare, hopsl, ht]
  have hr : r.1 = pl1 := by simp [r, Dev.dealShare, hopsl]
  have hpl1 : pl1.tags = [] := by simp only [pl1, Dev.chargeShare, hg, pl]
  clear_value x1
  have hc : c.tags = [] := by
    have hrest : rest = [] := by simp [rest, hopsl]
    simp only [c, src2, hr, hrest, List.length_nil, Dev.dealClasses]
    exact hpl1
  have hall : all.tags = [] := by
    have hidle : idle = [] := by simp [idle, hopsl]
    have heq : all = c := by simp only [all, hidle, List.length_nil, Dev.dealClasses]
    rw [heq, hc]
  obtain ⟨-, hx2cut, hx2sus⟩ : x2.ops = x1.ops ∧ x2.cutFor = x1.cutFor ∧ x2.susOpen = x1.susOpen := Port.forget_spec _ _ _
  have hd2 : d2 = d1 := if_pos (by rw [hall]; rfl)
  have hd3 : d3 = d2.setPort p x2 := by simp [d3, hall]
  have hd4 : d4 = d3.resumeDie p die := by simp [d4, hends]
  clear_value x2
  refine ⟨d2, x2, ?_, by rw [hd2, hd1], by rw [hd2, hd1], hx2sus.trans hx1sus, hx2cut.trans hx1cut⟩
  rw [hall, hd4, hd3]
  rfl

/-- An arm of a die with a fresh tag is told to the bridge. -/
theorem Dev.tells_sendArm (d : Dev) (p opc flags trick die : Nat) : ∃ tag, d.tells (d.sendFresh p { opc := opc, flags := flags, trick := trick, die := die } [])
    (.bridge p opc [flags, tag, trick, die, 0, 0, 0, 0]) := by
  unfold Dev.sendFresh
  extract_lets x tag
  have hset : d.out <+: (d.setPort p { x with nextTag := (tag + 1) % 4096 }).out := List.prefix_rfl
  exact ⟨tag, Dev.tells_within hset (Dev.tells_sendData (d.setPort p { x with nextTag := (tag + 1) % 4096 }) p _ []) List.prefix_rfl⟩

theorem Dev.resumeDie_spec (d : Dev) {die k : Nat} (hsus : (d.port p).susOpen = [(die, k)]) : (d.resumeDie p die).tick = d.tick ∧
    ((d.resumeDie p die).port p).cutFor = (d.port p).cutFor ∧ ((d.resumeDie p die).port p).susOpen = [] ∧
    ∃ tag, d.tells (d.resumeDie p die) (.bridge p 0x05 [1, tag, (d.tick / 2048 + 1) % 65536, die, 0, 0, 0, 0]) := by
  unfold Dev.resumeDie
  extract_lets x opened
  have hx1 : ∀ y : Port, (d.setPort p y).port p = y := fun y => Dev.port_setPort_self d p y
  obtain ⟨c, hc⟩ : ∃ c, c = d.setPort p { x with susOpen := x.susOpen.erase die, susDue := x.susDue.filter (· != die) } := ⟨_, rfl⟩
  have hctick : c.tick = d.tick := by rw [hc]; rfl
  have hcout : c.out = d.out := by rw [hc]; rfl
  have hccut : (c.port p).cutFor = (d.port p).cutFor := by rw [hc, hx1]
  have hcsus : (c.port p).susOpen = [] := by
    rw [hc, hx1]
    show SMap.erase (d.port p).susOpen die = []
    rw [hsus]
    simp [SMap.erase]
  rw [← hc]
  unfold Dev.sendSus
  extract_lets trick y d1
  have h1 : c.KeepsPlan p d1 := .setPort c rfl rfl rfl
  have h2 : d1.KeepsPlan p (d1.charge p 16 16) := .charge d1 _ _
  have hall : d.out <+: (d1.charge p 16 16).out ∧ c.KeepsPlan p (d1.charge p 16 16) := ⟨hcout ▸ (h1.trans h2).out, h1.trans h2⟩
  generalize d1.charge p 16 16 = f at hall
  obtain ⟨hout, hkeep⟩ := hall
  obtain ⟨tag, htell⟩ := f.tells_sendArm p 0x05 1 trick die
  have hlast : f.KeepsPlan p (f.sendFresh p { opc := 0x05, flags := 1, trick := trick, die := die } []) := .of_sends (.sendFresh f p _ [])
  generalize f.sendFresh p { opc := 0x05, flags := 1, trick := trick, die := die } [] = r at htell hlast
  have hall := hkeep.trans hlast
  refine ⟨hall.tick.trans hctick, hall.cut.trans hccut, hall.sus.trans hcsus, tag, ?_⟩
  have htrick : trick = (d.tick / 2048 + 1) % 65536 := congrArg (fun n => (n / 2048 + 1) % 65536) hctick
  rw [← htrick]
  exact Dev.tells_within hout htell List.prefix_rfl

/-- The row, where the port takes plans and asks for no token. -/
theorem doPlanCut_row (d : Dev) (hp : p < 512) (hgive : d.giving = []) (hwants : d.wants = []) (hdeals : d.portDeals p = true) (hstop : d.dlrStop = false)
    (hdue : d.cutDue p = true) (bad : Bool) :
    doPlanCut p bad d = if bad then
        ((({ d with tick := max d.tick (d.tick / 2048 * 2048 + 1536) } : Dev).setPort p
          { (d.port p).carried (d.tick / 2048) with cutFor := some (d.tick / 2048) }).recordErr 0x701 0x0004 (145 + p) 0).chkCount 0x701
      else ({ d with tick := max d.tick (d.tick / 2048 * 2048 + 1536) } : Dev).cutPlan p (d.tick / 2048 * 2048 + 1536) := by
  have htoken : d.tokenStep p = d := by
    have hg : d.giveStep p = d := by simp [Dev.giveStep, hgive]
    unfold Dev.tokenStep
    rw [hg]
    dsimp only
    rw [hwants]
    rfl
  have hcut : (d.tick / 2048 * 2048 + 1536) / 2048 = d.tick / 2048 := by omega
  unfold doPlanCut
  rw [Nat.mod_eq_of_lt hp]
  dsimp only
  rw [htoken, hdeals, hstop, hdue, hcut]
  rfl

theorem Dev.cutDue_false {n : Nat} (ht : d.tick / 2048 = n) (hc : (d.port p).cutFor = some n) : d.cutDue p = false := by
  simp [Dev.cutDue, hc, ht]

theorem cutTick_trick {n : Nat} (h : n % 2048 ≤ 1983) : max n (n / 2048 * 2048 + 1536) / 2048 = n / 2048 := by omega

/-! ### Aging and suspensions (R243, R244) -/

theorem doAgePromote_spec (d : Dev) {tag : Nat} {o : POp} (hp : p < 512) (ht : tag < 4096) (hop : (d.port p).op? tag = some o) (hwait : o.stage = .waiting)
    (hcls : 2 ≤ o.cls) (hage : (o.promo + 1) * (bits d.ageNow 11 0 * 2048) ≤ d.tick - o.enq) :
    ((doAgePromote p tag d).port p).op? tag = some { o with cls := o.cls - 1, promo := o.promo + 1 } ∧
    (doAgePromote p tag d).fld Reg.DLR_AGE_PROMO 31 0 = min (d.fld Reg.DLR_AGE_PROMO 31 0 + 1) 0xFFFFFFFF := by
  have heq : doAgePromote p tag d = (d.setPort p ((d.port p).setOp { o with cls := o.cls - 1, promo := o.promo + 1 })).inc Reg.DLR_AGE_PROMO 1 := by
    unfold doAgePromote
    rw [Nat.mod_eq_of_lt hp, Nat.mod_eq_of_lt ht]
    dsimp only
    rw [hop]
    exact if_pos ⟨hwait, hcls, hage⟩
  rw [heq]
  refine ⟨?_, Dev.fld_inc_self _ _ 1⟩
  have hport : ((d.setPort p ((d.port p).setOp { o with cls := o.cls - 1, promo := o.promo + 1 })).inc Reg.DLR_AGE_PROMO 1).port p =
      (d.port p).setOp { o with cls := o.cls - 1, promo := o.promo + 1 } := Dev.port_setPort_self d p _
  rw [hport]
  have htag : o.tag = tag := Port.tag_of_op? hop
  exact Port.op?_setOp_self hop htag

theorem doSusHoldExpire_spec (d : Dev) {die k : Nat} (hp : p < 512) (hdie : die < 64) (hk : (d.port p).susOpen.find die = some k)
    (hdue : k - 1 + bits d.susNow 15 8 * 2048 ≤ d.tick) :
    die ∈ ((doSusHoldExpire p die d).port p).susDue ∧ die ∈ ((doSusHoldExpire p die d).port p).resumes ∧
    ((doSusHoldExpire p die d).port p).ops = (d.port p).ops ∧ (doSusHoldExpire p die d).out = d.out := by
  have heq : doSusHoldExpire p die d = d.setPort p { d.port p with susDue := insertSorted (d.port p).susDue die } := by
    unfold doSusHoldExpire
    rw [Nat.mod_eq_of_lt hp, Nat.mod_eq_of_lt hdie]
    dsimp only
    rw [hk]
    exact if_pos hdue
  have hdue : die ∈ insertSorted (d.port p).susDue die := mem_insertSorted
  rw [heq, Dev.port_setPort_self]
  refine ⟨hdue, List.mem_filter.mpr ⟨List.mem_map.mpr ⟨(die, k), SMap.mem_of_find hk, rfl⟩, ?_⟩, rfl, rfl⟩
  simp [hdue]

/-! ### The exchange of time (R229) -/

theorem Dev.loseTwinLock_spec (d : Dev) : (∀ pg, (d.page pg).Later (d.loseTwinLock.page pg)) ∧
    (d.fld Reg.DLR_TIME_STS 2 1 = 2 → d.loseTwinLock.timeLocked = false) := by
  have hchange : ∀ a e : Dev, e.Reports (Dev.timeChange a e) := fun a e =>
    .ite (.refl e) ((Dev.Reports.capRec e _ _ _).trans (Dev.Reports.raise _ _ _))
  have hlock : ∀ a e : Dev, (Dev.timeChange a e).timeLocked = e.timeLocked := fun a e => Dev.flag_congr ((hchange a e).regs _ (by decide)) 0
  unfold Dev.loseTwinLock
  split
  · next h =>
    have hl : d.timeLocked = true := (Bool.and_eq_true_iff.mp h).1
    have hpages : ∀ pg, (d.timeUnlock.inc Reg.DLR_LOCK_LOSS 1).page pg = d.page pg := fun pg => by
      unfold Dev.timeUnlock
      rw [if_pos hl]
      rfl
    refine ⟨fun pg => hpages pg ▸ (hchange _ _).page pg, fun _ => (hlock _ _).trans ?_⟩
    have hflag : d.timeUnlock.flag Reg.DLR_TIME_STS 0 = false := by
      unfold Dev.timeUnlock
      rw [if_pos hl]
      exact Dev.flag_setFlag_self d _ 0 false (by decide)
    exact (Dev.flag_congr (Dev.reg_inc_ne d.timeUnlock (by decide) 1) 0).trans hflag
  · next h =>
    refine ⟨fun pg => .refl _, fun hf => ?_⟩
    have hfol : d.follows = true := by rw [Dev.follows, hf]; rfl
    cases hl : d.timeLocked
    · rfl
    · exact absurd (by rw [hl, hfol]; rfl) h

theorem doTimeExchangeTimeout_spec (d : Dev) (hlink : d.timeLink = true) (hlead : d.flag Reg.DLR_TIME_STS 4 = false) (hlate : d.exLast + 8 * 131072 ≤ d.tick)
    (herr : (d.page 0x700).err = false) :
    ((doTimeExchangeTimeout d).page 0x700).errCode = 0x0102 ∧ ((doTimeExchangeTimeout d).page 0x700).info0 = w32 ((d.tick - d.exLast) / 131072) ∧
    (d.fld Reg.DLR_TIME_STS 2 1 = 2 → (doTimeExchangeTimeout d).timeLocked = false) := by
  have heq : doTimeExchangeTimeout d =
      (({ d with exGood := 0, exLast := d.tick } : Dev).recordErr 0x700 0x0102 ((d.tick - d.exLast) / 131072) 0).loseTwinLock :=
    if_pos (by rw [hlink, hlead]; simpa using hlate)
  obtain ⟨hlater, hlock⟩ := (({ d with exGood := 0, exLast := d.tick } : Dev).recordErr 0x700 0x0102 ((d.tick - d.exLast) / 131072) 0).loseTwinLock_spec
  have hpage := Dev.page_recordErr_first { d with exGood := 0, exLast := d.tick } 0x700 0x0102 ((d.tick - d.exLast) / 131072) 0 herr
  obtain ⟨-, hcode, hinfo, -⟩ := (hlater 0x700).1 (by rw [hpage])
  rw [heq]
  refine ⟨hcode.trans (by rw [hpage]), hinfo.trans (by rw [hpage]), fun hf => hlock ?_⟩
  rw [Dev.fld_recordErr]
  exact hf

/-! ### Plans, as the row makes them -/

/-- The plan that deals the port's one read. -/
theorem doPlanCut_read (d : Dev) {o : POp} (hp : p < 512) (hgive : d.giving = []) (hwants : d.wants = []) (hdeals : d.portDeals p = true)
    (hstop : d.dlrStop = false) (hdue : d.cutDue p = true) (hops : (d.port p).ops = [o]) (hwait : o.stage = .waiting) (hopc : o.opc = 0x01)
    (htag : o.tag < 4096) (henq : o.enq < d.tick / 2048 * 2048 + 1536) (hsrc : o.src = .host) (hcls : 1 ≤ o.cls) (htx : (d.port p).carryTx = 0)
    (hrx : (d.port p).carryRx = 0) (hsus : (d.port p).susOpen = []) (hgone : d.dieGone p o.die = false) :
    (doPlanCut p false d).tick = max d.tick (d.tick / 2048 * 2048 + 1536) ∧ (doPlanCut p false d).cutDue p = false ∧
    (((doPlanCut p false d).port p).op? o.tag).map (fun y => (y.stage, y.trick)) = some (.armed, (d.tick / 2048 + 1) % 65536) ∧
    ∃ slot, d.tells (doPlanCut p false d) (.bridge p 0x01 (readArm o ((d.tick / 2048 + 1) % 65536) slot)) := by
  have hmod : d.tick % 2048 ≤ 1983 := of_decide_eq_true (Bool.and_eq_true_iff.mp hdue).2
  have htrick := cutTick_trick hmod
  have hcut : (d.tick / 2048 * 2048 + 1536) / 2048 = d.tick / 2048 := by omega
  obtain ⟨e, x, heq, htick, hout, hxops, hxcut⟩ := Dev.cutPlan_read { d with tick := max d.tick (d.tick / 2048 * 2048 + 1536) } (p := p) hgive hops hwait hopc htag henq
    hsrc hcls htx hrx hsus hgone
  have hrow := (doPlanCut_row d hp hgive hwants hdeals hstop hdue false).trans ((if_neg (by decide)).trans heq)
  have hport : (e.setPort p x).port p = x := Dev.port_setPort_self e p x
  have hset : (e.setPort p x).tick = max d.tick (d.tick / 2048 * 2048 + 1536) ∧ d.out <+: (e.setPort p x).out := ⟨htick, hout⟩
  generalize e.setPort p x = f at hrow hport hset
  obtain ⟨ftick, fout⟩ := hset
  have hfops : (f.port p).ops = [o] := by rw [hport, hxops]
  obtain ⟨h1, h2, h3, slot, h4⟩ := f.armRead_spec hfops
  rw [f.sendOp_read hfops hopc] at hrow
  generalize f.armRead p o = g at hrow h1 h2 h3 h4
  have hkeep := Dev.KeepsPlan.outCounts (p := p) g
  have hgport : (g.outCounts p).port p = g.port p := Dev.port_outCounts g p p
  rw [ftick, htrick] at h3 h4
  have hend : (g.outCounts p).tick = max d.tick (d.tick / 2048 * 2048 + 1536) := hkeep.tick.trans (h1.trans ftick)
  rw [hrow]
  refine ⟨hend, Dev.cutDue_false (n := d.tick / 2048) (by rw [hend, htrick]) ?_, by rw [hgport]; exact h3, slot, Dev.tells_within fout h4 hkeep.out⟩
  rw [hkeep.cut, h2, hport, hxcut, hcut]

/-- The plan that ends the port's one suspension. -/
theorem doPlanCut_resume (d : Dev) {die k : Nat} (hp : p < 512) (hgive : d.giving = []) (hwants : d.wants = []) (hdeals : d.portDeals p = true)
    (hstop : d.dlrStop = false) (hdue : d.cutDue p = true) (hops : (d.port p).ops = []) (hsus : (d.port p).susOpen = [(die, k)]) :
    ((doPlanCut p false d).port p).susOpen = [] ∧
    ∃ tag, d.tells (doPlanCut p false d) (.bridge p 0x05 [1, tag, (d.tick / 2048 + 1) % 65536, die, 0, 0, 0, 0]) := by
  have hmod : d.tick % 2048 ≤ 1983 := of_decide_eq_true (Bool.and_eq_true_iff.mp hdue).2
  have htrick := cutTick_trick hmod
  obtain ⟨e, x, heq, htick, hout, hxsus, -⟩ := Dev.cutPlan_resume { d with tick := max d.tick (d.tick / 2048 * 2048 + 1536) } (p := p)
    (cut := d.tick / 2048 * 2048 + 1536) hops hsus
  have hrow := (doPlanCut_row d hp hgive hwants hdeals hstop hdue false).trans ((if_neg (by decide)).trans heq)
  have hport : (e.setPort p x).port p = x := Dev.port_setPort_self e p x
  have hset : (e.setPort p x).tick = max d.tick (d.tick / 2048 * 2048 + 1536) ∧ d.out <+: (e.setPort p x).out := ⟨htick, hout⟩
  generalize e.setPort p x = f at hrow hport hset
  obtain ⟨ftick, fout⟩ := hset
  obtain ⟨-, -, h3, tag, h4⟩ := f.resumeDie_spec (p := p) (die := die) (k := k) (by rw [hport, hxsus])
  generalize f.resumeDie p die = g at hrow h3 h4
  have hkeep := Dev.KeepsPlan.outCounts (p := p) g
  rw [ftick, htrick] at h4
  rw [hrow]
  exact ⟨hkeep.sus.trans h3, tag, Dev.tells_within fout h4 hkeep.out⟩

/-- A plan whose residue fails is discarded. -/
theorem doPlanCut_bad (d : Dev) (hp : p < 512) (hgive : d.giving = []) (hwants : d.wants = []) (hdeals : d.portDeals p = true) (hstop : d.dlrStop = false)
    (hdue : d.cutDue p = true) (herr : (d.page 0x701).err = false) :
    ((doPlanCut p true d).page 0x701).errCode = 0x0004 ∧ ((doPlanCut p true d).page 0x701).info0 = w32 (145 + p) ∧
    ((doPlanCut p true d).page 0x701).chkCnt = w32 (min ((d.page 0x701).chkCnt.toNat + 1) 0xFFFFFFFF) ∧ (doPlanCut p true d).out = d.out ∧
    (doPlanCut p true d).port p = { (d.port p).carried (d.tick / 2048) with cutFor := some (d.tick / 2048) } ∧
    ∀ q, q ≠ p → (doPlanCut p true d).port q = d.port q := by
  have hrow := (doPlanCut_row d hp hgive hwants hdeals hstop hdue true).trans (if_pos rfl)
  obtain ⟨f, hf⟩ : ∃ f, f = ({ d with tick := max d.tick (d.tick / 2048 * 2048 + 1536) } : Dev).setPort p
    { (d.port p).carried (d.tick / 2048) with cutFor := some (d.tick / 2048) } := ⟨_, rfl⟩
  have hpage : f.page 0x701 = d.page 0x701 := by rw [hf]; rfl
  have hout : f.out = d.out := by rw [hf]; rfl
  have hself : f.port p = { (d.port p).carried (d.tick / 2048) with cutFor := some (d.tick / 2048) } := by
    rw [hf]
    exact Dev.port_setPort_self _ p _
  have hother : ∀ q, q ≠ p → f.port q = d.port q := fun q hq => by
    rw [hf]
    exact Dev.port_setPort_ne _ p hq _
  rw [← hf] at hrow
  have hfirst := Dev.page_recordErr_first f 0x701 0x0004 (145 + p) 0 (by rw [hpage]; exact herr)
  have hrest := Dev.recordErr_eq f 0x701 0x0004 (145 + p) 0
  have hgports : (f.recordErr 0x701 0x0004 (145 + p) 0).ports = f.ports := by rw [hrest]
  have hgout : (f.recordErr 0x701 0x0004 (145 + p) 0).out = f.out := by rw [hrest]
  generalize f.recordErr 0x701 0x0004 (145 + p) 0 = g at hrow hfirst hgports hgout
  have hgport : ∀ q, (g.chkCount 0x701).port q = f.port q := fun q => by
    show g.port q = f.port q
    rw [Dev.port, hgports, Dev.port]
  have hcount : (g.chkCount 0x701).page 0x701 = { g.page 0x701 with chkCnt := w32 (satN 32 ((g.page 0x701).chkCnt.toNat + 1)) } := Dev.page_setPage_self g _ _
  rw [hrow, hcount, hfirst, hpage]
  exact ⟨rfl, rfl, rfl, hgout.trans hout, (hgport p).trans hself, fun q hq => (hgport q).trans (hother q hq)⟩

end

/-! ### O27 -/

/-- Settles O27: the boundaries set the count, the marks, the shares and the settings; a plan of one operation or of one suspension is dealt in
one step of its order, and a plan of a bad residue leaves the port; promotion, the end of a suspension and the missed exchange are one row each. -/
theorem plansAndBoundaries : Obligations.PlansAndBoundaries := by
  unfold Obligations.PlansAndBoundaries
  refine ⟨fun s hrun hmode => ⟨?_, fun hstep hsort => ?_⟩, fun s hrun => ⟨fun p hp hgive hwants hdeals hstop hdue => ?_, fun p tag o hp ht hop hwait hcls hage => ?_,
    fun p die k hp hdie hk hdue => ?_, fun hlink hlead hlate herr => ?_⟩⟩
  · exact ⟨_, act_of_running s doTrickBoundary hrun, doTrickBoundary_spec s.dev hmode⟩
  · obtain ⟨h1, h2, h3, h4, h5, h6, h7, h8⟩ := doTrickGroupBoundary_spec s.dev hmode hstep hsort
    refine ⟨_, act_of_running s doTrickGroupBoundary hrun, h1, h2, h3, h4, h5, h6, h7, fun k hk => ?_⟩
    obtain ⟨ha, hb⟩ := Prod.mk.inj (h8 k hk)
    obtain ⟨hb, hc⟩ := Prod.mk.inj hb
    exact ⟨ha, hb, hc⟩
  · intro x next
    refine ⟨fun o hops hwait hopc htag henq hsrc hcls _ htx hrx hsus hgone => ?_, fun die k hops hsus => ?_, fun herr => ?_⟩
    · exact ⟨_, act_of_running s (doPlanCut p false) hrun,
        doPlanCut_read s.dev hp hgive hwants hdeals hstop hdue hops hwait hopc htag henq hsrc hcls htx hrx hsus hgone⟩
    · obtain ⟨h1, tag, h2⟩ := doPlanCut_resume s.dev hp hgive hwants hdeals hstop hdue hops hsus
      exact ⟨_, tag, act_of_running s (doPlanCut p false) hrun, h1, h2⟩
    · exact ⟨_, act_of_running s (doPlanCut p true) hrun, doPlanCut_bad s.dev hp hgive hwants hdeals hstop hdue herr⟩
  · exact ⟨_, act_of_running s (doAgePromote p tag) hrun, doAgePromote_spec s.dev hp ht hop hwait hcls hage⟩
  · exact ⟨_, act_of_running s (doSusHoldExpire p die) hrun, doSusHoldExpire_spec s.dev hp hdie hk hdue⟩
  · exact ⟨_, act_of_running s doTimeExchangeTimeout hrun, doTimeExchangeTimeout_spec s.dev hlink hlead hlate herr⟩

end Sys2Proof.Machine
end

section
/-! The frames of the rows that read: commands whose units are dispatched and pass, blocks that no flash page holds (R15, R16, R97, R143). -/

namespace Sys2Proof.Machine

-- In order, one declaration at a time: keeps the check within its memory limit.
set_option Elab.async false

/-! ### A command of a row that reads goes on -/

/-- The device without what a row that reads changes before its command ends. -/
def Dev.sansPass (d : Dev) : Dev := { d.sansFetch with queues := [], slices := [] }

/-- From `d` to `t` a command of the queue goes on: its ring stays, and every slice's PASID. -/
structure Dev.Passes (qid : Nat) (d t : Dev) : Prop where
  frame : Dev.PortFrame Dev.sansPass d t
  posted : (t.queue qid).cqPosted = (d.queue qid).cqPosted
  fault : (t.queue qid).cqFault = (d.queue qid).cqFault
  held : (t.queue qid).held = (d.queue qid).held
  pasid : ∀ s, (t.slice s).pasid = (d.slice s).pasid

section
variable {d e t : Dev} {qid : Nat}

theorem Dev.Passes.refl (d : Dev) (qid : Nat) : d.Passes qid d := ⟨.refl d, rfl, rfl, rfl, fun _ => rfl⟩

theorem Dev.Passes.trans (h : d.Passes qid e) (h' : e.Passes qid t) : d.Passes qid t :=
  ⟨h.frame.trans h'.frame, h'.posted.trans h.posted, h'.fault.trans h.fault, h'.held.trans h.held, fun s => (h'.pasid s).trans (h.pasid s)⟩

theorem Dev.Passes.ite {c : Prop} [Decidable c] (h : d.Passes qid e) (h' : d.Passes qid t) : d.Passes qid (if c then e else t) := by
  split
  · exact h
  · exact h'

theorem Dev.Passes.foldl {α : Type} {f : Dev → α → Dev} (h : ∀ (e : Dev) x, e.Passes qid (f e x)) (l : List α) (d : Dev) : d.Passes qid (l.foldl f d) :=
  List.foldlRecOn (motive := fun e : Dev => d.Passes qid e) l f (.refl d qid) (fun e he x _ => he.trans (h e x))

theorem Dev.Passes.of_fetches (h : d.Fetches t) : d.Passes qid t := by
  have hq : t.queues = d.queues := congrArg (·.queues) h.kept
  have hs : t.slices = d.slices := congrArg (·.slices) h.kept
  have hqueue := Dev.queue_congr hq qid
  have hkept : t.sansPass = d.sansPass := congrArg (fun x : Dev => { x with queues := [], slices := [] }) h.kept
  exact ⟨⟨hkept, h.regs, h.out, h.page⟩, by rw [hqueue], by rw [hqueue], by rw [hqueue], fun s => by rw [Dev.slice, hs, Dev.slice]⟩

theorem Dev.Passes.of_serves (h : d.Serves t) : d.Passes qid t := .of_fetches h.fetches

theorem Dev.Passes.emit (d : Dev) (o : Out) : d.Passes qid (d.emit o) := .of_serves (.emit d o)

theorem Dev.Passes.setCmd (d : Dev) (c : Cmd) : d.Passes qid (d.setCmd qid c) := by
  obtain ⟨-, -, -, hposted, -, -, hheld, hfault⟩ := (Dev.queue_setCmd (qid := qid) d c).fields
  exact ⟨.hide rfl, hposted, hfault, hheld, fun _ => rfl⟩

theorem Dev.Passes.setSlice (d : Dev) (s : Nat) {x : Slice} (hx : x.pasid = (d.slice s).pasid) : d.Passes qid (d.setSlice s x) := by
  refine ⟨.hide rfl, rfl, rfl, rfl, fun k => ?_⟩
  by_cases hk : k = s
  · rw [hk, Dev.slice_setSlice_self]
    exact hx
  · rw [Dev.slice_setSlice_ne d hk]

/-- No register of the host link is among those. -/
theorem hif_notFetch {off : Nat} (h : 0x100000 ≤ off) (h' : off < 0x200000) : off ∉ fetchRegs := fun hm => by
  have hall : ∀ x ∈ fetchRegs, x < 0x100000 ∨ 0x200000 ≤ x := by decide
  have := hall off hm
  omega

theorem Dev.Passes.headUp (h : d.Passes qid t) (n : Nat) : t.headUp n = d.headUp n :=
  Dev.headUp_congr (fun k hk => h.frame.regs _ (by interval_cases k <;> decide) (by interval_cases k <;> decide)) n

theorem Dev.Passes.sliceHead (h : d.Passes qid t) (s : Nat) (hs : s < 1024) : t.sliceHead s = d.sliceHead s :=
  Dev.sliceHead_congr (h.frame.regs _ (by simp only [Reg.HIF_SLICE_HEAD]; omega) (hif_notFetch (by simp only [Reg.HIF_SLICE_HEAD]; omega)
    (by simp only [Reg.HIF_SLICE_HEAD]; omega))) (fun k hk => h.frame.regs _ (by interval_cases k <;> decide) (by interval_cases k <;> decide))

theorem Dev.Passes.canPost (h : d.Passes qid t) (hqid : qid < 16384) (hp : d.canPost qid) : t.canPost qid := by
  obtain ⟨h1, h2, h3⟩ := hp
  exact ⟨(h.sliceHead (qid / 16) (by omega)).symm ▸ h1, h.fault.trans h2, h.held.trans h3⟩

/-- The completion after it. -/
theorem Dev.Passes.posts (h : d.Passes qid e) (hqid : qid < 16384) (hp : d.canPost qid) (tag st info : Nat) : d.posts (e.complete qid tag st info) qid tag st info :=
  Dev.posts_post (h.canPost hqid hp) (by decide) h.posted h.frame.out List.prefix_rfl

theorem Dev.Passes.succeeds (h : d.Passes qid e) (hqid : qid < 16384) (hp : d.canPost qid) (c : Cmd) (us : Nat) (rebuilt single : Bool) :
    d.posts (e.succeed qid c us rebuilt single) qid c.tag (successStatus us rebuilt single) (successInfo us rebuilt single) :=
  (h.trans (.setCmd e _)).posts hqid hp c.tag _ _

theorem Dev.out_complete (d : Dev) (qid tag st info : Nat) : d.out <+: (d.complete qid tag st info).out := (Dev.Posts.complete d qid tag st info).out

theorem Dev.out_succeed (d : Dev) (qid : Nat) (c : Cmd) (us : Nat) (rebuilt single : Bool) : d.out <+: (d.succeed qid c us rebuilt single).out :=
  (Dev.out_complete (d.setCmd qid { c with wakeUs := us, rebuilt := rebuilt, single := single }) qid c.tag _ _)

/-! ### Units (R97, R143) -/

/-- `c'` is `c` with units dispatched or passed, on head `h`. -/
structure Cmd.Passed (h : Nat) (c c' : Cmd) : Prop where
  rest : c' = { c with units := c'.units, sgen := c'.sgen, qgen := c'.qgen, ioTick := c'.ioTick, heads := c'.heads, fin := c'.fin, looked := c'.looked }
  heads : ∃ n, c'.heads = c.heads ++ List.replicate n h

theorem Cmd.Passed.refl (h : Nat) (c : Cmd) : c.Passed h c := ⟨rfl, 0, (List.append_nil _).symm⟩

theorem Cmd.Passed.trans {h : Nat} {c c1 c2 : Cmd} (h1 : c.Passed h c1) (h2 : c1.Passed h c2) : c.Passed h c2 := by
  obtain ⟨n, hn⟩ := h1.heads
  obtain ⟨m, hm⟩ := h2.heads
  refine ⟨?_, n + m, by rw [hm, hn, List.append_assoc, List.replicate_append_replicate]⟩
  have hr := h2.rest
  rw [h1.rest] at hr
  exact hr

/-- The parts of a command that pass unchanged. -/
theorem Cmd.Passed.fields {h : Nat} {c c' : Cmd} (hp : c.Passed h c') : c'.tag = c.tag ∧ c'.op = c.op ∧ c'.lba = c.lba ∧ c'.nblk = c.nblk ∧ c'.fetched = c.fetched ∧
    c'.cls = c.cls ∧ c'.wakeUs = c.wakeUs ∧ c'.bad = c.bad := by
  rw [hp.rest]
  exact ⟨rfl, rfl, rfl, rfl, rfl, rfl, rfl, rfl⟩

theorem Cmd.Passed.pages {h : Nat} {c c' : Cmd} (hp : c.Passed h c') (lists : List (List Nat)) : c'.pages lists = c.pages lists := by
  rw [hp.rest]
  rfl

theorem Dev.Passes.unitHead (hd : d.Passes qid t) (hqid : qid < 16384) {h : Nat} (hh : d.sliceHead (qid / 16) = some h) {c c' : Cmd} (hc : c.Passed h c') (i : Nat) :
    t.unitHead qid c' i = d.unitHead qid c i := by
  obtain ⟨n, hn⟩ := hc.heads
  unfold Dev.unitHead
  rw [hd.sliceHead (qid / 16) (by omega), hh, hn, List.getElem?_append]
  by_cases hi : i < c.heads.length
  · simp only [if_pos hi, hd.headUp]
  · rw [if_neg hi, List.getElem?_eq_none (Nat.not_lt.mp hi)]
    cases hr : (List.replicate n h)[i - c.heads.length]? with
    | none => rfl
    | some x =>
      have hx : x = h := List.eq_of_mem_replicate (List.mem_of_getElem? hr)
      simp only [hx, Option.getD_some, ite_self]

theorem Dev.Passes.hostReads (d : Dev) (c : Cmd) (f : Nat → Nat) (addrs : List Nat) : d.Passes qid (d.hostReads qid c f addrs) :=
  .foldl (fun e _ => .emit e _) _ d

/-! ### Blocks that no flash page holds -/

/-- From `d` to `t` the flash stays, and whether replay fences the keys. -/
structure Dev.KeepsBlks (d t : Dev) : Prop where
  flash : t.flash = d.flash
  rp : t.reg Reg.SCP_RP_STS = d.reg Reg.SCP_RP_STS

theorem Dev.KeepsBlks.refl (d : Dev) : d.KeepsBlks d := ⟨rfl, rfl⟩

theorem Dev.KeepsBlks.trans (h : d.KeepsBlks e) (h' : e.KeepsBlks t) : d.KeepsBlks t := ⟨h'.flash.trans h.flash, h'.rp.trans h.rp⟩

theorem Dev.KeepsBlks.ite {c : Prop} [Decidable c] (h : d.KeepsBlks e) (h' : d.KeepsBlks t) : d.KeepsBlks (if c then e else t) := by
  split
  · exact h
  · exact h'

theorem Dev.KeepsBlks.foldl {α : Type} {f : Dev → α → Dev} (h : ∀ (e : Dev) x, e.KeepsBlks (f e x)) (l : List α) (d : Dev) : d.KeepsBlks (l.foldl f d) :=
  List.foldlRecOn (motive := fun e : Dev => d.KeepsBlks e) l f (.refl d) (fun e he x _ => he.trans (h e x))

theorem Dev.KeepsBlks.of_regs (hf : t.flash = d.flash) (hr : t.regs = d.regs) : d.KeepsBlks t := ⟨hf, by rw [Dev.reg, hr, Dev.reg]⟩

theorem Dev.KeepsBlks.of_reports (h : d.Reports t) : d.KeepsBlks t := ⟨congrArg (·.flash) h.kept, h.regs _ (by decide)⟩

theorem Dev.KeepsBlks.setReg (d : Dev) {off : Nat} (h : off ≠ Reg.SCP_RP_STS) (v : Word) : d.KeepsBlks (d.setReg off v) := ⟨rfl, Dev.reg_setReg_ne d h.symm v⟩

theorem Dev.KeepsBlks.emit (d : Dev) (o : Out) : d.KeepsBlks (d.emit o) := ⟨rfl, rfl⟩

theorem Dev.KeepsBlks.hostReads (d : Dev) (c : Cmd) (f : Nat → Nat) (addrs : List Nat) : d.KeepsBlks (d.hostReads qid c f addrs) :=
  .foldl (fun e _ => .emit e _) _ d

theorem Dev.KeepsBlks.crCounts (d : Dev) : d.KeepsBlks d.crCounts := by
  have huse : d.KeepsBlks ((List.range 10).foldl (fun d c => d.setFld (Reg.STK_CR_USED c) 23 0 (d.crUsed c)) d) :=
    .foldl (fun e c => .setReg e (by simp only [Reg.STK_CR_USED, Reg.SCP_RP_STS]; omega) _) _ d
  exact ((huse.trans (.setReg _ (by decide) _)).trans (.setReg _ (by decide) _)).trans (.setReg _ (by decide) _)

theorem Dev.KeepsBlks.freeCredit (d : Dev) (p : Nat → Bool) : d.KeepsBlks (d.freeCredit p) := by
  have hold : ∀ (e : Dev) m, e.KeepsBlks { e with crHold := m } := fun _ _ => ⟨rfl, rfl⟩
  exact .ite ((hold d _).trans (.crCounts _)) (.refl d)

theorem Dev.KeepsBlks.takeCredit (d : Dev) (c n u : Nat) : d.KeepsBlks (d.takeCredit c n u).2 := by
  have hold : ∀ (e : Dev) m w, e.KeepsBlks { e with crHold := m, crWait := w } := fun _ _ _ => ⟨rfl, rfl⟩
  have hwait : ∀ (e : Dev) w, e.KeepsBlks { e with crWait := w } := fun _ _ => ⟨rfl, rfl⟩
  unfold Dev.takeCredit
  extract_lets d1
  have h1 : d.KeepsBlks d1 := .freeCredit d _
  clear_value d1
  split
  · exact h1
  · split
    · exact h1.trans ((hold d1 _ _).trans (.crCounts _))
    · split
      · exact h1
      · exact h1.trans ((hwait d1 _).trans (.setReg _ (by decide) _))

theorem Dev.KeepsBlks.dropOwned (d : Dev) (w : Nat) : d.KeepsBlks (d.dropOwned w) := by
  have hcount : ∀ (e : Dev) p, e.KeepsBlks (e.outCounts p) := fun e p => .setReg e (by simp only [Reg.FCH_P_OUT, Reg.SCP_RP_STS]; omega) _
  have hport : ∀ (e : Dev) p x, e.KeepsBlks (e.setPort p x) := fun _ _ _ => ⟨rfl, rfl⟩
  exact .foldl (fun e kv => (hport e _ _).trans (hcount _ _)) _ d

theorem Dev.KeepsBlks.lookup (d : Dev) (s cls : Nat) (first : Bool) (gs : List Nat) : d.KeepsBlks (d.lookup s cls first gs).2 := by
  have hseen : ∀ (e : Dev) kind src fs off, off ≠ Reg.SCP_RP_STS → e.KeepsBlks ((e.capRec kind src fs).inc off 1) := fun e kind src fs off h =>
    (Dev.KeepsBlks.of_reports (Dev.Reports.capRec e kind src fs)).trans (.setReg _ h _)
  have href : ∀ (e : Dev) l, e.KeepsBlks { e with refBits := l } := fun _ _ => ⟨rfl, rfl⟩
  have hwant : ∀ (e : Dev) pk cls, e.KeepsBlks (e.wantPage pk cls) := fun e pk cls => by
    have hadd : ∀ l, e.KeepsBlks { e with mapWant := l } := fun _ => ⟨rfl, rfl⟩
    exact hadd _
  refine .foldl (fun e g => ?_) _ d
  extract_lets pk e1
  have h1 : e.KeepsBlks e1 := .ite (hseen e _ _ _ _ (by split <;> decide)) (.refl e)
  exact .ite (h1.trans (href e1 _)) (.ite h1 (h1.trans (hwant e1 _ _)))

theorem Dev.KeepsBlks.decrypt (d : Dev) (s lba : Nat) : d.KeepsBlks (d.decrypt s lba) := by
  unfold Dev.decrypt
  extract_lets b d1
  have h1 : d.KeepsBlks d1 := .setReg d (by decide) _
  refine .ite (.refl d) (.ite (h1.trans ?_) h1)
  exact (Dev.KeepsBlks.setReg d1 (off := Reg.CRY_GCM_FAIL) (by decide) _).trans ((Dev.KeepsBlks.of_reports (Dev.Reports.recordErr _ _ _ _ _)).trans
    (.of_reports (Dev.Reports.raise _ _ _)))

theorem Dev.admitUnits_passes (d : Dev) {h : Nat} (hh : d.sliceHead (qid / 16) = some h) (c : Cmd) (n : Nat) :
    c.Passed h (d.admitUnits qid c n).1 ∧ d.Passes qid (d.admitUnits qid c n).2 ∧ d.SameFlash (d.admitUnits qid c n).2 ∧
    d.KeepsBlks (d.admitUnits qid c n).2 := by
  unfold Dev.admitUnits
  extract_lets x k c'
  split
  · exact ⟨.refl h c, .refl d qid, .refl d, .refl d⟩
  · refine ⟨⟨rfl, k, ?_⟩, Dev.Passes.trans (e := d.setSlice (qid / 16) { x with inflight := x.inflight + k }) (.setSlice d _ rfl) (.setCmd _ c'), .hide rfl, .of_regs rfl rfl⟩
    show c.heads ++ List.replicate k ((d.sliceHead (qid / 16)).getD (d.headByte (qid / 16) % 4)) = _
    rw [hh]
    rfl

theorem Dev.passUnits_passes (d : Dev) {h : Nat} (hh : d.sliceHead (qid / 16) = some h) (c : Cmd) :
    c.Passed h (d.passUnits qid c).1 ∧ d.Passes qid (d.passUnits qid c).2 ∧ d.KeepsBlks (d.passUnits qid c).2 := by
  obtain ⟨h1, h2, -, h3⟩ := d.admitUnits_passes hh c c.nblk
  unfold Dev.passUnits
  extract_lets r c1 c'
  have hc' : r.1.Passed h c' := by
    refine ⟨rfl, r.1.nblk - r.1.units, ?_⟩
    show r.1.heads ++ List.replicate (r.1.nblk - r.1.units) ((d.sliceHead (qid / 16)).getD (d.headByte (qid / 16) % 4)) = _
    rw [hh]
    rfl
  exact ⟨h1.trans hc', h2.trans (.setCmd r.2 c'), h3.trans (.of_regs rfl rfl)⟩

/-- What stands of the map and the cache. -/
theorem Dev.Passes.side (h : d.Passes qid t) : t.cache = d.cache ∧ t.mapPend = d.mapPend ∧ t.lost = d.lost ∧ t.map = d.map ∧ t.ctxs = d.ctxs ∧ t.bands = d.bands ∧
    t.elog = d.elog ∧ t.resident = d.resident ∧ t.metaAt = d.metaAt := by
  have hk := h.frame.kept
  exact ⟨congrArg (·.cache) hk, congrArg (·.mapPend) hk, congrArg (·.lost) hk, congrArg (·.map) hk, congrArg (·.ctxs) hk, congrArg (·.bands) hk,
    congrArg (·.elog) hk, congrArg (·.resident) hk, congrArg (·.metaAt) hk⟩

theorem Dev.Passes.entHere (h : d.Passes qid t) (s g : Nat) : t.entHere s g = d.entHere s g := by
  obtain ⟨-, -, -, -, -, -, -, hr, hm⟩ := h.side
  rw [Dev.entHere, hr, Dev.mapExists, hr, hm, Dev.entHere, Dev.mapExists]

section
variable (hp : d.Passes qid t) (hb : d.KeepsBlks t)
include hp hb

/-- `t` with the ports, registers and pages of `d` reads the flash as `d` does. -/
theorem Dev.KeepsBlks.sameFlash : d.SameFlash { t with ports := d.ports, regs := d.regs, pages := d.pages } := by
  obtain ⟨hc, hm, hl, hmap, -, hbands, helog, -⟩ := hp.side
  refine .hide ?_
  show (t.flash, d.ports, t.bands, t.cache, t.mapPend, t.lost, t.map, t.elog) = d.flashSide
  rw [hb.flash, hbands, hc, hm, hl, hmap, helog]
  rfl

theorem Dev.KeepsBlks.cachedBlk (s lba : Nat) : t.cachedBlk s lba = d.cachedBlk s lba := (Dev.KeepsBlks.sameFlash hp hb).cachedBlk s lba

theorem Dev.KeepsBlks.stored (s g : Nat) : t.stored s g = d.stored s g := (Dev.KeepsBlks.sameFlash hp hb).stored s g

theorem Dev.KeepsBlks.pageLost (s g : Nat) : t.pageLost s g = d.pageLost s g := (Dev.KeepsBlks.sameFlash hp hb).pageLost s g

theorem Dev.KeepsBlks.fromFlash (s lba : Nat) : t.fromFlash s lba = d.fromFlash s lba := (Dev.KeepsBlks.sameFlash hp hb).fromFlash s lba

/-- A block that no flash page holds is served as before. -/
theorem Dev.KeepsBlks.servedBlk {s lba : Nat} (h : d.fromFlash s lba = false) : t.servedBlk s lba = d.servedBlk s lba := by
  have hfill : ∀ x : Dev, x.stored s (lba / 8) = none → x.flashBlk s lba = filledBlk s lba := fun x hx => by
    rw [Dev.flashBlk, hx]
  unfold Dev.servedBlk
  rw [Dev.KeepsBlks.cachedBlk hp hb, Dev.KeepsBlks.stored hp hb, Dev.KeepsBlks.pageLost hp hb]
  cases hcache : d.cachedBlk s lba with
  | some b => rfl
  | none =>
    cases hst : d.stored s (lba / 8) with
    | none => rw [hfill t ((Dev.KeepsBlks.stored hp hb s _).trans hst), hfill d hst]
    | some g =>
      have hlost : d.pageLost s (lba / 8) = true := by
        rw [Dev.fromFlash, hcache, hst] at h
        simpa using h
      rw [hlost]
      rfl

omit hp in
theorem Dev.KeepsBlks.rpFence : t.rpFence = d.rpFence := Dev.flag_congr hb.rp 0

omit hb in
theorem Dev.KeepsBlks.ctx (k : Nat) : t.ctx k = d.ctx k := by
  obtain ⟨-, -, -, -, hc, -⟩ := hp.side
  rw [Dev.ctx, hc, Dev.ctx]

theorem Dev.KeepsBlks.plainOf (s lba : Nat) (b : Blk) : t.plainOf s lba b = d.plainOf s lba b := by
  simp only [Dev.plainOf, Dev.KeepsBlks.rpFence hb, Dev.KeepsBlks.ctx hp]

theorem Dev.KeepsBlks.blockFail {c c' : Cmd} {h : Nat} (hc : c.Passed h c') {s i : Nat} (hf : d.fromFlash s (c.lba + i) = false) :
    t.blockFail c' s i [] = d.blockFail c s i [] := by
  have hcmd : c'.lba = c.lba ∧ c'.bad = c.bad ∧ c'.sco = c.sco ∧ c'.apptag = c.apptag := by
    rw [hc.rest]
    exact ⟨rfl, rfl, rfl, rfl⟩
  obtain ⟨hlba, hbad, hsco, happ⟩ := hcmd
  have hkey : ∀ b, t.keyOk s b = d.keyOk s b := fun b => by simp only [Dev.keyOk, Dev.KeepsBlks.ctx hp]
  have htag : ∀ lba b, t.tagBad s lba b = d.tagBad s lba b := fun lba b => by simp only [Dev.tagBad, Dev.KeepsBlks.ctx hp, Dev.KeepsBlks.rpFence hb]
  have hseal : ∀ lba b, t.sealBad c' s lba b = d.sealBad c s lba b := fun lba b => by
    simp only [Dev.sealBad, Dev.sealOff, Dev.KeepsBlks.plainOf hp hb, hsco, happ]
  unfold Dev.blockFail
  dsimp only
  rw [hlba, hbad, Dev.KeepsBlks.servedBlk hp hb hf, hkey, htag, hseal]

end

end

end Sys2Proof.Machine
end

section
/-! The rows that read: READ, VERIFY, SEAL_READ, FLUSH and the reports (R15, R16, R108, R109, R116, R120, R128, R518). -/

namespace Sys2Proof.Machine

-- In order, one declaration at a time: keeps the check within its memory limit.
set_option Elab.async false

section
variable {d e t : Dev} {qid h : Nat} {c c' : Cmd}

/-! ### A read-type command runs to its end -/

/-- Its blocks come from no flash page. -/
def Dev.cached (d : Dev) (s : Nat) (c : Cmd) : Prop := ∀ lba ∈ lbasOf c.lba c.nblk, d.fromFlash s lba = false

theorem Dev.cached.block {s i : Nat} (hc : d.cached s c) (hi : i < c.nblk) : d.fromFlash s (c.lba + i) = false :=
  hc _ (List.mem_map.mpr ⟨i, List.mem_range.mpr hi, rfl⟩)

/-- Of cached blocks nothing is wanted from flash. -/
theorem Dev.cached.want {s : Nat} (hc : d.cached s c) : d.wantFlash s c.lba c.nblk = fun _ => [] := by
  funext g
  refine List.filter_eq_nil_iff.mpr (fun k _ hk => ?_)
  simp only [Bool.and_eq_true, decide_eq_true_eq] at hk
  obtain ⟨⟨h1, h2⟩, h3⟩ := hk
  have hf := hc.block (i := 8 * g + k - c.lba) (by omega)
  rw [Nat.add_sub_cancel' h1] at hf
  exact absurd (hf.symm.trans h3) (by decide)

theorem Dev.flashWant_nil (d : Dev) (s : Nat) (gs : List Nat) : d.flashWant s (fun _ => []) gs = [] :=
  List.filterMap_eq_nil_iff.mpr (fun _ _ => rfl)

/-- Cached blocks wait for no read. -/
theorem Dev.cached.came {s : Nat} (hc : d.cached s c) (w cls : Nat) : (d.flashReads w cls s (d.wantFlash s c.lba c.nblk) (granulesOf c.lba c.nblk)).1 = true := by
  rw [hc.want]
  simp only [Dev.flashReads, Dev.flashWant_nil, List.all_nil]

theorem Dev.takeFlash_nil (d : Dev) (w s : Nat) (gs : List Nat) : d.takeFlash w s (fun _ => []) gs = ([], d.dropOwned w) := by
  unfold Dev.takeFlash
  rw [Dev.flashWant_nil]
  rfl

/-- The reads that have come let a command go on. -/
theorem Dev.fetchFlash_go (d : Dev) (qid : Nat) (c : Cmd) (all : Bool) (want : Nat → List Nat) (go : Dev → Dev)
    (h : (d.flashReads c.fetched c.cls (qid / 16) want (granulesOf c.lba c.nblk)).1 = true) : d.fetchFlash qid c all want go = go d := if_pos h

/-- What a command that runs to its end ends with: the command passed, the outcomes of its blocks, the device. -/
structure Dev.RunsTo (d : Dev) (qid h : Nat) (c : Cmd) (c' : Cmd) (outs : List (Nat × CwOut)) (e : Dev) : Prop where
  cmd : c.Passed h c'
  passes : d.Passes qid e
  served : d.cached (qid / 16) c → outs = [] ∧ d.KeepsBlks e

theorem Dev.runRead_runs (d : Dev) (hqid : qid < 16384) (hh : d.sliceHead (qid / 16) = some h) (c : Cmd)
    (here : ∀ g ∈ granulesOf c.lba c.nblk, d.entHere (qid / 16) g = true)
    (came : (d.flashReads c.fetched c.cls (qid / 16) (d.wantFlash (qid / 16) c.lba c.nblk) (granulesOf c.lba c.nblk)).1 = true)
    {pre : Dev → Dev} (hpre : ∀ x : Dev, x.Passes qid (pre x) ∧ x.KeepsBlks (pre x)) (fin : Cmd → List (Nat × CwOut) → Dev → Dev) :
    ∃ c' outs e, d.runRead qid c pre fin = fin c' outs e ∧ d.RunsTo qid h c c' outs e := by
  obtain ⟨hc1, hp1, hs1, hb1⟩ := d.admitUnits_passes hh c c.nblk
  unfold Dev.runRead
  extract_lets s u c1 c2
  have hc1' : c.Passed h c1 := hc1
  obtain ⟨-, -, hlba, hnblk, hfetched, hcls, -, -⟩ := hc1'.fields
  have hgs : granulesOf c1.lba c1.nblk = granulesOf c.lba c.nblk := by rw [hlba, hnblk]
  have here1 : ∀ g ∈ granulesOf c1.lba c1.nblk, u.2.entHere s g = true := fun g hg => (hp1.entHere s g).trans (here g (hgs ▸ hg))
  obtain ⟨hall, hlook⟩ := Dev.Looks.lookup (d := u.2) s c1.cls (!c1.looked) here1
  have hblook := Dev.KeepsBlks.lookup u.2 s c1.cls (!c1.looked) (granulesOf c1.lba c1.nblk)
  have hc12 : c1.Passed h c2 := ⟨rfl, 0, (List.append_nil _).symm⟩
  clear_value c2
  have hcmd := hc1'.trans hc12
  obtain ⟨-, -, hlba2, hnblk2, hfetched2, hcls2, -, -⟩ := hcmd.fields
  unfold Dev.lookups
  extract_lets t
  rw [if_pos hall]
  dsimp only
  rw [hlba2, hnblk2]
  have hp2 : d.Passes qid t.2 := hp1.trans (.of_fetches hlook.fetches)
  have hb2 : d.KeepsBlks t.2 := hb1.trans hblook
  have hs2 : d.SameFlash t.2 := hs1.trans hlook.flash
  clear_value t
  have hcame : (t.2.flashReads c2.fetched c2.cls s (t.2.wantFlash s c.lba c.nblk) (granulesOf c2.lba c2.nblk)).1 = true := by
    rw [hs2.came, hs2.wantFlash, hfetched2, hcls2, hlba2, hnblk2]
    exact came
  obtain ⟨hprep, hpreb⟩ := hpre t.2
  have hp3 := hp2.trans hprep
  obtain ⟨hc4, hp4, hb4⟩ := (pre t.2).passUnits_passes ((hp3.sliceHead (qid / 16) (by omega)).trans hh) c2
  refine ⟨((pre t.2).passUnits qid c2).1, _, _, Dev.fetchFlash_go _ _ _ _ _ _ hcame, hcmd.trans hc4, ?_, fun hcached => ?_⟩
  · exact (hp3.trans hp4).trans (.of_serves (.takeFlash _ _ _ _ _))
  · have hb := (hb2.trans hpreb).trans hb4
    have hp := hp3.trans hp4
    have hwant : ((pre t.2).passUnits qid c2).2.wantFlash s c.lba c.nblk = fun _ => [] := by
      rw [← hcached.want]
      funext g
      simp only [Dev.wantFlash, Dev.KeepsBlks.fromFlash hp hb]
      rfl
    rw [hwant, Dev.takeFlash_nil]
    exact ⟨rfl, hb.trans (.dropOwned _ _)⟩

/-! ### Its credit, its completion -/

/-- A row under credit that is to be had runs; what it told stays told. -/
theorem Dev.withCredit_runs (d : Dev) (hpay : (d.takeCredit (d.creditFor c).1 (d.creditFor c).2 (qid * 32 + c.tag)).1 = true) (run : Dev → Dev) :
    ∃ e : Dev, d.Passes qid e ∧ d.SameFlash e ∧ d.KeepsBlks e ∧ (run e).out <+: (d.withCredit qid c run).out := by
  refine ⟨(d.takeCredit (d.creditFor c).1 (d.creditFor c).2 (qid * 32 + c.tag)).2, .of_serves (.takeCredit d _ _ _), .takeCredit d _ _ _, .takeCredit d _ _ _, ?_⟩
  unfold Dev.withCredit
  extract_lets u t d1
  rw [if_pos (show t.1 = true from hpay)]
  split
  · exact List.prefix_rfl
  · exact (Dev.PortFrame.freeCredit d1 _).out

/-- What a read-type row under its credit leads to. -/
theorem Dev.withCredit_read (d : Dev) (hqid : qid < 16384) (hh : d.sliceHead (qid / 16) = some h)
    (hpay : (d.takeCredit (d.creditFor c).1 (d.creditFor c).2 (qid * 32 + c.tag)).1 = true)
    (here : ∀ g ∈ granulesOf c.lba c.nblk, d.entHere (qid / 16) g = true)
    (came : (d.flashReads c.fetched c.cls (qid / 16) (d.wantFlash (qid / 16) c.lba c.nblk) (granulesOf c.lba c.nblk)).1 = true)
    {pre : Dev → Dev} (hpre : ∀ x : Dev, x.Passes qid (pre x) ∧ x.KeepsBlks (pre x)) (fin : Cmd → List (Nat × CwOut) → Dev → Dev) :
    ∃ c' outs e, (fin c' outs e).out <+: (d.withCredit qid c (fun d => d.runRead qid c pre fin)).out ∧ d.RunsTo qid h c c' outs e := by
  obtain ⟨x, hp, hs, hb, hout⟩ := d.withCredit_runs (qid := qid) hpay (fun d => d.runRead qid c pre fin)
  obtain ⟨c', outs, e, heq, hcmd, hpass, hserved⟩ := x.runRead_runs hqid ((hp.sliceHead (qid / 16) (by omega)).trans hh) c (fun g hg => (hp.entHere _ g).trans (here g hg))
    (by rw [hs.came, hs.wantFlash]; exact came) hpre fin
  refine ⟨c', outs, e, ?_, hcmd, hp.trans hpass, fun hcached => ?_⟩
  · rw [← heq]
    exact hout
  · have hx : x.cached (qid / 16) c := fun lba hl => (hs.fromFlash _ lba).trans (hcached lba hl)
    exact ⟨(hserved hx).1, hb.trans (hserved hx).2⟩

/-- A completion is told where all that follows keeps what was told. -/
theorem Dev.posts_within {a b : Dev} {tag st info : Nat} (h : d.posts a qid tag st info) (ho : a.out <+: b.out) : d.posts b qid tag st info := by
  obtain ⟨pasid, head, addr, ts, sqhd, timeb, htell⟩ := h
  exact ⟨pasid, head, addr, ts, sqhd, timeb, Dev.tells_within List.prefix_rfl htell ho⟩

/-! ### READ and VERIFY end (R110, R116, R120, R177) -/

theorem Dev.rdataRec_keeps (d : Dev) (s lba : Nat) : d.Passes qid (d.rdataRec s lba) ∧ d.KeepsBlks (d.rdataRec s lba) := by
  unfold Dev.rdataRec
  split
  · exact ⟨.ite (.of_serves (.capRec d _ _ _)) (.refl d qid), .ite (.of_reports (Dev.Reports.capRec d _ _ _)) (.refl d)⟩
  · exact ⟨.refl d qid, .refl d⟩

/-- One block told of, unless it failed. -/
def Dev.tellBlk (c : Cmd) (s : Nat) (out : Nat → Blk → Dev → Dev) (d : Dev) (f : Nat × Option (Nat × Nat)) : Dev :=
  match f.2 with
  | some _ => d
  | none => out f.1 (d.servedBlk s (c.lba + f.1)) (if c.op = opRead then d.rdataRec s (c.lba + f.1) else d)

/-- What is told of the blocks of a command that ends. -/
def Dev.told (d : Dev) (c : Cmd) (s : Nat) (outs : List (Nat × CwOut)) (out : Nat → Blk → Dev → Dev) : Dev :=
  ((List.range c.nblk).map (fun i => (i, d.blockFail c s i outs))).foldl (Dev.tellBlk c s out)
    (((List.range c.nblk).filter (fun i => !c.bad.contains i && !outs.any (fun x => x.1 == c.lba + i && x.2 == .lost))).foldl
      (fun d i => d.decrypt s (c.lba + i)) d)

/-- The status of the first block that failed. -/
def Dev.firstFail (d : Dev) (c : Cmd) (s : Nat) (outs : List (Nat × CwOut)) : Option (Nat × Nat) :=
  ((List.range c.nblk).filterMap (fun i => d.blockFail c s i outs)).head?

theorem Dev.endRead_eq (d : Dev) (qid : Nat) (c : Cmd) (outs : List (Nat × CwOut)) (out : Nat → Blk → Dev → Dev) : d.endRead qid c outs out =
    match d.firstFail c (qid / 16) outs with
    | some (st, info) => (if st = stUnrecoverable then (d.told c (qid / 16) outs out).inc Reg.SHF_UNRECOV 1 else d.told c (qid / 16) outs out).complete qid c.tag st info
    | none => (d.told c (qid / 16) outs out).succeed qid c c.wakeUs (outs.any (fun x => x.2 == .rebuilt)) false := by
  have hfails : ((List.range c.nblk).map (fun i => (i, d.blockFail c (qid / 16) i outs))).filterMap Prod.snd =
      (List.range c.nblk).filterMap (fun i => d.blockFail c (qid / 16) i outs) := by
    rw [List.filterMap_map]
    rfl
  unfold Dev.endRead Dev.firstFail
  dsimp only
  rw [hfails]
  rfl

section
variable {outs : List (Nat × CwOut)} {out : Nat → Blk → Dev → Dev} (hout : ∀ i b (x : Dev), x.Passes qid (out i b x) ∧ x.KeepsBlks (out i b x))
include hout

theorem Dev.tellBlk_keeps (x : Dev) (s : Nat) (f : Nat × Option (Nat × Nat)) : x.Passes qid (Dev.tellBlk c s out x f) ∧ x.KeepsBlks (Dev.tellBlk c s out x f) := by
  obtain ⟨h1, h2⟩ := x.rdataRec_keeps (qid := qid) s (c.lba + f.1)
  unfold Dev.tellBlk
  split
  · exact ⟨.refl x qid, .refl x⟩
  · have hrec : x.Passes qid (if c.op = opRead then x.rdataRec s (c.lba + f.1) else x) := .ite h1 (.refl x qid)
    have hblk : x.KeepsBlks (if c.op = opRead then x.rdataRec s (c.lba + f.1) else x) := .ite h2 (.refl x)
    exact ⟨hrec.trans (hout _ _ _).1, hblk.trans (hout _ _ _).2⟩

theorem Dev.told_keeps (d : Dev) (s : Nat) : d.Passes qid (d.told c s outs out) ∧ d.KeepsBlks (d.told c s outs out) := by
  have hdec : d.Passes qid (((List.range c.nblk).filter (fun i => !c.bad.contains i && !outs.any (fun x => x.1 == c.lba + i && x.2 == .lost))).foldl
      (fun d i => d.decrypt s (c.lba + i)) d) := .foldl (fun e i => .of_serves (.decrypt e s _)) _ d
  have hdecb : d.KeepsBlks (((List.range c.nblk).filter (fun i => !c.bad.contains i && !outs.any (fun x => x.1 == c.lba + i && x.2 == .lost))).foldl
      (fun d i => d.decrypt s (c.lba + i)) d) := .foldl (fun e i => .decrypt e s _) _ d
  exact ⟨hdec.trans (.foldl (fun x f => (Dev.tellBlk_keeps hout x s f).1) _ _), hdecb.trans (.foldl (fun x f => (Dev.tellBlk_keeps hout x s f).2) _ _)⟩

/-- The command ends with the first block's failure, or with success. -/
theorem Dev.endRead_posts (hqid : qid < 16384) {d0 : Dev} (hp : d0.canPost qid) (hpass : d0.Passes qid d) :
    (∀ st info, d.firstFail c (qid / 16) outs = some (st, info) → d0.posts (d.endRead qid c outs out) qid c.tag st info) ∧
    (d.firstFail c (qid / 16) outs = none → d0.posts (d.endRead qid c outs out) qid c.tag
      (successStatus c.wakeUs (outs.any (fun x => x.2 == .rebuilt)) false) (successInfo c.wakeUs (outs.any (fun x => x.2 == .rebuilt)) false)) ∧
    (d.told c (qid / 16) outs out).out <+: (d.endRead qid c outs out).out := by
  have htold := hpass.trans (d.told_keeps (c := c) (outs := outs) hout (qid / 16)).1
  have hcount : ∀ x : Dev, x.Passes qid (x.inc Reg.SHF_UNRECOV 1) := fun x => .of_serves (.inc x (.inr (by decide)) 1)
  rw [d.endRead_eq]
  generalize d.told c (qid / 16) outs out = x at htold
  refine ⟨fun st info hf => ?_, fun hf => ?_, ?_⟩
  · rw [hf]
    exact (htold.trans (.ite (hcount x) (.refl x qid))).posts hqid hp c.tag st info
  · rw [hf]
    exact htold.succeeds hqid hp c _ _ _
  · split
    · next st info _ =>
      have hite : x.Passes qid (if st = stUnrecoverable then x.inc Reg.SHF_UNRECOV 1 else x) := .ite (hcount x) (.refl x qid)
      exact hite.frame.out.trans (Dev.out_complete _ _ _ _ _)
    · exact Dev.out_succeed _ _ _ _ _ _

end

/-! ### Blocks handed over (R15, R108) -/

section
variable {d0 : Dev} (hpass : d0.Passes qid d) (hblk : d0.KeepsBlks d) (hcmd : c.Passed h c') (hcached : d0.cached (qid / 16) c)
include hpass hblk hcmd hcached

theorem Dev.firstFail_cached : d.firstFail c' (qid / 16) [] = d0.firstFail c (qid / 16) [] := by
  obtain ⟨-, -, -, hnblk, -⟩ := hcmd.fields
  unfold Dev.firstFail
  rw [hnblk]
  refine congrArg List.head? (List.filterMap_congr (fun i hi => ?_))
  exact Dev.KeepsBlks.blockFail hpass hblk hcmd (hcached.block (List.mem_range.mp hi))

/-- The data that a READ hands over for one block. -/
def Dev.handOut (qid : Nat) (c : Cmd) (lists : List (List Nat)) (i : Nat) (b : Blk) (d : Dev) : Dev :=
  d.emit (.hostData (d.slice (qid / 16)).pasid (d.unitHead qid c i) ((c.pages lists).getD i 0) (d.plainOf (qid / 16) (c.lba + i) b))

omit hpass hblk hcmd hcached in
theorem Dev.handOut_keeps (qid : Nat) (c : Cmd) (lists : List (List Nat)) (i : Nat) (b : Blk) (x : Dev) :
    x.Passes qid (Dev.handOut qid c lists i b x) ∧ x.KeepsBlks (Dev.handOut qid c lists i b x) := ⟨.emit x _, .emit x _⟩

theorem Dev.told_tells (hqid : qid < 16384) (hh : d0.sliceHead (qid / 16) = some h) (lists : List (List Nat)) (hgood : d0.firstFail c (qid / 16) [] = none)
    {i : Nat} (hi : i < c.nblk) : d0.tells (d.told c' (qid / 16) [] (Dev.handOut qid c' lists))
      (.hostData (d0.slice (qid / 16)).pasid (d0.unitHead qid c i) ((c.pages lists).getD i 0)
        (d0.plainOf (qid / 16) (c.lba + i) (d0.servedBlk (qid / 16) (c.lba + i)))) := by
  obtain ⟨-, -, hlba, hnblk, -⟩ := hcmd.fields
  have hnone : d.blockFail c' (qid / 16) i [] = none := by
    have hall : (List.range c.nblk).filterMap (fun i => d0.blockFail c (qid / 16) i []) = [] := List.head?_eq_none_iff.mp hgood
    exact (Dev.KeepsBlks.blockFail hpass hblk hcmd (hcached.block hi)).trans (List.filterMap_eq_nil_iff.mp hall i (List.mem_range.mpr hi))
  have hin : (i, none) ∈ (List.range c'.nblk).map (fun i => (i, d.blockFail c' (qid / 16) i [])) :=
    List.mem_map.mpr ⟨i, List.mem_range.mpr (hnblk ▸ hi), by rw [hnone]⟩
  have hdec : d0.Passes qid (((List.range c'.nblk).filter (fun i => !c'.bad.contains i && !([] : List (Nat × CwOut)).any (fun x => x.1 == c'.lba + i && x.2 == .lost))).foldl
      (fun d i => d.decrypt (qid / 16) (c'.lba + i)) d) := hpass.trans (.foldl (fun e i => .of_serves (.decrypt e _ _)) _ d)
  have hdecb : d0.KeepsBlks (((List.range c'.nblk).filter (fun i => !c'.bad.contains i && !([] : List (Nat × CwOut)).any (fun x => x.1 == c'.lba + i && x.2 == .lost))).foldl
      (fun d i => d.decrypt (qid / 16) (c'.lba + i)) d) := hblk.trans (.foldl (fun e i => .decrypt e _ _) _ d)
  unfold Dev.told
  generalize ((List.range c'.nblk).filter (fun i => !c'.bad.contains i && !([] : List (Nat × CwOut)).any (fun x => x.1 == c'.lba + i && x.2 == .lost))).foldl
      (fun d i => d.decrypt (qid / 16) (c'.lba + i)) d = x at hdec hdecb
  have hkeep := fun (x : Dev) f => Dev.tellBlk_keeps (c := c') (Dev.handOut_keeps qid c' lists) x (qid / 16) f
  have htell : ∀ y : Dev, d0.Passes qid y ∧ d0.KeepsBlks y → ∃ o, o = Out.hostData (d0.slice (qid / 16)).pasid (d0.unitHead qid c i) ((c.pages lists).getD i 0)
        (d0.plainOf (qid / 16) (c.lba + i) (d0.servedBlk (qid / 16) (c.lba + i))) ∧
      y.tells (Dev.tellBlk c' (qid / 16) (Dev.handOut qid c' lists) y (i, none)) o := fun y ⟨hy, hyb⟩ => by
    obtain ⟨hr1, hr2⟩ := y.rdataRec_keeps (qid := qid) (qid / 16) (c'.lba + i)
    have hz : d0.Passes qid (if c'.op = opRead then y.rdataRec (qid / 16) (c'.lba + i) else y) := hy.trans (.ite hr1 (.refl y qid))
    have hzb : d0.KeepsBlks (if c'.op = opRead then y.rdataRec (qid / 16) (c'.lba + i) else y) := hyb.trans (.ite hr2 (.refl y))
    have hzo : y.out <+: (if c'.op = opRead then y.rdataRec (qid / 16) (c'.lba + i) else y).out := (Dev.Passes.ite hr1 (.refl y qid)).frame.out
    refine ⟨_, rfl, ?_⟩
    unfold Dev.tellBlk
    dsimp only
    generalize (if c'.op = opRead then y.rdataRec (qid / 16) (c'.lba + i) else y) = z at hz hzb hzo
    unfold Dev.handOut
    rw [hlba, Dev.KeepsBlks.servedBlk hy hyb (hcached.block hi), hz.pasid, hz.unitHead hqid hh hcmd, hcmd.pages, Dev.KeepsBlks.plainOf hz hzb]
    exact Dev.tells_within hzo (Dev.tells_emit z _) List.prefix_rfl
  obtain ⟨o, rfl, ho⟩ := Dev.tells_foldl (f := Dev.tellBlk c' (qid / 16) (Dev.handOut qid c' lists)) (fun y : Dev => d0.Passes qid y ∧ d0.KeepsBlks y)
    (fun y f => (hkeep y f).1.frame.out) (fun y f hy => ⟨hy.1.trans (hkeep y f).1, hy.2.trans (hkeep y f).2⟩) htell _ x hin ⟨hdec, hdecb⟩
  exact Dev.tells_within hdec.frame.out ho List.prefix_rfl

end

end

end Sys2Proof.Machine
end

section
/-! O16: what each row that reads ends with. -/

namespace Sys2Proof.Machine

-- In order, one declaration at a time: keeps the check within its memory limit.
set_option Elab.async false

section
variable {d : Dev} {qid tag h : Nat} {c : Cmd}

/-! ### The rows -/

theorem doRead_row (hqid : qid < 16384) (htag : tag < 32) (hready : d.ready qid tag opRead = some c) (hmay : d.mayRun qid c = true)
    (hon : d.groupsOn (qid / 16) (lbasOf c.lba c.nblk) = true) (lists : List (List Nat)) :
    doRead qid tag lists d = if c.listBad lists then (d.listReads qid c lists).complete qid c.tag stInvalidField 16
      else d.withCredit qid c (fun d => d.runRead qid c (fun d => d.listReads qid c lists) (fun c o d => d.endRead qid c o (Dev.handOut qid c lists))) := by
  unfold doRead
  rw [Nat.mod_eq_of_lt hqid, Nat.mod_eq_of_lt htag]
  dsimp only
  rw [hready]
  dsimp only
  rw [hmay, hon]
  rfl

theorem doVerify_row (hqid : qid < 16384) (htag : tag < 32) (hready : d.ready qid tag opVerify = some c) (hmay : d.mayRun qid c = true)
    (hon : d.groupsOn (qid / 16) (lbasOf c.lba c.nblk) = true) :
    doVerify qid tag d = d.withCredit qid c (fun d => d.runRead qid c id (fun c o d => d.endRead qid c o (fun _ _ d => d))) := by
  unfold doVerify
  rw [Nat.mod_eq_of_lt hqid, Nat.mod_eq_of_lt htag]
  dsimp only
  rw [hready]
  dsimp only
  rw [hmay, hon]
  rfl

/-- The seals of a command's blocks, as it hands them over (R109). -/
def Dev.sealWords (d : Dev) (s : Nat) (c : Cmd) (outs : List (Nat × CwOut)) : List Nat :=
  (List.range c.nblk).map (fun i => if outs.any (fun x => x.1 == c.lba + i && x.2 == .lost) then 0 else (d.servedBlk s (c.lba + i)).sl.word)

/-- One page of packed seals. -/
def Dev.sealOut (qid : Nat) (c : Cmd) (lists : List (List Nat)) (seals : List Nat) (d : Dev) (j : Nat) : Dev :=
  d.emit (.hostData (d.slice (qid / 16)).pasid (d.unitHead qid c (256 * j)) ((c.pages lists).getD j 0) (packSeals ((seals.drop (256 * j)).take 256)))

/-- SEAL_READ ends. -/
def Dev.endSeal (qid : Nat) (lists : List (List Nat)) (c : Cmd) (outs : List (Nat × CwOut)) (d : Dev) : Dev :=
  ((List.range (ceilDiv c.nblk 256)).foldl (Dev.sealOut qid c lists (d.sealWords (qid / 16) c outs)) d).succeed qid c c.wakeUs (outs.any (fun x => x.2 == .rebuilt)) false

theorem doSealRead_row (hqid : qid < 16384) (htag : tag < 32) (hready : d.ready qid tag opSealRead = some c) (hmay : d.mayRun qid c = true)
    (hon : d.groupsOn (qid / 16) (lbasOf c.lba c.nblk) = true) (lists : List (List Nat)) :
    doSealRead qid tag lists d = if c.listBad lists then (d.listReads qid c lists).complete qid c.tag stInvalidField 16
      else d.withCredit qid c (fun d => d.runRead qid c (fun d => d.listReads qid c lists) (Dev.endSeal qid lists)) := by
  unfold doSealRead
  rw [Nat.mod_eq_of_lt hqid, Nat.mod_eq_of_lt htag]
  dsimp only
  rw [hready]
  dsimp only
  rw [hmay, hon]
  rfl

/-! ### What they end with -/

theorem Dev.listReads_keeps (x : Dev) (qid : Nat) (c : Cmd) (lists : List (List Nat)) : x.Passes qid (x.listReads qid c lists) ∧ x.KeepsBlks (x.listReads qid c lists) :=
  ⟨.hostReads x _ _ _, .hostReads x _ _ _⟩

/-- The status of a success of a read of cached blocks. -/
theorem successStatus_plain (us : Nat) : successStatus us false false = if 0 < us then 0x0602 else 0x0000 := by
  unfold successStatus
  split <;> rfl

section
variable (hqid : qid < 16384) (hp : d.canPost qid) (hh : d.sliceHead (qid / 16) = some h)
  (hpay : (d.takeCredit (d.creditFor c).1 (d.creditFor c).2 (qid * 32 + c.tag)).1 = true)
  (here : ∀ g ∈ granulesOf c.lba c.nblk, d.entHere (qid / 16) g = true)
include hqid hp hh hpay here

/-- A READ or VERIFY of blocks whose flash reads have come ends. -/
theorem Dev.endRead_ends (came : (d.flashReads c.fetched c.cls (qid / 16) (d.wantFlash (qid / 16) c.lba c.nblk) (granulesOf c.lba c.nblk)).1 = true)
    {pre : Dev → Dev} (hpre : ∀ x : Dev, x.Passes qid (pre x) ∧ x.KeepsBlks (pre x)) {out : Cmd → Nat → Blk → Dev → Dev}
    (hout : ∀ c i b (x : Dev), x.Passes qid (out c i b x) ∧ x.KeepsBlks (out c i b x)) :
    ∃ st info, d.posts (d.withCredit qid c (fun d => d.runRead qid c pre (fun c o d => d.endRead qid c o (out c)))) qid c.tag st info := by
  obtain ⟨c', outs, e, hle, hcmd, hpass, -⟩ := d.withCredit_read hqid hh hpay here came hpre (fun c o d => d.endRead qid c o (out c))
  obtain ⟨h1, h2, -⟩ := Dev.endRead_posts (c := c') (outs := outs) (hout c') hqid hp hpass
  obtain ⟨htag, -⟩ := hcmd.fields
  rw [htag] at h1 h2
  cases hf : e.firstFail c' (qid / 16) outs with
  | none => exact ⟨_, _, Dev.posts_within (h2 hf) hle⟩
  | some si => exact ⟨si.1, si.2, Dev.posts_within (h1 _ _ hf) hle⟩

/-- One of cached blocks ends with the first block's failure, or with success, told of each block. -/
theorem Dev.endRead_cached (hcached : d.cached (qid / 16) c) {pre : Dev → Dev} (hpre : ∀ x : Dev, x.Passes qid (pre x) ∧ x.KeepsBlks (pre x))
    {out : Cmd → Nat → Blk → Dev → Dev} (hout : ∀ c i b (x : Dev), x.Passes qid (out c i b x) ∧ x.KeepsBlks (out c i b x)) :
    ∃ t, t = d.withCredit qid c (fun d => d.runRead qid c pre (fun c o d => d.endRead qid c o (out c))) ∧
      (d.firstFail c (qid / 16) [] = none → d.posts t qid c.tag (if 0 < c.wakeUs then 0x0602 else 0x0000) (successInfo c.wakeUs false false)) ∧
      (∀ st info, d.firstFail c (qid / 16) [] = some (st, info) → d.posts t qid c.tag st info) ∧
      ∃ c' e, c.Passed h c' ∧ d.Passes qid e ∧ d.KeepsBlks e ∧ (e.told c' (qid / 16) [] (out c')).out <+: t.out := by
  obtain ⟨c', outs, e, hle, hcmd, hpass, hserved⟩ := d.withCredit_read hqid hh hpay here (hcached.came _ _) hpre (fun c o d => d.endRead qid c o (out c))
  obtain ⟨rfl, hblk⟩ := hserved hcached
  obtain ⟨h1, h2, h3⟩ := Dev.endRead_posts (c := c') (outs := []) (hout c') hqid hp hpass
  obtain ⟨htag, -, -, -, -, -, hwake, -⟩ := hcmd.fields
  have hfail := Dev.firstFail_cached hpass hblk hcmd hcached
  rw [htag, hfail] at h1 h2
  rw [hwake, List.any_nil, successStatus_plain] at h2
  exact ⟨_, rfl, fun hf => Dev.posts_within (h2 hf) hle, fun st info hf => Dev.posts_within (h1 st info hf) hle, c', e, hcmd, hpass, hblk, h3.trans hle⟩

/-- SEAL_READ ends with success, and of cached blocks hands over the seals. -/
theorem Dev.endSeal_ends (came : (d.flashReads c.fetched c.cls (qid / 16) (d.wantFlash (qid / 16) c.lba c.nblk) (granulesOf c.lba c.nblk)).1 = true)
    (lists : List (List Nat)) : ∃ t, t = d.withCredit qid c (fun d => d.runRead qid c (fun d => d.listReads qid c lists) (Dev.endSeal qid lists)) ∧
      (∃ st info, isSuccess st = true ∧ d.posts t qid c.tag st info) ∧
      (d.cached (qid / 16) c → ∀ j < ceilDiv c.nblk 256, d.tells t (.hostData (d.slice (qid / 16)).pasid (d.unitHead qid c (256 * j)) ((c.pages lists).getD j 0)
        (packSeals ((((List.range c.nblk).map (fun i => (d.servedBlk (qid / 16) (c.lba + i)).sl.word)).drop (256 * j)).take 256)))) := by
  obtain ⟨c', outs, e, hle, hcmd, hpass, hserved⟩ := d.withCredit_read hqid hh hpay here came (fun x => x.listReads_keeps qid c lists) (Dev.endSeal qid lists)
  obtain ⟨htag, -, hlba, hnblk, -⟩ := hcmd.fields
  have hstep : ∀ (x : Dev) j seals, x.Passes qid (Dev.sealOut qid c' lists seals x j) := fun x j _ => .emit x _
  have hall : ∀ seals, e.Passes qid ((List.range (ceilDiv c'.nblk 256)).foldl (Dev.sealOut qid c' lists seals) e) := fun seals =>
    .foldl (fun x j => hstep x j seals) _ e
  have hsucc : isSuccess (successStatus c'.wakeUs (outs.any (fun x => x.2 == .rebuilt)) false) = true := by
    unfold successStatus
    split_ifs <;> rfl
  have hpost := (hpass.trans (hall (e.sealWords (qid / 16) c' outs))).succeeds hqid hp c' c'.wakeUs (outs.any (fun x => x.2 == .rebuilt)) false
  rw [htag] at hpost
  refine ⟨_, rfl, ⟨_, _, hsucc, Dev.posts_within hpost hle⟩, fun hcached j hj => Dev.tells_within List.prefix_rfl ?_ hle⟩
  · obtain ⟨rfl, hblk⟩ := hserved hcached
    have hseals : e.sealWords (qid / 16) c' [] = (List.range c.nblk).map (fun i => (d.servedBlk (qid / 16) (c.lba + i)).sl.word) := by
      unfold Dev.sealWords
      rw [hnblk, hlba]
      refine List.map_congr_left (fun i hi => ?_)
      exact congrArg (fun b : Blk => b.sl.word) (Dev.KeepsBlks.servedBlk hpass hblk (hcached.block (List.mem_range.mp hi)))
    have htell : ∀ y : Dev, d.Passes qid y → ∃ o, o = Out.hostData (d.slice (qid / 16)).pasid (d.unitHead qid c (256 * j)) ((c.pages lists).getD j 0)
        (packSeals ((((List.range c.nblk).map (fun i => (d.servedBlk (qid / 16) (c.lba + i)).sl.word)).drop (256 * j)).take 256)) ∧
        y.tells (Dev.sealOut qid c' lists (e.sealWords (qid / 16) c' []) y j) o := fun y hy => by
      refine ⟨_, rfl, ?_⟩
      unfold Dev.sealOut
      rw [hy.pasid, hy.unitHead hqid hh hcmd, hcmd.pages, hseals]
      exact Dev.tells_emit y _
    obtain ⟨o, rfl, ho⟩ := Dev.tells_foldl (f := Dev.sealOut qid c' lists (e.sealWords (qid / 16) c' [])) (fun y : Dev => d.Passes qid y)
      (fun y k => (hstep y k _).frame.out) (fun y k hy => hy.trans (hstep y k _)) htell (List.range (ceilDiv c'.nblk 256)) e
      (List.mem_range.mpr (hnblk ▸ hj)) hpass
    exact Dev.tells_within hpass.frame.out ho (Dev.out_succeed _ _ _ _ _ _)

end

/-! ### FLUSH and the reports (R128, R518) -/

theorem doFlush_ends (hqid : qid < 16384) (htag : tag < 32) (hready : d.ready qid tag opFlush = some c) (hstop : d.cqeStop = false) (hp : d.canPost qid)
    (hnone : ∀ v ∈ d.cache, v.slice = qid / 16 → v.posted = true → v.pwin = false → v.postNo ≤ c.fetched → c.nblk ≠ 0 ∧ v.touches c.lba c.nblk = false) :
    d.posts (doFlush qid tag d) qid tag 0x0000 0 := by
  obtain ⟨-, rfl, -⟩ := Dev.ready_spec hready
  have hwaits : d.cache.any (fun v => v.slice == qid / 16 && v.posted && !v.pwin && decide (v.postNo ≤ c.fetched) &&
      (c.nblk == 0 || v.touches c.lba c.nblk)) = false := by
    rw [List.any_eq_false]
    intro v hv hbad
    simp only [Bool.and_eq_true, beq_iff_eq, decide_eq_true_eq, Bool.not_eq_true', Bool.or_eq_true] at hbad
    obtain ⟨⟨⟨⟨h1, h2⟩, h3⟩, h4⟩, h5⟩ := hbad
    obtain ⟨hn, ht⟩ := hnone v hv h1 h2 h3 h4
    rcases h5 with h5 | h5
    · exact hn h5
    · exact absurd (ht.symm.trans h5) (by decide)
  have heq : doFlush qid c.tag d = d.succeed qid c 0 false false := by
    unfold doFlush
    rw [Nat.mod_eq_of_lt hqid, Nat.mod_eq_of_lt htag]
    dsimp only
    rw [hready]
    dsimp only
    rw [hwaits, hstop]
    rfl
  rw [heq]
  exact (Dev.Passes.refl d qid).succeeds hqid hp c 0 false false

/-- A report is handed over and the command ends. -/
theorem Dev.reports_ends (hqid : qid < 16384) (hp : d.canPost qid) (o : Out) (tag : Nat) :
    d.posts ((d.emit o).complete qid tag stSuccess 0) qid tag 0x0000 0 ∧ d.tells ((d.emit o).complete qid tag stSuccess 0) o :=
  ⟨(Dev.Passes.emit d o).posts hqid hp tag 0 0, Dev.tells_within List.prefix_rfl (Dev.tells_emit d o) (Dev.out_complete _ _ _ _ _)⟩

theorem doMapSpace_eq (hqid : qid < 16384) (htag : tag < 32) (hready : d.ready qid tag opMapSpace = some c) (hh : d.sliceHead (qid / 16) = some h) :
    doMapSpace qid tag d = (d.emit (.hostReport (d.slice (qid / 16)).pasid h (c.dp.getD 0 0) [d.get64 Reg.MAP_CLOG_LO Reg.MAP_CLOG_HI, d.limit, d.valid,
      (d.mappedOf (qid / 16)).length, (d.slice (qid / 16)).pinned.length, d.fQ, d.gcModeOf, 0])).complete qid c.tag stSuccess 0 := by
  unfold doMapSpace
  rw [Nat.mod_eq_of_lt hqid, Nat.mod_eq_of_lt htag]
  dsimp only
  rw [hready]
  dsimp only
  rw [hh]
  rfl

theorem doHealthGet_eq (hqid : qid < 16384) (htag : tag < 32) (hready : d.ready qid tag opHealthGet = some c) (hh : d.sliceHead (qid / 16) = some h) :
    doHealthGet qid tag d = (d.emit (.hostReport (d.slice (qid / 16)).pasid h (c.dp.getD 0 0) (d.healthReport (some (qid / 16))))).complete qid c.tag stSuccess 0 := by
  unfold doHealthGet
  rw [Nat.mod_eq_of_lt hqid, Nat.mod_eq_of_lt htag]
  dsimp only
  rw [hready]
  dsimp only
  rw [hh]

end

/-! ### O16 -/

theorem Dev.cached.groupsOn {d : Dev} {s : Nat} {c : Cmd} (hc : d.cached s c) : d.groupsOn s (lbasOf c.lba c.nblk) = true :=
  List.all_eq_true.mpr (fun lba hl => by rw [hc lba hl]; rfl)

/-- Settles O16: a row that reads runs to its end once its credit, its pages and its flash reads are there; of cached blocks its outcomes are those of the
device that it starts from. -/
theorem readingRows : Obligations.ReadingRows := by
  unfold Obligations.ReadingRows
  intro s qid tag c hrun hqid htag hp sl h came cached fails good
  obtain ⟨h', hh⟩ := Option.ne_none_iff_exists'.mp hp.1
  have hhead : h = h' := by simp only [h, sl, hh, Option.getD_some]
  refine ⟨fun lists hready hnow hpay => ?_, fun hready hnow hpay => ?_, fun lists hready hnow hpay hcame => ?_, fun hready hstop hnone => ?_, fun hready => ?_, fun hready => ?_⟩
  · obtain ⟨hmay, -, here⟩ := hnow
    obtain ⟨-, rfl, -⟩ := Dev.ready_spec hready
    have hrow := act_of_running s (doRead qid c.tag lists) hrun
    have hlist := fun x : Dev => x.listReads_keeps qid c lists
    have hout := fun (c : Cmd) i b (x : Dev) => Dev.handOut_keeps qid c lists i b x
    refine ⟨fun hcached hlist0 => ?_, fun ⟨hon, hcame⟩ => ?_⟩
    · rw [doRead_row hqid htag hready hmay (Dev.cached.groupsOn hcached) lists, if_neg (by simp [hlist0])] at hrow
      obtain ⟨t, ht, hgood, hbad, c', e, hcmd, hpass, hblk, hle⟩ := Dev.endRead_cached hqid hp hh hpay here hcached hlist (out := fun c => Dev.handOut qid c lists) hout
      refine ⟨_, hrow, fun hf => ⟨?_, fun i hi => ?_⟩, fun st info hf => ?_⟩
      · exact ht ▸ hgood hf
      · have htell := Dev.told_tells hpass hblk hcmd hcached hqid hh lists hf hi
        exact Dev.tells_within List.prefix_rfl htell (ht ▸ hle)
      · exact ht ▸ hbad st info hf
    · rw [doRead_row hqid htag hready hmay hon lists] at hrow
      by_cases hbad : c.listBad lists = true
      · rw [if_pos hbad] at hrow
        exact ⟨_, hrow, _, _, (hlist s.dev).1.posts hqid hp c.tag _ _⟩
      · rw [if_neg hbad] at hrow
        obtain ⟨st, info, hpost⟩ := Dev.endRead_ends hqid hp hh hpay here hcame hlist (out := fun c => Dev.handOut qid c lists) hout
        exact ⟨_, hrow, st, info, hpost⟩
  · obtain ⟨hmay, -, here⟩ := hnow
    obtain ⟨-, rfl, -⟩ := Dev.ready_spec hready
    have hrow := act_of_running s (doVerify qid c.tag) hrun
    have hpre : ∀ x : Dev, x.Passes qid (id x) ∧ x.KeepsBlks (id x) := fun x => ⟨.refl x qid, .refl x⟩
    have hout : ∀ (c : Cmd) (i : Nat) (b : Blk) (x : Dev), x.Passes qid x ∧ x.KeepsBlks x := fun _ _ _ x => ⟨.refl x qid, .refl x⟩
    refine ⟨fun hcached => ?_, fun ⟨hon, hcame⟩ => ?_⟩
    · rw [doVerify_row hqid htag hready hmay (Dev.cached.groupsOn hcached)] at hrow
      obtain ⟨t, ht, hgood, hbad, -⟩ := Dev.endRead_cached hqid hp hh hpay here hcached hpre (out := fun _ _ _ x => x) hout
      exact ⟨_, hrow, fun hf => ht ▸ hgood hf, fun st info hf => ht ▸ hbad st info hf⟩
    · rw [doVerify_row hqid htag hready hmay hon] at hrow
      obtain ⟨st, info, hpost⟩ := Dev.endRead_ends hqid hp hh hpay here hcame hpre (out := fun _ _ _ x => x) hout
      exact ⟨_, hrow, st, info, hpost⟩
  · obtain ⟨hmay, -, here⟩ := hnow
    obtain ⟨-, rfl, -⟩ := Dev.ready_spec hready
    obtain ⟨hon, hcame⟩ := hcame
    have hrow := act_of_running s (doSealRead qid c.tag lists) hrun
    rw [doSealRead_row hqid htag hready hmay hon lists] at hrow
    refine ⟨fun hgood => ?_, fun hbad => ?_⟩
    · rw [if_neg (by simp [hgood])] at hrow
      obtain ⟨t, ht, hpost, htell⟩ := Dev.endSeal_ends hqid hp hh hpay here hcame lists
      exact ⟨_, hrow, ht ▸ hpost, fun hcached => ht ▸ htell hcached⟩
    · rw [if_pos hbad] at hrow
      exact ⟨_, hrow, (s.dev.listReads_keeps qid c lists).1.posts hqid hp c.tag _ _⟩
  · exact ⟨_, act_of_running s (doFlush qid tag) hrun, doFlush_ends hqid htag hready hstop hp hnone⟩
  · have hrow := act_of_running s (doMapSpace qid tag) hrun
    rw [doMapSpace_eq hqid htag hready hh] at hrow
    obtain ⟨-, rfl, -⟩ := Dev.ready_spec hready
    obtain ⟨h1, h2⟩ := Dev.reports_ends hqid hp (.hostReport (s.dev.slice (qid / 16)).pasid h' (c.dp.getD 0 0) [s.dev.get64 Reg.MAP_CLOG_LO Reg.MAP_CLOG_HI, s.dev.limit, s.dev.valid,
      (s.dev.mappedOf (qid / 16)).length, (s.dev.slice (qid / 16)).pinned.length, s.dev.fQ, s.dev.gcModeOf, 0]) c.tag
    rw [hhead]
    exact ⟨_, hrow, h1, h2⟩
  · have hrow := act_of_running s (doHealthGet qid tag) hrun
    rw [doHealthGet_eq hqid htag hready hh] at hrow
    obtain ⟨-, rfl, -⟩ := Dev.ready_spec hready
    obtain ⟨h1, h2⟩ := Dev.reports_ends hqid hp (.hostReport (s.dev.slice (qid / 16)).pasid h' (c.dp.getD 0 0) (s.dev.healthReport (some (qid / 16)))) c.tag
    rw [hhead]
    exact ⟨_, hrow, h1, h2⟩

end Sys2Proof.Machine
end
